-- ==== Sys2Proof/Word.lean ====
section
/-! DEFINITION. The words of the machine: 32-bit registers, bytes, and the plainest ways between numbers and words. -/

namespace Sys2Proof

/-- A register or a core's word: every register is 32 bits wide (R5). -/
abbrev Word := BitVec 32

/-- One byte of memory. -/
abbrev Byte := BitVec 8

end Sys2Proof
end

