-- ==== Sys2Proof/Syntax.lean ====
section
/-! DEFINITION. The commands of the block: one constructor per row of the opcode table, and the types of their operands. -/

namespace Sys2Proof

/-- Who makes an access: the port code of Table 1.3 it comes through, whether it is made in the Allemande's secure state
(R451), whether it carries the debug attribute (R469), and whether it is the window of the I3C host port (R490). -/
structure Acc where
  port : Nat
  secure : Bool
  debug : Bool
  host : Bool
deriving DecidableEq, Repr

/-- A beam position: sub-frame, line and dot (R11, Table 1.2). -/
structure BPos where
  sf : Nat
  line : Nat
  dot : Nat
deriving DecidableEq, Repr

/-- What an ECC check of a stored word finds (R72). -/
inductive Upset where
  | none
  | single
  | double
deriving DecidableEq, Repr

/-- The hops of a station: the ring or Ethernet hop of each port and the trunk hop on lane 3 of each port (R45). -/
inductive Hop where
  | ringA
  | ringB
  | trunkA
  | trunkB
deriving DecidableEq, Repr

/-- The beam-lock fields of a BEAM mark (Table 2.1). -/
structure Mark where
  frame : Nat
  pos : BPos
  corr : Nat
  hops : Nat
  hold : Bool
  locked : Bool
  rate : Int
deriving DecidableEq, Repr

/-- A request a master port presents to main SRAM: one 16-byte word, read or written under a byte mask (R24, R72). Of port PNL, `pair` is the
panel pair that the request serves (R208), or 16 and the number of the region that it serves (R217); no other port uses it. -/
structure PortReq where
  addr : Nat
  write : Bool
  mask : Nat
  data : Nat
  pair : Nat
deriving DecidableEq, Repr

/-- What a split pair compares of its partner: BEAM_PAIR and the six registers of R66 as the partner holds them. -/
structure PairView where
  pair : Nat
  active : Nat
  total : Nat
  dots : Nat
  subfm1 : Nat
  num : Nat
  den : Nat
deriving DecidableEq, Repr

/-- A word of the march test that was read with other bits than Table 3.1 expects: the background, the step of the table, the word
index in the bank, and the 137 bits read (R81). -/
structure MarchRead where
  background : Bool
  step : Nat
  word : Nat
  value : BitVec 137
deriving DecidableEq, Repr

/-- The fields of a PTP Announce message that the default best-master algorithm compares (IEEE 1588-2019, R59). -/
structure Announce where
  prio1 : Nat
  clockClass : Nat
  accuracy : Nat
  variance : Nat
  prio2 : Nat
  identity : Nat
  steps : Nat
  source : Nat
deriving DecidableEq, Repr

/-- An Aketh frame: its header (Table 11.3; LEN is the number of payload bytes) and its payload, as opened by the receiver. -/
structure Frame where
  type : Nat
  sub : Nat
  ver : Nat
  dmode : Nat
  wrap : Nat
  notify : Bool
  kp : Bool
  dst : Nat
  src : Nat
  seq : Nat
  rseq : Nat
  rsrc : Nat
  data : List Byte
deriving DecidableEq, Repr

/-- A HELLO record (Table 11.7). -/
structure Hello where
  linkver : Nat
  feat : Nat
  id : Nat
  rxlanes : Nat
  maxpay : Nat
  versions : Nat
  nonce : Nat
deriving DecidableEq, Repr



/-- The commands of the block, one constructor per row of the opcode table, with what each row leaves to the sender:
who accesses, which element of an array, the value written, and what is measured outside the part. -/
inductive Instr where
  /-- `REGISTER_WRITE` (R8). -/
  | registerWrite (m : Acc) (addr : Nat) (size : Nat) (v set : Word)
  /-- `BEAM_RUN` (R19). -/
  | beamRun (m : Acc) (subfm1 : Nat)
  /-- `BEAM_STOP_REQUEST` (R19). -/
  | beamStopRequest (m : Acc) (subfm1 : Nat)
  /-- `BEAM_STOP` (R19). -/
  | beamStop
  /-- `FRAME_START` (R20). -/
  | frameStart (sf : Fin 4)
  /-- `BEAM_POS_READ` (R22). -/
  | beamPosRead (m : Acc)
  /-- `BEAM_MATCH` (R23). -/
  | beamMatch (n : Fin 4) (sf : Nat)
  /-- `TRIGGER_FIRE` (R32). -/
  | triggerFire (n : Fin 32) (sf : Nat) (rep : Nat)
  /-- `COT_COMMIT` (R34). -/
  | cotCommit (m : Acc) (v : Word)
  /-- `COMMIT_MARK` (R34). -/
  | commitMark
  /-- `COMMIT_GROUP_APPLY` (R35). -/
  | commitGroupApply (g : Fin 10)
  /-- `STREAM_WINDOW_UPDATE` (R27). -/
  | streamWindowUpdate (port : Fin 16) (reqs : List PortReq)
  /-- `MEMORY_ACCESS` (R24). -/
  | memoryAccess (k : Fin 256) (bank : Fin 32) (upset : Upset)
  /-- `READ_RETURN` (R71). -/
  | readReturn (port : Fin 16)
  /-- `ACCESS_TIMEOUT` (R90). -/
  | accessTimeout (m : Acc) (addr : Nat) (write : Bool)
  /-- `ECC_WRITEBACK` (R73). -/
  | eccWriteback (word : Nat)
  /-- `SCRUB_WINDOW` (R75). -/
  | scrubWindow (found : List (Nat × Upset))
  /-- `CE_WINDOW_END` (R76). -/
  | ceWindowEnd
  /-- `MRC_CEPOL_WRITE` (R76). -/
  | mrcCepolWrite (m : Acc) (v : Word)
  /-- `MIGRATION_START` (R77). -/
  | migrationStart
  /-- `MIGRATION_COPY` (R78). -/
  | migrationCopy
  /-- `MIGRATION_DONE` (R77). -/
  | migrationDone
  /-- `MRC_REQ_PRESERVING` (R83). -/
  | mrcReqPreserving (m : Acc) (bank : Fin 32)
  /-- `MRC_REQ_DESTROYING` (R84). -/
  | mrcReqDestroying (m : Acc) (bank : Fin 32)
  /-- `MARCH_TEST_DONE` (R81). -/
  | marchTestDone (reads : List MarchRead)
  /-- `STARTUP_MARCH_DONE` (R82). -/
  | startupMarchDone (reads : List (Fin 34 × MarchRead))
  /-- `WIPE_DONE` (R86). -/
  | wipeDone
  /-- `BEAM_MARK_SEND` (R49). -/
  | beamMarkSend (sf : Nat) (line : Nat)
  /-- `BEAM_MARK` (R50). -/
  | beamMark (hop : Hop) (ok : Bool) (f : Frame) (own : Int) (residence : Nat)
  /-- `DELAY_PROBE_SEND` (R51). -/
  | delayProbeSend (hop : Hop) (t1 : Int)
  /-- `PROBE` (R51). -/
  | probe (hop : Hop) (ok : Bool) (f : Frame) (t2 t3 : Int)
  /-- `REPLY` (R51). -/
  | reply (hop : Hop) (ok : Bool) (f : Frame) (t4 : Int)
  /-- `SOURCE_LOST` (R52). -/
  | sourceLost
  /-- `HOLDOVER_ENTRY` (R54). -/
  | holdoverEntry
  /-- `BEAM_STEP` (R55). -/
  | beamStep (pos : BPos)
  /-- `FSYNC_EDGE` (R58). -/
  | fsyncEdge (rising : Bool) (own : Nat) (rate : Int)
  /-- `FSYNC_LOSS` (R58). -/
  | fsyncLoss
  /-- `PTP_SYNC` (R59). -/
  | ptpSync (domain : Nat) (source : Nat) (t1 t2 : Int) (own : Nat) (rate : Int)
  /-- `PTP_ANNOUNCE` (R59). -/
  | ptpAnnounce (domain : Nat) (data : Announce)
  /-- `PTP_DELAY_REQ` (R59). -/
  | ptpDelayReq (t3 : Int)
  /-- `PTP_DELAY_RESP` (R59). -/
  | ptpDelayResp (domain : Nat) (source : Nat) (t4 : Int)
  /-- `PTP_LOSS` (R59). -/
  | ptpLoss
  /-- `FSYNC_OUT_PULSE` (R60). -/
  | fsyncOutPulse (sf : Nat)
  /-- `FSYNC_OUT_END` (R60). -/
  | fsyncOutEnd
  /-- `VOTECUT` (R62). -/
  | votecut (sf : Nat)
  /-- `VOTE` (R62). -/
  | vote (hop : Hop) (ok : Bool) (f : Frame)
  /-- `VOTE_SEND` (R63). -/
  | voteSend (pos : BPos)
  /-- `VOTE_DECISION` (R64). -/
  | voteDecision
  /-- `DECISION` (R64). -/
  | decision (hop : Hop) (ok : Bool) (f : Frame)
  /-- `PAIRREADY` (R67). -/
  | pairready (hop : Hop) (ok : Bool) (f : Frame)
  /-- `LINE_START` (R144). -/
  | lineStart
  /-- `LINE_COMPOSED` (R122). -/
  | lineComposed
  /-- `RASTER_WRITE` (R145). -/
  | rasterWrite
  /-- `LINE_CONFIRM` (R148). -/
  | lineConfirm
  /-- `SWAP` (R150). -/
  | swap (line : Nat)
  /-- `FRAME_HOLD` (R151). -/
  | frameHold (lane : Fin 4)
  /-- `QDL_DISABLE` (R151). -/
  | qdlDisable (m : Acc)
  /-- `QDL_ENABLE` (R151). -/
  | qdlEnable (m : Acc)
  /-- `LAYER_FENCE_SIGNAL` (R142). -/
  | layerFenceSignal (m : Acc) (slot : Fin 12)
  /-- `LATE_FENCE_DEADLINE` (R143). -/
  | lateFenceDeadline (slot : Fin 12)
  /-- `LANE_CHECK_ERROR` (R503). -/
  | laneCheckError (lane : Fin 4)
  /-- `LANE_ERROR_WINDOW_END` (R505). -/
  | laneErrorWindowEnd
  /-- `QDL_LANEPOL_WRITE` (R503). -/
  | qdlLanepolWrite (m : Acc) (v : Word)
  /-- `ENGINE_FRAME_ENTRY` (R158). -/
  | engineFrameEntry (e : Fin 8)
  /-- `ENGINE_OVERRUN` (R159). -/
  | engineOverrun (e : Fin 8)
  /-- `BEAM_WORD` (R162). -/
  | beamWord (e : Fin 8) (upset : Upset)
  /-- `BEAM_WORD_V1` (R182). -/
  | beamWordV1 (e : Fin 8) (upset : Upset)
  /-- `REALTIME_WAIT_END` (R165). -/
  | realtimeWaitEnd (e : Fin 8) (pos : BPos)
  /-- `SYNC_WAIT_END` (R162). -/
  | syncWaitEnd (e : Fin 8) (pos : BPos)
  /-- `LD_RETURN` (R167). -/
  | ldReturn (e : Fin 8)
  /-- `QUEUE_STALL_END` (R173). -/
  | queueStallEnd (e : Fin 8)
  /-- `TIMED_WRITE` (R174). -/
  | timedWrite (pos : BPos)
  /-- `ENGINE_FAULT_CLEAR` (R179). -/
  | engineFaultClear (m : Acc) (e : Fin 8)
  /-- `GFLAG_SET` (R170). -/
  | gflagSet (m : Acc) (v : Word)
  /-- `GFLAG_CLEAR` (R170). -/
  | gflagClear (m : Acc) (v : Word)
  /-- `BEAM_STORE_WRITE` (R180). -/
  | beamStoreWrite (m : Acc) (addr : Nat) (v : Word)
  /-- `BEAM_STORE_SCRUB` (R181). -/
  | beamStoreScrub (upset : Upset)
  /-- `UNIT_SEND` (R195). -/
  | unitSend (port : Fin 32)
  /-- `UNIT_DELIVERED` (R196). -/
  | unitDelivered (port : Fin 32)
  /-- `SEGMENT_FETCH` (R207). -/
  | segmentFetch (pair : Fin 16)
  /-- `SEGMENT_LANDED` (R209). -/
  | segmentLanded (pair : Fin 16)
  /-- `GRID_POINT` (R199). -/
  | gridPoint
  /-- `SCAN_ROW_STEP` (R200). -/
  | scanRowStep (group : Fin 8)
  /-- `SWAP_COMMAND` (R201). -/
  | swapCommand
  /-- `STORE_EXCHANGE` (R202). -/
  | storeExchange (ripe : Bool)
  /-- `PLANE_SLOT` (R205). -/
  | planeSlot (port : Fin 32)
  /-- `SCANOUT_PREFETCH` (R209). -/
  | scanoutPrefetch (port : Fin 32) (row plane : Nat)
  /-- `BLANK_REQUEST` (R210). -/
  | blankRequest (m : Acc) (v : Word)
  /-- `BLANK_START` (R210). -/
  | blankStart
  /-- `BLANK_END` (R210). -/
  | blankEnd
  /-- `PNL_CMD_CFG` (R211). -/
  | pnlCmdCfg (m : Acc)
  /-- `PNL_CMD_GAIN` (R211). -/
  | pnlCmdGain (m : Acc) (data : BitVec 16)
  /-- `PNL_CMD_USER` (R211). -/
  | pnlCmdUser (m : Acc) (data : BitVec 16)
  /-- `PNL_COMMAND_SEND` (R211). -/
  | pnlCommandSend (port : Fin 32)
  /-- `PNL_MAPDATA` (R194). -/
  | pnlMapdata (m : Acc) (write : Bool) (v : Word)
  /-- `SIGNATURE_DECIDED` (R217). -/
  | signatureDecided (region : Fin 16)
  /-- `SUBSTITUTION_DONE` (R223). -/
  | substitutionDone (region : Fin 16)
  /-- `PAVANE_REQUEST` (R225). -/
  | pavaneRequest (m : Acc) (v : Word)
  /-- `PAVANE_EXIT_REQUEST` (R225). -/
  | pavaneExitRequest (m : Acc) (v : Word)
  /-- `BEAM_SAMPLE` (R232). `tdm` gives, for each TDM port, the words of its slots as its input rate converters bring them to this sample
  (R242, R269). -/
  | beamSample (tdm : List (List Nat))
  /-- `KEY_ON` (R235). -/
  | keyOn (m : Acc) (n : Fin 2) (v : Word)
  /-- `KEY_OFF` (R235). -/
  | keyOff (m : Acc) (n : Fin 2) (v : Word)
  /-- `NODE_WRITE` (R245). -/
  | nodeWrite (m : Acc) (v : Word)
  /-- `ZC_TIMEOUT` (R246). -/
  | zcTimeout (o : Fin 48) (node : Fin 128)
  /-- `VOICE_FETCH` (R239). -/
  | voiceFetch (voice : Fin 64) (upset : Upset)
  /-- `SOUND_BLOCK` (R249). -/
  | soundBlock
  /-- `SOUND_SAMPLES` (R241). -/
  | soundSamples (hop : Hop) (ok : Bool) (f : Frame)
  /-- `BIQUAD_COEF_WRITE` (R250). -/
  | biquadCoefWrite (m : Acc) (o : Fin 32) (k : Fin 10) (v : Word)
  /-- `SND_KLO_READ` (R257). -/
  | sndKloRead (m : Acc)
  /-- `ASRC_LOCK` (R242). -/
  | asrcLock (conv : Fin 20)
  /-- `ASRC_UNLOCK` (R242). -/
  | asrcUnlock (conv : Fin 20)
  /-- `OBJECT_UPDATE` (R261). -/
  | objectUpdate
  /-- `OBJ_MUTE` (R263). -/
  | objMute (m : Acc) (v : Word)
  /-- `TDM_FS_EDGE` (R270). -/
  | tdmFsEdge (port : Fin 4) (count : Nat)
  /-- `TDM_LOST` (R270). -/
  | tdmLost (port : Fin 4)
  /-- `LANE_BLOCK_LOCK` (R282). -/
  | laneBlockLock (hop : Hop) (lane : Fin 4)
  /-- `TRAINING_TIMEOUT` (R282). -/
  | trainingTimeout (hop : Hop)
  /-- `ALIGN_DONE` (R282). -/
  | alignDone (hop : Hop) (skewed : List (Fin 4))
  /-- `HELLO` (R284). -/
  | hello (hop : Hop) (ok : Bool) (f : Frame)
  /-- `KEYX` (R285). -/
  | keyx (hop : Hop) (ok : Bool) (f : Frame) (sigOk : Bool) (peer : PairView)
  /-- `KEY_RETRY` (R282). -/
  | keyRetry (hop : Hop)
  /-- `LCB_SEND` (R274). -/
  | lcbSend (hop : Hop) (sent : List (List (BitVec 66)))
  /-- `LCB` (R274). -/
  | lcb (hop : Hop) (block : BitVec 64) (blocks : List (BitVec 66))
  /-- `REPLAY_TIMEOUT` (R287). -/
  | replayTimeout (hop : Hop)
  /-- `FRAME_FORWARD` (R289). -/
  | frameForward (hop : Hop) (ok : Bool) (f : Frame)
  /-- `CENSUS_SEND` (R286). -/
  | censusSend
  /-- `CENSUS` (R286). -/
  | census (hop : Hop) (ok : Bool) (f : Frame)
  /-- `LCB_MISS` (R295). -/
  | lcbMiss (hop : Hop)
  /-- `PIROUETTE_CONFIRM` (R295). -/
  | pirouetteConfirm (port : Fin 2)
  /-- `TURNAROUND` (R296). -/
  | turnaround (port : Fin 2)
  /-- `RINGSTATE` (R296). -/
  | ringstate (hop : Hop) (ok : Bool) (f : Frame)
  /-- `LANE_LOST` (R300). -/
  | laneLost (hop : Hop) (lane : Fin 4)
  /-- `LANE_CRC_WINDOW_END` (R300). -/
  | laneCrcWindowEnd (port : Fin 2)
  /-- `AKETH_EPOL_WRITE` (R300). -/
  | akethEpolWrite (m : Acc) (port : Fin 2) (v : Word)
  /-- `AKETH_RETRAIN` (R282). -/
  | akethRetrain (m : Acc) (port : Fin 2)
  /-- `AKETH_LANE_RETRY` (R301). -/
  | akethLaneRetry (m : Acc) (port : Fin 2)
  /-- `AKETH_REKEY` (R285). -/
  | akethRekey (m : Acc) (port : Fin 2)
  /-- `ETHERNET_FRAME` (R305). -/
  | ethernetFrame (port : Fin 2) (fcs ok ptp : Bool) (dst etype size : Nat) (f : Frame)
  /-- `SCENE_WRITE` (R279). -/
  | sceneWrite (hop : Hop) (ok : Bool) (f : Frame)
  /-- `SCENE_FILL` (R278). -/
  | sceneFill (hop : Hop) (ok : Bool) (f : Frame)
  /-- `PLANE_SEGMENT` (R280). -/
  | planeSegment (hop : Hop) (ok : Bool) (f : Frame)
  /-- `ADD` (R314). -/
  | gvAdd (c : Fin 3) (rd ra rb : Fin 16)
  /-- `SUB` (R314). -/
  | gvSub (c : Fin 3) (rd ra rb : Fin 16)
  /-- `AND` (R314). -/
  | gvAnd (c : Fin 3) (rd ra rb : Fin 16)
  /-- `OR` (R314). -/
  | gvOr (c : Fin 3) (rd ra rb : Fin 16)
  /-- `XOR` (R314). -/
  | gvXor (c : Fin 3) (rd ra rb : Fin 16)
  /-- `SHL` (R314). -/
  | gvShl (c : Fin 3) (rd ra rb : Fin 16)
  /-- `SHR` (R314). -/
  | gvShr (c : Fin 3) (rd ra rb : Fin 16)
  /-- `ASR` (R314). -/
  | gvAsr (c : Fin 3) (rd ra rb : Fin 16)
  /-- `MUL` (R314). -/
  | gvMul (c : Fin 3) (rd ra rb : Fin 16)
  /-- `MULHS` (R314). -/
  | gvMulhs (c : Fin 3) (rd ra rb : Fin 16)
  /-- `MULHU` (R314). -/
  | gvMulhu (c : Fin 3) (rd ra rb : Fin 16)
  /-- `DIVS` (R314). -/
  | gvDivs (c : Fin 3) (rd ra rb : Fin 16)
  /-- `DIVU` (R314). -/
  | gvDivu (c : Fin 3) (rd ra rb : Fin 16)
  /-- `REMS` (R314). -/
  | gvRems (c : Fin 3) (rd ra rb : Fin 16)
  /-- `REMU` (R314). -/
  | gvRemu (c : Fin 3) (rd ra rb : Fin 16)
  /-- `ADDI` (R314). -/
  | gvAddi (c : Fin 3) (rd ra : Fin 16) (imm : BitVec 18)
  /-- `ANDI` (R314). -/
  | gvAndi (c : Fin 3) (rd ra : Fin 16) (imm : BitVec 18)
  /-- `ORI` (R314). -/
  | gvOri (c : Fin 3) (rd ra : Fin 16) (imm : BitVec 18)
  /-- `XORI` (R314). -/
  | gvXori (c : Fin 3) (rd ra : Fin 16) (imm : BitVec 18)
  /-- `SHLI` (R314). -/
  | gvShli (c : Fin 3) (rd ra : Fin 16) (imm : BitVec 5)
  /-- `SHRI` (R314). -/
  | gvShri (c : Fin 3) (rd ra : Fin 16) (imm : BitVec 5)
  /-- `ASRI` (R314). -/
  | gvAsri (c : Fin 3) (rd ra : Fin 16) (imm : BitVec 5)
  /-- `MOVI` (R314). -/
  | gvMovi (c : Fin 3) (rd : Fin 16) (imm : BitVec 18)
  /-- `LUI` (R314). -/
  | gvLui (c : Fin 3) (rd : Fin 16) (imm : BitVec 16)
  /-- `LDW` (R321). -/
  | gvLdw (c : Fin 3) (rd ra : Fin 16) (imm : BitVec 18)
  /-- `LDH` (R321). -/
  | gvLdh (c : Fin 3) (rd ra : Fin 16) (imm : BitVec 18)
  /-- `LDHU` (R321). -/
  | gvLdhu (c : Fin 3) (rd ra : Fin 16) (imm : BitVec 18)
  /-- `LDB` (R321). -/
  | gvLdb (c : Fin 3) (rd ra : Fin 16) (imm : BitVec 18)
  /-- `LDBU` (R321). -/
  | gvLdbu (c : Fin 3) (rd ra : Fin 16) (imm : BitVec 18)
  /-- `STW` (R321). -/
  | gvStw (c : Fin 3) (rd ra : Fin 16) (imm : BitVec 18)
  /-- `STH` (R321). -/
  | gvSth (c : Fin 3) (rd ra : Fin 16) (imm : BitVec 18)
  /-- `STB` (R321). -/
  | gvStb (c : Fin 3) (rd ra : Fin 16) (imm : BitVec 18)
  /-- `LOAD_RESULT` (R323). -/
  | loadResult (c : Fin 3) (rd : Fin 16)
  /-- `STORE_RESPONSE` (R322). -/
  | storeResponse (c : Fin 3)
  /-- `SWAP_ATOMIC` (R327). -/
  | gvSwapAtomic (c : Fin 3) (rd ra rb : Fin 16)
  /-- `CAS` (R327). -/
  | gvCas (c : Fin 3) (rd ra rb : Fin 16)
  /-- `FADD` (R327). -/
  | gvFadd (c : Fin 3) (rd ra rb : Fin 16)
  /-- `FOR` (R327). -/
  | gvFor (c : Fin 3) (rd ra rb : Fin 16)
  /-- `FANDN` (R327). -/
  | gvFandn (c : Fin 3) (rd ra rb : Fin 16)
  /-- `ATOMIC_RESPONSE` (R327). -/
  | atomicResponse (c : Fin 3)
  /-- `LOCKED_ACCESS_WITHDRAW` (R345). -/
  | lockedAccessWithdraw (c : Fin 3)
  /-- `BR` (R316). -/
  | gvBr (c : Fin 3) (off : BitVec 26)
  /-- `CALL` (R316). -/
  | gvCall (c : Fin 3) (off : BitVec 26)
  /-- `JR` (R316). -/
  | gvJr (c : Fin 3) (ra : Fin 16)
  /-- `CALLR` (R316). -/
  | gvCallr (c : Fin 3) (ra : Fin 16)
  /-- `RET` (R316). -/
  | gvRet (c : Fin 3)
  /-- `RETI` (R333). -/
  | gvReti (c : Fin 3)
  /-- `CSK` (R315). -/
  | gvCsk (c : Fin 3) (cc ra rb : Fin 16)
  /-- `CSKI` (R315). -/
  | gvCski (c : Fin 3) (cc ra : Fin 16) (imm : BitVec 18)
  /-- `TBSK` (R315). -/
  | gvTbsk (c : Fin 3) (ra : Fin 16) (bit : Fin 32) (set : Bool)
  /-- `BFX` (R319). -/
  | gvBfx (c : Fin 3) (rd ra : Fin 16) (pos wm1 : Fin 32) (signed : Bool)
  /-- `BFI` (R319). -/
  | gvBfi (c : Fin 3) (rd ra : Fin 16) (pos wm1 : Fin 32)
  /-- `CLZ` (R314). -/
  | gvClz (c : Fin 3) (rd ra : Fin 16)
  /-- `PERM` (R320). -/
  | gvPerm (c : Fin 3) (rd ra : Fin 16) (sel : BitVec 16)
  /-- `MFS` (R311). -/
  | gvMfs (c : Fin 3) (rd : Fin 16) (sreg : Fin 256)
  /-- `MTS` (R311). -/
  | gvMts (c : Fin 3) (sreg : Fin 256) (ra : Fin 16)
  /-- `FENCE` (R325). -/
  | gvFence (c : Fin 3)
  /-- `IFENCE` (R326). -/
  | gvIfence (c : Fin 3)
  /-- `WAIT` (R334). -/
  | gvWait (c : Fin 3)
  /-- `DI` (R314). -/
  | gvDi (c : Fin 3) (rd : Fin 16)
  /-- `EI` (R314). -/
  | gvEi (c : Fin 3)
  /-- `SYSC` (R328). -/
  | gvSysc (c : Fin 3) (code : BitVec 14)
  /-- `BRK` (R328). -/
  | gvBrk (c : Fin 3) (code : BitVec 14)
  /-- `ISQRT` (R320). -/
  | gvIsqrt (c : Fin 3) (rd ra : Fin 16)
  /-- `CRCW` (R320). -/
  | gvCrcw (c : Fin 3) (rd ra rb : Fin 16)
  /-- `CRCB` (R320). -/
  | gvCrcb (c : Fin 3) (rd ra rb : Fin 16)
  /-- `UOP` (R347). -/
  | gvUop (c : Fin 3) (n : Fin 64) (rd ra rb : Fin 16) (imm : BitVec 8)
  /-- `INTERRUPT_ENTRY` (R332). -/
  | interruptEntry (c : Fin 3) (gone : Option (Fin 16))
  /-- `EXCEPTION_ENTRY` (R330). -/
  | exceptionEntry (c : Fin 3)
  /-- `CONTROL_STORE_REPAIR` (R352). -/
  | controlStoreRepair (c : Fin 3) (word : Fin 16384) (other : Upset) (entry : Bool)
  /-- `IMG_UCLOAD` (R350). -/
  | imgUcload (m : Acc) (v : Word)
  /-- `UCODE_LOAD_DONE` (R350). -/
  | ucodeLoadDone (sigOk : Bool)
  /-- `IMG_UCSWAP` (R353). -/
  | imgUcswap (m : Acc) (v : Word)
  /-- `UCODE_SWAP` (R353). -/
  | ucodeSwap (quiesce : Nat)
  /-- `UCODE_MIRROR_DONE` (R353). -/
  | ucodeMirrorDone
  /-- `CONTROL_STORE_SCRUB` (R351). -/
  | controlStoreScrub (found : List Upset)
  /-- `REEL_GO` (R357). -/
  | reelGo (m : Acc) (v trig : Word)
  /-- `REEL_ABORT` (R369). -/
  | reelAbort (m : Acc) (v start done : Word)
  /-- `DESCRIPTOR_FETCH` (R358). -/
  | descriptorFetch (c : Fin 32)
  /-- `REEL_BEAT` (R362). -/
  | reelBeat (port : Fin 2) (upset : Upset)
  /-- `REEL_BEAT_RESPONSE` (R368). -/
  | reelBeatResponse (c : Fin 32)
  /-- `DESCRIPTOR_COMPLETE` (R361). -/
  | descriptorComplete (c : Fin 32)
  /-- `BLK_PUSH` (R371). -/
  | blkPush (m : Acc) (v : Word)
  /-- `BLK_GO` (R371). -/
  | blkGo (m : Acc) (v : Word) (trig : Bool)
  /-- `BLK_JOB_START` (R378). -/
  | blkJobStart
  /-- `BLK_BURST` (R374). -/
  | blkBurst
  /-- `BLK_DEAD_END` (R375). -/
  | blkDeadEnd
  /-- `BLK_ROW_DONE` (R376). -/
  | blkRowDone
  /-- `BLK_ERROR_STOP` (R378). -/
  | blkErrorStop
  /-- `BLK_ERROR_CLEAR` (R378). -/
  | blkErrorClear (m : Acc) (v : Word)
  /-- `IRQ_RAISE` (R382). -/
  | irqRaise (m : Acc) (v : Word)
  /-- `IRQ_CLR` (R382). -/
  | irqClr (m : Acc) (v : Word)
  /-- `IRQ_FB_WRITE` (R383). -/
  | irqFbWrite (m : Acc) (src : Fin 256) (v : Word)
  /-- `COALESCER_TIMEOUT` (R387). -/
  | coalescerTimeout (k : Fin 16)
  /-- `IRQ_COAL_CFG_WRITE` (R387). -/
  | irqCoalCfgWrite (m : Acc) (k : Fin 16) (v : Word)
  /-- `WAKE_SLOT_EVENT` (R388). -/
  | wakeSlotEvent (k : Fin 32)
  /-- `TIMER_TICK` (R390). -/
  | timerTick (n : Fin 16)
  /-- `TIMER_MASTER_EVENT` (R393). -/
  | timerMasterEvent (n : Fin 16)
  /-- `TMR_CNT_READ` (R392). -/
  | tmrCntRead (m : Acc) (n : Fin 16)
  /-- `TMR_CNT_WRITE` (R390). -/
  | tmrCntWrite (m : Acc) (n : Fin 16) (v : Word)
  /-- `TMR_CMP_WRITE` (R391). -/
  | tmrCmpWrite (m : Acc) (n : Fin 16) (v : Word) (tick : Bool)
  /-- `TIMER_CAPTURE` (R394). -/
  | timerCapture (n : Fin 16)
  /-- `TMR_CAP_READ` (R394). -/
  | tmrCapRead (m : Acc) (n : Fin 16) (edge : Bool)
  /-- `WDG_ENABLE` (R395). -/
  | wdgEnable (m : Acc) (w : Fin 3) (v : Word)
  /-- `WDG_KEY` (R395). -/
  | wdgKey (m : Acc) (w : Fin 3) (v : Word)
  /-- `WDG_KEY_TIMEOUT` (R395). -/
  | wdgKeyTimeout (w : Fin 3)
  /-- `WDG_WARNING` (R395). -/
  | wdgWarning (w : Fin 3)
  /-- `WDG_EXPIRY` (R396). -/
  | wdgExpiry (w : Fin 3)
  /-- `PLL_F_LOSS` (R401). -/
  | pllFLoss
  /-- `CLOCK_RESUME` (R501). -/
  | clockResume
  /-- `PLL_REVERT` (R401). -/
  | pllRevert (m : Acc) (v : Word) (relocked : Bool)
  /-- `BEAM_PLL_LOSS` (R402). -/
  | beamPllLoss
  /-- `BEAM_PLL_RELOCK` (R402). -/
  | beamPllRelock
  /-- `REF25_LOSS` (R402). -/
  | ref25Loss
  /-- `AUDIO_PLL_LOSS` (R402). -/
  | audioPllLoss
  /-- `AUDIO_PLL_RELOCK` (R402). -/
  | audioPllRelock
  /-- `SLEEP_ENTRY` (R407). -/
  | sleepEntry (t : Nat)
  /-- `WAKE_START` (R408). -/
  | wakeStart
  /-- `WAKE_DONE` (R409). -/
  | wakeDone
  /-- `SUPPLY_OUT_OF_RANGE` (R410). -/
  | supplyOutOfRange
  /-- `POWER_ON_RESET` (R411). -/
  | powerOnReset
  /-- `RESET_RELEASE` (R410). -/
  | resetRelease
  /-- `RESET_N` (R488). -/
  | resetN
  /-- `CLK_SWRST` (R411). -/
  | clkSwrst (m : Acc) (v : Word)
  /-- `GV_RELEASE` (R411). -/
  | gvRelease (m : Acc) (v : Word)
  /-- `BOOT` (R412). -/
  | boot (bootsel : Fin 4) (okA okB okStaged : Bool)
  /-- `CLK_UPLO_READ` (R414). -/
  | clkUploRead (m : Acc)
  /-- `VERIFY` (R421). -/
  | verify (m : Acc) (src : Fin 4)
  /-- `SSVERIFY` (R423). -/
  | ssverify (m : Acc)
  /-- `VERIFY_DONE` (R421). -/
  | verifyDone (sigOk : Bool) (badHash : Option (Fin 64))
  /-- `IMG_CMD_SWAP` (R424). -/
  | imgCmdSwap (m : Acc) (brk : Bool)
  /-- `CANCEL` (R424). -/
  | cancel (m : Acc)
  /-- `STRUCTURE_SET_SWAP` (R424). -/
  | structureSetSwap (peer : PairView)
  /-- `LOAD` (R422). -/
  | load (m : Acc) (src : Fin 4)
  /-- `LOAD_DONE` (R422). -/
  | loadDone (hashOk sigOk : Bool)
  /-- `UPDATE_CHUNK` (R420). -/
  | updateChunk (hop : Hop) (ok : Bool) (f : Frame)
  /-- `IMG_SESSION_WRITE` (R420). -/
  | imgSessionWrite (m : Acc) (base : Bool) (v : Word)
  /-- `TEMP_CONVERSION` (R429). -/
  | tempConversion (temps : List (BitVec 16))
  /-- `SUPPLY_SAMPLE` (R430). -/
  | supplySample (mv : List (BitVec 13))
  /-- `ADC_CONVERSION` (R431). -/
  | adcConversion (code : BitVec 12)
  /-- `AUTO_BRIGHTNESS` (R432). -/
  | autoBrightness
  /-- `MAIL` (R434). -/
  | mail (hop : Hop) (ok : Bool) (f : Frame)
  /-- `MGT_MBINREL` (R434). -/
  | mgtMbinrel (m : Acc) (v : Word)
  /-- `MGT_MBSEND` (R435). -/
  | mgtMbsend (m : Acc) (v : Word)
  /-- `MAIL_SENT` (R435). -/
  | mailSent (slot : Fin 4)
  /-- `MGT_HSNAP` (R436). -/
  | mgtHsnap (m : Acc) (v : Word)
  /-- `EVENT_STORE` (R440). -/
  | eventStore
  /-- `RATE_LIMIT_TICK` (R443). -/
  | rateLimitTick
  /-- `EVR_TIME_WRITE` (R437). -/
  | evrTimeWrite (m : Acc) (pcyc : Bool) (v : Word)
  /-- `EVR_CURCTL` (R444). -/
  | evrCurctl (m : Acc) (v : Word)
  /-- `EVR_WINDOW_LATCH` (R444). -/
  | evrWindowLatch
  /-- `EVR_WIN7_READ` (R444). -/
  | evrWin7Read (m : Acc)
  /-- `EVR_LOG_GO` (R445). -/
  | evrLogGo (m : Acc) (t : Fin 3) (v : Word)
  /-- `LCADV` (R453). -/
  | lcadv (m : Acc)
  /-- `OWNKEY` (R455). -/
  | ownkey (m : Acc)
  /-- `REVOKE` (R455). -/
  | revoke (m : Acc)
  /-- `DBGKEY` (R455). -/
  | dbgkey (m : Acc)
  /-- `SVNSET` (R455). -/
  | svnset (m : Acc)
  /-- `FLEETLOAD` (R458). -/
  | fleetload (m : Acc)
  /-- `FLEETZERO` (R458). -/
  | fleetzero (m : Acc)
  /-- `DBGDROP` (R462). -/
  | dbgdrop (m : Acc)
  /-- `SEC_COMMAND_DONE` (R464). -/
  | secCommandDone (ok : Bool)
  /-- `TAMPER_EVENT` (R459). -/
  | tamperEvent (in0 in1 : Bool)
  /-- `SEC_TCLR` (R460). -/
  | secTclr (m : Acc) (v : Word)
  /-- `DBG_CHAL` (R467). -/
  | dbgChal (m : Acc) (level : Nat)
  /-- `DBG_VERIFY` (R467). -/
  | dbgVerify (m : Acc)
  /-- `DEBUG_RESPONSE_TIMEOUT` (R461). -/
  | debugResponseTimeout
  /-- `DEBUG_LOCKOUT_END` (R461). -/
  | debugLockoutEnd
  /-- `DEBUG_READ` (R468). -/
  | debugRead (hop : Hop) (ok : Bool) (f : Frame)
  /-- `DEBUG_WRITE` (R468). -/
  | debugWrite (hop : Hop) (ok : Bool) (f : Frame)
  /-- `DEBUG_CHAL` (R468). -/
  | debugChal (hop : Hop) (ok : Bool) (f : Frame)
  /-- `DEBUG_RESP` (R468). -/
  | debugResp (hop : Hop) (ok : Bool) (f : Frame)
  /-- `DEBUG_VERIFY` (R468). -/
  | debugVerify (hop : Hop) (ok : Bool) (f : Frame)
  /-- `DBG_HALT` (R470). -/
  | dbgHalt (m : Acc) (c : Fin 3)
  /-- `HALT` (R471). -/
  | halt (c : Fin 3)
  /-- `DBG_RUN` (R475). -/
  | dbgRun (m : Acc) (c : Fin 3)
  /-- `DBG_REGDATA` (R474). -/
  | dbgRegdata (m : Acc) (c : Fin 3) (write : Bool) (v : Word)
  /-- `DBG_LDATA` (R474). -/
  | dbgLdata (m : Acc) (c : Fin 3) (write : Bool) (v : Word)
  /-- `DBG_DRX_WRITE` (R476). -/
  | dbgDrxWrite (m : Acc) (c : Fin 3) (v : Word)
  /-- `DBG_TXFULL_ACK` (R476). -/
  | dbgTxfullAck (m : Acc) (c : Fin 3)
  /-- `GP_EDGE` (R481). -/
  | gpEdge (n : Fin 48) (level : Bool)
  /-- `PIN_SWITCH` (R484). -/
  | pinSwitch
  /-- `PIN_SWITCH_HOLD_END` (R484). -/
  | pinSwitchHoldEnd (n : Fin 48) (level : Bool)
  /-- `MATCH_PULSE_END` (R486). -/
  | matchPulseEnd (n : Fin 4)
  /-- `PIN_RELEASE` (R485). -/
  | pinRelease (m : Acc)
  /-- `PIN_LOCK` (R487). -/
  | pinLock (m : Acc) (v : Word)
  /-- `PIN_LOCK_TIMEOUT` (R487). -/
  | pinLockTimeout
  /-- `WAKE_PIN` (R488). -/
  | wakePin
  /-- `HI3C_ADDR` (R490). -/
  | hi3cAddr (cmd : Byte) (addr : List Byte)
  /-- `HI3C_WRITE` (R490). -/
  | hi3cWrite (data : List Byte)
  /-- `HI3C_MBWRITE` (R490). -/
  | hi3cMbwrite (data : List Byte)
  /-- `HI3C_MBREAD` (R490). -/
  | hi3cMbread (slot : Nat)
  /-- `HI3C_PRIVATE_READ` (R490). -/
  | hi3cPrivateRead (debug : Bool) (n : Nat)
  /-- `HI3C_DEBUG_WRITE` (R491). -/
  | hi3cDebugWrite (data : List Byte)
  /-- `ENTDAA` (R489). -/
  | entdaa (main debug : Option (BitVec 7))
  /-- `SETDASA` (R489). -/
  | setdasa (addr dyn : BitVec 7)
  /-- `SETNEWDA` (R489). -/
  | setnewda (target : Fin 2) (addr : BitVec 7)
  /-- `RSTDAA` (R489). -/
  | rstdaa
  /-- `ENEC` (R489). -/
  | enec (target : Option (Fin 2)) (intr hj : Bool)
  /-- `DISEC` (R489). -/
  | disec (target : Option (Fin 2)) (intr hj : Bool)
  /-- `SETMWL` (R489). -/
  | setmwl (target : Option (Fin 2)) (len : Nat)
  /-- `SETMRL` (R489). -/
  | setmrl (target : Option (Fin 2)) (len : Nat)
  /-- `GETMWL` (R489). -/
  | getmwl (target : Fin 2)
  /-- `GETMRL` (R489). -/
  | getmrl (target : Fin 2)
  /-- `GETPID` (R489). -/
  | getpid (target : Fin 2)
  /-- `GETBCR` (R489). -/
  | getbcr (target : Fin 2)
  /-- `GETDCR` (R489). -/
  | getdcr (target : Fin 2)
  /-- `GETSTATUS` (R489). -/
  | getstatus (target : Fin 2)
  /-- `GETMXDS` (R489). -/
  | getmxds (target : Fin 2)
  /-- `ENTHDR0` (R489). -/
  | enthdr0
  /-- `RSTACT` (R489). -/
  | rstact (target : Option (Fin 2)) (action : Nat)
  /-- `HI3C_IBI` (R491). -/
  | hi3cIbi (alert : Bool)
  /-- `HOT_JOIN` (R489). -/
  | hotJoin
  /-- `CI3C_PRIVATE_WRITE` (R492). -/
  | ci3cPrivateWrite (m : Acc) (v : Word)
  /-- `CI3C_PRIVATE_READ` (R492). -/
  | ci3cPrivateRead (m : Acc) (v : Word)
  /-- `CI3C_BROADCAST_CCC` (R492). -/
  | ci3cBroadcastCcc (m : Acc) (v : Word)
  /-- `CI3C_DIRECT_CCC` (R492). -/
  | ci3cDirectCcc (m : Acc) (v : Word)
  /-- `CI3C_ENTDAA` (R492). -/
  | ci3cEntdaa (m : Acc) (v : Word)
  /-- `CI3C_HDR_WRITE` (R492). -/
  | ci3cHdrWrite (m : Acc) (v : Word)
  /-- `CI3C_HDR_READ` (R492). -/
  | ci3cHdrRead (m : Acc) (v : Word)
  /-- `CI3C_I2C_WRITE` (R492). -/
  | ci3cI2cWrite (m : Acc) (v : Word)
  /-- `CI3C_I2C_READ` (R492). -/
  | ci3cI2cRead (m : Acc) (v : Word)
  /-- `CI3C_COMMAND_DONE` (R492). -/
  | ci3cCommandDone (resp : Fin 4) (count : Nat) (data : List Byte)
  /-- `CI3C_IBI` (R492). -/
  | ci3cIbi (dev : Fin 16) (payload : List Byte)
  /-- `CI3C_HOTJOIN` (R492). -/
  | ci3cHotjoin
  /-- `CI3C_RXD_READ` (R494). -/
  | ci3cRxdRead (m : Acc) (ibiq : Bool)
  /-- `XSPI_COMMAND` (R496). -/
  | xspiCommand (m : Acc) (v : Word)
  /-- `XSPI_POLL` (R497). -/
  | xspiPoll (m : Acc) (v : Word)
  /-- `XSPI_POLL_REPEAT` (R497). -/
  | xspiPollRepeat
  /-- `XSPI_POLL_TIMEOUT` (R497). -/
  | xspiPollTimeout
  /-- `XSPI_DONE` (R496). -/
  | xspiDone (data : List Byte)
  /-- `XSPI_DATA` (R496). -/
  | xspiData (m : Acc) (write : Bool) (v : Word)
  /-- `XSPI_FLUSH` (R496). -/
  | xspiFlush (m : Acc)
  /-- `FLASH_READ` (R498). -/
  | flashRead (addr : Nat) (data : List Byte)
  /-- `UE_RESTORE` (R502). -/
  | ueRestore
  /-- `RC_REGISTER_READ` (R8). -/
  | rcRegisterRead (m : Acc) (addr : Nat) (event : Word)
  /-- `MEMORY_SCRUB_WORD` (R85). -/
  | memoryScrubWord (mem : Fin 6) (upset : Upset)
  /-- `XO32_START` (R518). -/
  | xo32Start
  /-- `REF25_RETURN` (R402). -/
  | ref25Return
  /-- `HDR_EXIT` (R489). -/
  | hdrExit
  /-- `DBG_VERIFY_DONE` (R467). -/
  | dbgVerifyDone (ok : Bool)
  /-- `TRAINING_VERSION_ALTERNATE` (R282). -/
  | trainingVersionAlternate (hop : Hop)
deriving DecidableEq, Repr

end Sys2Proof
end

