-- ==== Sys2Proof/Config.lean ====
section
/-! DEFINITION. What an implementation fixes and the spec leaves open: the free values of the model. None has a body, so
nothing can be proved of the value it takes; each is named in an entry of the assumption log. -/

namespace Sys2Proof.Config

/-- The bytes of the boot ROM, by address: the spec gives the ROM's place and not its contents (log 10). -/
opaque bootRom : Nat → Byte

/-- The phase term, in ps, that the beam-lock servo chooses for a frame before the limits of R55 cut it; the servo's filter
is not given (log 11). The argument is the state's free-value counter. -/
opaque servoPhase : Nat → Int

/-- The correction of FRAC that the servo applies for a frame (R400): its law is not given (log 11). -/
opaque servoTrim : Nat → Word

/-- The word on a panel data line when an underrun repeats "the word last sent" and none has been sent (R209, log 12). -/
opaque lineWord : Nat → Nat

/-- How many words of a panel unit had been read when a squash cut them off (R197, log 111). -/
opaque wordsRead : Nat → Nat

/-- Random bytes of the security block, as a number (R284, R461): 48 bytes of a NONCE, by the state's free-value counter
(log 24). -/
opaque random : Nat → Nat

/-- Link keys (R285), computed as the standards it names say (log 86): the public key of the key pair with a number, the shared
x-coordinate of that pair with a peer's public key, the signature of a message under a key, HKDF-SHA-384 of a key and a salt, and AES-256-GCM of
a payload under key, IV and header, with its tag. -/
opaque ecdhPublic : Nat → Nat
opaque ecdhShared : Nat → Nat → Nat
opaque linkSign : Nat → List Byte → Nat
opaque hkdf : Nat → List Byte → Nat
opaque gcmSeal : Nat → Nat → List Byte → List Byte → Nat

/-- The density of the flash device that its SFDP table reports, as its logarithm to base 2 in bytes (R418, R495, log 27). -/
opaque flashLog : Nat

/-- The flash byte at which slot B starts: half the density (R418). -/
def flashHalf : Nat := 2 ^ flashLog / 2

/-- What the boot ROM leaves in XSPI_CFG for the device it finds (R495, log 27). -/
opaque flashCfg : Word

/-- SEC_UID, programmed at manufacture (R455, log 28). -/
opaque uid : Nat

/-- The variant of the part: 0 EI, 1 EX, 2 DV (R2, log 33). -/
opaque variant : Fin 3

/-- The SECDED check bits of a control-store word (R335): the code is not given (log 34). -/
opaque csCheck : Nat → Nat

/-- What PIN_INw shows of a pin whose digital input is off (R481, R485, log 30). -/
opaque inputOff : Nat → Bool

/-- What a rate converter or ratio other than one makes of a chain's samples at a TDM port: the spec gives no filter (R255, log 116). -/
opaque bridged : Nat → Nat → Nat → Nat

/-- What an object's delay line holds for a sample that a step skipped (R231, R263, log 113). -/
opaque skipped : Nat → Nat → BitVec 24

/-- A value that the spec leaves open, by the state's free-value counter; each use is named in the log. -/
opaque freeWord : Nat → Word

end Sys2Proof.Config
end

