-- ==== Sys2Proof/Machine/Bits.lean ====
section
/-! DEFINITION. Bit fields, sign extension and fixed-point helpers (R3: [msb:lsb] includes both ends). -/

namespace Sys2Proof.Machine

/-- Field [hi:lo] of a word, as a number. -/
def fld (w : Word) (hi lo : Nat) : Nat := (w.toNat >>> lo) % 2 ^ (hi + 1 - lo)

/-- The mask of field [hi:lo]. -/
def fmask (hi lo : Nat) : Word := BitVec.ofNat 32 ((2 ^ (hi + 1 - lo) - 1) <<< lo)

/-- Field [hi:lo] replaced by the low bits of `v`. -/
def setFld (w : Word) (hi lo v : Nat) : Word :=
  (w &&& ~~~(fmask hi lo)) ||| BitVec.ofNat 32 ((v % 2 ^ (hi + 1 - lo)) <<< lo)

/-- Bit `i` of a word. -/
def bitAt (w : Word) (i : Nat) : Bool := w.getLsbD i

/-- The word with bit `i` set or cleared. -/
def putBit (w : Word) (i : Nat) (b : Bool) : Word :=
  if b then w ||| BitVec.ofNat 32 (2 ^ i) else w &&& ~~~(BitVec.ofNat 32 (2 ^ i))

def b2n (b : Bool) : Nat := if b then 1 else 0

def b2w (b : Bool) : Word := if b then 1 else 0

/-- `n` as a word. -/
def wd (n : Nat) : Word := BitVec.ofNat 32 n

/-- An integer as a word, two's complement. -/
def wi (i : Int) : Word := BitVec.ofInt 32 i

/-- The low `n` bits of a number read as two's complement. -/
def sext (n v : Nat) : Int :=
  let u := v % 2 ^ n
  if u < 2 ^ (n - 1) then (u : Int) else (u : Int) - (2 ^ n : Nat)

/-- The signed value of a word. -/
def sw (w : Word) : Int := w.toInt

/-- `n` limited to at most `m` (a saturating count). -/
def sat (m n : Nat) : Nat := if n > m then m else n

def clampI (lo hi x : Int) : Int := if x < lo then lo else if x > hi then hi else x

def absI (x : Int) : Int := if x < 0 then -x else x

/-- Arithmetic right shift of an integer (floor division by a power of two). -/
def asr (x : Int) (n : Nat) : Int := x / (2 ^ n : Nat)

/-- One added to the saturating count held in field [hi:lo]. -/
def countUp (w : Word) (hi lo : Nat) : Word := setFld w hi lo (sat (2 ^ (hi + 1 - lo) - 1) (fld w hi lo + 1))

/-- `n` added to the saturating count held in field [hi:lo]. -/
def countBy (w : Word) (hi lo n : Nat) : Word := setFld w hi lo (sat (2 ^ (hi + 1 - lo) - 1) (fld w hi lo + n))

/-- The numbers of the bits set in a word, ascending. -/
def bitsOf (w : Word) : List Nat := (List.range 32).filter fun i => bitAt w i

/-- The number that a little-endian byte list spells (R4). -/
def leNat : List Byte → Nat
  | [] => 0
  | b :: bs => b.toNat + 256 * leNat bs

/-- `n` little-endian bytes of a number. -/
def leBytes : Nat → Nat → List Byte
  | 0, _ => []
  | n + 1, v => BitVec.ofNat 8 v :: leBytes n (v / 256)

def leWord (bs : List Byte) : Word := wd (leNat bs)

/-- One byte into the reflected CRC-32 register (R216). -/
def crc32Byte (c : Nat) (b : Byte) : Nat :=
  (List.range 8).foldl (fun c _ => if c % 2 = 1 then (c / 2) ^^^ 0xEDB88320 else c / 2) (c ^^^ b.toNat)

def crc32Run (c : Nat) (bs : List Byte) : Nat := bs.foldl crc32Byte c

/-- The CRC-32 of a byte string. -/
def crc32 (bs : List Byte) : Nat := crc32Run 0xFFFFFFFF bs ^^^ 0xFFFFFFFF

end Sys2Proof.Machine
end

