-- ==== Sys2Proof/Machine/Regs.lean ====
section
/-! DEFINITION. The register map: the absolute address of every register the spec names (Tables 0.8, 1.7, 1.10, 2.5,
3.5, 3.6, 5.9, 5.12, 6.13, 7.7, 8.4, 9.6, 10.3, 10.5, 11.11, 13.7, 14.2, 14.8, 15.2, 15.5, 16.7, 17.7, 18.5, 18.6, 19.8,
20.5, 21.6, 21.8, 21.9), and one row per register or register array with its reset value and its access masks. -/

namespace Sys2Proof

/-- When a written value takes effect (Table 0.4, code SH): at once, at a structure-set swap (R424), or when commit
group `g` is applied (R35). -/
inductive Sh where
  | none
  | struct
  | group (g : Nat)
deriving DecidableEq, Repr

/-- One register, or an array of up to three dimensions of equal registers: `base` is the address of the first, `nk`
the number of elements of dimension k and `sk` its stride in bytes. `reset` is the value after a reset (R7), `step` what
it grows by from one element of the first dimension to the next. `rw`, `w1c`, `w1s` and `rc` are the bits of each access
code of Table 0.4; `shm` are the bits with code SH, and `sh` says which event applies them. -/
structure RegRow where
  base : Nat
  n1 : Nat
  s1 : Nat
  n2 : Nat
  s2 : Nat
  n3 : Nat
  s3 : Nat
  reset : Word
  step : Nat
  rw : Word
  w1c : Word
  w1s : Word
  rc : Word
  shm : Word
  sh : Sh
deriving DecidableEq, Repr

/-- The index of the element of the row's first dimension that lies at address `a`, if the row holds `a`. -/
def RegRow.find (r : RegRow) (a : Nat) : Option Nat :=
  if a < r.base then none else
  let o := a - r.base
  let i := o / r.s1
  let o1 := o % r.s1
  let j := o1 / r.s2
  let o2 := o1 % r.s2
  let k := o2 / r.s3
  if i < r.n1 ∧ j < r.n2 ∧ k < r.n3 ∧ o2 % r.s3 = 0 then some i else none

namespace Reg

abbrev SYS_PARTID : Nat := 0x40000000
abbrev SYS_REV : Nat := 0x40000004
abbrev SYS_VARIANT : Nat := 0x40000008
abbrev SYS_RGNCTL : Nat := 0x40000100
abbrev SYS_RGNn_BASE (i : Nat) : Nat := 0x40000200 + 0x10 * i
abbrev SYS_RGNn_LIMIT (i : Nat) : Nat := 0x40000204 + 0x10 * i
abbrev SYS_RGNn_RD (i : Nat) : Nat := 0x40000208 + 0x10 * i
abbrev SYS_RGNn_WR (i : Nat) : Nat := 0x4000020C + 0x10 * i
abbrev CLK_STAT : Nat := 0x40010000
abbrev CLK_PLLSTAT : Nat := 0x40010004
abbrev CLK_PLLCTL : Nat := 0x40010008
abbrev CLK_BPLLN : Nat := 0x40010010
abbrev CLK_BPLLF : Nat := 0x40010014
abbrev CLK_BPLLD : Nat := 0x40010018
abbrev CLK_BTRIM : Nat := 0x4001001C
abbrev CLK_PMGR : Nat := 0x40010020
abbrev CLK_PSTAT : Nat := 0x40010024
abbrev CLK_SWEVTt (i : Nat) : Nat := 0x40010030 + 0x4 * i
abbrev CLK_UPLO : Nat := 0x40010040
abbrev CLK_UPHI : Nat := 0x40010044
abbrev CLK_RSTCAUSE : Nat := 0x40010050
abbrev CLK_SWRST : Nat := 0x40010054
abbrev CLK_GVCTL : Nat := 0x40010058
abbrev CLK_GVxSTART (i : Nat) : Nat := 0x4001005C + 0x4 * i
abbrev CLK_AVS : Nat := 0x40010064
abbrev CLK_RESIDs (i : Nat) : Nat := 0x40010080 + 0x4 * i
abbrev COT_STAT : Nat := 0x40020000
abbrev COT_COMMIT : Nat := 0x40020004
abbrev COT_PENDING : Nat := 0x40020008
abbrev COT_INFLIGHT : Nat := 0x4002000C
abbrev COT_MISMATCH : Nat := 0x40020010
abbrev COT_MMACT : Nat := 0x40020014
abbrev COT_SEGMENT : Nat := 0x40020018
abbrev COT_REJECT : Nat := 0x4002001C
abbrev COT_TRGn_POS (i : Nat) : Nat := 0x40020100 + 0x8 * i
abbrev COT_TRGn_ACT (i : Nat) : Nat := 0x40020104 + 0x8 * i
abbrev COT_PORTp_WORDS (i : Nat) : Nat := 0x40020200 + 0x4 * i
abbrev COT_SLOTs_w (i : Nat) (j : Nat) : Nat := 0x40020400 + 0x20 * i + 0x4 * j
abbrev BEAM_CTRL : Nat := 0x40030000
abbrev BEAM_ACTIVE : Nat := 0x40030004
abbrev BEAM_TOTAL : Nat := 0x40030008
abbrev BEAM_DOTS : Nat := 0x4003000C
abbrev BEAM_SWAPSTART : Nat := 0x40030010
abbrev BEAM_DEADLINE : Nat := 0x40030014
abbrev BEAM_CMARK : Nat := 0x40030018
abbrev BEAM_POS : Nat := 0x40030020
abbrev BEAM_FRAMELO : Nat := 0x40030024
abbrev BEAM_FRAMEHI : Nat := 0x40030028
abbrev BEAM_STAT : Nat := 0x40030030
abbrev BEAM_MATCHn (i : Nat) : Nat := 0x40030040 + 0x4 * i
abbrev BEAM_STATION : Nat := 0x40030080
abbrev BEAM_TRUNK : Nat := 0x40030084
abbrev BEAM_WALLX : Nat := 0x40030088
abbrev BEAM_WALLY : Nat := 0x4003008C
abbrev BEAM_WALLW : Nat := 0x40030090
abbrev BEAM_WALLH : Nat := 0x40030094
abbrev BEAM_PITCH : Nat := 0x40030098
abbrev BEAM_RATENUM : Nat := 0x400300A0
abbrev BEAM_RATEDEN : Nat := 0x400300A4
abbrev BEAM_LOCKCTL : Nat := 0x400300A8
abbrev BEAM_FSPOS : Nat := 0x400300AC
abbrev BEAM_FSOUT : Nat := 0x400300B0
abbrev BEAM_LOCKSTAT : Nat := 0x400300B4
abbrev BEAM_PHERR : Nat := 0x400300B8
abbrev BEAM_CORR : Nat := 0x400300BC
abbrev BEAM_LINKDLYA : Nat := 0x400300C0
abbrev BEAM_LINKDLYB : Nat := 0x400300C4
abbrev BEAM_ASYMA : Nat := 0x400300C8
abbrev BEAM_ASYMB : Nat := 0x400300CC
abbrev BEAM_SWAPCTL : Nat := 0x400300D0
abbrev BEAM_VOTECUT : Nat := 0x400300D4
abbrev BEAM_VOTEDEC : Nat := 0x400300D8
abbrev BEAM_SWAPCNT : Nat := 0x400300DC
abbrev BEAM_PAIR : Nat := 0x400300E0
abbrev BEAM_WSTAT : Nat := 0x400300E4
abbrev BEAM_WHOLDS : Nat := 0x400300E8
abbrev BEAM_VOTELATE : Nat := 0x400300EC
abbrev BEAM_LINKDLYTA : Nat := 0x400300F0
abbrev BEAM_LINKDLYTB : Nat := 0x400300F4
abbrev BEAM_ASYMTA : Nat := 0x400300F8
abbrev BEAM_ASYMTB : Nat := 0x400300FC
abbrev QDL_CTRL : Nat := 0x40040000
abbrev QDL_WIDTH : Nat := 0x40040004
abbrev QDL_STRUCT : Nat := 0x40040008
abbrev QDL_REFNITS : Nat := 0x4004000C
abbrev QDL_CLBASE : Nat := 0x40040010
abbrev QDL_CLLINES : Nat := 0x40040014
abbrev QDL_CALBASE : Nat := 0x40040018
abbrev QDL_BRIGHT : Nat := 0x40040020
abbrev QDL_OUTCFG : Nat := 0x40040024
abbrev QDL_LAYEN : Nat := 0x40040028
abbrev QDL_PRIORD0 : Nat := 0x4004002C
abbrev QDL_PRIORD1 : Nat := 0x40040030
abbrev QDL_RLAYEN : Nat := 0x40040034
abbrev QDL_RPRIORD0 : Nat := 0x40040038
abbrev QDL_RPRIORD1 : Nat := 0x4004003C
abbrev QDL_FEEDf_MASK (i : Nat) : Nat := 0x40040040 + 0x8 * i
abbrev QDL_FEEDf_BG (i : Nat) : Nat := 0x40040044 + 0x8 * i
abbrev QDL_URG : Nat := 0x40040060
abbrev QDL_MON : Nat := 0x40040064
abbrev QDL_STAT : Nat := 0x40040068
abbrev QDL_POS : Nat := 0x4004006C
abbrev QDL_CONF : Nat := 0x40040070
abbrev QDL_HOLDS : Nat := 0x40040074
abbrev QDL_HSTAT : Nat := 0x40040078
abbrev QDL_SQCNT : Nat := 0x4004007C
abbrev QDL_MONDROP : Nat := 0x40040080
abbrev QDL_LANE : Nat := 0x40040084
abbrev QDL_SWAPS : Nat := 0x40040088
abbrev QDL_BLENDc (i : Nat) : Nat := 0x400400C0 + 0x4 * i
abbrev QDL_HCOEFp_k (i : Nat) (j : Nat) : Nat := 0x40040800 + 0x20 * i + 0x4 * j
abbrev QDL_VCOEFp_k (i : Nat) (j : Nat) : Nat := 0x40041000 + 0x10 * i + 0x4 * j
abbrev QDL_LUTb_c_i (i : Nat) (j : Nat) (k : Nat) : Nat := 0x40042000 + 0x8000 * i + 0x2000 * j + 0x4 * k
abbrev LAYn_TYPE (i : Nat) : Nat := 0x40050000 + 0x400 * i
abbrev LAYn_FENCE (i : Nat) : Nat := 0x40050004 + 0x400 * i
abbrev LAYn_FDL (i : Nat) : Nat := 0x40050008 + 0x400 * i
abbrev LAYn_BANK (i : Nat) : Nat := 0x4005000C + 0x400 * i
abbrev LAYn_ESTAT (i : Nat) : Nat := 0x40050010 + 0x400 * i
abbrev LAYn_FSTAT (i : Nat) : Nat := 0x40050014 + 0x400 * i
abbrev LAYn_FLIPS (i : Nat) : Nat := 0x40050018 + 0x400 * i
abbrev LAYn_DROPS (i : Nat) : Nat := 0x4005001C + 0x400 * i
abbrev LAYn_RPOSX (i : Nat) : Nat := 0x40050040 + 0x400 * i
abbrev LAYn_RPOSY (i : Nat) : Nat := 0x40050044 + 0x400 * i
abbrev LAYn_Bb_CTRL (i : Nat) (j : Nat) : Nat := 0x40050100 + 0x400 * i + 0x100 * j
abbrev LAYn_Bb_BASE0 (i : Nat) (j : Nat) : Nat := 0x40050104 + 0x400 * i + 0x100 * j
abbrev LAYn_Bb_BASE1 (i : Nat) (j : Nat) : Nat := 0x40050108 + 0x400 * i + 0x100 * j
abbrev LAYn_Bb_LSBASE (i : Nat) (j : Nat) : Nat := 0x4005010C + 0x400 * i + 0x100 * j
abbrev LAYn_Bb_SIZE0 (i : Nat) (j : Nat) : Nat := 0x40050110 + 0x400 * i + 0x100 * j
abbrev LAYn_Bb_SIZE1 (i : Nat) (j : Nat) : Nat := 0x40050114 + 0x400 * i + 0x100 * j
abbrev LAYn_Bb_POSX (i : Nat) (j : Nat) : Nat := 0x40050118 + 0x400 * i + 0x100 * j
abbrev LAYn_Bb_POSY (i : Nat) (j : Nat) : Nat := 0x4005011C + 0x400 * i + 0x100 * j
abbrev LAYn_Bb_STRIDE (i : Nat) (j : Nat) : Nat := 0x40050120 + 0x400 * i + 0x100 * j
abbrev LAYn_Bb_DSIZE (i : Nat) (j : Nat) : Nat := 0x40050124 + 0x400 * i + 0x100 * j
abbrev LAYn_Bb_IMk (i : Nat) (j : Nat) (k : Nat) : Nat := 0x40050130 + 0x400 * i + 0x100 * j + 0x4 * k
abbrev MNT_STAT : Nat := 0x40060000
abbrev MNT_GFLAG : Nat := 0x40060004
abbrev MNT_GFCLR : Nat := 0x40060008
abbrev MNT_SFLAG : Nat := 0x4006000C
abbrev MNT_EVTSRCx (i : Nat) : Nat := 0x40060010 + 0x4 * i
abbrev MNT_V1MAP : Nat := 0x40060018
abbrev MNT_QFILL : Nat := 0x4006001C
abbrev MNT_TLATE : Nat := 0x40060020
abbrev MNT_MBSTAT : Nat := 0x40060024
abbrev MNT_BSCE : Nat := 0x40060028
abbrev MNT_MBOXk (i : Nat) : Nat := 0x40060040 + 0x4 * i
abbrev MNT_ENGe_CTRL (i : Nat) : Nat := 0x40060100 + 0x40 * i
abbrev MNT_ENGe_START (i : Nat) : Nat := 0x40060104 + 0x40 * i
abbrev MNT_ENGe_BUDGET (i : Nat) : Nat := 0x40060108 + 0x40 * i
abbrev MNT_ENGe_PC (i : Nat) : Nat := 0x4006010C + 0x40 * i
abbrev MNT_ENGe_POS (i : Nat) : Nat := 0x40060110 + 0x40 * i
abbrev MNT_ENGe_HZN (i : Nat) : Nat := 0x40060114 + 0x40 * i
abbrev MNT_ENGe_STAT (i : Nat) : Nat := 0x40060118 + 0x40 * i
abbrev MNT_ENGe_WORDS (i : Nat) : Nat := 0x4006011C + 0x40 * i
abbrev MNT_ENGe_Mr (i : Nat) (j : Nat) : Nat := 0x40060120 + 0x40 * i + 0x4 * j
abbrev PNL_CTRL : Nat := 0x40070000
abbrev PNL_STAT : Nat := 0x40070004
abbrev PNL_SWAPLAT : Nat := 0x40070008
abbrev PNL_REFRESH : Nat := 0x4007000C
abbrev PNL_DIRTIM : Nat := 0x40070010
abbrev PNL_GCLK : Nat := 0x40070014
abbrev PNL_FSBASEx (i : Nat) : Nat := 0x40070018 + 0x4 * i
abbrev PNL_FSSTAT : Nat := 0x40070020
abbrev PNL_BLANK : Nat := 0x40070024
abbrev PNL_CMDQ : Nat := 0x40070028
abbrev PNL_CMDMASK : Nat := 0x4007002C
abbrev PNL_MAPADDR : Nat := 0x40070030
abbrev PNL_MAPDATA : Nat := 0x40070034
abbrev PNL_DIRCH : Nat := 0x40070038
abbrev PNL_PAIRq_WM (i : Nat) : Nat := 0x40070080 + 0x4 * i
abbrev PNL_PAIRq_CNT (i : Nat) : Nat := 0x400700C0 + 0x4 * i
abbrev PNL_PROFx_CFG (i : Nat) : Nat := 0x40070100 + 0x20 * i
abbrev PNL_PROFx_CMDA (i : Nat) : Nat := 0x40070104 + 0x20 * i
abbrev PNL_PROFx_CMDB (i : Nat) : Nat := 0x40070108 + 0x20 * i
abbrev PNL_PROFx_CFGVAL (i : Nat) : Nat := 0x4007010C + 0x20 * i
abbrev PNL_PROFx_CLK (i : Nat) : Nat := 0x40070110 + 0x20 * i
abbrev PNL_TMPLt (i : Nat) : Nat := 0x40070200 + 0x4 * i
abbrev PNL_PORTp_CFG (i : Nat) : Nat := 0x40070400 + 0x40 * i
abbrev PNL_PORTp_MSTEP (i : Nat) : Nat := 0x40070404 + 0x40 * i
abbrev PNL_PORTp_STAT (i : Nat) : Nat := 0x40070408 + 0x40 * i
abbrev PNL_PORTp_ORGl (i : Nat) (j : Nat) : Nat := 0x40070420 + 0x40 * i + 0x4 * j
abbrev SIG_CTRL : Nat := 0x40080000
abbrev SIG_STAT : Nat := 0x40080004
abbrev SIG_PAVSTAT : Nat := 0x40080008
abbrev SIG_PAVREQ : Nat := 0x4008000C
abbrev SIG_SECTSAFE : Nat := 0x40080010
abbrev SIG_REGr_CTRL (i : Nat) : Nat := 0x40080100 + 0x40 * i
abbrev SIG_REGr_X (i : Nat) : Nat := 0x40080104 + 0x40 * i
abbrev SIG_REGr_Y (i : Nat) : Nat := 0x40080108 + 0x40 * i
abbrev SIG_REGr_EXP (i : Nat) : Nat := 0x4008010C + 0x40 * i
abbrev SIG_REGr_KEEP (i : Nat) : Nat := 0x40080110 + 0x40 * i
abbrev SIG_REGr_KLIM (i : Nat) : Nat := 0x40080114 + 0x40 * i
abbrev SIG_REGr_SAFE (i : Nat) : Nat := 0x40080118 + 0x40 * i
abbrev SIG_REGr_LAST (i : Nat) : Nat := 0x4008011C + 0x40 * i
abbrev SIG_REGr_STAT (i : Nat) : Nat := 0x40080120 + 0x40 * i
abbrev SIG_REGr_FRAME (i : Nat) : Nat := 0x40080124 + 0x40 * i
abbrev SIG_REGr_CNT (i : Nat) : Nat := 0x40080128 + 0x40 * i
abbrev SND_CTRL : Nat := 0x40090000
abbrev SND_STRUCT : Nat := 0x40090004
abbrev SND_ZCTO : Nat := 0x40090008
abbrev SND_STAT : Nat := 0x4009000C
abbrev SND_KEYONx (i : Nat) : Nat := 0x40090010 + 0x4 * i
abbrev SND_KEYOFFx (i : Nat) : Nat := 0x40090018 + 0x4 * i
abbrev SND_VACTx (i : Nat) : Nat := 0x40090020 + 0x4 * i
abbrev SND_VENDx (i : Nat) : Nat := 0x40090028 + 0x4 * i
abbrev SND_NODEW : Nat := 0x40090030
abbrev SND_KLO : Nat := 0x40090034
abbrev SND_KHI : Nat := 0x40090038
abbrev SND_STRBASE : Nat := 0x40090040
abbrev SND_UPCFG : Nat := 0x40090044
abbrev SND_STRCNT : Nat := 0x40090048
abbrev SND_ASRCSTAT : Nat := 0x4009004C
abbrev SND_CLIP : Nat := 0x40090050
abbrev SND_VWM : Nat := 0x40090054
abbrev SNDv_CTRL (i : Nat) : Nat := 0x40091000 + 0x40 * i
abbrev SNDv_START (i : Nat) : Nat := 0x40091004 + 0x40 * i
abbrev SNDv_LEN (i : Nat) : Nat := 0x40091008 + 0x40 * i
abbrev SNDv_LOOPS (i : Nat) : Nat := 0x4009100C + 0x40 * i
abbrev SNDv_LOOPE (i : Nat) : Nat := 0x40091010 + 0x40 * i
abbrev SNDv_PITCH (i : Nat) : Nat := 0x40091014 + 0x40 * i
abbrev SNDv_ENVA (i : Nat) : Nat := 0x40091018 + 0x40 * i
abbrev SNDv_ENVB (i : Nat) : Nat := 0x4009101C + 0x40 * i
abbrev SNDv_POS (i : Nat) : Nat := 0x40091020 + 0x40 * i
abbrev SNDv_STAT (i : Nat) : Nat := 0x40091024 + 0x40 * i
abbrev SNDo_OCTRL (i : Nat) : Nat := 0x40092000 + 0x100 * i
abbrev SNDo_DELAY (i : Nat) : Nat := 0x40092004 + 0x100 * i
abbrev SNDo_LIM (i : Nat) : Nat := 0x40092008 + 0x100 * i
abbrev SNDo_LIMREL (i : Nat) : Nat := 0x4009200C + 0x100 * i
abbrev SNDo_BQEN (i : Nat) : Nat := 0x40092010 + 0x100 * i
abbrev SNDo_BQk_c (i : Nat) (j : Nat) (k : Nat) : Nat := 0x40092020 + 0x100 * i + 0x14 * j + 0x4 * k
abbrev SND_XPo_i (i : Nat) (j : Nat) : Nat := 0x40094000 + 0x200 * i + 0x4 * j
abbrev TDMn_CFG (i : Nat) : Nat := 0x4009A000 + 0x40 * i
abbrev TDMn_OMAPk (i : Nat) (j : Nat) : Nat := 0x4009A004 + 0x40 * i + 0x4 * j
abbrev TDMn_STAT (i : Nat) : Nat := 0x4009A014 + 0x40 * i
abbrev TDMn_FSERR (i : Nat) : Nat := 0x4009A018 + 0x40 * i
abbrev TDM_INc (i : Nat) : Nat := 0x4009A400 + 0x4 * i
abbrev OBJ_CTRL : Nat := 0x400A0000
abbrev OBJ_STAT : Nat := 0x400A0004
abbrev OBJ_C : Nat := 0x400A0008
abbrev OBJ_UPOS : Nat := 0x400A000C
abbrev OBJ_MUTE : Nat := 0x400A0010
abbrev OBJc_CTRL (i : Nat) : Nat := 0x400A0100 + 0x40 * i
abbrev OBJc_SPR (i : Nat) : Nat := 0x400A0104 + 0x40 * i
abbrev OBJc_X (i : Nat) : Nat := 0x400A0108 + 0x40 * i
abbrev OBJc_Y (i : Nat) : Nat := 0x400A010C + 0x40 * i
abbrev OBJc_Z (i : Nat) : Nat := 0x400A0110 + 0x40 * i
abbrev OBJc_GAIN (i : Nat) : Nat := 0x400A0114 + 0x40 * i
abbrev OBJc_R0 (i : Nat) : Nat := 0x400A0118 + 0x40 * i
abbrev OBJc_W0 (i : Nat) : Nat := 0x400A011C + 0x40 * i
abbrev OBJc_W1 (i : Nat) : Nat := 0x400A0120 + 0x40 * i
abbrev OBJc_TMASK0 (i : Nat) : Nat := 0x400A0124 + 0x40 * i
abbrev OBJc_TMASK1 (i : Nat) : Nat := 0x400A0128 + 0x40 * i
abbrev OBJc_STAT (i : Nat) : Nat := 0x400A012C + 0x40 * i
abbrev OBJ_Tt_X (i : Nat) : Nat := 0x400A1000 + 0x10 * i
abbrev OBJ_Tt_Y (i : Nat) : Nat := 0x400A1004 + 0x10 * i
abbrev OBJ_Tt_Z (i : Nat) : Nat := 0x400A1008 + 0x10 * i
abbrev OBJ_Tt_CTRL (i : Nat) : Nat := 0x400A100C + 0x10 * i
abbrev AKx_CTRL (i : Nat) : Nat := 0x400B0000 + 0x10000 * i
abbrev AKx_CFG (i : Nat) : Nat := 0x400B0004 + 0x10000 * i
abbrev AKx_STAT (i : Nat) : Nat := 0x400B0008 + 0x10000 * i
abbrev AKx_LINK (i : Nat) : Nat := 0x400B000C + 0x10000 * i
abbrev AKx_TRUNK (i : Nat) : Nat := 0x400B0010 + 0x10000 * i
abbrev AKx_PEER (i : Nat) : Nat := 0x400B0014 + 0x10000 * i
abbrev AKx_EPOL (i : Nat) : Nat := 0x400B0018 + 0x10000 * i
abbrev AKx_PIRO (i : Nat) : Nat := 0x400B001C + 0x10000 * i
abbrev AKx_WRR (i : Nat) : Nat := 0x400B0020 + 0x10000 * i
abbrev AKx_WM (i : Nat) : Nat := 0x400B0024 + 0x10000 * i
abbrev AKx_UPDST (i : Nat) : Nat := 0x400B0028 + 0x10000 * i
abbrev AKx_SCENETAG (i : Nat) : Nat := 0x400B002C + 0x10000 * i
abbrev AKx_TOUTRNG (i : Nat) : Nat := 0x400B0030 + 0x10000 * i
abbrev AKx_TINLAST (i : Nat) : Nat := 0x400B0034 + 0x10000 * i
abbrev AKx_LANEl_CRC (i : Nat) (j : Nat) : Nat := 0x400B0040 + 0x10000 * i + 0x4 * j
abbrev AKx_CNT (i : Nat) : Nat := 0x400B0050 + 0x10000 * i
abbrev AKx_DROP (i : Nat) : Nat := 0x400B0054 + 0x10000 * i
abbrev AKx_RFILL (i : Nat) : Nat := 0x400B0058 + 0x10000 * i
abbrev AKx_MACLO (i : Nat) : Nat := 0x400B0080 + 0x10000 * i
abbrev AKx_MACHI (i : Nat) : Nat := 0x400B0084 + 0x10000 * i
abbrev AKx_GWMACLO (i : Nat) : Nat := 0x400B0088 + 0x10000 * i
abbrev AKx_GWMACHI (i : Nat) : Nat := 0x400B008C + 0x10000 * i
abbrev AKx_ETYPE (i : Nat) : Nat := 0x400B0090 + 0x10000 * i
abbrev AKx_ETHCFG (i : Nat) : Nat := 0x400B0094 + 0x10000 * i
abbrev AKx_IPADDR (i : Nat) : Nat := 0x400B0098 + 0x10000 * i
abbrev AKx_ETHCNT (i : Nat) : Nat := 0x400B009C + 0x10000 * i
abbrev REEL_CTRL : Nat := 0x400D0000
abbrev REEL_STAT : Nat := 0x400D0004
abbrev REEL_GO : Nat := 0x400D0008
abbrev REEL_ABORT : Nat := 0x400D000C
abbrev REEL_BUSY : Nat := 0x400D0010
abbrev REEL_DONE : Nat := 0x400D0014
abbrev REEL_ERRCH : Nat := 0x400D0018
abbrev REELc_CFG (i : Nat) : Nat := 0x400D0100 + 0x20 * i
abbrev REELc_HEAD (i : Nat) : Nat := 0x400D0104 + 0x20 * i
abbrev REELc_BUDGET (i : Nat) : Nat := 0x400D0108 + 0x20 * i
abbrev REELc_UWIN0 (i : Nat) : Nat := 0x400D010C + 0x20 * i
abbrev REELc_UWIN1 (i : Nat) : Nat := 0x400D0110 + 0x20 * i
abbrev REELc_CUR (i : Nat) : Nat := 0x400D0114 + 0x20 * i
abbrev REELc_STAT (i : Nat) : Nat := 0x400D0118 + 0x20 * i
abbrev REELc_EADDR (i : Nat) : Nat := 0x400D011C + 0x20 * i
abbrev BLK_CTRL : Nat := 0x400E0000
abbrev BLK_STAT : Nat := 0x400E0004
abbrev BLK_QSTAT : Nat := 0x400E0008
abbrev BLK_GO : Nat := 0x400E000C
abbrev BLK_PUSH : Nat := 0x400E0010
abbrev BLK_DEAD : Nat := 0x400E0014
abbrev BLK_CLIPLO : Nat := 0x400E0018
abbrev BLK_CLIPHI : Nat := 0x400E001C
abbrev BLK_EADDR : Nat := 0x400E0020
abbrev BLK_ESTAT : Nat := 0x400E0024
abbrev BLK_ROWS : Nat := 0x400E0028
abbrev BLK_CNT : Nat := 0x400E002C
abbrev BLK_JCTRL : Nat := 0x400E0040
abbrev BLK_JSRC : Nat := 0x400E0044
abbrev BLK_JDST : Nat := 0x400E0048
abbrev BLK_JSSTRIDE : Nat := 0x400E004C
abbrev BLK_JDSTRIDE : Nat := 0x400E0050
abbrev BLK_JSIZE : Nat := 0x400E0054
abbrev BLK_JFILL : Nat := 0x400E0058
abbrev BLK_JFILLHI : Nat := 0x400E005C
abbrev BLK_JKEY : Nat := 0x400E0060
abbrev BLK_JKEYMASK : Nat := 0x400E0064
abbrev BLK_JWM : Nat := 0x400E0068
abbrev IRQ_CTRL : Nat := 0x400F0000
abbrev IRQ_RAISE : Nat := 0x400F0004
abbrev IRQ_CLR : Nat := 0x400F0008
abbrev IRQ_VBASEt (i : Nat) : Nat := 0x400F0010 + 0x4 * i
abbrev IRQ_CURt (i : Nat) : Nat := 0x400F0020 + 0x4 * i
abbrev IRQ_ACTt (i : Nat) : Nat := 0x400F0030 + 0x4 * i
abbrev IRQ_OVFw (i : Nat) : Nat := 0x400F0040 + 0x4 * i
abbrev IRQ_WAKESTAT : Nat := 0x400F0080
abbrev IRQ_WAKEk (i : Nat) : Nat := 0x400F0100 + 0x4 * i
abbrev IRQ_COALk_CFG (i : Nat) : Nat := 0x400F0200 + 0x10 * i
abbrev IRQ_COALk_TIME (i : Nat) : Nat := 0x400F0204 + 0x10 * i
abbrev IRQ_COALk_HELD (i : Nat) : Nat := 0x400F0208 + 0x10 * i
abbrev IRQ_SRCs (i : Nat) : Nat := 0x400F0400 + 0x4 * i
abbrev TMRn_CTRL (i : Nat) : Nat := 0x40100100 + 0x20 * i
abbrev TMRn_PER (i : Nat) : Nat := 0x40100104 + 0x20 * i
abbrev TMRn_CNT (i : Nat) : Nat := 0x40100108 + 0x20 * i
abbrev TMRn_CMP (i : Nat) : Nat := 0x4010010C + 0x20 * i
abbrev TMRn_CAP (i : Nat) : Nat := 0x40100110 + 0x20 * i
abbrev TMRn_HOLD (i : Nat) : Nat := 0x40100114 + 0x20 * i
abbrev TMRn_STAT (i : Nat) : Nat := 0x40100118 + 0x20 * i
abbrev TMRn_IEN (i : Nat) : Nat := 0x4010011C + 0x20 * i
abbrev WDG0_CTRL : Nat := 0x40100400
abbrev WDG0_LOAD : Nat := 0x40100404
abbrev WDG0_WARN : Nat := 0x40100408
abbrev WDG0_KEY : Nat := 0x4010040C
abbrev WDG0_CNT : Nat := 0x40100410
abbrev WDG0_STAT : Nat := 0x40100414
abbrev WDG1_CTRL : Nat := 0x40100420
abbrev WDG1_LOAD : Nat := 0x40100424
abbrev WDG1_WARN : Nat := 0x40100428
abbrev WDG1_KEY : Nat := 0x4010042C
abbrev WDG1_CNT : Nat := 0x40100430
abbrev WDG1_STAT : Nat := 0x40100434
abbrev WDGM_CTRL : Nat := 0x40100440
abbrev WDGM_LOAD : Nat := 0x40100444
abbrev WDGM_WARN : Nat := 0x40100448
abbrev WDGM_KEY : Nat := 0x4010044C
abbrev WDGM_CNT : Nat := 0x40100450
abbrev WDGM_STAT : Nat := 0x40100454
abbrev PIN_CTRL : Nat := 0x40110000
abbrev PIN_STAT : Nat := 0x40110004
abbrev PIN_LOCK : Nat := 0x40110008
abbrev PIN_OUT0 : Nat := 0x40110010
abbrev PIN_OUT1 : Nat := 0x40110014
abbrev PIN_SET0 : Nat := 0x40110018
abbrev PIN_SET1 : Nat := 0x4011001C
abbrev PIN_CLR0 : Nat := 0x40110020
abbrev PIN_CLR1 : Nat := 0x40110024
abbrev PIN_OE0 : Nat := 0x40110028
abbrev PIN_OE1 : Nat := 0x4011002C
abbrev PIN_IN0 : Nat := 0x40110030
abbrev PIN_IN1 : Nat := 0x40110034
abbrev PIN_LOCKED0 : Nat := 0x40110038
abbrev PIN_LOCKED1 : Nat := 0x4011003C
abbrev PIN_ALERT : Nat := 0x40110040
abbrev PIN_MATCHW : Nat := 0x40110044
abbrev PIN_CTLPAD : Nat := 0x40110048
abbrev PIN_GPn_CFG (i : Nat) : Nat := 0x40110100 + 0x4 * i
abbrev HI3C_CFG : Nat := 0x40120000
abbrev HI3C_STAT : Nat := 0x40120004
abbrev HI3C_DADDR : Nat := 0x40120008
abbrev HI3C_PIDHI : Nat := 0x4012000C
abbrev HI3C_DCR : Nat := 0x40120010
abbrev HI3C_WINERR : Nat := 0x40120014
abbrev CI3C_CTRL : Nat := 0x40130000
abbrev CI3C_RATE : Nat := 0x40130004
abbrev CI3C_STAT : Nat := 0x40130008
abbrev CI3C_CMD : Nat := 0x4013000C
abbrev CI3C_RESP : Nat := 0x40130010
abbrev CI3C_TXD : Nat := 0x40130014
abbrev CI3C_RXD : Nat := 0x40130018
abbrev CI3C_IBIQ : Nat := 0x4013001C
abbrev CI3C_DEVn (i : Nat) : Nat := 0x40130040 + 0x4 * i
abbrev XSPI_CTRL : Nat := 0x40140000
abbrev XSPI_STAT : Nat := 0x40140004
abbrev XSPI_CFG : Nat := 0x40140008
abbrev XSPI_CMD : Nat := 0x4014000C
abbrev XSPI_ADDR : Nat := 0x40140010
abbrev XSPI_DATA : Nat := 0x40140014
abbrev XSPI_FIFO : Nat := 0x40140018
abbrev XSPI_POLL : Nat := 0x4014001C
abbrev XSPI_DENS : Nat := 0x40140020
abbrev XSPI_SLOTB : Nat := 0x40140024
abbrev MGT_STAT : Nat := 0x40150000
abbrev MGT_TWARN : Nat := 0x40150008
abbrev MGT_TCRIT : Nat := 0x4015000C
abbrev MGT_TMAX : Nat := 0x40150010
abbrev MGT_TEMPk (i : Nat) : Nat := 0x40150020 + 0x4 * i
abbrev MGT_VMONk (i : Nat) : Nat := 0x40150040 + 0x4 * i
abbrev MGT_VLIMk (i : Nat) : Nat := 0x40150060 + 0x4 * i
abbrev MGT_ADCCTL : Nat := 0x40150080
abbrev MGT_ADCSEQ : Nat := 0x40150084
abbrev MGT_ADCRESc (i : Nat) : Nat := 0x401500A0 + 0x4 * i
abbrev MGT_ADCTHRc (i : Nat) : Nat := 0x401500C0 + 0x4 * i
abbrev MGT_ABCTL : Nat := 0x40150100
abbrev MGT_ABDER : Nat := 0x40150104
abbrev MGT_ABDERMIN : Nat := 0x40150108
abbrev MGT_ABCURVEi (i : Nat) : Nat := 0x40150110 + 0x4 * i
abbrev MGT_ABOUT : Nat := 0x40150160
abbrev MGT_MBINSTAT : Nat := 0x40150200
abbrev MGT_MBINREL : Nat := 0x40150204
abbrev MGT_MBSEND : Nat := 0x40150208
abbrev MGT_MBOUTSTAT : Nat := 0x4015020C
abbrev MGT_MBINSRCs (i : Nat) : Nat := 0x40150210 + 0x4 * i
abbrev MGT_MBOUTs_DST (i : Nat) : Nat := 0x40150220 + 0x4 * i
abbrev MGT_HSNAP : Nat := 0x40150280
abbrev MGT_HSw (i : Nat) : Nat := 0x401502C0 + 0x4 * i
abbrev MGT_MBINs (i : Nat) (j : Nat) : Nat := 0x40158000 + 0x800 * i + 0x4 * j
abbrev MGT_MBOUTs (i : Nat) (j : Nat) : Nat := 0x4015A000 + 0x800 * i + 0x4 * j
abbrev EVR_STAT : Nat := 0x40160004
abbrev EVR_SECS : Nat := 0x40160008
abbrev EVR_PCYC : Nat := 0x4016000C
abbrev EVR_SUB : Nat := 0x40160010
abbrev EVR_RL : Nat := 0x40160014
abbrev EVR_OPCNT : Nat := 0x40160018
abbrev EVR_SCNT : Nat := 0x4016001C
abbrev EVR_OPSEQ : Nat := 0x40160020
abbrev EVR_SSEQ : Nat := 0x40160024
abbrev EVR_DROPS : Nat := 0x40160028
abbrev EVR_CURSEQ : Nat := 0x40160030
abbrev EVR_CURCTL : Nat := 0x40160034
abbrev EVR_WSTAT : Nat := 0x40160038
abbrev EVR_WINw (i : Nat) : Nat := 0x40160040 + 0x4 * i
abbrev EVR_LOGt_Aa (i : Nat) (j : Nat) : Nat := 0x40160080 + 0x20 * i + 0x4 * j
abbrev EVR_LOGt_GO (i : Nat) : Nat := 0x40160090 + 0x20 * i
abbrev SEC_LCS : Nat := 0x40170000
abbrev SEC_STAT : Nat := 0x40170004
abbrev SEC_CMD : Nat := 0x40170008
abbrev SEC_ARG : Nat := 0x4017000C
abbrev SEC_SRC : Nat := 0x40170010
abbrev SEC_TCFG : Nat := 0x40170014
abbrev SEC_TCLR : Nat := 0x40170018
abbrev SEC_POLICY : Nat := 0x4017001C
abbrev SEC_KEYS : Nat := 0x40170020
abbrev SEC_SVN : Nat := 0x40170024
abbrev SEC_UIDLO : Nat := 0x40170028
abbrev SEC_UIDHI : Nat := 0x4017002C
abbrev SEC_DBGFAIL : Nat := 0x40170030
abbrev DBG_STAT : Nat := 0x40180000
abbrev DBG_AUTHCTL : Nat := 0x40180004
abbrev DBG_AUTHSTAT : Nat := 0x40180008
abbrev DBG_CHALw (i : Nat) : Nat := 0x40180040 + 0x4 * i
abbrev DBG_RESPw (i : Nat) : Nat := 0x40180080 + 0x4 * i
abbrev DBG_Cc_CTRL (i : Nat) : Nat := 0x40180200 + 0x80 * i
abbrev DBG_Cc_STAT (i : Nat) : Nat := 0x40180204 + 0x80 * i
abbrev DBG_Cc_VT (i : Nat) : Nat := 0x40180208 + 0x80 * i
abbrev DBG_Cc_DTX (i : Nat) : Nat := 0x4018020C + 0x80 * i
abbrev DBG_Cc_DRX (i : Nat) : Nat := 0x40180210 + 0x80 * i
abbrev DBG_Cc_REGSEL (i : Nat) : Nat := 0x40180214 + 0x80 * i
abbrev DBG_Cc_REGDATA (i : Nat) : Nat := 0x40180218 + 0x80 * i
abbrev DBG_Cc_LADDR (i : Nat) : Nat := 0x4018021C + 0x80 * i
abbrev DBG_Cc_LDATA (i : Nat) : Nat := 0x40180220 + 0x80 * i
abbrev DBG_Cc_BPb (i : Nat) (j : Nat) : Nat := 0x40180240 + 0x80 * i + 0x4 * j
abbrev DBG_Cc_WPw_ADDR (i : Nat) (j : Nat) : Nat := 0x40180250 + 0x80 * i + 0x8 * j
abbrev DBG_Cc_WPw_CTRL (i : Nat) (j : Nat) : Nat := 0x40180254 + 0x80 * i + 0x8 * j
abbrev IMG_CMD : Nat := 0x40190000
abbrev IMG_STAT : Nat := 0x40190004
abbrev IMG_STATE : Nat := 0x40190008
abbrev IMG_ERR : Nat := 0x4019000C
abbrev IMG_ERRADDR : Nat := 0x40190010
abbrev IMG_STGBASE : Nat := 0x40190014
abbrev IMG_STGLEN : Nat := 0x40190018
abbrev IMG_SESSION : Nat := 0x4019001C
abbrev IMG_STGCTL : Nat := 0x40190020
abbrev IMG_STGBLK : Nat := 0x40190024
abbrev IMG_STGMISS : Nat := 0x40190028
abbrev IMG_STGDROP : Nat := 0x4019002C
abbrev IMG_LDSECT : Nat := 0x40190030
abbrev IMG_LDDST : Nat := 0x40190034
abbrev IMG_ACTVER : Nat := 0x40190038
abbrev IMG_SHDVER : Nat := 0x4019003C
abbrev IMG_SWAPS : Nat := 0x40190040
abbrev IMG_BOOT : Nat := 0x40190044
abbrev IMG_PEERVERx (i : Nat) : Nat := 0x40190048 + 0x4 * i
abbrev IMG_RINGFMT : Nat := 0x40190050
abbrev IMG_UCLOAD : Nat := 0x40190800
abbrev IMG_UCSRC : Nat := 0x40190804
abbrev IMG_UCSWAP : Nat := 0x40190808
abbrev IMG_UCSTAT : Nat := 0x4019080C
abbrev IMG_UCVERs (i : Nat) : Nat := 0x40190810 + 0x4 * i
abbrev IMG_UCQMAX : Nat := 0x4019081C
abbrev IMG_UCCE : Nat := 0x40190820
abbrev IMG_UCFAIL : Nat := 0x40190824
abbrev MRC_CTRL : Nat := 0x401A0000
abbrev MRC_STAT : Nat := 0x401A0004
abbrev MRC_SCRUB : Nat := 0x401A0008
abbrev MRC_CEPOL : Nat := 0x401A000C
abbrev MRC_REQ : Nat := 0x401A0010
abbrev MRC_JOB : Nat := 0x401A0014
abbrev MRC_PROGRESS : Nat := 0x401A0018
abbrev MRC_ERRADDR : Nat := 0x401A0020
abbrev MRC_ERRINFO : Nat := 0x401A0024
abbrev MRC_UECNT : Nat := 0x401A0028
abbrev MRC_CETOTAL : Nat := 0x401A002C
abbrev MRC_BOOTFAILLO : Nat := 0x401A0030
abbrev MRC_BOOTFAILHI : Nat := 0x401A0034
abbrev MRC_BANKMAPb (i : Nat) : Nat := 0x401A0040 + 0x4 * i
abbrev MRC_CECNTq (i : Nat) : Nat := 0x401A0100 + 0x4 * i
abbrev QDL_LANEPOL : Nat := 0x4004008C
abbrev QDL_LANEERR : Nat := 0x40040090
abbrev EVR_SEVn (i : Nat) : Nat := 0x40160100 + 0x4 * i

end Reg

namespace RegMap

def rowsSYS : List RegRow := [
  ⟨0x40000000, 1, 4, 1, 4, 1, 4, 0x880#32, 0, 0x0#32, 0x0#32, 0x0#32, 0x0#32, 0x0#32, .none⟩,
  ⟨0x40000004, 1, 4, 1, 4, 1, 4, 0xB0#32, 0, 0x0#32, 0x0#32, 0x0#32, 0x0#32, 0x0#32, .none⟩,
  ⟨0x40000008, 1, 4, 1, 4, 1, 4, 0x1#32, 0, 0x0#32, 0x0#32, 0x0#32, 0x0#32, 0x0#32, .none⟩,
  ⟨0x40000100, 1, 4, 1, 4, 1, 4, 0x0#32, 0, 0x1#32, 0x0#32, 0x0#32, 0x0#32, 0x1#32, .struct⟩,
  ⟨0x40000200, 32, 16, 1, 4, 1, 4, 0x0#32, 0, 0x3FFF#32, 0x0#32, 0x0#32, 0x0#32, 0x3FFF#32, .struct⟩,
  ⟨0x40000204, 32, 16, 1, 4, 1, 4, 0x0#32, 0, 0x3FFF#32, 0x0#32, 0x0#32, 0x0#32, 0x3FFF#32, .struct⟩,
  ⟨0x40000208, 32, 16, 1, 4, 1, 4, 0x0#32, 0, 0xFFFF#32, 0x0#32, 0x0#32, 0x0#32, 0xFFFF#32, .struct⟩,
  ⟨0x4000020C, 32, 16, 1, 4, 1, 4, 0x0#32, 0, 0xFFFF#32, 0x0#32, 0x0#32, 0x0#32, 0xFFFF#32, .struct⟩]

def rowsCLK : List RegRow := [
  ⟨0x40010000, 1, 4, 1, 4, 1, 4, 0x0#32, 0, 0x0#32, 0xF#32, 0x0#32, 0x0#32, 0x0#32, .none⟩,
  ⟨0x40010004, 1, 4, 1, 4, 1, 4, 0x0#32, 0, 0x0#32, 0x0#32, 0x0#32, 0x0#32, 0x0#32, .none⟩,
  ⟨0x40010008, 1, 4, 1, 4, 1, 4, 0x1#32, 0, 0x1#32, 0x0#32, 0x0#32, 0x0#32, 0x0#32, .none⟩,
  ⟨0x40010010, 1, 4, 1, 4, 1, 4, 0x0#32, 0, 0x1FF#32, 0x0#32, 0x0#32, 0x0#32, 0x1FF#32, .struct⟩,
  ⟨0x40010014, 1, 4, 1, 4, 1, 4, 0x0#32, 0, 0xFFFFFF#32, 0x0#32, 0x0#32, 0x0#32, 0xFFFFFF#32, .struct⟩,
  ⟨0x40010018, 1, 4, 1, 4, 1, 4, 0x0#32, 0, 0x7F#32, 0x0#32, 0x0#32, 0x0#32, 0x7F#32, .struct⟩,
  ⟨0x4001001C, 1, 4, 1, 4, 1, 4, 0x0#32, 0, 0x0#32, 0x0#32, 0x0#32, 0x0#32, 0x0#32, .none⟩,
  ⟨0x40010020, 1, 4, 1, 4, 1, 4, 0x140002#32, 0, 0xFFF001F#32, 0x0#32, 0x0#32, 0x0#32, 0x0#32, .none⟩,
  ⟨0x40010024, 1, 4, 1, 4, 1, 4, 0x0#32, 0, 0x0#32, 0x0#32, 0x0#32, 0x0#32, 0x0#32, .none⟩,
  ⟨0x40010030, 3, 4, 1, 4, 1, 4, 0x0#32, 0, 0xFFFFFFFF#32, 0x0#32, 0x0#32, 0x0#32, 0x0#32, .none⟩,
  ⟨0x40010040, 1, 4, 1, 4, 1, 4, 0x0#32, 0, 0x0#32, 0x0#32, 0x0#32, 0x0#32, 0x0#32, .none⟩,
  ⟨0x40010044, 1, 4, 1, 4, 1, 4, 0x0#32, 0, 0x0#32, 0x0#32, 0x0#32, 0x0#32, 0x0#32, .none⟩,
  ⟨0x40010050, 1, 4, 1, 4, 1, 4, 0x1#32, 0, 0x0#32, 0x1FF#32, 0x0#32, 0x0#32, 0x0#32, .none⟩,
  ⟨0x40010054, 1, 4, 1, 4, 1, 4, 0x0#32, 0, 0x0#32, 0x0#32, 0x0#32, 0x0#32, 0x0#32, .none⟩,
  ⟨0x40010058, 1, 4, 1, 4, 1, 4, 0x3#32, 0, 0x3#32, 0x0#32, 0x0#32, 0x0#32, 0x0#32, .none⟩,
  ⟨0x4001005C, 2, 4, 1, 4, 1, 4, 0x0#32, 0, 0xFFFFFFFF#32, 0x0#32, 0x0#32, 0x0#32, 0x0#32, .none⟩,
  ⟨0x40010064, 1, 4, 1, 4, 1, 4, 0x1E#32, 0, 0x0#32, 0x0#32, 0x0#32, 0x0#32, 0x0#32, .none⟩,
  ⟨0x40010080, 6, 4, 1, 4, 1, 4, 0x0#32, 0, 0x0#32, 0x0#32, 0x0#32, 0xFFFFFFFF#32, 0x0#32, .none⟩]

def rowsCOT : List RegRow := [
  ⟨0x40020000, 1, 4, 1, 4, 1, 4, 0x0#32, 0, 0x0#32, 0x3#32, 0x0#32, 0x0#32, 0x0#32, .none⟩,
  ⟨0x40020004, 1, 4, 1, 4, 1, 4, 0x0#32, 0, 0x0#32, 0x0#32, 0x0#32, 0x0#32, 0x0#32, .none⟩,
  ⟨0x40020008, 1, 4, 1, 4, 1, 4, 0x0#32, 0, 0x0#32, 0x0#32, 0x0#32, 0x0#32, 0x0#32, .none⟩,
  ⟨0x4002000C, 1, 4, 1, 4, 1, 4, 0x0#32, 0, 0x0#32, 0x0#32, 0x0#32, 0x0#32, 0x0#32, .none⟩,
  ⟨0x40020010, 1, 4, 1, 4, 1, 4, 0x0#32, 0, 0x0#32, 0xFFF#32, 0x0#32, 0x0#32, 0x0#32, .none⟩,
  ⟨0x40020014, 1, 4, 1, 4, 1, 4, 0x0#32, 0, 0x0#32, 0x0#32, 0x0#32, 0x0#32, 0x0#32, .none⟩,
  ⟨0x40020018, 1, 4, 1, 4, 1, 4, 0x0#32, 0, 0x0#32, 0x0#32, 0x0#32, 0x0#32, 0x0#32, .none⟩,
  ⟨0x4002001C, 1, 4, 1, 4, 1, 4, 0x0#32, 0, 0x0#32, 0x3FF#32, 0x0#32, 0x0#32, 0x0#32, .none⟩,
  ⟨0x40020100, 32, 8, 1, 4, 1, 4, 0x0#32, 0, 0x1FFF3FFF#32, 0x0#32, 0x0#32, 0x0#32, 0x1FFF3FFF#32, .group 9⟩,
  ⟨0x40020104, 32, 8, 1, 4, 1, 4, 0x0#32, 0, 0xFFFF1F3F#32, 0x0#32, 0x0#32, 0x0#32, 0xFFFF1F3F#32, .group 9⟩,
  ⟨0x40020200, 16, 4, 1, 4, 1, 4, 0x0#32, 0, 0x0#32, 0x0#32, 0x0#32, 0x0#32, 0x0#32, .none⟩,
  ⟨0x40020400, 32, 32, 8, 4, 1, 4, 0x0#32, 0, 0x8F8F8F8F#32, 0x0#32, 0x0#32, 0x0#32, 0x8F8F8F8F#32, .struct⟩]

def rowsBEAM0 : List RegRow := [
  ⟨0x40030000, 1, 4, 1, 4, 1, 4, 0x0#32, 0, 0x7#32, 0x0#32, 0x0#32, 0x0#32, 0x6#32, .struct⟩,
  ⟨0x40030004, 1, 4, 1, 4, 1, 4, 0x0#32, 0, 0x1FFF#32, 0x0#32, 0x0#32, 0x0#32, 0x1FFF#32, .struct⟩,
  ⟨0x40030008, 1, 4, 1, 4, 1, 4, 0x0#32, 0, 0x1FFF#32, 0x0#32, 0x0#32, 0x0#32, 0x1FFF#32, .struct⟩,
  ⟨0x4003000C, 1, 4, 1, 4, 1, 4, 0x0#32, 0, 0x3FFF#32, 0x0#32, 0x0#32, 0x0#32, 0x3FFF#32, .struct⟩,
  ⟨0x40030010, 1, 4, 1, 4, 1, 4, 0x0#32, 0, 0x1FFF#32, 0x0#32, 0x0#32, 0x0#32, 0x1FFF#32, .struct⟩,
  ⟨0x40030014, 1, 4, 1, 4, 1, 4, 0x0#32, 0, 0x1FFF3FFF#32, 0x0#32, 0x0#32, 0x0#32, 0x1FFF3FFF#32, .struct⟩,
  ⟨0x40030018, 1, 4, 1, 4, 1, 4, 0x0#32, 0, 0x1FFF3FFF#32, 0x0#32, 0x0#32, 0x0#32, 0x1FFF3FFF#32, .struct⟩,
  ⟨0x40030020, 1, 4, 1, 4, 1, 4, 0x0#32, 0, 0x0#32, 0x0#32, 0x0#32, 0x0#32, 0x0#32, .none⟩,
  ⟨0x40030024, 1, 4, 1, 4, 1, 4, 0x0#32, 0, 0x0#32, 0x0#32, 0x0#32, 0x0#32, 0x0#32, .none⟩,
  ⟨0x40030028, 1, 4, 1, 4, 1, 4, 0x0#32, 0, 0x0#32, 0x0#32, 0x0#32, 0x0#32, 0x0#32, .none⟩,
  ⟨0x40030030, 1, 4, 1, 4, 1, 4, 0x0#32, 0, 0x0#32, 0x7#32, 0x0#32, 0x0#32, 0x0#32, .none⟩,
  ⟨0x40030040, 4, 4, 1, 4, 1, 4, 0x0#32, 0, 0xFFFFBFFF#32, 0x0#32, 0x0#32, 0x0#32, 0x0#32, .none⟩,
  ⟨0x40030080, 1, 4, 1, 4, 1, 4, 0x0#32, 0, 0x3FFF#32, 0x0#32, 0x0#32, 0x0#32, 0x3FFF#32, .struct⟩,
  ⟨0x40030084, 1, 4, 1, 4, 1, 4, 0x0#32, 0, 0xF#32, 0x0#32, 0x0#32, 0x0#32, 0xF#32, .struct⟩,
  ⟨0x40030088, 1, 4, 1, 4, 1, 4, 0x0#32, 0, 0xFFFFF#32, 0x0#32, 0x0#32, 0x0#32, 0x0#32, .none⟩,
  ⟨0x4003008C, 1, 4, 1, 4, 1, 4, 0x0#32, 0, 0xFFFFF#32, 0x0#32, 0x0#32, 0x0#32, 0x0#32, .none⟩,
  ⟨0x40030090, 1, 4, 1, 4, 1, 4, 0xFFFFF#32, 0, 0xFFFFF#32, 0x0#32, 0x0#32, 0x0#32, 0x0#32, .none⟩,
  ⟨0x40030094, 1, 4, 1, 4, 1, 4, 0xFFFFF#32, 0, 0xFFFFF#32, 0x0#32, 0x0#32, 0x0#32, 0x0#32, .none⟩,
  ⟨0x40030098, 1, 4, 1, 4, 1, 4, 0x0#32, 0, 0xFFFFFFFF#32, 0x0#32, 0x0#32, 0x0#32, 0xFFFFFFFF#32, .struct⟩,
  ⟨0x400300A0, 1, 4, 1, 4, 1, 4, 0x0#32, 0, 0xFFFFF#32, 0x0#32, 0x0#32, 0x0#32, 0xFFFFF#32, .struct⟩,
  ⟨0x400300A4, 1, 4, 1, 4, 1, 4, 0x0#32, 0, 0xFFF#32, 0x0#32, 0x0#32, 0x0#32, 0xFFF#32, .struct⟩,
  ⟨0x400300A8, 1, 4, 1, 4, 1, 4, 0x7F0004#32, 0, 0x7F01FF#32, 0x0#32, 0x0#32, 0x0#32, 0x7F01FF#32, .struct⟩,
  ⟨0x400300AC, 1, 4, 1, 4, 1, 4, 0x0#32, 0, 0xDFFF3FFF#32, 0x0#32, 0x0#32, 0x0#32, 0xDFFF3FFF#32, .struct⟩,
  ⟨0x400300B0, 1, 4, 1, 4, 1, 4, 0x0#32, 0, 0xDFFFFFFF#32, 0x0#32, 0x0#32, 0x0#32, 0x0#32, .none⟩,
  ⟨0x400300B4, 1, 4, 1, 4, 1, 4, 0x0#32, 0, 0x0#32, 0x0#32, 0x0#32, 0x0#32, 0x0#32, .none⟩,
  ⟨0x400300B8, 1, 4, 1, 4, 1, 4, 0x0#32, 0, 0x0#32, 0x0#32, 0x0#32, 0x0#32, 0x0#32, .none⟩,
  ⟨0x400300BC, 1, 4, 1, 4, 1, 4, 0x0#32, 0, 0x0#32, 0x0#32, 0x0#32, 0x0#32, 0x0#32, .none⟩,
  ⟨0x400300C0, 1, 4, 1, 4, 1, 4, 0x0#32, 0, 0x0#32, 0x0#32, 0x0#32, 0x0#32, 0x0#32, .none⟩,
  ⟨0x400300C4, 1, 4, 1, 4, 1, 4, 0x0#32, 0, 0x0#32, 0x0#32, 0x0#32, 0x0#32, 0x0#32, .none⟩,
  ⟨0x400300C8, 1, 4, 1, 4, 1, 4, 0x0#32, 0, 0xFFFF#32, 0x0#32, 0x0#32, 0x0#32, 0xFFFF#32, .struct⟩,
  ⟨0x400300CC, 1, 4, 1, 4, 1, 4, 0x0#32, 0, 0xFFFF#32, 0x0#32, 0x0#32, 0x0#32, 0xFFFF#32, .struct⟩,
  ⟨0x400300D0, 1, 4, 1, 4, 1, 4, 0x0#32, 0, 0x3#32, 0x0#32, 0x0#32, 0x0#32, 0x3#32, .struct⟩,
  ⟨0x400300D4, 1, 4, 1, 4, 1, 4, 0x0#32, 0, 0x1FFF3FFF#32, 0x0#32, 0x0#32, 0x0#32, 0x1FFF3FFF#32, .struct⟩,
  ⟨0x400300D8, 1, 4, 1, 4, 1, 4, 0x0#32, 0, 0x1FFF3FFF#32, 0x0#32, 0x0#32, 0x0#32, 0x1FFF3FFF#32, .struct⟩,
  ⟨0x400300DC, 1, 4, 1, 4, 1, 4, 0x0#32, 0, 0x7FFF#32, 0x0#32, 0x0#32, 0x0#32, 0x7FFF#32, .struct⟩,
  ⟨0x400300E0, 1, 4, 1, 4, 1, 4, 0x0#32, 0, 0x73FFF#32, 0x0#32, 0x0#32, 0x0#32, 0x73FFF#32, .struct⟩,
  ⟨0x400300E4, 1, 4, 1, 4, 1, 4, 0x0#32, 0, 0x0#32, 0x7FF#32, 0x0#32, 0x0#32, 0x0#32, .none⟩,
  ⟨0x400300E8, 1, 4, 1, 4, 1, 4, 0x0#32, 0, 0x0#32, 0x0#32, 0x0#32, 0xFFFFFFFF#32, 0x0#32, .none⟩,
  ⟨0x400300EC, 1, 4, 1, 4, 1, 4, 0x0#32, 0, 0x0#32, 0x0#32, 0x0#32, 0xFFFF#32, 0x0#32, .none⟩,
  ⟨0x400300F0, 1, 4, 1, 4, 1, 4, 0x0#32, 0, 0x0#32, 0x0#32, 0x0#32, 0x0#32, 0x0#32, .none⟩]

def rowsBEAM1 : List RegRow := [
  ⟨0x400300F4, 1, 4, 1, 4, 1, 4, 0x0#32, 0, 0x0#32, 0x0#32, 0x0#32, 0x0#32, 0x0#32, .none⟩,
  ⟨0x400300F8, 1, 4, 1, 4, 1, 4, 0x0#32, 0, 0xFFFF#32, 0x0#32, 0x0#32, 0x0#32, 0xFFFF#32, .struct⟩,
  ⟨0x400300FC, 1, 4, 1, 4, 1, 4, 0x0#32, 0, 0xFFFF#32, 0x0#32, 0x0#32, 0x0#32, 0xFFFF#32, .struct⟩]

def rowsBEAM : List RegRow := rowsBEAM0 ++ rowsBEAM1

def rowsQDL : List RegRow := [
  ⟨0x40040000, 1, 4, 1, 4, 1, 4, 0x0#32, 0, 0x1#32, 0x0#32, 0x0#32, 0x0#32, 0x0#32, .none⟩,
  ⟨0x40040004, 1, 4, 1, 4, 1, 4, 0x0#32, 0, 0x1FFF#32, 0x0#32, 0x0#32, 0x0#32, 0x1FFF#32, .struct⟩,
  ⟨0x40040008, 1, 4, 1, 4, 1, 4, 0x10F0#32, 0, 0x1FF7#32, 0x0#32, 0x0#32, 0x0#32, 0x1FF7#32, .struct⟩,
  ⟨0x4004000C, 1, 4, 1, 4, 1, 4, 0xCB#32, 0, 0x3FFF#32, 0x0#32, 0x0#32, 0x0#32, 0x3FFF#32, .struct⟩,
  ⟨0x40040010, 1, 4, 1, 4, 1, 4, 0x0#32, 0, 0xFFFFFFFF#32, 0x0#32, 0x0#32, 0x0#32, 0xFFFFFFFF#32, .struct⟩,
  ⟨0x40040014, 1, 4, 1, 4, 1, 4, 0x0#32, 0, 0x1FF#32, 0x0#32, 0x0#32, 0x0#32, 0x1FF#32, .struct⟩,
  ⟨0x40040018, 1, 4, 1, 4, 1, 4, 0x0#32, 0, 0xFFFFFFFF#32, 0x0#32, 0x0#32, 0x0#32, 0xFFFFFFFF#32, .struct⟩,
  ⟨0x40040020, 1, 4, 1, 4, 1, 4, 0x8000#32, 0, 0xFFFF#32, 0x0#32, 0x0#32, 0x0#32, 0xFFFF#32, .group 0⟩,
  ⟨0x40040024, 1, 4, 1, 4, 1, 4, 0x0#32, 0, 0x7#32, 0x0#32, 0x0#32, 0x0#32, 0x7#32, .group 0⟩,
  ⟨0x40040028, 1, 4, 1, 4, 1, 4, 0xFFF#32, 0, 0xFFF#32, 0x0#32, 0x0#32, 0x0#32, 0xFFF#32, .group 2⟩,
  ⟨0x4004002C, 1, 4, 1, 4, 1, 4, 0x76543210#32, 0, 0xFFFFFFFF#32, 0x0#32, 0x0#32, 0x0#32, 0xFFFFFFFF#32, .group 2⟩,
  ⟨0x40040030, 1, 4, 1, 4, 1, 4, 0xBA98#32, 0, 0xFFFF#32, 0x0#32, 0x0#32, 0x0#32, 0xFFFF#32, .group 2⟩,
  ⟨0x40040034, 1, 4, 1, 4, 1, 4, 0x0#32, 0, 0x0#32, 0x0#32, 0x0#32, 0x0#32, 0x0#32, .none⟩,
  ⟨0x40040038, 1, 4, 1, 4, 1, 4, 0x0#32, 0, 0x0#32, 0x0#32, 0x0#32, 0x0#32, 0x0#32, .none⟩,
  ⟨0x4004003C, 1, 4, 1, 4, 1, 4, 0x0#32, 0, 0x0#32, 0x0#32, 0x0#32, 0x0#32, 0x0#32, .none⟩,
  ⟨0x40040040, 4, 8, 1, 4, 1, 4, 0xFFF#32, 0, 0x10FFF#32, 0x0#32, 0x0#32, 0x0#32, 0x10FFF#32, .group 1⟩,
  ⟨0x40040044, 4, 8, 1, 4, 1, 4, 0x0#32, 0, 0x3FFF#32, 0x0#32, 0x0#32, 0x0#32, 0x3FFF#32, .group 1⟩,
  ⟨0x40040060, 1, 4, 1, 4, 1, 4, 0x8#32, 0, 0x7F#32, 0x0#32, 0x0#32, 0x0#32, 0x0#32, .none⟩,
  ⟨0x40040064, 1, 4, 1, 4, 1, 4, 0x0#32, 0, 0x77#32, 0x0#32, 0x0#32, 0x0#32, 0x0#32, .none⟩,
  ⟨0x40040068, 1, 4, 1, 4, 1, 4, 0x0#32, 0, 0x0#32, 0x7F#32, 0x0#32, 0x0#32, 0x0#32, .none⟩,
  ⟨0x4004006C, 1, 4, 1, 4, 1, 4, 0x0#32, 0, 0x0#32, 0x0#32, 0x0#32, 0x0#32, 0x0#32, .none⟩,
  ⟨0x40040070, 1, 4, 1, 4, 1, 4, 0x0#32, 0, 0x0#32, 0x0#32, 0x0#32, 0x0#32, 0x0#32, .none⟩,
  ⟨0x40040074, 1, 4, 1, 4, 1, 4, 0x0#32, 0, 0x0#32, 0x0#32, 0x0#32, 0xFFFF#32, 0x0#32, .none⟩,
  ⟨0x40040078, 1, 4, 1, 4, 1, 4, 0x0#32, 0, 0x0#32, 0x0#32, 0x0#32, 0x0#32, 0x0#32, .none⟩,
  ⟨0x4004007C, 1, 4, 1, 4, 1, 4, 0x0#32, 0, 0x0#32, 0x0#32, 0x0#32, 0xFFFFFFFF#32, 0x0#32, .none⟩,
  ⟨0x40040080, 1, 4, 1, 4, 1, 4, 0x0#32, 0, 0x0#32, 0x0#32, 0x0#32, 0xFFFF#32, 0x0#32, .none⟩,
  ⟨0x40040084, 1, 4, 1, 4, 1, 4, 0xF#32, 0, 0x0#32, 0x0#32, 0x0#32, 0x0#32, 0x0#32, .none⟩,
  ⟨0x40040088, 1, 4, 1, 4, 1, 4, 0x0#32, 0, 0x0#32, 0x0#32, 0x0#32, 0x0#32, 0x0#32, .none⟩,
  ⟨0x400400C0, 16, 4, 1, 4, 1, 4, 0xFFF0000#32, 0, 0xFFF0003#32, 0x0#32, 0x0#32, 0x0#32, 0xFFF0003#32, .struct⟩,
  ⟨0x40040800, 64, 32, 3, 4, 1, 4, 0x0#32, 0, 0xFFF#32, 0x0#32, 0x0#32, 0x0#32, 0xFFF#32, .struct⟩,
  ⟨0x4004080C, 64, 32, 1, 4, 1, 4, 0x400#32, 0, 0xFFF#32, 0x0#32, 0x0#32, 0x0#32, 0xFFF#32, .struct⟩,
  ⟨0x40040810, 64, 32, 4, 4, 1, 4, 0x0#32, 0, 0xFFF#32, 0x0#32, 0x0#32, 0x0#32, 0xFFF#32, .struct⟩,
  ⟨0x40041000, 64, 16, 1, 4, 1, 4, 0x0#32, 0, 0xFFF#32, 0x0#32, 0x0#32, 0x0#32, 0xFFF#32, .struct⟩,
  ⟨0x40041004, 64, 16, 1, 4, 1, 4, 0x400#32, 0, 0xFFF#32, 0x0#32, 0x0#32, 0x0#32, 0xFFF#32, .struct⟩,
  ⟨0x40041008, 64, 16, 2, 4, 1, 4, 0x0#32, 0, 0xFFF#32, 0x0#32, 0x0#32, 0x0#32, 0xFFF#32, .struct⟩,
  ⟨0x40042000, 2, 32768, 3, 8192, 1025, 4, 0x0#32, 0, 0xFFFF#32, 0x0#32, 0x0#32, 0x0#32, 0x0#32, .none⟩,
  ⟨0x4004008C, 1, 4, 1, 4, 1, 4, 0x640004#32, 0, 0xFFFF00FF#32, 0x0#32, 0x0#32, 0x0#32, 0x0#32, .none⟩,
  ⟨0x40040090, 1, 4, 1, 4, 1, 4, 0x0#32, 0, 0x0#32, 0x0#32, 0x0#32, 0x0#32, 0x0#32, .none⟩]

def rowsLAY : List RegRow := [
  ⟨0x40050000, 12, 1024, 1, 4, 1, 4, 0x0#32, 0, 0x3#32, 0x0#32, 0x0#32, 0x0#32, 0x3#32, .struct⟩,
  ⟨0x40050004, 12, 1024, 1, 4, 1, 4, 0x0#32, 0, 0x2#32, 0x0#32, 0x0#32, 0x0#32, 0x0#32, .none⟩,
  ⟨0x40050008, 12, 1024, 1, 4, 1, 4, 0x0#32, 0, 0x1FFF3FFF#32, 0x0#32, 0x0#32, 0x0#32, 0x0#32, .none⟩,
  ⟨0x4005000C, 12, 1024, 1, 4, 1, 4, 0x0#32, 0, 0x0#32, 0x0#32, 0x0#32, 0x0#32, 0x0#32, .none⟩,
  ⟨0x40050010, 12, 1024, 1, 4, 1, 4, 0x0#32, 0, 0x0#32, 0xFF#32, 0x0#32, 0x0#32, 0x0#32, .none⟩,
  ⟨0x40050014, 12, 1024, 1, 4, 1, 4, 0x0#32, 0, 0x0#32, 0xF#32, 0x0#32, 0x0#32, 0x0#32, .none⟩,
  ⟨0x40050018, 12, 1024, 1, 4, 1, 4, 0x0#32, 0, 0x0#32, 0x0#32, 0x0#32, 0xFFFF#32, 0x0#32, .none⟩,
  ⟨0x4005001C, 12, 1024, 1, 4, 1, 4, 0x0#32, 0, 0x0#32, 0x0#32, 0x0#32, 0xFFFF#32, 0x0#32, .none⟩,
  ⟨0x40050040, 12, 1024, 1, 4, 1, 4, 0x0#32, 0, 0x0#32, 0x0#32, 0x0#32, 0x0#32, 0x0#32, .none⟩,
  ⟨0x40050044, 12, 1024, 1, 4, 1, 4, 0x0#32, 0, 0x0#32, 0x0#32, 0x0#32, 0x0#32, 0x0#32, .none⟩,
  ⟨0x40050100, 12, 1024, 2, 256, 1, 4, 0x0#32, 0, 0x3FFFFF#32, 0x0#32, 0x0#32, 0x0#32, 0x0#32, .none⟩,
  ⟨0x40050104, 12, 1024, 2, 256, 1, 4, 0x0#32, 0, 0xFFFFFFFF#32, 0x0#32, 0x0#32, 0x0#32, 0x0#32, .none⟩,
  ⟨0x40050108, 12, 1024, 2, 256, 1, 4, 0x0#32, 0, 0xFFFFFFFF#32, 0x0#32, 0x0#32, 0x0#32, 0x0#32, .none⟩,
  ⟨0x4005010C, 12, 1024, 2, 256, 1, 4, 0x0#32, 0, 0xFFFFFFFF#32, 0x0#32, 0x0#32, 0x0#32, 0x0#32, .none⟩,
  ⟨0x40050110, 12, 1024, 2, 256, 1, 4, 0x0#32, 0, 0x3FFFF#32, 0x0#32, 0x0#32, 0x0#32, 0x0#32, .none⟩,
  ⟨0x40050114, 12, 1024, 2, 256, 1, 4, 0x0#32, 0, 0x1FFF1FFF#32, 0x0#32, 0x0#32, 0x0#32, 0x0#32, .none⟩,
  ⟨0x40050118, 12, 1024, 2, 256, 1, 4, 0x0#32, 0, 0x1FFFFF#32, 0x0#32, 0x0#32, 0x0#32, 0x0#32, .none⟩,
  ⟨0x4005011C, 12, 1024, 2, 256, 1, 4, 0x0#32, 0, 0x1FFFFF#32, 0x0#32, 0x0#32, 0x0#32, 0x0#32, .none⟩,
  ⟨0x40050120, 12, 1024, 2, 256, 1, 4, 0x0#32, 0, 0xFFFF#32, 0x0#32, 0x0#32, 0x0#32, 0x0#32, .none⟩,
  ⟨0x40050124, 12, 1024, 2, 256, 1, 4, 0x0#32, 0, 0x1FFF1FFF#32, 0x0#32, 0x0#32, 0x0#32, 0x0#32, .none⟩,
  ⟨0x40050130, 12, 1024, 2, 256, 9, 4, 0x0#32, 0, 0x3FFFF#32, 0x0#32, 0x0#32, 0x0#32, 0x0#32, .none⟩]

def rowsMNT : List RegRow := [
  ⟨0x40060000, 1, 4, 1, 4, 1, 4, 0x0#32, 0, 0x0#32, 0x3F#32, 0x0#32, 0x0#32, 0x0#32, .none⟩,
  ⟨0x40060004, 1, 4, 1, 4, 1, 4, 0x0#32, 0, 0x0#32, 0x0#32, 0xFFFF#32, 0x0#32, 0x0#32, .none⟩,
  ⟨0x40060008, 1, 4, 1, 4, 1, 4, 0x0#32, 0, 0x0#32, 0x0#32, 0x0#32, 0x0#32, 0x0#32, .none⟩,
  ⟨0x4006000C, 1, 4, 1, 4, 1, 4, 0x0#32, 0, 0xFF#32, 0x0#32, 0x0#32, 0x0#32, 0x0#32, .none⟩,
  ⟨0x40060010, 2, 4, 1, 4, 1, 4, 0x0#32, 0, 0xFFFFFFFF#32, 0x0#32, 0x0#32, 0x0#32, 0x0#32, .none⟩,
  ⟨0x40060018, 1, 4, 1, 4, 1, 4, 0x3210#32, 0, 0xFFFF#32, 0x0#32, 0x0#32, 0x0#32, 0xFFFF#32, .struct⟩,
  ⟨0x4006001C, 1, 4, 1, 4, 1, 4, 0x0#32, 0, 0x0#32, 0x0#32, 0x0#32, 0x0#32, 0x0#32, .none⟩,
  ⟨0x40060020, 1, 4, 1, 4, 1, 4, 0x0#32, 0, 0x0#32, 0x0#32, 0x0#32, 0xFFFF#32, 0x0#32, .none⟩,
  ⟨0x40060024, 1, 4, 1, 4, 1, 4, 0x0#32, 0, 0x0#32, 0xFFFF#32, 0x0#32, 0x0#32, 0x0#32, .none⟩,
  ⟨0x40060028, 1, 4, 1, 4, 1, 4, 0x0#32, 0, 0x0#32, 0x0#32, 0x0#32, 0xFFFF#32, 0x0#32, .none⟩,
  ⟨0x40060040, 16, 4, 1, 4, 1, 4, 0x0#32, 0, 0x0#32, 0x0#32, 0x0#32, 0x0#32, 0x0#32, .none⟩,
  ⟨0x40060100, 8, 64, 1, 4, 1, 4, 0x0#32, 0, 0x3#32, 0x0#32, 0x0#32, 0x0#32, 0x3#32, .group 3⟩,
  ⟨0x40060104, 8, 64, 1, 4, 1, 4, 0x800#32, 0, 0x3FFF#32, 0x0#32, 0x0#32, 0x0#32, 0x3FFF#32, .group 3⟩,
  ⟨0x40060108, 8, 64, 1, 4, 1, 4, 0x10000#32, 0, 0xFFFFFF#32, 0x0#32, 0x0#32, 0x0#32, 0xFFFFFF#32, .group 3⟩,
  ⟨0x4006010C, 8, 64, 1, 4, 1, 4, 0x0#32, 0, 0x0#32, 0x0#32, 0x0#32, 0x0#32, 0x0#32, .none⟩,
  ⟨0x40060110, 8, 64, 1, 4, 1, 4, 0x0#32, 0, 0x0#32, 0x0#32, 0x0#32, 0x0#32, 0x0#32, .none⟩,
  ⟨0x40060114, 8, 64, 1, 4, 1, 4, 0x0#32, 0, 0x0#32, 0x0#32, 0x0#32, 0x0#32, 0x0#32, .none⟩,
  ⟨0x40060118, 8, 64, 1, 4, 1, 4, 0x0#32, 0, 0x0#32, 0x700#32, 0x0#32, 0x0#32, 0x0#32, .none⟩,
  ⟨0x4006011C, 8, 64, 1, 4, 1, 4, 0x0#32, 0, 0x0#32, 0x0#32, 0x0#32, 0x0#32, 0x0#32, .none⟩,
  ⟨0x40060120, 8, 64, 8, 4, 1, 4, 0x0#32, 0, 0xFFFFFFFF#32, 0x0#32, 0x0#32, 0x0#32, 0x0#32, .none⟩]

def rowsPNL : List RegRow := [
  ⟨0x40070000, 1, 4, 1, 4, 1, 4, 0x0#32, 0, 0x1#32, 0x0#32, 0x0#32, 0x0#32, 0x0#32, .none⟩,
  ⟨0x40070004, 1, 4, 1, 4, 1, 4, 0x0#32, 0, 0x0#32, 0xFF#32, 0x0#32, 0x0#32, 0x0#32, .none⟩,
  ⟨0x40070008, 1, 4, 1, 4, 1, 4, 0x100#32, 0, 0xFFFFF#32, 0x0#32, 0x0#32, 0x0#32, 0xFFFFF#32, .group 4⟩,
  ⟨0x4007000C, 1, 4, 1, 4, 1, 4, 0x0#32, 0, 0x3F#32, 0x0#32, 0x0#32, 0x0#32, 0x3F#32, .group 4⟩,
  ⟨0x40070010, 1, 4, 1, 4, 1, 4, 0x2801#32, 0, 0xFFFFFFFF#32, 0x0#32, 0x0#32, 0x0#32, 0xFFFFFFFF#32, .group 4⟩,
  ⟨0x40070014, 1, 4, 1, 4, 1, 4, 0x9#32, 0, 0xFFFFFF#32, 0x0#32, 0x0#32, 0x0#32, 0xFFFFFF#32, .group 4⟩,
  ⟨0x40070018, 2, 4, 1, 4, 1, 4, 0x0#32, 0, 0xFFFFFFFF#32, 0x0#32, 0x0#32, 0x0#32, 0x0#32, .none⟩,
  ⟨0x40070020, 1, 4, 1, 4, 1, 4, 0x0#32, 0, 0x0#32, 0x0#32, 0x0#32, 0x0#32, 0x0#32, .none⟩,
  ⟨0x40070024, 1, 4, 1, 4, 1, 4, 0x0#32, 0, 0x1#32, 0x0#32, 0x0#32, 0x0#32, 0x0#32, .none⟩,
  ⟨0x40070028, 1, 4, 1, 4, 1, 4, 0x0#32, 0, 0x0#32, 0x0#32, 0x0#32, 0x0#32, 0x0#32, .none⟩,
  ⟨0x4007002C, 1, 4, 1, 4, 1, 4, 0x0#32, 0, 0xFFFFFFFF#32, 0x0#32, 0x0#32, 0x0#32, 0x0#32, .none⟩,
  ⟨0x40070030, 1, 4, 1, 4, 1, 4, 0x0#32, 0, 0xFFFF#32, 0x0#32, 0x0#32, 0x0#32, 0x0#32, .none⟩,
  ⟨0x40070034, 1, 4, 1, 4, 1, 4, 0x0#32, 0, 0x0#32, 0x0#32, 0x0#32, 0x0#32, 0x0#32, .none⟩,
  ⟨0x40070038, 1, 4, 1, 4, 1, 4, 0x0#32, 0, 0x1F#32, 0x0#32, 0x0#32, 0x0#32, 0x1F#32, .struct⟩,
  ⟨0x40070080, 16, 4, 1, 4, 1, 4, 0x4#32, 0, 0xFF#32, 0x0#32, 0x0#32, 0x0#32, 0x0#32, .none⟩,
  ⟨0x400700C0, 16, 4, 1, 4, 1, 4, 0x0#32, 0, 0x0#32, 0x0#32, 0x0#32, 0xFFFFFFFF#32, 0x0#32, .none⟩,
  ⟨0x40070100, 4, 32, 1, 4, 1, 4, 0x5F02#32, 0, 0x3FFFFFFF#32, 0x0#32, 0x0#32, 0x0#32, 0x3FFFFFFF#32, .struct⟩,
  ⟨0x40070104, 4, 32, 1, 4, 1, 4, 0x301#32, 0, 0x1F1F1F1F#32, 0x0#32, 0x0#32, 0x0#32, 0x1F1F1F1F#32, .struct⟩,
  ⟨0x40070108, 4, 32, 1, 4, 1, 4, 0x0#32, 0, 0x1F1F1F1F#32, 0x0#32, 0x0#32, 0x0#32, 0x1F1F1F1F#32, .struct⟩,
  ⟨0x4007010C, 4, 32, 1, 4, 1, 4, 0x0#32, 0, 0xFFFF#32, 0x0#32, 0x0#32, 0x0#32, 0xFFFF#32, .struct⟩,
  ⟨0x40070110, 4, 32, 1, 4, 1, 4, 0x9#32, 0, 0xFF#32, 0x0#32, 0x0#32, 0x0#32, 0xFF#32, .struct⟩,
  ⟨0x40070200, 4, 4, 1, 4, 1, 4, 0x0#32, 0, 0x3FFFFF#32, 0x0#32, 0x0#32, 0x0#32, 0x3FFFFF#32, .struct⟩,
  ⟨0x40070400, 16, 128, 1, 4, 1, 4, 0x0#32, 0, 0x1377#32, 0x0#32, 0x0#32, 0x0#32, 0x1377#32, .struct⟩,
  ⟨0x40070440, 16, 128, 1, 4, 1, 4, 0x0#32, 0, 0x377#32, 0x0#32, 0x0#32, 0x0#32, 0x377#32, .struct⟩,
  ⟨0x40070404, 32, 64, 1, 4, 1, 4, 0x0#32, 0, 0xFFF0FFF#32, 0x0#32, 0x0#32, 0x0#32, 0xFFF0FFF#32, .struct⟩,
  ⟨0x40070408, 32, 64, 1, 4, 1, 4, 0x0#32, 0, 0x0#32, 0x0#32, 0x0#32, 0x0#32, 0x0#32, .none⟩,
  ⟨0x40070420, 32, 64, 8, 4, 1, 4, 0x0#32, 0, 0xFFF0FFF#32, 0x0#32, 0x0#32, 0x0#32, 0xFFF0FFF#32, .struct⟩]

def rowsSIG : List RegRow := [
  ⟨0x40080000, 1, 4, 1, 4, 1, 4, 0x0#32, 0, 0x3#32, 0x0#32, 0x0#32, 0x0#32, 0x0#32, .none⟩,
  ⟨0x40080004, 1, 4, 1, 4, 1, 4, 0x0#32, 0, 0x0#32, 0x1F#32, 0x0#32, 0x0#32, 0x0#32, .none⟩,
  ⟨0x40080008, 1, 4, 1, 4, 1, 4, 0x0#32, 0, 0x0#32, 0xFFFF#32, 0x0#32, 0x0#32, 0x0#32, .none⟩,
  ⟨0x4008000C, 1, 4, 1, 4, 1, 4, 0x0#32, 0, 0x0#32, 0x0#32, 0xFFFF#32, 0x0#32, 0x0#32, .none⟩,
  ⟨0x40080010, 1, 4, 1, 4, 1, 4, 0x0#32, 0, 0xFFFFFFFF#32, 0x0#32, 0x0#32, 0x0#32, 0xFFFFFFFF#32, .struct⟩,
  ⟨0x40080100, 16, 64, 1, 4, 1, 4, 0x0#32, 0, 0x7FFF#32, 0x0#32, 0x0#32, 0x0#32, 0x7FFF#32, .group 5⟩,
  ⟨0x40080104, 16, 64, 1, 4, 1, 4, 0x0#32, 0, 0xFFF0FFF#32, 0x0#32, 0x0#32, 0x0#32, 0xFFF0FFF#32, .group 5⟩,
  ⟨0x40080108, 16, 64, 1, 4, 1, 4, 0x0#32, 0, 0xFFF0FFF#32, 0x0#32, 0x0#32, 0x0#32, 0xFFF0FFF#32, .group 5⟩,
  ⟨0x4008010C, 16, 64, 1, 4, 1, 4, 0x0#32, 0, 0xFFFFFFFF#32, 0x0#32, 0x0#32, 0x0#32, 0xFFFFFFFF#32, .group 5⟩,
  ⟨0x40080110, 16, 64, 1, 4, 1, 4, 0x0#32, 0, 0xFFFFFFFF#32, 0x0#32, 0x0#32, 0x0#32, 0xFFFFFFFF#32, .struct⟩,
  ⟨0x40080114, 16, 64, 1, 4, 1, 4, 0x0#32, 0, 0x7FFFFF#32, 0x0#32, 0x0#32, 0x0#32, 0x7FFFFF#32, .struct⟩,
  ⟨0x40080118, 16, 64, 1, 4, 1, 4, 0x0#32, 0, 0xFFFFFFFF#32, 0x0#32, 0x0#32, 0x0#32, 0xFFFFFFFF#32, .struct⟩,
  ⟨0x4008011C, 16, 64, 1, 4, 1, 4, 0x0#32, 0, 0x0#32, 0x0#32, 0x0#32, 0x0#32, 0x0#32, .none⟩,
  ⟨0x40080120, 16, 64, 1, 4, 1, 4, 0x0#32, 0, 0x0#32, 0x0#32, 0x0#32, 0x0#32, 0x0#32, .none⟩,
  ⟨0x40080124, 16, 64, 1, 4, 1, 4, 0x0#32, 0, 0x0#32, 0x0#32, 0x0#32, 0x0#32, 0x0#32, .none⟩,
  ⟨0x40080128, 16, 64, 1, 4, 1, 4, 0x0#32, 0, 0x0#32, 0x0#32, 0x0#32, 0xFFFFFFFF#32, 0x0#32, .none⟩]

def rowsSND : List RegRow := [
  ⟨0x40090000, 1, 4, 1, 4, 1, 4, 0x0#32, 0, 0x1#32, 0x0#32, 0x0#32, 0x0#32, 0x0#32, .none⟩,
  ⟨0x40090004, 1, 4, 1, 4, 1, 4, 0x0#32, 0, 0x3#32, 0x0#32, 0x0#32, 0x0#32, 0x3#32, .struct⟩,
  ⟨0x40090008, 1, 4, 1, 4, 1, 4, 0x13#32, 0, 0x3F#32, 0x0#32, 0x0#32, 0x0#32, 0x0#32, .none⟩,
  ⟨0x4009000C, 1, 4, 1, 4, 1, 4, 0x0#32, 0, 0x0#32, 0x1FF#32, 0x0#32, 0x0#32, 0x0#32, .none⟩,
  ⟨0x40090010, 2, 4, 1, 4, 1, 4, 0x0#32, 0, 0x0#32, 0x0#32, 0x0#32, 0x0#32, 0x0#32, .none⟩,
  ⟨0x40090018, 2, 4, 1, 4, 1, 4, 0x0#32, 0, 0x0#32, 0x0#32, 0x0#32, 0x0#32, 0x0#32, .none⟩,
  ⟨0x40090020, 2, 4, 1, 4, 1, 4, 0x0#32, 0, 0x0#32, 0x0#32, 0x0#32, 0x0#32, 0x0#32, .none⟩,
  ⟨0x40090028, 2, 4, 1, 4, 1, 4, 0x0#32, 0, 0x0#32, 0xFFFFFFFF#32, 0x0#32, 0x0#32, 0x0#32, .none⟩,
  ⟨0x40090030, 1, 4, 1, 4, 1, 4, 0x0#32, 0, 0x0#32, 0x0#32, 0x0#32, 0x0#32, 0x0#32, .none⟩,
  ⟨0x40090034, 1, 4, 1, 4, 1, 4, 0x0#32, 0, 0x0#32, 0x0#32, 0x0#32, 0x0#32, 0x0#32, .none⟩,
  ⟨0x40090038, 1, 4, 1, 4, 1, 4, 0x0#32, 0, 0x0#32, 0x0#32, 0x0#32, 0x0#32, 0x0#32, .none⟩,
  ⟨0x40090040, 1, 4, 1, 4, 1, 4, 0x0#32, 0, 0xFFFFFFFF#32, 0x0#32, 0x0#32, 0x0#32, 0xFFFFFFFF#32, .struct⟩,
  ⟨0x40090044, 1, 4, 1, 4, 1, 4, 0x0#32, 0, 0x3#32, 0x0#32, 0x0#32, 0x0#32, 0x0#32, .none⟩,
  ⟨0x40090048, 1, 4, 1, 4, 1, 4, 0x0#32, 0, 0x0#32, 0x0#32, 0x0#32, 0xFFFFFFFF#32, 0x0#32, .none⟩,
  ⟨0x4009004C, 1, 4, 1, 4, 1, 4, 0x0#32, 0, 0x0#32, 0x0#32, 0x0#32, 0x0#32, 0x0#32, .none⟩,
  ⟨0x40090050, 1, 4, 1, 4, 1, 4, 0x0#32, 0, 0x0#32, 0x0#32, 0x0#32, 0xFFFFFFFF#32, 0x0#32, .none⟩,
  ⟨0x40090054, 1, 4, 1, 4, 1, 4, 0x2#32, 0, 0x7#32, 0x0#32, 0x0#32, 0x0#32, 0x0#32, .none⟩,
  ⟨0x40091000, 64, 64, 1, 4, 1, 4, 0x0#32, 0, 0x1F#32, 0x0#32, 0x0#32, 0x0#32, 0x0#32, .none⟩,
  ⟨0x40091004, 64, 64, 1, 4, 1, 4, 0x0#32, 0, 0xFFFFFFFF#32, 0x0#32, 0x0#32, 0x0#32, 0x0#32, .none⟩,
  ⟨0x40091008, 64, 64, 1, 4, 1, 4, 0x0#32, 0, 0xFFFFFF#32, 0x0#32, 0x0#32, 0x0#32, 0x0#32, .none⟩,
  ⟨0x4009100C, 64, 64, 1, 4, 1, 4, 0x0#32, 0, 0xFFFFFF#32, 0x0#32, 0x0#32, 0x0#32, 0x0#32, .none⟩,
  ⟨0x40091010, 64, 64, 1, 4, 1, 4, 0x0#32, 0, 0xFFFFFF#32, 0x0#32, 0x0#32, 0x0#32, 0x0#32, .none⟩,
  ⟨0x40091014, 64, 64, 1, 4, 1, 4, 0x10000#32, 0, 0x1FFFFF#32, 0x0#32, 0x0#32, 0x0#32, 0x0#32, .none⟩,
  ⟨0x40091018, 64, 64, 1, 4, 1, 4, 0x0#32, 0, 0xFFFFFFFF#32, 0x0#32, 0x0#32, 0x0#32, 0x0#32, .none⟩,
  ⟨0x4009101C, 64, 64, 1, 4, 1, 4, 0xFFFF#32, 0, 0xFFFFFFFF#32, 0x0#32, 0x0#32, 0x0#32, 0x0#32, .none⟩,
  ⟨0x40091020, 64, 64, 1, 4, 1, 4, 0x0#32, 0, 0x0#32, 0x0#32, 0x0#32, 0x0#32, 0x0#32, .none⟩,
  ⟨0x40091024, 64, 64, 1, 4, 1, 4, 0x0#32, 0, 0x0#32, 0x0#32, 0x0#32, 0x0#32, 0x0#32, .none⟩,
  ⟨0x40092000, 32, 256, 1, 4, 1, 4, 0x5#32, 0, 0x3F#32, 0x0#32, 0x0#32, 0x0#32, 0x3F#32, .struct⟩,
  ⟨0x40092004, 32, 256, 1, 4, 1, 4, 0x0#32, 0, 0x7FF#32, 0x0#32, 0x0#32, 0x0#32, 0x0#32, .none⟩,
  ⟨0x40092008, 32, 256, 1, 4, 1, 4, 0x7FFFFF#32, 0, 0xFFFFFF#32, 0x0#32, 0x0#32, 0x0#32, 0x0#32, .none⟩,
  ⟨0x4009200C, 32, 256, 1, 4, 1, 4, 0x40#32, 0, 0xFFFF#32, 0x0#32, 0x0#32, 0x0#32, 0x0#32, .none⟩,
  ⟨0x40092010, 32, 256, 1, 4, 1, 4, 0x0#32, 0, 0x3FF#32, 0x0#32, 0x0#32, 0x0#32, 0x0#32, .none⟩,
  ⟨0x40092020, 32, 256, 10, 20, 5, 4, 0x0#32, 0, 0xFFFFFFFF#32, 0x0#32, 0x0#32, 0x0#32, 0x0#32, .none⟩,
  ⟨0x40094000, 48, 512, 128, 4, 1, 4, 0x0#32, 0, 0x1FFFF#32, 0x0#32, 0x0#32, 0x0#32, 0x1FFFF#32, .group 6⟩,
  ⟨0x4009A000, 4, 64, 1, 4, 1, 4, 0x110#32, 0, 0x7FFF#32, 0x0#32, 0x0#32, 0x0#32, 0x7FFF#32, .struct⟩,
  ⟨0x4009A004, 4, 64, 4, 4, 1, 4, 0x0#32, 0, 0x9F9F9F9F#32, 0x0#32, 0x0#32, 0x0#32, 0x9F9F9F9F#32, .struct⟩,
  ⟨0x4009A014, 4, 64, 1, 4, 1, 4, 0x0#32, 0, 0x0#32, 0x0#32, 0x0#32, 0x0#32, 0x0#32, .none⟩,
  ⟨0x4009A018, 4, 64, 1, 4, 1, 4, 0x0#32, 0, 0x0#32, 0x0#32, 0x0#32, 0xFFFF#32, 0x0#32, .none⟩,
  ⟨0x4009A400, 16, 4, 1, 4, 1, 4, 0x0#32, 0, 0x1F3#32, 0x0#32, 0x0#32, 0x0#32, 0x1F3#32, .struct⟩]

def rowsOBJ : List RegRow := [
  ⟨0x400A0000, 1, 4, 1, 4, 1, 4, 0x0#32, 0, 0x1#32, 0x0#32, 0x0#32, 0x0#32, 0x0#32, .none⟩,
  ⟨0x400A0004, 1, 4, 1, 4, 1, 4, 0x0#32, 0, 0x0#32, 0xF#32, 0x0#32, 0x0#32, 0x0#32, .none⟩,
  ⟨0x400A0008, 1, 4, 1, 4, 1, 4, 0x53BD8#32, 0, 0xFFFFF#32, 0x0#32, 0x0#32, 0x0#32, 0xFFFFF#32, .group 7⟩,
  ⟨0x400A000C, 1, 4, 1, 4, 1, 4, 0x0#32, 0, 0x1FFF3FFF#32, 0x0#32, 0x0#32, 0x0#32, 0x1FFF3FFF#32, .struct⟩,
  ⟨0x400A0010, 1, 4, 1, 4, 1, 4, 0x0#32, 0, 0xFFFFFFFF#32, 0x0#32, 0x0#32, 0x0#32, 0x0#32, .none⟩,
  ⟨0x400A0100, 32, 64, 1, 4, 1, 4, 0x0#32, 0, 0x7F03#32, 0x0#32, 0x0#32, 0x0#32, 0x7F03#32, .group 7⟩,
  ⟨0x400A0104, 32, 64, 1, 4, 1, 4, 0x0#32, 0, 0xFFF000F#32, 0x0#32, 0x0#32, 0x0#32, 0xFFF000F#32, .group 7⟩,
  ⟨0x400A0108, 32, 64, 1, 4, 1, 4, 0x0#32, 0, 0xFFFFFFFF#32, 0x0#32, 0x0#32, 0x0#32, 0xFFFFFFFF#32, .group 7⟩,
  ⟨0x400A010C, 32, 64, 1, 4, 1, 4, 0x0#32, 0, 0xFFFFFFFF#32, 0x0#32, 0x0#32, 0x0#32, 0xFFFFFFFF#32, .group 7⟩,
  ⟨0x400A0110, 32, 64, 1, 4, 1, 4, 0x0#32, 0, 0xFFFFFFFF#32, 0x0#32, 0x0#32, 0x0#32, 0xFFFFFFFF#32, .group 7⟩,
  ⟨0x400A0114, 32, 64, 1, 4, 1, 4, 0x4000#32, 0, 0xFFFF#32, 0x0#32, 0x0#32, 0x0#32, 0xFFFF#32, .group 7⟩,
  ⟨0x400A0118, 32, 64, 1, 4, 1, 4, 0x3E80#32, 0, 0xFFFFFFF#32, 0x0#32, 0x0#32, 0x0#32, 0xFFFFFFF#32, .group 7⟩,
  ⟨0x400A011C, 32, 64, 1, 4, 1, 4, 0x0#32, 0, 0xFFFFFFF#32, 0x0#32, 0x0#32, 0x0#32, 0xFFFFFFF#32, .group 7⟩,
  ⟨0x400A0120, 32, 64, 1, 4, 1, 4, 0x0#32, 0, 0xFFFFFFF#32, 0x0#32, 0x0#32, 0x0#32, 0xFFFFFFF#32, .group 7⟩,
  ⟨0x400A0124, 32, 64, 1, 4, 1, 4, 0x0#32, 0, 0xFFFFFFFF#32, 0x0#32, 0x0#32, 0x0#32, 0xFFFFFFFF#32, .group 7⟩,
  ⟨0x400A0128, 32, 64, 1, 4, 1, 4, 0x0#32, 0, 0xFFFF#32, 0x0#32, 0x0#32, 0x0#32, 0xFFFF#32, .group 7⟩,
  ⟨0x400A012C, 32, 64, 1, 4, 1, 4, 0x0#32, 0, 0x0#32, 0x0#32, 0x0#32, 0x0#32, 0x0#32, .none⟩,
  ⟨0x400A1000, 48, 16, 1, 4, 1, 4, 0x0#32, 0, 0xFFFFFFFF#32, 0x0#32, 0x0#32, 0x0#32, 0xFFFFFFFF#32, .group 7⟩,
  ⟨0x400A1004, 48, 16, 1, 4, 1, 4, 0x0#32, 0, 0xFFFFFFFF#32, 0x0#32, 0x0#32, 0x0#32, 0xFFFFFFFF#32, .group 7⟩,
  ⟨0x400A1008, 48, 16, 1, 4, 1, 4, 0x0#32, 0, 0xFFFFFFFF#32, 0x0#32, 0x0#32, 0x0#32, 0xFFFFFFFF#32, .group 7⟩,
  ⟨0x400A100C, 48, 16, 1, 4, 1, 4, 0x0#32, 0, 0x1#32, 0x0#32, 0x0#32, 0x0#32, 0x1#32, .group 7⟩]

def rowsAKA : List RegRow := [
  ⟨0x400B0000, 1, 4, 1, 4, 1, 4, 0x0#32, 0, 0x1#32, 0x0#32, 0x0#32, 0x0#32, 0x0#32, .none⟩,
  ⟨0x400B0004, 1, 4, 1, 4, 1, 4, 0x0#32, 0, 0xF#32, 0x0#32, 0x0#32, 0x0#32, 0xF#32, .struct⟩,
  ⟨0x400B0008, 1, 4, 1, 4, 1, 4, 0x0#32, 0, 0x0#32, 0x3FF#32, 0x0#32, 0x0#32, 0x0#32, .none⟩,
  ⟨0x400B000C, 1, 4, 1, 4, 1, 4, 0x0#32, 0, 0x0#32, 0x0#32, 0x0#32, 0x0#32, 0x0#32, .none⟩,
  ⟨0x400B0010, 1, 4, 1, 4, 1, 4, 0x0#32, 0, 0x0#32, 0x0#32, 0x0#32, 0x0#32, 0x0#32, .none⟩,
  ⟨0x400B0014, 1, 4, 1, 4, 1, 4, 0x0#32, 0, 0x0#32, 0x0#32, 0x0#32, 0x0#32, 0x0#32, .none⟩,
  ⟨0x400B0018, 1, 4, 1, 4, 1, 4, 0x640040#32, 0, 0xFFFF00FF#32, 0x0#32, 0x0#32, 0x0#32, 0x0#32, .none⟩,
  ⟨0x400B001C, 1, 4, 1, 4, 1, 4, 0x1388#32, 0, 0xFFFF#32, 0x0#32, 0x0#32, 0x0#32, 0x0#32, .none⟩,
  ⟨0x400B0020, 1, 4, 1, 4, 1, 4, 0x1020408#32, 0, 0xFFFFFFFF#32, 0x0#32, 0x0#32, 0x0#32, 0x0#32, .none⟩,
  ⟨0x400B0024, 1, 4, 1, 4, 1, 4, 0x400#32, 0, 0xFFF#32, 0x0#32, 0x0#32, 0x0#32, 0x0#32, .none⟩,
  ⟨0x400B0028, 1, 4, 1, 4, 1, 4, 0x0#32, 0, 0x3FFF#32, 0x0#32, 0x0#32, 0x0#32, 0x0#32, .none⟩,
  ⟨0x400B002C, 1, 4, 1, 4, 1, 4, 0x0#32, 0, 0x0#32, 0x0#32, 0x0#32, 0x0#32, 0x0#32, .none⟩,
  ⟨0x400B0030, 1, 4, 1, 4, 1, 4, 0x0#32, 0, 0xFFFF#32, 0x0#32, 0x0#32, 0x0#32, 0xFFFF#32, .struct⟩,
  ⟨0x400B0034, 1, 4, 1, 4, 1, 4, 0x0#32, 0, 0xFF#32, 0x0#32, 0x0#32, 0x0#32, 0xFF#32, .struct⟩,
  ⟨0x400B0040, 4, 4, 1, 4, 1, 4, 0x0#32, 0, 0x0#32, 0x0#32, 0x0#32, 0xFFFF#32, 0x0#32, .none⟩,
  ⟨0x400B0050, 1, 4, 1, 4, 1, 4, 0x0#32, 0, 0x0#32, 0x0#32, 0x0#32, 0xFFFFFFFF#32, 0x0#32, .none⟩,
  ⟨0x400B0054, 1, 4, 1, 4, 1, 4, 0x0#32, 0, 0x0#32, 0x0#32, 0x0#32, 0xFFFFFFFF#32, 0x0#32, .none⟩,
  ⟨0x400B0058, 1, 4, 1, 4, 1, 4, 0x0#32, 0, 0x0#32, 0x0#32, 0x0#32, 0x0#32, 0x0#32, .none⟩,
  ⟨0x400B0080, 1, 4, 1, 4, 1, 4, 0x0#32, 0, 0xFFFFFFFF#32, 0x0#32, 0x0#32, 0x0#32, 0xFFFFFFFF#32, .struct⟩,
  ⟨0x400B0084, 1, 4, 1, 4, 1, 4, 0x0#32, 0, 0xFFFF#32, 0x0#32, 0x0#32, 0x0#32, 0xFFFF#32, .struct⟩,
  ⟨0x400B0088, 1, 4, 1, 4, 1, 4, 0x0#32, 0, 0xFFFFFFFF#32, 0x0#32, 0x0#32, 0x0#32, 0xFFFFFFFF#32, .struct⟩,
  ⟨0x400B008C, 1, 4, 1, 4, 1, 4, 0x0#32, 0, 0xFFFF#32, 0x0#32, 0x0#32, 0x0#32, 0xFFFF#32, .struct⟩,
  ⟨0x400B0090, 1, 4, 1, 4, 1, 4, 0x0#32, 0, 0xFFFFFFFF#32, 0x0#32, 0x0#32, 0x0#32, 0xFFFFFFFF#32, .struct⟩,
  ⟨0x400B0094, 1, 4, 1, 4, 1, 4, 0x5B0#32, 0, 0x3FFF0FFF#32, 0x0#32, 0x0#32, 0x0#32, 0x3FFF0FFF#32, .struct⟩,
  ⟨0x400B0098, 1, 4, 1, 4, 1, 4, 0x0#32, 0, 0xFFFFFFFF#32, 0x0#32, 0x0#32, 0x0#32, 0xFFFFFFFF#32, .struct⟩,
  ⟨0x400B009C, 1, 4, 1, 4, 1, 4, 0x0#32, 0, 0x0#32, 0x0#32, 0x0#32, 0xFFFFFFFF#32, 0x0#32, .none⟩]

def rowsAKB : List RegRow := [
  ⟨0x400C0000, 1, 4, 1, 4, 1, 4, 0x0#32, 0, 0x1#32, 0x0#32, 0x0#32, 0x0#32, 0x0#32, .none⟩,
  ⟨0x400C0004, 1, 4, 1, 4, 1, 4, 0x0#32, 0, 0xF#32, 0x0#32, 0x0#32, 0x0#32, 0xF#32, .struct⟩,
  ⟨0x400C0008, 1, 4, 1, 4, 1, 4, 0x0#32, 0, 0x0#32, 0x3FF#32, 0x0#32, 0x0#32, 0x0#32, .none⟩,
  ⟨0x400C000C, 1, 4, 1, 4, 1, 4, 0x0#32, 0, 0x0#32, 0x0#32, 0x0#32, 0x0#32, 0x0#32, .none⟩,
  ⟨0x400C0010, 1, 4, 1, 4, 1, 4, 0x0#32, 0, 0x0#32, 0x0#32, 0x0#32, 0x0#32, 0x0#32, .none⟩,
  ⟨0x400C0014, 1, 4, 1, 4, 1, 4, 0x0#32, 0, 0x0#32, 0x0#32, 0x0#32, 0x0#32, 0x0#32, .none⟩,
  ⟨0x400C0018, 1, 4, 1, 4, 1, 4, 0x640040#32, 0, 0xFFFF00FF#32, 0x0#32, 0x0#32, 0x0#32, 0x0#32, .none⟩,
  ⟨0x400C001C, 1, 4, 1, 4, 1, 4, 0x1388#32, 0, 0xFFFF#32, 0x0#32, 0x0#32, 0x0#32, 0x0#32, .none⟩,
  ⟨0x400C0020, 1, 4, 1, 4, 1, 4, 0x1020408#32, 0, 0xFFFFFFFF#32, 0x0#32, 0x0#32, 0x0#32, 0x0#32, .none⟩,
  ⟨0x400C0024, 1, 4, 1, 4, 1, 4, 0x400#32, 0, 0xFFF#32, 0x0#32, 0x0#32, 0x0#32, 0x0#32, .none⟩,
  ⟨0x400C0028, 1, 4, 1, 4, 1, 4, 0x0#32, 0, 0x3FFF#32, 0x0#32, 0x0#32, 0x0#32, 0x0#32, .none⟩,
  ⟨0x400C002C, 1, 4, 1, 4, 1, 4, 0x0#32, 0, 0x0#32, 0x0#32, 0x0#32, 0x0#32, 0x0#32, .none⟩,
  ⟨0x400C0030, 1, 4, 1, 4, 1, 4, 0x0#32, 0, 0xFFFF#32, 0x0#32, 0x0#32, 0x0#32, 0xFFFF#32, .struct⟩,
  ⟨0x400C0034, 1, 4, 1, 4, 1, 4, 0x0#32, 0, 0xFF#32, 0x0#32, 0x0#32, 0x0#32, 0xFF#32, .struct⟩,
  ⟨0x400C0040, 4, 4, 1, 4, 1, 4, 0x0#32, 0, 0x0#32, 0x0#32, 0x0#32, 0xFFFF#32, 0x0#32, .none⟩,
  ⟨0x400C0050, 1, 4, 1, 4, 1, 4, 0x0#32, 0, 0x0#32, 0x0#32, 0x0#32, 0xFFFFFFFF#32, 0x0#32, .none⟩,
  ⟨0x400C0054, 1, 4, 1, 4, 1, 4, 0x0#32, 0, 0x0#32, 0x0#32, 0x0#32, 0xFFFFFFFF#32, 0x0#32, .none⟩,
  ⟨0x400C0058, 1, 4, 1, 4, 1, 4, 0x0#32, 0, 0x0#32, 0x0#32, 0x0#32, 0x0#32, 0x0#32, .none⟩,
  ⟨0x400C0080, 1, 4, 1, 4, 1, 4, 0x0#32, 0, 0xFFFFFFFF#32, 0x0#32, 0x0#32, 0x0#32, 0xFFFFFFFF#32, .struct⟩,
  ⟨0x400C0084, 1, 4, 1, 4, 1, 4, 0x0#32, 0, 0xFFFF#32, 0x0#32, 0x0#32, 0x0#32, 0xFFFF#32, .struct⟩,
  ⟨0x400C0088, 1, 4, 1, 4, 1, 4, 0x0#32, 0, 0xFFFFFFFF#32, 0x0#32, 0x0#32, 0x0#32, 0xFFFFFFFF#32, .struct⟩,
  ⟨0x400C008C, 1, 4, 1, 4, 1, 4, 0x0#32, 0, 0xFFFF#32, 0x0#32, 0x0#32, 0x0#32, 0xFFFF#32, .struct⟩,
  ⟨0x400C0090, 1, 4, 1, 4, 1, 4, 0x0#32, 0, 0xFFFFFFFF#32, 0x0#32, 0x0#32, 0x0#32, 0xFFFFFFFF#32, .struct⟩,
  ⟨0x400C0094, 1, 4, 1, 4, 1, 4, 0x5B0#32, 0, 0x3FFF0FFF#32, 0x0#32, 0x0#32, 0x0#32, 0x3FFF0FFF#32, .struct⟩,
  ⟨0x400C0098, 1, 4, 1, 4, 1, 4, 0x0#32, 0, 0xFFFFFFFF#32, 0x0#32, 0x0#32, 0x0#32, 0xFFFFFFFF#32, .struct⟩,
  ⟨0x400C009C, 1, 4, 1, 4, 1, 4, 0x0#32, 0, 0x0#32, 0x0#32, 0x0#32, 0xFFFFFFFF#32, 0x0#32, .none⟩]

def rowsREEL : List RegRow := [
  ⟨0x400D0000, 1, 4, 1, 4, 1, 4, 0x0#32, 0, 0x1#32, 0x0#32, 0x0#32, 0x0#32, 0x0#32, .none⟩,
  ⟨0x400D0004, 1, 4, 1, 4, 1, 4, 0x0#32, 0, 0x0#32, 0xF#32, 0x0#32, 0x0#32, 0x0#32, .none⟩,
  ⟨0x400D0008, 1, 4, 1, 4, 1, 4, 0x0#32, 0, 0x0#32, 0x0#32, 0x0#32, 0x0#32, 0x0#32, .none⟩,
  ⟨0x400D000C, 1, 4, 1, 4, 1, 4, 0x0#32, 0, 0x0#32, 0x0#32, 0x0#32, 0x0#32, 0x0#32, .none⟩,
  ⟨0x400D0010, 1, 4, 1, 4, 1, 4, 0x0#32, 0, 0x0#32, 0x0#32, 0x0#32, 0x0#32, 0x0#32, .none⟩,
  ⟨0x400D0014, 1, 4, 1, 4, 1, 4, 0x0#32, 0, 0x0#32, 0xFFFFFFFF#32, 0x0#32, 0x0#32, 0x0#32, .none⟩,
  ⟨0x400D0018, 1, 4, 1, 4, 1, 4, 0x0#32, 0, 0x0#32, 0xFFFFFFFF#32, 0x0#32, 0x0#32, 0x0#32, .none⟩,
  ⟨0x400D0100, 32, 32, 1, 4, 1, 4, 0x0#32, 0, 0xF#32, 0x0#32, 0x0#32, 0x0#32, 0x1#32, .struct⟩,
  ⟨0x400D0104, 32, 32, 1, 4, 1, 4, 0x0#32, 0, 0xFFFFFFFF#32, 0x0#32, 0x0#32, 0x0#32, 0x0#32, .none⟩,
  ⟨0x400D0108, 32, 32, 1, 4, 1, 4, 0x100#32, 0, 0xFFFF#32, 0x0#32, 0x0#32, 0x0#32, 0xFFFF#32, .group 8⟩,
  ⟨0x400D010C, 32, 32, 1, 4, 1, 4, 0x0#32, 0, 0x1FFF3FFF#32, 0x0#32, 0x0#32, 0x0#32, 0x0#32, .none⟩,
  ⟨0x400D0110, 32, 32, 1, 4, 1, 4, 0x0#32, 0, 0x1FFF3FFF#32, 0x0#32, 0x0#32, 0x0#32, 0x0#32, .none⟩,
  ⟨0x400D0114, 32, 32, 1, 4, 1, 4, 0x0#32, 0, 0x0#32, 0x0#32, 0x0#32, 0x0#32, 0x0#32, .none⟩,
  ⟨0x400D0118, 32, 32, 1, 4, 1, 4, 0x0#32, 0, 0x0#32, 0x0#32, 0x0#32, 0xFF0000#32, 0x0#32, .none⟩,
  ⟨0x400D011C, 32, 32, 1, 4, 1, 4, 0x0#32, 0, 0x0#32, 0x0#32, 0x0#32, 0x0#32, 0x0#32, .none⟩]

def rowsBLK : List RegRow := [
  ⟨0x400E0000, 1, 4, 1, 4, 1, 4, 0x0#32, 0, 0x1#32, 0x0#32, 0x0#32, 0x0#32, 0x0#32, .none⟩,
  ⟨0x400E0004, 1, 4, 1, 4, 1, 4, 0x0#32, 0, 0x0#32, 0x7F#32, 0x0#32, 0x0#32, 0x0#32, .none⟩,
  ⟨0x400E0008, 1, 4, 1, 4, 1, 4, 0x0#32, 0, 0x0#32, 0x0#32, 0x0#32, 0x0#32, 0x0#32, .none⟩,
  ⟨0x400E000C, 1, 4, 1, 4, 1, 4, 0x0#32, 0, 0x0#32, 0x0#32, 0x0#32, 0x0#32, 0x0#32, .none⟩,
  ⟨0x400E0010, 1, 4, 1, 4, 1, 4, 0x0#32, 0, 0x0#32, 0x0#32, 0x0#32, 0x0#32, 0x0#32, .none⟩,
  ⟨0x400E0014, 1, 4, 1, 4, 1, 4, 0x0#32, 0, 0xFF#32, 0x0#32, 0x0#32, 0x0#32, 0x0#32, .none⟩,
  ⟨0x400E0018, 1, 4, 1, 4, 1, 4, 0x10000000#32, 0, 0xFFFFFFFF#32, 0x0#32, 0x0#32, 0x0#32, 0x0#32, .none⟩,
  ⟨0x400E001C, 1, 4, 1, 4, 1, 4, 0x13FFFFFF#32, 0, 0xFFFFFFFF#32, 0x0#32, 0x0#32, 0x0#32, 0x0#32, .none⟩,
  ⟨0x400E0020, 1, 4, 1, 4, 1, 4, 0x0#32, 0, 0x0#32, 0x0#32, 0x0#32, 0x0#32, 0x0#32, .none⟩,
  ⟨0x400E0024, 1, 4, 1, 4, 1, 4, 0x0#32, 0, 0x0#32, 0x0#32, 0x0#32, 0x0#32, 0x0#32, .none⟩,
  ⟨0x400E0028, 1, 4, 1, 4, 1, 4, 0x0#32, 0, 0x0#32, 0x0#32, 0x0#32, 0x0#32, 0x0#32, .none⟩,
  ⟨0x400E002C, 1, 4, 1, 4, 1, 4, 0x0#32, 0, 0x0#32, 0x0#32, 0x0#32, 0xFFFF#32, 0x0#32, .none⟩,
  ⟨0x400E0040, 1, 4, 1, 4, 1, 4, 0x0#32, 0, 0x1FFFFFF#32, 0x0#32, 0x0#32, 0x0#32, 0x0#32, .none⟩,
  ⟨0x400E0044, 1, 4, 1, 4, 1, 4, 0x0#32, 0, 0xFFFFFFFF#32, 0x0#32, 0x0#32, 0x0#32, 0x0#32, .none⟩,
  ⟨0x400E0048, 1, 4, 1, 4, 1, 4, 0x0#32, 0, 0xFFFFFFFF#32, 0x0#32, 0x0#32, 0x0#32, 0x0#32, .none⟩,
  ⟨0x400E004C, 1, 4, 1, 4, 1, 4, 0x0#32, 0, 0xFFFFF#32, 0x0#32, 0x0#32, 0x0#32, 0x0#32, .none⟩,
  ⟨0x400E0050, 1, 4, 1, 4, 1, 4, 0x0#32, 0, 0xFFFFF#32, 0x0#32, 0x0#32, 0x0#32, 0x0#32, .none⟩,
  ⟨0x400E0054, 1, 4, 1, 4, 1, 4, 0x0#32, 0, 0x1FFF1FFF#32, 0x0#32, 0x0#32, 0x0#32, 0x0#32, .none⟩,
  ⟨0x400E0058, 1, 4, 1, 4, 1, 4, 0x0#32, 0, 0xFFFFFFFF#32, 0x0#32, 0x0#32, 0x0#32, 0x0#32, .none⟩,
  ⟨0x400E005C, 1, 4, 1, 4, 1, 4, 0x0#32, 0, 0xFFFFFFFF#32, 0x0#32, 0x0#32, 0x0#32, 0x0#32, .none⟩,
  ⟨0x400E0060, 1, 4, 1, 4, 1, 4, 0x0#32, 0, 0xFFFFFFFF#32, 0x0#32, 0x0#32, 0x0#32, 0x0#32, .none⟩,
  ⟨0x400E0064, 1, 4, 1, 4, 1, 4, 0xFFFFFFFF#32, 0, 0xFFFFFFFF#32, 0x0#32, 0x0#32, 0x0#32, 0x0#32, .none⟩,
  ⟨0x400E0068, 1, 4, 1, 4, 1, 4, 0x0#32, 0, 0xFFFF#32, 0x0#32, 0x0#32, 0x0#32, 0x0#32, .none⟩]

def rowsIRQ : List RegRow := [
  ⟨0x400F0000, 1, 4, 1, 4, 1, 4, 0x0#32, 0, 0x1#32, 0x0#32, 0x0#32, 0x0#32, 0x0#32, .none⟩,
  ⟨0x400F0004, 1, 4, 1, 4, 1, 4, 0x0#32, 0, 0x0#32, 0x0#32, 0x0#32, 0x0#32, 0x0#32, .none⟩,
  ⟨0x400F0008, 1, 4, 1, 4, 1, 4, 0x0#32, 0, 0x0#32, 0x0#32, 0x0#32, 0x0#32, 0x0#32, .none⟩,
  ⟨0x400F0010, 3, 4, 1, 4, 1, 4, 0x0#32, 0, 0xFFFFF000#32, 0x0#32, 0x0#32, 0x0#32, 0x0#32, .none⟩,
  ⟨0x400F0020, 3, 4, 1, 4, 1, 4, 0x0#32, 0, 0x0#32, 0x0#32, 0x0#32, 0x0#32, 0x0#32, .none⟩,
  ⟨0x400F0030, 3, 4, 1, 4, 1, 4, 0x0#32, 0, 0x0#32, 0x0#32, 0x0#32, 0x0#32, 0x0#32, .none⟩,
  ⟨0x400F0040, 8, 4, 1, 4, 1, 4, 0x0#32, 0, 0x0#32, 0xFFFFFFFF#32, 0x0#32, 0x0#32, 0x0#32, .none⟩,
  ⟨0x400F0080, 1, 4, 1, 4, 1, 4, 0x0#32, 0, 0x0#32, 0xFFFFFFFF#32, 0x0#32, 0x0#32, 0x0#32, .none⟩,
  ⟨0x400F0100, 32, 4, 1, 4, 1, 4, 0x0#32, 0, 0x1FF#32, 0x0#32, 0x0#32, 0x0#32, 0x0#32, .none⟩,
  ⟨0x400F0200, 16, 16, 1, 4, 1, 4, 0x0#32, 0, 0x1FFFF#32, 0x0#32, 0x0#32, 0x0#32, 0x0#32, .none⟩,
  ⟨0x400F0204, 16, 16, 1, 4, 1, 4, 0x0#32, 0, 0xFFFF#32, 0x0#32, 0x0#32, 0x0#32, 0x0#32, .none⟩,
  ⟨0x400F0208, 16, 16, 1, 4, 1, 4, 0x0#32, 0, 0x0#32, 0x0#32, 0x0#32, 0x0#32, 0x0#32, .none⟩,
  ⟨0x400F0400, 32, 4, 1, 4, 1, 4, 0x0#32, 0, 0xCF#32, 0x0#32, 0x0#32, 0x0#32, 0x0#32, .none⟩,
  ⟨0x400F0480, 32, 4, 1, 4, 1, 4, 0x10#32, 0, 0xCF#32, 0x0#32, 0x0#32, 0x0#32, 0x0#32, .none⟩,
  ⟨0x400F0500, 32, 4, 1, 4, 1, 4, 0x20#32, 0, 0xCF#32, 0x0#32, 0x0#32, 0x0#32, 0x0#32, .none⟩,
  ⟨0x400F0580, 88, 4, 1, 4, 1, 4, 0x30#32, 0, 0xFF#32, 0x0#32, 0x0#32, 0x0#32, 0x0#32, .none⟩,
  ⟨0x400F06E0, 1, 4, 1, 4, 1, 4, 0x20#32, 0, 0xCF#32, 0x0#32, 0x0#32, 0x0#32, 0x0#32, .none⟩,
  ⟨0x400F06E4, 71, 4, 1, 4, 1, 4, 0x30#32, 0, 0xFF#32, 0x0#32, 0x0#32, 0x0#32, 0x0#32, .none⟩]

def rowsTMR : List RegRow := [
  ⟨0x40100100, 16, 32, 1, 4, 1, 4, 0x0#32, 0, 0xFFFFFF7#32, 0x0#32, 0x0#32, 0x0#32, 0x0#32, .none⟩,
  ⟨0x40100104, 16, 32, 1, 4, 1, 4, 0x0#32, 0, 0xFFFFFFFF#32, 0x0#32, 0x0#32, 0x0#32, 0x0#32, .none⟩,
  ⟨0x40100108, 16, 32, 1, 4, 1, 4, 0x0#32, 0, 0xFFFFFFFF#32, 0x0#32, 0x0#32, 0x0#32, 0x0#32, .none⟩,
  ⟨0x4010010C, 16, 32, 1, 4, 1, 4, 0x0#32, 0, 0xFFFFFFFF#32, 0x0#32, 0x0#32, 0x0#32, 0x0#32, .none⟩,
  ⟨0x40100110, 16, 32, 1, 4, 1, 4, 0x0#32, 0, 0x0#32, 0x0#32, 0x0#32, 0x0#32, 0x0#32, .none⟩,
  ⟨0x40100114, 16, 32, 1, 4, 1, 4, 0x0#32, 0, 0x0#32, 0x0#32, 0x0#32, 0x0#32, 0x0#32, .none⟩,
  ⟨0x40100118, 16, 32, 1, 4, 1, 4, 0x0#32, 0, 0x0#32, 0x1F#32, 0x0#32, 0x0#32, 0x0#32, .none⟩,
  ⟨0x4010011C, 16, 32, 1, 4, 1, 4, 0x0#32, 0, 0xFF07#32, 0x0#32, 0x0#32, 0x0#32, 0x0#32, .none⟩,
  ⟨0x40100400, 1, 4, 1, 4, 1, 4, 0x0#32, 0, 0x2#32, 0x0#32, 0x1#32, 0x0#32, 0x0#32, .none⟩,
  ⟨0x40100404, 1, 4, 1, 4, 1, 4, 0xF4240#32, 0, 0xFFFFFFFF#32, 0x0#32, 0x0#32, 0x0#32, 0x0#32, .none⟩,
  ⟨0x40100408, 1, 4, 1, 4, 1, 4, 0x0#32, 0, 0xFFFFFFFF#32, 0x0#32, 0x0#32, 0x0#32, 0x0#32, .none⟩,
  ⟨0x4010040C, 1, 4, 1, 4, 1, 4, 0x0#32, 0, 0x0#32, 0x0#32, 0x0#32, 0x0#32, 0x0#32, .none⟩,
  ⟨0x40100410, 1, 4, 1, 4, 1, 4, 0x0#32, 0, 0x0#32, 0x0#32, 0x0#32, 0x0#32, 0x0#32, .none⟩,
  ⟨0x40100414, 1, 4, 1, 4, 1, 4, 0x0#32, 0, 0x0#32, 0x7#32, 0x0#32, 0x0#32, 0x0#32, .none⟩,
  ⟨0x40100420, 1, 4, 1, 4, 1, 4, 0x0#32, 0, 0x2#32, 0x0#32, 0x1#32, 0x0#32, 0x0#32, .none⟩,
  ⟨0x40100424, 1, 4, 1, 4, 1, 4, 0xF4240#32, 0, 0xFFFFFFFF#32, 0x0#32, 0x0#32, 0x0#32, 0x0#32, .none⟩,
  ⟨0x40100428, 1, 4, 1, 4, 1, 4, 0x0#32, 0, 0xFFFFFFFF#32, 0x0#32, 0x0#32, 0x0#32, 0x0#32, .none⟩,
  ⟨0x4010042C, 1, 4, 1, 4, 1, 4, 0x0#32, 0, 0x0#32, 0x0#32, 0x0#32, 0x0#32, 0x0#32, .none⟩,
  ⟨0x40100430, 1, 4, 1, 4, 1, 4, 0x0#32, 0, 0x0#32, 0x0#32, 0x0#32, 0x0#32, 0x0#32, .none⟩,
  ⟨0x40100434, 1, 4, 1, 4, 1, 4, 0x0#32, 0, 0x0#32, 0x7#32, 0x0#32, 0x0#32, 0x0#32, .none⟩,
  ⟨0x40100440, 1, 4, 1, 4, 1, 4, 0x0#32, 0, 0x0#32, 0x0#32, 0x1#32, 0x0#32, 0x0#32, .none⟩,
  ⟨0x40100444, 1, 4, 1, 4, 1, 4, 0x8000#32, 0, 0xFFFFFFFF#32, 0x0#32, 0x0#32, 0x0#32, 0x0#32, .none⟩,
  ⟨0x40100448, 1, 4, 1, 4, 1, 4, 0x0#32, 0, 0xFFFFFFFF#32, 0x0#32, 0x0#32, 0x0#32, 0x0#32, .none⟩,
  ⟨0x4010044C, 1, 4, 1, 4, 1, 4, 0x0#32, 0, 0x0#32, 0x0#32, 0x0#32, 0x0#32, 0x0#32, .none⟩,
  ⟨0x40100450, 1, 4, 1, 4, 1, 4, 0x0#32, 0, 0x0#32, 0x0#32, 0x0#32, 0x0#32, 0x0#32, .none⟩,
  ⟨0x40100454, 1, 4, 1, 4, 1, 4, 0x0#32, 0, 0x0#32, 0x7#32, 0x0#32, 0x0#32, 0x0#32, .none⟩]

def rowsPIN : List RegRow := [
  ⟨0x40110000, 1, 4, 1, 4, 1, 4, 0x1#32, 0, 0x0#32, 0x0#32, 0x1#32, 0x0#32, 0x0#32, .none⟩,
  ⟨0x40110004, 1, 4, 1, 4, 1, 4, 0x0#32, 0, 0x0#32, 0x3#32, 0x0#32, 0x0#32, 0x0#32, .none⟩,
  ⟨0x40110008, 1, 4, 1, 4, 1, 4, 0x0#32, 0, 0x0#32, 0x0#32, 0x0#32, 0x0#32, 0x0#32, .none⟩,
  ⟨0x40110010, 1, 4, 1, 4, 1, 4, 0x0#32, 0, 0xFFFFFFFF#32, 0x0#32, 0x0#32, 0x0#32, 0x0#32, .none⟩,
  ⟨0x40110014, 1, 4, 1, 4, 1, 4, 0x0#32, 0, 0xFFFF#32, 0x0#32, 0x0#32, 0x0#32, 0x0#32, .none⟩,
  ⟨0x40110018, 1, 4, 1, 4, 1, 4, 0x0#32, 0, 0x0#32, 0x0#32, 0x0#32, 0x0#32, 0x0#32, .none⟩,
  ⟨0x4011001C, 1, 4, 1, 4, 1, 4, 0x0#32, 0, 0x0#32, 0x0#32, 0x0#32, 0x0#32, 0x0#32, .none⟩,
  ⟨0x40110020, 1, 4, 1, 4, 1, 4, 0x0#32, 0, 0x0#32, 0x0#32, 0x0#32, 0x0#32, 0x0#32, .none⟩,
  ⟨0x40110024, 1, 4, 1, 4, 1, 4, 0x0#32, 0, 0x0#32, 0x0#32, 0x0#32, 0x0#32, 0x0#32, .none⟩,
  ⟨0x40110028, 1, 4, 1, 4, 1, 4, 0x0#32, 0, 0xFFFFFFFF#32, 0x0#32, 0x0#32, 0x0#32, 0x0#32, .none⟩,
  ⟨0x4011002C, 1, 4, 1, 4, 1, 4, 0x0#32, 0, 0xFFFF#32, 0x0#32, 0x0#32, 0x0#32, 0x0#32, .none⟩,
  ⟨0x40110030, 1, 4, 1, 4, 1, 4, 0x0#32, 0, 0x0#32, 0x0#32, 0x0#32, 0x0#32, 0x0#32, .none⟩,
  ⟨0x40110034, 1, 4, 1, 4, 1, 4, 0x0#32, 0, 0x0#32, 0x0#32, 0x0#32, 0x0#32, 0x0#32, .none⟩,
  ⟨0x40110038, 1, 4, 1, 4, 1, 4, 0x0#32, 0, 0x0#32, 0x0#32, 0x0#32, 0x0#32, 0x0#32, .none⟩,
  ⟨0x4011003C, 1, 4, 1, 4, 1, 4, 0x0#32, 0, 0x0#32, 0x0#32, 0x0#32, 0x0#32, 0x0#32, .none⟩,
  ⟨0x40110040, 1, 4, 1, 4, 1, 4, 0x0#32, 0, 0xF01#32, 0x0#32, 0x0#32, 0x0#32, 0x0#32, .none⟩,
  ⟨0x40110044, 1, 4, 1, 4, 1, 4, 0x64#32, 0, 0xFFFF#32, 0x0#32, 0x0#32, 0x0#32, 0x0#32, .none⟩,
  ⟨0x40110048, 1, 4, 1, 4, 1, 4, 0x1#32, 0, 0x3#32, 0x0#32, 0x0#32, 0x0#32, 0x0#32, .none⟩,
  ⟨0x40110100, 48, 4, 1, 4, 1, 4, 0x100#32, 0, 0x3FFFF#32, 0x0#32, 0x0#32, 0x0#32, 0x3FFFF#32, .struct⟩]

def rowsHI3C : List RegRow := [
  ⟨0x40120000, 1, 4, 1, 4, 1, 4, 0x0#32, 0, 0x37F#32, 0x0#32, 0x0#32, 0x0#32, 0x37F#32, .struct⟩,
  ⟨0x40120004, 1, 4, 1, 4, 1, 4, 0x0#32, 0, 0x0#32, 0xF#32, 0x0#32, 0x0#32, 0x0#32, .none⟩,
  ⟨0x40120008, 1, 4, 1, 4, 1, 4, 0x0#32, 0, 0x0#32, 0x0#32, 0x0#32, 0x0#32, 0x0#32, .none⟩,
  ⟨0x4012000C, 1, 4, 1, 4, 1, 4, 0x0#32, 0, 0x7FFF#32, 0x0#32, 0x0#32, 0x0#32, 0x7FFF#32, .struct⟩,
  ⟨0x40120010, 1, 4, 1, 4, 1, 4, 0x0#32, 0, 0xFF#32, 0x0#32, 0x0#32, 0x0#32, 0xFF#32, .struct⟩,
  ⟨0x40120014, 1, 4, 1, 4, 1, 4, 0x0#32, 0, 0x0#32, 0x0#32, 0x0#32, 0x0#32, 0x0#32, .none⟩]

def rowsCI3C : List RegRow := [
  ⟨0x40130000, 1, 4, 1, 4, 1, 4, 0x0#32, 0, 0x7#32, 0x0#32, 0x0#32, 0x0#32, 0x0#32, .none⟩,
  ⟨0x40130004, 1, 4, 1, 4, 1, 4, 0x7#32, 0, 0x1F#32, 0x0#32, 0x0#32, 0x0#32, 0x0#32, .none⟩,
  ⟨0x40130008, 1, 4, 1, 4, 1, 4, 0x0#32, 0, 0x0#32, 0x1F#32, 0x0#32, 0x0#32, 0x0#32, .none⟩,
  ⟨0x4013000C, 1, 4, 1, 4, 1, 4, 0x0#32, 0, 0x0#32, 0x0#32, 0x0#32, 0x0#32, 0x0#32, .none⟩,
  ⟨0x40130010, 1, 4, 1, 4, 1, 4, 0x0#32, 0, 0x0#32, 0x0#32, 0x0#32, 0x0#32, 0x0#32, .none⟩,
  ⟨0x40130014, 1, 4, 1, 4, 1, 4, 0x0#32, 0, 0x0#32, 0x0#32, 0x0#32, 0x0#32, 0x0#32, .none⟩,
  ⟨0x40130018, 1, 4, 1, 4, 1, 4, 0x0#32, 0, 0x0#32, 0x0#32, 0x0#32, 0x0#32, 0x0#32, .none⟩,
  ⟨0x4013001C, 1, 4, 1, 4, 1, 4, 0x0#32, 0, 0x0#32, 0x0#32, 0x0#32, 0x0#32, 0x0#32, .none⟩,
  ⟨0x40130040, 16, 4, 1, 4, 1, 4, 0x0#32, 0, 0x77F#32, 0x0#32, 0x0#32, 0x0#32, 0x0#32, .none⟩]

def rowsXSPI : List RegRow := [
  ⟨0x40140000, 1, 4, 1, 4, 1, 4, 0x1#32, 0, 0x1#32, 0x0#32, 0x0#32, 0x0#32, 0x0#32, .none⟩,
  ⟨0x40140004, 1, 4, 1, 4, 1, 4, 0x0#32, 0, 0x0#32, 0xF#32, 0x0#32, 0x0#32, 0x0#32, .none⟩,
  ⟨0x40140008, 1, 4, 1, 4, 1, 4, 0x1030013#32, 0, 0x3FFF11F#32, 0x0#32, 0x0#32, 0x0#32, 0x0#32, .none⟩,
  ⟨0x4014000C, 1, 4, 1, 4, 1, 4, 0x0#32, 0, 0x0#32, 0x0#32, 0x0#32, 0x0#32, 0x0#32, .none⟩,
  ⟨0x40140010, 1, 4, 1, 4, 1, 4, 0x0#32, 0, 0xFFFFFFFF#32, 0x0#32, 0x0#32, 0x0#32, 0x0#32, .none⟩,
  ⟨0x40140014, 1, 4, 1, 4, 1, 4, 0x0#32, 0, 0x0#32, 0x0#32, 0x0#32, 0x0#32, 0x0#32, .none⟩,
  ⟨0x40140018, 1, 4, 1, 4, 1, 4, 0x0#32, 0, 0x0#32, 0x0#32, 0x0#32, 0x0#32, 0x0#32, .none⟩,
  ⟨0x4014001C, 1, 4, 1, 4, 1, 4, 0x1#32, 0, 0xFFFFFFFF#32, 0x0#32, 0x0#32, 0x0#32, 0x0#32, .none⟩,
  ⟨0x40140020, 1, 4, 1, 4, 1, 4, 0x0#32, 0, 0x0#32, 0x0#32, 0x0#32, 0x0#32, 0x0#32, .none⟩,
  ⟨0x40140024, 1, 4, 1, 4, 1, 4, 0x0#32, 0, 0x0#32, 0x0#32, 0x0#32, 0x0#32, 0x0#32, .none⟩]

def rowsMGT : List RegRow := [
  ⟨0x40150000, 1, 4, 1, 4, 1, 4, 0x0#32, 0, 0x0#32, 0x7F#32, 0x0#32, 0x0#32, 0x0#32, .none⟩,
  ⟨0x40150008, 1, 4, 1, 4, 1, 4, 0x640#32, 0, 0xFFFF#32, 0x0#32, 0x0#32, 0x0#32, 0x0#32, .none⟩,
  ⟨0x4015000C, 1, 4, 1, 4, 1, 4, 0x6E0#32, 0, 0xFFFF#32, 0x0#32, 0x0#32, 0x0#32, 0x0#32, .none⟩,
  ⟨0x40150010, 1, 4, 1, 4, 1, 4, 0x0#32, 0, 0x0#32, 0x0#32, 0x0#32, 0x0#32, 0x0#32, .none⟩,
  ⟨0x40150020, 8, 4, 1, 4, 1, 4, 0x0#32, 0, 0x0#32, 0x0#32, 0x0#32, 0x0#32, 0x0#32, .none⟩,
  ⟨0x40150040, 6, 4, 1, 4, 1, 4, 0x0#32, 0, 0x0#32, 0x0#32, 0x0#32, 0x0#32, 0x0#32, .none⟩,
  ⟨0x40150060, 6, 4, 1, 4, 1, 4, 0x0#32, 0, 0x1FFF1FFF#32, 0x0#32, 0x0#32, 0x0#32, 0x0#32, .none⟩,
  ⟨0x40150080, 1, 4, 1, 4, 1, 4, 0x0#32, 0, 0xFF#32, 0x0#32, 0x0#32, 0x0#32, 0x0#32, .none⟩,
  ⟨0x40150084, 1, 4, 1, 4, 1, 4, 0x76543210#32, 0, 0x77777777#32, 0x0#32, 0x0#32, 0x0#32, 0x0#32, .none⟩,
  ⟨0x401500A0, 8, 4, 1, 4, 1, 4, 0x0#32, 0, 0x0#32, 0x0#32, 0x0#32, 0x0#32, 0x0#32, .none⟩,
  ⟨0x401500C0, 8, 4, 1, 4, 1, 4, 0x0#32, 0, 0xFFF0FFF#32, 0x0#32, 0x0#32, 0x0#32, 0x0#32, .none⟩,
  ⟨0x40150100, 1, 4, 1, 4, 1, 4, 0x40#32, 0, 0xFFFF00FF#32, 0x0#32, 0x0#32, 0x0#32, 0x0#32, .none⟩,
  ⟨0x40150104, 1, 4, 1, 4, 1, 4, 0x6E005F0#32, 0, 0xFFFFFFFF#32, 0x0#32, 0x0#32, 0x0#32, 0x0#32, .none⟩,
  ⟨0x40150108, 1, 4, 1, 4, 1, 4, 0x4000#32, 0, 0xFFFF#32, 0x0#32, 0x0#32, 0x0#32, 0x0#32, .none⟩,
  ⟨0x40150110, 17, 4, 1, 4, 1, 4, 0x8000#32, 0, 0xFFFF#32, 0x0#32, 0x0#32, 0x0#32, 0x0#32, .none⟩,
  ⟨0x40150160, 1, 4, 1, 4, 1, 4, 0x0#32, 0, 0x0#32, 0x0#32, 0x0#32, 0x0#32, 0x0#32, .none⟩,
  ⟨0x40150200, 1, 4, 1, 4, 1, 4, 0x0#32, 0, 0x0#32, 0x0#32, 0x0#32, 0x0#32, 0x0#32, .none⟩,
  ⟨0x40150204, 1, 4, 1, 4, 1, 4, 0x0#32, 0, 0x0#32, 0x0#32, 0x0#32, 0x0#32, 0x0#32, .none⟩,
  ⟨0x40150208, 1, 4, 1, 4, 1, 4, 0x0#32, 0, 0x0#32, 0x0#32, 0x0#32, 0x0#32, 0x0#32, .none⟩,
  ⟨0x4015020C, 1, 4, 1, 4, 1, 4, 0x0#32, 0, 0x0#32, 0x0#32, 0x0#32, 0x0#32, 0x0#32, .none⟩,
  ⟨0x40150210, 4, 4, 1, 4, 1, 4, 0x0#32, 0, 0x0#32, 0x0#32, 0x0#32, 0x0#32, 0x0#32, .none⟩,
  ⟨0x40150220, 4, 4, 1, 4, 1, 4, 0x0#32, 0, 0x7FFF#32, 0x0#32, 0x0#32, 0x0#32, 0x0#32, .none⟩,
  ⟨0x40150280, 1, 4, 1, 4, 1, 4, 0x0#32, 0, 0x0#32, 0x0#32, 0x0#32, 0x0#32, 0x0#32, .none⟩,
  ⟨0x401502C0, 16, 4, 1, 4, 1, 4, 0x0#32, 0, 0x0#32, 0x0#32, 0x0#32, 0x0#32, 0x0#32, .none⟩,
  ⟨0x40158000, 4, 2048, 512, 4, 1, 4, 0x0#32, 0, 0x0#32, 0x0#32, 0x0#32, 0x0#32, 0x0#32, .none⟩,
  ⟨0x4015A000, 4, 2048, 512, 4, 1, 4, 0x0#32, 0, 0xFFFFFFFF#32, 0x0#32, 0x0#32, 0x0#32, 0x0#32, .none⟩]

def rowsEVR0 : List RegRow := [
  ⟨0x40160004, 1, 4, 1, 4, 1, 4, 0x0#32, 0, 0x0#32, 0x7#32, 0x0#32, 0x0#32, 0x0#32, .none⟩,
  ⟨0x40160008, 1, 4, 1, 4, 1, 4, 0x0#32, 0, 0x0#32, 0x0#32, 0x0#32, 0x0#32, 0x0#32, .none⟩,
  ⟨0x4016000C, 1, 4, 1, 4, 1, 4, 0x0#32, 0, 0x0#32, 0x0#32, 0x0#32, 0x0#32, 0x0#32, .none⟩,
  ⟨0x40160010, 1, 4, 1, 4, 1, 4, 0x0#32, 0, 0x0#32, 0x0#32, 0x0#32, 0x0#32, 0x0#32, .none⟩,
  ⟨0x40160014, 1, 4, 1, 4, 1, 4, 0x9C40003#32, 0, 0xFFFF0007#32, 0x0#32, 0x0#32, 0x0#32, 0x0#32, .none⟩,
  ⟨0x40160018, 1, 4, 1, 4, 1, 4, 0x0#32, 0, 0x0#32, 0x0#32, 0x0#32, 0x0#32, 0x0#32, .none⟩,
  ⟨0x4016001C, 1, 4, 1, 4, 1, 4, 0x0#32, 0, 0x0#32, 0x0#32, 0x0#32, 0x0#32, 0x0#32, .none⟩,
  ⟨0x40160020, 1, 4, 1, 4, 1, 4, 0x0#32, 0, 0x0#32, 0x0#32, 0x0#32, 0x0#32, 0x0#32, .none⟩,
  ⟨0x40160024, 1, 4, 1, 4, 1, 4, 0x0#32, 0, 0x0#32, 0x0#32, 0x0#32, 0x0#32, 0x0#32, .none⟩,
  ⟨0x40160028, 1, 4, 1, 4, 1, 4, 0x0#32, 0, 0x0#32, 0x0#32, 0x0#32, 0xFFFFFFFF#32, 0x0#32, .none⟩,
  ⟨0x40160030, 1, 4, 1, 4, 1, 4, 0x0#32, 0, 0xFFFFFFFF#32, 0x0#32, 0x0#32, 0x0#32, 0x0#32, .none⟩,
  ⟨0x40160034, 1, 4, 1, 4, 1, 4, 0x0#32, 0, 0x0#32, 0x0#32, 0x0#32, 0x0#32, 0x0#32, .none⟩,
  ⟨0x40160038, 1, 4, 1, 4, 1, 4, 0x0#32, 0, 0x0#32, 0x0#32, 0x0#32, 0x0#32, 0x0#32, .none⟩,
  ⟨0x40160040, 8, 4, 1, 4, 1, 4, 0x0#32, 0, 0x0#32, 0x0#32, 0x0#32, 0x0#32, 0x0#32, .none⟩,
  ⟨0x40160080, 3, 32, 4, 4, 1, 4, 0x0#32, 0, 0xFFFFFFFF#32, 0x0#32, 0x0#32, 0x0#32, 0x0#32, .none⟩,
  ⟨0x40160090, 3, 32, 1, 4, 1, 4, 0x0#32, 0, 0x0#32, 0x0#32, 0x0#32, 0x0#32, 0x0#32, .none⟩,
  ⟨0x40160100, 1, 4, 1, 4, 1, 4, 0xBD#32, 0, 0xFFFFFFFF#32, 0x0#32, 0x0#32, 0x0#32, 0x0#32, .none⟩,
  ⟨0x40160108, 1, 4, 1, 4, 1, 4, 0xAAAAAA#32, 0, 0xFFFFFFFF#32, 0x0#32, 0x0#32, 0x0#32, 0x0#32, .none⟩,
  ⟨0x40160110, 1, 4, 1, 4, 1, 4, 0x29AA9A#32, 0, 0xFFFFFFFF#32, 0x0#32, 0x0#32, 0x0#32, 0x0#32, .none⟩,
  ⟨0x40160118, 1, 4, 1, 4, 1, 4, 0x15DDD#32, 0, 0xFFFFFFFF#32, 0x0#32, 0x0#32, 0x0#32, 0x0#32, .none⟩,
  ⟨0x4016011C, 1, 4, 1, 4, 1, 4, 0xB#32, 0, 0xFFFFFFFF#32, 0x0#32, 0x0#32, 0x0#32, 0x0#32, .none⟩,
  ⟨0x40160120, 1, 4, 1, 4, 1, 4, 0x22AA#32, 0, 0xFFFFFFFF#32, 0x0#32, 0x0#32, 0x0#32, 0x0#32, .none⟩,
  ⟨0x40160128, 1, 4, 1, 4, 1, 4, 0x55AAAA#32, 0, 0xFFFFFFFF#32, 0x0#32, 0x0#32, 0x0#32, 0x0#32, .none⟩,
  ⟨0x40160130, 1, 4, 1, 4, 1, 4, 0x30AAA#32, 0, 0xFFFFFFFF#32, 0x0#32, 0x0#32, 0x0#32, 0x0#32, .none⟩,
  ⟨0x40160138, 1, 4, 1, 4, 1, 4, 0xAAAA#32, 0, 0xFFFFFFFF#32, 0x0#32, 0x0#32, 0x0#32, 0x0#32, .none⟩,
  ⟨0x40160140, 1, 4, 1, 4, 1, 4, 0x2FF#32, 0, 0xFFFFFFFF#32, 0x0#32, 0x0#32, 0x0#32, 0x0#32, .none⟩,
  ⟨0x40160148, 1, 4, 1, 4, 1, 4, 0x15559#32, 0, 0xFFFFFFFF#32, 0x0#32, 0x0#32, 0x0#32, 0x0#32, .none⟩,
  ⟨0x40160150, 1, 4, 1, 4, 1, 4, 0x55#32, 0, 0xFFFFFFFF#32, 0x0#32, 0x0#32, 0x0#32, 0x0#32, .none⟩,
  ⟨0x40160158, 1, 4, 1, 4, 1, 4, 0x9A7AA#32, 0, 0xFFFFFFFF#32, 0x0#32, 0x0#32, 0x0#32, 0x0#32, .none⟩,
  ⟨0x40160160, 1, 4, 1, 4, 1, 4, 0x9A7AA#32, 0, 0xFFFFFFFF#32, 0x0#32, 0x0#32, 0x0#32, 0x0#32, .none⟩,
  ⟨0x40160168, 1, 4, 1, 4, 1, 4, 0xAA#32, 0, 0xFFFFFFFF#32, 0x0#32, 0x0#32, 0x0#32, 0x0#32, .none⟩,
  ⟨0x40160170, 1, 4, 1, 4, 1, 4, 0x2AA0#32, 0, 0xFFFFFFFF#32, 0x0#32, 0x0#32, 0x0#32, 0x0#32, .none⟩,
  ⟨0x40160178, 1, 4, 1, 4, 1, 4, 0x1D55575D#32, 0, 0xFFFFFFFF#32, 0x0#32, 0x0#32, 0x0#32, 0x0#32, .none⟩,
  ⟨0x40160180, 1, 4, 1, 4, 1, 4, 0xFF#32, 0, 0xFFFFFFFF#32, 0x0#32, 0x0#32, 0x0#32, 0x0#32, .none⟩,
  ⟨0x40160188, 1, 4, 1, 4, 1, 4, 0x20AE#32, 0, 0xFFFFFFFF#32, 0x0#32, 0x0#32, 0x0#32, 0x0#32, .none⟩,
  ⟨0x40160190, 1, 4, 1, 4, 1, 4, 0xAA#32, 0, 0xFFFFFFFF#32, 0x0#32, 0x0#32, 0x0#32, 0x0#32, .none⟩,
  ⟨0x40160198, 1, 4, 1, 4, 1, 4, 0x2AA#32, 0, 0xFFFFFFFF#32, 0x0#32, 0x0#32, 0x0#32, 0x0#32, .none⟩,
  ⟨0x401601A0, 1, 4, 1, 4, 1, 4, 0xA8#32, 0, 0xFFFFFFFF#32, 0x0#32, 0x0#32, 0x0#32, 0x0#32, .none⟩,
  ⟨0x401601A8, 1, 4, 1, 4, 1, 4, 0xA#32, 0, 0xFFFFFFFF#32, 0x0#32, 0x0#32, 0x0#32, 0x0#32, .none⟩,
  ⟨0x401601B0, 1, 4, 1, 4, 1, 4, 0xA#32, 0, 0xFFFFFFFF#32, 0x0#32, 0x0#32, 0x0#32, 0x0#32, .none⟩]

def rowsEVR1 : List RegRow := [
  ⟨0x401601C0, 1, 4, 1, 4, 1, 4, 0x77AFDF#32, 0, 0xFFFFFFFF#32, 0x0#32, 0x0#32, 0x0#32, 0x0#32, .none⟩,
  ⟨0x40160104, 1, 4, 1, 4, 1, 4, 0x0#32, 0, 0xFFFFFFFF#32, 0x0#32, 0x0#32, 0x0#32, 0x0#32, .none⟩,
  ⟨0x4016010C, 1, 4, 1, 4, 1, 4, 0x0#32, 0, 0xFFFFFFFF#32, 0x0#32, 0x0#32, 0x0#32, 0x0#32, .none⟩,
  ⟨0x40160114, 1, 4, 1, 4, 1, 4, 0x0#32, 0, 0xFFFFFFFF#32, 0x0#32, 0x0#32, 0x0#32, 0x0#32, .none⟩,
  ⟨0x40160124, 1, 4, 1, 4, 1, 4, 0x0#32, 0, 0xFFFFFFFF#32, 0x0#32, 0x0#32, 0x0#32, 0x0#32, .none⟩,
  ⟨0x4016012C, 1, 4, 1, 4, 1, 4, 0x0#32, 0, 0xFFFFFFFF#32, 0x0#32, 0x0#32, 0x0#32, 0x0#32, .none⟩,
  ⟨0x40160134, 1, 4, 1, 4, 1, 4, 0x0#32, 0, 0xFFFFFFFF#32, 0x0#32, 0x0#32, 0x0#32, 0x0#32, .none⟩,
  ⟨0x4016013C, 1, 4, 1, 4, 1, 4, 0x0#32, 0, 0xFFFFFFFF#32, 0x0#32, 0x0#32, 0x0#32, 0x0#32, .none⟩,
  ⟨0x40160144, 1, 4, 1, 4, 1, 4, 0x0#32, 0, 0xFFFFFFFF#32, 0x0#32, 0x0#32, 0x0#32, 0x0#32, .none⟩,
  ⟨0x4016014C, 1, 4, 1, 4, 1, 4, 0x0#32, 0, 0xFFFFFFFF#32, 0x0#32, 0x0#32, 0x0#32, 0x0#32, .none⟩,
  ⟨0x40160154, 1, 4, 1, 4, 1, 4, 0x0#32, 0, 0xFFFFFFFF#32, 0x0#32, 0x0#32, 0x0#32, 0x0#32, .none⟩,
  ⟨0x4016015C, 1, 4, 1, 4, 1, 4, 0x0#32, 0, 0xFFFFFFFF#32, 0x0#32, 0x0#32, 0x0#32, 0x0#32, .none⟩,
  ⟨0x40160164, 1, 4, 1, 4, 1, 4, 0x0#32, 0, 0xFFFFFFFF#32, 0x0#32, 0x0#32, 0x0#32, 0x0#32, .none⟩,
  ⟨0x4016016C, 1, 4, 1, 4, 1, 4, 0x0#32, 0, 0xFFFFFFFF#32, 0x0#32, 0x0#32, 0x0#32, 0x0#32, .none⟩,
  ⟨0x40160174, 1, 4, 1, 4, 1, 4, 0x0#32, 0, 0xFFFFFFFF#32, 0x0#32, 0x0#32, 0x0#32, 0x0#32, .none⟩,
  ⟨0x4016017C, 1, 4, 1, 4, 1, 4, 0x0#32, 0, 0xFFFFFFFF#32, 0x0#32, 0x0#32, 0x0#32, 0x0#32, .none⟩,
  ⟨0x40160184, 1, 4, 1, 4, 1, 4, 0x0#32, 0, 0xFFFFFFFF#32, 0x0#32, 0x0#32, 0x0#32, 0x0#32, .none⟩,
  ⟨0x4016018C, 1, 4, 1, 4, 1, 4, 0x0#32, 0, 0xFFFFFFFF#32, 0x0#32, 0x0#32, 0x0#32, 0x0#32, .none⟩,
  ⟨0x40160194, 1, 4, 1, 4, 1, 4, 0x0#32, 0, 0xFFFFFFFF#32, 0x0#32, 0x0#32, 0x0#32, 0x0#32, .none⟩,
  ⟨0x4016019C, 1, 4, 1, 4, 1, 4, 0x0#32, 0, 0xFFFFFFFF#32, 0x0#32, 0x0#32, 0x0#32, 0x0#32, .none⟩,
  ⟨0x401601A4, 1, 4, 1, 4, 1, 4, 0x0#32, 0, 0xFFFFFFFF#32, 0x0#32, 0x0#32, 0x0#32, 0x0#32, .none⟩,
  ⟨0x401601AC, 1, 4, 1, 4, 1, 4, 0x0#32, 0, 0xFFFFFFFF#32, 0x0#32, 0x0#32, 0x0#32, 0x0#32, .none⟩,
  ⟨0x401601B4, 3, 4, 1, 4, 1, 4, 0x0#32, 0, 0xFFFFFFFF#32, 0x0#32, 0x0#32, 0x0#32, 0x0#32, .none⟩,
  ⟨0x401601C4, 15, 4, 1, 4, 1, 4, 0x0#32, 0, 0xFFFFFFFF#32, 0x0#32, 0x0#32, 0x0#32, 0x0#32, .none⟩]

def rowsEVR : List RegRow := rowsEVR0 ++ rowsEVR1

def rowsSEC : List RegRow := [
  ⟨0x40170000, 1, 4, 1, 4, 1, 4, 0x0#32, 0, 0x0#32, 0x0#32, 0x0#32, 0x0#32, 0x0#32, .none⟩,
  ⟨0x40170004, 1, 4, 1, 4, 1, 4, 0x0#32, 0, 0x0#32, 0x3FF#32, 0x0#32, 0x0#32, 0x0#32, .none⟩,
  ⟨0x40170008, 1, 4, 1, 4, 1, 4, 0x0#32, 0, 0x0#32, 0x0#32, 0x0#32, 0x0#32, 0x0#32, .none⟩,
  ⟨0x4017000C, 1, 4, 1, 4, 1, 4, 0x0#32, 0, 0xFFFFFFFF#32, 0x0#32, 0x0#32, 0x0#32, 0x0#32, .none⟩,
  ⟨0x40170010, 1, 4, 1, 4, 1, 4, 0x0#32, 0, 0xFFFFFFFF#32, 0x0#32, 0x0#32, 0x0#32, 0x0#32, .none⟩,
  ⟨0x40170014, 1, 4, 1, 4, 1, 4, 0x0#32, 0, 0xF0F#32, 0x0#32, 0x0#32, 0x0#32, 0x0#32, .none⟩,
  ⟨0x40170018, 1, 4, 1, 4, 1, 4, 0x0#32, 0, 0x0#32, 0x0#32, 0x0#32, 0x0#32, 0x0#32, .none⟩,
  ⟨0x4017001C, 1, 4, 1, 4, 1, 4, 0x0#32, 0, 0x3#32, 0x0#32, 0x0#32, 0x0#32, 0x3#32, .struct⟩,
  ⟨0x40170020, 1, 4, 1, 4, 1, 4, 0x0#32, 0, 0x0#32, 0x0#32, 0x0#32, 0x0#32, 0x0#32, .none⟩,
  ⟨0x40170024, 1, 4, 1, 4, 1, 4, 0x0#32, 0, 0x0#32, 0x0#32, 0x0#32, 0x0#32, 0x0#32, .none⟩,
  ⟨0x40170028, 1, 4, 1, 4, 1, 4, 0x0#32, 0, 0x0#32, 0x0#32, 0x0#32, 0x0#32, 0x0#32, .none⟩,
  ⟨0x4017002C, 1, 4, 1, 4, 1, 4, 0x0#32, 0, 0x0#32, 0x0#32, 0x0#32, 0x0#32, 0x0#32, .none⟩,
  ⟨0x40170030, 1, 4, 1, 4, 1, 4, 0x0#32, 0, 0x0#32, 0x0#32, 0x0#32, 0x0#32, 0x0#32, .none⟩]

def rowsDBG : List RegRow := [
  ⟨0x40180000, 1, 4, 1, 4, 1, 4, 0x0#32, 0, 0x0#32, 0x3#32, 0x0#32, 0x0#32, 0x0#32, .none⟩,
  ⟨0x40180004, 1, 4, 1, 4, 1, 4, 0x0#32, 0, 0x0#32, 0x0#32, 0x0#32, 0x0#32, 0x0#32, .none⟩,
  ⟨0x40180008, 1, 4, 1, 4, 1, 4, 0x0#32, 0, 0x0#32, 0x0#32, 0x0#32, 0x0#32, 0x0#32, .none⟩,
  ⟨0x40180040, 16, 4, 1, 4, 1, 4, 0x0#32, 0, 0x0#32, 0x0#32, 0x0#32, 0x0#32, 0x0#32, .none⟩,
  ⟨0x40180080, 24, 4, 1, 4, 1, 4, 0x0#32, 0, 0xFFFFFFFF#32, 0x0#32, 0x0#32, 0x0#32, 0x0#32, .none⟩,
  ⟨0x40180200, 3, 128, 1, 4, 1, 4, 0x0#32, 0, 0x1C#32, 0x0#32, 0x0#32, 0x0#32, 0x0#32, .none⟩,
  ⟨0x40180204, 3, 128, 1, 4, 1, 4, 0x0#32, 0, 0x0#32, 0x0#32, 0x0#32, 0x0#32, 0x0#32, .none⟩,
  ⟨0x40180208, 3, 128, 1, 4, 1, 4, 0x0#32, 0, 0x0#32, 0xD#32, 0x0#32, 0x0#32, 0x0#32, .none⟩,
  ⟨0x4018020C, 3, 128, 1, 4, 1, 4, 0x0#32, 0, 0x0#32, 0x0#32, 0x0#32, 0x0#32, 0x0#32, .none⟩,
  ⟨0x40180210, 3, 128, 1, 4, 1, 4, 0x0#32, 0, 0x0#32, 0x0#32, 0x0#32, 0x0#32, 0x0#32, .none⟩,
  ⟨0x40180214, 3, 128, 1, 4, 1, 4, 0x0#32, 0, 0x1F#32, 0x0#32, 0x0#32, 0x0#32, 0x0#32, .none⟩,
  ⟨0x40180218, 3, 128, 1, 4, 1, 4, 0x0#32, 0, 0x0#32, 0x0#32, 0x0#32, 0x0#32, 0x0#32, .none⟩,
  ⟨0x4018021C, 3, 128, 1, 4, 1, 4, 0x0#32, 0, 0xFFFFFFFF#32, 0x0#32, 0x0#32, 0x0#32, 0x0#32, .none⟩,
  ⟨0x40180220, 3, 128, 1, 4, 1, 4, 0x0#32, 0, 0x0#32, 0x0#32, 0x0#32, 0x0#32, 0x0#32, .none⟩,
  ⟨0x40180240, 3, 128, 4, 4, 1, 4, 0x0#32, 0, 0xFFFFFFFD#32, 0x0#32, 0x0#32, 0x0#32, 0x0#32, .none⟩,
  ⟨0x40180250, 3, 128, 2, 8, 1, 4, 0x0#32, 0, 0xFFFFFFFF#32, 0x0#32, 0x0#32, 0x0#32, 0x0#32, .none⟩,
  ⟨0x40180254, 3, 128, 2, 8, 1, 4, 0x0#32, 0, 0xFF#32, 0x0#32, 0x0#32, 0x0#32, 0x0#32, .none⟩]

def rowsIMG : List RegRow := [
  ⟨0x40190000, 1, 4, 1, 4, 1, 4, 0x0#32, 0, 0x0#32, 0x0#32, 0x0#32, 0x0#32, 0x0#32, .none⟩,
  ⟨0x40190004, 1, 4, 1, 4, 1, 4, 0x0#32, 0, 0x0#32, 0xFF#32, 0x0#32, 0x0#32, 0x0#32, .none⟩,
  ⟨0x40190008, 1, 4, 1, 4, 1, 4, 0x0#32, 0, 0x0#32, 0x0#32, 0x0#32, 0x0#32, 0x0#32, .none⟩,
  ⟨0x4019000C, 1, 4, 1, 4, 1, 4, 0x0#32, 0, 0x0#32, 0x0#32, 0x0#32, 0x0#32, 0x0#32, .none⟩,
  ⟨0x40190010, 1, 4, 1, 4, 1, 4, 0x0#32, 0, 0x0#32, 0x0#32, 0x0#32, 0x0#32, 0x0#32, .none⟩,
  ⟨0x40190014, 1, 4, 1, 4, 1, 4, 0x0#32, 0, 0xFFFFFFFF#32, 0x0#32, 0x0#32, 0x0#32, 0x0#32, .none⟩,
  ⟨0x40190018, 1, 4, 1, 4, 1, 4, 0x0#32, 0, 0xFFFFFFFF#32, 0x0#32, 0x0#32, 0x0#32, 0x0#32, .none⟩,
  ⟨0x4019001C, 1, 4, 1, 4, 1, 4, 0x0#32, 0, 0xFFFFFFFF#32, 0x0#32, 0x0#32, 0x0#32, 0x0#32, .none⟩,
  ⟨0x40190020, 1, 4, 1, 4, 1, 4, 0x0#32, 0, 0x1#32, 0x0#32, 0x0#32, 0x0#32, 0x0#32, .none⟩,
  ⟨0x40190024, 1, 4, 1, 4, 1, 4, 0x0#32, 0, 0x0#32, 0x0#32, 0x0#32, 0x0#32, 0x0#32, .none⟩,
  ⟨0x40190028, 1, 4, 1, 4, 1, 4, 0x0#32, 0, 0x0#32, 0x0#32, 0x0#32, 0x0#32, 0x0#32, .none⟩,
  ⟨0x4019002C, 1, 4, 1, 4, 1, 4, 0x0#32, 0, 0x0#32, 0x0#32, 0x0#32, 0xFFFF#32, 0x0#32, .none⟩,
  ⟨0x40190030, 1, 4, 1, 4, 1, 4, 0x0#32, 0, 0x3F#32, 0x0#32, 0x0#32, 0x0#32, 0x0#32, .none⟩,
  ⟨0x40190034, 1, 4, 1, 4, 1, 4, 0x0#32, 0, 0xFFFFFFFF#32, 0x0#32, 0x0#32, 0x0#32, 0x0#32, .none⟩,
  ⟨0x40190038, 1, 4, 1, 4, 1, 4, 0x0#32, 0, 0x0#32, 0x0#32, 0x0#32, 0x0#32, 0x0#32, .none⟩,
  ⟨0x4019003C, 1, 4, 1, 4, 1, 4, 0x0#32, 0, 0x0#32, 0x0#32, 0x0#32, 0x0#32, 0x0#32, .none⟩,
  ⟨0x40190040, 1, 4, 1, 4, 1, 4, 0x0#32, 0, 0x0#32, 0x0#32, 0x0#32, 0x0#32, 0x0#32, .none⟩,
  ⟨0x40190044, 1, 4, 1, 4, 1, 4, 0x0#32, 0, 0x0#32, 0x0#32, 0x0#32, 0x0#32, 0x0#32, .none⟩,
  ⟨0x40190048, 2, 4, 1, 4, 1, 4, 0x0#32, 0, 0x0#32, 0x0#32, 0x0#32, 0x0#32, 0x0#32, .none⟩,
  ⟨0x40190050, 1, 4, 1, 4, 1, 4, 0x2#32, 0, 0x0#32, 0x0#32, 0x0#32, 0x0#32, 0x0#32, .none⟩,
  ⟨0x40190800, 1, 4, 1, 4, 1, 4, 0x0#32, 0, 0x0#32, 0x0#32, 0x0#32, 0x0#32, 0x0#32, .none⟩,
  ⟨0x40190804, 1, 4, 1, 4, 1, 4, 0x0#32, 0, 0xFFFFFFFF#32, 0x0#32, 0x0#32, 0x0#32, 0x0#32, .none⟩,
  ⟨0x40190808, 1, 4, 1, 4, 1, 4, 0x0#32, 0, 0x0#32, 0x0#32, 0x0#32, 0x0#32, 0x0#32, .none⟩,
  ⟨0x4019080C, 1, 4, 1, 4, 1, 4, 0xC0000#32, 0, 0x0#32, 0x7F00#32, 0x0#32, 0x0#32, 0x0#32, .none⟩,
  ⟨0x40190810, 3, 4, 1, 4, 1, 4, 0x0#32, 0, 0x0#32, 0x0#32, 0x0#32, 0x0#32, 0x0#32, .none⟩,
  ⟨0x4019081C, 1, 4, 1, 4, 1, 4, 0x0#32, 0, 0x0#32, 0x0#32, 0x0#32, 0xFFFF#32, 0x0#32, .none⟩,
  ⟨0x40190820, 1, 4, 1, 4, 1, 4, 0x0#32, 0, 0x0#32, 0x0#32, 0x0#32, 0xFFFF#32, 0x0#32, .none⟩,
  ⟨0x40190824, 1, 4, 1, 4, 1, 4, 0x0#32, 0, 0x0#32, 0x0#32, 0x0#32, 0x0#32, 0x0#32, .none⟩]

def rowsMRC : List RegRow := [
  ⟨0x401A0000, 1, 4, 1, 4, 1, 4, 0x3#32, 0, 0x3#32, 0x0#32, 0x0#32, 0x0#32, 0x0#32, .none⟩,
  ⟨0x401A0004, 1, 4, 1, 4, 1, 4, 0x0#32, 0, 0x0#32, 0x1FF#32, 0x0#32, 0x0#32, 0x0#32, .none⟩,
  ⟨0x401A0008, 1, 4, 1, 4, 1, 4, 0x40#32, 0, 0xFFFF#32, 0x0#32, 0x0#32, 0x0#32, 0x0#32, .none⟩,
  ⟨0x401A000C, 1, 4, 1, 4, 1, 4, 0x3E80010#32, 0, 0xFFFF00FF#32, 0x0#32, 0x0#32, 0x0#32, 0x0#32, .none⟩,
  ⟨0x401A0010, 1, 4, 1, 4, 1, 4, 0x0#32, 0, 0x0#32, 0x0#32, 0x0#32, 0x0#32, 0x0#32, .none⟩,
  ⟨0x401A0014, 1, 4, 1, 4, 1, 4, 0x0#32, 0, 0x0#32, 0x0#32, 0x0#32, 0x0#32, 0x0#32, .none⟩,
  ⟨0x401A0018, 1, 4, 1, 4, 1, 4, 0x0#32, 0, 0x0#32, 0x0#32, 0x0#32, 0x0#32, 0x0#32, .none⟩,
  ⟨0x401A0020, 1, 4, 1, 4, 1, 4, 0x0#32, 0, 0x0#32, 0x0#32, 0x0#32, 0x0#32, 0x0#32, .none⟩,
  ⟨0x401A0024, 1, 4, 1, 4, 1, 4, 0x0#32, 0, 0x0#32, 0x80000000#32, 0x0#32, 0x0#32, 0x0#32, .none⟩,
  ⟨0x401A0028, 1, 4, 1, 4, 1, 4, 0x0#32, 0, 0x0#32, 0x0#32, 0x0#32, 0xFFFF#32, 0x0#32, .none⟩,
  ⟨0x401A002C, 1, 4, 1, 4, 1, 4, 0x0#32, 0, 0x0#32, 0x0#32, 0x0#32, 0xFFFFFFFF#32, 0x0#32, .none⟩,
  ⟨0x401A0030, 1, 4, 1, 4, 1, 4, 0x0#32, 0, 0x0#32, 0x0#32, 0x0#32, 0x0#32, 0x0#32, .none⟩,
  ⟨0x401A0034, 1, 4, 1, 4, 1, 4, 0x0#32, 0, 0x0#32, 0x0#32, 0x0#32, 0x0#32, 0x0#32, .none⟩,
  ⟨0x401A0040, 32, 4, 1, 4, 1, 4, 0x0#32, 1, 0x0#32, 0x0#32, 0x0#32, 0x0#32, 0x0#32, .none⟩,
  ⟨0x401A0100, 32, 4, 1, 4, 1, 4, 0x0#32, 0, 0x0#32, 0x0#32, 0x0#32, 0x0#32, 0x0#32, .none⟩,
  ⟨0x401A0180, 2, 4, 1, 4, 1, 4, 0x400#32, 0, 0x0#32, 0x0#32, 0x0#32, 0x0#32, 0x0#32, .none⟩,
  ⟨0x401A0188, 6, 4, 1, 4, 1, 4, 0x0#32, 0, 0x0#32, 0x0#32, 0x0#32, 0x0#32, 0x0#32, .none⟩]

/-- The rows of register block `b`, numbered from 0 at 0x4000_0000 in the order of Table 0.8. -/
def rowsOf (b : Nat) : List RegRow :=
  match b with
  | 0 => rowsSYS
  | 1 => rowsCLK
  | 2 => rowsCOT
  | 3 => rowsBEAM
  | 4 => rowsQDL
  | 5 => rowsLAY
  | 6 => rowsMNT
  | 7 => rowsPNL
  | 8 => rowsSIG
  | 9 => rowsSND
  | 10 => rowsOBJ
  | 11 => rowsAKA
  | 12 => rowsAKB
  | 13 => rowsREEL
  | 14 => rowsBLK
  | 15 => rowsIRQ
  | 16 => rowsTMR
  | 17 => rowsPIN
  | 18 => rowsHI3C
  | 19 => rowsCI3C
  | 20 => rowsXSPI
  | 21 => rowsMGT
  | 22 => rowsEVR
  | 23 => rowsSEC
  | 24 => rowsDBG
  | 25 => rowsIMG
  | 26 => rowsMRC
  | _ => []

/-- The row that holds the register at address `a`, and the element's index; none for a reserved offset. -/
def findIn : List RegRow → Nat → Option (RegRow × Nat)
  | [], _ => none
  | r :: rs, a =>
    match r.find a with
    | some i => some (r, i)
    | none => findIn rs a

def find (a : Nat) : Option (RegRow × Nat) := if a / 0x10000000 = 4 then findIn (rowsOf (a / 0x10000 % 0x1000)) a else none

/-- The value the register at `a` holds after a reset of its block (R7); a reserved offset reads as zero (R6). -/
def resetOf (a : Nat) : Word :=
  match find a with
  | some (r, i) => r.reset + BitVec.ofNat 32 (r.step * i)
  | none => 0

end RegMap
end Sys2Proof
end

