-- ==== Sys2Proof/Machine/Store.lean ====
section
/-! DEFINITION. Sparse data in one canonical form: a list of key and value pairs with strictly rising keys and no entry
equal to what an unlisted key reads as. Registers, memories and error marks are all held so. -/

namespace Sys2Proof

/-- What key `k` holds; `d k` is what an unlisted key reads as. -/
def Sparse.get {α : Type} (d : Nat → α) : List (Nat × α) → Nat → α
  | [], k => d k
  | (j, v) :: rest, k => if j = k then v else Sparse.get d rest k

/-- Places an entry before the first greater key. -/
def Sparse.insert {α : Type} (k : Nat) (v : α) : List (Nat × α) → List (Nat × α)
  | [] => [(k, v)]
  | (j, w) :: rest => if k < j then (k, v) :: (j, w) :: rest else (j, w) :: Sparse.insert k v rest

/-- Takes every entry of key `k` out. -/
def Sparse.erase {α : Type} (k : Nat) (l : List (Nat × α)) : List (Nat × α) :=
  l.filter fun e => decide (e.1 ≠ k)

/-- Writes `v` at key `k`, keeping the canonical form: a value an unlisted key reads as is not listed. -/
def Sparse.set {α : Type} [DecidableEq α] (d : Nat → α) (l : List (Nat × α)) (k : Nat) (v : α) : List (Nat × α) :=
  if v = d k then Sparse.erase k l else Sparse.insert k v (Sparse.erase k l)

/-- The keys rise strictly from above `lo`, and no entry holds its key's unlisted value. -/
def Sparse.wfFrom {α : Type} [DecidableEq α] (d : Nat → α) : Option Nat → List (Nat × α) → Bool
  | _, [] => true
  | lo, (k, v) :: rest =>
    (match lo with
     | none => true
     | some j => decide (j < k)) && decide (v ≠ d k) && Sparse.wfFrom d (some k) rest

/-- The canonical form. -/
def Sparse.wf {α : Type} [DecidableEq α] (d : Nat → α) (l : List (Nat × α)) : Bool := Sparse.wfFrom d none l

/-- What `src` lists is written into `dst`. -/
def Sparse.setAll {α : Type} [DecidableEq α] (d : Nat → α) (dst src : List (Nat × α)) : List (Nat × α) :=
  src.foldr (fun e l => Sparse.set d l e.1 e.2) dst

end Sys2Proof
end

