-- ==== Sys2Proof/Machine/State.lean ====
section
/-! DEFINITION. The state of the block, as plain data: every register, buffer, queue, counter and pin the spec gives it,
the commands waiting, and the state right after reset. -/

namespace Sys2Proof.Machine

/-- Why a step stops with a fault. No command of this block does: every error the spec describes is an answer code, a
status bit or an exception of a core, and the run goes on (safe). -/
inductive Fault where
  /-- Raised by nothing: kept so that the type has a name to show. Safe. -/
  | unreachable
deriving DecidableEq, Repr

/-- Why a step has no meaning. -/
inductive Refusal where
  /-- Raised by an arm of exec whose command has no meaning yet. Safe. -/
  | notModelled (mnemonic : String)
  /-- Raised by `UOP` when a customer routine has called into the vendor region and meets there a word whose effect the spec does not
  publish (class PRIV, DISPATCH, a reserved code; R339). Safe. -/
  | vendorMicroword
deriving DecidableEq, Repr

/-- The answer of the last register, memory or port access: an error code of Table 3.4 (0 none) and the data read. -/
structure Answer where
  code : Nat
  data : Word
deriving DecidableEq, Repr


/-- What the block puts on its links, pins and buses, in the order it is put there. -/
inductive Out where
  /-- A PTP Delay_Req message (R59). -/
  | delayReq (port : Nat) (t3 : Int)
  /-- A word, or an error code, returned to a master port (R71, R89). -/
  | ret (port addr code data : Nat)
  /-- ALERT_N driven at the end of a failed start-up march (R82). -/
  | alertBoot
  /-- A run on a panel port (the even port of a locked pair): command, LAT slots and the level of LAT during them, slots of the run, and
  the words of each data line in the order they are shifted (R188, Table 7.11). -/
  | panelRun (port cmd latw slots : Nat) (latHigh : Bool) (words : List (List Nat))
  /-- A scan group's row address and enable (R200). -/
  | panelScan (group row : Nat) (en : Bool)
  /-- GCLK of a buffered port restarts at a grid point: its period in ns, and whether its first edge rises on the pin (R200, Table 7.11). -/
  | panelGclk (port period : Nat) (rising : Bool)
  /-- A direct port's slot: the plane-row latched, how long OE is active, in half ns, and its active level; the plane-row shifted
  meanwhile, in the slots of a DATA run with LAT in the last `latw` (R188, R205). -/
  | panelPlane (port row plane lit : Nat) (oeHigh : Bool) (bits : List Byte) (slots latw : Nat) (latHigh : Bool) (shifted : List Byte)
  /-- A frame leaves on a hop: its header and payload, and the bytes that go out from start to terminate, or on an Ethernet port the
  Ethernet frame (R276, R285, R304). -/
  | frame (hop : Hop) (f : Frame) (bytes : List Byte)
  /-- The outgoing copy of a transit frame whose incoming tag failed ends with an error block (R289). -/
  | errorFrame (hop : Hop) (f : Frame)
  /-- The link control block that each lane of a hop sends, by ascending lane (R274). -/
  | lcb (hop : Hop) (blocks : List (BitVec 64))
  /-- The frames of a TDM port in one block: the level of FS in each BCLK of a frame, from the first bit of slot 0 on; whether data and FS change on
  the rising edge of BCLK; and the slots of each frame, as words of the slot width sent most significant bit first; none is high impedance (R266,
  R268). -/
  | tdm (port : Nat) (fs : List Bool) (rising : Bool) (frames : List (List (Option Nat)))
  /-- Stop mode begins or ends: while it lasts, TDM outputs send zero and direct panel ports hold OE inactive (R472). -/
  | stopMode (on : Bool)
  /-- A TDM port is set running or at rest: the BCLK and the frames in Hz that it drives; 0: BCLK and FS of a controller, and DOUT, are held low
  (R265). -/
  | tdmClock (port bclk fs : Nat)
  /-- What a direct GET CCC, and a private read, of target 0 (main) or 1 (debug) of the host port returns (R489 to R491). -/
  | i3cValue (target value : Nat)
  | i3cRead (target : Nat) (data : List Byte)
  /-- An in-band interrupt and its data bytes, and a hot-join request, on the host port (R489, R491). -/
  | ibi (target : Nat) (data : List Nat)
  | hotJoin
  /-- A command ends on the cabinet bus with the bytes it sent; a hot-joining target is given the address of entry `dev` (R492). -/
  | ci3c (cmd : Word) (data : List Byte)
  | ci3cAssign (dev addr : Nat)
  /-- A transaction on the flash port: XSPI_CMD, XSPI_ADDR and the bytes sent (R496). -/
  | xspi (cmd addr : Word) (data : List Byte)
deriving DecidableEq, Repr

/-- What the station holds beside the BEAM and COT registers: the beam itself (R19 to R22), beam lock (R49 to R60), the
wall vote (R61 to R64) and the split pair (R66, R67). -/
structure BeamSt where
  /-- A write of zero to RUN waits for the next 0:0 of sub-frame 0 (R19). -/
  stopReq : Bool
  /-- The wall-time beam position. -/
  pos : BPos
  /-- The 64-bit frame counter (R525). -/
  frame : Nat
  /-- What has passed of the dot at `pos`: in ps times the dots of a frame (R527). -/
  dotAcc : Nat
  /-- Consecutive marks or reference events with a phase error within 2 ns in ACQUIRE (Table 2.3). -/
  good : Nat
  /-- Marks already forwarded, by FRAME and POS (R50). -/
  seen : List (Nat × BPos)
  /-- HOPS of the last valid mark of the ring ports and of the trunk-in; none while a port delivers none (R52). -/
  hopsA : Option Nat
  hopsB : Option Nat
  hopsT : Option Nat
  /-- The last 16 link delays of each hop, in ps, newest first (R51). -/
  delayA : List Int
  delayB : List Int
  delayTA : List Int
  delayTB : List Int
  /-- RATE of the last source mark, or the rate of the reference, in ppb, and the frequency offsets of the last 16 frames (R55, R56). -/
  srcRate : Int
  freqs : List Int
  /-- The phase term applied to the present frame, in ps (R55). -/
  phaseTerm : Int
  /-- A step is due at the next 0:0 of sub-frame 0 (R55). -/
  stepDue : Bool
  /-- The source port has changed and no mark of the new source has been used yet (R52). -/
  switched : Bool
  /-- FRAME and POS of the last source mark with its time, for a step (R525). -/
  srcFrame : Nat
  srcPos : BPos
  /-- The last good placement: WALLX, WALLY, WALLW, WALLH (R47). -/
  place : Nat × Nat × Nat × Nat
  /-- The FSYNC_OUT pin (R60). -/
  fsyncOut : Bool
  /-- This sub-frame's own vote, the merged counts, the hops heard, whether the record has left, and the decision held
  for SWAPSTART:0 (R62 to R64). -/
  vote : Option Bool
  counted : Nat
  ready : Nat
  heard : List Hop
  sent : Bool
  decision : Option Bool
  /-- The partner's and this station's confirmation positions (R67), whether a split pair is formed, and whether it disagrees (R66). -/
  partnerPos : Option BPos
  ownPos : Option BPos
  paired : Bool
  pairBad : Bool
  /-- The position at which triggers last fired, and the Reel channels they started there (R32). -/
  trigAt : Nat × BPos
  trigRun : List Nat
  /-- The PTP time-receiver: best Announce, Sync times t1 and t2, Delay_Req time t3, mean path delay, in ns (R59). -/
  ptpBest : Option Announce
  ptpT1 : Int
  ptpT2 : Int
  ptpT3 : Int
  ptpDelay : Int
deriving DecidableEq, Repr

def BeamSt.reset : BeamSt :=
  { stopReq := false, pos := ⟨0, 0, 0⟩, frame := 0, dotAcc := 0, good := 0, seen := [], hopsA := none, hopsB := none,
    hopsT := none, delayA := [], delayB := [], delayTA := [], delayTB := [], srcRate := 0, freqs := [], phaseTerm := 0,
    stepDue := false, switched := false, srcFrame := 0, srcPos := ⟨0, 0, 0⟩, place := (0, 0, 0xFFFFF, 0xFFFFF), fsyncOut := false,
    vote := none, counted := 0, ready := 0, heard := [], sent := false, decision := none, partnerPos := none,
    ownPos := none, paired := false, pairBad := false, trigAt := (0, ⟨0, 0, 0⟩), trigRun := [],
    ptpBest := none, ptpT1 := 0, ptpT2 := 0, ptpT3 := 0, ptpDelay := 0 }


/-- One request in a port's stream window: not yet accessed, or completed and not yet retired (R27). -/
structure Pend where
  port : Nat
  req : PortReq
  done : Bool
deriving DecidableEq, Repr

/-- A master's write to main SRAM that waits for the end of the start-up march (R82). -/
structure HeldW where
  port : Nat
  addr : Nat
  mask : Nat
  data : Nat
deriving DecidableEq, Repr

/-- An answer on its way to a port (R71). -/
structure Ret where
  port : Nat
  addr : Nat
  code : Nat
  data : Nat
deriving DecidableEq, Repr

/-- The steps of a job of the march test engine (R77, R83, R84; MRC_JOB.STATE). -/
inductive JobStep where
  | migrateOut
  | test
  | migrateBack
  | spare
deriving DecidableEq, Repr

/-- A job of the march test engine: a sparing migration, a preserving request or a destroying request. -/
structure Job where
  step : JobStep
  /-- A request's MODE is destroying (R84). -/
  destroying : Bool
  lbank : Nat
  src : Nat
  dst : Nat
  /-- The migration has set MIRROR and MIREN. -/
  started : Bool
  /-- Words copied, or accesses made in a march (MRC_PROGRESS), and the copy read in flight: its word index and whether a mirrored write
  cancelled it (R78). -/
  copied : Nat
  read : Option (Nat × Bool)
deriving DecidableEq, Repr

/-- What the memory fabric holds beside its registers and memories. -/
structure FabSt where
  /-- The requests of every port, oldest first. -/
  pend : List Pend
  /-- The best-effort port served last at each bank (R29); an unlisted bank has served none. -/
  rr : List (Nat × Nat)
  /-- The answers on their way. -/
  rets : List Ret
  /-- Word addresses whose corrected word waits to be written back (R73). -/
  wb : List Nat
  /-- The scrub address, in 512-byte runs (R75). -/
  scrub : Nat
  /-- The march test engine's job and the migrations and requests queued (R80). -/
  job : Option Job
  jobs : List Job
  /-- The copy that a migration writes, by main SRAM address: bytes and error marks of the destination bank. -/
  dest : List Host.Cell
  destEcc : List (Nat × Upset)
  /-- Error marks of stored words, by the key of their first byte. -/
  ecc : List (Nat × Upset)
  /-- The start-up march runs (R82), and the writes that wait for it. -/
  marching : Bool
  held : List HeldW
  /-- Too many banks failed: the station does not leave boot (R82). -/
  bootStopped : Bool
  /-- A wipe of secure SRAM runs (R86), and the writes that wait for it: address and bytes. -/
  wiping : Bool
  stalled : List (Nat × List Byte)
  /-- Words granted to each port in the present window of 65,536 FCLK (COT_PORTp_WORDS). -/
  words : List (Nat × Nat)
deriving DecidableEq, Repr

def FabSt.reset : FabSt :=
  { pend := [], rr := [], rets := [], wb := [], scrub := 0, job := none, jobs := [], dest := [], destEcc := [], ecc := [],
    marching := true, held := [], bootStopped := false, wiping := false, stalled := [], words := [] }


/-- A raster write in the queue or the log: the engine and its place in the engine's order, the frame, sub-frame and position
it is made at, the register or palette word written, and the value (R145). -/
structure RasterW where
  eng : Nat
  seq : Nat
  frame : Nat
  sf : Nat
  line : Nat
  dot : Nat
  target : Nat
  value : Word
deriving DecidableEq, Repr

/-- A raster write in the log: its effect line, whether it is applied, and the register or palette word it changed with the
value it replaced (R147). -/
structure LogEntry where
  w : RasterW
  applied : Bool
  old : List (Nat × Word)
  frame : Nat
  sf : Nat
  line : Nat
deriving DecidableEq, Repr

/-- A started line of a frame in composition: its place in the ring, and how far it has come. -/
structure QLine where
  frame : Nat
  sf : Nat
  line : Nat
  /-- The ring slot, and the address of its first byte (R139). -/
  slot : Nat
  addr : Nat
  composed : Bool
  confirmed : Bool
  /-- The lane whose write of its data to the ring received an error response (R139, Table 5.6). -/
  ringErr : Option Nat
  /-- The blend results of its pixels, nine bytes each, for SCENE checksums (R216, R217). -/
  scene : List Byte
  /-- The confidence monitor has sent it, dropped it or does not want it (R139, R154). -/
  monDone : Bool
deriving DecidableEq, Repr

/-- A frame, or sub-frame, that has been started and not yet swapped, held or discarded. -/
structure QFrame where
  frame : Nat
  sf : Nat
  /-- The structure and commit-group values of the Quadrille and the signature unit it is composed and checked with (R35,
  R155), and its layers' bank registers. -/
  regs : List (Nat × Word)
  /-- The buffer each streamed slot shows, and the sprite tables, in slot order (R118, R131). -/
  shows : List (Option Nat)
  sprites : List (List (Option Nat))
  /-- The raster registers as they stood before line 0 of this sub-frame took their base values (R145). -/
  before : List (Nat × Word)
  /-- The section is in section Pavane in this frame (R226). -/
  sect : Bool
deriving DecidableEq, Repr

/-- The state of one buffer of a streamed plane (R118). `inUse` is a buffer that has stopped showing and is still in use. -/
inductive PlaneBuf where
  | free
  | filling
  | ready
  | showing
  | inUse
deriving DecidableEq, Repr

/-- What the Quadrille holds of one layer slot beside its registers. -/
structure LayerSt where
  bufs : List PlaneBuf
  /-- PNUM of the plane being filled, whether it has a buffer, and the bytes of the plane not yet written. -/
  fillTag : Option Nat
  fillLeft : Nat
  /-- PNUM of the last plane started (R280). -/
  lastTag : Option Nat
  /-- The frames whose late fences are open, oldest first, and the frame whose late fence has ended without a flip (R143). -/
  lateOpen : List Nat
  lateGone : Option Nat
  /-- The frame whose swap or hold ends the use of the other bank (R141), and of the buffers that stopped showing (R118). -/
  busyUntil : Option Nat
  bufsUntil : Option Nat
  /-- The sprite table read for the frame: each entry's 16 bytes as a number, with bit 128 set where the limits keep it
  off, or none where its read failed (R110, R131). -/
  sprites : List (Option Nat)
deriving DecidableEq, Repr

def emptyLayer : LayerSt :=
  { bufs := [.free, .free, .free], fillTag := none, fillLeft := 0, lastTag := none, lateOpen := [], lateGone := none, busyUntil := none,
    bufsUntil := none, sprites := [] }

/-- The Quadrille: the frames in composition, the composed line ring, the raster queue and log (R139 to R151). -/
structure QdlSt where
  /-- A next line to start exists: its frame, sub-frame and line. -/
  active : Bool
  frame : Nat
  sf : Nat
  next : Nat
  /-- The last frame whose commit mark has passed (R36); none before the first. -/
  mark : Option Nat
  /-- Composition waits for the next commit mark after it was enabled (R151). -/
  waitMark : Bool
  /-- The frames and sub-frames started and not yet ended, oldest first. -/
  frames : List QFrame
  lines : List QLine
  ringNext : Nat
  /-- Base, slots and slot stride of the ring that took the last line started (R155). -/
  ringKey : Nat × Nat × Nat
  queue : List RasterW
  log : List LogEntry
  layers : List LayerSt
  /-- LAYn_ESTAT bits already set in a frame (R526), as frame, slot and bit; slot 12 stands for QDL_STAT. -/
  seen : List (Nat × Nat × Nat)
  /-- The frame on show and its sub-frame. -/
  shown : Option (Nat × Nat)
  /-- The frame ended last: its sprite tables serve sound objects bound to them (R259). -/
  ended : Option QFrame
deriving DecidableEq, Repr

def QdlSt.reset : QdlSt :=
  { active := false, frame := 0, sf := 0, next := 0, mark := none, waitMark := false, frames := [], lines := [], ringNext := 0,
    ringKey := (0, 0, 0), queue := [], log := [], layers := List.replicate 12 emptyLayer, seen := [], shown := none, ended := none }

/-- A timed write that waits for the wall-time beam (R174): the engine that issued it, its frame and position, its write space
and address (Table 6.5), its data, and whether its position had already passed when it was issued. -/
structure TimedW where
  eng : Nat
  frame : Nat
  pos : BPos
  space : Nat
  addr : Nat
  data : Word
  late : Bool
deriving DecidableEq, Repr

/-- Where an engine stands in the word it is at: before it, in its wait (COND or CONDPOS on a real-time input, SYNC), in the wait
for a JCOND sample (R168), with its LD outstanding, or stalled at its write (R173). `w` is the word; `c` the condition that
ended its wait. -/
inductive Stage where
  | ready
  | cond (w : Nat)
  | sync (w : Nat)
  | load (w addr : Nat) (c : Option Bool)
  | stall (w : Nat) (c : Option Bool)
  | sample (w : Nat)
deriving DecidableEq, Repr

/-- A Minuet engine beside its registers. -/
structure EngSt where
  /-- Its engine position (R157). -/
  frame : Nat
  pos : BPos
  stack : List Nat
  /-- Its copies of the eight events (R171). -/
  evts : Word
  stage : Stage
  /-- The slots of the v1 layers, taken at frame entry (R182, R424). -/
  v1map : Word
deriving DecidableEq, Repr

def emptyEngine : EngSt :=
  { frame := 0, pos := ⟨0, 0, 0⟩, stack := [], evts := 0, stage := .ready, v1map := 0x3210 }

/-- The Minuet. -/
structure MntSt where
  engines : List EngSt
  /-- Raster writes issued that have not yet entered the raster queue, oldest first. -/
  issued : List RasterW
  /-- The number of the next raster write. -/
  seq : Nat
  timed : List TimedW
  /-- Parts collected of beam store words, by address (R180). -/
  parts : List (Nat × Word)
  /-- The scrubber's word (R181). -/
  scrub : Nat
  /-- The FSYNC_IN pin, after synchronisation (input 32). -/
  fsync : Bool
  /-- The frame and position at which the beam last set Gavotte flags, and those flags (R170). -/
  flagAt : Nat × BPos
  flagSet : Word
deriving DecidableEq, Repr

def MntSt.reset : MntSt :=
  { engines := List.replicate 8 emptyEngine, issued := [], seq := 0, timed := [], parts := [], scrub := 0, fsync := false,
    flagAt := (0, ⟨0, 0, 0⟩), flagSet := 0 }

/-- A panel unit whose run has begun in the present frame (R195, R196). -/
structure UnitSt where
  port : Nat
  row : Nat
  ch : Nat
  /-- Its run has not ended, or Reel has not completed its writes. -/
  running : Bool
  /-- It has been sent and not marked not sent since. -/
  sent : Bool
  delivered : Bool
  /-- The words of each data line of the port or locked pair, in slot order, while it runs. -/
  words : List (List Nat)
  /-- The word last sent on each of them before its run. -/
  before : List Nat
deriving DecidableEq, Repr

/-- An instant at which blanking by a cause starts or ends, SWAPLAT after the write, deadline or swap that set it (R210). -/
inductive BlankEv where
  | req (on : Bool)
  | hold (on : Bool)
deriving DecidableEq, Repr

/-- One segment in a pair's line FIFO (R207). -/
structure Seg where
  pair : Nat
  line : Nat
  landed : Bool
  /-- Its fetch received an error response: it is taken as zero codes (R209). -/
  err : Bool
  data : List Byte
deriving DecidableEq, Repr

/-- A queued command request and the ports it is still to be sent on (R211). -/
structure CmdReq where
  cmd : Nat
  data : Nat
  ports : List Nat
deriving DecidableEq, Repr

/-- The scan-out of one direct port: the plane-row in its output latch, the one last shifted, and the prefetch buffer. -/
structure ScanSt where
  port : Nat
  row : Nat
  plane : Nat
  latch : List Byte
  shifted : List Byte
  fetched : List (Nat × Nat × List Byte)
deriving DecidableEq, Repr

/-- The panel block (R185 to R214). -/
structure PnlSt where
  /-- The map RAM: 65,536 entries (R191). -/
  map : List (Nat × Word)
  units : List UnitSt
  /-- By port: one more than the number of the last unit sent in the present frame. -/
  lastUnit : List (Nat × Nat)
  /-- By 8 × port + data line: the word last sent. -/
  lastWord : List (Nat × Nat)
  segs : List Seg
  queue : List CmdReq
  /-- Blanking in force by REQ and by a held sub-frame, and the instants still to come, in their order (R210). -/
  reqOn : Bool
  holdOn : Bool
  blankDue : List BlankEv
  /-- A swap has been made and its SWAP is still to be sent; the stores have not exchanged since (R201, R202). -/
  swapDue : Bool
  exchangeDue : Bool
  /-- The store bases last found to agree (R206). -/
  fsGood : Nat × Nat
  /-- Row and enable of each scan group, apart from blanking. -/
  groups : List (Nat × Bool)
  scans : List ScanSt
  /-- PNL_PORTp_STAT.SPAN of each port, found at the last structure-set swap (R193). -/
  spans : List Nat
  /-- PNL_DIRTIM and PNL_GCLK of the refresh in progress, where a swap has changed the timing since it began (R214). -/
  oldTim : Option (Word × Word)
  /-- The new grid has no point in common with the old; the old refresh has ended and the new grid has not begun: outputs are dark (R214). -/
  gridSplit : Bool
  dark : Bool
deriving DecidableEq, Repr

def PnlSt.reset : PnlSt :=
  { map := [], units := [], lastUnit := [], lastWord := [], segs := [], queue := [], reqOn := false, holdOn := false,
    blankDue := [], swapDue := false, exchangeDue := false, fsGood := (0, 0),
    groups := List.replicate 8 (0, false), scans := [], spans := List.replicate 32 0, oldTim := none, gridSplit := false, dark := false }

/-- The check of one region in one frame and sub-frame (R215 to R223). -/
structure SigCheck where
  region : Nat
  frame : Nat
  sf : Nat
  /-- The next line to fold, and the CRC so far, not yet inverted. -/
  next : Nat
  crc : Nat
  /-- The outcome decided: passed or not, and the checksum. -/
  decided : Option (Bool × Nat)
  /-- A substitution is due, and is done (R223). -/
  subDue : Bool
  subDone : Bool
  /-- Every line folded so far has been copied into the keep half that is not current (R224). -/
  copied : Bool
  /-- The region skips this pass: its lines are copied and nothing is checked (R218, R224). -/
  skip : Bool
  /-- It was decided before a request put its region in Pavane, so it counts nothing there (R225). -/
  early : Bool
deriving DecidableEq, Repr

/-- The signature unit. -/
structure SigSt where
  checks : List SigCheck
  /-- The HELLO or census state of R46 holds the station in section Pavane. -/
  misplaced : Bool
deriving DecidableEq, Repr

def SigSt.reset : SigSt := { checks := [], misplaced := false }


/-- A direct write that waits for the next beam sample, with the FCLK it was made in (R232 step 2). -/
inductive SndWrite where
  | keyOn (at_ n : Nat) (bits : Word)
  | keyOff (at_ n : Nat) (bits : Word)
  | node (at_ : Nat) (v : Word)
deriving DecidableEq, Repr

/-- One decoded ADPCM sample: its index, its value and the step index after it (R234). -/
structure Nib where
  n : Nat
  v : Int
  idx : Nat
deriving DecidableEq, Repr

/-- A voice beside its registers: what it took at its key-on, its position, and the words fetched (R233 to R240). -/
structure VoiceSt where
  fmt : Nat
  start : Nat
  len : Nat
  loops : Nat
  loope : Nat
  /-- A key-off has been taken since the key-on. -/
  keyedOff : Bool
  /-- The position, 24 integer and 16 fraction bits (R236). -/
  pos : Nat
  /-- The last output sample (R239). -/
  last : Int
  /-- The words held: address and data. -/
  words : List (Nat × Nat)
  /-- ADPCM samples decoded, newest first. -/
  dec : List Nib
deriving DecidableEq, Repr

def emptyVoice : VoiceSt :=
  { fmt := 0, start := 0, len := 0, loops := 0, loope := 0, keyedOff := false, pos := 0, last := 0, words := [], dec := [] }

/-- A pending change of a node: output, input, the value it will take and the samples that have passed since it became pending (R246). -/
structure ZcPend where
  o : Nat
  i : Nat
  value : Word
  waited : Nat
deriving DecidableEq, Repr

/-- One biquad: the coefficients in force, those collected for the next block start, and its state (R250). -/
structure Biquad where
  coef : List Int
  next : Option (List Int)
  x1 : Int
  x2 : Int
  y1 : Int
  y2 : Int
deriving DecidableEq, Repr

def emptyBiquad : Biquad := { coef := [0, 0, 0, 0, 0], next := none, x1 := 0, x2 := 0, y1 := 0, y2 := 0 }

/-- An output chain (R249 to R253): its biquads, the delay in force and the delay line (newest first), the look-ahead (oldest
first), the limiter's gain and the dither register. -/
structure ChainSt where
  biquads : List Biquad
  delay : Nat
  line : List Int
  ahead : List Int
  gain : Nat
  lfsr : Word
deriving DecidableEq, Repr

def emptyChain (o : Nat) : ChainSt :=
  { biquads := List.replicate 10 emptyBiquad, delay := 0, line := [], ahead := [], gain := 65536, lfsr := BitVec.ofNat 32 (1 + o) }

/-- The Sarabande. -/
structure SndSt where
  /-- The count K of the next beam sample (R230). -/
  k : Nat
  /-- Direct writes made since the last sample, and what tells their FCLKs apart: a count, and the instant of the last timed write (R232). -/
  writes : List SndWrite
  stamp : Nat
  stampAt : Option (Nat × BPos)
  voices : List VoiceSt
  zc : List ZcPend
  /-- The crosspoint inputs of the last sample (R246). -/
  prev : List Int
  /-- The samples of the present block, oldest first: the K of each, the 48 crosspoint outputs, and the renderer's 48 target sums. -/
  block : List (Nat × List Int × List Int)
  /-- The object bus results of the last block: 16 samples of 16 buses (R247). -/
  buses : List (List Int)
  chains : List ChainSt
  /-- Samples that the output chains have taken since the last restart: an output sends zero until those have passed through (R256). -/
  fed : Nat
  /-- Status bits set in the present block, by bit and channel (R526). -/
  seen : List (Nat × Nat)
deriving DecidableEq, Repr

def SndSt.reset : SndSt :=
  { k := 0, writes := [], stamp := 0, stampAt := none, voices := List.replicate 64 emptyVoice, zc := [], prev := List.replicate 128 0, block := [],
    buses := [], chains := (List.range 32).map emptyChain, fed := 0, seen := [] }


/-- One pair of an object and a target that is rendered: where its delay and gain move from and to, and the ramp's place
(R261, R262). -/
structure PairSt where
  c : Nat
  t : Nat
  delay0 : Int
  delay1 : Int
  gain0 : Int
  gain1 : Int
  /-- Samples of the ramp done, and its length L. -/
  k : Nat
  len : Nat
deriving DecidableEq, Repr

/-- One object: its delay line (newest first), its last position, its mute factor and whether it was enabled. -/
structure ObjectSt where
  line : List Int
  pos : Option (Int × Int × Int)
  mute : Nat
  en : Bool
deriving DecidableEq, Repr

def emptyObject : ObjectSt := { line := [], pos := none, mute := 65536, en := false }

/-- The sound object renderer (R258 to R263). -/
structure ObjSt where
  objects : List ObjectSt
  pairs : List PairSt
  /-- The next update takes effect at once: the beam has stepped (R262). -/
  stepped : Bool
  /-- Beam samples that a step has skipped since the last sample taken: the delay lines have no sample for them. -/
  gap : Nat
  /-- Status bits set in the present block, by bit and object (R526). -/
  seen : List (Nat × Nat)
deriving DecidableEq, Repr

def ObjSt.reset : ObjSt := { objects := List.replicate 32 emptyObject, pairs := [], stepped := false, gap := 0, seen := [] }


/-- One hop: the ring or Ethernet hop of a port, or the trunk hop on its lane 3 (R282 to R302). Its training state, version,
lanes and features are the fields of AKx_LINK or AKx_TRUNK. -/
structure HopSt where
  /-- The version whose rate the idle blocks of DOWN have (R282). -/
  idleVer : Nat
  /-- Lanes with block lock. -/
  locked : List Nat
  /-- A KEY failure waits for its retry (Table 11.6). -/
  failed : Bool
  /-- The SEQ and the 64 bytes of the HELLO sent, whether the peer has acknowledged it, and the peer's HELLO. -/
  helloSeq : Nat
  helloRec : Nat
  helloAcked : Bool
  peer : Option Hello
  maxpay : Nat
  /-- Keys installed so far, the key phase sent, and a KEYX of this station that waits for the peer's, with the number of its key pair
  (R285). -/
  keys : Nat
  kp : Bool
  rekey : Bool
  eph : Nat
  /-- Key and IV salt of each direction, and of the sending direction before the last change with its counter then, kept until every frame
  sealed under it is acknowledged (R285). -/
  txKey : Nat
  rxKey : Nat
  oldKey : Option (Nat × Nat)
  /-- Counters of the next frame of classes 1 to 5 and of class 0, and what was received last (R285, R287). -/
  tx : Nat
  tx0 : Nat
  rx : Nat
  rx0 : Option Nat
  /-- A frame after the last one accepted failed (R287). -/
  nak : Bool
  /-- The egress replay buffer, oldest first (R287). -/
  replay : List Frame
  /-- Frames that wait for credit or room: whether each is in transit, and the frame. -/
  wait : List (Bool × Frame)
  /-- The deficit round robin: the class served, and the deficits of classes 2 to 5, in bytes (R294). -/
  cur : Nat
  deficit : List Nat
  /-- Credit held towards the peer, and credit still to be returned to it, in 64-byte units (R288). -/
  credit : Nat
  owed : Nat
  /-- The break suspected (R295), and RF in the peer's LCBs. -/
  suspect : Bool
  peerRf : Bool
  /-- CRC errors of each lane in the present window, and the lanes that have held lock through it without one (R300, R301). -/
  crcWin : List Nat
  clean : List Nat
  /-- Link control blocks sent on each lane, modulo 4,096 (BCNT, R274). -/
  bcnt : Nat
deriving DecidableEq, Repr

def emptyHop : HopSt :=
  { idleVer := 2, locked := [], failed := false, helloSeq := 0, helloRec := 0, helloAcked := false, peer := none, maxpay := 2048, keys := 0,
    kp := false, rekey := false, eph := 0, txKey := 0, rxKey := 0, oldKey := none, tx := 0, tx0 := 0, rx := 0, rx0 := none,
    nak := false, replay := [], wait := [], cur := 2, deficit := [0, 0, 0, 0], credit := 0, owed := 0, suspect := false, peerRf := false, crcWin := [0, 0, 0, 0], clean := [], bcnt := 0 }

/-- One entry of a census (R286): station ID, versions of its port A and port B hops, and their features. -/
structure CEntry where
  id : Nat
  verA : Nat
  verB : Nat
  featA : Nat
  featB : Nat
deriving DecidableEq, Repr

/-- The Aketh fabric of the station (R273 to R309). -/
structure LinkSt where
  ringA : HopSt
  ringB : HopSt
  trunkA : HopSt
  trunkB : HopSt
  /-- The station's next ring sequence number (R290), and by sequence number the trunks that a frame it injected came from or went down,
  on which it is never copied again (R293). -/
  ringSeq : Nat
  injected : List (Nat × List Hop)
  /-- The acceptance table: ring position and the last RSEQ accepted from it (R290). -/
  accepted : List (Nat × Nat)
  /-- The last DONE census and its CLOSED bit (R286). -/
  census : List CEntry
  closed : Bool
  /-- The breaks known: ring position and dead port (R295, R296). -/
  breaks : List (Nat × Nat)
  /-- Turnarounds due: the dead port, and the frames of its replay buffer and its waiting frames (R296). -/
  turnDue : List (Nat × List Frame)
  /-- The station found its own ID in the census it appended to (R46). -/
  dup : Bool
deriving DecidableEq, Repr

def LinkSt.reset : LinkSt :=
  { ringA := emptyHop, ringB := emptyHop, trunkA := emptyHop, trunkB := emptyHop, ringSeq := 0, injected := [], accepted := [], census := [],
    closed := false, breaks := [], turnDue := [], dup := false }

/-- Whether a core runs (R310, R330, R334, R411, R466). -/
inductive CoreRun where
  /-- Held in reset (CLK_GVCTL, R411). -/
  | held
  | run
  /-- In WAIT, its clock stopped (R334). -/
  | wait
  /-- Halted by the debug block (R468). -/
  | halt
  /-- Stopped by a double fault (R330). -/
  | stopped
deriving DecidableEq, Repr

/-- A result that is still to be written: its register and value, the frame words that stacked the register while it was pending
(R332), and, for a load, its error code with what BUSERR records: FPC, FADDR and FINFO (R322). -/
structure GvResult where
  /-- It is a load's. -/
  load : Bool
  rd : Nat
  value : Word
  frames : List Nat
  code : Nat
  pc : Nat
  addr : Nat
  info : Word
deriving DecidableEq, Repr

/-- A posted store whose response has not arrived (R324), and the bytes still to be written: none once it is made. -/
structure GvStore where
  code : Nat
  pc : Nat
  addr : Nat
  info : Word
  todo : List Byte
deriving DecidableEq, Repr

/-- What a commit word does beside its access: a second register write, the PC it writes and whether that follows the delay slot, the
RW fields of ST, and a skip (Table 13.4). -/
structure GvFinish where
  d2 : Option (Nat × Word)
  pc : Option (Nat × Bool)
  st : Option Word
  skip : Bool
deriving DecidableEq, Repr

/-- A locked access to main SRAM that waits for its grant (R327, R345): the operation of Table 13.4, its destination if it has one, its
address, operand and comparand. -/
structure GvAtomic where
  op : Nat
  rd : Option Nat
  addr : Nat
  rb : Word
  cmp : Word
  fin : GvFinish
deriving DecidableEq, Repr

/-- An exception's record: FPC, FADDR and FINFO. -/
structure GvFault where
  pc : Nat
  addr : Nat
  info : Word
deriving DecidableEq, Repr

/-- A core: GV0, GV1 or the Allemande (R310, R311). -/
structure CoreSt where
  run : CoreRun
  g : List Word
  pc : Nat
  st : Word
  cyc : Nat
  cychi : Word
  evbase : Word
  fpc : Word
  faddr : Word
  finfo : Word
  dtx : Word
  drx : Word
  /-- In a delay slot: the branch's address and its target (R316, R318). -/
  slot : Option (Nat × Nat)
  /-- Words read ahead: address, error code of the fetch, and the word (R326). -/
  ahead : List (Nat × Nat × Word)
  results : List GvResult
  stores : List GvStore
  atomic : Option GvAtomic
  /-- A deferred bus error not yet taken (R322, R330). -/
  buserr : Option GvFault
  /-- An uncorrectable control-store word has been met, in an entry routine or not, and CSUE is not yet taken (R352). -/
  csue : Option Bool
  /-- The next boundary raises no breakpoint: it was released from there (R470). -/
  passBreak : Bool
  /-- A halt is due at the next boundary: its cause and the watchpoint's number (Table 20.3). -/
  stopDue : Option (Nat × Nat)
  /-- The core runs its monitor (R471). -/
  monitor : Bool
  /-- A step has been released: the core halts after one instruction (R473). -/
  stepping : Bool
deriving DecidableEq, Repr

def emptyCore : CoreSt :=
  { run := .held, g := List.replicate 16 0, pc := 0, st := 0, cyc := 0, cychi := 0, evbase := 0x100, fpc := 0, faddr := 0, finfo := 0,
    dtx := 0, drx := 0, slot := none, ahead := [], results := [], stores := [], atomic := none, buserr := none, csue := none,
    passBreak := false, stopDue := none, monitor := false, stepping := false }

/-- The cores and the load engine of their control stores (R335 to R354). -/
structure GvSt where
  gv0 : CoreSt
  gv1 : CoreSt
  al : CoreSt
  /-- The load in progress: store, region, and the words it installs. -/
  load : Option (Nat × Nat)
  /-- A load that passed and waits for its swap: store, region and version (R350, R353). -/
  loaded : List (Nat × Nat × Nat)
  /-- A swap waits for both cores to quiesce: the stores named (R353). -/
  swap : List Nat
  /-- Stores whose new shadow is being mirrored. -/
  mirror : List Nat
  /-- The scrubber's word (R351). -/
  scrub : Nat
deriving DecidableEq, Repr

def GvSt.reset : GvSt := { gv0 := emptyCore, gv1 := emptyCore, al := emptyCore, load := none, loaded := [], swap := [], mirror := [], scrub := 0 }


/-- A job of the block engine: its J registers as BLK_PUSH copied them (R371, Table 14.9). -/
structure BlkJob where
  ctrl : Word
  src : Nat
  dst : Nat
  sstride : Nat
  dstride : Nat
  w : Nat
  h : Nat
  fill : Nat
  key : Nat
  keymask : Nat
  wm : Nat
deriving DecidableEq, Repr

/-- The block engine (R371 to R378): the queue, the job that runs with the clip pair it uses, and how far it has come. -/
structure BlkSt where
  queue : List BlkJob
  run : Option BlkJob
  clip : Nat × Nat
  /-- The rows whose bursts have all been issued, and the pixels issued of the next row. -/
  row : Nat
  px : Nat
  /-- The dead time of the last burst is over. -/
  ready : Bool
  /-- An access has received an error response: its code and address. -/
  err : Option (Nat × Nat)
  /-- The held head job has been released. -/
  freed : Bool
  /-- The queue waits for ERR or JOBERR to be cleared. -/
  waits : Bool
deriving DecidableEq, Repr

def BlkSt.reset : BlkSt :=
  { queue := [], run := none, clip := (0x10000000, 0x13FFFFFF), row := 0, px := 0, ready := false, err := none, freed := false,
    waits := false }


/-- What a Reel channel does (Table 14.4, STATE). -/
inductive ReelStage where
  | idle
  | fetch
  | move
  | drain
deriving DecidableEq, Repr

/-- A beat whose response has not arrived: its address, its error code, the bytes a read brings, and the bytes of a write that is made with its
response. -/
structure ReelOut where
  addr : Nat
  code : Nat
  data : List Byte
  todo : List Byte
deriving DecidableEq, Repr

/-- A Reel channel beside its registers (R356 to R369). -/
structure ReelCh where
  stage : ReelStage
  /-- The descriptor as far as it has landed, and its beats issued. -/
  desc : List Byte
  beats : Nat
  /-- Descriptors fetched in the present frame (R367). -/
  fetched : Nat
  /-- Bytes of the descriptor read, and written, so far; the staging buffer; the beats in flight, oldest first. -/
  rd : Nat
  wr : Nat
  buf : List Byte
  outs : List ReelOut
  /-- The stop that waits for the outstanding responses: STOP, CODE and EADDR. -/
  stop : Option (Nat × Nat × Nat)
  /-- It was in service and a channel of higher priority took its beat (R362). -/
  preempted : Bool
  /-- Its last good urgent window (R363). -/
  win : BPos × BPos
deriving DecidableEq, Repr

def emptyReel : ReelCh :=
  { stage := .idle, desc := [], beats := 0, fetched := 0, rd := 0, wr := 0, buf := [], outs := [], stop := none, preempted := false,
    win := (⟨0, 0, 0⟩, ⟨0, 0, 0⟩) }

/-- Reel: its channels, and the channel in service, or served last, at each port and priority: 4 × port + priority (R362). -/
structure ReelSt where
  chans : List ReelCh
  serving : List (Nat × Nat)
deriving DecidableEq, Repr

def ReelSt.reset : ReelSt := { chans := List.replicate 32 emptyReel, serving := [] }


/-- What the interrupt controller, the timers and the watchdogs hold beside their registers. -/
structure IrqSt where
  /-- Wake slots that fired and have not yet delivered their arrival (R388). -/
  wakePend : Word
  /-- The first half of each watchdog's key has been written (R395). -/
  key0 : Bool
  key1 : Bool
  keyM : Bool
  /-- The compare value in force of each timer; TMRn_CMP takes the place of it at the next tick (R391). -/
  cmpInForce : List (Nat × Word)
  /-- Sources active, by target and level (R385). -/
  active : List (Nat × Nat × Nat)
  /-- Master events that take effect in the next FCLK: the slave timers they act on (R393). -/
  masterDue : List Nat
deriving DecidableEq, Repr

def IrqSt.reset : IrqSt :=
  { wakePend := 0, key0 := false, key1 := false, keyM := false, cmpInForce := [], active := [], masterDue := [] }


/-- Clocks, power and reset (R399 to R413). -/
structure PwrSt where
  /-- The power manager's state, 0 RUN to 5 DEEP (Table 16.3). -/
  state : Nat
  /-- A wake has been started (R408). -/
  waking : Bool
  /-- The supplies are in range, and the internal reset is released (R410). -/
  supplyOk : Bool
  released : Bool
  /-- The core clocks are held while the clock tree switches (R401). -/
  held : Bool
  /-- The beam runs from the fractional divider of FCLK (R402). -/
  beamDiv : Bool
  /-- REF25 runs (R402); XO32 runs (R518). -/
  ref25 : Bool
  xo32 : Bool
  /-- The audio PLL has lost lock (R402). -/
  audioLost : Bool
  /-- FCLK in which the present sleep began (R409). -/
  since : Nat
  /-- FCLK cycles since the release of the internal reset, and the uptime in µs (R414). -/
  fclk : Nat
  uptime : Nat
  /-- The next word that each memory of Table 3.3 scrubs, as an index (R85). -/
  memScrub : List Nat
deriving DecidableEq, Repr

def PwrSt.reset : PwrSt :=
  { state := 0, waking := false, supplyOk := false, released := false, held := false, beamDiv := false, ref25 := false,
    xo32 := false, audioLost := false, since := 0, fclk := 0, uptime := 0, memScrub := [0, 0, 0, 0, 0, 0] }


/-- Images and structure sets (R415 to R428). -/
structure ImgSt where
  /-- Structure registers made active by a swap and not yet adopted by their blocks, with the active value (R424). -/
  staged : List (Nat × Word)
  /-- The slot table waits for the next round start only. -/
  slotDue : Bool
  /-- The pins adopt their set-ups at the next PCLK edge (R424). -/
  pinsDue : Bool
  /-- The command in progress, as IMG_CMD was written: VERIFY, SSVERIFY or LOAD, its source and its section. -/
  cmd : Option (Nat × Nat × Nat)
  /-- A STRUCT record named a locked pin during this verification (R487). -/
  lockHit : Bool
  /-- Byte ranges of the staging region written, from and to (R420). -/
  got : List (Nat × Nat)
  /-- Flash bytes that the port has read for the boot ROM or for the command in progress (R498). -/
  flash : List Host.Cell
  /-- KEYID and SVN of the image last verified (R421, R457); none while none has been. -/
  signed : Option (Nat × Nat)
  /-- A swap changed the beam's registers: the beam stops at the next 0:0 and restarts (R425). -/
  restart : Bool
  /-- The boot ROM waits for an image in staging, and takes the SESSION of the first chunk with OFFSET 0 (R419). -/
  bootWait : Bool
  anySession : Bool
deriving DecidableEq, Repr

def ImgSt.reset : ImgSt :=
  { staged := [], slotDue := false, pinsDue := false, cmd := none, lockHit := false, got := [], flash := [],
    signed := none, restart := false, bootWait := false, anySession := false }

/-- An event stamped and waiting in the recorder's queue (R438, Table 18.3). -/
structure Ev where
  secs : Word
  pcyc : Nat
  sub : Nat
  tunset : Bool
  code : Nat
  sev : Nat
  arg0 : Word
  arg1 : Word
  arg2 : Word
  arg3 : Word
deriving DecidableEq, Repr

/-- What the recorder keeps of the suppressed events of one code (R443). -/
structure Supp where
  code : Nat
  count : Nat
  inst : Word
  sev : Nat
  first : Word
  last : Word
deriving DecidableEq, Repr

/-- A stored record: its slot, sequence number and severity. The record itself lies in always-on SRAM. -/
structure Slot where
  slot : Nat
  seq : Word
  sev : Nat
deriving DecidableEq, Repr

/-- The event recorder (R437 to R445). -/
structure EvrSt where
  queue : List Ev
  /-- Events lost since the loss was last logged (R438, code 0x003). -/
  lost : Nat
  op : List Slot
  sec : List Slot
  /-- Security records stored since the class was cleared. -/
  secNext : Nat
  tokens : List (Nat × Nat)
  supp : List Supp
  /-- EVR_SECS and EVR_PCYC have been written (R437). -/
  secsSet : Bool
  pcycSet : Bool
  /-- The window's latch in progress: class and the number sought (R444). -/
  seek : Option (Nat × Word)
deriving DecidableEq, Repr

def EvrSt.reset : EvrSt :=
  { queue := [], lost := 0, op := [], sec := [], secNext := 0, tokens := [], supp := [], secsSet := false,
    pcycSet := false, seek := none }


/-- The sensors, the brightness unit and the mailboxes beside their registers (R429 to R435). -/
structure MgtSt where
  /-- TMAX has reached the warning, the critical threshold and not yet fallen 2 °C below it (R429). -/
  warn : Bool
  crit : Bool
  /-- Supplies, and ADC channels, outside their limits now (R430, R431). -/
  vout : List Nat
  aout : List Nat
  /-- The last conversions of each channel, newest first, and the sequencer's entry. -/
  hist : List (Nat × List Nat)
  entry : Nat
  /-- f and prev of the brightness unit (R432). -/
  f : Nat
  prev : Nat
deriving DecidableEq, Repr

def MgtSt.reset : MgtSt := { warn := false, crit := false, vout := [], aout := [], hist := [], entry := 0, f := 0, prev := 0 }


/-- The security block: OTP, key slots, tokens, challenges (R452 to R462). Public keys are numbers; private keys have no place in
the state, since no command returns anything of them. -/
structure SecSt where
  /-- OTP: the life-cycle state, the owner keys by slot, revoke bits, the debug key, the SVN floor. -/
  life : Nat
  owner : List (Option Nat)
  revoked : List Nat
  dbgKey : Option Nat
  svn : Nat
  /-- Fleet slots loaded (R458). -/
  fleet : List Nat
  /-- The command in progress: OP and ARG (R464). -/
  cmd : Option (Nat × Nat)
  /-- TLOCK (R460), and whether the active image has booted and passed R456 with it set. -/
  tlock : Bool
  bootPassed : Bool
  /-- KEYID and SVN of the active image (R455, R457); none while no image's structure set is active. -/
  signed : Option (Nat × Nat)
  /-- The debug level granted (R462). -/
  level : Nat
  /-- The challenge outstanding: LEVEL, and the path that asked for it (14-bit requester ID, 0x8000 for the host port). -/
  chal : Option (Nat × Nat)
  /-- A token verified: its LEVEL and the uptime in µs (R453). -/
  token : Option (Nat × Nat)
  /-- Consecutive failures, and a lockout in force (R461). -/
  fails : Nat
  locked : Bool
  /-- The uptime in µs at which the lockout ends (SEC_DBGFAIL). -/
  lockUntil : Nat
  /-- The cause of the wipe in progress, as code 0x302 records it. -/
  wipeCause : Nat
deriving DecidableEq, Repr

def SecSt.reset : SecSt :=
  { life := 0, owner := [none, none, none, none], revoked := [], dbgKey := none, svn := 0, fleet := [], cmd := none, tlock := false,
    bootPassed := false, signed := none, level := 0, chal := none, token := none, fails := 0, locked := false, lockUntil := 0,
    wipeCause := 2 }


/-- A DEBUG request's answer (Table 20.2). -/
structure DbgResp where
  tag : Nat
  status : Nat
  level : Nat
  count : Nat
  addr : Nat
  data : List Word
deriving DecidableEq, Repr

/-- The debug block (R465 to R476). -/
structure DbgSt where
  /-- The checks of a response that wait, oldest first: none for one begun by a write of DBG_AUTHCTL, else the DEBUG request's TAG, its
  ADDR, and the station that sent it, or none for the host port (R467, R468). -/
  verify : List (Option (Nat × Nat × Option Nat))
  /-- The host path's answer that waits to be read (R491). -/
  hostResp : Option DbgResp
deriving DecidableEq, Repr

def DbgSt.reset : DbgSt := { verify := [], hostResp := none }


/-- The pins of the PIN block (R479 to R488). -/
structure PinSt where
  /-- Levels at the pads of GP0 to GP47 after synchronisation, before INV. -/
  level : List Bool
  /-- Pads that hold through a switch: the level they drive, or none where they do not drive (R484). -/
  held : List (Nat × Option Bool)
  /-- Pads in their sleep state, as `held` (R485). -/
  asleep : List (Nat × Option Bool)
  /-- MATCH outputs that are high (R486). -/
  matchHi : List Nat
  /-- The pin of an open lock sequence (R487). -/
  lockSeq : Option Nat
  /-- The boot ROM holds ALERT_N low (R82, R419, R456). -/
  alert : Bool
deriving DecidableEq, Repr

def PinSt.reset : PinSt :=
  { level := List.replicate 48 false, held := [], asleep := [], matchHi := [], lockSeq := none, alert := false }

/-- The I3C host port (R489 to R491). -/
structure Hi3cSt where
  /-- The window pointer, and the outbound slot that private reads return with the next byte of it, if one is selected (R490). -/
  ptr : Nat
  slot : Option (Nat × Nat)
  /-- Maximum write and read lengths, by target: 0 main, 1 debug. -/
  mwl : List Nat
  mrl : List Nat
  /-- Events enabled (ENEC, DISEC): in-band interrupts and hot-join, by target. -/
  ibiOn : List Bool
  hjOn : List Bool
  /-- HDR-DDR mode (R489). -/
  hdr : Bool
  rstact : List Nat
  /-- In-band interrupts that wait: target and data bytes, oldest first (R491). -/
  ibis : List (Nat × List Nat)
  /-- The hot-join has been sent since reset. -/
  joined : Bool
deriving DecidableEq, Repr

def Hi3cSt.reset : Hi3cSt :=
  { ptr := 0, slot := none, mwl := [2064, 2064], mrl := [2048, 2048], ibiOn := [true, true], hjOn := [true, true], hdr := false,
    rstact := [0, 0], ibis := [], joined := false }

/-- The I3C cabinet port (R492): queued commands, the transmit and receive bytes, and accepted in-band interrupts. -/
structure Ci3cSt where
  cmds : List Word
  tx : List Byte
  rx : List Byte
  ibiq : List Word
  /-- The CI3C_DEVn entries whose addresses have been given (R492). -/
  used : List Nat
deriving DecidableEq, Repr

def Ci3cSt.reset : Ci3cSt := { cmds := [], tx := [], rx := [], ibiq := [], used := [] }

/-- The command engine of the xSPI port (R496, R497): the data FIFO, oldest byte first, the transaction in progress as XSPI_CMD was
written with the address it was started with, and a poll that waits for its next read. -/
structure XspiSt where
  fifo : List Byte
  run : Option (Word × Word)
  polling : Bool
deriving DecidableEq, Repr

def XspiSt.reset : XspiSt := { fifo := [], run := none, polling := false }


/-- The state of the block. -/
structure State where
  /-- Register values in force, by absolute address; an unlisted register holds its reset value. -/
  regs : List (Nat × Word)
  /-- Shadow copies of the SH fields (R8, R34, R423). -/
  shadow : List (Nat × Word)
  /-- In-flight copies of the commit groups (R34). -/
  latched : List (Nat × Word)
  /-- The addressed memories. -/
  mem : List Host.Cell
  /-- The answer of the last access. -/
  answer : Answer
  /-- How many free values have been drawn. -/
  fresh : Nat
  /-- What has been sent, oldest first. -/
  out : List Out
  beam : BeamSt
  fab : FabSt
  qdl : QdlSt
  mnt : MntSt
  pnl : PnlSt
  sig : SigSt
  snd : SndSt
  obj : ObjSt
  link : LinkSt
  gv : GvSt
  blk : BlkSt
  reel : ReelSt
  irq : IrqSt
  pwr : PwrSt
  img : ImgSt
  evr : EvrSt
  mgt : MgtSt
  sec : SecSt
  dbg : DbgSt
  pin : PinSt
  hi3c : Hi3cSt
  ci3c : Ci3cSt
  xspi : XspiSt
  /-- The commands that wait, first in first out. -/
  pending : List Instr
deriving DecidableEq, Repr

/-- The machine right after a power-on reset. -/
def State.reset : State :=
  { regs := [], shadow := [], latched := [], mem := [], answer := ⟨0, 0⟩, fresh := 0, out := [],
    beam := BeamSt.reset,
    fab := FabSt.reset,
    qdl := QdlSt.reset,
    mnt := MntSt.reset,
    pnl := PnlSt.reset,
    sig := SigSt.reset,
    snd := SndSt.reset,
    obj := ObjSt.reset,
    link := LinkSt.reset,
    gv := GvSt.reset,
    blk := BlkSt.reset,
    reel := ReelSt.reset,
    irq := IrqSt.reset,
    pwr := PwrSt.reset,
    img := ImgSt.reset,
    evr := EvrSt.reset,
    mgt := MgtSt.reset,
    sec := SecSt.reset,
    dbg := DbgSt.reset,
    pin := PinSt.reset,
    hi3c := Hi3cSt.reset,
    ci3c := Ci3cSt.reset,
    xspi := XspiSt.reset,
    pending := [] }

end Sys2Proof.Machine
end

