-- ==== Sys2Proof/Machine/Ops.lean ====
section
/-! DEFINITION. The named operations over registers, memory, events and interrupt arrivals that every meaning uses. -/

namespace Sys2Proof.Machine

/-- What a meaning answers. -/
abbrev Res := Host.Outcome State Fault Refusal

/-! Registers. -/

/-- The value in force of the register at `a`. -/
def State.reg (s : State) (a : Nat) : Word := Sparse.get RegMap.resetOf s.regs a

def State.setReg (s : State) (a : Nat) (v : Word) : State := { s with regs := Sparse.set RegMap.resetOf s.regs a v }

/-- The shadow copy of the register at `a`. -/
def State.shd (s : State) (a : Nat) : Word := Sparse.get RegMap.resetOf s.shadow a

def State.setShd (s : State) (a : Nat) (v : Word) : State :=
  { s with shadow := Sparse.set RegMap.resetOf s.shadow a v }

/-- Field [hi:lo] of a register. -/
def State.f (s : State) (a hi lo : Nat) : Nat := fld (s.reg a) hi lo

def State.setF (s : State) (a hi lo v : Nat) : State := s.setReg a (setFld (s.reg a) hi lo v)

def State.bit (s : State) (a i : Nat) : Bool := bitAt (s.reg a) i

def State.setBit (s : State) (a i : Nat) (b : Bool) : State := s.setReg a (putBit (s.reg a) i b)

/-- One more in the saturating count of field [hi:lo]. -/
def State.count (s : State) (a hi lo : Nat) : State := s.setReg a (countUp (s.reg a) hi lo)

/-- The shadow of a structure field changed: the verified set is no longer what stands there, and a swap that waits for it is
withdrawn (R423). -/
def State.unverify (s : State) : State :=
  let s1 := s.setBit Reg.IMG_STATE 4 false
  if s1.f Reg.IMG_STATE 2 0 = 3 then s1.setF Reg.IMG_STATE 2 0 0 else s1

/-- A write as the register's access codes state (R8): RW bits at once, W1C bits cleared and W1S bits set where ones are
written, SH bits to the shadow copy; other bits and reserved offsets ignore it (R6). -/
def State.writeCoded (s : State) (a : Nat) (v : Word) : State :=
  match RegMap.find a with
  | none => s
  | some (r, _) =>
    let plain := r.rw &&& ~~~ r.shm
    let new := ((((s.reg a) &&& ~~~ plain) ||| (v &&& plain)) &&& ~~~ (v &&& r.w1c)) ||| (v &&& r.w1s)
    let s1 := s.setReg a new
    if r.shm = 0 then s1 else
    let sh := (s.shd a &&& ~~~ r.shm) ||| (v &&& r.shm)
    let s2 := s1.setShd a sh
    if r.sh = .struct ∧ sh ≠ s.shd a then s2.unverify else s2

/-- What a read returns: the shadow value of SH bits, the value in force of the others (R423, R523). -/
def State.readCoded (s : State) (a : Nat) : Word :=
  match RegMap.find a with
  | none => 0
  | some (r, _) => (s.reg a &&& ~~~ r.shm) ||| (s.shd a &&& r.shm)

/-- The RC bits of a register cleared, as a read without the debug attribute leaves them (Table 0.4). -/
def State.clearRead (s : State) (a : Nat) : State :=
  match RegMap.find a with
  | none => s
  | some (r, _) => if r.rc = 0 then s else s.setReg a (s.reg a &&& ~~~ r.rc)

/-- The registers of a block take their reset values (R7). -/
def State.resetBlocks (s : State) (p : Nat → Bool) : State :=
  let keep := fun (e : Nat × Word) => !p e.1
  { s with regs := s.regs.filter keep, shadow := s.shadow.filter keep, latched := s.latched.filter keep }

/-- The 64 KiB block number of a register address (Table 0.8); an address outside the register window has none of them. -/
def blockOf (a : Nat) : Nat := if a / 0x10000000 = 4 then a / 0x10000 % 0x1000 else 0x1000

/-- A register of the interrupt controller (block 15) or the event recorder (block 22): what any event may touch (R380, R438). -/
abbrev eventReg (a : Nat) : Prop := blockOf a = 15 ∨ blockOf a = 22

/-! Memory. Shared memories lie at their own addresses; the local SRAM of core `c` lies at `localKey c`. -/

/-- What a byte that nothing has written reads as. -/
def memDefault : Nat → Byte := fun _ => 0

def State.byte (s : State) (k : Nat) : Byte := Sparse.get memDefault s.mem k

def State.setByte (s : State) (k : Nat) (b : Byte) : State := { s with mem := Sparse.set memDefault s.mem k b }

/-- `n` bytes from `k` upward. -/
def State.bytes (s : State) (k n : Nat) : List Byte := (List.range n).map fun i => s.byte (k + i)

def State.setBytes (s : State) (k : Nat) : List Byte → State
  | [] => s
  | b :: bs => State.setBytes (s.setByte k b) (k + 1) bs

/-- The little-endian number in `n` bytes at `k` (R4). -/
def State.le (s : State) (k n : Nat) : Nat := leNat (s.bytes k n)

def State.word (s : State) (k : Nat) : Word := wd (s.le k 4)

def State.setWord (s : State) (k : Nat) (w : Word) : State := s.setBytes k (leBytes 4 w.toNat)

/-- The key of byte `o` of the local SRAM of core `c`, 0 GV0, 1 GV1, 2 the Allemande (Table 0.7). -/
def localKey (c o : Nat) : Nat := 0x100000000 * (c + 1) + o

/-- The memory in a range of keys reads zero. -/
def State.zeroRange (s : State) (lo hi : Nat) : State :=
  { s with mem := s.mem.filter fun e => !(decide (lo ≤ e.1) && decide (e.1 < hi)),
           fab := { s.fab with ecc := s.fab.ecc.filter fun e => !(decide (lo ≤ e.1) && decide (e.1 < hi)) } }

/-! What is sent, and free values. -/

def State.emit (s : State) (o : Out) : State := { s with out := s.out ++ [o] }

/-- The index of the next free value, and the state with it drawn. -/
def State.draw (s : State) : Nat × State := (s.fresh, { s with fresh := s.fresh + 1 })

/-! Interrupt arrivals (R380 to R388). -/

/-- The enabled coalescer that stands before source `n`: the lowest-numbered that names it (R387). -/
def State.coalOf (s : State) (n : Nat) : Option Nat :=
  (List.range 16).find? fun k => s.bit (Reg.IRQ_COALk_CFG k) 16 && decide (s.f (Reg.IRQ_COALk_CFG k) 7 0 = n)

/-- One arrival at the source itself (R382, R383). -/
def State.arriveAt (n : Nat) (s : State) : State :=
  let a := Reg.IRQ_SRCs n
  if s.bit a 6 then s.setBit a 16 true
  else if s.f a 15 8 = 255 then s.setBit (Reg.IRQ_OVFw (n / 32)) (n % 32) true
  else s.setF a 15 8 (s.f a 15 8 + 1)

/-- A coalescer delivers one arrival to source `n`: HELD moves to LAST and restarts from zero (R387). -/
def State.coalDeliver (k n : Nat) (s : State) : State :=
  let h := Reg.IRQ_COALk_HELD k
  ((s.setF h 23 16 (s.f h 7 0)).setF h 7 0 0).arriveAt n

/-- An arrival of source `n` while the controller is clocked: through its coalescer, if one stands before it (R387). -/
def State.arriveAwake (n : Nat) (s : State) : State :=
  match s.coalOf n with
  | none => s.arriveAt n
  | some k =>
    let cnt := s.f (Reg.IRQ_COALk_CFG k) 15 8
    let tm := s.f (Reg.IRQ_COALk_TIME k) 15 0
    if cnt = 0 ∧ tm = 0 then s.arriveAt n else
    let h := Reg.IRQ_COALk_HELD k
    let held := s.f h 7 0 + 1
    let s1 := s.setF h 7 0 held
    if (cnt ≠ 0 ∧ cnt ≤ held) ∨ held = 255 then s1.coalDeliver k n else s1

/-- The armed wake slots that name source `n` (R388). -/
def State.wakeSlots (s : State) (n : Nat) : List Nat :=
  (List.range 32).filter fun k => s.bit (Reg.IRQ_WAKEk k) 8 && decide (s.f (Reg.IRQ_WAKEk k) 7 0 = n)

/-- An event of source `n`. In a state in which the controller is not clocked the armed wake slots see it: the first sets
the slot's bit of IRQ_WAKESTAT and starts a wake (R388). -/
def State.arrive (n : Nat) (s : State) : State :=
  if s.pwr.state = 0 then s.arriveAwake n else
  match s.wakeSlots n with
  | [] => s
  | ks => ks.foldl (fun s k =>
      { (s.setBit Reg.IRQ_WAKESTAT k true) with
        irq := { s.irq with wakePend := putBit s.irq.wakePend k true },
        pwr := { s.pwr with waking := true } }) s

/-! Events and status bits (R438, R446, R526). -/

/-- The severity held for a hardware event code (R446). -/
def State.sevOf (s : State) (code : Nat) : Nat :=
  s.f (Reg.EVR_SEVn (code / 16)) (2 * (code % 16) + 1) (2 * (code % 16))

/-- An event enters the recorder's queue with the time at which it is raised, or is lost when 32 wait (R438). -/
def State.enqueueEvent (code sev : Nat) (a0 a1 a2 a3 : Word) (s : State) : State :=
  if s.evr.queue.length < 32 then
    let e : Ev := { secs := s.reg Reg.EVR_SECS, pcyc := s.f Reg.EVR_PCYC 23 0, sub := s.f Reg.EVR_SUB 14 0,
                    tunset := !s.bit Reg.EVR_STAT 3, code := code, sev := sev, arg0 := a0, arg1 := a1, arg2 := a2, arg3 := a3 }
    { s with evr := { s.evr with queue := s.evr.queue ++ [e] } }
  else
    let s1 := (s.count Reg.EVR_DROPS 31 16).setBit Reg.EVR_STAT 0 true
    (({ s1 with evr := { s1.evr with lost := s1.evr.lost + 1 } }) : State).arrive 183

/-- A hardware event (R446). -/
def State.logEvent (code : Nat) (a0 a1 a2 a3 : Word) (s : State) : State :=
  s.enqueueEvent code (s.sevOf code) a0 a1 a2 a3

/-- A status register: its address, the event code of its bit 0 if its bits log events, the interrupt source that its bits fire,
if any, and the registers that its events give as ARG2 and ARG3 (Table 18.4). -/
structure StatReg where
  addr : Nat
  code : Option Nat
  src : Option Nat
  arg2 : Option Nat
  arg3 : Option Nat
deriving DecidableEq, Repr

/-- A status bit is set, logs its event and fires its source, once for each event that sets it (R380, R446, R526). -/
def State.raise (r : StatReg) (bit : Nat) (a0 a2 a3 : Word) (s : State) : State :=
  let s1 := s.setBit r.addr bit true
  let s2 := match r.code with
    | some c =>
      let from_ := fun (a : Option Nat) (v : Word) => match a with
        | some x => s1.reg x
        | none => v
      s1.logEvent (c + bit) a0 (s1.reg r.addr) (from_ r.arg2 a2) (from_ r.arg3 a3)
    | none => s1
  match r.src with
  | some n => s2.arrive n
  | none => s2

/-- As `raise`, for an event without arguments. -/
def State.raise0 (r : StatReg) (bit : Nat) (s : State) : State := s.raise r bit 0 0 0

def stBEAM : StatReg := ⟨Reg.BEAM_STAT, none, none, none, none⟩
def stBEAMW : StatReg := ⟨Reg.BEAM_WSTAT, some 0x40, some 108, none, none⟩
def stCOT : StatReg := ⟨Reg.COT_STAT, none, none, none, none⟩
def stMRC : StatReg := ⟨Reg.MRC_STAT, some 0x60, some 166, none, none⟩
def stQDL : StatReg := ⟨Reg.QDL_STAT, some 0x80, some 109, some Reg.QDL_HSTAT, none⟩
def stLAYE (n : Nat) : StatReg := ⟨Reg.LAYn_ESTAT n, some 0xA0, some 110, none, none⟩
def stLAYF (n : Nat) : StatReg := ⟨Reg.LAYn_FSTAT n, some 0xA8, some 110, none, none⟩
def stMNT : StatReg := ⟨Reg.MNT_STAT, some 0xC0, some 111, none, none⟩
def stPNL : StatReg := ⟨Reg.PNL_STAT, some 0xE0, some 121, none, none⟩
def stSIG : StatReg := ⟨Reg.SIG_STAT, some 0x100, none, none, none⟩
def stSND : StatReg := ⟨Reg.SND_STAT, some 0x120, some 124, none, none⟩
def stOBJ : StatReg := ⟨Reg.OBJ_STAT, some 0x140, some 125, none, none⟩
def stAK (x : Nat) : StatReg := ⟨Reg.AKx_STAT x, some (0x160 + 0x20 * x), some (128 + x), none, none⟩
def stREEL : StatReg := ⟨Reg.REEL_STAT, some 0x1A0, some 162, none, none⟩
def stIMG : StatReg := ⟨Reg.IMG_STAT, some 0x1E0, some 189, some Reg.IMG_ERR, some Reg.IMG_UCFAIL⟩
def stUC : StatReg := ⟨Reg.IMG_UCSTAT, some 0x1E0, some 189, some Reg.IMG_ERR, some Reg.IMG_UCFAIL⟩
def stCLK : StatReg := ⟨Reg.CLK_STAT, some 0x200, some 190, some Reg.CLK_PLLSTAT, none⟩
def stMGT : StatReg := ⟨Reg.MGT_STAT, some 0x220, some 191, some Reg.MGT_TMAX, none⟩
def stEVR : StatReg := ⟨Reg.EVR_STAT, none, some 183, none, none⟩
def stHI3C : StatReg := ⟨Reg.HI3C_STAT, some 0x240, some 186, none, none⟩
def stCI3C : StatReg := ⟨Reg.CI3C_STAT, some 0x260, some 187, none, none⟩
def stXSPI : StatReg := ⟨Reg.XSPI_STAT, some 0x280, some 188, none, none⟩
def stPIN : StatReg := ⟨Reg.PIN_STAT, some 0x2A0, none, none, none⟩
def stDBG : StatReg := ⟨Reg.DBG_STAT, some 0x2C0, some 185, none, none⟩

/-- A pair that must agree disagrees at its use point: the block's bit of COT_MISMATCH and COT_MMACT is set, and a
configuration mismatch is logged (R39). -/
def State.mismatch (block : Nat) (s : State) : State :=
  let s1 := (s.setBit Reg.COT_MISMATCH block true).setBit Reg.COT_MMACT block true
  s1.logEvent (0x20 + block) 0 (s1.reg Reg.COT_MISMATCH) 0 0

/-- The pair agrees at its use point (R39). -/
def State.matched (block : Nat) (s : State) : State := s.setBit Reg.COT_MMACT block false

/-! Error responses (R89, R91). -/

/-- An error response is captured in MRC_ERRADDR and MRC_ERRINFO if none is held, else sets ERROVF; it logs an event. -/
def State.errResponse (port addr code : Nat) (write : Bool) (s : State) : State :=
  let s1 :=
    if s.bit Reg.MRC_ERRINFO 31 then s.raise stMRC 8 0 (wd addr) 0
    else (s.setReg Reg.MRC_ERRADDR (wd addr)).setReg Reg.MRC_ERRINFO
      (wd (code % 8 + 16 * (port % 16) + 256 * b2n write + 2 ^ 31))
  s1.logEvent 0x71 (wd port) (s1.reg Reg.MRC_STAT) (s1.reg Reg.MRC_ERRADDR) (s1.reg Reg.MRC_ERRINFO)

/-- The access is answered: an error code, or 0 and the data read. -/
def State.reply (code : Nat) (data : Word) (s : State) : State := { s with answer := ⟨code, data⟩ }

/-- An error response to the master on `port` (R89: data zero). -/
def State.replyErr (port addr code : Nat) (write : Bool) (s : State) : State :=
  (s.errResponse port addr code write).reply code 0

/-! Stop mode. -/

/-- A core is halted in stop mode: the blocks of Table 20.4 are frozen (R472). -/
def State.frozen (s : State) : Bool :=
  decide (s.gv.gv0.run = .halt) || decide (s.gv.gv1.run = .halt) || decide (s.gv.al.run = .halt)

/-- What the pins show of stop mode after a change from `old` (Table 20.4). -/
def State.showFrozen (old s : State) : State := if old.frozen = s.frozen then s else s.emit (.stopMode s.frozen)

/-! Beam geometry. -/

def State.lines (s : State) : Nat := s.f Reg.BEAM_ACTIVE 12 0
def State.total (s : State) : Nat := s.f Reg.BEAM_TOTAL 12 0
def State.dots (s : State) : Nat := s.f Reg.BEAM_DOTS 13 0
def State.subfm1 (s : State) : Nat := s.f Reg.BEAM_CTRL 2 1
def State.running (s : State) : Bool := s.bit Reg.BEAM_CTRL 0
def State.width (s : State) : Nat := s.f Reg.QDL_WIDTH 12 0

/-- The position a register holds (Table 1.2). -/
def posOf (w : Word) : BPos := ⟨fld w 31 30, fld w 28 16, fld w 13 0⟩

/-- The register word of a position (Table 1.2). -/
def posWord (p : BPos) : Word := wd (p.sf % 4 * 2 ^ 30 + p.line % 2 ^ 13 * 2 ^ 16 + p.dot % 2 ^ 14)

/-- One position is earlier than another on its line and dot (R12). -/
def earlier (p q : BPos) : Bool := decide (p.line < q.line) || (decide (p.line = q.line) && decide (p.dot < q.dot))

/-- At or before (R12). -/
def atOrBefore (p q : BPos) : Bool := !earlier q p

/-- A line and a dot lie within the active geometry. -/
def State.inGeometry (s : State) (line dot : Nat) : Bool := decide (line < s.total) && decide (dot < s.dots)

/-- The active geometry meets the limits of Table 1.1 that its registers fix. -/
def State.geometryOk (s : State) : Bool :=
  let l := s.lines
  let t := s.total
  let d := s.dots
  let ss := s.f Reg.BEAM_SWAPSTART 12 0
  let dl := posOf (s.reg Reg.BEAM_DEADLINE)
  let cm := posOf (s.reg Reg.BEAM_CMARK)
  decide (1 ≤ l) && decide (l ≤ 2160) && decide (l + 8 ≤ t) && decide (t ≤ 8191) && decide (64 ≤ d) && decide (d ≤ 16383)
    && decide (l ≤ ss) && decide (ss ≤ t - 1) && decide (ss ≤ dl.line) && decide (dl.line ≤ t - 1) && decide (dl.dot ≤ d - 1)
    && decide (cm.line < t) && decide (cm.dot < d)

end Sys2Proof.Machine
end

