-- ==== Sys2Proof/Machine/Commit.lean ====
section
/-! DEFINITION. How values become active: commit groups (R34 to R38) and structure sets (R423, R424). -/

namespace Sys2Proof.Machine

/-- The commit group a register belongs to (Table 1.6). -/
def groupOf (a : Nat) : Option Nat :=
  match RegMap.find a with
  | some (r, _) => (match r.sh with
    | .group g => some g
    | _ => none)
  | none => none

/-- The structure bits of a register (R423). -/
def structMask (a : Nat) : Word :=
  match RegMap.find a with
  | some (r, _) => if r.sh = .struct then r.shm else 0
  | none => 0

def inGroup (g : Nat) (e : Nat × Word) : Bool := decide (groupOf e.1 = some g)

/-- The commit mark latches group `g`: its shadow values become the in-flight copy (R34). -/
def State.latchGroup (g : Nat) (s : State) : State :=
  let rest := s.latched.filter fun e => !inGroup g e
  ((({ s with latched := Sparse.setAll RegMap.resetOf rest (s.shadow.filter (inGroup g)) } : State).setBit Reg.COT_PENDING g
    false).setBit Reg.COT_INFLIGHT g true)

def State.inFlight (s : State) (g : Nat) : Bool := s.bit Reg.COT_INFLIGHT g

/-- The registers of group `g` that `p` picks take the values of `src`. -/
def State.takeGroup (g : Nat) (p : Nat → Bool) (src : List (Nat × Word)) (s : State) : State :=
  let pick := fun (e : Nat × Word) => inGroup g e && p e.1
  { s with regs := Sparse.setAll RegMap.resetOf (s.regs.filter fun e => !pick e) (src.filter pick) }

/-- A register of group `g` as its in-flight copy holds it. -/
def State.lat (s : State) (a : Nat) : Word := Sparse.get RegMap.resetOf s.latched a

/-- The in-flight copy of group `g` is used up. -/
def State.endFlight (g : Nat) (s : State) : State :=
  ({ s with latched := s.latched.filter fun e => !inGroup g e } : State).setBit Reg.COT_INFLIGHT g false

/-- Group `g` is rejected: its block keeps the previous values (R38). -/
def State.rejectGroup (g : Nat) (s : State) : State := (s.endFlight g).setBit Reg.COT_REJECT g true

/-! Structure sets. -/

/-- Every structure register whose shadow value is not the one in use is staged with it (R424). -/
def State.stageStructure (s : State) : State :=
  let keys := ((s.regs ++ s.shadow ++ s.img.staged).map (·.1)).eraseDups
  let st := keys.filterMap fun a =>
    let m := structMask a
    if m ≠ 0 ∧ (s.shd a &&& m) ≠ (s.reg a &&& m) then some (a, s.shd a &&& m) else none
  { s with img := { s.img with staged := st } }

/-- The blocks whose registers `p` picks adopt what is staged for them. -/
def State.adopt (p : Nat → Bool) (s : State) : State :=
  let (now, later) := s.img.staged.partition fun e => p e.1
  let s1 := now.foldl (fun t e => t.setReg e.1 ((t.reg e.1 &&& ~~~(structMask e.1)) ||| e.2)) s
  { s1 with img := { s1.img with staged := later } }

/-- The state as the active structure set makes it, whatever the blocks have adopted of it (R424): what positions and settings are judged
against (R23, R32, R60). -/
def State.activeView (s : State) : State := s.adopt fun _ => true

/-- The position lies inside the geometry of the active structure set. -/
def State.inActive (s : State) (line dot : Nat) : Bool := s.activeView.inGeometry line dot

/-- A bit of a status register is set once for each of `n` settings that break a limit (R526). -/
def State.raiseEach (st : StatReg) (bit n : Nat) (s : State) : State := (List.replicate n ()).foldl (fun t _ => t.raise0 st bit) s

/-- A slot table register (R31). -/
def isSlotReg (a : Nat) : Bool := decide (0x40020400 ≤ a) && decide (a < 0x40020800)

/-- Is a register of block `b` staged? -/
def State.stagedIn (s : State) (b : Nat) : Bool := s.img.staged.any fun e => decide (blockOf e.1 = b)

end Sys2Proof.Machine
end

