-- ==== Sys2Proof/Machine/Lock.lean ====
section
/-! DEFINITION. Stations, beam lock, studio sync, PTP and the wall's vote (R44 to R69). -/

namespace Sys2Proof.Machine

/-! Beam time. -/

/-- A distance brought into one period around zero. -/
def wrapAround (period : Nat) (d : Int) : Int :=
  if period = 0 then d else
  let r := d % (period : Int)
  if (period : Int) ≤ 2 * r then r - period else r

/-- The nominal frame period in ps, from BEAM_RATENUM and BEAM_RATEDEN (R55); 0 while the rate is not set. -/
def State.framePs (s : State) : Nat :=
  10 ^ 12 * s.f Reg.BEAM_RATEDEN 11 0 / s.f Reg.BEAM_RATENUM 19 0

/-- Dots in one frame, all sub-frames (R230). -/
def State.frameDots (s : State) : Nat := s.total * s.dots * (s.subfm1 + 1)

/-- One line period in ps. -/
def State.linePs (s : State) : Nat := s.framePs / (s.total * (s.subfm1 + 1))

/-- The dot offset of a position from 0:0 of sub-frame 0. -/
def State.dotOff (s : State) (p : BPos) : Nat := (p.sf * s.total + p.line) * s.dots + p.dot

/-- The position at a dot offset. -/
def State.posAt (s : State) (off : Nat) : BPos :=
  ⟨off / (s.total * s.dots), off / s.dots % s.total, off % s.dots⟩

/-- A position as ps from its frame's 0:0. -/
def State.posPs (s : State) (p : BPos) : Nat := s.dotOff p * s.framePs / s.frameDots

/-- The beam-domain rate fs (R230). -/
def State.fs (s : State) : Nat := if s.bit Reg.SND_STRUCT 0 then 96000 else 48000

/-- The first beam sample whose instant lies at or after a frame and dot offset (R230, R231). -/
def State.sampleFrom (s : State) (frame off : Nat) : Nat :=
  let n := (frame * s.frameDots + off) * s.fs * s.f Reg.BEAM_RATEDEN 11 0
  let d := s.frameDots * s.f Reg.BEAM_RATENUM 19 0
  (n + d - 1) / d

/-- The samples of a frame, the last one in part included. -/
def State.perFrame (s : State) : Nat := s.fs * s.f Reg.BEAM_RATEDEN 11 0 / s.f Reg.BEAM_RATENUM 19 0 + 1

/-- A frame number moved with the frame counter. -/
def moved (d : Int) (n : Nat) : Nat := ((n : Int) + d).toNat

/-- The frames in composition, the engines' frames and the writes that wait keep their place when the frame counter is set: their
numbers move with it (R525). -/
def State.renumber (d : Int) (s : State) : State :=
  let m := moved d
  let om := fun (o : Option Nat) => o.map m
  let w := fun (r : RasterW) => { r with frame := m r.frame }
  { s with
    qdl := { s.qdl with
      frame := m s.qdl.frame, mark := om s.qdl.mark, frames := s.qdl.frames.map fun q => { q with frame := m q.frame },
      lines := s.qdl.lines.map fun l => { l with frame := m l.frame }, queue := s.qdl.queue.map w,
      log := s.qdl.log.map fun e => { e with w := w e.w, frame := m e.frame },
      layers := s.qdl.layers.map fun l => { l with lateOpen := l.lateOpen.map m, lateGone := om l.lateGone, busyUntil := om l.busyUntil,
                                                   bufsUntil := om l.bufsUntil },
      seen := s.qdl.seen.map fun e => (m e.1, e.2), shown := s.qdl.shown.map fun e => (m e.1, e.2),
      ended := s.qdl.ended.map fun q => { q with frame := m q.frame } },
    sig := { s.sig with checks := s.sig.checks.map fun c => { c with frame := m c.frame } },
    mnt := { s.mnt with
      engines := s.mnt.engines.map fun e => { e with frame := m e.frame }, issued := s.mnt.issued.map w,
      timed := s.mnt.timed.map fun t => { t with frame := m t.frame } } }

/-- The beam sample that is taken next once the beam stands at sample count `land`: samples repeated by a move of less than a frame are not taken
again (R231; that a greater move renumbers the samples is the model's reading, log 115). -/
def State.resumeAt (s : State) (land : Nat) : Nat := if land < s.snd.k ∧ s.snd.k ≤ land + s.perFrame then s.snd.k else land

/-- The frame counter is set, and the beam sample count moves with it (R525, R230, R231). -/
def State.setFrame (s : State) (frame : Nat) : State :=
  let s1 := s.renumber ((frame : Int) - s.beam.frame)
  let land := s1.sampleFrom frame (s1.dotOff s1.beam.pos)
  let gap := if s.snd.k < land ∧ land ≤ s.snd.k + s.perFrame then land - s.snd.k else 0
  { s1 with beam := { s1.beam with frame := frame % 2 ^ 64 },
            snd := { s1.snd with k := s1.resumeAt land }, obj := { s1.obj with gap := s1.obj.gap + gap } }

def State.setPos (s : State) (p : BPos) : State := { s with beam := { s.beam with pos := p, dotAcc := 0 } }

/-- A line of a sub-frame of a frame, in the order in which lines are composed. -/
abbrev LineKey := Nat × Nat × Nat

def keyLt (a b : LineKey) : Bool :=
  decide (a.1 < b.1) || (decide (a.1 = b.1) && (decide (a.2.1 < b.2.1) || (decide (a.2.1 = b.2.1) && decide (a.2.2 < b.2.2))))

def keyLe (a b : LineKey) : Bool := !keyLt b a

/-- A frame and a position in it. -/
abbrev Instant := Nat × BPos

def posLt (p q : BPos) : Bool := keyLt (p.sf, p.line, p.dot) (q.sf, q.line, q.dot)

def instLe (a b : Instant) : Bool := decide (a.1 < b.1) || (decide (a.1 = b.1) && !posLt b.2 a.2)

def instMax (a b : Instant) : Instant := if instLe a b then b else a

/-- The wall-time beam. -/
def State.now (s : State) : Instant := (s.beam.frame, s.beam.pos)

/-- The wall-time beam has come to a position of the present frame: it never moves back. -/
def State.beamAt (p : BPos) (s : State) : State :=
  if posLt s.beam.pos p && s.inGeometry p.line p.dot && decide (p.sf ≤ s.subfm1) then s.setPos p else s

/-! Names and hops (R44, R45). -/

def State.stationId (s : State) : Nat := s.f Reg.BEAM_STATION 13 0
def State.isHead (s : State) : Bool := decide (s.stationId = 0)
def State.isRingHead (s : State) : Bool := decide (s.stationId % 64 = 0)

def hopPort : Hop → Nat
  | .ringA => 0
  | .ringB => 1
  | .trunkA => 0
  | .trunkB => 1

def hopTrunk : Hop → Bool
  | .ringA => false
  | .ringB => false
  | .trunkA => true
  | .trunkB => true

/-- The hop's AKx_LINK or AKx_TRUNK register reads UP (Table 11.6). -/
def State.hopUp (s : State) (h : Hop) : Bool :=
  decide (s.f (if hopTrunk h then Reg.AKx_TRUNK (hopPort h) else Reg.AKx_LINK (hopPort h)) 2 0 = 5)

/-- The port is in ring role (AKx_CFG.ROLE). -/
def State.ringRole (s : State) (x : Nat) : Bool := decide (s.f (Reg.AKx_CFG x) 1 0 = 1)

/-- The hops on which the station sends down the tree: its ring ports and its trunk-outs (R49, R50). -/
def State.spreadHops (s : State) : List Hop :=
  (if s.ringRole 0 && s.hopUp .ringA then [.ringA] else []) ++ (if s.ringRole 1 && s.hopUp .ringB then [.ringB] else [])
    ++ (if s.bit Reg.BEAM_TRUNK 2 && s.hopUp .trunkA then [.trunkA] else [])
    ++ (if s.bit Reg.BEAM_TRUNK 3 && s.hopUp .trunkB then [.trunkB] else [])

/-- The station follows a split-pair leader on the port named (R66, R67). -/
def State.pairFollower (s : State) : Bool := s.beam.paired && s.bit Reg.BEAM_PAIR 17

/-- The hop from which the station takes its beam time (R52, R67); none for the system head, or while no port delivers. -/
def State.sourceHop (s : State) : Option Hop :=
  if s.isHead then none
  else if s.pairFollower then some (if s.bit Reg.BEAM_PAIR 18 then .ringB else .ringA)
  else if s.isRingHead then
    match s.f Reg.BEAM_TRUNK 1 0 with
    | 1 => some .trunkA
    | 2 => some .trunkB
    | _ => none
  else
    match s.beam.hopsA, s.beam.hopsB with
    | some a, some b => some (if b < a then .ringB else .ringA)
    | some _, none => some .ringA
    | none, some _ => some .ringB
    | none, none => none

/-- BEAM_LOCKSTAT.SRC of a source (Table 2.7). -/
def srcCode : Option Hop → Nat
  | none => 0
  | some .ringA => 1
  | some .ringB => 2
  | some .trunkA => 3
  | some .trunkB => 3

/-- The register that holds the hop's link delay, and its asymmetry (R51). -/
def linkDlyReg : Hop → Nat
  | .ringA => Reg.BEAM_LINKDLYA
  | .ringB => Reg.BEAM_LINKDLYB
  | .trunkA => Reg.BEAM_LINKDLYTA
  | .trunkB => Reg.BEAM_LINKDLYTB

def asymReg : Hop → Nat
  | .ringA => Reg.BEAM_ASYMA
  | .ringB => Reg.BEAM_ASYMB
  | .trunkA => Reg.BEAM_ASYMTA
  | .trunkB => Reg.BEAM_ASYMTB

/-! Lock states (R54, Table 2.3): 0 FREE, 1 ACQUIRE, 2 LOCKED, 3 HOLDOVER. -/

def State.lock (s : State) : Nat := s.f Reg.BEAM_LOCKSTAT 1 0

/-- The lock state changes; BEAM_CTRL.LOCK reads one only in LOCKED (R54). -/
def State.setLock (s : State) (st : Nat) : State :=
  (s.setF Reg.BEAM_LOCKSTAT 1 0 st).setBit Reg.BEAM_CTRL 8 (decide (st = 2))

/-- LOCKED is entered: a station other than the head takes the frame number of its source (R525). -/
def State.enterLocked (s : State) : State :=
  let s1 := s.setLock 2
  if s.isHead then s1 else s1.setFrame s.beam.srcFrame

/-- The system head runs from the local reference: it is LOCKED while its beam runs (R54, R57). -/
def State.headFree (s : State) : Bool := s.isHead && decide (s.f Reg.BEAM_LOCKCTL 1 0 = 0)

/-- The frequency term f of the period, in ppb (R55): a source whose beam is faster by RATE makes the period shorter by as much (DEDUCED, log
84); in HOLDOVER the mean of the last 16 frames (R56). -/
def State.freqTerm (s : State) : Int :=
  if s.headFree then 0 else
  match s.lock with
  | 0 => 0
  | 3 => if s.beam.freqs.isEmpty then 0 else s.beam.freqs.foldl (· + ·) 0 / (s.beam.freqs.length : Int)
  | _ => clampI (-1000000) 1000000 (-s.beam.srcRate)

/-- The lock state after a mark or reference event with phase error `err`, in ps (Table 2.3, R55). A LOCKED station whose source has changed
and whose first error is over 2 ns goes to ACQUIRE: R52 only says that it keeps its state within 2 ns (DESIGN CHOICE, log 87). -/
def State.lockEvent (err : Int) (s0 : State) : State :=
  let s := s0.setReg Reg.BEAM_PHERR (wi err)
  let near := decide (absI err ≤ 2000)
  match s.lock with
  | 1 =>
    if near then
      if s.beam.good + 1 ≥ 16 then ({ s with beam := { s.beam with good := 0, stepDue := false } }).enterLocked
      else { s with beam := { s.beam with good := s.beam.good + 1 } }
    else
      let due := s.beam.stepDue || (s.bit Reg.BEAM_LOCKCTL 2 && decide (absI err > (s.linePs : Int)))
      { s with beam := { s.beam with good := 0, stepDue := due } }
  | 2 =>
    if s.beam.switched && !near then ({ s with beam := { s.beam with switched := false, good := 0, stepDue := false } }).setLock 1
    else { s with beam := { s.beam with switched := false } }
  | _ => ({ s with beam := { s.beam with good := 0, stepDue := false } }).setLock 1

/-- No source or reference is left: LOCKED goes to HOLDOVER, ACQUIRE to FREE (Table 2.3). -/
def State.loseReference (s : State) : State :=
  match s.lock with
  | 2 => (s.setLock 3).raise0 stBEAMW 4
  | 1 => s.setLock 0
  | _ => s

/-- The state notes that a hop delivers marks with `hops` (R52). -/
def State.noteHops (h : Hop) (n : Option Nat) (s : State) : State :=
  match h with
  | .ringA => { s with beam := { s.beam with hopsA := n } }
  | .ringB => { s with beam := { s.beam with hopsB := n } }
  | .trunkA => { s with beam := { s.beam with hopsT := n } }
  | .trunkB => { s with beam := { s.beam with hopsT := n } }

/-- A mark from the source is used for beam lock (R52 to R56). A source outside the capture range is not accepted. -/
def State.useMark (h : Hop) (m : Mark) (own : Int) (s : State) : State :=
  if absI m.rate > 1000000 then s.raise0 stBEAMW 2 else
  let s1 := ((s.setReg Reg.BEAM_CORR (wd m.corr)).setBit Reg.BEAM_LOCKSTAT 4 m.hold).setF Reg.BEAM_LOCKSTAT 15 8 (m.hops + 1)
  let old := s1.f Reg.BEAM_LOCKSTAT 3 2
  let s2 := s1.setF Reg.BEAM_LOCKSTAT 3 2 (srcCode (some h))
  let s3 := if old ≠ 0 ∧ old ≠ srcCode (some h) then
      ({ s2 with beam := { s2.beam with switched := true } }).raise0 stBEAMW 8 else s2
  let s4 := { s3 with beam := { s3.beam with srcRate := m.rate, srcFrame := m.frame, srcPos := m.pos } }
  let dly : Int := s4.f (linkDlyReg h) 23 0
  s4.lockEvent (wrapAround s4.framePs (own - ((s4.posPs m.pos : Int) + m.corr + dly)))

def State.delaysOf (s : State) : Hop → List Int
  | .ringA => s.beam.delayA
  | .ringB => s.beam.delayB
  | .trunkA => s.beam.delayTA
  | .trunkB => s.beam.delayTB

def State.setDelays (s : State) (h : Hop) (l : List Int) : State :=
  match h with
  | .ringA => { s with beam := { s.beam with delayA := l } }
  | .ringB => { s with beam := { s.beam with delayB := l } }
  | .trunkA => { s with beam := { s.beam with delayTA := l } }
  | .trunkB => { s with beam := { s.beam with delayTB := l } }

/-- `SOURCE_LOST`: no valid mark from the source for two intervals; the station changes to its other port if that delivers
marks, without a phase step (R52). A source lost in ACQUIRE with no other leaves FREE (Table 2.3). -/
def execSourceLost (s : State) : Res :=
  if s.frozen then .next s else
  match s.sourceHop with
  | none => .next s
  | some h =>
    let s1 := s.noteHops h none
    match s1.sourceHop with
    | some h2 =>
      if h2 = h then .next (if s.lock = 1 then s1.setLock 0 else s1)
      else .next ((({ s1 with beam := { s1.beam with switched := true } } : State).setF Reg.BEAM_LOCKSTAT 3 2
        (srcCode (some h2))).raise0 stBEAMW 8)
    | none => .next (if s.lock = 1 then (s1.setF Reg.BEAM_LOCKSTAT 3 2 0).setLock 0 else s1)

/-- `HOLDOVER_ENTRY`: no valid mark for four intervals, or the reference lost, in LOCKED (R54, R56). A head that runs from the local reference
has no source to lose. -/
def execHoldoverEntry (s : State) : Res :=
  if s.frozen then .next s else
  if s.lock = 2 ∧ s.headFree = false then .next ((s.setLock 3).raise0 stBEAMW 4) else .next s

/-- The selected FSYNC_IN edge (R58). -/
def State.fsyncSelected (s : State) (rising : Bool) : Bool := rising != s.bit Reg.BEAM_LOCKCTL 3

/-- Frames per reference event (R58, R59). -/
def State.refFrames (s : State) : Nat := s.f Reg.BEAM_LOCKCTL 7 4 + 1

/-- The phase error of the system head's beam against its reference: `own` is its beam time in ps from its frame's 0:0, and `since` the time in
ps since the last instant at which the beam should have stood at BEAM_FSPOS in a frame whose counter is a multiple of FSDIVM1 + 1 (R54, R58,
R59). -/
def State.refError (s : State) (own : Nat) (since : Int) : Int :=
  wrapAround (s.refFrames * s.framePs)
    (((s.beam.frame % s.refFrames * s.framePs + own : Nat) : Int) - s.posPs (posOf (s.reg Reg.BEAM_FSPOS)) - since)

/-- The system head takes its reference's rate, or refuses a reference outside the capture range (R55). -/
def State.takeReference (rate err : Int) (s : State) : State :=
  if absI rate > 1000000 then s.raise0 stBEAMW 2
  else (({ s with beam := { s.beam with srcRate := rate } } : State).setF Reg.BEAM_LOCKSTAT 3 2 3).lockEvent err

/-- The system head aligns to a selected edge, or ignores one further than 25% of the FSYNC period from its expected instant (R57, R58). `own`
is its beam time at the edge, and `rate` the offset in ppb of the FSYNC rate from the one its frame rate asks for. -/
def State.fsyncAlign (rising : Bool) (own : Nat) (rate : Int) (s : State) : State :=
  if s.isHead && decide (s.f Reg.BEAM_LOCKCTL 1 0 = 1) && s.running && s.fsyncSelected rising then
    let err := s.refError own 0
    if 4 * absI err > ((s.refFrames * s.framePs : Nat) : Int) then s.raise0 stBEAMW 2 else s.takeReference rate err
  else s

/-- `FSYNC_LOSS` (R58). -/
def execFsyncLoss (s : State) : Res :=
  if s.frozen then .next s else
  if s.isHead && decide (s.f Reg.BEAM_LOCKCTL 1 0 = 1) then .next ((s.raise0 stBEAMW 1).loseReference) else .next s

/-! PTP (R59). -/

/-- The system head runs the time-receiver, on a port in Ethernet mode. -/
def State.ptpRuns (s : State) : Bool :=
  s.isHead && decide (s.f Reg.BEAM_LOCKCTL 1 0 = 2) && decide (2 ≤ s.f (Reg.AKx_CFG (s.f Reg.BEAM_LOCKCTL 8 8)) 1 0)

/-- A message of the domain of the time-receiver. -/
def State.ptpOn (s : State) (domain : Nat) : Bool := s.ptpRuns && decide (s.f Reg.BEAM_LOCKCTL 22 16 = domain)

/-- The data set `a` is better than `b`: by the grandmaster's attributes in the order of IEEE 1588-2019, then by steps removed,
then by the sender (R59). -/
def annBetter (a b : Announce) : Bool :=
  let key (x : Announce) : List Nat :=
    [x.prio1, x.clockClass, x.accuracy, x.variance, x.prio2, x.identity, x.steps, x.source]
  let rec lt : List Nat → List Nat → Bool
    | x :: xs, y :: ys => decide (x < y) || (decide (x = y) && lt xs ys)
    | _, _ => false
  if a.identity = b.identity then lt [a.steps, a.source] [b.steps, b.source] else lt (key a) (key b)

/-- `PTP_ANNOUNCE`: fed to the best-master selection. -/
def execPtpAnnounce (domain : Nat) (a : Announce) (s : State) : Res :=
  if s.frozen then .next s else
  if s.ptpOn domain then
    match s.beam.ptpBest with
    | none => .next { s with beam := { s.beam with ptpBest := some a } }
    | some b =>
      if a.source = b.source ∨ annBetter a b then .next { s with beam := { s.beam with ptpBest := some a } } else .next s
  else .next s

/-- The message comes from the selected master. -/
def State.fromMaster (s : State) (source : Nat) : Bool :=
  match s.beam.ptpBest with
  | some b => decide (b.source = source)
  | none => false

/-- The time in ps since the last alignment point at which a frame with a counter of zero modulo FSDIVM1 + 1 starts, at PTP time `t` in ns: the
alignment points of SMPTE ST 2059-1 lie at multiples of the frame period from the epoch (DEDUCED, log 88). -/
def State.sinceAlignment (s : State) (t : Int) : Int :=
  let num : Int := s.f Reg.BEAM_RATENUM 19 0
  let cycle : Nat := s.refFrames * s.f Reg.BEAM_RATEDEN 11 0 * 10 ^ 9
  t * num % (cycle : Int) * 1000 / num

/-- `PTP_SYNC`: a Sync sent at `t1` and received at `t2` (ns); at its reception PTP time is `t1` and the mean path delay. `own` is then the
beam time of the head in ps from its frame's 0:0, and `rate` the offset of PTP time in ppb. -/
def execPtpSync (domain source : Nat) (t1 t2 : Int) (own : Nat) (rate : Int) (s : State) : Res :=
  if s.frozen then .next s else
  if s.ptpOn domain && s.fromMaster source then
    let s1 := { s with beam := { s.beam with ptpT1 := t1, ptpT2 := t2 } }
    .next (if s.running then s1.takeReference rate (s1.refError own (s1.sinceAlignment (t1 + s.beam.ptpDelay))) else s1)
  else .next s

/-- `PTP_DELAY_REQ`: the time-receiver sends a Delay_Req at `t3`. -/
def execPtpDelayReq (t3 : Int) (s : State) : Res :=
  if s.frozen then .next s else
  match s.beam.ptpBest with
  | some _ =>
    if s.ptpRuns then
      .next (({ s with beam := { s.beam with ptpT3 := t3 } } : State).emit (.delayReq (s.f Reg.BEAM_LOCKCTL 8 8) t3))
    else .next s
  | none => .next s

/-- `PTP_DELAY_RESP`: the mean path delay, half the sum of the two one-way differences. -/
def execPtpDelayResp (domain source : Nat) (t4 : Int) (s : State) : Res :=
  if s.frozen then .next s else
  if s.ptpOn domain && s.fromMaster source then
    .next { s with beam := { s.beam with ptpDelay := ((s.beam.ptpT2 - s.beam.ptpT1) + (t4 - s.beam.ptpT3)) / 2 } }
  else .next s

/-- `PTP_LOSS`. -/
def execPtpLoss (s : State) : Res :=
  if s.frozen then .next s else
  if s.ptpRuns then
    .next ((({ s with beam := { s.beam with ptpBest := none } } : State).raise0 stBEAMW 3).loseReference)
  else .next s

/-! FSYNC_OUT (R60). -/

/-- The wall-time beam reaches BEAM_FSOUT in sub-frame `sf`: a pulse is given there. -/
def State.fsoutFires (s : State) (sf : Nat) : Bool :=
  let p := posOf (s.reg Reg.BEAM_FSOUT)
  s.running && s.inGeometry p.line p.dot && s.inActive p.line p.dot &&
    (match s.f Reg.BEAM_FSOUT 15 14 with
     | 1 => decide (sf = p.sf)
     | 2 => decide (sf ≤ s.subfm1)
     | _ => false)

/-- `FSYNC_OUT_PULSE`. -/
def execFsyncOutPulse (sf : Nat) (s : State) : Res :=
  if s.frozen then .next s else
  if s.fsoutFires sf then
    let p := posOf (s.reg Reg.BEAM_FSOUT)
    let s1 := s.setPos ⟨sf, p.line, p.dot⟩
    .next { s1 with beam := { s1.beam with fsyncOut := true } }
  else .next s

/-- `FSYNC_OUT_END`: one line period after its start the pin goes low. -/
def execFsyncOutEnd (s : State) : Res :=
  if s.frozen then .next s else
  .next { s with beam := { s.beam with fsyncOut := false } }

/-- A written or newly judged BEAM_FSOUT lies outside the geometry (R60). -/
def State.fsoutBad (s : State) : Bool :=
  let p := posOf (s.reg Reg.BEAM_FSOUT)
  let m := s.f Reg.BEAM_FSOUT 15 14
  (decide (m = 1) || decide (m = 2)) && !s.inActive p.line p.dot

def State.judgeFsout (s : State) : State := if s.fsoutBad then s.raise0 stBEAM 2 else s

/-! Placement (R47). -/

def State.placeOk (s : State) : Bool :=
  decide (s.f Reg.BEAM_WALLX 19 0 + s.width ≤ s.f Reg.BEAM_WALLW 19 0)
    && decide (s.f Reg.BEAM_WALLY 19 0 + s.lines ≤ s.f Reg.BEAM_WALLH 19 0)

/-- The placement pair is checked at 0:0 of sub-frame 0: the last good placement stands while it disagrees (R39, R47). -/
def State.checkPlace (s : State) : State :=
  if s.placeOk then
    ({ s with beam := { s.beam with place := (s.f Reg.BEAM_WALLX 19 0, s.f Reg.BEAM_WALLY 19 0, s.f Reg.BEAM_WALLW 19 0,
      s.f Reg.BEAM_WALLH 19 0) } }).matched 0
  else (s.mismatch 0).raise0 stBEAMW 9

/-! The wall's vote (R61 to R64). -/

/-- BEAM_SWAPCTL.MODE is WALL; codes 2 and 3 act as LOCAL (R61). -/
def State.wallMode (s : State) : Bool := decide (s.f Reg.BEAM_SWAPCTL 1 0 = 1)

/-- The station casts its vote for the sub-frame, once (R62). -/
def State.castVote (v : Bool) (s : State) : State :=
  match s.beam.vote with
  | none => if s.wallMode then { s with beam := { s.beam with vote := some v } } else s
  | some _ => s

/-- `VOTECUT`: a station whose frame is not confirmed casts HOLD. -/
def execVotecut (sf : Nat) (s : State) : Res :=
  if s.frozen then .next s else
  if s.wallMode && s.running then
    let p := posOf (s.reg Reg.BEAM_VOTECUT)
    .next ((s.setPos ⟨sf, p.line, p.dot⟩).castVote false)
  else .next s

/-- The counts with this station's own vote added. -/
def State.mergedVotes (s : State) : Nat × Nat :=
  match s.beam.vote with
  | none => (s.beam.counted, s.beam.ready)
  | some v => (s.beam.counted + 1, s.beam.ready + b2n v)

/-- The vote of the next sub-frame starts with nothing counted. -/
def State.clearVote (s : State) : State :=
  { s with beam := { s.beam with vote := none, counted := 0, ready := 0, heard := [], sent := false, decision := none,
                                 partnerPos := none, ownPos := none } }

end Sys2Proof.Machine
end

