-- ==== Sys2Proof/Machine/Wire.lean ====
section
/-! DEFINITION. What travels on an Aketh hop: frame types, headers, payload layouts, segments and link control blocks (R274 to R278, R284,
Tables 2.1, 11.2 to 11.5 and 11.7). -/

namespace Sys2Proof

/-! Frame types (Tables 11.3 and 11.4). -/

def frameClass : Nat → Nat
  | 0 => 0
  | 1 => 3
  | 2 => 2
  | 3 => 1
  | 4 => 4
  | 5 => 4
  | _ => 5

def Frame.cls (f : Frame) : Nat := frameClass f.type

def Frame.segmentable (f : Frame) : Bool := decide (f.type = 1) || decide (f.type = 2) || decide (f.type = 5) || decide (f.type = 6)

/-- The feature bit of HELLO that a hop needs for the frame (Tables 11.4 and 11.7). -/
def Frame.needs (f : Frame) : Option Nat :=
  match f.type with
  | 0 => if 3 ≤ f.sub ∧ f.sub ≤ 5 then some 7 else none
  | 2 => some 3
  | 3 => some 4
  | 5 => some 5
  | 7 => some 6
  | _ => none

/-- The subtypes of Table 11.5. -/
def knownSub (type sub : Nat) : Bool :=
  match type with
  | 0 => decide (sub ≤ 6)
  | 1 => decide (sub ≤ 1)
  | 2 => decide (sub = 0)
  | 3 => decide (sub = 0)
  | 4 => decide (sub ≤ 3)
  | 5 => decide (sub ≤ 1)
  | 6 => decide (sub = 0)
  | 7 => decide (sub ≤ 1)
  | _ => false

/-- Bytes `o` to `o + n - 1` of a payload, little-endian (R276). -/
def Frame.le (f : Frame) (o n : Nat) : Nat := Machine.leNat ((f.data.drop o).take n)

/-- Whether the payload keeps the rules that this chapter gives its type (R277, R278, R279, R281). -/
def Frame.payloadOk (f : Frame) : Bool :=
  let n := f.data.length
  match f.type, f.sub with
  | 0, 0 => decide (n = 24)
  | 0, 1 => decide (n = 8)
  | 0, 2 => decide (n = 24)
  | 0, _ => decide (n = 16)
  | 1, 0 =>
    let a := f.le 0 4
    let d := n - 8
    decide (8 ≤ n) && decide (d % 16 = 0) && decide (a % 16 = 0) &&
      ((decide (0x10000000 ≤ a) && decide (a + d ≤ 0x14000000)) || (decide (0x20000000 ≤ a) && decide (a + d ≤ 0x20020000)))
  | 1, _ =>
    let a := f.le 0 4
    let d := 16 * f.le 8 4
    decide (n = 32) && decide (a % 16 = 0) &&
      ((decide (0x10000000 ≤ a) && decide (a + d ≤ 0x14000000)) || (decide (0x20000000 ≤ a) && decide (a + d ≤ 0x20020000)))
  | 2, _ => decide (16 ≤ n) && decide ((n - 16) % 16 = 0) && decide (f.le 8 4 % 16 = 0)
  | 3, _ =>
    let nch := f.le 9 1
    let ns := f.le 10 1
    decide (1 ≤ nch) && decide (nch ≤ 16) && decide (1 ≤ ns) && decide (ns ≤ 16) && decide (n = 16 + 3 * nch * ns) &&
      decide (f.le 8 1 % 32 + nch ≤ 32)
  | 4, 0 => decide (n = 64)
  | 4, 1 => decide (n = 200)
  | 4, 2 => decide (4 ≤ n) && decide (n = 4 + 8 * f.le 0 1)
  | 5, 0 => decide (16 ≤ n) && decide (n = 16 + 6 * f.le 10 2)
  | 5, _ => decide (n = 24)
  | 6, _ => decide (8 ≤ n)
  | 7, _ => decide (n ≤ 1024)
  | _, _ => true

/-! Headers (Table 11.3). -/

/-- The 128-bit header, stored little-endian; reserved bits are zero. -/
def Frame.header (f : Frame) : Nat :=
  f.type % 16 + f.sub % 16 * 2 ^ 4 + f.ver % 4 * 2 ^ 8 + f.dmode % 4 * 2 ^ 10 + f.wrap % 4 * 2 ^ 12 + Machine.b2n f.notify * 2 ^ 14
    + Machine.b2n f.kp * 2 ^ 15 + f.data.length % 2 ^ 12 * 2 ^ 16 + f.dst % 2 ^ 14 * 2 ^ 32 + f.src % 2 ^ 14 * 2 ^ 48
    + f.seq % 2 ^ 32 * 2 ^ 64 + f.rseq % 2 ^ 16 * 2 ^ 96 + f.rsrc % 64 * 2 ^ 112

/-- The frame that a header and a payload stand for. -/
def Frame.ofHeader (h : Nat) (data : List Byte) : Frame :=
  let at_ := fun (lo n : Nat) => h / 2 ^ lo % 2 ^ n
  { type := at_ 0 4, sub := at_ 4 4, ver := at_ 8 2, dmode := at_ 10 2, wrap := at_ 12 2, notify := h.testBit 14, kp := h.testBit 15,
    dst := at_ 32 14, src := at_ 48 14, seq := at_ 64 32, rseq := at_ 96 16, rsrc := at_ 112 6, data := data.take (at_ 16 12) }

/-! Payloads of Table 11.5 that the station's own blocks read and send. -/

/-- A position of Table 1.2 read from a payload. -/
def posOfNat (n : Nat) : BPos := ⟨n / 2 ^ 30 % 4, n / 2 ^ 16 % 2 ^ 13, n % 2 ^ 14⟩

/-- A position as a payload carries it. -/
def BPos.toNat (p : BPos) : Nat := p.sf % 4 * 2 ^ 30 + p.line % 2 ^ 13 * 2 ^ 16 + p.dot % 2 ^ 14

/-- BEAM MARK (Table 2.1). -/
def Frame.mark (f : Frame) : Mark :=
  { frame := f.le 0 8, pos := posOfNat (f.le 8 4), corr := f.le 12 4, hops := f.le 16 1, hold := (f.le 17 1).testBit 0,
    locked := (f.le 17 1).testBit 1, rate := Machine.sext 32 (f.le 20 4) }

def Mark.bytes (m : Mark) : List Byte :=
  Machine.leBytes 8 m.frame ++ Machine.leBytes 4 m.pos.toNat ++ Machine.leBytes 4 m.corr ++ Machine.leBytes 1 m.hops
    ++ Machine.leBytes 1 (Machine.b2n m.hold + 2 * Machine.b2n m.locked) ++ [0, 0] ++ Machine.leBytes 4 (m.rate % 2 ^ 32).toNat

/-- A time in ps as a payload carries it, 64 bits two's complement. -/
def psBytes (t : Int) : List Byte := Machine.leBytes 8 (t % 2 ^ 64).toNat
def Frame.ps (f : Frame) (o : Nat) : Int := Machine.sext 64 (f.le o 8)

/-- BEAM VOTE: frame, sub-frame, stations counted and READY. -/
def voteBytes (frame sf counted ready : Nat) : List Byte :=
  Machine.leBytes 8 frame ++ Machine.leBytes 1 (sf % 4) ++ [0] ++ Machine.leBytes 2 (counted % 2 ^ 15)
    ++ Machine.leBytes 2 (ready % 2 ^ 15) ++ [0, 0]

/-- BEAM DECISION. -/
def decisionBytes (frame sf : Nat) (go : Bool) : List Byte :=
  Machine.leBytes 8 frame ++ Machine.leBytes 1 (sf % 4 + 128 * Machine.b2n go) ++ List.replicate 7 0

/-- BEAM PAIRREADY. -/
def pairReadyBytes (frame : Nat) (p : BPos) : List Byte := Machine.leBytes 8 frame ++ Machine.leBytes 4 p.toNat ++ List.replicate 4 0

/-- A HELLO record (Table 11.7). -/
def Hello.bytes (r : Hello) : List Byte :=
  Machine.leBytes 2 r.linkver ++ Machine.leBytes 2 r.feat ++ Machine.leBytes 2 r.id ++ Machine.leBytes 1 r.rxlanes ++ [0]
    ++ Machine.leBytes 2 r.maxpay ++ Machine.leBytes 4 r.versions ++ [0, 0] ++ Machine.leBytes 48 r.nonce

def Frame.hello (f : Frame) : Hello :=
  { linkver := f.le 0 2, feat := f.le 2 2, id := f.le 4 2 % 2 ^ 14, rxlanes := f.le 6 1 % 16, maxpay := f.le 8 2, versions := f.le 10 4,
    nonce := f.le 16 48 }

/-- KEYX: the peer's public key as a number, and the KEYID (R285). -/
def Frame.keyPub (f : Frame) : Nat := f.le 0 97
def Frame.keyId (f : Frame) : Nat := f.le 196 4

/-! Link control blocks (Table 11.2). -/

/-- One bit into the CRC-16 register: polynomial 0x1021, shifted towards bit 15. -/
def crc16Bit (c : Nat) (b : Bool) : Nat :=
  let top := c.testBit 15 != b
  (2 * c) % 65536 ^^^ (if top then 0x1021 else 0)

/-- The CRC-16 of the blocks that a lane carried, from 0xFFFF, in the order of transmission: sync header, then payload, each from its
lowest bit (log 85). -/
def crc16 (blocks : List (BitVec 66)) : Nat :=
  blocks.foldl (fun c b => (List.range 66).foldl (fun c i => crc16Bit c (b.getLsbD i)) c) 0xFFFF

def lcbField (b : BitVec 64) (hi lo : Nat) : Nat := b.toNat / 2 ^ lo % 2 ^ (hi + 1 - lo)

/-- The payload of a link control block. -/
def lcbOf (lane : Nat) (rf drop : Bool) (crc ack : Nat) (nak : Bool) (credit bcnt : Nat) : BitVec 64 :=
  BitVec.ofNat 64 (0xE1 + lane % 4 * 2 ^ 8 + Machine.b2n rf * 2 ^ 10 + Machine.b2n drop * 2 ^ 11 + crc % 2 ^ 16 * 2 ^ 12 + ack % 2 ^ 16 * 2 ^ 28
    + Machine.b2n nak * 2 ^ 44 + credit % 2 ^ 7 * 2 ^ 45 + bcnt % 2 ^ 12 * 2 ^ 52)

/-- Bytes that a frame takes in the replay buffer, in plaintext; and the ingress credit it uses (R287, R288). -/
def Frame.stored (f : Frame) : Nat := 16 + f.data.length
def Frame.units (f : Frame) : Nat := (f.data.length + 40 + 63) / 64

/-- The pieces of a segmentable frame for a MAXPAY: header bytes kept, then the data cut at 16-byte boundaries with the address
or offset moved; NOTIFY goes only with the last (R277). -/
def Frame.segments (f : Frame) (maxpay : Nat) : List Frame :=
  if f.data.length ≤ maxpay ∨ !f.segmentable then [f] else
  let (hd, off, width) : Nat × Nat × Nat := match f.type, f.sub with
    | 1, 0 => (8, 0, 4)
    | 2, _ => (16, 8, 4)
    | 5, 0 => (16, 8, 2)
    | _, _ => (8, 4, 4)
  let room := (maxpay - hd) / 16 * 16
  let per := if f.type = 5 then room / 48 * 48 else room
  if per = 0 then [f] else
  let body := f.data.drop hd
  let count := (body.length + per - 1) / per
  (List.range count).map fun i =>
    let part := (body.drop (i * per)).take per
    let moved := f.le off width + (if f.type = 5 then i * per / 6 else i * per)
    let head0 := (f.data.take off) ++ Machine.leBytes width moved ++ (f.data.take hd).drop (off + width)
    let head := if f.type = 5 then head0.take 10 ++ Machine.leBytes 2 (part.length / 6) ++ head0.drop 12 else head0
    { f with data := head ++ part, notify := f.notify && decide (i + 1 = count) }

end Sys2Proof
end

