-- ==== Sys2Proof/Machine/Link.lean ====
section
/-! DEFINITION. Aketh hops: what a hop is, how frames are sent on it and answered, and how a frame finds its way through the
ring and the tree (R273 to R299). -/

namespace Sys2Proof.Machine

/-! Hops. -/

def State.hop (s : State) : Hop → HopSt
  | .ringA => s.link.ringA
  | .ringB => s.link.ringB
  | .trunkA => s.link.trunkA
  | .trunkB => s.link.trunkB

def State.setHop (h : Hop) (x : HopSt) (s : State) : State :=
  { s with link := match h with
    | .ringA => { s.link with ringA := x }
    | .ringB => { s.link with ringB := x }
    | .trunkA => { s.link with trunkA := x }
    | .trunkB => { s.link with trunkB := x } }

/-- The register that shows a hop (Table 11.12). -/
def linkReg (h : Hop) : Nat := if hopTrunk h then Reg.AKx_TRUNK (hopPort h) else Reg.AKx_LINK (hopPort h)

def State.hopState (s : State) (h : Hop) : Nat := s.f (linkReg h) 2 0
def State.setHopState (h : Hop) (st : Nat) (s : State) : State := s.setF (linkReg h) 2 0 st
def State.hopVer (s : State) (h : Hop) : Nat := s.f (linkReg h) 5 4
def State.hopFeat (s : State) (h : Hop) (bit : Nat) : Bool := s.bit (linkReg h) (20 + bit)

/-- A trunk hop that BEAM_TRUNK names on lane 3 of a port (R45): the trunk-in, or a trunk-out. -/
def State.trunkIn (s : State) (x : Nat) : Bool := decide (s.f Reg.BEAM_TRUNK 1 0 = x + 1)
def State.trunkOut (s : State) (x : Nat) : Bool := s.bit Reg.BEAM_TRUNK (2 + x)
def State.trunkOn (s : State) (x : Nat) : Bool := s.trunkIn x || s.trunkOut x

def State.role (s : State) (x : Nat) : Nat := s.f (Reg.AKx_CFG x) 1 0

/-- The hop of a port in an Ethernet role (R303). -/
def State.isEth (s : State) (h : Hop) : Bool := !hopTrunk h && decide (2 ≤ s.role (hopPort h))

/-- The hop exists (R273). -/
def State.hopOn (s : State) (h : Hop) : Bool :=
  if hopTrunk h then s.trunkOn (hopPort h) else decide (s.role (hopPort h) ≠ 0)

/-- The lanes of a hop (R273, R303). -/
def State.hopLanes (s : State) (h : Hop) : List Nat :=
  if hopTrunk h then (if s.trunkOn (hopPort h) then [3] else [])
  else match s.role (hopPort h) with
    | 0 => []
    | 2 => [0]
    | _ => if s.trunkOn (hopPort h) then [0, 1, 2] else [0, 1, 2, 3]

/-- Lanes in use, degraded and lost (Table 11.12). -/
def State.laneBit (s : State) (h : Hop) (field l : Nat) : Bool := s.bit (linkReg h) (field + l)
def State.setLane (h : Hop) (field l : Nat) (b : Bool) (s : State) : State := s.setBit (linkReg h) (field + l) b
def State.lanesUsed (s : State) (h : Hop) : List Nat := (s.hopLanes h).filter fun l => s.laneBit h 8 l

/-- The peer of a hop, as AKx_PEER shows it. -/
def State.peerId (s : State) (h : Hop) : Nat :=
  if hopTrunk h then s.f (Reg.AKx_PEER (hopPort h)) 29 16 else s.f (Reg.AKx_PEER (hopPort h)) 13 0

def State.setPeer (h : Hop) (id : Nat) (s : State) : State :=
  if hopTrunk h then s.setF (Reg.AKx_PEER (hopPort h)) 29 16 id else s.setF (Reg.AKx_PEER (hopPort h)) 13 0 id

/-- A bit of AKx_STAT, with the peer ID as ARG2 (Table 18.4). -/
def State.akRaise (h : Hop) (bit : Nat) (s : State) : State :=
  s.raise (stAK (hopPort h)) bit 0 (wd (s.peerId h)) 0

/-- The hop has the feature the frame needs. -/
def State.carries (s : State) (h : Hop) (f : Frame) : Bool :=
  match f.needs with
  | some b => s.hopFeat h b
  | none => true

/-! Sending on a hop (R285 to R288, R294). -/

/-- The hop acknowledges and keeps frames: it has agreed REPLAY (R287, Table 11.10, R306). -/
def State.replays (s : State) (h : Hop) : Bool := !s.isEth h && s.hopFeat h 0

def replayFill (l : List Frame) : Nat := (l.map Frame.stored).sum

/-- AKx_RFILL shows the bytes in the port's replay buffer. -/
def State.showFill (h : Hop) (s : State) : State :=
  if hopTrunk h then s else s.setReg (Reg.AKx_RFILL (hopPort h)) (wd (replayFill (s.hop h).replay))

/-- The highest fleet slot loaded, else the factory key (R458). -/
def State.linkKey (s : State) : Nat :=
  s.sec.fleet.foldl max 0

/-- A MAC address of the port, from two registers. -/
def State.mac (s : State) (lo hi : Nat) : Nat := (s.reg lo).toNat + 2 ^ 32 * s.f hi 15 0

/-- `n` bytes of a number, the highest first, as Ethernet fields are sent. -/
def netBytes (n v : Nat) : List Byte := (leBytes n v).reverse

/-- The Ethernet frame that carries an Aketh frame (R304). -/
def State.etherFrame (x : Nat) (body : List Byte) (s : State) : List Byte :=
  let e := Reg.AKx_ETYPE x
  let tag := if s.bit e 31 then netBytes 2 0x8100 ++ netBytes 2 (s.f e 30 28 * 2 ^ 13 + s.f e 27 16) else []
  let bs := netBytes 6 (s.mac (Reg.AKx_GWMACLO x) (Reg.AKx_GWMACHI x)) ++ netBytes 6 (s.mac (Reg.AKx_MACLO x) (Reg.AKx_MACHI x)) ++ tag
    ++ netBytes 2 (s.f e 15 0) ++ body
  bs ++ leBytes 4 (crc32 bs)

/-- The bytes of a frame as they go out: the header, the payload sealed under the key given, and the tag; the IV is the key's salt and the
counter, whose bit 63 marks the class 0 series (R276, R285, R304). -/
def State.wire (h : Hop) (f : Frame) (count key : Nat) (s : State) : List Byte :=
  let head := leBytes 16 f.header
  let iv := key / 2 ^ 256 % 2 ^ 32 + 2 ^ 32 * (count % 2 ^ 63 + (if f.cls = 0 then 2 ^ 63 else 0))
  let body := head ++ leBytes (f.data.length + 16) (Config.gcmSeal (key % 2 ^ 256) iv head f.data)
  if s.isEth h then s.etherFrame (hopPort h) body else body

/-- The version that a frame's header carries: before the hop has agreed one, that of the rate it trains at. -/
def State.headVer (s : State) (h : Hop) : Nat := if s.hopVer h = 0 then (s.hop h).idleVer else s.hopVer h

/-- The frame that a KEYX of this station is, for the key pair `n` (R285): the signature is over both HELLO payloads and the key bytes. -/
def State.keyxFrame (h : Hop) (n : Nat) (s : State) : Frame :=
  let x := s.hop h
  let pub := leBytes 97 (Config.ecdhPublic n)
  let peer := match x.peer with | some p => p.bytes | none => []
  let sig := leBytes 96 (Config.linkSign s.linkKey (leBytes 64 x.helloRec ++ peer ++ pub))
  { type := 4, sub := 1, ver := 2, dmode := 3, wrap := 0, notify := false, kp := false, dst := 0, src := s.stationId, seq := 0, rseq := 0,
    rsrc := 0, data := pub ++ [0, 0, 0] ++ sig ++ leBytes 4 s.linkKey }

/-- A frame starts to leave: it takes its SEQ, version and key phase, uses credit, and stays in the replay buffer (R285 to
R288). A counter that reaches 2^40 asks for new keys: the KEYX waits as a frame of class 4. -/
def State.transmit (h : Hop) (f : Frame) (s : State) : State :=
  let x := s.hop h
  let due := fun (t : State) =>
    if (t.hop h).rekey then t else
    let (n, u) := t.draw
    let y := { u.hop h with rekey := true, eph := n }
    let v := u.setHop h y
    v.setHop h { y with wait := y.wait ++ [(false, v.keyxFrame h n)] }
  if f.cls = 0 then
    let g := { f with ver := s.headVer h, seq := x.tx0 % 2 ^ 32, kp := x.kp }
    let t := (s.setHop h { x with tx0 := x.tx0 + 1 }).emit (.frame h g (s.wire h g x.tx0 x.txKey))
    if x.tx0 + 1 = 2 ^ 40 then due t else t
  else
    let g := { f with ver := s.headVer h, seq := x.tx % 2 ^ 32, kp := x.kp }
    let credit := if s.isEth h then x.credit else x.credit - f.units
    let replay := if s.replays h then x.replay ++ [g] else x.replay
    let t := ((s.setHop h { x with tx := x.tx + 1, credit := credit, replay := replay }).emit
      (.frame h g (s.wire h g x.tx x.txKey))).showFill h
    if x.tx + 1 = 2 ^ 40 then due t else t

/-- A frame of classes 1 to 5 may leave now: there is credit and room in the replay buffer (R287, R288). -/
def State.mayLeave (s : State) (h : Hop) (f : Frame) : Bool :=
  let x := s.hop h
  s.isEth h || (decide (f.units ≤ x.credit) && (!s.replays h || decide (replayFill x.replay + f.stored ≤ 262144)))

/-- The first waiting frame of a class: transit frames go before injected ones (R294). -/
def waitHead (l : List (Bool × Frame)) (c : Nat) : Option (Bool × Frame) :=
  (l.find? fun e => e.1 && decide (e.2.cls = c)) <|> (l.find? fun e => decide (e.2.cls = c))

/-- The weight of class `c` of 2 to 5 on a port. -/
def State.weight (s : State) (h : Hop) (c : Nat) : Nat := s.f (Reg.AKx_WRR (hopPort h)) (8 * (c - 2) + 7) (8 * (c - 2))

/-- The next class of 2 to 5 to send by deficit round robin, with the round's state after it (R294). -/
def State.drr (h : Hop) : Nat → State → Option Nat × State
  | 0, s => (none, s)
  | fuel + 1, s =>
    let x := s.hop h
    let waits := [2, 3, 4, 5].filter fun c => (waitHead x.wait c).isSome
    match waits with
    | [] => (none, s)
    | [c] => (some c, s)
    | c0 :: _ =>
      if waits.all fun c => decide (s.weight h c = 0) then (some c0, s) else
      let d := match x.deficit[x.cur - 2]? with | some v => v | none => 0
      match waitHead x.wait x.cur with
      | some e =>
        if decide (s.weight h x.cur ≠ 0) && decide (e.2.stored + 24 ≤ d) then
          (some x.cur, s.setHop h { x with deficit := x.deficit.set (x.cur - 2) (d - (e.2.stored + 24)) })
        else
          let n := if x.cur = 5 then 2 else x.cur + 1
          let dn := match x.deficit[n - 2]? with | some v => v | none => 0
          State.drr h fuel (s.setHop h { x with cur := n, deficit := x.deficit.set (n - 2) (dn + 256 * s.weight h n) })
      | none =>
        let n := if x.cur = 5 then 2 else x.cur + 1
        let dn := match x.deficit[n - 2]? with | some v => v | none => 0
        let cleared := x.deficit.set (x.cur - 2) 0
        State.drr h fuel (s.setHop h { x with cur := n, deficit := cleared.set (n - 2) (dn + 256 * s.weight h n) })

/-- The frame that leaves next, if one waits. -/
def State.nextOut (h : Hop) (s : State) : Option (Bool × Frame) × State :=
  match waitHead (s.hop h).wait 1 with
  | some e => (some e, s)
  | none =>
    match State.drr h 64 s with
    | (some c, t) => (waitHead (s.hop h).wait c, t)
    | (none, t) => (none, t)

/-- Waiting frames leave while credit and room last. -/
def State.drain (h : Hop) : Nat → State → State
  | 0, s => s
  | fuel + 1, s =>
    if !s.hopUp h then s else
    match s.nextOut h with
    | (some e, t) =>
      if s.mayLeave h e.2 then
        let x := t.hop h
        State.drain h fuel ((t.setHop h { x with wait := x.wait.erase e }).transmit h e.2)
      else s
    | (none, _) => s

def State.drainAll (h : Hop) (s : State) : State := State.drain h ((s.hop h).wait.length) s

/-- A frame is put on a hop: discarded where the hop lacks its feature, split to the hop's MAXPAY, and sent or left waiting
(R277, R287, R288, Table 11.10). -/
def State.put (h : Hop) (transit : Bool) (f : Frame) (s : State) : State :=
  if !s.carries h f then (s.count (Reg.AKx_DROP (hopPort h)) 31 16).akRaise h 9
  else if f.cls = 0 then
    if s.isEth h then s else s.transmit h f
  else
    let t := (f.segments (s.hop h).maxpay).foldl (fun t g =>
      let x := t.hop h
      t.setHop h { x with wait := x.wait ++ [(transit, g)] }) s
    t.drainAll h

/-- A KEYX of this station leaves on an UP hop (R285). -/
def State.startRekey (h : Hop) (s : State) : State :=
  if (s.hop h).rekey then s else
  let (n, t) := s.draw
  let u := t.setHop h { t.hop h with rekey := true, eph := n }
  u.put h false (u.keyxFrame h n)

/-! Routing (R290 to R293). -/

def State.ringPos (s : State) : Nat := s.stationId % 64
def State.ringNo (s : State) : Nat := s.stationId / 64

/-- The stations of the ring in the order of port A (R286): the census order, or for an open chain the port B side, backwards,
before the port A side. -/
def ringOrder (closed : Bool) (l : List CEntry) : List CEntry :=
  if closed then l else
  let side := l.takeWhile fun e => decide (e.verA ≠ 0)
  let a := l.take (side.length + 1)
  (l.drop (side.length + 1)).reverse ++ a

/-- The port A hop of station `e`, to station `e'`, is up, unbroken and has the feature. -/
def State.ringHopClear (s : State) (need : Option Nat) (e e' : CEntry) : Bool :=
  decide (e.verA ≠ 0) && !s.link.breaks.contains (e.id % 64, 0) && !s.link.breaks.contains (e'.id % 64, 1) &&
    (match need with | some b => e.featA.testBit b | none => true)

/-- Every hop of a walk along port A is clear. -/
def State.walkClear (s : State) (need : Option Nat) : List CEntry → Bool
  | e :: e' :: rest => s.ringHopClear need e e' && s.walkClear need (e' :: rest)
  | _ => true

def ringHop (x : Nat) : Hop := if x = 0 then .ringA else .ringB
def trunkHop (x : Nat) : Hop := if x = 0 then .trunkA else .trunkB

/-- A ring port that is UP; a port in an Ethernet role is no ring port (R291, R303). -/
def State.ringUp (s : State) (x : Nat) : Bool := s.hopUp (ringHop x) && !s.isEth (ringHop x)

/-- The UP Ethernet port whose gateway holds a frame's destination (R306). -/
def State.gatePort (s : State) (f : Frame) : Option Nat :=
  if f.dmode = 0 then
    ([0, 1] : List Nat).find? fun x => s.isEth (ringHop x) && s.hopUp (ringHop x) && decide (s.f (Reg.AKx_ETHCFG x) 29 16 = f.dst)
  else none

/-- The port a DMODE 0 frame for the own ring leaves by: the shorter clear direction, port A where equal (R292). -/
def State.ringPort (s : State) (dst : Nat) (need : Option Nat) : Option Nat :=
  let order := ringOrder s.link.closed s.link.census
  match order.findIdx? (fun e => decide (e.id = s.stationId)), order.findIdx? (fun e => decide (e.id = dst)) with
  | some i, some j =>
    let n := order.length
    let at_ := fun k => match order[k % n]? with | some e => e | none => ⟨0, 0, 0, 0, 0⟩
    let up := (j + n - i) % n
    let down := (i + n - j) % n
    let walkA := (List.range (up + 1)).map fun k => at_ (i + k)
    let walkB := (List.range (down + 1)).map fun k => at_ (j + k)
    let okA := (s.link.closed || decide (i ≤ j)) && s.ringUp 0 && s.walkClear need walkA
    let okB := (s.link.closed || decide (j ≤ i)) && s.ringUp 1 && s.walkClear need walkB
    if okA ∧ (!okB ∨ up ≤ down) then some 0 else if okB then some 1 else none
  | _, _ => none

/-- The trunks that a frame of the station's own injection came from or has gone down (R293). -/
def State.cameFrom (s : State) (f : Frame) : List Hop :=
  if f.rsrc = s.ringPos then
    match s.link.injected.find? fun e => decide (e.1 = f.rseq) with
    | some e => e.2
    | none => []
  else []

/-- The trunk-outs that a frame goes down: those whose rings its destination lies in, and for DMODE 2 every one where it arrives from the ring,
but none that `not_` names (R293). -/
def State.downTrunks (not_ : List Hop) (ringArrival : Bool) (f : Frame) (s : State) : List Hop :=
  (([0, 1] : List Nat).filter fun x =>
    let r := f.dst / 64
    let inRange := decide (s.f (Reg.AKx_TOUTRNG x) 7 0 ≤ r) && decide (r ≤ s.f (Reg.AKx_TOUTRNG x) 15 8)
    s.trunkOut x && s.hopUp (trunkHop x) && !not_.contains (trunkHop x) && decide (f.dmode ≠ 3) &&
      ((decide (f.dmode ≠ 2) && inRange) || (decide (f.dmode = 2) && ringArrival))).map trunkHop

/-- A frame goes down those trunks. -/
def State.copyDown (not_ : List Hop) (ringArrival : Bool) (f : Frame) (s : State) : State :=
  (s.downTrunks not_ ringArrival f).foldl (fun t h => t.put h true f) s

/-- A ring head's trunk-in port. -/
def State.trunkInPort (s : State) : Option Nat := if s.trunkIn 0 then some 0 else if s.trunkIn 1 then some 1 else none

/-- A ring head copies a frame that arrives from its ring up its trunk-in (R293), unless it came from there. -/
def State.copyUp (not_ : List Hop) (f : Frame) (s : State) : State :=
  match s.trunkInPort with
  | some x =>
    let r := f.dst / 64
    let outside := decide (r < s.ringNo) || decide (s.f (Reg.AKx_TINLAST x) 7 0 < r)
    if s.hopUp (trunkHop x) && !not_.contains (trunkHop x) && decide (f.dmode ≠ 3) && (decide (f.dmode = 2) || outside) then
      s.put (trunkHop x) true f
    else s
  | none => s

/-- The next ring sequence number is taken, and the trunks noted that the frame came from or has gone down. -/
def State.takeRingSeq (trunks : List Hop) (s : State) : State :=
  let n := s.link.ringSeq % 65536
  let rest := s.link.injected.filter fun e => decide (e.1 ≠ n)
  { s with link := { s.link with ringSeq := (s.link.ringSeq + 1) % 65536, injected := if trunks.isEmpty then rest else (n, trunks) :: rest } }

/-- The station puts a frame onto its ring: RSRC, RSEQ and WRAP, and the egress port of R292 (R290). -/
def State.inject (trunks : List Hop) (f : Frame) (s : State) : State :=
  let g := { f with rsrc := s.ringPos, rseq := s.link.ringSeq % 65536, wrap := 0 }
  let s1 := s.takeRingSeq trunks
  if f.dmode = 0 ∧ f.dst / 64 = s.ringNo ∧ (s.link.census.any fun e => decide (e.id = f.dst)) = true then
    match s1.ringPort f.dst f.needs with
    | some x => s1.put (ringHop x) false g
    | none => (s1.count (Reg.AKx_DROP 0) 31 16).akRaise .ringA 9
  else if s1.ringUp 0 then s1.put .ringA false g
  else if s1.ringUp 1 then s1.put .ringB false g
  else s1

/-- A frame of the station's own leaves on the named port: an upstream frame (R281). -/
def State.injectOn (x : Nat) (f : Frame) (s : State) : State :=
  let g := { f with rsrc := s.ringPos, rseq := s.link.ringSeq % 65536, wrap := 0 }
  let s1 := s.takeRingSeq []
  if s1.hopUp (ringHop x) then s1.put (ringHop x) false g else s1

/-- A frame of the station's own, to be given its place on the ring. -/
def State.newFrame (s : State) (type sub dmode dst : Nat) (data : List Byte) : Frame :=
  { type := type, sub := sub, ver := 2, dmode := dmode, wrap := 0, notify := false, kp := false, dst := dst, src := s.stationId,
    seq := 0, rseq := 0, rsrc := 0, data := data }

/-- The station sends a frame that it originates: onto its ring, and down or up a trunk where the destination lies there. -/
def State.originate (f : Frame) (s : State) : State :=
  if f.dmode = 0 ∧ f.dst = s.stationId then s
  else match s.gatePort f with
    | some x => s.put (ringHop x) false f
    | none => ((s.copyDown [] true f).copyUp [] f).inject (s.downTrunks [] true f ++ (s.trunkInPort.map trunkHop).toList) f

/-- Turned back by a port that is not UP: WRAP grows, and a frame that would need 3 is discarded (R291). -/
def State.turnBack (x : Nat) (f : Frame) (s : State) : State :=
  if f.wrap + 1 ≥ 3 then s else s.put (ringHop x) true { f with wrap := f.wrap + 1 }

/-- What becomes, beside acceptance here, of a frame that arrives on a ring port (R291). One of the station's own that ends here goes down the
trunk-outs it has not gone down if it is for every station (R293). -/
def State.passRing (x : Nat) (f : Frame) (s : State) : State :=
  let other := 1 - x
  let not_ := s.cameFrom f
  if f.dmode = 3 ∨ (f.dmode = 0 ∧ f.dst = s.stationId) ∨ (s.gatePort f).isSome = true then s
  else if f.rsrc = s.ringPos ∧ f.wrap ≠ 1 then (if f.dmode = 2 then s.copyDown not_ true f else s)
  else
    let s1 := (s.copyDown not_ true f).copyUp not_ f
    if s1.ringUp other then s1.put (ringHop other) true f else s1.turnBack x f

/-- A frame that arrives on a trunk or from Ethernet is brought onto the ring, and may go on down another trunk (R290, R293,
R306). -/
def State.passIn (h : Hop) (f : Frame) (s : State) : State :=
  if f.dmode = 3 ∨ (f.dmode = 0 ∧ f.dst = s.stationId) ∨ (s.gatePort f).isSome = true then s
  else
    let s1 := s.copyDown [h] false f
    let down := h :: s.downTrunks [h] false f
    let fromIn := match s.trunkInPort with | some x => decide (h = trunkHop x) | none => false
    let outside := match s.trunkInPort with
      | some x => decide (f.dst / 64 < s.ringNo) || decide (s.f (Reg.AKx_TINLAST x) 7 0 < f.dst / 64)
      | none => false
    if hopTrunk h && !fromIn && outside then (s1.copyUp [] f).inject (down ++ (s.trunkInPort.map trunkHop).toList) f else s1.inject down f

/-! Receiving (R277, R287, R290). -/

/-- A discarded frame (R277). -/
def State.dropFrame (h : Hop) (s : State) : State := (s.count (Reg.AKx_DROP (hopPort h)) 15 0).akRaise h 7

/-- The frame breaks no rule of R277. -/
def State.frameOk (s : State) (h : Hop) (f : Frame) : Bool :=
  knownSub f.type f.sub && decide (f.ver = s.headVer h) && decide (f.wrap ≠ 3) && decide (f.data.length ≤ (s.hop h).maxpay) && f.payloadOk

/-- The chip is asleep and something wakes it (R408). -/
def State.rouse (s : State) : State := if s.pwr.state = 0 then s else { s with pwr := { s.pwr with waking := true } }

/-- The hop takes the frame: its SEQ is the one expected and its tag verifies (R287, R306). `ok` is what verifying the tag, or on
Ethernet the FCS and the tag, finds. In NAP and deeper the framers stand still: the start of a frame wakes the chip (R404, R408). -/
def State.hopTakes (h : Hop) (ok : Bool) (f : Frame) (s : State) : Bool × State :=
  let x := s.hop h
  if !s.hopUp h then (false, s)
  else if 3 ≤ s.pwr.state then (false, s.rouse)
  else if s.isEth h then
    if !ok || decide (f.cls = 0) then (false, s.count (Reg.AKx_CNT (hopPort h)) 15 0)
    else match x.rx0 with
      | some l => if l < f.seq then (true, s.setHop h { x with rx0 := some f.seq }) else (false, s)
      | none => (true, s.setHop h { x with rx0 := some f.seq })
  else if f.cls = 0 then
    if !ok then (false, s.count (Reg.AKx_CNT (hopPort h)) 15 0)
    else match x.rx0 with
      | some l => if l < f.seq then (true, s.setHop h { x with rx0 := some f.seq }) else (false, s)
      | none => (true, s.setHop h { x with rx0 := some f.seq })
  else if !ok then
    let s1 := s.count (Reg.AKx_CNT (hopPort h)) 15 0
    if s.replays h then (false, s1.setHop h { x with nak := true }) else (false, s1.setHop h { x with rx := x.rx + 1 })
  else if f.seq = x.rx % 2 ^ 32 then (true, s.setHop h { x with rx := x.rx + 1, nak := false, owed := x.owed + f.units })
  else (false, s)

/-- The station is addressed, itself or for its gateway (R290, R306). -/
def State.addressed (s : State) (f : Frame) : Bool :=
  (decide (f.dmode = 0) && decide (f.dst = s.stationId)) || (s.gatePort f).isSome || (decide (f.dmode = 1) && decide (f.dst / 64 = s.ringNo)) ||
    decide (f.dmode = 2)

/-- The acceptance test of a frame that comes round the ring (R290). -/
def State.acceptRing (f : Frame) (s : State) : Bool × State :=
  let fill := fun (t : State) =>
    { t with link := { t.link with accepted := (f.rsrc, f.rseq) :: t.link.accepted.filter fun e => decide (e.1 ≠ f.rsrc) } }
  match s.link.accepted.find? fun e => decide (e.1 = f.rsrc) with
  | none => (true, fill s)
  | some e =>
    let d := (f.rseq + 65536 - e.2) % 65536
    if 1 ≤ d ∧ d ≤ 32767 then (true, fill s) else (false, s)

/-- R46: a station whose HELLO or census check failed takes no SCENE, PLANE or SOUND addressed to it or its ring. -/
def State.misplacedRefuses (s : State) (f : Frame) : Bool :=
  s.sig.misplaced && decide (1 ≤ f.type) && decide (f.type ≤ 3) && decide (f.dmode ≤ 1)

/-- The outgoing copy of a transit frame whose incoming tag fails: it had begun to leave, ends with an error block, and its SEQ is used again
(R289). A frame that would have had to wait leaves nothing. -/
def State.breakCopy (h : Hop) (f : Frame) (s : State) : State :=
  let out := ringHop (1 - hopPort h)
  let x := s.hop out
  let ends := decide (f.dmode = 3) || (decide (f.dmode = 0) && decide (f.dst = s.stationId)) || (s.gatePort f).isSome
    || (decide (f.rsrc = s.ringPos) && decide (f.wrap ≠ 1))
  let free := decide (f.cls = 0) || (x.wait.isEmpty && s.mayLeave out f)
  if hopTrunk h || s.isEth h || ends || !s.ringUp (1 - hopPort h) || !s.carries out f || !free || !s.frameOk h f then s
  else s.emit (.errorFrame out { f with ver := s.headVer out, seq := (if f.cls = 0 then x.tx0 else x.tx) % 2 ^ 32, kp := x.kp })

/-- A frame arrives on a hop: what the hop, the rules and the ring make of it. Answers whether the station accepts it; the copy
that goes on has been sent. -/
def State.arrives (h : Hop) (ok : Bool) (f : Frame) (s : State) : Bool × State :=
  match s.hopTakes h ok f with
  | (false, t) => (false, if !ok && s.hopUp h && decide (f.cls = 0 ∨ f.seq = (s.hop h).rx % 2 ^ 32) then t.breakCopy h f else t)
  | (true, t0) =>
    if !t0.frameOk h f then (false, t0.dropFrame h) else
    let mine := t0.addressed f
    let t := if mine then t0.rouse else t0
    let gate := fun (a : Bool) (v : State) => match t.gatePort f with
      | some x => (false, if a then v.put (ringHop x) true f else v)
      | none => (a && !t.misplacedRefuses f, v)
    if hopTrunk h || t.isEth h then gate mine (t.passIn h f)
    else
      let u := t.passRing (hopPort h) f
      if f.dmode = 3 then (true, u)
      else if mine && decide (f.rsrc ≠ s.ringPos) then
        let (a, v) := u.acceptRing f
        gate a v
      else (false, u)

end Sys2Proof.Machine
end

