-- ==== Sys2Proof/Machine/Marks.lean ====
section
/-! DEFINITION. The records of frame type BEAM that end at a station: marks, delay probes, votes, decisions and pair-ready records, each
sent to the next station only (R49 to R52, R62 to R67, R277, R278, R287). -/

namespace Sys2Proof.Machine

/-- A BEAM record goes to the neighbour on a hop: DMODE 3, since each station makes its own of what it passes on (DEDUCED, log 89). -/
def State.sendRecord (h : Hop) (sub : Nat) (data : List Byte) (s : State) : State := s.put h false (s.newFrame 0 sub 3 0 data)

/-- A BEAM record arrives: whether the hop and the rules of R277 take it. A hop without the feature of the subtype carries none
(Table 11.10, R308). -/
def State.takeRecord (sub : Nat) (h : Hop) (ok : Bool) (f : Frame) (s : State) : Bool × State :=
  if f.type ≠ 0 ∨ f.sub ≠ sub ∨ s.carries h f = false then (false, s) else
  match s.hopTakes h ok f with
  | (true, t) => if t.frameOk h f then (true, t) else (false, t.dropFrame h)
  | (false, t) => (false, t)

/-! Marks (R49, R50, R52). -/

/-- `BEAM_MARK_SEND`: the system head sends a mark at dot 0 of a line that is a multiple of 16 (R49). RATE is the offset of its own beam. In
NAP and deeper it sends none (R405). -/
def execBeamMarkSend (sf line : Nat) (s : State) : Res :=
  if s.frozen then .next s else
  if s.isHead && s.running && decide (line % 16 = 0) && decide (line < s.total) && decide (sf ≤ s.subfm1)
      && decide (s.pwr.state < 3) then
    let p : BPos := ⟨sf, line, 0⟩
    let s1 := s.setPos p
    let m : Mark := ⟨s.beam.frame, p, 0, 0, decide (s.lock = 3), decide (s.lock = 2), -s.freqTerm⟩
    let s2 := { s1 with beam := { s1.beam with seen := (s.beam.frame, p) :: s1.beam.seen } }
    .next (s2.spreadHops.foldl (fun t h => t.sendRecord h 0 m.bytes) s2)
  else .next s

/-- The mark that a station passes on (R50). -/
def State.passedMark (s : State) (hop : Hop) (m : Mark) (residence : Nat) : Mark :=
  { m with corr := (m.corr + s.f (linkDlyReg hop) 23 0 + residence) % 2 ^ 32, hops := m.hops + 1, hold := m.hold || decide (s.lock = 3) }

/-- `BEAM_MARK`: a mark received on a hop. One with HOPS ≥ 192 is discarded. Any other tells what the port delivers and is used if it comes
from the source (R52); one already forwarded goes no further, and one not yet forwarded is passed on with CORR, HOPS and HOLD updated (R50, log
90). `own` is the station's own beam time at the ingress timestamp, in ps from its frame's 0:0; `residence` is the time the mark stays in the
station, in ps. -/
def execBeamMark (hop : Hop) (ok : Bool) (f : Frame) (own : Int) (residence : Nat) (s0 : State) : Res :=
  if s0.frozen then .next s0 else
  match s0.takeRecord 0 hop ok f with
  | (false, s) => .next s
  | (true, s) =>
    let m := f.mark
    if m.hops ≥ 192 then .next s else
    let s1 := s.noteHops hop (some m.hops)
    let s2 := if s1.sourceHop = some hop then s1.useMark hop m own else s1
    if s.pwr.state ≥ 3 ∨ (m.frame, m.pos) ∈ s.beam.seen then .next s2 else
    let s3 := { s2 with beam := { s2.beam with seen := (m.frame, m.pos) :: s2.beam.seen } }
    .next ((s3.spreadHops.filter (fun h => decide (h ≠ hop))).foldl
      (fun t h => t.sendRecord h 0 (s3.passedMark hop m residence).bytes) s3)

/-! Delay probes (R51). -/

/-- `DELAY_PROBE_SEND`. -/
def execDelayProbeSend (hop : Hop) (t1 : Int) (s : State) : Res :=
  if s.frozen then .next s else
  .next (if s.hopUp hop then s.sendRecord hop 1 (psBytes t1) else s)

/-- `PROBE`: answered with the three times. -/
def execProbe (hop : Hop) (ok : Bool) (f : Frame) (t2 t3 : Int) (s : State) : Res :=
  if s.frozen then .next s else
  match s.takeRecord 1 hop ok f with
  | (false, t) => .next t
  | (true, t) => .next (t.sendRecord hop 2 (psBytes (f.ps 0) ++ psBytes t2 ++ psBytes t3))

/-- The link delay that one probe gives, in ps. -/
def State.probeDelay (s : State) (hop : Hop) (t1 t2 t3 t4 : Int) : Int :=
  ((t4 - t1) - (t3 - t2)) / 2 + sext 16 (s.f (asymReg hop) 15 0)

/-- `REPLY`: the link delay, averaged over the last 16 probes, in the hop's register. -/
def execReply (hop : Hop) (ok : Bool) (f : Frame) (t4 : Int) (s0 : State) : Res :=
  if s0.frozen then .next s0 else
  match s0.takeRecord 2 hop ok f with
  | (false, s) => .next s
  | (true, s) =>
    let l := (s.probeDelay hop (f.ps 0) (f.ps 8) (f.ps 16) t4 :: s.delaysOf hop).take 16
    let mean := l.foldl (· + ·) 0 / (l.length : Int)
    .next ((s.setDelays hop l).setF (linkDlyReg hop) 23 0 ((mean % 2 ^ 24).toNat))

/-! The wall's vote (R62 to R64). -/

/-- The neighbour on ring port `x` takes its beam time from this station (R52, R67). Its marks of this station carry this station's HOPS; what it
sends back it has from its other side, one hop nearer. A ring head takes none from the ring, and a follower takes it from its leader. Port A of
the one joins port B of the other (R45; DEDUCED, log 91). -/
def State.neighbourTakes (s : State) (x : Nat) : Bool :=
  let mine := if s.isHead then 0 else s.f Reg.BEAM_LOCKSTAT 15 8
  let pairPort := s.beam.paired && decide (s.f Reg.BEAM_PAIR 18 18 = x)
  if s.sourceHop = some (ringHop x) ∨ s.peerId (ringHop x) % 64 = 0 then false
  else if pairPort then !s.bit Reg.BEAM_PAIR 17
  else match (if x = 0 then s.beam.hopsA else s.beam.hopsB) with
    | none => true
    | some v => decide (mine + 1 < v) || (decide (mine + 1 = v) && decide (x = 1))

/-- The hops of the downstream ports: ring ports whose neighbour takes beam time from this station, and trunk-outs (R62). -/
def State.downHops (s : State) : List Hop :=
  s.spreadHops.filter fun h => hopTrunk h || s.neighbourTakes (hopPort h)

/-- `VOTE`: a downstream record is merged; one that comes after the station's own has left, or is of another sub-frame, is discarded and
counted. -/
def execVote (hop : Hop) (ok : Bool) (f : Frame) (s0 : State) : Res :=
  if s0.frozen then .next s0 else
  match s0.takeRecord 3 hop ok f with
  | (false, s) => .next s
  | (true, s) =>
    if s.beam.sent ∨ f.le 0 8 ≠ s.beam.frame ∨ f.le 8 1 % 4 ≠ s.beam.pos.sf then .next (s.count Reg.BEAM_VOTELATE 15 0)
    else .next { s with beam := { s.beam with counted := s.beam.counted + f.le 10 2 % 2 ^ 15, ready := s.beam.ready + f.le 12 2 % 2 ^ 15,
                                              heard := s.beam.heard ++ [hop] } }

/-- The station's own vote is cast and every downstream port has sent its record (R63). -/
def State.votesIn (s : State) : Bool := s.beam.vote.isSome && s.downHops.all fun h => s.beam.heard.contains h

/-- The beam at `pos` has reached the latest send instant, BEAM_VOTEDEC − (HOPS + 1) × 200 ns (R63). -/
def State.voteDue (s : State) (pos : BPos) : Bool :=
  decide (s.posPs { posOf (s.reg Reg.BEAM_VOTEDEC) with sf := pos.sf } ≤ s.posPs pos + (s.f Reg.BEAM_LOCKSTAT 15 8 + 1) * 200000)

/-- `VOTE_SEND`: with the beam at `pos` the merged record leaves on the source port, at the earlier of the two instants of R63. -/
def execVoteSend (pos : BPos) (s : State) : Res :=
  if s.frozen then .next s else
  if s.wallMode && s.running && !s.beam.sent && (s.votesIn || s.voteDue { pos with sf := s.beam.pos.sf }) then
    match s.sourceHop with
    | some h =>
      let s1 := s.setPos { pos with sf := s.beam.pos.sf }
      let (c, r) := s1.mergedVotes
      .next (({ s1 with beam := { s1.beam with sent := true } } : State).sendRecord h 3 (voteBytes s1.beam.frame s1.beam.pos.sf c r))
    | none => .next s
  else .next s

/-- A decision is forwarded downstream at once, and held if it is for the present sub-frame and comes by SWAPSTART:0 (R64). -/
def State.holdDecision (frame sf : Nat) (go : Bool) (from_ : Option Hop) (s : State) : State :=
  let now := decide ((frame, sf) = (s.beam.frame, s.beam.pos.sf)) && atOrBefore s.beam.pos ⟨sf, s.f Reg.BEAM_SWAPSTART 12 0, 0⟩
  let s1 := if now then { s with beam := { s.beam with decision := some go } } else s
  (s1.downHops.filter fun h => decide (some h ≠ from_)).foldl (fun t h => t.sendRecord h 4 (decisionBytes frame sf go)) s1

/-- `VOTE_DECISION`: the system head decides at BEAM_VOTEDEC. -/
def execVoteDecision (s : State) : Res :=
  if s.frozen then .next s else
  if s.isHead && s.wallMode && s.running then
    let p := posOf (s.reg Reg.BEAM_VOTEDEC)
    let s1 := s.setPos ⟨s.beam.pos.sf, p.line, p.dot⟩
    let (c, r) := s1.mergedVotes
    let go := decide (c = s1.f Reg.BEAM_SWAPCNT 14 0) && decide (r = c)
    .next (({ s1 with beam := { s1.beam with sent := true } } : State).holdDecision s1.beam.frame s1.beam.pos.sf go none)
  else .next s

/-- `DECISION`: one for a sub-frame that has passed is discarded. -/
def execDecision (hop : Hop) (ok : Bool) (f : Frame) (s0 : State) : Res :=
  if s0.frozen then .next s0 else
  match s0.takeRecord 4 hop ok f with
  | (false, s) => .next s
  | (true, s) =>
    let frame := f.le 0 8
    let sf := f.le 8 1 % 4
    if frame < s.beam.frame ∨ (frame = s.beam.frame ∧ sf < s.beam.pos.sf) then .next s
    else .next (s.holdDecision frame sf ((f.le 8 1).testBit 7) (some hop))

/-! Split pairs (R66, R67). -/

/-- The two stations compare: they form a pair if each names the other, their roles differ, and they are neighbours on the port named; if one of
the six registers differs the pair sets PAIRERR and holds every sub-frame until it agrees (R66). It is the active structure set that they compare; `v` is what the partner shows. -/
def State.judgePair (v : PairView) (s : State) : State :=
  let a := s.activeView
  let h := ringHop (a.f Reg.BEAM_PAIR 18 18)
  let w := wd v.pair
  let formed := a.bit Reg.BEAM_PAIR 16 && bitAt w 16 && s.hopUp h && decide (s.peerId h = a.f Reg.BEAM_PAIR 13 0)
    && decide (fld w 13 0 = a.stationId) && (bitAt w 17 != a.bit Reg.BEAM_PAIR 17)
  let same := decide (v.active = a.lines) && decide (v.total = a.total) && decide (v.dots = a.dots) && decide (v.subfm1 = a.subfm1)
    && decide (v.num = a.f Reg.BEAM_RATENUM 19 0) && decide (v.den = a.f Reg.BEAM_RATEDEN 11 0)
  let t := { s with beam := { s.beam with paired := formed, pairBad := formed && !same } }
  if formed && !same then t.raise0 stBEAMW 6 else t

/-- `PAIRREADY`: the partner's confirmation position in the present sub-frame (R67). -/
def execPairready (hop : Hop) (ok : Bool) (f : Frame) (s0 : State) : Res :=
  if s0.frozen then .next s0 else
  match s0.takeRecord 5 hop ok f with
  | (false, s) => .next s
  | (true, s) =>
    let p := posOfNat (f.le 8 4)
    if s.beam.paired && decide (hop = ringHop (s.f Reg.BEAM_PAIR 18 18)) && decide (f.le 0 8 = s.beam.frame) && decide (p.sf = s.beam.pos.sf) then
      .next { s with beam := { s.beam with partnerPos := some p } }
    else .next s

end Sys2Proof.Machine
end

