-- ==== Sys2Proof/Machine/Fabric.lean ====
section
/-! DEFINITION. The memory fabric: banks, ECC, scrubbing, sparing, the march test, regions and error responses
(R70 to R93). -/

namespace Sys2Proof.Machine

def sramBase : Nat := 0x10000000
def sramEnd : Nat := 0x14000000

def inSram (a : Nat) : Bool := decide (sramBase ≤ a) && decide (a < sramEnd)

/-- The logical bank and the word index of a main SRAM address (R70). -/
def bankOf (a : Nat) : Nat := (a - sramBase) / 16 % 32
def wordIdx (a : Nat) : Nat := (a - sramBase) / 512

/-- The address of word `i` of logical bank `b`. -/
def bankWord (b i : Nat) : Nat := sramBase + 512 * i + 16 * b

/-- The physical bank that carries a logical bank (R71). -/
def State.phys (s : State) (b : Nat) : Nat := s.f (Reg.MRC_BANKMAPb b) 5 0

/-! Regions (R87, R88). -/

/-- The lowest-numbered region that covers main SRAM address `a`. -/
def State.regionOf (s : State) (a : Nat) : Option Nat :=
  let blk := (a - sramBase) / 4096
  (List.range 32).find? fun n =>
    decide (s.f (Reg.SYS_RGNn_BASE n) 13 0 ≤ blk) && decide (blk ≤ s.f (Reg.SYS_RGNn_LIMIT n) 13 0)

/-- Port `p` may read, or write, main SRAM address `a`. The accesses of port MRC are never checked (R88). -/
def State.regionAllows (s : State) (p a : Nat) (write : Bool) : Bool :=
  if s.bit Reg.SYS_RGNCTL 0 && decide (p ≠ 15) then
    match s.regionOf a with
    | some n => s.bit (if write then Reg.SYS_RGNn_WR n else Reg.SYS_RGNn_RD n) p
    | none => decide (p = 14)
  else true

/-- The staging region is locked while an image in it is verified: writes from ports other than MRC get PROT (R421). -/
def State.stagingLocked (s : State) (p a : Nat) : Bool :=
  let b := (s.reg Reg.IMG_STGBASE).toNat
  s.bit Reg.IMG_STATE 5 && decide (p ≠ 15) && decide (b ≤ a) && decide (a < b + (s.reg Reg.IMG_STGLEN).toNat)

/-! ECC (R72 to R76, R85). -/

/-- A memory with ECC: how many bytes an ECC word has, and the MRC_CECNTq entry that counts its corrections (Table 3.3). -/
structure EccMem where
  size : Nat
  entry : Nat
deriving DecidableEq, Repr

/-- The memory of Table 3.3 that key `k` lies in; main SRAM is apart. -/
def eccMemOf (k : Nat) : Option EccMem :=
  if 0x20000000 ≤ k ∧ k < 0x20020000 then some ⟨8, 34⟩
  else if 0x30000000 ≤ k ∧ k < 0x30040000 then some ⟨4, 35⟩
  else if 0x38000000 ≤ k ∧ k < 0x38010000 then some ⟨4, 36⟩
  else if 0x100000000 ≤ k ∧ k < 0x100040000 then some ⟨4, 37⟩
  else if 0x200000000 ≤ k ∧ k < 0x200040000 then some ⟨4, 38⟩
  else if 0x300000000 ≤ k ∧ k < 0x300020000 then some ⟨4, 39⟩
  else none

def noUpset : Nat → Upset := fun _ => .none

/-- What an ECC check of the word whose first byte is `k` finds. -/
def State.mark (s : State) (k : Nat) : Upset := Sparse.get noUpset s.fab.ecc k

def State.setMark (s : State) (k : Nat) (u : Upset) : State :=
  { s with fab := { s.fab with ecc := Sparse.set noUpset s.fab.ecc k u } }

/-- Bits flipped since the word was last looked at add to what the word already carries. Two single upsets of one word stay one correctable
error, which the spec does not say: they may as well be two wrong bits (DESIGN CHOICE, log 93). -/
def mergeUpset : Upset → Upset → Upset
  | .none, u => u
  | .single, .none => .single
  | .single, .single => .single
  | .single, .double => .double
  | .double, _ => .double

def State.upset (k : Nat) (u : Upset) (s : State) : State := s.setMark k (mergeUpset (s.mark k) u)

/-- The lowest-numbered free spare (R79). -/
def State.freeSpare (s : State) : Option Nat :=
  (List.range 34).find? fun q => decide (s.f (Reg.MRC_CECNTq q) 11 10 = 1)

def State.setUse (q u : Nat) (s : State) : State := s.setF (Reg.MRC_CECNTq q) 11 10 u

/-- The logical bank that physical bank `q` carries. -/
def State.carried (s : State) (q : Nat) : Option Nat := (List.range 32).find? fun b => decide (s.phys b = q)

/-- A queued job goes in its order: migrations for lasting faults in ascending physical bank number (R80). -/
def queueJob (j : Job) : List Job → List Job
  | [] => [j]
  | k :: ks => if j.src < k.src then j :: k :: ks else k :: queueJob j ks

/-- Physical bank, or memory entry, `q` is found lasting (R76, R79, R85). A bank in service queues a migration to a spare, unless one is queued
or runs for it already. -/
def State.lasting (q : Nat) (s0 : State) : State :=
  let s := (s0.setBit (Reg.MRC_CECNTq q) 8 true).raise stMRC 2 (wd q) 0 0
  if q ≥ 34 then s else
  match s.f (Reg.MRC_CECNTq q) 11 10 with
  | 1 => s.setUse q 2
  | 0 =>
    let busy := s.fab.jobs.any (fun j => decide (j.src = q)) ||
      (match s.fab.job with | some j => decide (j.step = .spare) && decide (j.src = q) | none => false)
    if s.bit Reg.MRC_CTRL 1 && !busy then
      match s.freeSpare, s.carried q with
      | some d, some b =>
        let j : Job := { step := .spare, destroying := false, lbank := b, src := q, dst := d, started := false, copied := 0, read := none }
        let s1 := s.setUse d 3
        { s1 with fab := { s1.fab with jobs := queueJob j s1.fab.jobs } }
      | _, _ => s.raise stMRC 3 (wd q) 0 0
    else s
  | _ => s

/-- A correction is counted for entry `q` (R72, R73, R76). `main` says that it was made in main SRAM. -/
def State.countCorrection (q : Nat) (addr : Nat) (s0 : State) : State :=
  let s1 := s0.count (Reg.MRC_CECNTq q) 7 0
  let s2 := if q < 34 then s1.count Reg.MRC_CETOTAL 31 0 else s1
  let s := s2.raise stMRC 0 (wd q) (wd addr) 0
  let thr := s.f Reg.MRC_CEPOL 7 0
  if thr ≠ 0 ∧ s.f Reg.MRC_CEPOL 31 16 ≠ 0 ∧ s.f (Reg.MRC_CECNTq q) 7 0 = thr ∧ s0.f (Reg.MRC_CECNTq q) 7 0 < thr then
    s.lasting q
  else s

/-- An uncorrectable word is found (R74). -/
def State.foundUe (q addr : Nat) (s : State) : State :=
  (s.count Reg.MRC_UECNT 15 0).raise stMRC 1 (wd q) (wd addr) 0

/-- A read of the ECC word at `k`, counted for entry `q`: corrected data with a write-back to come, or code UE. -/
def State.eccRead (k q : Nat) (s : State) : Nat × State :=
  match s.mark k with
  | .none => (0, s)
  | .double => (4, s.foundUe q k)
  | .single =>
    if k ∈ s.fab.wb then (0, s)
    else (0, (({ s with fab := { s.fab with wb := s.fab.wb ++ [k] } }) : State).countCorrection q k)

/-- The word is written with new check bits: its error and its pending write-back are gone. -/
def State.eccWritten (k : Nat) (s : State) : State :=
  let s1 := s.setMark k .none
  { s1 with fab := { s1.fab with wb := s1.fab.wb.filter fun x => decide (x ≠ k) } }

/-- A read that a partial write makes of its word first: code UE if it cannot be corrected; a correction is counted and needs
no write-back (R72). -/
def State.eccMerge (k q : Nat) (s : State) : Nat × State :=
  match s.mark k with
  | .none => (0, s)
  | .double => (4, s.foundUe q k)
  | .single => (0, if k ∈ s.fab.wb then s else s.countCorrection q k)

/-! Words of main SRAM. -/

/-- Logical bank `b` is under a destroying test (R84). -/
def State.bankBusy (s : State) (b : Nat) : Bool :=
  match s.fab.job with
  | some j => j.destroying && decide (j.step = .test) && decide (j.lbank = b)
  | none => false

/-- A migration mirrors writes of logical bank `b` (R77). -/
def State.mirrored (s : State) (b : Nat) : Bool := s.bit (Reg.MRC_BANKMAPb b) 15

/-- The word at `wa` has been written: while its bank is mirrored the same word is made in the destination, and a copy of it
in flight is cancelled (R77, R78). -/
def State.mirrorWord (wa : Nat) (s : State) : State :=
  if s.mirrored (bankOf wa) then
    let d := (List.range 16).foldl (fun l i => Sparse.set memDefault l (wa + i) (s.byte (wa + i))) s.fab.dest
    let e := Sparse.set noUpset s.fab.destEcc wa (s.mark wa)
    let job := match s.fab.job with
      | some j => match j.read with
        | some (i, c) => some { j with read := some (i, c || decide (i = wordIdx wa)) }
        | none => some j
      | none => none
    { s with fab := { s.fab with dest := d, destEcc := e, job := job } }
  else s

/-- `n` words are granted to a port: COT_PORTp_WORDS counts them (Table 1.8). -/
def State.grantWords (port n : Nat) (s : State) : State :=
  { s with fab := { s.fab with words := Sparse.set (fun _ => 0) s.fab.words port (Sparse.get (fun _ => 0) s.fab.words port + n) } }

/-- The bytes that `mask` enables of word `old` replaced by those of `data`. -/
def mergeMask (old mask data : Nat) : Nat :=
  leNat ((List.range 16).map fun i => BitVec.ofNat 8 ((if mask.testBit i then data else old) / 256 ^ i))

/-- The word that a read made during the start-up march gets once the march has zeroed main SRAM: what the writes held before it leave (R82). -/
def State.heldWord (s : State) (wa : Nat) : Nat :=
  s.fab.held.foldl (fun v w => if w.addr = wa then mergeMask v w.mask w.data else v) 0

/-- A master's read of the 16-byte word at `wa`: code, the word as a number, and the state after it. During the start-up march no master
reaches main SRAM (R82). An access that a region denies gets PROT even to a bank under a destroying test: the spec gives no order between the
two (DESIGN CHOICE, log 94). -/
def State.sramRead (port wa : Nat) (s0 : State) : Nat × Nat × State :=
  if s0.fab.marching then (0, s0.heldWord wa, s0) else
  let s := s0.grantWords port 1
  if !s.regionAllows port wa false then (3, 0, s.errResponse port wa 3 false)
  else if s.bankBusy (bankOf wa) then (5, 0, s.errResponse port wa 5 false)
  else
    let (c, s1) := s.eccRead wa (s.phys (bankOf wa))
    if c = 0 then (0, s1.le wa 16, s1) else (c, 0, s1.errResponse port wa c false)

/-- The bytes of a word that a mask enables are written. -/
def State.putMasked (wa mask data : Nat) (s : State) : State :=
  (List.range 16).foldl (fun t i =>
    if mask.testBit i then t.setByte (wa + i) (BitVec.ofNat 8 (data / 256 ^ i)) else t) s

/-- A master's write of the bytes that `mask` enables of the 16-byte word at `wa`. During the start-up march it waits (R82); PROT comes before
BUSY (DESIGN CHOICE, log 94). -/
def State.sramWrite (port wa mask data : Nat) (s0 : State) : Nat × State :=
  if s0.fab.marching then (0, { s0 with fab := { s0.fab with held := s0.fab.held ++ [⟨port, wa, mask, data⟩] } }) else
  let s := s0.grantWords port 1
  if !s.regionAllows port wa true || s.stagingLocked port wa then (3, s.errResponse port wa 3 true)
  else if s.bankBusy (bankOf wa) then (5, s.errResponse port wa 5 true)
  else
    let full := decide (mask % 2 ^ 16 = 2 ^ 16 - 1)
    let (c, s1) := if full then (0, s) else s.eccMerge wa (s.phys (bankOf wa))
    if c ≠ 0 then (c, s1.errResponse port wa c true)
    else (0, ((s1.putMasked wa mask data).eccWritten wa).mirrorWord wa)

/-- The mask of bytes [o, o + n) of a 16-byte word. -/
def byteMask (o n : Nat) : Nat := (2 ^ n - 1) * 2 ^ o

/-- The pieces of `n` bytes at `a`, cut at 16-byte words: word address, offset in it, and length. -/
def pieces (a n : Nat) : List (Nat × Nat × Nat) :=
  let first := a / 16
  let count := if n = 0 then 0 else (a + n - 1) / 16 - first + 1
  (List.range count).map fun i =>
    let wa := 16 * (first + i)
    let lo := if a > wa then a - wa else 0
    let hi := if a + n < wa + 16 then a + n - wa else 16
    (wa, lo, hi - lo)

/-- A read of `n` bytes of main SRAM, word by word: the first error code, the bytes (zero where an error was answered). -/
def State.sramReadBytes (port a n : Nat) (s : State) : Nat × List Byte × State :=
  (pieces a n).foldl (fun (acc : Nat × List Byte × State) p =>
    let (c, bs, t) := acc
    let (c1, v, t1) := t.sramRead port p.1
    (if c = 0 then c1 else c, bs ++ leBytes p.2.2 (v / 256 ^ p.2.1), t1)) (0, [], s)

/-- A write of bytes to main SRAM, word by word; a word that gets an error response is not written. -/
def State.sramWriteBytes (port a : Nat) (bs : List Byte) (s : State) : Nat × State :=
  (pieces a bs.length).foldl (fun (acc : Nat × State) p =>
    let (c, t) := acc
    let part := (bs.drop (p.1 + p.2.1 - a)).take p.2.2
    let (c1, t1) := t.sramWrite port p.1 (byteMask p.2.1 p.2.2) (leNat part * 256 ^ p.2.1)
    (if c = 0 then c1 else c, t1)) (0, s)

/-- A write of bytes within one 8-byte word of palette RAM: the other bytes are kept, corrected, or zero where the word was
uncorrectable (R85). -/
def State.palStore (a : Nat) (bs : List Byte) (s : State) : State :=
  let k := a / 8 * 8
  let s1 := if bs.length = 8 then s else
    match s.eccMerge k 34 with
    | (0, t) => t
    | (_, t) => t.setBytes k (List.replicate 8 0)
  (s1.setBytes a bs).eccWritten k

/-! The other memories of Table 0.7 (R14, R85, R86, R180). -/

/-- The words of an ECC memory that `n` bytes at `a` touch are checked: UE where one cannot be corrected (Table 3.3). -/
def State.eccSpan (size q a n : Nat) (s : State) : Nat × State :=
  (List.range ((a + n - 1) / size - a / size + 1)).foldl (fun (acc : Nat × State) i =>
    let (c, t) := acc
    let (c1, t1) := t.eccRead (size * (a / size + i)) q
    (if c = 0 then c1 else c, t1)) (0, s)

/-- An access of a port that is not completed: its code, data zero, and the error response (R89). -/
def State.portFail (port a n code : Nat) (s : State) : Nat × List Byte × State :=
  (code, List.replicate n 0, s.errResponse port a code false)

/-- A read of bytes checked by ECC. -/
def State.eccBytes (port size q a n : Nat) (s : State) : Nat × List Byte × State :=
  match s.eccSpan size q a n with
  | (0, t) => (0, t.bytes a n, t)
  | (c, t) => t.portFail port a n c

def beamStore : Nat := 0x21000000

/-- An aligned 32-bit write to the beam store by `port`: its error code (R180). The part at offset 12 writes the word with the
parts collected; a part not collected keeps its content. -/
def State.beamStoreWrite (port addr : Nat) (v : Word) (s : State) : Nat × State :=
  let k := addr / 16 * 16
  if addr < beamStore + 16 * 0x800 ∨ ¬ port ∈ [7, 8, 10, 11, 14] then (3, s)
  else if addr % 16 = 12 then
    let mine := s.mnt.parts.filter fun p => decide (p.1 / 16 * 16 = k)
    let s1 := { s with mnt := { s.mnt with parts := s.mnt.parts.filter fun p => decide (p.1 / 16 * 16 ≠ k) } }
    (0, ((mine.foldl (fun t p => t.setWord p.1 p.2) s1).setWord addr v).setMark k .none)
  else
    (0, { s with mnt := { s.mnt with parts := (addr, v) :: s.mnt.parts.filter fun p => decide (p.1 ≠ addr) } })

def regBase : Nat := 0x40000000
def regEnd : Nat := 0x401B0000

def inRegs (a : Nat) : Bool := decide (regBase ≤ a) && decide (a < 0x50000000)

/-- The power domain of the target at `a` is off: in DEEP all but the always-on domain is (R403, Tables 16.2 and 16.3). The CLK block, timers 12
to 15, WDGM and always-on SRAM are taken as the always-on domain's (DESIGN CHOICE, log 107). -/
def State.targetOff (s : State) (a : Nat) : Bool :=
  decide (s.pwr.state = 5) && !(decide (blockOf a = 1 ∧ inRegs a = true) || (decide (0x38000000 ≤ a) && decide (a < 0x38010000))
    || (decide (0x40100280 ≤ a) && decide (a < 0x40100300)) || (decide (0x40100440 ≤ a) && decide (a < 0x40100460)))

/-- A byte of the microcode window: a word's micro-operation, its check bits in the byte after it, and zeros (R336). -/
def State.storeByte (s : State) (a : Nat) : Byte :=
  if a % 8 < 4 then BitVec.ofNat 8 (s.le a 1) else if a % 8 = 4 then BitVec.ofNat 8 (Config.csCheck (s.le (a - 4) 4)) else 0

/-- A read of `n` bytes of a memory of Table 0.7 by a master that may read it: code, bytes (zero with an error), and the state after it. -/
def State.memRead (port a n : Nat) (s : State) : Nat × List Byte × State :=
  if inSram a then s.sramReadBytes port a n
  else if a + n ≤ 0x10000 then (0, (List.range n).map fun i => Config.bootRom (a + i), s)
  else if 0x20000000 ≤ a ∧ a + n ≤ 0x20020000 then s.eccBytes port 8 34 a n
  else if 0x21000000 ≤ a ∧ a + n ≤ 0x21040000 then
    if n ≠ 4 ∨ a % 4 ≠ 0 then s.portFail port a n 7 else (0, s.bytes a 4, s)
  else if 0x22000000 ≤ a ∧ a + n ≤ 0x220C0000 then
    (0, (List.range n).map fun i => s.storeByte (a + i), s)
  else if 0x30000000 ≤ a ∧ a + n ≤ 0x30040000 then
    if s.fab.wiping then (0, List.replicate n 0, s) else s.eccBytes port 4 35 a n
  else if 0x38000000 ≤ a ∧ a + n ≤ 0x38010000 then s.eccBytes port 4 36 a n
  else s.portFail port a n 1

/-- A write of bytes to a memory of Table 0.7 by a master that may write it: code and the state after it. -/
def State.memWrite (port a : Nat) (bs : List Byte) (s : State) : Nat × State :=
  let n := bs.length
  let fail := fun (c : Nat) (t : State) => (c, t.errResponse port a c true)
  if inSram a then s.sramWriteBytes port a bs
  else if 0x20000000 ≤ a ∧ a + n ≤ 0x20020000 then
    if a / 8 = (a + n - 1) / 8 then (0, s.palStore a bs)
    else (0, (s.palStore a (bs.take (8 - a % 8))).palStore (a / 8 * 8 + 8) (bs.drop (8 - a % 8)))
  else if 0x21000000 ≤ a ∧ a + n ≤ 0x21040000 then
    if n ≠ 4 ∨ a % 4 ≠ 0 then fail 7 s
    else match s.beamStoreWrite port a (leWord bs) with
      | (0, t) => (0, t)
      | (c, t) => fail c t
  else if 0x30000000 ≤ a ∧ a + n ≤ 0x30040000 then
    if s.fab.wiping then (0, { s with fab := { s.fab with stalled := s.fab.stalled ++ [(a, bs)] } })
    else
      let (c, t) := if n = 4 ∧ a % 4 = 0 then (0, s) else s.eccSpan 4 35 a n
      if c = 0 then (0, ((t.setBytes a bs).eccWritten (a / 4 * 4)).eccWritten ((a + n - 1) / 4 * 4)) else fail c t
  else fail 1 s

/-- What a port that is no core, and not Reel's, may not reach: the secure part of the map, the microcode window, and for writes the read-only
memories. The register blocks answer PROT to its aligned words and SIZE to any other access: the spec names no such access (DESIGN CHOICE,
log 103). -/
def portBars (a n : Nat) (write : Bool) : Nat :=
  if inRegs a then (if n ≠ 4 ∨ a % 4 ≠ 0 then 7 else if regEnd ≤ a then 1 else 3)
  else if (0x30000000 ≤ a ∧ a < 0x30040000) ∨ (0x22000000 ≤ a ∧ a < 0x220C0000) then 3
  else if 0x38000000 ≤ a ∧ a < 0x38010000 then (if write ∨ 0x3800C000 ≤ a then 3 else 0)
  else if a < 0x10000 ∧ write = true then 3 else 0

/-- A read of the memories of Table 0.7 by port SND or MNT (R14). -/
def State.portRead (port a n : Nat) (s : State) : Nat × List Byte × State :=
  match portBars a n false with
  | 0 => s.memRead port a n
  | c => s.portFail port a n c

/-- A write of the memories of Table 0.7 by port AKA or AKB (R14). -/
def State.portWrite (port a : Nat) (bs : List Byte) (s : State) : Nat × State :=
  match portBars a bs.length true with
  | 0 => s.memWrite port a bs
  | c => (c, s.errResponse port a c true)

/-- `ECC_WRITEBACK`: the corrected word lands, unless a write cancelled it (R73). -/
def execEccWriteback (word : Nat) (s : State) : Res :=
  if word ∈ s.fab.wb then .next ((if inSram word then s.grantWords 15 1 else s).eccWritten word) else .next s

/-- A scrub read of one word (R75). -/
def State.scrubRead (k q : Nat) (s : State) : State := (s.eccRead k q).2

/-- `SCRUB_WINDOW`: the 32 words of the next run are read, and the free spares at the same word index. `found` gives what has
befallen the words: indices 0 to 31 are logical banks, 32 + i the i-th physical bank that is a free spare. -/
def execScrubWindow (found : List (Nat × Upset)) (s : State) : Res :=
  if s.bit Reg.MRC_CTRL 0 && decide (s.f Reg.MRC_SCRUB 15 0 ≠ 0) && decide (s.pwr.state < 2) && !s.fab.marching then
    let i := s.fab.scrub
    let s1 := found.foldl (fun t e => if e.1 < 32 then t.upset (bankWord e.1 i) e.2 else t) (s.grantWords 15 32)
    let s2 := (List.range 32).foldl (fun t b => t.scrubRead (bankWord b i) (t.phys b)) s1
    let spares := (List.range 34).filter fun q => decide (s.f (Reg.MRC_CECNTq q) 11 10 = 1)
    let s3 := found.foldl (fun t e =>
      match spares[e.1 - 32]? with
      | some q => if e.1 < 32 then t else
        match e.2 with
        | .none => t
        | .single => t.countCorrection q 0
        | .double => t.foundUe q 0
      | none => t) s2
    .next { s3 with fab := { s3.fab with scrub := (i + 1) % 131072 } }
  else .next s

/-- A new window of correction counts starts: every count is zero (R76). -/
def State.ceWindow (s : State) : State :=
  (List.range 40).foldl (fun t q => t.setF (Reg.MRC_CECNTq q) 7 0 0) s

/-- `CE_WINDOW_END`. -/
def execCeWindowEnd (s : State) : Res := .next s.ceWindow

/-- A write to MRC_CEPOL ends the window in progress and starts one with the values written. -/
def State.writeCepol (v : Word) (s : State) : State := (s.writeCoded Reg.MRC_CEPOL v).ceWindow

/-! The march test engine (R77 to R84). -/

/-- MRC_JOB shows the job in progress; idle shows zero (Table 3.6). -/
def State.showJob (s : State) : State :=
  match s.fab.job with
  | none => (s.setReg Reg.MRC_JOB 0).setReg Reg.MRC_PROGRESS 0
  | some j =>
    let st := match j.step with
      | .migrateOut => 1
      | .test => 2
      | .migrateBack => 3
      | .spare => 4
    (s.setReg Reg.MRC_JOB (wd (st + 16 * j.lbank + 2 ^ 16 * j.src + 2 ^ 24 * j.dst))).setReg Reg.MRC_PROGRESS (wd j.copied)

def State.setJob (j : Option Job) (s : State) : State := (({ s with fab := { s.fab with job := j } }) : State).showJob

/-- The migration of the job begins: MIRROR and MIREN are set and the first copy read is made (R77, step 1). -/
def State.startMigration (j : Job) (s : State) : State :=
  let a := Reg.MRC_BANKMAPb j.lbank
  let s1 := ((s.setF a 13 8 j.dst).setBit a 15 true).setUse j.dst 3
  let s2 := { s1 with fab := { s1.fab with dest := [], destEcc := [] } }
  s2.setJob (some { j with started := true, copied := 0, read := some (0, false) })

/-- The first queued migration whose source still carries a logical bank starts. A source that a test has taken out of service meanwhile needs
none: its target is free again, and if the source itself has become a free spare it is retired (R79). -/
def State.startQueued : List Job → State → State
  | [], s => { s with fab := { s.fab with jobs := [] } }
  | j :: rest, s =>
    match s.carried j.src with
    | some b => ({ s with fab := { s.fab with jobs := rest } } : State).startMigration { j with lbank := b }
    | none =>
      let s1 := s.setUse j.dst 1
      State.startQueued rest (if s1.f (Reg.MRC_CECNTq j.src) 11 10 = 1 then s1.setUse j.src 2 else s1)

/-- `MIGRATION_START`: the next queued migration starts when no job runs. -/
def execMigrationStart (s : State) : Res :=
  match s.fab.job with
  | none => .next (s.startQueued s.fab.jobs)
  | some _ => .next s

/-- `MIGRATION_COPY`: the word read is written raw to the destination unless a mirrored write cancelled it, and the next
word is read (R77, R78). -/
def execMigrationCopy (s : State) : Res :=
  match s.fab.job with
  | some j =>
    match j.read with
    | some (i, cancelled) =>
      let wa := bankWord j.lbank i
      let s0 := s.grantWords 15 1
      let s1 := if cancelled then s0 else
        let d := (List.range 16).foldl (fun l n => Sparse.set memDefault l (wa + n) (s.byte (wa + n))) s.fab.dest
        { s0 with fab := { s0.fab with dest := d, destEcc := Sparse.set noUpset s.fab.destEcc wa (s.mark wa) } }
      let j2 := { j with copied := i + 1, read := if i + 1 < 131072 then some (i + 1, false) else none }
      .next (s1.setJob (some j2))
    | none => .next s
  | none => .next s

/-- A key of main SRAM in logical bank `b`. -/
def inBank (b k : Nat) : Bool := inSram k && decide (bankOf k = b)

/-- Logical bank `b` is served by the destination of the migration from now on. -/
def State.takeOver (b : Nat) (s : State) : State :=
  { s with mem := Sparse.setAll memDefault (s.mem.filter fun e => !inBank b e.1) s.fab.dest,
           fab := { s.fab with ecc := Sparse.setAll noUpset (s.fab.ecc.filter fun e => !inBank b e.1) s.fab.destEcc,
                               wb := s.fab.wb.filter fun k => !inBank b k, dest := [], destEcc := [] } }

/-- `MIGRATION_DONE`: after the last copy write PHYS becomes the destination and MIREN clears, in one act (R77, R79, R83). -/
def execMigrationDone (s : State) : Res :=
  match s.fab.job with
  | some j =>
    if j.started ∧ j.copied = 131072 ∧ j.read = none then
      let a := Reg.MRC_BANKMAPb j.lbank
      let s1 := ((s.setF a 5 0 j.dst).setBit a 15 false).takeOver j.lbank
      match j.step with
      | .spare => .next ((((s1.setUse j.dst 0).setUse j.src 2).setJob none).raise stMRC 7 (wd j.src) 0 0)
      | .migrateOut =>
        .next (((s1.setUse j.dst 0).setUse j.src 3).setJob (some { j with step := .test, started := false, copied := 0 }))
      | .migrateBack => .next ((((s1.setUse j.dst 0).setUse j.src 1).setJob none).raise stMRC 6 (wd j.dst) 0 0)
      | .test => .next s
    else .next s
  | none => .next s

/-- The engine is idle: no job runs and none is queued. -/
def State.engineIdle (s : State) : Bool := decide (s.fab.job = none) && s.fab.jobs.isEmpty

/-- A preserving request (R83). -/
def State.reqPreserving (b : Nat) (s : State) : State :=
  if s.engineIdle then
    match s.freeSpare with
    | some x => s.startMigration ⟨.migrateOut, false, b, s.phys b, x, false, 0, none⟩
    | none => s.raise stMRC 4 (wd (s.phys b)) 0 0
  else s.raise stMRC 4 (wd (s.phys b)) 0 0

/-- A destroying request (R84). -/
def State.reqDestroying (b : Nat) (s : State) : State :=
  if s.engineIdle then
    (s.setUse (s.phys b) 3).setJob (some ⟨.test, true, b, s.phys b, s.phys b, true, 0, none⟩)
  else s.raise stMRC 4 (wd (s.phys b)) 0 0

/-- Logical bank `b` reads zero with valid check bits. -/
def State.zeroBank (b : Nat) (s : State) : State :=
  { s with mem := s.mem.filter fun e => !inBank b e.1,
           fab := { s.fab with ecc := s.fab.ecc.filter fun e => !inBank b e.1, wb := s.fab.wb.filter fun k => !inBank b k } }

/-- The two backgrounds of the march in word `w`: P0 is all zeros; P1 is alternate ones and zeros across the 137 columns, inverted on odd words
(R81). That column 0 of an even word is a one is the model's choice (DESIGN CHOICE, log 95). -/
def marchPattern (background : Bool) (w : Nat) : BitVec 137 :=
  let alternate : BitVec 137 := BitVec.ofNat 137 ((4 ^ 69 - 1) / 3)
  if background then (if w % 2 = 0 then alternate else ~~~alternate) else 0

/-- What a read of march step `n` must return, P being the background: steps 2, 4 and 6 read P, steps 3 and 5 its complement (Table 3.1). -/
def marchExpect (n : Nat) (p : BitVec 137) : Option (BitVec 137) :=
  match n with
  | 2 => some p
  | 3 => some (~~~p)
  | 4 => some p
  | 5 => some (~~~p)
  | 6 => some p
  | _ => none

/-- A read of the march did not return the pattern expected (R81). -/
def readWrong (r : MarchRead) : Bool :=
  match marchExpect r.step (marchPattern r.background r.word) with
  | some e => decide (r.value ≠ e)
  | none => false

/-- One FCLK of a march: one access to one word (R81), which MRC_PROGRESS counts, and N more that zero a bank tested in place (R84). -/
def State.marchTick (s : State) : State :=
  match s.fab.job with
  | some j =>
    if j.step = .test ∧ j.copied < (if j.destroying then 2752512 else 2621440) then s.setJob (some { j with copied := j.copied + 1 }) else s
  | none => s

/-- `MARCH_TEST_DONE`: the march of the job's bank ends; `reads` are the raw words that its reads returned (R81, R83, R84). -/
def execMarchTestDone (reads : List MarchRead) (s : State) : Res :=
  let failed := reads.any readWrong
  match s.fab.job with
  | some j =>
    if j.step = .test then
      let s1 := s.setBit (Reg.MRC_CECNTq j.src) 9 failed
      if j.destroying then
        let s2 := s1.zeroBank j.lbank
        if failed then
          let s3 := s2.raise stMRC 5 (wd j.src) 0 0
          match s3.freeSpare with
          | some x =>
            .next (((((s3.setF (Reg.MRC_BANKMAPb j.lbank) 5 0 x).setUse x 0).setUse j.src 2).setJob none).raise stMRC 6
              (wd j.src) 0 0)
          | none => .next ((((s3.setUse j.src 0).raise stMRC 3 (wd j.src) 0 0).setJob none).raise stMRC 6 (wd j.src) 0 0)
        else .next (((s2.setUse j.src 0).setJob none).raise stMRC 6 (wd j.src) 0 0)
      else if failed then
        .next ((((s1.setUse j.src 2).raise stMRC 5 (wd j.src) 0 0).setJob none).raise stMRC 6 (wd j.src) 0 0)
      else .next (s1.startMigration ⟨.migrateBack, false, j.lbank, j.dst, j.src, false, 0, none⟩)
    else .next s
  | none => .next s

/-- The bank map after the start-up march: each failed bank takes the lowest-numbered good spare left (R82). -/
def State.mapFailed : List Nat → List Nat → State → State × Bool
  | [], _, s => (s, true)
  | _ :: _, [], s => (s, false)
  | b :: bs, x :: xs, s => State.mapFailed bs xs ((s.setF (Reg.MRC_BANKMAPb b) 5 0 x).setUse x 0)

/-- Main SRAM reads zero with valid check bits (R82). -/
def State.zeroSram (s : State) : State :=
  { s with mem := s.mem.filter fun e => !inSram e.1,
           fab := { s.fab with ecc := s.fab.ecc.filter fun e => !inSram e.1, wb := s.fab.wb.filter fun k => !inSram k } }

/-- The masters reach main SRAM: the writes held during the march are made in their order (R82). -/
def State.releaseHeld (s : State) : State :=
  s.fab.held.foldl (fun t w => (t.sramWrite w.port w.addr w.mask w.data).2)
    { s with fab := { s.fab with marching := false, held := [] } }

/-- `STARTUP_MARCH_DONE`: `reads` are the raw words that the reads of the march returned, with their physical banks (R81, R82). -/
def execStartupMarchDone (reads : List (Fin 34 × MarchRead)) (s : State) : Res :=
  if !s.fab.marching then .next s else
  let bad := (List.range 34).filter fun q => reads.any fun r => decide (r.1.val = q) && readWrong r.2
  let s2 := bad.foldl (fun t q => (t.setBit (Reg.MRC_CECNTq q) 9 true).setUse q 2) s.zeroSram
  let lo := wd ((bad.filter fun q => decide (q < 32)).foldl (fun n q => n + 2 ^ q) 0)
  let hi := wd ((bad.filter fun q => decide (32 ≤ q)).foldl (fun n q => n + 2 ^ (q - 32)) 0)
  let s3 := (s2.setReg Reg.MRC_BOOTFAILLO lo).setReg Reg.MRC_BOOTFAILHI hi
  let banks := bad.filter fun q => decide (q < 32)
  let spares := [32, 33].filter fun q => !bad.contains q
  let (s4, ok) := State.mapFailed banks spares s3
  let s5 := s4.releaseHeld
  if ok then .next s5
  else
    let s6 := { s5 with fab := { s5.fab with bootStopped := true }, pin := { s5.pin with alert := true } }
    .next ((s6.logEvent 0x70 0 (s6.reg Reg.MRC_STAT) (s6.reg Reg.MRC_ERRADDR) (s6.reg Reg.MRC_ERRINFO)).emit .alertBoot)

/-- The slot table entry of phase `p` in segment `g` (Table 1.4). -/
def State.slotEntry (s : State) (g p : Nat) : Nat :=
  s.f (Reg.COT_SLOTs_w g (p / 4)) (8 * (p % 4) + 7) (8 * (p % 4))

def entryOwned (e : Nat) : Bool := e.testBit 7

/-- Secure SRAM is wiped: every word zero with valid check bits (R86); accesses wait until `WIPE_DONE`. -/
def State.startWipe (s : State) : State :=
  let s1 := s.zeroRange 0x30000000 0x30040000
  { s1 with fab := { s1.fab with wiping := true } }

end Sys2Proof.Machine
end

