-- ==== Sys2Proof/Machine/Transfer.lean ====
section
/-! DEFINITION. The transfer tables of the Quadrille's linearisation stage (R127), in exact or fixed-point integer
arithmetic. -/

namespace Sys2Proof.Machine

/-- The greatest `x` below `2 ^ n` with `p x`, for a `p` that holds up to some number and not above it. -/
def bisect (p : Nat → Bool) : Nat → Nat → Nat
  | 0, lo => lo
  | n + 1, lo => if p (lo + 2 ^ n) then bisect p n (lo + 2 ^ n) else bisect p n lo

/-- The nearest integer to `65536 × e ^ 2.4` for `e = num / 65535`: the greatest k with (k - 1/2) ^ 5 ≤ 65536 ^ 5 × e ^ 12. -/
def sdrNearest (num : Nat) : Nat :=
  bisect (fun k => decide ((2 * k - 1) ^ 5 * 65535 ^ 12 ≤ 32 * 65536 ^ 5 * num ^ 12)) 17 0

/-- The argument of table entry `i`: the numerator of min(64 i / 65535, 1) over 65535. -/
def tableArg (i : Nat) : Nat := min (64 * i) 65535

/-- Fixed-point scale of the SMPTE ST 2084 and HLG computations. -/
def fxBits : Nat := 64

/-- `2 ^ fxBits × (num / den) ^ (p / q)`, rounded down. -/
def fxPow (num den p q : Nat) : Nat :=
  if num = 0 then 0 else
  bisect (fun x => decide (x ^ q * den ^ p ≤ num ^ p * 2 ^ (fxBits * q))) (fxBits + 2) 0

/-- The SMPTE ST 2084 EOTF at e = num / 65535, in cd/m² with `fxBits` fraction bits (PRESUMED: the standard's constants, log 20). -/
def pqLum (num : Nat) : Nat :=
  let r := fxPow num 65535 32 2523
  let one := 2 ^ fxBits
  let up := r - one * 3424 / 4096
  let dn := one * 2413 / 128 - r * 2392 / 128
  if up = 0 ∨ dn = 0 then 0 else 10000 * fxPow up dn 8192 1305

/-- `2 ^ fxBits × exp (num / den)` by its series, 60 terms. -/
def fxExp (num den : Nat) : Nat :=
  let one := 2 ^ fxBits
  let x := one * num / den
  ((List.range 60).foldl (fun (acc : Nat × Nat) n =>
    let term := if n = 0 then one else acc.2 * x / one / n
    (acc.1 + term, term)) (0, one)).1

/-- The BT.2100 HLG inverse OETF at e = num / den with `fxBits` fraction bits (PRESUMED: the standard's constants, log 20). -/
def hlgInv (num den : Nat) : Nat :=
  let one := 2 ^ fxBits
  if 2 * num ≤ den then one * num * num / (3 * den * den)
  else
    -- exp ((e - c) / a), a = 0.17883277, c = 0.55991073, b = 0.28466892
    let x := num * 100000000 - 55991073 * den
    let ex := if num * 100000000 ≥ 55991073 * den then fxExp x (17883277 * den)
      else one * one / fxExp (55991073 * den - num * 100000000) (17883277 * den)
    (ex + one * 28466892 / 100000000) / 12

/-- `n / d` to the nearest integer, halves up. -/
def nearest (n d : Nat) : Nat := if d = 0 then 0 else (2 * n + d) / (2 * d)

/-- Entry `i` of the table of transfer code `tf`, for reference white `refnits` (R127, Table 4.8). HLG at signal 1.0 is the
247,337 that Table 4.8 states. -/
def transferEntry (tf refnits i : Nat) : Nat :=
  let a := tableArg i
  let v := match tf with
    | 0 => sdrNearest a
    | 1 => nearest (65536 * pqLum a) (2 ^ fxBits * refnits)
    | _ => min (nearest (65536 * hlgInv a 65535) (hlgInv 3 4)) 247337
  min v (2 ^ 20 - 1)

/-- A normalised 16-bit value made linear by interpolation (R127). -/
def linear (tf refnits e16 : Nat) : Nat :=
  let i := e16 / 64
  let f := e16 % 64
  let t0 : Int := transferEntry tf refnits i
  let t1 : Int := transferEntry tf refnits (i + 1)
  (t0 + ((t1 - t0) * f + 32) / 64).toNat

end Sys2Proof.Machine
end

