-- ==== Sys2Proof/Machine/Pixel.lean ====
section
/-! DEFINITION. How a section pixel is found in the content and what becomes of it on its way to a driver code: scene
formats (R94 to R115) and the pixel pipeline (R125 to R138). -/

namespace Sys2Proof.Machine

/-- What composing a pixel touches: the words fetched, by port and word address, and the error bits met, by slot and bit
(slot 12 stands for QDL_STAT). -/
structure Fx where
  touch : List (Nat × Nat)
  flags : List (Nat × Nat)
deriving DecidableEq, Repr

def Fx.none : Fx := ⟨[], []⟩

def Fx.add (a b : Fx) : Fx := ⟨a.touch ++ b.touch, a.flags ++ b.flags⟩

/-- A sample of one layer at one pixel: 20-bit linear channels, 12-bit alpha, rank and blend class (R133, R134). -/
structure Samp where
  r : Nat
  g : Nat
  b : Nat
  a : Nat
  high : Bool
  blend : Nat
deriving DecidableEq, Repr

/-- The lanes in service: set in LANEEN and not retired (R122). -/
def State.lanesIn (s : State) : List Nat :=
  (List.range 4).filter fun l => s.bit Reg.QDL_STRUCT (4 + l) && !s.bit Reg.QDL_LANE (4 + l)

/-- The lane, and so the port Ql, that composes pixel `x` (R122, R528). -/
def State.laneOf (s : State) (x : Nat) : Nat :=
  let ls := s.lanesIn
  match ls[x / 64 % ls.length]? with
  | some l => l
  | none => 0

/-- A content fetch of the word at `wa` through `port` gets its data (R87, R89). -/
def State.fetchOk (s : State) (port wa : Nat) : Bool :=
  inSram wa && s.regionAllows port wa false && !s.bankBusy (bankOf wa) && decide (s.mark wa ≠ .double)

/-- `n` bytes at `a` fetched through `port` for slot `slot`: none, with FETCH, where one of the words they lie in gets an error (R121). -/
def State.fetch (s : State) (port slot a n : Nat) : Option Nat × Fx :=
  let words := (pieces a n).map (·.1)
  let touch := words.map fun w => (port, w)
  if words.all (fun w => s.fetchOk port w) then (some (s.le a n), ⟨touch, []⟩) else (none, ⟨touch, [(slot, 2)]⟩)

/-! Layer descriptors. -/

def State.layType (s : State) (n : Nat) : Nat := s.f (Reg.LAYn_TYPE n) 1 0
def State.front (s : State) (n : Nat) : Nat := s.f (Reg.LAYn_BANK n) 0 0
def State.layValid (s : State) (n : Nat) : Bool := s.bit (Reg.LAYn_BANK n) 2

/-- The origin (ox, oy) of a slot's positions (R96): for wall coordinates the placement last adopted at 0:0 (R47). It governs every line composed
or composed again from then on, a frame composed ahead of the adoption among them: the spec does not say from which line it does (DESIGN CHOICE,
log 96). -/
def State.origin (s : State) (n : Nat) : Int × Int :=
  if s.bit (Reg.LAYn_Bb_CTRL n (s.front n)) 0 then ((s.beam.place.1 : Int), (s.beam.place.2.1 : Int)) else (0, 0)

/-- A palette entry by R97 and R98, as the Quadrille reads it: an uncorrectable entry is zero, with PALUE of the slot (Table 3.3). The background's
entry (slot 12) sets no PALUE: the spec names no layer for it (DESIGN CHOICE, log 99). -/
structure PalEntry where
  r : Nat
  g : Nat
  b : Nat
  a : Nat
  hole : Bool
  front : Bool
deriving DecidableEq, Repr

def State.palette (s : State) (slot e : Nat) : PalEntry × Fx :=
  let k := 0x20000000 + 8 * e
  if s.mark k = .double then (⟨0, 0, 0, 0, false, false⟩, ⟨[(0, k)], if slot < 12 then [(slot, 6)] else []⟩)
  else
    let v := s.le k 8
    (⟨v % 65536 * 16, v / 2 ^ 16 % 65536 * 16, v / 2 ^ 32 % 65536 * 16, v / 2 ^ 48 % 4096, v.testBit 60, v.testBit 61⟩,
      ⟨[(0, k)], []⟩)

/-- Where displayed position (u, v) of a W × H image lies in the source (R105). -/
def sourcePos (u v w h : Int) (hflip vflip rot : Bool) : Int × Int :=
  let wd := if rot then h else w
  let hd := if rot then w else h
  let u1 := if hflip then wd - 1 - u else u
  let v1 := if vflip then hd - 1 - v else v
  if rot then (v1, h - 1 - u1) else (u1, v1)

/-- Tile side, bits, tile bytes and row bytes of a tile format (Table 4.4). -/
def tileFormat : Nat → Nat × Nat × Nat × Nat
  | 0 => (8, 2, 16, 2)
  | 1 => (8, 4, 32, 4)
  | 2 => (8, 8, 64, 8)
  | 3 => (16, 2, 64, 4)
  | 4 => (16, 4, 128, 8)
  | 5 => (16, 8, 256, 16)
  | _ => (8, 4, 32, 0)

/-- The line scroll terms of section line `y` (R106): none where their fetch fails. -/
def State.scroll (s : State) (port n y : Nat) : Option (Int × Int) × Fx :=
  let b := s.front n
  if s.bit (Reg.LAYn_Bb_CTRL n b) 15 then
    match s.fetch port n ((s.reg (Reg.LAYn_Bb_LSBASE n b)).toNat + 4 * y) 4 with
    | (some v, fx) => (some (sext 16 v, sext 16 (v / 65536)), fx)
    | (none, fx) => (none, fx)
  else (some (0, 0), Fx.none)

/-- A palette sample with its rank and blend class; none where it is transparent. -/
def palSample (e : PalEntry) (a : Nat) (pri : Bool) (blend : Nat) : Option Samp :=
  if e.hole || decide (a = 0) then none else some ⟨e.r, e.g, e.b, a, pri || e.front, blend⟩

/-- The tile layer sample of a section pixel (R104). -/
def State.tileSample (s : State) (port n x y : Nat) : Option Samp × Fx :=
  let b := s.front n
  let ctrl := s.reg (Reg.LAYn_Bb_CTRL n b)
  match s.scroll port n y with
  | (none, fx) => (none, fx)
  | (some (dx, dy), fx0) =>
    let fmt := fld ctrl 4 2
    let (t, bits, tileBytes, rowBytes) := tileFormat fmt
    let mapw := s.f (Reg.LAYn_Bb_SIZE1 n b) 10 0
    let maph := s.f (Reg.LAYn_Bb_SIZE1 n b) 26 16
    let (ox, oy) := s.origin n
    let mx := ((x + ox + sext 21 (s.f (Reg.LAYn_RPOSX n) 20 0) + dx) % ((mapw * t : Nat) : Int)).toNat
    let my := ((y + oy + sext 21 (s.f (Reg.LAYn_RPOSY n) 20 0) + dy) % ((maph * t : Nat) : Int)).toNat
    match s.fetch port n ((s.reg (Reg.LAYn_Bb_BASE1 n b)).toNat + 4 * (my / t * mapw + mx / t)) 4 with
    | (none, fx1) => (none, fx0.add fx1)
    | (some e, fx1) =>
      let idx := e % 2 ^ 18
      let cnt := s.f (Reg.LAYn_Bb_SIZE0 n b) 17 0
      let lim := if cnt = 0 then 262144 else cnt
      if idx ≥ lim then (none, (fx0.add fx1).add ⟨[], [(n, 1)]⟩) else
      let (sc, q) := sourcePos (mx % t : Nat) (my % t : Nat) t t (e.testBit 24) (e.testBit 25) (e.testBit 26)
      let col := sc.toNat
      let row := q.toNat
      let base := (s.reg (Reg.LAYn_Bb_BASE0 n b)).toNat + idx * tileBytes
      let (pix, fx2) :=
        if fmt = 6 then
          let planes := (List.range 4).map fun k => s.fetch port n (base + 8 * k + row) 1
          let fx := planes.foldl (fun a p => a.add p.2) Fx.none
          let v := planes.foldr (fun p (acc : Option Nat) =>
            match p.1, acc with
            | some byte, some a => some (2 * a + b2n (byte.testBit (7 - col)))
            | _, _ => none) (some 0)
          (v, fx)
        else
          match s.fetch port n (base + row * rowBytes + col * bits / 8) 1 with
          | (some byte, fx) => (some (byte / 2 ^ (col * bits % 8) % 2 ^ bits), fx)
          | (none, fx) => (none, fx)
      match pix with
      | none => (none, (fx0.add fx1).add fx2)
      | some p =>
        if bitAt ctrl 1 && decide (p = 0) then (none, (fx0.add fx1).add fx2) else
        let (pe, fx3) := s.palette n (e / 2 ^ 18 % 64 * 256 + p)
        (palSample pe pe.a (e.testBit 27) (e / 2 ^ 28 % 16), ((fx0.add fx1).add fx2).add fx3)

/-! Sprites (R107 to R110, R131, R132). -/

/-- The fields of a sprite attribute entry (Table 4.6). -/
structure Sprite where
  x : Int
  y : Int
  w : Nat
  h : Nat
  hflip : Bool
  vflip : Bool
  rot : Bool
  en : Bool
  pattern : Nat
  bpp : Nat
  palsel : Nat
  pri : Bool
  blend : Nat
  salpha : Nat
deriving DecidableEq, Repr

def spriteOf (v : Nat) : Sprite :=
  { x := sext 24 v, y := sext 24 (v / 2 ^ 24), w := (v / 2 ^ 48 % 64 + 1) * 8, h := (v / 2 ^ 54 % 64 + 1) * 8,
    hflip := v.testBit 60, vflip := v.testBit 61, rot := v.testBit 62, en := v.testBit 63, pattern := v / 2 ^ 64 % 2 ^ 22,
    bpp := v / 2 ^ 86 % 4, palsel := v / 2 ^ 88 % 64, pri := v.testBit 94, blend := v / 2 ^ 96 % 16,
    salpha := v / 2 ^ 100 % 4096 }

/-- An entry of a sprite table as read: its 16 bytes, with bit 128 set where the limits of R110 keep it off. -/
def drawn (v : Nat) : Bool := v.testBit 63 && !v.testBit 128

/-- Displayed width and height. -/
def Sprite.dw (p : Sprite) : Nat := if p.rot then p.h else p.w
def Sprite.dh (p : Sprite) : Nat := if p.rot then p.w else p.h

/-- The columns of the section that a sprite at left edge `x0`, `w` wide, overlaps (R132). -/
def overlapCols (x0 : Int) (w width : Nat) : Nat :=
  let lo := if x0 < 0 then 0 else x0
  let hi := if x0 + w < (width : Int) then x0 + w else width
  if hi > lo then (hi - lo).toNat else 0

/-- The sprites of slot `n` drawn on line `y`, in ascending index, and whether the line's limits cut any off (R132). -/
def State.lineSprites (s : State) (n y : Nat) : List Sprite × Bool :=
  let (ox, oy) := s.origin n
  let all := match s.qdl.layers[n]? with | some l => l.sprites | none => []
  let on := all.filterMap fun e => e.bind fun v =>
    let p := spriteOf v
    let top := p.y - oy
    if !drawn v ∨ p.bpp = 3 ∨ (y : Int) < top ∨ top + p.dh ≤ (y : Int) ∨ overlapCols (p.x - ox) p.dw s.width = 0 then none else some p
  let step := fun (acc : List Sprite × Nat × Bool) (p : Sprite) =>
    let (kept, px, cut) := acc
    let c := overlapCols (p.x - ox) p.dw s.width
    if cut || decide (kept.length ≥ 256) || decide (px + c > 8192) then (kept, px, true) else (kept ++ [p], px + c, false)
  let (kept, _, cut) := on.foldl step ([], 0, false)
  (kept, cut)

/-- The pixel of one sprite at a section pixel: none where the sprite does not lie there or is transparent (R108). -/
def State.spritePixel (s : State) (port n x y : Nat) (p : Sprite) : Option Samp × Fx :=
  let b := s.front n
  let (ox, oy) := s.origin n
  let u := (x : Int) - (p.x - ox)
  let v := (y : Int) - (p.y - oy)
  if u < 0 ∨ (p.dw : Int) ≤ u ∨ v < 0 ∨ (p.dh : Int) ≤ v then (none, Fx.none) else
  let (sc, q) := sourcePos u v p.w p.h p.hflip p.vflip p.rot
  let bits := 2 ^ (p.bpp + 1)
  let rowBytes := (p.w * bits + 127) / 128 * 16
  let a := (s.reg (Reg.LAYn_Bb_BASE1 n b)).toNat + 16 * p.pattern + q.toNat * rowBytes + sc.toNat * bits / 8
  match s.fetch port n a 1 with
  | (none, fx) => (none, fx)
  | (some byte, fx) =>
    let pix := byte / 2 ^ (sc.toNat * bits % 8) % 2 ^ bits
    if s.bit (Reg.LAYn_Bb_CTRL n b) 1 && decide (pix = 0) then (none, fx) else
    let (pe, fx1) := s.palette n (p.palsel * 256 + pix)
    (palSample pe ((pe.a * p.salpha + 2047) / 4095) p.pri p.blend, fx.add fx1)

/-- The frontmost sprite pixel that is not transparent (R109). -/
def State.spriteSample (s : State) (port n x y : Nat) : List Sprite → Option Samp × Fx
  | [] => (none, Fx.none)
  | p :: ps =>
    match s.spritePixel port n x y p with
    | (some c, fx) => (some c, fx)
    | (none, fx) =>
      let (r, fx1) := State.spriteSample s port n x y ps
      (r, fx.add fx1)

/-! Planes (R111 to R115, R126 to R130). -/

/-- Bits per pixel of a plane format, its component bits, whether it is YCbCr and whether 4:2:2 (Table 4.7). -/
def planeFormat : Nat → Nat × Nat × Bool × Bool
  | 0 => (32, 8, false, false)
  | 1 => (32, 10, false, false)
  | 2 => (64, 12, false, false)
  | 3 => (32, 8, true, false)
  | 4 => (32, 10, true, false)
  | 5 => (64, 12, true, false)
  | 6 => (16, 8, true, true)
  | 7 => (32, 10, true, true)
  | _ => (32, 12, true, true)

/-- `n / d` rounded with halves away from zero. -/
def roundDiv (n : Int) (d : Nat) : Int :=
  if n ≥ 0 then (2 * n + d) / (2 * d : Nat) else -((2 * (-n) + d) / (2 * d : Nat))

/-- A luma or R'G'B' code normalised to 16 bits (R114, R126). -/
def normY (narrow : Bool) (n v : Nat) : Int :=
  let k := 2 ^ (n - 8)
  if narrow then roundDiv ((clampI (16 * k : Nat) (235 * k : Nat) v - (16 * k : Nat)) * 65535) (219 * k)
  else roundDiv ((v : Int) * 65535) (2 ^ n - 1)

/-- A chroma code normalised, signed (R114, R126). -/
def normC (narrow : Bool) (n v : Nat) : Int :=
  let k := 2 ^ (n - 8)
  if narrow then roundDiv ((clampI (16 * k : Nat) (240 * k : Nat) v - (128 * k : Nat)) * 65535) (224 * k)
  else roundDiv (((v : Int) - (2 ^ (n - 1) : Nat)) * 65535) (2 ^ n - 1)

/-- R'G'B' of a YCbCr triple with the coefficients of Table 5.3 (R126). -/
def ycc (cs : Nat) (y cb cr : Int) : Nat × Nat × Nat :=
  let (krcr, kgcb, kgcr, kbcb) := if cs = 0 then ((25802 : Int), (3069 : Int), (7669 : Int), (30402 : Int))
    else ((24160 : Int), (2696 : Int), (9361 : Int), (30825 : Int))
  ((clampI 0 65535 (y + asr (krcr * cr + 8192) 14)).toNat,
   (clampI 0 65535 (y - asr (kgcb * cb + kgcr * cr + 8192) 14)).toNat,
   (clampI 0 65535 (y + asr (kbcb * cb + 8192) 14)).toNat)

/-- Alpha widened to 12 bits (R113). -/
def widenAlpha (n a : Nat) : Nat :=
  match n with
  | 8 => a * 16 + a / 16
  | 10 => a * 1365
  | _ => a

/-- A linear plane pixel: r, g, b, alpha. -/
structure Lin where
  r : Nat
  g : Nat
  b : Nat
  a : Nat
deriving DecidableEq, Repr

/-- The base address of the buffer that a plane slot shows (R111, R118): none while a streamed plane shows no buffer. -/
def State.planeBase (s : State) (n : Nat) : Option Nat :=
  let b := s.front n
  let base := (s.reg (Reg.LAYn_Bb_BASE0 n b)).toNat
  if s.bit (Reg.LAYn_Bb_CTRL n b) 14 then
    let bufs := match s.qdl.layers[n]? with | some l => l.bufs | none => []
    (bufs.findIdx? (fun x => decide (x = .showing))).map fun i =>
      base + i * s.f (Reg.LAYn_Bb_SIZE1 n b) 28 16 * s.f (Reg.LAYn_Bb_STRIDE n b) 15 0
  else some base

/-- A chroma code clamped to its nominal range, as narrow-range codes are before any conversion (R114, R126). -/
def chroma (narrow : Bool) (n v : Nat) : Nat :=
  if narrow then (clampI (16 * 2 ^ (n - 8) : Nat) (240 * 2 ^ (n - 8) : Nat) v).toNat else v

/-- A container's value: the top 10 or 12 of its 16 bits (R111). -/
def container (bits v : Nat) : Nat := v / 2 ^ (16 - bits) % 2 ^ bits

/-- Plane pixel (i, j), linear, after the input matrix (R111 to R114, R126 to R128); none where a fetch fails. -/
def State.planePixel (s : State) (port n base i j : Nat) : Option Lin × Fx :=
  let bk := s.front n
  let ctrl := s.reg (Reg.LAYn_Bb_CTRL n bk)
  let (bpp, bits, isY, sub) := planeFormat (fld ctrl 8 5)
  let narrow := bitAt ctrl 12
  let tf := fld ctrl 11 10
  let rn := s.f Reg.QDL_REFNITS 13 0
  let row := base + j * s.f (Reg.LAYn_Bb_STRIDE n bk) 15 0
  let pw := s.f (Reg.LAYn_Bb_SIZE1 n bk) 12 0
  let unitBytes := if sub then bpp / 4 else bpp / 8
  let unitAt := fun (k : Nat) => s.fetch port n (row + k * unitBytes) unitBytes
  let comp := fun (u k : Nat) => if bits = 8 then u / 2 ^ (8 * k) % 256 else container bits (u / 2 ^ (16 * k))
  let raw : Option (Nat × Nat × Nat × Nat) × Fx :=
    if sub then
      match unitAt (i / 2) with
      | (none, fx) => (none, fx)
      | (some u, fx) =>
        let y := comp u (if i % 2 = 0 then 0 else 2)
        let cb := chroma narrow bits (comp u 1)
        let cr := chroma narrow bits (comp u 3)
        if i % 2 = 1 ∧ i + 1 < pw then
          match unitAt (i / 2 + 1) with
          | (none, fx1) => (none, fx.add fx1)
          | (some u1, fx1) => (some (y, (cb + chroma narrow bits (comp u1 1) + 1) / 2, (cr + chroma narrow bits (comp u1 3) + 1) / 2, 4095), fx.add fx1)
        else (some (y, cb, cr, 4095), fx)
    else
      match unitAt i with
      | (none, fx) => (none, fx)
      | (some u, fx) =>
        let c := if bpp = 64 then (container 12 u, container 12 (u / 2 ^ 16), container 12 (u / 2 ^ 32), container 12 (u / 2 ^ 48))
          else if bits = 8 then (u % 256, u / 256 % 256, u / 2 ^ 16 % 256, u / 2 ^ 24 % 256)
          else (u % 1024, u / 2 ^ 10 % 1024, u / 2 ^ 20 % 1024, u / 2 ^ 30 % 4)
        (some (c.1, c.2.1, c.2.2.1, if bitAt ctrl 13 then widenAlpha bits c.2.2.2 else 4095), fx)
  match raw with
  | (none, fx) => (none, fx)
  | (some (c0, c1, c2, a), fx) =>
    let (r16, g16, b16) :=
      if isY then ycc (fld ctrl 9 9) (normY narrow bits c0) (normC narrow bits c1) (normC narrow bits c2)
      else ((normY narrow bits c0).toNat, (normY narrow bits c1).toNat, (normY narrow bits c2).toNat)
    let r := linear tf rn r16
    let g := linear tf rn g16
    let b := linear tf rn b16
    if bitAt ctrl 16 then
      let m := fun (k : Nat) => sext 18 (s.f (Reg.LAYn_Bb_IMk n bk k) 17 0)
      let out := fun (k : Nat) => (clampI 0 (2 ^ 20 - 1) (asr (m k * r + m (k + 1) * g + m (k + 2) * b + 8192) 14)).toNat
      (some ⟨out 0, out 3, out 6, a⟩, fx)
    else (some ⟨r, g, b, a⟩, fx)

/-- A displayed size brought within the limits of R130, and whether it had to be. -/
def planeSize (d p up : Nat) : Nat × Bool :=
  let d0 := if d = 0 then p else d
  let lo := (p + up - 1) / up
  if d0 < lo then (lo, true) else if d0 > 64 * p then (64 * p, true) else (d0, false)

/-- The displayed width and height of a plane slot's bank `b`, and whether they were clamped (R129, R130). -/
def State.planeDisplay (s : State) (n b : Nat) : Nat × Nat × Bool :=
  let sz := Reg.LAYn_Bb_SIZE1 n b
  let ds := Reg.LAYn_Bb_DSIZE n b
  let (dw, c1) := planeSize (s.f ds 12 0) (s.f sz 12 0) 4
  let (dh, c2) := planeSize (s.f ds 28 16) (s.f sz 28 16) 2
  (dw, dh, c1 || c2)

/-- A weighted sum of linear pixels, rounded and clamped as a filter does (R129). -/
def filterSum (ps : List (Int × Lin)) : Lin :=
  let sum := fun (f : Lin → Nat) => asr (ps.foldl (fun acc p => acc + p.1 * (f p.2 : Int)) 0 + 512) 10
  let col := fun (v : Int) => (clampI 0 (2 ^ 20 - 1) v).toNat
  ⟨col (sum (·.r)), col (sum (·.g)), col (sum (·.b)), (clampI 0 4095 (sum (·.a))).toNat⟩

/-- The plane layer sample of a section pixel, scaled (R129). -/
def State.planeSample (s : State) (port n x y : Nat) : Option Samp × Fx :=
  let bk := s.front n
  let ctrl := s.reg (Reg.LAYn_Bb_CTRL n bk)
  match s.planeBase n with
  | none => (none, Fx.none)
  | some base =>
    match s.scroll port n y with
    | (none, fx) => (none, fx)
    | (some (dx, dy), fx0) =>
      let (dw, dh, _) := s.planeDisplay n bk
      let pw := s.f (Reg.LAYn_Bb_SIZE1 n bk) 12 0
      let ph := s.f (Reg.LAYn_Bb_SIZE1 n bk) 28 16
      let (ox, oy) := s.origin n
      let u := (x : Int) + ox - sext 21 (s.f (Reg.LAYn_RPOSX n) 20 0) + dx
      let v := (y : Int) + oy - sext 21 (s.f (Reg.LAYn_RPOSY n) 20 0) + dy
      if u < 0 ∨ (dw : Int) ≤ u ∨ v < 0 ∨ (dh : Int) ≤ v then (none, fx0) else
      let hstep : Int := ((pw * 65536 / dw : Nat) : Int)
      let vstep : Int := ((ph * 65536 / dh : Nat) : Int)
      let hpos := u * hstep + asr hstep 1 - 32768
      let vpos := v * vstep + asr vstep 1 - 32768
      let i := asr hpos 16
      let j := asr vpos 16
      let hph := ((asr hpos 10) % 64).toNat
      let vph := ((asr vpos 10) % 64).toNat
      let row := fun (t : Nat) => (clampI 0 ((ph : Int) - 1) (j - 1 + t)).toNat
      let col := fun (t : Nat) => (clampI 0 ((pw : Int) - 1) (i - 3 + t)).toNat
      let column := fun (t : Nat) =>
        let px := (List.range 4).map fun r => (sext 12 (s.f (Reg.QDL_VCOEFp_k vph r) 11 0), s.planePixel port n base (col t) (row r))
        let fx := px.foldl (fun a p => a.add p.2.2) Fx.none
        if px.all (fun p => p.2.1.isSome) then
          (some (filterSum (px.filterMap fun p => p.2.1.map fun l => (p.1, l))), fx)
        else (none, fx)
      let cols := (List.range 8).map fun t => (sext 12 (s.f (Reg.QDL_HCOEFp_k hph t) 11 0), column t)
      let fx := cols.foldl (fun a p => a.add p.2.2) fx0
      if cols.all (fun p => p.2.1.isSome) then
        let o := filterSum (cols.filterMap fun p => p.2.1.map fun l => (p.1, l))
        (if o.a = 0 then none else some ⟨o.r, o.g, o.b, o.a, bitAt ctrl 21, fld ctrl 20 17⟩, fx)
      else (none, fx)

/-! Blending (R133, R134). -/

/-- The slot at each position of the order list, rearmost first. -/
def State.orderSlots (s : State) : List Nat :=
  (List.range 12).map fun p =>
    if p < 8 then s.f Reg.QDL_RPRIORD0 (4 * p + 3) (4 * p) else s.f Reg.QDL_RPRIORD1 (4 * (p - 8) + 3) (4 * (p - 8))

/-- An order list names every slot exactly once (R145). -/
def orderOk (w0 w1 : Word) : Bool :=
  let l := (List.range 12).map fun p => if p < 8 then fld w0 (4 * p + 3) (4 * p) else fld w1 (4 * (p - 8) + 3) (4 * (p - 8))
  (List.range 12).all fun n => l.contains n

/-- One channel of a blend step (R134). -/
def blendChan (mode a c d : Nat) : Nat :=
  match mode with
  | 0 => (a * c + (4095 - a) * d + 2047) / 4095
  | 1 => min (d + (a * c + 2047) / 4095) (2 ^ 20 - 1)
  | 2 =>
    let mul := (a * c + (4095 - a) * 65536 + 2047) / 4095
    min ((d * mul + 32768) / 65536) (2 ^ 20 - 1)
  | _ => if a = 0 then d else c

/-- A sample acts on the running value. -/
def State.blend (s : State) (d : Nat × Nat × Nat) (p : Samp) : Nat × Nat × Nat :=
  let c := Reg.QDL_BLENDc p.blend
  let a := (p.a * s.f c 27 16 + 2047) / 4095
  let m := s.f c 1 0
  (blendChan m a p.r d.1, blendChan m a p.g d.2.1, blendChan m a p.b d.2.2)

/-- The sample of slot `n` at a pixel; `sprites` are the sprites of the line. -/
def State.layerSample (s : State) (port n x y : Nat) (sprites : List Sprite) : Option Samp × Fx :=
  if s.layValid n then
    match s.layType n with
    | 1 => s.tileSample port n x y
    | 2 => s.planeSample port n x y
    | 3 => s.spriteSample port n x y sprites
    | _ => (none, Fx.none)
  else (none, Fx.none)

/-- The slots that may take part on the line: enabled in the raster copy and in the feed's mask (R133). -/
def State.slotOn (s : State) (sf n : Nat) : Bool :=
  s.bit Reg.QDL_RLAYEN n && s.bit (Reg.QDL_FEEDf_MASK sf) n

/-- The blended 20-bit value of a pixel before calibration. -/
def State.blended (s : State) (sf x y : Nat) (sprites : List (List Sprite)) : (Nat × Nat × Nat) × Fx :=
  let port := s.laneOf x
  let (bg, fx0) := s.palette 12 (s.f (Reg.QDL_FEEDf_BG sf) 13 0)
  let samples := (s.orderSlots.filter fun n => s.slotOn sf n).map fun n =>
    s.layerSample port n x y (match sprites[n]? with | some l => l | none => [])
  let fx := samples.foldl (fun a p => a.add p.2) fx0
  let present := samples.filterMap (·.1)
  let low := (present.filter fun p => !p.high).foldl s.blend (bg.r, bg.g, bg.b)
  ((present.filter fun p => p.high).foldl s.blend low, fx)

/-! Calibration, brightness, LUT, dither (R135 to R138). -/

/-- Bits [o, o + n) of the little-endian bytes from `base`. -/
def State.bitsAt (s : State) (base o n : Nat) : Nat := s.le (base + o / 8) ((o % 8 + n + 7) / 8) / 2 ^ (o % 8) % 2 ^ n

/-- The calibrated value of a pixel (R135). -/
def State.calibrate (s : State) (x y : Nat) (v : Nat × Nat × Nat) : (Nat × Nat × Nat) × Fx :=
  if s.bit Reg.QDL_STRUCT 1 then
    let gain := s.bit Reg.QDL_STRUCT 2
    let port := s.laneOf x
    let (group, rec_) := if gain then (144, 36) else (432, 108)
    let base := (s.reg Reg.QDL_CALBASE).toNat + y * ((s.width + 31) / 32) * group + x / 32 * group
    let o := rec_ * (x % 32)
    let words := (List.range ((o % 128 + rec_ + 127) / 128)).map fun i => (base + o / 8) / 16 * 16 + 16 * i
    let ok := words.all fun w => s.fetchOk port w
    let fx : Fx := ⟨words.map fun w => (port, w), if ok then [] else [(12, 6)]⟩
    let c := fun (k : Nat) => s.bitsAt base (o + 12 * k) 12
    let top := fun (n : Nat) => min (n / 2048) (2 ^ 20 - 1)
    if !ok then (v, fx)
    else if gain then ((top (c 0 * v.1 + 1024), top (c 1 * v.2.1 + 1024), top (c 2 * v.2.2 + 1024)), fx)
    else
      let row := fun (k : Nat) => top (c k * v.1 + c (k + 1) * v.2.1 + c (k + 2) * v.2.2 + 1024)
      ((row 0, row 3, row 6), fx)
  else (v, Fx.none)

/-- The dither matrix B (Table 5.4). -/
def ditherMatrix : List (List Nat) :=
  [[0, 32, 8, 40, 2, 34, 10, 42], [48, 16, 56, 24, 50, 18, 58, 26], [12, 44, 4, 36, 14, 46, 6, 38],
   [60, 28, 52, 20, 62, 30, 54, 22], [3, 35, 11, 43, 1, 33, 9, 41], [51, 19, 59, 27, 49, 17, 57, 25],
   [15, 47, 7, 39, 13, 45, 5, 37], [63, 31, 55, 23, 61, 29, 53, 21]]

def ditherB (y x : Nat) : Nat :=
  match ditherMatrix[y % 8]? with
  | some r => match r[x % 8]? with
    | some v => v
    | none => 0
  | none => 0

/-- The threshold of a pixel (R138); `t` is the pass count mod 8. -/
def ditherThreshold (mode sh x y t : Nat) : Nat :=
  match mode with
  | 0 => 2 ^ (sh - 1)
  | 2 => ditherB (y + 3 * t) (x + 5 * t) * 2 ^ sh / 64
  | _ => ditherB y x * 2 ^ sh / 64

/-- Brightness (R136). -/
def State.bright (s : State) (v : Nat) : Nat := min ((v * s.f Reg.QDL_BRIGHT 15 0 + 16384) / 32768) (2 ^ 20 - 1)

/-- The output LUT of channel `c` (R137). -/
def State.lut (s : State) (c v : Nat) : Nat :=
  let bank := s.f Reg.QDL_OUTCFG 0 0
  let i := v / 1024
  let f := v % 1024
  let t0 : Int := s.f (Reg.QDL_LUTb_c_i bank c i) 15 0
  let t1 : Int := s.f (Reg.QDL_LUTb_c_i bank c (i + 1)) 15 0
  (clampI 0 (2 ^ 20 - 1) (16 * t0 + asr ((t1 - t0) * f + 32) 6)).toNat

/-- The driver code of a channel (R138). -/
def State.code (s : State) (x y pass o : Nat) : Nat :=
  let d := s.f Reg.QDL_STRUCT 12 8
  let sh := 20 - d
  min ((o + ditherThreshold (s.f Reg.QDL_OUTCFG 2 1) sh x y (pass % 8)) / 2 ^ sh) (2 ^ d - 1)

/-- A pixel of frame `frame`, sub-frame `sf`: its driver codes, its blend result (the SCENE value of R216), and what
composing it touched. -/
def State.pixel (s : State) (frame sf x y : Nat) (sprites : List (List Sprite)) :
    (Nat × Nat × Nat) × (Nat × Nat × Nat) × Fx :=
  let (v, fx0) := s.blended sf x y sprites
  let (c, fx1) := s.calibrate x y v
  let pass := frame * (s.subfm1 + 1) + sf
  let out := fun (ch n : Nat) => s.code x y pass (s.lut ch (s.bright n))
  ((out 0 c.1, out 1 c.2.1, out 2 c.2.2), v, fx0.add fx1)

/-- Line `y` as composed: its ring bytes, 16-bit containers R, G, B for each pixel (R139); its SCENE bytes, nine a pixel
(R216); and what composing it touched. SPRLINE counts every valid sprite slot, one that is disabled or masked on the line too: the spec does not
say whether such a slot counts (DESIGN CHOICE, log 98). -/
def State.lineData (s : State) (frame sf y : Nat) : List Byte × List Byte × Fx :=
  let spr := (List.range 12).map fun n => s.lineSprites n y
  let fx0 : Fx := ⟨[], (List.range 12).filterMap fun n =>
    match spr[n]? with
    | some (_, true) => if s.layType n = 3 ∧ s.layValid n = true then some (n, 7) else none
    | _ => none⟩
  let lists := spr.map (·.1)
  (List.range s.width).foldl (fun (acc : List Byte × List Byte × Fx) x =>
    let ((r, g, b), (sr, sg, sb), fx) := s.pixel frame sf x y lists
    (acc.1 ++ leBytes 2 r ++ leBytes 2 g ++ leBytes 2 b, acc.2.1 ++ leBytes 3 sr ++ leBytes 3 sg ++ leBytes 3 sb,
      acc.2.2.add fx)) ([], [], fx0)

/-- The side effects of the fetches of a line: corrections counted, uncorrectable words found, error responses captured. -/
def State.applyTouch (fx : Fx) (s : State) : State :=
  fx.touch.eraseDups.foldl (fun t p =>
    if 0x20000000 ≤ p.2 then (t.eccRead p.2 34).2
    else if inSram p.2 then (t.sramRead p.1 p.2).2.2
    else t.errResponse p.1 p.2 1 false) s

end Sys2Proof.Machine
end

