-- ==== Sys2Proof/Machine/View.lean ====
section
/-! DEFINITION. The values a frame in composition keeps until its work ends (R35, R155), and once-per-frame status bits
(R526). -/

namespace Sys2Proof.Machine

/-- A register whose value belongs to the frame in composition: the SH registers of the Quadrille and the signature unit,
and each slot's type and bank. -/
def isViewReg (a : Nat) : Bool :=
  match RegMap.find a with
  | some (r, _) =>
    ((decide (blockOf a = 4) || decide (blockOf a = 8)) && decide (r.shm ≠ 0)) ||
      (decide (blockOf a = 5) && (decide (a % 0x400 = 0) || decide (a % 0x400 = 0xC)))
  | none => false

/-- The values of the view registers as they now stand. -/
def State.snapshot (s : State) : List (Nat × Word) := s.regs.filter fun e => isViewReg e.1

/-- A register as frame `f` uses it. -/
def QFrame.reg (f : QFrame) (a : Nat) : Word := Sparse.get RegMap.resetOf f.regs a

def QFrame.f (q : QFrame) (a hi lo : Nat) : Nat := fld (q.reg a) hi lo
def QFrame.bit (q : QFrame) (a i : Nat) : Bool := bitAt (q.reg a) i

/-- The state as composing frame `f` sees it. -/
def State.withFrame (f : QFrame) (s : State) : State :=
  let layers := (List.range 12).map fun n =>
    let l := match s.qdl.layers[n]? with | some l => l | none => emptyLayer
    let show_ := match f.shows[n]? with | some o => o | none => none
    { l with
      bufs := (List.range 3).map fun i => if show_ = some i then PlaneBuf.showing else PlaneBuf.free,
      sprites := match f.sprites[n]? with | some t => t | none => [] }
  { s with regs := Sparse.setAll RegMap.resetOf (s.regs.filter fun e => !isViewReg e.1) f.regs,
           qdl := { s.qdl with layers := layers } }

/-- The oldest frame started and not yet swapped, held or discarded. -/
def State.head (s : State) : Option QFrame := s.qdl.frames.head?

/-- The line entry of a frame. -/
def State.qline (s : State) (frame sf y : Nat) : Option QLine :=
  s.qdl.lines.find? fun l => decide (l.frame = frame) && decide (l.sf = sf) && decide (l.line = y)

def State.mapLines (f : QLine → QLine) (s : State) : State := { s with qdl := { s.qdl with lines := s.qdl.lines.map f } }

/-- The slot stride of frame `q`'s ring: its line size rounded up to a multiple of 16 bytes (R139). -/
def QFrame.stride (q : QFrame) : Nat := (q.f Reg.QDL_WIDTH 12 0 * 6 + 15) / 16 * 16

/-- Line `y` of the frame at the head has been offered to the panel ports (R149). -/
def State.offered (q : QFrame) (y : Nat) (s : State) : Bool :=
  match s.qline q.frame q.sf y with
  | some l => l.composed && (!q.bit Reg.QDL_STRUCT 0 || l.confirmed)
  | none => false

/-- A status bit that is set once in each frame: slot 0 to 11 is a layer slot, 12 the Quadrille, 13 the panel block (R526). -/
def State.raiseOnce (frame slot bit : Nat) (r : StatReg) (arg0 : Word) (s : State) : State :=
  if s.qdl.seen.contains (frame, slot, bit) then s
  else ({ s with qdl := { s.qdl with seen := (frame, slot, bit) :: s.qdl.seen } } : State).raise r bit arg0 0 0

end Sys2Proof.Machine
end

