-- ==== Sys2Proof/Machine/Panel.lean ====
section
/-! DEFINITION. The panel ports: units, commands, refresh, direct stores, blanking (R185 to R214). -/

namespace Sys2Proof.Machine

/-- A driver profile (Tables 7.2, 7.11). -/
structure Prof where
  direct : Bool
  ddr : Bool
  /-- LAT, and GCLK or OE, are active high. -/
  latHigh : Bool
  gclkHigh : Bool
  wbits : Nat
  ch : Nat
  nic : Nat
  rows : Nat
  gap : Nat
  /-- DCLK periods are (DCDIVM1 + 1) ns. -/
  dclk : Nat
  cmda : Word
  cmdb : Word
  cfgval : Nat
deriving DecidableEq, Repr

/-- LATW of command `k`; 0 where the drivers lack it (R189). -/
def Prof.latw (p : Prof) (k : Nat) : Nat :=
  if k < 4 then fld p.cmda (8 * k + 4) (8 * k) else fld p.cmdb (8 * (k - 4) + 4) (8 * (k - 4))

/-- Bits of the word that a payload command shifts into one IC: WBITS, which direct mode ignores (R188, R190). -/
def Prof.icBits (p : Prof) : Nat := if p.direct then p.ch else p.wbits

/-- Slots of a payload command's run (R188). -/
def Prof.runSlots (p : Prof) : Nat := p.nic * p.icBits

/-- A slot's length in half nanoseconds (R186). -/
def Prof.slotHalfNs (p : Prof) : Nat := if p.ddr then p.dclk else 2 * p.dclk

def State.profOf (s : State) (x : Nat) : Prof :=
  let c := s.reg (Reg.PNL_PROFx_CFG x)
  { direct := bitAt c 0, ddr := bitAt c 1, latHigh := !bitAt c 2, gclkHigh := !bitAt c 3, wbits := fld c 8 4, ch := fld c 14 9 + 1, nic := fld c 20 15 + 1,
    rows := fld c 25 21 + 1, gap := fld c 29 26, dclk := fld (s.reg (Reg.PNL_PROFx_CLK x)) 7 0 + 1,
    cmda := s.reg (Reg.PNL_PROFx_CMDA x), cmdb := s.reg (Reg.PNL_PROFx_CMDB x),
    cfgval := fld (s.reg (Reg.PNL_PROFx_CFGVAL x)) 15 0 }

def State.portCfg (s : State) (p : Nat) : Word := s.reg (Reg.PNL_PORTp_CFG p)
def State.portOn (s : State) (p : Nat) : Bool := bitAt (s.portCfg p) 0
def State.portProfNo (s : State) (p : Nat) : Nat := fld (s.portCfg p) 2 1
def State.prof (s : State) (p : Nat) : Prof := s.profOf (s.portProfNo p)

/-- An even port locked with the next (R212). -/
def State.portLocked (s : State) (p : Nat) : Bool := decide (p % 2 = 0) && bitAt (s.portCfg p) 12

/-- The port that a port acts as: the even one of a locked pair. -/
def State.leadPort (s : State) (p : Nat) : Nat := if p % 2 = 1 ∧ s.portLocked (p - 1) = true then p - 1 else p

/-- The ports that act as port `p`. -/
def State.members (s : State) (p : Nat) : List Nat := if s.portLocked p then [p, p + 1] else [p]

/-- The enabled ports, a locked pair as its even port. -/
def State.leads (s : State) : List Nat :=
  (List.range 32).filter fun p => s.portOn p && decide (s.leadPort p = p)

/-! The module map (R191 to R193). -/

def State.mapEntry (s : State) (i : Nat) : Word := Sparse.get (fun _ => 0) s.pnl.map (i % 65536)

/-- Column, row and colour of data line `l`, scan row `r`, chain IC `i`, channel `c` of port `p` (R192); colour 3 is unmapped. -/
def State.pixelOf (s : State) (p l r i c : Nat) : Int × Int × Nat :=
  let pr := s.prof p
  let t := s.reg (Reg.PNL_TMPLt (fld (s.portCfg p) 9 8))
  let kic := fld t 21 16 + 1
  let e := s.mapEntry (fld t 15 0 + (r * kic + i % kic) * pr.ch + c)
  let m : Int := (i / kic : Nat)
  let st := s.reg (Reg.PNL_PORTp_MSTEP p)
  let o := s.reg (Reg.PNL_PORTp_ORGl p l)
  ((fld o 11 0 : Int) + m * sext 12 (fld st 11 0) + fld e 11 0, (fld o 27 16 : Int) + m * sext 12 (fld st 27 16) + fld e 23 12,
    fld e 25 24)

/-- Every mapped pixel of row `r` of port `p`. -/
def State.rowPixels (s : State) (p r : Nat) : List (Int × Int) :=
  let pr := s.prof p
  (List.range 8).flatMap fun l => (List.range pr.nic).flatMap fun i => (List.range pr.ch).filterMap fun c =>
    let (x, y, col) := s.pixelOf p l r i c
    if col = 3 then none else some (x, y)

/-- The least and greatest of a list of integers. -/
def rangeOf : List Int → Option (Int × Int)
  | [] => none
  | x :: xs =>
    match rangeOf xs with
    | none => some (x, x)
    | some (lo, hi) => some (if x < lo then x else lo, if hi < x then x else hi)

/-- The span of row `r` of the port or locked pair `p` (R193). -/
def State.span (s : State) (p r : Nat) : Option (Nat × Nat) :=
  (rangeOf ((s.members p).flatMap fun q => (s.rowPixels q r).map (·.2))).map fun b => (b.1.toNat, b.2.toNat)

def inSpan (b : Option (Nat × Nat)) (y : Nat) : Bool :=
  match b with
  | some (lo, hi) => decide (lo ≤ y) && decide (y ≤ hi)
  | none => false

/-- The largest HI − LO of the port's rows (R193). -/
def State.largestSpan (s : State) (p : Nat) : Nat :=
  (List.range (s.prof p).rows).foldl (fun m r =>
    match s.span (s.leadPort p) r with
    | some (lo, hi) => max m (hi - lo)
    | none => m) 0

/-- The columns a pair's window covers (R207). -/
def State.window (s : State) (pair : Nat) : Option (Nat × Nat) :=
  let ps := [2 * pair, 2 * pair + 1].filter fun p => s.portOn p
  (rangeOf (ps.flatMap fun p => (List.range (s.prof p).rows).flatMap fun r => (s.rowPixels p r).map (·.1))).map
    fun b => (b.1.toNat, b.2.toNat)

/-- Bytes of a pair's segment. -/
def State.segBytes (s : State) (pair : Nat) : Nat :=
  match s.window pair with
  | some (lo, hi) => ((hi - lo + 1) * 6 + 15) / 16 * 16
  | none => 16

/-! Units (R195 to R197). -/

/-- The units of port `p`, in unit order: row and channel (a direct unit is a whole row). -/
def State.unitList (s : State) (p : Nat) : List (Nat × Nat) :=
  let pr := s.prof p
  if pr.direct then (List.range pr.rows).map fun r => (r, 0)
  else (List.range pr.rows).flatMap fun r => (List.range pr.ch).map fun c => (r, c)

def State.unitOf (s : State) (p r c : Nat) : Option UnitSt :=
  s.pnl.units.find? fun u => decide (u.port = p) && decide (u.row = r) && decide (u.ch = c)

def State.unitSent (s : State) (p r c : Nat) : Bool := match s.unitOf p r c with | some u => u.sent | none => false
def State.unitDone (s : State) (p r c : Nat) : Bool := match s.unitOf p r c with | some u => u.delivered | none => false

/-- A unit may be sent: line HI of its row has been offered, and a direct unit only after the store exchange (R195, R202). -/
def State.unitReady (q : QFrame) (p r : Nat) (s : State) : Bool :=
  !((s.prof p).direct && s.pnl.exchangeDue) &&
    (match s.span p r with
     | none => true
     | some (_, hi) => s.offered q hi)

/-- The unit the port sends next: the lowest ready unit not sent, or only the lowest not sent where the profile lacks SEEK. -/
def State.nextUnit (q : QFrame) (p : Nat) (s : State) : Option (Nat × Nat) :=
  let left := (s.unitList p).filter fun u => !s.unitSent p u.1 u.2
  if (s.prof p).direct || decide ((s.prof p).latw 2 ≠ 0) then left.find? fun u => s.unitReady q p u.1
  else match left with
    | u :: _ => if s.unitReady q p u.1 then some u else none
    | [] => none

/-- Units of port `p` that are not delivered. -/
def State.unitsOwed (s : State) (p : Nat) : Nat :=
  if s.portOn p then ((s.unitList p).filter fun u => !s.unitDone (s.leadPort p) u.1 u.2).length else 0

/-- Units of the present frame that are not delivered (PNL_PORTp_STAT.PENDING). -/
def State.pendingUnits (s : State) (p : Nat) : Nat := if s.head.isSome then s.unitsOwed p else 0

/-- The pair of the lowest-numbered port with an undelivered unit (R196). -/
def State.owingPair (s : State) : Nat :=
  match (List.range 32).find? (fun p => decide (s.unitsOwed p ≠ 0)) with
  | some p => p / 2
  | none => 0

/-- The largest span of each port of the active structure set (R193). -/
def State.findSpans (s : State) : State :=
  let v := s.activeView
  { s with pnl := { s.pnl with spans := (List.range 32).map fun p => if v.portOn p then v.largestSpan p else 0 } }

/-- Line `y` of the head frame is delivered (R196). -/
def State.delivered (q : QFrame) (y : Nat) (s : State) : Bool :=
  s.offered q y && s.leads.all fun p => (List.range (s.prof p).rows).all fun r =>
    !inSpan (s.span p r) y || ((s.unitList p).filter fun u => decide (u.1 = r)).all fun u => s.unitDone p u.1 u.2

/-- The driver code that a landed segment holds for column `x` and colour `col`. -/
def segCode (g : Seg) (lo x col : Nat) : Nat := if g.err then 0 else leNat ((g.data.drop ((x - lo) * 6 + 2 * col)).take 2)

/-- The code for data line `l`, row `r`, IC `i`, channel `c` of port `p`; none where its segment has not landed (R190, R209). -/
def State.codeAt (s : State) (p l r i c : Nat) : Option Nat :=
  let (x, y, col) := s.pixelOf p l r i c
  if col = 3 then some 0 else
  match s.window (p / 2), s.pnl.segs.find? (fun g => decide (g.pair = p / 2) && decide (g.line = y.toNat) && g.landed) with
  | some (lo, _), some g => some (segCode g lo x.toNat col)
  | _, _ => none

/-- The word last sent on data line `l` of port `p`; before any, a value the spec does not give. -/
def State.lastOn (p l : Nat) (s : State) : Nat × State :=
  match s.pnl.lastWord.find? (fun e => decide (e.1 = 8 * p + l)) with
  | some e => (e.2, s)
  | none => let (i, t) := s.draw; (Config.lineWord i, t)

def State.setLast (p l v : Nat) (s : State) : State :=
  { s with pnl := { s.pnl with lastWord := (8 * p + l, v) :: s.pnl.lastWord.filter fun e => decide (e.1 ≠ 8 * p + l) } }

/-- The words of data line `l` in slot order: `slots` lists IC and channel; `shift` aligns a code in its word. A word whose
segment has not landed repeats the last (R209). Answers the words and whether any underran. -/
def State.lineWords (p l r shift : Nat) (slots : List (Nat × Nat)) (s : State) : List Nat × Bool × State :=
  slots.foldl (fun (acc : List Nat × Bool × State) ic =>
    let (ws, under, t) := acc
    match t.codeAt p l r ic.1 ic.2 with
    | some v => (ws ++ [v * 2 ^ shift], under, t.setLast p l (v * 2 ^ shift))
    | none => let (v, t1) := t.lastOn p l; (ws ++ [v], true, t1)) ([], false, s)

/-- The words of every data line of the ports in `ps`. -/
def State.allWords (r shift : Nat) (slots : List (Nat × Nat)) (ps : List Nat) (s : State) : List (List Nat) × Bool × State :=
  (ps.flatMap fun p => (List.range 8).map fun l => (p, l)).foldl (fun (acc : List (List Nat) × Bool × State) pl =>
    let (rows, under, t) := acc
    let (ws, u, t1) := t.lineWords pl.1 pl.2 r shift slots
    (rows ++ [ws], under || u, t1)) ([], false, s)

/-- Bytes of a plane-row of a direct port (R204). -/
def Prof.planeBytes (p : Prof) : Nat := (p.nic * p.ch + 15) / 16 * 16

/-- The bit-plane transform of eight data lines' codes (R204, R365). -/
def planeRows (pr : Prof) (depth : Nat) (lines : List (List Nat)) : List Byte :=
  (List.range depth).flatMap fun k => (List.range pr.planeBytes).map fun j =>
    BitVec.ofNat 8 ((List.range 8).foldl (fun n l =>
      match lines[l]? with
      | some ws => (match ws[j]? with
        | some c => n + (c / 2 ^ k % 2) * 2 ^ l
        | none => n)
      | none => n) 0)

def State.setUnit (u : UnitSt) (s : State) : State :=
  { s with pnl := { s.pnl with units := u :: s.pnl.units.filter fun v =>
      !(decide (v.port = u.port) && decide (v.row = u.row) && decide (v.ch = u.ch)) } }

/-- A line of the head frame is needed by a unit of the pair that still has to be sent (R207). -/
def State.lineNeeded (pair y : Nat) (s : State) : Bool :=
  (s.leads.filter fun p => (s.members p).any fun m => decide (m / 2 = pair)).any fun p =>
    (s.unitList p).any fun u => !s.unitSent p u.1 u.2 && inSpan (s.span p u.1) y

/-- Segments that no unit still to be sent needs are freed. -/
def State.trimSegs (pair : Nat) (s : State) : State :=
  { s with pnl := { s.pnl with segs := s.pnl.segs.filter fun g => decide (g.pair ≠ pair) || s.lineNeeded pair g.line } }

/-- An underrun: a unit's word repeats the last one sent (R209). -/
def State.unitUnder (pair : Nat) (s : State) : State := (s.count (Reg.PNL_PAIRq_CNT pair) 15 0).raise stPNL 0 (wd pair) 0 0

/-- Column order of a payload: the farthest IC first (R188). -/
def farFirst (n : Nat) : List Nat := (List.range n).map fun i => n - 1 - i

/-- IC and channel of each word of unit (r, c) on a data line, in the order they are shifted (R188, R204). -/
def Prof.unitSlots (pr : Prof) (c : Nat) : List (Nat × Nat) :=
  if pr.direct then (farFirst pr.nic).flatMap fun i => (farFirst pr.ch).map fun k => (i, k) else (farFirst pr.nic).map fun i => (i, c)

/-- The data lines of a port or locked pair. -/
def State.dataLines (s : State) (p : Nat) : List (Nat × Nat) := (s.members p).flatMap fun m => (List.range 8).map fun l => (m, l)

/-- The words last sent on the data lines in `ps`. -/
def State.lastWords (ps : List (Nat × Nat)) (s : State) : List Nat × State :=
  ps.foldl (fun (acc : List Nat × State) pl =>
    let (v, t) := acc.2.lastOn pl.1 pl.2
    (acc.1 ++ [v], t)) ([], s)

/-- `UNIT_SEND`: the port, or its locked pair, starts its next unit, preceded by SEEK where it does not follow the last unit sent (R195). A
direct unit's codes are handed to the PNL_DIRCH channel's bit-plane transform (R204, R365). All its words are formed as it starts (DESIGN
CHOICE, log 111). -/
def execUnitSend (port : Fin 32) (s : State) : Res :=
  if s.frozen then .next s else
  let p := port.val
  if !(s.bit Reg.PNL_CTRL 0 && s.portOn p && decide (s.leadPort p = p)) || s.pnl.units.any (fun u => decide (u.port = p) && u.running)
  then .next s else
  match s.head with
  | none => .next s
  | some q =>
    match s.nextUnit q p with
    | none => .next s
    | some (r, c) =>
      let pr := s.prof p
      let idx := r * pr.ch + c
      let follows := (s.pnl.lastUnit.find? fun e => decide (e.1 = p)).map (·.2) = some idx
      let s0 := if !pr.direct && !follows && decide (pr.latw 2 ≠ 0) then
          s.emit (.panelRun p 2 (pr.latw 2) pr.runSlots pr.latHigh (List.replicate (8 * (s.members p).length) (List.replicate pr.nic idx)))
        else s
      let (before, s1) := s0.lastWords (s.dataLines p)
      let (ws, under, s2) := s1.allWords r (if pr.direct then 0 else pr.wbits - q.f Reg.QDL_STRUCT 12 8) (pr.unitSlots c) (s.members p)
      let s3 := s2.setUnit ⟨p, r, c, true, !under, false, ws, before⟩
      let s4 := if pr.direct then s3
        else { s3 with pnl := { s3.pnl with lastUnit := (p, idx + 1) :: s3.pnl.lastUnit.filter fun e => decide (e.1 ≠ p) } }
      .next ((if under then s4.unitUnder (p / 2) else s4).trimSegs (p / 2))

/-- The enabled direct ports below `p`, and the offset of port `p`'s store (R204). -/
def State.storeOff (s : State) (depth p : Nat) : Nat :=
  ((List.range p).filter fun k => s.portOn k && (s.prof k).direct).foldl (fun n k =>
    let pr := s.prof k
    n + pr.rows * depth * pr.planeBytes) 0

def State.fsBase (s : State) (k : Nat) : Nat := if k = 0 then s.pnl.fsGood.1 else s.pnl.fsGood.2
def State.fsFront (s : State) : Nat := s.f Reg.PNL_FSSTAT 0 0

/-- The master port of Reel channel `c` (R356). -/
def reelPort (c : Nat) : Nat := if c < 16 then 7 else 8

/-- `SEGMENT_FETCH`: the pair requests the next offered line, in line order, that a unit still to be sent needs and that the
FIFO has room for (R207). -/
def execSegmentFetch (pair : Fin 16) (s : State) : Res :=
  if s.frozen then .next s else
  match s.head with
  | none => .next s
  | some q =>
    let k := pair.val
    let held := s.pnl.segs.filter fun g => decide (g.pair = k)
    if s.bit Reg.PNL_CTRL 0 && decide (held.length < 65536 / s.segBytes k) then
      match (List.range s.lines).find? (fun y =>
          s.offered q y && !held.any (fun g => decide (g.line = y)) && s.lineNeeded k y) with
      | some y => .next { s with pnl := { s.pnl with segs := s.pnl.segs ++ [⟨k, y, false, false, []⟩] } }
      | none => .next s
    else .next s

/-- Where the panel block reads a line of the head frame: its ring slot, or the safe section image while the frame is in section
Pavane; none where it takes zeros (R226). -/
def State.lineSource (q : QFrame) (y : Nat) (s : State) : Option Nat :=
  if q.sect then
    let b := (s.reg Reg.SIG_SECTSAFE).toNat
    if b = 0 then none else some (b + y * q.stride)
  else (s.qline q.frame q.sf y).map (·.addr)

/-- `SEGMENT_LANDED`: the pair's oldest request lands, read through port PNL (R207). One that receives an error response is
taken as zero codes (R209). -/
def execSegmentLanded (pair : Fin 16) (s : State) : Res :=
  if s.frozen then .next s else
  match s.head, s.pnl.segs.find? (fun g => decide (g.pair = pair.val) && !g.landed), s.window pair.val with
  | some q, some g, some (lo, _) =>
    let n := s.segBytes pair.val
    let put := fun (g2 : Seg) (t : State) =>
      ({ t with pnl := { t.pnl with segs := t.pnl.segs.map fun x => if x = g then g2 else x } } : State)
    match s.lineSource q g.line with
    | none => .next (put { g with landed := true, data := List.replicate n 0 } s)
    | some a =>
      let (code, bs, s1) := s.portRead 4 (a + lo * 6) n
      if code = 0 then .next (put { g with landed := true, data := bs } s1)
      else .next ((put { g with landed := true, err := true } s1).raiseOnce q.frame 13 7 stPNL (wd pair.val))
  | _, _, _ => .next s

/-- The words of one data line of a running unit after lines `a` to `b` are squashed: each one from the `k`th on that needs such a line repeats
the word before it on the line (R197). -/
def State.repeatWords (a b k : Nat) (pl : Nat × Nat) (r before : Nat) (slots : List (Nat × Nat)) (ws : List Nat) (s : State) : List Nat :=
  (((slots.zip ws).zipIdx.foldl (fun (acc : List Nat × Nat) e =>
    let (x, y, col) := s.pixelOf pl.1 pl.2 r e.1.1.1 e.1.1.2
    let hit := decide (k ≤ e.2) && decide (col ≠ 3) && decide ((a : Int) ≤ y) && decide (y ≤ (b : Int)) && decide (0 ≤ x)
    let w := if hit then acc.2 else e.1.2
    (acc.1 ++ [w], w)) ([], before))).1

/-- A running unit after lines `a` to `b` are squashed. How many of its words had been read before t + 8 (R197) is a value the model does not
have: it is free (log 111). -/
def State.cutUnit (a b : Nat) (u : UnitSt) (s : State) : State :=
  let (i, t) := s.draw
  let k := Config.wordsRead i
  let lines := s.dataLines u.port
  let slots := (s.prof u.port).unitSlots u.ch
  let ws := (lines.zip (u.before.zip u.words)).map fun e => s.repeatWords a b k e.1 u.row e.2.1 slots e.2.2
  let t1 := t.setUnit { u with sent := false, delivered := false, words := ws }
  (lines.zip ws).foldl (fun v e => match e.2.getLast? with | some w => v.setLast e.1.1 e.1.2 w | none => v) t1

/-- Lines `a` to `b` of the head frame take a new version: their segments are discarded, and every unit whose run has begun and whose span
holds one of them is marked not sent; one still shifting completes its run (R197, R207). -/
def State.panelRedo (a b : Nat) (s : State) : State :=
  let hit := s.pnl.units.filter fun u => (u.running || u.sent) &&
    (match s.span u.port u.row with | some (lo, hi) => decide (a ≤ hi) && decide (lo ≤ b) | none => false)
  let s1 := { s with pnl := { s.pnl with segs := s.pnl.segs.filter fun g => decide (g.line < a) || decide (b < g.line) } }
  let s2 := hit.foldl (fun t u =>
    (if u.running then t.cutUnit a b u else t.setUnit { u with sent := false, delivered := false }).count (Reg.PNL_PAIRq_CNT (u.port / 2)) 31 16) s1
  if hit.isEmpty then s2 else s2.raise0 stPNL 1

/-- At a squash from line `y` of frame `q` on (R197). -/
def State.panelSquash (q : QFrame) (y : Nat) (s : State) : State :=
  if s.head.map (fun h => (h.frame, h.sf)) ≠ some (q.frame, q.sf) then s else s.panelRedo y s.lines

/-- The lines of a region whose pixels have been substituted (R223). -/
def State.panelRewrite (y0 y1 : Nat) (s : State) : State := s.panelRedo y0 y1

/-! Driver commands (R211). -/

/-- A command sent on a port: CFG, GAIN and USER carry one word for every IC. On a direct port CFG's word fills the IC's CH bits from the low
end (DESIGN CHOICE, log 108). -/
def State.sendCommand (p k data : Nat) (s : State) : State :=
  let pr := s.prof p
  let n := 8 * (s.members p).length
  if k = 1 ∨ k = 3 ∨ k = 4 then s.emit (.panelRun p k (pr.latw k) (pr.latw k) pr.latHigh (List.replicate n []))
  else s.emit (.panelRun p k (pr.latw k) pr.runSlots pr.latHigh (List.replicate n (List.replicate pr.nic (data % 2 ^ pr.icBits))))

/-- A write of PNL_CMDQ (R211). -/
def State.pnlCmdq (v : Word) (s : State) : State :=
  let cmd := fld v 2 0
  let ports := s.leads.filter fun p => (s.members p).any fun m => s.bit Reg.PNL_CMDMASK m
  if cmd < 5 then s.raise0 stPNL 4
  else if ports.any (fun p => decide ((s.prof p).latw cmd = 0) || (s.prof p).direct) then s.raise0 stPNL 4
  else if s.pnl.queue.length ≥ 16 then s.raise0 stPNL 3
  else if ports.isEmpty then s
  else { s with pnl := { s.pnl with queue := s.pnl.queue ++ [⟨cmd, fld v 31 16, ports⟩] } }

/-- Port `p` leaves the oldest request that names it, and the request goes when no port is left. -/
def takePort (p : Nat) : List CmdReq → List CmdReq
  | [] => []
  | r :: rs =>
    if r.ports.contains p then
      let left := r.ports.erase p
      if left.isEmpty then rs else { r with ports := left } :: rs
    else r :: takePort p rs

/-- `PNL_COMMAND_SEND`: the port sends the oldest request that names it (R211). -/
def execPnlCommandSend (port : Fin 32) (s : State) : Res :=
  if s.frozen then .next s else
  let p := s.leadPort port.val
  if s.pnl.units.any (fun u => decide (u.port = p) && u.running) || !s.bit Reg.PNL_CTRL 0 then .next s else
  match s.pnl.queue.find? (fun r => r.ports.contains p) with
  | none => .next s
  | some r =>
    let data := if r.cmd = 5 then (s.prof p).cfgval else r.data
    .next (({ s with pnl := { s.pnl with queue := takePort p s.pnl.queue } } : State).sendCommand p r.cmd data)

/-! The map RAM (R194). -/

/-- The entry belongs to a template that an enabled port of the active structure set names. -/
def State.mapInUse (s : State) (i : Nat) : Bool :=
  let v := s.activeView
  (List.range 32).any fun p =>
    v.portOn p &&
      (let pr := v.prof p
       let t := v.reg (Reg.PNL_TMPLt (fld (v.portCfg p) 9 8))
       decide (fld t 15 0 ≤ i) && decide (i < fld t 15 0 + pr.rows * (fld t 21 16 + 1) * pr.ch))

def State.mapStep (s : State) : State := s.setF Reg.PNL_MAPADDR 15 0 (s.f Reg.PNL_MAPADDR 15 0 + 1)

/-- A write of entry `i`; one of a template in use is ignored and sets MAPWR. -/
def State.mapPut (i : Nat) (v : Word) (s : State) : State :=
  if s.mapInUse i then s.raise0 stPNL 2
  else { s with pnl := { s.pnl with map := Sparse.set (fun _ => (0 : Word)) s.pnl.map i (v &&& 0x03FFFFFF) } }

def State.mapWrite (v : Word) (s : State) : State := (s.mapPut (s.f Reg.PNL_MAPADDR 15 0) v).mapStep

/-! Refresh, swap and stores (R199 to R206). -/

/-- The port that times scan group `g`. -/
def State.groupPort (s : State) (g : Nat) : Option Nat :=
  (List.range 32).find? fun p => s.portOn p && decide (fld (s.portCfg p) 6 4 = g)

/-- The outputs are blanked (R210). -/
def State.blanked (s : State) : Bool := s.pnl.reqOn || s.pnl.holdOn

def emptyScan (p : Nat) : ScanSt := { port := p, row := 0, plane := 0, latch := [], shifted := [], fetched := [] }

def State.scanOf (s : State) (p : Nat) : ScanSt :=
  match s.pnl.scans.find? (fun x => decide (x.port = p)) with
  | some x => x
  | none => emptyScan p

def State.setScan (x : ScanSt) (s : State) : State :=
  { s with pnl := { s.pnl with scans := x :: s.pnl.scans.filter fun y => decide (y.port ≠ x.port) } }

/-- A buffered group blanks by its enable where the profile lacks BLANK (R210). -/
def State.groupBlanked (s : State) (g : Nat) : Bool :=
  match s.groupPort g with
  | some p => s.blanked && !(s.prof p).direct && decide ((s.prof p).latw 3 = 0)
  | none => false

/-- The pins of scan group `g` are driven. -/
def State.driveGroup (g : Nat) (s : State) : State :=
  match s.pnl.groups[g]? with
  | some (row, en) => s.emit (.panelScan g row (en && !s.groupBlanked g))
  | none => s

def State.setGroup (g row : Nat) (en : Bool) (s : State) : State :=
  ({ s with pnl := { s.pnl with groups := s.pnl.groups.set g (row, en) } } : State).driveGroup g

/-- A refresh begins: GCLK of every buffered port and its scan group restart, and direct ports start at row 0, plane 0, with the plane shifted
before it latched (R200, R205). -/
def State.startRefresh (s : State) : State :=
  let s1 := (List.range 8).foldl (fun t g =>
    match t.groupPort g with
    | some p => if (t.prof p).direct then t else t.setGroup g 0 true
    | none => t) s
  ((List.range 32).filter fun p => s.portOn p).foldl (fun t p =>
    let pr := t.prof p
    if pr.direct then
      let x := t.scanOf p
      t.setScan { x with row := 0, plane := 0, latch := x.shifted }
    else t.emit (.panelGclk p (t.f Reg.PNL_GCLK 7 0 + 1) pr.gclkHigh)) s1

/-- The refresh with the old timing has ended and the new grid has not begun: every scan group is disabled (R214). -/
def State.goDark (s : State) : State :=
  (List.range 8).foldl (fun t g =>
    match t.groupPort g, t.pnl.groups[g]? with
    | some _, some (row, _) => t.setGroup g row false
    | _, _ => t) { s with pnl := { s.pnl with dark := true, oldTim := none, gridSplit := false } }

/-- `GRID_POINT`: a refresh ends and the next begins (R199). The refresh that a swap found in progress keeps its old timing; where the new
grid has no point in common with the old, outputs are dark from its end to the next grid point (R214, log 109). -/
def execGridPoint (s : State) : Res :=
  if s.frozen then .next s else
  if !s.bit Reg.PNL_CTRL 0 then .next s
  else if s.pnl.oldTim.isSome && s.pnl.gridSplit then .next s.goDark
  else .next ({ s with pnl := { s.pnl with dark := false, oldTim := none, gridSplit := false } } : State).startRefresh

/-- `SCAN_ROW_STEP`: the row address of a buffered scan group steps; after the last row the group is disabled until the next
grid point (R200). -/
def execScanRowStep (group : Fin 8) (s : State) : Res :=
  if s.frozen then .next s else
  match s.groupPort group.val, s.pnl.groups[group.val]? with
  | some p, some (row, en) =>
    if (s.prof p).direct || !s.bit Reg.PNL_CTRL 0 || s.pnl.dark then .next s
    else if row + 1 < (s.prof p).rows then .next (s.setGroup group.val (row + 1) en)
    else .next (s.setGroup group.val row false)
  | _, _ => .next s

/-- The ports that send BLANK, UNBLANK and SWAP. -/
def State.bufferedLeads (s : State) : List Nat := s.leads.filter fun p => !(s.prof p).direct

/-- PNL_BLANK.ACTIVE shows whether a cause holds; a change is carried to the ports (R210). -/
def State.showBlank (was : Bool) (s0 : State) : State :=
  let s := s0.setBit Reg.PNL_BLANK 8 s0.blanked
  if was = s.blanked then s else
  s.bufferedLeads.foldl (fun t p =>
    let pr := t.prof p
    let k := if t.blanked then 3 else 4
    if pr.latw 3 = 0 then t.driveGroup (fld (t.portCfg p) 6 4)
    else if pr.latw k = 0 then t else t.sendCommand p k 0) s

/-- `SWAP_COMMAND`: every buffered port sends SWAP so that its LAT ends SWAPLAT after the swap; blanking of a held sub-frame ends
with it, UNBLANK going first (R201, R210). -/
def execSwapCommand (s : State) : Res :=
  if s.frozen then .next s else
  if s.pnl.swapDue && s.bit Reg.PNL_CTRL 0 then
    let ends := s.pnl.blankDue.contains (.hold false)
    let s1 := { s with pnl := { s.pnl with
      swapDue := false, holdOn := s.pnl.holdOn && !ends,
      blankDue := if ends then s.pnl.blankDue.filter fun (e : BlankEv) => decide (e ≠ BlankEv.hold true ∧ e ≠ BlankEv.hold false) else s.pnl.blankDue } }
    let s2 := s1.showBlank s.blanked
    .next (s2.bufferedLeads.foldl (fun t p => t.sendCommand p 1 0) s2)
  else .next s

/-- The store bases agree: multiples of 16 and stores that do not overlap (R206). -/
def State.fsAgree (s : State) : Bool :=
  let a := (s.reg (Reg.PNL_FSBASEx 0)).toNat
  let b := (s.reg (Reg.PNL_FSBASEx 1)).toNat
  let n := s.storeOff (s.f Reg.QDL_STRUCT 12 8) 32
  decide (a % 16 = 0) && decide (b % 16 = 0) && (decide (a + n ≤ b) || decide (b + n ≤ a))

/-- `STORE_EXCHANGE`: an exchange point. The pair of bases is checked (R39, R206); the stores exchange at the first exchange
point at or after the swap plus 40 ns (`ripe`) (R202). -/
def execStoreExchange (ripe : Bool) (s : State) : Res :=
  if s.frozen then .next s else
  let s1 := if s.fsAgree then
      ({ s with pnl := { s.pnl with fsGood := ((s.reg (Reg.PNL_FSBASEx 0)).toNat, (s.reg (Reg.PNL_FSBASEx 1)).toNat) } } : State).matched 4
    else (s.mismatch 4).raise0 stPNL 5
  if s.pnl.exchangeDue && ripe then
    .next (({ s1 with pnl := { s1.pnl with exchangeDue := false } } : State).setF Reg.PNL_FSSTAT 0 0 (1 - s.fsFront))
  else .next s1

/-- The plane-row after (r, k) in a refresh of a profile: ascending planes within ascending rows, then the next refresh's first. -/
def nextPlane (rows depth r k : Nat) : Nat × Nat :=
  if k + 1 < depth then (r, k + 1) else if r + 1 < rows then (r + 1, 0) else (0, 0)

/-- `SCANOUT_PREFETCH`: a plane-row of the front store is read through port PNL into the prefetch buffer, which holds two
(R209); an error response makes it zeros. -/
def execScanoutPrefetch (port : Fin 32) (row plane : Nat) (s : State) : Res :=
  if s.frozen then .next s else
  let p := port.val
  let pr := s.prof p
  let x := s.scanOf p
  let depth := s.f Reg.QDL_STRUCT 12 8
  if s.bit Reg.PNL_CTRL 0 && s.portOn p && pr.direct && decide (x.fetched.length < 2) && decide (row < pr.rows) && decide (plane < depth) then
    let a := s.fsBase s.fsFront + s.storeOff depth p + (row * depth + plane) * pr.planeBytes
    let (code, bs, s1) := s.portRead 4 a pr.planeBytes
    let s2 := s1.setScan { x with fetched := x.fetched ++ [(row, plane, if code = 0 then bs else List.replicate pr.planeBytes 0)] }
    .next (if code = 0 then s2 else s2.raise stPNL 7 (wd p) 0 0)
  else .next s

/-- PNL_DIRTIM as the refresh in progress uses it (R214). -/
def State.dirTim (s : State) : Word :=
  match s.pnl.oldTim with
  | some w => w.1
  | none => s.reg Reg.PNL_DIRTIM

/-- `PLANE_SLOT`: one slot of a refresh of a direct port: the latched plane is lit for its time, at the first slot of a row the scan group
that the port times takes its row address, and the next plane-row of the sequence is shifted and latched at the slot end (R205); a plane-row
that has not landed repeats the previous one (R209). That such a group is enabled from its first slot on is DEDUCED (log 110). -/
def execPlaneSlot (port : Fin 32) (s : State) : Res :=
  if s.frozen then .next s else
  let p := port.val
  let pr := s.prof p
  if !(s.bit Reg.PNL_CTRL 0 && s.portOn p && pr.direct) || s.pnl.dark then .next s else
  let x := s.scanOf p
  let depth := s.f Reg.QDL_STRUCT 12 8
  let w := 2 ^ x.plane * fld s.dirTim 7 0
  let g := fld (s.portCfg p) 6 4
  let s0 := if x.plane = 0 ∧ s.groupPort g = some p then s.setGroup g x.row true else s
  let (r2, k2) := nextPlane pr.rows depth x.row x.plane
  let out := fun (shifted : List Byte) =>
    Out.panelPlane p x.row x.plane (if s.blanked then 0 else w) pr.gclkHigh x.latch pr.runSlots (pr.latw 0) pr.latHigh shifted
  match x.fetched.find? (fun e => decide (e.1 = r2) && decide (e.2.1 = k2)) with
  | some e =>
    .next ((s0.emit (out e.2.2)).setScan { x with row := r2, plane := k2, shifted := e.2.2, latch := e.2.2, fetched := x.fetched.erase e })
  | none =>
    .next ((((s0.emit (out x.shifted)).setScan { x with row := r2, plane := k2, latch := x.shifted }).count (Reg.PNL_PAIRq_CNT (p / 2)) 15 0).raise
      stPNL 6 (wd p) 0 0)

/-! Blanking (R210). -/

/-- A write of PNL_BLANK: a change of REQ blanks, or ends REQ blanking, SWAPLAT later. -/
def State.blankRequest (v : Word) (s : State) : State :=
  let s1 := s.setBit Reg.PNL_BLANK 0 (bitAt v 0)
  if bitAt v 0 = s.bit Reg.PNL_BLANK 0 then s1
  else { s1 with pnl := { s1.pnl with blankDue := s1.pnl.blankDue ++ [.req (bitAt v 0)] } }

/-- `BLANK_START`: the instant at which the cause next due blanks: SWAPLAT after a write of REQ to one, or after the deadline of a
sub-frame held with HOLDBLANK. -/
def execBlankStart (s : State) : Res :=
  if s.frozen then .next s else
  match s.pnl.blankDue with
  | .req true :: rest => .next (({ s with pnl := { s.pnl with reqOn := true, blankDue := rest } } : State).showBlank s.blanked)
  | .hold true :: rest => .next (({ s with pnl := { s.pnl with holdOn := true, blankDue := rest } } : State).showBlank s.blanked)
  | _ => .next s

/-- `BLANK_END`: the instant at which the cause next due ends: SWAPLAT after a write of REQ to zero, or after the swap that follows a
held sub-frame. -/
def execBlankEnd (s : State) : Res :=
  if s.frozen then .next s else
  match s.pnl.blankDue with
  | .req false :: rest => .next (({ s with pnl := { s.pnl with reqOn := false, blankDue := rest } } : State).showBlank s.blanked)
  | .hold false :: rest => .next (({ s with pnl := { s.pnl with holdOn := false, blankDue := rest } } : State).showBlank s.blanked)
  | _ => .next s

/-! Frame ends and structure (R195, R214). -/

/-- The registers of profile `x`. -/
def profRegs (x : Nat) : List Nat :=
  [Reg.PNL_PROFx_CFG x, Reg.PNL_PROFx_CMDA x, Reg.PNL_PROFx_CMDB x, Reg.PNL_PROFx_CFGVAL x, Reg.PNL_PROFx_CLK x]

/-- Port `p` newly uses its profile in `t`, or a register of the profile has changed from `s` (Table 7.2). -/
def State.newProf (s t : State) (p : Nat) : Bool :=
  let x := t.portProfNo p
  !s.portOn p || decide (s.portProfNo p ≠ x) || (profRegs x).any fun a => decide (s.reg a ≠ t.reg a)

/-- The block adopts its new structure registers, and sends CFG on every port that newly uses a profile or whose profile has
changed (Table 7.2, R214); the pins of a group that no port names any more go low (R200). -/
def State.panelAdopt (s : State) : State :=
  if s.img.staged.all fun e => decide (blockOf e.1 ≠ 7) then s else
  let t := s.adopt fun a => decide (blockOf a = 7)
  let low := (List.range 8).foldl (fun u g =>
    if u.groupPort g = none ∧ u.pnl.groups[g]? ≠ some (0, false) then u.setGroup g 0 false else u) t
  let fresh := t.leads.filter fun p => (t.prof p).latw 5 ≠ 0 && (t.members p).any fun m => s.newProf t m
  fresh.foldl (fun u p => u.sendCommand p 5 (u.prof p).cfgval) low

/-- The panel block at a swap or a frame hold: the frame's units are done with, and a new structure is adopted. -/
def State.panelFrameEnd (s : State) : State :=
  ({ s with pnl := { s.pnl with units := [], lastUnit := [], segs := [] } } : State).panelAdopt

end Sys2Proof.Machine
end

