-- ==== Sys2Proof/Machine/Signature.lean ====
section
/-! DEFINITION. Signature regions: checksums, decisions, substitution, records and Pavane (R215 to R229). -/

namespace Sys2Proof.Machine

/-! Settings of a region in a frame. -/

structure Region where
  en : Bool
  action : Nat
  scene : Bool
  sfsel : Nat
  psrc : Bool
  exitn : Nat
  tpass : Nat
  x0 : Nat
  x1 : Nat
  y0 : Nat
  y1 : Nat
  exp : Word
  keep : Nat
  klim : Nat
  safe : Nat
deriving DecidableEq, Repr

/-- The region as the registers read by `g` set it. -/
def regionFrom (g : Nat → Word) (r : Nat) : Region :=
  let c := g (Reg.SIG_REGr_CTRL r)
  let x := g (Reg.SIG_REGr_X r)
  let y := g (Reg.SIG_REGr_Y r)
  { en := bitAt c 0, action := fld c 2 1, scene := bitAt c 3, sfsel := fld c 6 4, psrc := bitAt c 7, exitn := fld c 11 8,
    tpass := fld c 14 12, x0 := fld x 11 0, x1 := fld x 27 16, y0 := fld y 11 0, y1 := fld y 27 16,
    exp := g (Reg.SIG_REGr_EXP r), keep := (g (Reg.SIG_REGr_KEEP r)).toNat, klim := fld (g (Reg.SIG_REGr_KLIM r)) 22 0,
    safe := (g (Reg.SIG_REGr_SAFE r)).toNat }

def QFrame.region (q : QFrame) (r : Nat) : Region := regionFrom q.reg r

/-- Bytes of one row of a keep buffer or safe image (R223), and of a keep half (R224). -/
def Region.rowBytes (g : Region) : Nat := ((g.x1 + 1 - g.x0) * 6 + 15) / 16 * 16
def Region.half (g : Region) : Nat := (g.klim * 6 + 15) / 16 * 16
def Region.height (g : Region) : Nat := g.y1 + 1 - g.y0

/-- The sub-frame selection is reserved or names no sub-frame (R218). -/
def Region.badSel (g : Region) (subfm1 : Nat) : Bool := decide (4 < g.sfsel) || (decide (g.sfsel < 4) && decide (subfm1 < g.sfsel))

/-- Another setting of the region breaks a limit (R215, R221, R222). -/
def Region.badSet (g : Region) (width lines cllines : Nat) : Bool :=
  decide (g.x1 < g.x0) || decide (g.y1 < g.y0) || decide (width ≤ g.x1) || decide (lines ≤ g.y1) || decide (g.action = 3) ||
    ((decide (g.action = 1) || decide (g.action = 2)) && decide (cllines < g.height + 72))

/-- The region's settings break a limit: it is disabled and CFGERR is set. -/
def Region.bad (g : Region) (width lines subfm1 cllines : Nat) : Bool := g.badSel subfm1 || g.badSet width lines cllines

/-- The region is in use in frame `q` and within its limits. -/
def State.regionOn (q : QFrame) (r : Nat) (s : State) : Bool :=
  let g := q.region r
  s.bit Reg.SIG_CTRL 0 && g.en && !g.bad (q.f Reg.QDL_WIDTH 12 0) s.lines s.subfm1 (q.f Reg.QDL_CLLINES 8 0)

/-- The region is selected in the frame's sub-frame (R218). -/
def State.regionHere (q : QFrame) (r : Nat) (s : State) : Bool :=
  s.regionOn q r && (decide ((q.region r).sfsel = 4) || decide ((q.region r).sfsel = q.sf))

/-- Under temporal dither a DRIVE region is checked in one pass of eight (R218). -/
def State.regionSkips (q : QFrame) (r : Nat) (s : State) : Bool :=
  let g := q.region r
  !g.scene && decide (q.f Reg.QDL_OUTCFG 2 1 = 2) && decide ((q.frame * (s.subfm1 + 1) + q.sf) % 8 ≠ g.tpass)

def State.inPavane (s : State) (r : Nat) : Bool := s.bit Reg.SIG_PAVSTAT r

/-- The region is guarded (R221). -/
def State.guarded (q : QFrame) (r : Nat) (s : State) : Bool :=
  decide ((q.region r).action = 1) || decide ((q.region r).action = 2) || s.inPavane r

/-! Checks. -/

/-- What the signature unit does with region `r` in frame `q`: its check, or the copy of a pass it skips. -/
def State.trackOf (q : QFrame) (r : Nat) (s : State) : Option SigCheck :=
  s.sig.checks.find? fun c => decide (c.region = r) && decide (c.frame = q.frame) && decide (c.sf = q.sf)

/-- The check of region `r` in frame `q`. -/
def State.checkOf (q : QFrame) (r : Nat) (s : State) : Option SigCheck := (s.trackOf q r).filter fun c => !c.skip

def SigCheck.isOf (c d : SigCheck) : Bool := decide (d.region = c.region) && decide (d.frame = c.frame) && decide (d.sf = c.sf)

/-- A check is entered after the older ones, or takes the place of its earlier state. -/
def State.putCheck (c : SigCheck) (s : State) : State :=
  let old := s.sig.checks
  { s with sig := { s.sig with checks := if old.any c.isOf then old.map (fun d => if c.isOf d then c else d) else old ++ [c] } }

/-- The checks of a frame start with its line 0. -/
def State.startChecks (q : QFrame) (s : State) : State :=
  (List.range 16).foldl (fun t r =>
    if t.regionHere q r then
      t.putCheck { region := r, frame := q.frame, sf := q.sf, next := (q.region r).y0, crc := 0xFFFFFFFF, decided := none, subDue := false,
                   subDone := false, copied := true, skip := t.regionSkips q r, early := false }
    else t) s

/-- A confirmed line's region bytes are folded, and its ring pixels copied into the keep half that is not current (R217,
R224). -/
def State.foldLine (q : QFrame) (l : QLine) (r : Nat) (s : State) : State :=
  match s.trackOf q r with
  | none => s
  | some c =>
    let g := q.region r
    if c.next ≠ l.line ∨ g.y1 < l.line then s else
    let n := (g.x1 + 1 - g.x0) * 6
    let keep := decide (g.action = 1) || decide (g.action = 2)
    let copies := keep && !s.inPavane r
    let (_, ring, s1) := if (!g.scene && !c.skip) || copies then s.portRead 4 (l.addr + g.x0 * 6) n else (0, [], s)
    let bytes := if g.scene then (l.scene.drop (g.x0 * 9)).take ((g.x1 + 1 - g.x0) * 9) else ring
    let s2 := s1.putCheck { c with next := c.next + 1, crc := if c.skip then c.crc else crc32Run c.crc bytes, copied := c.copied && copies }
    if copies then
      let half := 1 - s2.f (Reg.SIG_REGr_STAT r) 9 9
      (s2.portWrite 4 (g.keep + half * g.half + (l.line - g.y0) * g.rowBytes) ring).2
    else s2

/-- The confirmed lines of the region that follow the last one folded are folded, in line order (R217). -/
def State.foldOn (q : QFrame) (r : Nat) : Nat → State → State
  | 0, s => s
  | k + 1, s =>
    match s.trackOf q r with
    | some c =>
      match s.qline q.frame q.sf c.next with
      | some l => if l.confirmed ∧ c.next ≤ (q.region r).y1 then State.foldOn q r k (s.foldLine q l r) else s
      | none => s
    | none => s

/-- A line of the frame has been confirmed: every region folds what it may. -/
def State.foldAll (q : QFrame) (s : State) : State := (List.range 16).foldl (fun t r => t.foldOn q r (q.region r).height) s

/-! Substitution (R223). -/

/-- Where the Pavane content of a region lies: the current keep half, the safe image, or zeros. -/
def State.pavaneSource (g : Region) (r : Nat) (s : State) : Option Nat :=
  if !g.psrc && s.bit (Reg.SIG_REGr_STAT r) 8 then some (g.keep + s.f (Reg.SIG_REGr_STAT r) 9 9 * g.half)
  else if g.safe ≠ 0 then some g.safe else none

/-- A pixel is shown by a lower-numbered region's substitution. -/
def State.coveredBelow (q : QFrame) (r x y : Nat) (s : State) : Bool :=
  (List.range r).any fun k =>
    match s.checkOf q k with
    | some c => let g := q.region k
      c.subDue && decide (g.x0 ≤ x) && decide (x ≤ g.x1) && decide (g.y0 ≤ y) && decide (y ≤ g.y1)
    | none => false

/-- One row of the substitution: read through port PNL, written over the region's pixels in the ring slot. -/
def State.substituteRow (q : QFrame) (r : Nat) (src : Option Nat) (y : Nat) (acc : Bool × State) : Bool × State :=
  let (bad, s) := acc
  let g := q.region r
  let n := (g.x1 + 1 - g.x0) * 6
  match s.qline q.frame q.sf y with
  | none => acc
  | some l =>
    let (code, bs, s1) := match src with
      | some a => s.portRead 4 (a + (y - g.y0) * g.rowBytes) n
      | none => (0, List.replicate n 0, s)
    let runs := (List.range (g.x1 + 1 - g.x0)).filter fun k => !s1.coveredBelow q r (g.x0 + k) y
    let s2 := if runs.length = g.x1 + 1 - g.x0 then (s1.portWrite 4 (l.addr + g.x0 * 6) bs).2
      else runs.foldl (fun t k => (t.portWrite 4 (l.addr + (g.x0 + k) * 6) ((bs.drop (6 * k)).take 6)).2) s1
    (bad || decide (code ≠ 0), s2)

/-- The region's Pavane content is written over its pixels in the kept ring slots, and sent units that meet it are marked. -/
def State.substitute (q : QFrame) (r : Nat) (s : State) : State :=
  let g := q.region r
  let src := s.pavaneSource g r
  let (bad, s1) := ((List.range (g.y1 + 1)).drop g.y0).foldl (fun acc y => State.substituteRow q r src y acc) (false, s)
  let s2 := if bad then s1.raise stSIG 4 (wd r) 0 0 else s1
  if s2.head.map (fun h => (h.frame, h.sf)) = some (q.frame, q.sf) then s2.panelRewrite g.y0 g.y1 else s2

/-- The frame in composition of a check. -/
def State.frameOf (frame sf : Nat) (s : State) : Option QFrame :=
  s.qdl.frames.find? fun q => decide (q.frame = frame) && decide (q.sf = sf)

/-- The region is decided in the frame, and any substitution is made (R222). -/
def State.regionSettled (q : QFrame) (r : Nat) (s : State) : Bool :=
  match s.checkOf q r with
  | some c => c.decided.isSome && (!c.subDue || c.subDone)
  | none => true

/-- The guarded regions that keep frame `q` from being complete, ascending. -/
def State.unsettled (q : QFrame) (s : State) : List Nat :=
  (List.range 16).filter fun r => s.guarded q r && !s.regionSettled q r

/-- A guarded region that meets line `y` of the frame is still undecided or unsubstituted (R222, R228). -/
def State.lineGuarded (q : QFrame) (y : Nat) (s : State) : Bool :=
  (s.unsettled q).any fun r => decide ((q.region r).y0 ≤ y) && decide (y ≤ (q.region r).y1)

/-- The signature unit has read line `y` as far as its regions need it (R139). -/
def State.signatureRead (q : QFrame) (y : Nat) (s : State) : Bool :=
  (List.range 16).all fun r =>
    match s.trackOf q r with
    | some c => decide (y < c.next) || decide (y < (q.region r).y0) || decide ((q.region r).y1 < y)
    | none => true

/-! Records and Pavane (R220, R225). -/

def State.enterPavane (r : Nat) (s : State) : State :=
  if s.inPavane r then s
  else ((s.setBit Reg.SIG_PAVSTAT r true).setF (Reg.SIG_REGr_STAT r) 7 4 0).raise stSIG 1 (wd r) 0 0

def State.leavePavane (r : Nat) (s : State) : State :=
  if s.inPavane r then (s.setBit Reg.SIG_PAVSTAT r false).raise stSIG 2 (wd r) 0 0 else s

/-- The record of an outcome, with the frame counter as it stands. -/
def State.recordOutcome (r code sum : Nat) (s : State) : State :=
  ((s.setF (Reg.SIG_REGr_STAT r) 2 0 code).setReg (Reg.SIG_REGr_LAST r) (wd sum)).setReg (Reg.SIG_REGr_FRAME r) (wd s.beam.frame)

/-- Region `r` at the swap (`swapped`), hold or discard of frame `q`. -/
def State.recordRegion (q : QFrame) (swapped : Bool) (r : Nat) (s : State) : State :=
  let g := q.region r
  if !s.regionOn q r then s.recordOutcome r 0 0
  else if !s.regionHere q r then s
  else
    let sum := match s.checkOf q r with
      | some c => (match c.decided with | some d => d.2 | none => 0)
      | none => 0
    if !swapped then s.recordOutcome r 4 sum
    else match s.checkOf q r with
      | none => s.recordOutcome r 3 0
      | some c =>
        match c.decided with
        | none => s.recordOutcome r 0 0
        | some (true, _) =>
          let s1 := (s.recordOutcome r 1 sum).count (Reg.SIG_REGr_CNT r) 31 16
          if s1.inPavane r && !c.early then
            let st := Reg.SIG_REGr_STAT r
            let s2 := s1.setF st 7 4 (sat 15 (s1.f st 7 4 + 1))
            if g.exitn ≠ 0 ∧ g.exitn ≤ s2.f st 7 4 then s2.leavePavane r else s2
          else s1
        | some (false, _) =>
          let s0 := (s.recordOutcome r 2 sum).count (Reg.SIG_REGr_CNT r) 15 0
          let s1 := if s0.inPavane r then s0.setF (Reg.SIG_REGr_STAT r) 7 4 0 else s0
          let s2 := (s1.raise stSIG 0 (wd r) (wd sum) g.exp).arrive 122
          if g.action = 2 then s2.enterPavane r else s2

/-- Every region's record at the end of frame `q`; its checks end with it. -/
def State.recordAll (q : QFrame) (swapped : Bool) (s : State) : State :=
  let s1 := (List.range 16).foldl (fun t r => t.recordRegion q swapped r) s
  { s1 with sig := { s1.sig with checks := s1.sig.checks.filter fun c => !(decide (c.frame = q.frame) && decide (c.sf = q.sf)) } }

/-- A write of SIG_PAVREQ: the region enters Pavane with the first check decided after it; one whose height breaks the limit of R222 does
not, and sets CFGERR (R222, R225). -/
def State.pavaneRequest (v : Word) (s : State) : State :=
  ((bitsOf v).filter fun r => decide (r < 16)).foldl (fun t r =>
    let g := regionFrom t.reg r
    if t.f Reg.QDL_CLLINES 8 0 < g.height + 72 then t.raise stSIG 3 (wd r) 0 0 else t.setBit Reg.SIG_PAVREQ r true) s

/-- The request of region `r` takes effect at a decision: checks decided before it count nothing in Pavane (R225). -/
def State.takePavaneRequest (r : Nat) (s : State) : State :=
  if s.bit Reg.SIG_PAVREQ r then
    let s1 := s.setBit Reg.SIG_PAVREQ r false
    if s1.inPavane r then s1
    else
      let s2 := { s1 with sig := { s1.sig with checks := s1.sig.checks.map fun (c : SigCheck) =>
        if c.region = r ∧ c.decided.isSome = true then { c with early := true } else c } }
      s2.enterPavane r
  else s

/-- A write of SIG_PAVSTAT. -/
def State.pavaneExit (v : Word) (s : State) : State :=
  ((bitsOf v).filter fun r => decide (r < 16)).foldl (fun t r => t.leavePavane r) s

/-- The station ought to be in section Pavane (R46, R226). -/
def State.sectWanted (s : State) : Bool := s.bit Reg.SIG_CTRL 1 || s.sig.misplaced

/-- Condition input PAVANE (R226). -/
def State.pavaneCond (s : State) : Bool := decide (s.f Reg.SIG_PAVSTAT 16 0 ≠ 0)

/-! Settings judged (R215, R218, R224). -/

/-- CFGERR for every enabled region whose settings break a limit; the sub-frame selection only where `sel` says it is judged (R526). -/
def State.judgeRegions (sel : Bool) (s : State) : State :=
  let v := s.activeView
  (List.range 16).foldl (fun t r =>
    let g := regionFrom s.reg r
    if g.en && ((sel && g.badSel v.subfm1) || g.badSet v.width v.lines (v.f Reg.QDL_CLLINES 8 0)) then t.raise stSIG 3 (wd r) 0 0 else t) s

/-- A guarded region's keep half holds it; `pavane` says that it is guarded by being in Pavane (R221, R224). -/
def Region.keepFits (g : Region) (pavane : Bool) : Bool :=
  !(g.en && (decide (g.action = 1) || decide (g.action = 2) || pavane)) || decide (g.height * g.rowBytes ≤ g.half)

/-- After registers changed from those of `old`: a keep buffer whose bounds, base or limit changed is invalid (R224). -/
def State.keepChanged (old s : State) : State :=
  (List.range 16).foldl (fun t r =>
    let a := [Reg.SIG_REGr_X r, Reg.SIG_REGr_Y r, Reg.SIG_REGr_KEEP r, Reg.SIG_REGr_KLIM r]
    if a.any fun x => decide (old.reg x ≠ t.reg x) then t.setBit (Reg.SIG_REGr_STAT r) 8 false else t) s

end Sys2Proof.Machine
end

