-- ==== Sys2Proof/Machine/Quadrille.lean ====
section
/-! DEFINITION. The Quadrille: line starts, flips, raster writes, squashes, composition and lane checks (R116 to R155,
R503 to R506). -/

namespace Sys2Proof.Machine

def QLine.key (l : QLine) : LineKey := (l.frame, l.sf, l.line)

/-- The sub-frame after a sub-frame. -/
def State.nextSub (s : State) (frame sf : Nat) : Nat × Nat := if sf < s.subfm1 then (frame, sf + 1) else (frame + 1, 0)

/-- The effect line of a raster write (R145). -/
def State.effect (s : State) (w : RasterW) : LineKey :=
  let l := if w.dot = 0 then w.line else w.line + 1
  if l < s.lines then (w.frame, w.sf, l)
  else let n := s.nextSub w.frame w.sf; (n.1, n.2, 0)

/-- The order in which raster writes apply: position, then engine, then issue order (R145). -/
def rasterBefore (a b : RasterW) : Bool :=
  if (a.frame, a.sf, a.line) = (b.frame, b.sf, b.line) then
    decide (a.dot < b.dot) || (decide (a.dot = b.dot) && (decide (a.eng < b.eng) || (decide (a.eng = b.eng) && decide (a.seq < b.seq))))
  else keyLt (a.frame, a.sf, a.line) (b.frame, b.sf, b.line)

def insertRaster (w : RasterW) : List RasterW → List RasterW
  | [] => [w]
  | x :: xs => if rasterBefore w x then w :: x :: xs else x :: insertRaster w xs

def sortRaster (ws : List RasterW) : List RasterW := ws.foldl (fun l w => insertRaster w l) []

/-! Raster registers. -/

/-- The registers a raster write may change (Table 6.5, space QDL). -/
def rasterRegs : List Nat :=
  [Reg.QDL_RLAYEN, Reg.QDL_RPRIORD0, Reg.QDL_RPRIORD1] ++
    (List.range 12).flatMap fun n => [Reg.LAYn_RPOSX n, Reg.LAYn_RPOSY n]

/-- The bits of a raster register that a write sets. -/
def rasterMask (a : Nat) : Word :=
  if a = Reg.QDL_RLAYEN then 0xFFF
  else if a = Reg.QDL_RPRIORD0 then 0xFFFFFFFF
  else if a = Reg.QDL_RPRIORD1 then 0xFFFF
  else 0x1FFFFF

/-- The mark by which a v1 PRI write is known among targets; its value holds V and, above it, the slots of the v1 layers. -/
def priTarget : Nat := 0

def isOrder (w : RasterW) : Bool :=
  decide (w.target = Reg.QDL_RPRIORD0) || decide (w.target = Reg.QDL_RPRIORD1) || decide (w.target = priTarget)

def isPalette (a : Nat) : Bool := decide (0x20000000 ≤ a) && decide (a < 0x20020000)

/-- What a raster register or palette word holds. -/
def State.rasterValue (a : Nat) (s : State) : Word := if isPalette a then s.word a else s.reg a

/-- A raster register or a half of a palette entry takes a value. -/
def State.rasterSet (a : Nat) (v : Word) (s : State) : State :=
  if isPalette a then s.palStore a (leBytes 4 v.toNat) else s.setReg a (v &&& rasterMask a)

/-- The order list after a v1 PRI write (R183): the positions held by the four mapped slots are filled with them, rearmost first,
in the order V names. None where V does not name layers 0 to 3 once each. -/
def priOrder (value w0 w1 : Word) : Option (Word × Word) :=
  let layer := fun (p : Nat) => fld value (4 * p + 3) (4 * p)
  let slotOf := fun (k : Nat) => fld value (16 + 4 * k + 3) (16 + 4 * k)
  if !(List.range 4).all (fun k => (List.range 4).any fun p => decide (layer p = k)) then none else
  let cur := (List.range 12).map fun p => if p < 8 then fld w0 (4 * p + 3) (4 * p) else fld w1 (4 * (p - 8) + 3) (4 * (p - 8))
  let mapped := (List.range 4).map slotOf
  let order := (List.range 4).map fun p => slotOf (layer p)
  let (new, _) := cur.foldl (fun (acc : List Nat × List Nat) x =>
    if mapped.contains x then
      match acc.2 with
      | o :: rest => (acc.1 ++ [o], rest)
      | [] => (acc.1 ++ [x], [])
    else (acc.1 ++ [x], acc.2)) ([], order)
  let word := fun (l : List Nat) => wd (l.zipIdx.foldl (fun n e => n + e.1 * 16 ^ e.2) 0)
  some (word (new.take 8), word (new.drop 8))

/-- The order writes of one line, judged whole (R145, R183): the list in force after them, and whether any was refused. -/
def State.orderAfter (ws : List RasterW) (s : State) : Word × Word × Bool :=
  let w0 := s.reg Reg.QDL_RPRIORD0
  let w1 := s.reg Reg.QDL_RPRIORD1
  let plain := ws.foldl (fun (a : Word × Word) w =>
    if w.target = Reg.QDL_RPRIORD0 then (w.value, a.2)
    else if w.target = Reg.QDL_RPRIORD1 then (a.1, w.value &&& 0xFFFF) else a) (w0, w1)
  let (p, bad) := ws.foldl (fun (acc : (Word × Word) × Bool) w =>
    if w.target = priTarget then
      match priOrder w.value acc.1.1 acc.1.2 with
      | some x => (x, acc.2)
      | none => (acc.1, true)
    else acc) (plain, false)
  if orderOk p.1 p.2 then (p.1, p.2, bad) else (w0, w1, true)

/-- Every raster write whose effect line is `key` is applied, in order, and enters the raster log; writes to registers whose
effect line falls in a later sub-frame have no effect (R145, R147). -/
def State.applyLine (key : LineKey) (s : State) : State :=
  let due := sortRaster ((s.qdl.queue.filter fun w => keyLe (s.effect w) key) ++
    (s.qdl.log.filter fun e => !e.applied && decide ((e.frame, e.sf, e.line) = key)).map (·.w))
  let s0 := { s with qdl := { s.qdl with
    queue := s.qdl.queue.filter fun w => !keyLe (s.effect w) key,
    log := s.qdl.log.filter fun e => e.applied || decide ((e.frame, e.sf, e.line) ≠ key) } }
  let here := fun (w : RasterW) => isPalette w.target || decide ((w.frame, w.sf) = (key.1, key.2.1))
  let note := fun (w : RasterW) (old : List (Nat × Word)) (t : State) =>
    ({ t with qdl := { t.qdl with log := t.qdl.log ++ [⟨w, true, old, key.1, key.2.1, key.2.2⟩] } } : State)
  let s1 := due.foldl (fun t w =>
    if isOrder w then t
    else if here w then (note w [(w.target, t.rasterValue w.target)] t).rasterSet w.target w.value
    else note w [] t) s0
  let orders := due.filter fun w => isOrder w && here w
  if orders.isEmpty then s1 else
  let (o0, o1, bad) := s1.orderAfter orders
  let old := [(Reg.QDL_RPRIORD0, s1.reg Reg.QDL_RPRIORD0), (Reg.QDL_RPRIORD1, s1.reg Reg.QDL_RPRIORD1)]
  let s2 := orders.zipIdx.foldl (fun t e => note e.1 (if e.2 = 0 then old else []) t) s1
  let s3 := (s2.setReg Reg.QDL_RPRIORD0 o0).setReg Reg.QDL_RPRIORD1 o1
  if bad then s3.raise0 stQDL 2 else s3

/-! Undoing (R147). -/

/-- The applied log entries that `p` picks are undone in reverse order. -/
def State.undo (p : LogEntry → Bool) (s : State) : State :=
  let s1 := s.qdl.log.reverse.foldl (fun t e =>
    if e.applied && p e then e.old.reverse.foldl (fun u o => u.rasterSet o.1 o.2) t else t) s
  { s1 with qdl := { s1.qdl with log := s1.qdl.log.map fun e => if p e then { e with applied := false } else e } }

/-- The raster registers and palette as they stood before line `key` applied its writes: later sub-frames are undone with the
base values their line 0 took. -/
def State.undoFrom (key : LineKey) (s : State) : State :=
  let later := (s.qdl.frames.filter fun q => keyLt (key.1, key.2.1, 0) (q.frame, q.sf, 0)).reverse
  let s1 := later.foldl (fun t q =>
    let u := t.undo fun e => decide ((e.frame, e.sf) = (q.frame, q.sf))
    if u.qdl.lines.any (fun l => decide ((l.frame, l.sf) = (q.frame, q.sf))) then
      q.before.foldl (fun v e => v.setReg e.1 e.2) u
    else u) s
  s1.undo fun e => keyLe key (e.frame, e.sf, e.line)

/-- A squash from line `key` on: started lines that are not confirmed are discarded, the log undone, the panel ports told, and
composition resumes at the line (R146, R147). -/
def State.squash (key : LineKey) (s : State) : State :=
  let hit := s.qdl.lines.filter fun l => !l.confirmed && keyLe key l.key
  match hit with
  | [] => s
  | first :: rest =>
    let low := rest.foldl (fun (m : QLine) l => if keyLt l.key m.key then l else m) first
    let s1 := s.undoFrom low.key
    let s2 := { s1 with qdl := { s1.qdl with
      lines := s1.qdl.lines.filter fun l => l.confirmed || keyLt l.key key,
      active := true, frame := low.frame, sf := low.sf, next := low.line, ringNext := low.slot,
      ringKey := match s1.frameOf low.frame low.sf with
        | some q => ((q.reg Reg.QDL_CLBASE).toNat, q.f Reg.QDL_CLLINES 8 0, q.stride)
        | none => s1.qdl.ringKey } }
    let c := Reg.QDL_SQCNT
    let s3 := s2.setReg c (countBy (countUp (s2.reg c) 15 0) 31 16 hit.length)
    match s3.frameOf low.frame low.sf with
    | some q => s3.panelSquash q low.line
    | none => s3

/-- `RASTER_WRITE`: the oldest issued raster write enters the raster queue; one whose effect line lies at or before the last line
started squashes (R145, R146). -/
def execRasterWrite (s : State) : Res :=
  if s.frozen then .next s else
  match s.mnt.issued with
  | [] => .next s
  | w :: rest =>
    let s1 := { s with mnt := { s.mnt with issued := rest }, qdl := { s.qdl with queue := s.qdl.queue ++ [w] } }
    .next (s1.squash (s1.effect w))

/-! Descriptor banks and flips (R121, R141 to R143). -/

def State.bankCtrl (s : State) (n b : Nat) : Word := s.reg (Reg.LAYn_Bb_CTRL n b)

/-- The bank passes the descriptor check for the slot's type (Table 4.9, DESC). -/
def State.bankOk (s : State) (n b : Nat) : Bool :=
  let c := s.bankCtrl n b
  let al := fun (a : Nat) => decide ((s.reg a).toNat % 16 = 0)
  let ls := !bitAt c 15 || al (Reg.LAYn_Bb_LSBASE n b)
  let z := Reg.LAYn_Bb_SIZE1 n b
  match s.layType n with
  | 1 =>
    let w := s.f z 10 0
    let h := s.f z 26 16
    al (Reg.LAYn_Bb_BASE0 n b) && al (Reg.LAYn_Bb_BASE1 n b) && ls && decide (fld c 4 2 ≤ 6) && decide (1 ≤ w) && decide (w ≤ 1024)
      && decide (1 ≤ h) && decide (h ≤ 1024)
  | 2 =>
    let w := s.f z 12 0
    let h := s.f z 28 16
    al (Reg.LAYn_Bb_BASE0 n b) && ls && decide (fld c 8 5 ≤ 8) && decide (fld c 11 10 ≤ 2) && decide (1 ≤ w) && decide (w ≤ 4096)
      && decide (1 ≤ h) && decide (h ≤ 4096)
      && decide (w * (planeFormat (fld c 8 5)).1 / 8 ≤ s.f (Reg.LAYn_Bb_STRIDE n b) 15 0)
  | 3 => al (Reg.LAYn_Bb_BASE0 n b) && al (Reg.LAYn_Bb_BASE1 n b) && decide (s.f (Reg.LAYn_Bb_SIZE0 n b) 12 0 ≤ 4096)
  | _ => true

def State.layer (s : State) (n : Nat) : LayerSt := match s.qdl.layers[n]? with | some l => l | none => emptyLayer

def State.setLayer (n : Nat) (l : LayerSt) (s : State) : State := { s with qdl := { s.qdl with layers := s.qdl.layers.set n l } }

/-- The slot is a plane whose bank in use is streamed (R118). -/
def State.streamed (s : State) (n : Nat) : Bool :=
  decide (s.layType n = 2) && s.layValid n && bitAt (s.bankCtrl n (s.front n)) 14

/-- The fields that place a streamed slot's buffers and name its planes (R118, R280). -/
def State.bufferKey (s : State) (n b : Nat) : List Word :=
  [s.reg (Reg.LAYn_Bb_BASE0 n b), s.reg (Reg.LAYn_Bb_STRIDE n b), wd (s.f (Reg.LAYn_Bb_SIZE1 n b) 28 16),
    wd (s.f (Reg.LAYn_Bb_SIZE0 n b) 15 0)]

/-- A frame whose use must end is still in composition, or is still to be composed, before frame `m`. -/
def State.earlierInUse (m : Nat) (s : State) : Option Nat :=
  if m = 0 then none
  else if s.qdl.frames.any (fun q => decide (q.frame < m)) then some (m - 1) else none

/-- The slot's fence is taken: its back bank is checked and, if it passes, flipped to, for frame `m` (R121, R142). Answers
whether it flipped. -/
def State.flip (m n : Nat) (s : State) : Bool × State :=
  let s1 := s.setBit (Reg.LAYn_FENCE n) 0 false
  let old := s.front n
  let new := 1 - old
  if s.bankOk n new then
    let was := s.layValid n
    let busy := if was then s.earlierInUse m else none
    let bk := Reg.LAYn_BANK n
    let s2 := ((s1.setF bk 0 0 new).setBit bk 2 true).setBit bk 1 busy.isSome
    let s3 := s2.count (Reg.LAYn_FLIPS n) 15 0
    let l := s3.layer n
    let s4 :=
      if was ∧ s.bufferKey n old = s.bufferKey n new then s3.setLayer n { l with busyUntil := busy }
      else (s3.setLayer n { l with busyUntil := busy, bufs := [.free, .free, .free], fillTag := none, fillLeft := 0,
                                   lastTag := none, bufsUntil := none }).setBit (Reg.LAYn_FENCE n) 2 false
    let clamp := decide (s4.layType n = 2) && (s4.planeDisplay n new).2.2
    (true, if clamp then s4.raise (stLAYF n) 3 (wd n) 0 0 else s4)
  else (false, s1.raise (stLAYE n) 0 (wd n) 0 0)

/-- A plane flip for frame `m`: the ready buffer becomes showing (R118). -/
def State.planeFlip (m n : Nat) (s : State) : State :=
  let l := s.layer n
  let held := s.earlierInUse m
  let bufs := l.bufs.map fun b => match b with
    | .showing => if held.isSome then PlaneBuf.inUse else PlaneBuf.free
    | .ready => PlaneBuf.showing
    | x => x
  (s.setLayer n { l with bufs := bufs, bufsUntil := if held.isSome then held else l.bufsUntil }).setBit (Reg.LAYn_FENCE n) 2 false

/-- A plane of the slot is still incomplete at a frame boundary (R119). A plane that took no buffer counts as incomplete, and none is judged where
an older ready plane flips there: the spec says neither (DESIGN CHOICE, log 97). -/
def State.planeStale (m n : Nat) (s : State) : State :=
  if s.streamed n && (s.layer n).fillTag.isSome then s.raiseOnce m n 5 (stLAYE n) (wd n) else s

/-- The port that reads the sprite tables of frame `m`: that of the lowest lane in service (R528). -/
def State.spritePort (s : State) (m : Nat) : Nat :=
  let v := match s.frameOf m 0 with
    | some q => s.withFrame q
    | none => s
  match v.lanesIn with | l :: _ => l | [] => 0

/-- The sprite table of slot `n` is read for frame `m` (R107, R131, R528). -/
def State.readSprites (m n : Nat) (s : State) : State :=
  let b := s.front n
  let port := s.spritePort m
  let base := (s.reg (Reg.LAYn_Bb_BASE0 n b)).toNat
  let (tab, s1) := (List.range (s.f (Reg.LAYn_Bb_SIZE0 n b) 12 0)).foldl
    (fun (acc : List (Option Nat) × State) i =>
      let (code, v, t1) := acc.2.sramRead port (base + 16 * i)
      if code ≠ 0 then (acc.1 ++ [none], t1.raiseOnce m n 2 (stLAYE n) (wd n))
      else (acc.1 ++ [some v], if v.testBit 63 && decide (v / 2 ^ 86 % 4 = 3) then t1.raiseOnce m n 3 (stLAYE n) (wd n) else t1)) ([], s)
  s1.setLayer n { s1.layer n with sprites := tab }

def State.readSlotSprites (m n : Nat) (s : State) : State :=
  if s.layType n = 3 ∧ s.layValid n = true then s.readSprites m n else s.setLayer n { s.layer n with sprites := [] }

/-- A sprite table with the entries marked that lie beyond the sprites left for the frame; how many are left after it, and whether it went beyond
them. -/
def limitTable (left : Nat) (tab : List (Option Nat)) : Nat × Bool × List (Option Nat) :=
  tab.foldl (fun (acc : Nat × Bool × List (Option Nat)) e =>
    match e with
    | some v0 =>
      let v := v0 % 2 ^ 128
      if !v.testBit 63 then (acc.1, acc.2.1, acc.2.2 ++ [some v])
      else if acc.1 = 0 then (0, true, acc.2.2 ++ [some (v + 2 ^ 128)])
      else (acc.1 - 1, acc.2.1, acc.2.2 ++ [some v])
    | none => (acc.1, acc.2.1, acc.2.2 ++ [none])) (left, false, [])

/-- The tables of the twelve slots with the sprites beyond the 4,096th marked, counted in ascending slot and index; and the slot where the count
goes beyond them (R110). -/
def limitTables (tabs : List (List (Option Nat))) : Option Nat × List (List (Option Nat)) :=
  let (_, beyond, out, _) := tabs.foldl (fun (acc : Nat × Option Nat × List (List (Option Nat)) × Nat) tab =>
    let (left, cut, tab1) := limitTable acc.1 tab
    (left, acc.2.1 <|> (if cut then some acc.2.2.2 else none), acc.2.2.1 ++ [tab1], acc.2.2.2 + 1)) (4096, none, [], 0)
  (beyond, out)

/-- The sprite tables read for frame `m` are limited, and the slot where the count goes beyond 4,096 sets SPRCNT (R110). -/
def State.limitSprites (m : Nat) (s : State) : State :=
  let (beyond, tabs) := limitTables (s.qdl.layers.map (·.sprites))
  let s1 := { s with qdl := { s.qdl with layers := s.qdl.layers.zipWith (fun l t => { l with sprites := t }) tabs } }
  match beyond with
  | some n => s1.raiseOnce m n 4 (stLAYE n) (wd n)
  | none => s1

/-- The index of the buffer each slot shows. -/
def State.showsNow (s : State) : List (Option Nat) :=
  (List.range 12).map fun n => (s.layer n).bufs.findIdx? fun b => decide (b = .showing)

/-! Commit groups of the Quadrille and the signature unit (Table 1.6). -/

/-- Group `g` of 0, 1, 2 and 5 is applied, or rejected (R38, R145, R224). -/
def State.applyQdlGroup (g : Nat) (s : State) : State :=
  if !s.inFlight g then s else
  let all := fun (_ : Nat) => true
  let take := (s.takeGroup g all s.latched).endFlight g
  match g with
  | 0 => if fld (s.lat Reg.QDL_OUTCFG) 2 1 = 3 then take.raise0 stQDL 3 else take
  | 2 => if orderOk (s.lat Reg.QDL_PRIORD0) (s.lat Reg.QDL_PRIORD1) then take else (s.rejectGroup 2).raise0 stQDL 2
  | 5 =>
    let now := fun (a : Nat) => if groupOf a = some 5 then s.lat a else s.reg a
    if (List.range 16).all fun r => (regionFrom now r).keepFits (s.inPavane r) then (s.keepChanged take).judgeRegions true else s.rejectGroup 5
  | _ => take

/-- The Quadrille, the layers and the signature unit adopt their staged structure registers (R155): a changed type leaves its slot
without a valid bank (R121), and changed keep buffers are invalid (R224). -/
def State.adoptQdl (s : State) : State :=
  if !(s.stagedIn 4 || s.stagedIn 5 || s.stagedIn 8) then s else
  let t := s.adopt fun a => decide (blockOf a = 4) || decide (blockOf a = 5) || decide (blockOf a = 8)
  let t1 := (List.range 12).foldl (fun u n =>
    if s.reg (Reg.LAYn_TYPE n) ≠ u.reg (Reg.LAYn_TYPE n) then
      (u.setBit (Reg.LAYn_BANK n) 2 false).setLayer n emptyLayer
    else u) t
  let en := t1.f Reg.QDL_STRUCT 7 4
  let t2 := t1.setF Reg.QDL_LANE 3 0 (en &&& (15 ^^^ t1.f Reg.QDL_LANE 7 4))
  s.keepChanged t2

/-! Starting lines (R144). -/

/-- Lines from the wall-time beam to a line, blank lines counted. -/
def State.leadOf (s : State) (key : LineKey) : Int :=
  (((key.1 : Int) - s.beam.frame) * (s.subfm1 + 1) + key.2.1 - s.beam.pos.sf) * s.total + key.2.2 - s.beam.pos.line

/-- At line 0 of a sub-frame the raster registers take their base values (R145). -/
def State.loadBase (s : State) : State :=
  let s1 := ((s.setReg Reg.QDL_RLAYEN (s.reg Reg.QDL_LAYEN)).setReg Reg.QDL_RPRIORD0 (s.reg Reg.QDL_PRIORD0)).setReg
    Reg.QDL_RPRIORD1 (s.reg Reg.QDL_PRIORD1)
  (List.range 12).foldl (fun t n =>
    let b := t.front n
    (t.setReg (Reg.LAYn_RPOSX n) (t.reg (Reg.LAYn_Bb_POSX n b))).setReg (Reg.LAYn_RPOSY n) (t.reg (Reg.LAYn_Bb_POSY n b))) s1

/-- The flip point of frame `m` for slot `n` (R118, R119, R142, R143). -/
def State.flipPoint (m n : Nat) (s : State) : State :=
  let fen := Reg.LAYn_FENCE n
  let due := s.bit fen 0
  let late := s.bit fen 1
  let s1 := if due then (s.flip m n).2 else s
  let plane := s1.streamed n
  let s2 := if plane && s1.bit fen 2 then s1.planeFlip m n else if plane && !late then s1.planeStale m n else s1
  let open_ := late && (if plane then !s1.bit fen 2 else !due)
  let l := s2.layer n
  s2.setLayer n { l with lateOpen := if open_ then l.lateOpen ++ [m] else l.lateOpen, lateGone := none }

/-- Line 0 of a sub-frame is about to be started: at sub-frame 0 the groups and structures are adopted and the flips made. -/
def State.openFrame (f sf : Nat) (s : State) : State :=
  let before := rasterRegs.map fun a => (a, s.reg a)
  match s.frameOf f sf with
  | some q =>
    let t := (s.withFrame q).loadBase
    let s1 := rasterRegs.foldl (fun u a => u.setReg a (t.reg a)) s
    { s1 with qdl := { s1.qdl with frames := s1.qdl.frames.map fun x => if x = q then { x with before := before } else x } }
  | none =>
    let s1 := if sf = 0 then
        let a := s.adoptQdl
        let b := [0, 1, 2, 5].foldl (fun t g => t.applyQdlGroup g) a
        let c := (List.range 12).foldl (fun t n => t.flipPoint f n) b
        let d := c.setBit Reg.SIG_PAVSTAT 16 c.sectWanted
        ((List.range 12).foldl (fun t n => t.readSlotSprites f n) d).limitSprites f
      else s
    let s2 := s1.loadBase
    let q : QFrame := { frame := f, sf := sf, regs := s2.snapshot, shows := s2.showsNow,
                        sprites := (List.range 12).map fun n => (s2.layer n).sprites, before := before,
                        sect := s2.bit Reg.SIG_PAVSTAT 16 }
    ({ s2 with qdl := { s2.qdl with frames := s2.qdl.frames ++ [q] } } : State).startChecks q

/-- A line's ring slot is still needed by the panel ports, the signature unit or the monitor (R139, R222). -/
def State.slotHeld (l : QLine) (s : State) : Bool :=
  match s.frameOf l.frame l.sf with
  | none => false
  | some q =>
    let head := s.head.map (fun h => (h.frame, h.sf)) = some (q.frame, q.sf)
    !(l.confirmed && head && s.delivered q l.line && s.signatureRead q l.line && l.monDone && !s.lineGuarded q l.line)

/-- `LINE_START`: the next line is started once lead, commit mark, ring slot and raster log allow it (R36, R139, R144). -/
def execLineStart (s : State) : Res :=
  if s.frozen then .next s else
  let f := s.qdl.frame
  let sf := s.qdl.sf
  let y := s.qdl.next
  let key : LineKey := (f, sf, y)
  let marked := decide (f = 0) || (match s.qdl.mark with | some m => decide (f ≤ m + 1) | none => false)
  if !(s.bit Reg.QDL_CTRL 0 && s.qdl.active && s.running && marked) || decide (64 < s.leadOf key) || decide (s.lines ≤ y) then .next s
  else
    let t := if y = 0 then s.openFrame f sf else s
    match t.frameOf f sf with
    | none => .next s
    | some q =>
      let slots := q.f Reg.QDL_CLLINES 8 0
      let base := (q.reg Reg.QDL_CLBASE).toNat
      let ring := (base, slots, q.stride)
      let slot := if y = 0 ∧ t.qdl.ringKey ≠ ring then 0 else if slots = 0 then 0 else t.qdl.ringNext % slots
      let addr := base + slot * q.stride
      let busy := t.qdl.lines.any fun l => decide (l.addr = addr) && t.slotHeld l
      let room := t.qdl.log.length + (t.qdl.queue.filter fun w => keyLe (t.effect w) key).length
      if busy || decide (512 < room) then .next s else
      let l : QLine := { frame := f, sf := sf, line := y, slot := slot, addr := addr, composed := false, confirmed := false,
                         ringErr := none, scene := [], monDone := false }
      let t1 := t.applyLine key
      let (nf, nsf) := t.nextSub f sf
      let last := decide (s.lines ≤ y + 1)
      .next { t1 with qdl := { t1.qdl with lines := t1.qdl.lines ++ [l], ringNext := slot + 1, ringKey := ring,
                                           frame := if last then nf else f, sf := if last then nsf else sf,
                                           next := if last then 0 else y + 1 } }

/-! Composition (R122, R139, R528). -/

/-- The spans of a line's bytes are written to its ring slot, each through the port of the lane that composes it (R528); the lane of the first
write that failed. -/
def State.writeRing (lane : Nat → Nat) (addr : Nat) (bs : List Byte) (s : State) : Option Nat × State :=
  (List.range ((bs.length + 383) / 384)).foldl (fun (acc : Option Nat × State) j =>
    let part := (bs.drop (384 * j)).take 384
    let (c, t) := acc.2.sramWriteBytes (lane (64 * j)) (addr + 384 * j) part
    (if c = 0 then acc.1 else acc.1 <|> some (lane (64 * j)), t)) (none, s)

/-- `LINE_COMPOSED`: the oldest line in composition is complete: its pixels are found with the values of its frame and line,
and its data is in its ring slot. -/
def execLineComposed (s : State) : Res :=
  if s.frozen then .next s else
  match s.qdl.lines.find? (fun l => !l.composed) with
  | none => .next s
  | some l =>
    match s.frameOf l.frame l.sf with
    | none => .next s
    | some q =>
      let view := (s.undoFrom (l.frame, l.sf, l.line + 1)).withFrame q
      let (bs, scene, fx) := view.lineData l.frame l.sf l.line
      let s1 := s.applyTouch fx
      let s2 := fx.flags.eraseDups.foldl (fun t e =>
        if e.1 < 12 then t.raiseOnce l.frame e.1 e.2 (stLAYE e.1) (wd e.1) else t.raiseOnce l.frame 12 e.2 stQDL 0) s1
      let (bad, s3) := s2.writeRing view.laneOf l.addr bs
      let s4 := if bad.isSome then s3.raiseOnce l.frame 12 1 stQDL 0 else s3
      .next (s4.mapLines fun x => if x.key = l.key then { x with composed := true, scene := scene, ringErr := bad } else x)

/-! Fences (R142, R143). -/

/-- A late flip of slot `n` in frame `m`: taken at once, as a raster write at 0:0 of the frame (R143). Every frame from `m` on shows it. -/
def State.lateFlip (m n : Nat) (plane : Bool) (s : State) : State :=
  let (ok, s1) := if plane then (true, s.planeFlip m n) else s.flip m n
  if !ok then s1 else
  let s2 := s1.raise (stLAYF n) 1 (wd n) 0 0
  let s3 := if plane then s2 else s2.readSlotSprites m n
  let bank := s3.reg (Reg.LAYn_BANK n)
  let tab := (s3.layer n).sprites
  let upd := fun (q : QFrame) =>
    if q.frame < m then q
    else
      let shows := q.shows.set n (match s3.showsNow[n]? with | some o => o | none => none)
      if plane then { q with shows := shows }
      else { q with regs := Sparse.set RegMap.resetOf q.regs (Reg.LAYn_BANK n) bank, shows := shows,
                    sprites := (limitTables (q.sprites.set n tab)).2 }
  let beyond := if plane then none else (s3.qdl.frames.find? fun q => decide (q.frame = m)).bind fun q => (limitTables (q.sprites.set n tab)).1
  let s4 := match beyond with
    | some k => s3.raiseOnce m k 4 (stLAYE k) (wd k)
    | none => s3
  let s5 := if plane then s4 else s4.limitSprites m
  let s6 := { s5 with qdl := { s5.qdl with frames := s5.qdl.frames.map upd } }
  s6.squash (m, 0, 0)

/-- The fence of slot `n` is signalled, by a register write or by a completion (R142). Where the late fences of two frames are open, one signal
resolves both, with a flip in the earlier (DESIGN CHOICE, log 102). -/
def State.signalFence (n : Nat) (s : State) : State :=
  let fen := Reg.LAYn_FENCE n
  let l := s.layer n
  if s.bit fen 0 then s
  else match l.lateOpen with
    | m :: _ =>
      if s.streamed n then s.setBit fen 0 true
      else (s.setLayer n { l with lateOpen := [] }).lateFlip m n false
    | [] =>
      let s1 := s.setBit fen 0 true
      if l.lateGone.isSome && !s.streamed n then s1.raise (stLAYF n) 2 (wd n) 0 0 else s1

/-- `LATE_FENCE_DEADLINE`: the beam reaches LAYn_FDL in sub-frame 0 of its frame: a late fence still open for that frame, or an earlier one, is
resolved without a flip. -/
def execLateFenceDeadline (slot : Fin 12) (s : State) : Res :=
  if s.frozen then .next s else
  let n := slot.val
  let l := s.layer n
  let (past, later) := l.lateOpen.partition fun m => decide (m ≤ s.beam.frame)
  match past with
  | [] => .next s
  | m :: _ =>
    let s1 := s.setLayer n { l with lateOpen := later, lateGone := some m }
    .next (s1.planeStale m n)

/-! Streamed planes (R118). -/

/-- A plane is counted as dropped. -/
def State.dropPlane (n : Nat) (s : State) : State := s.count (Reg.LAYn_DROPS n) 15 0

/-- Bytes of one line of a streamed plane: PW pixels rounded up to 16 bytes (R280). -/
def State.rowBytes (s : State) (n : Nat) : Nat :=
  let (bpp, _) := planeFormat (fld (s.bankCtrl n (s.front n)) 8 5)
  (s.f (Reg.LAYn_Bb_SIZE1 n (s.front n)) 12 0 * bpp / 8 + 15) / 16 * 16

/-- The first line of a new plane has arrived: the plane takes a buffer, or none (R118). -/
def State.newPlane (n tag : Nat) (s : State) : State :=
  let l := s.layer n
  let filling := l.bufs.any fun b => decide (b = .filling)
  let s1 := if filling then s.dropPlane n else s
  let bufs := l.bufs.map fun b => if b = .filling then PlaneBuf.free else b
  let size := s.f (Reg.LAYn_Bb_SIZE1 n (s.front n)) 28 16 * s.rowBytes n
  match bufs.findIdx? (fun b => decide (b = .free)) with
  | some i => s1.setLayer n { l with bufs := bufs.set i .filling, fillTag := some tag, fillLeft := size, lastTag := some tag }
  | none =>
    match bufs.findIdx? (fun b => decide (b = .ready)) with
    | some i => ((s1.dropPlane n).setLayer n { l with bufs := bufs.set i .filling, fillTag := some tag, fillLeft := size, lastTag := some tag }).setBit
        (Reg.LAYn_FENCE n) 2 false
    | none => (s1.dropPlane n).setLayer n { l with bufs := bufs, fillTag := some tag, fillLeft := 0, lastTag := some tag }

/-- The buffer being filled: its index. -/
def State.fillingBuf (s : State) (n : Nat) : Option Nat := (s.layer n).bufs.findIdx? fun b => decide (b = .filling)

/-- The base address of buffer `i` of a streamed slot. -/
def State.bufAddr (s : State) (n i : Nat) : Nat :=
  let b := s.front n
  (s.reg (Reg.LAYn_Bb_BASE0 n b)).toNat + i * s.f (Reg.LAYn_Bb_SIZE1 n b) 28 16 * s.f (Reg.LAYn_Bb_STRIDE n b) 15 0

/-- Every line of the filling plane has been made: its buffer is ready and a plane flip pending; with the late fence open, the
flip is made at once (R118, R143). The plane-complete event is the caller's. -/
def State.planeDone (n : Nat) (s : State) : State :=
  let l := s.layer n
  let older := l.bufs.any fun b => decide (b = .ready)
  let s1 := if older then s.dropPlane n else s
  let bufs := l.bufs.map fun b => match b with
    | .ready => PlaneBuf.free
    | .filling => PlaneBuf.ready
    | x => x
  let s2 := (s1.setLayer n { l with bufs := bufs, fillTag := none, fillLeft := 0 }).setBit (Reg.LAYn_FENCE n) 2 true
  match l.lateOpen with
  | m :: _ => (s2.setLayer n { s2.layer n with lateOpen := [] }).lateFlip m n true
  | [] => if l.lateGone.isSome then s2.raise (stLAYF n) 2 (wd n) 0 0 else s2

/-! Lane checks (R503). -/

/-- A lane is retired: its spans pass to the others. -/
def State.retireLane (l : Nat) (s : State) : State :=
  ((s.setBit Reg.QDL_LANE (4 + l) true).setBit Reg.QDL_LANE l false).raise stQDL 4 (wd l) 0 0

/-- `LANE_CHECK_ERROR`: the span is discarded, its line squashed, and the error counted; the count that reaches THR within its
window retires the lane. -/
def execLaneCheckError (lane : Fin 4) (s : State) : Res :=
  if s.frozen then .next s else
  let l := lane.val
  let s1 := match s.qdl.lines.find? (fun x => !x.composed) with
    | some x => s.squash x.key
    | none => s
  let old := s1.f Reg.QDL_LANEERR (8 * l + 7) (8 * l)
  let s2 := s1.count Reg.QDL_LANEERR (8 * l + 7) (8 * l)
  let thr := s2.f Reg.QDL_LANEPOL 7 0
  if thr ≠ 0 ∧ s2.f Reg.QDL_LANEPOL 31 16 ≠ 0 ∧ old + 1 = thr ∧ !s2.bit Reg.QDL_LANE (4 + l) then .next (s2.retireLane l)
  else .next s2

/-- `LANE_ERROR_WINDOW_END`: a new window starts with every count zero (R505). -/
def execLaneErrorWindowEnd (s : State) : Res :=
  if s.frozen then .next s else
  .next (s.setReg Reg.QDL_LANEERR 0)

/-- A write of QDL_LANEPOL starts a new window with the values written (R76, R503). -/
def State.writeLanepol (v : Word) (s : State) : State := (s.writeCoded Reg.QDL_LANEPOL v).setReg Reg.QDL_LANEERR 0

/-! The end of a frame (R141, R150, R151). -/

/-- Frame `q` is swapped, held or discarded: its lines and slots go, and what it kept in use is freed (R118, R139, R141). Palette writes of it
that a squash has undone persist: they wait in the raster queue for the next line (R145, R147). -/
def State.endFrame (q : QFrame) (s : State) : State :=
  let gone := fun (u : Option Nat) => match u with
    | some m => decide (m < q.frame) || (decide (m = q.frame) && decide (s.subfm1 ≤ q.sf))
    | none => false
  let s1 := { s with qdl := { s.qdl with
    frames := s.qdl.frames.filter (fun p => decide ((p.frame, p.sf) ≠ (q.frame, q.sf))),
    lines := s.qdl.lines.filter (fun l => decide ((l.frame, l.sf) ≠ (q.frame, q.sf))),
    queue := (s.qdl.log.filter fun e => decide ((e.frame, e.sf) = (q.frame, q.sf)) && !e.applied && isPalette e.w.target).map (·.w)
      ++ s.qdl.queue,
    log := s.qdl.log.filter (fun e => decide ((e.frame, e.sf) ≠ (q.frame, q.sf))),
    seen := s.qdl.seen.filter (fun e => decide (q.frame ≤ e.1)), ended := some q } }
  (List.range 12).foldl (fun t n =>
    let l := t.layer n
    let t1 := if gone l.busyUntil then (t.setBit (Reg.LAYn_BANK n) 1 false).setLayer n { l with busyUntil := none } else t
    let l1 := t1.layer n
    if gone l1.bufsUntil then
      t1.setLayer n { l1 with bufsUntil := none, bufs := l1.bufs.map fun b => if b = .inUse then PlaneBuf.free else b }
    else t1) s1

/-- A frame that is discarded before it was wholly started: its next line is line 0 of the sub-frame after it. -/
def State.skipFrame (q : QFrame) (s : State) : State :=
  if (s.qdl.frame, s.qdl.sf) = (q.frame, q.sf) then
    let (f, sf) := s.nextSub q.frame q.sf
    { s with qdl := { s.qdl with frame := f, sf := sf, next := 0 } }
  else s

/-- The first line of the head frame that is not confirmed (QDL_CONF). -/
def State.firstUnconfirmed (s : State) : BPos :=
  match s.head with
  | some q =>
    match (List.range s.lines).find? (fun y => match s.qline q.frame q.sf y with | some l => !l.confirmed | none => true) with
    | some y => ⟨q.sf, y, 0⟩
    | none => let n := s.nextSub q.frame q.sf; ⟨n.2, 0, 0⟩
  | none => ⟨s.qdl.sf, s.qdl.next, 0⟩

end Sys2Proof.Machine
end

