-- ==== Sys2Proof/Machine/Minuet.lean ====
section
/-! DEFINITION. The Minuet beam engines: frames, beam words, waits, writes, faults and the beam store (R157 to R184). -/

namespace Sys2Proof.Machine

/-! Instants. -/

/-! Engine state. -/

def State.eng (s : State) (e : Nat) : EngSt := match s.mnt.engines[e]? with | some x => x | none => emptyEngine

def State.setEng (e : Nat) (x : EngSt) (s : State) : State := { s with mnt := { s.mnt with engines := s.mnt.engines.set e x } }

/-- MNT_ENGe_STAT.STATE (Table 6.15). -/
def State.engState (s : State) (e : Nat) : Nat := s.f (Reg.MNT_ENGe_STAT e) 2 0

def State.setEngState (e st : Nat) (s : State) : State := s.setF (Reg.MNT_ENGe_STAT e) 2 0 st

def State.engPc (s : State) (e : Nat) : Nat := s.f (Reg.MNT_ENGe_PC e) 14 0
def State.setEngPc (e pc : Nat) (s : State) : State := s.setReg (Reg.MNT_ENGe_PC e) (wd pc)
def State.mreg (s : State) (e r : Nat) : Word := s.reg (Reg.MNT_ENGe_Mr e r)
def State.setMreg (e r : Nat) (v : Word) (s : State) : State := s.setReg (Reg.MNT_ENGe_Mr e r) v

/-- The call stack, with its depth shown (0 to 7; 7 when full at 8). -/
def State.setStack (e : Nat) (l : List Nat) (s : State) : State :=
  (s.setEng e { s.eng e with stack := l }).setF (Reg.MNT_ENGe_STAT e) 13 11 (min 7 l.length)

def State.setStage (e : Nat) (g : Stage) (s : State) : State := s.setEng e { s.eng e with stage := g }

/-- MNT_STAT bit `bit` is set by engine `e`: its event gives the engine, its FCODE and its PC (R446, Table 18.4). -/
def State.mntRaise (e bit : Nat) (s : State) : State :=
  s.raise stMNT bit (wd e) (wd (s.f (Reg.MNT_ENGe_STAT e) 7 4)) (wd (s.engPc e))

/-- An engine fault (R179, Table 6.10): MNT_STAT.FAULT, the engine fault event 0x0C8 and the engine's interrupt. -/
def State.engFault (e code : Nat) (s : State) : State :=
  let st := Reg.MNT_ENGe_STAT e
  let s1 := ((s.setStage e .ready).setReg st (putBit (setFld (setFld (s.reg st) 2 0 5) 7 4 code) 10 true))
  ((s1.mntRaise e 4).logEvent 0xC8 (wd e) (s1.reg st) (wd code) (wd (s1.engPc e))).arrive (112 + e)

/-- The engine has ended its frame. -/
def State.engEnd (e : Nat) (s : State) : State := (s.setStage e .ready).setEngState e 4

/-- The last frame whose commit mark has passed is at least `n`. -/
def State.marked (s : State) (n : Nat) : Bool := match s.qdl.mark with | some m => decide (n ≤ m) | none => false

/-- Engine `e` starts, or stays off in, frame `n` with the values of MNTCTL in force (R158). -/
def State.engStart (e n : Nat) (s1 : State) : State :=
  let v1 := match s1.img.staged.find? (fun x => decide (x.1 = Reg.MNT_V1MAP)) with
    | some x => x.2
    | none => s1.reg Reg.MNT_V1MAP
  let s2 := s1.setEng e { s1.eng e with frame := n, pos := ⟨0, 0, 0⟩, stage := .ready, v1map := v1 }
  if s2.bit (Reg.MNT_ENGe_CTRL e) 0 then
    let start := s2.f (Reg.MNT_ENGe_START e) 13 0
    let s3 := (s2.setEngPc e (if s2.bit (Reg.MNT_ENGe_CTRL e) 1 then 2 * start else start)).setStack e []
    let st := Reg.MNT_ENGe_STAT e
    (s3.setReg st (setFld (setFld (s3.reg st) 16 14 0) 2 0 1)).setReg (Reg.MNT_ENGe_WORDS e) 0
  else s2.setEngState e 0

/-- Engine `e` enters frame `n`: the in-flight values of MNTCTL for it are applied (R158). -/
def State.engEnter (e n : Nat) (s : State) : State :=
  let mine := fun (a : Nat) => decide (Reg.MNT_ENGe_CTRL e ≤ a) && decide (a ≤ Reg.MNT_ENGe_BUDGET e)
  (if s.inFlight 3 then s.takeGroup 3 mine s.latched else s).engStart e n

/-- Group MNTCTL is used up, and the v1 map adopted, once every engine not in FAULT has entered the frame after the mark; a
faulted engine's registers hold the new values for its next entry (R158). -/
def State.mntEntered (s : State) : State :=
  let m := match s.qdl.mark with | some m => m + 1 | none => 0
  if (List.range 8).all fun e => decide (s.engState e = 5) || decide (m ≤ (s.eng e).frame) then
    let s1 := if s.inFlight 3 then (s.takeGroup 3 (fun _ => true) s.latched).endFlight 3 else s
    s1.adopt fun a => decide (blockOf a = 6)
  else s

/-- Engine `e` enters its next frame if its mark has passed. -/
def State.engNext (e : Nat) (s : State) : State :=
  let n := (s.eng e).frame
  if s.marked n then (s.engEnter e (n + 1)).mntEntered else s

/-- `ENGINE_FRAME_ENTRY`: an engine that is off or has ended frame n enters frame n + 1 once frame n's commit mark has passed
(R158). -/
def execEngineFrameEntry (e : Fin 8) (s : State) : Res :=
  if s.frozen then .next s else
  if s.engState e.val = 0 ∨ s.engState e.val = 4 then .next (s.engNext e.val) else .next s

/-- `ENGINE_OVERRUN`: the wall-time beam reaches frame n + 1 with the engine still in frame n: the engine ends it and enters
frame n + 1 (R159). -/
def execEngineOverrun (e : Fin 8) (s : State) : Res :=
  if s.frozen then .next s else
  let st := s.engState e.val
  if (st = 1 ∨ st = 2 ∨ st = 3) ∧ (s.eng e.val).frame < s.beam.frame then
    let s1 := ((s.engEnd e.val).setBit (Reg.MNT_ENGe_STAT e.val) 8 true).mntRaise e.val 5
    .next (s1.engNext e.val)
  else .next s

/-! Conditions (R168 to R171). -/

/-- Input `c` is a real-time input (Table 6.6). -/
def realTime (c : Nat) : Bool := (decide (16 ≤ c) && decide (c ≤ 35)) || (decide (40 ≤ c) && decide (c ≤ 55))

/-- What condition input `c` reads for engine `e` (R169). -/
def State.condInput (s : State) (e c : Nat) : Bool :=
  let x := s.eng e
  let st := s.reg (Reg.MNT_ENGe_STAT e)
  if c = 0 then true
  else if c = 1 then bitAt st 14
  else if c = 2 then bitAt st 15
  else if c = 3 then decide (x.pos.line < s.lines)
  else if c = 4 then decide (x.pos.line % 2 = 1)
  else if c ≤ 8 then decide (x.pos.sf = c - 5)
  else if c = 9 then bitAt st 16
  else if 16 ≤ c ∧ c ≤ 31 then s.bit Reg.MNT_GFLAG (c - 16)
  else if c = 32 then s.mnt.fsync
  else if c = 33 then decide (s.lock = 2)
  else if c = 34 then decide (s.lock = 3)
  else if c = 35 then s.pavaneCond
  else if 40 ≤ c ∧ c ≤ 47 then bitAt x.evts (c - 40)
  else if 48 ≤ c ∧ c ≤ 55 then s.bit Reg.MNT_SFLAG (c - 48)
  else false

/-- The source coded `code` of Table 6.7 fires: every engine's copy of the events that name it is set (R171). -/
def State.fireEvent (code : Nat) (s : State) : State :=
  (List.range 8).foldl (fun t k =>
    if t.f (Reg.MNT_EVTSRCx (k / 4)) (8 * (k % 4) + 7) (8 * (k % 4)) = code then
      { t with mnt := { t.mnt with engines := t.mnt.engines.map fun x => { x with evts := putBit x.evts k true } } }
    else t) s

/-- A COND or CONDPOS wait ended by event input `c` clears the engine's copy (R171). -/
def State.useEvent (e c : Nat) (s : State) : State :=
  if 40 ≤ c ∧ c ≤ 47 then
    let x := s.eng e
    s.setEng e { x with evts := putBit x.evts (c - 40) false }
  else s

/-! Fields of a beam word (Table 6.1). -/

def bw (w hi lo : Nat) : Nat := w / 2 ^ lo % 2 ^ (hi + 1 - lo)

def bwCsel (w : Nat) : Nat := bw w 124 119
def bwPos (w : Nat) : BPos := posOf (wd (bw w 31 0))

/-- The word's condition: its input, inverted if CPOL is one. -/
def State.bwCond (s : State) (e w : Nat) : Bool := s.condInput e (bwCsel w) != w.testBit 118

/-! Issuing writes (R172 to R174). -/

/-- The register a timed write names, or none where it is no Minuet target (Table 6.5). -/
def timedTarget (space addr : Nat) : Option Nat :=
  match space with
  | 3 =>
    let off := 4 * (addr % 16384)
    if addr / 32768 = 0 then
      let a := 0x40090000 + off
      let kinds := [Reg.SND_KEYONx 0, Reg.SND_KEYONx 1, Reg.SND_KEYOFFx 0, Reg.SND_KEYOFFx 1, Reg.SND_NODEW]
      if kinds.contains a || (List.range 64).any (fun v => decide (a = Reg.SNDv_PITCH v)) then some a else none
    else if 0x400A0000 + off = Reg.OBJ_MUTE then some Reg.OBJ_MUTE else none
  | 4 =>
    let a := 0x40070000 + 4 * (addr % 16384)
    if [Reg.PNL_BLANK, Reg.PNL_CMDQ, Reg.PNL_CMDMASK].contains a then some a else none
  | 5 => some (Reg.MNT_MBOXk (addr % 16))
  | 6 => some Reg.MNT_GFLAG
  | _ => none

/-- The raster register or palette word a raster write names (Table 6.5). -/
def rasterTarget (space addr : Nat) : Option Nat :=
  match space with
  | 1 =>
    if addr = 0 then some Reg.QDL_RLAYEN
    else if addr = 1 then some Reg.QDL_RPRIORD0
    else if addr = 2 then some Reg.QDL_RPRIORD1
    else if 0x10 ≤ addr ∧ addr < 0x28 then
      let n := (addr - 0x10) / 2
      some (if addr % 2 = 0 then Reg.LAYn_RPOSX n else Reg.LAYn_RPOSY n)
    else none
  | 2 => if addr < 32768 then some (0x20000000 + 4 * addr) else none
  | _ => none

def State.issueRaster (e target : Nat) (v : Word) (s : State) : State :=
  let x := s.eng e
  let w : RasterW := { eng := e, seq := s.mnt.seq, frame := x.frame, sf := x.pos.sf, line := x.pos.line, dot := x.pos.dot,
                       target := target, value := v }
  { s with mnt := { s.mnt with issued := s.mnt.issued ++ [w], seq := s.mnt.seq + 1 } }

def State.issueTimed (e space addr : Nat) (v : Word) (s : State) : State :=
  let x := s.eng e
  let late := instLe (x.frame, x.pos) s.now && decide ((x.frame, x.pos) ≠ s.now)
  { s with mnt := { s.mnt with timed := s.mnt.timed ++ [⟨e, x.frame, x.pos, space, addr, v, late⟩] } }

/-- The engine's share of the raster queue, or of the timed queue, is full (R173). -/
def State.shareFull (s : State) (e space : Nat) : Bool :=
  if space ≤ 2 then
    decide (32 ≤ ((s.qdl.queue ++ s.mnt.issued).filter fun w => decide (w.eng = e)).length)
  else decide (8 ≤ (s.mnt.timed.filter fun w => decide (w.eng = e)).length)

/-! Executing a word (R162 to R168). -/

/-- The datapath result of operation `d` of Table 6.4, for the operations other than NOP and LD. -/
def datapath (d : Nat) (a b : Word) (pos : Word) : Word :=
  let sh := b.toNat % 32
  match d with
  | 1 => b
  | 2 => a + b
  | 3 => a - b
  | 4 => a &&& b
  | 5 => a ||| b
  | 6 => a ^^^ b
  | 7 => a <<< sh
  | 8 => a >>> sh
  | 9 => a.sshiftRight sh
  | 10 => if a.toInt ≤ b.toInt then a else b
  | 11 => if a.toInt ≤ b.toInt then b else a
  | 12 => a * b
  | _ => pos

/-- m[RD] takes a result, with Z and N. -/
def State.engResult (e w : Nat) (v : Word) (s : State) : State :=
  let st := Reg.MNT_ENGe_STAT e
  (s.setMreg e (bw w 96 94) v).setReg st (putBit (putBit (s.reg st) 14 (decide (v = 0))) 15 (bitAt v 31))

/-- Step 5: the next-address action, with the condition `c` where a wait or a sample has fixed it. -/
def State.engAct (e w : Nat) (c : Option Bool) (s : State) : State :=
  let pc := s.engPc e
  let target := bw w 114 101
  let seq := (pc + 1) % 16384
  let go := fun (n : Nat) => (s.setStage e .ready).setEngPc e n
  let run := fun (t : State) => t.setEngState e 1
  match bw w 117 115 with
  | 0 => run (go seq)
  | 1 => run (go target)
  | 2 =>
    let cond := match c with | some b => b | none => s.bwCond e w
    run (go (if cond then target else seq))
  | 3 =>
    let x := s.eng e
    if x.stack.length ≥ 8 then s.engFault e 3 else run ((go target).setStack e (seq :: x.stack))
  | 4 =>
    match (s.eng e).stack with
    | [] => s.engFault e 3
    | a :: rest => run ((go a).setStack e rest)
  | 5 => run (go ((target + fld (s.mreg e (bw w 93 91)) 5 0) % 16384))
  | 6 => s.engEnd e
  | _ => s.engFault e 1

/-- Step 4 and 5: the word is counted; a JCOND on a real-time input that no wait has sampled waits until the wall-time beam reaches
the engine position (R168). -/
def State.engCount (e w : Nat) (c : Option Bool) (s : State) : State :=
  let s1 := s.setF (Reg.MNT_ENGe_WORDS e) 23 0 (s.f (Reg.MNT_ENGe_WORDS e) 23 0 + 1)
  if bw w 117 115 = 2 ∧ c = none ∧ realTime (bwCsel w) = true then
    let x := s1.eng e
    if instLe (x.frame, x.pos) s1.now then s1.engAct e w (some (s1.bwCond e w))
    else (s1.setStage e (.sample w)).setEngState e 2
  else s1.engAct e w c

/-- Step 3: the register write, then the rest. A write of an engine whose queue share is full stalls (R173). -/
def State.engWrite (e w : Nat) (c : Option Bool) (s : State) : State :=
  let space := bw w 86 84
  let addr := bw w 83 68
  if space = 0 then s.engCount e w c
  else if space = 7 then s.engFault e 1
  else
    let v := if w.testBit 67 then wd (bw w 63 32) else s.mreg e (bw w 66 64)
    match rasterTarget space addr, timedTarget space addr with
    | none, none => (s.mntRaise e 0).engCount e w c
    | r, _ =>
      if s.shareFull e space then (s.setStage e (.stall w c)).setEngState e 3
      else match r with
        | some t => ((s.setEngState e 1).issueRaster e t v).engCount e w c
        | none => ((s.setEngState e 1).issueTimed e space addr v).engCount e w c

/-- Step 2: the datapath operation, then the rest; an LD waits for port MNT (R167). -/
def State.engData (e w : Nat) (c : Option Bool) (s : State) : State :=
  let d := bw w 100 97
  let a := s.mreg e (bw w 93 91)
  let b := if w.testBit 87 then wd (bw w 63 32) else s.mreg e (bw w 90 88)
  if d = 0 then s.engWrite e w c
  else if d = 15 then s.engFault e 1
  else if d = 13 then
    if (a + b).toNat % 4 ≠ 0 then s.engFault e 5
    else s.setStage e (.load w (a + b).toNat c)
  else (s.engResult e w (datapath d a b (posWord (s.eng e).pos))).engWrite e w c

/-- The engine position changes. -/
def State.engMove (e : Nat) (p : BPos) (s : State) : State := s.setEng e { s.eng e with pos := p }

/-- A position a wait names lies outside the geometry (R163). -/
def State.posBad (s : State) (p : BPos) : Bool := !s.inGeometry p.line p.dot || decide (s.subfm1 < p.sf)

/-- The wait ends the frame, with POSRANGE where a position was out of range (R163). -/
def State.engRange (e : Nat) (s : State) : State := (s.setBit (Reg.MNT_ENGe_STAT e) 9 true).engEnd e

def State.setTout (e : Nat) (b : Bool) (s : State) : State := s.setBit (Reg.MNT_ENGe_STAT e) 16 b

/-- A LINES wait by `n` lines to dot `d`, carrying into later sub-frames (R163); none where there is none left. -/
def State.linesOn (s : State) (p : BPos) (n d : Nat) : Option BPos :=
  let l := p.line + n
  let sf := p.sf + l / s.total
  if sf ≤ s.subfm1 then some ⟨sf, l % s.total, d⟩ else none

/-- Step 1: the wait, then the rest (Table 6.2). -/
def State.engWait (e w : Nat) (s : State) : State :=
  let x := s.eng e
  let p := x.pos
  let q := bwPos w
  let rt := realTime (bwCsel w)
  match bw w 127 125 with
  | 0 => s.engData e w none
  | 1 => if s.posBad q then s.engRange e else ((if posLt p q then s.engMove e q else s)).engData e w none
  | 2 =>
    if s.dots ≤ q.dot then s.engRange e else
    match s.linesOn p q.line q.dot with
    | some r => (if posLt p r then s.engMove e r else s).engData e w none
    | none => s.engEnd e
  | 3 =>
    if s.bwCond e w then
      let t := if rt then (s.engMove e (if x.frame = s.beam.frame ∧ posLt p s.beam.pos = true then s.beam.pos else p)).useEvent e (bwCsel w)
        else s
      t.engData e w (if rt then some true else none)
    else if rt then (s.setStage e (.cond w)).setEngState e 2 else s.engFault e 2
  | 4 =>
    if s.posBad q then s.engRange e
    else if s.bwCond e w then
      let t := if rt then (s.engMove e (if x.frame = s.beam.frame ∧ posLt p s.beam.pos = true then s.beam.pos else p)).useEvent e (bwCsel w)
        else s
      (t.setTout e false).engData e w (if rt then some true else none)
    else if !rt then ((if posLt p q then s.engMove e q else s).setTout e true).engData e w none
    else if instLe (x.frame, q) s.now then
      ((if posLt p q then s.engMove e q else s).setTout e true).engData e w (some false)
    else (s.setStage e (.cond w)).setEngState e 2
  | 5 => if instLe (x.frame, p) s.now then s.engData e w none else (s.setStage e (.sync w)).setEngState e 2
  | 6 => if p.sf < s.subfm1 then (s.engMove e ⟨p.sf + 1, 0, 0⟩).engData e w none else s.engEnd e
  | _ => s.engFault e 1

/-! The beam store (R180, R181). -/

/-- The beam word at address `i` for engine `e`, after its ECC check: none where it is uncorrectable. -/
def State.beamFetch (e i : Nat) (s : State) : Option Nat × State :=
  let k := beamStore + 16 * (i % 16384)
  match s.mark k with
  | .none => (some (s.le k 16), s)
  | .single => (some (s.le k 16), (s.count Reg.MNT_BSCE 15 0).mntRaise e 2)
  | .double => (none, s)

/-- The word that would exceed the frame's budget is not executed (R178). -/
def State.overBudget (s : State) (e : Nat) : Bool :=
  let b := s.f (Reg.MNT_ENGe_BUDGET e) 23 0
  decide (b ≠ 0) && decide (b ≤ s.f (Reg.MNT_ENGe_WORDS e) 23 0)

/-- The engine runs, is at the start of a word, and has the personality given. -/
def State.engReady (s : State) (e : Nat) (v1 : Bool) : Bool :=
  decide (s.engState e = 1) && decide ((s.eng e).stage = .ready) && (s.bit (Reg.MNT_ENGe_CTRL e) 1 == v1)

/-- `BEAM_WORD`: engine `e` executes the word at its PC. `u` is what has befallen the stored word. -/
def execBeamWord (e : Fin 8) (u : Upset) (s : State) : Res :=
  if s.frozen then .next s else
  let n := e.val
  if !s.engReady n false then .next s
  else if s.overBudget n then .next (s.engFault n 4)
  else
    match (s.upset (beamStore + 16 * (s.engPc n % 16384)) u).beamFetch n (s.engPc n) with
    | (some w, t) => .next (t.engWait n w)
    | (none, t) => .next (t.engFault n 7)

/-! v1 words (R182, R183). -/

/-- A v1 word ends by going to v1 address `pc`. -/
def State.v1Next (e pc : Nat) (s : State) : State :=
  (((s.setStage e .ready).setEngState e 1).setEngPc e (pc % 32768)).setF (Reg.MNT_ENGe_WORDS e) 23 0
    (s.f (Reg.MNT_ENGe_WORDS e) 23 0 + 1)

/-- A v1 raster write, or a stall where the share is full. -/
def State.v1Write (e w target : Nat) (v : Word) (s : State) : State :=
  if s.shareFull e 1 then (s.setStage e (.stall w none)).setEngState e 3
  else (s.issueRaster e target v).v1Next e (s.engPc e + 1)

/-- One v1 word (Table 6.11). SCRX and SCRY on a layer whose slot is 12 to 15 write nothing and set WTGT: the spec names no effect (DESIGN
CHOICE, log 105). -/
def State.v1Step (e w : Nat) (s : State) : State :=
  let a := bw w 59 56
  let b := bw w 55 32
  let v := wd (bw w 31 0)
  let x := s.eng e
  let p := x.pos
  let start := 2 * s.f (Reg.MNT_ENGe_START e) 13 0
  let next := s.engPc e + 1
  let slot := fld x.v1map (4 * a + 3) (4 * a)
  match bw w 63 60 with
  | 0 => s.v1Next e next
  | 1 =>
    let q : BPos := ⟨p.sf, b % 8192, 0⟩
    if s.posBad q then s.engRange e else (if posLt p q then s.engMove e q else s).v1Next e next
  | 2 =>
    match s.linesOn p (b % 8192) 0 with
    | some r => (if posLt p r then s.engMove e r else s).v1Next e next
    | none => s.engEnd e
  | 3 =>
    if s.bit Reg.MNT_GFLAG a then
      (s.engMove e (if x.frame = s.beam.frame ∧ posLt p s.beam.pos = true then s.beam.pos else p)).v1Next e next
    else (s.setStage e (.cond w)).setEngState e 2
  | 4 => if a > 3 then s.engFault e 1 else if slot < 12 then s.v1Write e w (Reg.LAYn_RPOSX slot) v
    else (s.mntRaise e 0).v1Next e next
  | 5 => if a > 3 then s.engFault e 1 else if slot < 12 then s.v1Write e w (Reg.LAYn_RPOSY slot) v
    else (s.mntRaise e 0).v1Next e next
  | 6 => s.v1Write e w (0x20000000 + 4 * (b % 32768)) v
  | 7 => s.v1Write e w priTarget (wd (fld v 15 0 + fld x.v1map 15 0 * 65536))
  | 8 => s.v1Next e (b % 32768 + start)
  | 9 => (s.v1Next e next).engEnd e
  | 10 =>
    if a > 3 then s.engFault e 1 else
    let c := s.mreg e a - 1
    (s.setMreg e a c).v1Next e (if c = 0 then next else b % 32768 + start)
  | 11 => if a > 3 then s.engFault e 1 else (s.setMreg e a v).v1Next e next
  | _ => s.engFault e 1

/-- `BEAM_WORD_V1`: a v1 engine executes the v1 word at its PC. -/
def execBeamWordV1 (e : Fin 8) (u : Upset) (s : State) : Res :=
  if s.frozen then .next s else
  let n := e.val
  let pc := s.engPc n
  if !s.engReady n true then .next s
  else if s.overBudget n then .next (s.engFault n 4)
  else
    match (s.upset (beamStore + 16 * (pc / 2 % 16384)) u).beamFetch n (pc / 2) with
    | (some w, t) => .next (t.v1Step n (w / 2 ^ (64 * (pc % 2)) % 2 ^ 64))
    | (none, t) => .next (t.engFault n 7)

/-! The ends of waits. -/

/-- `REALTIME_WAIT_END`: with the wall-time beam at `pos`, a wait on a real-time input ends: by its condition, or by its position,
the condition winning (R165); or a JCOND sample is taken (R168). -/
def execRealtimeWaitEnd (e : Fin 8) (pos : BPos) (s0 : State) : Res :=
  if s0.frozen then .next s0 else
  let n := e.val
  let s := s0.beamAt pos
  let x := s.eng n
  let later := if x.frame = s.beam.frame ∧ posLt x.pos s.beam.pos = true then s.beam.pos else x.pos
  match x.stage with
  | .cond w =>
    let run := (s.setStage n .ready).setEngState n 1
    if s.bit (Reg.MNT_ENGe_CTRL n) 1 then
      if s.bit Reg.MNT_GFLAG (bw w 59 56) then .next ((run.engMove n later).v1Next n (s.engPc n + 1)) else .next s
    else if s.bwCond n w then
      let t := (run.engMove n later).useEvent n (bwCsel w)
      .next ((if bw w 127 125 = 4 then t.setTout n false else t).engData n w (some true))
    else if bw w 127 125 = 4 ∧ instLe (x.frame, bwPos w) s.now = true then
      .next (((if posLt x.pos (bwPos w) then run.engMove n (bwPos w) else run).setTout n true).engData n w (some false))
    else .next s
  | .sample w =>
    if instLe (x.frame, x.pos) s.now then .next (s.engAct n w (some (s.bwCond n w))) else .next s
  | _ => .next s

/-- `SYNC_WAIT_END`: the wall-time beam has reached the engine position. -/
def execSyncWaitEnd (e : Fin 8) (pos : BPos) (s0 : State) : Res :=
  if s0.frozen then .next s0 else
  let s := s0.beamAt pos
  let x := s.eng e.val
  match x.stage with
  | .sync w =>
    if instLe (x.frame, x.pos) s.now then .next (((s.setStage e.val .ready).setEngState e.val 1).engData e.val w none) else .next s
  | _ => .next s

/-- `LD_RETURN`: port MNT answers the engine's LD (R167). -/
def execLdReturn (e : Fin 8) (s : State) : Res :=
  if s.frozen then .next s else
  match (s.eng e.val).stage with
  | .load w addr c =>
    let (code, bs, t) := s.portRead 13 addr 4
    if code ≠ 0 then .next (t.engFault e.val 6)
    else .next (((t.setStage e.val .ready).engResult e.val w (leWord bs)).engWrite e.val w c)
  | _ => .next s

/-- An engine whose LD of `addr` has no answer gets TIMEOUT: the fault of an error response (R90, R167). -/
def State.engTimeout (addr : Nat) (s : State) : State :=
  match (List.range 8).find? fun e => match (s.eng e).stage with | .load _ a _ => decide (a = addr) | _ => false with
  | some e => s.engFault e 6
  | none => s

/-- `QUEUE_STALL_END`: an entry of the engine's share has been freed. -/
def execQueueStallEnd (e : Fin 8) (s : State) : Res :=
  if s.frozen then .next s else
  match (s.eng e.val).stage with
  | .stall w c =>
    let run := (s.setStage e.val .ready).setEngState e.val 1
    if s.bit (Reg.MNT_ENGe_CTRL e.val) 1 then
      if s.shareFull e.val 1 then .next s else .next (run.v1Step e.val w)
    else if s.shareFull e.val (bw w 86 84) then .next s
    else .next (run.engWrite e.val w c)
  | _ => .next s

/-! Horizons (R148, R160). -/

/-- The engine counts for confirmation (R160). -/
def State.engEnabled (s : State) (e : Nat) : Bool := decide (s.engState e ≠ 0) && decide (s.engState e ≠ 5)

/-- The engine's horizon: the earliest position its next raster write can carry. -/
def State.horizon (s : State) (e : Nat) : Instant :=
  let x := s.eng e
  match s.mnt.issued.find? (fun w => decide (w.eng = e)) with
  | some w => (w.frame, ⟨w.sf, w.line, w.dot⟩)
  | none =>
    match s.engState e with
    | 4 => (x.frame + 1, ⟨0, 0, 0⟩)
    | 2 => instMax (x.frame, x.pos) s.now
    | _ => (x.frame, x.pos)

/-! Faults, flags and the beam store. -/

/-- A write of one to MNT_ENGe_STAT.FAULT: the engine is off until the next frame's entry (R179). -/
def State.engFaultClear (e : Nat) (s : State) : State :=
  if s.engState e = 5 then
    let st := Reg.MNT_ENGe_STAT e
    let n := match s.qdl.mark with | some m => m + 1 | none => 0
    (s.setReg st (putBit (setFld (setFld (s.reg st) 7 4 0) 2 0 0) 10 false)).setEng e { s.eng e with frame := n, stage := .ready }
  else s.setBit (Reg.MNT_ENGe_STAT e) 10 false

/-- Gavotte flags set, or cleared (R170); MNT_GFLAG holds them. -/
def State.gflagSet (v : Word) (s : State) : State := s.setReg Reg.MNT_GFLAG (s.reg Reg.MNT_GFLAG ||| (v &&& 0xFFFF))
def State.gflagClear (v : Word) (s : State) : State := s.setReg Reg.MNT_GFLAG (s.reg Reg.MNT_GFLAG &&& ~~~v)

/-- `BEAM_STORE_SCRUB`: the scrubber reads its next word and writes a corrected word back, except in DOZE and deeper (R181, R405). -/
def execBeamStoreScrub (u : Upset) (s : State) : Res :=
  if s.frozen || decide (2 ≤ s.pwr.state) then .next s else
  let i := s.mnt.scrub
  let k := beamStore + 16 * i
  let s1 := { s with mnt := { s.mnt with scrub := (i + 1) % 16384 } }
  let s2 := s1.upset k u
  match s2.mark k with
  | .none => .next s2
  | .single => .next (((s2.setMark k .none).count Reg.MNT_BSCE 15 0).raise0 stMNT 2)
  | .double => .next (s2.raise0 stMNT 3)

end Sys2Proof.Machine
end

