-- ==== Sys2Proof/Machine/Voice.lean ====
section
/-! DEFINITION. The voices of the Sarabande: formats, position, interpolation, envelope and fetches (R233 to R240). -/

namespace Sys2Proof.Machine

def State.voice (s : State) (v : Nat) : VoiceSt := match s.snd.voices[v]? with | some x => x | none => emptyVoice

def State.setVoice (v : Nat) (x : VoiceSt) (s : State) : State := { s with snd := { s.snd with voices := s.snd.voices.set v x } }

/-- SNDv_STAT.STATE, as Table 9.2 numbers it: 0 OFF, 1 ATTACK, 2 DECAY, 3 SUSTAIN, 4 RELEASE. -/
def State.voiceState (s : State) (v : Nat) : Nat := s.f (Reg.SNDv_STAT v) 2 0
def State.setVoiceState (v st : Nat) (s : State) : State := s.setF (Reg.SNDv_STAT v) 2 0 st
def State.env (s : State) (v : Nat) : Nat := s.f (Reg.SNDv_STAT v) 31 16
def State.setEnv (v e : Nat) (s : State) : State := s.setF (Reg.SNDv_STAT v) 31 16 e

/-- A status bit of SND_STAT that is set once in each block of 16 samples for a channel (R526). -/
def State.sndOnce (bit chan : Nat) (s : State) : State :=
  if s.snd.seen.contains (bit, chan) then s
  else ({ s with snd := { s.snd with seen := (bit, chan) :: s.snd.seen } } : State).raise0 stSND bit

/-- A voice ends (R238). -/
def State.voiceEnd (v : Nat) (s : State) : State :=
  let s1 := (s.setVoiceState v 0).setEnv v 0
  ((s1.setBit (Reg.SND_VACTx (v / 32)) (v % 32) false).setBit (Reg.SND_VENDx (v / 32)) (v % 32) true).arrive 123

/-- Whether a key-on of voice `v` is refused (R235). -/
def State.keyOnBad (s : State) (v : Nat) : Bool :=
  let fmt := s.f (Reg.SNDv_CTRL v) 1 0
  let loop := s.f (Reg.SNDv_CTRL v) 3 2
  let ls := s.f (Reg.SNDv_LOOPS v) 23 0
  let le := s.f (Reg.SNDv_LOOPE v) 23 0
  let len := s.f (Reg.SNDv_LEN v) 23 0
  decide (fmt = 3) || decide (loop = 3) || decide ((s.reg (Reg.SNDv_START v)).toNat % 16 ≠ 0) ||
    (decide (loop ≠ 0) && (decide (le ≤ ls) || decide (len < le))) ||
    (decide (fmt = 2) && decide (loop ≠ 0) && (decide (ls % 24 ≠ 0) || decide (le % 24 ≠ 0)))

/-- A key-on (R235). -/
def State.keyOn (v : Nat) (s : State) : State :=
  if s.keyOnBad v then (s.setBit (Reg.SNDv_STAT v) 4 true).raise0 stSND 2
  else
    let len := s.f (Reg.SNDv_LEN v) 23 0
    let x : VoiceSt := { fmt := s.f (Reg.SNDv_CTRL v) 1 0, start := (s.reg (Reg.SNDv_START v)).toNat, len := len,
                         loops := s.f (Reg.SNDv_LOOPS v) 23 0, loope := s.f (Reg.SNDv_LOOPE v) 23 0, keyedOff := false, pos := 0,
                         last := (s.voice v).last, words := [], dec := [] }
    let st := wd (1 + s.env v * 65536)
    let s1 := ((s.setVoice v x).setReg (Reg.SNDv_STAT v) st).setReg (Reg.SNDv_POS v) 0
    let s2 := s1.setBit (Reg.SND_VACTx (v / 32)) (v % 32) true
    if len = 0 then s2.voiceEnd v else s2

/-- A key-off (R235). -/
def State.keyOff (v : Nat) (s : State) : State :=
  let st := s.voiceState v
  if 1 ≤ st ∧ st ≤ 3 then (s.setVoice v { s.voice v with keyedOff := true }).setVoiceState v 4 else s

/-- The loop is active (R236); a loop without length is not (log 21). -/
def State.loopActive (s : State) (v : Nat) : Bool :=
  let x := s.voice v
  let loop := s.f (Reg.SNDv_CTRL v) 3 2
  (decide (loop = 1) || (decide (loop = 2) && !x.keyedOff)) && decide (x.loops < x.loope)

/-- The source index that an index reads: none where it reads zero (R237). -/
def VoiceSt.index (x : VoiceSt) (loop : Bool) (n : Int) : Option Nat :=
  if n < 0 then some 0
  else
    let m := n.toNat
    if loop then some (if x.loope ≤ m then x.loops + (m - x.loops) % (x.loope - x.loops) else m)
    else if x.len ≤ m then none else some m

/-- The index played after `n`: none at the end of the data. -/
def VoiceSt.succ (x : VoiceSt) (loop : Bool) (n : Nat) : Option Nat :=
  if loop && decide (x.loope ≤ n + 1) then some x.loops
  else if !loop && decide (x.len ≤ n + 1) then none else some (n + 1)

def VoiceSt.playFrom (x : VoiceSt) (loop : Bool) : Nat → Option Nat → List Nat
  | 0, _ => []
  | _, none => []
  | k + 1, some n => n :: VoiceSt.playFrom x loop k (x.succ loop n)

/-- The address of the word that holds a sample (Table 9.1, R234). -/
def VoiceSt.wordOf (x : VoiceSt) (n : Nat) : Nat :=
  match x.fmt with
  | 0 => (x.start + n) / 16 * 16
  | 1 => (x.start + 2 * n) / 16 * 16
  | _ => x.start + 16 * (n / 24)

/-- The first index whose word is still needed: for ADPCM the next one to decode. -/
def VoiceSt.first (x : VoiceSt) (loop : Bool) : List Nat :=
  let i := x.pos / 65536
  if x.fmt = 2 then
    match x.dec with
    | [] => x.playFrom loop 128 (if x.len = 0 then none else some 0)
    | e :: _ => x.playFrom loop 128 (x.succ loop e.n)
  else
    (match x.index loop ((i : Int) - 1) with | some n => [n] | none => []) ++ x.playFrom loop 128 (x.index loop i)

/-- The words a voice holds or fetches: the one its next sample needs and four ahead of it, in the order it plays them (R240). -/
def VoiceSt.needed (x : VoiceSt) (loop : Bool) : List Nat := (((x.first loop).map x.wordOf).eraseDups).take 5

def VoiceSt.word? (x : VoiceSt) (a : Nat) : Option Nat := (x.words.find? fun e => decide (e.1 = a)).map (·.2)

/-- A PCM sample from the words held (Table 9.1). -/
def VoiceSt.pcm (x : VoiceSt) (n : Nat) : Option Int :=
  (x.word? (x.wordOf n)).map fun w =>
    if x.fmt = 0 then sext 8 (w / 256 ^ ((x.start + n) % 16)) * 256 else sext 16 (w / 256 ^ ((x.start + 2 * n) % 16))

/-- The 89-entry step-size table of IMA ADPCM, which R234 names (PRESUMED: the standard's values, log 22). -/
def stepTable : List Nat :=
  [7, 8, 9, 10, 11, 12, 13, 14, 16, 17, 19, 21, 23, 25, 28, 31, 34, 37, 41, 45, 50, 55, 60, 66, 73, 80, 88, 97, 107, 118] ++
  [130, 143, 157, 173, 190, 209, 230, 253, 279, 307, 337, 371, 408, 449, 494, 544, 598, 658, 724, 796, 876, 963, 1060] ++
  [1166, 1282, 1411, 1552, 1707, 1878, 2066, 2272, 2499, 2749, 3024, 3327, 3660, 4026, 4428, 4871, 5358, 5894, 6484] ++
  [7132, 7845, 8630, 9493, 10442, 11487, 12635, 13899, 15289, 16818, 18500, 20350, 22385, 24623, 27086, 29794, 32767]

def stepAt (i : Nat) : Nat := match stepTable[i]? with | some n => n | none => 32767

/-- One nibble decoded: predictor and step index after it (R234). -/
def nibble (pred : Int) (idx c : Nat) : Int × Nat :=
  let step := stepAt idx
  let diff := step / 8 + (if c.testBit 2 then step else 0) + (if c.testBit 1 then step / 2 else 0) + (if c.testBit 0 then step / 4 else 0)
  let p : Int := if c.testBit 3 then max (pred - diff) (-32768) else min (pred + diff) 32767
  let adj : Int := match c % 8 with
    | 4 => 2
    | 5 => 4
    | 6 => 6
    | 7 => 8
    | _ => -1
  (p, (clampI 0 88 ((idx : Int) + adj)).toNat)

/-- The next ADPCM sample is decoded from the words held: none where its word has not landed. Answers whether a header held a
step index above 88. -/
def VoiceSt.decodeOne (x : VoiceSt) (n : Nat) (header : Bool) : Option (VoiceSt × Bool) :=
  (x.word? (x.wordOf n)).map fun w =>
    let c := w / 2 ^ (32 + 8 * (n % 24 / 2) + 4 * (n % 2)) % 16
    let h := w / 65536 % 256
    let (pred, idx, bad) : Int × Nat × Bool :=
      match header, x.dec with
      | false, e :: _ => (e.v, e.idx, false)
      | _, _ => (sext 16 w, min h 88, decide (88 < h))
    let (p, i) := nibble pred idx c
    ({ x with dec := ⟨n, p, i⟩ :: x.dec }, bad)

def VoiceSt.decoded (x : VoiceSt) (n : Nat) : Option Int := (x.dec.find? fun e => decide (e.n = n)).map (·.v)

/-- Decoding goes on until every index of `want` is decoded, or a word is missing (R234, log 23: other blocks' headers are not
used). -/
def VoiceSt.decodeTo (x : VoiceSt) (loop : Bool) (want : List Nat) : Nat → VoiceSt × Bool × Bool
  | 0 => (x, false, false)
  | fuel + 1 =>
    if want.all fun n => (x.decoded n).isSome then (x, false, true) else
    let nxt := match x.dec with
      | [] => some (0, true)
      | e :: _ => (x.succ loop e.n).map fun n => (n, loop && decide (x.loope ≤ e.n + 1))
    match nxt with
    | none => (x, false, false)
    | some (n, header) =>
      match x.decodeOne n header with
      | none => (x, false, false)
      | some (y, bad) =>
        let (z, b, ok) := y.decodeTo loop want fuel
        (z, bad || b, ok)

/-- A voice whose loop has just become inactive plays on from its position: what was decoded past the loop's end goes. -/
def VoiceSt.unwind (x : VoiceSt) (loop : Bool) : VoiceSt :=
  let i := x.pos / 65536
  if !loop && x.dec.any (fun e => decide (i ≤ e.n)) then { x with dec := x.dec.dropWhile fun e => decide (e.n < i) } else x

/-- The samples a, b, c and d of the interpolator (R237): none where a word has not landed; and whether a header was bad. -/
def VoiceSt.window (x0 : VoiceSt) (loop : Bool) : VoiceSt × Bool × Option (Int × Int × Int × Int) :=
  let i : Int := x0.pos / 65536
  if x0.fmt = 2 then
    let x1 := x0.unwind loop
    let idx := [i - 1, i, i + 1, i + 2].map (x1.index loop)
    let want := ([i, i + 1, i + 2].map (x1.index loop)).filterMap id
    let (x, bad, ok) := x1.decodeTo loop want 256
    if !ok then (x, bad, none) else
    let get := fun (k : Nat) => match idx[k]? with
      | some (some n) => match x.decoded n with | some v => v | none => 0
      | _ => 0
    ({ x with dec := (x.dec.take 64) ++ ((x.dec.drop 64).filter fun e => decide (e.n + 1 = x.loops)) }, bad,
      some (get 0, get 1, get 2, get 3))
  else
    let get := fun (n : Int) => match x0.index loop n with
      | none => some 0
      | some m => x0.pcm m
    match get (i - 1), get i, get (i + 1), get (i + 2) with
    | some a, some b, some c, some d => (x0, false, some (a, b, c, d))
    | _, _, _, _ => (x0, false, none)

/-- The interpolated value (R237). -/
def interpolate (lin : Bool) (a b c d f : Int) : Int :=
  let y :=
    if lin then b + asr ((c - b) * f + 32768) 16
    else
      let k1 := c - a
      let k2 := 2 * a - 5 * b + 4 * c - d
      let k3 := 3 * (b - c) + d - a
      let t1 := asr (k3 * f) 16 + k2
      let t2 := asr (t1 * f) 16 + k1
      asr (asr (t2 * f) 16 + 2 * b + 1) 1
  clampI (-32768) 32767 y

/-- The envelope's level and phase after one sample (Table 9.2). -/
def envelope (state env atk dec sus rel : Nat) : Nat × Nat :=
  match state with
  | 1 =>
    let e := if atk = 0 then 65535 else min (env + atk) 65535
    (if e = 65535 then 2 else 1, e)
  | 2 =>
    let e := if dec = 0 then sus else max (env - dec) sus
    (if e = sus then 3 else 2, e)
  | 4 => (4, if rel = 0 then 0 else env - rel)
  | st => (st, env)

/-- One sample of voice `v` (R236 to R239): its output and the state after it. -/
def State.voiceSample (v : Nat) (s : State) : Int × State :=
  let st := s.voiceState v
  if st = 0 then (0, s) else
  let loop := s.loopActive v
  let x0 := s.voice v
  if !loop && decide (x0.len ≤ x0.pos / 65536) then (0, s.voiceEnd v) else
  let (x1, bad, win) := x0.window loop
  let (st1, env1) := envelope st (s.env v) (s.f (Reg.SNDv_ENVA v) 15 0) (s.f (Reg.SNDv_ENVA v) 31 16)
    (s.f (Reg.SNDv_ENVB v) 15 0) (s.f (Reg.SNDv_ENVB v) 31 16)
  let p := s.f (Reg.SNDv_PITCH v) 20 0
  let pitch := min (max p 4096) 1048576
  let pos1 := x1.pos + pitch
  let pos2 := if loop && decide (x1.loope ≤ pos1 / 65536) then
      (x1.loops + (pos1 / 65536 - x1.loops) % (x1.loope - x1.loops)) * 65536 + pos1 % 65536
    else pos1
  let out : Int := match win with
    | none => x1.last
    | some (a, b, c, d) =>
      let y := interpolate (s.bit (Reg.SNDv_CTRL v) 4) a b c d (x1.pos % 65536)
      asr (y * env1 + 128) 8
  let x2 := { x1 with pos := pos2 % 2 ^ 40, last := out }
  let x3 := { x2 with words := x2.words.filter fun e => (x2.needed loop).contains e.1 }
  let s1 := ((s.setVoice v x3).setVoiceState v st1).setEnv v env1
  let s2 := s1.setReg (Reg.SNDv_POS v) (wd (pos2 / 65536 % 2 ^ 24))
  let s3 := if bad then s2.setBit (Reg.SNDv_STAT v) 4 true else s2
  let s4 := if p ≠ pitch then s3.setBit (Reg.SNDv_STAT v) 6 true else s3
  let s5 := if win = none then (s4.setBit (Reg.SNDv_STAT v) 7 true).sndOnce 3 v else s4
  if st1 = 4 ∧ env1 = 0 then (0, s5.voiceEnd v) else (out, s5)

/-- A read of the 16-byte word at `wa` through a port (R14). -/
def State.readWord (port wa : Nat) (s : State) : Nat × Nat × State :=
  let (c, bs, t) := s.portRead port wa 16
  (c, leNat bs, t)

/-- `VOICE_FETCH`: the next word the voice needs is read through port SND (R239, R240). -/
def execVoiceFetch (v : Fin 64) (u : Upset) (s : State) : Res :=
  if s.frozen then .next s else
  if s.voiceState v.val = 0 then .next s else
  let x := s.voice v.val
  match (x.needed (s.loopActive v.val)).find? fun a => (x.word? a).isNone with
  | none => .next s
  | some a =>
    let (code, data, s1) := (if inSram a then s.upset a u else s).readWord 12 a
    if code ≠ 0 then .next (((s1.setBit (Reg.SNDv_STAT v.val) 5 true).raise0 stSND 2).voiceEnd v.val)
    else .next (s1.setVoice v.val { x with words := x.words ++ [(a, data)] })

/-- Port SND is in the urgent class: a voice that is not OFF holds fewer than SND_VWM.WM words ahead (R240). -/
def State.sndUrgent (s : State) : Bool :=
  let wm := min (s.f Reg.SND_VWM 2 0) 4
  decide (wm ≠ 0) && (List.range 64).any fun v =>
    let x := s.voice v
    decide (s.voiceState v ≠ 0) && decide (((x.needed (s.loopActive v)).drop 1).countP (fun a => (x.word? a).isSome) < wm)

end Sys2Proof.Machine
end

