-- ==== Sys2Proof/Machine/Sound.lean ====
section
/-! DEFINITION. The Sarabande: beam samples, the crosspoint, sound objects, output chains, streamed channels and TDM ports
(R230 to R272). -/

namespace Sys2Proof.Machine

/-! Time (R230). -/

/-- The count of the beam sample being taken, as SND_KLO and SND_KHI show it. -/
def State.kNow (s : State) : Nat := s.snd.k - 1

/-- The frame that beam sample `k` falls in: floor of K × RATENUM / (fs × RATEDEN). -/
def State.frameOfSample (s : State) (k : Nat) : Nat :=
  k * s.f Reg.BEAM_RATENUM 19 0 / (s.fs * s.f Reg.BEAM_RATEDEN 11 0)

/-- The beam position of sample `k` in its frame (R230). -/
def State.posOfSample (s : State) (k : Nat) : BPos :=
  let d := s.fs * s.f Reg.BEAM_RATEDEN 11 0
  s.posAt (k * s.f Reg.BEAM_RATENUM 19 0 % d * s.frameDots / d)

/-- The sample is the first at or after 0:0 of its frame. -/
def State.firstOfFrame (s : State) (k : Nat) : Bool := decide (k = 0) || decide (s.frameOfSample k ≠ s.frameOfSample (k - 1))

/-! Nodes (R243 to R246). -/

def nodeReg (o i : Nat) : Nat := Reg.SND_XPo_i o i

/-- Gain and MUTE of a node word. -/
def nodeGain (w : Word) : Int := sext 16 w.toNat
def nodeMuted (w : Word) : Bool := bitAt w 16

/-- The zero-crossing stepping is on (R246). -/
def State.zcOn (s : State) : Bool := s.bit Reg.SND_STRUCT 1

/-- A change of a node: at once, or pending until its input crosses zero; a further change replaces the value and
keeps the time (R246). -/
def State.changeNode (o i : Nat) (w : Word) (s : State) : State :=
  if !s.zcOn then s.setReg (nodeReg o i) w
  else
    match s.snd.zc.find? fun p => decide (p.o = o) && decide (p.i = i) with
    | some _ =>
      { s with snd := { s.snd with zc := s.snd.zc.map fun p => if p.o = o ∧ p.i = i then { p with value := w } else p } }
    | none => if s.reg (nodeReg o i) = w then s else { s with snd := { s.snd with zc := s.snd.zc ++ [⟨o, i, w, 0⟩] } }

/-- Pending changes that `p` picks take effect. -/
def State.settleNodes (p : ZcPend → Bool) (s : State) : State :=
  let (now, later) := s.snd.zc.partition p
  let s1 := now.foldl (fun t e => t.setReg (nodeReg e.o e.i) e.value) s
  { s1 with snd := { s1.snd with zc := later } }

/-- Commit group SNDXPT is applied (R232 step 1, R245, R246). -/
def State.applySndxpt (s : State) : State :=
  if !s.inFlight 6 then s
  else if !s.zcOn then (s.takeGroup 6 (fun _ => true) s.latched).endFlight 6
  else
    let keys := (((s.regs ++ s.latched).filter (inGroup 6)).map (·.1) ++ s.snd.zc.map fun p => nodeReg p.o p.i).eraseDups
    let base := nodeReg 0 0
    (keys.foldl (fun t a => t.changeNode ((a - base) / 512) ((a - base) % 512 / 4) (s.lat a)) s).endFlight 6

/-- Samples after which a pending change takes effect (R246). -/
def State.zcLimit (s : State) : Nat := (s.f Reg.SND_ZCTO 5 0 + 1) * s.fs / 1000

/-- `ZC_TIMEOUT`: the timeout of a pending node has passed. -/
def execZcTimeout (o : Fin 48) (i : Fin 128) (s : State) : Res :=
  if s.frozen then .next s else
  .next (s.settleNodes fun p => decide (p.o = o.val) && decide (p.i = i.val) && decide (s.zcLimit ≤ p.waited))

/-- A write of SND_NODEW (R245). -/
def State.nodeWrite (v : Word) (s : State) : State :=
  if fld v 12 7 > 47 then s.raise0 stSND 8
  else { s with snd := { s.snd with writes := s.snd.writes ++ [.node s.snd.stamp v] } }

/-- Writes of SND_KEYONn and SND_KEYOFFn. -/
def State.keyOnWrite (n : Nat) (v : Word) (s : State) : State :=
  { s with snd := { s.snd with writes := s.snd.writes ++ [.keyOn s.snd.stamp n v] } }

def State.keyOffWrite (n : Nat) (v : Word) (s : State) : State :=
  { s with snd := { s.snd with writes := s.snd.writes ++ [.keyOff s.snd.stamp n v] } }

/-- The place of a direct write among others: what stands for its FCLK, and within it a key-on before a key-off (R232 step 2). -/
def writeRank : SndWrite → Nat × Nat
  | .keyOn t _ _ => (t, 0)
  | .keyOff t _ _ => (t, 1)
  | .node t _ => (t, 0)

def insertWrite (w : SndWrite) : List SndWrite → List SndWrite
  | [] => [w]
  | x :: xs =>
    let (a, b) := writeRank w
    let (c, d) := writeRank x
    if a < c ∨ (a = c ∧ b < d) then w :: x :: xs else x :: insertWrite w xs

def sortWrites (l : List SndWrite) : List SndWrite := l.foldl (fun acc w => insertWrite w acc) []

/-- A direct write acts on the sample. -/
def State.applyWrite (s : State) : SndWrite → State
  | .keyOn _ n v => (bitsOf v).foldl (fun t b => t.keyOn (32 * n + b)) s
  | .keyOff _ n v => (bitsOf v).foldl (fun t b => t.keyOff (32 * n + b)) s
  | .node _ v => s.changeNode (fld v 12 7) (fld v 6 0) (wd (fld v 31 16 + 65536 * fld v 13 13))

/-! Inputs. -/

/-- The ring entry of a streamed channel for sample `k` (R241). -/
def State.ringEntry (s : State) (ch k : Nat) : Nat := (s.reg Reg.SND_STRBASE).toNat + 4 * (4096 * ch + k % 4096)

/-- A streamed channel's sample at its instant (R241). -/
def State.streamSample (k ch : Nat) (s : State) : Int × State :=
  let a := s.ringEntry ch k
  let (code, w, s1) := s.readWord 12 (a / 16 * 16)
  let e := if code = 0 then w / 256 ^ (a % 16) % 2 ^ 32 else 0
  if e / 2 ^ 24 = k / 4096 % 256 then (sext 24 e, s1)
  else (0, (s1.count Reg.SND_STRCNT 31 16).sndOnce 6 ch)

/-- A list of values made one after the other. -/
def mapSt (f : Nat → State → Int × State) : List Nat → State → List Int × State
  | [], s => ([], s)
  | n :: ns, s =>
    let (x, s1) := f n s
    let (xs, s2) := mapSt f ns s1
    (x :: xs, s2)

def atI (l : List Int) (n : Nat) : Int := match l[n]? with | some x => x | none => 0

/-- The bus sample clamped to 32 bits; a clamp counts in SND_CLIP.BUS and sets CLIPBUS (R244). -/
def State.clampBus (chan : Nat) (x : Int) (s : State) : Int × State :=
  let y := clampI (-(2 ^ 31)) (2 ^ 31 - 1) x
  if y = x then (x, s) else (y, (s.count Reg.SND_CLIP 15 0).sndOnce 0 chan)

/-- One crosspoint output (R244). -/
def State.mixOutput (ins : List Int) (o : Nat) (s : State) : Int × State :=
  let sum := (List.range 128).foldl (fun (acc : Int) i =>
    let w := s.reg (nodeReg o i)
    if nodeMuted w then acc else acc + asr (atI ins i * nodeGain w + 8192) 14) 0
  s.clampBus o sum

/-! Sound objects (R258 to R263). -/

def State.object (s : State) (c : Nat) : ObjectSt := match s.obj.objects[c]? with | some x => x | none => emptyObject

def State.setObject (c : Nat) (x : ObjectSt) (s : State) : State := { s with obj := { s.obj with objects := s.obj.objects.set c x } }

/-- Object `c` renders into target `t` (R258). -/
def State.rendered (s : State) (c t : Nat) : Bool :=
  s.bit Reg.OBJ_CTRL 0 && s.bit (Reg.OBJc_CTRL c) 0 && s.bit (Reg.OBJ_Tt_CTRL t) 0 &&
    (if t < 32 then s.bit (Reg.OBJc_TMASK0 c) t else s.bit (Reg.OBJc_TMASK1 c) (t - 32))

/-- Commit group OBJPAR is applied; an object whose EN goes from zero to one starts with an empty delay line (R263), and a speed
of sound outside the limits of R261 sets CFGERR (R526). -/
def State.applyObjpar (s : State) : State :=
  if !s.inFlight 7 then s else
  let s1 := (s.takeGroup 7 (fun _ => true) s.latched).endFlight 7
  let s2 := (List.range 32).foldl (fun t c =>
    let x := t.object c
    let en := t.bit (Reg.OBJc_CTRL c) 0
    t.setObject c { x with en := en, line := if en && !x.en then [] else x.line }) s1
  let c := s2.f Reg.OBJ_C 19 0
  if c < 200000 ∨ 1000000 < c then s2.raise0 stOBJ 3 else s2

/-- The sprite table last read for a slot. -/
def State.slotTable (s : State) (slot : Nat) : List (Option Nat) :=
  match s.qdl.layers[slot]? with | some l => l.sprites | none => []

/-- The sprite entry that object `c` is bound to, in frame `n`: none where the slot's type or the index fails (R259). -/
def State.boundEntry (s : State) (n c : Nat) : Option (Option Nat × Nat × Nat) :=
  let slot := s.f (Reg.OBJc_SPR c) 3 0
  let idx := s.f (Reg.OBJc_SPR c) 27 16
  let q := (s.qdl.frames.find? fun q => decide (q.frame = n)) <|>
    (match s.qdl.ended with | some q => if q.frame = n then some q else none | none => none)
  let b := match q with | some q => q.f (Reg.LAYn_BANK slot) 0 0 | none => s.front slot
  let type := match q with | some q => q.f (Reg.LAYn_TYPE slot) 1 0 | none => s.layType slot
  if slot < 12 ∧ type = 3 ∧ idx < s.f (Reg.LAYn_Bb_SIZE0 slot b) 12 0 then
    let tab := match q with
      | some q => (match q.sprites[slot]? with | some t => t | none => [])
      | none => s.slotTable slot
    some ((match tab[idx]? with | some e => e | none => none), slot, b)
  else none
/-- The floor of a quotient by 1,000. -/
def mm16 (x2 pitch : Int) : Int := (x2 * pitch * 8 + 500) / 1000

/-- The place of object `c` in frame `n`, whether it is silent for the frame, and whether its binding fails (R259). -/
def State.objectPlace (s : State) (n c : Nat) : Option (Int × Int × Int) × Bool × Bool :=
  let z := sw (s.reg (Reg.OBJc_Z c))
  if s.bit (Reg.OBJc_CTRL c) 1 then
    match s.boundEntry n c with
    | none => ((s.object c).pos, false, true)
    | some (none, _, _) => ((s.object c).pos, false, false)
    | some (some v, slot, b) =>
      let p := spriteOf v
      let wall := s.bit (Reg.LAYn_Bb_CTRL slot b) 0
      let wx : Int := if wall then 0 else s.beam.place.1
      let wy : Int := if wall then 0 else s.beam.place.2.1
      let xc2 := 2 * (p.x + wx) + (if p.rot then p.h else p.w)
      let yc2 := 2 * (p.y + wy) + (if p.rot then p.w else p.h)
      (some (mm16 xc2 (s.f Reg.BEAM_PITCH 15 0), mm16 yc2 (s.f Reg.BEAM_PITCH 31 16), z), !p.en, false)
  else (some (sw (s.reg (Reg.OBJc_X c)), sw (s.reg (Reg.OBJc_Y c)), z), false, false)

/-- The greatest integer not above the square root of a number below 2^72. -/
def isqrt (n : Nat) : Nat := bisect (fun x => decide (x * x ≤ n)) 36 0

/-- Target gain and delay of a pair at distance `d`, and whether the delay was limited (R261). -/
def State.pairTarget (s : State) (c d : Nat) : Int × Int × Bool :=
  let og := s.f (Reg.OBJc_GAIN c) 15 0
  let r0 := s.f (Reg.OBJc_R0 c) 27 0
  let w0 := s.f (Reg.OBJc_W0 c) 27 0
  let w1 := s.f (Reg.OBJc_W1 c) 27 0
  let g1 := if r0 = 0 then og else og * r0 / max d r0
  let w := if w1 = 0 then 65536 else if d ≤ w0 then 65536 else if w1 ≤ d then 0 else (w1 - d) * 65536 / (w1 - w0)
  let cs := min (max (s.f Reg.OBJ_C 19 0) 200000) 1000000
  let dl := (d * s.fs * 16 + cs / 2) / cs
  let lim := 16368 * 256
  (((g1 * w + 32768) / 65536 : Nat), (min dl lim : Nat), decide (lim < dl))

/-- Fewest whole samples in a frame (R262). -/
def State.rampLen (s : State) : Nat := s.fs * s.f Reg.BEAM_RATEDEN 11 0 / s.f Reg.BEAM_RATENUM 19 0

/-- Delay and gain of a pair at its ramp sample (R262). -/
def PairSt.delay (p : PairSt) : Int :=
  if p.len ≤ p.k then p.delay1 else p.delay0 + (p.delay1 - p.delay0) * p.k / p.len
def PairSt.gain (p : PairSt) : Int :=
  if p.len ≤ p.k then p.gain1 else p.gain0 + (p.gain1 - p.gain0) * p.k / p.len

/-- One object is updated (R258 to R262). -/
def State.updateObject (n : Nat) (s : State) (c : Nat) : State :=
  let targets := (List.range 48).filter fun t => s.rendered c t
  let (pos, silent, sprerr) := s.objectPlace n c
  let noPitch := decide (s.f Reg.BEAM_PITCH 15 0 = 0) || decide (s.f Reg.BEAM_PITCH 31 16 = 0)
  let srcerr := decide (120 ≤ s.f (Reg.OBJc_CTRL c) 14 8)
  let mute := silent || noPitch || pos.isNone
  let (x, y, z) := match pos with | some p => p | none => (0, 0, 0)
  let (pairs, clamped) := targets.foldl (fun (acc : List PairSt × Bool) t =>
    let dx := x - sw (s.reg (Reg.OBJ_Tt_X t))
    let dy := y - sw (s.reg (Reg.OBJ_Tt_Y t))
    let dz := z - sw (s.reg (Reg.OBJ_Tt_Z t))
    let d := isqrt (dx * dx + dy * dy + dz * dz).toNat
    let (g, dl, cl) := s.pairTarget c d
    let g1 : Int := if mute then 0 else g
    let p := match s.obj.pairs.find? fun p => decide (p.c = c) && decide (p.t = t) with
      | some o =>
        if s.obj.stepped then ⟨c, t, dl, dl, g1, g1, 0, 0⟩ else ⟨c, t, o.delay, dl, o.gain, g1, 0, s.rampLen⟩
      | none => ⟨c, t, dl, dl, g1, g1, 0, 0⟩
    (acc.1 ++ [p], acc.2 || cl)) ([], false)
  let st := wd (b2n (!targets.isEmpty) + 2 * b2n sprerr + 4 * b2n clamped + 8 * b2n srcerr)
  let s1 := (s.setObject c { s.object c with pos := pos }).setReg (Reg.OBJc_STAT c) st
  let s2 := { s1 with obj := { s1.obj with pairs := (s1.obj.pairs.filter fun p => decide (p.c ≠ c)) ++ pairs } }
  let s3 := if sprerr then s2.raise stOBJ 1 (wd c) 0 0 else s2
  if clamped then s3.raise stOBJ 2 (wd c) 0 0 else s3

/-- `OBJECT_UPDATE` (R261): at OBJ_UPOS in sub-frame 0 of the present frame. -/
def execObjectUpdate (s : State) : Res :=
  if s.frozen then .next s else
  let u := posOf (s.reg Reg.OBJ_UPOS)
  if !s.bit Reg.OBJ_CTRL 0 || !s.inGeometry u.line u.dot then .next s else
  let s0 := s.setPos ⟨0, u.line, u.dot⟩
  let s1 := if s.f Reg.BEAM_PITCH 15 0 = 0 ∨ s.f Reg.BEAM_PITCH 31 16 = 0 then s0.raise0 stOBJ 0 else s0
  let s2 := (List.range 32).foldl (State.updateObject s.beam.frame) s1
  .next { s2 with obj := { s2.obj with stepped := false } }

/-- The source sample of object `c` (R258). -/
def State.objectSource (s : State) (ins outs : List Int) (c : Nat) : Int :=
  let src := s.f (Reg.OBJc_CTRL c) 14 8
  if src < 112 then atI ins src else if src < 120 then atI outs (src - 72) else 0

/-- The delay lines have a place for every sample that a step skipped; what it holds is free (log 113). -/
def State.fillGap (s : State) : State :=
  if s.obj.gap = 0 then s else
  let (i, t) := s.draw
  let n := min t.obj.gap 16384
  let t1 := (List.range 32).foldl (fun u c =>
    let x := u.object c
    u.setObject c { x with line := (((List.range n).map fun j => (Config.skipped i (32 * j + c)).toInt) ++ x.line).take 16384 }) t
  { t1 with obj := { t1.obj with gap := 0 } }

/-- The delay lines of the enabled objects take the sample, and every mute factor moves (R263). -/
def State.stepObjects (ins outs : List Int) (s : State) : State :=
  (List.range 32).foldl (fun t c =>
    let x := t.object c
    let m := if t.bit Reg.OBJ_MUTE c then x.mute - 4096 else min 65536 (x.mute + 4096)
    let line := if t.bit (Reg.OBJc_CTRL c) 0 then (clampI (-(2 ^ 23)) (2 ^ 23 - 1) (t.objectSource ins outs c) :: x.line).take 16384 else x.line
    t.setObject c { x with line := line, mute := m }) s.fillGap

/-- The contribution of a pair to its target at the present sample (R263). -/
def State.contribution (s : State) (p : PairSt) : Int :=
  let x := s.object p.c
  let i := (p.delay / 256).toNat
  let f := p.delay % 256
  let a := atI x.line i
  let b := atI x.line (i + 1)
  let y := a + asr ((b - a) * f + 128) 8
  asr (y * p.gain * x.mute + 8192 * 65536) 30

/-- The renderer's sums for the present sample, one for each target (R263). -/
def State.renderSample (ins outs : List Int) (s0 : State) : List Int × State :=
  let s1 := s0.stepObjects ins outs
  let pairs := (s1.obj.pairs.filter fun p => s1.rendered p.c p.t).map fun p => { p with k := p.k + 1 }
  let s2 := { s1 with obj := { s1.obj with pairs := pairs } }
  mapSt (fun t st => st.clampBus (64 + t) ((pairs.filter fun p => decide (p.t = t)).foldl (fun (acc : Int) p => acc + st.contribution p) 0))
    (List.range 48) s2

/-! Output chains (R249 to R253). -/

def State.chain (s : State) (o : Nat) : ChainSt := match s.snd.chains[o]? with | some x => x | none => emptyChain o

def State.setChain (o : Nat) (x : ChainSt) (s : State) : State := { s with snd := { s.snd with chains := s.snd.chains.set o x } }

/-- The longest alignment delay (R251). -/
def State.maxDelay (s : State) : Nat := 960 * s.fs / 48000

/-- A new block of status bits begins (R526). -/
def State.blockSeen (s : State) : State := { s with snd := { s.snd with seen := [] } }

/-- A block starts: collected coefficients and delays take effect (R250, R251). -/
def State.blockStart (s : State) : State :=
  let s1 := s.blockSeen
  (List.range 32).foldl (fun t o =>
    let x := t.chain o
    let bqs := x.biquads.map fun b => match b.next with
      | some c => { b with coef := c, next := none }
      | none => b
    t.setChain o { x with biquads := bqs, delay := min (t.f (Reg.SNDo_DELAY o) 10 0) t.maxDelay }) s1

/-- One biquad (R250). -/
def biquadStep (on : Bool) (b : Biquad) (x : Int) : Biquad × Int :=
  if !on then ({ b with x1 := 0, x2 := 0, y1 := 0, y2 := 0 }, x) else
  let acc := atI b.coef 0 * x + atI b.coef 1 * b.x1 + atI b.coef 2 * b.x2 - atI b.coef 3 * b.y1 - atI b.coef 4 * b.y2
  let y := clampI (-(2 ^ 31)) (2 ^ 31 - 1) (asr (acc + 2 ^ 27) 28)
  ({ b with x1 := x, x2 := b.x1, y1 := y, y2 := b.y1 }, y)

def biquadsStep (en : Nat) : Nat → List Biquad → Int → List Biquad × Int
  | _, [], x => ([], x)
  | k, b :: bs, x =>
    let (b1, y) := biquadStep (en.testBit k) b x
    let (bs1, z) := biquadsStep en (k + 1) bs y
    (b1 :: bs1, z)

/-- One step of the dither register (R253). -/
def lfsrStep (w : Word) : Word := if bitAt w 0 then (w >>> 1) ^^^ 0x80200003 else w >>> 1

/-- The gain a sample needs (R252). -/
def needGain (t : Nat) (x : Int) : Nat := if absI x ≤ t then 65536 else t * 65536 / (absI x).toNat

/-- What a chain is set to. -/
structure ChainCfg where
  mode : Nat
  width : Nat
  dither : Bool
  limen : Bool
  thr : Nat
  rel : Nat
  bqen : Nat
  look : Nat
deriving DecidableEq, Repr

def State.chainCfg (s : State) (o : Nat) : ChainCfg :=
  let m := s.f (Reg.SNDo_OCTRL o) 1 0
  { mode := if m = 3 then 0 else m, width := s.f (Reg.SNDo_OCTRL o) 3 2, dither := s.bit (Reg.SNDo_OCTRL o) 4,
    limen := s.bit (Reg.SNDo_OCTRL o) 5, thr := min (s.f (Reg.SNDo_LIM o) 23 0) 0x7FFFFF, rel := s.f (Reg.SNDo_LIMREL o) 15 0,
    bqen := s.f (Reg.SNDo_BQEN o) 9 0, look := 48 * s.fs / 48000 }

/-- The output code of a chain value, and whether it was clamped (R253). -/
def reduce (c : ChainCfg) (u1 u2 : Int) (v0 : Int) : Int × Bool :=
  let v := clampI (-(2 ^ 23)) (2 ^ 23 - 1) v0
  let code := match c.width with
    | 0 => clampI (-(2 ^ 15)) (2 ^ 15 - 1) (asr (v + 128 + (if c.dither then u1 - u2 else 0)) 8)
    | 2 => v * 256
    | _ => v
  (code, decide (v ≠ v0))

/-- What a chain takes: the crosspoint's output, in normal mode with the renderer's contribution `r`, clamped (R247); and whether it was clamped. -/
def chainInput (c : ChainCfg) (x r : Int) : Int × Bool :=
  if c.mode = 1 then
    let y := clampI (-(2 ^ 31)) (2 ^ 31 - 1) (x + r)
    (y, decide (y ≠ x + r))
  else (x, false)

/-- One sample `x` of a chain: its code, whether it was clamped, and how many samples before the present one its source lies (R249 to R253). -/
def chainStep (c : ChainCfg) (st : ChainSt) (x : Int) : ChainSt × Int × Bool × Nat :=
  let l1 := lfsrStep st.lfsr
  let l2 := lfsrStep l1
  let u1 : Int := l1.toNat % 256
  let u2 : Int := l2.toNat % 256
  let st0 := { st with lfsr := l2 }
  match c.mode with
  | 1 =>
    let (bqs, y) := biquadsStep c.bqen 0 st.biquads x
    let line := (y :: st.line).take 1921
    let d := atI line st.delay
    let ahead := st.ahead ++ [d]
    let age := st.delay + c.look - 1
    if ahead.length < c.look then ({ st0 with biquads := bqs, line := line, ahead := ahead }, 0, false, age) else
    let xn := atI ahead 0
    let m := ahead.foldl (fun acc v => min acc (needGain c.thr v)) 65536
    let g := if c.limen then min m (st.gain + ((65536 - st.gain) * c.rel + 32768) / 65536) else 65536
    let (code, cl) := reduce c u1 u2 (asr (xn * g + 32768) 16)
    ({ st0 with biquads := bqs, line := line, ahead := ahead.drop 1, gain := g }, code, cl, age)
  | 2 =>
    let line := (x :: st.line).take 1921
    let d := atI line st.delay
    let (code, cl) := reduce c u1 u2 (clampI (-(c.thr : Int)) c.thr d)
    ({ st0 with line := line }, code, cl, st.delay)
  | _ => (st0, 0, false, 0)

/-- The codes of one chain for the samples of the block; a clamp at its input counts as one of the bus, one at its output as one of the output
(R247, R253, R256). -/
def State.runChain (blk : List (Nat × List Int × List Int)) (o : Nat) (s : State) : List Int × State :=
  let c := s.chainCfg o
  let (_, codes, t) := blk.foldl (fun (acc : Nat × List Int × State) e =>
    let (fed, codes, t) := acc
    let (x, cut) := chainInput c (atI e.2.1 o) (atI e.2.2 o)
    let (st, code, cl, age) := chainStep c (t.chain o) x
    let t1 := t.setChain o st
    let t2 := if cut then (t1.count Reg.SND_CLIP 15 0).sndOnce 0 o else t1
    let t3 := if cl && decide (age ≤ fed) then (t2.count Reg.SND_CLIP 31 16).sndOnce 1 o else t2
    (fed + 1, codes ++ [if fed < age then 0 else code], t3)) (s.snd.fed, [], s)
  (codes, t)

def State.runChains (blk : List (Nat × List Int × List Int)) : List Nat → State → List (List Int) × State
  | [], s => ([], s)
  | o :: os, s =>
    let (c, s1) := s.runChain blk o
    let (cs, s2) := State.runChains blk os s1
    (c :: cs, s2)

/-! TDM ports (R265 to R270). -/

def State.tdmSlots (s : State) (n : Nat) : Nat := s.f (Reg.TDMn_CFG n) 7 4 + 1
def State.tdmOn (s : State) (n : Nat) : Bool := s.bit (Reg.TDMn_CFG n) 0 && s.bit Reg.SND_CTRL 0
def State.tdmTarget (s : State) (n : Nat) : Bool := s.bit (Reg.TDMn_CFG n) 1

/-- The map byte of output slot `j` of port `n` (R268). -/
def State.tdmMap (s : State) (n j : Nat) : Nat := s.f (Reg.TDMn_OMAPk n (j / 4)) (8 * (j % 4) + 7) (8 * (j % 4))

/-- Slot width in bits (Table 10.6). -/
def State.slotBits (s : State) (n : Nat) : Nat :=
  match s.f (Reg.TDMn_CFG n) 9 8 with
  | 0 => 16
  | 1 => 24
  | _ => 32

/-- The frame rate of a port (Table 10.6). -/
def State.tdmRate (s : State) (n : Nat) : Nat := 48000 * 2 ^ s.f (Reg.TDMn_CFG n) 11 10

/-- Bits of a chain's output code (R253). -/
def State.chainBits (s : State) (o : Nat) : Nat := match (s.chainCfg o).width with | 0 => 16 | 2 => 32 | _ => 24

/-- A code left-justified in a slot of `sw` bits, zeros after it (R266). -/
def slotWord (w sw : Nat) (code : Int) : Nat := (code * 2 ^ (sw - w) % 2 ^ sw).toNat

/-- The level of FS during each BCLK of a frame of `n` slots of `sw` bits, from the first bit of slot 0 on (Table 10.2). Format 2's pulse is the BCLK
before that bit (DEDUCED, log 114). -/
def fsLevels (fmt : Nat) (pol : Bool) (n sw : Nat) : List Bool :=
  (List.range (n * sw)).map fun b =>
    let v := match fmt with
      | 0 => decide (sw ≤ (b + 1) % (n * sw))
      | 1 => decide (b < sw)
      | 2 => decide (b + 1 = n * sw)
      | _ => decide (b = 0)
    v ^^ pol

/-- The codes of a chain as a port sends them, one for each of its frames: the chain's own where the port is controller and its rate is the beam's;
else what the bridge makes of them, `i` naming the block, at the port's nominal rate (R255; the values are free, log 116). -/
def State.bridge (s : State) (n i o : Nat) (codes : List Int) : List Int :=
  if (s.chainCfg o).mode = 0 then List.replicate (codes.length * s.tdmRate n / s.fs) 0
  else if !s.tdmTarget n && decide (s.tdmRate n = s.fs) then codes
  else (List.range (codes.length * s.tdmRate n / s.fs)).map fun j => sext (s.chainBits o) (Config.bridged i o j)

/-- One slot of a port in each frame of the block; none is high impedance (R265, R268, R402). -/
def State.slotFrames (s : State) (n i j : Nat) (codes : List (List Int)) (frames : Nat) : List (Option Nat) :=
  let m := s.tdmMap n j
  let dead := s.pwr.audioLost || (s.tdmTarget n && !s.bit (Reg.TDMn_STAT n) 1)
  if !m.testBit 7 then List.replicate frames (if s.bit (Reg.TDMn_CFG n) 14 then none else some 0)
  else if dead then List.replicate frames (some 0)
  else match codes[m % 32]? with
    | some c => (s.bridge n i (m % 32) c).map fun v => some (slotWord (s.chainBits (m % 32)) (s.slotBits n) v)
    | none => List.replicate frames (some 0)

/-- What the ports send for the block (R255, R265, R266, R268). -/
def State.sendTdm (codes : List (List Int)) (count : Nat) (s : State) : State :=
  (List.range 4).foldl (fun t n =>
    if !t.tdmOn n then t else
    let (i, t1) := t.draw
    let frames := count * t.tdmRate n / t.fs
    let slots := (List.range (t.tdmSlots n)).map fun j => t.slotFrames n i j codes frames
    t1.emit (.tdm n (fsLevels (t.f (Reg.TDMn_CFG n) 3 2) (t.bit (Reg.TDMn_CFG n) 13) (t.tdmSlots n) (t.slotBits n)) (t.bit (Reg.TDMn_CFG n) 12)
      ((List.range frames).map fun k => slots.map fun l => match l[k]? with | some v => v | none => some 0))) s

/-- The clocks that a controller port drives; at rest they and DOUT are low (R265). -/
def State.tdmPins (s : State) (n : Nat) : Nat × Nat :=
  if !s.tdmOn n || s.tdmTarget n then (0, 0) else (s.tdmRate n * s.tdmSlots n * s.slotBits n, s.tdmRate n)

/-- What the TDM pins show after a change from `old`. -/
def State.showTdm (old s : State) : State :=
  (List.range 4).foldl (fun t n =>
    if old.tdmOn n = t.tdmOn n ∧ old.tdmPins n = t.tdmPins n then t else t.emit (.tdmClock n (t.tdmPins n).1 (t.tdmPins n).2)) s

/-- The runs of samples of a block with consecutive K. -/
def kRuns : List (Nat × List Int × List Int) → List (List (Nat × List Int × List Int))
  | [] => []
  | e :: es =>
    match kRuns es with
    | (f :: fs) :: rest => if f.1 = e.1 + 1 then (e :: f :: fs) :: rest else [e] :: (f :: fs) :: rest
    | r => [e] :: r

/-- Samples of outputs 32 to 39 as one SOUND frame stamped with their K, each clamped to 24 bits (R248, R281). -/
def State.sendRun (run : List (Nat × List Int × List Int)) (s : State) : State :=
  let x := s.f Reg.SND_UPCFG 1 1
  let k0 := match run with | e :: _ => e.1 | [] => 0
  let (bytes, s1) := run.foldl (fun (acc : List Byte × State) e =>
    (List.range 8).foldl (fun (acc : List Byte × State) c =>
      let v := atI e.2.1 (32 + c)
      let y := clampI (-(2 ^ 23)) (2 ^ 23 - 1) v
      let t := if y = v then acc.2 else (acc.2.count Reg.SND_CLIP 15 0).sndOnce 0 (32 + c)
      (acc.1 ++ leBytes 3 (y % 2 ^ 24).toNat, t)) acc) ([], s)
  let head := leBytes 8 k0 ++ [0, 8, BitVec.ofNat 8 run.length] ++ List.replicate 5 0
  let dst := s1.f (Reg.AKx_UPDST x) 13 0
  s1.injectOn x (s1.newFrame 3 0 0 dst (head ++ bytes))

/-- Outputs 32 to 39 go upstream, one frame for the block; a step within it divides it (log 112). -/
def State.sendUpstream (blk : List (Nat × List Int × List Int)) (s : State) : State :=
  if !s.bit Reg.SND_UPCFG 0 then s else (kRuns blk).foldl (fun t r => t.sendRun r) s

/-- `SOUND_BLOCK`: the chains and the renderer process the block, once its 16 samples have been taken (R247 to R253). A block is 16 samples taken
one after the other, whatever their K (DESIGN CHOICE, log 112). -/
def execSoundBlock (s : State) : Res :=
  if s.frozen || decide (s.snd.block.length < 16) then .next s else
  let blk := s.snd.block.take 16
  let (codes, s2) := (s.sendUpstream blk).runChains blk (List.range 32)
  let s3 := s2.sendTdm codes 16
  .next { s3 with snd := { s3.snd with block := s3.snd.block.drop 16, fed := s3.snd.fed + 16, buses := blk.map fun e => e.2.2.drop 32 } }

/-- The signs of two samples differ, or the second is zero (R246). -/
def crosses (a b : Int) : Bool := decide (b = 0) || decide (a < 0 ∧ 0 < b) || decide (0 < a ∧ b < 0) || decide (a = 0)

/-- The sample of a TDM input channel: the first 24 bits of its slot, sign-taken (R269). -/
def State.tdmInput (s : State) (tdm : List (List Nat)) (c : Nat) : Int :=
  if !s.bit Reg.SND_ASRCSTAT c then 0 else
  let n := s.f (Reg.TDM_INc c) 1 0
  let sw := s.slotBits n
  let v := match tdm[n]? with
    | some l => (match l[s.f (Reg.TDM_INc c) 7 4]? with | some v => v % 2 ^ sw | none => 0)
    | none => 0
  if sw = 16 then sext 16 v * 256 else sext 24 (v / 2 ^ (sw - 24))

/-- Sample `k` is mixed (R232). -/
def State.mixSample (k : Nat) (tdm : List (List Nat)) (s : State) : State :=
  let s0 := if s.snd.block.length % 16 = 0 then s.blockStart else s
  let s1 := if s0.firstOfFrame k then s0.applySndxpt else s0
  let s2 := (sortWrites s1.snd.writes).foldl State.applyWrite { s1 with snd := { s1.snd with writes := [] } }
  let (voices, s3) := mapSt State.voiceSample (List.range 64) s2
  let (streams, s4) := mapSt (State.streamSample k) (List.range 32) s3
  let buses := match s4.snd.buses[s4.snd.block.length % 16]? with | some l => l | none => []
  let ins := voices ++ streams ++ (List.range 16).map (s4.tdmInput tdm) ++ (List.range 16).map (atI buses)
  let s5 := s4.settleNodes fun p => crosses (atI s4.snd.prev p.i) (atI ins p.i) || decide (s4.zcLimit ≤ p.waited)
  let (outs, s6) := mapSt (State.mixOutput ins) (List.range 48) s5
  let (sums, s7) := s6.renderSample ins outs
  { s7 with snd := { s7.snd with
    prev := ins, block := s7.snd.block ++ [(k, outs, sums)], zc := s7.snd.zc.map fun p => { p with waited := p.waited + 1 } } }

/-- `BEAM_SAMPLE`: the wall-time beam reaches the instant of sample K, which is taken (R230, R232). One whose frame the beam has not reached is not
taken. -/
def execBeamSample (tdm : List (List Nat)) (s0 : State) : Res :=
  let k := s0.snd.k
  if s0.frozen || !s0.running || decide (s0.beam.frame < s0.frameOfSample k) then .next s0 else
  let s := if s0.frameOfSample k = s0.beam.frame then s0.beamAt (s0.posOfSample k) else s0
  if s.bit Reg.SND_CTRL 0 then
    let t := s.mixSample k tdm
    .next { t with snd := { t.snd with k := k + 1 } }
  else
    let t := if k % 16 = 0 then s.blockSeen else s
    .next { t with snd := { t.snd with k := k + 1 } }

/-! Streamed channels (R241). -/

/-- One sample of a streamed channel arrives through port A or B: it is written to its ring, or discarded as late or early. -/
def State.streamArrive (x ch k v : Nat) (s : State) : State :=
  let kc : Int := (s.snd.k : Int) - 1
  if (k : Int) ≤ kc then (s.count Reg.SND_STRCNT 15 0).sndOnce 4 ch
  else if kc + 4096 ≤ (k : Int) then (s.count Reg.SND_STRCNT 15 0).sndOnce 5 ch
  else
    let a := s.ringEntry ch k
    let word := v % 2 ^ 24 + k / 4096 % 256 * 2 ^ 24
    (s.portWrite (5 + x) a (leBytes 4 word)).2

/-- The samples of an accepted SOUND frame (R241, R281). -/
def State.deliverSound (h : Hop) (f : Frame) (s : State) : State :=
  let k := f.le 0 8
  let first := f.le 8 1 % 32
  let nch := f.le 9 1
  (List.range (f.le 10 1)).foldl (fun t n =>
    (List.range nch).foldl (fun t c => t.streamArrive (hopPort h) (first + c) (k + n) (f.le (16 + 3 * (n * nch + c)) 3)) t) s

/-- `SOUND_SAMPLES`: a SOUND frame arrives. -/
def execSoundSamples (hop : Hop) (ok : Bool) (f : Frame) (s : State) : Res :=
  if s.frozen then .next s else
  if f.type ≠ 3 then .next s else
  let (acc, t) := s.arrives hop ok f
  if acc then .next (t.deliverSound hop f) else .next t

/-! Rate converters and TDM clocks (R242, R255, R269, R270). -/

/-- The port whose clocks a converter follows: 0 to 15 are the input channels, 16 to 19 the outputs of the target ports. -/
def State.convPort (s : State) (c : Nat) : Nat := if c < 16 then s.f (Reg.TDM_INc c) 1 0 else c - 16

/-- The converter can lock (R269). -/
def State.convCan (s : State) (c : Nat) : Bool :=
  let n := s.convPort c
  if c < 16 then s.bit (Reg.TDM_INc c) 8 && s.tdmOn n && decide (s.f (Reg.TDM_INc c) 7 4 < s.tdmSlots n)
  else s.tdmOn n && s.tdmTarget n

def State.convLocked (s : State) (c : Nat) : Bool := if c < 16 then s.bit Reg.SND_ASRCSTAT c else s.bit (Reg.TDMn_STAT (c - 16)) 1

def State.setConv (c : Nat) (b : Bool) (s : State) : State :=
  if c < 16 then s.setBit Reg.SND_ASRCSTAT c b else s.setBit (Reg.TDMn_STAT (c - 16)) 1 b

/-- `ASRC_LOCK`: LOST of the port clears once its converters have locked again (R270). -/
def execAsrcLock (conv : Fin 20) (s : State) : Res :=
  if s.frozen then .next s else
  if !s.convCan conv.val then .next s else
  let s1 := s.setConv conv.val true
  let n := s.convPort conv.val
  let mine := (List.range 20).filter fun c => s1.convCan c && decide (s1.convPort c = n)
  .next (if mine.all s1.convLocked then s1.setBit (Reg.TDMn_STAT n) 0 false else s1)

/-- A converter loses lock (R242, R255). -/
def State.unlock (c : Nat) (s : State) : State :=
  if s.convLocked c then (s.setConv c false).raise0 stSND 7 else s

/-- `ASRC_UNLOCK`. -/
def execAsrcUnlock (conv : Fin 20) (s : State) : Res :=
  if s.frozen then .next s else
  .next (s.unlock conv.val)

/-- `TDM_FS_EDGE`: an FS edge after `count` BCLKs (R270). -/
def execTdmFsEdge (port : Fin 4) (count : Nat) (s : State) : Res :=
  if s.frozen then .next s else
  if s.tdmOn port.val && s.tdmTarget port.val && decide (count ≠ s.tdmSlots port.val * s.slotBits port.val) then
    .next (s.count (Reg.TDMn_FSERR port.val) 15 0)
  else .next s

/-- `TDM_LOST` (R270). -/
def execTdmLost (port : Fin 4) (s : State) : Res :=
  if s.frozen then .next s else
  if s.tdmOn port.val && s.tdmTarget port.val then
    let s1 := s.setBit (Reg.TDMn_STAT port.val) 0 true
    .next ((List.range 20).foldl (fun t c => if t.convPort c = port.val then t.unlock c else t) s1)
  else .next s

/-! Writes with an effect of their own, and structure sets. -/

/-- A write of a biquad's A2 word collects the five coefficients for the next block start (R250). -/
def State.biquadWrite (o k : Nat) (v : Word) (s : State) : State :=
  let s1 := s.setReg (Reg.SNDo_BQk_c o k 4) v
  let coef := (List.range 5).map fun c => sw (s1.reg (Reg.SNDo_BQk_c o k c))
  let x := s1.chain o
  match x.biquads[k]? with
  | some b => s1.setChain o { x with biquads := x.biquads.set k { b with next := some coef } }
  | none => s1

/-- A write of SNDo_DELAY: a delay above the limit sets CFGERR once (R251, R526). -/
def State.delayWrite (o : Nat) (v : Word) (s : State) : State :=
  let s1 := s.writeCoded (Reg.SNDo_DELAY o) v
  if s1.maxDelay < s1.f (Reg.SNDo_DELAY o) 10 0 then s1.raise0 stSND 8 else s1

/-- A write of SND_CTRL: EN going to one seeds the dither registers (R253); the TDM ports run with EN (R265). -/
def State.sndCtrlWrite (v : Word) (s : State) : State :=
  let s1 := s.showTdm (s.writeCoded Reg.SND_CTRL v)
  if s1.bit Reg.SND_CTRL 0 && !s.bit Reg.SND_CTRL 0 then
    (List.range 32).foldl (fun t o => t.setChain o { t.chain o with lfsr := wd (1 + o) }) s1
  else s1

/-- A change of RATE96 restarts the Sarabande (R256). -/
def State.sndRestart (s : State) : State :=
  let s1 := (List.range 64).foldl (fun t v =>
    ((t.setVoiceState v 0).setEnv v 0).setBit (Reg.SND_VACTx (v / 32)) (v % 32) false) s
  let s2 := s1.settleNodes fun _ => true
  let s3 := (List.range 32).foldl (fun t o =>
    let x := t.chain o
    t.setChain o { x with biquads := x.biquads.map (fun b => { b with x1 := 0, x2 := 0, y1 := 0, y2 := 0 }), line := [], ahead := [],
                          gain := 0 }) s2
  let k := s3.sampleFrom s3.beam.frame (s3.dotOff s3.beam.pos)
  { s3 with snd := { s3.snd with k := k, block := [], buses := [], fed := 0 } }

/-- The Sarabande and the renderer adopt their structure registers: each reserved mode and width among the settings so made active, and each delay
above the limit of a changed rate, sets CFGERR (R249, R256, R526, Table 9.10). -/
def State.adoptSound (s : State) : State :=
  if !(s.stagedIn 9 || s.stagedIn 10) then s else
  let t := s.adopt fun a => decide (blockOf a = 9) || decide (blockOf a = 10)
  let t1 := if t.zcOn then t else t.settleNodes fun _ => true
  let rate := decide (s.fs ≠ t1.fs)
  let t2 := if rate then t1.sndRestart else t1
  let bad := ((List.range 32).map fun o =>
    let c := Reg.SNDo_OCTRL o
    let new := decide (s.reg c ≠ t2.reg c)
    b2n (new && decide (t2.f c 1 0 = 3)) + b2n (new && decide (t2.f c 3 2 = 3))
      + b2n (rate && decide (t2.maxDelay < t2.f (Reg.SNDo_DELAY o) 10 0))).sum
  let t3 := t2.raiseEach stSND 8 bad
  s.showTdm ((List.range 20).foldl (fun u c => if u.convCan c then u else u.unlock c) t3)

end Sys2Proof.Machine
end

