-- ==== Sys2Proof/Machine/Aketh.lean ====
section
/-! DEFINITION. The Aketh link: training, keys, link control blocks, breaks, the census, and the SCENE and PLANE frames that
end at the station (R273 to R309). -/

namespace Sys2Proof.Machine

/-- A SEC_STAT bit is set: it fires source 184 and logs its code of Table 19.6 (R464). -/
def State.secRaise (bit code : Nat) (a0 a2 a3 : Word) (s : State) : State :=
  let s1 := s.setBit Reg.SEC_STAT bit true
  (s1.logEvent code a0 (s1.reg Reg.SEC_STAT) a2 a3).arrive 184

/-! Training (R282 to R286). -/

def State.akEn (s : State) (h : Hop) : Bool := s.bit (Reg.AKx_CTRL (hopPort h)) 0

/-- The station's census entry, and a CENSUS frame (R286). -/
def State.myEntry (s : State) : CEntry :=
  let v := fun (h : Hop) => if s.hopUp h then s.hopVer h else 0
  ⟨s.stationId, v .ringA, v .ringB, s.f (linkReg .ringA) 27 20, s.f (linkReg .ringB) 27 20⟩

def entryBytes (e : CEntry) : List Byte := leBytes 8 (e.id + e.verA * 2 ^ 16 + e.verB * 2 ^ 18 + e.featA * 2 ^ 32 + e.featB * 2 ^ 40)

def entryOf (v : Nat) : CEntry := ⟨v % 2 ^ 14, v / 2 ^ 16 % 4, v / 2 ^ 18 % 4, v / 2 ^ 32 % 256, v / 2 ^ 40 % 256⟩

def censusEntries (f : Frame) : List CEntry := (List.range (f.le 0 1)).map fun i => entryOf (f.le (4 + 8 * i) 8)

/-- A ring head sends a CENSUS that begins with its own entry (R286, log 25). -/
def State.sendCensus (s : State) : State :=
  if s.isRingHead && (s.ringRole 0 || s.ringRole 1) then
    s.inject [] (s.newFrame 4 2 1 (s.ringNo * 64) ([1, 0, 0, 0] ++ entryBytes s.myEntry))
  else s

/-- `CENSUS_SEND`. -/
def execCensusSend (s : State) : Res :=
  if s.frozen then .next s else
  .next s.sendCensus

/-- The hop goes DOWN: what it agreed and counted is gone; a hop that leaves UP sets DOWN, and a ring head whose ring port it is
sends a census (Table 11.6, R286). TURNED stays, and so do the lanes degraded and lost, until they rejoin (R301). -/
def State.downHop (h : Hop) (s : State) : State :=
  let up := s.hopUp h
  let x := s.hop h
  let s1 := s.setHop h { emptyHop with idleVer := x.idleVer, failed := x.failed }
  let s2 := s1.setReg (linkReg h) (s1.reg (linkReg h) &&& 0x100FF000)
  let s3 := (s2.showFill h).noteHops h none
  if !up then s3 else
  let s4 := s3.akRaise h 0
  if hopTrunk h || s4.isEth h then s4 else s4.sendCensus

/-- `LANE_BLOCK_LOCK`: a lane gains block lock; from DOWN the hop goes to SIGNAL (Table 11.6). -/
def execLaneBlockLock (hop : Hop) (lane : Fin 4) (s : State) : Res :=
  if s.frozen then .next s else
  if s.hopOn hop && s.akEn hop && (s.hopLanes hop).contains lane.val && !(s.hop hop).failed then
    let x := s.hop hop
    let s1 := s.setHop hop { x with locked := if x.locked.contains lane.val then x.locked else lane.val :: x.locked }
    .next (if s1.hopState hop = 0 then s1.setHopState hop 1 else s1)
  else .next s

/-- `TRAINING_TIMEOUT`: SIGNAL after 10 ms in which no lane holds lock, or HELLO after 1 ms, falls back to DOWN (Table 11.6). -/
def execTrainingTimeout (hop : Hop) (s : State) : Res :=
  if s.frozen then .next s else
  if (s.hopState hop = 1 ∧ (s.hop hop).locked = []) ∨ s.hopState hop = 3 then .next (s.downHop hop) else .next s

/-- `TRAINING_VERSION_ALTERNATE` (R282, Table 11.10: a trunk never trains at v1). -/
def execTrainingVersionAlternate (hop : Hop) (s : State) : Res :=
  if s.frozen then .next s else
  if s.hopState hop = 0 && s.hopOn hop && s.bit (Reg.AKx_CFG (hopPort hop)) 2 && !hopTrunk hop && !s.isEth hop then
    .next (s.setHop hop { s.hop hop with idleVer := 3 - (s.hop hop).idleVer })
  else .next s

/-- The largest payload the station offers on a hop (R284). -/
def State.offerMaxpay (s : State) (h : Hop) : Nat :=
  if s.isEth h then s.f (Reg.AKx_ETHCFG (hopPort h)) 11 0 else if (s.hop h).idleVer = 1 then 1024 else 2048

def laneMask (l : List Nat) : Nat := (l.eraseDups.map fun i => 2 ^ i).sum

/-- The hop may train on: AKx_CTRL.EN is one (R282). -/
def State.trains (s : State) (h : Hop) (st : Nat) : Bool := decide (s.hopState h = st) && s.akEn h

/-- `ALIGN_DONE`: the hop goes to HELLO and sends its record; `skewed` are the lanes left out (Table 11.6, R284, R426). An Ethernet hop, which
has no link control blocks, comes here from SIGNAL (R306, log 92). -/
def execAlignDone (hop : Hop) (skewed : List (Fin 4)) (s : State) : Res :=
  if s.frozen then .next s else
  if !s.trains hop (if s.isEth hop then 1 else 2) then .next s else
  let x := s.hop hop
  let locked := x.locked.filter fun l => !skewed.any fun k => decide (k.val = l)
  let (n, s1) := s.draw
  let rec_ : Hello := { linkver := 2, feat := 0xFF, id := s.stationId, rxlanes := laneMask locked, maxpay := s.offerMaxpay hop,
                        versions := 3 + 2 * 256 + 2 * 65536 + 2 * 16777216, nonce := Config.random n % 2 ^ 384 }
  let s2 := s1.setHop hop { x with locked := locked, helloSeq := x.tx, helloRec := leNat rec_.bytes, helloAcked := false }
  .next ((s2.setHopState hop 3).transmit hop (s.newFrame 4 0 3 0 rec_.bytes))

/-- The hop enters KEY and sends its KEYX with a fresh key pair (R285, R458). -/
def State.enterKey (h : Hop) (s : State) : State :=
  let (n, t) := (s.setHopState h 4).draw
  let u := t.setHop h { t.hop h with eph := n }
  u.transmit h (u.keyxFrame h n)

/-- A HELLO or KEYX of the training: it comes as the next frame of its series and keeps the rules of R277. Its tag is checked as `ok` says. -/
def State.handshake (sub : Nat) (h : Hop) (ok : Bool) (f : Frame) (s : State) : Bool × State :=
  let x := s.hop h
  if f.type ≠ 4 ∨ f.sub ≠ sub ∨ f.dmode ≠ 3 ∨ f.seq ≠ x.rx % 2 ^ 32 then (false, s)
  else if !ok then (false, (s.count (Reg.AKx_CNT (hopPort h)) 15 0).setHop h { x with nak := true })
  else if !s.frameOk h f then (false, s.dropFrame h)
  else (true, s.setHop h { x with rx := x.rx + 1, nak := false })

/-- IMG_PEERVERA and IMG_PEERVERB read the lower of the two offers of each format (R426). -/
def peerVersions (v : Nat) : Nat :=
  let at_ := fun (i : Nat) => v / 256 ^ i % 256
  min (at_ 0) 3 + 16 * min (at_ 1) 2 + 256 * min (at_ 2) 2 + 4096 * min (at_ 3) 2

/-- Lanes that were degraded or lost are in use again after a retrain (R301). -/
def State.rejoin (h : Hop) (lanes : List Nat) (s : State) : State :=
  lanes.foldl (fun t l =>
    let u := if t.laneBit h 12 l then (t.setLane h 12 l false).akRaise h 2 else t
    if u.laneBit h 16 l then (u.setLane h 16 l false).akRaise h 3 else u) s

/-- `HELLO`: version, features, lanes and MAXPAY are agreed, or the hop returns to DOWN (R284, R307). -/
def execHello (hop : Hop) (ok : Bool) (f : Frame) (s0 : State) : Res :=
  if s0.frozen then .next s0 else
  if !s0.trains hop 3 then .next s0 else
  match s0.handshake 0 hop ok f with
  | (false, s) => .next s
  | (true, s) =>
    let record := f.hello
    let x := s.hop hop
    let v1 := decide (record.linkver = 1)
    let ver := if v1 then 1 else 2
    let common := if s.isEth hop then s.hopLanes hop else (s.hopLanes hop).filter fun l => x.locked.contains l && record.rxlanes.testBit l
    let noVersion := decide (record.linkver = 0) || (v1 && (hopTrunk hop || !s.bit (Reg.AKx_CFG (hopPort hop)) 2))
    if common.isEmpty || noVersion then .next (s.downHop hop) else
    let feat := if v1 then 0 else record.feat % 256
    let r := linkReg hop
    let s1 := ((((s.setF r 5 4 ver).setF r 27 20 feat).setF r 11 8 (laneMask common)).setPeer hop record.id).rejoin hop common
    let s2 := s1.setHop hop { x with peer := some record, maxpay := min record.maxpay (if v1 then 1024 else s.offerMaxpay hop) }
    let s3 := if hopTrunk hop then s2
      else s2.setReg (Reg.IMG_PEERVERx (hopPort hop)) (wd (peerVersions record.versions))
    .next (if s.isEth hop || v1 || x.helloAcked then s3.enterKey hop else s3)

/-- A KEYX signed under `keyid` may be accepted here (R458, Table 19.1). -/
def State.keyAllowed (s : State) (keyid : Nat) : Bool :=
  match s.sec.life with
  | 0 => decide (keyid = 0)
  | 3 => decide (keyid = 0)
  | 4 => false
  | _ => s.sec.fleet.contains keyid

/-- A KEY failure: DOWN with AUTHFAIL, retried after 100 ms, and code 0x306 (R282, R458). -/
def State.keyFail (h : Hop) (keyid : Nat) (s : State) : State :=
  let peer := s.peerId h
  let s1 := (s.akRaise h 1).secRaise 5 0x306 (wd (hopPort h)) (wd peer) (wd keyid)
  let s2 := s1.downHop h
  s2.setHop h { s2.hop h with failed := true }

/-- A RINGSTATE frame's payload (Table 11.5). -/
def State.ringStateData (s : State) (port : Nat) (broken : Bool) : List Byte :=
  [BitVec.ofNat 8 s.ringPos, BitVec.ofNat 8 (port + 2 * b2n broken), BitVec.ofNat 8 s.ringNo] ++ List.replicate 13 0

def State.sendRingState (port out : Nat) (broken : Bool) (s : State) : State :=
  s.injectOn out (s.newFrame 0 6 1 (s.ringNo * 64) (s.ringStateData port broken))

/-- The ingress buffer of a hop in 64-byte units, which the receiver returns as credit after training (R288, log 26). -/
def State.ingressUnits (s : State) (h : Hop) : Nat :=
  if hopTrunk h then 256 else if s.trunkOn (hopPort h) then 1792 else 2048

/-- HKDF of the shared x-coordinate and both NONCEs, the lower ID's first, gives each direction its 36 bytes of key and IV salt, that of the
lower ID first (R285). -/
def State.installKeys (h : Hop) (pub : Nat) (s : State) : State :=
  let x := s.hop h
  let mine := leBytes 48 (x.helloRec / 2 ^ 128)
  let theirs := leBytes 48 (match x.peer with | some p => p.nonce | none => 0)
  let lower := decide (s.stationId < s.peerId h)
  let okm := Config.hkdf (Config.ecdhShared x.eph pub) (if lower then mine ++ theirs else theirs ++ mine)
  let a := okm % 2 ^ 288
  let b := okm / 2 ^ 288 % 2 ^ 288
  s.setHop h { x with txKey := if lower then a else b, rxKey := if lower then b else a,
                      oldKey := if x.replay.isEmpty then none else some (x.txKey, x.tx) }

/-- The hop is UP: the trunk, or a ring hop that heals a break and lets the ring head send a census (R286, R299). -/
def State.comeUp (h : Hop) (peer : PairView) (s : State) : State :=
  let x := s.hop h
  let s1 := (s.setHop h { x with keys := x.keys + 1, credit := 0, owed := s.ingressUnits h, clean := x.locked }).setHopState h 5
  let s2 := if s1.hopVer h = 1 then s1.akRaise h 8 else s1
  let p := hopPort h
  let s3 :=
    if !hopTrunk h && s2.bit (linkReg h) 28 then
      let t := (s2.setBit (linkReg h) 28 false).akRaise h 5
      let t1 := { t with link := { t.link with breaks := t.link.breaks.filter fun b => decide (b ≠ (t.ringPos, p)),
                                               turnDue := t.link.turnDue.filter fun e => decide (e.1 ≠ p) } }
      t1.sendRingState p (1 - p) false
    else s2
  let s4 :=
    if s3.bit Reg.BEAM_PAIR 16 && !hopTrunk h && decide (s3.f Reg.BEAM_PAIR 18 18 = p) then s3.judgePair peer else s3
  if hopTrunk h || s4.isEth h then s4 else s4.sendCensus

/-- `KEYX`: the peer's key agreement arrives; `sigOk` is what checking its signature finds, and `peer` what a split pair's partner shows of
itself (R66, R285, R458). In UP it is a frame like any other of its class. -/
def execKeyx (hop : Hop) (ok : Bool) (f : Frame) (sigOk : Bool) (peer : PairView) (s0 : State) : Res :=
  if s0.frozen then .next s0 else
  let up := s0.hopUp hop
  if !up && !s0.trains hop 4 then .next s0 else
  let (took, s) :=
    if up then
      (if f.type = 4 ∧ f.sub = 1 ∧ f.dmode = 3 then
        (match s0.hopTakes hop ok f with
         | (true, t) => if t.frameOk hop f then (true, t) else (false, t.dropFrame hop)
         | r => r)
       else (false, s0))
    else s0.handshake 1 hop ok f
  if !took then .next s
  else if !sigOk || !s.keyAllowed f.keyId || decide (s.peerId hop = s.stationId) then .next (s.keyFail hop f.keyId)
  else if !up then .next ((s.installKeys hop f.keyPub).comeUp hop peer)
  else
    let s1 := (s.startRekey hop).installKeys hop f.keyPub
    let x := s1.hop hop
    .next (s1.setHop hop { x with keys := x.keys + 1, kp := !x.kp, rekey := false, tx := x.tx % 2 ^ 32, tx0 := x.tx0 % 2 ^ 32 })

/-- `KEY_RETRY`. -/
def execKeyRetry (hop : Hop) (s : State) : Res :=
  if s.frozen then .next s else
  .next (s.setHop hop { s.hop hop with failed := false })

/-- `AKETH_RETRAIN` acts on the hops of the port. -/
def State.retrain (p : Nat) (s : State) : State := (s.downHop (ringHop p)).downHop (trunkHop p)

/-- `AKETH_REKEY`: KEYX leaves on each UP hop of the port. -/
def State.rekey (p : Nat) (s : State) : State :=
  [ringHop p, trunkHop p].foldl (fun t h => if t.hopUp h then t.startRekey h else t) s

/-! Link control blocks (R274, R283, R287, R288, R300). -/

/-- `LCB_SEND`: the hop's lanes each send a link control block; RF while the receiver is down or, before UP, while the peer's blocks carry it
(R283), DROP on lanes that are degraded or lost (R300). `sent` are the 63 blocks that each lane has sent since its last. -/
def execLcbSend (hop : Hop) (sent : List (List (BitVec 66))) (s : State) : Res :=
  if s.frozen then .next s else
  if !s.hopOn hop || s.isEth hop then .next s else
  let x := s.hop hop
  let rf := x.locked.isEmpty || (decide (s.hopState hop ≤ 2) && x.peerRf)
  let credit := if 3 ≤ s.pwr.state then 0 else min x.owed 127
  let one := fun (e : Nat × Nat) =>
    lcbOf e.1 rf (s.laneBit hop 12 e.1 || s.laneBit hop 16 e.1) (crc16 (match sent[e.2]? with | some b => b | none => [])) (x.rx + 65535) x.nak
      credit x.bcnt
  let s1 := s.setHop hop { x with owed := x.owed - credit, bcnt := (x.bcnt + 1) % 4096 }
  .next (s1.emit (.lcb hop ((s.hopLanes hop).zipIdx.map one)))

/-- Every frame kept is sent again, keeping its SEQ, and under the keys of its key phase (R285, R287). -/
def State.resend (h : Hop) (s : State) : State :=
  let x := s.hop h
  x.replay.foldl (fun t f =>
    let (key, sent) := if f.kp = x.kp then (x.txKey, x.tx) else (match x.oldKey with | some k => k | none => (x.txKey, x.tx))
    (t.count (Reg.AKx_CNT (hopPort h)) 31 16).emit (.frame h f (s.wire h f (sent - (sent + 2 ^ 32 - f.seq) % 2 ^ 32) key))) s

/-- `REPLAY_TIMEOUT` (R287). -/
def execReplayTimeout (hop : Hop) (s : State) : Res :=
  if s.frozen then .next s else
  if s.hopUp hop && s.replays hop then .next (s.resend hop) else .next s

/-- The frames up to the one acknowledged leave the replay buffer (R287). -/
def State.acknowledge (h : Hop) (ack : Nat) (s : State) : State :=
  let x := s.hop h
  match x.replay.findIdx? fun f => decide (f.seq % 65536 = ack) with
  | some i =>
    let rest := x.replay.drop (i + 1)
    (s.setHop h { x with replay := rest, oldKey := if rest.any (fun f => decide (f.kp ≠ x.kp)) then x.oldKey else none }).showFill h
  | none => s

/-- A lane goes out of use; a ring hop without a lane left is suspected of a break, another hop goes DOWN (R282, R302). -/
def State.outOfUse (h : Hop) (l : Nat) (s : State) : State :=
  let s1 := s.setLane h 8 l false
  if (s1.lanesUsed h).isEmpty && s1.hopUp h then
    if !hopTrunk h && !s1.isEth h then s1.setHop h { s1.hop h with suspect := true } else s1.downHop h
  else s1

/-- A lane is degraded (R300). -/
def State.degrade (h : Hop) (l : Nat) (s : State) : State :=
  if s.laneBit h 12 l then s else ((s.setLane h 12 l true).akRaise h 2).outOfUse h l

/-- One lane's CRC error is counted in its window (R300). -/
def State.laneError (h : Hop) (l : Nat) (s0 : State) : State :=
  let p := hopPort h
  let s := s0.count (Reg.AKx_LANEl_CRC p l) 15 0
  let x := s.hop h
  let n := (match x.crcWin[l]? with | some v => v | none => 0) + 1
  let s1 := s.setHop h { x with crcWin := x.crcWin.set l n, clean := x.clean.erase l }
  let thr := s.f (Reg.AKx_EPOL p) 7 0
  if thr ≠ 0 ∧ s.f (Reg.AKx_EPOL p) 31 16 ≠ 0 ∧ n = thr ∧ s.laneBit h 8 l = true then s1.degrade h l else s1

/-- `LCB`: a link control block arrives on the lane that its LANE names (R274); `blocks` are the 63 blocks that the lane has received since the
last, over which its CRC is checked. -/
def execLcb (hop : Hop) (block : BitVec 64) (blocks : List (BitVec 66)) (s : State) : Res :=
  if s.frozen then .next s else
  let lane := lcbField block 9 8
  let rf := block.getLsbD 10
  if !s.hopOn hop || s.isEth hop || decide (lcbField block 7 0 ≠ 0xE1) || !(s.hopLanes hop).contains lane then .next s else
  let s1 := if lcbField block 27 12 = crc16 blocks then s else s.laneError hop lane
  let s2 := if s1.trains hop 1 && (s1.hop hop).locked.contains lane then s1.setHopState hop 2 else s1
  let s3 := if block.getLsbD 11 && s2.laneBit hop 8 lane then s2.degrade hop lane else s2
  let x := s3.hop hop
  let ring := !hopTrunk hop && s3.hopUp hop
  let s4 := s3.setHop hop { x with peerRf := rf, suspect := if ring then rf || (s3.lanesUsed hop).isEmpty else x.suspect,
                                   credit := x.credit + lcbField block 51 45 }
  let y := s4.hop hop
  let ack := lcbField block 43 28
  let s5 :=
    if s4.trains hop 3 && decide (ack = y.helloSeq % 65536) && !y.helloAcked then
      let t := s4.setHop hop { y with helloAcked := true }
      if y.peer.isSome then t.enterKey hop else t
    else s4
  if decide (4 ≤ s5.hopState hop) then
    let s6 := if s5.replays hop then s5.acknowledge hop ack else s5
    let s7 := if block.getLsbD 44 && s6.replays hop then s6.resend hop else s6
    .next (s7.drainAll hop)
  else .next s5

/-- `LCB_MISS`: a ring port suspects its hop (R295). -/
def execLcbMiss (hop : Hop) (s : State) : Res :=
  if s.frozen then .next s else
  if s.hopUp hop && !hopTrunk hop && !s.isEth hop then .next (s.setHop hop { s.hop hop with suspect := true }) else .next s

/-- `PIROUETTE_CONFIRM` (R295). -/
def execPirouetteConfirm (port : Fin 2) (s : State) : Res :=
  if s.frozen then .next s else
  let h := ringHop port.val
  let x := s.hop h
  if !(x.suspect && s.hopUp h && s.ringRole port.val) then .next s else
  let due := x.replay ++ x.wait.map (·.2)
  let s1 := { s with link := { s.link with turnDue := s.link.turnDue ++ [(port.val, due)],
                                           breaks := (s.ringPos, port.val) :: s.link.breaks } }
  let s2 := ((s1.downHop h).setBit (linkReg h) 28 true).akRaise h 4
  .next (s2.sendRingState port.val (1 - port.val) true)

/-- `TURNAROUND`: the dead hop's frames leave on the other port with WRAP one higher (R291, R296). -/
def execTurnaround (port : Fin 2) (s : State) : Res :=
  if s.frozen then .next s else
  match s.link.turnDue.find? fun e => decide (e.1 = port.val) with
  | none => .next s
  | some e =>
    let s1 := { s with link := { s.link with turnDue := s.link.turnDue.erase e } }
    let out := ringHop (1 - port.val)
    .next (e.2.foldl (fun t f => if f.wrap + 1 ≥ 3 || !t.hopUp out then t else t.put out true { f with wrap := f.wrap + 1 }) s1)

/-- A RINGSTATE accepted: the break is known or forgotten, and a ring head sends a census (R286, R296). -/
def State.deliverRingState (f : Frame) (s : State) : State :=
  let key := (f.le 0 1 % 64, f.le 1 1 % 2)
  let broken := (f.le 1 1).testBit 1
  if f.le 2 1 ≠ s.ringNo then s else
  let rest := s.link.breaks.filter fun b => decide (b ≠ key)
  ({ s with link := { s.link with breaks := if broken then key :: rest else rest } } : State).sendCensus

/-- `RINGSTATE`. -/
def execRingstate (hop : Hop) (ok : Bool) (f : Frame) (s : State) : Res :=
  if s.frozen then .next s else
  if f.type ≠ 0 ∨ f.sub ≠ 6 then .next s else
  let (acc, t) := s.arrives hop ok f
  if acc then .next (t.deliverRingState f) else .next t

/-! Lane windows (R300, R301). -/

/-- `LANE_LOST`: a lane has lost block lock for four LCB periods. -/
def execLaneLost (hop : Hop) (lane : Fin 4) (s : State) : Res :=
  if s.frozen then .next s else
  if !(s.hopLanes hop).contains lane.val || s.laneBit hop 16 lane.val then .next s else
  let x := s.hop hop
  let s1 := s.setHop hop { x with locked := x.locked.erase lane.val, clean := x.clean.erase lane.val }
  if s1.hopUp hop && s1.laneBit hop 8 lane.val then
    .next ((((s1.setLane hop 16 lane.val true).akRaise hop 3)).outOfUse hop lane.val)
  else .next s1

/-- A window of lane counts starts: no error counted, and the lanes now in lock may hold through it. -/
def State.laneWindow (h : Hop) (s : State) : State := s.setHop h { s.hop h with crcWin := [0, 0, 0, 0], clean := (s.hop h).locked }

/-- `LANE_CRC_WINDOW_END`: lost lanes that held lock through the window without an error rejoin (R301). -/
def execLaneCrcWindowEnd (port : Fin 2) (s : State) : Res :=
  if s.frozen then .next s else
  let one := fun (t : State) (h : Hop) =>
    let back := (t.hopLanes h).filter fun l => t.laneBit h 16 l && (t.hop h).clean.contains l
    let t1 := back.foldl (fun u l => ((u.setLane h 16 l false).setLane h 8 l true).akRaise h 3) t
    t1.laneWindow h
  .next (one (one s (ringHop port.val)) (trunkHop port.val))

/-- A write of AKx_EPOL restarts the windows (R300, R76). -/
def State.epolWrite (p : Nat) (v : Word) (s : State) : State :=
  ((s.writeCoded (Reg.AKx_EPOL p) v).laneWindow (ringHop p)).laneWindow (trunkHop p)

/-- AKx_CTRL.LANERETRY: degraded lanes rejoin (R301). -/
def State.laneRetry (p : Nat) (s : State) : State :=
  [ringHop p, trunkHop p].foldl (fun t h =>
    ((t.hopLanes h).filter fun l => t.laneBit h 12 l).foldl (fun u l =>
      ((u.setLane h 12 l false).setLane h 8 l true).akRaise h 2) t) s

/-! The census (R46, R286). -/

/-- A DONE census gives positions, versions and features, and empties acceptance entries (R286); the station checks itself
(R46), and IMG_RINGFMT follows (R426). -/
def State.adoptCensus (f : Frame) (s : State) : State :=
  let es := censusEntries f
  let idAt := fun (l : List CEntry) (p : Nat) => (l.find? (fun e => decide (e.id % 64 = p))).map CEntry.id
  let keep := fun (p : Nat) =>
    (idAt es p).isSome && (s.link.census.isEmpty || decide (idAt es p = idAt s.link.census p))
  let bad := decide (f.src / 64 ≠ s.ringNo) || s.link.dup
  let v1 := es.any fun e => decide (e.verA = 1) || decide (e.verB = 1)
  let s1 := { s with link := { s.link with census := es, closed := (f.le 1 1).testBit 0, breaks := [],
                                           accepted := s.link.accepted.filter fun a => keep a.1 },
                     sig := { s.sig with misplaced := bad } }
  let s2 := s1.setF Reg.IMG_RINGFMT 1 0 (if v1 then 1 else 2)
  if bad then s2.raise0 stBEAMW 0 else s2

/-- The census with the station's entry appended; an entry with its ID already there means that the ID is repeated (R46). -/
def State.appendCensus (f : Frame) (s : State) : Frame × State :=
  let n := f.le 0 1
  let dup := (censusEntries f).any fun e => decide (e.id = s.stationId)
  ({ f with data := BitVec.ofNat 8 (n + 1) :: f.data.drop 1 ++ entryBytes s.myEntry }, { s with link := { s.link with dup := dup } })

/-- `CENSUS`: a census arrives on a ring port (R286). -/
def execCensus (hop : Hop) (ok : Bool) (f : Frame) (s : State) : Res :=
  if s.frozen then .next s else
  if f.type ≠ 4 ∨ f.sub ≠ 2 ∨ hopTrunk hop = true then .next s else
  match s.hopTakes hop ok f with
  | (false, t) => .next t
  | (true, t) =>
    if !t.frameOk hop f then .next (t.dropFrame hop) else
    let p := hopPort hop
    let done := (f.le 1 1).testBit 1
    if t.isRingHead && decide (f.rsrc = t.ringPos) && decide (f.src = t.stationId) then
      if f.wrap = 1 ∧ t.hopUp (ringHop (1 - p)) = true then .next (t.put (ringHop (1 - p)) true f)
      else if done then .next t
      else
        let flags := 2 + b2n (decide (f.wrap = 0))
        let g := { f with data := f.data.take 1 ++ [BitVec.ofNat 8 flags] ++ f.data.drop 2 }
        .next ((t.adoptCensus g).inject [] (t.newFrame 4 2 1 (t.ringNo * 64) g.data))
    else
      let (acc, u) := t.acceptRing f
      if !acc then .next (u.passRing p f)
      else if done then .next ((u.adoptCensus f).passRing p f)
      else
        let (g, w) := u.appendCensus f
        .next (w.passRing p g)

/-! Content frames (R279, R280). -/

/-- Bytes are written word by word through a port; an error response ends them (R279). Answers whether all were made. -/
def State.writeRun (port : Nat) : Nat → Nat → List Byte → State → Bool × State
  | 0, _, _, s => (true, s)
  | fuel + 1, a, bs, s =>
    if bs.isEmpty then (true, s) else
    let n := 16 - a % 16
    match s.portWrite port a (bs.take n) with
    | (0, t) => State.writeRun port fuel (a + n) (bs.drop n) t
    | (_, t) => (false, t)

def State.werr (h : Hop) (made : Bool) (s : State) : State := if made then s else s.akRaise h 6

/-- NOTIFY: the TAG is shown and the scene interrupt raised (R117, R279, Table 6.7). -/
def State.sceneNotify (h : Hop) (f : Frame) (s : State) : State :=
  if !f.notify then s else
  let p := hopPort h
  ((s.setReg (Reg.AKx_SCENETAG p) (wd (f.le 4 4))).arrive (126 + p)).fireEvent (5 + p)

/-- The writes of an accepted SCENE frame. -/
def State.deliverScene (h : Hop) (f : Frame) (s : State) : State :=
  let data := if f.sub = 0 then f.data.drop 8 else (List.replicate (f.le 8 4) ((f.data.drop 16).take 16)).flatten
  let (made, t) := s.writeRun (5 + hopPort h) (data.length / 16 + 2) (f.le 0 4) data
  (t.werr h made).sceneNotify h f

/-- A SCENE frame arrives. -/
def State.sceneFrame (h : Hop) (ok : Bool) (f : Frame) (s : State) : State :=
  let (acc, t) := s.arrives h ok f
  if acc then t.deliverScene h f else t

/-- `SCENE_WRITE`. -/
def execSceneWrite (hop : Hop) (ok : Bool) (f : Frame) (s : State) : Res :=
  if s.frozen then .next s else
  if f.type = 1 ∧ f.sub = 0 then .next (s.sceneFrame hop ok f) else .next s

/-- `SCENE_FILL`. -/
def execSceneFill (hop : Hop) (ok : Bool) (f : Frame) (s : State) : Res :=
  if s.frozen then .next s else
  if f.type = 1 ∧ f.sub = 1 then .next (s.sceneFrame hop ok f) else .next s

/-- A PLANE segment for slot `n`, whose PLANEID it carries: answers whether the slot's rules admit it (R118, R280). -/
def State.planeSegment (h : Hop) (n : Nat) (f : Frame) (s : State) : Bool × State :=
  let pnum := f.le 2 2
  let line := f.le 4 2
  let off := f.le 8 4
  let data := f.data.drop 16
  let rb := s.rowBytes n
  if s.f (Reg.LAYn_Bb_SIZE1 n (s.front n)) 28 16 ≤ line ∨ rb < off + data.length then (false, s) else
  let l := s.layer n
  let d := match l.lastTag with | some r => (pnum + 65536 - r) % 65536 | none => 1
  let s1 := if l.lastTag.isNone || (decide (1 ≤ d) && decide (d ≤ 32767)) then s.newPlane n pnum else s
  let l1 := s1.layer n
  if l1.fillTag ≠ some pnum then (true, s1) else
  match s1.fillingBuf n with
  | none => (true, s1)
  | some i =>
    let a := s1.bufAddr n i + line * s1.f (Reg.LAYn_Bb_STRIDE n (s1.front n)) 15 0 + off
    let (made, s2) := s1.writeRun (5 + hopPort h) (data.length / 16 + 2) a data
    let s3 := s2.werr h made
    if !made then (true, s3) else
    let l3 := s3.layer n
    let left := l3.fillLeft - data.length
    let s4 := s3.setLayer n { l3 with fillLeft := left }
    if left = 0 then (true, (s4.planeDone n).fireEvent (7 + n)) else (true, s4)

/-- An accepted PLANE frame is written for each slot that takes its PLANEID; with none it is discarded (R280, R277). -/
def State.deliverPlane (h : Hop) (f : Frame) (s : State) : State :=
  let slots := (List.range 12).filter fun n => s.streamed n && decide (s.f (Reg.LAYn_Bb_SIZE0 n (s.front n)) 15 0 = f.le 0 2)
  let (took, t) := slots.foldl (fun (acc : Bool × State) n =>
    let (a, u) := acc.2.planeSegment h n f
    (acc.1 || a, u)) (false, s)
  if took then t else t.dropFrame h

/-- `PLANE_SEGMENT`. -/
def execPlaneSegment (hop : Hop) (ok : Bool) (f : Frame) (s : State) : Res :=
  if s.frozen then .next s else
  if f.type ≠ 2 then .next s else
  let (acc, t) := s.arrives hop ok f
  if acc then .next (t.deliverPlane hop f) else .next t

end Sys2Proof.Machine
end

