-- ==== Sys2Proof/Machine/Blk.lean ====
section
/-! DEFINITION. The block engine: its queue, its operations and their order, and how a job ends (R371 to R379). -/

namespace Sys2Proof.Machine

/-- Status bit `i` of BLK_STAT is set: ERR, JOBERR, QFULL and CLIPMM log an event, ERR and JOBERR fire source 165 (R378, R379). -/
def State.blkRaise (i : Nat) (s : State) : State :=
  let s1 := s.setBit Reg.BLK_STAT i true
  let s2 := if i = 2 ∨ i = 3 ∨ i = 4 ∨ i = 6 then
    s1.logEvent (0x1C0 + i) 0 (s1.reg Reg.BLK_STAT) (s1.reg Reg.BLK_EADDR) (s1.reg Reg.BLK_ESTAT) else s1
  if i = 2 ∨ i = 3 then s2.arrive 165 else s2

/-- The job the J registers describe (Table 14.8). -/
def State.blkJob (s : State) : BlkJob :=
  { ctrl := s.reg Reg.BLK_JCTRL, src := (s.reg Reg.BLK_JSRC).toNat, dst := (s.reg Reg.BLK_JDST).toNat,
    sstride := s.f Reg.BLK_JSSTRIDE 19 0, dstride := s.f Reg.BLK_JDSTRIDE 19 0, w := s.f Reg.BLK_JSIZE 12 0,
    h := s.f Reg.BLK_JSIZE 28 16, fill := (s.reg Reg.BLK_JFILL).toNat + 2 ^ 32 * (s.reg Reg.BLK_JFILLHI).toNat,
    key := (s.reg Reg.BLK_JKEY).toNat, keymask := (s.reg Reg.BLK_JKEYMASK).toNat, wm := s.f Reg.BLK_JWM 15 0 }

def BlkJob.op (j : BlkJob) : Nat := fld j.ctrl 2 0
/-- The bytes of a destination pixel, and of a source pixel (R372). -/
def BlkJob.p (j : BlkJob) : Nat := 2 ^ fld j.ctrl 4 3
def BlkJob.ps (j : BlkJob) : Nat := if j.op = 3 then 1 else j.p

/-- BLK_QSTAT shows the queue (Table 14.8). -/
def State.blkShow (s : State) : State :=
  let held := match s.blk.queue with
    | j :: _ => bitAt j.ctrl 7 && !s.blk.freed
    | [] => false
  s.setReg Reg.BLK_QSTAT (wd (s.blk.queue.length + 16 * b2n s.blk.run.isSome + 32 * b2n held))

def State.setBlk (b : BlkSt) (s : State) : State := (({ s with blk := b } : State)).blkShow

/-- A push copies the J registers into the queue, or is discarded (R371). -/
def State.blkPush (s : State) : State :=
  if s.blk.queue.length < 8 then s.setBlk { s.blk with queue := s.blk.queue ++ [s.blkJob] } else s.blkRaise 4

/-- A release of a held job at the head of the queue (R371). -/
def State.blkRelease (s : State) : State :=
  match s.blk.queue with
  | j :: _ => if bitAt j.ctrl 7 ∧ s.blk.freed = false then s.setBlk { s.blk with freed := true } else s.blkRaise 5
  | [] => s.blkRaise 5

/-- ERR or JOBERR is cleared: the next queued job may start (R378). -/
def State.blkClear (v : Word) (s : State) : State :=
  let s1 := s.writeCoded Reg.BLK_STAT v
  if bitAt v 2 ∨ bitAt v 3 then s1.setBlk { s1.blk with waits := false } else s1

/-- The cause of a job error, 0 for none (R378; the lowest code where several hold). -/
def BlkJob.kind (j : BlkJob) : Nat :=
  let last := fun (base stride size : Nat) => base + (j.h - 1) * stride + (j.w - 1) * size + (size - 1)
  let noSrc := decide (j.op = 1)
  let out := fun (base stride size : Nat) => !inSram base || !inSram (last base stride size)
  if j.op ≥ 5 then 1
  else if (!noSrc && (decide (j.src % j.ps ≠ 0) || decide (j.sstride % j.ps ≠ 0))) || decide (j.dst % j.p ≠ 0)
      || decide (j.dstride % j.p ≠ 0) then 2
  else if (j.op = 2 ∧ fld j.ctrl 4 3 = 3) ∨ (j.op = 3 ∧ fld j.ctrl 4 3 ≠ 3) then 3
  else if j.w ≠ 0 ∧ j.h ≠ 0 ∧ ((!noSrc && out j.src j.sstride j.ps) || out j.dst j.dstride j.p) = true then 4
  else if bitAt j.ctrl 9 ∧ fld j.ctrl 13 10 > 11 then 5
  else 0

/-- The running job is complete (R378). -/
def State.blkComplete (j : BlkJob) (s : State) : State :=
  let s1 := ((s.setBlk { s.blk with run := none }).count Reg.BLK_CNT 15 0).blkRaise 0
  let s2 := if bitAt j.ctrl 8 then s1.arrive 163 else s1
  if bitAt j.ctrl 9 then s2.signalFence (fld j.ctrl 13 10) else s2

/-- The clip pair is taken at the start of a job, or the last good pair is kept (R377). -/
def State.blkClip (s : State) : State :=
  let lo := (s.reg Reg.BLK_CLIPLO).toNat
  let hi := (s.reg Reg.BLK_CLIPHI).toNat
  if lo ≤ hi then ({ s with blk := { s.blk with clip := (lo, hi) } } : State).matched 11
  else (s.mismatch 11).blkRaise 6

/-- `BLK_JOB_START`: the head job starts after its checks, or sets JOBERR and is not run. -/
def execBlkJobStart (s : State) : Res :=
  if s.frozen then .next s else
  match s.blk.queue with
  | [] => .next s
  | j :: rest =>
    if !s.bit Reg.BLK_CTRL 0 || s.blk.run.isSome || s.blk.waits || (bitAt j.ctrl 7 && !s.blk.freed) then .next s
    else
      let s1 := (s.setBlk { s.blk with queue := rest, freed := false }).blkClip.setReg Reg.BLK_ROWS 0
      if j.kind ≠ 0 then
        .next ((s1.setF Reg.BLK_ESTAT 6 4 j.kind).setBlk { s1.blk with waits := true } |>.blkRaise 3)
      else
        let s2 := s1.setBlk { s1.blk with run := some j, row := 0, px := 0, ready := true, err := none }
        .next (if j.w = 0 ∨ j.h = 0 then s2.blkComplete j else s2)

/-- The pixels of the next burst: row and columns, in programmed order (R373). -/
def BlkJob.burst (j : BlkJob) (row px : Nat) : Nat × List Nat :=
  let y := if bitAt j.ctrl 6 then j.h - 1 - row else row
  let k := min 16 (j.w - px)
  (y, (List.range k).map fun i => if bitAt j.ctrl 5 then j.w - 1 - (px + i) else px + i)

/-- A read of one pixel of main SRAM through port BLK, unless an error stops the job. -/
def State.blkRead (a n : Nat) (acc : Option (Nat × Nat) × State) : Nat × Option (Nat × Nat) × State :=
  match acc with
  | (some e, s) => (0, some e, s)
  | (none, s) =>
    let (c, bs, t) := s.sramReadBytes 9 a n
    (leNat bs, if c = 0 then none else some (c, a), t)

/-- The value an operation gives a pixel, or none where it is not written, with the accesses it makes (Table 14.5). -/
def BlkJob.pixel (j : BlkJob) (sa da : Nat) (acc : Option (Nat × Nat) × State) : Option Nat × Option (Nat × Nat) × State :=
  match j.op with
  | 1 => (some (j.fill % 256 ^ j.p), acc)
  | 2 =>
    let (v, r) := State.blkRead sa j.p acc
    (if v &&& j.keymask = j.key &&& j.keymask then none else some v, r)
  | 3 =>
    let (v, r) := State.blkRead sa 1 acc
    match r with
    | (some e, t) => (none, some e, t)
    | (none, t) =>
      let k := 0x20000000 + 8 * (fld j.ctrl 19 14 * 256 + v)
      let (c, t1) := t.eccRead k 34
      if c ≠ 0 then (none, some (c, k), t1.errResponse 9 k c false)
      else (if bitAt j.ctrl 24 ∧ v = 0 then none else some (t1.le k 8), none, t1)
  | 4 =>
    let (v, r) := State.blkRead sa j.p acc
    let (d, r2) := State.blkRead da j.p r
    (some ((List.range (8 * j.p)).foldl (fun n b =>
      n + (if (fld j.ctrl 23 20).testBit (2 * b2n (v.testBit b) + b2n (d.testBit b)) then 2 ^ b else 0)) 0), r2)
  | _ =>
    let (v, r) := State.blkRead sa j.p acc
    (some v, r)

/-- `BLK_BURST`: every pixel of the burst is read, then every pixel inside the clip bounds is written (R372, R374, R377). The next
burst waits for the dead time (R375). -/
def execBlkBurst (s : State) : Res :=
  if s.frozen then .next s else
  match s.blk.run with
  | none => .next s
  | some j =>
    if !s.blk.ready || s.blk.err.isSome || decide (s.blk.row = j.h) then .next s else
    let (y, cols) := j.burst s.blk.row s.blk.px
    let sa := fun i => j.src + y * j.sstride + i * j.ps
    let da := fun i => j.dst + y * j.dstride + i * j.p
    let read := cols.foldl (fun (acc : List (Nat × Option Nat) × Option (Nat × Nat) × State) i =>
      match acc with
      | (vs, r) =>
        let (v, r1) := j.pixel (sa i) (da i) r
        (vs ++ [(da i, v)], r1)) ([], none, s)
    match read with
    | (_, some e, t) => .next { t with blk := { t.blk with err := some e } }
    | (vs, none, t) =>
      let (e, t1) := vs.foldl (fun (acc : Option (Nat × Nat) × State) p =>
        match acc, p.2 with
        | (none, u), some v =>
          if t.blk.clip.1 ≤ p.1 ∧ p.1 + j.p ≤ t.blk.clip.2 + 1 then
            let (c, u1) := u.sramWriteBytes 9 p.1 (leBytes j.p v)
            (if c = 0 then none else some (c, p.1), u1)
          else (none, u)
        | a, _ => a) (none, t)
      let px := t1.blk.px + cols.length
      let whole := decide (px = j.w)
      let ready := decide (t1.f Reg.BLK_DEAD 7 0 = 0)
      .next (match e with
        | some _ => { t1 with blk := { t1.blk with err := e } }
        | none => { t1 with blk := { t1.blk with px := if whole then 0 else px, row := if whole then t1.blk.row + 1 else t1.blk.row, ready := ready } })

/-- `BLK_DEAD_END`: the dead time after a burst is over (R375). -/
def execBlkDeadEnd (s : State) : Res :=
  if s.frozen then .next s else
  .next (if s.blk.run.isSome then { s with blk := { s.blk with ready := true } } else s)

/-- `BLK_ROW_DONE`: a row whose last burst has been written is done; the watermark acts, and after the last row the job is
complete (R376, R378). -/
def execBlkRowDone (s : State) : Res :=
  if s.frozen then .next s else
  match s.blk.run with
  | none => .next s
  | some j =>
    let n := s.f Reg.BLK_ROWS 15 0
    if n < s.blk.row then
      let s1 := s.setF Reg.BLK_ROWS 15 0 (n + 1)
      let s2 := if j.wm ≠ 0 ∧ n + 1 = j.wm then (s1.blkRaise 1).arrive 164 else s1
      .next (if n + 1 = j.h then s2.blkComplete j else s2)
    else .next s

/-- `BLK_ERROR_STOP`: the error response of an access stops the job, without its completion acts (R378). -/
def execBlkErrorStop (s : State) : Res :=
  if s.frozen then .next s else
  match s.blk.run, s.blk.err with
  | some _, some (c, a) =>
    let s1 := (s.setF Reg.BLK_ESTAT 2 0 c).setReg Reg.BLK_EADDR (wd a)
    .next ((s1.setBlk { s1.blk with run := none, err := none, waits := true }).blkRaise 2)
  | _, _ => .next s

end Sys2Proof.Machine
end

