-- ==== Sys2Proof/Machine/Irq.lean ====
section
/-! DEFINITION. The interrupt controller, the timers and the watchdogs (R380 to R398). -/

namespace Sys2Proof.Machine

/-! Sources and presentation. -/

/-- The target a source is routed to: its own for a private source, the Allemande for source 184, TGT for the others
(R380, R381). -/
def State.targetOf (s : State) (n : Nat) : Nat :=
  if n < 96 then n / 32 else if n = 184 then 2 else s.f (Reg.IRQ_SRCs n) 5 4

/-- The source is requesting (R382, R383). -/
def State.requesting (s : State) (n : Nat) : Bool :=
  let a := Reg.IRQ_SRCs n
  !s.bit a 17 && (if s.bit a 6 then s.bit a 16 else decide (s.f a 15 8 ≠ 0))

def State.priOf (s : State) (n : Nat) : Nat := s.f (Reg.IRQ_SRCs n) 3 0

/-- The source presented to target `t`: the highest priority, then the lowest number (R384). -/
def State.presented (s : State) (t : Nat) : Option Nat :=
  if !s.bit Reg.IRQ_CTRL 0 then none else
  let ok := (List.range 256).filter fun n =>
    decide (s.targetOf n = t) && s.bit (Reg.IRQ_SRCs n) 7 && decide (s.priOf n ≠ 0) && s.requesting n
  let top := ok.foldl (fun m n => max m (s.priOf n)) 0
  ok.find? fun n => decide (s.priOf n = top)

/-- The acknowledgement of target `t` for a request of level `lvl`: the vector address and the source made active, if any
(R384, R385). -/
def State.takeVector (t lvl : Nat) (s : State) : Nat × Nat × State :=
  let base := s.f (Reg.IRQ_VBASEt t) 31 12 * 4096
  match s.presented t with
  | none => (base + 0xFF0, lvl, s)
  | some n =>
    let a := Reg.IRQ_SRCs n
    let s1 := if s.bit a 6 then s.setBit a 16 false else s.setF a 15 8 (s.f a 15 8 - 1)
    let s2 := s1.setBit a 17 true
    (base + 16 * n, s.priOf n, { s2 with irq := { s2.irq with active := (t, s.priOf n, n) :: s2.irq.active } })

/-- A completion at the live level of target `t` (R386). -/
def State.completeIrq (t lvl : Nat) (s : State) : State :=
  match s.irq.active.find? fun e => decide (e.1 = t) && decide (e.2.1 = lvl) with
  | none => s
  | some e =>
    ({ s with irq := { s.irq with active := s.irq.active.erase e } } : State).setBit (Reg.IRQ_SRCs e.2.2) 17 false

/-- IRQ_ACTt and IRQ_CURt (R385, Table 15.2). -/
def State.irqAct (s : State) (t : Nat) : Word :=
  s.irq.active.foldl (fun w e => if e.1 = t then putBit w e.2.1 true else w) 0

def State.irqCur (s : State) (t : Nat) : Word :=
  let mine := s.irq.active.filter fun e => decide (e.1 = t)
  let top := mine.foldl (fun m e => max m e.2.1) 0
  match mine.find? fun e => decide (e.2.1 = top) with
  | some e => wd (top + 256 * e.2.2 + 2 ^ 16)
  | none => 0

/-- IRQ_SRCs as a read shows it: TGT of a private source and of source 184 is fixed, COAL shows a coalescer (Table 15.3). -/
def State.irqSrc (s : State) (n : Nat) : Word :=
  let w := setFld (s.reg (Reg.IRQ_SRCs n)) 5 4 (s.targetOf n)
  putBit w 18 (s.coalOf n).isSome

/-- A write to IRQ_SRCs: PRI, TGT where it is not fixed, EN, and FB, which converts the source's state (R381, R383). -/
def State.writeSrc (n : Nat) (v : Word) (s : State) : State :=
  let a := Reg.IRQ_SRCs n
  let old := s.reg a
  let s1 := (s.setF a 3 0 (fld v 3 0)).setBit a 7 (bitAt v 7)
  let s2 := if n < 96 ∨ n = 184 then s1 else s1.setF a 5 4 (fld v 5 4)
  if bitAt v 6 ∧ bitAt old 6 = false then
    ((s2.setBit a 6 true).setBit a 16 (decide (fld old 15 8 ≠ 0) || bitAt old 16)).setF a 15 8 0
  else if bitAt v 6 = false ∧ bitAt old 6 then
    ((s2.setBit a 6 false).setF a 15 8 (b2n (bitAt old 16))).setBit a 16 false
  else s2

/-- A write to IRQ_CLR (R382). -/
def State.irqClear (v : Word) (s : State) : State :=
  let a := Reg.IRQ_SRCs (fld v 7 0)
  (s.setF a 15 8 0).setBit a 16 false

/-- A write to IRQ_RAISE is one arrival (R382). -/
def State.irqRaise (v : Word) (s : State) : State := s.arrive (fld v 7 0)

/-! Coalescers (R387). -/

/-- The coalescers that hold arrivals, each with the source it holds them for. -/
def State.holders (s : State) : List (Nat × Nat) :=
  (List.range 16).filterMap fun k =>
    if s.f (Reg.IRQ_COALk_HELD k) 7 0 ≠ 0 then some (k, s.f (Reg.IRQ_COALk_CFG k) 7 0) else none

/-- A write to a coalescer's configuration: a coalescer that holds arrivals and no longer acts for its source delivers one at
once (R387). -/
def State.writeCoal (k : Nat) (v : Word) (s : State) : State :=
  let s1 := s.setReg (Reg.IRQ_COALk_CFG k) (v &&& 0x1FFFF)
  s.holders.foldl (fun t e => if t.coalOf e.2 = some e.1 then t else t.coalDeliver e.1 e.2) s1

/-- `COALESCER_TIMEOUT`: TIME µs after the first arrival it holds, the coalescer delivers one. -/
def execCoalescerTimeout (k : Fin 16) (s : State) : Res :=
  let n := s.f (Reg.IRQ_COALk_CFG k.val) 7 0
  if s.coalOf n = some k.val ∧ s.f (Reg.IRQ_COALk_TIME k.val) 15 0 ≠ 0 ∧ s.f (Reg.IRQ_COALk_HELD k.val) 7 0 ≠ 0 then
    .next (s.coalDeliver k.val n)
  else .next s

/-- `WAKE_SLOT_EVENT`: while the controller is not clocked, the source of an armed slot fires (R388). -/
def execWakeSlotEvent (k : Fin 32) (s : State) : Res :=
  if s.pwr.state ≠ 0 ∧ s.bit (Reg.IRQ_WAKEk k.val) 8 = true then
    .next { (s.setBit Reg.IRQ_WAKESTAT k.val true) with
      irq := { s.irq with wakePend := putBit s.irq.wakePend k.val true },
      pwr := { s.pwr with waking := true } }
  else .next s

/-- After a wake each slot that fired delivers exactly one arrival (R388). -/
def State.deliverWakes (s : State) : State :=
  let s1 := { s with irq := { s.irq with wakePend := 0 } }
  (bitsOf s.irq.wakePend).foldl (fun t k => t.arriveAwake (t.f (Reg.IRQ_WAKEk k) 7 0)) s1

/-! Timers. -/

/-- An event of timer `n` that TMRn_IEN may enable: bit 0 OVF, 1 MATCH, 2 CAPF (R398). -/
def State.timerIrq (n bit : Nat) (s : State) : State := if s.bit (Reg.TMRn_IEN n) bit then s.arrive (167 + n) else s

/-- A master event of timer `n`: its slaves act on it in the following FCLK (R393). `ev` is the event, as TRGO codes it. -/
def State.masterEvent (n ev : Nat) (s : State) : State :=
  if s.f (Reg.TMRn_CTRL n) 27 26 ≠ ev then s else
  let slaves := (List.range 16).filter fun m =>
    decide (m ≠ n) && decide (s.f (Reg.TMRn_CTRL m) 25 22 = n)
      && (decide (s.f (Reg.TMRn_CTRL m) 21 20 = 2) || decide (s.f (Reg.TMRn_CTRL m) 1 0 = 3)) && !s.irq.masterDue.contains m
  { s with irq := { s.irq with masterDue := s.irq.masterDue ++ slaves } }

/-- Timer `n` counts its ticks: it is not stopped, its gate is open and its domain runs (R390, R393). -/
def State.timerRuns (s : State) (n : Nat) : Bool :=
  let c := Reg.TMRn_CTRL n
  let gate := decide (s.f c 21 20 = 1) && decide (s.f c 25 22 ≠ n)
  (s.bit c 2 || decide (s.reg (Reg.TMRn_PER n) ≠ 0)) && !(decide (n = 0) && decide (s.f c 1 0 = 2))
    && (!gate || s.bit (Reg.TMRn_STAT (s.f c 25 22)) 8)
    && (decide (s.pwr.state ≠ 5) || (decide (12 ≤ n) && decide (s.f c 1 0 = 1)))

/-- One tick of timer `n`: the compare value first, then the step, with overflow and match; an overflow steps the next timer of
a chain in the same FCLK (R390 to R392). `k` bounds the chain. -/
def State.timerStep : Nat → Nat → State → State
  | 0, _, s => s
  | k + 1, n, s =>
    if !s.timerRuns n then s else
    let cmp := s.reg (Reg.TMRn_CMP n)
    let s1 := { s with irq := { s.irq with cmpInForce := Sparse.set (fun _ => 0) s.irq.cmpInForce n cmp } }
    let cnt := s.reg (Reg.TMRn_CNT n)
    let full := s.bit (Reg.TMRn_CTRL n) 2
    let last := if full then 0xFFFFFFFF#32 else s.reg (Reg.TMRn_PER n) - 1
    let wraps := decide (cnt = last)
    let new := if wraps then 0 else cnt + 1
    let hit := decide (new = cmp) && (full || decide (cmp.toNat < (s.reg (Reg.TMRn_PER n)).toNat))
    let s2 := s1.setReg (Reg.TMRn_CNT n) new
    let s3 := if wraps then
        (((s2.setBit (Reg.TMRn_STAT n) 0 true).setBit (Reg.TMRn_STAT n) 8 false).timerIrq n 0).masterEvent n 0
      else s2
    let s4 := if hit then
        (((s3.setBit (Reg.TMRn_STAT n) 1 true).setBit (Reg.TMRn_STAT n) 8 true).timerIrq n 1).masterEvent n 1
      else s3
    if wraps ∧ n + 1 < 16 ∧ s4.f (Reg.TMRn_CTRL (n + 1)) 1 0 = 2 then State.timerStep k (n + 1) s4 else s4

/-- `TIMER_TICK`: a tick of timer `n` from the 25 MHz reference or the 32.768 kHz crystal, after its divider (R390). -/
def execTimerTick (n : Fin 16) (s : State) : Res :=
  if decide (n.val < 12) && s.frozen then .next s else
  .next (if s.f (Reg.TMRn_CTRL n.val) 1 0 ≤ 1 then s.timerStep 16 n.val else s)

/-- `TIMER_MASTER_EVENT`: a master event acts on timer `n`: a reset of its count, or a tick (R393). -/
def execTimerMasterEvent (n : Fin 16) (s : State) : Res :=
  if decide (n.val < 12) && s.frozen then .next s else
  if n.val ∈ s.irq.masterDue then
    let s1 := { s with irq := { s.irq with masterDue := s.irq.masterDue.filter fun m => decide (m ≠ n.val) } }
    let c := Reg.TMRn_CTRL n.val
    .next (if s.f c 21 20 = 2 then s1.setReg (Reg.TMRn_CNT n.val) 0
           else if s.f c 1 0 = 3 then s1.timerStep 16 n.val else s1)
  else .next s

/-- A read of TMRn_CNT copies the counts of up to two timers chained above (R392). -/
def State.cntCopies (n : Nat) (s : State) : State :=
  let up := fun m => decide (m < 16) && decide (s.f (Reg.TMRn_CTRL m) 1 0 = 2)
  let one := fun m (t : State) => t.setReg (Reg.TMRn_HOLD m) (t.reg (Reg.TMRn_CNT m))
  if up (n + 1) then
    let s1 := one (n + 1) s
    if up (n + 2) then one (n + 2) s1 else s1
  else s

/-- A write to TMRn_CTRL; CSEL 2 on timer 0, SMODE 3 and a timer that is its own master set CFGERR (R390, R393). -/
def State.writeTimerCtrl (n : Nat) (v : Word) (s : State) : State :=
  let s1 := s.writeCoded (Reg.TMRn_CTRL n) v
  let bad := (decide (n = 0) && decide (fld v 1 0 = 2)) || decide (fld v 21 20 = 3)
    || ((decide (fld v 21 20 ≠ 0) || decide (fld v 1 0 = 3)) && decide (fld v 25 22 = n))
  if bad then s1.setBit (Reg.TMRn_STAT n) 4 true else s1

/-- A capture edge of timer `n` (R394). -/
def State.capture (n : Nat) (s : State) : State :=
  let st := Reg.TMRn_STAT n
  let sel := s.f (Reg.TMRn_IEN n) 15 8
  if sel = 0 ∨ sel = 6 ∨ sel = 7 ∨ sel > 15 then s else
  let s1 := if s.bit st 2 then s.setBit st 3 true else s
  ((((s1.setReg (Reg.TMRn_CAP n) (s.reg (Reg.TMRn_CNT n))).setBit st 2 true).timerIrq n 2).masterEvent n 2)

/-- `TIMER_CAPTURE`: an edge of the selected capture input reaches the timer (R394). -/
def execTimerCapture (n : Fin 16) (s : State) : Res :=
  if decide (n.val < 12) && s.frozen then .next s else
  .next (s.capture n.val)

/-! Watchdogs: 0 WDG0, 1 WDG1, 2 WDGM. -/

def wdgReg (w o : Nat) : Nat := 0x40100400 + 0x20 * w + o
def wdgCtrl (w : Nat) : Nat := wdgReg w 0
def wdgCnt (w : Nat) : Nat := wdgReg w 0x10
def wdgStat (w : Nat) : Nat := wdgReg w 0x14

def State.keyOpen (s : State) (w : Nat) : Bool := if w = 0 then s.irq.key0 else if w = 1 then s.irq.key1 else s.irq.keyM

def State.setKey (w : Nat) (b : Bool) (s : State) : State :=
  if w = 0 then { s with irq := { s.irq with key0 := b } }
  else if w = 1 then { s with irq := { s.irq with key1 := b } }
  else { s with irq := { s.irq with keyM := b } }

/-- A write to WDGx_CTRL: EN is set only, and loads the count; DPAUSE is written by a debug access at level 2 only, and WDGM has
none; it holds the count of a core that is halted already (R395, R397). -/
def State.writeWdgCtrl (w : Nat) (v : Word) (debug2 : Bool) (s : State) : State :=
  let halted := decide (2 ≤ s.f (Reg.DBG_Cc_STAT w) 1 0)
  let s1 := if debug2 ∧ w < 2 then (s.setBit (wdgCtrl w) 1 (bitAt v 1)).setBit (wdgCtrl w) 2 (halted && bitAt v 1) else s
  if bitAt v 0 ∧ s.bit (wdgCtrl w) 0 = false ∧ s.reg (wdgReg w 4) ≠ 0 then
    (s1.setBit (wdgCtrl w) 0 true).setReg (wdgCnt w) (s1.reg (wdgReg w 4))
  else s1

/-- A write to LOAD or WARN, ignored once the watchdog is enabled (R395). -/
def State.writeWdgSet (w o : Nat) (v : Word) (s : State) : State :=
  if s.bit (wdgCtrl w) 0 then s else s.setReg (wdgReg w o) v

/-- A write to WDGx_KEY (R395). -/
def State.writeWdgKey (w : Nat) (v : Word) (s : State) : State :=
  if s.keyOpen w then
    if v = 0x3CA5 then (s.setKey w false).setReg (wdgCnt w) (s.reg (wdgReg w 4))
    else (s.setKey w false).setBit (wdgStat w) 1 true
  else if v = 0xC35A then s.setKey w true
  else s.setBit (wdgStat w) 1 true

/-- `WDG_KEY_TIMEOUT`: the second write has not come within 1 µs; the sequence aborts (R395, R477). -/
def execWdgKeyTimeout (w : Fin 3) (s : State) : Res :=
  if s.keyOpen w.val then .next ((s.setKey w.val false).setBit (wdgStat w.val) 1 true) else .next s

/-- `WDG_WARNING`: the count passes WARN (R395). A warning of WDGM wakes the chip from every state (R388). -/
def execWdgWarning (w : Fin 3) (s : State) : Res :=
  let warn := s.reg (wdgReg w.val 8)
  if s.bit (wdgCtrl w.val) 0 = true ∧ warn ≠ 0 ∧ s.bit (wdgCtrl w.val) 2 = false then
    let c := s.reg (wdgCnt w.val)
    let s1 := s.setReg (wdgCnt w.val) (if warn.toNat < c.toNat then warn else c)
    let s2 := (s1.setBit (wdgStat w.val) 0 true).arrive (32 * w.val + 8)
    .next (if w.val = 2 ∧ s.pwr.state ≠ 0 then { s2 with pwr := { s2.pwr with waking := true } } else s2)
  else .next s

/-- At a release from a halt the count of the core's watchdog is at least 1 ms (R397). -/
def State.wdgRelease (w : Nat) (s : State) : State :=
  if w < 2 ∧ s.bit (wdgCtrl w) 0 = true ∧ (s.reg (wdgCnt w)).toNat < 1000 then (s.setReg (wdgCnt w) 1000).setBit (wdgCtrl w) 2 false
  else if w < 2 then s.setBit (wdgCtrl w) 2 false else s

end Sys2Proof.Machine
end

