-- ==== Sys2Proof/Machine/Reel.lean ====
section
/-! DEFINITION. Reel DMA: starts, descriptors, budgets, stops and completion (R356 to R370). How a beat moves its bytes is in
ReelMove. -/

namespace Sys2Proof.Machine

def State.ch (s : State) (c : Nat) : ReelCh := match s.reel.chans[c]? with | some x => x | none => emptyReel

/-- REELc_STAT.STATE of a channel (Table 14.4). -/
def ReelCh.code (x : ReelCh) : Nat :=
  match x.stage with
  | .idle => 0
  | .fetch => if x.preempted then 3 else 1
  | .move => if x.preempted then 3 else 2
  | .drain => 4

/-- A channel's state is replaced, and its status and busy bit show it. -/
def State.setCh (c : Nat) (x : ReelCh) (s : State) : State :=
  (({ s with reel := { s.reel with chans := s.reel.chans.set c x } } : State).setF (Reg.REELc_STAT c) 2 0 x.code).setBit
    Reg.REEL_BUSY c (decide (x.stage ≠ .idle))

/-- Channel `c` no longer holds its port: the next ready channel of its priority follows it (R362). -/
def State.unserve (c : Nat) (s : State) : State :=
  { s with reel := { s.reel with serving := s.reel.serving.map fun e => if e.2 = c then (e.1, c + 32) else e } }

/-- The channel becomes idle. An error stop records its address and code, sets the channel's bit of REEL_ERRCH and raises the
error interrupt with its event (R367, R368). -/
def State.stopNow (c stop code addr : Nat) (s : State) : State :=
  let x := s.ch c
  let s1 := (s.setCh c { x with stage := .idle, desc := [], beats := 0, rd := 0, wr := 0, buf := [], outs := [], stop := none,
                                preempted := false }).unserve c
  let s2 := s1.setF (Reg.REELc_STAT c) 6 4 stop
  if stop < 3 then s2 else
  let s3 := ((s2.setF (Reg.REELc_STAT c) 10 8 code).setReg (Reg.REELc_EADDR c) (wd addr)).setBit Reg.REEL_ERRCH c true
  let s4 := if stop = 6 then s3.raise stREEL 2 (wd c) (wd addr) 0 else s3
  s4.raise stREEL 0 (wd c) (wd addr) 0

/-- The channel stops: it issues no further beat and becomes idle once no response is outstanding (R368, R369). -/
def State.stopCh (c stop code addr : Nat) (s : State) : State :=
  let x := s.ch c
  if x.outs.isEmpty then s.stopNow c stop code addr
  else s.setCh c { x with stage := .drain, buf := [], stop := some (stop, code, addr), preempted := false }

/-- A descriptor fetch begins, unless the budget forbids it (R367). -/
def State.beginFetch (c addr : Nat) (s : State) : State :=
  let x := s.ch c
  let b := s.f (Reg.REELc_BUDGET c) 15 0
  if b ≠ 0 ∧ b ≤ x.fetched then s.stopNow c 6 0 addr
  else
    (s.setCh c { x with stage := .fetch, desc := [], beats := 0, rd := 0, wr := 0, buf := [], outs := [], stop := none,
                        fetched := x.fetched + 1, preempted := false }).setReg (Reg.REELc_CUR c) (wd addr)

/-- An enabled direct panel port exists (R204). -/
def State.directOn (s : State) : Bool := (List.range 32).any fun p => s.portOn p && (s.prof p).direct

/-- A start of channel `c`, by REEL_GO or by a trigger: refused while it is busy, while Reel is off, and for the panel block's
channel (R357). -/
def State.reelStart (c : Nat) (s : State) : State :=
  let busy := decide ((s.ch c).stage ≠ .idle)
  let panel := decide (s.f Reg.PNL_DIRCH 4 0 = c) && s.directOn
  if busy || !s.bit Reg.REEL_CTRL 0 || panel then (s.count (Reg.REELc_STAT c) 23 16).raise stREEL 1 (wd c) (s.reg (Reg.REELc_EADDR c)) 0
  else s.beginFetch c (s.reg (Reg.REELc_HEAD c)).toNat

/-- `REEL_GO`: a start of each channel whose bit is one; `trig` are the channels that a trigger starts in the same FCLK. -/
def State.reelGo (v trig : Word) (s : State) : State := (bitsOf (v ||| trig)).foldl (fun t c => t.reelStart c) s

/-! Descriptors (Table 14.1). -/

structure Desc where
  w0 : Word
  src : Nat
  dst : Nat
  len : Nat
  rows : Nat
  ss : Int
  ds : Int
  link : Nat
deriving DecidableEq, Repr

/-- The descriptor that 32 bytes hold, and whether a field that must be zero is not. -/
def descOf (bs : List Byte) : Desc × Bool :=
  let w := fun i => leWord ((bs.drop (4 * i)).take 4)
  ({ w0 := w 0, src := (w 1).toNat, dst := (w 2).toNat, len := fld (w 3) 23 0, rows := fld (w 4) 15 0, ss := sw (w 5),
     ds := sw (w 6), link := (w 7).toNat }, decide (fld (w 0) 31 22 ≠ 0) || decide (fld (w 3) 31 24 ≠ 0) || decide (fld (w 4) 31 16 ≠ 0))

def Desc.mode (d : Desc) : Nat := fld d.w0 1 0
def Desc.xform (d : Desc) : Nat := fld d.w0 3 2
def Desc.esize (d : Desc) : Nat := fld d.w0 5 4 + 1

/-- Rows moved: one in MODE 0 (R359). -/
def Desc.n (d : Desc) : Nat := if d.mode = 0 then 1 else d.rows

/-- Bytes moved. -/
def Desc.total (d : Desc) : Nat := d.n * d.len

def wrapOk (mode n : Nat) : Bool := decide (n = 0) || (decide (mode = 2) && decide (4 ≤ n) && decide (n ≤ 24))

/-- The descriptor keeps its layout (R358, R366). -/
def Desc.ok (d : Desc) : Bool :=
  decide (d.mode ≠ 3) && decide (d.xform ≠ 1) && !(bitAt d.w0 7 && decide (fld d.w0 11 8 > 11))
    && wrapOk d.mode (fld d.w0 16 12) && wrapOk d.mode (fld d.w0 21 17)
    && (decide (d.link = 0) || (decide (d.link % 32 = 0) && inSram d.link))
    && (decide (d.xform = 0) || (decide (d.mode ≠ 0) && decide (1 ≤ d.rows) && decide (d.rows ≤ 16) && decide (d.len % d.esize = 0)))

/-- An address reached in 32-bit parts: palette RAM, the beam store and register space (R364). -/
def narrow (a : Nat) : Bool :=
  (decide (0x20000000 ≤ a) && decide (a < 0x20020000)) || (decide (0x21000000 ≤ a) && decide (a < 0x21040000))
    || (decide (0x40000000 ≤ a) && decide (a < 0x50000000))

/-- The wrap of an address (R360). -/
def wrapAt (n base a : Nat) : Nat := if n = 0 then a else base / 2 ^ n * 2 ^ n + a % 2 ^ n

def addrOf (i : Int) : Nat := (i % 4294967296).toNat

/-- Where the rows of a side begin. -/
def Desc.rowStarts (d : Desc) (base : Nat) (stride : Int) (wrap : Nat) : List Nat :=
  if d.len = 0 then [] else (List.range d.n).map fun r => wrapAt wrap base (addrOf ((base : Int) + r * stride))

/-- What breaks the alignment rules: the first offending address, or the descriptor's own (R364). A row that begins in palette RAM, the beam
store or register space makes the descriptor reach it, wherever its first row lies. -/
def Desc.misaligned (d : Desc) (strict : Bool) (own : Nat) : Option Nat :=
  let rows := [d.src, d.dst] ++ d.rowStarts d.src d.ss (fld d.w0 16 12) ++ d.rowStarts d.dst d.ds (fld d.w0 21 17)
  let m := fun a => if strict then 16 else if narrow a then 4 else 1
  let all := if strict then 16 else if rows.any narrow then 4 else 1
  if d.src % m d.src ≠ 0 then some d.src
  else if d.dst % m d.dst ≠ 0 then some d.dst
  else if d.len % all ≠ 0 ∨ d.ss % (all : Int) ≠ 0 ∨ d.ds % (all : Int) ≠ 0 then some own
  else rows.find? fun a => narrow a && decide (a % 4 ≠ 0)

/-- Row number `k` of a side taken in ascending address: from the last down where its stride is negative (R366). -/
def rowUp (n k : Nat) (stride : Int) : Nat := if stride < 0 then n - 1 - k else k

/-- The source address of the byte read `i`-th, and the bytes that follow it in its row (R359, R366). -/
def Desc.srcAt (d : Desc) (i : Nat) : Nat × Nat :=
  let w := fld d.w0 16 12
  if d.xform = 3 then (wrapAt w d.src ((d.src + i) % 2 ^ 32), d.total - i)
  else
    let k := i / d.len
    let r := if d.xform = 2 then rowUp d.n k d.ss else k
    (wrapAt w d.src (addrOf ((d.src : Int) + r * d.ss + (i % d.len : Nat))), d.len - i % d.len)

/-- The destination address of the byte written `j`-th, and the bytes that follow it in its row. -/
def Desc.dstAt (d : Desc) (j : Nat) : Nat × Nat :=
  let w := fld d.w0 21 17
  if d.xform = 2 then (wrapAt w d.dst ((d.dst + j) % 2 ^ 32), d.total - j)
  else
    let k := j / d.len
    let r := if d.xform = 3 then rowUp d.n k d.ds else k
    (wrapAt w d.dst (addrOf ((d.dst : Int) + r * d.ds + (j % d.len : Nat))), d.len - j % d.len)

/-- Which byte read is the byte written `j`-th (R359, R366). -/
def Desc.pick (d : Desc) (j : Nat) : Nat :=
  let e := d.esize
  if d.xform = 2 then
    let u := j / e
    let n := u % d.n
    let k := if d.ss < 0 then d.n - 1 - n else n
    k * d.len + u / d.n * e + j % e
  else if d.xform = 3 then
    let n := rowUp d.n (j / d.len) d.ds
    let t := j % d.len
    (t / e * d.n + n) * e + t % e
  else j

/-- One beat's part of `n` bytes at `a`: to the end of its 16-byte word, or of its 32-bit part (R356, R364). -/
def beatPart (a n : Nat) : Nat := min n (if narrow a then 4 - a % 4 else 16 - a % 16)

/-- The next read a moving channel can issue: address and bytes; its staging buffer of 64 bytes must have room. A transform
gathers its elements before it writes them (R356, R366). -/
def ReelCh.nextRead (x : ReelCh) (d : Desc) : Option (Nat × Nat) :=
  if x.rd < d.total then
    let (a, n) := d.srcAt x.rd
    let k := beatPart a n
    let held := x.buf.length + (x.outs.map fun o => o.data.length).sum
    if d.xform ≠ 0 ∨ held + k ≤ 64 then some (a, k) else none
  else none

/-- The next write a moving channel can issue: address and bytes. -/
def ReelCh.nextWrite (x : ReelCh) (d : Desc) : Option (Nat × List Byte) :=
  if x.wr < d.total then
    let (a, n) := d.dstAt x.wr
    let k := beatPart a n
    if d.xform = 0 then if k ≤ x.buf.length then some (a, x.buf.take k) else none
    else if x.buf.length = d.total then
      some (a, (List.range k).map fun i => match x.buf[d.pick (x.wr + i)]? with | some b => b | none => 0)
    else none
  else none

/-- The descriptor of a channel. -/
def ReelCh.d (x : ReelCh) : Desc := (descOf x.desc).1

/-- The channel has a beat ready (R362). -/
def ReelCh.ready (x : ReelCh) : Bool :=
  match x.stage with
  | .fetch => decide (x.beats < 2)
  | .move => (x.nextWrite x.d).isSome || (x.nextRead x.d).isSome
  | _ => false

/-- The channel that port `p` (0 DMA0, 1 DMA1) serves next (R362). -/
def State.reelPick (p : Nat) (s : State) : Option Nat :=
  let pri := fun c => s.f (Reg.REELc_CFG c) 2 1
  let ready := ((List.range 16).map fun i => 16 * p + i).filter fun c => (s.ch c).ready
  let top := ready.foldl (fun m c => max m (pri c)) 0
  let cands := ready.filter fun c => decide (pri c = top)
  match s.reel.serving.find? fun e => decide (e.1 = 4 * p + top) with
  | some (_, c) =>
    if c ∈ cands then some c
    else match cands.find? fun k => decide (k > c % 32) with
      | some k => some k
      | none => cands.head?
  | none => cands.head?

/-- The response of the channel's oldest beat arrives: it lands, or an error response stops the channel (R368). -/
def State.reelLand (c : Nat) (s : State) : State :=
  let x := s.ch c
  match x.outs with
  | [] => s
  | o :: rest =>
    let y := { x with outs := rest }
    match x.stop with
    | some (st, code, addr) =>
      let t := s.setCh c y
      if rest.isEmpty then t.stopNow c st code addr else t
    | none =>
      if o.code ≠ 0 then (s.setCh c y).stopCh c 3 o.code o.addr
      else if x.stage = .fetch then s.setCh c { y with desc := x.desc ++ o.data }
      else s.setCh c { y with buf := x.buf ++ o.data }

/-- A fetched descriptor is checked: layout first, then alignment; it then moves (R358, R364). -/
def State.reelCheck (c : Nat) (s : State) : State :=
  let x := s.ch c
  let own := (s.reg (Reg.REELc_CUR c)).toNat
  let (d, bad) := descOf x.desc
  if own % 32 ≠ 0 ∨ inSram own = false ∨ bad = true ∨ d.ok = false then s.stopCh c 5 0 own
  else match d.misaligned (s.bit (Reg.REELc_CFG c) 0) own with
    | some a => s.stopCh c 4 0 a
    | none => s.setCh c { x with stage := .move }

/-- One beat of a descriptor fetch is issued through the channel's port (R358, R362). -/
def State.fetchBeat (c : Nat) (s : State) : State :=
  let x := s.ch c
  let a := (s.reg (Reg.REELc_CUR c)).toNat + 16 * x.beats
  if inSram a = true ∧ a % 16 = 0 then
    let (code, v, s1) := s.sramRead (reelPort c) a
    s1.setCh c { x with beats := x.beats + 1, outs := x.outs ++ [⟨a, code, leBytes 16 v, []⟩] }
  else s.setCh c { x with beats := x.beats + 1, outs := x.outs ++ [⟨a, 0, List.replicate 16 0, []⟩] }

/-- `DESCRIPTOR_FETCH`: the descriptor's two beats land, those not yet issued among them, and it is checked. While REEL_CTRL.EN
is zero no beat is issued (R357). -/
def execDescriptorFetch (c : Fin 32) (s : State) : Res :=
  if s.frozen then .next s else
  let go := fun (t : State) => if (t.ch c.val).stage = .fetch ∧ (t.ch c.val).beats < 2 then t.fetchBeat c.val else t
  let land := fun (t : State) => if (t.ch c.val).stage = .fetch then t.reelLand c.val else t
  if (s.ch c.val).stage ≠ .fetch ∨ ((s.ch c.val).beats < 2 ∧ s.bit Reg.REEL_CTRL 0 = false) then .next s else
  let s1 := land (land (go (go s)))
  let x := s1.ch c.val
  .next (if x.stage = .fetch ∧ x.desc.length = 32 then s1.reelCheck c.val else s1)

/-- Every write of the descriptor in progress has been issued and answered (R361). -/
def ReelCh.done (x : ReelCh) : Bool := decide (x.stage = .move) && decide (x.wr = x.d.total) && x.outs.isEmpty

/-- Completion acts 1 and 2 of R361. -/
def State.reelActs (c : Nat) (d : Desc) (s : State) : State :=
  let s1 := if bitAt d.w0 6 then (s.setBit Reg.REEL_DONE c true).arrive (130 + c) else s
  if bitAt d.w0 7 then s1.signalFence (fld d.w0 11 8) else s1

/-- `DESCRIPTOR_COMPLETE` (R361). -/
def execDescriptorComplete (c : Fin 32) (s : State) : Res :=
  if s.frozen then .next s else
  let x := s.ch c.val
  if x.done then
    let s1 := (s.reelActs c.val x.d).unserve c.val
    .next (if x.d.link = 0 then s1.stopNow c.val 1 0 0 else s1.beginFetch c.val x.d.link)
  else .next s

/-- REEL_ABORT: busy channels stop (R369). `start` are channels with a start in the same FCLK: an idle channel then does not start
(R357); `done` are channels whose descriptor completes in that FCLK: its acts 1 and 2 take place. -/
def State.reelAbort (v start done : Word) (s : State) : State :=
  let s1 := (bitsOf v).foldl (fun t c =>
    let x := t.ch c
    if x.stage = .idle ∨ x.stage = .drain then t
    else if bitAt done c ∧ x.done then (t.reelActs c x.d).stopCh c 2 0 0
    else t.stopCh c 2 0 0) s
  (bitsOf start).foldl (fun t c =>
    if bitAt v c ∧ (s.ch c).stage = .idle then t
    else if (s.ch c).stage = .idle then t.reelStart c
    else (t.count (Reg.REELc_STAT c) 23 16).raise stREEL 1 (wd c) (t.reg (Reg.REELc_EADDR c)) 0) s1

/-- At 0:0 of sub-frame 0 every budget counts anew (R367). -/
def State.reelFrame (s : State) : State :=
  { s with reel := { s.reel with chans := s.reel.chans.map fun x => { x with fetched := 0 } } }

/-- The urgent window of a channel with URG is judged at 0:0 of each sub-frame; a pair that disagrees leaves the last good window
(R39, R363). -/
def State.reelWindows (s : State) : State :=
  let bad := fun c => s.bit (Reg.REELc_CFG c) 3 &&
    !earlier (posOf (s.reg (Reg.REELc_UWIN0 c))) (posOf (s.reg (Reg.REELc_UWIN1 c)))
  let s1 := (List.range 32).foldl (fun t c =>
    let p := posOf (t.reg (Reg.REELc_UWIN0 c))
    let q := posOf (t.reg (Reg.REELc_UWIN1 c))
    let x := t.ch c
    if t.bit (Reg.REELc_CFG c) 3 = true then
      if earlier p q then t.setCh c { x with win := (p, q) } else t.raise stREEL 3 (wd c) (t.reg (Reg.REELc_EADDR c)) 0
    else t) s
  if (List.range 32).any bad then s1.mismatch 10 else s1.matched 10

/-- Port `p` (0 DMA0, 1 DMA1) is urgent for a channel within its window (R363). -/
def State.dmaUrgent (p : Nat) (s : State) : Bool :=
  (List.range 16).any fun i =>
    let c := 16 * p + i
    let x := s.ch c
    s.bit (Reg.REELc_CFG c) 3 && (decide (x.stage = .fetch) || decide (x.stage = .move)) && atOrBefore x.win.1 s.beam.pos
      && earlier s.beam.pos x.win.2

end Sys2Proof.Machine
end

