-- ==== Sys2Proof/Machine/Power.lean ====
section
/-! DEFINITION. Clocks and PLLs, power states, and the reset of each domain (R399 to R411, R488). -/

namespace Sys2Proof.Machine

/-! Cores, by number: 0 GV0, 1 GV1, 2 the Allemande. -/

def State.core (s : State) (c : Nat) : CoreSt := if c = 0 then s.gv.gv0 else if c = 1 then s.gv.gv1 else s.gv.al

def State.setCore (c : Nat) (x : CoreSt) (s : State) : State :=
  if c = 0 then { s with gv := { s.gv with gv0 := x } }
  else if c = 1 then { s with gv := { s.gv with gv1 := x } }
  else { s with gv := { s.gv with al := x } }

/-- A Gavotte core is reset and held: CLK_GVCTL.HOLDn reads one (R411). -/
def State.holdCore (c : Nat) (s : State) : State := (s.setCore c emptyCore).setBit Reg.CLK_GVCTL c true

/-- A core starts at `pc` with g0 to g15 zero and ST at its reset value (R310). -/
def State.startCore (c pc : Nat) (s : State) : State := s.setCore c { emptyCore with run := .run, pc := pc / 4 * 4 }

/-- A write to CLK_GVCTL: zero to HOLDn starts the core at its start address, one holds it. A start reloads the core's watchdog
(R396, R411). -/
def State.writeGvctl (v : Word) (s : State) : State :=
  [0, 1].foldl (fun t c =>
    if bitAt v c then t.holdCore c
    else if (t.core c).run = .held ∨ (t.core c).run = .stopped then
      let t1 := (t.startCore c (t.reg (Reg.CLK_GVxSTART c)).toNat).setBit Reg.CLK_GVCTL c false
      if t1.bit (wdgCtrl c) 0 then t1.setReg (wdgCnt c) (t1.reg (wdgReg c 4)) else t1
    else t) s

/-! Domains (Table 16.2). -/

/-- Registers of the TMR block that lie outside the fabric domain: timers 12 to 15 and the watchdogs. -/
def aonTimer (a : Nat) : Bool :=
  decide (blockOf a = 16) && ((decide (0x40100280 ≤ a) && decide (a < 0x40100300)) || (decide (0x40100440 ≤ a) && decide (a < 0x40100460)))

def gvWdg (c a : Nat) : Bool := decide (wdgReg c 0 ≤ a) && decide (a < wdgReg c 0x20)

def isFabric (a : Nat) : Bool :=
  let b := blockOf a
  (decide (b = 0) || (decide (2 ≤ b) && decide (b ≤ 17)) || decide (b = 26)) && !aonTimer a && !gvWdg 0 a && !gvWdg 1 a

/-- The EVR block lies in the always-on domain (R448). -/
def isManagement (a : Nat) : Bool :=
  let b := blockOf a
  decide (18 ≤ b) && decide (b ≤ 25) && decide (b ≠ 22)

/-- The fabric domain is reset: its blocks take their reset values and the march of main SRAM starts (R82, R411). -/
def State.resetFabric (s : State) : State :=
  let s1 := (s.resetBlocks isFabric).zeroRange sramBase sramEnd
  let keep := s1.fab.ecc
  { s1 with
    beam := BeamSt.reset, fab := { FabSt.reset with ecc := keep }, qdl := QdlSt.reset, mnt := MntSt.reset, pnl := PnlSt.reset,
    sig := SigSt.reset, snd := SndSt.reset, obj := ObjSt.reset, link := LinkSt.reset, blk := BlkSt.reset, reel := ReelSt.reset,
    pin := { PinSt.reset with level := s1.pin.level, alert := s1.pin.alert },
    irq := { IrqSt.reset with keyM := s1.irq.keyM, cmpInForce := s1.irq.cmpInForce.filter fun e => decide (12 ≤ e.1) },
    img := { s1.img with staged := s1.img.staged.filter fun e => !isFabric e.1, slotDue := false, pinsDue := false } }

/-- The control store copies of store `k` (R335, R336), by window address. -/
def ucAddr (k copy w : Nat) : Nat := 0x22000000 + 0x40000 * k + 0x20000 * copy + 8 * w

/-- The station enters HOLDOVER (R56, R402). -/
def State.enterHoldover (s : State) : State := if s.lock = 3 then s else (s.setLock 3).raise0 stBEAMW 4

/-- Cores halted in stop mode have been released: where the beam runs, the station treats it as HOLDOVER (R472). -/
def State.thaw (old s : State) : State :=
  let s1 := State.showFrozen old s
  if old.frozen && s1.running then s1.enterHoldover else s1

/-- A debug grant falls to level `l`: below 2, breakpoints, watchpoints, steps and DPAUSE clear, and cores halted in stop mode are
released (R462, R475). -/
def State.dropDebug (l : Nat) (s : State) : State :=
  let s1 := { s with sec := { s.sec with level := l } }
  if 2 ≤ l then s1 else
  State.thaw s1 <| (List.range 3).foldl (fun t c =>
    let t1 := (List.range 4).foldl (fun u b => u.setBit (Reg.DBG_Cc_BPb c b) 0 false) t
    let t2 := (List.range 2).foldl (fun u w => u.setBit (Reg.DBG_Cc_WPw_CTRL c w) 0 false) t1
    let t3 := ((t2.setBit (Reg.DBG_Cc_CTRL c) 3 false).setBit (wdgCtrl (min c 1)) 1 false).setBit (wdgCtrl (min c 1)) 2 false
    let x := t3.core c
    if x.run = .halt then ((t3.setCore c { x with run := .run, stepping := false }).setF (Reg.DBG_Cc_STAT c) 1 0 0).wdgRelease c
    else t3.setCore c { x with stepping := false }) s1

/-- The management domain is reset: the Allemande starts at its boot ROM, secure SRAM is wiped, and its control store is reloaded
(R86, R337, R411, R462). -/
def State.resetManagement (s : State) : State :=
  let s1 := ((s.resetBlocks isManagement).zeroRange (ucAddr 2 0 0) (ucAddr 3 0 0)).startCore 2 0
  let s2 := { s1 with
    mgt := MgtSt.reset, dbg := DbgSt.reset, hi3c := Hi3cSt.reset, ci3c := Ci3cSt.reset, xspi := XspiSt.reset,
    img := { ImgSt.reset with staged := s1.img.staged, slotDue := s1.img.slotDue, pinsDue := s1.img.pinsDue },
    gv := { s1.gv with load := none, loaded := [], swap := [], mirror := [] },
    sec := { s1.sec with fleet := [], cmd := none, chal := none, token := none, wipeCause := 2 } }
  (s2.dropDebug 0).startWipe

/-- The Gavotte domains are reset, and both cores held, with their control stores blank (R411). -/
def State.resetCores (s : State) : State :=
  ((((s.resetBlocks fun a => gvWdg 0 a || gvWdg 1 a).holdCore 0).holdCore 1).zeroRange (ucAddr 0 0 0) (ucAddr 2 0 0)).setF
    Reg.IMG_UCSTAT 17 16 0

def State.setCause (i : Nat) (s : State) : State := s.setBit Reg.CLK_RSTCAUSE i true

/-- A reset of every domain but the always-on one, with its cause (Table 16.5). -/
def State.chipReset (cause : Nat) (s : State) : State :=
  let s1 := (s.resetFabric.resetManagement.resetCores).setCause cause
  { s1 with pwr := { s1.pwr with state := 0, waking := false, held := false, beamDiv := false, audioLost := false, fclk := 0 } }

/-- A reset of the management domain alone (Table 16.5). The beam, the picture and the hops go on. -/
def State.managementReset (cause : Nat) (s : State) : State := (s.resetManagement.setCause cause).setCause 8

/-- `POWER_ON_RESET`: every domain; OTP keeps what is programmed (R411, R455). -/
def execPowerOnReset (s : State) : Res :=
  .next { State.reset with
    pending := s.pending, out := s.out, fresh := s.fresh,
    sec := { SecSt.reset with life := s.sec.life, owner := s.sec.owner, revoked := s.sec.revoked, dbgKey := s.sec.dbgKey, svn := s.sec.svn } }

/-- `RESET_N`: low for 1 µs or more (R488). -/
def execResetN (s : State) : Res := .next (s.chipReset 2)

/-- `SUPPLY_OUT_OF_RANGE`: a rail is out of range for 1 µs; the reset is held until all are in range again (R410). -/
def execSupplyOutOfRange (s : State) : Res :=
  let s1 := s.chipReset 1
  .next { s1 with pwr := { s1.pwr with supplyOk := false, released := false } }

/-- `RESET_RELEASE`: all rails have been in range for 100 µs; REF25 and the PLLs run and the Allemande starts (R410, R413). -/
def execResetRelease (s : State) : Res :=
  let s1 := { s with pwr := { s.pwr with supplyOk := true, released := true, ref25 := true } }
  let s2 := s1.setReg Reg.CLK_PLLSTAT (wd (1 + 2 * b2n (s1.bit Reg.CLK_PLLCTL 0) + 8 + 16))
  .next (if (s2.core 2).run = .held then s2.startCore 2 0 else s2)

/-- CLK_SWRST: only its key acts (R411). -/
def State.swReset (v : Word) (s : State) : State := if v = 0x5EE7 then s.chipReset 3 else s

/-- `XO32_START`: the always-on domain changes from the RC oscillator to XO32 (R518). -/
def execXo32Start (s : State) : Res := .next { s with pwr := { s.pwr with xo32 := true } }

/-! PLLs (R401, R402). -/

def State.clkRaise (i : Nat) (s : State) : State := s.raise stCLK i 0 (s.reg Reg.CLK_PLLSTAT) 0

/-- `PLL_F_LOSS`: clock monitor 0 reports PLL F lost. -/
def execPllFLoss (s : State) : Res :=
  let s1 := s.setBit Reg.CLK_PLLSTAT 0 false
  if s.bit Reg.CLK_PLLSTAT 2 then .next (s1.clkRaise 0)
  else if s.bit Reg.CLK_PLLCTL 0 ∧ s.bit Reg.CLK_PLLSTAT 1 then
    let s2 := (s1.setBit Reg.CLK_PLLSTAT 2 true).clkRaise 0
    .next { s2 with pwr := { s2.pwr with held := true } }
  else .next ((s1.chipReset 7).clkRaise 0)

/-- `CLOCK_RESUME`: the clocks resume from the other PLL (R401, R501). -/
def execClockResume (s : State) : Res := .next { s with pwr := { s.pwr with held := false } }

/-- A write to CLK_PLLCTL: SPAREEN starts or stops PLL S; REVERT goes back to PLL F while it is locked (R401). -/
def State.writePllctl (v : Word) (relocked : Bool) (s : State) : State :=
  let s1 := (s.setBit Reg.CLK_PLLCTL 0 (bitAt v 0)).setBit Reg.CLK_PLLSTAT 1 (bitAt v 0)
  let s2 := if relocked then s1.setBit Reg.CLK_PLLSTAT 0 true else s1
  if bitAt v 1 ∧ s2.bit Reg.CLK_PLLSTAT 0 ∧ s2.bit Reg.CLK_PLLSTAT 2 then
    let s3 := s2.setBit Reg.CLK_PLLSTAT 2 false
    { s3 with pwr := { s3.pwr with held := true } }
  else s2

/-- `BEAM_PLL_LOSS`: the beam counter takes its dots from the divider of FCLK, and the station enters HOLDOVER. -/
def execBeamPllLoss (s : State) : Res :=
  let s1 := (s.setBit Reg.CLK_PLLSTAT 3 false).clkRaise 1
  .next ({ s1 with pwr := { s1.pwr with beamDiv := true } } : State).enterHoldover

/-- `BEAM_PLL_RELOCK`: at a frame boundary the counter returns to the beam PLL. -/
def execBeamPllRelock (s : State) : Res :=
  let s1 := s.setBit Reg.CLK_PLLSTAT 3 true
  .next { s1 with pwr := { s1.pwr with beamDiv := false } }

/-- `REF25_LOSS`: every PLL holds its control word; HOLDOVER. -/
def execRef25Loss (s : State) : Res :=
  let s1 := s.clkRaise 2
  .next ({ s1 with pwr := { s1.pwr with ref25 := false } } : State).enterHoldover

/-- `REF25_RETURN`. -/
def execRef25Return (s : State) : Res := .next { s with pwr := { s.pwr with ref25 := true } }

/-- `AUDIO_PLL_LOSS`: every TDM output sends zero until it relocks. -/
def execAudioPllLoss (s : State) : Res :=
  let s1 := (s.setBit Reg.CLK_PLLSTAT 4 false).clkRaise 3
  .next { s1 with pwr := { s1.pwr with audioLost := true } }

/-- `AUDIO_PLL_RELOCK`. -/
def execAudioPllRelock (s : State) : Res :=
  let s1 := s.setBit Reg.CLK_PLLSTAT 4 true
  .next { s1 with pwr := { s1.pwr with audioLost := false } }

/-! Sleep (R404 to R409). -/

/-- A hop is UP. -/
def State.anyHopUp (s : State) : Bool := [Hop.ringA, Hop.ringB, Hop.trunkA, Hop.trunkB].any fun h => s.hopUp h

/-- The limits of Table 16.4 that apply: the blocker and its deepest state. -/
def State.sleepLimits (s : State) : List (Nat × Nat) :=
  let m := s.f Reg.CLK_PMGR 2 0
  (if s.bit Reg.SND_CTRL 0 || (List.range 4).any (fun p => s.bit (Reg.TDMn_CFG p) 0) then [(1, 1)] else [])
    ++ (if s.directOn then [(2, 1)] else [])
    ++ (if s.bit Reg.PNL_CTRL 0 then [(3, 2)] else [])
    ++ (if s.anyHopUp && !s.bit Reg.CLK_PMGR 3 then [(4, 2)] else [])
    ++ (if s.running && s.isHead then [(5, 3)] else [])
    ++ [(6, if m > 5 then 5 else m)]

/-- LIMIT and BLOCKER of CLK_PSTAT (R406). -/
def State.sleepLimit (s : State) : Nat × Nat :=
  let ls := s.sleepLimits
  let low := ls.foldl (fun m e => min m e.2) 5
  (low, match ls.find? fun e => decide (e.2 = low) with | some e => e.1 | none => 0)

/-- CLK_PSTAT as a processor reads it: STATE reads RUN (R404). -/
def State.pstat (s : State) : Word :=
  let (l, b) := s.sleepLimit
  setFld (setFld (setFld (s.reg Reg.CLK_PSTAT) 2 0 0) 10 8 l) 14 12 b

/-- The conditions of R406 for considering a sleep. -/
def State.maySleep (s : State) : Bool :=
  let quiet := fun c => match (s.core c).run with
    | .run => false
    | _ => true
  let lineDue := s.bit Reg.QDL_CTRL 0 && s.qdl.active && s.running &&
    (decide (s.qdl.frame = 0) || (match s.qdl.mark with | some m => decide (s.qdl.frame ≤ m + 1) | none => false))
  s.bit Reg.CLK_PMGR 4 && (List.range 3).all quiet && decide (s.reg Reg.REEL_BUSY = 0) && s.blk.run.isNone && s.blk.queue.isEmpty
    && (List.range 8).all (fun e => decide (s.f (Reg.MNT_ENGe_STAT e) 2 0 ≠ 1) && decide (s.f (Reg.MNT_ENGe_STAT e) 2 0 ≠ 3))
    && !lineDue && s.qdl.frames.isEmpty && decide (s.reg Reg.COT_INFLIGHT = 0) && s.engineIdle

/-- The sleep state of each pad at entry to NAP and deeper (R485); `drive` is the pad's level before it. -/
def State.sleepPad (s : State) (n : Nat) (drive : Option Bool) : Nat × Option Bool :=
  (n, match s.f (Reg.PIN_GPn_CFG n) 17 16 with
    | 0 => drive
    | 1 => some false
    | 2 => some true
    | _ => none)

/-- The levels that one function code drives on pad `n`, or none where it drives nothing (Table 21.1). -/
def State.padFunc (s : State) (n code : Nat) : Option Bool :=
  match code with
  | 0 => if s.bit (if n < 32 then Reg.PIN_OE0 else Reg.PIN_OE1) (n % 32) then some (s.bit (if n < 32 then Reg.PIN_OUT0 else Reg.PIN_OUT1) (n % 32))
         else none
  | 2 => some (s.bit (Reg.TMRn_STAT (n % 16)) 8)
  | 3 => some (s.pin.matchHi.contains (n % 4))
  | 4 => some s.beam.fsyncOut
  | 5 => some (s.bit Reg.BEAM_CTRL 8)
  | _ => none

/-- What pad `n` drives: its held or sleep level, or the OR of its functions, inverted where INV is set (R482, R484, R485). -/
def State.padDrive (s : State) (n : Nat) : Option Bool :=
  match s.pin.asleep.find? fun e => decide (e.1 = n) with
  | some e => e.2
  | none => match s.pin.held.find? fun e => decide (e.1 = n) with
    | some e => e.2
    | none =>
      let cfg := Reg.PIN_GPn_CFG n
      let inv := fun (b : Bool) => b != s.bit cfg 7
      match s.padFunc n (s.f cfg 2 0), (if s.bit cfg 6 then s.padFunc n (s.f cfg 5 3) else none) with
      | none, none => none
      | some a, none => some (inv a)
      | none, some b => some (inv b)
      | some a, some b => some (inv (a || b))

/-- `WAKE_START`: a wake source, or the scheduled time before a known event (R407, R408). -/
def execWakeStart (s : State) : Res :=
  if s.pwr.state = 0 then .next s else .next { s with pwr := { s.pwr with waking := true } }

/-- The pads return to their functions through the hold of R484. -/
def State.wakePads (s : State) : State :=
  { s with pin := { s.pin with held := s.pin.asleep ++ s.pin.held.filter (fun e => !(s.pin.asleep.any fun f => decide (f.1 = e.1))),
                               asleep := [] } }

/-- `WAKE_PIN`: WAKE is high in two consecutive XO32 samples: source 192 fires and a wake starts (R488). -/
def execWakePin (s : State) : Res :=
  let s1 := s.arrive 192
  .next (if s1.pwr.state = 0 then s1 else { s1 with pwr := { s1.pwr with waking := true } })

/-! Watchdog expiry (R396). -/

/-- `WDG_EXPIRY`: WDG0 or WDG1 resets and holds its core, with its local SRAM kept; WDGM resets the management domain. -/
def execWdgExpiry (w : Fin 3) (s : State) : Res :=
  if s.bit (wdgCtrl w.val) 0 = false ∨ s.bit (wdgCtrl w.val) 2 = true ∨ s.reg (wdgCnt w.val) = 0 then .next s
  else
    let s1 := (s.setReg (wdgCnt w.val) 0).setBit (wdgStat w.val) 2 true
    if w.val = 2 then .next (s1.managementReset 5)
    else
      let x := s1.core w.val
      .next (((s1.arrive (76 + w.val)).logEvent 0x002 (wd w.val) (s1.reg (wdgStat w.val)) x.fpc x.finfo).holdCore w.val)

end Sys2Proof.Machine
end

