-- ==== Sys2Proof/Machine/Verify.lean ====
section
/-! DEFINITION. The rules that the block chapters mark "fails verification" (R421 step 6): each with the address of the register it
names, judged on the shadow set. -/

namespace Sys2Proof.Machine

/-- The state as the shadow values would make it: every SH field takes its shadow value. -/
def State.shadowView (s : State) : State :=
  let keys := ((s.regs ++ s.shadow).map (·.1)).eraseDups.filter fun a =>
    match RegMap.find a with
    | some (r, _) => decide (r.shm ≠ 0)
    | none => false
  keys.foldl (fun t a => t.setReg a (s.readCoded a)) s

/-- One broken rule names the register at `a`. -/
def broke (a : Nat) (ok : Bool) : List Nat := if ok then [] else [a]

/-- VCO of the beam PLL, in units of 25 MHz / 2^24 (R400). -/
def State.vco (v : State) : Nat := v.f Reg.CLK_BPLLN 8 0 * 2 ^ 24 + v.f Reg.CLK_BPLLF 23 0

/-- The clocks: VCO and dot rate within their limits (R400, Table 1.1). -/
def clockRules (v : State) : List Nat :=
  let d := v.f Reg.CLK_BPLLD 6 0 + 1
  broke Reg.CLK_BPLLN (decide (80 * 2 ^ 24 ≤ v.vco) && decide (v.vco ≤ 160 * 2 ^ 24))
    ++ broke Reg.CLK_BPLLD (decide (d * 2 ^ 24 ≤ v.vco) && decide (v.vco ≤ 20 * d * 2 ^ 24))

/-- The owned phases of the slot table: each with its port and the bank its segment starts at for it (R24, R25). -/
def State.ownedPhases (v : State) : List (Nat × Nat) :=
  (List.range 32).flatMap fun g => (List.range 32).filterMap fun ph =>
    let e := v.slotEntry g ph
    if entryOwned e then some (e % 16, (8 * (g % 4) + ph) % 32) else none

/-- The port of each owned phase reaches every bank equally often in a round, each phase-segment reaching eight banks upward (R25). -/
def evenReach (owned : List (Nat × Nat)) : Bool :=
  let hits := fun (p b : Nat) => (owned.filter fun o => decide (o.1 = p) && decide ((b + 32 - o.2) % 32 < 8)).length
  owned.all fun o => (List.range 32).all fun b => decide (hits o.1 b = hits o.1 0)

/-- The slot table: at most 16 owned phases in a segment, and equal reach of the banks (R25). -/
def slotRules (v : State) : List Nat :=
  ((List.range 32).flatMap fun g =>
    broke (Reg.COT_SLOTs_w g 0) (decide (((List.range 32).filter fun p => entryOwned (v.slotEntry g p)).length ≤ 16)))
    ++ broke (Reg.COT_SLOTs_w 0 0) (evenReach v.ownedPhases)

/-- The geometry, each limit of Table 1.1 at its own register, the frame rate, and the wall's vote (R18, R65, R400). -/
def beamRules (v : State) : List Nat :=
  let l := v.lines
  let t := v.total
  let d := v.dots
  let ss := v.f Reg.BEAM_SWAPSTART 12 0
  let dl := posOf (v.reg Reg.BEAM_DEADLINE)
  let cm := posOf (v.reg Reg.BEAM_CMARK)
  let n := v.f Reg.BEAM_RATENUM 19 0
  let m := v.f Reg.BEAM_RATEDEN 11 0
  let sub := v.subfm1 + 1
  -- dot rate × 2^24 × DEN and the rate asked for, both times (ODIVM1 + 1)
  let got := 25000000 * v.vco * m
  let want := n * sub * t * d * 2 ^ 24 * (v.f Reg.CLK_BPLLD 6 0 + 1)
  let off := if got < want then want - got else got - want
  broke Reg.BEAM_ACTIVE (decide (1 ≤ l) && decide (l ≤ 2160)) ++ broke Reg.BEAM_TOTAL (decide (l + 8 ≤ t) && decide (t ≤ 8191))
    ++ broke Reg.BEAM_DOTS (decide (64 ≤ d) && decide (d ≤ 16383))
    ++ broke Reg.BEAM_SWAPSTART (decide (l ≤ ss) && decide (ss ≤ t - 1))
    ++ broke Reg.BEAM_DEADLINE (decide (ss ≤ dl.line) && decide (dl.line ≤ t - 1) && decide (dl.dot ≤ d - 1))
    ++ broke Reg.BEAM_CMARK (decide (cm.line < t) && decide (cm.dot < d))
    ++ broke Reg.BEAM_RATENUM (decide (23976 * m ≤ 1000 * n) && decide (n ≤ 480 * m) && decide (sub * n ≤ 960 * m))
    ++ broke Reg.BEAM_RATEDEN (decide (m ≠ 0) && decide (off * 1000000 ≤ want))
    ++ broke Reg.BEAM_LOCKCTL (decide (v.f Reg.BEAM_LOCKCTL 1 0 ≠ 3))
    ++ broke Reg.BEAM_SWAPCNT (!(v.isHead && decide (v.f Reg.BEAM_SWAPCTL 1 0 = 1) && decide (v.f Reg.BEAM_SWAPCNT 14 0 = 0)))

/-- The station's place in the tree and its trunks (R45, R293, R303, Table 2.5). -/
def trunkRules (v : State) : List Nat :=
  let id := v.stationId
  let tin := v.f Reg.BEAM_TRUNK 1 0
  let head := decide (id % 64 = 0)
  let want := head && decide (id ≠ 0)
  let ring := id / 64
  let out := fun x => v.bit Reg.BEAM_TRUNK (2 + x)
  broke Reg.BEAM_TRUNK (decide (tin ≠ 3) && (decide (tin ≠ 0) == want) && !(decide (tin = 1) && out 0) && !(decide (tin = 2) && out 1))
    ++ [0, 1].flatMap (fun x =>
      let trunk := out x || decide (tin = x + 1)
      let role := v.f (Reg.AKx_CFG x) 1 0
      let first := v.f (Reg.AKx_TOUTRNG x) 7 0
      broke (Reg.AKx_CFG x) (!(decide (role = 3) && trunk))
        ++ broke (Reg.AKx_TOUTRNG x) (!out x || (decide (ring < first) && decide (first ≤ v.f (Reg.AKx_TOUTRNG x) 15 8)))
        ++ broke (Reg.AKx_TINLAST x) (decide (tin ≠ x + 1) || decide (ring ≤ v.f (Reg.AKx_TINLAST x) 7 0))
        ++ broke (Reg.AKx_ETYPE x) (decide (role < 2) || decide (0x600 ≤ v.f (Reg.AKx_ETYPE x) 15 0))
        ++ broke (Reg.AKx_ETHCFG x) (let p := v.f (Reg.AKx_ETHCFG x) 11 0
            decide (p % 16 = 0) && decide (256 ≤ p) && decide (p ≤ 2048)))

/-- Lanes of LANEEN that may serve, and the rate limit they give, in Mpx/s (Table 5.1). -/
def laneLimit (n : Nat) : Nat := if 4 ≤ n then 1000 else if n = 3 then 750 else 0

/-- The Quadrille's structure (R123, R139, R149, Tables 5.9, 5.10). -/
def qdlRules (v : State) : List Nat :=
  let w := v.width
  let lanes := ((List.range 4).filter fun i => v.bit Reg.QDL_STRUCT (4 + i)).length
  let n := v.f Reg.BEAM_RATENUM 19 0
  let m := v.f Reg.BEAM_RATEDEN 11 0
  let depth := v.f Reg.QDL_STRUCT 12 8
  let cl := v.f Reg.QDL_CLLINES 8 0
  broke Reg.QDL_WIDTH (decide (1 ≤ w) && decide (w ≤ 4096) && decide (w * v.lines ≤ 2097152))
    ++ broke Reg.QDL_STRUCT (decide (8 ≤ depth) && decide (depth ≤ 16) && decide (laneLimit lanes ≠ 0)
        && decide (w * v.lines * n * (v.subfm1 + 1) ≤ laneLimit lanes * 1000000 * m) && (v.bit Reg.QDL_STRUCT 0 || !v.directOn))
    ++ broke Reg.QDL_CLBASE (decide ((v.reg Reg.QDL_CLBASE).toNat % 16 = 0))
    ++ broke Reg.QDL_CLLINES (decide (72 ≤ cl) && decide (cl ≤ 256))

/-- A ring that is new overlaps no slot of the active ring (R155). -/
def State.ringRule (s v : State) : List Nat :=
  let at_ := fun (t : State) => ((t.reg Reg.QDL_CLBASE).toNat, t.f Reg.QDL_CLLINES 8 0 * ((t.width * 6 + 15) / 16 * 16))
  let new := at_ v
  let old := at_ s
  broke Reg.QDL_CLBASE (decide ((v.reg Reg.QDL_CLBASE, v.reg Reg.QDL_CLLINES, v.width) = (s.reg Reg.QDL_CLBASE, s.reg Reg.QDL_CLLINES, s.width))
    || decide (new.1 + new.2 ≤ old.1) || decide (old.1 + old.2 ≤ new.1))

/-- The shortest sub-frame period, in half nanoseconds: f and p may each shorten a frame by 1,000 ppm (R55, R198). -/
def State.subHalfNs (v : State) : Nat :=
  let k := v.f Reg.BEAM_RATENUM 19 0 * (v.subfm1 + 1)
  if k = 0 then 0 else 1996000000 * v.f Reg.BEAM_RATEDEN 11 0 / k

def State.refpf (v : State) : Nat := v.f Reg.PNL_REFRESH 5 0 + 1
/-- The shortest refresh, in half nanoseconds (R200, R205). -/
def State.refreshHalfNs (v : State) : Nat := v.subHalfNs / v.refpf

/-- The length of plane `k`'s slot of a direct profile, in half nanoseconds; `rowStart` for plane 0 (R205). -/
def State.planeHalfNs (v : State) (p : Prof) (k : Nat) : Nat :=
  let ts := p.nic * p.ch * p.slotHalfNs
  let gap := 2 * v.f Reg.PNL_DIRTIM 15 8
  let w := 2 ^ k * v.f Reg.PNL_DIRTIM 7 0
  max ts (gap + w + (if k = 0 then 2 * v.f Reg.PNL_DIRTIM 31 16 else 0))

/-- Driver profile `x`, used or not: its fields and commands (R186, R187, R189, R190, Table 7.11). -/
def profFieldRules (v : State) (x : Nat) : List Nat :=
  let p := v.profOf x
  broke (Reg.PNL_PROFx_CFG x) (decide (p.ch ≤ 48) && (p.direct || (decide (8 ≤ p.wbits) && decide (p.wbits ≤ 16)
      && decide (v.f Reg.QDL_STRUCT 12 8 ≤ p.wbits) && (decide (p.latw 2 = 0) || decide (p.rows * p.ch ≤ 2 ^ p.wbits)))))
    ++ broke (Reg.PNL_PROFx_CMDA x) (decide (p.latw 0 ≠ 0) && (p.direct || decide (p.latw 1 ≠ 0)) && decide (p.latw 0 ≤ p.runSlots)
      && decide (p.latw 2 ≤ p.runSlots))
    ++ broke (Reg.PNL_PROFx_CMDB x) ([5, 6, 7].all fun k => decide (p.latw k ≤ p.runSlots))
    ++ broke (Reg.PNL_PROFx_CLK x) (decide (10 ≤ p.dclk))

/-- A driver profile that a port uses: what its ports must have time for (R197, R198, R200 to R202, R205). -/
def profRules (v : State) (x : Nat) : List Nat :=
  let used := (List.range 32).any fun p => v.portOn p && decide (v.portProfNo p = x)
  let p := v.profOf x
  let depth := v.f Reg.QDL_STRUCT 12 8
  let seek := decide (p.latw 2 ≠ 0)
  let lat := 2 * v.f Reg.PNL_SWAPLAT 19 0
  let slots := (if seek then p.nic * p.wbits + p.gap else 0) + p.rows * p.ch * (p.nic * p.wbits + p.gap) + p.latw 1 + p.gap
  let gclk := 2 * (v.f Reg.PNL_GCLK 7 0 + 1)
  let lastSlot := v.planeHalfNs p (depth - 1)
  if !used then [] else
  broke (Reg.PNL_PROFx_CFG x) (p.direct || (decide (slots * p.slotHalfNs ≤ v.subHalfNs) && (seek || v.bit Reg.QDL_STRUCT 0)))
    ++ broke Reg.PNL_SWAPLAT (if p.direct then decide (lastSlot + 80 ≤ lat) else
        decide (80 + p.latw 1 * p.slotHalfNs + (if p.latw 3 ≠ 0 then (p.gap + p.latw 4) * p.slotHalfNs else 0) ≤ lat))
    ++ broke Reg.PNL_GCLK (p.direct || decide (p.rows * (v.f Reg.PNL_GCLK 23 8 + 1) * gclk ≤ v.refreshHalfNs))
    ++ broke Reg.PNL_DIRTIM (!p.direct || (decide (v.f Reg.PNL_DIRTIM 7 0 ≠ 0)
        && decide (p.rows * (((List.range depth).map fun k => v.planeHalfNs p k).sum) ≤ v.refreshHalfNs)))

/-- One enabled port: its map, its spans, its pair's FIFO, its scan group and its lock (R191 to R193, R200, R207, R212). -/
def portRules (v : State) (p : Nat) : List Nat :=
  let pr := v.prof p
  let t := v.f (Reg.PNL_PORTp_CFG p) 9 8
  let kic := v.f (Reg.PNL_TMPLt t) 21 16 + 1
  let top := v.f (Reg.PNL_TMPLt t) 15 0 + (pr.rows - 1) * kic * pr.ch + (kic - 1) * pr.ch + (pr.ch - 1)
  let group := fun q => v.f (Reg.PNL_PORTp_CFG q) 6 4
  let inside := (List.range pr.rows).all fun r => (v.rowPixels p r).all fun e =>
    decide (0 ≤ e.1) && decide (e.1 < (v.width : Int)) && decide (0 ≤ e.2) && decide (e.2 < (v.lines : Int))
  let spans := (List.range pr.rows).all fun r => match v.span p r with
    | some (lo, hi) => decide (hi - lo + 72 ≤ v.f Reg.QDL_CLLINES 8 0)
    | none => true
  if !v.portOn p then [] else
  broke (Reg.PNL_TMPLt t) (decide (top ≤ 65535) && decide (pr.nic % kic = 0))
    ++ broke (Reg.PNL_PORTp_CFG p) (inside && spans && (decide (v.segBytes (p / 2) = 0) || decide (v.largestSpan p + 2 ≤ 65536 / v.segBytes (p / 2)))
      && (List.range 32).all (fun q => !v.portOn q || decide (group q ≠ group p) || decide ((v.prof q).rows = pr.rows)))

/-- A port set to lock with the next (R212). -/
def lockRules (v : State) (p : Nat) : List Nat :=
  if v.portLocked p then
    broke (Reg.PNL_PORTp_CFG p) (v.portOn p && v.portOn (p + 1) && decide (v.portProfNo p = v.portProfNo (p + 1))
      && decide (v.f (Reg.PNL_PORTp_CFG p) 6 4 = v.f (Reg.PNL_PORTp_CFG (p + 1)) 6 4))
  else []

def pnlRules (v : State) : List Nat :=
  broke Reg.PNL_REFRESH (decide (v.total * v.dots % v.refpf = 0))
    ++ (List.range 4).flatMap (profFieldRules v) ++ (List.range 4).flatMap (profRules v) ++ (List.range 32).flatMap (portRules v) ++ (List.range 32).flatMap (lockRules v)

/-- The rates of a controller port that a synchronous ratio reaches from the beam-domain rate (R255). -/
def ratioOk (fs rate : Nat) : Bool := [fs, 2 * fs, 4 * fs].contains rate || (decide (fs = 96000) && decide (rate = 48000))

/-- TDM ports (R255, R267). -/
def tdmRules (v : State) : List Nat :=
  (List.range 4).flatMap fun n =>
    let slots := v.tdmSlots n
    let sw := v.slotBits n
    broke (Reg.TDMn_CFG n) (decide (v.f (Reg.TDMn_CFG n) 9 8 ≠ 3) && decide (v.f (Reg.TDMn_CFG n) 11 10 ≠ 3)
      && decide (slots ≠ 1) && (decide (2 ≤ v.f (Reg.TDMn_CFG n) 3 2) || decide (slots = 2))
      && decide (v.tdmRate n * slots * sw ≤ 49152000) && (v.tdmTarget n || ratioOk v.fs (v.tdmRate n))
      && (List.range slots).all fun j => !(v.tdmMap n j).testBit 7 || decide (v.chainBits (v.tdmMap n j % 32) ≤ sw))

/-- The input function instance a pin selects: TCAP by number, AIN by number above 8 (Table 21.1). -/
def pinInput (v : State) (n : Nat) : Option Nat :=
  match v.f (Reg.PIN_GPn_CFG n) 2 0 with
  | 1 => some (n % 8)
  | 6 => some (8 + n)
  | _ => none

/-- Pins (R480 to R482). -/
def pinRules (v : State) : List Nat :=
  (List.range 48).flatMap fun n =>
    let c := Reg.PIN_GPn_CFG n
    let thr := v.f c 9 8
    let fn := v.f c 2 0
    let f2 := v.f c 5 3
    broke c (decide (thr ≠ 3) && (decide (n < 32) || decide (thr ≠ 2)) && decide (v.f c 12 11 ≠ 3) && decide (fn ≠ 7)
      && (decide (fn ≠ 6) || decide (40 ≤ n)) && (!v.bit c 6 || (decide (f2 ≠ 1) && decide (f2 ≠ 6) && decide (f2 ≠ 7)))
      && (pinInput v n = none || (List.range n).all fun k => decide (pinInput v k ≠ pinInput v n)))

/-- Every register that breaks a rule, with the shadow set in place of the active one (R421 step 6). -/
def State.rulesBroken (s : State) : List Nat :=
  let v := s.shadowView
  clockRules v ++ slotRules v ++ beamRules v ++ trunkRules v ++ qdlRules v ++ s.activeView.ringRule v ++ pnlRules v ++ tdmRules v ++ pinRules v

/-- The first register that breaks a rule, in ascending address (R421). -/
def State.firstBroken (s : State) : Option Nat :=
  match s.rulesBroken with
  | [] => none
  | a :: as => some (as.foldl min a)

end Sys2Proof.Machine
end

