-- ==== Sys2Proof/Machine/Frame.lean ====
section
/-! DEFINITION. Frames: confirmation, the confidence monitor, the swap and the frame hold (R148 to R154), and turning composition
on and off (R151). -/

namespace Sys2Proof.Machine

/-! Confirmation (R148). -/

def instLt (a b : Instant) : Bool := instLe a b && decide (a ≠ b)

/-- The earliest write in the raster queue whose effect line is at or before `key`. -/
def State.queuedUpTo (key : LineKey) (s : State) : Option RasterW :=
  (sortRaster (s.qdl.queue.filter fun w => keyLe (s.effect w) key)).head?

/-- The lowest-numbered enabled engine whose horizon does not lie after the start of line `key`. -/
def State.engineHolds (key : LineKey) (s : State) : Option Nat :=
  (List.range 8).find? fun e => s.engEnabled e && !instLt (key.1, ⟨key.2.1, key.2.2, 0⟩) (s.horizon e)

/-- The lowest slot with a late fence of frame `m` unresolved. -/
def State.lateFence (m : Nat) (s : State) : Option Nat := (List.range 12).find? fun n => (s.layer n).lateOpen.contains m

/-- A unit that carried an earlier version of line `y` of the head frame awaits its retransmission. -/
def State.awaitsResend (y : Nat) (s : State) : Bool :=
  s.pnl.units.any fun u => !u.sent && inSpan (s.span u.port u.row) y

/-- The line is composed and nothing holds it back. -/
def State.mayConfirm (l : QLine) (s : State) : Bool :=
  let first := s.head.map (fun q => (q.frame, q.sf)) = some (l.frame, l.sf)
  l.composed && l.ringErr.isNone && (s.queuedUpTo l.key).isNone && (s.engineHolds l.key).isNone && (s.lateFence l.frame).isNone
    && !(first && s.awaitsResend l.line)

/-- Every active line of the frame is confirmed. -/
def State.frameConfirmed (q : QFrame) (s : State) : Bool :=
  (List.range s.lines).all fun y => match s.qline q.frame q.sf y with
    | some l => l.confirmed
    | none => false

/-- The frame is complete: every active line confirmed and delivered, and no guarded region open (R149, R222); in section Pavane, its
substitute lines delivered (R226). -/
def State.frameComplete (q : QFrame) (s : State) : Bool :=
  if q.sect then (List.range s.lines).all fun y => s.delivered q y
  else s.frameConfirmed q && (List.range s.lines).all (fun y => s.delivered q y) && (s.unsettled q).isEmpty

/-! The confidence monitor (R154, R228). -/

def State.monPort (s : State) : Nat := s.f Reg.QDL_MON 2 2

/-- The port can take a MONITOR frame now: its hop is UP with the feature, nothing of the class waits, and there is credit. -/
def State.monCan (f : Frame) (s : State) : Bool :=
  let h := ringHop s.monPort
  s.hopUp h && s.carries h f && (waitHead (s.hop h).wait f.cls).isNone && (f.segments (s.hop h).maxpay).all fun g => s.mayLeave h g

def State.monFrame (sub : Nat) (data : List Byte) (s : State) : Frame :=
  s.newFrame 5 sub 0 (s.f (Reg.AKx_UPDST s.monPort) 13 0) data

/-- The pixels of a line as they stand in the ring; whether the read was answered without an error. -/
def State.ringPixels (q : QFrame) (l : QLine) (s : State) : Bool × List Byte × State :=
  let port := match s.lanesIn with | p :: _ => p | [] => 0
  let (c, bs, t) := s.sramReadBytes port l.addr (q.f Reg.QDL_WIDTH 12 0 * 6)
  (decide (c = 0), bs, t)

/-- The mean of one channel over a block of `n` pixels. -/
def meanOf (n sum : Nat) : Nat := if n = 0 then 0 else (sum + n / 2) / n

/-- One line of 8 × 8 means: `rows` are the pixel bytes of the block's lines inside the section. -/
def scaledLine (w : Nat) (rows : List (List Byte)) : List Byte :=
  (List.range ((w + 7) / 8)).flatMap fun i =>
    let cols := (List.range 8).filter fun k => decide (8 * i + k < w)
    let n := cols.length * rows.length
    (List.range 3).flatMap fun c =>
      leBytes 2 (meanOf n ((rows.map fun r => (cols.map fun k => leNat ((r.drop (6 * (8 * i + k) + 2 * c)).take 2)).sum).sum))

/-- Lines that the monitor drops are counted. A record of 8 × 8 means counts each section line of it, and a held frame's confirmed lines that it has
not read count as dropped: the spec says neither (DESIGN CHOICE, log 101). -/
def State.monDrop (n : Nat) (s : State) : State :=
  (s.setReg Reg.QDL_MONDROP (countBy (s.reg Reg.QDL_MONDROP) 15 0 n)).raise0 stQDL 5

/-- The lines are sent as one record, or dropped and counted where the port cannot take it. LINE of a record of 8 × 8 means is the row of blocks:
the spec does not say row or section line (DESIGN CHOICE, log 100). -/
def State.monSend (q : QFrame) (ls : List QLine) (s : State) : State :=
  let w := q.f Reg.QDL_WIDTH 12 0
  let scale := s.bit Reg.QDL_MON 1
  let (ok, rows, s1) := ls.foldl (fun (acc : Bool × List (List Byte) × State) l =>
    let (c, bs, t) := acc.2.2.ringPixels q l
    (acc.1 && c, acc.2.1 ++ [bs], t)) (true, [], s)
  let y := match ls with | l :: _ => l.line | [] => 0
  let px := if scale then scaledLine w rows else rows.flatten
  let data := leBytes 4 q.frame ++ leBytes 1 q.sf ++ leBytes 1 (b2n scale) ++ leBytes 2 (if scale then y / 8 else y) ++ leBytes 2 0
    ++ leBytes 2 (px.length / 6) ++ leBytes 4 0 ++ px
  let f := s1.monFrame 0 data
  let s2 := s1.mapLines fun l => if ls.any (fun x => x.key = l.key) then { l with monDone := true } else l
  if ok && s2.monCan f then s2.injectOn s2.monPort f else s2.monDrop ls.length

/-- The monitor may read the line: confirmed, not yet read, and no guarded region of it open. -/
def State.monReady (q : QFrame) (l : QLine) (s : State) : Bool := l.confirmed && !l.monDone && !s.lineGuarded q l.line

/-- The monitor wants the lines of sub-frame `sf` (R154). -/
def State.monWants (sf : Nat) (s : State) : Bool :=
  s.bit Reg.QDL_MON 0 && (!s.bit Reg.QDL_MON 6 || decide (s.f Reg.QDL_MON 5 4 = sf))

/-- Every line of the frame that the monitor may read is sent; it lets those go that it does not want. -/
def State.monPump (q : QFrame) (s : State) : State :=
  let mine := s.qdl.lines.filter fun l => decide ((l.frame, l.sf) = (q.frame, q.sf))
  if !s.monWants q.sf then s.mapLines fun l => if l.confirmed && decide ((l.frame, l.sf) = (q.frame, q.sf)) then { l with monDone := true } else l
  else if s.bit Reg.QDL_MON 1 then
    (List.range ((s.lines + 7) / 8)).foldl (fun t j =>
      let row := mine.filter fun l => decide (l.line / 8 = j)
      if decide (row.length = min 8 (s.lines - 8 * j)) && row.all (fun l => t.monReady q l) then t.monSend q row else t) s
  else mine.foldl (fun t l => if t.monReady q l then t.monSend q [l] else t) s

/-- The end record of a frame, of every sub-frame (R154, Table 11.5). -/
def State.monEnd (q : QFrame) (held : Bool) (s : State) : State :=
  if s.bit Reg.QDL_MON 0 then
    let outcomes := ((List.range 16).map fun r => s.f (Reg.SIG_REGr_STAT r) 2 0 * 16 ^ r).sum
    let data := leBytes 8 q.frame ++ leBytes 1 (q.sf + 4 * b2n held) ++ List.replicate 7 0 ++ leBytes 8 outcomes
    s.injectOn s.monPort (s.monFrame 1 data)
  else s

/-- The raster log entries of confirmed lines are freed (R147). -/
def State.freeLog (s : State) : State :=
  let kept := fun (e : LogEntry) => !s.qdl.lines.any fun l => l.confirmed && decide (l.key = (e.frame, e.sf, e.line))
  { s with qdl := { s.qdl with log := s.qdl.log.filter kept } }

/-- The beam stands in the sub-frame that `q` is composed for. -/
def State.frameNow (q : QFrame) (s : State) : Bool := decide ((q.frame, q.sf) = (s.beam.frame, s.beam.pos.sf))

/-- The station of a split pair swaps by R67. -/
def State.pairLocal (s : State) : Bool := s.beam.paired && !s.wallMode

/-- The head frame is confirmed whole: the vote READY of its sub-frame, or the pair-ready record (R62, R67). -/
def State.announceReady (s : State) : State :=
  match s.head with
  | none => s
  | some q =>
    if !(s.frameNow q && s.frameConfirmed q) then s else
    let s1 := s.castVote true
    if s1.pairLocal && s1.beam.ownPos.isNone then
      ({ s1 with beam := { s1.beam with ownPos := some s1.beam.pos } } : State).sendRecord (ringHop (s1.f Reg.BEAM_PAIR 18 18)) 5
        (pairReadyBytes s1.beam.frame s1.beam.pos)
    else s1

/-- `LINE_CONFIRM`: the first line that is composed and held back by nothing becomes confirmed (R148): it is folded into its
regions' checksums and read by the monitor. -/
def execLineConfirm (s : State) : Res :=
  if s.frozen then .next s else
  match s.qdl.lines.find? (fun l => !l.confirmed && s.mayConfirm l) with
  | none => .next s
  | some l =>
    match s.frameOf l.frame l.sf with
    | none => .next s
    | some q =>
      let s1 := s.mapLines fun x => if x.key = l.key then { x with confirmed := true } else x
      .next ((((s1.foldAll q).freeLog).monPump q).announceReady)

/-! Decisions of regions (R217, R220 to R225). -/

/-- `SIGNATURE_DECIDED`: the oldest undecided check of the region, its last line folded, is decided (R217, R220 to R224). A Pavane request takes
effect with it (R225). The lines that the monitor held back for the region go out (R228). -/
def execSignatureDecided (region : Fin 16) (s : State) : Res :=
  if s.frozen then .next s else
  let r := region.val
  match s.sig.checks.find? (fun c => decide (c.region = r) && !c.skip && decide (c.decided = none)) with
  | none => .next s
  | some c =>
    match s.frameOf c.frame c.sf with
    | none => .next s
    | some q =>
      let g := q.region r
      if c.next ≤ g.y1 then .next s else
      let sum := c.crc ^^^ 0xFFFFFFFF
      let pass := decide (wd sum = g.exp)
      let keeps := decide (g.action = 1) || decide (g.action = 2)
      let s0 := s.takePavaneRequest r
      let sub := s0.guarded q r && (!pass || s0.inPavane r) && !q.sect
      let s1 := s0.putCheck { c with decided := some (pass, sum), subDue := sub }
      let s2 := if pass && keeps && !s0.inPavane r && c.copied then
          let st := Reg.SIG_REGr_STAT r
          (s1.setF st 9 9 (1 - s1.f st 9 9)).setBit st 8 true
        else s1
      .next ((if sub then s2.substitute q r else s2).monPump q)

/-- `SUBSTITUTION_DONE`: every write of the region's oldest substitution has been made; the monitor then sends its lines (R228). -/
def execSubstitutionDone (region : Fin 16) (s : State) : Res :=
  if s.frozen then .next s else
  match s.sig.checks.find? (fun c => decide (c.region = region.val) && c.subDue && !c.subDone) with
  | none => .next s
  | some c =>
    let s1 := s.putCheck { c with subDone := true }
    match s1.frameOf c.frame c.sf with
    | none => .next s1
    | some q => .next (s1.monPump q)

/-! The end of a frame (R150, R151). -/

/-- Group PNLTIM is applied: the refresh in progress keeps the old timing. With the same SWAPLAT and a whole number of new refreshes in each old
one its end is a point of the new grid; otherwise the two grids are taken to have no point in common (R214; DESIGN CHOICE, log 109). -/
def State.takePnlTim (s : State) : State :=
  let t := (s.takeGroup 4 (fun _ => true) s.latched).endFlight 4
  let same := decide (s.f Reg.PNL_SWAPLAT 19 0 = t.f Reg.PNL_SWAPLAT 19 0 ∧ (t.f Reg.PNL_REFRESH 5 0 + 1) % (s.f Reg.PNL_REFRESH 5 0 + 1) = 0)
  { t with pnl := { t.pnl with
    oldTim := match s.pnl.oldTim with | some w => some w | none => some (s.reg Reg.PNL_DIRTIM, s.reg Reg.PNL_GCLK),
    gridSplit := s.pnl.gridSplit || !same } }

/-- PNLTIM and what the panel ports do after a swap (Table 1.6, R201, R202, R210). -/
def State.panelSwap (s : State) : State :=
  let ends := s.pnl.holdOn || s.pnl.blankDue.contains (.hold true)
  let s1 := if s.inFlight 4 then s.takePnlTim else s
  { s1 with pnl := { s1.pnl with swapDue := true, exchangeDue := true,
                                 blankDue := if ends then s1.pnl.blankDue ++ [.hold false] else s1.pnl.blankDue } }

/-- The frame becomes visible. -/
def State.swapFrame (q : QFrame) (s : State) : State :=
  let s1 := (s.monPump q).recordAll q true
  let s2 := (s1.setReg Reg.QDL_SWAPS (s1.reg Reg.QDL_SWAPS + 1)).panelSwap
  let s3 := (s2.monEnd q false).endFrame q
  ({ s3 with qdl := { s3.qdl with shown := some (q.frame, q.sf) } } : State).panelFrameEnd

/-- The two stations of a pair are 256 ns past the later confirmation at line `y` (R67). -/
def State.pairDue (y : Nat) (s : State) : Bool :=
  match s.beam.ownPos, s.beam.partnerPos with
  | some a, some b =>
    let at_ := s.posPs ⟨s.beam.pos.sf, y, 0⟩
    decide (s.posPs a + 256000 ≤ at_) && decide (s.posPs b + 256000 ≤ at_)
  | _, _ => false

/-- The line start `y` is one at which frame `q` may swap. -/
def State.swapAt (q : QFrame) (y : Nat) (s : State) : Bool :=
  let ss := s.f Reg.BEAM_SWAPSTART 12 0
  let p : BPos := ⟨0, y, 0⟩
  let inWindow := decide (ss ≤ y) && atOrBefore p { posOf (s.reg Reg.BEAM_DEADLINE) with sf := 0 }
  s.running && s.frameNow q && inWindow && !s.beam.pairBad &&
    (if s.wallMode then decide (y = ss) && decide (s.beam.decision = some true)
     else if s.pairLocal then s.frameComplete q && s.pairDue y
     else s.frameComplete q)

/-- `SWAP`: the wall-time beam starts line `line` of the swap window. -/
def execSwap (line : Nat) (s0 : State) : Res :=
  if s0.frozen then .next s0 else
  let s := s0.beamAt ⟨s0.beam.pos.sf, line, 0⟩
  match s.head with
  | none => .next s
  | some q => if s.swapAt q line then .next (s.swapFrame q) else .next s

/-- The panel pair of the lowest-numbered port of which `pick` picks a row. -/
def State.pairMeeting (pick : Nat → Nat → Bool) (s : State) : Nat :=
  match (List.range 32).find? (fun p => s.portOn p && (List.range (s.prof p).rows).any fun r => pick p r) with
  | some p => p / 2
  | none => 0

/-- The cause of a hold at the deadline: code, INDEX and LINE (Table 5.6). -/
def State.holdCause (q : QFrame) (lane : Nat) (s : State) : Nat × Nat × Nat :=
  let done := fun y => match s.qline q.frame q.sf y with
    | some l => (q.sect || l.confirmed) && s.delivered q y
    | none => false
  match (List.range s.lines).find? (fun y => !done y) with
  | some y =>
    let key : LineKey := (q.frame, q.sf, y)
    match s.qline q.frame q.sf y with
    | none => (0, lane, y)
    | some l =>
      if !l.composed then (0, lane, y)
      else if l.ringErr.isSome then (7, (match l.ringErr with | some k => k | none => lane), y)
      else if l.confirmed then (3, s.owingPair, y)
      else match s.queuedUpTo key, s.engineHolds key, s.lateFence q.frame with
        | some w, _, _ => (1, w.eng, y)
        | none, some e, _ => (1, e, y)
        | none, none, some n => (2, n, y)
        | none, none, none => (3, s.owingPair, y)
  | none =>
    match (if q.sect then [] else s.unsettled q) with
    | r :: _ =>
      let g := q.region r
      let meets := fun p row => match s.span p row with
        | some (lo, hi) => decide ((lo : Int) ≤ (g.y1 : Int)) && decide ((g.y0 : Int) ≤ (hi : Int))
        | none => false
      (3, s.pairMeeting meets, g.y0)
    | [] => if s.wallMode then (4, 0, 0) else if s.beam.paired then (5, 0, 0) else (3, 0, 0)

/-- A frame hold with its cause: the frame is discarded and the previous one stays on show (R151, R153). -/
def State.holdFrame (q : QFrame) (cause : Nat × Nat × Nat) (s : State) : State :=
  let h := wd (cause.1 % 8 + 16 * (cause.2.1 % 16) + 2 ^ 16 * (cause.2.2 % 2 ^ 13) + 2 ^ 30 * (q.sf % 4))
  let s1 := ((s.monPump q).recordAll q false).count Reg.QDL_HOLDS 15 0
  let s2 := (s1.setReg Reg.QDL_HSTAT h).raise0 stQDL 0
  let blank := decide (s2.subfm1 ≠ 0) && q.bit (Reg.QDL_FEEDf_MASK q.sf) 16
  let s3 := if blank then { s2 with pnl := { s2.pnl with blankDue := s2.pnl.blankDue ++ [.hold true] } } else s2
  let lost := (s3.qdl.lines.filter fun l => decide ((l.frame, l.sf) = (q.frame, q.sf)) && l.confirmed && !l.monDone).length
  let s4 := if lost = 0 then s3 else s3.monDrop lost
  (((s4.monEnd q true).skipFrame q).endFrame q).panelFrameEnd

/-- The frame of the present sub-frame: the one in composition, or one that was due and never started. -/
def State.dueFrame (s : State) : Option QFrame :=
  match s.head with
  | some q => if s.frameNow q then some q else none
  | none =>
    if s.bit Reg.QDL_CTRL 0 && s.qdl.active && decide ((s.qdl.frame, s.qdl.sf) = (s.beam.frame, s.beam.pos.sf)) then
      some { frame := s.qdl.frame, sf := s.qdl.sf, regs := s.snapshot, shows := s.showsNow, sprites := [], before := [], sect := false }
    else none

/-- `FRAME_HOLD`: the FCLK after the wall-time beam has reached the deadline without a swap. `lane` is the lane last used. In WALL
mode the hold is counted as the wall's (R64). -/
def execFrameHold (lane : Fin 4) (s0 : State) : Res :=
  if s0.frozen then .next s0 else
  let dl := posOf (s0.reg Reg.BEAM_DEADLINE)
  let s := s0.beamAt ⟨s0.beam.pos.sf, dl.line, dl.dot⟩
  if !s.running then .next s else
  match s.dueFrame with
  | none => .next s
  | some q =>
    let s1 :=
      if s.wallMode then
        match s.beam.decision with
        | some false => s.count Reg.BEAM_WHOLDS 15 0
        | none => (s.count Reg.BEAM_WHOLDS 31 16).raise0 stBEAMW 7
        | some true => s
      else s
    .next (s1.holdFrame q (s1.holdCause q lane.val))

/-! Composition on and off (R151). -/

/-- The frames in composition are discarded, neither swapped nor counted. -/
def State.discardFrames (s : State) : State :=
  let s1 := s.qdl.frames.foldl (fun t q => (t.recordAll q false).endFrame q) s
  if s.qdl.frames.isEmpty then s1 else s1.panelFrameEnd

/-- A write of QDL_CTRL. -/
def State.qdlCtrl (v : Word) (s : State) : State :=
  let was := s.bit Reg.QDL_CTRL 0
  let s1 := s.setBit Reg.QDL_CTRL 0 (bitAt v 0)
  if bitAt v 0 ∧ !was then { s1 with qdl := { s1.qdl with active := false, waitMark := true } }
  else if was ∧ !bitAt v 0 then
    let s2 := s1.discardFrames
    { s2 with qdl := { s2.qdl with active := false, waitMark := false } }
  else s1

end Sys2Proof.Machine
end

