-- ==== Sys2Proof/Machine/Beam.lean ====
section
/-! DEFINITION. The Cotillion: starting and stopping the beam, frame starts, matches, triggers, commits and timed writes
(R18 to R40, R174, R175, R525). -/

namespace Sys2Proof.Machine

/-! Commit groups at their frame boundaries (R35, Table 1.6). -/

/-- A position outside the active geometry in an entry that has an action (R32). -/
def State.triggerBad (s : State) (n : Nat) : Bool :=
  let p := posOf (s.reg (Reg.COT_TRGn_POS n))
  decide (s.f (Reg.COT_TRGn_ACT n) 5 0 ≠ 0) && !s.inActive p.line p.dot

/-- Each entry in force outside the active geometry sets TRGRANGE (R32, R526). -/
def State.judgeTriggers (s : State) : State := s.raiseEach stCOT 1 ((List.range 32).countP s.triggerBad)

/-- Groups that a block applies whole at 0:0 of a frame. -/
def State.applyPlain (g : Nat) (s : State) : State :=
  if s.inFlight g then (s.takeGroup g (fun _ => true) s.latched).endFlight g else s

/-- Group `g` is applied by its block. -/
def State.applyGroup (g : Nat) (s : State) : State :=
  match g with
  | 3 => s.mntEntered
  | 4 => s
  | 6 => s.applySndxpt
  | 7 => s.applyObjpar
  | 8 => s.applyPlain 8
  | 9 => if s.inFlight 9 then (s.applyPlain 9).judgeTriggers else s
  | _ => s.applyQdlGroup g

/-- The Quadrille stands before line 0 of sub-frame 0 of its next frame. -/
def State.atFlipPoint (s : State) : Bool :=
  decide (s.qdl.sf = 0) && decide (s.qdl.next = 0) && !s.qdl.lines.any (fun l => decide ((l.frame, l.sf) = (s.qdl.frame, s.qdl.sf)))

/-- `COMMIT_GROUP_APPLY`: group `g` is applied if its block stands at the boundary that Table 1.6 names. PNLTIM waits for a swap. -/
def execCommitGroupApply (g : Fin 10) (s : State) : Res :=
  if s.frozen then .next s else
  let zero := decide (s.beam.pos = ⟨0, 0, 0⟩)
  let here := match g.val with
    | 3 => true
    | 4 => false
    | 6 => s.firstOfFrame s.snd.k
    | 7 => zero
    | 8 => zero
    | 9 => zero
    | _ => s.atFlipPoint
  .next (if here then s.applyGroup g.val else s)

/-- COT_COMMIT: groups marked pending (R34). -/
def State.commitRequest (v : Word) (s : State) : State := s.setReg Reg.COT_PENDING (s.reg Reg.COT_PENDING ||| (v &&& 0x3FF))

/-- `COMMIT_MARK`: the wall-time beam reaches BEAM_CMARK in the last sub-frame: every group pending and not in flight is latched,
and the next frame may be composed (R34, R36, R151). -/
def execCommitMark (s0 : State) : Res :=
  if s0.frozen then .next s0 else
  if !s0.running then .next s0 else
  let p := posOf (s0.reg Reg.BEAM_CMARK)
  let s := s0.beamAt ⟨s0.subfm1, p.line, p.dot⟩
  let s1 := (List.range 10).foldl (fun t g =>
    if t.bit Reg.COT_PENDING g && !t.inFlight g then t.latchGroup g else t) s
  let q := { s1.qdl with mark := some s1.beam.frame }
  let q1 := if s1.bit Reg.QDL_CTRL 0 && q.waitMark then
      { q with waitMark := false, active := true, frame := s1.beam.frame + 1, sf := 0, next := 0 }
    else q
  .next { s1 with qdl := q1 }

/-! Structure registers without a commit group (R424). -/

/-- A register of a block that adopts its structure registers at 0:0 of a frame: not the Quadrille's, the layers', the panel's, the
Minuet's, the signature unit's, the sounds', Reel's, the pins' or the slot table. -/
def atFrameZero (a : Nat) : Bool :=
  let b := blockOf a
  !([4, 5, 6, 7, 8, 9, 10, 14, 17].contains b) && !isSlotReg a

/-- BEAM_MATCHn is enabled and lies outside the geometry (R23). -/
def State.matchBad (s : State) (n : Nat) : Bool :=
  let p := posOf (s.reg (Reg.BEAM_MATCHn n))
  s.bit (Reg.BEAM_MATCHn n) 15 && !s.inActive p.line p.dot

/-- Each enabled match outside the active geometry sets MATCHRANGE (R23, R526). -/
def State.judgeMatches (s : State) : State := s.raiseEach stBEAM 1 ((List.range 4).countP s.matchBad)

/-- Those blocks adopt what is staged. A system head that comes to run from the local reference is LOCKED while its beam runs (R54). -/
def State.adoptRest (s : State) : State :=
  let t := s.adopt atFrameZero
  if t.headFree && t.running && decide (t.lock ≠ 2) then t.setLock 2 else t

/-! The servo (R55, R56). -/

/-- The terms of the frame that starts: the servo's phase term within one line period and 0.2% of the period in all (R55, log 11), and the
frequency of the last 16 frames outside HOLDOVER, in ppb (R56). -/
def State.newTerms (s : State) : State :=
  let f := s.freqTerm
  let (n, s1) := s.draw
  let room := (s.framePs : Int) * (2000000 - absI f) / 1000000000
  let lim := min (s.linePs : Int) room
  let p := if (s.lock = 1 ∨ s.lock = 2) ∧ s.headFree = false then clampI (-lim) lim (Config.servoPhase n) else 0
  let whole := if s.framePs = 0 then f else f + p * 1000000000 / (s.framePs : Int)
  let fs := if s.lock = 3 then s1.beam.freqs else (whole :: s1.beam.freqs).take 16
  { s1 with beam := { s1.beam with phaseTerm := p, freqs := fs } }

/-! Starting, stopping and stepping. -/

/-- The geometry and rate limits of Table 1.1 (R18, R19). -/
def State.tableOk (s : State) : Bool :=
  let n := s.f Reg.BEAM_RATENUM 19 0
  let m := s.f Reg.BEAM_RATEDEN 11 0
  let sub := s.subfm1 + 1
  let rate := n * sub * s.total * s.dots
  s.geometryOk && decide (m ≠ 0) && decide (23976 * m ≤ 1000 * n) && decide (n ≤ 480 * m) && decide (sub * n ≤ 960 * m)
    && decide (25000000 * m ≤ rate) && decide (rate ≤ 500000000 * m)

/-- What is done at 0:0 of sub-frame 0 of a frame: the placement pair, the groups applied there, Reel's budgets and windows
(R20, R35, R47, R363, R367). -/
def State.framePoints (s : State) : State :=
  ((((((s.checkPlace).applyGroup 7).applyGroup 8).applyGroup 9).reelFrame).reelWindows).newTerms

/-- Every engine enters frame 0 with the shadow values of MNTCTL, which a copy in flight does not outlive (R158). Raster writes issued and timed
writes still waiting from before are dropped: the spec does not say what becomes of them (DESIGN CHOICE, log 104). -/
def State.enginesStart (s : State) : State :=
  let s0 := { s with mnt := { s.mnt with issued := [], timed := [] } }
  let s1 := (s0.takeGroup 3 (fun _ => true) s0.shadow).endFlight 3
  (List.range 8).foldl (fun t e => if t.engState e = 5 then t else t.engStart e 0) s1

/-- The beam starts from stopped at 0:0 of sub-frame 0 of frame 0, with K = 0 (R19, R54, R151, R525). -/
def State.startBeam (s : State) : State :=
  let s1 := s.discardFrames
  let on := s1.bit Reg.QDL_CTRL 0
  let s2 := { s1 with
    beam := { s1.beam with stopReq := false, pos := ⟨0, 0, 0⟩, frame := 0, dotAcc := 0, good := 0, seen := [], stepDue := false,
                           freqs := [], phaseTerm := 0 },
    snd := { s1.snd with k := 0, block := [] },
    qdl := { s1.qdl with active := on, frame := 0, sf := 0, next := 0, mark := none, waitMark := false, queue := [], log := [],
                         lines := [], seen := [] } }
  let s3 := ((s2.setBit Reg.BEAM_CTRL 0 true).setLock (if s2.headFree then 2 else 0)).clearVote
  (s3.enginesStart).framePoints

/-- A write of BEAM_CTRL: SUBFM1 goes to the shadow, RUN starts the beam, requests a stop or withdraws the request (R19, R523). -/
def State.beamCtrl (v : Word) (s : State) : State :=
  let s1 := s.writeCoded Reg.BEAM_CTRL (putBit v 0 s.running)
  if bitAt v 0 then
    if s1.running then { s1 with beam := { s1.beam with stopReq := false } }
    else if s1.tableOk then s1.startBeam
    else s1.raise0 stBEAM 0
  else if s1.running then { s1 with beam := { s1.beam with stopReq := true } } else s1

/-- The beam stands still at the 0:0 it has reached, which the frame counter counts, and the station is FREE (R19, R20, R54). -/
def State.stopBeam (s : State) : State :=
  let s1 := (s.setBit Reg.BEAM_CTRL 0 false).setLock 0
  { s1 with beam := { s1.beam with stopReq := false, pos := ⟨0, 0, 0⟩, dotAcc := 0, frame := (s1.beam.frame + 1) % 2 ^ 64, good := 0,
                                   stepDue := false } }

/-- `BEAM_STOP`: the wall-time beam reaches 0:0 of sub-frame 0 with a stop requested. -/
def execBeamStop (s : State) : Res :=
  if s.frozen then .next s else
  if s.running && s.beam.stopReq then .next s.stopBeam else .next s

/-- The frame then being composed is not swapped and counts as a hold with cause STEP (R55, R425). -/
def State.stepHold (s : State) : State :=
  match s.head with
  | some q => s.holdFrame q (6, 0, (s.firstUnconfirmed).line)
  | none => s

/-- The restart of a swap that changed the beam (R425). -/
def State.restartBeam (s : State) : State :=
  let s1 := (s.stepHold).adoptRest
  { (s1.stopBeam).startBeam with img := { s1.img with restart := false } }

/-- A sub-frame starts: the vote is open, and a frame confirmed already is voted for (R62). -/
def State.openVote (s : State) : State := (s.clearVote).announceReady

/-- `FRAME_START`: the wall-time beam reaches 0:0 of sub-frame `sf`; at sub-frame 0 the frame counter increments and the blocks without
a commit group adopt their structure registers (R20, R424). -/
def execFrameStart (sf : Fin 4) (s : State) : Res :=
  if s.frozen then .next s else
  if !s.running || decide (s.subfm1 < sf.val) then .next s
  else if sf.val ≠ 0 then .next (((s.beamAt ⟨sf.val, 0, 0⟩).reelWindows).openVote)
  else if s.beam.stopReq then .next s.stopBeam
  else if s.img.restart then .next s.restartBeam
  else
    let s1 := { s with beam := { s.beam with pos := ⟨0, 0, 0⟩, dotAcc := 0, frame := (s.beam.frame + 1) % 2 ^ 64 } }
    let s2 := (s1.adoptRest).adoptSound
    let s3 := if s2.img.staged.any fun e => isSlotReg e.1 then { s2 with img := { s2.img with slotDue := true } } else s2
    .next ((s3.framePoints).openVote)

/-- `BEAM_STEP`: at 0:0 of sub-frame 0 a station in ACQUIRE steps its beam once, to stand at `pos`; a station other than the system
head takes the frame number of its source (R55, R525). -/
def execBeamStep (pos : BPos) (s : State) : Res :=
  if s.frozen then .next s else
  if !(s.running && s.beam.stepDue && decide (s.lock = 1)) then .next s else
  let s1 := (s.stepHold).raise0 stBEAMW 5
  let s2 := { s1 with beam := { s1.beam with pos := pos, dotAcc := 0, stepDue := false, good := 0 } }
  let s3 := if s2.isHead then s2.setFrame (s2.beam.frame + 1) else s2.setFrame s2.beam.srcFrame
  .next ({ s3 with obj := { s3.obj with stepped := true } } : State)

/-- `FSYNC_EDGE`: an edge at the FSYNC_IN pin; the selected edge fires its event source and aligns the system head (R58, R171). `own`
is the head's beam time at the edge in ps from its frame's 0:0, and `rate` the offset of the FSYNC rate in ppb. -/
def execFsyncEdge (rising : Bool) (own : Nat) (rate : Int) (s : State) : Res :=
  if s.frozen then .next s else
  let s1 := { s with mnt := { s.mnt with fsync := rising } }
  let s2 := if s1.fsyncSelected rising then s1.fireEvent 27 else s1
  .next (s2.fsyncAlign rising own rate)

/-! Matches and triggers (R23, R32, R33). -/

/-- `BEAM_MATCH`: the wall-time beam reaches an enabled match position in sub-frame `sf`: its interrupt, its event and its MATCH
output (R23, R486). -/
def execBeamMatch (n : Fin 4) (sf : Nat) (s : State) : Res :=
  if s.frozen then .next s else
  let r := Reg.BEAM_MATCHn n
  let p := posOf (s.reg r)
  if !(s.running && s.bit r 15 && s.inGeometry p.line p.dot && !s.matchBad n && decide (sf ≤ s.subfm1) && (!s.bit r 29 || decide (sf = p.sf))) then .next s else
  let s1 := ((s.beamAt ⟨sf, p.line, p.dot⟩).arrive (104 + n)).fireEvent (1 + n)
  .next (if s1.f Reg.PIN_MATCHW 15 0 = 0 then s1
    else { s1 with pin := { s1.pin with matchHi := n.val :: s1.pin.matchHi.erase n.val } })

/-- Gavotte flags set at a beam position by a trigger or an engine, and cleared by an engine: where both fall at one position, and so in one FCLK,
the set wins (R170, R174). -/
def State.beamFlagSet (v : Word) (s : State) : State :=
  let old := if s.mnt.flagAt = s.now then s.mnt.flagSet else 0
  ({ s with mnt := { s.mnt with flagAt := s.now, flagSet := old ||| v } } : State).gflagSet v

def State.beamFlagClear (v : Word) (s : State) : State :=
  s.gflagClear (if s.mnt.flagAt = s.now then v &&& ~~~s.mnt.flagSet else v)

/-- Starts of one channel, and releases of the block engine (number 32), by triggers of one FCLK act once (R357, R371). -/
def State.triggerOnce (c : Nat) (f : State → State) (s : State) : State :=
  let at_ := (s.beam.frame, s.beam.pos)
  let run := if s.beam.trigAt = at_ then s.beam.trigRun else []
  if run.contains c then s else f { s with beam := { s.beam with trigAt := at_, trigRun := c :: run } }

/-- The action of trigger entry `n` (Table 1.5). -/
def State.triggerAct (n : Nat) (s : State) : State :=
  let a := s.reg (Reg.COT_TRGn_ACT n)
  let arg := fld a 12 8
  match fld a 5 0 with
  | 0 => s
  | 1 => s.triggerOnce arg fun t => t.reelStart arg
  | 2 => s.triggerOnce 32 State.blkRelease
  | 3 => (s.arrive (96 + arg % 8)).fireEvent (19 + arg % 8)
  | 4 => s.beamFlagSet (wd (2 ^ (arg % 16)))
  | _ => s.raise0 stCOT 0

/-- `TRIGGER_FIRE`: the wall-time beam reaches entry `n`, or its repeat `rep`, in sub-frame `sf`. -/
def execTriggerFire (n : Fin 32) (sf rep : Nat) (s : State) : Res :=
  if s.frozen then .next s else
  let p := posOf (s.reg (Reg.COT_TRGn_POS n))
  let every := s.f (Reg.COT_TRGn_ACT n) 31 16
  let line := p.line + rep * every
  if s.running && s.inGeometry p.line p.dot && s.inActive p.line p.dot && decide (sf ≤ s.subfm1) && decide (line < s.total) && (decide (rep = 0) || decide (every ≠ 0))
  then .next ((s.beamAt ⟨sf, line, p.dot⟩).triggerAct n) else .next s

/-! Timed writes of the engines (R174, R175). -/

/-- Which of two timed writes is made first: those already late, then by position, engine and issue order. -/
def timedBefore (a b : TimedW) : Bool :=
  if a.late || b.late then a.late && !b.late
  else if (a.frame, a.pos) = (b.frame, b.pos) then decide (a.eng < b.eng) else instLt (a.frame, a.pos) (b.frame, b.pos)

def firstTimed : List TimedW → Option TimedW
  | [] => none
  | x :: xs => match firstTimed xs with
    | some y => if timedBefore y x then some y else some x
    | none => some x

/-- Timed writes made at one beam position are made in one FCLK (R174): the Sarabande takes them so (R232). -/
def State.stampTimed (s : State) : State :=
  if s.snd.stampAt = some s.now then s else { s with snd := { s.snd with stamp := s.snd.stamp + 1, stampAt := some s.now } }

/-- A timed write is made at its target (Table 6.5). -/
def State.makeTimed (w : TimedW) (s0 : State) : State :=
  let s := if w.space = 6 ∨ w.space = 5 then s0 else s0.stampTimed
  match w.space with
  | 6 => if w.addr.testBit 4 then s.beamFlagClear (wd (2 ^ (w.addr % 16))) else s.beamFlagSet (wd (2 ^ (w.addr % 16)))
  | 5 => ((s.setReg (Reg.MNT_MBOXk (w.addr % 16)) w.data).setBit Reg.MNT_MBSTAT (w.addr % 16) true).arrive 120
  | _ =>
    match timedTarget w.space w.addr with
    | none => s
    | some a =>
      if a = Reg.SND_KEYONx 0 then s.keyOnWrite 0 w.data
      else if a = Reg.SND_KEYONx 1 then s.keyOnWrite 1 w.data
      else if a = Reg.SND_KEYOFFx 0 then s.keyOffWrite 0 w.data
      else if a = Reg.SND_KEYOFFx 1 then s.keyOffWrite 1 w.data
      else if a = Reg.SND_NODEW then s.nodeWrite w.data
      else if a = Reg.PNL_BLANK then s.blankRequest w.data
      else if a = Reg.PNL_CMDQ then s.pnlCmdq w.data
      else s.writeCoded a w.data

/-- `TIMED_WRITE`: the wall-time beam stands at `pos`; the first timed write due is made, and one issued late is counted. -/
def execTimedWrite (pos : BPos) (s0 : State) : Res :=
  if s0.frozen then .next s0 else
  let s := s0.beamAt pos
  match firstTimed (s.mnt.timed.filter fun w => w.late || instLe (w.frame, w.pos) s.now) with
  | none => .next s
  | some w =>
    let s1 := ({ s with mnt := { s.mnt with timed := s.mnt.timed.erase w } } : State).makeTimed w
    .next (if w.late then (s1.count Reg.MNT_TLATE 15 0).mntRaise w.eng 1 else s1)

end Sys2Proof.Machine
end

