-- ==== Sys2Proof/Machine/Images.lean ====
section
/-! DEFINITION. Barenanu images, staging, verification, loading, and structure-set swaps (R415 to R417, R420 to R428). -/

namespace Sys2Proof.Machine

/-! Sources of an image: 0 the staging region, 1 slot A, 2 slot B (R418, R421). -/

def flashDefault : Nat → Byte := fun _ => 0xFF

def State.flashByte (s : State) (a : Nat) : Byte := Sparse.get flashDefault s.img.flash a

def State.stgBase (s : State) : Nat := (s.reg Reg.IMG_STGBASE).toNat
def State.stgLen (s : State) : Nat := (s.reg Reg.IMG_STGLEN).toNat

/-- The flash byte at which a slot starts. -/
def slotStart (src : Nat) : Nat := if src = 2 then Config.flashHalf else 0

def State.srcByte (s : State) (src off : Nat) : Byte :=
  if src = 0 then s.byte (s.stgBase + off) else s.flashByte (slotStart src + off)

def State.srcBytes (s : State) (src off n : Nat) : List Byte := (List.range n).map fun i => s.srcByte src (off + i)

def State.srcNat (s : State) (src off n : Nat) : Nat := leNat (s.srcBytes src off n)

/-- The bytes a source holds: the last 4 KiB of a slot are its record. -/
def State.srcSize (s : State) (src : Nat) : Nat := if src = 0 then s.stgLen else Config.flashHalf - 4096

/-- `FLASH_READ`: one read transaction of up to 4 KiB for the boot ROM or the IMG block, once the port is free (R498). -/
def execFlashRead (addr : Nat) (data : List Byte) (s : State) : Res :=
  if s.xspi.run.isSome ∨ 4096 < data.length then .next s else
  .next { s with img := { s.img with flash := data.zipIdx.foldl (fun l e => Sparse.set flashDefault l (addr + e.2) e.1) s.img.flash } }

/-! Headers and sections (R415, R416). -/

structure Section where
  type : Nat
  rom : Bool
  offset : Nat
  length : Nat
  dest : Nat
deriving DecidableEq, Repr

def State.nsect (s : State) (src : Nat) : Nat := s.srcNat src 10 2

def State.sectionOf (s : State) (src i : Nat) : Section :=
  let e := 128 + 64 * i
  { type := s.srcNat src e 2, rom := (s.srcNat src (e + 2) 2).testBit 0, offset := s.srcNat src (e + 4) 4,
    length := s.srcNat src (e + 8) 4, dest := s.srcNat src (e + 12) 4 }

def State.sections (s : State) (src : Nat) : List Section := (List.range (min 64 (s.nsect src))).map fun i => s.sectionOf src i

/-- Step 1 of R421, with the rules of R416 on types, places and the STRUCT and FWMGT sections. -/
def State.headerOk (s : State) (src : Nat) : Bool :=
  let n := s.nsect src
  let tot := s.srcNat src 24 4
  let l := s.sections src
  decide (s.srcNat src 0 4 = 0x554E5242) && decide (s.srcNat src 4 2 = 3) && decide (s.srcNat src 12 4 = 0x880)
    && decide (1 ≤ n) && decide (n ≤ 64) && decide (tot % 16 = 0) && decide (tot ≤ s.srcSize src)
    && l.all (fun x => decide (x.offset % 16 = 0) && decide (x.offset + x.length ≤ tot) && decide (1 ≤ x.type) && decide (x.type ≤ 11)
        && (decide (x.type ≠ 7) || x.rom) && (decide (x.type ≠ 1) || (x.rom && decide (x.length ≤ 1048576))))
    && decide ((l.filter fun x => decide (x.type = 1)).length = 1)

/-- Step 3: the format versions accepted (Table 17.4). -/
def State.formatsOk (s : State) (src : Nat) : Bool :=
  let at_ := fun i => s.srcNat src i 1
  (decide (at_ 6 = 1) || decide (at_ 6 = 2)) && (decide (at_ 7 = 1) || decide (at_ 7 = 2)) && decide (at_ 8 = 2)

/-- The image names a key that the life-cycle state allows (R456, Table 19.1). -/
def State.imageKeyOk (s : State) (keyid : Nat) : Bool :=
  match s.sec.life with
  | 0 => decide (keyid = 0xFFFFFFFF)
  | 3 => decide (keyid = 0xFFFFFFFF)
  | 4 => false
  | _ => decide (keyid < 4) && (match s.sec.owner[keyid]? with | some (some _) => true | _ => false) && !s.sec.revoked.contains keyid

/-- Step 2: 0 accepted, 2 SIGNATURE, 3 ROLLBACK. `sigOk` is what checking the signature finds. -/
def State.signatureCode (s : State) (src : Nat) (sigOk : Bool) : Nat :=
  if !sigOk || !s.imageKeyOk (s.srcNat src 28 4) then 2
  else if s.srcNat src 20 4 < s.sec.svn then 3 else 0

/-- A failed image check is a security event (R456, Table 19.6). -/
def State.imageEvent (src code : Nat) (s : State) : State :=
  if code = 2 then s.secRaise 3 0x303 (wd src) (wd (s.srcNat src 28 4)) (wd (s.srcNat src 16 4))
  else if code = 3 then s.logEvent 0x304 (wd src) (s.reg Reg.SEC_STAT) (wd (s.srcNat src 20 4)) (wd s.sec.svn)
  else s

/-! STRUCT records (R416, R487, R523). -/

/-- A pin whose set-up register lies at `a`, if it is locked. -/
def State.lockedPin (s : State) (a : Nat) : Bool :=
  (List.range 48).any fun n => decide (a = Reg.PIN_GPn_CFG n) && s.bit (if n < 32 then Reg.PIN_LOCKED0 else Reg.PIN_LOCKED1) (n % 32)

/-- A record's outcome: code 6 for a register that is no structure register, 7 for bits outside its structure fields. -/
def recordCode (a : Nat) (v : Word) : Nat :=
  match RegMap.find a with
  | none => 6
  | some (r, _) =>
    if r.sh ≠ .struct ∨ r.shm = 0 then 6
    else if v &&& ((r.rw ||| r.w1c ||| r.w1s ||| r.rc) &&& ~~~ r.shm) ≠ 0 then 7 else 0

/-- One record written into the shadow set. -/
def State.writeRecord (a : Nat) (v : Word) (s : State) : State :=
  if s.lockedPin a then { s with img := { s.img with lockHit := true } }
  else
    let m := structMask a
    let new := (s.shd a &&& ~~~ m) ||| (v &&& m)
    if new = s.shd a then s else (s.setShd a new).unverify

/-- The records of the STRUCT section in order, until one fails: its code and address. -/
def State.writeRecords (src off : Nat) : Nat → State → (Nat × Nat) × State
  | 0, s => ((0, 0), s)
  | n + 1, s =>
    let a := s.srcNat src off 4
    let v := wd (s.srcNat src (off + 4) 4)
    match recordCode a v with
    | 0 => State.writeRecords src (off + 8) n (s.writeRecord a v)
    | c => ((c, a), s)

/-! Verification (R421, R423, R425). -/

/-- A structure field whose shadow value is not the active one. -/
def State.differs (s : State) (a : Nat) (m : Word) : Bool := decide ((s.shd a ^^^ s.reg a) &&& structMask a &&& m ≠ 0)

/-- BREAK of the shadow set (Table 17.5). -/
def State.breaks (s : State) : Nat :=
  let any := fun (l : List Nat) => l.any fun a => s.differs a 0xFFFFFFFF
  b2n (any [Reg.BEAM_ACTIVE, Reg.BEAM_TOTAL, Reg.BEAM_DOTS, Reg.BEAM_CTRL, Reg.BEAM_RATENUM, Reg.BEAM_RATEDEN, Reg.CLK_BPLLN, Reg.CLK_BPLLF,
      Reg.CLK_BPLLD])
    + 2 * b2n (any [Reg.AKx_CFG 0, Reg.AKx_CFG 1, Reg.BEAM_STATION, Reg.BEAM_TRUNK]) + 4 * b2n (s.differs Reg.SND_STRUCT 1)

def State.engine (s : State) : Nat := s.f Reg.IMG_STATE 2 0
def State.setEngine (n : Nat) (s : State) : State := s.setF Reg.IMG_STATE 2 0 n

def State.refuse (s : State) : State := s.raise0 stIMG 5

/-- The end of a verification: VOK with BREAK, or VFAIL with its code, section and register. -/
def State.verified (code sect addr : Nat) (s : State) : State :=
  let s1 := { s with img := { s.img with cmd := none } }
  let s2 := (s1.setEngine 0).setReg Reg.IMG_ERR (wd (code % 16 + 256 * (sect % 64)))
  let s3 := if s2.img.lockHit then ({ s2 with img := { s2.img with lockHit := false } } : State).raise0 stPIN 1 else s2
  if code = 0 then ((s3.setBit Reg.IMG_STATE 4 true).setF Reg.IMG_STATE 10 8 s3.breaks).raise0 stIMG 0
  else
    let s4 := if code = 7 then s3.setReg Reg.IMG_ERRADDR (wd addr) else s3
    (s4.setBit Reg.IMG_STATE 4 false).raise0 stIMG 1

/-- IMG_CMD VERIFY: refused while the engine is busy or for SRC 3; on staging it locks the region, and fails at once while STGDONE is
clear (R421). -/
def State.startVerify (src : Nat) (s : State) : State :=
  if src = 3 ∨ s.engine ≠ 0 then s.refuse else
  let s1 := if src = 0 then s.setBit Reg.IMG_STATE 5 true else s
  if src = 0 ∧ s1.bit Reg.IMG_STAT 7 = false then s1.verified 8 0 0
  else ({ s1 with img := { s1.img with cmd := some (1, src, 0) } } : State).setEngine 1

/-- IMG_CMD SSVERIFY (R423). -/
def State.startSsverify (s : State) : State :=
  if s.engine ≠ 0 then s.refuse else ({ s with img := { s.img with cmd := some (2, 0, 0) } } : State).setEngine 1

/-- Step 6 (R421): the shadow set against the rules of the block chapters. -/
def State.checkRules (s : State) : Nat × Nat := match s.firstBroken with | some a => (7, a) | none => (0, 0)

/-- Steps 1 to 5 of a verification of the image at `src`: the code, the section it names and an address, with the records written. -/
def State.checkImage (src : Nat) (sigOk : Bool) (badHash : Option Nat) (s : State) : (Nat × Nat × Nat) × State :=
  if !s.headerOk src then ((1, 0, 0), s)
  else match s.signatureCode src sigOk with
    | 0 =>
      if !s.formatsOk src then ((5, 0, 0), s)
      else match badHash with
        | some i => ((4, i, 0), s)
        | none =>
          let i := match (s.sections src).findIdx? fun x => decide (x.type = 1) with | some k => k | none => 0
          let x := s.sectionOf src i
          let ((c, a), t) := s.writeRecords src x.offset (x.length / 8)
          ((c, i, a), t)
    | c => ((c, 0, 0), s.imageEvent src c)

/-- An image whose checks have passed: IMG_SHDVER takes IMGVER. -/
def State.imagePassed (src : Nat) (s : State) : State :=
  let s1 := s.setReg Reg.IMG_SHDVER (wd (s.srcNat src 16 4))
  { s1 with img := { s1.img with signed := some (s.srcNat src 28 4, s.srcNat src 20 4) } }

/-- `VERIFY_DONE`: the VERIFY or SSVERIFY in progress ends. `sigOk` is what checking the image's signature finds, and `badHash` the first
section whose HASH does not match. -/
def execVerifyDone (sigOk : Bool) (badHash : Option (Fin 64)) (s : State) : Res :=
  match s.img.cmd with
  | some (1, src, _) =>
    let ((c, i, a), t) := s.checkImage src sigOk (badHash.map fun x => x.val)
    if c ≠ 0 then .next (t.verified c i a) else
    let (c2, a2) := t.checkRules
    if c2 ≠ 0 then .next (t.verified c2 0 a2) else .next ((t.imagePassed src).verified 0 0 0)
  | some (2, _, _) =>
    let (c, a) := s.checkRules
    .next (s.verified c 0 a)
  | _ => .next s

/-! Structure-set swaps (R424, R425). -/

/-- IMG_CMD SWAP: refused while the shadow is not verified, the engine busy, or a breaking swap not asked for (R424, R425). -/
def State.swapCmd (brk : Bool) (s : State) : State :=
  if s.engine = 3 then s
  else if !s.bit Reg.IMG_STATE 4 || decide (s.engine ≠ 0) || (decide (s.f Reg.IMG_STATE 10 8 ≠ 0) && !brk) then s.refuse
  else s.setEngine 3

/-- IMG_CMD CANCEL: a pending swap is withdrawn, and staging unlocked (R421, R424). -/
def State.cancelCmd (s : State) : State :=
  (if s.engine = 3 then s.setEngine 0 else s).setBit Reg.IMG_STATE 5 false

/-- The ports whose hops a swap takes down (Table 17.5, LINK). -/
def State.brokenPorts (s : State) : List Nat :=
  if s.differs Reg.BEAM_STATION 0xFFFFFFFF || s.differs Reg.BEAM_TRUNK 0xFFFFFFFF then [0, 1]
  else [0, 1].filter fun p => s.differs (Reg.AKx_CFG p) 0xFFFFFFFF

/-- A block that adopts its structure registers at its next descriptor, job or pin switch: Reel and the pins. -/
def laterBlock (a : Nat) : Bool := decide (blockOf a = 14) || decide (blockOf a = 17)

/-- A swap made while the beam stands still: every block adopts at once, but the slot table, Reel and the pins, and pending commit
groups are applied (R424). -/
def State.adoptStopped (s : State) : State :=
  let s1 := ((s.adoptQdl).panelAdopt).adoptSound
  let s2 := (s1.adopt fun a => decide (blockOf a = 6)).adoptRest
  let s3 := { s2 with img := { s2.img with slotDue := s2.img.staged.any fun e => isSlotReg e.1 } }
  (List.range 10).foldl (fun t g =>
    if t.bit Reg.COT_PENDING g then
      let u := t.latchGroup g
      if g = 3 ∨ g = 4 then u.applyPlain g else u.applyGroup g
    else t) s3

/-- Settings judged against the geometry of the structure set, each once where the swap has changed it, and a reserved swap mode that the swap
has made active (R23, R32, R60, R61, R526). `old` is the state before the swap. -/
def State.judgeSwap (old s : State) : State :=
  let v := s.activeView
  let o := old.activeView
  let s1 := if v.reg Reg.BEAM_SWAPCTL ≠ o.reg Reg.BEAM_SWAPCTL ∧ 2 ≤ v.f Reg.BEAM_SWAPCTL 1 0 then s.raise0 stBEAMW 10 else s
  let s2 := s1.judgeRegions (decide (v.subfm1 ≠ o.subfm1))
  if v.total ≠ o.total ∨ v.dots ≠ o.dots then ((s2.judgeMatches).judgeTriggers).judgeFsout else s2

/-- The swap itself: every shadow value of the structure set becomes active in one act, and the blocks adopt it where R424 says. -/
def State.swapSet (peer : PairView) (s : State) : State :=
  let ports := s.brokenPorts
  let brk := s.f Reg.IMG_STATE 10 8
  let s1 := (((s.stageStructure).setEngine 0).setF Reg.IMG_STATE 10 8 0).setReg Reg.IMG_SWAPS (s.reg Reg.IMG_SWAPS + 1)
  let s2 := s1.setReg Reg.IMG_ACTVER (s1.reg Reg.IMG_SHDVER)
  let s3 := { s2 with
    sec := { s2.sec with signed := s2.img.signed },
    img := { s2.img with pinsDue := s2.img.staged.any fun e => decide (blockOf e.1 = 17) } }
  let s4 := ((s3.raise0 stIMG 2).judgeSwap s).findSpans
  let s5 :=
    if s4.running then
      let t := { s4 with img := { s4.img with restart := s4.img.restart || brk.testBit 0 } }
      if brk.testBit 2 then t.adoptSound else t
    else s4.adoptStopped
  (ports.foldl (fun t p => t.retrain p) s5).judgePair peer

/-- `STRUCTURE_SET_SWAP`: the pending swap is made: with the beam running in the FCLK of the commit mark, after the groups are latched;
else within 8 FCLK. `peer` is what a split pair's partner shows of itself (R66). -/
def execStructureSetSwap (peer : PairView) (s : State) : Res :=
  if s.frozen then .next s else
  let cm := posOf (s.reg Reg.BEAM_CMARK)
  let here := decide (s.beam.pos = ⟨s.subfm1, cm.line, cm.dot⟩)
  if s.engine = 3 ∧ s.bit Reg.IMG_STATE 4 = true ∧ (!s.running || here) = true then .next (s.swapSet peer) else .next s

/-! Staging (R420). -/

/-- A range of bytes joins the ranges written: ranges that touch it are merged with it. -/
def addRange (a b : Nat) (l : List (Nat × Nat)) : List (Nat × Nat) :=
  let (near, far) := l.partition fun r => decide (r.1 ≤ b) && decide (a ≤ r.2)
  let lo := near.foldl (fun m r => min m r.1) a
  let hi := near.foldl (fun m r => max m r.2) b
  (lo, hi) :: far

/-- Every byte of block `i` has been written. -/
def State.blockDone (s : State) (i : Nat) : Bool :=
  s.img.got.any fun r => decide (r.1 ≤ 4096 * i) && decide (4096 * (i + 1) ≤ r.2)

/-- IMG_STGBLK and IMG_STGMISS are brought up to date, and STGDONE is set when the last block becomes complete. With no block
incomplete, the value of STGMISS is left open by the spec and is a free value (log 29). -/
def State.showStaging (s : State) : State :=
  let n := s.stgLen / 4096
  let done := ((List.range n).filter fun i => s.blockDone i).length
  let was := (s.reg Reg.IMG_STGBLK).toNat
  let s1 := s.setReg Reg.IMG_STGBLK (wd done)
  match (List.range n).find? fun i => !s.blockDone i with
  | some i => s1.setReg Reg.IMG_STGMISS (wd i)
  | none =>
    let (k, s2) := s1.draw
    let s3 := s2.setReg Reg.IMG_STGMISS (Config.freeWord k &&& 0x7FFF)
    if was < n ∧ 0 < n then s3.raise0 stIMG 7 else s3

def State.dropChunk (s : State) : State := (s.count Reg.IMG_STGDROP 15 0).raise0 stIMG 6

/-- An UPDATE CHUNK accepted by the station is staged, or discarded and counted. -/
def State.deliverUpdate (f : Frame) (s : State) : State :=
  if !s.bit Reg.IMG_STGCTL 0 then s else
  let session := wd (f.le 0 4)
  let off := f.le 4 4
  let data := f.data.drop 8
  let s1 :=
    if s.img.anySession && decide (off = 0) then
      { (s.setReg Reg.IMG_SESSION session) with img := { s.img with anySession := false } }
    else s
  if s1.img.anySession || s1.bit Reg.IMG_STATE 5 || decide (session ≠ s1.reg Reg.IMG_SESSION) || decide (off % 16 ≠ 0)
      || decide (s1.stgLen < off + data.length) then s1.dropChunk
  else
    match s1.sramWriteBytes 14 (s1.stgBase + off) data with
    | (0, t) => ({ t with img := { t.img with got := addRange off (off + data.length) t.img.got } } : State).showStaging
    | (_, t) => t

/-- `UPDATE_CHUNK`. -/
def execUpdateChunk (hop : Hop) (ok : Bool) (f : Frame) (s : State) : Res :=
  if s.frozen then .next s else
  if f.type ≠ 6 then .next s else
  let (acc, t) := s.arrives hop ok f
  if acc then .next (t.deliverUpdate f) else .next t

/-- A write of IMG_SESSION, or of IMG_STGBASE, which also unlocks the region: no block is complete (R420, R421). -/
def State.sessionWrite (base : Bool) (v : Word) (s : State) : State :=
  let s1 := s.writeCoded (if base then Reg.IMG_STGBASE else Reg.IMG_SESSION) v
  let s2 := if base then s1.setBit Reg.IMG_STATE 5 false else s1
  (({ s2 with img := { s2.img with got := [] } } : State).setReg Reg.IMG_STGBLK 0).setReg Reg.IMG_STGMISS 0

/-! Loading sections (R422). -/

/-- Four-byte parts of a byte list. -/
def words4 : List Byte → List Word
  | a :: b :: c :: d :: rest => leWord [a, b, c, d] :: words4 rest
  | _ => []

/-- Bytes of the local SRAM of the cores `cs`. -/
def State.loadLocal (cs : List Nat) (off : Nat) (bs : List Byte) (s : State) : State :=
  cs.foldl (fun t c =>
    let u := t.setBytes (localKey c off) bs
    (List.range ((bs.length + 3) / 4)).foldl (fun w i => w.setMark (localKey c (off / 4 * 4 + 4 * i)) .none) u) s

/-- The bytes of a section of type `ty` are written to their destination, by the rules of the target. -/
def State.putSection (ty dest : Nat) (bs : List Byte) (s : State) : State :=
  match ty with
  | 4 => ((s.zeroRange beamStore (beamStore + 32768)).setBytes beamStore (bs.take 32768) : State)
  | 5 => (words4 bs).zipIdx.foldl (fun t e => (t.beamStoreWrite 14 (beamStore + 16 * dest + 4 * e.2) e.1).2) s
  | 7 => s.loadLocal [2] (dest - 0x08000000) bs
  | 10 => (List.range (bs.length / 8)).foldl (fun t i =>
      if decide (0x20000000 ≤ dest + 8 * i) && decide (dest + 8 * i < 0x20020000) then t.palStore (dest + 8 * i) ((bs.drop (8 * i)).take 8)
      else t) s
  | 11 => (words4 bs).zipIdx.foldl (fun t e => t.mapPut ((dest + e.2) % 65536) e.1) s
  | _ =>
    if inSram dest then (s.sramWriteBytes 14 dest bs).2
    else if ty = 6 ∧ 0x08000000 ≤ dest ∧ dest + bs.length ≤ 0x08040000 then s.loadLocal [0, 1] (dest - 0x08000000) bs
    else s

/-- An engine of the Minuet is neither OFF nor in FAULT. -/
def State.mntBusy (s : State) : Bool := (List.range 8).any fun e => s.engEnabled e

/-- IMG_CMD LOAD (R422): refused for STRUCT, for FWMGT outside boot, for BEAMV while an engine is on, and while the engine is busy. -/
def State.startLoad (src : Nat) (s : State) : State :=
  let i := s.f Reg.IMG_LDSECT 5 0
  let x := s.sectionOf src i
  if src = 3 ∨ s.engine ≠ 0 ∨ s.nsect src ≤ i ∨ x.type = 1 ∨ x.type = 7 ∨ (x.type = 4 ∧ s.mntBusy = true) then s.refuse
  else ({ s with img := { s.img with cmd := some (5, src, i) } } : State).setEngine 2

/-- The place a section goes to: IMG_LDDST if it is not zero. -/
def State.loadDest (s : State) (x : Section) : Nat := if s.reg Reg.IMG_LDDST = 0 then x.dest else (s.reg Reg.IMG_LDDST).toNat

/-- `LOAD_DONE`: the copy has been made. `hashOk` is what comparing its hash finds, and `sigOk` what checking a BEAMV section's own
signature finds. -/
def execLoadDone (hashOk sigOk : Bool) (s : State) : Res :=
  match s.img.cmd with
  | some (5, src, i) =>
    let x := s.sectionOf src i
    let s1 := ({ s with img := { s.img with cmd := none } } : State).setEngine 0
    let fail := fun (t : State) (code : Nat) => (t.setReg Reg.IMG_ERR (wd (code + 256 * i))).raise0 stIMG 4
    if x.type = 4 ∧ sigOk = false then .next (fail (s1.secRaise 3 0x305 0 0 0) 9)
    else
      let s2 := s1.putSection x.type (s1.loadDest x) (s1.srcBytes src x.offset x.length)
      .next (if hashOk then (s2.setReg Reg.IMG_ERR 0).raise0 stIMG 3 else fail s2 4)
  | _ => .next s

/-- A write of IMG_CMD (Table 17.7). -/
def State.imgCmd (v : Word) (s : State) : State :=
  match fld v 2 0 with
  | 0 => s
  | 1 => s.startVerify (fld v 10 9)
  | 2 => s.startSsverify
  | 3 => s.swapCmd (bitAt v 8)
  | 4 => s.cancelCmd
  | 5 => s.startLoad (fld v 10 9)
  | _ => s.refuse

end Sys2Proof.Machine
end

