-- ==== Sys2Proof/Machine/Mgt.lean ====
section
/-! DEFINITION. Sensors, automatic brightness, mailboxes, the health snapshot and the event recorder (R429 to R448). -/

namespace Sys2Proof.Machine

/-! Sensors (R429 to R431). -/

def listNat (l : List Nat) (i : Nat) : Nat := match l[i]? with | some x => x | none => 0

/-- A threshold of TMAX: its bit is set on rising to it, and again only after a fall of 32 units. -/
def State.tempEdge (was : Bool) (thr tmax : Int) (bit : Nat) (s : State) : Bool × State :=
  if was then (decide (thr - 32 < tmax), s)
  else if thr ≤ tmax then (true, s.raise0 stMGT bit) else (false, s)

/-- `TEMP_CONVERSION`: the readings of the eight sensors. -/
def execTempConversion (temps : List (BitVec 16)) (s : State) : Res :=
  let t := (List.range 8).map fun k => match temps[k]? with | some v => v | none => 0
  let s1 := t.zipIdx.foldl (fun u e => u.setReg (Reg.MGT_TEMPk e.2) (wd e.1.toNat)) s
  let top := t.foldl (fun (m : Int) v => max m v.toInt) (-32768)
  let s2 := s1.setReg Reg.MGT_TMAX (wd (top % 65536).toNat)
  let thr := fun (u : State) a => sext 16 (u.f a 15 0)
  let (w, s3) := s2.tempEdge s2.mgt.warn (thr s2 Reg.MGT_TWARN) top 0
  let (c, s4) := s3.tempEdge s3.mgt.crit (thr s3 Reg.MGT_TCRIT) top 1
  .next { s4 with mgt := { s4.mgt with warn := w, crit := c } }

/-- `SUPPLY_SAMPLE`: the six supply monitors, in mV. -/
def execSupplySample (mv : List (BitVec 13)) (s : State) : Res :=
  let one := fun (t : State) (k : Nat) =>
    let v := match mv[k]? with | some x => x.toNat | none => 0
    let t1 := t.setReg (Reg.MGT_VMONk k) (wd v)
    let lo := t1.f (Reg.MGT_VLIMk k) 12 0
    let hi := t1.f (Reg.MGT_VLIMk k) 28 16
    let out := decide (hi ≠ 0) && (decide (v < lo) || decide (hi < v))
    let was := t1.mgt.vout.contains k
    let t2 := { t1 with mgt := { t1.mgt with vout := if out then k :: t1.mgt.vout.erase k else t1.mgt.vout.erase k } }
    if out && !was then t2.raise0 stMGT 2 else t2
  .next ((List.range 6).foldl one s)

/-- `ADC_CONVERSION`: the sequencer converts the channel of its next entry; the result is the mean of the last 2^AVG conversions made,
rounded half up. -/
def execAdcConversion (code : BitVec 12) (s : State) : Res :=
  if !s.bit Reg.MGT_ADCCTL 0 then .next s else
  let len := s.f Reg.MGT_ADCCTL 3 1 + 1
  let e := s.mgt.entry % len
  let c := s.f Reg.MGT_ADCSEQ (4 * e + 2) (4 * e)
  let keep := 2 ^ min 8 (s.f Reg.MGT_ADCCTL 7 4)
  let old := match s.mgt.hist.find? fun h => decide (h.1 = c) with | some h => h.2 | none => []
  let new := (code.toNat :: old).take keep
  let res := (2 * new.sum + new.length) / (2 * new.length)
  let s1 := s.setReg (Reg.MGT_ADCRESc c) (wd res)
  let lo := s1.f (Reg.MGT_ADCTHRc c) 11 0
  let hi := s1.f (Reg.MGT_ADCTHRc c) 27 16
  let out := decide (hi ≠ 0) && (decide (res < lo) || decide (hi < res))
  let was := s1.mgt.aout.contains c
  let s2 := { s1 with mgt := { s1.mgt with hist := (c, new) :: s1.mgt.hist.filter (fun h => decide (h.1 ≠ c)), entry := (e + 1) % len,
                                           aout := if out then c :: s1.mgt.aout.erase c else s1.mgt.aout.erase c } }
  .next (if out && !was then s2.raise0 stMGT 3 else s2)

/-! Automatic brightness (R432, R433). -/

/-- The chosen channel's result. -/
def State.abInput (s : State) : Nat := s.f (Reg.MGT_ADCRESc (s.f Reg.MGT_ABCTL 3 1)) 11 0

/-- A write of MGT_ABCTL: at EN going to one the filter and the last output start from what stands there. -/
def State.abctlWrite (v : Word) (s : State) : State :=
  let was := s.bit Reg.MGT_ABCTL 0
  let s1 := s.writeCoded Reg.MGT_ABCTL v
  if !was && s1.bit Reg.MGT_ABCTL 0 then
    { s1 with mgt := { s1.mgt with f := s1.abInput * 16, prev := fld (s1.shd Reg.QDL_BRIGHT) 15 0 } }
  else s1

/-- The derating factor d at temperature t. -/
def derate (t tder0 tder1 dermin : Int) : Int :=
  if t ≤ tder0 then 32768
  else if tder1 ≤ t then dermin
  else 32768 - ((32768 - dermin) * (t - tder0)) / (tder1 - tder0)

/-- One update of the brightness unit: the new f and b. -/
def State.abStep (s : State) : Nat × Nat :=
  let k := s.f Reg.MGT_ABCTL 7 4
  let f : Nat := (((s.mgt.f : Int) + asr (((s.abInput * 16 : Nat) : Int) - s.mgt.f) k) % 65536).toNat
  let i := f / 4096
  let fr := f % 4096
  let curve := fun (j : Nat) => (s.f (Reg.MGT_ABCURVEi j) 15 0 : Int)
  let c := curve i + asr ((curve (i + 1) - curve i) * fr + 2048) 12
  let sx := fun a hi lo => sext 16 (s.f a hi lo)
  let d := derate (sx Reg.MGT_TMAX 15 0) (sx Reg.MGT_ABDER 15 0) (sx Reg.MGT_ABDER 31 16) (s.f Reg.MGT_ABDERMIN 15 0)
  let b := asr (c * d + 16384) 15
  let slew : Int := s.f Reg.MGT_ABCTL 31 16
  let b1 := if slew = 0 then b else clampI ((s.mgt.prev : Int) - slew) ((s.mgt.prev : Int) + slew) b
  (f, (b1 % 65536).toNat)

/-- `AUTO_BRIGHTNESS`: at 0:0 of sub-frame 0 the unit writes the shadow of QDL_BRIGHT and requests a commit of QDLOUT. -/
def execAutoBrightness (s : State) : Res :=
  if s.bit Reg.MGT_ABCTL 0 && s.running && decide (s.beam.pos = ⟨0, 0, 0⟩) then
    let (f, b) := s.abStep
    let s1 := (s.setShd Reg.QDL_BRIGHT (setFld (s.shd Reg.QDL_BRIGHT) 15 0 b)).setReg Reg.MGT_ABOUT (wd b)
    .next (({ s1 with mgt := { s1.mgt with f := f, prev := b } } : State).commitRequest 1)
  else .next s

/-! Mailboxes (R434, R435). -/

/-- The lowest free inbound slot. -/
def State.freeInbound (s : State) : Option Nat := (List.range 4).find? fun k => !s.bit Reg.MGT_MBINSTAT k

/-- The words a message fills: its last one is completed with zero bytes. -/
def State.fillWords (at_ : Nat → Nat) (bs : List Byte) (s : State) : State :=
  (List.range ((bs.length + 3) / 4)).foldl (fun s i => s.setReg (at_ i) (leWord ((bs.drop (4 * i)).take 4))) s

/-- A message is placed in inbound slot `k`; `src` is MGT_MBINSRCs. -/
def State.placeMail (k : Nat) (bs : List Byte) (src : Nat) (s : State) : State :=
  let s1 := State.fillWords (Reg.MGT_MBINs k) (bs.take 2048) s
  ((s1.setReg (Reg.MGT_MBINSRCs k) (wd src)).setBit Reg.MGT_MBINSTAT k true).raise0 stMGT 4

/-- `MAIL`: a MAIL frame addressed to the station takes the lowest free inbound slot; with none free it waits for want of credit (R281). -/
def execMail (hop : Hop) (ok : Bool) (f : Frame) (s : State) : Res :=
  if s.frozen then .next s else
  if f.type ≠ 4 ∨ f.sub ≠ 3 then .next s else
  let (acc, t) := s.arrives hop ok f
  if !acc then .next t else
  match t.freeInbound with
  | some k => .next (t.placeMail k f.data f.src)
  | none => .next s

/-- The bytes of outbound slot `k`. -/
def State.outBytes (s : State) (k n : Nat) : List Byte :=
  ((List.range ((n + 3) / 4)).flatMap fun j => leBytes 4 (s.reg (Reg.MGT_MBOUTs k j)).toNat).take n

/-- MAXPAY of the hop that a message to station `dst` leaves by (R292, R293). -/
def State.mailMaxpay (s : State) (dst : Nat) : Nat :=
  if dst / 64 = s.ringNo then
    match s.ringPort dst none with
    | some x => (s.hop (ringHop x)).maxpay
    | none => 2048
  else
    let hs := [Hop.ringA, Hop.ringB, Hop.trunkA, Hop.trunkB].filter fun h => s.hopUp h
    hs.foldl (fun m h => min m (s.hop h).maxpay) 2048

/-- A message in outbound slot `k` is sent: to a station as one MAIL frame, to the host as an in-band interrupt (R435, R491). -/
def State.sendMail (k : Nat) (s : State) : State :=
  if s.bit Reg.MGT_MBOUTSTAT k then s else
  let d := Reg.MGT_MBOUTs_DST k
  let len := fld (s.reg (Reg.MGT_MBOUTs k 0)) 31 16
  let s1 := s.setBit Reg.MGT_MBOUTSTAT k true
  if s.bit d 14 then { s1 with hi3c := { s1.hi3c with ibis := s1.hi3c.ibis ++ [(0, [1, k])] } }
  else
    let dst := s.f d 13 0
    if s.mailMaxpay dst < len + 16 then (s1.setBit Reg.MGT_MBOUTSTAT k false).raise0 stMGT 6
    else s1.originate (s1.newFrame 4 3 0 dst (s1.outBytes k (len + 16)))

def State.mbSend (v : Word) (s : State) : State :=
  ((bitsOf v).filter fun k => decide (k < 4)).foldl (fun t k => t.sendMail k) s

/-- Inbound slots are freed, and the host is told which are free (R434, R491). -/
def State.mbRelease (v : Word) (s : State) : State :=
  let s1 := s.setReg Reg.MGT_MBINSTAT (s.reg Reg.MGT_MBINSTAT &&& ~~~v)
  if s.f Reg.MGT_MBINSTAT 3 0 &&& fld v 3 0 = 0 then s1
  else { s1 with hi3c := { s1.hi3c with ibis := s1.hi3c.ibis ++ [(0, [2, 15 - s1.f Reg.MGT_MBINSTAT 3 0])] } }

/-- The slot becomes free. -/
def State.mailDone (k : Nat) (s : State) : State := (s.setBit Reg.MGT_MBOUTSTAT k false).raise0 stMGT 5

/-- `MAIL_SENT`: the frame has left, or the host has read the whole message. -/
def execMailSent (slot : Fin 4) (s : State) : Res :=
  .next (if s.bit Reg.MGT_MBOUTSTAT slot.val then s.mailDone slot.val else s)

/-! The health snapshot (R436, Table 18.2). -/

def State.health (s : State) : List Word :=
  let outcomes := fun (lo : Nat) => wd ((List.range 8).map fun i => s.f (Reg.SIG_REGr_STAT (lo + i)) 2 0 * 16 ^ i).sum
  [s.reg Reg.EVR_SECS, wd s.beam.frame, s.reg Reg.BEAM_LOCKSTAT, s.reg Reg.BEAM_PHERR, s.reg Reg.QDL_SWAPS,
    wd (s.f Reg.QDL_HOLDS 15 0 + 2 ^ 16 * s.f Reg.BEAM_WHOLDS 15 0), s.reg Reg.SIG_PAVSTAT, outcomes 0, outcomes 8,
    s.reg (Reg.AKx_LINK 0), s.reg (Reg.AKx_LINK 1),
    wd (s.f Reg.MRC_UECNT 15 0 + 2 ^ 16 * sat 0xFFFF (s.reg Reg.MRC_CETOTAL).toNat),
    wd (s.f Reg.MGT_TMAX 15 0 + 2 ^ 16 * s.f Reg.MGT_STAT 7 0), s.reg Reg.EVR_OPSEQ, s.reg Reg.EVR_SSEQ, s.reg Reg.IMG_ACTVER]

def State.snapHealth (v : Word) (s : State) : State :=
  if bitAt v 0 then s.health.zipIdx.foldl (fun t e => t.setReg (Reg.MGT_HSw e.2) e.1) s else s

/-! The record store (R439 to R441). -/

def opBase : Nat := 0x38000000
def secBase : Nat := 0x3800C000

def isSecCode (c : Nat) : Bool := decide (0x300 ≤ c) && decide (c < 0x400)

/-- A record's eight words (Table 18.3). -/
def recordWords (e : Ev) (cls summary : Bool) (seq : Word) : List Word :=
  [e.secs, wd (e.pcyc % 2 ^ 24 + 2 ^ 24 * (e.sev % 4) + 2 ^ 26 * b2n cls + 2 ^ 27 * b2n summary + 2 ^ 28 * b2n e.tunset),
    wd (e.sub % 2 ^ 15 + 2 ^ 16 * (e.code % 2 ^ 11)), seq, e.arg0, e.arg1, e.arg2, e.arg3]

def State.putRecord (a : Nat) (ws : List Word) (s : State) : State :=
  ws.zipIdx.foldl (fun t e => (t.setWord (a + 4 * e.2) e.1).setMark (a + 4 * e.2) .none) s

/-- The slot that an operational record takes: a free one, else that of the lowest SEQ among those of no higher severity (R440). -/
def State.opSlot (sev : Nat) (s : State) : Option Nat :=
  if s.evr.op.length < 1536 then (List.range 1536).find? fun i => !s.evr.op.any fun r => decide (r.slot = i)
  else
    let age := fun (r : Slot) => (s.reg Reg.EVR_OPSEQ - r.seq).toNat
    let cands := s.evr.op.filter fun r => decide (r.sev ≤ sev)
    match cands with
    | [] => none
    | c :: cs => some (cs.foldl (fun m r => if age m < age r then r else m) c).slot

def State.storeOp (e : Ev) (summary : Bool) (s : State) : State :=
  match s.opSlot e.sev with
  | none => (s.count Reg.EVR_DROPS 15 0).raise0 stEVR 1
  | some i =>
    let q := s.reg Reg.EVR_OPSEQ
    let s1 := s.putRecord (opBase + 32 * i) (recordWords e false summary q)
    let op := s1.evr.op.filter (fun r => decide (r.slot ≠ i)) ++ [⟨i, q, e.sev⟩]
    (({ s1 with evr := { s1.evr with op := op } } : State).setReg Reg.EVR_OPSEQ (q + 1)).setReg Reg.EVR_OPCNT (wd op.length)

/-- Security records fill slots 0 to 255 and are kept; later ones go round slots 256 to 511 (R441). -/
def State.storeSec (e : Ev) (s : State) : State :=
  let n := s.evr.secNext
  let j := if n < 256 then n else 256 + n % 256
  let q := s.reg Reg.EVR_SSEQ
  let s1 := s.putRecord (secBase + 32 * j) (recordWords e true false q)
  let sec := s1.evr.sec.filter (fun r => decide (r.slot ≠ j)) ++ [⟨j, q, e.sev⟩]
  (({ s1 with evr := { s1.evr with sec := sec, secNext := n + 1 } } : State).setReg Reg.EVR_SSEQ (q + 1)).setReg Reg.EVR_SCNT (wd sec.length)

/-- The security class is cleared, in the store and in the queue (R441). -/
def State.clearSecurity (s : State) : State :=
  let s1 := s.zeroRange secBase (secBase + 0x4000)
  (({ s1 with evr := { s1.evr with sec := [], secNext := 0, queue := s1.evr.queue.filter fun e => !isSecCode e.code } } : State).setReg
    Reg.EVR_SSEQ 0).setReg Reg.EVR_SCNT 0

/-! Rate limiting (R443). -/

def State.burst (s : State) : Nat := s.f Reg.EVR_RL 2 0 + 1
def State.tokens (s : State) (code : Nat) : Nat :=
  match s.evr.tokens.find? fun t => decide (t.1 = code) with | some t => min t.2 s.burst | none => s.burst

def State.setTokens (code n : Nat) (s : State) : State :=
  let rest := s.evr.tokens.filter fun t => decide (t.1 ≠ code)
  { s with evr := { s.evr with tokens := if n < s.burst then (code, n) :: rest else rest } }

/-- A suppressed event is remembered. -/
def State.suppress (e : Ev) (s : State) : State :=
  let old := s.evr.supp.find? fun x => decide (x.code = e.code)
  let new : Supp := match old with
    | some x => { x with count := x.count + 1, inst := e.arg0, sev := max x.sev e.sev, last := e.secs }
    | none => ⟨e.code, 1, e.arg0, e.sev, e.secs, e.secs⟩
  { s with evr := { s.evr with supp := new :: s.evr.supp.filter fun x => decide (x.code ≠ e.code) } }

/-- `EVENT_STORE`: the oldest queued event is stored, or suppressed; a free entry lets a loss be logged (R438 to R443). -/
def execEventStore (s : State) : Res :=
  match s.evr.queue with
  | [] => .next s
  | e :: rest =>
    let s1 := { s with evr := { s.evr with queue := rest } }
    let s2 :=
      if s1.evr.lost = 0 then s1
      else ({ s1 with evr := { s1.evr with lost := 0 } } : State).logEvent 3 0 (wd (s1.f Reg.EVR_DROPS 31 16)) 0 0
    if isSecCode e.code then .next (s2.storeSec e)
    else if s2.f Reg.EVR_RL 31 16 = 0 then .next (s2.storeOp e false)
    else match s2.tokens e.code with
      | 0 => .next (s2.suppress e)
      | n + 1 => .next ((s2.setTokens e.code n).storeOp e false)

/-- The summary of a code's suppressed events is stored; it spends a token. -/
def State.summarise (x : Supp) (s : State) : State :=
  match s.tokens x.code with
  | 0 => s
  | n + 1 =>
    let e : Ev := { secs := s.reg Reg.EVR_SECS, pcyc := s.f Reg.EVR_PCYC 23 0, sub := s.f Reg.EVR_SUB 14 0, tunset := !s.bit Reg.EVR_STAT 3,
                    code := x.code, sev := x.sev, arg0 := x.inst, arg1 := wd x.count, arg2 := x.first, arg3 := x.last }
    let s1 := (s.setTokens x.code n).storeOp e true
    { s1 with evr := { s1.evr with supp := s1.evr.supp.filter fun y => decide (y.code ≠ x.code) } }

def insertSupp (x : Supp) : List Supp → List Supp
  | [] => [x]
  | y :: ys => if x.code < y.code then x :: y :: ys else y :: insertSupp x ys

/-- `RATE_LIMIT_TICK`: every bucket that is not full gains a token, then summaries leave in ascending code. -/
def execRateLimitTick (s : State) : Res :=
  if s.f Reg.EVR_RL 31 16 = 0 then .next s else
  let s1 := s.evr.tokens.foldl (fun t e => t.setTokens e.1 (e.2 + 1)) s
  .next ((s1.evr.supp.foldl (fun l x => insertSupp x l) []).foldl (fun t x => t.summarise x) s1)

/-! Time, the window, and software events (R437, R444, R445). -/

/-- The first write of EVR_SECS or EVR_PCYC since power-on takes effect and sets TSET; further writes are ignored. -/
def State.timeWrite (pcyc : Bool) (v : Word) (s : State) : State :=
  if (if pcyc then s.evr.pcycSet else s.evr.secsSet) then s else
  let s1 := if pcyc then s.setReg Reg.EVR_PCYC (v &&& 0xFFFFFF) else s.setReg Reg.EVR_SECS v
  ({ s1 with evr := { s1.evr with secsSet := s1.evr.secsSet || !pcyc, pcycSet := s1.evr.pcycSet || pcyc } } : State).setBit Reg.EVR_STAT 3 true

/-- The window starts to seek sequence number `seq` of a class. -/
def State.startSeek (cls : Nat) (seq : Word) (s : State) : State :=
  ({ s with evr := { s.evr with seek := some (cls, seq) } } : State).setReg Reg.EVR_WSTAT (wd (2 + 4 * cls))

/-- A write of EVR_CURCTL. -/
def State.curctl (v : Word) (s : State) : State := if bitAt v 1 then s.startSeek (fld v 0 0) (s.reg Reg.EVR_CURSEQ) else s

/-- The stored record of a class with the lowest SEQ at or after `seq`, over the next 2^31 values. -/
def State.seekRecord (cls : Nat) (seq : Word) (s : State) : Option Slot :=
  let d := fun (r : Slot) => (r.seq - seq).toNat
  match ((if cls = 1 then s.evr.sec else s.evr.op).filter fun r => decide (d r < 2 ^ 31)) with
  | [] => none
  | r :: rs => some (rs.foldl (fun m x => if d x < d m then x else m) r)

/-- `EVR_WINDOW_LATCH`: the window holds a copy of the record found, or VALID reads zero. -/
def execEvrWindowLatch (s : State) : Res :=
  match s.evr.seek with
  | none => .next s
  | some (cls, seq) =>
    let s1 := { s with evr := { s.evr with seek := none } }
    match s1.seekRecord cls seq with
    | none => .next (s1.setReg Reg.EVR_WSTAT (wd (4 * cls)))
    | some r =>
      let a := (if cls = 1 then secBase else opBase) + 32 * r.slot
      let s2 := (List.range 8).foldl (fun t w => t.setReg (Reg.EVR_WINw w) (t.word (a + 4 * w))) s1
      .next (s2.setReg Reg.EVR_WSTAT (wd (1 + 4 * cls)))

/-- A read of EVR_WIN7 without the debug attribute lets the window go on to the next record in SEQ order. -/
def State.windowNext (s : State) : State :=
  if s.bit Reg.EVR_WSTAT 0 then s.startSeek (s.f Reg.EVR_WSTAT 2 2) (s.reg (Reg.EVR_WINw 3) + 1) else s

/-- A software event of processor `t`. -/
def State.logGo (t : Nat) (v : Word) (s : State) : State :=
  let code := fld v 10 0
  let a := fun i => s.reg (Reg.EVR_LOGt_Aa t i)
  if code < 0x400 then s.raise0 stEVR 2
  else s.enqueueEvent code (fld v 13 12) (a 0) (a 1) (a 2) (a 3)

end Sys2Proof.Machine
end

