-- ==== Sys2Proof/Machine/Security.lean ====
section
/-! DEFINITION. The security block: the life cycle, the key store, tamper and the wipe of secure SRAM (R86, R449 to R464). -/

namespace Sys2Proof.Machine

/-- A SEC_STAT bit for which Table 19.6 gives no code. -/
def State.secBit (bit : Nat) (s : State) : State := (s.setBit Reg.SEC_STAT bit true).arrive 184

/-- Registers of the block that read what is held elsewhere (Table 19.8). -/
def State.secReg (a : Nat) (s : State) : Option Word :=
  let bits := fun (p : Nat → Bool) (n : Nat) => ((List.range n).filter p).foldl (fun x i => x + 2 ^ i) 0
  if a = Reg.SEC_LCS then some (wd (s.sec.life % 8 + 256 * b2n s.sec.tlock + 4096 * (s.sec.level % 4)))
  else if a = Reg.SEC_KEYS then
    some (wd (bits (fun i => match s.sec.owner[i]? with | some (some _) => true | _ => false) 4 + 16 * bits (fun i => s.sec.revoked.contains i) 4
      + 256 * b2n s.sec.dbgKey.isSome + 4096 * bits (fun i => s.sec.fleet.contains (i + 1)) 4))
  else if a = Reg.SEC_SVN then some (wd s.sec.svn)
  else if a = Reg.SEC_UIDLO then some (wd Config.uid)
  else if a = Reg.SEC_UIDHI then some (wd (Config.uid / 2 ^ 32))
  else if a = Reg.SEC_DBGFAIL then
    let left := if s.sec.locked then (s.sec.lockUntil - s.pwr.uptime + 999999) / 1000000 else 0
    some (wd (sat 15 s.sec.fails + 2 ^ 16 * sat 2047 left))
  else none

/-- Secure SRAM is wiped: the loaded fleet keys go with it (R86, R454). -/
def State.wipe (cause : Nat) (s : State) : State :=
  ({ s with sec := { s.sec with fleet := [], wipeCause := cause } } : State).startWipe

/-- `WIPE_DONE`: every word of secure SRAM is zero; the accesses that waited are presented, and a write is made after the wipe (R86). -/
def execWipeDone (s : State) : Res :=
  if s.fab.wiping then
    let s1 := s.fab.stalled.foldl (fun t w => t.setBytes w.1 w.2) s
    .next (({ s1 with fab := { s1.fab with wiping := false, stalled := [] } } : State).secRaise 2 0x302 (wd s1.sec.wipeCause) 0 0)
  else .next s

/-! Commands (R453 to R458, R464). -/

/-- A token of the LEVEL has been verified within the last 60 s (R453). -/
def State.tokenHeld (s : State) (level : Nat) : Bool :=
  match s.sec.token with
  | some (l, t) => decide (l = level) && decide (s.pwr.uptime ≤ t + 60000000)
  | none => false

/-- The transition is allowed (Table 19.2), and whether a reset follows it. -/
def State.transition (s : State) (dst : Nat) : Option Bool :=
  let from_ := s.sec.life
  if from_ = 0 ∧ dst = 1 then
    (match s.sec.owner[0]? with
     | some (some _) => if s.sec.dbgKey.isSome then some false else none
     | _ => none)
  else if from_ = 1 ∧ dst = 2 then some false
  else if (from_ = 1 ∨ from_ = 2) ∧ dst = 3 ∧ s.tokenHeld 0x80 = true then some true
  else if (from_ = 0 ∨ from_ = 3) ∧ dst = 4 then some true
  else if (from_ = 1 ∨ from_ = 2) ∧ dst = 4 ∧ s.tokenHeld 0x81 = true then some true
  else none

def inSecure (a n : Nat) : Bool := decide (0x30000000 ≤ a) && decide (a + n ≤ 0x30040000)

/-- The command may run now, with SEC_ARG as its argument. -/
def State.secAllowed (s : State) (op : Nat) : Bool :=
  let arg := (s.reg Reg.SEC_ARG).toNat
  let src := (s.reg Reg.SEC_SRC).toNat
  match op with
  | 1 => (s.transition (arg % 8)).isSome
  | 2 => !s.sec.tlock && decide (s.sec.life ≤ 1) && decide (arg < 4) && inSecure src 96
  | 3 => !s.sec.tlock && decide (arg < 4) && (match s.sec.signed with | some (k, _) => decide (k ≠ arg) | none => true)
  | 4 => decide (s.sec.life = 0) && inSecure src 96
  | 5 => decide (arg ≤ 255) && (match s.sec.signed with | some (_, v) => decide (arg ≤ v) | none => false)
  | 6 => !s.sec.tlock && decide (1 ≤ arg % 8) && decide (arg % 8 ≤ 4)
  | 7 => decide (1 ≤ arg % 8) && decide (arg % 8 ≤ 4)
  | 8 => true
  | _ => false

/-- A write of SEC_CMD: refused, done at once (FLEETZERO, DBGDROP), or begun. -/
def State.secCmd (op : Nat) (s : State) : State :=
  let arg := (s.reg Reg.SEC_ARG).toNat
  if s.sec.cmd.isSome ∨ s.secAllowed op = false then s.secBit 4
  else if op = 7 then
    let k := arg % 8
    let s1 := { s with sec := { s.sec with fleet := s.sec.fleet.erase k } }
    (s1.logEvent 0x30B (wd k) (s1.reg Reg.SEC_STAT) 1 0).secBit 9
  else if op = 8 then (s.dropDebug 0).secBit 9
  else { s with sec := { s.sec with cmd := some (op, arg) } }

/-- The steps of a life-cycle transition once its bit is programmed (R454). -/
def State.advance (dst : Nat) (rst : Bool) (s : State) : State :=
  let old := s.sec.life
  let s1 := { s with sec := { s.sec with life := dst, token := none } }
  let s2 := ((s1.wipe 1).clearSecurity).dropDebug 0
  let s3 := (s2.secRaise 7 0x300 0 (wd old) (wd dst)).secBit 9
  if rst then s3.chipReset 3 else s3

/-- `SEC_COMMAND_DONE`: the command in progress completes. `ok` is false where an OTP read-back differs, or a fleet key's tag fails. A
transition allowed when it was requested is not abandoned (R454); Table 19.2 calls for a reset after those to RETURNED and SCRAPPED. -/
def execSecCommandDone (ok : Bool) (s0 : State) : Res :=
  match s0.sec.cmd with
  | none => .next s0
  | some (op, arg) =>
    let s := { s0 with sec := { s0.sec with cmd := none } }
    let key := s.le (s.reg Reg.SEC_SRC).toNat 96
    if !ok then .next ((s.secBit (if op = 6 then 3 else 8)).secBit 9)
    else match op with
      | 1 =>
        .next (s.advance (arg % 8) (decide (3 ≤ arg % 8)))
      | 2 =>
        let old := match s.sec.owner[arg]? with | some (some k) => k | _ => 0
        let s1 := { s with sec := { s.sec with owner := s.sec.owner.set arg (some (old ||| key)) } }
        .next ((s1.logEvent 0x30A (wd arg) (s1.reg Reg.SEC_STAT) 0 0).secBit 9)
      | 3 =>
        let s1 := { s with sec := { s.sec with revoked := arg :: s.sec.revoked.erase arg } }
        .next ((s1.logEvent 0x30A (wd arg) (s1.reg Reg.SEC_STAT) 1 0).secBit 9)
      | 4 =>
        let old := match s.sec.dbgKey with | some k => k | none => 0
        .next (({ s with sec := { s.sec with dbgKey := some (old ||| key) } } : State).secBit 9)
      | 5 =>
        if arg ≤ s.sec.svn then .next (s.secBit 9) else
        let s1 := { s with sec := { s.sec with svn := arg } }
        .next ((s1.logEvent 0x309 0 (s1.reg Reg.SEC_STAT) (wd s.sec.svn) (wd arg)).secBit 9)
      | _ =>
        let k := arg % 8
        let s1 := { s with sec := { s.sec with fleet := k :: s.sec.fleet.erase k } }
        .next ((s1.logEvent 0x30B (wd k) (s1.reg Reg.SEC_STAT) 0 0).secBit 9)

/-! Tamper (R459, R460). -/

/-- Input `n` of TAMPER0 and TAMPER1 is enabled, and no event of it stands latched in SEC_STAT.TAMPn: while one does, its level is no
new event (DEDUCED from R460, by which an input still active tampers again once the latch is cleared; log 117). -/
def State.tamperArmed (n : Nat) (s : State) : Bool := s.bit Reg.SEC_TCFG (8 * n) && !s.bit Reg.SEC_STAT n

/-- `TAMPER_EVENT`: the inputs given are active in two consecutive samples. Both together act once, with the stronger action. -/
def execTamperEvent (in0 in1 : Bool) (s : State) : Res :=
  let hit := (if in0 && s.tamperArmed 0 then [0] else []) ++ (if in1 && s.tamperArmed 1 then [1] else [])
  if hit.isEmpty then .next s else
  let action := hit.foldl (fun m n => max m (min 2 (s.f Reg.SEC_TCFG (8 * n + 3) (8 * n + 2)))) 0
  let s1 := (s.wipe 0).dropDebug 0
  let s2 := if s1.pwr.state = 0 then s1 else { s1 with pwr := { s1.pwr with waking := true } }
  let s3 := if 1 ≤ action then (s2.retrain 0).retrain 1 else s2
  let s4 := if 2 ≤ action then { s3 with sec := { s3.sec with tlock := true } } else s3
  .next (hit.foldl (fun t n => t.secRaise n 0x301 (wd n) (wd action) (wd (b2n t.sec.tlock))) s4)

/-- A write of SEC_TCLR. -/
def State.tclr (v : Word) (s : State) : State :=
  if v = 0xA55A ∧ s.sec.bootPassed = true then { s with sec := { s.sec with tlock := false } } else s

end Sys2Proof.Machine
end

