-- ==== Sys2Proof/Machine/Pins.lean ====
section
/-! DEFINITION. The general-purpose pins: edges, switches, MATCH pulses, sleep holds and locks, and ALERT_N (R479 to R488). -/

namespace Sys2Proof.Machine

/-- The level at a pad: what the pin drives, else what stands outside it. -/
def State.padLevel (n : Nat) (outside : Bool) (s : State) : Bool :=
  match s.padDrive n with
  | some b => b
  | none => outside

def State.setLevel (n : Nat) (b : Bool) (s : State) : State := { s with pin := { s.pin with level := s.pin.level.set n b } }

/-- PCLK runs (R479). -/
def State.pclk (s : State) : Bool := decide (s.pwr.state < 3)

/-- The pad holds through a switch, or keeps its sleep state: its edge detector is idle. -/
def State.padIdle (s : State) (n : Nat) : Bool :=
  s.pin.held.any (fun e => decide (e.1 = n)) || s.pin.asleep.any (fun e => decide (e.1 = n))

/-- `GP_EDGE`: the pad's level as the synchroniser sees it. An edge that EDGE selects, after INV, fires the GP source (R481). -/
def execGpEdge (n : Fin 48) (level : Bool) (s : State) : Res :=
  if s.pclk then
    let cfg := Reg.PIN_GPn_CFG n.val
    let b := s.padLevel n.val level
    let was := (s.pin.level[n.val]?).getD false
    let s1 := s.setLevel n.val b
    let up := b != s.bit cfg 7
    let edge := s.f cfg 15 14
    let chosen := if up then edge.testBit 0 else edge.testBit 1
    if b != was && chosen && !s.padIdle n.val && decide (s.f cfg 2 0 ≠ 6) then .next (s1.arrive (193 + n.val)) else .next s1
  else .next s

/-- `PIN_SWITCH`: the block adopts its new set-up; each pad whose FUNC, FUNC2, F2EN or INV changes holds what it drove (R484). -/
def execPinSwitch (s : State) : Res :=
  if s.img.pinsDue then
    let s1 := s.adopt fun a => decide (blockOf a = 17)
    let changed := (List.range 48).filter fun n => decide (s.f (Reg.PIN_GPn_CFG n) 7 0 ≠ s1.f (Reg.PIN_GPn_CFG n) 7 0)
    let holds := changed.map fun n => (n, s.padDrive n)
    .next { s1 with img := { s1.img with pinsDue := false },
                    pin := { s1.pin with held := holds ++ s1.pin.held.filter fun e => !changed.contains e.1 } }
  else .next s

/-- `PIN_SWITCH_HOLD_END`: the new functions drive the pad, and its edge detector takes the level there as its reference (R484). -/
def execPinSwitchHoldEnd (n : Fin 48) (level : Bool) (s : State) : Res :=
  let s1 := { s with pin := { s.pin with held := s.pin.held.filter fun e => decide (e.1 ≠ n.val) } }
  .next (s1.setLevel n.val (s1.padLevel n.val level))

/-- `MATCH_PULSE_END` (R486). -/
def execMatchPulseEnd (n : Fin 4) (s : State) : Res :=
  .next { s with pin := { s.pin with matchHi := s.pin.matchHi.filter fun k => decide (k ≠ n.val) } }

/-- A write of one to PIN_CTRL.RELEASE: after a wake from DEEP the pads return to their functions (R485). -/
def State.pinRelease (s : State) : State := if s.bit Reg.PIN_CTRL 0 then s else (s.setBit Reg.PIN_CTRL 0 true).wakePads

/-- A lock sequence is aborted (R487). -/
def State.lockAbort (s : State) : State := ({ s with pin := { s.pin with lockSeq := none } } : State).raise0 stPIN 0

/-- A write of PIN_LOCK (R487). -/
def State.pinLock (v : Word) (s : State) : State :=
  let pin := fld v 5 0
  if fld v 15 8 ≠ 0x4C then s.lockAbort
  else match s.pin.lockSeq, bitAt v 16 with
    | none, false => { s with pin := { s.pin with lockSeq := some pin } }
    | none, true => s.lockAbort
    | some p, second =>
      if p ≠ pin then s.lockAbort
      else if second then
        let s1 := { s with pin := { s.pin with lockSeq := none } }
        if pin < 48 then s1.setBit (if pin < 32 then Reg.PIN_LOCKED0 else Reg.PIN_LOCKED1) (pin % 32) true else s1
      else s

/-- `PIN_LOCK_TIMEOUT` (R487, R477). -/
def execPinLockTimeout (s : State) : Res := .next (if s.pin.lockSeq.isSome then s.lockAbort else s)

/-- A write to a pin's set-up: a locked pin's is ignored and sets LOCKWR (R487). -/
def State.pinCfgWrite (a : Nat) (v : Word) (s : State) : State := if s.lockedPin a then s.raise0 stPIN 1 else s.writeCoded a v

/-- PIN_INw: the synchronised level after INV (Table 21.6). With the digital input off it is open (R481, R485, log 30). -/
def State.pinIn (w : Nat) (s : State) : Word :=
  wd (((List.range 32).filter fun i =>
    let n := 32 * w + i
    if n < 48 then
      if s.f (Reg.PIN_GPn_CFG n) 2 0 = 6 ∨ (s.pin.asleep.any fun e => decide (e.1 = n)) = true then Config.inputOff n
      else ((s.pin.level[n]?).getD false) != s.bit (Reg.PIN_GPn_CFG n) 7
    else false).foldl (fun x i => x + 2 ^ i) 0)

/-- The causes of ALERT_N, as PIN_ALERT[15:8] shows them active (Table 21.6). -/
def State.alertCauses (s : State) : Nat :=
  b2n (s.bit Reg.MGT_STAT 1) + 2 * b2n (decide (s.f Reg.SIG_PAVSTAT 16 0 ≠ 0)) + 4 * b2n (decide (s.lock = 3))
    + 8 * b2n (s.bit Reg.MRC_STAT 3)

/-- PIN_ALERT as a read returns it. -/
def State.pinAlert (s : State) : Word := setFld (s.reg Reg.PIN_ALERT) 15 8 s.alertCauses

/-- ALERT_N is low: the boot ROM holds it, SW is set, or an enabled cause is active (R488). -/
def State.alertLow (s : State) : Bool :=
  s.pin.alert || s.bit Reg.PIN_ALERT 0 || decide (s.f Reg.PIN_ALERT 15 8 &&& s.alertCauses ≠ 0)

end Sys2Proof.Machine
end

