-- ==== Sys2Proof/Machine/I3c.lean ====
section
/-! DEFINITION. The bus side of the I3C host port, and the I3C cabinet port (R489, R491, R492, R494). -/

namespace Sys2Proof.Machine

/-! The host port: targets 0 main and 1 debug. -/

/-- The dynamic address of a target, if it has one (HI3C_DADDR). -/
def State.daddr (s : State) (t : Nat) : Option Nat := if s.bit Reg.HI3C_DADDR (8 * t + 7) then some (s.f Reg.HI3C_DADDR (8 * t + 6) (8 * t)) else none

/-- Traffic addressed to target `t`, with effect `f`: it wakes a sleeping chip (R408). In NAP and deeper the port stands still and the
traffic itself is lost; in IDLE and DOZE it is served at once while the wake starts (log 117). -/
def State.hostServe (t : Nat) (f : State → State) (s : State) : State :=
  if (s.daddr t).isNone then s else if 3 ≤ s.pwr.state then s.rouse else f s.rouse

/-- A target is given an address, and DAA is set. -/
def State.setDaddr (t a : Nat) (s : State) : State :=
  ((s.setF Reg.HI3C_DADDR (8 * t + 6) (8 * t) a).setBit Reg.HI3C_DADDR (8 * t + 7) true).raise0 stHI3C 3

/-- `ENTDAA`: the addresses that the host assigns; a target that has one takes no part. -/
def execEntdaa (main debug : Option (BitVec 7)) (s : State) : Res :=
  let give := fun (t : Nat) (o : Option (BitVec 7)) (u : State) =>
    match o, u.daddr t with
    | some a, none => u.setDaddr t a.toNat
    | _, _ => u
  .next (give 1 debug (give 0 main s))

/-- `SETDASA`: the main target answers at the static address HI3C_CFG.SADDR, unless that is zero (Table 21.4). -/
def execSetdasa (addr dyn : BitVec 7) (s : State) : Res :=
  let sa := s.f Reg.HI3C_CFG 6 0
  if sa ≠ 0 ∧ addr.toNat = sa ∧ s.daddr 0 = none then .next (if 3 ≤ s.pwr.state then s.rouse else s.rouse.setDaddr 0 dyn.toNat)
  else .next s

/-- `SETNEWDA`. -/
def execSetnewda (target : Fin 2) (addr : BitVec 7) (s : State) : Res :=
  .next (s.hostServe target.val (State.setDaddr target.val addr.toNat))

/-- `RSTDAA`. -/
def execRstdaa (s : State) : Res := .next (s.setReg Reg.HI3C_DADDR 0)

/-- The targets a CCC reaches: one that has an address, or by broadcast both. -/
def State.cccTargets (s : State) (t : Option (Fin 2)) : List Nat :=
  match t with
  | some x => if (s.daddr x.val).isSome then [x.val] else []
  | none => [0, 1]

/-- A CCC that one target or, by broadcast, both take. -/
def State.cccServe (t : Option (Fin 2)) (f : State → State) (s : State) : State :=
  match t with
  | some x => s.hostServe x.val f
  | none => f s

/-- Target events switched on or off. -/
def State.events (t : Option (Fin 2)) (intr hj on : Bool) (s : State) : State :=
  (s.cccTargets t).foldl (fun u i =>
    { u with hi3c := { u.hi3c with ibiOn := if intr then u.hi3c.ibiOn.set i on else u.hi3c.ibiOn,
                                   hjOn := if hj then u.hi3c.hjOn.set i on else u.hi3c.hjOn } }) s

/-- `ENEC`. -/
def execEnec (target : Option (Fin 2)) (intr hj : Bool) (s : State) : Res := .next (s.cccServe target (State.events target intr hj true))

/-- `DISEC`. -/
def execDisec (target : Option (Fin 2)) (intr hj : Bool) (s : State) : Res := .next (s.cccServe target (State.events target intr hj false))

/-- `SETMWL`: at most the 2,064 bytes of Table 21.4. -/
def execSetmwl (target : Option (Fin 2)) (len : Nat) (s : State) : Res :=
  .next (s.cccServe target fun t =>
    (t.cccTargets target).foldl (fun u i => { u with hi3c := { u.hi3c with mwl := u.hi3c.mwl.set i (min len 2064) } }) t)

/-- `SETMRL`: at most 2,048 bytes. -/
def execSetmrl (target : Option (Fin 2)) (len : Nat) (s : State) : Res :=
  .next (s.cccServe target fun t =>
    (t.cccTargets target).foldl (fun u i => { u with hi3c := { u.hi3c with mrl := u.hi3c.mrl.set i (min len 2048) } }) t)

/-- A target that has an address returns a value. -/
def State.cccGet (t : Fin 2) (v : Nat) (s : State) : State := s.hostServe t.val fun u => u.emit (.i3cValue t.val v)

/-- `GETMWL`. -/
def execGetmwl (target : Fin 2) (s : State) : Res := .next (s.cccGet target ((s.hi3c.mwl[target.val]?).getD 0))

/-- `GETMRL`. -/
def execGetmrl (target : Fin 2) (s : State) : Res := .next (s.cccGet target ((s.hi3c.mrl[target.val]?).getD 0))

/-- `GETPID`: manufacturer code, part ID 0x880 and the instance (R489; places as in MIPI I3C Basic, log 31). -/
def execGetpid (target : Fin 2) (s : State) : Res :=
  .next (s.cccGet target (s.f Reg.HI3C_PIDHI 14 0 * 2 ^ 33 + 0x880 * 2 ^ 16 + target.val * 2 ^ 12))

/-- `GETBCR`. -/
def execGetbcr (target : Fin 2) (s : State) : Res := .next (s.cccGet target 0x1E)

/-- `GETDCR`. -/
def execGetdcr (target : Fin 2) (s : State) : Res := .next (s.cccGet target (s.f Reg.HI3C_DCR 7 0))

/-- A value that the spec does not state is returned: a free one (log 29). -/
def State.cccGetFree (t : Fin 2) (s : State) : State :=
  let (k, s1) := s.draw
  s1.cccGet t (Config.freeWord k).toNat

/-- `GETSTATUS`. -/
def execGetstatus (target : Fin 2) (s : State) : Res := .next (s.cccGetFree target)

/-- `GETMXDS`. -/
def execGetmxds (target : Fin 2) (s : State) : Res := .next (s.cccGetFree target)

/-- `ENTHDR0`. -/
def execEnthdr0 (s : State) : Res := .next { s with hi3c := { s.hi3c with hdr := true } }

/-- `HDR_EXIT`: the targets are back in SDR. -/
def execHdrExit (s : State) : Res := .next { s with hi3c := { s.hi3c with hdr := false } }

/-- `RSTACT`: actions 0 and 1 only. -/
def execRstact (target : Option (Fin 2)) (action : Nat) (s : State) : Res :=
  .next (if action ≤ 1 then
    s.cccServe target fun t =>
      (t.cccTargets target).foldl (fun u i => { u with hi3c := { u.hi3c with rstact := u.hi3c.rstact.set i action } }) t
  else s)

/-- `HI3C_IBI`: a cause has pulled ALERT_N low (`alert`), or the oldest waiting request that its target may send leaves (R491). -/
def execHi3cIbi (alert : Bool) (s : State) : Res :=
  let s1 := if alert && s.alertLow then { s with hi3c := { s.hi3c with ibis := s.hi3c.ibis ++ [(0, [3, s.alertCauses])] } } else s
  let ok := fun (e : Nat × List Nat) => (s1.hi3c.ibiOn[e.1]?).getD false && (s1.daddr e.1).isSome
  match s1.hi3c.ibis.find? ok with
  | none => .next s1
  | some e => .next (({ s1 with hi3c := { s1.hi3c with ibis := s1.hi3c.ibis.erase e } } : State).emit (.ibi e.1 e.2))

/-- `HOT_JOIN`: sent once after reset (Table 21.4). -/
def execHotJoin (s : State) : Res :=
  let wants := [0, 1].any fun t => (s.daddr t).isNone && (s.hi3c.hjOn[t]?).getD false
  if s.bit Reg.HI3C_CFG 8 && !s.hi3c.joined && wants then
    .next (({ s with hi3c := { s.hi3c with joined := true } } : State).emit .hotJoin)
  else .next s

/-! The cabinet port. -/

/-- A write of CI3C_CMD: the command joins the queue. -/
def State.ci3cCmd (v : Word) (s : State) : State := { s with ci3c := { s.ci3c with cmds := s.ci3c.cmds ++ [v] } }

/-- KIND 1, 6 and 8 read. -/
def ci3cReads (kind : Nat) : Bool := decide (kind = 1) || decide (kind = 6) || decide (kind = 8) 

/-- The command at the front is rejected: its KIND has no meaning, or it is HDR while HDREN is zero (log 32). -/
def State.ci3cRejects (s : State) (kind : Nat) : Bool :=
  decide (8 < kind) || ((decide (kind = 5) || decide (kind = 6)) && !s.bit Reg.CI3C_CTRL 1)

/-- Bytes filled up to whole words (four per access of CI3C_RXD). -/
def padWords (bs : List Byte) : List Byte := bs ++ List.replicate ((4 - bs.length % 4) % 4) 0

/-- `CI3C_COMMAND_DONE`: the command at the front ends with a response code, the bytes done, and the bytes received. -/
def execCi3cCommandDone (resp : Fin 4) (count : Nat) (data : List Byte) (s : State) : Res :=
  if s.bit Reg.CI3C_CTRL 0 = false then .next s else
  match s.ci3c.cmds with
  | [] => .next s
  | v :: rest =>
    let kind := fld v 3 0
    let len := fld v 27 16
    let s0 := { s with ci3c := { s.ci3c with cmds := rest } }
    let post := fun (code n : Nat) (t : State) =>
      let t1 := (t.setReg Reg.CI3C_RESP (wd (code + 2 ^ 16 * (n % 4096)))).raise0 stCI3C 0
      if code = 1 then t1.raise0 stCI3C 1 else if code = 0 then t1 else t1.raise0 stCI3C 2
    if s.ci3cRejects kind then .next (post 4 0 s0)
    else if ci3cReads kind then
      let got := data.take (min len count)
      .next (post resp.val got.length (({ s0 with ci3c := { s0.ci3c with rx := s0.ci3c.rx ++ padWords got } } : State).emit (.ci3c v [])))
    else
      let n := min len count
      let s1 := { s0 with ci3c := { s0.ci3c with tx := s0.ci3c.tx.drop ((len + 3) / 4 * 4) } }
      let s2 := if kind = 4 ∧ resp.val = 0 then { s1 with ci3c := { s1.ci3c with used := fld v 7 4 :: s1.ci3c.used.erase (fld v 7 4) } } else s1
      .next (post resp.val n (s2.emit (.ci3c v (s.ci3c.tx.take n))))

/-- `CI3C_IBI`: accepted into CI3C_IBIQ where ACCEPT is set, else NACKed. -/
def execCi3cIbi (dev : Fin 16) (payload : List Byte) (s : State) : Res :=
  let d := Reg.CI3C_DEVn dev.val
  if s.bit Reg.CI3C_CTRL 0 && s.bit d 9 then
    let first := if s.bit d 10 then (match payload with
      | b :: _ => b.toNat
      | [] => 0) else 0
    let w := wd (dev.val + 256 * first + 2 ^ 16)
    .next (({ s with ci3c := { s.ci3c with ibiq := s.ci3c.ibiq ++ [w] } } : State).raise0 stCI3C 3)
  else .next s

/-- `CI3C_HOTJOIN`: a target is given the next free address of CI3C_DEVn, where hot-joins are accepted. -/
def execCi3cHotjoin (s : State) : Res :=
  if s.bit Reg.CI3C_CTRL 0 && s.bit Reg.CI3C_CTRL 2 then
    match (List.range 16).find? fun n => decide (s.f (Reg.CI3C_DEVn n) 6 0 ≠ 0) && !s.bit (Reg.CI3C_DEVn n) 8 && !s.ci3c.used.contains n with
    | some n =>
      .next ((({ s with ci3c := { s.ci3c with used := n :: s.ci3c.used } } : State).emit (.ci3cAssign n (s.f (Reg.CI3C_DEVn n) 6 0))).raise0 stCI3C 4)
    | none => .next (s.raise0 stCI3C 4)
  else .next s

/-- CI3C_RXD and CI3C_IBIQ pop an entry; empty they read zero. -/
def State.ci3cRxd (s : State) : Word × State := (leWord (s.ci3c.rx.take 4), { s with ci3c := { s.ci3c with rx := s.ci3c.rx.drop 4 } })

def State.ci3cIbiq (s : State) : Word × State :=
  match s.ci3c.ibiq with
  | [] => (0, s)
  | w :: rest => (w, { s with ci3c := { s.ci3c with ibiq := rest } })

end Sys2Proof.Machine
end

