-- ==== Sys2Proof/Machine/Xspi.lean ====
section
/-! DEFINITION. The command engine of the xSPI flash port (R495 to R498). -/

namespace Sys2Proof.Machine

def State.xspiBusy (s : State) : Bool := s.xspi.run.isSome

/-- Room for `n` more bytes in the data FIFO. -/
def State.fifoRoom (s : State) (n : Nat) : Bool := decide (s.xspi.fifo.length + n ≤ 256)

/-- A write of XSPI_CMD is rejected (R496); a poll ignores DIR and LEN (R497). -/
def State.xspiRejects (s : State) (v : Word) : Bool :=
  let addrb := fld v 10 9
  let dir := fld v 17 16
  let len := fld v 26 18
  let data := !bitAt v 27 && (decide (dir = 3) || decide (256 < len) || (decide (dir = 2) && decide (s.xspi.fifo.length < len))
    || (decide (dir = 1) && !s.fifoRoom len))
  decide (addrb = 3) || (decide (addrb = 1) && bitAt v 8) || data || s.xspiBusy

/-- A write of XSPI_CMD: one transaction starts, sending the bytes it takes from the FIFO, or the command is rejected. -/
def State.xspiCmd (v : Word) (s : State) : State :=
  if s.xspiRejects v then s.raise0 stXSPI 2 else
  let n := if !bitAt v 27 && decide (fld v 17 16 = 2) then fld v 26 18 else 0
  let addr := s.reg Reg.XSPI_ADDR
  let s1 := { s with xspi := { s.xspi with fifo := s.xspi.fifo.drop n, run := some (v, addr), polling := false } }
  (s1.setBit Reg.XSPI_STAT 8 true).emit (.xspi v addr (s.xspi.fifo.take n))

/-- The engine is idle again. -/
def State.xspiIdle (s : State) : State :=
  ({ s with xspi := { s.xspi with run := none, polling := false } } : State).setBit Reg.XSPI_STAT 8 false

/-- DONE fires source 188 and logs nothing (R498). -/
def State.xspiSetDone (s : State) : State := (s.setBit Reg.XSPI_STAT 0 true).arrive 188

/-- `XSPI_DONE`: the transaction on the bus ends with the bytes read. A poll whose byte does not match waits 1 µs (R497). -/
def execXspiDone (data : List Byte) (s : State) : Res :=
  match s.xspi.run with
  | none => .next s
  | some (v, _) =>
    if s.bit Reg.XSPI_CTRL 0 = false ∨ s.xspi.polling = true then .next s
    else if bitAt v 27 then
      let b := match data with
        | x :: _ => x
        | [] => 0
      if b.toNat &&& s.f Reg.XSPI_POLL 7 0 = s.f Reg.XSPI_POLL 15 8 then
        let s1 := if s.fifoRoom 1 then { s with xspi := { s.xspi with fifo := s.xspi.fifo ++ [b] } } else s
        .next (s1.xspiIdle.xspiSetDone)
      else .next { s with xspi := { s.xspi with polling := true } }
    else
      let n := if fld v 17 16 = 1 then fld v 26 18 else 0
      let got := (data ++ List.replicate n 0).take n
      .next ((({ s with xspi := { s.xspi with fifo := s.xspi.fifo ++ got } } : State).xspiIdle).xspiSetDone)

/-- `XSPI_POLL_REPEAT`: the status read is sent again. -/
def execXspiPollRepeat (s : State) : Res :=
  match s.xspi.run, s.xspi.polling with
  | some (v, a), true => .next (({ s with xspi := { s.xspi with polling := false } } : State).emit (.xspi v a []))
  | _, _ => .next s

/-- `XSPI_POLL_TIMEOUT`: TMO ms without a match; zero polls without a limit. -/
def execXspiPollTimeout (s : State) : Res :=
  match s.xspi.run with
  | some (v, _) => if bitAt v 27 = true ∧ s.f Reg.XSPI_POLL 31 16 ≠ 0 then .next (s.xspiIdle.raise0 stXSPI 1) else .next s
  | none => .next s

/-- Four bytes are written to the FIFO. -/
def State.xspiPush (v : Word) (s : State) : State :=
  if s.fifoRoom 4 then { s with xspi := { s.xspi with fifo := s.xspi.fifo ++ leBytes 4 v.toNat } } else s.raise0 stXSPI 3

/-- Four bytes are read from the FIFO. -/
def State.xspiPop (s : State) : Word × State :=
  if s.xspi.fifo.isEmpty then (0, s.raise0 stXSPI 3)
  else (leWord (s.xspi.fifo.take 4), { s with xspi := { s.xspi with fifo := s.xspi.fifo.drop 4 } })

/-- A write of XSPI_CTRL. -/
def State.xspiCtrl (v : Word) (s : State) : State :=
  let s1 := s.setReg Reg.XSPI_CTRL (v &&& 1)
  if bitAt v 1 then { s1 with xspi := { s1.xspi with fifo := [] } } else s1

end Sys2Proof.Machine
end

