-- ==== Sys2Proof/Machine/Debug.lean ====
section
/-! DEFINITION. The debug block's own registers: authorisation, halts, register access and the virtual terminal (R461, R466 to
R478). -/

namespace Sys2Proof.Machine

def State.denied (s : State) : State := s.raise0 stDBG 0

/-! Authorisation (R461, R467). A requester is the 14-bit ID of the station a DEBUG frame came from, or 0x8000 for the host port and
for a write of DBG_AUTHCTL. -/

def chalLevels : List Nat := [1, 2, 0x80, 0x81]

/-- A challenge for `level` may be issued (R461, Table 19.1). -/
def State.mayChal (s : State) (level : Nat) : Bool :=
  chalLevels.contains level && !s.sec.locked && decide (1 ≤ s.sec.life) && decide (s.sec.life ≤ 3)

/-- The bytes of Table 19.5. -/
def State.chalBytes (s : State) (nonce level : Nat) : List Byte :=
  leBytes 48 nonce ++ leBytes 8 Config.uid ++ leBytes 2 s.stationId ++ leBytes 1 level ++ leBytes 1 s.sec.life ++ leBytes 4 0

/-- The level in force becomes `l`, and code 0x307 is logged. -/
def State.grantLevel (l req : Nat) (s : State) : State :=
  let s1 := s.dropDebug l
  s1.logEvent 0x307 (wd l) (s1.reg Reg.SEC_STAT) (wd req) 0

/-- A challenge is asked for: granted at once in BLANK, issued, or refused. Answers whether it was not refused. -/
def State.chalRequest (level req : Nat) (s : State) : Bool × State :=
  if s.sec.life = 0 then (if level = 1 ∨ level = 2 then (true, s.grantLevel level req) else (false, s))
  else if s.mayChal level then
    let (k, s1) := s.draw
    let bs := s1.chalBytes (Config.random k) level
    let s2 := (List.range 16).foldl (fun t w => t.setReg (Reg.DBG_CHALw w) (leWord ((bs.drop (4 * w)).take 4))) s1
    (true, ({ s2 with sec := { s2.sec with chal := some (level, req) } } : State).setBit Reg.DBG_AUTHSTAT 4 true)
  else (false, s)

/-- The most that DEPLOYED grants: SEC_POLICY.DBGMAX, where 3 acts as 2. -/
def State.capLevel (s : State) (l : Nat) : Nat := if s.sec.life = 2 then min l (min 2 (s.f Reg.SEC_POLICY 1 0)) else l

/-- The challenge is used up. -/
def State.endChal (s : State) : State :=
  ({ s with sec := { s.sec with chal := none } } : State).setBit Reg.DBG_AUTHSTAT 4 false

/-- A failure, or a late response: the n-th starts a lockout of 2^(n - 1) s, at most 1,024 s. -/
def State.debugFail (level : Nat) (s : State) : State :=
  let n := s.sec.fails + 1
  let lock := min (2 ^ (n - 1)) 1024
  let s1 := s.endChal
  let s2 := { s1 with sec := { s1.sec with fails := n, locked := true, lockUntil := s1.pwr.uptime + lock * 1000000 } }
  (s2.setBit Reg.DBG_AUTHSTAT 6 true).secRaise 6 0x308 (wd level) (wd n) (wd lock)

/-- The check of the response to the outstanding challenge ends. -/
def State.checkResponse (ok : Bool) (s : State) : State :=
  match s.sec.chal with
  | none => s.setBit Reg.DBG_AUTHSTAT 6 true
  | some (level, req) =>
    if ok then
      let s1 := (s.endChal).setBit Reg.DBG_AUTHSTAT 6 false
      let s2 := { s1 with sec := { s1.sec with fails := 0, locked := false } }
      if level ≤ 2 then s2.grantLevel (s2.capLevel level) req
      else { s2 with sec := { s2.sec with token := some (level, s2.pwr.uptime) } }
    else s.debugFail level

/-- DBG_AUTHSTAT as a read returns it. -/
def State.authStat (s : State) : Word :=
  putBit (setFld (s.reg Reg.DBG_AUTHSTAT) 1 0 s.sec.level) 5 (!s.dbg.verify.isEmpty)

/-- `DEBUG_RESPONSE_TIMEOUT`: 60 s have passed without a response. -/
def execDebugResponseTimeout (s : State) : Res :=
  match s.sec.chal with
  | some (level, _) => if s.dbg.verify.isEmpty then .next (s.debugFail level) else .next s
  | none => .next s

/-- `DEBUG_LOCKOUT_END`. -/
def execDebugLockoutEnd (s : State) : Res := .next { s with sec := { s.sec with locked := false } }

/-! Answers to DEBUG requests (R468, R491). -/

def DbgResp.bytes (r : DbgResp) : List Byte :=
  leBytes 4 r.tag ++ leBytes 1 r.status ++ leBytes 1 r.level ++ leBytes 2 r.count ++ leBytes 4 r.addr ++ leBytes 4 0
    ++ (r.data.map fun w => leBytes 4 w.toNat).flatten

/-- The answer leaves: as a RESP to the station the request came from, or for the host to read. -/
def State.debugAnswer (path : Option Nat) (r : DbgResp) (s : State) : State :=
  match path with
  | some src => s.originate (s.newFrame 7 1 0 src r.bytes)
  | none => { s with dbg := { s.dbg with hostResp := some r }, hi3c := { s.hi3c with ibis := s.hi3c.ibis ++ [(1, [0x10])] } }

/-- A check of the response is asked for by a write of DBG_AUTHCTL (none), or by a request. -/
def State.verifyRequest (who : Option (Nat × Nat × Option Nat)) (s : State) : State :=
  { s with dbg := { s.dbg with verify := s.dbg.verify ++ [who] } }

/-- `DBG_VERIFY_DONE`: the check that was asked for first ends; `ok` is what verifying the signature finds. -/
def execDbgVerifyDone (ok : Bool) (s : State) : Res :=
  match s.dbg.verify with
  | [] => .next s
  | who :: rest =>
    let s1 := ({ s with dbg := { s.dbg with verify := rest } } : State).checkResponse ok
    match who with
    | none => .next s1
    | some (tag, addr, path) =>
      .next (s1.debugAnswer path { tag := tag, status := 0, level := s1.sec.level, count := 0, addr := addr, data := [] })

/-- A write of DBG_AUTHCTL. -/
def State.authCtl (v : Word) (s : State) : State :=
  let s1 := if bitAt v 8 then (s.chalRequest (fld v 7 0) 0x8000).2 else s
  if bitAt v 9 then (if s1.sec.chal.isSome then s1.verifyRequest none else s1.setBit Reg.DBG_AUTHSTAT 6 true) else s1

/-! Halts (R470 to R475). -/

/-- Stop mode is allowed (Table 19.1, R2). -/
def State.stopAllowed (s : State) : Bool :=
  decide (s.sec.life = 0) || decide (s.sec.life = 3) || (decide (s.sec.life < 4) && decide (Config.variant = 2))

/-- The core is halted in stop mode, or runs its monitor. -/
def CoreSt.halted (x : CoreSt) : Bool := decide (x.run = .halt) || x.monitor

/-- A request to halt, shown as pending until a boundary takes it. -/
def State.haltRequest (c : Nat) (s : State) : State :=
  let x := s.core c
  if x.halted ∨ x.run = .held ∨ x.run = .stopped then s
  else
    let s1 := s.setCore c { x with stopDue := match x.stopDue with
      | some d => some d
      | none => some (1, 0) }
    s1.setF (Reg.DBG_Cc_STAT c) 1 0 1

/-- A core halted in stop mode is released: the station treats its beam as HOLDOVER (R472, R473). -/
def State.haltRelease (c : Nat) (s : State) : State :=
  let x := s.core c
  if x.run = .halt then
    let s1 := s.setCore c { x with run := .run, passBreak := s.bit (Reg.DBG_Cc_CTRL c) 4, stepping := s.bit (Reg.DBG_Cc_CTRL c) 3 }
    State.thaw s ((s1.setF (Reg.DBG_Cc_STAT c) 1 0 0).wdgRelease c)
  else s

/-- A write of DBG_Cc_CTRL. HALT with RUN ignores RUN (R475). -/
def State.dbgCtrl (c : Nat) (v : Word) (s : State) : State :=
  let k := Reg.DBG_Cc_CTRL c
  let s1 := if bitAt v 2 && !s.bit k 2 && !s.stopAllowed then s.denied else s.setBit k 2 (bitAt v 2)
  let s2 := (s1.setBit k 3 (bitAt v 3)).setBit k 4 (bitAt v 4)
  if bitAt v 0 then s2.haltRequest c else if bitAt v 1 then s2.haltRelease c else s2

/-- A read of DBG_Cc_REGDATA (R474). -/
def State.regDataRead (c : Nat) (s : State) : Word × State :=
  let x := s.core c
  let n := s.f (Reg.DBG_Cc_REGSEL c) 4 0
  if x.run = .halt then
    (if n < 16 then (x.g[n]?).getD 0 else if n = 16 then wd x.pc else if n = 17 then x.st else 0, s)
  else (0, s.denied)

/-- The RW bits of ST (Table 12.1). -/
def stRw : Word := 0xF17

/-- A write of DBG_Cc_REGDATA. -/
def State.regDataWrite (c : Nat) (v : Word) (s : State) : State :=
  let x := s.core c
  let n := s.f (Reg.DBG_Cc_REGSEL c) 4 0
  if x.run = .halt then
    if n < 16 then s.setCore c { x with g := x.g.set n v }
    else if n = 16 then s.setCore c { x with pc := v.toNat / 4 * 4, ahead := [] }
    else if n = 17 then s.setCore c { x with st := (x.st &&& ~~~stRw) ||| (v &&& stRw) }
    else s
  else s.denied

/-- Bytes of the local SRAM of core `c` (Table 0.7). -/
def localSize (c : Nat) : Nat := if c = 2 then 0x20000 else 0x40000

/-- A read of DBG_Cc_LDATA; a word that cannot be corrected reads zero. -/
def State.lDataRead (c : Nat) (s : State) : Word × State :=
  let o := (s.reg (Reg.DBG_Cc_LADDR c)).toNat / 4 * 4
  if o < localSize c then
    let k := localKey c o
    match s.eccRead k (37 + c) with
    | (0, t) => (t.word k, t)
    | (_, t) => (0, t)
  else (0, s)

/-- A write of DBG_Cc_LDATA. -/
def State.lDataWrite (c : Nat) (v : Word) (s : State) : State :=
  let o := (s.reg (Reg.DBG_Cc_LADDR c)).toNat / 4 * 4
  if o < localSize c then (s.setWord (localKey c o) v).eccWritten (localKey c o) else s

/-! The virtual terminal (R476). -/

/-- A core's MTS to DTX. -/
def State.dtxSend (c : Nat) (v : Word) (s : State) : State :=
  let vt := Reg.DBG_Cc_VT c
  if s.bit vt 0 then s.setBit vt 2 true else ((s.setCore c { s.core c with dtx := v }).setReg (Reg.DBG_Cc_DTX c) v).setBit vt 0 true

/-- A write of DBG_Cc_DRX. -/
def State.drxSend (c : Nat) (v : Word) (s : State) : State :=
  let vt := Reg.DBG_Cc_VT c
  if s.bit vt 1 then s.setBit vt 3 true
  else ((s.setCore c { s.core c with drx := v }).setBit vt 1 true).arrive (32 * c + 9)

/-- A write of DBG_Cc_VT: an acknowledgement of TXFULL fires the core's source 9. -/
def State.vtWrite (c : Nat) (v : Word) (s : State) : State :=
  let vt := Reg.DBG_Cc_VT c
  let s1 := s.setReg vt (s.reg vt &&& ~~~(v &&& 0xD))
  if bitAt v 0 && s.bit vt 0 then s1.arrive (32 * c + 9) else s1

end Sys2Proof.Machine
end

