-- ==== Sys2Proof/Machine/Ucode.lean ====
section
/-! DEFINITION. Control stores: loading, checking, swapping, mirroring, scrubbing and repair (R335 to R337, R348, R350 to R355). The
memory holds each word's micro-operation at its window address. -/

namespace Sys2Proof.Machine

/-- The micro-operation in word `w` of a copy of store `k`: copy 0 is active, 1 the shadow. -/
def State.ucWord (s : State) (k copy w : Nat) : Nat := s.le (ucAddr k copy w) 4

def State.ucState (s : State) : Nat := s.f Reg.IMG_UCSTAT 2 0
def State.setUcState (n : Nat) (s : State) : State := s.setF Reg.IMG_UCSTAT 2 0 n

/-- Keys of the two copies of store `k` below and above which nothing of it lies, and where its shadow begins. -/
def ucLo (k : Nat) : Nat := ucAddr k 0 0
def ucMid (k : Nat) : Nat := ucAddr k 1 0
def ucHi (k : Nat) : Nat := ucAddr (k + 1) 0 0

/-- Sparse data with two neighbouring ranges of 0x20000 keys replaced by what `f` makes of them. -/
def onCopies {α : Type} (k : Nat) (f : List (Nat × α) → List (Nat × α) → List (Nat × α)) (l : List (Nat × α)) : List (Nat × α) :=
  let part := fun (lo hi : Nat) => l.filter fun e => decide (lo ≤ e.1) && decide (e.1 < hi)
  l.filter (fun e => decide (e.1 < ucLo k)) ++ f (part (ucLo k) (ucMid k)) (part (ucMid k) (ucHi k))
    ++ l.filter fun e => decide (ucHi k ≤ e.1)

def moveKeys {α : Type} (up : Bool) (l : List (Nat × α)) : List (Nat × α) :=
  l.map fun e => (if up then e.1 + 0x20000 else e.1 - 0x20000, e.2)

/-- The active and shadow copies of store `k` exchange roles (R353). -/
def State.exchange (k : Nat) (s : State) : State :=
  { s with mem := onCopies k (fun a b => moveKeys false b ++ moveKeys true a) s.mem,
           fab := { s.fab with ecc := onCopies k (fun a b => moveKeys false b ++ moveKeys true a) s.fab.ecc } }

/-- The shadow of store `k` becomes a copy of the active one. -/
def State.mirrorStore (k : Nat) (s : State) : State :=
  { s with mem := onCopies k (fun a _ => a ++ moveKeys true a) s.mem,
           fab := { s.fab with ecc := onCopies k (fun a _ => a) s.fab.ecc } }

/-- A word is written with new check bits. -/
def State.ucPut (k copy w op : Nat) (s : State) : State := (s.setBytes (ucAddr k copy w) (leBytes 4 op)).setMark (ucAddr k copy w) .none

/-! R348. -/

/-- Bits [hi:lo] of a micro-operation. -/
def mf (w hi lo : Nat) : Nat := w / 2 ^ lo % 2 ^ (hi + 1 - lo)

/-- A commit destination a customer routine may name. -/
def destOk (d : Nat) : Bool := decide (d < 16) || (decide (24 ≤ d) && decide (d ≤ 26))

/-- The word keeps the rules of R348. -/
def microOk (w : Nat) : Bool :=
  match mf w 31 28 with
  | 0 => true
  | 1 => decide (mf w 27 24 < 13)
  | 2 => decide (mf w 27 26 ≠ 3) && decide (mf w 24 24 = 0) && decide (mf w 15 11 = 0)
  | 3 => decide (mf w 27 25 ≠ 7) && decide (mf w 24 14 = 0) &&
      (decide (0x3800 ≤ mf w 13 0) || (decide (mf w 27 25 = 5) && decide (0x3780 ≤ mf w 13 0)))
  | 4 => decide (mf w 27 24 ≤ 8) && decide (mf w 23 0 = 0)
  | 15 => decide (mf w 27 25 ≤ 4) && !((decide (mf w 27 25 = 1) || decide (mf w 27 25 = 2)) && decide (mf w 24 23 = 3))
      && !(decide (mf w 27 25 = 3) && decide (4 < mf w 6 3)) && decide (mf w 9 7 = 0) && decide (mf w 2 0 = 0)
      && destOk (mf w 20 16) && destOk (mf w 14 10)
  | _ => false

/-! Loads (R350, R417). -/

/-- A write of IMG_UCLOAD with GO. -/
def State.ucLoad (v : Word) (s : State) : State :=
  if !bitAt v 8 then s else
  let st := fld v 1 0
  if s.ucState ≠ 0 ∨ 2 ≤ st ∨ s.bit Reg.IMG_UCSTAT (16 + st) = true then s.raise0 stUC 11
  else
    let s1 := (s.setBit Reg.IMG_UCSTAT (18 + st) false).setUcState 1
    { s1 with gv := { s1.gv with load := some (st, fld v 4 4) } }

/-- The header of the staged section names the region and the store, with the FIRST and COUNT of its kind. -/
def State.ucHeaderOk (st region : Nat) (s : State) : Bool :=
  let b := (s.reg Reg.IMG_UCSRC).toNat
  decide (s.le (b + 2) 1 = region) && (s.le (b + 3) 1).testBit st && decide (s.le (b + 8) 8 = 0)
    && (if region = 0 then decide (s.le (b + 4) 2 = 0) && decide (s.le (b + 6) 2 = 0x3800)
        else decide (s.le (b + 4) 2 = 0x3800) && decide (s.le (b + 6) 2 = 0x0800))

/-- The words of a region of the shadow are copied back from the active copy; a word that cannot be corrected there is bad in both. -/
def State.regionBack (k first count : Nat) (s : State) : State :=
  (List.range count).foldl (fun t i =>
    let w := first + i
    (t.ucPut k 1 w (t.ucWord k 0 w)).setMark (ucAddr k 1 w) (if t.mark (ucAddr k 0 w) = .double then .double else .none)) s

/-- The shadow of store `k` holds what the active copy holds, and no word that cannot be corrected (Table 13.8, MIR). -/
def State.mirrors (k : Nat) (s : State) : Bool :=
  let part := fun (lo hi : Nat) => s.mem.filter fun e => decide (lo ≤ e.1) && decide (e.1 < hi)
  decide (moveKeys false (part (ucMid k) (ucHi k)) = part (ucLo k) (ucMid k))
    && s.fab.ecc.all fun e => decide (e.1 < ucMid k) || decide (ucHi k ≤ e.1) || decide (e.2 ≠ .double)

/-- `UCODE_LOAD_DONE`: every word has been written and checked; `sigOk` is what verifying the section's signature finds. -/
def execUcodeLoadDone (sigOk : Bool) (s : State) : Res :=
  match s.gv.load with
  | none => .next s
  | some (st, region) =>
    let b := (s.reg Reg.IMG_UCSRC).toNat
    let first := if region = 0 then 0 else 0x3800
    let count := if region = 0 then 0x3800 else 0x0800
    let op := fun (i : Nat) => s.le (b + 16 + 4 * i) 4
    let bad := if region = 1 then (List.range count).find? fun i => !microOk (op i) else none
    let fmt := s.ucHeaderOk st region && bad.isNone
    let s1 := ({ s with gv := { s.gv with load := none } } : State).setUcState 0
    if sigOk && fmt then
      let s2 := (List.range count).foldl (fun t i => t.ucPut st 1 (first + i) (op i)) s1
      let s3 := { s2 with gv := { s2.gv with loaded := (st, region, s.le b 2) :: s2.gv.loaded.filter fun e => decide (e.1 ≠ st) } }
      .next ((s3.setBit Reg.IMG_UCSTAT (16 + st) true).raise0 stUC 8)
    else
      let s0 := s1.regionBack st first count
      let s2 := s0.setBit Reg.IMG_UCSTAT (18 + st) (s0.mirrors st)
      let s3 := if sigOk then s2 else (s2.raise0 stUC 9).secRaise 3 0x305 (wd st) 0 0
      let s4 := match bad with
        | some i => s3.setReg Reg.IMG_UCFAIL (wd (first + i + 2 ^ 16 * st))
        | none => s3
      .next (if fmt then s4 else s4.raise0 stUC 10)

/-! Swaps (R353, R354). -/

/-- A write of IMG_UCSWAP with GO. -/
def State.ucSwap (v : Word) (s : State) : State :=
  if !bitAt v 8 then s else
  let named := [0, 1].filter fun k => bitAt v k && s.bit Reg.IMG_UCSTAT (16 + k)
  let stopped := (List.range 3).any fun c => decide ((s.core c).run = .halt)
  if named.isEmpty || decide (s.ucState ≠ 0) || stopped then s.raise0 stUC 11
  else
    let s1 := s.setUcState 4
    { s1 with gv := { s1.gv with swap := named } }

/-- A load's version is shown by IMG_UCVERs. -/
def State.showVersion (k : Nat) (s : State) : State :=
  match s.gv.loaded.find? fun e => decide (e.1 = k) with
  | some (_, region, ver) =>
    let s1 := if region = 0 then s.setF (Reg.IMG_UCVERs k) 15 0 ver else s.setF (Reg.IMG_UCVERs k) 31 16 ver
    { s1 with gv := { s1.gv with loaded := s1.gv.loaded.filter fun e => decide (e.1 ≠ k) } }
  | none => s

/-- `UCODE_SWAP`: both cores have quiesced; `quiesce` is the longest stop in GCLK. A locked access that still waits for its grant is
withdrawn first (R345). -/
def execUcodeSwap (quiesce : Nat) (s : State) : Res :=
  if s.gv.swap.isEmpty || (s.core 0).atomic.isSome || (s.core 1).atomic.isSome then .next s else
  let named := s.gv.swap
  let s1 := named.foldl (fun t k => ((t.exchange k).showVersion k).setBit Reg.IMG_UCSTAT (16 + k) false) s
  let s2 := ({ s1 with gv := { s1.gv with swap := [], mirror := named } } : State).setUcState 5
  .next ((s2.setReg Reg.IMG_UCQMAX (wd (max (s2.reg Reg.IMG_UCQMAX).toNat (sat 65535 quiesce)))).raise0 stUC 12)

/-- `UCODE_MIRROR_DONE`. -/
def execUcodeMirrorDone (s : State) : Res :=
  if s.ucState = 5 then
    let s1 := s.gv.mirror.foldl (fun t k => (t.mirrorStore k).setBit Reg.IMG_UCSTAT (18 + k) true) s
    .next (({ s1 with gv := { s1.gv with mirror := [] } } : State).setUcState 0)
  else .next s

/-! Errors (R351, R352). -/

/-- A correctable word is corrected and counted. -/
def State.ucCorrect (key : Nat) (s : State) : State := (s.setMark key .none).count Reg.IMG_UCCE 15 0

/-- An uncorrectable word is copied from the other copy, if that holds a good one: answers whether it did. -/
def State.ucRepair (k copy w : Nat) (s : State) : Bool × State :=
  let mine := ucAddr k copy w
  let other := ucAddr k (1 - copy) w
  if s.bit Reg.IMG_UCSTAT (18 + k) && decide (s.mark other ≠ .double) then
    (true, ((s.setBytes mine (s.bytes other 4)).setMark mine .none).raise0 stUC 14)
  else (false, s)

/-- `CONTROL_STORE_REPAIR`: core `c` fetches an uncorrectable active word; `other` is what has befallen its shadow, and `entry` says that
the word belongs to an entry routine. -/
def execControlStoreRepair (c : Fin 3) (word : Fin 16384) (other : Upset) (entry : Bool) (s : State) : Res :=
  let s1 := (s.upset (ucAddr c.val 0 word.val) .double).upset (ucAddr c.val 1 word.val) other
  match s1.ucRepair c.val 0 word.val with
  | (true, t) => .next t
  | (false, t) =>
    let t1 := t.raise0 stUC 13
    let x := t1.core c.val
    .next (t1.setCore c.val { x with csue := some entry })

/-- One word of one copy is scrubbed. -/
def State.ucScrub (k copy w : Nat) (u : Upset) (s : State) : State :=
  let key := ucAddr k copy w
  let s1 := s.upset key u
  match s1.mark key with
  | .none => s1
  | .single => s1.ucCorrect key
  | .double =>
    match s1.ucRepair k copy w with
    | (true, t) => t
    | (false, t) =>
      let t1 := t.raise0 stUC 13
      if copy = 1 then t1.setBit Reg.IMG_UCSTAT (18 + k) false else t1

/-- `CONTROL_STORE_SCRUB`: once per 1 µs, the next word of each copy of each store; `found` are the upsets of the six words, store by
store, the active copy first. In DOZE and deeper the window is skipped (R405). -/
def execControlStoreScrub (found : List Upset) (s : State) : Res :=
  if 2 ≤ s.pwr.state then .next s else
  let w := s.gv.scrub
  let s1 := (List.range 6).foldl (fun t i => t.ucScrub (i / 2) (i % 2) w ((found[i]?).getD .none)) s
  .next { s1 with gv := { s1.gv with scrub := (w + 1) % 16384 } }

end Sys2Proof.Machine
end

