-- ==== Sys2Proof/Machine/Boot.lean ====
section
/-! DEFINITION. The boot: slot records, candidates, and what the boot ROM loads (R337, R412, R413, R418, R419, R456). -/

namespace Sys2Proof.Machine

/-- The flash address of byte `i` of a slot's record. -/
def recordAt (src i : Nat) : Nat := slotStart src + (Config.flashHalf - 4096) + i

/-- Programming a flash byte only clears bits. -/
def State.program (a : Nat) (v : Byte) (s : State) : State :=
  { s with img := { s.img with flash := Sparse.set flashDefault s.img.flash a (s.flashByte a &&& v) } }

/-- The class of a slot: 0 TRIAL with an attempt left, 1 ACTIVE, 2 STANDBY, 3 BLANK; none for BAD and for a TRIAL without an attempt. -/
def State.slotClass (s : State) (src : Nat) : Option Nat :=
  let st := s.flashByte (recordAt src 0)
  if st = 0x7F then (if [8, 9, 10].any fun i => decide (s.flashByte (recordAt src i) = 0xFF) then some 0 else none)
  else if st = 0x3F then some 1
  else if st = 0x1F then some 2
  else if st = 0xFF then some 3
  else none

/-- A TRIAL slot whose attempts are used up becomes BAD. -/
def State.retireTrial (src : Nat) (s : State) : State :=
  if s.flashByte (recordAt src 0) = 0x7F ∧ s.slotClass src = none then s.program (recordAt src 0) 0x0F else s

/-- The lowest attempt byte of a TRIAL slot is programmed before it is booted. -/
def State.useAttempt (src : Nat) (s : State) : State :=
  if s.slotClass src = some 0 then
    match [8, 9, 10].find? fun i => decide (s.flashByte (recordAt src i) = 0xFF) with
    | some i => s.program (recordAt src i) 0
    | none => s
  else s

/-- The candidates of an xSPI boot, in order. -/
def State.candidates (order : List Nat) (s : State) : List Nat :=
  (List.range 4).flatMap fun c => order.filter fun src => decide (s.slotClass src = some c)

/-- IMG_BOOT, the boot event, and the released cores (R411, R413, R460, Table 18.4). -/
def State.booted (bootsel from_ : Nat) (s : State) : State :=
  let s1 := s.setReg Reg.IMG_BOOT (wd (bootsel + 4 * from_))
  let s2 := { s1 with sec := { s1.sec with bootPassed := s1.sec.tlock }, img := { s1.img with bootWait := false, anySession := false } }
  let a1 := s2.reg Reg.CLK_RSTCAUSE
  (s2.enqueueEvent 0 (s2.sevOf 0) 0 a1 (s2.reg Reg.IMG_BOOT) (s2.reg Reg.IMG_ACTVER)).writeGvctl 0

/-- The sections that the boot ROM loads (flag ROM), but the STRUCT section, each to its DEST. -/
def State.romSections (src : Nat) (s : State) : State :=
  ((s.sections src).filter fun x => x.rom && decide (x.type ≠ 1)).foldl (fun t x =>
    t.putSection x.type x.dest (t.srcBytes src x.offset x.length)) s

/-- A microcode section keeps its layout, and a customer section the rules of R348 (R417). -/
def State.microSection (x : Section) (src : Nat) (s : State) : Bool :=
  let at_ := fun (o n : Nat) => s.srcNat src (x.offset + o) n
  let vendor := decide (x.type = 2)
  decide (at_ 2 1 = if vendor then 0 else 1) && decide (at_ 4 2 = if vendor then 0 else 0x3800) && decide (at_ 6 2 = if vendor then 0x3800 else 0x0800)
    && decide (at_ 8 8 = 0) && (vendor || (List.range 0x0800).all fun i => microOk (at_ (16 + 4 * i) 4))

/-- The microcode of a section goes into both copies of the Gavotte stores it names, and its version into IMG_UCVERs (R413, R417). -/
def State.bootMicro (src : Nat) (x : Section) (s : State) : State :=
  if !s.microSection x src then s else
  let at_ := fun (o n : Nat) => s.srcNat src (x.offset + o) n
  let first := at_ 4 2
  ([0, 1].filter fun k => (at_ 3 1).testBit k).foldl (fun t k =>
    let u := (List.range (at_ 6 2)).foldl (fun v i =>
      (v.ucPut k 0 (first + i) (at_ (16 + 4 * i) 4)).ucPut k 1 (first + i) (at_ (16 + 4 * i) 4)) t
    if x.type = 2 then u.setF (Reg.IMG_UCVERs k) 15 0 (at_ 0 2) else u.setF (Reg.IMG_UCVERs k) 31 16 (at_ 0 2)) s

/-- The microcode sections of the image are loaded into the control stores of the Gavotte cores (Table 16.6). -/
def State.loadMicro (src : Nat) (s : State) : State :=
  ((s.sections src).filter fun x => x.rom && (decide (x.type = 2) || decide (x.type = 3))).foldl (fun t x => t.bootMicro src x) s

/-- The boot ROM tries the image at `src`: the checks of VERIFY, its ROM sections, the microcode among them, and the swap made with the beam stopped, before any
hop is UP (R413, R419). Answers whether it booted. -/
def State.tryImage (src : Nat) (ok : Bool) (s : State) : Bool × State :=
  let ((c, i, a), t) := s.checkImage src ok none
  if c ≠ 0 then (false, t.setReg Reg.IMG_ERR (wd (c + 256 * i)))
  else match t.checkRules with
    | (0, _) =>
      let u := (((t.romSections src).loadMicro src).imagePassed src).verified 0 0 0
      (true, u.swapSet ⟨0, 0, 0, 0, 0, 0, 0⟩)
    | (c2, a2) => (false, (t.setReg Reg.IMG_ERR (wd c2)).setReg Reg.IMG_ERRADDR (wd (if c2 = 7 then a2 else a)))

/-- The slots in turn: one that fails becomes BAD. -/
def State.trySlots (ok : Nat → Bool) : List Nat → State → Option Nat × State
  | [], s => (none, s)
  | src :: rest, s =>
    match (s.useAttempt src).tryImage src (ok src) with
    | (true, t) => (some src, t)
    | (false, t) => State.trySlots ok rest (t.program (recordAt src 0) 0x0F)

/-- The boot ROM waits for an image in main SRAM from 0x1000_0000, at most 32 MiB (R419). -/
def State.waitImage (s : State) : State :=
  let s1 := ((s.setReg Reg.IMG_STGBASE 0x10000000).setReg Reg.IMG_STGLEN 0x02000000).setReg Reg.IMG_STGCTL 1
  { s1 with img := { s1.img with bootWait := true, anySession := true, got := [] } }

/-- A boot that ends without an image: an event, and ALERT_N driven (R419, R456). -/
def State.bootAlert (s : State) : State :=
  let s1 := s.enqueueEvent 0 (s.sevOf 0) 0 (s.reg Reg.CLK_RSTCAUSE) (s.reg Reg.IMG_BOOT) (s.reg Reg.IMG_ACTVER)
  { s1 with pin := { s1.pin with alert := true } }

/-- The boot ROM reads the device's SFDP table: density, the start of slot B, and the port's set-up for slot reads (R495). -/
def State.probeFlash (s : State) : State :=
  ((s.setReg Reg.XSPI_DENS (wd (Config.flashLog % 64))).setReg Reg.XSPI_SLOTB (wd Config.flashHalf)).setReg Reg.XSPI_CFG
    (Config.flashCfg &&& 0x03FFF11F)

/-- `BOOT`: the boot ROM's work after the release of the internal reset. `okA`, `okB` and `okStaged` are what checking the signatures and
hashes of slot A, slot B and the staged image finds. A boot that waits for an image ends with a further `BOOT` once it is staged. -/
def execBoot (bootsel : Fin 4) (okA okB okStaged : Bool) (s0 : State) : Res :=
  let s := s0.setReg Reg.IMG_BOOT (wd bootsel.val)
  if s.fab.bootStopped ∨ s.fab.marching = true ∨ s.pwr.released = false then .next s0
  else if s.sec.life = 4 then .next s.bootAlert
  else if s.img.bootWait then
    match s.tryImage 0 okStaged with
    | (true, t) => .next (t.booted bootsel.val (if s.img.got.isEmpty then 2 else 3))
    | (false, t) => .next t
  else if 2 ≤ bootsel.val then .next s.probeFlash.waitImage
  else
    let order := if bootsel.val = 0 then [1, 2] else [2, 1]
    let s1 := (s.probeFlash.retireTrial 1).retireTrial 2
    match State.trySlots (fun src => if src = 1 then okA else okB) (s1.candidates order) s1 with
    | (some src, t) => .next (t.booted bootsel.val (src - 1))
    | (none, t) => .next (t.bootAlert).waitImage

end Sys2Proof.Machine
end

