-- ==== Sys2Proof/Machine/Grant.lean ====
section
/-! DEFINITION. The stream windows of the master ports, the urgent class, and the bank grants (R24 to R30, R140, R167, R208, R217, R240, R288,
R363). -/

namespace Sys2Proof.Machine

/-! The urgent class. Each port's block signals urgency by its own watermark, judged in every cycle (R30). -/

/-- The frame being composed is not complete. -/
def State.composing (s : State) : Bool :=
  match s.frameOf s.qdl.frame s.qdl.sf with
  | some q => !s.frameComplete q
  | none => s.head.any fun q => !s.frameComplete q

/-- Ports Q0 to Q3 (R140). -/
def State.quadrilleUrgent (s : State) : Bool :=
  let n := s.f Reg.QDL_URG 6 0
  s.running && s.bit Reg.QDL_CTRL 0 && decide (n ≠ 0) && decide (s.leadOf (s.qdl.frame, s.qdl.sf, s.qdl.next) ≤ (n : Int)) && s.composing

/-- The least line of the head frame that a unit of the pair still needs. -/
def State.oldestNeeded (s : State) (pair : Nat) : Option Nat := (List.range s.lines).find? fun y => s.lineNeeded pair y

def State.segLanded (s : State) (pair y : Nat) : Bool :=
  s.pnl.segs.any fun g => decide (g.pair = pair) && decide (g.line = y) && g.landed

/-- A unit of the pair is shifting, or waits for data of its span (R208). -/
def State.pairBusy (s : State) (pair : Nat) : Bool :=
  let ports := s.leads.filter fun p => (s.members p).any fun m => decide (m / 2 = pair)
  ports.any fun p =>
    (s.pnl.units.any fun u => decide (u.port = p) && u.running) ||
    (match s.head with
     | some q =>
       match s.nextUnit q p with
       | some (r, _) =>
         (match s.span p r with
          | some (lo, hi) => (List.range (hi + 1)).any fun y => decide (lo ≤ y) && !s.segLanded pair y
          | none => false)
       | none => false
     | none => false)

/-- The reads of a panel port pair (R208). -/
def State.pairUrgent (s : State) (pair : Nat) : Bool :=
  let wm := s.f (Reg.PNL_PAIRq_WM pair) 7 0
  match s.oldestNeeded pair with
  | some y =>
    s.bit Reg.PNL_CTRL 0 && decide (wm ≠ 0) && s.pairBusy pair &&
      decide (s.pnl.segs.countP (fun g => decide (g.pair = pair) && g.landed && decide (y < g.line)) < wm)
  | none => false

/-- The reads and substitution writes of a region that ACTION guards (R217, R223). -/
def State.regionUrgent (s : State) (r : Nat) : Bool :=
  let a := s.f (Reg.SIG_REGr_CTRL r) 2 1
  decide (a = 1) || decide (a = 2)

/-- Port MNT: an engine waits on an LD, its position within URGLINES lines of the Quadrille's next line, before it or after it (R167; log 106). -/
def State.engineUrgent (s : State) : Bool :=
  let next := s.leadOf (s.qdl.frame, s.qdl.sf, s.qdl.next)
  s.mnt.engines.any fun x =>
    (match x.stage with | .load .. => true | _ => false) &&
      decide ((absI (s.leadOf (x.frame, x.pos.sf, x.pos.line) - next)) ≤ s.f Reg.QDL_URG 6 0)

/-- Bytes of writes of a port that wait for main SRAM. -/
def State.waitingBytes (s : State) (port : Nat) : Nat :=
  ((s.fab.pend.filter fun p => decide (p.port = port) && !p.done && p.req.write).map fun p => (List.range 16).countP p.req.mask.testBit).sum

/-- Port AKA or AKB (R288). -/
def State.linkUrgent (s : State) (x : Nat) : Bool :=
  let wm := s.f (Reg.AKx_WM x) 11 0
  decide (wm ≠ 0) && decide (64 * wm < s.waitingBytes (5 + x))

/-- Port DMA0 or DMA1: a channel within its window, or the panel block's channel at work for an urgent pair (R363). -/
def State.reelUrgent (s : State) (p : Nat) : Bool :=
  s.dmaUrgent p ||
    (decide (reelPort (s.f Reg.PNL_DIRCH 4 0) = 7 + p) &&
      s.pnl.units.any fun u => u.running && (s.prof u.port).direct && s.pairUrgent (u.port / 2))

/-- A stream ring read has been issued and not answered (R240). -/
def State.ringReadOut (s : State) : Bool :=
  let base := (s.reg Reg.SND_STRBASE).toNat
  s.fab.pend.any fun p => decide (p.port = 12) && !p.done && !p.req.write && decide (base ≤ p.req.addr) && decide (p.req.addr < base + 524288)

/-- A request of the urgent class. The requests of port PNL name their pair, or 16 and more their region; ports BLK, GV0, GV1, MGT and MRC are never
urgent (Table 1.3). -/
def State.urgent (s : State) (port pair : Nat) : Bool :=
  match port with
  | 0 | 1 | 2 | 3 => s.quadrilleUrgent
  | 4 => if pair < 16 then s.pairUrgent pair else s.regionUrgent (pair - 16)
  | 5 => s.linkUrgent 0
  | 6 => s.linkUrgent 1
  | 7 => s.reelUrgent 0
  | 8 => s.reelUrgent 1
  | 12 => s.sndUrgent || s.ringReadOut
  | 13 => s.engineUrgent
  | _ => false

/-- COT_STAT.URGENT: some port is in the urgent class. -/
def State.anyUrgent (s : State) : Bool :=
  [0, 5, 6, 7, 8, 12, 13].any (fun p => s.urgent p 0) || (List.range 16).any (fun q => s.pairUrgent q) ||
    s.fab.pend.any fun p => decide (p.port = 4) && !p.done && s.urgent 4 p.req.pair

/-! Stream windows (R27). -/

/-- The completed words at the head of a port's window leave it. -/
def retire (port : Nat) : List Pend → List Pend
  | [] => []
  | p :: ps => if p.port = port then (if p.done then retire port ps else p :: ps) else p :: retire port ps

/-- `STREAM_WINDOW_UPDATE`: at a segment's first cycle the port's window retires the completed words at its head and admits the requests presented
since the last update (R27). -/
def execStreamWindowUpdate (port : Fin 16) (reqs : List PortReq) (s : State) : Res :=
  let new := (reqs.filter fun r => inSram r.addr).map fun r => (⟨port.val, r, false⟩ : Pend)
  .next { s with fab := { s.fab with pend := retire port.val s.fab.pend ++ new } }

/-! The slot table and the bank grants (R24, R25, R29). -/

/-- The floor phase: the lowest-numbered open phase of segment `g` (R29). -/
def State.floorPhase (s : State) (g : Nat) : Option Nat :=
  (List.range 32).find? fun p => !entryOwned (s.slotEntry g p)

/-- The word address at the head of a port's stream window: its oldest word not retired (R27). -/
def State.windowHead (s : State) (port : Nat) : Option Nat :=
  match s.fab.pend.find? (fun p => decide (p.port = port)) with
  | some p => some (p.req.addr / 16)
  | none => none

/-- A request may be served: not yet done, for bank `b`, and within the 32 words of its port's window. -/
def State.eligible (s : State) (b : Nat) (p : Pend) : Bool :=
  !p.done && decide (bankOf p.req.addr = b) &&
    (match s.windowHead p.port with
     | some h => decide (h ≤ p.req.addr / 16) && decide (p.req.addr / 16 < h + 32)
     | none => false)

/-- Round-robin in ascending port code after the port served last (R29). -/
def State.rrPick (s : State) (b : Nat) (ps : List Pend) : Option Pend :=
  let last := Sparse.get (fun _ => 15) s.fab.rr b
  let order := (List.range 16).map fun i => (last + 1 + i) % 16
  order.findSome? fun q => ps.find? fun p => decide (p.port = q)

/-- The request that the access to bank `b` in cycle `k` serves, and whether it is a best-effort grant. -/
def State.grant (s : State) (k b : Nat) : Option (Pend × Bool) :=
  let g := k / 8
  let ph := (b + 32 - k % 32) % 32
  let e := s.slotEntry g ph
  let cands := s.fab.pend.filter fun p => s.eligible b p
  let hot := cands.filter fun p => s.urgent p.port p.req.pair
  let urgent := hot.head?.map fun p => (p, false)
  let best := (s.rrPick b (cands.filter fun p => !s.urgent p.port p.req.pair)).map fun p => (p, true)
  let shared := if s.floorPhase g = some ph then best <|> urgent else urgent <|> best
  if entryOwned e then ((cands.find? fun p => decide (p.port = e % 16)).map fun p => (p, false)) <|> shared else shared

/-- A served request is made, its answer set on its way, and its word done. -/
def State.serve (p : Pend) (s : State) : State :=
  let done := { s with fab := { s.fab with pend := s.fab.pend.replace p { p with done := true } } }
  let wa := p.req.addr / 16 * 16
  if p.req.write then
    let (c, t) := done.sramWrite p.port wa p.req.mask p.req.data
    { t with fab := { t.fab with rets := t.fab.rets ++ [⟨p.port, wa, c, 0⟩] } }
  else
    let (c, v, t) := done.sramRead p.port wa
    { t with fab := { t.fab with rets := t.fab.rets ++ [⟨p.port, wa, c, v⟩] } }

/-- At a round start the slot table in use becomes the active one, once it is due (R424). -/
def State.roundStart (k : Nat) (s : State) : State :=
  if k = 0 ∧ s.img.slotDue = true then
    let t := s.adopt isSlotReg
    { t with img := { t.img with slotDue := false } }
  else s

/-- `MEMORY_ACCESS`: cycle `k` of the round, logical bank `bank`; `upset` is what has befallen the stored word served. No port
reaches main SRAM while the start-up march runs (R82). -/
def execMemoryAccess (k : Fin 256) (bank : Fin 32) (u : Upset) (s0 : State) : Res :=
  let s := s0.roundStart k.val
  if s.fab.marching then .next s else
  match s.grant k.val bank.val with
  | none => .next s
  | some (p, best) =>
    let s1 := s.upset (p.req.addr / 16 * 16) u
    let s2 := if best then { s1 with fab := { s1.fab with rr := Sparse.set (fun _ => 15) s1.fab.rr bank.val p.port } } else s1
    .next (s2.serve p)

/-- `READ_RETURN`: the oldest answer of the port reaches it. -/
def execReadReturn (port : Fin 16) (s : State) : Res :=
  match s.fab.rets.find? (fun r => decide (r.port = port.val)) with
  | none => .next s
  | some r =>
    let s1 := { s with fab := { s.fab with rets := s.fab.rets.erase r } }
    .next ((s1.reply r.code (wd r.data)).emit (.ret r.port r.addr r.code r.data))

end Sys2Proof.Machine
end

