-- ==== Sys2Proof/Machine/Bus.lean ====
section
/-! DEFINITION. An access of a master to the address map: who may reach which register, what reading or writing a register does beside
its access codes, and the memories (R5 to R8, R14, R15, R22, R85 to R91, R141, R180, R184, R194, R311, R336, R392, R394, R414,
R428, R442, R445, R447, R451, R466, R469, R498, Table 12.3). -/

namespace Sys2Proof

/-- The Allemande, or a debug access, which is treated as one with ST.SEC zero (R465). -/
def Acc.alle (m : Acc) : Bool := decide (m.port = 14) && !m.host

/-- The Allemande in its secure state (R451). -/
def Acc.sec (m : Acc) : Bool := m.alle && m.secure && !m.debug

/-- A core: GV0, GV1 or the Allemande. -/
def Acc.core (m : Acc) : Bool := m.alle || decide (m.port = 10) || decide (m.port = 11)

end Sys2Proof

namespace Sys2Proof.Machine

/-- Element of an array of `n` registers at `base` with a stride. -/
def arr (base stride n a : Nat) : Option Nat :=
  if base ≤ a ∧ (a - base) % stride = 0 ∧ (a - base) / stride < n then some ((a - base) / stride) else none

/-! Access rights. -/

/-- The level in force permits a debug access (Table 20.1). -/
def State.debugAllows (s : State) (a : Nat) (write : Bool) : Bool :=
  let own := fun (r : Nat → Nat) => (List.range 3).any fun c => decide (a = r c)
  if 0x40180000 ≤ a ∧ a < 0x40180100 then true
  else match s.sec.level with
    | 0 => false
    | 1 => if write then own Reg.DBG_Cc_VT || own Reg.DBG_Cc_DRX else !own Reg.DBG_Cc_REGDATA
    | _ => true

/-- The EVR log set an address belongs to (R445). -/
def logSet (a : Nat) : Option Nat := if 0x40160080 ≤ a ∧ a < 0x401600E0 then some ((a - 0x40160080) / 0x20) else none

/-- A register that the master may not reach: PROT. -/
def regProt (m : Acc) (a : Nat) (write : Bool) (v : Word) : Bool :=
  match blockOf a with
  | 1 => !m.alle && (decide (a = Reg.CLK_PLLCTL) || decide (a = Reg.CLK_SWRST) || decide (a = Reg.CLK_GVCTL) ||
      decide (a = Reg.CLK_GVxSTART 0) || decide (a = Reg.CLK_GVxSTART 1))
  | 16 => !m.alle && decide (0x40100440 ≤ a) && decide (a < 0x40100460)
  | 20 => !m.alle
  | 21 => if write then
      (if 0x40150100 ≤ a ∧ a < 0x40150200 then !m.core else !m.alle)
    else false
  | 22 => match logSet a with
    | some t => !(m.core && decide (m.port = (if t = 0 then 10 else if t = 1 then 11 else 14)))
    | none => (decide (a = Reg.EVR_SCNT) && !m.sec) || (write && decide (a = Reg.EVR_CURCTL) && bitAt v 0 && bitAt v 1 && !m.sec)
  | 23 => !m.sec && (write || decide (a ≠ Reg.SEC_LCS))
  | 25 => !m.alle
  | _ => false

/-! Reads. -/

def State.pnlStat (s : State) (p : Nat) : Word :=
  wd ((match s.pnl.spans[p]? with | some n => n | none => 0) % 8192 + 2 ^ 16 * (s.pendingUnits p % 2048))

/-- Registers that show what is held elsewhere. -/
def State.shown (s : State) (a : Nat) : Option Word :=
  match blockOf a with
  | 0 => if a = Reg.SYS_PARTID then some 0x880 else if a = Reg.SYS_REV then some 0xB0
    else if a = Reg.SYS_VARIANT then some (wd (Config.variant.val + 1)) else none
  | 1 => if a = Reg.CLK_PSTAT then some s.pstat else if a = Reg.CLK_UPLO then some (wd s.pwr.uptime) else none
  | 2 => if a = Reg.COT_STAT then some (putBit (s.reg Reg.COT_STAT) 8 s.anyUrgent) else none
  | 3 => if a = Reg.BEAM_POS then some (posWord s.beam.pos) else none
  | 4 => if a = Reg.QDL_POS then some (posWord ⟨s.qdl.sf, s.qdl.next, 0⟩)
    else if a = Reg.QDL_CONF then some (posWord s.firstUnconfirmed) else none
  | 6 => if a = Reg.MNT_GFCLR then some (s.reg Reg.MNT_GFLAG)
    else if a = Reg.MNT_QFILL then some (wd (s.qdl.queue.length % 512 + 2 ^ 16 * (s.mnt.timed.length % 128)))
    else match arr (Reg.MNT_ENGe_POS 0) 0x40 8 a, arr (Reg.MNT_ENGe_HZN 0) 0x40 8 a with
      | some e, _ => some (posWord (s.eng e).pos)
      | _, some e => some (posWord (s.horizon e).2)
      | _, _ => none
  | 7 => match arr (Reg.PNL_PORTp_STAT 0) 64 32 a with
    | some p => some (s.pnlStat p)
    | none => if a = Reg.PNL_MAPDATA then some (Sparse.get (fun _ => (0 : Word)) s.pnl.map (s.f Reg.PNL_MAPADDR 15 0)) else none
  | 9 => if a = Reg.SND_KLO then some (wd s.kNow) else none
  | 15 => match arr (Reg.IRQ_CURt 0) 4 3 a, arr (Reg.IRQ_ACTt 0) 4 3 a, arr (Reg.IRQ_SRCs 0) 4 256 a with
    | some t, _, _ => some (s.irqCur t)
    | _, some t, _ => some (s.irqAct t)
    | _, _, some n => some (s.irqSrc n)
    | _, _, _ => none
  | 17 => if a = Reg.PIN_IN0 then some (s.pinIn 0) else if a = Reg.PIN_IN1 then some (s.pinIn 1)
    else if a = Reg.PIN_ALERT then some s.pinAlert else none
  | 19 => if a = Reg.CI3C_RXD then some s.ci3cRxd.1 else if a = Reg.CI3C_IBIQ then some s.ci3cIbiq.1 else none
  | 20 => if a = Reg.XSPI_FIFO then some (wd s.xspi.fifo.length) else if a = Reg.XSPI_DATA then some s.xspiPop.1 else none
  | 23 => s.secReg a
  | 24 => if a = Reg.DBG_AUTHSTAT then some s.authStat
    else match arr (Reg.DBG_Cc_REGDATA 0) 0x80 3 a, arr (Reg.DBG_Cc_LDATA 0) 0x80 3 a with
      | some c, _ => some (s.regDataRead c).1
      | _, some c => some (s.lDataRead c).1
      | _, _ => none
  | _ => none

/-- What a read without the debug attribute changes: copies, pops, advances, and RC bits. -/
def State.afterRead (a : Nat) (s : State) : State :=
  match blockOf a with
  | 1 => if a = Reg.CLK_UPLO then s.setReg Reg.CLK_UPHI (wd (s.pwr.uptime / 2 ^ 32)) else s.clearRead a
  | 3 => if a = Reg.BEAM_POS then (s.setReg Reg.BEAM_FRAMELO (wd s.beam.frame)).setReg Reg.BEAM_FRAMEHI (wd (s.beam.frame / 2 ^ 32))
    else s.clearRead a
  | 7 => if a = Reg.PNL_MAPDATA then s.mapStep else s.clearRead a
  | 9 => if a = Reg.SND_KLO then s.setReg Reg.SND_KHI (wd (s.kNow / 2 ^ 32)) else s.clearRead a
  | 16 => match arr (Reg.TMRn_CNT 0) 0x20 16 a, arr (Reg.TMRn_CAP 0) 0x20 16 a with
    | some n, _ => s.cntCopies n
    | _, some n => s.setBit (Reg.TMRn_STAT n) 2 false
    | _, _ => s.clearRead a
  | 19 => if a = Reg.CI3C_RXD then s.ci3cRxd.2 else if a = Reg.CI3C_IBIQ then s.ci3cIbiq.2 else s
  | 20 => if a = Reg.XSPI_DATA then s.xspiPop.2 else s
  | 22 => if a = Reg.EVR_WINw 7 then s.windowNext else s.clearRead a
  | 24 => match arr (Reg.DBG_Cc_LDATA 0) 0x80 3 a with
    | some c => (s.lDataRead c).2
    | none => s
  | _ => s.clearRead a

/-- The value of a register as a read returns it. -/
def State.valueOf (s : State) (a : Nat) : Word :=
  match s.shown a with
  | some w => w
  | none => s.readCoded a

/-- A read of a register: the value, and the state after it. A debug read changes nothing by being a read (R469), but one of
DBG_Cc_REGDATA while the core is not halted in stop mode is denied (R474). -/
def State.regRead (m : Acc) (a : Nat) (s : State) : Word × State :=
  let s1 := if m.debug then s else s.afterRead a
  (s.valueOf a, match arr (Reg.DBG_Cc_REGDATA 0) 0x80 3 a with
    | some c => (s1.regDataRead c).2
    | none => s1)

/-! Writes. -/

/-- A write into a descriptor bank of slot `n`: ignored in a bank in use (R141). -/
def State.bankWrite (n b a : Nat) (v : Word) (s : State) : State :=
  let r := Reg.LAYn_BANK n
  if s.bit r 2 && (decide (s.f r 0 0 = b) || s.bit r 1) then s.raise (stLAYF n) 0 (wd n) 0 0 else s.writeCoded a v

/-- A write to AKx_CTRL: EN, and the acts of its other bits. -/
def State.akCtrl (x : Nat) (v : Word) (s : State) : State :=
  let s1 := s.writeCoded (Reg.AKx_CTRL x) v
  let s2 := if bitAt v 1 then s1.retrain x else s1
  let s3 := if bitAt v 2 then s2.laneRetry x else s2
  if bitAt v 3 then s3.rekey x else s3

/-- A write of MRC_REQ (R80, R83, R84). -/
def State.mrcReq (v : Word) (s : State) : State :=
  if bitAt v 9 then (if bitAt v 8 then s.reqDestroying (fld v 4 0) else s.reqPreserving (fld v 4 0)) else s

/-- A write of LAYn_FENCE: SIG signals, LATE is kept. -/
def State.fenceWrite (n : Nat) (v : Word) (s : State) : State :=
  let s1 := s.setBit (Reg.LAYn_FENCE n) 1 (bitAt v 1)
  if bitAt v 0 then s1.signalFence n else s1

/-- A write of MNT_ENGe_STAT: FAULT ends the engine's fault, the other W1C bits clear (R179). -/
def State.engStatWrite (e : Nat) (v : Word) (s : State) : State :=
  let s1 := s.setReg (Reg.MNT_ENGe_STAT e) (s.reg (Reg.MNT_ENGe_STAT e) &&& ~~~(v &&& 0x300))
  if bitAt v 10 then s1.engFaultClear e else s1

/-- Writes of the timers and watchdogs (block TMR). -/
def State.tmrWrite (m : Acc) (a : Nat) (v : Word) (s : State) : State :=
  if a < 0x40100400 then
    match arr (Reg.TMRn_CTRL 0) 0x20 16 a with
    | some n => s.writeTimerCtrl n v
    | none => s.writeCoded a v
  else
    let w := (a - 0x40100400) / 0x20
    match (a - 0x40100400) % 0x20 with
    | 0 => s.writeWdgCtrl w v (m.debug && decide (2 ≤ s.sec.level))
    | 4 => s.writeWdgSet w 4 v
    | 8 => s.writeWdgSet w 8 v
    | 0xC => s.writeWdgKey w v
    | _ => s.writeCoded a v

/-- Writes of the debug block. -/
def State.dbgWrite (a : Nat) (v : Word) (s : State) : State :=
  if a = Reg.DBG_AUTHCTL then s.authCtl v
  else if a < 0x40180200 then s.writeCoded a v
  else
    let c := (a - 0x40180200) / 0x80
    match (a - 0x40180200) % 0x80 with
    | 0 => s.dbgCtrl c v
    | 8 => s.vtWrite c v
    | 0x10 => s.drxSend c v
    | 0x18 => s.regDataWrite c v
    | 0x20 => s.lDataWrite c v
    | _ => s.writeCoded a v

/-- A write of SNDo_BQEN: a biquad whose bit is clear has a state of zero (R250). -/
def State.bqenWrite (o : Nat) (v : Word) (s : State) : State :=
  let t := s.writeCoded (Reg.SNDo_BQEN o) v
  let x := t.chain o
  let bqs := x.biquads.zipIdx.map fun e => if bitAt v e.2 then e.1 else { e.1 with x1 := 0, x2 := 0, y1 := 0, y2 := 0 }
  t.setChain o { x with biquads := bqs }

/-- Writes of the sound block, each made in a FCLK of its own (log 1). -/
def State.sndWrite (a : Nat) (v : Word) (s0 : State) : State :=
  let s := { s0 with snd := { s0.snd with stamp := s0.snd.stamp + 1, stampAt := none } }
  if a = Reg.SND_CTRL then s.sndCtrlWrite v
  else if a = Reg.SND_NODEW then s.nodeWrite v
  else match arr (Reg.SND_KEYONx 0) 4 2 a, arr (Reg.SND_KEYOFFx 0) 4 2 a, arr (Reg.SNDo_DELAY 0) 0x100 32 a with
    | some n, _, _ => s.keyOnWrite n v
    | _, some n, _ => s.keyOffWrite n v
    | _, _, some o => s.delayWrite o v
    | none, none, none =>
      match arr (Reg.SNDo_BQEN 0) 0x100 32 a with
      | some o => s.bqenWrite o v
      | none =>
        if 0x40092000 ≤ a ∧ a < 0x40094000 ∧ 0x20 ≤ a % 0x100 ∧ a % 0x100 < 0xE8 ∧ (a % 0x100 - 0x20) % 20 = 16 then
          s.biquadWrite ((a - 0x40092000) / 0x100) ((a % 0x100 - 0x20) / 20) v
        else s.writeCoded a v

/-- Writes of the layer slots. -/
def State.layWrite (a : Nat) (v : Word) (s : State) : State :=
  let n := (a - 0x40050000) / 0x400
  let o := a % 0x400
  if o = 4 then s.fenceWrite n v
  else if 0x100 ≤ o ∧ o < 0x300 then s.bankWrite n ((o - 0x100) / 0x100) a v
  else s.writeCoded a v

/-- Writes of the pins. -/
def State.pinWrite (a : Nat) (v : Word) (s : State) : State :=
  if a = Reg.PIN_CTRL then (if bitAt v 0 then s.pinRelease else s)
  else if a = Reg.PIN_LOCK then s.pinLock v
  else if a = Reg.PIN_SET0 then s.setReg Reg.PIN_OUT0 (s.reg Reg.PIN_OUT0 ||| v)
  else if a = Reg.PIN_SET1 then s.setReg Reg.PIN_OUT1 (s.reg Reg.PIN_OUT1 ||| (v &&& 0xFFFF))
  else if a = Reg.PIN_CLR0 then s.setReg Reg.PIN_OUT0 (s.reg Reg.PIN_OUT0 &&& ~~~v)
  else if a = Reg.PIN_CLR1 then s.setReg Reg.PIN_OUT1 (s.reg Reg.PIN_OUT1 &&& ~~~v)
  else if 0x40110100 ≤ a then s.pinCfgWrite a v
  else s.writeCoded a v

/-- Writes of the management and recorder blocks. -/
def State.mgtWrite (a : Nat) (v : Word) (s : State) : State :=
  if a = Reg.MGT_MBINREL then s.mbRelease v
  else if a = Reg.MGT_MBSEND then s.mbSend v
  else if a = Reg.MGT_HSNAP then s.snapHealth v
  else if a = Reg.MGT_ABCTL then s.abctlWrite v
  else s.writeCoded a v

def State.evrWrite (m : Acc) (a : Nat) (v : Word) (s : State) : State :=
  if a = Reg.EVR_SECS then (if m.alle then s.timeWrite false v else s)
  else if a = Reg.EVR_PCYC then (if m.alle then s.timeWrite true v else s)
  else if a = Reg.EVR_CURCTL then s.curctl v
  else match arr (Reg.EVR_LOGt_GO 0) 0x20 3 a with
    | some t => s.logGo t v
    | none => s.writeCoded a v

/-- Writes of the image and control-store registers. -/
def State.imgWrite (a : Nat) (v : Word) (s : State) : State :=
  if a = Reg.IMG_CMD then s.imgCmd v
  else if a = Reg.IMG_SESSION then s.sessionWrite false v
  else if a = Reg.IMG_STGBASE then s.sessionWrite true v
  else if a = Reg.IMG_UCLOAD then s.ucLoad v
  else if a = Reg.IMG_UCSWAP then s.ucSwap v
  else s.writeCoded a v

/-- What a write of a register does; one of a reserved offset is ignored (R6). -/
def State.regWrite (m : Acc) (a : Nat) (v : Word) (s : State) : State :=
  if (RegMap.find a).isNone then s else
  match blockOf a with
  | 1 => if a = Reg.CLK_PLLCTL then s.writePllctl v false
    else if a = Reg.CLK_SWRST then s.swReset v
    else if a = Reg.CLK_GVCTL then s.writeGvctl v
    else s.writeCoded a v
  | 2 => if a = Reg.COT_COMMIT then s.commitRequest v else s.writeCoded a v
  | 3 => if a = Reg.BEAM_CTRL then s.beamCtrl v
    else if a = Reg.BEAM_FSOUT then (s.writeCoded a v).judgeFsout
    else match arr (Reg.BEAM_MATCHn 0) 4 4 a with
      | some n => let t := s.writeCoded a v; if t.matchBad n then t.raise0 stBEAM 1 else t
      | none => s.writeCoded a v
  | 4 => if a = Reg.QDL_CTRL then s.qdlCtrl v
    else if a = Reg.QDL_LANEPOL then s.writeLanepol v
    else s.writeCoded a v
  | 5 => s.layWrite a v
  | 6 => if a = Reg.MNT_GFLAG then s.gflagSet v
    else if a = Reg.MNT_GFCLR then s.gflagClear v
    else match arr (Reg.MNT_ENGe_STAT 0) 0x40 8 a with
      | some e => s.engStatWrite e v
      | none =>
        let e := (a - 0x40060100) / 0x40
        if 0x40060100 ≤ a ∧ e < 8 ∧ 0x20 ≤ a % 0x40 ∧ s.engState e ≠ 0 ∧ s.engState e ≠ 5 then s else s.writeCoded a v
  | 7 => if a = Reg.PNL_BLANK then s.blankRequest v
    else if a = Reg.PNL_CMDQ then s.pnlCmdq v
    else if a = Reg.PNL_MAPDATA then s.mapWrite v
    else s.writeCoded a v
  | 8 => if a = Reg.SIG_PAVREQ then s.pavaneRequest v
    else if a = Reg.SIG_PAVSTAT then s.pavaneExit v
    else s.writeCoded a v
  | 9 => s.sndWrite a v
  | 11 => if a = Reg.AKx_CTRL 0 then s.akCtrl 0 v else if a = Reg.AKx_EPOL 0 then s.epolWrite 0 v else s.writeCoded a v
  | 12 => if a = Reg.AKx_CTRL 1 then s.akCtrl 1 v else if a = Reg.AKx_EPOL 1 then s.epolWrite 1 v else s.writeCoded a v
  | 13 => if a = Reg.REEL_GO then s.reelGo v 0
    else if a = Reg.REEL_ABORT then s.reelAbort v 0 0
    else s.writeCoded a v
  | 14 => if a = Reg.BLK_PUSH then (if bitAt v 0 then s.blkPush else s)
    else if a = Reg.BLK_GO then (if bitAt v 0 then s.blkRelease else s)
    else if a = Reg.BLK_STAT then s.blkClear v
    else s.writeCoded a v
  | 15 => if a = Reg.IRQ_RAISE then s.irqRaise v
    else if a = Reg.IRQ_CLR then s.irqClear v
    else match arr (Reg.IRQ_SRCs 0) 4 256 a, arr (Reg.IRQ_COALk_CFG 0) 16 16 a with
      | some n, _ => s.writeSrc n v
      | _, some k => s.writeCoal k v
      | _, _ => s.writeCoded a v
  | 16 => s.tmrWrite m a v
  | 17 => s.pinWrite a v
  | 19 => if a = Reg.CI3C_CMD then s.ci3cCmd v
    else if a = Reg.CI3C_TXD then { s with ci3c := { s.ci3c with tx := s.ci3c.tx ++ leBytes 4 v.toNat } }
    else s.writeCoded a v
  | 20 => if a = Reg.XSPI_CTRL then s.xspiCtrl v
    else if a = Reg.XSPI_CMD then s.xspiCmd v
    else if a = Reg.XSPI_DATA then s.xspiPush v
    else s.writeCoded a v
  | 21 => s.mgtWrite a v
  | 22 => s.evrWrite m a v
  | 23 => if a = Reg.SEC_CMD then s.secCmd (fld v 3 0)
    else if a = Reg.SEC_TCLR then s.tclr v
    else s.writeCoded a v
  | 24 => s.dbgWrite a v
  | 25 => s.imgWrite a v
  | 26 => if a = Reg.MRC_REQ then s.mrcReq v
    else if a = Reg.MRC_CEPOL then s.writeCepol v
    else s.writeCoded a v
  | _ => s.writeCoded a v

/-! The address map. -/

/-- An access that is not completed: its code, data zero, and the error response (R89). -/
def State.failRead (m : Acc) (a n code : Nat) (s : State) : Nat × List Byte × State :=
  (code, List.replicate n 0, s.errResponse m.port a code false)

/-- The secure-state condition of secure SRAM, and of loads from the security area (R442, R451). -/
def State.memProt (m : Acc) (a : Nat) (write : Bool) : Bool :=
  if 0x30000000 ≤ a ∧ a < 0x30040000 then !m.sec
  else if 0x38000000 ≤ a ∧ a < 0x38010000 then write || (decide (secBase ≤ a) && !m.sec)
  else if a < 0x10000 then write
  else if 0x22000000 ≤ a ∧ a < 0x220C0000 then write || !m.alle
  else false

/-- A read of `n` bytes at `a`, within one memory or register: error code, bytes (zero with an error), and the state after it. -/
def State.busRead (m : Acc) (a n : Nat) (s : State) : Nat × List Byte × State :=
  if m.debug && !s.debugAllows a false then (8, List.replicate n 0, s.denied)
  else if s.targetOff a then s.failRead m a n 6
  else if inRegs a then
    if n ≠ 4 ∨ a % 4 ≠ 0 then s.failRead m a n 7
    else if regEnd ≤ a then s.failRead m a n 1
    else if regProt m a false 0 then s.failRead m a n 3
    else let (w, t) := s.regRead m a; (0, leBytes 4 w.toNat, t)
  else if State.memProt m a false then s.failRead m a n 3
  else s.memRead m.port a n

/-- A write that is not completed. -/
def State.failWrite (m : Acc) (a code : Nat) (s : State) : Nat × State := (code, s.errResponse m.port a code true)

/-- A write of bytes at `a`, within one memory or register: error code and the state after it. -/
def State.busWrite (m : Acc) (a : Nat) (bs : List Byte) (s : State) : Nat × State :=
  let n := bs.length
  if m.debug && !s.debugAllows a true then (8, s.denied)
  else if s.targetOff a then s.failWrite m a 6
  else if inRegs a then
    if n ≠ 4 ∨ a % 4 ≠ 0 then s.failWrite m a 7
    else if regEnd ≤ a then s.failWrite m a 1
    else if regProt m a true (leWord bs) then s.failWrite m a 3
    else (0, s.regWrite m a (leWord bs))
  else if State.memProt m a true then s.failWrite m a 3
  else s.memWrite m.port a bs

/-- A 32-bit read. -/
def State.busRead32 (m : Acc) (a : Nat) (s : State) : Nat × Word × State :=
  let (c, bs, t) := s.busRead m a 4
  (c, leWord bs, t)

/-- A 32-bit write. -/
def State.busWrite32 (m : Acc) (a : Nat) (v : Word) (s : State) : Nat × State := s.busWrite m a (leBytes 4 v.toNat)

/-- A command that reads a register: what it returns stands in the answer. -/
def State.askRead (m : Acc) (a : Nat) (s : State) : State :=
  let (c, w, t) := s.busRead32 m a
  t.reply c w

/-- A command that writes a register. -/
def State.askWrite (m : Acc) (a : Nat) (v : Word) (s : State) : State :=
  let (c, t) := s.busWrite32 m a v
  t.reply c 0

end Sys2Proof.Machine
end

