-- ==== Sys2Proof/Machine/BusRows.lean ====
section
/-! DEFINITION. The commands that are an access of a master to a register: each goes through the bus with the rights, the error
responses and the effects that `Bus` gives the register. -/

namespace Sys2Proof.Machine

/-- A register write whose effect is `f`, under the rights of a write of `v` at `a`. -/
def State.askWith (m : Acc) (a : Nat) (v : Word) (f : State → State) (s : State) : State :=
  if m.debug && !s.debugAllows a true then s.denied.reply 8 0
  else if s.targetOff a then s.replyErr m.port a 6 true
  else if regProt m a true v then s.replyErr m.port a 3 true
  else (f s).reply 0 0

/-- The W1C bits that hardware sets in the FCLK of a write to their register are one after it (R9). -/
def State.setWins (addr : Nat) (set : Word) (s : State) : State :=
  match RegMap.find addr with
  | some (r, _) => s.setReg addr (s.reg addr ||| (set &&& r.w1c))
  | none => s

/-- `REGISTER_WRITE`: a write of 1, 2 or 4 bytes at any address; `set` are the bits that hardware sets in the same FCLK (R9). -/
def execRegisterWrite (m : Acc) (addr size : Nat) (v set : Word) (s : State) : Res :=
  let (c, t) := s.busWrite m addr (leBytes size v.toNat)
  .next ((if s.targetOff addr then t else t.setWins addr set).reply c 0)

/-- `RC_REGISTER_READ`: `event` is what a hardware event in the same FCLK leaves in the RC bits: the read returns the value before it,
and the field then holds its effect alone (R10). -/
def execRcRegisterRead (m : Acc) (addr : Nat) (event : Word) (s : State) : Res :=
  let t := s.askRead m addr
  match RegMap.find addr with
  | some (r, _) =>
    if m.debug ∨ t.answer.code ≠ 0 then .next t
    else .next (t.setReg addr (t.reg addr ||| (event &&& r.rc)))
  | none => .next t

/-! The beam and commits. -/

/-- `BEAM_RUN`. -/
def execBeamRun (m : Acc) (subfm1 : Nat) (s : State) : Res := .next (s.askWrite m Reg.BEAM_CTRL (wd (1 + 2 * (subfm1 % 4))))

/-- `BEAM_STOP_REQUEST`. -/
def execBeamStopRequest (m : Acc) (subfm1 : Nat) (s : State) : Res := .next (s.askWrite m Reg.BEAM_CTRL (wd (2 * (subfm1 % 4))))

/-- `BEAM_POS_READ`. -/
def execBeamPosRead (m : Acc) (s : State) : Res := .next (s.askRead m Reg.BEAM_POS)

/-- `COT_COMMIT`. -/
def execCotCommit (m : Acc) (v : Word) (s : State) : Res := .next (s.askWrite m Reg.COT_COMMIT v)

/-! The fabric. -/

/-- `MRC_CEPOL_WRITE`. -/
def execMrcCepolWrite (m : Acc) (v : Word) (s : State) : Res := .next (s.askWrite m Reg.MRC_CEPOL v)

/-- `MRC_REQ_PRESERVING`. -/
def execMrcReqPreserving (m : Acc) (bank : Fin 32) (s : State) : Res := .next (s.askWrite m Reg.MRC_REQ (wd (512 + bank.val)))

/-- `MRC_REQ_DESTROYING`. -/
def execMrcReqDestroying (m : Acc) (bank : Fin 32) (s : State) : Res := .next (s.askWrite m Reg.MRC_REQ (wd (768 + bank.val)))

/-! The Quadrille and its layers. -/

/-- `QDL_ENABLE`. -/
def execQdlEnable (m : Acc) (s : State) : Res := .next (s.askWrite m Reg.QDL_CTRL 1)

/-- `QDL_DISABLE`. -/
def execQdlDisable (m : Acc) (s : State) : Res := .next (s.askWrite m Reg.QDL_CTRL 0)

/-- `LAYER_FENCE_SIGNAL`: SIG, with LATE as it stands. -/
def execLayerFenceSignal (m : Acc) (slot : Fin 12) (s : State) : Res :=
  .next (s.askWrite m (Reg.LAYn_FENCE slot.val) (wd (1 + 2 * s.f (Reg.LAYn_FENCE slot.val) 1 1)))

/-- `QDL_LANEPOL_WRITE`. -/
def execQdlLanepolWrite (m : Acc) (v : Word) (s : State) : Res := .next (s.askWrite m Reg.QDL_LANEPOL v)

/-! The Minuet. -/

/-- `ENGINE_FAULT_CLEAR`. -/
def execEngineFaultClear (m : Acc) (e : Fin 8) (s : State) : Res := .next (s.askWrite m (Reg.MNT_ENGe_STAT e.val) 0x400)

/-- `GFLAG_SET`. -/
def execGflagSet (m : Acc) (v : Word) (s : State) : Res := .next (s.askWrite m Reg.MNT_GFLAG v)

/-- `GFLAG_CLEAR`. -/
def execGflagClear (m : Acc) (v : Word) (s : State) : Res := .next (s.askWrite m Reg.MNT_GFCLR v)

/-- `BEAM_STORE_WRITE`: an address outside the beam store is taken as the word of the store it leaves modulo its size. -/
def execBeamStoreWrite (m : Acc) (addr : Nat) (v : Word) (s : State) : Res :=
  .next (s.askWrite m (0x21000000 + addr % 0x40000) v)

/-! Panel ports. -/

/-- `BLANK_REQUEST`. -/
def execBlankRequest (m : Acc) (v : Word) (s : State) : Res := .next (s.askWrite m Reg.PNL_BLANK v)

/-- `PNL_CMD_CFG`. -/
def execPnlCmdCfg (m : Acc) (s : State) : Res := .next (s.askWrite m Reg.PNL_CMDQ 5)

/-- `PNL_CMD_GAIN`. -/
def execPnlCmdGain (m : Acc) (data : BitVec 16) (s : State) : Res := .next (s.askWrite m Reg.PNL_CMDQ (wd (6 + 2 ^ 16 * data.toNat)))

/-- `PNL_CMD_USER`. -/
def execPnlCmdUser (m : Acc) (data : BitVec 16) (s : State) : Res := .next (s.askWrite m Reg.PNL_CMDQ (wd (7 + 2 ^ 16 * data.toNat)))

/-- `PNL_MAPDATA`. -/
def execPnlMapdata (m : Acc) (write : Bool) (v : Word) (s : State) : Res :=
  .next (if write then s.askWrite m Reg.PNL_MAPDATA v else s.askRead m Reg.PNL_MAPDATA)

/-! Signatures. -/

/-- `PAVANE_REQUEST`. -/
def execPavaneRequest (m : Acc) (v : Word) (s : State) : Res := .next (s.askWrite m Reg.SIG_PAVREQ v)

/-- `PAVANE_EXIT_REQUEST`. -/
def execPavaneExitRequest (m : Acc) (v : Word) (s : State) : Res := .next (s.askWrite m Reg.SIG_PAVSTAT v)

/-! Sound. -/

/-- `KEY_ON`. -/
def execKeyOn (m : Acc) (n : Fin 2) (v : Word) (s : State) : Res := .next (s.askWrite m (Reg.SND_KEYONx n.val) v)

/-- `KEY_OFF`. -/
def execKeyOff (m : Acc) (n : Fin 2) (v : Word) (s : State) : Res := .next (s.askWrite m (Reg.SND_KEYOFFx n.val) v)

/-- `NODE_WRITE`. -/
def execNodeWrite (m : Acc) (v : Word) (s : State) : Res := .next (s.askWrite m Reg.SND_NODEW v)

/-- `BIQUAD_COEF_WRITE`: the A2 word. -/
def execBiquadCoefWrite (m : Acc) (o : Fin 32) (k : Fin 10) (v : Word) (s : State) : Res :=
  .next (s.askWrite m (Reg.SNDo_BQk_c o.val k.val 4) v)

/-- `SND_KLO_READ`. -/
def execSndKloRead (m : Acc) (s : State) : Res := .next (s.askRead m Reg.SND_KLO)

/-- `OBJ_MUTE`. -/
def execObjMute (m : Acc) (v : Word) (s : State) : Res := .next (s.askWrite m Reg.OBJ_MUTE v)

/-! Aketh. EN is written as it stands. -/

/-- `AKETH_EPOL_WRITE`. -/
def execAkethEpolWrite (m : Acc) (port : Fin 2) (v : Word) (s : State) : Res := .next (s.askWrite m (Reg.AKx_EPOL port.val) v)

/-- `AKETH_RETRAIN`. -/
def execAkethRetrain (m : Acc) (port : Fin 2) (s : State) : Res :=
  .next (s.askWrite m (Reg.AKx_CTRL port.val) (wd (2 + s.f (Reg.AKx_CTRL port.val) 0 0)))

/-- `AKETH_LANE_RETRY`. -/
def execAkethLaneRetry (m : Acc) (port : Fin 2) (s : State) : Res :=
  .next (s.askWrite m (Reg.AKx_CTRL port.val) (wd (4 + s.f (Reg.AKx_CTRL port.val) 0 0)))

/-- `AKETH_REKEY`. -/
def execAkethRekey (m : Acc) (port : Fin 2) (s : State) : Res :=
  .next (s.askWrite m (Reg.AKx_CTRL port.val) (wd (8 + s.f (Reg.AKx_CTRL port.val) 0 0)))

/-! Reel and the block engine. -/

/-- `REEL_GO`: `trig` are the channels a trigger starts in the same FCLK (R357). -/
def execReelGo (m : Acc) (v trig : Word) (s : State) : Res := .next (s.askWith m Reg.REEL_GO v (fun t => t.reelGo v trig))

/-- `REEL_ABORT`: `start` and `done` are the starts and completions of the same FCLK (R357, R369). -/
def execReelAbort (m : Acc) (v start done : Word) (s : State) : Res :=
  .next (s.askWith m Reg.REEL_ABORT v (fun t => t.reelAbort v start done))

/-- `BLK_PUSH`. -/
def execBlkPush (m : Acc) (v : Word) (s : State) : Res := .next (s.askWrite m Reg.BLK_PUSH v)

/-- `BLK_GO`: with a trigger's release in the same FCLK one job is released (R371). -/
def execBlkGo (m : Acc) (v : Word) (trig : Bool) (s : State) : Res :=
  .next (s.askWith m Reg.BLK_GO v (fun t => if bitAt v 0 || trig then t.blkRelease else t))

/-- `BLK_ERROR_CLEAR`. -/
def execBlkErrorClear (m : Acc) (v : Word) (s : State) : Res := .next (s.askWrite m Reg.BLK_STAT v)

/-! Interrupts, timers, watchdogs. -/

/-- `IRQ_RAISE`. -/
def execIrqRaise (m : Acc) (v : Word) (s : State) : Res := .next (s.askWrite m Reg.IRQ_RAISE v)

/-- `IRQ_CLR`. -/
def execIrqClr (m : Acc) (v : Word) (s : State) : Res := .next (s.askWrite m Reg.IRQ_CLR v)

/-- `IRQ_FB_WRITE`. -/
def execIrqFbWrite (m : Acc) (src : Fin 256) (v : Word) (s : State) : Res := .next (s.askWrite m (Reg.IRQ_SRCs src.val) v)

/-- `IRQ_COAL_CFG_WRITE`. -/
def execIrqCoalCfgWrite (m : Acc) (k : Fin 16) (v : Word) (s : State) : Res := .next (s.askWrite m (Reg.IRQ_COALk_CFG k.val) v)

/-- `TMR_CNT_READ`. -/
def execTmrCntRead (m : Acc) (n : Fin 16) (s : State) : Res := .next (s.askRead m (Reg.TMRn_CNT n.val))

/-- `TMR_CNT_WRITE`. -/
def execTmrCntWrite (m : Acc) (n : Fin 16) (v : Word) (s : State) : Res := .next (s.askWrite m (Reg.TMRn_CNT n.val) v)

/-- `TMR_CMP_WRITE`: a tick in the FCLK of the write still uses the old value (R391). -/
def execTmrCmpWrite (m : Acc) (n : Fin 16) (v : Word) (tick : Bool) (s : State) : Res :=
  let s1 := if tick then s.timerStep 16 n.val else s
  .next (s1.askWrite m (Reg.TMRn_CMP n.val) v)

/-- `TMR_CAP_READ`: with a capture edge in the FCLK of the read, the old capture is returned and CAPF stays set (R394). -/
def execTmrCapRead (m : Acc) (n : Fin 16) (edge : Bool) (s : State) : Res :=
  let s1 := s.askRead m (Reg.TMRn_CAP n.val)
  .next (if edge then s1.capture n.val else s1)

/-- `WDG_ENABLE`. -/
def execWdgEnable (m : Acc) (w : Fin 3) (v : Word) (s : State) : Res := .next (s.askWrite m (wdgReg w.val 0) v)

/-- `WDG_KEY`. -/
def execWdgKey (m : Acc) (w : Fin 3) (v : Word) (s : State) : Res := .next (s.askWrite m (wdgReg w.val 0xC) v)

/-! Clocks and reset. -/

/-- `PLL_REVERT`: `relocked` says that PLL F has locked again. -/
def execPllRevert (m : Acc) (v : Word) (relocked : Bool) (s : State) : Res :=
  .next (s.askWith m Reg.CLK_PLLCTL v (fun t => t.writePllctl (v ||| 2) relocked))

/-- `CLK_SWRST`. -/
def execClkSwrst (m : Acc) (v : Word) (s : State) : Res := .next (s.askWrite m Reg.CLK_SWRST v)

/-- `GV_RELEASE`. -/
def execGvRelease (m : Acc) (v : Word) (s : State) : Res := .next (s.askWrite m Reg.CLK_GVCTL v)

/-- `CLK_UPLO_READ`. -/
def execClkUploRead (m : Acc) (s : State) : Res := .next (s.askRead m Reg.CLK_UPLO)

/-! Images and control stores. -/

/-- `VERIFY`. -/
def execVerify (m : Acc) (src : Fin 4) (s : State) : Res := .next (s.askWrite m Reg.IMG_CMD (wd (1 + 512 * src.val)))

/-- `SSVERIFY`. -/
def execSsverify (m : Acc) (s : State) : Res := .next (s.askWrite m Reg.IMG_CMD 2)

/-- `IMG_CMD_SWAP`. -/
def execImgCmdSwap (m : Acc) (brk : Bool) (s : State) : Res := .next (s.askWrite m Reg.IMG_CMD (wd (3 + 256 * b2n brk)))

/-- `CANCEL`. -/
def execCancel (m : Acc) (s : State) : Res := .next (s.askWrite m Reg.IMG_CMD 4)

/-- `LOAD`. -/
def execLoad (m : Acc) (src : Fin 4) (s : State) : Res := .next (s.askWrite m Reg.IMG_CMD (wd (5 + 512 * src.val)))

/-- `IMG_SESSION_WRITE`. -/
def execImgSessionWrite (m : Acc) (base : Bool) (v : Word) (s : State) : Res :=
  .next (s.askWrite m (if base then Reg.IMG_STGBASE else Reg.IMG_SESSION) v)

/-- `IMG_UCLOAD`. -/
def execImgUcload (m : Acc) (v : Word) (s : State) : Res := .next (s.askWrite m Reg.IMG_UCLOAD v)

/-- `IMG_UCSWAP`. -/
def execImgUcswap (m : Acc) (v : Word) (s : State) : Res := .next (s.askWrite m Reg.IMG_UCSWAP v)

/-! Management and the recorder. -/

/-- `MGT_MBINREL`. -/
def execMgtMbinrel (m : Acc) (v : Word) (s : State) : Res := .next (s.askWrite m Reg.MGT_MBINREL v)

/-- `MGT_MBSEND`. -/
def execMgtMbsend (m : Acc) (v : Word) (s : State) : Res := .next (s.askWrite m Reg.MGT_MBSEND v)

/-- `MGT_HSNAP`. -/
def execMgtHsnap (m : Acc) (v : Word) (s : State) : Res := .next (s.askWrite m Reg.MGT_HSNAP v)

/-- `EVR_TIME_WRITE`. -/
def execEvrTimeWrite (m : Acc) (pcyc : Bool) (v : Word) (s : State) : Res :=
  .next (s.askWrite m (if pcyc then Reg.EVR_PCYC else Reg.EVR_SECS) v)

/-- `EVR_CURCTL`. -/
def execEvrCurctl (m : Acc) (v : Word) (s : State) : Res := .next (s.askWrite m Reg.EVR_CURCTL v)

/-- `EVR_WIN7_READ`. -/
def execEvrWin7Read (m : Acc) (s : State) : Res := .next (s.askRead m (Reg.EVR_WINw 7))

/-- `EVR_LOG_GO`. -/
def execEvrLogGo (m : Acc) (t : Fin 3) (v : Word) (s : State) : Res := .next (s.askWrite m (Reg.EVR_LOGt_GO t.val) v)

/-! Security. -/

/-- `LCADV`. -/
def execLcadv (m : Acc) (s : State) : Res := .next (s.askWrite m Reg.SEC_CMD 1)

/-- `OWNKEY`. -/
def execOwnkey (m : Acc) (s : State) : Res := .next (s.askWrite m Reg.SEC_CMD 2)

/-- `REVOKE`. -/
def execRevoke (m : Acc) (s : State) : Res := .next (s.askWrite m Reg.SEC_CMD 3)

/-- `DBGKEY`. -/
def execDbgkey (m : Acc) (s : State) : Res := .next (s.askWrite m Reg.SEC_CMD 4)

/-- `SVNSET`. -/
def execSvnset (m : Acc) (s : State) : Res := .next (s.askWrite m Reg.SEC_CMD 5)

/-- `FLEETLOAD`. -/
def execFleetload (m : Acc) (s : State) : Res := .next (s.askWrite m Reg.SEC_CMD 6)

/-- `FLEETZERO`. -/
def execFleetzero (m : Acc) (s : State) : Res := .next (s.askWrite m Reg.SEC_CMD 7)

/-- `DBGDROP`. -/
def execDbgdrop (m : Acc) (s : State) : Res := .next (s.askWrite m Reg.SEC_CMD 8)

/-- `SEC_TCLR`. -/
def execSecTclr (m : Acc) (v : Word) (s : State) : Res := .next (s.askWrite m Reg.SEC_TCLR v)

/-! Debug. -/

/-- `DBG_CHAL`. -/
def execDbgChal (m : Acc) (level : Nat) (s : State) : Res := .next (s.askWrite m Reg.DBG_AUTHCTL (wd (256 + level % 256)))

/-- `DBG_VERIFY`. -/
def execDbgVerify (m : Acc) (s : State) : Res := .next (s.askWrite m Reg.DBG_AUTHCTL 512)

/-- `DBG_HALT`: HALT, with MODE, STEP and SKIP1 as they stand. -/
def execDbgHalt (m : Acc) (c : Fin 3) (s : State) : Res :=
  .next (s.askWrite m (Reg.DBG_Cc_CTRL c.val) ((s.reg (Reg.DBG_Cc_CTRL c.val) &&& 0x1C) ||| 1))

/-- `DBG_RUN`. -/
def execDbgRun (m : Acc) (c : Fin 3) (s : State) : Res :=
  .next (s.askWrite m (Reg.DBG_Cc_CTRL c.val) ((s.reg (Reg.DBG_Cc_CTRL c.val) &&& 0x1C) ||| 2))

/-- `DBG_REGDATA`. -/
def execDbgRegdata (m : Acc) (c : Fin 3) (write : Bool) (v : Word) (s : State) : Res :=
  .next (if write then s.askWrite m (Reg.DBG_Cc_REGDATA c.val) v else s.askRead m (Reg.DBG_Cc_REGDATA c.val))

/-- `DBG_LDATA`. -/
def execDbgLdata (m : Acc) (c : Fin 3) (write : Bool) (v : Word) (s : State) : Res :=
  .next (if write then s.askWrite m (Reg.DBG_Cc_LDATA c.val) v else s.askRead m (Reg.DBG_Cc_LDATA c.val))

/-- `DBG_DRX_WRITE`. -/
def execDbgDrxWrite (m : Acc) (c : Fin 3) (v : Word) (s : State) : Res := .next (s.askWrite m (Reg.DBG_Cc_DRX c.val) v)

/-- `DBG_TXFULL_ACK`. -/
def execDbgTxfullAck (m : Acc) (c : Fin 3) (s : State) : Res := .next (s.askWrite m (Reg.DBG_Cc_VT c.val) 1)

/-! Pins and the cabinet and flash ports. -/

/-- `PIN_RELEASE`. -/
def execPinRelease (m : Acc) (s : State) : Res := .next (s.askWrite m Reg.PIN_CTRL 1)

/-- `PIN_LOCK`. -/
def execPinLock (m : Acc) (v : Word) (s : State) : Res := .next (s.askWrite m Reg.PIN_LOCK v)

/-- CI3C_CMD with a KIND. -/
def ci3cKind (k : Nat) (v : Word) : Word := setFld v 3 0 k

/-- `CI3C_PRIVATE_WRITE`. -/
def execCi3cPrivateWrite (m : Acc) (v : Word) (s : State) : Res := .next (s.askWrite m Reg.CI3C_CMD (ci3cKind 0 v))

/-- `CI3C_PRIVATE_READ`. -/
def execCi3cPrivateRead (m : Acc) (v : Word) (s : State) : Res := .next (s.askWrite m Reg.CI3C_CMD (ci3cKind 1 v))

/-- `CI3C_BROADCAST_CCC`. -/
def execCi3cBroadcastCcc (m : Acc) (v : Word) (s : State) : Res := .next (s.askWrite m Reg.CI3C_CMD (ci3cKind 2 v))

/-- `CI3C_DIRECT_CCC`. -/
def execCi3cDirectCcc (m : Acc) (v : Word) (s : State) : Res := .next (s.askWrite m Reg.CI3C_CMD (ci3cKind 3 v))

/-- `CI3C_ENTDAA`. -/
def execCi3cEntdaa (m : Acc) (v : Word) (s : State) : Res := .next (s.askWrite m Reg.CI3C_CMD (ci3cKind 4 v))

/-- `CI3C_HDR_WRITE`. -/
def execCi3cHdrWrite (m : Acc) (v : Word) (s : State) : Res := .next (s.askWrite m Reg.CI3C_CMD (ci3cKind 5 v))

/-- `CI3C_HDR_READ`. -/
def execCi3cHdrRead (m : Acc) (v : Word) (s : State) : Res := .next (s.askWrite m Reg.CI3C_CMD (ci3cKind 6 v))

/-- `CI3C_I2C_WRITE`. -/
def execCi3cI2cWrite (m : Acc) (v : Word) (s : State) : Res := .next (s.askWrite m Reg.CI3C_CMD (ci3cKind 7 v))

/-- `CI3C_I2C_READ`. -/
def execCi3cI2cRead (m : Acc) (v : Word) (s : State) : Res := .next (s.askWrite m Reg.CI3C_CMD (ci3cKind 8 v))

/-- `CI3C_RXD_READ`: of CI3C_RXD, or of CI3C_IBIQ. -/
def execCi3cRxdRead (m : Acc) (ibiq : Bool) (s : State) : Res := .next (s.askRead m (if ibiq then Reg.CI3C_IBIQ else Reg.CI3C_RXD))

/-- `XSPI_COMMAND`: XSPI_CMD with POLL zero. -/
def execXspiCommand (m : Acc) (v : Word) (s : State) : Res := .next (s.askWrite m Reg.XSPI_CMD (putBit v 27 false))

/-- `XSPI_POLL`: XSPI_CMD with POLL one. -/
def execXspiPoll (m : Acc) (v : Word) (s : State) : Res := .next (s.askWrite m Reg.XSPI_CMD (putBit v 27 true))

/-- `XSPI_DATA`. -/
def execXspiData (m : Acc) (write : Bool) (v : Word) (s : State) : Res :=
  .next (if write then s.askWrite m Reg.XSPI_DATA v else s.askRead m Reg.XSPI_DATA)

/-- `XSPI_FLUSH`: EN is written as it stands. -/
def execXspiFlush (m : Acc) (s : State) : Res := .next (s.askWrite m Reg.XSPI_CTRL (wd (2 + s.f Reg.XSPI_CTRL 0 0)))

end Sys2Proof.Machine
end

