-- ==== Sys2Proof/Machine/Operands.lean ====
section
/-! DEFINITION. The operand forms of the cores' instructions: how each is encoded, which words are legal, which may not stand in a delay slot,
and which registers each names (R313 to R320, R323). -/

namespace Sys2Proof.Machine

/-! Encodings (Tables 12.4, 12.5 and 12.7). -/

def encR (op rd ra rb : Nat) : Word := wd (op * 2 ^ 26 + rd * 2 ^ 22 + ra * 2 ^ 18 + rb * 2 ^ 14)
def encI (op rd ra : Nat) (imm : BitVec 18) : Word := wd (op * 2 ^ 26 + rd * 2 ^ 22 + ra * 2 ^ 18 + imm.toNat)
def encJ (op : Nat) (off : BitVec 26) : Word := wd (op * 2 ^ 26 + off.toNat)

/-- The system group: FN in the low bits, SREG or CODE from bit 4 on. -/
def encY (fn rd ra mid : Nat) : Word := wd (0x3D * 2 ^ 26 + rd * 2 ^ 22 + ra * 2 ^ 18 + mid * 2 ^ 4 + fn)

/-- Fields of an instruction. -/
def iOp (w : Word) : Nat := fld w 31 26
def iRd (w : Word) : Nat := fld w 25 22
def iRa (w : Word) : Nat := fld w 21 18
def iRb (w : Word) : Nat := fld w 17 14
def iFn (w : Word) : Nat := fld w 3 0

/-- The 18-bit immediate, sign-extended. -/
def iImm (w : Word) : Word := (w.extractLsb' 0 18).signExtend 32

/-- The instruction keeps R313: its codes are not reserved, its unused fields are zero, and it breaks none of R311, R319, R320 and
Table 12.5. -/
def legal (w : Word) : Bool :=
  let z := fun (hi lo : Nat) => decide (fld w hi lo = 0)
  let o := iOp w
  if o ≤ 0x0E then z 13 0
  else if o = 0x0F then false
  else if o ≤ 0x13 then true
  else if o ≤ 0x16 then z 17 5
  else if o = 0x17 then z 21 18
  else if o = 0x18 then z 21 16
  else if o ≤ 0x1F then false
  else if o ≤ 0x27 then true
  else if o ≤ 0x2C then z 13 0
  else if o ≤ 0x2F then false
  else if o ≤ 0x31 then true
  else if o = 0x32 then z 25 22 && z 17 0
  else if o = 0x33 then z 25 22 && z 17 0 && decide (iRa w ≠ 15)
  else if o ≤ 0x35 then z 25 0
  else if o = 0x36 then decide (iRd w ≤ 9) && z 13 0
  else if o = 0x37 then decide (iRd w ≤ 9)
  else if o = 0x38 then z 25 23 && z 17 5
  else if o = 0x39 then z 17 11 && decide (fld w 9 5 + fld w 4 0 < 32)
  else if o = 0x3A then z 17 10 && decide (fld w 9 5 + fld w 4 0 < 32)
  else if o = 0x3B then z 17 0
  else if o = 0x3C then z 17 16 && ([0, 4, 8, 12] : List Nat).all fun i => decide (fld w (i + 3) i ≤ 9)
  else if o = 0x3D then
    match iFn w with
    | 0 => z 21 18 && z 17 12 && decide (fld w 11 4 ≤ 9)
    | 1 => z 25 22 && z 17 12 && ([0, 4, 8] : List Nat).contains (fld w 11 4)
    | 2 | 3 | 4 | 6 => z 25 4
    | 5 => z 21 4
    | 7 | 8 => z 25 18
    | _ => false
  else if o = 0x3E then
    match iFn w with
    | 0 => z 17 4
    | 1 | 2 => z 13 4
    | _ => false
  else true

/-- The instruction may not stand in a delay slot (R317). -/
def slotBan (w : Word) : Bool :=
  (decide (0x30 ≤ iOp w) && decide (iOp w ≤ 0x38)) || (decide (iOp w = 0x3D) && ([4, 7, 8] : List Nat).contains (iFn w))

/-- The registers that an instruction names, as sources or destination (R323). A UOP waits for every pending register. -/
def names (w : Word) : List Nat :=
  let o := iOp w
  if o ≤ 0x0E then [iRd w, iRa w, iRb w]
  else if o ≤ 0x16 then [iRd w, iRa w]
  else if o ≤ 0x18 then [iRd w]
  else if o ≤ 0x27 then [iRd w, iRa w]
  else if o ≤ 0x2C then [iRd w, iRa w, iRb w]
  else if o = 0x30 then []
  else if o = 0x31 then [15]
  else if o = 0x32 then [iRa w]
  else if o = 0x33 then [iRa w, 15]
  else if o = 0x34 then [15]
  else if o = 0x35 then [0, 1, 2, 3, 4, 5, 6, 7, 14]
  else if o = 0x36 then [iRa w, iRb w]
  else if o ≤ 0x38 then [iRa w]
  else if o ≤ 0x3C then [iRd w, iRa w]
  else if o = 0x3D then
    match iFn w with
    | 0 | 5 => [iRd w]
    | 1 => [iRa w]
    | _ => []
  else if o = 0x3E then (if iFn w = 0 then [iRd w, iRa w] else [iRd w, iRa w, iRb w])
  else List.range 16

end Sys2Proof.Machine
end

