-- ==== Sys2Proof/Machine/ReelMove.lean ====
section
/-! DEFINITION. How a beat of Reel moves its bytes, and the end of a panel unit's run or writes (R196, R356, R357, R359, R362 to R365). -/

namespace Sys2Proof.Machine

/-- What has befallen the stored word that holds address `a` since it was last looked at. -/
def State.upsetAt (a : Nat) (u : Upset) (s : State) : State :=
  if inSram a then s.upset (a / 16 * 16) u
  else match eccMemOf a with
    | some m => s.upset (a / m.size * m.size) u
    | none => s

/-- An access of Reel through the port of channel `c`. -/
def reelAcc (c : Nat) : Acc := { port := reelPort c, secure := false, debug := false, host := false }

/-- One data beat of channel `c`: its next write if it has one ready, else its next read. A write outside main SRAM is made with its response, so
that one which gets TIMEOUT is not made (R89, R90). -/
def State.dataBeat (c : Nat) (u : Upset) (s : State) : State :=
  let x := s.ch c
  match x.nextWrite x.d with
  | some (a, bs) =>
    let s1 := s.upsetAt a u
    let (code, t) := if inSram a then s1.busWrite (reelAcc c) a bs else (0, s1)
    t.setCh c { x with wr := x.wr + bs.length, buf := if x.d.xform = 0 then x.buf.drop bs.length else x.buf,
                       outs := x.outs ++ [⟨a, code, [], if inSram a then [] else bs⟩], preempted := false }
  | none =>
    match x.nextRead x.d with
    | some (a, n) =>
      let (code, bs, t) := (s.upsetAt a u).busRead (reelAcc c) a n
      t.setCh c { x with rd := x.rd + n, outs := x.outs ++ [⟨a, code, bs, []⟩], preempted := false }
    | none => s

/-- Channel `c` has taken port `p`: it is in service at its priority, and channels of lower priority that held the port are pre-empted. -/
def State.serveCh (p c : Nat) (s : State) : State :=
  let pri := s.f (Reg.REELc_CFG c) 2 1
  let held := s.reel.serving.filter fun e => decide (4 * p ≤ e.1) && decide (e.1 < 4 * p + pri) && decide (e.2 < 32)
  let s1 := held.foldl (fun t e =>
    let x := t.ch e.2
    if x.ready then t.setCh e.2 { x with preempted := true } else t) s
  let x := s1.ch c
  let s2 := s1.setCh c { x with preempted := false }
  { s2 with reel := { s2.reel with serving := (4 * p + pri, c) :: s2.reel.serving.filter fun e => decide (e.1 ≠ 4 * p + pri) } }

/-- `REEL_BEAT`: port `port` (0 DMA0, 1 DMA1) serves one beat; `upset` is what has befallen the stored word it reaches. -/
def execReelBeat (port : Fin 2) (upset : Upset) (s : State) : Res :=
  if s.frozen then .next s else
  if !s.bit Reg.REEL_CTRL 0 then .next s else
  match s.reelPick port.val with
  | none => .next s
  | some c =>
    let s1 := s.serveCh port.val c
    .next (if (s1.ch c).stage = .fetch then
        (s1.upsetAt ((s1.reg (Reg.REELc_CUR c)).toNat + 16 * (s1.ch c).beats) upset).fetchBeat c
      else s1.dataBeat c upset)

/-- The channel's oldest beat is made, if it is a write that has not been. -/
def State.makeBeat (c : Nat) (s : State) : State :=
  let x := s.ch c
  match x.outs with
  | o :: rest =>
    if o.todo.isEmpty then s else
    let (code, t) := s.busWrite (reelAcc c) o.addr o.todo
    t.setCh c { t.ch c with outs := { o with code := code, todo := [] } :: rest }
  | [] => s

/-- `REEL_BEAT_RESPONSE`: the response of the channel's oldest beat. -/
def execReelBeatResponse (c : Fin 32) (s : State) : Res :=
  if s.frozen then .next s else
  .next ((s.makeBeat c.val).reelLand c.val)

/-- A beat of a channel of port `port` at `addr` whose answer has not come gets TIMEOUT: a read brings zeros, a write is not made (R89, R90). -/
def State.reelTimeout (port addr : Nat) (write : Bool) (s : State) : State :=
  let open_ := fun (o : ReelOut) => decide (o.addr = addr) && decide (o.code = 0) && (if write then !o.todo.isEmpty else !o.data.isEmpty)
  match (List.range 32).find? fun c => decide (reelPort c = port) && (s.ch c).outs.any open_ with
  | none => s
  | some c =>
    let x := s.ch c
    s.setCh c { x with outs := match x.outs.find? open_ with
      | some o => x.outs.replace o { o with code := 2, data := List.replicate o.data.length 0, todo := [] }
      | none => x.outs }

/-- The beats of a panel unit, in order, until one receives an error response: its code and address (R365, R368). -/
def State.writeBeats (c : Nat) : List (Nat × List Byte) → State → Option (Nat × Nat) × State
  | [], s => (none, s)
  | (a, bs) :: rest, s =>
    let (code, t) := s.busWrite (reelAcc c) a bs
    if code = 0 then State.writeBeats c rest t else (some (code, a), t)

/-- The plane-rows of a direct unit, in the back store: beats of 16 bytes, or of 4 where the store lies in 32-bit parts (R204, R364). -/
def State.unitBeats (u : UnitSt) (depth : Nat) (s : State) : List (Nat × List Byte) :=
  let pr := s.prof u.port
  (s.members u.port).zipIdx.flatMap fun e =>
    let a := s.fsBase (1 - s.fsFront) + s.storeOff depth e.1 + u.row * depth * pr.planeBytes
    let bs := planeRows pr depth ((u.words.drop (8 * e.2)).take 8)
    let n := if narrow a then 4 else 16
    (List.range (bs.length / n)).map fun i => (a + n * i, (bs.drop (n * i)).take n)

/-- `UNIT_DELIVERED`: the LAT of the unit's DATA command ends, or Reel completes its writes to the back store. The unit is delivered if
nothing has marked it not sent since its run began (R196). A beat that receives an error response stops the PNL_DIRCH channel with STOP = BUS
and leaves the unit undelivered (R368); while REEL_CTRL.EN is zero Reel issues no beat (R357). -/
def execUnitDelivered (port : Fin 32) (s : State) : Res :=
  if s.frozen then .next s else
  match s.pnl.units.find? (fun u => decide (u.port = port.val) && u.running) with
  | none => .next s
  | some u =>
    let pr := s.prof u.port
    let depth := match s.head with | some q => q.f Reg.QDL_STRUCT 12 8 | none => s.f Reg.QDL_STRUCT 12 8
    let c := s.f Reg.PNL_DIRCH 4 0
    let ended := { u with running := false, words := [], before := [] }
    if pr.direct then
      if !s.bit Reg.REEL_CTRL 0 then .next s else
      match s.writeBeats c (s.unitBeats u depth) with
      | (none, t) => .next (t.setUnit { ended with delivered := u.sent })
      | (some (code, a), t) => .next ((t.stopNow c 3 code a).setUnit { ended with delivered := false })
    else .next ((s.emit (.panelRun u.port 0 (pr.latw 0) pr.runSlots pr.latHigh u.words)).setUnit { ended with delivered := u.sent })

end Sys2Proof.Machine
end

