-- ==== Sys2Proof/Machine/Gavotte.lean ====
section
/-! DEFINITION. What the instructions of a core share: encodings, fetching, register and memory accesses, retirement, exceptions, interrupts
and halts (R310 to R334, R450, R470 to R473). Core 0 is GV0, 1 GV1 and 2 the Allemande. -/

namespace Sys2Proof.Machine

/-! Registers and ST. -/

def CoreSt.r (x : CoreSt) (i : Nat) : Word := (x.g[i]?).getD 0
def CoreSt.put (x : CoreSt) (i : Nat) (v : Word) : CoreSt := { x with g := x.g.set i v }
def CoreSt.exc (x : CoreSt) : Bool := bitAt x.st 4
def CoreSt.sec (x : CoreSt) : Bool := bitAt x.st 5
def CoreSt.lvl (x : CoreSt) : Nat := fld x.st 11 8

/-- A register is pending (R323). -/
def CoreSt.waits (x : CoreSt) (i : Nat) : Bool := x.results.any fun r => decide (r.rd = i)

/-- The master port of a core (R312). -/
def corePort (c : Nat) : Nat := if c = 0 then 10 else if c = 1 then 11 else 14

def State.coreAcc (s : State) (c : Nat) : Acc :=
  { port := corePort c, secure := decide (c = 2) && (s.core c).sec, debug := false, host := false }

/-! Memory as a core sees it (Table 12.3): 0 boot ROM, 1 its local SRAM, 2 main SRAM, 3 any other target. -/

def memOf (c a : Nat) : Nat :=
  if a < 0x10000 then 0 else if 0x08000000 ≤ a ∧ a < 0x08000000 + localSize c then 1 else if inSram a then 2 else 3

/-- A read of local SRAM: error code UE where a word cannot be corrected, and the bytes. -/
def State.localRead (c a n : Nat) (s : State) : Nat × List Byte × State :=
  let k := localKey c (a - 0x08000000)
  match s.eccSpan 4 (37 + c) k n with
  | (0, t) => (0, t.bytes k n, t)
  | (e, t) => (e, List.replicate n 0, t)

/-- A write of local SRAM. -/
def State.localWrite (c a : Nat) (bs : List Byte) (s : State) : Nat × State :=
  let k := localKey c (a - 0x08000000)
  let n := bs.length
  let (e, t) := if n = 4 ∧ k % 4 = 0 then (0, s) else s.eccSpan 4 (37 + c) k n
  if e = 0 then (0, ((t.setBytes k bs).eccWritten (k / 4 * 4)).eccWritten ((k + n - 1) / 4 * 4)) else (e, t)

/-- One access of a core. -/
def State.pieceRead (c a n : Nat) (s : State) : Nat × List Byte × State :=
  if memOf c a = 1 then s.localRead c a n else s.busRead (s.coreAcc c) a n

def State.pieceWrite (c a : Nat) (bs : List Byte) (s : State) : Nat × State :=
  if memOf c a = 1 then s.localWrite c a bs else s.busWrite (s.coreAcc c) a bs

/-- The access is made in one part: it is aligned, or both its halves lie in one 16-byte word of main SRAM (R321, R344). -/
def onePart (a n : Nat) : Bool := decide (a % n = 0) || (inSram a && decide (a / 16 = (a + n - 1) / 16))

/-- A load: the first error code and the address it names, and the bytes, zero where an error was answered (R322, R344). -/
def State.coreRead (c a n : Nat) (s : State) : Nat × Nat × List Byte × State :=
  if onePart a n then
    let (e, bs, t) := s.pieceRead c a n
    (e, a, bs, t)
  else
    let m := a / n * n + n
    let (e1, b1, t1) := s.pieceRead c a (m - a)
    let (e2, b2, t2) := t1.pieceRead c m (a + n - m)
    if e1 ≠ 0 then (e1, a, List.replicate n 0, t2)
    else if e2 ≠ 0 then (e2, m, List.replicate n 0, t2)
    else (0, a, b1 ++ b2, t2)

/-- A store: a half that receives an error response is not made, the other is (R322, R344). -/
def State.coreWrite (c a : Nat) (bs : List Byte) (s : State) : Nat × Nat × State :=
  let n := bs.length
  if onePart a n then
    let (e, t) := s.pieceWrite c a bs
    (e, a, t)
  else
    let m := a / n * n + n
    let (e1, t1) := s.pieceWrite c a (bs.take (m - a))
    let (e2, t2) := t1.pieceWrite c m (bs.drop (m - a))
    if e1 ≠ 0 then (e1, a, t2) else (e2, m, t2)

/-! FINFO (Table 12.8). SIZE is 0, 1, 2 for 1, 2 and 4 bytes, and 3 for an atomic. -/

def sizeCode (n : Nat) : Nat := if n = 1 then 0 else if n = 2 then 1 else 2

def finfoWord (code : Nat) (write : Bool) (size kind : Nat) (precise : Bool) (scode : Nat) : Word :=
  wd (code % 8 + 8 * b2n write + 16 * (size % 4) + 64 * (kind % 4) + 512 * b2n precise + 2 ^ 18 * (scode % 2 ^ 14))

/-- A deferred bus error arrives; one that finds another not yet taken is lost, and OVF is set (R322). -/
def State.deferBuserr (c : Nat) (f : GvFault) (s : State) : State :=
  let x := s.core c
  s.setCore c { x with buserr := match x.buserr with
    | none => some f
    | some g => some { g with info := putBit g.info 8 true } }

/-! Alignment and targets (R321, R327). -/

/-- KIND of the ACCESS exception that an access of `n` bytes at `a` raises, if it raises one. -/
def CoreSt.accessKind (x : CoreSt) (c a n : Nat) : Option Nat :=
  let mis := decide (a % n ≠ 0)
  let dev := (decide (0x21000000 ≤ a) && decide (a < 0x21040000)) || (decide (0x40000000 ≤ a) && decide (a < 0x50000000))
  if mis && bitAt x.st 2 then some 0
  else if dev && (mis || decide (n ≠ 4)) then some 1
  else if mis && (decide (memOf c a = 3) || decide (memOf c a ≠ memOf c (a + n - 1))) then some 3
  else none

/-- An atomic's target is an aligned word of main SRAM or of the core's local SRAM. -/
def atomicOk (c a : Nat) : Bool := decide (a % 4 = 0) && (decide (memOf c a = 1) || decide (memOf c a = 2))

/-- The ACCESS exception that a load, store or atomic raises: its address and FINFO. -/
def CoreSt.accessFault (x : CoreSt) (c : Nat) (w : Word) : Option (Nat × Word) :=
  let o := iOp w
  if 0x20 ≤ o ∧ o ≤ 0x27 then
    let n := if o = 0x20 ∨ o = 0x25 then 4 else if o = 0x21 ∨ o = 0x22 ∨ o = 0x26 then 2 else 1
    let a := (x.r (iRa w) + iImm w).toNat
    (x.accessKind c a n).map fun k => (a, finfoWord 0 (decide (0x25 ≤ o)) (sizeCode n) k false 0)
  else if 0x28 ≤ o ∧ o ≤ 0x2C then
    let a := (x.r (iRa w)).toNat
    if atomicOk c a then none else some (a, finfoWord 0 false 3 2 false 0)
  else none

/-! Fetching (R312, R326, R450). -/

/-- The secure service region of boot ROM. -/
def secureRom (a : Nat) : Bool := decide (0x8000 ≤ a) && decide (a < 0x10000)

def State.noteAhead (c : Nat) (l : List (Nat × Nat × Word)) (s : State) : State :=
  let x := s.core c
  s.setCore c { x with ahead := x.ahead ++ l.filter fun e => !x.ahead.any fun f => decide (f.1 = e.1) }

/-- The word at `a` is read, unless it has been; from main SRAM the rest of its 16-byte word with it. A fetch that Table 12.3 forbids is
not made. -/
def State.fetchAt (c a : Nat) (s : State) : State :=
  if (s.core c).ahead.any fun e => decide (e.1 = a) then s else
  match memOf c a with
  | 0 => s.noteAhead c [(a, 0, leWord ((List.range 4).map fun i => Config.bootRom (a + i)))]
  | 1 =>
    let (e, bs, t) := s.localRead c a 4
    t.noteAhead c [(a, e, leWord bs)]
  | 2 =>
    let (e, v, t) := s.sramRead (corePort c) (a / 16 * 16)
    t.noteAhead c ((List.range (4 - a % 16 / 4)).map fun i => (a + 4 * i, e, wd (v / 2 ^ (8 * (a % 16 + 4 * i)))))
  | _ => s.noteAhead c [(a, 1, 0)]

/-- The last word read ahead of an instruction at `p`. -/
def aheadEnd (p : Nat) : Nat := if inSram (p + 8) then (p + 8) / 16 * 16 + 12 else p + 8

/-- The words that have been read when the instruction at PC begins: its own, and outside a delay slot the next two and the rest of their
16-byte word. -/
def State.fetchAhead (c : Nat) (s : State) : State :=
  let p := (s.core c).pc
  let s1 := s.fetchAt c p
  let s2 := if (s.core c).slot.isSome then s1 else (s1.fetchAt c ((p + 4) % 2 ^ 32)).fetchAt c ((p + 8) % 2 ^ 32)
  let x := s2.core c
  s2.setCore c { x with ahead := x.ahead.filter fun e => decide (p ≤ e.1) && decide (e.1 ≤ aheadEnd p) }

/-- The word at PC as it was read, with the error code of its fetch. The Allemande's fetch from the secure service region fails while
ST.SEC is zero. -/
def State.wordAt (s : State) (c : Nat) : Nat × Word :=
  let x := s.core c
  if c = 2 ∧ secureRom x.pc = true ∧ x.sec = false then (1, 0) else
  match x.ahead.find? fun e => decide (e.1 = x.pc) with
  | some e => e.2
  | none => (1, 0)

/-! Retirement (R315, R316, R340, R450). -/

/-- Where a core goes on after an instruction: `skip` passes over the next one, `br` branches after the delay slot. -/
def CoreSt.next (x : CoreSt) (skip : Bool) (br : Option Nat) : CoreSt :=
  match x.slot, br with
  | some (_, t), _ => { x with pc := t, slot := none, ahead := x.ahead.filter fun e => decide (e.1 ≠ x.pc) && decide (e.1 ≠ x.pc + 4) }
  | none, some t =>
    { x with pc := (x.pc + 4) % 2 ^ 32, slot := some (x.pc, t / 4 * 4 % 2 ^ 32), ahead := x.ahead.filter fun e => decide (e.1 ≠ x.pc) }
  | none, none =>
    { x with pc := (x.pc + (if skip then 8 else 4)) % 2 ^ 32,
             ahead := x.ahead.filter fun e => decide (e.1 ≠ x.pc) && !(skip && decide (e.1 = x.pc + 4)) }

/-- ST.SEC follows where the Allemande goes: set by a branch to the gate, cleared outside the service region. -/
def CoreSt.gate (x y : CoreSt) (c : Nat) : CoreSt :=
  if c ≠ 2 then y
  else if x.slot.isSome ∧ y.pc = 0x8000 then { y with st := putBit y.st 5 true }
  else if secureRom y.pc then y
  else { y with st := putBit y.st 5 false }

/-- A halt is due at the next boundary (Table 20.3). -/
def State.stopNext (c cause which : Nat) (s : State) : State :=
  let x := s.core c
  match x.stopDue with
  | some _ => s
  | none => (s.setCore c { x with stopDue := some (cause, which) }).setF (Reg.DBG_Cc_STAT c) 1 0 1

/-- The instruction of core `c` retires. -/
def State.retire (c : Nat) (skip : Bool) (br : Option Nat) (s : State) : State :=
  let x := s.core c
  let y := x.gate (x.next skip br) c
  let s1 := s.setCore c { y with passBreak := false, stepping := false }
  if x.stepping then s1.stopNext c 4 0 else s1

/-! Exceptions (R328 to R330). -/

/-- An exception: its offset, the PC stacked outside a delay slot, FPC, FADDR and FINFO, and whether it is a double fault of itself. -/
structure Exc where
  off : Nat
  npc : Nat
  fpc : Nat
  faddr : Nat
  info : Word
  double : Bool
deriving DecidableEq, Repr

/-- A core's double fault. -/
def State.doubleFault (c : Nat) (s : State) : State :=
  if c = 2 then s.managementReset 6 else
  let x := s.core c
  ((s.setCore c { x with run := .stopped }).arrive (74 + c)).logEvent 0x001 (wd c) 0 x.fpc x.finfo

/-- The frame of an entry lies in local SRAM, at a multiple of 8. -/
def CoreSt.frameOk (x : CoreSt) (c : Nat) : Bool :=
  let p := (x.r 14).toNat
  decide (p % 8 = 0) && decide (0x08000000 + 40 ≤ p) && decide (p ≤ 0x08000000 + localSize c)

/-- A word of local SRAM is written whole. -/
def State.putLocal (k : Nat) (w : Word) (s : State) : State := (s.setWord k w).eccWritten k

/-- ST, the restart PC and g0 to g7 are stacked in the frame at g14 − 40, and g14 reduced; a pending register's word is written when its
result arrives (R332). In a delay slot the restart PC is the branch's, and the stacked ST has DS set (R318). -/
def State.stackFrame (c npc : Nat) (s : State) : State :=
  let x := s.core c
  let base := (x.r 14).toNat - 40
  let k := localKey c (base - 0x08000000)
  let (pc, st) := match x.slot with
    | some (a, _) => (a, putBit x.st 3 true)
    | none => (npc, x.st)
  let s1 := (s.putLocal k st).putLocal (k + 4) (wd pc)
  let s2 := (List.range 8).foldl (fun t i => if x.waits i then t else t.putLocal (k + 8 + 4 * i) (x.r i)) s1
  s2.setCore c { x with g := x.g.set 14 (wd base), slot := none, ahead := [],
                        results := x.results.map fun r => if r.rd < 8 then { r with frames := r.frames ++ [k + 8 + 4 * r.rd] } else r }

/-- Exception entry; it waits while g14 is pending. -/
def State.enter (c : Nat) (e : Exc) (s : State) : State :=
  let x := s.core c
  if x.waits 14 then s
  else if x.exc || x.sec || e.double || !x.frameOk c then s.doubleFault c
  else
    let s1 := s.stackFrame c e.npc
    let y := s1.core c
    s1.setCore c { y with st := putBit (putBit y.st 4 true) 0 false, fpc := wd e.fpc, faddr := wd e.faddr, finfo := e.info,
                          pc := (y.evbase.toNat / 256 * 256 + e.off) % 2 ^ 32 }

/-! Halts (R470 to R473). -/

/-- The halt, or breakpoint, that is due at the boundary: its cause and number. -/
def State.haltDue (c : Nat) (s : State) : Option (Nat × Nat) :=
  let x := s.core c
  if x.sec || (x.exc && !s.bit (Reg.DBG_Cc_CTRL c) 2) then none
  else match x.stopDue with
    | some d => some d
    | none =>
      if x.passBreak || (decide (c = 2) && secureRom x.pc) then none else
      ((List.range 4).find? fun b => s.bit (Reg.DBG_Cc_BPb c b) 0 && decide (s.f (Reg.DBG_Cc_BPb c b) 31 2 = x.pc / 4)).map fun b => (2, b)

/-- DBG_Cc_STAT shows a halt. -/
def State.showHalt (c state cause which : Nat) (s : State) : State :=
  ((s.setF (Reg.DBG_Cc_STAT c) 1 0 state).setF (Reg.DBG_Cc_STAT c) 6 4 cause).setF (Reg.DBG_Cc_STAT c) 9 8 which

/-- The core's watchdog pauses at a halt if DPAUSE says so (R397). -/
def State.pauseWdg (c : Nat) (s : State) : State := if c < 2 ∧ s.bit (wdgCtrl c) 1 = true then s.setBit (wdgCtrl c) 2 true else s

/-- A halt: the DEBUG exception in monitor mode, a stopped clock in stop mode; `npc` is the PC of Table 20.3. -/
def State.haltAt (c cause which npc scode : Nat) (s : State) : State :=
  let x := s.core c
  if s.bit (Reg.DBG_Cc_CTRL c) 2 then
    let (pc, slot) := match x.slot with
      | some (a, t) => if cause = 2 then (a, none) else (npc, some (a, t))
      | none => (npc, none)
    State.showFrozen s
      (((s.setCore c { x with run := .halt, stopDue := none, pc := pc, slot := slot, ahead := [] }).showHalt c 3 cause which).pauseWdg c)
  else if x.waits 14 then s
  else if x.exc || !x.frameOk c then s.doubleFault c
  else
    let s1 := (s.setCore c { x with stopDue := none, monitor := true }).enter c ⟨0x60, npc, x.pc, 0, finfoWord 0 false 0 0 false scode, false⟩
    (s1.showHalt c 2 cause which).pauseWdg c

/-! What is due at a boundary, in the order of R329. -/

inductive Due where
  | exc (e : Exc)
  | halt (cause which : Nat)
deriving DecidableEq, Repr

/-- The exception of the instruction at PC, whose word is `w`: ILLSLOT, ILLEGAL, UOPUNDEF or ACCESS. An access is judged once the registers
it needs are not pending. -/
def State.wordDue (c : Nat) (w : Word) (s : State) : Option Exc :=
  let x := s.core c
  if x.slot.isSome && slotBan w then some ⟨0x10, x.pc, x.pc, 0, 0, false⟩
  else if !legal w then some ⟨0x00, x.pc, x.pc, 0, 0, false⟩
  else if iOp w = 0x3F ∧ mf (s.ucWord c 0 (0x3800 + 32 * fld w 13 8)) 31 28 = 0 then some ⟨0x70, x.pc, x.pc, 0, 0, false⟩
  else if (names w).any x.waits then none
  else (x.accessFault c w).map fun f => ⟨0x20, x.pc, x.pc, f.1, f.2, false⟩

/-- From FETCH on. -/
def State.dueWord (c : Nat) (s : State) : Option Due :=
  let x := s.core c
  if (s.wordAt c).1 ≠ 0 then some (.exc ⟨0x30, x.pc, x.pc, 0, 0, false⟩)
  else match s.haltDue c with
    | some (k, n) => some (.halt k n)
    | none => (s.wordDue c (s.wordAt c).2).map .exc

/-- The first of what is due. A deferred BUSERR stays pending while EXC is one (R330). -/
def State.due (c : Nat) (s : State) : Option Due :=
  let x := s.core c
  match (if x.exc then none else x.buserr), x.csue with
  | some f, _ => some (.exc ⟨0x40, x.pc, f.pc, f.addr, f.info, false⟩)
  | none, some d => some (.exc ⟨0x80, x.pc, x.pc, 0, 0, d⟩)
  | none, none => s.dueWord c

/-- What is due is taken. -/
def State.takeDue (c : Nat) (d : Due) (s : State) : State :=
  match d with
  | .halt k n => s.haltAt c k n (s.core c).pc 0
  | .exc e =>
    let x := s.core c
    let t := s.enter c e
    if x.waits 14 || decide ((t.core c).run ≠ .run) then t
    else if e.off = 0x40 then t.setCore c { t.core c with buserr := none }
    else if e.off = 0x80 then t.setCore c { t.core c with csue := none }
    else t

/-- The core stands at an instruction boundary and its clock runs: it neither waits for a locked access nor is quiesced for a swap (R345,
R353, R401). -/
def State.boundary (s : State) (c : Nat) : Bool :=
  let x := s.core c
  decide (x.run = .run) && x.atomic.isNone && !(decide (c < 2) && !s.gv.swap.isEmpty) && !s.pwr.held

/-- An instruction of core `c`, whose word is `w`, begins: it must be the one at PC. An exception due at the boundary is taken in its place;
while it names a pending register it waits; else `f` is its effect. -/
def State.issueRes (c : Nat) (w : Word) (f : State → Res) (s : State) : Res :=
  if !s.boundary c then .next s else
  let t := s.fetchAhead c
  if t.wordAt c ≠ (0, w) then .next s
  else match t.due c with
    | some d => .next (t.takeDue c d)
    | none => if (names w).any (t.core c).waits then .next s else f t

/-- As `issueRes`, for an effect that always goes on. -/
def State.issue (c : Nat) (w : Word) (f : State → State) (s : State) : Res := s.issueRes c w fun t => .next (f t)

/-- An instruction whose effect is on its core alone. -/
def State.alter (c : Nat) (g : CoreSt → CoreSt) (s : State) : State := (s.setCore c (g (s.core c))).retire c false none

/-! Results and responses (R322, R323). -/

/-- A result is to come into register `rd`. -/
def State.expect (c : Nat) (r : GvResult) (s : State) : State :=
  let x := s.core c
  s.setCore c { x with results := x.results ++ [r] }

/-- A result without an error, from the multiply, divide or coprocessor unit. -/
def unitResult (rd : Nat) (v : Word) : GvResult := { load := false, rd := rd, value := v, frames := [], code := 0, pc := 0, addr := 0, info := 0 }

/-- Watchpoints of core `c` see an access of `n` bytes at `a` (R473). -/
def State.watch (c a n : Nat) (write : Bool) (s : State) : State :=
  let x := s.core c
  if x.exc && !s.bit (Reg.DBG_Cc_CTRL c) 2 then s else
  let hit := fun (w : Nat) =>
    let m := 2 ^ s.f (Reg.DBG_Cc_WPw_CTRL c w) 7 3
    let lo := (s.reg (Reg.DBG_Cc_WPw_ADDR c w)).toNat / m * m
    s.bit (Reg.DBG_Cc_WPw_CTRL c w) 0 && s.bit (Reg.DBG_Cc_WPw_CTRL c w) (if write then 2 else 1) && decide (a < lo + m) && decide (lo < a + n)
  match (List.range 2).find? hit with
  | some w => s.stopNext c 3 w
  | none => s

/-- A posted store whose bytes are still to be written is made. -/
def State.makeStore (c : Nat) (r : GvStore) (s : State) : GvStore × State :=
  if r.todo.isEmpty then (r, s) else
  let (e, ea, t) := s.coreWrite c r.addr r.todo
  ({ r with code := e, addr := ea, info := finfoWord e true (sizeCode r.todo.length) 0 false 0, todo := [] }, t)

def State.makeAll (c : Nat) : List GvStore → State → List GvStore × State
  | [], s => ([], s)
  | r :: rs, s =>
    let (r1, s1) := s.makeStore c r
    let (rs1, s2) := State.makeAll c rs s1
    (r1 :: rs1, s2)

/-- Every posted store of the core is made: a load is made after the earlier stores of its core (R324). -/
def State.flushStores (c : Nat) (s : State) : State :=
  let (l, t) := s.makeAll c (s.core c).stores
  t.setCore c { t.core c with stores := l }

/-- A load of `n` bytes at `a` into `rd`: made at its commit, its result to come (R322 to R324). -/
def State.loadTo (c rd a n : Nat) (signed : Bool) (s0 : State) : State :=
  let s := if memOf c a = 3 then s0.flushStores c else s0
  let p := (s.core c).pc
  let (e, ea, bs, t) := s.coreRead c a n
  let v := if signed then BitVec.signExtend 32 (BitVec.ofNat (8 * n) (leNat bs)) else leWord bs
  (t.expect c { load := true, rd := rd, value := if e = 0 then v else 0, frames := [], code := e, pc := p, addr := ea,
                info := finfoWord e false (sizeCode n) 0 false 0 }).watch c a n false

/-- A store of bytes at `a`: into local SRAM it is made at its commit and done; into main SRAM it is made at its commit, elsewhere with its response
or before a later load, and its response is to come (R322, R324). -/
def State.storeFrom (c a : Nat) (bs : List Byte) (s : State) : State :=
  let p := (s.core c).pc
  let u :=
    if memOf c a = 1 then
      let (e, ea, t) := s.coreWrite c a bs
      if e = 0 then t else t.deferBuserr c ⟨p, ea, finfoWord e true (sizeCode bs.length) 0 false 0⟩
    else
      let r : GvStore := { code := 0, pc := p, addr := a, info := 0, todo := bs }
      let (r1, t) := if memOf c a = 2 then s.makeStore c r else (r, s)
      let x := t.core c
      t.setCore c { x with stores := x.stores ++ [r1] }
  u.watch c a bs.length true

/-- A store at `a` must wait: four stores are outstanding (R324, R346). -/
def State.storeWaits (s : State) (c a : Nat) : Bool := decide (memOf c a ≠ 1) && decide (4 ≤ (s.core c).stores.length)

/-- `LOAD_RESULT`: the result for register `rd` of core `c` is written, and the frame words that wait for it. -/
def execLoadResult (c : Fin 3) (rd : Fin 16) (s : State) : Res :=
  let x := s.core c.val
  match x.results.find? fun r => decide (r.rd = rd.val) with
  | none => .next s
  | some r =>
    let s1 := s.setCore c.val { x with g := x.g.set r.rd r.value, results := x.results.erase r }
    let s2 := r.frames.foldl (fun t k => t.putLocal k r.value) s1
    .next (if r.code = 0 then s2 else s2.deferBuserr c.val ⟨r.pc, r.addr, r.info⟩)

/-- `STORE_RESPONSE`: the response of the oldest posted store of core `c` arrives. -/
def execStoreResponse (c : Fin 3) (s : State) : Res :=
  match (s.core c.val).stores with
  | [] => .next s
  | r :: rest =>
    let (r1, t) := s.makeStore c.val r
    let s1 := t.setCore c.val { t.core c.val with stores := rest }
    .next (if r1.code = 0 then s1 else s1.deferBuserr c.val ⟨r1.pc, r1.addr, r1.info⟩)

/-! Accesses without an answer (R90). -/

/-- FINFO of an access with its error code replaced (Table 12.8). -/
def withCode (info : Word) (code : Nat) : Word := setFld info 2 0 code

/-- The load or posted store of core `c` at `addr` whose answer has not come gets TIMEOUT: a load's result is zero, a store is not made (R90, R322).
Answers whether there is one. -/
def State.coreTimeout (c addr : Nat) (write : Bool) (s : State) : Bool × State :=
  let x := s.core c
  if write then
    match x.stores.find? fun r => decide (r.addr = addr) && !r.todo.isEmpty with
    | some r =>
      let r1 := { r with code := 2, info := finfoWord 2 true (sizeCode r.todo.length) 0 false 0, todo := [] }
      (true, s.setCore c { x with stores := x.stores.replace r r1 })
    | none => (false, s)
  else
    match x.results.find? fun r => r.load && decide (r.addr = addr) && decide (r.code = 0) with
    | some r =>
      let r1 := { r with code := 2, value := 0, info := withCode r.info 2 }
      (true, s.setCore c { x with results := x.results.replace r r1 })
    | none => (false, s)

/-- `ACCESS_TIMEOUT`: TIMEOUT to the master whose access has had no answer for 256 FCLK; a later answer is discarded. Main SRAM always answers in time,
and no access to secure SRAM times out because of a wipe (R90). -/
def execAccessTimeout (m : Acc) (addr : Nat) (write : Bool) (s : State) : Res :=
  if inSram addr ∨ (s.fab.wiping ∧ 0x30000000 ≤ addr ∧ addr < 0x30040000) then .next s
  else
    let t :=
      if m.core && !m.host then (s.coreTimeout (if m.port = 10 then 0 else if m.port = 11 then 1 else 2) addr write).2
      else if m.port = 7 ∨ m.port = 8 then s.reelTimeout m.port addr write
      else if m.port = 13 ∧ write = false then s.engTimeout addr
      else s
    .next (t.replyErr m.port addr 2 write)

/-! Atomics (R327, R345). -/

/-- What an atomic writes, if it writes: SWAP, CAS, FADD, FOR, FANDN. -/
def atomicNew (op : Nat) (m rb cmp : Word) : Option Word :=
  match op with
  | 0 => some rb
  | 1 => if m = cmp then some rb else none
  | 2 => some (m + rb)
  | 3 => some (m ||| rb)
  | _ => some (m &&& ~~~rb)

/-- The read, the change and the write of the word at `a` in one act: an error code and whether the write received it, the old word, and
the state after it. -/
def State.lockedAccess (c op a : Nat) (rb cmp : Word) (s : State) : (Nat × Bool) × Word × State :=
  match s.pieceRead c a 4 with
  | (0, bs, t) =>
    let m := leWord bs
    match atomicNew op m rb cmp with
    | none => ((0, false), m, t)
    | some v =>
      let (e, u) := t.pieceWrite c a (leBytes 4 v.toNat)
      ((e, true), m, u)
  | (e, _, t) => ((e, false), 0, t)

/-- What the commit word of a routine does beside its access. -/
def State.finish (c : Nat) (f : GvFinish) (s : State) : State :=
  let x := s.core c
  let y1 := match f.d2 with
    | some (d, v) => x.put d v
    | none => x
  let y2 := match f.st with
    | some v => { y1 with st := (y1.st &&& ~~~stRw) ||| (v &&& stRw) }
    | none => y1
  let s1 := s.setCore c y2
  match f.pc with
  | some (t, true) => s1.retire c false (some t)
  | some (t, false) =>
    let s2 := s1.retire c f.skip none
    s2.setCore c { s2.core c with pc := t / 4 * 4, slot := none, ahead := [] }
  | none => s1.retire c f.skip none

/-- The instruction is an ordinary one: nothing beside. -/
def plain : GvFinish := { d2 := none, pc := none, st := none, skip := false }

/-- The locked access is made and the instruction retires, or BUSERR is raised at it. -/
def State.atomicDone (c : Nat) (q : GvAtomic) (s : State) : State :=
  let p := (s.core c).pc
  let ((e, w), m, t) := s.lockedAccess c q.op q.addr q.rb q.cmp
  if e = 0 then
    let x := t.core c
    let y := match q.rd with
      | some d => x.put d m
      | none => x
    let t1 := (t.setCore c { y with atomic := none }).finish c q.fin
    (t1.watch c q.addr 4 false).watch c q.addr 4 true
  else if (s.core c).waits 14 then s
  else
    (t.setCore c { t.core c with atomic := none }).enter c ⟨0x40, p, p, q.addr, finfoWord e w 3 0 true 0, false⟩

/-- An atomic reaches its commit: in local SRAM it is made at once, in main SRAM it waits for its grant. -/
def State.startAtomic (c : Nat) (q : GvAtomic) (s : State) : State :=
  if memOf c q.addr = 1 then s.atomicDone c q
  else s.setCore c { s.core c with atomic := some q }

/-- `ATOMIC_RESPONSE`: the bank has granted the locked access of core `c`, and its response arrives. -/
def execAtomicResponse (c : Fin 3) (s : State) : Res :=
  match (s.core c.val).atomic with
  | none => .next s
  | some q => .next (s.atomicDone c.val q)

/-- `LOCKED_ACCESS_WITHDRAW`: the access that still waits is withdrawn, and its routine abandoned with nothing made. -/
def execLockedAccessWithdraw (c : Fin 3) (s : State) : Res :=
  let x := s.core c.val
  .next (s.setCore c.val { x with atomic := none })

/-! Entries. -/

/-- `EXCEPTION_ENTRY`: the first exception of R329 that is due at the boundary of core `c` is taken. -/
def execExceptionEntry (c : Fin 3) (s : State) : Res :=
  if !s.boundary c.val then .next s else
  let t := s.fetchAhead c.val
  match t.due c.val with
  | some d => .next (t.takeDue c.val d)
  | none => .next s

/-- `HALT`: a halt that is due is taken; a core in WAIT takes it as it would an interrupt. -/
def execHalt (c : Fin 3) (s : State) : Res :=
  let x := s.core c.val
  let s1 := if x.run = .wait ∧ (s.haltDue c.val).isSome = true then s.setCore c.val { x with run := .run } else s
  if !s1.boundary c.val then .next s else
  let t := s1.fetchAhead c.val
  match t.due c.val with
  | some (.halt k n) => .next (t.haltAt c.val k n x.pc 0)
  | _ => .next s

/-- Interrupt entry at `vec` with level `lvl` (R332). -/
def State.interrupt (c vec lvl : Nat) (s : State) : State :=
  let x := s.core c
  if !x.frameOk c then s.doubleFault c else
  let s1 := s.stackFrame c x.pc
  let y := s1.core c
  s1.setCore c { y with run := .run, st := setFld y.st 11 8 lvl, pc := vec / 4 * 4 % 2 ^ 32 }

/-- `INTERRUPT_ENTRY`: core `c` takes the request that its controller presents; `gone` is the level of a request that is no longer there at
the acknowledgement (R331, R332, R334, R384). A core in WAIT wakes; with IE zero, or with an exception due, it goes on after its WAIT (R329). -/
def execInterruptEntry (c : Fin 3) (gone : Option (Fin 16)) (s : State) : Res :=
  let k := c.val
  let x := s.core k
  let lvl := match gone, s.presented k with
    | none, some n => some (s.priOf n)
    | some l, none => some l.val
    | _, _ => none
  match lvl with
  | none => .next s
  | some l =>
    if l ≤ x.lvl ∨ x.sec = true ∨ (k < 2 ∧ s.gv.swap ≠ []) ∨ s.pwr.held = true then .next s
    else if x.run = .wait ∧ bitAt x.st 0 = false then .next (s.setCore k { x with run := .run })
    else if bitAt x.st 0 = false ∨ x.waits 14 = true ∨ x.atomic.isSome = true then .next s
    else
      let awake := if x.run = .wait then s.setCore k { x with run := .run } else s
      if (s.core k).run ≠ .run ∧ (s.core k).run ≠ .wait then .next s
      else if ((awake.fetchAhead k).due k).isSome then .next awake
      else
        let (vec, got, t) := awake.takeVector k l
        .next (t.interrupt k vec got)

end Sys2Proof.Machine
end

