-- ==== Sys2Proof/Machine/Flags.lean ====
section
/-! DEFINITION. The conditions of the skips, and the micro flags that an ALU word computes (R314, R339). -/

namespace Sys2Proof.Machine

/-- The conditions of CSK and CSKI. -/
def holds (cc : Nat) (a b : Word) : Bool :=
  match cc with
  | 0 => decide (a = b)
  | 1 => decide (a ≠ b)
  | 2 => decide (a.toInt < b.toInt)
  | 3 => decide (b.toInt ≤ a.toInt)
  | 4 => decide (a.toNat < b.toNat)
  | 5 => decide (b.toNat ≤ a.toNat)
  | 6 => decide (b.toInt < a.toInt)
  | 7 => decide (a.toInt ≤ b.toInt)
  | 8 => decide (b.toNat < a.toNat)
  | 9 => decide (a.toNat ≤ b.toNat)
  | _ => false

/-- Leading zeros. -/
def clz (a : Word) : Nat := ((List.range 32).find? fun i => bitAt a (31 - i)).getD 32

/-- An ALU function: its result and the carry (R339). -/
def alu (fn : Nat) (a b : Word) : Word × Bool :=
  match fn with
  | 0 => (a + b, decide (2 ^ 32 ≤ a.toNat + b.toNat))
  | 1 => (a - b, decide (b.toNat ≤ a.toNat))
  | 2 => (a &&& b, false)
  | 3 => (a ||| b, false)
  | 4 => (a ^^^ b, false)
  | 5 => (a <<< fld b 4 0, false)
  | 6 => (a >>> fld b 4 0, false)
  | 7 => (a.sshiftRight (fld b 4 0), false)
  | 8 => (if a.toInt ≤ b.toInt then a else b, false)
  | 9 => (if a.toInt ≤ b.toInt then b else a, false)
  | 10 => (if a.toNat ≤ b.toNat then a else b, false)
  | 11 => (if a.toNat ≤ b.toNat then b else a, false)
  | _ => (wd (clz a), false)

/-- Z and N of a result. -/
def zeroFlag (v : Word) : Bool := decide (v = 0)
def negFlag (v : Word) : Bool := bitAt v 31

end Sys2Proof.Machine
end

