-- ==== Sys2Proof/Machine/GvRows.lean ====
section
/-! DEFINITION. The instructions of the cores, family by family as Table 12.5 lists them (R311, R314 to R321, R325 to R328, R333, R334). -/

namespace Sys2Proof.Machine

/-! Arithmetic on registers. -/

/-- RD := RA op RB. -/
def State.op3 (c : Fin 3) (o : Nat) (rd ra rb : Fin 16) (g : Word → Word → Word) (s : State) : Res :=
  s.issue c.val (encR o rd.val ra.val rb.val) fun t => t.alter c.val fun x => x.put rd.val (g (x.r ra.val) (x.r rb.val))

/-- `ADD`. -/
def execGvAdd (c : Fin 3) (rd ra rb : Fin 16) (s : State) : Res := s.op3 c 0x00 rd ra rb fun a b => a + b

/-- `SUB`. -/
def execGvSub (c : Fin 3) (rd ra rb : Fin 16) (s : State) : Res := s.op3 c 0x01 rd ra rb fun a b => a - b

/-- `AND`. -/
def execGvAnd (c : Fin 3) (rd ra rb : Fin 16) (s : State) : Res := s.op3 c 0x02 rd ra rb fun a b => a &&& b

/-- `OR`. -/
def execGvOr (c : Fin 3) (rd ra rb : Fin 16) (s : State) : Res := s.op3 c 0x03 rd ra rb fun a b => a ||| b

/-- `XOR`. -/
def execGvXor (c : Fin 3) (rd ra rb : Fin 16) (s : State) : Res := s.op3 c 0x04 rd ra rb fun a b => a ^^^ b

/-- `SHL`. -/
def execGvShl (c : Fin 3) (rd ra rb : Fin 16) (s : State) : Res := s.op3 c 0x05 rd ra rb fun a b => a <<< fld b 4 0

/-- `SHR`. -/
def execGvShr (c : Fin 3) (rd ra rb : Fin 16) (s : State) : Res := s.op3 c 0x06 rd ra rb fun a b => a >>> fld b 4 0

/-- `ASR`. -/
def execGvAsr (c : Fin 3) (rd ra rb : Fin 16) (s : State) : Res := s.op3 c 0x07 rd ra rb fun a b => a.sshiftRight (fld b 4 0)

/-! Multiplication and division: the result comes later (R323). -/

/-- RD := RA op RB through a unit; `dz` says that a zero divisor sets ST.DZ. -/
def State.unit3 (c : Fin 3) (o : Nat) (rd ra rb : Fin 16) (dz : Bool) (g : Word → Word → Word) (s : State) : Res :=
  s.issue c.val (encR o rd.val ra.val rb.val) fun t =>
    let x := t.core c.val
    let b := x.r rb.val
    let y := if dz && decide (b = 0) then { x with st := putBit x.st 1 true } else x
    ((t.setCore c.val y).expect c.val (unitResult rd.val (g (x.r ra.val) b))).retire c.val false none

/-- `MUL`. -/
def execGvMul (c : Fin 3) (rd ra rb : Fin 16) (s : State) : Res := s.unit3 c 0x08 rd ra rb false fun a b => a * b

/-- `MULHS`. -/
def execGvMulhs (c : Fin 3) (rd ra rb : Fin 16) (s : State) : Res :=
  s.unit3 c 0x09 rd ra rb false fun a b => BitVec.ofInt 32 (a.toInt * b.toInt / 2 ^ 32)

/-- `MULHU`. -/
def execGvMulhu (c : Fin 3) (rd ra rb : Fin 16) (s : State) : Res :=
  s.unit3 c 0x0A rd ra rb false fun a b => wd (a.toNat * b.toNat / 2 ^ 32)

/-- `DIVS`. -/
def execGvDivs (c : Fin 3) (rd ra rb : Fin 16) (s : State) : Res :=
  s.unit3 c 0x0B rd ra rb true fun a b => if b = 0 then 0xFFFFFFFF else BitVec.ofInt 32 (a.toInt.tdiv b.toInt)

/-- `DIVU`. -/
def execGvDivu (c : Fin 3) (rd ra rb : Fin 16) (s : State) : Res :=
  s.unit3 c 0x0C rd ra rb true fun a b => if b = 0 then 0xFFFFFFFF else wd (a.toNat / b.toNat)

/-- `REMS`. -/
def execGvRems (c : Fin 3) (rd ra rb : Fin 16) (s : State) : Res :=
  s.unit3 c 0x0D rd ra rb true fun a b => if b = 0 then a else BitVec.ofInt 32 (a.toInt.tmod b.toInt)

/-- `REMU`. -/
def execGvRemu (c : Fin 3) (rd ra rb : Fin 16) (s : State) : Res :=
  s.unit3 c 0x0E rd ra rb true fun a b => if b = 0 then a else wd (a.toNat % b.toNat)

/-! Immediates. -/

/-- RD := RA op IMM. -/
def State.opImm (c : Fin 3) (o : Nat) (rd ra : Fin 16) (imm : BitVec 18) (g : Word → Word) (s : State) : Res :=
  s.issue c.val (encI o rd.val ra.val imm) fun t => t.alter c.val fun x => x.put rd.val (g (x.r ra.val))

/-- `ADDI`. -/
def execGvAddi (c : Fin 3) (rd ra : Fin 16) (imm : BitVec 18) (s : State) : Res := s.opImm c 0x10 rd ra imm fun a => a + imm.signExtend 32

/-- `ANDI`. -/
def execGvAndi (c : Fin 3) (rd ra : Fin 16) (imm : BitVec 18) (s : State) : Res := s.opImm c 0x11 rd ra imm fun a => a &&& imm.setWidth 32

/-- `ORI`. -/
def execGvOri (c : Fin 3) (rd ra : Fin 16) (imm : BitVec 18) (s : State) : Res := s.opImm c 0x12 rd ra imm fun a => a ||| imm.setWidth 32

/-- `XORI`. -/
def execGvXori (c : Fin 3) (rd ra : Fin 16) (imm : BitVec 18) (s : State) : Res := s.opImm c 0x13 rd ra imm fun a => a ^^^ imm.setWidth 32

/-- `SHLI`. -/
def execGvShli (c : Fin 3) (rd ra : Fin 16) (imm : BitVec 5) (s : State) : Res :=
  s.opImm c 0x14 rd ra (imm.setWidth 18) fun a => a <<< imm.toNat

/-- `SHRI`. -/
def execGvShri (c : Fin 3) (rd ra : Fin 16) (imm : BitVec 5) (s : State) : Res :=
  s.opImm c 0x15 rd ra (imm.setWidth 18) fun a => a >>> imm.toNat

/-- `ASRI`. -/
def execGvAsri (c : Fin 3) (rd ra : Fin 16) (imm : BitVec 5) (s : State) : Res :=
  s.opImm c 0x16 rd ra (imm.setWidth 18) fun a => a.sshiftRight imm.toNat

/-- `MOVI`. -/
def execGvMovi (c : Fin 3) (rd : Fin 16) (imm : BitVec 18) (s : State) : Res := s.opImm c 0x17 rd 0 imm fun _ => imm.signExtend 32

/-- `LUI`. -/
def execGvLui (c : Fin 3) (rd : Fin 16) (imm : BitVec 16) (s : State) : Res :=
  s.opImm c 0x18 rd 0 (imm.setWidth 18) fun _ => wd (imm.toNat * 65536)

/-! Loads and stores (R321 to R324). -/

/-- The address of a load or store. -/
def CoreSt.ea (x : CoreSt) (ra : Fin 16) (imm : BitVec 18) : Nat := (x.r ra.val + imm.signExtend 32).toNat

/-- RD := memory at RA + sext(IMM). -/
def State.ld (c : Fin 3) (o n : Nat) (signed : Bool) (rd ra : Fin 16) (imm : BitVec 18) (s : State) : Res :=
  s.issue c.val (encI o rd.val ra.val imm) fun t =>
    (t.loadTo c.val rd.val ((t.core c.val).ea ra imm) n signed).retire c.val false none

/-- `LDW`. -/
def execGvLdw (c : Fin 3) (rd ra : Fin 16) (imm : BitVec 18) (s : State) : Res := s.ld c 0x20 4 false rd ra imm

/-- `LDH`. -/
def execGvLdh (c : Fin 3) (rd ra : Fin 16) (imm : BitVec 18) (s : State) : Res := s.ld c 0x21 2 true rd ra imm

/-- `LDHU`. -/
def execGvLdhu (c : Fin 3) (rd ra : Fin 16) (imm : BitVec 18) (s : State) : Res := s.ld c 0x22 2 false rd ra imm

/-- `LDB`. -/
def execGvLdb (c : Fin 3) (rd ra : Fin 16) (imm : BitVec 18) (s : State) : Res := s.ld c 0x23 1 true rd ra imm

/-- `LDBU`. -/
def execGvLdbu (c : Fin 3) (rd ra : Fin 16) (imm : BitVec 18) (s : State) : Res := s.ld c 0x24 1 false rd ra imm

/-- Memory at RA + sext(IMM) := the low bytes of RD. A fifth outstanding store stalls at its commit (R324). -/
def State.st (c : Fin 3) (o n : Nat) (rd ra : Fin 16) (imm : BitVec 18) (s : State) : Res :=
  s.issue c.val (encI o rd.val ra.val imm) fun t =>
    let x := t.core c.val
    let a := x.ea ra imm
    if t.storeWaits c.val a then t else (t.storeFrom c.val a (leBytes n (x.r rd.val).toNat)).retire c.val false none

/-- `STW`. -/
def execGvStw (c : Fin 3) (rd ra : Fin 16) (imm : BitVec 18) (s : State) : Res := s.st c 0x25 4 rd ra imm

/-- `STH`. -/
def execGvSth (c : Fin 3) (rd ra : Fin 16) (imm : BitVec 18) (s : State) : Res := s.st c 0x26 2 rd ra imm

/-- `STB`. -/
def execGvStb (c : Fin 3) (rd ra : Fin 16) (imm : BitVec 18) (s : State) : Res := s.st c 0x27 1 rd ra imm

/-! Atomics (R327). -/

/-- The atomic of operation `op` on the word at RA. -/
def State.at3 (c : Fin 3) (op : Nat) (rd ra rb : Fin 16) (s : State) : Res :=
  s.issue c.val (encR (0x28 + op) rd.val ra.val rb.val) fun t =>
    let x := t.core c.val
    t.startAtomic c.val { op := op, rd := some rd.val, addr := (x.r ra.val).toNat, rb := x.r rb.val, cmp := x.r rd.val, fin := plain }

/-- `SWAP_ATOMIC`. -/
def execGvSwapAtomic (c : Fin 3) (rd ra rb : Fin 16) (s : State) : Res := s.at3 c 0 rd ra rb

/-- `CAS`. -/
def execGvCas (c : Fin 3) (rd ra rb : Fin 16) (s : State) : Res := s.at3 c 1 rd ra rb

/-- `FADD`. -/
def execGvFadd (c : Fin 3) (rd ra rb : Fin 16) (s : State) : Res := s.at3 c 2 rd ra rb

/-- `FOR`. -/
def execGvFor (c : Fin 3) (rd ra rb : Fin 16) (s : State) : Res := s.at3 c 3 rd ra rb

/-- `FANDN`. -/
def execGvFandn (c : Fin 3) (rd ra rb : Fin 16) (s : State) : Res := s.at3 c 4 rd ra rb

/-! Branches and skips (R315, R316, R318). -/

/-- A + 4 × sext(OFF). -/
def branchTo (a : Nat) (off : BitVec 26) : Nat := (wd a + off.signExtend 32 * 4).toNat

/-- g15 := A + 8. -/
def CoreSt.link (x : CoreSt) : CoreSt := x.put 15 (wd (x.pc + 8))

/-- `BR`. -/
def execGvBr (c : Fin 3) (off : BitVec 26) (s : State) : Res :=
  s.issue c.val (encJ 0x30 off) fun t => t.retire c.val false (some (branchTo (t.core c.val).pc off))

/-- `CALL`. -/
def execGvCall (c : Fin 3) (off : BitVec 26) (s : State) : Res :=
  s.issue c.val (encJ 0x31 off) fun t =>
    let x := t.core c.val
    (t.setCore c.val x.link).retire c.val false (some (branchTo x.pc off))

/-- `JR`. -/
def execGvJr (c : Fin 3) (ra : Fin 16) (s : State) : Res :=
  s.issue c.val (encR 0x32 0 ra.val 0) fun t => t.retire c.val false (some ((t.core c.val).r ra.val).toNat)

/-- `CALLR`. -/
def execGvCallr (c : Fin 3) (ra : Fin 16) (s : State) : Res :=
  s.issue c.val (encR 0x33 0 ra.val 0) fun t =>
    let x := t.core c.val
    (t.setCore c.val x.link).retire c.val false (some (x.r ra.val).toNat)

/-- `RET`. -/
def execGvRet (c : Fin 3) (s : State) : Res :=
  s.issue c.val (encR 0x34 0 0 0) fun t => t.retire c.val false (some ((t.core c.val).r 15).toNat)

/-- `CSK`. -/
def execGvCsk (c : Fin 3) (cc ra rb : Fin 16) (s : State) : Res :=
  s.issue c.val (encR 0x36 cc.val ra.val rb.val) fun t =>
    let x := t.core c.val
    t.retire c.val (holds cc.val (x.r ra.val) (x.r rb.val)) none

/-- `CSKI`. -/
def execGvCski (c : Fin 3) (cc ra : Fin 16) (imm : BitVec 18) (s : State) : Res :=
  s.issue c.val (encI 0x37 cc.val ra.val imm) fun t =>
    t.retire c.val (holds cc.val ((t.core c.val).r ra.val) (imm.signExtend 32)) none

/-- `TBSK`. -/
def execGvTbsk (c : Fin 3) (ra : Fin 16) (bit : Fin 32) (set : Bool) (s : State) : Res :=
  s.issue c.val (encI 0x38 (b2n set) ra.val (BitVec.ofNat 18 bit.val)) fun t =>
    t.retire c.val (bitAt ((t.core c.val).r ra.val) bit.val == set) none

/-! Bit fields and bytes (R319, R320). -/

/-- Form B: S, POS and WM1. -/
def formB (signed : Bool) (pos wm1 : Fin 32) : BitVec 18 := BitVec.ofNat 18 (1024 * b2n signed + 32 * pos.val + wm1.val)

/-- The field of `w` bits at `p`, zero- or sign-extended. -/
def extractField (a : Word) (p w : Nat) (signed : Bool) : Word :=
  let v := fld a (p + w - 1) p
  if signed && decide (2 ^ (w - 1) ≤ v) then wd (v + 2 ^ 32 - 2 ^ w) else wd v

/-- `BFX`. -/
def execGvBfx (c : Fin 3) (rd ra : Fin 16) (pos wm1 : Fin 32) (signed : Bool) (s : State) : Res :=
  s.opImm c 0x39 rd ra (formB signed pos wm1) fun a => extractField a pos.val (wm1.val + 1) signed

/-- `BFI`. -/
def execGvBfi (c : Fin 3) (rd ra : Fin 16) (pos wm1 : Fin 32) (s : State) : Res :=
  s.issue c.val (encI 0x3A rd.val ra.val (formB false pos wm1)) fun t => t.alter c.val fun x =>
    x.put rd.val (setFld (x.r rd.val) (pos.val + wm1.val) pos.val (fld (x.r ra.val) wm1.val 0))

/-- `CLZ`. -/
def execGvClz (c : Fin 3) (rd ra : Fin 16) (s : State) : Res := s.opImm c 0x3B rd ra 0 fun a => wd (clz a)

/-- The byte that a nibble of SEL names: of RA, of the old RD, or a constant. -/
def permByte (n : Nat) (a d : Word) : Nat :=
  if n < 4 then fld a (8 * n + 7) (8 * n) else if n < 8 then fld d (8 * (n - 4) + 7) (8 * (n - 4)) else if n = 9 then 0xFF else 0

/-- `PERM`. -/
def execGvPerm (c : Fin 3) (rd ra : Fin 16) (sel : BitVec 16) (s : State) : Res :=
  s.issue c.val (encI 0x3C rd.val ra.val (sel.setWidth 18)) fun t => t.alter c.val fun x =>
    x.put rd.val (wd (((List.range 4).map fun k =>
      permByte (sel.toNat / 16 ^ k % 16) (x.r ra.val) (x.r rd.val) * 256 ^ k).sum))

/-! The coprocessor (R320). -/

/-- floor(sqrt(a)), bit by bit from the top. -/
def floorSqrt (a : Nat) : Nat :=
  (List.range 16).foldl (fun r i => if (r + 2 ^ (15 - i)) ^ 2 ≤ a then r + 2 ^ (15 - i) else r) 0

/-- RD := a coprocessor operation of RA and RB. -/
def State.cop (c : Fin 3) (fn : Nat) (rd ra rb : Fin 16) (g : Word → Word → Word) (s : State) : Res :=
  s.issue c.val (encR 0x3E rd.val ra.val rb.val ||| wd fn) fun t =>
    let x := t.core c.val
    (t.expect c.val (unitResult rd.val (g (x.r ra.val) (x.r rb.val)))).retire c.val false none

/-- `ISQRT`. -/
def execGvIsqrt (c : Fin 3) (rd ra : Fin 16) (s : State) : Res := s.cop c 0 rd ra 0 fun a _ => wd (floorSqrt a.toNat)

/-- `CRCW`. -/
def execGvCrcw (c : Fin 3) (rd ra rb : Fin 16) (s : State) : Res :=
  s.cop c 1 rd ra rb fun a b => wd (crc32Run a.toNat (leBytes 4 b.toNat))

/-- `CRCB`. -/
def execGvCrcb (c : Fin 3) (rd ra rb : Fin 16) (s : State) : Res := s.cop c 2 rd ra rb fun a b => wd (crc32Run a.toNat (leBytes 1 b.toNat))

/-! The system group (R311, R325, R326, R328, R334). -/

/-- The system register `n` of core `c` (Table 12.2). -/
def State.sysReg (s : State) (c n : Nat) : Word :=
  let x := s.core c
  match n with
  | 0 => x.st
  | 1 => wd c
  | 2 => wd x.cyc
  | 3 => x.cychi
  | 4 => x.evbase
  | 5 => x.fpc
  | 6 => x.faddr
  | 7 => x.finfo
  | 8 => x.dtx
  | 9 => x.drx
  | _ => 0

/-- `MFS`: a read of CYCLO copies the upper half, and one of DRX clears RXFULL. -/
def execGvMfs (c : Fin 3) (rd : Fin 16) (sreg : Fin 256) (s : State) : Res :=
  s.issue c.val (encY 0 rd.val 0 sreg.val) fun t =>
    let v := t.sysReg c.val sreg.val
    let t1 := if sreg.val = 9 then t.setBit (Reg.DBG_Cc_VT c.val) 1 false else t
    t1.alter c.val fun x => { x.put rd.val v with cychi := if sreg.val = 2 then wd (x.cyc / 2 ^ 32) else x.cychi }

/-- `MTS`: ST, EVBASE or DTX. -/
def execGvMts (c : Fin 3) (sreg : Fin 256) (ra : Fin 16) (s : State) : Res :=
  s.issue c.val (encY 1 0 ra.val sreg.val) fun t =>
    let v := (t.core c.val).r ra.val
    if sreg.val = 8 then (t.dtxSend c.val v).retire c.val false none
    else t.alter c.val fun x =>
      if sreg.val = 0 then { x with st := (x.st &&& ~~~stRw) ||| (v &&& stRw) } else { x with evbase := v &&& 0xFFFFFF00 }

/-- `FENCE`: it waits for every earlier load and store. -/
def execGvFence (c : Fin 3) (s : State) : Res :=
  s.issue c.val (encY 2 0 0 0) fun t =>
    let x := t.core c.val
    if x.stores.isEmpty && !x.results.any (fun r => r.load) then t.retire c.val false none else t

/-- `IFENCE`. -/
def execGvIfence (c : Fin 3) (s : State) : Res :=
  s.issue c.val (encY 3 0 0 0) fun t =>
    let u := t.retire c.val false none
    u.setCore c.val { u.core c.val with ahead := [] }

/-- `WAIT`. -/
def execGvWait (c : Fin 3) (s : State) : Res :=
  s.issue c.val (encY 4 0 0 0) fun t =>
    let u := t.retire c.val false none
    u.setCore c.val { u.core c.val with run := .wait }

/-- `DI`. -/
def execGvDi (c : Fin 3) (rd : Fin 16) (s : State) : Res :=
  s.issue c.val (encY 5 rd.val 0 0) fun t => t.alter c.val fun x => { x.put rd.val x.st with st := putBit x.st 0 false }

/-- `EI`. -/
def execGvEi (c : Fin 3) (s : State) : Res :=
  s.issue c.val (encY 6 0 0 0) fun t => t.alter c.val fun x => { x with st := putBit x.st 0 true }

/-- `SYSC`. -/
def execGvSysc (c : Fin 3) (code : BitVec 14) (s : State) : Res :=
  s.issue c.val (encY 7 0 0 code.toNat) fun t =>
    let p := (t.core c.val).pc
    t.enter c.val ⟨0x50, (p + 4) % 2 ^ 32, p, 0, finfoWord 0 false 0 0 false code.toNat, false⟩

/-- `BRK`: a halt, or the exception DEBUG. In the secure state no halt is taken, and the exception is a double fault (R450, R470). -/
def execGvBrk (c : Fin 3) (code : BitVec 14) (s : State) : Res :=
  s.issue c.val (encY 8 0 0 code.toNat) fun t =>
    let x := t.core c.val
    if x.sec then t.doubleFault c.val else t.haltAt c.val 5 0 ((x.pc + 4) % 2 ^ 32) code.toNat

/-! The return from an entry (R333). -/

/-- A word of the frame: zero with a deferred BUSERR where it cannot be corrected. -/
def State.frameWord (c p a : Nat) (s : State) : Word × State :=
  match s.localRead c a 4 with
  | (0, bs, t) => (leWord bs, t)
  | (e, _, t) => (0, t.deferBuserr c ⟨p, a, finfoWord e false 2 0 false 0⟩)

/-- The ten words of the frame at `base`; a frame that does not lie in local SRAM at a multiple of 4 has free values (log 40). -/
def State.frameWords (c p base : Nat) (s : State) : List Word × State :=
  let ok := decide (base % 4 = 0) && decide (0x08000000 ≤ base) && decide (base + 40 ≤ 0x08000000 + localSize c)
  (List.range 10).foldl (fun (acc : List Word × State) i =>
    let (l, t) := acc
    if ok then
      let (w, u) := t.frameWord c p (base + 4 * i)
      (l ++ [w], u)
    else
      let (k, u) := t.draw
      (l ++ [Config.freeWord k], u)) ([], s)

/-- `RETI`: the level that ends is completed, and the RETI that leaves the DEBUG handler ends the monitor halt (R471, R473). -/
def execGvReti (c : Fin 3) (s : State) : Res :=
  s.issue c.val (encR 0x35 0 0 0) fun t =>
    let k := c.val
    let x := t.core k
    let base := (x.r 14).toNat
    let (ws, t1) := t.frameWords k x.pc base
    let at_ := fun (i : Nat) => (ws[i]?).getD 0
    let st := (x.st &&& ~~~stRw) ||| (at_ 0 &&& stRw)
    let y := t1.core k
    let g := ((List.range 8).map fun i => at_ (2 + i)) ++ (y.g.drop 8).set 6 (wd (base + 40))
    let leave := x.monitor && !bitAt st 4
    let z := { y with st := st, pc := (at_ 1).toNat / 4 * 4, g := g, slot := none, ahead := [],
                      monitor := x.monitor && !leave, passBreak := leave && t1.bit (Reg.DBG_Cc_CTRL k) 4,
                      stepping := leave && t1.bit (Reg.DBG_Cc_CTRL k) 3 }
    let t2 := t1.setCore k (x.gate z k)
    let t3 := if fld st 11 8 < x.lvl then t2.completeIrq k x.lvl else t2
    let t4 := if x.stepping then t3.stopNext k 4 0 else t3
    if leave then (t4.setF (Reg.DBG_Cc_STAT k) 1 0 0).wdgRelease k else t4

end Sys2Proof.Machine
end

