-- ==== Sys2Proof/Machine/Repair.lean ====
section
/-! DEFINITION. The scrubber of the memories beside main SRAM, and the restoring of an uncorrectable word (R85, R502). -/

namespace Sys2Proof.Machine

/-! Scrubbing (Table 3.3). Memory `m`: 0 palette RAM, 1 secure SRAM, 2 always-on SRAM, 3 to 5 the local SRAM of GV0, GV1 and the
Allemande. -/

/-- The key of the first byte of each memory, its size in bytes, and the bytes of its ECC word. -/
def memSpan (m : Nat) : Nat × Nat × Nat :=
  match m with
  | 0 => (0x20000000, 0x20000, 8)
  | 1 => (0x30000000, 0x40000, 4)
  | 2 => (0x38000000, 0x10000, 4)
  | c => (localKey (c - 3) 0, localSize (c - 3), 4)

/-- `MEMORY_SCRUB_WORD`: memory `mem` scrubs its next word; `upset` is what has befallen it. Only always-on SRAM is scrubbed in every power
state. -/
def execMemoryScrubWord (mem : Fin 6) (upset : Upset) (s : State) : Res :=
  if mem.val ≠ 2 ∧ 2 ≤ s.pwr.state then .next s else
  let (base, size, w) := memSpan mem.val
  let i := (s.pwr.memScrub[mem.val]?).getD 0
  let k := base + w * i
  let s1 := ((s.upset k upset).eccRead k (34 + mem.val)).2
  .next { s1 with pwr := { s1.pwr with memScrub := s1.pwr.memScrub.set mem.val ((i + 1) % (size / w)) } }

/-! Restoring (R502). -/

/-- The section of the active slot that the word at `a` was loaded from. -/
def State.homeSection (src a n : Nat) (s : State) : Option Section :=
  (s.sections src).find? fun x =>
    (decide (x.type = 6) || (decide (8 ≤ x.type) && decide (x.type ≤ 10))) && decide (x.dest ≤ a) && decide (a + n ≤ x.dest + x.length)

/-- `UE_RESTORE`: the word that MRC_ERRADDR names is written whole from the image in the flash slot that was booted, and
MRC_ERRINFO.VALID is cleared. A word without a copy there is left as it is. -/
def execUeRestore (s : State) : Res :=
  let e := (s.reg Reg.MRC_ERRADDR).toNat
  let from_ := s.f Reg.IMG_BOOT 3 2
  if s.bit Reg.MRC_ERRINFO 31 = false ∨ s.f Reg.MRC_ERRINFO 2 0 ≠ 4 ∨ 2 ≤ from_ then .next s else
  let src := from_ + 1
  let acc : Acc := { port := 14, secure := false, debug := false, host := false }
  let clear := fun (t : State) => t.setBit Reg.MRC_ERRINFO 31 false
  if inSram e then
    let a := e / 16 * 16
    match s.homeSection src a 16 with
    | some x => .next (clear (s.busWrite acc a (s.srcBytes src (x.offset + (a - x.dest)) 16)).2)
    | none => .next s
  else if 0x20000000 ≤ e ∧ e < 0x20020000 then
    let a := e / 8 * 8
    match s.homeSection src a 8 with
    | some x =>
      let bs := s.srcBytes src (x.offset + (a - x.dest)) 8
      let t := (s.busWrite acc a (bs.take 4)).2
      .next (clear (t.busWrite acc (a + 4) (bs.drop 4)).2)
    | none => .next s
  else .next s

end Sys2Proof.Machine
end

