-- ==== Sys2Proof/Machine/Request.lean ====
section
/-! DEFINITION. DEBUG requests, by frame and by the debug target of the host port (R465, R468, R491), and the register window and
mailbox of the host port (R490). -/

namespace Sys2Proof.Machine

/-! Requests (Table 20.2). -/

/-- An access of the debug block (R465). -/
def debugAcc : Acc := { port := 14, secure := false, debug := true, host := false }

/-- `n` words are read upward from `a`, to the first error: the code that ends them, and the words read. -/
def State.debugRead : Nat → Nat → State → Nat × List Word × State
  | 0, _, s => (0, [], s)
  | n + 1, a, s =>
    match s.busRead32 debugAcc (a % 2 ^ 32) with
    | (0, w, t) =>
      let (c, ws, u) := State.debugRead n (a + 4) t
      (c, w :: ws, u)
    | (c, _, t) => (c, [], t)

/-- Words are written upward from `a`, to the first error: the code that ends them, and how many were written. -/
def State.debugWrite : List Word → Nat → State → Nat × Nat × State
  | [], _, s => (0, 0, s)
  | w :: ws, a, s =>
    match s.busWrite32 debugAcc (a % 2 ^ 32) w with
    | (0, t) =>
      let (c, n, u) := State.debugWrite ws (a + 4) t
      (c, n + 1, u)
    | (c, t) => (c, 0, t)

/-- Words of a payload from byte `o` on. -/
def payloadWords (data : List Byte) (o n : Nat) : List Word := (List.range n).map fun i => leWord ((data.drop (o + 4 * i)).take 4)

/-- A request in progress on the path. -/
def State.debugBusy (s : State) (path : Option Nat) : Bool :=
  s.dbg.verify.any fun e => match e with
    | some (_, _, p) => p.isSome == path.isSome
    | none => false

/-- A request is served: `path` is the station a frame came from, or none for the host port. -/
def State.debugRequest (path : Option Nat) (data : List Byte) (s : State) : State :=
  if s.debugBusy path then s.raise0 stDBG 1 else
  let le := fun (o n : Nat) => leNat ((data.drop o).take n)
  let tag := le 0 4
  let count := le 6 2
  let addr := le 8 4
  let req := match path with
    | some src => src
    | none => 0x8000
  let answer := fun (status n : Nat) (ws : List Word) (t : State) =>
    t.debugAnswer path { tag := tag, status := status, level := t.sec.level, count := n, addr := addr, data := ws }
  match le 4 1 with
  | 0 =>
    if 252 < count then answer 9 0 [] s
    else if addr % 4 ≠ 0 then answer 7 0 [] s
    else
      let (c, ws, t) := s.debugRead count addr
      answer c ws.length ws t
  | 1 =>
    if 252 < count then answer 9 0 [] s
    else if addr % 4 ≠ 0 then answer 7 0 [] s
    else
      let (c, n, t) := s.debugWrite (payloadWords data 16 count) addr
      answer c n [] t
  | 2 =>
    match s.chalRequest (le 5 1) req with
    | (true, t) => answer 0 0 (if t.sec.chal.isSome then (List.range 16).map fun w => t.reg (Reg.DBG_CHALw w) else []) t
    | (false, t) => answer 8 0 [] t
  | 3 =>
    answer 0 0 [] ((List.range 24).foldl (fun t w => t.setReg (Reg.DBG_RESPw w) (leWord ((data.drop (16 + 4 * w)).take 4))) s)
  | 4 => if s.sec.chal.isSome then s.verifyRequest (some (tag, addr, path)) else
      answer 0 0 [] (s.setBit Reg.DBG_AUTHSTAT 6 true)
  | _ => answer 9 0 [] s

/-- A DEBUG frame that the station accepts: a request is served; a response is for the debugger and changes nothing here. -/
def State.deliverDebug (f : Frame) (s : State) : State := if f.sub = 0 then s.debugRequest (some f.src) f.data else s

/-- A DEBUG REQ frame with the operation code `op` arrives. -/
def State.debugFrame (op : Nat) (hop : Hop) (ok : Bool) (f : Frame) (s : State) : State :=
  if f.type ≠ 7 ∨ f.sub ≠ 0 ∨ f.le 4 1 ≠ op then s else
  let (acc, t) := s.arrives hop ok f
  if acc then t.deliverDebug f else t

/-- `DEBUG_READ`. -/
def execDebugRead (hop : Hop) (ok : Bool) (f : Frame) (s : State) : Res :=
  if s.frozen then .next s else
  .next (s.debugFrame 0 hop ok f)

/-- `DEBUG_WRITE`. -/
def execDebugWrite (hop : Hop) (ok : Bool) (f : Frame) (s : State) : Res :=
  if s.frozen then .next s else
  .next (s.debugFrame 1 hop ok f)

/-- `DEBUG_CHAL`. -/
def execDebugChal (hop : Hop) (ok : Bool) (f : Frame) (s : State) : Res :=
  if s.frozen then .next s else
  .next (s.debugFrame 2 hop ok f)

/-- `DEBUG_RESP`. -/
def execDebugResp (hop : Hop) (ok : Bool) (f : Frame) (s : State) : Res :=
  if s.frozen then .next s else
  .next (s.debugFrame 3 hop ok f)

/-- `DEBUG_VERIFY`. -/
def execDebugVerify (hop : Hop) (ok : Bool) (f : Frame) (s : State) : Res :=
  if s.frozen then .next s else
  .next (s.debugFrame 4 hop ok f)

/-! The host port (R490, R491). -/

/-- An access of the register window. -/
def hostAcc : Acc := { port := 14, secure := false, debug := false, host := true }

/-- A failed window access: HI3C_WINERR holds the first failure. -/
def State.winErr (code a : Nat) (s : State) : State :=
  let s1 := if s.bit Reg.HI3C_STAT 2 then s else s.setReg Reg.HI3C_WINERR (wd (code % 8 + a / 8 * 8))
  s1.raise0 stHI3C 2

/-- The main target takes private writes: it is not holding the host off for want of an inbound slot. -/
def State.hostTakes (s : State) : Bool := !(s.bit Reg.HI3C_CFG 9 && s.freeInbound.isNone)

/-- Private writes to the main target, from the command byte on, are cut to its maximum write length. -/
def State.hostCut (s : State) (used : Nat) (data : List Byte) : List Byte := data.take ((s.hi3c.mwl[0]?).getD 0 - used)

/-- The window pointer is set, and is the source of private reads again. -/
def State.setWindow (a : Nat) (s : State) : State := { s with hi3c := { s.hi3c with ptr := a / 4 * 4 % 2 ^ 32, slot := none } }

/-- `HI3C_ADDR`: a private write that begins with `cmd`. With 0x01, the ADDR command, four bytes set the pointer; a first byte that is no
command discards the write; the commands 0x02 to 0x04 have rows of their own. -/
def execHi3cAddr (cmd : Byte) (addr : List Byte) (s : State) : Res :=
  .next (s.hostServe 0 fun t =>
    let bs := t.hostCut 1 addr
    if !t.hostTakes then t
    else if cmd = 0 ∨ 4 < cmd.toNat then ({ t with hi3c := { t.hi3c with slot := none } } : State).raise0 stHI3C 0
    else if cmd = 1 ∧ 4 ≤ bs.length then t.setWindow (leNat (bs.take 4))
    else t)

/-- Whole words are written through the window. -/
def State.windowWrite : List Word → State → State
  | [], s => s
  | w :: ws, s =>
    let a := s.hi3c.ptr
    let (c, t) := s.busWrite32 hostAcc a w
    let u := t.setWindow (a + 4)
    State.windowWrite ws (if c = 0 then u else u.winErr c a)

/-- `HI3C_WRITE`: four address bytes, then whole words. -/
def execHi3cWrite (data : List Byte) (s : State) : Res :=
  .next (s.hostServe 0 fun t =>
    let bs := t.hostCut 1 data
    if t.hostTakes ∧ 4 ≤ bs.length then (t.setWindow (leNat (bs.take 4))).windowWrite (payloadWords bs 4 ((bs.length - 4) / 4)) else t)

/-- `HI3C_MBWRITE`: one inbound message (R434). -/
def execHi3cMbwrite (data : List Byte) (s : State) : Res :=
  .next (s.hostServe 0 fun t =>
    let bs := t.hostCut 1 data
    let t1 := { t with hi3c := { t.hi3c with slot := none } }
    if !t.hostTakes then t
    else if bs.length < 16 ∨ 2048 < bs.length ∨ leNat ((bs.drop 2).take 2) + 16 ≠ bs.length then t1.raise0 stHI3C 1
    else match t.freeInbound with
      | some k => t1.placeMail k bs 0x8000
      | none => t1.raise0 stHI3C 1)

/-- `HI3C_MBREAD`: outbound slot `slot` is what private reads return, from its first byte. -/
def execHi3cMbread (slot : Nat) (s : State) : Res :=
  .next (s.hostServe 0 fun t =>
    if t.hostTakes then { t with hi3c := { t.hi3c with slot := if slot < 4 then some (slot, 0) else none } } else t)

/-- Words are read through the window; a failed access reads zero. -/
def State.windowRead : Nat → State → List Byte × State
  | 0, s => ([], s)
  | n + 1, s =>
    let a := s.hi3c.ptr
    let (c, w, t) := s.busRead32 hostAcc a
    let u := t.setWindow (a + 4)
    let (bs, v) := State.windowRead n (if c = 0 then u else u.winErr c a)
    (leBytes 4 (if c = 0 then w.toNat else 0) ++ bs, v)

/-- The selected outbound message is read on; its slot is free once the host has read all of it (R435). -/
def State.messageRead (k from_ n : Nat) (s : State) : List Byte × State :=
  let len := fld (s.reg (Reg.MGT_MBOUTs k 0)) 31 16 + 16
  let bs := ((s.outBytes k len).drop from_).take n
  let s1 := { s with hi3c := { s.hi3c with slot := some (k, from_ + bs.length) } }
  (bs, if from_ < len ∧ len ≤ from_ + bs.length ∧ s.bit Reg.MGT_MBOUTSTAT k = true ∧ s.bit (Reg.MGT_MBOUTs_DST k) 14 = true then s1.mailDone k else s1)

/-- `HI3C_PRIVATE_READ`: the host reads `n` bytes of the main or the debug target (R490, R491). -/
def execHi3cPrivateRead (debug : Bool) (n : Nat) (s : State) : Res :=
  if debug then
    .next (s.hostServe 1 fun t =>
      match t.dbg.hostResp with
      | some r => ({ t with dbg := { t.dbg with hostResp := none } } : State).emit (.i3cRead 1 (r.bytes.take (min n ((t.hi3c.mrl[1]?).getD 0))))
      | none => t.emit (.i3cRead 1 []))
  else
    .next (s.hostServe 0 fun t =>
      let m := min n ((t.hi3c.mrl[0]?).getD 0)
      match t.hi3c.slot with
      | some (k, from_) =>
        let (bs, u) := t.messageRead k from_ m
        u.emit (.i3cRead 0 bs)
      | none =>
        let (bs, u) := t.windowRead ((m + 3) / 4)
        u.emit (.i3cRead 0 (bs.take m)))

/-- `HI3C_DEBUG_WRITE`: one DEBUG REQ payload. -/
def execHi3cDebugWrite (data : List Byte) (s : State) : Res :=
  .next (s.hostServe 1 fun t => t.debugRequest none (data.take ((t.hi3c.mwl[1]?).getD 0)))

end Sys2Proof.Machine
end

