-- ==== Sys2Proof/Machine/Tick.lean ====
section
/-! DEFINITION. What one FCLK does when no command waits: clocks, counters and the beam's advance (R11, R24, R311, R395, R414, R437, R527). -/

namespace Sys2Proof.Machine

/-- The period of the present frame in ps: P × (1 + f + p) (R55). -/
def State.periodPs (s : State) : Nat :=
  ((s.framePs : Int) + (s.framePs : Int) * s.freqTerm / 1000000000 + s.beam.phaseTerm).toNat

/-- The beam goes on by one FCLK, 1,000 ps. It reaches a new dot when the dot's time has passed; the next 0:0 is FRAME_START's. -/
def State.beamTick (s : State) : State :=
  if !s.running || s.frozen || decide (4 ≤ s.pwr.state) then s else
  let acc := s.beam.dotAcc + 1000 * s.frameDots
  if acc < s.periodPs then { s with beam := { s.beam with dotAcc := acc } } else
  let p := s.beam.pos
  if p.dot + 1 < s.dots then { s with beam := { s.beam with pos := { p with dot := p.dot + 1 }, dotAcc := acc - s.periodPs } }
  else if p.line + 1 < s.total then
    { s with beam := { s.beam with pos := { p with line := p.line + 1, dot := 0 }, dotAcc := acc - s.periodPs } }
  else s

/-- The cycle and segment of the slot round, and the words granted in the window of 65,536 FCLK that ends (Table 1.8). -/
def State.roundTick (s : State) : State :=
  if s.frozen || decide (2 ≤ s.pwr.state) || s.pwr.held then s else
  let k := s.pwr.fclk % 256
  let s1 := s.setReg Reg.COT_SEGMENT (wd (k + 256 * (k / 8)))
  if s.pwr.fclk % 65536 = 0 then
    let s2 := (List.range 16).foldl (fun t p => t.setReg (Reg.COT_PORTp_WORDS p) (wd (Sparse.get (fun _ => 0) s.fab.words p))) s1
    { s2 with fab := { s2.fab with words := [] } }
  else s1

/-- A core's cycle count, while its clock runs (R311, R334). -/
def State.coreTick (c : Nat) (s : State) : State :=
  let x := s.core c
  if decide (x.run = .run) && !s.pwr.held then s.setCore c { x with cyc := (x.cyc + 1) % 2 ^ 64 } else s

/-- A watchdog counts; its warning and its expiry are commands of their own, and it waits for them at 1 (R395, R397). -/
def State.wdgTick (w : Nat) (s : State) : State :=
  let n := (s.reg (wdgCnt w)).toNat
  if s.bit (wdgCtrl w) 0 && !s.bit (wdgCtrl w) 2 && decide (1 < n) then s.setReg (wdgCnt w) (wd (n - 1)) else s

/-- One period of XO32: the recorder's time, and WDGM. -/
def State.xoTick (s : State) : State :=
  let n := s.f Reg.EVR_SUB 14 0 + 1
  let s1 := s.setReg Reg.EVR_SUB (wd (n % 32768))
  (if n = 32768 then s1.setReg Reg.EVR_SECS (s1.reg Reg.EVR_SECS + 1) else s1).wdgTick 2

/-- One FCLK. -/
def State.tick (s : State) : State :=
  let n := s.pwr.fclk + 1
  let s1 := { s with pwr := { s.pwr with fclk := n } }
  let s2 := if n * 32768 / 1000000000 ≠ s.pwr.fclk * 32768 / 1000000000 then s1.xoTick else s1
  let s3 := if n % 1000 = 0 then { s2 with pwr := { s2.pwr with uptime := (s2.pwr.uptime + 1) % 2 ^ 64 } } else s2
  if !s3.pwr.released then s3 else
  let s4 := if n % 1000 = 0 ∧ s3.pwr.state ≠ 5 then (s3.wdgTick 0).wdgTick 1 else s3
  let s5 := if n % 2 = 0 then (s4.coreTick 0).coreTick 1 else s4
  let s6 := if n % 5 = 0 then s5.coreTick 2 else s5
  ((if s6.pwr.state < 2 then s6.marchTick else s6).roundTick).beamTick

end Sys2Proof.Machine
end

