-- ==== Sys2Proof/Machine/Sleep.lean ====
section
/-! DEFINITION. Entry to a power state and the return to RUN (R404 to R409, R485). -/

namespace Sys2Proof.Machine

/-! Known events (R407). -/

/-- The ns until the wall-time beam next stands at `p`. -/
def State.nsTo (s : State) (p : BPos) : Nat :=
  let n := s.frameDots
  let d := (s.dotOff p + n - s.dotOff s.beam.pos) % n
  (if d = 0 then n else d) * s.periodPs / n / 1000

/-- A line and dot in every sub-frame. -/
def State.everySf (s : State) (line dot : Nat) : List BPos := (List.range (s.subfm1 + 1)).map fun sf => ⟨sf, line, dot⟩

/-- The positions of a trigger entry whose action is not NONE, its repeats among them (R32). -/
def State.triggerPlaces (s : State) (n : Nat) : List BPos :=
  let p := posOf (s.reg (Reg.COT_TRGn_POS n))
  let every := s.f (Reg.COT_TRGn_ACT n) 31 16
  if s.f (Reg.COT_TRGn_ACT n) 5 0 = 0 ∨ s.inGeometry p.line p.dot = false then [] else
  (List.range (if every = 0 then 1 else (s.total - 1 - p.line) / every + 1)).flatMap fun k => s.everySf (p.line + k * every) p.dot

/-- The positions of an enabled match (R23). -/
def State.matchPlaces (s : State) (n : Nat) : List BPos :=
  let r := Reg.BEAM_MATCHn n
  let p := posOf (s.reg r)
  if s.bit r 15 = false ∨ s.inGeometry p.line p.dot = false then []
  else if s.bit r 29 then [p] else s.everySf p.line p.dot

/-- The beam positions of the known events: the commit mark, waiting engines, trigger entries and matches. -/
def State.knownPlaces (s : State) : List BPos :=
  let cm := posOf (s.reg Reg.BEAM_CMARK)
  let mark := if s.reg Reg.COT_PENDING ≠ 0 ∨ s.mntBusy = true then [(⟨s.subfm1, cm.line, cm.dot⟩ : BPos)] else []
  let waits := ((List.range 8).filter fun e => decide (s.engState e = 2)).map fun e => (s.eng e).pos
  mark ++ waits ++ (List.range 32).flatMap s.triggerPlaces ++ (List.range 4).flatMap s.matchPlaces

/-- The ns until the warning and the expiry of an enabled watchdog. -/
def State.wdgTimes (s : State) (w : Nat) : List Nat :=
  if s.bit (wdgCtrl w) 0 = false ∨ s.bit (wdgCtrl w) 2 = true then [] else
  let n := (s.reg (wdgCnt w)).toNat
  let warn := (s.reg (wdgReg w 8)).toNat
  let ns := fun (k : Nat) => if w = 2 then k * 1000000000 / 32768 else k * 1000
  ns n :: (if warn ≠ 0 ∧ warn < n then [ns (n - warn)] else [])

/-- The ns until the need that each processor has declared, read as a modular difference below 2^31 µs (Table 16.7). -/
def State.softTimes (s : State) : List Nat :=
  (List.range 3).filterMap fun t =>
    let v := s.reg (Reg.CLK_SWEVTt t)
    let d := (v - wd s.pwr.uptime).toNat
    if v ≠ 0 ∧ d < 2 ^ 31 then some (d * 1000) else none

/-- T of R407: the ns to the earliest known event. `t` is the time to the earliest enabled timer event and coalescer limit, whose dividers run
outside the model (log 54). -/
def State.knownTime (t : Nat) (s : State) : Nat :=
  let places := if s.running then s.knownPlaces.map s.nsTo else []
  (places ++ (List.range 3).flatMap s.wdgTimes ++ s.softTimes).foldl min t

/-! Entry and return. -/

/-- The ns that the reload of content takes after DEEP: every section of the booted slot that the boot ROM does not load, at 400 MB/s (Table 16.3, R413). -/
def State.reloadNs (s : State) : Nat :=
  (((s.sections (s.f Reg.IMG_BOOT 3 2 + 1)).filter fun x => !x.rom && decide (6 ≤ x.type)).map fun x => x.length).sum * 5 / 2

/-- Entry plus wake of each state, in ns (Table 16.3). -/
def State.sleepCost (s : State) : Nat → Nat
  | 1 => 120
  | 2 => 1200
  | 3 => 35000
  | 4 => 1000000
  | _ => 13000000 + s.reloadNs

/-- `SLEEP_ENTRY`: the deepest permitted state that fits before the earliest known event (R407). -/
def execSleepEntry (t : Nat) (s : State) : Res :=
  if s.pwr.state = 0 ∧ s.maySleep = true then
    let margin := s.f Reg.CLK_PMGR 27 16 * 100
    let fit := ([5, 4, 3, 2, 1] : List Nat).find? fun k => decide (k ≤ s.sleepLimit.1) && decide (s.sleepCost k + margin ≤ s.knownTime t)
    match fit with
    | none => .next s
    | some k =>
      let pads := if 3 ≤ k then (List.range 48).map fun n => s.sleepPad n (s.padDrive n) else s.pin.asleep
      .next { s with pwr := { s.pwr with state := k, waking := false, since := s.pwr.uptime }, pin := { s.pin with asleep := pads } }
  else .next s

/-- `WAKE_DONE`: back in RUN; a station whose beam STANDBY has stopped starts it again (R388, R409, R485). -/
def execWakeDone (s : State) : Res :=
  if s.pwr.state = 0 ∨ s.pwr.waking = false then .next s else
  let k := s.pwr.state
  let ms := (s.pwr.uptime - s.pwr.since) / 1000
  let s1 := (s.setReg (Reg.CLK_RESIDs k) (wd (sat (2 ^ 32 - 1) ((s.reg (Reg.CLK_RESIDs k)).toNat + ms)))).setF Reg.CLK_PSTAT 6 4 k
  let s2 := { s1 with pwr := { s1.pwr with state := 0, waking := false } }
  if k = 5 then
    let fired := (bitsOf s2.irq.wakePend).map fun j => s2.f (Reg.IRQ_WAKEk j) 7 0
    let stat := s2.reg Reg.IRQ_WAKESTAT
    let pads := s2.pin.asleep
    let s3 := (((s2.zeroRange 0x20000000 0x20020000).zeroRange 0x21000000 0x21040000).zeroRange 0x100000000 0x400000000).chipReset 4
    let s4 := ((s3.setReg Reg.IRQ_WAKESTAT stat).setReg Reg.PIN_CTRL 0)
    .next (fired.foldl (fun t n => t.arriveAwake n) { s4 with pin := { s4.pin with asleep := pads } })
  else
    let s3 := if k = 4 ∧ s2.running = true then (s2.stopBeam).startBeam else s2
    .next (if 3 ≤ k then s3.deliverWakes.wakePads else s3.deliverWakes)

end Sys2Proof.Machine
end

