-- ==== Sys2Proof/Machine/Traffic.lean ====
section
/-! DEFINITION. Frames of any type: forwarding, and Ethernet reception (R281, R289 to R293, R304 to R306). -/

namespace Sys2Proof.Machine

/-- A MAIL frame takes the lowest free inbound slot; the credit that its sender holds says that there is one (R281, R434). -/
def State.deliverMail (f : Frame) (s : State) : State :=
  match s.freeInbound with
  | some k => s.placeMail k f.data f.src
  | none => s

/-- A frame that the station accepts goes to the block that its type names (R279 to R281). BEAM records but RINGSTATE are the beam's own
commands; MONITOR frames and HELLO and KEYX records are not for a station's blocks. -/
def State.deliver (h : Hop) (f : Frame) (s : State) : State :=
  match f.type with
  | 0 => if f.sub = 6 then s.deliverRingState f else s
  | 1 => s.deliverScene h f
  | 2 => s.deliverPlane h f
  | 3 => s.deliverSound h f
  | 4 => if f.sub = 3 then s.deliverMail f else s
  | 6 => s.deliverUpdate f
  | 7 => s.deliverDebug f
  | _ => s

/-- A frame arrives: it is accepted, passed on, turned around, copied to trunks or discarded; a MAIL frame for which no slot is free is
held by its sender for want of credit. -/
def State.frameArrives (h : Hop) (ok : Bool) (f : Frame) (s : State) : State :=
  let (acc, t) := s.arrives h ok f
  if !acc then t
  else if f.type = 4 ∧ f.sub = 3 ∧ t.freeInbound = none then s
  else t.deliver h f

/-- `FRAME_FORWARD`: a frame of any type arrives on a hop. -/
def execFrameForward (hop : Hop) (ok : Bool) (f : Frame) (s : State) : Res :=
  if s.frozen then .next s else
  if f.type = 4 ∧ f.sub = 2 then execCensus hop ok f s else .next (s.frameArrives hop ok f)

/-- `ETHERNET_FRAME`: `fcs` is what checking the FCS finds, and `ok` the tag of an Aketh frame; `ptp` says that it is an IPv4 UDP frame
to 224.0.1.129, port 319 or 320; `dst`, `etype` and `size` are its destination, EtherType and length in bytes; `f` is the Aketh frame it
carries. What PTP makes of its messages is the PTP commands' effect. -/
def execEthernetFrame (port : Fin 2) (fcs ok ptp : Bool) (dst etype size : Nat) (f : Frame) (s : State) : Res :=
  if s.frozen then .next s else
  let x := port.val
  let h := ringHop x
  let cnt := Reg.AKx_ETHCNT x
  let mine := decide (dst = s.mac (Reg.AKx_MACLO x) (Reg.AKx_MACHI x)) && decide (etype = s.f (Reg.AKx_ETYPE x) 15 0)
  let ours := mine || (ptp && decide (s.f Reg.BEAM_LOCKCTL 8 8 = x))
  if !s.isEth h then .next s
  else if !fcs then .next (s.count cnt 15 0)
  else if 9216 < size ∨ ours = false then .next (s.count cnt 31 16)
  else if mine then .next (s.frameArrives h ok f)
  else .next s

end Sys2Proof.Machine
end

