-- ==== Sys2Proof/Machine/Uop.lean ====
section
/-! DEFINITION. User opcodes: the microwords of a customer routine (R338 to R349). -/

namespace Sys2Proof.Machine

/-- What a routine holds until its commit word (R341): temporaries, flags, the call stack, the words executed and the word it is at. -/
structure Micro where
  t : List Word
  z : Bool
  n : Bool
  c : Bool
  stack : List Nat
  at_ : Nat
deriving DecidableEq, Repr

def Micro.start (w : Nat) : Micro := { t := List.replicate 8 0, z := false, n := false, c := false, stack := [], at_ := w }

/-- The fields of the UOP that a routine can name. -/
structure UopArgs where
  rd : Nat
  ra : Nat
  rb : Nat
  imm : Word
  pc : Nat
deriving DecidableEq, Repr

/-- A signed field of `n` bits. -/
def sextNat (v n : Nat) : Word := wd (if 2 ^ (n - 1) ≤ v then v + 2 ^ 32 - 2 ^ n else v)

/-- An operand (Table 13.3); `k` is the microword's K field. -/
def Micro.sel (m : Micro) (x : CoreSt) (u : UopArgs) (k : Word) (code : Nat) : Word :=
  if code < 16 then x.r code
  else if code < 24 then (m.t[code - 16]?).getD 0
  else match code with
    | 24 => x.r u.rd
    | 25 => x.r u.ra
    | 26 => x.r u.rb
    | 27 => u.imm
    | 28 => k
    | 29 => wd u.pc
    | 30 => x.st
    | _ => 0

/-- The register a commit destination names. -/
def UopArgs.dest (u : UopArgs) (code : Nat) : Option Nat :=
  if code < 16 then some code
  else match code with
    | 24 => some u.rd
    | 25 => some u.ra
    | 26 => some u.rb
    | _ => none

def Micro.put (m : Micro) (i : Nat) (v : Word) : Micro := { m with t := m.t.set i v }
def Micro.goto (m : Micro) (w : Nat) : Micro := { m with at_ := w % 16384 }

/-- How a word of a routine ends. -/
inductive MicroOut where
  /-- The next word is `m`'s. -/
  | go (m : Micro) (s : State)
  /-- The instruction is done, or an exception has been taken, or it starts again. -/
  | done (s : State)
  /-- The spec does not publish what the word does (R339: PRIV, DISPATCH and reserved codes, in the vendor region). -/
  | unpublished

/-- A word is fetched from the active copy of the store of core `c`: corrected, or repaired from the shadow (R351, R352). Answers
whether it is good. -/
def State.microFetch (c w : Nat) (s : State) : Bool × State :=
  match s.mark (ucAddr c 0 w) with
  | .none => (true, s)
  | .single => (true, s.ucCorrect (ucAddr c 0 w))
  | .double =>
    match s.ucRepair c 0 w with
    | (true, t) => (true, t)
    | (false, t) => (false, t.raise0 stUC 13)

/-- READ (R341). Its target and alignment are checked first. -/
def State.microRead (c : Nat) (u : UopArgs) (m : Micro) (w : Nat) (s : State) : MicroOut :=
  let x := s.core c
  let n := match mf w 27 26 with
    | 0 => 1
    | 1 => 2
    | _ => 4
  let k := sextNat (mf w 10 0) 11
  let a := (m.sel x u k (mf w 20 16) + k).toNat
  let access := fun (kind : Nat) => MicroOut.done (s.enter c ⟨0x20, u.pc, u.pc, a, finfoWord 0 false (sizeCode n) kind false 0, false⟩)
  if memOf c a = 3 then access 1
  else if a % n ≠ 0 then access 0
  else
    let (e, bs, t) := s.pieceRead c a n
    let v := if mf w 25 25 = 1 then BitVec.signExtend 32 (BitVec.ofNat (8 * n) (leNat bs)) else leWord bs
    let t1 := if e = 0 then t else t.deferBuserr c ⟨u.pc, a, finfoWord e false (sizeCode n) 0 false 0⟩
    .go ((m.put (mf w 23 21) (if e = 0 then v else 0)).goto (m.at_ + 1)) t1

/-- SEQ (R339). The call stack holds two entries. -/
def State.microSeq (c : Nat) (u : UopArgs) (m : Micro) (w : Nat) (s : State) : MicroOut :=
  let target := mf w 13 0
  let jump := fun (b : Bool) => MicroOut.go (m.goto (if b then target else m.at_ + 1)) s
  let illegal := MicroOut.done (s.enter c ⟨0x00, u.pc, u.pc, 0, 0, false⟩)
  match mf w 27 25 with
  | 0 => jump true
  | 1 => jump m.z
  | 2 => jump !m.z
  | 3 => jump m.n
  | 4 => jump m.c
  | 5 => if 2 ≤ m.stack.length then illegal else .go { m with stack := (m.at_ + 1) :: m.stack, at_ := target } s
  | 6 => match m.stack with
    | [] => illegal
    | r :: rest => .go ({ m with stack := rest }.goto r) s
  | _ => .unpublished

/-- TRAP: the exception at offset 0x10 × X. SYSC and DEBUG stack the next PC (Table 12.9). -/
def State.microTrap (c : Nat) (u : UopArgs) (w : Nat) (s : State) : State :=
  let x := mf w 27 24
  let next := (u.pc + 4) % 2 ^ 32
  if x = 6 then (if (s.core c).sec then s.doubleFault c else s.haltAt c 5 0 next 0)
  else s.enter c ⟨0x10 * x, if x = 5 then next else u.pc, u.pc, 0, 0, false⟩

/-- The commit word (R340, Table 13.4). -/
def State.microCommit (c : Nat) (u : UopArgs) (m : Micro) (w : Nat) (s : State) : MicroOut :=
  let x := s.core c
  let tmp := fun (i : Nat) => (m.t[i]?).getD 0
  let n := match mf w 24 23 with
    | 0 => 1
    | 1 => 2
    | _ => 4
  let d2 := if mf w 15 15 = 1 then u.dest (mf w 14 10) else none
  let d1 := if mf w 21 21 = 1 then u.dest (mf w 20 16) else none
  let own := match d1 with
    | some d => if d2 = some d then none else some d
    | none => none
  let fin : GvFinish :=
    { d2 := d2.map fun d => (d, tmp 1), pc := if mf w 9 9 = 1 then some ((tmp 2).toNat, decide (mf w 8 8 = 1)) else none,
      st := if mf w 7 7 = 1 then some (tmp 3) else none, skip := decide (mf w 2 2 = 1) }
  let a := (tmp 4).toNat
  let access := fun (kind size : Nat) (write : Bool) =>
    MicroOut.done (s.enter c ⟨0x20, u.pc, u.pc, a, finfoWord 0 write size kind false 0, false⟩)
  match mf w 27 25 with
  | 0 =>
    let s1 := match own with
      | some d => s.setCore c (x.put d (tmp 0))
      | none => s
    .done (s1.finish c fin)
  | 1 =>
    match x.accessKind c a n with
    | some k => access k (sizeCode n) false
    | none =>
      match own with
      | some d => .done ((s.loadTo c d a n (decide (mf w 22 22 = 1))).finish c fin)
      | none =>
        let (e, ea, _, t) := s.coreRead c a n
        let t1 := if e = 0 then t else t.deferBuserr c ⟨u.pc, ea, finfoWord e false (sizeCode n) 0 false 0⟩
        .done ((t1.watch c a n false).finish c fin)
  | 2 =>
    match x.accessKind c a n with
    | some k => access k (sizeCode n) true
    | none => if s.storeWaits c a then .done s else .done ((s.storeFrom c a (leBytes n (tmp 5).toNat)).finish c fin)
  | 3 =>
    if 4 < mf w 6 3 then .unpublished
    else if atomicOk c a then
      .done (s.startAtomic c { op := mf w 6 3, rd := own, addr := a, rb := tmp 5, cmp := tmp 6, fin := fin })
    else access 2 3 false
  | 4 =>
    let (k, s1) := s.draw
    match own with
    | some d => .done ((s1.expect c (unitResult d (Config.freeWord k))).finish c fin)
    | none => .done (s1.finish c fin)
  | _ => .unpublished

/-- One word of a routine. -/
def State.microStep (c : Nat) (u : UopArgs) (m : Micro) (s : State) : MicroOut :=
  match s.microFetch c m.at_ with
  | (false, t) => .done (t.enter c ⟨0x80, u.pc, u.pc, 0, 0, false⟩)
  | (true, t) =>
    let w := t.ucWord c 0 m.at_
    match mf w 31 28 with
    | 0 => .done (t.enter c ⟨0x70, u.pc, u.pc, 0, 0, false⟩)
    | 1 =>
      if 12 < mf w 27 24 then .unpublished else
      let x := t.core c
      let k := sextNat (mf w 10 0) 11
      let (v, cy) := alu (mf w 27 24) (m.sel x u k (mf w 20 16)) (m.sel x u k (mf w 15 11))
      .go ({ m.put (mf w 23 21) v with z := zeroFlag v, n := negFlag v, c := cy }.goto (m.at_ + 1)) t
    | 2 => if mf w 27 26 = 3 then .unpublished else t.microRead c u m w
    | 3 => t.microSeq c u m w
    | 4 => if 8 < mf w 27 24 then .unpublished else .done (t.microTrap c u w)
    | 15 => t.microCommit c u m w
    | _ => .unpublished

/-- A routine runs for at most `fuel` words; the word after them raises ILLEGAL before it executes (R349). -/
def State.microRun (c : Nat) (u : UopArgs) : Nat → Micro → State → MicroOut
  | 0, _, s => .done (s.enter c ⟨0x00, u.pc, u.pc, 0, 0, false⟩)
  | fuel + 1, m, s =>
    match s.microStep c u m with
    | .go m1 t => State.microRun c u fuel m1 t
    | o => o

/-- `UOP`: a vendor word whose effect is not published is refused. -/
def execGvUop (c : Fin 3) (n : Fin 64) (rd ra rb : Fin 16) (imm : BitVec 8) (s : State) : Res :=
  let u : UopArgs := { rd := rd.val, ra := ra.val, rb := rb.val, imm := wd imm.toNat, pc := (s.core c.val).pc }
  s.issueRes c.val (encR 0x3F rd.val ra.val rb.val ||| wd (n.val * 256 + imm.toNat)) fun t =>
    match t.microRun c.val u 19 (Micro.start (0x3800 + 32 * n.val)) with
    | .done v => .next v
    | .go _ v => .next v
    | .unpublished => .refused .vendorMicroword

end Sys2Proof.Machine
end

