-- ==== Sys2Proof/Machine/Dispatch.lean ====
section
/-! DEFINITION. One arm per command: what each does to everything but the queue. -/

namespace Sys2Proof.Machine

def exec (i : Instr) (s : State) : Host.Outcome State Fault Refusal :=
  match i with
  | .registerWrite m addr size v set => Sys2Proof.Machine.execRegisterWrite m addr size v set s
  | .beamRun m subfm1 => Sys2Proof.Machine.execBeamRun m subfm1 s
  | .beamStopRequest m subfm1 => Sys2Proof.Machine.execBeamStopRequest m subfm1 s
  | .beamStop => Sys2Proof.Machine.execBeamStop s
  | .frameStart sf => Sys2Proof.Machine.execFrameStart sf s
  | .beamPosRead m => Sys2Proof.Machine.execBeamPosRead m s
  | .beamMatch n sf => Sys2Proof.Machine.execBeamMatch n sf s
  | .triggerFire n sf rep => Sys2Proof.Machine.execTriggerFire n sf rep s
  | .cotCommit m v => Sys2Proof.Machine.execCotCommit m v s
  | .commitMark => Sys2Proof.Machine.execCommitMark s
  | .commitGroupApply g => Sys2Proof.Machine.execCommitGroupApply g s
  | .streamWindowUpdate port reqs => Sys2Proof.Machine.execStreamWindowUpdate port reqs s
  | .memoryAccess k bank upset => Sys2Proof.Machine.execMemoryAccess k bank upset s
  | .readReturn port => Sys2Proof.Machine.execReadReturn port s
  | .accessTimeout m addr write => Sys2Proof.Machine.execAccessTimeout m addr write s
  | .eccWriteback word => Sys2Proof.Machine.execEccWriteback word s
  | .scrubWindow found => Sys2Proof.Machine.execScrubWindow found s
  | .ceWindowEnd => Sys2Proof.Machine.execCeWindowEnd s
  | .mrcCepolWrite m v => Sys2Proof.Machine.execMrcCepolWrite m v s
  | .migrationStart => Sys2Proof.Machine.execMigrationStart s
  | .migrationCopy => Sys2Proof.Machine.execMigrationCopy s
  | .migrationDone => Sys2Proof.Machine.execMigrationDone s
  | .mrcReqPreserving m bank => Sys2Proof.Machine.execMrcReqPreserving m bank s
  | .mrcReqDestroying m bank => Sys2Proof.Machine.execMrcReqDestroying m bank s
  | .marchTestDone failed => Sys2Proof.Machine.execMarchTestDone failed s
  | .startupMarchDone failed => Sys2Proof.Machine.execStartupMarchDone failed s
  | .wipeDone => Sys2Proof.Machine.execWipeDone s
  | .beamMarkSend sf line => Sys2Proof.Machine.execBeamMarkSend sf line s
  | .beamMark hop ok f own residence => Sys2Proof.Machine.execBeamMark hop ok f own residence s
  | .delayProbeSend hop t1 => Sys2Proof.Machine.execDelayProbeSend hop t1 s
  | .probe hop ok f t2 t3 => Sys2Proof.Machine.execProbe hop ok f t2 t3 s
  | .reply hop ok f t4 => Sys2Proof.Machine.execReply hop ok f t4 s
  | .sourceLost => Sys2Proof.Machine.execSourceLost s
  | .holdoverEntry => Sys2Proof.Machine.execHoldoverEntry s
  | .beamStep pos => Sys2Proof.Machine.execBeamStep pos s
  | .fsyncEdge rising own rate => Sys2Proof.Machine.execFsyncEdge rising own rate s
  | .fsyncLoss => Sys2Proof.Machine.execFsyncLoss s
  | .ptpSync domain source t1 t2 own rate => Sys2Proof.Machine.execPtpSync domain source t1 t2 own rate s
  | .ptpAnnounce domain data => Sys2Proof.Machine.execPtpAnnounce domain data s
  | .ptpDelayReq t3 => Sys2Proof.Machine.execPtpDelayReq t3 s
  | .ptpDelayResp domain source t4 => Sys2Proof.Machine.execPtpDelayResp domain source t4 s
  | .ptpLoss => Sys2Proof.Machine.execPtpLoss s
  | .fsyncOutPulse sf => Sys2Proof.Machine.execFsyncOutPulse sf s
  | .fsyncOutEnd => Sys2Proof.Machine.execFsyncOutEnd s
  | .votecut sf => Sys2Proof.Machine.execVotecut sf s
  | .vote hop counted ready => Sys2Proof.Machine.execVote hop counted ready s
  | .voteSend pos => Sys2Proof.Machine.execVoteSend pos s
  | .voteDecision => Sys2Proof.Machine.execVoteDecision s
  | .decision hop ok f => Sys2Proof.Machine.execDecision hop ok f s
  | .pairready hop ok f => Sys2Proof.Machine.execPairready hop ok f s
  | .lineStart => Sys2Proof.Machine.execLineStart s
  | .lineComposed => Sys2Proof.Machine.execLineComposed s
  | .rasterWrite => Sys2Proof.Machine.execRasterWrite s
  | .lineConfirm => Sys2Proof.Machine.execLineConfirm s
  | .swap line => Sys2Proof.Machine.execSwap line s
  | .frameHold lane => Sys2Proof.Machine.execFrameHold lane s
  | .qdlDisable m => Sys2Proof.Machine.execQdlDisable m s
  | .qdlEnable m => Sys2Proof.Machine.execQdlEnable m s
  | .layerFenceSignal m slot => Sys2Proof.Machine.execLayerFenceSignal m slot s
  | .lateFenceDeadline slot => Sys2Proof.Machine.execLateFenceDeadline slot s
  | .laneCheckError lane => Sys2Proof.Machine.execLaneCheckError lane s
  | .laneErrorWindowEnd => Sys2Proof.Machine.execLaneErrorWindowEnd s
  | .qdlLanepolWrite m v => Sys2Proof.Machine.execQdlLanepolWrite m v s
  | .engineFrameEntry e => Sys2Proof.Machine.execEngineFrameEntry e s
  | .engineOverrun e => Sys2Proof.Machine.execEngineOverrun e s
  | .beamWord e upset => Sys2Proof.Machine.execBeamWord e upset s
  | .beamWordV1 e upset => Sys2Proof.Machine.execBeamWordV1 e upset s
  | .realtimeWaitEnd e pos => Sys2Proof.Machine.execRealtimeWaitEnd e pos s
  | .syncWaitEnd e pos => Sys2Proof.Machine.execSyncWaitEnd e pos s
  | .ldReturn e => Sys2Proof.Machine.execLdReturn e s
  | .queueStallEnd e => Sys2Proof.Machine.execQueueStallEnd e s
  | .timedWrite pos => Sys2Proof.Machine.execTimedWrite pos s
  | .engineFaultClear m e => Sys2Proof.Machine.execEngineFaultClear m e s
  | .gflagSet m v => Sys2Proof.Machine.execGflagSet m v s
  | .gflagClear m v => Sys2Proof.Machine.execGflagClear m v s
  | .beamStoreWrite m addr v => Sys2Proof.Machine.execBeamStoreWrite m addr v s
  | .beamStoreScrub upset => Sys2Proof.Machine.execBeamStoreScrub upset s
  | .unitSend port => Sys2Proof.Machine.execUnitSend port s
  | .unitDelivered port => Sys2Proof.Machine.execUnitDelivered port s
  | .segmentFetch pair => Sys2Proof.Machine.execSegmentFetch pair s
  | .segmentLanded pair => Sys2Proof.Machine.execSegmentLanded pair s
  | .gridPoint => Sys2Proof.Machine.execGridPoint s
  | .scanRowStep group => Sys2Proof.Machine.execScanRowStep group s
  | .swapCommand => Sys2Proof.Machine.execSwapCommand s
  | .storeExchange ripe => Sys2Proof.Machine.execStoreExchange ripe s
  | .planeSlot port => Sys2Proof.Machine.execPlaneSlot port s
  | .scanoutPrefetch port row plane => Sys2Proof.Machine.execScanoutPrefetch port row plane s
  | .blankRequest m v => Sys2Proof.Machine.execBlankRequest m v s
  | .blankStart => Sys2Proof.Machine.execBlankStart s
  | .blankEnd => Sys2Proof.Machine.execBlankEnd s
  | .pnlCmdCfg m => Sys2Proof.Machine.execPnlCmdCfg m s
  | .pnlCmdGain m data => Sys2Proof.Machine.execPnlCmdGain m data s
  | .pnlCmdUser m data => Sys2Proof.Machine.execPnlCmdUser m data s
  | .pnlCommandSend port => Sys2Proof.Machine.execPnlCommandSend port s
  | .pnlMapdata m write v => Sys2Proof.Machine.execPnlMapdata m write v s
  | .signatureDecided region => Sys2Proof.Machine.execSignatureDecided region s
  | .substitutionDone region => Sys2Proof.Machine.execSubstitutionDone region s
  | .pavaneRequest m v => Sys2Proof.Machine.execPavaneRequest m v s
  | .pavaneExitRequest m v => Sys2Proof.Machine.execPavaneExitRequest m v s
  | .beamSample tdm => Sys2Proof.Machine.execBeamSample tdm s
  | .keyOn m n v => Sys2Proof.Machine.execKeyOn m n v s
  | .keyOff m n v => Sys2Proof.Machine.execKeyOff m n v s
  | .nodeWrite m v => Sys2Proof.Machine.execNodeWrite m v s
  | .zcTimeout o node => Sys2Proof.Machine.execZcTimeout o node s
  | .voiceFetch voice upset => Sys2Proof.Machine.execVoiceFetch voice upset s
  | .soundBlock => Sys2Proof.Machine.execSoundBlock s
  | .soundSamples hop ok f => Sys2Proof.Machine.execSoundSamples hop ok f s
  | .biquadCoefWrite m o k v => Sys2Proof.Machine.execBiquadCoefWrite m o k v s
  | .sndKloRead m => Sys2Proof.Machine.execSndKloRead m s
  | .asrcLock conv => Sys2Proof.Machine.execAsrcLock conv s
  | .asrcUnlock conv => Sys2Proof.Machine.execAsrcUnlock conv s
  | .objectUpdate => Sys2Proof.Machine.execObjectUpdate s
  | .objMute m v => Sys2Proof.Machine.execObjMute m v s
  | .tdmFsEdge port count => Sys2Proof.Machine.execTdmFsEdge port count s
  | .tdmLost port => Sys2Proof.Machine.execTdmLost port s
  | .laneBlockLock hop lane => Sys2Proof.Machine.execLaneBlockLock hop lane s
  | .trainingTimeout hop => Sys2Proof.Machine.execTrainingTimeout hop s
  | .alignDone hop skewed => Sys2Proof.Machine.execAlignDone hop skewed s
  | .hello hop ok f => Sys2Proof.Machine.execHello hop ok f s
  | .keyx hop ok f sigOk peer => Sys2Proof.Machine.execKeyx hop ok f sigOk peer s
  | .keyRetry hop => Sys2Proof.Machine.execKeyRetry hop s
  | .lcbSend hop sent => Sys2Proof.Machine.execLcbSend hop sent s
  | .lcb hop block blocks => Sys2Proof.Machine.execLcb hop block blocks s
  | .replayTimeout hop => Sys2Proof.Machine.execReplayTimeout hop s
  | .frameForward hop ok f => Sys2Proof.Machine.execFrameForward hop ok f s
  | .censusSend => Sys2Proof.Machine.execCensusSend s
  | .census hop ok f => Sys2Proof.Machine.execCensus hop ok f s
  | .lcbMiss hop => Sys2Proof.Machine.execLcbMiss hop s
  | .pirouetteConfirm port => Sys2Proof.Machine.execPirouetteConfirm port s
  | .turnaround port => Sys2Proof.Machine.execTurnaround port s
  | .ringstate hop ok f => Sys2Proof.Machine.execRingstate hop ok f s
  | .laneLost hop lane => Sys2Proof.Machine.execLaneLost hop lane s
  | .laneCrcWindowEnd port => Sys2Proof.Machine.execLaneCrcWindowEnd port s
  | .akethEpolWrite m port v => Sys2Proof.Machine.execAkethEpolWrite m port v s
  | .akethRetrain m port => Sys2Proof.Machine.execAkethRetrain m port s
  | .akethLaneRetry m port => Sys2Proof.Machine.execAkethLaneRetry m port s
  | .akethRekey m port => Sys2Proof.Machine.execAkethRekey m port s
  | .ethernetFrame port fcs ok ptp dst etype size f => Sys2Proof.Machine.execEthernetFrame port fcs ok ptp dst etype size f s
  | .sceneWrite hop ok f => Sys2Proof.Machine.execSceneWrite hop ok f s
  | .sceneFill hop ok f => Sys2Proof.Machine.execSceneFill hop ok f s
  | .planeSegment hop ok f => Sys2Proof.Machine.execPlaneSegment hop ok f s
  | .gvAdd c rd ra rb => Sys2Proof.Machine.execGvAdd c rd ra rb s
  | .gvSub c rd ra rb => Sys2Proof.Machine.execGvSub c rd ra rb s
  | .gvAnd c rd ra rb => Sys2Proof.Machine.execGvAnd c rd ra rb s
  | .gvOr c rd ra rb => Sys2Proof.Machine.execGvOr c rd ra rb s
  | .gvXor c rd ra rb => Sys2Proof.Machine.execGvXor c rd ra rb s
  | .gvShl c rd ra rb => Sys2Proof.Machine.execGvShl c rd ra rb s
  | .gvShr c rd ra rb => Sys2Proof.Machine.execGvShr c rd ra rb s
  | .gvAsr c rd ra rb => Sys2Proof.Machine.execGvAsr c rd ra rb s
  | .gvMul c rd ra rb => Sys2Proof.Machine.execGvMul c rd ra rb s
  | .gvMulhs c rd ra rb => Sys2Proof.Machine.execGvMulhs c rd ra rb s
  | .gvMulhu c rd ra rb => Sys2Proof.Machine.execGvMulhu c rd ra rb s
  | .gvDivs c rd ra rb => Sys2Proof.Machine.execGvDivs c rd ra rb s
  | .gvDivu c rd ra rb => Sys2Proof.Machine.execGvDivu c rd ra rb s
  | .gvRems c rd ra rb => Sys2Proof.Machine.execGvRems c rd ra rb s
  | .gvRemu c rd ra rb => Sys2Proof.Machine.execGvRemu c rd ra rb s
  | .gvAddi c rd ra imm => Sys2Proof.Machine.execGvAddi c rd ra imm s
  | .gvAndi c rd ra imm => Sys2Proof.Machine.execGvAndi c rd ra imm s
  | .gvOri c rd ra imm => Sys2Proof.Machine.execGvOri c rd ra imm s
  | .gvXori c rd ra imm => Sys2Proof.Machine.execGvXori c rd ra imm s
  | .gvShli c rd ra imm => Sys2Proof.Machine.execGvShli c rd ra imm s
  | .gvShri c rd ra imm => Sys2Proof.Machine.execGvShri c rd ra imm s
  | .gvAsri c rd ra imm => Sys2Proof.Machine.execGvAsri c rd ra imm s
  | .gvMovi c rd imm => Sys2Proof.Machine.execGvMovi c rd imm s
  | .gvLui c rd imm => Sys2Proof.Machine.execGvLui c rd imm s
  | .gvLdw c rd ra imm => Sys2Proof.Machine.execGvLdw c rd ra imm s
  | .gvLdh c rd ra imm => Sys2Proof.Machine.execGvLdh c rd ra imm s
  | .gvLdhu c rd ra imm => Sys2Proof.Machine.execGvLdhu c rd ra imm s
  | .gvLdb c rd ra imm => Sys2Proof.Machine.execGvLdb c rd ra imm s
  | .gvLdbu c rd ra imm => Sys2Proof.Machine.execGvLdbu c rd ra imm s
  | .gvStw c rd ra imm => Sys2Proof.Machine.execGvStw c rd ra imm s
  | .gvSth c rd ra imm => Sys2Proof.Machine.execGvSth c rd ra imm s
  | .gvStb c rd ra imm => Sys2Proof.Machine.execGvStb c rd ra imm s
  | .loadResult c rd => Sys2Proof.Machine.execLoadResult c rd s
  | .storeResponse c => Sys2Proof.Machine.execStoreResponse c s
  | .gvSwapAtomic c rd ra rb => Sys2Proof.Machine.execGvSwapAtomic c rd ra rb s
  | .gvCas c rd ra rb => Sys2Proof.Machine.execGvCas c rd ra rb s
  | .gvFadd c rd ra rb => Sys2Proof.Machine.execGvFadd c rd ra rb s
  | .gvFor c rd ra rb => Sys2Proof.Machine.execGvFor c rd ra rb s
  | .gvFandn c rd ra rb => Sys2Proof.Machine.execGvFandn c rd ra rb s
  | .atomicResponse c => Sys2Proof.Machine.execAtomicResponse c s
  | .lockedAccessWithdraw c => Sys2Proof.Machine.execLockedAccessWithdraw c s
  | .gvBr c off => Sys2Proof.Machine.execGvBr c off s
  | .gvCall c off => Sys2Proof.Machine.execGvCall c off s
  | .gvJr c ra => Sys2Proof.Machine.execGvJr c ra s
  | .gvCallr c ra => Sys2Proof.Machine.execGvCallr c ra s
  | .gvRet c => Sys2Proof.Machine.execGvRet c s
  | .gvReti c => Sys2Proof.Machine.execGvReti c s
  | .gvCsk c cc ra rb => Sys2Proof.Machine.execGvCsk c cc ra rb s
  | .gvCski c cc ra imm => Sys2Proof.Machine.execGvCski c cc ra imm s
  | .gvTbsk c ra bit set => Sys2Proof.Machine.execGvTbsk c ra bit set s
  | .gvBfx c rd ra pos wm1 signed => Sys2Proof.Machine.execGvBfx c rd ra pos wm1 signed s
  | .gvBfi c rd ra pos wm1 => Sys2Proof.Machine.execGvBfi c rd ra pos wm1 s
  | .gvClz c rd ra => Sys2Proof.Machine.execGvClz c rd ra s
  | .gvPerm c rd ra sel => Sys2Proof.Machine.execGvPerm c rd ra sel s
  | .gvMfs c rd sreg => Sys2Proof.Machine.execGvMfs c rd sreg s
  | .gvMts c sreg ra => Sys2Proof.Machine.execGvMts c sreg ra s
  | .gvFence c => Sys2Proof.Machine.execGvFence c s
  | .gvIfence c => Sys2Proof.Machine.execGvIfence c s
  | .gvWait c => Sys2Proof.Machine.execGvWait c s
  | .gvDi c rd => Sys2Proof.Machine.execGvDi c rd s
  | .gvEi c => Sys2Proof.Machine.execGvEi c s
  | .gvSysc c code => Sys2Proof.Machine.execGvSysc c code s
  | .gvBrk c code => Sys2Proof.Machine.execGvBrk c code s
  | .gvIsqrt c rd ra => Sys2Proof.Machine.execGvIsqrt c rd ra s
  | .gvCrcw c rd ra rb => Sys2Proof.Machine.execGvCrcw c rd ra rb s
  | .gvCrcb c rd ra rb => Sys2Proof.Machine.execGvCrcb c rd ra rb s
  | .gvUop c n rd ra rb imm => Sys2Proof.Machine.execGvUop c n rd ra rb imm s
  | .interruptEntry c gone => Sys2Proof.Machine.execInterruptEntry c gone s
  | .exceptionEntry c => Sys2Proof.Machine.execExceptionEntry c s
  | .controlStoreRepair c word other entry => Sys2Proof.Machine.execControlStoreRepair c word other entry s
  | .imgUcload m v => Sys2Proof.Machine.execImgUcload m v s
  | .ucodeLoadDone sigOk => Sys2Proof.Machine.execUcodeLoadDone sigOk s
  | .imgUcswap m v => Sys2Proof.Machine.execImgUcswap m v s
  | .ucodeSwap quiesce => Sys2Proof.Machine.execUcodeSwap quiesce s
  | .ucodeMirrorDone => Sys2Proof.Machine.execUcodeMirrorDone s
  | .controlStoreScrub found => Sys2Proof.Machine.execControlStoreScrub found s
  | .reelGo m v trig => Sys2Proof.Machine.execReelGo m v trig s
  | .reelAbort m v start done => Sys2Proof.Machine.execReelAbort m v start done s
  | .descriptorFetch c => Sys2Proof.Machine.execDescriptorFetch c s
  | .reelBeat port upset => Sys2Proof.Machine.execReelBeat port upset s
  | .reelBeatResponse c => Sys2Proof.Machine.execReelBeatResponse c s
  | .descriptorComplete c => Sys2Proof.Machine.execDescriptorComplete c s
  | .blkPush m v => Sys2Proof.Machine.execBlkPush m v s
  | .blkGo m v trig => Sys2Proof.Machine.execBlkGo m v trig s
  | .blkJobStart => Sys2Proof.Machine.execBlkJobStart s
  | .blkBurst => Sys2Proof.Machine.execBlkBurst s
  | .blkDeadEnd => Sys2Proof.Machine.execBlkDeadEnd s
  | .blkRowDone => Sys2Proof.Machine.execBlkRowDone s
  | .blkErrorStop => Sys2Proof.Machine.execBlkErrorStop s
  | .blkErrorClear m v => Sys2Proof.Machine.execBlkErrorClear m v s
  | .irqRaise m v => Sys2Proof.Machine.execIrqRaise m v s
  | .irqClr m v => Sys2Proof.Machine.execIrqClr m v s
  | .irqFbWrite m src v => Sys2Proof.Machine.execIrqFbWrite m src v s
  | .coalescerTimeout k => Sys2Proof.Machine.execCoalescerTimeout k s
  | .irqCoalCfgWrite m k v => Sys2Proof.Machine.execIrqCoalCfgWrite m k v s
  | .wakeSlotEvent k => Sys2Proof.Machine.execWakeSlotEvent k s
  | .timerTick n => Sys2Proof.Machine.execTimerTick n s
  | .timerMasterEvent n => Sys2Proof.Machine.execTimerMasterEvent n s
  | .tmrCntRead m n => Sys2Proof.Machine.execTmrCntRead m n s
  | .tmrCntWrite m n v => Sys2Proof.Machine.execTmrCntWrite m n v s
  | .tmrCmpWrite m n v tick => Sys2Proof.Machine.execTmrCmpWrite m n v tick s
  | .timerCapture n => Sys2Proof.Machine.execTimerCapture n s
  | .tmrCapRead m n edge => Sys2Proof.Machine.execTmrCapRead m n edge s
  | .wdgEnable m w v => Sys2Proof.Machine.execWdgEnable m w v s
  | .wdgKey m w v => Sys2Proof.Machine.execWdgKey m w v s
  | .wdgKeyTimeout w => Sys2Proof.Machine.execWdgKeyTimeout w s
  | .wdgWarning w => Sys2Proof.Machine.execWdgWarning w s
  | .wdgExpiry w => Sys2Proof.Machine.execWdgExpiry w s
  | .pllFLoss => Sys2Proof.Machine.execPllFLoss s
  | .clockResume => Sys2Proof.Machine.execClockResume s
  | .pllRevert m v relocked => Sys2Proof.Machine.execPllRevert m v relocked s
  | .beamPllLoss => Sys2Proof.Machine.execBeamPllLoss s
  | .beamPllRelock => Sys2Proof.Machine.execBeamPllRelock s
  | .ref25Loss => Sys2Proof.Machine.execRef25Loss s
  | .audioPllLoss => Sys2Proof.Machine.execAudioPllLoss s
  | .audioPllRelock => Sys2Proof.Machine.execAudioPllRelock s
  | .sleepEntry t => Sys2Proof.Machine.execSleepEntry t s
  | .wakeStart => Sys2Proof.Machine.execWakeStart s
  | .wakeDone => Sys2Proof.Machine.execWakeDone s
  | .supplyOutOfRange => Sys2Proof.Machine.execSupplyOutOfRange s
  | .powerOnReset => Sys2Proof.Machine.execPowerOnReset s
  | .resetRelease => Sys2Proof.Machine.execResetRelease s
  | .resetN => Sys2Proof.Machine.execResetN s
  | .clkSwrst m v => Sys2Proof.Machine.execClkSwrst m v s
  | .gvRelease m v => Sys2Proof.Machine.execGvRelease m v s
  | .boot bootsel okA okB okStaged => Sys2Proof.Machine.execBoot bootsel okA okB okStaged s
  | .clkUploRead m => Sys2Proof.Machine.execClkUploRead m s
  | .verify m src => Sys2Proof.Machine.execVerify m src s
  | .ssverify m => Sys2Proof.Machine.execSsverify m s
  | .verifyDone sigOk badHash => Sys2Proof.Machine.execVerifyDone sigOk badHash s
  | .imgCmdSwap m brk => Sys2Proof.Machine.execImgCmdSwap m brk s
  | .cancel m => Sys2Proof.Machine.execCancel m s
  | .structureSetSwap pairOk => Sys2Proof.Machine.execStructureSetSwap pairOk s
  | .load m src => Sys2Proof.Machine.execLoad m src s
  | .loadDone hashOk sigOk => Sys2Proof.Machine.execLoadDone hashOk sigOk s
  | .updateChunk hop ok f => Sys2Proof.Machine.execUpdateChunk hop ok f s
  | .imgSessionWrite m base v => Sys2Proof.Machine.execImgSessionWrite m base v s
  | .tempConversion temps => Sys2Proof.Machine.execTempConversion temps s
  | .supplySample mv => Sys2Proof.Machine.execSupplySample mv s
  | .adcConversion code => Sys2Proof.Machine.execAdcConversion code s
  | .autoBrightness => Sys2Proof.Machine.execAutoBrightness s
  | .mail hop ok f => Sys2Proof.Machine.execMail hop ok f s
  | .mgtMbinrel m v => Sys2Proof.Machine.execMgtMbinrel m v s
  | .mgtMbsend m v => Sys2Proof.Machine.execMgtMbsend m v s
  | .mailSent slot => Sys2Proof.Machine.execMailSent slot s
  | .mgtHsnap m v => Sys2Proof.Machine.execMgtHsnap m v s
  | .eventStore => Sys2Proof.Machine.execEventStore s
  | .rateLimitTick => Sys2Proof.Machine.execRateLimitTick s
  | .evrTimeWrite m pcyc v => Sys2Proof.Machine.execEvrTimeWrite m pcyc v s
  | .evrCurctl m v => Sys2Proof.Machine.execEvrCurctl m v s
  | .evrWindowLatch => Sys2Proof.Machine.execEvrWindowLatch s
  | .evrWin7Read m => Sys2Proof.Machine.execEvrWin7Read m s
  | .evrLogGo m t v => Sys2Proof.Machine.execEvrLogGo m t v s
  | .lcadv m => Sys2Proof.Machine.execLcadv m s
  | .ownkey m => Sys2Proof.Machine.execOwnkey m s
  | .revoke m => Sys2Proof.Machine.execRevoke m s
  | .dbgkey m => Sys2Proof.Machine.execDbgkey m s
  | .svnset m => Sys2Proof.Machine.execSvnset m s
  | .fleetload m => Sys2Proof.Machine.execFleetload m s
  | .fleetzero m => Sys2Proof.Machine.execFleetzero m s
  | .dbgdrop m => Sys2Proof.Machine.execDbgdrop m s
  | .secCommandDone ok => Sys2Proof.Machine.execSecCommandDone ok s
  | .tamperEvent in0 in1 => Sys2Proof.Machine.execTamperEvent in0 in1 s
  | .secTclr m v => Sys2Proof.Machine.execSecTclr m v s
  | .dbgChal m level => Sys2Proof.Machine.execDbgChal m level s
  | .dbgVerify m => Sys2Proof.Machine.execDbgVerify m s
  | .debugResponseTimeout => Sys2Proof.Machine.execDebugResponseTimeout s
  | .debugLockoutEnd => Sys2Proof.Machine.execDebugLockoutEnd s
  | .debugRead hop ok f => Sys2Proof.Machine.execDebugRead hop ok f s
  | .debugWrite hop ok f => Sys2Proof.Machine.execDebugWrite hop ok f s
  | .debugChal hop ok f => Sys2Proof.Machine.execDebugChal hop ok f s
  | .debugResp hop ok f => Sys2Proof.Machine.execDebugResp hop ok f s
  | .debugVerify hop ok f => Sys2Proof.Machine.execDebugVerify hop ok f s
  | .dbgHalt m c => Sys2Proof.Machine.execDbgHalt m c s
  | .halt c => Sys2Proof.Machine.execHalt c s
  | .dbgRun m c => Sys2Proof.Machine.execDbgRun m c s
  | .dbgRegdata m c write v => Sys2Proof.Machine.execDbgRegdata m c write v s
  | .dbgLdata m c write v => Sys2Proof.Machine.execDbgLdata m c write v s
  | .dbgDrxWrite m c v => Sys2Proof.Machine.execDbgDrxWrite m c v s
  | .dbgTxfullAck m c => Sys2Proof.Machine.execDbgTxfullAck m c s
  | .gpEdge n level => Sys2Proof.Machine.execGpEdge n level s
  | .pinSwitch => Sys2Proof.Machine.execPinSwitch s
  | .pinSwitchHoldEnd n level => Sys2Proof.Machine.execPinSwitchHoldEnd n level s
  | .matchPulseEnd n => Sys2Proof.Machine.execMatchPulseEnd n s
  | .pinRelease m => Sys2Proof.Machine.execPinRelease m s
  | .pinLock m v => Sys2Proof.Machine.execPinLock m v s
  | .pinLockTimeout => Sys2Proof.Machine.execPinLockTimeout s
  | .wakePin => Sys2Proof.Machine.execWakePin s
  | .hi3cAddr cmd addr => Sys2Proof.Machine.execHi3cAddr cmd addr s
  | .hi3cWrite data => Sys2Proof.Machine.execHi3cWrite data s
  | .hi3cMbwrite data => Sys2Proof.Machine.execHi3cMbwrite data s
  | .hi3cMbread slot => Sys2Proof.Machine.execHi3cMbread slot s
  | .hi3cPrivateRead debug n => Sys2Proof.Machine.execHi3cPrivateRead debug n s
  | .hi3cDebugWrite data => Sys2Proof.Machine.execHi3cDebugWrite data s
  | .entdaa main debug => Sys2Proof.Machine.execEntdaa main debug s
  | .setdasa addr dyn => Sys2Proof.Machine.execSetdasa addr dyn s
  | .setnewda target addr => Sys2Proof.Machine.execSetnewda target addr s
  | .rstdaa => Sys2Proof.Machine.execRstdaa s
  | .enec target intr hj => Sys2Proof.Machine.execEnec target intr hj s
  | .disec target intr hj => Sys2Proof.Machine.execDisec target intr hj s
  | .setmwl target len => Sys2Proof.Machine.execSetmwl target len s
  | .setmrl target len => Sys2Proof.Machine.execSetmrl target len s
  | .getmwl target => Sys2Proof.Machine.execGetmwl target s
  | .getmrl target => Sys2Proof.Machine.execGetmrl target s
  | .getpid target => Sys2Proof.Machine.execGetpid target s
  | .getbcr target => Sys2Proof.Machine.execGetbcr target s
  | .getdcr target => Sys2Proof.Machine.execGetdcr target s
  | .getstatus target => Sys2Proof.Machine.execGetstatus target s
  | .getmxds target => Sys2Proof.Machine.execGetmxds target s
  | .enthdr0 => Sys2Proof.Machine.execEnthdr0 s
  | .rstact target action => Sys2Proof.Machine.execRstact target action s
  | .hi3cIbi alert => Sys2Proof.Machine.execHi3cIbi alert s
  | .hotJoin => Sys2Proof.Machine.execHotJoin s
  | .ci3cPrivateWrite m v => Sys2Proof.Machine.execCi3cPrivateWrite m v s
  | .ci3cPrivateRead m v => Sys2Proof.Machine.execCi3cPrivateRead m v s
  | .ci3cBroadcastCcc m v => Sys2Proof.Machine.execCi3cBroadcastCcc m v s
  | .ci3cDirectCcc m v => Sys2Proof.Machine.execCi3cDirectCcc m v s
  | .ci3cEntdaa m v => Sys2Proof.Machine.execCi3cEntdaa m v s
  | .ci3cHdrWrite m v => Sys2Proof.Machine.execCi3cHdrWrite m v s
  | .ci3cHdrRead m v => Sys2Proof.Machine.execCi3cHdrRead m v s
  | .ci3cI2cWrite m v => Sys2Proof.Machine.execCi3cI2cWrite m v s
  | .ci3cI2cRead m v => Sys2Proof.Machine.execCi3cI2cRead m v s
  | .ci3cCommandDone resp count data => Sys2Proof.Machine.execCi3cCommandDone resp count data s
  | .ci3cIbi dev payload => Sys2Proof.Machine.execCi3cIbi dev payload s
  | .ci3cHotjoin => Sys2Proof.Machine.execCi3cHotjoin s
  | .ci3cRxdRead m ibiq => Sys2Proof.Machine.execCi3cRxdRead m ibiq s
  | .xspiCommand m v => Sys2Proof.Machine.execXspiCommand m v s
  | .xspiPoll m v => Sys2Proof.Machine.execXspiPoll m v s
  | .xspiPollRepeat => Sys2Proof.Machine.execXspiPollRepeat s
  | .xspiPollTimeout => Sys2Proof.Machine.execXspiPollTimeout s
  | .xspiDone data => Sys2Proof.Machine.execXspiDone data s
  | .xspiData m write v => Sys2Proof.Machine.execXspiData m write v s
  | .xspiFlush m => Sys2Proof.Machine.execXspiFlush m s
  | .flashRead addr data => Sys2Proof.Machine.execFlashRead addr data s
  | .ueRestore => Sys2Proof.Machine.execUeRestore s
  | .rcRegisterRead m addr event => Sys2Proof.Machine.execRcRegisterRead m addr event s
  | .memoryScrubWord mem upset => Sys2Proof.Machine.execMemoryScrubWord mem upset s
  | .xo32Start => Sys2Proof.Machine.execXo32Start s
  | .ref25Return => Sys2Proof.Machine.execRef25Return s
  | .hdrExit => Sys2Proof.Machine.execHdrExit s
  | .dbgVerifyDone ok => Sys2Proof.Machine.execDbgVerifyDone ok s
  | .trainingVersionAlternate hop => Sys2Proof.Machine.execTrainingVersionAlternate hop s

end Sys2Proof.Machine
end

