-- ==== Sys2Proof/WellFormed.lean ====
section
/-! DEFINITION. Which commands a sender can form: each operand lies in the range that the spec gives the thing it stands for. -/

namespace Sys2Proof

/-- What can be wrong with a command. -/
inductive Defect where
  /-- The port code is none of Table 1.3. -/
  | port
  /-- A register access is of 1, 2 or 4 bytes (R5). -/
  | size
  /-- An address has 32 bits (R4). -/
  | address
  /-- A sub-frame is 0 to 3. -/
  | subframe
  /-- A position has the widths of Table 1.2. -/
  | position
  /-- A request is for one aligned 16-byte word under a mask of 16 bits (R24). -/
  | request
  /-- The fields of a PTP Announce message have the widths of IEEE 1588 (R59). -/
  | announce
  /-- The header has the widths of Table 11.3, and LEN 12 bits. -/
  | frame
  /-- What a split pair compares has the widths of its registers (R66). -/
  | pair
  /-- A word of a march test lies in its bank and is read in one of the steps 2 to 6 of Table 3.1 (R81). -/
  | march
  /-- A list has the length of what it stands for. -/
  | length
  /-- A number has the width of the field it stands for. -/
  | value
deriving DecidableEq, Repr

def Acc.ok (m : Acc) : Bool := decide (m.port < 16)

def BPos.ok (p : BPos) : Bool := decide (p.sf < 4) && decide (p.line < 8192) && decide (p.dot < 16384)

def PortReq.ok (q : PortReq) : Bool :=
  decide (q.addr % 16 = 0) && decide (q.addr < 2 ^ 32) && decide (q.mask < 2 ^ 16) && decide (q.data < 2 ^ 128)

def Announce.ok (a : Announce) : Bool :=
  decide (a.prio1 < 256) && decide (a.clockClass < 256) && decide (a.accuracy < 256) && decide (a.variance < 65536)
    && decide (a.prio2 < 256) && decide (a.identity < 2 ^ 64) && decide (a.steps < 65536) && decide (a.source < 2 ^ 80)

def Frame.ok (f : Frame) : Bool :=
  decide (f.type < 16) && decide (f.sub < 16) && decide (f.ver < 4) && decide (f.dmode < 4) && decide (f.wrap < 4)
    && decide (f.dst < 2 ^ 14) && decide (f.src < 2 ^ 14) && decide (f.seq < 2 ^ 32) && decide (f.rseq < 65536)
    && decide (f.rsrc < 64) && decide (f.data.length < 4096)

def PairView.ok (v : PairView) : Bool :=
  decide (v.pair < 2 ^ 32) && decide (v.active < 2 ^ 32) && decide (v.total < 2 ^ 32) && decide (v.dots < 2 ^ 32)
    && decide (v.subfm1 < 4) && decide (v.num < 2 ^ 32) && decide (v.den < 2 ^ 32)

def MarchRead.ok (r : MarchRead) : Bool := decide (2 ≤ r.step) && decide (r.step ≤ 6) && decide (r.word < 131072)

def sizeOk (n : Nat) : Bool := decide (n = 1) || decide (n = 2) || decide (n = 4)

def check (d : Defect) (b : Bool) : List Defect := if b then [] else [d]

/-- Everything that is wrong with a command. -/
def Instr.defects (i : Instr) : List Defect :=
  match i with
  | .registerWrite m addr size _ _ => check .port (m.ok) ++ check .address (decide (addr < 2 ^ 32)) ++ check .size (sizeOk size)
  | .beamRun m subfm1 => check .port (m.ok) ++ check .subframe (decide (subfm1 < 4))
  | .beamStopRequest m subfm1 => check .port (m.ok) ++ check .subframe (decide (subfm1 < 4))
  | .beamStop => []
  | .frameStart _ => []
  | .beamPosRead m => check .port (m.ok)
  | .beamMatch _ sf => check .subframe (decide (sf < 4))
  | .triggerFire _ sf rep => check .subframe (decide (sf < 4)) ++ check .value (decide (rep < 2 ^ 16))
  | .cotCommit m _ => check .port (m.ok)
  | .commitMark => []
  | .commitGroupApply _ => []
  | .streamWindowUpdate _ reqs => check .request (reqs.all PortReq.ok)
  | .memoryAccess _ _ _ => []
  | .readReturn _ => []
  | .accessTimeout m addr _ => check .port (m.ok) ++ check .address (decide (addr < 2 ^ 32))
  | .eccWriteback word => check .value (decide (word < 2 ^ 32))
  | .scrubWindow found => check .value (found.all fun e => decide (e.1 < 66))
  | .ceWindowEnd => []
  | .mrcCepolWrite m _ => check .port (m.ok)
  | .migrationStart => []
  | .migrationCopy => []
  | .migrationDone => []
  | .mrcReqPreserving m _ => check .port (m.ok)
  | .mrcReqDestroying m _ => check .port (m.ok)
  | .marchTestDone reads => check .march (reads.all MarchRead.ok)
  | .startupMarchDone reads => check .march (reads.all fun r => r.2.ok)
  | .wipeDone => []
  | .beamMarkSend sf line => check .subframe (decide (sf < 4)) ++ check .position (decide (line < 8192))
  | .beamMark _ _ f _ _ => check .frame (f.ok)
  | .delayProbeSend _ _ => []
  | .probe _ _ f _ _ => check .frame (f.ok)
  | .reply _ _ f _ => check .frame (f.ok)
  | .sourceLost => []
  | .holdoverEntry => []
  | .beamStep pos => check .position (pos.ok)
  | .fsyncEdge _ _ _ => []
  | .fsyncLoss => []
  | .ptpSync domain source _ _ _ _ => check .value (decide (domain < 2 ^ 8)) ++ check .value (decide (source < 2 ^ 80))
  | .ptpAnnounce domain data => check .value (decide (domain < 2 ^ 8)) ++ check .announce (data.ok)
  | .ptpDelayReq _ => []
  | .ptpDelayResp domain source _ => check .value (decide (domain < 2 ^ 8)) ++ check .value (decide (source < 2 ^ 80))
  | .ptpLoss => []
  | .fsyncOutPulse sf => check .subframe (decide (sf < 4))
  | .fsyncOutEnd => []
  | .votecut sf => check .subframe (decide (sf < 4))
  | .vote _ _ f => check .frame (f.ok)
  | .voteSend pos => check .position (pos.ok)
  | .voteDecision => []
  | .decision _ _ f => check .frame (f.ok)
  | .pairready _ _ f => check .frame (f.ok)
  | .lineStart => []
  | .lineComposed => []
  | .rasterWrite => []
  | .lineConfirm => []
  | .swap line => check .position (decide (line < 8192))
  | .frameHold _ => []
  | .qdlDisable m => check .port (m.ok)
  | .qdlEnable m => check .port (m.ok)
  | .layerFenceSignal m _ => check .port (m.ok)
  | .lateFenceDeadline _ => []
  | .laneCheckError _ => []
  | .laneErrorWindowEnd => []
  | .qdlLanepolWrite m _ => check .port (m.ok)
  | .engineFrameEntry _ => []
  | .engineOverrun _ => []
  | .beamWord _ _ => []
  | .beamWordV1 _ _ => []
  | .realtimeWaitEnd _ pos => check .position (pos.ok)
  | .syncWaitEnd _ pos => check .position (pos.ok)
  | .ldReturn _ => []
  | .queueStallEnd _ => []
  | .timedWrite pos => check .position (pos.ok)
  | .engineFaultClear m _ => check .port (m.ok)
  | .gflagSet m _ => check .port (m.ok)
  | .gflagClear m _ => check .port (m.ok)
  | .beamStoreWrite m addr _ => check .port (m.ok) ++ check .address (decide (addr < 2 ^ 32))
  | .beamStoreScrub _ => []
  | .unitSend _ => []
  | .unitDelivered _ => []
  | .segmentFetch _ => []
  | .segmentLanded _ => []
  | .gridPoint => []
  | .scanRowStep _ => []
  | .swapCommand => []
  | .storeExchange _ => []
  | .planeSlot _ => []
  | .scanoutPrefetch _ _ _ => []
  | .blankRequest m _ => check .port (m.ok)
  | .blankStart => []
  | .blankEnd => []
  | .pnlCmdCfg m => check .port (m.ok)
  | .pnlCmdGain m _ => check .port (m.ok)
  | .pnlCmdUser m _ => check .port (m.ok)
  | .pnlCommandSend _ => []
  | .pnlMapdata m _ _ => check .port (m.ok)
  | .signatureDecided _ => []
  | .substitutionDone _ => []
  | .pavaneRequest m _ => check .port (m.ok)
  | .pavaneExitRequest m _ => check .port (m.ok)
  | .beamSample tdm => check .length (decide (tdm.length = 4) && tdm.all fun p => decide (p.length ≤ 16))
  | .keyOn m _ _ => check .port (m.ok)
  | .keyOff m _ _ => check .port (m.ok)
  | .nodeWrite m _ => check .port (m.ok)
  | .zcTimeout _ _ => []
  | .voiceFetch _ _ => []
  | .soundBlock => []
  | .soundSamples _ _ f => check .frame (f.ok)
  | .biquadCoefWrite m _ _ _ => check .port (m.ok)
  | .sndKloRead m => check .port (m.ok)
  | .asrcLock _ => []
  | .asrcUnlock _ => []
  | .objectUpdate => []
  | .objMute m _ => check .port (m.ok)
  | .tdmFsEdge _ _ => []
  | .tdmLost _ => []
  | .laneBlockLock _ _ => []
  | .trainingTimeout _ => []
  | .alignDone _ _ => []
  | .hello _ _ f => check .frame (f.ok)
  | .keyx _ _ f _ peer => check .frame (f.ok) ++ check .pair (peer.ok)
  | .keyRetry _ => []
  | .lcbSend _ _ => []
  | .lcb _ _ _ => []
  | .replayTimeout _ => []
  | .frameForward _ _ f => check .frame (f.ok)
  | .censusSend => []
  | .census _ _ f => check .frame (f.ok)
  | .lcbMiss _ => []
  | .pirouetteConfirm _ => []
  | .turnaround _ => []
  | .ringstate _ _ f => check .frame (f.ok)
  | .laneLost _ _ => []
  | .laneCrcWindowEnd _ => []
  | .akethEpolWrite m _ _ => check .port (m.ok)
  | .akethRetrain m _ => check .port (m.ok)
  | .akethLaneRetry m _ => check .port (m.ok)
  | .akethRekey m _ => check .port (m.ok)
  | .ethernetFrame _ _ _ _ dst etype _ f => check .value (decide (dst < 2 ^ 48)) ++ check .value (decide (etype < 2 ^ 16)) ++ check .frame (f.ok)
  | .sceneWrite _ _ f => check .frame (f.ok)
  | .sceneFill _ _ f => check .frame (f.ok)
  | .planeSegment _ _ f => check .frame (f.ok)
  | .gvAdd _ _ _ _ => []
  | .gvSub _ _ _ _ => []
  | .gvAnd _ _ _ _ => []
  | .gvOr _ _ _ _ => []
  | .gvXor _ _ _ _ => []
  | .gvShl _ _ _ _ => []
  | .gvShr _ _ _ _ => []
  | .gvAsr _ _ _ _ => []
  | .gvMul _ _ _ _ => []
  | .gvMulhs _ _ _ _ => []
  | .gvMulhu _ _ _ _ => []
  | .gvDivs _ _ _ _ => []
  | .gvDivu _ _ _ _ => []
  | .gvRems _ _ _ _ => []
  | .gvRemu _ _ _ _ => []
  | .gvAddi _ _ _ _ => []
  | .gvAndi _ _ _ _ => []
  | .gvOri _ _ _ _ => []
  | .gvXori _ _ _ _ => []
  | .gvShli _ _ _ _ => []
  | .gvShri _ _ _ _ => []
  | .gvAsri _ _ _ _ => []
  | .gvMovi _ _ _ => []
  | .gvLui _ _ _ => []
  | .gvLdw _ _ _ _ => []
  | .gvLdh _ _ _ _ => []
  | .gvLdhu _ _ _ _ => []
  | .gvLdb _ _ _ _ => []
  | .gvLdbu _ _ _ _ => []
  | .gvStw _ _ _ _ => []
  | .gvSth _ _ _ _ => []
  | .gvStb _ _ _ _ => []
  | .loadResult _ _ => []
  | .storeResponse _ => []
  | .gvSwapAtomic _ _ _ _ => []
  | .gvCas _ _ _ _ => []
  | .gvFadd _ _ _ _ => []
  | .gvFor _ _ _ _ => []
  | .gvFandn _ _ _ _ => []
  | .atomicResponse _ => []
  | .lockedAccessWithdraw _ => []
  | .gvBr _ _ => []
  | .gvCall _ _ => []
  | .gvJr _ _ => []
  | .gvCallr _ _ => []
  | .gvRet _ => []
  | .gvReti _ => []
  | .gvCsk _ _ _ _ => []
  | .gvCski _ _ _ _ => []
  | .gvTbsk _ _ _ _ => []
  | .gvBfx _ _ _ _ _ _ => []
  | .gvBfi _ _ _ _ _ => []
  | .gvClz _ _ _ => []
  | .gvPerm _ _ _ _ => []
  | .gvMfs _ _ _ => []
  | .gvMts _ _ _ => []
  | .gvFence _ => []
  | .gvIfence _ => []
  | .gvWait _ => []
  | .gvDi _ _ => []
  | .gvEi _ => []
  | .gvSysc _ _ => []
  | .gvBrk _ _ => []
  | .gvIsqrt _ _ _ => []
  | .gvCrcw _ _ _ _ => []
  | .gvCrcb _ _ _ _ => []
  | .gvUop _ _ _ _ _ _ => []
  | .interruptEntry _ _ => []
  | .exceptionEntry _ => []
  | .controlStoreRepair _ _ _ _ => []
  | .imgUcload m _ => check .port (m.ok)
  | .ucodeLoadDone _ => []
  | .imgUcswap m _ => check .port (m.ok)
  | .ucodeSwap _ => []
  | .ucodeMirrorDone => []
  | .controlStoreScrub found => check .length (decide (found.length = 6))
  | .reelGo m _ _ => check .port (m.ok)
  | .reelAbort m _ _ _ => check .port (m.ok)
  | .descriptorFetch _ => []
  | .reelBeat _ _ => []
  | .reelBeatResponse _ => []
  | .descriptorComplete _ => []
  | .blkPush m _ => check .port (m.ok)
  | .blkGo m _ _ => check .port (m.ok)
  | .blkJobStart => []
  | .blkBurst => []
  | .blkDeadEnd => []
  | .blkRowDone => []
  | .blkErrorStop => []
  | .blkErrorClear m _ => check .port (m.ok)
  | .irqRaise m _ => check .port (m.ok)
  | .irqClr m _ => check .port (m.ok)
  | .irqFbWrite m _ _ => check .port (m.ok)
  | .coalescerTimeout _ => []
  | .irqCoalCfgWrite m _ _ => check .port (m.ok)
  | .wakeSlotEvent _ => []
  | .timerTick _ => []
  | .timerMasterEvent _ => []
  | .tmrCntRead m _ => check .port (m.ok)
  | .tmrCntWrite m _ _ => check .port (m.ok)
  | .tmrCmpWrite m _ _ _ => check .port (m.ok)
  | .timerCapture _ => []
  | .tmrCapRead m _ _ => check .port (m.ok)
  | .wdgEnable m _ _ => check .port (m.ok)
  | .wdgKey m _ _ => check .port (m.ok)
  | .wdgKeyTimeout _ => []
  | .wdgWarning _ => []
  | .wdgExpiry _ => []
  | .pllFLoss => []
  | .clockResume => []
  | .pllRevert m _ _ => check .port (m.ok)
  | .beamPllLoss => []
  | .beamPllRelock => []
  | .ref25Loss => []
  | .audioPllLoss => []
  | .audioPllRelock => []
  | .sleepEntry _ => []
  | .wakeStart => []
  | .wakeDone => []
  | .supplyOutOfRange => []
  | .powerOnReset => []
  | .resetRelease => []
  | .resetN => []
  | .clkSwrst m _ => check .port (m.ok)
  | .gvRelease m _ => check .port (m.ok)
  | .boot _ _ _ _ => []
  | .clkUploRead m => check .port (m.ok)
  | .verify m _ => check .port (m.ok)
  | .ssverify m => check .port (m.ok)
  | .verifyDone _ _ => []
  | .imgCmdSwap m _ => check .port (m.ok)
  | .cancel m => check .port (m.ok)
  | .structureSetSwap peer => check .pair (peer.ok)
  | .load m _ => check .port (m.ok)
  | .loadDone _ _ => []
  | .updateChunk _ _ f => check .frame (f.ok)
  | .imgSessionWrite m _ _ => check .port (m.ok)
  | .tempConversion temps => check .length (decide (temps.length = 8))
  | .supplySample mv => check .length (decide (mv.length = 6))
  | .adcConversion _ => []
  | .autoBrightness => []
  | .mail _ _ f => check .frame (f.ok)
  | .mgtMbinrel m _ => check .port (m.ok)
  | .mgtMbsend m _ => check .port (m.ok)
  | .mailSent _ => []
  | .mgtHsnap m _ => check .port (m.ok)
  | .eventStore => []
  | .rateLimitTick => []
  | .evrTimeWrite m _ _ => check .port (m.ok)
  | .evrCurctl m _ => check .port (m.ok)
  | .evrWindowLatch => []
  | .evrWin7Read m => check .port (m.ok)
  | .evrLogGo m _ _ => check .port (m.ok)
  | .lcadv m => check .port (m.ok)
  | .ownkey m => check .port (m.ok)
  | .revoke m => check .port (m.ok)
  | .dbgkey m => check .port (m.ok)
  | .svnset m => check .port (m.ok)
  | .fleetload m => check .port (m.ok)
  | .fleetzero m => check .port (m.ok)
  | .dbgdrop m => check .port (m.ok)
  | .secCommandDone _ => []
  | .tamperEvent _ _ => []
  | .secTclr m _ => check .port (m.ok)
  | .dbgChal m level => check .port (m.ok) ++ check .value (decide (level < 2 ^ 8))
  | .dbgVerify m => check .port (m.ok)
  | .debugResponseTimeout => []
  | .debugLockoutEnd => []
  | .debugRead _ _ f => check .frame (f.ok)
  | .debugWrite _ _ f => check .frame (f.ok)
  | .debugChal _ _ f => check .frame (f.ok)
  | .debugResp _ _ f => check .frame (f.ok)
  | .debugVerify _ _ f => check .frame (f.ok)
  | .dbgHalt m _ => check .port (m.ok)
  | .halt _ => []
  | .dbgRun m _ => check .port (m.ok)
  | .dbgRegdata m _ _ _ => check .port (m.ok)
  | .dbgLdata m _ _ _ => check .port (m.ok)
  | .dbgDrxWrite m _ _ => check .port (m.ok)
  | .dbgTxfullAck m _ => check .port (m.ok)
  | .gpEdge _ _ => []
  | .pinSwitch => []
  | .pinSwitchHoldEnd _ _ => []
  | .matchPulseEnd _ => []
  | .pinRelease m => check .port (m.ok)
  | .pinLock m _ => check .port (m.ok)
  | .pinLockTimeout => []
  | .wakePin => []
  | .hi3cAddr _ addr => check .length (decide (addr.length ≤ 4096))
  | .hi3cWrite data => check .length (decide (data.length ≤ 4096))
  | .hi3cMbwrite data => check .length (decide (data.length ≤ 4096))
  | .hi3cMbread slot => check .value (decide (slot < 2 ^ 8))
  | .hi3cPrivateRead _ _ => []
  | .hi3cDebugWrite data => check .length (decide (data.length ≤ 4096))
  | .entdaa _ _ => []
  | .setdasa _ _ => []
  | .setnewda _ _ => []
  | .rstdaa => []
  | .enec _ _ _ => []
  | .disec _ _ _ => []
  | .setmwl _ len => check .value (decide (len < 2 ^ 16))
  | .setmrl _ len => check .value (decide (len < 2 ^ 16))
  | .getmwl _ => []
  | .getmrl _ => []
  | .getpid _ => []
  | .getbcr _ => []
  | .getdcr _ => []
  | .getstatus _ => []
  | .getmxds _ => []
  | .enthdr0 => []
  | .rstact _ action => check .value (decide (action < 2 ^ 8))
  | .hi3cIbi _ => []
  | .hotJoin => []
  | .ci3cPrivateWrite m _ => check .port (m.ok)
  | .ci3cPrivateRead m _ => check .port (m.ok)
  | .ci3cBroadcastCcc m _ => check .port (m.ok)
  | .ci3cDirectCcc m _ => check .port (m.ok)
  | .ci3cEntdaa m _ => check .port (m.ok)
  | .ci3cHdrWrite m _ => check .port (m.ok)
  | .ci3cHdrRead m _ => check .port (m.ok)
  | .ci3cI2cWrite m _ => check .port (m.ok)
  | .ci3cI2cRead m _ => check .port (m.ok)
  | .ci3cCommandDone _ _ data => check .length (decide (data.length ≤ 4096))
  | .ci3cIbi _ payload => check .length (decide (payload.length ≤ 4096))
  | .ci3cHotjoin => []
  | .ci3cRxdRead m _ => check .port (m.ok)
  | .xspiCommand m _ => check .port (m.ok)
  | .xspiPoll m _ => check .port (m.ok)
  | .xspiPollRepeat => []
  | .xspiPollTimeout => []
  | .xspiDone data => check .length (decide (data.length ≤ 4096))
  | .xspiData m _ _ => check .port (m.ok)
  | .xspiFlush m => check .port (m.ok)
  | .flashRead addr data => check .address (decide (addr < 2 ^ 32)) ++ check .length (decide (data.length ≤ 4096))
  | .ueRestore => []
  | .rcRegisterRead m addr _ => check .port (m.ok) ++ check .address (decide (addr < 2 ^ 32))
  | .memoryScrubWord _ _ => []
  | .xo32Start => []
  | .ref25Return => []
  | .hdrExit => []
  | .dbgVerifyDone _ => []
  | .trainingVersionAlternate _ => []

/-- A command is well formed if nothing is wrong with it. -/
def Instr.wf (i : Instr) : Bool := i.defects.isEmpty

end Sys2Proof
end

