-- ==== Sys2Proof/Safety.lean ====
section
/-! DEFINITION. What counts as a safe run, and the terms that claims about commands are stated in. -/

namespace Sys2Proof.Machine

/-- Command `c` in state `s` answers a next state, of which `P` holds. -/
def Completes (c : Instr) (s : State) (P : State → Prop) : Prop := ∃ t, exec c s = .next t ∧ P t

/-- Every sparse store of the state is in its canonical form: registers, shadows, in-flight copies and the addressed memory. -/
def State.canonical (s : State) : Bool :=
  Sparse.wf RegMap.resetOf s.regs && Sparse.wf RegMap.resetOf s.shadow && Sparse.wf RegMap.resetOf s.latched &&
    Sparse.wf memDefault s.mem

/-- A run of `k` steps is safe if it meets no fault. -/
def SafeRun (k : Nat) (s : State) : Prop := ∀ r, Host.Core.run Sys2Proof.core k s ≠ .fault r

/-- A master that carries no debug attribute and may write `v` to the register at `a` (R89, R451). -/
abbrev MayWrite (m : Acc) (a : Nat) (v : Word) : Prop := m.debug = false ∧ regProt m a true v = false

/-- A master that carries no debug attribute and may read the register at `a`. -/
abbrev MayRead (m : Acc) (a : Nat) : Prop := m.debug = false ∧ regProt m a false 0 = false

/-- Every byte of memory reads as before. -/
def SameMemory (s t : State) : Prop := ∀ k, t.byte k = s.byte k

/-- Every register outside `p` holds the value it held. -/
def SameRegsBut (p : Nat → Prop) (s t : State) : Prop := ∀ a, ¬ p a → t.reg a = s.reg a

/-! Instructions of a core. -/

/-- The instruction whose word is `w` begins on core `c`: the core is at a boundary with that word at its PC, nothing is due there, and no
register that the instruction names is pending (R323, R329). -/
abbrev Begins (c : Nat) (w : Word) (s : State) : Prop :=
  s.boundary c = true ∧ (s.fetchAhead c).wordAt c = (0, w) ∧ (s.fetchAhead c).due c = none ∧ ∀ i ∈ names w, (s.core c).waits i = false

/-- Where a core goes on after an instruction that does not branch: the branch's target in a delay slot, else the next word (R315, R316). -/
def NextPc (c : Nat) (s : State) : Nat :=
  match (s.core c).slot with
  | some (_, b) => b
  | none => ((s.core c).pc + 4) % 2 ^ 32

/-- Core `c` goes on at `pc` with its registers as in `g`; the other cores stand as they stood. -/
def Moved (c : Nat) (g : List Word) (pc : Nat) (s t : State) : Prop :=
  (t.core c).g = g ∧ (t.core c).pc = pc ∧ (t.core c).run = .run ∧ ∀ d, d < 3 → d ≠ c → t.core d = s.core d

/-- `v` is in register `rd` of core `c` and nothing else is written; the core goes on after the instruction. -/
def Wrote (c rd : Nat) (v : Word) (s t : State) : Prop :=
  Moved c ((s.core c).g.set rd v) (NextPc c s) s t ∧ (t.core c).slot = none ∧ SameMemory s t

/-- The result `v` is to come into register `rd` of core `c`, which goes on. -/
def Posted (c rd : Nat) (v : Word) (s t : State) : Prop :=
  Moved c (s.core c).g (NextPc c s) s t ∧ (t.core c).results = (s.core c).results ++ [unitResult rd v] ∧ SameMemory s t

end Sys2Proof.Machine
end

