-- ==== Sys2Proof/Certificates/Slice0/Obligations.lean ====
section
/-! DEFINITION. The statements about the model: what each family of commands does, what it leaves alone, and what every step keeps. -/

open Sys2Proof Sys2Proof.Machine

/-- BEAM_RUN and BEAM_STOP_REQUEST (R19). A write of one to RUN while stopped starts the beam at 0:0 of sub-frame 0 of frame 0 with K = 0 if the
geometry meets Table 1.1, else sets GEOERR and leaves RUN zero; a write of zero while running requests a stop and RUN stays one; a write of one
before the stop withdraws the request; a write of zero while stopped has no effect on the beam.
BEAM_POS_READ (R22). The read returns the position and copies the 64-bit frame counter into BEAM_FRAMELO and BEAM_FRAMEHI; a debug read that
the debug level permits returns the position and takes no copy. All hold while the block has power; without it the answer is OFF (R403). -/
def Obligations.BeamControl : Prop :=
  (∀ (m : Acc) (k : Nat) (s : State), m.debug = false → s.targetOff Reg.BEAM_CTRL = false →
    (s.running = false → s.tableOk = true → Completes (.beamRun m k) s fun t =>
      t.running = true ∧ t.beam.pos = ⟨0, 0, 0⟩ ∧ t.beam.frame = 0 ∧ t.snd.k = 0 ∧ t.beam.stopReq = false) ∧
    (s.running = false → s.tableOk = false → Completes (.beamRun m k) s fun t =>
      t.running = false ∧ t.bit Reg.BEAM_STAT 0 = true ∧ t.beam = s.beam) ∧
    (s.running = true → Completes (.beamRun m k) s fun t => t.running = true ∧ t.beam = { s.beam with stopReq := false }) ∧
    (s.running = true → Completes (.beamStopRequest m k) s fun t => t.running = true ∧ t.beam = { s.beam with stopReq := true }) ∧
    (s.running = false → Completes (.beamStopRequest m k) s fun t => t.running = false ∧ t.beam = s.beam)) ∧
  (∀ (m : Acc) (s : State), s.targetOff Reg.BEAM_POS = false →
    (m.debug = false → Completes (.beamPosRead m) s fun t =>
      t.answer = ⟨0, posWord s.beam.pos⟩ ∧ t.reg Reg.BEAM_FRAMELO = wd s.beam.frame ∧
      t.reg Reg.BEAM_FRAMEHI = wd (s.beam.frame / 2 ^ 32) ∧ t.beam = s.beam ∧
      SameRegsBut (fun a => a = Reg.BEAM_FRAMELO ∨ a = Reg.BEAM_FRAMEHI) s t ∧ SameMemory s t) ∧
    (m.debug = true → s.sec.level ≠ 0 → Completes (.beamPosRead m) s fun t =>
      t.answer = ⟨0, posWord s.beam.pos⟩ ∧ t.beam = s.beam ∧ SameRegsBut (fun _ => False) s t ∧ SameMemory s t)) ∧
  (∀ (m : Acc) (s : State), m.debug = false → s.targetOff Reg.BEAM_CTRL = true → s.targetOff Reg.BEAM_POS = true →
    ∀ (c : Instr) (k : Nat), c = .beamRun m k ∨ c = .beamStopRequest m k ∨ c = .beamPosRead m → Completes c s fun t =>
      t.answer = ⟨6, 0⟩ ∧ t.beam = s.beam ∧ SameMemory s t)

/-- BEAM_STOP and FRAME_START (R19, R20, R425, R525). A requested stop ends the beam at the next 0:0 of sub-frame 0; a swap that changed the beam
restarts it there from frame 0; otherwise the frame counter increments there, and at 0:0 of a later sub-frame the frame counter stays. -/
def Obligations.FrameBoundary : Prop :=
  ∀ (s : State), s.frozen = false → s.running = true →
    (s.beam.stopReq = true → Completes .beamStop s fun t => t.running = false ∧ t.lock = 0) ∧
    (s.beam.stopReq = true → Completes (.frameStart 0) s fun t => t.running = false ∧ t.lock = 0) ∧
    (s.beam.stopReq = false → s.img.restart = true → Completes (.frameStart 0) s fun t =>
      t.running = true ∧ t.beam.frame = 0 ∧ t.beam.pos = ⟨0, 0, 0⟩ ∧ t.img.restart = false) ∧
    (s.beam.stopReq = false → s.img.restart = false → Completes (.frameStart 0) s fun t =>
      t.beam.frame = (s.beam.frame + 1) % 2 ^ 64 ∧ t.beam.pos = ⟨0, 0, 0⟩ ∧ t.beam.counted = 0) ∧
    (∀ sf : Fin 4, sf.val ≠ 0 → sf.val ≤ s.subfm1 → Completes (.frameStart sf) s fun t => t.beam.frame = s.beam.frame)

/-- COT_COMMIT, COMMIT_MARK and COMMIT_GROUP_APPLY (R34, R35, R37, Table 1.6). A commit request marks its groups pending; at the mark every pending group
that is not in flight takes its shadow values into its in-flight copy, its pending bit is cleared and its in-flight bit set, and a group in flight stays
as it is; a group in flight whose block stands at the boundary that Table 1.6 names is applied by its block: at 0:0 of a frame OBJPAR, UNICAST and
TRIGGER, at the first sample of a frame SNDXPT, at the Quadrille's flip point its groups, at an engine's frame entry MNTCTL, and PNLTIM at a swap. -/
def Obligations.CommitGroups : Prop :=
  ∀ (s : State),
    (∀ (m : Acc) (v : Word), m.debug = false → s.targetOff Reg.COT_COMMIT = false → Completes (.cotCommit m v) s fun t =>
      (∀ g, g < 10 → t.bit Reg.COT_PENDING g = (s.bit Reg.COT_PENDING g || bitAt v g)) ∧
      SameRegsBut (fun a => a = Reg.COT_PENDING) s t ∧ SameMemory s t) ∧
    (s.frozen = false → s.running = true → Completes .commitMark s fun t => ∀ g, g < 10 →
      (s.bit Reg.COT_PENDING g = true → s.inFlight g = false →
        t.bit Reg.COT_PENDING g = false ∧ t.inFlight g = true ∧ ∀ a, groupOf a = some g → t.lat a = s.shd a) ∧
      (s.inFlight g = true →
        t.bit Reg.COT_PENDING g = s.bit Reg.COT_PENDING g ∧ t.inFlight g = true ∧ ∀ a, groupOf a = some g → t.lat a = s.lat a)) ∧
    (s.frozen = false → s.beam.pos = ⟨0, 0, 0⟩ →
      (s.inFlight 8 = true → Completes (.commitGroupApply 8) s fun t =>
        t.inFlight 8 = false ∧ (∀ a, groupOf a = some 8 → t.reg a = s.lat a) ∧
        SameRegsBut (fun a => groupOf a = some 8 ∨ a = Reg.COT_INFLIGHT) s t ∧ SameMemory s t) ∧
      (s.inFlight 9 = true → exec (.commitGroupApply 9) s = .next (s.applyPlain 9).judgeTriggers) ∧
      exec (.commitGroupApply 7) s = .next s.applyObjpar) ∧
    (s.frozen = false → s.firstOfFrame s.snd.k = true → exec (.commitGroupApply 6) s = .next s.applySndxpt) ∧
    (s.frozen = false → exec (.commitGroupApply 3) s = .next s.mntEntered ∧ exec (.commitGroupApply 4) s = .next s) ∧
    (∀ g : Fin 10, s.frozen = false → s.atFlipPoint = true → g = 0 ∨ g = 1 ∨ g = 2 ∨ g = 5 →
      exec (.commitGroupApply g) s = .next (s.applyQdlGroup g.val)) ∧
    (s.inFlight 9 = true → (s.applyPlain 9).inFlight 9 = false ∧ ∀ a, groupOf a = some 9 → (s.applyPlain 9).reg a = s.lat a)

/-- BEAM_MATCH, TRIGGER_FIRE and TIMED_WRITE (R23, R32, R33, R170, R174, R486, Table 1.5). An enabled match within the geometry, in its sub-frame where it
names one, fires its interrupt source and its event, and its MATCH output goes high unless PIN_MATCHW is zero; a trigger entry within the geometry, or a
repeat of it on a line of the frame, takes its action, where code 4 sets the Gavotte flag of its argument, one with action NONE changes nothing but where
the beam stands, and a reserved code sets the status bit; of the timed writes due the first is made, and counted if it was issued late. -/
def Obligations.MatchesAndTriggers : Prop :=
  ∀ (s : State), s.frozen = false → s.running = true →
    (∀ (n : Fin 4) (sf : Nat) (p : BPos) (u : State), p = posOf (s.reg (Reg.BEAM_MATCHn n)) →
      s.bit (Reg.BEAM_MATCHn n) 15 = true → s.inGeometry p.line p.dot = true → s.matchBad n = false → sf ≤ s.subfm1 →
      s.bit (Reg.BEAM_MATCHn n) 29 = false ∨ sf = p.sf →
      u = ((s.beamAt ⟨sf, p.line, p.dot⟩).arrive (104 + n.val)).fireEvent (1 + n.val) →
      exec (.beamMatch n sf) s = .next (if u.f Reg.PIN_MATCHW 15 0 = 0 then u
        else { u with pin := { u.pin with matchHi := n.val :: u.pin.matchHi.erase n.val } })) ∧
    (∀ (n : Fin 32) (sf rep line : Nat) (p : BPos), p = posOf (s.reg (Reg.COT_TRGn_POS n)) → s.inGeometry p.line p.dot = true →
      s.inActive p.line p.dot = true → sf ≤ s.subfm1 → line = p.line + rep * s.f (Reg.COT_TRGn_ACT n) 31 16 → line < s.total →
      rep = 0 ∨ s.f (Reg.COT_TRGn_ACT n) 31 16 ≠ 0 →
      exec (.triggerFire n sf rep) s = .next ((s.beamAt ⟨sf, line, p.dot⟩).triggerAct n) ∧
      (s.f (Reg.COT_TRGn_ACT n) 5 0 = 4 → Completes (.triggerFire n sf rep) s fun t =>
        t.bit Reg.MNT_GFLAG (s.f (Reg.COT_TRGn_ACT n) 12 8 % 16) = true ∧ SameRegsBut (fun a => a = Reg.MNT_GFLAG) s t) ∧
      (s.f (Reg.COT_TRGn_ACT n) 5 0 = 0 → Completes (.triggerFire n sf rep) s fun t =>
        t.regs = s.regs ∧ t.mem = s.mem ∧ t.reel = s.reel ∧ t.blk = s.blk) ∧
      (5 ≤ s.f (Reg.COT_TRGn_ACT n) 5 0 → Completes (.triggerFire n sf rep) s fun t => t.bit Reg.COT_STAT 0 = true)) ∧
    (∀ (p : BPos) (u : State), u = s.beamAt p →
      (firstTimed (u.mnt.timed.filter fun w => w.late || instLe (w.frame, w.pos) u.now) = none → exec (.timedWrite p) s = .next u) ∧
      (∀ (w : TimedW) (v : State), firstTimed (u.mnt.timed.filter fun w => w.late || instLe (w.frame, w.pos) u.now) = some w →
        v = ({ u with mnt := { u.mnt with timed := u.mnt.timed.erase w } } : State).makeTimed w →
        exec (.timedWrite p) s = .next (if w.late then (v.count Reg.MNT_TLATE 15 0).mntRaise w.eng 1 else v))) ∧
    (∀ (w : TimedW) (p : BPos), s.mnt.timed = [w] → w.late = true → w.space = 6 → w.addr < 16 → Completes (.timedWrite p) s fun t =>
      t.mnt.timed = [] ∧ t.bit Reg.MNT_GFLAG w.addr = true)

/-- BEAM_STEP, FSYNC_EDGE and FSYNC_LOSS (R55, R57, R58, R171, R525). A station in ACQUIRE with a step due stands at the step's position afterwards; one that
is not the system head takes the frame number of its source, and the head counts the frame. Every edge shows at the FSYNC_IN input; a selected edge
within 25% of the reference period of its instant, at a rate within the capture range, gives the system head its phase error, and one further off sets
FSRANGE. A lost FSYNC sets FSLOSS and takes a LOCKED head to HOLDOVER and one in ACQUIRE to FREE.
FSYNC_OUT_PULSE and FSYNC_OUT_END (R60). The pin goes high at the position of BEAM_FSOUT and low one line period later. -/
def Obligations.StudioSync : Prop :=
  (∀ (s : State), s.frozen = false →
    (∀ p : BPos, s.running = true → s.beam.stepDue = true → s.lock = 1 → Completes (.beamStep p) s fun t =>
      t.beam.pos = p ∧ t.beam.stepDue = false ∧ t.beam.frame = (if s.isHead then s.beam.frame + 1 else s.beam.srcFrame) % 2 ^ 64) ∧
    (∀ (r : Bool) (own : Nat) (rate : Int), Completes (.fsyncEdge r own rate) s fun t => t.mnt.fsync = r) ∧
    (∀ (r : Bool) (own : Nat) (rate e : Int), s.isHead = true → s.f Reg.BEAM_LOCKCTL 1 0 = 1 → s.running = true → s.fsyncSelected r = true →
      e = s.refError own 0 →
      (4 * absI e ≤ ((s.refFrames * s.framePs : Nat) : Int) → absI rate ≤ 1000000 →
        Completes (.fsyncEdge r own rate) s fun t => t.reg Reg.BEAM_PHERR = wi e ∧ t.beam.srcRate = rate ∧ t.mnt.fsync = r) ∧
      (((s.refFrames * s.framePs : Nat) : Int) < 4 * absI e → Completes (.fsyncEdge r own rate) s fun t =>
        t.bit Reg.BEAM_WSTAT 2 = true ∧ t.beam = s.beam)) ∧
    (s.isHead = true → s.f Reg.BEAM_LOCKCTL 1 0 = 1 → Completes .fsyncLoss s fun t => t.bit Reg.BEAM_WSTAT 1 = true ∧
      (s.lock = 2 → t.lock = 3 ∧ t.bit Reg.BEAM_WSTAT 4 = true) ∧ (s.lock = 1 → t.lock = 0))) ∧
  (∀ (s : State), s.frozen = false →
    (∀ sf : Nat, s.fsoutFires sf = true → Completes (.fsyncOutPulse sf) s fun t => t.beam.fsyncOut = true ∧ t.regs = s.regs ∧ t.mem = s.mem) ∧
    Completes .fsyncOutEnd s (fun t => t.beam.fsyncOut = false ∧ t.regs = s.regs ∧ t.mem = s.mem))

/-- BEAM_MARK_SEND and BEAM_MARK (R49, R50, R52, R54, R55). At dot 0 of a line that is a multiple of 16 the system head sends a mark with its frame
counter, the position, CORR 0, HOPS 0 and the offset of its own beam on every hop down the tree. A mark that the hop takes with fewer than 192 HOPS is
noted for its port and used if it comes from the source; one not forwarded before goes on with the link delay and residence added to CORR and one hop
more, on every such hop but the one it came on; one with more HOPS is discarded. A mark within the capture range that is used takes a FREE station to
ACQUIRE and gives it the head's rate.
PTP_ANNOUNCE, PTP_SYNC, PTP_DELAY_REQ, PTP_DELAY_RESP and PTP_LOSS (R59). In the time-receiver's domain the best Announce selects its sender; a
Sync of the selected master sets the two times; a Delay_Req is sent and its time kept; the response gives the mean path delay; the loss of the master
sets its status bit and takes a LOCKED head to HOLDOVER. -/
def Obligations.MarksAndPtp : Prop :=
  (∀ (s : State), s.frozen = false →
    (∀ (sf line : Nat) (p : BPos) (m : Mark) (u : State), s.pwr.state < 3 → s.isHead = true → s.running = true → line % 16 = 0 → line < s.total →
      sf ≤ s.subfm1 → p = ⟨sf, line, 0⟩ → m = ⟨s.beam.frame, p, 0, 0, decide (s.lock = 3), decide (s.lock = 2), -s.freqTerm⟩ →
      u = { s with beam := { s.beam with pos := p, dotAcc := 0, seen := (s.beam.frame, p) :: s.beam.seen } } →
      exec (.beamMarkSend sf line) s = .next (u.spreadHops.foldl (fun t h => t.sendRecord h 0 m.bytes) u)) ∧
    (∀ (h : Hop) (ok : Bool) (f : Frame) (own : Int) (r : Nat) (m : Mark) (u n v w : State), s.takeRecord 0 h ok f = (true, u) → m = f.mark →
      n = u.noteHops h (some m.hops) → v = (if n.sourceHop = some h then n.useMark h m own else n) →
      w = { v with beam := { v.beam with seen := (m.frame, m.pos) :: v.beam.seen } } →
      (192 ≤ m.hops → exec (.beamMark h ok f own r) s = .next u) ∧
      (m.hops < 192 → (m.frame, m.pos) ∈ u.beam.seen → exec (.beamMark h ok f own r) s = .next v) ∧
      (m.hops < 192 → (m.frame, m.pos) ∉ u.beam.seen → u.pwr.state < 3 → exec (.beamMark h ok f own r) s =
        .next ((w.spreadHops.filter fun g => decide (g ≠ h)).foldl (fun t g => t.sendRecord g 0 (w.passedMark h m r).bytes) w))) ∧
    (∀ (h : Hop) (ok : Bool) (f : Frame) (own : Int) (r : Nat) (u : State), s.takeRecord 0 h ok f = (false, u) →
      exec (.beamMark h ok f own r) s = .next u) ∧
    (∀ (h : Hop) (m : Mark) (own : Int), absI m.rate ≤ 1000000 → (s.useMark h m own).reg Reg.BEAM_CORR = wd m.corr ∧
      (s.useMark h m own).beam.srcRate = m.rate ∧ (s.lock = 0 → (s.useMark h m own).lock = 1)) ∧
    (∀ (h : Hop) (m : Mark) (r : Nat), s.passedMark h m r = { m with
      corr := (m.corr + s.f (linkDlyReg h) 23 0 + r) % 2 ^ 32, hops := m.hops + 1, hold := m.hold || decide (s.lock = 3) })) ∧
  (∀ (s : State) (d : Nat), s.frozen = false → s.ptpOn d = true →
    (∀ a : Announce, s.beam.ptpBest = none → Completes (.ptpAnnounce d a) s fun t => t.beam.ptpBest = some a) ∧
    (∀ a b : Announce, s.beam.ptpBest = some b → exec (.ptpAnnounce d a) s =
      .next (if a.source = b.source ∨ annBetter a b = true then { s with beam := { s.beam with ptpBest := some a } } else s)) ∧
    (∀ (a : Announce) (t1 t2 : Int) (own : Nat) (rate : Int), s.beam.ptpBest = some a → Completes (.ptpSync d a.source t1 t2 own rate) s fun t =>
      t.beam.ptpT1 = t1 ∧ t.beam.ptpT2 = t2) ∧
    (∀ (a : Announce) (t3 : Int), s.beam.ptpBest = some a → Completes (.ptpDelayReq t3) s fun t =>
      t.beam.ptpT3 = t3 ∧ t.out = s.out ++ [.delayReq (s.f Reg.BEAM_LOCKCTL 8 8) t3]) ∧
    (∀ (a : Announce) (t4 : Int), s.beam.ptpBest = some a → Completes (.ptpDelayResp d a.source t4) s fun t =>
      t.beam.ptpDelay = (s.beam.ptpT2 - s.beam.ptpT1 + (t4 - s.beam.ptpT3)) / 2) ∧
    Completes .ptpLoss s (fun t => t.beam.ptpBest = none ∧ t.bit Reg.BEAM_WSTAT 3 = true ∧ (s.lock = 2 → t.lock = 3)))

/-- DELAY_PROBE_SEND, PROBE and REPLY (R51). A probe leaves with its time on a hop that is UP and, where the hop takes it, is answered with the three
times; a reply puts the mean link delay of the last 16 probes, this one among them, into the hop's register.
SOURCE_LOST and HOLDOVER_ENTRY (R52, R54). A station whose source is lost changes to another port that delivers marks, and notes the change, without a
change of state; with none left one in ACQUIRE goes to FREE. A LOCKED station without marks or reference goes to HOLDOVER, sets its status bit, and
BEAM_CTRL.LOCK reads zero. -/
def Obligations.BeamSources : Prop :=
  (∀ (s : State) (h : Hop) (ok : Bool) (f : Frame) (t1 t2 t3 t4 : Int), s.frozen = false →
    (s.hopUp h = true → exec (.delayProbeSend h t1) s = .next (s.sendRecord h 1 (psBytes t1))) ∧
    (∀ u, s.takeRecord 1 h ok f = (true, u) → exec (.probe h ok f t2 t3) s =
      .next (u.sendRecord h 2 (psBytes (f.ps 0) ++ psBytes t2 ++ psBytes t3))) ∧
    (∀ u, s.takeRecord 1 h ok f = (false, u) → exec (.probe h ok f t2 t3) s = .next u) ∧
    (∀ (u : State) (l : List Int), s.takeRecord 2 h ok f = (true, u) →
      l = (((t4 - f.ps 0 - (f.ps 16 - f.ps 8)) / 2 + sext 16 (u.f (asymReg h) 15 0)) :: u.delaysOf h).take 16 →
      Completes (.reply h ok f t4) s fun t =>
      t.f (linkDlyReg h) 23 0 = (l.foldl (· + ·) 0 / (l.length : Int) % 2 ^ 24).toNat ∧ t.delaysOf h = l ∧
      SameRegsBut (fun a => a = linkDlyReg h) u t ∧ SameMemory u t) ∧
    (∀ u, s.takeRecord 2 h ok f = (false, u) → exec (.reply h ok f t4) s = .next u)) ∧
  (∀ (s : State), s.frozen = false →
    (∀ (h h2 : Hop) (u : State), s.sourceHop = some h → u = s.noteHops h none → u.sourceHop = some h2 → h2 ≠ h →
      Completes .sourceLost s fun t => t.beam = { u.beam with switched := true } ∧ t.f Reg.BEAM_LOCKSTAT 3 2 = srcCode (some h2) ∧
        t.bit Reg.BEAM_WSTAT 8 = true ∧ t.lock = s.lock) ∧
    (∀ (h : Hop) (u : State), s.sourceHop = some h → u = s.noteHops h none → u.sourceHop = none ∨ u.sourceHop = some h →
      Completes .sourceLost s fun t => t.beam = u.beam ∧ (s.lock = 1 → t.lock = 0) ∧ (s.lock ≠ 1 → t = u)) ∧
    (s.lock = 2 → s.headFree = false → Completes .holdoverEntry s fun t =>
      t.lock = 3 ∧ t.bit Reg.BEAM_CTRL 8 = false ∧ t.bit Reg.BEAM_WSTAT 4 = true ∧ t.beam = s.beam))

/-- VOTECUT, VOTE, VOTE_SEND, VOTE_DECISION, DECISION and PAIRREADY (R62 to R64, R67). A station that has not voted casts HOLD at the cut; a record of the
present sub-frame that the hop takes in time is merged, and one of another sub-frame, or that comes after the station's own has left, is only counted in
BEAM_VOTELATE; the merged record leaves on the source hop once, when all votes are in or its latest instant has come; the system head decides GO only if
every counted station is ready and their number is SWAPCNT; a decision for the present sub-frame that comes by SWAPSTART:0 is held and passed on, and one
for a sub-frame that has passed is discarded; the partner's position is kept. -/
def Obligations.WallVote : Prop :=
  ∀ (s : State), s.frozen = false →
    (∀ sf : Nat, s.wallMode = true → s.running = true → s.beam.vote = none → Completes (.votecut sf) s fun t => t.beam.vote = some false) ∧
    (∀ (sf : Nat) (v : Bool), s.wallMode = true → s.running = true → s.beam.vote = some v → Completes (.votecut sf) s fun t => t.beam.vote = some v) ∧
    (∀ (h : Hop) (ok : Bool) (f : Frame) (u : State), s.takeRecord 3 h ok f = (true, u) →
      (u.beam.sent = false → f.le 0 8 = u.beam.frame → f.le 8 1 % 4 = u.beam.pos.sf → Completes (.vote h ok f) s fun t =>
        t.beam = { u.beam with counted := u.beam.counted + f.le 10 2 % 2 ^ 15, ready := u.beam.ready + f.le 12 2 % 2 ^ 15, heard := u.beam.heard ++ [h] } ∧
        t.regs = u.regs) ∧
      (u.beam.sent = true ∨ f.le 0 8 ≠ u.beam.frame ∨ f.le 8 1 % 4 ≠ u.beam.pos.sf → Completes (.vote h ok f) s fun t => t.beam = u.beam ∧
        t.f Reg.BEAM_VOTELATE 15 0 = sat 65535 (u.f Reg.BEAM_VOTELATE 15 0 + 1))) ∧
    (∀ (h : Hop) (pos : BPos) (u : State), s.wallMode = true → s.running = true → s.beam.sent = false → s.sourceHop = some h →
      s.votesIn = true ∨ s.voteDue { pos with sf := s.beam.pos.sf } = true →
      u = { s with beam := { s.beam with pos := { pos with sf := s.beam.pos.sf }, dotAcc := 0, sent := true } } →
      exec (.voteSend pos) s = .next (u.sendRecord h 3 (voteBytes s.beam.frame s.beam.pos.sf s.mergedVotes.1 s.mergedVotes.2))) ∧
    (∀ (p : BPos) (u : State), s.isHead = true → s.wallMode = true → s.running = true → p = posOf (s.reg Reg.BEAM_VOTEDEC) →
      u = { s with beam := { s.beam with pos := ⟨s.beam.pos.sf, p.line, p.dot⟩, dotAcc := 0, sent := true } } →
      exec .voteDecision s = .next (u.holdDecision s.beam.frame s.beam.pos.sf
        (decide (s.mergedVotes.1 = s.f Reg.BEAM_SWAPCNT 14 0) && decide (s.mergedVotes.2 = s.mergedVotes.1)) none)) ∧
    (∀ (h : Hop) (ok : Bool) (f : Frame) (u : State) (n k : Nat), s.takeRecord 4 h ok f = (true, u) → n = f.le 0 8 → k = f.le 8 1 % 4 →
      (u.beam.frame < n ∨ (n = u.beam.frame ∧ u.beam.pos.sf ≤ k) → exec (.decision h ok f) s = .next (u.holdDecision n k ((f.le 8 1).testBit 7) (some h))) ∧
      (n < u.beam.frame ∨ (n = u.beam.frame ∧ k < u.beam.pos.sf) → exec (.decision h ok f) s = .next u)) ∧
    (∀ (h : Hop) (ok : Bool) (f : Frame) (u : State) (p : BPos), s.takeRecord 5 h ok f = (true, u) → p = posOfNat (f.le 8 4) → u.beam.paired = true →
      h = ringHop (u.f Reg.BEAM_PAIR 18 18) → f.le 0 8 = u.beam.frame → p.sf = u.beam.pos.sf → Completes (.pairready h ok f) s fun t =>
        t.beam = { u.beam with partnerPos := some p } ∧ t.regs = u.regs) ∧
    (∀ (h : Hop) (ok : Bool) (f : Frame) (u : State),
      (s.takeRecord 3 h ok f = (false, u) → exec (.vote h ok f) s = .next u) ∧ (s.takeRecord 4 h ok f = (false, u) → exec (.decision h ok f) s = .next u) ∧
      (s.takeRecord 5 h ok f = (false, u) → exec (.pairready h ok f) s = .next u)) ∧
    (∀ (sf : Nat) (go : Bool) (src : Option Hop), atOrBefore s.beam.pos ⟨sf, s.f Reg.BEAM_SWAPSTART 12 0, 0⟩ = true → sf = s.beam.pos.sf →
      s.downHops.filter (fun h => decide (some h ≠ src)) = [] → (s.holdDecision s.beam.frame sf go src).beam.decision = some go)

/-- MEMORY_ACCESS (R24, R25, R29, R72, R74, R82, R89). The request that the slot table and the classes choose is served, and its word done; with none eligible,
or during the start-up march, nothing is served. A word read for a port that alone has a request at the bank is answered with the word as it is stored; a
word written takes the bytes its mask enables and no others; a read that meets an uncorrectable word is answered with code UE and data zero, and sets
MRC_STAT.UE. Nothing else in memory changes. -/
def Obligations.MemoryAccess : Prop :=
  (∀ (k : Fin 256) (b : Fin 32) (x : Upset) (s v : State), v = s.roundStart k.val →
    (v.fab.marching = true → exec (.memoryAccess k b x) s = .next v) ∧
    (v.fab.marching = false → v.grant k.val b.val = none → exec (.memoryAccess k b x) s = .next v) ∧
    (∀ (p : Pend) (best : Bool) (u : State), v.fab.marching = false → v.grant k.val b.val = some (p, best) →
      u = v.upset (p.req.addr / 16 * 16) x → exec (.memoryAccess k b x) s = .next (State.serve p
        (if best then { u with fab := { u.fab with rr := Sparse.set (fun _ => 15) u.fab.rr b.val p.port } } else u)))) ∧
  (∀ (k : Fin 256) (b : Fin 32) (q : PortReq) (port wa : Nat) (s : State), s.fab.marching = false → s.img.slotDue = false → port < 16 →
    bankOf q.addr = b.val → wa = q.addr / 16 * 16 → s.fab.pend = [⟨port, q, false⟩] → s.bankBusy (bankOf wa) = false → s.mark wa = .none →
    (q.write = false → s.regionAllows port wa false = true → Completes (.memoryAccess k b .none) s fun t =>
      t.fab.pend = [⟨port, q, true⟩] ∧ t.fab.rets = s.fab.rets ++ [⟨port, wa, 0, s.le wa 16⟩] ∧ SameRegsBut (fun _ => False) s t ∧ SameMemory s t) ∧
    (q.write = true → s.regionAllows port wa true = true → s.stagingLocked port wa = false → Completes (.memoryAccess k b .none) s fun t =>
      t.fab.pend = [⟨port, q, true⟩] ∧ t.fab.rets = s.fab.rets ++ [⟨port, wa, 0, 0⟩] ∧
      (∀ i, i < 16 → t.byte (wa + i) = if q.mask.testBit i then BitVec.ofNat 8 (q.data / 256 ^ i) else s.byte (wa + i)) ∧
      (∀ a, a < wa ∨ wa + 16 ≤ a → t.byte a = s.byte a)) ∧
    (q.write = false → s.regionAllows port wa false = true → Completes (.memoryAccess k b .double) s fun t =>
      t.fab.rets = s.fab.rets ++ [⟨port, wa, 4, 0⟩] ∧ t.bit Reg.MRC_STAT 1 = true ∧ SameMemory s t))

/-- STREAM_WINDOW_UPDATE, READ_RETURN and ACCESS_TIMEOUT (R27, R30, R71, R90, R91). A port's window retires the completed words at its head and admits the
requests presented; ports BLK, GV0, GV1, MGT and MRC are never urgent; the oldest answer of a port reaches it; an access outside main SRAM, and not to
secure SRAM while it is wiped, that is not answered in time is answered with code TIMEOUT and captured, or sets ERROVF where an error is held. -/
def Obligations.WindowsAndAnswers : Prop :=
  ∀ (s : State),
    (∀ (port : Fin 16) (rs : List PortReq), Completes (.streamWindowUpdate port rs) s fun t =>
      t.fab.pend = retire port.val s.fab.pend ++ (rs.filter fun r => inSram r.addr).map (fun r => ⟨port.val, r, false⟩) ∧
      SameRegsBut (fun _ => False) s t ∧ SameMemory s t) ∧
    (∀ port pair : Nat, port = 9 ∨ port = 10 ∨ port = 11 ∨ port = 14 ∨ port = 15 → s.urgent port pair = false) ∧
    (∀ (port : Fin 16) (r : Ret), s.fab.rets.find? (fun r => decide (r.port = port.val)) = some r → Completes (.readReturn port) s fun t =>
      t.answer = ⟨r.code, wd r.data⟩ ∧ t.fab.rets = s.fab.rets.erase r ∧ t.out = s.out ++ [.ret r.port r.addr r.code r.data]) ∧
    (∀ port : Fin 16, s.fab.rets.find? (fun r => decide (r.port = port.val)) = none → exec (.readReturn port) s = .next s) ∧
    (∀ (m : Acc) (a : Nat) (w : Bool), inSram a = true ∨ (s.fab.wiping = true ∧ 0x30000000 ≤ a ∧ a < 0x30040000) →
      exec (.accessTimeout m a w) s = .next s) ∧
    (∀ (m : Acc) (a : Nat) (w : Bool), inSram a = false → s.fab.wiping = false ∨ a < 0x30000000 ∨ 0x30040000 ≤ a → Completes (.accessTimeout m a w) s fun t =>
      t.answer = ⟨2, 0⟩ ∧ SameMemory s t ∧
      (s.bit Reg.MRC_ERRINFO 31 = false → t.reg Reg.MRC_ERRADDR = wd a ∧ t.f Reg.MRC_ERRINFO 2 0 = 2 ∧ t.f Reg.MRC_ERRINFO 7 4 = m.port % 16 ∧
        t.bit Reg.MRC_ERRINFO 8 = w ∧ t.bit Reg.MRC_ERRINFO 31 = true) ∧
      (s.bit Reg.MRC_ERRINFO 31 = true → t.bit Reg.MRC_STAT 8 = true ∧ t.reg Reg.MRC_ERRADDR = s.reg Reg.MRC_ERRADDR))

/-- ECC_WRITEBACK, SCRUB_WINDOW, CE_WINDOW_END, MRC_CEPOL_WRITE, MEMORY_SCRUB_WORD and UE_RESTORE (R73, R75, R76, R85, R502). A corrected word lands with good check
bits unless a write has cancelled it; a scrub window and a scrub of another memory go on to the next words, whatever they find; the end of a window, and a
write of MRC_CEPOL, clear every correction count; none of these changes a byte of memory. An uncorrectable word captured in MRC_ERRINFO whose copy is in
flash is written whole from it and taken off the capture. -/
def Obligations.EccAndScrub : Prop :=
  ∀ (s : State),
    (∀ w, w ∈ s.fab.wb → Completes (.eccWriteback w) s fun t => t.mark w = .none ∧ w ∉ t.fab.wb ∧ SameMemory s t) ∧
    (∀ w, w ∉ s.fab.wb → exec (.eccWriteback w) s = .next s) ∧
    (∀ found : List (Nat × Upset), s.bit Reg.MRC_CTRL 0 = true → s.f Reg.MRC_SCRUB 15 0 ≠ 0 → s.pwr.state < 2 → s.fab.marching = false →
      Completes (.scrubWindow found) s fun t => t.fab.scrub = (s.fab.scrub + 1) % 131072 ∧ SameMemory s t) ∧
    Completes .ceWindowEnd s (fun t => (∀ q, q < 40 → t.f (Reg.MRC_CECNTq q) 7 0 = 0) ∧
      SameRegsBut (fun a => ∃ q, q < 40 ∧ a = Reg.MRC_CECNTq q) s t ∧ SameMemory s t) ∧
    (∀ (m : Acc) (v : Word), m.debug = false → s.targetOff Reg.MRC_CEPOL = false → Completes (.mrcCepolWrite m v) s fun t =>
      (∀ q, q < 40 → t.f (Reg.MRC_CECNTq q) 7 0 = 0) ∧ t.f Reg.MRC_CEPOL 7 0 = fld v 7 0 ∧ t.f Reg.MRC_CEPOL 31 16 = fld v 31 16 ∧ SameMemory s t) ∧
    (∀ (mem : Fin 6) (x : Upset) (i : Nat), mem.val = 2 ∨ s.pwr.state < 2 → s.pwr.memScrub[mem.val]? = some i →
      Completes (.memoryScrubWord mem x) s fun t =>
        t.pwr.memScrub[mem.val]? = some ((i + 1) % ((memSpan mem.val).2.1 / (memSpan mem.val).2.2)) ∧ SameMemory s t) ∧
    (∀ (x : Section) (e k : Nat) (m : Acc), s.bit Reg.MRC_ERRINFO 31 = true → s.f Reg.MRC_ERRINFO 2 0 = 4 → k = s.f Reg.IMG_BOOT 3 2 + 1 → k < 3 →
      m = ⟨14, false, false, false⟩ → e = (s.reg Reg.MRC_ERRADDR).toNat →
      (inSram e = true → s.homeSection k (e / 16 * 16) 16 = some x →
        exec .ueRestore s = .next ((s.busWrite m (e / 16 * 16) (s.srcBytes k (x.offset + (e / 16 * 16 - x.dest)) 16)).2.setBit Reg.MRC_ERRINFO 31 false) ∧
        Completes .ueRestore s fun t => t.bit Reg.MRC_ERRINFO 31 = false) ∧
      (∀ bs : List Byte, inSram e = false → 0x20000000 ≤ e → e < 0x20020000 → s.homeSection k (e / 8 * 8) 8 = some x →
        bs = s.srcBytes k (x.offset + (e / 8 * 8 - x.dest)) 8 →
        exec .ueRestore s = .next (((s.busWrite m (e / 8 * 8) (bs.take 4)).2.busWrite m (e / 8 * 8 + 4) (bs.drop 4)).2.setBit Reg.MRC_ERRINFO 31 false)))

/-- MRC_REQ_PRESERVING, MRC_REQ_DESTROYING and MIGRATION_START (R77, R80, R83, R84). A preserving request to an idle engine with a free spare starts the
copy of the bank to the spare; a destroying request makes the bank busy; a request to an engine that is not idle, or for want of a spare, is refused with
MRC_STAT bit 4; when no job runs the first queued migration whose source still carries a bank starts, and mirrors writes of that bank.
MIGRATION_COPY, MIGRATION_DONE, MARCH_TEST_DONE, STARTUP_MARCH_DONE and WIPE_DONE (R77 to R79, R81 to R84, R86). A copy takes the word read to the
destination, unless a write has cancelled it, and the next word is read; after the last copy the destination serves the bank and what it holds is what the
bank reads, the migration of a preserving test is followed by the march, and the one back by its end; a destroying test leaves the bank zero, and a
preserving test that passes is followed by the migration back; the banks that fail the start-up march are served by the good spares, and boot stops where
they do not suffice; a wipe ends. -/
def Obligations.March : Prop :=
  (∀ (m : Acc) (b : Fin 32) (s : State), m.debug = false → s.targetOff Reg.MRC_REQ = false →
    (∀ x, s.engineIdle = true → s.freeSpare = some x → Completes (.mrcReqPreserving m b) s fun t =>
      t.fab.job = some ⟨.migrateOut, false, b.val, s.phys b.val, x, true, 0, some (0, false)⟩ ∧ t.mirrored b.val = true ∧ t.phys b.val = s.phys b.val ∧ SameMemory s t) ∧
    (s.engineIdle = true → s.freeSpare = none → Completes (.mrcReqPreserving m b) s fun t => t.bit Reg.MRC_STAT 4 = true ∧ t.fab = s.fab) ∧
    (s.engineIdle = true → Completes (.mrcReqDestroying m b) s fun t => t.bankBusy b.val = true ∧ SameMemory s t) ∧
    (s.engineIdle = false →
      Completes (.mrcReqPreserving m b) s (fun t => t.bit Reg.MRC_STAT 4 = true ∧ t.fab = s.fab) ∧
      Completes (.mrcReqDestroying m b) s (fun t => t.bit Reg.MRC_STAT 4 = true ∧ t.fab = s.fab))) ∧
  (∀ (s : State),
    (s.fab.job = none → exec .migrationStart s = .next (s.startQueued s.fab.jobs)) ∧
    (∀ (j : Job) (rest : List Job) (l : Nat), s.fab.job = none → s.fab.jobs = j :: rest → s.carried j.src = some l → Completes .migrationStart s fun t =>
      t.fab.jobs = rest ∧ t.fab.job = some { j with lbank := l, started := true, copied := 0, read := some (0, false) } ∧ t.mirrored l = true) ∧
    (∀ (j : Job) (i : Nat) (c : Bool), s.fab.job = some j → j.read = some (i, c) → Completes .migrationCopy s fun t =>
      t.fab.job = some { j with copied := i + 1, read := if i + 1 < 131072 then some (i + 1, false) else none } ∧ SameMemory s t ∧
      (c = false → ∀ n, n < 16 → Sparse.get memDefault t.fab.dest (bankWord j.lbank i + n) = s.byte (bankWord j.lbank i + n)) ∧
      (c = true → t.fab.dest = s.fab.dest)) ∧
    (∀ j : Job, s.fab.job = some j → j.started = true → j.copied = 131072 → j.read = none → j.lbank < 32 → j.dst < 34 → j.step ≠ .test →
      Completes .migrationDone s fun t =>
        t.phys j.lbank = j.dst ∧ t.mirrored j.lbank = false ∧
        (j.step = .spare → t.fab.job = none ∧ t.bit Reg.MRC_STAT 7 = true) ∧
        (j.step = .migrateOut → t.fab.job = some { j with step := .test, started := false, copied := 0 }) ∧
        (j.step = .migrateBack → t.fab.job = none ∧ t.bit Reg.MRC_STAT 6 = true) ∧
        (∀ k, inBank j.lbank k = true → t.byte k = Sparse.get memDefault s.fab.dest k)) ∧
    (∀ (j : Job) (reads : List MarchRead), s.fab.job = some j → j.step = .test →
      (j.destroying = true → Completes (.marchTestDone reads) s fun t =>
        t.fab.job = none ∧ t.bit Reg.MRC_STAT 6 = true ∧ (reads.any readWrong = true → t.bit Reg.MRC_STAT 5 = true) ∧
        (∀ k, inBank j.lbank k = true → t.byte k = 0) ∧ (∀ k, inBank j.lbank k = false → t.byte k = s.byte k)) ∧
      (j.destroying = false → reads.any readWrong = true → Completes (.marchTestDone reads) s fun t =>
        t.fab.job = none ∧ t.bit Reg.MRC_STAT 5 = true ∧ t.bit Reg.MRC_STAT 6 = true ∧ SameMemory s t) ∧
      (j.destroying = false → reads.any readWrong = false → j.lbank < 32 → Completes (.marchTestDone reads) s fun t =>
        t.fab.job = some ⟨.migrateBack, false, j.lbank, j.dst, j.src, true, 0, some (0, false)⟩ ∧ t.mirrored j.lbank = true ∧ SameMemory s t)) ∧
    (∀ (reads : List (Fin 34 × MarchRead)) (bad banks spares : List Nat), s.fab.marching = true →
      bad = (List.range 34).filter (fun q => reads.any fun r => decide (r.1.val = q) && readWrong r.2) → banks = bad.filter (fun q => decide (q < 32)) →
      spares = [32, 33].filter (fun q => !bad.contains q) → Completes (.startupMarchDone reads) s fun t => t.fab.marching = false ∧
        (banks.length ≤ spares.length → t.fab.bootStopped = s.fab.bootStopped) ∧
        (spares.length < banks.length → t.fab.bootStopped = true ∧ t.pin.alert = true) ∧
        (s.fab.held = [] → (∀ k, t.byte k = if inSram k then 0 else s.byte k) ∧ (∀ q ∈ bad, t.bit (Reg.MRC_CECNTq q) 9 = true) ∧
          (∀ (i b x : Nat), banks[i]? = some b → spares[i]? = some x → t.phys b = x))) ∧
    (s.fab.wiping = true → Completes .wipeDone s fun t => t.fab.wiping = false ∧ t.fab.stalled = [] ∧ (s.fab.stalled = [] → SameMemory s t)))

/-- QDL_ENABLE, QDL_DISABLE, QDL_LANEPOL_WRITE, LANE_CHECK_ERROR, LANE_ERROR_WINDOW_END, LAYER_FENCE_SIGNAL and LATE_FENCE_DEADLINE (R142, R143, R151,
R503, R505). Turning composition on makes it wait for a commit mark, and turning it off discards every frame in composition; a span error squashes the line
in composition and is counted for its lane, and the count that reaches the threshold retires the lane; a write of the policy or the end of the window
clears the counts; a fence signalled with no late fence open is set, one already set stays as it is, and one signalled while a late fence is open makes a
late flip; a late fence still open at its deadline is resolved without a flip.
LINE_START, LINE_COMPOSED, LINE_CONFIRM and RASTER_WRITE (R122, R139, R144, R145, R148). A line starts when composition is on, its commit mark has passed,
its lead is within 64 lines, its ring slot is free and the raster log has room, and the next line follows it; else none starts. The oldest line in
composition becomes composed, and a line that nothing holds back becomes confirmed; the oldest raster write issued enters the raster queue. -/
def Obligations.Quadrille : Prop :=
  (∀ (m : Acc) (s : State), m.debug = false →
    (s.targetOff Reg.QDL_CTRL = false →
      (s.bit Reg.QDL_CTRL 0 = false → Completes (.qdlEnable m) s fun t =>
        t.bit Reg.QDL_CTRL 0 = true ∧ t.qdl.waitMark = true ∧ t.qdl.active = false ∧ SameMemory s t) ∧
      (s.bit Reg.QDL_CTRL 0 = true → Completes (.qdlEnable m) s fun t => t.qdl = s.qdl ∧ t.regs = s.regs ∧ SameMemory s t) ∧
      (s.bit Reg.QDL_CTRL 0 = true → Completes (.qdlDisable m) s fun t =>
        t.bit Reg.QDL_CTRL 0 = false ∧ t.qdl.frames = [] ∧ t.qdl.active = false ∧ t.qdl.waitMark = false) ∧
      (s.bit Reg.QDL_CTRL 0 = false → Completes (.qdlDisable m) s fun t => t.qdl = s.qdl ∧ t.regs = s.regs ∧ SameMemory s t)) ∧
    (∀ v : Word, s.targetOff Reg.QDL_LANEPOL = false → Completes (.qdlLanepolWrite m v) s fun t =>
      t.reg Reg.QDL_LANEERR = 0 ∧ t.f Reg.QDL_LANEPOL 7 0 = fld v 7 0 ∧ t.f Reg.QDL_LANEPOL 31 16 = fld v 31 16 ∧ SameMemory s t) ∧
    (∀ n : Fin 12, s.targetOff (Reg.LAYn_FENCE n.val) = false →
      (s.bit (Reg.LAYn_FENCE n.val) 0 = true → Completes (.layerFenceSignal m n) s fun t => t.bit (Reg.LAYn_FENCE n.val) 0 = true ∧
        t.bit (Reg.LAYn_FENCE n.val) 1 = s.bit (Reg.LAYn_FENCE n.val) 1 ∧ t.qdl = s.qdl ∧ SameMemory s t) ∧
      (s.bit (Reg.LAYn_FENCE n.val) 0 = false → (s.layer n.val).lateOpen = [] ∨ s.streamed n.val = true → Completes (.layerFenceSignal m n) s fun t =>
        t.bit (Reg.LAYn_FENCE n.val) 0 = true ∧ t.bit (Reg.LAYn_FENCE n.val) 1 = s.bit (Reg.LAYn_FENCE n.val) 1 ∧ t.qdl = s.qdl ∧ SameMemory s t) ∧
      (∀ (k : Nat) (rest : List Nat), s.bit (Reg.LAYn_FENCE n.val) 0 = false → (s.layer n.val).lateOpen = k :: rest → s.streamed n.val = false →
        s.qdl.lines = [] →
        (s.bankOk n.val (1 - s.front n.val) = true → Completes (.layerFenceSignal m n) s fun t =>
          (t.layer n.val).lateOpen = [] ∧ t.f (Reg.LAYn_BANK n.val) 0 0 = 1 - s.front n.val ∧ t.bit (Reg.LAYn_BANK n.val) 2 = true) ∧
        (s.bankOk n.val (1 - s.front n.val) = false → Completes (.layerFenceSignal m n) s fun t =>
          (t.layer n.val).lateOpen = [] ∧ t.f (Reg.LAYn_BANK n.val) 0 0 = s.f (Reg.LAYn_BANK n.val) 0 0 ∧ SameMemory s t)))) ∧
  (∀ (s : State), s.frozen = false →
    Completes .laneErrorWindowEnd s (fun t => t.reg Reg.QDL_LANEERR = 0 ∧ SameRegsBut (fun a => a = Reg.QDL_LANEERR) s t ∧ SameMemory s t) ∧
    (∀ (l : Fin 4) (u : State),
      u = (match s.qdl.lines.find? (fun x => !x.composed) with | some x => s.squash x.key | none => s) → Completes (.laneCheckError l) s fun t =>
        t.f Reg.QDL_LANEERR (8 * l.val + 7) (8 * l.val) = sat 255 (u.f Reg.QDL_LANEERR (8 * l.val + 7) (8 * l.val) + 1) ∧ t.qdl = u.qdl ∧ t.mem = u.mem ∧
        (u.f Reg.QDL_LANEPOL 7 0 ≠ 0 → u.f Reg.QDL_LANEPOL 31 16 ≠ 0 → u.f Reg.QDL_LANEERR (8 * l.val + 7) (8 * l.val) + 1 = u.f Reg.QDL_LANEPOL 7 0 →
          t.bit Reg.QDL_LANE (4 + l.val) = true ∧ (u.bit Reg.QDL_LANE (4 + l.val) = false → t.bit Reg.QDL_LANE l.val = false)) ∧
        (u.f Reg.QDL_LANEPOL 7 0 = 0 ∨ u.f Reg.QDL_LANEPOL 31 16 = 0 → t.reg Reg.QDL_LANE = u.reg Reg.QDL_LANE)) ∧
    (∀ n : Fin 12,
      (∀ (past later : List Nat) (k : Nat), (s.layer n.val).lateOpen.partition (fun m => decide (m ≤ s.beam.frame)) = (k :: past, later) →
        Completes (.lateFenceDeadline n) s fun t =>
          (t.layer n.val).lateOpen = later ∧ (t.layer n.val).lateGone = some k ∧ SameMemory s t) ∧
      ((s.layer n.val).lateOpen.filter (fun m => decide (m ≤ s.beam.frame)) = [] → exec (.lateFenceDeadline n) s = .next s)) ∧
    (∀ (f sf y slot addr : Nat) (u v : State) (q : QFrame), f = s.qdl.frame → sf = s.qdl.sf → y = s.qdl.next →
      s.bit Reg.QDL_CTRL 0 = true → s.qdl.active = true → s.running = true → f = 0 ∨ (∃ k, s.qdl.mark = some k ∧ f ≤ k + 1) →
      s.leadOf (f, sf, y) ≤ 64 → y < s.lines → u = (if y = 0 then s.openFrame f sf else s) → u.frameOf f sf = some q →
      slot = (if y = 0 ∧ u.qdl.ringKey ≠ ((q.reg Reg.QDL_CLBASE).toNat, q.f Reg.QDL_CLLINES 8 0, q.stride) then 0
        else if q.f Reg.QDL_CLLINES 8 0 = 0 then 0 else u.qdl.ringNext % q.f Reg.QDL_CLLINES 8 0) →
      addr = (q.reg Reg.QDL_CLBASE).toNat + slot * q.stride → (u.qdl.lines.any fun l => decide (l.addr = addr) && u.slotHeld l) = false →
      u.qdl.log.length + (u.qdl.queue.filter fun w => keyLe (u.effect w) (f, sf, y)).length ≤ 512 → v = u.applyLine (f, sf, y) →
      Completes .lineStart s fun t =>
        t.qdl.lines = v.qdl.lines ++ [⟨f, sf, y, slot, addr, false, false, none, [], false⟩] ∧ t.regs = v.regs ∧ t.mem = v.mem ∧
        (y + 1 < s.lines → t.qdl.next = y + 1 ∧ t.qdl.frame = f ∧ t.qdl.sf = sf) ∧
        (s.lines ≤ y + 1 → t.qdl.next = 0 ∧ (t.qdl.frame, t.qdl.sf) = u.nextSub f sf)) ∧
    (s.bit Reg.QDL_CTRL 0 = false ∨ s.qdl.active = false ∨ s.running = false ∨ 64 < s.leadOf (s.qdl.frame, s.qdl.sf, s.qdl.next) ∨ s.lines ≤ s.qdl.next ∨
      (s.qdl.frame ≠ 0 ∧ ∀ k, s.qdl.mark = some k → k + 1 < s.qdl.frame) → exec .lineStart s = .next s) ∧
    (∀ (l : QLine) (q : QFrame), s.qdl.lines.find? (fun x => !x.composed) = some l → s.frameOf l.frame l.sf = some q →
      Completes .lineComposed s fun t => ∀ x ∈ t.qdl.lines, x.key = l.key → x.composed = true) ∧
    (s.qdl.lines.find? (fun x => !x.composed) = none → exec .lineComposed s = .next s) ∧
    (∀ (l : QLine) (q : QFrame), s.qdl.lines.find? (fun x => !x.confirmed && s.mayConfirm x) = some l → s.frameOf l.frame l.sf = some q →
      Completes .lineConfirm s fun t => ∀ x ∈ t.qdl.lines, x.key = l.key → x.confirmed = true) ∧
    (s.qdl.lines.find? (fun x => !x.confirmed && s.mayConfirm x) = none → exec .lineConfirm s = .next s) ∧
    (∀ (w : RasterW) (rest : List RasterW), s.mnt.issued = w :: rest → Completes .rasterWrite s fun t =>
      t.mnt.issued = rest ∧ t.qdl.queue = s.qdl.queue ++ [w]) ∧
    (s.mnt.issued = [] → exec .rasterWrite s = .next s))

/-- SWAP and FRAME_HOLD (R64, R67, R149 to R151). At a line of the swap window at which the frame may swap (complete in LOCAL mode, with a decision GO at
BEAM_SWAPSTART in WALL mode, and 256 ns after the later confirmation of a pair) the frame is shown and QDL_SWAPS counts it; at any other line nothing
but the beam's position changes. A frame still there at the deadline is held, counted in QDL_HOLDS, and QDL_STAT.HOLD is set with the cause; in WALL mode
the hold is the wall's or, without a decision, a missed one; where no frame is due nothing is counted. -/
def Obligations.SwapOrHold : Prop :=
  ∀ (s : State), s.frozen = false →
    (∀ (y : Nat) (q : QFrame) (u : State), u = s.beamAt ⟨s.beam.pos.sf, y, 0⟩ → u.head = some q →
      (u.swapAt q y = true → Completes (.swap y) s fun t =>
        t.reg Reg.QDL_SWAPS = s.reg Reg.QDL_SWAPS + 1 ∧ t.qdl.shown = some (q.frame, q.sf) ∧ q ∉ t.qdl.frames ∧
        t.f Reg.QDL_HOLDS 15 0 = s.f Reg.QDL_HOLDS 15 0) ∧
      (u.swapAt q y = false → exec (.swap y) s = .next u)) ∧
    (∀ (y : Nat) (u : State), u = s.beamAt ⟨s.beam.pos.sf, y, 0⟩ → u.head = none → exec (.swap y) s = .next u) ∧
    (∀ (y : Nat) (q : QFrame) (d : BPos), s.running = true → (q.frame, q.sf) = (s.beam.frame, s.beam.pos.sf) → s.beam.pairBad = false →
      d = posOf (s.reg Reg.BEAM_DEADLINE) → s.f Reg.BEAM_SWAPSTART 12 0 ≤ y → y ≤ d.line →
      (s.wallMode = false → s.beam.paired = false → s.swapAt q y = s.frameComplete q) ∧
      (s.wallMode = true → s.swapAt q y = (decide (y = s.f Reg.BEAM_SWAPSTART 12 0) && decide (s.beam.decision = some true))) ∧
      (s.wallMode = false → s.beam.paired = true → s.swapAt q y = (s.frameComplete q && s.pairDue y))) ∧
    (∀ (lane : Fin 4) (q : QFrame) (u : State),
      u = s.beamAt ⟨s.beam.pos.sf, (posOf (s.reg Reg.BEAM_DEADLINE)).line, (posOf (s.reg Reg.BEAM_DEADLINE)).dot⟩ → s.running = true →
      (u.dueFrame = some q → Completes (.frameHold lane) s fun t =>
        t.f Reg.QDL_HOLDS 15 0 = sat 65535 (s.f Reg.QDL_HOLDS 15 0 + 1) ∧ t.bit Reg.QDL_STAT 0 = true ∧ t.qdl.shown = s.qdl.shown ∧
        t.reg Reg.QDL_SWAPS = s.reg Reg.QDL_SWAPS ∧
        (s.wallMode = true → s.beam.decision = some false → t.f Reg.BEAM_WHOLDS 15 0 = sat 65535 (s.f Reg.BEAM_WHOLDS 15 0 + 1)) ∧
        (s.wallMode = true → s.beam.decision = none →
          t.f Reg.BEAM_WHOLDS 31 16 = sat 65535 (s.f Reg.BEAM_WHOLDS 31 16 + 1) ∧ t.bit Reg.BEAM_WSTAT 7 = true) ∧
        (s.wallMode = false ∨ s.beam.decision = some true → t.reg Reg.BEAM_WHOLDS = s.reg Reg.BEAM_WHOLDS)) ∧
      (u.dueFrame = none → exec (.frameHold lane) s = .next u)) ∧
    (∀ (lane : Fin 4) (u : State),
      u = s.beamAt ⟨s.beam.pos.sf, (posOf (s.reg Reg.BEAM_DEADLINE)).line, (posOf (s.reg Reg.BEAM_DEADLINE)).dot⟩ → s.running = false →
      exec (.frameHold lane) s = .next u)

/-- BEAM_WORD and BEAM_WORD_V1 (R162 to R166, R168, R178, R179, R181, R182). A running engine fetches the word at its PC and executes it; a single error
is corrected and counted, an uncorrectable word is fault 7, a word over the budget is fault 4 and is not executed, and an engine that is not ready
executes nothing. With no wait, no write and NEXT a datapath operation puts its result into m[RD] with Z and N, the PC goes on by one and the word is
counted; END ends the frame; a reserved next-address code is fault 1; the other codes jump, call, return and index. A wait for a position or for lines
moves the engine position, never back; a position outside the geometry ends the frame with POSRANGE; a wait on a real-time input that does not hold
waits, and one on another input is fault 2. A v1 engine's LDC loads its counter, JMP jumps, and DJNZ counts down. -/
def Obligations.BeamWords : Prop :=
  ∀ (e : Fin 8) (s : State), s.frozen = false → s.mnt.engines.length = 8 →
    (∀ (x : Upset) (k : Nat) (u : State), k = beamStore + 16 * (s.engPc e.val % 16384) → u = s.upset k x →
      (s.engReady e.val false = false → exec (.beamWord e x) s = .next s) ∧
      (s.engReady e.val false = true → s.overBudget e.val = true → exec (.beamWord e x) s = .next (s.engFault e.val 4) ∧
        Completes (.beamWord e x) s fun t => t.engState e.val = 5 ∧ t.f (Reg.MNT_ENGe_STAT e.val) 7 4 = 4 ∧ t.bit Reg.MNT_STAT 4 = true ∧
          t.engPc e.val = s.engPc e.val) ∧
      (s.engReady e.val false = true → s.overBudget e.val = false →
        (u.mark k = .double → exec (.beamWord e x) s = .next (u.engFault e.val 7)) ∧
        (u.mark k = .none → exec (.beamWord e x) s = .next (u.engWait e.val (u.le k 16))) ∧
        (u.mark k = .single → exec (.beamWord e x) s = .next (((u.count Reg.MNT_BSCE 15 0).mntRaise e.val 2).engWait e.val (u.le k 16))))) ∧
    (∀ (x : Upset) (k : Nat) (u : State), k = beamStore + 16 * (s.engPc e.val / 2 % 16384) → u = s.upset k x →
      (s.engReady e.val true = false → exec (.beamWordV1 e x) s = .next s) ∧
      (s.engReady e.val true = true → s.overBudget e.val = true → exec (.beamWordV1 e x) s = .next (s.engFault e.val 4)) ∧
      (s.engReady e.val true = true → s.overBudget e.val = false →
        (u.mark k = .double → exec (.beamWordV1 e x) s = .next (u.engFault e.val 7)) ∧
        (u.mark k = .none → exec (.beamWordV1 e x) s = .next (u.v1Step e.val (u.le k 16 / 2 ^ (64 * (s.engPc e.val % 2)) % 2 ^ 64))) ∧
        (u.mark k = .single → exec (.beamWordV1 e x) s =
          .next (((u.count Reg.MNT_BSCE 15 0).mntRaise e.val 2).v1Step e.val (u.le k 16 / 2 ^ (64 * (s.engPc e.val % 2)) % 2 ^ 64))))) ∧
    (∀ (w : Nat) (p : BPos), s.overBudget e.val = false → s.engReady e.val false = true → s.mark (beamStore + 16 * (s.engPc e.val % 16384)) = .none →
      w = s.le (beamStore + 16 * (s.engPc e.val % 16384)) 16 → bw w 86 84 = 0 → p = (s.eng e.val).pos →
      (∀ (d : Nat) (b v : Word), bw w 127 125 = 0 → d = bw w 100 97 → d ≠ 0 → d ≠ 13 → d ≠ 15 → bw w 117 115 = 0 →
        b = (if w.testBit 87 then wd (bw w 63 32) else s.mreg e.val (bw w 90 88)) → v = datapath d (s.mreg e.val (bw w 93 91)) b (posWord p) →
        Completes (.beamWord e .none) s fun t =>
          t.mreg e.val (bw w 96 94) = v ∧ t.bit (Reg.MNT_ENGe_STAT e.val) 14 = decide (v = 0) ∧ t.bit (Reg.MNT_ENGe_STAT e.val) 15 = bitAt v 31 ∧
          t.engPc e.val = (s.engPc e.val + 1) % 16384 ∧ t.engState e.val = 1 ∧
          t.f (Reg.MNT_ENGe_WORDS e.val) 23 0 = (s.f (Reg.MNT_ENGe_WORDS e.val) 23 0 + 1) % 2 ^ 24 ∧ SameMemory s t) ∧
      (bw w 127 125 = 0 → bw w 100 97 = 0 →
        (bw w 117 115 = 1 → Completes (.beamWord e .none) s fun t => t.engState e.val = 1 ∧ t.engPc e.val = bw w 114 101) ∧
        (bw w 117 115 = 2 → realTime (bwCsel w) = false → Completes (.beamWord e .none) s fun t => t.engState e.val = 1 ∧
          t.engPc e.val = if s.bwCond e.val w then bw w 114 101 else (s.engPc e.val + 1) % 16384) ∧
        (bw w 117 115 = 3 → (s.eng e.val).stack.length < 8 → Completes (.beamWord e .none) s fun t => t.engState e.val = 1 ∧
          t.engPc e.val = bw w 114 101 ∧ (t.eng e.val).stack = (s.engPc e.val + 1) % 16384 :: (s.eng e.val).stack) ∧
        (∀ (a : Nat) (rest : List Nat), bw w 117 115 = 4 → (s.eng e.val).stack = a :: rest → a < 16384 → Completes (.beamWord e .none) s fun t =>
          t.engState e.val = 1 ∧ t.engPc e.val = a ∧ (t.eng e.val).stack = rest) ∧
        (bw w 117 115 = 3 → 8 ≤ (s.eng e.val).stack.length → Completes (.beamWord e .none) s fun t =>
          t.engState e.val = 5 ∧ t.f (Reg.MNT_ENGe_STAT e.val) 7 4 = 3) ∧
        (bw w 117 115 = 5 → Completes (.beamWord e .none) s fun t => t.engState e.val = 1 ∧
          t.engPc e.val = (bw w 114 101 + fld (s.mreg e.val (bw w 93 91)) 5 0) % 16384) ∧
        (bw w 117 115 = 6 → Completes (.beamWord e .none) s fun t => t.engState e.val = 4) ∧
        (bw w 117 115 = 7 → Completes (.beamWord e .none) s fun t =>
          t.engState e.val = 5 ∧ t.f (Reg.MNT_ENGe_STAT e.val) 7 4 = 1 ∧ t.bit Reg.MNT_STAT 4 = true)) ∧
      (bw w 100 97 = 0 → bw w 117 115 = 0 →
        (∀ q : BPos, bw w 127 125 = 1 → q = bwPos w →
          (s.posBad q = false → Completes (.beamWord e .none) s fun t => t.engState e.val = 1 ∧ (t.eng e.val).pos = if posLt p q then q else p) ∧
          (s.posBad q = true → Completes (.beamWord e .none) s fun t => t.engState e.val = 4 ∧ t.bit (Reg.MNT_ENGe_STAT e.val) 9 = true)) ∧
        (∀ q r : BPos, bw w 127 125 = 2 → q = bwPos w → q.dot < s.dots →
          (s.linesOn p q.line q.dot = some r → Completes (.beamWord e .none) s fun t => t.engState e.val = 1 ∧ (t.eng e.val).pos = if posLt p r then r else p) ∧
          (s.linesOn p q.line q.dot = none → Completes (.beamWord e .none) s fun t => t.engState e.val = 4)) ∧
        (bw w 127 125 = 3 → s.bwCond e.val w = false →
          (realTime (bwCsel w) = true → Completes (.beamWord e .none) s fun t => t.engState e.val = 2 ∧ (t.eng e.val).stage = .cond w) ∧
          (realTime (bwCsel w) = false → Completes (.beamWord e .none) s fun t => t.engState e.val = 5 ∧ t.f (Reg.MNT_ENGe_STAT e.val) 7 4 = 2)) ∧
        (bw w 127 125 = 5 → instLe ((s.eng e.val).frame, p) s.now = false → Completes (.beamWord e .none) s fun t =>
          t.engState e.val = 2 ∧ (t.eng e.val).stage = .sync w) ∧
        (bw w 127 125 = 6 → p.sf < s.subfm1 → Completes (.beamWord e .none) s fun t => t.engState e.val = 1 ∧ (t.eng e.val).pos = ⟨p.sf + 1, 0, 0⟩))) ∧
    (∀ w : Nat, s.overBudget e.val = false → s.engReady e.val true = true → s.mark (beamStore + 16 * (s.engPc e.val / 2 % 16384)) = .none →
      w = s.le (beamStore + 16 * (s.engPc e.val / 2 % 16384)) 16 / 2 ^ (64 * (s.engPc e.val % 2)) % 2 ^ 64 →
      (bw w 63 60 = 11 → bw w 59 56 ≤ 3 → Completes (.beamWordV1 e .none) s fun t =>
        t.mreg e.val (bw w 59 56) = wd (bw w 31 0) ∧ t.engPc e.val = (s.engPc e.val + 1) % 32768) ∧
      (bw w 63 60 = 8 → Completes (.beamWordV1 e .none) s fun t =>
        t.engPc e.val = (bw w 55 32 % 32768 + 2 * s.f (Reg.MNT_ENGe_START e.val) 13 0) % 32768) ∧
      (bw w 63 60 = 10 → bw w 59 56 ≤ 3 → Completes (.beamWordV1 e .none) s fun t =>
        t.mreg e.val (bw w 59 56) = s.mreg e.val (bw w 59 56) - 1 ∧
        t.engPc e.val = (if s.mreg e.val (bw w 59 56) = 1 then s.engPc e.val + 1
          else bw w 55 32 % 32768 + 2 * s.f (Reg.MNT_ENGe_START e.val) 13 0) % 32768))

/-- REALTIME_WAIT_END, SYNC_WAIT_END, LD_RETURN and QUEUE_STALL_END (R162, R163, R165, R167, R168, R173). A wait whose condition holds, or whose position the
beam has reached, ends: with no operation, no write and NEXT the engine runs on at the next word, with TOUT set where the position ended it; a sampled jump
is made at the engine position; a load puts the word read into m[RD], and an error response is fault 6; a stalled raster write is issued at the engine
position once its share has room. A command that meets no such wait changes nothing but where the beam stands.
ENGINE_FRAME_ENTRY, ENGINE_OVERRUN and ENGINE_FAULT_CLEAR (R158, R159, R179). An engine that has ended frame n, or is off, enters frame n + 1 once frame n's
mark has passed, at 0:0 of sub-frame 0, running at its start word if it is enabled; an engine still in frame n when the beam is past it sets OVERRUN;
clearing FAULT takes a faulted engine to OFF. -/
def Obligations.EnginesWaitAndRun : Prop :=
  (∀ (e : Fin 8) (w : Nat) (s : State), s.frozen = false →
    (∀ (p : BPos) (u : State), u = s.beamAt p → s.bit (Reg.MNT_ENGe_CTRL e.val) 1 = false → bw w 117 115 = 0 → bw w 100 97 = 0 → bw w 86 84 = 0 →
      ((u.eng e.val).stage = .cond w →
        (u.bwCond e.val w = true → Completes (.realtimeWaitEnd e p) s fun t => t.engState e.val = 1 ∧ t.engPc e.val = (s.engPc e.val + 1) % 16384) ∧
        (u.bwCond e.val w = false → bw w 127 125 = 4 → instLe ((u.eng e.val).frame, bwPos w) u.now = true → Completes (.realtimeWaitEnd e p) s fun t =>
          t.engState e.val = 1 ∧ t.engPc e.val = (s.engPc e.val + 1) % 16384 ∧ t.bit (Reg.MNT_ENGe_STAT e.val) 16 = true) ∧
        (u.bwCond e.val w = false → bw w 127 125 ≠ 4 ∨ instLe ((u.eng e.val).frame, bwPos w) u.now = false → exec (.realtimeWaitEnd e p) s = .next u)) ∧
      ((u.eng e.val).stage = .sync w →
        (instLe ((u.eng e.val).frame, (u.eng e.val).pos) u.now = true → Completes (.syncWaitEnd e p) s fun t =>
          t.engState e.val = 1 ∧ t.engPc e.val = (s.engPc e.val + 1) % 16384) ∧
        (instLe ((u.eng e.val).frame, (u.eng e.val).pos) u.now = false → exec (.syncWaitEnd e p) s = .next u))) ∧
    (∀ (p : BPos) (u : State), u = s.beamAt p → (u.eng e.val).stage = .sample w → bw w 117 115 = 2 →
      instLe ((u.eng e.val).frame, (u.eng e.val).pos) u.now = true → Completes (.realtimeWaitEnd e p) s fun t =>
        t.engState e.val = 1 ∧ t.engPc e.val = if u.bwCond e.val w then bw w 114 101 else (s.engPc e.val + 1) % 16384) ∧
    (∀ (p : BPos) (u : State), u = s.beamAt p → (u.eng e.val).stage = .cond w → s.bit (Reg.MNT_ENGe_CTRL e.val) 1 = true →
      (u.bit Reg.MNT_GFLAG (bw w 59 56) = true → Completes (.realtimeWaitEnd e p) s fun t =>
        t.engState e.val = 1 ∧ t.engPc e.val = (s.engPc e.val + 1) % 32768) ∧
      (u.bit Reg.MNT_GFLAG (bw w 59 56) = false → exec (.realtimeWaitEnd e p) s = .next u)) ∧
    (∀ (p : BPos) (u : State), u = s.beamAt p → (u.eng e.val).stage = .ready →
      exec (.realtimeWaitEnd e p) s = .next u ∧ exec (.syncWaitEnd e p) s = .next u ∧ exec (.ldReturn e) s = .next s ∧ exec (.queueStallEnd e) s = .next s) ∧
    (∀ (a : Nat) (c : Option Bool), (s.eng e.val).stage = .load w a c →
      ((s.portRead 13 a 4).1 = 0 → bw w 117 115 = 0 → bw w 86 84 = 0 → Completes (.ldReturn e) s fun t =>
        t.mreg e.val (bw w 96 94) = leWord (s.portRead 13 a 4).2.1 ∧ t.engPc e.val = (s.engPc e.val + 1) % 16384) ∧
      ((s.portRead 13 a 4).1 ≠ 0 → exec (.ldReturn e) s = .next ((s.portRead 13 a 4).2.2.engFault e.val 6) ∧
        Completes (.ldReturn e) s fun t => t.engState e.val = 5 ∧ t.f (Reg.MNT_ENGe_STAT e.val) 7 4 = 6)) ∧
    (∀ c : Option Bool, (s.eng e.val).stage = .stall w c → s.bit (Reg.MNT_ENGe_CTRL e.val) 1 = false →
      (s.shareFull e.val (bw w 86 84) = true → exec (.queueStallEnd e) s = .next s) ∧
      (s.shareFull e.val (bw w 86 84) = false →
        exec (.queueStallEnd e) s = .next (((s.setStage e.val .ready).setEngState e.val 1).engWrite e.val w c)) ∧
      (∀ r : Nat, bw w 117 115 = 0 → bw w 86 84 = 1 → rasterTarget 1 (bw w 83 68) = some r → w.testBit 67 = true → s.shareFull e.val 1 = false →
        Completes (.queueStallEnd e) s fun t =>
          t.mnt.issued = s.mnt.issued ++ [⟨e.val, s.mnt.seq, (s.eng e.val).frame, (s.eng e.val).pos.sf, (s.eng e.val).pos.line,
            (s.eng e.val).pos.dot, r, wd (bw w 63 32)⟩] ∧ t.engPc e.val = (s.engPc e.val + 1) % 16384)) ∧
    (∀ c : Option Bool, (s.eng e.val).stage = .stall w c → s.bit (Reg.MNT_ENGe_CTRL e.val) 1 = true →
      (s.shareFull e.val 1 = true → exec (.queueStallEnd e) s = .next s) ∧
      (s.shareFull e.val 1 = false → exec (.queueStallEnd e) s = .next (((s.setStage e.val .ready).setEngState e.val 1).v1Step e.val w)))) ∧
  (∀ (e : Fin 8) (s : State), s.mnt.engines.length = 8 →
    (s.frozen = false → s.engState e.val = 0 ∨ s.engState e.val = 4 →
      (s.marked (s.eng e.val).frame = true → Completes (.engineFrameEntry e) s fun t =>
        (t.eng e.val).frame = (s.eng e.val).frame + 1 ∧ (t.eng e.val).pos = ⟨0, 0, 0⟩ ∧ (t.eng e.val).stage = .ready ∧
        (s.inFlight 3 = false → s.img.staged = [] → s.bit (Reg.MNT_ENGe_CTRL e.val) 0 = true → t.engState e.val = 1 ∧ (t.eng e.val).stack = [] ∧
          (s.bit (Reg.MNT_ENGe_CTRL e.val) 1 = false → t.engPc e.val = s.f (Reg.MNT_ENGe_START e.val) 13 0)) ∧
        (s.inFlight 3 = false → s.img.staged = [] → s.bit (Reg.MNT_ENGe_CTRL e.val) 0 = false → t.engState e.val = 0)) ∧
      (s.marked (s.eng e.val).frame = false → exec (.engineFrameEntry e) s = .next s)) ∧
    (s.frozen = false → s.engState e.val ≠ 0 → s.engState e.val ≠ 4 → exec (.engineFrameEntry e) s = .next s) ∧
    (s.frozen = false → s.engState e.val = 1 ∨ s.engState e.val = 2 ∨ s.engState e.val = 3 →
      ((s.eng e.val).frame < s.beam.frame → (∀ x ∈ s.img.staged, x.1 ≠ Reg.MNT_STAT ∧ x.1 ≠ Reg.MNT_ENGe_STAT e.val) →
        Completes (.engineOverrun e) s fun t => t.bit Reg.MNT_STAT 5 = true ∧ t.bit (Reg.MNT_ENGe_STAT e.val) 8 = true ∧ (t.eng e.val).stage = .ready) ∧
      (s.beam.frame ≤ (s.eng e.val).frame → exec (.engineOverrun e) s = .next s)) ∧
    (s.frozen = false → s.engState e.val = 0 ∨ 4 ≤ s.engState e.val → exec (.engineOverrun e) s = .next s) ∧
    (∀ m : Acc, m.debug = false → s.targetOff (Reg.MNT_ENGe_STAT e.val) = false →
      (s.engState e.val = 5 → Completes (.engineFaultClear m e) s fun t =>
        t.engState e.val = 0 ∧ t.bit (Reg.MNT_ENGe_STAT e.val) 10 = false ∧ SameMemory s t) ∧
      (s.engState e.val ≠ 5 → Completes (.engineFaultClear m e) s fun t =>
        t.engState e.val = s.engState e.val ∧ t.bit (Reg.MNT_ENGe_STAT e.val) 10 = false ∧ SameMemory s t)))

/-- GFLAG_SET, GFLAG_CLEAR, BEAM_STORE_WRITE and BEAM_STORE_SCRUB (R170, R180, R181, R405). A write sets or clears exactly the flags whose bits are one; a write
of a part of a beam word is kept until the part at offset 12 makes that word's write, with the parts collected; the v1 half of the store below word 0x800,
and a port that may not write the store, is denied; the scrubber goes on to the next word, corrects a single error and reports an uncorrectable one, and
rests in DOZE and deeper. -/
def Obligations.FlagsAndBeamStore : Prop :=
  ∀ (m : Acc) (v : Word) (s : State),
    (m.debug = false → s.targetOff Reg.MNT_GFLAG = false → Completes (.gflagSet m v) s fun t => t.reg Reg.MNT_GFLAG = s.reg Reg.MNT_GFLAG ||| (v &&& 0xFFFF) ∧
      SameRegsBut (fun a => a = Reg.MNT_GFLAG) s t ∧ SameMemory s t) ∧
    (m.debug = false → s.targetOff Reg.MNT_GFCLR = false → Completes (.gflagClear m v) s fun t => t.reg Reg.MNT_GFLAG = s.reg Reg.MNT_GFLAG &&& ~~~v ∧
      SameRegsBut (fun a => a = Reg.MNT_GFLAG) s t ∧ SameMemory s t) ∧
    (∀ k : Nat, m.debug = false → m.port ∈ [7, 8, 10, 11, 14] → 0x800 ≤ k → k < 0x4000 → s.targetOff beamStore = false →
      (∀ i : Nat, i < 3 → Completes (.beamStoreWrite m (16 * k + 4 * i) v) s fun t => t.answer = ⟨0, 0⟩ ∧ SameMemory s t ∧
        t.mnt.parts = (beamStore + 16 * k + 4 * i, v) :: s.mnt.parts.filter fun p => decide (p.1 ≠ beamStore + 16 * k + 4 * i)) ∧
      (s.mnt.parts = [] → Completes (.beamStoreWrite m (16 * k + 12) v) s fun t =>
        t.answer = ⟨0, 0⟩ ∧ t.word (beamStore + 16 * k + 12) = v ∧ t.mark (beamStore + 16 * k) = .none ∧
        (∀ a, a < beamStore + 16 * k + 12 ∨ beamStore + 16 * k + 16 ≤ a → t.byte a = s.byte a)) ∧
      (∀ a b c : Word, s.mnt.parts = [(beamStore + 16 * k + 8, c), (beamStore + 16 * k + 4, b), (beamStore + 16 * k, a)] →
        Completes (.beamStoreWrite m (16 * k + 12) v) s fun t =>
          t.word (beamStore + 16 * k) = a ∧ t.word (beamStore + 16 * k + 4) = b ∧ t.word (beamStore + 16 * k + 8) = c ∧
          t.word (beamStore + 16 * k + 12) = v ∧ t.mark (beamStore + 16 * k) = .none ∧ t.mnt.parts = [] ∧
          (∀ a, a < beamStore + 16 * k ∨ beamStore + 16 * k + 16 ≤ a → t.byte a = s.byte a))) ∧
    (∀ k i : Nat, m.debug = false → s.targetOff beamStore = false → i < 4 → (k < 0x800 ∨ (k < 0x4000 ∧ m.port ∉ [7, 8, 10, 11, 14])) →
      Completes (.beamStoreWrite m (16 * k + 4 * i) v) s fun t => t.answer = ⟨3, 0⟩ ∧ SameMemory s t ∧ t.mnt = s.mnt) ∧
    (∀ (x : Upset) (u : State), s.frozen = false → s.pwr.state < 2 → u = s.upset (beamStore + 16 * s.mnt.scrub) x →
      (u.mark (beamStore + 16 * s.mnt.scrub) = .none → Completes (.beamStoreScrub x) s fun t =>
        t.mnt.scrub = (s.mnt.scrub + 1) % 16384 ∧ t.regs = s.regs ∧ SameMemory s t) ∧
      (u.mark (beamStore + 16 * s.mnt.scrub) = .single → Completes (.beamStoreScrub x) s fun t =>
        t.mnt.scrub = (s.mnt.scrub + 1) % 16384 ∧ t.mark (beamStore + 16 * s.mnt.scrub) = .none ∧ t.bit Reg.MNT_STAT 2 = true ∧
        t.f Reg.MNT_BSCE 15 0 = sat 65535 (s.f Reg.MNT_BSCE 15 0 + 1) ∧ SameMemory s t) ∧
      (u.mark (beamStore + 16 * s.mnt.scrub) = .double → Completes (.beamStoreScrub x) s fun t =>
        t.mnt.scrub = (s.mnt.scrub + 1) % 16384 ∧ t.bit Reg.MNT_STAT 3 = true ∧ SameMemory s t)) ∧
    (∀ x : Upset, 2 ≤ s.pwr.state → exec (.beamStoreScrub x) s = .next s)

/-- UNIT_SEND, UNIT_DELIVERED, SEGMENT_FETCH and SEGMENT_LANDED (R195, R196, R204, R207, R209, R357, R368). A free port sends its next unit, which then runs;
a buffered unit is delivered at its end, and a direct one when its plane-rows are in the back store, if nothing has marked it not sent; a write that
fails stops the channel and leaves the unit undelivered. A pair requests the next line that it needs and has room for, and its oldest request lands with
the bytes read, or as zero codes after an error response. Where nothing is due the command changes nothing. -/
def Obligations.PanelUnits : Prop :=
  ∀ (s : State), s.frozen = false →
    (∀ (q : QFrame) (port : Fin 32), s.head = some q →
      (∀ (r c : Nat), s.bit Reg.PNL_CTRL 0 = true → s.portOn port.val = true → s.leadPort port.val = port.val →
        s.pnl.units.any (fun u => decide (u.port = port.val) && u.running) = false → s.nextUnit q port.val = some (r, c) →
        Completes (.unitSend port) s fun t => ∃ u ∈ t.pnl.units, u.port = port.val ∧ u.row = r ∧ u.ch = c ∧ u.running = true ∧ u.delivered = false) ∧
      (s.nextUnit q port.val = none → exec (.unitSend port) s = .next s)) ∧
    (∀ port : Fin 32, s.bit Reg.PNL_CTRL 0 = false ∨ s.portOn port.val = false ∨ s.leadPort port.val ≠ port.val ∨
      s.pnl.units.any (fun u => decide (u.port = port.val) && u.running) = true ∨ s.head = none → exec (.unitSend port) s = .next s) ∧
    (∀ (port : Fin 32) (u e : UnitSt) (depth : Nat), s.pnl.units.find? (fun x => decide (x.port = port.val) && x.running) = some u →
      e = { u with running := false, words := [], before := [] } →
      depth = (match s.head with | some q => q.f Reg.QDL_STRUCT 12 8 | none => s.f Reg.QDL_STRUCT 12 8) →
      ((s.prof u.port).direct = false → Completes (.unitDelivered port) s fun t => { e with delivered := u.sent } ∈ t.pnl.units ∧
        t.out = s.out ++ [.panelRun u.port 0 ((s.prof u.port).latw 0) (s.prof u.port).runSlots (s.prof u.port).latHigh u.words] ∧ t.regs = s.regs ∧
        SameMemory s t) ∧
      ((s.prof u.port).direct = true → s.bit Reg.REEL_CTRL 0 = false → exec (.unitDelivered port) s = .next s) ∧
      ((s.prof u.port).direct = true → s.bit Reg.REEL_CTRL 0 = true → (s.writeBeats (s.f Reg.PNL_DIRCH 4 0) (s.unitBeats u depth)).1 = none →
        Completes (.unitDelivered port) s fun t => { e with delivered := u.sent } ∈ t.pnl.units ∧
          t.mem = (s.writeBeats (s.f Reg.PNL_DIRCH 4 0) (s.unitBeats u depth)).2.mem) ∧
      (∀ code a : Nat, (s.prof u.port).direct = true → s.bit Reg.REEL_CTRL 0 = true →
        (s.writeBeats (s.f Reg.PNL_DIRCH 4 0) (s.unitBeats u depth)).1 = some (code, a) → Completes (.unitDelivered port) s fun t =>
          { e with delivered := false } ∈ t.pnl.units ∧ t.mem = (s.writeBeats (s.f Reg.PNL_DIRCH 4 0) (s.unitBeats u depth)).2.mem)) ∧
    (∀ port : Fin 32, s.pnl.units.find? (fun x => decide (x.port = port.val) && x.running) = none → exec (.unitDelivered port) s = .next s) ∧
    (∀ (q : QFrame) (pair : Fin 16) (held : List Seg) (due : Nat → Bool), s.head = some q → held = s.pnl.segs.filter (fun g => decide (g.pair = pair.val)) →
      due = (fun y => s.offered q y && !held.any (fun g => decide (g.line = y)) && s.lineNeeded pair.val y) →
      (∀ y : Nat, s.bit Reg.PNL_CTRL 0 = true → held.length < 65536 / s.segBytes pair.val → (List.range s.lines).find? due = some y →
        Completes (.segmentFetch pair) s fun t => t.pnl.segs = s.pnl.segs ++ [⟨pair.val, y, false, false, []⟩] ∧ t.regs = s.regs ∧ SameMemory s t) ∧
      (s.bit Reg.PNL_CTRL 0 = false ∨ 65536 / s.segBytes pair.val ≤ held.length ∨ (List.range s.lines).find? due = none →
        exec (.segmentFetch pair) s = .next s)) ∧
    (∀ (q : QFrame) (pair : Fin 16) (g : Seg) (lo hi : Nat), s.head = some q →
      s.pnl.segs.find? (fun x => decide (x.pair = pair.val) && !x.landed) = some g → s.window pair.val = some (lo, hi) →
      (∀ a : Nat, s.lineSource q g.line = some a → (s.portRead 4 (a + lo * 6) (s.segBytes pair.val)).1 = 0 →
        Completes (.segmentLanded pair) s fun t => t.pnl.segs = s.pnl.segs.map fun x =>
          if x = g then { g with landed := true, data := (s.portRead 4 (a + lo * 6) (s.segBytes pair.val)).2.1 } else x) ∧
      (∀ a : Nat, s.lineSource q g.line = some a → (s.portRead 4 (a + lo * 6) (s.segBytes pair.val)).1 ≠ 0 →
        Completes (.segmentLanded pair) s fun t => t.pnl.segs = s.pnl.segs.map (fun x => if x = g then { g with landed := true, err := true } else x) ∧
          ((q.frame, 13, 7) ∉ s.qdl.seen → t.bit Reg.PNL_STAT 7 = true)) ∧
      (s.lineSource q g.line = none → Completes (.segmentLanded pair) s fun t => t.regs = s.regs ∧ t.pnl.segs = s.pnl.segs.map fun x =>
        if x = g then { g with landed := true, data := List.replicate (s.segBytes pair.val) 0 } else x)) ∧
    (∀ pair : Fin 16, s.head = none → exec (.segmentFetch pair) s = .next s ∧ exec (.segmentLanded pair) s = .next s) ∧
    (∀ pair : Fin 16, s.pnl.segs.find? (fun x => decide (x.pair = pair.val) && !x.landed) = none ∨ s.window pair.val = none →
      exec (.segmentLanded pair) s = .next s)

/-- GRID_POINT, SCAN_ROW_STEP, SWAP_COMMAND, STORE_EXCHANGE, PLANE_SLOT and SCANOUT_PREFETCH (R199 to R202, R205, R206, R209, R214). At a grid point a direct
port starts its refresh at row 0, plane 0 with the plane-row shifted before and a buffered scan group restarts, unless a changed timing leaves the outputs
dark until the next; a scan group steps its row, and is disabled after its last; a swap's SWAP is sent once; the store bases are checked at every exchange
point and the stores exchange at the first one after a swap; a plane slot lights the latched plane-row and goes on to the next, repeating the last where
none has landed; a plane-row is read into the prefetch buffer, as zeros after an error response.
BLANK_REQUEST, BLANK_START, BLANK_END, PNL_CMD_CFG, PNL_CMD_GAIN, PNL_CMD_USER, PNL_COMMAND_SEND and PNL_MAPDATA (R194, R210, R211). A change of REQ is due
SWAPLAT later and ACTIVE shows whether a cause of blanking holds; a command request for buffered ports whose drivers have it is queued while fewer than 16
wait, and the port sends the oldest that names it; a map entry of no template in use is written, or read, at PNL_MAPADDR, which then increments. -/
def Obligations.Panels : Prop :=
  (∀ (s : State), s.frozen = false →
    (s.bit Reg.PNL_CTRL 0 = true →
      (s.pnl.oldTim = none ∨ s.pnl.gridSplit = false → Completes .gridPoint s fun t => t.pnl.dark = false ∧ t.pnl.oldTim = none ∧
        (∀ p, p < 32 → s.portOn p = true → (s.prof p).direct = true →
          (t.scanOf p).row = 0 ∧ (t.scanOf p).plane = 0 ∧ (t.scanOf p).latch = (s.scanOf p).shifted) ∧
        (∀ g p, g < 8 → g < s.pnl.groups.length → s.groupPort g = some p → (s.prof p).direct = false → t.pnl.groups[g]? = some (0, true))) ∧
      (s.pnl.oldTim ≠ none → s.pnl.gridSplit = true → Completes .gridPoint s fun t => t.pnl.dark = true ∧ t.pnl.oldTim = none ∧ t.pnl.gridSplit = false ∧
        (∀ g p row en, g < 8 → s.groupPort g = some p → s.pnl.groups[g]? = some (row, en) → t.pnl.groups[g]? = some (row, false)))) ∧
    (s.bit Reg.PNL_CTRL 0 = false → exec .gridPoint s = .next s) ∧
    (∀ (g : Fin 8) (p row : Nat) (en : Bool), s.groupPort g.val = some p → s.pnl.groups[g.val]? = some (row, en) →
      (s.bit Reg.PNL_CTRL 0 = true → s.pnl.dark = false → (s.prof p).direct = false →
        (row + 1 < (s.prof p).rows → Completes (.scanRowStep g) s fun t =>
          t.pnl.groups[g.val]? = some (row + 1, en) ∧ t.out = s.out ++ [.panelScan g.val (row + 1) (en && !s.groupBlanked g.val)] ∧ t.regs = s.regs) ∧
        ((s.prof p).rows ≤ row + 1 → Completes (.scanRowStep g) s fun t =>
          t.pnl.groups[g.val]? = some (row, false) ∧ t.out = s.out ++ [.panelScan g.val row false] ∧ t.regs = s.regs)) ∧
      (s.bit Reg.PNL_CTRL 0 = false ∨ s.pnl.dark = true ∨ (s.prof p).direct = true → exec (.scanRowStep g) s = .next s)) ∧
    (∀ g : Fin 8, s.groupPort g.val = none → exec (.scanRowStep g) s = .next s) ∧
    (s.pnl.swapDue = true → s.bit Reg.PNL_CTRL 0 = true → Completes .swapCommand s fun t => t.pnl.swapDue = false ∧
      t.pnl.holdOn = (s.pnl.holdOn && !s.pnl.blankDue.contains (.hold false)) ∧ SameMemory s t) ∧
    (s.pnl.swapDue = false ∨ s.bit Reg.PNL_CTRL 0 = false → exec .swapCommand s = .next s) ∧
    (∀ ripe : Bool, Completes (.storeExchange ripe) s fun t => SameMemory s t ∧
      (s.pnl.exchangeDue = true → ripe = true → t.fsFront = 1 - s.fsFront ∧ t.pnl.exchangeDue = false) ∧
      (s.pnl.exchangeDue = false ∨ ripe = false → t.fsFront = s.fsFront ∧ t.pnl.exchangeDue = s.pnl.exchangeDue) ∧
      (s.fsAgree = true → t.pnl.fsGood = ((s.reg (Reg.PNL_FSBASEx 0)).toNat, (s.reg (Reg.PNL_FSBASEx 1)).toNat)) ∧
      (s.fsAgree = false → t.pnl.fsGood = s.pnl.fsGood ∧ t.bit Reg.PNL_STAT 5 = true)) ∧
    (∀ (p : Fin 32) (x : ScanSt) (n : Nat × Nat), x = s.scanOf p.val → n = nextPlane (s.prof p.val).rows (s.f Reg.QDL_STRUCT 12 8) x.row x.plane →
      (s.bit Reg.PNL_CTRL 0 = true → s.portOn p.val = true → (s.prof p.val).direct = true → s.pnl.dark = false →
        (∀ e : Nat × Nat × List Byte, x.fetched.find? (fun e => decide (e.1 = n.1) && decide (e.2.1 = n.2)) = some e → Completes (.planeSlot p) s fun t =>
          (t.scanOf p.val).row = e.1 ∧ (t.scanOf p.val).plane = e.2.1 ∧ (t.scanOf p.val).latch = e.2.2 ∧ (t.scanOf p.val).fetched = x.fetched.erase e ∧
          t.regs = s.regs ∧ SameMemory s t) ∧
        (x.fetched.find? (fun e => decide (e.1 = n.1) && decide (e.2.1 = n.2)) = none → Completes (.planeSlot p) s fun t =>
          (t.scanOf p.val).row = n.1 ∧ (t.scanOf p.val).plane = n.2 ∧ (t.scanOf p.val).latch = x.shifted ∧ t.bit Reg.PNL_STAT 6 = true ∧
          t.f (Reg.PNL_PAIRq_CNT (p.val / 2)) 15 0 = sat 65535 (s.f (Reg.PNL_PAIRq_CNT (p.val / 2)) 15 0 + 1) ∧ SameMemory s t)) ∧
      (s.bit Reg.PNL_CTRL 0 = false ∨ s.portOn p.val = false ∨ (s.prof p.val).direct = false ∨ s.pnl.dark = true → exec (.planeSlot p) s = .next s)) ∧
    (∀ (p : Fin 32) (row plane a n : Nat), n = (s.prof p.val).planeBytes →
      a = s.fsBase s.fsFront + s.storeOff (s.f Reg.QDL_STRUCT 12 8) p.val + (row * s.f Reg.QDL_STRUCT 12 8 + plane) * n →
      (s.bit Reg.PNL_CTRL 0 = true → s.portOn p.val = true → (s.prof p.val).direct = true → (s.scanOf p.val).fetched.length < 2 →
        row < (s.prof p.val).rows → plane < s.f Reg.QDL_STRUCT 12 8 →
        ((s.portRead 4 a n).1 = 0 → Completes (.scanoutPrefetch p row plane) s fun t =>
          (t.scanOf p.val).fetched = (s.scanOf p.val).fetched ++ [(row, plane, (s.portRead 4 a n).2.1)]) ∧
        ((s.portRead 4 a n).1 ≠ 0 → Completes (.scanoutPrefetch p row plane) s fun t =>
          (t.scanOf p.val).fetched = (s.scanOf p.val).fetched ++ [(row, plane, List.replicate n 0)] ∧ t.bit Reg.PNL_STAT 7 = true)) ∧
      (s.bit Reg.PNL_CTRL 0 = false ∨ s.portOn p.val = false ∨ (s.prof p.val).direct = false ∨ 2 ≤ (s.scanOf p.val).fetched.length ∨
        (s.prof p.val).rows ≤ row ∨ s.f Reg.QDL_STRUCT 12 8 ≤ plane → exec (.scanoutPrefetch p row plane) s = .next s)) ∧
    (∀ rest : List BlankEv,
      (s.pnl.blankDue = .req true :: rest → Completes .blankStart s fun t =>
        t.pnl.reqOn = true ∧ t.pnl.holdOn = s.pnl.holdOn ∧ t.pnl.blankDue = rest ∧ t.bit Reg.PNL_BLANK 8 = true) ∧
      (s.pnl.blankDue = .hold true :: rest → Completes .blankStart s fun t =>
        t.pnl.holdOn = true ∧ t.pnl.reqOn = s.pnl.reqOn ∧ t.pnl.blankDue = rest ∧ t.bit Reg.PNL_BLANK 8 = true) ∧
      (s.pnl.blankDue = .req false :: rest → Completes .blankEnd s fun t =>
        t.pnl.reqOn = false ∧ t.pnl.holdOn = s.pnl.holdOn ∧ t.pnl.blankDue = rest ∧ t.bit Reg.PNL_BLANK 8 = s.pnl.holdOn) ∧
      (s.pnl.blankDue = .hold false :: rest → Completes .blankEnd s fun t =>
        t.pnl.holdOn = false ∧ t.pnl.reqOn = s.pnl.reqOn ∧ t.pnl.blankDue = rest ∧ t.bit Reg.PNL_BLANK 8 = s.pnl.reqOn) ∧
      (s.pnl.blankDue = .req false :: rest ∨ s.pnl.blankDue = .hold false :: rest → exec .blankStart s = .next s) ∧
      (s.pnl.blankDue = .req true :: rest ∨ s.pnl.blankDue = .hold true :: rest → exec .blankEnd s = .next s)) ∧
    (s.pnl.blankDue = [] → exec .blankStart s = .next s ∧ exec .blankEnd s = .next s)) ∧
  (∀ (m : Acc) (s : State), m.debug = false →
    (∀ v : Word, s.targetOff Reg.PNL_BLANK = false → Completes (.blankRequest m v) s fun t => t.bit Reg.PNL_BLANK 0 = bitAt v 0 ∧
      t.pnl.blankDue = (if bitAt v 0 = s.bit Reg.PNL_BLANK 0 then s.pnl.blankDue else s.pnl.blankDue ++ [.req (bitAt v 0)]) ∧
      SameRegsBut (fun a => a = Reg.PNL_BLANK) s t ∧ SameMemory s t) ∧
    (∀ (ports : List Nat), s.targetOff Reg.PNL_CMDQ = false → ports = (s.leads.filter fun p => (s.members p).any fun k => s.bit Reg.PNL_CMDMASK k) →
      (∀ (c : Instr) (k d : Nat), (c = .pnlCmdCfg m ∧ k = 5 ∧ d = 0) ∨ (∃ x : BitVec 16, c = .pnlCmdGain m x ∧ k = 6 ∧ d = x.toNat) ∨
          (∃ x : BitVec 16, c = .pnlCmdUser m x ∧ k = 7 ∧ d = x.toNat) →
        ((∀ p ∈ ports, (s.prof p).direct = false ∧ (s.prof p).latw k ≠ 0) → s.pnl.queue.length < 16 →
          (ports ≠ [] → Completes c s fun t => t.pnl.queue = s.pnl.queue ++ [⟨k, d, ports⟩] ∧ t.regs = s.regs) ∧
          (ports = [] → Completes c s fun t => t.pnl = s.pnl ∧ t.regs = s.regs)) ∧
        ((∃ p ∈ ports, (s.prof p).direct = true ∨ (s.prof p).latw k = 0) → Completes c s fun t => t.pnl = s.pnl ∧ t.bit Reg.PNL_STAT 4 = true) ∧
        ((∀ p ∈ ports, (s.prof p).direct = false ∧ (s.prof p).latw k ≠ 0) → 16 ≤ s.pnl.queue.length → Completes c s fun t =>
          t.pnl = s.pnl ∧ t.bit Reg.PNL_STAT 3 = true))) ∧
    (∀ (port : Fin 32) (p : Nat), s.frozen = false → s.leadPort port.val = p →
      (s.bit Reg.PNL_CTRL 0 = true → s.pnl.units.any (fun u => decide (u.port = p) && u.running) = false →
        (∀ r : CmdReq, s.pnl.queue.find? (fun r => r.ports.contains p) = some r → Completes (.pnlCommandSend port) s fun t =>
          t.pnl.queue = takePort p s.pnl.queue ∧ t.out.length = s.out.length + 1 ∧ t.regs = s.regs ∧
          (∀ rest, s.pnl.queue = { r with ports := [p] } :: rest → t.pnl.queue = rest)) ∧
        (s.pnl.queue.find? (fun r => r.ports.contains p) = none → exec (.pnlCommandSend port) s = .next s)) ∧
      (s.bit Reg.PNL_CTRL 0 = false ∨ s.pnl.units.any (fun u => decide (u.port = p) && u.running) = true → exec (.pnlCommandSend port) s = .next s)) ∧
    (s.targetOff Reg.PNL_MAPDATA = false →
      (∀ v : Word, s.mapInUse (s.f Reg.PNL_MAPADDR 15 0) = false → Completes (.pnlMapdata m true v) s fun t =>
        Sparse.get (fun _ => (0 : Word)) t.pnl.map (s.f Reg.PNL_MAPADDR 15 0) = v &&& 0x03FFFFFF ∧
        t.f Reg.PNL_MAPADDR 15 0 = (s.f Reg.PNL_MAPADDR 15 0 + 1) % 65536) ∧
      (∀ v : Word, s.mapInUse (s.f Reg.PNL_MAPADDR 15 0) = true → Completes (.pnlMapdata m true v) s fun t =>
        t.pnl.map = s.pnl.map ∧ t.bit Reg.PNL_STAT 2 = true ∧ t.f Reg.PNL_MAPADDR 15 0 = (s.f Reg.PNL_MAPADDR 15 0 + 1) % 65536) ∧
      (∀ v : Word, Completes (.pnlMapdata m false v) s fun t =>
        t.answer = ⟨0, Sparse.get (fun _ => (0 : Word)) s.pnl.map (s.f Reg.PNL_MAPADDR 15 0)⟩ ∧ t.pnl = s.pnl ∧
        t.f Reg.PNL_MAPADDR 15 0 = (s.f Reg.PNL_MAPADDR 15 0 + 1) % 65536)))

/-- SIGNATURE_DECIDED, SUBSTITUTION_DONE, PAVANE_REQUEST and PAVANE_EXIT_REQUEST (R217, R221 to R225). The oldest undecided check of a region, its rows all
folded, is decided by its CRC-32 against EXP: a request that waits for it puts the region into Pavane, a guarded region that fails, or is in Pavane, is
substituted unless the frame is in section Pavane, and a pass makes the keep half copied the current one; a check whose rows are not all folded is not
decided. A request waits for the next decision of exactly the regions named whose CLLINES leave room for their height and 72 lines; an exit takes the
regions named out. -/
def Obligations.SignatureDecisions : Prop :=
  ∀ (s : State),
    (∀ (region : Fin 16) (c : SigCheck), s.frozen = false →
      s.sig.checks.find? (fun c => decide (c.region = region.val) && !c.skip && decide (c.decided = none)) = some c →
      (∀ (q : QFrame) (u : State) (pass : Bool) (sum : Nat), s.frameOf c.frame c.sf = some q → (q.region region.val).y1 < c.next →
        u = s.takePavaneRequest region.val → sum = c.crc ^^^ 0xFFFFFFFF → pass = decide (wd sum = (q.region region.val).exp) →
        Completes (.signatureDecided region) s fun t =>
          { c with decided := some (pass, sum), subDue := u.guarded q region.val && (!pass || u.inPavane region.val) && !q.sect } ∈ t.sig.checks ∧
          (s.bit Reg.SIG_PAVREQ region.val = true → t.inPavane region.val = true ∧ t.bit Reg.SIG_PAVREQ region.val = false) ∧
          (pass = true → (q.region region.val).action = 1 ∨ (q.region region.val).action = 2 → u.inPavane region.val = false → c.copied = true →
            t.bit (Reg.SIG_REGr_STAT region.val) 8 = true ∧
            t.f (Reg.SIG_REGr_STAT region.val) 9 9 = 1 - s.f (Reg.SIG_REGr_STAT region.val) 9 9)) ∧
      (∀ q : QFrame, s.frameOf c.frame c.sf = some q → c.next ≤ (q.region region.val).y1 → exec (.signatureDecided region) s = .next s) ∧
      (s.frameOf c.frame c.sf = none → exec (.signatureDecided region) s = .next s)) ∧
    (∀ region : Fin 16, s.frozen = false → s.sig.checks.find? (fun c => decide (c.region = region.val) && !c.skip && decide (c.decided = none)) = none →
      exec (.signatureDecided region) s = .next s) ∧
    (∀ (region : Fin 16) (c : SigCheck), s.frozen = false →
      s.sig.checks.find? (fun c => decide (c.region = region.val) && c.subDue && !c.subDone) = some c →
      Completes (.substitutionDone region) s (fun t => { c with subDone := true } ∈ t.sig.checks ∧ SameMemory s t) ∧
      (∀ q : QFrame, s.frameOf c.frame c.sf = some q →
        exec (.substitutionDone region) s = .next ((s.putCheck { c with subDone := true }).monPump q)) ∧
      (s.frameOf c.frame c.sf = none → Completes (.substitutionDone region) s fun t => t.regs = s.regs)) ∧
    (∀ region : Fin 16, s.frozen = false → s.sig.checks.find? (fun c => decide (c.region = region.val) && c.subDue && !c.subDone) = none →
      exec (.substitutionDone region) s = .next s) ∧
    (∀ (m : Acc) (v : Word), m.debug = false → s.targetOff Reg.SIG_PAVREQ = false → Completes (.pavaneRequest m v) s fun t => SameMemory s t ∧
      (∀ r, r < 16 → t.inPavane r = s.inPavane r ∧
        t.bit Reg.SIG_PAVREQ r = (s.bit Reg.SIG_PAVREQ r || (bitAt v r && decide ((regionFrom s.reg r).height + 72 ≤ s.f Reg.QDL_CLLINES 8 0)))) ∧
      (∀ r, r < 16 → bitAt v r = true → s.f Reg.QDL_CLLINES 8 0 < (regionFrom s.reg r).height + 72 → t.bit Reg.SIG_STAT 3 = true)) ∧
    (∀ (m : Acc) (v : Word), m.debug = false → s.targetOff Reg.SIG_PAVSTAT = false → Completes (.pavaneExitRequest m v) s fun t => SameMemory s t ∧
      ∀ r, r < 16 → t.inPavane r = (s.inPavane r && !bitAt v r))

/-- BEAM_SAMPLE, ZC_TIMEOUT, SOUND_BLOCK and VOICE_FETCH (R230, R232, R239, R240, R244, R246 to R248). While the beam runs and has reached the sample's frame a
sample counts K up by one, and with the Sarabande on it takes the direct writes and adds one sample of every output to the block; else none is taken.
The chains take a block of 16 samples once it is whole; a change of a node that has waited out its timeout takes effect and no other does; a voice that
is not off reads the next word that it needs, and ends where the read fails.
SOUND_SAMPLES, ASRC_LOCK, ASRC_UNLOCK, TDM_FS_EDGE, TDM_LOST and OBJECT_UPDATE (R241, R242, R255, R259, R269, R270). A streamed sample that comes late is
counted and written nowhere, one in time is written to its ring; a converter that can lock locks; one that loses lock sets SND_STAT bit 7; a frame of the
wrong length is counted; lost clocks unlock every converter that follows the port; an object that is not bound to a sprite is placed at its own
coordinates. -/
def Obligations.SoundBlocks : Prop :=
  (∀ (s : State), s.frozen = false →
    (∀ tdm : List (List Nat), s.running = true → s.frameOfSample s.snd.k ≤ s.beam.frame →
      (s.bit Reg.SND_CTRL 0 = false → Completes (.beamSample tdm) s fun t => t.snd.k = s.snd.k + 1 ∧ t.snd.block = s.snd.block ∧
        t.snd.writes = s.snd.writes ∧ t.regs = s.regs ∧ SameMemory s t) ∧
      (s.bit Reg.SND_CTRL 0 = true → Completes (.beamSample tdm) s fun t => t.snd.k = s.snd.k + 1 ∧ t.snd.writes = [] ∧
        t.snd.prev.length = 128 ∧ t.snd.block.length = s.snd.block.length + 1)) ∧
    (∀ tdm : List (List Nat), s.running = false ∨ s.beam.frame < s.frameOfSample s.snd.k → exec (.beamSample tdm) s = .next s) ∧
    (16 ≤ s.snd.block.length → Completes .soundBlock s fun t => t.snd.block = s.snd.block.drop 16 ∧
      t.snd.buses = (s.snd.block.take 16).map (fun e => e.2.2.drop 32) ∧ t.snd.fed = s.snd.fed + 16 ∧ t.snd.k = s.snd.k) ∧
    (s.snd.block.length < 16 → exec .soundBlock s = .next s) ∧
    (∀ (o : Fin 48) (i : Fin 128), Completes (.zcTimeout o i) s fun t =>
      t.snd.zc = s.snd.zc.filter (fun p => !(decide (p.o = o.val) && decide (p.i = i.val) && decide (s.zcLimit ≤ p.waited))) ∧
      SameRegsBut (fun a => a = Reg.SND_XPo_i o.val i.val) s t ∧ SameMemory s t) ∧
    (∀ (v : Fin 64) (a : Nat) (x : Upset) (u : State), s.voiceState v.val ≠ 0 → s.snd.voices.length = 64 →
      ((s.voice v.val).needed (s.loopActive v.val)).find? (fun a => ((s.voice v.val).word? a).isNone) = some a →
      u = (if inSram a then s.upset a x else s) →
      ((u.readWord 12 a).1 = 0 → Completes (.voiceFetch v x) s fun t =>
        (t.voice v.val).words = (s.voice v.val).words ++ [(a, (u.readWord 12 a).2.1)]) ∧
      ((u.readWord 12 a).1 ≠ 0 → Completes (.voiceFetch v x) s fun t => t.bit Reg.SND_STAT 2 = true ∧ t.voiceState v.val = 0)) ∧
    (∀ (v : Fin 64) (a : Nat), s.voiceState v.val ≠ 0 → s.snd.voices.length = 64 → inSram a = true → s.mark a = .none → s.bankBusy (bankOf a) = false →
      s.regionAllows 12 a false = true →
      ((s.voice v.val).needed (s.loopActive v.val)).find? (fun a => ((s.voice v.val).word? a).isNone) = some a →
      Completes (.voiceFetch v .none) s fun t => (t.voice v.val).words = (s.voice v.val).words ++ [(a, s.le a 16)] ∧ t.regs = s.regs ∧ SameMemory s t) ∧
    (∀ (v : Fin 64) (x : Upset), s.voiceState v.val = 0 ∨
      ((s.voice v.val).needed (s.loopActive v.val)).find? (fun a => ((s.voice v.val).word? a).isNone) = none → exec (.voiceFetch v x) s = .next s)) ∧
  (∀ (s : State), s.frozen = false →
    (∀ (h : Hop) (ok : Bool) (f : Frame) (u : State), f.type = 3 →
      (s.arrives h ok f = (true, u) → exec (.soundSamples h ok f) s = .next (u.deliverSound h f)) ∧
      (s.arrives h ok f = (false, u) → exec (.soundSamples h ok f) s = .next u) ∧
      (s.arrives h ok f = (true, u) → f.le 9 1 = 1 → f.le 10 1 = 1 →
        ((f.le 0 8 : Int) ≤ u.snd.k - 1 → Completes (.soundSamples h ok f) s fun t =>
          t.f Reg.SND_STRCNT 15 0 = sat 65535 (u.f Reg.SND_STRCNT 15 0 + 1) ∧
          t.bit Reg.SND_STAT 4 = (u.bit Reg.SND_STAT 4 || !u.snd.seen.contains (4, f.le 8 1 % 32 + 0)) ∧ SameMemory u t) ∧
        ((u.snd.k : Int) - 1 < f.le 0 8 → (f.le 0 8 : Int) < u.snd.k - 1 + 4096 → exec (.soundSamples h ok f) s =
          .next (u.portWrite (5 + hopPort h) (u.ringEntry (f.le 8 1 % 32) (f.le 0 8)) (leBytes 4 (f.le 16 3 % 2 ^ 24 + f.le 0 8 / 4096 % 256 * 2 ^ 24))).2))) ∧
    (∀ (h : Hop) (ok : Bool) (f : Frame), f.type ≠ 3 → exec (.soundSamples h ok f) s = .next s) ∧
    (∀ c : Fin 20, s.convCan c.val = true → Completes (.asrcLock c) s fun t => t.convLocked c.val = true ∧ SameMemory s t) ∧
    (∀ c : Fin 20, s.convCan c.val = false → exec (.asrcLock c) s = .next s) ∧
    (∀ c : Fin 20, s.convLocked c.val = true → Completes (.asrcUnlock c) s fun t =>
      t.convLocked c.val = false ∧ t.bit Reg.SND_STAT 7 = true ∧ SameMemory s t) ∧
    (∀ c : Fin 20, s.convLocked c.val = false → exec (.asrcUnlock c) s = .next s) ∧
    (∀ (p : Fin 4) (count : Nat),
      (s.tdmOn p.val = true → s.tdmTarget p.val = true → count ≠ s.tdmSlots p.val * s.slotBits p.val →
        Completes (.tdmFsEdge p count) s fun t => t.f (Reg.TDMn_FSERR p.val) 15 0 = sat 65535 (s.f (Reg.TDMn_FSERR p.val) 15 0 + 1) ∧
          SameRegsBut (fun a => a = Reg.TDMn_FSERR p.val) s t ∧ SameMemory s t) ∧
      (s.tdmOn p.val = false ∨ s.tdmTarget p.val = false ∨ count = s.tdmSlots p.val * s.slotBits p.val → exec (.tdmFsEdge p count) s = .next s)) ∧
    (∀ p : Fin 4, s.tdmOn p.val = true → s.tdmTarget p.val = true → Completes (.tdmLost p) s fun t =>
      t.bit (Reg.TDMn_STAT p.val) 0 = true ∧ SameMemory s t ∧ ∀ c, c < 20 → s.convPort c = p.val → t.convLocked c = false) ∧
    (∀ p : Fin 4, s.tdmOn p.val = false ∨ s.tdmTarget p.val = false → exec (.tdmLost p) s = .next s) ∧
    (s.bit Reg.OBJ_CTRL 0 = true → s.inGeometry (posOf (s.reg Reg.OBJ_UPOS)).line (posOf (s.reg Reg.OBJ_UPOS)).dot = true →
      s.obj.objects.length = 32 → Completes .objectUpdate s fun t => t.obj.stepped = false ∧ SameMemory s t ∧
        ∀ c, c < 32 → s.bit (Reg.OBJc_CTRL c) 1 = false →
          (t.object c).pos = some (sw (s.reg (Reg.OBJc_X c)), sw (s.reg (Reg.OBJc_Y c)), sw (s.reg (Reg.OBJc_Z c)))) ∧
    (s.bit Reg.OBJ_CTRL 0 = false ∨ s.inGeometry (posOf (s.reg Reg.OBJ_UPOS)).line (posOf (s.reg Reg.OBJ_UPOS)).dot = false →
      exec .objectUpdate s = .next s))

/-- KEY_ON, KEY_OFF, NODE_WRITE, BIQUAD_COEF_WRITE, SND_KLO_READ and OBJ_MUTE (R230, R232, R235, R245, R250, R263). A direct write waits for the next beam
sample, in the order in which it came; the A2 word takes the five coefficients for the next block; a read of SND_KLO copies the count's high part, but a
debug read does not. -/
def Obligations.SoundWrites : Prop :=
  ∀ (m : Acc) (s : State), m.debug = false → s.targetOff Reg.SND_CTRL = false →
    (∀ (n : Fin 2) (v : Word),
      Completes (.keyOn m n v) s (fun t => t.snd.writes = s.snd.writes ++ [.keyOn (s.snd.stamp + 1) n.val v] ∧ t.snd.stamp = s.snd.stamp + 1 ∧
        t.answer = ⟨0, 0⟩ ∧ t.regs = s.regs ∧ SameMemory s t) ∧
      Completes (.keyOff m n v) s (fun t => t.snd.writes = s.snd.writes ++ [.keyOff (s.snd.stamp + 1) n.val v] ∧ t.snd.stamp = s.snd.stamp + 1 ∧
        t.answer = ⟨0, 0⟩ ∧ t.regs = s.regs ∧ SameMemory s t)) ∧
    (∀ v : Word, fld v 12 7 ≤ 47 → Completes (.nodeWrite m v) s fun t =>
      t.snd.writes = s.snd.writes ++ [.node (s.snd.stamp + 1) v] ∧ t.answer = ⟨0, 0⟩ ∧ t.regs = s.regs ∧ SameMemory s t) ∧
    (∀ v : Word, 47 < fld v 12 7 → Completes (.nodeWrite m v) s fun t => t.snd.writes = s.snd.writes ∧ t.bit Reg.SND_STAT 8 = true) ∧
    (∀ (o : Fin 32) (k : Fin 10) (v : Word) (b : Biquad) (cs : List Int), (s.chain o.val).biquads[k.val]? = some b → s.snd.chains.length = 32 →
      cs = [sw (s.reg (Reg.SNDo_BQk_c o.val k.val 0)), sw (s.reg (Reg.SNDo_BQk_c o.val k.val 1)), sw (s.reg (Reg.SNDo_BQk_c o.val k.val 2)),
        sw (s.reg (Reg.SNDo_BQk_c o.val k.val 3)), sw v] →
      Completes (.biquadCoefWrite m o k v) s fun t => (t.chain o.val).biquads[k.val]? = some { b with next := some cs } ∧ SameMemory s t) ∧
    Completes (.sndKloRead m) s (fun t => t.answer = ⟨0, wd (s.snd.k - 1)⟩ ∧ t.reg Reg.SND_KHI = wd ((s.snd.k - 1) / 2 ^ 32) ∧
      SameRegsBut (fun a => a = Reg.SND_KHI) s t ∧ SameMemory s t) ∧
    (s.sec.level ≠ 0 → Completes (.sndKloRead { m with debug := true }) s fun t => t.answer = ⟨0, wd (s.snd.k - 1)⟩ ∧ t.regs = s.regs ∧ SameMemory s t) ∧
    (∀ v : Word, s.targetOff Reg.OBJ_MUTE = false → Completes (.objMute m v) s fun t =>
      t.reg Reg.OBJ_MUTE = v ∧ SameRegsBut (fun a => a = Reg.OBJ_MUTE) s t ∧ SameMemory s t)

/-- LANE_BLOCK_LOCK, TRAINING_TIMEOUT, TRAINING_VERSION_ALTERNATE, ALIGN_DONE, HELLO, KEYX and KEY_RETRY (R282, R284, R285, R301, R306, R307, R458, Table 11.6).
A lane's block lock takes an enabled hop from DOWN to SIGNAL; a training that does not end falls back to DOWN; alignment takes it to HELLO and sends the
station's record; a record of version 2 with a lane in common takes it to KEY once the own record is acknowledged, one of version 1 where it is allowed at
once, and one without a version or lane in common back to DOWN; a peer's key agreement that verifies takes it to UP, in UP takes new keys, and one that does
not verify takes it to DOWN with AUTHFAIL, where it waits for its retry. Out of its state a command of the training changes nothing. -/
def Obligations.LinkTraining : Prop :=
  ∀ (h : Hop) (s : State), s.frozen = false →
    (∀ l : Fin 4,
      (s.hopOn h = true → s.akEn h = true → l.val ∈ s.hopLanes h → (s.hop h).failed = false → Completes (.laneBlockLock h l) s fun t =>
        t.hopState h = (if s.hopState h = 0 then 1 else s.hopState h) ∧ l.val ∈ (t.hop h).locked ∧ SameMemory s t) ∧
      (s.hopOn h = false ∨ s.akEn h = false ∨ l.val ∉ s.hopLanes h ∨ (s.hop h).failed = true → exec (.laneBlockLock h l) s = .next s)) ∧
    ((s.hopState h = 1 ∧ (s.hop h).locked = []) ∨ s.hopState h = 3 → Completes (.trainingTimeout h) s fun t =>
      t.hopState h = 0 ∧ (t.hop h).locked = [] ∧ SameMemory s t) ∧
    (s.hopState h ≠ 3 → s.hopState h ≠ 1 ∨ (s.hop h).locked ≠ [] → exec (.trainingTimeout h) s = .next s) ∧
    (s.hopState h = 0 → s.hopOn h = true → s.bit (Reg.AKx_CFG (hopPort h)) 2 = true → hopTrunk h = false → s.isEth h = false →
      Completes (.trainingVersionAlternate h) s fun t => t.hop h = { s.hop h with idleVer := 3 - (s.hop h).idleVer } ∧ t.regs = s.regs ∧ SameMemory s t) ∧
    (s.hopState h ≠ 0 ∨ s.hopOn h = false ∨ s.bit (Reg.AKx_CFG (hopPort h)) 2 = false ∨ hopTrunk h = true ∨ s.isEth h = true →
      exec (.trainingVersionAlternate h) s = .next s) ∧
    (∀ skewed : List (Fin 4),
      (s.akEn h = true → s.hopState h = (if s.isEth h then 1 else 2) → Completes (.alignDone h skewed) s fun t => t.hopState h = 3 ∧
        (t.hop h).locked = (s.hop h).locked.filter (fun l => !skewed.any fun k => decide (k.val = l)) ∧ (t.hop h).helloAcked = false ∧ SameMemory s t ∧
        ∃ (r : Hello) (g : Frame) (w : List Byte), t.out = s.out ++ [.frame h g w] ∧ g.type = 4 ∧ g.sub = 0 ∧ g.data = r.bytes ∧ r.linkver = 2 ∧
          r.id = s.stationId ∧ r.maxpay = s.offerMaxpay h ∧ r.rxlanes = laneMask (t.hop h).locked) ∧
      (s.akEn h = false ∨ s.hopState h ≠ (if s.isEth h then 1 else 2) → exec (.alignDone h skewed) s = .next s)) ∧
    (∀ (ok : Bool) (f : Frame), s.trains h 3 = false → exec (.hello h ok f) s = .next s) ∧
    (∀ (ok : Bool) (f : Frame) (u : State) (r : Hello) (common : List Nat), s.trains h 3 = true → r = f.hello →
      common = (if u.isEth h then u.hopLanes h else (u.hopLanes h).filter fun l => (u.hop h).locked.contains l && r.rxlanes.testBit l) →
      (s.handshake 0 h ok f = (false, u) → exec (.hello h ok f) s = .next u) ∧
      (s.handshake 0 h ok f = (true, u) →
        (common = [] ∨ r.linkver = 0 ∨ (r.linkver = 1 ∧ (hopTrunk h = true ∨ u.bit (Reg.AKx_CFG (hopPort h)) 2 = false)) →
          exec (.hello h ok f) s = .next (u.downHop h) ∧ Completes (.hello h ok f) s fun t => t.hopState h = 0) ∧
        (common ≠ [] → 2 ≤ r.linkver → Completes (.hello h ok f) s fun t => t.hopVer h = 2 ∧ (t.hop h).peer = some r ∧
          (t.hop h).maxpay = min r.maxpay (u.offerMaxpay h) ∧ t.hopState h = (if u.isEth h || (u.hop h).helloAcked then 4 else 3)) ∧
        (common ≠ [] → r.linkver = 1 → hopTrunk h = false → u.bit (Reg.AKx_CFG (hopPort h)) 2 = true → Completes (.hello h ok f) s fun t =>
          t.hopVer h = 1 ∧ (t.hop h).peer = some r ∧ (t.hop h).maxpay = min r.maxpay 1024 ∧ t.hopState h = 4))) ∧
    (∀ (ok sigOk : Bool) (f : Frame) (peer : PairView), s.hopUp h = false → s.trains h 4 = false → exec (.keyx h ok f sigOk peer) s = .next s) ∧
    (∀ (ok sigOk : Bool) (f : Frame) (peer : PairView) (u : State), s.trains h 4 = true →
      (s.handshake 1 h ok f = (false, u) → exec (.keyx h ok f sigOk peer) s = .next u) ∧
      (s.handshake 1 h ok f = (true, u) →
        (sigOk = true → u.keyAllowed f.keyId = true → u.peerId h ≠ u.stationId → Completes (.keyx h ok f sigOk peer) s fun t =>
          t.hopState h = 5 ∧ (t.hop h).keys = (u.hop h).keys + 1) ∧
        (sigOk = false ∨ u.keyAllowed f.keyId = false ∨ u.peerId h = u.stationId → Completes (.keyx h ok f sigOk peer) s fun t =>
          t.hopState h = 0 ∧ (t.hop h).failed = true ∧ t.bit (Reg.AKx_STAT (hopPort h)) 1 = true ∧ t.bit Reg.SEC_STAT 5 = true))) ∧
    (∀ (ok sigOk : Bool) (f : Frame) (peer : PairView) (u : State), s.hopUp h = true →
      (f.type ≠ 4 ∨ f.sub ≠ 1 ∨ f.dmode ≠ 3 → exec (.keyx h ok f sigOk peer) s = .next s) ∧
      (f.type = 4 → f.sub = 1 → f.dmode = 3 →
        (s.hopTakes h ok f = (false, u) → exec (.keyx h ok f sigOk peer) s = .next u) ∧
        (s.hopTakes h ok f = (true, u) → u.frameOk h f = false → exec (.keyx h ok f sigOk peer) s = .next (u.dropFrame h)) ∧
        (s.hopTakes h ok f = (true, u) → u.frameOk h f = true →
          (sigOk = true → u.keyAllowed f.keyId = true → u.peerId h ≠ u.stationId → Completes (.keyx h ok f sigOk peer) s fun t =>
            t.hopUp h = true ∧ (t.hop h).keys = (u.hop h).keys + 1 ∧ (t.hop h).kp = !(u.hop h).kp ∧ (t.hop h).rekey = false) ∧
          (sigOk = false ∨ u.keyAllowed f.keyId = false ∨ u.peerId h = u.stationId → Completes (.keyx h ok f sigOk peer) s fun t =>
            t.hopState h = 0 ∧ (t.hop h).failed = true ∧ t.bit (Reg.AKx_STAT (hopPort h)) 1 = true)))) ∧
    Completes (.keyRetry h) s (fun t => (t.hop h).failed = false ∧ t.regs = s.regs ∧ SameMemory s t)

/-- LCB_SEND, LCB, LCB_MISS, REPLAY_TIMEOUT, LANE_LOST, LANE_CRC_WINDOW_END, AKETH_EPOL_WRITE, AKETH_RETRAIN, AKETH_LANE_RETRY and AKETH_REKEY (R274, R282,
R285, R287, R288, R295, R300, R301). Link control blocks leave, one on each lane, with the credit owed, up to 127 units; the first one seen takes a hop from
SIGNAL to ALIGN, and the one that acknowledges the own record lets a hop go on from HELLO; one whose CRC fails is counted for its lane; a miss makes a ring
port suspect its hop; a replay sends every frame kept; a lane lost leaves use. PIROUETTE_CONFIRM, TURNAROUND, RINGSTATE, CENSUS_SEND and CENSUS (R286, R291,
R295, R296). A confirmed break takes the ring hop down, shows TURNED and is known; its frames wait for their turn and leave it once; a RINGSTATE of the own
ring makes a break known or forgotten; a census that is done gives the ring its stations and forgets every break. Where none of this is so the command
changes nothing, or only what the arrival of its frame does. -/
def Obligations.LinkControlAndBreaks : Prop :=
  (∀ (h : Hop) (s : State), s.frozen = false →
    (∀ sent : List (List (BitVec 66)),
      (s.hopOn h = true → s.isEth h = false → Completes (.lcbSend h sent) s fun t =>
        (∃ bs, t.out = s.out ++ [.lcb h bs] ∧ bs.length = (s.hopLanes h).length) ∧
        (t.hop h).owed = (s.hop h).owed - (if 3 ≤ s.pwr.state then 0 else min (s.hop h).owed 127) ∧
        (t.hop h).bcnt = ((s.hop h).bcnt + 1) % 4096 ∧ t.regs = s.regs ∧ SameMemory s t) ∧
      (s.hopOn h = false ∨ s.isEth h = true → exec (.lcbSend h sent) s = .next s)) ∧
    (∀ (b : BitVec 64) (blocks : List (BitVec 66)) (l : Nat), l = lcbField b 9 8 →
      (s.hopOn h = true → s.isEth h = false → lcbField b 7 0 = 0xE1 → l ∈ s.hopLanes h →
        (s.akEn h = true → l ∈ (s.hop h).locked → lcbField b 27 12 = crc16 blocks → b.getLsbD 11 = false → s.hopState h = 1 →
          Completes (.lcb h b blocks) s fun t => t.hopState h = 2 ∧ (t.hop h).credit = (s.hop h).credit + lcbField b 51 45 ∧
            (t.hop h).peerRf = b.getLsbD 10 ∧ SameMemory s t) ∧
        (s.akEn h = true → lcbField b 27 12 = crc16 blocks → b.getLsbD 11 = false → s.hopState h = 3 → (s.hop h).helloAcked = false →
          lcbField b 43 28 = (s.hop h).helloSeq % 65536 → Completes (.lcb h b blocks) s fun t => (t.hop h).helloAcked = true ∧
            ((s.hop h).peer = none → t.hopState h = 3) ∧ ((s.hop h).peer ≠ none → 4 ≤ t.hopState h)) ∧
        (lcbField b 27 12 ≠ crc16 blocks → Completes (.lcb h b blocks) s fun t =>
          t.f (Reg.AKx_LANEl_CRC (hopPort h) l) 15 0 = sat 65535 (s.f (Reg.AKx_LANEl_CRC (hopPort h) l) 15 0 + 1) ∧ SameMemory s t)) ∧
      (s.hopOn h = false ∨ s.isEth h = true ∨ lcbField b 7 0 ≠ 0xE1 ∨ l ∉ s.hopLanes h → exec (.lcb h b blocks) s = .next s)) ∧
    (s.hopUp h = true → hopTrunk h = false → s.isEth h = false → Completes (.lcbMiss h) s fun t =>
      (t.hop h).suspect = true ∧ t.regs = s.regs ∧ SameMemory s t) ∧
    (s.hopUp h = false ∨ hopTrunk h = true ∨ s.isEth h = true → exec (.lcbMiss h) s = .next s) ∧
    (s.hopUp h = true → s.replays h = true → exec (.replayTimeout h) s = .next (s.resend h) ∧ Completes (.replayTimeout h) s fun t =>
      t.out.length = s.out.length + (s.hop h).replay.length ∧ t.link = s.link ∧ SameMemory s t) ∧
    (s.hopUp h = false ∨ s.replays h = false → exec (.replayTimeout h) s = .next s) ∧
    (∀ l : Fin 4, l.val ∈ s.hopLanes h → s.laneBit h 16 l.val = false →
      (∀ k : Fin 4, s.laneBit h 8 l.val = true → s.hopUp h = true → k ≠ l → k.val ∈ s.hopLanes h → s.laneBit h 8 k.val = true →
        Completes (.laneLost h l) s fun t => t.laneBit h 16 l.val = true ∧ t.laneBit h 8 l.val = false ∧ t.hopUp h = true ∧
          t.bit (Reg.AKx_STAT (hopPort h)) 3 = true ∧ SameMemory s t) ∧
      (s.laneBit h 8 l.val = true → s.hopUp h = true → hopTrunk h = false → s.isEth h = false →
        (∀ k, k ∈ s.hopLanes h → k ≠ l.val → s.laneBit h 8 k = false) → Completes (.laneLost h l) s fun t =>
          (t.hop h).suspect = true ∧ t.bit (Reg.AKx_STAT (hopPort h)) 3 = true ∧ SameMemory s t) ∧
      (s.laneBit h 8 l.val = false ∨ s.hopUp h = false → Completes (.laneLost h l) s fun t =>
        (t.hop h).locked = (s.hop h).locked.erase l.val ∧ t.regs = s.regs ∧ SameMemory s t)) ∧
    (∀ l : Fin 4, l.val ∉ s.hopLanes h ∨ s.laneBit h 16 l.val = true → exec (.laneLost h l) s = .next s) ∧
    (∀ p : Fin 2, Completes (.laneCrcWindowEnd p) s fun t => SameMemory s t ∧
      ∀ g, g = ringHop p.val ∨ g = trunkHop p.val → (t.hop g).crcWin = [0, 0, 0, 0] ∧ (t.hop g).clean = (s.hop g).locked) ∧
    (∀ (m : Acc) (p : Fin 2) (v : Word), m.debug = false → s.targetOff (Reg.AKx_CTRL p.val) = false → s.targetOff (Reg.AKx_EPOL p.val) = false →
      Completes (.akethEpolWrite m p v) s (fun t => t.f (Reg.AKx_EPOL p.val) 7 0 = fld v 7 0 ∧ t.f (Reg.AKx_EPOL p.val) 31 16 = fld v 31 16 ∧
        (∀ g, g = ringHop p.val ∨ g = trunkHop p.val → (t.hop g).crcWin = [0, 0, 0, 0]) ∧ SameMemory s t) ∧
      Completes (.akethRetrain m p) s (fun t => (∀ g, g = ringHop p.val ∨ g = trunkHop p.val → t.hopState g = 0) ∧ SameMemory s t) ∧
      Completes (.akethLaneRetry m p) s (fun t => (∀ g l, g = ringHop p.val ∨ g = trunkHop p.val → l ∈ s.hopLanes g → s.laneBit g 12 l = true →
        t.laneBit g 12 l = false ∧ t.laneBit g 8 l = true) ∧ SameMemory s t) ∧
      Completes (.akethRekey m p) s (fun t => (∀ g, g = ringHop p.val ∨ g = trunkHop p.val → s.hopUp g = true → (t.hop g).rekey = true) ∧ SameMemory s t))) ∧
  (∀ (s : State), s.frozen = false →
    (∀ p : Fin 2,
      ((s.hop (ringHop p.val)).suspect = true → s.hopUp (ringHop p.val) = true → s.ringRole p.val = true →
        Completes (.pirouetteConfirm p) s fun t => t.hopState (ringHop p.val) = 0 ∧ t.bit (linkReg (ringHop p.val)) 28 = true ∧
          t.bit (Reg.AKx_STAT p.val) 4 = true ∧ (s.ringPos, p.val) ∈ t.link.breaks ∧ SameMemory s t) ∧
      ((s.hop (ringHop p.val)).suspect = false ∨ s.hopUp (ringHop p.val) = false ∨ s.ringRole p.val = false → exec (.pirouetteConfirm p) s = .next s) ∧
      (∀ e : Nat × List Frame, s.link.turnDue.find? (fun e => decide (e.1 = p.val)) = some e → Completes (.turnaround p) s fun t =>
        t.link.turnDue = s.link.turnDue.erase e ∧ SameMemory s t) ∧
      (s.link.turnDue.find? (fun e => decide (e.1 = p.val)) = none → exec (.turnaround p) s = .next s)) ∧
    (∀ (h : Hop) (ok : Bool) (f : Frame) (u : State), f.type = 0 → f.sub = 6 →
      (s.arrives h ok f = (true, u) → f.le 2 1 = u.ringNo →
        Completes (.ringstate h ok f) s fun t => ((f.le 0 1 % 64, f.le 1 1 % 2) ∈ t.link.breaks ↔ (f.le 1 1).testBit 1 = true)) ∧
      (s.arrives h ok f = (true, u) → f.le 2 1 ≠ u.ringNo → exec (.ringstate h ok f) s = .next u) ∧
      (s.arrives h ok f = (false, u) → exec (.ringstate h ok f) s = .next u)) ∧
    (∀ (h : Hop) (ok : Bool) (f : Frame), f.type ≠ 0 ∨ f.sub ≠ 6 → exec (.ringstate h ok f) s = .next s) ∧
    (s.isRingHead = true → s.ringRole 0 = true ∨ s.ringRole 1 = true → Completes .censusSend s fun t =>
      t.link.ringSeq = (s.link.ringSeq + 1) % 65536 ∧ SameMemory s t) ∧
    (s.isRingHead = false ∨ (s.ringRole 0 = false ∧ s.ringRole 1 = false) → exec .censusSend s = .next s) ∧
    (∀ (h : Hop) (ok : Bool) (f : Frame) (u : State), f.type = 4 → f.sub = 2 → hopTrunk h = false →
      (s.hopTakes h ok f = (false, u) → exec (.census h ok f) s = .next u) ∧
      (s.hopTakes h ok f = (true, u) → u.frameOk h f = false → exec (.census h ok f) s = .next (u.dropFrame h)) ∧
      (∀ w : State, s.hopTakes h ok f = (true, u) → u.frameOk h f = true → u.isRingHead = false → u.acceptRing f = (true, w) →
        ((f.le 1 1).testBit 1 = true → Completes (.census h ok f) s fun t =>
          t.link.census = censusEntries f ∧ t.link.closed = (f.le 1 1).testBit 0 ∧ t.link.breaks = []) ∧
        ((f.le 1 1).testBit 1 = false → exec (.census h ok f) s = .next ((w.appendCensus f).2.passRing (hopPort h) (w.appendCensus f).1)))) ∧
    (∀ (h : Hop) (ok : Bool) (f : Frame), f.type ≠ 4 ∨ f.sub ≠ 2 ∨ hopTrunk h = true → exec (.census h ok f) s = .next s))

/-- SCENE_WRITE, SCENE_FILL, PLANE_SEGMENT, FRAME_FORWARD and ETHERNET_FRAME (R118, R277, R279 to R281, R291, R305). An accepted SCENE frame makes its writes, and
one of one word writes that word and nothing else; NOTIFY shows its TAG; a PLANE frame that no slot takes is discarded and counted; a segment of the plane
being filled leaves that many bytes fewer; a frame of any type that the station accepts goes to its block, and a MAIL frame with no slot free waits with its
sender; an Ethernet frame with a bad FCS, too long, or not for the port is counted and has no other effect, and one for the port is an Aketh frame. -/
def Obligations.LinkContent : Prop :=
  ∀ (s : State), s.frozen = false →
    (∀ (h : Hop) (ok : Bool) (f : Frame) (u : State) (a : Nat), f.type = 1 → s.arrives h ok f = (true, u) → a = f.le 0 4 → inSram a = true → a % 16 = 0 →
      u.regionAllows (5 + hopPort h) a true = true → u.stagingLocked (5 + hopPort h) a = false → u.bankBusy (bankOf a) = false →
      (f.sub = 0 → f.data.length = 24 → Completes (.sceneWrite h ok f) s fun t => (∀ i, i < 16 → some (t.byte (a + i)) = f.data[8 + i]?) ∧
        (∀ b, b < a ∨ a + 16 ≤ b → t.byte b = u.byte b) ∧ (f.notify = true → t.reg (Reg.AKx_SCENETAG (hopPort h)) = wd (f.le 4 4))) ∧
      (f.sub = 1 → f.data.length = 32 → f.le 8 4 = 1 → Completes (.sceneFill h ok f) s fun t => (∀ i, i < 16 → some (t.byte (a + i)) = f.data[16 + i]?) ∧
        (∀ b, b < a ∨ a + 16 ≤ b → t.byte b = u.byte b) ∧ (f.notify = true → t.reg (Reg.AKx_SCENETAG (hopPort h)) = wd (f.le 4 4)))) ∧
    (∀ (h : Hop) (ok : Bool) (f : Frame) (u : State), f.type = 2 → s.arrives h ok f = (true, u) → (∀ n, n < 12 → u.streamed n = false) →
      Completes (.planeSegment h ok f) s fun t => t.f (Reg.AKx_DROP (hopPort h)) 15 0 = sat 65535 (u.f (Reg.AKx_DROP (hopPort h)) 15 0 + 1) ∧
        t.bit (Reg.AKx_STAT (hopPort h)) 7 = true ∧ SameMemory u t) ∧
    (∀ (h : Hop) (ok : Bool) (f : Frame) (u w : State) (n i : Nat) (data : List Byte), f.type = 2 → s.arrives h ok f = (true, u) → data = f.data.drop 16 →
      (List.range 12).filter (fun n => u.streamed n && decide (u.f (Reg.LAYn_Bb_SIZE0 n (u.front n)) 15 0 = f.le 0 2)) = [n] →
      f.le 4 2 < u.f (Reg.LAYn_Bb_SIZE1 n (u.front n)) 28 16 → f.le 8 4 + data.length ≤ u.rowBytes n → (u.layer n).lastTag = some (f.le 2 2) →
      f.le 2 2 < 65536 → (u.layer n).fillTag = some (f.le 2 2) → u.fillingBuf n = some i → u.qdl.layers.length = 12 →
      u.writeRun (5 + hopPort h) (data.length / 16 + 2) (u.bufAddr n i + f.le 4 2 * u.f (Reg.LAYn_Bb_STRIDE n (u.front n)) 15 0 + f.le 8 4) data = (true, w) →
      data.length < (u.layer n).fillLeft → Completes (.planeSegment h ok f) s fun t => (t.layer n).fillLeft = (u.layer n).fillLeft - data.length ∧
        t.fillingBuf n = some i ∧ SameMemory w t) ∧
    (∀ (h : Hop) (ok : Bool) (f : Frame) (u : State),
      (f.type = 1 → f.sub = 0 → s.arrives h ok f = (true, u) → exec (.sceneWrite h ok f) s = .next (u.deliverScene h f)) ∧
      (f.type = 1 → f.sub = 1 → s.arrives h ok f = (true, u) → exec (.sceneFill h ok f) s = .next (u.deliverScene h f)) ∧
      (f.type = 1 → f.sub = 0 → s.arrives h ok f = (false, u) → exec (.sceneWrite h ok f) s = .next u) ∧
      (f.type = 1 → f.sub = 1 → s.arrives h ok f = (false, u) → exec (.sceneFill h ok f) s = .next u) ∧
      (f.type ≠ 1 ∨ f.sub ≠ 0 → exec (.sceneWrite h ok f) s = .next s) ∧ (f.type ≠ 1 ∨ f.sub ≠ 1 → exec (.sceneFill h ok f) s = .next s) ∧
      (f.type = 2 → s.arrives h ok f = (true, u) → exec (.planeSegment h ok f) s = .next (u.deliverPlane h f)) ∧
      (f.type = 2 → s.arrives h ok f = (false, u) → exec (.planeSegment h ok f) s = .next u) ∧
      (f.type ≠ 2 → exec (.planeSegment h ok f) s = .next s)) ∧
    (∀ (h : Hop) (ok : Bool) (f : Frame), f.type = 4 → f.sub = 2 → exec (.frameForward h ok f) s = exec (.census h ok f) s) ∧
    (∀ (h : Hop) (ok : Bool) (f : Frame) (u : State), ¬ (f.type = 4 ∧ f.sub = 2) →
      (s.arrives h ok f = (false, u) → exec (.frameForward h ok f) s = .next u) ∧
      (s.arrives h ok f = (true, u) → ¬ (f.type = 4 ∧ f.sub = 3 ∧ u.freeInbound = none) → exec (.frameForward h ok f) s = .next (u.deliver h f)) ∧
      (s.arrives h ok f = (true, u) → f.type = 4 → f.sub = 3 → u.freeInbound = none → exec (.frameForward h ok f) s = .next s)) ∧
    (∀ (h : Hop) (ok : Bool) (f : Frame) (u : State) (k : Nat), f.type = 4 → f.sub = 3 → s.arrives h ok f = (true, u) → u.freeInbound = some k →
      Completes (.frameForward h ok f) s fun t => t.bit Reg.MGT_MBINSTAT k = true ∧ t.bit Reg.MGT_STAT 4 = true ∧ SameMemory u t) ∧
    (∀ (p : Fin 2) (fcs ok ptp : Bool) (dst etype size : Nat) (f : Frame), s.isEth (ringHop p.val) = true →
      (fcs = false → Completes (.ethernetFrame p fcs ok ptp dst etype size f) s fun t =>
        t.f (Reg.AKx_ETHCNT p.val) 15 0 = sat 65535 (s.f (Reg.AKx_ETHCNT p.val) 15 0 + 1) ∧ SameRegsBut (fun a => a = Reg.AKx_ETHCNT p.val) s t ∧
        t.out = s.out ∧ t.link = s.link ∧ SameMemory s t) ∧
      (fcs = true → 9216 < size → Completes (.ethernetFrame p fcs ok ptp dst etype size f) s fun t =>
        t.f (Reg.AKx_ETHCNT p.val) 31 16 = sat 65535 (s.f (Reg.AKx_ETHCNT p.val) 31 16 + 1) ∧ SameRegsBut (fun a => a = Reg.AKx_ETHCNT p.val) s t ∧
        t.out = s.out ∧ t.link = s.link ∧ SameMemory s t) ∧
      (fcs = true → size ≤ 9216 → dst = s.mac (Reg.AKx_MACLO p.val) (Reg.AKx_MACHI p.val) → etype = s.f (Reg.AKx_ETYPE p.val) 15 0 →
        exec (.ethernetFrame p fcs ok ptp dst etype size f) s = .next (s.frameArrives (ringHop p.val) ok f)) ∧
      (fcs = true → size ≤ 9216 → dst ≠ s.mac (Reg.AKx_MACLO p.val) (Reg.AKx_MACHI p.val) ∨ etype ≠ s.f (Reg.AKx_ETYPE p.val) 15 0 →
        (ptp = true → s.f Reg.BEAM_LOCKCTL 8 8 = p.val → exec (.ethernetFrame p fcs ok ptp dst etype size f) s = .next s) ∧
        (ptp = false ∨ s.f Reg.BEAM_LOCKCTL 8 8 ≠ p.val → exec (.ethernetFrame p fcs ok ptp dst etype size f) s =
          .next (s.count (Reg.AKx_ETHCNT p.val) 31 16)))) ∧
    (∀ (p : Fin 2) (fcs ok ptp : Bool) (dst etype size : Nat) (f : Frame), s.isEth (ringHop p.val) = false →
      exec (.ethernetFrame p fcs ok ptp dst etype size f) s = .next s)

/-- ADD, SUB, AND, OR, XOR, SHL, SHR, ASR, ADDI, ANDI, ORI, XORI, SHLI, SHRI, ASRI, MOVI, LUI (R311, R314, R319). An instruction that begins writes its
result, computed from the registers as they stand, to RD and to nothing else; shifts take the low five bits of RB; the arithmetic immediates are sign-extended
and the logical ones zero-extended; the core goes on at the next word, or at the branch's target in a delay slot. -/
def Obligations.CoreArithmetic : Prop :=
  ∀ (c : Fin 3) (rd ra rb : Fin 16) (imm : BitVec 18) (sh : BitVec 5) (hi : BitVec 16) (a b : Word) (s : State),
    a = (s.core c.val).r ra.val → b = (s.core c.val).r rb.val →
    (Begins c.val (encR 0x00 rd.val ra.val rb.val) s → Completes (.gvAdd c rd ra rb) s (Wrote c.val rd.val (a + b) s)) ∧
    (Begins c.val (encR 0x01 rd.val ra.val rb.val) s → Completes (.gvSub c rd ra rb) s (Wrote c.val rd.val (a - b) s)) ∧
    (Begins c.val (encR 0x02 rd.val ra.val rb.val) s → Completes (.gvAnd c rd ra rb) s (Wrote c.val rd.val (a &&& b) s)) ∧
    (Begins c.val (encR 0x03 rd.val ra.val rb.val) s → Completes (.gvOr c rd ra rb) s (Wrote c.val rd.val (a ||| b) s)) ∧
    (Begins c.val (encR 0x04 rd.val ra.val rb.val) s → Completes (.gvXor c rd ra rb) s (Wrote c.val rd.val (a ^^^ b) s)) ∧
    (Begins c.val (encR 0x05 rd.val ra.val rb.val) s → Completes (.gvShl c rd ra rb) s (Wrote c.val rd.val (a <<< (b.toNat % 32)) s)) ∧
    (Begins c.val (encR 0x06 rd.val ra.val rb.val) s → Completes (.gvShr c rd ra rb) s (Wrote c.val rd.val (a >>> (b.toNat % 32)) s)) ∧
    (Begins c.val (encR 0x07 rd.val ra.val rb.val) s → Completes (.gvAsr c rd ra rb) s (Wrote c.val rd.val (a.sshiftRight (b.toNat % 32)) s)) ∧
    (Begins c.val (encI 0x10 rd.val ra.val imm) s → Completes (.gvAddi c rd ra imm) s (Wrote c.val rd.val (a + imm.signExtend 32) s)) ∧
    (Begins c.val (encI 0x11 rd.val ra.val imm) s → Completes (.gvAndi c rd ra imm) s (Wrote c.val rd.val (a &&& imm.setWidth 32) s)) ∧
    (Begins c.val (encI 0x12 rd.val ra.val imm) s → Completes (.gvOri c rd ra imm) s (Wrote c.val rd.val (a ||| imm.setWidth 32) s)) ∧
    (Begins c.val (encI 0x13 rd.val ra.val imm) s → Completes (.gvXori c rd ra imm) s (Wrote c.val rd.val (a ^^^ imm.setWidth 32) s)) ∧
    (Begins c.val (encI 0x14 rd.val ra.val (sh.setWidth 18)) s → Completes (.gvShli c rd ra sh) s (Wrote c.val rd.val (a <<< sh.toNat) s)) ∧
    (Begins c.val (encI 0x15 rd.val ra.val (sh.setWidth 18)) s → Completes (.gvShri c rd ra sh) s (Wrote c.val rd.val (a >>> sh.toNat) s)) ∧
    (Begins c.val (encI 0x16 rd.val ra.val (sh.setWidth 18)) s → Completes (.gvAsri c rd ra sh) s (Wrote c.val rd.val (a.sshiftRight sh.toNat) s)) ∧
    (Begins c.val (encI 0x17 rd.val 0 imm) s → Completes (.gvMovi c rd imm) s (Wrote c.val rd.val (imm.signExtend 32) s)) ∧
    (Begins c.val (encI 0x18 rd.val 0 (hi.setWidth 18)) s → Completes (.gvLui c rd hi) s (Wrote c.val rd.val (wd (hi.toNat * 2 ^ 16)) s))

/-- MUL, MULHS, MULHU, DIVS, DIVU, REMS, REMU, ISQRT, CRCW and CRCB (R319, R320, R323). The result is posted and comes later; products give their low or high
word; quotients round to zero and remainders take the dividend's sign; a zero divisor gives all ones, or the dividend, and sets ST.DZ, which no other divisor
touches; ISQRT gives the greatest integer whose square is not above RA. -/
def Obligations.CoreUnits : Prop :=
  ∀ (c : Fin 3) (rd ra rb : Fin 16) (a b : Word) (s : State), a = (s.core c.val).r ra.val → b = (s.core c.val).r rb.val →
    (Begins c.val (encR 0x08 rd.val ra.val rb.val) s → Completes (.gvMul c rd ra rb) s (Posted c.val rd.val (a * b) s)) ∧
    (Begins c.val (encR 0x09 rd.val ra.val rb.val) s → Completes (.gvMulhs c rd ra rb) s (Posted c.val rd.val (wi (a.toInt * b.toInt / 2 ^ 32)) s)) ∧
    (Begins c.val (encR 0x0A rd.val ra.val rb.val) s → Completes (.gvMulhu c rd ra rb) s (Posted c.val rd.val (wd (a.toNat * b.toNat / 2 ^ 32)) s)) ∧
    (Begins c.val (encR 0x0B rd.val ra.val rb.val) s → Completes (.gvDivs c rd ra rb) s fun t =>
      bitAt (t.core c.val).st 1 = (bitAt (s.core c.val).st 1 || decide (b = 0)) ∧
      Posted c.val rd.val (if b = 0 then 0xFFFFFFFF else wi (a.toInt.tdiv b.toInt)) s t) ∧
    (Begins c.val (encR 0x0C rd.val ra.val rb.val) s → Completes (.gvDivu c rd ra rb) s fun t =>
      bitAt (t.core c.val).st 1 = (bitAt (s.core c.val).st 1 || decide (b = 0)) ∧
      Posted c.val rd.val (if b = 0 then 0xFFFFFFFF else wd (a.toNat / b.toNat)) s t) ∧
    (Begins c.val (encR 0x0D rd.val ra.val rb.val) s → Completes (.gvRems c rd ra rb) s fun t =>
      bitAt (t.core c.val).st 1 = (bitAt (s.core c.val).st 1 || decide (b = 0)) ∧
      Posted c.val rd.val (if b = 0 then a else wi (a.toInt.tmod b.toInt)) s t) ∧
    (Begins c.val (encR 0x0E rd.val ra.val rb.val) s → Completes (.gvRemu c rd ra rb) s fun t =>
      bitAt (t.core c.val).st 1 = (bitAt (s.core c.val).st 1 || decide (b = 0)) ∧
      Posted c.val rd.val (if b = 0 then a else wd (a.toNat % b.toNat)) s t) ∧
    (Begins c.val (encR 0x3E rd.val ra.val 0 ||| wd 0) s → Completes (.gvIsqrt c rd ra) s fun t =>
      ∃ v : Word, Posted c.val rd.val v s t ∧ v.toNat * v.toNat ≤ a.toNat ∧ a.toNat < (v.toNat + 1) * (v.toNat + 1)) ∧
    (Begins c.val (encR 0x3E rd.val ra.val rb.val ||| wd 1) s → Completes (.gvCrcw c rd ra rb) s
      (Posted c.val rd.val (wd (crc32Run a.toNat (leBytes 4 b.toNat))) s)) ∧
    (Begins c.val (encR 0x3E rd.val ra.val rb.val ||| wd 2) s → Completes (.gvCrcb c rd ra rb) s
      (Posted c.val rd.val (wd (crc32Run a.toNat (leBytes 1 b.toNat))) s))

/-- LDW, LDH, LDHU, LDB, LDBU, STW, STH and STB (R321, R322, R324). A load posts what the bytes at RA + IMM hold, sign- or zero-extended; a store puts the low
bytes of RD there and changes no other byte, in local SRAM at once and in main SRAM with a response to come; with four stores outstanding it waits. At
every address a load or store that begins makes its access and the core goes on. -/
def Obligations.CoreMemory : Prop :=
  ∀ (c : Fin 3) (rd ra : Fin 16) (imm : BitVec 18) (a k : Nat) (v : Word) (s : State),
    a = ((s.core c.val).r ra.val + imm.signExtend 32).toNat → k = localKey c.val (a - 0x08000000) → v = (s.core c.val).r rd.val →
    (memOf c.val a = 1 → s.mark (k / 4 * 4) = .none →
      (a % 4 = 0 → Begins c.val (encI 0x20 rd.val ra.val imm) s → Completes (.gvLdw c rd ra imm) s fun t =>
        ∃ r, Moved c.val (s.core c.val).g (NextPc c.val s) s t ∧ (t.core c.val).results = (s.core c.val).results ++ [r] ∧ r.rd = rd.val ∧ r.code = 0 ∧
          r.value = wd (s.le k 4) ∧ SameMemory s t) ∧
      (a % 2 = 0 → Begins c.val (encI 0x21 rd.val ra.val imm) s → Completes (.gvLdh c rd ra imm) s fun t =>
        ∃ r, Moved c.val (s.core c.val).g (NextPc c.val s) s t ∧ (t.core c.val).results = (s.core c.val).results ++ [r] ∧ r.rd = rd.val ∧ r.code = 0 ∧
          r.value = wi (sext 16 (s.le k 2)) ∧ SameMemory s t) ∧
      (a % 2 = 0 → Begins c.val (encI 0x22 rd.val ra.val imm) s → Completes (.gvLdhu c rd ra imm) s fun t =>
        ∃ r, Moved c.val (s.core c.val).g (NextPc c.val s) s t ∧ (t.core c.val).results = (s.core c.val).results ++ [r] ∧ r.rd = rd.val ∧ r.code = 0 ∧
          r.value = wd (s.le k 2) ∧ SameMemory s t) ∧
      (Begins c.val (encI 0x23 rd.val ra.val imm) s → Completes (.gvLdb c rd ra imm) s fun t =>
        ∃ r, Moved c.val (s.core c.val).g (NextPc c.val s) s t ∧ (t.core c.val).results = (s.core c.val).results ++ [r] ∧ r.rd = rd.val ∧ r.code = 0 ∧
          r.value = wi (sext 8 (s.le k 1)) ∧ SameMemory s t) ∧
      (Begins c.val (encI 0x24 rd.val ra.val imm) s → Completes (.gvLdbu c rd ra imm) s fun t =>
        ∃ r, Moved c.val (s.core c.val).g (NextPc c.val s) s t ∧ (t.core c.val).results = (s.core c.val).results ++ [r] ∧ r.rd = rd.val ∧ r.code = 0 ∧
          r.value = wd (s.le k 1) ∧ SameMemory s t) ∧
      (a % 4 = 0 → Begins c.val (encI 0x25 rd.val ra.val imm) s → Completes (.gvStw c rd ra imm) s fun t =>
        Moved c.val (s.core c.val).g (NextPc c.val s) s t ∧ t.le k 4 = v.toNat ∧ ∀ i, i < k ∨ k + 4 ≤ i → t.byte i = s.byte i) ∧
      (a % 2 = 0 → Begins c.val (encI 0x26 rd.val ra.val imm) s → Completes (.gvSth c rd ra imm) s fun t =>
        Moved c.val (s.core c.val).g (NextPc c.val s) s t ∧ t.le k 2 = v.toNat % 2 ^ 16 ∧ ∀ i, i < k ∨ k + 2 ≤ i → t.byte i = s.byte i) ∧
      (Begins c.val (encI 0x27 rd.val ra.val imm) s → Completes (.gvStb c rd ra imm) s fun t =>
        Moved c.val (s.core c.val).g (NextPc c.val s) s t ∧ t.le k 1 = v.toNat % 2 ^ 8 ∧ ∀ i, i < k ∨ k + 1 ≤ i → t.byte i = s.byte i)) ∧
    (memOf c.val a = 2 → a % 4 = 0 → Begins c.val (encI 0x25 rd.val ra.val imm) s →
      ((s.core c.val).stores.length < 4 → s.regionAllows (corePort c.val) (a / 16 * 16) true = true → s.stagingLocked (corePort c.val) (a / 16 * 16) = false →
        s.bankBusy (bankOf a) = false → s.mark (a / 16 * 16) = .none → Completes (.gvStw c rd ra imm) s fun t =>
          Moved c.val (s.core c.val).g (NextPc c.val s) s t ∧ (t.core c.val).stores.length = (s.core c.val).stores.length + 1 ∧ t.le a 4 = v.toNat ∧
            ∀ i, i < a ∨ a + 4 ≤ i → t.byte i = s.byte i) ∧
      (4 ≤ (s.core c.val).stores.length → exec (.gvStw c rd ra imm) s = .next (s.fetchAhead c.val))) ∧
    (memOf c.val a = 2 → a % 4 = 0 → Begins c.val (encI 0x20 rd.val ra.val imm) s → s.regionAllows (corePort c.val) (a / 16 * 16) false = true →
      s.bankBusy (bankOf a) = false → s.mark (a / 16 * 16) = .none → Completes (.gvLdw c rd ra imm) s fun t =>
        ∃ r, Moved c.val (s.core c.val).g (NextPc c.val s) s t ∧ (t.core c.val).results = (s.core c.val).results ++ [r] ∧ r.rd = rd.val ∧ r.code = 0 ∧
          r.value = wd (s.le a 4) ∧ SameMemory s t) ∧
    (memOf c.val a ≠ 3 → Begins c.val (encI 0x20 rd.val ra.val imm) s → Completes (.gvLdw c rd ra imm) s fun t =>
      Moved c.val (s.core c.val).g (NextPc c.val s) s t ∧ (t.core c.val).results.length = (s.core c.val).results.length + 1) ∧
    (∀ (i : Instr) (o n : Nat) (signed : Bool),
      (i, o, n, signed) ∈ [(.gvLdw c rd ra imm, 0x20, 4, false), (.gvLdh c rd ra imm, 0x21, 2, true), (.gvLdhu c rd ra imm, 0x22, 2, false),
        (.gvLdb c rd ra imm, 0x23, 1, true), (.gvLdbu c rd ra imm, 0x24, 1, false)] → Begins c.val (encI o rd.val ra.val imm) s →
      exec i s = .next (((s.fetchAhead c.val).loadTo c.val rd.val a n signed).retire c.val false none)) ∧
    (∀ (i : Instr) (o n : Nat), (i, o, n) ∈ [(.gvStw c rd ra imm, 0x25, 4), (.gvSth c rd ra imm, 0x26, 2), (.gvStb c rd ra imm, 0x27, 1)] →
      Begins c.val (encI o rd.val ra.val imm) s →
      (memOf c.val a = 1 ∨ (s.core c.val).stores.length < 4 →
        exec i s = .next (((s.fetchAhead c.val).storeFrom c.val a (leBytes n v.toNat)).retire c.val false none)) ∧
      (memOf c.val a ≠ 1 → 4 ≤ (s.core c.val).stores.length → exec i s = .next (s.fetchAhead c.val)))

/-- SWAP_ATOMIC, CAS, FADD, FOR, FANDN, ATOMIC_RESPONSE and LOCKED_ACCESS_WITHDRAW (R327, R345). On a word of local SRAM an atomic reads it, writes what its
operation makes of it, and puts the old word into RD, in one act; on a word of main SRAM it waits for its grant, and does the same at its response; a
withdrawn access has done nothing. -/
def Obligations.CoreAtomics : Prop :=
  ∀ (c : Fin 3) (rd ra rb : Fin 16) (a k : Nat) (b d m : Word) (s : State),
    a = ((s.core c.val).r ra.val).toNat → k = localKey c.val (a - 0x08000000) → b = (s.core c.val).r rb.val → d = (s.core c.val).r rd.val →
    (memOf c.val a = 1 → s.mark k = .none → m = s.word k →
      (Begins c.val (encR 0x28 rd.val ra.val rb.val) s → Completes (.gvSwapAtomic c rd ra rb) s fun t =>
        Moved c.val ((s.core c.val).g.set rd.val m) (NextPc c.val s) s t ∧ t.word k = b) ∧
      (Begins c.val (encR 0x29 rd.val ra.val rb.val) s → Completes (.gvCas c rd ra rb) s fun t =>
        Moved c.val ((s.core c.val).g.set rd.val m) (NextPc c.val s) s t ∧ t.word k = if m = d then b else m) ∧
      (Begins c.val (encR 0x2A rd.val ra.val rb.val) s → Completes (.gvFadd c rd ra rb) s fun t =>
        Moved c.val ((s.core c.val).g.set rd.val m) (NextPc c.val s) s t ∧ t.word k = m + b) ∧
      (Begins c.val (encR 0x2B rd.val ra.val rb.val) s → Completes (.gvFor c rd ra rb) s fun t =>
        Moved c.val ((s.core c.val).g.set rd.val m) (NextPc c.val s) s t ∧ t.word k = m ||| b) ∧
      (Begins c.val (encR 0x2C rd.val ra.val rb.val) s → Completes (.gvFandn c rd ra rb) s fun t =>
        Moved c.val ((s.core c.val).g.set rd.val m) (NextPc c.val s) s t ∧ t.word k = m &&& ~~~b)) ∧
    (∀ (i : Instr) (op : Nat), (i, op) ∈ [(.gvSwapAtomic c rd ra rb, 0), (.gvCas c rd ra rb, 1), (.gvFadd c rd ra rb, 2), (.gvFor c rd ra rb, 3),
        (.gvFandn c rd ra rb, 4)] → Begins c.val (encR (0x28 + op) rd.val ra.val rb.val) s →
      (memOf c.val a = 2 → Completes i s fun t => (t.core c.val).atomic = some ⟨op, some rd.val, a, b, d, plain⟩ ∧
        (t.core c.val).pc = (s.core c.val).pc ∧ SameMemory s t) ∧
      (memOf c.val a = 1 → exec i s = .next ((s.fetchAhead c.val).atomicDone c.val ⟨op, some rd.val, a, b, d, plain⟩))) ∧
    ((s.core c.val).atomic = none → exec (.atomicResponse c) s = .next s) ∧
    (∀ q : GvAtomic, (s.core c.val).atomic = some q → exec (.atomicResponse c) s = .next (s.atomicDone c.val q)) ∧
    (∀ (q : GvAtomic), (s.core c.val).atomic = some q → q.fin = plain → q.rd = some rd.val → q.op = 1 → memOf c.val q.addr = 2 → q.addr % 4 = 0 →
      (s.core c.val).run = .run → s.regionAllows (corePort c.val) (q.addr / 16 * 16) false = true → s.bankBusy (bankOf q.addr) = false →
      s.mark (q.addr / 16 * 16) = .none → s.word q.addr ≠ q.cmp → Completes (.atomicResponse c) s fun t =>
        Moved c.val ((s.core c.val).g.set rd.val (s.word q.addr)) (NextPc c.val s) s t ∧ (t.core c.val).atomic = none ∧ SameMemory s t) ∧
    (∀ (q : GvAtomic) (v : Word), (s.core c.val).atomic = some q → (s.core c.val).run = .run → q.fin = plain → q.rd = some rd.val → memOf c.val q.addr = 2 → q.addr % 4 = 0 →
      (∀ w, s.regionAllows (corePort c.val) (q.addr / 16 * 16) w = true) → s.stagingLocked (corePort c.val) (q.addr / 16 * 16) = false →
      s.bankBusy (bankOf q.addr) = false → s.mark (q.addr / 16 * 16) = .none → atomicNew q.op (s.word q.addr) q.rb q.cmp = some v →
      Completes (.atomicResponse c) s fun t => Moved c.val ((s.core c.val).g.set rd.val (s.word q.addr)) (NextPc c.val s) s t ∧
        (t.core c.val).atomic = none ∧ t.word q.addr = v ∧ ∀ i, i < q.addr ∨ q.addr + 4 ≤ i → t.byte i = s.byte i) ∧
    Completes (.lockedAccessWithdraw c) s (fun t => t.core c.val = { s.core c.val with atomic := none } ∧ t.regs = s.regs ∧ SameMemory s t)

/-- BR, CALL, JR, CALLR, RET, CSK, CSKI, TBSK, BFX, BFI, CLZ and PERM (R315, R316, R318, R319). A branch lets the next word run and then goes to its target;
a call leaves the address after the delay slot in g15; a skip passes over the next word where its condition holds; the field instructions write the
field or the bytes that they name. -/
def Obligations.CoreBranches : Prop :=
  ∀ (c : Fin 3) (rd ra rb : Fin 16) (a b : Word) (p : Nat) (s : State), a = (s.core c.val).r ra.val → b = (s.core c.val).r rb.val → p = (s.core c.val).pc →
    (∀ off : BitVec 26, Begins c.val (encJ 0x30 off) s → Completes (.gvBr c off) s fun t => Moved c.val (s.core c.val).g ((p + 4) % 2 ^ 32) s t ∧
      (t.core c.val).slot = some (p, (wd p + off.signExtend 32 * 4).toNat / 4 * 4) ∧ SameMemory s t) ∧
    (∀ off : BitVec 26, Begins c.val (encJ 0x31 off) s → Completes (.gvCall c off) s fun t =>
      Moved c.val ((s.core c.val).g.set 15 (wd (p + 8))) ((p + 4) % 2 ^ 32) s t ∧
      (t.core c.val).slot = some (p, (wd p + off.signExtend 32 * 4).toNat / 4 * 4) ∧ SameMemory s t) ∧
    (Begins c.val (encR 0x32 0 ra.val 0) s → Completes (.gvJr c ra) s fun t => Moved c.val (s.core c.val).g ((p + 4) % 2 ^ 32) s t ∧
      (t.core c.val).slot = some (p, a.toNat / 4 * 4) ∧ SameMemory s t) ∧
    (Begins c.val (encR 0x33 0 ra.val 0) s → Completes (.gvCallr c ra) s fun t =>
      Moved c.val ((s.core c.val).g.set 15 (wd (p + 8))) ((p + 4) % 2 ^ 32) s t ∧ (t.core c.val).slot = some (p, a.toNat / 4 * 4) ∧ SameMemory s t) ∧
    (Begins c.val (encR 0x34 0 0 0) s → Completes (.gvRet c) s fun t => Moved c.val (s.core c.val).g ((p + 4) % 2 ^ 32) s t ∧
      (t.core c.val).slot = some (p, ((s.core c.val).r 15).toNat / 4 * 4) ∧ SameMemory s t) ∧
    (∀ cc : Fin 16, Begins c.val (encR 0x36 cc.val ra.val rb.val) s → Completes (.gvCsk c cc ra rb) s fun t =>
      Moved c.val (s.core c.val).g ((p + if holds cc.val a b then 8 else 4) % 2 ^ 32) s t ∧ SameMemory s t) ∧
    (∀ (cc : Fin 16) (imm : BitVec 18), Begins c.val (encI 0x37 cc.val ra.val imm) s → Completes (.gvCski c cc ra imm) s fun t =>
      Moved c.val (s.core c.val).g ((p + if holds cc.val a (imm.signExtend 32) then 8 else 4) % 2 ^ 32) s t ∧ SameMemory s t) ∧
    (∀ (i : Fin 32) (v : Bool), Begins c.val (encI 0x38 (b2n v) ra.val (BitVec.ofNat 18 i.val)) s → Completes (.gvTbsk c ra i v) s fun t =>
      Moved c.val (s.core c.val).g ((p + if bitAt a i.val = v then 8 else 4) % 2 ^ 32) s t ∧ SameMemory s t) ∧
    (∀ pos w : Fin 32, Begins c.val (encI 0x39 rd.val ra.val (formB false pos w)) s → Completes (.gvBfx c rd ra pos w false) s
      (Wrote c.val rd.val (wd (fld a (pos.val + w.val) pos.val)) s)) ∧
    (∀ pos w : Fin 32, Begins c.val (encI 0x39 rd.val ra.val (formB true pos w)) s → Completes (.gvBfx c rd ra pos w true) s
      (Wrote c.val rd.val (wi (sext (w.val + 1) (fld a (pos.val + w.val) pos.val))) s)) ∧
    (∀ pos w : Fin 32, Begins c.val (encI 0x3A rd.val ra.val (formB false pos w)) s → Completes (.gvBfi c rd ra pos w) s fun t =>
      ∃ v : Word, Wrote c.val rd.val v s t ∧ ∀ i, i < 32 →
        bitAt v i = if pos.val ≤ i ∧ i ≤ pos.val + w.val then bitAt a (i - pos.val) else bitAt ((s.core c.val).r rd.val) i) ∧
    (Begins c.val (encI 0x3B rd.val ra.val 0) s → Completes (.gvClz c rd ra) s fun t =>
      ∃ n : Nat, Wrote c.val rd.val (wd n) s t ∧ n ≤ 32 ∧ a.toNat < 2 ^ (32 - n) ∧ (n < 32 → 2 ^ (31 - n) ≤ a.toNat)) ∧
    (∀ sel : BitVec 16, Begins c.val (encI 0x3C rd.val ra.val (sel.setWidth 18)) s → Completes (.gvPerm c rd ra sel) s fun t =>
      ∃ v : Word, Wrote c.val rd.val v s t ∧ ∀ k, k < 4 →
        fld v (8 * k + 7) (8 * k) = permByte (sel.toNat / 16 ^ k % 16) a ((s.core c.val).r rd.val))

/-- MFS, MTS, FENCE, IFENCE, WAIT, DI, EI, SYSC, BRK and RETI (R325, R326, R328, R333, R334, R470, R471). MFS reads the system register named; MTS writes the
writable bits of ST, EVBASE in steps of 256 bytes, or DTX, which a full channel discards and marks; FENCE goes on when nothing is outstanding and else waits; DI gives the old ST and clears IE; WAIT
stops the core; SYSC takes its exception, stacking the next PC, with its code in FINFO, or is a double fault; BRK halts in stop mode, takes the DEBUG exception
in monitor mode, and is a double fault in the secure state; RETI restores PC, g0 to g7, g14 and the writable bits of ST from the frame. -/
def Obligations.CoreSystem : Prop :=
  ∀ (c : Fin 3) (rd ra : Fin 16) (x : CoreSt) (s : State), x = s.core c.val →
    (∀ n : Fin 256, Begins c.val (encY 0 rd.val 0 n.val) s → Completes (.gvMfs c rd n) s (Wrote c.val rd.val (s.sysReg c.val n.val) s)) ∧
    (Begins c.val (encY 1 0 ra.val 0) s → Completes (.gvMts c 0 ra) s fun t => Moved c.val x.g (NextPc c.val s) s t ∧
      (t.core c.val).st &&& stRw = x.r ra.val &&& stRw) ∧
    (Begins c.val (encY 1 0 ra.val 4) s → Completes (.gvMts c 4 ra) s fun t => Moved c.val x.g (NextPc c.val s) s t ∧
      (t.core c.val).evbase = x.r ra.val &&& 0xFFFFFF00) ∧
    (Begins c.val (encY 1 0 ra.val 8) s → s.bit (Reg.DBG_Cc_VT c.val) 0 = false → Completes (.gvMts c 8 ra) s fun t => Moved c.val x.g (NextPc c.val s) s t ∧
      t.reg (Reg.DBG_Cc_DTX c.val) = x.r ra.val ∧ t.bit (Reg.DBG_Cc_VT c.val) 0 = true) ∧
    (Begins c.val (encY 1 0 ra.val 8) s → s.bit (Reg.DBG_Cc_VT c.val) 0 = true → Completes (.gvMts c 8 ra) s fun t => Moved c.val x.g (NextPc c.val s) s t ∧
      t.reg (Reg.DBG_Cc_DTX c.val) = s.reg (Reg.DBG_Cc_DTX c.val) ∧ t.bit (Reg.DBG_Cc_VT c.val) 2 = true) ∧
    (Begins c.val (encY 2 0 0 0) s → x.stores = [] → x.results = [] → Completes (.gvFence c) s fun t =>
      Moved c.val x.g (NextPc c.val s) s t ∧ SameMemory s t) ∧
    (Begins c.val (encY 2 0 0 0) s → x.stores ≠ [] ∨ x.results.any (fun r => r.load) = true → exec (.gvFence c) s = .next (s.fetchAhead c.val)) ∧
    (Begins c.val (encY 2 0 0 0) s → x.stores = [] → x.results.any (fun r => r.load) = false →
      exec (.gvFence c) s = .next ((s.fetchAhead c.val).retire c.val false none)) ∧
    (Begins c.val (encY 3 0 0 0) s → Completes (.gvIfence c) s fun t => Moved c.val x.g (NextPc c.val s) s t ∧ (t.core c.val).ahead = [] ∧ SameMemory s t) ∧
    (Begins c.val (encY 4 0 0 0) s → Completes (.gvWait c) s fun t => (t.core c.val).run = .wait ∧ (t.core c.val).pc = (x.pc + 4) % 2 ^ 32 ∧
      (t.core c.val).g = x.g ∧ SameMemory s t) ∧
    (Begins c.val (encY 5 rd.val 0 0) s → Completes (.gvDi c rd) s fun t => Wrote c.val rd.val x.st s t ∧ bitAt (t.core c.val).st 0 = false) ∧
    (Begins c.val (encY 6 0 0 0) s → Completes (.gvEi c) s fun t => Moved c.val x.g (NextPc c.val s) s t ∧ bitAt (t.core c.val).st 0 = true ∧ SameMemory s t) ∧
    (∀ code : BitVec 14, Begins c.val (encY 7 0 0 code.toNat) s → x.waits 14 = false → x.exc = false → x.sec = false → x.frameOk c.val = true → x.results = [] →
      x.g.length = 16 → Completes (.gvSysc c code) s fun t => (t.core c.val).pc = (x.evbase.toNat / 256 * 256 + 0x50) % 2 ^ 32 ∧ (t.core c.val).fpc = wd x.pc ∧
        fld (t.core c.val).finfo 31 18 = code.toNat ∧ bitAt (t.core c.val).st 4 = true ∧ bitAt (t.core c.val).st 0 = false ∧
        ((t.core c.val).r 14).toNat = (x.r 14).toNat - 40 ∧
        ∀ k, k = localKey c.val ((x.r 14).toNat - 40 - 0x08000000) → t.word k = x.st ∧ t.word (k + 4) = wd ((x.pc + 4) % 2 ^ 32) ∧
          ∀ i, i < 8 → t.word (k + 8 + 4 * i) = x.r i) ∧
    (∀ code : BitVec 14, Begins c.val (encY 7 0 0 code.toNat) s →
      (x.waits 14 = true → exec (.gvSysc c code) s = .next (s.fetchAhead c.val)) ∧
      (x.waits 14 = false → x.exc = true ∨ x.sec = true ∨ x.frameOk c.val = false → exec (.gvSysc c code) s = .next ((s.fetchAhead c.val).doubleFault c.val))) ∧
    (∀ code : BitVec 14, Begins c.val (encY 8 0 0 code.toNat) s →
      (x.sec = true → exec (.gvBrk c code) s = .next ((s.fetchAhead c.val).doubleFault c.val)) ∧
      (x.sec = false → s.bit (Reg.DBG_Cc_CTRL c.val) 2 = false → x.waits 14 = false → x.exc = false → x.frameOk c.val = true →
        Completes (.gvBrk c code) s fun t => (t.core c.val).pc = (x.evbase.toNat / 256 * 256 + 0x60) % 2 ^ 32 ∧ (t.core c.val).monitor = true ∧
          fld (t.core c.val).finfo 31 18 = code.toNat ∧ bitAt (t.core c.val).st 4 = true ∧ t.f (Reg.DBG_Cc_STAT c.val) 1 0 = 2 ∧
          t.f (Reg.DBG_Cc_STAT c.val) 6 4 = 5)) ∧
    (∀ code : BitVec 14, Begins c.val (encY 8 0 0 code.toNat) s → x.sec = false → s.bit (Reg.DBG_Cc_CTRL c.val) 2 = true → Completes (.gvBrk c code) s fun t =>
      (t.core c.val).run = .halt ∧ (t.core c.val).pc = (x.pc + 4) % 2 ^ 32 ∧ t.f (Reg.DBG_Cc_STAT c.val) 1 0 = 3 ∧ t.f (Reg.DBG_Cc_STAT c.val) 6 4 = 5) ∧
    (∀ b k : Nat, Begins c.val (encR 0x35 0 0 0) s → b = (x.r 14).toNat → b % 4 = 0 → 0x08000000 ≤ b → b + 40 ≤ 0x08000000 + localSize c.val →
      k = localKey c.val (b - 0x08000000) → (∀ i, i < 10 → s.mark (k + 4 * i) = .none) → x.g.length = 16 → Completes (.gvReti c) s fun t =>
        (t.core c.val).pc = (s.word (k + 4)).toNat / 4 * 4 ∧ (t.core c.val).st &&& stRw = s.word k &&& stRw ∧ (t.core c.val).slot = none ∧
        (t.core c.val).r 14 = wd (b + 40) ∧ (∀ i, i < 8 → (t.core c.val).r i = s.word (k + 8 + 4 * i)) ∧
        (∀ i, 8 ≤ i → i ≠ 14 → (t.core c.val).r i = x.r i) ∧ SameMemory s t) ∧
    (Begins c.val (encR 0x35 0 0 0) s → Completes (.gvReti c) s fun t => (t.core c.val).slot = none ∧ (t.core c.val).ahead = [] ∧ (t.core c.val).run = .run ∧
      (t.core c.val).pc % 4 = 0)

/-- LOAD_RESULT, STORE_RESPONSE, EXCEPTION_ENTRY, HALT and INTERRUPT_ENTRY (R322, R323, R328 to R332, R384, R385, R472). A result arrives in its register; an
error answered to a store is kept as a deferred bus error; what is due at a boundary is taken: an exception at its offset from EVBASE, with EXC set and IE
cleared; a halt in stop mode; an interrupt at its vector, with its level, its source active. -/
def Obligations.CoreEntries : Prop :=
  ∀ (c : Fin 3) (x : CoreSt) (s : State), x = s.core c.val →
    (∀ (rd : Fin 16) (r : GvResult), x.results.find? (fun r => decide (r.rd = rd.val)) = some r → Completes (.loadResult c rd) s fun t =>
      (t.core c.val).g = x.g.set r.rd r.value ∧ (t.core c.val).results = x.results.erase r ∧ t.regs = s.regs ∧
      (t.core c.val).buserr.isSome = (x.buserr.isSome || decide (r.code ≠ 0)) ∧ (r.frames = [] → SameMemory s t)) ∧
    (∀ rd : Fin 16, x.results.find? (fun r => decide (r.rd = rd.val)) = none → exec (.loadResult c rd) s = .next s) ∧
    (∀ (r : GvStore) (rest : List GvStore), x.stores = r :: rest → r.todo = [] → Completes (.storeResponse c) s fun t =>
      (t.core c.val).stores = rest ∧ (t.core c.val).g = x.g ∧ (x.buserr = none → (t.core c.val).buserr =
        if r.code = 0 then none else some ⟨r.pc, r.addr, r.info⟩) ∧ t.regs = s.regs ∧ SameMemory s t) ∧
    (∀ (r : GvStore) (rest : List GvStore) (e ea : Nat) (u v : State), x.stores = r :: rest → r.todo ≠ [] → s.coreWrite c.val r.addr r.todo = (e, ea, u) →
      v = u.setCore c.val { u.core c.val with stores := rest } →
      exec (.storeResponse c) s = .next (if e = 0 then v
        else v.deferBuserr c.val ⟨r.pc, ea, finfoWord e true (sizeCode r.todo.length) 0 false 0⟩)) ∧
    (x.stores = [] → exec (.storeResponse c) s = .next s) ∧
    (s.boundary c.val = false → exec (.exceptionEntry c) s = .next s) ∧
    (s.boundary c.val = true →
      ((s.fetchAhead c.val).due c.val = none → exec (.exceptionEntry c) s = .next s) ∧
      (∀ d, (s.fetchAhead c.val).due c.val = some d → exec (.exceptionEntry c) s = .next ((s.fetchAhead c.val).takeDue c.val d))) ∧
    (∀ k n : Nat, s.boundary c.val = true → (s.fetchAhead c.val).due c.val = some (.halt k n) →
      exec (.halt c) s = .next ((s.fetchAhead c.val).haltAt c.val k n x.pc 0)) ∧
    (∀ (k n : Nat) (u : State), x.run = .wait → (s.haltDue c.val).isSome = true → u = s.setCore c.val { x with run := .run } → u.boundary c.val = true →
      (u.fetchAhead c.val).due c.val = some (.halt k n) → exec (.halt c) s = .next ((u.fetchAhead c.val).haltAt c.val k n x.pc 0)) ∧
    (s.boundary c.val = false → x.run ≠ .wait ∨ s.haltDue c.val = none → exec (.halt c) s = .next s) ∧
    (∀ gone : Option (Fin 16), gone = none → s.presented c.val = none → exec (.interruptEntry c gone) s = .next s) ∧
    (∀ n : Nat, s.presented c.val = some n → s.priOf n ≤ x.lvl ∨ x.sec = true ∨ (c.val < 2 ∧ s.gv.swap ≠ []) ∨ s.pwr.held = true →
      exec (.interruptEntry c none) s = .next s) ∧
    (∀ n : Nat, s.presented c.val = some n → x.lvl < s.priOf n → x.sec = false → (c.val < 2 → s.gv.swap = []) → s.pwr.held = false → x.run = .wait →
      bitAt x.st 0 = false → exec (.interruptEntry c none) s = .next (s.setCore c.val { x with run := .run })) ∧
    (∀ n : Nat, s.presented c.val = some n → x.lvl < s.priOf n → x.run ≠ .wait → bitAt x.st 0 = false → exec (.interruptEntry c none) s = .next s) ∧
    (∀ (gone : Option (Fin 16)) (l vec got : Nat) (u : State), s.boundary c.val = true → (s.fetchAhead c.val).due c.val = none →
      (∃ n, gone = none ∧ s.presented c.val = some n ∧ l = s.priOf n) ∨ (∃ g : Fin 16, gone = some g ∧ s.presented c.val = none ∧ l = g.val) →
      x.lvl < l → bitAt x.st 0 = true → x.sec = false → x.waits 14 = false → s.takeVector c.val l = (vec, got, u) →
      exec (.interruptEntry c gone) s = .next (u.interrupt c.val vec got)) ∧
    (∀ n : Nat, s.boundary c.val = true → (s.fetchAhead c.val).due c.val = none → s.presented c.val = some n → x.lvl < s.priOf n → bitAt x.st 0 = true → x.sec = false →
      x.waits 14 = false → x.frameOk c.val = true → x.g.length = 16 → Completes (.interruptEntry c none) s fun t =>
        (t.core c.val).pc = (s.f (Reg.IRQ_VBASEt c.val) 31 12 * 4096 + 16 * n) % 2 ^ 32 ∧ (t.core c.val).lvl = s.priOf n ∧ (t.core c.val).run = .run ∧
        t.bit (Reg.IRQ_SRCs n) 17 = true ∧ (c.val, s.priOf n, n) ∈ t.irq.active ∧ ((t.core c.val).r 14).toNat = (x.r 14).toNat - 40)

/-- UOP (R338 to R341, R349). A routine of one ALU word and a commit leaves the ALU's result of RA and RB in RD; a UOP whose entry word is UNDEF does not begin: it
takes the exception UOPUNDEF in its place; a routine that ends leaves what its words do; one that comes to a word whose effect the vendor does not publish is
refused; and a UOP of a core that is not at a boundary changes nothing. -/
def Obligations.UserOpcodes : Prop :=
  ∀ (c : Fin 3) (n : Fin 64) (rd ra rb : Fin 16) (imm : BitVec 8) (w : Word) (s : State),
    w = encR 0x3F rd.val ra.val rb.val ||| wd (n.val * 256 + imm.toNat) →
    (∀ fn : Fin 13, Begins c.val w s → s.mark (ucAddr c.val 0 (0x3800 + 32 * n.val)) = .none → s.mark (ucAddr c.val 0 (0x3800 + 32 * n.val + 1)) = .none →
      s.ucWord c.val 0 (0x3800 + 32 * n.val) = 1 * 2 ^ 28 + fn.val * 2 ^ 24 + 25 * 2 ^ 16 + 26 * 2 ^ 11 →
      s.ucWord c.val 0 (0x3800 + 32 * n.val + 1) = 15 * 2 ^ 28 + 1 * 2 ^ 21 + 24 * 2 ^ 16 → Completes (.gvUop c n rd ra rb imm) s
        (Wrote c.val rd.val (alu fn.val ((s.core c.val).r ra.val) ((s.core c.val).r rb.val)).1 s)) ∧
    (s.boundary c.val = true → (s.fetchAhead c.val).wordAt c.val = (0, w) → s.ucWord c.val 0 (0x3800 + 32 * n.val) = 0 → (s.core c.val).buserr = none →
      (s.core c.val).csue = none → (s.fetchAhead c.val).haltDue c.val = none → (s.core c.val).slot = none → (s.core c.val).waits 14 = false →
      (s.core c.val).exc = false → (s.core c.val).sec = false → (s.core c.val).frameOk c.val = true → Completes (.gvUop c n rd ra rb imm) s fun t =>
        (t.core c.val).pc = ((s.core c.val).evbase.toNat / 256 * 256 + 0x70) % 2 ^ 32 ∧ (t.core c.val).fpc = wd (s.core c.val).pc ∧
        bitAt (t.core c.val).st 4 = true) ∧
    (∀ (u : UopArgs) (t v : State), Begins c.val w s → u = ⟨rd.val, ra.val, rb.val, wd imm.toNat, (s.core c.val).pc⟩ →
      t = s.fetchAhead c.val →
      (t.microRun c.val u 19 (Micro.start (0x3800 + 32 * n.val)) = .done v → exec (.gvUop c n rd ra rb imm) s = .next v) ∧
      (t.microRun c.val u 19 (Micro.start (0x3800 + 32 * n.val)) = .unpublished → exec (.gvUop c n rd ra rb imm) s = .refused .vendorMicroword)) ∧
    (s.boundary c.val = false → exec (.gvUop c n rd ra rb imm) s = .next s)

/-- IMG_UCLOAD, IMG_UCSWAP, UCODE_LOAD_DONE, UCODE_SWAP, UCODE_MIRROR_DONE, CONTROL_STORE_REPAIR and CONTROL_STORE_SCRUB (R336, R350 to R355). A load starts from
idle only; one whose section verifies installs its words in the shadow, and one whose signature or format fails installs nothing and raises 9 or 10; a swap
exchanges the copies of the stores it names, once no core waits for a locked access; the mirror then makes the shadows copies again; asleep no word is scrubbed; an uncorrectable word is copied from the other copy if that is good, and else is met as CSUE. -/
def Obligations.ControlStores : Prop :=
  ∀ (m : Acc) (s : State),
    (∀ v : Word, m.alle = true → m.debug = false → s.targetOff Reg.IMG_UCLOAD = false → bitAt v 8 = true → s.ucState = 0 → fld v 1 0 < 2 → s.bit Reg.IMG_UCSTAT (16 + fld v 1 0) = false →
      Completes (.imgUcload m v) s fun t => t.ucState = 1 ∧ t.bit Reg.IMG_UCSTAT (18 + fld v 1 0) = false ∧ t.gv.load = some (fld v 1 0, fld v 4 4) ∧ SameMemory s t) ∧
    (∀ v : Word, m.alle = true → m.debug = false → s.targetOff Reg.IMG_UCLOAD = false → bitAt v 8 = true → s.ucState ≠ 0 →
      Completes (.imgUcload m v) s (fun t => t.bit Reg.IMG_UCSTAT 11 = true ∧ t.gv = s.gv ∧ SameMemory s t) ∧
      Completes (.imgUcswap m v) s (fun t => t.bit Reg.IMG_UCSTAT 11 = true ∧ t.gv = s.gv ∧ SameMemory s t)) ∧
    (∀ v : Word, m.alle = true → m.debug = false → s.targetOff Reg.IMG_UCLOAD = false → bitAt v 8 = false →
      Completes (.imgUcload m v) s (fun t => t.answer = ⟨0, 0⟩ ∧ t.gv = s.gv ∧ t.ucState = s.ucState ∧ SameMemory s t) ∧
      Completes (.imgUcswap m v) s (fun t => t.answer = ⟨0, 0⟩ ∧ t.gv = s.gv ∧ t.ucState = s.ucState ∧ SameMemory s t)) ∧
    (∀ v : Word, m.debug = false → s.targetOff Reg.IMG_UCLOAD = true →
      Completes (.imgUcload m v) s (fun t => t.answer = ⟨6, 0⟩ ∧ t.gv = s.gv ∧ SameMemory s t) ∧
      Completes (.imgUcswap m v) s (fun t => t.answer = ⟨6, 0⟩ ∧ t.gv = s.gv ∧ SameMemory s t)) ∧
    (∀ v : Word, m.alle = false → m.debug = false → s.targetOff Reg.IMG_UCLOAD = false → Completes (.imgUcload m v) s (fun t => t.answer = ⟨3, 0⟩ ∧ t.gv = s.gv) ∧
      Completes (.imgUcswap m v) s (fun t => t.answer = ⟨3, 0⟩ ∧ t.gv = s.gv)) ∧
    (∀ v : Word, m.alle = true → m.debug = false → s.targetOff Reg.IMG_UCLOAD = false → bitAt v 8 = true → s.ucState = 0 → s.frozen = false → (∃ k, k < 2 ∧ bitAt v k = true ∧
      s.bit Reg.IMG_UCSTAT (16 + k) = true) → Completes (.imgUcswap m v) s fun t => t.ucState = 4 ∧
        t.gv.swap = [0, 1].filter (fun k => bitAt v k && s.bit Reg.IMG_UCSTAT (16 + k)) ∧ SameMemory s t) ∧
    (∀ k r : Nat, k < 2 → s.gv.load = some (k, r) → Completes (.ucodeLoadDone false) s fun t =>
      t.gv.load = none ∧ t.ucState = 0 ∧ t.bit Reg.IMG_UCSTAT 9 = true ∧ t.gv.loaded = s.gv.loaded ∧ SameMemory s t) ∧
    (∀ (k : Fin 2) (g b first count : Nat), s.gv.load = some (k.val, g) → b = (s.reg Reg.IMG_UCSRC).toNat → first = (if g = 0 then 0 else 0x3800) →
      count = (if g = 0 then 0x3800 else 0x0800) → s.ucHeaderOk k.val g = true → (g = 1 → ∀ i, i < count → microOk (s.le (b + 16 + 4 * i) 4) = true) →
      Completes (.ucodeLoadDone true) s fun t => t.gv.load = none ∧ t.ucState = 0 ∧ t.bit Reg.IMG_UCSTAT (16 + k.val) = true ∧
        t.bit Reg.IMG_UCSTAT 8 = true ∧ ∀ i, i < count → t.ucWord k.val 1 (first + i) = s.le (b + 16 + 4 * i) 4) ∧
    (∀ (k : Fin 2) (g : Nat), s.gv.load = some (k.val, g) → s.ucHeaderOk k.val g = false → Completes (.ucodeLoadDone true) s fun t =>
      t.gv.load = none ∧ t.ucState = 0 ∧ t.bit Reg.IMG_UCSTAT 10 = true ∧ t.gv.loaded = s.gv.loaded) ∧
    (∀ sigOk : Bool, s.gv.load = none → exec (.ucodeLoadDone sigOk) s = .next s) ∧
    (∀ q : Nat, s.gv.swap = [] ∨ (s.core 0).atomic ≠ none ∨ (s.core 1).atomic ≠ none → exec (.ucodeSwap q) s = .next s) ∧
    (s.ucState ≠ 5 → exec .ucodeMirrorDone s = .next s) ∧
    (∀ (k : Fin 2) (q : Nat), s.gv.swap = [k.val] → (s.core 0).atomic = none → (s.core 1).atomic = none → Completes (.ucodeSwap q) s fun t =>
      t.gv.swap = [] ∧ t.ucState = 5 ∧ t.bit Reg.IMG_UCSTAT 12 = true ∧ ∀ w, w < 16384 →
        t.ucWord k.val 0 w = s.ucWord k.val 1 w ∧ t.ucWord k.val 1 w = s.ucWord k.val 0 w) ∧
    (∀ k : Fin 2, s.ucState = 5 → s.gv.mirror = [k.val] → Completes .ucodeMirrorDone s fun t =>
      t.ucState = 0 ∧ t.gv.mirror = [] ∧ ∀ w, w < 16384 → t.ucWord k.val 1 w = s.ucWord k.val 0 w ∧ t.ucWord k.val 0 w = s.ucWord k.val 0 w) ∧
    (∀ (c : Fin 3) (w : Fin 16384), s.bit Reg.IMG_UCSTAT (18 + c.val) = true → s.mark (ucAddr c.val 1 w.val) = .none →
      Completes (.controlStoreRepair c w .none false) s fun t => t.ucWord c.val 0 w.val = s.ucWord c.val 1 w.val ∧ t.mark (ucAddr c.val 0 w.val) = .none ∧
        t.bit Reg.IMG_UCSTAT 14 = true ∧ t.core c.val = s.core c.val) ∧
    (∀ (c : Fin 3) (w : Fin 16384) (entry : Bool), Completes (.controlStoreRepair c w .double entry) s fun t =>
      (t.core c.val).csue = some entry ∧ t.bit Reg.IMG_UCSTAT 13 = true ∧ SameMemory s t) ∧
    (s.pwr.state < 2 → s.fab.ecc = [] → Completes (.controlStoreScrub []) s fun t => t.gv.scrub = (s.gv.scrub + 1) % 16384 ∧ t.regs = s.regs ∧ SameMemory s t) ∧
    (∀ found : List Upset, s.pwr.state < 2 → Completes (.controlStoreScrub found) s fun t => t.gv.scrub = (s.gv.scrub + 1) % 16384) ∧
    (∀ found : List Upset, 2 ≤ s.pwr.state → exec (.controlStoreScrub found) s = .next s)

/-- REEL_GO, REEL_ABORT, DESCRIPTOR_FETCH, REEL_BEAT, REEL_BEAT_RESPONSE and DESCRIPTOR_COMPLETE (R357, R358, R361, R362, R367 to R369, Table 14.4). A start of an
idle channel begins the fetch at its HEAD, one of a busy channel is refused and counted; an abort stops a busy channel, at once where no response is
outstanding; a fetched descriptor that keeps its layout moves, another stops the channel with code 5; a beat is one write or read of the channel picked;
a write outside main SRAM is made with its response; an error response stops the channel with its code and address; a completed descriptor ends the channel or
goes on at its link, unless the budget is spent. Where none of this is so the command changes nothing. -/
def Obligations.ReelChannels : Prop :=
  ∀ (c : Fin 32) (x : ReelCh) (s : State), x = s.ch c.val → s.reel.chans.length = 32 →
    (∀ (m : Acc) (v trig : Word), m.debug = false → s.targetOff Reg.REEL_GO = false → bitAt (v ||| trig) c.val = true →
      (x.stage = .idle → s.bit Reg.REEL_CTRL 0 = true → s.f Reg.PNL_DIRCH 4 0 ≠ c.val → s.f (Reg.REELc_BUDGET c.val) 15 0 = 0 →
        Completes (.reelGo m v trig) s fun t => (t.ch c.val).stage = .fetch ∧ t.reg (Reg.REELc_CUR c.val) = s.reg (Reg.REELc_HEAD c.val) ∧
          t.bit Reg.REEL_BUSY c.val = true ∧ SameMemory s t) ∧
      (x.stage ≠ .idle → Completes (.reelGo m v trig) s fun t => t.ch c.val = x ∧ t.bit Reg.REEL_STAT 1 = true ∧
        t.f (Reg.REELc_STAT c.val) 23 16 = sat 255 (s.f (Reg.REELc_STAT c.val) 23 16 + 1) ∧ SameMemory s t) ∧
      (x.stage = .idle → s.bit Reg.REEL_CTRL 0 = false ∨ (s.f Reg.PNL_DIRCH 4 0 = c.val ∧ s.directOn = true) → Completes (.reelGo m v trig) s fun t =>
        t.ch c.val = x ∧ t.f (Reg.REELc_STAT c.val) 23 16 = sat 255 (s.f (Reg.REELc_STAT c.val) 23 16 + 1) ∧ t.bit Reg.REEL_STAT 1 = true) ∧
      (x.stage = .idle → s.bit Reg.REEL_CTRL 0 = true → s.f Reg.PNL_DIRCH 4 0 ≠ c.val → s.f (Reg.REELc_BUDGET c.val) 15 0 ≠ 0 →
        s.f (Reg.REELc_BUDGET c.val) 15 0 ≤ x.fetched → Completes (.reelGo m v trig) s fun t => (t.ch c.val).stage = .idle ∧
          t.f (Reg.REELc_STAT c.val) 6 4 = 6 ∧ t.bit Reg.REEL_STAT 2 = true ∧ t.bit Reg.REEL_STAT 0 = true)) ∧
    (∀ (m : Acc) (v w z : Word), m.debug = false → s.targetOff Reg.REEL_GO = true → s.targetOff Reg.REEL_ABORT = true →
      Completes (.reelGo m v w) s (fun t => t.answer = ⟨6, 0⟩ ∧ t.reel = s.reel) ∧ Completes (.reelAbort m v w z) s (fun t => t.answer = ⟨6, 0⟩ ∧ t.reel = s.reel)) ∧
    (∀ (m : Acc) (v : Word), m.debug = false → s.targetOff Reg.REEL_ABORT = false → bitAt v c.val = true → x.stage = .fetch ∨ x.stage = .move →
      (x.outs = [] → Completes (.reelAbort m v 0 0) s fun t => (t.ch c.val).stage = .idle ∧ t.f (Reg.REELc_STAT c.val) 6 4 = 2 ∧
        t.bit Reg.REEL_BUSY c.val = false ∧ SameMemory s t) ∧
      (x.outs ≠ [] → Completes (.reelAbort m v 0 0) s fun t => (t.ch c.val).stage = .drain ∧ (t.ch c.val).outs = x.outs ∧ SameMemory s t) ∧
      (∀ start done : Word, bitAt done c.val = true → x.done = true → Completes (.reelAbort m v start done) s fun t =>
        (t.ch c.val).stage = .idle ∧ t.f (Reg.REELc_STAT c.val) 6 4 = 2 ∧ (bitAt x.d.w0 6 = true → t.bit Reg.REEL_DONE c.val = true))) ∧
    (∀ (m : Acc) (v start done : Word), m.debug = false → s.targetOff Reg.REEL_ABORT = false → bitAt v c.val = true →
      (x.stage = .idle → Completes (.reelAbort m v start done) s fun t => t.ch c.val = x) ∧
      (x.stage = .drain → bitAt start c.val = false → Completes (.reelAbort m v start done) s fun t => t.ch c.val = x) ∧
      (x.stage ≠ .idle → bitAt start c.val = true → Completes (.reelAbort m v start done) s fun t => t.bit Reg.REEL_STAT 1 = true ∧
        t.f (Reg.REELc_STAT c.val) 23 16 = sat 255 (s.f (Reg.REELc_STAT c.val) 23 16 + 1))) ∧
    (s.frozen = false → x.stage ≠ .fetch ∨ (x.beats < 2 ∧ s.bit Reg.REEL_CTRL 0 = false) → exec (.descriptorFetch c) s = .next s) ∧
    (∀ own : Nat, s.frozen = false → x.stage = .fetch → x.beats = 0 → x.outs = [] → x.desc = [] → x.stop = none → s.bit Reg.REEL_CTRL 0 = true →
      own = (s.reg (Reg.REELc_CUR c.val)).toNat → own % 16 ≠ 0 ∨ (inSram own = false ∧ inSram (own + 16) = false) →
      Completes (.descriptorFetch c) s fun t => (t.ch c.val).stage = .idle ∧ t.f (Reg.REELc_STAT c.val) 6 4 = 5 ∧
        t.reg (Reg.REELc_EADDR c.val) = wd own ∧ SameMemory s t) ∧
    (∀ (own : Nat) (bs : List Byte), s.frozen = false → x.stage = .fetch → x.beats = 0 → x.outs = [] → x.desc = [] → x.stop = none → s.bit Reg.REEL_CTRL 0 = true →
      own = (s.reg (Reg.REELc_CUR c.val)).toNat → inSram own = true → own % 32 = 0 → bs = s.bytes own 32 →
      (∀ i, i < 2 → s.mark (own + 16 * i) = .none ∧ s.regionAllows (reelPort c.val) (own + 16 * i) false = true ∧ s.bankBusy (bankOf (own + 16 * i)) = false) →
      ((descOf bs).2 = false → (descOf bs).1.ok = true → (descOf bs).1.misaligned (s.bit (Reg.REELc_CFG c.val) 0) own = none →
        Completes (.descriptorFetch c) s fun t => (t.ch c.val).stage = .move ∧ (t.ch c.val).desc = bs ∧ (t.ch c.val).outs = [] ∧ SameMemory s t) ∧
      ((descOf bs).2 = true ∨ (descOf bs).1.ok = false → Completes (.descriptorFetch c) s fun t => (t.ch c.val).stage = .idle ∧
        t.f (Reg.REELc_STAT c.val) 6 4 = 5 ∧ t.bit Reg.REEL_ERRCH c.val = true ∧ t.reg (Reg.REELc_EADDR c.val) = wd own ∧ SameMemory s t) ∧
      (∀ a, (descOf bs).2 = false → (descOf bs).1.ok = true → (descOf bs).1.misaligned (s.bit (Reg.REELc_CFG c.val) 0) own = some a →
        Completes (.descriptorFetch c) s fun t => (t.ch c.val).stage = .idle ∧ t.f (Reg.REELc_STAT c.val) 6 4 = 4 ∧
          t.bit Reg.REEL_ERRCH c.val = true ∧ t.reg (Reg.REELc_EADDR c.val) = wd a ∧ SameMemory s t)) ∧
    (∀ (p : Fin 2) (u : Upset), s.frozen = false → s.bit Reg.REEL_CTRL 0 = false ∨ s.reelPick p.val = none → exec (.reelBeat p u) s = .next s) ∧
    (∀ (p : Fin 2) (u : Upset) (w : State), s.frozen = false → s.bit Reg.REEL_CTRL 0 = true → s.reelPick p.val = some c.val → w = s.serveCh p.val c.val →
      (x.stage = .move → exec (.reelBeat p u) s = .next (w.dataBeat c.val u)) ∧
      (x.stage = .fetch → exec (.reelBeat p u) s =
        .next ((w.upsetAt ((s.reg (Reg.REELc_CUR c.val)).toNat + 16 * x.beats) u).fetchBeat c.val))) ∧
    (∀ (p : Fin 2) (a : Nat) (bs : List Byte), s.frozen = false → s.bit Reg.REEL_CTRL 0 = true → s.reelPick p.val = some c.val → x.stage = .move →
      x.nextWrite x.d = some (a, bs) → inSram a = false → Completes (.reelBeat p .none) s fun t => (t.ch c.val).wr = x.wr + bs.length ∧
        (t.ch c.val).outs = x.outs ++ [⟨a, 0, [], bs⟩] ∧ SameMemory s t) ∧
    (∀ (p : Fin 2) (a n : Nat), s.frozen = false → s.bit Reg.REEL_CTRL 0 = true → s.reelPick p.val = some c.val → x.stage = .move →
      x.nextWrite x.d = none → x.nextRead x.d = some (a, n) → inSram a = true → s.mark (a / 16 * 16) = .none → s.bankBusy (bankOf a) = false →
      s.regionAllows (reelPort c.val) (a / 16 * 16) false = true → a % 16 + n ≤ 16 →
      Completes (.reelBeat p .none) s fun t => (t.ch c.val).rd = x.rd + n ∧ (t.ch c.val).outs = x.outs ++ [⟨a, 0, s.bytes a n, []⟩] ∧ SameMemory s t) ∧
    (∀ (p : Fin 2) (a : Nat) (bs : List Byte), s.frozen = false → s.bit Reg.REEL_CTRL 0 = true → s.reelPick p.val = some c.val → x.stage = .move →
      x.nextWrite x.d = some (a, bs) → inSram a = true → s.mark (a / 16 * 16) = .none → s.bankBusy (bankOf a) = false →
      s.regionAllows (reelPort c.val) (a / 16 * 16) true = true → s.stagingLocked (reelPort c.val) (a / 16 * 16) = false →
      Completes (.reelBeat p .none) s fun t => (t.ch c.val).wr = x.wr + bs.length ∧ t.bytes a bs.length = bs ∧
        (∀ i, i < a ∨ a + bs.length ≤ i → t.byte i = s.byte i) ∧ (t.ch c.val).outs = x.outs ++ [⟨a, 0, [], []⟩]) ∧
    (s.frozen = false → exec (.reelBeatResponse c) s = .next ((s.makeBeat c.val).reelLand c.val)) ∧
    (s.frozen = false → x.outs = [] → exec (.reelBeatResponse c) s = .next s) ∧
    (∀ (o : ReelOut) (rest : List ReelOut) (st code a : Nat), s.frozen = false → x.outs = o :: rest → o.todo = [] → x.stop = some (st, code, a) → x.stage = .drain →
      (rest ≠ [] → Completes (.reelBeatResponse c) s fun t => (t.ch c.val).stage = .drain ∧ (t.ch c.val).outs = rest ∧ SameMemory s t) ∧
      (rest = [] → Completes (.reelBeatResponse c) s fun t => (t.ch c.val).stage = .idle ∧ t.f (Reg.REELc_STAT c.val) 6 4 = st % 8 ∧ SameMemory s t)) ∧
    (∀ (o : ReelOut) (rest : List ReelOut), s.frozen = false → x.outs = o :: rest → o.todo = [] → x.stop = none → x.stage = .move →
      (o.code = 0 → Completes (.reelBeatResponse c) s fun t => (t.ch c.val).buf = x.buf ++ o.data ∧ (t.ch c.val).outs = rest ∧ SameMemory s t) ∧
      (o.code ≠ 0 → rest = [] → Completes (.reelBeatResponse c) s fun t => (t.ch c.val).stage = .idle ∧ t.f (Reg.REELc_STAT c.val) 6 4 = 3 ∧
        t.f (Reg.REELc_STAT c.val) 10 8 = o.code % 8 ∧ t.reg (Reg.REELc_EADDR c.val) = wd o.addr ∧ t.bit Reg.REEL_STAT 0 = true ∧ SameMemory s t)) ∧
    (s.frozen = false → x.done = false → exec (.descriptorComplete c) s = .next s) ∧
    (s.frozen = false → x.done = true →
      (x.d.link ≠ 0 → s.f (Reg.REELc_BUDGET c.val) 15 0 ≠ 0 → s.f (Reg.REELc_BUDGET c.val) 15 0 ≤ x.fetched → bitAt x.d.w0 7 = false →
        Completes (.descriptorComplete c) s fun t => (t.ch c.val).stage = .idle ∧ t.f (Reg.REELc_STAT c.val) 6 4 = 6 ∧ t.bit Reg.REEL_STAT 2 = true) ∧
      (x.d.link = 0 → Completes (.descriptorComplete c) s fun t => (t.ch c.val).stage = .idle ∧ t.f (Reg.REELc_STAT c.val) 6 4 = 1 ∧
        (bitAt x.d.w0 6 = true → t.bit Reg.REEL_DONE c.val = true) ∧ SameMemory s t) ∧
      (x.d.link ≠ 0 → s.f (Reg.REELc_BUDGET c.val) 15 0 = 0 → Completes (.descriptorComplete c) s fun t => (t.ch c.val).stage = .fetch ∧
        t.reg (Reg.REELc_CUR c.val) = wd x.d.link ∧ SameMemory s t))

/-- BLK_PUSH, BLK_GO, BLK_JOB_START, BLK_BURST, BLK_DEAD_END, BLK_ROW_DONE, BLK_ERROR_STOP and BLK_ERROR_CLEAR (R371, R372, R375, R376, R378, R379). A push
copies the J registers into a queue of eight; a release frees a held head job, and is noted where there is none; the head job starts after its checks, and one
that fails them is reported and not run; a burst of a fill writes its pixels, and every burst ends in an error or goes on by up to 16 pixels of its row; each row done counts, and the last ends the job; an error stops it. Where none of this is so the command changes nothing. -/
def Obligations.BlockEngine : Prop :=
  ∀ (m : Acc) (s : State),
    (∀ v : Word, m.debug = false → s.targetOff Reg.BLK_PUSH = false → bitAt v 0 = false → Completes (.blkPush m v) s fun t =>
      t.answer = ⟨0, 0⟩ ∧ t.blk = s.blk ∧ t.regs = s.regs ∧ SameMemory s t) ∧
    (∀ v : Word, m.debug = false → s.targetOff Reg.BLK_PUSH = false → bitAt v 0 = true →
      (s.blk.queue.length < 8 → Completes (.blkPush m v) s fun t => t.blk.queue = s.blk.queue ++ [s.blkJob] ∧ t.f Reg.BLK_QSTAT 3 0 = s.blk.queue.length + 1 ∧
        SameRegsBut (fun a => a = Reg.BLK_QSTAT) s t ∧ SameMemory s t) ∧
      (8 ≤ s.blk.queue.length → Completes (.blkPush m v) s fun t => t.blk = s.blk ∧ t.bit Reg.BLK_STAT 4 = true ∧ SameMemory s t)) ∧
    (∀ (v : Word) (trig : Bool), m.debug = false → s.targetOff Reg.BLK_GO = false → bitAt v 0 = false → trig = false → Completes (.blkGo m v trig) s fun t =>
      t.answer = ⟨0, 0⟩ ∧ t.blk = s.blk ∧ t.regs = s.regs ∧ SameMemory s t) ∧
    (∀ (v : Word) (trig : Bool), m.debug = false → s.targetOff Reg.BLK_GO = false → bitAt v 0 = true ∨ trig = true →
      (∀ (j : BlkJob) (rest : List BlkJob), s.blk.queue = j :: rest → bitAt j.ctrl 7 = true → s.blk.freed = false →
        Completes (.blkGo m v trig) s fun t => t.blk.freed = true ∧ t.blk.queue = s.blk.queue ∧ t.bit Reg.BLK_STAT 5 = s.bit Reg.BLK_STAT 5) ∧
      (∀ (j : BlkJob) (rest : List BlkJob), s.blk.queue = j :: rest → bitAt j.ctrl 7 = false ∨ s.blk.freed = true →
        Completes (.blkGo m v trig) s fun t => t.blk = s.blk ∧ t.bit Reg.BLK_STAT 5 = true) ∧
      (s.blk.queue = [] → Completes (.blkGo m v trig) s fun t => t.blk = s.blk ∧ t.bit Reg.BLK_STAT 5 = true)) ∧
    (s.frozen = false → s.blk.queue = [] ∨ s.bit Reg.BLK_CTRL 0 = false ∨ s.blk.run ≠ none ∨ s.blk.waits = true → exec .blkJobStart s = .next s) ∧
    (∀ (j : BlkJob) (rest : List BlkJob), s.frozen = false → s.blk.queue = j :: rest → bitAt j.ctrl 7 = true → s.blk.freed = false → exec .blkJobStart s = .next s) ∧
    (∀ (j : BlkJob) (rest : List BlkJob), s.frozen = false → s.blk.queue = j :: rest → s.bit Reg.BLK_CTRL 0 = true → s.blk.run = none → s.blk.waits = false →
      bitAt j.ctrl 7 = false ∨ s.blk.freed = true →
      (j.kind = 0 → j.w ≠ 0 → j.h ≠ 0 → Completes .blkJobStart s fun t => t.blk.run = some j ∧ t.blk.queue = rest ∧ t.blk.row = 0 ∧ t.reg Reg.BLK_ROWS = 0 ∧
        SameMemory s t) ∧
      (j.kind = 0 → j.w = 0 ∨ j.h = 0 → bitAt j.ctrl 9 = false → Completes .blkJobStart s fun t => t.blk.run = none ∧ t.blk.queue = rest ∧ t.bit Reg.BLK_STAT 0 = true ∧
        SameMemory s t) ∧
      (j.kind ≠ 0 → Completes .blkJobStart s fun t => t.blk.run = none ∧ t.blk.queue = rest ∧ t.blk.waits = true ∧ t.bit Reg.BLK_STAT 3 = true ∧
        t.f Reg.BLK_ESTAT 6 4 = j.kind ∧ SameMemory s t)) ∧
    (∀ (j : BlkJob) (y a : Nat), s.frozen = false → s.blk.run = some j → s.blk.ready = true → s.blk.err = none → s.blk.row < j.h → s.blk.px = 0 → j.w = 1 →
      j.op = 1 → y = (if bitAt j.ctrl 6 then j.h - 1 - s.blk.row else s.blk.row) → a = j.dst + y * j.dstride → inSram a = true → a % 16 + j.p ≤ 16 →
      s.blk.clip.1 ≤ a → a + j.p ≤ s.blk.clip.2 + 1 → s.mark (a / 16 * 16) = .none → s.bankBusy (bankOf a) = false → s.regionAllows 9 (a / 16 * 16) true = true →
      s.stagingLocked 9 (a / 16 * 16) = false → Completes .blkBurst s fun t => t.le a j.p = j.fill % 256 ^ j.p ∧
        (∀ i, i < a ∨ a + j.p ≤ i → t.byte i = s.byte i) ∧ t.blk.row = s.blk.row + 1 ∧ t.blk.px = 0 ∧ t.blk.err = none) ∧
    (s.frozen = false → s.blk.run = none ∨ s.blk.ready = false ∨ s.blk.err ≠ none → exec .blkBurst s = .next s) ∧
    (∀ j : BlkJob, s.frozen = false → s.blk.run = some j → s.blk.row = j.h → exec .blkBurst s = .next s) ∧
    (∀ j : BlkJob, s.frozen = false → s.blk.run = some j → s.blk.ready = true → s.blk.err = none → s.blk.row < j.h → Completes .blkBurst s fun t =>
      t.blk.run = some j ∧ t.blk.queue = s.blk.queue ∧ (t.blk.err = none → (s.blk.px + min 16 (j.w - s.blk.px) = j.w → t.blk.row = s.blk.row + 1 ∧ t.blk.px = 0) ∧
        (s.blk.px + min 16 (j.w - s.blk.px) ≠ j.w → t.blk.row = s.blk.row ∧ t.blk.px = s.blk.px + min 16 (j.w - s.blk.px)))) ∧
    (∀ j : BlkJob, s.frozen = false → s.blk.run = some j → Completes .blkDeadEnd s fun t => t.blk = { s.blk with ready := true } ∧ t.regs = s.regs ∧ SameMemory s t) ∧
    (s.frozen = false → s.blk.run = none → exec .blkDeadEnd s = .next s ∧ exec .blkRowDone s = .next s) ∧
    (s.frozen = false → s.blk.row ≤ s.f Reg.BLK_ROWS 15 0 → exec .blkRowDone s = .next s) ∧
    (s.frozen = false → s.blk.run = none ∨ s.blk.err = none → exec .blkErrorStop s = .next s) ∧
    (∀ j : BlkJob, s.frozen = false → s.blk.run = some j → s.f Reg.BLK_ROWS 15 0 < s.blk.row →
      (s.f Reg.BLK_ROWS 15 0 + 1 ≠ j.h → Completes .blkRowDone s fun t => t.f Reg.BLK_ROWS 15 0 = (s.f Reg.BLK_ROWS 15 0 + 1) % 65536 ∧ t.blk = s.blk ∧
        SameMemory s t) ∧
      (s.f Reg.BLK_ROWS 15 0 + 1 = j.h → bitAt j.ctrl 9 = false → Completes .blkRowDone s fun t => t.blk.run = none ∧ t.bit Reg.BLK_STAT 0 = true ∧
        t.f Reg.BLK_CNT 15 0 = sat 65535 (s.f Reg.BLK_CNT 15 0 + 1) ∧ SameMemory s t)) ∧
    (∀ (j : BlkJob) (k a : Nat), s.frozen = false → s.blk.run = some j → s.blk.err = some (k, a) → Completes .blkErrorStop s fun t =>
      t.blk.run = none ∧ t.blk.waits = true ∧ t.bit Reg.BLK_STAT 2 = true ∧ t.reg Reg.BLK_EADDR = wd a ∧ t.f Reg.BLK_ESTAT 2 0 = k % 8 ∧ SameMemory s t) ∧
    (∀ v : Word, m.debug = false → s.targetOff Reg.BLK_STAT = false → bitAt v 2 = false → bitAt v 3 = false → Completes (.blkErrorClear m v) s fun t =>
      t.blk = s.blk ∧ (∀ i, i ≤ 6 → t.bit Reg.BLK_STAT i = (s.bit Reg.BLK_STAT i && !bitAt v i)) ∧ SameMemory s t) ∧
    (∀ v : Word, m.debug = false → s.targetOff Reg.BLK_STAT = true → Completes (.blkErrorClear m v) s fun t => t.answer = ⟨6, 0⟩ ∧ t.blk = s.blk) ∧
    (∀ v : Word, m.debug = false → s.targetOff Reg.BLK_STAT = false → bitAt v 2 = true ∨ bitAt v 3 = true → Completes (.blkErrorClear m v) s fun t => t.blk.waits = false ∧ t.blk.queue = s.blk.queue ∧
      (∀ i, i ≤ 6 → t.bit Reg.BLK_STAT i = (s.bit Reg.BLK_STAT i && !bitAt v i)) ∧ SameMemory s t)

/-- IRQ_RAISE, IRQ_CLR, IRQ_FB_WRITE, COALESCER_TIMEOUT, IRQ_COAL_CFG_WRITE and WAKE_SLOT_EVENT (R382, R383, R387, R388). A raise is one arrival: it sets the flag
of a flagged source and counts at a counted one; a clear leaves neither; a change of FB converts the one into the other; a coalescer delivers one arrival for
those it holds; and does so at once when a write takes its source from it; asleep, an armed slot notes its source and starts a wake. -/
def Obligations.InterruptSources : Prop :=
  ∀ (m : Acc) (s : State), m.debug = false →
    (s.targetOff Reg.IRQ_RAISE = false → (∀ v : Word, exec (.irqRaise m v) s = .next ((s.arrive (fld v 7 0)).reply 0 0)) ∧
    (∀ (v : Word) (n : Nat), n = fld v 7 0 → s.pwr.state = 0 → s.coalOf n = none →
      (s.bit (Reg.IRQ_SRCs n) 6 = true → Completes (.irqRaise m v) s fun t => t.bit (Reg.IRQ_SRCs n) 16 = true ∧
        SameRegsBut (fun a => a = Reg.IRQ_SRCs n) s t ∧ SameMemory s t) ∧
      (s.bit (Reg.IRQ_SRCs n) 6 = false → s.f (Reg.IRQ_SRCs n) 15 8 < 255 → Completes (.irqRaise m v) s fun t =>
        t.f (Reg.IRQ_SRCs n) 15 8 = s.f (Reg.IRQ_SRCs n) 15 8 + 1 ∧ SameRegsBut (fun a => a = Reg.IRQ_SRCs n) s t ∧ SameMemory s t) ∧
      (s.bit (Reg.IRQ_SRCs n) 6 = false → s.f (Reg.IRQ_SRCs n) 15 8 = 255 → Completes (.irqRaise m v) s fun t =>
        t.f (Reg.IRQ_SRCs n) 15 8 = 255 ∧ t.bit (Reg.IRQ_OVFw (n / 32)) (n % 32) = true))) ∧
    (s.targetOff Reg.IRQ_CLR = false → ∀ v : Word, Completes (.irqClr m v) s fun t => t.f (Reg.IRQ_SRCs (fld v 7 0)) 15 8 = 0 ∧ t.bit (Reg.IRQ_SRCs (fld v 7 0)) 16 = false ∧
      SameRegsBut (fun a => a = Reg.IRQ_SRCs (fld v 7 0)) s t ∧ SameMemory s t) ∧
    (∀ (n : Fin 256) (v : Word), s.targetOff (Reg.IRQ_SRCs n.val) = false → Completes (.irqFbWrite m n v) s fun t => t.f (Reg.IRQ_SRCs n.val) 3 0 = fld v 3 0 ∧ t.bit (Reg.IRQ_SRCs n.val) 7 = bitAt v 7 ∧
      t.bit (Reg.IRQ_SRCs n.val) 6 = bitAt v 6 ∧
      (bitAt v 6 = true → s.bit (Reg.IRQ_SRCs n.val) 6 = false → t.f (Reg.IRQ_SRCs n.val) 15 8 = 0 ∧
        t.bit (Reg.IRQ_SRCs n.val) 16 = (decide (s.f (Reg.IRQ_SRCs n.val) 15 8 ≠ 0) || s.bit (Reg.IRQ_SRCs n.val) 16)) ∧
      (bitAt v 6 = false → s.bit (Reg.IRQ_SRCs n.val) 6 = true → t.bit (Reg.IRQ_SRCs n.val) 16 = false ∧
        t.f (Reg.IRQ_SRCs n.val) 15 8 = b2n (s.bit (Reg.IRQ_SRCs n.val) 16)) ∧ SameRegsBut (fun a => a = Reg.IRQ_SRCs n.val) s t ∧ SameMemory s t) ∧
    (∀ k : Fin 16, s.coalOf (s.f (Reg.IRQ_COALk_CFG k.val) 7 0) = some k.val → s.f (Reg.IRQ_COALk_TIME k.val) 15 0 ≠ 0 →
      s.f (Reg.IRQ_COALk_HELD k.val) 7 0 ≠ 0 → Completes (.coalescerTimeout k) s fun t => t.f (Reg.IRQ_COALk_HELD k.val) 7 0 = 0 ∧
        t.f (Reg.IRQ_COALk_HELD k.val) 23 16 = s.f (Reg.IRQ_COALk_HELD k.val) 7 0 ∧ SameMemory s t) ∧
    (∀ k : Fin 16, s.coalOf (s.f (Reg.IRQ_COALk_CFG k.val) 7 0) ≠ some k.val ∨ s.f (Reg.IRQ_COALk_TIME k.val) 15 0 = 0 ∨
      s.f (Reg.IRQ_COALk_HELD k.val) 7 0 = 0 → exec (.coalescerTimeout k) s = .next s) ∧
    (∀ (k : Fin 16) (v : Word), s.targetOff (Reg.IRQ_COALk_CFG k.val) = false → exec (.irqCoalCfgWrite m k v) s = .next ((s.writeCoal k.val v).reply 0 0) ∧
      (s.coalOf (s.f (Reg.IRQ_COALk_CFG k.val) 7 0) = some k.val → s.holders = [(k.val, s.f (Reg.IRQ_COALk_CFG k.val) 7 0)] → bitAt v 16 = false →
        Completes (.irqCoalCfgWrite m k v) s fun t => t.reg (Reg.IRQ_COALk_CFG k.val) = v &&& 0x1FFFF ∧ t.f (Reg.IRQ_COALk_HELD k.val) 7 0 = 0 ∧
          t.f (Reg.IRQ_COALk_HELD k.val) 23 16 = s.f (Reg.IRQ_COALk_HELD k.val) 7 0)) ∧
    (∀ (v : Word) (n : Fin 256) (k : Fin 16), (∀ a ∈ [Reg.IRQ_RAISE, Reg.IRQ_CLR, Reg.IRQ_SRCs n.val, Reg.IRQ_COALk_CFG k.val], s.targetOff a = true) →
      ∀ c ∈ [Instr.irqRaise m v, .irqClr m v, .irqFbWrite m n v, .irqCoalCfgWrite m k v], Completes c s fun t => t.answer = ⟨6, 0⟩ ∧ t.irq.active = s.irq.active ∧ SameMemory s t) ∧
    (∀ (k : Fin 16) (v : Word), s.targetOff (Reg.IRQ_COALk_CFG k.val) = false → s.holders = [] → Completes (.irqCoalCfgWrite m k v) s fun t => t.reg (Reg.IRQ_COALk_CFG k.val) = v &&& 0x1FFFF ∧
      SameRegsBut (fun a => a = Reg.IRQ_COALk_CFG k.val) s t ∧ SameMemory s t) ∧
    (∀ k : Fin 32, s.pwr.state ≠ 0 → s.bit (Reg.IRQ_WAKEk k.val) 8 = true → Completes (.wakeSlotEvent k) s fun t =>
      t.bit Reg.IRQ_WAKESTAT k.val = true ∧ t.pwr.waking = true ∧ bitAt t.irq.wakePend k.val = true ∧ SameRegsBut (fun a => a = Reg.IRQ_WAKESTAT) s t ∧ SameMemory s t) ∧
    (∀ k : Fin 32, s.pwr.state = 0 ∨ s.bit (Reg.IRQ_WAKEk k.val) 8 = false → exec (.wakeSlotEvent k) s = .next s)

/-- TIMER_TICK, TIMER_MASTER_EVENT, TMR_CNT_READ, TMR_CNT_WRITE, TMR_CMP_WRITE, TIMER_CAPTURE and TMR_CAP_READ (R390 to R394). A tick counts up by one, and from
the last value to zero with OVF; a master event in reset mode sets the count to zero; a read of the count copies that of the chained timer; a capture takes
the count, and a second one before the first is read sets its overrun.
WDG_ENABLE, WDG_KEY, WDG_KEY_TIMEOUT, WDG_WARNING and WDG_EXPIRY (R395, R396, R414). EN can be set once LOAD is not zero, and loads the count; the two key
writes in their order reload it, any other value sets BADKEY; the warning and the expiry are noted; an expiry of WDG0 or WDG1 holds its core, one of WDGM resets the
management domain with causes 5 and 8. Only the Allemande
reaches WDGM. A timer that does not run does not tick, and stop mode holds timers 0 to 11. -/
def Obligations.TimersAndWatchdogs : Prop :=
  (∀ (m : Acc) (n : Fin 16) (s : State), m.debug = false →
    (12 ≤ n.val ∨ s.frozen = false → s.f (Reg.TMRn_CTRL n.val) 1 0 ≤ 1 → exec (.timerTick n) s = .next (s.timerStep 16 n.val)) ∧
    (12 ≤ n.val ∨ s.frozen = false → 2 ≤ s.f (Reg.TMRn_CTRL n.val) 1 0 ∨ s.timerRuns n.val = false → exec (.timerTick n) s = .next s) ∧
    (n.val < 12 → s.frozen = true → exec (.timerTick n) s = .next s ∧ exec (.timerMasterEvent n) s = .next s ∧ exec (.timerCapture n) s = .next s) ∧
    (12 ≤ n.val ∨ s.frozen = false → s.f (Reg.TMRn_CTRL n.val) 1 0 ≤ 1 → s.timerRuns n.val = true → s.bit (Reg.TMRn_CTRL n.val) 2 = true →
      (s.reg (Reg.TMRn_CNT n.val) ≠ 0xFFFFFFFF → s.reg (Reg.TMRn_CMP n.val) ≠ s.reg (Reg.TMRn_CNT n.val) + 1 → Completes (.timerTick n) s fun t =>
        t.reg (Reg.TMRn_CNT n.val) = s.reg (Reg.TMRn_CNT n.val) + 1 ∧ SameRegsBut (fun a => a = Reg.TMRn_CNT n.val) s t ∧ SameMemory s t) ∧
      (s.reg (Reg.TMRn_CNT n.val) = 0xFFFFFFFF → Completes (.timerTick n) s fun t => t.reg (Reg.TMRn_CNT n.val) = 0 ∧
        t.bit (Reg.TMRn_STAT n.val) 0 = true ∧ SameMemory s t)) ∧
    (12 ≤ n.val ∨ s.frozen = false → n.val ∈ s.irq.masterDue → s.f (Reg.TMRn_CTRL n.val) 21 20 = 2 → Completes (.timerMasterEvent n) s fun t =>
      t.reg (Reg.TMRn_CNT n.val) = 0 ∧ n.val ∉ t.irq.masterDue ∧ SameRegsBut (fun a => a = Reg.TMRn_CNT n.val) s t ∧ SameMemory s t) ∧
    (12 ≤ n.val ∨ s.frozen = false → n.val ∈ s.irq.masterDue → s.f (Reg.TMRn_CTRL n.val) 21 20 ≠ 2 → s.f (Reg.TMRn_CTRL n.val) 1 0 = 3 →
      s.timerRuns n.val = true → s.bit (Reg.TMRn_CTRL n.val) 2 = true → s.reg (Reg.TMRn_CNT n.val) ≠ 0xFFFFFFFF →
      s.reg (Reg.TMRn_CMP n.val) ≠ s.reg (Reg.TMRn_CNT n.val) + 1 → Completes (.timerMasterEvent n) s fun t =>
        t.reg (Reg.TMRn_CNT n.val) = s.reg (Reg.TMRn_CNT n.val) + 1 ∧ n.val ∉ t.irq.masterDue) ∧
    (12 ≤ n.val ∨ s.frozen = false → n.val ∈ s.irq.masterDue → s.f (Reg.TMRn_CTRL n.val) 21 20 ≠ 2 → s.f (Reg.TMRn_CTRL n.val) 1 0 ≠ 3 →
      Completes (.timerMasterEvent n) s fun t => t.regs = s.regs ∧ n.val ∉ t.irq.masterDue) ∧
    (n.val ∉ s.irq.masterDue → exec (.timerMasterEvent n) s = .next s) ∧
    (s.targetOff (Reg.TMRn_CNT n.val) = true → ∀ v : Word, ∀ c ∈ [Instr.tmrCntRead m n, .tmrCntWrite m n v, .tmrCmpWrite m n v false, .tmrCapRead m n false],
      Completes c s fun t => t.answer = ⟨6, 0⟩ ∧ t.reg (Reg.TMRn_CNT n.val) = s.reg (Reg.TMRn_CNT n.val) ∧
        t.reg (Reg.TMRn_CMP n.val) = s.reg (Reg.TMRn_CMP n.val) ∧ SameMemory s t) ∧
    (s.targetOff (Reg.TMRn_CNT n.val) = false → Completes (.tmrCntRead m n) s (fun t => t.answer = ⟨0, s.reg (Reg.TMRn_CNT n.val)⟩ ∧ (n.val < 15 → s.f (Reg.TMRn_CTRL (n.val + 1)) 1 0 = 2 →
      t.reg (Reg.TMRn_HOLD (n.val + 1)) = s.reg (Reg.TMRn_CNT (n.val + 1))) ∧ SameMemory s t)) ∧
    (∀ v : Word, s.targetOff (Reg.TMRn_CNT n.val) = false → Completes (.tmrCntWrite m n v) s (fun t => t.reg (Reg.TMRn_CNT n.val) = v ∧ SameRegsBut (fun a => a = Reg.TMRn_CNT n.val) s t ∧ SameMemory s t) ∧
      Completes (.tmrCmpWrite m n v false) s (fun t => t.reg (Reg.TMRn_CMP n.val) = v ∧ SameRegsBut (fun a => a = Reg.TMRn_CMP n.val) s t ∧ SameMemory s t) ∧
      Completes (.tmrCmpWrite m n v true) s (fun t => t.reg (Reg.TMRn_CMP n.val) = v ∧ t.reg (Reg.TMRn_CNT n.val) = (s.timerStep 16 n.val).reg (Reg.TMRn_CNT n.val))) ∧
    (∀ k : Nat, k = s.f (Reg.TMRn_IEN n.val) 15 8 → 12 ≤ n.val ∨ s.frozen = false → k ≠ 0 → k ≠ 6 → k ≠ 7 → k ≤ 15 → Completes (.timerCapture n) s fun t =>
      t.reg (Reg.TMRn_CAP n.val) = s.reg (Reg.TMRn_CNT n.val) ∧ t.bit (Reg.TMRn_STAT n.val) 2 = true ∧
      t.bit (Reg.TMRn_STAT n.val) 3 = (s.bit (Reg.TMRn_STAT n.val) 3 || s.bit (Reg.TMRn_STAT n.val) 2) ∧ SameMemory s t) ∧
    (∀ k : Nat, k = s.f (Reg.TMRn_IEN n.val) 15 8 → 12 ≤ n.val ∨ s.frozen = false → k = 0 ∨ k = 6 ∨ k = 7 ∨ 15 < k → exec (.timerCapture n) s = .next s) ∧
    (s.targetOff (Reg.TMRn_CNT n.val) = false → Completes (.tmrCapRead m n false) s (fun t => t.answer = ⟨0, s.reg (Reg.TMRn_CAP n.val)⟩ ∧
      t.bit (Reg.TMRn_STAT n.val) 2 = false ∧ SameRegsBut (fun a => a = Reg.TMRn_STAT n.val) s t ∧ SameMemory s t) ∧
      (∀ k : Nat, k = s.f (Reg.TMRn_IEN n.val) 15 8 → k ≠ 0 → k ≠ 6 → k ≠ 7 → k ≤ 15 → Completes (.tmrCapRead m n true) s (fun t =>
        t.answer = ⟨0, s.reg (Reg.TMRn_CAP n.val)⟩ ∧ t.bit (Reg.TMRn_STAT n.val) 2 = true ∧ t.reg (Reg.TMRn_CAP n.val) = s.reg (Reg.TMRn_CNT n.val))))) ∧
  (∀ (m : Acc) (w : Fin 3) (s : State),
    (m.debug = false → s.targetOff (wdgReg w.val 0) = true → ∀ v : Word, Completes (.wdgEnable m w v) s (fun t => t.answer = ⟨6, 0⟩ ∧ t.reg (wdgCtrl w.val) = s.reg (wdgCtrl w.val)) ∧
      Completes (.wdgKey m w v) s (fun t => t.answer = ⟨6, 0⟩ ∧ t.keyOpen w.val = s.keyOpen w.val)) ∧
    (m.debug = false → s.targetOff (wdgReg w.val 0) = false → w.val < 2 ∨ m.alle = true →
      (∀ v : Word, bitAt v 0 = true → s.bit (wdgCtrl w.val) 0 = false → s.reg (wdgReg w.val 4) ≠ 0 → Completes (.wdgEnable m w v) s fun t =>
        t.bit (wdgCtrl w.val) 0 = true ∧ t.reg (wdgCnt w.val) = s.reg (wdgReg w.val 4) ∧ SameMemory s t) ∧
      (∀ v : Word, bitAt v 0 = false ∨ s.bit (wdgCtrl w.val) 0 = true ∨ s.reg (wdgReg w.val 4) = 0 → Completes (.wdgEnable m w v) s fun t =>
        t.regs = s.regs ∧ t.irq = s.irq ∧ SameMemory s t) ∧
      (∀ v : Word, s.keyOpen w.val = false → v ≠ 0xC35A → Completes (.wdgKey m w v) s fun t => t.keyOpen w.val = false ∧ t.bit (wdgStat w.val) 1 = true ∧
        SameRegsBut (fun a => a = wdgStat w.val) s t ∧ SameMemory s t) ∧
      (s.keyOpen w.val = false → Completes (.wdgKey m w 0xC35A) s fun t => t.keyOpen w.val = true ∧ t.regs = s.regs ∧ SameMemory s t) ∧
      (s.keyOpen w.val = true → Completes (.wdgKey m w 0x3CA5) s fun t => t.keyOpen w.val = false ∧ t.reg (wdgCnt w.val) = s.reg (wdgReg w.val 4) ∧
        SameRegsBut (fun a => a = wdgCnt w.val) s t ∧ SameMemory s t) ∧
      (∀ v : Word, s.keyOpen w.val = true → v ≠ 0x3CA5 → Completes (.wdgKey m w v) s fun t => t.keyOpen w.val = false ∧ t.bit (wdgStat w.val) 1 = true ∧
        SameRegsBut (fun a => a = wdgStat w.val) s t ∧ SameMemory s t)) ∧
    (m.debug = false → w.val = 2 → m.alle = false → Completes (.wdgKey m w 0xC35A) s (fun t => t.answer = ⟨3, 0⟩ ∧ t.keyOpen 2 = s.keyOpen 2) ∧
      ∀ v : Word, Completes (.wdgEnable m w v) s fun t => t.answer = ⟨3, 0⟩ ∧ t.reg (wdgCtrl 2) = s.reg (wdgCtrl 2)) ∧
    (s.keyOpen w.val = false → exec (.wdgKeyTimeout w) s = .next s) ∧
    (s.bit (wdgCtrl w.val) 0 = false ∨ s.reg (wdgReg w.val 8) = 0 ∨ s.bit (wdgCtrl w.val) 2 = true → exec (.wdgWarning w) s = .next s) ∧
    (s.bit (wdgCtrl w.val) 0 = false ∨ s.bit (wdgCtrl w.val) 2 = true ∨ s.reg (wdgCnt w.val) = 0 → exec (.wdgExpiry w) s = .next s) ∧
    (s.keyOpen w.val = true → Completes (.wdgKeyTimeout w) s fun t => t.keyOpen w.val = false ∧ t.bit (wdgStat w.val) 1 = true ∧
      SameRegsBut (fun a => a = wdgStat w.val) s t ∧ SameMemory s t) ∧
    (s.bit (wdgCtrl w.val) 0 = true → s.reg (wdgReg w.val 8) ≠ 0 → s.bit (wdgCtrl w.val) 2 = false → Completes (.wdgWarning w) s fun t =>
      t.bit (wdgStat w.val) 0 = true ∧ (t.reg (wdgCnt w.val)).toNat = min (s.reg (wdgCnt w.val)).toNat (s.reg (wdgReg w.val 8)).toNat ∧ SameMemory s t) ∧
    (s.bit (wdgCtrl w.val) 0 = true → s.bit (wdgCtrl w.val) 2 = false → s.reg (wdgCnt w.val) ≠ 0 →
      (w.val < 2 → Completes (.wdgExpiry w) s fun t => t.core w.val = emptyCore ∧ t.bit Reg.CLK_GVCTL w.val = true ∧ t.bit (wdgStat w.val) 2 = true ∧ SameMemory s t) ∧
      (w.val = 2 → Completes (.wdgExpiry w) s fun t => t.bit Reg.CLK_RSTCAUSE 5 = true ∧ t.bit Reg.CLK_RSTCAUSE 8 = true ∧ (t.core 2).run = .run ∧ (t.core 2).pc = 0 ∧
        t.fab.wiping = true ∧ t.sec.level = 0 ∧ t.beam = s.beam)))

/-- PLL_F_LOSS, CLOCK_RESUME, PLL_REVERT, BEAM_PLL_LOSS, BEAM_PLL_RELOCK, REF25_LOSS, REF25_RETURN, AUDIO_PLL_LOSS, AUDIO_PLL_RELOCK and XO32_START (R401, R402,
R518). A loss of PLL F with the spare locked holds the clocks and goes to the spare; without it the chip is reset; a loss on the spare is noted; a
revert goes back to PLL F where that is locked; a loss of the beam PLL or of REF25 puts the
station into HOLDOVER; each loss sets its bit of CLK_STAT. Only the Allemande reaches CLK_PLLCTL. -/
def Obligations.ClockLosses : Prop :=
  ∀ (m : Acc) (s : State),
    (s.bit Reg.CLK_PLLSTAT 2 = false → s.bit Reg.CLK_PLLCTL 0 = true → s.bit Reg.CLK_PLLSTAT 1 = true → Completes .pllFLoss s fun t =>
      t.bit Reg.CLK_PLLSTAT 0 = false ∧ t.bit Reg.CLK_PLLSTAT 2 = true ∧ t.bit Reg.CLK_STAT 0 = true ∧ t.pwr.held = true ∧ t.beam = s.beam ∧ SameMemory s t) ∧
    (s.bit Reg.CLK_PLLSTAT 2 = false → s.bit Reg.CLK_PLLCTL 0 = false ∨ s.bit Reg.CLK_PLLSTAT 1 = false → Completes .pllFLoss s fun t =>
      t.bit Reg.CLK_RSTCAUSE 7 = true ∧ t.bit Reg.CLK_STAT 0 = true ∧ t.running = false ∧ (t.core 2).run = .run ∧ (t.core 2).pc = 0) ∧
    (s.bit Reg.CLK_PLLSTAT 2 = true → Completes .pllFLoss s fun t => t.bit Reg.CLK_PLLSTAT 0 = false ∧ t.bit Reg.CLK_PLLSTAT 2 = true ∧
      t.bit Reg.CLK_STAT 0 = true ∧ t.pwr.held = s.pwr.held ∧ SameMemory s t) ∧
    Completes .clockResume s (fun t => t.pwr = { s.pwr with held := false } ∧ t.regs = s.regs ∧ SameMemory s t) ∧
    (∀ (v : Word) (relocked : Bool), m.debug = false → m.alle = true → s.bit Reg.CLK_PLLSTAT 0 = true ∨ relocked = true → s.bit Reg.CLK_PLLSTAT 2 = true →
      Completes (.pllRevert m v relocked) s fun t => t.bit Reg.CLK_PLLSTAT 2 = false ∧ t.bit Reg.CLK_PLLSTAT 0 = true ∧ t.pwr.held = true ∧
        t.bit Reg.CLK_PLLCTL 0 = bitAt v 0 ∧ SameRegsBut (fun a => a = Reg.CLK_PLLSTAT ∨ a = Reg.CLK_PLLCTL) s t ∧ SameMemory s t) ∧
    (∀ (v : Word) (relocked : Bool), m.debug = false → m.alle = true → (s.bit Reg.CLK_PLLSTAT 0 = false ∧ relocked = false) ∨ s.bit Reg.CLK_PLLSTAT 2 = false →
      Completes (.pllRevert m v relocked) s fun t => t.bit Reg.CLK_PLLSTAT 2 = s.bit Reg.CLK_PLLSTAT 2 ∧ t.pwr = s.pwr ∧
        t.bit Reg.CLK_PLLCTL 0 = bitAt v 0 ∧ SameMemory s t) ∧
    (∀ (v : Word) (relocked : Bool), m.debug = false → m.alle = false → Completes (.pllRevert m v relocked) s fun t =>
      t.answer = ⟨3, 0⟩ ∧ t.reg Reg.CLK_PLLSTAT = s.reg Reg.CLK_PLLSTAT ∧ t.reg Reg.CLK_PLLCTL = s.reg Reg.CLK_PLLCTL ∧ SameMemory s t) ∧
    Completes .beamPllLoss s (fun t => t.bit Reg.CLK_STAT 1 = true ∧ t.bit Reg.CLK_PLLSTAT 3 = false ∧ t.pwr.beamDiv = true ∧ t.lock = 3 ∧
      (s.lock ≠ 3 → t.bit Reg.BEAM_WSTAT 4 = true) ∧ SameMemory s t) ∧
    Completes .beamPllRelock s (fun t => t.bit Reg.CLK_PLLSTAT 3 = true ∧ t.pwr = { s.pwr with beamDiv := false } ∧
      SameRegsBut (fun a => a = Reg.CLK_PLLSTAT) s t ∧ SameMemory s t) ∧
    Completes .ref25Loss s (fun t => t.bit Reg.CLK_STAT 2 = true ∧ t.pwr.ref25 = false ∧ t.lock = 3 ∧ SameMemory s t) ∧
    Completes .ref25Return s (fun t => t.pwr = { s.pwr with ref25 := true } ∧ t.regs = s.regs ∧ SameMemory s t) ∧
    Completes .audioPllLoss s (fun t => t.bit Reg.CLK_STAT 3 = true ∧ t.bit Reg.CLK_PLLSTAT 4 = false ∧ t.pwr.audioLost = true ∧ SameMemory s t) ∧
    Completes .audioPllRelock s (fun t => t.bit Reg.CLK_PLLSTAT 4 = true ∧ t.pwr = { s.pwr with audioLost := false } ∧
      SameRegsBut (fun a => a = Reg.CLK_PLLSTAT) s t ∧ SameMemory s t) ∧
    Completes .xo32Start s (fun t => t.pwr = { s.pwr with xo32 := true } ∧ t.regs = s.regs ∧ SameMemory s t)

/-- SLEEP_ENTRY, WAKE_START, WAKE_DONE, WAKE_PIN and CLK_UPLO_READ (R404, R406 to R409, R488). The manager takes the deepest permitted state whose entry and wake with the
margin fit into the time to the earliest known event, and stays in RUN if none fits or the conditions of R406 fail; a wake ends in RUN with the time and the
state left recorded, in STANDBY with a beam that ran started anew, from DEEP through a reset with DEEPWAKE; WAKE starts a wake; a read of the uptime latches its upper half. -/
def Obligations.SleepStates : Prop :=
  ∀ (m : Acc) (s : State),
    (∀ k t, 1 ≤ k → k ≤ 5 → s.pwr.state = 0 → s.maySleep = true → k ≤ s.sleepLimit.1 → s.sleepCost k + s.f Reg.CLK_PMGR 27 16 * 100 ≤ s.knownTime t →
      (∀ j, k < j → j ≤ 5 → s.sleepLimit.1 < j ∨ s.knownTime t < s.sleepCost j + s.f Reg.CLK_PMGR 27 16 * 100) →
      Completes (.sleepEntry t) s fun u => u.pwr.state = k ∧ u.pwr.waking = false ∧ u.pwr.since = s.pwr.uptime ∧ u.regs = s.regs ∧ u.beam = s.beam ∧ SameMemory s u) ∧
    (∀ t, s.pwr.state ≠ 0 ∨ s.maySleep = false ∨ s.knownTime t < 120 + s.f Reg.CLK_PMGR 27 16 * 100 → exec (.sleepEntry t) s = .next s) ∧
    (∀ t, s.knownTime t ≤ t) ∧ (s.pwr.waking = false → exec .wakeDone s = .next s) ∧
    (s.pwr.state = 0 → exec .wakeStart s = .next s ∧ exec .wakeDone s = .next s) ∧
    (s.pwr.state ≠ 0 → Completes .wakeStart s fun t => t.pwr = { s.pwr with waking := true } ∧ t.regs = s.regs ∧ SameMemory s t) ∧
    (∀ k, 1 ≤ k → k ≤ 4 → s.pwr.state = k → s.pwr.waking = true → Completes .wakeDone s fun t => t.pwr.state = 0 ∧ t.pwr.waking = false ∧
      t.f Reg.CLK_PSTAT 6 4 = k ∧ (t.reg (Reg.CLK_RESIDs k)).toNat =
        min (2 ^ 32 - 1) ((s.reg (Reg.CLK_RESIDs k)).toNat + (s.pwr.uptime - s.pwr.since) / 1000) ∧
      t.irq.wakePend = 0 ∧ (k < 4 ∨ s.running = false → t.lock = s.lock ∧ t.gv = s.gv ∧ SameMemory s t) ∧
      (k = 4 → s.running = true → t.running = true ∧ t.beam.frame = 0 ∧ t.beam.pos = ⟨0, 0, 0⟩ ∧ t.snd.k = 0)) ∧
    (s.pwr.state = 5 → s.pwr.waking = true → Completes .wakeDone s fun t => t.pwr.state = 0 ∧ t.f Reg.CLK_PSTAT 6 4 = 5 ∧ t.bit Reg.CLK_RSTCAUSE 4 = true ∧
      t.running = false ∧ (t.core 2).run = .run ∧ (t.core 2).pc = 0 ∧ (∀ k, inSram k = true → t.byte k = 0)) ∧
    (s.pwr.state ≠ 0 → Completes .wakePin s fun t => t.pwr.state = s.pwr.state ∧ t.pwr.waking = true ∧ SameMemory s t) ∧
    (s.pwr.state = 0 → s.coalOf 192 = none → s.bit (Reg.IRQ_SRCs 192) 6 = true → Completes .wakePin s fun t =>
      t.bit (Reg.IRQ_SRCs 192) 16 = true ∧ t.pwr = s.pwr ∧ SameRegsBut (fun a => a = Reg.IRQ_SRCs 192) s t ∧ SameMemory s t) ∧
    (m.debug = false → Completes (.clkUploRead m) s fun t => t.answer = ⟨0, wd s.pwr.uptime⟩ ∧ t.reg Reg.CLK_UPHI = wd (s.pwr.uptime / 2 ^ 32) ∧
      SameRegsBut (fun a => a = Reg.CLK_UPHI) s t ∧ SameMemory s t)

/-- RESET_N, CLK_SWRST, SUPPLY_OUT_OF_RANGE, POWER_ON_RESET, RESET_RELEASE and GV_RELEASE (R310, R410, R411, R455, Table 16.5). A chip reset sets its bit of CLK_RSTCAUSE,
zeroes main SRAM, holds GV0 and GV1, stops the beam and keeps the life-cycle state; another value than the key does nothing; a power-on reset leaves State.reset with
what OTP holds; the release starts the Allemande; a released core starts at its start address with its registers zero, its watchdog
reloaded where that is on. -/
def Obligations.ResetSources : Prop :=
  ∀ (m : Acc) (s : State) (P : Nat → State → Prop),
    (P = fun i t => t.bit Reg.CLK_RSTCAUSE i = true ∧ (∀ k, inSram k = true → t.byte k = 0) ∧ t.fab.marching = true ∧ t.fab.wiping = true ∧ t.running = false ∧
      t.pwr.state = 0 ∧ t.core 0 = emptyCore ∧ t.core 1 = emptyCore ∧ t.f Reg.CLK_GVCTL 1 0 = 3 ∧ (t.core 2).run = .run ∧ (t.core 2).pc = 0 ∧
      t.blk = BlkSt.reset ∧ t.reel = ReelSt.reset ∧ t.sec.life = s.sec.life ∧ t.sec.level = 0 ∧ t.pending = s.pending ∧
      ∀ a, isFabric a = true → t.reg a = RegMap.resetOf a) →
    Completes .resetN s (P 2) ∧
    (m.debug = false → m.alle = true → Completes (.clkSwrst m 0x5EE7) s (P 3)) ∧
    (∀ v : Word, m.debug = false → m.alle = true → v ≠ 0x5EE7 → exec (.clkSwrst m v) s = .next (s.reply 0 0)) ∧
    (∀ v : Word, m.debug = false → m.alle = false → Completes (.clkSwrst m v) s fun t => t.answer = ⟨3, 0⟩ ∧ t.gv = s.gv ∧ t.beam = s.beam ∧ SameMemory s t) ∧
    Completes .supplyOutOfRange s (fun t => P 1 t ∧ t.pwr.supplyOk = false ∧ t.pwr.released = false) ∧
    Completes .powerOnReset s (fun t => t.regs = State.reset.regs ∧ t.mem = State.reset.mem ∧ t.pwr = State.reset.pwr ∧ t.gv = State.reset.gv ∧
      t.beam = State.reset.beam ∧ t.sec.life = s.sec.life ∧ t.sec.owner = s.sec.owner ∧ t.sec.revoked = s.sec.revoked ∧ t.sec.dbgKey = s.sec.dbgKey ∧
      t.sec.svn = s.sec.svn ∧ t.pending = s.pending) ∧
    ((s.core 2).run = .held → Completes .resetRelease s fun t => t.pwr.released = true ∧ t.core 2 = { emptyCore with run := .run } ∧
      t.bit Reg.CLK_PLLSTAT 0 = true ∧ t.bit Reg.CLK_PLLSTAT 3 = true ∧ t.bit Reg.CLK_PLLSTAT 4 = true ∧ SameRegsBut (fun a => a = Reg.CLK_PLLSTAT) s t ∧
      SameMemory s t) ∧
    ((s.core 2).run ≠ .held → Completes .resetRelease s fun t => t.pwr.released = true ∧ t.core 2 = s.core 2 ∧ SameMemory s t) ∧
    (∀ v : Word, m.debug = false → m.alle = false → Completes (.gvRelease m v) s fun t => t.answer = ⟨3, 0⟩ ∧ t.gv = s.gv ∧ SameMemory s t) ∧
    (∀ (v : Word) (c : Nat), c < 2 → m.debug = false → m.alle = true →
      (bitAt v c = false → (s.core c).run = .held → s.bit (wdgCtrl c) 0 = false → Completes (.gvRelease m v) s fun t =>
        t.core c = { emptyCore with run := .run, pc := (s.reg (Reg.CLK_GVxSTART c)).toNat / 4 * 4 } ∧ t.bit Reg.CLK_GVCTL c = false ∧ t.core 2 = s.core 2 ∧
        SameMemory s t) ∧
      (bitAt v c = false → (s.core c).run = .held ∨ (s.core c).run = .stopped → s.bit (wdgCtrl c) 0 = true → Completes (.gvRelease m v) s fun t =>
        t.core c = { emptyCore with run := .run, pc := (s.reg (Reg.CLK_GVxSTART c)).toNat / 4 * 4 } ∧ t.reg (wdgCnt c) = s.reg (wdgReg c 4)) ∧
      (bitAt v c = false → (s.core c).run ≠ .held → (s.core c).run ≠ .stopped → Completes (.gvRelease m v) s fun t => t.core c = s.core c) ∧
      (bitAt v c = true → Completes (.gvRelease m v) s fun t => t.core c = emptyCore ∧ t.bit Reg.CLK_GVCTL c = true ∧ t.core 2 = s.core 2 ∧ SameMemory s t))

/-- VERIFY, SSVERIFY, VERIFY_DONE, LOAD and LOAD_DONE (R421 to R423, R425, Tables 17.3 and 17.8). A verification is refused while the engine is busy and for SRC 3; on
staging it locks the region and fails at once while STGDONE is clear; its first failing check gives the code, and a pass sets VERIFIED with BREAK; a load copies its
section to its destination and compares the hash. Only the Allemande reaches the registers. -/
def Obligations.ImageChecks : Prop :=
  ∀ (m : Acc) (s : State),
    (m.debug = false → s.targetOff Reg.IMG_CMD = true → ∀ src, ∀ c ∈ [Instr.verify m src, .ssverify m, .load m src], Completes c s fun t =>
      t.answer = ⟨6, 0⟩ ∧ t.img = s.img ∧ SameMemory s t) ∧
    (m.debug = false → m.alle = false → s.targetOff Reg.IMG_CMD = false → ∀ src, Completes (.verify m src) s fun t => t.answer = ⟨3, 0⟩ ∧ t.img = s.img ∧ SameMemory s t) ∧
    (m.debug = false → m.alle = true → s.targetOff Reg.IMG_CMD = false → ∀ src : Fin 4,
      (src.val = 3 ∨ s.engine ≠ 0 → Completes (.verify m src) s fun t => t.bit Reg.IMG_STAT 5 = true ∧ t.engine = s.engine ∧ t.img = s.img ∧ SameMemory s t) ∧
      (src.val = 1 ∨ src.val = 2 → s.engine = 0 → Completes (.verify m src) s fun t => t.engine = 1 ∧ t.img.cmd = some (1, src.val, 0) ∧
        SameRegsBut (fun a => a = Reg.IMG_STATE) s t ∧ SameMemory s t) ∧
      (src.val = 0 → s.engine = 0 → s.bit Reg.IMG_STAT 7 = true → Completes (.verify m src) s fun t => t.engine = 1 ∧ t.bit Reg.IMG_STATE 5 = true ∧
        t.img.cmd = some (1, 0, 0) ∧ SameRegsBut (fun a => a = Reg.IMG_STATE) s t ∧ SameMemory s t) ∧
      (src.val = 0 → s.engine = 0 → s.bit Reg.IMG_STAT 7 = false → Completes (.verify m src) s fun t => t.engine = 0 ∧ t.bit Reg.IMG_STATE 5 = true ∧
        t.bit Reg.IMG_STAT 1 = true ∧ t.reg Reg.IMG_ERR = 8 ∧ SameMemory s t) ∧
      (src.val = 3 → Completes (.load m src) s fun t => t.bit Reg.IMG_STAT 5 = true ∧ t.img = s.img ∧ SameMemory s t) ∧
      (s.engine ≠ 0 → Completes (.ssverify m) s fun t => t.bit Reg.IMG_STAT 5 = true ∧ t.img = s.img ∧ SameMemory s t) ∧
      (s.engine = 0 → Completes (.ssverify m) s fun t => t.engine = 1 ∧ t.img.cmd = some (2, 0, 0) ∧ SameRegsBut (fun a => a = Reg.IMG_STATE) s t ∧ SameMemory s t) ∧
      (∀ (i : Nat) (x : Section), src.val ≠ 3 → i = s.f Reg.IMG_LDSECT 5 0 → x = s.sectionOf src.val i →
        (s.engine ≠ 0 ∨ s.nsect src.val ≤ i ∨ x.type = 1 ∨ x.type = 7 ∨ (x.type = 4 ∧ s.mntBusy = true) → Completes (.load m src) s fun t =>
          t.bit Reg.IMG_STAT 5 = true ∧ t.img = s.img ∧ SameMemory s t) ∧
        (s.engine = 0 → i < s.nsect src.val → x.type ≠ 1 → x.type ≠ 7 → x.type ≠ 4 ∨ s.mntBusy = false → Completes (.load m src) s fun t =>
          t.engine = 2 ∧ t.img.cmd = some (5, src.val, i) ∧ SameRegsBut (fun a => a = Reg.IMG_STATE) s t ∧ SameMemory s t))) ∧
    (∀ (sigOk : Bool) (bad : Option (Fin 64)), s.img.cmd = none ∨ (∃ k n, s.img.cmd = some (5, k, n)) → exec (.verifyDone sigOk bad) s = .next s) ∧
    (∀ hashOk sigOk : Bool, s.img.cmd = none ∨ (∃ k n, s.img.cmd = some (1, k, n) ∨ s.img.cmd = some (2, k, n)) → exec (.loadDone hashOk sigOk) s = .next s) ∧
    (∀ (src n i a b : Nat) (u : State) (x : Section), s.img.cmd = some (1, src, n) → s.headerOk src = true → s.signatureCode src true = 0 →
      s.formatsOk src = true → (s.sections src).findIdx? (fun y => decide (y.type = 1)) = some i → x = s.sectionOf src i →
      State.writeRecords src x.offset (x.length / 8) s = ((0, a), u) → u.firstBroken = some b → Completes (.verifyDone true none) s fun t =>
        t.engine = 0 ∧ t.bit Reg.IMG_STAT 1 = true ∧ t.bit Reg.IMG_STATE 4 = false ∧ t.reg Reg.IMG_ERR = 7 ∧ t.reg Reg.IMG_ERRADDR = wd b ∧
        t.shadow = u.shadow ∧ SameMemory u t) ∧
    (∀ (sigOk : Bool) (bad : Option (Fin 64)) (n : Nat), s.img.cmd = some (2, n, 0) →
      (s.firstBroken = none → Completes (.verifyDone sigOk bad) s fun t => t.engine = 0 ∧ t.bit Reg.IMG_STAT 0 = true ∧ t.bit Reg.IMG_STATE 4 = true ∧
        t.f Reg.IMG_STATE 10 8 = s.breaks ∧ t.reg Reg.IMG_ERR = 0 ∧ t.reg Reg.IMG_SHDVER = s.reg Reg.IMG_SHDVER ∧ t.shadow = s.shadow ∧ SameMemory s t) ∧
      (∀ a, s.firstBroken = some a → Completes (.verifyDone sigOk bad) s fun t => t.engine = 0 ∧ t.bit Reg.IMG_STAT 1 = true ∧ t.bit Reg.IMG_STATE 4 = false ∧
        t.reg Reg.IMG_ERR = 7 ∧ t.reg Reg.IMG_ERRADDR = wd a ∧ t.shadow = s.shadow ∧ SameMemory s t)) ∧
    (∀ (src n code : Nat) (sigOk : Bool) (bad : Option (Fin 64)), s.img.cmd = some (1, src, n) →
      (s.headerOk src = false ∧ code = 1 ∨ s.headerOk src = true ∧ s.signatureCode src sigOk ≠ 0 ∧ code = s.signatureCode src sigOk ∨
        s.headerOk src = true ∧ s.signatureCode src sigOk = 0 ∧ s.formatsOk src = false ∧ code = 5 ∨
        (∃ i : Fin 64, s.headerOk src = true ∧ s.signatureCode src sigOk = 0 ∧ s.formatsOk src = true ∧ bad = some i ∧ code = 4 + 256 * i.val)) →
      Completes (.verifyDone sigOk bad) s fun t => t.engine = 0 ∧ t.bit Reg.IMG_STAT 1 = true ∧ t.bit Reg.IMG_STATE 4 = false ∧ t.reg Reg.IMG_ERR = wd code ∧
        t.shadow = s.shadow ∧ SameMemory s t) ∧
    (∀ (src n i a : Nat) (u : State) (x : Section), s.img.cmd = some (1, src, n) → s.headerOk src = true → s.signatureCode src true = 0 → s.formatsOk src = true →
      (s.sections src).findIdx? (fun y => decide (y.type = 1)) = some i → x = s.sectionOf src i →
      State.writeRecords src x.offset (x.length / 8) s = ((0, a), u) → u.firstBroken = none → Completes (.verifyDone true none) s fun t =>
        t.engine = 0 ∧ t.bit Reg.IMG_STAT 0 = true ∧ t.bit Reg.IMG_STATE 4 = true ∧ t.reg Reg.IMG_SHDVER = wd (u.srcNat src 16 4) ∧ t.shadow = u.shadow ∧
        SameMemory u t) ∧
    (∀ (src n i c a : Nat) (u : State) (x : Section), s.img.cmd = some (1, src, n) → s.headerOk src = true → s.signatureCode src true = 0 →
      s.formatsOk src = true → (s.sections src).findIdx? (fun y => decide (y.type = 1)) = some i → x = s.sectionOf src i → c = 6 ∨ c = 7 →
      State.writeRecords src x.offset (x.length / 8) s = ((c, a), u) → Completes (.verifyDone true none) s fun t =>
        t.engine = 0 ∧ t.bit Reg.IMG_STAT 1 = true ∧ t.bit Reg.IMG_STATE 4 = false ∧ t.reg Reg.IMG_ERR = wd (c + 256 * (i % 64)) ∧
        (c = 7 → t.reg Reg.IMG_ERRADDR = wd a) ∧ t.shadow = u.shadow ∧ SameMemory u t) ∧
    (∀ (src i : Nat) (x : Section) (hashOk sigOk : Bool), s.img.cmd = some (5, src, i) → i < 64 → x = s.sectionOf src i →
      (x.type = 4 → sigOk = false → Completes (.loadDone hashOk sigOk) s fun t => t.engine = 0 ∧ t.bit Reg.IMG_STAT 4 = true ∧
        t.reg Reg.IMG_ERR = wd (9 + 256 * i) ∧ SameMemory s t) ∧
      (x.type ≠ 4 ∨ sigOk = true → Completes (.loadDone hashOk sigOk) s fun t => t.engine = 0 ∧ t.img.cmd = none ∧
        (hashOk = true → t.bit Reg.IMG_STAT 3 = true ∧ t.reg Reg.IMG_ERR = 0) ∧
        (hashOk = false → t.bit Reg.IMG_STAT 4 = true ∧ t.reg Reg.IMG_ERR = wd (4 + 256 * i))) ∧
      (∀ off, x.type = 6 → s.reg Reg.IMG_LDDST = 0 → x.dest = 0x08000000 + off → off + x.length ≤ 0x40000 →
        Completes (.loadDone hashOk sigOk) s fun t => t.engine = 0 ∧ t.img.cmd = none ∧
          (∀ k, k < x.length → t.byte (localKey 0 (off + k)) = s.srcByte src (x.offset + k) ∧ t.byte (localKey 1 (off + k)) = s.srcByte src (x.offset + k)) ∧
          (hashOk = true → t.bit Reg.IMG_STAT 3 = true ∧ t.reg Reg.IMG_ERR = 0) ∧
          (hashOk = false → t.bit Reg.IMG_STAT 4 = true ∧ t.reg Reg.IMG_ERR = wd (4 + 256 * i))))

/-- IMG_CMD_SWAP, CANCEL, STRUCTURE_SET_SWAP, UPDATE_CHUNK, IMG_SESSION_WRITE, FLASH_READ and BOOT (R412, R413, R418 to R420, R424, R425, R456). A swap needs VERIFIED,
and BREAK where it interrupts; it is made at the commit mark, or with the beam stopped; a chunk of the session within the region is written there, any other is
counted, and the first at offset 0 gives a boot that waits its session; writing SESSION or STGBASE clears the blocks; a boot without a usable slot waits for an image, and one that succeeds releases the cores. -/
def Obligations.ImageUpdates : Prop :=
  ∀ (m : Acc) (s : State),
    (m.debug = false → s.targetOff Reg.IMG_CMD = true → ∀ (b : Bool) (v : Word), ∀ c ∈ [Instr.imgCmdSwap m b, .cancel m, .imgSessionWrite m b v], Completes c s fun t =>
      t.answer = ⟨6, 0⟩ ∧ t.img = s.img ∧ SameMemory s t) ∧
    (m.debug = false → m.alle = false → s.targetOff Reg.IMG_CMD = false → ∀ b : Bool, ∀ c ∈ [Instr.imgCmdSwap m b, .cancel m], Completes c s fun t =>
      t.answer = ⟨3, 0⟩ ∧ t.img = s.img ∧ SameMemory s t) ∧
    (m.debug = false → m.alle = true → s.targetOff Reg.IMG_CMD = false →
      (∀ brk : Bool, s.engine ≠ 3 →
        (s.bit Reg.IMG_STATE 4 = false ∨ s.engine ≠ 0 ∨ (s.f Reg.IMG_STATE 10 8 ≠ 0 ∧ brk = false) → Completes (.imgCmdSwap m brk) s fun t =>
          t.bit Reg.IMG_STAT 5 = true ∧ t.engine = s.engine ∧ SameMemory s t) ∧
        (s.bit Reg.IMG_STATE 4 = true → s.engine = 0 → s.f Reg.IMG_STATE 10 8 = 0 ∨ brk = true → Completes (.imgCmdSwap m brk) s fun t => t.engine = 3 ∧
          SameRegsBut (fun a => a = Reg.IMG_STATE) s t ∧ SameMemory s t)) ∧
      (∀ brk : Bool, s.engine = 3 → exec (.imgCmdSwap m brk) s = .next (s.reply 0 0)) ∧
      Completes (.cancel m) s (fun t => t.engine = (if s.engine = 3 then 0 else s.engine) ∧ t.bit Reg.IMG_STATE 5 = false ∧
        SameRegsBut (fun a => a = Reg.IMG_STATE) s t ∧ SameMemory s t) ∧
      (∀ (base : Bool) (v : Word), Completes (.imgSessionWrite m base v) s fun t => t.reg (if base then Reg.IMG_STGBASE else Reg.IMG_SESSION) = v ∧
        t.reg Reg.IMG_STGBLK = 0 ∧ t.img = { s.img with got := [] } ∧ t.bit Reg.IMG_STATE 5 = (s.bit Reg.IMG_STATE 5 && !base) ∧ SameMemory s t)) ∧
    (s.frozen = false → s.engine = 3 → s.bit Reg.IMG_STATE 4 = true → ∀ peer : PairView,
      (s.running = true → s.beam.pos ≠ ⟨s.subfm1, (posOf (s.reg Reg.BEAM_CMARK)).line, (posOf (s.reg Reg.BEAM_CMARK)).dot⟩ →
        exec (.structureSetSwap peer) s = .next s) ∧
      (s.running = true → s.beam.pos = ⟨s.subfm1, (posOf (s.reg Reg.BEAM_CMARK)).line, (posOf (s.reg Reg.BEAM_CMARK)).dot⟩ →
        Completes (.structureSetSwap peer) s fun t => t.engine = 0 ∧ t.bit Reg.IMG_STAT 2 = true ∧ t.reg Reg.IMG_SWAPS = s.reg Reg.IMG_SWAPS + 1 ∧
          t.reg Reg.IMG_ACTVER = s.reg Reg.IMG_SHDVER ∧ t.f Reg.IMG_STATE 10 8 = 0 ∧ t.sec.signed = s.img.signed ∧
          t.img.restart = (s.img.restart || bitAt (s.reg Reg.IMG_STATE) 8) ∧ SameMemory s t) ∧
      (s.running = false → Completes (.structureSetSwap peer) s fun t => t.reg Reg.IMG_SWAPS = s.reg Reg.IMG_SWAPS + 1 ∧ t.sec.signed = s.img.signed)) ∧
    (s.frozen = false → s.engine ≠ 3 ∨ s.bit Reg.IMG_STATE 4 = false → ∀ peer : PairView, exec (.structureSetSwap peer) s = .next s) ∧
    (s.frozen = false → ∀ (hop : Hop) (ok : Bool) (f : Frame), f.type ≠ 6 → exec (.updateChunk hop ok f) s = .next s) ∧
    (s.frozen = false → ∀ (hop : Hop) (ok : Bool) (f : Frame) (u : State), f.type = 6 →
      (s.arrives hop ok f = (true, u) → u.bit Reg.IMG_STGCTL 0 = true → u.img.anySession = true →
        (f.le 4 4 ≠ 0 → Completes (.updateChunk hop ok f) s fun t => t.f Reg.IMG_STGDROP 15 0 = sat 65535 (u.f Reg.IMG_STGDROP 15 0 + 1) ∧ t.img = u.img ∧ SameMemory u t) ∧
        (f.le 4 4 = 0 → Completes (.updateChunk hop ok f) s fun t => t.img.anySession = false ∧ t.reg Reg.IMG_SESSION = wd (f.le 0 4))) ∧
      (s.arrives hop ok f = (false, u) → exec (.updateChunk hop ok f) s = .next u) ∧
      (s.arrives hop ok f = (true, u) → u.bit Reg.IMG_STGCTL 0 = false → exec (.updateChunk hop ok f) s = .next u) ∧
      (s.arrives hop ok f = (true, u) → u.bit Reg.IMG_STGCTL 0 = true → u.img.anySession = false → ∀ data : List Byte, data = f.data.drop 8 →
        (u.bit Reg.IMG_STATE 5 = true ∨ wd (f.le 0 4) ≠ u.reg Reg.IMG_SESSION ∨ f.le 4 4 % 16 ≠ 0 ∨ u.stgLen < f.le 4 4 + data.length →
          Completes (.updateChunk hop ok f) s fun t => t.f Reg.IMG_STGDROP 15 0 = sat 65535 (u.f Reg.IMG_STGDROP 15 0 + 1) ∧ t.bit Reg.IMG_STAT 6 = true ∧
            t.img = u.img ∧ SameMemory u t) ∧
        (∀ w : State, u.bit Reg.IMG_STATE 5 = false → wd (f.le 0 4) = u.reg Reg.IMG_SESSION → f.le 4 4 % 16 = 0 → f.le 4 4 + data.length ≤ u.stgLen →
          u.sramWriteBytes 14 (u.stgBase + f.le 4 4) data = (0, w) → Completes (.updateChunk hop ok f) s fun t =>
            t.img.got = addRange (f.le 4 4) (f.le 4 4 + data.length) w.img.got ∧ SameMemory w t ∧
            t.reg Reg.IMG_STGBLK = wd (((List.range (w.stgLen / 4096)).filter fun i => t.blockDone i).length)))) ∧
    (∀ (addr : Nat) (data : List Byte), s.xspi.run ≠ none ∨ 4096 < data.length → exec (.flashRead addr data) s = .next s) ∧
    (∀ (addr : Nat) (data : List Byte), s.xspi.run = none → data.length ≤ 4096 → Completes (.flashRead addr data) s fun t =>
      (∀ i v, data[i]? = some v → t.flashByte (addr + i) = v) ∧ (∀ a, a < addr ∨ addr + data.length ≤ a → t.flashByte a = s.flashByte a) ∧
      t.regs = s.regs ∧ SameMemory s t) ∧
    (∀ (bootsel : Fin 4) (okA okB okStaged : Bool),
      (s.fab.bootStopped = true ∨ s.fab.marching = true ∨ s.pwr.released = false → exec (.boot bootsel okA okB okStaged) s = .next s) ∧
      (s.fab.bootStopped = false → s.fab.marching = false → s.pwr.released = true →
        (∀ (w u : State) (k : Option Nat), s.sec.life ≠ 4 → s.img.bootWait = false → bootsel.val < 2 →
          w = (((s.setReg Reg.IMG_BOOT (wd bootsel.val)).probeFlash.retireTrial 1).retireTrial 2) →
          State.trySlots (fun src => if src = 1 then okA else okB) (w.candidates (if bootsel.val = 0 then [1, 2] else [2, 1])) w = (k, u) →
          exec (.boot bootsel okA okB okStaged) s = .next (match k with
            | some src => u.booted bootsel.val (src - 1)
            | none => u.bootAlert.waitImage)) ∧
        (s.sec.life = 4 → Completes (.boot bootsel okA okB okStaged) s fun t => t.pin.alert = true ∧ t.gv = s.gv ∧ t.img = s.img ∧ SameMemory s t) ∧
        (∀ u : State, s.sec.life ≠ 4 → s.img.bootWait = true → (s.setReg Reg.IMG_BOOT (wd bootsel.val)).tryImage 0 okStaged = (false, u) →
          exec (.boot bootsel okA okB okStaged) s = .next u) ∧
        (∀ u : State, s.sec.life ≠ 4 → s.img.bootWait = true → (s.setReg Reg.IMG_BOOT (wd bootsel.val)).tryImage 0 okStaged = (true, u) →
          Completes (.boot bootsel okA okB okStaged) s fun t => t.img.bootWait = false ∧ SameMemory u t ∧
            t.reg Reg.IMG_BOOT = wd (bootsel.val + 4 * (if s.img.got.isEmpty then 2 else 3))) ∧
        (s.sec.life ≠ 4 → s.img.bootWait = false → 2 ≤ bootsel.val → Completes (.boot bootsel okA okB okStaged) s fun t => t.img.bootWait = true ∧
          t.reg Reg.XSPI_SLOTB = wd Config.flashHalf ∧ t.reg Reg.IMG_STGBASE = 0x10000000 ∧ t.reg Reg.IMG_STGLEN = 0x02000000 ∧ t.reg Reg.IMG_STGCTL = 1 ∧ t.gv = s.gv ∧ SameMemory s t) ∧
        (s.sec.life ≠ 4 → s.img.bootWait = false → bootsel.val < 2 → s.flashByte (recordAt 1 0) = 0x0F → s.flashByte (recordAt 2 0) = 0x0F →
          Completes (.boot bootsel okA okB okStaged) s fun t => t.pin.alert = true ∧ t.img.bootWait = true ∧ t.gv = s.gv ∧ SameMemory s t) ∧
        (∀ (r : Bool) (u : State), s.sec.life ≠ 4 → s.img.bootWait = false → bootsel.val = 0 → s.flashByte (recordAt 1 0) = 0x3F →
          s.flashByte (recordAt 2 0) = 0x3F → (s.setReg Reg.IMG_BOOT (wd bootsel.val)).probeFlash.tryImage 1 okA = (r, u) →
          Completes (.boot bootsel okA okB okStaged) s fun t => r = true → t.reg Reg.IMG_BOOT = 0 ∧ t.img.bootWait = false ∧
            ((u.core 0).run = .held → u.bit (wdgCtrl 0) 0 = false → (t.core 0).run = .run ∧
              (t.core 0).pc = (u.reg (Reg.CLK_GVxSTART 0)).toNat / 4 * 4) ∧ t.bit Reg.CLK_GVCTL 0 = false ∧ SameMemory u t)))

/-- TEMP_CONVERSION, SUPPLY_SAMPLE, ADC_CONVERSION and AUTO_BRIGHTNESS (R429 to R432). The readings go to their registers and the highest of eight to MGT_TMAX; reaching a
threshold, a supply outside its limits or a result outside its own sets the warning once per excursion; the ADC result is the mean of the last 2^AVG conversions,
rounded half up; the brightness unit acts at 0:0 of sub-frame 0, filters its channel and requests a commit of QDLOUT.
MAIL, MGT_MBINREL, MGT_MBSEND, MAIL_SENT and MGT_HSNAP (R434 to R436). A message takes the lowest free slot, and waits with none free; a release empties the slots named; a
message for the host is offered as an in-band interrupt, one too long for its hop frees its slot with MBERR; a slot sent is free with MBOUT, and one that is still busy is not sent again; the snapshot copies its words. -/
def Obligations.SensorsAndMail : Prop :=
  (∀ (s : State),
    (∀ (temps : List (BitVec 16)) (top : Int), temps.length = 8 → (∀ v ∈ temps, v.toInt ≤ top) → (∃ v ∈ temps, v.toInt = top) →
      Completes (.tempConversion temps) s fun t => (∀ k v, temps[k]? = some v → t.reg (Reg.MGT_TEMPk k) = wd v.toNat) ∧ sext 16 (t.f Reg.MGT_TMAX 15 0) = top ∧
        (s.mgt.warn = false → sext 16 (s.f Reg.MGT_TWARN 15 0) ≤ top → t.bit Reg.MGT_STAT 0 = true ∧ t.mgt.warn = true) ∧
        (s.mgt.warn = true → t.bit Reg.MGT_STAT 0 = s.bit Reg.MGT_STAT 0 ∧ (t.mgt.warn = true ↔ sext 16 (s.f Reg.MGT_TWARN 15 0) - 32 < top)) ∧
        (s.mgt.crit = false → sext 16 (s.f Reg.MGT_TCRIT 15 0) ≤ top → t.bit Reg.MGT_STAT 1 = true ∧ t.mgt.crit = true) ∧ SameMemory s t) ∧
    (∀ mv : List (BitVec 13), mv.length = 6 → Completes (.supplySample mv) s fun t => (∀ k v, mv[k]? = some v → t.reg (Reg.MGT_VMONk k) = wd v.toNat ∧
        (s.f (Reg.MGT_VLIMk k) 28 16 ≠ 0 → v.toNat < s.f (Reg.MGT_VLIMk k) 12 0 ∨ s.f (Reg.MGT_VLIMk k) 28 16 < v.toNat → s.mgt.vout.contains k = false →
          t.bit Reg.MGT_STAT 2 = true ∧ k ∈ t.mgt.vout)) ∧
        ((∀ k v, mv[k]? = some v → s.f (Reg.MGT_VLIMk k) 28 16 = 0 ∨ (s.f (Reg.MGT_VLIMk k) 12 0 ≤ v.toNat ∧ v.toNat ≤ s.f (Reg.MGT_VLIMk k) 28 16)) →
          t.bit Reg.MGT_STAT 2 = s.bit Reg.MGT_STAT 2) ∧ SameMemory s t) ∧
    (∀ code : BitVec 12, s.bit Reg.MGT_ADCCTL 0 = false → exec (.adcConversion code) s = .next s) ∧
    (∀ (code : BitVec 12) (e c : Nat) (old new : List Nat), s.bit Reg.MGT_ADCCTL 0 = true → e = s.mgt.entry % (s.f Reg.MGT_ADCCTL 3 1 + 1) →
      c = s.f Reg.MGT_ADCSEQ (4 * e + 2) (4 * e) → (s.mgt.hist.find? fun h => decide (h.1 = c)) = none ∧ old = [] ∨ s.mgt.hist.find? (fun h => decide (h.1 = c)) = some (c, old) →
      new = (code.toNat :: old).take (2 ^ min 8 (s.f Reg.MGT_ADCCTL 7 4)) → Completes (.adcConversion code) s fun t =>
        (∀ r, r = (2 * new.sum + new.length) / (2 * new.length) → t.reg (Reg.MGT_ADCRESc c) = wd r ∧ (s.f (Reg.MGT_ADCTHRc c) 27 16 ≠ 0 →
          r < s.f (Reg.MGT_ADCTHRc c) 11 0 ∨ s.f (Reg.MGT_ADCTHRc c) 27 16 < r → s.mgt.aout.contains c = false → t.bit Reg.MGT_STAT 3 = true)) ∧ t.mgt.entry = (e + 1) % (s.f Reg.MGT_ADCCTL 3 1 + 1) ∧
        (t.mgt.hist.find? fun h => decide (h.1 = c)) = some (c, new) ∧ SameMemory s t) ∧
    (s.bit Reg.MGT_ABCTL 0 = false ∨ s.running = false ∨ s.beam.pos ≠ ⟨0, 0, 0⟩ → exec .autoBrightness s = .next s) ∧
    (s.bit Reg.MGT_ABCTL 0 = true → s.running = true → s.beam.pos = ⟨0, 0, 0⟩ → Completes .autoBrightness s fun t =>
      (t.mgt.f : Int) = (s.mgt.f + asr ((s.f (Reg.MGT_ADCRESc (s.f Reg.MGT_ABCTL 3 1)) 11 0 : Int) * 16 - s.mgt.f) (s.f Reg.MGT_ABCTL 7 4)) % 65536 ∧
      (t.mgt.f, t.mgt.prev) = s.abStep ∧ t.bit Reg.COT_PENDING 0 = true ∧ fld (t.shd Reg.QDL_BRIGHT) 15 0 = t.mgt.prev ∧ t.reg Reg.MGT_ABOUT = wd t.mgt.prev ∧
      (∀ c, (∀ i, i ≤ 16 → s.f (Reg.MGT_ABCURVEi i) 15 0 = c) → s.f Reg.MGT_ABCTL 31 16 = 0 →
        (sext 16 (s.f Reg.MGT_TMAX 15 0) ≤ sext 16 (s.f Reg.MGT_ABDER 15 0) → t.mgt.prev = c) ∧
        (sext 16 (s.f Reg.MGT_ABDER 15 0) < sext 16 (s.f Reg.MGT_TMAX 15 0) → sext 16 (s.f Reg.MGT_ABDER 31 16) ≤ sext 16 (s.f Reg.MGT_TMAX 15 0) →
          s.f Reg.MGT_ABDERMIN 15 0 ≤ 32768 → t.mgt.prev = (c * s.f Reg.MGT_ABDERMIN 15 0 + 16384) / 32768)) ∧
      SameRegsBut (fun a => a = Reg.COT_PENDING ∨ a = Reg.MGT_ABOUT) s t ∧ SameMemory s t)) ∧
  (∀ (m : Acc) (s : State),
    (∀ (h : Hop) (ok : Bool) (f : Frame), s.frozen = false → f.type ≠ 4 ∨ f.sub ≠ 3 → exec (.mail h ok f) s = .next s) ∧
    (∀ (h : Hop) (ok : Bool) (f : Frame) (u : State), s.frozen = false → f.type = 4 → f.sub = 3 →
      (s.arrives h ok f = (false, u) → exec (.mail h ok f) s = .next u) ∧
      (s.arrives h ok f = (true, u) → u.freeInbound = none → exec (.mail h ok f) s = .next s) ∧
      (∀ k, s.arrives h ok f = (true, u) → u.freeInbound = some k → Completes (.mail h ok f) s fun t => t.bit Reg.MGT_MBINSTAT k = true ∧
        t.bit Reg.MGT_STAT 4 = true ∧ t.reg (Reg.MGT_MBINSRCs k) = wd f.src ∧
        (∀ j, j < 512 → 4 * j + 4 ≤ f.data.length → t.reg (Reg.MGT_MBINs k j) = leWord ((f.data.drop (4 * j)).take 4)) ∧ SameMemory u t)) ∧
    (m.debug = false → s.targetOff Reg.MGT_MBINREL = true → ∀ v : Word, ∀ c ∈ [Instr.mgtMbinrel m v, .mgtMbsend m v, .mgtHsnap m v], Completes c s fun t =>
      t.answer = ⟨6, 0⟩ ∧ t.mgt = s.mgt ∧ t.hi3c = s.hi3c ∧ SameMemory s t) ∧
    (m.debug = false → m.alle = false → s.targetOff Reg.MGT_MBINREL = false → ∀ v : Word, ∀ c ∈ [Instr.mgtMbinrel m v, .mgtMbsend m v, .mgtHsnap m v],
      Completes c s fun t => t.answer = ⟨3, 0⟩ ∧ t.mgt = s.mgt ∧ t.hi3c = s.hi3c ∧ SameMemory s t) ∧
    (m.debug = false → m.alle = true → s.targetOff Reg.MGT_MBINREL = false →
      (∀ v : Word, exec (.mgtMbsend m v) s = .next ((s.mbSend v).reply 0 0) ∧ (bitAt v 0 = false → exec (.mgtHsnap m v) s = .next (s.reply 0 0))) ∧
      (∀ v : Word, Completes (.mgtMbinrel m v) s fun t => t.reg Reg.MGT_MBINSTAT = (s.reg Reg.MGT_MBINSTAT &&& ~~~v) ∧
        (s.f Reg.MGT_MBINSTAT 3 0 &&& fld v 3 0 = 0 → t.hi3c = s.hi3c) ∧
        (s.f Reg.MGT_MBINSTAT 3 0 &&& fld v 3 0 ≠ 0 → t.hi3c.ibis = s.hi3c.ibis ++ [(0, [2, 15 - t.f Reg.MGT_MBINSTAT 3 0])]) ∧ SameRegsBut (fun a => a = Reg.MGT_MBINSTAT) s t ∧ SameMemory s t) ∧
      (∀ (v : Word) (k : Nat), k < 4 → (∀ j, j < 4 → bitAt v j = decide (j = k)) → s.bit Reg.MGT_MBOUTSTAT k = true → exec (.mgtMbsend m v) s = .next (s.reply 0 0)) ∧
      (∀ (v : Word) (k : Nat), k < 4 → (∀ j, j < 4 → bitAt v j = decide (j = k)) → s.bit Reg.MGT_MBOUTSTAT k = false →
        (s.bit (Reg.MGT_MBOUTs_DST k) 14 = true → Completes (.mgtMbsend m v) s fun t => t.bit Reg.MGT_MBOUTSTAT k = true ∧
          t.hi3c.ibis = s.hi3c.ibis ++ [(0, [1, k])] ∧ SameRegsBut (fun a => a = Reg.MGT_MBOUTSTAT) s t ∧ SameMemory s t) ∧
        (s.bit (Reg.MGT_MBOUTs_DST k) 14 = false → s.mailMaxpay (s.f (Reg.MGT_MBOUTs_DST k) 13 0) < fld (s.reg (Reg.MGT_MBOUTs k 0)) 31 16 + 16 →
          Completes (.mgtMbsend m v) s fun t => t.bit Reg.MGT_MBOUTSTAT k = false ∧ t.bit Reg.MGT_STAT 6 = true ∧ t.link = s.link ∧ SameMemory s t) ∧
        (s.bit (Reg.MGT_MBOUTs_DST k) 14 = false → fld (s.reg (Reg.MGT_MBOUTs k 0)) 31 16 + 16 ≤ s.mailMaxpay (s.f (Reg.MGT_MBOUTs_DST k) 13 0) →
          Completes (.mgtMbsend m v) s fun t => t.bit Reg.MGT_MBOUTSTAT k = true)) ∧
      (∀ v : Word, bitAt v 0 = true → Completes (.mgtHsnap m v) s fun t => t.reg (Reg.MGT_HSw 0) = s.reg Reg.EVR_SECS ∧ t.reg (Reg.MGT_HSw 1) = wd s.beam.frame ∧
        t.reg (Reg.MGT_HSw 2) = s.reg Reg.BEAM_LOCKSTAT ∧ t.reg (Reg.MGT_HSw 3) = s.reg Reg.BEAM_PHERR ∧ t.reg (Reg.MGT_HSw 4) = s.reg Reg.QDL_SWAPS ∧
        t.reg (Reg.MGT_HSw 6) = s.reg Reg.SIG_PAVSTAT ∧ t.reg (Reg.MGT_HSw 13) = s.reg Reg.EVR_OPSEQ ∧ t.reg (Reg.MGT_HSw 15) = s.reg Reg.IMG_ACTVER ∧
        (∀ a, a < Reg.MGT_HSw 0 ∨ Reg.MGT_HSw 16 ≤ a → t.reg a = s.reg a) ∧ SameMemory s t)) ∧
    (∀ k : Fin 4, (s.bit Reg.MGT_MBOUTSTAT k.val = false → exec (.mailSent k) s = .next s) ∧
      (s.bit Reg.MGT_MBOUTSTAT k.val = true → Completes (.mailSent k) s fun t => t.bit Reg.MGT_MBOUTSTAT k.val = false ∧ t.bit Reg.MGT_STAT 5 = true ∧ SameMemory s t)))

/-- EVENT_STORE, RATE_LIMIT_TICK, EVR_TIME_WRITE, EVR_CURCTL, EVR_WINDOW_LATCH, EVR_WIN7_READ and EVR_LOG_GO (R437 to R445). The oldest event becomes a record of its class
with the class's sequence number; one that finds no slot is dropped, one without a token is counted and summed up after a tick; the first time write of the Allemande
sets the time; GO seeks the record at or after CURSEQ, a read of WIN7 the one after the window's; a software code below 0x400 logs nothing; an event that
meets 32 waiting is lost and counted, and a loss is logged once an entry is free. -/
def Obligations.EventRecorder : Prop :=
  ∀ (m : Acc) (s : State),
    (s.evr.queue = [] → exec .eventStore s = .next s) ∧
    (∀ (e : Ev) (rest : List Ev), s.evr.queue = e :: rest →
      (s.evr.lost ≠ 0 → rest.length < 32 → Completes .eventStore s fun t => t.evr.lost = 0 ∧ ∃ e', e'.code = 3 ∧ t.evr.queue = rest ++ [e']) ∧
      (s.evr.lost ≠ 0 → rest.length < 32 → ∀ u : State,
        u = ({ s with evr := { s.evr with queue := rest, lost := 0 } } : State).logEvent 3 0 (wd (s.f Reg.EVR_DROPS 31 16)) 0 0 →
        exec .eventStore s = exec .eventStore { u with evr := { u.evr with queue := e :: u.evr.queue } }) ∧
      (s.evr.lost = 0 → isSecCode e.code = true → ∀ j, j = (if s.evr.secNext < 256 then s.evr.secNext else 256 + s.evr.secNext % 256) →
        Completes .eventStore s fun t => t.evr.queue = rest ∧ t.evr.secNext = s.evr.secNext + 1 ∧ t.reg Reg.EVR_SSEQ = s.reg Reg.EVR_SSEQ + 1 ∧
          t.word (secBase + 32 * j) = e.secs ∧ t.word (secBase + 32 * j + 12) = s.reg Reg.EVR_SSEQ ∧ t.word (secBase + 32 * j + 16) = e.arg0 ∧
          t.word (secBase + 32 * j + 20) = e.arg1 ∧ (∀ a, a < secBase + 32 * j ∨ secBase + 32 * j + 32 ≤ a → t.byte a = s.byte a)) ∧
      (s.evr.lost = 0 → isSecCode e.code = false →
        (∀ i, s.f Reg.EVR_RL 31 16 = 0 ∨ s.tokens e.code ≠ 0 → s.opSlot e.sev = some i → Completes .eventStore s fun t => t.evr.queue = rest ∧
          t.reg Reg.EVR_OPSEQ = s.reg Reg.EVR_OPSEQ + 1 ∧ (s.f Reg.EVR_RL 31 16 ≠ 0 → t.tokens e.code = s.tokens e.code - 1) ∧
          t.word (opBase + 32 * i) = e.secs ∧ t.word (opBase + 32 * i + 12) = s.reg Reg.EVR_OPSEQ ∧ t.word (opBase + 32 * i + 16) = e.arg0 ∧
          t.word (opBase + 32 * i + 20) = e.arg1 ∧ (∀ a, a < opBase + 32 * i ∨ opBase + 32 * i + 32 ≤ a → t.byte a = s.byte a)) ∧
        (s.f Reg.EVR_RL 31 16 = 0 ∨ s.tokens e.code ≠ 0 → s.opSlot e.sev = none → Completes .eventStore s fun t => t.evr.queue = rest ∧
          t.reg Reg.EVR_OPSEQ = s.reg Reg.EVR_OPSEQ ∧ t.f Reg.EVR_DROPS 15 0 = sat 65535 (s.f Reg.EVR_DROPS 15 0 + 1) ∧ t.bit Reg.EVR_STAT 1 = true ∧ SameMemory s t) ∧
        (s.f Reg.EVR_RL 31 16 ≠ 0 → s.tokens e.code = 0 → Completes .eventStore s fun t => t.evr.queue = rest ∧ t.regs = s.regs ∧ SameMemory s t ∧
          ∃ x ∈ t.evr.supp, x.code = e.code ∧ x.inst = e.arg0 ∧ x.last = e.secs ∧ 1 ≤ x.count))) ∧
    (s.f Reg.EVR_RL 31 16 = 0 → exec .rateLimitTick s = .next s) ∧
    (s.f Reg.EVR_RL 31 16 ≠ 0 →
      (∀ u : State, u = s.evr.tokens.foldl (fun t e => t.setTokens e.1 (e.2 + 1)) s → exec .rateLimitTick s = .next ((u.evr.supp.foldl (fun l x => insertSupp x l)
        []).foldl (fun t x => t.summarise x) u)) ∧
      (s.evr.supp = [] → Completes .rateLimitTick s fun t => (∀ c n, s.evr.tokens = [(c, n)] → t.tokens c = min s.burst (n + 1)) ∧ t.regs = s.regs ∧ SameMemory s t) ∧
      (∀ (x : Supp) (i : Nat), s.evr.supp = [x] → s.evr.tokens = [(x.code, 0)] → s.opSlot x.sev = some i → Completes .rateLimitTick s fun t => t.evr.supp = [] ∧
        t.reg Reg.EVR_OPSEQ = s.reg Reg.EVR_OPSEQ + 1 ∧ t.word (opBase + 32 * i + 16) = x.inst ∧ t.word (opBase + 32 * i + 20) = wd x.count ∧
        t.word (opBase + 32 * i + 24) = x.first ∧ t.word (opBase + 32 * i + 28) = x.last ∧ bitAt (t.word (opBase + 32 * i + 4)) 27 = true)) ∧
    (m.debug = false → s.targetOff Reg.EVR_SECS = false →
      (∀ v : Word, (m.alle = true → s.evr.secsSet = false → Completes (.evrTimeWrite m false v) s fun t => t.reg Reg.EVR_SECS = v ∧ t.evr.secsSet = true ∧
          t.bit Reg.EVR_STAT 3 = true ∧ SameRegsBut (fun a => a = Reg.EVR_SECS ∨ a = Reg.EVR_STAT) s t ∧ SameMemory s t) ∧
        (m.alle = true → s.evr.pcycSet = false → Completes (.evrTimeWrite m true v) s fun t => t.reg Reg.EVR_PCYC = v &&& 0xFFFFFF ∧ t.evr.pcycSet = true ∧
          t.bit Reg.EVR_STAT 3 = true ∧ SameRegsBut (fun a => a = Reg.EVR_PCYC ∨ a = Reg.EVR_STAT) s t ∧ SameMemory s t) ∧
        (m.alle = false ∨ s.evr.secsSet = true → exec (.evrTimeWrite m false v) s = .next (s.reply 0 0)) ∧
        (m.alle = false ∨ s.evr.pcycSet = true → exec (.evrTimeWrite m true v) s = .next (s.reply 0 0)) ∧
        (bitAt v 1 = false → exec (.evrCurctl m v) s = .next (s.reply 0 0)) ∧
        (bitAt v 1 = true → bitAt v 0 = false ∨ m.sec = true → Completes (.evrCurctl m v) s fun t => t.evr.seek = some (fld v 0 0, s.reg Reg.EVR_CURSEQ) ∧
          t.reg Reg.EVR_WSTAT = wd (2 + 4 * fld v 0 0) ∧ SameRegsBut (fun a => a = Reg.EVR_WSTAT) s t ∧ SameMemory s t) ∧
        (bitAt v 1 = true → bitAt v 0 = true → m.sec = false → Completes (.evrCurctl m v) s fun t => t.answer = ⟨3, 0⟩ ∧ t.evr.seek = s.evr.seek) ∧
        (∀ n : Fin 3, ¬ MayWrite m (Reg.EVR_LOGt_GO n.val) v → Completes (.evrLogGo m n v) s fun t => t.answer = ⟨3, 0⟩ ∧ SameMemory s t) ∧
        (∀ n : Fin 3, MayWrite m (Reg.EVR_LOGt_GO n.val) v →
          (0x400 ≤ fld v 10 0 → 32 ≤ s.evr.queue.length → Completes (.evrLogGo m n v) s fun t => t.evr = { s.evr with lost := s.evr.lost + 1 } ∧
            t.bit Reg.EVR_STAT 0 = true ∧ t.f Reg.EVR_DROPS 31 16 = sat 65535 (s.f Reg.EVR_DROPS 31 16 + 1) ∧ SameMemory s t) ∧
          (fld v 10 0 < 0x400 → Completes (.evrLogGo m n v) s fun t => t.bit Reg.EVR_STAT 2 = true ∧ t.evr.queue = s.evr.queue ∧ SameMemory s t) ∧
          (0x400 ≤ fld v 10 0 → s.evr.queue.length < 32 → Completes (.evrLogGo m n v) s fun t => t.regs = s.regs ∧ SameMemory s t ∧
            ∃ e, t.evr.queue = s.evr.queue ++ [e] ∧ e.code = fld v 10 0 ∧ e.sev = fld v 13 12 ∧ e.arg0 = s.reg (Reg.EVR_LOGt_Aa n.val 0) ∧
              e.arg1 = s.reg (Reg.EVR_LOGt_Aa n.val 1) ∧ e.arg2 = s.reg (Reg.EVR_LOGt_Aa n.val 2) ∧ e.arg3 = s.reg (Reg.EVR_LOGt_Aa n.val 3)))) ∧
      (s.bit Reg.EVR_WSTAT 0 = true → Completes (.evrWin7Read m) s fun t => t.answer = ⟨0, s.reg (Reg.EVR_WINw 7)⟩ ∧
        t.evr.seek = some (s.f Reg.EVR_WSTAT 2 2, s.reg (Reg.EVR_WINw 3) + 1) ∧ t.reg Reg.EVR_WSTAT = wd (2 + 4 * s.f Reg.EVR_WSTAT 2 2) ∧
        SameRegsBut (fun a => a = Reg.EVR_WSTAT) s t ∧ SameMemory s t) ∧
      (s.bit Reg.EVR_WSTAT 0 = false → exec (.evrWin7Read m) s = .next (s.reply 0 (s.reg (Reg.EVR_WINw 7))))) ∧
    (s.evr.seek = none → exec .evrWindowLatch s = .next s) ∧
    (∀ (cls : Nat) (seq : Word), s.evr.seek = some (cls, seq) →
      (s.seekRecord cls seq = none → Completes .evrWindowLatch s fun t => t.reg Reg.EVR_WSTAT = wd (4 * cls) ∧ t.evr.seek = none ∧ SameMemory s t) ∧
      (∀ r, s.seekRecord cls seq = some r → Completes .evrWindowLatch s fun t => t.reg Reg.EVR_WSTAT = wd (1 + 4 * cls) ∧ t.evr.seek = none ∧
        (∀ w, w < 8 → t.reg (Reg.EVR_WINw w) = s.word ((if cls = 1 then secBase else opBase) + 32 * r.slot + 4 * w)) ∧ SameMemory s t))

/-- LCADV, OWNKEY, REVOKE, DBGKEY, SVNSET, FLEETLOAD, FLEETZERO, DBGDROP, SEC_COMMAND_DONE, TAMPER_EVENT and SEC_TCLR (R86, R451, R453 to R455, R458 to R460). Only the Allemande in
its secure state reaches SEC_CMD; a command is refused while one runs or where its rule forbids it, else it begins, and its completion programs what it names and sets
the done bit; a transition wipes secure SRAM and drops the debug grant; a tamper event of an input that is
enabled and not latched wipes it too, by its configured action. -/
def Obligations.SecurityCommands : Prop :=
  ∀ (m : Acc) (s : State) (arg src : Nat) (cmds : List (Nat × Instr)), arg = (s.reg Reg.SEC_ARG).toNat → src = (s.reg Reg.SEC_SRC).toNat →
    cmds = [(1, .lcadv m), (2, .ownkey m), (3, .revoke m), (4, .dbgkey m), (5, .svnset m), (6, .fleetload m), (7, .fleetzero m), (8, .dbgdrop m)] →
    (m.debug = false → s.targetOff Reg.SEC_CMD = true → ∀ e ∈ cmds, Completes e.2 s fun t => t.answer = ⟨6, 0⟩ ∧ t.sec = s.sec ∧ SameMemory s t) ∧
    (∀ v : Word, m.debug = false → m.sec = false → s.targetOff Reg.SEC_CMD = false → Completes (.secTclr m v) s fun t => t.answer = ⟨3, 0⟩ ∧ t.sec = s.sec ∧
      SameMemory s t) ∧
    (m.debug = false → m.sec = false → s.targetOff Reg.SEC_CMD = false → ∀ e ∈ cmds, Completes e.2 s fun t => t.answer = ⟨3, 0⟩ ∧ t.sec = s.sec ∧ SameMemory s t) ∧
    (m.sec = true → s.targetOff Reg.SEC_CMD = false →
      (∀ e ∈ cmds, s.sec.cmd = none → s.secAllowed e.1 = true → e.1 ≤ 6 → exec e.2 s =
        .next (({ s with sec := { s.sec with cmd := some (e.1, arg) } } : State).reply 0 0)) ∧
      (∀ e ∈ cmds, s.sec.cmd ≠ none ∨ s.secAllowed e.1 = false → Completes e.2 s fun t => t.bit Reg.SEC_STAT 4 = true ∧ t.sec = s.sec ∧ SameMemory s t) ∧
      (s.sec.cmd = none → ∀ u : State, u = { s with sec := { s.sec with cmd := some (1, arg) } } →
        (s.sec.life = 1 → arg % 8 = 2 → exec (.lcadv m) s = .next (u.reply 0 0)) ∧
        (s.sec.life = 0 → arg % 8 = 4 → exec (.lcadv m) s = .next (u.reply 0 0)) ∧
        (s.sec.life = 2 → arg % 8 ≤ 2 → Completes (.lcadv m) s fun t => t.bit Reg.SEC_STAT 4 = true ∧ t.sec = s.sec)) ∧
      (s.sec.cmd = none →
        (s.sec.tlock = false → s.sec.life ≤ 1 → arg < 4 → inSecure src 96 = true → Completes (.ownkey m) s fun t => t.sec = { s.sec with cmd := some (2, arg) } ∧ t.regs = s.regs) ∧
        (s.sec.tlock = false → arg < 4 → (∀ k v, s.sec.signed = some (k, v) → k ≠ arg) → Completes (.revoke m) s fun t =>
          t.sec = { s.sec with cmd := some (3, arg) } ∧ t.regs = s.regs) ∧
        (∀ v, s.sec.signed = some (arg, v) → Completes (.revoke m) s fun t => t.bit Reg.SEC_STAT 4 = true ∧ t.sec = s.sec) ∧
        (s.sec.life = 0 → inSecure src 96 = true → Completes (.dbgkey m) s fun t => t.sec = { s.sec with cmd := some (4, arg) } ∧ t.regs = s.regs) ∧
        (∀ k v, s.sec.signed = some (k, v) → arg ≤ v → arg ≤ 255 → Completes (.svnset m) s fun t => t.sec = { s.sec with cmd := some (5, arg) } ∧ t.regs = s.regs) ∧
        (255 < arg → Completes (.svnset m) s fun t => t.bit Reg.SEC_STAT 4 = true ∧ t.sec = s.sec) ∧
        (s.sec.tlock = false → 1 ≤ arg % 8 → arg % 8 ≤ 4 → Completes (.fleetload m) s fun t => t.sec = { s.sec with cmd := some (6, arg) } ∧ t.regs = s.regs) ∧
        (1 ≤ arg % 8 → arg % 8 ≤ 4 → Completes (.fleetzero m) s fun t => t.sec = { s.sec with fleet := s.sec.fleet.erase (arg % 8) } ∧ t.bit Reg.SEC_STAT 9 = true ∧
          SameMemory s t) ∧
        Completes (.dbgdrop m) s (fun t => t.sec.level = 0 ∧ t.bit Reg.SEC_STAT 9 = true ∧ SameMemory s t)) ∧
      (∀ v : Word, (v = 0xA55A → s.sec.bootPassed = true → exec (.secTclr m v) s = .next (({ s with sec := { s.sec with tlock := false } } : State).reply 0 0)) ∧
        (v ≠ 0xA55A ∨ s.sec.bootPassed = false → exec (.secTclr m v) s = .next (s.reply 0 0)))) ∧
    (∀ ok : Bool, s.sec.cmd = none → exec (.secCommandDone ok) s = .next s) ∧
    (∀ (op a : Nat), s.sec.cmd = some (op, a) → Completes (.secCommandDone false) s fun t => t.bit Reg.SEC_STAT (if op = 6 then 3 else 8) = true ∧
      t.bit Reg.SEC_STAT 9 = true ∧ t.sec = { s.sec with cmd := none } ∧ SameMemory s t) ∧
    (∀ (op a key : Nat), s.sec.cmd = some (op, a) → key = s.le src 96 →
      (op = 1 → a % 8 < 3 → Completes (.secCommandDone true) s fun t =>
        t.sec.life = a % 8 ∧ t.sec.level = 0 ∧ t.sec.fleet = [] ∧ t.sec.token = none ∧ t.fab.wiping = true ∧ t.evr.sec = [] ∧ t.evr.secNext = 0 ∧
        t.bit Reg.SEC_STAT 7 = true ∧ t.bit Reg.SEC_STAT 9 = true ∧ (∀ k, 0x30000000 ≤ k → k < 0x30040000 → t.byte k = 0)) ∧
      (op = 1 → 3 ≤ a % 8 → Completes (.secCommandDone true) s fun t =>
        t.sec.life = a % 8 ∧ t.sec.level = 0 ∧ t.bit Reg.CLK_RSTCAUSE 3 = true ∧ t.running = false ∧ (∀ k, 0x30000000 ≤ k → k < 0x30040000 → t.byte k = 0)) ∧
      (op = 2 → Completes (.secCommandDone true) s fun t => (s.sec.owner[a]? = some none → t.sec.owner[a]? = some (some key)) ∧
        (∀ k, s.sec.owner[a]? = some (some k) → t.sec.owner[a]? = some (some (k ||| key))) ∧ t.bit Reg.SEC_STAT 9 = true ∧
        t.sec.life = s.sec.life ∧ SameMemory s t) ∧
      (op = 3 → Completes (.secCommandDone true) s fun t => a ∈ t.sec.revoked ∧ t.sec.owner = s.sec.owner ∧ t.bit Reg.SEC_STAT 9 = true ∧ SameMemory s t) ∧
      (op = 4 → Completes (.secCommandDone true) s fun t => (s.sec.dbgKey = none → t.sec.dbgKey = some key) ∧
        (∀ k, s.sec.dbgKey = some k → t.sec.dbgKey = some (k ||| key)) ∧ t.bit Reg.SEC_STAT 9 = true ∧ SameMemory s t) ∧
      (op = 5 → Completes (.secCommandDone true) s fun t => t.sec.svn = max s.sec.svn a ∧ t.bit Reg.SEC_STAT 9 = true ∧ SameMemory s t) ∧
      (op = 6 → Completes (.secCommandDone true) s fun t => a % 8 ∈ t.sec.fleet ∧ t.bit Reg.SEC_STAT 9 = true ∧ SameMemory s t)) ∧
    (∀ in0 in1 : Bool, (in0 && s.tamperArmed 0) = false → (in1 && s.tamperArmed 1) = false → exec (.tamperEvent in0 in1) s = .next s) ∧
    (∀ in0 in1 : Bool, (in0 && s.tamperArmed 0) = true ∨ (in1 && s.tamperArmed 1) = true → Completes (.tamperEvent in0 in1) s fun t =>
      t.sec.level = 0 ∧ t.sec.fleet = [] ∧ t.fab.wiping = true ∧ (∀ k, 0x30000000 ≤ k → k < 0x30040000 → t.byte k = 0) ∧
      ((in0 && s.tamperArmed 0) = true → t.bit Reg.SEC_STAT 0 = true ∧ (2 ≤ s.f Reg.SEC_TCFG 3 2 → t.sec.tlock = true)) ∧
      ((in1 && s.tamperArmed 1) = true → t.bit Reg.SEC_STAT 1 = true ∧ (2 ≤ s.f Reg.SEC_TCFG 11 10 → t.sec.tlock = true)))

/-- DBG_CHAL, DBG_VERIFY, DBG_VERIFY_DONE, DEBUG_RESPONSE_TIMEOUT, DEBUG_LOCKOUT_END, DEBUG_READ, DEBUG_WRITE, DEBUG_CHAL, DEBUG_RESP and DEBUG_VERIFY (R461, R465, R467, R468,
Tables 19.1 and 20.2). BLANK grants levels 1 and 2 at once; elsewhere a challenge is issued unless locked out; a verified response grants its level, in DEPLOYED at
most that of the policy, and a failed one starts a lockout of 2^(n - 1) s; a request while one of its path runs is dropped; one of more than 252
words is answered BADOP, one off a word address SIZE, and the others with the words moved to the first error. -/
def Obligations.DebugAuthorisation : Prop :=
  ∀ (m : Acc) (s : State), m.debug = false →
    (s.targetOff Reg.DBG_AUTHCTL = true → ∀ level : Nat, ∀ c ∈ [Instr.dbgChal m level, .dbgVerify m], Completes c s fun t => t.answer = ⟨6, 0⟩ ∧
      t.sec = s.sec ∧ t.dbg = s.dbg ∧ SameMemory s t) ∧
    (∀ level, level < 256 → s.targetOff Reg.DBG_AUTHCTL = false →
      (s.sec.life = 0 → level ≠ 1 → level ≠ 2 → exec (.dbgChal m level) s = .next (s.reply 0 0)) ∧
      (s.sec.life = 0 → level = 1 ∨ level = 2 → Completes (.dbgChal m level) s fun t => t.sec.level = level ∧ t.sec.chal = s.sec.chal ∧ SameMemory s t) ∧
      (level = 1 ∨ level = 2 ∨ level = 0x80 ∨ level = 0x81 → s.sec.locked = false → 1 ≤ s.sec.life → s.sec.life ≤ 3 → Completes (.dbgChal m level) s fun t =>
        t.sec = { s.sec with chal := some (level, 0x8000) } ∧ t.bit Reg.DBG_AUTHSTAT 4 = true ∧ t.fresh = s.fresh + 1 ∧ SameMemory s t) ∧
      (s.sec.life ≠ 0 → s.sec.locked = true ∨ 3 < s.sec.life ∨ (level ≠ 1 ∧ level ≠ 2 ∧ level ≠ 0x80 ∧ level ≠ 0x81) →
        exec (.dbgChal m level) s = .next (s.reply 0 0))) ∧
    (s.targetOff Reg.DBG_AUTHCTL = false → s.sec.chal = none → Completes (.dbgVerify m) s fun t => t.bit Reg.DBG_AUTHSTAT 6 = true ∧ t.sec = s.sec ∧ t.dbg = s.dbg ∧ SameMemory s t) ∧
    (s.targetOff Reg.DBG_AUTHCTL = false → s.sec.chal ≠ none → Completes (.dbgVerify m) s fun t => t.dbg = { s.dbg with verify := s.dbg.verify ++ [none] } ∧ t.sec = s.sec ∧ t.regs = s.regs ∧ SameMemory s t) ∧
    (∀ ok : Bool, s.dbg.verify = [] → exec (.dbgVerifyDone ok) s = .next s) ∧
    (∀ (ok : Bool) (rest : List (Option (Nat × Nat × Option Nat))) (u : State), u = ({ s with dbg := { s.dbg with verify := rest } } : State).checkResponse ok →
      (s.dbg.verify = none :: rest → exec (.dbgVerifyDone ok) s = .next u) ∧
      (∀ (tag addr : Nat) (path : Option Nat), s.dbg.verify = some (tag, addr, path) :: rest → exec (.dbgVerifyDone ok) s = .next (u.debugAnswer path
        { tag := tag, status := 0, level := u.sec.level, count := 0, addr := addr, data := [] }))) ∧
    (∀ (rest : List (Option (Nat × Nat × Option Nat))) (l q : Nat), s.dbg.verify = none :: rest → s.sec.chal = some (l, q) →
      (l ≤ 2 → Completes (.dbgVerifyDone true) s fun t => t.sec.level = (if s.sec.life = 2 then min l (min 2 (s.f Reg.SEC_POLICY 1 0)) else l) ∧ t.sec.chal = none ∧
        t.sec.fails = 0 ∧ t.sec.locked = false ∧ t.bit Reg.DBG_AUTHSTAT 6 = false ∧ t.dbg.verify = rest ∧ SameMemory s t) ∧
      (2 < l → Completes (.dbgVerifyDone true) s fun t => t.sec.level = s.sec.level ∧ t.sec.chal = none ∧ t.sec.token = some (l, s.pwr.uptime) ∧ t.dbg.verify = rest ∧
        SameMemory s t) ∧
      Completes (.dbgVerifyDone false) s (fun t => t.sec.level = s.sec.level ∧ t.sec.chal = none ∧ t.sec.fails = s.sec.fails + 1 ∧ t.sec.locked = true ∧
        t.sec.lockUntil = s.pwr.uptime + min (2 ^ s.sec.fails) 1024 * 1000000 ∧ t.bit Reg.DBG_AUTHSTAT 6 = true ∧ t.bit Reg.SEC_STAT 6 = true ∧ SameMemory s t)) ∧
    (s.sec.chal = none ∨ s.dbg.verify ≠ [] → exec .debugResponseTimeout s = .next s) ∧
    (s.sec.chal ≠ none → s.dbg.verify = [] → Completes .debugResponseTimeout s fun t => t.sec.chal = none ∧ t.sec.fails = s.sec.fails + 1 ∧ t.sec.locked = true ∧
      t.bit Reg.DBG_AUTHSTAT 6 = true ∧ SameMemory s t) ∧
    Completes .debugLockoutEnd s (fun t => t.sec = { s.sec with locked := false } ∧ t.regs = s.regs ∧ SameMemory s t) ∧
    (∀ (h : Hop) (ok : Bool) (f : Frame), s.frozen = false → f.type ≠ 7 ∨ f.sub ≠ 0 →
      ∀ c ∈ [Instr.debugRead h ok f, .debugWrite h ok f, .debugChal h ok f, .debugResp h ok f, .debugVerify h ok f], exec c s = .next s) ∧
    (∀ (h : Hop) (ok : Bool) (f : Frame) (cmds : List (Nat × Instr)), s.frozen = false → f.type = 7 → f.sub = 0 →
      cmds = [(0, .debugRead h ok f), (1, .debugWrite h ok f), (2, .debugChal h ok f), (3, .debugResp h ok f), (4, .debugVerify h ok f)] →
      (∀ e ∈ cmds, f.le 4 1 ≠ e.1 → exec e.2 s = .next s) ∧
      (∀ e ∈ cmds, ∀ u, f.le 4 1 = e.1 → s.arrives h ok f = (false, u) → exec e.2 s = .next u) ∧
      (∀ e ∈ cmds, ∀ u, f.le 4 1 = e.1 → s.arrives h ok f = (true, u) → u.debugBusy (some f.src) = true → Completes e.2 s fun t => t.bit Reg.DBG_STAT 1 = true ∧
        t.link = u.link ∧ t.sec = u.sec ∧ SameMemory u t) ∧
      (∀ (u v : State) (w : Word), s.arrives h ok f = (true, u) → u.debugBusy (some f.src) = false →
        (f.le 4 1 = 0 → 252 < f.le 6 2 → exec (.debugRead h ok f) s = .next (u.debugAnswer (some f.src)
          { tag := f.le 0 4, status := 9, level := u.sec.level, count := 0, addr := f.le 8 4, data := [] })) ∧
        (∀ st : Nat, st = (if 252 < f.le 6 2 then 9 else 7) → 252 < f.le 6 2 ∨ f.le 8 4 % 4 ≠ 0 → ∀ t : State, t = u.debugAnswer (some f.src)
          { tag := f.le 0 4, status := st, level := u.sec.level, count := 0, addr := f.le 8 4, data := [] } →
          (f.le 4 1 = 0 → exec (.debugRead h ok f) s = .next t) ∧ (f.le 4 1 = 1 → exec (.debugWrite h ok f) s = .next t)) ∧
        (∀ (c : Nat) (ws : List Word), f.le 4 1 = 0 → f.le 6 2 ≤ 252 → f.le 8 4 % 4 = 0 → u.debugRead (f.le 6 2) (f.le 8 4) = (c, ws, v) →
          exec (.debugRead h ok f) s = .next (v.debugAnswer (some f.src)
            { tag := f.le 0 4, status := c, level := v.sec.level, count := ws.length, addr := f.le 8 4, data := ws })) ∧
        (∀ c n : Nat, f.le 4 1 = 1 → f.le 6 2 ≤ 252 → f.le 8 4 % 4 = 0 → u.debugWrite (payloadWords f.data 16 (f.le 6 2)) (f.le 8 4) = (c, n, v) →
          exec (.debugWrite h ok f) s = .next (v.debugAnswer (some f.src)
            { tag := f.le 0 4, status := c, level := v.sec.level, count := n, addr := f.le 8 4, data := [] })) ∧
        (f.le 4 1 = 0 → f.le 6 2 = 1 → f.le 8 4 % 4 = 0 → u.busRead32 debugAcc (f.le 8 4) = (0, w, v) → f.le 8 4 < 2 ^ 32 →
          exec (.debugRead h ok f) s = .next (v.debugAnswer (some f.src)
            { tag := f.le 0 4, status := 0, level := v.sec.level, count := 1, addr := f.le 8 4, data := [w] })) ∧
        (f.le 4 1 = 1 → f.le 6 2 = 1 → f.le 8 4 % 4 = 0 → w = leWord ((f.data.drop 16).take 4) → u.busWrite32 debugAcc (f.le 8 4) w = (0, v) → f.le 8 4 < 2 ^ 32 →
          exec (.debugWrite h ok f) s = .next (v.debugAnswer (some f.src)
            { tag := f.le 0 4, status := 0, level := v.sec.level, count := 1, addr := f.le 8 4, data := [] })) ∧
        (f.le 4 1 = 2 → u.chalRequest (f.le 5 1) f.src = (false, v) → exec (.debugChal h ok f) s = .next (v.debugAnswer (some f.src)
          { tag := f.le 0 4, status := 8, level := v.sec.level, count := 0, addr := f.le 8 4, data := [] })) ∧
        (f.le 4 1 = 2 → u.chalRequest (f.le 5 1) f.src = (true, v) → Completes (.debugChal h ok f) s fun t => t.sec = v.sec ∧ SameMemory v t) ∧
        (f.le 4 1 = 3 → Completes (.debugResp h ok f) s fun t => (∀ i, i < 24 → t.reg (Reg.DBG_RESPw i) = leWord ((f.data.drop (16 + 4 * i)).take 4)) ∧
          t.sec = u.sec ∧ SameMemory u t) ∧
        (f.le 4 1 = 4 → u.sec.chal ≠ none → exec (.debugVerify h ok f) s = .next { u with dbg := { u.dbg with
          verify := u.dbg.verify ++ [some (f.le 0 4, f.le 8 4, some f.src)] } }) ∧
        (f.le 4 1 = 4 → u.sec.chal = none → Completes (.debugVerify h ok f) s fun t => t.bit Reg.DBG_AUTHSTAT 6 = true ∧ t.sec = u.sec ∧ SameMemory u t)))

/-- DBG_HALT, DBG_RUN, DBG_REGDATA, DBG_LDATA, DBG_DRX_WRITE and DBG_TXFULL_ACK (R470, R472, R474 to R476). HALT asks a running core to halt and does nothing to a halted or held
one; RUN releases a core halted in stop mode, and the beam goes to HOLDOVER; REGDATA reaches the selected register of such a core only, and is denied at another
time; LDATA reaches the word of local SRAM at LADDR; the virtual terminal holds one word each way. While a core is halted in stop mode the commands of the frozen
blocks change nothing (R472). -/
def Obligations.DebugHalts : Prop :=
  (∀ (m : Acc) (c : Fin 3) (s : State), m.debug = false → s.targetOff Reg.DBG_AUTHCTL = true → ∀ (wr : Bool) (v : Word),
    ∀ i ∈ [Instr.dbgHalt m c, .dbgRun m c, .dbgRegdata m c wr v, .dbgLdata m c wr v, .dbgDrxWrite m c v, .dbgTxfullAck m c], Completes i s fun t =>
      t.answer = ⟨6, 0⟩ ∧ t.gv = s.gv ∧ SameMemory s t) ∧
  (∀ (s : State) (h : Hop) (lane sf4 n4 p4 : Fin 4) (sk : List (Fin 4)) (b66s : List (List (BitVec 66))) (b64 : BitVec 64) (b66 : List (BitVec 66))
    (p2 : Fin 2) (ok b1 b2 : Bool) (f : Frame) (g : Fin 10) (pos : BPos) (x1 sf x2 x3 : Nat)
    (rate t1 t2 t3 : Int) (n32 p32 c : Fin 32) (r16 : Fin 16) (peer : PairView) (an : Announce)
    (e : Fin 8) (u : Upset) (slot : Fin 12) (o48 : Fin 48) (i128 : Fin 128) (cv : Fin 20) (vc : Fin 64),
    s.frozen = true → ∀ i ∈ [Instr.censusSend, .laneBlockLock h lane, .trainingTimeout h, .trainingVersionAlternate h, .alignDone h sk, .keyRetry h, .lcbSend h b66s,
      .replayTimeout h, .lcb h b64 b66, .lcbMiss h, .pirouetteConfirm p2, .turnaround p2, .ringstate h ok f, .laneLost h lane,
      .laneCrcWindowEnd p2, .census h ok f, .sceneWrite h ok f, .sceneFill h ok f, .planeSegment h ok f, .commitGroupApply g, .beamStop,
      .frameStart sf4, .beamStep pos, .fsyncEdge b1 x1 rate, .beamMatch n4 sf, .triggerFire n32 sf x1, .blkJobStart, .blkBurst, .blkDeadEnd,
      .blkRowDone, .blkErrorStop, .lineConfirm, .signatureDecided r16, .substitutionDone r16, .structureSetSwap peer, .updateChunk h ok f,
      .sourceLost, .holdoverEntry, .fsyncLoss, .ptpAnnounce x2 an, .ptpSync x2 x3 t1 t2 x1 rate, .ptpDelayReq t3, .ptpDelayResp x2 x3 t1, .ptpLoss,
      .fsyncOutPulse sf, .fsyncOutEnd, .votecut sf, .beamMarkSend sf x1, .delayProbeSend h t1, .probe h ok f t2 t3, .voteSend pos, .voteDecision,
      .mail h ok f, .engineFrameEntry e, .engineOverrun e, .beamWord e u, .beamWordV1 e u, .ldReturn e, .queueStallEnd e, .beamStoreScrub u,
      .unitSend p32, .segmentFetch r16, .segmentLanded r16, .pnlCommandSend p32, .gridPoint, .scanRowStep e, .swapCommand, .storeExchange b1,
      .scanoutPrefetch p32 x1 x2, .planeSlot p32, .blankStart, .blankEnd, .rasterWrite, .lineStart, .lineComposed, .lateFenceDeadline slot,
      .laneCheckError lane, .laneErrorWindowEnd, .descriptorFetch c, .descriptorComplete c, .reelBeat p2 u, .reelBeatResponse c,
      .unitDelivered p32, .debugRead h ok f, .debugWrite h ok f, .debugChal h ok f, .debugResp h ok f, .debugVerify h ok f, .zcTimeout o48 i128,
      .objectUpdate, .soundBlock, .soundSamples h ok f, .asrcLock cv, .asrcUnlock cv, .tdmFsEdge p4 x1, .tdmLost p4, .frameForward h ok f,
      .ethernetFrame p2 b2 ok b1 x1 x2 x3 f, .voiceFetch vc u], exec i s = .next s) ∧
  (∀ (m : Acc) (c : Fin 3) (s : State), m.debug = false → s.targetOff Reg.DBG_AUTHCTL = false →
    ((s.core c.val).run = .run ∨ (s.core c.val).run = .wait → (s.core c.val).monitor = false → (s.core c.val).stopDue ≠ none → Completes (.dbgHalt m c) s fun t =>
      t.core c.val = s.core c.val ∧ t.f (Reg.DBG_Cc_STAT c.val) 1 0 = 1 ∧ SameMemory s t) ∧
    ((s.core c.val).run = .stopped → Completes (.dbgHalt m c) s fun t => t.gv = s.gv ∧ SameMemory s t) ∧
    ((s.core c.val).run = .run ∨ (s.core c.val).run = .wait → (s.core c.val).monitor = false → (s.core c.val).stopDue = none → Completes (.dbgHalt m c) s fun t =>
      t.core c.val = { s.core c.val with stopDue := some (1, 0) } ∧ t.f (Reg.DBG_Cc_STAT c.val) 1 0 = 1 ∧ (∀ d, d < 3 → d ≠ c.val → t.core d = s.core d) ∧ SameMemory s t) ∧
    ((s.core c.val).halted = true ∨ (s.core c.val).run = .held → Completes (.dbgHalt m c) s fun t => t.gv = s.gv ∧
      SameRegsBut (fun a => a = Reg.DBG_Cc_CTRL c.val) s t ∧ SameMemory s t) ∧
    ((s.core c.val).run = .halt → Completes (.dbgRun m c) s fun t => (t.core c.val).run = .run ∧ (t.core c.val).pc = (s.core c.val).pc ∧
      (t.core c.val).g = (s.core c.val).g ∧ (t.core c.val).passBreak = s.bit (Reg.DBG_Cc_CTRL c.val) 4 ∧ (t.core c.val).stepping = s.bit (Reg.DBG_Cc_CTRL c.val) 3 ∧
      t.f (Reg.DBG_Cc_STAT c.val) 1 0 = 0 ∧ (s.running = true → t.lock = 3) ∧ SameMemory s t) ∧
    ((s.core c.val).run ≠ .halt → Completes (.dbgRun m c) s fun t => t.gv = s.gv ∧ SameRegsBut (fun a => a = Reg.DBG_Cc_CTRL c.val) s t ∧ SameMemory s t) ∧
    (∀ v : Word, (s.core c.val).run ≠ .halt → Completes (.dbgRegdata m c false v) s (fun t => t.answer = ⟨0, 0⟩ ∧ t.bit Reg.DBG_STAT 0 = true ∧ t.gv = s.gv ∧ SameMemory s t) ∧
      Completes (.dbgRegdata m c true v) s (fun t => t.bit Reg.DBG_STAT 0 = true ∧ t.gv = s.gv ∧ SameMemory s t)) ∧
    (∀ (v : Word) (n : Nat), (s.core c.val).run = .halt → n = s.f (Reg.DBG_Cc_REGSEL c.val) 4 0 →
      (∀ w, (s.core c.val).g[n]? = some w → n < 16 → exec (.dbgRegdata m c false v) s = .next (s.reply 0 w) ∧
        exec (.dbgRegdata m c true v) s = .next ((s.setCore c.val { s.core c.val with g := (s.core c.val).g.set n v }).reply 0 0)) ∧
      (17 < n → exec (.dbgRegdata m c false v) s = .next (s.reply 0 0) ∧ exec (.dbgRegdata m c true v) s = .next (s.reply 0 0)) ∧
      (n = 16 → exec (.dbgRegdata m c false v) s = .next (s.reply 0 (wd (s.core c.val).pc)) ∧
        Completes (.dbgRegdata m c true v) s fun t => (t.core c.val).pc = v.toNat / 4 * 4 ∧ (t.core c.val).g = (s.core c.val).g ∧ t.regs = s.regs ∧ SameMemory s t) ∧
      (n = 17 → exec (.dbgRegdata m c false v) s = .next (s.reply 0 (s.core c.val).st) ∧ Completes (.dbgRegdata m c true v) s fun t =>
        (t.core c.val).st = ((s.core c.val).st &&& ~~~stRw) ||| (v &&& stRw) ∧ (t.core c.val).g = (s.core c.val).g ∧ t.regs = s.regs ∧ SameMemory s t)) ∧
    (∀ (v : Word) (o : Nat), o = (s.reg (Reg.DBG_Cc_LADDR c.val)).toNat / 4 * 4 →
      (o < localSize c.val → s.mark (localKey c.val o) = .none → exec (.dbgLdata m c false v) s = .next (s.reply 0 (s.word (localKey c.val o)))) ∧
      (∀ (k : Nat) (t : State), o < localSize c.val → s.eccRead (localKey c.val o) (37 + c.val) = (k, t) →
        exec (.dbgLdata m c false v) s = .next (t.reply 0 (if k = 0 then t.word (localKey c.val o) else 0))) ∧
      (o < localSize c.val → Completes (.dbgLdata m c true v) s fun t => t.word (localKey c.val o) = v ∧
        (∀ k, k < localKey c.val o ∨ localKey c.val o + 4 ≤ k → t.byte k = s.byte k) ∧ t.regs = s.regs ∧ t.gv = s.gv) ∧
      (localSize c.val ≤ o → exec (.dbgLdata m c false v) s = .next (s.reply 0 0) ∧ exec (.dbgLdata m c true v) s = .next (s.reply 0 0))) ∧
    (∀ v : Word, (s.bit (Reg.DBG_Cc_VT c.val) 1 = false → Completes (.dbgDrxWrite m c v) s fun t => (t.core c.val).drx = v ∧ t.bit (Reg.DBG_Cc_VT c.val) 1 = true ∧ SameMemory s t) ∧
      (s.bit (Reg.DBG_Cc_VT c.val) 1 = true → Completes (.dbgDrxWrite m c v) s fun t => t.bit (Reg.DBG_Cc_VT c.val) 3 = true ∧ t.gv = s.gv ∧
        SameRegsBut (fun a => a = Reg.DBG_Cc_VT c.val) s t ∧ SameMemory s t)) ∧
    Completes (.dbgTxfullAck m c) s (fun t => t.reg (Reg.DBG_Cc_VT c.val) = s.reg (Reg.DBG_Cc_VT c.val) &&& ~~~1 ∧ t.gv = s.gv ∧
      (s.bit (Reg.DBG_Cc_VT c.val) 0 = true → s.pwr.state = 0 → s.coalOf (32 * c.val + 9) = none → s.bit (Reg.IRQ_SRCs (32 * c.val + 9)) 6 = true →
        t.bit (Reg.IRQ_SRCs (32 * c.val + 9)) 16 = true) ∧ SameMemory s t))

/-- GP_EDGE, PIN_SWITCH, PIN_SWITCH_HOLD_END, MATCH_PULSE_END, PIN_RELEASE, PIN_LOCK and PIN_LOCK_TIMEOUT (R481, R484 to R487, R477). A level reaches the pad while PCLK runs; an edge
that EDGE selects fires the pin's source; a switch holds what each changed pad drove until its hold ends; a match pulse ends; RELEASE gives the pads back; two equal
lock writes lock a pin, anything else aborts the sequence. -/
def Obligations.PinCommands : Prop :=
  ∀ (m : Acc) (s : State),
    (∀ (n : Fin 48) (level b was up : Bool), b = s.padLevel n.val level → was = (s.pin.level[n.val]?).getD false → up = (b != s.bit (Reg.PIN_GPn_CFG n.val) 7) →
      (s.pclk = false → exec (.gpEdge n level) s = .next s) ∧
      (s.pclk = true → b = was ∨ bitAt (s.reg (Reg.PIN_GPn_CFG n.val)) (if up then 14 else 15) = false ∨ s.padIdle n.val = true ∨ s.f (Reg.PIN_GPn_CFG n.val) 2 0 = 6 →
        Completes (.gpEdge n level) s fun t => t.pin.level = s.pin.level.set n.val b ∧ t.regs = s.regs ∧ SameMemory s t) ∧
      (s.pclk = true → b ≠ was → bitAt (s.reg (Reg.PIN_GPn_CFG n.val)) (if up then 14 else 15) = true → s.padIdle n.val = false →
        s.f (Reg.PIN_GPn_CFG n.val) 2 0 ≠ 6 → Completes (.gpEdge n level) s fun t => t.pin.level = s.pin.level.set n.val b ∧
          (s.pwr.state = 0 → s.coalOf (193 + n.val) = none → s.bit (Reg.IRQ_SRCs (193 + n.val)) 6 = true → t.bit (Reg.IRQ_SRCs (193 + n.val)) 16 = true) ∧
          SameMemory s t)) ∧
    (s.img.pinsDue = false → exec .pinSwitch s = .next s) ∧
    (s.img.pinsDue = true → Completes .pinSwitch s fun t => t.img.pinsDue = false ∧ SameMemory s t ∧ ∀ n, n < 48 →
      (t.f (Reg.PIN_GPn_CFG n) 7 0 ≠ s.f (Reg.PIN_GPn_CFG n) 7 0 → (n, s.padDrive n) ∈ t.pin.held) ∧
      (t.f (Reg.PIN_GPn_CFG n) 7 0 = s.f (Reg.PIN_GPn_CFG n) 7 0 → ∀ e, e.1 = n → (e ∈ t.pin.held ↔ e ∈ s.pin.held))) ∧
    (∀ (n : Fin 48) (level : Bool) (u : State), u = { s with pin := { s.pin with held := s.pin.held.filter fun e => decide (e.1 ≠ n.val) } } →
      Completes (.pinSwitchHoldEnd n level) s fun t => (∀ e ∈ t.pin.held, e.1 ≠ n.val) ∧ t.pin.level = s.pin.level.set n.val (u.padLevel n.val level) ∧
        t.regs = s.regs ∧ SameMemory s t) ∧
    (∀ n : Fin 4, Completes (.matchPulseEnd n) s fun t => n.val ∉ t.pin.matchHi ∧ (∀ k, k ≠ n.val → (k ∈ t.pin.matchHi ↔ k ∈ s.pin.matchHi)) ∧ t.regs = s.regs ∧ SameMemory s t) ∧
    (m.debug = false → s.targetOff Reg.PIN_CTRL = true → ∀ v : Word, ∀ c ∈ [Instr.pinRelease m, .pinLock m v], Completes c s fun t => t.answer = ⟨6, 0⟩ ∧
      t.pin = s.pin ∧ SameMemory s t) ∧
    (m.debug = false → s.targetOff Reg.PIN_CTRL = false →
      (s.bit Reg.PIN_CTRL 0 = true → exec (.pinRelease m) s = .next (s.reply 0 0)) ∧
      (s.bit Reg.PIN_CTRL 0 = false → Completes (.pinRelease m) s fun t => t.bit Reg.PIN_CTRL 0 = true ∧ t.pin.asleep = [] ∧ (∀ e ∈ s.pin.asleep, e ∈ t.pin.held) ∧
        SameRegsBut (fun a => a = Reg.PIN_CTRL) s t ∧ SameMemory s t) ∧
      (∀ (v : Word) (p : Nat), p = fld v 5 0 →
        (fld v 15 8 ≠ 0x4C ∨ (s.pin.lockSeq = none ∧ bitAt v 16 = true) ∨ (∃ q, s.pin.lockSeq = some q ∧ q ≠ p) → Completes (.pinLock m v) s fun t =>
          t.pin.lockSeq = none ∧ t.bit Reg.PIN_STAT 0 = true ∧ t.reg Reg.PIN_LOCKED0 = s.reg Reg.PIN_LOCKED0 ∧ t.reg Reg.PIN_LOCKED1 = s.reg Reg.PIN_LOCKED1 ∧ SameMemory s t) ∧
        (fld v 15 8 = 0x4C → s.pin.lockSeq = none → bitAt v 16 = false → Completes (.pinLock m v) s fun t => t.pin.lockSeq = some p ∧ t.regs = s.regs ∧ SameMemory s t) ∧
        (fld v 15 8 = 0x4C → s.pin.lockSeq = some p → bitAt v 16 = false → exec (.pinLock m v) s = .next (s.reply 0 0)) ∧
        (fld v 15 8 = 0x4C → s.pin.lockSeq = some p → bitAt v 16 = true → 48 ≤ p → Completes (.pinLock m v) s fun t => t.pin.lockSeq = none ∧ t.regs = s.regs ∧
          SameMemory s t) ∧
        (fld v 15 8 = 0x4C → s.pin.lockSeq = some p → bitAt v 16 = true → p < 48 → Completes (.pinLock m v) s fun t => t.pin.lockSeq = none ∧
          t.bit (if p < 32 then Reg.PIN_LOCKED0 else Reg.PIN_LOCKED1) (p % 32) = true ∧
          SameRegsBut (fun a => a = if p < 32 then Reg.PIN_LOCKED0 else Reg.PIN_LOCKED1) s t ∧ SameMemory s t))) ∧
    (s.pin.lockSeq = none → exec .pinLockTimeout s = .next s) ∧
    (s.pin.lockSeq ≠ none → Completes .pinLockTimeout s fun t => t.pin.lockSeq = none ∧ t.bit Reg.PIN_STAT 0 = true ∧ SameMemory s t)

/-- ENTDAA, SETDASA, SETNEWDA, RSTDAA, ENEC, DISEC, SETMWL, SETMRL, GETMWL, GETMRL, GETPID, GETBCR, GETDCR, GETSTATUS, GETMXDS, ENTHDR0, HDR_EXIT, RSTACT, HI3C_IBI and HOT_JOIN (R408, R489, R491,
Table 21.4). A target without an address takes the one given and sets DAA; a direct CCC reaches a target that has one, and wakes the chip; a broadcast reaches both; a GET returns the
target's value; in NAP and deeper the traffic only wakes (log 117); an in-band interrupt leaves for a target that may send it; hot-join is sent once. -/
def Obligations.HostTargets : Prop :=
  ∀ (s u : State) (H : Hi3cSt), H = s.hi3c → u = s.rouse →
    (s.pwr.state = 0 → u = s) ∧ (s.pwr.state ≠ 0 → u = { s with pwr := { s.pwr with waking := true } }) ∧
    (∀ (a b : BitVec 7), s.daddr 0 = none → s.daddr 1 = none → Completes (.entdaa (some a) (some b)) s fun t => t.daddr 0 = some a.toNat ∧ t.daddr 1 = some b.toNat ∧
      t.bit Reg.HI3C_STAT 3 = true ∧ SameMemory s t) ∧
    (∀ (a : BitVec 7) (b : Option (BitVec 7)), s.daddr 0 = none → s.daddr 1 ≠ none ∨ b = none → Completes (.entdaa (some a) b) s fun t => t.daddr 0 = some a.toNat ∧
      t.daddr 1 = s.daddr 1 ∧ t.bit Reg.HI3C_STAT 3 = true ∧ SameMemory s t) ∧
    (∀ (a : Option (BitVec 7)) (b : BitVec 7), s.daddr 0 ≠ none ∨ a = none → s.daddr 1 = none → Completes (.entdaa a (some b)) s fun t => t.daddr 0 = s.daddr 0 ∧
      t.daddr 1 = some b.toNat ∧ t.bit Reg.HI3C_STAT 3 = true ∧ SameMemory s t) ∧
    (∀ (a b : Option (BitVec 7)), s.daddr 0 ≠ none ∨ a = none → s.daddr 1 ≠ none ∨ b = none → exec (.entdaa a b) s = .next s) ∧
    (∀ (a d : BitVec 7), (a.toNat = s.f Reg.HI3C_CFG 6 0 → a.toNat ≠ 0 → s.daddr 0 = none →
        (s.pwr.state < 3 → Completes (.setdasa a d) s fun t => t.daddr 0 = some d.toNat ∧ t.daddr 1 = s.daddr 1 ∧ t.bit Reg.HI3C_STAT 3 = true ∧ t.pwr = u.pwr ∧
          SameMemory s t) ∧
        (3 ≤ s.pwr.state → exec (.setdasa a d) s = .next u)) ∧
      (a.toNat ≠ s.f Reg.HI3C_CFG 6 0 ∨ a.toNat = 0 ∨ s.daddr 0 ≠ none → exec (.setdasa a d) s = .next s)) ∧
    (∀ (x : Fin 2) (a : BitVec 7), s.daddr x.val ≠ none → s.pwr.state < 3 → Completes (.setnewda x a) s fun t => t.daddr x.val = some a.toNat ∧ t.pwr = u.pwr ∧
      SameMemory s t) ∧
    Completes .rstdaa s (fun t => t.daddr 0 = none ∧ t.daddr 1 = none ∧ SameRegsBut (fun a => a = Reg.HI3C_DADDR) s t ∧ SameMemory s t) ∧
    (∀ (x : Fin 2) (n : Nat) (intr hj : Bool), s.daddr x.val ≠ none → s.pwr.state < 3 →
      exec (.enec (some x) intr hj) s = .next { u with hi3c := { H with ibiOn := if intr then H.ibiOn.set x.val true else H.ibiOn, hjOn := if hj then H.hjOn.set x.val true else H.hjOn } } ∧
      exec (.disec (some x) intr hj) s = .next { u with hi3c := { H with ibiOn := if intr then H.ibiOn.set x.val false else H.ibiOn, hjOn := if hj then H.hjOn.set x.val false else H.hjOn } } ∧
      exec (.setmwl (some x) n) s = .next { u with hi3c := { H with mwl := H.mwl.set x.val (min n 2064) } } ∧
      exec (.setmrl (some x) n) s = .next { u with hi3c := { H with mrl := H.mrl.set x.val (min n 2048) } } ∧
      (n ≤ 1 → exec (.rstact (some x) n) s = .next { u with hi3c := { H with rstact := H.rstact.set x.val n } }) ∧
      exec (.getmwl x) s = .next (u.emit (.i3cValue x.val ((H.mwl[x.val]?).getD 0))) ∧
      exec (.getmrl x) s = .next (u.emit (.i3cValue x.val ((H.mrl[x.val]?).getD 0))) ∧
      exec (.getpid x) s = .next (u.emit (.i3cValue x.val (s.f Reg.HI3C_PIDHI 14 0 * 2 ^ 33 + 0x880 * 2 ^ 16 + x.val * 2 ^ 12))) ∧
      exec (.getbcr x) s = .next (u.emit (.i3cValue x.val 0x1E)) ∧ exec (.getdcr x) s = .next (u.emit (.i3cValue x.val (s.f Reg.HI3C_DCR 7 0))) ∧
      Completes (.getstatus x) s (fun t => ∃ v, t.out = s.out ++ [.i3cValue x.val v] ∧ t.regs = s.regs ∧ t.pwr = u.pwr ∧ SameMemory s t) ∧
      Completes (.getmxds x) s (fun t => ∃ v, t.out = s.out ++ [.i3cValue x.val v] ∧ t.regs = s.regs ∧ t.pwr = u.pwr ∧ SameMemory s t)) ∧
    (∀ (x : Fin 2) (a : BitVec 7) (n : Nat) (intr hj : Bool), n ≤ 1 → ∀ c ∈ [Instr.enec (some x) intr hj, .disec (some x) intr hj, .setmwl (some x) n,
      .setmrl (some x) n, .rstact (some x) n, .getmwl x, .getmrl x, .getpid x, .getbcr x, .getdcr x, .setnewda x a],
      (s.daddr x.val = none → exec c s = .next s) ∧ (s.daddr x.val ≠ none → 3 ≤ s.pwr.state → exec c s = .next u)) ∧
    (∀ x : Fin 2, s.daddr x.val = none ∨ 3 ≤ s.pwr.state → ∀ c ∈ [Instr.getstatus x, .getmxds x], Completes c s fun t => t.out = s.out ∧ t.regs = s.regs ∧ SameMemory s t) ∧
    (∀ (o : Option (Fin 2)) (n : Nat), 1 < n → exec (.rstact o n) s = .next s) ∧
    (∀ (n : Nat) (intr hj : Bool), exec (.setmwl none n) s = .next { s with hi3c := { H with mwl := (H.mwl.set 0 (min n 2064)).set 1 (min n 2064) } } ∧
      exec (.setmrl none n) s = .next { s with hi3c := { H with mrl := (H.mrl.set 0 (min n 2048)).set 1 (min n 2048) } } ∧
      exec (.enec none intr hj) s = .next { s with hi3c := { H with ibiOn := if intr then (H.ibiOn.set 0 true).set 1 true else H.ibiOn,
                                                                    hjOn := if hj then (H.hjOn.set 0 true).set 1 true else H.hjOn } } ∧
      exec (.disec none intr hj) s = .next { s with hi3c := { H with ibiOn := if intr then (H.ibiOn.set 0 false).set 1 false else H.ibiOn,
                                                                     hjOn := if hj then (H.hjOn.set 0 false).set 1 false else H.hjOn } } ∧
      (n ≤ 1 → exec (.rstact none n) s = .next { s with hi3c := { H with rstact := (H.rstact.set 0 n).set 1 n } })) ∧
    exec .enthdr0 s = .next { s with hi3c := { H with hdr := true } } ∧ exec .hdrExit s = .next { s with hi3c := { H with hdr := false } } ∧
    (∀ ok : Nat × List Nat → Bool, ok = (fun e => (H.ibiOn[e.1]?).getD false && (s.daddr e.1).isSome) →
      (H.ibis.find? ok = none → exec (.hi3cIbi false) s = .next s) ∧
      (∀ e, H.ibis.find? ok = some e → Completes (.hi3cIbi false) s fun t => t.hi3c = { H with ibis := H.ibis.erase e } ∧ t.out = s.out ++ [.ibi e.1 e.2] ∧
        t.regs = s.regs ∧ SameMemory s t)) ∧
    (s.alertLow = false → exec (.hi3cIbi true) s = exec (.hi3cIbi false) s) ∧
    (s.alertLow = true → exec (.hi3cIbi true) s = exec (.hi3cIbi false) { s with hi3c := { H with ibis := H.ibis ++ [(0, [3, s.alertCauses])] } }) ∧
    (∀ (e : Nat × List Nat) (rest : List (Nat × List Nat)), H.ibis = e :: rest → (H.ibiOn[e.1]?).getD false = true → s.daddr e.1 ≠ none →
      Completes (.hi3cIbi false) s fun t => t.hi3c = { H with ibis := rest } ∧ t.out = s.out ++ [.ibi e.1 e.2] ∧ t.regs = s.regs ∧ SameMemory s t) ∧
    (s.alertLow = true → H.ibis = [] → (H.ibiOn[0]?).getD false = true → s.daddr 0 ≠ none → Completes (.hi3cIbi true) s fun t =>
      t.out = s.out ++ [.ibi 0 [3, s.alertCauses]] ∧ t.hi3c = H ∧ SameMemory s t) ∧
    (s.bit Reg.HI3C_CFG 8 = true → H.joined = false → (s.daddr 0 = none ∧ (H.hjOn[0]?).getD false = true) ∨ (s.daddr 1 = none ∧ (H.hjOn[1]?).getD false = true) →
      Completes .hotJoin s fun t => t.hi3c = { H with joined := true } ∧ t.out = s.out ++ [.hotJoin] ∧ t.regs = s.regs ∧ SameMemory s t) ∧
    (s.bit Reg.HI3C_CFG 8 = false ∨ H.joined = true ∨ (∀ x, x < 2 → s.daddr x ≠ none ∨ (H.hjOn[x]?).getD false = false) → exec .hotJoin s = .next s)

/-- HI3C_ADDR, HI3C_WRITE, HI3C_MBWRITE, HI3C_MBREAD, HI3C_PRIVATE_READ and HI3C_DEBUG_WRITE (R408, R434, R435, R468, R490, R491). ADDR sets the window pointer; a word written or read through
the window moves it on by four, and a failed access sets WINERR; a message takes the lowest free slot, one of a wrong length is discarded with MBERR; a private
read returns the window, the selected message or the debug answer; the debug target serves one request at a time. A target without an address takes nothing; in NAP and
deeper the traffic only wakes the chip (log 117). -/
def Obligations.HostTransfers : Prop :=
  ∀ (s u : State), u = s.rouse →
    (∀ (b : Byte) (bs : List Byte) (n : Nat), ∀ c ∈ [Instr.hi3cAddr b bs, .hi3cWrite bs, .hi3cMbwrite bs, .hi3cMbread n, .hi3cPrivateRead false n],
      (s.daddr 0 = none → exec c s = .next s) ∧ (s.daddr 0 ≠ none → 3 ≤ s.pwr.state → exec c s = .next u)) ∧
    (∀ (bs : List Byte) (n : Nat), ∀ c ∈ [Instr.hi3cPrivateRead true n, .hi3cDebugWrite bs],
      (s.daddr 1 = none → exec c s = .next s) ∧ (s.daddr 1 ≠ none → 3 ≤ s.pwr.state → exec c s = .next u)) ∧
    (s.daddr 0 ≠ none → s.pwr.state < 3 → s.hostTakes = false → ∀ (b : Byte) (bs : List Byte) (n : Nat),
      ∀ c ∈ [Instr.hi3cAddr b bs, .hi3cWrite bs, .hi3cMbwrite bs, .hi3cMbread n], exec c s = .next u) ∧
    (s.daddr 0 ≠ none → s.pwr.state < 3 → s.hostTakes = true → ∀ (b : Byte) (data bs : List Byte), bs = s.hostCut 1 data →
      (b = 0 ∨ 4 < b.toNat → Completes (.hi3cAddr b data) s fun t => t.bit Reg.HI3C_STAT 0 = true ∧ t.hi3c.slot = none ∧ t.hi3c.ptr = s.hi3c.ptr ∧ SameMemory s t) ∧
      ((2 ≤ b.toNat ∧ b.toNat ≤ 4) ∨ (b = 1 ∧ bs.length < 4) → exec (.hi3cAddr b data) s = .next u) ∧
      (b = 1 → 4 ≤ bs.length → Completes (.hi3cAddr b data) s fun t => t.hi3c = { s.hi3c with ptr := leNat (bs.take 4) / 4 * 4, slot := none } ∧ t.regs = s.regs ∧ SameMemory s t) ∧
      (bs.length < 4 → exec (.hi3cWrite data) s = .next u) ∧
      (4 ≤ bs.length → exec (.hi3cWrite data) s = .next ((u.setWindow (leNat (bs.take 4))).windowWrite (payloadWords bs 4 ((bs.length - 4) / 4)))) ∧
      (∀ (w v : State) (c : Nat), bs.length = 8 → w = u.setWindow (leNat (bs.take 4)) →
        w.busWrite32 hostAcc w.hi3c.ptr (leWord ((bs.drop 4).take 4)) = (c, v) → Completes (.hi3cWrite data) s fun t => t.hi3c.ptr = (w.hi3c.ptr + 4) / 4 * 4 % 2 ^ 32 ∧
          (c = 0 → t.regs = v.regs) ∧ (c ≠ 0 → t.bit Reg.HI3C_STAT 2 = true) ∧ SameMemory v t) ∧
      (16 ≤ bs.length → bs.length ≤ 2048 → leNat ((bs.drop 2).take 2) + 16 = bs.length → ∀ k, s.freeInbound = some k → Completes (.hi3cMbwrite data) s fun t =>
        t.bit Reg.MGT_MBINSTAT k = true ∧ t.bit Reg.MGT_STAT 4 = true ∧ t.reg (Reg.MGT_MBINSRCs k) = 0x8000 ∧
        (∀ j, 4 * j + 4 ≤ bs.length → t.reg (Reg.MGT_MBINs k j) = leWord ((bs.drop (4 * j)).take 4)) ∧ SameMemory s t) ∧
      (bs.length < 16 ∨ 2048 < bs.length ∨ leNat ((bs.drop 2).take 2) + 16 ≠ bs.length ∨ s.freeInbound = none → Completes (.hi3cMbwrite data) s fun t =>
        t.bit Reg.HI3C_STAT 1 = true ∧ t.reg Reg.MGT_MBINSTAT = s.reg Reg.MGT_MBINSTAT ∧ SameMemory s t)) ∧
    (s.daddr 0 ≠ none → s.pwr.state < 3 → s.hostTakes = true → ∀ k, Completes (.hi3cMbread k) s fun t =>
      t.hi3c = { s.hi3c with slot := if k < 4 then some (k, 0) else none } ∧ t.regs = s.regs ∧ SameMemory s t) ∧
    (∀ (n r m : Nat), s.daddr 0 ≠ none → s.pwr.state < 3 → s.hi3c.mrl[0]? = some r → m = min n r →
      (∀ (bs : List Byte) (v : State), s.hi3c.slot = none → u.windowRead ((m + 3) / 4) = (bs, v) →
        exec (.hi3cPrivateRead false n) s = .next (v.emit (.i3cRead 0 (bs.take m)))) ∧
      (∀ (k i : Nat) (bs : List Byte) (v : State), s.hi3c.slot = some (k, i) → u.messageRead k i m = (bs, v) →
        exec (.hi3cPrivateRead false n) s = .next (v.emit (.i3cRead 0 bs)))) ∧
    (∀ (n r : Nat) (v : State) (w : Word), s.daddr 0 ≠ none → s.pwr.state < 3 → s.hi3c.mrl[0]? = some r → min n r = 4 → s.hi3c.slot = none →
      u.busRead32 hostAcc s.hi3c.ptr = (0, w, v) →
      Completes (.hi3cPrivateRead false n) s fun t => t.out = v.out ++ [.i3cRead 0 (leBytes 4 w.toNat)] ∧ t.hi3c.ptr = (s.hi3c.ptr + 4) / 4 * 4 % 2 ^ 32 ∧
        t.regs = v.regs ∧ SameMemory v t) ∧
    (∀ (n r k len : Nat), s.daddr 0 ≠ none → s.pwr.state < 3 → s.hi3c.mrl[0]? = some r → s.hi3c.slot = some (k, 0) → k < 4 →
      len = fld (s.reg (Reg.MGT_MBOUTs k 0)) 31 16 + 16 → s.bit Reg.MGT_MBOUTSTAT k = true → s.bit (Reg.MGT_MBOUTs_DST k) 14 = true →
      (len ≤ min n r → Completes (.hi3cPrivateRead false n) s fun t => t.out = s.out ++ [.i3cRead 0 (s.outBytes k len)] ∧ t.bit Reg.MGT_MBOUTSTAT k = false ∧
        t.bit Reg.MGT_STAT 5 = true ∧ SameMemory s t) ∧
      (min n r < len → Completes (.hi3cPrivateRead false n) s fun t => t.out = s.out ++ [.i3cRead 0 ((s.outBytes k len).take (min n r))] ∧ t.regs = s.regs ∧ SameMemory s t)) ∧
    (∀ (n r : Nat), s.daddr 1 ≠ none → s.pwr.state < 3 → s.hi3c.mrl[1]? = some r →
      (∀ x : DbgResp, s.dbg.hostResp = some x → Completes (.hi3cPrivateRead true n) s fun t =>
        t.out = s.out ++ [.i3cRead 1 (x.bytes.take (min n r))] ∧ t.dbg = { s.dbg with hostResp := none } ∧ t.regs = s.regs ∧ SameMemory s t) ∧
      (s.dbg.hostResp = none → exec (.hi3cPrivateRead true n) s = .next (u.emit (.i3cRead 1 [])))) ∧
    (∀ (data bs : List Byte) (r : Nat) (v : State) (w : Word), s.daddr 1 ≠ none → s.pwr.state < 3 → s.hi3c.mwl[1]? = some r → bs = data.take r →
      exec (.hi3cDebugWrite data) s = .next (u.debugRequest none bs) ∧
      (s.debugBusy none = true → Completes (.hi3cDebugWrite data) s fun t => t.bit Reg.DBG_STAT 1 = true ∧ t.dbg = s.dbg ∧ SameMemory s t) ∧
      (s.debugBusy none = false → leNat ((bs.drop 4).take 1) = 0 → leNat ((bs.drop 6).take 2) = 1 → leNat ((bs.drop 8).take 4) % 4 = 0 →
        u.busRead32 debugAcc (leNat ((bs.drop 8).take 4)) = (0, w, v) → Completes (.hi3cDebugWrite data) s fun t =>
          t.dbg = { v.dbg with hostResp := some { tag := leNat (bs.take 4), status := 0, level := v.sec.level, count := 1, addr := leNat ((bs.drop 8).take 4), data := [w] } } ∧
          t.hi3c.ibis = v.hi3c.ibis ++ [(1, [0x10])] ∧ SameMemory v t))

/-- CI3C_PRIVATE_WRITE, CI3C_PRIVATE_READ, CI3C_BROADCAST_CCC, CI3C_DIRECT_CCC, CI3C_ENTDAA, CI3C_HDR_WRITE, CI3C_HDR_READ, CI3C_I2C_WRITE, CI3C_I2C_READ, CI3C_COMMAND_DONE, CI3C_IBI, CI3C_HOTJOIN,
CI3C_RXD_READ, XSPI_COMMAND, XSPI_POLL, XSPI_POLL_REPEAT, XSPI_POLL_TIMEOUT, XSPI_DONE, XSPI_DATA and XSPI_FLUSH (R492, R494, R496 to R498). A cabinet command joins the queue, and ends with a response;
an interrupt that is accepted waits to be read. A flash command is rejected while one runs; the end of a read fills the FIFO; a poll repeats until its byte matches. -/
def Obligations.CabinetAndFlash : Prop :=
  ∀ (m : Acc) (s : State),
    (m.debug = false → s.targetOff Reg.CI3C_CMD = true → ∀ (v : Word) (b : Bool), ∀ c ∈ [Instr.ci3cPrivateWrite m v, .ci3cPrivateRead m v, .ci3cBroadcastCcc m v,
        .ci3cDirectCcc m v, .ci3cEntdaa m v, .ci3cHdrWrite m v, .ci3cHdrRead m v, .ci3cI2cWrite m v, .ci3cI2cRead m v, .ci3cRxdRead m b, .xspiCommand m v,
        .xspiPoll m v, .xspiData m b v, .xspiFlush m], Completes c s fun t => t.answer = ⟨6, 0⟩ ∧ t.ci3c = s.ci3c ∧ t.xspi = s.xspi ∧ SameMemory s t) ∧
    (m.debug = false → m.alle = false → s.targetOff Reg.XSPI_CMD = false → ∀ (v : Word) (b : Bool),
      ∀ c ∈ [Instr.xspiCommand m v, .xspiPoll m v, .xspiData m b v, .xspiFlush m], Completes c s fun t => t.answer = ⟨3, 0⟩ ∧ t.xspi = s.xspi ∧ SameMemory s t) ∧
    (m.debug = false → s.targetOff Reg.CI3C_CMD = false → ∀ v : Word, ∀ e ∈ [(0, Instr.ci3cPrivateWrite m v), (1, .ci3cPrivateRead m v), (2, .ci3cBroadcastCcc m v), (3, .ci3cDirectCcc m v), (4, .ci3cEntdaa m v),
        (5, .ci3cHdrWrite m v), (6, .ci3cHdrRead m v), (7, .ci3cI2cWrite m v), (8, .ci3cI2cRead m v)],
      exec e.2 s = .next (({ s with ci3c := { s.ci3c with cmds := s.ci3c.cmds ++ [setFld v 3 0 e.1] } } : State).reply 0 0)) ∧
    (∀ (r : Fin 4) (n : Nat) (data : List Byte), s.bit Reg.CI3C_CTRL 0 = false ∨ s.ci3c.cmds = [] → exec (.ci3cCommandDone r n data) s = .next s) ∧
    (∀ (r : Fin 4) (n : Nat) (data : List Byte) (v : Word) (rest : List Word), s.bit Reg.CI3C_CTRL 0 = true → s.ci3c.cmds = v :: rest →
      (8 < fld v 3 0 ∨ ((fld v 3 0 = 5 ∨ fld v 3 0 = 6) ∧ s.bit Reg.CI3C_CTRL 1 = false) → Completes (.ci3cCommandDone r n data) s fun t =>
        t.ci3c = { s.ci3c with cmds := rest } ∧ t.reg Reg.CI3C_RESP = 4 ∧ t.bit Reg.CI3C_STAT 0 = true ∧ t.bit Reg.CI3C_STAT 2 = true ∧ SameMemory s t) ∧
      (r.val = 1 → s.ci3cRejects (fld v 3 0) = false → Completes (.ci3cCommandDone r n data) s fun t => t.bit Reg.CI3C_STAT 1 = true) ∧
      (r.val = 2 ∨ r.val = 3 → s.ci3cRejects (fld v 3 0) = false → Completes (.ci3cCommandDone r n data) s fun t => t.bit Reg.CI3C_STAT 2 = true) ∧
      (fld v 3 0 = 1 ∨ fld v 3 0 = 8 ∨ (fld v 3 0 = 6 ∧ s.bit Reg.CI3C_CTRL 1 = true) → Completes (.ci3cCommandDone r n data) s fun t => t.ci3c.cmds = rest ∧
        t.ci3c.rx = s.ci3c.rx ++ padWords (data.take (min (fld v 27 16) n)) ∧ t.ci3c.tx = s.ci3c.tx ∧ t.f Reg.CI3C_RESP 3 0 = r.val ∧
        t.f Reg.CI3C_RESP 27 16 = (data.take (min (fld v 27 16) n)).length ∧ t.bit Reg.CI3C_STAT 0 = true ∧ SameMemory s t) ∧
      ((fld v 3 0 ≤ 4 ∧ fld v 3 0 ≠ 1) ∨ fld v 3 0 = 7 ∨ (fld v 3 0 = 5 ∧ s.bit Reg.CI3C_CTRL 1 = true) → Completes (.ci3cCommandDone r n data) s fun t => t.ci3c.cmds = rest ∧ t.ci3c.rx = s.ci3c.rx ∧
        t.ci3c.tx = s.ci3c.tx.drop ((fld v 27 16 + 3) / 4 * 4) ∧ t.out = s.out ++ [.ci3c v (s.ci3c.tx.take (min (fld v 27 16) n))] ∧
        t.f Reg.CI3C_RESP 3 0 = r.val ∧ (fld v 3 0 = 4 → r.val = 0 → fld v 7 4 ∈ t.ci3c.used) ∧ (fld v 3 0 ≠ 4 ∨ r.val ≠ 0 → t.ci3c.used = s.ci3c.used) ∧
        t.bit Reg.CI3C_STAT 0 = true ∧ SameMemory s t)) ∧
    (∀ (d : Fin 16) (p : List Byte), (s.bit Reg.CI3C_CTRL 0 = false ∨ s.bit (Reg.CI3C_DEVn d.val) 9 = false → exec (.ci3cIbi d p) s = .next s) ∧
      (s.bit Reg.CI3C_CTRL 0 = true → s.bit (Reg.CI3C_DEVn d.val) 9 = true → s.bit (Reg.CI3C_DEVn d.val) 10 = false → Completes (.ci3cIbi d p) s fun t =>
        t.ci3c.ibiq = s.ci3c.ibiq ++ [wd (d.val + 2 ^ 16)] ∧ t.bit Reg.CI3C_STAT 3 = true ∧ SameMemory s t) ∧
      (∀ (b : Byte) (rest : List Byte), p = b :: rest → s.bit Reg.CI3C_CTRL 0 = true → s.bit (Reg.CI3C_DEVn d.val) 9 = true → s.bit (Reg.CI3C_DEVn d.val) 10 = true →
        Completes (.ci3cIbi d p) s fun t => t.ci3c.ibiq = s.ci3c.ibiq ++ [wd (d.val + 256 * b.toNat + 2 ^ 16)] ∧ t.bit Reg.CI3C_STAT 3 = true ∧ SameMemory s t) ∧
      (p = [] → s.bit Reg.CI3C_CTRL 0 = true → s.bit (Reg.CI3C_DEVn d.val) 9 = true → Completes (.ci3cIbi d p) s fun t =>
        t.ci3c.ibiq = s.ci3c.ibiq ++ [wd (d.val + 2 ^ 16)] ∧ t.bit Reg.CI3C_STAT 3 = true ∧ SameMemory s t)) ∧
    (∀ free : Nat → Bool, free = (fun n => decide (s.f (Reg.CI3C_DEVn n) 6 0 ≠ 0) && !s.bit (Reg.CI3C_DEVn n) 8 && !s.ci3c.used.contains n) →
      s.bit Reg.CI3C_CTRL 0 = true → s.bit Reg.CI3C_CTRL 2 = true →
      (∀ n, (List.range 16).find? free = some n → Completes .ci3cHotjoin s fun t => t.ci3c.used = n :: s.ci3c.used ∧
        t.out = s.out ++ [.ci3cAssign n (s.f (Reg.CI3C_DEVn n) 6 0)] ∧ t.bit Reg.CI3C_STAT 4 = true ∧ SameMemory s t) ∧
      ((List.range 16).find? free = none → Completes .ci3cHotjoin s fun t => t.ci3c = s.ci3c ∧ t.out = s.out ∧ t.bit Reg.CI3C_STAT 4 = true ∧ SameMemory s t)) ∧
    (s.bit Reg.CI3C_CTRL 0 = false ∨ s.bit Reg.CI3C_CTRL 2 = false → exec .ci3cHotjoin s = .next s) ∧
    (s.bit Reg.CI3C_CTRL 0 = true → s.bit Reg.CI3C_CTRL 2 = true → s.f (Reg.CI3C_DEVn 0) 6 0 ≠ 0 → s.bit (Reg.CI3C_DEVn 0) 8 = false → s.ci3c.used.contains 0 = false →
      Completes .ci3cHotjoin s fun t => 0 ∈ t.ci3c.used ∧ t.out = s.out ++ [.ci3cAssign 0 (s.f (Reg.CI3C_DEVn 0) 6 0)] ∧ t.bit Reg.CI3C_STAT 4 = true ∧ SameMemory s t) ∧
    (m.debug = false → s.targetOff Reg.CI3C_RXD = false → Completes (.ci3cRxdRead m false) s (fun t => t.answer = ⟨0, leWord (s.ci3c.rx.take 4)⟩ ∧ t.ci3c = { s.ci3c with rx := s.ci3c.rx.drop 4 } ∧ t.regs = s.regs) ∧
      (∀ w rest, s.ci3c.ibiq = w :: rest → Completes (.ci3cRxdRead m true) s fun t => t.answer = ⟨0, w⟩ ∧ t.ci3c = { s.ci3c with ibiq := rest } ∧ t.regs = s.regs) ∧
      (s.ci3c.ibiq = [] → exec (.ci3cRxdRead m true) s = .next (s.reply 0 0))) ∧
    (m.debug = false → m.alle = true → s.targetOff Reg.XSPI_CMD = false → ∀ (v w : Word) (poll : Bool) (c : Instr), (poll = false ∧ c = .xspiCommand m v ∨ poll = true ∧ c = .xspiPoll m v) → w = putBit v 27 poll →
      (s.xspi.run ≠ none → Completes c s fun t => t.bit Reg.XSPI_STAT 2 = true ∧ t.xspi = s.xspi ∧ t.out = s.out ∧ SameMemory s t) ∧
      (s.xspiRejects w = true → Completes c s fun t => t.bit Reg.XSPI_STAT 2 = true ∧ t.xspi = s.xspi ∧ t.out = s.out ∧ SameMemory s t) ∧
      (s.xspiRejects w = false → Completes c s fun t => t.xspi.run = some (w, s.reg Reg.XSPI_ADDR) ∧ t.bit Reg.XSPI_STAT 8 = true ∧
        (poll = true ∨ fld v 17 16 ≠ 2 → t.out = s.out ++ [.xspi w (s.reg Reg.XSPI_ADDR) []] ∧ t.xspi.fifo = s.xspi.fifo) ∧
        (poll = false → fld v 17 16 = 2 → t.out = s.out ++ [.xspi w (s.reg Reg.XSPI_ADDR) (s.xspi.fifo.take (fld v 26 18))] ∧
          t.xspi.fifo = s.xspi.fifo.drop (fld v 26 18)) ∧ SameMemory s t)) ∧
    (m.debug = false → m.alle = true → s.targetOff Reg.XSPI_DATA = false →
      (∀ v : Word, (s.xspi.fifo.length + 4 ≤ 256 → Completes (.xspiData m true v) s fun t => t.xspi = { s.xspi with fifo := s.xspi.fifo ++ leBytes 4 v.toNat } ∧ t.regs = s.regs) ∧
        (256 < s.xspi.fifo.length + 4 → Completes (.xspiData m true v) s fun t => t.xspi = s.xspi ∧ t.bit Reg.XSPI_STAT 3 = true) ∧
        (s.xspi.fifo = [] → Completes (.xspiData m false v) s fun t => t.answer = ⟨0, 0⟩ ∧ t.xspi = s.xspi ∧ t.bit Reg.XSPI_STAT 3 = true) ∧
        (s.xspi.fifo ≠ [] → Completes (.xspiData m false v) s fun t => t.answer = ⟨0, leWord (s.xspi.fifo.take 4)⟩ ∧
          t.xspi = { s.xspi with fifo := s.xspi.fifo.drop 4 } ∧ t.regs = s.regs)) ∧
      Completes (.xspiFlush m) s (fun t => t.xspi = { s.xspi with fifo := [] } ∧ t.bit Reg.XSPI_CTRL 0 = s.bit Reg.XSPI_CTRL 0 ∧ SameMemory s t)) ∧
    (∀ data, s.xspi.run = none ∨ s.bit Reg.XSPI_CTRL 0 = false ∨ s.xspi.polling = true → exec (.xspiDone data) s = .next s) ∧
    (∀ (v a : Word) (data : List Byte), s.xspi.run = some (v, a) → s.bit Reg.XSPI_CTRL 0 = true → s.xspi.polling = false →
      (bitAt v 27 = false → Completes (.xspiDone data) s fun t => t.xspi.run = none ∧ t.bit Reg.XSPI_STAT 8 = false ∧ t.bit Reg.XSPI_STAT 0 = true ∧
        (fld v 17 16 = 1 → ∀ n, n = fld v 26 18 → t.xspi.fifo = s.xspi.fifo ++ (data ++ List.replicate n 0).take n) ∧ (fld v 17 16 ≠ 1 → t.xspi.fifo = s.xspi.fifo) ∧ SameMemory s t) ∧
      (∀ (b : Byte), bitAt v 27 = true → b = data.headD 0 →
        (b.toNat &&& s.f Reg.XSPI_POLL 7 0 = s.f Reg.XSPI_POLL 15 8 → Completes (.xspiDone data) s fun t => t.xspi.run = none ∧ t.bit Reg.XSPI_STAT 0 = true ∧
          t.bit Reg.XSPI_STAT 8 = false ∧ (s.xspi.fifo.length < 256 → t.xspi.fifo = s.xspi.fifo ++ [b]) ∧
          (256 ≤ s.xspi.fifo.length → t.xspi.fifo = s.xspi.fifo) ∧ SameMemory s t) ∧
        (b.toNat &&& s.f Reg.XSPI_POLL 7 0 ≠ s.f Reg.XSPI_POLL 15 8 → exec (.xspiDone data) s = .next { s with xspi := { s.xspi with polling := true } }))) ∧
    (s.xspi.run = none ∨ s.xspi.polling = false → exec .xspiPollRepeat s = .next s) ∧
    (∀ v a, s.xspi.run = some (v, a) → s.xspi.polling = true → Completes .xspiPollRepeat s fun t => t.xspi = { s.xspi with polling := false } ∧
      t.out = s.out ++ [.xspi v a []] ∧ t.regs = s.regs) ∧
    (s.xspi.run = none ∨ s.f Reg.XSPI_POLL 31 16 = 0 → exec .xspiPollTimeout s = .next s) ∧
    (∀ v a, s.xspi.run = some (v, a) → bitAt v 27 = false → exec .xspiPollTimeout s = .next s) ∧
    (∀ v a, s.xspi.run = some (v, a) → bitAt v 27 = true → s.f Reg.XSPI_POLL 31 16 ≠ 0 → Completes .xspiPollTimeout s fun t => t.xspi.run = none ∧
      t.bit Reg.XSPI_STAT 1 = true ∧ t.bit Reg.XSPI_STAT 8 = false ∧ t.xspi.fifo = s.xspi.fifo ∧ SameMemory s t)

/-- REGISTER_WRITE and RC_REGISTER_READ (R2, R5, R6, R8, R9, R10, R89, R91, R403, R451, R465). A write sets the RW bits of a register at once, the shadow of a commit-group field, and clears W1C
bits where ones are written, except those that hardware sets in the same FCLK; a narrow or misaligned access answers SIZE, an unassigned block DECODE, the Allemande's own blocks PROT to
another master, a block without power OFF, each without effect on the register, and the first error response is captured; a debug access that the level does not permit
is denied; a read of an RC field returns the value before it and leaves the effect of an event alone. Every command that is a register access is such a write or read. -/
def Obligations.RegisterAccess : Prop :=
  (∀ (m : Acc) (a : Nat) (v : Word) (s : State) (T : State → Word → Nat → Bool → Prop), m.debug = false →
    (T = fun u addr code w => u.answer = ⟨code, 0⟩ ∧ u.reg Reg.MRC_ERRADDR = addr ∧ u.f Reg.MRC_ERRINFO 2 0 = code ∧ u.f Reg.MRC_ERRINFO 7 4 = m.port % 16 ∧
      u.bit Reg.MRC_ERRINFO 8 = w ∧ u.bit Reg.MRC_ERRINFO 31 = true ∧
      (∀ b, b ≠ Reg.MRC_ERRADDR → b ≠ Reg.MRC_ERRINFO → ¬ eventReg b → u.reg b = s.reg b) ∧ u.shadow = s.shadow ∧ SameMemory s u) →
    (s.bit Reg.MRC_ERRINFO 31 = false → s.targetOff a = true → (∀ size, Completes (.registerWrite m a size v 0) s fun u => T u (wd a) 6 true) ∧
      ∀ e, Completes (.rcRegisterRead m a e) s fun u => T u (wd a) 6 false) ∧
    (s.bit Reg.MRC_ERRINFO 31 = false → s.targetOff a = false → inRegs a = true →
      (∀ size, size ≠ 4 ∨ a % 4 ≠ 0 → Completes (.registerWrite m a size v 0) s fun u => T u (wd a) 7 true) ∧
      (a % 4 = 0 → regEnd ≤ a → Completes (.registerWrite m a 4 v 0) s fun u => T u (wd a) 1 true) ∧
      (a % 4 = 0 → a < regEnd → regProt m a true v = true → Completes (.registerWrite m a 4 v 0) s fun u => T u (wd a) 3 true) ∧
      (a % 4 = 0 → a < regEnd → m.alle = false → blockOf a = 20 ∨ blockOf a = 23 ∨ blockOf a = 25 → Completes (.registerWrite m a 4 v 0) s fun u => T u (wd a) 3 true) ∧
      (∀ e, a % 4 = 0 → a < regEnd → m.alle = false → blockOf a = 20 ∨ blockOf a = 25 → Completes (.rcRegisterRead m a e) s fun u => T u (wd a) 3 false) ∧
      (∀ e, a % 4 ≠ 0 → Completes (.rcRegisterRead m a e) s fun u => T u (wd a) 7 false)) ∧
    (s.bit Reg.MRC_ERRINFO 31 = true → s.targetOff a = false → inRegs a = true → a % 4 ≠ 0 → Completes (.registerWrite m a 4 v 0) s fun u => u.answer = ⟨7, 0⟩ ∧
      u.bit Reg.MRC_STAT 8 = true ∧ u.reg Reg.MRC_ERRADDR = s.reg Reg.MRC_ERRADDR ∧ u.reg Reg.MRC_ERRINFO = s.reg Reg.MRC_ERRINFO ∧ SameMemory s u) ∧
    (s.targetOff Reg.BLK_CLIPLO = false →
      Completes (.registerWrite m Reg.BLK_CLIPLO 4 v 0) s (fun u => u.answer = ⟨0, 0⟩ ∧ u.reg Reg.BLK_CLIPLO = v ∧ SameRegsBut (fun b => b = Reg.BLK_CLIPLO) s u ∧ SameMemory s u) ∧
      Completes (.registerWrite m Reg.EVR_RL 4 v 0) s (fun u => u.answer = ⟨0, 0⟩ ∧ u.f Reg.EVR_RL 2 0 = fld v 2 0 ∧ u.f Reg.EVR_RL 31 16 = fld v 31 16 ∧
        u.f Reg.EVR_RL 15 3 = s.f Reg.EVR_RL 15 3 ∧ SameRegsBut (fun b => b = Reg.EVR_RL) s u ∧ SameMemory s u) ∧
      (∀ set : Word, Completes (.registerWrite m Reg.EVR_STAT 4 v set) s fun u => u.reg Reg.EVR_STAT = (s.reg Reg.EVR_STAT &&& ~~~(v &&& 7)) ||| (set &&& 7) ∧
        SameRegsBut (fun b => b = Reg.EVR_STAT) s u ∧ SameMemory s u) ∧
      Completes (.registerWrite m Reg.QDL_BRIGHT 4 v 0) s (fun u => fld (u.shd Reg.QDL_BRIGHT) 15 0 = fld v 15 0 ∧ u.f Reg.QDL_BRIGHT 15 0 = s.f Reg.QDL_BRIGHT 15 0 ∧
        SameRegsBut (fun b => b = Reg.QDL_BRIGHT) s u ∧ SameMemory s u) ∧
      (∀ e : Word, Completes (.rcRegisterRead m Reg.QDL_HOLDS e) s fun u => u.answer = ⟨0, s.reg Reg.QDL_HOLDS⟩ ∧ u.f Reg.QDL_HOLDS 15 0 = fld e 15 0 ∧
        SameRegsBut (fun b => b = Reg.QDL_HOLDS) s u ∧ SameMemory s u))) ∧
  (∀ (m : Acc) (a size : Nat) (v set : Word) (s t : State) (c : Nat), s.busWrite m a (leBytes size v.toNat) = (c, t) →
    exec (.registerWrite m a size v set) s = .next ((if s.targetOff a then t else t.setWins a set).reply c 0) ∧
    (∀ (r : RegRow) (i : Nat), RegMap.find a = some (r, i) → (t.setWins a set).reg a = t.reg a ||| (set &&& r.w1c)) ∧
    (∀ b, b ≠ a → (t.setWins a set).reg b = t.reg b) ∧ SameMemory t (t.setWins a set)) ∧
  (∀ (m : Acc) (a : Nat) (v : Word) (s : State), m.debug = false ∨ s.debugAllows a true = true → s.targetOff a = false →
    (inRegs a = true → a % 4 = 0 → a < regEnd → regProt m a true v = false → s.busWrite m a (leBytes 4 v.toNat) = (0, s.regWrite m a v)) ∧
    (∀ bs : List Byte, inRegs a = false → State.memProt m a true = true → s.busWrite m a bs = (3, s.errResponse m.port a 3 true)) ∧
    (∀ bs : List Byte, inRegs a = false → State.memProt m a true = false → s.busWrite m a bs = s.memWrite m.port a bs)) ∧
  (∀ (m : Acc) (a : Nat) (e : Word) (s t : State), t = s.askRead m a →
    (m.debug = true ∨ t.answer.code ≠ 0 ∨ RegMap.find a = none → exec (.rcRegisterRead m a e) s = .next t) ∧
    (∀ (r : RegRow) (i : Nat), m.debug = false → t.answer.code = 0 → RegMap.find a = some (r, i) →
      exec (.rcRegisterRead m a e) s = .next (t.setReg a (t.reg a ||| (e &&& r.rc))))) ∧
  (∀ (m : Acc) (s : State) (v : Word) (x : Nat) (b : Fin 32) (sl : Fin 12) (e : Fin 8) (d : BitVec 16) (bo : Bool) (p2 : Fin 2) (k : Fin 10) (q : Fin 256) (n : Fin 16) (p3 : Fin 3) (p4 : Fin 4),
    (∀ w ∈ [
      (Instr.beamRun m x, Reg.BEAM_CTRL, (wd (1 + 2 * (x % 4)))), (.beamStopRequest m x, Reg.BEAM_CTRL, (wd (2 * (x % 4)))),
      (.cotCommit m v, Reg.COT_COMMIT, v), (.mrcCepolWrite m v, Reg.MRC_CEPOL, v), (.mrcReqPreserving m b, Reg.MRC_REQ, (wd (512 + b.val))),
      (.mrcReqDestroying m b, Reg.MRC_REQ, (wd (768 + b.val))), (.qdlEnable m, Reg.QDL_CTRL, 1), (.qdlDisable m, Reg.QDL_CTRL, 0),
      (.layerFenceSignal m sl, (Reg.LAYn_FENCE sl.val), (wd (1 + 2 * s.f (Reg.LAYn_FENCE sl.val) 1 1))), (.qdlLanepolWrite m v, Reg.QDL_LANEPOL, v),
      (.engineFaultClear m e, (Reg.MNT_ENGe_STAT e.val), 0x400), (.gflagSet m v, Reg.MNT_GFLAG, v), (.gflagClear m v, Reg.MNT_GFCLR, v),
      (.beamStoreWrite m x v, (0x21000000 + x % 0x40000), v), (.blankRequest m v, Reg.PNL_BLANK, v), (.pnlCmdCfg m, Reg.PNL_CMDQ, 5),
      (.pnlCmdGain m d, Reg.PNL_CMDQ, (wd (6 + 2 ^ 16 * d.toNat))), (.pnlCmdUser m d, Reg.PNL_CMDQ, (wd (7 + 2 ^ 16 * d.toNat))),
      (.pnlMapdata m true v, Reg.PNL_MAPDATA, v), (.pavaneRequest m v, Reg.SIG_PAVREQ, v), (.pavaneExitRequest m v, Reg.SIG_PAVSTAT, v),
      (.keyOn m p2 v, (Reg.SND_KEYONx p2.val), v), (.keyOff m p2 v, (Reg.SND_KEYOFFx p2.val), v), (.nodeWrite m v, Reg.SND_NODEW, v),
      (.biquadCoefWrite m b k v, (Reg.SNDo_BQk_c b.val k.val 4), v), (.objMute m v, Reg.OBJ_MUTE, v), (.akethEpolWrite m p2 v, (Reg.AKx_EPOL p2.val), v),
      (.akethRetrain m p2, (Reg.AKx_CTRL p2.val), (wd (2 + s.f (Reg.AKx_CTRL p2.val) 0 0))),
      (.akethLaneRetry m p2, (Reg.AKx_CTRL p2.val), (wd (4 + s.f (Reg.AKx_CTRL p2.val) 0 0))),
      (.akethRekey m p2, (Reg.AKx_CTRL p2.val), (wd (8 + s.f (Reg.AKx_CTRL p2.val) 0 0))), (.blkPush m v, Reg.BLK_PUSH, v),
      (.blkErrorClear m v, Reg.BLK_STAT, v), (.irqRaise m v, Reg.IRQ_RAISE, v), (.irqClr m v, Reg.IRQ_CLR, v), (.irqFbWrite m q v, (Reg.IRQ_SRCs q.val), v),
      (.irqCoalCfgWrite m n v, (Reg.IRQ_COALk_CFG n.val), v), (.tmrCntWrite m n v, (Reg.TMRn_CNT n.val), v), (.wdgEnable m p3 v, (wdgReg p3.val 0), v),
      (.wdgKey m p3 v, (wdgReg p3.val 0xC), v), (.clkSwrst m v, Reg.CLK_SWRST, v), (.gvRelease m v, Reg.CLK_GVCTL, v),
      (.verify m p4, Reg.IMG_CMD, (wd (1 + 512 * p4.val))), (.ssverify m, Reg.IMG_CMD, 2), (.imgCmdSwap m bo, Reg.IMG_CMD, (wd (3 + 256 * b2n bo))),
      (.cancel m, Reg.IMG_CMD, 4), (.load m p4, Reg.IMG_CMD, (wd (5 + 512 * p4.val))),
      (.imgSessionWrite m bo v, (if bo then Reg.IMG_STGBASE else Reg.IMG_SESSION), v), (.imgUcload m v, Reg.IMG_UCLOAD, v),
      (.imgUcswap m v, Reg.IMG_UCSWAP, v), (.mgtMbinrel m v, Reg.MGT_MBINREL, v), (.mgtMbsend m v, Reg.MGT_MBSEND, v), (.mgtHsnap m v, Reg.MGT_HSNAP, v),
      (.evrTimeWrite m bo v, (if bo then Reg.EVR_PCYC else Reg.EVR_SECS), v), (.evrCurctl m v, Reg.EVR_CURCTL, v),
      (.evrLogGo m p3 v, (Reg.EVR_LOGt_GO p3.val), v), (.lcadv m, Reg.SEC_CMD, 1), (.ownkey m, Reg.SEC_CMD, 2), (.revoke m, Reg.SEC_CMD, 3),
      (.dbgkey m, Reg.SEC_CMD, 4), (.svnset m, Reg.SEC_CMD, 5), (.fleetload m, Reg.SEC_CMD, 6), (.fleetzero m, Reg.SEC_CMD, 7), (.dbgdrop m, Reg.SEC_CMD, 8),
      (.secTclr m v, Reg.SEC_TCLR, v), (.dbgChal m x, Reg.DBG_AUTHCTL, (wd (256 + x % 256))), (.dbgVerify m, Reg.DBG_AUTHCTL, 512),
      (.dbgHalt m p3, (Reg.DBG_Cc_CTRL p3.val), ((s.reg (Reg.DBG_Cc_CTRL p3.val) &&& 0x1C) ||| 1)),
      (.dbgRun m p3, (Reg.DBG_Cc_CTRL p3.val), ((s.reg (Reg.DBG_Cc_CTRL p3.val) &&& 0x1C) ||| 2)), (.dbgRegdata m p3 true v, (Reg.DBG_Cc_REGDATA p3.val), v),
      (.dbgLdata m p3 true v, (Reg.DBG_Cc_LDATA p3.val), v), (.dbgDrxWrite m p3 v, (Reg.DBG_Cc_DRX p3.val), v),
      (.dbgTxfullAck m p3, (Reg.DBG_Cc_VT p3.val), 1), (.pinRelease m, Reg.PIN_CTRL, 1), (.pinLock m v, Reg.PIN_LOCK, v),
      (.ci3cPrivateWrite m v, Reg.CI3C_CMD, (ci3cKind 0 v)), (.ci3cPrivateRead m v, Reg.CI3C_CMD, (ci3cKind 1 v)),
      (.ci3cBroadcastCcc m v, Reg.CI3C_CMD, (ci3cKind 2 v)), (.ci3cDirectCcc m v, Reg.CI3C_CMD, (ci3cKind 3 v)),
      (.ci3cEntdaa m v, Reg.CI3C_CMD, (ci3cKind 4 v)), (.ci3cHdrWrite m v, Reg.CI3C_CMD, (ci3cKind 5 v)), (.ci3cHdrRead m v, Reg.CI3C_CMD, (ci3cKind 6 v)),
      (.ci3cI2cWrite m v, Reg.CI3C_CMD, (ci3cKind 7 v)), (.ci3cI2cRead m v, Reg.CI3C_CMD, (ci3cKind 8 v)),
      (.xspiCommand m v, Reg.XSPI_CMD, (putBit v 27 false)), (.xspiPoll m v, Reg.XSPI_CMD, (putBit v 27 true)), (.xspiData m true v, Reg.XSPI_DATA, v),
      (.xspiFlush m, Reg.XSPI_CTRL, (wd (2 + s.f Reg.XSPI_CTRL 0 0)))],
      exec w.1 s = .next (s.askWrite m w.2.1 w.2.2)) ∧
    (∀ r ∈ [
      (Instr.beamPosRead m, Reg.BEAM_POS), (.pnlMapdata m false v, Reg.PNL_MAPDATA), (.sndKloRead m, Reg.SND_KLO), (.tmrCntRead m n, (Reg.TMRn_CNT n.val)),
      (.clkUploRead m, Reg.CLK_UPLO), (.evrWin7Read m, (Reg.EVR_WINw 7)), (.dbgRegdata m p3 false v, (Reg.DBG_Cc_REGDATA p3.val)),
      (.dbgLdata m p3 false v, (Reg.DBG_Cc_LDATA p3.val)), (.ci3cRxdRead m bo, (if bo then Reg.CI3C_IBIQ else Reg.CI3C_RXD)),
      (.xspiData m false v, Reg.XSPI_DATA)],
      exec r.1 s = .next (s.askRead m r.2))) ∧
  (∀ (m : Acc) (a : Nat) (v : Word) (s : State),
    (m.debug = true → s.debugAllows a true = false → s.askWrite m a v = s.denied.reply 8 0 ∧ s.denied.bit Reg.DBG_STAT 0 = true ∧ SameMemory s s.denied) ∧
    (m.debug = true → s.debugAllows a false = false → s.askRead m a = s.denied.reply 8 0) ∧
    (m.debug = false ∨ s.debugAllows a true = true → s.targetOff a = true → s.askWrite m a v = s.replyErr m.port a 6 true) ∧
    (m.debug = false ∨ s.debugAllows a false = true → s.targetOff a = true → s.askRead m a = s.replyErr m.port a 6 false) ∧
    (m.debug = false ∨ s.debugAllows a true = true → s.targetOff a = false → inRegs a = true → a % 4 = 0 → a < regEnd →
      (regProt m a true v = true → s.askWrite m a v = s.replyErr m.port a 3 true) ∧
      (regProt m a true v = false → s.askWrite m a v = (s.regWrite m a v).reply 0 0)) ∧
    (m.debug = false ∨ s.debugAllows a false = true → s.targetOff a = false → inRegs a = true → a % 4 = 0 → a < regEnd →
      (regProt m a false 0 = true → s.askRead m a = s.replyErr m.port a 3 false) ∧
      (regProt m a false 0 = false → ∀ (w : Word) (t : State), s.regRead m a = (w, t) → s.askRead m a = t.reply 0 w)))

/-- RC_REGISTER_READ (R10). A read without the debug attribute of a register with RC fields, that the reader may reach, returns the fields as they
were before the event of the same FCLK, and the fields then hold the effect of the event alone; no other register and no byte of memory changes. -/
def Obligations.ClearingReads : Prop :=
  ∀ (m : Acc) (a : Nat) (e : Word) (s : State) (r : RegRow) (i : Nat), RegMap.find a = some (r, i) → r.rc ≠ 0 → MayRead m a → s.targetOff a = false →
    Completes (.rcRegisterRead m a e) s fun t => t.answer.code = 0 ∧ t.answer.data &&& r.rc = s.reg a &&& r.rc ∧ t.reg a &&& r.rc = e &&& r.rc ∧
      SameRegsBut (fun b => b = a) s t ∧ SameMemory s t

/-- The identification registers (R2). Every master reads 0x880 from SYS_PARTID, 0xB0 from SYS_REV and 1 to 3, by the variant, from SYS_VARIANT, in every
state but DEEP, in which the block has no power; a write of them is ignored without a fault. -/
def Obligations.IdentificationRegisters : Prop :=
  ∀ (m : Acc) (e v : Word) (s : State), m.debug = false → s.targetOff Reg.SYS_PARTID = false →
    Completes (.rcRegisterRead m Reg.SYS_PARTID e) s (fun u => u.answer = ⟨0, 0x880⟩ ∧ SameRegsBut (fun _ => False) s u ∧ SameMemory s u) ∧
    Completes (.rcRegisterRead m Reg.SYS_REV e) s (fun u => u.answer = ⟨0, 0xB0⟩ ∧ SameRegsBut (fun _ => False) s u ∧ SameMemory s u) ∧
    Completes (.rcRegisterRead m Reg.SYS_VARIANT e) s (fun u => u.answer = ⟨0, wd (Config.variant.val + 1)⟩ ∧ SameRegsBut (fun _ => False) s u ∧ SameMemory s u) ∧
    ∀ a, a = Reg.SYS_PARTID ∨ a = Reg.SYS_REV ∨ a = Reg.SYS_VARIANT →
      Completes (.registerWrite m a 4 v 0) s fun u => u.answer = ⟨0, 0⟩ ∧ SameRegsBut (fun _ => False) s u ∧ SameMemory s u

/-- A step with a command waiting runs the command at the front of the queue on the rest of the queue. -/
def Obligations.StepRunsTheFrontCommand : Prop :=
  ∀ (c : Instr) (rest : List Instr) (s : State), s.pending = c :: rest → step s = exec c { s with pending := rest }

/-- A step with no command waiting is one FCLK (the model's choice, log 1): the cycle count grows by one, memory stays, and a beam that stands still stands still; a
running beam within a line moves to the next dot when the dot's time has passed (R11, R527). -/
def Obligations.IdleStepIsOneCycle : Prop :=
  ∀ s : State, s.pending = [] → ∃ t, step s = .next t ∧ t.pending = [] ∧ t.pwr.fclk = s.pwr.fclk + 1 ∧ SameMemory s t ∧ t.out = s.out ∧ t.fresh = s.fresh ∧
    t.shadow = s.shadow ∧ (∀ c, c < 3 → (t.core c).g = (s.core c).g ∧ (t.core c).pc = (s.core c).pc ∧ (t.core c).run = (s.core c).run) ∧
    (s.running = false ∨ s.frozen = true ∨ 4 ≤ s.pwr.state ∨ s.pwr.released = false → t.beam = s.beam) ∧
    (s.running = true → s.frozen = false → s.pwr.state < 4 → s.pwr.released = true → s.periodPs ≤ s.beam.dotAcc + 1000 * s.frameDots →
      s.beam.pos.dot + 1 < s.dots → t.beam.pos = { s.beam.pos with dot := s.beam.pos.dot + 1 } ∧
        t.beam.dotAcc = s.beam.dotAcc + 1000 * s.frameDots - s.periodPs ∧ t.beam.frame = s.beam.frame)

/-- The state after reset (R7, R22, R310, R411, R525): every register reads its reset value, the memories are zero, the queue is empty, the beam stands at 0:0 of frame 0, the cores
are held, the start-up march runs, and every store is in its canonical form. -/
def Obligations.ResetState : Prop :=
  State.reset.canonical = true ∧ State.reset.pending = [] ∧ (∀ a, State.reset.reg a = RegMap.resetOf a) ∧ (∀ k, State.reset.byte k = 0) ∧
  State.reset.beam.frame = 0 ∧ State.reset.beam.pos = ⟨0, 0, 0⟩ ∧ State.reset.running = false ∧ State.reset.lock = 0 ∧
  (∀ c, c < 3 → (State.reset.core c).run = .held ∧ (State.reset.core c).g = List.replicate 16 0 ∧ (State.reset.core c).st = 0) ∧
  State.reset.fab.marching = true ∧ State.reset.frozen = false ∧
  RegMap.resetOf Reg.SYS_PARTID = 0x880 ∧ RegMap.resetOf Reg.SYS_REV = 0xB0 ∧ RegMap.resetOf Reg.MRC_SCRUB = 0x40 ∧ RegMap.resetOf Reg.QDL_BRIGHT = 0x8000 ∧
  RegMap.resetOf Reg.EVR_RL = 0x09C40003 ∧ RegMap.resetOf Reg.BLK_CLIPLO = 0x10000000 ∧ RegMap.resetOf Reg.XSPI_CFG = 0x01030013 ∧
  RegMap.resetOf (Reg.PIN_GPn_CFG 0) = 0x100 ∧ RegMap.resetOf (Reg.PIN_GPn_CFG 47) = 0x100 ∧ RegMap.resetOf (Reg.CI3C_RATE) = 7

/-- Every command completes in every state: none faults, and only a UOP that meets a word of the vendor's routines, whose effect the spec does not give, is refused (R349). -/
def Obligations.EveryCommandCompletes : Prop :=
  ∀ (c : Instr) (s : State), (∃ t, exec c s = .next t) ∨
    ∃ (k : Fin 3) (n : Fin 64) (rd ra rb : Fin 16) (imm : BitVec 8), c = .gvUop k n rd ra rb imm ∧ s.boundary k.val = true ∧ exec c s = .refused .vendorMicroword

/-- No step takes the memory out of its canonical form: from every state in which no address is listed twice or out of order and none holds what an unlisted one reads
as, a step that answers a next state answers one of which the same is true. -/
def Obligations.StepsKeepMemoryCanonical : Prop :=
  ∀ s t : State, Sparse.wf memDefault s.mem = true → step s = .next t → Sparse.wf memDefault t.mem = true
end

