-- ==== Sys2Proof/Laws/Bits.lean ====
section
/-! SUPPORT. What bit fields read as after they are written. -/

namespace Sys2Proof.Machine

theorem getLsbD_powTwo (i j : Nat) : (BitVec.ofNat 32 (2 ^ i)).getLsbD j = (decide (j < 32) && decide (i = j)) := by
  rw [BitVec.getLsbD_ofNat, Nat.testBit_two_pow]

theorem getLsbD_putBit (w : Word) (i j : Nat) (b : Bool) :
    (putBit w i b).getLsbD j = if decide (j < 32) && decide (i = j) then b else w.getLsbD j := by
  have hw : ¬ j < 32 → w.getLsbD j = false := fun h => BitVec.getLsbD_of_ge w j (by omega)
  cases b <;> simp only [putBit, Bool.false_eq_true, if_false, if_true, BitVec.getLsbD_or, BitVec.getLsbD_and, BitVec.getLsbD_not,
    getLsbD_powTwo] <;> by_cases h : j < 32 <;> by_cases hi : i = j <;> simp [h, hi, hw]

@[simp] theorem bitAt_putBit_same (w : Word) (i : Nat) (b : Bool) (h : i < 32) : bitAt (putBit w i b) i = b := by
  unfold bitAt; rw [getLsbD_putBit]; simp [h]

theorem bitAt_putBit_ne (w : Word) {i j : Nat} (b : Bool) (h : j ≠ i) : bitAt (putBit w i b) j = bitAt w j := by
  simp [bitAt, getLsbD_putBit, Ne.symm h]

theorem bitAt_setFld_out (w : Word) {hi lo v j : Nat} (h : j < lo ∨ hi < j) (hlo : lo ≤ hi + 1) :
    bitAt (setFld w hi lo v) j = bitAt w j := by
  by_cases hj : j < 32
  · simp only [bitAt, setFld, fmask, BitVec.getLsbD_or, BitVec.getLsbD_and, BitVec.getLsbD_not, hj, decide_true, Bool.true_and,
      BitVec.getLsbD_ofNat, Nat.testBit_shiftLeft, Nat.testBit_two_pow_sub_one, Nat.testBit_mod_two_pow]
    rcases h with h | h
    · simp [show ¬ lo ≤ j by omega]
    · simp [show ¬ j - lo < hi + 1 - lo by omega]
  · simp [bitAt, BitVec.getLsbD_of_ge _ j (by omega : 32 ≤ j)]

theorem testBit_fld (w : Word) (hi lo i : Nat) :
    (fld w hi lo).testBit i = (decide (i < hi + 1 - lo) && w.getLsbD (lo + i)) := by
  simp [fld, Nat.testBit_mod_two_pow, Nat.testBit_shiftRight, BitVec.getLsbD]

/-- A field reads as what was written to it. -/
@[simp] theorem fld_setFld_same (w : Word) {hi lo v : Nat} (h : hi < 32) :
    fld (setFld w hi lo v) hi lo = v % 2 ^ (hi + 1 - lo) := by
  apply Nat.eq_of_testBit_eq
  intro i
  rw [testBit_fld]
  by_cases hi' : i < hi + 1 - lo
  · have h32 : lo + i < 32 := by omega
    simp only [setFld, fmask, BitVec.getLsbD_or, BitVec.getLsbD_and, BitVec.getLsbD_not, BitVec.getLsbD_ofNat, h32, decide_true,
      Bool.true_and, Nat.testBit_shiftLeft, Nat.testBit_two_pow_sub_one, Nat.testBit_mod_two_pow]
    simp [hi']
  · simp [hi', Nat.testBit_mod_two_pow]

/-- A write of one field leaves another alone. -/
theorem fld_setFld_out (w : Word) {hi lo v hi' lo' : Nat} (h : hi' < lo ∨ hi < lo') (hlo : lo ≤ hi + 1) :
    fld (setFld w hi lo v) hi' lo' = fld w hi' lo' := by
  apply Nat.eq_of_testBit_eq
  intro i
  rw [testBit_fld, testBit_fld]
  by_cases hi'' : i < hi' + 1 - lo'
  · have := bitAt_setFld_out w (v := v) (j := lo' + i) (hi := hi) (lo := lo) (by omega) hlo
    simp only [bitAt] at this
    rw [this]
  · simp [hi'']

theorem fld_putBit_out (w : Word) {hi lo i : Nat} (b : Bool) (h : i < lo ∨ hi < i) : fld (putBit w i b) hi lo = fld w hi lo := by
  apply Nat.eq_of_testBit_eq
  intro j
  rw [testBit_fld, testBit_fld]
  by_cases hj : j < hi + 1 - lo
  · have := bitAt_putBit_ne w (j := lo + j) (i := i) b (by omega)
    simp only [bitAt] at this
    rw [this]
  · simp [hj]

theorem fld_lt (w : Word) (hi lo : Nat) : fld w hi lo < 2 ^ (hi + 1 - lo) := Nat.mod_lt _ (Nat.two_pow_pos _)

@[simp] theorem length_leBytes (n v : Nat) : (leBytes n v).length = n := by
  induction n generalizing v with
  | zero => rfl
  | succ n ih => simp [leBytes, ih]

/-- The bytes of a number spell it again. -/
@[simp] theorem leNat_leBytes (n v : Nat) : leNat (leBytes n v) = v % 256 ^ n := by
  induction n generalizing v with
  | zero => simp [leBytes, leNat, Nat.mod_one]
  | succ n ih =>
    simp only [leBytes, leNat, ih, BitVec.toNat_ofNat]
    rw [show 256 ^ (n + 1) = 256 * 256 ^ n from Nat.pow_succ', Nat.mod_mul]

end Sys2Proof.Machine
end

