-- ==== Sys2Proof/Laws/Store.lean ====
section
/-! SUPPORT. What reading and writing sparse data does, and that each way of changing it keeps the canonical form. -/

namespace Sys2Proof

variable {α : Type}

theorem Sparse.get_cons (d : Nat → α) (j : Nat) (v : α) (l : List (Nat × α)) (k : Nat) :
    Sparse.get d ((j, v) :: l) k = if j = k then v else Sparse.get d l k := rfl

theorem Sparse.get_filter_keep (d : Nat → α) (p : Nat × α → Bool) (k : Nat) (h : ∀ v, p (k, v) = true) (l : List (Nat × α)) :
    Sparse.get d (l.filter p) k = Sparse.get d l k := by
  induction l with
  | nil => rfl
  | cons e l ih =>
    obtain ⟨j, v⟩ := e
    by_cases hj : j = k
    · subst hj; simp [h, Sparse.get_cons]
    · by_cases hp : p (j, v) = true <;> simp [hp, Sparse.get_cons, hj, ih]

theorem Sparse.get_filter_drop (d : Nat → α) (p : Nat × α → Bool) (k : Nat) (h : ∀ v, p (k, v) = false) (l : List (Nat × α)) :
    Sparse.get d (l.filter p) k = d k := by
  induction l with
  | nil => rfl
  | cons e l ih =>
    obtain ⟨j, v⟩ := e
    by_cases hj : j = k
    · subst hj; simp [h, ih]
    · by_cases hp : p (j, v) = true <;> simp [hp, Sparse.get_cons, hj, ih]

theorem Sparse.get_erase_same (d : Nat → α) (k : Nat) (l : List (Nat × α)) : Sparse.get d (Sparse.erase k l) k = d k :=
  Sparse.get_filter_drop d _ k (by simp) l

theorem Sparse.get_erase_ne (d : Nat → α) {j k : Nat} (h : k ≠ j) (l : List (Nat × α)) :
    Sparse.get d (Sparse.erase j l) k = Sparse.get d l k :=
  Sparse.get_filter_keep d _ k (by simp [h]) l

theorem Sparse.get_insert_ne (d : Nat → α) {j k : Nat} (h : k ≠ j) (v : α) (l : List (Nat × α)) :
    Sparse.get d (Sparse.insert j v l) k = Sparse.get d l k := by
  have h' : ¬ j = k := fun e => h e.symm
  induction l with
  | nil => simp [Sparse.insert, Sparse.get, h']
  | cons e l ih =>
    obtain ⟨i, w⟩ := e
    by_cases hi : j < i <;> simp [Sparse.insert, hi, Sparse.get_cons, h', ih]

theorem Sparse.get_insert_same (d : Nat → α) (k : Nat) (v : α) (l : List (Nat × α)) (h : ∀ e ∈ l, e.1 ≠ k) :
    Sparse.get d (Sparse.insert k v l) k = v := by
  induction l with
  | nil => simp [Sparse.insert, Sparse.get]
  | cons e l ih =>
    obtain ⟨i, w⟩ := e
    have hi : i ≠ k := h (i, w) (by simp)
    by_cases hk : k < i
    · simp [Sparse.insert, hk, Sparse.get_cons]
    · simp [Sparse.insert, hk, Sparse.get_cons, hi, ih (fun e he => h e (by simp [he]))]

variable [DecidableEq α]

/-- A read of the key written gives the value written. -/
@[simp] theorem Sparse.get_set_same (d : Nat → α) (l : List (Nat × α)) (k : Nat) (v : α) :
    Sparse.get d (Sparse.set d l k v) k = v := by
  unfold Sparse.set
  split
  · rename_i h; rw [Sparse.get_erase_same, h]
  · exact Sparse.get_insert_same d k v _ (by intro e he; simpa using (List.mem_filter.mp he).2)

/-- A write leaves every other key alone. -/
theorem Sparse.get_set_ne (d : Nat → α) (l : List (Nat × α)) {j k : Nat} (h : k ≠ j) (v : α) :
    Sparse.get d (Sparse.set d l j v) k = Sparse.get d l k := by
  unfold Sparse.set
  split
  · exact Sparse.get_erase_ne d h l
  · rw [Sparse.get_insert_ne d h, Sparse.get_erase_ne d h]

theorem Sparse.get_set (d : Nat → α) (l : List (Nat × α)) (j k : Nat) (v : α) :
    Sparse.get d (Sparse.set d l j v) k = if k = j then v else Sparse.get d l k := by
  by_cases h : k = j
  · subst h; simp
  · simp [h, Sparse.get_set_ne d l h v]

/-! The canonical form. -/

theorem Sparse.wfFrom_weaken (d : Nat → α) (l : List (Nat × α)) (i : Option Nat) (h : Sparse.wfFrom d i l = true) :
    Sparse.wfFrom d none l = true := by
  cases l with
  | nil => rfl
  | cons e l => obtain ⟨j, v⟩ := e; simp [Sparse.wfFrom] at h ⊢; exact ⟨h.1.2, h.2⟩

theorem Sparse.wfFrom_lower (d : Nat → α) (l : List (Nat × α)) {i j : Nat} (hij : i < j) (h : Sparse.wfFrom d (some j) l = true) :
    Sparse.wfFrom d (some i) l = true := by
  cases l with
  | nil => rfl
  | cons e l => obtain ⟨k, v⟩ := e; simp [Sparse.wfFrom] at h ⊢; exact ⟨⟨by omega, h.1.2⟩, h.2⟩

theorem Sparse.wfFrom_filter (d : Nat → α) (p : Nat × α → Bool) (l : List (Nat × α)) (i : Option Nat)
    (h : Sparse.wfFrom d i l = true) : Sparse.wfFrom d i (l.filter p) = true := by
  induction l generalizing i with
  | nil => simpa using h
  | cons e l ih =>
    obtain ⟨j, v⟩ := e
    simp [Sparse.wfFrom] at h
    by_cases hp : p (j, v) = true
    · simp [hp, Sparse.wfFrom, h.1, ih _ h.2]
    · simp only [List.filter_cons, hp]
      cases i with
      | none => exact ih _ (Sparse.wfFrom_weaken d l _ h.2)
      | some i => exact ih _ (Sparse.wfFrom_lower d l (by simpa using h.1.1) h.2)

theorem Sparse.wfFrom_insert (d : Nat → α) (k : Nat) (v : α) (hv : v ≠ d k) (l : List (Nat × α)) (i : Option Nat)
    (hi : ∀ j, i = some j → j < k) (hk : ∀ e ∈ l, e.1 ≠ k) (h : Sparse.wfFrom d i l = true) :
    Sparse.wfFrom d i (Sparse.insert k v l) = true := by
  induction l generalizing i with
  | nil => cases i <;> simp_all [Sparse.insert, Sparse.wfFrom]
  | cons e l ih =>
    obtain ⟨j, w⟩ := e
    have hj : j ≠ k := hk (j, w) (by simp)
    simp [Sparse.wfFrom] at h
    by_cases hlt : k < j
    · cases i <;> simp_all [Sparse.insert, Sparse.wfFrom]
    · have := ih (some j) (by intro m hm; simp at hm; omega) (fun e he => hk e (by simp [he])) h.2
      simp [Sparse.insert, hlt, Sparse.wfFrom, h.1, this]

theorem Sparse.wf_filter (d : Nat → α) (p : Nat × α → Bool) {l : List (Nat × α)} (h : Sparse.wf d l = true) :
    Sparse.wf d (l.filter p) = true := Sparse.wfFrom_filter d p l none h

/-- A write keeps the canonical form. -/
theorem Sparse.wf_set (d : Nat → α) {l : List (Nat × α)} (k : Nat) (v : α) (h : Sparse.wf d l = true) :
    Sparse.wf d (Sparse.set d l k v) = true := by
  unfold Sparse.set
  split
  · exact Sparse.wf_filter d _ h
  · rename_i hv
    exact Sparse.wfFrom_insert d k v hv _ none (by simp) (by intro e he; simpa using (List.mem_filter.mp he).2)
      (Sparse.wf_filter d _ h)

theorem Sparse.wf_setAll (d : Nat → α) (src : List (Nat × α)) {l : List (Nat × α)} (h : Sparse.wf d l = true) :
    Sparse.wf d (Sparse.setAll d l src) = true := by
  unfold Sparse.setAll
  induction src with
  | nil => exact h
  | cons e src ih => exact Sparse.wf_set d _ _ ih

/-- A key that `src` lists reads as there, any other as before. -/
theorem Sparse.get_setAll (d : Nat → α) (dst src : List (Nat × α)) (k : Nat) :
    Sparse.get d (Sparse.setAll d dst src) k = if k ∈ src.map (·.1) then Sparse.get d src k else Sparse.get d dst k := by
  induction src with
  | nil => rfl
  | cons e src ih =>
    obtain ⟨j, v⟩ := e
    by_cases h : k = j
    · subst h; simp [Sparse.setAll, Sparse.get_cons]
    · have h' : ¬ j = k := fun e => h e.symm
      simp only [Sparse.setAll, List.foldr_cons] at ih ⊢
      rw [Sparse.get_set_ne d _ h, ih]
      simp only [List.map_cons, List.mem_cons, h, false_or, Sparse.get_cons, h', if_false]

end Sys2Proof
end

