-- ==== Sys2Proof/Laws/State.lean ====
section
/-! SUPPORT. What each named update of the state leaves in each field, and what registers and memory read as after it. -/

namespace Sys2Proof.Machine

@[simp] theorem State.shadow_setReg (s : State) (a : Nat) (v : Word) : (s.setReg a v).shadow = s.shadow := rfl
@[simp] theorem State.latched_setReg (s : State) (a : Nat) (v : Word) : (s.setReg a v).latched = s.latched := rfl
@[simp] theorem State.mem_setReg (s : State) (a : Nat) (v : Word) : (s.setReg a v).mem = s.mem := rfl
@[simp] theorem State.answer_setReg (s : State) (a : Nat) (v : Word) : (s.setReg a v).answer = s.answer := rfl
@[simp] theorem State.fresh_setReg (s : State) (a : Nat) (v : Word) : (s.setReg a v).fresh = s.fresh := rfl
@[simp] theorem State.out_setReg (s : State) (a : Nat) (v : Word) : (s.setReg a v).out = s.out := rfl
@[simp] theorem State.beam_setReg (s : State) (a : Nat) (v : Word) : (s.setReg a v).beam = s.beam := rfl
@[simp] theorem State.fab_setReg (s : State) (a : Nat) (v : Word) : (s.setReg a v).fab = s.fab := rfl
@[simp] theorem State.qdl_setReg (s : State) (a : Nat) (v : Word) : (s.setReg a v).qdl = s.qdl := rfl
@[simp] theorem State.mnt_setReg (s : State) (a : Nat) (v : Word) : (s.setReg a v).mnt = s.mnt := rfl
@[simp] theorem State.pnl_setReg (s : State) (a : Nat) (v : Word) : (s.setReg a v).pnl = s.pnl := rfl
@[simp] theorem State.sig_setReg (s : State) (a : Nat) (v : Word) : (s.setReg a v).sig = s.sig := rfl
@[simp] theorem State.snd_setReg (s : State) (a : Nat) (v : Word) : (s.setReg a v).snd = s.snd := rfl
@[simp] theorem State.obj_setReg (s : State) (a : Nat) (v : Word) : (s.setReg a v).obj = s.obj := rfl
@[simp] theorem State.link_setReg (s : State) (a : Nat) (v : Word) : (s.setReg a v).link = s.link := rfl
@[simp] theorem State.gv_setReg (s : State) (a : Nat) (v : Word) : (s.setReg a v).gv = s.gv := rfl
@[simp] theorem State.blk_setReg (s : State) (a : Nat) (v : Word) : (s.setReg a v).blk = s.blk := rfl
@[simp] theorem State.reel_setReg (s : State) (a : Nat) (v : Word) : (s.setReg a v).reel = s.reel := rfl
@[simp] theorem State.irq_setReg (s : State) (a : Nat) (v : Word) : (s.setReg a v).irq = s.irq := rfl
@[simp] theorem State.pwr_setReg (s : State) (a : Nat) (v : Word) : (s.setReg a v).pwr = s.pwr := rfl
@[simp] theorem State.img_setReg (s : State) (a : Nat) (v : Word) : (s.setReg a v).img = s.img := rfl
@[simp] theorem State.evr_setReg (s : State) (a : Nat) (v : Word) : (s.setReg a v).evr = s.evr := rfl
@[simp] theorem State.mgt_setReg (s : State) (a : Nat) (v : Word) : (s.setReg a v).mgt = s.mgt := rfl
@[simp] theorem State.sec_setReg (s : State) (a : Nat) (v : Word) : (s.setReg a v).sec = s.sec := rfl
@[simp] theorem State.dbg_setReg (s : State) (a : Nat) (v : Word) : (s.setReg a v).dbg = s.dbg := rfl
@[simp] theorem State.pin_setReg (s : State) (a : Nat) (v : Word) : (s.setReg a v).pin = s.pin := rfl
@[simp] theorem State.hi3c_setReg (s : State) (a : Nat) (v : Word) : (s.setReg a v).hi3c = s.hi3c := rfl
@[simp] theorem State.ci3c_setReg (s : State) (a : Nat) (v : Word) : (s.setReg a v).ci3c = s.ci3c := rfl
@[simp] theorem State.xspi_setReg (s : State) (a : Nat) (v : Word) : (s.setReg a v).xspi = s.xspi := rfl
@[simp] theorem State.pending_setReg (s : State) (a : Nat) (v : Word) : (s.setReg a v).pending = s.pending := rfl

@[simp] theorem State.regs_setShd (s : State) (a : Nat) (v : Word) : (s.setShd a v).regs = s.regs := rfl
@[simp] theorem State.latched_setShd (s : State) (a : Nat) (v : Word) : (s.setShd a v).latched = s.latched := rfl
@[simp] theorem State.mem_setShd (s : State) (a : Nat) (v : Word) : (s.setShd a v).mem = s.mem := rfl
@[simp] theorem State.answer_setShd (s : State) (a : Nat) (v : Word) : (s.setShd a v).answer = s.answer := rfl
@[simp] theorem State.fresh_setShd (s : State) (a : Nat) (v : Word) : (s.setShd a v).fresh = s.fresh := rfl
@[simp] theorem State.out_setShd (s : State) (a : Nat) (v : Word) : (s.setShd a v).out = s.out := rfl
@[simp] theorem State.beam_setShd (s : State) (a : Nat) (v : Word) : (s.setShd a v).beam = s.beam := rfl
@[simp] theorem State.fab_setShd (s : State) (a : Nat) (v : Word) : (s.setShd a v).fab = s.fab := rfl
@[simp] theorem State.qdl_setShd (s : State) (a : Nat) (v : Word) : (s.setShd a v).qdl = s.qdl := rfl
@[simp] theorem State.mnt_setShd (s : State) (a : Nat) (v : Word) : (s.setShd a v).mnt = s.mnt := rfl
@[simp] theorem State.pnl_setShd (s : State) (a : Nat) (v : Word) : (s.setShd a v).pnl = s.pnl := rfl
@[simp] theorem State.sig_setShd (s : State) (a : Nat) (v : Word) : (s.setShd a v).sig = s.sig := rfl
@[simp] theorem State.snd_setShd (s : State) (a : Nat) (v : Word) : (s.setShd a v).snd = s.snd := rfl
@[simp] theorem State.obj_setShd (s : State) (a : Nat) (v : Word) : (s.setShd a v).obj = s.obj := rfl
@[simp] theorem State.link_setShd (s : State) (a : Nat) (v : Word) : (s.setShd a v).link = s.link := rfl
@[simp] theorem State.gv_setShd (s : State) (a : Nat) (v : Word) : (s.setShd a v).gv = s.gv := rfl
@[simp] theorem State.blk_setShd (s : State) (a : Nat) (v : Word) : (s.setShd a v).blk = s.blk := rfl
@[simp] theorem State.reel_setShd (s : State) (a : Nat) (v : Word) : (s.setShd a v).reel = s.reel := rfl
@[simp] theorem State.irq_setShd (s : State) (a : Nat) (v : Word) : (s.setShd a v).irq = s.irq := rfl
@[simp] theorem State.pwr_setShd (s : State) (a : Nat) (v : Word) : (s.setShd a v).pwr = s.pwr := rfl
@[simp] theorem State.img_setShd (s : State) (a : Nat) (v : Word) : (s.setShd a v).img = s.img := rfl
@[simp] theorem State.evr_setShd (s : State) (a : Nat) (v : Word) : (s.setShd a v).evr = s.evr := rfl
@[simp] theorem State.mgt_setShd (s : State) (a : Nat) (v : Word) : (s.setShd a v).mgt = s.mgt := rfl
@[simp] theorem State.sec_setShd (s : State) (a : Nat) (v : Word) : (s.setShd a v).sec = s.sec := rfl
@[simp] theorem State.dbg_setShd (s : State) (a : Nat) (v : Word) : (s.setShd a v).dbg = s.dbg := rfl
@[simp] theorem State.pin_setShd (s : State) (a : Nat) (v : Word) : (s.setShd a v).pin = s.pin := rfl
@[simp] theorem State.hi3c_setShd (s : State) (a : Nat) (v : Word) : (s.setShd a v).hi3c = s.hi3c := rfl
@[simp] theorem State.ci3c_setShd (s : State) (a : Nat) (v : Word) : (s.setShd a v).ci3c = s.ci3c := rfl
@[simp] theorem State.xspi_setShd (s : State) (a : Nat) (v : Word) : (s.setShd a v).xspi = s.xspi := rfl
@[simp] theorem State.pending_setShd (s : State) (a : Nat) (v : Word) : (s.setShd a v).pending = s.pending := rfl

@[simp] theorem State.shadow_setF (s : State) (a hi lo v : Nat) : (s.setF a hi lo v).shadow = s.shadow := rfl
@[simp] theorem State.latched_setF (s : State) (a hi lo v : Nat) : (s.setF a hi lo v).latched = s.latched := rfl
@[simp] theorem State.mem_setF (s : State) (a hi lo v : Nat) : (s.setF a hi lo v).mem = s.mem := rfl
@[simp] theorem State.answer_setF (s : State) (a hi lo v : Nat) : (s.setF a hi lo v).answer = s.answer := rfl
@[simp] theorem State.fresh_setF (s : State) (a hi lo v : Nat) : (s.setF a hi lo v).fresh = s.fresh := rfl
@[simp] theorem State.out_setF (s : State) (a hi lo v : Nat) : (s.setF a hi lo v).out = s.out := rfl
@[simp] theorem State.beam_setF (s : State) (a hi lo v : Nat) : (s.setF a hi lo v).beam = s.beam := rfl
@[simp] theorem State.fab_setF (s : State) (a hi lo v : Nat) : (s.setF a hi lo v).fab = s.fab := rfl
@[simp] theorem State.qdl_setF (s : State) (a hi lo v : Nat) : (s.setF a hi lo v).qdl = s.qdl := rfl
@[simp] theorem State.mnt_setF (s : State) (a hi lo v : Nat) : (s.setF a hi lo v).mnt = s.mnt := rfl
@[simp] theorem State.pnl_setF (s : State) (a hi lo v : Nat) : (s.setF a hi lo v).pnl = s.pnl := rfl
@[simp] theorem State.sig_setF (s : State) (a hi lo v : Nat) : (s.setF a hi lo v).sig = s.sig := rfl
@[simp] theorem State.snd_setF (s : State) (a hi lo v : Nat) : (s.setF a hi lo v).snd = s.snd := rfl
@[simp] theorem State.obj_setF (s : State) (a hi lo v : Nat) : (s.setF a hi lo v).obj = s.obj := rfl
@[simp] theorem State.link_setF (s : State) (a hi lo v : Nat) : (s.setF a hi lo v).link = s.link := rfl
@[simp] theorem State.gv_setF (s : State) (a hi lo v : Nat) : (s.setF a hi lo v).gv = s.gv := rfl
@[simp] theorem State.blk_setF (s : State) (a hi lo v : Nat) : (s.setF a hi lo v).blk = s.blk := rfl
@[simp] theorem State.reel_setF (s : State) (a hi lo v : Nat) : (s.setF a hi lo v).reel = s.reel := rfl
@[simp] theorem State.irq_setF (s : State) (a hi lo v : Nat) : (s.setF a hi lo v).irq = s.irq := rfl
@[simp] theorem State.pwr_setF (s : State) (a hi lo v : Nat) : (s.setF a hi lo v).pwr = s.pwr := rfl
@[simp] theorem State.img_setF (s : State) (a hi lo v : Nat) : (s.setF a hi lo v).img = s.img := rfl
@[simp] theorem State.evr_setF (s : State) (a hi lo v : Nat) : (s.setF a hi lo v).evr = s.evr := rfl
@[simp] theorem State.mgt_setF (s : State) (a hi lo v : Nat) : (s.setF a hi lo v).mgt = s.mgt := rfl
@[simp] theorem State.sec_setF (s : State) (a hi lo v : Nat) : (s.setF a hi lo v).sec = s.sec := rfl
@[simp] theorem State.dbg_setF (s : State) (a hi lo v : Nat) : (s.setF a hi lo v).dbg = s.dbg := rfl
@[simp] theorem State.pin_setF (s : State) (a hi lo v : Nat) : (s.setF a hi lo v).pin = s.pin := rfl
@[simp] theorem State.hi3c_setF (s : State) (a hi lo v : Nat) : (s.setF a hi lo v).hi3c = s.hi3c := rfl
@[simp] theorem State.ci3c_setF (s : State) (a hi lo v : Nat) : (s.setF a hi lo v).ci3c = s.ci3c := rfl
@[simp] theorem State.xspi_setF (s : State) (a hi lo v : Nat) : (s.setF a hi lo v).xspi = s.xspi := rfl
@[simp] theorem State.pending_setF (s : State) (a hi lo v : Nat) : (s.setF a hi lo v).pending = s.pending := rfl

@[simp] theorem State.shadow_setBit (s : State) (a i : Nat) (b : Bool) : (s.setBit a i b).shadow = s.shadow := rfl
@[simp] theorem State.latched_setBit (s : State) (a i : Nat) (b : Bool) : (s.setBit a i b).latched = s.latched := rfl
@[simp] theorem State.mem_setBit (s : State) (a i : Nat) (b : Bool) : (s.setBit a i b).mem = s.mem := rfl
@[simp] theorem State.answer_setBit (s : State) (a i : Nat) (b : Bool) : (s.setBit a i b).answer = s.answer := rfl
@[simp] theorem State.fresh_setBit (s : State) (a i : Nat) (b : Bool) : (s.setBit a i b).fresh = s.fresh := rfl
@[simp] theorem State.out_setBit (s : State) (a i : Nat) (b : Bool) : (s.setBit a i b).out = s.out := rfl
@[simp] theorem State.beam_setBit (s : State) (a i : Nat) (b : Bool) : (s.setBit a i b).beam = s.beam := rfl
@[simp] theorem State.fab_setBit (s : State) (a i : Nat) (b : Bool) : (s.setBit a i b).fab = s.fab := rfl
@[simp] theorem State.qdl_setBit (s : State) (a i : Nat) (b : Bool) : (s.setBit a i b).qdl = s.qdl := rfl
@[simp] theorem State.mnt_setBit (s : State) (a i : Nat) (b : Bool) : (s.setBit a i b).mnt = s.mnt := rfl
@[simp] theorem State.pnl_setBit (s : State) (a i : Nat) (b : Bool) : (s.setBit a i b).pnl = s.pnl := rfl
@[simp] theorem State.sig_setBit (s : State) (a i : Nat) (b : Bool) : (s.setBit a i b).sig = s.sig := rfl
@[simp] theorem State.snd_setBit (s : State) (a i : Nat) (b : Bool) : (s.setBit a i b).snd = s.snd := rfl
@[simp] theorem State.obj_setBit (s : State) (a i : Nat) (b : Bool) : (s.setBit a i b).obj = s.obj := rfl
@[simp] theorem State.link_setBit (s : State) (a i : Nat) (b : Bool) : (s.setBit a i b).link = s.link := rfl
@[simp] theorem State.gv_setBit (s : State) (a i : Nat) (b : Bool) : (s.setBit a i b).gv = s.gv := rfl
@[simp] theorem State.blk_setBit (s : State) (a i : Nat) (b : Bool) : (s.setBit a i b).blk = s.blk := rfl
@[simp] theorem State.reel_setBit (s : State) (a i : Nat) (b : Bool) : (s.setBit a i b).reel = s.reel := rfl
@[simp] theorem State.irq_setBit (s : State) (a i : Nat) (b : Bool) : (s.setBit a i b).irq = s.irq := rfl
@[simp] theorem State.pwr_setBit (s : State) (a i : Nat) (b : Bool) : (s.setBit a i b).pwr = s.pwr := rfl
@[simp] theorem State.img_setBit (s : State) (a i : Nat) (b : Bool) : (s.setBit a i b).img = s.img := rfl
@[simp] theorem State.evr_setBit (s : State) (a i : Nat) (b : Bool) : (s.setBit a i b).evr = s.evr := rfl
@[simp] theorem State.mgt_setBit (s : State) (a i : Nat) (b : Bool) : (s.setBit a i b).mgt = s.mgt := rfl
@[simp] theorem State.sec_setBit (s : State) (a i : Nat) (b : Bool) : (s.setBit a i b).sec = s.sec := rfl
@[simp] theorem State.dbg_setBit (s : State) (a i : Nat) (b : Bool) : (s.setBit a i b).dbg = s.dbg := rfl
@[simp] theorem State.pin_setBit (s : State) (a i : Nat) (b : Bool) : (s.setBit a i b).pin = s.pin := rfl
@[simp] theorem State.hi3c_setBit (s : State) (a i : Nat) (b : Bool) : (s.setBit a i b).hi3c = s.hi3c := rfl
@[simp] theorem State.ci3c_setBit (s : State) (a i : Nat) (b : Bool) : (s.setBit a i b).ci3c = s.ci3c := rfl
@[simp] theorem State.xspi_setBit (s : State) (a i : Nat) (b : Bool) : (s.setBit a i b).xspi = s.xspi := rfl
@[simp] theorem State.pending_setBit (s : State) (a i : Nat) (b : Bool) : (s.setBit a i b).pending = s.pending := rfl

@[simp] theorem State.shadow_count (s : State) (a hi lo : Nat) : (s.count a hi lo).shadow = s.shadow := rfl
@[simp] theorem State.latched_count (s : State) (a hi lo : Nat) : (s.count a hi lo).latched = s.latched := rfl
@[simp] theorem State.mem_count (s : State) (a hi lo : Nat) : (s.count a hi lo).mem = s.mem := rfl
@[simp] theorem State.answer_count (s : State) (a hi lo : Nat) : (s.count a hi lo).answer = s.answer := rfl
@[simp] theorem State.fresh_count (s : State) (a hi lo : Nat) : (s.count a hi lo).fresh = s.fresh := rfl
@[simp] theorem State.out_count (s : State) (a hi lo : Nat) : (s.count a hi lo).out = s.out := rfl
@[simp] theorem State.beam_count (s : State) (a hi lo : Nat) : (s.count a hi lo).beam = s.beam := rfl
@[simp] theorem State.fab_count (s : State) (a hi lo : Nat) : (s.count a hi lo).fab = s.fab := rfl
@[simp] theorem State.qdl_count (s : State) (a hi lo : Nat) : (s.count a hi lo).qdl = s.qdl := rfl
@[simp] theorem State.mnt_count (s : State) (a hi lo : Nat) : (s.count a hi lo).mnt = s.mnt := rfl
@[simp] theorem State.pnl_count (s : State) (a hi lo : Nat) : (s.count a hi lo).pnl = s.pnl := rfl
@[simp] theorem State.sig_count (s : State) (a hi lo : Nat) : (s.count a hi lo).sig = s.sig := rfl
@[simp] theorem State.snd_count (s : State) (a hi lo : Nat) : (s.count a hi lo).snd = s.snd := rfl
@[simp] theorem State.obj_count (s : State) (a hi lo : Nat) : (s.count a hi lo).obj = s.obj := rfl
@[simp] theorem State.link_count (s : State) (a hi lo : Nat) : (s.count a hi lo).link = s.link := rfl
@[simp] theorem State.gv_count (s : State) (a hi lo : Nat) : (s.count a hi lo).gv = s.gv := rfl
@[simp] theorem State.blk_count (s : State) (a hi lo : Nat) : (s.count a hi lo).blk = s.blk := rfl
@[simp] theorem State.reel_count (s : State) (a hi lo : Nat) : (s.count a hi lo).reel = s.reel := rfl
@[simp] theorem State.irq_count (s : State) (a hi lo : Nat) : (s.count a hi lo).irq = s.irq := rfl
@[simp] theorem State.pwr_count (s : State) (a hi lo : Nat) : (s.count a hi lo).pwr = s.pwr := rfl
@[simp] theorem State.img_count (s : State) (a hi lo : Nat) : (s.count a hi lo).img = s.img := rfl
@[simp] theorem State.evr_count (s : State) (a hi lo : Nat) : (s.count a hi lo).evr = s.evr := rfl
@[simp] theorem State.mgt_count (s : State) (a hi lo : Nat) : (s.count a hi lo).mgt = s.mgt := rfl
@[simp] theorem State.sec_count (s : State) (a hi lo : Nat) : (s.count a hi lo).sec = s.sec := rfl
@[simp] theorem State.dbg_count (s : State) (a hi lo : Nat) : (s.count a hi lo).dbg = s.dbg := rfl
@[simp] theorem State.pin_count (s : State) (a hi lo : Nat) : (s.count a hi lo).pin = s.pin := rfl
@[simp] theorem State.hi3c_count (s : State) (a hi lo : Nat) : (s.count a hi lo).hi3c = s.hi3c := rfl
@[simp] theorem State.ci3c_count (s : State) (a hi lo : Nat) : (s.count a hi lo).ci3c = s.ci3c := rfl
@[simp] theorem State.xspi_count (s : State) (a hi lo : Nat) : (s.count a hi lo).xspi = s.xspi := rfl
@[simp] theorem State.pending_count (s : State) (a hi lo : Nat) : (s.count a hi lo).pending = s.pending := rfl

@[simp] theorem State.regs_setByte (s : State) (k : Nat) (b : Byte) : (s.setByte k b).regs = s.regs := rfl
@[simp] theorem State.shadow_setByte (s : State) (k : Nat) (b : Byte) : (s.setByte k b).shadow = s.shadow := rfl
@[simp] theorem State.latched_setByte (s : State) (k : Nat) (b : Byte) : (s.setByte k b).latched = s.latched := rfl
@[simp] theorem State.answer_setByte (s : State) (k : Nat) (b : Byte) : (s.setByte k b).answer = s.answer := rfl
@[simp] theorem State.fresh_setByte (s : State) (k : Nat) (b : Byte) : (s.setByte k b).fresh = s.fresh := rfl
@[simp] theorem State.out_setByte (s : State) (k : Nat) (b : Byte) : (s.setByte k b).out = s.out := rfl
@[simp] theorem State.beam_setByte (s : State) (k : Nat) (b : Byte) : (s.setByte k b).beam = s.beam := rfl
@[simp] theorem State.fab_setByte (s : State) (k : Nat) (b : Byte) : (s.setByte k b).fab = s.fab := rfl
@[simp] theorem State.qdl_setByte (s : State) (k : Nat) (b : Byte) : (s.setByte k b).qdl = s.qdl := rfl
@[simp] theorem State.mnt_setByte (s : State) (k : Nat) (b : Byte) : (s.setByte k b).mnt = s.mnt := rfl
@[simp] theorem State.pnl_setByte (s : State) (k : Nat) (b : Byte) : (s.setByte k b).pnl = s.pnl := rfl
@[simp] theorem State.sig_setByte (s : State) (k : Nat) (b : Byte) : (s.setByte k b).sig = s.sig := rfl
@[simp] theorem State.snd_setByte (s : State) (k : Nat) (b : Byte) : (s.setByte k b).snd = s.snd := rfl
@[simp] theorem State.obj_setByte (s : State) (k : Nat) (b : Byte) : (s.setByte k b).obj = s.obj := rfl
@[simp] theorem State.link_setByte (s : State) (k : Nat) (b : Byte) : (s.setByte k b).link = s.link := rfl
@[simp] theorem State.gv_setByte (s : State) (k : Nat) (b : Byte) : (s.setByte k b).gv = s.gv := rfl
@[simp] theorem State.blk_setByte (s : State) (k : Nat) (b : Byte) : (s.setByte k b).blk = s.blk := rfl
@[simp] theorem State.reel_setByte (s : State) (k : Nat) (b : Byte) : (s.setByte k b).reel = s.reel := rfl
@[simp] theorem State.irq_setByte (s : State) (k : Nat) (b : Byte) : (s.setByte k b).irq = s.irq := rfl
@[simp] theorem State.pwr_setByte (s : State) (k : Nat) (b : Byte) : (s.setByte k b).pwr = s.pwr := rfl
@[simp] theorem State.img_setByte (s : State) (k : Nat) (b : Byte) : (s.setByte k b).img = s.img := rfl
@[simp] theorem State.evr_setByte (s : State) (k : Nat) (b : Byte) : (s.setByte k b).evr = s.evr := rfl
@[simp] theorem State.mgt_setByte (s : State) (k : Nat) (b : Byte) : (s.setByte k b).mgt = s.mgt := rfl
@[simp] theorem State.sec_setByte (s : State) (k : Nat) (b : Byte) : (s.setByte k b).sec = s.sec := rfl
@[simp] theorem State.dbg_setByte (s : State) (k : Nat) (b : Byte) : (s.setByte k b).dbg = s.dbg := rfl
@[simp] theorem State.pin_setByte (s : State) (k : Nat) (b : Byte) : (s.setByte k b).pin = s.pin := rfl
@[simp] theorem State.hi3c_setByte (s : State) (k : Nat) (b : Byte) : (s.setByte k b).hi3c = s.hi3c := rfl
@[simp] theorem State.ci3c_setByte (s : State) (k : Nat) (b : Byte) : (s.setByte k b).ci3c = s.ci3c := rfl
@[simp] theorem State.xspi_setByte (s : State) (k : Nat) (b : Byte) : (s.setByte k b).xspi = s.xspi := rfl
@[simp] theorem State.pending_setByte (s : State) (k : Nat) (b : Byte) : (s.setByte k b).pending = s.pending := rfl

@[simp] theorem State.regs_emit (s : State) (o : Out) : (s.emit o).regs = s.regs := rfl
@[simp] theorem State.shadow_emit (s : State) (o : Out) : (s.emit o).shadow = s.shadow := rfl
@[simp] theorem State.latched_emit (s : State) (o : Out) : (s.emit o).latched = s.latched := rfl
@[simp] theorem State.mem_emit (s : State) (o : Out) : (s.emit o).mem = s.mem := rfl
@[simp] theorem State.answer_emit (s : State) (o : Out) : (s.emit o).answer = s.answer := rfl
@[simp] theorem State.fresh_emit (s : State) (o : Out) : (s.emit o).fresh = s.fresh := rfl
@[simp] theorem State.beam_emit (s : State) (o : Out) : (s.emit o).beam = s.beam := rfl
@[simp] theorem State.fab_emit (s : State) (o : Out) : (s.emit o).fab = s.fab := rfl
@[simp] theorem State.qdl_emit (s : State) (o : Out) : (s.emit o).qdl = s.qdl := rfl
@[simp] theorem State.mnt_emit (s : State) (o : Out) : (s.emit o).mnt = s.mnt := rfl
@[simp] theorem State.pnl_emit (s : State) (o : Out) : (s.emit o).pnl = s.pnl := rfl
@[simp] theorem State.sig_emit (s : State) (o : Out) : (s.emit o).sig = s.sig := rfl
@[simp] theorem State.snd_emit (s : State) (o : Out) : (s.emit o).snd = s.snd := rfl
@[simp] theorem State.obj_emit (s : State) (o : Out) : (s.emit o).obj = s.obj := rfl
@[simp] theorem State.link_emit (s : State) (o : Out) : (s.emit o).link = s.link := rfl
@[simp] theorem State.gv_emit (s : State) (o : Out) : (s.emit o).gv = s.gv := rfl
@[simp] theorem State.blk_emit (s : State) (o : Out) : (s.emit o).blk = s.blk := rfl
@[simp] theorem State.reel_emit (s : State) (o : Out) : (s.emit o).reel = s.reel := rfl
@[simp] theorem State.irq_emit (s : State) (o : Out) : (s.emit o).irq = s.irq := rfl
@[simp] theorem State.pwr_emit (s : State) (o : Out) : (s.emit o).pwr = s.pwr := rfl
@[simp] theorem State.img_emit (s : State) (o : Out) : (s.emit o).img = s.img := rfl
@[simp] theorem State.evr_emit (s : State) (o : Out) : (s.emit o).evr = s.evr := rfl
@[simp] theorem State.mgt_emit (s : State) (o : Out) : (s.emit o).mgt = s.mgt := rfl
@[simp] theorem State.sec_emit (s : State) (o : Out) : (s.emit o).sec = s.sec := rfl
@[simp] theorem State.dbg_emit (s : State) (o : Out) : (s.emit o).dbg = s.dbg := rfl
@[simp] theorem State.pin_emit (s : State) (o : Out) : (s.emit o).pin = s.pin := rfl
@[simp] theorem State.hi3c_emit (s : State) (o : Out) : (s.emit o).hi3c = s.hi3c := rfl
@[simp] theorem State.ci3c_emit (s : State) (o : Out) : (s.emit o).ci3c = s.ci3c := rfl
@[simp] theorem State.xspi_emit (s : State) (o : Out) : (s.emit o).xspi = s.xspi := rfl
@[simp] theorem State.pending_emit (s : State) (o : Out) : (s.emit o).pending = s.pending := rfl

@[simp] theorem State.regs_reply (s : State) (code : Nat) (data : Word) : (State.reply code data s).regs = s.regs := rfl
@[simp] theorem State.shadow_reply (s : State) (code : Nat) (data : Word) : (State.reply code data s).shadow = s.shadow := rfl
@[simp] theorem State.latched_reply (s : State) (code : Nat) (data : Word) : (State.reply code data s).latched = s.latched := rfl
@[simp] theorem State.mem_reply (s : State) (code : Nat) (data : Word) : (State.reply code data s).mem = s.mem := rfl
@[simp] theorem State.fresh_reply (s : State) (code : Nat) (data : Word) : (State.reply code data s).fresh = s.fresh := rfl
@[simp] theorem State.out_reply (s : State) (code : Nat) (data : Word) : (State.reply code data s).out = s.out := rfl
@[simp] theorem State.beam_reply (s : State) (code : Nat) (data : Word) : (State.reply code data s).beam = s.beam := rfl
@[simp] theorem State.fab_reply (s : State) (code : Nat) (data : Word) : (State.reply code data s).fab = s.fab := rfl
@[simp] theorem State.qdl_reply (s : State) (code : Nat) (data : Word) : (State.reply code data s).qdl = s.qdl := rfl
@[simp] theorem State.mnt_reply (s : State) (code : Nat) (data : Word) : (State.reply code data s).mnt = s.mnt := rfl
@[simp] theorem State.pnl_reply (s : State) (code : Nat) (data : Word) : (State.reply code data s).pnl = s.pnl := rfl
@[simp] theorem State.sig_reply (s : State) (code : Nat) (data : Word) : (State.reply code data s).sig = s.sig := rfl
@[simp] theorem State.snd_reply (s : State) (code : Nat) (data : Word) : (State.reply code data s).snd = s.snd := rfl
@[simp] theorem State.obj_reply (s : State) (code : Nat) (data : Word) : (State.reply code data s).obj = s.obj := rfl
@[simp] theorem State.link_reply (s : State) (code : Nat) (data : Word) : (State.reply code data s).link = s.link := rfl
@[simp] theorem State.gv_reply (s : State) (code : Nat) (data : Word) : (State.reply code data s).gv = s.gv := rfl
@[simp] theorem State.blk_reply (s : State) (code : Nat) (data : Word) : (State.reply code data s).blk = s.blk := rfl
@[simp] theorem State.reel_reply (s : State) (code : Nat) (data : Word) : (State.reply code data s).reel = s.reel := rfl
@[simp] theorem State.irq_reply (s : State) (code : Nat) (data : Word) : (State.reply code data s).irq = s.irq := rfl
@[simp] theorem State.pwr_reply (s : State) (code : Nat) (data : Word) : (State.reply code data s).pwr = s.pwr := rfl
@[simp] theorem State.img_reply (s : State) (code : Nat) (data : Word) : (State.reply code data s).img = s.img := rfl
@[simp] theorem State.evr_reply (s : State) (code : Nat) (data : Word) : (State.reply code data s).evr = s.evr := rfl
@[simp] theorem State.mgt_reply (s : State) (code : Nat) (data : Word) : (State.reply code data s).mgt = s.mgt := rfl
@[simp] theorem State.sec_reply (s : State) (code : Nat) (data : Word) : (State.reply code data s).sec = s.sec := rfl
@[simp] theorem State.dbg_reply (s : State) (code : Nat) (data : Word) : (State.reply code data s).dbg = s.dbg := rfl
@[simp] theorem State.pin_reply (s : State) (code : Nat) (data : Word) : (State.reply code data s).pin = s.pin := rfl
@[simp] theorem State.hi3c_reply (s : State) (code : Nat) (data : Word) : (State.reply code data s).hi3c = s.hi3c := rfl
@[simp] theorem State.ci3c_reply (s : State) (code : Nat) (data : Word) : (State.reply code data s).ci3c = s.ci3c := rfl
@[simp] theorem State.xspi_reply (s : State) (code : Nat) (data : Word) : (State.reply code data s).xspi = s.xspi := rfl
@[simp] theorem State.pending_reply (s : State) (code : Nat) (data : Word) : (State.reply code data s).pending = s.pending := rfl

@[simp] theorem State.regs_draw (s : State) : (s.draw).2.regs = s.regs := rfl
@[simp] theorem State.shadow_draw (s : State) : (s.draw).2.shadow = s.shadow := rfl
@[simp] theorem State.latched_draw (s : State) : (s.draw).2.latched = s.latched := rfl
@[simp] theorem State.mem_draw (s : State) : (s.draw).2.mem = s.mem := rfl
@[simp] theorem State.answer_draw (s : State) : (s.draw).2.answer = s.answer := rfl
@[simp] theorem State.out_draw (s : State) : (s.draw).2.out = s.out := rfl
@[simp] theorem State.beam_draw (s : State) : (s.draw).2.beam = s.beam := rfl
@[simp] theorem State.fab_draw (s : State) : (s.draw).2.fab = s.fab := rfl
@[simp] theorem State.qdl_draw (s : State) : (s.draw).2.qdl = s.qdl := rfl
@[simp] theorem State.mnt_draw (s : State) : (s.draw).2.mnt = s.mnt := rfl
@[simp] theorem State.pnl_draw (s : State) : (s.draw).2.pnl = s.pnl := rfl
@[simp] theorem State.sig_draw (s : State) : (s.draw).2.sig = s.sig := rfl
@[simp] theorem State.snd_draw (s : State) : (s.draw).2.snd = s.snd := rfl
@[simp] theorem State.obj_draw (s : State) : (s.draw).2.obj = s.obj := rfl
@[simp] theorem State.link_draw (s : State) : (s.draw).2.link = s.link := rfl
@[simp] theorem State.gv_draw (s : State) : (s.draw).2.gv = s.gv := rfl
@[simp] theorem State.blk_draw (s : State) : (s.draw).2.blk = s.blk := rfl
@[simp] theorem State.reel_draw (s : State) : (s.draw).2.reel = s.reel := rfl
@[simp] theorem State.irq_draw (s : State) : (s.draw).2.irq = s.irq := rfl
@[simp] theorem State.pwr_draw (s : State) : (s.draw).2.pwr = s.pwr := rfl
@[simp] theorem State.img_draw (s : State) : (s.draw).2.img = s.img := rfl
@[simp] theorem State.evr_draw (s : State) : (s.draw).2.evr = s.evr := rfl
@[simp] theorem State.mgt_draw (s : State) : (s.draw).2.mgt = s.mgt := rfl
@[simp] theorem State.sec_draw (s : State) : (s.draw).2.sec = s.sec := rfl
@[simp] theorem State.dbg_draw (s : State) : (s.draw).2.dbg = s.dbg := rfl
@[simp] theorem State.pin_draw (s : State) : (s.draw).2.pin = s.pin := rfl
@[simp] theorem State.hi3c_draw (s : State) : (s.draw).2.hi3c = s.hi3c := rfl
@[simp] theorem State.ci3c_draw (s : State) : (s.draw).2.ci3c = s.ci3c := rfl
@[simp] theorem State.xspi_draw (s : State) : (s.draw).2.xspi = s.xspi := rfl
@[simp] theorem State.pending_draw (s : State) : (s.draw).2.pending = s.pending := rfl
@[simp] theorem State.fresh_draw (s : State) : (s.draw).2.fresh = s.fresh + 1 := rfl
@[simp] theorem State.draw_fst (s : State) : (s.draw).1 = s.fresh := rfl

/-! Reads. -/

theorem State.reg_def (s : State) (a : Nat) : s.reg a = Sparse.get RegMap.resetOf s.regs a := rfl

/-- A state that differs only elsewhere reads the same. -/
theorem State.reg_congr {s t : State} (h : t.regs = s.regs) (a : Nat) : t.reg a = s.reg a := by simp [State.reg, h]

/-- A state that differs only elsewhere reads the same. -/
theorem State.shd_congr {s t : State} (h : t.shadow = s.shadow) (a : Nat) : t.shd a = s.shd a := by simp [State.shd, h]

/-- A state that differs only elsewhere reads the same. -/
theorem State.byte_congr {s t : State} (h : t.mem = s.mem) (a : Nat) : t.byte a = s.byte a := by simp [State.byte, h]

@[simp] theorem State.reg_setReg_same (s : State) (a : Nat) (v : Word) : (s.setReg a v).reg a = v :=
  Sparse.get_set_same _ _ _ _

theorem State.reg_setReg (s : State) (a b : Nat) (v : Word) : (s.setReg a v).reg b = if b = a then v else s.reg b :=
  Sparse.get_set _ _ _ _ _

theorem State.reg_setReg_ne (s : State) {a b : Nat} (h : b ≠ a) (v : Word) : (s.setReg a v).reg b = s.reg b :=
  Sparse.get_set_ne _ _ h v

theorem State.shd_setShd (s : State) (a b : Nat) (v : Word) : (s.setShd a v).shd b = if b = a then v else s.shd b :=
  Sparse.get_set _ _ _ _ _

theorem State.byte_setByte (s : State) (k j : Nat) (b : Byte) : (s.setByte k b).byte j = if j = k then b else s.byte j :=
  Sparse.get_set _ _ _ _ _

@[simp] theorem State.byte_setReg (s : State) (a : Nat) (v : Word) (x : Nat) : (s.setReg a v).byte x = s.byte x := rfl
@[simp] theorem State.reg_setShd (s : State) (a : Nat) (v : Word) (x : Nat) : (s.setShd a v).reg x = s.reg x := rfl
@[simp] theorem State.byte_setShd (s : State) (a : Nat) (v : Word) (x : Nat) : (s.setShd a v).byte x = s.byte x := rfl
@[simp] theorem State.byte_setF (s : State) (a hi lo v : Nat) (x : Nat) : (s.setF a hi lo v).byte x = s.byte x := rfl
@[simp] theorem State.byte_setBit (s : State) (a i : Nat) (b : Bool) (x : Nat) : (s.setBit a i b).byte x = s.byte x := rfl
@[simp] theorem State.byte_count (s : State) (a hi lo : Nat) (x : Nat) : (s.count a hi lo).byte x = s.byte x := rfl
@[simp] theorem State.reg_setByte (s : State) (k : Nat) (b : Byte) (x : Nat) : (s.setByte k b).reg x = s.reg x := rfl
@[simp] theorem State.reg_emit (s : State) (o : Out) (x : Nat) : (s.emit o).reg x = s.reg x := rfl
@[simp] theorem State.byte_emit (s : State) (o : Out) (x : Nat) : (s.emit o).byte x = s.byte x := rfl
@[simp] theorem State.reg_reply (s : State) (code : Nat) (data : Word) (x : Nat) : (State.reply code data s).reg x = s.reg x := rfl
@[simp] theorem State.byte_reply (s : State) (code : Nat) (data : Word) (x : Nat) : (State.reply code data s).byte x = s.byte x := rfl

end Sys2Proof.Machine
end

