-- ==== Sys2Proof/Laws/Ops.lean ====
section
/-! SUPPORT. What each shared operation over registers, events and arrivals can do. -/

namespace Sys2Proof.Machine

/-! Fields and bits of registers. -/

@[simp] theorem State.f_setF_same (s : State) (a : Nat) {hi lo v : Nat} (h : hi < 32) :
    (s.setF a hi lo v).f a hi lo = v % 2 ^ (hi + 1 - lo) := by
  simp [State.f, State.setF, h]

@[simp] theorem State.bit_setBit_same (s : State) (a : Nat) {i : Nat} (b : Bool) (h : i < 32) : (s.setBit a i b).bit a i = b := by
  simp [State.bit, State.setBit, h]

theorem State.bit_setBit_ne (s : State) (a : Nat) {i j : Nat} (b : Bool) (h : j ≠ i) : (s.setBit a i b).bit a j = s.bit a j := by
  simp [State.bit, State.setBit, bitAt_putBit_ne _ _ h]

theorem State.reg_setF_ne (s : State) {a c : Nat} (h : c ≠ a) (hi lo v : Nat) : (s.setF a hi lo v).reg c = s.reg c :=
  State.reg_setReg_ne s h _

theorem State.reg_setBit_ne (s : State) {a c : Nat} (h : c ≠ a) (i : Nat) (b : Bool) : (s.setBit a i b).reg c = s.reg c :=
  State.reg_setReg_ne s h _

theorem State.reg_count_ne (s : State) {a c : Nat} (h : c ≠ a) (hi lo : Nat) : (s.count a hi lo).reg c = s.reg c :=
  State.reg_setReg_ne s h _

/-- Registers that read the same have the same fields and bits. -/
theorem State.f_of_reg {s t : State} {a : Nat} (h : t.reg a = s.reg a) (hi lo : Nat) : t.f a hi lo = s.f a hi lo := by
  simp [State.f, h]

theorem State.bit_of_reg {s t : State} {a : Nat} (h : t.reg a = s.reg a) (i : Nat) : t.bit a i = s.bit a i := by
  simp [State.bit, h]

/-! What an arrival and an event touch: IRQ and EVR registers, the recorder's queue, the interrupt controller, the wake. -/

/-- `t` differs from `s` at most in IRQ and EVR registers, and in what the recorder, the interrupt controller and the power
manager hold beside their registers; the power manager's state is the same. -/
structure Noted (s t : State) : Prop where
  regs : ∀ a, ¬ eventReg a → t.reg a = s.reg a
  shadow : t.shadow = s.shadow
  latched : t.latched = s.latched
  mem : t.mem = s.mem
  answer : t.answer = s.answer
  fresh : t.fresh = s.fresh
  out : t.out = s.out
  beam : t.beam = s.beam
  fab : t.fab = s.fab
  qdl : t.qdl = s.qdl
  mnt : t.mnt = s.mnt
  pnl : t.pnl = s.pnl
  sig : t.sig = s.sig
  snd : t.snd = s.snd
  obj : t.obj = s.obj
  link : t.link = s.link
  gv : t.gv = s.gv
  blk : t.blk = s.blk
  reel : t.reel = s.reel
  pwr : { t.pwr with waking := s.pwr.waking } = s.pwr
  img : t.img = s.img
  mgt : t.mgt = s.mgt
  sec : t.sec = s.sec
  dbg : t.dbg = s.dbg
  pin : t.pin = s.pin
  hi3c : t.hi3c = s.hi3c
  ci3c : t.ci3c = s.ci3c
  xspi : t.xspi = s.xspi
  pending : t.pending = s.pending

theorem Noted.refl (s : State) : Noted s s := by constructor <;> intros <;> rfl

theorem Noted.trans {s t u : State} (h : Noted s t) (k : Noted t u) : Noted s u := by
  have hp : { u.pwr with waking := s.pwr.waking } = s.pwr := by
    have h1 := h.pwr; have h2 := k.pwr
    rw [← h1]
    have : { u.pwr with waking := s.pwr.waking } = { { u.pwr with waking := t.pwr.waking } with waking := s.pwr.waking } := rfl
    rw [this, h2]
  exact ⟨fun a ha => (k.regs a ha).trans (h.regs a ha), k.shadow.trans h.shadow, k.latched.trans h.latched, k.mem.trans h.mem,
    k.answer.trans h.answer, k.fresh.trans h.fresh, k.out.trans h.out, k.beam.trans h.beam, k.fab.trans h.fab, k.qdl.trans h.qdl,
    k.mnt.trans h.mnt, k.pnl.trans h.pnl, k.sig.trans h.sig, k.snd.trans h.snd, k.obj.trans h.obj, k.link.trans h.link,
    k.gv.trans h.gv, k.blk.trans h.blk, k.reel.trans h.reel, hp, k.img.trans h.img, k.mgt.trans h.mgt, k.sec.trans h.sec,
    k.dbg.trans h.dbg, k.pin.trans h.pin, k.hi3c.trans h.hi3c, k.ci3c.trans h.ci3c, k.xspi.trans h.xspi, k.pending.trans h.pending⟩

theorem Noted.setReg (s : State) {a : Nat} (h : eventReg a) (v : Word) : Noted s (s.setReg a v) := by
  constructor <;> intros <;> try rfl
  rename_i c hc
  exact State.reg_setReg_ne s (fun e => hc (by rw [e]; exact h)) v

theorem Noted.f {s t : State} (h : Noted s t) {a : Nat} (ha : ¬ eventReg a) (hi lo : Nat) : t.f a hi lo = s.f a hi lo :=
  State.f_of_reg (h.regs a ha) hi lo

theorem Noted.bit {s t : State} (h : Noted s t) {a : Nat} (ha : ¬ eventReg a) (i : Nat) : t.bit a i = s.bit a i :=
  State.bit_of_reg (h.regs a ha) i

/-- The block of an address in the 64 KiB that start at block `b`. -/
theorem blockOf_eq {a b : Nat} (h : a / 65536 = 16384 + b) (hb : b < 4096) : blockOf a = b := by
  unfold blockOf
  rw [if_pos (by omega)]
  omega

theorem noted_src (n : Nat) (h : n < 256) : eventReg (Reg.IRQ_SRCs n) := .inl (blockOf_eq (by simp only [Reg.IRQ_SRCs]; omega) (by decide))
theorem noted_ovf (n : Nat) (h : n < 8) : eventReg (Reg.IRQ_OVFw n) := .inl (blockOf_eq (by simp only [Reg.IRQ_OVFw]; omega) (by decide))
theorem noted_held (n : Nat) (h : n < 16) : eventReg (Reg.IRQ_COALk_HELD n) :=
  .inl (blockOf_eq (by simp only [Reg.IRQ_COALk_HELD]; omega) (by decide))

theorem State.arriveAt_noted (s : State) {n : Nat} (h : n < 256) : Noted s (s.arriveAt n) := by
  unfold State.arriveAt
  dsimp only
  split
  · exact Noted.setReg s (noted_src n h) _
  · split
    · exact Noted.setReg s (noted_ovf _ (by omega)) _
    · exact Noted.setReg s (noted_src n h) _

theorem State.coalDeliver_noted (s : State) {k n : Nat} (hk : k < 16) (h : n < 256) : Noted s (s.coalDeliver k n) := by
  unfold State.coalDeliver
  exact ((Noted.setReg s (noted_held k hk) _).trans (Noted.setReg _ (noted_held k hk) _)).trans (State.arriveAt_noted _ h)

theorem State.coalOf_lt {s : State} {n k : Nat} (h : s.coalOf n = some k) : k < 16 := by
  have := List.mem_of_find?_eq_some h
  simpa using this

theorem State.arriveAwake_noted (s : State) {n : Nat} (h : n < 256) : Noted s (s.arriveAwake n) := by
  unfold State.arriveAwake
  split
  · exact State.arriveAt_noted s h
  · rename_i k hk
    have hk16 := State.coalOf_lt hk
    dsimp only
    split
    · exact State.arriveAt_noted s h
    · have h1 := Noted.setReg s (noted_held k hk16) (setFld (s.reg (Reg.IRQ_COALk_HELD k)) 7 0 (s.f (Reg.IRQ_COALk_HELD k) 7 0 + 1))
      split
      · exact h1.trans (State.coalDeliver_noted _ hk16 h)
      · exact h1

/-- An arrival touches the interrupt controller only, and may start a wake. -/
theorem State.arrive_noted (s : State) {n : Nat} (h : n < 256) : Noted s (s.arrive n) := by
  unfold State.arrive
  split
  · exact State.arriveAwake_noted s h
  · split
    · exact Noted.refl s
    · generalize s.wakeSlots n = l
      clear * -
      induction l generalizing s with
      | nil => exact Noted.refl s
      | cons k l ih =>
        refine Noted.trans ?_ (ih _)
        constructor <;> intros <;> try rfl
        rename_i c hc
        exact State.reg_setReg_ne s (fun e => hc (by rw [e]; exact .inl (by decide))) _

theorem noted_drops : eventReg Reg.EVR_DROPS := .inr (by decide)
theorem noted_evrStat : eventReg Reg.EVR_STAT := .inr (by decide)

/-- An event touches the recorder only, or the interrupt controller where it is lost. -/
theorem State.enqueueEvent_noted (s : State) (code sev : Nat) (a0 a1 a2 a3 : Word) :
    Noted s (s.enqueueEvent code sev a0 a1 a2 a3) := by
  unfold State.enqueueEvent
  split
  · constructor <;> intros <;> rfl
  · have h1 : Noted s ((s.count Reg.EVR_DROPS 31 16).setBit Reg.EVR_STAT 0 true) :=
      (Noted.setReg s noted_drops _).trans (Noted.setReg _ noted_evrStat _)
    dsimp only
    generalize (s.count Reg.EVR_DROPS 31 16).setBit Reg.EVR_STAT 0 true = t at h1 ⊢
    refine (h1.trans ?_).trans (State.arrive_noted _ (by decide))
    constructor <;> intros <;> rfl

theorem State.logEvent_noted (s : State) (code : Nat) (a0 a1 a2 a3 : Word) : Noted s (s.logEvent code a0 a1 a2 a3) :=
  State.enqueueEvent_noted s _ _ _ _ _ _

/-- A status bit set by an event: beside the bit, only the recorder and the interrupt controller change. -/
theorem State.raise_noted (s : State) (r : StatReg) (bit : Nat) (a0 a2 a3 : Word) (h : ∀ n, r.src = some n → n < 256) :
    Noted (s.setBit r.addr bit true) (s.raise r bit a0 a2 a3) := by
  unfold State.raise
  dsimp only
  have key : ∀ u, Noted (s.setBit r.addr bit true) u →
      Noted (s.setBit r.addr bit true) (match r.src with | some n => u.arrive n | none => u) := by
    intro u hu
    split
    · rename_i n hn; exact hu.trans (State.arrive_noted u (h n hn))
    · exact hu
  apply key
  split
  · exact State.logEvent_noted _ _ _ _ _ _
  · exact Noted.refl _

theorem State.raise0_noted (s : State) (r : StatReg) (bit : Nat) (h : ∀ n, r.src = some n → n < 256) :
    Noted (s.setBit r.addr bit true) (s.raise0 r bit) := State.raise_noted s r bit 0 0 0 h

/-- The bit is set. -/
theorem State.raise_bit (s : State) (r : StatReg) {bit : Nat} (a0 a2 a3 : Word) (hb : bit < 32) (ha : ¬ eventReg r.addr)
    (h : ∀ n, r.src = some n → n < 256) : (s.raise r bit a0 a2 a3).bit r.addr bit = true := by
  rw [(State.raise_noted s r bit a0 a2 a3 h).bit ha]
  simp [hb]

/-- Every other register but those of the recorder and the interrupt controller keeps its value. -/
theorem State.raise_reg (s : State) (r : StatReg) (bit : Nat) (a0 a2 a3 : Word) {a : Nat} (hne : a ≠ r.addr) (ha : ¬ eventReg a)
    (h : ∀ n, r.src = some n → n < 256) : (s.raise r bit a0 a2 a3).reg a = s.reg a := by
  rw [(State.raise_noted s r bit a0 a2 a3 h).regs a ha]
  exact State.reg_setReg_ne s hne _

end Sys2Proof.Machine
end

