-- ==== Sys2Proof/Laws/Access.lean ====
section
/-! SUPPORT. What the shared steps of an access and of a wake leave: the bits that hardware sets in the FCLK of a write, the wake that
traffic starts, and which targets have power. -/

namespace Sys2Proof.Machine

/-! `setWins` touches the one register. -/

theorem State.reg_setWins (s : State) {a : Nat} (set : Word) {r : RegRow} {i : Nat} (h : RegMap.find a = some (r, i)) :
    (s.setWins a set).reg a = s.reg a ||| (set &&& r.w1c) := by
  simp [State.setWins, h]

theorem State.reg_setWins_ne (s : State) {a b : Nat} (set : Word) (h : b ≠ a) : (s.setWins a set).reg b = s.reg b := by
  unfold State.setWins
  split
  · exact State.reg_setReg_ne s h _
  · rfl

@[simp] theorem State.byte_setWins (s : State) (a : Nat) (set : Word) (k : Nat) : (s.setWins a set).byte k = s.byte k := by
  unfold State.setWins
  split <;> rfl

/-! `rouse` changes nothing but the wake in progress. -/

theorem State.rouse_awake {s : State} (h : s.pwr.state = 0) : s.rouse = s := if_pos h

theorem State.rouse_asleep {s : State} (h : s.pwr.state ≠ 0) : s.rouse = { s with pwr := { s.pwr with waking := true } } := if_neg h

@[simp] theorem State.regs_rouse (s : State) : s.rouse.regs = s.regs := by unfold State.rouse; split <;> rfl
@[simp] theorem State.mem_rouse (s : State) : s.rouse.mem = s.mem := by unfold State.rouse; split <;> rfl
@[simp] theorem State.hi3c_rouse (s : State) : s.rouse.hi3c = s.hi3c := by unfold State.rouse; split <;> rfl
@[simp] theorem State.dbg_rouse (s : State) : s.rouse.dbg = s.dbg := by unfold State.rouse; split <;> rfl
@[simp] theorem State.out_rouse (s : State) : s.rouse.out = s.out := by unfold State.rouse; split <;> rfl
@[simp] theorem State.state_rouse (s : State) : s.rouse.pwr.state = s.pwr.state := by unfold State.rouse; split <;> rfl

/-- Traffic for a target of the host port does one of three things. -/
theorem State.hostServe_cases (t : Nat) (f : State → State) (s : State) :
    (s.daddr t = none ∧ s.hostServe t f = s) ∨ (s.daddr t ≠ none ∧ 3 ≤ s.pwr.state ∧ s.hostServe t f = s.rouse) ∨
      (s.daddr t ≠ none ∧ s.pwr.state < 3 ∧ s.hostServe t f = f s.rouse) := by
  unfold State.hostServe
  cases h : s.daddr t with
  | none => simp
  | some x =>
    by_cases k : 3 ≤ s.pwr.state
    · simp [k]
    · simp only [Option.isNone_some, Bool.false_eq_true, if_false, k, and_true]
      exact .inr (.inr ⟨by simp, by omega⟩)

/-- Only DEEP takes the power from a target. -/
theorem State.targetOff_of_state {s : State} (h : s.pwr.state ≠ 5) (a : Nat) : s.targetOff a = false := by
  simp [State.targetOff, h]

theorem State.targetOff_state {s : State} {a : Nat} (h : s.targetOff a = true) : s.pwr.state = 5 := by
  by_contra k
  simp [State.targetOff_of_state k a] at h

/-- A target without power is one of the domains that DEEP takes down, whatever else the state holds. -/
theorem State.targetOff_congr {s t : State} (h : t.pwr.state = s.pwr.state) (a : Nat) : t.targetOff a = s.targetOff a := by
  simp [State.targetOff, h]

end Sys2Proof.Machine
end

