-- ==== Sys2Proof/Laws/Memory.lean ====
section
/-! SUPPORT. Every operation that changes the addressed memory keeps its canonical form: the rising list of the bytes that are not zero. -/

namespace Sys2Proof

/-- The canonical form in the terms of lists: keys rise, and no entry holds what an unlisted key reads as. -/
theorem Sparse.wf_iff {α : Type} [DecidableEq α] (d : Nat → α) (l : List (Nat × α)) :
    Sparse.wf d l = true ↔ l.Pairwise (fun a b => a.1 < b.1) ∧ ∀ e ∈ l, e.2 ≠ d e.1 := by
  have from_iff : ∀ (l : List (Nat × α)) (i : Option Nat), Sparse.wfFrom d i l = true ↔
      (∀ j, i = some j → ∀ e ∈ l, j < e.1) ∧ l.Pairwise (fun a b => a.1 < b.1) ∧ ∀ e ∈ l, e.2 ≠ d e.1 := by
    intro l
    induction l with
    | nil => simp [Sparse.wfFrom]
    | cons e l ih =>
      intro i
      obtain ⟨k, v⟩ := e
      simp only [Sparse.wfFrom, Bool.and_eq_true, ih (some k), List.pairwise_cons, List.mem_cons, forall_eq_or_imp, Option.some.injEq, forall_eq', decide_eq_true_eq]
      constructor
      · rintro ⟨⟨hi, hv⟩, hk, hp, hne⟩
        refine ⟨fun j hj => ?_, ⟨hk, hp⟩, hv, hne⟩
        subst hj
        have hjk : j < k := by simpa using hi
        exact ⟨hjk, fun e he => Nat.lt_trans hjk (hk e he)⟩
      · rintro ⟨hj, ⟨hk, hp⟩, hv, hne⟩
        refine ⟨⟨?_, hv⟩, hk, hp, hne⟩
        cases i with
        | none => rfl
        | some j => simpa using (hj j rfl).1
  simpa [Sparse.wf] using from_iff l none

end Sys2Proof

namespace Sys2Proof.Machine

/-- The addressed memory is in canonical form. -/
abbrev State.memWf (s : State) : Prop := Sparse.wf memDefault s.mem = true

theorem State.memWf_reset : State.reset.memWf := by decide

theorem State.memWf_setByte {s : State} (h : s.memWf) (k : Nat) (b : Byte) : (s.setByte k b).memWf := Sparse.wf_set memDefault k b h

theorem State.memWf_setBytes {s : State} (h : s.memWf) (k : Nat) (bs : List Byte) : (s.setBytes k bs).memWf := by
  induction bs generalizing s k with
  | nil => exact h
  | cons b bs ih => exact ih (State.memWf_setByte h k b) (k + 1)

theorem State.memWf_setWord {s : State} (h : s.memWf) (k : Nat) (w : Word) : (s.setWord k w).memWf := State.memWf_setBytes h k _

theorem State.memWf_zeroRange {s : State} (h : s.memWf) (lo hi : Nat) : (s.zeroRange lo hi).memWf := Sparse.wf_filter memDefault _ h

theorem State.memWf_takeOver {s : State} (h : s.memWf) (b : Nat) : (s.takeOver b).memWf :=
  Sparse.wf_setAll memDefault _ (Sparse.wf_filter memDefault _ h)

theorem State.memWf_zeroSram {s : State} (h : s.memWf) : s.zeroSram.memWf := Sparse.wf_filter memDefault _ h

theorem State.memWf_zeroBank {s : State} (h : s.memWf) (b : Nat) : (s.zeroBank b).memWf := Sparse.wf_filter memDefault _ h

/-- Replacing two neighbouring ranges of 0x20000 keys keeps the canonical form, if what takes their place lies in the two ranges and is itself
canonical. -/
theorem onCopies_wf (k : Nat) (f : List (Nat × Byte) → List (Nat × Byte) → List (Nat × Byte)) {l : List (Nat × Byte)}
    (h : Sparse.wf memDefault l = true)
    (hf : ∀ a b : List (Nat × Byte), Sparse.wf memDefault a = true → Sparse.wf memDefault b = true →
      (∀ e ∈ a, ucLo k ≤ e.1 ∧ e.1 < ucMid k) → (∀ e ∈ b, ucMid k ≤ e.1 ∧ e.1 < ucHi k) →
      Sparse.wf memDefault (f a b) = true ∧ ∀ e ∈ f a b, ucLo k ≤ e.1 ∧ e.1 < ucHi k) :
    Sparse.wf memDefault (onCopies k f l) = true := by
  have h1 := hf _ _ (Sparse.wf_filter memDefault (fun e => decide (ucLo k ≤ e.1) && decide (e.1 < ucMid k)) h)
    (Sparse.wf_filter memDefault (fun e => decide (ucMid k ≤ e.1) && decide (e.1 < ucHi k)) h)
    (fun e he => by simpa using (List.mem_filter.mp he).2) (fun e he => by simpa using (List.mem_filter.mp he).2)
  have lo := (Sparse.wf_iff memDefault _).mp (Sparse.wf_filter memDefault (fun e => decide (e.1 < ucLo k)) h)
  have hi := (Sparse.wf_iff memDefault _).mp (Sparse.wf_filter memDefault (fun e => decide (ucHi k ≤ e.1)) h)
  have mid := (Sparse.wf_iff memDefault _).mp h1.1
  have hle : ucLo k ≤ ucHi k := by simp only [ucLo, ucHi, ucAddr]; omega
  rw [Sparse.wf_iff]
  simp only [onCopies, List.pairwise_append, List.mem_append]
  refine ⟨⟨⟨lo.1, mid.1, fun a ha b hb => ?_⟩, hi.1, fun a ha b hb => ?_⟩, fun e he => ?_⟩
  · have : a.1 < ucLo k := by simpa using (List.mem_filter.mp ha).2
    exact Nat.lt_of_lt_of_le this (h1.2 b hb).1
  · have hb' : ucHi k ≤ b.1 := by simpa using (List.mem_filter.mp hb).2
    rcases ha with ha | ha
    · have : a.1 < ucLo k := by simpa using (List.mem_filter.mp ha).2
      omega
    · exact Nat.lt_of_lt_of_le (h1.2 a ha).2 hb'
  · rcases he with (he | he) | he
    · exact lo.2 e he
    · exact mid.2 e he
    · exact hi.2 e he

/-- Moving every key by the size of a copy keeps the canonical form. -/
theorem moveKeys_wf (up : Bool) {l : List (Nat × Byte)} (h : Sparse.wf memDefault l = true) (hl : up = true ∨ ∀ e ∈ l, 0x20000 ≤ e.1) :
    Sparse.wf memDefault (moveKeys up l) = true := by
  rw [Sparse.wf_iff] at h ⊢
  refine ⟨?_, fun e he => ?_⟩
  · rw [moveKeys, List.pairwise_map]
    refine List.Pairwise.imp_of_mem (fun {a b} ha hb hab => ?_) h.1
    rcases hl with rfl | hl
    · simpa using hab
    · have := hl a ha
      cases up
      · simp only [Bool.false_eq_true, if_false]; omega
      · simpa using hab
  · obtain ⟨x, hx, rfl⟩ := List.mem_map.mp he
    exact h.2 x hx

theorem State.memWf_exchange {s : State} (h : s.memWf) (k : Nat) : (s.exchange k).memWf := by
  refine onCopies_wf k (fun a b => moveKeys false b ++ moveKeys true a) h fun a b ha hb la lb => ?_
  have hm : ucMid k = ucLo k + 0x20000 := by simp only [ucLo, ucMid, ucAddr, Nat.mul_one, Nat.mul_zero, Nat.add_zero]
  have hh : ucHi k = ucMid k + 0x20000 := by simp only [ucHi, ucMid, ucAddr]; omega
  have ma := (Sparse.wf_iff memDefault _).mp (moveKeys_wf true ha (.inl rfl))
  have mb := (Sparse.wf_iff memDefault _).mp (moveKeys_wf false hb (.inr fun e he => by have := (lb e he).1; omega))
  have ka : ∀ e ∈ moveKeys true a, ucMid k ≤ e.1 ∧ e.1 < ucHi k := fun e he => by
    obtain ⟨x, hx, rfl⟩ := List.mem_map.mp he
    have := la x hx; simp only [if_true]; omega
  have kb : ∀ e ∈ moveKeys false b, ucLo k ≤ e.1 ∧ e.1 < ucMid k := fun e he => by
    obtain ⟨x, hx, rfl⟩ := List.mem_map.mp he
    have := lb x hx; simp only [Bool.false_eq_true, if_false]; omega
  rw [Sparse.wf_iff]
  simp only [List.pairwise_append, List.mem_append]
  refine ⟨⟨⟨mb.1, ma.1, fun x hx y hy => Nat.lt_of_lt_of_le (kb x hx).2 (ka y hy).1⟩, fun e he => he.elim (mb.2 e) (ma.2 e)⟩, fun e he => ?_⟩
  rcases he with he | he
  · have := kb e he; omega
  · have := ka e he; omega

theorem State.memWf_mirrorStore {s : State} (h : s.memWf) (k : Nat) : (s.mirrorStore k).memWf := by
  refine onCopies_wf k (fun a _ => a ++ moveKeys true a) h fun a b ha _ la _ => ?_
  have hm : ucMid k = ucLo k + 0x20000 := by simp only [ucLo, ucMid, ucAddr, Nat.mul_one, Nat.mul_zero, Nat.add_zero]
  have hh : ucHi k = ucMid k + 0x20000 := by simp only [ucHi, ucMid, ucAddr]; omega
  have ma := (Sparse.wf_iff memDefault _).mp (moveKeys_wf true ha (.inl rfl))
  have wa := (Sparse.wf_iff memDefault _).mp ha
  have ka : ∀ e ∈ moveKeys true a, ucMid k ≤ e.1 ∧ e.1 < ucHi k := fun e he => by
    obtain ⟨x, hx, rfl⟩ := List.mem_map.mp he
    have := la x hx; simp only [if_true]; omega
  rw [Sparse.wf_iff]
  simp only [List.pairwise_append, List.mem_append]
  refine ⟨⟨⟨wa.1, ma.1, fun x hx y hy => Nat.lt_of_lt_of_le (la x hx).2 (ka y hy).1⟩, fun e he => he.elim (wa.2 e) (ma.2 e)⟩, fun e he => ?_⟩
  rcases he with he | he
  · have := la e he; omega
  · have := ka e he; omega

/-- What is written in bytes of `setBytes` reads back, and every other byte stays. -/
theorem State.byte_setBytes (s : State) (k : Nat) (bs : List Byte) (j : Nat) :
    (s.setBytes k bs).byte j = if k ≤ j then (bs[j - k]?).getD (s.byte j) else s.byte j := by
  induction bs generalizing s k with
  | nil => simp [State.setBytes]
  | cons b bs ih =>
    rw [State.setBytes, ih, State.byte_setByte]
    by_cases h1 : k + 1 ≤ j
    · obtain ⟨n, rfl⟩ : ∃ n, j = k + 1 + n := ⟨j - (k + 1), by omega⟩
      have e1 : k + 1 + n - (k + 1) = n := by omega
      have e2 : k + 1 + n - k = n + 1 := by omega
      have e3 : ¬ k + 1 + n = k := by omega
      have e4 : k ≤ k + 1 + n := by omega
      simp only [h1, if_true, e1, e2, e3, e4, if_false, List.getElem?_cons_succ]
    · by_cases h2 : j = k
      · subst h2; simp
      · have h3 : ¬ k ≤ j := by omega
        simp [h1, h2, h3]

end Sys2Proof.Machine
end

