-- ==== Sys2Proof/Tests/Slice0.lean ====
section
/-! SUPPORT. The model's own tests: a smoke test of every well-formedness check, for every obligation a witness that the premises of its
clauses can be met together, and small tests of single commands against numbers worked out from the spec. -/

namespace Sys2Proof.Tests

open Sys2Proof.Machine

set_option Elab.async false

/-! Small states and operands. -/

/-- A station out of reset with its clocks running and a small beam geometry: 4 active lines of 1000, 1000 dots, 60 Hz. -/
def quiet (station : Nat) : State :=
  let s := State.reset
  let s := { s with fab := { s.fab with marching := false, wiping := false, bootStopped := false }
                    pwr := { s.pwr with released := true, state := 0, waking := false, held := false }
                    beam := { s.beam with frame := 5, pos := ⟨0, 2, 3⟩ } }
  let s := ((s.setF Reg.BEAM_ACTIVE 12 0 4).setF Reg.BEAM_TOTAL 12 0 1000).setF Reg.BEAM_DOTS 13 0 1000
  let s := ((s.setF Reg.BEAM_SWAPSTART 12 0 4).setF Reg.BEAM_RATENUM 19 0 60).setF Reg.BEAM_RATEDEN 11 0 1
  let s := (s.setReg Reg.BEAM_DEADLINE (posWord ⟨0, 10, 5⟩)).setReg Reg.BEAM_CMARK (posWord ⟨0, 5, 3⟩)
  s.setF Reg.BEAM_STATION 13 0 station

/-- Masters: the host port, an engine at port 0, Allemande's secure monitor, a debug access. -/
def host : Acc := ⟨15, false, false, false⟩
def engine : Acc := ⟨0, false, false, false⟩
def monitor : Acc := ⟨14, true, false, false⟩
def probe : Acc := ⟨14, false, true, false⟩

/-- A list of `n` bytes 1, 2, 3, … -/
def fill (n : Nat) : List Byte := (List.range n).map fun i => BitVec.ofNat 8 (i + 1)

/-- The bytes of 32-bit words, least significant byte first. -/
def words (l : List Nat) : List Byte := l.flatMap fun w => leBytes 4 w

/-- A frame of the cabinet link to station 5. -/
def frameOf (type sub src : Nat) (data : List Byte) : Frame :=
  { type := type, sub := sub, ver := 2, dmode := 0, wrap := 0, notify := false, kp := false, dst := 5, src := src, seq := 0, rseq := 0
    rsrc := 1, data := data }

/-- Station 5 with hop `h` up and expecting the frame `f` next. -/
def arrS (h : Hop) (f : Frame) (s : State) : State :=
  let s := s.setF Reg.BEAM_STATION 13 0 5
  let s := if hopTrunk h then s.setF Reg.BEAM_TRUNK 1 0 (hopPort h + 1) else s.setF (Reg.AKx_CFG (hopPort h)) 1 0 1
  let s := (s.setF (linkReg h) 5 4 2).setF (linkReg h) 2 0 5
  s.setHop h { s.hop h with rx := f.seq, rx0 := none, maxpay := 2048 }

/-- A BEAM record of subtype `sub`, and station 5 with hop `h` up, with the VOTE feature, expecting it. -/
def recOf (sub : Nat) (data : List Byte) : Frame := { frameOf 0 sub 1 data with dmode := 3, dst := 0 }
def recS (h : Hop) (s : State) : State := (arrS h (recOf 0 []) s).setBit (linkReg h) 27 true

/-- Core `c` is at a boundary at 0x0800_0100 of its local SRAM with the instruction word `w` there; r14 points into its local SRAM, r13
to shared SRAM, and each other register r`i` holds 5 + `i`. -/
def coreAt (c : Nat) (w : Word) (s : State) : State :=
  let x := s.core c
  let s := s.setCore c { x with run := .run, pc := 0x08000100, st := 0, ahead := [], results := [], stores := [], atomic := none, buserr := none
                                csue := none, stopDue := none, stepping := false
                                g := (List.range 16).map fun i => if i = 14 then 0x08000400 else if i = 13 then 0x10000000 else wd (5 + i) }
  s.setWord (localKey c 0x100) w

/-- Station 5 with hop `h` present and enabled, its lanes locked, in state `st` of its training; a frame of the training, with a record of
version `v`, or with a key agreement signed under `k`. -/
def trainS (h : Hop) (st : Nat) : State :=
  let s := ((arrS h (recOf 0 []) (quiet 5)).setF (linkReg h) 2 0 st).setBit (Reg.AKx_CTRL (hopPort h)) 0 true
  s.setHop h { s.hop h with locked := [0, 1, 2, 3] }
def handOf (sub : Nat) (data : List Byte) : Frame := { frameOf 4 sub 2 data with dmode := 3, dst := 0 }
def helloOf (v : Nat) : Frame :=
  handOf 0 (Hello.bytes { linkver := v, feat := 255, id := 7, rxlanes := 15, maxpay := 1000, versions := 0x02020203, nonce := 9 })
def keyxOf (k : Nat) : Frame := handOf 1 (fill 97 ++ [0, 0, 0] ++ fill 96 ++ leBytes 4 k)

/-- The hop's role is Ethernet. -/
def ethS (h : Hop) (s : State) : State := s.setF (Reg.AKx_CFG (hopPort h)) 1 0 2

def setCh (s : State) (c : Nat) (x : ReelCh) : State := { s with reel := { s.reel with chans := s.reel.chans.set c x } }
def setEngX (s : State) (c : Nat) (x : EngSt) : State := { s with mnt := { s.mnt with engines := s.mnt.engines.set c x } }
def setLE (s : State) (k n v : Nat) : State := s.setBytes k (leBytes n v)

/-- An image: its header, one section record and the section's data at `off`. -/
def image (type flags off len dest : Nat) (body : List Byte) : List Byte :=
  let hd := leBytes 4 0x554E5242 ++ leBytes 2 3 ++ [1, 1, 2, 0] ++ leBytes 2 1 ++ leBytes 4 0x880 ++ leBytes 4 7 ++ leBytes 4 0 ++
    leBytes 4 (off + (body.length + 15) / 16 * 16) ++ leBytes 4 0xFFFFFFFF
  let sc := leBytes 2 type ++ leBytes 2 flags ++ leBytes 4 off ++ leBytes 4 len ++ leBytes 4 dest
  hd ++ List.replicate (128 - hd.length) 0 ++ sc ++ List.replicate (64 - sc.length) 0 ++ List.replicate (off - 192) 0 ++ body

/-- `bs` in the staging area at 0x1000_0000. -/
def staged (bs : List Byte) (s : State) : State :=
  let s := (s.setReg Reg.IMG_STGBASE 0x10000000).setReg Reg.IMG_STGLEN 0x1000
  { s with mem := (bs.zipIdx.filter fun e => e.1 ≠ 0).map fun e => (0x10000000 + e.2, e.1) }

/-- `bs` at the start of the flash device. -/
def flashed (bs : List Byte) (s : State) : State :=
  { s with img := { s.img with flash := (bs.zipIdx.filter fun e => e.1 ≠ 0xFF).map fun e => (e.2, e.1) } }

/-- A geometry that the image rules accept, in the active and in the shadow registers. -/
def goodRegs (s : State) : State :=
  [(Reg.CLK_BPLLN, 8, 0, 100), (Reg.CLK_BPLLD, 6, 0, 49), (Reg.BEAM_RATENUM, 19, 0, 50), (Reg.BEAM_RATEDEN, 11, 0, 1),
   (Reg.BEAM_ACTIVE, 12, 0, 4), (Reg.BEAM_TOTAL, 12, 0, 1000), (Reg.BEAM_DOTS, 13, 0, 1000), (Reg.BEAM_SWAPSTART, 12, 0, 4),
   (Reg.BEAM_DEADLINE, 31, 0, 10 * 65536 + 5), (Reg.BEAM_CMARK, 31, 0, 5 * 65536 + 3), (Reg.QDL_WIDTH, 12, 0, 16), (Reg.QDL_STRUCT, 12, 8, 8),
   (Reg.QDL_STRUCT, 7, 4, 15), (Reg.QDL_CLLINES, 8, 0, 72)].foldl
    (fun t e => (t.setF e.1 e.2.1 e.2.2.1 e.2.2.2).setShd e.1 (setFld (t.shd e.1) e.2.1 e.2.2.1 e.2.2.2)) s

/-- A compositor frame of the beam's frame with nothing in it. -/
def qf (s : State) : QFrame := { frame := s.beam.frame, sf := s.beam.pos.sf, regs := [], shows := [], sprites := [], before := [], sect := false }

/-- The head frame of the present sub-frame with its 4 lines confirmed in the ring. -/
def headS (s : State) : State :=
  { s with qdl := { s.qdl with frames := [qf s], lines := (List.range 4).map fun y => ⟨s.beam.frame, 0, y, y, 0x10000000 + 1024 * y, true, true, none, [], false⟩ } }

/-- The panel ports run, with port `p` enabled on profile 0, direct or buffered. -/
def panelS (p : Nat) (direct : Bool) : State :=
  let s := ((quiet 0).setBit Reg.PNL_CTRL 0 true).setBit (Reg.PNL_PORTp_CFG p) 0 true
  ((s.setBit (Reg.PNL_PROFx_CFG 0) 0 direct).setF Reg.QDL_STRUCT 12 8 8).setBit Reg.REEL_CTRL 0 true

/-- Engine 0 runs and stands before the beam word `w`, or with `v1` before the v1 word `w`. -/
def engS (v1 : Bool) (w : Nat) : State :=
  let s := quiet 0
  let s := (setEngX (s.setF (Reg.MNT_ENGe_STAT 0) 2 0 1) 0 { s.eng 0 with stage := .ready }).setBit (Reg.MNT_ENGe_CTRL 0) 1 v1
  setLE s (beamStore + 16 * (s.engPc 0 % 16384)) 16 w

/-- Engine 0 in stage `g`. -/
def stageS (g : Stage) : State := let s := quiet 0; setEngX s 0 { s.eng 0 with stage := g }

/-- One entry of each queue. -/
def oneBlk : BlkJob := ⟨1, 0x10000000, 0x10000100, 16, 16, 1, 2, 0, 0, 0, 0⟩
def oneStore : GvStore := ⟨0, 0, 0, 0, []⟩
def oneOut : ReelOut := ⟨0, 0, [], []⟩
def oneJob : Job := ⟨.migrateOut, false, 3, 0, 0, false, 0, some (0, false)⟩

/-! Witnesses: for each obligation, states and operands that meet the premises of its clauses. -/

/-- The premises of the clauses of `BeamControl` are met. -/
theorem wit_BeamControl : [
    (let m : Acc := host; let s : State := quiet 0; decide (m.debug = false ∧ s.targetOff Reg.BEAM_CTRL = false ∧ s.targetOff Reg.BEAM_POS = false)),
    (let m : Acc := ⟨15, false, true, false⟩; let s : State := quiet 0; let s : State := { s with sec.level := 1 }; decide (m.debug = true ∧
         s.targetOff Reg.BEAM_POS = false ∧ s.sec.level ≠ 0)),
    (let s : State := quiet 0; decide (s.targetOff Reg.BEAM_CTRL = false ∧ s.running = false ∧ s.tableOk = true)),
    (let s : State := quiet 0; let s : State := s.setF Reg.BEAM_RATEDEN 11 0 0; decide (s.targetOff Reg.BEAM_CTRL = false ∧ s.running = false ∧
         s.tableOk = false)),
    (let s : State := quiet 0; let s : State := s.setBit Reg.BEAM_CTRL 0 true; decide (s.targetOff Reg.BEAM_CTRL = false ∧ s.running = true)),
    (let m : Acc := host; let s : State := quiet 0; let s : State := { s with pwr.state := 5 }; decide (m.debug = false ∧
         s.targetOff Reg.BEAM_CTRL = true ∧ s.targetOff Reg.BEAM_POS = true))].all id = true := by decide +kernel

/-- The premises of the clauses of `FrameBoundary` are met. -/
theorem wit_FrameBoundary : [
    (let s : State := quiet 0; let s : State := s.setBit Reg.BEAM_CTRL 0 true; let s : State := { s with beam.stopReq := true };
     decide (s.frozen = false ∧ s.running = true ∧ s.beam.stopReq = true)),
    (let s : State := quiet 0; let s : State := s.setBit Reg.BEAM_CTRL 0 true; decide (s.frozen = false ∧ s.running = true ∧ s.beam.stopReq = false ∧
         s.img.restart = false)),
    (let s : State := quiet 0; let s : State := s.setBit Reg.BEAM_CTRL 0 true; let s : State := { s with img.restart := true };
     decide (s.frozen = false ∧ s.running = true ∧ s.beam.stopReq = false ∧ s.img.restart = true)),
    (let sf : Fin 4 := 2; let s : State := quiet 5; let s : State := s.setBit Reg.BEAM_CTRL 0 true; let s : State := s.setF Reg.BEAM_CTRL 2 1 3;
     decide (s.frozen = false ∧ s.running = true ∧ sf.val ≠ 0 ∧ sf.val ≤ s.subfm1))].all id = true := by decide +kernel

/-- The premises of the clauses of `CommitGroups` are met. -/
theorem wit_CommitGroups : [
    (let m : Acc := host; let s : State := quiet 0; decide (m.debug = false ∧ s.targetOff Reg.COT_COMMIT = false)),
    (let s : State := quiet 0; let s : State := s.setBit Reg.BEAM_CTRL 0 true; decide (s.frozen = false ∧ s.running = true)),
    (let s : State := quiet 0; let s : State := { s with beam.pos := ⟨0, 0, 0⟩ }; let s : State := s.setF Reg.COT_INFLIGHT 9 8 3;
     decide (s.frozen = false ∧ s.beam.pos = ⟨0, 0, 0⟩ ∧ s.inFlight 8 = true ∧ s.inFlight 9 = true)),
    (let s : State := quiet 0; let s : State := { s with beam.frame := 0 }; decide (s.frozen = false ∧ s.firstOfFrame s.snd.k = true)),
    (let s : State := quiet 0; decide (s.frozen = false ∧ s.atFlipPoint = true))].all id = true := by decide +kernel

/-- The premises of the clauses of `MatchesAndTriggers` are met. -/
theorem wit_MatchesAndTriggers : [
    (let n : Fin 4 := 0; let sf : Nat := 0; let s : State := quiet 0; let s : State := s.setBit Reg.BEAM_CTRL 0 true;
     let s : State := s.setBit (Reg.BEAM_MATCHn n) 15 true; let p : BPos := posOf (s.reg (Reg.BEAM_MATCHn n)); decide (s.frozen = false ∧
         s.running = true ∧ s.bit (Reg.BEAM_MATCHn n) 15 = true ∧ s.inGeometry p.line p.dot = true ∧ s.matchBad n = false ∧ sf ≤ s.subfm1 ∧
         s.bit (Reg.BEAM_MATCHn n) 29 = false)),
    (let n : Fin 4 := 3; let sf : Nat := 0; let s : State := quiet 0; let s : State := s.setBit Reg.BEAM_CTRL 0 true;
     let s : State := (s.setBit (Reg.BEAM_MATCHn n) 15 true).setBit (Reg.BEAM_MATCHn n) 29 true; let p : BPos := posOf (s.reg (Reg.BEAM_MATCHn n));
     decide (s.frozen = false ∧ s.running = true ∧ s.bit (Reg.BEAM_MATCHn n) 15 = true ∧ s.inGeometry p.line p.dot = true ∧ s.matchBad n = false ∧
         sf ≤ s.subfm1 ∧ sf = p.sf)),
    [(0, 0), (1, 1), (4, 1), (9, 2)].all (fun (act, rep) => let n : Fin 32 := 24; let sf : Nat := 0; let s : State := quiet 0;
     let s : State := s.setBit Reg.BEAM_CTRL 0 true; let s : State := (s.setF (Reg.COT_TRGn_ACT n) 5 0 act).setF (Reg.COT_TRGn_ACT n) 31 16 100;
     let p : BPos := posOf (s.reg (Reg.COT_TRGn_POS n)); decide (s.frozen = false ∧ s.running = true ∧ s.inGeometry p.line p.dot = true ∧
         s.inActive p.line p.dot = true ∧ sf ≤ s.subfm1 ∧ p.line + rep * s.f (Reg.COT_TRGn_ACT n) 31 16 < s.total ∧
         (rep = 0 ∨ s.f (Reg.COT_TRGn_ACT n) 31 16 ≠ 0) ∧ s.f (Reg.COT_TRGn_ACT n) 5 0 = act)),
    (let w : TimedW := { eng := 0, frame := 0, pos := { sf := 0, line := 0, dot := 0 }, space := 6, addr := 0, data := 0, late := true };
     let s : State := quiet 0; let s : State := s.setBit Reg.BEAM_CTRL 0 true; let s : State := { s with mnt.timed := [w] };
     let u : State := s.beamAt ⟨0, 2, 9⟩; decide (s.frozen = false ∧ s.running = true ∧ s.mnt.timed = [w] ∧ w.late = true ∧ w.space = 6 ∧ w.addr < 16 ∧
         firstTimed (u.mnt.timed.filter fun w => w.late || instLe (w.frame, w.pos) u.now) = some w))].all id = true := by decide +kernel

/-- The premises of the clauses of `StudioSync` are met. -/
theorem wit_StudioSync : [
    (let s : State := quiet 0; let s : State := s.setBit Reg.BEAM_CTRL 0 true; let s : State := { s with beam.stepDue := true };
     let s : State := s.setF Reg.BEAM_LOCKSTAT 1 0 1; let s : State := s.setF Reg.BEAM_STATION 13 0 5; decide (s.frozen = false ∧ s.running = true ∧
         s.beam.stepDue = true ∧ s.lock = 1)),
    (let r : Bool := true; let rate : Int := 1000000; let s : State := quiet 0; let s : State := s.setF Reg.BEAM_LOCKCTL 1 0 1;
     let s : State := s.setBit Reg.BEAM_CTRL 0 true; let e : Int := s.refError 1000 0; decide (s.frozen = false ∧ s.isHead = true ∧
         s.f Reg.BEAM_LOCKCTL 1 0 = 1 ∧ s.running = true ∧ s.fsyncSelected r = true ∧ 4 * absI e ≤ ((s.refFrames * s.framePs : Nat) : Int) ∧
         absI rate ≤ 1000000)),
    (let r : Bool := true; let s : State := quiet 0; let s : State := s.setF Reg.BEAM_LOCKCTL 1 0 1; let s : State := s.setBit Reg.BEAM_CTRL 0 true;
     let e : Int := s.refError 6000000000 0; decide (s.frozen = false ∧ s.isHead = true ∧ s.f Reg.BEAM_LOCKCTL 1 0 = 1 ∧ s.running = true ∧
         s.fsyncSelected r = true ∧ ((s.refFrames * s.framePs : Nat) : Int) < 4 * absI e)),
    (let sf : Nat := 0; let s : State := quiet 0; let s : State := (s.setBit Reg.BEAM_CTRL 0 true).setReg Reg.BEAM_FSOUT (wd (2 * 2^14 + 2^16));
     decide (s.frozen = false ∧ s.fsoutFires sf = true))].all id = true := by decide +kernel

/-- The premises of the clauses of `MarksAndPtp` are met. -/
theorem wit_MarksAndPtp : [
    (let sf : Nat := 0; let line : Nat := 96; let s : State := quiet 0; let s : State := s.setBit Reg.BEAM_CTRL 0 true; decide (s.frozen = false ∧
         s.pwr.state < 3 ∧ s.isHead = true ∧ s.running = true ∧ line % 16 = 0 ∧ line < s.total ∧ sf ≤ s.subfm1)),
    [(190, false), (190, true), (192, false)].all (fun (hops, old) => let h : Hop := .ringA;
     let m : Mark := { frame := 1, pos := { sf := 1, line := 3, dot := 2 }, corr := 0, hops := hops, hold := true, locked := true, rate := 1000000 };
     let f : Frame := recOf 0 m.bytes; let s : State := recS h (quiet 5);
     let s : State := { s with beam.seen := if old then [(1, { sf := 1, line := 3, dot := 2 })] else [] }; let u : State := (s.takeRecord 0 h true f).2;
     decide (s.frozen = false ∧ (s.takeRecord 0 h true f).1 = true ∧ f.mark = m ∧ ((m.frame, m.pos) ∈ u.beam.seen ↔ old = true) ∧ u.pwr.state < 3 ∧
         (u.noteHops h (some m.hops)).sourceHop = some h ∧ absI m.rate ≤ 1000000 ∧ u.lock = 0)),
    (let h : Hop := .ringA; let f : Frame := recOf 0 []; let s : State := recS h (quiet 5); decide (s.frozen = false ∧ (s.takeRecord 0 h true f).1 = false)),
    (let d : Nat := 31; let s : State := quiet 5;
     let s : State := ((s.setF Reg.BEAM_STATION 13 0 0).setF Reg.BEAM_LOCKCTL 1 0 2).setF Reg.BEAM_LOCKCTL 22 16 d;
     let s : State := s.setF (Reg.AKx_CFG 0) 1 0 2; decide (s.frozen = false ∧ s.ptpOn d = true ∧ s.beam.ptpBest = none)),
    (let d : Nat := 31;
     let a : Announce := { prio1 := 1, clockClass := 1, accuracy := 1, variance := 1, prio2 := 1, identity := 0x88ea575c322, steps := 1, source := 0 };
     let s : State := quiet 5; let s : State := ((s.setF Reg.BEAM_STATION 13 0 0).setF Reg.BEAM_LOCKCTL 1 0 2).setF Reg.BEAM_LOCKCTL 22 16 d;
     let s : State := s.setF (Reg.AKx_CFG 0) 1 0 2;
     let s : State := { s with beam.ptpBest := some a }; decide (s.frozen = false ∧ s.ptpOn d = true ∧ s.beam.ptpBest = some a))].all id = true := by decide +kernel

/-- The premises of the clauses of `BeamSources` are met. -/
theorem wit_BeamSources : [
    (let h : Hop := .trunkA; let s : State := recS h (quiet 5); decide (s.frozen = false ∧ s.hopUp h = true ∧
         (s.takeRecord 1 h true (recOf 1 (psBytes 5))).1 = true ∧ (s.takeRecord 1 h true (recOf 0 [])).1 = false ∧
         (s.takeRecord 2 h true (recOf 2 (psBytes 5 ++ psBytes 7 ++ psBytes 9))).1 = true ∧ (s.takeRecord 2 h true (recOf 2 [])).1 = false)),
    (let a : Nat := 31; let b : Nat := 256; let s : State := quiet 5; let s : State := { s with beam.hopsA := some a };
     let s : State := { s with beam.hopsB := some b }; decide (s.frozen = false ∧ s.sourceHop = some .ringA ∧
         (s.noteHops .ringA none).sourceHop = some .ringB)),
    (let s : State := quiet 5; let s : State := { s with beam.hopsA := some 31 }; decide (s.frozen = false ∧ s.sourceHop = some .ringA ∧
         (s.noteHops .ringA none).sourceHop = none)),
    (let s : State := (quiet 64).setF Reg.BEAM_TRUNK 1 0 1; decide (s.frozen = false ∧ s.sourceHop = some .trunkA ∧
         (s.noteHops .trunkA none).sourceHop = some .trunkA)),
    (let s : State := quiet 5; let s : State := s.setF Reg.BEAM_LOCKSTAT 1 0 2; decide (s.frozen = false ∧ s.lock = 2 ∧ s.headFree = false))].all id = true := by decide +kernel

/-- The premises of the clauses of `WallVote` are met. -/
theorem wit_WallVote : [
    (let s : State := quiet 0; let s : State := s.setF Reg.BEAM_SWAPCTL 1 0 1; let s : State := s.setBit Reg.BEAM_CTRL 0 true;
     decide (s.frozen = false ∧ s.wallMode = true ∧ s.running = true ∧ s.beam.vote = none)),
    (let s : State := quiet 0; let s : State := s.setF Reg.BEAM_SWAPCTL 1 0 1; let s : State := s.setBit Reg.BEAM_CTRL 0 true;
     let s : State := { s with beam.vote := some true }; decide (s.frozen = false ∧ s.wallMode = true ∧ s.running = true ∧ s.beam.vote = some true)),
    (let h : Hop := .ringB; let s : State := recS h (quiet 5); let f : Frame := recOf 3 (voteBytes 5 0 3 2); let u : State := (s.takeRecord 3 h true f).2;
     decide (s.frozen = false ∧ (s.takeRecord 3 h true f).1 = true ∧ u.beam.sent = false ∧ f.le 0 8 = u.beam.frame ∧ f.le 8 1 % 4 = u.beam.pos.sf)),
    (let h : Hop := .ringB; let s : State := recS h (quiet 5); let s : State := { s with beam.sent := true }; let f : Frame := recOf 3 (voteBytes 5 0 3 2);
     let u : State := (s.takeRecord 3 h true f).2; decide (s.frozen = false ∧ (s.takeRecord 3 h true f).1 = true ∧ u.beam.sent = true)),
    (let s : State := (quiet 5).setF Reg.BEAM_SWAPCTL 1 0 1; let s : State := s.setBit Reg.BEAM_CTRL 0 true;
     let s : State := { s with beam := { s.beam with hopsA := some 1, vote := some true } }; decide (s.frozen = false ∧ s.wallMode = true ∧ s.running = true ∧
         s.beam.sent = false ∧ s.sourceHop = some .ringA ∧ s.votesIn = true)),
    (let s : State := quiet 0; let s : State := s.setF Reg.BEAM_SWAPCTL 1 0 1; let s : State := s.setBit Reg.BEAM_CTRL 0 true;
     decide (s.frozen = false ∧ s.isHead = true ∧ s.wallMode = true ∧ s.running = true)),
    [(5, true), (4, false)].all (fun (n, keep) => let h : Hop := .ringA; let s : State := recS h (quiet 5);
     let f : Frame := recOf 4 (decisionBytes n 0 true); let u : State := (s.takeRecord 4 h true f).2; decide (s.frozen = false ∧
         (s.takeRecord 4 h true f).1 = true ∧ f.le 0 8 = n ∧ (n = u.beam.frame ↔ keep = true) ∧ f.le 8 1 % 4 = u.beam.pos.sf)),
    (let h : Hop := .ringA; let s : State := recS h (quiet 5); let s : State := { s with beam.paired := true }; let p : BPos := ⟨0, 7, 9⟩;
     let f : Frame := recOf 5 (pairReadyBytes 5 p); let u : State := (s.takeRecord 5 h true f).2; decide (s.frozen = false ∧
         (s.takeRecord 5 h true f).1 = true ∧ posOfNat (f.le 8 4) = p ∧ u.beam.paired = true ∧ h = ringHop (u.f Reg.BEAM_PAIR 18 18) ∧
         f.le 0 8 = u.beam.frame ∧ p.sf = u.beam.pos.sf)),
    (let h : Hop := .ringA; let s : State := recS h (quiet 5); decide (s.frozen = false ∧ (s.takeRecord 3 h true (recOf 3 [])).1 = false ∧
         (s.takeRecord 4 h true (recOf 4 [])).1 = false ∧ (s.takeRecord 5 h true (recOf 5 [])).1 = false)),
    (let s : State := quiet 5; decide (s.frozen = false ∧ atOrBefore s.beam.pos ⟨0, s.f Reg.BEAM_SWAPSTART 12 0, 0⟩ = true ∧
         s.downHops.filter (fun h => decide (some h ≠ none)) = []))].all id = true := by decide +kernel

/-- The premises of the clauses of `MemoryAccess` are met. -/
theorem wit_MemoryAccess : [
    (let s : State := { quiet 0 with fab := { (quiet 0).fab with marching := true } }; decide ((s.roundStart 0).fab.marching = true)),
    (let s : State := quiet 0; let v : State := s.roundStart 0; decide (v.fab.marching = false ∧ v.grant 0 3 = none)),
    (let b : Fin 32 := 16; let q : PortReq := { addr := 0x10000105, write := false, mask := 32769, data := 0x1122334455667788990011, pair := 0 };
     let port : Nat := 4; let wa : Nat := 0x10000100; let s : State := quiet 0; let s : State := { s with fab.pend := [⟨port, q, false⟩] };
     decide (s.fab.marching = false ∧ s.img.slotDue = false ∧ port < 16 ∧ bankOf q.addr = b.val ∧ s.fab.pend = [⟨port, q, false⟩] ∧
         s.bankBusy (bankOf wa) = false ∧ s.mark wa = .none ∧ q.write = false ∧ s.regionAllows port wa false = true) &&
         ((s.roundStart 7).grant 7 b.val).isSome),
    (let b : Fin 32 := 16; let q : PortReq := { addr := 0x10000105, write := true, mask := 32769, data := 0x1122334455667788990011, pair := 0 };
     let port : Nat := 4; let wa : Nat := 0x10000100; let s : State := quiet 0; let s : State := { s with fab.pend := [⟨port, q, false⟩] };
     decide (s.fab.marching = false ∧ s.img.slotDue = false ∧ port < 16 ∧ bankOf q.addr = b.val ∧ s.fab.pend = [⟨port, q, false⟩] ∧
         s.bankBusy (bankOf wa) = false ∧ s.mark wa = .none ∧ q.write = true ∧ s.regionAllows port wa true = true ∧
         s.stagingLocked port wa = false))].all id = true := by decide +kernel

/-- The premises of the clauses of `WindowsAndAnswers` are met. -/
theorem wit_WindowsAndAnswers : [
    (let port : Fin 16 := 8; let r : Ret := { port := 8, addr := 0, code := 0, data := 0 }; let s : State := quiet 0;
     let s : State := { s with fab.rets := [{ r with port := 3 }, r] }; decide (s.fab.rets.find? (fun r => decide (r.port = port.val)) = some r)),
    (let port : Fin 16 := 8; let s : State := quiet 0; decide (s.fab.rets.find? (fun r => decide (r.port = port.val)) = none)),
    (let a : Nat := 0x30000000; let s : State := quiet 0; let s : State := { s with fab.wiping := true }; decide (s.fab.wiping = true ∧ 0x30000000 ≤ a ∧
         a < 0x30040000)),
    (let a : Nat := 0; let s : State := quiet 0; decide (inSram a = false ∧ s.fab.wiping = false ∧ s.bit Reg.MRC_ERRINFO 31 = false)),
    (let a : Nat := 0x30040000; let s : State := (quiet 0).setBit Reg.MRC_ERRINFO 31 true; decide (inSram a = false ∧ 0x30040000 ≤ a ∧
         s.bit Reg.MRC_ERRINFO 31 = true))].all id = true := by decide +kernel

/-- The premises of the clauses of `EccAndScrub` are met. -/
theorem wit_EccAndScrub : [
    (let w : Nat := 0x10000010; let s : State := quiet 0; let s : State := { s with fab := { s.fab with wb := [0x10000010, 0x10000020] } };
     decide (w ∈ s.fab.wb ∧ 0x10000030 ∉ s.fab.wb)),
    (let s : State := quiet 0; decide (s.bit Reg.MRC_CTRL 0 = true ∧ s.f Reg.MRC_SCRUB 15 0 ≠ 0 ∧ s.pwr.state < 2 ∧ s.fab.marching = false)),
    (let m : Acc := host; let s : State := quiet 0; decide (m.debug = false ∧ s.targetOff Reg.MRC_CEPOL = false)),
    (let mem : Fin 6 := 4; let s : State := quiet 0; decide (mem.val = 2 ∨ s.pwr.state < 2) && (s.pwr.memScrub[mem.val]?).isSome),
    (let s : State := quiet 0; let s : State := s.setBit Reg.MRC_ERRINFO 31 true; let s : State := s.setF Reg.MRC_ERRINFO 2 0 4;
     let s : State := flashed (image 6 1 192 64 0x10000000 (fill 64)) s; let s : State := s.setReg Reg.MRC_ERRADDR 0x10000010;
     let e : Nat := (s.reg Reg.MRC_ERRADDR).toNat; let k : Nat := s.f Reg.IMG_BOOT 3 2 + 1;
     decide (s.bit Reg.MRC_ERRINFO 31 = true ∧ s.f Reg.MRC_ERRINFO 2 0 = 4 ∧ k < 3 ∧ inSram e = true) && (s.homeSection k (e / 16 * 16) 16).isSome),
    (let s : State := quiet 0; let s : State := s.setBit Reg.MRC_ERRINFO 31 true; let s : State := s.setF Reg.MRC_ERRINFO 2 0 4;
     let s : State := flashed (image 6 1 192 64 0x20000000 (fill 64)) s; let s : State := s.setReg Reg.MRC_ERRADDR 0x20000010;
     let e : Nat := (s.reg Reg.MRC_ERRADDR).toNat; let k : Nat := s.f Reg.IMG_BOOT 3 2 + 1;
     decide (s.bit Reg.MRC_ERRINFO 31 = true ∧ s.f Reg.MRC_ERRINFO 2 0 = 4 ∧ k < 3 ∧ inSram e = false ∧ 0x20000000 ≤ e ∧ e < 0x20020000) &&
         (s.homeSection k (e / 8 * 8) 8).isSome)].all id = true := by decide +kernel

/-- The premises of the clauses of `March` are met. -/
theorem wit_March : [
    (let m : Acc := host; let s : State := quiet 0; decide (m.debug = false ∧ s.targetOff Reg.MRC_REQ = false ∧ s.engineIdle = true) && s.freeSpare.isSome),
    (let s : State := quiet 0; let s : State := (s.setF (Reg.MRC_CECNTq 32) 11 10 2).setF (Reg.MRC_CECNTq 33) 11 10 2;
     decide (s.targetOff Reg.MRC_REQ = false ∧ s.engineIdle = true ∧ s.freeSpare = none)),
    (let s : State := quiet 0; let s : State := { s with fab := { s.fab with job := some oneJob } }; decide (s.targetOff Reg.MRC_REQ = false ∧
         s.engineIdle = false)),
    (let j : Job := { step := .spare, destroying := false, lbank := 0, src := 0, dst := 32, started := false, copied := 0, read := none };
     let s : State := quiet 0; let s : State := { s with fab := { s.fab with jobs := [j] } }; decide (s.fab.job = none ∧ s.fab.jobs = [j] ∧
         s.carried j.src = some 0)),
    [(0, false), (131071, true)].all (fun (i, c) =>
     let j : Job := { step := .migrateOut, destroying := false, lbank := 3, src := 0, dst := 0, started := true, copied := i, read := some (i, c) };
     let s : State := quiet 0; let s : State := { s with fab.job := some j }; decide (s.fab.job = some j ∧ j.read = some (i, c))),
    [JobStep.spare, JobStep.migrateOut, JobStep.migrateBack].all (fun st =>
     let j : Job := { step := st, destroying := false, lbank := 31, src := 0, dst := 33, started := true, copied := 131072, read := none };
     let s : State := quiet 0; let s : State := { s with fab.job := some j }; decide (s.fab.job = some j ∧ j.started = true ∧ j.copied = 131072 ∧
         j.read = none ∧ j.lbank < 32 ∧ j.dst < 34 ∧ j.step ≠ .test)),
    [(true, true), (true, false), (false, true), (false, false)].all (fun (d, wrong) =>
     let j : Job := { step := .test, destroying := d, lbank := 0, src := 0, dst := 0, started := false, copied := 0, read := none };
     let reads : List MarchRead := [⟨false, 2, 5, if wrong then 1 else 0⟩]; let s : State := quiet 0; let s : State := { s with fab.job := some j };
     decide (s.fab.job = some j ∧ j.step = .test ∧ j.destroying = d ∧ reads.any readWrong = wrong ∧ j.lbank < 32)),
    [(1, true), (3, false)].all (fun (n, fits) =>
     let reads : List (Fin 34 × MarchRead) := ([⟨4, ⟨false, 2, 5, 1⟩⟩, ⟨5, ⟨true, 6, 5, 1⟩⟩, ⟨31, ⟨false, 3, 5, 1⟩⟩] :
       List (Fin 34 × MarchRead)).take n;
     let bad := (List.range 34).filter fun q => reads.any fun r => decide (r.1.val = q) && readWrong r.2; let banks := bad.filter fun q => decide (q < 32);
     let spares := [32, 33].filter fun q => !bad.contains q; let s : State := quiet 0; let s : State := { s with fab.marching := true };
     decide (s.fab.marching = true ∧ s.fab.held = [] ∧ banks.length = n ∧ (banks.length ≤ spares.length ↔ fits = true))),
    (let s : State := quiet 0; let s : State := { s with fab.wiping := true }; decide (s.fab.wiping = true ∧ s.fab.stalled = []))].all id = true := by decide +kernel

/-- The premises of the clauses of `Quadrille` are met. -/
theorem wit_Quadrille : [
    (let m : Acc := host; let n : Fin 12 := 0; let s : State := quiet 0; decide (m.debug = false ∧ s.targetOff Reg.QDL_CTRL = false ∧
         s.targetOff Reg.QDL_LANEPOL = false ∧ s.targetOff (Reg.LAYn_FENCE n.val) = false ∧ s.bit Reg.QDL_CTRL 0 = false ∧
         s.bit (Reg.LAYn_FENCE n.val) 0 = false ∧ (s.layer n.val).lateOpen = [] ∧ (s.layer n.val).lateOpen.filter (fun m => decide (m ≤ s.beam.frame)) = [])),
    (let m : Acc := host; let n : Fin 12 := 0; let s : State := (quiet 0).setBit Reg.QDL_CTRL 0 true; let s : State := s.setBit (Reg.LAYn_FENCE n.val) 0 true;
     decide (m.debug = false ∧ s.targetOff Reg.QDL_CTRL = false ∧ s.targetOff (Reg.LAYn_FENCE n.val) = false ∧ s.bit Reg.QDL_CTRL 0 = true ∧
         s.bit (Reg.LAYn_FENCE n.val) 0 = true)),
    (let n : Fin 12 := 0; let s : State := quiet 0;
     let s : State := { s with qdl := { s.qdl with layers := List.replicate 12 { emptyLayer with lateOpen := [4] } } };
     decide (s.targetOff (Reg.LAYn_FENCE n.val) = false ∧ s.frozen = false ∧ s.bit (Reg.LAYn_FENCE n.val) 0 = false ∧
         (s.layer n.val).lateOpen = [4] ∧ s.streamed n.val = false ∧ s.qdl.lines = [] ∧ s.bankOk n.val (1 - s.front n.val) = true ∧
         (s.layer n.val).lateOpen.partition (fun m => decide (m ≤ s.beam.frame)) = ([4], []))),
    (let n : Fin 12 := 0; let s : State := (quiet 0).setF (Reg.LAYn_TYPE n.val) 2 0 1;
     let s : State := { s with qdl := { s.qdl with layers := List.replicate 12 { emptyLayer with lateOpen := [4] } } };
     decide (s.targetOff (Reg.LAYn_FENCE n.val) = false ∧ s.bit (Reg.LAYn_FENCE n.val) 0 = false ∧
         (s.layer n.val).lateOpen = [4] ∧ s.streamed n.val = false ∧ s.qdl.lines = [] ∧ s.bankOk n.val (1 - s.front n.val) = false)),
    (let n : Fin 12 := 0; let s : State := ((quiet 0).setF (Reg.LAYn_TYPE n.val) 2 0 2).setBit (Reg.LAYn_BANK n.val) 2 true;
     let s : State := s.setBit (Reg.LAYn_Bb_CTRL n.val 0) 14 true;
     let s : State := { s with qdl := { s.qdl with layers := List.replicate 12 { emptyLayer with lateOpen := [4] } } };
     decide (s.bit (Reg.LAYn_FENCE n.val) 0 = false ∧ s.streamed n.val = true)),
    (let l : Fin 4 := 1; let s : State := (quiet 0).setReg Reg.QDL_LANEPOL 0x00050001; decide (s.frozen = false ∧
         s.qdl.lines.find? (fun x => !x.composed) = none ∧ s.qdl.lines.find? (fun x => !x.confirmed && s.mayConfirm x) = none ∧ s.mnt.issued = [] ∧
         s.f Reg.QDL_LANEPOL 7 0 ≠ 0 ∧ s.f Reg.QDL_LANEPOL 31 16 ≠ 0 ∧ s.bit Reg.QDL_LANE (4 + l.val) = false ∧
         s.f Reg.QDL_LANEERR (8 * l.val + 7) (8 * l.val) + 1 = s.f Reg.QDL_LANEPOL 7 0 ∧ s.bit Reg.QDL_CTRL 0 = false)),
    (let s : State := ((quiet 0).setBit Reg.QDL_CTRL 0 true).setBit Reg.BEAM_CTRL 0 true; let s : State := s.setF Reg.QDL_CLLINES 8 0 72;
     let s : State := { s with beam := { s.beam with frame := 0 },
                               qdl := { s.qdl with active := true, frame := 0, sf := 0, next := 0, frames := [] } };
     let f := s.qdl.frame; let sf := s.qdl.sf; let y := s.qdl.next;
     let u : State := if y = 0 then s.openFrame f sf else s;
     decide (s.frozen = false ∧ s.bit Reg.QDL_CTRL 0 = true ∧ s.qdl.active = true ∧ s.running = true ∧ f = 0 ∧
         s.leadOf (f, sf, y) ≤ 64 ∧ y + 1 < s.lines) && (match u.frameOf f sf with
       | some q => (let slots := q.f Reg.QDL_CLLINES 8 0;
           let slot := if y = 0 ∧ u.qdl.ringKey ≠ ((q.reg Reg.QDL_CLBASE).toNat, slots, q.stride) then 0
             else if slots = 0 then 0 else u.qdl.ringNext % slots;
           let addr := (q.reg Reg.QDL_CLBASE).toNat + slot * q.stride;
           decide ((u.qdl.lines.any fun l => decide (l.addr = addr) && u.slotHeld l) = false ∧
             u.qdl.log.length + (u.qdl.queue.filter fun w => keyLe (u.effect w) (f, sf, y)).length ≤ 512))
       | none => false)),
    (let s : State := ((quiet 0).setBit Reg.QDL_CTRL 0 true).setBit Reg.BEAM_CTRL 0 true; let s : State := s.setF Reg.QDL_CLLINES 8 0 72;
     let s : State := { s with qdl := { s.qdl with active := true, mark := some 4, frame := 5, sf := 0, next := 3, frames := [{ qf s with frame := 5, sf := 0 }] } };
     let f := s.qdl.frame; let sf := s.qdl.sf; let y := s.qdl.next;
     decide (s.bit Reg.QDL_CTRL 0 = true ∧ s.qdl.active = true ∧ s.running = true ∧ f ≠ 0 ∧ s.qdl.mark = some 4 ∧ f ≤ 4 + 1 ∧
         s.leadOf (f, sf, y) ≤ 64 ∧ y < s.lines ∧ s.lines ≤ y + 1 ∧ s.qdl.lines = [] ∧ s.qdl.log = [] ∧ s.qdl.queue = []) &&
       (match s.frameOf f sf with
       | some _ => true
       | none => false)),
    (let s : State := quiet 0;
     let s : State := { s with qdl := { s.qdl with frames := [qf s], lines := [⟨s.beam.frame, 0, 1, 1, 0x10000400, false, false, none, [], false⟩] } };
     decide (s.frozen = false) && (match s.qdl.lines.find? (fun x => !x.composed) with
       | some l => ((match s.frameOf l.frame l.sf with
         | some _ => true
         | _ => false))
       | _ => false)),
    (let s : State := quiet 0;
     let s : State := { s with qdl := { s.qdl with frames := [qf s], lines := [⟨s.beam.frame, 0, 1, 1, 0x10000400, true, false, none, [], false⟩] } };
     decide (s.frozen = false) && (match s.qdl.lines.find? (fun x => !x.confirmed && s.mayConfirm x) with
       | some l => ((match s.frameOf l.frame l.sf with
         | some _ => true
         | _ => false))
       | _ => false)),
    (let w : RasterW := { eng := 0, seq := 0, frame := 0, sf := 0, line := 0, dot := 0, target := 0, value := 0 }; let rest : List RasterW := [];
     let s : State := quiet 0; let s : State := { s with mnt.issued := w :: rest }; decide (s.frozen = false ∧ s.mnt.issued = w :: rest))].all id = true := by decide +kernel

/-- The premises of the clauses of `SwapOrHold` are met. -/
theorem wit_SwapOrHold : [
    (let y : Nat := 4; let s : State := quiet 0; let s : State := (s.setBit Reg.BEAM_CTRL 0 true).setF Reg.BEAM_SWAPCTL 1 0 1;
     let s : State := { s with beam := { s.beam with decision := some true }, qdl := { s.qdl with frames := [qf s] } }; decide (s.frozen = false) &&
         (let u : State := s.beamAt ⟨s.beam.pos.sf, y, 0⟩; (match u.head with
       | some q => (decide (u.swapAt q y = true ∧ s.wallMode = true ∧ (q.frame, q.sf) = (s.beam.frame, s.beam.pos.sf) ∧ s.beam.pairBad = false))
       | _ => false))),
    (let y : Nat := 4; let s : State := (quiet 0).setBit Reg.BEAM_CTRL 0 true; let s : State := { s with qdl := { s.qdl with frames := [qf s] } };
     let u : State := s.beamAt ⟨s.beam.pos.sf, y, 0⟩; (match u.head with
       | some q => (decide (u.swapAt q y = false ∧ s.wallMode = false ∧ s.beam.paired = false ∧ s.running = true ∧
           (q.frame, q.sf) = (s.beam.frame, s.beam.pos.sf) ∧ s.f Reg.BEAM_SWAPSTART 12 0 ≤ y ∧ y ≤ (posOf (s.reg Reg.BEAM_DEADLINE)).line))
       | _ => false)),
    (let s : State := (quiet 0).setBit Reg.BEAM_CTRL 0 true; let s : State := { s with beam.paired := true };
     decide (s.wallMode = false ∧ s.beam.paired = true)),
    (let y : Nat := 4; let s : State := quiet 0; decide ((s.beamAt ⟨s.beam.pos.sf, y, 0⟩).head = none ∧ s.running = false)),
    (let s : State := quiet 0; let s : State := s.setBit Reg.BEAM_CTRL 0 true; let s : State := { s with qdl := { s.qdl with frames := [qf s] } };
     decide (s.frozen = false) &&
         (let u : State := s.beamAt ⟨s.beam.pos.sf, (posOf (s.reg Reg.BEAM_DEADLINE)).line, (posOf (s.reg Reg.BEAM_DEADLINE)).dot⟩;
     decide (s.running = true ∧ s.wallMode = false) && (match u.dueFrame with
       | some _ => true
       | _ => false))),
    (let s : State := (quiet 0).setBit Reg.BEAM_CTRL 0 true; let s : State := s.setF Reg.BEAM_SWAPCTL 1 0 1;
     let s : State := { s with qdl := { s.qdl with frames := [qf s] } };
     let u : State := s.beamAt ⟨s.beam.pos.sf, (posOf (s.reg Reg.BEAM_DEADLINE)).line, (posOf (s.reg Reg.BEAM_DEADLINE)).dot⟩;
     decide (s.running = true ∧ s.wallMode = true ∧ s.beam.decision = none) && (match u.dueFrame with
       | some _ => true
       | _ => false)),
    (let s : State := (quiet 0).setBit Reg.BEAM_CTRL 0 true; let s : State := s.setF Reg.BEAM_SWAPCTL 1 0 1;
     let s : State := { s with beam := { s.beam with decision := some false }, qdl := { s.qdl with frames := [qf s] } };
     let u : State := s.beamAt ⟨s.beam.pos.sf, (posOf (s.reg Reg.BEAM_DEADLINE)).line, (posOf (s.reg Reg.BEAM_DEADLINE)).dot⟩;
     decide (s.running = true ∧ s.wallMode = true ∧ s.beam.decision = some false) && (match u.dueFrame with
       | some _ => true
       | _ => false)),
    (let s : State := quiet 0; let s : State := s.setBit Reg.BEAM_CTRL 0 true; decide (s.frozen = false) &&
         (let u : State := s.beamAt ⟨s.beam.pos.sf, (posOf (s.reg Reg.BEAM_DEADLINE)).line, (posOf (s.reg Reg.BEAM_DEADLINE)).dot⟩;
     decide (s.running = true ∧ u.dueFrame = none)))].all id = true := by decide +kernel

/-- The premises of the clauses of `BeamWords` are met. -/
theorem wit_BeamWords : [
    (let x : Upset := .none; let s : State := engS false 0; let k := beamStore + 16 * (s.engPc 0 % 16384);
     decide (s.frozen = false ∧ s.engReady 0 true = false ∧ s.engReady 0 false = true ∧ s.overBudget 0 = false ∧ (s.upset k x).mark k = .none ∧
       (s.upset k .single).mark k = .single ∧ (s.upset k .double).mark k = .double ∧
       ((s.setF (Reg.MNT_ENGe_BUDGET 0) 23 0 1).setF (Reg.MNT_ENGe_WORDS 0) 23 0 1).overBudget 0 = true)),
    (let x : Upset := .none; let s : State := engS true 0; let k := beamStore + 16 * (s.engPc 0 / 2 % 16384);
     decide (s.frozen = false ∧ s.engReady 0 false = false ∧ s.engReady 0 true = true ∧ s.overBudget 0 = false ∧ (s.upset k x).mark k = .none ∧
       (s.upset k .single).mark k = .single ∧ (s.upset k .double).mark k = .double ∧
       ((s.setF (Reg.MNT_ENGe_BUDGET 0) 23 0 1).setF (Reg.MNT_ENGe_WORDS 0) 23 0 1).overBudget 0 = true)),
    ([1 * 2^97 + 2^87 + 77 * 2^32 + 3 * 2^94 + 2^91].all fun w => let s : State := engS false w;
      decide (s.frozen = false ∧ s.mnt.engines.length = 8 ∧ s.overBudget 0 = false ∧ s.engReady 0 false = true ∧ s.mark (beamStore + 16 * (s.engPc 0 % 16384)) = .none) &&
      (let w : Nat := s.le (beamStore + 16 * (s.engPc 0 % 16384)) 16; decide (bw w 86 84 = 0 ∧ bw w 127 125 = 0 ∧ bw w 100 97 = 1 ∧ bw w 117 115 = 0))),
    ([1 * 2^115, 3 * 2^115, 5 * 2^115, 6 * 2^115, 7 * 2^115].all fun w => let s : State := engS false w;
      decide (s.frozen = false ∧ s.mnt.engines.length = 8 ∧ s.overBudget 0 = false ∧ s.engReady 0 false = true ∧ s.mark (beamStore + 16 * (s.engPc 0 % 16384)) = .none) &&
      (let w : Nat := s.le (beamStore + 16 * (s.engPc 0 % 16384)) 16; decide (bw w 86 84 = 0 ∧ bw w 127 125 = 0 ∧ bw w 100 97 = 0 ∧ 1 ≤ bw w 117 115 ∧ (s.eng 0).stack.length < 8))),
    ([2 * 2^115 + 2^119].all fun w => let s : State := engS false w;
      decide (s.frozen = false ∧ s.mnt.engines.length = 8 ∧ s.overBudget 0 = false ∧ s.engReady 0 false = true ∧ s.mark (beamStore + 16 * (s.engPc 0 % 16384)) = .none) &&
      (let w : Nat := s.le (beamStore + 16 * (s.engPc 0 % 16384)) 16; decide (bw w 86 84 = 0 ∧ bw w 127 125 = 0 ∧ bw w 100 97 = 0 ∧ bw w 117 115 = 2 ∧ realTime (bwCsel w) = false))),
    ([3 * 2^115].all fun w => let s : State := engS false w; let s : State := setEngX s 0 { s.eng 0 with stack := List.replicate 8 0 };
      decide (s.frozen = false ∧ s.mnt.engines.length = 8 ∧ s.overBudget 0 = false ∧ s.engReady 0 false = true ∧ s.mark (beamStore + 16 * (s.engPc 0 % 16384)) = .none) &&
      (let w : Nat := s.le (beamStore + 16 * (s.engPc 0 % 16384)) 16; decide (bw w 86 84 = 0 ∧ bw w 100 97 = 0 ∧ bw w 117 115 = 3 ∧ 8 ≤ (s.eng 0).stack.length))),
    ([4 * 2^115].all fun w => let s : State := engS false w; let s : State := setEngX s 0 { s.eng 0 with stack := [7] };
      decide (s.frozen = false ∧ s.mnt.engines.length = 8 ∧ s.overBudget 0 = false ∧ s.engReady 0 false = true ∧ s.mark (beamStore + 16 * (s.engPc 0 % 16384)) = .none) &&
      (let w : Nat := s.le (beamStore + 16 * (s.engPc 0 % 16384)) 16; decide (bw w 86 84 = 0 ∧ bw w 100 97 = 0 ∧ bw w 117 115 = 4 ∧ (s.eng 0).stack = [7] ∧ 7 < 16384))),
    ([1 * 2^125 + 2 * 65536].all fun w => let s : State := engS false w;
      decide (s.frozen = false ∧ s.mnt.engines.length = 8 ∧ s.overBudget 0 = false ∧ s.engReady 0 false = true ∧ s.mark (beamStore + 16 * (s.engPc 0 % 16384)) = .none) &&
      (let w : Nat := s.le (beamStore + 16 * (s.engPc 0 % 16384)) 16; decide (bw w 86 84 = 0 ∧ bw w 127 125 = 1 ∧ bw w 100 97 = 0 ∧ bw w 117 115 = 0 ∧ s.posBad (bwPos w) = false))),
    ([1 * 2^125 + 2000 * 65536].all fun w => let s : State := engS false w;
      decide (s.frozen = false ∧ s.mnt.engines.length = 8 ∧ s.overBudget 0 = false ∧ s.engReady 0 false = true ∧ s.mark (beamStore + 16 * (s.engPc 0 % 16384)) = .none) &&
      (let w : Nat := s.le (beamStore + 16 * (s.engPc 0 % 16384)) 16; decide (bw w 86 84 = 0 ∧ bw w 127 125 = 1 ∧ bw w 100 97 = 0 ∧ bw w 117 115 = 0 ∧ s.posBad (bwPos w) = true))),
    ([2 * 2^125 + 2 * 65536 + 3].all fun w => let s : State := engS false w;
      decide (s.frozen = false ∧ s.mnt.engines.length = 8 ∧ s.overBudget 0 = false ∧ s.engReady 0 false = true ∧ s.mark (beamStore + 16 * (s.engPc 0 % 16384)) = .none) &&
      (let w : Nat := s.le (beamStore + 16 * (s.engPc 0 % 16384)) 16; decide (bw w 86 84 = 0 ∧ bw w 127 125 = 2 ∧ bw w 100 97 = 0 ∧ bw w 117 115 = 0 ∧ (bwPos w).dot < s.dots ∧ (s.linesOn (s.eng 0).pos (bwPos w).line (bwPos w).dot).isSome = true))),
    ([2 * 2^125 + 1000 * 65536 + 3].all fun w => let s : State := engS false w;
      decide (s.frozen = false ∧ s.mnt.engines.length = 8 ∧ s.overBudget 0 = false ∧ s.engReady 0 false = true ∧ s.mark (beamStore + 16 * (s.engPc 0 % 16384)) = .none) &&
      (let w : Nat := s.le (beamStore + 16 * (s.engPc 0 % 16384)) 16; decide (bw w 86 84 = 0 ∧ bw w 127 125 = 2 ∧ bw w 100 97 = 0 ∧ bw w 117 115 = 0 ∧ (bwPos w).dot < s.dots ∧ s.linesOn (s.eng 0).pos (bwPos w).line (bwPos w).dot = none))),
    ([3 * 2^125 + 16 * 2^119].all fun w => let s : State := engS false w;
      decide (s.frozen = false ∧ s.mnt.engines.length = 8 ∧ s.overBudget 0 = false ∧ s.engReady 0 false = true ∧ s.mark (beamStore + 16 * (s.engPc 0 % 16384)) = .none) &&
      (let w : Nat := s.le (beamStore + 16 * (s.engPc 0 % 16384)) 16; decide (bw w 86 84 = 0 ∧ bw w 127 125 = 3 ∧ bw w 100 97 = 0 ∧ bw w 117 115 = 0 ∧ s.bwCond 0 w = false ∧ realTime (bwCsel w) = true))),
    ([3 * 2^125 + 1 * 2^119].all fun w => let s : State := engS false w;
      decide (s.frozen = false ∧ s.mnt.engines.length = 8 ∧ s.overBudget 0 = false ∧ s.engReady 0 false = true ∧ s.mark (beamStore + 16 * (s.engPc 0 % 16384)) = .none) &&
      (let w : Nat := s.le (beamStore + 16 * (s.engPc 0 % 16384)) 16; decide (bw w 86 84 = 0 ∧ bw w 127 125 = 3 ∧ bw w 100 97 = 0 ∧ bw w 117 115 = 0 ∧ s.bwCond 0 w = false ∧ realTime (bwCsel w) = false))),
    ([5 * 2^125].all fun w => let s : State := engS false w; let s : State := setEngX s 0 { s.eng 0 with frame := 9 };
      decide (s.frozen = false ∧ s.mnt.engines.length = 8 ∧ s.overBudget 0 = false ∧ s.engReady 0 false = true ∧ s.mark (beamStore + 16 * (s.engPc 0 % 16384)) = .none) &&
      (let w : Nat := s.le (beamStore + 16 * (s.engPc 0 % 16384)) 16; decide (bw w 86 84 = 0 ∧ bw w 127 125 = 5 ∧ bw w 100 97 = 0 ∧ bw w 117 115 = 0 ∧ instLe ((s.eng 0).frame, (s.eng 0).pos) s.now = false))),
    ([6 * 2^125].all fun w => let s : State := engS false w; let s : State := s.setF Reg.BEAM_CTRL 2 1 1;
      decide (s.frozen = false ∧ s.mnt.engines.length = 8 ∧ s.overBudget 0 = false ∧ s.engReady 0 false = true ∧ s.mark (beamStore + 16 * (s.engPc 0 % 16384)) = .none) &&
      (let w : Nat := s.le (beamStore + 16 * (s.engPc 0 % 16384)) 16; decide (bw w 86 84 = 0 ∧ bw w 127 125 = 6 ∧ bw w 100 97 = 0 ∧ bw w 117 115 = 0 ∧ (s.eng 0).pos.sf < s.subfm1))),
    ([11 * 2^60 + 2 * 2^56 + 0x1234, 8 * 2^60 + 6 * 2^32, 10 * 2^60 + 1 * 2^56 + 6 * 2^32].all fun w => let s : State := engS true w;
      decide (s.frozen = false ∧ s.mnt.engines.length = 8 ∧ s.overBudget 0 = false ∧ s.engReady 0 true = true ∧
        s.mark (beamStore + 16 * (s.engPc 0 / 2 % 16384)) = .none ∧ (bw w 63 60 = 11 ∨ bw w 63 60 = 8 ∨ bw w 63 60 = 10) ∧ bw w 59 56 ≤ 3 ∧
        w = s.le (beamStore + 16 * (s.engPc 0 / 2 % 16384)) 16 / 2 ^ (64 * (s.engPc 0 % 2)) % 2 ^ 64))].all id = true := by decide +kernel

/-- The premises of the clauses of `EnginesWaitAndRun` are met. -/
theorem wit_EnginesWaitAndRun : [
    (let w : Nat := 0; let s : State := stageS (.cond w); let u : State := s.beamAt ⟨0, 3, 0⟩; decide (s.frozen = false ∧
         s.bit (Reg.MNT_ENGe_CTRL 0) 1 = false ∧ bw w 117 115 = 0 ∧ bw w 100 97 = 0 ∧ bw w 86 84 = 0 ∧ (u.eng 0).stage = .cond w ∧ u.bwCond 0 w = true)),
    (let w : Nat := 4 * 2^125 + 1 * 2^119 + 65536; let s : State := stageS (.cond w); let u : State := s.beamAt ⟨0, 3, 0⟩; decide (bw w 127 125 = 4 ∧
         bw w 117 115 = 0 ∧ bw w 100 97 = 0 ∧ bw w 86 84 = 0 ∧ (u.eng 0).stage = .cond w ∧ u.bwCond 0 w = false ∧ instLe ((u.eng 0).frame, bwPos w) u.now = true)),
    (let w : Nat := 3 * 2^125 + 1 * 2^119; let s : State := stageS (.cond w); let u : State := s.beamAt ⟨0, 3, 0⟩; decide (bw w 127 125 ≠ 4 ∧
         bw w 117 115 = 0 ∧ bw w 100 97 = 0 ∧ bw w 86 84 = 0 ∧ (u.eng 0).stage = .cond w ∧ u.bwCond 0 w = false)),
    (let w : Nat := 0; let s : State := stageS (.sync w); let u : State := s.beamAt ⟨0, 3, 0⟩; decide (
         (u.eng 0).stage = .sync w ∧ instLe ((u.eng 0).frame, (u.eng 0).pos) u.now = true)),
    (let w : Nat := 0; let s : State := stageS (.sync w); let s := setEngX s 0 { s.eng 0 with frame := 9 }; let u : State := s.beamAt ⟨0, 3, 0⟩; decide (
         (u.eng 0).stage = .sync w ∧ instLe ((u.eng 0).frame, (u.eng 0).pos) u.now = false)),
    (let w : Nat := 2 * 2^115; let s : State := stageS (.sample w); let u : State := s.beamAt ⟨0, 3, 0⟩; decide (
         (u.eng 0).stage = .sample w ∧ bw w 117 115 = 2 ∧ instLe ((u.eng 0).frame, (u.eng 0).pos) u.now = true)),
    (let w : Nat := 3 * 2^60; let s : State := (stageS (.cond w)).setBit (Reg.MNT_ENGe_CTRL 0) 1 true; let u : State := s.beamAt ⟨0, 3, 0⟩; decide (
         (u.eng 0).stage = .cond w ∧ s.bit (Reg.MNT_ENGe_CTRL 0) 1 = true ∧ u.bit Reg.MNT_GFLAG (bw w 59 56) = false ∧
         ((s.setBit Reg.MNT_GFLAG 0 true).beamAt ⟨0, 3, 0⟩).bit Reg.MNT_GFLAG (bw w 59 56) = true)),
    (let s : State := quiet 0; decide (((s.beamAt ⟨0, 3, 0⟩).eng 0).stage = .ready)),
    (let w : Nat := 0; let a : Nat := 0x10000000; let s : State := stageS (.load w a none); decide ((s.eng 0).stage = .load w a none ∧
         (s.portRead 13 a 4).1 = 0 ∧ bw w 117 115 = 0 ∧ bw w 86 84 = 0)),
    (let w : Nat := 0; let a : Nat := 0x2F000000; let s : State := stageS (.load w a none); decide ((s.eng 0).stage = .load w a none ∧ (s.portRead 13 a 4).1 ≠ 0)),
    (let w : Nat := 0x1000080000000700000003; let s : State := stageS (.stall w none); decide (s.bit (Reg.MNT_ENGe_CTRL 0) 1 = false ∧
         bw w 117 115 = 0 ∧ (s.eng 0).stage = .stall w none ∧ bw w 86 84 = 1 ∧ (rasterTarget 1 (bw w 83 68)).isSome = true ∧ w.testBit 67 = true ∧
         s.shareFull 0 1 = false ∧ s.shareFull 0 (bw w 86 84) = false ∧
         (let s : State := { s with mnt.issued := List.replicate 32 ⟨0, 0, 0, 0, 0, 0, 0, 0⟩ }; s.shareFull 0 (bw w 86 84) = true))),
    (let w : Nat := 4 * 2^60; let s : State := (stageS (.stall w none)).setBit (Reg.MNT_ENGe_CTRL 0) 1 true; decide ((s.eng 0).stage = .stall w none ∧
         s.bit (Reg.MNT_ENGe_CTRL 0) 1 = true ∧ s.shareFull 0 1 = false)),
    ([0, 4].all fun st => [true, false].all fun en => let s : State := ((quiet 0).setF (Reg.MNT_ENGe_STAT 0) 2 0 st).setBit (Reg.MNT_ENGe_CTRL 0) 0 en;
     let s : State := { s with qdl := { s.qdl with mark := some 10 } }; decide (s.frozen = false ∧ (s.engState 0 = 0 ∨ s.engState 0 = 4) ∧
         s.marked (s.eng 0).frame = true ∧ s.mnt.engines.length = 8 ∧ s.inFlight 3 = false ∧ s.img.staged = [])),
    (let s : State := (quiet 0).setF (Reg.MNT_ENGe_STAT 0) 2 0 4; decide (s.engState 0 = 4 ∧ s.marked (s.eng 0).frame = false)),
    (let s : State := (quiet 0).setF (Reg.MNT_ENGe_STAT 0) 2 0 2; decide (s.frozen = false ∧ s.engState 0 = 2 ∧ (s.eng 0).frame < s.beam.frame ∧ s.img.staged = [])),
    (let s : State := (quiet 0).setF (Reg.MNT_ENGe_STAT 0) 2 0 2; let s : State := setEngX s 0 { s.eng 0 with frame := 9 }; decide (s.engState 0 = 2 ∧
         s.beam.frame ≤ (s.eng 0).frame)),
    (let m : Acc := host; let s : State := (quiet 0).setF (Reg.MNT_ENGe_STAT 0) 2 0 5; decide (m.debug = false ∧ s.targetOff (Reg.MNT_ENGe_STAT 0) = false ∧
         s.engState 0 = 5 ∧ (quiet 0).engState 0 ≠ 5))].all id = true := by decide +kernel

/-- The premises of the clauses of `FlagsAndBeamStore` are met. -/
theorem wit_FlagsAndBeamStore : [
    (let m : Acc := ⟨10, false, false, false⟩; let k : Nat := 0x800; let s : State := quiet 0; decide (m.debug = false ∧ m.port ∈ [7, 8, 10, 11, 14] ∧
         0x800 ≤ k ∧ k < 0x4000 ∧ s.targetOff beamStore = false ∧ s.targetOff Reg.MNT_GFLAG = false ∧ s.targetOff Reg.MNT_GFCLR = false ∧ s.mnt.parts = [])),
    (let k : Nat := 0x800; let s : State := quiet 0;
     let s : State := { s with mnt.parts := [(beamStore + 16 * k + 8, 3), (beamStore + 16 * k + 4, 2), (beamStore + 16 * k, 1)] };
     decide (s.mnt.parts = [(beamStore + 16 * k + 8, 3), (beamStore + 16 * k + 4, 2), (beamStore + 16 * k, 1)])),
    (let m : Acc := host; let k : Nat := 0x7FF; decide (m.debug = false ∧ k < 0x800 ∧ host.port ∉ [7, 8, 10, 11, 14])),
    ([Upset.none, .single, .double].all fun x => let s : State := quiet 0; let u : State := s.upset (beamStore + 16 * s.mnt.scrub) x;
     decide (s.frozen = false ∧ s.pwr.state < 2) && (match x with
       | .none => decide (u.mark (beamStore + 16 * s.mnt.scrub) = .none)
       | .single => decide (u.mark (beamStore + 16 * s.mnt.scrub) = .single)
       | .double => decide (u.mark (beamStore + 16 * s.mnt.scrub) = .double))),
    (let s : State := quiet 0; let s : State := { s with pwr.state := 2 }; decide (2 ≤ s.pwr.state))].all id = true := by decide +kernel

/-- The premises of the clauses of `PanelUnits` are met. -/
theorem wit_PanelUnits : [
    (let port : Fin 32 := 24; let s : State := headS (panelS 24 false);
     decide (s.frozen = false) && (match s.head with
       | some q => (decide (s.bit Reg.PNL_CTRL 0 = true ∧ s.portOn port.val = true ∧ s.leadPort port.val = port.val ∧
           s.pnl.units.any (fun u => decide (u.port = port.val) && u.running) = false ∧ (s.nextUnit q port.val).isSome = true))
       | _ => false)),
    (let port : Fin 32 := 24; let s : State := headS (panelS 24 true); let s : State := { s with pnl.exchangeDue := true };
     decide (s.portOn 3 = false) && (match s.head with
       | some q => (decide (s.nextUnit q port.val = none))
       | _ => false)),
    ([true, false].all fun d => let port : Fin 32 := 24; let s : State := headS (panelS 24 d);
     let s : State := { s with pnl := { s.pnl with fsGood := (0x10000000, 0x10100000), units := [⟨port.val, 1, 2, true, true, false, [], []⟩] } };
     (match s.pnl.units.find? (fun x => decide (x.port = port.val) && x.running) with
       | some u => (decide ((s.prof u.port).direct = d ∧ s.bit Reg.REEL_CTRL 0 = true ∧ (d = true → (s.writeBeats (s.f Reg.PNL_DIRCH 4 0) (s.unitBeats u 8)).1 = none)))
       | _ => false)),
    (let port : Fin 32 := 24; let s : State := headS (panelS 24 true);
     let s : State := { s with pnl := { s.pnl with fsGood := (0x2F000000, 0x2F000000), units := [⟨port.val, 1, 2, true, true, false, [], []⟩] } };
     (match s.pnl.units.find? (fun x => decide (x.port = port.val) && x.running) with
       | some u => (decide ((s.prof u.port).direct = true ∧ s.bit Reg.REEL_CTRL 0 = true ∧ (s.writeBeats (s.f Reg.PNL_DIRCH 4 0) (s.unitBeats u 8)).1.isSome = true ∧
           (s.setBit Reg.REEL_CTRL 0 false).bit Reg.REEL_CTRL 0 = false))
       | _ => false)),
    (let s : State := quiet 0; decide (s.pnl.units.find? (fun x => decide (x.port = 3) && x.running) = none ∧ s.head = none ∧ s.bit Reg.PNL_CTRL 0 = false ∧
         s.pnl.segs.find? (fun x => decide (x.pair = 3) && !x.landed) = none)),
    (let pair : Fin 16 := 1; let s : State := headS (panelS 2 false);
     (match s.head with
       | some q => (let held := s.pnl.segs.filter fun g => decide (g.pair = pair.val)
           decide (s.bit Reg.PNL_CTRL 0 = true ∧ held.length < 65536 / s.segBytes pair.val ∧
           ((List.range s.lines).find? fun y => s.offered q y && !held.any (fun g => decide (g.line = y)) && s.lineNeeded pair.val y).isSome = true))
       | _ => false)),
    ([(false, 0x10000000), (false, 0x2F000000), (true, 0)].all fun v => let pair : Fin 16 := 1; let s : State := headS (panelS 2 false);
     let s : State := { s with qdl := { s.qdl with frames := [{ qf s with sect := v.1 }], lines := s.qdl.lines.map fun l => { l with addr := v.2 } },
                               pnl := { s.pnl with segs := [⟨1, 0, false, false, []⟩] } };
     (match s.head with
       | some q => ((match s.pnl.segs.find? (fun x => decide (x.pair = pair.val) && !x.landed) with
         | some g => ((match s.window pair.val with
           | some (lo, _) => ((match s.lineSource q g.line with
             | some a => (decide (((s.portRead 4 (a + lo * 6) (s.segBytes pair.val)).1 = 0) = (v.2 = 0x10000000) ∧ (q.frame, 13, 7) ∉ s.qdl.seen))
             | none => v.1))
           | _ => false))
         | _ => false))
       | _ => false))].all id = true := by decide +kernel

/-- The premises of the clauses of `Panels` are met. -/
theorem wit_Panels : [
    (let s : State := panelS 24 true; decide (s.frozen = false ∧ s.bit Reg.PNL_CTRL 0 = true ∧ s.pnl.oldTim = none ∧ s.portOn 24 = true ∧ (s.prof 24).direct = true)),
    (let s : State := panelS 4 false; let s : State := s.setF (Reg.PNL_PROFx_CFG 0) 25 21 7; decide (s.groupPort 0 = some 4 ∧ 0 < s.pnl.groups.length ∧
         s.pnl.dark = false ∧ (s.prof 4).direct = false ∧ s.pnl.groups[0]? = some (0, false) ∧ 0 + 1 < (s.prof 4).rows ∧ s.groupPort 1 = none)),
    (let s : State := panelS 4 false; let s : State := { (s.setF (Reg.PNL_PROFx_CFG 0) 25 21 0) with pnl.oldTim := some (0, 0), pnl.gridSplit := true };
     decide (s.pnl.oldTim ≠ none ∧ s.pnl.gridSplit = true ∧ s.groupPort 0 = some 4 ∧ s.pnl.groups[0]? = some (0, false) ∧ (s.prof 4).rows ≤ 0 + 1)),
    (let s : State := quiet 0; decide (s.bit Reg.PNL_CTRL 0 = false ∧ s.pnl.swapDue = false ∧ s.pnl.exchangeDue = false ∧ s.pnl.blankDue = [])),
    (let s : State := { panelS 4 false with pnl.swapDue := true, pnl.exchangeDue := true }; decide (s.frozen = false ∧ s.pnl.swapDue = true ∧
         s.bit Reg.PNL_CTRL 0 = true ∧ s.pnl.exchangeDue = true ∧ ({ s with pnl.swapDue := false } : State).fsAgree = s.fsAgree)),
    (let s : State := (quiet 0).setReg (Reg.PNL_FSBASEx 0) 0x10000000; decide (s.fsAgree = true ∧ (s.setReg (Reg.PNL_FSBASEx 0) 0x10000004).fsAgree = false)),
    (let p : Fin 32 := 24; let s : State := panelS 24 true; let s : State := { s with pnl := { s.pnl with scans := [⟨p.val, 0, 0, [], [], [(0, 1, [7])]⟩] } };
     let x := s.scanOf p.val; let n := nextPlane (s.prof p.val).rows (s.f Reg.QDL_STRUCT 12 8) x.row x.plane;
     decide (s.portOn p.val = true ∧ (s.prof p.val).direct = true ∧ s.pnl.dark = false ∧
       (x.fetched.find? fun e => decide (e.1 = n.1) && decide (e.2.1 = n.2)).isSome = true)),
    (let p : Fin 32 := 24; let s : State := panelS 24 true; let x := s.scanOf p.val;
     let n := nextPlane (s.prof p.val).rows (s.f Reg.QDL_STRUCT 12 8) x.row x.plane;
     decide (s.portOn p.val = true ∧ (s.prof p.val).direct = true ∧ s.pnl.dark = false ∧ x.fetched.find? (fun e => decide (e.1 = n.1) && decide (e.2.1 = n.2)) = none)),
    ([0x10000000, 0x2F000000].all fun b => let p : Fin 32 := 24; let row : Nat := 0; let plane : Nat := 0;
     let s : State := { panelS 24 true with pnl.fsGood := (b, b) };
     let n := (s.prof p.val).planeBytes;
     let a : Nat := s.fsBase s.fsFront + s.storeOff (s.f Reg.QDL_STRUCT 12 8) p.val + (row * s.f Reg.QDL_STRUCT 12 8 + plane) * n;
     decide (s.frozen = false ∧ s.bit Reg.PNL_CTRL 0 = true ∧ s.portOn p.val = true ∧ (s.prof p.val).direct = true ∧
         (s.scanOf p.val).fetched.length < 2 ∧ row < (s.prof p.val).rows ∧ plane < s.f Reg.QDL_STRUCT 12 8 ∧
         ((s.portRead 4 a n).1 = 0) = (b = 0x10000000))),
    ([BlankEv.req true, .hold true, .req false, .hold false].all fun e => let s : State := { quiet 0 with pnl.blankDue := [e] };
     decide (s.frozen = false ∧ s.pnl.blankDue = [e])),
    (let m : Acc := host; let s : State := ((panelS 3 false).setReg Reg.PNL_CMDMASK 8).setReg (Reg.PNL_PROFx_CMDB 0) 0x01010101;
     decide (m.debug = false ∧ s.targetOff Reg.PNL_BLANK = false ∧ s.targetOff Reg.PNL_CMDQ = false ∧ s.targetOff Reg.PNL_MAPDATA = false) &&
       (let ports : List Nat := (s.leads.filter fun p => (s.members p).any fun k => s.bit Reg.PNL_CMDMASK k);
     decide (ports ≠ [] ∧ s.pnl.queue.length < 16 ∧ (∀ p ∈ ports, (s.prof p).direct = false ∧ (s.prof p).latw 5 ≠ 0 ∧ (s.prof p).latw 6 ≠ 0 ∧
         (s.prof p).latw 7 ≠ 0) ∧ 16 ≤ ({ s with pnl.queue := List.replicate 16 ⟨5, 0, [3]⟩ } : State).pnl.queue.length))),
    (let s : State := (panelS 3 false).setReg Reg.PNL_CMDMASK 8;
     let s := s.setReg (Reg.PNL_PROFx_CMDB 0) 0; let ports : List Nat := (s.leads.filter fun p => (s.members p).any fun k => s.bit Reg.PNL_CMDMASK k);
     decide (∃ p ∈ ports, (s.prof p).direct = true ∨ (s.prof p).latw 5 = 0)),
    (let s : State := (panelS 3 false).setReg Reg.PNL_CMDMASK 0; decide ((s.leads.filter fun p => (s.members p).any fun k => s.bit Reg.PNL_CMDMASK k) = [])),
    (let port : Fin 32 := 3; let s : State := { panelS 3 false with pnl.queue := [⟨5, 2, [3]⟩] };
     let p : Nat := s.leadPort port.val; decide (s.frozen = false ∧ s.bit Reg.PNL_CTRL 0 = true ∧
       s.pnl.units.any (fun u => decide (u.port = p) && u.running) = false ∧ s.pnl.queue.find? (fun r => r.ports.contains p) = some ⟨5, 2, [3]⟩ ∧
       s.pnl.queue = [{ (⟨5, 2, [3]⟩ : CmdReq) with ports := [p] }] ∧ s.pnl.queue.find? (fun r => r.ports.contains 9) = none)),
    (let s : State := quiet 0; decide (s.mapInUse (s.f Reg.PNL_MAPADDR 15 0) = false ∧ (panelS 3 false).mapInUse 0 = true))].all id = true := by decide +kernel

/-- The premises of the clauses of `SignatureDecisions` are met. -/
theorem wit_SignatureDecisions : [
    ([0, 1].all fun a => [true, false].all fun e => let region : Fin 16 := 8; let s : State := quiet 0;
     let rs := Sparse.set RegMap.resetOf [] (Reg.SIG_REGr_CTRL 8) (wd (2 * a));
     let rs := Sparse.set RegMap.resetOf rs (Reg.SIG_REGr_EXP 8) (if e then wd (5 ^^^ 0xFFFFFFFF) else 7);
     let q : QFrame := { qf s with regs := rs };
     let s : State := { s with qdl := { s.qdl with frames := [q] }, sig := { s.sig with checks := [{ region := region.val, frame := s.beam.frame, sf := 0, next := 9000, crc := 5, decided := none, subDue := false, subDone := false, copied := true, skip := false, early := false }] } };
     decide (s.frozen = false) && (match s.sig.checks.find? (fun c => decide (c.region = region.val) && !c.skip && decide (c.decided = none)) with
       | some c => ((match s.frameOf c.frame c.sf with
         | some q => (decide ((q.region region.val).y1 < c.next ∧ (q.region region.val).action = a ∧ c.copied = true ∧ s.inPavane region.val = false ∧
             (wd (c.crc ^^^ 0xFFFFFFFF) = (q.region region.val).exp) = (e = true) ∧ (s.setBit Reg.SIG_PAVREQ 8 true).bit Reg.SIG_PAVREQ region.val = true))
         | _ => false))
       | _ => false)),
    (let region : Fin 16 := 8; let s : State := quiet 0;
     let s : State := { s with sig := { s.sig with checks := [{ region := region.val, frame := s.beam.frame, sf := 0, next := 0, crc := 5, decided := none, subDue := false, subDone := false, copied := true, skip := false, early := false }] } };
     (match s.sig.checks.find? (fun c => decide (c.region = region.val) && !c.skip && decide (c.decided = none)) with
       | some c => (decide (s.frameOf c.frame c.sf = none)) &&
         (let s : State := { s with qdl := { s.qdl with frames := [qf s] } }; (match s.frameOf c.frame c.sf with
         | some q => (decide (c.next ≤ (q.region region.val).y1))
         | _ => false))
       | _ => false)),
    (let region : Fin 16 := 8; let s : State := quiet 0;
     decide (s.sig.checks.find? (fun c => decide (c.region = region.val) && !c.skip && decide (c.decided = none)) = none ∧
       s.sig.checks.find? (fun c => decide (c.region = region.val) && c.subDue && !c.subDone) = none)),
    (let region : Fin 16 := 8; let s : State := quiet 0;
     let s : State := { s with sig := { s.sig with checks := [{ region := region.val, frame := s.beam.frame, sf := 0, next := 9000, crc := 5, decided := none, subDue := true, subDone := false, copied := true, skip := false, early := false }] } };
     decide (s.frozen = false) && (match s.sig.checks.find? (fun c => decide (c.region = region.val) && c.subDue && !c.subDone) with
       | some c => (decide (s.frameOf c.frame c.sf = none)) && (({ s with qdl := { s.qdl with frames := [qf s] } } : State).frameOf c.frame c.sf).isSome
       | _ => false)),
    (let m : Acc := host; let s : State := quiet 0; decide (m.debug = false ∧ s.targetOff Reg.SIG_PAVREQ = false ∧ s.targetOff Reg.SIG_PAVSTAT = false ∧
       bitAt (1 : Word) 0 = true ∧ s.f Reg.QDL_CLLINES 8 0 < (regionFrom s.reg 0).height + 72))].all id = true := by decide +kernel

/-- The premises of the clauses of `SoundBlocks` are met. -/
theorem wit_SoundBlocks : [
    ([true, false].all fun en => let s : State := ((quiet 0).setBit Reg.SND_CTRL 0 en).setBit Reg.BEAM_CTRL 0 true; decide (s.frozen = false ∧
         s.running = true ∧ s.frameOfSample s.snd.k ≤ s.beam.frame ∧ s.bit Reg.SND_CTRL 0 = en)),
    (let s : State := quiet 0; decide (s.running = false ∧ s.snd.block.length < 16)),
    (let s : State := { quiet 0 with snd.block := List.replicate 16 (0, [], []) }; decide (s.frozen = false ∧ 16 ≤ s.snd.block.length)),
    ([0x10000010, 0x2F000010].all fun b => let v : Fin 64 := 56; let s : State := quiet 0; let s : State := s.setF (Reg.SNDv_STAT v.val) 2 0 1;
     let s : State := { s with snd := { s.snd with voices := s.snd.voices.set v.val { emptyVoice with fmt := 0, start := b, len := 100 } } };
     decide (s.frozen = false ∧ s.voiceState v.val ≠ 0 ∧ s.snd.voices.length = 64) &&
         (match ((s.voice v.val).needed (s.loopActive v.val)).find? (fun a => ((s.voice v.val).word? a).isNone) with
       | some a => (decide (b = 0x10000010 → inSram a = true ∧ s.mark a = .none ∧ s.bankBusy (bankOf a) = false ∧ s.regionAllows 12 a false = true)) &&
           (let u : State := if inSram a then s.upset a .none else s; decide (((u.readWord 12 a).1 = 0) = (b = 0x10000010)))
       | _ => false)),
    (let v : Fin 64 := 3; let s : State := quiet 0; decide (s.voiceState v.val = 0)),
    ([0, 10].all fun k => let h : Hop := .trunkB; let ok : Bool := true; let f : Frame := frameOf 3 0 1 [k, 0, 0, 0, 0, 0, 0, 0, 5, 1, 1, 0, 0, 0, 0, 0, 1, 2, 3];
     let s : State := arrS h f (quiet 0); let s : State := { s with snd := { s.snd with k := 5 } }; decide (s.frozen = false ∧
         f.type = 3) && (match s.arrives h ok f with
       | (true, u) => (decide (f.le 9 1 = 1 ∧ f.le 10 1 = 1 ∧ ((f.le 0 8 : Int) ≤ u.snd.k - 1 ∨ ((u.snd.k : Int) - 1 < f.le 0 8 ∧ (f.le 0 8 : Int) < u.snd.k - 1 + 4096))))
       | _ => false)),
    (let h : Hop := .trunkB; let f : Frame := frameOf 3 0 1 [0, 0, 0, 0, 0, 0, 0, 0, 5, 1, 1, 0, 0, 0, 0, 0, 1, 2, 3];
     let s : State := arrS h f (quiet 0); decide ((s.arrives h false f).1 = false)),
    (let f : Frame := frameOf 0 1 2 []; let s : State := quiet 0; decide (s.frozen = false ∧ f.type ≠ 3)),
    (let c : Fin 20 := 8; let s : State := quiet 0; let s : State := (s.setReg (Reg.TDM_INc c.val) 0x100).setReg Reg.SND_CTRL 1;
     let s : State := (((s.setReg (Reg.TDMn_CFG 0) 3).setReg (Reg.TDMn_CFG 1) 3).setReg (Reg.TDMn_CFG 2) 3).setReg (Reg.TDMn_CFG 3) 3;
     decide (s.frozen = false ∧ s.convCan c.val = true)),
    (let c : Fin 20 := 8; let s : State := quiet 0; decide (s.frozen = false ∧ s.convCan c.val = false ∧ s.convLocked c.val = false)),
    (let c : Fin 20 := 8; let s : State := quiet 0;
     let s : State := if c.val < 16 then s.setBit Reg.SND_ASRCSTAT c.val true else s.setBit (Reg.TDMn_STAT (c.val - 16)) 1 true;
     decide (s.frozen = false ∧ s.convLocked c.val = true)),
    (let p : Fin 4 := 0; let count : Nat := 0; let s : State := quiet 0;
     let s : State := (s.setBit (Reg.TDMn_CFG p.val) 0 true).setBit Reg.SND_CTRL 0 true; let s : State := s.setBit (Reg.TDMn_CFG p.val) 1 true;
     decide (s.frozen = false ∧ s.tdmOn p.val = true ∧ s.tdmTarget p.val = true ∧ count ≠ s.tdmSlots p.val * s.slotBits p.val)),
    (let p : Fin 4 := 0; let s : State := quiet 0; decide (s.tdmOn p.val = false ∧ s.bit Reg.OBJ_CTRL 0 = false)),
    (let s : State := quiet 0; let s : State := s.setBit Reg.OBJ_CTRL 0 true; decide (s.frozen = false ∧ s.bit Reg.OBJ_CTRL 0 = true ∧
         s.inGeometry (posOf (s.reg Reg.OBJ_UPOS)).line (posOf (s.reg Reg.OBJ_UPOS)).dot = true ∧ s.obj.objects.length = 32))].all id = true := by decide +kernel

/-- The premises of the clauses of `SoundWrites` are met. -/
theorem wit_SoundWrites : [
    (let m : Acc := ⟨10, false, false, false⟩; let v : Word := 0x00000101; let s : State := quiet 0; decide (m.debug = false ∧
       s.targetOff Reg.SND_CTRL = false ∧ s.targetOff Reg.OBJ_MUTE = false ∧ fld v 12 7 ≤ 47)),
    (let v : Word := 0xdeadbeef; let s : State := { quiet 0 with sec.level := 1 }; decide (47 < fld v 12 7 ∧ s.targetOff Reg.SND_CTRL = false ∧ s.sec.level ≠ 0)),
    (let m : Acc := host; let o : Fin 32 := 16; let k : Fin 10 := 4; let s : State := quiet 0; decide (m.debug = false) &&
         (match (s.chain o.val).biquads[k.val]? with
       | some _ => (decide (s.snd.chains.length = 32))
       | _ => false))].all id = true := by decide +kernel

/-- The premises of the clauses of `LinkTraining` are met. -/
theorem wit_LinkTraining : [
    (let h : Hop := .ringA; let l : Fin 4 := 0; let s : State := trainS h 0; decide (s.frozen = false ∧ s.hopOn h = true ∧ s.akEn h = true ∧
         l.val ∈ s.hopLanes h ∧ (s.hop h).failed = false)),
    (let h : Hop := .trunkB; let l : Fin 4 := 0; let s : State := quiet 0; decide (s.frozen = false ∧
         (s.hopOn h = false ∨ s.akEn h = false ∨ l.val ∉ s.hopLanes h ∨ (s.hop h).failed = true))),
    (let h : Hop := .trunkB; let s : State := quiet 0; let s : State := s.setF (linkReg h) 2 0 1; decide (s.frozen = false ∧ s.hopState h = 1 ∧
         (s.hop h).locked = [])),
    (let h : Hop := .trunkB; let s : State := trainS h 3; decide (s.frozen = false ∧ s.hopState h = 3)),
    (let h : Hop := .trunkB; let s : State := trainS h 1; decide (s.frozen = false ∧ s.hopState h ≠ 3 ∧ (s.hop h).locked ≠ [])),
    (let h : Hop := .ringA; let s : State := trainS h 0; let s : State := s.setBit (Reg.AKx_CFG (hopPort h)) 2 true; decide (s.frozen = false ∧
         s.hopState h = 0 ∧ s.hopOn h = true ∧ s.bit (Reg.AKx_CFG (hopPort h)) 2 = true ∧ hopTrunk h = false ∧ s.isEth h = false)),
    (let h : Hop := .ringA; let s : State := trainS h 0; decide (s.frozen = false ∧ s.bit (Reg.AKx_CFG (hopPort h)) 2 = false)),
    [trainS .ringA 2, ethS .ringA (trainS .ringA 1)].all (fun s => let h : Hop := .ringA; decide (s.frozen = false ∧ s.akEn h = true ∧
         s.hopState h = (if s.isEth h then 1 else 2))),
    (let h : Hop := .ringA; let s : State := quiet 0; decide (s.frozen = false ∧ s.akEn h = false)),
    (let h : Hop := .ringA; let s : State := trainS h 2; decide (s.frozen = false ∧ s.trains h 3 = false ∧ s.trains h 4 = false ∧ s.hopUp h = false)),
    (let h : Hop := .trunkA; let f : Frame := helloOf 2; let s : State := trainS h 3; decide (s.frozen = false ∧ s.trains h 3 = true ∧
         (s.handshake 0 h false f).1 = false)),
    [(Hop.trunkA, 0), (Hop.trunkA, 1), (Hop.ringB, 1)].all (fun (h, v) => let f : Frame := helloOf v; let s : State := trainS h 3;
     decide (s.frozen = false ∧ s.trains h 3 = true ∧ (s.handshake 0 h true f).1 = true ∧ (f.hello.linkver = 0 ∨ (f.hello.linkver = 1 ∧
         (hopTrunk h = true ∨ (s.handshake 0 h true f).2.bit (Reg.AKx_CFG (hopPort h)) 2 = false))))),
    (let h : Hop := .ringB; let f : Frame := helloOf 2; let s : State := trainS h 3; let s : State := s.setHop h { s.hop h with locked := [] };
     let u : State := (s.handshake 0 h true f).2; decide (s.frozen = false ∧ s.trains h 3 = true ∧ (s.handshake 0 h true f).1 = true ∧
         u.isEth h = false ∧ (u.hopLanes h).filter (fun l => (u.hop h).locked.contains l && f.hello.rxlanes.testBit l) = [])),
    [(Hop.trunkA, 2), (Hop.ringB, 2)].all (fun (h, v) => let f : Frame := helloOf v; let s : State := trainS h 3;
     let u : State := (s.handshake 0 h true f).2; decide (s.frozen = false ∧ s.trains h 3 = true ∧ (s.handshake 0 h true f).1 = true ∧
         u.isEth h = false ∧ (u.hopLanes h).filter (fun l => (u.hop h).locked.contains l && f.hello.rxlanes.testBit l) ≠ [] ∧ 2 ≤ f.hello.linkver)),
    (let h : Hop := .ringB; let f : Frame := { helloOf 1 with seq := 0 }; let s : State := (trainS h 3).setBit (Reg.AKx_CFG (hopPort h)) 2 true;
     let u : State := (s.handshake 0 h true f).2; decide (s.frozen = false ∧ s.trains h 3 = true ∧ (s.handshake 0 h true f).1 = true ∧
         (u.hopLanes h).filter (fun l => (u.hop h).locked.contains l && f.hello.rxlanes.testBit l) ≠ [] ∧ f.hello.linkver = 1 ∧ hopTrunk h = false ∧
         u.bit (Reg.AKx_CFG (hopPort h)) 2 = true)),
    (let h : Hop := .ringA; let f : Frame := keyxOf 0; let s : State := trainS h 4; decide (s.frozen = false ∧ s.trains h 4 = true ∧
         (s.handshake 1 h false f).1 = false)),
    (let h : Hop := .ringA; let f : Frame := keyxOf 0; let s : State := trainS h 4; let u : State := (s.handshake 1 h true f).2;
     decide (s.frozen = false ∧ s.trains h 4 = true ∧ (s.handshake 1 h true f).1 = true ∧ u.keyAllowed f.keyId = true ∧ u.peerId h ≠ u.stationId)),
    (let h : Hop := .trunkB; let f : Frame := keyxOf 3; let s : State := trainS h 4; let u : State := (s.handshake 1 h true f).2;
     decide (s.frozen = false ∧ s.trains h 4 = true ∧ (s.handshake 1 h true f).1 = true ∧ u.keyAllowed f.keyId = false)),
    (let h : Hop := .ringA; let f : Frame := recOf 0 []; let s : State := trainS h 5; decide (s.frozen = false ∧ s.hopUp h = true ∧ f.type ≠ 4)),
    (let h : Hop := .ringA; let f : Frame := keyxOf 0; let s : State := trainS h 5; decide (s.frozen = false ∧ s.hopUp h = true ∧ f.type = 4 ∧
         f.sub = 1 ∧ f.dmode = 3 ∧ (s.hopTakes h false f).1 = false)),
    (let h : Hop := .ringA; let f : Frame := handOf 1 (fill 100); let s : State := trainS h 5; decide (s.frozen = false ∧ s.hopUp h = true ∧ f.type = 4 ∧
         f.sub = 1 ∧ f.dmode = 3 ∧ (s.hopTakes h true f).1 = true ∧ (s.hopTakes h true f).2.frameOk h f = false)),
    (let h : Hop := .ringA; let f : Frame := keyxOf 0; let s : State := trainS h 5; let u : State := (s.hopTakes h true f).2; decide (s.frozen = false ∧
         s.hopUp h = true ∧ f.type = 4 ∧ f.sub = 1 ∧ f.dmode = 3 ∧ (s.hopTakes h true f).1 = true ∧ u.frameOk h f = true ∧ u.keyAllowed f.keyId = true ∧
         u.peerId h ≠ u.stationId)),
    (let h : Hop := .ringA; let f : Frame := keyxOf 9; let s : State := trainS h 5; let u : State := (s.hopTakes h true f).2; decide (s.frozen = false ∧
         s.hopUp h = true ∧ (s.hopTakes h true f).1 = true ∧ u.frameOk h f = true ∧ u.keyAllowed f.keyId = false))].all id = true := by decide +kernel

/-- The premises of the clauses of `LinkControlAndBreaks` are met. -/
theorem wit_LinkControlAndBreaks : [
    (let h : Hop := .ringA; let s : State := trainS h 1; decide (s.frozen = false ∧ s.hopOn h = true ∧ s.isEth h = false)),
    (let h : Hop := .trunkA; let s : State := quiet 0; decide (s.frozen = false ∧ s.hopOn h = false)),
    (let h : Hop := .ringA; let b : BitVec 64 := lcbOf 0 false false (crc16 []) 0 false 5 0; let s : State := trainS h 1; decide (s.frozen = false ∧
         s.hopOn h = true ∧ s.isEth h = false ∧ lcbField b 7 0 = 0xE1 ∧ lcbField b 9 8 ∈ s.hopLanes h ∧ s.akEn h = true ∧
         lcbField b 9 8 ∈ (s.hop h).locked ∧ lcbField b 27 12 = crc16 [] ∧ b.getLsbD 11 = false ∧ s.hopState h = 1)),
    [none, some (helloOf 2).hello].all (fun p => let h : Hop := .ringA; let b : BitVec 64 := lcbOf 3 false false (crc16 [5]) 0 false 127 0;
     let s : State := trainS h 3; let s : State := s.setHop h { s.hop h with helloAcked := false, helloSeq := 65536, peer := p };
     decide (s.frozen = false ∧ s.hopOn h = true ∧ s.isEth h = false ∧ lcbField b 7 0 = 0xE1 ∧ lcbField b 9 8 ∈ s.hopLanes h ∧ s.akEn h = true ∧
         lcbField b 27 12 = crc16 [5] ∧ b.getLsbD 11 = false ∧ s.hopState h = 3 ∧ (s.hop h).helloAcked = false ∧
         lcbField b 43 28 = (s.hop h).helloSeq % 65536)),
    (let h : Hop := .trunkB; let b : BitVec 64 := lcbOf 3 false false (crc16 [] + 1) 0 false 0 0; let s : State := trainS h 5; decide (s.frozen = false ∧
         s.hopOn h = true ∧ s.isEth h = false ∧ lcbField b 7 0 = 0xE1 ∧ lcbField b 9 8 ∈ s.hopLanes h ∧ lcbField b 27 12 ≠ crc16 [])),
    (let h : Hop := .trunkB; let b : BitVec 64 := lcbOf 0 false false 0 0 false 0 0; let s : State := trainS h 5; decide (s.frozen = false ∧
         lcbField b 9 8 ∉ s.hopLanes h)),
    (let h : Hop := .ringA; let s : State := trainS h 5; decide (s.frozen = false ∧ s.hopUp h = true ∧ hopTrunk h = false ∧ s.isEth h = false)),
    (let h : Hop := .ringA; let s : State := trainS h 3; decide (s.frozen = false ∧ s.hopUp h = false)),
    (let h : Hop := .trunkB; let s : State := (trainS h 5).setF (linkReg h) 31 20 0xFFF; decide (s.frozen = false ∧ s.hopUp h = true ∧
         s.replays h = true)),
    (let h : Hop := .trunkB; let s : State := trainS h 5; decide (s.frozen = false ∧ s.replays h = false)),
    (let h : Hop := .ringB; let l : Fin 4 := 3; let k : Fin 4 := 0; let s : State := (trainS h 5).setF (linkReg h) 11 8 15; decide (s.frozen = false ∧
         l.val ∈ s.hopLanes h ∧ s.laneBit h 16 l.val = false ∧ s.laneBit h 8 l.val = true ∧ s.hopUp h = true ∧ k ≠ l ∧ k.val ∈ s.hopLanes h ∧
         s.laneBit h 8 k.val = true)),
    (let h : Hop := .ringB; let l : Fin 4 := 3; let s : State := (trainS h 5).setF (linkReg h) 11 8 8; decide (s.frozen = false ∧
         l.val ∈ s.hopLanes h ∧ s.laneBit h 16 l.val = false ∧ s.laneBit h 8 l.val = true ∧ s.hopUp h = true ∧ hopTrunk h = false ∧ s.isEth h = false ∧
         (s.hopLanes h).all fun k => k = l.val || !s.laneBit h 8 k)),
    (let h : Hop := .ringB; let l : Fin 4 := 3; let s : State := trainS h 3; decide (s.frozen = false ∧ l.val ∈ s.hopLanes h ∧
         s.laneBit h 16 l.val = false ∧ s.laneBit h 8 l.val = false)),
    (let h : Hop := .trunkA; let l : Fin 4 := 0; let s : State := trainS h 5; decide (s.frozen = false ∧ l.val ∉ s.hopLanes h)),
    (let m : Acc := host; let p : Fin 2 := 1; let s : State := quiet 0; decide (s.frozen = false ∧ m.debug = false ∧
         s.targetOff (Reg.AKx_CTRL p.val) = false ∧ s.targetOff (Reg.AKx_EPOL p.val) = false)),
    (let p : Fin 2 := 0; let s : State := trainS (ringHop p.val) 5;
     let s : State := s.setHop (ringHop p.val) { s.hop (ringHop p.val) with suspect := true };
     decide (s.frozen = false ∧ (s.hop (ringHop p.val)).suspect = true ∧ s.hopUp (ringHop p.val) = true ∧ s.ringRole p.val = true)),
    (let p : Fin 2 := 0; let s : State := quiet 0; decide (s.frozen = false ∧ (s.hop (ringHop p.val)).suspect = false)),
    (let p : Fin 2 := 0; let s : State := quiet 0; let s : State := { s with link := { s.link with turnDue := [(p.val, [])] } };
     decide (s.frozen = false) && (s.link.turnDue.find? (fun e => decide (e.1 = p.val))).isSome),
    (let p : Fin 2 := 1; let s : State := quiet 0; decide (s.frozen = false ∧ s.link.turnDue.find? (fun e => decide (e.1 = p.val)) = none)),
    [(2, true), (2, false), (0, true)].all (fun (n, ok) => let h : Hop := .trunkB; let f : Frame := frameOf 0 6 2 (words [3 + 65536 * n, 0, 0, 0]);
     let s : State := arrS h f (quiet 0); let u : State := (s.arrives h ok f).2;
     decide (s.frozen = false ∧ f.type = 0 ∧ f.sub = 6 ∧ (s.arrives h ok f).1 = ok ∧ (f.le 2 1 = u.ringNo ↔ n = 0))),
    (let f : Frame := frameOf 4 2 2 []; decide (f.type ≠ 0)),
    (let s : State := quiet 0; let s : State := s.setF (Reg.AKx_CFG (0)) 1 0 1; decide (s.frozen = false ∧ s.isRingHead = true ∧
         (s.ringRole 0 = true ∨ s.ringRole 1 = true))),
    (let s : State := quiet 0; let s : State := s.setF Reg.BEAM_STATION 13 0 5; decide (s.frozen = false ∧ s.isRingHead = false)),
    (let h : Hop := .ringA; let f : Frame := frameOf 4 2 2 (words [0x201, 7, 7]); let s : State := arrS h f (quiet 0); decide (s.frozen = false ∧
         f.type = 4 ∧ f.sub = 2 ∧ hopTrunk h = false ∧ (s.hopTakes h false f).1 = false)),
    (let h : Hop := .ringA; let f : Frame := frameOf 4 2 2 (words [0x203]); let s : State := arrS h f (quiet 0); decide (s.frozen = false ∧
         f.type = 4 ∧ f.sub = 2 ∧ hopTrunk h = false ∧ (s.hopTakes h true f).1 = true ∧ (s.hopTakes h true f).2.frameOk h f = false)),
    [0x201, 1].all (fun w => let h : Hop := .ringA; let f : Frame := frameOf 4 2 2 (words [w, 0x7070707, 0x7070707]); let s : State := arrS h f (quiet 0);
     let u : State := (s.hopTakes h true f).2; decide (s.frozen = false ∧ f.type = 4 ∧ f.sub = 2 ∧ hopTrunk h = false ∧
         (s.hopTakes h true f).1 = true ∧ u.frameOk h f = true ∧ u.isRingHead = false ∧ (u.acceptRing f).1 = true ∧
         ((f.le 1 1).testBit 1 = true ↔ w = 0x201))),
    (let h : Hop := .trunkA; decide (hopTrunk h = true))].all id = true := by decide +kernel

/-- The premises of the clauses of `LinkContent` are met. -/
theorem wit_LinkContent : [
    (let h : Hop := .trunkB; let ok : Bool := true; let f : Frame := frameOf 1 0 2 (words [0x10000010, 16, 1, 2, 3, 4]); let a : Nat := 0x10000010;
     let s : State := quiet 0; let s : State := arrS h f s; decide (s.frozen = false ∧ f.type = 1) && (match s.arrives h ok f with
       | (true, u) => (decide (inSram a = true ∧ a % 16 = 0 ∧ u.regionAllows (5 + hopPort h) a true = true ∧
           u.stagingLocked (5 + hopPort h) a = false ∧ u.bankBusy (bankOf a) = false ∧ f.sub = 0 ∧ f.data.length = 24))
       | _ => false)),
    (let h : Hop := .trunkB; let ok : Bool := true; let f : Frame := frameOf 1 1 2 (words [0x10000010, 16, 1, 2, 3, 4, 5, 6]);
     let a : Nat := 0x10000010; let s : State := quiet 0; let s : State := arrS h f s; decide (s.frozen = false ∧ f.type = 1) &&
         (match s.arrives h ok f with
       | (true, u) => (decide (inSram a = true ∧ a % 16 = 0 ∧ u.regionAllows (5 + hopPort h) a true = true ∧
           u.stagingLocked (5 + hopPort h) a = false ∧ u.bankBusy (bankOf a) = false ∧ f.sub = 1 ∧ f.data.length = 32 ∧ f.le 8 4 = 1))
       | _ => false)),
    (let h : Hop := .trunkB; let ok : Bool := true; let f : Frame := frameOf 2 0 0 (words [0x38a00870, 0x980068d0, 0xf860c830, 0x59c12890]);
     let s : State := quiet 5; let s : State := arrS h f s; decide (s.frozen = false ∧ f.type = 2) && (match s.arrives h ok f with
       | (true, u) => (decide (∀ n ∈ List.range 12, u.streamed n = false))
       | _ => false)),
    (let h : Hop := .ringA; let ok : Bool := true; let f : Frame := frameOf 2 0 0 (words [0x50003, 0x20000, 16, 0, 1, 2, 3, 4]); let n : Nat := 2;
     let data : List Byte := [1, 0, 0, 0, 2, 0, 0, 0, 3, 0, 0, 0, 4, 0, 0, 0]; let s : State := quiet 5; let s : State := arrS h f s;
     let s : State := ((s.setF (Reg.LAYn_TYPE 2) 1 0 2).setBit (Reg.LAYn_BANK 2) 2 true).setF (Reg.LAYn_BANK 2) 0 0 0;
     let s : State := ((s.setReg (Reg.LAYn_Bb_CTRL 2 0) (wd (2^14))).setF (Reg.LAYn_Bb_SIZE0 2 0) 15 0 3).setReg (Reg.LAYn_Bb_SIZE1 2 0) (wd (8 * 65536 + 64));
     let s : State := (s.setReg (Reg.LAYn_Bb_STRIDE 2 0) 256).setReg (Reg.LAYn_Bb_BASE0 2 0) 0x10000000;
     let s : State := { s with qdl := { s.qdl with layers := s.qdl.layers.set 2 { emptyLayer with bufs := [.filling, .free, .free], fillTag := some 5, lastTag := some 5, fillLeft := 1000 } } };
     decide (s.frozen = false ∧ f.type = 2) && (match s.arrives h ok f with
       | (true, u) => (decide ((List.range 12).filter (fun n => u.streamed n &&
           decide (u.f (Reg.LAYn_Bb_SIZE0 n (u.front n)) 15 0 = f.le 0 2)) = [n] ∧ f.le 4 2 < u.f (Reg.LAYn_Bb_SIZE1 n (u.front n)) 28 16 ∧
           f.le 8 4 + data.length ≤ u.rowBytes n ∧ (u.layer n).lastTag = some (f.le 2 2) ∧ f.le 2 2 < 65536 ∧
           (u.layer n).fillTag = some (f.le 2 2)) && (match u.fillingBuf n with
         | some i => (decide (u.qdl.layers.length = 12) &&
             (match u.writeRun (5 + hopPort h) (data.length / 16 + 2) (u.bufAddr n i + f.le 4 2 * u.f (Reg.LAYn_Bb_STRIDE n (u.front n)) 15 0 + f.le 8 4) data with
           | (true, _) => (decide (data.length < (u.layer n).fillLeft))
           | _ => false))
         | _ => false))
       | _ => false)),
    [(0, true), (1, true), (0, false), (1, false)].all (fun (sub, ok) => let h : Hop := .trunkB;
     let f : Frame := frameOf 1 sub 2 (words ([0x10000010, 16] ++ (if sub = 1 then [1, 0] else []) ++ [1, 2, 3, 4])); let s : State := arrS h f (quiet 0); decide (s.frozen = false ∧
         f.type = 1 ∧ f.sub = sub ∧ (s.arrives h ok f).1 = ok)),
    [true, false].all (fun ok => let h : Hop := .trunkB; let f : Frame := frameOf 2 0 0 (words [0, 0, 0, 0]); let s : State := arrS h f (quiet 0);
     decide (s.frozen = false ∧ f.type = 2 ∧ (s.arrives h ok f).1 = ok)),
    (let f : Frame := frameOf 4 2 0 []; decide (f.type ≠ 1 ∧ f.type ≠ 2 ∧ f.type = 4 ∧ f.sub = 2)),
    (let h : Hop := .trunkB; let f : Frame := { frameOf 0 1 2 (fill 16) with dst := 0 }; let s : State := quiet 0; decide (s.frozen = false ∧
         ¬ (f.type = 4 ∧ f.sub = 2) ∧ (s.arrives h true f).1 = false)),
    (let h : Hop := .trunkB; let f : Frame := frameOf 1 0 2 (words [0x10000010, 16, 1, 2, 3, 4]); let s : State := arrS h f (quiet 0);
     decide (s.frozen = false ∧ ¬ (f.type = 4 ∧ f.sub = 2) ∧ (s.arrives h true f).1 = true ∧ ¬ (f.type = 4 ∧ f.sub = 3))),
    [0, 0xF].all (fun full => let h : Hop := .trunkB; let f : Frame := frameOf 4 3 2 (fill 44); let s : State := arrS h f (quiet 0);
     let s : State := s.setF Reg.MGT_MBINSTAT 3 0 full; let u : State := (s.arrives h true f).2; decide (s.frozen = false ∧ f.type = 4 ∧ f.sub = 3 ∧
         (s.arrives h true f).1 = true) && (u.freeInbound.isNone == decide (full = 0xF))),
    [(false, 64), (true, 9217), (true, 64)].all (fun (fcs, size) => let p : Fin 2 := 0; let s : State := ethS (ringHop p.val) (quiet 5);
     decide (s.frozen = false ∧ s.isEth (ringHop p.val) = true ∧ (fcs = false ∨ 9216 < size ∨ size ≤ 9216))),
    (let p : Fin 2 := 0; let s : State := ethS (ringHop p.val) (quiet 5); let dst : Nat := 7; decide (s.frozen = false ∧
         s.isEth (ringHop p.val) = true ∧ s.mac (Reg.AKx_MACLO p.val) (Reg.AKx_MACHI p.val) ≠ dst ∧ s.f Reg.BEAM_LOCKCTL 8 8 = p.val)),
    (let p : Fin 2 := 1; let s : State := ethS (ringHop p.val) (quiet 5); decide (s.frozen = false ∧
         s.isEth (ringHop p.val) = true ∧ s.f Reg.BEAM_LOCKCTL 8 8 ≠ p.val)),
    (let p : Fin 2 := 1; let s : State := quiet 5; decide (s.frozen = false ∧ s.isEth (ringHop p.val) = false))].all id = true := by decide +kernel

/-- The premises of the clauses of `CoreArithmetic` are met. -/
theorem wit_CoreArithmetic : [
    (let c : Fin 3 := 1; let rd : Fin 16 := 0; let ra : Fin 16 := 8; let rb : Fin 16 := 0; let s : State := quiet 0;
     let s : State := coreAt c.val (encR 0x00 rd.val ra.val rb.val) s; decide (Begins c.val (encR 0x00 rd.val ra.val rb.val) s)),
    (let c : Fin 3 := 1; let rd : Fin 16 := 0; let ra : Fin 16 := 8; let rb : Fin 16 := 0; let s : State := quiet 0;
     let s : State := coreAt c.val (encR 0x01 rd.val ra.val rb.val) s; decide (Begins c.val (encR 0x01 rd.val ra.val rb.val) s)),
    (let c : Fin 3 := 1; let rd : Fin 16 := 0; let ra : Fin 16 := 8; let rb : Fin 16 := 0; let s : State := quiet 0;
     let s : State := coreAt c.val (encR 0x02 rd.val ra.val rb.val) s; decide (Begins c.val (encR 0x02 rd.val ra.val rb.val) s)),
    (let c : Fin 3 := 1; let rd : Fin 16 := 0; let ra : Fin 16 := 8; let rb : Fin 16 := 0; let s : State := quiet 0;
     let s : State := coreAt c.val (encR 0x03 rd.val ra.val rb.val) s; decide (Begins c.val (encR 0x03 rd.val ra.val rb.val) s)),
    (let c : Fin 3 := 1; let rd : Fin 16 := 0; let ra : Fin 16 := 8; let rb : Fin 16 := 0; let s : State := quiet 0;
     let s : State := coreAt c.val (encR 0x04 rd.val ra.val rb.val) s; decide (Begins c.val (encR 0x04 rd.val ra.val rb.val) s)),
    (let c : Fin 3 := 1; let rd : Fin 16 := 0; let ra : Fin 16 := 8; let rb : Fin 16 := 0; let s : State := quiet 0;
     let s : State := coreAt c.val (encR 0x05 rd.val ra.val rb.val) s; decide (Begins c.val (encR 0x05 rd.val ra.val rb.val) s)),
    (let c : Fin 3 := 1; let rd : Fin 16 := 0; let ra : Fin 16 := 8; let rb : Fin 16 := 0; let s : State := quiet 0;
     let s : State := coreAt c.val (encR 0x06 rd.val ra.val rb.val) s; decide (Begins c.val (encR 0x06 rd.val ra.val rb.val) s)),
    (let c : Fin 3 := 1; let rd : Fin 16 := 0; let ra : Fin 16 := 8; let rb : Fin 16 := 0; let s : State := quiet 0;
     let s : State := coreAt c.val (encR 0x07 rd.val ra.val rb.val) s; decide (Begins c.val (encR 0x07 rd.val ra.val rb.val) s)),
    (let c : Fin 3 := 1; let rd : Fin 16 := 0; let ra : Fin 16 := 8; let imm : BitVec 18 := 1; let s : State := quiet 0;
     let s : State := coreAt c.val (encI 0x10 rd.val ra.val imm) s; decide (Begins c.val (encI 0x10 rd.val ra.val imm) s)),
    (let c : Fin 3 := 1; let rd : Fin 16 := 0; let ra : Fin 16 := 8; let imm : BitVec 18 := 1; let s : State := quiet 0;
     let s : State := coreAt c.val (encI 0x11 rd.val ra.val imm) s; decide (Begins c.val (encI 0x11 rd.val ra.val imm) s)),
    (let c : Fin 3 := 1; let rd : Fin 16 := 0; let ra : Fin 16 := 8; let imm : BitVec 18 := 1; let s : State := quiet 0;
     let s : State := coreAt c.val (encI 0x12 rd.val ra.val imm) s; decide (Begins c.val (encI 0x12 rd.val ra.val imm) s)),
    (let c : Fin 3 := 1; let rd : Fin 16 := 0; let ra : Fin 16 := 8; let imm : BitVec 18 := 1; let s : State := quiet 0;
     let s : State := coreAt c.val (encI 0x13 rd.val ra.val imm) s; decide (Begins c.val (encI 0x13 rd.val ra.val imm) s)),
    (let c : Fin 3 := 1; let rd : Fin 16 := 0; let ra : Fin 16 := 8; let sh : BitVec 5 := 16; let s : State := quiet 0;
     let s : State := coreAt c.val (encI 0x14 rd.val ra.val (sh.setWidth 18)) s; decide (Begins c.val (encI 0x14 rd.val ra.val (sh.setWidth 18)) s)),
    (let c : Fin 3 := 1; let rd : Fin 16 := 0; let ra : Fin 16 := 8; let sh : BitVec 5 := 16; let s : State := quiet 0;
     let s : State := coreAt c.val (encI 0x15 rd.val ra.val (sh.setWidth 18)) s; decide (Begins c.val (encI 0x15 rd.val ra.val (sh.setWidth 18)) s)),
    (let c : Fin 3 := 1; let rd : Fin 16 := 0; let ra : Fin 16 := 8; let sh : BitVec 5 := 16; let s : State := quiet 0;
     let s : State := coreAt c.val (encI 0x16 rd.val ra.val (sh.setWidth 18)) s; decide (Begins c.val (encI 0x16 rd.val ra.val (sh.setWidth 18)) s)),
    (let c : Fin 3 := 1; let rd : Fin 16 := 0; let imm : BitVec 18 := 1; let s : State := quiet 0;
     let s : State := coreAt c.val (encI 0x17 rd.val 0 imm) s; decide (Begins c.val (encI 0x17 rd.val 0 imm) s)),
    (let c : Fin 3 := 1; let rd : Fin 16 := 0; let hi : BitVec 16 := 7; let s : State := quiet 0;
     let s : State := coreAt c.val (encI 0x18 rd.val 0 (hi.setWidth 18)) s; decide (Begins c.val (encI 0x18 rd.val 0 (hi.setWidth 18)) s))].all id = true := by decide +kernel

/-- The premises of the clauses of `CoreUnits` are met. -/
theorem wit_CoreUnits : [
    (let c : Fin 3 := 1; let rd : Fin 16 := 0; let ra : Fin 16 := 8; let rb : Fin 16 := 0; let s : State := quiet 0;
     let s : State := coreAt c.val (encR 0x08 rd.val ra.val rb.val) s; decide (Begins c.val (encR 0x08 rd.val ra.val rb.val) s)),
    (let c : Fin 3 := 1; let rd : Fin 16 := 0; let ra : Fin 16 := 8; let rb : Fin 16 := 0; let s : State := quiet 0;
     let s : State := coreAt c.val (encR 0x09 rd.val ra.val rb.val) s; decide (Begins c.val (encR 0x09 rd.val ra.val rb.val) s)),
    (let c : Fin 3 := 1; let rd : Fin 16 := 0; let ra : Fin 16 := 8; let rb : Fin 16 := 0; let s : State := quiet 0;
     let s : State := coreAt c.val (encR 0x0A rd.val ra.val rb.val) s; decide (Begins c.val (encR 0x0A rd.val ra.val rb.val) s)),
    (let c : Fin 3 := 1; let rd : Fin 16 := 0; let ra : Fin 16 := 8; let rb : Fin 16 := 0; let s : State := quiet 0;
     let s : State := coreAt c.val (encR 0x0B rd.val ra.val rb.val) s; decide (Begins c.val (encR 0x0B rd.val ra.val rb.val) s)),
    (let c : Fin 3 := 1; let rd : Fin 16 := 0; let ra : Fin 16 := 8; let rb : Fin 16 := 0; let s : State := quiet 0;
     let s : State := coreAt c.val (encR 0x0C rd.val ra.val rb.val) s; decide (Begins c.val (encR 0x0C rd.val ra.val rb.val) s)),
    (let c : Fin 3 := 1; let rd : Fin 16 := 0; let ra : Fin 16 := 8; let rb : Fin 16 := 0; let s : State := quiet 0;
     let s : State := coreAt c.val (encR 0x0D rd.val ra.val rb.val) s; decide (Begins c.val (encR 0x0D rd.val ra.val rb.val) s)),
    (let c : Fin 3 := 1; let rd : Fin 16 := 0; let ra : Fin 16 := 8; let rb : Fin 16 := 0; let s : State := quiet 0;
     let s : State := coreAt c.val (encR 0x0E rd.val ra.val rb.val) s; decide (Begins c.val (encR 0x0E rd.val ra.val rb.val) s)),
    (let c : Fin 3 := 1; let rd : Fin 16 := 0; let ra : Fin 16 := 8; let s : State := quiet 0;
     let s : State := coreAt c.val (encR 0x3E rd.val ra.val 0 ||| wd 0) s; decide (Begins c.val (encR 0x3E rd.val ra.val 0 ||| wd 0) s)),
    (let c : Fin 3 := 1; let rd : Fin 16 := 0; let ra : Fin 16 := 8; let rb : Fin 16 := 0; let s : State := quiet 0;
     let s : State := coreAt c.val (encR 0x3E rd.val ra.val rb.val ||| wd 1) s; decide (Begins c.val (encR 0x3E rd.val ra.val rb.val ||| wd 1) s)),
    (let c : Fin 3 := 1; let rd : Fin 16 := 0; let ra : Fin 16 := 8; let rb : Fin 16 := 0; let s : State := quiet 0;
     let s : State := coreAt c.val (encR 0x3E rd.val ra.val rb.val ||| wd 2) s; decide (Begins c.val (encR 0x3E rd.val ra.val rb.val ||| wd 2) s))].all id = true := by decide +kernel

/-- The premises of the clauses of `CoreMemory` are met. -/
theorem wit_CoreMemory : [
    (let c : Fin 3 := 1; let rd : Fin 16 := 3; let ra : Fin 16 := 14; let imm : BitVec 18 := 0x100; let s : State := quiet 0;
     let s : State := coreAt c.val (encI 0x20 rd.val ra.val imm) s; (let a : Nat := ((s.core c.val).r ra.val + imm.signExtend 32).toNat;
     (let k : Nat := localKey c.val (a - 0x08000000); decide (memOf c.val a = 1 ∧ s.mark (k / 4 * 4) = .none ∧ a % 4 = 0 ∧
         Begins c.val (encI 0x20 rd.val ra.val imm) s)))),
    (let c : Fin 3 := 1; let rd : Fin 16 := 3; let ra : Fin 16 := 14; let imm : BitVec 18 := 0x100; let s : State := quiet 0;
     let s : State := coreAt c.val (encI 0x21 rd.val ra.val imm) s; (let a : Nat := ((s.core c.val).r ra.val + imm.signExtend 32).toNat;
     (let k : Nat := localKey c.val (a - 0x08000000); decide (memOf c.val a = 1 ∧ s.mark (k / 4 * 4) = .none ∧ a % 2 = 0 ∧
         Begins c.val (encI 0x21 rd.val ra.val imm) s)))),
    (let c : Fin 3 := 1; let rd : Fin 16 := 3; let ra : Fin 16 := 14; let imm : BitVec 18 := 0x100; let s : State := quiet 0;
     let s : State := coreAt c.val (encI 0x22 rd.val ra.val imm) s; (let a : Nat := ((s.core c.val).r ra.val + imm.signExtend 32).toNat;
     (let k : Nat := localKey c.val (a - 0x08000000); decide (memOf c.val a = 1 ∧ s.mark (k / 4 * 4) = .none ∧ a % 2 = 0 ∧
         Begins c.val (encI 0x22 rd.val ra.val imm) s)))),
    (let c : Fin 3 := 1; let rd : Fin 16 := 3; let ra : Fin 16 := 14; let imm : BitVec 18 := 0x100; let s : State := quiet 0;
     let s : State := coreAt c.val (encI 0x23 rd.val ra.val imm) s; (let a : Nat := ((s.core c.val).r ra.val + imm.signExtend 32).toNat;
     (let k : Nat := localKey c.val (a - 0x08000000); decide (memOf c.val a = 1 ∧ s.mark (k / 4 * 4) = .none ∧
         Begins c.val (encI 0x23 rd.val ra.val imm) s)))),
    (let c : Fin 3 := 1; let rd : Fin 16 := 3; let ra : Fin 16 := 14; let imm : BitVec 18 := 0x100; let s : State := quiet 0;
     let s : State := coreAt c.val (encI 0x24 rd.val ra.val imm) s; (let a : Nat := ((s.core c.val).r ra.val + imm.signExtend 32).toNat;
     (let k : Nat := localKey c.val (a - 0x08000000); decide (memOf c.val a = 1 ∧ s.mark (k / 4 * 4) = .none ∧
         Begins c.val (encI 0x24 rd.val ra.val imm) s)))),
    (let c : Fin 3 := 1; let rd : Fin 16 := 3; let ra : Fin 16 := 14; let imm : BitVec 18 := 0x100; let s : State := quiet 0;
     let s : State := coreAt c.val (encI 0x25 rd.val ra.val imm) s; (let a : Nat := ((s.core c.val).r ra.val + imm.signExtend 32).toNat;
     (let k : Nat := localKey c.val (a - 0x08000000); decide (memOf c.val a = 1 ∧ s.mark (k / 4 * 4) = .none ∧ a % 4 = 0 ∧
         Begins c.val (encI 0x25 rd.val ra.val imm) s)))),
    (let c : Fin 3 := 1; let rd : Fin 16 := 3; let ra : Fin 16 := 14; let imm : BitVec 18 := 0x100; let s : State := quiet 0;
     let s : State := coreAt c.val (encI 0x26 rd.val ra.val imm) s; (let a : Nat := ((s.core c.val).r ra.val + imm.signExtend 32).toNat;
     (let k : Nat := localKey c.val (a - 0x08000000); decide (memOf c.val a = 1 ∧ s.mark (k / 4 * 4) = .none ∧ a % 2 = 0 ∧
         Begins c.val (encI 0x26 rd.val ra.val imm) s)))),
    (let c : Fin 3 := 1; let rd : Fin 16 := 3; let ra : Fin 16 := 14; let imm : BitVec 18 := 0x100; let s : State := quiet 0;
     let s : State := coreAt c.val (encI 0x27 rd.val ra.val imm) s; (let a : Nat := ((s.core c.val).r ra.val + imm.signExtend 32).toNat;
     (let k : Nat := localKey c.val (a - 0x08000000); decide (memOf c.val a = 1 ∧ s.mark (k / 4 * 4) = .none ∧
         Begins c.val (encI 0x27 rd.val ra.val imm) s)))),
    (let c : Fin 3 := 2; let rd : Fin 16 := 2; let ra : Fin 16 := 13; let imm : BitVec 18 := 0x100; let s : State := quiet 0;
     let s : State := coreAt c.val (encI 0x25 rd.val ra.val imm) s; (let a : Nat := ((s.core c.val).r ra.val + imm.signExtend 32).toNat;
     decide (memOf c.val a = 2 ∧ a % 4 = 0 ∧ Begins c.val (encI 0x25 rd.val ra.val imm) s ∧ (s.core c.val).stores.length < 4 ∧
         s.regionAllows (corePort c.val) (a / 16 * 16) true = true ∧ s.stagingLocked (corePort c.val) (a / 16 * 16) = false ∧
         s.bankBusy (bankOf a) = false ∧ s.mark (a / 16 * 16) = .none))),
    (let c : Fin 3 := 1; let rd : Fin 16 := 0; let ra : Fin 16 := 3; let imm : BitVec 18 := 0; let s : State := quiet 0;
     let s : State := coreAt c.val (encI 0x25 rd.val ra.val imm) s;
     let s : State := s.setCore c.val { s.core c.val with g := (s.core c.val).g.set 3 0x10000010, stores := List.replicate 4 oneStore };
     (let a : Nat := ((s.core c.val).r ra.val + imm.signExtend 32).toNat; decide (memOf c.val a = 2 ∧ a % 4 = 0 ∧
         Begins c.val (encI 0x25 rd.val ra.val imm) s ∧ 4 ≤ (s.core c.val).stores.length))),
    (let c : Fin 3 := 2; let rd : Fin 16 := 2; let ra : Fin 16 := 13; let imm : BitVec 18 := 1; let s : State := quiet 0;
     let s : State := coreAt c.val (encI 0x20 rd.val ra.val imm) s; decide (Begins c.val (encI 0x20 rd.val ra.val imm) s)),
    (let c : Fin 3 := 2; let rd : Fin 16 := 2; let ra : Fin 16 := 13; let imm : BitVec 18 := 4; let s : State := coreAt c.val (encI 0x20 rd.val ra.val imm) (quiet 0);
     let a : Nat := ((s.core c.val).r ra.val + imm.signExtend 32).toNat; decide (memOf c.val a = 2 ∧ a % 4 = 0 ∧
         Begins c.val (encI 0x20 rd.val ra.val imm) s ∧ s.regionAllows (corePort c.val) (a / 16 * 16) false = true ∧ s.bankBusy (bankOf a) = false ∧
         s.mark (a / 16 * 16) = .none)),
    [0x20, 0x21, 0x22, 0x23, 0x24].all (fun o => let c : Fin 3 := 1; let s : State := coreAt c.val (encI o 3 14 4) (quiet 0);
     decide (Begins c.val (encI o 3 14 4) s)),
    [0x25, 0x26, 0x27].all (fun o => [0, 4].all (fun n => let c : Fin 3 := 1; let s : State := coreAt c.val (encI o 3 13 4) (quiet 0);
     let s : State := s.setCore c.val { s.core c.val with stores := List.replicate n oneStore };
     decide (Begins c.val (encI o 3 13 4) s ∧ memOf c.val ((s.core c.val).r 13 + 4).toNat ≠ 1 ∧ (s.core c.val).stores.length = n)))].all id = true := by decide +kernel

/-- The premises of the clauses of `CoreAtomics` are met. -/
theorem wit_CoreAtomics : [
    (let c : Fin 3 := 1; let rd : Fin 16 := 3; let ra : Fin 16 := 14; let rb : Fin 16 := 3; let s : State := quiet 0;
     let s : State := coreAt c.val (encR 0x28 rd.val ra.val rb.val) s; (let a : Nat := ((s.core c.val).r ra.val).toNat;
     (let k : Nat := localKey c.val (a - 0x08000000); decide (memOf c.val a = 1 ∧ s.mark k = .none ∧
         Begins c.val (encR 0x28 rd.val ra.val rb.val) s)))),
    (let c : Fin 3 := 1; let rd : Fin 16 := 3; let ra : Fin 16 := 14; let rb : Fin 16 := 3; let s : State := quiet 0;
     let s : State := coreAt c.val (encR 0x29 rd.val ra.val rb.val) s; (let a : Nat := ((s.core c.val).r ra.val).toNat;
     (let k : Nat := localKey c.val (a - 0x08000000); decide (memOf c.val a = 1 ∧ s.mark k = .none ∧
         Begins c.val (encR 0x29 rd.val ra.val rb.val) s)))),
    (let c : Fin 3 := 1; let rd : Fin 16 := 3; let ra : Fin 16 := 14; let rb : Fin 16 := 3; let s : State := quiet 0;
     let s : State := coreAt c.val (encR 0x2A rd.val ra.val rb.val) s; (let a : Nat := ((s.core c.val).r ra.val).toNat;
     (let k : Nat := localKey c.val (a - 0x08000000); decide (memOf c.val a = 1 ∧ s.mark k = .none ∧
         Begins c.val (encR 0x2A rd.val ra.val rb.val) s)))),
    (let c : Fin 3 := 1; let rd : Fin 16 := 3; let ra : Fin 16 := 14; let rb : Fin 16 := 3; let s : State := quiet 0;
     let s : State := coreAt c.val (encR 0x2B rd.val ra.val rb.val) s; (let a : Nat := ((s.core c.val).r ra.val).toNat;
     (let k : Nat := localKey c.val (a - 0x08000000); decide (memOf c.val a = 1 ∧ s.mark k = .none ∧
         Begins c.val (encR 0x2B rd.val ra.val rb.val) s)))),
    (let c : Fin 3 := 1; let rd : Fin 16 := 3; let ra : Fin 16 := 14; let rb : Fin 16 := 3; let s : State := quiet 0;
     let s : State := coreAt c.val (encR 0x2C rd.val ra.val rb.val) s; (let a : Nat := ((s.core c.val).r ra.val).toNat;
     (let k : Nat := localKey c.val (a - 0x08000000); decide (memOf c.val a = 1 ∧ s.mark k = .none ∧
         Begins c.val (encR 0x2C rd.val ra.val rb.val) s)))),
    [0, 1, 2, 3, 4].all (fun op => [13, 14].all (fun ra => let c : Fin 3 := 2; let s : State := coreAt c.val (encR (0x28 + op) 2 ra 3) (quiet 0);
     decide (memOf c.val ((s.core c.val).r ra).toNat = (if ra = 13 then 2 else 1) ∧ Begins c.val (encR (0x28 + op) 2 ra 3) s))),
    (let c : Fin 3 := 2; let s : State := quiet 0; decide ((s.core c.val).atomic = none)),
    (let c : Fin 3 := 1; let q : GvAtomic := { op := 1, rd := some 0, addr := 0x10000014, rb := 3, cmp := 9, fin := plain };
     let s : State := quiet 0; let s : State := s.setCore c.val { s.core c.val with run := .run, atomic := some q };
     decide ((s.core c.val).atomic = some q ∧ (s.core c.val).run = .run ∧ q.fin = plain ∧ memOf c.val q.addr = 2 ∧ q.addr % 4 = 0 ∧
         s.regionAllows (corePort c.val) (q.addr / 16 * 16) false = true ∧ s.bankBusy (bankOf q.addr) = false ∧ s.mark (q.addr / 16 * 16) = .none ∧
         s.word q.addr ≠ q.cmp)),
    (let c : Fin 3 := 1; let rd : Fin 16 := 0;
     let q : GvAtomic := { op := 0, rd := some 0, addr := 0x10000014, rb := 3, cmp := 0, fin := { d2 := none, pc := none, st := none, skip := false } };
     let s : State := quiet 0; let s : State := s.setCore c.val { (s.core c.val) with run := .run };
     let s : State := s.setCore c.val { s.core c.val with atomic := some q }; decide ((s.core c.val).atomic = some q ∧ (s.core c.val).run = .run ∧
         q.fin = plain ∧ q.rd = some rd.val ∧ memOf c.val q.addr = 2 ∧ q.addr % 4 = 0 ∧
         (∀ w, s.regionAllows (corePort c.val) (q.addr / 16 * 16) w = true) ∧ s.stagingLocked (corePort c.val) (q.addr / 16 * 16) = false ∧
         s.bankBusy (bankOf q.addr) = false ∧ s.mark (q.addr / 16 * 16) = .none) && (match atomicNew q.op (s.word q.addr) q.rb q.cmp with
       | some _ => true
       | _ => false))].all id = true := by decide +kernel

/-- The premises of the clauses of `CoreBranches` are met. -/
theorem wit_CoreBranches : [
    (let c : Fin 3 := 1; let off : BitVec 26 := 1; let s : State := quiet 0; let s : State := coreAt c.val (encJ 0x30 off) s;
     decide (Begins c.val (encJ 0x30 off) s)),
    (let c : Fin 3 := 1; let off : BitVec 26 := 1; let s : State := quiet 0; let s : State := coreAt c.val (encJ 0x31 off) s;
     decide (Begins c.val (encJ 0x31 off) s)),
    (let c : Fin 3 := 1; let ra : Fin 16 := 8; let s : State := quiet 0; let s : State := coreAt c.val (encR 0x32 0 ra.val 0) s;
     decide (Begins c.val (encR 0x32 0 ra.val 0) s)),
    (let c : Fin 3 := 1; let ra : Fin 16 := 8; let s : State := quiet 0; let s : State := coreAt c.val (encR 0x33 0 ra.val 0) s;
     decide (Begins c.val (encR 0x33 0 ra.val 0) s)),
    (let c : Fin 3 := 1; let s : State := quiet 0; let s : State := coreAt c.val (encR 0x34 0 0 0) s; decide (Begins c.val (encR 0x34 0 0 0) s)),
    (let c : Fin 3 := 1; let ra : Fin 16 := 8; let rb : Fin 16 := 0; let cc : Fin 16 := 8; let s : State := quiet 0;
     let s : State := coreAt c.val (encR 0x36 cc.val ra.val rb.val) s; decide (Begins c.val (encR 0x36 cc.val ra.val rb.val) s)),
    (let c : Fin 3 := 1; let ra : Fin 16 := 8; let cc : Fin 16 := 8; let imm : BitVec 18 := 16; let s : State := quiet 0;
     let s : State := coreAt c.val (encI 0x37 cc.val ra.val imm) s; decide (Begins c.val (encI 0x37 cc.val ra.val imm) s)),
    (let c : Fin 3 := 1; let ra : Fin 16 := 8; let i : Fin 32 := 24; let v : Bool := true; let s : State := quiet 0;
     let s : State := coreAt c.val (encI 0x38 (b2n v) ra.val (BitVec.ofNat 18 i.val)) s;
     decide (Begins c.val (encI 0x38 (b2n v) ra.val (BitVec.ofNat 18 i.val)) s)),
    (let c : Fin 3 := 2; let rd : Fin 16 := 2; let ra : Fin 16 := 14; let pos : Fin 32 := 10; let w : Fin 32 := 2; let s : State := quiet 0;
     let s : State := coreAt c.val (encI 0x39 rd.val ra.val (formB false pos w)) s;
     decide (Begins c.val (encI 0x39 rd.val ra.val (formB false pos w)) s)),
    (let c : Fin 3 := 2; let rd : Fin 16 := 2; let ra : Fin 16 := 14; let pos : Fin 32 := 10; let w : Fin 32 := 2; let s : State := quiet 0;
     let s : State := coreAt c.val (encI 0x39 rd.val ra.val (formB true pos w)) s;
     decide (Begins c.val (encI 0x39 rd.val ra.val (formB true pos w)) s)),
    (let c : Fin 3 := 2; let rd : Fin 16 := 2; let ra : Fin 16 := 14; let pos : Fin 32 := 10; let w : Fin 32 := 2; let s : State := quiet 0;
     let s : State := coreAt c.val (encI 0x3A rd.val ra.val (formB false pos w)) s;
     decide (Begins c.val (encI 0x3A rd.val ra.val (formB false pos w)) s)),
    (let c : Fin 3 := 1; let rd : Fin 16 := 0; let ra : Fin 16 := 8; let s : State := quiet 0;
     let s : State := coreAt c.val (encI 0x3B rd.val ra.val 0) s; decide (Begins c.val (encI 0x3B rd.val ra.val 0) s)),
    (let c : Fin 3 := 1; let rd : Fin 16 := 0; let ra : Fin 16 := 8; let sel : BitVec 16 := 1; let s : State := quiet 0;
     let s : State := coreAt c.val (encI 0x3C rd.val ra.val (sel.setWidth 18)) s; decide (Begins c.val (encI 0x3C rd.val ra.val (sel.setWidth 18)) s))].all id = true := by decide +kernel

/-- The premises of the clauses of `CoreSystem` are met. -/
theorem wit_CoreSystem : [
    (let c : Fin 3 := 0; let rd : Fin 16 := 4; let n : Fin 256 := 5; let s : State := quiet 0;
     let s : State := coreAt c.val (encY 0 rd.val 0 n.val) s; decide (Begins c.val (encY 0 rd.val 0 n.val) s)),
    (let c : Fin 3 := 1; let ra : Fin 16 := 8; let s : State := quiet 0; let s : State := coreAt c.val (encY 1 0 ra.val 0) s;
     decide (Begins c.val (encY 1 0 ra.val 0) s)),
    (let c : Fin 3 := 1; let ra : Fin 16 := 8; let s : State := quiet 0; let s : State := coreAt c.val (encY 1 0 ra.val 4) s;
     decide (Begins c.val (encY 1 0 ra.val 4) s)),
    (let c : Fin 3 := 1; let ra : Fin 16 := 8; let s : State := quiet 0; let s : State := coreAt c.val (encY 1 0 ra.val 8) s;
     decide (Begins c.val (encY 1 0 ra.val 8) s ∧ s.bit (Reg.DBG_Cc_VT c.val) 0 = false)),
    (let c : Fin 3 := 1; let s : State := quiet 0; let s : State := coreAt c.val (encY 2 0 0 0) s; (let x : CoreSt := s.core c.val;
     decide (Begins c.val (encY 2 0 0 0) s ∧ x.stores = [] ∧ x.results = []))),
    (let c : Fin 3 := 1; let s : State := quiet 0; let s : State := coreAt c.val (encY 2 0 0 0) s;
     let s : State := s.setCore c.val { s.core c.val with stores := [oneStore] }; (let x : CoreSt := s.core c.val;
     decide (Begins c.val (encY 2 0 0 0) s ∧ x.stores ≠ []))),
    (let c : Fin 3 := 1; let s : State := quiet 0; let s : State := coreAt c.val (encY 3 0 0 0) s; decide (Begins c.val (encY 3 0 0 0) s)),
    (let c : Fin 3 := 1; let s : State := quiet 0; let s : State := coreAt c.val (encY 4 0 0 0) s; decide (Begins c.val (encY 4 0 0 0) s)),
    (let c : Fin 3 := 1; let rd : Fin 16 := 0; let s : State := quiet 0; let s : State := coreAt c.val (encY 5 rd.val 0 0) s;
     decide (Begins c.val (encY 5 rd.val 0 0) s)),
    (let c : Fin 3 := 1; let s : State := quiet 0; let s : State := coreAt c.val (encY 6 0 0 0) s; decide (Begins c.val (encY 6 0 0 0) s)),
    (let c : Fin 3 := 2; let code : BitVec 14 := 128; let s : State := quiet 0; let s : State := coreAt c.val (encY 7 0 0 code.toNat) s;
     (let x : CoreSt := s.core c.val; decide (Begins c.val (encY 7 0 0 code.toNat) s ∧ x.waits 14 = false ∧ x.exc = false ∧ x.sec = false ∧
         x.frameOk c.val = true ∧ x.results = [] ∧ x.g.length = 16))),
    (let c : Fin 3 := 1; let code : BitVec 14 := 0x0f0f; let s : State := quiet 0; let s : State := coreAt c.val (encY 8 0 0 code.toNat) s;
     let s : State := s.setBit (Reg.DBG_Cc_CTRL c.val) 2 true; (let x : CoreSt := s.core c.val; decide (Begins c.val (encY 8 0 0 code.toNat) s ∧
         x.sec = false ∧ s.bit (Reg.DBG_Cc_CTRL c.val) 2 = true))),
    (let c : Fin 3 := 0; let s : State := quiet 0; let s : State := coreAt c.val (encR 0x35 0 0 0) s; (let x : CoreSt := s.core c.val;
     decide (Begins c.val (encR 0x35 0 0 0) s) && (let b : Nat := (x.r 14).toNat; decide (b % 4 = 0 ∧ 0x08000000 ≤ b ∧
         b + 40 ≤ 0x08000000 + localSize c.val) && (let k : Nat := localKey c.val (b - 0x08000000);
     decide ((∀ i ∈ List.range 10, s.mark (k + 4 * i) = .none) ∧ x.g.length = 16))))),
    (let c : Fin 3 := 1; let s : State := (coreAt c.val (encY 1 0 3 8) (quiet 0)).setBit (Reg.DBG_Cc_VT c.val) 0 true;
     decide (Begins c.val (encY 1 0 3 8) s ∧ s.bit (Reg.DBG_Cc_VT c.val) 0 = true)),
    (let c : Fin 3 := 1; let s : State := coreAt c.val (encY 2 0 0 0) (quiet 0);
     let s : State := s.setCore c.val { s.core c.val with results := [⟨true, 2, 5, [], 0, 0, 0, 0⟩] };
     decide (Begins c.val (encY 2 0 0 0) s ∧ (s.core c.val).results.any (fun r => r.load) = true)),
    (let c : Fin 3 := 1; let s : State := coreAt c.val (encY 2 0 0 0) (quiet 0);
     let s : State := s.setCore c.val { s.core c.val with results := [unitResult 2 5] };
     decide (Begins c.val (encY 2 0 0 0) s ∧ (s.core c.val).stores = [] ∧ (s.core c.val).results.any (fun r => r.load) = false)),
    [(true, 0), (false, 16), (false, 32)].all (fun (w, st) => let c : Fin 3 := 2; let s : State := coreAt c.val (encY 7 0 0 3) (quiet 0);
     let s : State := s.setCore c.val { s.core c.val with st := st, results := if w then [unitResult 14 5] else [] };
     decide (Begins c.val (encY 7 0 0 3) s ∧ (s.core c.val).waits 14 = w ∧ (w = true ∨ (s.core c.val).exc = true ∨ (s.core c.val).sec = true))),
    (let c : Fin 3 := 2; let s : State := coreAt c.val (encY 8 0 0 3) (quiet 0); let s : State := s.setCore c.val { s.core c.val with st := 32 };
     decide (Begins c.val (encY 8 0 0 3) s ∧ (s.core c.val).sec = true)),
    (let c : Fin 3 := 2; let s : State := coreAt c.val (encY 8 0 0 3) (quiet 0); let x : CoreSt := s.core c.val; decide (Begins c.val (encY 8 0 0 3) s ∧
         x.sec = false ∧ s.bit (Reg.DBG_Cc_CTRL c.val) 2 = false ∧ x.waits 14 = false ∧ x.exc = false ∧ x.frameOk c.val = true))].all id = true := by decide +kernel

/-- The premises of the clauses of `CoreEntries` are met. -/
theorem wit_CoreEntries : [
    (let c : Fin 3 := 1; let rd : Fin 16 := 0; let s : State := quiet 0;
     let s : State := s.setCore c.val { s.core c.val with results := [⟨true, rd.val, 5, [], 0, 0, 0, 0⟩] }; (let x : CoreSt := s.core c.val;
     (match x.results.find? (fun r => decide (r.rd = rd.val)) with
       | some _ => true
       | _ => false))),
    (let c : Fin 3 := 1; let r : GvStore := oneStore; let rest : List GvStore := []; let s : State := quiet 0;
     let s : State := s.setCore c.val { (s.core c.val) with stores := r :: rest }; (let x : CoreSt := s.core c.val; decide (x.stores = r :: rest ∧ r.todo = []))),
    (let c : Fin 3 := 1; let s : State := quiet 0; let s : State := coreAt c.val 0x3C000000 s; (let x : CoreSt := s.core c.val;
     decide (s.boundary c.val = true) && (match (s.fetchAhead c.val).due c.val with
       | some (.exc e) => (decide (x.waits 14 = false ∧ x.exc = false ∧ x.sec = false ∧ e.double = false ∧ x.frameOk c.val = true ∧ x.g.length = 16))
       | _ => false))),
    (let c : Fin 3 := 1; let s : State := quiet 0; let s : State := s.setBit (Reg.DBG_Cc_CTRL c.val) 2 true; let s : State := coreAt c.val 0 s;
     let s : State := s.setCore c.val { s.core c.val with stopDue := some (4, 1) }; decide (s.boundary c.val = true) &&
         (match (s.fetchAhead c.val).due c.val with
       | some (.halt _ _) => (decide (s.bit (Reg.DBG_Cc_CTRL c.val) 2 = true))
       | _ => false)),
    (let c : Fin 3 := 1; let s : State := quiet 0; let s : State := coreAt c.val 0 s; let s : State := s.setCore c.val { s.core c.val with st := 1 };
     let s : State := s.setBit Reg.IRQ_CTRL 0 true; let s : State := s.setReg (Reg.IRQ_SRCs 200) (wd (5 + 16 * c.val + 128 + 256));
     (let x : CoreSt := s.core c.val; decide (s.boundary c.val = true ∧ (s.fetchAhead c.val).due c.val = none) && (match s.presented c.val with
       | some n => (decide (x.lvl < s.priOf n ∧ bitAt x.st 0 = true ∧ x.sec = false ∧ x.waits 14 = false ∧ x.frameOk c.val = true ∧ x.g.length = 16))
       | _ => false))),
    (let c : Fin 3 := 1; let s : State := quiet 0; let x : CoreSt := s.core c.val;
     decide (x.results.find? (fun r => decide (r.rd = 3)) = none ∧ x.stores = [] ∧ s.boundary c.val = false ∧ x.run ≠ .wait)),
    (let c : Fin 3 := 1; let r : GvStore := { oneStore with addr := 0x40030004, todo := [1, 0, 0, 0] }; let s : State := quiet 0;
     let s : State := s.setCore c.val { s.core c.val with stores := [r] }; decide ((s.core c.val).stores = [r] ∧ r.todo ≠ [])),
    (let c : Fin 3 := 1; let s : State := coreAt c.val 0 (quiet 0); decide (s.boundary c.val = true ∧ (s.fetchAhead c.val).due c.val = none)),
    (let c : Fin 3 := 1; let s : State := coreAt c.val 0x3C000000 (quiet 0); decide (s.boundary c.val = true) && ((s.fetchAhead c.val).due c.val).isSome),
    (let c : Fin 3 := 1; let s : State := coreAt c.val 0 (quiet 0); let s : State := s.setCore c.val { s.core c.val with run := .wait, stopDue := some (1, 0) };
     let u : State := s.setCore c.val { s.core c.val with run := .run }; decide ((s.core c.val).run = .wait ∧ (s.haltDue c.val).isSome = true ∧
         u.boundary c.val = true ∧ (u.fetchAhead c.val).due c.val = some (.halt 1 0))),
    (let c : Fin 3 := 1; let s : State := quiet 0; decide (s.presented c.val = none)),
    [(CoreRun.run, 0, 0), (.run, 0x500, 0), (.wait, 0, 0), (.run, 1, 5)].all (fun (rn, st, gone) => let c : Fin 3 := 1; let s : State := coreAt c.val 0 (quiet 0);
     let s : State := s.setCore c.val { s.core c.val with st := st, run := rn }; let s : State := s.setBit Reg.IRQ_CTRL 0 true;
     let s : State := if gone = 0 then s.setReg (Reg.IRQ_SRCs 200) (wd (5 + 16 * c.val + 128 + 256)) else s; let x : CoreSt := s.core c.val;
     decide ((rn = .wait ∨ (s.boundary c.val = true ∧ (s.fetchAhead c.val).due c.val = none)) ∧ x.sec = false ∧ x.waits 14 = false ∧
         (s.presented c.val = none ↔ gone = 5)) && (match s.presented c.val with
       | some n => (decide (s.priOf n = 5 ∧ (x.lvl < 5 ↔ st ≠ 0x500) ∧ (bitAt x.st 0 = false)))
       | _ => decide (x.lvl < gone ∧ bitAt x.st 0 = true)))].all id = true := by decide +kernel

/-- The premises of the clauses of `UserOpcodes` are met. -/
theorem wit_UserOpcodes : [
    (let c : Fin 3 := 1; let n : Fin 64 := 16; let rd : Fin 16 := 8; let ra : Fin 16 := 0; let rb : Fin 16 := 8; let imm : BitVec 8 := 112;
     let fn : Fin 13 := 0; let w : Word := 0xfe021070; let s : State := quiet 0;
     let s : State := coreAt c.val (encR 0x3F rd.val ra.val rb.val ||| wd (n.val * 256 + imm.toNat)) s;
     let s : State := s.setWord (ucAddr c.val 0 (0x3800 + 32 * n.val)) (wd (1 * 2 ^ 28 + fn.val * 2 ^ 24 + 25 * 2 ^ 16 + 26 * 2 ^ 11));
     let s : State := s.setWord (ucAddr c.val 0 (0x3800 + 32 * n.val + 1)) (wd (15 * 2 ^ 28 + 1 * 2 ^ 21 + 24 * 2 ^ 16)); decide (Begins c.val w s ∧
         s.mark (ucAddr c.val 0 (0x3800 + 32 * n.val)) = .none ∧ s.mark (ucAddr c.val 0 (0x3800 + 32 * n.val + 1)) = .none ∧
         s.ucWord c.val 0 (0x3800 + 32 * n.val) = 1 * 2 ^ 28 + fn.val * 2 ^ 24 + 25 * 2 ^ 16 + 26 * 2 ^ 11 ∧
         s.ucWord c.val 0 (0x3800 + 32 * n.val + 1) = 15 * 2 ^ 28 + 1 * 2 ^ 21 + 24 * 2 ^ 16)),
    (let c : Fin 3 := 1; let n : Fin 64 := 16; let w : Word := 0xfe021070; let s : State := quiet 0; let s : State := coreAt c.val w s;
     decide (s.boundary c.val = true ∧ (s.fetchAhead c.val).wordAt c.val = (0, w) ∧ s.ucWord c.val 0 (0x3800 + 32 * n.val) = 0 ∧
         (s.core c.val).buserr = none ∧ (s.core c.val).csue = none ∧ (s.fetchAhead c.val).haltDue c.val = none ∧ (s.core c.val).slot = none ∧
         (s.core c.val).waits 14 = false ∧ (s.core c.val).exc = false ∧ (s.core c.val).sec = false ∧ (s.core c.val).frameOk c.val = true)),
    (let c : Fin 3 := 1; let s : State := quiet 0; decide (s.boundary c.val = false)),
    [(0xF0000000, true), (0xB0000000, false)].all (fun (mw, ok) => let c : Fin 3 := 1; let n : Fin 64 := 16; let w : Word := 0xfe021070;
     let s : State := (coreAt c.val w (quiet 0)).setWord (ucAddr c.val 0 (0x3800 + 32 * n.val)) (wd mw);
     let u : UopArgs := ⟨8, 0, 8, 112, (s.core c.val).pc⟩;
     decide (Begins c.val w s) && (match (s.fetchAhead c.val).microRun c.val u 19 (Micro.start (0x3800 + 32 * n.val)) with
       | .done _ => ok
       | .unpublished => !ok
       | _ => false))].all id = true := by decide +kernel

/-- The premises of the clauses of `ControlStores` are met. -/
theorem wit_ControlStores : [
    (let m : Acc := ⟨14, false, false, false⟩; let v : Word := 0x00000101; let s : State := quiet 5; decide (m.alle = true ∧ m.debug = false ∧
         s.targetOff Reg.IMG_UCLOAD = false ∧ bitAt v 8 = true ∧ s.ucState = 0 ∧ fld v 1 0 < 2 ∧ s.bit Reg.IMG_UCSTAT (16 + fld v 1 0) = false)),
    (let m : Acc := ⟨14, false, false, false⟩; let v : Word := 0xdeadbfef; let s : State := quiet 0; let s : State := s.setF Reg.IMG_UCSTAT 2 0 1;
     decide (m.alle = true ∧ m.debug = false ∧ s.targetOff Reg.IMG_UCLOAD = false ∧ bitAt v 8 = true ∧ s.ucState ≠ 0)),
    (let m : Acc := ⟨10, false, false, false⟩; let s : State := quiet 0; decide (m.alle = false ∧ m.debug = false ∧ s.targetOff Reg.IMG_UCLOAD = false)),
    (let m : Acc := ⟨14, false, false, false⟩; let v : Word := 1; let s : State := quiet 0; decide (m.alle = true ∧ m.debug = false ∧
         s.targetOff Reg.IMG_UCLOAD = false ∧ bitAt v 8 = false)),
    (let m : Acc := host; let s : State := { quiet 0 with pwr.state := 5 }; decide (m.debug = false ∧ s.targetOff Reg.IMG_UCLOAD = true)),
    (let m : Acc := ⟨14, false, false, false⟩; let v : Word := 0xdeadbfed; let s : State := quiet 0; let s : State := s.setBit Reg.IMG_UCSTAT 16 true;
     decide (m.alle = true ∧ m.debug = false ∧ s.targetOff Reg.IMG_UCLOAD = false ∧ bitAt v 8 = true ∧ bitAt v 0 = true ∧
         s.bit Reg.IMG_UCSTAT 16 = true ∧ s.ucState = 0 ∧ s.frozen = false)),
    (let k : Nat := 0; let r : Nat := 8; let s : State := quiet 0; let s : State := { s with gv.load := some (k, r) }; decide (k < 2 ∧
         s.gv.load = some (k, r))),
    [0, 1].all (fun g => let k : Fin 2 := 1; let s : State := { (quiet 0).setReg Reg.IMG_UCSRC 0x10000000 with gv.load := some (k.val, g) };
     let b : Nat := (s.reg Reg.IMG_UCSRC).toNat; let s : State := s.setBytes b (leBytes 4 (0x2000000 + g * 65536) ++ leBytes 2 (0x3800 * g) ++
       leBytes 2 (if g = 0 then 0x3800 else 0x800)); decide (s.gv.load = some (k.val, g) ∧ s.ucHeaderOk k.val g = true ∧
         (g = 1 → ∀ i ∈ List.range 0x800, microOk (s.le (b + 16 + 4 * i) 4) = true))),
    (let k : Fin 2 := 0; let s : State := { quiet 0 with gv.load := some (k.val, 0) }; decide (s.gv.load = some (k.val, 0) ∧ s.ucHeaderOk k.val 0 = false)),
    (let s : State := quiet 0; decide (s.gv.load = none ∧ s.gv.swap = [] ∧ s.ucState ≠ 5)),
    (let k : Fin 2 := 0; let s : State := quiet 0; let s : State := { s with gv.swap := [k.val] }; decide (s.gv.swap = [k.val] ∧
         (s.core 0).atomic = none ∧ (s.core 1).atomic = none)),
    (let k : Fin 2 := 0; let s : State := quiet 0; let s : State := s.setF Reg.IMG_UCSTAT 2 0 5; let s : State := { s with gv.mirror := [k.val] };
     decide (s.ucState = 5 ∧ s.gv.mirror = [k.val])),
    (let c : Fin 3 := 0; let w : Fin 16384 := 15528; let s : State := quiet 0; decide (s.bit Reg.IMG_UCSTAT (18 + c.val) = true ∧
         s.mark (ucAddr c.val 1 w.val) = .none)),
    (let s : State := quiet 0; decide (s.fab.ecc = [] ∧ s.pwr.state < 2)),
    (let s : State := { quiet 0 with pwr.state := 2 }; decide (2 ≤ s.pwr.state))].all id = true := by decide +kernel

/-- The premises of the clauses of `ReelChannels` are met. -/
theorem wit_ReelChannels : [
    (let c : Fin 32 := 28; let m : Acc := ⟨14, false, false, true⟩; let v : Word := 0x10000000; let trig : Word := 9; let s : State := quiet 0;
     let s : State := s.setBit Reg.REEL_CTRL 0 true; let s : State := s.setF (Reg.REELc_BUDGET c.val) 15 0 0; (let x : ReelCh := s.ch c.val;
     decide (s.reel.chans.length = 32 ∧ m.debug = false ∧ s.targetOff Reg.REEL_GO = false ∧ bitAt (v ||| trig) c.val = true ∧ x.stage = .idle ∧ s.bit Reg.REEL_CTRL 0 = true ∧
         s.f Reg.PNL_DIRCH 4 0 ≠ c.val ∧ s.f (Reg.REELc_BUDGET c.val) 15 0 = 0))),
    (let c : Fin 32 := 24; let m : Acc := host; let v : Word := 0x01000000; let trig : Word := 15; let s : State := quiet 0;
     let s : State := setCh s c.val { s.ch c.val with stage := .move }; (let x : ReelCh := s.ch c.val; decide (s.reel.chans.length = 32 ∧
         m.debug = false ∧ s.targetOff Reg.REEL_GO = false ∧ bitAt (v ||| trig) c.val = true ∧ x.stage ≠ .idle))),
    (let c : Fin 32 := 24; let m : Acc := host; let v : Word := 0x81000000; let s : State := quiet 0;
     let s : State := setCh s c.val { (s.ch c.val) with stage := .fetch }; (let x : ReelCh := s.ch c.val; decide (s.reel.chans.length = 32 ∧
         m.debug = false ∧ s.targetOff Reg.REEL_ABORT = false ∧ bitAt v c.val = true ∧ (x.stage = .fetch ∨ x.stage = .move) ∧ x.outs = []))),
    (let c : Fin 32 := 24; let m : Acc := host; let v : Word := 0x81000000; let s : State := quiet 0;
     let s : State := setCh s c.val { (s.ch c.val) with stage := .fetch }; let s : State := setCh s c.val { s.ch c.val with outs := [oneOut] };
     (let x : ReelCh := s.ch c.val; decide (s.reel.chans.length = 32 ∧ m.debug = false ∧ s.targetOff Reg.REEL_ABORT = false ∧ bitAt v c.val = true ∧ (x.stage = .fetch ∨ x.stage = .move) ∧
         x.outs ≠ []))),
    (let c : Fin 32 := 24; let s : State := quiet 0; let s : State := setCh s c.val { (s.ch c.val) with stage := .fetch };
     let s : State := s.setBit Reg.REEL_CTRL 0 true; let s : State := s.setReg (Reg.REELc_CUR c.val) 0x10000040; (let x : ReelCh := s.ch c.val;
     decide (s.reel.chans.length = 32 ∧ s.frozen = false ∧ x.stage = .fetch ∧ x.beats = 0 ∧ x.outs = [] ∧ x.desc = [] ∧ x.stop = none ∧
         s.bit Reg.REEL_CTRL 0 = true) && (let own : Nat := (s.reg (Reg.REELc_CUR c.val)).toNat; decide (inSram own = true ∧ own % 32 = 0) &&
         (let bs : List Byte := s.bytes own 32; decide ((∀ i ∈ List.range 2, s.mark (own + 16 * i) = .none ∧
         s.regionAllows (reelPort c.val) (own + 16 * i) false = true ∧ s.bankBusy (bankOf (own + 16 * i)) = false) ∧ (descOf bs).2 = false ∧
         (descOf bs).1.ok = true ∧ (descOf bs).1.misaligned (s.bit (Reg.REELc_CFG c.val) 0) own = none))))),
    (let c : Fin 32 := 24; let s : State := quiet 0; let s : State := setCh s c.val { (s.ch c.val) with stage := .fetch };
     let s : State := s.setBit Reg.REEL_CTRL 0 true; let s : State := s.setReg (Reg.REELc_CUR c.val) 0x10000040;
     let s : State := s.setBytes 0x10000040 (words [0, 0x10000100, 0x10000200, 16, 0x10000, 0, 0, 0]); (let x : ReelCh := s.ch c.val;
     decide (s.reel.chans.length = 32 ∧ s.frozen = false ∧ x.stage = .fetch ∧ x.beats = 0 ∧ x.outs = [] ∧ x.desc = [] ∧ x.stop = none ∧
         s.bit Reg.REEL_CTRL 0 = true) && (let own : Nat := (s.reg (Reg.REELc_CUR c.val)).toNat; decide (inSram own = true ∧ own % 32 = 0) &&
         (let bs : List Byte := s.bytes own 32; decide ((∀ i ∈ List.range 2, s.mark (own + 16 * i) = .none ∧
         s.regionAllows (reelPort c.val) (own + 16 * i) false = true ∧ s.bankBusy (bankOf (own + 16 * i)) = false) ∧
         ((descOf bs).2 = true ∨ (descOf bs).1.ok = false)))))),
    (let s : State := quiet 0; decide (s.reel.chans.length = 32 ∧ s.frozen = false ∧ s.bit Reg.REEL_CTRL 0 = false)),
    (let c : Fin 32 := 3; let p : Fin 2 := 0; let s : State := quiet 0; let s : State := s.setBit Reg.REEL_CTRL 0 true;
     let s : State := setCh s c.val { (s.ch c.val) with stage := .move };
     let s : State := setCh s c.val { s.ch c.val with desc := words [0, 0x10000100, 0x10000200, 16, 1, 0, 0, 0], buf := fill 16 };
     (let x : ReelCh := s.ch c.val; decide (s.reel.chans.length = 32 ∧ s.frozen = false ∧ s.bit Reg.REEL_CTRL 0 = true ∧
         s.reelPick p.val = some c.val ∧ x.stage = .move) && (match x.nextWrite x.d with
       | some (a, _) => (decide (inSram a = true ∧ s.mark (a / 16 * 16) = .none ∧ s.bankBusy (bankOf a) = false ∧
           s.regionAllows (reelPort c.val) (a / 16 * 16) true = true ∧ s.stagingLocked (reelPort c.val) (a / 16 * 16) = false))
       | _ => false))),
    (let c : Fin 32 := 24; let o : ReelOut := oneOut; let rest : List ReelOut := []; let s : State := quiet 0;
     let s : State := setCh s c.val { (s.ch c.val) with outs := o :: rest }; let s : State := setCh s c.val { (s.ch c.val) with stage := .move };
     (let x : ReelCh := s.ch c.val; decide (s.reel.chans.length = 32 ∧ s.frozen = false ∧ x.outs = o :: rest ∧ o.todo = [] ∧ x.stop = none ∧ x.stage = .move ∧
         o.code = 0))),
    (let c : Fin 32 := 24; let o : ReelOut := { oneOut with addr := 0x10000100, code := 2 }; let rest : List ReelOut := []; let s : State := quiet 0;
     let s : State := setCh s c.val { (s.ch c.val) with outs := o :: ([]) }; let s : State := setCh s c.val { (s.ch c.val) with stage := .move };
     (let x : ReelCh := s.ch c.val; decide (s.reel.chans.length = 32 ∧ s.frozen = false ∧ x.outs = o :: rest ∧ o.todo = [] ∧ x.stop = none ∧ x.stage = .move ∧
         o.code ≠ 0))),
    (let c : Fin 32 := 24; let s : State := quiet 0;
     let s : State := setCh s c.val { s.ch c.val with stage := .move, wr := 16, outs := [], desc := words [0, 0x10000100, 0x10000200, 16, 1, 0, 0, 0] };
     (let x : ReelCh := s.ch c.val; decide (s.reel.chans.length = 32 ∧ s.frozen = false ∧ x.done = true ∧ x.d.link = 0))),
    (let c : Fin 32 := 24; let s : State := quiet 0; let s : State := s.setF (Reg.REELc_BUDGET c.val) 15 0 0;
     let s : State := setCh s c.val { s.ch c.val with stage := .move, wr := 16, outs := [], desc := words [0, 0x10000100, 0x10000200, 16, 1, 0, 0, 0x10000040] };
     (let x : ReelCh := s.ch c.val; decide (s.reel.chans.length = 32 ∧ s.frozen = false ∧ x.done = true ∧ x.d.link ≠ 0 ∧
         s.f (Reg.REELc_BUDGET c.val) 15 0 = 0))),
    (let c : Fin 32 := 3; let s : State := quiet 0; let x : ReelCh := s.ch c.val; decide (x.stage = .idle ∧ s.bit Reg.REEL_CTRL 0 = false ∧
         x.done = false ∧ x.outs = [] ∧ s.frozen = false ∧ s.targetOff Reg.REEL_ABORT = false)),
    (let c : Fin 32 := 0; let s : State := panelS 0 true; decide ((s.ch c.val).stage = .idle ∧ s.f Reg.PNL_DIRCH 4 0 = c.val ∧ s.directOn = true)),
    (let c : Fin 32 := 3; let s : State := (quiet 0).setBit Reg.REEL_CTRL 0 true; let s : State := s.setF (Reg.REELc_BUDGET c.val) 15 0 2;
     let s : State := setCh s c.val { s.ch c.val with fetched := 2 }; let x : ReelCh := s.ch c.val; decide (x.stage = .idle ∧
         s.bit Reg.REEL_CTRL 0 = true ∧ s.f Reg.PNL_DIRCH 4 0 ≠ c.val ∧ s.f (Reg.REELc_BUDGET c.val) 15 0 ≠ 0 ∧
         s.f (Reg.REELc_BUDGET c.val) 15 0 ≤ x.fetched)),
    (let s : State := { quiet 0 with pwr.state := 5 }; decide (s.targetOff Reg.REEL_GO = true ∧ s.targetOff Reg.REEL_ABORT = true)),
    (let c : Fin 32 := 24; let s : State := quiet 0;
     let s : State := setCh s c.val { s.ch c.val with stage := .move, wr := 16, desc := words [0, 0x10000100, 0x10000200, 16, 1, 0, 0, 0] };
     let x : ReelCh := s.ch c.val; decide ((x.stage = .fetch ∨ x.stage = .move) ∧ x.done = true ∧ x.stage ≠ .idle)),
    (let c : Fin 32 := 24; let s : State := quiet 0; let s : State := setCh s c.val { s.ch c.val with stage := .drain }; decide ((s.ch c.val).stage = .drain)),
    (let c : Fin 32 := 24; let s : State := quiet 0; let s : State := setCh s c.val { s.ch c.val with stage := .fetch }; let x : ReelCh := s.ch c.val;
     decide (s.frozen = false ∧ x.stage = .fetch ∧ x.beats < 2 ∧ s.bit Reg.REEL_CTRL 0 = false)),
    [0x10000044, 0x20000000].all (fun own => let c : Fin 32 := 24; let s : State := ((quiet 0).setBit Reg.REEL_CTRL 0 true).setReg (Reg.REELc_CUR c.val) (wd own);
     let s : State := setCh s c.val { s.ch c.val with stage := .fetch }; let x : ReelCh := s.ch c.val; decide (s.frozen = false ∧ x.stage = .fetch ∧
         x.beats = 0 ∧ x.outs = [] ∧ x.desc = [] ∧ x.stop = none ∧ s.bit Reg.REEL_CTRL 0 = true ∧ own = (s.reg (Reg.REELc_CUR c.val)).toNat ∧
         (own % 16 ≠ 0 ∨ (inSram own = false ∧ inSram (own + 16) = false)))),
    (let c : Fin 32 := 24; let own : Nat := 0x10000040; let s : State := ((quiet 0).setBit Reg.REEL_CTRL 0 true).setReg (Reg.REELc_CUR c.val) (wd own);
     let s : State := setCh s c.val { s.ch c.val with stage := .fetch };
     let s : State := s.setBytes own (words [0, 0x20000002, 0x10000200, 16, 0, 0, 0, 0]); let bs : List Byte := s.bytes own 32;
     decide ((descOf bs).2 = false ∧ (descOf bs).1.ok = true ∧ (descOf bs).1.misaligned (s.bit (Reg.REELc_CFG c.val) 0) own = some 0x20000002 ∧
         (∀ i ∈ List.range 2, s.mark (own + 16 * i) = .none ∧ s.regionAllows (reelPort c.val) (own + 16 * i) false = true ∧
         s.bankBusy (bankOf (own + 16 * i)) = false))),
    (let s : State := (quiet 0).setBit Reg.REEL_CTRL 0 true; decide (s.frozen = false ∧ s.reelPick 1 = none)),
    (let c : Fin 32 := 3; let s : State := (quiet 0).setBit Reg.REEL_CTRL 0 true; let s : State := setCh s c.val { s.ch c.val with stage := .fetch };
     decide (s.frozen = false ∧ s.bit Reg.REEL_CTRL 0 = true ∧ s.reelPick 0 = some c.val ∧ (s.ch c.val).stage = .fetch)),
    [true, false].all (fun wr => let c : Fin 32 := 3; let s : State := (quiet 0).setBit Reg.REEL_CTRL 0 true;
     let s : State := setCh s c.val { s.ch c.val with stage := .move, desc := words [0, 0x10000100, 0x20000200, 16, 1, 0, 0, 0], buf := if wr then fill 16 else [] };
     let x : ReelCh := s.ch c.val; decide (s.reel.chans.length = 32 ∧ s.reelPick 0 = some c.val ∧ x.stage = .move) && (match x.nextWrite x.d with
       | some (a, _) => wr && decide (inSram a = false)
       | none => !wr && (match x.nextRead x.d with
         | some (a, n) => decide (inSram a = true ∧ s.mark (a / 16 * 16) = .none ∧ s.bankBusy (bankOf a) = false ∧
             s.regionAllows (reelPort c.val) (a / 16 * 16) false = true ∧ a % 16 + n ≤ 16)
         | none => false))),
    [[], [oneOut]].all (fun rest => let c : Fin 32 := 24; let s : State := quiet 0;
     let s : State := setCh s c.val { s.ch c.val with stage := .drain, outs := oneOut :: rest, stop := some (2, 0, 0) }; let x : ReelCh := s.ch c.val;
     decide (s.frozen = false ∧ x.outs = oneOut :: rest ∧ oneOut.todo = [] ∧ x.stop = some (2, 0, 0) ∧ x.stage = .drain)),
    (let c : Fin 32 := 24; let s : State := (quiet 0).setF (Reg.REELc_BUDGET c.val) 15 0 1;
     let s : State := setCh s c.val { s.ch c.val with fetched := 1, stage := .move, wr := 16, desc := words [0, 0x10000100, 0x10000200, 16, 1, 0, 0, 0x10000040] };
     let x : ReelCh := s.ch c.val; decide (s.frozen = false ∧ x.done = true ∧ x.d.link ≠ 0 ∧ s.f (Reg.REELc_BUDGET c.val) 15 0 ≠ 0 ∧
         s.f (Reg.REELc_BUDGET c.val) 15 0 ≤ x.fetched ∧ bitAt x.d.w0 7 = false))].all id = true := by decide +kernel

/-- The premises of the clauses of `BlockEngine` are met. -/
theorem wit_BlockEngine : [
    (let m : Acc := host; let v : Word := 0xdeadbeef; let s : State := quiet 0; decide (m.debug = false ∧ bitAt v 0 = true ∧ s.blk.queue.length < 8)),
    (let m : Acc := host; let v : Word := 0xdeadbeef; let s : State := quiet 0;
     let s : State := { s with blk := { s.blk with queue := List.replicate 8 oneBlk } }; decide (m.debug = false ∧ bitAt v 0 = true ∧
         8 ≤ s.blk.queue.length)),
    (let m : Acc := ⟨11, false, false, false⟩; let v : Word := 5; let trig : Bool := false;
     let j : BlkJob := { ctrl := 255, src := 0x10000007, dst := 0x10000107, sstride := 16, dstride := 16, w := 2, h := 2, fill := 0xaa55aa55, key := 0, keymask := 0, wm := 0 };
     let rest : List BlkJob := []; let s : State := quiet 0; let s : State := { s with blk.queue := j :: rest }; decide (m.debug = false ∧
         (bitAt v 0 = true ∨ trig = true) ∧ s.blk.queue = j :: rest ∧ bitAt j.ctrl 7 = true ∧ s.blk.freed = false)),
    (let m : Acc := host; let v : Word := 0xdeadbeef; let trig : Bool := true; let s : State := quiet 0; decide (m.debug = false ∧
         (bitAt v 0 = true ∨ trig = true) ∧ s.blk.queue = [])),
    (let j : BlkJob := { ctrl := 0x00000101, src := 0x10000000, dst := 0x10000100, sstride := 16, dstride := 16, w := 2, h := 3, fill := 0xaa55aa55, key := 0, keymask := 0, wm := 0 };
     let rest : List BlkJob := []; let s : State := quiet 5; let s : State := { s with blk.queue := j :: rest };
     let s : State := s.setBit Reg.BLK_CTRL 0 true; decide (s.frozen = false ∧ s.blk.queue = j :: rest ∧ s.bit Reg.BLK_CTRL 0 = true ∧
         s.blk.run = none ∧ s.blk.waits = false ∧ (bitAt j.ctrl 7 = false ∨ s.blk.freed = true) ∧ j.kind = 0 ∧ j.w ≠ 0 ∧ j.h ≠ 0)),
    (let j : BlkJob := { ctrl := 7, src := 0x10000000, dst := 0x10000100, sstride := 16, dstride := 16, w := 1, h := 1, fill := 0xaa55aa55, key := 0, keymask := 0, wm := 0 };
     let rest : List BlkJob := []; let s : State := quiet 0; let s : State := { s with blk.queue := j :: rest };
     let s : State := s.setBit Reg.BLK_CTRL 0 true; decide (s.frozen = false ∧ s.blk.queue = j :: rest ∧ s.bit Reg.BLK_CTRL 0 = true ∧
         s.blk.run = none ∧ s.blk.waits = false ∧ (bitAt j.ctrl 7 = false ∨ s.blk.freed = true) ∧ j.kind ≠ 0)),
    (let j : BlkJob := { ctrl := 1, src := 0x10000000, dst := 0x10000104, sstride := 16, dstride := 16, w := 1, h := 2, fill := 0xaa55aa55, key := 0, keymask := 0, wm := 0 };
     let s : State := quiet 0; let s : State := { s with blk.run := some j }; let s : State := { s with blk.ready := true };
     decide (s.frozen = false ∧ s.blk.run = some j ∧ s.blk.ready = true ∧ s.blk.err = none ∧ s.blk.row < j.h ∧ s.blk.px = 0 ∧ j.w = 1 ∧ j.op = 1) &&
         (let y : Nat := (if bitAt j.ctrl 6 then j.h - 1 - s.blk.row else s.blk.row); (let a : Nat := j.dst + y * j.dstride; decide (inSram a = true ∧
         a % 16 + j.p ≤ 16 ∧ s.blk.clip.1 ≤ a ∧ a + j.p ≤ s.blk.clip.2 + 1 ∧ s.mark (a / 16 * 16) = .none ∧ s.bankBusy (bankOf a) = false ∧
         s.regionAllows 9 (a / 16 * 16) true = true ∧ s.stagingLocked 9 (a / 16 * 16) = false)))),
    (let j : BlkJob := { ctrl := 0xdeadbeef, src := 0x10000000, dst := 0x10000100, sstride := 16, dstride := 16, w := 1, h := 3, fill := 0xaa55aa55, key := 0, keymask := 0, wm := 0 };
     let s : State := quiet 0; let s : State := { s with blk.run := some j };
     let s : State := ({ s with blk := { s.blk with row := 1 } } : State).setF Reg.BLK_ROWS 15 0 0; decide (s.frozen = false ∧ s.blk.run = some j ∧
         s.f Reg.BLK_ROWS 15 0 < s.blk.row ∧ s.f Reg.BLK_ROWS 15 0 + 1 ≠ j.h)),
    (let j : BlkJob := { ctrl := 1, src := 0x10000000, dst := 0x10000100, sstride := 16, dstride := 16, w := 1, h := 1, fill := 0xaa55aa55, key := 0, keymask := 0, wm := 0 };
     let s : State := quiet 0; let s : State := { s with blk.run := some j };
     let s : State := ({ s with blk := { s.blk with row := j.h } } : State).setF Reg.BLK_ROWS 15 0 (j.h - 1); decide (s.frozen = false ∧
         s.blk.run = some j ∧ s.f Reg.BLK_ROWS 15 0 < s.blk.row ∧ s.f Reg.BLK_ROWS 15 0 + 1 = j.h ∧ bitAt j.ctrl 9 = false)),
    (let j : BlkJob := { ctrl := 0xdeadbeef, src := 0x10000000, dst := 0x10000100, sstride := 16, dstride := 16, w := 1, h := 1, fill := 0xaa55aa55, key := 0, keymask := 0, wm := 0 };
     let k : Nat := 8; let a : Nat := 17; let s : State := quiet 0; let s : State := { s with blk.run := some j };
     let s : State := { s with blk.err := some (k, a) }; decide (s.frozen = false ∧ s.blk.run = some j ∧ s.blk.err = some (k, a))),
    (let m : Acc := host; let v : Word := 0xdeadbeef; decide (m.debug = false ∧ (bitAt v 2 = true ∨ bitAt v 3 = true))),
    (let s : State := quiet 0; let v : Word := 0xFFFFFFF2; decide (s.targetOff Reg.BLK_PUSH = false ∧ s.targetOff Reg.BLK_GO = false ∧
         s.targetOff Reg.BLK_STAT = false ∧ bitAt v 0 = false ∧ bitAt v 2 = false ∧ bitAt v 3 = false ∧ s.frozen = false ∧ s.blk.queue = [] ∧
         s.blk.run = none ∧ s.blk.row ≤ s.f Reg.BLK_ROWS 15 0)),
    (let s : State := { quiet 0 with pwr.state := 5 }; decide (s.targetOff Reg.BLK_STAT = true)),
    (let s : State := { quiet 0 with blk.queue := [oneBlk] }; decide (s.blk.queue = [oneBlk] ∧ bitAt oneBlk.ctrl 7 = false)),
    (let j : BlkJob := { oneBlk with ctrl := 128 }; let s : State := { quiet 0 with blk.queue := [j] }; decide (s.blk.queue = [j] ∧ bitAt j.ctrl 7 = true ∧
         s.blk.freed = false)),
    (let j : BlkJob := { oneBlk with w := 0 }; let s : State := ({ quiet 0 with blk.queue := [j] } : State).setBit Reg.BLK_CTRL 0 true; decide (s.frozen = false ∧
         s.blk.queue = [j] ∧ s.bit Reg.BLK_CTRL 0 = true ∧ s.blk.run = none ∧ s.blk.waits = false ∧ bitAt j.ctrl 7 = false ∧ j.kind = 0 ∧ j.w = 0 ∧
         bitAt j.ctrl 9 = false)),
    [(0, 0), (2, 0), (0, 3)].all (fun (row, px) => let j : BlkJob := { oneBlk with w := 20, h := 2 };
     let s : State := quiet 0; let s : State := { s with blk := { s.blk with run := some j, ready := true, row := row, px := px } }; decide (s.frozen = false ∧
         s.blk.run = some j ∧ s.blk.ready = true ∧ s.blk.err = none ∧ (s.blk.row < j.h ↔ row = 0)))].all id = true := by decide +kernel

/-- The premises of the clauses of `InterruptSources` are met. -/
theorem wit_InterruptSources : [
    (let m : Acc := host; let v : Word := 0xdeadbeef; let n : Nat := 239; let s : State := quiet 0;
     let s : State := s.setBit (Reg.IRQ_SRCs (fld v 7 0)) 6 true; decide (m.debug = false ∧ s.pwr.state = 0 ∧ s.coalOf n = none ∧
         s.bit (Reg.IRQ_SRCs n) 6 = true)),
    (let m : Acc := host; let n : Nat := 239; let s : State := quiet 0; decide (m.debug = false ∧ s.pwr.state = 0 ∧
         s.coalOf n = none ∧ s.bit (Reg.IRQ_SRCs n) 6 = false ∧ s.f (Reg.IRQ_SRCs n) 15 8 < 255)),
    (let m : Acc := host; let v : Word := 0xdeadbeef; let n : Nat := 239; let s : State := quiet 0;
     let s : State := s.setF (Reg.IRQ_SRCs (fld v 7 0)) 15 8 255; decide (m.debug = false ∧ s.pwr.state = 0 ∧ s.coalOf n = none ∧
         s.bit (Reg.IRQ_SRCs n) 6 = false ∧ s.f (Reg.IRQ_SRCs n) 15 8 = 255)),
    (let m : Acc := host; let k : Fin 16 := 0; let s : State := quiet 0; let s : State := s.setF (Reg.IRQ_COALk_TIME k.val) 15 0 1;
     let s : State := s.setF (Reg.IRQ_COALk_HELD k.val) 7 0 1; let s : State := s.setReg (Reg.IRQ_COALk_CFG k.val) (wd (2^16 + 100 + k.val));
     decide (m.debug = false ∧ s.coalOf (s.f (Reg.IRQ_COALk_CFG k.val) 7 0) = some k.val ∧ s.f (Reg.IRQ_COALk_TIME k.val) 15 0 ≠ 0 ∧
         s.f (Reg.IRQ_COALk_HELD k.val) 7 0 ≠ 0)),
    (let m : Acc := host; let s : State := quiet 0; decide (m.debug = false ∧ s.holders = [] ∧ s.targetOff (Reg.IRQ_COALk_CFG 3) = false ∧ s.targetOff (Reg.IRQ_SRCs 200) = false ∧
         s.targetOff Reg.IRQ_RAISE = false ∧ s.targetOff Reg.IRQ_CLR = false ∧ s.pwr.state = 0 ∧ s.f (Reg.IRQ_COALk_TIME 3) 15 0 = 0)),
    (let m : Acc := host; let k : Fin 32 := 16; let s : State := quiet 0; let s : State := { s with pwr.state := 1 };
     let s : State := s.setBit (Reg.IRQ_WAKEk k.val) 8 true; decide (m.debug = false ∧ s.pwr.state ≠ 0 ∧ s.bit (Reg.IRQ_WAKEk k.val) 8 = true)),
    (let s : State := { quiet 0 with pwr.state := 5 }; decide (∀ a ∈ [Reg.IRQ_RAISE, Reg.IRQ_CLR, Reg.IRQ_SRCs 7, Reg.IRQ_COALk_CFG 15], s.targetOff a = true)),
    (let k : Fin 16 := 2; let v : Word := 102; let s : State := ((quiet 0).setF (Reg.IRQ_COALk_HELD k.val) 7 0 1).setReg (Reg.IRQ_COALk_CFG k.val) (wd (2^16 + 102));
     decide (s.targetOff (Reg.IRQ_COALk_CFG k.val) = false ∧ s.coalOf (s.f (Reg.IRQ_COALk_CFG k.val) 7 0) = some k.val ∧
         s.holders = [(k.val, s.f (Reg.IRQ_COALk_CFG k.val) 7 0)] ∧ bitAt v 16 = false))].all id = true := by decide +kernel

/-- The premises of the clauses of `TimersAndWatchdogs` are met. -/
theorem wit_TimersAndWatchdogs : [
    (let m : Acc := host; let n : Fin 16 := 0; let s : State := quiet 0; let s : State := s.setBit (Reg.TMRn_CTRL n.val) 2 true;
     decide (m.debug = false ∧ (12 ≤ n.val ∨ s.frozen = false) ∧ s.f (Reg.TMRn_CTRL n.val) 1 0 ≤ 1 ∧ s.timerRuns n.val = true ∧
         s.bit (Reg.TMRn_CTRL n.val) 2 = true ∧ s.reg (Reg.TMRn_CNT n.val) ≠ 0xFFFFFFFF ∧
         s.reg (Reg.TMRn_CMP n.val) ≠ s.reg (Reg.TMRn_CNT n.val) + 1)),
    (let m : Acc := host; let n : Fin 16 := 0; let s : State := quiet 0; let s : State := s.setBit (Reg.TMRn_CTRL n.val) 2 true;
     let s : State := s.setReg (Reg.TMRn_CNT n.val) 0xFFFFFFFF; decide (m.debug = false ∧ (12 ≤ n.val ∨ s.frozen = false) ∧
         s.f (Reg.TMRn_CTRL n.val) 1 0 ≤ 1 ∧ s.timerRuns n.val = true ∧ s.bit (Reg.TMRn_CTRL n.val) 2 = true ∧
         s.reg (Reg.TMRn_CNT n.val) = 0xFFFFFFFF)),
    (let m : Acc := host; let n : Fin 16 := 0; let s : State := quiet 0; let s : State := s.setF (Reg.TMRn_CTRL n.val) 21 20 2;
     let s : State := { s with irq := { s.irq with masterDue := [n.val] } }; decide (m.debug = false ∧ (12 ≤ n.val ∨ s.frozen = false) ∧
         n.val ∈ s.irq.masterDue ∧ s.f (Reg.TMRn_CTRL n.val) 21 20 = 2)),
    (let m : Acc := host; let n : Fin 16 := 0; let s : State := quiet 0; let s : State := s.setF (Reg.TMRn_IEN n.val) 15 8 8;
     decide (m.debug = false) && (let k : Nat := s.f (Reg.TMRn_IEN n.val) 15 8; decide ((12 ≤ n.val ∨ s.frozen = false) ∧ k ≠ 0 ∧ k ≠ 6 ∧ k ≠ 7 ∧
         k ≤ 15))),
    (let m : Acc := host; let w : Fin 3 := 0; let v : Word := 0x80000001; let s : State := quiet 0; decide (m.debug = false ∧
         (w.val < 2 ∨ m.alle = true) ∧ bitAt v 0 = true ∧ s.bit (wdgCtrl w.val) 0 = false ∧ s.reg (wdgReg w.val 4) ≠ 0)),
    (let m : Acc := host; let w : Fin 3 := 0; let s : State := quiet 0; decide (m.debug = false ∧ (w.val < 2 ∨ m.alle = true) ∧
         s.keyOpen w.val = false)),
    (let m : Acc := host; let w : Fin 3 := 0; let v : Word := 0x80000000; let s : State := quiet 0;
     let s : State := { s with irq := { s.irq with key0 := true, key1 := true, keyM := true } }; decide (m.debug = false ∧
         (w.val < 2 ∨ m.alle = true) ∧ s.keyOpen w.val = true ∧ v ≠ 0x3CA5)),
    (let m : Acc := ⟨10, false, false, false⟩; let w : Fin 3 := 2; decide (m.debug = false ∧ w.val = 2 ∧ m.alle = false)),
    (let w : Fin 3 := 0; let s : State := quiet 0; let s : State := s.setBit (wdgCtrl w.val) 0 true; let s : State := s.setReg (wdgReg w.val 8) 1;
     decide (s.bit (wdgCtrl w.val) 0 = true ∧ s.reg (wdgReg w.val 8) ≠ 0 ∧ s.bit (wdgCtrl w.val) 2 = false)),
    (let w : Fin 3 := 0; let s : State := quiet 0; let s : State := (s.setBit (wdgCtrl w.val) 0 true).setReg (wdgCnt w.val) 1; decide (s.bit (wdgCtrl w.val) 0 = true ∧
         s.bit (wdgCtrl w.val) 2 = false ∧ s.reg (wdgCnt w.val) ≠ 0 ∧ w.val < 2)),
    (let w : Fin 3 := 2; let s : State := quiet 0; let s : State := (s.setBit (wdgCtrl w.val) 0 true).setReg (wdgCnt w.val) 1; decide (s.bit (wdgCtrl w.val) 0 = true ∧
         s.bit (wdgCtrl w.val) 2 = false ∧ s.reg (wdgCnt w.val) ≠ 0 ∧ w.val = 2)),
    (let n : Fin 16 := 15; let s : State := quiet 0; decide (s.timerRuns n.val = false ∧ n.val ∉ s.irq.masterDue ∧ s.f (Reg.TMRn_CTRL n.val) 1 0 ≤ 1 ∧
         s.targetOff (Reg.TMRn_CNT n.val) = false ∧ s.f (Reg.TMRn_IEN n.val) 15 8 = 0 ∧ s.frozen = false)),
    (let n : Fin 16 := 11; let s : State := quiet 0; let s : State := s.setCore 1 { s.core 1 with run := .halt }; decide (n.val < 12 ∧ s.frozen = true)),
    (let n : Fin 16 := 5; let s : State := (quiet 0).setF (Reg.TMRn_CTRL n.val) 1 0 2; decide (s.frozen = false ∧ 2 ≤ s.f (Reg.TMRn_CTRL n.val) 1 0)),
    (let n : Fin 16 := 5; let s : State := { quiet 0 with pwr.state := 5 }; decide (s.targetOff (Reg.TMRn_CNT n.val) = true ∧ s.targetOff (wdgReg 1 0) = true)),
    [3, 0].all (fun csel => let n : Fin 16 := 5; let s : State := (((quiet 0).setF (Reg.TMRn_CTRL n.val) 1 0 csel).setF (Reg.TMRn_CTRL n.val) 25 22 3).setBit (Reg.TMRn_CTRL n.val) 2 true;
     let s : State := { s with irq.masterDue := [n.val] }; decide (s.frozen = false ∧ n.val ∈ s.irq.masterDue ∧ s.f (Reg.TMRn_CTRL n.val) 21 20 ≠ 2 ∧
         (s.f (Reg.TMRn_CTRL n.val) 1 0 = 3 ↔ csel = 3) ∧ s.timerRuns n.val = true ∧ s.bit (Reg.TMRn_CTRL n.val) 2 = true ∧
         s.reg (Reg.TMRn_CNT n.val) ≠ 0xFFFFFFFF ∧ s.reg (Reg.TMRn_CMP n.val) ≠ s.reg (Reg.TMRn_CNT n.val) + 1)),
    (let w : Fin 3 := 1; let s : State := quiet 0; decide (s.targetOff (wdgReg w.val 0) = false ∧ s.keyOpen w.val = false ∧
         s.bit (wdgCtrl w.val) 0 = false ∧ s.reg (wdgCnt w.val) = 0)),
    (let w : Fin 3 := 1; let s : State := (quiet 0).setBit (wdgCtrl w.val) 0 true; decide (s.targetOff (wdgReg w.val 0) = false ∧ s.bit (wdgCtrl w.val) 0 = true))].all id = true := by decide +kernel

/-- The premises of the clauses of `ClockLosses` are met. -/
theorem wit_ClockLosses : [
    (let s : State := quiet 0; let s : State := s.setBit Reg.CLK_PLLSTAT 1 true; decide (s.bit Reg.CLK_PLLSTAT 2 = false ∧
         s.bit Reg.CLK_PLLCTL 0 = true ∧ s.bit Reg.CLK_PLLSTAT 1 = true)),
    (let s : State := quiet 0; decide (s.bit Reg.CLK_PLLSTAT 2 = false ∧ (s.bit Reg.CLK_PLLCTL 0 = false ∨ s.bit Reg.CLK_PLLSTAT 1 = false))),
    (let m : Acc := ⟨14, false, false, false⟩; let relocked : Bool := true; let s : State := quiet 0;
     let s : State := s.setBit Reg.CLK_PLLSTAT 2 true; decide (m.debug = false ∧ m.alle = true ∧ (s.bit Reg.CLK_PLLSTAT 0 = true ∨ relocked = true) ∧
         s.bit Reg.CLK_PLLSTAT 2 = true)),
    (let m : Acc := ⟨10, false, false, false⟩; decide (m.debug = false ∧ m.alle = false)),
    (let s : State := (quiet 0).setBit Reg.CLK_PLLSTAT 2 true; decide (s.bit Reg.CLK_PLLSTAT 2 = true)),
    (let m : Acc := ⟨14, false, false, false⟩; let s : State := quiet 0; decide (m.debug = false ∧ m.alle = true ∧ s.bit Reg.CLK_PLLSTAT 2 = false))].all id = true := by decide +kernel

/-- The premises of the clauses of `SleepStates` are met. -/
theorem wit_SleepStates : [
    (let k : Nat := 5; let t : Nat := 0x174876e800; let s : State := quiet 0; let s : State := s.setReg Reg.CLK_PMGR 0x1D; decide (1 ≤ k ∧ k ≤ 5 ∧
         s.pwr.state = 0 ∧ s.maySleep = true ∧ k ≤ s.sleepLimit.1 ∧ s.sleepCost k + s.f Reg.CLK_PMGR 27 16 * 100 ≤ s.knownTime t ∧
         (∀ j ∈ List.range 6, k < j → s.sleepLimit.1 < j ∨ s.knownTime t < s.sleepCost j + s.f Reg.CLK_PMGR 27 16 * 100))),
    (let t : Nat := 0; let s : State := quiet 0; decide (s.pwr.state ≠ 0 ∨ s.maySleep = false ∨ s.knownTime t < 120 + s.f Reg.CLK_PMGR 27 16 * 100)),
    (let s : State := quiet 0; let s : State := { s with pwr.state := 1 }; decide (s.pwr.state ≠ 0)),
    (let k : Nat := 3; let s : State := quiet 0; let s : State := { s with pwr.state := k }; let s : State := { s with pwr.waking := true };
     decide (1 ≤ k ∧ k ≤ 4 ∧ s.pwr.state = k ∧ s.pwr.waking = true ∧ (k < 4 ∨ s.running = false))),
    (let k : Nat := 4; let s : State := quiet 0; let s : State := { s with pwr := { s.pwr with state := k, waking := true } };
     let s : State := s.setBit Reg.BEAM_CTRL 0 true; decide (1 ≤ k ∧ k ≤ 4 ∧ s.pwr.state = k ∧ s.pwr.waking = true ∧ k = 4 ∧ s.running = true)),
    (let s : State := quiet 0; decide (s.pwr.waking = false ∧ s.pwr.state = 0)),
    (let s : State := quiet 0; let s : State := { s with pwr.state := 5 }; let s : State := { s with pwr.waking := true }; decide (s.pwr.state = 5 ∧
         s.pwr.waking = true)),
    (let s : State := quiet 0; let s : State := s.setBit (Reg.IRQ_SRCs 192) 6 true; decide (s.pwr.state = 0 ∧ s.coalOf 192 = none ∧
         s.bit (Reg.IRQ_SRCs 192) 6 = true)),
    (let m : Acc := host; decide (m.debug = false))].all id = true := by decide +kernel

/-- The premises of the clauses of `ResetSources` are met. -/
theorem wit_ResetSources : [
    (let m : Acc := ⟨14, false, false, false⟩; let v : Word := 0xdeadbeef; decide (m.debug = false ∧ m.alle = true ∧ v ≠ 0x5EE7)),
    (let m : Acc := ⟨10, false, false, false⟩; decide (m.debug = false ∧ m.alle = false)),
    (let s : State := quiet 0; decide ((s.core 2).run = .held)),
    (let m : Acc := ⟨14, false, false, false⟩; let v : Word := 0; let c : Nat := 1; let s : State := quiet 0; decide (c < 2 ∧ m.debug = false ∧
         m.alle = true ∧ bitAt v c = false ∧ (s.core c).run = .held ∧ s.bit (wdgCtrl c) 0 = false)),
    (let m : Acc := ⟨14, false, false, false⟩; let v : Word := 2; let c : Nat := 1; decide (c < 2 ∧ m.debug = false ∧ m.alle = true ∧
         bitAt v c = true)),
    (let s : State := quiet 0; let s : State := coreAt 2 0 s; decide ((s.core 2).run ≠ .held)),
    (let m : Acc := ⟨14, false, false, false⟩; let v : Word := 0; let c : Nat := 0; let s : State := quiet 0;
     let s : State := s.setBit (wdgCtrl c) 0 true; decide (c < 2 ∧ m.debug = false ∧ m.alle = true ∧ bitAt v c = false ∧
         ((s.core c).run = .held ∨ (s.core c).run = .stopped) ∧ s.bit (wdgCtrl c) 0 = true)),
    (let m : Acc := ⟨14, false, false, false⟩; let v : Word := 0; let c : Nat := 0; let s : State := quiet 0;
     let s : State := coreAt 0 0 s; decide (c < 2 ∧ m.debug = false ∧ m.alle = true ∧ bitAt v c = false ∧
         (s.core c).run ≠ .held ∧ (s.core c).run ≠ .stopped))].all id = true := by decide +kernel

/-- The premises of the clauses of `ImageChecks` are met. -/
theorem wit_ImageChecks : [
    (let m : Acc := ⟨10, false, false, false⟩; decide (m.debug = false ∧ m.alle = false ∧ (quiet 0).targetOff Reg.IMG_CMD = false)),
    (let m : Acc := ⟨14, false, false, false⟩; let src : Fin 4 := 3; let s : State := quiet 0; decide (m.debug = false ∧ m.alle = true ∧ (quiet 0).targetOff Reg.IMG_CMD = false ∧
         (src.val = 3 ∨ s.engine ≠ 0))),
    (let m : Acc := ⟨14, false, false, false⟩; let src : Fin 4 := 1; let s : State := quiet 0; decide (m.debug = false ∧ m.alle = true ∧ (quiet 0).targetOff Reg.IMG_CMD = false ∧
         (src.val = 1 ∨ src.val = 2) ∧ s.engine = 0)),
    (let m : Acc := ⟨14, false, false, false⟩; let src : Fin 4 := 0; let s : State := quiet 0; let s : State := s.setBit Reg.IMG_STAT 7 true;
     decide (m.debug = false ∧ m.alle = true ∧ (quiet 0).targetOff Reg.IMG_CMD = false ∧ src.val = 0 ∧ s.engine = 0 ∧ s.bit Reg.IMG_STAT 7 = true)),
    (let m : Acc := ⟨14, false, false, false⟩; let src : Fin 4 := 0; let s : State := quiet 0; decide (m.debug = false ∧ m.alle = true ∧ (quiet 0).targetOff Reg.IMG_CMD = false ∧ src.val = 0 ∧
         s.engine = 0 ∧ s.bit Reg.IMG_STAT 7 = false)),
    (let m : Acc := ⟨14, false, false, false⟩; let src : Fin 4 := 3; decide (m.debug = false ∧ m.alle = true ∧ (quiet 0).targetOff Reg.IMG_CMD = false ∧ src.val = 3)),
    (let m : Acc := ⟨14, false, false, false⟩; let s : State := quiet 0; let s : State := s.setF Reg.IMG_STATE 2 0 1; decide (m.debug = false ∧
         m.alle = true ∧ (quiet 0).targetOff Reg.IMG_CMD = false ∧ s.engine ≠ 0)),
    (let m : Acc := ⟨14, false, false, false⟩; let src : Fin 4 := 0; let s : State := quiet 0; decide (m.debug = false ∧ m.alle = true ∧ (quiet 0).targetOff Reg.IMG_CMD = false ∧
         src.val ≠ 3) && (let i : Nat := s.f Reg.IMG_LDSECT 5 0; (let x : Section := s.sectionOf src.val i;
     decide (s.engine ≠ 0 ∨ s.nsect src.val ≤ i ∨ x.type = 1 ∨ x.type = 7 ∨ (x.type = 4 ∧ s.mntBusy = true))))),
    (let m : Acc := ⟨14, false, false, false⟩; let src : Fin 4 := 2; let s : State := quiet 5; decide (m.debug = false ∧ m.alle = true ∧ (quiet 0).targetOff Reg.IMG_CMD = false ∧
         src.val ≠ 3) && (let i : Nat := s.f Reg.IMG_LDSECT 5 0; (let x : Section := s.sectionOf src.val i; decide (s.engine = 0 ∧
         i < s.nsect src.val ∧ x.type ≠ 1 ∧ x.type ≠ 7 ∧ (x.type ≠ 4 ∨ s.mntBusy = false))))),
    (let s : State := quiet 0; decide (s.img.cmd = none)),
    (let n : Nat := 17; let s : State := quiet 0; let s : State := { s with img.cmd := some (2, n, 0) }; let s : State := goodRegs s;
     decide (s.img.cmd = some (2, n, 0) ∧ s.firstBroken = none)),
    (let n : Nat := 17; let s : State := quiet 0; let s : State := { s with img.cmd := some (2, n, 0) }; decide (s.img.cmd = some (2, n, 0)) &&
         (match s.firstBroken with
       | some _ => true
       | _ => false)),
    (let src : Nat := 65536; let n : Nat := 0x21000000; let code : Nat := 1; let sigOk : Bool := false; let bad : Option (Fin 64) := some 4;
     let s : State := quiet 5; let s : State := { s with img.cmd := some (1, src, n) }; decide (s.img.cmd = some (1, src, n) ∧
         (s.headerOk src = false ∧ code = 1 ∨ s.headerOk src = true ∧ s.signatureCode src sigOk ≠ 0 ∧
         code = s.signatureCode src sigOk ∨ s.headerOk src = true ∧ s.signatureCode src sigOk = 0 ∧ s.formatsOk src = false ∧
         code = 5 ∨ (∃ i : Fin 64, s.headerOk src = true ∧ s.signatureCode src sigOk = 0 ∧ s.formatsOk src = true ∧ bad = some i ∧
         code = 4 + 256 * i.val)))),
    (let src : Nat := 0; let n : Nat := 8; let s : State := quiet 0; let s : State := { s with img.cmd := some (1, src, n) };
     let s : State := goodRegs s; let s : State := staged (image 1 1 192 0 0 []) s; decide (s.img.cmd = some (1, src, n) ∧ s.headerOk src = true ∧
         s.signatureCode src true = 0 ∧ s.formatsOk src = true) && (match (s.sections src).findIdx? (fun y => decide (y.type = 1)) with
       | some i => ((let x : Section := s.sectionOf src i; (match State.writeRecords src x.offset (x.length / 8) s with
         | ((0, _), u) => (decide (u.firstBroken = none))
         | _ => false)))
       | _ => false)),
    (let src : Nat := 0; let n : Nat := 8; let s : State := quiet 0; let s : State := { s with img.cmd := some (1, src, n) };
     let s : State := staged (image 1 1 192 8 0 (words [0x40040001, 1, 0, 0])) s; decide (s.img.cmd = some (1, src, n) ∧ s.headerOk src = true ∧
         s.signatureCode src true = 0 ∧ s.formatsOk src = true) && (match (s.sections src).findIdx? (fun y => decide (y.type = 1)) with
       | some i => ((let x : Section := s.sectionOf src i; (match State.writeRecords src x.offset (x.length / 8) s with
         | ((c, _), _) => (decide (c = 6 ∨ c = 7)))))
       | _ => false)),
    (let src : Nat := 0; let i : Nat := 0; let s : State := quiet 0; let s : State := { s with img.cmd := some (5, src, i) };
     let s : State := staged (image 4 0 192 32 0x21000000 (fill 32)) s; decide (s.img.cmd = some (5, src, i) ∧ i < 64) &&
         (let x : Section := s.sectionOf src i; decide (x.type = 4))),
    (let src : Nat := 0; let i : Nat := 0; let off : Nat := 16; let s : State := quiet 5; let s : State := { s with img.cmd := some (5, src, i) };
     let s : State := staged (image 6 0 192 32 0x08000010 (fill 32)) s; decide (s.img.cmd = some (5, src, i) ∧ i < 64) &&
         (let x : Section := s.sectionOf src i; decide (x.type = 6 ∧ s.reg Reg.IMG_LDDST = 0 ∧ x.dest = 0x08000000 + off ∧ off + x.length ≤ 0x40000))),
    (let m : Acc := ⟨14, false, false, false⟩; let s : State := quiet 0; let s : State := { s with pwr.state := 5 };
     decide (m.debug = false ∧ s.targetOff Reg.IMG_CMD = true)),
    (let s : State := quiet 0; let s : State := { s with img.cmd := some (5, 0, 0) }; decide (s.img.cmd = some (5, 0, 0))),
    (let s : State := quiet 0; let s : State := { s with img.cmd := some (1, 0, 0) }; decide (s.img.cmd = some (1, 0, 0))),
    (let src : Nat := 0; let n : Nat := 8; let s : State := quiet 0; let s : State := { s with img.cmd := some (1, src, n) };
     let s : State := staged (image 1 1 192 0 0 []) s; decide (s.img.cmd = some (1, src, n) ∧ s.headerOk src = true ∧
         s.signatureCode src true = 0 ∧ s.formatsOk src = true) && (match (s.sections src).findIdx? (fun y => decide (y.type = 1)) with
       | some i => ((let x : Section := s.sectionOf src i; (match State.writeRecords src x.offset (x.length / 8) s with
         | ((0, _), u) => (u.firstBroken).isSome
         | _ => false)))
       | _ => false)),
    (let src : Nat := 0; let i : Nat := 0; let s : State := quiet 0; let s : State := { s with img.cmd := some (5, src, i) };
     let s : State := staged (image 6 0 192 32 0x08000010 (fill 32)) s; decide (s.img.cmd = some (5, src, i) ∧ i < 64) &&
         (let x : Section := s.sectionOf src i; decide (x.type ≠ 4)))].all id = true := by decide +kernel

/-- The premises of the clauses of `ImageUpdates` are met. -/
theorem wit_ImageUpdates : [
    (let m : Acc := ⟨14, false, false, false⟩; let brk : Bool := true; let s : State := quiet 0; decide (m.debug = false ∧ m.alle = true ∧ (quiet 0).targetOff Reg.IMG_CMD = false ∧
         s.engine ≠ 3 ∧ (s.bit Reg.IMG_STATE 4 = false ∨ s.engine ≠ 0 ∨ (s.f Reg.IMG_STATE 10 8 ≠ 0 ∧ brk = false)))),
    (let m : Acc := ⟨14, false, false, false⟩; let brk : Bool := true; let s : State := quiet 0; let s : State := s.setBit Reg.IMG_STATE 4 true;
     decide (m.debug = false ∧ m.alle = true ∧ (quiet 0).targetOff Reg.IMG_CMD = false ∧ s.engine ≠ 3 ∧ s.bit Reg.IMG_STATE 4 = true ∧ s.engine = 0 ∧
         (s.f Reg.IMG_STATE 10 8 = 0 ∨ brk = true))),
    (let m : Acc := ⟨14, false, false, false⟩; let s : State := quiet 0; let s : State := s.setF Reg.IMG_STATE 2 0 3; decide (m.debug = false ∧
         m.alle = true ∧ (quiet 0).targetOff Reg.IMG_CMD = false ∧ s.engine = 3)),
    (let s : State := quiet 0; let s : State := s.setF Reg.IMG_STATE 2 0 3; let s : State := s.setBit Reg.IMG_STATE 4 true;
     let s : State := s.setBit Reg.BEAM_CTRL 0 true; decide (s.frozen = false ∧ s.engine = 3 ∧ s.bit Reg.IMG_STATE 4 = true ∧ s.running = true ∧
         s.beam.pos ≠ ⟨s.subfm1, (posOf (s.reg Reg.BEAM_CMARK)).line, (posOf (s.reg Reg.BEAM_CMARK)).dot⟩)),
    (let s : State := quiet 0; let s : State := s.setF Reg.IMG_STATE 2 0 3; let s : State := s.setBit Reg.IMG_STATE 4 true;
     let s : State := s.setBit Reg.BEAM_CTRL 0 true;
     let s : State := { s with beam.pos := ⟨s.subfm1, (posOf (s.reg Reg.BEAM_CMARK)).line, (posOf (s.reg Reg.BEAM_CMARK)).dot⟩ };
     decide (s.frozen = false ∧ s.engine = 3 ∧ s.bit Reg.IMG_STATE 4 = true ∧ s.running = true ∧
         s.beam.pos = ⟨s.subfm1, (posOf (s.reg Reg.BEAM_CMARK)).line, (posOf (s.reg Reg.BEAM_CMARK)).dot⟩)),
    (let s : State := quiet 0; let s : State := s.setF Reg.IMG_STATE 2 0 3; let s : State := s.setBit Reg.IMG_STATE 4 true; decide (s.frozen = false ∧
         s.engine = 3 ∧ s.bit Reg.IMG_STATE 4 = true ∧ s.running = false)),
    (let hop : Hop := .ringB; let ok : Bool := true;
     let f : Frame := { frameOf 6 2 0 (words [0xe951b921, 0x49b11981, 0xa91179e1, 0xa72da42]) with dmode := 2, dst := 0 }; let s : State := quiet 0;
     decide (s.frozen = false ∧ f.type = 6) && (match s.arrives hop ok f with
       | (false, _) => true
       | _ => false)),
    (let hop : Hop := .ringB; let ok : Bool := true;
     let f : Frame := frameOf 6 0 2 (words [0xeb53ba22, 0x4bb31b83, 0xab137be3, 0xb73db43, 0x6cd43ca3, 0xcc349c04, 0x2c94fc64, 0x8df45cc4, 0xed55bd25, 0x4db51d85]);
     let s : State := quiet 5; let s : State := arrS hop f s; decide (s.frozen = false ∧ f.type = 6) && (match s.arrives hop ok f with
       | (true, u) => (decide (u.bit Reg.IMG_STGCTL 0 = false))
       | _ => false)),
    (let hop : Hop := .ringB; let ok : Bool := true;
     let f : Frame := frameOf 6 0 2 (words [0xeb53ba22, 0x4bb31b83, 0xab137be3, 0xb73db43, 0x6cd43ca3, 0xcc349c04, 0x2c94fc64, 0x8df45cc4, 0xed55bd25, 0x4db51d85]);
     let data : List Byte := [227, 123, 19, 171, 67, 219, 115, 11, 163, 60, 212, 108, 4, 156, 52, 204, 100, 252, 148, 44, 196, 92, 244, 141, 37, 189, 85, 237, 133, 29, 181, 77];
     let s : State := quiet 5; let s : State := arrS hop f s; let s : State := s.setBit Reg.IMG_STGCTL 0 true; decide (s.frozen = false ∧
         f.type = 6) && (match s.arrives hop ok f with
       | (true, u) => (decide (u.bit Reg.IMG_STGCTL 0 = true ∧ u.img.anySession = false ∧
           (u.bit Reg.IMG_STATE 5 = true ∨ wd (f.le 0 4) ≠ u.reg Reg.IMG_SESSION ∨ f.le 4 4 % 16 ≠ 0 ∨ u.stgLen < f.le 4 4 + data.length)))
       | _ => false)),
    (let hop : Hop := .ringB; let ok : Bool := true; let f : Frame := frameOf 6 0 2 (words [7, 16, 1, 2, 3, 4]);
     let data : List Byte := [1, 0, 0, 0, 2, 0, 0, 0, 3, 0, 0, 0, 4, 0, 0, 0]; let s : State := quiet 5; let s : State := arrS hop f s;
     let s : State := (s.setReg Reg.IMG_STGBASE 0x10000000).setReg Reg.IMG_STGLEN 0x1000; let s : State := s.setBit Reg.IMG_STGCTL 0 true;
     let s : State := s.setReg Reg.IMG_SESSION 7; decide (s.frozen = false ∧ f.type = 6) && (match s.arrives hop ok f with
       | (true, u) => (decide (u.bit Reg.IMG_STGCTL 0 = true ∧ u.img.anySession = false ∧ u.bit Reg.IMG_STATE 5 = false ∧
           wd (f.le 0 4) = u.reg Reg.IMG_SESSION ∧ f.le 4 4 % 16 = 0 ∧ f.le 4 4 + data.length ≤ u.stgLen) &&
           (match u.sramWriteBytes 14 (u.stgBase + f.le 4 4) data with
         | (0, _) => true
         | _ => false))
       | _ => false)),
    (let s : State := quiet 0; let s : State := { s with xspi := { s.xspi with run := some (0, 0) } }; decide (s.xspi.run ≠ none ∨ 4096 < ([] : List Byte).length)),
    (let data : List Byte := []; let s : State := quiet 0; decide (s.xspi.run = none ∧ data.length ≤ 4096)),
    (let s : State := quiet 0; let s : State := { s with fab.bootStopped := true }; decide (s.fab.bootStopped = true ∨ s.fab.marching = true ∨ s.pwr.released = false)),
    (let s : State := quiet 0; let s : State := { s with sec.life := 4 }; decide (s.fab.bootStopped = false ∧ s.fab.marching = false ∧ s.pwr.released = true ∧ s.sec.life = 4)),
    (let bootsel : Fin 4 := 0; let okStaged : Bool := true; let s : State := quiet 0; let s : State := { s with img.bootWait := true };
     decide (s.fab.bootStopped = false ∧ s.fab.marching = false ∧ s.pwr.released = true ∧ s.sec.life ≠ 4 ∧ s.img.bootWait = true) &&
         (match (s.setReg Reg.IMG_BOOT (wd bootsel.val)).tryImage 0 okStaged with
       | (false, _) => true
       | _ => false)),
    (let bootsel : Fin 4 := 0; let okStaged : Bool := true; let s : State := quiet 0; let s : State := { s with img.bootWait := true };
     let s : State := goodRegs s; let s : State := staged (image 1 1 192 0 0 []) s; decide (s.fab.bootStopped = false ∧ s.fab.marching = false ∧ s.pwr.released = true ∧
         s.sec.life ≠ 4 ∧ s.img.bootWait = true) && (match (s.setReg Reg.IMG_BOOT (wd bootsel.val)).tryImage 0 okStaged with
       | (true, _) => true
       | _ => false)),
    (let bootsel : Fin 4 := 2; let s : State := quiet 5; decide (s.fab.bootStopped = false ∧ s.fab.marching = false ∧ s.pwr.released = true ∧ s.sec.life ≠ 4 ∧
         s.img.bootWait = false ∧ 2 ≤ bootsel.val)),
    (let m : Acc := ⟨14, false, false, false⟩; let s : State := quiet 0; let s : State := { s with pwr.state := 5 };
     decide (m.debug = false ∧ s.targetOff Reg.IMG_CMD = true)),
    (let m : Acc := ⟨10, false, false, false⟩; let s : State := quiet 0; decide (m.debug = false ∧ m.alle = false ∧ s.targetOff Reg.IMG_CMD = false)),
    (let s : State := quiet 0; decide (s.frozen = false ∧ (s.engine ≠ 3 ∨ s.bit Reg.IMG_STATE 4 = false))),
    (let f : Frame := frameOf 5 0 2 []; let s : State := quiet 5; decide (s.frozen = false ∧ f.type ≠ 6)),
    (let hop : Hop := .ringB; let ok : Bool := true; let f : Frame := frameOf 6 0 2 (words [7, 16, 1, 2, 3, 4]); let s : State := quiet 5;
     let s : State := arrS hop f s; let s : State := s.setBit Reg.IMG_STGCTL 0 true; let s : State := { s with img.anySession := true };
     decide (s.frozen = false ∧ f.type = 6) && (match s.arrives hop ok f with
       | (true, u) => decide (u.bit Reg.IMG_STGCTL 0 = true ∧ u.img.anySession = true ∧ f.le 4 4 ≠ 0)
       | _ => false)),
    (let hop : Hop := .ringB; let ok : Bool := true; let f : Frame := frameOf 6 0 2 (words [7, 0, 1, 2, 3, 4]); let s : State := quiet 5;
     let s : State := arrS hop f s; let s : State := s.setBit Reg.IMG_STGCTL 0 true; let s : State := { s with img.anySession := true };
     decide (s.frozen = false ∧ f.type = 6) && (match s.arrives hop ok f with
       | (true, u) => decide (u.bit Reg.IMG_STGCTL 0 = true ∧ u.img.anySession = true ∧ f.le 4 4 = 0)
       | _ => false)),
    (let bootsel : Fin 4 := 0; let s : State := quiet 0; let s : State := flashed [] s;
     decide (s.fab.bootStopped = false ∧ s.fab.marching = false ∧ s.pwr.released = true ∧ s.sec.life ≠ 4 ∧ s.img.bootWait = false ∧ bootsel.val < 2))].all id = true := by decide +kernel

/-- The premises of the clauses of `SensorsAndMail` are met. -/
theorem wit_SensorsAndMail : [
    (let h : Hop := .ringB; let ok : Bool := true;
     let f : Frame := { frameOf 4 3 0 (words [0xe951b921, 0x49b11981, 0xa91179e1, 0xa72da42]) with dmode := 2, dst := 0 }; let s : State := quiet 0;
     decide (s.frozen = false ∧ f.type = 4 ∧ f.sub = 3) && (match s.arrives h ok f with
       | (false, _) => true
       | _ => false)),
    (let h : Hop := .ringB; let ok : Bool := true; let f : Frame := frameOf 4 3 0 (words [0xe951b921, 0x49b11981, 0xa91179e1, 0xa72da42]);
     let s : State := quiet 0; let s : State := arrS h f s; let s : State := s.setReg Reg.MGT_MBINSTAT 15; decide (s.frozen = false ∧ f.type = 4 ∧
         f.sub = 3) && (match s.arrives h ok f with
       | (true, u) => (decide (u.freeInbound = none))
       | _ => false)),
    (let h : Hop := .ringB; let ok : Bool := true; let f : Frame := frameOf 4 3 0 (words [0xe951b921, 0x49b11981, 0xa91179e1, 0xa72da42]);
     let s : State := quiet 0; let s : State := arrS h f s; decide (s.frozen = false ∧ f.type = 4 ∧ f.sub = 3) && (match s.arrives h ok f with
       | (true, u) => ((match u.freeInbound with
         | some _ => true
         | _ => false))
       | _ => false)),
    (let m : Acc := ⟨14, false, false, false⟩; let v : Word := 8; let k : Nat := 3; let s : State := quiet 0;
     let s : State := s.setBit (Reg.MGT_MBOUTs_DST k) 14 true; decide (m.debug = false ∧ s.targetOff Reg.MGT_MBINREL = false ∧ m.alle = true ∧ k < 4 ∧
         (∀ j ∈ List.range 4, bitAt v j = decide (j = k)) ∧ s.bit Reg.MGT_MBOUTSTAT k = false ∧ s.bit (Reg.MGT_MBOUTs_DST k) 14 = true)),
    (let m : Acc := ⟨14, false, false, false⟩; let v : Word := 8; let k : Nat := 3; let s : State := quiet 0;
     let s : State := s.setReg (Reg.MGT_MBOUTs k 0) 0xFFFF0000; decide (m.debug = false ∧ s.targetOff Reg.MGT_MBINREL = false ∧ m.alle = true ∧ k < 4 ∧
         (∀ j ∈ List.range 4, bitAt v j = decide (j = k)) ∧ s.bit Reg.MGT_MBOUTSTAT k = false ∧ s.bit (Reg.MGT_MBOUTs_DST k) 14 = false ∧
         s.mailMaxpay (s.f (Reg.MGT_MBOUTs_DST k) 13 0) < fld (s.reg (Reg.MGT_MBOUTs k 0)) 31 16 + 16)),
    (let m : Acc := ⟨14, false, false, false⟩; let v : Word := 8; let k : Nat := 3; let s : State := quiet 0; decide (m.debug = false ∧ s.targetOff Reg.MGT_MBINREL = false ∧
         m.alle = true ∧ k < 4 ∧ (∀ j ∈ List.range 4, bitAt v j = decide (j = k)) ∧ s.bit Reg.MGT_MBOUTSTAT k = false ∧
         s.bit (Reg.MGT_MBOUTs_DST k) 14 = false ∧ fld (s.reg (Reg.MGT_MBOUTs k 0)) 31 16 + 16 ≤ s.mailMaxpay (s.f (Reg.MGT_MBOUTs_DST k) 13 0))),
    (let m : Acc := ⟨14, false, false, false⟩; let v : Word := 0xdeadbeef; decide (m.debug = false ∧ (quiet 0).targetOff Reg.MGT_MBINREL = false ∧ m.alle = true ∧ bitAt v 0 = true)),
    (let k : Fin 4 := 0; let s : State := quiet 0; decide (s.bit Reg.MGT_MBOUTSTAT k.val = false)),
    (let k : Fin 4 := 0; let s : State := quiet 0; let s : State := s.setBit Reg.MGT_MBOUTSTAT k.val true;
     decide (s.bit Reg.MGT_MBOUTSTAT k.val = true)),
    (let temps : List (BitVec 16) := [7, 3, 2, 0, 0xFFFF, 5, 6, 7]; let top : Int := 7; decide (temps.length = 8 ∧
         temps.all (fun v => decide (v.toInt ≤ top)) ∧ temps.any (fun v => decide (v.toInt = top)))),
    (let s : State := quiet 0; decide (s.bit Reg.MGT_ADCCTL 0 = false)),
    (let old : List Nat := []; let s : State := quiet 5; let s : State := s.setBit Reg.MGT_ADCCTL 0 true; decide (s.bit Reg.MGT_ADCCTL 0 = true) &&
         (let e : Nat := s.mgt.entry % (s.f Reg.MGT_ADCCTL 3 1 + 1); (let c : Nat := s.f Reg.MGT_ADCSEQ (4 * e + 2) (4 * e);
     decide ((s.mgt.hist.find? fun h => decide (h.1 = c)) = none ∧ old = [] ∨ s.mgt.hist.find? (fun h => decide (h.1 = c)) = some (c, old))))),
    (let s : State := quiet 0; decide (s.bit Reg.MGT_ABCTL 0 = false ∨ s.running = false ∨ s.beam.pos ≠ ⟨0, 0, 0⟩)),
    (let s : State := quiet 0; decide (s.bit Reg.MGT_ABCTL 0 = false)),
    (let s : State := (quiet 0).setBit Reg.MGT_ABCTL 0 true; let s : State := s.setBit Reg.BEAM_CTRL 0 true;
     let s : State := { s with beam.pos := ⟨0, 0, 0⟩ }; decide (s.bit Reg.MGT_ABCTL 0 = true ∧ s.running = true ∧ s.beam.pos = ⟨0, 0, 0⟩)),
    (let f : Frame := frameOf 4 2 0 []; let s : State := quiet 0; decide (s.frozen = false ∧ (f.type ≠ 4 ∨ f.sub ≠ 3))),
    (let m : Acc := ⟨10, false, false, false⟩; let s : State := quiet 0; let s : State := { s with pwr.state := 5 };
     decide (m.debug = false ∧ s.targetOff Reg.MGT_MBINREL = true)),
    (let m : Acc := ⟨10, false, false, false⟩; let s : State := quiet 0; decide (m.debug = false ∧ m.alle = false ∧ s.targetOff Reg.MGT_MBINREL = false)),
    (let m : Acc := ⟨14, false, false, false⟩; let v : Word := 4; let s : State := quiet 0; decide (m.debug = false ∧ m.alle = true ∧
         s.targetOff Reg.MGT_MBINREL = false ∧ bitAt v 0 = false)),
    (let m : Acc := ⟨14, false, false, false⟩; let v : Word := 8; let k : Nat := 3; let s : State := (quiet 0).setBit Reg.MGT_MBOUTSTAT k true;
     decide (m.debug = false ∧ m.alle = true ∧ s.targetOff Reg.MGT_MBINREL = false ∧ k < 4 ∧
         (∀ j ∈ List.range 4, bitAt v j = decide (j = k)) ∧ s.bit Reg.MGT_MBOUTSTAT k = true))].all id = true := by decide +kernel

/-- The premises of the clauses of `EventRecorder` are met. -/
theorem wit_EventRecorder : [
    (let s : State := quiet 0; decide (s.evr.queue = [])),
    (let e : Ev := { secs := 0, pcyc := 0, sub := 0, tunset := false, code := 0, sev := 0, arg0 := 0, arg1 := 0, arg2 := 0, arg3 := 0 };
     let rest : List Ev := []; let s : State := quiet 0; let s : State := { s with evr.queue := e :: rest };
     let s : State := { s with evr.lost := 1 }; decide (s.evr.queue = e :: rest ∧ s.evr.lost ≠ 0 ∧ rest.length < 32)),
    (let e : Ev := { secs := 0, pcyc := 0, sub := 0, tunset := false, code := 784, sev := 0, arg0 := 0, arg1 := 0, arg2 := 0, arg3 := 0 };
     let rest : List Ev := []; let s : State := quiet 0; let s : State := { s with evr.queue := e :: rest }; decide (s.evr.queue = e :: rest ∧
         s.evr.lost = 0 ∧ isSecCode e.code = true)),
    (let e : Ev := { secs := 0, pcyc := 0, sub := 0, tunset := false, code := 0, sev := 0, arg0 := 0, arg1 := 0, arg2 := 0, arg3 := 0 };
     let rest : List Ev := []; let s : State := quiet 0; let s : State := { s with evr.queue := e :: rest }; decide (s.evr.queue = e :: rest ∧
         s.evr.lost = 0 ∧ isSecCode e.code = false ∧ (s.f Reg.EVR_RL 31 16 = 0 ∨ s.tokens e.code ≠ 0)) && (match s.opSlot e.sev with
       | some _ => true
       | _ => false)),
    (let e : Ev := { secs := 0, pcyc := 0, sub := 0, tunset := false, code := 16, sev := 0, arg0 := 0, arg1 := 0, arg2 := 0, arg3 := 0 };
     let rest : List Ev := []; let s : State := quiet 0; let s : State := { s with evr.queue := e :: rest };
     let s : State := { s with evr := { s.evr with op := (List.range 1536).map fun i => ⟨i, wd i, 3⟩ } }; decide (s.evr.queue = e :: rest ∧
         s.evr.lost = 0 ∧ isSecCode e.code = false ∧ (s.f Reg.EVR_RL 31 16 = 0 ∨ s.tokens e.code ≠ 0) ∧ s.opSlot e.sev = none)),
    (let e : Ev := { secs := 0, pcyc := 0, sub := 0, tunset := false, code := 0, sev := 0, arg0 := 0, arg1 := 0, arg2 := 0, arg3 := 0 };
     let rest : List Ev := []; let s : State := quiet 0; let s : State := { s with evr.queue := e :: rest };
     let s : State := { s with evr := { s.evr with tokens := [(e.code, 0)] } }; decide (s.evr.queue = e :: rest ∧ s.evr.lost = 0 ∧
         isSecCode e.code = false ∧ s.f Reg.EVR_RL 31 16 ≠ 0 ∧ s.tokens e.code = 0)),
    (let s : State := quiet 0; let s : State := s.setF Reg.EVR_RL 31 16 0; decide (s.f Reg.EVR_RL 31 16 = 0)),
    (let s : State := quiet 0; decide (s.f Reg.EVR_RL 31 16 ≠ 0 ∧ s.evr.supp = [])),
    (let x : Supp := { code := 0, count := 0, inst := 0, sev := 0, first := 0, last := 0 }; let s : State := quiet 0;
     let s : State := { s with evr.supp := [x] }; let s : State := { s with evr.tokens := [(x.code, 0)] }; decide (s.f Reg.EVR_RL 31 16 ≠ 0 ∧
         s.evr.supp = [x] ∧ s.evr.tokens = [(x.code, 0)]) && (match s.opSlot x.sev with
       | some _ => true
       | _ => false)),
    (let m : Acc := ⟨14, false, false, false⟩; let s : State := quiet 0; decide (m.debug = false ∧ s.targetOff Reg.EVR_SECS = false ∧ m.alle = true ∧ s.evr.secsSet = false)),
    (let m : Acc := ⟨14, false, false, false⟩; let s : State := quiet 0; decide (m.debug = false ∧ s.targetOff Reg.EVR_SECS = false ∧ m.alle = true ∧ s.evr.pcycSet = false)),
    (let m : Acc := host; let s : State := quiet 0; decide (m.debug = false ∧ s.targetOff Reg.EVR_SECS = false ∧ (m.alle = false ∨ s.evr.secsSet = true))),
    (let m : Acc := host; let s : State := quiet 0; decide (m.debug = false ∧ s.targetOff Reg.EVR_SECS = false ∧ (m.alle = false ∨ s.evr.pcycSet = true))),
    (let m : Acc := host; let v : Word := 0xdeadbeed; decide (m.debug = false ∧ (quiet 0).targetOff Reg.EVR_SECS = false ∧ bitAt v 1 = false)),
    (let m : Acc := host; let v : Word := 0xdeadbeee; decide (m.debug = false ∧ (quiet 0).targetOff Reg.EVR_SECS = false ∧ bitAt v 1 = true ∧ (bitAt v 0 = false ∨ m.sec = true))),
    (let m : Acc := ⟨14, false, false, false⟩; let v : Word := 0xdeadbeef; decide (m.debug = false ∧ (quiet 0).targetOff Reg.EVR_SECS = false ∧ bitAt v 1 = true ∧ bitAt v 0 = true ∧
         m.sec = false)),
    (let m : Acc := ⟨10, false, false, false⟩; let v : Word := 0x00000101; let n : Fin 3 := 0; decide (m.debug = false ∧ (quiet 0).targetOff Reg.EVR_SECS = false ∧
         MayWrite m (Reg.EVR_LOGt_GO n.val) v ∧ fld v 10 0 < 0x400)),
    (let m : Acc := monitor; let v : Word := 0x0f0f0f0f; let n : Fin 3 := 2; let s : State := quiet 5; decide (m.debug = false ∧ s.targetOff Reg.EVR_SECS = false ∧
         MayWrite m (Reg.EVR_LOGt_GO n.val) v ∧ 0x400 ≤ fld v 10 0 ∧ s.evr.queue.length < 32)),
    (let m : Acc := host; let s : State := quiet 0; let s : State := s.setBit Reg.EVR_WSTAT 0 true; decide (m.debug = false ∧ s.targetOff Reg.EVR_SECS = false ∧
         s.bit Reg.EVR_WSTAT 0 = true)),
    (let m : Acc := host; let s : State := quiet 0; decide (m.debug = false ∧ s.targetOff Reg.EVR_SECS = false ∧ s.bit Reg.EVR_WSTAT 0 = false)),
    (let s : State := quiet 0; decide (s.evr.seek = none)),
    (let cls : Nat := 0; let seq : Word := 0x80000000; let s : State := quiet 0; let s : State := { s with evr.seek := some (cls, seq) };
     decide (s.evr.seek = some (cls, seq) ∧ s.seekRecord cls seq = none)),
    (let cls : Nat := 256; let seq : Word := 5; let s : State := quiet 5; let s : State := { s with evr.seek := some (cls, seq) };
     let s : State := { s with evr := { s.evr with op := [⟨3, 0x7FFFFFFF, 1⟩], sec := [⟨4, 0x20, 1⟩] } }; decide (s.evr.seek = some (cls, seq)) &&
         (match s.seekRecord cls seq with
       | some _ => true
       | _ => false)),
    (let m : Acc := host; let v : Word := 0x00000101; let n : Fin 3 := 0; let s : State := quiet 0; decide (m.debug = false ∧
         s.targetOff Reg.EVR_SECS = false ∧ ¬ MayWrite m (Reg.EVR_LOGt_GO n.val) v)),
    (let m : Acc := ⟨10, false, false, false⟩; let v : Word := 0x0f0f0f0f; let n : Fin 3 := 0; let s : State := quiet 0;
     let e : Ev := { secs := 0, pcyc := 0, sub := 0, tunset := false, code := 0, sev := 0, arg0 := 0, arg1 := 0, arg2 := 0, arg3 := 0 };
     let s : State := { s with evr.queue := List.replicate 32 e }; decide (m.debug = false ∧ s.targetOff Reg.EVR_SECS = false ∧
         MayWrite m (Reg.EVR_LOGt_GO n.val) v ∧ 0x400 ≤ fld v 10 0 ∧ 32 ≤ s.evr.queue.length))].all id = true := by decide +kernel

/-- The premises of the clauses of `SecurityCommands` are met. -/
theorem wit_SecurityCommands : [
    (let m : Acc := ⟨14, false, false, false⟩; decide (m.debug = false ∧ (quiet 0).targetOff Reg.SEC_CMD = false ∧ m.sec = false)),
    (let m : Acc := monitor; let s : State := quiet 0; decide (m.sec = true ∧ s.targetOff Reg.SEC_CMD = false ∧ (s.sec.cmd ≠ none ∨ s.secAllowed 1 = false))),
    (let m : Acc := monitor; let s : State := quiet 0; decide (m.sec = true ∧ s.targetOff Reg.SEC_CMD = false ∧ (s.sec.cmd ≠ none ∨ s.secAllowed 2 = false))),
    (let m : Acc := monitor; let s : State := quiet 0; let s : State := { s with sec := { s.sec with cmd := some (1, 0) } }; decide (m.sec = true ∧ s.targetOff Reg.SEC_CMD = false ∧
         (s.sec.cmd ≠ none ∨ s.secAllowed 3 = false))),
    (let m : Acc := monitor; let s : State := quiet 0; decide (m.sec = true ∧ s.targetOff Reg.SEC_CMD = false ∧ (s.sec.cmd ≠ none ∨ s.secAllowed 4 = false))),
    (let m : Acc := monitor; let s : State := quiet 0; decide (m.sec = true ∧ s.targetOff Reg.SEC_CMD = false ∧ (s.sec.cmd ≠ none ∨ s.secAllowed 5 = false))),
    (let m : Acc := monitor; let s : State := quiet 0; decide (m.sec = true ∧ s.targetOff Reg.SEC_CMD = false ∧ (s.sec.cmd ≠ none ∨ s.secAllowed 6 = false))),
    (let m : Acc := monitor; let s : State := quiet 0; decide (m.sec = true ∧ s.targetOff Reg.SEC_CMD = false ∧ (s.sec.cmd ≠ none ∨ s.secAllowed 7 = false))),
    (let m : Acc := monitor; let s : State := quiet 0; let s : State := { s with sec := { s.sec with cmd := some (1, 0) } }; decide (m.sec = true ∧ s.targetOff Reg.SEC_CMD = false ∧
         (s.sec.cmd ≠ none ∨ s.secAllowed 8 = false))),
    (let m : Acc := monitor; let s : State := quiet 0; let s : State := { s with sec.life := 1 }; let s : State := s.setReg Reg.SEC_ARG 2;
     (let arg : Nat := (s.reg Reg.SEC_ARG).toNat; decide (m.sec = true ∧ s.targetOff Reg.SEC_CMD = false ∧ s.sec.cmd = none ∧ s.sec.life = 1 ∧ arg % 8 = 2))),
    (let m : Acc := monitor; let s : State := quiet 0; let s : State := s.setReg Reg.SEC_ARG 4; (let arg : Nat := (s.reg Reg.SEC_ARG).toNat;
     decide (m.sec = true ∧ s.targetOff Reg.SEC_CMD = false ∧ s.sec.cmd = none ∧ s.sec.life = 0 ∧ arg % 8 = 4))),
    (let m : Acc := monitor; let s : State := quiet 0; let s : State := { s with sec.life := 2 }; (let arg : Nat := (s.reg Reg.SEC_ARG).toNat;
     decide (m.sec = true ∧ s.targetOff Reg.SEC_CMD = false ∧ s.sec.cmd = none ∧ s.sec.life = 2 ∧ arg % 8 ≤ 2))),
    (let m : Acc := monitor; let s : State := quiet 0; let s : State := s.setReg Reg.SEC_SRC 0x30000000; (let arg : Nat := (s.reg Reg.SEC_ARG).toNat;
     (let src : Nat := (s.reg Reg.SEC_SRC).toNat; decide (m.sec = true ∧ s.targetOff Reg.SEC_CMD = false ∧ s.sec.cmd = none ∧ s.sec.tlock = false ∧ s.sec.life ≤ 1 ∧ arg < 4 ∧
         inSecure src 96 = true)))),
    (let m : Acc := monitor; let s : State := quiet 0; (let arg : Nat := (s.reg Reg.SEC_ARG).toNat; decide (m.sec = true ∧ s.targetOff Reg.SEC_CMD = false ∧ s.sec.cmd = none ∧
         s.sec.tlock = false ∧ arg < 4 ∧ (s.sec.signed.map (·.1) ≠ some arg)))),
    (let m : Acc := monitor; let v : Nat := 0; let s : State := quiet 0;
     let s : State := { s with sec.signed := some (((s.reg Reg.SEC_ARG).toNat), v) }; (let arg : Nat := (s.reg Reg.SEC_ARG).toNat;
     decide (m.sec = true ∧ s.targetOff Reg.SEC_CMD = false ∧ s.sec.cmd = none ∧ s.sec.signed = some (arg, v)))),
    (let m : Acc := monitor; let s : State := quiet 0; let s : State := s.setReg Reg.SEC_SRC 0x30000000; (let src : Nat := (s.reg Reg.SEC_SRC).toNat;
     decide (m.sec = true ∧ s.targetOff Reg.SEC_CMD = false ∧ s.sec.cmd = none ∧ s.sec.life = 0 ∧ inSecure src 96 = true))),
    (let m : Acc := monitor; let k : Nat := 0; let v : Nat := 8; let s : State := quiet 0; let s : State := { s with sec.signed := some (k, v) };
     (let arg : Nat := (s.reg Reg.SEC_ARG).toNat; decide (m.sec = true ∧ s.targetOff Reg.SEC_CMD = false ∧ s.sec.cmd = none ∧ s.sec.signed = some (k, v) ∧ arg ≤ v ∧ arg ≤ 255))),
    (let m : Acc := monitor; let s : State := quiet 0; let s : State := s.setReg Reg.SEC_ARG 256; (let arg : Nat := (s.reg Reg.SEC_ARG).toNat;
     decide (m.sec = true ∧ s.targetOff Reg.SEC_CMD = false ∧ s.sec.cmd = none ∧ 255 < arg))),
    (let m : Acc := monitor; let s : State := quiet 0; let s : State := s.setReg Reg.SEC_ARG 3; (let arg : Nat := (s.reg Reg.SEC_ARG).toNat;
     decide (m.sec = true ∧ s.targetOff Reg.SEC_CMD = false ∧ s.sec.cmd = none ∧ s.sec.tlock = false ∧ 1 ≤ arg % 8 ∧ arg % 8 ≤ 4))),
    (let m : Acc := monitor; let s : State := quiet 0; let s : State := s.setReg Reg.SEC_ARG 4; (let arg : Nat := (s.reg Reg.SEC_ARG).toNat;
     decide (m.sec = true ∧ s.targetOff Reg.SEC_CMD = false ∧ s.sec.cmd = none ∧ 1 ≤ arg % 8 ∧ arg % 8 ≤ 4))),
    (let m : Acc := monitor; let s : State := quiet 0; decide (m.sec = true ∧ s.targetOff Reg.SEC_CMD = false ∧ s.sec.cmd = none)),
    (let m : Acc := monitor; let s : State := quiet 0; let s : State := { s with sec.bootPassed := true }; decide (m.sec = true ∧ s.targetOff Reg.SEC_CMD = false ∧
         s.sec.bootPassed = true)),
    (let m : Acc := monitor; let v : Word := 0xdeadbeef; let s : State := quiet 0; decide (m.sec = true ∧ s.targetOff Reg.SEC_CMD = false ∧ (v ≠ 0xA55A ∨ s.sec.bootPassed = false))),
    (let a : Nat := 2; let op : Nat := 1; let s : State := quiet 0; let s : State := { s with sec := { s.sec with life := 1, cmd := some (1, 2) } };
     decide (s.sec.cmd = some (op, a) ∧ a % 8 < 3)),
    (let a : Nat := 0x40000004; let op : Nat := 1; let s : State := quiet 0; let s : State := { s with sec.cmd := some (1, a) };
     decide (s.sec.cmd = some (op, a) ∧ 3 ≤ a % 8)),
    (let a : Nat := 0; let op : Nat := 2; let s : State := quiet 0; let s : State := { s with sec.cmd := some (2, a) };
     decide (s.sec.cmd = some (op, a) ∧ s.sec.owner[a]? = some none)),
    (let a : Nat := 0; let op : Nat := 4; let s : State := quiet 0; let s : State := { s with sec.cmd := some (4, a) };
     decide (s.sec.cmd = some (op, a) ∧ s.sec.dbgKey = none)),
    (let in0 : Bool := true; let in1 : Bool := true; let s : State := quiet 0; decide ((in0 && s.tamperArmed 0) = false ∧ (in1 &&
         s.tamperArmed 1) = false)),
    (let in0 : Bool := true; let in1 : Bool := true; let s : State := quiet 0; let s : State := s.setReg Reg.SEC_TCFG 1; decide ((in0 &&
         s.tamperArmed 0) = true ∨ (in1 && s.tamperArmed 1) = true)),
    (let m : Acc := host; let s : State := quiet 0; let s : State := { s with pwr.state := 5 }; decide (m.debug = false ∧ s.targetOff Reg.SEC_CMD = true)),
    (let m : Acc := monitor; let s : State := quiet 0; let s : State := { s with sec.life := 1 }; let s : State := s.setReg Reg.SEC_ARG 2;
     decide (m.sec = true ∧ s.targetOff Reg.SEC_CMD = false ∧ s.sec.cmd = none ∧ s.secAllowed 1 = true))].all id = true := by decide +kernel

/-- The premises of the clauses of `DebugAuthorisation` are met. -/
theorem wit_DebugAuthorisation : [
    (let m : Acc := ⟨10, false, false, false⟩; let level : Nat := 2; let s : State := quiet 0; decide (m.debug = false ∧ s.targetOff Reg.DBG_AUTHCTL = false ∧ level < 256 ∧
         s.sec.life = 0 ∧ (level = 1 ∨ level = 2))),
    (let m : Acc := host; let level : Nat := 1; let s : State := quiet 0; let s : State := { s with sec := { s.sec with life := 1 + 0 % 3 } };
     decide (m.debug = false ∧ s.targetOff Reg.DBG_AUTHCTL = false ∧ level < 256 ∧ (level = 1 ∨ level = 2 ∨ level = 0x80 ∨ level = 0x81) ∧ s.sec.locked = false ∧ 1 ≤ s.sec.life ∧
         s.sec.life ≤ 3)),
    (let m : Acc := host; let level : Nat := 0; let s : State := quiet 0; let s : State := { s with sec.life := 1 }; decide (m.debug = false ∧ s.targetOff Reg.DBG_AUTHCTL = false ∧
         level < 256 ∧ s.sec.life ≠ 0 ∧ (s.sec.locked = true ∨ 3 < s.sec.life ∨ (level ≠ 1 ∧ level ≠ 2 ∧ level ≠ 0x80 ∧ level ≠ 0x81)))),
    (let m : Acc := host; let s : State := quiet 0; decide (m.debug = false ∧ s.targetOff Reg.DBG_AUTHCTL = false ∧ s.sec.chal = none)),
    (let m : Acc := engine; let rest : List (Option (Nat × Nat × Option Nat)) := []; let l : Nat := 2; let q : Nat := 256; let s : State := quiet 5;
     let s : State := { s with dbg.verify := none :: rest }; let s : State := { s with sec.chal := some (l, q) }; decide (m.debug = false ∧ s.targetOff Reg.DBG_AUTHCTL = false ∧
         s.dbg.verify = none :: rest ∧ s.sec.chal = some (l, q) ∧ l ≤ 2)),
    (let m : Acc := host; let rest : List (Option (Nat × Nat × Option Nat)) := []; let l : Nat := 8; let q : Nat := 17; let s : State := quiet 0;
     let s : State := { s with dbg.verify := none :: rest }; let s : State := { s with sec.chal := some (l, q) }; decide (m.debug = false ∧ s.targetOff Reg.DBG_AUTHCTL = false ∧
         s.dbg.verify = none :: rest ∧ s.sec.chal = some (l, q) ∧ 2 < l)),
    (let m : Acc := host; let s : State := quiet 0; decide (m.debug = false ∧ s.targetOff Reg.DBG_AUTHCTL = false ∧ (s.sec.chal = none ∨ s.dbg.verify ≠ []))),
    (let m : Acc := host; let s : State := quiet 0; let s : State := { s with sec := { s.sec with chal := some (1, 0x8000) } };
     decide (m.debug = false ∧ s.targetOff Reg.DBG_AUTHCTL = false ∧ s.sec.chal ≠ none ∧ s.dbg.verify = [])),
    (let m : Acc := host; let f : Frame := { frameOf 7 0 0 (words [0xe951b921, 0x49b11981, 0xa91179e1, 0xa72da42]) with dmode := 2, dst := 0 };
     let s : State := quiet 0; decide (m.debug = false ∧ s.targetOff Reg.DBG_AUTHCTL = false ∧ s.frozen = false ∧ f.type = 7 ∧ f.sub = 0 ∧ f.le 4 1 ≠ 0)),
    (let m : Acc := host; let f : Frame := { frameOf 7 0 0 (words [0xe951b921, 0x49b11981, 0xa91179e1, 0xa72da42]) with dmode := 2, dst := 0 };
     let s : State := quiet 0; decide (m.debug = false ∧ s.targetOff Reg.DBG_AUTHCTL = false ∧ s.frozen = false ∧ f.type = 7 ∧ f.sub = 0 ∧ f.le 4 1 ≠ 1)),
    (let m : Acc := host; let f : Frame := { frameOf 7 0 0 (words [0xe951b921, 0x49b11981, 0xa91179e1, 0xa72da42]) with dmode := 2, dst := 0 };
     let s : State := quiet 0; decide (m.debug = false ∧ s.targetOff Reg.DBG_AUTHCTL = false ∧ s.frozen = false ∧ f.type = 7 ∧ f.sub = 0 ∧ f.le 4 1 ≠ 2)),
    (let m : Acc := host; let f : Frame := { frameOf 7 0 0 (words [0xe951b921, 0x49b11981, 0xa91179e1, 0xa72da42]) with dmode := 2, dst := 0 };
     let s : State := quiet 0; decide (m.debug = false ∧ s.targetOff Reg.DBG_AUTHCTL = false ∧ s.frozen = false ∧ f.type = 7 ∧ f.sub = 0 ∧ f.le 4 1 ≠ 3)),
    (let m : Acc := host; let f : Frame := { frameOf 7 0 0 (words [0xe951b921, 0x49b11981, 0xa91179e1, 0xa72da42]) with dmode := 2, dst := 0 };
     let s : State := quiet 0; decide (m.debug = false ∧ s.targetOff Reg.DBG_AUTHCTL = false ∧ s.frozen = false ∧ f.type = 7 ∧ f.sub = 0 ∧ f.le 4 1 ≠ 4)),
    (let m : Acc := host; let h : Hop := .ringB; let ok : Bool := true;
     let f : Frame := { frameOf 7 0 0 (words [0xe951b921, 0x49b11900, 0xa91179e1, 0xa72da42]) with dmode := 2, dst := 0 }; let s : State := quiet 0;
     decide (m.debug = false ∧ s.targetOff Reg.DBG_AUTHCTL = false ∧ s.frozen = false ∧ f.type = 7 ∧ f.sub = 0 ∧ f.le 4 1 = 0) && (match s.arrives h ok f with
       | (false, _) => true
       | _ => false)),
    (let m : Acc := host; let h : Hop := .ringB; let ok : Bool := true;
     let f : Frame := { frameOf 7 0 0 (words [0xe951b921, 0x49b11901, 0xa91179e1, 0xa72da42]) with dmode := 2, dst := 0 }; let s : State := quiet 0;
     decide (m.debug = false ∧ s.targetOff Reg.DBG_AUTHCTL = false ∧ s.frozen = false ∧ f.type = 7 ∧ f.sub = 0 ∧ f.le 4 1 = 1) && (match s.arrives h ok f with
       | (false, _) => true
       | _ => false)),
    (let m : Acc := host; let h : Hop := .ringB; let ok : Bool := true;
     let f : Frame := { frameOf 7 0 0 (words [0xe951b921, 0x49b11902, 0xa91179e1, 0xa72da42]) with dmode := 2, dst := 0 }; let s : State := quiet 0;
     decide (m.debug = false ∧ s.targetOff Reg.DBG_AUTHCTL = false ∧ s.frozen = false ∧ f.type = 7 ∧ f.sub = 0 ∧ f.le 4 1 = 2) && (match s.arrives h ok f with
       | (false, _) => true
       | _ => false)),
    (let m : Acc := host; let h : Hop := .ringB; let ok : Bool := true;
     let f : Frame := { frameOf 7 0 0 (words [0xe951b921, 0x49b11903, 0xa91179e1, 0xa72da42]) with dmode := 2, dst := 0 }; let s : State := quiet 0;
     decide (m.debug = false ∧ s.targetOff Reg.DBG_AUTHCTL = false ∧ s.frozen = false ∧ f.type = 7 ∧ f.sub = 0 ∧ f.le 4 1 = 3) && (match s.arrives h ok f with
       | (false, _) => true
       | _ => false)),
    (let m : Acc := host; let h : Hop := .ringB; let ok : Bool := true;
     let f : Frame := { frameOf 7 0 0 (words [0xe951b921, 0x49b11904, 0xa91179e1, 0xa72da42]) with dmode := 2, dst := 0 }; let s : State := quiet 0;
     decide (m.debug = false ∧ s.targetOff Reg.DBG_AUTHCTL = false ∧ s.frozen = false ∧ f.type = 7 ∧ f.sub = 0 ∧ f.le 4 1 = 4) && (match s.arrives h ok f with
       | (false, _) => true
       | _ => false)),
    (let m : Acc := host; let h : Hop := .ringB; let ok : Bool := true;
     let f : Frame := frameOf 7 0 0 (words [0xe951b921, 0x49b11900, 0xa91179e1, 0xa72da42]); let s : State := quiet 0; let s : State := arrS h f s;
     let s : State := { s with dbg := { s.dbg with verify := [some (0, 0, some 3)] } }; decide (m.debug = false ∧ s.targetOff Reg.DBG_AUTHCTL = false ∧ s.frozen = false ∧ f.type = 7 ∧
         f.sub = 0 ∧ f.le 4 1 = 0) && (match s.arrives h ok f with
       | (true, u) => (decide (u.debugBusy (some f.src) = true))
       | _ => false)),
    (let m : Acc := host; let h : Hop := .ringB; let ok : Bool := true;
     let f : Frame := frameOf 7 0 0 (words [0xe951b921, 0x49b11901, 0xa91179e1, 0xa72da42]); let s : State := quiet 0; let s : State := arrS h f s;
     let s : State := { s with dbg := { s.dbg with verify := [some (0, 0, some 3)] } }; decide (m.debug = false ∧ s.targetOff Reg.DBG_AUTHCTL = false ∧ s.frozen = false ∧ f.type = 7 ∧
         f.sub = 0 ∧ f.le 4 1 = 1) && (match s.arrives h ok f with
       | (true, u) => (decide (u.debugBusy (some f.src) = true))
       | _ => false)),
    (let m : Acc := host; let h : Hop := .ringB; let ok : Bool := true;
     let f : Frame := frameOf 7 0 0 (words [0xe951b921, 0x49b11902, 0xa91179e1, 0xa72da42]); let s : State := quiet 0; let s : State := arrS h f s;
     let s : State := { s with dbg := { s.dbg with verify := [some (0, 0, some 3)] } }; decide (m.debug = false ∧ s.targetOff Reg.DBG_AUTHCTL = false ∧ s.frozen = false ∧ f.type = 7 ∧
         f.sub = 0 ∧ f.le 4 1 = 2) && (match s.arrives h ok f with
       | (true, u) => (decide (u.debugBusy (some f.src) = true))
       | _ => false)),
    (let m : Acc := host; let h : Hop := .ringB; let ok : Bool := true;
     let f : Frame := frameOf 7 0 0 (words [0xe951b921, 0x49b11903, 0xa91179e1, 0xa72da42]); let s : State := quiet 0; let s : State := arrS h f s;
     let s : State := { s with dbg := { s.dbg with verify := [some (0, 0, some 3)] } }; decide (m.debug = false ∧ s.targetOff Reg.DBG_AUTHCTL = false ∧ s.frozen = false ∧ f.type = 7 ∧
         f.sub = 0 ∧ f.le 4 1 = 3) && (match s.arrives h ok f with
       | (true, u) => (decide (u.debugBusy (some f.src) = true))
       | _ => false)),
    (let m : Acc := host; let h : Hop := .ringB; let ok : Bool := true;
     let f : Frame := frameOf 7 0 0 (words [0xe951b921, 0x49b11904, 0xa91179e1, 0xa72da42]); let s : State := quiet 0; let s : State := arrS h f s;
     let s : State := { s with dbg := { s.dbg with verify := [some (0, 0, some 3)] } }; decide (m.debug = false ∧ s.targetOff Reg.DBG_AUTHCTL = false ∧ s.frozen = false ∧ f.type = 7 ∧
         f.sub = 0 ∧ f.le 4 1 = 4) && (match s.arrives h ok f with
       | (true, u) => (decide (u.debugBusy (some f.src) = true))
       | _ => false)),
    (let m : Acc := host; let h : Hop := .ringB; let ok : Bool := true;
     let f : Frame := frameOf 7 0 0 (words [0xe951b921, 0x49b11900, 0xa91179e1, 0xa72da42]); let s : State := quiet 0; let s : State := arrS h f s;
     decide (m.debug = false ∧ s.targetOff Reg.DBG_AUTHCTL = false ∧ s.frozen = false ∧ f.type = 7 ∧ f.sub = 0) && (match s.arrives h ok f with
       | (true, u) => (decide (u.debugBusy (some f.src) = false ∧ f.le 4 1 = 0 ∧ 252 < f.le 6 2))
       | _ => false)),
    (let m : Acc := host; let h : Hop := .ringB; let ok : Bool := true; let f : Frame := frameOf 7 0 0 (words [7, 0x10000, 0x10000010, 0, 5, 6]);
     let s : State := quiet 0; let s : State := arrS h f s; let s : State := { s with sec := { s.sec with level := 2 } }; decide (m.debug = false ∧ s.targetOff Reg.DBG_AUTHCTL = false ∧
         s.frozen = false ∧ f.type = 7 ∧ f.sub = 0) && (match s.arrives h ok f with
       | (true, u) => (decide (u.debugBusy (some f.src) = false ∧ f.le 4 1 = 0 ∧ f.le 6 2 = 1 ∧ f.le 8 4 % 4 = 0) &&
           (match u.busRead32 debugAcc (f.le 8 4) with
         | (0, _, _) => (decide (f.le 8 4 < 2 ^ 32))
         | _ => false))
       | _ => false)),
    (let m : Acc := host; let h : Hop := .ringB; let ok : Bool := true; let f : Frame := frameOf 7 0 0 (words [7, 0x10001, 0x10000010, 0, 5, 6]);
     let w : Word := 5; let s : State := quiet 0; let s : State := arrS h f s; let s : State := { s with sec := { s.sec with level := 2 } };
     decide (m.debug = false ∧ s.targetOff Reg.DBG_AUTHCTL = false ∧ s.frozen = false ∧ f.type = 7 ∧ f.sub = 0) && (match s.arrives h ok f with
       | (true, u) => (decide (u.debugBusy (some f.src) = false ∧ f.le 4 1 = 1 ∧ f.le 6 2 = 1 ∧ f.le 8 4 % 4 = 0) &&
           (match u.busWrite32 debugAcc (f.le 8 4) w with
         | (0, _) => (decide (f.le 8 4 < 2 ^ 32))
         | _ => false))
       | _ => false)),
    (let m : Acc := host; let h : Hop := .ringB; let ok : Bool := true;
     let f : Frame := frameOf 7 0 0 (words [0xe951b921, 0x49b11902, 0xa91179e1, 0xa72da42]); let s : State := quiet 0; let s : State := arrS h f s;
     decide (m.debug = false ∧ s.targetOff Reg.DBG_AUTHCTL = false ∧ s.frozen = false ∧ f.type = 7 ∧ f.sub = 0) && (match s.arrives h ok f with
       | (true, u) => (decide (u.debugBusy (some f.src) = false ∧ f.le 4 1 = 2) && (match u.chalRequest (f.le 5 1) f.src with
         | (false, _) => true
         | _ => false))
       | _ => false)),
    (let m : Acc := ⟨15, true, false, false⟩; let h : Hop := .ringB; let ok : Bool := true;
     let f : Frame := frameOf 7 0 1 (words [0xd139a109, 0x31990102, 0x92fa62ca, 0xf25ac22a, 0x52ba228a, 0xb31b82ea, 0x137be34b, 0x73db43ab, 0xd33ba30b, 0x349c046b]);
     let s : State := quiet 0; let s : State := arrS h f s; decide (m.debug = false ∧ s.targetOff Reg.DBG_AUTHCTL = false ∧ s.frozen = false ∧ f.type = 7 ∧ f.sub = 0) &&
         (match s.arrives h ok f with
       | (true, u) => (decide (u.debugBusy (some f.src) = false ∧ f.le 4 1 = 2) && (match u.chalRequest (f.le 5 1) f.src with
         | (true, _) => true
         | _ => false))
       | _ => false)),
    (let m : Acc := host; let h : Hop := .ringB; let ok : Bool := true;
     let f : Frame := frameOf 7 0 0 (words [0xe951b921, 0x49b11903, 0xa91179e1, 0xa72da42]); let s : State := quiet 0; let s : State := arrS h f s;
     decide (m.debug = false ∧ s.targetOff Reg.DBG_AUTHCTL = false ∧ s.frozen = false ∧ f.type = 7 ∧ f.sub = 0) && (match s.arrives h ok f with
       | (true, u) => (decide (u.debugBusy (some f.src) = false ∧ f.le 4 1 = 3))
       | _ => false)),
    (let m : Acc := host; let h : Hop := .ringB; let ok : Bool := true;
     let f : Frame := frameOf 7 0 0 (words [0xe951b921, 0x49b11904, 0xa91179e1, 0xa72da42]); let s : State := quiet 0; let s : State := arrS h f s;
     let s : State := { s with sec := { s.sec with chal := some (1, 0x8000) } }; decide (m.debug = false ∧ s.targetOff Reg.DBG_AUTHCTL = false ∧ s.frozen = false ∧ f.type = 7 ∧
         f.sub = 0) && (match s.arrives h ok f with
       | (true, u) => (decide (u.debugBusy (some f.src) = false ∧ f.le 4 1 = 4 ∧ u.sec.chal ≠ none))
       | _ => false)),
    (let m : Acc := host; let h : Hop := .ringB; let ok : Bool := true;
     let f : Frame := frameOf 7 0 0 (words [0xe951b921, 0x49b11904, 0xa91179e1, 0xa72da42]); let s : State := quiet 0; let s : State := arrS h f s;
     decide (m.debug = false ∧ s.targetOff Reg.DBG_AUTHCTL = false ∧ s.frozen = false ∧ f.type = 7 ∧ f.sub = 0) && (match s.arrives h ok f with
       | (true, u) => (decide (u.debugBusy (some f.src) = false ∧ f.le 4 1 = 4 ∧ u.sec.chal = none))
       | _ => false)),
    (let m : Acc := host; let s : State := quiet 0; let s : State := { s with pwr.state := 5 }; decide (m.debug = false ∧ s.targetOff Reg.DBG_AUTHCTL = true)),
    (let m : Acc := host; let level : Nat := 3; let s : State := quiet 0; let s : State := { s with sec.life := 0 };
     decide (m.debug = false ∧ level < 256 ∧ s.targetOff Reg.DBG_AUTHCTL = false ∧ s.sec.life = 0 ∧ level ≠ 1 ∧ level ≠ 2)),
    (let s : State := quiet 0; decide (s.dbg.verify = [])),
    (let s : State := quiet 0; let s : State := { s with dbg.verify := [some (7, 8, none)] }; decide (s.dbg.verify = [some (7, 8, none)])),
    (let f : Frame := frameOf 7 1 0 []; let s : State := quiet 0; decide (s.frozen = false ∧ (f.type ≠ 7 ∨ f.sub ≠ 0))),
    (let m : Acc := host; let h : Hop := .ringB; let ok : Bool := true; let f : Frame := frameOf 7 0 0 (words [7, 0x10000, 0x10000011, 0, 5, 6]);
     let s : State := quiet 0; let s : State := arrS h f s; decide (m.debug = false ∧ s.frozen = false ∧ f.type = 7 ∧ f.sub = 0) &&
         (match s.arrives h ok f with
       | (true, u) => decide (u.debugBusy (some f.src) = false ∧ f.le 8 4 % 4 ≠ 0 ∧ f.le 4 1 = 0)
       | _ => false)),
    (let m : Acc := host; let h : Hop := .ringB; let ok : Bool := true; let f : Frame := frameOf 7 0 0 (words [7, 0xFD0001, 0x10000010, 0, 5, 6]);
     let s : State := quiet 0; let s : State := arrS h f s; decide (m.debug = false ∧ s.frozen = false ∧ f.type = 7 ∧ f.sub = 0) &&
         (match s.arrives h ok f with
       | (true, u) => decide (u.debugBusy (some f.src) = false ∧ 252 < f.le 6 2 ∧ f.le 4 1 = 1)
       | _ => false))].all id = true := by decide +kernel

/-- The premises of the clauses of `DebugHalts` are met. -/
theorem wit_DebugHalts : [
    (let m : Acc := host; let c : Fin 3 := 0; let s : State := quiet 0; let s : State := s.setCore c.val { (s.core c.val) with run := .run };
     decide (m.debug = false ∧ s.targetOff Reg.DBG_AUTHCTL = false ∧ ((s.core c.val).run = .run ∨ (s.core c.val).run = .wait) ∧ (s.core c.val).monitor = false ∧
         (s.core c.val).stopDue = none)),
    (let m : Acc := host; let c : Fin 3 := 0; let s : State := quiet 0; decide (m.debug = false ∧ s.targetOff Reg.DBG_AUTHCTL = false ∧
         ((s.core c.val).halted = true ∨ (s.core c.val).run = .held))),
    (let m : Acc := host; let c : Fin 3 := 0; let s : State := quiet 0; decide (m.debug = false ∧ s.targetOff Reg.DBG_AUTHCTL = false ∧ (s.core c.val).run ≠ .halt)),
    (let m : Acc := host; let c : Fin 3 := 0; let s : State := quiet 0; let s : State := s.setCore c.val { (s.core c.val) with run := .halt };
     decide (m.debug = false ∧ s.targetOff Reg.DBG_AUTHCTL = false ∧ (s.core c.val).run = .halt) && (let n : Nat := s.f (Reg.DBG_Cc_REGSEL c.val) 4 0; (match (s.core c.val).g[n]? with
       | some _ => (decide (n < 16))
       | _ => false))),
    (let m : Acc := host; let c : Fin 3 := 0; let s : State := quiet 0; let s : State := s.setCore c.val { (s.core c.val) with run := .halt };
     let s : State := s.setF (Reg.DBG_Cc_REGSEL c.val) 4 0 16; decide (m.debug = false ∧ s.targetOff Reg.DBG_AUTHCTL = false ∧ (s.core c.val).run = .halt) &&
         (let n : Nat := s.f (Reg.DBG_Cc_REGSEL c.val) 4 0; decide (n = 16))),
    (let m : Acc := host; let c : Fin 3 := 0; let s : State := quiet 0; let s : State := s.setCore c.val { (s.core c.val) with run := .halt };
     let s : State := s.setF (Reg.DBG_Cc_REGSEL c.val) 4 0 17; decide (m.debug = false ∧ s.targetOff Reg.DBG_AUTHCTL = false ∧ (s.core c.val).run = .halt) &&
         (let n : Nat := s.f (Reg.DBG_Cc_REGSEL c.val) 4 0; decide (n = 17))),
    (let m : Acc := host; let c : Fin 3 := 0; let s : State := quiet 0; decide (m.debug = false ∧ s.targetOff Reg.DBG_AUTHCTL = false) &&
         (let o : Nat := (s.reg (Reg.DBG_Cc_LADDR c.val)).toNat / 4 * 4; decide (o < localSize c.val ∧ s.mark (localKey c.val o) = .none))),
    (let m : Acc := host; let c : Fin 3 := 0; let s : State := quiet 0; decide (m.debug = false ∧ s.targetOff Reg.DBG_AUTHCTL = false) &&
         (let o : Nat := (s.reg (Reg.DBG_Cc_LADDR c.val)).toNat / 4 * 4; decide (o < localSize c.val))),
    (let m : Acc := host; let c : Fin 3 := 0; let s : State := quiet 0; let s : State := s.setReg (Reg.DBG_Cc_LADDR c.val) 0xFFFFFFF0;
     decide (m.debug = false ∧ s.targetOff Reg.DBG_AUTHCTL = false) && (let o : Nat := (s.reg (Reg.DBG_Cc_LADDR c.val)).toNat / 4 * 4; decide (localSize c.val ≤ o))),
    (let m : Acc := host; let c : Fin 3 := 0; let s : State := quiet 0; decide (m.debug = false ∧ s.targetOff Reg.DBG_AUTHCTL = false ∧ s.bit (Reg.DBG_Cc_VT c.val) 1 = false)),
    (let m : Acc := host; let c : Fin 3 := 0; let s : State := quiet 0; let s : State := s.setBit (Reg.DBG_Cc_VT c.val) 1 true;
     decide (m.debug = false ∧ s.targetOff Reg.DBG_AUTHCTL = false ∧ s.bit (Reg.DBG_Cc_VT c.val) 1 = true)),
    (let m : Acc := host; let s : State := quiet 0; let s : State := { s with pwr.state := 5 }; decide (m.debug = false ∧ s.targetOff Reg.DBG_AUTHCTL = true)),
    (let s : State := (quiet 0).setCore 0 { (quiet 0).core 0 with run := .halt }; decide (s.frozen = true)),
    (let m : Acc := host; let c : Fin 3 := 0; let s : State := quiet 0;
     let s : State := s.setCore c.val { (s.core c.val) with run := .run, stopDue := some (1, 0) };
     decide (m.debug = false ∧ s.targetOff Reg.DBG_AUTHCTL = false ∧ ((s.core c.val).run = .run ∨ (s.core c.val).run = .wait) ∧
         (s.core c.val).monitor = false ∧ (s.core c.val).stopDue ≠ none)),
    (let m : Acc := host; let c : Fin 3 := 0; let s : State := quiet 0; let s : State := s.setCore c.val { (s.core c.val) with run := .stopped };
     decide (m.debug = false ∧ s.targetOff Reg.DBG_AUTHCTL = false ∧ (s.core c.val).run = .stopped)),
    (let m : Acc := host; let c : Fin 3 := 0; let s : State := quiet 0; let s : State := s.setCore c.val { (s.core c.val) with run := .halt };
     let s : State := s.setF (Reg.DBG_Cc_REGSEL c.val) 4 0 18; decide (m.debug = false ∧ s.targetOff Reg.DBG_AUTHCTL = false ∧ (s.core c.val).run = .halt) &&
         (let n : Nat := s.f (Reg.DBG_Cc_REGSEL c.val) 4 0; decide (17 < n)))].all id = true := by decide +kernel

/-- The premises of the clauses of `PinCommands` are met. -/
theorem wit_PinCommands : [
    (let s : State := quiet 0; let s : State := { s with pwr := { s.pwr with state := 3 } }; decide (s.pclk = false)),
    (let n : Fin 48 := 0; let level : Bool := true; let s : State := quiet 0; (let b : Bool := s.padLevel n.val level;
     (let was : Bool := (s.pin.level[n.val]?).getD false; (let up : Bool := (b != s.bit (Reg.PIN_GPn_CFG n.val) 7); decide (s.pclk = true ∧
         (b = was ∨ bitAt (s.reg (Reg.PIN_GPn_CFG n.val)) (if up then 14 else 15) = false ∨ s.padIdle n.val = true ∨ s.f (Reg.PIN_GPn_CFG n.val) 2 0 = 6)))))),
    (let n : Fin 48 := 0; let level : Bool := true; let s : State := quiet 0; let s : State := s.setReg (Reg.PIN_GPn_CFG n.val) 0xC000;
     (let b : Bool := s.padLevel n.val level; (let was : Bool := (s.pin.level[n.val]?).getD false;
     (let up : Bool := (b != s.bit (Reg.PIN_GPn_CFG n.val) 7); decide (s.pclk = true ∧ b ≠ was ∧
         bitAt (s.reg (Reg.PIN_GPn_CFG n.val)) (if up then 14 else 15) = true ∧ s.padIdle n.val = false ∧ s.f (Reg.PIN_GPn_CFG n.val) 2 0 ≠ 6))))),
    (let s : State := quiet 0; decide (s.img.pinsDue = false)),
    (let s : State := quiet 0; let s : State := { s with img.pinsDue := true }; decide (s.img.pinsDue = true)),
    (let m : Acc := host; let s : State := quiet 0; decide (m.debug = false ∧ s.targetOff Reg.PIN_CTRL = false ∧ s.bit Reg.PIN_CTRL 0 = true)),
    (let m : Acc := host; let s : State := quiet 0; let s : State := s.setBit Reg.PIN_CTRL 0 false; decide (m.debug = false ∧ s.targetOff Reg.PIN_CTRL = false ∧
         s.bit Reg.PIN_CTRL 0 = false)),
    (let m : Acc := host; let v : Word := 0xdeadbeef; let p : Nat := 47; let s : State := quiet 0; decide (m.debug = false ∧ s.targetOff Reg.PIN_CTRL = false ∧
         (fld v 15 8 ≠ 0x4C ∨ (s.pin.lockSeq = none ∧ bitAt v 16 = true) ∨ (∃ q, s.pin.lockSeq = some q ∧ q ≠ p)))),
    (let m : Acc := host; let v : Word := 0xdeac4cef; let s : State := quiet 0; decide (m.debug = false ∧ s.targetOff Reg.PIN_CTRL = false ∧ fld v 15 8 = 0x4C ∧ s.pin.lockSeq = none ∧
         bitAt v 16 = false)),
    (let m : Acc := host; let v : Word := 0xdead4cef; let p : Nat := 47; let s : State := quiet 0;
     let s : State := { s with pin.lockSeq := some (fld v 5 0) }; decide (m.debug = false ∧ s.targetOff Reg.PIN_CTRL = false ∧ fld v 15 8 = 0x4C ∧ s.pin.lockSeq = some p ∧
         bitAt v 16 = true ∧ p < 48)),
    (let s : State := quiet 0; let s : State := { s with pin := { s.pin with lockSeq := some 3 } }; decide (s.pin.lockSeq ≠ none)),
    (let m : Acc := host; let s : State := quiet 0; let s : State := { s with pwr.state := 5 }; decide (m.debug = false ∧ s.targetOff Reg.PIN_CTRL = true)),
    (let m : Acc := host; let v : Word := 0xdeac4cef; let s : State := quiet 0; let s : State := { s with pin.lockSeq := some (fld v 5 0) };
     decide (m.debug = false ∧ s.targetOff Reg.PIN_CTRL = false ∧ fld v 15 8 = 0x4C ∧ s.pin.lockSeq = some (fld v 5 0) ∧ bitAt v 16 = false)),
    (let m : Acc := host; let v : Word := 0xdead4cff; let s : State := quiet 0; let s : State := { s with pin.lockSeq := some (fld v 5 0) };
     decide (m.debug = false ∧ s.targetOff Reg.PIN_CTRL = false ∧ fld v 15 8 = 0x4C ∧ s.pin.lockSeq = some (fld v 5 0) ∧ bitAt v 16 = true ∧ 48 ≤ fld v 5 0)),
    (let s : State := quiet 0; decide (s.pin.lockSeq = none))].all id = true := by decide +kernel

/-- The premises of the clauses of `HostTargets` are met. -/
theorem wit_HostTargets : [
    (let s : State := quiet 0; decide (s.pwr.state = 0 ∧ s.daddr 0 = none ∧ s.daddr 1 = none)),
    (let s : State := quiet 0; let s : State := { s with pwr.state := 2 }; decide (s.pwr.state ≠ 0)),
    (let b : Option (BitVec 7) := none; let s : State := quiet 0; decide (s.daddr 0 = none ∧ (s.daddr 1 ≠ none ∨ b = none))),
    (let a : Option (BitVec 7) := none; let s : State := quiet 0; decide ((s.daddr 0 ≠ none ∨ a = none) ∧ s.daddr 1 = none)),
    (let a : Option (BitVec 7) := some 0; let b : Option (BitVec 7) := none; let s : State := quiet 0;
     let s : State := s.setBit Reg.HI3C_DADDR (8 * 0 + 7) true; decide ((s.daddr 0 ≠ none ∨ a = none) ∧ (s.daddr 1 ≠ none ∨ b = none))),
    (let a : BitVec 7 := 5; let s : State := quiet 0; let s : State := s.setF Reg.HI3C_CFG 6 0 5; decide (a.toNat = s.f Reg.HI3C_CFG 6 0 ∧
         a.toNat ≠ 0 ∧ s.daddr 0 = none ∧ s.pwr.state < 3)),
    (let a : BitVec 7 := 5; let s : State := quiet 0; let s : State := s.setF Reg.HI3C_CFG 6 0 5; let s : State := { s with pwr.state := 3 };
     decide (a.toNat = s.f Reg.HI3C_CFG 6 0 ∧ a.toNat ≠ 0 ∧ s.daddr 0 = none ∧ 3 ≤ s.pwr.state)),
    (let a : BitVec 7 := 37; let s : State := quiet 0; decide (a.toNat ≠ s.f Reg.HI3C_CFG 6 0 ∨ a.toNat = 0 ∨ s.daddr 0 ≠ none)),
    (let x : Fin 2 := 0; let n : Nat := 0; let s : State := quiet 0; let s : State := s.setBit Reg.HI3C_DADDR (8 * x.val + 7) true;
     decide (s.daddr x.val ≠ none ∧ s.pwr.state < 3 ∧ n ≤ 1)),
    (let x : Fin 2 := 0; let n : Nat := 1; let s : State := quiet 0; decide (n ≤ 1 ∧ s.daddr x.val = none)),
    (let x : Fin 2 := 1; let n : Nat := 1; let s : State := quiet 0; let s : State := s.setBit Reg.HI3C_DADDR (8 * x.val + 7) true;
     let s : State := { s with pwr.state := 3 }; decide (n ≤ 1 ∧ s.daddr x.val ≠ none ∧ 3 ≤ s.pwr.state)),
    (let n : Nat := 2; decide (1 < n)),
    (let e : Nat × List Nat := (1, [2]); let rest : List (Nat × List Nat) := []; let s : State := quiet 0;
     let s : State := { s with hi3c.ibis := e :: rest }; let s : State := s.setBit Reg.HI3C_DADDR (8 * e.1 + 7) true; (let H : Hi3cSt := s.hi3c;
     decide (H.ibis = e :: rest ∧ (H.ibiOn[e.1]?).getD false = true ∧ s.daddr e.1 ≠ none ∧
         H.ibis.find? (fun e => (H.ibiOn[e.1]?).getD false && (s.daddr e.1).isSome) = some e))),
    (let s : State := quiet 0; (let H : Hi3cSt := s.hi3c; decide (H.ibis.find? (fun e => (H.ibiOn[e.1]?).getD false && (s.daddr e.1).isSome) = none))),
    (let s : State := quiet 0; decide (s.alertLow = false)),
    (let s : State := quiet 0; let s : State := s.setBit Reg.HI3C_CFG 8 true; (let H : Hi3cSt := s.hi3c; decide (s.bit Reg.HI3C_CFG 8 = true ∧
         H.joined = false ∧ ((s.daddr 0 = none ∧ (H.hjOn[0]?).getD false = true) ∨ (s.daddr 1 = none ∧ (H.hjOn[1]?).getD false = true))))),
    (let s : State := quiet 0; (let H : Hi3cSt := s.hi3c; decide (s.bit Reg.HI3C_CFG 8 = false ∨ H.joined = true))),
    (let s : State := quiet 0; let s : State := (s.setBit Reg.PIN_ALERT 0 true).setBit Reg.HI3C_DADDR 7 true; decide (s.alertLow = true ∧
         s.hi3c.ibis = [] ∧ (s.hi3c.ibiOn[0]?).getD false = true ∧ s.daddr 0 ≠ none))].all id = true := by decide +kernel

/-- The premises of the clauses of `HostTransfers` are met. -/
theorem wit_HostTransfers : [
    (let s : State := (quiet 0).setBit Reg.HI3C_DADDR 7 true; let s : State := (s.setBit Reg.HI3C_CFG 9 true).setReg Reg.MGT_MBINSTAT 15;
     decide (s.daddr 0 ≠ none ∧ s.pwr.state < 3 ∧ s.hostTakes = false)),
    (let s : State := (quiet 0).setBit Reg.HI3C_DADDR 7 true; let s : State := { s with pwr.state := 3 }; decide (s.daddr 0 ≠ none ∧ 3 ≤ s.pwr.state)),
    (let s : State := (quiet 0).setBit Reg.HI3C_DADDR 15 true; let s : State := { s with pwr.state := 3 }; decide (s.daddr 1 ≠ none ∧ 3 ≤ s.pwr.state)),
    (let b : Byte := 120; let s : State := quiet 0; let s : State := s.setBit Reg.HI3C_DADDR 7 true; decide (s.daddr 0 ≠ none ∧ s.pwr.state < 3 ∧ s.hostTakes = true ∧
         (b = 0 ∨ 4 < b.toNat))),
    (let b : Byte := 4; let s : State := quiet 0; let s : State := s.setBit Reg.HI3C_DADDR 7 true; decide (s.daddr 0 ≠ none ∧ s.pwr.state < 3 ∧ s.hostTakes = true ∧ 2 ≤ b.toNat ∧
         b.toNat ≤ 4)),
    (let data : List Byte := [45, 197, 93, 246, 142]; let s : State := quiet 0; let s : State := s.setBit Reg.HI3C_DADDR 7 true;
     decide (s.daddr 0 ≠ none ∧ s.pwr.state < 3 ∧ s.hostTakes = true) && (let bs : List Byte := s.hostCut 1 data; decide (4 ≤ bs.length))),
    (let data : List Byte := [16, 0, 0, 16, 52, 18, 0, 0]; let s : State := quiet 0; let s : State := s.setBit Reg.HI3C_DADDR 7 true;
     decide (s.daddr 0 ≠ none ∧ s.pwr.state < 3 ∧ s.hostTakes = true) && (let bs : List Byte := s.hostCut 1 data; decide (bs.length = 8) &&
         (let w : State := s.setWindow (leNat (bs.take 4)); (match w.busWrite32 hostAcc w.hi3c.ptr (leWord ((bs.drop 4).take 4)) with
       | (_, _) => (true))))),
    (let data : List Byte := [0, 0, 4, 0, 1, 0, 0, 0, 2, 0, 0, 0, 3, 0, 0, 0, 4, 0, 0, 0]; let s : State := quiet 0;
     let s : State := s.setBit Reg.HI3C_DADDR 7 true; decide (s.daddr 0 ≠ none ∧ s.pwr.state < 3 ∧ s.hostTakes = true) && (let bs : List Byte := s.hostCut 1 data; decide (16 ≤ bs.length ∧
         bs.length ≤ 2048 ∧ leNat ((bs.drop 2).take 2) + 16 = bs.length) && (match s.freeInbound with
       | some _ => true
       | _ => false))),
    (let data : List Byte := []; let s : State := quiet 0; let s : State := s.setBit Reg.HI3C_DADDR 7 true; decide (s.daddr 0 ≠ none ∧ s.pwr.state < 3 ∧ s.hostTakes = true) &&
         (let bs : List Byte := s.hostCut 1 data; decide (bs.length < 16 ∨ 2048 < bs.length ∨ leNat ((bs.drop 2).take 2) + 16 ≠ bs.length))),
    (let s : State := quiet 0; decide (s.daddr 0 = none)),
    (let s : State := quiet 0; decide (s.daddr 1 = none)),
    (let n : Nat := 4; let s : State := quiet 0; let s : State := s.setBit Reg.HI3C_DADDR (8 * 0 + 7) true; decide (s.daddr 0 ≠ none ∧ s.pwr.state < 3) &&
         (match s.hi3c.mrl[0]? with
       | some r => (decide (min n r = 4 ∧ s.hi3c.slot = none) && (match s.busRead32 hostAcc s.hi3c.ptr with
         | (0, _, _) => true
         | _ => false))
       | _ => false)),
    (let n : Nat := 256; let k : Nat := 3; let s : State := quiet 0; let s : State := s.setBit Reg.HI3C_DADDR (8 * 0 + 7) true;
     let s : State := { s with hi3c.slot := some (k, 0) }; let s : State := s.setBit Reg.MGT_MBOUTSTAT k true;
     let s : State := s.setBit (Reg.MGT_MBOUTs_DST k) 14 true; decide (s.daddr 0 ≠ none ∧ s.pwr.state < 3) && (match s.hi3c.mrl[0]? with
       | some r => (decide (s.hi3c.slot = some (k, 0) ∧ k < 4) && (let len : Nat := fld (s.reg (Reg.MGT_MBOUTs k 0)) 31 16 + 16;
       decide (s.bit Reg.MGT_MBOUTSTAT k = true ∧ s.bit (Reg.MGT_MBOUTs_DST k) 14 = true ∧ len ≤ min n r)))
       | _ => false)),
    (let n : Nat := 4; let k : Nat := 3; let s : State := quiet 0; let s : State := s.setBit Reg.HI3C_DADDR (8 * 0 + 7) true;
     let s : State := { s with hi3c.slot := some (k, 0) }; let s : State := s.setBit Reg.MGT_MBOUTSTAT k true;
     let s : State := s.setBit (Reg.MGT_MBOUTs_DST k) 14 true; decide (s.daddr 0 ≠ none ∧ s.pwr.state < 3) && (match s.hi3c.mrl[0]? with
       | some r => (decide (s.hi3c.slot = some (k, 0) ∧ k < 4) && (let len : Nat := fld (s.reg (Reg.MGT_MBOUTs k 0)) 31 16 + 16;
       decide (s.bit Reg.MGT_MBOUTSTAT k = true ∧ s.bit (Reg.MGT_MBOUTs_DST k) 14 = true ∧ min n r < len)))
       | _ => false)),
    (let x : DbgResp := { tag := 0, status := 0, level := 0, count := 0, addr := 0, data := [] }; let s : State := quiet 0;
     let s : State := s.setBit Reg.HI3C_DADDR (8 * 1 + 7) true; let s : State := { s with dbg.hostResp := some x }; decide (s.daddr 1 ≠ none ∧ s.pwr.state < 3) &&
         (match s.hi3c.mrl[1]? with
       | some _ => (decide (s.dbg.hostResp = some x))
       | _ => false)),
    (let data : List Byte := leBytes 4 7 ++ [0, 0, 1, 0] ++ leBytes 4 0x10000100; let s : State := quiet 0;
     let s : State := s.setBit Reg.HI3C_DADDR (8 * 1 + 7) true; let s : State := { s with sec.level := 2 }; decide (s.daddr 1 ≠ none ∧ s.pwr.state < 3) &&
         (match s.hi3c.mwl[1]? with
       | some r => ((let bs : List Byte := data.take r; decide (s.debugBusy none = false ∧ leNat ((bs.drop 4).take 1) = 0 ∧
           leNat ((bs.drop 6).take 2) = 1 ∧ leNat ((bs.drop 8).take 4) % 4 = 0) && (match s.busRead32 debugAcc (leNat ((bs.drop 8).take 4)) with
         | (0, _, _) => true
         | _ => false)))
       | _ => false)),
    (let s : State := quiet 0; let s : State := s.setBit Reg.HI3C_DADDR (8 * 1 + 7) true;
     let s : State := { s with dbg := { s.dbg with verify := [some (0, 0, none)] } }; decide (s.daddr 1 ≠ none ∧ s.pwr.state < 3 ∧ s.debugBusy none = true) &&
         (match s.hi3c.mwl[1]? with
       | some _ => true
       | _ => false)),
    (let data : List Byte := [1, 2, 3]; let s : State := (quiet 0).setBit Reg.HI3C_DADDR 7 true; decide (s.daddr 0 ≠ none ∧ s.pwr.state < 3 ∧
         s.hostTakes = true ∧ (s.hostCut 1 data).length < 4)),
    (let n : Nat := 8; let s : State := (quiet 0).setBit Reg.HI3C_DADDR 7 true; let s : State := { s with hi3c.slot := some (2, 4) };
     decide (s.daddr 0 ≠ none ∧ s.pwr.state < 3 ∧ (s.hi3c.mrl[0]?).isSome = true ∧ s.hi3c.slot = some (2, 4) ∧ n = 8)),
    (let s : State := (quiet 0).setBit Reg.HI3C_DADDR 15 true; decide (s.daddr 1 ≠ none ∧ s.pwr.state < 3 ∧ (s.hi3c.mrl[1]?).isSome = true ∧
         s.dbg.hostResp = none))].all id = true := by decide +kernel

/-- The premises of the clauses of `CabinetAndFlash` are met. -/
theorem wit_CabinetAndFlash : [
    (let s : State := quiet 0; decide (s.bit Reg.CI3C_CTRL 0 = false ∨ s.ci3c.cmds = [])),
    (let v : Word := 255; let rest : List Word := []; let s : State := quiet 5; let s : State := s.setBit Reg.CI3C_CTRL 0 true;
     let s : State := { s with ci3c.cmds := v :: rest }; decide (s.bit Reg.CI3C_CTRL 0 = true ∧ s.ci3c.cmds = v :: rest ∧
         (8 < fld v 3 0 ∨ ((fld v 3 0 = 5 ∨ fld v 3 0 = 6) ∧ s.bit Reg.CI3C_CTRL 1 = false)))),
    (let v : Word := 1; let rest : List Word := []; let s : State := quiet 0; let s : State := s.setBit Reg.CI3C_CTRL 0 true;
     let s : State := { s with ci3c.cmds := v :: rest }; decide (s.bit Reg.CI3C_CTRL 0 = true ∧ s.ci3c.cmds = v :: rest ∧
         (fld v 3 0 = 1 ∨ fld v 3 0 = 8))),
    (let v : Word := 0; let rest : List Word := []; let s : State := quiet 0; let s : State := s.setBit Reg.CI3C_CTRL 0 true;
     let s : State := { s with ci3c.cmds := v :: rest }; decide (s.bit Reg.CI3C_CTRL 0 = true ∧ s.ci3c.cmds = v :: rest ∧ fld v 3 0 ≤ 3 ∧
         fld v 3 0 ≠ 1)),
    (let d : Fin 16 := 0; let s : State := quiet 0; decide (s.bit Reg.CI3C_CTRL 0 = false ∨ s.bit (Reg.CI3C_DEVn d.val) 9 = false)),
    (let d : Fin 16 := 0; let s : State := quiet 0; let s : State := s.setBit Reg.CI3C_CTRL 0 true;
     let s : State := s.setBit (Reg.CI3C_DEVn d.val) 9 true; decide (s.bit Reg.CI3C_CTRL 0 = true ∧ s.bit (Reg.CI3C_DEVn d.val) 9 = true ∧
         s.bit (Reg.CI3C_DEVn d.val) 10 = false)),
    (let s : State := quiet 0; decide (s.bit Reg.CI3C_CTRL 0 = false ∨ s.bit Reg.CI3C_CTRL 2 = false)),
    (let s : State := quiet 0; let s : State := s.setBit Reg.CI3C_CTRL 0 true; let s : State := s.setBit Reg.CI3C_CTRL 2 true;
     let s : State := s.setF (Reg.CI3C_DEVn 0) 6 0 1; decide (s.bit Reg.CI3C_CTRL 0 = true ∧ s.bit Reg.CI3C_CTRL 2 = true ∧
         s.f (Reg.CI3C_DEVn 0) 6 0 ≠ 0 ∧ s.bit (Reg.CI3C_DEVn 0) 8 = false ∧ s.ci3c.used.contains 0 = false)),
    (let m : Acc := host; let w : Word := 0xdeadbeef; let rest : List Word := []; let s : State := quiet 0;
     let s : State := { s with ci3c.ibiq := w :: rest }; decide (m.debug = false ∧ s.targetOff Reg.XSPI_CMD = false ∧ s.ci3c.ibiq = w :: rest)),
    (let m : Acc := host; let s : State := quiet 0; decide (m.debug = false ∧ s.targetOff Reg.XSPI_CMD = false ∧ s.ci3c.ibiq = [])),
    (let m : Acc := ⟨14, false, false, false⟩; let s : State := quiet 0; let s : State := { s with xspi := { s.xspi with run := some (0, 0) } };
     decide (m.debug = false ∧ s.targetOff Reg.XSPI_CMD = false ∧ m.alle = true ∧ s.xspi.run ≠ none)),
    (let m : Acc := ⟨14, false, false, false⟩; let w : Word := 0xd6adbeef; let s : State := quiet 0; decide (m.debug = false ∧ s.targetOff Reg.XSPI_CMD = false ∧ m.alle = true ∧
         s.xspiRejects w = true)),
    (let m : Acc := ⟨14, false, false, false⟩; let w : Word := 0x00000101; let s : State := quiet 5; decide (m.debug = false ∧ s.targetOff Reg.XSPI_CMD = false ∧ m.alle = true ∧
         s.xspiRejects w = false)),
    (let m : Acc := ⟨14, false, false, false⟩; let s : State := quiet 0; decide (m.debug = false ∧ s.targetOff Reg.XSPI_CMD = false ∧ m.alle = true ∧ s.xspi.fifo.length + 4 ≤ 256)),
    (let m : Acc := ⟨14, false, false, false⟩; let s : State := quiet 0;
     let s : State := { s with xspi := { s.xspi with fifo := List.replicate 253 0 } }; decide (m.debug = false ∧ s.targetOff Reg.XSPI_CMD = false ∧ m.alle = true ∧
         256 < s.xspi.fifo.length + 4)),
    (let m : Acc := ⟨14, false, false, false⟩; let s : State := quiet 0; decide (m.debug = false ∧ s.targetOff Reg.XSPI_CMD = false ∧ m.alle = true ∧ s.xspi.fifo = [])),
    (let m : Acc := ⟨14, false, false, false⟩; let s : State := quiet 0; let s : State := { s with xspi := { s.xspi with fifo := [1,2,3,4,5] } };
     decide (m.debug = false ∧ s.targetOff Reg.XSPI_CMD = false ∧ m.alle = true ∧ s.xspi.fifo ≠ [])),
    (let s : State := quiet 0; decide (s.xspi.run = none ∨ s.bit Reg.XSPI_CTRL 0 = false ∨ s.xspi.polling = true)),
    (let v : Word := 0xd6adbeef; let a : Word := 0x80000000; let s : State := quiet 0; let s : State := { s with xspi.run := some (v, a) };
     decide (s.xspi.run = some (v, a) ∧ s.bit Reg.XSPI_CTRL 0 = true ∧ s.xspi.polling = false ∧ bitAt v 27 = false)),
    (let v : Word := 0xdeadbeef; let a : Word := 0x80000000; let b : Byte := 64; let s : State := quiet 0;
     let s : State := { s with xspi.run := some (v, a) }; decide (s.xspi.run = some (v, a) ∧ s.bit Reg.XSPI_CTRL 0 = true ∧ s.xspi.polling = false ∧
         bitAt v 27 = true ∧ b.toNat &&& s.f Reg.XSPI_POLL 7 0 = s.f Reg.XSPI_POLL 15 8)),
    (let v : Word := 0x08003ca5; let a : Word := 7; let b : Byte := 153; let s : State := quiet 5;
     let s : State := { s with xspi.run := some (v, a) }; decide (s.xspi.run = some (v, a) ∧ s.bit Reg.XSPI_CTRL 0 = true ∧ s.xspi.polling = false ∧
         bitAt v 27 = true ∧ b.toNat &&& s.f Reg.XSPI_POLL 7 0 ≠ s.f Reg.XSPI_POLL 15 8)),
    (let s : State := quiet 0; decide (s.xspi.run = none ∨ s.xspi.polling = false)),
    (let v : Word := 0xdeadbeef; let a : Word := 0x80000000; let s : State := quiet 0; let s : State := { s with xspi.run := some (v, a) };
     let s : State := { s with xspi.polling := true }; decide (s.xspi.run = some (v, a) ∧ s.xspi.polling = true)),
    (let s : State := quiet 0; decide (s.xspi.run = none ∨ s.f Reg.XSPI_POLL 31 16 = 0)),
    (let v : Word := 0xdeadbeef; let a : Word := 0x80000000; let s : State := quiet 0; let s : State := { s with xspi.run := some (v, a) };
     let s : State := s.setF Reg.XSPI_POLL 31 16 1; decide (s.xspi.run = some (v, a) ∧ bitAt v 27 = true ∧ s.f Reg.XSPI_POLL 31 16 ≠ 0)),
    (let m : Acc := host; let s : State := quiet 0; decide (m.debug = false ∧ s.targetOff Reg.CI3C_CMD = false ∧ s.targetOff Reg.CI3C_RXD = false)),
    (let m : Acc := host; let s : State := quiet 0; let s : State := { s with pwr.state := 5 }; decide (m.debug = false ∧ s.targetOff Reg.CI3C_CMD = true)),
    (let m : Acc := host; let s : State := quiet 0; decide (m.debug = false ∧ m.alle = false ∧ s.targetOff Reg.XSPI_CMD = false)),
    (let r : Fin 4 := 1; let s : State := (quiet 0).setBit Reg.CI3C_CTRL 0 true; let s : State := { s with ci3c.cmds := [0] };
     decide (s.bit Reg.CI3C_CTRL 0 = true ∧ s.ci3c.cmds = [0] ∧ r.val = 1 ∧ s.ci3cRejects (fld (0 : Word) 3 0) = false)),
    (let r : Fin 4 := 2; let s : State := (quiet 0).setBit Reg.CI3C_CTRL 0 true; let s : State := { s with ci3c.cmds := [0] };
     decide (s.bit Reg.CI3C_CTRL 0 = true ∧ s.ci3c.cmds = [0] ∧ (r.val = 2 ∨ r.val = 3) ∧ s.ci3cRejects (fld (0 : Word) 3 0) = false)),
    (let d : Fin 16 := 0; let p : List Byte := [7]; let s : State := quiet 0; let s : State := s.setBit Reg.CI3C_CTRL 0 true;
     let s : State := (s.setBit (Reg.CI3C_DEVn d.val) 9 true).setBit (Reg.CI3C_DEVn d.val) 10 true; decide (p = 7 :: [] ∧ s.bit Reg.CI3C_CTRL 0 = true ∧
         s.bit (Reg.CI3C_DEVn d.val) 9 = true ∧ s.bit (Reg.CI3C_DEVn d.val) 10 = true)),
    (let s : State := (quiet 0).setBit Reg.CI3C_CTRL 0 true; let s : State := s.setBit Reg.CI3C_CTRL 2 true;
     decide (s.bit Reg.CI3C_CTRL 0 = true ∧ s.bit Reg.CI3C_CTRL 2 = true ∧ (List.range 16).find? (fun n =>
         decide (s.f (Reg.CI3C_DEVn n) 6 0 ≠ 0) && !s.bit (Reg.CI3C_DEVn n) 8 && !s.ci3c.used.contains n) = none)),
    (let v : Word := 0; let a : Word := 0x80000000; let s : State := quiet 0; let s : State := { s with xspi.run := some (v, a) };
     decide (s.xspi.run = some (v, a) ∧ bitAt v 27 = false))].all id = true := by decide +kernel

/-- The premises of the clauses of `RegisterAccess` are met. -/
theorem wit_RegisterAccess : [
    (let m : Acc := host; let a : Nat := 0x40030002; let size : Nat := 1; let s : State := quiet 0; decide (m.debug = false ∧
         s.bit Reg.MRC_ERRINFO 31 = false ∧ s.targetOff a = false ∧ inRegs a = true ∧ (size ≠ 4 ∨ a % 4 ≠ 0))),
    (let m : Acc := host; let a : Nat := 0x4ffffffc; let s : State := quiet 0; decide (m.debug = false ∧ s.bit Reg.MRC_ERRINFO 31 = false ∧
         s.targetOff a = false ∧ inRegs a = true ∧ a % 4 = 0 ∧ regEnd ≤ a)),
    (let m : Acc := ⟨10, false, false, false⟩; let a : Nat := 0x40140000; let s : State := quiet 0; decide (m.debug = false ∧
         s.bit Reg.MRC_ERRINFO 31 = false ∧ s.targetOff a = false ∧ inRegs a = true ∧ a % 4 = 0 ∧ a < regEnd ∧ m.alle = false ∧
         (blockOf a = 20 ∨ blockOf a = 23 ∨ blockOf a = 25))),
    (let m : Acc := ⟨10, false, false, false⟩; let a : Nat := 0x40140000; let s : State := quiet 0; decide (m.debug = false ∧
         s.bit Reg.MRC_ERRINFO 31 = false ∧ s.targetOff a = false ∧ inRegs a = true ∧ a % 4 = 0 ∧ a < regEnd ∧ m.alle = false ∧ (blockOf a = 20 ∨ blockOf a = 25))),
    (let m : Acc := host; let a : Nat := 0x40030002; let s : State := quiet 0; decide (m.debug = false ∧ s.bit Reg.MRC_ERRINFO 31 = false ∧
         s.targetOff a = false ∧ inRegs a = true ∧ a % 4 ≠ 0)),
    (let m : Acc := host; let a : Nat := 0x40030002; let s : State := quiet 0; let s : State := s.setBit Reg.MRC_ERRINFO 31 true;
     decide (m.debug = false ∧ s.bit Reg.MRC_ERRINFO 31 = true ∧ s.targetOff a = false ∧ inRegs a = true ∧ a % 4 ≠ 0)),
    (let m : Acc := host; let a : Nat := 0x40030000; let s : State := quiet 0; let s : State := { s with pwr.state := 5 };
     decide (m.debug = false ∧ s.bit Reg.MRC_ERRINFO 31 = false ∧ s.targetOff a = true)),
    (let m : Acc := ⟨10, false, false, false⟩; let a : Nat := Reg.EVR_LOGt_GO 1; let v : Word := 0; let s : State := quiet 0; decide (m.debug = false ∧
         s.bit Reg.MRC_ERRINFO 31 = false ∧ s.targetOff a = false ∧ inRegs a = true ∧ a % 4 = 0 ∧ a < regEnd ∧ regProt m a true v = true)),
    (let s : State := quiet 0; decide (s.targetOff Reg.BLK_CLIPLO = false)),
    (let m : Acc := host; let a : Nat := Reg.EVR_STAT; let v : Word := 7; let s : State := quiet 0; decide ((m.debug = false ∨ s.debugAllows a true = true) ∧
         s.targetOff a = false ∧ inRegs a = true ∧ a % 4 = 0 ∧ a < regEnd ∧ regProt m a true v = false ∧ regProt m a false 0 = false)),
    (let m : Acc := probe; let a : Nat := Reg.EVR_STAT; let v : Word := 7; let s : State := { quiet 0 with sec := { (quiet 0).sec with level := 2 } };
     decide (m.debug = true ∧ s.debugAllows a true = true ∧ s.debugAllows a false = true ∧ s.targetOff a = false ∧ regProt m a true v = false)),
    (let m : Acc := probe; let a : Nat := Reg.EVR_STAT; let s : State := quiet 0;
     decide (m.debug = true ∧ s.debugAllows a true = false ∧ s.debugAllows a false = false)),
    (let m : Acc := host; let a : Nat := 0x40140000; let s : State := quiet 0; decide (m.debug = false ∧ s.targetOff a = false ∧ inRegs a = true ∧ a % 4 = 0 ∧
         a < regEnd ∧ regProt m a false 0 = true ∧ regProt m a true 0 = true)),
    (let m : Acc := host; let a : Nat := 0x30000000; let s : State := quiet 0; decide (m.debug = false ∧ s.targetOff a = false ∧ inRegs a = false ∧
         State.memProt m a true = true)),
    (let m : Acc := host; let a : Nat := 0x20000000; let s : State := quiet 0; decide (m.debug = false ∧ s.targetOff a = false ∧ inRegs a = false ∧
         State.memProt m a true = false)),
    (let m : Acc := host; let a : Nat := Reg.QDL_HOLDS; let s : State := quiet 0; decide (m.debug = false ∧ (s.askRead m a).answer.code = 0 ∧
         (RegMap.find a).isSome = true)),
    (let m : Acc := host; let a : Nat := 0x40030002; let s : State := quiet 0; decide ((s.askRead m a).answer.code ≠ 0))].all id = true := by decide +kernel

/-- The premises of the clauses of `StepRunsTheFrontCommand` are met. -/
theorem wit_StepRunsTheFrontCommand : [
    (let c : Instr := .beamStop; let rest : List Instr := []; let s : State := quiet 0; let s : State := { s with pending := c :: rest };
     decide (s.pending = c :: rest))].all id = true := by decide +kernel

/-- The premises of the clauses of `IdleStepIsOneCycle` are met. -/
theorem wit_IdleStepIsOneCycle : [
    (let s : State := quiet 0; decide (s.pending = []))].all id = true := by decide +kernel

/-- The premises of the clauses of `ResetState` are met. -/
theorem wit_ResetState : [
    (let c : Nat := 0; decide (c < 3))].all id = true := by decide +kernel

/-- The premises of the clauses of `EveryCommandCompletes` are met. -/
theorem wit_EveryCommandCompletes : [
].all id = true := by decide +kernel

/-! Witnesses that need more than evaluation. -/

/-- The premises of BOOT's flash clauses of `ImageUpdates` are met: whatever the addresses of the two boot records, they can hold 0x0F and 0x3F. -/
theorem wit_ImageUpdates_flash (v : Byte) : ∃ s : State, s.fab.bootStopped = false ∧ s.fab.marching = false ∧ s.pwr.released = true ∧ s.sec.life ≠ 4 ∧ s.img.bootWait = false ∧
    s.flashByte (recordAt 1 0) = v ∧ s.flashByte (recordAt 2 0) = v := by
  have h : (quiet 0).fab.bootStopped = false ∧ (quiet 0).fab.marching = false ∧ (quiet 0).pwr.released = true ∧ (quiet 0).sec.life ≠ 4 ∧ (quiet 0).img.bootWait = false := by
    decide +kernel
  refine ⟨{ quiet 0 with img := { (quiet 0).img with
    flash := Sparse.set flashDefault (Sparse.set flashDefault [] (recordAt 1 0) v) (recordAt 2 0) v } }, h.1, h.2.1, h.2.2.1, h.2.2.2.1, h.2.2.2.2, ?_, ?_⟩
  · simp only [State.flashByte, Sparse.get_set]; split <;> simp
  · simp [State.flashByte]

/-- The premises of `StepsKeepMemoryCanonical` are met by the state after reset, whose step is one FCLK. -/
theorem wit_StepsKeepMemoryCanonical : Sparse.wf memDefault State.reset.mem = true ∧ step State.reset = .next State.reset.tick := ⟨by decide, rfl⟩

/-- The premises of `ClearingReads` are met: QDL_HOLDS is a register with an RC field that the host reaches. -/
theorem wit_ClearingReads : (match RegMap.find Reg.QDL_HOLDS with
    | some (r, _) => decide (r.rc ≠ 0 ∧ MayRead host Reg.QDL_HOLDS ∧ (quiet 0).targetOff Reg.QDL_HOLDS = false)
    | none => false) = true := by decide +kernel

/-- The premises of `IdentificationRegisters` are met, at each of the three registers. -/
theorem wit_IdentificationRegisters : host.debug = false ∧ (quiet 0).targetOff Reg.SYS_PARTID = false ∧ [Reg.SYS_PARTID, Reg.SYS_REV, Reg.SYS_VARIANT].all
    (fun a => decide (a = Reg.SYS_PARTID ∨ a = Reg.SYS_REV ∨ a = Reg.SYS_VARIANT)) = true := by decide +kernel

/-! Every well-formedness check refuses an ill-formed command and lets a well-formed one pass. -/

theorem test_ill_formed_access :
    (Instr.beamPosRead { host with port := 16 }).defects = [.port] ∧ (Instr.registerWrite host 0x40000000 3 0 0).defects = [.size] ∧
      (Instr.registerWrite host (2 ^ 32) 4 0 0).defects = [.address] ∧ (Instr.beamRun host 4).defects = [.subframe] ∧
      (Instr.registerWrite host 0x40000000 4 0 0).wf = true := by decide

theorem test_ill_formed_beam :
    (Instr.beamStep ⟨0, 8192, 0⟩).defects = [.position] ∧ (Instr.ptpAnnounce 0 ⟨0, 256, 0, 0, 0, 0, 0, 0⟩).defects = [.announce] ∧
      (Instr.streamWindowUpdate 0 [⟨8, false, 0, 0, 0⟩]).defects = [.request] ∧ (Instr.beamStep ⟨3, 8191, 16383⟩).wf = true ∧
      (Instr.structureSetSwap ⟨0, 0, 0, 0, 4, 0, 0⟩).defects = [.pair] ∧ (Instr.marchTestDone [⟨0, 1, 0, 0⟩]).defects = [.march] ∧
      (Instr.structureSetSwap ⟨0, 0, 0, 0, 3, 0, 0⟩).wf = true ∧ (Instr.marchTestDone [⟨0, 6, 131071, 0⟩]).wf = true := by decide

theorem test_ill_formed_link :
    (Instr.frameForward .ringA true (frameOf 16 0 0 [])).defects = [.frame] ∧ (Instr.vote .ringA true (frameOf 16 0 0 [])).defects = [.frame] ∧
      (Instr.beamSample []).defects = [.length] ∧ (Instr.votecut 0).wf = true ∧ (Instr.ptpDelayResp 256 0 0).defects = [.value] := by decide

/-! Instruction words written out from the encodings of Tables 12.4, 12.5 and 12.7. -/

theorem test_encodings :
    encR 0x01 3 1 2 = 0b000001_0011_0001_0010_00000000000000#32 ∧ encI 0x20 4 14 0x3FFFC = 0b100000_0100_1110_111111111111111100#32 ∧
      encJ 0x30 (-1) = 0b110000_11111111111111111111111111#32 ∧ encY 1 0 5 0x04 = 0b111101_0000_0101_000000_00000100_0001#32 ∧
      encY 7 0 0 0x123 = 0b111101_0000_0000_00000100100011_0111#32 := by decide

/-! Single commands, against numbers worked out from the spec. -/

/-- What command `c` leaves, where it completes. -/
def after (c : Instr) (s : State) (f : State → Bool) : Bool := match exec c s with | .next t => f t | _ => false

/-- SUB wraps: 6 - 7 is 0xFFFF_FFFF (Table 12.5); nothing but r3 changes and the PC moves on. -/
theorem test_sub_wraps : after (.gvSub 1 3 1 2) (coreAt 1 (encR 0x01 3 1 2) (quiet 0))
    (fun t => decide ((t.core 1).r 3 = 0xFFFFFFFF ∧ (t.core 1).r 1 = 6 ∧ (t.core 1).pc = 0x08000104)) = true := by decide +kernel

/-- ADDI sign-extends its 18-bit immediate: 6 + (-7); where another word stands at the PC it does nothing. -/
theorem test_addi_signed : (after (.gvAddi 0 1 1 0x3FFF9) (coreAt 0 (encI 0x10 1 1 0x3FFF9) (quiet 0)) (fun t => decide ((t.core 0).r 1 = 0xFFFFFFFF)) &&
    after (.gvAddi 0 1 1 0x3FFF9) (coreAt 0 (encI 0x13 1 1 0x3FFF9) (quiet 0)) (fun t => decide ((t.core 0).r 1 = 6))) = true := by
  decide +kernel

/-- PERM takes byte 1 of RA, byte 0 of the old RD, zero and 0xFF, from nibble 0 on (R320): RA = 0x1000_0000, RD = 8. -/
theorem test_perm : after (.gvPerm 2 3 13 0x9843) (coreAt 2 (wd (0x3C * 2 ^ 26 + 3 * 2 ^ 22 + 13 * 2 ^ 18 + 0x9843)) (quiet 0))
    (fun t => decide ((t.core 2).r 3 = 0xFF000810)) = true := by decide +kernel

/-- SYSC enters at EVBASE + 0x50 with its code in FINFO and the next instruction's address stacked (R329, Table 12.8). -/
theorem test_sysc : after (.gvSysc 0 0x123) (coreAt 0 (encY 7 0 0 0x123) (quiet 0))
    (fun t => decide ((t.core 0).pc = 0x150 ∧ bitAt (t.core 0).st 4 = true ∧ (t.core 0).fpc = 0x08000100)) = true := by decide +kernel

/-- FRAME_START increments the frame counter and stands at 0:0 (R20, R11). -/
theorem test_frame_start : after (.frameStart 0) ((quiet 0).setBit Reg.BEAM_CTRL 0 true)
    (fun t => decide (t.beam.frame = 6 ∧ t.beam.pos = ⟨0, 0, 0⟩)) = true := by decide +kernel

/-- A plain 32-bit write and an out-of-size write (R5, Table 3.4). -/
theorem test_register_sizes :
    (after (.registerWrite host Reg.BEAM_DEADLINE 4 0x00050001 0) (quiet 0) (fun t => decide (t.answer.code = 0 ∧ t.shd Reg.BEAM_DEADLINE = 0x00050001)) &&
      after (.registerWrite host Reg.BEAM_DEADLINE 2 1 0) (quiet 0)
        (fun t => decide (t.answer.code = 7 ∧ t.shd Reg.BEAM_DEADLINE = 0 ∧ t.reg Reg.BEAM_DEADLINE = 0x000A0005))) = true := by
  decide +kernel

/-- The encoding table gives no row any bits. -/
theorem test_no_table_word (n w : Nat) : Sys2Proof.decodeTableWord n w = none := rfl

/-- A step runs the front command and drops it from the queue. -/
theorem test_step_front : (match step { quiet 0 with pending := [.frameStart 0, .beamStop] } with
    | .next t => decide (t.pending = [.beamStop])
    | _ => false) = true := by decide +kernel

end Sys2Proof.Tests
end

section
/-! SUPPORT. What the register table says of an address: a register found lies at one of the addresses that its row spans. -/

namespace Sys2Proof

/-- The address of every element of the row. -/
def RegRow.addrs (r : RegRow) : List Nat :=
  (List.range r.n1).flatMap fun i => (List.range r.n2).flatMap fun j => (List.range r.n3).map fun k =>
    r.base + r.s1 * i + r.s2 * j + r.s3 * k

theorem RegRow.mem_addrs_of_find {r : RegRow} {a i : Nat} (h : r.find a = some i) : a ∈ r.addrs := by
  unfold RegRow.find at h
  split at h
  · cases h
  · dsimp only at h
    split at h
    · rename_i hle hin
      obtain ⟨hi, hj, hk, hmod⟩ := hin
      simp only [RegRow.addrs, List.mem_flatMap, List.mem_map, List.mem_range]
      refine ⟨_, hi, _, hj, _, hk, ?_⟩
      have h1 := Nat.div_add_mod (a - r.base) r.s1
      have h2 := Nat.div_add_mod ((a - r.base) % r.s1) r.s2
      have h3 := Nat.div_add_mod ((a - r.base) % r.s1 % r.s2) r.s3
      omega
    · cases h

/-- No bit of the row can be changed by an access. -/
abbrev RegRow.ReadOnly (r : RegRow) : Prop := r.rw = 0 ∧ r.w1c = 0 ∧ r.w1s = 0 ∧ r.rc = 0 ∧ r.shm = 0

namespace RegMap

theorem mem_of_findIn {rows : List RegRow} {a i : Nat} {r : RegRow} (h : findIn rows a = some (r, i)) :
    r ∈ rows ∧ r.find a = some i := by
  induction rows with
  | nil => cases h
  | cons q rows ih =>
    unfold findIn at h
    split at h
    · rename_i j hq
      obtain ⟨rfl, rfl⟩ := Prod.mk.inj (Option.some.inj h)
      exact ⟨List.mem_cons_self, hq⟩
    · exact ⟨List.mem_cons_of_mem _ (ih h).1, (ih h).2⟩

/-- Every row of the register table, in the order of the blocks (Table 0.8). -/
def rows : List RegRow := (List.range 27).flatMap rowsOf

theorem rowsOf_subset_rows (b : Nat) : rowsOf b ⊆ rows := by
  intro r hr
  by_cases hb : b < 27
  · exact List.mem_flatMap.mpr ⟨b, List.mem_range.mpr hb, hr⟩
  · obtain ⟨n, rfl⟩ := Nat.exists_eq_add_of_le' (Nat.le_of_not_lt hb)
    cases hr

theorem mem_of_find {a i : Nat} {r : RegRow} (h : find a = some (r, i)) : r ∈ rows ∧ a ∈ r.addrs := by
  unfold find at h
  split at h
  · obtain ⟨hr, ha⟩ := mem_of_findIn h
    exact ⟨rowsOf_subset_rows _ hr, RegRow.mem_addrs_of_find ha⟩
  · cases h

/-- No row has both RC and SH bits. -/
theorem rows_rc_or_shm : ∀ r ∈ rows, r.rc = 0 ∨ r.shm = 0 := by decide +kernel

end RegMap
end Sys2Proof
end

section
/-! SUPPORT. What a permitted access to a register returns and leaves. -/

namespace Sys2Proof.Machine

@[simp] theorem leWord_leBytes (w : Word) : leWord (leBytes 4 w.toNat) = w := by
  simp only [leWord, wd, leNat_leBytes]
  exact BitVec.eq_of_toNat_eq (by simpa using w.isLt)

/-- The mask of all bits, as `simp` writes it out. -/
@[simp] theorem and_allOnes_word (x : Word) : x &&& 0xFFFFFFFF#32 = x := BitVec.and_allOnes

/-- `a` is a word of the register window. -/
abbrev RegWord (a : Nat) : Prop := inRegs a = true ∧ a % 4 = 0 ∧ a < regEnd

/-- The bus denies only a debug access that the level in force does not permit (Table 20.1). -/
theorem State.not_denied {m : Acc} {s : State} {a : Nat} {write : Bool} (h : m.debug = false ∨ s.debugAllows a write = true) :
    (m.debug && !s.debugAllows a write) = false := by
  rcases h with h | h <;> simp [h]

/-- A permitted read of a register with power answers with its value and leaves what the read leaves. -/
theorem State.askRead_of_regRead {m : Acc} {a : Nat} {s t : State} {w : Word} (hm : m.debug = false ∨ s.debugAllows a false = true)
    (hoff : s.targetOff a = false) (ha : RegWord a) (hp : regProt m a false 0 = false) (h : s.regRead m a = (w, t)) :
    s.askRead m a = t.reply 0 w := by
  obtain ⟨hin, hal, hend⟩ := ha
  have hd := State.not_denied hm
  have hbus : s.busRead m a 4 = (0, leBytes 4 w.toNat, t) := by
    simp only [State.busRead, hd, hoff, hin, hal, Nat.not_le.mpr hend, hp, h, ne_eq, not_true_eq_false, or_self, if_true, if_false, Bool.false_eq_true]
  simp [State.askRead, State.busRead32, hbus]

/-- A permitted write of a word to a register with power is the register's write. -/
theorem State.busWrite_word {m : Acc} {a : Nat} {s : State} {v : Word} (hm : m.debug = false ∨ s.debugAllows a true = true)
    (hoff : s.targetOff a = false) (ha : RegWord a) (hp : regProt m a true v = false) :
    s.busWrite m a (leBytes 4 v.toNat) = (0, s.regWrite m a v) := by
  obtain ⟨hin, hal, hend⟩ := ha
  have hd := State.not_denied hm
  simp [State.busWrite, hd, hoff, hin, hal, Nat.not_le.mpr hend, hp]

/-- A clearing read returns and leaves what the plain read does, but that the RC bits of the event are set after it (R10). -/
theorem exec_rcRegisterRead_of_regRead {m : Acc} {a i : Nat} {e w : Word} {s t : State} {r : RegRow} (hf : RegMap.find a = some (r, i))
    (hm : m.debug = false) (hoff : s.targetOff a = false) (ha : RegWord a) (hp : regProt m a false 0 = false) (h : s.regRead m a = (w, t)) :
    exec (.rcRegisterRead m a e) s = .next ((t.setReg a (t.reg a ||| (e &&& r.rc))).reply 0 w) := by
  have hr := State.askRead_of_regRead (.inl hm) hoff ha hp h
  have hc : (t.reply 0 w).answer.code = 0 := rfl
  change execRcRegisterRead m a e s = .next ((t.reply 0 w).setReg a ((t.reply 0 w).reg a ||| (e &&& r.rc)))
  simp [execRcRegisterRead, hr, hf, hm, hc]

/-- A permitted word write with no W1C event in its FCLK is the register's write and an answer without an error. -/
theorem exec_registerWrite_word {m : Acc} {a i : Nat} {v : Word} {s : State} {r : RegRow} (hf : RegMap.find a = some (r, i))
    (hm : m.debug = false) (hoff : s.targetOff a = false) (ha : RegWord a) (hp : regProt m a true v = false) :
    exec (.registerWrite m a 4 v 0) s = .next (((s.regWrite m a v).setReg a ((s.regWrite m a v).reg a)).reply 0 0) := by
  change execRegisterWrite m a 4 v 0 s = _
  simp [execRegisterWrite, State.busWrite_word (.inl hm) hoff ha hp, hoff, State.setWins, hf]

/-! Plain reads: the value is the one the register's own store holds, and the read does nothing but clear the RC bits. -/

/-- The read of `a` is plain: `a` lies in no block all of whose reads are served apart, and is none of the registers that show what is
held elsewhere or whose read copies, pops or advances. -/
abbrev PlainRead (a : Nat) : Prop :=
  blockOf a ∉ [15, 16, 17, 19, 20, 23, 24] ∧
  a ∉ [Reg.SYS_PARTID, Reg.SYS_REV, Reg.SYS_VARIANT, Reg.CLK_PSTAT, Reg.CLK_UPLO, Reg.COT_STAT, Reg.BEAM_POS, Reg.QDL_POS, Reg.QDL_CONF,
    Reg.MNT_GFCLR, Reg.MNT_QFILL, Reg.PNL_MAPDATA, Reg.SND_KLO, Reg.EVR_WINw 7] ∧
  arr (Reg.MNT_ENGe_POS 0) 0x40 8 a = none ∧ arr (Reg.MNT_ENGe_HZN 0) 0x40 8 a = none ∧ arr (Reg.PNL_PORTp_STAT 0) 64 32 a = none ∧
  arr (Reg.DBG_Cc_REGDATA 0) 0x80 3 a = none

theorem State.shown_of_plainRead {a : Nat} (h : PlainRead a) (s : State) : s.shown a = none := by
  obtain ⟨hb, ha, hpos, hhzn, hstat, -⟩ := h
  simp only [List.mem_cons, List.not_mem_nil, or_false, not_or] at hb ha
  unfold State.shown
  split <;> simp_all

theorem State.afterRead_of_plainRead {a : Nat} (h : PlainRead a) (s : State) : s.afterRead a = s.clearRead a := by
  obtain ⟨hb, ha, -⟩ := h
  simp only [List.mem_cons, List.not_mem_nil, or_false, not_or] at hb ha
  unfold State.afterRead
  split <;> simp_all

/-- A plain read by a master that is no debugger. -/
theorem State.regRead_of_plainRead {m : Acc} {a : Nat} (h : PlainRead a) (hm : m.debug = false) (s : State) :
    s.regRead m a = (s.readCoded a, s.clearRead a) := by
  have ⟨_, _, _, _, _, hdbg⟩ := h
  simp [State.regRead, State.valueOf, State.shown_of_plainRead h, State.afterRead_of_plainRead h, hdbg, hm]

/-- Every register with RC bits is a word of the register window, and its read is plain. -/
theorem plainRead_of_rc : ∀ r ∈ RegMap.rows, r.rc ≠ 0 → ∀ a ∈ r.addrs, RegWord a ∧ PlainRead a := by
  decide +kernel

/-! The access codes in the row of a register. -/

theorem State.readCoded_of_shm_zero {a i : Nat} {r : RegRow} (hf : RegMap.find a = some (r, i)) (h : r.shm = 0) (s : State) :
    s.readCoded a = s.reg a := by
  simp [State.readCoded, hf, h]

theorem State.clearRead_of_rc {a i : Nat} {r : RegRow} (hf : RegMap.find a = some (r, i)) (h : r.rc ≠ 0) (s : State) :
    s.clearRead a = s.setReg a (s.reg a &&& ~~~r.rc) := by
  simp only [State.clearRead, hf, if_neg h]

/-- A register without RC bits is left alone by a read. -/
theorem State.clearRead_of_rc_zero {a i : Nat} {r : RegRow} (hf : RegMap.find a = some (r, i)) (h : r.rc = 0) (s : State) :
    s.clearRead a = s := by
  simp only [State.clearRead, hf, if_pos h]

/-- A write of a register all of whose bits are read-only writes back what it held. -/
theorem State.writeCoded_of_readOnly {a i : Nat} {r : RegRow} (hf : RegMap.find a = some (r, i)) (h : r.ReadOnly) (s : State) (v : Word) :
    s.writeCoded a v = s.setReg a (s.reg a) := by
  obtain ⟨hrw, hw1c, hw1s, -, hshm⟩ := h
  simp [State.writeCoded, hf, hrw, hw1c, hw1s, hshm]

/-- Writing back what a register holds leaves every register as it was. -/
@[simp] theorem State.reg_setReg_self (s : State) (a b : Nat) : (s.setReg a (s.reg a)).reg b = s.reg b := by
  rw [State.reg_setReg]
  split
  case isTrue h => rw [h]
  case isFalse => rfl

/-- Clearing the bits of a mask and then setting those of an event leaves under the mask the event alone. -/
theorem and_cleared_or_event (x e m : Word) : ((x &&& ~~~m) ||| (e &&& m)) &&& m = e &&& m := by
  ext i hi
  cases h : m[i] <;> simp [h]

end Sys2Proof.Machine
end

section
/-! The statements on the registers of chapter 0. -/

namespace Sys2Proof.Machine

/-- Settles O54: a register with RC bits is read plainly, so the read clears the bits that the event then sets. -/
theorem clearingReads : Obligations.ClearingReads := by
  intro m a e s r i hf hrc ⟨hm, hp⟩ hoff
  obtain ⟨hr, ha⟩ := RegMap.mem_of_find hf
  obtain ⟨hword, hplain⟩ := plainRead_of_rc r hr hrc a ha
  have hshm : r.shm = 0 := (RegMap.rows_rc_or_shm r hr).resolve_left hrc
  have hread := State.regRead_of_plainRead hplain hm s
  rw [State.readCoded_of_shm_zero hf hshm, State.clearRead_of_rc hf hrc] at hread
  refine ⟨_, exec_rcRegisterRead_of_regRead hf hm hoff hword hp hread, rfl, rfl, ?_, fun b hb => ?_, fun k => rfl⟩
  · simp [and_cleared_or_event]
  · simp [State.reg_setReg_ne _ hb]

/-! The identification registers. -/

/-- What the proofs of an access need of an identification register: where it lies, its access codes and its rights. -/
structure IdReg (a : Nat) (w : Word) : Prop where
  row : ∃ r i, RegMap.find a = some (r, i) ∧ r.ReadOnly
  word : RegWord a
  prot : ∀ m b v, regProt m a b v = false
  power : ∀ s : State, s.targetOff a = s.targetOff Reg.SYS_PARTID
  shown : ∀ s : State, s.shown a = some w
  afterRead : ∀ s : State, s.afterRead a = s.clearRead a
  notDbg : arr (Reg.DBG_Cc_REGDATA 0) 0x80 3 a = none
  regWrite : ∀ m v (s : State), s.regWrite m a v = s.writeCoded a v

/-- Each is read off the model's functions at the register's address. -/
theorem idRegs_reached :
    IdReg Reg.SYS_PARTID 0x880 ∧ IdReg Reg.SYS_REV 0xB0 ∧ IdReg Reg.SYS_VARIANT (wd (Config.variant.val + 1)) := by
  refine ⟨?_, ?_, ?_⟩ <;>
  exact {
    row := ⟨_, 0, rfl, by decide⟩
    word := by decide
    prot := fun _ _ _ => rfl
    power := fun _ => rfl
    shown := fun _ => rfl
    afterRead := fun _ => rfl
    notDbg := rfl
    regWrite := fun _ _ _ => rfl }

/-- A read of an identification register returns its value and leaves the state alone. -/
theorem IdReg.regRead {a : Nat} {w : Word} (h : IdReg a w) (m : Acc) (s : State) : s.regRead m a = (w, s) := by
  obtain ⟨r, i, hf, -, -, -, hrc, -⟩ := h.row
  simp [State.regRead, State.valueOf, h.shown, h.afterRead, State.clearRead_of_rc_zero hf hrc, h.notDbg]

theorem IdReg.read_completes {a : Nat} {w : Word} (h : IdReg a w) {m : Acc} {s : State} (e : Word) (hm : m.debug = false)
    (hoff : s.targetOff Reg.SYS_PARTID = false) :
    Completes (.rcRegisterRead m a e) s fun u => u.answer = ⟨0, w⟩ ∧ SameRegsBut (fun _ => False) s u ∧ SameMemory s u := by
  obtain ⟨r, i, hf, -, -, -, hrc, -⟩ := h.row
  refine ⟨_, exec_rcRegisterRead_of_regRead hf hm ((h.power s).trans hoff) h.word (h.prot m _ _) (h.regRead m s), rfl, fun b _ => ?_, fun k => rfl⟩
  simp [hrc]

theorem IdReg.write_completes {a : Nat} {w : Word} (h : IdReg a w) {m : Acc} {s : State} (v : Word) (hm : m.debug = false)
    (hoff : s.targetOff Reg.SYS_PARTID = false) :
    Completes (.registerWrite m a 4 v 0) s fun u => u.answer = ⟨0, 0⟩ ∧ SameRegsBut (fun _ => False) s u ∧ SameMemory s u := by
  obtain ⟨r, i, hf, hro⟩ := h.row
  have hw : s.regWrite m a v = s.setReg a (s.reg a) := (h.regWrite m v s).trans (State.writeCoded_of_readOnly hf hro s v)
  refine ⟨_, exec_registerWrite_word hf hm ((h.power s).trans hoff) h.word (h.prot m _ _), rfl, fun b _ => ?_, fun k => ?_⟩
  · rw [State.reg_reply, State.reg_setReg_self, hw, State.reg_setReg_self]
  · rw [State.byte_reply, State.byte_setReg, hw, State.byte_setReg]

/-- Settles O55: each of the three registers is read-only, shows its constant and is reached by every master. -/
theorem identificationRegisters : Obligations.IdentificationRegisters := by
  intro m e v s hm hoff
  obtain ⟨hpartid, hrev, hvariant⟩ := idRegs_reached
  refine ⟨hpartid.read_completes e hm hoff, hrev.read_completes e hm hoff, hvariant.read_completes e hm hoff, ?_⟩
  rintro a (rfl | rfl | rfl)
  · exact hpartid.write_completes v hm hoff
  · exact hrev.write_completes v hm hoff
  · exact hvariant.write_completes v hm hoff

end Sys2Proof.Machine
end

section
/-! SUPPORT. What sparse data reads as after every entry with a picked key gives way to those of another list. -/

namespace Sys2Proof

variable {α : Type}

theorem Sparse.get_of_not_mem (d : Nat → α) {l : List (Nat × α)} {k : Nat} (h : k ∉ l.map (·.1)) : Sparse.get d l k = d k := by
  induction l with
  | nil => rfl
  | cons e l ih =>
    obtain ⟨j, v⟩ := e
    simp only [List.map_cons, List.mem_cons, not_or] at h
    rw [Sparse.get_cons, if_neg (Ne.symm h.1), ih h.2]

/-- A picked key reads as in `src`, which may leave it unlisted; any other as before. -/
theorem Sparse.get_replace [DecidableEq α] (d : Nat → α) (p : Nat × α → Bool) (q : Nat → Prop) [DecidablePred q]
    (hp : ∀ e, p e = decide (q e.1)) (dst src : List (Nat × α)) (k : Nat) :
    Sparse.get d (Sparse.setAll d (dst.filter fun e => !p e) (src.filter p)) k =
      if q k then Sparse.get d src k else Sparse.get d dst k := by
  rw [Sparse.get_setAll]
  by_cases hq : q k
  case neg =>
    have hk : k ∉ (src.filter p).map (·.1) := by
      intro hk
      obtain ⟨e, he, rfl⟩ := List.mem_map.mp hk
      have := (List.mem_filter.mp he).2
      simp [hp, hq] at this
    rw [if_neg hk, if_neg hq, Sparse.get_filter_keep d _ k (by simp [hp, hq])]
  case pos =>
    rw [if_pos hq]
    have hsrc : Sparse.get d (src.filter p) k = Sparse.get d src k := Sparse.get_filter_keep d p k (by simp [hp, hq]) src
    split
    case isTrue => exact hsrc
    case isFalse hk =>
      rw [Sparse.get_filter_drop d _ k (by simp [hp, hq]), ← Sparse.get_of_not_mem d hk]
      exact hsrc

end Sys2Proof
end

section
/-! SUPPORT. What a command that writes one register does where the bus permits it. -/

namespace Sys2Proof.Machine

theorem State.askWrite_word {m : Acc} {a : Nat} {s : State} {v : Word} (hm : m.debug = false ∨ s.debugAllows a true = true)
    (hoff : s.targetOff a = false) (ha : RegWord a) (hp : regProt m a true v = false) :
    s.askWrite m a v = (s.regWrite m a v).reply 0 0 := by
  simp only [State.askWrite, State.busWrite32, State.busWrite_word hm hoff ha hp]

end Sys2Proof.Machine
end

section
/-! SUPPORT. The life of a commit group: requested, latched at the mark, applied by its block (R34 to R38). -/

namespace Sys2Proof.Machine

/-! A request touches COT_PENDING alone. -/

/-- Only the ten groups of Table 1.6 can be requested. -/
theorem State.bit_commitRequest (s : State) (v : Word) {g : Nat} (h : g < 10) :
    (s.commitRequest v).bit Reg.COT_PENDING g = (s.bit Reg.COT_PENDING g || bitAt v g) := by
  have hmask : (1023#32).getLsbD g = true := by
    rw [show 1023#32 = BitVec.ofNat 32 (2 ^ 10 - 1) from rfl, BitVec.getLsbD_ofNat, Nat.testBit_two_pow_sub_one]
    simp only [Bool.and_eq_true, decide_eq_true_eq]
    omega
  simp [State.commitRequest, State.bit, bitAt, hmask]

theorem State.reg_commitRequest_ne (s : State) (v : Word) {a : Nat} (h : a ≠ Reg.COT_PENDING) : (s.commitRequest v).reg a = s.reg a :=
  State.reg_setReg_ne s h _

/-- A write of COT_COMMIT that the bus completes is a request. -/
theorem exec_cotCommit {m : Acc} {v : Word} {s : State} (hm : m.debug = false) (hoff : s.targetOff Reg.COT_COMMIT = false) :
    exec (.cotCommit m v) s = .next ((s.commitRequest v).reply 0 0) := by
  have hw : s.regWrite m Reg.COT_COMMIT v = s.commitRequest v := rfl
  rw [← hw, ← State.askWrite_word (.inl hm) hoff (by decide) rfl]
  rfl

/-! Latching. -/

/-- The in-flight copy takes the whole shadow of the group, and that of every other group stays. -/
theorem State.lat_latchGroup (s : State) (g a : Nat) :
    (s.latchGroup g).lat a = if groupOf a = some g then s.shd a else s.lat a :=
  Sparse.get_replace RegMap.resetOf (inGroup g) (fun a => groupOf a = some g) (fun _ => rfl) s.latched s.shadow a

theorem State.bit_pending_latchGroup (s : State) (g j : Nat) :
    (s.latchGroup g).bit Reg.COT_PENDING j = bitAt (putBit (s.reg Reg.COT_PENDING) g false) j := by
  rw [State.bit, State.latchGroup, State.reg_setBit_ne _ (by decide), State.setBit, State.reg_setReg_same]
  rfl

theorem State.inFlight_latchGroup (s : State) (g j : Nat) :
    (s.latchGroup g).inFlight j = bitAt (putBit (s.reg Reg.COT_INFLIGHT) g true) j := by
  rw [State.inFlight, State.bit, State.latchGroup, State.setBit, State.reg_setReg_same, State.reg_setBit_ne _ (by decide)]
  rfl

theorem State.shd_latchGroup (s : State) (g a : Nat) : (s.latchGroup g).shd a = s.shd a := rfl

/-! The mark. -/

/-- Group `g` stands in `t` as it stood in `s`: whether it is pending, whether it is in flight, its shadow and its in-flight copy. -/
structure GroupKept (g : Nat) (s t : State) : Prop where
  pending : t.bit Reg.COT_PENDING g = s.bit Reg.COT_PENDING g
  inFlight : t.inFlight g = s.inFlight g
  shd : ∀ a, groupOf a = some g → t.shd a = s.shd a
  lat : ∀ a, groupOf a = some g → t.lat a = s.lat a

theorem GroupKept.refl (g : Nat) (s : State) : GroupKept g s s := ⟨rfl, rfl, fun _ _ => rfl, fun _ _ => rfl⟩

theorem GroupKept.trans {g : Nat} {s t u : State} (h : GroupKept g s t) (k : GroupKept g t u) : GroupKept g s u :=
  ⟨k.pending.trans h.pending, k.inFlight.trans h.inFlight, fun a ha => (k.shd a ha).trans (h.shd a ha),
    fun a ha => (k.lat a ha).trans (h.lat a ha)⟩

/-- What the mark does to one group: it is latched if it is pending and not in flight. -/
def State.latchDue (s : State) (g : Nat) : State := if s.bit Reg.COT_PENDING g && !s.inFlight g then s.latchGroup g else s

/-- Another group is left alone. -/
theorem State.groupKept_latchDue (s : State) {g j : Nat} (h : g ≠ j) : GroupKept g s (s.latchDue j) := by
  unfold State.latchDue
  split
  case isTrue =>
    refine ⟨?_, ?_, fun a _ => s.shd_latchGroup j a, fun a ha => ?_⟩
    · rw [State.bit_pending_latchGroup, bitAt_putBit_ne _ _ h]; rfl
    · rw [State.inFlight_latchGroup, bitAt_putBit_ne _ _ h]; rfl
    · rw [State.lat_latchGroup, if_neg (by simpa [ha] using h)]
  case isFalse => exact .refl g s

theorem State.groupKept_latchAll (s : State) {g : Nat} {l : List Nat} (h : g ∉ l) : GroupKept g s (l.foldl State.latchDue s) := by
  induction l generalizing s with
  | nil => exact .refl g s
  | cons j l ih =>
    obtain ⟨hj, hl⟩ := not_or.mp (mt List.mem_cons.mpr h)
    exact (s.groupKept_latchDue hj).trans (ih _ hl)

/-- Going through distinct groups, `g` among them, changes group `g` once: where its own turn comes it stands as at the start. -/
theorem State.latchAll_turn (s : State) {g : Nat} {l : List Nat} (hg : g ∈ l) (hl : l.Nodup) :
    ∃ u, GroupKept g s u ∧ GroupKept g (u.latchDue g) (l.foldl State.latchDue s) := by
  obtain ⟨l₁, l₂, rfl⟩ := List.append_of_mem hg
  obtain ⟨-, h₂, hne⟩ := List.nodup_append.mp hl
  refine ⟨l₁.foldl State.latchDue s, s.groupKept_latchAll fun h => hne g h g List.mem_cons_self rfl, ?_⟩
  rw [List.foldl_append]
  exact State.groupKept_latchAll _ (List.nodup_cons.mp h₂).1

/-- The mark has acted on group `g`: one pending and not in flight is latched whole, one in flight stays as it is (R34, R37). -/
structure Marked (g : Nat) (s t : State) : Prop where
  latched : s.bit Reg.COT_PENDING g = true → s.inFlight g = false →
    t.bit Reg.COT_PENDING g = false ∧ t.inFlight g = true ∧ ∀ a, groupOf a = some g → t.lat a = s.shd a
  kept : s.inFlight g = true → GroupKept g s t

theorem Marked.of_kept {g : Nat} {s u v t : State} (h : Marked g u v) (hs : GroupKept g s u) (ht : GroupKept g v t) : Marked g s t := by
  refine ⟨fun hp hf => ?_, fun hf => hs.trans ((h.kept (hs.inFlight.trans hf)).trans ht)⟩
  obtain ⟨hp', hf', hlat⟩ := h.latched (hs.pending.trans hp) (hs.inFlight.trans hf)
  exact ⟨ht.pending.trans hp', ht.inFlight.trans hf', fun a ha => ((ht.lat a ha).trans (hlat a ha)).trans (hs.shd a ha)⟩

theorem State.marked_latchDue (s : State) {g : Nat} (h : g < 32) : Marked g s (s.latchDue g) := by
  refine ⟨fun hp hf => ?_, fun hf => ?_⟩
  · have hdue : s.latchDue g = s.latchGroup g := by simp [State.latchDue, hp, hf]
    rw [hdue, State.bit_pending_latchGroup, State.inFlight_latchGroup]
    exact ⟨bitAt_putBit_same _ g _ h, bitAt_putBit_same _ g _ h, fun a ha => by rw [State.lat_latchGroup, if_pos ha]⟩
  · have hdue : s.latchDue g = s := by simp [State.latchDue, hf]
    rw [hdue]
    exact .refl g s

/-- Where the beam stands concerns no group. -/
theorem State.groupKept_beamAt (g : Nat) (p : BPos) (s : State) : GroupKept g s (s.beamAt p) := by
  unfold State.beamAt
  split <;> exact ⟨rfl, rfl, fun _ _ => rfl, fun _ _ => rfl⟩

/-- The mark latches the groups due in turn; the beam it moves before them and the frame it opens after them concern no group. -/
theorem exec_commitMark_latchAll {s : State} (hfr : s.frozen = false) (hrun : s.running = true) :
    ∃ u, (∀ g, GroupKept g s u) ∧ Completes .commitMark s fun t => ∀ g, GroupKept g ((List.range 10).foldl State.latchDue u) t := by
  refine ⟨s.beamAt { posOf (s.reg Reg.BEAM_CMARK) with sf := s.subfm1 }, fun g => s.groupKept_beamAt g _, ?_⟩
  change ∃ t, execCommitMark s = .next t ∧ _
  rw [execCommitMark, if_neg (by simp [hfr]), if_neg (by simp [hrun])]
  exact ⟨_, rfl, fun g => ⟨rfl, rfl, fun _ _ => rfl, fun _ _ => rfl⟩⟩

/-- After a commit mark every group stands as the mark leaves it. -/
theorem exec_commitMark_marked {s : State} (hfr : s.frozen = false) (hrun : s.running = true) :
    Completes .commitMark s fun t => ∀ g, g < 10 → Marked g s t := by
  obtain ⟨u, hu, t, ht, hkept⟩ := exec_commitMark_latchAll hfr hrun
  refine ⟨t, ht, fun g hg => ?_⟩
  obtain ⟨v, hv, hturn⟩ := u.latchAll_turn (List.mem_range.mpr hg) List.nodup_range
  exact (v.marked_latchDue (by omega)).of_kept ((hu g).trans hv) (hturn.trans (hkept g))

/-! Application. -/

/-- COT_INFLIGHT belongs to no group. -/
theorem ne_inFlight_of_group {a g : Nat} (h : groupOf a = some g) : a ≠ Reg.COT_INFLIGHT := by
  rintro rfl
  cases h

theorem State.reg_takeGroup (s : State) (g : Nat) (p : Nat → Bool) (src : List (Nat × Word)) (a : Nat) :
    (s.takeGroup g p src).reg a = if groupOf a = some g ∧ p a = true then Sparse.get RegMap.resetOf src a else s.reg a :=
  Sparse.get_replace RegMap.resetOf (fun e => inGroup g e && p e.1) (fun a => groupOf a = some g ∧ p a = true)
    (fun e => by simp [inGroup]) s.regs src a

theorem State.reg_endFlight_ne (s : State) (g : Nat) {a : Nat} (h : a ≠ Reg.COT_INFLIGHT) : (s.endFlight g).reg a = s.reg a :=
  State.reg_setBit_ne _ h g false

theorem State.inFlight_endFlight_same (s : State) {g : Nat} (h : g < 32) : (s.endFlight g).inFlight g = false :=
  State.bit_setBit_same _ _ _ h

/-- A group applied whole is no longer in flight, each of its registers holds its latched value, and nothing else is touched. -/
structure AppliedWhole (g : Nat) (s t : State) : Prop where
  landed : t.inFlight g = false
  regs : ∀ a, groupOf a = some g → t.reg a = s.lat a
  others : SameRegsBut (fun a => groupOf a = some g ∨ a = Reg.COT_INFLIGHT) s t
  memory : SameMemory s t

theorem State.appliedWhole_applyPlain {s : State} {g : Nat} (hg : g < 32) (h : s.inFlight g = true) : AppliedWhole g s (s.applyPlain g) := by
  rw [State.applyPlain, if_pos h]
  refine ⟨State.inFlight_endFlight_same _ hg, fun a ha => ?_, fun a ha => ?_, fun _ => rfl⟩
  · rw [State.reg_endFlight_ne _ g (ne_inFlight_of_group ha), State.reg_takeGroup, if_pos ⟨ha, rfl⟩]
    rfl
  · rw [not_or] at ha
    rw [State.reg_endFlight_ne _ g ha.2, State.reg_takeGroup, if_neg fun k => ha.1 k.1]

/-- The block of group `g` stands at the boundary that Table 1.6 names; PNLTIM's comes with a swap alone. -/
def State.atBoundary (s : State) (g : Fin 10) : Bool :=
  match g.val with
  | 3 => true
  | 4 => false
  | 6 => s.firstOfFrame s.snd.k
  | 7 | 8 | 9 => decide (s.beam.pos = ⟨0, 0, 0⟩)
  | _ => s.atFlipPoint

theorem exec_commitGroupApply {s : State} (h : s.frozen = false) (g : Fin 10) :
    exec (.commitGroupApply g) s = .next (if s.atBoundary g then s.applyGroup g.val else s) := by
  change execCommitGroupApply g s = _
  rw [execCommitGroupApply, if_neg (by simp [h])]
  fin_cases g <;> rfl

theorem exec_commitGroupApply_atBoundary {s : State} (h : s.frozen = false) {g : Fin 10} (hb : s.atBoundary g = true) :
    exec (.commitGroupApply g) s = .next (s.applyGroup g.val) := by
  rw [exec_commitGroupApply h, if_pos hb]

end Sys2Proof.Machine
end

section
/-! The statement on the commit groups of chapter 1. -/

namespace Sys2Proof.Machine

/-- Settles O3: a request changes COT_PENDING alone, the mark latches each group at a turn of its own that the turns of the other groups
leave alone, and a group at its boundary is applied by its block. -/
theorem commitGroups : Obligations.CommitGroups := by
  intro s
  refine ⟨fun m v hm hoff => ?_, fun hfr hrun => ?_, fun hfr hpos => ⟨fun h8 => ?_, fun h9 => ?_, ?_⟩, fun hfr hfirst => ?_,
    fun hfr => ⟨?_, ?_⟩, fun g hfr hflip hg => ?_, fun h9 => ?_⟩
  · exact ⟨_, exec_cotCommit hm hoff, fun g hg => s.bit_commitRequest v hg, fun a ha => s.reg_commitRequest_ne v ha, fun _ => rfl⟩
  · obtain ⟨t, ht, hmarked⟩ := exec_commitMark_marked hfr hrun
    refine ⟨t, ht, fun g hg => ⟨(hmarked g hg).latched, fun hf => ?_⟩⟩
    obtain ⟨hpending, hflight, -, hlat⟩ := (hmarked g hg).kept hf
    exact ⟨hpending, hflight.trans hf, hlat⟩
  · obtain ⟨hlanded, hregs, hothers, hmem⟩ := State.appliedWhole_applyPlain (by decide) h8
    exact ⟨_, exec_commitGroupApply_atBoundary hfr (by simp [State.atBoundary, hpos]), hlanded, hregs, hothers, hmem⟩
  · rw [exec_commitGroupApply_atBoundary hfr (by simp [State.atBoundary, hpos])]
    exact congrArg _ (if_pos h9)
  · exact exec_commitGroupApply_atBoundary hfr (by simp [State.atBoundary, hpos])
  · exact exec_commitGroupApply_atBoundary hfr hfirst
  · exact exec_commitGroupApply_atBoundary hfr rfl
  · exact exec_commitGroupApply hfr 4
  · rcases hg with rfl | rfl | rfl | rfl <;> exact exec_commitGroupApply_atBoundary hfr hflip
  · obtain ⟨hlanded, hregs, -, -⟩ := State.appliedWhole_applyPlain (by decide) h9
    exact ⟨hlanded, hregs⟩

end Sys2Proof.Machine
end

section
/-! The statements on a step, and on the state after reset. -/

namespace Sys2Proof.Machine

/-- Settles O56, by the definition of a step. -/
theorem stepRunsTheFrontCommand : Obligations.StepRunsTheFrontCommand := by
  intro c rest s h
  simp [step, h]

/-- Settles O58: the stores are empty, so that every register reads its reset value and every byte zero, and the rest is the state written out. -/
theorem resetState : Obligations.ResetState := by
  refine ⟨by decide, rfl, fun a => rfl, fun k => rfl, rfl, rfl, by decide, rfl, fun c hc => ?_, rfl, rfl, ?_⟩
  · interval_cases c <;> decide
  · decide

end Sys2Proof.Machine
end

section
/-! A step without a command: one FCLK counts, and moves the beam (log 1). -/

namespace Sys2Proof.Machine

/-- `t` is `s` with counts gone on: no register of the beam's block, memory, output, command or setting of a core has changed. -/
structure Ticked (s t : State) : Prop where
  regs : ∀ a, a / 65536 = 0x4003 → t.reg a = s.reg a
  mem : t.mem = s.mem
  out : t.out = s.out
  fresh : t.fresh = s.fresh
  shadow : t.shadow = s.shadow
  beam : t.beam = s.beam
  pending : t.pending = s.pending
  fclk : t.pwr.fclk = s.pwr.fclk
  state : t.pwr.state = s.pwr.state
  released : t.pwr.released = s.pwr.released
  core : ∀ c, (t.core c).g = (s.core c).g ∧ (t.core c).pc = (s.core c).pc ∧ (t.core c).run = (s.core c).run

theorem Ticked.refl (s : State) : Ticked s s := by constructor <;> intros <;> simp

theorem Ticked.trans {s t u : State} (h : Ticked s t) (k : Ticked t u) : Ticked s u where
  regs a ha := (k.regs a ha).trans (h.regs a ha)
  mem := k.mem.trans h.mem
  out := k.out.trans h.out
  fresh := k.fresh.trans h.fresh
  shadow := k.shadow.trans h.shadow
  beam := k.beam.trans h.beam
  pending := k.pending.trans h.pending
  fclk := k.fclk.trans h.fclk
  state := k.state.trans h.state
  released := k.released.trans h.released
  core c := by
    obtain ⟨hg, hpc, hrun⟩ := h.core c
    obtain ⟨kg, kpc, krun⟩ := k.core c
    exact ⟨kg.trans hg, kpc.trans hpc, krun.trans hrun⟩

theorem Ticked.setReg (s : State) {a : Nat} (h : a / 65536 ≠ 0x4003) (v : Word) : Ticked s (s.setReg a v) where
  regs c hc := s.reg_setReg_ne (fun e => h (by rw [← e]; exact hc)) v
  mem := rfl
  out := rfl
  fresh := rfl
  shadow := rfl
  beam := rfl
  pending := rfl
  fclk := rfl
  state := rfl
  released := rfl
  core _ := ⟨rfl, rfl, rfl⟩

theorem Ticked.ite {s t u : State} {p : Prop} [Decidable p] (ht : Ticked s t) (hu : Ticked s u) : Ticked s (if p then t else u) := by
  split <;> assumption

theorem Ticked.foldl {f : State → Nat → State} {l : List Nat} (h : ∀ t, ∀ p ∈ l, Ticked t (f t p)) (s : State) : Ticked s (l.foldl f s) := by
  induction l generalizing s with
  | nil => exact .refl s
  | cons p l ih => exact (h s p (by simp)).trans (ih (fun t q hq => h t q (by simp [hq])) _)

theorem State.wdgTick_ticked {w : Nat} (hw : w < 3) (s : State) : Ticked s (s.wdgTick w) :=
  .ite (.setReg s (by simp only [wdgCnt, wdgReg]; omega) _) (.refl s)

theorem State.xoTick_ticked (s : State) : Ticked s s.xoTick := by
  have hsub := Ticked.setReg s (a := Reg.EVR_SUB) (by decide) (wd ((s.f Reg.EVR_SUB 14 0 + 1) % 32768))
  exact (hsub.trans (.ite (.setReg _ (by decide) _) (.refl _))).trans (State.wdgTick_ticked (by decide) _)

theorem State.marchTick_ticked (s : State) : Ticked s s.marchTick := by
  unfold State.marchTick
  split
  · rename_i j hj
    refine .ite ?_ (.refl s)
    have hfab : Ticked s { s with fab := { s.fab with job := some { j with copied := j.copied + 1 } } } := by constructor <;> intros <;> simp [State.reg, State.core]
    exact (hfab.trans (.setReg _ (by decide) _)).trans (.setReg _ (by decide) _)
  · exact .refl s

theorem State.coreTick_ticked (c : Nat) (s : State) : Ticked s (s.coreTick c) := by
  refine .ite ?_ (.refl s)
  constructor <;> intros <;> simp [State.setCore, State.core, State.reg] <;> grind

theorem State.roundTick_ticked (s : State) : Ticked s s.roundTick := by
  refine .ite (.refl s) ((Ticked.setReg s (by decide) _).trans (.ite ?_ (.refl _)))
  have hwords := Ticked.foldl (l := List.range 16) (f := fun t p => t.setReg (Reg.COT_PORTp_WORDS p) (wd (Sparse.get (fun _ => 0) s.fab.words p)))
    (fun t p hp => Ticked.setReg t (by have := List.mem_range.mp hp; simp only [Reg.COT_PORTp_WORDS]; omega) _)
    (s.setReg Reg.COT_SEGMENT (wd (s.pwr.fclk % 256 + 256 * (s.pwr.fclk % 256 / 8))))
  exact hwords.trans (by constructor <;> intros <;> simp [State.reg, State.core])

/-- One FCLK of the clocks that run in reset: the cycle count, XO32's counts and the uptime. -/
def State.tickClocks (s : State) : State :=
  let n := s.pwr.fclk + 1
  let s1 := { s with pwr := { s.pwr with fclk := n } }
  let s2 := if n * 32768 / 1000000000 ≠ s.pwr.fclk * 32768 / 1000000000 then s1.xoTick else s1
  if n % 1000 = 0 then { s2 with pwr := { s2.pwr with uptime := (s2.pwr.uptime + 1) % 2 ^ 64 } } else s2

/-- FCLK number `n` of the units that reset holds, but for the beam: watchdogs, cores, the march engine and the slot round. -/
def State.tickUnits (n : Nat) (s : State) : State :=
  let s4 := if n % 1000 = 0 ∧ s.pwr.state ≠ 5 then (s.wdgTick 0).wdgTick 1 else s
  let s5 := if n % 2 = 0 then (s4.coreTick 0).coreTick 1 else s4
  let s6 := if n % 5 = 0 then s5.coreTick 2 else s5
  (if s6.pwr.state < 2 then s6.marchTick else s6).roundTick

theorem State.tick_eq (s : State) :
    s.tick = if !s.tickClocks.pwr.released then s.tickClocks else (s.tickClocks.tickUnits (s.pwr.fclk + 1)).beamTick := rfl

theorem State.tickClocks_ticked (s : State) : Ticked { s with pwr := { s.pwr with fclk := s.pwr.fclk + 1 } } s.tickClocks := by
  unfold State.tickClocks
  extract_lets n src s1 s2
  have hxo : Ticked s1 s2 := .ite s1.xoTick_ticked (.refl s1)
  have hup : Ticked s2 { s2 with pwr := { s2.pwr with uptime := (s2.pwr.uptime + 1) % 2 ^ 64 } } := by
    clear_value s2; constructor <;> intros <;> simp [State.reg, State.core]
  exact hxo.trans (.ite hup (.refl s2))

theorem State.tickUnits_ticked (n : Nat) (s : State) : Ticked s (s.tickUnits n) := by
  unfold State.tickUnits
  extract_lets s4 s5 s6
  have h4 : Ticked s s4 := .ite ((State.wdgTick_ticked (by decide) s).trans (State.wdgTick_ticked (by decide) _)) (.refl s)
  have h5 : Ticked s4 s5 := .ite ((State.coreTick_ticked 0 s4).trans (State.coreTick_ticked 1 _)) (.refl s4)
  have h6 : Ticked s5 s6 := .ite (State.coreTick_ticked 2 s5) (.refl s5)
  exact (((h4.trans h5).trans h6).trans (.ite s6.marchTick_ticked (.refl s6))).trans (State.roundTick_ticked _)

/-! What the beam's advance reads is in registers of its block. -/

theorem Ticked.f {s t : State} (h : Ticked s t) {a : Nat} (ha : a / 65536 = 0x4003) (hi lo : Nat) : t.f a hi lo = s.f a hi lo :=
  State.f_of_reg (h.regs a ha) hi lo

theorem Ticked.running {s t : State} (h : Ticked s t) : t.running = s.running := State.bit_of_reg (h.regs _ (by decide)) 0

theorem Ticked.frozen {s t : State} (h : Ticked s t) : t.frozen = s.frozen := by
  obtain ⟨-, -, h0⟩ := h.core 0
  obtain ⟨-, -, h1⟩ := h.core 1
  obtain ⟨-, -, h2⟩ := h.core 2
  simp only [State.core] at h0 h1 h2
  simp_all [State.frozen]

theorem Ticked.dots {s t : State} (h : Ticked s t) : t.dots = s.dots := h.f (by decide) ..

theorem Ticked.frameDots {s t : State} (h : Ticked s t) : t.frameDots = s.frameDots := by
  simp [State.frameDots, State.total, State.dots, State.subfm1, h.f (a := Reg.BEAM_TOTAL) (by decide), h.f (a := Reg.BEAM_DOTS) (by decide),
    h.f (a := Reg.BEAM_CTRL) (by decide)]

theorem Ticked.headFree {s t : State} (h : Ticked s t) : t.headFree = s.headFree := by
  have hid : t.stationId = s.stationId := h.f (by decide) ..
  rw [State.headFree, State.headFree, State.isHead, State.isHead, hid, h.f (by decide)]

theorem Ticked.periodPs {s t : State} (h : Ticked s t) : t.periodPs = s.periodPs := by
  have hframe : t.framePs = s.framePs := by simp [State.framePs, h.f (a := Reg.BEAM_RATEDEN) (by decide), h.f (a := Reg.BEAM_RATENUM) (by decide)]
  have hlock : t.lock = s.lock := h.f (by decide) ..
  simp only [State.periodPs, State.freqTerm, hframe, h.headFree, hlock, h.beam]

/-- The advance of the beam changes the beam alone. -/
theorem State.beamTick_eq (s : State) : s.beamTick = { s with beam := s.beamTick.beam } := by
  unfold State.beamTick
  split
  · rfl
  · dsimp only
    split
    · rfl
    · split
      · rfl
      · split <;> rfl

theorem State.beamTick_still {s : State} (h : s.running = false ∨ s.frozen = true ∨ 4 ≤ s.pwr.state) : s.beamTick = s := by
  unfold State.beamTick
  rcases h with h | h | h <;> simp [h]

theorem State.beamTick_dot {s : State} (hrun : s.running = true) (hfr : s.frozen = false) (hst : s.pwr.state < 4)
    (hacc : s.periodPs ≤ s.beam.dotAcc + 1000 * s.frameDots) (hdot : s.beam.pos.dot + 1 < s.dots) :
    s.beamTick.beam = { s.beam with pos := { s.beam.pos with dot := s.beam.pos.dot + 1 }, dotAcc := s.beam.dotAcc + 1000 * s.frameDots - s.periodPs } := by
  simp [State.beamTick, hrun, hfr, Nat.not_le.mpr hst, Nat.not_lt.mpr hacc, hdot]

/-- One FCLK with the units released: counts go on, then the beam. -/
theorem State.tick_released {s : State} (h : s.pwr.released = true) :
    ∃ t, Ticked { s with pwr := { s.pwr with fclk := s.pwr.fclk + 1 } } t ∧ s.tick = t.beamTick := by
  have hc := s.tickClocks_ticked
  refine ⟨_, hc.trans (State.tickUnits_ticked (s.pwr.fclk + 1) _), ?_⟩
  rw [State.tick_eq, if_neg]
  simp [hc.released, h]

/-- One FCLK with the units held in reset: counts go on. -/
theorem State.tick_held {s : State} (h : s.pwr.released = false) : Ticked { s with pwr := { s.pwr with fclk := s.pwr.fclk + 1 } } s.tick := by
  have hc := s.tickClocks_ticked
  rw [State.tick_eq, if_pos (by simp [hc.released, h])]
  exact hc

/-- One FCLK changes counts and the beam, and the beam only where the units are released. -/
theorem State.tick_cases (s : State) : ∃ t, Ticked { s with pwr := { s.pwr with fclk := s.pwr.fclk + 1 } } t ∧
    s.tick = { t with beam := s.tick.beam } ∧ (s.pwr.released = false → s.tick = t) ∧ (s.pwr.released = true → s.tick = t.beamTick) := by
  cases h : s.pwr.released with
  | false => exact ⟨_, State.tick_held h, rfl, fun _ => rfl, by simp⟩
  | true =>
    obtain ⟨t, ht, he⟩ := State.tick_released h
    exact ⟨t, ht, by rw [he]; exact t.beamTick_eq, by simp, fun _ => he⟩

/-- Settles O57: the counts of one FCLK touch neither the beam's registers nor what a core holds, and the beam moves last. -/
theorem idleStepIsOneCycle : Obligations.IdleStepIsOneCycle := by
  intro s hp
  obtain ⟨t, ht, hbeam, hheld, hrel⟩ := s.tick_cases
  refine ⟨s.tick, by simp [step, hp], ?_⟩
  have hrun : t.running = s.running := ht.running
  have hfr : t.frozen = s.frozen := ht.frozen
  refine ⟨?_, ?_, fun k => ?_, ?_, ?_, ?_, fun c _ => ?_, fun hstill => ?_, fun hrunning hnf hst hr hacc hdot => ?_⟩
  · rw [hbeam]; exact ht.pending.trans hp
  · rw [hbeam]; exact ht.fclk
  · rw [hbeam]; exact State.byte_congr ht.mem k
  · rw [hbeam]; exact ht.out
  · rw [hbeam]; exact ht.fresh
  · rw [hbeam]; exact ht.shadow
  · rw [hbeam]; exact ht.core c
  · cases h : s.pwr.released with
    | false => rw [hheld h]; exact ht.beam
    | true =>
      rw [hrel h, State.beamTick_still (by simpa [hrun, hfr, ht.state, h] using hstill)]
      exact ht.beam
  · rw [hrel hr, State.beamTick_dot (hrun.trans hrunning) (hfr.trans hnf) (by rw [ht.state]; exact hst)
      (by rw [ht.periodPs, ht.frameDots, ht.beam]; exact hacc) (by rw [ht.dots, ht.beam]; exact hdot), ht.beam, ht.frameDots, ht.periodPs]
    exact ⟨rfl, rfl, rfl⟩

end Sys2Proof.Machine
end

section
/-! Operations that leave the addressed memory alone: each takes the memory of the state it is given. -/

namespace Sys2Proof.Machine

@[simp] theorem State.mem_ite (c : Prop) [Decidable c] (s t : State) : (if c then s else t).mem = if c then s.mem else t.mem := apply_ite _ _ _ _
theorem foldl_keeps {α β γ : Type} (p : β → γ) {f : β → α → β} (h : ∀ b a, p (f b a) = p b) (l : List α) (b : β) : p (l.foldl f b) = p b := by
  induction l generalizing b with
  | nil => rfl
  | cons x l ih => rw [List.foldl_cons, ih, h]

theorem mem_mapSt {f : Nat → State → Int × State} (h : ∀ n s, (f n s).2.mem = s.mem) (l : List Nat) (s : State) : (mapSt f l s).2.mem = s.mem := by
  induction l generalizing s with
  | nil => rfl
  | cons n l ih => simp [mapSt, ih, h]

theorem State.mem_foldl {α : Type} {f : State → α → State} (h : ∀ s x, (f s x).mem = s.mem) (l : List α) (s : State) : (l.foldl f s).mem = s.mem := foldl_keeps State.mem h l s

@[simp] theorem State.mem_unverify (s : State) : (State.unverify s).mem = s.mem := by simp only [State.unverify, State.mem_ite, State.mem_setF, State.mem_setBit, ite_self]

@[simp] theorem State.mem_writeCoded (s : State) (a : Nat) (v : Word) : (State.writeCoded s a v).mem = s.mem := by
  unfold State.writeCoded
  split <;> simp only [State.mem_ite, State.mem_setReg, State.mem_setShd, State.mem_unverify, ite_self]

@[simp] theorem State.mem_clearRead (s : State) (a : Nat) : (State.clearRead s a).mem = s.mem := by
  unfold State.clearRead
  split <;> simp only [State.mem_ite, State.mem_setReg, ite_self]

@[simp] theorem State.mem_resetBlocks (s : State) (p : Nat → Bool) : (State.resetBlocks s p).mem = s.mem := rfl

@[simp] theorem State.mem_arriveAt (n : Nat) (s : State) : (State.arriveAt n s).mem = s.mem := by simp only [State.arriveAt, State.mem_ite, State.mem_setF, State.mem_setBit, ite_self]

@[simp] theorem State.mem_coalDeliver (k n : Nat) (s : State) : (State.coalDeliver k n s).mem = s.mem := by simp only [State.coalDeliver, State.mem_ite, State.mem_setF, State.mem_arriveAt, ite_self]

@[simp] theorem State.mem_arriveAwake (n : Nat) (s : State) : (State.arriveAwake n s).mem = s.mem := by
  unfold State.arriveAwake
  split <;> simp only [State.mem_ite, State.mem_setF, State.mem_arriveAt, State.mem_coalDeliver, ite_self]

@[simp] theorem State.mem_arrive (n : Nat) (s : State) : (State.arrive n s).mem = s.mem := by
  unfold State.arrive
  split
  · exact State.mem_arriveAwake _ _
  · split
    · rfl
    · exact foldl_keeps State.mem (by intro b a; rfl) _ _

@[simp] theorem State.mem_enqueueEvent (code sev : Nat) (a0 a1 a2 a3 : Word) (s : State) : (State.enqueueEvent code sev a0 a1 a2 a3 s).mem = s.mem := by simp only [State.enqueueEvent, State.mem_ite, State.mem_setBit, State.mem_count, State.mem_arrive, ite_self]

@[simp] theorem State.mem_logEvent (code : Nat) (a0 a1 a2 a3 : Word) (s : State) : (State.logEvent code a0 a1 a2 a3 s).mem = s.mem := by simp only [State.logEvent, State.mem_ite, State.mem_enqueueEvent, ite_self]

@[simp] theorem State.mem_raise (r : StatReg) (bit : Nat) (a0 a2 a3 : Word) (s : State) : (State.raise r bit a0 a2 a3 s).mem = s.mem := by
  unfold State.raise
  repeat' split
  all_goals simp only [State.mem_ite, State.mem_setBit, State.mem_arrive, State.mem_logEvent, ite_self]

@[simp] theorem State.mem_raise0 (r : StatReg) (bit : Nat) (s : State) : (State.raise0 r bit s).mem = s.mem := by simp only [State.raise0, State.mem_ite, State.mem_raise, ite_self]

@[simp] theorem State.mem_mismatch (block : Nat) (s : State) : (State.mismatch block s).mem = s.mem := by simp only [State.mismatch, State.mem_ite, State.mem_setBit, State.mem_logEvent, ite_self]

@[simp] theorem State.mem_matched (block : Nat) (s : State) : (State.matched block s).mem = s.mem := by simp only [State.matched, State.mem_ite, State.mem_setBit, ite_self]

@[simp] theorem State.mem_errResponse (port addr code : Nat) (write : Bool) (s : State) : (State.errResponse port addr code write s).mem = s.mem := by
  unfold State.errResponse
  extract_lets s1
  refine (State.mem_logEvent _ _ _ _ _ _).trans ?_
  unfold s1
  split
  · exact State.mem_raise _ _ _ _ _ _
  · exact (State.mem_setReg _ _ _).trans (State.mem_setReg _ _ _)

@[simp] theorem State.mem_replyErr (port addr code : Nat) (write : Bool) (s : State) : (State.replyErr port addr code write s).mem = s.mem := by simp only [State.replyErr, State.mem_ite, State.mem_errResponse, State.mem_reply, ite_self]

@[simp] theorem State.mem_showFrozen (old s : State) : (State.showFrozen old s).mem = s.mem := by simp only [State.showFrozen, State.mem_ite, State.mem_emit, ite_self]

@[simp] theorem State.mem_latchGroup (g : Nat) (s : State) : (State.latchGroup g s).mem = s.mem := by simp only [State.latchGroup, State.mem_ite, State.mem_setBit, ite_self]

@[simp] theorem State.mem_takeGroup (g : Nat) (p : Nat → Bool) (src : List (Nat × Word)) (s : State) : (State.takeGroup g p src s).mem = s.mem := rfl

@[simp] theorem State.mem_endFlight (g : Nat) (s : State) : (State.endFlight g s).mem = s.mem := by simp only [State.endFlight, State.mem_ite, State.mem_setBit, ite_self]

@[simp] theorem State.mem_rejectGroup (g : Nat) (s : State) : (State.rejectGroup g s).mem = s.mem := by simp only [State.rejectGroup, State.mem_ite, State.mem_setBit, State.mem_endFlight, ite_self]

@[simp] theorem State.mem_stageStructure (s : State) : (State.stageStructure s).mem = s.mem := by simp only [State.stageStructure, State.mem_ite, ite_self]

@[simp] theorem State.mem_adopt (p : Nat → Bool) (s : State) : (State.adopt p s).mem = s.mem := by
  unfold State.adopt
  exact foldl_keeps State.mem (fun s x => by grind [State.mem_setReg]) _ _

@[simp] theorem State.mem_activeView (s : State) : (State.activeView s).mem = s.mem := by simp only [State.activeView, State.mem_ite, State.mem_adopt, ite_self]

@[simp] theorem State.mem_raiseEach (st : StatReg) (bit n : Nat) (s : State) : (State.raiseEach st bit n s).mem = s.mem := by
  unfold State.raiseEach
  exact foldl_keeps State.mem (fun s x => by grind [State.mem_raise0]) _ _

@[simp] theorem State.mem_renumber (d : Int) (s : State) : (State.renumber d s).mem = s.mem := rfl

@[simp] theorem State.mem_setFrame (s : State) (frame : Nat) : (State.setFrame s frame).mem = s.mem := by simp only [State.setFrame, State.mem_ite, State.mem_renumber, ite_self]

@[simp] theorem State.mem_setPos (s : State) (p : BPos) : (State.setPos s p).mem = s.mem := rfl

@[simp] theorem State.mem_beamAt (p : BPos) (s : State) : (State.beamAt p s).mem = s.mem := by simp only [State.beamAt, State.mem_ite, State.mem_setPos, ite_self]

@[simp] theorem State.mem_setLock (s : State) (st : Nat) : (State.setLock s st).mem = s.mem := by simp only [State.setLock, State.mem_ite, State.mem_setF, State.mem_setBit, ite_self]

@[simp] theorem State.mem_enterLocked (s : State) : (State.enterLocked s).mem = s.mem := by simp only [State.enterLocked, State.mem_ite, State.mem_setFrame, State.mem_setLock, ite_self]

@[simp] theorem State.mem_lockEvent (err : Int) (s0 : State) : (State.lockEvent err s0).mem = s0.mem := by
  simp only [State.lockEvent]
  repeat' split
  all_goals simp

@[simp] theorem State.mem_loseReference (s : State) : (State.loseReference s).mem = s.mem := by
  unfold State.loseReference
  split <;> simp only [State.mem_ite, State.mem_raise0, State.mem_setLock, ite_self]

@[simp] theorem State.mem_noteHops (h : Hop) (n : Option Nat) (s : State) : (State.noteHops h n s).mem = s.mem := by
  unfold State.noteHops
  split <;> simp only [State.mem_ite, ite_self]

@[simp] theorem State.mem_useMark (h : Hop) (m : Mark) (own : Int) (s : State) : (State.useMark h m own s).mem = s.mem := by simp only [State.useMark, State.mem_ite, State.mem_setReg, State.mem_setF, State.mem_setBit, State.mem_raise0, State.mem_lockEvent, ite_self]

@[simp] theorem State.mem_setDelays (s : State) (h : Hop) (l : List Int) : (State.setDelays s h l).mem = s.mem := by
  unfold State.setDelays
  split <;> simp only [State.mem_ite, ite_self]

@[simp] theorem State.mem_takeReference (rate err : Int) (s : State) : (State.takeReference rate err s).mem = s.mem := by simp only [State.takeReference, State.mem_ite, State.mem_setF, State.mem_raise0, State.mem_lockEvent, ite_self]

@[simp] theorem State.mem_fsyncAlign (rising : Bool) (own : Nat) (rate : Int) (s : State) : (State.fsyncAlign rising own rate s).mem = s.mem := by simp only [State.fsyncAlign, State.mem_ite, State.mem_raise0, State.mem_takeReference, ite_self]

@[simp] theorem State.mem_judgeFsout (s : State) : (State.judgeFsout s).mem = s.mem := by simp only [State.judgeFsout, State.mem_ite, State.mem_raise0, ite_self]

@[simp] theorem State.mem_checkPlace (s : State) : (State.checkPlace s).mem = s.mem := by simp only [State.checkPlace, State.mem_ite, State.mem_raise0, State.mem_mismatch, State.mem_matched, ite_self]

@[simp] theorem State.mem_castVote (v : Bool) (s : State) : (State.castVote v s).mem = s.mem := by
  unfold State.castVote
  split <;> simp only [State.mem_ite, ite_self]

@[simp] theorem State.mem_clearVote (s : State) : (State.clearVote s).mem = s.mem := rfl

@[simp] theorem State.mem_setHop (h : Hop) (x : HopSt) (s : State) : (State.setHop h x s).mem = s.mem := by simp only [State.setHop, State.mem_ite, ite_self]

@[simp] theorem State.mem_setHopState (h : Hop) (st : Nat) (s : State) : (State.setHopState h st s).mem = s.mem := by simp only [State.setHopState, State.mem_ite, State.mem_setF, ite_self]

@[simp] theorem State.mem_setLane (h : Hop) (field l : Nat) (b : Bool) (s : State) : (State.setLane h field l b s).mem = s.mem := by simp only [State.setLane, State.mem_ite, State.mem_setBit, ite_self]

@[simp] theorem State.mem_setPeer (h : Hop) (id : Nat) (s : State) : (State.setPeer h id s).mem = s.mem := by simp only [State.setPeer, State.mem_ite, State.mem_setF, ite_self]

@[simp] theorem State.mem_akRaise (h : Hop) (bit : Nat) (s : State) : (State.akRaise h bit s).mem = s.mem := by simp only [State.akRaise, State.mem_ite, State.mem_raise, ite_self]

@[simp] theorem State.mem_showFill (h : Hop) (s : State) : (State.showFill h s).mem = s.mem := by simp only [State.showFill, State.mem_ite, State.mem_setReg, ite_self]

@[simp] theorem State.mem_transmit (h : Hop) (f : Frame) (s : State) : (State.transmit h f s).mem = s.mem := by
  simp only [State.transmit]
  repeat' split
  all_goals simp

@[simp] theorem State.mem_drr (h : Hop) (x : Nat) (s : State) : (State.drr h x s).2.mem = s.mem := by
  fun_induction State.drr <;> grind [State.mem_setHop]

@[simp] theorem State.mem_nextOut (h : Hop) (s : State) : (State.nextOut h s).2.mem = s.mem := by
  grind [State.nextOut, State.mem_drr]

@[simp] theorem State.mem_drain (h : Hop) (x : Nat) (s : State) : (State.drain h x s).mem = s.mem := by
  fun_induction State.drain <;> grind [State.mem_setHop, State.mem_transmit, State.mem_nextOut]

@[simp] theorem State.mem_drainAll (h : Hop) (s : State) : (State.drainAll h s).mem = s.mem := by simp only [State.drainAll, State.mem_ite, State.mem_drain, ite_self]

@[simp] theorem State.mem_put (h : Hop) (transit : Bool) (f : Frame) (s : State) : (State.put h transit f s).mem = s.mem := by simp [State.put, State.mem_foldl]

@[simp] theorem State.mem_startRekey (h : Hop) (s : State) : (State.startRekey h s).mem = s.mem := by
  simp only [State.startRekey]
  repeat' split
  all_goals simp

@[simp] theorem State.mem_copyDown (not_ : List Hop) (ringArrival : Bool) (f : Frame) (s : State) : (State.copyDown not_ ringArrival f s).mem = s.mem := by
  unfold State.copyDown
  exact foldl_keeps State.mem (fun s x => by grind [State.mem_put]) _ _

@[simp] theorem State.mem_copyUp (not_ : List Hop) (f : Frame) (s : State) : (State.copyUp not_ f s).mem = s.mem := by
  unfold State.copyUp
  split <;> simp only [State.mem_ite, State.mem_put, ite_self]

@[simp] theorem State.mem_takeRingSeq (trunks : List Hop) (s : State) : (State.takeRingSeq trunks s).mem = s.mem := by simp only [State.takeRingSeq, State.mem_ite, ite_self]

@[simp] theorem State.mem_inject (trunks : List Hop) (f : Frame) (s : State) : (State.inject trunks f s).mem = s.mem := by
  simp only [State.inject]
  repeat' split
  all_goals simp

@[simp] theorem State.mem_injectOn (x : Nat) (f : Frame) (s : State) : (State.injectOn x f s).mem = s.mem := by simp only [State.injectOn, State.mem_ite, State.mem_put, State.mem_takeRingSeq, ite_self]

@[simp] theorem State.mem_originate (f : Frame) (s : State) : (State.originate f s).mem = s.mem := by
  unfold State.originate
  repeat' split
  all_goals simp only [State.mem_ite, State.mem_put, State.mem_copyDown, State.mem_copyUp, State.mem_inject, ite_self]

@[simp] theorem State.mem_turnBack (x : Nat) (f : Frame) (s : State) : (State.turnBack x f s).mem = s.mem := by simp only [State.turnBack, State.mem_ite, State.mem_put, ite_self]

@[simp] theorem State.mem_passRing (x : Nat) (f : Frame) (s : State) : (State.passRing x f s).mem = s.mem := by simp only [State.passRing, State.mem_ite, State.mem_put, State.mem_copyDown, State.mem_copyUp, State.mem_turnBack, ite_self]

@[simp] theorem State.mem_passIn (h : Hop) (f : Frame) (s : State) : (State.passIn h f s).mem = s.mem := by simp only [State.passIn, State.mem_ite, State.mem_copyDown, State.mem_copyUp, State.mem_inject, ite_self]

@[simp] theorem State.mem_dropFrame (h : Hop) (s : State) : (State.dropFrame h s).mem = s.mem := by simp only [State.dropFrame, State.mem_ite, State.mem_count, State.mem_akRaise, ite_self]

@[simp] theorem State.mem_hopTakes (h : Hop) (ok : Bool) (f : Frame) (s : State) : (State.hopTakes h ok f s).2.mem = s.mem := by
  simp only [State.hopTakes]
  repeat' split
  all_goals simp

@[simp] theorem State.mem_acceptRing (f : Frame) (s : State) : (State.acceptRing f s).2.mem = s.mem := by
  simp only [State.acceptRing]
  repeat' split
  all_goals simp

@[simp] theorem State.mem_breakCopy (h : Hop) (f : Frame) (s : State) : (State.breakCopy h f s).mem = s.mem := by simp only [State.breakCopy, State.mem_ite, State.mem_emit, ite_self]

@[simp] theorem State.mem_arrives (h : Hop) (ok : Bool) (f : Frame) (s : State) : (State.arrives h ok f s).2.mem = s.mem := by
  grind [State.arrives, State.mem_put, State.mem_passRing, State.mem_passIn, State.mem_dropFrame, State.mem_rouse, State.mem_hopTakes, State.mem_acceptRing, State.mem_breakCopy]

@[simp] theorem State.mem_sendRecord (h : Hop) (sub : Nat) (data : List Byte) (s : State) : (State.sendRecord h sub data s).mem = s.mem := by simp only [State.sendRecord, State.mem_ite, State.mem_put, ite_self]

@[simp] theorem State.mem_takeRecord (sub : Nat) (h : Hop) (ok : Bool) (f : Frame) (s : State) : (State.takeRecord sub h ok f s).2.mem = s.mem := by
  grind [State.takeRecord, State.mem_dropFrame, State.mem_hopTakes]

@[simp] theorem State.mem_holdDecision (frame sf : Nat) (go : Bool) (from_ : Option Hop) (s : State) : (State.holdDecision frame sf go from_ s).mem = s.mem := by simp [State.holdDecision, State.mem_foldl]

@[simp] theorem State.mem_judgePair (v : PairView) (s : State) : (State.judgePair v s).mem = s.mem := by simp only [State.judgePair, State.mem_ite, State.mem_raise0, State.mem_activeView, ite_self]

@[simp] theorem State.mem_setMark (s : State) (k : Nat) (u : Upset) : (State.setMark s k u).mem = s.mem := rfl

@[simp] theorem State.mem_upset (k : Nat) (u : Upset) (s : State) : (State.upset k u s).mem = s.mem := by simp only [State.upset, State.mem_ite, State.mem_setMark, ite_self]

@[simp] theorem State.mem_setUse (q u : Nat) (s : State) : (State.setUse q u s).mem = s.mem := by simp only [State.setUse, State.mem_ite, State.mem_setF, ite_self]

@[simp] theorem State.mem_lasting (q : Nat) (s0 : State) : (State.lasting q s0).mem = s0.mem := by
  simp only [State.lasting]
  repeat' split
  all_goals simp

@[simp] theorem State.mem_countCorrection (q : Nat) (addr : Nat) (s0 : State) : (State.countCorrection q addr s0).mem = s0.mem := by simp only [State.countCorrection, State.mem_ite, State.mem_count, State.mem_raise, State.mem_lasting, ite_self]

@[simp] theorem State.mem_foundUe (q addr : Nat) (s : State) : (State.foundUe q addr s).mem = s.mem := by simp only [State.foundUe, State.mem_ite, State.mem_count, State.mem_raise, ite_self]

@[simp] theorem State.mem_eccRead (k q : Nat) (s : State) : (State.eccRead k q s).2.mem = s.mem := by
  unfold State.eccRead
  repeat' split
  all_goals simp only [State.mem_ite, State.mem_countCorrection, State.mem_foundUe, ite_self]

@[simp] theorem State.mem_eccWritten (k : Nat) (s : State) : (State.eccWritten k s).mem = s.mem := by simp only [State.eccWritten, State.mem_ite, State.mem_setMark, ite_self]

@[simp] theorem State.mem_eccMerge (k q : Nat) (s : State) : (State.eccMerge k q s).2.mem = s.mem := by
  unfold State.eccMerge
  split <;> simp only [State.mem_ite, State.mem_countCorrection, State.mem_foundUe, ite_self]

@[simp] theorem State.mem_mirrorWord (wa : Nat) (s : State) : (State.mirrorWord wa s).mem = s.mem := by simp only [State.mirrorWord, State.mem_ite, ite_self]

@[simp] theorem State.mem_grantWords (port n : Nat) (s : State) : (State.grantWords port n s).mem = s.mem := rfl

@[simp] theorem State.mem_sramRead (port wa : Nat) (s0 : State) : (State.sramRead port wa s0).2.2.mem = s0.mem := by
  simp only [State.sramRead]
  repeat' split
  all_goals simp

@[simp] theorem State.mem_sramReadBytes (port a n : Nat) (s : State) : (State.sramReadBytes port a n s).2.2.mem = s.mem := by
  unfold State.sramReadBytes
  exact foldl_keeps (fun acc : Nat × List Byte × State => acc.2.2.mem) (fun s x => by grind [State.mem_sramRead]) _ _

@[simp] theorem State.mem_eccSpan (size q a n : Nat) (s : State) : (State.eccSpan size q a n s).2.mem = s.mem := by
  unfold State.eccSpan
  exact foldl_keeps (fun acc : Nat × State => acc.2.mem) (fun s x => by grind [State.mem_eccRead]) _ _

@[simp] theorem State.mem_portFail (port a n code : Nat) (s : State) : (State.portFail port a n code s).2.2.mem = s.mem := by simp only [State.portFail, State.mem_ite, State.mem_errResponse, ite_self]

@[simp] theorem State.mem_eccBytes (port size q a n : Nat) (s : State) : (State.eccBytes port size q a n s).2.2.mem = s.mem := by
  grind [State.eccBytes, State.mem_eccSpan, State.mem_portFail]

@[simp] theorem State.mem_memRead (port a n : Nat) (s : State) : (State.memRead port a n s).2.2.mem = s.mem := by
  unfold State.memRead
  repeat' split
  all_goals simp only [State.mem_ite, State.mem_sramReadBytes, State.mem_portFail, State.mem_eccBytes, ite_self]

@[simp] theorem State.mem_portRead (port a n : Nat) (s : State) : (State.portRead port a n s).2.2.mem = s.mem := by
  unfold State.portRead
  split <;> simp only [State.mem_ite, State.mem_portFail, State.mem_memRead, ite_self]

@[simp] theorem State.mem_scrubRead (k q : Nat) (s : State) : (State.scrubRead k q s).mem = s.mem := by simp only [State.scrubRead, State.mem_ite, State.mem_eccRead, ite_self]

@[simp] theorem State.mem_ceWindow (s : State) : (State.ceWindow s).mem = s.mem := by
  unfold State.ceWindow
  exact foldl_keeps State.mem (fun s x => by grind [State.mem_setF]) _ _

@[simp] theorem State.mem_writeCepol (v : Word) (s : State) : (State.writeCepol v s).mem = s.mem := by simp only [State.writeCepol, State.mem_ite, State.mem_writeCoded, State.mem_ceWindow, ite_self]

@[simp] theorem State.mem_showJob (s : State) : (State.showJob s).mem = s.mem := by
  unfold State.showJob
  split <;> simp only [State.mem_ite, State.mem_setReg, ite_self]

@[simp] theorem State.mem_setJob (j : Option Job) (s : State) : (State.setJob j s).mem = s.mem := by simp only [State.setJob, State.mem_ite, State.mem_showJob, ite_self]

@[simp] theorem State.mem_startMigration (j : Job) (s : State) : (State.startMigration j s).mem = s.mem := by simp only [State.startMigration, State.mem_ite, State.mem_setF, State.mem_setBit, State.mem_setUse, State.mem_setJob, ite_self]

@[simp] theorem State.mem_startQueued (x : List Job) (s : State) : (State.startQueued x s).mem = s.mem := by
  fun_induction State.startQueued <;> grind [State.mem_setUse, State.mem_startMigration]

@[simp] theorem State.mem_reqPreserving (b : Nat) (s : State) : (State.reqPreserving b s).mem = s.mem := by
  unfold State.reqPreserving
  repeat' split
  all_goals simp only [State.mem_ite, State.mem_raise, State.mem_startMigration, ite_self]

@[simp] theorem State.mem_reqDestroying (b : Nat) (s : State) : (State.reqDestroying b s).mem = s.mem := by simp only [State.reqDestroying, State.mem_ite, State.mem_raise, State.mem_setUse, State.mem_setJob, ite_self]

@[simp] theorem State.mem_marchTick (s : State) : (State.marchTick s).mem = s.mem := by
  unfold State.marchTick
  split <;> simp only [State.mem_ite, State.mem_setJob, ite_self]

@[simp] theorem State.mem_mapFailed (x : List Nat) (y : List Nat) (s : State) : (State.mapFailed x y s).1.mem = s.mem := by
  fun_induction State.mapFailed <;> grind [State.mem_setF, State.mem_setUse]

@[simp] theorem State.mem_applyTouch (fx : Fx) (s : State) : (State.applyTouch fx s).mem = s.mem := by
  unfold State.applyTouch
  exact foldl_keeps State.mem (fun s x => by grind [State.mem_errResponse, State.mem_eccRead, State.mem_sramRead]) _ _

@[simp] theorem State.mem_withFrame (f : QFrame) (s : State) : (State.withFrame f s).mem = s.mem := by simp only [State.withFrame, State.mem_ite, ite_self]

@[simp] theorem State.mem_mapLines (f : QLine → QLine) (s : State) : (State.mapLines f s).mem = s.mem := rfl

@[simp] theorem State.mem_raiseOnce (frame slot bit : Nat) (r : StatReg) (arg0 : Word) (s : State) : (State.raiseOnce frame slot bit r arg0 s).mem = s.mem := by simp only [State.raiseOnce, State.mem_ite, State.mem_raise, ite_self]

@[simp] theorem State.mem_findSpans (s : State) : (State.findSpans s).mem = s.mem := by simp only [State.findSpans, State.mem_ite, State.mem_activeView, ite_self]

@[simp] theorem State.mem_lastOn (p l : Nat) (s : State) : (State.lastOn p l s).2.mem = s.mem := by
  unfold State.lastOn
  split <;> simp only [State.mem_ite, State.mem_draw, ite_self]

@[simp] theorem State.mem_setLast (p l v : Nat) (s : State) : (State.setLast p l v s).mem = s.mem := rfl

@[simp] theorem State.mem_lineWords (p l r shift : Nat) (slots : List (Nat × Nat)) (s : State) : (State.lineWords p l r shift slots s).2.2.mem = s.mem := by
  unfold State.lineWords
  exact foldl_keeps (fun acc : List Nat × Bool × State => acc.2.2.mem) (fun s x => by grind [State.mem_lastOn, State.mem_setLast]) _ _

@[simp] theorem State.mem_allWords (r shift : Nat) (slots : List (Nat × Nat)) (ps : List Nat) (s : State) : (State.allWords r shift slots ps s).2.2.mem = s.mem := by
  unfold State.allWords
  exact foldl_keeps (fun acc : List (List Nat) × Bool × State => acc.2.2.mem) (fun s x => by grind [State.mem_lineWords]) _ _

@[simp] theorem State.mem_setUnit (u : UnitSt) (s : State) : (State.setUnit u s).mem = s.mem := rfl

@[simp] theorem State.mem_trimSegs (pair : Nat) (s : State) : (State.trimSegs pair s).mem = s.mem := rfl

@[simp] theorem State.mem_unitUnder (pair : Nat) (s : State) : (State.unitUnder pair s).mem = s.mem := by simp only [State.unitUnder, State.mem_ite, State.mem_count, State.mem_raise, ite_self]

@[simp] theorem State.mem_lastWords (ps : List (Nat × Nat)) (s : State) : (State.lastWords ps s).2.mem = s.mem := by
  unfold State.lastWords
  exact foldl_keeps (fun acc : List Nat × State => acc.2.mem) (fun s x => by grind [State.mem_lastOn]) _ _

@[simp] theorem State.mem_cutUnit (a b : Nat) (u : UnitSt) (s : State) : (State.cutUnit a b u s).mem = s.mem := by
  unfold State.cutUnit
  exact foldl_keeps State.mem (fun s x => by grind [State.mem_draw, State.mem_setLast, State.mem_setUnit]) _ _

@[simp] theorem State.mem_panelRedo (a b : Nat) (s : State) : (State.panelRedo a b s).mem = s.mem := by simp [State.panelRedo, State.mem_foldl]

@[simp] theorem State.mem_panelSquash (q : QFrame) (y : Nat) (s : State) : (State.panelSquash q y s).mem = s.mem := by simp only [State.panelSquash, State.mem_ite, State.mem_panelRedo, ite_self]

@[simp] theorem State.mem_panelRewrite (y0 y1 : Nat) (s : State) : (State.panelRewrite y0 y1 s).mem = s.mem := by simp only [State.panelRewrite, State.mem_ite, State.mem_panelRedo, ite_self]

@[simp] theorem State.mem_sendCommand (p k data : Nat) (s : State) : (State.sendCommand p k data s).mem = s.mem := by simp only [State.sendCommand, State.mem_ite, State.mem_emit, ite_self]

@[simp] theorem State.mem_pnlCmdq (v : Word) (s : State) : (State.pnlCmdq v s).mem = s.mem := by simp only [State.pnlCmdq, State.mem_ite, State.mem_raise0, ite_self]

@[simp] theorem State.mem_mapStep (s : State) : (State.mapStep s).mem = s.mem := by simp only [State.mapStep, State.mem_ite, State.mem_setF, ite_self]

@[simp] theorem State.mem_mapPut (i : Nat) (v : Word) (s : State) : (State.mapPut i v s).mem = s.mem := by simp only [State.mapPut, State.mem_ite, State.mem_raise0, ite_self]

@[simp] theorem State.mem_mapWrite (v : Word) (s : State) : (State.mapWrite v s).mem = s.mem := by simp only [State.mapWrite, State.mem_ite, State.mem_mapStep, State.mem_mapPut, ite_self]

@[simp] theorem State.mem_setScan (x : ScanSt) (s : State) : (State.setScan x s).mem = s.mem := rfl

@[simp] theorem State.mem_driveGroup (g : Nat) (s : State) : (State.driveGroup g s).mem = s.mem := by
  unfold State.driveGroup
  split <;> simp only [State.mem_ite, State.mem_emit, ite_self]

@[simp] theorem State.mem_setGroup (g row : Nat) (en : Bool) (s : State) : (State.setGroup g row en s).mem = s.mem := by simp only [State.setGroup, State.mem_ite, State.mem_driveGroup, ite_self]

@[simp] theorem State.mem_startRefresh (s : State) : (State.startRefresh s).mem = s.mem := by
  unfold State.startRefresh
  refine (foldl_keeps State.mem (fun s x => ?_) _ _).trans (foldl_keeps State.mem (fun s x => ?_) _ _)
  · dsimp only
    split <;> rfl
  · split
    · split
      · rfl
      · exact State.mem_setGroup _ _ _ _
    · rfl

@[simp] theorem State.mem_goDark (s : State) : (State.goDark s).mem = s.mem := by
  unfold State.goDark
  exact foldl_keeps State.mem (fun s x => by grind [State.mem_setGroup]) _ _

@[simp] theorem State.mem_showBlank (was : Bool) (s0 : State) : (State.showBlank was s0).mem = s0.mem := by simp [State.showBlank, State.mem_foldl]

@[simp] theorem State.mem_blankRequest (v : Word) (s : State) : (State.blankRequest v s).mem = s.mem := by simp only [State.blankRequest, State.mem_ite, State.mem_setBit, ite_self]

@[simp] theorem State.mem_panelAdopt (s : State) : (State.panelAdopt s).mem = s.mem := by simp [State.panelAdopt, State.mem_foldl]

@[simp] theorem State.mem_panelFrameEnd (s : State) : (State.panelFrameEnd s).mem = s.mem := by simp only [State.panelFrameEnd, State.mem_ite, State.mem_panelAdopt, ite_self]

@[simp] theorem State.mem_putCheck (c : SigCheck) (s : State) : (State.putCheck c s).mem = s.mem := by simp only [State.putCheck, State.mem_ite, ite_self]

@[simp] theorem State.mem_startChecks (q : QFrame) (s : State) : (State.startChecks q s).mem = s.mem := by
  unfold State.startChecks
  exact foldl_keeps State.mem (fun s x => by grind [State.mem_putCheck]) _ _

@[simp] theorem State.mem_enterPavane (r : Nat) (s : State) : (State.enterPavane r s).mem = s.mem := by simp only [State.enterPavane, State.mem_ite, State.mem_setF, State.mem_setBit, State.mem_raise, ite_self]

@[simp] theorem State.mem_leavePavane (r : Nat) (s : State) : (State.leavePavane r s).mem = s.mem := by simp only [State.leavePavane, State.mem_ite, State.mem_setBit, State.mem_raise, ite_self]

@[simp] theorem State.mem_recordOutcome (r code sum : Nat) (s : State) : (State.recordOutcome r code sum s).mem = s.mem := by simp only [State.recordOutcome, State.mem_ite, State.mem_setReg, State.mem_setF, ite_self]

@[simp] theorem State.mem_recordRegion (q : QFrame) (swapped : Bool) (r : Nat) (s : State) : (State.recordRegion q swapped r s).mem = s.mem := by
  unfold State.recordRegion
  repeat' split
  all_goals simp only [State.mem_ite, State.mem_setF, State.mem_count, State.mem_arrive, State.mem_raise, State.mem_enterPavane, State.mem_leavePavane, State.mem_recordOutcome, ite_self]

@[simp] theorem State.mem_recordAll (q : QFrame) (swapped : Bool) (s : State) : (State.recordAll q swapped s).mem = s.mem := by
  unfold State.recordAll
  exact foldl_keeps State.mem (fun s x => by grind [State.mem_recordRegion]) _ _

@[simp] theorem State.mem_pavaneRequest (v : Word) (s : State) : (State.pavaneRequest v s).mem = s.mem := by
  unfold State.pavaneRequest
  exact foldl_keeps State.mem (fun s x => by grind [State.mem_setBit, State.mem_raise]) _ _

@[simp] theorem State.mem_takePavaneRequest (r : Nat) (s : State) : (State.takePavaneRequest r s).mem = s.mem := by simp only [State.takePavaneRequest, State.mem_ite, State.mem_setBit, State.mem_enterPavane, ite_self]

@[simp] theorem State.mem_pavaneExit (v : Word) (s : State) : (State.pavaneExit v s).mem = s.mem := by
  unfold State.pavaneExit
  exact foldl_keeps State.mem (fun s x => by grind [State.mem_leavePavane]) _ _

@[simp] theorem State.mem_judgeRegions (sel : Bool) (s : State) : (State.judgeRegions sel s).mem = s.mem := by
  unfold State.judgeRegions
  exact foldl_keeps State.mem (fun s x => by grind [State.mem_raise, State.mem_activeView]) _ _

@[simp] theorem State.mem_keepChanged (old s : State) : (State.keepChanged old s).mem = s.mem := by
  unfold State.keepChanged
  exact foldl_keeps State.mem (fun s x => by grind [State.mem_setBit]) _ _

@[simp] theorem State.mem_setLayer (n : Nat) (l : LayerSt) (s : State) : (State.setLayer n l s).mem = s.mem := rfl

@[simp] theorem State.mem_flip (m n : Nat) (s : State) : (State.flip m n s).2.mem = s.mem := by
  simp only [State.flip]
  repeat' split
  all_goals simp

@[simp] theorem State.mem_planeFlip (m n : Nat) (s : State) : (State.planeFlip m n s).mem = s.mem := by simp only [State.planeFlip, State.mem_ite, State.mem_setBit, State.mem_setLayer, ite_self]

@[simp] theorem State.mem_planeStale (m n : Nat) (s : State) : (State.planeStale m n s).mem = s.mem := by simp only [State.planeStale, State.mem_ite, State.mem_raiseOnce, ite_self]

@[simp] theorem State.mem_readSprites (m n : Nat) (s : State) : (State.readSprites m n s).mem = s.mem := by
  unfold State.readSprites
  refine (State.mem_setLayer _ _ _).trans (foldl_keeps (fun acc : List (Option Nat) × State => acc.2.mem) (fun acc i => ?_) _ _)
  have h := State.mem_sramRead (s.spritePort m) ((s.reg (Reg.LAYn_Bb_BASE0 n (s.front n))).toNat + 16 * i) acc.2
  revert h
  generalize State.sramRead _ _ acc.2 = r
  intro h
  dsimp only
  split
  · exact (State.mem_raiseOnce _ _ _ _ _ _).trans h
  · dsimp only
    rw [State.mem_ite, State.mem_raiseOnce, ite_self, h]

@[simp] theorem State.mem_readSlotSprites (m n : Nat) (s : State) : (State.readSlotSprites m n s).mem = s.mem := by simp only [State.readSlotSprites, State.mem_ite, State.mem_setLayer, State.mem_readSprites, ite_self]

@[simp] theorem State.mem_limitSprites (m : Nat) (s : State) : (State.limitSprites m s).mem = s.mem := by
  unfold State.limitSprites
  repeat' split
  all_goals simp only [State.mem_ite, State.mem_raiseOnce, ite_self]

@[simp] theorem State.mem_applyQdlGroup (g : Nat) (s : State) : (State.applyQdlGroup g s).mem = s.mem := by
  unfold State.applyQdlGroup
  repeat' split
  all_goals simp only [State.mem_ite, State.mem_raise0, State.mem_takeGroup, State.mem_endFlight, State.mem_rejectGroup, State.mem_judgeRegions, State.mem_keepChanged, ite_self]

@[simp] theorem State.mem_adoptQdl (s : State) : (State.adoptQdl s).mem = s.mem := by simp [State.adoptQdl, State.mem_foldl]

@[simp] theorem State.mem_loadBase (s : State) : (State.loadBase s).mem = s.mem := by
  unfold State.loadBase
  exact foldl_keeps State.mem (fun s x => by grind [State.mem_setReg]) _ _

@[simp] theorem State.mem_flipPoint (m n : Nat) (s : State) : (State.flipPoint m n s).mem = s.mem := by simp only [State.flipPoint, State.mem_ite, State.mem_setLayer, State.mem_flip, State.mem_planeFlip, State.mem_planeStale, ite_self]

@[simp] theorem State.mem_openFrame (f sf : Nat) (s : State) : (State.openFrame f sf s).mem = s.mem := by
  unfold State.openFrame
  split
  all_goals simp -implicitDefEqProofs [State.mem_foldl]

@[simp] theorem State.mem_dropPlane (n : Nat) (s : State) : (State.dropPlane n s).mem = s.mem := by simp only [State.dropPlane, State.mem_ite, State.mem_count, ite_self]

@[simp] theorem State.mem_newPlane (n tag : Nat) (s : State) : (State.newPlane n tag s).mem = s.mem := by
  simp only [State.newPlane]
  repeat' split
  all_goals simp

@[simp] theorem State.mem_retireLane (l : Nat) (s : State) : (State.retireLane l s).mem = s.mem := by simp only [State.retireLane, State.mem_ite, State.mem_setBit, State.mem_raise, ite_self]

@[simp] theorem State.mem_writeLanepol (v : Word) (s : State) : (State.writeLanepol v s).mem = s.mem := by simp only [State.writeLanepol, State.mem_ite, State.mem_setReg, State.mem_writeCoded, ite_self]

@[simp] theorem State.mem_endFrame (q : QFrame) (s : State) : (State.endFrame q s).mem = s.mem := by
  unfold State.endFrame
  exact foldl_keeps State.mem (fun s x => by grind [State.mem_setBit, State.mem_setLayer]) _ _

@[simp] theorem State.mem_skipFrame (q : QFrame) (s : State) : (State.skipFrame q s).mem = s.mem := by simp only [State.skipFrame, State.mem_ite, ite_self]

@[simp] theorem State.mem_setEng (e : Nat) (x : EngSt) (s : State) : (State.setEng e x s).mem = s.mem := rfl

@[simp] theorem State.mem_setEngState (e st : Nat) (s : State) : (State.setEngState e st s).mem = s.mem := by simp only [State.setEngState, State.mem_ite, State.mem_setF, ite_self]

@[simp] theorem State.mem_setEngPc (e pc : Nat) (s : State) : (State.setEngPc e pc s).mem = s.mem := by simp only [State.setEngPc, State.mem_ite, State.mem_setReg, ite_self]

@[simp] theorem State.mem_setMreg (e r : Nat) (v : Word) (s : State) : (State.setMreg e r v s).mem = s.mem := by simp only [State.setMreg, State.mem_ite, State.mem_setReg, ite_self]

@[simp] theorem State.mem_setStack (e : Nat) (l : List Nat) (s : State) : (State.setStack e l s).mem = s.mem := by simp only [State.setStack, State.mem_ite, State.mem_setF, State.mem_setEng, ite_self]

@[simp] theorem State.mem_setStage (e : Nat) (g : Stage) (s : State) : (State.setStage e g s).mem = s.mem := by simp only [State.setStage, State.mem_ite, State.mem_setEng, ite_self]

@[simp] theorem State.mem_mntRaise (e bit : Nat) (s : State) : (State.mntRaise e bit s).mem = s.mem := by simp only [State.mntRaise, State.mem_ite, State.mem_raise, ite_self]

@[simp] theorem State.mem_engFault (e code : Nat) (s : State) : (State.engFault e code s).mem = s.mem := by simp only [State.engFault, State.mem_ite, State.mem_setReg, State.mem_arrive, State.mem_logEvent, State.mem_setStage, State.mem_mntRaise, ite_self]

@[simp] theorem State.mem_engEnd (e : Nat) (s : State) : (State.engEnd e s).mem = s.mem := by simp only [State.engEnd, State.mem_ite, State.mem_setEngState, State.mem_setStage, ite_self]

@[simp] theorem State.mem_engStart (e n : Nat) (s1 : State) : (State.engStart e n s1).mem = s1.mem := by simp only [State.engStart, State.mem_ite, State.mem_setReg, State.mem_setEng, State.mem_setEngState, State.mem_setEngPc, State.mem_setStack, ite_self]

@[simp] theorem State.mem_engEnter (e n : Nat) (s : State) : (State.engEnter e n s).mem = s.mem := by simp only [State.engEnter, State.mem_ite, State.mem_takeGroup, State.mem_engStart, ite_self]

@[simp] theorem State.mem_mntEntered (s : State) : (State.mntEntered s).mem = s.mem := by simp only [State.mntEntered, State.mem_ite, State.mem_takeGroup, State.mem_endFlight, State.mem_adopt, ite_self]

@[simp] theorem State.mem_engNext (e : Nat) (s : State) : (State.engNext e s).mem = s.mem := by simp only [State.engNext, State.mem_ite, State.mem_engEnter, State.mem_mntEntered, ite_self]

@[simp] theorem State.mem_fireEvent (code : Nat) (s : State) : (State.fireEvent code s).mem = s.mem := by
  unfold State.fireEvent
  exact foldl_keeps State.mem (fun s x => by grind) _ _

@[simp] theorem State.mem_useEvent (e c : Nat) (s : State) : (State.useEvent e c s).mem = s.mem := by simp only [State.useEvent, State.mem_ite, State.mem_setEng, ite_self]

@[simp] theorem State.mem_issueRaster (e target : Nat) (v : Word) (s : State) : (State.issueRaster e target v s).mem = s.mem := rfl

@[simp] theorem State.mem_issueTimed (e space addr : Nat) (v : Word) (s : State) : (State.issueTimed e space addr v s).mem = s.mem := rfl

@[simp] theorem State.mem_engResult (e w : Nat) (v : Word) (s : State) : (State.engResult e w v s).mem = s.mem := by simp only [State.engResult, State.mem_ite, State.mem_setReg, State.mem_setMreg, ite_self]

@[simp] theorem State.mem_engAct (e w : Nat) (c : Option Bool) (s : State) : (State.engAct e w c s).mem = s.mem := by
  unfold State.engAct
  repeat' split
  all_goals simp only [State.mem_ite, State.mem_setEngState, State.mem_setEngPc, State.mem_setStack, State.mem_setStage, State.mem_engFault, State.mem_engEnd, ite_self]

@[simp] theorem State.mem_engCount (e w : Nat) (c : Option Bool) (s : State) : (State.engCount e w c s).mem = s.mem := by simp only [State.engCount, State.mem_ite, State.mem_setF, State.mem_setEngState, State.mem_setStage, State.mem_engAct, ite_self]

@[simp] theorem State.mem_engWrite (e w : Nat) (c : Option Bool) (s : State) : (State.engWrite e w c s).mem = s.mem := by
  simp only [State.engWrite]
  repeat' split
  all_goals simp

@[simp] theorem State.mem_engData (e w : Nat) (c : Option Bool) (s : State) : (State.engData e w c s).mem = s.mem := by simp only [State.engData, State.mem_ite, State.mem_setStage, State.mem_engFault, State.mem_engResult, State.mem_engWrite, ite_self]

@[simp] theorem State.mem_engMove (e : Nat) (p : BPos) (s : State) : (State.engMove e p s).mem = s.mem := by simp only [State.engMove, State.mem_ite, State.mem_setEng, ite_self]

@[simp] theorem State.mem_engRange (e : Nat) (s : State) : (State.engRange e s).mem = s.mem := by simp only [State.engRange, State.mem_ite, State.mem_setBit, State.mem_engEnd, ite_self]

@[simp] theorem State.mem_setTout (e : Nat) (b : Bool) (s : State) : (State.setTout e b s).mem = s.mem := by simp only [State.setTout, State.mem_ite, State.mem_setBit, ite_self]

@[simp] theorem State.mem_engWait (e w : Nat) (s : State) : (State.engWait e w s).mem = s.mem := by
  simp only [State.engWait]
  repeat' split
  all_goals simp

@[simp] theorem State.mem_beamFetch (e i : Nat) (s : State) : (State.beamFetch e i s).2.mem = s.mem := by
  simp only [State.beamFetch]
  repeat' split
  all_goals simp

@[simp] theorem State.mem_v1Next (e pc : Nat) (s : State) : (State.v1Next e pc s).mem = s.mem := by simp only [State.v1Next, State.mem_ite, State.mem_setF, State.mem_setEngState, State.mem_setEngPc, State.mem_setStage, ite_self]

@[simp] theorem State.mem_v1Write (e w target : Nat) (v : Word) (s : State) : (State.v1Write e w target v s).mem = s.mem := by simp only [State.v1Write, State.mem_ite, State.mem_setEngState, State.mem_setStage, State.mem_issueRaster, State.mem_v1Next, ite_self]

@[simp] theorem State.mem_v1Step (e w : Nat) (s : State) : (State.v1Step e w s).mem = s.mem := by
  simp only [State.v1Step]
  repeat' split
  all_goals simp

@[simp] theorem State.mem_engTimeout (addr : Nat) (s : State) : (State.engTimeout addr s).mem = s.mem := by
  unfold State.engTimeout
  split <;> simp only [State.mem_ite, State.mem_engFault, ite_self]

@[simp] theorem State.mem_engFaultClear (e : Nat) (s : State) : (State.engFaultClear e s).mem = s.mem := by simp only [State.engFaultClear, State.mem_ite, State.mem_setReg, State.mem_setBit, State.mem_setEng, ite_self]

@[simp] theorem State.mem_gflagSet (v : Word) (s : State) : (State.gflagSet v s).mem = s.mem := by simp only [State.gflagSet, State.mem_ite, State.mem_setReg, ite_self]

@[simp] theorem State.mem_gflagClear (v : Word) (s : State) : (State.gflagClear v s).mem = s.mem := by simp only [State.gflagClear, State.mem_ite, State.mem_setReg, ite_self]

@[simp] theorem State.mem_setVoice (v : Nat) (x : VoiceSt) (s : State) : (State.setVoice v x s).mem = s.mem := rfl

@[simp] theorem State.mem_setVoiceState (v st : Nat) (s : State) : (State.setVoiceState v st s).mem = s.mem := by simp only [State.setVoiceState, State.mem_ite, State.mem_setF, ite_self]

@[simp] theorem State.mem_setEnv (v e : Nat) (s : State) : (State.setEnv v e s).mem = s.mem := by simp only [State.setEnv, State.mem_ite, State.mem_setF, ite_self]

@[simp] theorem State.mem_sndOnce (bit chan : Nat) (s : State) : (State.sndOnce bit chan s).mem = s.mem := by simp only [State.sndOnce, State.mem_ite, State.mem_raise0, ite_self]

@[simp] theorem State.mem_voiceEnd (v : Nat) (s : State) : (State.voiceEnd v s).mem = s.mem := by simp only [State.voiceEnd, State.mem_ite, State.mem_setBit, State.mem_arrive, State.mem_setVoiceState, State.mem_setEnv, ite_self]

@[simp] theorem State.mem_keyOn (v : Nat) (s : State) : (State.keyOn v s).mem = s.mem := by simp only [State.keyOn, State.mem_ite, State.mem_setReg, State.mem_setBit, State.mem_raise0, State.mem_setVoice, State.mem_voiceEnd, ite_self]

@[simp] theorem State.mem_keyOff (v : Nat) (s : State) : (State.keyOff v s).mem = s.mem := by simp only [State.keyOff, State.mem_ite, State.mem_setVoice, State.mem_setVoiceState, ite_self]

@[simp] theorem State.mem_voiceSample (v : Nat) (s : State) : (State.voiceSample v s).2.mem = s.mem := by
  grind [State.voiceSample, State.mem_setReg, State.mem_setBit, State.mem_setVoice, State.mem_setVoiceState, State.mem_setEnv, State.mem_sndOnce, State.mem_voiceEnd]

@[simp] theorem State.mem_readWord (port wa : Nat) (s : State) : (State.readWord port wa s).2.2.mem = s.mem := by simp only [State.readWord, State.mem_ite, State.mem_portRead, ite_self]

@[simp] theorem State.mem_changeNode (o i : Nat) (w : Word) (s : State) : (State.changeNode o i w s).mem = s.mem := by
  unfold State.changeNode
  repeat' split
  all_goals simp only [State.mem_ite, State.mem_setReg, ite_self]

@[simp] theorem State.mem_settleNodes (p : ZcPend → Bool) (s : State) : (State.settleNodes p s).mem = s.mem := by
  unfold State.settleNodes
  exact foldl_keeps State.mem (fun s x => by grind [State.mem_setReg]) _ _

@[simp] theorem State.mem_applySndxpt (s : State) : (State.applySndxpt s).mem = s.mem := by simp [State.applySndxpt, State.mem_foldl]

@[simp] theorem State.mem_nodeWrite (v : Word) (s : State) : (State.nodeWrite v s).mem = s.mem := by simp only [State.nodeWrite, State.mem_ite, State.mem_raise0, ite_self]

@[simp] theorem State.mem_keyOnWrite (n : Nat) (v : Word) (s : State) : (State.keyOnWrite n v s).mem = s.mem := by simp only [State.keyOnWrite, State.mem_ite, State.mem_keyOn, ite_self]

@[simp] theorem State.mem_keyOffWrite (n : Nat) (v : Word) (s : State) : (State.keyOffWrite n v s).mem = s.mem := by simp only [State.keyOffWrite, State.mem_ite, State.mem_keyOff, ite_self]

@[simp] theorem State.mem_applyWrite (s : State) (x : SndWrite) : (State.applyWrite s x).mem = s.mem := by
  unfold State.applyWrite
  split <;> simp [State.mem_foldl]

@[simp] theorem State.mem_streamSample (k ch : Nat) (s : State) : (State.streamSample k ch s).2.mem = s.mem := by
  simp only [State.streamSample]
  repeat' split
  all_goals simp

@[simp] theorem State.mem_clampBus (chan : Nat) (x : Int) (s : State) : (State.clampBus chan x s).2.mem = s.mem := by
  simp only [State.clampBus]
  repeat' split
  all_goals simp

@[simp] theorem State.mem_mixOutput (ins : List Int) (o : Nat) (s : State) : (State.mixOutput ins o s).2.mem = s.mem := by simp only [State.mixOutput, State.mem_ite, State.mem_clampBus, ite_self]

@[simp] theorem State.mem_setObject (c : Nat) (x : ObjectSt) (s : State) : (State.setObject c x s).mem = s.mem := rfl

@[simp] theorem State.mem_applyObjpar (s : State) : (State.applyObjpar s).mem = s.mem := by
  simp -implicitDefEqProofs [State.applyObjpar, State.mem_foldl]

@[simp] theorem State.mem_updateObject (n : Nat) (s : State) (c : Nat) : (State.updateObject n s c).mem = s.mem := by simp only [State.updateObject, State.mem_ite, State.mem_setReg, State.mem_raise, State.mem_setObject, ite_self]

@[simp] theorem State.mem_fillGap (s : State) : (State.fillGap s).mem = s.mem := by
  simp -implicitDefEqProofs [State.fillGap, State.mem_foldl]

@[simp] theorem State.mem_stepObjects (ins outs : List Int) (s : State) : (State.stepObjects ins outs s).mem = s.mem := by
  simp -implicitDefEqProofs [State.stepObjects, State.mem_foldl]

@[simp] theorem State.mem_renderSample (ins outs : List Int) (s0 : State) : (State.renderSample ins outs s0).2.mem = s0.mem := by
  simp [State.renderSample, mem_mapSt]

@[simp] theorem State.mem_setChain (o : Nat) (x : ChainSt) (s : State) : (State.setChain o x s).mem = s.mem := rfl

@[simp] theorem State.mem_blockSeen (s : State) : (State.blockSeen s).mem = s.mem := rfl

@[simp] theorem State.mem_blockStart (s : State) : (State.blockStart s).mem = s.mem := by
  unfold State.blockStart
  exact foldl_keeps State.mem (fun s x => by grind [State.mem_setChain, State.mem_blockSeen]) _ _

@[simp] theorem State.mem_runChain (blk : List (Nat × List Int × List Int)) (o : Nat) (s : State) : (State.runChain blk o s).2.mem = s.mem := by
  unfold State.runChain
  refine foldl_keeps (fun acc : Nat × List Int × State => acc.2.2.mem) (fun acc e => ?_) _ _
  simp [State.mem_ite]

@[simp] theorem State.mem_runChains (blk : List (Nat × List Int × List Int)) (x : List Nat) (s : State) : (State.runChains blk x s).2.mem = s.mem := by
  fun_induction State.runChains <;> grind [State.mem_runChain]

@[simp] theorem State.mem_sendTdm (codes : List (List Int)) (count : Nat) (s : State) : (State.sendTdm codes count s).mem = s.mem := by
  unfold State.sendTdm
  exact foldl_keeps State.mem (fun s x => by grind [State.mem_count, State.mem_emit, State.mem_draw]) _ _

@[simp] theorem State.mem_showTdm (old s : State) : (State.showTdm old s).mem = s.mem := by
  unfold State.showTdm
  exact foldl_keeps State.mem (fun s x => by grind [State.mem_emit]) _ _

@[simp] theorem State.mem_sendRun (run : List (Nat × List Int × List Int)) (s : State) : (State.sendRun run s).mem = s.mem := by
  unfold State.sendRun
  refine (State.mem_injectOn _ _ _).trans ?_
  refine foldl_keeps (fun acc : List Byte × State => acc.2.mem) (fun acc e => ?_) _ _
  refine foldl_keeps (fun acc : List Byte × State => acc.2.mem) (fun acc c => ?_) _ _
  simp [State.mem_ite]

@[simp] theorem State.mem_sendUpstream (blk : List (Nat × List Int × List Int)) (s : State) : (State.sendUpstream blk s).mem = s.mem := by simp [State.sendUpstream, State.mem_foldl]

@[simp] theorem State.mem_mixSample (k : Nat) (tdm : List (List Nat)) (s : State) : (State.mixSample k tdm s).mem = s.mem := by
  simp [State.mixSample, mem_mapSt, State.mem_foldl]

@[simp] theorem State.mem_setConv (c : Nat) (b : Bool) (s : State) : (State.setConv c b s).mem = s.mem := by simp only [State.setConv, State.mem_ite, State.mem_setBit, ite_self]

@[simp] theorem State.mem_unlock (c : Nat) (s : State) : (State.unlock c s).mem = s.mem := by simp only [State.unlock, State.mem_ite, State.mem_raise0, State.mem_setConv, ite_self]

@[simp] theorem State.mem_biquadWrite (o k : Nat) (v : Word) (s : State) : (State.biquadWrite o k v s).mem = s.mem := by
  simp only [State.biquadWrite]
  repeat' split
  all_goals simp

@[simp] theorem State.mem_delayWrite (o : Nat) (v : Word) (s : State) : (State.delayWrite o v s).mem = s.mem := by simp only [State.delayWrite, State.mem_ite, State.mem_writeCoded, State.mem_raise0, ite_self]

@[simp] theorem State.mem_sndCtrlWrite (v : Word) (s : State) : (State.sndCtrlWrite v s).mem = s.mem := by
  simp -implicitDefEqProofs [State.sndCtrlWrite, State.mem_foldl]

@[simp] theorem State.mem_sndRestart (s : State) : (State.sndRestart s).mem = s.mem := by
  simp -implicitDefEqProofs [State.sndRestart, State.mem_foldl]

@[simp] theorem State.mem_adoptSound (s : State) : (State.adoptSound s).mem = s.mem := by simp [State.adoptSound, State.mem_foldl]

@[simp] theorem State.mem_secRaise (bit code : Nat) (a0 a2 a3 : Word) (s : State) : (State.secRaise bit code a0 a2 a3 s).mem = s.mem := by simp only [State.secRaise, State.mem_ite, State.mem_setBit, State.mem_arrive, State.mem_logEvent, ite_self]

@[simp] theorem State.mem_sendCensus (s : State) : (State.sendCensus s).mem = s.mem := by simp only [State.sendCensus, State.mem_ite, State.mem_inject, ite_self]

@[simp] theorem State.mem_downHop (h : Hop) (s : State) : (State.downHop h s).mem = s.mem := by simp only [State.downHop, State.mem_ite, State.mem_setReg, State.mem_noteHops, State.mem_setHop, State.mem_akRaise, State.mem_showFill, State.mem_sendCensus, ite_self]

@[simp] theorem State.mem_enterKey (h : Hop) (s : State) : (State.enterKey h s).mem = s.mem := by simp only [State.enterKey, State.mem_ite, State.mem_draw, State.mem_setHop, State.mem_setHopState, State.mem_transmit, ite_self]

@[simp] theorem State.mem_handshake (sub : Nat) (h : Hop) (ok : Bool) (f : Frame) (s : State) : (State.handshake sub h ok f s).2.mem = s.mem := by
  simp only [State.handshake]
  repeat' split
  all_goals simp

@[simp] theorem State.mem_rejoin (h : Hop) (lanes : List Nat) (s : State) : (State.rejoin h lanes s).mem = s.mem := by
  unfold State.rejoin
  exact foldl_keeps State.mem (fun s x => by grind [State.mem_setLane, State.mem_akRaise]) _ _

@[simp] theorem State.mem_keyFail (h : Hop) (keyid : Nat) (s : State) : (State.keyFail h keyid s).mem = s.mem := by simp only [State.keyFail, State.mem_ite, State.mem_setHop, State.mem_akRaise, State.mem_secRaise, State.mem_downHop, ite_self]

@[simp] theorem State.mem_sendRingState (port out : Nat) (broken : Bool) (s : State) : (State.sendRingState port out broken s).mem = s.mem := by simp only [State.sendRingState, State.mem_ite, State.mem_injectOn, ite_self]

@[simp] theorem State.mem_installKeys (h : Hop) (pub : Nat) (s : State) : (State.installKeys h pub s).mem = s.mem := by simp only [State.installKeys, State.mem_ite, State.mem_setHop, ite_self]

@[simp] theorem State.mem_comeUp (h : Hop) (peer : PairView) (s : State) : (State.comeUp h peer s).mem = s.mem := by simp only [State.comeUp, State.mem_ite, State.mem_setBit, State.mem_setHop, State.mem_setHopState, State.mem_akRaise, State.mem_judgePair, State.mem_sendCensus, State.mem_sendRingState, ite_self]

@[simp] theorem State.mem_retrain (p : Nat) (s : State) : (State.retrain p s).mem = s.mem := by simp only [State.retrain, State.mem_ite, State.mem_downHop, ite_self]

@[simp] theorem State.mem_rekey (p : Nat) (s : State) : (State.rekey p s).mem = s.mem := by
  unfold State.rekey
  exact foldl_keeps State.mem (fun s x => by grind [State.mem_startRekey]) _ _

@[simp] theorem State.mem_resend (h : Hop) (s : State) : (State.resend h s).mem = s.mem := by
  unfold State.resend
  exact foldl_keeps State.mem (fun s x => by grind [State.mem_count, State.mem_emit]) _ _

@[simp] theorem State.mem_acknowledge (h : Hop) (ack : Nat) (s : State) : (State.acknowledge h ack s).mem = s.mem := by
  simp only [State.acknowledge]
  repeat' split
  all_goals simp

@[simp] theorem State.mem_outOfUse (h : Hop) (l : Nat) (s : State) : (State.outOfUse h l s).mem = s.mem := by simp only [State.outOfUse, State.mem_ite, State.mem_setHop, State.mem_setLane, State.mem_downHop, ite_self]

@[simp] theorem State.mem_degrade (h : Hop) (l : Nat) (s : State) : (State.degrade h l s).mem = s.mem := by simp only [State.degrade, State.mem_ite, State.mem_setLane, State.mem_akRaise, State.mem_outOfUse, ite_self]

@[simp] theorem State.mem_laneError (h : Hop) (l : Nat) (s0 : State) : (State.laneError h l s0).mem = s0.mem := by simp only [State.laneError, State.mem_ite, State.mem_count, State.mem_setHop, State.mem_degrade, ite_self]

@[simp] theorem State.mem_deliverRingState (f : Frame) (s : State) : (State.deliverRingState f s).mem = s.mem := by simp only [State.deliverRingState, State.mem_ite, State.mem_sendCensus, ite_self]

@[simp] theorem State.mem_laneWindow (h : Hop) (s : State) : (State.laneWindow h s).mem = s.mem := by simp only [State.laneWindow, State.mem_ite, State.mem_setHop, ite_self]

@[simp] theorem State.mem_epolWrite (p : Nat) (v : Word) (s : State) : (State.epolWrite p v s).mem = s.mem := by simp only [State.epolWrite, State.mem_ite, State.mem_writeCoded, State.mem_laneWindow, ite_self]

@[simp] theorem State.mem_laneRetry (p : Nat) (s : State) : (State.laneRetry p s).mem = s.mem := by simp [State.laneRetry, State.mem_foldl]

@[simp] theorem State.mem_adoptCensus (f : Frame) (s : State) : (State.adoptCensus f s).mem = s.mem := by simp only [State.adoptCensus, State.mem_ite, State.mem_setF, State.mem_raise0, ite_self]

@[simp] theorem State.mem_appendCensus (f : Frame) (s : State) : (State.appendCensus f s).2.mem = s.mem := rfl

@[simp] theorem State.mem_werr (h : Hop) (made : Bool) (s : State) : (State.werr h made s).mem = s.mem := by simp only [State.werr, State.mem_ite, State.mem_akRaise, ite_self]

@[simp] theorem State.mem_sceneNotify (h : Hop) (f : Frame) (s : State) : (State.sceneNotify h f s).mem = s.mem := by simp only [State.sceneNotify, State.mem_ite, State.mem_setReg, State.mem_arrive, State.mem_fireEvent, ite_self]

@[simp] theorem State.mem_blkRaise (i : Nat) (s : State) : (State.blkRaise i s).mem = s.mem := by simp only [State.blkRaise, State.mem_ite, State.mem_setBit, State.mem_arrive, State.mem_logEvent, ite_self]

@[simp] theorem State.mem_blkShow (s : State) : (State.blkShow s).mem = s.mem := by simp only [State.blkShow, State.mem_ite, State.mem_setReg, ite_self]

@[simp] theorem State.mem_setBlk (b : BlkSt) (s : State) : (State.setBlk b s).mem = s.mem := by simp only [State.setBlk, State.mem_ite, State.mem_blkShow, ite_self]

@[simp] theorem State.mem_blkPush (s : State) : (State.blkPush s).mem = s.mem := by simp only [State.blkPush, State.mem_ite, State.mem_blkRaise, State.mem_setBlk, ite_self]

@[simp] theorem State.mem_blkRelease (s : State) : (State.blkRelease s).mem = s.mem := by
  unfold State.blkRelease
  split <;> simp only [State.mem_ite, State.mem_blkRaise, State.mem_setBlk, ite_self]

@[simp] theorem State.mem_blkClear (v : Word) (s : State) : (State.blkClear v s).mem = s.mem := by simp only [State.blkClear, State.mem_ite, State.mem_writeCoded, State.mem_setBlk, ite_self]

@[simp] theorem State.mem_blkClip (s : State) : (State.blkClip s).mem = s.mem := by simp only [State.blkClip, State.mem_ite, State.mem_mismatch, State.mem_matched, State.mem_blkRaise, ite_self]

@[simp] theorem State.mem_takeVector (t lvl : Nat) (s : State) : (State.takeVector t lvl s).2.2.mem = s.mem := by
  unfold State.takeVector
  split <;> simp only [State.mem_ite, State.mem_setF, State.mem_setBit, ite_self]

@[simp] theorem State.mem_completeIrq (t lvl : Nat) (s : State) : (State.completeIrq t lvl s).mem = s.mem := by
  unfold State.completeIrq
  split <;> simp only [State.mem_ite, State.mem_setBit, ite_self]

@[simp] theorem State.mem_writeSrc (n : Nat) (v : Word) (s : State) : (State.writeSrc n v s).mem = s.mem := by simp only [State.writeSrc, State.mem_ite, State.mem_setF, State.mem_setBit, ite_self]

@[simp] theorem State.mem_irqClear (v : Word) (s : State) : (State.irqClear v s).mem = s.mem := by simp only [State.irqClear, State.mem_ite, State.mem_setF, State.mem_setBit, ite_self]

@[simp] theorem State.mem_irqRaise (v : Word) (s : State) : (State.irqRaise v s).mem = s.mem := by simp only [State.irqRaise, State.mem_ite, State.mem_arrive, ite_self]

@[simp] theorem State.mem_writeCoal (k : Nat) (v : Word) (s : State) : (State.writeCoal k v s).mem = s.mem := by
  unfold State.writeCoal
  exact foldl_keeps State.mem (fun s x => by grind [State.mem_setReg, State.mem_coalDeliver]) _ _

@[simp] theorem State.mem_deliverWakes (s : State) : (State.deliverWakes s).mem = s.mem := by
  unfold State.deliverWakes
  exact foldl_keeps State.mem (fun s x => by grind [State.mem_arriveAwake]) _ _

@[simp] theorem State.mem_timerIrq (n bit : Nat) (s : State) : (State.timerIrq n bit s).mem = s.mem := by simp only [State.timerIrq, State.mem_ite, State.mem_arrive, ite_self]

@[simp] theorem State.mem_masterEvent (n ev : Nat) (s : State) : (State.masterEvent n ev s).mem = s.mem := by simp only [State.masterEvent, State.mem_ite, ite_self]

@[simp] theorem State.mem_timerStep (x : Nat) (y : Nat) (s : State) : (State.timerStep x y s).mem = s.mem := by
  fun_induction State.timerStep <;> grind [State.mem_setReg, State.mem_setBit, State.mem_timerIrq, State.mem_masterEvent]

@[simp] theorem State.mem_cntCopies (n : Nat) (s : State) : (State.cntCopies n s).mem = s.mem := by simp only [State.cntCopies, State.mem_ite, State.mem_setReg, ite_self]

@[simp] theorem State.mem_writeTimerCtrl (n : Nat) (v : Word) (s : State) : (State.writeTimerCtrl n v s).mem = s.mem := by simp only [State.writeTimerCtrl, State.mem_ite, State.mem_setBit, State.mem_writeCoded, ite_self]

@[simp] theorem State.mem_capture (n : Nat) (s : State) : (State.capture n s).mem = s.mem := by simp only [State.capture, State.mem_ite, State.mem_setReg, State.mem_setBit, State.mem_timerIrq, State.mem_masterEvent, ite_self]

@[simp] theorem State.mem_setKey (w : Nat) (b : Bool) (s : State) : (State.setKey w b s).mem = s.mem := by simp only [State.setKey, State.mem_ite, ite_self]

@[simp] theorem State.mem_writeWdgCtrl (w : Nat) (v : Word) (debug2 : Bool) (s : State) : (State.writeWdgCtrl w v debug2 s).mem = s.mem := by simp only [State.writeWdgCtrl, State.mem_ite, State.mem_setReg, State.mem_setBit, ite_self]

@[simp] theorem State.mem_writeWdgSet (w o : Nat) (v : Word) (s : State) : (State.writeWdgSet w o v s).mem = s.mem := by simp only [State.writeWdgSet, State.mem_ite, State.mem_setReg, ite_self]

@[simp] theorem State.mem_writeWdgKey (w : Nat) (v : Word) (s : State) : (State.writeWdgKey w v s).mem = s.mem := by simp only [State.writeWdgKey, State.mem_ite, State.mem_setReg, State.mem_setBit, State.mem_setKey, ite_self]

@[simp] theorem State.mem_wdgRelease (w : Nat) (s : State) : (State.wdgRelease w s).mem = s.mem := by simp only [State.wdgRelease, State.mem_ite, State.mem_setReg, State.mem_setBit, ite_self]

@[simp] theorem State.mem_setCh (c : Nat) (x : ReelCh) (s : State) : (State.setCh c x s).mem = s.mem := by simp only [State.setCh, State.mem_ite, State.mem_setF, State.mem_setBit, ite_self]

@[simp] theorem State.mem_unserve (c : Nat) (s : State) : (State.unserve c s).mem = s.mem := by simp only [State.unserve, State.mem_ite, ite_self]

@[simp] theorem State.mem_stopNow (c stop code addr : Nat) (s : State) : (State.stopNow c stop code addr s).mem = s.mem := by simp only [State.stopNow, State.mem_ite, State.mem_setReg, State.mem_setF, State.mem_setBit, State.mem_raise, State.mem_setCh, State.mem_unserve, ite_self]

@[simp] theorem State.mem_stopCh (c stop code addr : Nat) (s : State) : (State.stopCh c stop code addr s).mem = s.mem := by simp only [State.stopCh, State.mem_ite, State.mem_drain, State.mem_setCh, State.mem_stopNow, ite_self]

@[simp] theorem State.mem_beginFetch (c addr : Nat) (s : State) : (State.beginFetch c addr s).mem = s.mem := by simp only [State.beginFetch, State.mem_ite, State.mem_setReg, State.mem_setCh, State.mem_stopNow, ite_self]

@[simp] theorem State.mem_reelStart (c : Nat) (s : State) : (State.reelStart c s).mem = s.mem := by simp only [State.reelStart, State.mem_ite, State.mem_count, State.mem_raise, State.mem_beginFetch, ite_self]

@[simp] theorem State.mem_reelGo (v trig : Word) (s : State) : (State.reelGo v trig s).mem = s.mem := by
  unfold State.reelGo
  exact foldl_keeps State.mem (fun s x => by grind [State.mem_reelStart]) _ _

@[simp] theorem State.mem_reelLand (c : Nat) (s : State) : (State.reelLand c s).mem = s.mem := by
  simp only [State.reelLand]
  repeat' split
  all_goals simp

@[simp] theorem State.mem_reelCheck (c : Nat) (s : State) : (State.reelCheck c s).mem = s.mem := by
  simp only [State.reelCheck]
  repeat' split
  all_goals simp

@[simp] theorem State.mem_fetchBeat (c : Nat) (s : State) : (State.fetchBeat c s).mem = s.mem := by simp only [State.fetchBeat, State.mem_ite, State.mem_sramRead, State.mem_setCh, ite_self]

@[simp] theorem State.mem_reelFrame (s : State) : (State.reelFrame s).mem = s.mem := rfl

@[simp] theorem State.mem_reelWindows (s : State) : (State.reelWindows s).mem = s.mem := by simp [State.reelWindows, State.mem_foldl]

@[simp] theorem State.mem_setCore (c : Nat) (x : CoreSt) (s : State) : (State.setCore c x s).mem = s.mem := by simp only [State.setCore, State.mem_ite, ite_self]

@[simp] theorem State.mem_holdCore (c : Nat) (s : State) : (State.holdCore c s).mem = s.mem := by simp only [State.holdCore, State.mem_ite, State.mem_setBit, State.mem_setCore, ite_self]

@[simp] theorem State.mem_startCore (c pc : Nat) (s : State) : (State.startCore c pc s).mem = s.mem := by simp only [State.startCore, State.mem_ite, State.mem_setCore, ite_self]

@[simp] theorem State.mem_writeGvctl (v : Word) (s : State) : (State.writeGvctl v s).mem = s.mem := by
  unfold State.writeGvctl
  exact foldl_keeps State.mem (fun s x => by grind [State.mem_setReg, State.mem_setBit, State.mem_holdCore, State.mem_startCore]) _ _

@[simp] theorem State.mem_enterHoldover (s : State) : (State.enterHoldover s).mem = s.mem := by simp only [State.enterHoldover, State.mem_ite, State.mem_raise0, State.mem_setLock, ite_self]

@[simp] theorem State.mem_thaw (old s : State) : (State.thaw old s).mem = s.mem := by simp only [State.thaw, State.mem_ite, State.mem_showFrozen, State.mem_enterHoldover, ite_self]

@[simp] theorem State.mem_dropDebug (l : Nat) (s : State) : (State.dropDebug l s).mem = s.mem := by
  simp -implicitDefEqProofs [State.dropDebug, State.mem_foldl]

@[simp] theorem State.mem_setCause (i : Nat) (s : State) : (State.setCause i s).mem = s.mem := by simp only [State.setCause, State.mem_ite, State.mem_setBit, ite_self]

@[simp] theorem State.mem_clkRaise (i : Nat) (s : State) : (State.clkRaise i s).mem = s.mem := by simp only [State.clkRaise, State.mem_ite, State.mem_raise, ite_self]

@[simp] theorem State.mem_writePllctl (v : Word) (relocked : Bool) (s : State) : (State.writePllctl v relocked s).mem = s.mem := by simp only [State.writePllctl, State.mem_ite, State.mem_setBit, ite_self]

@[simp] theorem State.mem_wakePads (s : State) : (State.wakePads s).mem = s.mem := rfl

@[simp] theorem State.mem_shadowView (s : State) : (State.shadowView s).mem = s.mem := by
  unfold State.shadowView
  exact foldl_keeps State.mem (fun s x => by grind [State.mem_setReg]) _ _

@[simp] theorem State.mem_ringPixels (q : QFrame) (l : QLine) (s : State) : (State.ringPixels q l s).2.2.mem = s.mem := by simp only [State.ringPixels, State.mem_ite, State.mem_sramReadBytes, ite_self]

@[simp] theorem State.mem_monDrop (n : Nat) (s : State) : (State.monDrop n s).mem = s.mem := by simp only [State.monDrop, State.mem_ite, State.mem_setReg, State.mem_raise0, ite_self]

@[simp] theorem State.mem_monSend (q : QFrame) (ls : List QLine) (s : State) : (State.monSend q ls s).mem = s.mem := by
  unfold State.monSend
  split
  next ok rows s1 h =>
  have hs : s1.mem = s.mem := by
    have := foldl_keeps (fun acc : Bool × List (List Byte) × State => acc.2.2.mem) (f := fun acc l => (acc.1 && (acc.2.2.ringPixels q l).1, acc.2.1 ++ [(acc.2.2.ringPixels q l).2.1], (acc.2.2.ringPixels q l).2.2)) (fun acc l => State.mem_ringPixels q l acc.2.2) ls (true, [], s)
    exact (congrArg (fun r : Bool × List (List Byte) × State => r.2.2.mem) h).symm.trans this
  simp [State.mem_ite, hs]

@[simp] theorem State.mem_monPump (q : QFrame) (s : State) : (State.monPump q s).mem = s.mem := by simp [State.monPump, State.mem_foldl]

@[simp] theorem State.mem_monEnd (q : QFrame) (held : Bool) (s : State) : (State.monEnd q held s).mem = s.mem := by simp only [State.monEnd, State.mem_ite, State.mem_injectOn, ite_self]

@[simp] theorem State.mem_freeLog (s : State) : (State.freeLog s).mem = s.mem := rfl

@[simp] theorem State.mem_announceReady (s : State) : (State.announceReady s).mem = s.mem := by
  unfold State.announceReady
  split <;> simp only [State.mem_ite, State.mem_castVote, State.mem_sendRecord, ite_self]

@[simp] theorem State.mem_takePnlTim (s : State) : (State.takePnlTim s).mem = s.mem := by simp only [State.takePnlTim, State.mem_ite, State.mem_takeGroup, State.mem_endFlight, ite_self]

@[simp] theorem State.mem_panelSwap (s : State) : (State.panelSwap s).mem = s.mem := by simp only [State.panelSwap, State.mem_ite, State.mem_takePnlTim, ite_self]

@[simp] theorem State.mem_swapFrame (q : QFrame) (s : State) : (State.swapFrame q s).mem = s.mem := by simp only [State.swapFrame, State.mem_ite, State.mem_setReg, State.mem_panelFrameEnd, State.mem_recordAll, State.mem_endFrame, State.mem_monPump, State.mem_monEnd, State.mem_panelSwap, ite_self]

@[simp] theorem State.mem_holdFrame (q : QFrame) (cause : Nat × Nat × Nat) (s : State) : (State.holdFrame q cause s).mem = s.mem := by simp only [State.holdFrame, State.mem_ite, State.mem_setReg, State.mem_count, State.mem_raise0, State.mem_panelFrameEnd, State.mem_recordAll, State.mem_endFrame, State.mem_skipFrame, State.mem_monDrop, State.mem_monPump, State.mem_monEnd, ite_self]

@[simp] theorem State.mem_discardFrames (s : State) : (State.discardFrames s).mem = s.mem := by simp [State.discardFrames, State.mem_foldl]

@[simp] theorem State.mem_qdlCtrl (v : Word) (s : State) : (State.qdlCtrl v s).mem = s.mem := by simp only [State.qdlCtrl, State.mem_ite, State.mem_setBit, State.mem_discardFrames, ite_self]

@[simp] theorem State.mem_judgeTriggers (s : State) : (State.judgeTriggers s).mem = s.mem := by simp only [State.judgeTriggers, State.mem_ite, State.mem_raiseEach, ite_self]

@[simp] theorem State.mem_applyPlain (g : Nat) (s : State) : (State.applyPlain g s).mem = s.mem := by simp only [State.applyPlain, State.mem_ite, State.mem_takeGroup, State.mem_endFlight, ite_self]

@[simp] theorem State.mem_applyGroup (g : Nat) (s : State) : (State.applyGroup g s).mem = s.mem := by
  unfold State.applyGroup
  split <;> simp only [State.mem_ite, State.mem_applyQdlGroup, State.mem_mntEntered, State.mem_applySndxpt, State.mem_applyObjpar, State.mem_judgeTriggers, State.mem_applyPlain, ite_self]

@[simp] theorem State.mem_commitRequest (v : Word) (s : State) : (State.commitRequest v s).mem = s.mem := by simp only [State.commitRequest, State.mem_ite, State.mem_setReg, ite_self]

@[simp] theorem State.mem_judgeMatches (s : State) : (State.judgeMatches s).mem = s.mem := by simp only [State.judgeMatches, State.mem_ite, State.mem_raiseEach, ite_self]

@[simp] theorem State.mem_adoptRest (s : State) : (State.adoptRest s).mem = s.mem := by simp only [State.adoptRest, State.mem_ite, State.mem_adopt, State.mem_setLock, ite_self]

@[simp] theorem State.mem_newTerms (s : State) : (State.newTerms s).mem = s.mem := by simp only [State.newTerms, State.mem_ite, State.mem_draw, ite_self]

@[simp] theorem State.mem_framePoints (s : State) : (State.framePoints s).mem = s.mem := by simp only [State.framePoints, State.mem_ite, State.mem_checkPlace, State.mem_reelFrame, State.mem_reelWindows, State.mem_applyGroup, State.mem_newTerms, ite_self]

@[simp] theorem State.mem_enginesStart (s : State) : (State.enginesStart s).mem = s.mem := by
  unfold State.enginesStart
  exact foldl_keeps State.mem (fun s x => by grind [State.mem_takeGroup, State.mem_endFlight, State.mem_engStart]) _ _

@[simp] theorem State.mem_startBeam (s : State) : (State.startBeam s).mem = s.mem := by simp only [State.startBeam, State.mem_ite, State.mem_setBit, State.mem_setLock, State.mem_clearVote, State.mem_discardFrames, State.mem_framePoints, State.mem_enginesStart, ite_self]

@[simp] theorem State.mem_beamCtrl (v : Word) (s : State) : (State.beamCtrl v s).mem = s.mem := by simp only [State.beamCtrl, State.mem_ite, State.mem_writeCoded, State.mem_raise0, State.mem_startBeam, ite_self]

@[simp] theorem State.mem_stopBeam (s : State) : (State.stopBeam s).mem = s.mem := by simp only [State.stopBeam, State.mem_ite, State.mem_setBit, State.mem_setLock, ite_self]

@[simp] theorem State.mem_stepHold (s : State) : (State.stepHold s).mem = s.mem := by
  unfold State.stepHold
  split <;> simp only [State.mem_ite, State.mem_holdFrame, ite_self]

@[simp] theorem State.mem_restartBeam (s : State) : (State.restartBeam s).mem = s.mem := by simp only [State.restartBeam, State.mem_ite, State.mem_adoptRest, State.mem_startBeam, State.mem_stopBeam, State.mem_stepHold, ite_self]

@[simp] theorem State.mem_openVote (s : State) : (State.openVote s).mem = s.mem := by simp only [State.openVote, State.mem_ite, State.mem_clearVote, State.mem_announceReady, ite_self]

@[simp] theorem State.mem_beamFlagSet (v : Word) (s : State) : (State.beamFlagSet v s).mem = s.mem := by simp only [State.beamFlagSet, State.mem_ite, State.mem_gflagSet, ite_self]

@[simp] theorem State.mem_beamFlagClear (v : Word) (s : State) : (State.beamFlagClear v s).mem = s.mem := by simp only [State.beamFlagClear, State.mem_ite, State.mem_gflagClear, ite_self]

theorem State.mem_triggerOnce (c : Nat) {f : State → State} (h : ∀ u, (f u).mem = u.mem) (s : State) : (State.triggerOnce c f s).mem = s.mem := by
  unfold State.triggerOnce
  extract_lets at_ run
  split
  · rfl
  · exact h _

@[simp] theorem State.mem_triggerAct (n : Nat) (s : State) : (State.triggerAct n s).mem = s.mem := by
  unfold State.triggerAct
  extract_lets a arg
  split
  · rfl
  · exact State.mem_triggerOnce _ (fun t => State.mem_reelStart arg t) _
  · exact State.mem_triggerOnce _ State.mem_blkRelease _
  · simp
  · exact State.mem_beamFlagSet _ _
  · exact State.mem_raise0 _ _ _

@[simp] theorem State.mem_stampTimed (s : State) : (State.stampTimed s).mem = s.mem := by simp only [State.stampTimed, State.mem_ite, ite_self]

@[simp] theorem State.mem_makeTimed (w : TimedW) (s0 : State) : (State.makeTimed w s0).mem = s0.mem := by
  unfold State.makeTimed
  repeat' split
  all_goals simp only [State.mem_ite, State.mem_setReg, State.mem_setBit, State.mem_writeCoded, State.mem_arrive, State.mem_pnlCmdq, State.mem_blankRequest, State.mem_nodeWrite, State.mem_keyOnWrite, State.mem_keyOffWrite, State.mem_beamFlagSet, State.mem_beamFlagClear, State.mem_stampTimed, ite_self]

@[simp] theorem State.mem_imageEvent (src code : Nat) (s : State) : (State.imageEvent src code s).mem = s.mem := by simp only [State.imageEvent, State.mem_ite, State.mem_logEvent, State.mem_secRaise, ite_self]

@[simp] theorem State.mem_writeRecord (a : Nat) (v : Word) (s : State) : (State.writeRecord a v s).mem = s.mem := by simp only [State.writeRecord, State.mem_ite, State.mem_setShd, State.mem_unverify, ite_self]

@[simp] theorem State.mem_writeRecords (src off : Nat) (x : Nat) (s : State) : (State.writeRecords src off x s).2.mem = s.mem := by
  fun_induction State.writeRecords <;> grind [State.mem_writeRecord]

@[simp] theorem State.mem_setEngine (n : Nat) (s : State) : (State.setEngine n s).mem = s.mem := by simp only [State.setEngine, State.mem_ite, State.mem_setF, ite_self]

@[simp] theorem State.mem_refuse (s : State) : (State.refuse s).mem = s.mem := by simp only [State.refuse, State.mem_ite, State.mem_raise0, ite_self]

@[simp] theorem State.mem_verified (code sect addr : Nat) (s : State) : (State.verified code sect addr s).mem = s.mem := by simp only [State.verified, State.mem_ite, State.mem_setReg, State.mem_setF, State.mem_setBit, State.mem_raise0, State.mem_setEngine, ite_self]

@[simp] theorem State.mem_startVerify (src : Nat) (s : State) : (State.startVerify src s).mem = s.mem := by simp only [State.startVerify, State.mem_ite, State.mem_setBit, State.mem_setEngine, State.mem_refuse, State.mem_verified, ite_self]

@[simp] theorem State.mem_startSsverify (s : State) : (State.startSsverify s).mem = s.mem := by simp only [State.startSsverify, State.mem_ite, State.mem_setEngine, State.mem_refuse, ite_self]

@[simp] theorem State.mem_checkImage (src : Nat) (sigOk : Bool) (badHash : Option Nat) (s : State) : (State.checkImage src sigOk badHash s).2.mem = s.mem := by
  unfold State.checkImage
  repeat' split
  all_goals simp only [State.mem_ite, State.mem_imageEvent, State.mem_writeRecords, ite_self]

@[simp] theorem State.mem_imagePassed (src : Nat) (s : State) : (State.imagePassed src s).mem = s.mem := by simp only [State.imagePassed, State.mem_ite, State.mem_setReg, ite_self]

@[simp] theorem State.mem_swapCmd (brk : Bool) (s : State) : (State.swapCmd brk s).mem = s.mem := by simp only [State.swapCmd, State.mem_ite, State.mem_setEngine, State.mem_refuse, ite_self]

@[simp] theorem State.mem_cancelCmd (s : State) : (State.cancelCmd s).mem = s.mem := by simp only [State.cancelCmd, State.mem_ite, State.mem_setBit, State.mem_setEngine, ite_self]

@[simp] theorem State.mem_adoptStopped (s : State) : (State.adoptStopped s).mem = s.mem := by simp [State.adoptStopped, State.mem_foldl]

@[simp] theorem State.mem_judgeSwap (old s : State) : (State.judgeSwap old s).mem = s.mem := by simp only [State.judgeSwap, State.mem_ite, State.mem_raise0, State.mem_activeView, State.mem_judgeFsout, State.mem_judgeRegions, State.mem_judgeTriggers, State.mem_judgeMatches, ite_self]

@[simp] theorem State.mem_swapSet (peer : PairView) (s : State) : (State.swapSet peer s).mem = s.mem := by simp [State.swapSet, State.mem_foldl]

@[simp] theorem State.mem_showStaging (s : State) : (State.showStaging s).mem = s.mem := by
  simp only [State.showStaging]
  repeat' split
  all_goals simp

@[simp] theorem State.mem_dropChunk (s : State) : (State.dropChunk s).mem = s.mem := by simp only [State.dropChunk, State.mem_ite, State.mem_count, State.mem_raise0, ite_self]

@[simp] theorem State.mem_sessionWrite (base : Bool) (v : Word) (s : State) : (State.sessionWrite base v s).mem = s.mem := by simp only [State.sessionWrite, State.mem_ite, State.mem_setReg, State.mem_setBit, State.mem_writeCoded, ite_self]

@[simp] theorem State.mem_startLoad (src : Nat) (s : State) : (State.startLoad src s).mem = s.mem := by simp only [State.startLoad, State.mem_ite, State.mem_setEngine, State.mem_refuse, ite_self]

@[simp] theorem State.mem_imgCmd (v : Word) (s : State) : (State.imgCmd v s).mem = s.mem := by
  unfold State.imgCmd
  split <;> simp only [State.mem_ite, State.mem_refuse, State.mem_startVerify, State.mem_startSsverify, State.mem_swapCmd, State.mem_cancelCmd, State.mem_startLoad, ite_self]

@[simp] theorem State.mem_tempEdge (was : Bool) (thr tmax : Int) (bit : Nat) (s : State) : (State.tempEdge was thr tmax bit s).2.mem = s.mem := by
  unfold State.tempEdge
  repeat' split
  all_goals simp only [State.mem_ite, State.mem_raise0, ite_self]

@[simp] theorem State.mem_abctlWrite (v : Word) (s : State) : (State.abctlWrite v s).mem = s.mem := by simp only [State.abctlWrite, State.mem_ite, State.mem_writeCoded, ite_self]

@[simp] theorem State.mem_fillWords (at_ : Nat → Nat) (bs : List Byte) (s : State) : (State.fillWords at_ bs s).mem = s.mem := by
  unfold State.fillWords
  exact foldl_keeps State.mem (fun s x => by grind [State.mem_setReg]) _ _

@[simp] theorem State.mem_placeMail (k : Nat) (bs : List Byte) (src : Nat) (s : State) : (State.placeMail k bs src s).mem = s.mem := by simp only [State.placeMail, State.mem_ite, State.mem_setReg, State.mem_setBit, State.mem_raise0, State.mem_fillWords, ite_self]

@[simp] theorem State.mem_sendMail (k : Nat) (s : State) : (State.sendMail k s).mem = s.mem := by simp only [State.sendMail, State.mem_ite, State.mem_setBit, State.mem_raise0, State.mem_originate, ite_self]

@[simp] theorem State.mem_mbSend (v : Word) (s : State) : (State.mbSend v s).mem = s.mem := by
  unfold State.mbSend
  exact foldl_keeps State.mem (fun s x => by grind [State.mem_sendMail]) _ _

@[simp] theorem State.mem_mbRelease (v : Word) (s : State) : (State.mbRelease v s).mem = s.mem := by simp only [State.mbRelease, State.mem_ite, State.mem_setReg, ite_self]

@[simp] theorem State.mem_mailDone (k : Nat) (s : State) : (State.mailDone k s).mem = s.mem := by simp only [State.mailDone, State.mem_ite, State.mem_setBit, State.mem_raise0, ite_self]

@[simp] theorem State.mem_snapHealth (v : Word) (s : State) : (State.snapHealth v s).mem = s.mem := by
  simp -implicitDefEqProofs [State.snapHealth, State.mem_foldl]

@[simp] theorem State.mem_setTokens (code n : Nat) (s : State) : (State.setTokens code n s).mem = s.mem := by simp only [State.setTokens, State.mem_ite, ite_self]

@[simp] theorem State.mem_suppress (e : Ev) (s : State) : (State.suppress e s).mem = s.mem := by simp only [State.suppress, State.mem_ite, State.mem_count, ite_self]

@[simp] theorem State.mem_timeWrite (pcyc : Bool) (v : Word) (s : State) : (State.timeWrite pcyc v s).mem = s.mem := by simp only [State.timeWrite, State.mem_ite, State.mem_setReg, State.mem_setBit, ite_self]

@[simp] theorem State.mem_startSeek (cls : Nat) (seq : Word) (s : State) : (State.startSeek cls seq s).mem = s.mem := by simp only [State.startSeek, State.mem_ite, State.mem_setReg, ite_self]

@[simp] theorem State.mem_curctl (v : Word) (s : State) : (State.curctl v s).mem = s.mem := by simp only [State.curctl, State.mem_ite, State.mem_startSeek, ite_self]

@[simp] theorem State.mem_windowNext (s : State) : (State.windowNext s).mem = s.mem := by simp only [State.windowNext, State.mem_ite, State.mem_startSeek, ite_self]

@[simp] theorem State.mem_logGo (t : Nat) (v : Word) (s : State) : (State.logGo t v s).mem = s.mem := by simp only [State.logGo, State.mem_ite, State.mem_enqueueEvent, State.mem_raise0, ite_self]

@[simp] theorem State.mem_secBit (bit : Nat) (s : State) : (State.secBit bit s).mem = s.mem := by simp only [State.secBit, State.mem_ite, State.mem_setBit, State.mem_arrive, ite_self]

@[simp] theorem State.mem_secCmd (op : Nat) (s : State) : (State.secCmd op s).mem = s.mem := by simp only [State.secCmd, State.mem_ite, State.mem_logEvent, State.mem_dropDebug, State.mem_secBit, ite_self]

@[simp] theorem State.mem_tclr (v : Word) (s : State) : (State.tclr v s).mem = s.mem := by simp only [State.tclr, State.mem_ite, ite_self]

@[simp] theorem State.mem_setLevel (n : Nat) (b : Bool) (s : State) : (State.setLevel n b s).mem = s.mem := rfl

@[simp] theorem State.mem_pinRelease (s : State) : (State.pinRelease s).mem = s.mem := by simp only [State.pinRelease, State.mem_ite, State.mem_setBit, State.mem_wakePads, ite_self]

@[simp] theorem State.mem_lockAbort (s : State) : (State.lockAbort s).mem = s.mem := by simp only [State.lockAbort, State.mem_ite, State.mem_raise0, ite_self]

@[simp] theorem State.mem_pinLock (v : Word) (s : State) : (State.pinLock v s).mem = s.mem := by
  unfold State.pinLock
  repeat' split
  all_goals simp only [State.mem_ite, State.mem_setBit, State.mem_lockAbort, ite_self]

@[simp] theorem State.mem_pinCfgWrite (a : Nat) (v : Word) (s : State) : (State.pinCfgWrite a v s).mem = s.mem := by simp only [State.pinCfgWrite, State.mem_ite, State.mem_writeCoded, State.mem_raise0, ite_self]

theorem State.mem_hostServe (t : Nat) {f : State → State} (h : ∀ u, (f u).mem = u.mem) (s : State) : (State.hostServe t f s).mem = s.mem := by
  unfold State.hostServe
  split
  · rfl
  · split
    · exact State.mem_rouse s
    · exact (h _).trans (State.mem_rouse s)

@[simp] theorem State.mem_setDaddr (t a : Nat) (s : State) : (State.setDaddr t a s).mem = s.mem := by simp only [State.setDaddr, State.mem_ite, State.mem_setF, State.mem_setBit, State.mem_raise0, ite_self]

theorem State.mem_cccServe (t : Option (Fin 2)) {f : State → State} (h : ∀ u, (f u).mem = u.mem) (s : State) : (State.cccServe t f s).mem = s.mem := by
  unfold State.cccServe
  split
  · exact State.mem_hostServe _ h _
  · exact h _

@[simp] theorem State.mem_events (t : Option (Fin 2)) (intr hj on : Bool) (s : State) : (State.events t intr hj on s).mem = s.mem := by
  unfold State.events
  exact foldl_keeps State.mem (fun s x => by grind) _ _

@[simp] theorem State.mem_cccGet (t : Fin 2) (v : Nat) (s : State) : (State.cccGet t v s).mem = s.mem := by
  grind [State.cccGet, State.mem_emit, State.mem_hostServe]

@[simp] theorem State.mem_cccGetFree (t : Fin 2) (s : State) : (State.cccGetFree t s).mem = s.mem := by simp only [State.cccGetFree, State.mem_ite, State.mem_draw, State.mem_cccGet, ite_self]

@[simp] theorem State.mem_ci3cCmd (v : Word) (s : State) : (State.ci3cCmd v s).mem = s.mem := rfl

@[simp] theorem State.mem_ci3cRxd (s : State) : (State.ci3cRxd s).2.mem = s.mem := rfl

@[simp] theorem State.mem_ci3cIbiq (s : State) : (State.ci3cIbiq s).2.mem = s.mem := by
  unfold State.ci3cIbiq
  split <;> simp only [State.mem_ite, ite_self]

@[simp] theorem State.mem_xspiCmd (v : Word) (s : State) : (State.xspiCmd v s).mem = s.mem := by simp only [State.xspiCmd, State.mem_ite, State.mem_setBit, State.mem_emit, State.mem_raise0, ite_self]

@[simp] theorem State.mem_xspiIdle (s : State) : (State.xspiIdle s).mem = s.mem := by simp only [State.xspiIdle, State.mem_ite, State.mem_setBit, ite_self]

@[simp] theorem State.mem_xspiSetDone (s : State) : (State.xspiSetDone s).mem = s.mem := by simp only [State.xspiSetDone, State.mem_ite, State.mem_setBit, State.mem_arrive, ite_self]

@[simp] theorem State.mem_xspiPush (v : Word) (s : State) : (State.xspiPush v s).mem = s.mem := by simp only [State.xspiPush, State.mem_ite, State.mem_raise0, ite_self]

@[simp] theorem State.mem_xspiPop (s : State) : (State.xspiPop s).2.mem = s.mem := by
  unfold State.xspiPop
  split <;> simp only [State.mem_ite, State.mem_raise0, ite_self]

@[simp] theorem State.mem_xspiCtrl (v : Word) (s : State) : (State.xspiCtrl v s).mem = s.mem := by simp only [State.xspiCtrl, State.mem_ite, State.mem_setReg, ite_self]

@[simp] theorem State.mem_denied (s : State) : (State.denied s).mem = s.mem := by simp only [State.denied, State.mem_ite, State.mem_raise0, ite_self]

@[simp] theorem State.mem_grantLevel (l req : Nat) (s : State) : (State.grantLevel l req s).mem = s.mem := by simp only [State.grantLevel, State.mem_ite, State.mem_logEvent, State.mem_dropDebug, ite_self]

@[simp] theorem State.mem_chalRequest (level req : Nat) (s : State) : (State.chalRequest level req s).2.mem = s.mem := by
  unfold State.chalRequest
  split
  · split
    · exact State.mem_grantLevel _ _ _
    · rfl
  · split
    · simp -implicitDefEqProofs [State.mem_foldl]
    · rfl

@[simp] theorem State.mem_endChal (s : State) : (State.endChal s).mem = s.mem := by simp only [State.endChal, State.mem_ite, State.mem_setBit, ite_self]

@[simp] theorem State.mem_debugFail (level : Nat) (s : State) : (State.debugFail level s).mem = s.mem := by simp only [State.debugFail, State.mem_ite, State.mem_setBit, State.mem_secRaise, State.mem_endChal, ite_self]

@[simp] theorem State.mem_checkResponse (ok : Bool) (s : State) : (State.checkResponse ok s).mem = s.mem := by
  unfold State.checkResponse
  split <;> simp only [State.mem_ite, State.mem_setBit, State.mem_grantLevel, State.mem_endChal, State.mem_debugFail, ite_self]

@[simp] theorem State.mem_debugAnswer (path : Option Nat) (r : DbgResp) (s : State) : (State.debugAnswer path r s).mem = s.mem := by
  unfold State.debugAnswer
  split <;> simp only [State.mem_ite, State.mem_originate, ite_self]

@[simp] theorem State.mem_verifyRequest (who : Option (Nat × Nat × Option Nat)) (s : State) : (State.verifyRequest who s).mem = s.mem := rfl

@[simp] theorem State.mem_authCtl (v : Word) (s : State) : (State.authCtl v s).mem = s.mem := by simp only [State.authCtl, State.mem_ite, State.mem_setBit, State.mem_chalRequest, State.mem_verifyRequest, ite_self]

@[simp] theorem State.mem_haltRequest (c : Nat) (s : State) : (State.haltRequest c s).mem = s.mem := by simp only [State.haltRequest, State.mem_ite, State.mem_setF, State.mem_setCore, ite_self]

@[simp] theorem State.mem_haltRelease (c : Nat) (s : State) : (State.haltRelease c s).mem = s.mem := by simp only [State.haltRelease, State.mem_ite, State.mem_setF, State.mem_wdgRelease, State.mem_setCore, State.mem_thaw, ite_self]

@[simp] theorem State.mem_dbgCtrl (c : Nat) (v : Word) (s : State) : (State.dbgCtrl c v s).mem = s.mem := by simp only [State.dbgCtrl, State.mem_ite, State.mem_setBit, State.mem_denied, State.mem_haltRequest, State.mem_haltRelease, ite_self]

@[simp] theorem State.mem_regDataRead (c : Nat) (s : State) : (State.regDataRead c s).2.mem = s.mem := by
  simp only [State.regDataRead]
  repeat' split
  all_goals simp

@[simp] theorem State.mem_regDataWrite (c : Nat) (v : Word) (s : State) : (State.regDataWrite c v s).mem = s.mem := by simp only [State.regDataWrite, State.mem_ite, State.mem_setCore, State.mem_denied, ite_self]

@[simp] theorem State.mem_lDataRead (c : Nat) (s : State) : (State.lDataRead c s).2.mem = s.mem := by
  grind [State.lDataRead, State.mem_eccRead]

@[simp] theorem State.mem_dtxSend (c : Nat) (v : Word) (s : State) : (State.dtxSend c v s).mem = s.mem := by simp only [State.dtxSend, State.mem_ite, State.mem_setReg, State.mem_setBit, State.mem_setCore, ite_self]

@[simp] theorem State.mem_drxSend (c : Nat) (v : Word) (s : State) : (State.drxSend c v s).mem = s.mem := by simp only [State.drxSend, State.mem_ite, State.mem_setBit, State.mem_arrive, State.mem_setCore, ite_self]

@[simp] theorem State.mem_vtWrite (c : Nat) (v : Word) (s : State) : (State.vtWrite c v s).mem = s.mem := by simp only [State.vtWrite, State.mem_ite, State.mem_setReg, State.mem_arrive, ite_self]

@[simp] theorem State.mem_setUcState (n : Nat) (s : State) : (State.setUcState n s).mem = s.mem := by simp only [State.setUcState, State.mem_ite, State.mem_setF, ite_self]

@[simp] theorem State.mem_ucLoad (v : Word) (s : State) : (State.ucLoad v s).mem = s.mem := by simp only [State.ucLoad, State.mem_ite, State.mem_setBit, State.mem_raise0, State.mem_setUcState, ite_self]

@[simp] theorem State.mem_ucSwap (v : Word) (s : State) : (State.ucSwap v s).mem = s.mem := by simp only [State.ucSwap, State.mem_ite, State.mem_raise0, State.mem_setUcState, ite_self]

@[simp] theorem State.mem_showVersion (k : Nat) (s : State) : (State.showVersion k s).mem = s.mem := by
  unfold State.showVersion
  split <;> simp only [State.mem_ite, State.mem_setF, ite_self]

@[simp] theorem State.mem_ucCorrect (key : Nat) (s : State) : (State.ucCorrect key s).mem = s.mem := by simp only [State.ucCorrect, State.mem_ite, State.mem_count, State.mem_setMark, ite_self]

@[simp] theorem State.mem_program (a : Nat) (v : Byte) (s : State) : (State.program a v s).mem = s.mem := rfl

@[simp] theorem State.mem_retireTrial (src : Nat) (s : State) : (State.retireTrial src s).mem = s.mem := by simp only [State.retireTrial, State.mem_ite, State.mem_program, ite_self]

@[simp] theorem State.mem_useAttempt (src : Nat) (s : State) : (State.useAttempt src s).mem = s.mem := by
  unfold State.useAttempt
  repeat' split
  all_goals simp only [State.mem_ite, State.mem_program, ite_self]

@[simp] theorem State.mem_booted (bootsel from_ : Nat) (s : State) : (State.booted bootsel from_ s).mem = s.mem := by simp only [State.booted, State.mem_ite, State.mem_setReg, State.mem_enqueueEvent, State.mem_writeGvctl, ite_self]

@[simp] theorem State.mem_waitImage (s : State) : (State.waitImage s).mem = s.mem := by simp only [State.waitImage, State.mem_ite, State.mem_setReg, ite_self]

@[simp] theorem State.mem_bootAlert (s : State) : (State.bootAlert s).mem = s.mem := by simp only [State.bootAlert, State.mem_ite, State.mem_enqueueEvent, ite_self]

@[simp] theorem State.mem_probeFlash (s : State) : (State.probeFlash s).mem = s.mem := by simp only [State.probeFlash, State.mem_ite, State.mem_setReg, ite_self]

@[simp] theorem State.mem_roundStart (k : Nat) (s : State) : (State.roundStart k s).mem = s.mem := by simp only [State.roundStart, State.mem_ite, State.mem_adopt, ite_self]

@[simp] theorem State.mem_afterRead (a : Nat) (s : State) : (State.afterRead a s).mem = s.mem := by
  unfold State.afterRead
  repeat' split
  all_goals simp only [State.mem_ite, State.mem_setReg, State.mem_setBit, State.mem_clearRead, State.mem_mapStep, State.mem_cntCopies, State.mem_windowNext, State.mem_ci3cRxd, State.mem_ci3cIbiq, State.mem_xspiPop, State.mem_lDataRead, ite_self]

@[simp] theorem State.mem_regRead (m : Acc) (a : Nat) (s : State) : (State.regRead m a s).2.mem = s.mem := by
  unfold State.regRead
  repeat' split
  all_goals simp only [State.mem_ite, State.mem_regDataRead, State.mem_afterRead, ite_self]

@[simp] theorem State.mem_bankWrite (n b a : Nat) (v : Word) (s : State) : (State.bankWrite n b a v s).mem = s.mem := by simp only [State.bankWrite, State.mem_ite, State.mem_writeCoded, State.mem_raise, ite_self]

@[simp] theorem State.mem_akCtrl (x : Nat) (v : Word) (s : State) : (State.akCtrl x v s).mem = s.mem := by simp only [State.akCtrl, State.mem_ite, State.mem_writeCoded, State.mem_retrain, State.mem_rekey, State.mem_laneRetry, ite_self]

@[simp] theorem State.mem_mrcReq (v : Word) (s : State) : (State.mrcReq v s).mem = s.mem := by simp only [State.mrcReq, State.mem_ite, State.mem_reqPreserving, State.mem_reqDestroying, ite_self]

@[simp] theorem State.mem_engStatWrite (e : Nat) (v : Word) (s : State) : (State.engStatWrite e v s).mem = s.mem := by simp only [State.engStatWrite, State.mem_ite, State.mem_setReg, State.mem_engFaultClear, ite_self]

@[simp] theorem State.mem_tmrWrite (m : Acc) (a : Nat) (v : Word) (s : State) : (State.tmrWrite m a v s).mem = s.mem := by
  simp only [State.tmrWrite]
  repeat' split
  all_goals simp

@[simp] theorem State.mem_bqenWrite (o : Nat) (v : Word) (s : State) : (State.bqenWrite o v s).mem = s.mem := by simp only [State.bqenWrite, State.mem_ite, State.mem_writeCoded, State.mem_setChain, ite_self]

@[simp] theorem State.mem_sndWrite (a : Nat) (v : Word) (s0 : State) : (State.sndWrite a v s0).mem = s0.mem := by
  unfold State.sndWrite
  repeat' split
  all_goals simp only [State.mem_ite, State.mem_writeCoded, State.mem_nodeWrite, State.mem_keyOnWrite, State.mem_keyOffWrite, State.mem_biquadWrite, State.mem_delayWrite, State.mem_sndCtrlWrite, State.mem_bqenWrite, ite_self]

@[simp] theorem State.mem_pinWrite (a : Nat) (v : Word) (s : State) : (State.pinWrite a v s).mem = s.mem := by simp only [State.pinWrite, State.mem_ite, State.mem_setReg, State.mem_writeCoded, State.mem_pinRelease, State.mem_pinLock, State.mem_pinCfgWrite, ite_self]

@[simp] theorem State.mem_mgtWrite (a : Nat) (v : Word) (s : State) : (State.mgtWrite a v s).mem = s.mem := by simp only [State.mgtWrite, State.mem_ite, State.mem_writeCoded, State.mem_abctlWrite, State.mem_mbSend, State.mem_mbRelease, State.mem_snapHealth, ite_self]

@[simp] theorem State.mem_evrWrite (m : Acc) (a : Nat) (v : Word) (s : State) : (State.evrWrite m a v s).mem = s.mem := by
  unfold State.evrWrite
  repeat' split
  all_goals simp only [State.mem_ite, State.mem_writeCoded, State.mem_timeWrite, State.mem_curctl, State.mem_logGo, ite_self]

@[simp] theorem State.mem_imgWrite (a : Nat) (v : Word) (s : State) : (State.imgWrite a v s).mem = s.mem := by simp only [State.imgWrite, State.mem_ite, State.mem_writeCoded, State.mem_sessionWrite, State.mem_imgCmd, State.mem_ucLoad, State.mem_ucSwap, ite_self]

@[simp] theorem State.mem_failRead (m : Acc) (a n code : Nat) (s : State) : (State.failRead m a n code s).2.2.mem = s.mem := by simp only [State.failRead, State.mem_ite, State.mem_errResponse, ite_self]

@[simp] theorem State.mem_busRead (m : Acc) (a n : Nat) (s : State) : (State.busRead m a n s).2.2.mem = s.mem := by
  simp only [State.busRead]
  repeat' split
  all_goals simp

@[simp] theorem State.mem_failWrite (m : Acc) (a code : Nat) (s : State) : (State.failWrite m a code s).2.mem = s.mem := by simp only [State.failWrite, State.mem_ite, State.mem_errResponse, ite_self]

@[simp] theorem State.mem_busRead32 (m : Acc) (a : Nat) (s : State) : (State.busRead32 m a s).2.2.mem = s.mem := by simp only [State.busRead32, State.mem_ite, State.mem_busRead, ite_self]

@[simp] theorem State.mem_askRead (m : Acc) (a : Nat) (s : State) : (State.askRead m a s).mem = s.mem := by simp only [State.askRead, State.mem_ite, State.mem_reply, State.mem_busRead32, ite_self]

theorem State.mem_askWith (m : Acc) (a : Nat) (v : Word) {f : State → State} (h : ∀ u, (f u).mem = u.mem) (s : State) : (State.askWith m a v f s).mem = s.mem := by
  unfold State.askWith
  simp [State.mem_ite, h]

@[simp] theorem State.mem_setWins (addr : Nat) (set : Word) (s : State) : (State.setWins addr set s).mem = s.mem := by
  unfold State.setWins
  split <;> simp only [State.mem_ite, State.mem_setReg, ite_self]

@[simp] theorem State.mem_upsetAt (a : Nat) (u : Upset) (s : State) : (State.upsetAt a u s).mem = s.mem := by
  unfold State.upsetAt
  repeat' split
  all_goals simp only [State.mem_ite, State.mem_upset, ite_self]

@[simp] theorem State.mem_serveCh (p c : Nat) (s : State) : (State.serveCh p c s).mem = s.mem := by
  unfold State.serveCh
  exact foldl_keeps State.mem (fun s x => by grind [State.mem_setCh]) _ _

@[simp] theorem State.mem_reelTimeout (port addr : Nat) (write : Bool) (s : State) : (State.reelTimeout port addr write s).mem = s.mem := by
  simp only [State.reelTimeout]
  repeat' split
  all_goals simp

@[simp] theorem State.mem_localRead (c a n : Nat) (s : State) : (State.localRead c a n s).2.2.mem = s.mem := by
  have hspan := @State.mem_eccSpan
  suffices h : ∃ f, f = @State.localRead ∧ (f c a n s).2.2.mem = s.mem by
    obtain ⟨f, rfl, h⟩ := h
    exact h
  delta State.localRead
  revert hspan
  generalize @State.eccSpan = span
  revert span
  refine id fun span hspan => ⟨_, rfl, ?_⟩
  have h := hspan 4 (37 + c) (localKey c (a - 0x08000000)) n s
  dsimp only
  split
  next t e => simpa [e] using h
  next t e => simpa [e] using h

@[simp] theorem State.mem_pieceRead (c a n : Nat) (s : State) : (State.pieceRead c a n s).2.2.mem = s.mem := by
  unfold State.pieceRead
  split <;> simp only [State.mem_ite, State.mem_busRead, State.mem_localRead, ite_self]

@[simp] theorem State.mem_coreRead (c a n : Nat) (s : State) : (State.coreRead c a n s).2.2.2.mem = s.mem := by
  simp only [State.coreRead]
  repeat' split
  all_goals simp

@[simp] theorem State.mem_deferBuserr (c : Nat) (f : GvFault) (s : State) : (State.deferBuserr c f s).mem = s.mem := by simp only [State.deferBuserr, State.mem_ite, State.mem_setCore, ite_self]

@[simp] theorem State.mem_noteAhead (c : Nat) (l : List (Nat × Nat × Word)) (s : State) : (State.noteAhead c l s).mem = s.mem := by simp only [State.noteAhead, State.mem_ite, State.mem_setCore, ite_self]

@[simp] theorem State.mem_fetchAt (c a : Nat) (s : State) : (State.fetchAt c a s).mem = s.mem := by
  have hread := State.mem_localRead c a 4 s
  have hsram := State.mem_sramRead (corePort c) (a / 16 * 16) s
  suffices h : ∃ f, f = @State.fetchAt ∧ (f c a s).mem = s.mem by
    obtain ⟨f, rfl, h⟩ := h
    exact h
  delta State.fetchAt
  revert hread hsram
  generalize @State.localRead = read
  generalize @State.sramRead = sram
  revert read sram
  refine id fun read sram hread hsram => ⟨_, rfl, ?_⟩
  dsimp only
  split
  · rfl
  · split
    · exact State.mem_noteAhead _ _ _
    · exact (State.mem_noteAhead _ _ _).trans hread
    · exact (State.mem_noteAhead _ _ _).trans hsram
    · exact State.mem_noteAhead _ _ _

@[simp] theorem State.mem_fetchAhead (c : Nat) (s : State) : (State.fetchAhead c s).mem = s.mem := by simp only [State.fetchAhead, State.mem_ite, State.mem_setCore, State.mem_fetchAt, ite_self]

@[simp] theorem State.mem_stopNext (c cause which : Nat) (s : State) : (State.stopNext c cause which s).mem = s.mem := by
  simp only [State.stopNext]
  repeat' split
  all_goals simp

@[simp] theorem State.mem_retire (c : Nat) (skip : Bool) (br : Option Nat) (s : State) : (State.retire c skip br s).mem = s.mem := by simp only [State.retire, State.mem_ite, State.mem_setCore, State.mem_stopNext, ite_self]

@[simp] theorem State.mem_showHalt (c state cause which : Nat) (s : State) : (State.showHalt c state cause which s).mem = s.mem := by simp only [State.showHalt, State.mem_ite, State.mem_setF, ite_self]

@[simp] theorem State.mem_pauseWdg (c : Nat) (s : State) : (State.pauseWdg c s).mem = s.mem := by simp only [State.pauseWdg, State.mem_ite, State.mem_setBit, ite_self]

@[simp] theorem State.mem_alter (c : Nat) (g : CoreSt → CoreSt) (s : State) : (State.alter c g s).mem = s.mem := by simp only [State.alter, State.mem_ite, State.mem_setCore, State.mem_retire, ite_self]

@[simp] theorem State.mem_expect (c : Nat) (r : GvResult) (s : State) : (State.expect c r s).mem = s.mem := by simp only [State.expect, State.mem_ite, State.mem_setCore, ite_self]

@[simp] theorem State.mem_watch (c a n : Nat) (write : Bool) (s : State) : (State.watch c a n write s).mem = s.mem := by
  simp only [State.watch]
  repeat' split
  all_goals simp

@[simp] theorem State.mem_coreTimeout (c addr : Nat) (write : Bool) (s : State) : (State.coreTimeout c addr write s).2.mem = s.mem := by
  simp only [State.coreTimeout]
  repeat' split
  all_goals simp

@[simp] theorem State.mem_finish (c : Nat) (f : GvFinish) (s : State) : (State.finish c f s).mem = s.mem := by
  unfold State.finish
  repeat' split
  all_goals simp only [State.mem_ite, State.mem_put, State.mem_setCore, State.mem_retire, ite_self]

@[simp] theorem State.mem_frameWord (c p a : Nat) (s : State) : (State.frameWord c p a s).2.mem = s.mem := by
  have hread := State.mem_localRead c a 4 s
  suffices h : ∃ f, f = @State.frameWord ∧ (f c p a s).2.mem = s.mem by
    obtain ⟨f, rfl, h⟩ := h
    exact h
  delta State.frameWord
  revert hread
  generalize @State.localRead = read
  revert read
  refine id fun read hread => ⟨_, rfl, ?_⟩
  split
  next t e => simpa [e] using hread
  next t e => exact (State.mem_deferBuserr _ _ _).trans (by simpa [e] using hread)

@[simp] theorem State.mem_frameWords (c p base : Nat) (s : State) : (State.frameWords c p base s).2.mem = s.mem := by
  have hword := State.mem_frameWord
  suffices h : ∃ f, f = @State.frameWords ∧ (f c p base s).2.mem = s.mem by
    obtain ⟨f, rfl, h⟩ := h
    exact h
  delta State.frameWords
  revert hword
  generalize @State.frameWord = word
  revert word
  refine id fun word hword => ⟨_, rfl, ?_⟩
  refine foldl_keeps (fun acc : List Word × State => acc.2.mem) (fun acc i => ?_) _ _
  dsimp only
  split
  · exact hword _ _ _ _
  · exact State.mem_draw _

@[simp] theorem State.mem_debugRead (x : Nat) (y : Nat) (s : State) : (State.debugRead x y s).2.2.mem = s.mem := by
  fun_induction State.debugRead <;> grind [State.mem_busRead32]

@[simp] theorem State.mem_winErr (code a : Nat) (s : State) : (State.winErr code a s).mem = s.mem := by simp only [State.winErr, State.mem_ite, State.mem_setReg, State.mem_raise0, ite_self]

@[simp] theorem State.mem_setWindow (a : Nat) (s : State) : (State.setWindow a s).mem = s.mem := rfl

@[simp] theorem State.mem_windowRead (x : Nat) (s : State) : (State.windowRead x s).2.mem = s.mem := by
  fun_induction State.windowRead <;> grind [State.mem_busRead32, State.mem_winErr, State.mem_setWindow]

@[simp] theorem State.mem_messageRead (k from_ n : Nat) (s : State) : (State.messageRead k from_ n s).2.mem = s.mem := by simp only [State.messageRead, State.mem_ite, State.mem_mailDone, ite_self]

@[simp] theorem State.mem_beamTick (s : State) : (State.beamTick s).mem = s.mem := by simp only [State.beamTick, State.mem_ite, ite_self]

@[simp] theorem State.mem_roundTick (s : State) : (State.roundTick s).mem = s.mem := s.roundTick_ticked.mem

@[simp] theorem State.mem_coreTick (c : Nat) (s : State) : (State.coreTick c s).mem = s.mem := by simp only [State.coreTick, State.mem_ite, State.mem_setCore, ite_self]

@[simp] theorem State.mem_wdgTick (w : Nat) (s : State) : (State.wdgTick w s).mem = s.mem := by simp only [State.wdgTick, State.mem_ite, State.mem_setReg, ite_self]

@[simp] theorem State.mem_xoTick (s : State) : (State.xoTick s).mem = s.mem := by simp only [State.xoTick, State.mem_ite, State.mem_setReg, State.mem_wdgTick, ite_self]

@[simp] theorem State.mem_tick (s : State) : (State.tick s).mem = s.mem := by simp only [State.tick, State.mem_ite, State.mem_marchTick, State.mem_beamTick, State.mem_roundTick, State.mem_coreTick, State.mem_wdgTick, State.mem_xoTick, ite_self]

@[simp] theorem State.mem_deliverMail (f : Frame) (s : State) : (State.deliverMail f s).mem = s.mem := by
  unfold State.deliverMail
  split <;> simp only [State.mem_ite, State.mem_placeMail, ite_self]

@[simp] theorem State.mem_withFetchWord (s : State) (nbits w : Nat) : (State.withFetchWord s nbits w).mem = s.mem := by
  unfold State.withFetchWord
  split <;> simp only [State.mem_ite, ite_self]

end Sys2Proof.Machine
end

section
/-! Operations that write the addressed memory keep it canonical. -/

namespace Sys2Proof.Machine

theorem foldl_preserves {α β : Type} (p : β → Prop) {f : β → α → β} (h : ∀ b a, p b → p (f b a)) (l : List α) (b : β) (hb : p b) : p (l.foldl f b) := by
  induction l generalizing b with
  | nil => exact hb
  | cons x l ih => exact ih _ (h b x hb)

theorem State.memWf_foldl {α : Type} {f : State → α → State} (h : ∀ t x, t.memWf → (f t x).memWf) (l : List α) {s : State} (hm : s.memWf) :
    (l.foldl f s).memWf := foldl_preserves State.memWf h l s hm

/-- A state with the memory of one in canonical form is in canonical form. -/
theorem State.memWf_of_mem {s t : State} (h : t.mem = s.mem) (hm : s.memWf) : t.memWf := by rwa [State.memWf, h]

/-- What a command answers has its memory in canonical form. -/
def Res.memWf (r : Res) : Prop := ∀ t, r = .next t → t.memWf

/-- What a word of a routine leaves has its memory in canonical form. -/
def MicroOut.memWf : MicroOut → Prop
  | .go _ s => s.memWf
  | .done s => s.memWf
  | .unpublished => True

theorem Res.memWf_next {t : State} (h : t.memWf) : Res.memWf (.next t) := by
  rintro u ⟨⟩
  exact h
theorem State.memWf_putMasked (wa mask data : Nat) (s : State) (hm : s.memWf) : (State.putMasked wa mask data s).memWf := by
  unfold State.putMasked
  exact foldl_preserves State.memWf (fun s x h => by grind [State.memWf_setByte]) _ _ hm

theorem State.memWf_sramWrite (port wa mask data : Nat) (s0 : State) (hm : s0.memWf) : (State.sramWrite port wa mask data s0).2.memWf := by
  simp only [State.sramWrite]
  repeat' split
  all_goals simp [State.memWf, State.memWf_putMasked, State.mem_errResponse, State.mem_eccWritten, State.mem_eccMerge, State.mem_mirrorWord, State.mem_grantWords, hm]

theorem State.memWf_sramWriteBytes (port a : Nat) (bs : List Byte) (s : State) (hm : s.memWf) : (State.sramWriteBytes port a bs s).2.memWf := by
  unfold State.sramWriteBytes
  refine foldl_preserves (fun acc : Nat × State => acc.2.memWf) ?_ _ (0, s) hm
  exact fun acc p h => State.memWf_sramWrite _ _ _ _ acc.2 h

theorem State.memWf_palStore (a : Nat) (bs : List Byte) (s : State) (hm : s.memWf) : (State.palStore a bs s).memWf := by
  grind [State.palStore, State.memWf_setBytes, State.mem_eccWritten, State.mem_eccMerge]

theorem State.memWf_beamStoreWrite (port addr : Nat) (v : Word) (s : State) (hm : s.memWf) : (State.beamStoreWrite port addr v s).2.memWf := by
  unfold State.beamStoreWrite
  extract_lets k mine s1
  split
  · exact hm
  · split
    · refine State.memWf_of_mem (State.mem_setMark _ _ _) (State.memWf_setWord (State.memWf_foldl (fun t x h => State.memWf_setWord h _ _) _ ?_) _ _)
      exact hm
    · exact hm

theorem State.memWf_memWrite (port a : Nat) (bs : List Byte) (s : State) (hm : s.memWf) : (State.memWrite port a bs s).2.memWf := by
  grind [State.memWrite, State.memWf_setBytes, State.memWf_sramWriteBytes, State.memWf_palStore, State.memWf_beamStoreWrite, State.mem_errResponse, State.mem_eccWritten, State.mem_eccSpan]

theorem State.memWf_portWrite (port a : Nat) (bs : List Byte) (s : State) (hm : s.memWf) : (State.portWrite port a bs s).2.memWf := by
  unfold State.portWrite
  split <;> simp [State.memWf, State.memWf_memWrite, State.mem_errResponse, hm]

theorem State.memWf_releaseHeld (s : State) (hm : s.memWf) : (State.releaseHeld s).memWf := by
  unfold State.releaseHeld
  exact foldl_preserves State.memWf (fun s x h => by grind [State.memWf_sramWrite]) _ _ hm

theorem State.memWf_startWipe (s : State) (hm : s.memWf) : (State.startWipe s).memWf := by
  simp [State.memWf, State.startWipe, State.memWf_zeroRange, hm]

theorem State.memWf_foldLine (q : QFrame) (l : QLine) (r : Nat) (s : State) (hm : s.memWf) : (State.foldLine q l r s).memWf := by
  simp only [State.foldLine]
  repeat' split
  all_goals simp [State.memWf, State.memWf_portWrite, State.mem_portRead, State.mem_putCheck, hm]

theorem State.memWf_foldOn (q : QFrame) (r : Nat) (x : Nat) (s : State) (hm : s.memWf) : (State.foldOn q r x s).memWf := by
  fun_induction State.foldOn <;> grind [State.memWf_foldLine]

theorem State.memWf_foldAll (q : QFrame) (s : State) (hm : s.memWf) : (State.foldAll q s).memWf := by
  unfold State.foldAll
  exact foldl_preserves State.memWf (fun s x h => by grind [State.memWf_foldOn]) _ _ hm

theorem State.memWf_substituteRow (q : QFrame) (r : Nat) (src : Option Nat) (y : Nat) (acc : Bool × State) (hm : acc.2.memWf) : (State.substituteRow q r src y acc).2.memWf := by
  obtain ⟨bad, s⟩ := acc
  have hm : s.memWf := hm
  unfold State.substituteRow
  dsimp only
  split
  · exact hm
  · rename_i l hl
    split
    · rename_i a
      have hr : (s.portRead 4 (a + (y - (q.region r).y0) * (q.region r).rowBytes) (((q.region r).x1 + 1 - (q.region r).x0) * 6)).2.2.memWf :=
        State.memWf_of_mem (State.mem_portRead _ _ _ _) hm
      dsimp only
      split
      · exact State.memWf_portWrite _ _ _ _ hr
      · exact State.memWf_foldl (fun t x h => State.memWf_portWrite _ _ _ t h) _ hr
    · dsimp only
      split
      · exact State.memWf_portWrite _ _ _ _ hm
      · exact State.memWf_foldl (fun t x h => State.memWf_portWrite _ _ _ t h) _ hm

theorem State.memWf_substitute (q : QFrame) (r : Nat) (s : State) (hm : s.memWf) : (State.substitute q r s).memWf := by
  have hrows (l : List Nat) (src : Option Nat) : (l.foldl (fun acc y => State.substituteRow q r src y acc) (false, s)).2.memWf :=
    foldl_preserves (fun acc : Bool × State => acc.2.memWf) (fun acc y h => State.memWf_substituteRow q r src y acc h) l _ hm
  simp only [State.substitute]
  split <;> simp [State.memWf, hrows]

theorem State.memWf_rasterSet (a : Nat) (v : Word) (s : State) (hm : s.memWf) : (State.rasterSet a v s).memWf := by
  unfold State.rasterSet
  split <;> simp [State.memWf, State.memWf_palStore, State.mem_setReg, hm]

theorem State.memWf_applyLine (key : LineKey) (s : State) (hm : s.memWf) : (State.applyLine key s).memWf := by
  unfold State.applyLine
  extract_lets due src s0 here note s1 orders old s2
  have h1 : s1.memWf := by
    refine State.memWf_foldl (fun t w h => ?_) _ hm
    split
    · exact h
    · split
      · exact State.memWf_rasterSet _ _ _ h
      · exact h
  split
  · exact h1
  · have h2 : s2.memWf := State.memWf_foldl (f := fun t (e : RasterW × Nat) => note e.1 (if e.2 = 0 then old else []) t) (fun t e h => h) _ h1
    dsimp only
    split
    · exact State.memWf_of_mem (State.mem_raise0 _ _ _) h2
    · exact h2

theorem State.memWf_undo (p : LogEntry → Bool) (s : State) (hm : s.memWf) : (State.undo p s).memWf := by
  refine State.memWf_foldl (fun t e h => ?_) _ hm
  split
  · exact State.memWf_foldl (fun u o h => State.memWf_rasterSet _ _ _ h) _ h
  · exact h

theorem State.memWf_undoFrom (key : LineKey) (s : State) (hm : s.memWf) : (State.undoFrom key s).memWf := by
  refine State.memWf_undo _ _ (State.memWf_foldl (fun t q h => ?_) _ hm)
  have hu := State.memWf_undo (fun e => decide ((e.frame, e.sf) = (q.frame, q.sf))) t h
  dsimp only
  split
  · exact State.memWf_foldl (f := fun v e => v.setReg e.1 e.2) (fun v e h => h) q.before hu
  · exact hu

theorem State.memWf_squash (key : LineKey) (s : State) (hm : s.memWf) : (State.squash key s).memWf := by
  simp only [State.squash]
  repeat' split
  all_goals simp [State.memWf, State.memWf_undoFrom, State.mem_setReg, State.mem_panelSquash, hm]

theorem State.memWf_writeRing (lane : Nat → Nat) (addr : Nat) (bs : List Byte) (s : State) (hm : s.memWf) : (State.writeRing lane addr bs s).2.memWf := by
  unfold State.writeRing
  refine foldl_preserves (fun acc : Option Nat × State => acc.2.memWf) ?_ _ (none, s) hm
  exact fun acc j h => State.memWf_sramWriteBytes _ _ _ acc.2 h

theorem State.memWf_lateFlip (m n : Nat) (plane : Bool) (s : State) (hm : s.memWf) : (State.lateFlip m n plane s).memWf := by
  simp only [State.lateFlip]
  repeat' split
  all_goals simp [State.memWf, State.memWf_squash, State.mem_raise, State.mem_raiseOnce, State.mem_flip, State.mem_planeFlip, State.mem_readSlotSprites, State.mem_limitSprites, hm]

theorem State.memWf_signalFence (n : Nat) (s : State) (hm : s.memWf) : (State.signalFence n s).memWf := by
  simp only [State.signalFence]
  repeat' split
  all_goals simp [State.memWf, State.memWf_lateFlip, State.mem_setBit, State.mem_raise, State.mem_setLayer, hm]

theorem State.memWf_planeDone (n : Nat) (s : State) (hm : s.memWf) : (State.planeDone n s).memWf := by
  simp only [State.planeDone]
  repeat' split
  all_goals simp [State.memWf, State.memWf_lateFlip, State.mem_setBit, State.mem_raise, State.mem_setLayer, State.mem_dropPlane, hm]

theorem State.memWf_streamArrive (x ch k v : Nat) (s : State) (hm : s.memWf) : (State.streamArrive x ch k v s).memWf := by
  simp only [State.streamArrive]
  repeat' split
  all_goals simp [State.memWf, State.memWf_portWrite, State.mem_count, State.mem_sndOnce, hm]

theorem State.memWf_deliverSound (h : Hop) (f : Frame) (s : State) (hm : s.memWf) : (State.deliverSound h f s).memWf := by
  exact State.memWf_foldl (fun t n h => State.memWf_foldl (fun t c h => State.memWf_streamArrive _ _ _ _ _ h) _ h) _ hm

theorem State.memWf_writeRun (port : Nat) (x : Nat) (y : Nat) (z : List Byte) (s : State) (hm : s.memWf) : (State.writeRun port x y z s).2.memWf := by
  fun_induction State.writeRun <;> grind [State.memWf_portWrite]

theorem State.memWf_deliverScene (h : Hop) (f : Frame) (s : State) (hm : s.memWf) : (State.deliverScene h f s).memWf := by
  have hrun := State.memWf_writeRun (5 + hopPort h)
  simp only [State.deliverScene]
  simp [State.memWf, hrun, hm]

theorem State.memWf_sceneFrame (h : Hop) (ok : Bool) (f : Frame) (s : State) (hm : s.memWf) : (State.sceneFrame h ok f s).memWf := by
  simp only [State.sceneFrame]
  split
  · exact State.memWf_deliverScene _ _ _ (State.memWf_of_mem (by simp) hm)
  · exact State.memWf_of_mem (by simp) hm

theorem State.memWf_planeSegment (h : Hop) (n : Nat) (f : Frame) (s : State) (hm : s.memWf) : (State.planeSegment h n f s).2.memWf := by
  unfold State.planeSegment
  extract_lets pnum line off data rb l d s1 l1
  split
  · exact hm
  · have h1 : s1.memWf := by
      unfold s1
      split
      · exact State.memWf_of_mem (by simp) hm
      · exact hm
    split
    · exact h1
    · split
      · exact h1
      · rename_i i _
        have h3 (a : Nat) : ((s1.writeRun (5 + hopPort h) (data.length / 16 + 2) a data).2.werr h
            (s1.writeRun (5 + hopPort h) (data.length / 16 + 2) a data).1).memWf :=
          State.memWf_of_mem (by simp) (State.memWf_writeRun (5 + hopPort h) (data.length / 16 + 2) a data s1 h1)
        dsimp only
        split
        · exact h3 _
        · split
          · exact State.memWf_of_mem (State.mem_fireEvent ..) (State.memWf_planeDone n _ (State.memWf_of_mem (State.mem_setLayer ..) (h3 _)))
          · exact State.memWf_of_mem (State.mem_setLayer ..) (h3 _)

theorem State.memWf_deliverPlane (h : Hop) (f : Frame) (s : State) (hm : s.memWf) : (State.deliverPlane h f s).memWf := by
  have hslots (l : List Nat) : (l.foldl (fun (acc : Bool × State) n => (acc.1 || (acc.2.planeSegment h n f).1, (acc.2.planeSegment h n f).2)) (false, s)).2.memWf := by
    refine foldl_preserves (fun acc : Bool × State => acc.2.memWf) ?_ l (false, s) hm
    exact fun acc n k => State.memWf_planeSegment h n f acc.2 k
  simp only [State.deliverPlane]
  split
  · exact hslots _
  · exact State.memWf_of_mem (State.mem_dropFrame ..) (hslots _)

theorem State.memWf_blkComplete (j : BlkJob) (s : State) (hm : s.memWf) : (State.blkComplete j s).memWf := by
  simp only [State.blkComplete]
  repeat' split
  all_goals simp [State.memWf, State.memWf_signalFence, State.mem_count, State.mem_arrive, State.mem_blkRaise, State.mem_setBlk, hm]

theorem State.memWf_reelActs (c : Nat) (d : Desc) (s : State) (hm : s.memWf) : (State.reelActs c d s).memWf := by
  simp only [State.reelActs]
  repeat' split
  all_goals simp [State.memWf, State.memWf_signalFence, State.mem_setBit, State.mem_arrive, hm]

theorem State.memWf_reelAbort (v start done : Word) (s : State) (hm : s.memWf) : (State.reelAbort v start done s).memWf := by
  unfold State.reelAbort
  extract_lets s1
  have h1 : s1.memWf := by
    refine State.memWf_foldl (fun t c h => ?_) _ hm
    dsimp only
    split
    · exact h
    · split
      · exact State.memWf_of_mem (State.mem_stopCh ..) (State.memWf_reelActs _ _ t h)
      · exact State.memWf_of_mem (State.mem_stopCh ..) h
  refine State.memWf_foldl (fun t c h => ?_) _ h1
  split
  · exact h
  · split
    · exact State.memWf_of_mem (State.mem_reelStart ..) h
    · exact State.memWf_of_mem (State.mem_raise ..) h

theorem State.memWf_resetFabric (s : State) (hm : s.memWf) : (State.resetFabric s).memWf := by
  simp [State.memWf, State.resetFabric, State.memWf_zeroRange, State.mem_resetBlocks, hm]

theorem State.memWf_resetManagement (s : State) (hm : s.memWf) : (State.resetManagement s).memWf := by
  simp [State.memWf, State.resetManagement, State.memWf_zeroRange, State.memWf_startWipe, State.mem_resetBlocks, State.mem_startCore, State.mem_dropDebug, hm]

theorem State.memWf_resetCores (s : State) (hm : s.memWf) : (State.resetCores s).memWf := by
  simp [State.memWf, State.resetCores, State.memWf_zeroRange, State.mem_setF, State.mem_resetBlocks, State.mem_holdCore, hm]

theorem State.memWf_chipReset (cause : Nat) (s : State) (hm : s.memWf) : (State.chipReset cause s).memWf := by
  grind [State.chipReset, State.memWf_resetFabric, State.memWf_resetManagement, State.memWf_resetCores, State.mem_setCause]

theorem State.memWf_managementReset (cause : Nat) (s : State) (hm : s.memWf) : (State.managementReset cause s).memWf := by
  simp [State.memWf, State.managementReset, State.memWf_resetManagement, State.mem_setCause, hm]

theorem State.memWf_swReset (v : Word) (s : State) (hm : s.memWf) : (State.swReset v s).memWf := by
  unfold State.swReset
  split <;> simp [State.memWf, State.memWf_chipReset, hm]

theorem State.memWf_deliverUpdate (f : Frame) (s : State) (hm : s.memWf) : (State.deliverUpdate f s).memWf := by
  grind [State.deliverUpdate, State.memWf_sramWriteBytes, State.mem_setReg, State.mem_showStaging, State.mem_dropChunk]

theorem State.memWf_loadLocal (cs : List Nat) (off : Nat) (bs : List Byte) (s : State) (hm : s.memWf) : (State.loadLocal cs off bs s).memWf := by
  exact State.memWf_foldl (fun t c h => State.memWf_foldl (fun w i h => State.memWf_of_mem (State.mem_setMark ..) h) _ (State.memWf_setBytes h _ _)) _ hm

theorem State.memWf_putSection (ty dest : Nat) (bs : List Byte) (s : State) (hm : s.memWf) : (State.putSection ty dest bs s).memWf := by
  unfold State.putSection
  split
  · exact State.memWf_setBytes (State.memWf_zeroRange hm _ _) _ _
  · exact State.memWf_foldl (fun t e h => State.memWf_beamStoreWrite _ _ _ t h) _ hm
  · exact State.memWf_loadLocal _ _ _ s hm
  · refine State.memWf_foldl (fun t i h => ?_) _ hm
    split
    · exact State.memWf_palStore _ _ t h
    · exact h
  · exact State.memWf_foldl (fun t e h => State.memWf_of_mem (State.mem_mapPut ..) h) _ hm
  · split
    · exact State.memWf_sramWriteBytes _ _ _ s hm
    · split
      · exact State.memWf_loadLocal _ _ _ s hm
      · exact hm

theorem State.memWf_putRecord (a : Nat) (ws : List Word) (s : State) (hm : s.memWf) : (State.putRecord a ws s).memWf := by
  unfold State.putRecord
  exact foldl_preserves State.memWf (fun s x h => by grind [State.memWf_setWord, State.mem_setMark]) _ _ hm

theorem State.memWf_storeOp (e : Ev) (summary : Bool) (s : State) (hm : s.memWf) : (State.storeOp e summary s).memWf := by
  unfold State.storeOp
  split <;> simp [State.memWf, State.memWf_putRecord, State.mem_setReg, State.mem_count, State.mem_raise0, hm]

theorem State.memWf_storeSec (e : Ev) (s : State) (hm : s.memWf) : (State.storeSec e s).memWf := by
  simp [State.memWf, State.storeSec, State.memWf_putRecord, State.mem_setReg, hm]

theorem State.memWf_clearSecurity (s : State) (hm : s.memWf) : (State.clearSecurity s).memWf := by
  simp [State.memWf, State.clearSecurity, State.memWf_zeroRange, State.mem_setReg, hm]

theorem State.memWf_summarise (x : Supp) (s : State) (hm : s.memWf) : (State.summarise x s).memWf := by
  unfold State.summarise
  split <;> simp [State.memWf, State.memWf_storeOp, State.mem_count, State.mem_setTokens, hm]

theorem State.memWf_wipe (cause : Nat) (s : State) (hm : s.memWf) : (State.wipe cause s).memWf := State.memWf_startWipe (hm := hm) ..

theorem State.memWf_advance (dst : Nat) (rst : Bool) (s : State) (hm : s.memWf) : (State.advance dst rst s).memWf := by
  grind [State.advance, State.memWf_chipReset, State.memWf_clearSecurity, State.memWf_wipe, State.mem_secRaise, State.mem_dropDebug, State.mem_secBit]

theorem State.memWf_lDataWrite (c : Nat) (v : Word) (s : State) (hm : s.memWf) : (State.lDataWrite c v s).memWf := by
  simp only [State.lDataWrite]
  repeat' split
  all_goals simp [State.memWf, State.memWf_setWord, State.mem_eccWritten, hm]

theorem State.memWf_ucPut (k copy w op : Nat) (s : State) (hm : s.memWf) : (State.ucPut k copy w op s).memWf := by
  simp [State.memWf, State.ucPut, State.memWf_setBytes, State.mem_setMark, hm]

theorem State.memWf_regionBack (k first count : Nat) (s : State) (hm : s.memWf) : (State.regionBack k first count s).memWf := by
  unfold State.regionBack
  exact foldl_preserves State.memWf (fun s x h => by grind [State.memWf_ucPut, State.mem_count, State.mem_setMark]) _ _ hm

theorem State.memWf_ucRepair (k copy w : Nat) (s : State) (hm : s.memWf) : (State.ucRepair k copy w s).2.memWf := by
  simp only [State.ucRepair]
  repeat' split
  all_goals simp [State.memWf, State.memWf_setBytes, State.mem_raise0, State.mem_setMark, hm]

theorem State.memWf_ucScrub (k copy w : Nat) (u : Upset) (s : State) (hm : s.memWf) : (State.ucScrub k copy w u s).memWf := by
  grind [State.ucScrub, State.memWf_ucRepair, State.mem_setBit, State.mem_raise0, State.mem_upset, State.mem_ucCorrect]

theorem State.memWf_romSections (src : Nat) (s : State) (hm : s.memWf) : (State.romSections src s).memWf := by
  unfold State.romSections
  exact foldl_preserves State.memWf (fun s x h => by grind [State.memWf_putSection]) _ _ hm

theorem State.memWf_bootMicro (src : Nat) (x : Section) (s : State) (hm : s.memWf) : (State.bootMicro src x s).memWf := by
  unfold State.bootMicro
  split
  · exact hm
  · extract_lets at_ first
    clear_value at_ first
    refine State.memWf_foldl (fun t k h => ?_) _ hm
    extract_lets u
    have hu : u.memWf := by
      unfold u
      clear_value u
      generalize List.range (at_ 6 2) = l
      exact State.memWf_foldl (fun v i h => State.memWf_ucPut _ _ _ _ _ (State.memWf_ucPut _ _ _ _ v h)) _ h
    clear_value u
    split
    · exact State.memWf_of_mem (State.mem_setF ..) hu
    · exact State.memWf_of_mem (State.mem_setF ..) hu

theorem State.memWf_loadMicro (src : Nat) (s : State) (hm : s.memWf) : (State.loadMicro src s).memWf := by
  unfold State.loadMicro
  exact foldl_preserves State.memWf (fun s x h => by grind [State.memWf_bootMicro]) _ _ hm

theorem State.memWf_tryImage (src : Nat) (ok : Bool) (s : State) (hm : s.memWf) : (State.tryImage src ok s).2.memWf := by
  have hc : (s.checkImage src ok none).2.memWf := by rwa [State.memWf, State.mem_checkImage]
  unfold State.tryImage
  generalize s.checkImage src ok none = r at hc
  obtain ⟨⟨c, i, a⟩, t⟩ := r
  have ht : t.memWf := hc
  have hu (v : PairView) : (State.swapSet v ((((t.romSections src).loadMicro src).imagePassed src).verified 0 0 0)).memWf :=
    State.memWf_of_mem ((State.mem_swapSet ..).trans ((State.mem_verified ..).trans (State.mem_imagePassed ..)))
      (State.memWf_loadMicro src _ (State.memWf_romSections src t ht))
  show State.memWf (Prod.snd (ite _ _ _))
  split
  · exact ht
  · split
    · exact hu _
    · exact ht

theorem State.trySlots_cons_true {ok : Nat → Bool} {src : Nat} {s t : State} (rest : List Nat)
    (h : State.tryImage src (ok src) (s.useAttempt src) = (true, t)) : State.trySlots ok (src :: rest) s = (some src, t) := by
  revert h
  delta State.trySlots State.trySlots._f
  generalize @State.tryImage = f
  intro h
  change (match f src (ok src) (s.useAttempt src) with | (true, t) => (some src, t) | (false, t) => _) = _
  rw [h]
theorem State.trySlots_cons_false {ok : Nat → Bool} {src : Nat} {s t : State} (rest : List Nat)
    (h : State.tryImage src (ok src) (s.useAttempt src) = (false, t)) : State.trySlots ok (src :: rest) s = State.trySlots ok rest (t.program (recordAt src 0) 0x0F) := by
  revert h
  delta State.trySlots State.trySlots._f
  generalize @State.tryImage = f
  intro h
  change (match f src (ok src) (s.useAttempt src) with | (true, t) => (some src, t) | (false, t) => _) = _
  rw [h]

theorem State.memWf_trySlots (ok : Nat → Bool) (x : List Nat) (s : State) (hm : s.memWf) : (State.trySlots ok x s).2.memWf := by
  induction x generalizing s with
  | nil => exact hm
  | cons src rest ih =>
    have ht : ((s.useAttempt src).tryImage src (ok src)).2.memWf := State.memWf_tryImage _ _ _ (State.memWf_of_mem (State.mem_useAttempt ..) hm)
    rcases h : (s.useAttempt src).tryImage src (ok src) with ⟨b, t⟩
    rw [h] at ht
    cases b with
    | true => rw [State.trySlots_cons_true rest h]; exact ht
    | false => rw [State.trySlots_cons_false rest h]; exact ih _ (State.memWf_of_mem (State.mem_program _ _ _) ht)

theorem State.memWf_serve (p : Pend) (s : State) (hm : s.memWf) : (State.serve p s).memWf := by
  unfold State.serve
  split <;> simp [State.memWf, State.memWf_sramWrite, State.mem_sramRead, hm]

theorem State.memWf_fenceWrite (n : Nat) (v : Word) (s : State) (hm : s.memWf) : (State.fenceWrite n v s).memWf := by
  unfold State.fenceWrite
  extract_lets s1
  split
  · exact State.memWf_signalFence n s1 hm
  · exact hm

theorem State.memWf_dbgWrite (a : Nat) (v : Word) (s : State) (hm : s.memWf) : (State.dbgWrite a v s).memWf := by
  simp only [State.dbgWrite]
  repeat' split
  all_goals simp [State.memWf, State.memWf_lDataWrite, State.mem_writeCoded, State.mem_authCtl, State.mem_dbgCtrl, State.mem_regDataWrite, State.mem_drxSend, State.mem_vtWrite, hm]

theorem State.memWf_layWrite (a : Nat) (v : Word) (s : State) (hm : s.memWf) : (State.layWrite a v s).memWf := by
  simp only [State.layWrite]
  repeat' split
  all_goals simp [State.memWf, State.memWf_fenceWrite, State.mem_writeCoded, State.mem_bankWrite, hm]

theorem State.memWf_regWrite (m : Acc) (a : Nat) (v : Word) (s : State) (hm : s.memWf) : (State.regWrite m a v s).memWf := by
  simp only [State.regWrite]
  repeat' split
  all_goals simp [State.memWf, State.memWf_reelAbort, State.memWf_swReset, State.memWf_dbgWrite, State.memWf_layWrite, State.mem_writeCoded, State.mem_raise0, State.mem_judgeFsout, State.mem_writeCepol, State.mem_pnlCmdq, State.mem_mapWrite, State.mem_blankRequest, State.mem_pavaneRequest, State.mem_pavaneExit, State.mem_writeLanepol, State.mem_gflagSet, State.mem_gflagClear, State.mem_epolWrite, State.mem_blkPush, State.mem_blkRelease, State.mem_blkClear, State.mem_writeSrc, State.mem_irqClear, State.mem_irqRaise, State.mem_writeCoal, State.mem_reelGo, State.mem_writeGvctl, State.mem_writePllctl, State.mem_qdlCtrl, State.mem_commitRequest, State.mem_beamCtrl, State.mem_secCmd, State.mem_tclr, State.mem_ci3cCmd, State.mem_xspiCmd, State.mem_xspiPush, State.mem_xspiCtrl, State.mem_akCtrl, State.mem_mrcReq, State.mem_engStatWrite, State.mem_tmrWrite, State.mem_sndWrite, State.mem_pinWrite, State.mem_mgtWrite, State.mem_evrWrite, State.mem_imgWrite, hm]

theorem State.memWf_busWrite (m : Acc) (a : Nat) (bs : List Byte) (s : State) (hm : s.memWf) : (State.busWrite m a bs s).2.memWf := by
  simp only [State.busWrite]
  repeat' split
  all_goals simp [State.memWf, State.memWf_memWrite, State.memWf_regWrite, State.mem_denied, State.mem_failWrite, hm]

theorem State.memWf_busWrite32 (m : Acc) (a : Nat) (v : Word) (s : State) (hm : s.memWf) : (State.busWrite32 m a v s).2.memWf := State.memWf_busWrite (hm := hm) ..

theorem State.memWf_askWrite (m : Acc) (a : Nat) (v : Word) (s : State) (hm : s.memWf) : (State.askWrite m a v s).memWf := by
  simp [State.memWf, State.askWrite, State.memWf_busWrite32, State.mem_reply, hm]

theorem State.memWf_dataBeat (c : Nat) (u : Upset) (s : State) (hm : s.memWf) : (State.dataBeat c u s).memWf := by
  simp only [State.dataBeat]
  repeat' split
  all_goals simp [State.memWf, State.memWf_busWrite, State.mem_setCh, State.mem_busRead, State.mem_upsetAt, hm]

theorem State.memWf_makeBeat (c : Nat) (s : State) (hm : s.memWf) : (State.makeBeat c s).memWf := by
  simp only [State.makeBeat]
  repeat' split
  all_goals simp [State.memWf, State.memWf_busWrite, State.mem_setCh, hm]

theorem State.memWf_writeBeats (c : Nat) (x : List (Nat × List Byte)) (s : State) (hm : s.memWf) : (State.writeBeats c x s).2.memWf := by
  fun_induction State.writeBeats <;> grind [State.memWf_busWrite]

theorem State.memWf_localWrite (c a : Nat) (bs : List Byte) (s : State) (hm : s.memWf) : (State.localWrite c a bs s).2.memWf := by
  grind [State.localWrite, State.memWf_setBytes, State.mem_eccWritten, State.mem_eccSpan]

theorem State.memWf_pieceWrite (c a : Nat) (bs : List Byte) (s : State) (hm : s.memWf) : (State.pieceWrite c a bs s).2.memWf := by
  unfold State.pieceWrite
  split <;> simp [State.memWf, State.memWf_busWrite, State.memWf_localWrite, hm]

theorem State.memWf_coreWrite (c a : Nat) (bs : List Byte) (s : State) (hm : s.memWf) : (State.coreWrite c a bs s).2.2.memWf := by
  simp only [State.coreWrite]
  repeat' split
  all_goals simp [State.memWf, State.memWf_pieceWrite, hm]

theorem State.memWf_doubleFault (c : Nat) (s : State) (hm : s.memWf) : (State.doubleFault c s).memWf := by
  unfold State.doubleFault
  split <;> simp [State.memWf, State.memWf_managementReset, State.mem_arrive, State.mem_logEvent, State.mem_setCore, hm]

theorem State.memWf_putLocal (k : Nat) (w : Word) (s : State) (hm : s.memWf) : (State.putLocal k w s).memWf := by
  simp [State.memWf, State.putLocal, State.memWf_setWord, State.mem_eccWritten, hm]

theorem State.memWf_stackFrame (c npc : Nat) (s : State) (hm : s.memWf) : (State.stackFrame c npc s).memWf := by
  unfold State.stackFrame
  extract_lets x base k
  clear_value k
  have hframe (pc : Nat) (st : Word) (l : List Nat) :
      (l.foldl (fun t i => if x.waits i then t else t.putLocal (k + 8 + 4 * i) (x.r i)) ((s.putLocal k st).putLocal (k + 4) (wd pc))).memWf := by
    refine State.memWf_foldl (fun t i h => ?_) _ (State.memWf_putLocal _ _ _ (State.memWf_putLocal _ _ s hm))
    split
    · exact h
    · exact State.memWf_putLocal _ _ t h
  clear_value base
  split <;> exact State.memWf_of_mem (State.mem_setCore ..) (hframe _ _ _)

theorem State.memWf_enter (c : Nat) (e : Exc) (s : State) (hm : s.memWf) : (State.enter c e s).memWf := by
  simp only [State.enter]
  repeat' split
  all_goals simp [State.memWf, State.memWf_doubleFault, State.memWf_stackFrame, State.mem_setCore, hm]

theorem State.memWf_haltAt (c cause which npc scode : Nat) (s : State) (hm : s.memWf) : (State.haltAt c cause which npc scode s).memWf := by
  simp only [State.haltAt]
  repeat' split
  all_goals simp [State.memWf, State.memWf_doubleFault, State.memWf_enter, State.mem_showFrozen, State.mem_setCore, State.mem_showHalt, State.mem_pauseWdg, hm]

theorem State.memWf_takeDue (c : Nat) (d : Due) (s : State) (hm : s.memWf) : (State.takeDue c d s).memWf := by
  unfold State.takeDue
  split <;> simp [State.memWf, State.memWf_enter, State.memWf_haltAt, State.mem_setCore, hm]

theorem State.memWf_issueRes {c : Nat} {w : Word} {f : State → Res} {s : State} (hm : s.memWf) (hf : ∀ t : State, t.memWf → Res.memWf (f t)) : Res.memWf (State.issueRes c w f s) := by
  unfold State.issueRes
  have ht : (s.fetchAhead c).memWf := by rwa [State.memWf, State.mem_fetchAhead]
  split
  · exact Res.memWf_next hm
  · generalize s.fetchAhead c = t at ht
    dsimp only
    split
    · exact Res.memWf_next hm
    · split
      · exact Res.memWf_next (State.memWf_takeDue _ _ t ht)
      · split
        · exact Res.memWf_next hm
        · exact hf t ht

theorem State.memWf_issue {c : Nat} {w : Word} {f : State → State} {s : State} (hm : s.memWf) (hf : ∀ t : State, t.memWf → (f t).memWf) : Res.memWf (State.issue c w f s) := State.memWf_issueRes hm fun t ht => Res.memWf_next (hf t ht)

theorem State.memWf_makeStore (c : Nat) (r : GvStore) (s : State) (hm : s.memWf) : (State.makeStore c r s).2.memWf := by
  unfold State.makeStore
  split <;> simp [State.memWf, State.memWf_coreWrite, hm]

theorem State.memWf_makeAll (c : Nat) (x : List GvStore) (s : State) (hm : s.memWf) : (State.makeAll c x s).2.memWf := by
  fun_induction State.makeAll <;> grind [State.memWf_makeStore]

theorem State.memWf_flushStores (c : Nat) (s : State) (hm : s.memWf) : (State.flushStores c s).memWf := by
  simp [State.memWf, State.flushStores, State.memWf_makeAll, State.mem_setCore, hm]

theorem State.memWf_loadTo (c rd a n : Nat) (signed : Bool) (s0 : State) (hm : s0.memWf) : (State.loadTo c rd a n signed s0).memWf := by
  unfold State.loadTo
  split <;> simp [State.memWf, State.memWf_flushStores, State.mem_coreRead, State.mem_expect, State.mem_watch, hm]

theorem State.memWf_storeFrom (c a : Nat) (bs : List Byte) (s : State) (hm : s.memWf) : (State.storeFrom c a bs s).memWf := by
  simp only [State.storeFrom]
  repeat' split
  all_goals simp [State.memWf, State.memWf_coreWrite, State.memWf_makeStore, State.mem_setCore, State.mem_deferBuserr, State.mem_watch, hm]

theorem State.memWf_lockedAccess (c op a : Nat) (rb cmp : Word) (s : State) (hm : s.memWf) : (State.lockedAccess c op a rb cmp s).2.2.memWf := by
  grind [State.lockedAccess, State.memWf_pieceWrite, State.mem_pieceRead]

theorem State.memWf_atomicDone (c : Nat) (q : GvAtomic) (s : State) (hm : s.memWf) : (State.atomicDone c q s).memWf := by
  simp only [State.atomicDone]
  repeat' split
  all_goals simp [State.memWf, State.memWf_enter, State.memWf_lockedAccess, State.mem_put, State.mem_setCore, State.mem_watch, State.mem_finish, hm]

theorem State.memWf_startAtomic (c : Nat) (q : GvAtomic) (s : State) (hm : s.memWf) : (State.startAtomic c q s).memWf := by
  unfold State.startAtomic
  split <;> simp [State.memWf, State.memWf_atomicDone, State.mem_setCore, hm]

theorem State.memWf_interrupt (c vec lvl : Nat) (s : State) (hm : s.memWf) : (State.interrupt c vec lvl s).memWf := by
  simp only [State.interrupt]
  repeat' split
  all_goals simp [State.memWf, State.memWf_doubleFault, State.memWf_stackFrame, State.mem_setCore, hm]

theorem State.memWf_op3 (c : Fin 3) (o : Nat) (rd ra rb : Fin 16) (g : Word → Word → Word) (s : State) (hm : s.memWf) : Res.memWf (State.op3 c o rd ra rb g s) := State.memWf_issue hm fun t ht => State.memWf_of_mem (State.mem_alter ..) ht

theorem State.memWf_unit3 (c : Fin 3) (o : Nat) (rd ra rb : Fin 16) (dz : Bool) (g : Word → Word → Word) (s : State) (hm : s.memWf) : Res.memWf (State.unit3 c o rd ra rb dz g s) := State.memWf_issue hm fun t ht => State.memWf_of_mem ((State.mem_retire ..).trans ((State.mem_expect ..).trans (State.mem_setCore ..))) ht

theorem State.memWf_opImm (c : Fin 3) (o : Nat) (rd ra : Fin 16) (imm : BitVec 18) (g : Word → Word) (s : State) (hm : s.memWf) : Res.memWf (State.opImm c o rd ra imm g s) := State.memWf_issue hm fun t ht => State.memWf_of_mem (State.mem_alter ..) ht

theorem State.memWf_ld (c : Fin 3) (o n : Nat) (signed : Bool) (rd ra : Fin 16) (imm : BitVec 18) (s : State) (hm : s.memWf) : Res.memWf (State.ld c o n signed rd ra imm s) := State.memWf_issue hm fun t ht => State.memWf_of_mem (State.mem_retire ..) (State.memWf_loadTo _ _ _ _ _ t ht)

theorem State.memWf_st (c : Fin 3) (o n : Nat) (rd ra : Fin 16) (imm : BitVec 18) (s : State) (hm : s.memWf) : Res.memWf (State.st c o n rd ra imm s) := by
  refine State.memWf_issue hm fun t ht => ?_
  dsimp only
  split
  · exact ht
  · exact State.memWf_of_mem (State.mem_retire ..) (State.memWf_storeFrom _ _ _ t ht)

theorem State.memWf_at3 (c : Fin 3) (op : Nat) (rd ra rb : Fin 16) (s : State) (hm : s.memWf) : Res.memWf (State.at3 c op rd ra rb s) := State.memWf_issue hm fun t ht => State.memWf_startAtomic _ _ t ht

theorem State.memWf_cop (c : Fin 3) (fn : Nat) (rd ra rb : Fin 16) (g : Word → Word → Word) (s : State) (hm : s.memWf) : Res.memWf (State.cop c fn rd ra rb g s) := State.memWf_issue hm fun t ht => State.memWf_of_mem ((State.mem_retire ..).trans (State.mem_expect ..)) ht

theorem State.memWf_debugWrite (x : List Word) (y : Nat) (s : State) (hm : s.memWf) : (State.debugWrite x y s).2.2.memWf := by
  induction x generalizing y s with
  | nil => exact hm
  | cons w ws ih =>
    have ht := State.memWf_busWrite32 debugAcc (y % 2 ^ 32) w s hm
    unfold State.debugWrite
    split
    next t e => rw [e] at ht; exact ih _ t ht
    next t _ e => rw [e] at ht; exact ht

theorem State.memWf_debugRequest (path : Option Nat) (data : List Byte) (s : State) (hm : s.memWf) : (State.debugRequest path data s).memWf := by
  unfold State.debugRequest
  split
  · exact State.memWf_of_mem (State.mem_raise0 ..) hm
  · extract_lets le tag count addr req answer
    have hans (status n : Nat) (ws : List Word) {t : State} (ht : t.memWf) : (answer status n ws t).memWf := State.memWf_of_mem (State.mem_debugAnswer ..) ht
    clear_value answer le tag count addr req
    split
    · split
      · exact hans _ _ _ hm
      · split
        · exact hans _ _ _ hm
        · refine hans _ _ _ ?_
          rwa [State.memWf, State.mem_debugRead]
    · split
      · exact hans _ _ _ hm
      · split
        · exact hans _ _ _ hm
        · exact hans _ _ _ (State.memWf_debugWrite _ _ s hm)
    · have hc : (s.chalRequest (le 5 1) req).2.memWf := by rwa [State.memWf, State.mem_chalRequest]
      split
      next t e => rw [e] at hc; exact hans _ _ _ hc
      next t e => rw [e] at hc; exact hans _ _ _ hc
    · exact hans _ _ _ (State.memWf_foldl (f := fun (t : State) w => t.setReg _ _) (fun t w h => h) _ hm)
    · split
      · rwa [State.memWf, State.mem_verifyRequest]
      · exact hans _ _ _ hm
    · exact hans _ _ _ hm

theorem State.memWf_deliverDebug (f : Frame) (s : State) (hm : s.memWf) : (State.deliverDebug f s).memWf := by
  unfold State.deliverDebug
  split
  · exact State.memWf_debugRequest _ _ s hm
  · exact hm

theorem State.memWf_debugFrame (op : Nat) (hop : Hop) (ok : Bool) (f : Frame) (s : State) (hm : s.memWf) : (State.debugFrame op hop ok f s).memWf := by
  unfold State.debugFrame
  split
  · exact hm
  · have ht : (s.arrives hop ok f).2.memWf := by rwa [State.memWf, State.mem_arrives]
    dsimp only
    split
    · exact State.memWf_deliverDebug f _ ht
    · exact ht

theorem State.memWf_windowWrite (x : List Word) (s : State) (hm : s.memWf) : (State.windowWrite x s).memWf := by
  induction x generalizing s with
  | nil => exact hm
  | cons w ws ih =>
    have ht := State.memWf_busWrite32 hostAcc s.hi3c.ptr w s hm
    unfold State.windowWrite
    extract_lets a
    change (State.busWrite32 hostAcc a w s).2.memWf at ht
    clear_value a
    generalize s.busWrite32 hostAcc a w = r at ht ⊢
    obtain ⟨c, t⟩ := r
    refine ih _ (State.memWf_of_mem ?_ ht)
    dsimp only
    rw [State.mem_ite, State.mem_winErr, State.mem_setWindow, ite_self]

theorem State.memWf_deliver (h : Hop) (f : Frame) (s : State) (hm : s.memWf) : (State.deliver h f s).memWf := by
  unfold State.deliver
  split
  · split
    · rwa [State.memWf, State.mem_deliverRingState]
    · exact hm
  · exact State.memWf_deliverScene h f s hm
  · exact State.memWf_deliverPlane h f s hm
  · exact State.memWf_deliverSound h f s hm
  · split
    · rwa [State.memWf, State.mem_deliverMail]
    · exact hm
  · exact State.memWf_deliverUpdate f s hm
  · exact State.memWf_deliverDebug f s hm
  · exact hm

theorem State.memWf_frameArrives (h : Hop) (ok : Bool) (f : Frame) (s : State) (hm : s.memWf) : (State.frameArrives h ok f s).memWf := by
  have ht : (s.arrives h ok f).2.memWf := by rwa [State.memWf, State.mem_arrives]
  unfold State.frameArrives
  dsimp only
  split
  · exact ht
  · split
    · exact hm
    · exact State.memWf_deliver h f _ ht

theorem State.memWf_microFetch (c w : Nat) (s : State) (hm : s.memWf) : (State.microFetch c w s).2.memWf := by
  unfold State.microFetch
  split
  · exact hm
  · rwa [State.memWf, State.mem_ucCorrect]
  · have ht := State.memWf_ucRepair c 0 w s hm
    split
    next t e => rw [e] at ht; exact ht
    next t e => rw [e] at ht; rwa [State.memWf, State.mem_raise0]

theorem State.memWf_microRead (c : Nat) (u : UopArgs) (m : Micro) (w : Nat) (s : State) (hm : s.memWf) : MicroOut.memWf (State.microRead c u m w s) := by
  have hp (a n : Nat) : (s.pieceRead c a n).2.2.memWf := by rwa [State.memWf, State.mem_pieceRead]
  unfold State.microRead
  extract_lets x n k a access
  clear_value n a
  split
  · exact State.memWf_enter c _ s hm
  · split
    · exact State.memWf_enter c _ s hm
    · dsimp only
      show State.memWf _
      split
      · exact hp a n
      · exact State.memWf_of_mem (State.mem_deferBuserr ..) (hp a n)

theorem State.memWf_microSeq (c : Nat) (u : UopArgs) (m : Micro) (w : Nat) (s : State) (hm : s.memWf) : MicroOut.memWf (State.microSeq c u m w s) := by
  have he (o : Nat) : (s.enter c ⟨o, u.pc, u.pc, 0, 0, false⟩).memWf := State.memWf_enter c _ s hm
  unfold State.microSeq
  extract_lets target jump illegal
  split
  · exact hm
  · exact hm
  · exact hm
  · exact hm
  · exact hm
  · split
    · exact he _
    · exact hm
  · split
    · exact he _
    · exact hm
  · trivial

theorem State.memWf_microTrap (c : Nat) (u : UopArgs) (w : Nat) (s : State) (hm : s.memWf) : (State.microTrap c u w s).memWf := by
  unfold State.microTrap
  dsimp only
  split
  · split
    · exact State.memWf_doubleFault c s hm
    · exact State.memWf_haltAt c _ _ _ _ s hm
  · exact State.memWf_enter c _ s hm

theorem State.memWf_microCommit (c : Nat) (u : UopArgs) (m : Micro) (w : Nat) (s : State) (hm : s.memWf) : MicroOut.memWf (State.microCommit c u m w s) := by
  have he (o a : Nat) (w : Word) : (s.enter c ⟨o, u.pc, u.pc, a, w, false⟩).memWf := State.memWf_enter c _ s hm
  have hf (fin : GvFinish) {t : State} (ht : t.memWf) : (t.finish c fin).memWf := by rwa [State.memWf, State.mem_finish]
  unfold State.microCommit
  extract_lets x tmp n d2 d1 own fin a access
  clear_value tmp n own fin a x
  split
  · cases own with
    | some d => exact hf fin (State.memWf_of_mem (State.mem_setCore ..) hm)
    | none => exact hf fin hm
  · split
    · exact he _ _ _
    · split
      · exact hf fin (State.memWf_loadTo _ _ _ _ _ s hm)
      · have hr : (s.coreRead c a n).2.2.2.memWf := by rwa [State.memWf, State.mem_coreRead]
        revert hr
        generalize s.coreRead c a n = r
        obtain ⟨e, ea, bs, t⟩ := r
        intro hr
        refine hf fin (State.memWf_of_mem ?_ hr)
        rw [State.mem_watch, State.mem_ite, State.mem_deferBuserr, ite_self]
  · split
    · exact he _ _ _
    · split
      · exact hm
      · exact hf fin (State.memWf_storeFrom _ _ _ s hm)
  · split
    · trivial
    · split
      · exact State.memWf_startAtomic _ _ s hm
      · exact he _ _ _
  · have hd : s.draw.2.memWf := hm
    dsimp only
    split
    · refine hf fin ?_
      rwa [State.memWf, State.mem_expect]
    · exact hf fin hd
  · trivial

theorem State.memWf_microStep (c : Nat) (u : UopArgs) (m : Micro) (s : State) (hm : s.memWf) : MicroOut.memWf (State.microStep c u m s) := by
  have ht := State.memWf_microFetch c m.at_ s hm
  unfold State.microStep
  split
  next t e => rw [e] at ht; exact State.memWf_enter c _ t ht
  next t e =>
    rw [e] at ht
    dsimp only
    split
    · exact State.memWf_enter c _ t ht
    · split
      · trivial
      · exact ht
    · split
      · trivial
      · exact State.memWf_microRead c u m _ t ht
    · exact State.memWf_microSeq c u m _ t ht
    · split
      · trivial
      · exact State.memWf_microTrap c u _ t ht
    · exact State.memWf_microCommit c u m _ t ht
    · trivial

theorem State.memWf_microRun (c : Nat) (u : UopArgs) (x : Nat) (y : Micro) (s : State) (hm : s.memWf) : MicroOut.memWf (State.microRun c u x y s) := by
  induction x generalizing y s with
  | zero => exact State.memWf_enter c _ s hm
  | succ fuel ih =>
    have ht := State.memWf_microStep c u y s hm
    unfold State.microRun
    split
    next m1 t e => rw [e] at ht; exact ih m1 t ht
    next o _ => exact ht

end Sys2Proof.Machine
end

section
/-! Every command but a UOP completes, and keeps the memory canonical. -/

namespace Sys2Proof.Machine

/-- The command completes, and keeps the memory canonical. -/
def Res.Runs (s : State) (r : Res) : Prop := ∃ t, r = .next t ∧ (s.memWf → t.memWf)

theorem Res.runs_next {s t : State} (h : s.memWf → t.memWf) : Res.Runs s (.next t) := ⟨t, rfl, h⟩

theorem Res.runs_keep {s t : State} (h : t.mem = s.mem) : Res.Runs s (.next t) := Res.runs_next (State.memWf_of_mem h)

theorem Res.runs_self (s : State) : Res.Runs s (.next s) := Res.runs_next id

theorem State.runs_issueRes {c : Nat} {w : Word} {f : State → Res} {s : State} (hf : ∀ t : State, Res.Runs t (f t)) : Res.Runs s (State.issueRes c w f s) := by
  have ht : s.memWf → (s.fetchAhead c).memWf := fun hm => by rwa [State.memWf, State.mem_fetchAhead]
  unfold State.issueRes
  split
  · exact Res.runs_self s
  · generalize s.fetchAhead c = t at ht
    dsimp only
    split
    · exact Res.runs_self s
    · split
      · exact Res.runs_next fun hm => State.memWf_takeDue _ _ t (ht hm)
      · split
        · exact Res.runs_self s
        · obtain ⟨u, e, hu⟩ := hf t
          exact e ▸ Res.runs_next fun hm => hu (ht hm)

theorem State.runs_issue {c : Nat} {w : Word} {f : State → State} {s : State} (hf : ∀ t : State, t.memWf → (f t).memWf) : Res.Runs s (State.issue c w f s) :=
  State.runs_issueRes fun t => Res.runs_next (hf t)

theorem State.runs_op3 (c : Fin 3) (o : Nat) (rd ra rb : Fin 16) (g : Word → Word → Word) (s : State) : Res.Runs s (s.op3 c o rd ra rb g) :=
  State.runs_issue fun t ht => State.memWf_of_mem (State.mem_alter ..) ht

theorem State.runs_opImm (c : Fin 3) (o : Nat) (rd ra : Fin 16) (imm : BitVec 18) (g : Word → Word) (s : State) : Res.Runs s (s.opImm c o rd ra imm g) :=
  State.runs_issue fun t ht => State.memWf_of_mem (State.mem_alter ..) ht

theorem State.runs_unit3 (c : Fin 3) (o : Nat) (rd ra rb : Fin 16) (dz : Bool) (g : Word → Word → Word) (s : State) : Res.Runs s (s.unit3 c o rd ra rb dz g) :=
  State.runs_issue fun t ht => State.memWf_of_mem ((State.mem_retire ..).trans ((State.mem_expect ..).trans (State.mem_setCore ..))) ht

theorem State.runs_cop (c : Fin 3) (fn : Nat) (rd ra rb : Fin 16) (g : Word → Word → Word) (s : State) : Res.Runs s (s.cop c fn rd ra rb g) :=
  State.runs_issue fun t ht => State.memWf_of_mem ((State.mem_retire ..).trans (State.mem_expect ..)) ht

theorem State.runs_ld (c : Fin 3) (o n : Nat) (signed : Bool) (rd ra : Fin 16) (imm : BitVec 18) (s : State) : Res.Runs s (s.ld c o n signed rd ra imm) :=
  State.runs_issue fun t ht => State.memWf_of_mem (State.mem_retire ..) (State.memWf_loadTo _ _ _ _ _ t ht)

theorem State.runs_st (c : Fin 3) (o n : Nat) (rd ra : Fin 16) (imm : BitVec 18) (s : State) : Res.Runs s (s.st c o n rd ra imm) := by
  refine State.runs_issue fun t ht => ?_
  dsimp only
  split
  · exact ht
  · exact State.memWf_of_mem (State.mem_retire ..) (State.memWf_storeFrom _ _ _ t ht)

theorem State.runs_at3 (c : Fin 3) (op : Nat) (rd ra rb : Fin 16) (s : State) : Res.Runs s (s.at3 c op rd ra rb) :=
  State.runs_issue fun t ht => State.memWf_startAtomic _ _ t ht

theorem State.memWf_hostServe {s : State} (t : Nat) (f : State → State) (h : s.memWf) (hf : ∀ u : State, u.memWf → (f u).memWf) : (s.hostServe t f).memWf := by
  rcases State.hostServe_cases t f s with ⟨-, e⟩ | ⟨-, -, e⟩ | ⟨-, -, e⟩ <;> rw [e]
  · exact h
  · exact State.memWf_of_mem s.mem_rouse h
  · exact hf _ (State.memWf_of_mem s.mem_rouse h)

theorem State.mem_of_takeRecord {k : Nat} {hop : Hop} {ok b : Bool} {f : Frame} {s t : State} (e : s.takeRecord k hop ok f = (b, t)) : t.mem = s.mem := by
  have h := State.mem_takeRecord k hop ok f s
  rwa [e] at h

theorem State.mem_of_handshake {k : Nat} {hop : Hop} {ok b : Bool} {f : Frame} {s t : State} (e : s.handshake k hop ok f = (b, t)) : t.mem = s.mem := by
  have h := State.mem_handshake k hop ok f s
  rwa [e] at h

theorem State.mem_of_hopTakes {hop : Hop} {ok b : Bool} {f : Frame} {s t : State} (e : s.hopTakes hop ok f = (b, t)) : t.mem = s.mem := by
  have h := State.mem_hopTakes hop ok f s
  rwa [e] at h

theorem State.memWf_cccServe {s : State} (t : Option (Fin 2)) (f : State → State) (h : s.memWf) (hf : ∀ u : State, u.memWf → (f u).memWf) : (s.cccServe t f).memWf := by
  cases t with
  | none => exact hf s h
  | some x => exact State.memWf_hostServe x.val f h hf

theorem State.mem_of_beamFetch {n pc : Nat} {w : Option Nat} {s t : State} (e : s.beamFetch n pc = (w, t)) : t.mem = s.mem := by
  have h := State.mem_beamFetch n pc s
  rwa [e] at h

theorem State.memWf_askWith (m : Acc) (a : Nat) (v : Word) {f : State → State} (hf : ∀ u : State, u.memWf → (f u).memWf) {s : State} (hm : s.memWf) :
    (State.askWith m a v f s).memWf := by
  unfold State.askWith
  split
  · exact State.memWf_of_mem ((State.mem_reply ..).trans (State.mem_denied ..)) hm
  · split
    · exact State.memWf_of_mem (State.mem_replyErr ..) hm
    · split
      · exact State.memWf_of_mem (State.mem_replyErr ..) hm
      · exact State.memWf_of_mem (State.mem_reply ..) (hf s hm)

theorem State.mem_blkRead (a n : Nat) (acc : Option (Nat × Nat) × State) : (State.blkRead a n acc).2.2.mem = acc.2.mem := by
  obtain ⟨e, s⟩ := acc
  cases e with
  | some e => rfl
  | none => exact State.mem_sramReadBytes ..

theorem BlkJob.mem_pixel (j : BlkJob) (sa da : Nat) (acc : Option (Nat × Nat) × State) : (j.pixel sa da acc).2.2.mem = acc.2.mem := by
  unfold BlkJob.pixel
  split
  · rfl
  · exact State.mem_blkRead ..
  · have h := State.mem_blkRead sa 1 acc
    generalize State.blkRead sa 1 acc = r at h
    obtain ⟨v, e, t⟩ := r
    cases e with
    | some e => exact h
    | none =>
      refine (?_ : State.mem _ = t.mem).trans h
      dsimp only
      split
      · rw [State.mem_errResponse, State.mem_eccRead]
      · exact State.mem_eccRead ..
  · exact (State.mem_blkRead ..).trans (State.mem_blkRead ..)
  · exact State.mem_blkRead ..

@[simp] theorem execSourceLost_runs (s : State) : Res.Runs s (execSourceLost s) := by
  simp only [execSourceLost]
  repeat' split
  all_goals exact Res.runs_keep (by simp)

@[simp] theorem execHoldoverEntry_runs (s : State) : Res.Runs s (execHoldoverEntry s) := by
  unfold execHoldoverEntry
  repeat' split
  all_goals exact Res.runs_keep (by simp)

@[simp] theorem execFsyncLoss_runs (s : State) : Res.Runs s (execFsyncLoss s) := by
  unfold execFsyncLoss
  repeat' split
  all_goals exact Res.runs_keep (by simp)

@[simp] theorem execPtpAnnounce_runs (domain : Nat) (a : Announce) (s : State) : Res.Runs s (execPtpAnnounce domain a s) := by
  unfold execPtpAnnounce
  repeat' split
  all_goals exact Res.runs_keep (by simp)

@[simp] theorem execPtpSync_runs (domain source : Nat) (t1 t2 : Int) (own : Nat) (rate : Int) (s : State) : Res.Runs s (execPtpSync domain source t1 t2 own rate s) := by
  unfold execPtpSync
  repeat' split
  all_goals exact Res.runs_keep (by simp)

@[simp] theorem execPtpDelayReq_runs (t3 : Int) (s : State) : Res.Runs s (execPtpDelayReq t3 s) := by
  unfold execPtpDelayReq
  repeat' split
  all_goals exact Res.runs_keep (by simp)

@[simp] theorem execPtpDelayResp_runs (domain source : Nat) (t4 : Int) (s : State) : Res.Runs s (execPtpDelayResp domain source t4 s) := by
  unfold execPtpDelayResp
  repeat' split
  all_goals exact Res.runs_keep (by simp)

@[simp] theorem execPtpLoss_runs (s : State) : Res.Runs s (execPtpLoss s) := by
  unfold execPtpLoss
  repeat' split
  all_goals exact Res.runs_keep (by simp)

@[simp] theorem execFsyncOutPulse_runs (sf : Nat) (s : State) : Res.Runs s (execFsyncOutPulse sf s) := by
  unfold execFsyncOutPulse
  repeat' split
  all_goals exact Res.runs_keep (by simp)

@[simp] theorem execFsyncOutEnd_runs (s : State) : Res.Runs s (execFsyncOutEnd s) := by
  unfold execFsyncOutEnd
  split
  · exact Res.runs_self _
  · exact Res.runs_keep (by simp)

@[simp] theorem execVotecut_runs (sf : Nat) (s : State) : Res.Runs s (execVotecut sf s) := by
  unfold execVotecut
  repeat' split
  all_goals exact Res.runs_keep (by simp)

@[simp] theorem execBeamMarkSend_runs (sf line : Nat) (s : State) : Res.Runs s (execBeamMarkSend sf line s) := by
  simp only [execBeamMarkSend]
  repeat' split
  all_goals exact Res.runs_keep (by simp -implicitDefEqProofs [State.mem_foldl])

@[simp] theorem execBeamMark_runs (hop : Hop) (ok : Bool) (f : Frame) (own : Int) (residence : Nat) (s0 : State) : Res.Runs s0 (execBeamMark hop ok f own residence s0) := by
  unfold execBeamMark
  split
  · exact Res.runs_self _
  · split
    next s e => exact Res.runs_keep (State.mem_of_takeRecord e)
    next s e =>
      have hs := State.mem_of_takeRecord e
      clear e
      extract_lets mk s1 s2
      split
      · exact Res.runs_keep hs
      · have h2 : s2.mem = s0.mem := by
          unfold s2
          rw [State.mem_ite, State.mem_useMark, ite_self]
          exact (State.mem_noteHops ..).trans hs
        split
        · exact Res.runs_keep h2
        · exact Res.runs_keep ((State.mem_foldl (fun t h => State.mem_sendRecord ..) _ _).trans h2)

@[simp] theorem execDelayProbeSend_runs (hop : Hop) (t1 : Int) (s : State) : Res.Runs s (execDelayProbeSend hop t1 s) := by
  unfold execDelayProbeSend
  split
  · exact Res.runs_self _
  · exact Res.runs_keep (by simp)

@[simp] theorem execProbe_runs (hop : Hop) (ok : Bool) (f : Frame) (t2 t3 : Int) (s : State) : Res.Runs s (execProbe hop ok f t2 t3 s) := by
  unfold execProbe
  split
  · exact Res.runs_self _
  · split
    next t e => exact Res.runs_keep (State.mem_of_takeRecord e)
    next t e => exact Res.runs_keep ((State.mem_sendRecord ..).trans (State.mem_of_takeRecord e))

@[simp] theorem execReply_runs (hop : Hop) (ok : Bool) (f : Frame) (t4 : Int) (s0 : State) : Res.Runs s0 (execReply hop ok f t4 s0) := by
  unfold execReply
  split
  · exact Res.runs_self _
  · split
    next s e => exact Res.runs_keep (State.mem_of_takeRecord e)
    next s e =>
      have hs := State.mem_of_takeRecord e
      clear e
      dsimp only
      repeat' split
      all_goals exact Res.runs_keep (by simpa using hs)

@[simp] theorem execVote_runs (hop : Hop) (ok : Bool) (f : Frame) (s0 : State) : Res.Runs s0 (execVote hop ok f s0) := by
  unfold execVote
  split
  · exact Res.runs_self _
  · split
    next s e => exact Res.runs_keep (State.mem_of_takeRecord e)
    next s e =>
      have hs := State.mem_of_takeRecord e
      clear e
      dsimp only
      repeat' split
      all_goals exact Res.runs_keep (by simpa using hs)

@[simp] theorem execVoteSend_runs (pos : BPos) (s : State) : Res.Runs s (execVoteSend pos s) := by
  unfold execVoteSend
  repeat' split
  all_goals exact Res.runs_keep (by simp)

@[simp] theorem execVoteDecision_runs (s : State) : Res.Runs s (execVoteDecision s) := by
  unfold execVoteDecision
  repeat' split
  all_goals exact Res.runs_keep (by simp)

@[simp] theorem execDecision_runs (hop : Hop) (ok : Bool) (f : Frame) (s0 : State) : Res.Runs s0 (execDecision hop ok f s0) := by
  unfold execDecision
  split
  · exact Res.runs_self _
  · split
    next s e => exact Res.runs_keep (State.mem_of_takeRecord e)
    next s e =>
      have hs := State.mem_of_takeRecord e
      clear e
      dsimp only
      repeat' split
      all_goals exact Res.runs_keep (by simpa using hs)

@[simp] theorem execPairready_runs (hop : Hop) (ok : Bool) (f : Frame) (s0 : State) : Res.Runs s0 (execPairready hop ok f s0) := by
  unfold execPairready
  split
  · exact Res.runs_self _
  · split
    next s e => exact Res.runs_keep (State.mem_of_takeRecord e)
    next s e =>
      have hs := State.mem_of_takeRecord e
      clear e
      dsimp only
      repeat' split
      all_goals exact Res.runs_keep (by simpa using hs)

@[simp] theorem execEccWriteback_runs (word : Nat) (s : State) : Res.Runs s (execEccWriteback word s) := by
  unfold execEccWriteback
  repeat' split
  all_goals exact Res.runs_keep (by simp)

@[simp] theorem execScrubWindow_runs (found : List (Nat × Upset)) (s : State) : Res.Runs s (execScrubWindow found s) := by
  unfold execScrubWindow
  split
  · extract_lets i s1 s2 spares s3
    have h1 : s1.mem = s.mem := by
      refine (State.mem_foldl (fun t e => ?_) _ _).trans (State.mem_grantWords ..)
      split
      · exact State.mem_upset ..
      · rfl
    have h2 : s2.mem = s1.mem := State.mem_foldl (fun t b => State.mem_scrubRead ..) _ _
    have h3 : s3.mem = s2.mem := by
      refine State.mem_foldl (fun t e => ?_) _ _
      split
      · split
        · rfl
        · split
          · rfl
          · exact State.mem_countCorrection ..
          · exact State.mem_foundUe ..
      · rfl
    exact Res.runs_keep ((h3.trans h2).trans h1)
  · exact Res.runs_self _

@[simp] theorem execCeWindowEnd_runs (s : State) : Res.Runs s (execCeWindowEnd s) := Res.runs_keep (by simp)

@[simp] theorem execMigrationStart_runs (s : State) : Res.Runs s (execMigrationStart s) := by
  unfold execMigrationStart
  repeat' split
  all_goals exact Res.runs_keep (by simp)

@[simp] theorem execMigrationCopy_runs (s : State) : Res.Runs s (execMigrationCopy s) := by
  unfold execMigrationCopy
  repeat' split
  all_goals exact Res.runs_keep (by simp)

@[simp] theorem execMigrationDone_runs (s : State) : Res.Runs s (execMigrationDone s) := by
  unfold execMigrationDone
  repeat' split
  all_goals exact Res.runs_next fun hm => by simp [State.memWf, State.memWf_takeOver, State.mem_setF, State.mem_setBit, State.mem_raise, State.mem_setUse, State.mem_setJob, hm]

@[simp] theorem execMarchTestDone_runs (reads : List MarchRead) (s : State) : Res.Runs s (execMarchTestDone reads s) := by
  simp only [execMarchTestDone]
  repeat' split
  all_goals exact Res.runs_next fun hm => by simp [State.memWf, State.memWf_zeroBank, State.mem_setF, State.mem_setBit, State.mem_raise, State.mem_setUse, State.mem_setJob, State.mem_startMigration, hm]

@[simp] theorem execStartupMarchDone_runs (reads : List (Fin 34 × MarchRead)) (s : State) : Res.Runs s (execStartupMarchDone reads s) := by
  unfold execStartupMarchDone
  split
  · exact Res.runs_self _
  · extract_lets bad s2 lo hi s3 banks spares
    have h3 : s.memWf → s3.memWf := fun hm => State.memWf_foldl (f := fun (t : State) q => (t.setBit (Reg.MRC_CECNTq q) 9 true).setUse q 2) (fun t q h => h) _ (State.memWf_zeroSram hm)
    clear_value s3
    have h4 : s.memWf → (State.mapFailed banks spares s3).1.memWf := fun hm => by rw [State.memWf, State.mem_mapFailed]; exact h3 hm
    generalize State.mapFailed banks spares s3 = r at h4
    obtain ⟨s4, ok⟩ := r
    have h5 : s.memWf → s4.releaseHeld.memWf := fun hm => State.memWf_releaseHeld s4 (h4 hm)
    dsimp only
    split
    · exact Res.runs_next h5
    · exact Res.runs_next fun hm => State.memWf_of_mem ((State.mem_emit ..).trans (State.mem_logEvent ..)) (h5 hm)

@[simp] theorem execUnitSend_runs (port : Fin 32) (s : State) : Res.Runs s (execUnitSend port s) := by
  simp only [execUnitSend]
  repeat' split
  all_goals exact Res.runs_keep (by simp)

@[simp] theorem execSegmentFetch_runs (pair : Fin 16) (s : State) : Res.Runs s (execSegmentFetch pair s) := by
  simp only [execSegmentFetch]
  repeat' split
  all_goals exact Res.runs_keep (by simp)

@[simp] theorem execSegmentLanded_runs (pair : Fin 16) (s : State) : Res.Runs s (execSegmentLanded pair s) := by
  simp only [execSegmentLanded]
  repeat' split
  all_goals exact Res.runs_keep (by simp)

@[simp] theorem execPnlCommandSend_runs (port : Fin 32) (s : State) : Res.Runs s (execPnlCommandSend port s) := by
  simp only [execPnlCommandSend]
  repeat' split
  all_goals exact Res.runs_keep (by simp)

@[simp] theorem execGridPoint_runs (s : State) : Res.Runs s (execGridPoint s) := by
  unfold execGridPoint
  repeat' split
  all_goals exact Res.runs_keep (by simp)

@[simp] theorem execScanRowStep_runs (group : Fin 8) (s : State) : Res.Runs s (execScanRowStep group s) := by
  unfold execScanRowStep
  repeat' split
  all_goals exact Res.runs_keep (by simp)

@[simp] theorem execSwapCommand_runs (s : State) : Res.Runs s (execSwapCommand s) := by
  simp only [execSwapCommand]
  repeat' split
  all_goals exact Res.runs_keep (by simp -implicitDefEqProofs [State.mem_foldl])

@[simp] theorem execStoreExchange_runs (ripe : Bool) (s : State) : Res.Runs s (execStoreExchange ripe s) := by
  unfold execStoreExchange
  repeat' split
  all_goals exact Res.runs_keep (by simp)

@[simp] theorem execScanoutPrefetch_runs (port : Fin 32) (row plane : Nat) (s : State) : Res.Runs s (execScanoutPrefetch port row plane s) := by
  simp only [execScanoutPrefetch]
  repeat' split
  all_goals exact Res.runs_keep (by simp)

@[simp] theorem execPlaneSlot_runs (port : Fin 32) (s : State) : Res.Runs s (execPlaneSlot port s) := by
  simp only [execPlaneSlot]
  repeat' split
  all_goals exact Res.runs_keep (by simp)

@[simp] theorem execBlankStart_runs (s : State) : Res.Runs s (execBlankStart s) := by
  unfold execBlankStart
  repeat' split
  all_goals exact Res.runs_keep (by simp)

@[simp] theorem execBlankEnd_runs (s : State) : Res.Runs s (execBlankEnd s) := by
  unfold execBlankEnd
  repeat' split
  all_goals exact Res.runs_keep (by simp)

@[simp] theorem execRasterWrite_runs (s : State) : Res.Runs s (execRasterWrite s) := by
  unfold execRasterWrite
  repeat' split
  all_goals exact Res.runs_next fun hm => by simp [State.memWf, State.memWf_squash, hm]

@[simp] theorem execLineStart_runs (s : State) : Res.Runs s (execLineStart s) := by
  simp only [execLineStart]
  repeat' split
  all_goals exact Res.runs_next fun hm => by simp [State.memWf, State.memWf_applyLine, State.mem_openFrame, hm]

@[simp] theorem execLineComposed_runs (s : State) : Res.Runs s (execLineComposed s) := by
  unfold execLineComposed
  split
  · exact Res.runs_self _
  · split
    · exact Res.runs_self _
    · rename_i l _
      split
      · exact Res.runs_self _
      · rename_i q _
        extract_lets view
        generalize view.lineData l.frame l.sf l.line = d
        obtain ⟨bs, scene, fx⟩ := d
        have h2 (g : List (Nat × Nat)) : (g.foldl (fun (t : State) e =>
            if e.1 < 12 then t.raiseOnce l.frame e.1 e.2 (stLAYE e.1) (wd e.1) else t.raiseOnce l.frame 12 e.2 stQDL 0) (s.applyTouch fx)).mem = s.mem := by
          refine (State.mem_foldl (fun t e => ?_) _ _).trans (State.mem_applyTouch ..)
          split <;> exact State.mem_raiseOnce ..
        refine Res.runs_next fun hm => State.memWf_of_mem (State.mem_mapLines ..) ?_
        have h3 := State.memWf_writeRing view.laneOf l.addr bs _ (State.memWf_of_mem (h2 fx.flags.eraseDups) hm)
        rw [State.memWf, State.mem_ite, State.mem_raiseOnce, ite_self]
        exact h3

@[simp] theorem execLateFenceDeadline_runs (slot : Fin 12) (s : State) : Res.Runs s (execLateFenceDeadline slot s) := by
  simp only [execLateFenceDeadline]
  repeat' split
  all_goals exact Res.runs_keep (by simp)

@[simp] theorem execLaneCheckError_runs (lane : Fin 4) (s : State) : Res.Runs s (execLaneCheckError lane s) := by
  simp only [execLaneCheckError]
  repeat' split
  all_goals exact Res.runs_next fun hm => by simp [State.memWf, State.memWf_squash, State.mem_count, State.mem_retireLane, hm]

@[simp] theorem execLaneErrorWindowEnd_runs (s : State) : Res.Runs s (execLaneErrorWindowEnd s) := by
  unfold execLaneErrorWindowEnd
  split
  · exact Res.runs_self _
  · exact Res.runs_keep (by simp)

@[simp] theorem execEngineFrameEntry_runs (e : Fin 8) (s : State) : Res.Runs s (execEngineFrameEntry e s) := by
  unfold execEngineFrameEntry
  repeat' split
  all_goals exact Res.runs_keep (by simp)

@[simp] theorem execEngineOverrun_runs (e : Fin 8) (s : State) : Res.Runs s (execEngineOverrun e s) := by
  simp only [execEngineOverrun]
  repeat' split
  all_goals exact Res.runs_keep (by simp)

@[simp] theorem execBeamWord_runs (e : Fin 8) (u : Upset) (s : State) : Res.Runs s (execBeamWord e u s) := by
  unfold execBeamWord
  split
  · exact Res.runs_self _
  · dsimp only
    split
    · exact Res.runs_self _
    · split
      · exact Res.runs_keep (State.mem_engFault ..)
      · split
        next w t e => exact Res.runs_keep ((State.mem_engWait ..).trans ((State.mem_of_beamFetch e).trans (State.mem_upset ..)))
        next t e => exact Res.runs_keep ((State.mem_engFault ..).trans ((State.mem_of_beamFetch e).trans (State.mem_upset ..)))

@[simp] theorem execBeamWordV1_runs (e : Fin 8) (u : Upset) (s : State) : Res.Runs s (execBeamWordV1 e u s) := by
  unfold execBeamWordV1
  split
  · exact Res.runs_self _
  · dsimp only
    split
    · exact Res.runs_self _
    · split
      · exact Res.runs_keep (State.mem_engFault ..)
      · split
        next w t e => exact Res.runs_keep ((State.mem_v1Step ..).trans ((State.mem_of_beamFetch e).trans (State.mem_upset ..)))
        next t e => exact Res.runs_keep ((State.mem_engFault ..).trans ((State.mem_of_beamFetch e).trans (State.mem_upset ..)))

@[simp] theorem execRealtimeWaitEnd_runs (e : Fin 8) (pos : BPos) (s0 : State) : Res.Runs s0 (execRealtimeWaitEnd e pos s0) := by
  simp only [execRealtimeWaitEnd]
  repeat' split
  all_goals exact Res.runs_keep (by simp)

@[simp] theorem execSyncWaitEnd_runs (e : Fin 8) (pos : BPos) (s0 : State) : Res.Runs s0 (execSyncWaitEnd e pos s0) := by
  simp only [execSyncWaitEnd]
  repeat' split
  all_goals exact Res.runs_keep (by simp)

@[simp] theorem execLdReturn_runs (e : Fin 8) (s : State) : Res.Runs s (execLdReturn e s) := by
  simp only [execLdReturn]
  repeat' split
  all_goals exact Res.runs_keep (by simp)

@[simp] theorem execQueueStallEnd_runs (e : Fin 8) (s : State) : Res.Runs s (execQueueStallEnd e s) := by
  unfold execQueueStallEnd
  repeat' split
  all_goals exact Res.runs_keep (by simp)

@[simp] theorem execBeamStoreScrub_runs (u : Upset) (s : State) : Res.Runs s (execBeamStoreScrub u s) := by
  simp only [execBeamStoreScrub]
  repeat' split
  all_goals exact Res.runs_keep (by simp)

@[simp] theorem execVoiceFetch_runs (v : Fin 64) (u : Upset) (s : State) : Res.Runs s (execVoiceFetch v u s) := by
  simp only [execVoiceFetch]
  repeat' split
  all_goals exact Res.runs_keep (by simp)

@[simp] theorem execZcTimeout_runs (o : Fin 48) (i : Fin 128) (s : State) : Res.Runs s (execZcTimeout o i s) := by
  unfold execZcTimeout
  split
  · exact Res.runs_self _
  · exact Res.runs_keep (by simp)

@[simp] theorem execObjectUpdate_runs (s : State) : Res.Runs s (execObjectUpdate s) := by
  unfold execObjectUpdate
  split
  · exact Res.runs_self _
  · dsimp only
    split
    · exact Res.runs_self _
    · refine Res.runs_keep ((State.mem_foldl (fun t k => State.mem_updateObject ..) _ _).trans ?_)
      rw [State.mem_ite, State.mem_raise0, ite_self, State.mem_setPos]

@[simp] theorem execSoundBlock_runs (s : State) : Res.Runs s (execSoundBlock s) := by
  simp only [execSoundBlock]
  repeat' split
  all_goals exact Res.runs_keep (by simp)

@[simp] theorem execBeamSample_runs (tdm : List (List Nat)) (s0 : State) : Res.Runs s0 (execBeamSample tdm s0) := by
  simp only [execBeamSample]
  repeat' split
  all_goals exact Res.runs_keep (by simp)

@[simp] theorem execSoundSamples_runs (hop : Hop) (ok : Bool) (f : Frame) (s : State) : Res.Runs s (execSoundSamples hop ok f s) := by
  simp only [execSoundSamples]
  repeat' split
  all_goals exact Res.runs_next fun hm => by simp [State.memWf, State.memWf_deliverSound, State.mem_arrives, hm]

@[simp] theorem execAsrcLock_runs (conv : Fin 20) (s : State) : Res.Runs s (execAsrcLock conv s) := by
  unfold execAsrcLock
  repeat' split
  all_goals exact Res.runs_keep (by simp)

@[simp] theorem execAsrcUnlock_runs (conv : Fin 20) (s : State) : Res.Runs s (execAsrcUnlock conv s) := by
  unfold execAsrcUnlock
  split
  · exact Res.runs_self _
  · exact Res.runs_keep (by simp)

@[simp] theorem execTdmFsEdge_runs (port : Fin 4) (count : Nat) (s : State) : Res.Runs s (execTdmFsEdge port count s) := by
  unfold execTdmFsEdge
  repeat' split
  all_goals exact Res.runs_keep (by simp)

@[simp] theorem execTdmLost_runs (port : Fin 4) (s : State) : Res.Runs s (execTdmLost port s) := by
  unfold execTdmLost
  split
  · exact Res.runs_self _
  · split
    · refine Res.runs_keep (State.mem_foldl (fun t c => ?_) _ _)
      split
      · exact State.mem_unlock ..
      · rfl
    · exact Res.runs_self _

@[simp] theorem execCensusSend_runs (s : State) : Res.Runs s (execCensusSend s) := by
  unfold execCensusSend
  split
  · exact Res.runs_self _
  · exact Res.runs_keep (by simp)

@[simp] theorem execLaneBlockLock_runs (hop : Hop) (lane : Fin 4) (s : State) : Res.Runs s (execLaneBlockLock hop lane s) := by
  unfold execLaneBlockLock
  repeat' split
  all_goals exact Res.runs_keep (by simp)

@[simp] theorem execTrainingTimeout_runs (hop : Hop) (s : State) : Res.Runs s (execTrainingTimeout hop s) := by
  unfold execTrainingTimeout
  repeat' split
  all_goals exact Res.runs_keep (by simp)

@[simp] theorem execTrainingVersionAlternate_runs (hop : Hop) (s : State) : Res.Runs s (execTrainingVersionAlternate hop s) := by
  unfold execTrainingVersionAlternate
  repeat' split
  all_goals exact Res.runs_keep (by simp)

@[simp] theorem execAlignDone_runs (hop : Hop) (skewed : List (Fin 4)) (s : State) : Res.Runs s (execAlignDone hop skewed s) := by
  simp only [execAlignDone]
  repeat' split
  all_goals exact Res.runs_keep (by simp)

@[simp] theorem execHello_runs (hop : Hop) (ok : Bool) (f : Frame) (s0 : State) : Res.Runs s0 (execHello hop ok f s0) := by
  unfold execHello
  split
  · exact Res.runs_self _
  · split
    · exact Res.runs_self _
    · split
      next s e => exact Res.runs_keep (State.mem_of_handshake e)
      next s e =>
        have hs := State.mem_of_handshake e
        clear e
        extract_lets record x v1 ver common noVersion feat r s1 s2 s3
        split
        · exact Res.runs_keep ((State.mem_downHop ..).trans hs)
        · have h2 : s2.mem = s0.mem := (State.mem_setHop ..).trans ((State.mem_rejoin ..).trans ((State.mem_setPeer ..).trans hs))
          refine Res.runs_keep ?_
          rw [State.mem_ite, State.mem_enterKey, ite_self]
          unfold s3
          rw [State.mem_ite, State.mem_setReg, ite_self]
          exact h2

@[simp] theorem execKeyx_runs (hop : Hop) (ok : Bool) (f : Frame) (sigOk : Bool) (peer : PairView) (s0 : State) : Res.Runs s0 (execKeyx hop ok f sigOk peer s0) := by
  unfold execKeyx
  split
  · exact Res.runs_self _
  · dsimp only
    split
    · exact Res.runs_self _
    · generalize hr : (if s0.hopUp hop = true then _ else _ : Bool × State) = r
      have hs : r.2.mem = s0.mem := by
        rw [← hr]
        split
        · split
          · split
            next t e =>
              split
              · exact State.mem_of_hopTakes e
              · exact (State.mem_dropFrame ..).trans (State.mem_of_hopTakes e)
            next => exact State.mem_hopTakes ..
          · rfl
        · exact State.mem_handshake ..
      clear hr
      obtain ⟨took, s⟩ := r
      dsimp only at hs ⊢
      split
      · exact Res.runs_keep hs
      · split
        · exact Res.runs_keep ((State.mem_keyFail ..).trans hs)
        · split
          · exact Res.runs_keep ((State.mem_comeUp ..).trans ((State.mem_installKeys ..).trans hs))
          · exact Res.runs_keep ((State.mem_setHop ..).trans ((State.mem_installKeys ..).trans ((State.mem_startRekey ..).trans hs)))

@[simp] theorem execKeyRetry_runs (hop : Hop) (s : State) : Res.Runs s (execKeyRetry hop s) := by
  unfold execKeyRetry
  split
  · exact Res.runs_self _
  · exact Res.runs_keep (by simp)

@[simp] theorem execLcbSend_runs (hop : Hop) (sent : List (List (BitVec 66))) (s : State) : Res.Runs s (execLcbSend hop sent s) := by
  unfold execLcbSend
  repeat' split
  all_goals exact Res.runs_keep (by simp)

@[simp] theorem execReplayTimeout_runs (hop : Hop) (s : State) : Res.Runs s (execReplayTimeout hop s) := by
  unfold execReplayTimeout
  repeat' split
  all_goals exact Res.runs_keep (by simp)

@[simp] theorem execLcb_runs (hop : Hop) (block : BitVec 64) (blocks : List (BitVec 66)) (s : State) : Res.Runs s (execLcb hop block blocks s) := by
  unfold execLcb
  split
  · exact Res.runs_self _
  · extract_lets lane rf s1 s2 s3 x ring s4 y ack t s5
    split
    · exact Res.runs_self _
    · have h1 : s1.mem = s.mem := by unfold s1; rw [State.mem_ite, State.mem_laneError, ite_self]
      clear_value s1
      have h2 : s2.mem = s.mem := by unfold s2; rw [State.mem_ite, State.mem_setHopState, ite_self, h1]
      clear_value s2
      have h3 : s3.mem = s.mem := by unfold s3; rw [State.mem_ite, State.mem_degrade, ite_self, h2]
      clear_value s3
      have h4 : s4.mem = s.mem := (State.mem_setHop ..).trans h3
      clear_value s4
      have ht : t.mem = s.mem := (State.mem_setHop ..).trans h4
      clear_value t
      have h5 : s5.mem = s.mem := by
        unfold s5
        rw [State.mem_ite, State.mem_ite, State.mem_enterKey, ite_self, ht, h4, ite_self]
      clear_value s5
      split
      · refine Res.runs_keep ((State.mem_drainAll ..).trans ?_)
        rw [State.mem_ite, State.mem_resend, ite_self, State.mem_ite, State.mem_acknowledge, ite_self, h5]
      · exact Res.runs_keep h5

@[simp] theorem execLcbMiss_runs (hop : Hop) (s : State) : Res.Runs s (execLcbMiss hop s) := by
  unfold execLcbMiss
  repeat' split
  all_goals exact Res.runs_keep (by simp)

@[simp] theorem execPirouetteConfirm_runs (port : Fin 2) (s : State) : Res.Runs s (execPirouetteConfirm port s) := by
  simp only [execPirouetteConfirm]
  repeat' split
  all_goals exact Res.runs_keep (by simp)

@[simp] theorem execTurnaround_runs (port : Fin 2) (s : State) : Res.Runs s (execTurnaround port s) := by
  unfold execTurnaround
  split
  · exact Res.runs_self _
  · split
    · exact Res.runs_self _
    · refine Res.runs_keep (State.mem_foldl (fun t f => ?_) _ _)
      split
      · rfl
      · exact State.mem_put ..

@[simp] theorem execRingstate_runs (hop : Hop) (ok : Bool) (f : Frame) (s : State) : Res.Runs s (execRingstate hop ok f s) := by
  simp only [execRingstate]
  repeat' split
  all_goals exact Res.runs_keep (by simp)

@[simp] theorem execLaneLost_runs (hop : Hop) (lane : Fin 4) (s : State) : Res.Runs s (execLaneLost hop lane s) := by
  simp only [execLaneLost]
  repeat' split
  all_goals exact Res.runs_keep (by simp)

@[simp] theorem execLaneCrcWindowEnd_runs (port : Fin 2) (s : State) : Res.Runs s (execLaneCrcWindowEnd port s) := by
  unfold execLaneCrcWindowEnd
  split
  · exact Res.runs_self _
  · extract_lets one
    have h1 (t : State) (h : Hop) : (one t h).mem = t.mem :=
      (State.mem_laneWindow ..).trans (State.mem_foldl (fun u l => (State.mem_akRaise ..).trans ((State.mem_setLane ..).trans (State.mem_setLane ..))) _ _)
    exact Res.runs_keep ((h1 _ _).trans (h1 _ _))

@[simp] theorem execCensus_runs (hop : Hop) (ok : Bool) (f : Frame) (s : State) : Res.Runs s (execCensus hop ok f s) := by
  unfold execCensus
  split
  · exact Res.runs_self _
  · split
    · exact Res.runs_self _
    · split
      next t e => exact Res.runs_keep (State.mem_of_hopTakes e)
      next t e =>
        have ht := State.mem_of_hopTakes e
        clear e
        split
        · exact Res.runs_keep ((State.mem_dropFrame ..).trans ht)
        · dsimp only
          split
          · split
            · exact Res.runs_keep ((State.mem_put ..).trans ht)
            · split
              · exact Res.runs_keep ht
              · exact Res.runs_keep ((State.mem_inject ..).trans ((State.mem_adoptCensus ..).trans ht))
          · have hu : (t.acceptRing f).2.mem = s.mem := (State.mem_acceptRing ..).trans ht
            split
            · exact Res.runs_keep ((State.mem_passRing ..).trans hu)
            · split
              · exact Res.runs_keep ((State.mem_passRing ..).trans ((State.mem_adoptCensus ..).trans hu))
              · exact Res.runs_keep ((State.mem_passRing ..).trans ((State.mem_appendCensus ..).trans hu))

@[simp] theorem execSceneWrite_runs (hop : Hop) (ok : Bool) (f : Frame) (s : State) : Res.Runs s (execSceneWrite hop ok f s) := by
  unfold execSceneWrite
  repeat' split
  all_goals exact Res.runs_next fun hm => by simp [State.memWf, State.memWf_sceneFrame, hm]

@[simp] theorem execSceneFill_runs (hop : Hop) (ok : Bool) (f : Frame) (s : State) : Res.Runs s (execSceneFill hop ok f s) := by
  unfold execSceneFill
  repeat' split
  all_goals exact Res.runs_next fun hm => by simp [State.memWf, State.memWf_sceneFrame, hm]

@[simp] theorem execPlaneSegment_runs (hop : Hop) (ok : Bool) (f : Frame) (s : State) : Res.Runs s (execPlaneSegment hop ok f s) := by
  simp only [execPlaneSegment]
  repeat' split
  all_goals exact Res.runs_next fun hm => by simp [State.memWf, State.memWf_deliverPlane, State.mem_arrives, hm]

@[simp] theorem execBlkJobStart_runs (s : State) : Res.Runs s (execBlkJobStart s) := by
  unfold execBlkJobStart
  repeat' split
  all_goals exact Res.runs_next fun hm => by simp [State.memWf, State.memWf_blkComplete, State.mem_setReg, State.mem_setF, State.mem_blkRaise, State.mem_setBlk, State.mem_blkClip, hm]

@[simp] theorem execBlkBurst_runs (s : State) : Res.Runs s (execBlkBurst s) := by
  unfold execBlkBurst
  split
  · exact Res.runs_self _
  · split
    · exact Res.runs_self _
    · rename_i j hj
      split
      · exact Res.runs_self _
      · generalize j.burst s.blk.row s.blk.px = b
        obtain ⟨y, cols⟩ := b
        dsimp only
        generalize hR : cols.foldl _ (([], none, s) : List (Nat × Option Nat) × Option (Nat × Nat) × State) = read
        have hread : read.2.2.mem = s.mem := by
          rw [← hR]
          refine foldl_keeps (fun acc : List (Nat × Option Nat) × Option (Nat × Nat) × State => acc.2.2.mem) (fun acc i => ?_) cols ([], none, s)
          exact BlkJob.mem_pixel ..
        clear hR
        obtain ⟨vs, e, t⟩ := read
        cases e with
        | some e => exact Res.runs_keep hread
        | none =>
          refine Res.runs_next fun hm => ?_
          have hw : t.memWf := State.memWf_of_mem hread hm
          generalize hW : vs.foldl _ (none, t) = W
          have hW : W.2.memWf := by
            rw [← hW]
            refine foldl_preserves (fun acc : Option (Nat × Nat) × State => acc.2.memWf) (fun acc p h => ?_) vs (none, t) hw
            split
            · split
              · exact State.memWf_sramWriteBytes _ _ _ _ h
              · exact h
            · exact h
          split
          · exact hW
          · exact hW

@[simp] theorem execBlkDeadEnd_runs (s : State) : Res.Runs s (execBlkDeadEnd s) := by
  unfold execBlkDeadEnd
  split
  · exact Res.runs_self _
  · exact Res.runs_keep (by simp)

@[simp] theorem execBlkRowDone_runs (s : State) : Res.Runs s (execBlkRowDone s) := by
  simp only [execBlkRowDone]
  repeat' split
  all_goals exact Res.runs_next fun hm => by simp [State.memWf, State.memWf_blkComplete, State.mem_setF, State.mem_arrive, State.mem_blkRaise, hm]

@[simp] theorem execBlkErrorStop_runs (s : State) : Res.Runs s (execBlkErrorStop s) := by
  unfold execBlkErrorStop
  repeat' split
  all_goals exact Res.runs_keep (by simp)

@[simp] theorem execCoalescerTimeout_runs (k : Fin 16) (s : State) : Res.Runs s (execCoalescerTimeout k s) := by
  simp only [execCoalescerTimeout]
  repeat' split
  all_goals exact Res.runs_keep (by simp)

@[simp] theorem execWakeSlotEvent_runs (k : Fin 32) (s : State) : Res.Runs s (execWakeSlotEvent k s) := by
  unfold execWakeSlotEvent
  split
  · exact Res.runs_self _
  · exact Res.runs_keep (by simp)

@[simp] theorem execTimerTick_runs (n : Fin 16) (s : State) : Res.Runs s (execTimerTick n s) := by
  unfold execTimerTick
  split
  · exact Res.runs_self _
  · exact Res.runs_keep (by simp)

@[simp] theorem execTimerMasterEvent_runs (n : Fin 16) (s : State) : Res.Runs s (execTimerMasterEvent n s) := by
  unfold execTimerMasterEvent
  repeat' split
  all_goals exact Res.runs_keep (by simp)

@[simp] theorem execTimerCapture_runs (n : Fin 16) (s : State) : Res.Runs s (execTimerCapture n s) := by
  unfold execTimerCapture
  split
  · exact Res.runs_self _
  · exact Res.runs_keep (by simp)

@[simp] theorem execWdgKeyTimeout_runs (w : Fin 3) (s : State) : Res.Runs s (execWdgKeyTimeout w s) := by
  unfold execWdgKeyTimeout
  repeat' split
  all_goals exact Res.runs_keep (by simp)

@[simp] theorem execWdgWarning_runs (w : Fin 3) (s : State) : Res.Runs s (execWdgWarning w s) := by
  simp only [execWdgWarning]
  repeat' split
  all_goals exact Res.runs_keep (by simp)

@[simp] theorem execDescriptorFetch_runs (c : Fin 32) (s : State) : Res.Runs s (execDescriptorFetch c s) := by
  unfold execDescriptorFetch
  repeat' split
  all_goals exact Res.runs_keep (by simp)

@[simp] theorem execDescriptorComplete_runs (c : Fin 32) (s : State) : Res.Runs s (execDescriptorComplete c s) := by
  simp only [execDescriptorComplete]
  repeat' split
  all_goals exact Res.runs_next fun hm => by simp [State.memWf, State.memWf_reelActs, State.mem_unserve, State.mem_stopNow, State.mem_beginFetch, hm]

@[simp] theorem execPowerOnReset_runs (s : State) : Res.Runs s (execPowerOnReset s) := by
  exact Res.runs_next fun _ => State.memWf_reset

@[simp] theorem execResetN_runs (s : State) : Res.Runs s (execResetN s) := by
  exact Res.runs_next fun hm => by simp [State.memWf, State.memWf_chipReset, hm]

@[simp] theorem execSupplyOutOfRange_runs (s : State) : Res.Runs s (execSupplyOutOfRange s) := by
  exact Res.runs_next fun hm => by simp [State.memWf, State.memWf_chipReset, hm]

@[simp] theorem execResetRelease_runs (s : State) : Res.Runs s (execResetRelease s) := Res.runs_keep (by simp)

@[simp] theorem execXo32Start_runs (s : State) : Res.Runs s (execXo32Start s) := Res.runs_keep (by simp)

@[simp] theorem execPllFLoss_runs (s : State) : Res.Runs s (execPllFLoss s) := by
  unfold execPllFLoss
  repeat' split
  all_goals exact Res.runs_next fun hm => by simp [State.memWf, State.memWf_chipReset, State.mem_setBit, State.mem_clkRaise, hm]

@[simp] theorem execClockResume_runs (s : State) : Res.Runs s (execClockResume s) := Res.runs_keep (by simp)

@[simp] theorem execBeamPllLoss_runs (s : State) : Res.Runs s (execBeamPllLoss s) := Res.runs_keep (by simp)

@[simp] theorem execBeamPllRelock_runs (s : State) : Res.Runs s (execBeamPllRelock s) := Res.runs_keep (by simp)

@[simp] theorem execRef25Loss_runs (s : State) : Res.Runs s (execRef25Loss s) := Res.runs_keep (by simp)

@[simp] theorem execRef25Return_runs (s : State) : Res.Runs s (execRef25Return s) := Res.runs_keep (by simp)

@[simp] theorem execAudioPllLoss_runs (s : State) : Res.Runs s (execAudioPllLoss s) := Res.runs_keep (by simp)

@[simp] theorem execAudioPllRelock_runs (s : State) : Res.Runs s (execAudioPllRelock s) := Res.runs_keep (by simp)

@[simp] theorem execWakeStart_runs (s : State) : Res.Runs s (execWakeStart s) := by
  unfold execWakeStart
  split
  · exact Res.runs_self _
  · exact Res.runs_keep (by simp)

@[simp] theorem execWakePin_runs (s : State) : Res.Runs s (execWakePin s) := Res.runs_keep (by simp)

@[simp] theorem execWdgExpiry_runs (w : Fin 3) (s : State) : Res.Runs s (execWdgExpiry w s) := by
  unfold execWdgExpiry
  repeat' split
  all_goals exact Res.runs_next fun hm => by simp [State.memWf, State.memWf_managementReset, State.mem_setReg, State.mem_setBit, State.mem_arrive, State.mem_logEvent, State.mem_holdCore, hm]

@[simp] theorem execLineConfirm_runs (s : State) : Res.Runs s (execLineConfirm s) := by
  unfold execLineConfirm
  repeat' split
  all_goals exact Res.runs_next fun hm => by simp [State.memWf, State.memWf_foldAll, State.mem_mapLines, State.mem_monPump, State.mem_freeLog, State.mem_announceReady, hm]

@[simp] theorem execSignatureDecided_runs (region : Fin 16) (s : State) : Res.Runs s (execSignatureDecided region s) := by
  simp only [execSignatureDecided]
  repeat' split
  all_goals exact Res.runs_next fun hm => by simp [State.memWf, State.memWf_substitute, State.mem_setF, State.mem_setBit, State.mem_putCheck, State.mem_takePavaneRequest, State.mem_monPump, hm]

@[simp] theorem execSubstitutionDone_runs (region : Fin 16) (s : State) : Res.Runs s (execSubstitutionDone region s) := by
  simp only [execSubstitutionDone]
  repeat' split
  all_goals exact Res.runs_keep (by simp)

@[simp] theorem execSwap_runs (line : Nat) (s0 : State) : Res.Runs s0 (execSwap line s0) := by
  simp only [execSwap]
  repeat' split
  all_goals exact Res.runs_keep (by simp)

@[simp] theorem execFrameHold_runs (lane : Fin 4) (s0 : State) : Res.Runs s0 (execFrameHold lane s0) := by
  simp only [execFrameHold]
  repeat' split
  all_goals exact Res.runs_keep (by simp)

@[simp] theorem execCommitGroupApply_runs (g : Fin 10) (s : State) : Res.Runs s (execCommitGroupApply g s) := by
  unfold execCommitGroupApply
  split
  · exact Res.runs_self _
  · exact Res.runs_keep (by simp)

@[simp] theorem execCommitMark_runs (s0 : State) : Res.Runs s0 (execCommitMark s0) := by
  unfold execCommitMark
  split
  · exact Res.runs_self _
  · split
    · exact Res.runs_self _
    · extract_lets p s s1
      have h1 : s1.mem = s0.mem := by
        refine (State.mem_foldl (fun t g => ?_) _ _).trans (State.mem_beamAt ..)
        rw [State.mem_ite, State.mem_latchGroup, ite_self]
      clear_value s1
      exact Res.runs_keep h1

@[simp] theorem execBeamStop_runs (s : State) : Res.Runs s (execBeamStop s) := by
  unfold execBeamStop
  repeat' split
  all_goals exact Res.runs_keep (by simp)

@[simp] theorem execFrameStart_runs (sf : Fin 4) (s : State) : Res.Runs s (execFrameStart sf s) := by
  unfold execFrameStart
  repeat' split
  all_goals exact Res.runs_keep (by simp)

@[simp] theorem execBeamStep_runs (pos : BPos) (s : State) : Res.Runs s (execBeamStep pos s) := by
  unfold execBeamStep
  repeat' split
  all_goals exact Res.runs_keep (by simp)

@[simp] theorem execFsyncEdge_runs (rising : Bool) (own : Nat) (rate : Int) (s : State) : Res.Runs s (execFsyncEdge rising own rate s) := by
  unfold execFsyncEdge
  split
  · exact Res.runs_self _
  · exact Res.runs_keep (by simp)

@[simp] theorem execBeamMatch_runs (n : Fin 4) (sf : Nat) (s : State) : Res.Runs s (execBeamMatch n sf s) := by
  simp only [execBeamMatch]
  repeat' split
  all_goals exact Res.runs_keep (by simp)

@[simp] theorem execTriggerFire_runs (n : Fin 32) (sf rep : Nat) (s : State) : Res.Runs s (execTriggerFire n sf rep s) := by
  simp only [execTriggerFire]
  repeat' split
  all_goals exact Res.runs_keep (by simp)

@[simp] theorem execTimedWrite_runs (pos : BPos) (s0 : State) : Res.Runs s0 (execTimedWrite pos s0) := by
  simp only [execTimedWrite]
  repeat' split
  all_goals exact Res.runs_keep (by simp)

@[simp] theorem execFlashRead_runs (addr : Nat) (data : List Byte) (s : State) : Res.Runs s (execFlashRead addr data s) := by
  unfold execFlashRead
  split
  · exact Res.runs_self _
  · exact Res.runs_keep (by simp)

@[simp] theorem execVerifyDone_runs (sigOk : Bool) (badHash : Option (Fin 64)) (s : State) : Res.Runs s (execVerifyDone sigOk badHash s) := by
  unfold execVerifyDone
  split
  · rename_i src _ _
    have hc : (s.checkImage src sigOk (badHash.map fun x => x.val)).2.mem = s.mem := by rw [State.mem_checkImage]
    generalize s.checkImage src sigOk (badHash.map fun x => x.val) = r at hc
    obtain ⟨⟨c, i, a⟩, t⟩ := r
    show Res.Runs s (ite _ _ _)
    split
    · exact Res.runs_keep ((State.mem_verified ..).trans hc)
    · generalize t.checkRules = d
      obtain ⟨c2, a2⟩ := d
      show Res.Runs s (ite _ _ _)
      split
      · exact Res.runs_keep ((State.mem_verified ..).trans hc)
      · exact Res.runs_keep ((State.mem_verified ..).trans ((State.mem_imagePassed ..).trans hc))
  · generalize s.checkRules = d
    obtain ⟨c, a⟩ := d
    exact Res.runs_keep (State.mem_verified ..)
  · exact Res.runs_self _

@[simp] theorem execStructureSetSwap_runs (peer : PairView) (s : State) : Res.Runs s (execStructureSetSwap peer s) := by
  simp only [execStructureSetSwap]
  repeat' split
  all_goals exact Res.runs_keep (by simp)

@[simp] theorem execUpdateChunk_runs (hop : Hop) (ok : Bool) (f : Frame) (s : State) : Res.Runs s (execUpdateChunk hop ok f s) := by
  simp only [execUpdateChunk]
  repeat' split
  all_goals exact Res.runs_next fun hm => by simp [State.memWf, State.memWf_deliverUpdate, State.mem_arrives, hm]

@[simp] theorem execLoadDone_runs (hashOk sigOk : Bool) (s : State) : Res.Runs s (execLoadDone hashOk sigOk s) := by
  simp only [execLoadDone]
  repeat' split
  all_goals exact Res.runs_next fun hm => by simp [State.memWf, State.memWf_putSection, State.mem_setReg, State.mem_raise0, State.mem_secRaise, State.mem_setEngine, hm]

@[simp] theorem execTempConversion_runs (temps : List (BitVec 16)) (s : State) : Res.Runs s (execTempConversion temps s) := by
  unfold execTempConversion
  extract_lets t s1 top s2 thr
  have h1 : s1.mem = s.mem := State.mem_foldl (fun u e => State.mem_setReg ..) _ _
  have h2 : s2.mem = s.mem := (State.mem_setReg ..).trans h1
  clear_value s2
  have h3 := (State.mem_tempEdge s2.mgt.warn (thr s2 Reg.MGT_TWARN) top 0 s2).trans h2
  generalize s2.tempEdge s2.mgt.warn (thr s2 Reg.MGT_TWARN) top 0 = r at h3
  obtain ⟨w, s3⟩ := r
  dsimp only
  have h4 := (State.mem_tempEdge s3.mgt.crit (thr s3 Reg.MGT_TCRIT) top 1 s3).trans h3
  generalize s3.tempEdge s3.mgt.crit (thr s3 Reg.MGT_TCRIT) top 1 = r at h4
  obtain ⟨c, s4⟩ := r
  exact Res.runs_keep (t := { s4 with mgt := { s4.mgt with warn := w, crit := c } }) h4

@[simp] theorem execSupplySample_runs (mv : List (BitVec 13)) (s : State) : Res.Runs s (execSupplySample mv s) := by
  unfold execSupplySample
  extract_lets one
  have h1 (t : State) (k : Nat) : (one t k).mem = t.mem := by
    unfold one
    dsimp only
    rw [State.mem_ite, State.mem_raise0, ite_self]
    rfl
  exact Res.runs_keep (State.mem_foldl h1 _ _)

@[simp] theorem execAdcConversion_runs (code : BitVec 12) (s : State) : Res.Runs s (execAdcConversion code s) := by
  unfold execAdcConversion
  split
  · exact Res.runs_self _
  · exact Res.runs_keep (by simp)

@[simp] theorem execAutoBrightness_runs (s : State) : Res.Runs s (execAutoBrightness s) := by
  unfold execAutoBrightness
  split
  · exact Res.runs_self _
  · exact Res.runs_keep (by simp)

@[simp] theorem execMail_runs (hop : Hop) (ok : Bool) (f : Frame) (s : State) : Res.Runs s (execMail hop ok f s) := by
  simp only [execMail]
  repeat' split
  all_goals exact Res.runs_keep (by simp)

@[simp] theorem execMailSent_runs (slot : Fin 4) (s : State) : Res.Runs s (execMailSent slot s) := Res.runs_keep (by simp)

@[simp] theorem execEventStore_runs (s : State) : Res.Runs s (execEventStore s) := by
  simp only [execEventStore]
  repeat' split
  all_goals exact Res.runs_next fun hm => by simp [State.memWf, State.memWf_storeOp, State.memWf_storeSec, State.mem_logEvent, State.mem_setTokens, State.mem_suppress, hm]

@[simp] theorem execRateLimitTick_runs (s : State) : Res.Runs s (execRateLimitTick s) := by
  unfold execRateLimitTick
  split
  · exact Res.runs_self _
  · refine Res.runs_next fun hm => State.memWf_foldl (fun t x h => State.memWf_summarise _ t h) _ ?_
    exact State.memWf_foldl (fun t e h => State.memWf_of_mem (State.mem_setTokens ..) h) _ hm

@[simp] theorem execEvrWindowLatch_runs (s : State) : Res.Runs s (execEvrWindowLatch s) := by
  unfold execEvrWindowLatch
  split
  · exact Res.runs_self _
  · dsimp only
    split
    · exact Res.runs_keep rfl
    · exact Res.runs_keep ((State.mem_setReg ..).trans (State.mem_foldl (fun t w => State.mem_setReg ..) _ _))

@[simp] theorem execWipeDone_runs (s : State) : Res.Runs s (execWipeDone s) := by
  unfold execWipeDone
  split
  · refine Res.runs_next fun hm => State.memWf_of_mem (State.mem_secRaise ..) ?_
    exact State.memWf_foldl (f := fun (t : State) (w : Nat × List Byte) => t.setBytes w.1 w.2) (fun t w h => State.memWf_setBytes h _ _) _ hm
  · exact Res.runs_self _

@[simp] theorem execSecCommandDone_runs (ok : Bool) (s0 : State) : Res.Runs s0 (execSecCommandDone ok s0) := by
  simp only [execSecCommandDone]
  repeat' split
  all_goals exact Res.runs_next fun hm => by simp [State.memWf, State.memWf_advance, State.mem_logEvent, State.mem_secBit, hm]

@[simp] theorem execTamperEvent_runs (in0 in1 : Bool) (s : State) : Res.Runs s (execTamperEvent in0 in1 s) := by
  unfold execTamperEvent
  repeat' split
  all_goals exact Res.runs_next fun hm => by simp [State.memWf, State.memWf_wipe, State.mem_secRaise, State.mem_retrain, State.mem_dropDebug, hm]

@[simp] theorem execGpEdge_runs (n : Fin 48) (level : Bool) (s : State) : Res.Runs s (execGpEdge n level s) := by
  simp only [execGpEdge]
  repeat' split
  all_goals exact Res.runs_keep (by simp)

@[simp] theorem execPinSwitch_runs (s : State) : Res.Runs s (execPinSwitch s) := by
  unfold execPinSwitch
  repeat' split
  all_goals exact Res.runs_keep (by simp)

@[simp] theorem execPinSwitchHoldEnd_runs (n : Fin 48) (level : Bool) (s : State) : Res.Runs s (execPinSwitchHoldEnd n level s) := Res.runs_keep (by simp)

@[simp] theorem execMatchPulseEnd_runs (n : Fin 4) (s : State) : Res.Runs s (execMatchPulseEnd n s) := Res.runs_keep (by simp)

@[simp] theorem execPinLockTimeout_runs (s : State) : Res.Runs s (execPinLockTimeout s) := Res.runs_keep (by simp)

@[simp] theorem execEntdaa_runs (main debug : Option (BitVec 7)) (s : State) : Res.Runs s (execEntdaa main debug s) := by
  simp only [execEntdaa]
  repeat' split
  all_goals exact Res.runs_keep (by simp)

@[simp] theorem execSetdasa_runs (addr dyn : BitVec 7) (s : State) : Res.Runs s (execSetdasa addr dyn s) := by
  simp only [execSetdasa]
  repeat' split
  all_goals exact Res.runs_keep (by simp)

@[simp] theorem execSetnewda_runs (target : Fin 2) (addr : BitVec 7) (s : State) : Res.Runs s (execSetnewda target addr s) := Res.runs_keep (State.mem_hostServe _ (State.mem_setDaddr _ _) _)

@[simp] theorem execRstdaa_runs (s : State) : Res.Runs s (execRstdaa s) := Res.runs_keep (by simp)

@[simp] theorem execEnec_runs (target : Option (Fin 2)) (intr hj : Bool) (s : State) : Res.Runs s (execEnec target intr hj s) := Res.runs_keep (State.mem_cccServe _ (State.mem_events _ _ _ _) _)

@[simp] theorem execDisec_runs (target : Option (Fin 2)) (intr hj : Bool) (s : State) : Res.Runs s (execDisec target intr hj s) := Res.runs_keep (State.mem_cccServe _ (State.mem_events _ _ _ _) _)

@[simp] theorem execSetmwl_runs (target : Option (Fin 2)) (len : Nat) (s : State) : Res.Runs s (execSetmwl target len s) := by
  exact Res.runs_keep (State.mem_cccServe _ (fun t => State.mem_foldl (f := fun (u : State) i => { u with hi3c := { u.hi3c with mwl := u.hi3c.mwl.set i (min len 2064) } }) (fun _ _ => rfl) _ _) _)

@[simp] theorem execSetmrl_runs (target : Option (Fin 2)) (len : Nat) (s : State) : Res.Runs s (execSetmrl target len s) := by
  exact Res.runs_keep (State.mem_cccServe _ (fun t => State.mem_foldl (f := fun (u : State) i => { u with hi3c := { u.hi3c with mrl := u.hi3c.mrl.set i (min len 2048) } }) (fun _ _ => rfl) _ _) _)

@[simp] theorem execGetmwl_runs (target : Fin 2) (s : State) : Res.Runs s (execGetmwl target s) := Res.runs_keep (by simp)

@[simp] theorem execGetmrl_runs (target : Fin 2) (s : State) : Res.Runs s (execGetmrl target s) := Res.runs_keep (by simp)

@[simp] theorem execGetpid_runs (target : Fin 2) (s : State) : Res.Runs s (execGetpid target s) := Res.runs_keep (by simp)

@[simp] theorem execGetbcr_runs (target : Fin 2) (s : State) : Res.Runs s (execGetbcr target s) := Res.runs_keep (by simp)

@[simp] theorem execGetdcr_runs (target : Fin 2) (s : State) : Res.Runs s (execGetdcr target s) := Res.runs_keep (by simp)

@[simp] theorem execGetstatus_runs (target : Fin 2) (s : State) : Res.Runs s (execGetstatus target s) := Res.runs_keep (by simp)

@[simp] theorem execGetmxds_runs (target : Fin 2) (s : State) : Res.Runs s (execGetmxds target s) := Res.runs_keep (by simp)

@[simp] theorem execEnthdr0_runs (s : State) : Res.Runs s (execEnthdr0 s) := Res.runs_keep (by simp)

@[simp] theorem execHdrExit_runs (s : State) : Res.Runs s (execHdrExit s) := Res.runs_keep (by simp)

@[simp] theorem execRstact_runs (target : Option (Fin 2)) (action : Nat) (s : State) : Res.Runs s (execRstact target action s) := by
  unfold execRstact
  split
  · exact Res.runs_keep (State.mem_cccServe _ (fun t =>
      State.mem_foldl (f := fun (u : State) i => { u with hi3c := { u.hi3c with rstact := u.hi3c.rstact.set i action } }) (fun _ _ => rfl) _ _) _)
  · exact Res.runs_self _

@[simp] theorem execHi3cIbi_runs (alert : Bool) (s : State) : Res.Runs s (execHi3cIbi alert s) := by
  simp only [execHi3cIbi]
  repeat' split
  all_goals exact Res.runs_keep (by simp)

@[simp] theorem execHotJoin_runs (s : State) : Res.Runs s (execHotJoin s) := by
  simp only [execHotJoin]
  repeat' split
  all_goals exact Res.runs_keep (by simp)

@[simp] theorem execCi3cCommandDone_runs (resp : Fin 4) (count : Nat) (data : List Byte) (s : State) : Res.Runs s (execCi3cCommandDone resp count data s) := by
  simp only [execCi3cCommandDone]
  repeat' split
  all_goals exact Res.runs_keep (by simp)

@[simp] theorem execCi3cIbi_runs (dev : Fin 16) (payload : List Byte) (s : State) : Res.Runs s (execCi3cIbi dev payload s) := by
  simp only [execCi3cIbi]
  repeat' split
  all_goals exact Res.runs_keep (by simp)

@[simp] theorem execCi3cHotjoin_runs (s : State) : Res.Runs s (execCi3cHotjoin s) := by
  unfold execCi3cHotjoin
  repeat' split
  all_goals exact Res.runs_keep (by simp)

@[simp] theorem execXspiDone_runs (data : List Byte) (s : State) : Res.Runs s (execXspiDone data s) := by
  simp only [execXspiDone]
  repeat' split
  all_goals exact Res.runs_keep (by simp)

@[simp] theorem execXspiPollRepeat_runs (s : State) : Res.Runs s (execXspiPollRepeat s) := by
  unfold execXspiPollRepeat
  split
  · exact Res.runs_self _
  · exact Res.runs_keep (by simp)

@[simp] theorem execXspiPollTimeout_runs (s : State) : Res.Runs s (execXspiPollTimeout s) := by
  unfold execXspiPollTimeout
  repeat' split
  all_goals exact Res.runs_keep (by simp)

@[simp] theorem execDebugResponseTimeout_runs (s : State) : Res.Runs s (execDebugResponseTimeout s) := by
  unfold execDebugResponseTimeout
  repeat' split
  all_goals exact Res.runs_keep (by simp)

@[simp] theorem execDebugLockoutEnd_runs (s : State) : Res.Runs s (execDebugLockoutEnd s) := Res.runs_keep (by simp)

@[simp] theorem execDbgVerifyDone_runs (ok : Bool) (s : State) : Res.Runs s (execDbgVerifyDone ok s) := by
  unfold execDbgVerifyDone
  repeat' split
  all_goals exact Res.runs_keep (by simp)

@[simp] theorem execUcodeLoadDone_runs (sigOk : Bool) (s : State) : Res.Runs s (execUcodeLoadDone sigOk s) := by
  unfold execUcodeLoadDone
  split
  · exact Res.runs_self _
  · rename_i st region _
    extract_lets b first count op bad fmt src s1 s2 src' s3 s4 s5 s6 s7
    clear_value fmt bad
    clear_value b count op first
    have h1 : s1.mem = s.mem := State.mem_setUcState ..
    clear_value s1
    split
    · refine Res.runs_next fun hm => State.memWf_of_mem ((State.mem_raise0 ..).trans (State.mem_setBit ..)) ?_
      exact State.memWf_foldl (f := fun (t : State) i => t.ucPut st 1 (first + i) (op i)) (fun t i h => State.memWf_ucPut _ _ _ _ t h) _ (State.memWf_of_mem h1 hm)
    · have h4 : s.memWf → s4.memWf := fun hm => State.memWf_regionBack _ _ _ s1 (State.memWf_of_mem h1 hm)
      clear_value s4
      have h6 : s6.mem = s4.mem := by
        unfold s6
        rw [State.mem_ite, State.mem_secRaise, State.mem_raise0, ite_self]
        exact State.mem_setBit ..
      clear_value s6
      have h7 : s7.mem = s4.mem := by
        unfold s7
        cases bad with
        | some i => exact h6
        | none => exact h6
      clear_value s7
      refine Res.runs_next fun hm => State.memWf_of_mem ?_ (h4 hm)
      rw [State.mem_ite, State.mem_raise0, ite_self, h7]

@[simp] theorem execUcodeSwap_runs (quiesce : Nat) (s : State) : Res.Runs s (execUcodeSwap quiesce s) := by
  unfold execUcodeSwap
  split
  · exact Res.runs_self _
  · refine Res.runs_next fun hm => State.memWf_of_mem (State.mem_raise0 ..) ?_
    refine State.memWf_of_mem ((State.mem_setReg ..).trans (State.mem_setUcState ..)) ?_
    exact State.memWf_foldl (f := fun (t : State) k => ((t.exchange k).showVersion k).setBit Reg.IMG_UCSTAT (16 + k) false)
      (fun t k h => State.memWf_of_mem ((State.mem_setBit ..).trans (State.mem_showVersion ..)) (State.memWf_exchange h k)) _ hm

@[simp] theorem execUcodeMirrorDone_runs (s : State) : Res.Runs s (execUcodeMirrorDone s) := by
  unfold execUcodeMirrorDone
  split
  · refine Res.runs_next fun hm => State.memWf_of_mem (State.mem_setUcState ..) ?_
    exact State.memWf_foldl (f := fun (t : State) k => (t.mirrorStore k).setBit Reg.IMG_UCSTAT (18 + k) true)
      (fun t k h => State.memWf_mirrorStore h k) _ hm
  · exact Res.runs_self _

@[simp] theorem execControlStoreRepair_runs (c : Fin 3) (word : Fin 16384) (other : Upset) (entry : Bool) (s : State) : Res.Runs s (execControlStoreRepair c word other entry s) := by
  simp only [execControlStoreRepair]
  repeat' split
  all_goals exact Res.runs_next fun hm => by grind [State.memWf_ucRepair, State.mem_raise0, State.mem_upset, State.mem_setCore]

@[simp] theorem execControlStoreScrub_runs (found : List Upset) (s : State) : Res.Runs s (execControlStoreScrub found s) := by
  unfold execControlStoreScrub
  split
  · exact Res.runs_self _
  · extract_lets w s1
    have h1 : s.memWf → s1.memWf := by
      unfold s1
      generalize List.range 6 = l
      exact fun hm => State.memWf_foldl (fun t i h => State.memWf_ucScrub _ _ _ _ t h) _ hm
    clear_value s1
    exact Res.runs_next h1

@[simp] theorem execBoot_runs (bootsel : Fin 4) (okA okB okStaged : Bool) (s0 : State) : Res.Runs s0 (execBoot bootsel okA okB okStaged s0) := by
  simp only [execBoot]
  repeat' split
  all_goals exact Res.runs_next fun hm => by grind [State.memWf_tryImage, State.memWf_trySlots, State.mem_setReg, State.mem_retireTrial, State.mem_booted, State.mem_waitImage, State.mem_bootAlert, State.mem_probeFlash]

@[simp] theorem execStreamWindowUpdate_runs (port : Fin 16) (reqs : List PortReq) (s : State) : Res.Runs s (execStreamWindowUpdate port reqs s) := Res.runs_keep (by simp)

@[simp] theorem execMemoryAccess_runs (k : Fin 256) (bank : Fin 32) (u : Upset) (s0 : State) : Res.Runs s0 (execMemoryAccess k bank u s0) := by
  simp only [execMemoryAccess]
  repeat' split
  all_goals exact Res.runs_next fun hm => by simp [State.memWf, State.memWf_serve, State.mem_upset, State.mem_roundStart, hm]

@[simp] theorem execReadReturn_runs (port : Fin 16) (s : State) : Res.Runs s (execReadReturn port s) := by
  unfold execReadReturn
  split
  · exact Res.runs_self _
  · exact Res.runs_keep (by simp)

@[simp] theorem execRegisterWrite_runs (m : Acc) (addr size : Nat) (v set : Word) (s : State) : Res.Runs s (execRegisterWrite m addr size v set s) := by
  simp only [execRegisterWrite]
  repeat' split
  all_goals exact Res.runs_next fun hm => by simp [State.memWf, State.memWf_busWrite, State.mem_reply, State.mem_setWins, hm]

@[simp] theorem execRcRegisterRead_runs (m : Acc) (addr : Nat) (event : Word) (s : State) : Res.Runs s (execRcRegisterRead m addr event s) := by
  simp only [execRcRegisterRead]
  repeat' split
  all_goals exact Res.runs_keep (by simp)

@[simp] theorem execBeamRun_runs (m : Acc) (subfm1 : Nat) (s : State) : Res.Runs s (execBeamRun m subfm1 s) := by
  exact Res.runs_next fun hm => by simp [State.memWf, State.memWf_askWrite, hm]

@[simp] theorem execBeamStopRequest_runs (m : Acc) (subfm1 : Nat) (s : State) : Res.Runs s (execBeamStopRequest m subfm1 s) := by
  exact Res.runs_next fun hm => by simp [State.memWf, State.memWf_askWrite, hm]

@[simp] theorem execBeamPosRead_runs (m : Acc) (s : State) : Res.Runs s (execBeamPosRead m s) := Res.runs_keep (by simp)

@[simp] theorem execCotCommit_runs (m : Acc) (v : Word) (s : State) : Res.Runs s (execCotCommit m v s) := by
  exact Res.runs_next fun hm => by simp [State.memWf, State.memWf_askWrite, hm]

@[simp] theorem execMrcCepolWrite_runs (m : Acc) (v : Word) (s : State) : Res.Runs s (execMrcCepolWrite m v s) := by
  exact Res.runs_next fun hm => by simp [State.memWf, State.memWf_askWrite, hm]

@[simp] theorem execMrcReqPreserving_runs (m : Acc) (bank : Fin 32) (s : State) : Res.Runs s (execMrcReqPreserving m bank s) := by
  exact Res.runs_next fun hm => by simp [State.memWf, State.memWf_askWrite, hm]

@[simp] theorem execMrcReqDestroying_runs (m : Acc) (bank : Fin 32) (s : State) : Res.Runs s (execMrcReqDestroying m bank s) := by
  exact Res.runs_next fun hm => by simp [State.memWf, State.memWf_askWrite, hm]

@[simp] theorem execQdlEnable_runs (m : Acc) (s : State) : Res.Runs s (execQdlEnable m s) := by
  exact Res.runs_next fun hm => by simp [State.memWf, State.memWf_askWrite, hm]

@[simp] theorem execQdlDisable_runs (m : Acc) (s : State) : Res.Runs s (execQdlDisable m s) := by
  exact Res.runs_next fun hm => by simp [State.memWf, State.memWf_askWrite, hm]

@[simp] theorem execLayerFenceSignal_runs (m : Acc) (slot : Fin 12) (s : State) : Res.Runs s (execLayerFenceSignal m slot s) := by
  exact Res.runs_next fun hm => by simp [State.memWf, State.memWf_askWrite, hm]

@[simp] theorem execQdlLanepolWrite_runs (m : Acc) (v : Word) (s : State) : Res.Runs s (execQdlLanepolWrite m v s) := by
  exact Res.runs_next fun hm => by simp [State.memWf, State.memWf_askWrite, hm]

@[simp] theorem execEngineFaultClear_runs (m : Acc) (e : Fin 8) (s : State) : Res.Runs s (execEngineFaultClear m e s) := by
  exact Res.runs_next fun hm => by simp [State.memWf, State.memWf_askWrite, hm]

@[simp] theorem execGflagSet_runs (m : Acc) (v : Word) (s : State) : Res.Runs s (execGflagSet m v s) := by
  exact Res.runs_next fun hm => by simp [State.memWf, State.memWf_askWrite, hm]

@[simp] theorem execGflagClear_runs (m : Acc) (v : Word) (s : State) : Res.Runs s (execGflagClear m v s) := by
  exact Res.runs_next fun hm => by simp [State.memWf, State.memWf_askWrite, hm]

@[simp] theorem execBeamStoreWrite_runs (m : Acc) (addr : Nat) (v : Word) (s : State) : Res.Runs s (execBeamStoreWrite m addr v s) := by
  exact Res.runs_next fun hm => by simp [State.memWf, State.memWf_askWrite, hm]

@[simp] theorem execBlankRequest_runs (m : Acc) (v : Word) (s : State) : Res.Runs s (execBlankRequest m v s) := by
  exact Res.runs_next fun hm => by simp [State.memWf, State.memWf_askWrite, hm]

@[simp] theorem execPnlCmdCfg_runs (m : Acc) (s : State) : Res.Runs s (execPnlCmdCfg m s) := by
  exact Res.runs_next fun hm => by simp [State.memWf, State.memWf_askWrite, hm]

@[simp] theorem execPnlCmdGain_runs (m : Acc) (data : BitVec 16) (s : State) : Res.Runs s (execPnlCmdGain m data s) := by
  exact Res.runs_next fun hm => by simp [State.memWf, State.memWf_askWrite, hm]

@[simp] theorem execPnlCmdUser_runs (m : Acc) (data : BitVec 16) (s : State) : Res.Runs s (execPnlCmdUser m data s) := by
  exact Res.runs_next fun hm => by simp [State.memWf, State.memWf_askWrite, hm]

@[simp] theorem execPnlMapdata_runs (m : Acc) (write : Bool) (v : Word) (s : State) : Res.Runs s (execPnlMapdata m write v s) := by
  unfold execPnlMapdata
  repeat' split
  all_goals exact Res.runs_next fun hm => by simp [State.memWf, State.memWf_askWrite, State.mem_askRead, hm]

@[simp] theorem execPavaneRequest_runs (m : Acc) (v : Word) (s : State) : Res.Runs s (execPavaneRequest m v s) := by
  exact Res.runs_next fun hm => by simp [State.memWf, State.memWf_askWrite, hm]

@[simp] theorem execPavaneExitRequest_runs (m : Acc) (v : Word) (s : State) : Res.Runs s (execPavaneExitRequest m v s) := by
  exact Res.runs_next fun hm => by simp [State.memWf, State.memWf_askWrite, hm]

@[simp] theorem execKeyOn_runs (m : Acc) (n : Fin 2) (v : Word) (s : State) : Res.Runs s (execKeyOn m n v s) := by
  exact Res.runs_next fun hm => by simp [State.memWf, State.memWf_askWrite, hm]

@[simp] theorem execKeyOff_runs (m : Acc) (n : Fin 2) (v : Word) (s : State) : Res.Runs s (execKeyOff m n v s) := by
  exact Res.runs_next fun hm => by simp [State.memWf, State.memWf_askWrite, hm]

@[simp] theorem execNodeWrite_runs (m : Acc) (v : Word) (s : State) : Res.Runs s (execNodeWrite m v s) := by
  exact Res.runs_next fun hm => by simp [State.memWf, State.memWf_askWrite, hm]

@[simp] theorem execBiquadCoefWrite_runs (m : Acc) (o : Fin 32) (k : Fin 10) (v : Word) (s : State) : Res.Runs s (execBiquadCoefWrite m o k v s) := by
  exact Res.runs_next fun hm => by simp [State.memWf, State.memWf_askWrite, hm]

@[simp] theorem execSndKloRead_runs (m : Acc) (s : State) : Res.Runs s (execSndKloRead m s) := Res.runs_keep (by simp)

@[simp] theorem execObjMute_runs (m : Acc) (v : Word) (s : State) : Res.Runs s (execObjMute m v s) := by
  exact Res.runs_next fun hm => by simp [State.memWf, State.memWf_askWrite, hm]

@[simp] theorem execAkethEpolWrite_runs (m : Acc) (port : Fin 2) (v : Word) (s : State) : Res.Runs s (execAkethEpolWrite m port v s) := by
  exact Res.runs_next fun hm => by simp [State.memWf, State.memWf_askWrite, hm]

@[simp] theorem execAkethRetrain_runs (m : Acc) (port : Fin 2) (s : State) : Res.Runs s (execAkethRetrain m port s) := by
  exact Res.runs_next fun hm => by simp [State.memWf, State.memWf_askWrite, hm]

@[simp] theorem execAkethLaneRetry_runs (m : Acc) (port : Fin 2) (s : State) : Res.Runs s (execAkethLaneRetry m port s) := by
  exact Res.runs_next fun hm => by simp [State.memWf, State.memWf_askWrite, hm]

@[simp] theorem execAkethRekey_runs (m : Acc) (port : Fin 2) (s : State) : Res.Runs s (execAkethRekey m port s) := by
  exact Res.runs_next fun hm => by simp [State.memWf, State.memWf_askWrite, hm]

@[simp] theorem execReelGo_runs (m : Acc) (v trig : Word) (s : State) : Res.Runs s (execReelGo m v trig s) := Res.runs_keep (State.mem_askWith _ _ _ (fun _ => State.mem_reelGo ..) _)

@[simp] theorem execReelAbort_runs (m : Acc) (v start done : Word) (s : State) : Res.Runs s (execReelAbort m v start done s) := Res.runs_next fun hm => State.memWf_askWith _ _ _ (fun u h => State.memWf_reelAbort _ _ _ u h) hm

@[simp] theorem execBlkPush_runs (m : Acc) (v : Word) (s : State) : Res.Runs s (execBlkPush m v s) := by
  exact Res.runs_next fun hm => by simp [State.memWf, State.memWf_askWrite, hm]

@[simp] theorem execBlkGo_runs (m : Acc) (v : Word) (trig : Bool) (s : State) : Res.Runs s (execBlkGo m v trig s) := by
  refine Res.runs_keep (State.mem_askWith _ _ _ (fun u => ?_) _)
  rw [State.mem_ite, State.mem_blkRelease, ite_self]

@[simp] theorem execBlkErrorClear_runs (m : Acc) (v : Word) (s : State) : Res.Runs s (execBlkErrorClear m v s) := by
  exact Res.runs_next fun hm => by simp [State.memWf, State.memWf_askWrite, hm]

@[simp] theorem execIrqRaise_runs (m : Acc) (v : Word) (s : State) : Res.Runs s (execIrqRaise m v s) := by
  exact Res.runs_next fun hm => by simp [State.memWf, State.memWf_askWrite, hm]

@[simp] theorem execIrqClr_runs (m : Acc) (v : Word) (s : State) : Res.Runs s (execIrqClr m v s) := by
  exact Res.runs_next fun hm => by simp [State.memWf, State.memWf_askWrite, hm]

@[simp] theorem execIrqFbWrite_runs (m : Acc) (src : Fin 256) (v : Word) (s : State) : Res.Runs s (execIrqFbWrite m src v s) := by
  exact Res.runs_next fun hm => by simp [State.memWf, State.memWf_askWrite, hm]

@[simp] theorem execIrqCoalCfgWrite_runs (m : Acc) (k : Fin 16) (v : Word) (s : State) : Res.Runs s (execIrqCoalCfgWrite m k v s) := by
  exact Res.runs_next fun hm => by simp [State.memWf, State.memWf_askWrite, hm]

@[simp] theorem execTmrCntRead_runs (m : Acc) (n : Fin 16) (s : State) : Res.Runs s (execTmrCntRead m n s) := Res.runs_keep (by simp)

@[simp] theorem execTmrCntWrite_runs (m : Acc) (n : Fin 16) (v : Word) (s : State) : Res.Runs s (execTmrCntWrite m n v s) := by
  exact Res.runs_next fun hm => by simp [State.memWf, State.memWf_askWrite, hm]

@[simp] theorem execTmrCmpWrite_runs (m : Acc) (n : Fin 16) (v : Word) (tick : Bool) (s : State) : Res.Runs s (execTmrCmpWrite m n v tick s) := by
  exact Res.runs_next fun hm => by simp [State.memWf, State.memWf_askWrite, State.mem_timerStep, State.mem_tick, hm]

@[simp] theorem execTmrCapRead_runs (m : Acc) (n : Fin 16) (edge : Bool) (s : State) : Res.Runs s (execTmrCapRead m n edge s) := Res.runs_keep (by simp)

@[simp] theorem execWdgEnable_runs (m : Acc) (w : Fin 3) (v : Word) (s : State) : Res.Runs s (execWdgEnable m w v s) := by
  exact Res.runs_next fun hm => by simp [State.memWf, State.memWf_askWrite, hm]

@[simp] theorem execWdgKey_runs (m : Acc) (w : Fin 3) (v : Word) (s : State) : Res.Runs s (execWdgKey m w v s) := by
  exact Res.runs_next fun hm => by simp [State.memWf, State.memWf_askWrite, hm]

@[simp] theorem execPllRevert_runs (m : Acc) (v : Word) (relocked : Bool) (s : State) : Res.Runs s (execPllRevert m v relocked s) := Res.runs_keep (State.mem_askWith _ _ _ (fun _ => State.mem_writePllctl ..) _)

@[simp] theorem execClkSwrst_runs (m : Acc) (v : Word) (s : State) : Res.Runs s (execClkSwrst m v s) := by
  exact Res.runs_next fun hm => by simp [State.memWf, State.memWf_askWrite, hm]

@[simp] theorem execGvRelease_runs (m : Acc) (v : Word) (s : State) : Res.Runs s (execGvRelease m v s) := by
  exact Res.runs_next fun hm => by simp [State.memWf, State.memWf_askWrite, hm]

@[simp] theorem execClkUploRead_runs (m : Acc) (s : State) : Res.Runs s (execClkUploRead m s) := Res.runs_keep (by simp)

@[simp] theorem execVerify_runs (m : Acc) (src : Fin 4) (s : State) : Res.Runs s (execVerify m src s) := by
  exact Res.runs_next fun hm => by simp [State.memWf, State.memWf_askWrite, hm]

@[simp] theorem execSsverify_runs (m : Acc) (s : State) : Res.Runs s (execSsverify m s) := by
  exact Res.runs_next fun hm => by simp [State.memWf, State.memWf_askWrite, hm]

@[simp] theorem execImgCmdSwap_runs (m : Acc) (brk : Bool) (s : State) : Res.Runs s (execImgCmdSwap m brk s) := by
  exact Res.runs_next fun hm => by simp [State.memWf, State.memWf_askWrite, hm]

@[simp] theorem execCancel_runs (m : Acc) (s : State) : Res.Runs s (execCancel m s) := by
  exact Res.runs_next fun hm => by simp [State.memWf, State.memWf_askWrite, hm]

@[simp] theorem execLoad_runs (m : Acc) (src : Fin 4) (s : State) : Res.Runs s (execLoad m src s) := by
  exact Res.runs_next fun hm => by simp [State.memWf, State.memWf_askWrite, hm]

@[simp] theorem execImgSessionWrite_runs (m : Acc) (base : Bool) (v : Word) (s : State) : Res.Runs s (execImgSessionWrite m base v s) := by
  exact Res.runs_next fun hm => by simp [State.memWf, State.memWf_askWrite, hm]

@[simp] theorem execImgUcload_runs (m : Acc) (v : Word) (s : State) : Res.Runs s (execImgUcload m v s) := by
  exact Res.runs_next fun hm => by simp [State.memWf, State.memWf_askWrite, hm]

@[simp] theorem execImgUcswap_runs (m : Acc) (v : Word) (s : State) : Res.Runs s (execImgUcswap m v s) := by
  exact Res.runs_next fun hm => by simp [State.memWf, State.memWf_askWrite, hm]

@[simp] theorem execMgtMbinrel_runs (m : Acc) (v : Word) (s : State) : Res.Runs s (execMgtMbinrel m v s) := by
  exact Res.runs_next fun hm => by simp [State.memWf, State.memWf_askWrite, hm]

@[simp] theorem execMgtMbsend_runs (m : Acc) (v : Word) (s : State) : Res.Runs s (execMgtMbsend m v s) := by
  exact Res.runs_next fun hm => by simp [State.memWf, State.memWf_askWrite, hm]

@[simp] theorem execMgtHsnap_runs (m : Acc) (v : Word) (s : State) : Res.Runs s (execMgtHsnap m v s) := by
  exact Res.runs_next fun hm => by simp [State.memWf, State.memWf_askWrite, hm]

@[simp] theorem execEvrTimeWrite_runs (m : Acc) (pcyc : Bool) (v : Word) (s : State) : Res.Runs s (execEvrTimeWrite m pcyc v s) := by
  exact Res.runs_next fun hm => by simp [State.memWf, State.memWf_askWrite, hm]

@[simp] theorem execEvrCurctl_runs (m : Acc) (v : Word) (s : State) : Res.Runs s (execEvrCurctl m v s) := by
  exact Res.runs_next fun hm => by simp [State.memWf, State.memWf_askWrite, hm]

@[simp] theorem execEvrWin7Read_runs (m : Acc) (s : State) : Res.Runs s (execEvrWin7Read m s) := Res.runs_keep (by simp)

@[simp] theorem execEvrLogGo_runs (m : Acc) (t : Fin 3) (v : Word) (s : State) : Res.Runs s (execEvrLogGo m t v s) := by
  exact Res.runs_next fun hm => by simp [State.memWf, State.memWf_askWrite, hm]

@[simp] theorem execLcadv_runs (m : Acc) (s : State) : Res.Runs s (execLcadv m s) := by
  exact Res.runs_next fun hm => by simp [State.memWf, State.memWf_askWrite, hm]

@[simp] theorem execOwnkey_runs (m : Acc) (s : State) : Res.Runs s (execOwnkey m s) := by
  exact Res.runs_next fun hm => by simp [State.memWf, State.memWf_askWrite, hm]

@[simp] theorem execRevoke_runs (m : Acc) (s : State) : Res.Runs s (execRevoke m s) := by
  exact Res.runs_next fun hm => by simp [State.memWf, State.memWf_askWrite, hm]

@[simp] theorem execDbgkey_runs (m : Acc) (s : State) : Res.Runs s (execDbgkey m s) := by
  exact Res.runs_next fun hm => by simp [State.memWf, State.memWf_askWrite, hm]

@[simp] theorem execSvnset_runs (m : Acc) (s : State) : Res.Runs s (execSvnset m s) := by
  exact Res.runs_next fun hm => by simp [State.memWf, State.memWf_askWrite, hm]

@[simp] theorem execFleetload_runs (m : Acc) (s : State) : Res.Runs s (execFleetload m s) := by
  exact Res.runs_next fun hm => by simp [State.memWf, State.memWf_askWrite, hm]

@[simp] theorem execFleetzero_runs (m : Acc) (s : State) : Res.Runs s (execFleetzero m s) := by
  exact Res.runs_next fun hm => by simp [State.memWf, State.memWf_askWrite, hm]

@[simp] theorem execDbgdrop_runs (m : Acc) (s : State) : Res.Runs s (execDbgdrop m s) := by
  exact Res.runs_next fun hm => by simp [State.memWf, State.memWf_askWrite, hm]

@[simp] theorem execSecTclr_runs (m : Acc) (v : Word) (s : State) : Res.Runs s (execSecTclr m v s) := by
  exact Res.runs_next fun hm => by simp [State.memWf, State.memWf_askWrite, hm]

@[simp] theorem execDbgChal_runs (m : Acc) (level : Nat) (s : State) : Res.Runs s (execDbgChal m level s) := by
  exact Res.runs_next fun hm => by simp [State.memWf, State.memWf_askWrite, hm]

@[simp] theorem execDbgVerify_runs (m : Acc) (s : State) : Res.Runs s (execDbgVerify m s) := by
  exact Res.runs_next fun hm => by simp [State.memWf, State.memWf_askWrite, hm]

@[simp] theorem execDbgHalt_runs (m : Acc) (c : Fin 3) (s : State) : Res.Runs s (execDbgHalt m c s) := by
  exact Res.runs_next fun hm => by simp [State.memWf, State.memWf_askWrite, hm]

@[simp] theorem execDbgRun_runs (m : Acc) (c : Fin 3) (s : State) : Res.Runs s (execDbgRun m c s) := by
  exact Res.runs_next fun hm => by simp [State.memWf, State.memWf_askWrite, hm]

@[simp] theorem execDbgRegdata_runs (m : Acc) (c : Fin 3) (write : Bool) (v : Word) (s : State) : Res.Runs s (execDbgRegdata m c write v s) := by
  unfold execDbgRegdata
  repeat' split
  all_goals exact Res.runs_next fun hm => by simp [State.memWf, State.memWf_askWrite, State.mem_askRead, hm]

@[simp] theorem execDbgLdata_runs (m : Acc) (c : Fin 3) (write : Bool) (v : Word) (s : State) : Res.Runs s (execDbgLdata m c write v s) := by
  unfold execDbgLdata
  repeat' split
  all_goals exact Res.runs_next fun hm => by simp [State.memWf, State.memWf_askWrite, State.mem_askRead, hm]

@[simp] theorem execDbgDrxWrite_runs (m : Acc) (c : Fin 3) (v : Word) (s : State) : Res.Runs s (execDbgDrxWrite m c v s) := by
  exact Res.runs_next fun hm => by simp [State.memWf, State.memWf_askWrite, hm]

@[simp] theorem execDbgTxfullAck_runs (m : Acc) (c : Fin 3) (s : State) : Res.Runs s (execDbgTxfullAck m c s) := by
  exact Res.runs_next fun hm => by simp [State.memWf, State.memWf_askWrite, hm]

@[simp] theorem execPinRelease_runs (m : Acc) (s : State) : Res.Runs s (execPinRelease m s) := by
  exact Res.runs_next fun hm => by simp [State.memWf, State.memWf_askWrite, hm]

@[simp] theorem execPinLock_runs (m : Acc) (v : Word) (s : State) : Res.Runs s (execPinLock m v s) := by
  exact Res.runs_next fun hm => by simp [State.memWf, State.memWf_askWrite, hm]

@[simp] theorem execCi3cPrivateWrite_runs (m : Acc) (v : Word) (s : State) : Res.Runs s (execCi3cPrivateWrite m v s) := by
  exact Res.runs_next fun hm => by simp [State.memWf, State.memWf_askWrite, hm]

@[simp] theorem execCi3cPrivateRead_runs (m : Acc) (v : Word) (s : State) : Res.Runs s (execCi3cPrivateRead m v s) := by
  exact Res.runs_next fun hm => by simp [State.memWf, State.memWf_askWrite, hm]

@[simp] theorem execCi3cBroadcastCcc_runs (m : Acc) (v : Word) (s : State) : Res.Runs s (execCi3cBroadcastCcc m v s) := by
  exact Res.runs_next fun hm => by simp [State.memWf, State.memWf_askWrite, hm]

@[simp] theorem execCi3cDirectCcc_runs (m : Acc) (v : Word) (s : State) : Res.Runs s (execCi3cDirectCcc m v s) := by
  exact Res.runs_next fun hm => by simp [State.memWf, State.memWf_askWrite, hm]

@[simp] theorem execCi3cEntdaa_runs (m : Acc) (v : Word) (s : State) : Res.Runs s (execCi3cEntdaa m v s) := by
  exact Res.runs_next fun hm => by simp [State.memWf, State.memWf_askWrite, hm]

@[simp] theorem execCi3cHdrWrite_runs (m : Acc) (v : Word) (s : State) : Res.Runs s (execCi3cHdrWrite m v s) := by
  exact Res.runs_next fun hm => by simp [State.memWf, State.memWf_askWrite, hm]

@[simp] theorem execCi3cHdrRead_runs (m : Acc) (v : Word) (s : State) : Res.Runs s (execCi3cHdrRead m v s) := by
  exact Res.runs_next fun hm => by simp [State.memWf, State.memWf_askWrite, hm]

@[simp] theorem execCi3cI2cWrite_runs (m : Acc) (v : Word) (s : State) : Res.Runs s (execCi3cI2cWrite m v s) := by
  exact Res.runs_next fun hm => by simp [State.memWf, State.memWf_askWrite, hm]

@[simp] theorem execCi3cI2cRead_runs (m : Acc) (v : Word) (s : State) : Res.Runs s (execCi3cI2cRead m v s) := by
  exact Res.runs_next fun hm => by simp [State.memWf, State.memWf_askWrite, hm]

@[simp] theorem execCi3cRxdRead_runs (m : Acc) (ibiq : Bool) (s : State) : Res.Runs s (execCi3cRxdRead m ibiq s) := Res.runs_keep (by simp)

@[simp] theorem execXspiCommand_runs (m : Acc) (v : Word) (s : State) : Res.Runs s (execXspiCommand m v s) := by
  exact Res.runs_next fun hm => by simp [State.memWf, State.memWf_askWrite, hm]

@[simp] theorem execXspiPoll_runs (m : Acc) (v : Word) (s : State) : Res.Runs s (execXspiPoll m v s) := by
  exact Res.runs_next fun hm => by simp [State.memWf, State.memWf_askWrite, hm]

@[simp] theorem execXspiData_runs (m : Acc) (write : Bool) (v : Word) (s : State) : Res.Runs s (execXspiData m write v s) := by
  unfold execXspiData
  repeat' split
  all_goals exact Res.runs_next fun hm => by simp [State.memWf, State.memWf_askWrite, State.mem_askRead, hm]

@[simp] theorem execXspiFlush_runs (m : Acc) (s : State) : Res.Runs s (execXspiFlush m s) := by
  exact Res.runs_next fun hm => by simp [State.memWf, State.memWf_askWrite, hm]

@[simp] theorem execReelBeat_runs (port : Fin 2) (upset : Upset) (s : State) : Res.Runs s (execReelBeat port upset s) := by
  simp only [execReelBeat]
  repeat' split
  all_goals exact Res.runs_next fun hm => by simp [State.memWf, State.memWf_dataBeat, State.mem_upset, State.mem_fetchBeat, State.mem_upsetAt, State.mem_serveCh, hm]

@[simp] theorem execReelBeatResponse_runs (c : Fin 32) (s : State) : Res.Runs s (execReelBeatResponse c s) := by
  unfold execReelBeatResponse
  split
  · exact Res.runs_self _
  · exact Res.runs_next fun hm => by simp [State.memWf, State.memWf_makeBeat, State.mem_reelLand, hm]

@[simp] theorem execUnitDelivered_runs (port : Fin 32) (s : State) : Res.Runs s (execUnitDelivered port s) := by
  simp only [execUnitDelivered]
  repeat' split
  all_goals exact Res.runs_next fun hm => by grind [State.memWf_writeBeats, State.mem_emit, State.mem_setUnit, State.mem_stopNow]

@[simp] theorem execLoadResult_runs (c : Fin 3) (rd : Fin 16) (s : State) : Res.Runs s (execLoadResult c rd s) := by
  unfold execLoadResult
  dsimp only
  split
  · exact Res.runs_self _
  · rename_i r _
    refine Res.runs_next fun hm => ?_
    rw [State.memWf, State.mem_ite, State.mem_deferBuserr, ite_self]
    exact State.memWf_foldl (fun t k h => State.memWf_putLocal _ _ t h) _ (State.memWf_of_mem (State.mem_setCore ..) hm)

@[simp] theorem execStoreResponse_runs (c : Fin 3) (s : State) : Res.Runs s (execStoreResponse c s) := by
  simp only [execStoreResponse]
  repeat' split
  all_goals exact Res.runs_next fun hm => by simp [State.memWf, State.memWf_makeStore, State.mem_setCore, State.mem_deferBuserr, hm]

@[simp] theorem execAccessTimeout_runs (m : Acc) (addr : Nat) (write : Bool) (s : State) : Res.Runs s (execAccessTimeout m addr write s) := by
  unfold execAccessTimeout
  split
  · exact Res.runs_self _
  · exact Res.runs_keep (by simp)

@[simp] theorem execAtomicResponse_runs (c : Fin 3) (s : State) : Res.Runs s (execAtomicResponse c s) := by
  unfold execAtomicResponse
  split
  · exact Res.runs_self _
  · exact Res.runs_next fun hm => by simp [State.memWf, State.memWf_atomicDone, hm]

@[simp] theorem execLockedAccessWithdraw_runs (c : Fin 3) (s : State) : Res.Runs s (execLockedAccessWithdraw c s) := Res.runs_keep (by simp)

@[simp] theorem execExceptionEntry_runs (c : Fin 3) (s : State) : Res.Runs s (execExceptionEntry c s) := by
  simp only [execExceptionEntry]
  repeat' split
  all_goals exact Res.runs_next fun hm => by simp [State.memWf, State.memWf_takeDue, State.mem_fetchAhead, hm]

@[simp] theorem execHalt_runs (c : Fin 3) (s : State) : Res.Runs s (execHalt c s) := by
  simp only [execHalt]
  repeat' split
  all_goals exact Res.runs_next fun hm => by simp [State.memWf, State.memWf_haltAt, State.mem_setCore, State.mem_fetchAhead, hm]

@[simp] theorem execInterruptEntry_runs (c : Fin 3) (gone : Option (Fin 16)) (s : State) : Res.Runs s (execInterruptEntry c gone s) := by
  simp only [execInterruptEntry]
  repeat' split
  all_goals exact Res.runs_next fun hm => by simp [State.memWf, State.memWf_interrupt, State.mem_takeVector, State.mem_setCore, State.mem_fetchAhead, hm]

@[simp] theorem execGvAdd_runs (c : Fin 3) (rd ra rb : Fin 16) (s : State) : Res.Runs s (execGvAdd c rd ra rb s) := State.runs_op3 ..

@[simp] theorem execGvSub_runs (c : Fin 3) (rd ra rb : Fin 16) (s : State) : Res.Runs s (execGvSub c rd ra rb s) := State.runs_op3 ..

@[simp] theorem execGvAnd_runs (c : Fin 3) (rd ra rb : Fin 16) (s : State) : Res.Runs s (execGvAnd c rd ra rb s) := State.runs_op3 ..

@[simp] theorem execGvOr_runs (c : Fin 3) (rd ra rb : Fin 16) (s : State) : Res.Runs s (execGvOr c rd ra rb s) := State.runs_op3 ..

@[simp] theorem execGvXor_runs (c : Fin 3) (rd ra rb : Fin 16) (s : State) : Res.Runs s (execGvXor c rd ra rb s) := State.runs_op3 ..

@[simp] theorem execGvShl_runs (c : Fin 3) (rd ra rb : Fin 16) (s : State) : Res.Runs s (execGvShl c rd ra rb s) := State.runs_op3 ..

@[simp] theorem execGvShr_runs (c : Fin 3) (rd ra rb : Fin 16) (s : State) : Res.Runs s (execGvShr c rd ra rb s) := State.runs_op3 ..

@[simp] theorem execGvAsr_runs (c : Fin 3) (rd ra rb : Fin 16) (s : State) : Res.Runs s (execGvAsr c rd ra rb s) := State.runs_op3 ..

@[simp] theorem execGvMul_runs (c : Fin 3) (rd ra rb : Fin 16) (s : State) : Res.Runs s (execGvMul c rd ra rb s) := State.runs_unit3 ..

@[simp] theorem execGvMulhs_runs (c : Fin 3) (rd ra rb : Fin 16) (s : State) : Res.Runs s (execGvMulhs c rd ra rb s) := State.runs_unit3 ..

@[simp] theorem execGvMulhu_runs (c : Fin 3) (rd ra rb : Fin 16) (s : State) : Res.Runs s (execGvMulhu c rd ra rb s) := State.runs_unit3 ..

@[simp] theorem execGvDivs_runs (c : Fin 3) (rd ra rb : Fin 16) (s : State) : Res.Runs s (execGvDivs c rd ra rb s) := State.runs_unit3 ..

@[simp] theorem execGvDivu_runs (c : Fin 3) (rd ra rb : Fin 16) (s : State) : Res.Runs s (execGvDivu c rd ra rb s) := State.runs_unit3 ..

@[simp] theorem execGvRems_runs (c : Fin 3) (rd ra rb : Fin 16) (s : State) : Res.Runs s (execGvRems c rd ra rb s) := State.runs_unit3 ..

@[simp] theorem execGvRemu_runs (c : Fin 3) (rd ra rb : Fin 16) (s : State) : Res.Runs s (execGvRemu c rd ra rb s) := State.runs_unit3 ..

@[simp] theorem execGvAddi_runs (c : Fin 3) (rd ra : Fin 16) (imm : BitVec 18) (s : State) : Res.Runs s (execGvAddi c rd ra imm s) := State.runs_opImm ..

@[simp] theorem execGvAndi_runs (c : Fin 3) (rd ra : Fin 16) (imm : BitVec 18) (s : State) : Res.Runs s (execGvAndi c rd ra imm s) := State.runs_opImm ..

@[simp] theorem execGvOri_runs (c : Fin 3) (rd ra : Fin 16) (imm : BitVec 18) (s : State) : Res.Runs s (execGvOri c rd ra imm s) := State.runs_opImm ..

@[simp] theorem execGvXori_runs (c : Fin 3) (rd ra : Fin 16) (imm : BitVec 18) (s : State) : Res.Runs s (execGvXori c rd ra imm s) := State.runs_opImm ..

@[simp] theorem execGvShli_runs (c : Fin 3) (rd ra : Fin 16) (imm : BitVec 5) (s : State) : Res.Runs s (execGvShli c rd ra imm s) := State.runs_opImm ..

@[simp] theorem execGvShri_runs (c : Fin 3) (rd ra : Fin 16) (imm : BitVec 5) (s : State) : Res.Runs s (execGvShri c rd ra imm s) := State.runs_opImm ..

@[simp] theorem execGvAsri_runs (c : Fin 3) (rd ra : Fin 16) (imm : BitVec 5) (s : State) : Res.Runs s (execGvAsri c rd ra imm s) := State.runs_opImm ..

@[simp] theorem execGvMovi_runs (c : Fin 3) (rd : Fin 16) (imm : BitVec 18) (s : State) : Res.Runs s (execGvMovi c rd imm s) := State.runs_opImm ..

@[simp] theorem execGvLui_runs (c : Fin 3) (rd : Fin 16) (imm : BitVec 16) (s : State) : Res.Runs s (execGvLui c rd imm s) := State.runs_opImm ..

@[simp] theorem execGvLdw_runs (c : Fin 3) (rd ra : Fin 16) (imm : BitVec 18) (s : State) : Res.Runs s (execGvLdw c rd ra imm s) := State.runs_ld ..

@[simp] theorem execGvLdh_runs (c : Fin 3) (rd ra : Fin 16) (imm : BitVec 18) (s : State) : Res.Runs s (execGvLdh c rd ra imm s) := State.runs_ld ..

@[simp] theorem execGvLdhu_runs (c : Fin 3) (rd ra : Fin 16) (imm : BitVec 18) (s : State) : Res.Runs s (execGvLdhu c rd ra imm s) := State.runs_ld ..

@[simp] theorem execGvLdb_runs (c : Fin 3) (rd ra : Fin 16) (imm : BitVec 18) (s : State) : Res.Runs s (execGvLdb c rd ra imm s) := State.runs_ld ..

@[simp] theorem execGvLdbu_runs (c : Fin 3) (rd ra : Fin 16) (imm : BitVec 18) (s : State) : Res.Runs s (execGvLdbu c rd ra imm s) := State.runs_ld ..

@[simp] theorem execGvStw_runs (c : Fin 3) (rd ra : Fin 16) (imm : BitVec 18) (s : State) : Res.Runs s (execGvStw c rd ra imm s) := State.runs_st ..

@[simp] theorem execGvSth_runs (c : Fin 3) (rd ra : Fin 16) (imm : BitVec 18) (s : State) : Res.Runs s (execGvSth c rd ra imm s) := State.runs_st ..

@[simp] theorem execGvStb_runs (c : Fin 3) (rd ra : Fin 16) (imm : BitVec 18) (s : State) : Res.Runs s (execGvStb c rd ra imm s) := State.runs_st ..

@[simp] theorem execGvSwapAtomic_runs (c : Fin 3) (rd ra rb : Fin 16) (s : State) : Res.Runs s (execGvSwapAtomic c rd ra rb s) := State.runs_at3 ..

@[simp] theorem execGvCas_runs (c : Fin 3) (rd ra rb : Fin 16) (s : State) : Res.Runs s (execGvCas c rd ra rb s) := State.runs_at3 ..

@[simp] theorem execGvFadd_runs (c : Fin 3) (rd ra rb : Fin 16) (s : State) : Res.Runs s (execGvFadd c rd ra rb s) := State.runs_at3 ..

@[simp] theorem execGvFor_runs (c : Fin 3) (rd ra rb : Fin 16) (s : State) : Res.Runs s (execGvFor c rd ra rb s) := State.runs_at3 ..

@[simp] theorem execGvFandn_runs (c : Fin 3) (rd ra rb : Fin 16) (s : State) : Res.Runs s (execGvFandn c rd ra rb s) := State.runs_at3 ..

@[simp] theorem execGvBr_runs (c : Fin 3) (off : BitVec 26) (s : State) : Res.Runs s (execGvBr c off s) := State.runs_issue fun t ht => State.memWf_of_mem (State.mem_retire ..) ht

@[simp] theorem execGvCall_runs (c : Fin 3) (off : BitVec 26) (s : State) : Res.Runs s (execGvCall c off s) := State.runs_issue fun t ht => by
  dsimp only
  repeat' split
  all_goals simp [State.memWf, State.memWf_issue, State.mem_setCore, State.mem_retire, ht]

@[simp] theorem execGvJr_runs (c : Fin 3) (ra : Fin 16) (s : State) : Res.Runs s (execGvJr c ra s) := State.runs_issue fun t ht => State.memWf_of_mem (State.mem_retire ..) ht

@[simp] theorem execGvCallr_runs (c : Fin 3) (ra : Fin 16) (s : State) : Res.Runs s (execGvCallr c ra s) := State.runs_issue fun t ht => by
  dsimp only
  repeat' split
  all_goals simp [State.memWf, State.memWf_issue, State.mem_setCore, State.mem_retire, ht]

@[simp] theorem execGvRet_runs (c : Fin 3) (s : State) : Res.Runs s (execGvRet c s) := State.runs_issue fun t ht => State.memWf_of_mem (State.mem_retire ..) ht

@[simp] theorem execGvCsk_runs (c : Fin 3) (cc ra rb : Fin 16) (s : State) : Res.Runs s (execGvCsk c cc ra rb s) := State.runs_issue fun t ht => by
  dsimp only
  repeat' split
  all_goals simp [State.memWf, State.memWf_issue, State.mem_retire, ht]

@[simp] theorem execGvCski_runs (c : Fin 3) (cc ra : Fin 16) (imm : BitVec 18) (s : State) : Res.Runs s (execGvCski c cc ra imm s) := State.runs_issue fun t ht => State.memWf_of_mem (State.mem_retire ..) ht

@[simp] theorem execGvTbsk_runs (c : Fin 3) (ra : Fin 16) (bit : Fin 32) (set : Bool) (s : State) : Res.Runs s (execGvTbsk c ra bit set s) := State.runs_issue fun t ht => State.memWf_of_mem (State.mem_retire ..) ht

@[simp] theorem execGvBfx_runs (c : Fin 3) (rd ra : Fin 16) (pos wm1 : Fin 32) (signed : Bool) (s : State) : Res.Runs s (execGvBfx c rd ra pos wm1 signed s) := State.runs_opImm ..

@[simp] theorem execGvBfi_runs (c : Fin 3) (rd ra : Fin 16) (pos wm1 : Fin 32) (s : State) : Res.Runs s (execGvBfi c rd ra pos wm1 s) := State.runs_issue fun t ht => State.memWf_of_mem (State.mem_alter ..) ht

@[simp] theorem execGvClz_runs (c : Fin 3) (rd ra : Fin 16) (s : State) : Res.Runs s (execGvClz c rd ra s) := State.runs_opImm ..

@[simp] theorem execGvPerm_runs (c : Fin 3) (rd ra : Fin 16) (sel : BitVec 16) (s : State) : Res.Runs s (execGvPerm c rd ra sel s) := State.runs_issue fun t ht => State.memWf_of_mem (State.mem_alter ..) ht

@[simp] theorem execGvIsqrt_runs (c : Fin 3) (rd ra : Fin 16) (s : State) : Res.Runs s (execGvIsqrt c rd ra s) := State.runs_cop ..

@[simp] theorem execGvCrcw_runs (c : Fin 3) (rd ra rb : Fin 16) (s : State) : Res.Runs s (execGvCrcw c rd ra rb s) := State.runs_cop ..

@[simp] theorem execGvCrcb_runs (c : Fin 3) (rd ra rb : Fin 16) (s : State) : Res.Runs s (execGvCrcb c rd ra rb s) := State.runs_cop ..

@[simp] theorem execGvMfs_runs (c : Fin 3) (rd : Fin 16) (sreg : Fin 256) (s : State) : Res.Runs s (execGvMfs c rd sreg s) := State.runs_issue fun t ht => by
  dsimp only
  repeat' split
  all_goals simp [State.memWf, State.memWf_issue, State.mem_setBit, State.mem_put, State.mem_alter, ht]

@[simp] theorem execGvMts_runs (c : Fin 3) (sreg : Fin 256) (ra : Fin 16) (s : State) : Res.Runs s (execGvMts c sreg ra s) := State.runs_issue fun t ht => by
  dsimp only
  repeat' split
  all_goals simp [State.memWf, State.memWf_issue, State.mem_dtxSend, State.mem_retire, State.mem_alter, ht]

@[simp] theorem execGvFence_runs (c : Fin 3) (s : State) : Res.Runs s (execGvFence c s) := State.runs_issue fun t ht => by
  dsimp only
  repeat' split
  all_goals simp [State.memWf, State.memWf_issue, State.mem_retire, ht]

@[simp] theorem execGvIfence_runs (c : Fin 3) (s : State) : Res.Runs s (execGvIfence c s) := State.runs_issue fun t ht => by
  dsimp only
  repeat' split
  all_goals simp [State.memWf, State.memWf_issue, State.mem_setCore, State.mem_retire, ht]

@[simp] theorem execGvWait_runs (c : Fin 3) (s : State) : Res.Runs s (execGvWait c s) := State.runs_issue fun t ht => by
  dsimp only
  repeat' split
  all_goals simp [State.memWf, State.memWf_issue, State.mem_setCore, State.mem_retire, ht]

@[simp] theorem execGvDi_runs (c : Fin 3) (rd : Fin 16) (s : State) : Res.Runs s (execGvDi c rd s) := State.runs_issue fun t ht => by
  dsimp only
  repeat' split
  all_goals simp [State.memWf, State.memWf_issue, State.mem_put, State.mem_alter, ht]

@[simp] theorem execGvEi_runs (c : Fin 3) (s : State) : Res.Runs s (execGvEi c s) := State.runs_issue fun t ht => State.memWf_of_mem (State.mem_alter ..) ht

@[simp] theorem execGvSysc_runs (c : Fin 3) (code : BitVec 14) (s : State) : Res.Runs s (execGvSysc c code s) := State.runs_issue fun t ht => by
  dsimp only
  repeat' split
  all_goals simp [State.memWf, State.memWf_enter, State.memWf_issue, ht]

@[simp] theorem execGvBrk_runs (c : Fin 3) (code : BitVec 14) (s : State) : Res.Runs s (execGvBrk c code s) := State.runs_issue fun t ht => by
  dsimp only
  repeat' split
  all_goals simp [State.memWf, State.memWf_doubleFault, State.memWf_haltAt, State.memWf_issue, ht]

@[simp] theorem execGvReti_runs (c : Fin 3) (s : State) : Res.Runs s (execGvReti c s) := State.runs_issue fun t ht => by
  dsimp only
  repeat' split
  all_goals simp [State.memWf, State.memWf_issue, State.mem_setF, State.mem_completeIrq, State.mem_wdgRelease, State.mem_setCore, State.mem_stopNext, State.mem_frameWords, ht]

@[simp] theorem execMemoryScrubWord_runs (mem : Fin 6) (upset : Upset) (s : State) : Res.Runs s (execMemoryScrubWord mem upset s) := by
  unfold execMemoryScrubWord
  split
  · exact Res.runs_self _
  · exact Res.runs_keep (by simp)

@[simp] theorem execUeRestore_runs (s : State) : Res.Runs s (execUeRestore s) := by
  simp only [execUeRestore]
  repeat' split
  all_goals exact Res.runs_next fun hm => by simp [State.memWf, State.memWf_busWrite, State.mem_setBit, hm]

@[simp] theorem execDebugRead_runs (hop : Hop) (ok : Bool) (f : Frame) (s : State) : Res.Runs s (execDebugRead hop ok f s) := by
  unfold execDebugRead
  split
  · exact Res.runs_self _
  · exact Res.runs_next fun hm => by simp [State.memWf, State.memWf_debugFrame, hm]

@[simp] theorem execDebugWrite_runs (hop : Hop) (ok : Bool) (f : Frame) (s : State) : Res.Runs s (execDebugWrite hop ok f s) := by
  unfold execDebugWrite
  split
  · exact Res.runs_self _
  · exact Res.runs_next fun hm => by simp [State.memWf, State.memWf_debugFrame, hm]

@[simp] theorem execDebugChal_runs (hop : Hop) (ok : Bool) (f : Frame) (s : State) : Res.Runs s (execDebugChal hop ok f s) := by
  unfold execDebugChal
  split
  · exact Res.runs_self _
  · exact Res.runs_next fun hm => by simp [State.memWf, State.memWf_debugFrame, hm]

@[simp] theorem execDebugResp_runs (hop : Hop) (ok : Bool) (f : Frame) (s : State) : Res.Runs s (execDebugResp hop ok f s) := by
  unfold execDebugResp
  split
  · exact Res.runs_self _
  · exact Res.runs_next fun hm => by simp [State.memWf, State.memWf_debugFrame, hm]

@[simp] theorem execDebugVerify_runs (hop : Hop) (ok : Bool) (f : Frame) (s : State) : Res.Runs s (execDebugVerify hop ok f s) := by
  unfold execDebugVerify
  split
  · exact Res.runs_self _
  · exact Res.runs_next fun hm => by simp [State.memWf, State.memWf_debugFrame, hm]

@[simp] theorem execHi3cAddr_runs (cmd : Byte) (addr : List Byte) (s : State) : Res.Runs s (execHi3cAddr cmd addr s) := by
  refine Res.runs_keep (State.mem_hostServe _ (fun t => ?_) _)
  simp [State.mem_ite]

@[simp] theorem execHi3cWrite_runs (data : List Byte) (s : State) : Res.Runs s (execHi3cWrite data s) := by
  refine Res.runs_next fun hm => State.memWf_hostServe _ _ hm fun t ht => ?_
  dsimp only
  split
  · exact State.memWf_windowWrite _ _ (State.memWf_of_mem (State.mem_setWindow ..) ht)
  · exact ht

@[simp] theorem execHi3cMbwrite_runs (data : List Byte) (s : State) : Res.Runs s (execHi3cMbwrite data s) := by
  refine Res.runs_keep (State.mem_hostServe _ (fun t => ?_) _)
  dsimp only
  split
  · rfl
  · split
    · exact State.mem_raise0 ..
    · split
      · exact State.mem_placeMail ..
      · exact State.mem_raise0 ..

@[simp] theorem execHi3cMbread_runs (slot : Nat) (s : State) : Res.Runs s (execHi3cMbread slot s) := by
  refine Res.runs_keep (State.mem_hostServe _ (fun t => ?_) _)
  simp [State.mem_ite]

@[simp] theorem execHi3cPrivateRead_runs (debug : Bool) (n : Nat) (s : State) : Res.Runs s (execHi3cPrivateRead debug n s) := by
  unfold execHi3cPrivateRead
  split
  · refine Res.runs_keep (State.mem_hostServe _ (fun t => ?_) _)
    split <;> rfl
  · refine Res.runs_keep (State.mem_hostServe _ (fun t => ?_) _)
    dsimp only
    split
    · exact (State.mem_emit ..).trans (State.mem_messageRead ..)
    · exact (State.mem_emit ..).trans (State.mem_windowRead ..)

@[simp] theorem execHi3cDebugWrite_runs (data : List Byte) (s : State) : Res.Runs s (execHi3cDebugWrite data s) := Res.runs_next fun hm => State.memWf_hostServe _ _ hm fun t ht => State.memWf_debugRequest _ _ t ht

@[simp] theorem execSleepEntry_runs (t : Nat) (s : State) : Res.Runs s (execSleepEntry t s) := by
  simp only [execSleepEntry]
  repeat' split
  all_goals exact Res.runs_keep (by simp)

@[simp] theorem execWakeDone_runs (s : State) : Res.Runs s (execWakeDone s) := by
  unfold execWakeDone
  split
  · exact Res.runs_self _
  · extract_lets k ms s1 src s2 fired stat pads s3 s4 src5 s5
    have h2 : s2.mem = s.mem := rfl
    split
    · have h3 : s.memWf → s3.memWf := fun hm =>
        State.memWf_chipReset _ _ (State.memWf_zeroRange (State.memWf_zeroRange (State.memWf_zeroRange (State.memWf_of_mem h2 hm) _ _) _ _) _ _)
      refine Res.runs_next fun hm => State.memWf_of_mem (State.mem_foldl (fun t n => State.mem_arriveAwake ..) _ _) ?_
      exact h3 hm
    · have h5 : s5.mem = s2.mem := by
        unfold s5
        rw [State.mem_ite, State.mem_startBeam, State.mem_stopBeam, ite_self]
      refine Res.runs_keep ((?_ : State.mem _ = s5.mem).trans (h5.trans h2))
      rw [State.mem_ite, State.mem_wakePads, ite_self, State.mem_deliverWakes]

@[simp] theorem execFrameForward_runs (hop : Hop) (ok : Bool) (f : Frame) (s : State) : Res.Runs s (execFrameForward hop ok f s) := by
  unfold execFrameForward
  split
  · exact Res.runs_self _
  · split
    · exact execCensus_runs hop ok f s
    · exact Res.runs_next (State.memWf_frameArrives hop ok f s)

@[simp] theorem execEthernetFrame_runs (port : Fin 2) (fcs ok ptp : Bool) (dst etype size : Nat) (f : Frame) (s : State) : Res.Runs s (execEthernetFrame port fcs ok ptp dst etype size f s) := by
  simp only [execEthernetFrame]
  repeat' split
  all_goals exact Res.runs_next fun hm => by simp [State.memWf, State.memWf_frameArrives, State.mem_count, hm]

end Sys2Proof.Machine
end

section
/-! The statements on every command: that it completes, and that the memory stays canonical. -/

namespace Sys2Proof.Machine

/-- A command other than a UOP completes. -/
theorem exec_runs (c : Instr) (s : State) (h : ∀ k n rd ra rb imm, c ≠ .gvUop k n rd ra rb imm) : Res.Runs s (exec c s) := by
  cases c with
  | gvUop k n rd ra rb imm => exact absurd rfl (h k n rd ra rb imm)
  | sourceLost => exact execSourceLost_runs s
  | holdoverEntry => exact execHoldoverEntry_runs s
  | fsyncLoss => exact execFsyncLoss_runs s
  | ptpAnnounce domain a => exact execPtpAnnounce_runs domain a s
  | ptpSync domain source t1 t2 own rate => exact execPtpSync_runs domain source t1 t2 own rate s
  | ptpDelayReq t3 => exact execPtpDelayReq_runs t3 s
  | ptpDelayResp domain source t4 => exact execPtpDelayResp_runs domain source t4 s
  | ptpLoss => exact execPtpLoss_runs s
  | fsyncOutPulse sf => exact execFsyncOutPulse_runs sf s
  | fsyncOutEnd => exact execFsyncOutEnd_runs s
  | votecut sf => exact execVotecut_runs sf s
  | beamMarkSend sf line => exact execBeamMarkSend_runs sf line s
  | beamMark hop ok f own residence => exact execBeamMark_runs hop ok f own residence s
  | delayProbeSend hop t1 => exact execDelayProbeSend_runs hop t1 s
  | probe hop ok f t2 t3 => exact execProbe_runs hop ok f t2 t3 s
  | reply hop ok f t4 => exact execReply_runs hop ok f t4 s
  | vote hop ok f => exact execVote_runs hop ok f s
  | voteSend pos => exact execVoteSend_runs pos s
  | voteDecision => exact execVoteDecision_runs s
  | decision hop ok f => exact execDecision_runs hop ok f s
  | pairready hop ok f => exact execPairready_runs hop ok f s
  | eccWriteback word => exact execEccWriteback_runs word s
  | scrubWindow found => exact execScrubWindow_runs found s
  | ceWindowEnd => exact execCeWindowEnd_runs s
  | migrationStart => exact execMigrationStart_runs s
  | migrationCopy => exact execMigrationCopy_runs s
  | migrationDone => exact execMigrationDone_runs s
  | marchTestDone reads => exact execMarchTestDone_runs reads s
  | startupMarchDone reads => exact execStartupMarchDone_runs reads s
  | unitSend port => exact execUnitSend_runs port s
  | segmentFetch pair => exact execSegmentFetch_runs pair s
  | segmentLanded pair => exact execSegmentLanded_runs pair s
  | pnlCommandSend port => exact execPnlCommandSend_runs port s
  | gridPoint => exact execGridPoint_runs s
  | scanRowStep group => exact execScanRowStep_runs group s
  | swapCommand => exact execSwapCommand_runs s
  | storeExchange ripe => exact execStoreExchange_runs ripe s
  | scanoutPrefetch port row plane => exact execScanoutPrefetch_runs port row plane s
  | planeSlot port => exact execPlaneSlot_runs port s
  | blankStart => exact execBlankStart_runs s
  | blankEnd => exact execBlankEnd_runs s
  | rasterWrite => exact execRasterWrite_runs s
  | lineStart => exact execLineStart_runs s
  | lineComposed => exact execLineComposed_runs s
  | lateFenceDeadline slot => exact execLateFenceDeadline_runs slot s
  | laneCheckError lane => exact execLaneCheckError_runs lane s
  | laneErrorWindowEnd => exact execLaneErrorWindowEnd_runs s
  | engineFrameEntry e => exact execEngineFrameEntry_runs e s
  | engineOverrun e => exact execEngineOverrun_runs e s
  | beamWord e u => exact execBeamWord_runs e u s
  | beamWordV1 e u => exact execBeamWordV1_runs e u s
  | realtimeWaitEnd e pos => exact execRealtimeWaitEnd_runs e pos s
  | syncWaitEnd e pos => exact execSyncWaitEnd_runs e pos s
  | ldReturn e => exact execLdReturn_runs e s
  | queueStallEnd e => exact execQueueStallEnd_runs e s
  | beamStoreScrub u => exact execBeamStoreScrub_runs u s
  | voiceFetch v u => exact execVoiceFetch_runs v u s
  | zcTimeout o i => exact execZcTimeout_runs o i s
  | objectUpdate => exact execObjectUpdate_runs s
  | soundBlock => exact execSoundBlock_runs s
  | beamSample tdm => exact execBeamSample_runs tdm s
  | soundSamples hop ok f => exact execSoundSamples_runs hop ok f s
  | asrcLock conv => exact execAsrcLock_runs conv s
  | asrcUnlock conv => exact execAsrcUnlock_runs conv s
  | tdmFsEdge port count => exact execTdmFsEdge_runs port count s
  | tdmLost port => exact execTdmLost_runs port s
  | censusSend => exact execCensusSend_runs s
  | laneBlockLock hop lane => exact execLaneBlockLock_runs hop lane s
  | trainingTimeout hop => exact execTrainingTimeout_runs hop s
  | trainingVersionAlternate hop => exact execTrainingVersionAlternate_runs hop s
  | alignDone hop skewed => exact execAlignDone_runs hop skewed s
  | hello hop ok f => exact execHello_runs hop ok f s
  | keyx hop ok f sigOk peer => exact execKeyx_runs hop ok f sigOk peer s
  | keyRetry hop => exact execKeyRetry_runs hop s
  | lcbSend hop sent => exact execLcbSend_runs hop sent s
  | replayTimeout hop => exact execReplayTimeout_runs hop s
  | lcb hop block blocks => exact execLcb_runs hop block blocks s
  | lcbMiss hop => exact execLcbMiss_runs hop s
  | pirouetteConfirm port => exact execPirouetteConfirm_runs port s
  | turnaround port => exact execTurnaround_runs port s
  | ringstate hop ok f => exact execRingstate_runs hop ok f s
  | laneLost hop lane => exact execLaneLost_runs hop lane s
  | laneCrcWindowEnd port => exact execLaneCrcWindowEnd_runs port s
  | census hop ok f => exact execCensus_runs hop ok f s
  | sceneWrite hop ok f => exact execSceneWrite_runs hop ok f s
  | sceneFill hop ok f => exact execSceneFill_runs hop ok f s
  | planeSegment hop ok f => exact execPlaneSegment_runs hop ok f s
  | blkJobStart => exact execBlkJobStart_runs s
  | blkBurst => exact execBlkBurst_runs s
  | blkDeadEnd => exact execBlkDeadEnd_runs s
  | blkRowDone => exact execBlkRowDone_runs s
  | blkErrorStop => exact execBlkErrorStop_runs s
  | coalescerTimeout k => exact execCoalescerTimeout_runs k s
  | wakeSlotEvent k => exact execWakeSlotEvent_runs k s
  | timerTick n => exact execTimerTick_runs n s
  | timerMasterEvent n => exact execTimerMasterEvent_runs n s
  | timerCapture n => exact execTimerCapture_runs n s
  | wdgKeyTimeout w => exact execWdgKeyTimeout_runs w s
  | wdgWarning w => exact execWdgWarning_runs w s
  | descriptorFetch c => exact execDescriptorFetch_runs c s
  | descriptorComplete c => exact execDescriptorComplete_runs c s
  | powerOnReset => exact execPowerOnReset_runs s
  | resetN => exact execResetN_runs s
  | supplyOutOfRange => exact execSupplyOutOfRange_runs s
  | resetRelease => exact execResetRelease_runs s
  | xo32Start => exact execXo32Start_runs s
  | pllFLoss => exact execPllFLoss_runs s
  | clockResume => exact execClockResume_runs s
  | beamPllLoss => exact execBeamPllLoss_runs s
  | beamPllRelock => exact execBeamPllRelock_runs s
  | ref25Loss => exact execRef25Loss_runs s
  | ref25Return => exact execRef25Return_runs s
  | audioPllLoss => exact execAudioPllLoss_runs s
  | audioPllRelock => exact execAudioPllRelock_runs s
  | wakeStart => exact execWakeStart_runs s
  | wakePin => exact execWakePin_runs s
  | wdgExpiry w => exact execWdgExpiry_runs w s
  | lineConfirm => exact execLineConfirm_runs s
  | signatureDecided region => exact execSignatureDecided_runs region s
  | substitutionDone region => exact execSubstitutionDone_runs region s
  | swap line => exact execSwap_runs line s
  | frameHold lane => exact execFrameHold_runs lane s
  | commitGroupApply g => exact execCommitGroupApply_runs g s
  | commitMark => exact execCommitMark_runs s
  | beamStop => exact execBeamStop_runs s
  | frameStart sf => exact execFrameStart_runs sf s
  | beamStep pos => exact execBeamStep_runs pos s
  | fsyncEdge rising own rate => exact execFsyncEdge_runs rising own rate s
  | beamMatch n sf => exact execBeamMatch_runs n sf s
  | triggerFire n sf rep => exact execTriggerFire_runs n sf rep s
  | timedWrite pos => exact execTimedWrite_runs pos s
  | flashRead addr data => exact execFlashRead_runs addr data s
  | verifyDone sigOk badHash => exact execVerifyDone_runs sigOk badHash s
  | structureSetSwap peer => exact execStructureSetSwap_runs peer s
  | updateChunk hop ok f => exact execUpdateChunk_runs hop ok f s
  | loadDone hashOk sigOk => exact execLoadDone_runs hashOk sigOk s
  | tempConversion temps => exact execTempConversion_runs temps s
  | supplySample mv => exact execSupplySample_runs mv s
  | adcConversion code => exact execAdcConversion_runs code s
  | autoBrightness => exact execAutoBrightness_runs s
  | mail hop ok f => exact execMail_runs hop ok f s
  | mailSent slot => exact execMailSent_runs slot s
  | eventStore => exact execEventStore_runs s
  | rateLimitTick => exact execRateLimitTick_runs s
  | evrWindowLatch => exact execEvrWindowLatch_runs s
  | wipeDone => exact execWipeDone_runs s
  | secCommandDone ok => exact execSecCommandDone_runs ok s
  | tamperEvent in0 in1 => exact execTamperEvent_runs in0 in1 s
  | gpEdge n level => exact execGpEdge_runs n level s
  | pinSwitch => exact execPinSwitch_runs s
  | pinSwitchHoldEnd n level => exact execPinSwitchHoldEnd_runs n level s
  | matchPulseEnd n => exact execMatchPulseEnd_runs n s
  | pinLockTimeout => exact execPinLockTimeout_runs s
  | entdaa main debug => exact execEntdaa_runs main debug s
  | setdasa addr dyn => exact execSetdasa_runs addr dyn s
  | setnewda target addr => exact execSetnewda_runs target addr s
  | rstdaa => exact execRstdaa_runs s
  | enec target intr hj => exact execEnec_runs target intr hj s
  | disec target intr hj => exact execDisec_runs target intr hj s
  | setmwl target len => exact execSetmwl_runs target len s
  | setmrl target len => exact execSetmrl_runs target len s
  | getmwl target => exact execGetmwl_runs target s
  | getmrl target => exact execGetmrl_runs target s
  | getpid target => exact execGetpid_runs target s
  | getbcr target => exact execGetbcr_runs target s
  | getdcr target => exact execGetdcr_runs target s
  | getstatus target => exact execGetstatus_runs target s
  | getmxds target => exact execGetmxds_runs target s
  | enthdr0 => exact execEnthdr0_runs s
  | hdrExit => exact execHdrExit_runs s
  | rstact target action => exact execRstact_runs target action s
  | hi3cIbi alert => exact execHi3cIbi_runs alert s
  | hotJoin => exact execHotJoin_runs s
  | ci3cCommandDone resp count data => exact execCi3cCommandDone_runs resp count data s
  | ci3cIbi dev payload => exact execCi3cIbi_runs dev payload s
  | ci3cHotjoin => exact execCi3cHotjoin_runs s
  | xspiDone data => exact execXspiDone_runs data s
  | xspiPollRepeat => exact execXspiPollRepeat_runs s
  | xspiPollTimeout => exact execXspiPollTimeout_runs s
  | debugResponseTimeout => exact execDebugResponseTimeout_runs s
  | debugLockoutEnd => exact execDebugLockoutEnd_runs s
  | dbgVerifyDone ok => exact execDbgVerifyDone_runs ok s
  | ucodeLoadDone sigOk => exact execUcodeLoadDone_runs sigOk s
  | ucodeSwap quiesce => exact execUcodeSwap_runs quiesce s
  | ucodeMirrorDone => exact execUcodeMirrorDone_runs s
  | controlStoreRepair c word other entry => exact execControlStoreRepair_runs c word other entry s
  | controlStoreScrub found => exact execControlStoreScrub_runs found s
  | boot bootsel okA okB okStaged => exact execBoot_runs bootsel okA okB okStaged s
  | streamWindowUpdate port reqs => exact execStreamWindowUpdate_runs port reqs s
  | memoryAccess k bank u => exact execMemoryAccess_runs k bank u s
  | readReturn port => exact execReadReturn_runs port s
  | registerWrite m addr size v set => exact execRegisterWrite_runs m addr size v set s
  | rcRegisterRead m addr event => exact execRcRegisterRead_runs m addr event s
  | beamRun m subfm1 => exact execBeamRun_runs m subfm1 s
  | beamStopRequest m subfm1 => exact execBeamStopRequest_runs m subfm1 s
  | beamPosRead m => exact execBeamPosRead_runs m s
  | cotCommit m v => exact execCotCommit_runs m v s
  | mrcCepolWrite m v => exact execMrcCepolWrite_runs m v s
  | mrcReqPreserving m bank => exact execMrcReqPreserving_runs m bank s
  | mrcReqDestroying m bank => exact execMrcReqDestroying_runs m bank s
  | qdlEnable m => exact execQdlEnable_runs m s
  | qdlDisable m => exact execQdlDisable_runs m s
  | layerFenceSignal m slot => exact execLayerFenceSignal_runs m slot s
  | qdlLanepolWrite m v => exact execQdlLanepolWrite_runs m v s
  | engineFaultClear m e => exact execEngineFaultClear_runs m e s
  | gflagSet m v => exact execGflagSet_runs m v s
  | gflagClear m v => exact execGflagClear_runs m v s
  | beamStoreWrite m addr v => exact execBeamStoreWrite_runs m addr v s
  | blankRequest m v => exact execBlankRequest_runs m v s
  | pnlCmdCfg m => exact execPnlCmdCfg_runs m s
  | pnlCmdGain m data => exact execPnlCmdGain_runs m data s
  | pnlCmdUser m data => exact execPnlCmdUser_runs m data s
  | pnlMapdata m write v => exact execPnlMapdata_runs m write v s
  | pavaneRequest m v => exact execPavaneRequest_runs m v s
  | pavaneExitRequest m v => exact execPavaneExitRequest_runs m v s
  | keyOn m n v => exact execKeyOn_runs m n v s
  | keyOff m n v => exact execKeyOff_runs m n v s
  | nodeWrite m v => exact execNodeWrite_runs m v s
  | biquadCoefWrite m o k v => exact execBiquadCoefWrite_runs m o k v s
  | sndKloRead m => exact execSndKloRead_runs m s
  | objMute m v => exact execObjMute_runs m v s
  | akethEpolWrite m port v => exact execAkethEpolWrite_runs m port v s
  | akethRetrain m port => exact execAkethRetrain_runs m port s
  | akethLaneRetry m port => exact execAkethLaneRetry_runs m port s
  | akethRekey m port => exact execAkethRekey_runs m port s
  | reelGo m v trig => exact execReelGo_runs m v trig s
  | reelAbort m v start done => exact execReelAbort_runs m v start done s
  | blkPush m v => exact execBlkPush_runs m v s
  | blkGo m v trig => exact execBlkGo_runs m v trig s
  | blkErrorClear m v => exact execBlkErrorClear_runs m v s
  | irqRaise m v => exact execIrqRaise_runs m v s
  | irqClr m v => exact execIrqClr_runs m v s
  | irqFbWrite m src v => exact execIrqFbWrite_runs m src v s
  | irqCoalCfgWrite m k v => exact execIrqCoalCfgWrite_runs m k v s
  | tmrCntRead m n => exact execTmrCntRead_runs m n s
  | tmrCntWrite m n v => exact execTmrCntWrite_runs m n v s
  | tmrCmpWrite m n v tick => exact execTmrCmpWrite_runs m n v tick s
  | tmrCapRead m n edge => exact execTmrCapRead_runs m n edge s
  | wdgEnable m w v => exact execWdgEnable_runs m w v s
  | wdgKey m w v => exact execWdgKey_runs m w v s
  | pllRevert m v relocked => exact execPllRevert_runs m v relocked s
  | clkSwrst m v => exact execClkSwrst_runs m v s
  | gvRelease m v => exact execGvRelease_runs m v s
  | clkUploRead m => exact execClkUploRead_runs m s
  | verify m src => exact execVerify_runs m src s
  | ssverify m => exact execSsverify_runs m s
  | imgCmdSwap m brk => exact execImgCmdSwap_runs m brk s
  | cancel m => exact execCancel_runs m s
  | load m src => exact execLoad_runs m src s
  | imgSessionWrite m base v => exact execImgSessionWrite_runs m base v s
  | imgUcload m v => exact execImgUcload_runs m v s
  | imgUcswap m v => exact execImgUcswap_runs m v s
  | mgtMbinrel m v => exact execMgtMbinrel_runs m v s
  | mgtMbsend m v => exact execMgtMbsend_runs m v s
  | mgtHsnap m v => exact execMgtHsnap_runs m v s
  | evrTimeWrite m pcyc v => exact execEvrTimeWrite_runs m pcyc v s
  | evrCurctl m v => exact execEvrCurctl_runs m v s
  | evrWin7Read m => exact execEvrWin7Read_runs m s
  | evrLogGo m t v => exact execEvrLogGo_runs m t v s
  | lcadv m => exact execLcadv_runs m s
  | ownkey m => exact execOwnkey_runs m s
  | revoke m => exact execRevoke_runs m s
  | dbgkey m => exact execDbgkey_runs m s
  | svnset m => exact execSvnset_runs m s
  | fleetload m => exact execFleetload_runs m s
  | fleetzero m => exact execFleetzero_runs m s
  | dbgdrop m => exact execDbgdrop_runs m s
  | secTclr m v => exact execSecTclr_runs m v s
  | dbgChal m level => exact execDbgChal_runs m level s
  | dbgVerify m => exact execDbgVerify_runs m s
  | dbgHalt m c => exact execDbgHalt_runs m c s
  | dbgRun m c => exact execDbgRun_runs m c s
  | dbgRegdata m c write v => exact execDbgRegdata_runs m c write v s
  | dbgLdata m c write v => exact execDbgLdata_runs m c write v s
  | dbgDrxWrite m c v => exact execDbgDrxWrite_runs m c v s
  | dbgTxfullAck m c => exact execDbgTxfullAck_runs m c s
  | pinRelease m => exact execPinRelease_runs m s
  | pinLock m v => exact execPinLock_runs m v s
  | ci3cPrivateWrite m v => exact execCi3cPrivateWrite_runs m v s
  | ci3cPrivateRead m v => exact execCi3cPrivateRead_runs m v s
  | ci3cBroadcastCcc m v => exact execCi3cBroadcastCcc_runs m v s
  | ci3cDirectCcc m v => exact execCi3cDirectCcc_runs m v s
  | ci3cEntdaa m v => exact execCi3cEntdaa_runs m v s
  | ci3cHdrWrite m v => exact execCi3cHdrWrite_runs m v s
  | ci3cHdrRead m v => exact execCi3cHdrRead_runs m v s
  | ci3cI2cWrite m v => exact execCi3cI2cWrite_runs m v s
  | ci3cI2cRead m v => exact execCi3cI2cRead_runs m v s
  | ci3cRxdRead m ibiq => exact execCi3cRxdRead_runs m ibiq s
  | xspiCommand m v => exact execXspiCommand_runs m v s
  | xspiPoll m v => exact execXspiPoll_runs m v s
  | xspiData m write v => exact execXspiData_runs m write v s
  | xspiFlush m => exact execXspiFlush_runs m s
  | reelBeat port upset => exact execReelBeat_runs port upset s
  | reelBeatResponse c => exact execReelBeatResponse_runs c s
  | unitDelivered port => exact execUnitDelivered_runs port s
  | loadResult c rd => exact execLoadResult_runs c rd s
  | storeResponse c => exact execStoreResponse_runs c s
  | accessTimeout m addr write => exact execAccessTimeout_runs m addr write s
  | atomicResponse c => exact execAtomicResponse_runs c s
  | lockedAccessWithdraw c => exact execLockedAccessWithdraw_runs c s
  | exceptionEntry c => exact execExceptionEntry_runs c s
  | halt c => exact execHalt_runs c s
  | interruptEntry c gone => exact execInterruptEntry_runs c gone s
  | gvAdd c rd ra rb => exact execGvAdd_runs c rd ra rb s
  | gvSub c rd ra rb => exact execGvSub_runs c rd ra rb s
  | gvAnd c rd ra rb => exact execGvAnd_runs c rd ra rb s
  | gvOr c rd ra rb => exact execGvOr_runs c rd ra rb s
  | gvXor c rd ra rb => exact execGvXor_runs c rd ra rb s
  | gvShl c rd ra rb => exact execGvShl_runs c rd ra rb s
  | gvShr c rd ra rb => exact execGvShr_runs c rd ra rb s
  | gvAsr c rd ra rb => exact execGvAsr_runs c rd ra rb s
  | gvMul c rd ra rb => exact execGvMul_runs c rd ra rb s
  | gvMulhs c rd ra rb => exact execGvMulhs_runs c rd ra rb s
  | gvMulhu c rd ra rb => exact execGvMulhu_runs c rd ra rb s
  | gvDivs c rd ra rb => exact execGvDivs_runs c rd ra rb s
  | gvDivu c rd ra rb => exact execGvDivu_runs c rd ra rb s
  | gvRems c rd ra rb => exact execGvRems_runs c rd ra rb s
  | gvRemu c rd ra rb => exact execGvRemu_runs c rd ra rb s
  | gvAddi c rd ra imm => exact execGvAddi_runs c rd ra imm s
  | gvAndi c rd ra imm => exact execGvAndi_runs c rd ra imm s
  | gvOri c rd ra imm => exact execGvOri_runs c rd ra imm s
  | gvXori c rd ra imm => exact execGvXori_runs c rd ra imm s
  | gvShli c rd ra imm => exact execGvShli_runs c rd ra imm s
  | gvShri c rd ra imm => exact execGvShri_runs c rd ra imm s
  | gvAsri c rd ra imm => exact execGvAsri_runs c rd ra imm s
  | gvMovi c rd imm => exact execGvMovi_runs c rd imm s
  | gvLui c rd imm => exact execGvLui_runs c rd imm s
  | gvLdw c rd ra imm => exact execGvLdw_runs c rd ra imm s
  | gvLdh c rd ra imm => exact execGvLdh_runs c rd ra imm s
  | gvLdhu c rd ra imm => exact execGvLdhu_runs c rd ra imm s
  | gvLdb c rd ra imm => exact execGvLdb_runs c rd ra imm s
  | gvLdbu c rd ra imm => exact execGvLdbu_runs c rd ra imm s
  | gvStw c rd ra imm => exact execGvStw_runs c rd ra imm s
  | gvSth c rd ra imm => exact execGvSth_runs c rd ra imm s
  | gvStb c rd ra imm => exact execGvStb_runs c rd ra imm s
  | gvSwapAtomic c rd ra rb => exact execGvSwapAtomic_runs c rd ra rb s
  | gvCas c rd ra rb => exact execGvCas_runs c rd ra rb s
  | gvFadd c rd ra rb => exact execGvFadd_runs c rd ra rb s
  | gvFor c rd ra rb => exact execGvFor_runs c rd ra rb s
  | gvFandn c rd ra rb => exact execGvFandn_runs c rd ra rb s
  | gvBr c off => exact execGvBr_runs c off s
  | gvCall c off => exact execGvCall_runs c off s
  | gvJr c ra => exact execGvJr_runs c ra s
  | gvCallr c ra => exact execGvCallr_runs c ra s
  | gvRet c => exact execGvRet_runs c s
  | gvCsk c cc ra rb => exact execGvCsk_runs c cc ra rb s
  | gvCski c cc ra imm => exact execGvCski_runs c cc ra imm s
  | gvTbsk c ra bit set => exact execGvTbsk_runs c ra bit set s
  | gvBfx c rd ra pos wm1 signed => exact execGvBfx_runs c rd ra pos wm1 signed s
  | gvBfi c rd ra pos wm1 => exact execGvBfi_runs c rd ra pos wm1 s
  | gvClz c rd ra => exact execGvClz_runs c rd ra s
  | gvPerm c rd ra sel => exact execGvPerm_runs c rd ra sel s
  | gvIsqrt c rd ra => exact execGvIsqrt_runs c rd ra s
  | gvCrcw c rd ra rb => exact execGvCrcw_runs c rd ra rb s
  | gvCrcb c rd ra rb => exact execGvCrcb_runs c rd ra rb s
  | gvMfs c rd sreg => exact execGvMfs_runs c rd sreg s
  | gvMts c sreg ra => exact execGvMts_runs c sreg ra s
  | gvFence c => exact execGvFence_runs c s
  | gvIfence c => exact execGvIfence_runs c s
  | gvWait c => exact execGvWait_runs c s
  | gvDi c rd => exact execGvDi_runs c rd s
  | gvEi c => exact execGvEi_runs c s
  | gvSysc c code => exact execGvSysc_runs c code s
  | gvBrk c code => exact execGvBrk_runs c code s
  | gvReti c => exact execGvReti_runs c s
  | memoryScrubWord mem upset => exact execMemoryScrubWord_runs mem upset s
  | ueRestore => exact execUeRestore_runs s
  | debugRead hop ok f => exact execDebugRead_runs hop ok f s
  | debugWrite hop ok f => exact execDebugWrite_runs hop ok f s
  | debugChal hop ok f => exact execDebugChal_runs hop ok f s
  | debugResp hop ok f => exact execDebugResp_runs hop ok f s
  | debugVerify hop ok f => exact execDebugVerify_runs hop ok f s
  | hi3cAddr cmd addr => exact execHi3cAddr_runs cmd addr s
  | hi3cWrite data => exact execHi3cWrite_runs data s
  | hi3cMbwrite data => exact execHi3cMbwrite_runs data s
  | hi3cMbread slot => exact execHi3cMbread_runs slot s
  | hi3cPrivateRead debug n => exact execHi3cPrivateRead_runs debug n s
  | hi3cDebugWrite data => exact execHi3cDebugWrite_runs data s
  | sleepEntry t => exact execSleepEntry_runs t s
  | wakeDone => exact execWakeDone_runs s
  | frameForward hop ok f => exact execFrameForward_runs hop ok f s
  | ethernetFrame port fcs ok ptp dst etype size f => exact execEthernetFrame_runs port fcs ok ptp dst etype size f s

/-- What holds of a state that has met no more than an interrupt, and of the instruction's own effect at a boundary, holds of an instruction. -/
theorem State.issueRes_induct {P : Res → Prop} {c : Nat} {w : Word} {f : State → Res} {s : State} (hwait : ∀ t : State, (s.memWf → t.memWf) → P (.next t))
    (hrun : s.boundary c = true → P (f (s.fetchAhead c))) : P (s.issueRes c w f) := by
  have ht : s.memWf → (s.fetchAhead c).memWf := State.memWf_of_mem (State.mem_fetchAhead ..)
  unfold State.issueRes
  split
  · exact hwait s id
  · rename_i hb
    have hrun := hrun (by simpa using hb)
    generalize s.fetchAhead c = t at ht hrun
    dsimp only
    split
    · exact hwait s id
    · split
      · exact hwait _ fun hm => State.memWf_takeDue _ _ t (ht hm)
      · split
        · exact hwait s id
        · exact hrun

theorem execGvUop_cases (c : Fin 3) (n : Fin 64) (rd ra rb : Fin 16) (imm : BitVec 8) (s : State) :
    Res.Runs s (execGvUop c n rd ra rb imm s) ∨ (s.boundary c.val = true ∧ execGvUop c n rd ra rb imm s = .refused .vendorMicroword) := by
  unfold execGvUop
  refine State.issueRes_induct (P := fun r => Res.Runs s r ∨ (s.boundary c.val = true ∧ r = .refused .vendorMicroword)) (fun t h => .inl ⟨t, rfl, h⟩) fun hb => ?_
  have hrun (u : UopArgs) : s.memWf → ((s.fetchAhead c.val).microRun c.val u 19 (Micro.start (0x3800 + 32 * n.val))).memWf := fun hm =>
    State.memWf_microRun c.val u _ _ _ (State.memWf_of_mem (State.mem_fetchAhead ..) hm)
  split
  next v e => exact .inl (Res.runs_next fun hm => by have h := hrun ⟨rd.val, ra.val, rb.val, wd imm.toNat, (s.core c.val).pc⟩ hm; rwa [e] at h)
  next m v e => exact .inl (Res.runs_next fun hm => by have h := hrun ⟨rd.val, ra.val, rb.val, wd imm.toNat, (s.core c.val).pc⟩ hm; rwa [e] at h)
  next => exact .inr ⟨hb, rfl⟩

/-- Settles O59: each command's own lemma answers a next state; a UOP's routine ends, or comes to a word that the vendor does not publish. -/
theorem everyCommandCompletes : Obligations.EveryCommandCompletes := by
  intro c s
  by_cases h : ∃ k n rd ra rb imm, c = .gvUop k n rd ra rb imm
  · obtain ⟨k, n, rd, ra, rb, imm, rfl⟩ := h
    rcases execGvUop_cases k n rd ra rb imm s with ⟨t, ht, -⟩ | ⟨hb, hr⟩
    · exact .inl ⟨t, ht⟩
    · exact .inr ⟨k, n, rd, ra, rb, imm, rfl, hb, hr⟩
  · obtain ⟨t, ht, -⟩ := exec_runs c s (by simpa using h)
    exact .inl ⟨t, ht⟩

/-- A command that answers a next state keeps the memory canonical. -/
theorem exec_memWf {c : Instr} {s t : State} (h : s.memWf) (e : exec c s = .next t) : t.memWf := by
  have key {r : Res} (hr : Res.Runs s r) (e : r = .next t) : t.memWf := by
    obtain ⟨u, rfl, hu⟩ := hr
    cases e
    exact hu h
  by_cases hc : ∃ k n rd ra rb imm, c = .gvUop k n rd ra rb imm
  · obtain ⟨k, n, rd, ra, rb, imm, rfl⟩ := hc
    rcases execGvUop_cases k n rd ra rb imm s with hr | ⟨-, hr⟩
    · exact key hr e
    · cases hr.symm.trans e
  · exact key (exec_runs c s (by simpa using hc)) e

/-- Settles O60: every operation that writes the memory keeps it canonical, and each command's lemma collects the operations the command is made of. -/
theorem stepsKeepMemoryCanonical : Obligations.StepsKeepMemoryCanonical := by
  intro s t h e
  unfold step at e
  split at e
  next =>
    cases e
    rwa [State.mem_tick]
  next c rest _ =>
    have h' : State.memWf { s with pending := rest } := h
    exact exec_memWf h' e

end Sys2Proof.Machine
end

section
/-! What an arrival, an event and a status bit leave: all but registers, the recorder, the interrupt controller and the wake. -/

namespace Sys2Proof.Machine

/-- `t` is `s` but for registers, the recorder, the interrupt controller and the wake that an arrival starts. -/
def Told (s t : State) : Prop := ∃ regs evr irq w, t = { s with regs := regs, evr := evr, irq := irq, pwr := { s.pwr with waking := w } }

theorem Told.refl (s : State) : Told s s := ⟨s.regs, s.evr, s.irq, s.pwr.waking, rfl⟩

theorem Told.trans {s t u : State} (h : Told s t) (k : Told t u) : Told s u := by
  obtain ⟨_, _, _, _, rfl⟩ := h
  obtain ⟨regs, evr, irq, w, rfl⟩ := k
  exact ⟨regs, evr, irq, w, rfl⟩

theorem Told.setReg (s : State) (a : Nat) (v : Word) : Told s (s.setReg a v) := ⟨_, s.evr, s.irq, s.pwr.waking, rfl⟩

theorem Told.foldl {α : Type} {f : State → α → State} (hf : ∀ t x, Told t (f t x)) (l : List α) (s : State) : Told s (l.foldl f s) := by
  induction l generalizing s with
  | nil => exact .refl s
  | cons x xs ih => exact (hf s x).trans (ih _)

theorem State.told_arriveAt (n : Nat) (s : State) : Told s (s.arriveAt n) := by
  unfold State.arriveAt
  dsimp only
  split
  · exact .setReg ..
  · split <;> exact .setReg ..

theorem State.told_arrive (n : Nat) (s : State) : Told s (s.arrive n) := by
  unfold State.arrive
  split
  · unfold State.arriveAwake
    split
    · exact s.told_arriveAt n
    · dsimp only
      split
      · exact s.told_arriveAt n
      · split
        · exact (Told.setReg ..).trans (((Told.setReg ..).trans (.setReg ..)).trans (State.told_arriveAt ..))
        · exact .setReg ..
  · split
    · exact .refl s
    · exact Told.foldl (fun t k => ⟨_, t.evr, _, true, rfl⟩) _ s

theorem State.told_enqueueEvent (code sev : Nat) (a0 a1 a2 a3 : Word) (s : State) : Told s (s.enqueueEvent code sev a0 a1 a2 a3) := by
  unfold State.enqueueEvent
  split
  · exact ⟨s.regs, _, s.irq, s.pwr.waking, rfl⟩
  · exact Told.trans ⟨_, _, s.irq, s.pwr.waking, rfl⟩ (State.told_arrive ..)

theorem State.told_logEvent (code : Nat) (a0 a1 a2 a3 : Word) (s : State) : Told s (s.logEvent code a0 a1 a2 a3) := State.told_enqueueEvent ..

theorem State.told_raise (r : StatReg) (bit : Nat) (a0 a2 a3 : Word) (s : State) : Told s (s.raise r bit a0 a2 a3) := by
  unfold State.raise
  dsimp only
  have harr : ∀ u, Told s u → Told s (match r.src with | some n => u.arrive n | none => u) := by
    intro u hu
    split
    · exact hu.trans (State.told_arrive ..)
    · exact hu
  apply harr
  split
  · exact (Told.setReg ..).trans (State.told_logEvent ..)
  · exact .setReg ..

theorem State.told_raise0 (r : StatReg) (bit : Nat) (s : State) : Told s (s.raise0 r bit) := State.told_raise ..

theorem Told.beam {s t : State} (h : Told s t) : t.beam = s.beam := by obtain ⟨_, _, _, _, rfl⟩ := h; rfl
theorem Told.fab {s t : State} (h : Told s t) : t.fab = s.fab := by obtain ⟨_, _, _, _, rfl⟩ := h; rfl
theorem Told.qdl {s t : State} (h : Told s t) : t.qdl = s.qdl := by obtain ⟨_, _, _, _, rfl⟩ := h; rfl
theorem Told.mnt {s t : State} (h : Told s t) : t.mnt = s.mnt := by obtain ⟨_, _, _, _, rfl⟩ := h; rfl
theorem Told.pnl {s t : State} (h : Told s t) : t.pnl = s.pnl := by obtain ⟨_, _, _, _, rfl⟩ := h; rfl
theorem Told.sig {s t : State} (h : Told s t) : t.sig = s.sig := by obtain ⟨_, _, _, _, rfl⟩ := h; rfl
theorem Told.snd {s t : State} (h : Told s t) : t.snd = s.snd := by obtain ⟨_, _, _, _, rfl⟩ := h; rfl
theorem Told.obj {s t : State} (h : Told s t) : t.obj = s.obj := by obtain ⟨_, _, _, _, rfl⟩ := h; rfl
theorem Told.link {s t : State} (h : Told s t) : t.link = s.link := by obtain ⟨_, _, _, _, rfl⟩ := h; rfl
theorem Told.gv {s t : State} (h : Told s t) : t.gv = s.gv := by obtain ⟨_, _, _, _, rfl⟩ := h; rfl
theorem Told.blk {s t : State} (h : Told s t) : t.blk = s.blk := by obtain ⟨_, _, _, _, rfl⟩ := h; rfl
theorem Told.reel {s t : State} (h : Told s t) : t.reel = s.reel := by obtain ⟨_, _, _, _, rfl⟩ := h; rfl
theorem Told.img {s t : State} (h : Told s t) : t.img = s.img := by obtain ⟨_, _, _, _, rfl⟩ := h; rfl
theorem Told.mgt {s t : State} (h : Told s t) : t.mgt = s.mgt := by obtain ⟨_, _, _, _, rfl⟩ := h; rfl
theorem Told.sec {s t : State} (h : Told s t) : t.sec = s.sec := by obtain ⟨_, _, _, _, rfl⟩ := h; rfl
theorem Told.dbg {s t : State} (h : Told s t) : t.dbg = s.dbg := by obtain ⟨_, _, _, _, rfl⟩ := h; rfl
theorem Told.pin {s t : State} (h : Told s t) : t.pin = s.pin := by obtain ⟨_, _, _, _, rfl⟩ := h; rfl
theorem Told.hi3c {s t : State} (h : Told s t) : t.hi3c = s.hi3c := by obtain ⟨_, _, _, _, rfl⟩ := h; rfl
theorem Told.ci3c {s t : State} (h : Told s t) : t.ci3c = s.ci3c := by obtain ⟨_, _, _, _, rfl⟩ := h; rfl
theorem Told.xspi {s t : State} (h : Told s t) : t.xspi = s.xspi := by obtain ⟨_, _, _, _, rfl⟩ := h; rfl
theorem Told.pending {s t : State} (h : Told s t) : t.pending = s.pending := by obtain ⟨_, _, _, _, rfl⟩ := h; rfl
theorem Told.out {s t : State} (h : Told s t) : t.out = s.out := by obtain ⟨_, _, _, _, rfl⟩ := h; rfl
theorem Told.answer {s t : State} (h : Told s t) : t.answer = s.answer := by obtain ⟨_, _, _, _, rfl⟩ := h; rfl
theorem Told.fresh {s t : State} (h : Told s t) : t.fresh = s.fresh := by obtain ⟨_, _, _, _, rfl⟩ := h; rfl
theorem Told.shadow {s t : State} (h : Told s t) : t.shadow = s.shadow := by obtain ⟨_, _, _, _, rfl⟩ := h; rfl
theorem Told.latched {s t : State} (h : Told s t) : t.latched = s.latched := by obtain ⟨_, _, _, _, rfl⟩ := h; rfl

@[simp] theorem State.beam_arrive (n : Nat) (s : State) : (s.arrive n).beam = s.beam := (s.told_arrive n).beam
@[simp] theorem State.fab_arrive (n : Nat) (s : State) : (s.arrive n).fab = s.fab := (s.told_arrive n).fab
@[simp] theorem State.qdl_arrive (n : Nat) (s : State) : (s.arrive n).qdl = s.qdl := (s.told_arrive n).qdl
@[simp] theorem State.mnt_arrive (n : Nat) (s : State) : (s.arrive n).mnt = s.mnt := (s.told_arrive n).mnt
@[simp] theorem State.pnl_arrive (n : Nat) (s : State) : (s.arrive n).pnl = s.pnl := (s.told_arrive n).pnl
@[simp] theorem State.sig_arrive (n : Nat) (s : State) : (s.arrive n).sig = s.sig := (s.told_arrive n).sig
@[simp] theorem State.snd_arrive (n : Nat) (s : State) : (s.arrive n).snd = s.snd := (s.told_arrive n).snd
@[simp] theorem State.obj_arrive (n : Nat) (s : State) : (s.arrive n).obj = s.obj := (s.told_arrive n).obj
@[simp] theorem State.link_arrive (n : Nat) (s : State) : (s.arrive n).link = s.link := (s.told_arrive n).link
@[simp] theorem State.gv_arrive (n : Nat) (s : State) : (s.arrive n).gv = s.gv := (s.told_arrive n).gv
@[simp] theorem State.blk_arrive (n : Nat) (s : State) : (s.arrive n).blk = s.blk := (s.told_arrive n).blk
@[simp] theorem State.reel_arrive (n : Nat) (s : State) : (s.arrive n).reel = s.reel := (s.told_arrive n).reel
@[simp] theorem State.img_arrive (n : Nat) (s : State) : (s.arrive n).img = s.img := (s.told_arrive n).img
@[simp] theorem State.mgt_arrive (n : Nat) (s : State) : (s.arrive n).mgt = s.mgt := (s.told_arrive n).mgt
@[simp] theorem State.sec_arrive (n : Nat) (s : State) : (s.arrive n).sec = s.sec := (s.told_arrive n).sec
@[simp] theorem State.dbg_arrive (n : Nat) (s : State) : (s.arrive n).dbg = s.dbg := (s.told_arrive n).dbg
@[simp] theorem State.pin_arrive (n : Nat) (s : State) : (s.arrive n).pin = s.pin := (s.told_arrive n).pin
@[simp] theorem State.hi3c_arrive (n : Nat) (s : State) : (s.arrive n).hi3c = s.hi3c := (s.told_arrive n).hi3c
@[simp] theorem State.ci3c_arrive (n : Nat) (s : State) : (s.arrive n).ci3c = s.ci3c := (s.told_arrive n).ci3c
@[simp] theorem State.xspi_arrive (n : Nat) (s : State) : (s.arrive n).xspi = s.xspi := (s.told_arrive n).xspi
@[simp] theorem State.pending_arrive (n : Nat) (s : State) : (s.arrive n).pending = s.pending := (s.told_arrive n).pending
@[simp] theorem State.out_arrive (n : Nat) (s : State) : (s.arrive n).out = s.out := (s.told_arrive n).out
@[simp] theorem State.answer_arrive (n : Nat) (s : State) : (s.arrive n).answer = s.answer := (s.told_arrive n).answer
@[simp] theorem State.fresh_arrive (n : Nat) (s : State) : (s.arrive n).fresh = s.fresh := (s.told_arrive n).fresh
@[simp] theorem State.shadow_arrive (n : Nat) (s : State) : (s.arrive n).shadow = s.shadow := (s.told_arrive n).shadow
@[simp] theorem State.latched_arrive (n : Nat) (s : State) : (s.arrive n).latched = s.latched := (s.told_arrive n).latched

@[simp] theorem State.beam_logEvent (code : Nat) (a0 a1 a2 a3 : Word) (s : State) : (s.logEvent code a0 a1 a2 a3).beam = s.beam := (s.told_logEvent code a0 a1 a2 a3).beam
@[simp] theorem State.fab_logEvent (code : Nat) (a0 a1 a2 a3 : Word) (s : State) : (s.logEvent code a0 a1 a2 a3).fab = s.fab := (s.told_logEvent code a0 a1 a2 a3).fab
@[simp] theorem State.qdl_logEvent (code : Nat) (a0 a1 a2 a3 : Word) (s : State) : (s.logEvent code a0 a1 a2 a3).qdl = s.qdl := (s.told_logEvent code a0 a1 a2 a3).qdl
@[simp] theorem State.mnt_logEvent (code : Nat) (a0 a1 a2 a3 : Word) (s : State) : (s.logEvent code a0 a1 a2 a3).mnt = s.mnt := (s.told_logEvent code a0 a1 a2 a3).mnt
@[simp] theorem State.pnl_logEvent (code : Nat) (a0 a1 a2 a3 : Word) (s : State) : (s.logEvent code a0 a1 a2 a3).pnl = s.pnl := (s.told_logEvent code a0 a1 a2 a3).pnl
@[simp] theorem State.sig_logEvent (code : Nat) (a0 a1 a2 a3 : Word) (s : State) : (s.logEvent code a0 a1 a2 a3).sig = s.sig := (s.told_logEvent code a0 a1 a2 a3).sig
@[simp] theorem State.snd_logEvent (code : Nat) (a0 a1 a2 a3 : Word) (s : State) : (s.logEvent code a0 a1 a2 a3).snd = s.snd := (s.told_logEvent code a0 a1 a2 a3).snd
@[simp] theorem State.obj_logEvent (code : Nat) (a0 a1 a2 a3 : Word) (s : State) : (s.logEvent code a0 a1 a2 a3).obj = s.obj := (s.told_logEvent code a0 a1 a2 a3).obj
@[simp] theorem State.link_logEvent (code : Nat) (a0 a1 a2 a3 : Word) (s : State) : (s.logEvent code a0 a1 a2 a3).link = s.link := (s.told_logEvent code a0 a1 a2 a3).link
@[simp] theorem State.gv_logEvent (code : Nat) (a0 a1 a2 a3 : Word) (s : State) : (s.logEvent code a0 a1 a2 a3).gv = s.gv := (s.told_logEvent code a0 a1 a2 a3).gv
@[simp] theorem State.blk_logEvent (code : Nat) (a0 a1 a2 a3 : Word) (s : State) : (s.logEvent code a0 a1 a2 a3).blk = s.blk := (s.told_logEvent code a0 a1 a2 a3).blk
@[simp] theorem State.reel_logEvent (code : Nat) (a0 a1 a2 a3 : Word) (s : State) : (s.logEvent code a0 a1 a2 a3).reel = s.reel := (s.told_logEvent code a0 a1 a2 a3).reel
@[simp] theorem State.img_logEvent (code : Nat) (a0 a1 a2 a3 : Word) (s : State) : (s.logEvent code a0 a1 a2 a3).img = s.img := (s.told_logEvent code a0 a1 a2 a3).img
@[simp] theorem State.mgt_logEvent (code : Nat) (a0 a1 a2 a3 : Word) (s : State) : (s.logEvent code a0 a1 a2 a3).mgt = s.mgt := (s.told_logEvent code a0 a1 a2 a3).mgt
@[simp] theorem State.sec_logEvent (code : Nat) (a0 a1 a2 a3 : Word) (s : State) : (s.logEvent code a0 a1 a2 a3).sec = s.sec := (s.told_logEvent code a0 a1 a2 a3).sec
@[simp] theorem State.dbg_logEvent (code : Nat) (a0 a1 a2 a3 : Word) (s : State) : (s.logEvent code a0 a1 a2 a3).dbg = s.dbg := (s.told_logEvent code a0 a1 a2 a3).dbg
@[simp] theorem State.pin_logEvent (code : Nat) (a0 a1 a2 a3 : Word) (s : State) : (s.logEvent code a0 a1 a2 a3).pin = s.pin := (s.told_logEvent code a0 a1 a2 a3).pin
@[simp] theorem State.hi3c_logEvent (code : Nat) (a0 a1 a2 a3 : Word) (s : State) : (s.logEvent code a0 a1 a2 a3).hi3c = s.hi3c := (s.told_logEvent code a0 a1 a2 a3).hi3c
@[simp] theorem State.ci3c_logEvent (code : Nat) (a0 a1 a2 a3 : Word) (s : State) : (s.logEvent code a0 a1 a2 a3).ci3c = s.ci3c := (s.told_logEvent code a0 a1 a2 a3).ci3c
@[simp] theorem State.xspi_logEvent (code : Nat) (a0 a1 a2 a3 : Word) (s : State) : (s.logEvent code a0 a1 a2 a3).xspi = s.xspi := (s.told_logEvent code a0 a1 a2 a3).xspi
@[simp] theorem State.pending_logEvent (code : Nat) (a0 a1 a2 a3 : Word) (s : State) : (s.logEvent code a0 a1 a2 a3).pending = s.pending := (s.told_logEvent code a0 a1 a2 a3).pending
@[simp] theorem State.out_logEvent (code : Nat) (a0 a1 a2 a3 : Word) (s : State) : (s.logEvent code a0 a1 a2 a3).out = s.out := (s.told_logEvent code a0 a1 a2 a3).out
@[simp] theorem State.answer_logEvent (code : Nat) (a0 a1 a2 a3 : Word) (s : State) : (s.logEvent code a0 a1 a2 a3).answer = s.answer := (s.told_logEvent code a0 a1 a2 a3).answer
@[simp] theorem State.fresh_logEvent (code : Nat) (a0 a1 a2 a3 : Word) (s : State) : (s.logEvent code a0 a1 a2 a3).fresh = s.fresh := (s.told_logEvent code a0 a1 a2 a3).fresh
@[simp] theorem State.shadow_logEvent (code : Nat) (a0 a1 a2 a3 : Word) (s : State) : (s.logEvent code a0 a1 a2 a3).shadow = s.shadow := (s.told_logEvent code a0 a1 a2 a3).shadow
@[simp] theorem State.latched_logEvent (code : Nat) (a0 a1 a2 a3 : Word) (s : State) : (s.logEvent code a0 a1 a2 a3).latched = s.latched := (s.told_logEvent code a0 a1 a2 a3).latched

@[simp] theorem State.beam_raise (r : StatReg) (bit : Nat) (a0 a2 a3 : Word) (s : State) : (s.raise r bit a0 a2 a3).beam = s.beam := (s.told_raise r bit a0 a2 a3).beam
@[simp] theorem State.fab_raise (r : StatReg) (bit : Nat) (a0 a2 a3 : Word) (s : State) : (s.raise r bit a0 a2 a3).fab = s.fab := (s.told_raise r bit a0 a2 a3).fab
@[simp] theorem State.qdl_raise (r : StatReg) (bit : Nat) (a0 a2 a3 : Word) (s : State) : (s.raise r bit a0 a2 a3).qdl = s.qdl := (s.told_raise r bit a0 a2 a3).qdl
@[simp] theorem State.mnt_raise (r : StatReg) (bit : Nat) (a0 a2 a3 : Word) (s : State) : (s.raise r bit a0 a2 a3).mnt = s.mnt := (s.told_raise r bit a0 a2 a3).mnt
@[simp] theorem State.pnl_raise (r : StatReg) (bit : Nat) (a0 a2 a3 : Word) (s : State) : (s.raise r bit a0 a2 a3).pnl = s.pnl := (s.told_raise r bit a0 a2 a3).pnl
@[simp] theorem State.sig_raise (r : StatReg) (bit : Nat) (a0 a2 a3 : Word) (s : State) : (s.raise r bit a0 a2 a3).sig = s.sig := (s.told_raise r bit a0 a2 a3).sig
@[simp] theorem State.snd_raise (r : StatReg) (bit : Nat) (a0 a2 a3 : Word) (s : State) : (s.raise r bit a0 a2 a3).snd = s.snd := (s.told_raise r bit a0 a2 a3).snd
@[simp] theorem State.obj_raise (r : StatReg) (bit : Nat) (a0 a2 a3 : Word) (s : State) : (s.raise r bit a0 a2 a3).obj = s.obj := (s.told_raise r bit a0 a2 a3).obj
@[simp] theorem State.link_raise (r : StatReg) (bit : Nat) (a0 a2 a3 : Word) (s : State) : (s.raise r bit a0 a2 a3).link = s.link := (s.told_raise r bit a0 a2 a3).link
@[simp] theorem State.gv_raise (r : StatReg) (bit : Nat) (a0 a2 a3 : Word) (s : State) : (s.raise r bit a0 a2 a3).gv = s.gv := (s.told_raise r bit a0 a2 a3).gv
@[simp] theorem State.blk_raise (r : StatReg) (bit : Nat) (a0 a2 a3 : Word) (s : State) : (s.raise r bit a0 a2 a3).blk = s.blk := (s.told_raise r bit a0 a2 a3).blk
@[simp] theorem State.reel_raise (r : StatReg) (bit : Nat) (a0 a2 a3 : Word) (s : State) : (s.raise r bit a0 a2 a3).reel = s.reel := (s.told_raise r bit a0 a2 a3).reel
@[simp] theorem State.img_raise (r : StatReg) (bit : Nat) (a0 a2 a3 : Word) (s : State) : (s.raise r bit a0 a2 a3).img = s.img := (s.told_raise r bit a0 a2 a3).img
@[simp] theorem State.mgt_raise (r : StatReg) (bit : Nat) (a0 a2 a3 : Word) (s : State) : (s.raise r bit a0 a2 a3).mgt = s.mgt := (s.told_raise r bit a0 a2 a3).mgt
@[simp] theorem State.sec_raise (r : StatReg) (bit : Nat) (a0 a2 a3 : Word) (s : State) : (s.raise r bit a0 a2 a3).sec = s.sec := (s.told_raise r bit a0 a2 a3).sec
@[simp] theorem State.dbg_raise (r : StatReg) (bit : Nat) (a0 a2 a3 : Word) (s : State) : (s.raise r bit a0 a2 a3).dbg = s.dbg := (s.told_raise r bit a0 a2 a3).dbg
@[simp] theorem State.pin_raise (r : StatReg) (bit : Nat) (a0 a2 a3 : Word) (s : State) : (s.raise r bit a0 a2 a3).pin = s.pin := (s.told_raise r bit a0 a2 a3).pin
@[simp] theorem State.hi3c_raise (r : StatReg) (bit : Nat) (a0 a2 a3 : Word) (s : State) : (s.raise r bit a0 a2 a3).hi3c = s.hi3c := (s.told_raise r bit a0 a2 a3).hi3c
@[simp] theorem State.ci3c_raise (r : StatReg) (bit : Nat) (a0 a2 a3 : Word) (s : State) : (s.raise r bit a0 a2 a3).ci3c = s.ci3c := (s.told_raise r bit a0 a2 a3).ci3c
@[simp] theorem State.xspi_raise (r : StatReg) (bit : Nat) (a0 a2 a3 : Word) (s : State) : (s.raise r bit a0 a2 a3).xspi = s.xspi := (s.told_raise r bit a0 a2 a3).xspi
@[simp] theorem State.pending_raise (r : StatReg) (bit : Nat) (a0 a2 a3 : Word) (s : State) : (s.raise r bit a0 a2 a3).pending = s.pending := (s.told_raise r bit a0 a2 a3).pending
@[simp] theorem State.out_raise (r : StatReg) (bit : Nat) (a0 a2 a3 : Word) (s : State) : (s.raise r bit a0 a2 a3).out = s.out := (s.told_raise r bit a0 a2 a3).out
@[simp] theorem State.answer_raise (r : StatReg) (bit : Nat) (a0 a2 a3 : Word) (s : State) : (s.raise r bit a0 a2 a3).answer = s.answer := (s.told_raise r bit a0 a2 a3).answer
@[simp] theorem State.fresh_raise (r : StatReg) (bit : Nat) (a0 a2 a3 : Word) (s : State) : (s.raise r bit a0 a2 a3).fresh = s.fresh := (s.told_raise r bit a0 a2 a3).fresh
@[simp] theorem State.shadow_raise (r : StatReg) (bit : Nat) (a0 a2 a3 : Word) (s : State) : (s.raise r bit a0 a2 a3).shadow = s.shadow := (s.told_raise r bit a0 a2 a3).shadow
@[simp] theorem State.latched_raise (r : StatReg) (bit : Nat) (a0 a2 a3 : Word) (s : State) : (s.raise r bit a0 a2 a3).latched = s.latched := (s.told_raise r bit a0 a2 a3).latched

@[simp] theorem State.beam_raise0 (r : StatReg) (bit : Nat) (s : State) : (s.raise0 r bit).beam = s.beam := (s.told_raise0 r bit).beam
@[simp] theorem State.fab_raise0 (r : StatReg) (bit : Nat) (s : State) : (s.raise0 r bit).fab = s.fab := (s.told_raise0 r bit).fab
@[simp] theorem State.qdl_raise0 (r : StatReg) (bit : Nat) (s : State) : (s.raise0 r bit).qdl = s.qdl := (s.told_raise0 r bit).qdl
@[simp] theorem State.mnt_raise0 (r : StatReg) (bit : Nat) (s : State) : (s.raise0 r bit).mnt = s.mnt := (s.told_raise0 r bit).mnt
@[simp] theorem State.pnl_raise0 (r : StatReg) (bit : Nat) (s : State) : (s.raise0 r bit).pnl = s.pnl := (s.told_raise0 r bit).pnl
@[simp] theorem State.sig_raise0 (r : StatReg) (bit : Nat) (s : State) : (s.raise0 r bit).sig = s.sig := (s.told_raise0 r bit).sig
@[simp] theorem State.snd_raise0 (r : StatReg) (bit : Nat) (s : State) : (s.raise0 r bit).snd = s.snd := (s.told_raise0 r bit).snd
@[simp] theorem State.obj_raise0 (r : StatReg) (bit : Nat) (s : State) : (s.raise0 r bit).obj = s.obj := (s.told_raise0 r bit).obj
@[simp] theorem State.link_raise0 (r : StatReg) (bit : Nat) (s : State) : (s.raise0 r bit).link = s.link := (s.told_raise0 r bit).link
@[simp] theorem State.gv_raise0 (r : StatReg) (bit : Nat) (s : State) : (s.raise0 r bit).gv = s.gv := (s.told_raise0 r bit).gv
@[simp] theorem State.blk_raise0 (r : StatReg) (bit : Nat) (s : State) : (s.raise0 r bit).blk = s.blk := (s.told_raise0 r bit).blk
@[simp] theorem State.reel_raise0 (r : StatReg) (bit : Nat) (s : State) : (s.raise0 r bit).reel = s.reel := (s.told_raise0 r bit).reel
@[simp] theorem State.img_raise0 (r : StatReg) (bit : Nat) (s : State) : (s.raise0 r bit).img = s.img := (s.told_raise0 r bit).img
@[simp] theorem State.mgt_raise0 (r : StatReg) (bit : Nat) (s : State) : (s.raise0 r bit).mgt = s.mgt := (s.told_raise0 r bit).mgt
@[simp] theorem State.sec_raise0 (r : StatReg) (bit : Nat) (s : State) : (s.raise0 r bit).sec = s.sec := (s.told_raise0 r bit).sec
@[simp] theorem State.dbg_raise0 (r : StatReg) (bit : Nat) (s : State) : (s.raise0 r bit).dbg = s.dbg := (s.told_raise0 r bit).dbg
@[simp] theorem State.pin_raise0 (r : StatReg) (bit : Nat) (s : State) : (s.raise0 r bit).pin = s.pin := (s.told_raise0 r bit).pin
@[simp] theorem State.hi3c_raise0 (r : StatReg) (bit : Nat) (s : State) : (s.raise0 r bit).hi3c = s.hi3c := (s.told_raise0 r bit).hi3c
@[simp] theorem State.ci3c_raise0 (r : StatReg) (bit : Nat) (s : State) : (s.raise0 r bit).ci3c = s.ci3c := (s.told_raise0 r bit).ci3c
@[simp] theorem State.xspi_raise0 (r : StatReg) (bit : Nat) (s : State) : (s.raise0 r bit).xspi = s.xspi := (s.told_raise0 r bit).xspi
@[simp] theorem State.pending_raise0 (r : StatReg) (bit : Nat) (s : State) : (s.raise0 r bit).pending = s.pending := (s.told_raise0 r bit).pending
@[simp] theorem State.out_raise0 (r : StatReg) (bit : Nat) (s : State) : (s.raise0 r bit).out = s.out := (s.told_raise0 r bit).out
@[simp] theorem State.answer_raise0 (r : StatReg) (bit : Nat) (s : State) : (s.raise0 r bit).answer = s.answer := (s.told_raise0 r bit).answer
@[simp] theorem State.fresh_raise0 (r : StatReg) (bit : Nat) (s : State) : (s.raise0 r bit).fresh = s.fresh := (s.told_raise0 r bit).fresh
@[simp] theorem State.shadow_raise0 (r : StatReg) (bit : Nat) (s : State) : (s.raise0 r bit).shadow = s.shadow := (s.told_raise0 r bit).shadow
@[simp] theorem State.latched_raise0 (r : StatReg) (bit : Nat) (s : State) : (s.raise0 r bit).latched = s.latched := (s.told_raise0 r bit).latched

end Sys2Proof.Machine
end

section
/-! Beam lock: how the lock state, the phase error and the beam follow marks and references (R52 to R58, Table 2.3). -/

namespace Sys2Proof.Machine

/-! Registers beside a status bit. -/

/-- The interrupt of a status register is one of the 256 sources. -/
def StatReg.known (r : StatReg) : Bool := r.src.all fun n => decide (n < 256)

theorem StatReg.src_lt {r : StatReg} (h : r.known = true) (n : Nat) (hn : r.src = some n) : n < 256 := by
  simpa [StatReg.known, hn] using h

theorem State.reg_raise_ne (s : State) {r : StatReg} {a : Nat} (bit : Nat) (a0 a2 a3 : Word) (hne : a ≠ r.addr) (ha : ¬ eventReg a) (h : r.known = true) :
    (s.raise r bit a0 a2 a3).reg a = s.reg a :=
  State.raise_reg s r bit a0 a2 a3 hne ha (StatReg.src_lt h)

theorem State.reg_raise0_ne (s : State) {r : StatReg} {a : Nat} (bit : Nat) (hne : a ≠ r.addr) (ha : ¬ eventReg a) (h : r.known = true) :
    (s.raise0 r bit).reg a = s.reg a :=
  s.reg_raise_ne bit 0 0 0 hne ha h

theorem State.bit_raise0_same (s : State) {r : StatReg} {bit : Nat} (hb : bit < 32) (ha : ¬ eventReg r.addr) (h : r.known = true) :
    (s.raise0 r bit).bit r.addr bit = true :=
  State.raise_bit s r 0 0 0 hb ha (StatReg.src_lt h)

theorem State.bit_raise0_ne (s : State) {r : StatReg} {bit i : Nat} (hi : i ≠ bit) (ha : ¬ eventReg r.addr) (h : r.known = true) :
    (s.raise0 r bit).bit r.addr i = s.bit r.addr i := by
  rw [(State.raise0_noted s r bit (StatReg.src_lt h)).bit ha]
  exact State.bit_setBit_ne s _ _ hi

/-! The station's status register. -/

theorem State.wstat_raise (s : State) {bit : Nat} (hb : bit < 32) : (s.raise0 stBEAMW bit).bit Reg.BEAM_WSTAT bit = true :=
  s.bit_raise0_same (r := stBEAMW) hb (by decide) (by decide)

theorem State.wstat_raise_ne (s : State) {bit i : Nat} (h : i ≠ bit) : (s.raise0 stBEAMW bit).bit Reg.BEAM_WSTAT i = s.bit Reg.BEAM_WSTAT i :=
  s.bit_raise0_ne (r := stBEAMW) h (by decide) (by decide)

@[simp] theorem State.lockstat_raise (s : State) (bit : Nat) : (s.raise0 stBEAMW bit).reg Reg.BEAM_LOCKSTAT = s.reg Reg.BEAM_LOCKSTAT :=
  s.reg_raise0_ne bit (by decide) (by decide) (by decide)

/-! The lock state (R54). -/

theorem State.lock_of_reg {s t : State} (h : t.reg Reg.BEAM_LOCKSTAT = s.reg Reg.BEAM_LOCKSTAT) : t.lock = s.lock := State.f_of_reg h 1 0

@[simp] theorem State.lock_raise0 (s : State) (bit : Nat) : (s.raise0 stBEAMW bit).lock = s.lock := State.lock_of_reg (s.lockstat_raise bit)

theorem State.f_setBit_reg_ne (s : State) {a c : Nat} (h : c ≠ a) (i : Nat) (b : Bool) (hi lo : Nat) : (s.setBit a i b).f c hi lo = s.f c hi lo :=
  State.f_of_reg (s.reg_setBit_ne h i b) hi lo

theorem State.f_setF_out (s : State) (a : Nat) {hi lo v hi' lo' : Nat} (h : hi' < lo ∨ hi < lo') (hlo : lo ≤ hi + 1) :
    (s.setF a hi lo v).f a hi' lo' = s.f a hi' lo' := by
  simp only [State.f, State.setF, State.reg_setReg_same]
  exact fld_setFld_out _ h hlo

@[simp] theorem State.lock_setLock (s : State) {st : Nat} : (s.setLock st).lock = st % 4 := by
  unfold State.lock State.setLock
  rw [State.f_setBit_reg_ne _ (by decide)]
  exact State.f_setF_same _ _ (by decide)

theorem State.reg_setLock_ne (s : State) {st a : Nat} (h1 : a ≠ Reg.BEAM_LOCKSTAT) (h2 : a ≠ Reg.BEAM_CTRL) : (s.setLock st).reg a = s.reg a := by
  unfold State.setLock
  rw [State.reg_setBit_ne _ h2, State.reg_setF_ne _ h1]

@[simp] theorem State.beam_setLock (s : State) (st : Nat) : (s.setLock st).beam = s.beam := rfl
@[simp] theorem State.mnt_setLock (s : State) (st : Nat) : (s.setLock st).mnt = s.mnt := rfl

/-- The loss of a reference leaves all but the lock state and its status bit. -/
@[simp] theorem State.beam_loseReference (s : State) : s.loseReference.beam = s.beam := by
  unfold State.loseReference
  split <;> simp

theorem State.lock_loseReference (s : State) : (s.lock = 2 → s.loseReference.lock = 3) ∧ (s.lock = 1 → s.loseReference.lock = 0) := by
  constructor <;> intro h <;> simp [State.loseReference, h]

/-- A status bit stands after the loss of a reference, and in LOCKED HOLDOVER is shown. -/
theorem State.wstat_loseReference (s : State) {i : Nat} (h : s.bit Reg.BEAM_WSTAT i = true) : s.loseReference.bit Reg.BEAM_WSTAT i = true := by
  have hlock (st : Nat) : (s.setLock st).bit Reg.BEAM_WSTAT i = s.bit Reg.BEAM_WSTAT i :=
    State.bit_of_reg (s.reg_setLock_ne (by decide) (by decide)) i
  unfold State.loseReference
  split
  · by_cases hi : i = 4
    · subst hi
      exact State.wstat_raise _ (by decide)
    · rw [State.wstat_raise_ne _ hi, hlock, h]
  · rw [hlock, h]
  · exact h

theorem State.holdover_loseReference {s : State} (h : s.lock = 2) : s.loseReference.bit Reg.BEAM_WSTAT 4 = true := by
  simp only [State.loseReference, h]
  exact State.wstat_raise _ (by decide)

/-! Marks and reference events (R52, R55). -/

@[simp] theorem State.mnt_fields_setFrame (s : State) (n : Nat) : (s.setFrame n).mnt.fsync = s.mnt.fsync := rfl

theorem State.regs_setFrame (s : State) (n : Nat) : (s.setFrame n).regs = s.regs := rfl

/-- What a reference event leaves of the beam's state: all but the lock's own counts and the frame number. -/
structure Aligned (s t : State) : Prop where
  corr : t.reg Reg.BEAM_CORR = s.reg Reg.BEAM_CORR
  rate : t.beam.srcRate = s.beam.srcRate
  best : t.beam.ptpBest = s.beam.ptpBest
  t1 : t.beam.ptpT1 = s.beam.ptpT1
  t2 : t.beam.ptpT2 = s.beam.ptpT2
  fsync : t.mnt.fsync = s.mnt.fsync

theorem Aligned.refl (s : State) : Aligned s s := ⟨rfl, rfl, rfl, rfl, rfl, rfl⟩

theorem Aligned.trans {s t u : State} (h : Aligned s t) (k : Aligned t u) : Aligned s u :=
  ⟨k.corr.trans h.corr, k.rate.trans h.rate, k.best.trans h.best, k.t1.trans h.t1, k.t2.trans h.t2, k.fsync.trans h.fsync⟩

theorem Aligned.setLock (s : State) (st : Nat) : Aligned s (s.setLock st) :=
  ⟨s.reg_setLock_ne (by decide) (by decide), rfl, rfl, rfl, rfl, rfl⟩

theorem Aligned.enterLocked (s : State) : Aligned s s.enterLocked := by
  unfold State.enterLocked
  dsimp only
  split
  · exact .setLock s 2
  · exact (Aligned.setLock s 2).trans ⟨State.reg_congr (State.regs_setFrame ..) _, rfl, rfl, rfl, rfl, rfl⟩

/-- A reference event shows its phase error, and leaves FREE and HOLDOVER for ACQUIRE. -/
theorem State.aligned_lockEvent (err : Int) (s : State) :
    Aligned s (s.lockEvent err) ∧ (s.lockEvent err).reg Reg.BEAM_PHERR = wi err ∧ (s.lock = 0 → (s.lockEvent err).lock = 1) := by
  have hset (st : Nat) (t : State) : (t.setLock st).reg Reg.BEAM_PHERR = t.reg Reg.BEAM_PHERR := t.reg_setLock_ne (by decide) (by decide)
  have hown : Aligned s (s.setReg Reg.BEAM_PHERR (wi err)) := ⟨s.reg_setReg_ne (by decide) _, rfl, rfl, rfl, rfl, rfl⟩
  have hlock : (s.setReg Reg.BEAM_PHERR (wi err)).lock = s.lock := State.lock_of_reg (s.reg_setReg_ne (by decide) _)
  have hper : (s.setReg Reg.BEAM_PHERR (wi err)).reg Reg.BEAM_PHERR = wi err := s.reg_setReg_same _ _
  unfold State.lockEvent
  generalize s.setReg Reg.BEAM_PHERR (wi err) = t at hown hlock hper
  have hbeam (b : BeamSt) (hr : b.srcRate = t.beam.srcRate) (hb : b.ptpBest = t.beam.ptpBest) (h1 : b.ptpT1 = t.beam.ptpT1) (h2 : b.ptpT2 = t.beam.ptpT2) :
      Aligned s { t with beam := b } := hown.trans ⟨rfl, hr, hb, h1, h2, rfl⟩
  dsimp only
  split
  · rename_i h1
    have h0 : s.lock ≠ 0 := by omega
    split
    · split
      · refine ⟨Aligned.trans ?_ (.enterLocked _), ?_, fun h => absurd h h0⟩
        · exact hbeam _ rfl rfl rfl rfl
        · unfold State.enterLocked
          dsimp only
          split
          · rw [hset]
            exact hper
          · rw [State.reg_congr (State.regs_setFrame ..), hset]
            exact hper
      · exact ⟨hbeam _ rfl rfl rfl rfl, hper, fun h => absurd h h0⟩
    · exact ⟨hbeam _ rfl rfl rfl rfl, hper, fun h => absurd h h0⟩
  · rename_i h2
    have h0 : s.lock ≠ 0 := by omega
    split
    · refine ⟨Aligned.trans ?_ (.setLock _ 1), (hset ..).trans hper, fun h => absurd h h0⟩
      exact hbeam _ rfl rfl rfl rfl
    · exact ⟨hbeam _ rfl rfl rfl rfl, hper, fun h => absurd h h0⟩
  · refine ⟨Aligned.trans ?_ (.setLock _ 1), (hset ..).trans hper, fun _ => by simp⟩
    exact hbeam _ rfl rfl rfl rfl

/-- A reference within the capture range is taken with its rate. -/
theorem State.takeReference_near {rate : Int} (err : Int) (s : State) (h : absI rate ≤ 1000000) :
    (s.takeReference rate err).reg Reg.BEAM_PHERR = wi err ∧ (s.takeReference rate err).beam.srcRate = rate := by
  have hn : ¬ absI rate > 1000000 := by omega
  simp only [State.takeReference, hn, if_false]
  obtain ⟨ha, hp, -⟩ := State.aligned_lockEvent err ((({ s with beam := { s.beam with srcRate := rate } } : State)).setF Reg.BEAM_LOCKSTAT 3 2 3)
  exact ⟨hp, ha.rate⟩

/-- What is no part of a reference stands after one. -/
theorem State.takeReference_keeps (rate err : Int) (s : State) : (s.takeReference rate err).beam.ptpT1 = s.beam.ptpT1 ∧
    (s.takeReference rate err).beam.ptpT2 = s.beam.ptpT2 ∧ (s.takeReference rate err).mnt.fsync = s.mnt.fsync := by
  unfold State.takeReference
  split
  · simp
  · obtain ⟨ha, -, -⟩ := State.aligned_lockEvent err ((({ s with beam := { s.beam with srcRate := rate } } : State)).setF Reg.BEAM_LOCKSTAT 3 2 3)
    exact ⟨ha.t1, ha.t2, ha.fsync⟩

/-- A mark within the capture range is used (R52, R54, R55). -/
theorem State.useMark_near {m : Mark} (h : Hop) (own : Int) (s : State) (hm : absI m.rate ≤ 1000000) :
    (s.useMark h m own).reg Reg.BEAM_CORR = wd m.corr ∧ (s.useMark h m own).beam.srcRate = m.rate ∧ (s.lock = 0 → (s.useMark h m own).lock = 1) := by
  have hn : ¬ absI m.rate > 1000000 := by omega
  unfold State.useMark
  rw [if_neg hn]
  extract_lets s1 old s2 src s3 src4 s4 dly
  have hcorr1 : s1.reg Reg.BEAM_CORR = wd m.corr := by
    unfold s1
    rw [State.reg_setF_ne _ (by decide), State.reg_setBit_ne _ (by decide), State.reg_setReg_same]
  have hlock1 : s1.lock = s.lock := by
    unfold s1 State.lock
    rw [State.f_setF_out _ _ (by decide) (by decide)]
    simp only [State.f, State.setBit, State.reg_setReg_same]
    rw [fld_putBit_out _ _ (by decide), State.reg_setReg_ne _ (by decide)]
  have hcorr2 : s2.reg Reg.BEAM_CORR = wd m.corr := (State.reg_setF_ne _ (by decide) _ _ _).trans hcorr1
  have hlock2 : s2.lock = s.lock := (State.f_setF_out _ _ (by decide) (by decide)).trans hlock1
  have h3 : s3.reg Reg.BEAM_CORR = wd m.corr ∧ s3.lock = s.lock := by
    unfold s3 src
    split
    · refine ⟨?_, ?_⟩
      · rw [State.reg_raise0_ne _ _ (by decide) (by decide) (by decide)]
        exact hcorr2
      · rw [State.lock_raise0]
        exact hlock2
    · exact ⟨hcorr2, hlock2⟩
  obtain ⟨ha, -, hl⟩ := State.aligned_lockEvent (wrapAround s4.framePs (own - ((s4.posPs m.pos : Int) + m.corr + dly))) s4
  exact ⟨ha.corr.trans h3.1, ha.rate, fun h0 => hl (h3.2.trans h0)⟩

end Sys2Proof.Machine
end

section
/-! The statements on marks, PTP, sources of beam time and the wall's vote. -/

namespace Sys2Proof.Machine

/-! A record that a hop does not take is only counted there. -/

theorem execBeamMark_refused {h : Hop} {ok : Bool} {f : Frame} {own : Int} {r : Nat} {s u : State} (hf : s.frozen = false)
    (h0 : s.takeRecord 0 h ok f = (false, u)) : exec (.beamMark h ok f own r) s = .next u := by
  show execBeamMark h ok f own r s = _
  simp [execBeamMark, hf, h0]

/-- What becomes of a mark that the hop takes (R50, R52). -/
theorem execBeamMark_taken {h : Hop} {ok : Bool} {f : Frame} {own : Int} {r : Nat} {s u n v w : State} (hf : s.frozen = false)
    (h0 : s.takeRecord 0 h ok f = (true, u)) (hn : n = u.noteHops h (some f.mark.hops)) (hv : v = if n.sourceHop = some h then n.useMark h f.mark own else n)
    (hw : w = { v with beam := { v.beam with seen := (f.mark.frame, f.mark.pos) :: v.beam.seen } }) :
    (192 ≤ f.mark.hops → exec (.beamMark h ok f own r) s = .next u) ∧
    (f.mark.hops < 192 → (f.mark.frame, f.mark.pos) ∈ u.beam.seen → exec (.beamMark h ok f own r) s = .next v) ∧
    (f.mark.hops < 192 → (f.mark.frame, f.mark.pos) ∉ u.beam.seen → u.pwr.state < 3 → exec (.beamMark h ok f own r) s =
      .next ((w.spreadHops.filter fun g => decide (g ≠ h)).foldl (fun t g => t.sendRecord g 0 (w.passedMark h f.mark r).bytes) w)) := by
  have hexec : exec (.beamMark h ok f own r) s = execBeamMark h ok f own r s := rfl
  rw [hexec]
  simp only [execBeamMark, hf, Bool.false_eq_true, if_false, h0]
  subst hn hv hw
  refine ⟨fun k => by rw [if_pos k], fun k m => ?_, fun k m p => ?_⟩
  · rw [if_neg (by omega), if_pos (.inr m)]
  · rw [if_neg (by omega), if_neg (by rintro (q | q); exacts [absurd q (by omega), m q])]

/-- Settles O6: each clause is the command's own branch, and a mark in use is `useMark_near`. -/
theorem marksAndPtp : Obligations.MarksAndPtp := by
  unfold Obligations.MarksAndPtp
  constructor
  · intro s hf
    refine ⟨?_, ?_, ?_, fun h m own hm => State.useMark_near h own s hm, fun h m r => rfl⟩
    · rintro sf line p m u hp hh hr hl ht hsf rfl rfl rfl
      show execBeamMarkSend sf line s = _
      simp only [execBeamMarkSend, hf, hh, hr, hl, ht, hsf, hp, Bool.false_eq_true, if_false, decide_true, Bool.and_self, if_true]
      rfl
    · rintro h ok f own r m u n v w h0 rfl hn hv hw
      exact execBeamMark_taken hf h0 hn hv hw
    · intro h ok f own r u h0
      exact execBeamMark_refused hf h0
  · intro s d hf hon
    have hruns : s.ptpRuns = true := by
      simp only [State.ptpOn, Bool.and_eq_true] at hon
      exact hon.1
    refine ⟨fun a hb => ?_, fun a b hb => ?_, fun a t1 t2 own rate hb => ?_, fun a t3 hb => ?_, fun a t4 hb => ?_, ?_⟩
    · refine ⟨{ s with beam := { s.beam with ptpBest := some a } }, ?_, rfl⟩
      show execPtpAnnounce d a s = _
      simp only [execPtpAnnounce, hf, hon, hb, Bool.false_eq_true, if_false, if_true]
    · show execPtpAnnounce d a s = _
      simp only [execPtpAnnounce, hf, hon, hb, Bool.false_eq_true, if_false, if_true]
      split <;> rfl
    · have hfrom : s.fromMaster a.source = true := by simp [State.fromMaster, hb]
      refine ⟨_, show execPtpSync d a.source t1 t2 own rate s = .next _ by
        simp only [execPtpSync, hf, hon, hfrom, Bool.false_eq_true, if_false, Bool.and_self, if_true]; rfl, ?_⟩
      split
      · exact ⟨(State.takeReference_keeps ..).1, (State.takeReference_keeps ..).2.1⟩
      · exact ⟨rfl, rfl⟩
    · refine ⟨_, show execPtpDelayReq t3 s = .next _ by simp only [execPtpDelayReq, hf, hb, hruns, Bool.false_eq_true, if_false, if_true]; rfl, rfl, rfl⟩
    · have hfrom : s.fromMaster a.source = true := by simp [State.fromMaster, hb]
      exact ⟨_, show execPtpDelayResp d a.source t4 s = .next _ by
        simp only [execPtpDelayResp, hf, hon, hfrom, Bool.false_eq_true, if_false, Bool.and_self, if_true]; rfl, rfl⟩
    · refine ⟨_, show execPtpLoss s = .next _ by simp only [execPtpLoss, hf, hruns, Bool.false_eq_true, if_false, if_true]; rfl, ?_, ?_, ?_⟩
      · simp
      · exact State.wstat_loseReference _ (State.wstat_raise _ (by decide))
      · intro hl
        exact (State.lock_loseReference _).1 ((State.lock_raise0 ..).trans hl)

/-- Settles O7: a probe's reply sets the mean of the last 16, and a source lost is the change to another port or the lock state of Table 2.3. -/
theorem beamSources : Obligations.BeamSources := by
  unfold Obligations.BeamSources
  constructor
  · intro s h ok f t1 t2 t3 t4 hf
    refine ⟨fun hup => ?_, fun u hu => ?_, fun u hu => ?_, fun u l hu hl => ?_, fun u hu => ?_⟩
    · show execDelayProbeSend h t1 s = _
      simp [execDelayProbeSend, hf, hup]
    · show execProbe h ok f t2 t3 s = _
      simp [execProbe, hf, hu]
    · show execProbe h ok f t2 t3 s = _
      simp [execProbe, hf, hu]
    · have hp : (u.probeDelay h (f.ps 0) (f.ps 8) (f.ps 16) t4 :: u.delaysOf h).take 16 = l := hl.symm
      refine ⟨_, show execReply h ok f t4 s = .next ((u.setDelays h l).setF (linkDlyReg h) 23 0 ((l.foldl (· + ·) 0 / (l.length : Int) % 2 ^ 24).toNat)) by
        simp only [execReply, hf, hu, Bool.false_eq_true, if_false, hp], ?_, ?_, ?_, ?_⟩
      · rw [State.f_setF_same _ _ (by decide)]
        omega
      · cases h <;> rfl
      · intro a ha
        rw [State.reg_setF_ne _ ha]
        cases h <;> rfl
      · intro k
        cases h <;> rfl
    · show execReply h ok f t4 s = _
      simp [execReply, hf, hu]
  · intro s hf
    refine ⟨fun h h2 u hs hu hs2 hne => ?_, fun h u hs hu hs2 => ?_, fun hl hh => ?_⟩
    · subst hu
      have hlock : (s.noteHops h none).lock = s.lock := by cases h <;> rfl
      refine ⟨_, show execSourceLost s = .next _ by simp only [execSourceLost, hf, hs, hs2, hne, Bool.false_eq_true, if_false]; rfl, ?_, ?_, ?_, ?_⟩
      · rw [State.beam_raise0]
        rfl
      · rw [State.f_of_reg (State.lockstat_raise ..), State.f_setF_same _ _ (by decide)]
        cases h2 <;> rfl
      · exact State.wstat_raise _ (by decide)
      · rw [State.lock_raise0]
        exact (State.f_setF_out _ _ (by decide) (by decide)).trans hlock
    · subst hu
      have hbeam : ∀ st, ((s.noteHops h none).setLock st).beam = (s.noteHops h none).beam := fun _ => rfl
      rcases hs2 with hs2 | hs2
      · refine ⟨if s.lock = 1 then ((s.noteHops h none).setF Reg.BEAM_LOCKSTAT 3 2 0).setLock 0 else s.noteHops h none,
          show execSourceLost s = .next _ by simp only [execSourceLost, hf, hs, hs2, Bool.false_eq_true, if_false], ?_, ?_, fun hl => if_neg hl⟩
        · split <;> rfl
        · intro hl
          rw [if_pos hl]
          exact State.lock_setLock ..
      · refine ⟨if s.lock = 1 then (s.noteHops h none).setLock 0 else s.noteHops h none,
          show execSourceLost s = .next _ by simp only [execSourceLost, hf, hs, hs2, Bool.false_eq_true, if_false, if_true], ?_, ?_, fun hl => if_neg hl⟩
        · split <;> rfl
        · intro hl
          rw [if_pos hl]
          exact State.lock_setLock ..
    · refine ⟨(s.setLock 3).raise0 stBEAMW 4, show execHoldoverEntry s = .next _ by
        simp only [execHoldoverEntry, hf, hl, hh, and_self, Bool.false_eq_true, if_false, if_true], ?_, ?_, ?_, ?_⟩
      · simp
      · rw [State.bit_of_reg (State.reg_raise0_ne _ _ (by decide) (by decide) (by decide))]
        exact State.bit_setBit_same _ _ _ (by decide)
      · exact State.wstat_raise _ (by decide)
      · simp

end Sys2Proof.Machine
end

section
/-! The statement on the wall's vote. -/

namespace Sys2Proof.Machine

/-- A counter counts up to its last value. -/
@[simp] theorem State.f_count_same (s : State) (a : Nat) {hi lo : Nat} (h : hi < 32) :
    (s.count a hi lo).f a hi lo = sat (2 ^ (hi + 1 - lo) - 1) (s.f a hi lo + 1) := by
  have hpos : 0 < 2 ^ (hi + 1 - lo) := Nat.two_pow_pos _
  simp only [State.f, State.count, State.reg_setReg_same, countUp]
  rw [fld_setFld_same _ h]
  unfold sat
  split <;> exact Nat.mod_eq_of_lt (by omega)

/-- A vote is cast once. -/
theorem State.vote_castVote {s : State} (v : Bool) (hv : s.beam.vote = none) (hw : s.wallMode = true) : (s.castVote v).beam.vote = some v := by
  simp only [State.castVote, hv, hw, if_true]

theorem State.vote_castVote_some {s : State} {w : Bool} (v : Bool) (hv : s.beam.vote = some w) : (s.castVote v).beam.vote = some w := by
  simp only [State.castVote, hv]

/-- The votes of a sub-frame: merged, or counted as late (R62, R63). -/
theorem execVote_taken {h : Hop} {ok : Bool} {f : Frame} {s u : State} (hf : s.frozen = false) (hu : s.takeRecord 3 h ok f = (true, u)) :
    exec (.vote h ok f) s = .next (if u.beam.sent = true ∨ f.le 0 8 ≠ u.beam.frame ∨ f.le 8 1 % 4 ≠ u.beam.pos.sf then u.count Reg.BEAM_VOTELATE 15 0
      else { u with beam := { u.beam with counted := u.beam.counted + f.le 10 2 % 2 ^ 15, ready := u.beam.ready + f.le 12 2 % 2 ^ 15,
                                          heard := u.beam.heard ++ [h] } }) := by
  show execVote h ok f s = _
  simp only [execVote, hf, hu, Bool.false_eq_true, if_false]
  split <;> rfl

/-- Settles O8: the vote, its merging, the decision and the partner's position, each from the branch that its command takes. -/
theorem wallVote : Obligations.WallVote := by
  unfold Obligations.WallVote
  intro s hf
  refine ⟨fun sf hw hr hv => ?_, fun sf v hw hr hv => ?_, fun h ok f u hu => ⟨fun h1 h2 h3 => ?_, fun hl => ?_⟩, fun h pos u hw hr hs hh hin hu => ?_,
    fun p u hh hw hr hp hu => ?_, fun h ok f u n k hu hn hk => ⟨fun ht => ?_, fun ht => ?_⟩, fun h ok f u p hu hp hpair hh h0 hsf => ?_,
    fun h ok f u => ⟨fun hu => ?_, fun hu => ?_, fun hu => ?_⟩, fun sf go src hat hsf hdown => ?_⟩
  · refine ⟨_, show execVotecut sf s = .next _ by simp only [execVotecut, hf, hw, hr, Bool.false_eq_true, if_false, Bool.and_self, if_true]; rfl, ?_⟩
    exact State.vote_castVote false hv hw
  · refine ⟨_, show execVotecut sf s = .next _ by simp only [execVotecut, hf, hw, hr, Bool.false_eq_true, if_false, Bool.and_self, if_true]; rfl, ?_⟩
    exact State.vote_castVote_some false hv
  · refine ⟨_, execVote_taken hf hu, ?_⟩
    rw [if_neg (by simp [h1, h2, h3])]
    exact ⟨rfl, rfl⟩
  · refine ⟨_, execVote_taken hf hu, ?_⟩
    rw [if_pos hl]
    exact ⟨rfl, State.f_count_same _ _ (by decide)⟩
  · subst hu
    have hd : (s.votesIn || s.voteDue { pos with sf := s.beam.pos.sf }) = true := by simpa using hin
    show execVoteSend pos s = _
    simp only [execVoteSend, hf, hw, hr, hs, hd, hh, Bool.false_eq_true, if_false, Bool.and_self, Bool.not_false, if_true]
    rfl
  · subst hu hp
    show execVoteDecision s = _
    simp only [execVoteDecision, hf, hh, hw, hr, Bool.false_eq_true, if_false, Bool.and_self, if_true]
    rfl
  · subst hn hk
    show execDecision h ok f s = _
    simp only [execDecision, hf, hu, Bool.false_eq_true, if_false]
    rw [if_neg (by omega)]
  · subst hn hk
    show execDecision h ok f s = _
    simp only [execDecision, hf, hu, Bool.false_eq_true, if_false]
    rw [if_pos ht]
  · subst hp
    refine ⟨{ u with beam := { u.beam with partnerPos := some (posOfNat (f.le 8 4)) } }, ?_, rfl, rfl⟩
    show execPairready h ok f s = _
    simp only [execPairready, hf, hu, hpair, ← hh, h0, hsf, Bool.false_eq_true, if_false, decide_true, Bool.and_self, if_true]
  · show execVote h ok f s = _
    simp only [execVote, hf, hu, Bool.false_eq_true, if_false]
  · show execDecision h ok f s = _
    simp only [execDecision, hf, hu, Bool.false_eq_true, if_false]
  · show execPairready h ok f s = _
    simp only [execPairready, hf, hu, Bool.false_eq_true, if_false]
  · have hnow : (decide ((s.beam.frame, sf) = (s.beam.frame, s.beam.pos.sf)) && atOrBefore s.beam.pos ⟨sf, s.f Reg.BEAM_SWAPSTART 12 0, 0⟩) = true := by
      simp [hat, ← hsf]
    have hl : (({ s with beam := { s.beam with decision := some go } } : State).downHops.filter fun h => decide (some h ≠ src)) = [] := hdown
    unfold State.holdDecision
    simp only [hnow, if_true, hl, List.foldl_nil]

end Sys2Proof.Machine
end

section
/-! The statement on matches, trigger entries and timed writes. -/

namespace Sys2Proof.Machine

/-! Where the beam stands is a matter of the beam's state alone. -/

@[simp] theorem State.regs_beamAt (p : BPos) (s : State) : (s.beamAt p).regs = s.regs := by
  unfold State.beamAt
  split <;> rfl

@[simp] theorem State.reel_beamAt (p : BPos) (s : State) : (s.beamAt p).reel = s.reel := by
  unfold State.beamAt
  split <;> rfl

@[simp] theorem State.blk_beamAt (p : BPos) (s : State) : (s.beamAt p).blk = s.blk := by
  unfold State.beamAt
  split <;> rfl

@[simp] theorem State.mnt_beamAt (p : BPos) (s : State) : (s.beamAt p).mnt = s.mnt := by
  unfold State.beamAt
  split <;> rfl

@[simp] theorem State.reg_beamAt (p : BPos) (s : State) (a : Nat) : (s.beamAt p).reg a = s.reg a := State.reg_congr (s.regs_beamAt p) a

@[simp] theorem State.f_beamAt (p : BPos) (s : State) (a hi lo : Nat) : (s.beamAt p).f a hi lo = s.f a hi lo := State.f_of_reg (s.reg_beamAt p a) hi lo

/-! A Gavotte flag set by a trigger or a timed write (R170, R174). -/

theorem State.bit_beamFlagSet {i : Nat} (h : i < 16) (s : State) : (s.beamFlagSet (wd (2 ^ i))).bit Reg.MNT_GFLAG i = true := by
  have h16 : (wd (2 ^ i) &&& (0xFFFF : Word)).getLsbD i = true := by
    simp only [wd, BitVec.getLsbD_and, getLsbD_powTwo, decide_true, Bool.and_true, Bool.and_eq_true, decide_eq_true_eq]
    refine ⟨by omega, ?_⟩
    have : ∀ j : Fin 16, (0xFFFF : Word).getLsbD j.val = true := by decide
    exact this ⟨i, h⟩
  unfold State.beamFlagSet State.gflagSet State.bit
  rw [State.reg_setReg_same]
  unfold bitAt
  rw [BitVec.getLsbD_or, h16, Bool.or_true]

theorem State.reg_beamFlagSet_ne (v : Word) (s : State) {a : Nat} (h : a ≠ Reg.MNT_GFLAG) : (s.beamFlagSet v).reg a = s.reg a :=
  State.reg_setReg_ne _ h _

/-- A trigger entry reached takes its action (R32). -/
theorem execTriggerFire_reached {n : Fin 32} {sf rep line : Nat} {p : BPos} {s : State} (hf : s.frozen = false) (hr : s.running = true)
    (hp : p = posOf (s.reg (Reg.COT_TRGn_POS n))) (hg : s.inGeometry p.line p.dot = true) (ha : s.inActive p.line p.dot = true) (hsf : sf ≤ s.subfm1)
    (hl : line = p.line + rep * s.f (Reg.COT_TRGn_ACT n) 31 16) (ht : line < s.total) (he : rep = 0 ∨ s.f (Reg.COT_TRGn_ACT n) 31 16 ≠ 0) :
    exec (.triggerFire n sf rep) s = .next ((s.beamAt ⟨sf, line, p.dot⟩).triggerAct n) := by
  subst hp hl
  show execTriggerFire n sf rep s = _
  have he' : (decide (rep = 0) || decide (s.f (Reg.COT_TRGn_ACT n) 31 16 ≠ 0)) = true := by simpa using he
  simp only [execTriggerFire, hf, hr, hg, ha, hsf, ht, he', Bool.false_eq_true, if_false, decide_true, Bool.and_self, if_true]

/-- Table 1.5: the action is the one of the code in the entry. -/
theorem State.triggerAct_eq (n : Nat) (s : State) :
    (s.f (Reg.COT_TRGn_ACT n) 5 0 = 0 → s.triggerAct n = s) ∧
    (s.f (Reg.COT_TRGn_ACT n) 5 0 = 4 → s.triggerAct n = s.beamFlagSet (wd (2 ^ (s.f (Reg.COT_TRGn_ACT n) 12 8 % 16)))) ∧
    (5 ≤ s.f (Reg.COT_TRGn_ACT n) 5 0 → s.triggerAct n = s.raise0 stCOT 0) := by
  unfold State.triggerAct State.f
  refine ⟨fun h => ?_, fun h => ?_, fun h => ?_⟩
  · simp only [h]
  · simp only [h]
  · dsimp only
    split
    · omega
    · omega
    · omega
    · omega
    · omega
    · rfl

/-- The first timed write that is due is made, and one issued late is counted (R174). -/
theorem execTimedWrite_eq {s : State} (p : BPos) (hf : s.frozen = false) :
    exec (.timedWrite p) s = match firstTimed ((s.beamAt p).mnt.timed.filter fun w => w.late || instLe (w.frame, w.pos) (s.beamAt p).now) with
      | none => .next (s.beamAt p)
      | some w =>
        let v := ({ s.beamAt p with mnt := { (s.beamAt p).mnt with timed := (s.beamAt p).mnt.timed.erase w } } : State).makeTimed w
        .next (if w.late then (v.count Reg.MNT_TLATE 15 0).mntRaise w.eng 1 else v) := by
  show execTimedWrite p s = _
  simp only [execTimedWrite, hf, Bool.false_eq_true, if_false] <;> rfl

/-- Settles O4. -/
theorem matchesAndTriggers : Obligations.MatchesAndTriggers := by
  unfold Obligations.MatchesAndTriggers
  intro s hf hr
  refine ⟨?_, fun n sf rep line p hp hg ha hsf hl ht he => ?_, fun p u hu => ⟨fun hn => ?_, fun w v hw hv => ?_⟩, fun w p hw hlate hsp ha => ?_⟩
  · rintro n sf p u rfl hb hg hbad hsf h29 rfl
    show execBeamMatch n sf s = _
    have h29' : (!s.bit (Reg.BEAM_MATCHn n) 29 || decide (sf = (posOf (s.reg (Reg.BEAM_MATCHn n))).sf)) = true := by simpa using h29
    simp only [execBeamMatch, hf, hr, hb, hg, hbad, hsf, h29', Bool.false_eq_true, if_false, decide_true, Bool.and_self, Bool.not_false, Bool.not_true]
  · have hexec := execTriggerFire_reached hf hr hp hg ha hsf hl ht he
    obtain ⟨h0, h4, h5⟩ := State.triggerAct_eq n (s.beamAt ⟨sf, line, p.dot⟩)
    simp only [State.f_beamAt] at h0 h4 h5
    refine ⟨hexec, fun hc => ⟨_, hexec, ?_⟩, fun hc => ⟨_, hexec, ?_⟩, fun hc => ⟨_, hexec, ?_⟩⟩
    · rw [h4 hc]
      refine ⟨State.bit_beamFlagSet (Nat.mod_lt _ (by decide)) _, fun a hne => ?_⟩
      rw [State.reg_beamFlagSet_ne _ _ hne, State.reg_beamAt]
    · rw [h0 hc]
      simp
    · rw [h5 hc]
      exact State.bit_raise0_same (r := stCOT) _ (by decide) (by decide) (by decide)
  · subst hu
    rw [execTimedWrite_eq p hf, hn]
  · subst hu hv
    rw [execTimedWrite_eq p hf, hw]
  · have hfirst : firstTimed ((s.beamAt p).mnt.timed.filter fun w => w.late || instLe (w.frame, w.pos) (s.beamAt p).now) = some w := by
      rw [State.mnt_beamAt, hw]
      simp [hlate, firstTimed]
    refine ⟨_, (execTimedWrite_eq p hf).trans (by rw [hfirst]), ?_⟩
    have hbit : w.addr.testBit 4 = false := Nat.testBit_lt_two_pow ha
    simp only [hlate, if_true, State.makeTimed, hsp, true_or, hbit, Bool.false_eq_true, if_false, State.mntRaise]
    constructor
    · rw [State.mnt_raise]
      show (s.beamAt p).mnt.timed.erase w = []
      simp [hw]
    · rw [State.bit_of_reg (State.reg_raise_ne _ _ _ _ _ (by decide) (by decide) (by decide)), State.bit_of_reg (State.reg_count_ne _ (by decide) _ _)]
      simpa [Nat.mod_eq_of_lt ha] using State.bit_beamFlagSet ha _

end Sys2Proof.Machine
end

section
/-! The memory fabric: what one access of main SRAM does (R24, R25, R29, R72, R74, R82, R89). -/

namespace Sys2Proof.Machine

/-! The one request at a bank is served, whatever its class. -/

theorem findSome?_range_rot {α : Type} (last port : Nat) (hp : port < 16) (x : α) (f : Nat → Option α) (hf : f port = some x)
    (hne : ∀ q, q ≠ port → f q = none) : ((List.range 16).map fun i => (last + 1 + i) % 16).findSome? f = some x := by
  have hmem : port ∈ (List.range 16).map fun i => (last + 1 + i) % 16 := by
    simp only [List.mem_map, List.mem_range]
    exact ⟨(port + 31 - last % 16) % 16, Nat.mod_lt _ (by decide), by omega⟩
  cases h : ((List.range 16).map fun i => (last + 1 + i) % 16).findSome? f with
  | none => simp [List.findSome?_eq_none_iff.mp h port hmem] at hf
  | some y =>
    obtain ⟨q, -, hq⟩ := List.exists_of_findSome?_eq_some h
    by_cases hqp : q = port
    · rw [hqp, hf] at hq
      exact hq.symm
    · simp [hne q hqp] at hq

theorem State.rrPick_alone {p : Pend} (hp : p.port < 16) (b : Nat) (s : State) : s.rrPick b [p] = some p := by
  unfold State.rrPick
  refine findSome?_range_rot _ p.port hp p _ (by simp) fun q hq => ?_
  simp only [List.find?_singleton, decide_eq_true_eq, ite_eq_right_iff, reduceCtorEq, imp_false]
  exact fun h => hq h.symm

/-- A port that alone has a request at the bank is granted it (R24, R25, R27, R29). -/
theorem State.grant_alone {p : Pend} {b : Nat} {s : State} (k : Nat) (hp : p.port < 16) (hb : bankOf p.req.addr = b) (hd : p.done = false)
    (h : s.fab.pend = [p]) : ∃ best, s.grant k b = some (p, best) := by
  have he : s.eligible b p = true := by
    have hw : s.windowHead p.port = some (p.req.addr / 16) := by simp [State.windowHead, h]
    simp [State.eligible, hd, hb, hw]
  have hc : (s.fab.pend.filter fun p => s.eligible b p) = [p] := by simp [h, he]
  unfold State.grant
  simp only [hc]
  by_cases hu : s.urgent p.port p.req.pair = true
  · have hr : s.rrPick b [] = none := by
      simp [State.rrPick]
    simp only [List.filter_cons, List.filter_nil, hu, if_true, Bool.not_true, Bool.false_eq_true, if_false, List.head?_cons, Option.map_some, hr,
      Option.map_none, List.find?_singleton]
    split <;> split <;> simp
  · have hr := State.rrPick_alone hp b s
    have hu' : s.urgent p.port p.req.pair = false := by simpa using hu
    simp only [List.filter_cons, List.filter_nil, hu', if_true, Bool.not_false, Bool.false_eq_true, if_false, List.head?_nil, Option.map_some, hr,
      Option.map_none, List.find?_singleton]
    split <;> split <;> simp

/-! One word of main SRAM. -/

theorem State.sramRead_plain {port wa : Nat} {s : State} (hm : s.fab.marching = false) (hr : s.regionAllows port wa false = true)
    (hb : s.bankBusy (bankOf wa) = false) (hk : s.mark wa = .none) : s.sramRead port wa = (0, s.le wa 16, s.grantWords port 1) := by
  have hr' : (s.grantWords port 1).regionAllows port wa false = true := hr
  have hb' : (s.grantWords port 1).bankBusy (bankOf wa) = false := hb
  have hk' : (s.grantWords port 1).mark wa = .none := hk
  simp only [State.sramRead, hm, hr', hb', State.eccRead, hk', Bool.false_eq_true, if_false, Bool.not_true, if_true]
  rfl

/-- A word found uncorrectable sets MRC_STAT.UE (R74). -/
theorem State.bit_foundUe (q addr : Nat) (s : State) : (s.foundUe q addr).bit Reg.MRC_STAT 1 = true :=
  State.raise_bit _ stMRC _ _ _ (by decide) (by decide) (StatReg.src_lt (by decide))

theorem State.told_foundUe (q addr : Nat) (s : State) : Told s (s.foundUe q addr) := (Told.setReg ..).trans (State.told_raise ..)

theorem State.told_errResponse (port addr code : Nat) (w : Bool) (s : State) : Told s (s.errResponse port addr code w) := by
  unfold State.errResponse
  extract_lets s1
  refine Told.trans ?_ (State.told_logEvent ..)
  unfold s1
  split
  · exact State.told_raise ..
  · exact (Told.setReg ..).trans (.setReg ..)

/-- The register MRC_STAT only gains bits by an error response. -/
theorem State.bit_errResponse {i : Nat} (port addr code : Nat) (w : Bool) {s : State} (h : s.bit Reg.MRC_STAT i = true) :
    (s.errResponse port addr code w).bit Reg.MRC_STAT i = true := by
  unfold State.errResponse
  extract_lets s1
  rw [(State.logEvent_noted ..).bit (by decide)]
  unfold s1
  split
  · by_cases hi : i = 8
    · subst hi
      exact State.raise_bit _ stMRC _ _ _ (by decide) (by decide) (StatReg.src_lt (by decide))
    · rw [(State.raise_noted _ _ _ _ _ _ (StatReg.src_lt (by decide))).bit (by decide)]
      exact (State.bit_setBit_ne s Reg.MRC_STAT _ hi).trans h
  · rw [State.bit_of_reg (State.reg_setReg_ne _ (by decide) _), State.bit_of_reg (State.reg_setReg_ne _ (by decide) _)]
    exact h

/-- A read of an uncorrectable word is answered with UE and data zero (R74, R89). -/
theorem State.sramRead_double {port wa : Nat} {s : State} (hm : s.fab.marching = false) (hr : s.regionAllows port wa false = true)
    (hb : s.bankBusy (bankOf wa) = false) (hk : s.mark wa = .double) : ∃ t, s.sramRead port wa = (4, 0, t) ∧
      Told (s.grantWords port 1) t ∧ t.bit Reg.MRC_STAT 1 = true := by
  have hr' : (s.grantWords port 1).regionAllows port wa false = true := hr
  have hb' : (s.grantWords port 1).bankBusy (bankOf wa) = false := hb
  have hk' : (s.grantWords port 1).mark wa = .double := hk
  refine ⟨((s.grantWords port 1).foundUe ((s.grantWords port 1).phys (bankOf wa)) wa).errResponse port wa 4 false, ?_, ?_, ?_⟩
  · simp only [State.sramRead, hm, hr', hb', State.eccRead, hk', Bool.false_eq_true, if_false, Bool.not_true, OfNat.ofNat_ne_zero]
  · exact (State.told_foundUe ..).trans (State.told_errResponse ..)
  · exact State.bit_errResponse _ _ _ _ (State.bit_foundUe ..)

/-! Writing a word. -/

theorem State.byte_putMasked (wa mask data : Nat) (s : State) (k : Nat) : (s.putMasked wa mask data).byte k =
    if wa ≤ k ∧ k < wa + 16 ∧ mask.testBit (k - wa) = true then BitVec.ofNat 8 (data / 256 ^ (k - wa)) else s.byte k := by
  have key : ∀ n, ((List.range n).foldl (fun t i => if mask.testBit i then t.setByte (wa + i) (BitVec.ofNat 8 (data / 256 ^ i)) else t) s).byte k =
      if wa ≤ k ∧ k < wa + n ∧ mask.testBit (k - wa) = true then BitVec.ofNat 8 (data / 256 ^ (k - wa)) else s.byte k := by
    intro n
    induction n with
    | zero => simp; omega
    | succ n ih =>
      rw [List.range_succ, List.foldl_append, List.foldl_cons, List.foldl_nil]
      by_cases hn : k = wa + n
      · subst hn
        by_cases hb : mask.testBit n = true
        · simp [hb, State.byte_setByte]
        · simp only [hb, Bool.false_eq_true, if_false, ih]
          simp [hb]
      · have hlt : k < wa + (n + 1) ↔ k < wa + n := by omega
        simp only [hlt]
        by_cases hb : mask.testBit n = true
        · simp only [hb, if_true, State.byte_setByte, hn, if_false, ih]
        · simp only [hb, Bool.false_eq_true, if_false, ih]
  exact key 16

/-- What a write of a word leaves of the fabric's windows, answers and of its march. -/
structure SameWindows (s t : State) : Prop where
  pend : t.fab.pend = s.fab.pend
  rets : t.fab.rets = s.fab.rets
  marching : t.fab.marching = s.fab.marching

theorem State.fab_putMasked (wa mask data : Nat) (s : State) : (s.putMasked wa mask data).fab = s.fab :=
  foldl_keeps State.fab (fun t i => by split <;> rfl) _ s

theorem State.sameWindows_mirrorWord (wa : Nat) (s : State) : SameWindows s (s.mirrorWord wa) := by
  unfold State.mirrorWord
  split <;> exact ⟨rfl, rfl, rfl⟩

@[simp] theorem State.byte_mirrorWord (wa : Nat) (s : State) (k : Nat) : (s.mirrorWord wa).byte k = s.byte k := State.byte_congr (State.mem_mirrorWord ..) k

/-- A write that its region, the staging lock and its bank let through makes its bytes. -/
theorem State.sramWrite_plain {port wa mask data : Nat} {s : State} (hm : s.fab.marching = false) (hr : s.regionAllows port wa true = true)
    (hl : s.stagingLocked port wa = false) (hb : s.bankBusy (bankOf wa) = false) (hk : s.mark wa = .none) :
    s.sramWrite port wa mask data = (0, ((((s.grantWords port 1).putMasked wa mask data).eccWritten wa).mirrorWord wa)) := by
  have hr' : (s.grantWords port 1).regionAllows port wa true = true := hr
  have hl' : (s.grantWords port 1).stagingLocked port wa = false := hl
  have hb' : (s.grantWords port 1).bankBusy (bankOf wa) = false := hb
  have hk' : (s.grantWords port 1).mark wa = .none := hk
  have he : (if decide (mask % 2 ^ 16 = 2 ^ 16 - 1) = true then (0, s.grantWords port 1)
      else (s.grantWords port 1).eccMerge wa ((s.grantWords port 1).phys (bankOf wa))) = (0, s.grantWords port 1) := by
    split
    · rfl
    · simp only [State.eccMerge, hk']
  simp only [State.sramWrite, hm, hr', hl', hb', he, Bool.false_eq_true, if_false, Bool.not_true, Bool.or_false, ne_eq, not_true_eq_false]

theorem State.sramWrite_plain_spec {port wa mask data : Nat} {s : State} (hm : s.fab.marching = false) (hr : s.regionAllows port wa true = true)
    (hl : s.stagingLocked port wa = false) (hb : s.bankBusy (bankOf wa) = false) (hk : s.mark wa = .none) :
    ∃ t, s.sramWrite port wa mask data = (0, t) ∧ SameWindows s t ∧ ∀ k, t.byte k =
      if wa ≤ k ∧ k < wa + 16 ∧ mask.testBit (k - wa) = true then BitVec.ofNat 8 (data / 256 ^ (k - wa)) else s.byte k := by
  refine ⟨_, State.sramWrite_plain hm hr hl hb hk, ?_, fun k => ?_⟩
  · have hw := State.sameWindows_mirrorWord wa (((s.grantWords port 1).putMasked wa mask data).eccWritten wa)
    have hf : ((s.grantWords port 1).putMasked wa mask data).fab = (s.grantWords port 1).fab := State.fab_putMasked ..
    refine ⟨hw.pend.trans ?_, hw.rets.trans ?_, hw.marching.trans ?_⟩
    · show ((s.grantWords port 1).putMasked wa mask data).fab.pend = _
      rw [hf]
      rfl
    · show ((s.grantWords port 1).putMasked wa mask data).fab.rets = _
      rw [hf]
      rfl
    · show ((s.grantWords port 1).putMasked wa mask data).fab.marching = _
      rw [hf]
      rfl
  · rw [State.byte_mirrorWord]
    exact State.byte_putMasked wa mask data (s.grantWords port 1) k

end Sys2Proof.Machine
end

section
/-! The statement on granted accesses of main SRAM. -/

namespace Sys2Proof.Machine

theorem State.roundStart_settled {s : State} (h : s.img.slotDue = false) (k : Nat) : s.roundStart k = s := by
  simp [State.roundStart, h]

/-- `MEMORY_ACCESS`, once its round's slot table stands (R24, R25, R82). -/
theorem execMemoryAccess_eq {k : Fin 256} {b : Fin 32} (x : Upset) {s v : State} (hv : v = s.roundStart k.val) :
    (v.fab.marching = true → exec (.memoryAccess k b x) s = .next v) ∧
    (v.fab.marching = false → v.grant k.val b.val = none → exec (.memoryAccess k b x) s = .next v) ∧
    (∀ (p : Pend) (best : Bool) (u : State), v.fab.marching = false → v.grant k.val b.val = some (p, best) →
      u = v.upset (p.req.addr / 16 * 16) x → exec (.memoryAccess k b x) s = .next (State.serve p
        (if best then { u with fab := { u.fab with rr := Sparse.set (fun _ => 15) u.fab.rr b.val p.port } } else u))) := by
  subst hv
  have hexec : exec (.memoryAccess k b x) s = execMemoryAccess k b x s := rfl
  rw [hexec]
  unfold execMemoryAccess
  refine ⟨fun hm => ?_, fun hm hg => ?_, fun p best u hm hg hu => ?_⟩
  · simp only [hm, if_true]
  · simp only [hm, hg, Bool.false_eq_true, if_false]
  · subst hu
    simp only [hm, hg, Bool.false_eq_true, if_false]

/-- The state in which the one waiting request is served: its word has met `x`, and the round robin may have gone on. -/
def State.met (b : Nat) (p : Pend) (best : Bool) (x : Upset) (s : State) : State :=
  let u := s.upset (p.req.addr / 16 * 16) x
  if best then { u with fab := { u.fab with rr := Sparse.set (fun _ => 15) u.fab.rr b p.port } } else u

/-- The memory fabric as a request meets it: the word's check bits apart, as it was. -/
theorem State.met_eq (b : Nat) (p : Pend) (best : Bool) (x : Upset) (s : State) : ∃ ecc rr, s.met b p best x =
    { s with fab := { s.fab with ecc := ecc, rr := rr } } ∧
      Sparse.get noUpset ecc (p.req.addr / 16 * 16) = mergeUpset (s.mark (p.req.addr / 16 * 16)) x := by
  unfold State.met
  cases best
  · exact ⟨_, s.fab.rr, rfl, Sparse.get_set_same ..⟩
  · exact ⟨_, _, rfl, Sparse.get_set_same ..⟩

/-- `d` is `s` as it serves the one waiting request of `port` at the word `wa`, whose mark is `x`. -/
structure Serving (port wa : Nat) (q : PortReq) (x : Upset) (s d : State) : Prop where
  regs : d.regs = s.regs
  mem : d.mem = s.mem
  job : d.fab.job = s.fab.job
  marching : d.fab.marching = s.fab.marching
  pend : d.fab.pend = [⟨port, q, true⟩]
  rets : d.fab.rets = s.fab.rets
  mark : d.mark wa = x

theorem Serving.allows {port wa : Nat} {q : PortReq} {x : Upset} {s d : State} (h : Serving port wa q x s d) (w : Bool) :
    d.regionAllows port wa w = s.regionAllows port wa w := by
  obtain ⟨hregs, -, -, -, -, -, -⟩ := h
  cases d
  cases s
  dsimp only at hregs
  subst hregs
  rfl

theorem Serving.locked {port wa : Nat} {q : PortReq} {x : Upset} {s d : State} (h : Serving port wa q x s d) :
    d.stagingLocked port wa = s.stagingLocked port wa := by
  obtain ⟨hregs, -, -, -, -, -, -⟩ := h
  cases d
  cases s
  dsimp only at hregs
  subst hregs
  rfl

theorem Serving.busy {port wa : Nat} {q : PortReq} {x : Upset} {s d : State} (h : Serving port wa q x s d) (b : Nat) : d.bankBusy b = s.bankBusy b := by
  obtain ⟨-, -, hjob, -, -, -, -⟩ := h
  unfold State.bankBusy
  rw [hjob]

section
variable {k : Fin 256} {b : Fin 32} {q : PortReq} {port wa : Nat} {s : State} (hm : s.fab.marching = false) (hs : s.img.slotDue = false) (hp : port < 16)
  (hb : bankOf q.addr = b.val) (hwa : wa = q.addr / 16 * 16) (hpend : s.fab.pend = [⟨port, q, false⟩])
include hm hs hp hb hwa hpend

/-- The waiting request is served: read, or written, and its answer set on its way. -/
theorem execMemoryAccess_alone (hmark : s.mark wa = .none) (x : Upset) : ∃ d : State, Serving port wa q x s d ∧
    (q.write = false → ∀ c v t, d.sramRead port wa = (c, v, t) →
      exec (.memoryAccess k b x) s = .next { t with fab := { t.fab with rets := t.fab.rets ++ [⟨port, wa, c, v⟩] } }) ∧
    (q.write = true → ∀ c t, d.sramWrite port wa q.mask q.data = (c, t) →
      exec (.memoryAccess k b x) s = .next { t with fab := { t.fab with rets := t.fab.rets ++ [⟨port, wa, c, 0⟩] } }) := by
  obtain ⟨best, hg⟩ := s.grant_alone (p := ⟨port, q, false⟩) k.val hp hb rfl hpend
  obtain ⟨-, -, hserve⟩ := execMemoryAccess_eq (b := b) x (State.roundStart_settled hs k.val).symm
  have hexec : exec (.memoryAccess k b x) s = .next ((s.met b.val ⟨port, q, false⟩ best x).serve ⟨port, q, false⟩) := hserve _ best _ hm hg rfl
  obtain ⟨ecc, rr, hu, hx⟩ := s.met_eq b.val ⟨port, q, false⟩ best x
  rw [hexec, hu]
  subst hwa
  refine ⟨{ s with fab := { s.fab with ecc := ecc, rr := rr, pend := s.fab.pend.replace ⟨port, q, false⟩ ⟨port, q, true⟩ } },
    ⟨rfl, rfl, rfl, rfl, by simp [hpend], rfl, hx.trans ?_⟩, fun hw c v t ht => ?_, fun hw c t ht => ?_⟩
  · rw [hmark]
    cases x <;> rfl
  · simp only [State.serve, hw, Bool.false_eq_true, if_false, ht]
  · simp only [State.serve, hw, if_true, ht]

end

/-- Settles O9. -/
theorem memoryAccess : Obligations.MemoryAccess := by
  unfold Obligations.MemoryAccess
  refine ⟨fun k b x s v hv => execMemoryAccess_eq x hv, fun k b q port wa s hm hs hp hb hwa hpend hbusy hmark => ⟨fun hw hr => ?_, fun hw hr hl => ?_, fun hw hr => ?_⟩⟩
  · obtain ⟨d, hd, hread, -⟩ := execMemoryAccess_alone (k := k) hm hs hp hb hwa hpend hmark .none
    refine ⟨_, hread hw _ _ _ (State.sramRead_plain (hd.marching.trans hm) ((hd.allows _).trans hr) ((hd.busy _).trans hbusy) hd.mark), hd.pend, ?_, ?_, ?_⟩
    · show d.fab.rets ++ [⟨port, wa, 0, d.le wa 16⟩] = _
      simp only [hd.rets, State.le, State.bytes, State.byte, hd.mem]
    · exact fun a _ => State.reg_congr (t := d) hd.regs a
    · exact fun a => State.byte_congr (t := d) hd.mem a
  · obtain ⟨d, hd, -, hwrite⟩ := execMemoryAccess_alone (k := k) hm hs hp hb hwa hpend hmark .none
    obtain ⟨t, ht, hwin, hbyte⟩ := State.sramWrite_plain_spec (mask := q.mask) (data := q.data) (hd.marching.trans hm) ((hd.allows _).trans hr)
      (hd.locked.trans hl) ((hd.busy _).trans hbusy) hd.mark
    have hds : ∀ a, d.byte a = s.byte a := fun a => State.byte_congr hd.mem a
    refine ⟨_, hwrite hw _ _ ht, hwin.pend.trans hd.pend, ?_, fun i hi => ?_, fun a ha => ?_⟩
    · show t.fab.rets ++ _ = _
      rw [hwin.rets, hd.rets]
    · refine (hbyte _).trans ?_
      have h1 : wa + i - wa = i := by omega
      have h2 : wa ≤ wa + i ∧ wa + i < wa + 16 := by omega
      simp only [h1, h2, true_and, hds]
    · refine (hbyte _).trans ?_
      rw [if_neg (by omega), hds]
  · obtain ⟨d, hd, hread, -⟩ := execMemoryAccess_alone (k := k) hm hs hp hb hwa hpend hmark .double
    obtain ⟨t, ht, htold, hbit⟩ := State.sramRead_double (hd.marching.trans hm) ((hd.allows _).trans hr) ((hd.busy _).trans hbusy) hd.mark
    refine ⟨_, hread hw _ _ _ ht, ?_, hbit, fun a => ?_⟩
    · show t.fab.rets ++ _ = _
      rw [htold.fab]
      show d.fab.rets ++ _ = _
      rw [hd.rets]
    · have hmem : t.mem = d.mem := by
        obtain ⟨_, _, _, _, rfl⟩ := htold
        rfl
      exact State.byte_congr (hmem.trans hd.mem) a

end Sys2Proof.Machine
end

section
/-! The statement on stream windows, answers and accesses without an answer. -/

namespace Sys2Proof.Machine

/-! An error response captures the first error (R89, R91). -/

theorem State.errResponse_captures {s : State} (port addr code : Nat) (w : Bool) (h : s.bit Reg.MRC_ERRINFO 31 = false) :
    (s.errResponse port addr code w).reg Reg.MRC_ERRADDR = wd addr ∧
    (s.errResponse port addr code w).reg Reg.MRC_ERRINFO = wd (code % 8 + 16 * (port % 16) + 256 * b2n w + 2 ^ 31) := by
  unfold State.errResponse
  rw [h]
  extract_lets s1
  have h1 : s1 = (s.setReg Reg.MRC_ERRADDR (wd addr)).setReg Reg.MRC_ERRINFO (wd (code % 8 + 16 * (port % 16) + 256 * b2n w + 2 ^ 31)) := if_neg (by simp)
  rw [(State.logEvent_noted ..).regs _ (by decide), (State.logEvent_noted ..).regs _ (by decide), h1]
  exact ⟨(State.reg_setReg_ne _ (by decide) _).trans (State.reg_setReg_same ..), State.reg_setReg_same ..⟩

theorem State.errResponse_overflows {s : State} (port addr code : Nat) (w : Bool) (h : s.bit Reg.MRC_ERRINFO 31 = true) :
    (s.errResponse port addr code w).bit Reg.MRC_STAT 8 = true ∧ (s.errResponse port addr code w).reg Reg.MRC_ERRADDR = s.reg Reg.MRC_ERRADDR := by
  unfold State.errResponse
  rw [if_pos h]
  extract_lets s1
  rw [(State.logEvent_noted ..).bit (by decide), (State.logEvent_noted ..).regs _ (by decide)]
  exact ⟨State.raise_bit _ stMRC _ _ _ (by decide) (by decide) (StatReg.src_lt (by decide)),
    State.raise_reg _ stMRC _ _ _ _ (by decide) (by decide) (StatReg.src_lt (by decide))⟩

/-- The fields of a captured error (Table 3.5). -/
theorem fld_errInfo {code port : Nat} (w : Bool) (hc : code < 8) : ∀ v, v = wd (code + 16 * (port % 16) + 256 * b2n w + 2 ^ 31) →
    fld v 2 0 = code ∧ fld v 7 4 = port % 16 ∧ bitAt v 8 = w ∧ bitAt v 31 = true := by
  rintro v rfl
  have hp : port % 16 < 16 := Nat.mod_lt _ (by decide)
  generalize port % 16 = p at hp
  interval_cases code <;> interval_cases p <;> cases w <;> decide

/-! What an engine's fault and a timed-out access leave of the registers of the memory controller. -/

theorem State.reg_engFault_ne {e a : Nat} (he : e < 8) (code : Nat) (s : State) (h1 : a ≠ Reg.MNT_ENGe_STAT e) (h2 : a ≠ stMNT.addr) (ha : ¬ eventReg a) :
    (s.engFault e code).reg a = s.reg a := by
  unfold State.engFault
  extract_lets st s1
  rw [(State.arrive_noted _ (by omega)).regs a ha, (State.logEvent_noted ..).regs a ha]
  refine (State.reg_raise_ne _ _ _ _ _ h2 ha (by decide)).trans ?_
  exact State.reg_setReg_ne _ h1 _

theorem State.reg_engTimeout_ne {a : Nat} (addr : Nat) (s : State) (h1 : 0x40070000 ≤ a) (ha : ¬ eventReg a) : (s.engTimeout addr).reg a = s.reg a := by
  unfold State.engTimeout
  split
  · rename_i e he
    have he8 : e < 8 := by simpa using List.mem_of_find?_eq_some he
    refine s.reg_engFault_ne he8 6 ?_ ?_ ha
    · simp only [Reg.MNT_ENGe_STAT]
      omega
    · simp only [stMNT, Reg.MNT_STAT]
      omega
  · rfl

theorem State.regs_setCore (c : Nat) (x : CoreSt) (s : State) : (s.setCore c x).regs = s.regs := by
  unfold State.setCore
  split
  · rfl
  · split <;> rfl

theorem State.regs_coreTimeout (c addr : Nat) (w : Bool) (s : State) : (s.coreTimeout c addr w).2.regs = s.regs := by
  unfold State.coreTimeout
  dsimp only
  split <;> split <;> simp only [State.regs_setCore]

theorem State.reg_setCh_ne {c a : Nat} (x : ReelCh) (s : State) (h1 : a ≠ Reg.REELc_STAT c) (h2 : a ≠ Reg.REEL_BUSY) : (s.setCh c x).reg a = s.reg a := by
  unfold State.setCh
  rw [State.reg_setBit_ne _ h2, State.reg_setF_ne _ h1]
  rfl

theorem State.reg_reelTimeout_ne {a : Nat} (port addr : Nat) (w : Bool) (s : State) (h : 0x400E0000 ≤ a) : (s.reelTimeout port addr w).reg a = s.reg a := by
  unfold State.reelTimeout
  extract_lets op
  split
  · rfl
  · rename_i c hc
    have hc32 : c < 32 := by simpa using List.mem_of_find?_eq_some hc
    refine State.reg_setCh_ne _ s ?_ ?_
    · simp only [Reg.REELc_STAT]
      omega
    · simp only [Reg.REEL_BUSY]
      omega

/-- What an access without an answer gives its master before its error response (R90). -/
def State.timedOut (m : Acc) (a : Nat) (w : Bool) (s : State) : State :=
  if m.core && !m.host then (s.coreTimeout (if m.port = 10 then 0 else if m.port = 11 then 1 else 2) a w).2
  else if m.port = 7 ∨ m.port = 8 then s.reelTimeout m.port a w
  else if m.port = 13 ∧ w = false then s.engTimeout a
  else s

theorem State.reg_timedOut {m : Acc} {a r : Nat} (w : Bool) (s : State) (h : 0x400E0000 ≤ r) (hr : ¬ eventReg r) : (s.timedOut m a w).reg r = s.reg r := by
  unfold State.timedOut
  split
  · exact State.reg_congr (State.regs_coreTimeout ..) r
  · split
    · exact State.reg_reelTimeout_ne _ _ _ _ h
    · split
      · exact State.reg_engTimeout_ne _ _ (by omega) hr
      · rfl

@[simp] theorem State.mem_timedOut (m : Acc) (a : Nat) (w : Bool) (s : State) : (s.timedOut m a w).mem = s.mem := by
  simp only [State.timedOut, State.mem_ite, State.mem_coreTimeout, State.mem_reelTimeout, State.mem_engTimeout, ite_self]

theorem execAccessTimeout_eq (m : Acc) (a : Nat) (w : Bool) (s : State) : exec (.accessTimeout m a w) s =
    if inSram a ∨ (s.fab.wiping ∧ 0x30000000 ≤ a ∧ a < 0x30040000) then .next s else .next ((s.timedOut m a w).replyErr m.port a 2 w) := rfl

/-- Settles O10. -/
theorem windowsAndAnswers : Obligations.WindowsAndAnswers := by
  unfold Obligations.WindowsAndAnswers
  refine fun s => ⟨fun port rs => ⟨_, rfl, rfl, fun _ _ => rfl, fun _ => rfl⟩, fun port pair hp => ?_, fun port r hr => ?_, fun port hr => ?_,
    fun m a w ha => ?_, fun m a w ha hs => ?_⟩
  · rcases hp with rfl | rfl | rfl | rfl | rfl <;> rfl
  · refine ⟨_, show execReadReturn port s = .next _ by simp only [execReadReturn, hr]; rfl, rfl, rfl, rfl⟩
  · show execReadReturn port s = _
    simp only [execReadReturn, hr]
  · rw [execAccessTimeout_eq, if_pos ha]
  · have hne : ¬ (inSram a = true ∨ s.fab.wiping = true ∧ 0x30000000 ≤ a ∧ a < 0x30040000) := by
      rw [ha]
      rcases hs with hs | hs | hs
      · simp [hs]
      · simp
        omega
      · simp
        omega
    have hinfo : (s.timedOut m a w).reg Reg.MRC_ERRINFO = s.reg Reg.MRC_ERRINFO := State.reg_timedOut w s (by decide) (by decide)
    have haddr : (s.timedOut m a w).reg Reg.MRC_ERRADDR = s.reg Reg.MRC_ERRADDR := State.reg_timedOut w s (by decide) (by decide)
    refine ⟨_, (execAccessTimeout_eq ..).trans (if_neg hne), rfl, fun k => ?_, fun hb => ?_, fun hb => ?_⟩
    · exact State.byte_congr (by rw [State.mem_replyErr, State.mem_timedOut]) k
    · obtain ⟨h1, h2⟩ := State.errResponse_captures (s := s.timedOut m a w) m.port a 2 w ((State.bit_of_reg hinfo 31).trans hb)
      exact ⟨h1, fld_errInfo w (by decide) _ h2⟩
    · obtain ⟨h1, h2⟩ := State.errResponse_overflows (s := s.timedOut m a w) m.port a 2 w ((State.bit_of_reg hinfo 31).trans hb)
      exact ⟨h1, h2.trans haddr⟩

end Sys2Proof.Machine
end

section
/-! What a coded write of a register without shadow bits leaves in its fields (R8), and an access of a target without power (R403). -/

namespace Sys2Proof.Machine

/-- What a write of `v` leaves in a register whose row is `r` and which held `old` (R8). -/
def coded (r : RegRow) (old v : Word) : Word :=
  ((((old &&& ~~~(r.rw &&& ~~~r.shm)) ||| (v &&& (r.rw &&& ~~~r.shm)))) &&& ~~~(v &&& r.w1c)) ||| (v &&& r.w1s)

theorem State.writeCoded_plain {a i : Nat} {r : RegRow} (hf : RegMap.find a = some (r, i)) (h : r.shm = 0) (s : State) (v : Word) :
    s.writeCoded a v = s.setReg a (coded r (s.reg a) v) := by
  simp only [State.writeCoded, hf, if_pos h, coded]

/-- Bit `j` of the row is written as it comes. -/
def rwBit (r : RegRow) (j : Nat) : Bool := bitAt r.rw j && !bitAt r.shm j && !bitAt r.w1c j && !bitAt r.w1s j

theorem bitAt_coded_rw {r : RegRow} {j : Nat} (h : rwBit r j = true) (old v : Word) : bitAt (coded r old v) j = bitAt v j := by
  simp only [rwBit, Bool.and_eq_true, Bool.not_eq_true'] at h
  obtain ⟨⟨⟨hrw, hsh⟩, hc⟩, hs⟩ := h
  have h32 : j < 32 := by
    by_contra k
    simp [bitAt, BitVec.getLsbD_of_ge _ j (by omega : 32 ≤ j)] at hrw
  unfold bitAt at hrw hsh hc hs ⊢
  simp only [coded, BitVec.getLsbD_or, BitVec.getLsbD_and, BitVec.getLsbD_not, h32, hrw, hsh, hc, hs, decide_true, Bool.not_false,
    Bool.not_true, Bool.and_true, Bool.and_false, Bool.or_false, Bool.false_or]

/-- A field all of whose bits are written as they come. -/
theorem fld_coded_rw {r : RegRow} {hi lo : Nat} (h : (List.range (hi + 1 - lo)).all (fun j => rwBit r (lo + j)) = true) (old v : Word) :
    fld (coded r old v) hi lo = fld v hi lo := by
  refine Nat.eq_of_testBit_eq fun i => ?_
  rw [testBit_fld, testBit_fld]
  by_cases hi' : i < hi + 1 - lo
  · have hb : rwBit r (lo + i) = true := List.all_eq_true.mp h i (List.mem_range.mpr hi')
    have := bitAt_coded_rw hb old v
    unfold bitAt at this
    rw [this]
  · simp [hi']

theorem State.f_writeCoded_rw {a i hi lo : Nat} {r : RegRow} (hf : RegMap.find a = some (r, i)) (h0 : r.shm = 0)
    (h : (List.range (hi + 1 - lo)).all (fun j => rwBit r (lo + j)) = true) (s : State) (v : Word) : (s.writeCoded a v).f a hi lo = fld v hi lo := by
  rw [State.writeCoded_plain hf h0]
  unfold State.f
  rw [State.reg_setReg_same]
  exact fld_coded_rw h _ v

@[simp] theorem State.f_reply (code : Nat) (data : Word) (s : State) (a hi lo : Nat) : (s.reply code data).f a hi lo = s.f a hi lo := rfl
@[simp] theorem State.bit_reply (code : Nat) (data : Word) (s : State) (a i : Nat) : (s.reply code data).bit a i = s.bit a i := rfl

/-- A command that writes a register of a target without power is answered OFF (R403). -/
theorem State.askWrite_off {m : Acc} {a : Nat} {s : State} (v : Word) (hm : m.debug = false) (hoff : s.targetOff a = true) :
    s.askWrite m a v = (s.errResponse m.port a 6 true).reply 6 0 := by
  simp only [State.askWrite, State.busWrite32, State.busWrite, hm, hoff, Bool.false_and, Bool.false_eq_true, if_false, if_true, State.failWrite]

theorem State.askRead_off {m : Acc} {a : Nat} {s : State} (hm : m.debug = false) (hoff : s.targetOff a = true) :
    s.askRead m a = (s.errResponse m.port a 6 false).reply 6 0 := by
  simp only [State.askRead, State.busRead32, State.busRead, hm, hoff, Bool.false_and, Bool.false_eq_true, if_false, if_true, State.failRead]
  rfl

end Sys2Proof.Machine
end

section
/-! What a read of a memory leaves: nothing but counts, captures and events (R72 to R76, R89, R91). -/

namespace Sys2Proof.Machine

/-- The registers of the memory controller that a read may change: status, counts, captures, and the entries of banks and memories. -/
abbrev mrcReg (a : Nat) : Prop := (0x401A0000 ≤ a ∧ a < 0x401A0040) ∨ (0x401A0100 ≤ a ∧ a < 0x401A0200)

/-- `t` is `s` after reads: beside registers, the recorder, the interrupt controller and the wake, only write-backs, queued migrations and word
counts differ, and of the registers only those of events and of the memory controller. -/
structure Checked (s t : State) : Prop where
  state : ∃ regs evr irq w wb jobs words, t = { s with regs := regs, evr := evr, irq := irq, pwr := { s.pwr with waking := w },
                                                       fab := { s.fab with wb := wb, jobs := jobs, words := words } }
  regs : ∀ a, ¬ eventReg a → ¬ mrcReg a → t.reg a = s.reg a

theorem Checked.refl (s : State) : Checked s s := ⟨⟨s.regs, s.evr, s.irq, s.pwr.waking, s.fab.wb, s.fab.jobs, s.fab.words, rfl⟩, fun _ _ _ => rfl⟩

theorem Checked.trans {s t u : State} (h : Checked s t) (k : Checked t u) : Checked s u := by
  obtain ⟨⟨_, _, _, _, _, _, _, rfl⟩, hr⟩ := h
  obtain ⟨⟨regs, evr, irq, w, wb, jobs, words, rfl⟩, kr⟩ := k
  exact ⟨⟨regs, evr, irq, w, wb, jobs, words, rfl⟩, fun a ha hm => (kr a ha hm).trans (hr a ha hm)⟩

theorem Checked.setReg (s : State) {a : Nat} (h : mrcReg a) (v : Word) : Checked s (s.setReg a v) :=
  ⟨⟨_, s.evr, s.irq, s.pwr.waking, s.fab.wb, s.fab.jobs, s.fab.words, rfl⟩, fun b _ hb => State.reg_setReg_ne s (by rintro rfl; exact hb h) v⟩

theorem Checked.of_told {s t : State} (h : Told s t) (hr : ∀ a, ¬ eventReg a → ¬ mrcReg a → t.reg a = s.reg a) : Checked s t := by
  obtain ⟨regs, evr, irq, w, rfl⟩ := h
  exact ⟨⟨regs, evr, irq, w, s.fab.wb, s.fab.jobs, s.fab.words, rfl⟩, hr⟩

theorem Checked.ite {p : Prop} [Decidable p] {s t u : State} (h : Checked s t) (k : Checked s u) : Checked s (if p then t else u) := by
  split
  · exact h
  · exact k

theorem Checked.foldl {α : Type} {f : State → α → State} (hf : ∀ t x, Checked t (f t x)) (l : List α) (s : State) : Checked s (l.foldl f s) := by
  induction l generalizing s with
  | nil => exact .refl s
  | cons x xs ih => exact (hf s x).trans (ih _)

section
variable {s t : State} (h : Checked s t)
include h

theorem Checked.mem : t.mem = s.mem := by
  obtain ⟨_, _, _, _, _, _, _, rfl⟩ := h.state
  rfl

theorem Checked.gv : t.gv = s.gv := by
  obtain ⟨_, _, _, _, _, _, _, rfl⟩ := h.state
  rfl

theorem Checked.memScrub : t.pwr.memScrub = s.pwr.memScrub := by
  obtain ⟨_, _, _, _, _, _, _, rfl⟩ := h.state
  rfl

theorem Checked.byte (k : Nat) : t.byte k = s.byte k := State.byte_congr h.mem k

theorem Checked.core (c : Nat) : t.core c = s.core c := by
  simp only [State.core, h.gv]

end

/-! The operations. -/

theorem mrcReg_entry {q : Nat} (h : q < 64) : mrcReg (Reg.MRC_CECNTq q) := by
  right
  simp only [Reg.MRC_CECNTq]
  omega

theorem State.checked_mrcRaise (bit : Nat) (a0 a2 a3 : Word) (s : State) : Checked s (s.raise stMRC bit a0 a2 a3) := by
  refine .of_told (State.told_raise ..) fun a ha hm => State.raise_reg s stMRC bit a0 a2 a3 ?_ ha ?_
  · rintro rfl
    exact hm (by decide)
  · intro n hn
    cases hn
    decide

theorem State.checked_logEvent (code : Nat) (a0 a1 a2 a3 : Word) (s : State) : Checked s (s.logEvent code a0 a1 a2 a3) :=
  .of_told (State.told_logEvent ..) fun a ha _ => (State.logEvent_noted ..).regs a ha

theorem State.checked_errResponse (port addr code : Nat) (w : Bool) (s : State) : Checked s (s.errResponse port addr code w) := by
  unfold State.errResponse
  extract_lets s1
  refine Checked.trans ?_ (State.checked_logEvent ..)
  unfold s1
  split
  · exact State.checked_mrcRaise ..
  · exact (Checked.setReg s (by decide) _).trans (.setReg _ (by decide) _)

theorem State.freeSpare_lt {s : State} {d : Nat} (h : s.freeSpare = some d) : d < 34 := by simpa using List.mem_of_find?_eq_some h

theorem State.checked_lasting {q : Nat} (hq : q < 64) (s : State) : Checked s (s.lasting q) := by
  unfold State.lasting
  have h0 : Checked s ((s.setBit (Reg.MRC_CECNTq q) 8 true).raise stMRC 2 (wd q) 0 0) :=
    (Checked.setReg s (mrcReg_entry hq) _).trans (State.checked_mrcRaise ..)
  generalize (s.setBit (Reg.MRC_CECNTq q) 8 true).raise stMRC 2 (wd q) 0 0 = t at h0
  dsimp only
  split
  · exact h0
  · split
    · exact h0.trans (.setReg t (mrcReg_entry hq) _)
    · refine Checked.ite ?_ h0
      split
      · rename_i d b hd hb
        refine (h0.trans (.setReg t (mrcReg_entry (by have := State.freeSpare_lt hd; omega)) _)).trans ⟨⟨_, t.evr, t.irq, t.pwr.waking, t.fab.wb, _, t.fab.words, rfl⟩, fun _ _ _ => rfl⟩
      · exact h0.trans (State.checked_mrcRaise ..)
    · exact h0

theorem State.checked_countCorrection {q : Nat} (hq : q < 64) (addr : Nat) (s : State) : Checked s (s.countCorrection q addr) := by
  unfold State.countCorrection
  extract_lets s1 s2 s3 thr
  have h2 : Checked s s2 := by
    unfold s2
    split
    · exact (Checked.setReg s (mrcReg_entry hq) _).trans (.setReg _ (by decide) _)
    · exact .setReg s (mrcReg_entry hq) _
  have h3 : Checked s s3 := h2.trans (State.checked_mrcRaise ..)
  split
  · exact h3.trans (State.checked_lasting hq _)
  · exact h3

theorem State.checked_foundUe (q addr : Nat) (s : State) : Checked s (s.foundUe q addr) :=
  (Checked.setReg s (by decide) _).trans (State.checked_mrcRaise ..)

theorem State.checked_eccRead {q : Nat} (hq : q < 64) (k : Nat) (s : State) : Checked s (s.eccRead k q).2 := by
  unfold State.eccRead
  split
  · exact .refl s
  · exact State.checked_foundUe ..
  · split
    · exact .refl s
    · refine Checked.trans ?_ (State.checked_countCorrection hq ..)
      exact ⟨⟨s.regs, s.evr, s.irq, s.pwr.waking, _, s.fab.jobs, s.fab.words, rfl⟩, fun _ _ _ => rfl⟩

theorem State.checked_eccSpan {q : Nat} (hq : q < 64) (size a n : Nat) (s : State) : Checked s (s.eccSpan size q a n).2 := by
  unfold State.eccSpan
  generalize List.range ((a + n - 1) / size - a / size + 1) = l
  suffices h : ∀ acc : Nat × State, Checked s acc.2 → Checked s (l.foldl (fun (acc : Nat × State) i =>
      let (c, t) := acc
      let (c1, t1) := t.eccRead (size * (a / size + i)) q
      (if c = 0 then c1 else c, t1)) acc).2 from h (0, s) (.refl s)
  induction l with
  | nil => exact fun acc h => h
  | cons i l ih => exact fun acc h => ih _ (h.trans (State.checked_eccRead hq ..))

theorem State.phys_lt (s : State) (b : Nat) : s.phys b < 64 := fld_lt _ 5 0

theorem State.checked_grantWords (port n : Nat) (s : State) : Checked s (s.grantWords port n) :=
  ⟨⟨s.regs, s.evr, s.irq, s.pwr.waking, s.fab.wb, s.fab.jobs, _, rfl⟩, fun _ _ _ => rfl⟩

theorem State.checked_sramRead (port wa : Nat) (s : State) : Checked s (s.sramRead port wa).2.2 := by
  unfold State.sramRead
  split
  · exact .refl s
  · have h1 := s.checked_grantWords port 1
    generalize s.grantWords port 1 = t at h1
    dsimp only
    split
    · exact h1.trans (State.checked_errResponse ..)
    · split
      · exact h1.trans (State.checked_errResponse ..)
      · have h2 := h1.trans (State.checked_eccRead (t.phys_lt (bankOf wa)) wa t)
        generalize t.eccRead wa (t.phys (bankOf wa)) = r at h2
        obtain ⟨c, u⟩ := r
        dsimp only
        split
        · exact h2
        · exact h2.trans (State.checked_errResponse ..)

/-- A read of local SRAM: its words checked, then its bytes (R85). -/
theorem State.localRead_eq (c a n : Nat) (s : State) {k : Nat} (hk : localKey c (a - 0x08000000) = k) :
    s.localRead c a n = ((s.eccSpan 4 (37 + c) k n).1,
      (if (s.eccSpan 4 (37 + c) k n).1 = 0 then (s.eccSpan 4 (37 + c) k n).2.bytes k n else List.replicate n 0), (s.eccSpan 4 (37 + c) k n).2) := by
  suffices h : ∃ f, f = @State.localRead ∧ f c a n s = ((s.eccSpan 4 (37 + c) k n).1,
      (if (s.eccSpan 4 (37 + c) k n).1 = 0 then (s.eccSpan 4 (37 + c) k n).2.bytes k n else List.replicate n 0), (s.eccSpan 4 (37 + c) k n).2) by
    obtain ⟨f, rfl, h⟩ := h
    exact h
  delta State.localRead
  generalize @State.eccSpan = span
  revert span
  refine id fun span => ⟨_, rfl, ?_⟩
  dsimp only
  subst hk
  split
  · rename_i t h
    simp only [h, if_true]
  · rename_i e t hne h
    have he : e ≠ 0 := fun k => hne (k ▸ rfl)
    simp only [h, he, if_false]

theorem State.localRead_state (c a n : Nat) (s : State) : ∃ k, (s.localRead c a n).2.2 = (s.eccSpan 4 (37 + c) k n).2 := by
  obtain ⟨k, hk⟩ : ∃ k, localKey c (a - 0x08000000) = k := ⟨_, rfl⟩
  refine ⟨k, ?_⟩
  simp only [State.localRead_eq c a n s hk]

theorem State.checked_localRead {c : Nat} (hc : c < 3) (a n : Nat) (s : State) : Checked s (s.localRead c a n).2.2 := by
  obtain ⟨k, h⟩ := State.localRead_state c a n s
  rw [h]
  exact State.checked_eccSpan (by omega) ..

end Sys2Proof.Machine
end

section
/-! The statement on ECC write-backs, scrubbing, correction counts and restoring. -/

namespace Sys2Proof.Machine

/-! Correction counts (R76). -/

theorem State.ceWindow_prefix (s : State) (n : Nat) (hn : n ≤ 40) :
    let t := (List.range n).foldl (fun t q => t.setF (Reg.MRC_CECNTq q) 7 0 0) s
    (∀ q, q < n → t.f (Reg.MRC_CECNTq q) 7 0 = 0) ∧ (∀ a, (∀ q, q < n → a ≠ Reg.MRC_CECNTq q) → t.reg a = s.reg a) ∧ t.mem = s.mem := by
  induction n with
  | zero => exact ⟨by simp, fun _ _ => rfl, rfl⟩
  | succ n ih =>
    obtain ⟨hz, hr, hm⟩ := ih (by omega)
    simp only [List.range_succ, List.foldl_append, List.foldl_cons, List.foldl_nil]
    generalize (List.range n).foldl (fun t q => t.setF (Reg.MRC_CECNTq q) 7 0 0) s = t at hz hr hm
    refine ⟨fun q hq => ?_, fun a ha => ?_, hm⟩
    · by_cases hqn : q = n
      · subst hqn
        exact State.f_setF_same _ _ (by decide)
      · rw [State.f_of_reg (State.reg_setF_ne _ (by simp only [Reg.MRC_CECNTq]; omega) _ _ _)]
        exact hz q (by omega)
    · rw [State.reg_setF_ne _ (ha n (by omega))]
      exact hr a fun q hq => ha q (by omega)

theorem State.f_ceWindow (s : State) (q : Nat) (h : q < 40) : s.ceWindow.f (Reg.MRC_CECNTq q) 7 0 = 0 := (s.ceWindow_prefix 40 (by decide)).1 q h

theorem State.reg_ceWindow_ne (s : State) {a : Nat} (h : ∀ q, q < 40 → a ≠ Reg.MRC_CECNTq q) : s.ceWindow.reg a = s.reg a :=
  (s.ceWindow_prefix 40 (by decide)).2.1 a h

/-- A write of MRC_CEPOL sets the policy and starts a new window. -/
theorem execMrcCepolWrite_eq {m : Acc} {v : Word} {s : State} (hm : m.debug = false) (hoff : s.targetOff Reg.MRC_CEPOL = false) :
    exec (.mrcCepolWrite m v) s = .next ((s.writeCepol v).reply 0 0) := by
  show execMrcCepolWrite m v s = _
  unfold execMrcCepolWrite
  rw [State.askWrite_word (.inl hm) hoff (by decide) rfl]
  rfl

theorem State.f_writeCepol (v : Word) (s : State) :
    (s.writeCepol v).f Reg.MRC_CEPOL 7 0 = fld v 7 0 ∧ (s.writeCepol v).f Reg.MRC_CEPOL 31 16 = fld v 31 16 := by
  have hne : ∀ q, q < 40 → Reg.MRC_CEPOL ≠ Reg.MRC_CECNTq q := by
    intro q _
    simp only [Reg.MRC_CEPOL, Reg.MRC_CECNTq]
    omega
  unfold State.writeCepol
  rw [State.f_of_reg (State.reg_ceWindow_ne _ hne), State.f_of_reg (State.reg_ceWindow_ne _ hne)]
  exact ⟨State.f_writeCoded_rw (a := Reg.MRC_CEPOL) rfl rfl (by decide) s v, State.f_writeCoded_rw (a := Reg.MRC_CEPOL) rfl rfl (by decide) s v⟩

/-! A scrub window reads and counts, and changes no byte (R75). -/

theorem State.mem_scrubWindow (found : List (Nat × Upset)) (i : Nat) (l : List Nat) (s : State) :
    ((found.foldl (fun t e => match l[e.1 - 32]? with
      | some q => if e.1 < 32 then t else
        match e.2 with
        | .none => t
        | .single => t.countCorrection q 0
        | .double => t.foundUe q 0
      | none => t)
      ((List.range 32).foldl (fun t b => t.scrubRead (bankWord b i) (t.phys b))
        (found.foldl (fun t e => if e.1 < 32 then t.upset (bankWord e.1 i) e.2 else t) (s.grantWords 15 32))))).mem = s.mem := by
  rw [State.mem_foldl, State.mem_foldl, State.mem_foldl]
  · simp
  · intro s x
    split <;> simp
  · intro s x
    simp
  · intro s x
    split
    · split
      · rfl
      · split <;> simp
    · rfl

theorem State.mark_eccWritten (k : Nat) (s : State) : (s.eccWritten k).mark k = .none := Sparse.get_set_same noUpset s.fab.ecc k .none

/-- An uncorrectable word of main SRAM, or of palette RAM, is written from its copy in flash (R502). -/
theorem execUeRestore_eq {x : Section} {e k : Nat} {m : Acc} {s : State} (he : s.bit Reg.MRC_ERRINFO 31 = true) (hc : s.f Reg.MRC_ERRINFO 2 0 = 4)
    (hk : k = s.f Reg.IMG_BOOT 3 2 + 1) (hk3 : k < 3) (hm : m = ⟨14, false, false, false⟩) (ha : e = (s.reg Reg.MRC_ERRADDR).toNat) :
    (inSram e = true → s.homeSection k (e / 16 * 16) 16 = some x →
      exec .ueRestore s = .next ((s.busWrite m (e / 16 * 16) (s.srcBytes k (x.offset + (e / 16 * 16 - x.dest)) 16)).2.setBit Reg.MRC_ERRINFO 31 false)) ∧
    (∀ bs : List Byte, inSram e = false → 0x20000000 ≤ e → e < 0x20020000 → s.homeSection k (e / 8 * 8) 8 = some x →
      bs = s.srcBytes k (x.offset + (e / 8 * 8 - x.dest)) 8 →
      exec .ueRestore s = .next (((s.busWrite m (e / 8 * 8) (bs.take 4)).2.busWrite m (e / 8 * 8 + 4) (bs.drop 4)).2.setBit Reg.MRC_ERRINFO 31 false)) := by
  have hn : ¬ (s.bit Reg.MRC_ERRINFO 31 = false ∨ s.f Reg.MRC_ERRINFO 2 0 ≠ 4 ∨ 2 ≤ s.f Reg.IMG_BOOT 3 2) := by
    rw [he, hc]
    simp
    omega
  subst hk hm ha
  have hexec : exec .ueRestore s = execUeRestore s := rfl
  rw [hexec]
  unfold execUeRestore
  constructor
  · intro hs hx
    simp only [if_neg hn, hs, if_true, hx]
  · rintro bs hs h1 h2 hx rfl
    simp only [if_neg hn, hs, Bool.false_eq_true, if_false, h1, h2, and_self, if_true, hx]

/-- The next word of a memory of Table 3.3 is read and counted (R85). -/
theorem execMemoryScrubWord_eq {mem : Fin 6} (x : Upset) {i : Nat} {s : State} (hmem : mem.val = 2 ∨ s.pwr.state < 2) (hi : s.pwr.memScrub[mem.val]? = some i) :
    exec (.memoryScrubWord mem x) s = .next
      (let k := (memSpan mem.val).1 + (memSpan mem.val).2.2 * i
       let u := ((s.upset k x).eccRead k (34 + mem.val)).2
       { u with pwr := { u.pwr with memScrub := u.pwr.memScrub.set mem.val ((i + 1) % ((memSpan mem.val).2.1 / (memSpan mem.val).2.2)) } }) := by
  have hmem' : ¬ (mem.val ≠ 2 ∧ 2 ≤ s.pwr.state) := by omega
  show execMemoryScrubWord mem x s = _
  simp only [execMemoryScrubWord, hmem', if_false, hi, Option.getD_some]

/-- Settles O11. -/
theorem eccAndScrub : Obligations.EccAndScrub := by
  unfold Obligations.EccAndScrub
  refine fun s => ⟨fun w hw => ?_, fun w hw => ?_, fun found hc hsc hst hm => ?_, ?_, fun m v hm hoff => ?_, fun mem x i hmem hi => ?_,
    fun x e k m he hc hk hk3 hm ha => ?_⟩
  · refine ⟨_, show execEccWriteback w s = .next _ by simp only [execEccWriteback, hw, if_true]; rfl, ?_, ?_, fun k => ?_⟩
    · exact State.mark_eccWritten ..
    · simp [State.eccWritten]
    · split <;> rfl
  · show execEccWriteback w s = _
    simp only [execEccWriteback, hw, if_false]
  · refine ⟨_, show execScrubWindow found s = .next _ by
      simp only [execScrubWindow, hc, hsc, hst, hm, ne_eq, not_false_eq_true, decide_true, Bool.not_false, Bool.and_self, if_true]; rfl, rfl, fun k => ?_⟩
    exact State.byte_congr (State.mem_scrubWindow found s.fab.scrub _ s) k
  · exact ⟨s.ceWindow, rfl, s.f_ceWindow, fun a ha => s.reg_ceWindow_ne fun q hq h => ha ⟨q, hq, h⟩, fun k => State.byte_congr (State.mem_ceWindow s) k⟩
  · obtain ⟨h1, h2⟩ := s.f_writeCepol v
    refine ⟨_, execMrcCepolWrite_eq hm hoff, fun q hq => (State.f_reply ..).trans (State.f_ceWindow _ q hq), (State.f_reply ..).trans h1, (State.f_reply ..).trans h2, fun k => ?_⟩
    rw [State.byte_reply]
    exact State.byte_congr (State.mem_writeCepol v s) k
  · have hc := State.checked_eccRead (q := 34 + mem.val) (by omega) ((memSpan mem.val).1 + (memSpan mem.val).2.2 * i)
      (s.upset ((memSpan mem.val).1 + (memSpan mem.val).2.2 * i) x)
    refine ⟨_, execMemoryScrubWord_eq x hmem hi, ?_, fun k => hc.byte k⟩
    dsimp only
    rw [hc.memScrub]
    obtain ⟨hlt, -⟩ := List.getElem?_eq_some_iff.mp hi
    exact List.getElem?_set_self hlt
  · obtain ⟨h1, h2⟩ := execUeRestore_eq (x := x) he hc hk hk3 hm ha
    exact ⟨fun hs hx => ⟨h1 hs hx, _, h1 hs hx, State.bit_setBit_same _ _ _ (by decide)⟩, h2⟩

end Sys2Proof.Machine
end

section
/-! The march test engine: its job, its migrations and its tests (R77 to R84). -/

namespace Sys2Proof.Machine

/-! Registers of the memory controller beside its status, its job and its entries. -/

theorem not_eventReg_mrc {a : Nat} (h : 0x401A0000 ≤ a ∧ a < 0x401B0000) : ¬ eventReg a := by
  have hb : blockOf a = 26 := blockOf_eq (by omega) (by decide)
  simp [eventReg, hb]

theorem State.reg_setUse_ne (s : State) {q u a : Nat} (h : a < 0x401A0100) : (s.setUse q u).reg a = s.reg a :=
  State.reg_setF_ne s (by simp only [Reg.MRC_CECNTq]; omega) _ _ _

theorem State.reg_setJob_ne (s : State) (j : Option Job) {a : Nat} (h1 : a ≠ Reg.MRC_JOB) (h2 : a ≠ Reg.MRC_PROGRESS) : (s.setJob j).reg a = s.reg a := by
  unfold State.setJob State.showJob
  split <;> exact (State.reg_setReg_ne _ h2 _).trans (State.reg_setReg_ne _ h1 _)

@[simp] theorem State.fab_setJob (s : State) (j : Option Job) : (s.setJob j).fab = { s.fab with job := j } := by
  unfold State.setJob State.showJob
  split <;> rfl

@[simp] theorem State.fab_setUse (s : State) (q u : Nat) : (s.setUse q u).fab = s.fab := rfl

theorem State.mrc_raise (s : State) {bit : Nat} (a0 a2 a3 : Word) (h : bit < 32) : (s.raise stMRC bit a0 a2 a3).bit Reg.MRC_STAT bit = true :=
  State.raise_bit s stMRC a0 a2 a3 h (by decide) (StatReg.src_lt (by decide))

theorem State.mrc_raise_ne (s : State) {bit i : Nat} (a0 a2 a3 : Word) (h : i ≠ bit) :
    (s.raise stMRC bit a0 a2 a3).bit Reg.MRC_STAT i = s.bit Reg.MRC_STAT i := by
  rw [(State.raise_noted s stMRC bit a0 a2 a3 (StatReg.src_lt (by decide))).bit (by decide)]
  exact State.bit_setBit_ne s Reg.MRC_STAT _ h

theorem State.reg_mrcRaise_ne (s : State) (bit : Nat) (a0 a2 a3 : Word) {a : Nat} (h : 0x401A0000 ≤ a ∧ a < 0x401B0000) (hne : a ≠ Reg.MRC_STAT) :
    (s.raise stMRC bit a0 a2 a3).reg a = s.reg a :=
  State.reg_raise_ne s bit a0 a2 a3 hne (not_eventReg_mrc h) (by decide)

/-- The bank map's entry of a logical bank. -/
theorem bankmap_lt {b : Nat} (h : b < 32) : 0x401A0040 ≤ Reg.MRC_BANKMAPb b ∧ Reg.MRC_BANKMAPb b < 0x401A0100 := by
  simp only [Reg.MRC_BANKMAPb]
  omega

theorem State.phys_of_reg {s t : State} {b : Nat} (h : t.reg (Reg.MRC_BANKMAPb b) = s.reg (Reg.MRC_BANKMAPb b)) : t.phys b = s.phys b := State.f_of_reg h 5 0

theorem State.mirrored_of_reg {s t : State} {b : Nat} (h : t.reg (Reg.MRC_BANKMAPb b) = s.reg (Reg.MRC_BANKMAPb b)) : t.mirrored b = s.mirrored b :=
  State.bit_of_reg h 15

theorem State.bankmap_setUse (s : State) {b q u : Nat} (h : b < 32) : (s.setUse q u).reg (Reg.MRC_BANKMAPb b) = s.reg (Reg.MRC_BANKMAPb b) :=
  s.reg_setUse_ne (bankmap_lt h).2

theorem State.bankmap_setJob (s : State) (j : Option Job) {b : Nat} (h : b < 32) : (s.setJob j).reg (Reg.MRC_BANKMAPb b) = s.reg (Reg.MRC_BANKMAPb b) := by
  have := bankmap_lt h
  exact s.reg_setJob_ne j (by simp only [Reg.MRC_JOB]; omega) (by simp only [Reg.MRC_PROGRESS]; omega)

theorem State.bankmap_raise (s : State) (bit : Nat) (a0 a2 a3 : Word) {b : Nat} (h : b < 32) :
    (s.raise stMRC bit a0 a2 a3).reg (Reg.MRC_BANKMAPb b) = s.reg (Reg.MRC_BANKMAPb b) := by
  have := bankmap_lt h
  exact s.reg_mrcRaise_ne bit a0 a2 a3 (by omega) (by simp only [Reg.MRC_STAT]; omega)

/-! A migration starts (R77, step 1). -/

theorem State.startMigration_spec (j : Job) (s : State) :
    (s.startMigration j).fab.job = some { j with started := true, copied := 0, read := some (0, false) } ∧
    (s.startMigration j).fab.jobs = s.fab.jobs ∧ (s.startMigration j).mem = s.mem ∧
    (j.lbank < 32 → (s.startMigration j).mirrored j.lbank = true ∧ (s.startMigration j).phys j.lbank = s.phys j.lbank) := by
  have hreg (h : j.lbank < 32) : (s.startMigration j).reg (Reg.MRC_BANKMAPb j.lbank) =
      ((s.setF (Reg.MRC_BANKMAPb j.lbank) 13 8 j.dst).setBit (Reg.MRC_BANKMAPb j.lbank) 15 true).reg (Reg.MRC_BANKMAPb j.lbank) := by
    unfold State.startMigration
    rw [State.bankmap_setJob _ _ h]
    exact State.bankmap_setUse _ h
  refine ⟨?_, ?_, State.mem_startMigration j s, fun h => ⟨?_, ?_⟩⟩
  · unfold State.startMigration
    rw [State.fab_setJob]
  · unfold State.startMigration
    rw [State.fab_setJob]
    rfl
  · unfold State.mirrored
    rw [State.bit_of_reg (hreg h)]
    exact State.bit_setBit_same _ _ _ (by decide)
  · unfold State.phys
    rw [State.f_of_reg (hreg h)]
    simp only [State.f, State.setBit, State.reg_setReg_same]
    rw [fld_putBit_out _ _ (by decide)]
    exact State.f_setF_out s _ (by decide) (by decide)

/-! What the destination of a migration holds (R77). -/

theorem Sparse.get_foldl_set {α : Type} [DecidableEq α] (d : Nat → α) (wa : Nat) (v : Nat → α) (n : Nat) (l : List (Nat × α)) (k : Nat) :
    Sparse.get d ((List.range n).foldl (fun l i => Sparse.set d l (wa + i) (v i)) l) k =
      if wa ≤ k ∧ k < wa + n then v (k - wa) else Sparse.get d l k := by
  induction n with
  | zero => simp
  | succ n ih =>
    rw [List.range_succ, List.foldl_append, List.foldl_cons, List.foldl_nil, Sparse.get_set, ih]
    by_cases hk : k = wa + n
    · subst hk
      simp
    · rw [if_neg hk]
      have : (wa ≤ k ∧ k < wa + n) ↔ (wa ≤ k ∧ k < wa + (n + 1)) := by omega
      simp only [this]

/-- The bank that a migration has copied is served from its destination. -/
theorem State.byte_takeOver (b : Nat) (s : State) (k : Nat) (h : inBank b k = true) : (s.takeOver b).byte k = Sparse.get memDefault s.fab.dest k := by
  unfold State.takeOver State.byte
  dsimp only
  rw [Sparse.get_setAll]
  split
  · rfl
  · rename_i hk
    rw [Sparse.get_filter_drop memDefault _ k (by simp [h]), Sparse.get_of_not_mem memDefault hk]

theorem State.byte_zeroBank (b : Nat) (s : State) (k : Nat) : (s.zeroBank b).byte k = if inBank b k then 0 else s.byte k := by
  unfold State.zeroBank State.byte
  dsimp only
  split
  · rename_i h
    exact Sparse.get_filter_drop memDefault _ k (by simp [h]) _
  · rename_i h
    exact Sparse.get_filter_keep memDefault _ k (by simp [h]) _

theorem State.byte_zeroSram (s : State) (k : Nat) : s.zeroSram.byte k = if inSram k then 0 else s.byte k := by
  unfold State.zeroSram State.byte
  dsimp only
  split
  · rename_i h
    exact Sparse.get_filter_drop memDefault _ k (by simp [h]) _
  · rename_i h
    exact Sparse.get_filter_keep memDefault _ k (by simp [h]) _

/-! Requests (R80, R83, R84). -/

theorem State.mrcReq_preserving (b : Fin 32) (s : State) : s.mrcReq (wd (512 + b.val)) = s.reqPreserving b.val := by
  have h : ∀ b : Fin 32, bitAt (wd (512 + b.val)) 9 = true ∧ bitAt (wd (512 + b.val)) 8 = false ∧ fld (wd (512 + b.val)) 4 0 = b.val := by decide
  obtain ⟨h9, h8, hb⟩ := h b
  simp only [State.mrcReq, h9, h8, hb, if_true, Bool.false_eq_true, if_false]

theorem State.mrcReq_destroying (b : Fin 32) (s : State) : s.mrcReq (wd (768 + b.val)) = s.reqDestroying b.val := by
  have h : ∀ b : Fin 32, bitAt (wd (768 + b.val)) 9 = true ∧ bitAt (wd (768 + b.val)) 8 = true ∧ fld (wd (768 + b.val)) 4 0 = b.val := by decide
  obtain ⟨h9, h8, hb⟩ := h b
  simp only [State.mrcReq, h9, h8, hb, if_true]

theorem execMrcReqPreserving_eq {m : Acc} (b : Fin 32) {s : State} (hm : m.debug = false) (hoff : s.targetOff Reg.MRC_REQ = false) :
    exec (.mrcReqPreserving m b) s = .next ((s.reqPreserving b.val).reply 0 0) := by
  show execMrcReqPreserving m b s = _
  unfold execMrcReqPreserving
  rw [State.askWrite_word (.inl hm) hoff (by decide) rfl, ← State.mrcReq_preserving]
  rfl

theorem execMrcReqDestroying_eq {m : Acc} (b : Fin 32) {s : State} (hm : m.debug = false) (hoff : s.targetOff Reg.MRC_REQ = false) :
    exec (.mrcReqDestroying m b) s = .next ((s.reqDestroying b.val).reply 0 0) := by
  show execMrcReqDestroying m b s = _
  unfold execMrcReqDestroying
  rw [State.askWrite_word (.inl hm) hoff (by decide) rfl, ← State.mrcReq_destroying]
  rfl

/-- A request that is refused only sets its status bit (R80). -/
theorem State.req_refused {b : Nat} {s : State} :
    (s.engineIdle = false → s.reqPreserving b = s.raise stMRC 4 (wd (s.phys b)) 0 0 ∧ s.reqDestroying b = s.raise stMRC 4 (wd (s.phys b)) 0 0) ∧
    (s.engineIdle = true → s.freeSpare = none → s.reqPreserving b = s.raise stMRC 4 (wd (s.phys b)) 0 0) := by
  refine ⟨fun h => ⟨?_, ?_⟩, fun h hs => ?_⟩
  · simp only [State.reqPreserving, h, Bool.false_eq_true, if_false]
  · simp only [State.reqDestroying, h, Bool.false_eq_true, if_false]
  · simp only [State.reqPreserving, h, hs, if_true]

end Sys2Proof.Machine
end

section
/-! The statement on the march test engine. -/

namespace Sys2Proof.Machine

/-! Migrations. -/

theorem State.startQueued_cons {j : Job} {rest : List Job} {l : Nat} {s : State} (h : s.carried j.src = some l) :
    s.startQueued (j :: rest) = (({ s with fab := { s.fab with jobs := rest } } : State)).startMigration { j with lbank := l } := by
  simp only [State.startQueued, h]

theorem State.carried_lt {s : State} {q l : Nat} (h : s.carried q = some l) : l < 32 := by simpa using List.mem_of_find?_eq_some h

theorem execMigrationStart_eq {s : State} (h : s.fab.job = none) : exec .migrationStart s = .next (s.startQueued s.fab.jobs) := by
  show execMigrationStart s = _
  simp only [execMigrationStart, h]

/-- A copied word goes to the destination unless a mirrored write cancelled it (R77, R78). -/
theorem migrationCopy_spec {j : Job} {i : Nat} {c : Bool} {s : State} (hj : s.fab.job = some j) (hr : j.read = some (i, c)) :
    Completes .migrationCopy s fun t =>
      t.fab.job = some { j with copied := i + 1, read := if i + 1 < 131072 then some (i + 1, false) else none } ∧ SameMemory s t ∧
      (c = false → ∀ n, n < 16 → Sparse.get memDefault t.fab.dest (bankWord j.lbank i + n) = s.byte (bankWord j.lbank i + n)) ∧
      (c = true → t.fab.dest = s.fab.dest) := by
  refine ⟨_, show execMigrationCopy s = .next _ by simp only [execMigrationCopy, hj, hr]; rfl, ?_, fun k => ?_, fun hc n hn => ?_, fun hc => ?_⟩
  · rw [State.fab_setJob]
  · refine State.byte_congr ?_ k
    rw [State.mem_setJob]
    split <;> rfl
  · subst hc
    rw [State.fab_setJob]
    dsimp only
    rw [if_neg (by simp)]
    dsimp only
    rw [Sparse.get_foldl_set, if_pos (by omega)]
    congr 1
    omega
  · subst hc
    rw [State.fab_setJob]
    rfl

/-- The state in which the destination of a migration has taken the bank over (R77, R79). -/
def State.movedBank (j : Job) (s : State) : State :=
  (((s.setF (Reg.MRC_BANKMAPb j.lbank) 5 0 j.dst).setBit (Reg.MRC_BANKMAPb j.lbank) 15 false).takeOver j.lbank).setUse j.dst 0

theorem State.movedBank_spec {j : Job} (s : State) (hb : j.lbank < 32) (hd : j.dst < 34) :
    (s.movedBank j).phys j.lbank = j.dst ∧ (s.movedBank j).mirrored j.lbank = false ∧
    ∀ k, inBank j.lbank k = true → (s.movedBank j).byte k = Sparse.get memDefault s.fab.dest k := by
  have hreg : (s.movedBank j).reg (Reg.MRC_BANKMAPb j.lbank) =
      ((s.setF (Reg.MRC_BANKMAPb j.lbank) 5 0 j.dst).setBit (Reg.MRC_BANKMAPb j.lbank) 15 false).reg (Reg.MRC_BANKMAPb j.lbank) :=
    State.bankmap_setUse _ hb
  refine ⟨?_, ?_, fun k hk => ?_⟩
  · unfold State.phys
    rw [State.f_of_reg hreg]
    simp only [State.f, State.setBit, State.reg_setReg_same]
    rw [fld_putBit_out _ _ (by decide)]
    refine (State.f_setF_same s _ (by decide)).trans (Nat.mod_eq_of_lt (by omega))
  · unfold State.mirrored
    rw [State.bit_of_reg hreg]
    exact State.bit_setBit_same _ _ _ (by decide)
  · exact State.byte_takeOver j.lbank ((s.setF (Reg.MRC_BANKMAPb j.lbank) 5 0 j.dst).setBit (Reg.MRC_BANKMAPb j.lbank) 15 false) k hk

theorem execMigrationDone_eq {j : Job} {s : State} (hj : s.fab.job = some j) (hs : j.started = true) (hc : j.copied = 131072) (hr : j.read = none) :
    (j.step = .spare → exec .migrationDone s = .next ((((s.movedBank j).setUse j.src 2).setJob none).raise stMRC 7 (wd j.src) 0 0)) ∧
    (j.step = .migrateOut → exec .migrationDone s =
      .next (((s.movedBank j).setUse j.src 3).setJob (some { j with step := .test, started := false, copied := 0 }))) ∧
    (j.step = .migrateBack → exec .migrationDone s = .next ((((s.movedBank j).setUse j.src 1).setJob none).raise stMRC 6 (wd j.dst) 0 0)) := by
  have hexec : exec .migrationDone s = execMigrationDone s := rfl
  rw [hexec]
  unfold execMigrationDone
  refine ⟨fun h => ?_, fun h => ?_, fun h => ?_⟩ <;>
  · simp only [hj, hs, hc, hr, h, and_self, if_true]
    rfl

theorem migrationDone_spec {j : Job} {s : State} (hj : s.fab.job = some j) (hs : j.started = true) (hc : j.copied = 131072) (hr : j.read = none)
    (hb : j.lbank < 32) (hd : j.dst < 34) (ht : j.step ≠ .test) : Completes .migrationDone s fun t =>
      t.phys j.lbank = j.dst ∧ t.mirrored j.lbank = false ∧
      (j.step = .spare → t.fab.job = none ∧ t.bit Reg.MRC_STAT 7 = true) ∧
      (j.step = .migrateOut → t.fab.job = some { j with step := .test, started := false, copied := 0 }) ∧
      (j.step = .migrateBack → t.fab.job = none ∧ t.bit Reg.MRC_STAT 6 = true) ∧
      (∀ k, inBank j.lbank k = true → t.byte k = Sparse.get memDefault s.fab.dest k) := by
  obtain ⟨hspare, hout, hback⟩ := execMigrationDone_eq hj hs hc hr
  obtain ⟨hp, hm, hbyte⟩ := s.movedBank_spec hb hd
  have hend (u bit : Nat) (a0 : Word) (g : Option Job) :
      ((((s.movedBank j).setUse j.src u).setJob g).raise stMRC bit a0 0 0).reg (Reg.MRC_BANKMAPb j.lbank) = (s.movedBank j).reg (Reg.MRC_BANKMAPb j.lbank) := by
    rw [State.bankmap_raise _ _ _ _ _ hb, State.bankmap_setJob _ _ hb, State.bankmap_setUse _ hb]
  cases h : j.step with
  | spare =>
    refine ⟨_, hspare h, (State.phys_of_reg (hend ..)).trans hp, (State.mirrored_of_reg (hend ..)).trans hm, fun _ => ⟨?_, State.mrc_raise _ _ _ _ (by decide)⟩,
      fun k => by simp at k, fun k => by simp at k, fun k hk => (State.byte_congr (by simp [State.setUse]) k).trans (hbyte k hk)⟩
    rw [State.fab_raise, State.fab_setJob]
  | migrateOut =>
    have hreg : (((s.movedBank j).setUse j.src 3).setJob (some { j with step := .test, started := false, copied := 0 })).reg (Reg.MRC_BANKMAPb j.lbank) =
        (s.movedBank j).reg (Reg.MRC_BANKMAPb j.lbank) := by
      rw [State.bankmap_setJob _ _ hb, State.bankmap_setUse _ hb]
    refine ⟨_, hout h, (State.phys_of_reg hreg).trans hp, (State.mirrored_of_reg hreg).trans hm, fun k => by simp at k, fun _ => ?_, fun k => by simp at k,
      fun k hk => (State.byte_congr (by simp [State.setUse]) k).trans (hbyte k hk)⟩
    rw [State.fab_setJob]
  | migrateBack =>
    refine ⟨_, hback h, (State.phys_of_reg (hend ..)).trans hp, (State.mirrored_of_reg (hend ..)).trans hm, fun k => by simp at k, fun k => by simp at k,
      fun _ => ⟨?_, State.mrc_raise _ _ _ _ (by decide)⟩, fun k hk => (State.byte_congr (by simp [State.setUse]) k).trans (hbyte k hk)⟩
    rw [State.fab_raise, State.fab_setJob]
  | test => exact absurd h ht

/-! The march of a bank (R81, R83, R84). -/

/-- How a march of a bank ends: the job, status bits and memory. -/
theorem marchTestDone_spec {j : Job} (reads : List MarchRead) {s : State} (hj : s.fab.job = some j) (hs : j.step = .test) :
    (j.destroying = true → Completes (.marchTestDone reads) s fun t =>
      t.fab.job = none ∧ t.bit Reg.MRC_STAT 6 = true ∧ (reads.any readWrong = true → t.bit Reg.MRC_STAT 5 = true) ∧
      (∀ k, inBank j.lbank k = true → t.byte k = 0) ∧ (∀ k, inBank j.lbank k = false → t.byte k = s.byte k)) ∧
    (j.destroying = false → reads.any readWrong = true → Completes (.marchTestDone reads) s fun t =>
      t.fab.job = none ∧ t.bit Reg.MRC_STAT 5 = true ∧ t.bit Reg.MRC_STAT 6 = true ∧ SameMemory s t) ∧
    (j.destroying = false → reads.any readWrong = false → j.lbank < 32 → Completes (.marchTestDone reads) s fun t =>
      t.fab.job = some ⟨.migrateBack, false, j.lbank, j.dst, j.src, true, 0, some (0, false)⟩ ∧ t.mirrored j.lbank = true ∧ SameMemory s t) := by
  have hexec : exec (.marchTestDone reads) s = execMarchTestDone reads s := rfl
  -- After the job is over a status bit that the failed march set stands, and bit 6 is set.
  have hend {u : State} (a : Word) : ((u.setJob none).raise stMRC 6 a 0 0).fab.job = none ∧ ((u.setJob none).raise stMRC 6 a 0 0).bit Reg.MRC_STAT 6 = true ∧
      (u.bit Reg.MRC_STAT 5 = true → ((u.setJob none).raise stMRC 6 a 0 0).bit Reg.MRC_STAT 5 = true) ∧
      ((u.setJob none).raise stMRC 6 a 0 0).mem = u.mem := by
    refine ⟨by rw [State.fab_raise, State.fab_setJob], State.mrc_raise _ _ _ _ (by decide), fun h => ?_, by simp⟩
    rw [State.mrc_raise_ne _ _ _ _ (by decide), State.bit_of_reg (State.reg_setJob_ne _ _ (by decide) (by decide))]
    exact h
  refine ⟨fun hd => ?_, fun hd hw => ?_, fun hd hw hb => ?_⟩
  · have hbytes {t : State} (h : t.mem = (((s.setBit (Reg.MRC_CECNTq j.src) 9 (reads.any readWrong)).zeroBank j.lbank)).mem) :
        (∀ k, inBank j.lbank k = true → t.byte k = 0) ∧ (∀ k, inBank j.lbank k = false → t.byte k = s.byte k) := by
      refine ⟨fun k hk => ?_, fun k hk => ?_⟩
      · rw [State.byte_congr h, State.byte_zeroBank, hk, if_pos rfl]
      · rw [State.byte_congr h, State.byte_zeroBank, hk]
        rfl
    have hbank (u : State) (x : Nat) (h : u.bit Reg.MRC_STAT 5 = true) : (u.setF (Reg.MRC_BANKMAPb j.lbank) 5 0 x).bit Reg.MRC_STAT 5 = true := by
      rw [State.bit_of_reg (State.reg_setF_ne _ (by simp only [Reg.MRC_STAT, Reg.MRC_BANKMAPb]; omega) _ _ _)]
      exact h
    have huse (u : State) (q x : Nat) (h : u.bit Reg.MRC_STAT 5 = true) : (u.setUse q x).bit Reg.MRC_STAT 5 = true := by
      rw [State.bit_of_reg (State.reg_setUse_ne _ (by decide))]
      exact h
    rw [Completes, hexec]
    unfold execMarchTestDone
    simp only [hj, hs, hd, if_true]
    generalize hu : (s.setBit (Reg.MRC_CECNTq j.src) 9 (reads.any readWrong)).zeroBank j.lbank = u at hbytes
    by_cases hw : reads.any readWrong = true
    · have h5 : (u.raise stMRC 5 (wd j.src) 0 0).bit Reg.MRC_STAT 5 = true := State.mrc_raise _ _ _ _ (by decide)
      have hm : (u.raise stMRC 5 (wd j.src) 0 0).mem = u.mem := State.mem_raise ..
      simp only [hw, if_true]
      generalize u.raise stMRC 5 (wd j.src) 0 0 = v at h5 hm
      split
      · rename_i x hx
        obtain ⟨hjob, h6, h5', hmem⟩ := hend (u := ((v.setF (Reg.MRC_BANKMAPb j.lbank) 5 0 x).setUse x 0).setUse j.src 2) (wd j.src)
        exact ⟨_, rfl, hjob, h6, fun _ => h5' (huse _ _ _ (huse _ _ _ (hbank _ _ h5))), hbytes (hmem.trans hm)⟩
      · obtain ⟨hjob, h6, h5', hmem⟩ := hend (u := (v.setUse j.src 0).raise stMRC 3 (wd j.src) 0 0) (wd j.src)
        refine ⟨_, rfl, hjob, h6, fun _ => h5' ?_, hbytes (hmem.trans ((State.mem_raise ..).trans hm))⟩
        rw [State.mrc_raise_ne _ _ _ _ (by decide)]
        exact huse _ _ _ h5
    · simp only [hw, Bool.false_eq_true, if_false]
      obtain ⟨hjob, h6, -, hmem⟩ := hend (u := u.setUse j.src 0) (wd j.src)
      exact ⟨_, rfl, hjob, h6, fun h => absurd h (by simp), hbytes hmem⟩
  · rw [Completes, hexec]
    unfold execMarchTestDone
    simp only [hj, hs, hd, hw, Bool.false_eq_true, if_false, if_true]
    obtain ⟨hjob, h6, h5, hmem⟩ := hend (u := ((s.setBit (Reg.MRC_CECNTq j.src) 9 true).setUse j.src 2).raise stMRC 5 (wd j.src) 0 0) (wd j.src)
    exact ⟨_, rfl, hjob, h5 (State.mrc_raise _ _ _ _ (by decide)), h6, fun k => State.byte_congr (hmem.trans (State.mem_raise ..)) k⟩
  · rw [Completes, hexec]
    unfold execMarchTestDone
    simp only [hj, hs, hd, hw, Bool.false_eq_true, if_false, if_true]
    obtain ⟨hjob, -, hmem, hmir⟩ := State.startMigration_spec ⟨.migrateBack, false, j.lbank, j.dst, j.src, false, 0, none⟩ (s.setBit (Reg.MRC_CECNTq j.src) 9 false)
    exact ⟨_, rfl, hjob, (hmir hb).1, fun k => State.byte_congr hmem k⟩

end Sys2Proof.Machine
end

section
/-! The statement on the march test engine: the start-up march, the wipe's end and the whole. -/

namespace Sys2Proof.Machine

/-! Writes held during the start-up march are made after it (R82). -/

/-- What a write of main SRAM leaves of the march. -/
structure SameMarch (s t : State) : Prop where
  marching : t.fab.marching = s.fab.marching
  stopped : t.fab.bootStopped = s.fab.bootStopped

theorem SameMarch.trans {s t u : State} (h : SameMarch s t) (k : SameMarch t u) : SameMarch s u :=
  ⟨k.marching.trans h.marching, k.stopped.trans h.stopped⟩

theorem Checked.sameMarch {s t : State} (h : Checked s t) : SameMarch s t := by
  obtain ⟨_, _, _, _, _, _, _, rfl⟩ := h.state
  exact ⟨rfl, rfl⟩

theorem SameMarch.of_fab {s t : State} (h : t.fab = s.fab) : SameMarch s t := by
  constructor <;> rw [h]

theorem State.checked_eccMerge {q : Nat} (hq : q < 64) (k : Nat) (s : State) : Checked s (s.eccMerge k q).2 := by
  unfold State.eccMerge
  split
  · exact .refl s
  · exact State.checked_foundUe ..
  · exact Checked.ite (.refl s) (State.checked_countCorrection hq ..)

theorem State.sameMarch_mirrorWord (wa : Nat) (s : State) : SameMarch s (s.mirrorWord wa) := by
  unfold State.mirrorWord
  split <;> exact ⟨rfl, rfl⟩

theorem State.sameMarch_sramWrite (port wa mask data : Nat) (s : State) : SameMarch s (s.sramWrite port wa mask data).2 := by
  unfold State.sramWrite
  split
  · exact ⟨rfl, rfl⟩
  · have h1 : SameMarch s (s.grantWords port 1) := (s.checked_grantWords port 1).sameMarch
    generalize s.grantWords port 1 = t at h1
    dsimp only
    split
    · exact h1.trans (State.checked_errResponse ..).sameMarch
    · split
      · exact h1.trans (State.checked_errResponse ..).sameMarch
      · have h2 : SameMarch s (if decide (mask % 2 ^ 16 = 2 ^ 16 - 1) = true then (0, t) else t.eccMerge wa (t.phys (bankOf wa))).2 := by
          split
          · exact h1
          · exact h1.trans (State.checked_eccMerge (t.phys_lt _) ..).sameMarch
        generalize (if decide (mask % 2 ^ 16 = 2 ^ 16 - 1) = true then (0, t) else t.eccMerge wa (t.phys (bankOf wa))) = r at h2
        obtain ⟨c, u⟩ := r
        dsimp only at h2 ⊢
        split
        · exact h2.trans (State.checked_errResponse ..).sameMarch
        · refine (h2.trans (.of_fab (State.fab_putMasked wa mask data u))).trans (SameMarch.trans ?_ (State.sameMarch_mirrorWord ..))
          exact ⟨rfl, rfl⟩

theorem State.releaseHeld_spec (s : State) : s.releaseHeld.fab.marching = false ∧ s.releaseHeld.fab.bootStopped = s.fab.bootStopped := by
  unfold State.releaseHeld
  suffices h : ∀ (l : List HeldW) (t : State), t.fab.marching = false → t.fab.bootStopped = s.fab.bootStopped →
      (l.foldl (fun t w => (t.sramWrite w.port w.addr w.mask w.data).2) t).fab.marching = false ∧
      (l.foldl (fun t w => (t.sramWrite w.port w.addr w.mask w.data).2) t).fab.bootStopped = s.fab.bootStopped from h _ _ rfl rfl
  intro l
  induction l with
  | nil => exact fun t h1 h2 => ⟨h1, h2⟩
  | cons w l ih =>
    intro t h1 h2
    have hw := State.sameMarch_sramWrite w.port w.addr w.mask w.data t
    exact ih _ (hw.marching.trans h1) (hw.stopped.trans h2)

/-! The bank map after the start-up march (R82). -/

/-- The FAIL bit of a bank's entry. -/
abbrev State.failBit (s : State) (q : Nat) : Bool := s.bit (Reg.MRC_CECNTq q) 9

theorem State.failBit_setUse (s : State) (q p u : Nat) : (s.setUse p u).failBit q = s.failBit q := by
  by_cases h : q = p
  · subst h
    simp only [State.bit, State.setUse, State.setF, State.reg_setReg_same]
    exact bitAt_setFld_out _ (by omega) (by decide)
  · exact State.bit_of_reg (State.reg_setF_ne s (by simp only [Reg.MRC_CECNTq]; omega) _ _ _) 9

theorem State.failBit_marked {bad : List Nat} {q : Nat} (s : State) (h : q ∈ bad) :
    (bad.foldl (fun t q => (t.setBit (Reg.MRC_CECNTq q) 9 true).setUse q 2) s).failBit q = true := by
  have hstep (t : State) (p : Nat) (ht : t.failBit q = true ∨ q = p) : ((t.setBit (Reg.MRC_CECNTq p) 9 true).setUse p 2).failBit q = true := by
    rw [State.failBit_setUse]
    by_cases hp : q = p
    · subst hp
      exact State.bit_setBit_same _ _ _ (by decide)
    · unfold State.failBit
      rw [State.bit_of_reg (State.reg_setBit_ne t (by simp only [Reg.MRC_CECNTq]; omega) _ _)]
      exact ht.resolve_right hp
  have hkeep : ∀ (l : List Nat) (t : State), t.failBit q = true → (l.foldl (fun t q => (t.setBit (Reg.MRC_CECNTq q) 9 true).setUse q 2) t).failBit q = true := by
    intro l
    induction l with
    | nil => exact fun t h => h
    | cons p l ih => exact fun t h => ih _ (hstep t p (.inl h))
  induction bad generalizing s with
  | nil => cases h
  | cons p l ih =>
    rcases List.mem_cons.mp h with rfl | h
    · exact hkeep l _ (hstep s q (.inr rfl))
    · exact ih _ h

theorem State.mapFailed_ok (bs xs : List Nat) (s : State) : (State.mapFailed bs xs s).2 = decide (bs.length ≤ xs.length) := by
  induction bs generalizing xs s with
  | nil => simp [State.mapFailed]
  | cons b bs ih =>
    cases xs with
    | nil => simp [State.mapFailed]
    | cons x xs =>
      rw [State.mapFailed, ih]
      simp

theorem State.fab_mapFailed (bs xs : List Nat) (s : State) : (State.mapFailed bs xs s).1.fab = s.fab := by
  induction bs generalizing xs s with
  | nil => rfl
  | cons b bs ih =>
    cases xs with
    | nil => rfl
    | cons x xs =>
      rw [State.mapFailed, ih]
      rfl

theorem State.failBit_mapFailed (q : Nat) {bs : List Nat} (hb : ∀ b ∈ bs, b < 32) (xs : List Nat) (s : State) :
    (State.mapFailed bs xs s).1.failBit q = s.failBit q := by
  induction bs generalizing xs s with
  | nil => rfl
  | cons b bs ih =>
    cases xs with
    | nil => rfl
    | cons x xs =>
      have h32 := hb b (by simp)
      rw [State.mapFailed, ih (fun c hc => hb c (by simp [hc])), State.failBit_setUse]
      exact State.bit_of_reg (State.reg_setF_ne s (by simp only [Reg.MRC_CECNTq, Reg.MRC_BANKMAPb]; omega) _ _ _) 9

theorem State.bankmap_mapFailed {c : Nat} (hc : c < 32) {bs : List Nat} (hb : c ∉ bs) (xs : List Nat) (s : State) :
    (State.mapFailed bs xs s).1.reg (Reg.MRC_BANKMAPb c) = s.reg (Reg.MRC_BANKMAPb c) := by
  induction bs generalizing xs s with
  | nil => rfl
  | cons b bs ih =>
    cases xs with
    | nil => rfl
    | cons x xs =>
      simp only [List.mem_cons, not_or] at hb
      rw [State.mapFailed, ih hb.2, State.bankmap_setUse _ hc]
      exact State.reg_setF_ne s (by simp only [Reg.MRC_BANKMAPb]; omega) _ _ _

theorem State.phys_mapFailed {bs xs : List Nat} (hn : bs.Nodup) (hb : ∀ b ∈ bs, b < 32) (hx : ∀ x ∈ xs, x < 64) (s : State) (i b x : Nat) (hi : bs[i]? = some b)
    (hj : xs[i]? = some x) : (State.mapFailed bs xs s).1.phys b = x := by
  induction bs generalizing xs s i with
  | nil => simp at hi
  | cons c bs ih =>
    cases xs with
    | nil => simp at hj
    | cons y xs =>
      obtain ⟨hc, hn⟩ := List.nodup_cons.mp hn
      rw [State.mapFailed]
      cases i with
      | zero =>
        simp only [List.getElem?_cons_zero, Option.some.injEq] at hi hj
        subst hi hj
        have h32 := hb c (by simp)
        rw [State.phys_of_reg ((State.bankmap_mapFailed h32 hc _ _).trans (State.bankmap_setUse _ h32))]
        exact (State.f_setF_same s _ (by decide)).trans (Nat.mod_eq_of_lt (hx y (by simp)))
      | succ i =>
        exact ih hn (fun b h => hb b (by simp [h])) (fun x h => hx x (by simp [h])) _ i (by simpa using hi) (by simpa using hj)

/-- The state at the end of the start-up march, before the masters reach main SRAM. -/
def State.marched (bad : List Nat) (s : State) : State × Bool :=
  let s2 := bad.foldl (fun t q => (t.setBit (Reg.MRC_CECNTq q) 9 true).setUse q 2) s.zeroSram
  let lo := wd ((bad.filter fun q => decide (q < 32)).foldl (fun n q => n + 2 ^ q) 0)
  let hi := wd ((bad.filter fun q => decide (32 ≤ q)).foldl (fun n q => n + 2 ^ (q - 32)) 0)
  State.mapFailed (bad.filter fun q => decide (q < 32)) ([32, 33].filter fun q => !bad.contains q)
    ((s2.setReg Reg.MRC_BOOTFAILLO lo).setReg Reg.MRC_BOOTFAILHI hi)

theorem State.fab_marched (bad : List Nat) (s : State) : (s.marched bad).1.fab = s.zeroSram.fab := by
  unfold State.marched
  rw [State.fab_mapFailed]
  exact foldl_keeps State.fab (f := fun t q => (t.setBit (Reg.MRC_CECNTq q) 9 true).setUse q 2) (fun _ _ => rfl) bad s.zeroSram

theorem State.mem_marched (bad : List Nat) (s : State) : (s.marched bad).1.mem = s.zeroSram.mem := by
  unfold State.marched
  rw [State.mem_mapFailed]
  exact foldl_keeps State.mem (f := fun t q => (t.setBit (Reg.MRC_CECNTq q) 9 true).setUse q 2) (fun _ _ => rfl) bad s.zeroSram

theorem execStartupMarchDone_eq {reads : List (Fin 34 × MarchRead)} {bad : List Nat} {s : State} (hm : s.fab.marching = true)
    (hbad : bad = (List.range 34).filter fun q => reads.any fun r => decide (r.1.val = q) && readWrong r.2) : exec (.startupMarchDone reads) s = .next
      (let t := (s.marched bad).1.releaseHeld
       if (s.marched bad).2 then t else
         let u := { t with fab := { t.fab with bootStopped := true }, pin := { t.pin with alert := true } }
         (u.logEvent 0x70 0 (u.reg Reg.MRC_STAT) (u.reg Reg.MRC_ERRADDR) (u.reg Reg.MRC_ERRINFO)).emit .alertBoot) := by
  subst hbad
  show execStartupMarchDone reads s = _
  simp only [execStartupMarchDone, hm, Bool.not_true, Bool.false_eq_true, if_false]
  unfold State.marched
  split <;> rfl

/-- The end of the start-up march (R82). -/
theorem startupMarchDone_spec {reads : List (Fin 34 × MarchRead)} {bad banks spares : List Nat} {s : State} (hm : s.fab.marching = true)
    (hbad : bad = (List.range 34).filter fun q => reads.any fun r => decide (r.1.val = q) && readWrong r.2)
    (hbanks : banks = bad.filter fun q => decide (q < 32)) (hspares : spares = [32, 33].filter fun q => !bad.contains q) :
    Completes (.startupMarchDone reads) s fun t => t.fab.marching = false ∧
        (banks.length ≤ spares.length → t.fab.bootStopped = s.fab.bootStopped) ∧
        (spares.length < banks.length → t.fab.bootStopped = true ∧ t.pin.alert = true) ∧
        (s.fab.held = [] → (∀ k, t.byte k = if inSram k then 0 else s.byte k) ∧ (∀ q ∈ bad, t.bit (Reg.MRC_CECNTq q) 9 = true) ∧
          (∀ (i b x : Nat), banks[i]? = some b → spares[i]? = some x → t.phys b = x)) := by
  have hok : (s.marched bad).2 = decide (banks.length ≤ spares.length) := by
    subst hbanks hspares
    exact State.mapFailed_ok ..
  have hb32 : ∀ b ∈ banks, b < 32 := by
    subst hbanks
    intro b hb
    simpa using (List.mem_filter.mp hb).2
  have hx64 : ∀ x ∈ spares, x < 64 := by
    subst hspares
    intro x hx
    have := (List.mem_filter.mp hx).1
    simp at this
    omega
  have hnodup : banks.Nodup := by
    subst hbanks hbad
    exact (List.nodup_range.filter _).filter _
  have hbad34 : ∀ q ∈ bad, q < 34 := by
    subst hbad
    intro q hq
    simpa using (List.mem_filter.mp hq).1
  have hfab := s.fab_marched bad
  have hmem := s.mem_marched bad
  have hfail : ∀ q ∈ bad, (s.marched bad).1.failBit q = true := by
    intro q hq
    have hq34 := hbad34 q hq
    have h := State.failBit_marked s.zeroSram hq
    unfold State.marched
    rw [State.failBit_mapFailed q (hbanks ▸ hb32)]
    unfold State.failBit
    rw [State.bit_of_reg (State.reg_setReg_ne _ (by simp only [Reg.MRC_CECNTq, Reg.MRC_BOOTFAILHI]; omega) _),
      State.bit_of_reg (State.reg_setReg_ne _ (by simp only [Reg.MRC_CECNTq, Reg.MRC_BOOTFAILLO]; omega) _)]
    exact h
  have hphys : ∀ (i b x : Nat), banks[i]? = some b → spares[i]? = some x → (s.marched bad).1.phys b = x := by
    subst hbanks hspares
    exact fun i b x hi hj => State.phys_mapFailed hnodup hb32 hx64 _ i b x hi hj
  refine ⟨_, execStartupMarchDone_eq hm hbad, ?_⟩
  rw [hok]
  generalize (s.marched bad).1 = u at hfab hmem hfail hphys
  obtain ⟨hrm, hrs⟩ := u.releaseHeld_spec
  have hsm : u.releaseHeld.fab.bootStopped = s.fab.bootStopped := by
    rw [hrs, hfab]
    rfl
  have hrel : s.fab.held = [] → u.releaseHeld = { u with fab := { u.fab with marching := false, held := [] } } := by
    intro h
    have hu : u.fab.held = [] := by
      rw [hfab]
      exact h
    simp only [State.releaseHeld, hu, List.foldl_nil]
  -- What the alarm of a boot that stops leaves: events alone.
  have hkeep : ∀ t : State, t.mem = u.releaseHeld.mem → (∀ a, 0x401A0000 ≤ a → a < 0x401B0000 → t.reg a = u.releaseHeld.reg a) → s.fab.held = [] →
      (∀ k, t.byte k = if inSram k then 0 else s.byte k) ∧ (∀ q ∈ bad, t.bit (Reg.MRC_CECNTq q) 9 = true) ∧
        (∀ (i b x : Nat), banks[i]? = some b → spares[i]? = some x → t.phys b = x) := by
    intro t hmt hrt hh
    rw [hrel hh] at hmt hrt
    refine ⟨fun k => ?_, fun q hq => ?_, fun i b x hi hj => ?_⟩
    · rw [← State.byte_zeroSram]
      exact State.byte_congr (hmt.trans hmem) k
    · have hq34 := hbad34 q hq
      rw [State.bit_of_reg (hrt _ (by simp only [Reg.MRC_CECNTq]; omega) (by simp only [Reg.MRC_CECNTq]; omega))]
      exact hfail q hq
    · have hb := bankmap_lt (hb32 b (List.mem_of_getElem? hi))
      rw [State.phys_of_reg (hrt _ (by omega) (by omega))]
      exact hphys i b x hi hj
  by_cases hlen : banks.length ≤ spares.length
  · simp only [hlen, decide_true, if_true]
    exact ⟨hrm, fun _ => hsm, fun h => absurd h (by omega), hkeep _ rfl fun _ _ _ => rfl⟩
  · simp only [hlen, decide_false, Bool.false_eq_true, if_false]
    refine ⟨by simpa using hrm, fun h => absurd h (by simp), fun _ => by simp, hkeep _ (by simp) fun a h1 h2 => ?_⟩
    rw [State.reg_emit, (State.logEvent_noted ..).regs a (not_eventReg_mrc ⟨h1, h2⟩)]
    rfl

end Sys2Proof.Machine
end

section
/-! The statement on the march test engine, assembled. -/

namespace Sys2Proof.Machine

/-- The requests of the march test engine (R80, R83, R84). -/
theorem marchRequests {m : Acc} (b : Fin 32) {s : State} (hm : m.debug = false) (hoff : s.targetOff Reg.MRC_REQ = false) :
    (∀ x, s.engineIdle = true → s.freeSpare = some x → Completes (.mrcReqPreserving m b) s fun t =>
      t.fab.job = some ⟨.migrateOut, false, b.val, s.phys b.val, x, true, 0, some (0, false)⟩ ∧ t.mirrored b.val = true ∧ t.phys b.val = s.phys b.val ∧ SameMemory s t) ∧
    (s.engineIdle = true → s.freeSpare = none → Completes (.mrcReqPreserving m b) s fun t => t.bit Reg.MRC_STAT 4 = true ∧ t.fab = s.fab) ∧
    (s.engineIdle = true → Completes (.mrcReqDestroying m b) s fun t => t.bankBusy b.val = true ∧ SameMemory s t) ∧
    (s.engineIdle = false →
      Completes (.mrcReqPreserving m b) s (fun t => t.bit Reg.MRC_STAT 4 = true ∧ t.fab = s.fab) ∧
      Completes (.mrcReqDestroying m b) s (fun t => t.bit Reg.MRC_STAT 4 = true ∧ t.fab = s.fab)) := by
  have hpres := execMrcReqPreserving_eq b hm hoff
  have hdest := execMrcReqDestroying_eq b hm hoff
  have href : ((s.raise stMRC 4 (wd (s.phys b.val)) 0 0).reply 0 0).bit Reg.MRC_STAT 4 = true ∧ ((s.raise stMRC 4 (wd (s.phys b.val)) 0 0).reply 0 0).fab = s.fab := by
    refine ⟨(State.bit_reply ..).trans (State.mrc_raise _ _ _ _ (by decide)), ?_⟩
    rw [State.fab_reply, State.fab_raise]
  refine ⟨fun x hi hx => ?_, fun hi hx => ?_, fun hi => ?_, fun hi => ⟨?_, ?_⟩⟩
  · rw [State.reqPreserving, hi, if_pos rfl, hx] at hpres
    obtain ⟨hjob, -, hmem, hmir⟩ := s.startMigration_spec ⟨.migrateOut, false, b.val, s.phys b.val, x, false, 0, none⟩
    exact ⟨_, hpres, hjob, (hmir b.isLt).1, (hmir b.isLt).2, fun k => State.byte_congr hmem k⟩
  · rw [(State.req_refused (b := b.val)).2 hi hx] at hpres
    exact ⟨_, hpres, href⟩
  · rw [State.reqDestroying, hi, if_pos rfl] at hdest
    refine ⟨_, hdest, ?_, fun k => ?_⟩
    · simp [State.bankBusy]
    · rw [State.byte_reply]
      exact State.byte_congr (State.mem_setJob ..) k
  · rw [((State.req_refused (b := b.val)).1 hi).1] at hpres
    exact ⟨_, hpres, href⟩
  · rw [((State.req_refused (b := b.val)).1 hi).2] at hdest
    exact ⟨_, hdest, href⟩

/-- A wipe ends, and the accesses that waited for it are made (R86). -/
theorem wipeDone_spec {s : State} (h : s.fab.wiping = true) :
    Completes .wipeDone s fun t => t.fab.wiping = false ∧ t.fab.stalled = [] ∧ (s.fab.stalled = [] → SameMemory s t) := by
  refine ⟨_, show execWipeDone s = .next _ by simp only [execWipeDone, h, if_true]; rfl, ?_, ?_, fun hs k => ?_⟩
  · simp only [State.secRaise, State.fab_arrive, State.fab_logEvent]
    rfl
  · simp only [State.secRaise, State.fab_arrive, State.fab_logEvent]
    rfl
  · refine State.byte_congr ?_ k
    rw [State.mem_secRaise, hs]
    rfl

/-- Settles O12: the engine's requests, its migrations, its marches, the start-up march and the wipe's end, each by its own lemma. -/
theorem march : Obligations.March := by
  unfold Obligations.March
  refine ⟨fun m b s hm hoff => marchRequests b hm hoff, fun s => ⟨execMigrationStart_eq, fun j rest l hj hjobs hl => ?_, fun j i c hj hr => migrationCopy_spec hj hr,
    fun j hj hs hc hr hb hd ht => migrationDone_spec hj hs hc hr hb hd ht, fun j reads hj hs => marchTestDone_spec reads hj hs,
    fun reads bad banks spares hm hbad hbanks hspares => startupMarchDone_spec hm hbad hbanks hspares, wipeDone_spec⟩⟩
  have hexec := execMigrationStart_eq hj
  rw [hjobs, State.startQueued_cons hl] at hexec
  obtain ⟨hjob, hrest, -, hmir⟩ := State.startMigration_spec { j with lbank := l } (({ s with fab := { s.fab with jobs := rest } } : State))
  exact ⟨_, hexec, hrest, hjob, (hmir (State.carried_lt hl)).1⟩

end Sys2Proof.Machine
end

section
/-! Statements that fail. A store into main SRAM that comes while the start-up march runs is held and made when the march ends (R82): the
bytes are not in memory after the command, though the access is granted at once by every check that the statements name. -/

namespace Sys2Proof.Machine

open Sys2Proof Sys2Proof.Tests

/-- What a result answers for the state that comes next. -/
def Res.nextHas (r : Res) (p : State → Bool) : Bool := match r with | .next t => p t | _ => false

/-- A command that completes with `P` completes in the state that is seen to have `p`. -/
theorem Completes.next_has {c : Instr} {s : State} {P : State → Prop} {p : State → Bool} (h : Completes c s P)
    (hp : Res.nextHas (exec c s) p = true) : ∃ t, P t ∧ p t = true := by
  obtain ⟨t, ht, hP⟩ := h
  rw [ht] at hp
  exact ⟨t, hP, hp⟩

/-! A core's store (R82, R324). -/

/-- GV0 stands before a store of g5 = 10 to 0x1000_0000 while the start-up march runs. -/
def marchingStore : State := { coreAt 0 (encI 0x25 5 13 0#18) (quiet 0) with fab.marching := true }

theorem marchingStore_keeps_sram : Res.nextHas (exec (.gvStw 0 5 13 0#18) marchingStore) (fun t => t.le 0x10000000 4 == 0) = true := by
  decide +kernel

/-- Refutes O28: a store into main SRAM while the start-up march runs is held, so that its bytes are not there after the instruction. -/
theorem not_coreMemory : ¬ Obligations.CoreMemory := by
  unfold Obligations.CoreMemory
  intro h
  obtain ⟨-, hstore, -⟩ := h 0 5 13 0#18 0x10000000 _ 10 marchingStore (by decide +kernel) rfl (by decide +kernel)
  obtain ⟨hgo, -⟩ := hstore (by decide +kernel) (by decide +kernel) (by decide +kernel)
  obtain ⟨t, ⟨-, -, hle, -⟩, h0⟩ := (hgo (by decide +kernel) (by decide +kernel) (by decide +kernel) (by decide +kernel)
    (by decide +kernel)).next_has marchingStore_keeps_sram
  rw [eq_of_beq h0] at hle
  exact absurd hle (by decide)

/-! An atomic's write (R82, R327). -/

/-- GV0 waits for the response of a swap of 7 with the word at 0x1000_0000 while the start-up march runs. -/
def marchingAtomic : State :=
  let s := coreAt 0 0 (quiet 0)
  { s.setCore 0 { s.core 0 with atomic := some ⟨0, some 5, 0x10000000, 7, 0, plain⟩ } with fab.marching := true }

theorem marchingAtomic_keeps_sram : Res.nextHas (exec (.atomicResponse 0) marchingAtomic) (fun t => t.word 0x10000000 == 0) = true := by
  decide +kernel

/-- Refutes O29: the write of an atomic on main SRAM that is answered while the start-up march runs is held, so that the word keeps its value. -/
theorem not_coreAtomics : ¬ Obligations.CoreAtomics := by
  unfold Obligations.CoreAtomics
  intro h
  obtain ⟨-, -, -, -, -, hnew, -⟩ := h 0 5 0 0 _ _ _ _ 0 marchingAtomic rfl rfl rfl rfl
  obtain ⟨t, ⟨-, -, hword, -⟩, h0⟩ := (hnew ⟨0, some 5, 0x10000000, 7, 0, plain⟩ 7 (by decide +kernel) (by decide +kernel) rfl rfl
    (by decide +kernel) (by decide) (by decide +kernel) (by decide +kernel) (by decide +kernel) (by decide +kernel)
    (by decide +kernel)).next_has marchingAtomic_keeps_sram
  rw [eq_of_beq h0] at hword
  exact absurd hword (by decide)

/-! A SCENE frame's write (R82, R279). -/

/-- A SCENE frame with 16 bytes for 0x1000_0010. -/
def sceneFrame : Frame := frameOf 1 0 2 (words [0x10000010, 16, 1, 2, 3, 4])

/-- Trunk B expects the SCENE frame while the start-up march runs. -/
def marchingScene : State := { arrS .trunkB sceneFrame (quiet 0) with fab.marching := true }

theorem marchingScene_keeps_sram :
    Res.nextHas (exec (.sceneWrite .trunkB true sceneFrame) marchingScene) (fun t => t.byte 0x10000010 == 0) = true := by
  decide +kernel

/-- Refutes O25: the word of a SCENE frame that arrives while the start-up march runs is held, so that main SRAM does not have it. -/
theorem not_linkContent : ¬ Obligations.LinkContent := by
  unfold Obligations.LinkContent
  intro h
  obtain ⟨hscene, -⟩ := h marchingScene (by decide +kernel)
  obtain ⟨hone, -⟩ := hscene .trunkB true sceneFrame (marchingScene.arrives .trunkB true sceneFrame).2 0x10000010 (by decide +kernel)
    (Prod.ext (by decide +kernel) rfl) (by decide +kernel) (by decide) (by decide) (by decide +kernel) (by decide +kernel) (by decide +kernel)
  obtain ⟨t, ⟨hbytes, -⟩, h0⟩ := (hone (by decide +kernel) (by decide +kernel)).next_has marchingScene_keeps_sram
  have hb := hbytes 0 (by decide)
  rw [Nat.add_zero, eq_of_beq h0] at hb
  exact absurd hb (by decide +kernel)

/-! A Reel beat (R82, R362). -/

/-- Channel 3 has 16 bytes to write to 0x1000_0200 while the start-up march runs. -/
def marchingReel : State :=
  let s := (quiet 0).setBit Reg.REEL_CTRL 0 true
  { setCh s 3 { s.ch 3 with stage := .move, desc := words [0, 0x10000100, 0x10000200, 16, 1, 0, 0, 0], buf := fill 16 } with fab.marching := true }

theorem marchingReel_keeps_sram :
    Res.nextHas (exec (.reelBeat 0 .none) marchingReel) (fun t => t.bytes 0x10000200 16 == List.replicate 16 0) = true := by
  decide +kernel

/-- Refutes O35: a write beat into main SRAM while the start-up march runs is held, so that the bytes are not there after the beat. -/
theorem not_reelChannels : ¬ Obligations.ReelChannels := by
  unfold Obligations.ReelChannels
  intro h
  obtain ⟨-, -, -, -, -, -, -, -, -, -, -, hwrite, -⟩ := h 3 _ marchingReel rfl (by decide +kernel)
  obtain ⟨t, ⟨-, hbytes, -⟩, h0⟩ := (hwrite 0 0x10000200 (fill 16) (by decide +kernel) (by decide +kernel) (by decide +kernel)
    (by decide +kernel) (by decide +kernel) (by decide) (by decide +kernel) (by decide +kernel) (by decide +kernel)
    (by decide +kernel)).next_has marchingReel_keeps_sram
  have hb : t.bytes 0x10000200 16 = fill 16 := hbytes
  rw [eq_of_beq h0] at hb
  exact absurd hb (by decide)

/-! A burst of the block engine (R82, R375). -/

/-- A fill of one byte at 0x1000_0104. -/
def fillJob : BlkJob :=
  { ctrl := 1, src := 0x10000000, dst := 0x10000104, sstride := 16, dstride := 16, w := 1, h := 2, fill := 0xaa55aa55, key := 0, keymask := 0, wm := 0 }

/-- The block engine is ready for the job's burst while the start-up march runs. -/
def marchingFill : State :=
  let s := quiet 0
  { s with blk := { s.blk with run := some fillJob, ready := true }, fab := { s.fab with marching := true } }

theorem marchingFill_keeps_sram : Res.nextHas (exec .blkBurst marchingFill) (fun t => t.le 0x10000104 fillJob.p == 0) = true := by
  decide +kernel

/-- Refutes O36: a burst into main SRAM while the start-up march runs is held, so that the pixel is not there after the burst. -/
theorem not_blockEngine : ¬ Obligations.BlockEngine := by
  unfold Obligations.BlockEngine
  intro h
  obtain ⟨-, -, -, -, -, -, -, hburst, -⟩ := h host marchingFill
  obtain ⟨t, ⟨hle, -⟩, h0⟩ := (hburst fillJob 0 0x10000104 (by decide +kernel) (by decide +kernel) (by decide +kernel) (by decide +kernel)
    (by decide +kernel) (by decide +kernel) (by decide) (by decide) (by decide +kernel) (by decide +kernel) (by decide) (by decide)
    (by decide +kernel) (by decide +kernel) (by decide +kernel) (by decide +kernel) (by decide +kernel) (by decide +kernel)).next_has
    marchingFill_keeps_sram
  rw [eq_of_beq h0] at hle
  exact absurd hle (by decide)

/-! A control store's load that does not verify (R351, R352). -/

theorem State.byte_ucPut_first (s : State) (k copy w op : Nat) : (s.ucPut k copy w op).byte (ucAddr k copy w) = BitVec.ofNat 8 op := by
  have hm : (s.ucPut k copy w op).byte (ucAddr k copy w) = (s.setBytes (ucAddr k copy w) (leBytes 4 op)).byte (ucAddr k copy w) := by
    simp [State.ucPut, State.byte]
  rw [hm, State.byte_setBytes]
  simp [leBytes]

theorem State.byte_ucPut_out (s : State) (k copy w op j : Nat) (h : j < ucAddr k copy w) : (s.ucPut k copy w op).byte j = s.byte j := by
  have hm : (s.ucPut k copy w op).byte j = (s.setBytes (ucAddr k copy w) (leBytes 4 op)).byte j := by simp [State.ucPut, State.byte]
  rw [hm, State.byte_setBytes, if_neg (by omega)]

theorem State.byte_of_ucWord (s : State) (k copy w : Nat) : BitVec.ofNat 8 (s.ucWord k copy w) = s.byte (ucAddr k copy w) := by
  simp only [State.ucWord, State.le, State.bytes, List.range_succ_eq_map, List.map_cons, leNat]
  apply BitVec.eq_of_toNat_eq
  have := (s.byte (ucAddr k copy w + 0)).isLt
  simp only [BitVec.toNat_ofNat, Nat.add_zero] at this ⊢
  omega

/-- Copying a region back leaves the active copy as it is. -/
theorem State.byte_regionBack_active (s : State) (k first count w : Nat) (h : w < 0x4000) :
    (s.regionBack k first count).byte (ucAddr k 0 w) = s.byte (ucAddr k 0 w) := by
  refine foldl_keeps (·.byte (ucAddr k 0 w)) (fun t i => ?_) _ s
  have hlt : ucAddr k 0 w < ucAddr k 1 (first + i) := by simp only [ucAddr]; omega
  simpa [State.byte] using State.byte_ucPut_out t k 1 (first + i) (t.ucWord k 0 (first + i)) _ hlt

/-- The last word copied back is the active copy's. -/
theorem State.byte_regionBack_last (s : State) (k first n : Nat) (h : first + n < 0x4000) :
    (s.regionBack k first (n + 1)).byte (ucAddr k 1 (first + n)) = s.byte (ucAddr k 0 (first + n)) := by
  obtain ⟨t, ht⟩ : ∃ t, s.regionBack k first n = t := ⟨_, rfl⟩
  have hlast : (s.regionBack k first (n + 1)).byte (ucAddr k 1 (first + n)) =
      (t.ucPut k 1 (first + n) (t.ucWord k 0 (first + n))).byte (ucAddr k 1 (first + n)) := by
    rw [← ht]
    simp [State.regionBack, List.range_succ, List.foldl_append, State.byte]
  rw [hlast, State.byte_ucPut_first, State.byte_of_ucWord, ← ht, State.byte_regionBack_active s k first n _ h]

/-- A load of the second region that does not verify copies the active region back. -/
theorem execUcodeLoadDone_unverified {s : State} {k : Nat} (h : s.gv.load = some (k, 1)) :
    ∃ u t : State, exec (.ucodeLoadDone false) s = .next t ∧ u.mem = s.mem ∧ t.mem = (u.regionBack k 0x3800 0x800).mem := by
  refine ⟨State.setUcState 0 { s with gv := { s.gv with load := none } }, _, show execUcodeLoadDone false s = .next _ by
    simp only [execUcodeLoadDone, h, Bool.false_and, Bool.false_eq_true, one_ne_zero, if_true, if_false] <;> rfl, by simp [State.setUcState], ?_⟩
  split
  · split <;> simp
  · split <;> simp

/-- A load into control store 0's second region ends while its shadow differs from its active copy. -/
def staleShadow : State := { (quiet 0).setBytes (ucAddr 0 1 0x3FFF) (leBytes 4 1) with gv.load := some (0, 1) }

/-- Refutes O34: a load that does not verify copies the active region back over the shadow, so that memory changes. -/
theorem not_controlStores : ¬ Obligations.ControlStores := by
  unfold Obligations.ControlStores
  intro h
  obtain ⟨-, -, -, -, -, -, hfail, -⟩ := h host staleShadow
  obtain ⟨t, ht, -, -, -, -, hmem⟩ := hfail 0 1 (by decide) (by decide +kernel)
  obtain ⟨u, v, hv, hu, hback⟩ := execUcodeLoadDone_unverified (s := staleShadow) (k := 0) (by decide +kernel)
  obtain rfl : v = t := by rw [hv] at ht; exact Host.Outcome.next.inj ht
  have hshadow : staleShadow.byte (ucAddr 0 1 0x3FFF) = staleShadow.byte (ucAddr 0 0 0x3FFF) := by
    calc staleShadow.byte (ucAddr 0 1 0x3FFF) = (u.regionBack 0 0x3800 (0x7FF + 1)).byte (ucAddr 0 1 (0x3800 + 0x7FF)) := by
          rw [← hmem]; simp only [State.byte, hback]
      _ = u.byte (ucAddr 0 0 (0x3800 + 0x7FF)) := State.byte_regionBack_last u 0 0x3800 0x7FF (by decide)
      _ = staleShadow.byte (ucAddr 0 0 0x3FFF) := by simp only [State.byte, hu]
  exact absurd hshadow (by decide +kernel)

end Sys2Proof.Machine
end

section
/-! Accesses that are refused, and the writes of one bit or field. -/

namespace Sys2Proof.Machine

/-! An access to a target without power, or that its master may not reach, leaves an error response and nothing else (R89, R91, R403). -/

/-- `t` is `s` after an access answered with the error `code`. -/
structure Refused (code : Nat) (s t : State) : Prop where
  state : ∃ regs evr irq w, t = { s with regs := regs, evr := evr, irq := irq, pwr := { s.pwr with waking := w }, answer := ⟨code, 0⟩ }
  regs : ∀ a, ¬ eventReg a → ¬ mrcReg a → t.reg a = s.reg a

theorem State.refused_replyErr (port addr code : Nat) (w : Bool) (s : State) : Refused code s ((s.errResponse port addr code w).reply code 0) := by
  refine ⟨?_, (s.checked_errResponse port addr code w).regs⟩
  obtain ⟨regs, evr, irq, w', e⟩ := s.told_errResponse port addr code w
  exact ⟨regs, evr, irq, w', by rw [e]; rfl⟩

section
variable {code : Nat} {s t : State} (h : Refused code s t)
include h

theorem Refused.answer : t.answer = ⟨code, 0⟩ := by obtain ⟨_, _, _, _, rfl⟩ := h.state; rfl
theorem Refused.mem : t.mem = s.mem := by obtain ⟨_, _, _, _, rfl⟩ := h.state; rfl
theorem Refused.beam : t.beam = s.beam := by obtain ⟨_, _, _, _, rfl⟩ := h.state; rfl
theorem Refused.gv : t.gv = s.gv := by obtain ⟨_, _, _, _, rfl⟩ := h.state; rfl
theorem Refused.img : t.img = s.img := by obtain ⟨_, _, _, _, rfl⟩ := h.state; rfl
theorem Refused.mgt : t.mgt = s.mgt := by obtain ⟨_, _, _, _, rfl⟩ := h.state; rfl
theorem Refused.sec : t.sec = s.sec := by obtain ⟨_, _, _, _, rfl⟩ := h.state; rfl
theorem Refused.pin : t.pin = s.pin := by obtain ⟨_, _, _, _, rfl⟩ := h.state; rfl
theorem Refused.hi3c : t.hi3c = s.hi3c := by obtain ⟨_, _, _, _, rfl⟩ := h.state; rfl
theorem Refused.ci3c : t.ci3c = s.ci3c := by obtain ⟨_, _, _, _, rfl⟩ := h.state; rfl
theorem Refused.xspi : t.xspi = s.xspi := by obtain ⟨_, _, _, _, rfl⟩ := h.state; rfl
theorem Refused.byte (k : Nat) : t.byte k = s.byte k := State.byte_congr h.mem k

end

theorem State.askWrite_unpowered {m : Acc} {a : Nat} {s : State} (v : Word) (hm : m.debug = false) (hoff : s.targetOff a = true) :
    Refused 6 s (s.askWrite m a v) := by
  rw [State.askWrite_off v hm hoff]
  exact s.refused_replyErr ..

theorem State.askRead_unpowered {m : Acc} {a : Nat} {s : State} (hm : m.debug = false) (hoff : s.targetOff a = true) :
    Refused 6 s (s.askRead m a) := by
  rw [State.askRead_off hm hoff]
  exact s.refused_replyErr ..

theorem State.askWrite_denied {m : Acc} {a : Nat} {s : State} {v : Word} (hm : m.debug = false) (hoff : s.targetOff a = false) (ha : RegWord a)
    (hp : regProt m a true v = true) : s.askWrite m a v = (s.errResponse m.port a 3 true).reply 3 0 := by
  obtain ⟨hin, hal, hend⟩ := ha
  simp only [State.askWrite, State.busWrite32, State.busWrite, hm, hoff, hin, hal, Nat.not_le.mpr hend, leWord_leBytes, hp, length_leBytes,
    Bool.false_and, Bool.false_eq_true, ne_eq, not_true_eq_false, or_self, if_false, if_true, State.failWrite]

theorem State.askWrite_protected {m : Acc} {a : Nat} {s : State} {v : Word} (hm : m.debug = false) (hoff : s.targetOff a = false) (ha : RegWord a)
    (hp : regProt m a true v = true) : Refused 3 s (s.askWrite m a v) := by
  rw [State.askWrite_denied hm hoff ha hp]
  exact s.refused_replyErr ..

theorem State.askRead_protected {m : Acc} {a : Nat} {s : State} (hm : m.debug = false) (hoff : s.targetOff a = false) (ha : RegWord a)
    (hp : regProt m a false 0 = true) : Refused 3 s (s.askRead m a) := by
  obtain ⟨hin, hal, hend⟩ := ha
  have e : s.askRead m a = (s.errResponse m.port a 3 false).reply 3 0 := by
    simp only [State.askRead, State.busRead32, State.busRead, hm, hoff, hin, hal, Nat.not_le.mpr hend, hp,
      Bool.false_and, Bool.false_eq_true, ne_eq, not_true_eq_false, or_self, if_false, if_true, State.failRead]
    rfl
  rw [e]
  exact s.refused_replyErr ..

/-! A permitted access that is the register's own read or write. -/

theorem State.askRead_word {m : Acc} {a : Nat} {s : State} (hm : m.debug = false) (hoff : s.targetOff a = false) (ha : RegWord a)
    (hp : regProt m a false 0 = false) (hd : arr (Reg.DBG_Cc_REGDATA 0) 0x80 3 a = none) :
    s.askRead m a = (s.afterRead a).reply 0 (s.valueOf a) := by
  refine State.askRead_of_regRead (.inl hm) hoff ha hp ?_
  simp [State.regRead, hm, hd]

theorem Told.mem {s t : State} (h : Told s t) : t.mem = s.mem := by obtain ⟨_, _, _, _, rfl⟩ := h; rfl

/-! Registers beside a status bit that an event sets. -/

theorem State.f_raise0_ne (s : State) {r : StatReg} {a : Nat} (bit hi lo : Nat) (hne : a ≠ r.addr) (ha : ¬ eventReg a) (h : r.known = true) :
    (s.raise0 r bit).f a hi lo = s.f a hi lo := State.f_of_reg (s.reg_raise0_ne bit hne ha h) hi lo

theorem State.bit_raise0_reg_ne (s : State) {r : StatReg} {a : Nat} (bit i : Nat) (hne : a ≠ r.addr) (ha : ¬ eventReg a) (h : r.known = true) :
    (s.raise0 r bit).bit a i = s.bit a i := State.bit_of_reg (s.reg_raise0_ne bit hne ha h) i

theorem State.reg_arrive {n a : Nat} (hn : n < 256) (ha : ¬ eventReg a) (s : State) : (s.arrive n).reg a = s.reg a := (s.arrive_noted hn).regs a ha

theorem State.bit_arrive {n a : Nat} (hn : n < 256) (ha : ¬ eventReg a) (s : State) (i : Nat) : (s.arrive n).bit a i = s.bit a i :=
  (s.arrive_noted hn).bit ha i

theorem State.f_arrive {n a : Nat} (hn : n < 256) (ha : ¬ eventReg a) (s : State) (hi lo : Nat) : (s.arrive n).f a hi lo = s.f a hi lo :=
  (s.arrive_noted hn).f ha hi lo

end Sys2Proof.Machine
end

section
/-! The statement on the CCCs of the host port. -/

namespace Sys2Proof.Machine

/-! Traffic wakes the chip (R408); a status bit that is set while the chip is awake, or wakes, leaves the power manager as it is. -/

/-- A state that traffic has reached: the chip is awake, or it wakes. -/
def State.roused (s : State) : Prop := s.pwr.state = 0 ∨ s.pwr.waking = true

theorem State.roused_rouse (s : State) : s.rouse.roused := by
  unfold State.rouse
  split
  · exact .inl ‹_›
  · exact .inr rfl

theorem State.pwr_arriveAt (n : Nat) (s : State) : (s.arriveAt n).pwr = s.pwr := by
  unfold State.arriveAt
  dsimp only
  split_ifs <;> rfl

theorem State.pwr_arriveAwake (n : Nat) (s : State) : (s.arriveAwake n).pwr = s.pwr := by
  unfold State.arriveAwake
  split
  · exact s.pwr_arriveAt n
  · dsimp only
    split_ifs
    · exact s.pwr_arriveAt n
    · exact State.pwr_arriveAt ..
    · rfl

theorem State.pwr_arrive {s : State} (h : s.roused) (n : Nat) : (s.arrive n).pwr = s.pwr := by
  unfold State.arrive
  split
  · exact s.pwr_arriveAwake n
  · have hw : s.pwr.waking = true := h.resolve_left ‹_›
    have stays : ∀ p : PwrSt, p.waking = true → { p with waking := true } = p := fun p hp => by cases p; cases hp; rfl
    split
    · rfl
    · generalize s.wakeSlots n = ks
      clear * - hw stays
      induction ks generalizing s with
      | nil => rfl
      | cons k ks ih => exact (ih rfl).trans (stays _ hw)

theorem State.pwr_enqueueEvent {s : State} (h : s.roused) (code sev : Nat) (a0 a1 a2 a3 : Word) :
    (s.enqueueEvent code sev a0 a1 a2 a3).pwr = s.pwr := by
  unfold State.enqueueEvent
  split
  · rfl
  · exact State.pwr_arrive (s := { (s.count Reg.EVR_DROPS 31 16).setBit Reg.EVR_STAT 0 true with evr := _ }) h 183

theorem State.pwr_raise {s : State} (h : s.roused) (r : StatReg) (bit : Nat) (a0 a2 a3 : Word) : (s.raise r bit a0 a2 a3).pwr = s.pwr := by
  have fires : ∀ u : State, u.pwr = s.pwr → (match r.src with | some n => u.arrive n | none => u).pwr = s.pwr := by
    intro u hu
    split
    · exact (State.pwr_arrive (by unfold State.roused; rw [hu]; exact h) _).trans hu
    · exact hu
  unfold State.raise
  dsimp only
  apply fires
  split
  · exact State.pwr_enqueueEvent (s := s.setBit r.addr bit true) h ..
  · rfl

/-! What the port does with traffic for a target. -/

theorem State.hostServe_none {t : Nat} {s : State} (h : s.daddr t = none) (f : State → State) : s.hostServe t f = s := by
  simp [State.hostServe, h]

theorem State.hostServe_deep {t : Nat} {s : State} (h : s.daddr t ≠ none) (hp : 3 ≤ s.pwr.state) (f : State → State) :
    s.hostServe t f = s.rouse := by
  simp [State.hostServe, h, hp]

theorem State.hostServe_go {t : Nat} {s : State} (h : s.daddr t ≠ none) (hp : s.pwr.state < 3) (f : State → State) :
    s.hostServe t f = f s.rouse := by
  simp [State.hostServe, h, Nat.not_le.mpr hp]

/-! Addresses. -/

theorem State.daddr_of_reg {s t : State} (h : t.reg Reg.HI3C_DADDR = s.reg Reg.HI3C_DADDR) (x : Nat) : t.daddr x = s.daddr x := by
  simp only [State.daddr, State.bit_of_reg h, State.f_of_reg h]

@[simp] theorem State.daddr_rouse (s : State) (x : Nat) : s.rouse.daddr x = s.daddr x := State.daddr_of_reg (by simp [State.reg]) x

theorem State.reg_setDaddr_hi3c (x a : Nat) (s : State) : (s.setDaddr x a).reg Reg.HI3C_DADDR =
    putBit (setFld (s.reg Reg.HI3C_DADDR) (8 * x + 6) (8 * x) a) (8 * x + 7) true := by
  unfold State.setDaddr
  rw [State.reg_raise0_ne _ _ (by decide) (by decide) (by decide)]
  simp [State.setBit, State.setF]

theorem State.daddr_setDaddr_same {x : Nat} (hx : x < 2) (a : BitVec 7) (s : State) : (s.setDaddr x a.toNat).daddr x = some a.toNat := by
  unfold State.daddr State.bit State.f
  rw [s.reg_setDaddr_hi3c, bitAt_putBit_same _ _ _ (by omega), if_pos rfl, fld_putBit_out _ _ (by omega), fld_setFld_same _ (by omega)]
  have e : 8 * x + 6 + 1 - 8 * x = 7 := by omega
  rw [e, Nat.mod_eq_of_lt a.isLt]

theorem State.daddr_setDaddr_ne {x y : Nat} (h : y ≠ x) (a : Nat) (s : State) : (s.setDaddr x a).daddr y = s.daddr y := by
  unfold State.daddr State.bit State.f
  rw [s.reg_setDaddr_hi3c, bitAt_putBit_ne _ _ (by omega), bitAt_setFld_out _ (by omega) (by omega), fld_putBit_out _ _ (by omega),
    fld_setFld_out _ (by omega) (by omega)]

theorem State.stat_setDaddr (x a : Nat) (s : State) : (s.setDaddr x a).bit Reg.HI3C_STAT 3 = true :=
  State.bit_raise0_same (r := stHI3C) _ (by decide) (by decide) (by decide)

theorem State.pwr_setDaddr {s : State} (h : s.roused) (x a : Nat) : (s.setDaddr x a).pwr = s.pwr := by
  unfold State.setDaddr
  exact State.pwr_raise (by exact h) ..

@[simp] theorem State.byte_setDaddr (x a : Nat) (s : State) (k : Nat) : (s.setDaddr x a).byte k = s.byte k := State.byte_congr (by simp) k

@[simp] theorem State.byte_rouse (s : State) (k : Nat) : s.rouse.byte k = s.byte k := State.byte_congr (by simp) k

/-! The dynamic address assignment, target by target (Table 21.4). -/

theorem execEntdaa_both {s : State} (a b : BitVec 7) (h0 : s.daddr 0 = none) (h1 : s.daddr 1 = none) :
    exec (.entdaa (some a) (some b)) s = .next ((s.setDaddr 0 a.toNat).setDaddr 1 b.toNat) := by
  have h : (s.setDaddr 0 a.toNat).daddr 1 = none := (State.daddr_setDaddr_ne (by decide) _ s).trans h1
  show execEntdaa _ _ s = _
  simp only [execEntdaa, h0, h]

theorem execEntdaa_main {s : State} (a : BitVec 7) (b : Option (BitVec 7)) (h0 : s.daddr 0 = none) (h1 : s.daddr 1 ≠ none ∨ b = none) :
    exec (.entdaa (some a) b) s = .next (s.setDaddr 0 a.toNat) := by
  have h : (s.setDaddr 0 a.toNat).daddr 1 = s.daddr 1 := State.daddr_setDaddr_ne (by decide) _ s
  show execEntdaa _ _ s = _
  rcases h1 with h1 | rfl
  · obtain ⟨x, hx⟩ := Option.ne_none_iff_exists'.mp h1
    cases b <;> simp only [execEntdaa, h0, h, hx]
  · simp only [execEntdaa, h0]

theorem execEntdaa_debug {s : State} (a : Option (BitVec 7)) (b : BitVec 7) (h0 : s.daddr 0 ≠ none ∨ a = none) (h1 : s.daddr 1 = none) :
    exec (.entdaa a (some b)) s = .next (s.setDaddr 1 b.toNat) := by
  show execEntdaa _ _ s = _
  rcases h0 with h0 | rfl
  · obtain ⟨x, hx⟩ := Option.ne_none_iff_exists'.mp h0
    cases a <;> simp only [execEntdaa, hx, h1]
  · simp only [execEntdaa, h1]

theorem execEntdaa_none {s : State} (a b : Option (BitVec 7)) (h0 : s.daddr 0 ≠ none ∨ a = none) (h1 : s.daddr 1 ≠ none ∨ b = none) :
    exec (.entdaa a b) s = .next s := by
  show execEntdaa _ _ s = _
  rcases h0 with h0 | rfl
  · obtain ⟨d, hd⟩ := Option.ne_none_iff_exists'.mp h0
    rcases h1 with h1 | rfl
    · obtain ⟨e, he⟩ := Option.ne_none_iff_exists'.mp h1
      cases a <;> cases b <;> simp only [execEntdaa, hd, he]
    · cases a <;> simp only [execEntdaa, hd]
  · rcases h1 with h1 | rfl
    · obtain ⟨e, he⟩ := Option.ne_none_iff_exists'.mp h1
      cases b <;> simp only [execEntdaa, he]
    · rfl

/-! A direct CCC reaches a target that has an address; a broadcast reaches both (R491). -/

theorem State.cccTargets_some {x : Fin 2} {s : State} (h : s.daddr x.val ≠ none) : s.rouse.cccTargets (some x) = [x.val] := by
  simp [State.cccTargets, h]

theorem State.cccServe_go {x : Fin 2} {s : State} (h : s.daddr x.val ≠ none) (hp : s.pwr.state < 3) (f : State → State) :
    s.cccServe (some x) f = f s.rouse := State.hostServe_go h hp f

theorem State.cccServe_none {x : Fin 2} {s : State} (h : s.daddr x.val = none) (f : State → State) : s.cccServe (some x) f = s :=
  State.hostServe_none h f

theorem State.cccServe_deep {x : Fin 2} {s : State} (h : s.daddr x.val ≠ none) (hp : 3 ≤ s.pwr.state) (f : State → State) :
    s.cccServe (some x) f = s.rouse := State.hostServe_deep h hp f

theorem State.events_some {x : Fin 2} {s : State} (h : s.daddr x.val ≠ none) (intr hj on : Bool) : s.rouse.events (some x) intr hj on =
    { s.rouse with hi3c := { s.hi3c with ibiOn := if intr then s.hi3c.ibiOn.set x.val on else s.hi3c.ibiOn,
                                         hjOn := if hj then s.hi3c.hjOn.set x.val on else s.hi3c.hjOn } } := by
  simp only [State.events, State.cccTargets_some h, List.foldl_cons, List.foldl_nil, State.hi3c_rouse]

theorem State.cccTargets_foldl {x : Fin 2} {s : State} (h : s.daddr x.val ≠ none) (f : State → Nat → State) :
    (s.rouse.cccTargets (some x)).foldl f s.rouse = f s.rouse x.val := by
  rw [State.cccTargets_some h]
  rfl

theorem execSetmwl_some (x : Fin 2) (n : Nat) (s : State) : exec (.setmwl (some x) n) s = .next (s.hostServe x.val fun t =>
    (t.cccTargets (some x)).foldl (fun u i => { u with hi3c := { u.hi3c with mwl := u.hi3c.mwl.set i (min n 2064) } }) t) := rfl

theorem execSetmrl_some (x : Fin 2) (n : Nat) (s : State) : exec (.setmrl (some x) n) s = .next (s.hostServe x.val fun t =>
    (t.cccTargets (some x)).foldl (fun u i => { u with hi3c := { u.hi3c with mrl := u.hi3c.mrl.set i (min n 2048) } }) t) := rfl

theorem execRstact_some (x : Fin 2) {n : Nat} (hn : n ≤ 1) (s : State) : exec (.rstact (some x) n) s = .next (s.hostServe x.val fun t =>
    (t.cccTargets (some x)).foldl (fun u i => { u with hi3c := { u.hi3c with rstact := u.hi3c.rstact.set i n } }) t) :=
  congrArg _ (if_pos hn)

theorem execGetpid_eq (x : Fin 2) (s : State) : exec (.getpid x) s = .next (s.hostServe x.val fun u =>
    u.emit (.i3cValue x.val (s.f Reg.HI3C_PIDHI 14 0 * 2 ^ 33 + 0x880 * 2 ^ 16 + x.val * 2 ^ 12))) := rfl

/-- A command that is traffic for a target which has an address, while the port is clocked. -/
theorem exec_served {c : Instr} {x : Nat} {s : State} {f : State → State} (e : exec c s = .next (s.hostServe x f)) (h : s.daddr x ≠ none)
    (hp : s.pwr.state < 3) : exec c s = .next (f s.rouse) := by
  rw [e, State.hostServe_go h hp]

/-- A CCC addressed to one target is traffic for it. -/
theorem exec_directCcc {x : Fin 2} {a : BitVec 7} {n : Nat} {intr hj : Bool} (hn : n ≤ 1) (s : State) : ∀ c ∈ [Instr.enec (some x) intr hj,
    .disec (some x) intr hj, .setmwl (some x) n, .setmrl (some x) n, .rstact (some x) n, .getmwl x, .getmrl x, .getpid x, .getbcr x, .getdcr x,
    .setnewda x a], ∃ f, exec c s = .next (s.hostServe x.val f) := by
  simp only [List.mem_cons, List.not_mem_nil, or_false, forall_eq_or_imp, forall_eq]
  exact ⟨⟨_, rfl⟩, ⟨_, rfl⟩, ⟨_, execSetmwl_some x n s⟩, ⟨_, execSetmrl_some x n s⟩, ⟨_, execRstact_some x hn s⟩, ⟨_, rfl⟩, ⟨_, rfl⟩,
    ⟨_, execGetpid_eq x s⟩, ⟨_, rfl⟩, ⟨_, rfl⟩, ⟨State.setDaddr x.val a.toNat, rfl⟩⟩

/-! A GET of a value that the specification leaves open draws one, and returns it where the target has an address. -/

theorem State.cccGetFree_eq (x : Fin 2) (s : State) : s.cccGetFree x = ({ s with fresh := s.fresh + 1 } : State).hostServe x.val
    (fun u => u.emit (.i3cValue x.val (Config.freeWord s.fresh).toNat)) := rfl

theorem State.cccGetFree_go {x : Fin 2} {s : State} (h : s.daddr x.val ≠ none) (hp : s.pwr.state < 3) :
    ∃ v, s.cccGetFree x = ({ s with fresh := s.fresh + 1 } : State).rouse.emit (.i3cValue x.val v) :=
  ⟨_, (s.cccGetFree_eq x).trans (State.hostServe_go (s := { s with fresh := s.fresh + 1 }) h hp _)⟩

theorem State.cccGetFree_idle {x : Fin 2} {s : State} (h : s.daddr x.val = none ∨ 3 ≤ s.pwr.state) :
    s.cccGetFree x = { s with fresh := s.fresh + 1 } ∨ s.cccGetFree x = ({ s with fresh := s.fresh + 1 } : State).rouse := by
  by_cases hd : s.daddr x.val = none
  · exact .inl ((s.cccGetFree_eq x).trans (State.hostServe_none (s := { s with fresh := s.fresh + 1 }) hd _))
  · exact .inr ((s.cccGetFree_eq x).trans (State.hostServe_deep (s := { s with fresh := s.fresh + 1 }) hd (h.resolve_left hd) _))

theorem State.returns_cccGetFree {x : Fin 2} {s : State} (h : s.daddr x.val ≠ none) (hp : s.pwr.state < 3) :
    ∃ v, (s.cccGetFree x).out = s.out ++ [.i3cValue x.val v] ∧ (s.cccGetFree x).regs = s.regs ∧ (s.cccGetFree x).pwr = s.rouse.pwr ∧
      SameMemory s (s.cccGetFree x) := by
  obtain ⟨v, hv⟩ := State.cccGetFree_go h hp
  rw [hv]
  refine ⟨v, by simp [State.emit], by simp [State.emit], ?_, fun k => State.byte_congr (by simp) k⟩
  unfold State.rouse State.emit
  split <;> rfl

/-! In-band interrupts (R491). -/

/-- The request's target has an address and may send interrupts. -/
def State.maySend (s : State) (e : Nat × List Nat) : Bool := (s.hi3c.ibiOn[e.1]?).getD false && (s.daddr e.1).isSome

theorem State.maySend_of {s : State} {e : Nat × List Nat} (h : (s.hi3c.ibiOn[e.1]?).getD false = true) (hd : s.daddr e.1 ≠ none) :
    s.maySend e = true := by
  simp [State.maySend, h, Option.isSome_iff_ne_none.mpr hd]

theorem execHi3cIbi_none {s : State} (h : s.hi3c.ibis.find? s.maySend = none) : exec (.hi3cIbi false) s = .next s := by
  show execHi3cIbi false s = _
  have h' : s.hi3c.ibis.find? (fun e => (s.hi3c.ibiOn[e.1]?).getD false && (s.daddr e.1).isSome) = none := h
  simp only [execHi3cIbi, Bool.false_and, Bool.false_eq_true, if_false, h']

theorem execHi3cIbi_some {s : State} {e : Nat × List Nat} (h : s.hi3c.ibis.find? s.maySend = some e) : exec (.hi3cIbi false) s =
    .next (({ s with hi3c := { s.hi3c with ibis := s.hi3c.ibis.erase e } } : State).emit (.ibi e.1 e.2)) := by
  show execHi3cIbi false s = _
  have h' : s.hi3c.ibis.find? (fun e => (s.hi3c.ibiOn[e.1]?).getD false && (s.daddr e.1).isSome) = some e := h
  simp only [execHi3cIbi, Bool.false_and, Bool.false_eq_true, if_false, h']

theorem execHi3cIbi_quiet {s : State} (h : s.alertLow = false) : exec (.hi3cIbi true) s = exec (.hi3cIbi false) s := by
  show execHi3cIbi true s = execHi3cIbi false s
  simp only [execHi3cIbi, h, Bool.and_false, Bool.false_eq_true, if_false]

theorem execHi3cIbi_alert {s : State} (h : s.alertLow = true) : exec (.hi3cIbi true) s =
    exec (.hi3cIbi false) { s with hi3c := { s.hi3c with ibis := s.hi3c.ibis ++ [(0, [3, s.alertCauses])] } } := by
  show execHi3cIbi true s = execHi3cIbi false _
  simp only [execHi3cIbi, h, Bool.and_self, Bool.false_and, Bool.false_eq_true, if_true, if_false]

theorem execHi3cIbi_first {s : State} {e : Nat × List Nat} {rest : List (Nat × List Nat)} (h : s.hi3c.ibis = e :: rest) (hm : s.maySend e = true) :
    exec (.hi3cIbi false) s = .next (({ s with hi3c := { s.hi3c with ibis := rest } } : State).emit (.ibi e.1 e.2)) := by
  rw [execHi3cIbi_some (e := e) (by rw [h]; exact List.find?_cons_of_pos hm), h, List.erase_cons_head]

theorem execHi3cIbi_alert_sent {s : State} (ha : s.alertLow = true) (hq : s.hi3c.ibis = []) (hon : (s.hi3c.ibiOn[0]?).getD false = true)
    (hd : s.daddr 0 ≠ none) : exec (.hi3cIbi true) s = .next (s.emit (.ibi 0 [3, s.alertCauses])) := by
  obtain ⟨u, hu⟩ : ∃ u : State, u = { s with hi3c := { s.hi3c with ibis := s.hi3c.ibis ++ [(0, [3, s.alertCauses])] } } := ⟨_, rfl⟩
  have hi : u.hi3c.ibis = [(0, [3, s.alertCauses])] := by rw [hu, hq]; rfl
  have hm : u.maySend (0, [3, s.alertCauses]) = true := State.maySend_of (by rw [hu]; exact hon) (by rw [hu]; exact hd)
  rw [execHi3cIbi_alert ha, ← hu, execHi3cIbi_first hi hm, hu]
  simp only [← hq]

/-! Hot-join (Table 21.4). -/

theorem execHotJoin_eq (s : State) : exec .hotJoin s =
    if s.bit Reg.HI3C_CFG 8 && !s.hi3c.joined && [0, 1].any (fun t => (s.daddr t).isNone && (s.hi3c.hjOn[t]?).getD false) then
      .next (({ s with hi3c := { s.hi3c with joined := true } } : State).emit .hotJoin)
    else .next s := rfl

theorem any_pair (p : Nat → Bool) : [0, 1].any p = (p 0 || p 1) := by simp

theorem execHotJoin_sent {s : State} (hc : s.bit Reg.HI3C_CFG 8 = true) (hj : s.hi3c.joined = false)
    (hw : (s.daddr 0 = none ∧ (s.hi3c.hjOn[0]?).getD false = true) ∨ (s.daddr 1 = none ∧ (s.hi3c.hjOn[1]?).getD false = true)) :
    exec .hotJoin s = .next (({ s with hi3c := { s.hi3c with joined := true } } : State).emit .hotJoin) := by
  refine (execHotJoin_eq s).trans (if_pos ?_)
  rw [any_pair, hc, hj]
  rcases hw with ⟨h, k⟩ | ⟨h, k⟩ <;> simp [h, k]

theorem execHotJoin_not {s : State} (h : s.bit Reg.HI3C_CFG 8 = false ∨ s.hi3c.joined = true ∨
    (∀ x, x < 2 → s.daddr x ≠ none ∨ (s.hi3c.hjOn[x]?).getD false = false)) : exec .hotJoin s = .next s := by
  refine (execHotJoin_eq s).trans (if_neg ?_)
  rw [any_pair]
  rcases h with h | h | h
  · simp [h]
  · simp [h]
  · have still : ∀ x, x < 2 → ((s.daddr x).isNone && (s.hi3c.hjOn[x]?).getD false) = false := by
      intro x hx
      rcases h x hx with k | k <;> simp [k]
    simp [still]

/-! A broadcast reaches both targets in every power state but for the wake (log 70). -/

theorem execEnec_none (intr hj : Bool) (s : State) : exec (.enec none intr hj) s = .next { s with hi3c := { s.hi3c with
    ibiOn := if intr then (s.hi3c.ibiOn.set 0 true).set 1 true else s.hi3c.ibiOn,
    hjOn := if hj then (s.hi3c.hjOn.set 0 true).set 1 true else s.hi3c.hjOn } } := by
  cases intr <;> cases hj <;> rfl

theorem execDisec_none (intr hj : Bool) (s : State) : exec (.disec none intr hj) s = .next { s with hi3c := { s.hi3c with
    ibiOn := if intr then (s.hi3c.ibiOn.set 0 false).set 1 false else s.hi3c.ibiOn,
    hjOn := if hj then (s.hi3c.hjOn.set 0 false).set 1 false else s.hi3c.hjOn } } := by
  cases intr <;> cases hj <;> rfl

/-! What a SETDASA for the main target's static address does. -/

theorem execSetdasa_eq (a d : BitVec 7) (s : State) : exec (.setdasa a d) s =
    if s.f Reg.HI3C_CFG 6 0 ≠ 0 ∧ a.toNat = s.f Reg.HI3C_CFG 6 0 ∧ s.daddr 0 = none then
      .next (if 3 ≤ s.pwr.state then s.rouse else s.rouse.setDaddr 0 d.toNat)
    else .next s := rfl

theorem execSetdasa_taken {a d : BitVec 7} {s : State} (ha : a.toNat = s.f Reg.HI3C_CFG 6 0) (h0 : a.toNat ≠ 0) (hd : s.daddr 0 = none) :
    exec (.setdasa a d) s = .next (if 3 ≤ s.pwr.state then s.rouse else s.rouse.setDaddr 0 d.toNat) :=
  (execSetdasa_eq a d s).trans (if_pos ⟨ha ▸ h0, ha, hd⟩)

theorem execSetdasa_other {a d : BitVec 7} {s : State} (h : a.toNat ≠ s.f Reg.HI3C_CFG 6 0 ∨ a.toNat = 0 ∨ s.daddr 0 ≠ none) :
    exec (.setdasa a d) s = .next s := by
  refine (execSetdasa_eq a d s).trans (if_neg ?_)
  rintro ⟨h0, ha, hd⟩
  rcases h with h | h | h
  · exact h ha
  · exact h0 (ha ▸ h)
  · exact h hd

theorem State.daddr_setReg_zero (s : State) (x : Nat) : (s.setReg Reg.HI3C_DADDR 0).daddr x = none := if_neg (by simp [State.bit, bitAt])

/-- Settles O50, command by command: what the addressed targets take, and that the rest at most wakes the chip. -/
theorem hostTargets : Obligations.HostTargets := by
  unfold Obligations.HostTargets
  rintro s _ _ rfl rfl
  refine ⟨State.rouse_awake, State.rouse_asleep, ?_, ?_, ?_, ?_, ?_, ?_, ?_, ?_, ?_, ?_, ?_, ?_, rfl, rfl, ?_, ?_, ?_, ?_, ?_, ?_, ?_⟩
  · intro a b h0 h1
    refine ⟨_, execEntdaa_both a b h0 h1, ?_, State.daddr_setDaddr_same (by decide) _ _, State.stat_setDaddr .., fun k => by simp⟩
    rw [State.daddr_setDaddr_ne (by decide), State.daddr_setDaddr_same (by decide)]
  · intro a b h0 h1
    exact ⟨_, execEntdaa_main a b h0 h1, State.daddr_setDaddr_same (by decide) _ _, State.daddr_setDaddr_ne (by decide) _ _,
      State.stat_setDaddr .., fun k => by simp⟩
  · intro a b h0 h1
    exact ⟨_, execEntdaa_debug a b h0 h1, State.daddr_setDaddr_ne (by decide) _ _, State.daddr_setDaddr_same (by decide) _ _,
      State.stat_setDaddr .., fun k => by simp⟩
  · exact fun a b => execEntdaa_none a b
  · intro a d
    refine ⟨fun ha h0 hd => ⟨fun hp => ?_, fun hp => ?_⟩, execSetdasa_other⟩
    · refine ⟨s.rouse.setDaddr 0 d.toNat, (execSetdasa_taken ha h0 hd).trans (by rw [if_neg (Nat.not_le.mpr hp)]),
        State.daddr_setDaddr_same (by decide) _ _, ?_, State.stat_setDaddr .., State.pwr_setDaddr s.roused_rouse .., fun k => by simp⟩
      rw [State.daddr_setDaddr_ne (by decide), State.daddr_rouse]
    · exact (execSetdasa_taken ha h0 hd).trans (by rw [if_pos hp])
  · intro x a h hp
    exact ⟨_, exec_served (f := State.setDaddr x.val a.toNat) rfl h hp, State.daddr_setDaddr_same x.isLt _ _, State.pwr_setDaddr s.roused_rouse .., fun k => by simp⟩
  · exact ⟨_, rfl, s.daddr_setReg_zero 0, s.daddr_setReg_zero 1, fun a ha => State.reg_setReg_ne s ha _, fun k => rfl⟩
  · intro x n intr hj h hp
    refine ⟨?_, ?_, ?_, ?_, fun hn => ?_, ?_, ?_, ?_, ?_, ?_, ?_, ?_⟩
    · exact (exec_served (f := State.events (some x) intr hj true) rfl h hp).trans (congrArg _ (State.events_some h ..))
    · exact (exec_served (f := State.events (some x) intr hj false) rfl h hp).trans (congrArg _ (State.events_some h ..))
    · rw [exec_served (execSetmwl_some x n s) h hp, State.cccTargets_foldl h, State.hi3c_rouse]
    · rw [exec_served (execSetmrl_some x n s) h hp, State.cccTargets_foldl h, State.hi3c_rouse]
    · rw [exec_served (execRstact_some x hn s) h hp, State.cccTargets_foldl h, State.hi3c_rouse]
    · exact exec_served (f := fun u => u.emit _) rfl h hp
    · exact exec_served (f := fun u => u.emit _) rfl h hp
    · exact exec_served (execGetpid_eq x s) h hp
    · exact exec_served (f := fun u => u.emit _) rfl h hp
    · exact exec_served (f := fun u => u.emit _) rfl h hp
    · exact ⟨_, rfl, State.returns_cccGetFree h hp⟩
    · exact ⟨_, rfl, State.returns_cccGetFree h hp⟩
  · intro x a n intr hj hn c hc
    obtain ⟨f, hf⟩ := exec_directCcc hn s c hc
    exact ⟨fun h => hf.trans (by rw [State.hostServe_none h]), fun h hp => hf.trans (by rw [State.hostServe_deep h hp])⟩
  · intro x h
    have quiet : (s.cccGetFree x).out = s.out ∧ (s.cccGetFree x).regs = s.regs ∧ SameMemory s (s.cccGetFree x) := by
      rcases State.cccGetFree_idle h with e | e <;> rw [e]
      · exact ⟨rfl, rfl, fun k => rfl⟩
      · exact ⟨by simp, by simp, fun k => State.byte_congr (by simp) k⟩
    simp only [List.mem_cons, List.not_mem_nil, or_false, forall_eq_or_imp, forall_eq]
    exact ⟨⟨_, rfl, quiet⟩, ⟨_, rfl, quiet⟩⟩
  · exact fun o n hn => congrArg _ (if_neg (by omega))
  · intro n intr hj
    exact ⟨rfl, rfl, execEnec_none intr hj s, execDisec_none intr hj s, fun hn => congrArg _ (if_pos hn)⟩
  · rintro _ rfl
    exact ⟨execHi3cIbi_none, fun e he => ⟨_, execHi3cIbi_some he, rfl, rfl, rfl, fun k => rfl⟩⟩
  · exact execHi3cIbi_quiet
  · exact execHi3cIbi_alert
  · exact fun e rest h hon hd => ⟨_, execHi3cIbi_first h (State.maySend_of hon hd), rfl, rfl, rfl, fun k => rfl⟩
  · exact fun ha hq hon hd => ⟨_, execHi3cIbi_alert_sent ha hq hon hd, rfl, rfl, fun k => rfl⟩
  · exact fun hc hj hw => ⟨_, execHotJoin_sent hc hj hw, rfl, rfl, rfl, fun k => rfl⟩
  · exact execHotJoin_not

end Sys2Proof.Machine
end

section
/-! The statement on the general-purpose pins. -/

namespace Sys2Proof.Machine

@[simp] theorem State.pin_adopt (p : Nat → Bool) (s : State) : (s.adopt p).pin = s.pin := by
  unfold State.adopt
  split
  exact foldl_keeps (f := fun (t : State) (e : Nat × Word) => t.setReg e.1 ((t.reg e.1 &&& ~~~(structMask e.1)) ||| e.2)) State.pin (fun _ _ => rfl) _ s

/-! Edges (R481). -/

/-- What makes a level an edge that fires the pin's source. -/
def State.edgeFires (s : State) (n : Nat) (b : Bool) : Bool :=
  let cfg := Reg.PIN_GPn_CFG n
  b != (s.pin.level[n]?).getD false && (if b != s.bit cfg 7 then (s.f cfg 15 14).testBit 0 else (s.f cfg 15 14).testBit 1) && !s.padIdle n &&
    decide (s.f cfg 2 0 ≠ 6)

theorem execGpEdge_eq (n : Fin 48) (level : Bool) {s : State} (h : s.pclk = true) : exec (.gpEdge n level) s =
    if s.edgeFires n.val (s.padLevel n.val level) then .next ((s.setLevel n.val (s.padLevel n.val level)).arrive (193 + n.val))
    else .next (s.setLevel n.val (s.padLevel n.val level)) := if_pos h

theorem State.edgeChosen_eq (s : State) (n : Nat) (up : Bool) :
    (if up then (s.f (Reg.PIN_GPn_CFG n) 15 14).testBit 0 else (s.f (Reg.PIN_GPn_CFG n) 15 14).testBit 1) =
      bitAt (s.reg (Reg.PIN_GPn_CFG n)) (if up then 14 else 15) := by
  cases up
  · exact (testBit_fld ..).trans (Bool.true_and _)
  · exact (testBit_fld ..).trans (Bool.true_and _)

/-! An arrival at a flagged source that no coalescer stands before sets its flag (R382, R383). -/

theorem State.flag_arrive {n : Nat} {s : State} (hp : s.pwr.state = 0) (hc : s.coalOf n = none) (hf : s.bit (Reg.IRQ_SRCs n) 6 = true) :
    (s.arrive n).bit (Reg.IRQ_SRCs n) 16 = true := by
  have e : s.arrive n = s.setBit (Reg.IRQ_SRCs n) 16 true := by
    simp only [State.arrive, hp, if_true, State.arriveAwake, hc, State.arriveAt, hf]
  rw [e, State.bit_setBit_same _ _ _ (by decide)]

/-! A lock sequence (R487). -/

theorem State.lockAbort_spec (s : State) : s.lockAbort.pin.lockSeq = none ∧ s.lockAbort.bit Reg.PIN_STAT 0 = true ∧
    s.lockAbort.reg Reg.PIN_LOCKED0 = s.reg Reg.PIN_LOCKED0 ∧ s.lockAbort.reg Reg.PIN_LOCKED1 = s.reg Reg.PIN_LOCKED1 ∧ SameMemory s s.lockAbort := by
  refine ⟨by simp [State.lockAbort], State.bit_raise0_same (r := stPIN) _ (by decide) (by decide) (by decide), ?_, ?_,
    fun k => State.byte_congr (by simp [State.lockAbort]) k⟩
  · exact State.reg_raise0_ne _ _ (by decide) (by decide) (by decide)
  · exact State.reg_raise0_ne _ _ (by decide) (by decide) (by decide)

theorem execPinLock_eq {m : Acc} {s : State} (v : Word) (hm : m.debug = false) (hoff : s.targetOff Reg.PIN_LOCK = false) :
    exec (.pinLock m v) s = .next ((s.pinLock v).reply 0 0) := by
  show Host.Outcome.next (s.askWrite m Reg.PIN_LOCK v) = _
  rw [State.askWrite_word (.inl hm) hoff (by decide) rfl]
  rfl

/-- What aborts a sequence: another key, a second write without a first, or one that names another pin. -/
theorem State.pinLock_abort {v : Word} {s : State} (h : fld v 15 8 ≠ 0x4C ∨ (s.pin.lockSeq = none ∧ bitAt v 16 = true) ∨
    (∃ q, s.pin.lockSeq = some q ∧ q ≠ fld v 5 0)) : s.pinLock v = s.lockAbort := by
  unfold State.pinLock
  by_cases hk : fld v 15 8 ≠ 0x4C
  · exact if_pos hk
  · rcases h with h | ⟨hq, hb⟩ | ⟨q, hq, hne⟩
    · exact absurd h hk
    · simp only [hk, if_false, hq, hb]
    · simp only [hk, if_false, hq, ne_eq, hne, not_false_eq_true, if_true]

theorem State.pinLock_first {v : Word} {s : State} (hk : fld v 15 8 = 0x4C) (hq : s.pin.lockSeq = none) (hb : bitAt v 16 = false) :
    s.pinLock v = { s with pin := { s.pin with lockSeq := some (fld v 5 0) } } := by
  simp only [State.pinLock, hk, hq, hb, ne_eq, not_true_eq_false, if_false]

theorem State.pinLock_again {v : Word} {s : State} (hk : fld v 15 8 = 0x4C) (hq : s.pin.lockSeq = some (fld v 5 0)) (hb : bitAt v 16 = false) :
    s.pinLock v = s := by
  simp only [State.pinLock, hk, hq, hb, ne_eq, not_true_eq_false, if_false, Bool.false_eq_true]

theorem State.pinLock_second {v : Word} {s : State} (hk : fld v 15 8 = 0x4C) (hq : s.pin.lockSeq = some (fld v 5 0)) (hb : bitAt v 16 = true) :
    s.pinLock v = if fld v 5 0 < 48 then
      ({ s with pin := { s.pin with lockSeq := none } } : State).setBit (if fld v 5 0 < 32 then Reg.PIN_LOCKED0 else Reg.PIN_LOCKED1) (fld v 5 0 % 32) true
      else { s with pin := { s.pin with lockSeq := none } } := by
  simp only [State.pinLock, hk, hq, hb, ne_eq, not_true_eq_false, if_false, if_true]

/-! Release (R485). -/

theorem execPinRelease_eq {m : Acc} {s : State} (hm : m.debug = false) (hoff : s.targetOff Reg.PIN_CTRL = false) :
    exec (.pinRelease m) s = .next (s.pinRelease.reply 0 0) := by
  show Host.Outcome.next (s.askWrite m Reg.PIN_CTRL 1) = _
  rw [State.askWrite_word (.inl hm) hoff (by decide) rfl]
  rfl

/-! A switch (R484). -/

theorem execPinSwitch_eq {s : State} (h : s.img.pinsDue = true) : ∃ t, exec .pinSwitch s = .next t ∧ t.img.pinsDue = false ∧ t.mem = s.mem ∧
    ∃ changed : List Nat, (∀ n, n ∈ changed ↔ n < 48 ∧ s.f (Reg.PIN_GPn_CFG n) 7 0 ≠ t.f (Reg.PIN_GPn_CFG n) 7 0) ∧
      t.pin.held = changed.map (fun n => (n, s.padDrive n)) ++ s.pin.held.filter (fun e => !changed.contains e.1) := by
  refine ⟨_, if_pos h, rfl, by simp, (List.range 48).filter fun n => decide (s.f (Reg.PIN_GPn_CFG n) 7 0 ≠
    (s.adopt fun a => decide (blockOf a = 17)).f (Reg.PIN_GPn_CFG n) 7 0), fun n => ?_, ?_⟩
  · simp only [List.mem_filter, List.mem_range, decide_eq_true_eq]
    exact Iff.rfl
  · rw [← State.pin_adopt (fun a => decide (blockOf a = 17)) s]

/-- Settles O49, command by command. -/
theorem pinCommands : Obligations.PinCommands := by
  unfold Obligations.PinCommands
  intro m s
  refine ⟨?_, ?_, ?_, ?_, ?_, ?_, ?_, ?_, ?_⟩
  · rintro n level _ _ _ rfl rfl rfl
    have chosen : ∀ b, s.edgeFires n.val b = (b != (s.pin.level[n.val]?).getD false &&
        bitAt (s.reg (Reg.PIN_GPn_CFG n.val)) (if b != s.bit (Reg.PIN_GPn_CFG n.val) 7 then 14 else 15) && !s.padIdle n.val &&
          decide (s.f (Reg.PIN_GPn_CFG n.val) 2 0 ≠ 6)) := by
      intro b
      rw [← s.edgeChosen_eq n.val]
      rfl
    refine ⟨fun h => if_neg (by simp [h]), fun h hq => ?_, fun h hne hb hi hf => ?_⟩
    · have hno : s.edgeFires n.val (s.padLevel n.val level) = false := by
        rw [chosen]
        rcases hq with hq | hq | hq | hq
        · simp [hq]
        · simp only [hq, Bool.and_false, Bool.false_and]
        · simp [hq]
        · simp [hq]
      refine ⟨_, (execGpEdge_eq n level h).trans (if_neg (by simp [hno])), rfl, rfl, fun k => rfl⟩
    · have hyes : s.edgeFires n.val (s.padLevel n.val level) = true := by
        rw [chosen, hb, hi]
        simp [hne, hf]
      refine ⟨_, (execGpEdge_eq n level h).trans (if_pos hyes), by simp [State.setLevel], ?_, fun k => State.byte_congr (by simp [State.setLevel]) k⟩
      exact fun hp hc hs => State.flag_arrive (s := s.setLevel n.val (s.padLevel n.val level)) hp hc hs
  · exact fun h => if_neg (by simp [h])
  · intro h
    obtain ⟨t, ht, hdue, hmem, changed, hch, hheld⟩ := execPinSwitch_eq h
    refine ⟨t, ht, hdue, fun k => State.byte_congr hmem k, fun n hn => ⟨fun hne => ?_, fun heq e he => ?_⟩⟩
    · rw [hheld]
      exact List.mem_append_left _ (List.mem_map.mpr ⟨n, (hch n).mpr ⟨hn, Ne.symm hne⟩, rfl⟩)
    · have hout : n ∉ changed := fun k => ((hch n).mp k).2 heq.symm
      subst he
      rw [hheld]
      constructor
      · intro hmem'
        rcases List.mem_append.mp hmem' with h1 | h1
        · obtain ⟨j, hj, rfl⟩ := List.mem_map.mp h1
          exact absurd hj hout
        · exact (List.mem_filter.mp h1).1
      · exact fun h1 => List.mem_append_right _ (List.mem_filter.mpr ⟨h1, by simpa using hout⟩)
  · rintro n level _ rfl
    refine ⟨_, rfl, fun e he => ?_, rfl, rfl, fun k => rfl⟩
    simpa using (List.mem_filter.mp he).2
  · intro n
    refine ⟨_, rfl, by simp, fun k hk => ?_, rfl, fun k => rfl⟩
    simp [hk]
  · intro hm hoff v c hc
    have hoff' : s.targetOff Reg.PIN_LOCK = true := hoff
    simp only [List.mem_cons, List.not_mem_nil, or_false] at hc
    rcases hc with rfl | rfl
    · have h := State.askWrite_unpowered 1 hm hoff
      exact ⟨_, rfl, h.answer, h.pin, h.byte⟩
    · have h := State.askWrite_unpowered v hm hoff'
      exact ⟨_, rfl, h.answer, h.pin, h.byte⟩
  · intro hm hoff
    have hoff' : s.targetOff Reg.PIN_LOCK = false := hoff
    refine ⟨fun h => ?_, fun h => ?_, ?_⟩
    · rw [execPinRelease_eq hm hoff, State.pinRelease, if_pos h]
    · refine ⟨_, execPinRelease_eq hm hoff, ?_⟩
      rw [State.pinRelease, if_neg (by simp [h])]
      exact ⟨State.bit_setBit_same _ _ _ (by decide), rfl, fun e he => List.mem_append_left _ he, fun a ha => State.reg_setBit_ne s ha _ _, fun k => rfl⟩
    · rintro v _ rfl
      refine ⟨fun h => ?_, fun hk hq hb => ?_, fun hk hq hb => ?_, fun hk hq hb hp => ?_, fun hk hq hb hp => ?_⟩
      · obtain ⟨h1, h2, h3, h4, h5⟩ := s.lockAbort_spec
        refine ⟨_, execPinLock_eq v hm hoff', ?_⟩
        rw [State.pinLock_abort h]
        exact ⟨h1, h2, h3, h4, h5⟩
      · refine ⟨_, execPinLock_eq v hm hoff', ?_⟩
        rw [State.pinLock_first hk hq hb]
        exact ⟨rfl, rfl, fun k => rfl⟩
      · rw [execPinLock_eq v hm hoff', State.pinLock_again hk hq hb]
      · refine ⟨_, execPinLock_eq v hm hoff', ?_⟩
        rw [State.pinLock_second hk hq hb, if_neg (Nat.not_lt.mpr hp)]
        exact ⟨rfl, rfl, fun k => rfl⟩
      · refine ⟨_, execPinLock_eq v hm hoff', ?_⟩
        rw [State.pinLock_second hk hq hb, if_pos hp]
        exact ⟨rfl, State.bit_setBit_same _ _ _ (Nat.mod_lt _ (by decide)), fun a ha => State.reg_setBit_ne _ ha _ _, fun k => rfl⟩
  · intro h
    show Host.Outcome.next (if s.pin.lockSeq.isSome then s.lockAbort else s) = _
    rw [if_neg (by simp [h])]
  · intro h
    obtain ⟨h1, h2, -, -, h5⟩ := s.lockAbort_spec
    refine ⟨s.lockAbort, ?_, h1, h2, h5⟩
    show Host.Outcome.next (if s.pin.lockSeq.isSome then s.lockAbort else s) = _
    rw [if_pos (Option.isSome_iff_ne_none.mpr h)]

end Sys2Proof.Machine
end

section
/-! The statement on the cabinet port and the flash port. -/

namespace Sys2Proof.Machine

/-! Refused accesses. -/

theorem exec_cabinet_unpowered {m : Acc} {s : State} (hm : m.debug = false) (hoff : s.targetOff Reg.CI3C_CMD = true) (v : Word) (b : Bool) :
    ∀ c ∈ [Instr.ci3cPrivateWrite m v, .ci3cPrivateRead m v, .ci3cBroadcastCcc m v, .ci3cDirectCcc m v, .ci3cEntdaa m v, .ci3cHdrWrite m v,
      .ci3cHdrRead m v, .ci3cI2cWrite m v, .ci3cI2cRead m v, .ci3cRxdRead m b, .xspiCommand m v, .xspiPoll m v, .xspiData m b v, .xspiFlush m],
      ∃ t, exec c s = .next t ∧ Refused 6 s t := by
  have hw : ∀ w, Refused 6 s (s.askWrite m Reg.CI3C_CMD w) := fun w => State.askWrite_unpowered w hm hoff
  have hx : ∀ a w, a = Reg.XSPI_CMD ∨ a = Reg.XSPI_DATA ∨ a = Reg.XSPI_CTRL → Refused 6 s (s.askWrite m a w) := by
    rintro a w (rfl | rfl | rfl) <;> exact State.askWrite_unpowered w hm hoff
  have hr : ∀ a, a = Reg.CI3C_RXD ∨ a = Reg.CI3C_IBIQ ∨ a = Reg.XSPI_DATA → Refused 6 s (s.askRead m a) := by
    rintro a (rfl | rfl | rfl) <;> exact State.askRead_unpowered hm hoff
  simp only [List.mem_cons, List.not_mem_nil, or_false, forall_eq_or_imp, forall_eq]
  refine ⟨⟨_, rfl, hw _⟩, ⟨_, rfl, hw _⟩, ⟨_, rfl, hw _⟩, ⟨_, rfl, hw _⟩, ⟨_, rfl, hw _⟩, ⟨_, rfl, hw _⟩, ⟨_, rfl, hw _⟩, ⟨_, rfl, hw _⟩,
    ⟨_, rfl, hw _⟩, ⟨_, rfl, hr _ ?_⟩, ⟨_, rfl, hx _ _ (.inl rfl)⟩, ⟨_, rfl, hx _ _ (.inl rfl)⟩, ?_, ⟨_, rfl, hx _ _ (.inr (.inr rfl))⟩⟩
  · cases b
    · exact .inl rfl
    · exact .inr (.inl rfl)
  · cases b
    · exact ⟨_, rfl, hr _ (.inr (.inr rfl))⟩
    · exact ⟨_, rfl, hx _ _ (.inr (.inl rfl))⟩

theorem exec_flash_protected {m : Acc} {s : State} (hm : m.debug = false) (ha : m.alle = false) (hoff : s.targetOff Reg.XSPI_CMD = false)
    (v : Word) (b : Bool) : ∀ c ∈ [Instr.xspiCommand m v, .xspiPoll m v, .xspiData m b v, .xspiFlush m], ∃ t, exec c s = .next t ∧ Refused 3 s t := by
  have hx : ∀ a w, a = Reg.XSPI_CMD ∨ a = Reg.XSPI_DATA ∨ a = Reg.XSPI_CTRL → Refused 3 s (s.askWrite m a w) := by
    rintro a w (rfl | rfl | rfl) <;> exact State.askWrite_protected hm hoff (by decide) (congrArg (!·) ha)
  simp only [List.mem_cons, List.not_mem_nil, or_false, forall_eq_or_imp, forall_eq]
  refine ⟨⟨_, rfl, hx _ _ (.inl rfl)⟩, ⟨_, rfl, hx _ _ (.inl rfl)⟩, ?_, ⟨_, rfl, hx _ _ (.inr (.inr rfl))⟩⟩
  cases b
  · exact ⟨_, rfl, State.askRead_protected hm hoff (by decide) (congrArg (!·) ha)⟩
  · exact ⟨_, rfl, hx _ _ (.inr (.inl rfl))⟩

/-! The cabinet port (R492). -/

theorem State.askWrite_ci3cCmd {m : Acc} {s : State} (v : Word) (hm : m.debug = false) (hoff : s.targetOff Reg.CI3C_CMD = false) :
    s.askWrite m Reg.CI3C_CMD v = ({ s with ci3c := { s.ci3c with cmds := s.ci3c.cmds ++ [v] } } : State).reply 0 0 := by
  rw [State.askWrite_word (.inl hm) hoff (by decide) rfl]
  rfl

theorem exec_ci3c_queues {m : Acc} {s : State} (v : Word) (hm : m.debug = false) (hoff : s.targetOff Reg.CI3C_CMD = false) :
    ∀ e ∈ [(0, Instr.ci3cPrivateWrite m v), (1, .ci3cPrivateRead m v), (2, .ci3cBroadcastCcc m v), (3, .ci3cDirectCcc m v), (4, .ci3cEntdaa m v),
        (5, .ci3cHdrWrite m v), (6, .ci3cHdrRead m v), (7, .ci3cI2cWrite m v), (8, .ci3cI2cRead m v)],
      exec e.2 s = .next (({ s with ci3c := { s.ci3c with cmds := s.ci3c.cmds ++ [setFld v 3 0 e.1] } } : State).reply 0 0) := by
  have h : ∀ w, (Host.Outcome.next (s.askWrite m Reg.CI3C_CMD w) : Res) =
      .next (({ s with ci3c := { s.ci3c with cmds := s.ci3c.cmds ++ [w] } } : State).reply 0 0) :=
    fun w => congrArg _ (State.askWrite_ci3cCmd w hm hoff)
  simp only [List.mem_cons, List.not_mem_nil, or_false, forall_eq_or_imp, forall_eq]
  exact ⟨h _, h _, h _, h _, h _, h _, h _, h _, h _⟩

/-- The response of a command of the cabinet port, with its status bits. -/
def State.ci3cPost (code n : Nat) (t : State) : State :=
  let t1 := (t.setReg Reg.CI3C_RESP (wd (code + 2 ^ 16 * (n % 4096)))).raise0 stCI3C 0
  if code = 1 then t1.raise0 stCI3C 1 else if code = 0 then t1 else t1.raise0 stCI3C 2

/-- A status bit of the cabinet port. -/
theorem State.stat_ci3cRaise (s : State) {bit : Nat} (h : bit < 32) : (s.raise0 stCI3C bit).bit Reg.CI3C_STAT bit = true :=
  State.bit_raise0_same (r := stCI3C) s h (by decide) (by decide)

theorem State.stat_ci3cRaise_keeps {s : State} {bit i : Nat} (h : i ≠ bit) : (s.raise0 stCI3C bit).bit Reg.CI3C_STAT i = s.bit Reg.CI3C_STAT i :=
  State.bit_raise0_ne (r := stCI3C) s h (by decide) (by decide)

theorem State.ci3cPost_told (code n : Nat) (t : State) : Told t (t.ci3cPost code n) := by
  unfold State.ci3cPost
  dsimp only
  have h := (Told.setReg t Reg.CI3C_RESP (wd (code + 2 ^ 16 * (n % 4096)))).trans (State.told_raise0 stCI3C 0 _)
  split_ifs
  · exact h.trans (State.told_raise0 ..)
  · exact h
  · exact h.trans (State.told_raise0 ..)

theorem State.resp_ci3cPost (code n : Nat) (t : State) : (t.ci3cPost code n).reg Reg.CI3C_RESP = wd (code + 2 ^ 16 * (n % 4096)) := by
  have h : ((t.setReg Reg.CI3C_RESP (wd (code + 2 ^ 16 * (n % 4096)))).raise0 stCI3C 0).reg Reg.CI3C_RESP = wd (code + 2 ^ 16 * (n % 4096)) :=
    (State.reg_raise0_ne _ _ (by decide) (by decide) (by decide)).trans (State.reg_setReg_same ..)
  unfold State.ci3cPost
  dsimp only
  split_ifs
  · exact (State.reg_raise0_ne _ _ (by decide) (by decide) (by decide)).trans h
  · exact h
  · exact (State.reg_raise0_ne _ _ (by decide) (by decide) (by decide)).trans h

theorem State.done_ci3cPost (code n : Nat) (t : State) : (t.ci3cPost code n).bit Reg.CI3C_STAT 0 = true := by
  unfold State.ci3cPost
  dsimp only
  split_ifs
  · exact (State.stat_ci3cRaise_keeps (by decide)).trans (State.stat_ci3cRaise _ (by decide))
  · exact State.stat_ci3cRaise _ (by decide)
  · exact (State.stat_ci3cRaise_keeps (by decide)).trans (State.stat_ci3cRaise _ (by decide))

theorem State.nack_ci3cPost (n : Nat) (t : State) : (t.ci3cPost 1 n).bit Reg.CI3C_STAT 1 = true := State.stat_ci3cRaise _ (by decide)

theorem State.failed_ci3cPost {code : Nat} (h : 2 ≤ code) (n : Nat) (t : State) : (t.ci3cPost code n).bit Reg.CI3C_STAT 2 = true := by
  unfold State.ci3cPost
  dsimp only
  rw [if_neg (by omega), if_neg (by omega)]
  exact State.stat_ci3cRaise _ (by decide)

theorem State.f_resp_ci3cPost {code n : Nat} (hc : code < 16) (hn : n < 4096) (t : State) :
    (t.ci3cPost code n).f Reg.CI3C_RESP 3 0 = code ∧ (t.ci3cPost code n).f Reg.CI3C_RESP 27 16 = n := by
  have hlt : code + 2 ^ 16 * n < 2 ^ 32 := by omega
  simp only [State.f, State.resp_ci3cPost, Nat.mod_eq_of_lt hn, fld, wd, BitVec.toNat_ofNat, Nat.mod_eq_of_lt hlt, Nat.shiftRight_eq_div_pow]
  constructor <;> omega

/-- The command at the front of the queue is gone. -/
def State.ci3cPopped (rest : List Word) (s : State) : State := { s with ci3c := { s.ci3c with cmds := rest } }

/-- What a read of `got` bytes leaves before its response. -/
def State.ci3cReceived (v : Word) (rest : List Word) (got : List Byte) (s : State) : State :=
  ({ s with ci3c := { s.ci3c with cmds := rest, rx := s.ci3c.rx ++ padWords got } } : State).emit (.ci3c v [])

/-- What a write of `n` bytes leaves before its response. -/
def State.ci3cSent (v : Word) (rest : List Word) (resp n : Nat) (s : State) : State :=
  ({ s with ci3c := { s.ci3c with
      cmds := rest, tx := s.ci3c.tx.drop ((fld v 27 16 + 3) / 4 * 4),
      used := if fld v 3 0 = 4 ∧ resp = 0 then fld v 7 4 :: s.ci3c.used.erase (fld v 7 4) else s.ci3c.used } } : State).emit (.ci3c v (s.ci3c.tx.take n))

section
variable {s : State} {v : Word} {rest : List Word} (hc : s.bit Reg.CI3C_CTRL 0 = true) (hq : s.ci3c.cmds = v :: rest)
include hc hq

theorem execCi3cCommandDone_rejected (r : Fin 4) (n : Nat) (data : List Byte) (h : s.ci3cRejects (fld v 3 0) = true) :
    exec (.ci3cCommandDone r n data) s = .next ((s.ci3cPopped rest).ci3cPost 4 0) := by
  show execCi3cCommandDone r n data s = _
  simp only [execCi3cCommandDone, hc, hq, h, Bool.true_eq_false, if_false, if_true] <;> rfl

theorem execCi3cCommandDone_read (r : Fin 4) (n : Nat) (data : List Byte) (h : s.ci3cRejects (fld v 3 0) = false) (hr : ci3cReads (fld v 3 0) = true) :
    exec (.ci3cCommandDone r n data) s = .next ((s.ci3cReceived v rest (data.take (min (fld v 27 16) n))).ci3cPost r.val
      (data.take (min (fld v 27 16) n)).length) := by
  show execCi3cCommandDone r n data s = _
  simp only [execCi3cCommandDone, hc, hq, h, hr, Bool.true_eq_false, Bool.false_eq_true, if_false, if_true] <;> rfl

theorem execCi3cCommandDone_write (r : Fin 4) (n : Nat) (data : List Byte) (h : s.ci3cRejects (fld v 3 0) = false) (hr : ci3cReads (fld v 3 0) = false) :
    exec (.ci3cCommandDone r n data) s = .next ((s.ci3cSent v rest r.val (min (fld v 27 16) n)).ci3cPost r.val (min (fld v 27 16) n)) := by
  show execCi3cCommandDone r n data s = _
  by_cases hk : fld v 3 0 = 4 ∧ r.val = 0
  · simp only [execCi3cCommandDone, hc, hq, h, hr, Bool.true_eq_false, Bool.false_eq_true, if_false, State.ci3cSent, if_pos hk] <;> rfl
  · simp only [execCi3cCommandDone, hc, hq, h, hr, Bool.true_eq_false, Bool.false_eq_true, if_false, State.ci3cSent, if_neg hk] <;> rfl

theorem ci3cCommandDone_rejected (r : Fin 4) (n : Nat) (data : List Byte)
    (h : 8 < fld v 3 0 ∨ ((fld v 3 0 = 5 ∨ fld v 3 0 = 6) ∧ s.bit Reg.CI3C_CTRL 1 = false)) :
    Completes (.ci3cCommandDone r n data) s fun t => t.ci3c = { s.ci3c with cmds := rest } ∧ t.reg Reg.CI3C_RESP = 4 ∧
      t.bit Reg.CI3C_STAT 0 = true ∧ t.bit Reg.CI3C_STAT 2 = true ∧ SameMemory s t := by
  have hrej : s.ci3cRejects (fld v 3 0) = true := by
    simp only [State.ci3cRejects, Bool.or_eq_true, Bool.and_eq_true, decide_eq_true_eq, Bool.not_eq_true']
    exact h
  have ht := State.ci3cPost_told 4 0 (s.ci3cPopped rest)
  exact ⟨_, execCi3cCommandDone_rejected hc hq r n data hrej, ht.ci3c, State.resp_ci3cPost .., State.done_ci3cPost .., State.failed_ci3cPost (by decide) ..,
    State.byte_congr (ht.mem.trans rfl)⟩

/-- A response code other than zero sets its status bit, whatever the command was. -/
theorem ci3cCommandDone_answered (r : Fin 4) (n : Nat) (data : List Byte) (h : s.ci3cRejects (fld v 3 0) = false) :
    Completes (.ci3cCommandDone r n data) s fun t => (r.val = 1 → t.bit Reg.CI3C_STAT 1 = true) ∧ (2 ≤ r.val → t.bit Reg.CI3C_STAT 2 = true) := by
  rcases hr : ci3cReads (fld v 3 0) with - | -
  · exact ⟨_, execCi3cCommandDone_write hc hq r n data h hr, fun h1 => by rw [h1]; exact State.nack_ci3cPost .., fun h2 => State.failed_ci3cPost h2 ..⟩
  · exact ⟨_, execCi3cCommandDone_read hc hq r n data h hr, fun h1 => by rw [h1]; exact State.nack_ci3cPost .., fun h2 => State.failed_ci3cPost h2 ..⟩

theorem ci3cCommandDone_read (r : Fin 4) (n : Nat) (data : List Byte)
    (h : fld v 3 0 = 1 ∨ fld v 3 0 = 8 ∨ (fld v 3 0 = 6 ∧ s.bit Reg.CI3C_CTRL 1 = true)) :
    Completes (.ci3cCommandDone r n data) s fun t => t.ci3c.cmds = rest ∧
        t.ci3c.rx = s.ci3c.rx ++ padWords (data.take (min (fld v 27 16) n)) ∧ t.ci3c.tx = s.ci3c.tx ∧ t.f Reg.CI3C_RESP 3 0 = r.val ∧
        t.f Reg.CI3C_RESP 27 16 = (data.take (min (fld v 27 16) n)).length ∧ t.bit Reg.CI3C_STAT 0 = true ∧ SameMemory s t := by
  have hrej : s.ci3cRejects (fld v 3 0) = false := by
    rcases h with h | h | ⟨h, hh⟩ <;> simp [State.ci3cRejects, *]
  have hread : ci3cReads (fld v 3 0) = true := by
    rcases h with h | h | ⟨h, -⟩ <;> simp [ci3cReads, h]
  have hlen : (data.take (min (fld v 27 16) n)).length < 4096 := by
    have := fld_lt v 27 16
    rw [List.length_take]
    omega
  have ht := State.ci3cPost_told r.val (data.take (min (fld v 27 16) n)).length (s.ci3cReceived v rest (data.take (min (fld v 27 16) n)))
  have hf := State.f_resp_ci3cPost (code := r.val) (by omega) hlen (s.ci3cReceived v rest (data.take (min (fld v 27 16) n)))
  exact ⟨_, execCi3cCommandDone_read hc hq r n data hrej hread, by rw [ht.ci3c]; rfl, by rw [ht.ci3c]; rfl, by rw [ht.ci3c]; rfl, hf.1, hf.2,
    State.done_ci3cPost .., State.byte_congr (ht.mem.trans rfl)⟩

theorem ci3cCommandDone_write (r : Fin 4) (n : Nat) (data : List Byte)
    (h : (fld v 3 0 ≤ 4 ∧ fld v 3 0 ≠ 1) ∨ fld v 3 0 = 7 ∨ (fld v 3 0 = 5 ∧ s.bit Reg.CI3C_CTRL 1 = true)) :
    Completes (.ci3cCommandDone r n data) s fun t => t.ci3c.cmds = rest ∧ t.ci3c.rx = s.ci3c.rx ∧
        t.ci3c.tx = s.ci3c.tx.drop ((fld v 27 16 + 3) / 4 * 4) ∧ t.out = s.out ++ [.ci3c v (s.ci3c.tx.take (min (fld v 27 16) n))] ∧
        t.f Reg.CI3C_RESP 3 0 = r.val ∧ (fld v 3 0 = 4 → r.val = 0 → fld v 7 4 ∈ t.ci3c.used) ∧ (fld v 3 0 ≠ 4 ∨ r.val ≠ 0 → t.ci3c.used = s.ci3c.used) ∧
        t.bit Reg.CI3C_STAT 0 = true ∧ SameMemory s t := by
  have hrej : s.ci3cRejects (fld v 3 0) = false := by
    simp only [State.ci3cRejects, Bool.or_eq_false_iff, Bool.and_eq_false_iff, decide_eq_false_iff_not, Bool.not_eq_false']
    rcases h with ⟨h, -⟩ | h | ⟨h, hh⟩
    · exact ⟨by omega, .inl (by omega)⟩
    · exact ⟨by omega, .inl (by omega)⟩
    · exact ⟨by omega, .inr hh⟩
  have hread : ci3cReads (fld v 3 0) = false := by
    simp only [ci3cReads, Bool.or_eq_false_iff, decide_eq_false_iff_not]
    omega
  have hlen : min (fld v 27 16) n < 4096 := by
    have := fld_lt v 27 16
    omega
  have ht := State.ci3cPost_told r.val (min (fld v 27 16) n) (s.ci3cSent v rest r.val (min (fld v 27 16) n))
  have hf := State.f_resp_ci3cPost (code := r.val) (by omega) hlen (s.ci3cSent v rest r.val (min (fld v 27 16) n))
  refine ⟨_, execCi3cCommandDone_write hc hq r n data hrej hread, by rw [ht.ci3c]; rfl, by rw [ht.ci3c]; rfl, by rw [ht.ci3c]; rfl, by rw [ht.out]; rfl, hf.1,
    fun h4 h0 => ?_, fun hne => ?_, State.done_ci3cPost .., State.byte_congr (ht.mem.trans rfl)⟩
  · rw [ht.ci3c]
    simp only [State.ci3cSent, State.emit, if_pos (And.intro h4 h0), List.mem_cons, true_or]
  · rw [ht.ci3c]
    simp only [State.ci3cSent, State.emit, if_neg (fun (k : fld v 3 0 = 4 ∧ r.val = 0) => hne.elim (· k.1) (· k.2))]

end

theorem execCi3cCommandDone_none {s : State} (r : Fin 4) (n : Nat) (data : List Byte) (h : s.bit Reg.CI3C_CTRL 0 = false ∨ s.ci3c.cmds = []) :
    exec (.ci3cCommandDone r n data) s = .next s := by
  show execCi3cCommandDone r n data s = _
  rcases h with h | h
  · exact if_pos h
  · unfold execCi3cCommandDone
    split_ifs
    · rfl
    · rw [h]

/-- An in-band interrupt or a hot-join is noted. -/
theorem State.ci3cNoted {s t u : State} {bit : Nat} (hb : bit < 32) (hmem : t.mem = s.mem) (hu : u = t.raise0 stCI3C bit) :
    u.ci3c = t.ci3c ∧ u.out = t.out ∧ u.bit Reg.CI3C_STAT bit = true ∧ SameMemory s u := by
  subst hu
  have ht := State.told_raise0 stCI3C bit t
  exact ⟨ht.ci3c, ht.out, State.stat_ci3cRaise t hb, State.byte_congr (ht.mem.trans hmem)⟩

theorem execCi3cIbi_ignored {s : State} {d : Fin 16} (p : List Byte) (h : s.bit Reg.CI3C_CTRL 0 = false ∨ s.bit (Reg.CI3C_DEVn d.val) 9 = false) :
    exec (.ci3cIbi d p) s = .next s := if_neg (by rcases h with h | h <;> simp [h])

theorem ci3cIbi_queued {s : State} {d : Fin 16} {p : List Byte} {first : Nat} (hc : s.bit Reg.CI3C_CTRL 0 = true) (ha : s.bit (Reg.CI3C_DEVn d.val) 9 = true)
    (h : (if s.bit (Reg.CI3C_DEVn d.val) 10 then (p.headD 0).toNat else 0) = first) :
    Completes (.ci3cIbi d p) s fun t => t.ci3c.ibiq = s.ci3c.ibiq ++ [wd (d.val + 256 * first + 2 ^ 16)] ∧ t.bit Reg.CI3C_STAT 3 = true ∧ SameMemory s t := by
  have e : exec (.ci3cIbi d p) s = .next (({ s with ci3c := { s.ci3c with ibiq := s.ci3c.ibiq ++ [wd (d.val + 256 * first + 2 ^ 16)] } } : State).raise0 stCI3C 3) := by
    show execCi3cIbi d p s = _
    subst h
    cases p <;> simp only [execCi3cIbi, hc, ha, Bool.and_self, if_true] <;> rfl
  obtain ⟨hci, -, hbit, hmem⟩ := State.ci3cNoted (s := s)
    (t := { s with ci3c := { s.ci3c with ibiq := s.ci3c.ibiq ++ [wd (d.val + 256 * first + 2 ^ 16)] } }) (bit := 3) (by decide) rfl rfl
  exact ⟨_, e, by rw [hci], hbit, hmem⟩

/-- The device entries that a hot-join can take. -/
def State.ci3cFree (s : State) (n : Nat) : Bool :=
  decide (s.f (Reg.CI3C_DEVn n) 6 0 ≠ 0) && !s.bit (Reg.CI3C_DEVn n) 8 && !s.ci3c.used.contains n

theorem ci3cHotjoin_taken {s : State} (hc : s.bit Reg.CI3C_CTRL 0 = true) (hj : s.bit Reg.CI3C_CTRL 2 = true) {n : Nat}
    (h : (List.range 16).find? s.ci3cFree = some n) : Completes .ci3cHotjoin s fun t => t.ci3c.used = n :: s.ci3c.used ∧
      t.out = s.out ++ [.ci3cAssign n (s.f (Reg.CI3C_DEVn n) 6 0)] ∧ t.bit Reg.CI3C_STAT 4 = true ∧ SameMemory s t := by
  have e : exec .ci3cHotjoin s = .next ((({ s with ci3c := { s.ci3c with used := n :: s.ci3c.used } } : State).emit
      (.ci3cAssign n (s.f (Reg.CI3C_DEVn n) 6 0))).raise0 stCI3C 4) := by
    show execCi3cHotjoin s = _
    simp only [execCi3cHotjoin, hc, hj, Bool.and_self, if_true]
    split
    case h_1 k hk =>
      cases hk.symm.trans h
      rfl
    case h_2 hk => cases hk.symm.trans h
  obtain ⟨hci, hout, hbit, hmem⟩ := State.ci3cNoted (s := s) (t := ({ s with ci3c := { s.ci3c with used := n :: s.ci3c.used } } : State).emit
    (.ci3cAssign n (s.f (Reg.CI3C_DEVn n) 6 0))) (bit := 4) (by decide) rfl rfl
  exact ⟨_, e, by rw [hci]; rfl, hout, hbit, hmem⟩

theorem ci3cHotjoin_full {s : State} (hc : s.bit Reg.CI3C_CTRL 0 = true) (hj : s.bit Reg.CI3C_CTRL 2 = true)
    (h : (List.range 16).find? s.ci3cFree = none) : Completes .ci3cHotjoin s fun t => t.ci3c = s.ci3c ∧ t.out = s.out ∧
      t.bit Reg.CI3C_STAT 4 = true ∧ SameMemory s t := by
  have e : exec .ci3cHotjoin s = .next (s.raise0 stCI3C 4) := by
    show execCi3cHotjoin s = _
    simp only [execCi3cHotjoin, hc, hj, Bool.and_self, if_true]
    split
    case h_1 k hk => cases hk.symm.trans h
    case h_2 => rfl
  exact ⟨_, e, State.ci3cNoted (by decide) rfl rfl⟩

theorem execCi3cHotjoin_ignored {s : State} (h : s.bit Reg.CI3C_CTRL 0 = false ∨ s.bit Reg.CI3C_CTRL 2 = false) : exec .ci3cHotjoin s = .next s :=
  if_neg (by rcases h with h | h <;> simp [h])

theorem State.find_ci3cFree_zero {s : State} (ha : s.f (Reg.CI3C_DEVn 0) 6 0 ≠ 0) (hi : s.bit (Reg.CI3C_DEVn 0) 8 = false)
    (hu : s.ci3c.used.contains 0 = false) : (List.range 16).find? s.ci3cFree = some 0 := by
  have h : s.ci3cFree 0 = true := by
    simp only [State.ci3cFree, hi, hu, decide_eq_true ha, Bool.not_false, Bool.and_self]
  exact List.find?_cons_of_pos h

theorem ci3cRxdRead_data {m : Acc} {s : State} (hm : m.debug = false) (hoff : s.targetOff Reg.CI3C_RXD = false) :
    exec (.ci3cRxdRead m false) s = .next (({ s with ci3c := { s.ci3c with rx := s.ci3c.rx.drop 4 } } : State).reply 0 (leWord (s.ci3c.rx.take 4))) :=
  (congrArg Host.Outcome.next (State.askRead_word (a := Reg.CI3C_RXD) hm hoff (by decide) rfl (by decide))).trans rfl

theorem ci3cRxdRead_ibiq {m : Acc} {s : State} (hm : m.debug = false) (hoff : s.targetOff Reg.CI3C_RXD = false) :
    exec (.ci3cRxdRead m true) s = .next (s.ci3cIbiq.2.reply 0 s.ci3cIbiq.1) :=
  (congrArg Host.Outcome.next (State.askRead_word (a := Reg.CI3C_IBIQ) hm hoff (by decide) rfl (by decide))).trans rfl

theorem State.ci3cIbiq_nil {s : State} (h : s.ci3c.ibiq = []) : s.ci3cIbiq = (0, s) := by
  simp only [State.ci3cIbiq, h]

theorem State.ci3cIbiq_cons {s : State} {w : Word} {rest : List Word} (h : s.ci3c.ibiq = w :: rest) :
    s.ci3cIbiq = (w, { s with ci3c := { s.ci3c with ibiq := rest } }) := by
  simp only [State.ci3cIbiq, h]

/-! The flash port (R496 to R498). -/

theorem State.stat_xspiRaise (s : State) {bit : Nat} (h : bit < 32) : (s.raise0 stXSPI bit).bit Reg.XSPI_STAT bit = true :=
  State.bit_raise0_same (r := stXSPI) s h (by decide) (by decide)

theorem State.stat_xspiRaise_keeps {s : State} {bit i : Nat} (h : i ≠ bit) : (s.raise0 stXSPI bit).bit Reg.XSPI_STAT i = s.bit Reg.XSPI_STAT i :=
  State.bit_raise0_ne (r := stXSPI) s h (by decide) (by decide)

/-- What a write of XSPI_CMD answers. -/
theorem State.askWrite_xspiCmd {m : Acc} {s : State} (w : Word) (hm : m.debug = false) (ha : m.alle = true) (hoff : s.targetOff Reg.XSPI_CMD = false) :
    s.askWrite m Reg.XSPI_CMD w = (s.xspiCmd w).reply 0 0 := by
  rw [State.askWrite_word (.inl hm) hoff (by decide) (congrArg (!·) ha)]
  rfl

theorem State.xspiCmd_rejected {s : State} {w : Word} (h : s.xspiRejects w = true) : s.xspiCmd w = s.raise0 stXSPI 2 := if_pos h

/-- The bytes that a command takes from the FIFO. -/
def xspiTakes (w : Word) : Nat := if !bitAt w 27 && decide (fld w 17 16 = 2) then fld w 26 18 else 0

theorem State.xspiCmd_accepted {s : State} {w : Word} (h : s.xspiRejects w = false) :
    s.xspiCmd w = (({ s with xspi := { s.xspi with fifo := s.xspi.fifo.drop (xspiTakes w), run := some (w, s.reg Reg.XSPI_ADDR), polling := false } } : State).setBit
      Reg.XSPI_STAT 8 true).emit (.xspi w (s.reg Reg.XSPI_ADDR) (s.xspi.fifo.take (xspiTakes w))) := by
  unfold State.xspiCmd xspiTakes
  rw [if_neg (by simp [h])]

theorem xspiTakes_none {v : Word} {poll : Bool} (h : poll = true ∨ fld v 17 16 ≠ 2) : xspiTakes (putBit v 27 poll) = 0 := by
  refine if_neg ?_
  rw [bitAt_putBit_same _ _ _ (by decide), fld_putBit_out _ _ (by decide)]
  rcases h with h | h <;> simp [h]

theorem xspiTakes_write {v : Word} (h : fld v 17 16 = 2) : xspiTakes (putBit v 27 false) = fld v 26 18 := by
  unfold xspiTakes
  rw [bitAt_putBit_same _ _ _ (by decide), fld_putBit_out _ _ (by decide), fld_putBit_out _ _ (by decide)]
  simp [h]

section
variable {m : Acc} {s : State} {v w : Word} {poll : Bool} {c : Instr} (hm : m.debug = false) (ha : m.alle = true) (hoff : s.targetOff Reg.XSPI_CMD = false)
  (hc : poll = false ∧ c = .xspiCommand m v ∨ poll = true ∧ c = .xspiPoll m v) (hw : w = putBit v 27 poll)
include hm ha hoff hc hw

theorem exec_xspi_eq : exec c s = .next ((s.xspiCmd w).reply 0 0) := by
  subst hw
  rcases hc with ⟨rfl, rfl⟩ | ⟨rfl, rfl⟩ <;> exact congrArg Host.Outcome.next (State.askWrite_xspiCmd _ hm ha hoff)

theorem xspi_rejected (h : s.xspiRejects w = true) :
    Completes c s fun t => t.bit Reg.XSPI_STAT 2 = true ∧ t.xspi = s.xspi ∧ t.out = s.out ∧ SameMemory s t := by
  refine ⟨_, exec_xspi_eq hm ha hoff hc hw, ?_⟩
  rw [State.xspiCmd_rejected h]
  have ht := State.told_raise0 stXSPI 2 s
  exact ⟨State.stat_xspiRaise s (by decide), ht.xspi, ht.out, State.byte_congr (t := (s.raise0 stXSPI 2).reply 0 0) ht.mem⟩

theorem xspi_accepted (h : s.xspiRejects w = false) : Completes c s fun t => t.xspi.run = some (w, s.reg Reg.XSPI_ADDR) ∧ t.bit Reg.XSPI_STAT 8 = true ∧
        (poll = true ∨ fld v 17 16 ≠ 2 → t.out = s.out ++ [.xspi w (s.reg Reg.XSPI_ADDR) []] ∧ t.xspi.fifo = s.xspi.fifo) ∧
        (poll = false → fld v 17 16 = 2 → t.out = s.out ++ [.xspi w (s.reg Reg.XSPI_ADDR) (s.xspi.fifo.take (fld v 26 18))] ∧
          t.xspi.fifo = s.xspi.fifo.drop (fld v 26 18)) ∧ SameMemory s t := by
  refine ⟨_, exec_xspi_eq hm ha hoff hc hw, ?_⟩
  rw [State.xspiCmd_accepted h]
  refine ⟨rfl, State.bit_setBit_same _ _ _ (by decide), fun h0 => ?_, fun hp h2 => ?_, fun _ => rfl⟩
  · have e : xspiTakes w = 0 := hw ▸ xspiTakes_none h0
    rw [e]
    exact ⟨rfl, rfl⟩
  · have e : xspiTakes w = fld v 26 18 := by
      subst hw hp
      exact xspiTakes_write h2
    rw [e]
    exact ⟨rfl, rfl⟩

end

theorem State.fifoRoom_of_le {s : State} {n : Nat} (h : s.xspi.fifo.length + n ≤ 256) : s.fifoRoom n = true := decide_eq_true h

theorem State.not_fifoRoom {s : State} {n : Nat} (h : 256 < s.xspi.fifo.length + n) : ¬ s.fifoRoom n = true := fun k => Nat.not_le.mpr h (of_decide_eq_true k)

section
variable {m : Acc} {s : State} (hm : m.debug = false) (ha : m.alle = true) (hoff : s.targetOff Reg.XSPI_DATA = false)
include hm ha hoff

theorem execXspiData_push (v : Word) : exec (.xspiData m true v) s = .next ((s.xspiPush v).reply 0 0) := by
  show Host.Outcome.next (s.askWrite m Reg.XSPI_DATA v) = _
  rw [State.askWrite_word (.inl hm) hoff (by decide) (congrArg (!·) ha)]
  rfl

theorem execXspiData_pop (v : Word) : exec (.xspiData m false v) s = .next (s.xspiPop.2.reply 0 s.xspiPop.1) :=
  (congrArg Host.Outcome.next (State.askRead_word (a := Reg.XSPI_DATA) hm hoff (by decide) (congrArg (!·) ha) (by decide))).trans rfl

theorem xspiData_stored (v : Word) (h : s.xspi.fifo.length + 4 ≤ 256) :
    Completes (.xspiData m true v) s fun t => t.xspi = { s.xspi with fifo := s.xspi.fifo ++ leBytes 4 v.toNat } ∧ t.regs = s.regs := by
  refine ⟨_, execXspiData_push hm ha hoff v, ?_⟩
  rw [State.xspiPush, if_pos (State.fifoRoom_of_le h)]
  exact ⟨rfl, rfl⟩

theorem xspiData_overflows (v : Word) (h : 256 < s.xspi.fifo.length + 4) :
    Completes (.xspiData m true v) s fun t => t.xspi = s.xspi ∧ t.bit Reg.XSPI_STAT 3 = true := by
  refine ⟨_, execXspiData_push hm ha hoff v, ?_⟩
  rw [State.xspiPush, if_neg (State.not_fifoRoom h)]
  exact ⟨(State.told_raise0 stXSPI 3 s).xspi, State.stat_xspiRaise s (by decide)⟩

theorem xspiData_empty (v : Word) (h : s.xspi.fifo = []) :
    Completes (.xspiData m false v) s fun t => t.answer = ⟨0, 0⟩ ∧ t.xspi = s.xspi ∧ t.bit Reg.XSPI_STAT 3 = true := by
  refine ⟨_, execXspiData_pop hm ha hoff v, ?_⟩
  rw [State.xspiPop, if_pos (List.isEmpty_iff.mpr h)]
  exact ⟨rfl, (State.told_raise0 stXSPI 3 s).xspi, State.stat_xspiRaise s (by decide)⟩

theorem xspiData_taken (v : Word) (h : s.xspi.fifo ≠ []) :
    Completes (.xspiData m false v) s fun t => t.answer = ⟨0, leWord (s.xspi.fifo.take 4)⟩ ∧ t.xspi = { s.xspi with fifo := s.xspi.fifo.drop 4 } ∧ t.regs = s.regs := by
  refine ⟨_, execXspiData_pop hm ha hoff v, ?_⟩
  rw [State.xspiPop, if_neg (fun k => h (List.isEmpty_iff.mp k))]
  exact ⟨rfl, rfl, rfl⟩

theorem xspiFlush_empties : Completes (.xspiFlush m) s fun t => t.xspi = { s.xspi with fifo := [] } ∧ t.bit Reg.XSPI_CTRL 0 = s.bit Reg.XSPI_CTRL 0 ∧
    SameMemory s t := by
  have hlt : s.f Reg.XSPI_CTRL 0 0 < 2 := fld_lt (s.reg Reg.XSPI_CTRL) 0 0
  have h1 : bitAt (wd (2 + s.f Reg.XSPI_CTRL 0 0)) 1 = true := by
    interval_cases s.f Reg.XSPI_CTRL 0 0 <;> decide
  have e : exec (.xspiFlush m) s = .next ((s.xspiCtrl (wd (2 + s.f Reg.XSPI_CTRL 0 0))).reply 0 0) := by
    show Host.Outcome.next (s.askWrite m Reg.XSPI_CTRL (wd (2 + s.f Reg.XSPI_CTRL 0 0))) = _
    rw [State.askWrite_word (.inl hm) (a := Reg.XSPI_CTRL) hoff (by decide) (congrArg (!·) ha)]
    rfl
  refine ⟨_, e, ?_⟩
  rw [State.xspiCtrl, if_pos h1]
  refine ⟨rfl, ?_, fun _ => rfl⟩
  show bitAt ((s.setReg Reg.XSPI_CTRL _).reg Reg.XSPI_CTRL) 0 = _
  rw [State.reg_setReg_same]
  have hb : s.bit Reg.XSPI_CTRL 0 = decide (s.f Reg.XSPI_CTRL 0 0 = 1) := by
    simp only [State.bit, State.f, fld, bitAt, BitVec.getLsbD, Nat.testBit_zero, Nat.shiftRight_zero] <;> rfl
  rw [hb]
  interval_cases s.f Reg.XSPI_CTRL 0 0 <;> decide

end

/-! The end of a transaction. -/

/-- The bytes that a command which is not a poll has read at its end. -/
def xspiGot (v : Word) (data : List Byte) : List Byte :=
  (data ++ List.replicate (if fld v 17 16 = 1 then fld v 26 18 else 0) 0).take (if fld v 17 16 = 1 then fld v 26 18 else 0)

theorem State.stat_xspiIdle (s : State) : s.xspiIdle.bit Reg.XSPI_STAT 8 = false := State.bit_setBit_same _ _ _ (by decide)

/-- The transaction on the bus ends. -/
theorem State.xspi_ended {s t u : State} (hmem : t.mem = s.mem) (hu : u = t.xspiIdle.xspiSetDone) :
    u.xspi.run = none ∧ u.xspi.fifo = t.xspi.fifo ∧ u.bit Reg.XSPI_STAT 8 = false ∧ u.bit Reg.XSPI_STAT 0 = true ∧ SameMemory s u := by
  subst hu
  have ht := State.told_arrive 188 (t.xspiIdle.setBit Reg.XSPI_STAT 0 true)
  have hx : t.xspiIdle.xspiSetDone.xspi = t.xspiIdle.xspi := ht.xspi
  refine ⟨by rw [hx]; rfl, by rw [hx]; rfl, ?_, ?_, State.byte_congr (ht.mem.trans hmem)⟩
  · exact (State.bit_arrive (by decide) (by decide) _ _).trans ((State.bit_setBit_ne _ _ _ (by decide)).trans t.stat_xspiIdle)
  · exact (State.bit_arrive (by decide) (by decide) _ _).trans (State.bit_setBit_same _ _ _ (by decide))

theorem execXspiDone_ignored {s : State} (data : List Byte) (h : s.xspi.run = none ∨ s.bit Reg.XSPI_CTRL 0 = false ∨ s.xspi.polling = true) :
    exec (.xspiDone data) s = .next s := by
  show execXspiDone data s = _
  unfold execXspiDone
  split
  · rfl
  · next _ a hr =>
      rw [hr] at h
      exact if_pos (h.resolve_left (by simp))

section
variable {s : State} {v a : Word} (hr : s.xspi.run = some (v, a))
include hr

section
variable (hc : s.bit Reg.XSPI_CTRL 0 = true) (hp : s.xspi.polling = false)
include hc hp

theorem xspiDone_read (data : List Byte) (hb : bitAt v 27 = false) : Completes (.xspiDone data) s fun t => t.xspi.run = none ∧ t.bit Reg.XSPI_STAT 8 = false ∧
    t.bit Reg.XSPI_STAT 0 = true ∧ (fld v 17 16 = 1 → ∀ n, n = fld v 26 18 → t.xspi.fifo = s.xspi.fifo ++ (data ++ List.replicate n 0).take n) ∧
      (fld v 17 16 ≠ 1 → t.xspi.fifo = s.xspi.fifo) ∧ SameMemory s t := by
  refine ⟨_, show execXspiDone data s = _ by
    simp only [execXspiDone, hr, hc, hp, hb, Bool.true_eq_false, Bool.false_eq_true, or_self, if_false] <;> rfl, ?_⟩
  obtain ⟨hrun, hfifo, h8, h0, hmem⟩ := State.xspi_ended (s := s) (t := { s with xspi := { s.xspi with fifo := s.xspi.fifo ++ xspiGot v data } }) rfl rfl
  refine ⟨hrun, h8, h0, fun h1 n hn => ?_, fun h1 => ?_, hmem⟩
  · exact hfifo.trans (congrArg (s.xspi.fifo ++ ·) (by rw [xspiGot, if_pos h1, hn]))
  · exact hfifo.trans ((congrArg (s.xspi.fifo ++ ·) (by rw [xspiGot, if_neg h1, List.take_zero])).trans (List.append_nil _))

theorem xspiDone_pollMatched {data : List Byte} {b : Byte} (hb : bitAt v 27 = true) (hd : b = data.headD 0)
    (hk : b.toNat &&& s.f Reg.XSPI_POLL 7 0 = s.f Reg.XSPI_POLL 15 8) : Completes (.xspiDone data) s fun t => t.xspi.run = none ∧ t.bit Reg.XSPI_STAT 0 = true ∧
      t.bit Reg.XSPI_STAT 8 = false ∧ (s.xspi.fifo.length < 256 → t.xspi.fifo = s.xspi.fifo ++ [b]) ∧
      (256 ≤ s.xspi.fifo.length → t.xspi.fifo = s.xspi.fifo) ∧ SameMemory s t := by
  have e : exec (.xspiDone data) s = .next (if s.fifoRoom 1 then { s with xspi := { s.xspi with fifo := s.xspi.fifo ++ [b] } } else s).xspiIdle.xspiSetDone := by
    show execXspiDone data s = _
    subst hd
    cases data <;> simp only [List.headD] at hk <;>
      simp only [execXspiDone, hr, hc, hp, hb, hk, Bool.true_eq_false, Bool.false_eq_true, or_self, if_false, if_true] <;> rfl
  refine ⟨_, e, ?_⟩
  by_cases hl : s.xspi.fifo.length < 256
  · rw [if_pos (State.fifoRoom_of_le hl)]
    obtain ⟨hrun, hfifo, h8, h0, hmem⟩ := State.xspi_ended (s := s) (t := { s with xspi := { s.xspi with fifo := s.xspi.fifo ++ [b] } }) rfl rfl
    exact ⟨hrun, h0, h8, fun _ => hfifo, fun k => absurd hl (by omega), hmem⟩
  · rw [if_neg (State.not_fifoRoom (by omega))]
    obtain ⟨hrun, hfifo, h8, h0, hmem⟩ := State.xspi_ended (s := s) (t := s) rfl rfl
    exact ⟨hrun, h0, h8, fun k => absurd k hl, fun _ => hfifo, hmem⟩

theorem execXspiDone_pollMissed {data : List Byte} {b : Byte} (hb : bitAt v 27 = true) (hd : b = data.headD 0)
    (hk : b.toNat &&& s.f Reg.XSPI_POLL 7 0 ≠ s.f Reg.XSPI_POLL 15 8) :
    exec (.xspiDone data) s = .next { s with xspi := { s.xspi with polling := true } } := by
  show execXspiDone data s = _
  subst hd
  cases data <;> simp only [List.headD] at hk <;>
    simp only [execXspiDone, hr, hc, hp, hb, hk, Bool.true_eq_false, Bool.false_eq_true, or_self, if_false, if_true]

end

theorem xspiPollRepeat_sent (hp : s.xspi.polling = true) : Completes .xspiPollRepeat s fun t => t.xspi = { s.xspi with polling := false } ∧
    t.out = s.out ++ [.xspi v a []] ∧ t.regs = s.regs :=
  ⟨_, show execXspiPollRepeat s = .next (({ s with xspi := { s.xspi with polling := false } } : State).emit (.xspi v a [])) by
    simp only [execXspiPollRepeat, hr, hp], rfl, rfl, rfl⟩

theorem xspiPollTimeout_ends (hb : bitAt v 27 = true) (ht : s.f Reg.XSPI_POLL 31 16 ≠ 0) : Completes .xspiPollTimeout s fun t => t.xspi.run = none ∧
    t.bit Reg.XSPI_STAT 1 = true ∧ t.bit Reg.XSPI_STAT 8 = false ∧ t.xspi.fifo = s.xspi.fifo ∧ SameMemory s t := by
  have e : exec .xspiPollTimeout s = .next (s.xspiIdle.raise0 stXSPI 1) := by
    show execXspiPollTimeout s = _
    simp only [execXspiPollTimeout, hr]
    exact if_pos ⟨hb, ht⟩
  have hr := State.told_raise0 stXSPI 1 s.xspiIdle
  exact ⟨_, e, by rw [hr.xspi]; rfl, State.stat_xspiRaise _ (by decide), (State.stat_xspiRaise_keeps (by decide)).trans s.stat_xspiIdle, by rw [hr.xspi]; rfl,
    State.byte_congr (hr.mem.trans rfl)⟩

theorem execXspiPollTimeout_command (hb : bitAt v 27 = false) : exec .xspiPollTimeout s = .next s := by
  show execXspiPollTimeout s = _
  simp only [execXspiPollTimeout, hr]
  exact if_neg (by simp [hb])

end

theorem execXspiPollRepeat_ignored {s : State} (h : s.xspi.run = none ∨ s.xspi.polling = false) : exec .xspiPollRepeat s = .next s := by
  show execXspiPollRepeat s = _
  unfold execXspiPollRepeat
  split
  · next hr hp => rw [hr, hp] at h; simp at h
  · rfl

theorem execXspiPollTimeout_unlimited {s : State} (h : s.xspi.run = none ∨ s.f Reg.XSPI_POLL 31 16 = 0) : exec .xspiPollTimeout s = .next s := by
  show execXspiPollTimeout s = _
  unfold execXspiPollTimeout
  split
  · next hr =>
      rw [hr] at h
      exact if_neg fun k => k.2 (h.resolve_left (by simp))
  · rfl

/-- Settles O52, command by command: the queue and the responses of the cabinet port, the engine and the FIFO of the flash port. -/
theorem cabinetAndFlash : Obligations.CabinetAndFlash := by
  unfold Obligations.CabinetAndFlash
  intro m s
  refine ⟨fun hm hoff v b c hc => ?_, fun hm ha hoff v b c hc => ?_, fun hm hoff v => exec_ci3c_queues v hm hoff, fun r n data h => execCi3cCommandDone_none r n data h,
    fun r n data v rest hc hq => ⟨ci3cCommandDone_rejected hc hq r n data, fun h1 hrej => ?_, fun h2 hrej => ?_, ci3cCommandDone_read hc hq r n data,
      ci3cCommandDone_write hc hq r n data⟩,
    fun d p => ⟨execCi3cIbi_ignored p, fun hc ha hp => ?_, fun b rest hb hc ha hp => ?_, fun hp hc ha => ?_⟩,
    fun free hfree hc hj => ?_, execCi3cHotjoin_ignored, fun hc hj ha hi hu => ?_, fun hm hoff => ⟨?_, fun w rest hq => ?_, fun hq => ?_⟩,
    fun hm ha hoff v w poll c hc hw => ⟨fun hrun => ?_, xspi_rejected hm ha hoff hc hw, xspi_accepted hm ha hoff hc hw⟩,
    fun hm ha hoff => ⟨fun v => ⟨xspiData_stored hm ha hoff v, xspiData_overflows hm ha hoff v, xspiData_empty hm ha hoff v, xspiData_taken hm ha hoff v⟩,
      xspiFlush_empties hm ha hoff⟩,
    fun data h => execXspiDone_ignored data h,
    fun v a data hr hc hp => ⟨xspiDone_read hr hc hp data, fun b hb hd => ⟨xspiDone_pollMatched hr hc hp hb hd, execXspiDone_pollMissed hr hc hp hb hd⟩⟩,
    execXspiPollRepeat_ignored, fun v a hr hp => xspiPollRepeat_sent hr hp, execXspiPollTimeout_unlimited, fun v a hr hb => execXspiPollTimeout_command hr hb,
    fun v a hr hb ht => xspiPollTimeout_ends hr hb ht⟩
  · obtain ⟨t, e, ht⟩ := exec_cabinet_unpowered hm hoff v b c hc
    exact ⟨t, e, ht.answer, ht.ci3c, ht.xspi, ht.byte⟩
  · obtain ⟨t, e, ht⟩ := exec_flash_protected hm ha hoff v b c hc
    exact ⟨t, e, ht.answer, ht.xspi, ht.byte⟩
  · obtain ⟨t, e, k, -⟩ := ci3cCommandDone_answered hc hq r n data hrej
    exact ⟨t, e, k h1⟩
  · obtain ⟨t, e, -, k⟩ := ci3cCommandDone_answered hc hq r n data hrej
    exact ⟨t, e, k (by omega)⟩
  · exact ci3cIbi_queued hc ha (first := 0) (by simp [hp])
  · exact ci3cIbi_queued hc ha (by simp [hp, hb])
  · exact ci3cIbi_queued hc ha (first := 0) (by simp [hp])
  · subst hfree
    exact ⟨fun n hn => ci3cHotjoin_taken hc hj hn, fun hn => ci3cHotjoin_full hc hj hn⟩
  · obtain ⟨t, e, hu', ho, hb, hmem⟩ := ci3cHotjoin_taken hc hj (State.find_ci3cFree_zero ha hi hu)
    exact ⟨t, e, by rw [hu']; exact List.mem_cons_self, ho, hb, hmem⟩
  · exact ⟨_, ci3cRxdRead_data hm hoff, rfl, rfl, rfl⟩
  · refine ⟨_, ci3cRxdRead_ibiq hm hoff, ?_⟩
    rw [State.ci3cIbiq_cons hq]
    exact ⟨rfl, rfl, rfl⟩
  · rw [ci3cRxdRead_ibiq hm hoff, State.ci3cIbiq_nil hq]
  · refine xspi_rejected hm ha hoff hc hw ?_
    simp only [State.xspiRejects, State.xspiBusy, Option.isSome_iff_ne_none.mpr hrun, Bool.or_true]

end Sys2Proof.Machine
end

section
/-! A core of the state, a word of memory, and the release of a halted core. -/

namespace Sys2Proof.Machine

@[simp] theorem State.core_setCore_same (s : State) (c : Nat) (x : CoreSt) : (s.setCore c x).core c = x := by
  unfold State.setCore State.core
  split
  · rfl
  · split <;> rfl

theorem State.core_setCore_ne (s : State) {c d : Nat} (hc : c < 3) (hd : d < 3) (h : d ≠ c) (x : CoreSt) : (s.setCore c x).core d = s.core d := by
  unfold State.setCore State.core
  split
  · grind
  · split <;> grind

theorem State.core_of_gv {s t : State} (h : t.gv = s.gv) (c : Nat) : t.core c = s.core c := by
  simp only [State.core, h]

theorem State.reg_of_regs {s t : State} (h : t.regs = s.regs) (a : Nat) : t.reg a = s.reg a := by
  simp only [State.reg, h]

@[simp] theorem State.reg_setCore (c : Nat) (x : CoreSt) (s : State) (a : Nat) : (s.setCore c x).reg a = s.reg a := State.reg_of_regs (s.regs_setCore c x) a

/-! A word of memory. -/

theorem State.byte_setWord_out (s : State) {k j : Nat} (w : Word) (h : j < k ∨ k + 4 ≤ j) : (s.setWord k w).byte j = s.byte j := by
  rw [State.setWord, State.byte_setBytes]
  split
  · rw [List.getElem?_eq_none (by simp only [length_leBytes]; omega), Option.getD_none]
  · rfl

theorem State.bytes_setBytes_same (s : State) (k : Nat) (bs : List Byte) : (s.setBytes k bs).bytes k bs.length = bs := by
  refine List.ext_getElem (by simp [State.bytes]) fun i h1 h2 => ?_
  simp only [State.bytes, List.getElem_map, List.getElem_range, State.byte_setBytes, Nat.le_add_right, if_true, Nat.add_sub_cancel_left,
    List.getElem?_eq_getElem h2, Option.getD_some]

@[simp] theorem State.word_setWord_same (s : State) (k : Nat) (w : Word) : (s.setWord k w).word k = w := by
  have h := s.bytes_setBytes_same k (leBytes 4 w.toNat)
  rw [length_leBytes] at h
  exact (congrArg leWord h).trans (leWord_leBytes w)

theorem State.bytes_congr {s t : State} (h : t.mem = s.mem) (k n : Nat) : t.bytes k n = s.bytes k n := by
  simp only [State.bytes, State.byte_congr h]

theorem State.word_congr {s t : State} (h : t.mem = s.mem) (k : Nat) : t.word k = s.word k := by
  simp only [State.word, State.le, State.bytes_congr h]

/-! The release of a core that was halted in stop mode: the station treats its beam as HOLDOVER (R472). -/

theorem State.told_enterHoldover (s : State) : Told s s.enterHoldover := by
  unfold State.enterHoldover
  split
  · exact .refl s
  · exact ((Told.setReg s _ _).trans (.setReg _ _ _)).trans (State.told_raise0 ..)

/-- The registers that entering HOLDOVER may change. -/
abbrev holdoverReg (a : Nat) : Prop := a = Reg.BEAM_LOCKSTAT ∨ a = Reg.BEAM_CTRL ∨ a = Reg.BEAM_WSTAT ∨ eventReg a

theorem State.reg_enterHoldover {a : Nat} (h : ¬ holdoverReg a) (s : State) : s.enterHoldover.reg a = s.reg a := by
  unfold holdoverReg eventReg at h
  simp only [not_or] at h
  obtain ⟨h1, h2, h3, h4⟩ := h
  unfold State.enterHoldover
  split
  · rfl
  · exact (State.reg_raise0_ne _ _ h3 (by simpa [not_or] using h4) (by decide)).trans (State.reg_setLock_ne _ h1 h2)

@[simp] theorem State.lock_enterHoldover (s : State) : s.enterHoldover.lock = 3 := by
  unfold State.enterHoldover
  split
  · assumption
  · exact (State.lock_raise0 ..).trans (State.lock_setLock _)

/-- `t` is `s` but for its outputs and what an event or HOLDOVER changes. -/
def Thawed (s t : State) : Prop := (∃ out, Told { s with out := out } t) ∧ ∀ a, ¬ holdoverReg a → t.reg a = s.reg a

theorem State.thawed_thaw (old s : State) : Thawed s (State.thaw old s) := by
  have h1 : (∃ out, State.showFrozen old s = { s with out := out }) := by
    unfold State.showFrozen
    split
    · exact ⟨s.out, rfl⟩
    · exact ⟨_, rfl⟩
  obtain ⟨out, h1⟩ := h1
  unfold State.thaw
  rw [h1]
  dsimp only
  split
  · exact ⟨⟨out, State.told_enterHoldover _⟩, fun a ha => State.reg_enterHoldover ha _⟩
  · exact ⟨⟨out, .refl _⟩, fun _ _ => rfl⟩

section
variable {s t : State} (h : Thawed s t)
include h

theorem Thawed.mem : t.mem = s.mem := by obtain ⟨⟨_, _, _, _, _, rfl⟩, -⟩ := h; rfl
theorem Thawed.gv : t.gv = s.gv := by obtain ⟨⟨_, _, _, _, _, rfl⟩, -⟩ := h; rfl
theorem Thawed.beam : t.beam = s.beam := by obtain ⟨⟨_, _, _, _, _, rfl⟩, -⟩ := h; rfl
theorem Thawed.f {a : Nat} (ha : ¬ holdoverReg a) (hi lo : Nat) : t.f a hi lo = s.f a hi lo := State.f_of_reg (h.2 a ha) hi lo
theorem Thawed.bit {a : Nat} (ha : ¬ holdoverReg a) (i : Nat) : t.bit a i = s.bit a i := State.bit_of_reg (h.2 a ha) i

end

theorem State.lock_thaw {old s : State} (hf : old.frozen = true) (hr : s.running = true) : (State.thaw old s).lock = 3 := by
  have h : (State.showFrozen old s).running = true := by
    unfold State.showFrozen
    split <;> exact hr
  unfold State.thaw
  dsimp only
  rw [hf, h]
  exact State.lock_enterHoldover _

theorem State.frozen_of_halt {s : State} {c : Nat} (h : (s.core c).run = .halt) : s.frozen = true := by
  unfold State.core at h
  simp only [State.frozen, Bool.or_eq_true, decide_eq_true_eq]
  grind

theorem gvWdg_eq_false {c a : Nat} : gvWdg c a = false ↔ a < 0x40100400 + 0x20 * c ∨ 0x40100420 + 0x20 * c ≤ a := by
  unfold gvWdg wdgReg
  rw [Bool.and_eq_false_iff, decide_eq_false_iff_not, decide_eq_false_iff_not]
  omega

/-- The watchdog of a core that is released: only its own registers may change. -/
theorem State.wdgRelease_sets (w : Nat) (s : State) :
    ∃ regs, s.wdgRelease w = { s with regs := regs } ∧ ∀ a, (w < 2 → gvWdg w a = false) → (s.wdgRelease w).reg a = s.reg a := by
  have hne : ∀ {a o : Nat}, o < 0x20 → gvWdg w a = false → a ≠ wdgReg w o := by
    intro a o ho ha e
    subst e
    rw [gvWdg_eq_false, wdgReg] at ha
    omega
  unfold State.wdgRelease
  split
  · next h => exact ⟨_, rfl, fun a ha => (State.reg_setBit_ne _ (hne (by decide) (ha h.1)) _ _).trans (State.reg_setReg_ne _ (hne (by decide) (ha h.1)) _)⟩
  · split
    · next h => exact ⟨_, rfl, fun a ha => State.reg_setBit_ne _ (hne (by decide) (ha h)) _ _⟩
    · exact ⟨_, rfl, fun _ _ => rfl⟩

end Sys2Proof.Machine
end

section
/-! The statement on halts, release and access to a halted core. -/

namespace Sys2Proof.Machine

/-! Where the accesses lead: each register of core `c` has its own meaning. -/

theorem State.dbgWrite_regdata (s : State) (c : Fin 3) (v : Word) : s.dbgWrite (Reg.DBG_Cc_REGDATA c.val) v = s.regDataWrite c.val v := by
  have h1 : (Reg.DBG_Cc_REGDATA c - 0x40180200) / 0x80 = c := by simp only [Reg.DBG_Cc_REGDATA]; omega
  have h2 : (Reg.DBG_Cc_REGDATA c - 0x40180200) % 0x80 = 0x18 := by simp only [Reg.DBG_Cc_REGDATA]; omega
  have h3 : ¬ Reg.DBG_Cc_REGDATA c = Reg.DBG_AUTHCTL := by simp only [Reg.DBG_Cc_REGDATA, Reg.DBG_AUTHCTL]; omega
  have h4 : ¬ Reg.DBG_Cc_REGDATA c < 0x40180200 := by simp only [Reg.DBG_Cc_REGDATA]; omega
  simp only [State.dbgWrite, h1, h2, h3, h4, if_false]

theorem State.dbgWrite_ldata (s : State) (c : Fin 3) (v : Word) : s.dbgWrite (Reg.DBG_Cc_LDATA c.val) v = s.lDataWrite c.val v := by
  have h1 : (Reg.DBG_Cc_LDATA c - 0x40180200) / 0x80 = c := by simp only [Reg.DBG_Cc_LDATA]; omega
  have h2 : (Reg.DBG_Cc_LDATA c - 0x40180200) % 0x80 = 0x20 := by simp only [Reg.DBG_Cc_LDATA]; omega
  have h3 : ¬ Reg.DBG_Cc_LDATA c = Reg.DBG_AUTHCTL := by simp only [Reg.DBG_Cc_LDATA, Reg.DBG_AUTHCTL]; omega
  have h4 : ¬ Reg.DBG_Cc_LDATA c < 0x40180200 := by simp only [Reg.DBG_Cc_LDATA]; omega
  simp only [State.dbgWrite, h1, h2, h3, h4, if_false]

theorem State.regWrite_regdata (m : Acc) (s : State) {c : Nat} (hc : c < 3) (v : Word) : s.regWrite m (Reg.DBG_Cc_REGDATA c) v = s.regDataWrite c v := by
  refine Eq.trans ?_ (s.dbgWrite_regdata ⟨c, hc⟩ v)
  show s.regWrite m (Reg.DBG_Cc_REGDATA c) v = s.dbgWrite (Reg.DBG_Cc_REGDATA c) v
  obtain rfl | rfl | rfl : c = 0 ∨ c = 1 ∨ c = 2 := by omega
  · rfl
  · rfl
  · rfl

theorem State.regWrite_ldata (m : Acc) (s : State) {c : Nat} (hc : c < 3) (v : Word) : s.regWrite m (Reg.DBG_Cc_LDATA c) v = s.lDataWrite c v := by
  refine Eq.trans ?_ (s.dbgWrite_ldata ⟨c, hc⟩ v)
  show s.regWrite m (Reg.DBG_Cc_LDATA c) v = s.dbgWrite (Reg.DBG_Cc_LDATA c) v
  obtain rfl | rfl | rfl : c = 0 ∨ c = 1 ∨ c = 2 := by omega
  · rfl
  · rfl
  · rfl

theorem State.valueOf_regdata (s : State) (c : Fin 3) : s.valueOf (Reg.DBG_Cc_REGDATA c.val) = (s.regDataRead c.val).1 := by
  match c with
  | 0 => exact (rfl : s.valueOf (Reg.DBG_Cc_REGDATA 0) = (s.regDataRead 0).1)
  | 1 => exact (rfl : s.valueOf (Reg.DBG_Cc_REGDATA 1) = (s.regDataRead 1).1)
  | 2 => exact (rfl : s.valueOf (Reg.DBG_Cc_REGDATA 2) = (s.regDataRead 2).1)

theorem State.valueOf_ldata (s : State) (c : Fin 3) : s.valueOf (Reg.DBG_Cc_LDATA c.val) = (s.lDataRead c.val).1 := by
  match c with
  | 0 => exact (rfl : s.valueOf (Reg.DBG_Cc_LDATA 0) = (s.lDataRead 0).1)
  | 1 => exact (rfl : s.valueOf (Reg.DBG_Cc_LDATA 1) = (s.lDataRead 1).1)
  | 2 => exact (rfl : s.valueOf (Reg.DBG_Cc_LDATA 2) = (s.lDataRead 2).1)

theorem State.afterRead_ldata (s : State) (c : Fin 3) : s.afterRead (Reg.DBG_Cc_LDATA c.val) = (s.lDataRead c.val).2 := by
  match c with
  | 0 => exact (rfl : s.afterRead (Reg.DBG_Cc_LDATA 0) = (s.lDataRead 0).2)
  | 1 => exact (rfl : s.afterRead (Reg.DBG_Cc_LDATA 1) = (s.lDataRead 1).2)
  | 2 => exact (rfl : s.afterRead (Reg.DBG_Cc_LDATA 2) = (s.lDataRead 2).2)

section
variable {m : Acc} {s : State} (hm : m.debug = false) (hoff : s.targetOff Reg.DBG_AUTHCTL = false)
include hm hoff

theorem State.askWrite_dbgCtrl (c : Fin 3) (v : Word) : s.askWrite m (Reg.DBG_Cc_CTRL c.val) v = (s.dbgCtrl c.val v).reply 0 0 := by
  match c with
  | 0 | 1 | 2 =>
    refine (State.askWrite_word (.inl hm) ?_ ?_ ?_).trans ?_
    · exact hoff
    · decide
    · rfl
    · rfl

theorem State.askWrite_dbgVt (c : Fin 3) (v : Word) : s.askWrite m (Reg.DBG_Cc_VT c.val) v = (s.vtWrite c.val v).reply 0 0 := by
  match c with
  | 0 | 1 | 2 =>
    refine (State.askWrite_word (.inl hm) ?_ ?_ ?_).trans ?_
    · exact hoff
    · decide
    · rfl
    · rfl

theorem State.askWrite_dbgDrx (c : Fin 3) (v : Word) : s.askWrite m (Reg.DBG_Cc_DRX c.val) v = (s.drxSend c.val v).reply 0 0 := by
  match c with
  | 0 | 1 | 2 =>
    refine (State.askWrite_word (.inl hm) ?_ ?_ ?_).trans ?_
    · exact hoff
    · decide
    · rfl
    · rfl

theorem State.askWrite_dbgRegdata (c : Fin 3) (v : Word) : s.askWrite m (Reg.DBG_Cc_REGDATA c.val) v = (s.regDataWrite c.val v).reply 0 0 := by
  rw [← s.regWrite_regdata m c.isLt]
  match c with
  | 0 | 1 | 2 =>
    refine (State.askWrite_word (.inl hm) ?_ ?_ ?_).trans ?_
    · exact hoff
    · decide
    · rfl
    · rfl

theorem State.askWrite_dbgLdata (c : Fin 3) (v : Word) : s.askWrite m (Reg.DBG_Cc_LDATA c.val) v = (s.lDataWrite c.val v).reply 0 0 := by
  rw [← s.regWrite_ldata m c.isLt]
  match c with
  | 0 | 1 | 2 =>
    refine (State.askWrite_word (.inl hm) ?_ ?_ ?_).trans ?_
    · exact hoff
    · decide
    · rfl
    · rfl

theorem State.askRead_dbgRegdata (c : Fin 3) : s.askRead m (Reg.DBG_Cc_REGDATA c.val) = (s.regDataRead c.val).2.reply 0 (s.regDataRead c.val).1 := by
  match c with
  | 0 | 1 | 2 =>
    refine State.askRead_of_regRead (.inl hm) ?_ ?_ ?_ ?_
    · exact hoff
    · decide
    · rfl
    · rw [State.regRead, hm, s.valueOf_regdata]
      rfl

theorem State.askRead_dbgLdata (c : Fin 3) : s.askRead m (Reg.DBG_Cc_LDATA c.val) = (s.lDataRead c.val).2.reply 0 (s.lDataRead c.val).1 := by
  rw [← s.valueOf_ldata, ← s.afterRead_ldata]
  match c with
  | 0 | 1 | 2 =>
    refine State.askRead_word hm ?_ ?_ ?_ ?_
    · exact hoff
    · decide
    · rfl
    · decide

end

theorem exec_debug_unpowered {m : Acc} {s : State} (c : Fin 3) (hm : m.debug = false) (hoff : s.targetOff Reg.DBG_AUTHCTL = true) (wr : Bool) (v : Word) :
    ∀ i ∈ [Instr.dbgHalt m c, .dbgRun m c, .dbgRegdata m c wr v, .dbgLdata m c wr v, .dbgDrxWrite m c v, .dbgTxfullAck m c],
      ∃ t, exec i s = .next t ∧ Refused 6 s t := by
  have hall : ∀ c' : Fin 3, s.targetOff (Reg.DBG_Cc_CTRL c'.val) = true ∧ s.targetOff (Reg.DBG_Cc_REGDATA c'.val) = true ∧
      s.targetOff (Reg.DBG_Cc_LDATA c'.val) = true ∧ s.targetOff (Reg.DBG_Cc_DRX c'.val) = true ∧ s.targetOff (Reg.DBG_Cc_VT c'.val) = true := by
    intro c'
    match c' with
    | 0 => exact ⟨hoff, hoff, hoff, hoff, hoff⟩
    | 1 => exact ⟨hoff, hoff, hoff, hoff, hoff⟩
    | 2 => exact ⟨hoff, hoff, hoff, hoff, hoff⟩
  obtain ⟨hctrl, hreg, hld, hdrx, hvt⟩ := hall c
  simp only [List.mem_cons, List.not_mem_nil, or_false, forall_eq_or_imp, forall_eq]
  refine ⟨⟨_, rfl, State.askWrite_unpowered _ hm hctrl⟩, ⟨_, rfl, State.askWrite_unpowered _ hm hctrl⟩, ?_, ?_, ⟨_, rfl, State.askWrite_unpowered _ hm hdrx⟩,
    ⟨_, rfl, State.askWrite_unpowered _ hm hvt⟩⟩
  · cases wr
    · exact ⟨_, rfl, State.askRead_unpowered hm hreg⟩
    · exact ⟨_, rfl, State.askWrite_unpowered _ hm hreg⟩
  · cases wr
    · exact ⟨_, rfl, State.askRead_unpowered hm hld⟩
    · exact ⟨_, rfl, State.askWrite_unpowered _ hm hld⟩

/-! The frozen blocks (R472). -/

theorem exec_frozen {s : State} (hs : s.frozen = true) (h : Hop) (lane sf4 n4 p4 : Fin 4) (sk : List (Fin 4)) (b66s : List (List (BitVec 66))) (b64 : BitVec 64) (b66 : List (BitVec 66))
    (p2 : Fin 2) (ok b1 b2 : Bool) (f : Frame) (g : Fin 10) (pos : BPos) (x1 sf x2 x3 : Nat)
    (rate t1 t2 t3 : Int) (n32 p32 c : Fin 32) (r16 : Fin 16) (peer : PairView) (an : Announce)
    (e : Fin 8) (u : Upset) (slot : Fin 12) (o48 : Fin 48) (i128 : Fin 128) (cv : Fin 20) (vc : Fin 64) :
    ∀ i ∈ [Instr.censusSend, .laneBlockLock h lane, .trainingTimeout h, .trainingVersionAlternate h, .alignDone h sk, .keyRetry h, .lcbSend h b66s,
      .replayTimeout h, .lcb h b64 b66, .lcbMiss h, .pirouetteConfirm p2, .turnaround p2, .ringstate h ok f, .laneLost h lane,
      .laneCrcWindowEnd p2, .census h ok f, .sceneWrite h ok f, .sceneFill h ok f, .planeSegment h ok f, .commitGroupApply g, .beamStop,
      .frameStart sf4, .beamStep pos, .fsyncEdge b1 x1 rate, .beamMatch n4 sf, .triggerFire n32 sf x1, .blkJobStart, .blkBurst, .blkDeadEnd,
      .blkRowDone, .blkErrorStop, .lineConfirm, .signatureDecided r16, .substitutionDone r16, .structureSetSwap peer, .updateChunk h ok f,
      .sourceLost, .holdoverEntry, .fsyncLoss, .ptpAnnounce x2 an, .ptpSync x2 x3 t1 t2 x1 rate, .ptpDelayReq t3, .ptpDelayResp x2 x3 t1, .ptpLoss,
      .fsyncOutPulse sf, .fsyncOutEnd, .votecut sf, .beamMarkSend sf x1, .delayProbeSend h t1, .probe h ok f t2 t3, .voteSend pos, .voteDecision,
      .mail h ok f, .engineFrameEntry e, .engineOverrun e, .beamWord e u, .beamWordV1 e u, .ldReturn e, .queueStallEnd e, .beamStoreScrub u,
      .unitSend p32, .segmentFetch r16, .segmentLanded r16, .pnlCommandSend p32, .gridPoint, .scanRowStep e, .swapCommand, .storeExchange b1,
      .scanoutPrefetch p32 x1 x2, .planeSlot p32, .blankStart, .blankEnd, .rasterWrite, .lineStart, .lineComposed, .lateFenceDeadline slot,
      .laneCheckError lane, .laneErrorWindowEnd, .descriptorFetch c, .descriptorComplete c, .reelBeat p2 u, .reelBeatResponse c,
      .unitDelivered p32, .debugRead h ok f, .debugWrite h ok f, .debugChal h ok f, .debugResp h ok f, .debugVerify h ok f, .zcTimeout o48 i128,
      .objectUpdate, .soundBlock, .soundSamples h ok f, .asrcLock cv, .asrcUnlock cv, .tdmFsEdge p4 x1, .tdmLost p4, .frameForward h ok f,
      .ethernetFrame p2 b2 ok b1 x1 x2 x3 f, .voiceFetch vc u], exec i s = .next s := by
  simp only [List.mem_cons, List.not_mem_nil, or_false, forall_eq_or_imp, forall_eq]
  repeat' apply And.intro
  all_goals exact if_pos (by simp only [hs, Bool.true_or])

/-! DBG_Cc_CTRL (R470, R475). -/

/-- DBG_Cc_CTRL written with the bits it has. -/
def State.ctrlKept (c : Nat) (s : State) : State :=
  ((s.setBit (Reg.DBG_Cc_CTRL c) 2 (s.bit (Reg.DBG_Cc_CTRL c) 2)).setBit (Reg.DBG_Cc_CTRL c) 3 (s.bit (Reg.DBG_Cc_CTRL c) 3)).setBit (Reg.DBG_Cc_CTRL c) 4
    (s.bit (Reg.DBG_Cc_CTRL c) 4)

theorem State.reg_ctrlKept {c a : Nat} (h : a ≠ Reg.DBG_Cc_CTRL c) (s : State) : (s.ctrlKept c).reg a = s.reg a :=
  ((State.reg_setBit_ne _ h _ _).trans (State.reg_setBit_ne _ h _ _)).trans (State.reg_setBit_ne _ h _ _)

theorem State.bit_ctrlKept (c : Nat) (s : State) :
    (s.ctrlKept c).bit (Reg.DBG_Cc_CTRL c) 3 = s.bit (Reg.DBG_Cc_CTRL c) 3 ∧ (s.ctrlKept c).bit (Reg.DBG_Cc_CTRL c) 4 = s.bit (Reg.DBG_Cc_CTRL c) 4 :=
  ⟨(State.bit_setBit_ne _ _ _ (by decide)).trans (State.bit_setBit_same _ _ _ (by decide)), State.bit_setBit_same _ _ _ (by decide)⟩

/-- The word that HALT (1) or RUN (2) writes. -/
theorem bitAt_ctrlWord (w : Word) (k : Word) {i : Nat} (hk : bitAt k i = false) (hi : bitAt (0x1C : Word) i = true) : bitAt ((w &&& 0x1C) ||| k) i = bitAt w i := by
  unfold bitAt at *
  rw [BitVec.getLsbD_or, BitVec.getLsbD_and, hk, hi, Bool.and_true, Bool.or_false]

theorem State.dbgCtrl_kept (c : Nat) (s : State) (k : Word) (hk : ∀ i, 2 ≤ i → i ≤ 4 → bitAt k i = false) :
    s.dbgCtrl c ((s.reg (Reg.DBG_Cc_CTRL c) &&& 0x1C) ||| k) =
      if bitAt ((s.reg (Reg.DBG_Cc_CTRL c) &&& 0x1C) ||| k) 0 then (s.ctrlKept c).haltRequest c
      else if bitAt ((s.reg (Reg.DBG_Cc_CTRL c) &&& 0x1C) ||| k) 1 then (s.ctrlKept c).haltRelease c else s.ctrlKept c := by
  have h2 := bitAt_ctrlWord (s.reg (Reg.DBG_Cc_CTRL c)) k (hk 2 (by decide) (by decide)) (by decide)
  have h3 := bitAt_ctrlWord (s.reg (Reg.DBG_Cc_CTRL c)) k (hk 3 (by decide) (by decide)) (by decide)
  have h4 := bitAt_ctrlWord (s.reg (Reg.DBG_Cc_CTRL c)) k (hk 4 (by decide) (by decide)) (by decide)
  unfold State.dbgCtrl
  dsimp only
  have hno : ¬ (bitAt (s.reg (Reg.DBG_Cc_CTRL c)) 2 && !s.bit (Reg.DBG_Cc_CTRL c) 2 && !s.stopAllowed) = true := by simp [State.bit]
  rw [h2, h3, h4, if_neg hno]
  rfl

/-- Bits 0 and 1 of the word written. -/
theorem bitAt_ctrlWord_low (w k : Word) {i : Nat} (hi : bitAt (0x1C : Word) i = false) : bitAt ((w &&& 0x1C) ||| k) i = bitAt k i := by
  unfold bitAt at *
  rw [BitVec.getLsbD_or, BitVec.getLsbD_and, hi, Bool.and_false, Bool.false_or]

section
variable {m : Acc} {s : State} (hm : m.debug = false) (hoff : s.targetOff Reg.DBG_AUTHCTL = false) (c : Fin 3)
include hm hoff

theorem execDbgHalt_eq : exec (.dbgHalt m c) s = .next (((s.ctrlKept c.val).haltRequest c.val).reply 0 0) := by
  show Host.Outcome.next (s.askWrite m (Reg.DBG_Cc_CTRL c.val) ((s.reg (Reg.DBG_Cc_CTRL c.val) &&& 0x1C) ||| 1)) = _
  rw [State.askWrite_dbgCtrl hm hoff, State.dbgCtrl_kept _ _ _ (by intro i h1 h2; interval_cases i <;> decide), bitAt_ctrlWord_low _ _ (by decide),
    if_pos (by decide)]

theorem execDbgRun_eq : exec (.dbgRun m c) s = .next (((s.ctrlKept c.val).haltRelease c.val).reply 0 0) := by
  show Host.Outcome.next (s.askWrite m (Reg.DBG_Cc_CTRL c.val) ((s.reg (Reg.DBG_Cc_CTRL c.val) &&& 0x1C) ||| 2)) = _
  rw [State.askWrite_dbgCtrl hm hoff, State.dbgCtrl_kept _ _ _ (by intro i h1 h2; interval_cases i <;> decide), bitAt_ctrlWord_low _ _ (by decide),
    bitAt_ctrlWord_low _ _ (by decide), if_neg (by decide), if_pos (by decide)]

end

/-! HALT (R470): a request pends at a core that runs. -/

@[simp] theorem State.core_reply (code : Nat) (w : Word) (s : State) (d : Nat) : (s.reply code w).core d = s.core d := rfl

@[simp] theorem State.core_ctrlKept (c d : Nat) (s : State) : (s.ctrlKept c).core d = s.core d := rfl

theorem CoreSt.not_halted {x : CoreSt} (hr : x.run = .run ∨ x.run = .wait) (hmon : x.monitor = false) :
    ¬ (x.halted = true ∨ x.run = .held ∨ x.run = .stopped) := by
  rcases hr with h | h <;> simp [CoreSt.halted, h, hmon]

theorem State.haltRequest_ignored {c : Nat} {s : State} (h : (s.core c).halted = true ∨ (s.core c).run = .held ∨ (s.core c).run = .stopped) :
    s.haltRequest c = s := if_pos h

theorem State.haltRequest_pends {c : Nat} {s : State} (hr : (s.core c).run = .run ∨ (s.core c).run = .wait) (hmon : (s.core c).monitor = false) :
    ∃ due, s.haltRequest c = (s.setCore c { s.core c with stopDue := due }).setF (Reg.DBG_Cc_STAT c) 1 0 1 ∧
      ((s.core c).stopDue = none → due = some (1, 0)) ∧ ((s.core c).stopDue ≠ none → due = (s.core c).stopDue) := by
  refine ⟨_, if_neg (CoreSt.not_halted hr hmon), fun h => ?_, fun h => ?_⟩
  · simp only [h]
  · rcases hd : (s.core c).stopDue with - | d
    · exact absurd hd h
    · rfl

theorem State.denied_told (s : State) : Told s s.denied := State.told_raise0 ..

theorem State.stat_denied (s : State) : s.denied.bit Reg.DBG_STAT 0 = true := State.bit_raise0_same (r := stDBG) s (by decide) (by decide) (by decide)

/-- A write of LDATA changes the word, and what the block knows of errors. -/
theorem State.lDataWrite_in {s : State} {c o : Nat} (v : Word) (ho : o = (s.reg (Reg.DBG_Cc_LADDR c)).toNat / 4 * 4) (hin : o < localSize c) :
    (s.lDataWrite c v).mem = (s.setWord (localKey c o) v).mem ∧ (s.lDataWrite c v).regs = s.regs ∧ (s.lDataWrite c v).gv = s.gv := by
  have e : s.lDataWrite c v = (s.setWord (localKey c o) v).eccWritten (localKey c o) := by
    subst ho
    exact if_pos hin
  rw [e]
  generalize localKey c o = k
  have hset : ∀ (l : List Byte) (j : Nat) (u : State), (u.setBytes j l).regs = u.regs ∧ (u.setBytes j l).gv = u.gv := by
    intro l
    induction l with
    | nil => exact fun _ _ => ⟨rfl, rfl⟩
    | cons b bs ih => exact fun j u => ih (j + 1) (u.setByte j b)
  exact ⟨State.mem_eccWritten .., (hset _ k s).1, (hset _ k s).2⟩

theorem State.lDataRead_in {s t : State} {c k : Nat} (hin : (s.reg (Reg.DBG_Cc_LADDR c)).toNat / 4 * 4 < localSize c)
    (he : s.eccRead (localKey c ((s.reg (Reg.DBG_Cc_LADDR c)).toNat / 4 * 4)) (37 + c) = (k, t)) :
    s.lDataRead c = (if k = 0 then t.word (localKey c ((s.reg (Reg.DBG_Cc_LADDR c)).toNat / 4 * 4)) else 0, t) := by
  unfold State.lDataRead
  dsimp only
  rw [if_pos hin, he]
  cases k with
  | zero => rfl
  | succ k => exact congrArg (·, t) (if_neg (Nat.succ_ne_zero k)).symm

theorem State.stat_setF (s : State) (c v : Nat) (h : v < 4) : (s.setF (Reg.DBG_Cc_STAT c) 1 0 v).f (Reg.DBG_Cc_STAT c) 1 0 = v :=
  State.f_setF_same _ _ (by decide) |>.trans (Nat.mod_eq_of_lt h)

section
variable {m : Acc} {s : State} (hm : m.debug = false) (hoff : s.targetOff Reg.DBG_AUTHCTL = false) (c : Fin 3)
include hm hoff

theorem dbgHalt_ignored (h : (s.core c.val).halted = true ∨ (s.core c.val).run = .held ∨ (s.core c.val).run = .stopped) :
    Completes (.dbgHalt m c) s fun t => t.gv = s.gv ∧ SameRegsBut (fun a => a = Reg.DBG_Cc_CTRL c.val) s t ∧ SameMemory s t := by
  refine ⟨_, execDbgHalt_eq hm hoff c, ?_⟩
  rw [State.haltRequest_ignored (s := s.ctrlKept c.val) h]
  exact ⟨rfl, fun a ha => State.reg_ctrlKept ha s, fun _ => rfl⟩

theorem dbgHalt_pends (hr : (s.core c.val).run = .run ∨ (s.core c.val).run = .wait) (hmon : (s.core c.val).monitor = false) :
    Completes (.dbgHalt m c) s fun t => (∃ due, t.core c.val = { s.core c.val with stopDue := due } ∧
      ((s.core c.val).stopDue = none → due = some (1, 0)) ∧ ((s.core c.val).stopDue ≠ none → due = (s.core c.val).stopDue)) ∧
      t.f (Reg.DBG_Cc_STAT c.val) 1 0 = 1 ∧ (∀ d, d < 3 → d ≠ c.val → t.core d = s.core d) ∧ SameMemory s t := by
  obtain ⟨due, e, hnone, hsome⟩ := State.haltRequest_pends (s := s.ctrlKept c.val) hr hmon
  refine ⟨_, execDbgHalt_eq hm hoff c, ?_⟩
  rw [e]
  refine ⟨⟨due, State.core_setCore_same (s.ctrlKept c.val) c.val _, hnone, hsome⟩, State.stat_setF _ _ _ (by decide),
    fun d hd hne => State.core_setCore_ne (s.ctrlKept c.val) c.isLt hd hne _, State.byte_congr (State.mem_setCore (s := s.ctrlKept c.val) ..)⟩

/-! RUN (R470, R472). -/

theorem dbgRun_ignored (h : (s.core c.val).run ≠ .halt) :
    Completes (.dbgRun m c) s fun t => t.gv = s.gv ∧ SameRegsBut (fun a => a = Reg.DBG_Cc_CTRL c.val) s t ∧ SameMemory s t := by
  refine ⟨_, execDbgRun_eq hm hoff c, ?_⟩
  rw [show (s.ctrlKept c.val).haltRelease c.val = s.ctrlKept c.val from if_neg h]
  exact ⟨rfl, fun a ha => State.reg_ctrlKept ha s, fun _ => rfl⟩

/-- A core that is released, before its watchdog and the beam are. -/
def State.coreReleased (c : Nat) (s : State) : State :=
  (s.setCore c { s.core c with run := .run, passBreak := s.bit (Reg.DBG_Cc_CTRL c) 4, stepping := s.bit (Reg.DBG_Cc_CTRL c) 3 }).setF (Reg.DBG_Cc_STAT c) 1 0 0

theorem dbgRun_releases (h : (s.core c.val).run = .halt) :
    Completes (.dbgRun m c) s fun t => (t.core c.val).run = .run ∧ (t.core c.val).pc = (s.core c.val).pc ∧
      (t.core c.val).g = (s.core c.val).g ∧ (t.core c.val).passBreak = s.bit (Reg.DBG_Cc_CTRL c.val) 4 ∧ (t.core c.val).stepping = s.bit (Reg.DBG_Cc_CTRL c.val) 3 ∧
      t.f (Reg.DBG_Cc_STAT c.val) 1 0 = 0 ∧ (s.running = true → t.lock = 3) ∧ SameMemory s t := by
  have e : (s.ctrlKept c.val).haltRelease c.val = State.thaw (s.ctrlKept c.val) (((s.ctrlKept c.val).coreReleased c.val).wdgRelease c.val) := if_pos h
  refine ⟨_, execDbgRun_eq hm hoff c, ?_⟩
  rw [e]
  obtain ⟨regs, hw, hwr⟩ := State.wdgRelease_sets c.val ((s.ctrlKept c.val).coreReleased c.val)
  have ht := State.thawed_thaw (s.ctrlKept c.val) (((s.ctrlKept c.val).coreReleased c.val).wdgRelease c.val)
  have hgv : (State.thaw (s.ctrlKept c.val) (((s.ctrlKept c.val).coreReleased c.val).wdgRelease c.val)).gv = ((s.ctrlKept c.val).coreReleased c.val).gv := by
    rw [ht.gv, hw]
  have hcore : (State.thaw (s.ctrlKept c.val) (((s.ctrlKept c.val).coreReleased c.val).wdgRelease c.val)).core c.val =
      { s.core c.val with run := .run, passBreak := s.bit (Reg.DBG_Cc_CTRL c.val) 4, stepping := s.bit (Reg.DBG_Cc_CTRL c.val) 3 } := by
    refine (State.core_of_gv hgv _).trans ((State.core_setCore_same (s.ctrlKept c.val) c.val _).trans ?_)
    rw [(s.bit_ctrlKept c.val).1, (s.bit_ctrlKept c.val).2, State.core_ctrlKept]
  have hstat : ¬ holdoverReg (Reg.DBG_Cc_STAT c.val) := by
    match c with
    | 0 | 1 | 2 => decide
  refine ⟨?_, ?_, ?_, ?_, ?_, ?_, fun hrun => ?_, State.byte_congr ?_⟩
  · exact (congrArg CoreSt.run hcore :)
  · exact (congrArg CoreSt.pc hcore :)
  · exact (congrArg CoreSt.g hcore :)
  · exact (congrArg CoreSt.passBreak hcore :)
  · exact (congrArg CoreSt.stepping hcore :)
  · refine (ht.f hstat 1 0).trans ((State.f_of_reg (hwr _ ?_) 1 0).trans (State.stat_setF _ _ _ (by decide)))
    intro hw2
    rw [gvWdg_eq_false, Reg.DBG_Cc_STAT]
    omega
  · refine State.lock_thaw (State.frozen_of_halt (c := c.val) h) ((State.bit_of_reg ?_ 0).trans hrun)
    refine (hwr _ fun _ => gvWdg_eq_false.mpr (.inl (by simp only [Reg.BEAM_CTRL]; omega))).trans ((State.reg_setF_ne _ ?_ _ _ _).trans ((State.reg_setCore ..).trans (State.reg_ctrlKept ?_ s)))
    · simp only [Reg.DBG_Cc_STAT, Reg.BEAM_CTRL]
      omega
    · simp only [Reg.DBG_Cc_CTRL, Reg.BEAM_CTRL]
      omega
  · exact ht.mem.trans ((congrArg State.mem hw).trans (State.mem_setCore (s := s.ctrlKept c.val) ..))

/-! The registers of a halted core (R474). -/

theorem execDbgRegdata_read (v : Word) : exec (.dbgRegdata m c false v) s = .next ((s.regDataRead c.val).2.reply 0 (s.regDataRead c.val).1) :=
  congrArg Host.Outcome.next (State.askRead_dbgRegdata hm hoff c)

theorem execDbgRegdata_write (v : Word) : exec (.dbgRegdata m c true v) s = .next ((s.regDataWrite c.val v).reply 0 0) :=
  congrArg Host.Outcome.next (State.askWrite_dbgRegdata hm hoff c v)

theorem dbgRegdata_denied (v : Word) (h : (s.core c.val).run ≠ .halt) :
    Completes (.dbgRegdata m c false v) s (fun t => t.answer = ⟨0, 0⟩ ∧ t.bit Reg.DBG_STAT 0 = true ∧ t.gv = s.gv ∧ SameMemory s t) ∧
      Completes (.dbgRegdata m c true v) s (fun t => t.bit Reg.DBG_STAT 0 = true ∧ t.gv = s.gv ∧ SameMemory s t) := by
  have hr : s.regDataRead c.val = (0, s.denied) := if_neg h
  have hw : s.regDataWrite c.val v = s.denied := if_neg h
  refine ⟨⟨_, execDbgRegdata_read hm hoff c v, ?_⟩, ⟨_, execDbgRegdata_write hm hoff c v, ?_⟩⟩
  · rw [hr]
    exact ⟨rfl, s.stat_denied, s.denied_told.gv, State.byte_congr s.denied_told.mem⟩
  · rw [hw]
    exact ⟨s.stat_denied, s.denied_told.gv, State.byte_congr s.denied_told.mem⟩

section
variable {n : Nat} (v : Word) (h : (s.core c.val).run = .halt) (hn : n = s.f (Reg.DBG_Cc_REGSEL c.val) 4 0)
include h hn

theorem dbgRegdata_read : exec (.dbgRegdata m c false v) s = .next (s.reply 0
    (if n < 16 then ((s.core c.val).g[n]?).getD 0 else if n = 16 then wd (s.core c.val).pc else if n = 17 then (s.core c.val).st else 0)) := by
  subst hn
  rw [execDbgRegdata_read hm hoff c v, show s.regDataRead c.val = _ from if_pos h]

theorem dbgRegdata_write : exec (.dbgRegdata m c true v) s = .next ((
    if n < 16 then s.setCore c.val { s.core c.val with g := (s.core c.val).g.set n v }
    else if n = 16 then s.setCore c.val { s.core c.val with pc := v.toNat / 4 * 4, ahead := [] }
    else if n = 17 then s.setCore c.val { s.core c.val with st := ((s.core c.val).st &&& ~~~stRw) ||| (v &&& stRw) }
    else s).reply 0 0) := by
  subst hn
  rw [execDbgRegdata_write hm hoff c v, show s.regDataWrite c.val v = _ from if_pos h]

theorem dbgRegdata_selected :
      (∀ w, (s.core c.val).g[n]? = some w → n < 16 → exec (.dbgRegdata m c false v) s = .next (s.reply 0 w) ∧
        exec (.dbgRegdata m c true v) s = .next ((s.setCore c.val { s.core c.val with g := (s.core c.val).g.set n v }).reply 0 0)) ∧
      (17 < n → exec (.dbgRegdata m c false v) s = .next (s.reply 0 0) ∧ exec (.dbgRegdata m c true v) s = .next (s.reply 0 0)) ∧
      (n = 16 → exec (.dbgRegdata m c false v) s = .next (s.reply 0 (wd (s.core c.val).pc)) ∧
        Completes (.dbgRegdata m c true v) s fun t => (t.core c.val).pc = v.toNat / 4 * 4 ∧ (t.core c.val).g = (s.core c.val).g ∧ t.regs = s.regs ∧ SameMemory s t) ∧
      (n = 17 → exec (.dbgRegdata m c false v) s = .next (s.reply 0 (s.core c.val).st) ∧ Completes (.dbgRegdata m c true v) s fun t =>
        (t.core c.val).st = ((s.core c.val).st &&& ~~~stRw) ||| (v &&& stRw) ∧ (t.core c.val).g = (s.core c.val).g ∧ t.regs = s.regs ∧ SameMemory s t) := by
  have hrd := dbgRegdata_read hm hoff c v h hn
  have hwr := dbgRegdata_write hm hoff c v h hn
  refine ⟨fun w hw hlt => ⟨?_, ?_⟩, fun hlt => ⟨?_, ?_⟩, fun h16 => ⟨?_, _, hwr, ?_⟩, fun h17 => ⟨?_, _, hwr, ?_⟩⟩
  · rw [hrd, if_pos hlt, hw, Option.getD_some]
  · rw [hwr, if_pos hlt]
  · rw [hrd, if_neg (by omega), if_neg (by omega), if_neg (by omega)]
  · rw [hwr, if_neg (by omega), if_neg (by omega), if_neg (by omega)]
  · rw [hrd, if_neg (by omega), if_pos h16]
  · rw [if_neg (by omega), if_pos h16]
    simp only [State.core_reply, State.core_setCore_same]
    exact ⟨trivial, trivial, State.regs_setCore .., State.byte_congr (State.mem_setCore (s := s) ..)⟩
  · rw [hrd, if_neg (by omega), if_neg (by omega), if_pos h17]
  · rw [if_neg (by omega), if_neg (by omega), if_pos h17]
    simp only [State.core_reply, State.core_setCore_same]
    exact ⟨trivial, trivial, State.regs_setCore .., State.byte_congr (State.mem_setCore (s := s) ..)⟩

end

/-! Local SRAM (R475). -/

theorem execDbgLdata_read (v : Word) : exec (.dbgLdata m c false v) s = .next ((s.lDataRead c.val).2.reply 0 (s.lDataRead c.val).1) :=
  congrArg Host.Outcome.next (State.askRead_dbgLdata hm hoff c)

theorem execDbgLdata_write (v : Word) : exec (.dbgLdata m c true v) s = .next ((s.lDataWrite c.val v).reply 0 0) :=
  congrArg Host.Outcome.next (State.askWrite_dbgLdata hm hoff c v)

theorem dbgLdata_addressed {o : Nat} (v : Word) (ho : o = (s.reg (Reg.DBG_Cc_LADDR c.val)).toNat / 4 * 4) :
      (o < localSize c.val → s.mark (localKey c.val o) = .none → exec (.dbgLdata m c false v) s = .next (s.reply 0 (s.word (localKey c.val o)))) ∧
      (∀ (k : Nat) (t : State), o < localSize c.val → s.eccRead (localKey c.val o) (37 + c.val) = (k, t) →
        exec (.dbgLdata m c false v) s = .next (t.reply 0 (if k = 0 then t.word (localKey c.val o) else 0))) ∧
      (o < localSize c.val → Completes (.dbgLdata m c true v) s fun t => t.word (localKey c.val o) = v ∧
        (∀ k, k < localKey c.val o ∨ localKey c.val o + 4 ≤ k → t.byte k = s.byte k) ∧ t.regs = s.regs ∧ t.gv = s.gv) ∧
      (localSize c.val ≤ o → exec (.dbgLdata m c false v) s = .next (s.reply 0 0) ∧ exec (.dbgLdata m c true v) s = .next (s.reply 0 0)) := by
  subst ho
  have hrd := execDbgLdata_read hm hoff c v
  have hwr := execDbgLdata_write hm hoff c v
  refine ⟨fun hin hmark => ?_, fun k t hin he => ?_, fun hin => ⟨_, hwr, ?_⟩, fun hout => ⟨?_, ?_⟩⟩
  · rw [hrd, State.lDataRead_in hin (k := 0) (t := s) (by simp only [State.eccRead, hmark]), if_pos rfl]
  · rw [hrd, State.lDataRead_in hin he]
  · obtain ⟨hmem, hregs, hgv⟩ := State.lDataWrite_in v rfl hin
    exact ⟨(State.word_congr hmem _).trans (s.word_setWord_same _ v), fun k hk => (State.byte_congr hmem k).trans (s.byte_setWord_out v hk), hregs, hgv⟩
  · rw [hrd, show s.lDataRead c.val = _ from if_neg (Nat.not_lt.mpr hout)]
  · rw [hwr, show s.lDataWrite c.val v = _ from if_neg (Nat.not_lt.mpr hout)]

/-! The virtual terminal (R476). -/

theorem dbgDrxWrite_taken (v : Word) (h : s.bit (Reg.DBG_Cc_VT c.val) 1 = false) :
    Completes (.dbgDrxWrite m c v) s fun t => (t.core c.val).drx = v ∧ t.bit (Reg.DBG_Cc_VT c.val) 1 = true ∧ SameMemory s t := by
  have e : s.drxSend c.val v = ((s.setCore c.val { s.core c.val with drx := v }).setBit (Reg.DBG_Cc_VT c.val) 1 true).arrive (32 * c.val + 9) := if_neg (by simp [h])
  refine ⟨_, congrArg Host.Outcome.next (State.askWrite_dbgDrx hm hoff c v), ?_⟩
  rw [e]
  have ht := State.told_arrive (32 * c.val + 9) ((s.setCore c.val { s.core c.val with drx := v }).setBit (Reg.DBG_Cc_VT c.val) 1 true)
  have hvt : ¬ eventReg (Reg.DBG_Cc_VT c.val) := by
    match c with
    | 0 | 1 | 2 => decide
  refine ⟨?_, ?_, State.byte_congr (ht.mem.trans (State.mem_setCore ..))⟩
  · exact congrArg CoreSt.drx ((State.core_of_gv ht.gv _).trans (State.core_setCore_same s _ _))
  · exact (State.bit_arrive (by omega) hvt _ 1).trans (State.bit_setBit_same _ _ _ (by decide))

theorem dbgDrxWrite_overrun (v : Word) (h : s.bit (Reg.DBG_Cc_VT c.val) 1 = true) :
    Completes (.dbgDrxWrite m c v) s fun t => t.bit (Reg.DBG_Cc_VT c.val) 3 = true ∧ t.gv = s.gv ∧
        SameRegsBut (fun a => a = Reg.DBG_Cc_VT c.val) s t ∧ SameMemory s t := by
  refine ⟨_, congrArg Host.Outcome.next (State.askWrite_dbgDrx hm hoff c v), ?_⟩
  rw [show s.drxSend c.val v = _ from if_pos h]
  exact ⟨State.bit_setBit_same _ _ _ (by decide), rfl, fun a ha => State.reg_setBit_ne _ ha _ _, fun _ => rfl⟩

end

/-- Coalescers are read from the interrupt controller alone. -/
theorem State.coalOf_congr {s t : State} (h : ∀ a, blockOf a = 15 → t.reg a = s.reg a) (n : Nat) : t.coalOf n = s.coalOf n := by
  refine List.find?_congr fun k hk => ?_
  have hk' : k < 16 := List.mem_range.mp hk
  have hr : t.reg (Reg.IRQ_COALk_CFG k) = s.reg (Reg.IRQ_COALk_CFG k) := h _ (by interval_cases k <;> decide)
  rw [State.bit_of_reg hr, State.f_of_reg hr]

theorem dbgTxfullAck_acks {m : Acc} {s : State} (hm : m.debug = false) (hoff : s.targetOff Reg.DBG_AUTHCTL = false) (c : Fin 3) :
    Completes (.dbgTxfullAck m c) s fun t => t.reg (Reg.DBG_Cc_VT c.val) = s.reg (Reg.DBG_Cc_VT c.val) &&& ~~~1 ∧ t.gv = s.gv ∧
      (s.bit (Reg.DBG_Cc_VT c.val) 0 = true → s.pwr.state = 0 → s.coalOf (32 * c.val + 9) = none → s.bit (Reg.IRQ_SRCs (32 * c.val + 9)) 6 = true →
        t.bit (Reg.IRQ_SRCs (32 * c.val + 9)) 16 = true) ∧ SameMemory s t := by
  have hvt : ¬ eventReg (Reg.DBG_Cc_VT c.val) ∧ blockOf (Reg.DBG_Cc_VT c.val) ≠ 15 ∧ blockOf (Reg.IRQ_SRCs (32 * c.val + 9)) = 15 := by
    match c with
    | 0 | 1 | 2 => decide
  obtain ⟨hev, h15, hsrc⟩ := hvt
  have hirq : ∀ a, blockOf a = 15 → (s.setReg (Reg.DBG_Cc_VT c.val) (s.reg (Reg.DBG_Cc_VT c.val) &&& ~~~1)).reg a = s.reg a :=
    fun a ha => State.reg_setReg_ne _ (fun e => h15 ((congrArg blockOf e).symm.trans ha)) _
  have e : s.vtWrite c.val 1 = if s.bit (Reg.DBG_Cc_VT c.val) 0 then (s.setReg (Reg.DBG_Cc_VT c.val) (s.reg (Reg.DBG_Cc_VT c.val) &&& ~~~1)).arrive (32 * c.val + 9)
      else s.setReg (Reg.DBG_Cc_VT c.val) (s.reg (Reg.DBG_Cc_VT c.val) &&& ~~~1) := rfl
  refine ⟨_, congrArg Host.Outcome.next (State.askWrite_dbgVt hm hoff c 1), ?_⟩
  rw [e]
  split
  · have ht := State.told_arrive (32 * c.val + 9) (s.setReg (Reg.DBG_Cc_VT c.val) (s.reg (Reg.DBG_Cc_VT c.val) &&& ~~~1))
    refine ⟨(State.reg_arrive (by omega) hev _).trans (State.reg_setReg_same ..), ht.gv, fun _ hp hc hf => ?_, State.byte_congr ht.mem⟩
    exact State.flag_arrive (s := s.setReg (Reg.DBG_Cc_VT c.val) (s.reg (Reg.DBG_Cc_VT c.val) &&& ~~~1)) hp ((State.coalOf_congr hirq _).trans hc)
      ((State.bit_of_reg (hirq _ hsrc) 6).trans hf)
  · next h => exact ⟨State.reg_setReg_same .., rfl, fun h' => absurd h' h, fun _ => rfl⟩

/-- Settles O48, clause by clause: what HALT, RUN, REGDATA, LDATA and the virtual terminal do, and the commands that stop mode freezes. -/
theorem debugHalts : Obligations.DebugHalts := by
  unfold Obligations.DebugHalts
  refine ⟨fun m c s hm hoff wr v i hi => ?_, fun s => ?_, fun m c s hm hoff => ⟨fun hr hmon hdue => ?_, fun hst => ?_, fun hr hmon hdue => ?_, fun h => ?_,
    dbgRun_releases hm hoff c, dbgRun_ignored hm hoff c, dbgRegdata_denied hm hoff c, fun v n h hn => dbgRegdata_selected hm hoff c v h hn,
    fun v o ho => dbgLdata_addressed hm hoff c v ho, fun v => ⟨dbgDrxWrite_taken hm hoff c v, dbgDrxWrite_overrun hm hoff c v⟩, dbgTxfullAck_acks hm hoff c⟩⟩
  · obtain ⟨t, e, ht⟩ := exec_debug_unpowered c hm hoff wr v i hi
    exact ⟨t, e, ht.answer, ht.gv, ht.byte⟩
  · intro h lane sf4 n4 p4 sk b66s b64 b66 p2 ok b1 b2 f g pos x1 sf x2 x3 rate t1 t2 t3 n32 p32 c r16 peer an e u slot o48 i128 cv vc hs
    exact exec_frozen hs h lane sf4 n4 p4 sk b66s b64 b66 p2 ok b1 b2 f g pos x1 sf x2 x3 rate t1 t2 t3 n32 p32 c r16 peer an e u slot o48 i128 cv vc
  · obtain ⟨t, e, ⟨due, hcore, -, hsome⟩, hstat, -, hmem⟩ := dbgHalt_pends hm hoff c hr hmon
    exact ⟨t, e, by rw [hcore, hsome hdue], hstat, hmem⟩
  · obtain ⟨t, e, hgv, -, hmem⟩ := dbgHalt_ignored hm hoff c (.inr (.inr hst))
    exact ⟨t, e, hgv, hmem⟩
  · obtain ⟨t, e, ⟨due, hcore, hnone, -⟩, hstat, hother, hmem⟩ := dbgHalt_pends hm hoff c hr hmon
    exact ⟨t, e, by rw [hcore, hnone hdue], hstat, hother, hmem⟩
  · exact dbgHalt_ignored hm hoff c (h.elim .inl fun k => .inr (.inl k))

end Sys2Proof.Machine
end

section
/-! Resets of the domains, and the end of a debug grant. -/

namespace Sys2Proof.Machine

theorem State.reg_resetBlocks (s : State) (p : Nat → Bool) (a : Nat) : (s.resetBlocks p).reg a = if p a then RegMap.resetOf a else s.reg a := by
  unfold State.resetBlocks State.reg
  split
  · next h => exact Sparse.get_filter_drop _ _ a (fun _ => by simp [h]) _
  · next h => exact Sparse.get_filter_keep _ _ a (fun _ => by simp [h]) _

theorem State.byte_zeroRange (s : State) (lo hi k : Nat) : (s.zeroRange lo hi).byte k = if lo ≤ k ∧ k < hi then 0 else s.byte k := by
  unfold State.zeroRange State.byte
  split
  · next h => exact Sparse.get_filter_drop _ _ k (fun _ => by simp [h.1, h.2]) _
  · next h => exact Sparse.get_filter_keep _ _ k (fun _ => by rw [Bool.not_eq_true', Bool.and_eq_false_iff, decide_eq_false_iff_not, decide_eq_false_iff_not]; omega) _

theorem State.byte_zeroRange_zero {s : State} {k : Nat} (h : s.byte k = 0) (lo hi : Nat) : (s.zeroRange lo hi).byte k = 0 := by
  rw [State.byte_zeroRange, h, ite_self]

/-- Cores by number: every number above 1 names the Allemande. -/
theorem State.core_setCore (s : State) (c d : Nat) (x : CoreSt) : (s.setCore c x).core d = if min c 2 = min d 2 then x else s.core d := by
  unfold State.setCore State.core
  split_ifs <;> first | rfl | omega

theorem State.core_min (s : State) {c d : Nat} (h : min c 2 = min d 2) : s.core c = s.core d := by
  unfold State.core
  split_ifs <;> first | rfl | omega

/-! The end of a debug grant (R462, R475). -/

/-- The registers of halts, breakpoints and the watchdogs of the cores. -/
def dropReg (a : Nat) : Prop := blockOf a = 24 ∨ gvWdg 0 a = true ∨ gvWdg 1 a = true

/-- `t` is `s` after cores were released: a core that runs goes on at its PC. -/
structure Freed (s t : State) : Prop where
  state : ∃ regs gv, t = { s with regs := regs, gv := gv }
  regs : ∀ a, ¬ dropReg a → t.reg a = s.reg a
  pc : ∀ c, (t.core c).pc = (s.core c).pc
  run : ∀ c, (s.core c).run = .run → (t.core c).run = .run

theorem Freed.refl (s : State) : Freed s s := ⟨⟨_, _, rfl⟩, fun _ _ => rfl, fun _ => rfl, fun _ h => h⟩

theorem Freed.trans {s t u : State} (h : Freed s t) (k : Freed t u) : Freed s u := by
  refine ⟨?_, fun a ha => (k.regs a ha).trans (h.regs a ha), fun c => (k.pc c).trans (h.pc c), fun c hc => k.run c (h.run c hc)⟩
  obtain ⟨_, _, e⟩ := h.state
  obtain ⟨r, g, e'⟩ := k.state
  exact ⟨r, g, by rw [e', e]⟩

theorem Freed.foldl {α : Type} {f : State → α → State} (l : List α) (hf : ∀ t, ∀ x ∈ l, Freed t (f t x)) (s : State) : Freed s (l.foldl f s) := by
  induction l generalizing s with
  | nil => exact .refl s
  | cons x xs ih => exact (hf s x List.mem_cons_self).trans (ih (fun t y hy => hf t y (List.mem_cons_of_mem _ hy)) _)

theorem Freed.setReg {a : Nat} (ha : dropReg a) (v : Word) (s : State) : Freed s (s.setReg a v) :=
  ⟨⟨_, _, rfl⟩, fun b hb => State.reg_setReg_ne _ (fun e => hb (by rw [e]; exact ha)) _, fun _ => rfl, fun _ h => h⟩

theorem Freed.setCore (s : State) (c : Nat) {x : CoreSt} (hpc : x.pc = (s.core c).pc) (hrun : (s.core c).run = .run → x.run = .run) : Freed s (s.setCore c x) := by
  refine ⟨?_, fun a _ => State.reg_setCore .., fun d => ?_, fun d hd => ?_⟩
  · unfold State.setCore
    split
    · exact ⟨_, _, rfl⟩
    · split <;> exact ⟨_, _, rfl⟩
  · rw [State.core_setCore]
    split
    · next h => rw [hpc, State.core_min s h]
    · rfl
  · rw [State.core_setCore]
    split
    · next h => exact hrun (State.core_min s h ▸ hd)
    · exact hd

theorem Freed.wdgRelease (c : Nat) (s : State) : Freed s (s.wdgRelease c) := by
  obtain ⟨regs, e, hr⟩ := s.wdgRelease_sets c
  refine ⟨⟨regs, s.gv, e⟩, fun a ha => hr a fun hc => ?_, fun d => by rw [e]; rfl, fun d hd => by rw [e]; exact hd⟩
  simp only [dropReg, not_or, Bool.not_eq_true] at ha
  obtain ⟨-, h0, h1⟩ := ha
  match c, hc with
  | 0, _ => exact h0
  | 1, _ => exact h1

theorem dropReg_wdgCtrl (c : Nat) : dropReg (wdgCtrl (min c 1)) := by
  obtain h | h : min c 1 = 0 ∨ min c 1 = 1 := by omega
  · rw [h]; exact .inr (.inl (by decide))
  · rw [h]; exact .inr (.inr (by decide))

theorem dropReg_dbg {a : Nat} (h : 0x40180000 ≤ a) (h' : a < 0x40190000) : dropReg a := by
  refine .inl ?_
  unfold blockOf
  rw [if_pos (by omega)]
  omega

/-- Breakpoints, watchpoints, steps and DPAUSE of a core are cleared. -/
def State.debugCleared (t : State) (c : Nat) : State :=
  let t1 := (List.range 4).foldl (fun u b => u.setBit (Reg.DBG_Cc_BPb c b) 0 false) t
  let t2 := (List.range 2).foldl (fun u w => u.setBit (Reg.DBG_Cc_WPw_CTRL c w) 0 false) t1
  ((t2.setBit (Reg.DBG_Cc_CTRL c) 3 false).setBit (wdgCtrl (min c 1)) 1 false).setBit (wdgCtrl (min c 1)) 2 false

/-- A core is released, or its step is withdrawn. -/
def State.stepDropped (t : State) (c : Nat) : State :=
  if (t.core c).run = .halt then ((t.setCore c { t.core c with run := .run, stepping := false }).setF (Reg.DBG_Cc_STAT c) 1 0 0).wdgRelease c
  else t.setCore c { t.core c with stepping := false }

/-- What the end of a debug grant does to one core. -/
def State.coreDropped (t : State) (c : Nat) : State := (t.debugCleared c).stepDropped c

theorem State.freed_debugCleared {c : Nat} (hc : c < 3) (s : State) : Freed s (s.debugCleared c) := by
  have hbp : ∀ b ∈ List.range 4, dropReg (Reg.DBG_Cc_BPb c b) := fun b hb => by
    have := List.mem_range.mp hb
    exact dropReg_dbg (by simp only [Reg.DBG_Cc_BPb]; omega) (by simp only [Reg.DBG_Cc_BPb]; omega)
  have hwp : ∀ w ∈ List.range 2, dropReg (Reg.DBG_Cc_WPw_CTRL c w) := fun w hw => by
    have := List.mem_range.mp hw
    exact dropReg_dbg (by simp only [Reg.DBG_Cc_WPw_CTRL]; omega) (by simp only [Reg.DBG_Cc_WPw_CTRL]; omega)
  have hctrl : dropReg (Reg.DBG_Cc_CTRL c) := dropReg_dbg (by simp only [Reg.DBG_Cc_CTRL]; omega) (by simp only [Reg.DBG_Cc_CTRL]; omega)
  unfold State.debugCleared
  extract_lets t1 t2
  have h1 : Freed s t1 := Freed.foldl _ (fun t b hb => .setReg (hbp b hb) _ t) s
  have h2 : Freed t1 t2 := Freed.foldl _ (fun t w hw => .setReg (hwp w hw) _ t) t1
  have h3 : Freed t2 (t2.setBit (Reg.DBG_Cc_CTRL c) 3 false) := .setReg hctrl _ _
  have h4 : ∀ u i, Freed u (u.setBit (wdgCtrl (min c 1)) i false) := fun u i => .setReg (dropReg_wdgCtrl c) _ u
  exact (((h1.trans h2).trans h3).trans (h4 _ 1)).trans (h4 _ 2)

theorem State.freed_stepDropped {c : Nat} (hc : c < 3) (s : State) : Freed s (s.stepDropped c) := by
  have hstat : dropReg (Reg.DBG_Cc_STAT c) := dropReg_dbg (by simp only [Reg.DBG_Cc_STAT]; omega) (by simp only [Reg.DBG_Cc_STAT]; omega)
  have h1 : ∀ u v, Freed u (u.setF (Reg.DBG_Cc_STAT c) 1 0 v) := fun u v => .setReg hstat _ u
  unfold State.stepDropped
  split
  · exact ((Freed.setCore s c (x := { s.core c with run := .run, stepping := false }) rfl fun _ => rfl).trans (h1 _ 0)).trans (.wdgRelease c _)
  · exact Freed.setCore s c (x := { s.core c with stepping := false }) rfl fun h => h

theorem State.freed_coreDropped {c : Nat} (hc : c < 3) (s : State) : Freed s (s.coreDropped c) :=
  (s.freed_debugCleared hc).trans (State.freed_stepDropped hc _)

/-- `t` is `s` after the debug grant fell to `l`. -/
structure Lapsed (l : Nat) (s t : State) : Prop where
  state : ∃ regs gv out evr irq w, t = { s with regs := regs, gv := gv, out := out, evr := evr, irq := irq, pwr := { s.pwr with waking := w }, sec := { s.sec with level := l } }
  regs : ∀ a, ¬ dropReg a → ¬ holdoverReg a ∨ s.running = false → t.reg a = s.reg a
  pc : ∀ c, (t.core c).pc = (s.core c).pc
  run : ∀ c, (s.core c).run = .run → (t.core c).run = .run

theorem not_dropReg_beamCtrl : ¬ dropReg Reg.BEAM_CTRL := by
  unfold dropReg
  decide

theorem State.thaw_stopped {old s : State} (h : s.running = false) : ∃ out, State.thaw old s = { s with out := out } := by
  have hs : ∃ out, State.showFrozen old s = { s with out := out } := by
    unfold State.showFrozen
    split
    · exact ⟨s.out, rfl⟩
    · exact ⟨_, rfl⟩
  obtain ⟨out, e⟩ := hs
  refine ⟨out, ?_⟩
  unfold State.thaw
  rw [e]
  have hr : State.running { s with out := out } = false := h
  simp only [hr, Bool.and_false, Bool.false_eq_true, if_false]

theorem State.lapsed_dropDebug (l : Nat) (s : State) : Lapsed l s (s.dropDebug l) := by
  have hfree : Freed { s with sec := { s.sec with level := l } } ((List.range 3).foldl State.coreDropped { s with sec := { s.sec with level := l } }) :=
    Freed.foldl _ (fun t c hc => t.freed_coreDropped (List.mem_range.mp hc)) _
  have e : s.dropDebug l = if 2 ≤ l then { s with sec := { s.sec with level := l } } else
      State.thaw { s with sec := { s.sec with level := l } } ((List.range 3).foldl State.coreDropped { s with sec := { s.sec with level := l } }) := rfl
  rw [e]
  split
  · exact ⟨⟨_, _, _, _, _, s.pwr.waking, rfl⟩, fun _ _ _ => rfl, fun _ => rfl, fun _ h => h⟩
  · revert hfree
    generalize (List.range 3).foldl State.coreDropped { s with sec := { s.sec with level := l } } = u
    intro hfree
    have ht := State.thawed_thaw { s with sec := { s.sec with level := l } } u
    refine ⟨?_, fun a ha hor => ?_, fun c => ?_, fun c hc => ?_⟩
    · obtain ⟨⟨out, regs, evr, irq, w, e1⟩, -⟩ := ht
      obtain ⟨_, gv, e2⟩ := hfree.state
      exact ⟨regs, gv, out, evr, irq, w, by rw [e1, e2]⟩
    · rcases hor with hh | hrun
      · exact (ht.2 a hh).trans (hfree.regs a ha)
      · have hur : u.running = false := (State.bit_of_reg (hfree.regs _ not_dropReg_beamCtrl) 0).trans hrun
        obtain ⟨out, e1⟩ := State.thaw_stopped (old := { s with sec := { s.sec with level := l } }) hur
        rw [e1]
        exact hfree.regs a ha
    · exact (congrArg CoreSt.pc (State.core_of_gv ht.gv c)).trans (hfree.pc c)
    · exact (congrArg CoreSt.run (State.core_of_gv ht.gv c)).trans (hfree.run c hc)

/-! Resets (R411, Table 16.5). -/

/-- What a reset of the fabric domain leaves. -/
theorem State.resetFabric_spec (s : State) : (∀ a, isFabric a = true → s.resetFabric.reg a = RegMap.resetOf a) ∧ (∀ a, isFabric a = false → s.resetFabric.reg a = s.reg a) ∧
    (∀ k, inSram k = true → s.resetFabric.byte k = 0) ∧ s.resetFabric.fab.marching = true ∧ s.resetFabric.running = false ∧ s.resetFabric.sec = s.sec ∧
    s.resetFabric.pending = s.pending ∧ s.resetFabric.blk = BlkSt.reset ∧ s.resetFabric.reel = ReelSt.reset ∧ s.resetFabric.gv = s.gv ∧ s.resetFabric.beam = BeamSt.reset := by
  have hreg : ∀ a, s.resetFabric.reg a = if isFabric a then RegMap.resetOf a else s.reg a := s.reg_resetBlocks isFabric
  refine ⟨fun a ha => (hreg a).trans (if_pos ha), fun a ha => (hreg a).trans (if_neg (by simp [ha])), fun k hk => ?_, rfl, ?_, rfl, rfl, rfl, rfl, rfl, rfl⟩
  · refine ((s.resetBlocks isFabric).byte_zeroRange sramBase sramEnd k).trans (if_pos ?_)
    simpa [inSram] using hk
  · have h : s.resetFabric.reg Reg.BEAM_CTRL = RegMap.resetOf Reg.BEAM_CTRL := (hreg _).trans (if_pos (by decide))
    have h0 : bitAt (RegMap.resetOf Reg.BEAM_CTRL) 0 = false := by decide
    simp only [State.running, State.bit, h, h0]

/-- What a reset of the management domain leaves, and what it keeps. -/
theorem State.resetManagement_spec (s : State) :
    (∀ a, isManagement a = false → ¬ dropReg a → ¬ holdoverReg a ∨ s.running = false → s.resetManagement.reg a = s.reg a) ∧
    (∀ k, s.byte k = 0 → s.resetManagement.byte k = 0) ∧ s.resetManagement.fab.marching = s.fab.marching ∧ s.resetManagement.fab.wiping = true ∧
    s.resetManagement.sec.life = s.sec.life ∧ s.resetManagement.sec.level = 0 ∧ s.resetManagement.pending = s.pending ∧ s.resetManagement.blk = s.blk ∧
    s.resetManagement.reel = s.reel ∧ s.resetManagement.beam = s.beam ∧ (s.resetManagement.core 2).run = .run ∧ (s.resetManagement.core 2).pc = 0 := by
  unfold State.resetManagement
  extract_lets s1 g v w s2
  have h := State.lapsed_dropDebug 0 s2
  have hreg : ∀ a, isManagement a = false → s2.reg a = s.reg a := fun a ha => (s.reg_resetBlocks isManagement a).trans (if_neg (by simp [ha]))
  have hrun : s2.running = s.running := State.bit_of_reg (hreg _ (by decide)) 0
  have hbyte : ∀ k, s.byte k = 0 → s2.byte k = 0 := fun k hk => State.byte_zeroRange_zero (s := s.resetBlocks isManagement) hk _ _
  have hr2 := h.run 2 rfl
  have hp2 : ((s2.dropDebug 0).core 2).pc = 0 := (h.pc 2).trans rfl
  refine ⟨fun a ha hd hor => ((h.regs a hd (hrun ▸ hor)).trans (hreg a ha) :), fun k hk => ?_, ?_, rfl, ?_, ?_, ?_, ?_, ?_, ?_, hr2, hp2⟩
  · refine State.byte_zeroRange_zero (s := s2.dropDebug 0) ?_ _ _
    obtain ⟨_, _, _, _, _, _, e⟩ := h.state
    rw [e]
    exact hbyte k hk
  all_goals
    obtain ⟨_, _, _, _, _, _, e⟩ := h.state
    rw [e]
    rfl

theorem State.resetCores_spec (s : State) :
    (∀ a, ¬ dropReg a → a ≠ Reg.CLK_GVCTL → a ≠ Reg.IMG_UCSTAT → s.resetCores.reg a = s.reg a) ∧ s.resetCores.bit Reg.CLK_GVCTL 0 = true ∧
    s.resetCores.bit Reg.CLK_GVCTL 1 = true ∧ (∀ k, s.byte k = 0 → s.resetCores.byte k = 0) ∧ s.resetCores.core 0 = emptyCore ∧ s.resetCores.core 1 = emptyCore ∧
    s.resetCores.core 2 = s.core 2 ∧ s.resetCores.fab.marching = s.fab.marching ∧ s.resetCores.fab.wiping = s.fab.wiping ∧ s.resetCores.sec = s.sec ∧
    s.resetCores.pending = s.pending ∧ s.resetCores.blk = s.blk ∧ s.resetCores.reel = s.reel ∧ s.resetCores.beam = s.beam ∧ s.resetCores.pwr = s.pwr := by
  have hgv : ∀ i, s.resetCores.bit Reg.CLK_GVCTL i =
      (((s.resetBlocks fun a => gvWdg 0 a || gvWdg 1 a).holdCore 0).holdCore 1).bit Reg.CLK_GVCTL i := fun i => State.bit_of_reg (State.reg_setF_ne _ (by decide) _ _ _) i
  refine ⟨fun a hd h1 h2 => ?_, ?_, ?_, fun k hk => ?_, rfl, rfl, rfl, rfl, rfl, rfl, rfl, rfl, rfl, rfl, rfl⟩
  · have hp : (gvWdg 0 a || gvWdg 1 a) = false := by
      simp only [dropReg, not_or, Bool.not_eq_true] at hd
      rw [hd.2.1, hd.2.2]
      rfl
    refine (State.reg_setF_ne _ h2 _ _ _).trans ((State.reg_setBit_ne _ h1 _ _).trans ((State.reg_setCore ..).trans ((State.reg_setBit_ne _ h1 _ _).trans
      ((State.reg_setCore ..).trans ((s.reg_resetBlocks _ a).trans (if_neg ?_))))))
    rw [hp]
    decide
  · exact (hgv 0).trans ((State.bit_setBit_ne _ _ _ (by decide)).trans (State.bit_setBit_same _ _ _ (by decide)))
  · exact (hgv 1).trans (State.bit_setBit_same _ _ _ (by decide))
  · exact State.byte_zeroRange_zero (s := ((s.resetBlocks fun a => gvWdg 0 a || gvWdg 1 a).holdCore 0).holdCore 1) hk _ _

theorem isFabric_apart {a : Nat} (h : isFabric a = true) : isManagement a = false ∧ ¬ dropReg a ∧ blockOf a ≠ 1 ∧ blockOf a ≠ 25 := by
  unfold isFabric at h
  simp only [Bool.and_eq_true, Bool.or_eq_true, decide_eq_true_eq, Bool.not_eq_true'] at h
  obtain ⟨⟨⟨hb, -⟩, h0⟩, h1⟩ := h
  refine ⟨?_, ?_, by omega, by omega⟩
  · unfold isManagement
    simp only [Bool.and_eq_false_iff, decide_eq_false_iff_not]
    omega
  · simp only [dropReg, h0, h1, Bool.false_eq_true, or_false]
    omega

theorem fld_two_bits {w : Word} (h0 : bitAt w 0 = true) (h1 : bitAt w 1 = true) : fld w 1 0 = 3 := by
  have hlt : fld w 1 0 < 4 := fld_lt w 1 0
  have t0 : (fld w 1 0).testBit 0 = true := by rw [testBit_fld]; exact h0
  have t1 : (fld w 1 0).testBit 1 = true := by rw [testBit_fld]; exact h1
  revert t0 t1
  interval_cases fld w 1 0 <;> decide

/-- What a chip reset leaves, and what it keeps. -/
theorem State.chipReset_spec (s : State) {cause : Nat} (hc : cause < 32) :
    (s.chipReset cause).bit Reg.CLK_RSTCAUSE cause = true ∧ (∀ k, inSram k = true → (s.chipReset cause).byte k = 0) ∧ (s.chipReset cause).fab.marching = true ∧
    (s.chipReset cause).fab.wiping = true ∧ (s.chipReset cause).running = false ∧ (s.chipReset cause).pwr.state = 0 ∧ (s.chipReset cause).core 0 = emptyCore ∧
    (s.chipReset cause).core 1 = emptyCore ∧ (s.chipReset cause).f Reg.CLK_GVCTL 1 0 = 3 ∧ ((s.chipReset cause).core 2).run = .run ∧
    ((s.chipReset cause).core 2).pc = 0 ∧ (s.chipReset cause).blk = BlkSt.reset ∧ (s.chipReset cause).reel = ReelSt.reset ∧
    (s.chipReset cause).sec.life = s.sec.life ∧ (s.chipReset cause).sec.level = 0 ∧ (s.chipReset cause).pending = s.pending ∧
    ∀ a, isFabric a = true → (s.chipReset cause).reg a = RegMap.resetOf a := by
  obtain ⟨freg, -, fbyte, fmarch, frun, fsec, fpend, fblk, freel, -, -⟩ := s.resetFabric_spec
  obtain ⟨mreg, mbyte, mmarch, mwipe, mlife, mlevel, mpend, mblk, mreel, -, mcr, mcp⟩ := s.resetFabric.resetManagement_spec
  obtain ⟨creg, cg0, cg1, cbyte, cc0, cc1, cc2, cmarch, cwipe, csec, cpend, cblk, creel, -, -⟩ := s.resetFabric.resetManagement.resetCores_spec
  have hcause : ∀ a, a ≠ Reg.CLK_RSTCAUSE → (s.chipReset cause).reg a = s.resetFabric.resetManagement.resetCores.reg a :=
    fun a ha => State.reg_setBit_ne _ ha _ _
  have hfab : ∀ a, isFabric a = true → (s.chipReset cause).reg a = RegMap.resetOf a := by
    intro a ha
    obtain ⟨hman, hdrop, h1, h25⟩ := isFabric_apart ha
    refine (hcause a (fun e => h1 (by rw [e]; decide))).trans ((creg a hdrop (fun e => h1 (by rw [e]; decide)) (fun e => h25 (by rw [e]; decide))).trans ?_)
    exact (mreg a hman hdrop (.inr frun)).trans (freg a ha)
  refine ⟨State.bit_setBit_same _ _ _ hc, fun k hk => cbyte k (mbyte k (fbyte k hk)), cmarch.trans (mmarch.trans fmarch), cwipe.trans mwipe, ?_, rfl, cc0, cc1, ?_,
    (congrArg CoreSt.run cc2).trans mcr, (congrArg CoreSt.pc cc2).trans mcp, cblk.trans (mblk.trans fblk), creel.trans (mreel.trans freel),
    (congrArg SecSt.life csec).trans (mlife.trans (congrArg SecSt.life fsec)), (congrArg SecSt.level csec).trans mlevel, cpend.trans (mpend.trans fpend), hfab⟩
  · have h0 : bitAt (RegMap.resetOf Reg.BEAM_CTRL) 0 = false := by decide
    rw [State.running, State.bit, hfab _ (by decide), h0]
  · rw [State.f, hcause _ (by decide)]
    exact fld_two_bits cg0 cg1

/-! The clock block, whose power is never off, and which the Allemande alone may command (R403, R411). -/

theorem State.targetOff_clk (s : State) {a : Nat} (h1 : blockOf a = 1) (h2 : inRegs a = true) : s.targetOff a = false := by
  simp [State.targetOff, h1, h2]

theorem regProt_clk_allowed {m : Acc} (ha : m.alle = true) {a : Nat} (h : blockOf a = 1) (write : Bool) (v : Word) : regProt m a write v = false := by
  simp [regProt, h, ha]

theorem regProt_clk_denied {m : Acc} (ha : m.alle = false) {a : Nat} (h : a = Reg.CLK_PLLCTL ∨ a = Reg.CLK_SWRST ∨ a = Reg.CLK_GVCTL) (write : Bool) (v : Word) :
    regProt m a write v = true := by
  have hb : blockOf a = 1 := by rcases h with rfl | rfl | rfl <;> decide
  rw [regProt, hb]
  simp only [ha, Bool.not_false, Bool.true_and, Bool.or_eq_true, decide_eq_true_eq]
  tauto

end Sys2Proof.Machine
end

section
/-! The statement on resets and the release of cores. -/

namespace Sys2Proof.Machine

/-! The release of the internal reset (R410). -/

theorem execResetRelease_eq (s : State) : ∃ t : State, exec .resetRelease s = .next (if (s.core 2).run = .held then t.startCore 2 0 else t) ∧
    t.pwr.released = true ∧ t.gv = s.gv ∧ t.mem = s.mem ∧ t.bit Reg.CLK_PLLSTAT 0 = true ∧ t.bit Reg.CLK_PLLSTAT 3 = true ∧ t.bit Reg.CLK_PLLSTAT 4 = true ∧
    ∀ a, a ≠ Reg.CLK_PLLSTAT → t.reg a = s.reg a := by
  have hbits : ∀ b : Bool, bitAt (wd (1 + 2 * b2n b + 8 + 16)) 0 = true ∧ bitAt (wd (1 + 2 * b2n b + 8 + 16)) 3 = true ∧ bitAt (wd (1 + 2 * b2n b + 8 + 16)) 4 = true := by
    decide
  obtain ⟨h0, h3, h4⟩ := hbits (s.bit Reg.CLK_PLLCTL 0)
  refine ⟨({ s with pwr := { s.pwr with supplyOk := true, released := true, ref25 := true } } : State).setReg Reg.CLK_PLLSTAT
    (wd (1 + 2 * b2n (s.bit Reg.CLK_PLLCTL 0) + 8 + 16)), rfl, rfl, rfl, rfl, ?_, ?_, ?_, fun a ha => State.reg_setReg_ne _ ha _⟩
  · rw [State.bit, State.reg_setReg_same]; exact h0
  · rw [State.bit, State.reg_setReg_same]; exact h3
  · rw [State.bit, State.reg_setReg_same]; exact h4

/-! CLK_GVCTL (R310, R396, R411). -/

/-- What a write of `v` to CLK_GVCTL does to one core. -/
def State.gvctlCore (v : Word) (t : State) (c : Nat) : State :=
  if bitAt v c then t.holdCore c
  else if (t.core c).run = .held ∨ (t.core c).run = .stopped then
    let t1 := (t.startCore c (t.reg (Reg.CLK_GVxSTART c)).toNat).setBit Reg.CLK_GVCTL c false
    if t1.bit (wdgCtrl c) 0 then t1.setReg (wdgCnt c) (t1.reg (wdgReg c 4)) else t1
  else t

theorem State.writeGvctl_eq (v : Word) (s : State) : s.writeGvctl v = (s.gvctlCore v 0).gvctlCore v 1 := rfl

/-- Only the core itself, its bit and its watchdog's count change. -/
theorem State.gvctlCore_frame {c : Nat} (hc : c < 2) (v : Word) (s : State) : (s.gvctlCore v c).mem = s.mem ∧ (∀ d, d < 3 → d ≠ c → (s.gvctlCore v c).core d = s.core d) ∧
    (∀ a, a ≠ Reg.CLK_GVCTL → a ≠ wdgCnt c → (s.gvctlCore v c).reg a = s.reg a) ∧ ∀ i, i ≠ c → (s.gvctlCore v c).bit Reg.CLK_GVCTL i = s.bit Reg.CLK_GVCTL i := by
  have hcnt : Reg.CLK_GVCTL ≠ wdgCnt c := by
    simp only [wdgCnt, wdgReg, Reg.CLK_GVCTL]
    omega
  have hne : ∀ x d, d < 3 → d ≠ c → (s.setCore c x).core d = s.core d := fun x d hd h => State.core_setCore_ne s (by omega) hd h x
  unfold State.gvctlCore
  split
  · refine ⟨State.mem_setCore .., fun d hd h => hne _ d hd h, fun a h1 _ => (State.reg_setBit_ne _ h1 _ _).trans (State.reg_setCore ..), fun i hi => ?_⟩
    exact (State.bit_setBit_ne _ _ _ hi).trans (State.bit_of_reg (State.reg_setCore ..) i)
  · split
    · dsimp only
      split
      · refine ⟨State.mem_setCore .., fun d hd h => hne _ d hd h, fun a h1 h2 => (State.reg_setReg_ne _ h2 _).trans ((State.reg_setBit_ne _ h1 _ _).trans (State.reg_setCore ..)),
          fun i hi => ?_⟩
        exact (State.bit_of_reg (State.reg_setReg_ne _ hcnt _) i).trans ((State.bit_setBit_ne _ _ _ hi).trans (State.bit_of_reg (State.reg_setCore ..) i))
      · refine ⟨State.mem_setCore .., fun d hd h => hne _ d hd h, fun a h1 _ => (State.reg_setBit_ne _ h1 _ _).trans (State.reg_setCore ..), fun i hi => ?_⟩
        exact (State.bit_setBit_ne _ _ _ hi).trans (State.bit_of_reg (State.reg_setCore ..) i)
    · exact ⟨rfl, fun _ _ _ => rfl, fun _ _ _ => rfl, fun _ _ => rfl⟩

section
variable {c : Nat} {v : Word} {s : State}

theorem State.gvctlCore_holds (hc : c < 2) (hv : bitAt v c = true) : (s.gvctlCore v c).core c = emptyCore ∧ (s.gvctlCore v c).bit Reg.CLK_GVCTL c = true := by
  rw [State.gvctlCore, if_pos hv]
  exact ⟨State.core_setCore_same s c _, State.bit_setBit_same _ _ _ (by omega)⟩

theorem State.gvctlCore_starts (hc : c < 2) (hv : bitAt v c = false) (hr : (s.core c).run = .held ∨ (s.core c).run = .stopped) :
    (s.gvctlCore v c).core c = { emptyCore with run := .run, pc := (s.reg (Reg.CLK_GVxSTART c)).toNat / 4 * 4 } ∧ (s.gvctlCore v c).bit Reg.CLK_GVCTL c = false ∧
    (s.bit (wdgCtrl c) 0 = true → (s.gvctlCore v c).reg (wdgCnt c) = s.reg (wdgReg c 4)) := by
  have hcnt : Reg.CLK_GVCTL ≠ wdgCnt c ∧ wdgCtrl c ≠ Reg.CLK_GVCTL ∧ wdgReg c 4 ≠ Reg.CLK_GVCTL := by
    simp only [wdgCnt, wdgCtrl, wdgReg, Reg.CLK_GVCTL]
    omega
  obtain ⟨h1, h2, h3⟩ := hcnt
  have hctrl : ((s.startCore c (s.reg (Reg.CLK_GVxSTART c)).toNat).setBit Reg.CLK_GVCTL c false).bit (wdgCtrl c) 0 = s.bit (wdgCtrl c) 0 :=
    State.bit_of_reg ((State.reg_setBit_ne _ h2 _ _).trans (State.reg_setCore ..)) 0
  rw [State.gvctlCore, if_neg (by simp [hv]), if_pos hr]
  dsimp only
  rw [hctrl]
  split
  · refine ⟨State.core_setCore_same s c _, ?_, fun _ => ?_⟩
    · exact (State.bit_of_reg (State.reg_setReg_ne _ h1 _) c).trans (State.bit_setBit_same _ _ _ (by omega))
    · exact (State.reg_setReg_same ..).trans ((State.reg_setBit_ne _ h3 _ _).trans (State.reg_setCore ..))
  · next h => exact ⟨State.core_setCore_same s c _, State.bit_setBit_same _ _ _ (by omega), fun k => absurd k h⟩

theorem State.gvctlCore_runs (hv : bitAt v c = false) (h1 : (s.core c).run ≠ .held) (h2 : (s.core c).run ≠ .stopped) : s.gvctlCore v c = s := by
  rw [State.gvctlCore, if_neg (by simp [hv]), if_neg (by simp [h1, h2])]

end

/-- The two cores of a write of CLK_GVCTL do not meet: core `c` sees what it would alone. -/
theorem State.writeGvctl_core {c : Nat} (hc : c < 2) (v : Word) (s : State) : ∃ u : State, u.core c = s.core c ∧ (∀ a, a ≠ Reg.CLK_GVCTL → a ≠ wdgCnt (1 - c) → u.reg a = s.reg a) ∧
    u.mem = s.mem ∧ (s.writeGvctl v).core c = (u.gvctlCore v c).core c ∧ (s.writeGvctl v).bit Reg.CLK_GVCTL c = (u.gvctlCore v c).bit Reg.CLK_GVCTL c ∧
    (s.writeGvctl v).reg (wdgCnt c) = (u.gvctlCore v c).reg (wdgCnt c) ∧ (s.writeGvctl v).core 2 = s.core 2 ∧ (s.writeGvctl v).mem = s.mem := by
  obtain ⟨m0, c0, r0, b0⟩ := State.gvctlCore_frame (c := 0) (by decide) v s
  obtain ⟨m1, c1, r1, b1⟩ := State.gvctlCore_frame (c := 1) (by decide) v (s.gvctlCore v 0)
  rw [State.writeGvctl_eq]
  have h2 : ((s.gvctlCore v 0).gvctlCore v 1).core 2 = s.core 2 := (c1 2 (by decide) (by decide)).trans (c0 2 (by decide) (by decide))
  have hm : ((s.gvctlCore v 0).gvctlCore v 1).mem = s.mem := m1.trans m0
  match c, hc with
  | 0, _ => exact ⟨s, rfl, fun _ _ _ => rfl, rfl, c1 0 (by decide) (by decide), b1 0 (by decide), r1 _ (by decide) (by decide), h2, hm⟩
  | 1, _ => exact ⟨s.gvctlCore v 0, c0 1 (by decide) (by decide), r0, m0, rfl, rfl, rfl, h2, hm⟩

theorem execGvRelease_eq {m : Acc} {s : State} (v : Word) (hm : m.debug = false) (ha : m.alle = true) :
    exec (.gvRelease m v) s = .next ((s.writeGvctl v).reply 0 0) := by
  show Host.Outcome.next (s.askWrite m Reg.CLK_GVCTL v) = _
  rw [State.askWrite_word (.inl hm) (s.targetOff_clk (by decide) (by decide)) (by decide) (regProt_clk_allowed ha (by decide) _ _)]
  rfl

/-- Settles O41, source by source: what each reset leaves, and what starting and holding a core leave. -/
theorem resetSources : Obligations.ResetSources := by
  unfold Obligations.ResetSources
  intro m s P hP
  have hchip : ∀ {i : Nat}, i < 32 → P i (s.chipReset i) := fun hi => by
    rw [hP]
    exact s.chipReset_spec hi
  have hsw : ∀ {v : Word}, m.debug = false → m.alle = true → exec (.clkSwrst m v) s = .next ((s.swReset v).reply 0 0) := fun {v} hm ha => by
    show Host.Outcome.next (s.askWrite m Reg.CLK_SWRST v) = _
    rw [State.askWrite_word (.inl hm) (s.targetOff_clk (by decide) (by decide)) (by decide) (regProt_clk_allowed ha (by decide) _ _)]
    rfl
  have hprot : ∀ (a : Nat) (v : Word), a = Reg.CLK_SWRST ∨ a = Reg.CLK_GVCTL → m.debug = false → m.alle = false → Refused 3 s (s.askWrite m a v) := by
    rintro a v (rfl | rfl) hm ha
    · exact State.askWrite_protected hm (s.targetOff_clk (by decide) (by decide)) (by decide) (regProt_clk_denied ha (.inr (.inl rfl)) _ _)
    · exact State.askWrite_protected hm (s.targetOff_clk (by decide) (by decide)) (by decide) (regProt_clk_denied ha (.inr (.inr rfl)) _ _)
  refine ⟨⟨_, rfl, hchip (by decide)⟩, fun hm ha => ⟨_, hsw hm ha, ?_⟩, fun v hm ha hv => ?_, fun v hm ha => ⟨_, rfl, ?_⟩, ⟨_, rfl, ?_, rfl, rfl⟩,
    ⟨_, rfl, rfl, rfl, rfl, rfl, rfl, rfl, rfl, rfl, rfl, rfl, rfl⟩, fun h => ?_, fun h => ?_, fun v hm ha => ⟨_, rfl, ?_⟩, fun v c hc hm ha => ?_⟩
  · rw [State.swReset, if_pos rfl]
    have h := hchip (i := 3) (by decide)
    rw [hP] at h ⊢
    exact h
  · rw [hsw hm ha, State.swReset, if_neg hv]
  · have h := hprot Reg.CLK_SWRST v (.inl rfl) hm ha
    exact ⟨h.answer, h.gv, h.beam, h.byte⟩
  · have h := hchip (i := 1) (by decide)
    rw [hP] at h ⊢
    exact h
  · obtain ⟨t, e, hrel, hgv, hmem, h0, h3, h4, hreg⟩ := execResetRelease_eq s
    refine ⟨_, e, ?_⟩
    rw [if_pos h]
    exact ⟨hrel, State.core_setCore_same t 2 _, h0, h3, h4, hreg, State.byte_congr hmem⟩
  · obtain ⟨t, e, hrel, hgv, hmem, -⟩ := execResetRelease_eq s
    refine ⟨_, e, ?_⟩
    rw [if_neg h]
    exact ⟨hrel, State.core_of_gv hgv 2, State.byte_congr hmem⟩
  · have h := hprot Reg.CLK_GVCTL v (.inr rfl) hm ha
    exact ⟨h.answer, h.gv, h.byte⟩
  · obtain ⟨u, hcore, hreg, -, tcore, tbit, tcnt, t2, tmem⟩ := s.writeGvctl_core hc v
    have hne : Reg.CLK_GVxSTART c ≠ Reg.CLK_GVCTL ∧ Reg.CLK_GVxSTART c ≠ wdgCnt (1 - c) ∧ wdgCtrl c ≠ Reg.CLK_GVCTL ∧ wdgCtrl c ≠ wdgCnt (1 - c) ∧
        wdgReg c 4 ≠ Reg.CLK_GVCTL ∧ wdgReg c 4 ≠ wdgCnt (1 - c) := by
      simp only [wdgCnt, wdgCtrl, wdgReg, Reg.CLK_GVCTL, Reg.CLK_GVxSTART]
      omega
    obtain ⟨n1, n2, n3, n4, n5, n6⟩ := hne
    have hstart := hreg _ n1 n2
    have hload := hreg _ n5 n6
    have hctrl : u.bit (wdgCtrl c) 0 = s.bit (wdgCtrl c) 0 := State.bit_of_reg (hreg _ n3 n4) 0
    have hexec := execGvRelease_eq (s := s) v hm ha
    refine ⟨fun hv hr _ => ⟨_, hexec, ?_⟩, fun hv hr hw => ⟨_, hexec, ?_⟩, fun hv h1 h2 => ⟨_, hexec, ?_⟩, fun hv => ⟨_, hexec, ?_⟩⟩
    · obtain ⟨k1, k2, -⟩ := State.gvctlCore_starts (s := u) hc hv (.inl (hcore ▸ hr))
      rw [hstart] at k1
      exact ⟨tcore.trans k1, tbit.trans k2, t2, State.byte_congr tmem⟩
    · obtain ⟨k1, -, k3⟩ := State.gvctlCore_starts (s := u) hc hv (hcore ▸ hr)
      rw [hstart] at k1
      exact ⟨tcore.trans k1, tcnt.trans ((k3 (hctrl.trans hw)).trans hload)⟩
    · have k := State.gvctlCore_runs (s := u) hv (hcore ▸ h1) (hcore ▸ h2)
      exact tcore.trans ((congrArg (State.core · c) k).trans hcore)
    · obtain ⟨k1, k2⟩ := State.gvctlCore_holds (s := u) hc hv
      exact ⟨tcore.trans k1, tbit.trans k2, t2, State.byte_congr tmem⟩

end Sys2Proof.Machine
end

section
/-! The statement on losses and returns of clocks. -/

namespace Sys2Proof.Machine

/-! A loss that is noted in CLK_STAT. -/

theorem State.told_clkRaise (i : Nat) (s : State) : Told s (s.clkRaise i) := State.told_raise ..

theorem State.stat_clkRaise (s : State) {i : Nat} (h : i < 32) : (s.clkRaise i).bit Reg.CLK_STAT i = true :=
  State.raise_bit s stCLK _ _ _ h (by decide) (StatReg.src_lt (by decide))

theorem State.reg_clkRaise {a : Nat} (hne : a ≠ Reg.CLK_STAT) (ha : ¬ eventReg a) (i : Nat) (s : State) : (s.clkRaise i).reg a = s.reg a :=
  State.reg_raise_ne s (r := stCLK) _ _ _ _ hne ha (by decide)

/-- A loss clears the lock bit of its PLL and is noted. -/
theorem State.clockLost {s t : State} {k i : Nat} (hk : k < 32) (hi : i < 32) (ht : t = (s.setBit Reg.CLK_PLLSTAT k false).clkRaise i) :
    t.bit Reg.CLK_STAT i = true ∧ t.bit Reg.CLK_PLLSTAT k = false ∧ (∀ j, j ≠ k → t.bit Reg.CLK_PLLSTAT j = s.bit Reg.CLK_PLLSTAT j) ∧ t.lock = s.lock ∧ t.mem = s.mem ∧
      t.beam = s.beam ∧ t.gv = s.gv ∧ ∃ w, t.pwr = { s.pwr with waking := w } := by
  subst ht
  have h := State.told_clkRaise i (s.setBit Reg.CLK_PLLSTAT k false)
  have hr : ∀ {a}, a ≠ Reg.CLK_STAT → ¬ eventReg a → _ := fun hne ha => State.reg_clkRaise (a := _) hne ha i (s.setBit Reg.CLK_PLLSTAT k false)
  refine ⟨State.stat_clkRaise _ hi, (State.bit_of_reg (hr (by decide) (by decide)) k).trans (State.bit_setBit_same _ _ _ hk),
    fun j hj => (State.bit_of_reg (hr (by decide) (by decide)) j).trans (State.bit_setBit_ne _ _ _ hj), ?_, h.mem, h.beam, h.gv, ?_⟩
  · exact State.lock_of_reg ((hr (by decide) (by decide)).trans (State.reg_setBit_ne _ (by decide) _ _))
  · obtain ⟨_, _, _, w, e⟩ := h
    exact ⟨w, by rw [e]; rfl⟩

/-! PLL F (R401). -/

section
variable {s : State}

theorem pllFLoss_spare (h2 : s.bit Reg.CLK_PLLSTAT 2 = false) (hen : s.bit Reg.CLK_PLLCTL 0 = true) (h1 : s.bit Reg.CLK_PLLSTAT 1 = true) :
    Completes .pllFLoss s fun t => t.bit Reg.CLK_PLLSTAT 0 = false ∧ t.bit Reg.CLK_PLLSTAT 2 = true ∧ t.bit Reg.CLK_STAT 0 = true ∧ t.pwr.held = true ∧ t.beam = s.beam ∧
      SameMemory s t := by
  have e : exec .pllFLoss s = .next { ((s.setBit Reg.CLK_PLLSTAT 0 false).setBit Reg.CLK_PLLSTAT 2 true).clkRaise 0 with
      pwr := { (((s.setBit Reg.CLK_PLLSTAT 0 false).setBit Reg.CLK_PLLSTAT 2 true).clkRaise 0).pwr with held := true } } := by
    show execPllFLoss s = _
    simp only [execPllFLoss, h2, hen, h1, Bool.false_eq_true, if_false, and_self, if_true]
  have h := State.told_clkRaise 0 ((s.setBit Reg.CLK_PLLSTAT 0 false).setBit Reg.CLK_PLLSTAT 2 true)
  have hr := State.reg_clkRaise (a := Reg.CLK_PLLSTAT) (by decide) (by decide) 0 ((s.setBit Reg.CLK_PLLSTAT 0 false).setBit Reg.CLK_PLLSTAT 2 true)
  exact ⟨_, e, (State.bit_of_reg hr 0).trans ((State.bit_setBit_ne _ _ _ (by decide)).trans (State.bit_setBit_same _ _ _ (by decide))),
    (State.bit_of_reg hr 2).trans (State.bit_setBit_same _ _ _ (by decide)), State.stat_clkRaise _ (by decide), rfl, h.beam, State.byte_congr h.mem⟩

theorem pllFLoss_onSpare (h2 : s.bit Reg.CLK_PLLSTAT 2 = true) : Completes .pllFLoss s fun t => t.bit Reg.CLK_PLLSTAT 0 = false ∧ t.bit Reg.CLK_PLLSTAT 2 = true ∧
      t.bit Reg.CLK_STAT 0 = true ∧ t.pwr.held = s.pwr.held ∧ SameMemory s t := by
  have e : exec .pllFLoss s = .next ((s.setBit Reg.CLK_PLLSTAT 0 false).clkRaise 0) := by
    show execPllFLoss s = _
    simp only [execPllFLoss, h2, if_true]
  obtain ⟨hstat, hlost, hother, -, hmem, -, -, w, hpwr⟩ := State.clockLost (s := s) (k := 0) (i := 0) (by decide) (by decide) rfl
  exact ⟨_, e, hlost, (hother 2 (by decide)).trans h2, hstat, by rw [hpwr], State.byte_congr hmem⟩

theorem pllFLoss_resets (h2 : s.bit Reg.CLK_PLLSTAT 2 = false) (h : s.bit Reg.CLK_PLLCTL 0 = false ∨ s.bit Reg.CLK_PLLSTAT 1 = false) :
    Completes .pllFLoss s fun t => t.bit Reg.CLK_RSTCAUSE 7 = true ∧ t.bit Reg.CLK_STAT 0 = true ∧ t.running = false ∧ (t.core 2).run = .run ∧ (t.core 2).pc = 0 := by
  have hno : ¬ (s.bit Reg.CLK_PLLCTL 0 = true ∧ s.bit Reg.CLK_PLLSTAT 1 = true) := by
    rintro ⟨ha, hb⟩
    rcases h with h | h
    · simp [h] at ha
    · simp [h] at hb
  have e : exec .pllFLoss s = .next (((s.setBit Reg.CLK_PLLSTAT 0 false).chipReset 7).clkRaise 0) := by
    show execPllFLoss s = _
    unfold execPllFLoss
    dsimp only
    rw [if_neg (by simp [h2]), if_neg hno]
  obtain ⟨hcause, -, -, -, hrun, -, -, -, -, hcr, hcp, -⟩ := State.chipReset_spec (s.setBit Reg.CLK_PLLSTAT 0 false) (cause := 7) (by decide)
  have ht := State.told_clkRaise 0 ((s.setBit Reg.CLK_PLLSTAT 0 false).chipReset 7)
  have hc := State.core_of_gv ht.gv 2
  exact ⟨_, e, (State.bit_of_reg (State.reg_clkRaise (by decide) (by decide) _ _) 7).trans hcause, State.stat_clkRaise _ (by decide),
    (State.bit_of_reg (State.reg_clkRaise (by decide) (by decide) _ _) 0).trans hrun, (congrArg CoreSt.run hc).trans hcr, (congrArg CoreSt.pc hc).trans hcp⟩

end

/-! CLK_PLLCTL (R401). -/

theorem bitAt_or_two (v : Word) : bitAt (v ||| 2) 0 = bitAt v 0 ∧ bitAt (v ||| 2) 1 = true := by
  unfold bitAt
  rw [BitVec.getLsbD_or, BitVec.getLsbD_or]
  exact ⟨Bool.or_false _, Bool.or_true _⟩

/-- CLK_PLLCTL and CLK_PLLSTAT after SPAREEN is written and PLL F has locked again. -/
def State.pllctlSet (v : Word) (relocked : Bool) (s : State) : State :=
  let s1 := (s.setBit Reg.CLK_PLLCTL 0 (bitAt v 0)).setBit Reg.CLK_PLLSTAT 1 (bitAt v 0)
  if relocked then s1.setBit Reg.CLK_PLLSTAT 0 true else s1

theorem State.writePllctl_eq (v : Word) (relocked : Bool) (s : State) : s.writePllctl v relocked =
    if bitAt v 1 ∧ (s.pllctlSet v relocked).bit Reg.CLK_PLLSTAT 0 ∧ (s.pllctlSet v relocked).bit Reg.CLK_PLLSTAT 2 then
      { (s.pllctlSet v relocked).setBit Reg.CLK_PLLSTAT 2 false with pwr := { ((s.pllctlSet v relocked).setBit Reg.CLK_PLLSTAT 2 false).pwr with held := true } }
    else s.pllctlSet v relocked := rfl

theorem State.pllctlSet_spec (v : Word) (relocked : Bool) (s : State) :
    (s.pllctlSet v relocked).bit Reg.CLK_PLLSTAT 0 = (s.bit Reg.CLK_PLLSTAT 0 || relocked) ∧ (s.pllctlSet v relocked).bit Reg.CLK_PLLSTAT 2 = s.bit Reg.CLK_PLLSTAT 2 ∧
    (s.pllctlSet v relocked).bit Reg.CLK_PLLCTL 0 = bitAt v 0 ∧ (∀ a, ¬ (a = Reg.CLK_PLLSTAT ∨ a = Reg.CLK_PLLCTL) → (s.pllctlSet v relocked).reg a = s.reg a) ∧
    (s.pllctlSet v relocked).pwr = s.pwr ∧ (s.pllctlSet v relocked).mem = s.mem := by
  have hctl : ∀ u : State, ∀ i b, (u.setBit Reg.CLK_PLLSTAT i b).bit Reg.CLK_PLLCTL 0 = u.bit Reg.CLK_PLLCTL 0 := fun u i b => State.bit_of_reg (State.reg_setBit_ne _ (by decide) _ _) 0
  have hstat : ∀ i, (s.setBit Reg.CLK_PLLCTL 0 (bitAt v 0)).bit Reg.CLK_PLLSTAT i = s.bit Reg.CLK_PLLSTAT i := fun i => State.bit_of_reg (State.reg_setBit_ne _ (by decide) _ _) i
  have hother : ∀ a, ¬ (a = Reg.CLK_PLLSTAT ∨ a = Reg.CLK_PLLCTL) → ((s.setBit Reg.CLK_PLLCTL 0 (bitAt v 0)).setBit Reg.CLK_PLLSTAT 1 (bitAt v 0)).reg a = s.reg a :=
    fun a ha => (State.reg_setBit_ne _ (fun e => ha (.inl e)) _ _).trans (State.reg_setBit_ne _ (fun e => ha (.inr e)) _ _)
  unfold State.pllctlSet
  cases relocked
  · refine ⟨?_, ?_, ?_, hother, rfl, rfl⟩
    · exact (State.bit_setBit_ne _ _ _ (by decide)).trans ((hstat 0).trans (Bool.or_false _).symm)
    · exact (State.bit_setBit_ne _ _ _ (by decide)).trans (hstat 2)
    · exact (hctl _ _ _).trans (State.bit_setBit_same _ _ _ (by decide))
  · refine ⟨?_, ?_, ?_, fun a ha => (State.reg_setBit_ne _ (fun e => ha (.inl e)) _ _).trans (hother a ha), rfl, rfl⟩
    · exact (State.bit_setBit_same _ _ _ (by decide)).trans (Bool.or_true _).symm
    · exact (State.bit_setBit_ne _ _ _ (by decide)).trans ((State.bit_setBit_ne _ _ _ (by decide)).trans (hstat 2))
    · exact (hctl _ _ _).trans ((hctl _ _ _).trans (State.bit_setBit_same _ _ _ (by decide)))

section
variable {m : Acc} {s : State} (v : Word) (relocked : Bool) (hm : m.debug = false)
include hm

theorem execPllRevert_eq (ha : m.alle = true) : exec (.pllRevert m v relocked) s = .next ((s.writePllctl (v ||| 2) relocked).reply 0 0) := by
  show Host.Outcome.next (s.askWith m Reg.CLK_PLLCTL v _) = _
  rw [State.askWith, if_neg (by simp [hm]), if_neg (by simp [s.targetOff_clk (a := Reg.CLK_PLLCTL) (by decide) (by decide)]),
    if_neg (by simp [regProt_clk_allowed ha (a := Reg.CLK_PLLCTL) (by decide)])]

theorem pllRevert_denied (ha : m.alle = false) : ∃ t, exec (.pllRevert m v relocked) s = .next t ∧ Refused 3 s t := by
  refine ⟨_, congrArg Host.Outcome.next ?_, s.refused_replyErr m.port Reg.CLK_PLLCTL 3 true⟩
  rw [State.askWith, if_neg (by simp [hm]), if_neg (by simp [s.targetOff_clk (a := Reg.CLK_PLLCTL) (by decide) (by decide)]),
    if_pos (regProt_clk_denied ha (.inl rfl) _ _)]
  rfl

theorem pllRevert_reverts (ha : m.alle = true) (h0 : s.bit Reg.CLK_PLLSTAT 0 = true ∨ relocked = true) (h2 : s.bit Reg.CLK_PLLSTAT 2 = true) :
      Completes (.pllRevert m v relocked) s fun t => t.bit Reg.CLK_PLLSTAT 2 = false ∧ t.bit Reg.CLK_PLLSTAT 0 = true ∧ t.pwr.held = true ∧
        t.bit Reg.CLK_PLLCTL 0 = bitAt v 0 ∧ SameRegsBut (fun a => a = Reg.CLK_PLLSTAT ∨ a = Reg.CLK_PLLCTL) s t ∧ SameMemory s t := by
  obtain ⟨p0, p2, pc, preg, -, pmem⟩ := s.pllctlSet_spec (v ||| 2) relocked
  have hp0 : (s.pllctlSet (v ||| 2) relocked).bit Reg.CLK_PLLSTAT 0 = true := by
    rw [p0]
    rcases h0 with h | h <;> simp [h]
  refine ⟨_, execPllRevert_eq v relocked hm ha, ?_⟩
  rw [State.writePllctl_eq, if_pos ⟨(bitAt_or_two v).2, hp0, p2.trans h2⟩]
  refine ⟨State.bit_setBit_same _ _ _ (by decide), (State.bit_setBit_ne _ _ _ (by decide)).trans hp0, rfl,
    (State.bit_of_reg (State.reg_setBit_ne _ (by decide) _ _) 0).trans (pc.trans (bitAt_or_two v).1), fun a h => ?_, State.byte_congr pmem⟩
  exact (State.reg_setBit_ne _ (fun e => h (.inl e)) _ _).trans (preg a h)

theorem pllRevert_stays (ha : m.alle = true) (h : (s.bit Reg.CLK_PLLSTAT 0 = false ∧ relocked = false) ∨ s.bit Reg.CLK_PLLSTAT 2 = false) :
      Completes (.pllRevert m v relocked) s fun t => t.bit Reg.CLK_PLLSTAT 2 = s.bit Reg.CLK_PLLSTAT 2 ∧ t.pwr = s.pwr ∧
        t.bit Reg.CLK_PLLCTL 0 = bitAt v 0 ∧ SameMemory s t := by
  obtain ⟨p0, p2, pc, -, ppwr, pmem⟩ := s.pllctlSet_spec (v ||| 2) relocked
  refine ⟨_, execPllRevert_eq v relocked hm ha, ?_⟩
  rw [State.writePllctl_eq, if_neg ?_]
  · exact ⟨p2, ppwr, pc.trans (bitAt_or_two v).1, State.byte_congr pmem⟩
  · rw [p0, p2]
    rintro ⟨-, k0, k2⟩
    rcases h with ⟨ha, hb⟩ | h
    · simp [ha, hb] at k0
    · simp [h] at k2

end

/-! The other clocks (R402, R518). -/

theorem State.wstat_enterHoldover {s : State} (h : s.lock ≠ 3) : s.enterHoldover.bit Reg.BEAM_WSTAT 4 = true := by
  rw [State.enterHoldover, if_neg h]
  exact State.wstat_raise _ (by decide)

theorem beamPllLoss_holds (s : State) : Completes .beamPllLoss s fun t => t.bit Reg.CLK_STAT 1 = true ∧ t.bit Reg.CLK_PLLSTAT 3 = false ∧ t.pwr.beamDiv = true ∧
    t.lock = 3 ∧ (s.lock ≠ 3 → t.bit Reg.BEAM_WSTAT 4 = true) ∧ SameMemory s t := by
  obtain ⟨hstat, hlost, -, hlock, hmem, -⟩ := State.clockLost (s := s) (k := 3) (i := 1) (by decide) (by decide) rfl
  refine ⟨_, rfl, ?_⟩
  revert hstat hlost hlock hmem
  generalize (s.setBit Reg.CLK_PLLSTAT 3 false).clkRaise 1 = u
  intro hstat hlost hlock hmem
  have ht := State.told_enterHoldover { u with pwr := { u.pwr with beamDiv := true } }
  refine ⟨(State.bit_of_reg (State.reg_enterHoldover (by decide) _) 1).trans hstat, (State.bit_of_reg (State.reg_enterHoldover (by decide) _) 3).trans hlost, ?_,
    State.lock_enterHoldover _, fun hne => ?_, State.byte_congr (ht.mem.trans hmem)⟩
  · obtain ⟨_, _, _, _, e⟩ := ht
    rw [e]
  · exact State.wstat_enterHoldover (s := { u with pwr := { u.pwr with beamDiv := true } }) fun k => hne (hlock.symm.trans k)

theorem ref25Loss_holds (s : State) : Completes .ref25Loss s fun t => t.bit Reg.CLK_STAT 2 = true ∧ t.pwr.ref25 = false ∧ t.lock = 3 ∧ SameMemory s t := by
  have ht := State.told_enterHoldover { s.clkRaise 2 with pwr := { (s.clkRaise 2).pwr with ref25 := false } }
  refine ⟨_, rfl, (State.bit_of_reg (State.reg_enterHoldover (by decide) _) 2).trans (State.stat_clkRaise s (by decide)), ?_, State.lock_enterHoldover _,
    State.byte_congr (ht.mem.trans (State.told_clkRaise 2 s).mem)⟩
  obtain ⟨_, _, _, _, e⟩ := ht
  rw [e]

/-- Settles O39, clock by clock. -/
theorem clockLosses : Obligations.ClockLosses := by
  unfold Obligations.ClockLosses
  intro m s
  refine ⟨pllFLoss_spare, pllFLoss_resets, pllFLoss_onSpare, ⟨_, rfl, rfl, rfl, fun _ => rfl⟩, fun v r hm ha h0 h2 => pllRevert_reverts v r hm ha h0 h2,
    fun v r hm ha h => pllRevert_stays v r hm ha h, fun v r hm ha => ?_, beamPllLoss_holds s,
    ⟨_, rfl, State.bit_setBit_same _ _ _ (by decide), rfl, fun a ha => State.reg_setBit_ne _ ha _ _, fun _ => rfl⟩, ref25Loss_holds s, ⟨_, rfl, rfl, rfl, fun _ => rfl⟩, ?_,
    ⟨_, rfl, State.bit_setBit_same _ _ _ (by decide), rfl, fun a ha => State.reg_setBit_ne _ ha _ _, fun _ => rfl⟩, ⟨_, rfl, rfl, rfl, fun _ => rfl⟩⟩
  · obtain ⟨t, e, ht⟩ := pllRevert_denied (s := s) v r hm ha
    exact ⟨t, e, ht.answer, ht.regs _ (by decide) (by decide), ht.regs _ (by decide) (by decide), ht.byte⟩
  · obtain ⟨hstat, hlost, -, -, hmem, -⟩ := State.clockLost (s := s) (k := 4) (i := 3) (by decide) (by decide) rfl
    exact ⟨_, rfl, hstat, hlost, rfl, State.byte_congr hmem⟩

end Sys2Proof.Machine
end

section
/-! What an event leaves of the interrupt controller's own state. -/

namespace Sys2Proof.Machine

/-- `t` is `s` after events: of the state of interrupts, timers and watchdogs only the wake slots that have fired may differ. -/
def Pended (s t : State) : Prop := ∃ p, t.irq = { s.irq with wakePend := p }

theorem Pended.of_eq {s t : State} (h : t.irq = s.irq) : Pended s t := ⟨s.irq.wakePend, h⟩

theorem Pended.trans {s t u : State} (h : Pended s t) (k : Pended t u) : Pended s u := by
  obtain ⟨_, h⟩ := h
  obtain ⟨p, k⟩ := k
  exact ⟨p, by rw [k, h]⟩

theorem Pended.setReg (s : State) (a : Nat) (v : Word) : Pended s (s.setReg a v) := .of_eq rfl

theorem State.pended_arrive (n : Nat) (s : State) : Pended s (s.arrive n) := by
  have hat : ∀ u : State, (u.arriveAt n).irq = u.irq := by
    intro u
    unfold State.arriveAt
    dsimp only
    split_ifs <;> rfl
  have hfold : ∀ (l : List Nat) (u : State), Pended u (l.foldl (fun s k => { (s.setBit Reg.IRQ_WAKESTAT k true) with
      irq := { s.irq with wakePend := putBit s.irq.wakePend k true }, pwr := { s.pwr with waking := true } }) u) := by
    intro l
    induction l with
    | nil => exact fun u => .of_eq rfl
    | cons k ks ih => exact fun u => Pended.trans ⟨_, rfl⟩ (ih _)
  unfold State.arrive
  split
  · refine .of_eq ?_
    unfold State.arriveAwake
    split
    · exact hat s
    · dsimp only
      split_ifs
      · exact hat s
      · exact hat _
      · rfl
  · split
    · exact .of_eq rfl
    · exact hfold _ s

theorem State.pended_logEvent (code : Nat) (a0 a1 a2 a3 : Word) (s : State) : Pended s (s.logEvent code a0 a1 a2 a3) := by
  unfold State.logEvent State.enqueueEvent
  split
  · exact .of_eq rfl
  · exact Pended.trans (.of_eq rfl) (State.pended_arrive ..)

theorem State.pended_raise (r : StatReg) (bit : Nat) (a0 a2 a3 : Word) (s : State) : Pended s (s.raise r bit a0 a2 a3) := by
  have harr : ∀ u, Pended s u → Pended s (match r.src with | some n => u.arrive n | none => u) := by
    intro u hu
    split
    · exact hu.trans (State.pended_arrive ..)
    · exact hu
  unfold State.raise
  apply harr
  split
  · exact Pended.trans (.of_eq rfl) (State.pended_logEvent ..)
  · exact .of_eq rfl

theorem State.pended_replyErr (port addr code : Nat) (w : Bool) (s : State) : Pended s ((s.errResponse port addr code w).reply code 0) := by
  have h : Pended s (s.errResponse port addr code w) := by
    unfold State.errResponse
    extract_lets s1
    refine Pended.trans ?_ (State.pended_logEvent ..)
    unfold s1
    split
    · exact State.pended_raise ..
    · exact Pended.trans (.setReg ..) (.setReg ..)
  exact h.trans (.of_eq rfl)

theorem Pended.active {s t : State} (h : Pended s t) : t.irq.active = s.irq.active := by obtain ⟨_, h⟩ := h; rw [h]

theorem Pended.keyOpen {s t : State} (h : Pended s t) (w : Nat) : t.keyOpen w = s.keyOpen w := by
  obtain ⟨_, h⟩ := h
  simp only [State.keyOpen, h]

theorem State.pended_unpoweredWrite {m : Acc} {a : Nat} {s : State} (v : Word) (hm : m.debug = false) (hoff : s.targetOff a = true) : Pended s (s.askWrite m a v) := by
  rw [State.askWrite_off v hm hoff]
  exact s.pended_replyErr ..

theorem State.pended_protectedWrite {m : Acc} {a : Nat} {s : State} {v : Word} (hm : m.debug = false) (hoff : s.targetOff a = false) (ha : RegWord a)
    (hp : regProt m a true v = true) : Pended s (s.askWrite m a v) := by
  rw [State.askWrite_denied hm hoff ha hp]
  exact s.pended_replyErr ..

end Sys2Proof.Machine
end

section
/-! The statement on interrupt sources, coalescers and wake slots. -/

namespace Sys2Proof.Machine

/-! Where the accesses lead. -/

theorem find_irqSrc (n : Fin 256) : (RegMap.find (Reg.IRQ_SRCs n.val)).isNone = false := by
  revert n
  decide +kernel

theorem find_irqCoal (k : Fin 16) : (RegMap.find (Reg.IRQ_COALk_CFG k.val)).isNone = false := by
  revert k
  decide +kernel

theorem blockOf_irq {a : Nat} (h : 0x400F0000 ≤ a) (h' : a < 0x40100000) : blockOf a = 15 := by
  unfold blockOf
  rw [if_pos (by omega)]
  omega

theorem arr_eq {base stride n k a : Nat} (hs : 0 < stride) (hk : k < n) (ha : a = base + stride * k) : arr base stride n a = some k := by
  subst ha
  have h1 : base + stride * k - base = stride * k := Nat.add_sub_cancel_left ..
  rw [arr, h1, Nat.mul_div_cancel_left k hs, if_pos ⟨Nat.le_add_right .., Nat.mul_mod_right .., hk⟩]

theorem arr_none {base stride n a : Nat} (hs : 0 < stride) (h : a < base ∨ base + stride * n ≤ a) : arr base stride n a = none := by
  rw [arr, if_neg]
  rintro ⟨h1, -, h3⟩
  rw [Nat.div_lt_iff_lt_mul hs, Nat.mul_comm] at h3
  omega

theorem State.regWrite_irqSrc (m : Acc) (s : State) (n : Fin 256) (v : Word) : s.regWrite m (Reg.IRQ_SRCs n.val) v = s.writeSrc n.val v := by
  have h1 : ¬ Reg.IRQ_SRCs n.val = Reg.IRQ_RAISE ∧ ¬ Reg.IRQ_SRCs n.val = Reg.IRQ_CLR := by
    simp only [Reg.IRQ_SRCs, Reg.IRQ_RAISE, Reg.IRQ_CLR]
    omega
  have harr : arr (Reg.IRQ_SRCs 0) 4 256 (Reg.IRQ_SRCs n.val) = some n.val := arr_eq (by decide) n.isLt (by simp only [Reg.IRQ_SRCs, Nat.mul_zero, Nat.add_zero])
  rw [State.regWrite, if_neg (by simp [find_irqSrc n]), blockOf_irq (by simp only [Reg.IRQ_SRCs]; omega) (by simp only [Reg.IRQ_SRCs]; omega)]
  simp only [h1, if_false, harr]

theorem State.regWrite_irqCoal (m : Acc) (s : State) (k : Fin 16) (v : Word) : s.regWrite m (Reg.IRQ_COALk_CFG k.val) v = s.writeCoal k.val v := by
  have h1 : ¬ Reg.IRQ_COALk_CFG k.val = Reg.IRQ_RAISE ∧ ¬ Reg.IRQ_COALk_CFG k.val = Reg.IRQ_CLR := by
    simp only [Reg.IRQ_COALk_CFG, Reg.IRQ_RAISE, Reg.IRQ_CLR]
    omega
  have hsrc : arr (Reg.IRQ_SRCs 0) 4 256 (Reg.IRQ_COALk_CFG k.val) = none := arr_none (by decide) (.inl (by simp only [Reg.IRQ_SRCs, Reg.IRQ_COALk_CFG]; omega))
  have harr : arr (Reg.IRQ_COALk_CFG 0) 16 16 (Reg.IRQ_COALk_CFG k.val) = some k.val :=
    arr_eq (by decide) k.isLt (by simp only [Reg.IRQ_COALk_CFG, Nat.mul_zero, Nat.add_zero])
  rw [State.regWrite, if_neg (by simp [find_irqCoal k]), blockOf_irq (by simp only [Reg.IRQ_COALk_CFG]; omega) (by simp only [Reg.IRQ_COALk_CFG]; omega)]
  simp only [h1, if_false, harr, hsrc]

/-- A register of the interrupt controller, which every master may reach. -/
theorem regWord_irq {a : Nat} (h : 0x400F0000 ≤ a) (h' : a < 0x40100000) (h4 : a % 4 = 0) : RegWord a := by
  refine ⟨?_, h4, ?_⟩
  · simp only [inRegs, Bool.and_eq_true, decide_eq_true_eq]
    unfold regBase
    omega
  · unfold regEnd
    omega

theorem regProt_irq (m : Acc) {a : Nat} (h : 0x400F0000 ≤ a) (h' : a < 0x40100000) (write : Bool) (v : Word) : regProt m a write v = false := by
  simp only [regProt, blockOf_irq h h']

section
variable {m : Acc} {s : State} (hm : m.debug = false)
include hm

theorem execIrqRaise_eq (hoff : s.targetOff Reg.IRQ_RAISE = false) (v : Word) : exec (.irqRaise m v) s = .next ((s.arrive (fld v 7 0)).reply 0 0) := by
  show Host.Outcome.next (s.askWrite m Reg.IRQ_RAISE v) = _
  rw [State.askWrite_word (.inl hm) hoff (by decide) rfl]
  rfl

theorem execIrqClr_eq (hoff : s.targetOff Reg.IRQ_CLR = false) (v : Word) : exec (.irqClr m v) s = .next ((s.irqClear v).reply 0 0) := by
  show Host.Outcome.next (s.askWrite m Reg.IRQ_CLR v) = _
  rw [State.askWrite_word (.inl hm) hoff (by decide) rfl]
  rfl

theorem execIrqFbWrite_eq (n : Fin 256) (hoff : s.targetOff (Reg.IRQ_SRCs n.val) = false) (v : Word) :
    exec (.irqFbWrite m n v) s = .next ((s.writeSrc n.val v).reply 0 0) := by
  have h1 : 0x400F0000 ≤ Reg.IRQ_SRCs n.val := by simp only [Reg.IRQ_SRCs]; omega
  have h2 : Reg.IRQ_SRCs n.val < 0x40100000 := by simp only [Reg.IRQ_SRCs]; omega
  have h3 : Reg.IRQ_SRCs n.val % 4 = 0 := by simp only [Reg.IRQ_SRCs]; omega
  show Host.Outcome.next (s.askWrite m (Reg.IRQ_SRCs n.val) v) = _
  rw [State.askWrite_word (.inl hm) hoff (regWord_irq h1 h2 h3) (regProt_irq m h1 h2 _ _), State.regWrite_irqSrc]

theorem execIrqCoalCfgWrite_eq (k : Fin 16) (hoff : s.targetOff (Reg.IRQ_COALk_CFG k.val) = false) (v : Word) :
    exec (.irqCoalCfgWrite m k v) s = .next ((s.writeCoal k.val v).reply 0 0) := by
  have h1 : 0x400F0000 ≤ Reg.IRQ_COALk_CFG k.val := by simp only [Reg.IRQ_COALk_CFG]; omega
  have h2 : Reg.IRQ_COALk_CFG k.val < 0x40100000 := by simp only [Reg.IRQ_COALk_CFG]; omega
  have h3 : Reg.IRQ_COALk_CFG k.val % 4 = 0 := by simp only [Reg.IRQ_COALk_CFG]; omega
  show Host.Outcome.next (s.askWrite m (Reg.IRQ_COALk_CFG k.val) v) = _
  rw [State.askWrite_word (.inl hm) hoff (regWord_irq h1 h2 h3) (regProt_irq m h1 h2 _ _), State.regWrite_irqCoal]

end

/-! Arrivals (R382, R383). -/

theorem State.arrive_uncoalesced {n : Nat} {s : State} (hp : s.pwr.state = 0) (hc : s.coalOf n = none) : s.arrive n = s.arriveAt n := by
  simp only [State.arrive, hp, if_true, State.arriveAwake, hc]

theorem State.arriveAt_flagged {n : Nat} {s : State} (h : s.bit (Reg.IRQ_SRCs n) 6 = true) : s.arriveAt n = s.setBit (Reg.IRQ_SRCs n) 16 true := by
  rw [State.arriveAt, if_pos h]

theorem State.arriveAt_counted {n : Nat} {s : State} (h : s.bit (Reg.IRQ_SRCs n) 6 = false) (hlt : s.f (Reg.IRQ_SRCs n) 15 8 < 255) :
    s.arriveAt n = s.setF (Reg.IRQ_SRCs n) 15 8 (s.f (Reg.IRQ_SRCs n) 15 8 + 1) := by
  rw [State.arriveAt, if_neg (by simp [h]), if_neg (by omega)]

theorem State.arriveAt_full {n : Nat} {s : State} (h : s.bit (Reg.IRQ_SRCs n) 6 = false) (hf : s.f (Reg.IRQ_SRCs n) 15 8 = 255) :
    s.arriveAt n = s.setBit (Reg.IRQ_OVFw (n / 32)) (n % 32) true := by
  rw [State.arriveAt, if_neg (by simp [h]), if_pos hf]

theorem irqRaise_arrives {m : Acc} {s : State} (hm : m.debug = false) (hoff : s.targetOff Reg.IRQ_RAISE = false) {v : Word} {n : Nat} (hn : n = fld v 7 0)
    (hp : s.pwr.state = 0) (hc : s.coalOf n = none) :
      (s.bit (Reg.IRQ_SRCs n) 6 = true → Completes (.irqRaise m v) s fun t => t.bit (Reg.IRQ_SRCs n) 16 = true ∧
        SameRegsBut (fun a => a = Reg.IRQ_SRCs n) s t ∧ SameMemory s t) ∧
      (s.bit (Reg.IRQ_SRCs n) 6 = false → s.f (Reg.IRQ_SRCs n) 15 8 < 255 → Completes (.irqRaise m v) s fun t =>
        t.f (Reg.IRQ_SRCs n) 15 8 = s.f (Reg.IRQ_SRCs n) 15 8 + 1 ∧ SameRegsBut (fun a => a = Reg.IRQ_SRCs n) s t ∧ SameMemory s t) ∧
      (s.bit (Reg.IRQ_SRCs n) 6 = false → s.f (Reg.IRQ_SRCs n) 15 8 = 255 → Completes (.irqRaise m v) s fun t =>
        t.f (Reg.IRQ_SRCs n) 15 8 = 255 ∧ t.bit (Reg.IRQ_OVFw (n / 32)) (n % 32) = true) := by
  have hlt : n < 256 := hn ▸ fld_lt v 7 0
  have e : exec (.irqRaise m v) s = .next ((s.arriveAt n).reply 0 0) := by
    rw [execIrqRaise_eq hm hoff, ← hn, State.arrive_uncoalesced hp hc]
  refine ⟨fun h => ⟨_, e, ?_⟩, fun h hl => ⟨_, e, ?_⟩, fun h hf => ⟨_, e, ?_⟩⟩
  · rw [State.arriveAt_flagged h]
    exact ⟨State.bit_setBit_same _ _ _ (by decide), fun a ha => State.reg_setBit_ne _ ha _ _, fun _ => rfl⟩
  · rw [State.arriveAt_counted h hl]
    refine ⟨(State.f_setF_same _ _ (by decide)).trans (Nat.mod_eq_of_lt ?_), fun a ha => State.reg_setF_ne _ ha _ _ _, fun _ => rfl⟩
    show _ < 256
    omega
  · rw [State.arriveAt_full h hf]
    refine ⟨(State.f_setBit_reg_ne _ ?_ _ _ _ _).trans hf, State.bit_setBit_same _ _ _ (Nat.mod_lt _ (by decide))⟩
    simp only [Reg.IRQ_SRCs, Reg.IRQ_OVFw]
    omega

/-! A source's own register (R381, R383). -/

theorem State.f_setBit_out (s : State) (a : Nat) {i hi lo : Nat} (b : Bool) (h : i < lo ∨ hi < i) : (s.setBit a i b).f a hi lo = s.f a hi lo := by
  rw [State.f, State.setBit, State.reg_setReg_same]
  exact fld_putBit_out _ _ h

theorem State.bit_setF_out (s : State) (a : Nat) {i hi lo v : Nat} (h : i < lo ∨ hi < i) (hlo : lo ≤ hi + 1) : (s.setF a hi lo v).bit a i = s.bit a i := by
  rw [State.bit, State.setF, State.reg_setReg_same]
  exact bitAt_setFld_out _ h hlo

theorem irqClr_clears {m : Acc} {s : State} (hm : m.debug = false) (hoff : s.targetOff Reg.IRQ_CLR = false) (v : Word) :
    Completes (.irqClr m v) s fun t => t.f (Reg.IRQ_SRCs (fld v 7 0)) 15 8 = 0 ∧ t.bit (Reg.IRQ_SRCs (fld v 7 0)) 16 = false ∧
      SameRegsBut (fun a => a = Reg.IRQ_SRCs (fld v 7 0)) s t ∧ SameMemory s t := by
  refine ⟨_, execIrqClr_eq hm hoff v, ?_, State.bit_setBit_same _ _ _ (by decide), fun a ha => (State.reg_setBit_ne _ ha _ _).trans (State.reg_setF_ne _ ha _ _ _),
    fun _ => rfl⟩
  refine Eq.trans ?_ (State.f_setF_same s (Reg.IRQ_SRCs (fld v 7 0)) (hi := 15) (lo := 8) (v := 0) (by decide))
  exact State.f_setBit_out _ _ _ (by decide)

/-- What a write of IRQ_SRCs leaves before FB is looked at. -/
def State.srcSet (n : Nat) (v : Word) (s : State) : State :=
  let s1 := (s.setF (Reg.IRQ_SRCs n) 3 0 (fld v 3 0)).setBit (Reg.IRQ_SRCs n) 7 (bitAt v 7)
  if n < 96 ∨ n = 184 then s1 else s1.setF (Reg.IRQ_SRCs n) 5 4 (fld v 5 4)

theorem State.srcSet_spec (n : Nat) (v : Word) (s : State) : (s.srcSet n v).f (Reg.IRQ_SRCs n) 3 0 = fld v 3 0 ∧ (s.srcSet n v).bit (Reg.IRQ_SRCs n) 7 = bitAt v 7 ∧
    (s.srcSet n v).bit (Reg.IRQ_SRCs n) 6 = s.bit (Reg.IRQ_SRCs n) 6 ∧ (∀ a, a ≠ Reg.IRQ_SRCs n → (s.srcSet n v).reg a = s.reg a) ∧ (s.srcSet n v).mem = s.mem := by
  have hpri : fld v 3 0 % 2 ^ (3 + 1 - 0) = fld v 3 0 := Nat.mod_eq_of_lt (fld_lt v 3 0)
  unfold State.srcSet
  dsimp only
  split
  · refine ⟨?_, State.bit_setBit_same _ _ _ (by decide), ?_, fun a ha => (State.reg_setBit_ne _ ha _ _).trans (State.reg_setF_ne _ ha _ _ _), rfl⟩
    · exact (State.f_setBit_out _ _ _ (by decide)).trans ((State.f_setF_same _ _ (by decide)).trans hpri)
    · exact (State.bit_setBit_ne _ _ _ (by decide)).trans (State.bit_setF_out _ _ (by decide) (by decide))
  · refine ⟨?_, ?_, ?_, fun a ha => (State.reg_setF_ne _ ha _ _ _).trans ((State.reg_setBit_ne _ ha _ _).trans (State.reg_setF_ne _ ha _ _ _)), rfl⟩
    · exact (State.f_setF_out _ _ (by decide) (by decide)).trans ((State.f_setBit_out _ _ _ (by decide)).trans ((State.f_setF_same _ _ (by decide)).trans hpri))
    · exact (State.bit_setF_out _ _ (by decide) (by decide)).trans (State.bit_setBit_same _ _ _ (by decide))
    · exact (State.bit_setF_out _ _ (by decide) (by decide)).trans ((State.bit_setBit_ne _ _ _ (by decide)).trans (State.bit_setF_out _ _ (by decide) (by decide)))

theorem State.writeSrc_eq (n : Nat) (v : Word) (s : State) : s.writeSrc n v =
    if bitAt v 6 ∧ s.bit (Reg.IRQ_SRCs n) 6 = false then
      (((s.srcSet n v).setBit (Reg.IRQ_SRCs n) 6 true).setBit (Reg.IRQ_SRCs n) 16 (decide (s.f (Reg.IRQ_SRCs n) 15 8 ≠ 0) || s.bit (Reg.IRQ_SRCs n) 16)).setF
        (Reg.IRQ_SRCs n) 15 8 0
    else if bitAt v 6 = false ∧ s.bit (Reg.IRQ_SRCs n) 6 then
      (((s.srcSet n v).setBit (Reg.IRQ_SRCs n) 6 false).setF (Reg.IRQ_SRCs n) 15 8 (b2n (s.bit (Reg.IRQ_SRCs n) 16))).setBit (Reg.IRQ_SRCs n) 16 false
    else s.srcSet n v := rfl

theorem State.writeSrc_spec (n : Nat) (v : Word) (s : State) :
    (s.writeSrc n v).f (Reg.IRQ_SRCs n) 3 0 = fld v 3 0 ∧ (s.writeSrc n v).bit (Reg.IRQ_SRCs n) 7 = bitAt v 7 ∧ (s.writeSrc n v).bit (Reg.IRQ_SRCs n) 6 = bitAt v 6 ∧
      (bitAt v 6 = true → s.bit (Reg.IRQ_SRCs n) 6 = false → (s.writeSrc n v).f (Reg.IRQ_SRCs n) 15 8 = 0 ∧
        (s.writeSrc n v).bit (Reg.IRQ_SRCs n) 16 = (decide (s.f (Reg.IRQ_SRCs n) 15 8 ≠ 0) || s.bit (Reg.IRQ_SRCs n) 16)) ∧
      (bitAt v 6 = false → s.bit (Reg.IRQ_SRCs n) 6 = true → (s.writeSrc n v).bit (Reg.IRQ_SRCs n) 16 = false ∧
        (s.writeSrc n v).f (Reg.IRQ_SRCs n) 15 8 = b2n (s.bit (Reg.IRQ_SRCs n) 16)) ∧
      (∀ a, a ≠ Reg.IRQ_SRCs n → (s.writeSrc n v).reg a = s.reg a) ∧ (s.writeSrc n v).mem = s.mem := by
  obtain ⟨hpri, hen, hfb, hreg, hmem⟩ := s.srcSet_spec n v
  have hout : ∀ (u : State), (∀ a, a ≠ Reg.IRQ_SRCs n → u.reg a = s.reg a) → ∀ i b, ∀ a, a ≠ Reg.IRQ_SRCs n → (u.setBit (Reg.IRQ_SRCs n) i b).reg a = s.reg a :=
    fun u hu i b a ha => (State.reg_setBit_ne _ ha _ _).trans (hu a ha)
  have hb2n : b2n (s.bit (Reg.IRQ_SRCs n) 16) < 256 := by cases s.bit (Reg.IRQ_SRCs n) 16 <;> decide
  rw [State.writeSrc_eq]
  split
  · next h =>
      refine ⟨?_, ?_, ?_, fun _ _ => ⟨State.f_setF_same _ _ (by decide), (State.bit_setF_out _ _ (by decide) (by decide)).trans (State.bit_setBit_same _ _ _ (by decide))⟩,
        fun h0 => absurd h.1 (by simp [h0]), fun a ha => (State.reg_setF_ne _ ha _ _ _).trans (hout _ (hout _ hreg _ _) _ _ a ha), hmem⟩
      · exact (State.f_setF_out _ _ (by decide) (by decide)).trans ((State.f_setBit_out _ _ _ (by decide)).trans ((State.f_setBit_out _ _ _ (by decide)).trans hpri))
      · exact (State.bit_setF_out _ _ (by decide) (by decide)).trans ((State.bit_setBit_ne _ _ _ (by decide)).trans ((State.bit_setBit_ne _ _ _ (by decide)).trans hen))
      · exact (State.bit_setF_out _ _ (by decide) (by decide)).trans ((State.bit_setBit_ne _ _ _ (by decide)).trans ((State.bit_setBit_same _ _ _ (by decide)).trans h.1.symm))
  · split
    · next h =>
        refine ⟨?_, ?_, ?_, fun h1 => absurd h.1 (by simp [h1]), fun _ _ => ⟨State.bit_setBit_same _ _ _ (by decide), ?_⟩,
          hout _ (fun a ha => (State.reg_setF_ne _ ha _ _ _).trans (hout _ hreg _ _ a ha)) _ _, hmem⟩
        · exact (State.f_setBit_out _ _ _ (by decide)).trans ((State.f_setF_out _ _ (by decide) (by decide)).trans ((State.f_setBit_out _ _ _ (by decide)).trans hpri))
        · exact (State.bit_setBit_ne _ _ _ (by decide)).trans ((State.bit_setF_out _ _ (by decide) (by decide)).trans ((State.bit_setBit_ne _ _ _ (by decide)).trans hen))
        · exact (State.bit_setBit_ne _ _ _ (by decide)).trans ((State.bit_setF_out _ _ (by decide) (by decide)).trans ((State.bit_setBit_same _ _ _ (by decide)).trans h.1.symm))
        · exact (State.f_setBit_out _ _ _ (by decide)).trans ((State.f_setF_same _ _ (by decide)).trans (Nat.mod_eq_of_lt hb2n))
    · next h1 h2 =>
        refine ⟨hpri, hen, hfb.trans ?_, fun k1 k2 => absurd ⟨k1, k2⟩ h1, fun k1 k2 => absurd ⟨k1, k2⟩ h2, hreg, hmem⟩
        cases hv : bitAt v 6 <;> cases hs : s.bit (Reg.IRQ_SRCs n) 6
        · rfl
        · exact absurd ⟨hv, hs⟩ h2
        · exact absurd ⟨hv, hs⟩ h1
        · rfl

/-! Coalescers (R387). -/

theorem State.reg_arriveAt_low {a : Nat} (n : Nat) (ha : a < 0x400F0400) (hovf : a < 0x400F0040 ∨ 0x400F0080 ≤ a) (hn : n < 256) (s : State) :
    (s.arriveAt n).reg a = s.reg a := by
  unfold State.arriveAt
  dsimp only
  split_ifs
  · exact State.reg_setBit_ne _ (by simp only [Reg.IRQ_SRCs]; omega) _ _
  · exact State.reg_setBit_ne _ (by simp only [Reg.IRQ_OVFw]; omega) _ _
  · exact State.reg_setF_ne _ (by simp only [Reg.IRQ_SRCs]; omega) _ _ _

theorem State.coalDeliver_spec {k n : Nat} (hk : k < 16) (hn : n < 256) (s : State) :
    (s.coalDeliver k n).f (Reg.IRQ_COALk_HELD k) 7 0 = 0 ∧ (s.coalDeliver k n).f (Reg.IRQ_COALk_HELD k) 23 16 = s.f (Reg.IRQ_COALk_HELD k) 7 0 ∧
    (∀ j, (s.coalDeliver k n).reg (Reg.IRQ_COALk_CFG j) = s.reg (Reg.IRQ_COALk_CFG j) ∨ 16 ≤ j) ∧ (s.coalDeliver k n).mem = s.mem := by
  have hheld : ∀ u : State, (u.arriveAt n).reg (Reg.IRQ_COALk_HELD k) = u.reg (Reg.IRQ_COALk_HELD k) :=
    fun u => State.reg_arriveAt_low n (by simp only [Reg.IRQ_COALk_HELD]; omega) (.inr (by simp only [Reg.IRQ_COALk_HELD]; omega)) hn u
  have hlt : s.f (Reg.IRQ_COALk_HELD k) 7 0 < 256 := fld_lt _ 7 0
  refine ⟨?_, ?_, fun j => ?_, ?_⟩
  · exact (State.f_of_reg (hheld _) 7 0).trans (State.f_setF_same _ _ (by decide))
  · exact (State.f_of_reg (hheld _) 23 16).trans ((State.f_setF_out _ _ (by decide) (by decide)).trans ((State.f_setF_same _ _ (by decide)).trans (Nat.mod_eq_of_lt hlt)))
  · by_cases hj : j < 16
    · refine .inl ((State.reg_arriveAt_low n (by simp only [Reg.IRQ_COALk_CFG]; omega) (.inr (by simp only [Reg.IRQ_COALk_CFG]; omega)) hn _).trans
        ((State.reg_setF_ne _ ?_ _ _ _).trans (State.reg_setF_ne _ ?_ _ _ _)))
      · simp only [Reg.IRQ_COALk_CFG, Reg.IRQ_COALk_HELD]
        omega
      · simp only [Reg.IRQ_COALk_CFG, Reg.IRQ_COALk_HELD]
        omega
    · exact .inr (Nat.le_of_not_lt hj)
  · unfold State.coalDeliver
    simp

theorem coalescerTimeout_delivers {s : State} (k : Fin 16) (hc : s.coalOf (s.f (Reg.IRQ_COALk_CFG k.val) 7 0) = some k.val) (ht : s.f (Reg.IRQ_COALk_TIME k.val) 15 0 ≠ 0)
    (hh : s.f (Reg.IRQ_COALk_HELD k.val) 7 0 ≠ 0) : Completes (.coalescerTimeout k) s fun t => t.f (Reg.IRQ_COALk_HELD k.val) 7 0 = 0 ∧
      t.f (Reg.IRQ_COALk_HELD k.val) 23 16 = s.f (Reg.IRQ_COALk_HELD k.val) 7 0 ∧ SameMemory s t := by
  obtain ⟨h0, h1, -, hm⟩ := State.coalDeliver_spec k.isLt (fld_lt (s.reg (Reg.IRQ_COALk_CFG k.val)) 7 0) s
  exact ⟨_, if_pos ⟨hc, ht, hh⟩, h0, h1, State.byte_congr hm⟩

theorem irqCoalCfgWrite_delivers {m : Acc} {s : State} (hm : m.debug = false) (k : Fin 16) (v : Word) (hoff : s.targetOff (Reg.IRQ_COALk_CFG k.val) = false)
    (hh : s.holders = [(k.val, s.f (Reg.IRQ_COALk_CFG k.val) 7 0)]) (hv : bitAt v 16 = false) :
        Completes (.irqCoalCfgWrite m k v) s fun t => t.reg (Reg.IRQ_COALk_CFG k.val) = v &&& 0x1FFFF ∧ t.f (Reg.IRQ_COALk_HELD k.val) 7 0 = 0 ∧
          t.f (Reg.IRQ_COALk_HELD k.val) 23 16 = s.f (Reg.IRQ_COALk_HELD k.val) 7 0 := by
  have hoffbit : (s.setReg (Reg.IRQ_COALk_CFG k.val) (v &&& 0x1FFFF)).bit (Reg.IRQ_COALk_CFG k.val) 16 = false := by
    rw [State.bit, State.reg_setReg_same, bitAt, BitVec.getLsbD_and, show v.getLsbD 16 = false from hv, Bool.false_and]
  have hno : ¬ (s.setReg (Reg.IRQ_COALk_CFG k.val) (v &&& 0x1FFFF)).coalOf (s.f (Reg.IRQ_COALk_CFG k.val) 7 0) = some k.val := fun e => by
    have h := List.find?_some e
    rw [hoffbit, Bool.false_and] at h
    exact absurd h Bool.false_ne_true
  have e : s.writeCoal k.val v = (s.setReg (Reg.IRQ_COALk_CFG k.val) (v &&& 0x1FFFF)).coalDeliver k.val (s.f (Reg.IRQ_COALk_CFG k.val) 7 0) := by
    rw [State.writeCoal, hh]
    exact if_neg hno
  obtain ⟨h0, h1, hcfg, -⟩ := State.coalDeliver_spec k.isLt (fld_lt (s.reg (Reg.IRQ_COALk_CFG k.val)) 7 0) (s.setReg (Reg.IRQ_COALk_CFG k.val) (v &&& 0x1FFFF))
  refine ⟨_, execIrqCoalCfgWrite_eq hm k hoff v, ?_⟩
  rw [e]
  refine ⟨((hcfg k.val).resolve_right (by omega)).trans (State.reg_setReg_same ..), h0, h1.trans (State.f_of_reg (State.reg_setReg_ne _ ?_ _) 7 0)⟩
  simp only [Reg.IRQ_COALk_CFG, Reg.IRQ_COALk_HELD]
  omega

theorem irqCoalCfgWrite_sets {m : Acc} {s : State} (hm : m.debug = false) (k : Fin 16) (v : Word) (hoff : s.targetOff (Reg.IRQ_COALk_CFG k.val) = false)
    (hh : s.holders = []) : Completes (.irqCoalCfgWrite m k v) s fun t => t.reg (Reg.IRQ_COALk_CFG k.val) = v &&& 0x1FFFF ∧
      SameRegsBut (fun a => a = Reg.IRQ_COALk_CFG k.val) s t ∧ SameMemory s t := by
  have e : s.writeCoal k.val v = s.setReg (Reg.IRQ_COALk_CFG k.val) (v &&& 0x1FFFF) := by
    rw [State.writeCoal, hh]
    rfl
  refine ⟨_, execIrqCoalCfgWrite_eq hm k hoff v, ?_⟩
  rw [e]
  exact ⟨State.reg_setReg_same .., fun a ha => State.reg_setReg_ne _ ha _, fun _ => rfl⟩

theorem irq_unpowered {m : Acc} {s : State} (hm : m.debug = false) (v : Word) (n : Fin 256) (k : Fin 16)
    (hoff : ∀ a ∈ [Reg.IRQ_RAISE, Reg.IRQ_CLR, Reg.IRQ_SRCs n.val, Reg.IRQ_COALk_CFG k.val], s.targetOff a = true) :
    ∀ c ∈ [Instr.irqRaise m v, .irqClr m v, .irqFbWrite m n v, .irqCoalCfgWrite m k v], Completes c s fun t =>
      t.answer = ⟨6, 0⟩ ∧ t.irq.active = s.irq.active ∧ SameMemory s t := by
  have hw : ∀ a, s.targetOff a = true → (s.askWrite m a v).answer = ⟨6, 0⟩ ∧ (s.askWrite m a v).irq.active = s.irq.active ∧ SameMemory s (s.askWrite m a v) :=
    fun a ha => ⟨(State.askWrite_unpowered v hm ha).answer, (State.pended_unpoweredWrite v hm ha).active, (State.askWrite_unpowered v hm ha).byte⟩
  simp only [List.mem_cons, List.not_mem_nil, or_false, forall_eq_or_imp, forall_eq] at hoff ⊢
  obtain ⟨h1, h2, h3, h4⟩ := hoff
  exact ⟨⟨_, rfl, hw _ h1⟩, ⟨_, rfl, hw _ h2⟩, ⟨_, rfl, hw _ h3⟩, ⟨_, rfl, hw _ h4⟩⟩

/-- Settles O37, clause by clause. -/
theorem interruptSources : Obligations.InterruptSources := by
  unfold Obligations.InterruptSources
  intro m s hm
  refine ⟨fun hoff => ⟨execIrqRaise_eq hm hoff, fun v n hn hp hc => irqRaise_arrives hm hoff hn hp hc⟩, fun hoff v => irqClr_clears hm hoff v, fun n v hoff => ?_,
    coalescerTimeout_delivers, fun k h => if_neg ?_, fun k v hoff => ⟨execIrqCoalCfgWrite_eq hm k hoff v, fun _ hh hv => irqCoalCfgWrite_delivers hm k v hoff hh hv⟩,
    fun v n k hoff => irq_unpowered hm v n k hoff, fun k v hoff hh => irqCoalCfgWrite_sets hm k v hoff hh, fun k hp hb => ⟨_, if_pos ⟨hp, hb⟩, ?_⟩, fun k h => if_neg ?_⟩
  · obtain ⟨h1, h2, h3, h4, h5, h6, h7⟩ := s.writeSrc_spec n.val v
    exact ⟨_, execIrqFbWrite_eq hm n hoff v, h1, h2, h3, h4, h5, h6, State.byte_congr h7⟩
  · rintro ⟨h1, h2, h3⟩
    exact h.elim (· h1) fun k => k.elim h2 h3
  · exact ⟨State.bit_setBit_same _ _ _ k.isLt, rfl, bitAt_putBit_same _ _ _ k.isLt, fun a ha => State.reg_setBit_ne _ ha _ _, fun _ => rfl⟩
  · rintro ⟨h1, h2⟩
    exact h.elim (fun k => h1 k) fun k => by simp [h2] at k

end Sys2Proof.Machine
end

section
/-! Timers: their registers, their steps and their captures (R390 to R394). -/

namespace Sys2Proof.Machine

/-! A register all of whose bits are plain RW. -/

theorem State.writeCoded_word {a : Nat} (h : (RegMap.find a).map (fun e => (e.1.rw, e.1.shm, e.1.w1c, e.1.w1s)) = some (0xFFFFFFFF, 0, 0, 0)) (s : State) (v : Word) :
    s.writeCoded a v = s.setReg a v := by
  rcases hf : RegMap.find a with - | ⟨r, i⟩
  · simp [hf] at h
  · rw [hf] at h
    simp only [Option.map_some, Option.some.injEq, Prod.mk.injEq] at h
    obtain ⟨hrw, hsh, hc, hs⟩ := h
    rw [State.writeCoded_plain hf hsh]
    have e : coded r (s.reg a) v = v := by
      rw [coded, hrw, hsh, hc, hs]
      simp
    rw [e]

/-! Where the accesses lead. -/

theorem arr_misfit {base stride n a : Nat} (h : (a - base) % stride ≠ 0) : arr base stride n a = none := by
  rw [arr, if_neg fun k => h k.2.1]

theorem find_tmrCnt (n : Fin 16) : (RegMap.find (Reg.TMRn_CNT n.val)).map (fun e => (e.1.rw, e.1.shm, e.1.w1c, e.1.w1s)) = some (0xFFFFFFFF, 0, 0, 0) := by
  revert n
  decide +kernel

theorem find_tmrCmp (n : Fin 16) : (RegMap.find (Reg.TMRn_CMP n.val)).map (fun e => (e.1.rw, e.1.shm, e.1.w1c, e.1.w1s)) = some (0xFFFFFFFF, 0, 0, 0) := by
  revert n
  decide +kernel

theorem find_tmrCap (n : Fin 16) : (RegMap.find (Reg.TMRn_CAP n.val)).map (fun e => e.1.shm) = some 0 := by
  revert n
  decide +kernel

theorem isNone_of_map {α β : Type} {o : Option α} {f : α → β} {b : β} (h : o.map f = some b) : o.isNone = false := by
  cases o <;> simp_all

theorem State.readCoded_plain {a : Nat} (h : (RegMap.find a).map (fun e => e.1.shm) = some 0) (s : State) : s.readCoded a = s.reg a := by
  rcases hf : RegMap.find a with - | ⟨r, i⟩
  · simp [hf] at h
  · rw [hf] at h
    simp only [Option.map_some, Option.some.injEq] at h
    exact State.readCoded_of_shm_zero hf h s

theorem blockOf_tmr {a : Nat} (h : 0x40100000 ≤ a) (h' : a < 0x40110000) : blockOf a = 16 := by
  unfold blockOf
  rw [if_pos (by omega)]
  omega

theorem regWord_tmr {a : Nat} (h : 0x40100000 ≤ a) (h' : a < 0x40110000) (h4 : a % 4 = 0) : RegWord a := by
  refine ⟨?_, h4, ?_⟩
  · simp only [inRegs, Bool.and_eq_true, decide_eq_true_eq]
    unfold regBase
    omega
  · unfold regEnd
    omega

theorem regProt_timer (m : Acc) {a : Nat} (h : 0x40100000 ≤ a) (h' : a < 0x40100440) (write : Bool) (v : Word) : regProt m a write v = false := by
  simp only [regProt, blockOf_tmr h (by omega : a < 0x40110000), decide_eq_false (by omega : ¬ 0x40100440 ≤ a), Bool.and_false, Bool.false_and]

theorem not_eventReg_tmr {a : Nat} (h : 0x40100000 ≤ a) (h' : a < 0x40110000) : ¬ eventReg a := by
  rw [eventReg, blockOf_tmr h h']
  decide

theorem not_mrcReg_tmr {a : Nat} (h' : a < 0x40110000) : ¬ mrcReg a := by
  unfold mrcReg
  omega

/-- A timer's register that holds a plain word. -/
theorem State.regWrite_timerWord {m : Acc} {a : Nat} (h : 0x40100100 ≤ a) (h' : a < 0x40100300) (hc : (a - 0x40100100) % 0x20 ≠ 0)
    (hf : (RegMap.find a).map (fun e => (e.1.rw, e.1.shm, e.1.w1c, e.1.w1s)) = some (0xFFFFFFFF, 0, 0, 0)) (s : State) (v : Word) : s.regWrite m a v = s.setReg a v := by
  have harr : arr (Reg.TMRn_CTRL 0) 0x20 16 a = none := arr_misfit hc
  rw [State.regWrite, if_neg (by simp [isNone_of_map hf]), blockOf_tmr (by omega) (by omega)]
  simp only [State.tmrWrite, if_pos (by omega : a < 0x40100400), harr]
  exact State.writeCoded_word hf s v

theorem State.valueOf_tmr {a : Nat} (h : 0x40100000 ≤ a) (h' : a < 0x40110000) (hf : (RegMap.find a).map (fun e => e.1.shm) = some 0) (s : State) :
    s.valueOf a = s.reg a := by
  have hsh : s.shown a = none := by
    simp only [State.shown, blockOf_tmr h h']
  rw [State.valueOf, hsh]
  exact State.readCoded_plain hf s

/-! One timer's registers are apart from each other and from those of the next timers. -/

section
variable {m : Acc} {s : State} (hm : m.debug = false) (n : Fin 16) (hoff : s.targetOff (Reg.TMRn_CNT n.val) = false)
include hm hoff

theorem State.askWrite_tmrCnt (v : Word) : s.askWrite m (Reg.TMRn_CNT n.val) v = (s.setReg (Reg.TMRn_CNT n.val) v).reply 0 0 := by
  have h1 : 0x40100100 ≤ Reg.TMRn_CNT n.val ∧ Reg.TMRn_CNT n.val < 0x40100300 ∧ (Reg.TMRn_CNT n.val - 0x40100100) % 0x20 ≠ 0 ∧ Reg.TMRn_CNT n.val % 4 = 0 := by
    simp only [Reg.TMRn_CNT]
    omega
  obtain ⟨h1, h2, h3, h4⟩ := h1
  rw [State.askWrite_word (.inl hm) hoff (regWord_tmr (by omega) (by omega) h4) (regProt_timer m (by omega) (by omega) _ _),
    State.regWrite_timerWord h1 h2 h3 (find_tmrCnt n)]

theorem State.askRead_tmrCnt : s.askRead m (Reg.TMRn_CNT n.val) = (s.cntCopies n.val).reply 0 (s.reg (Reg.TMRn_CNT n.val)) := by
  have h1 : 0x40100100 ≤ Reg.TMRn_CNT n.val ∧ Reg.TMRn_CNT n.val < 0x40100300 ∧ Reg.TMRn_CNT n.val % 4 = 0 ∧ Reg.TMRn_CNT n.val < 0x40180218 := by
    simp only [Reg.TMRn_CNT]
    omega
  obtain ⟨h1, h2, h4, h5⟩ := h1
  have hf : (RegMap.find (Reg.TMRn_CNT n.val)).map (fun e => e.1.shm) = some 0 := by
    have := find_tmrCnt n
    rcases hf : RegMap.find (Reg.TMRn_CNT n.val) with - | e <;> simp_all
  have harr : arr (Reg.TMRn_CNT 0) 0x20 16 (Reg.TMRn_CNT n.val) = some n.val := arr_eq (by decide) n.isLt (by simp only [Reg.TMRn_CNT, Nat.mul_zero, Nat.add_zero])
  have hafter : s.afterRead (Reg.TMRn_CNT n.val) = s.cntCopies n.val := by
    rw [State.afterRead, blockOf_tmr (by omega) (by omega)]
    simp only [harr]
  rw [State.askRead_word hm hoff (regWord_tmr (by omega) (by omega) h4) (regProt_timer m (by omega) (by omega) _ _) (arr_none (by decide) (.inl h5)), hafter,
    State.valueOf_tmr (by omega) (by omega) hf]

end

theorem State.askWrite_tmrCmp {m : Acc} {s : State} (hm : m.debug = false) (n : Fin 16) (hoff : s.targetOff (Reg.TMRn_CMP n.val) = false) (v : Word) :
    s.askWrite m (Reg.TMRn_CMP n.val) v = (s.setReg (Reg.TMRn_CMP n.val) v).reply 0 0 := by
  have h1 : 0x40100100 ≤ Reg.TMRn_CMP n.val ∧ Reg.TMRn_CMP n.val < 0x40100300 ∧ (Reg.TMRn_CMP n.val - 0x40100100) % 0x20 ≠ 0 ∧ Reg.TMRn_CMP n.val % 4 = 0 := by
    simp only [Reg.TMRn_CMP]
    omega
  obtain ⟨h1, h2, h3, h4⟩ := h1
  rw [State.askWrite_word (.inl hm) hoff (regWord_tmr (by omega) (by omega) h4) (regProt_timer m (by omega) (by omega) _ _),
    State.regWrite_timerWord h1 h2 h3 (find_tmrCmp n)]

theorem State.askRead_tmrCap {m : Acc} {s : State} (hm : m.debug = false) (n : Fin 16) (hoff : s.targetOff (Reg.TMRn_CAP n.val) = false) :
    s.askRead m (Reg.TMRn_CAP n.val) = (s.setBit (Reg.TMRn_STAT n.val) 2 false).reply 0 (s.reg (Reg.TMRn_CAP n.val)) := by
  have h1 : 0x40100100 ≤ Reg.TMRn_CAP n.val ∧ Reg.TMRn_CAP n.val < 0x40100300 ∧ Reg.TMRn_CAP n.val % 4 = 0 ∧ Reg.TMRn_CAP n.val < 0x40180218 ∧
      (Reg.TMRn_CAP n.val - Reg.TMRn_CNT 0) % 0x20 ≠ 0 := by
    simp only [Reg.TMRn_CAP, Reg.TMRn_CNT]
    omega
  obtain ⟨h1, h2, h4, h5, h6⟩ := h1
  have harr : arr (Reg.TMRn_CAP 0) 0x20 16 (Reg.TMRn_CAP n.val) = some n.val := arr_eq (by decide) n.isLt (by simp only [Reg.TMRn_CAP, Nat.mul_zero, Nat.add_zero])
  have hafter : s.afterRead (Reg.TMRn_CAP n.val) = s.setBit (Reg.TMRn_STAT n.val) 2 false := by
    rw [State.afterRead, blockOf_tmr (by omega) (by omega)]
    simp only [harr, arr_misfit h6]
  rw [State.askRead_word hm hoff (regWord_tmr (by omega) (by omega) h4) (regProt_timer m (by omega) (by omega) _ _) (arr_none (by decide) (.inl h5)), hafter,
    State.valueOf_tmr (by omega) (by omega) (find_tmrCap n)]

/-- The registers of one timer lie in one domain. -/
theorem State.targetOff_timer (s : State) (n : Fin 16) : s.targetOff (Reg.TMRn_CMP n.val) = s.targetOff (Reg.TMRn_CNT n.val) ∧
    s.targetOff (Reg.TMRn_CAP n.val) = s.targetOff (Reg.TMRn_CNT n.val) := by
  have h : ∀ o, o < 0x20 → s.targetOff (0x40100100 + o + 0x20 * n.val) = (decide (s.pwr.state = 5) && !decide (12 ≤ n.val)) := by
    intro o ho
    rw [State.targetOff, blockOf_tmr (by omega) (by omega)]
    have e : (decide (0x40100280 ≤ 0x40100100 + o + 0x20 * n.val) && decide (0x40100100 + o + 0x20 * n.val < 0x40100300)) = decide (12 ≤ n.val) := by
      rw [← Bool.decide_and]
      exact decide_eq_decide.mpr (by omega)
    rw [e, decide_eq_false (by omega : ¬ 0x40100440 ≤ 0x40100100 + o + 0x20 * n.val), decide_eq_false (by omega : ¬ 0x40100100 + o + 0x20 * n.val < 0x38010000)]
    simp
  have hcnt : s.targetOff (Reg.TMRn_CNT n.val) = (decide (s.pwr.state = 5) && !decide (12 ≤ n.val)) := h 8 (by decide)
  exact ⟨(h 0xC (by decide) : s.targetOff (Reg.TMRn_CMP n.val) = _).trans hcnt.symm, (h 0x10 (by decide) : s.targetOff (Reg.TMRn_CAP n.val) = _).trans hcnt.symm⟩

/-! Events of a timer. -/

/-- `t` is `s` after an event of timer `n`: its own status register, and what an arrival changes. -/
structure Clocked (n : Nat) (s t : State) : Prop where
  told : Told s t
  regs : ∀ a, ¬ eventReg a → a < Reg.TMRn_CTRL n → t.reg a = s.reg a

theorem Clocked.refl (n : Nat) (s : State) : Clocked n s s := ⟨.refl s, fun _ _ _ => rfl⟩

theorem Clocked.trans {n : Nat} {s t u : State} (h : Clocked n s t) (k : Clocked n t u) : Clocked n s u :=
  ⟨h.told.trans k.told, fun a ha hl => (k.regs a ha hl).trans (h.regs a ha hl)⟩

theorem Clocked.setReg {n a : Nat} (h : Reg.TMRn_CTRL n ≤ a) (v : Word) (s : State) : Clocked n s (s.setReg a v) :=
  ⟨.setReg .., fun b _ hb => State.reg_setReg_ne _ (by omega) _⟩

/-- What the interrupt and the master event of timer `n` leave alone. -/
theorem State.timerTold {n : Nat} (hn : n < 16) (bit : Nat) (s : State) : Told s ((s.timerIrq n bit).masterEvent n bit) ∧
    ∀ a, ¬ eventReg a → ((s.timerIrq n bit).masterEvent n bit).reg a = s.reg a := by
  have h1 : Told s (s.timerIrq n bit) ∧ ∀ a, ¬ eventReg a → (s.timerIrq n bit).reg a = s.reg a := by
    unfold State.timerIrq
    split
    · exact ⟨State.told_arrive .., fun a ha => State.reg_arrive (by omega) ha s⟩
    · exact ⟨.refl s, fun _ _ => rfl⟩
  have h2 : ∀ u : State, Told u (u.masterEvent n bit) ∧ ∀ a, (u.masterEvent n bit).reg a = u.reg a := by
    intro u
    unfold State.masterEvent
    split
    · exact ⟨.refl u, fun _ => rfl⟩
    · exact ⟨⟨_, u.evr, _, u.pwr.waking, rfl⟩, fun _ => rfl⟩
  exact ⟨h1.1.trans (h2 _).1, fun a ha => ((h2 _).2 a).trans (h1.2 a ha)⟩

/-- An overflow (bit 0, output low) or a match (bit 1, output high) of timer `n`. -/
def State.timerEvent (n bit : Nat) (level : Bool) (s : State) : State :=
  (((s.setBit (Reg.TMRn_STAT n) bit true).setBit (Reg.TMRn_STAT n) 8 level).timerIrq n bit).masterEvent n bit

theorem not_eventReg_timer {n o : Nat} (hn : n < 16) (ho : o < 0x20) : ¬ eventReg (0x40100100 + o + 0x20 * n) := not_eventReg_tmr (by omega) (by omega)

theorem State.timerEvent_spec {n : Nat} (hn : n < 16) {bit : Nat} (hb : bit < 8) (level : Bool) (s : State) : Clocked n s (s.timerEvent n bit level) ∧
    (s.timerEvent n bit level).reg (Reg.TMRn_CNT n) = s.reg (Reg.TMRn_CNT n) ∧ (s.timerEvent n bit level).bit (Reg.TMRn_STAT n) bit = true ∧
    ∀ i, i < 8 → s.bit (Reg.TMRn_STAT n) i = true → (s.timerEvent n bit level).bit (Reg.TMRn_STAT n) i = true := by
  obtain ⟨ht, hr⟩ := State.timerTold hn bit ((s.setBit (Reg.TMRn_STAT n) bit true).setBit (Reg.TMRn_STAT n) 8 level)
  have hstat : ¬ eventReg (Reg.TMRn_STAT n) := not_eventReg_timer (o := 0x18) hn (by decide)
  have hcnt : ¬ eventReg (Reg.TMRn_CNT n) := not_eventReg_timer (o := 8) hn (by decide)
  have hne : Reg.TMRn_CNT n ≠ Reg.TMRn_STAT n := by
    simp only [Reg.TMRn_CNT, Reg.TMRn_STAT]
    omega
  refine ⟨⟨((Told.setReg ..).trans (.setReg ..)).trans ht, fun a ha hl => (hr a ha).trans ?_⟩, (hr _ hcnt).trans ?_, (State.bit_of_reg (hr _ hstat) bit).trans ?_,
    fun i hi h => (State.bit_of_reg (hr _ hstat) i).trans ?_⟩
  · have hlt : a ≠ Reg.TMRn_STAT n := by
      simp only [Reg.TMRn_CTRL, Reg.TMRn_STAT] at hl ⊢
      omega
    exact (State.reg_setBit_ne _ hlt _ _).trans (State.reg_setBit_ne _ hlt _ _)
  · exact (State.reg_setBit_ne _ hne _ _).trans (State.reg_setBit_ne _ hne _ _)
  · exact (State.bit_setBit_ne _ _ _ (by omega)).trans (State.bit_setBit_same _ _ _ (by omega))
  · refine (State.bit_setBit_ne _ _ _ (by omega)).trans ?_
    by_cases hib : i = bit
    · rw [hib]
      exact State.bit_setBit_same _ _ _ (by omega)
    · exact (State.bit_setBit_ne _ _ _ hib).trans h

/-! Steps (R390 to R392). -/

/-- The value that a step reaches, and whether it wraps there. -/
def State.timerLast (s : State) (n : Nat) : Word := if s.bit (Reg.TMRn_CTRL n) 2 then 0xFFFFFFFF#32 else s.reg (Reg.TMRn_PER n) - 1
def State.timerNew (s : State) (n : Nat) : Word := if decide (s.reg (Reg.TMRn_CNT n) = s.timerLast n) then 0 else s.reg (Reg.TMRn_CNT n) + 1

def State.timerHit (s : State) (n : Nat) : Bool :=
  decide (s.timerNew n = s.reg (Reg.TMRn_CMP n)) && (s.bit (Reg.TMRn_CTRL n) 2 || decide ((s.reg (Reg.TMRn_CMP n)).toNat < (s.reg (Reg.TMRn_PER n)).toNat))

/-- The count is stepped, with the compare value in force. -/
def State.timerCounted (s : State) (n : Nat) : State :=
  ({ s with irq := { s.irq with cmpInForce := Sparse.set (fun _ => 0) s.irq.cmpInForce n (s.reg (Reg.TMRn_CMP n)) } } : State).setReg (Reg.TMRn_CNT n) (s.timerNew n)

def State.timerWrapped (s : State) (n : Nat) (b : Bool) : State := if b then s.timerEvent n 0 false else s
def State.timerMatched (s : State) (n : Nat) (b : Bool) : State := if b then s.timerEvent n 1 true else s

theorem State.timerStep_succ (k n : Nat) (s : State) : s.timerStep (k + 1) n =
    if !s.timerRuns n then s else
    if decide (s.reg (Reg.TMRn_CNT n) = s.timerLast n) = true ∧ n + 1 < 16 ∧
        (((s.timerCounted n).timerWrapped n (decide (s.reg (Reg.TMRn_CNT n) = s.timerLast n))).timerMatched n (s.timerHit n)).f (Reg.TMRn_CTRL (n + 1)) 1 0 = 2 then
      State.timerStep k (n + 1) (((s.timerCounted n).timerWrapped n (decide (s.reg (Reg.TMRn_CNT n) = s.timerLast n))).timerMatched n (s.timerHit n))
    else ((s.timerCounted n).timerWrapped n (decide (s.reg (Reg.TMRn_CNT n) = s.timerLast n))).timerMatched n (s.timerHit n) := rfl

theorem State.told_timerCounted (s : State) (n : Nat) : Told s (s.timerCounted n) := ⟨_, s.evr, _, s.pwr.waking, rfl⟩

theorem State.reg_timerCounted (s : State) {n a : Nat} (h : a ≠ Reg.TMRn_CNT n) : (s.timerCounted n).reg a = s.reg a :=
  State.reg_setReg_ne { s with irq := { s.irq with cmpInForce := Sparse.set (fun _ => 0) s.irq.cmpInForce n (s.reg (Reg.TMRn_CMP n)) } } h _

theorem State.ticked_wrapped {n : Nat} (hn : n < 16) (b : Bool) (s : State) : Clocked n s (s.timerWrapped n b) := by
  unfold State.timerWrapped
  split
  · exact (State.timerEvent_spec hn (by decide) _ s).1
  · exact .refl n s

theorem State.ticked_matched {n : Nat} (hn : n < 16) (b : Bool) (s : State) : Clocked n s (s.timerMatched n b) := by
  unfold State.timerMatched
  split
  · exact (State.timerEvent_spec hn (by decide) _ s).1
  · exact .refl n s

/-- A step of timer `n` and of the timers chained after it leaves the registers of those before it. -/
theorem State.ticked_timerStep (k : Nat) {n : Nat} (hn : n < 16) (s : State) : Clocked n s (s.timerStep k n) := by
  induction k generalizing n s with
  | zero => exact .refl n s
  | succ k ih =>
    rw [State.timerStep_succ]
    split
    · exact .refl n s
    · have h1 : Clocked n s (s.timerCounted n) := ⟨s.told_timerCounted n, fun a _ hl => s.reg_timerCounted (by simp only [Reg.TMRn_CTRL, Reg.TMRn_CNT] at hl ⊢; omega)⟩
      have h2 := (h1.trans (State.ticked_wrapped hn (decide (s.reg (Reg.TMRn_CNT n) = s.timerLast n)) _)).trans (State.ticked_matched hn (s.timerHit n) _)
      split
      · next hnext =>
          have h3 := ih hnext.2.1 (((s.timerCounted n).timerWrapped n (decide (s.reg (Reg.TMRn_CNT n) = s.timerLast n))).timerMatched n (s.timerHit n))
          exact h2.trans ⟨h3.told, fun a ha hl => h3.regs a ha (by simp only [Reg.TMRn_CTRL] at hl ⊢; omega)⟩
      · exact h2

section
variable {n : Nat} {s : State}

theorem State.timerStep_stopped (k : Nat) (h : s.timerRuns n = false) : s.timerStep k n = s := by
  cases k with
  | zero => rfl
  | succ k => rw [State.timerStep_succ, if_pos (by simp [h])]

/-- A full-range timer that neither wraps nor meets its compare value only counts. -/
theorem State.timerStep_counts (k : Nat) (hr : s.timerRuns n = true) (hfull : s.bit (Reg.TMRn_CTRL n) 2 = true) (hcnt : s.reg (Reg.TMRn_CNT n) ≠ 0xFFFFFFFF)
    (hcmp : s.reg (Reg.TMRn_CMP n) ≠ s.reg (Reg.TMRn_CNT n) + 1) : s.timerStep (k + 1) n = s.timerCounted n ∧ s.timerNew n = s.reg (Reg.TMRn_CNT n) + 1 := by
  have hw : decide (s.reg (Reg.TMRn_CNT n) = s.timerLast n) = false := by
    rw [State.timerLast, if_pos hfull]
    exact decide_eq_false hcnt
  have hnew : s.timerNew n = s.reg (Reg.TMRn_CNT n) + 1 := by
    rw [State.timerNew, hw]
    rfl
  have hh : s.timerHit n = false := by
    rw [State.timerHit, hnew, decide_eq_false (Ne.symm hcmp), Bool.false_and]
  refine ⟨?_, hnew⟩
  rw [State.timerStep_succ, if_neg (by simp [hr]), hw, hh, if_neg (by simp)]
  rfl

/-- A full-range timer wraps from its last value to zero, with OVF. -/
theorem State.timerStep_wraps (k : Nat) (hn : n < 16) (hr : s.timerRuns n = true) (hfull : s.bit (Reg.TMRn_CTRL n) 2 = true) (hcnt : s.reg (Reg.TMRn_CNT n) = 0xFFFFFFFF) :
    (s.timerStep (k + 1) n).reg (Reg.TMRn_CNT n) = 0 ∧ (s.timerStep (k + 1) n).bit (Reg.TMRn_STAT n) 0 = true := by
  have hw : decide (s.reg (Reg.TMRn_CNT n) = s.timerLast n) = true := by
    rw [State.timerLast, if_pos hfull]
    exact decide_eq_true hcnt
  have hnew : (s.timerCounted n).reg (Reg.TMRn_CNT n) = 0 := by
    refine (State.reg_setReg_same ..).trans ?_
    rw [State.timerNew, hw]
    rfl
  obtain ⟨-, wcnt, wbit, -⟩ := State.timerEvent_spec hn (bit := 0) (by decide) false (s.timerCounted n)
  have hs : (((s.timerCounted n).timerWrapped n true).timerMatched n (s.timerHit n)).reg (Reg.TMRn_CNT n) = 0 ∧
      (((s.timerCounted n).timerWrapped n true).timerMatched n (s.timerHit n)).bit (Reg.TMRn_STAT n) 0 = true := by
    cases s.timerHit n
    · exact ⟨wcnt.trans hnew, wbit⟩
    · obtain ⟨-, mcnt, -, mbit⟩ := State.timerEvent_spec hn (bit := 1) (by decide) true ((s.timerCounted n).timerEvent n 0 false)
      exact ⟨mcnt.trans (wcnt.trans hnew), mbit 0 (by decide) wbit⟩
  rw [State.timerStep_succ, if_neg (by simp [hr]), hw]
  split
  · next hnext =>
      have h3 := State.ticked_timerStep k hnext.2.1 (((s.timerCounted n).timerWrapped n true).timerMatched n (s.timerHit n))
      have hc := h3.regs _ (not_eventReg_timer (o := 8) hn (by decide)) (by simp only [Reg.TMRn_CTRL]; omega)
      have hb := h3.regs _ (not_eventReg_timer (o := 0x18) hn (by decide)) (by simp only [Reg.TMRn_CTRL]; omega)
      exact ⟨hc.trans hs.1, (State.bit_of_reg hb 0).trans hs.2⟩
  · exact hs

/-! Captures (R394). -/

theorem State.capture_none {sel : Nat} (hk : sel = s.f (Reg.TMRn_IEN n) 15 8) (h : sel = 0 ∨ sel = 6 ∨ sel = 7 ∨ 15 < sel) : s.capture n = s := by
  subst hk
  exact if_pos h

theorem State.capture_spec {sel : Nat} (hn : n < 16) (hk : sel = s.f (Reg.TMRn_IEN n) 15 8) (h0 : sel ≠ 0) (h6 : sel ≠ 6) (h7 : sel ≠ 7) (h15 : sel ≤ 15) :
    Told s (s.capture n) ∧ (s.capture n).reg (Reg.TMRn_CAP n) = s.reg (Reg.TMRn_CNT n) ∧ (s.capture n).bit (Reg.TMRn_STAT n) 2 = true ∧
      (s.capture n).bit (Reg.TMRn_STAT n) 3 = (s.bit (Reg.TMRn_STAT n) 3 || s.bit (Reg.TMRn_STAT n) 2) := by
  subst hk
  have e : s.capture n = (((((if s.bit (Reg.TMRn_STAT n) 2 then s.setBit (Reg.TMRn_STAT n) 3 true else s).setReg (Reg.TMRn_CAP n) (s.reg (Reg.TMRn_CNT n))).setBit
      (Reg.TMRn_STAT n) 2 true).timerIrq n 2).masterEvent n 2) := if_neg (by omega)
  rw [e]
  have hu : Told s (if s.bit (Reg.TMRn_STAT n) 2 then s.setBit (Reg.TMRn_STAT n) 3 true else s) ∧
      (if s.bit (Reg.TMRn_STAT n) 2 then s.setBit (Reg.TMRn_STAT n) 3 true else s).bit (Reg.TMRn_STAT n) 3 = (s.bit (Reg.TMRn_STAT n) 3 || s.bit (Reg.TMRn_STAT n) 2) := by
    split
    · next h => exact ⟨.setReg .., by rw [State.bit_setBit_same _ _ _ (by decide), h, Bool.or_true]⟩
    · next h => exact ⟨.refl s, by rw [Bool.eq_false_iff.mpr h, Bool.or_false]⟩
  revert hu
  generalize (if s.bit (Reg.TMRn_STAT n) 2 then s.setBit (Reg.TMRn_STAT n) 3 true else s) = u
  intro hu
  obtain ⟨ht, hr⟩ := State.timerTold hn 2 ((u.setReg (Reg.TMRn_CAP n) (s.reg (Reg.TMRn_CNT n))).setBit (Reg.TMRn_STAT n) 2 true)
  have hstat := hr (Reg.TMRn_STAT n) (not_eventReg_timer (o := 0x18) hn (by decide))
  have hcap := hr (Reg.TMRn_CAP n) (not_eventReg_timer (o := 0x10) hn (by decide))
  have hne : Reg.TMRn_CAP n ≠ Reg.TMRn_STAT n := by
    simp only [Reg.TMRn_CAP, Reg.TMRn_STAT]
    omega
  refine ⟨(hu.1.trans ((Told.setReg ..).trans (.setReg ..))).trans ht, hcap.trans ((State.reg_setBit_ne _ hne _ _).trans (State.reg_setReg_same ..)),
    (State.bit_of_reg hstat 2).trans (State.bit_setBit_same _ _ _ (by decide)), ?_⟩
  exact (State.bit_of_reg hstat 3).trans ((State.bit_setBit_ne _ _ _ (by decide)).trans ((State.bit_of_reg (State.reg_setReg_ne _ hne.symm _) 3).trans hu.2))

end

/-- Reading the count copies that of the timer chained above (R392). -/
theorem State.cntCopies_hold {n : Nat} {s : State} (hn : n < 15) (h : s.f (Reg.TMRn_CTRL (n + 1)) 1 0 = 2) :
    (s.cntCopies n).reg (Reg.TMRn_HOLD (n + 1)) = s.reg (Reg.TMRn_CNT (n + 1)) := by
  have hup : (decide (n + 1 < 16) && decide (s.f (Reg.TMRn_CTRL (n + 1)) 1 0 = 2)) = true := by
    rw [h, decide_eq_true (by omega : n + 1 < 16)]
    rfl
  unfold State.cntCopies
  dsimp only
  rw [if_pos hup]
  split
  · refine (State.reg_setReg_ne _ ?_ _).trans (State.reg_setReg_same ..)
    simp only [Reg.TMRn_HOLD]
    omega
  · exact State.reg_setReg_same ..

/-! Timers. -/

section
variable {n : Fin 16} {s : State} (h : 12 ≤ n.val ∨ s.frozen = false)
include h

theorem timer_clocked : ¬ (decide (n.val < 12) && s.frozen) = true := by
  rcases h with h | h
  · simp [Nat.not_lt.mpr h]
  · simp [h]

theorem execTimerTick_eq : exec (.timerTick n) s = .next (if s.f (Reg.TMRn_CTRL n.val) 1 0 ≤ 1 then s.timerStep 16 n.val else s) := if_neg (timer_clocked h)

theorem execTimerCapture_eq : exec (.timerCapture n) s = .next (s.capture n.val) := if_neg (timer_clocked h)

/-- The master event is used up. -/
def State.masterTaken (n : Nat) (s : State) : State := { s with irq := { s.irq with masterDue := s.irq.masterDue.filter fun m => decide (m ≠ n) } }

theorem execTimerMasterEvent_eq (hd : n.val ∈ s.irq.masterDue) : exec (.timerMasterEvent n) s = .next (
    if s.f (Reg.TMRn_CTRL n.val) 21 20 = 2 then (s.masterTaken n.val).setReg (Reg.TMRn_CNT n.val) 0
    else if s.f (Reg.TMRn_CTRL n.val) 1 0 = 3 then (s.masterTaken n.val).timerStep 16 n.val else s.masterTaken n.val) :=
  (if_neg (timer_clocked h)).trans (if_pos hd)

end

theorem not_mem_masterTaken (n : Nat) (s : State) : n ∉ (s.masterTaken n).irq.masterDue := by
  simp [State.masterTaken]

theorem State.masterDue_timerCounted (n : Nat) (s : State) : (s.timerCounted n).irq.masterDue = s.irq.masterDue := rfl

theorem timer_frozen {n : Fin 16} {s : State} (hn : n.val < 12) (h : s.frozen = true) :
    exec (.timerTick n) s = .next s ∧ exec (.timerMasterEvent n) s = .next s ∧ exec (.timerCapture n) s = .next s := by
  have hf : (decide (n.val < 12) && s.frozen) = true := by rw [h, decide_eq_true hn]; rfl
  exact ⟨if_pos hf, if_pos hf, if_pos hf⟩

section
variable {n : Fin 16} {s : State}

theorem timerTick_counts (h : 12 ≤ n.val ∨ s.frozen = false) (hsel : s.f (Reg.TMRn_CTRL n.val) 1 0 ≤ 1) (hr : s.timerRuns n.val = true)
    (hfull : s.bit (Reg.TMRn_CTRL n.val) 2 = true) :
      (s.reg (Reg.TMRn_CNT n.val) ≠ 0xFFFFFFFF → s.reg (Reg.TMRn_CMP n.val) ≠ s.reg (Reg.TMRn_CNT n.val) + 1 → Completes (.timerTick n) s fun t =>
        t.reg (Reg.TMRn_CNT n.val) = s.reg (Reg.TMRn_CNT n.val) + 1 ∧ SameRegsBut (fun a => a = Reg.TMRn_CNT n.val) s t ∧ SameMemory s t) ∧
      (s.reg (Reg.TMRn_CNT n.val) = 0xFFFFFFFF → Completes (.timerTick n) s fun t => t.reg (Reg.TMRn_CNT n.val) = 0 ∧
        t.bit (Reg.TMRn_STAT n.val) 0 = true ∧ SameMemory s t) := by
  have e : exec (.timerTick n) s = .next (s.timerStep 16 n.val) := (execTimerTick_eq h).trans (congrArg _ (if_pos hsel))
  refine ⟨fun hcnt hcmp => ⟨_, e, ?_⟩, fun hcnt => ⟨_, e, ?_⟩⟩
  · obtain ⟨e1, e2⟩ := State.timerStep_counts 15 hr hfull hcnt hcmp
    rw [e1]
    exact ⟨(State.reg_setReg_same ..).trans e2, fun a ha => State.reg_timerCounted s ha, State.byte_congr (s.told_timerCounted n.val).mem⟩
  · obtain ⟨h1, h2⟩ := State.timerStep_wraps 15 n.isLt hr hfull hcnt
    exact ⟨h1, h2, State.byte_congr (State.ticked_timerStep 16 n.isLt s).told.mem⟩

theorem timerTick_still (h : 12 ≤ n.val ∨ s.frozen = false) (hs : 2 ≤ s.f (Reg.TMRn_CTRL n.val) 1 0 ∨ s.timerRuns n.val = false) : exec (.timerTick n) s = .next s := by
  refine (execTimerTick_eq h).trans (congrArg _ ?_)
  rcases hs with hs | hs
  · exact if_neg (by omega)
  · rw [State.timerStep_stopped 16 hs, ite_self]

theorem timerMasterEvent_counts (h : 12 ≤ n.val ∨ s.frozen = false) (hd : n.val ∈ s.irq.masterDue) (h2 : s.f (Reg.TMRn_CTRL n.val) 21 20 ≠ 2)
    (h3 : s.f (Reg.TMRn_CTRL n.val) 1 0 = 3) (hr : s.timerRuns n.val = true) (hfull : s.bit (Reg.TMRn_CTRL n.val) 2 = true)
    (hcnt : s.reg (Reg.TMRn_CNT n.val) ≠ 0xFFFFFFFF) (hcmp : s.reg (Reg.TMRn_CMP n.val) ≠ s.reg (Reg.TMRn_CNT n.val) + 1) :
    Completes (.timerMasterEvent n) s fun t => t.reg (Reg.TMRn_CNT n.val) = s.reg (Reg.TMRn_CNT n.val) + 1 ∧ n.val ∉ t.irq.masterDue := by
  obtain ⟨e1, e2⟩ := State.timerStep_counts (s := s.masterTaken n.val) 15 hr hfull hcnt hcmp
  refine ⟨_, (execTimerMasterEvent_eq h hd).trans (congrArg _ ((if_neg h2).trans ((if_pos h3).trans e1))), (State.reg_setReg_same ..).trans e2, ?_⟩
  rw [State.masterDue_timerCounted]
  exact not_mem_masterTaken n.val s

end

section
variable {m : Acc} {n : Fin 16} {s : State} (hm : m.debug = false)
include hm

theorem timer_unpowered (hoff : s.targetOff (Reg.TMRn_CNT n.val) = true) (v : Word) : ∀ c ∈ [Instr.tmrCntRead m n, .tmrCntWrite m n v, .tmrCmpWrite m n v false, .tmrCapRead m n false],
      Completes c s fun t => t.answer = ⟨6, 0⟩ ∧ t.reg (Reg.TMRn_CNT n.val) = s.reg (Reg.TMRn_CNT n.val) ∧
        t.reg (Reg.TMRn_CMP n.val) = s.reg (Reg.TMRn_CMP n.val) ∧ SameMemory s t := by
  obtain ⟨hcmp, hcap⟩ := s.targetOff_timer n
  have hall : ∀ t, Refused 6 s t → t.answer = ⟨6, 0⟩ ∧ t.reg (Reg.TMRn_CNT n.val) = s.reg (Reg.TMRn_CNT n.val) ∧
        t.reg (Reg.TMRn_CMP n.val) = s.reg (Reg.TMRn_CMP n.val) ∧ SameMemory s t := fun t ht =>
    ⟨ht.answer, ht.regs _ (not_eventReg_timer (o := 8) n.isLt (by decide)) (not_mrcReg_tmr (by simp only [Reg.TMRn_CNT]; omega)),
      ht.regs _ (not_eventReg_timer (o := 0xC) n.isLt (by decide)) (not_mrcReg_tmr (by simp only [Reg.TMRn_CMP]; omega)), ht.byte⟩
  simp only [List.mem_cons, List.not_mem_nil, or_false, forall_eq_or_imp, forall_eq]
  exact ⟨⟨_, rfl, hall _ (State.askRead_unpowered hm hoff)⟩, ⟨_, rfl, hall _ (State.askWrite_unpowered v hm hoff)⟩,
    ⟨_, rfl, hall _ (State.askWrite_unpowered v hm (hcmp.trans hoff))⟩, ⟨_, rfl, hall _ (State.askRead_unpowered hm (hcap.trans hoff))⟩⟩

variable (hoff : s.targetOff (Reg.TMRn_CNT n.val) = false)
include hoff

theorem tmrCntRead_answers : Completes (.tmrCntRead m n) s fun t => t.answer = ⟨0, s.reg (Reg.TMRn_CNT n.val)⟩ ∧ (n.val < 15 → s.f (Reg.TMRn_CTRL (n.val + 1)) 1 0 = 2 →
      t.reg (Reg.TMRn_HOLD (n.val + 1)) = s.reg (Reg.TMRn_CNT (n.val + 1))) ∧ SameMemory s t :=
  ⟨_, congrArg Host.Outcome.next (State.askRead_tmrCnt hm n hoff), rfl, fun hn h => State.cntCopies_hold hn h, State.byte_congr (State.mem_cntCopies n.val s)⟩

theorem tmrCmpWrite_ticked (v : Word) : Completes (.tmrCmpWrite m n v true) s fun t => t.reg (Reg.TMRn_CMP n.val) = v ∧
    t.reg (Reg.TMRn_CNT n.val) = (s.timerStep 16 n.val).reg (Reg.TMRn_CNT n.val) := by
  have hst : (s.timerStep 16 n.val).pwr.state = s.pwr.state := by
    obtain ⟨_, _, _, _, e⟩ := (State.ticked_timerStep 16 n.isLt s).told
    rw [e]
  have hoff' : (s.timerStep 16 n.val).targetOff (Reg.TMRn_CMP n.val) = false := (State.targetOff_congr hst _).trans ((s.targetOff_timer n).1.trans hoff)
  refine ⟨_, congrArg Host.Outcome.next (State.askWrite_tmrCmp hm n hoff' v), State.reg_setReg_same .., State.reg_setReg_ne _ ?_ _⟩
  simp only [Reg.TMRn_CNT, Reg.TMRn_CMP]
  omega

theorem tmrCapRead_edge {k : Nat} (hk : k = s.f (Reg.TMRn_IEN n.val) 15 8) (h0 : k ≠ 0) (h6 : k ≠ 6) (h7 : k ≠ 7) (h15 : k ≤ 15) : Completes (.tmrCapRead m n true) s fun t =>
        t.answer = ⟨0, s.reg (Reg.TMRn_CAP n.val)⟩ ∧ t.bit (Reg.TMRn_STAT n.val) 2 = true ∧ t.reg (Reg.TMRn_CAP n.val) = s.reg (Reg.TMRn_CNT n.val) := by
  have hsel : k = ((s.setBit (Reg.TMRn_STAT n.val) 2 false).reply 0 (s.reg (Reg.TMRn_CAP n.val))).f (Reg.TMRn_IEN n.val) 15 8 := by
    refine hk.trans (State.f_of_reg (State.reg_setBit_ne _ ?_ _ _) 15 8).symm
    simp only [Reg.TMRn_IEN, Reg.TMRn_STAT]
    omega
  obtain ⟨ht, hcap, hstat, -⟩ := State.capture_spec n.isLt hsel h0 h6 h7 h15
  have e : exec (.tmrCapRead m n true) s = .next ((s.askRead m (Reg.TMRn_CAP n.val)).capture n.val) := rfl
  rw [State.askRead_tmrCap hm n ((s.targetOff_timer n).2.trans hoff)] at e
  refine ⟨_, e, ht.answer, hstat, hcap.trans (State.reg_setBit_ne _ ?_ _ _)⟩
  simp only [Reg.TMRn_CNT, Reg.TMRn_STAT]
  omega

end

theorem timerMasterEvent_clauses (n : Fin 16) (s : State) :
    (n.val ∈ s.irq.masterDue → 12 ≤ n.val ∨ s.frozen = false → s.f (Reg.TMRn_CTRL n.val) 21 20 = 2 → Completes (.timerMasterEvent n) s fun t =>
      t.reg (Reg.TMRn_CNT n.val) = 0 ∧ n.val ∉ t.irq.masterDue ∧ SameRegsBut (fun a => a = Reg.TMRn_CNT n.val) s t ∧ SameMemory s t) ∧
    (n.val ∈ s.irq.masterDue → 12 ≤ n.val ∨ s.frozen = false → s.f (Reg.TMRn_CTRL n.val) 21 20 ≠ 2 → s.f (Reg.TMRn_CTRL n.val) 1 0 ≠ 3 →
      Completes (.timerMasterEvent n) s fun t => t.regs = s.regs ∧ n.val ∉ t.irq.masterDue) ∧
    (n.val ∉ s.irq.masterDue → exec (.timerMasterEvent n) s = .next s) := by
  refine ⟨fun hd h h2 => ⟨_, (execTimerMasterEvent_eq h hd).trans (congrArg _ (if_pos h2)), State.reg_setReg_same .., not_mem_masterTaken n.val s,
      fun a ha => State.reg_setReg_ne (s.masterTaken n.val) ha _, fun _ => rfl⟩,
    fun hd h h2 h3 => ⟨_, (execTimerMasterEvent_eq h hd).trans (congrArg _ ((if_neg h2).trans (if_neg h3))), rfl, not_mem_masterTaken n.val s⟩, fun hd => ?_⟩
  show execTimerMasterEvent n s = _
  unfold execTimerMasterEvent
  rw [if_neg hd, ite_self]

/-! Watchdogs. -/

theorem find_wdg (w : Fin 3) : (RegMap.find (wdgReg w.val 0)).isNone = false ∧ (RegMap.find (wdgReg w.val 0xC)).isNone = false := by
  revert w
  decide +kernel

theorem State.tmrWrite_wdg {m : Acc} {w : Nat} (s : State) (v : Word) : s.tmrWrite m (wdgReg w 0) v = s.writeWdgCtrl w v (m.debug && decide (2 ≤ s.sec.level)) ∧
    s.tmrWrite m (wdgReg w 0xC) v = s.writeWdgKey w v := by
  have h : ∀ o, o < 0x20 → ¬ wdgReg w o < 0x40100400 ∧ (wdgReg w o - 0x40100400) / 0x20 = w ∧ (wdgReg w o - 0x40100400) % 0x20 = o := by
    intro o ho
    unfold wdgReg
    omega
  obtain ⟨a1, a2, a3⟩ := h 0 (by decide)
  obtain ⟨b1, b2, b3⟩ := h 0xC (by decide)
  unfold State.tmrWrite
  rw [if_neg a1, if_neg b1]
  simp only [a2, a3, b2, b3, and_self]

theorem regProt_wdg {m : Acc} {w : Fin 3} (ha : w.val < 2 ∨ m.alle = true) {o : Nat} (ho : o < 0x20) (write : Bool) (v : Word) : regProt m (wdgReg w.val o) write v = false := by
  have hr : 0x40100000 ≤ wdgReg w.val o ∧ wdgReg w.val o < 0x40110000 := by unfold wdgReg; omega
  simp only [regProt, blockOf_tmr hr.1 hr.2]
  rcases ha with h | h
  · have hlt : ¬ 0x40100440 ≤ wdgReg w.val o := by unfold wdgReg; omega
    rw [decide_eq_false hlt, Bool.and_false, Bool.false_and]
  · rw [h]
    rfl

section
variable {m : Acc} {w : Fin 3} {s : State} (hm : m.debug = false)
include hm

theorem wdg_askWrite (ha : w.val < 2 ∨ m.alle = true) (hoff : s.targetOff (wdgReg w.val 0) = false) (v : Word) :
    s.askWrite m (wdgReg w.val 0) v = (s.writeWdgCtrl w.val v false).reply 0 0 ∧ s.askWrite m (wdgReg w.val 0xC) v = (s.writeWdgKey w.val v).reply 0 0 := by
  have hr : ∀ o, o < 0x20 → o % 4 = 0 → 0x40100000 ≤ wdgReg w.val o ∧ wdgReg w.val o < 0x40110000 ∧ RegWord (wdgReg w.val o) := by
    intro o ho h4
    refine ⟨?_, ?_, regWord_tmr ?_ ?_ ?_⟩ <;> (unfold wdgReg; omega)
  have hoff' : s.targetOff (wdgReg w.val 0xC) = false := by
    match w with
    | 0 | 1 | 2 => exact hoff
  obtain ⟨h1, h2, h3⟩ := hr 0 (by decide) (by decide)
  obtain ⟨k1, k2, k3⟩ := hr 0xC (by decide) (by decide)
  obtain ⟨e1, e2⟩ := State.tmrWrite_wdg (m := m) (w := w.val) s v
  rw [State.askWrite_word (.inl hm) hoff h3 (regProt_wdg ha (by decide) _ _), State.askWrite_word (.inl hm) hoff' k3 (regProt_wdg ha (by decide) _ _)]
  have r1 : s.regWrite m (wdgReg w.val 0) v = s.tmrWrite m (wdgReg w.val 0) v := by
    simp only [State.regWrite, (find_wdg w).1, blockOf_tmr h1 h2, Bool.false_eq_true, if_false]
  have r2 : s.regWrite m (wdgReg w.val 0xC) v = s.tmrWrite m (wdgReg w.val 0xC) v := by
    simp only [State.regWrite, (find_wdg w).2, blockOf_tmr k1 k2, Bool.false_eq_true, if_false]
  rw [r1, r2, e1, e2, hm]
  exact ⟨rfl, rfl⟩

end

theorem State.keyOpen_setKey (w : Nat) (b : Bool) (s : State) : (s.setKey w b).keyOpen w = b := by
  unfold State.setKey State.keyOpen
  split_ifs <;> rfl

theorem State.setKey_frame (w : Nat) (b : Bool) (s : State) : (s.setKey w b).regs = s.regs ∧ (s.setKey w b).mem = s.mem := by
  unfold State.setKey
  split_ifs <;> exact ⟨rfl, rfl⟩

section
variable {w : Nat} {s : State}

/-- A key sequence that is aborted. -/
theorem State.keyAborted (s : State) : ((s.setKey w false).setBit (wdgStat w) 1 true).keyOpen w = false ∧ ((s.setKey w false).setBit (wdgStat w) 1 true).bit (wdgStat w) 1 = true ∧
    SameRegsBut (fun a => a = wdgStat w) s ((s.setKey w false).setBit (wdgStat w) 1 true) ∧ SameMemory s ((s.setKey w false).setBit (wdgStat w) 1 true) := by
  obtain ⟨hr, hmem⟩ := s.setKey_frame w false
  exact ⟨s.keyOpen_setKey w false, State.bit_setBit_same _ _ _ (by decide), fun a ha => (State.reg_setBit_ne _ ha _ _).trans (State.reg_of_regs hr a), State.byte_congr hmem⟩

theorem State.writeWdgKey_first (v : Word) (h : s.keyOpen w = false) : s.writeWdgKey w v = if v = 0xC35A then s.setKey w true else s.setBit (wdgStat w) 1 true := by
  rw [State.writeWdgKey, if_neg (by simp [h])]

theorem State.writeWdgKey_second (v : Word) (h : s.keyOpen w = true) : s.writeWdgKey w v =
    if v = 0x3CA5 then (s.setKey w false).setReg (wdgCnt w) (s.reg (wdgReg w 4)) else (s.setKey w false).setBit (wdgStat w) 1 true := by
  rw [State.writeWdgKey, if_pos h]

theorem State.writeWdgCtrl_bus (v : Word) : s.writeWdgCtrl w v false =
    if bitAt v 0 ∧ s.bit (wdgCtrl w) 0 = false ∧ s.reg (wdgReg w 4) ≠ 0 then (s.setBit (wdgCtrl w) 0 true).setReg (wdgCnt w) (s.reg (wdgReg w 4)) else s := by
  unfold State.writeWdgCtrl
  simp only [Bool.false_eq_true, false_and, if_false]

end

section
variable {m : Acc} {w : Fin 3} {s : State} (hm : m.debug = false) (hoff : s.targetOff (wdgReg w.val 0) = false) (ha : w.val < 2 ∨ m.alle = true)
include hm hoff ha

theorem execWdgEnable_eq (v : Word) : exec (.wdgEnable m w v) s = .next ((s.writeWdgCtrl w.val v false).reply 0 0) :=
  congrArg Host.Outcome.next (wdg_askWrite hm ha hoff v).1

theorem execWdgKey_eq (v : Word) : exec (.wdgKey m w v) s = .next ((s.writeWdgKey w.val v).reply 0 0) :=
  congrArg Host.Outcome.next (wdg_askWrite hm ha hoff v).2

theorem wdgEnable_enables (v : Word) (hv : bitAt v 0 = true) (hen : s.bit (wdgCtrl w.val) 0 = false) (hl : s.reg (wdgReg w.val 4) ≠ 0) : Completes (.wdgEnable m w v) s fun t =>
        t.bit (wdgCtrl w.val) 0 = true ∧ t.reg (wdgCnt w.val) = s.reg (wdgReg w.val 4) ∧ SameMemory s t := by
  refine ⟨_, execWdgEnable_eq hm hoff ha v, ?_⟩
  rw [State.writeWdgCtrl_bus, if_pos ⟨hv, hen, hl⟩]
  refine ⟨(State.bit_of_reg (State.reg_setReg_ne _ ?_ _) 0).trans (State.bit_setBit_same _ _ _ (by decide)), State.reg_setReg_same .., fun _ => rfl⟩
  simp only [wdgCtrl, wdgCnt, wdgReg]
  omega

theorem wdgEnable_ignored (v : Word) (h : bitAt v 0 = false ∨ s.bit (wdgCtrl w.val) 0 = true ∨ s.reg (wdgReg w.val 4) = 0) : Completes (.wdgEnable m w v) s fun t =>
        t.regs = s.regs ∧ t.irq = s.irq ∧ SameMemory s t := by
  refine ⟨_, execWdgEnable_eq hm hoff ha v, ?_⟩
  rw [State.writeWdgCtrl_bus, if_neg]
  · exact ⟨rfl, rfl, fun _ => rfl⟩
  · rintro ⟨h1, h2, h3⟩
    rcases h with h | h | h
    · simp [h] at h1
    · simp [h] at h2
    · exact h3 h

theorem wdgKey_clauses :
      (∀ v : Word, s.keyOpen w.val = false → v ≠ 0xC35A → Completes (.wdgKey m w v) s fun t => t.keyOpen w.val = false ∧ t.bit (wdgStat w.val) 1 = true ∧
        SameRegsBut (fun a => a = wdgStat w.val) s t ∧ SameMemory s t) ∧
      (s.keyOpen w.val = false → Completes (.wdgKey m w 0xC35A) s fun t => t.keyOpen w.val = true ∧ t.regs = s.regs ∧ SameMemory s t) ∧
      (s.keyOpen w.val = true → Completes (.wdgKey m w 0x3CA5) s fun t => t.keyOpen w.val = false ∧ t.reg (wdgCnt w.val) = s.reg (wdgReg w.val 4) ∧
        SameRegsBut (fun a => a = wdgCnt w.val) s t ∧ SameMemory s t) ∧
      (∀ v : Word, s.keyOpen w.val = true → v ≠ 0x3CA5 → Completes (.wdgKey m w v) s fun t => t.keyOpen w.val = false ∧ t.bit (wdgStat w.val) 1 = true ∧
        SameRegsBut (fun a => a = wdgStat w.val) s t ∧ SameMemory s t) := by
  have e := execWdgKey_eq hm hoff ha
  refine ⟨fun v h hv => ⟨_, e v, ?_⟩, fun h => ⟨_, e _, ?_⟩, fun h => ⟨_, e _, ?_⟩, fun v h hv => ⟨_, e v, ?_⟩⟩
  · rw [State.writeWdgKey_first v h, if_neg hv]
    exact ⟨h, State.bit_setBit_same _ _ _ (by decide), fun a ha => State.reg_setBit_ne _ ha _ _, fun _ => rfl⟩
  · rw [State.writeWdgKey_first _ h, if_pos rfl]
    obtain ⟨hr, hmem⟩ := s.setKey_frame w.val true
    exact ⟨s.keyOpen_setKey w.val true, hr, State.byte_congr hmem⟩
  · rw [State.writeWdgKey_second _ h, if_pos rfl]
    obtain ⟨hr, hmem⟩ := s.setKey_frame w.val false
    exact ⟨s.keyOpen_setKey w.val false, State.reg_setReg_same .., fun a ha => (State.reg_setReg_ne _ ha _).trans (State.reg_of_regs hr a), State.byte_congr hmem⟩
  · rw [State.writeWdgKey_second _ h, if_neg hv]
    exact State.keyAborted s

end

theorem wdg_denied {m : Acc} {s : State} (hm : m.debug = false) (ha : m.alle = false) {o : Nat} (ho : o = 0 ∨ o = 0xC) (v : Word) :
    Refused 3 s (s.askWrite m (wdgReg 2 o) v) ∧ Pended s (s.askWrite m (wdgReg 2 o) v) := by
  have h1 : s.targetOff (wdgReg 2 o) = false := by
    rcases ho with rfl | rfl <;> simp [State.targetOff, wdgReg]
  have h2 : regProt m (wdgReg 2 o) true v = true := by
    rcases ho with rfl | rfl <;> exact (congrArg (fun b => !b && true && true) ha)
  have h3 : RegWord (wdgReg 2 o) := by
    rcases ho with rfl | rfl <;> decide
  exact ⟨State.askWrite_protected hm h1 h3 h2, State.pended_protectedWrite hm h1 h3 h2⟩

/-! Warnings and expiries. -/

section
variable {w : Fin 3} {s : State}

theorem wdgWarning_warns (hen : s.bit (wdgCtrl w.val) 0 = true) (hwarn : s.reg (wdgReg w.val 8) ≠ 0) (hp : s.bit (wdgCtrl w.val) 2 = false) :
    Completes (.wdgWarning w) s fun t => t.bit (wdgStat w.val) 0 = true ∧
      (t.reg (wdgCnt w.val)).toNat = min (s.reg (wdgCnt w.val)).toNat (s.reg (wdgReg w.val 8)).toNat ∧ SameMemory s t := by
  have e : ∃ u : State, exec (.wdgWarning w) s = .next (if w.val = 2 ∧ s.pwr.state ≠ 0 then { u with pwr := { u.pwr with waking := true } } else u) ∧
      u = ((s.setReg (wdgCnt w.val) (if (s.reg (wdgReg w.val 8)).toNat < (s.reg (wdgCnt w.val)).toNat then s.reg (wdgReg w.val 8) else s.reg (wdgCnt w.val))).setBit
        (wdgStat w.val) 0 true).arrive (32 * w.val + 8) := ⟨_, if_pos ⟨hen, hwarn, hp⟩, rfl⟩
  obtain ⟨u, e, hu⟩ := e
  have hev : ∀ o, o < 0x20 → ¬ eventReg (wdgReg w.val o) := fun o ho => not_eventReg_tmr (by unfold wdgReg; omega) (by unfold wdgReg; omega)
  have hne : wdgCnt w.val ≠ wdgStat w.val := by
    simp only [wdgCnt, wdgStat, wdgReg]
    omega
  have hstat : u.bit (wdgStat w.val) 0 = true := by
    rw [hu]
    exact (State.bit_arrive (by omega) (hev 0x14 (by decide)) _ 0).trans (State.bit_setBit_same _ _ _ (by decide))
  have hevc : ¬ eventReg (wdgCnt w.val) := hev 0x10 (by decide)
  have hcnt : (u.reg (wdgCnt w.val)).toNat = min (s.reg (wdgCnt w.val)).toNat (s.reg (wdgReg w.val 8)).toNat := by
    rw [hu, State.reg_arrive (by omega) hevc, State.reg_setBit_ne _ hne, State.reg_setReg_same]
    split <;> omega
  have hmem : u.mem = s.mem := by rw [hu]; exact (State.told_arrive ..).mem
  refine ⟨_, e, ?_⟩
  split
  · exact ⟨hstat, hcnt, State.byte_congr hmem⟩
  · exact ⟨hstat, hcnt, State.byte_congr hmem⟩

variable (hen : s.bit (wdgCtrl w.val) 0 = true) (hp : s.bit (wdgCtrl w.val) 2 = false) (hcnt : s.reg (wdgCnt w.val) ≠ 0)
include hen hp hcnt

theorem wdg_expires : ¬ (s.bit (wdgCtrl w.val) 0 = false ∨ s.bit (wdgCtrl w.val) 2 = true ∨ s.reg (wdgCnt w.val) = 0) := by
  rintro (h | h | h)
  · exact absurd (hen.symm.trans h) (by decide)
  · exact absurd (hp.symm.trans h) (by decide)
  · exact hcnt h

/-- The watchdog's count is spent, and its expiry noted. -/
def State.wdgSpent (w : Nat) (s : State) : State := (s.setReg (wdgCnt w) 0).setBit (wdgStat w) 2 true

theorem wdgExpiry_holds (hw : w.val < 2) : Completes (.wdgExpiry w) s fun t => t.core w.val = emptyCore ∧ t.bit Reg.CLK_GVCTL w.val = true ∧
    t.bit (wdgStat w.val) 2 = true ∧ SameMemory s t := by
  have e : ∃ a0 a1 a2 a3, exec (.wdgExpiry w) s = .next ((((s.wdgSpent w.val).arrive (76 + w.val)).logEvent 0x002 a0 a1 a2 a3).holdCore w.val) :=
    ⟨_, _, _, _, (if_neg (wdg_expires hen hp hcnt)).trans (if_neg (by omega))⟩
  obtain ⟨a0, a1, a2, a3, e⟩ := e
  have hev : ¬ eventReg (wdgStat w.val) := not_eventReg_tmr (by simp only [wdgStat, wdgReg]; omega) (by simp only [wdgStat, wdgReg]; omega)
  have hne : wdgStat w.val ≠ Reg.CLK_GVCTL := by
    simp only [wdgStat, wdgReg, Reg.CLK_GVCTL]
    omega
  have ht := (State.told_arrive (76 + w.val) (s.wdgSpent w.val)).trans (State.told_logEvent 0x002 a0 a1 a2 a3 _)
  refine ⟨_, e, State.core_setCore_same _ w.val _, State.bit_setBit_same _ _ _ (by omega), ?_, State.byte_congr ((State.mem_setCore ..).trans ht.mem)⟩
  refine (State.bit_of_reg ((State.reg_setBit_ne _ hne _ _).trans ((State.reg_setCore ..).trans (((State.logEvent_noted ..).regs _ hev).trans
    (State.reg_arrive (by omega) hev _)))) 2).trans (State.bit_setBit_same _ _ _ (by decide))

theorem wdgExpiry_resets (hw : w.val = 2) : Completes (.wdgExpiry w) s fun t => t.bit Reg.CLK_RSTCAUSE 5 = true ∧ t.bit Reg.CLK_RSTCAUSE 8 = true ∧ (t.core 2).run = .run ∧
    (t.core 2).pc = 0 ∧ t.fab.wiping = true ∧ t.sec.level = 0 ∧ t.beam = s.beam := by
  have e : exec (.wdgExpiry w) s = .next ((s.wdgSpent w.val).managementReset 5) := (if_neg (wdg_expires hen hp hcnt)).trans (if_pos hw)
  obtain ⟨-, -, -, hwipe, -, hlevel, -, -, -, hbeam, hrun, hpc⟩ := (s.wdgSpent w.val).resetManagement_spec
  exact ⟨_, e, (State.bit_setBit_ne _ _ _ (by decide)).trans (State.bit_setBit_same _ _ _ (by decide)), State.bit_setBit_same _ _ _ (by decide), hrun, hpc, hwipe, hlevel, hbeam⟩

end

/-- Settles O38, timer by timer and watchdog by watchdog. -/
theorem timersAndWatchdogs : Obligations.TimersAndWatchdogs := by
  unfold Obligations.TimersAndWatchdogs
  refine ⟨fun m n s hm => ?_, fun m w s => ?_⟩
  · obtain ⟨ev1, ev2, ev3⟩ := timerMasterEvent_clauses n s
    refine ⟨fun h hs => (execTimerTick_eq h).trans (congrArg _ (if_pos hs)), timerTick_still, timer_frozen, timerTick_counts, fun h hd => ev1 hd h, timerMasterEvent_counts,
      fun h hd => ev2 hd h, ev3, fun hoff v => timer_unpowered hm hoff v, tmrCntRead_answers hm, fun v hoff => ⟨?_, ?_, tmrCmpWrite_ticked hm hoff v⟩,
      fun k hk h h0 h6 h7 h15 => ?_, fun k hk h hsel => ?_, fun hoff => ⟨?_, fun k hk h0 h6 h7 h15 => tmrCapRead_edge hm hoff hk h0 h6 h7 h15⟩⟩
    · exact ⟨_, congrArg Host.Outcome.next (State.askWrite_tmrCnt hm n hoff v), State.reg_setReg_same .., fun a ha => State.reg_setReg_ne _ ha _, fun _ => rfl⟩
    · exact ⟨_, congrArg Host.Outcome.next (State.askWrite_tmrCmp hm n ((s.targetOff_timer n).1.trans hoff) v), State.reg_setReg_same ..,
        fun a ha => State.reg_setReg_ne _ ha _, fun _ => rfl⟩
    · obtain ⟨ht, hcap, h2, h3⟩ := State.capture_spec n.isLt hk h0 h6 h7 h15
      exact ⟨_, execTimerCapture_eq h, hcap, h2, h3, State.byte_congr ht.mem⟩
    · rw [execTimerCapture_eq h, State.capture_none hk hsel]
    · exact ⟨_, congrArg Host.Outcome.next (State.askRead_tmrCap hm n ((s.targetOff_timer n).2.trans hoff)), rfl, State.bit_setBit_same _ _ _ (by decide),
        fun a ha => State.reg_setBit_ne _ ha _ _, fun _ => rfl⟩
  · refine ⟨fun hm hoff v => ?_, fun hm hoff ha => ⟨wdgEnable_enables hm hoff ha, wdgEnable_ignored hm hoff ha, wdgKey_clauses hm hoff ha⟩, fun hm hw ha => ?_,
      fun h => if_neg (by simp [h]), fun h => if_neg ?_, fun h => if_pos h, fun h => ⟨_, if_pos h, State.keyAborted s⟩, wdgWarning_warns,
      fun hen hp hcnt => ⟨wdgExpiry_holds hen hp hcnt, wdgExpiry_resets hen hp hcnt⟩⟩
    · have hoff' : s.targetOff (wdgReg w.val 0xC) = true := by
        match w with
        | 0 | 1 | 2 => exact hoff
      have h1 : Refused 6 s (s.askWrite m (wdgReg w.val 0) v) := State.askWrite_unpowered v hm hoff
      have h2 : Refused 6 s (s.askWrite m (wdgReg w.val 0xC) v) := State.askWrite_unpowered v hm hoff'
      exact ⟨⟨_, rfl, h1.answer, h1.regs _ (not_eventReg_tmr (by simp only [wdgCtrl, wdgReg]; omega) (by simp only [wdgCtrl, wdgReg]; omega))
          (not_mrcReg_tmr (by simp only [wdgCtrl, wdgReg]; omega))⟩,
        ⟨_, rfl, h2.answer, (State.pended_unpoweredWrite v hm hoff').keyOpen _⟩⟩
    · obtain ⟨w, hlt⟩ := w
      obtain rfl : w = 2 := hw
      refine ⟨⟨_, rfl, (wdg_denied (s := s) hm ha (.inr rfl) 0xC35A).1.answer, (wdg_denied (s := s) hm ha (.inr rfl) 0xC35A).2.keyOpen 2⟩, fun v => ⟨_, rfl, ?_⟩⟩
      have h := (wdg_denied (s := s) hm ha (.inl rfl) v).1
      exact ⟨h.answer, h.regs _ (by decide) (by decide)⟩
    · rintro ⟨h1, h2, h3⟩
      rcases h with h | h | h
      · simp [h] at h1
      · exact h2 h
      · simp [h] at h3

end Sys2Proof.Machine
end

section
/-! The statement on accesses to registers: their codes, error responses and effects. -/

namespace Sys2Proof.Machine

/-! An access that is not answered with data leaves a captured error (R89, R91). -/

/-- `u` is `s` after an error response of `code` at the word `addr`, captured as the first. -/
def Captured (m : Acc) (s u : State) (addr : Word) (code : Nat) (w : Bool) : Prop :=
  u.answer = ⟨code, 0⟩ ∧ u.reg Reg.MRC_ERRADDR = addr ∧ u.f Reg.MRC_ERRINFO 2 0 = code ∧ u.f Reg.MRC_ERRINFO 7 4 = m.port % 16 ∧
    u.bit Reg.MRC_ERRINFO 8 = w ∧ u.bit Reg.MRC_ERRINFO 31 = true ∧
    (∀ b, b ≠ Reg.MRC_ERRADDR → b ≠ Reg.MRC_ERRINFO → ¬ eventReg b → u.reg b = s.reg b) ∧ u.shadow = s.shadow ∧ SameMemory s u

/-- The capture alone, without the event it logs. -/
def State.capturing (s : State) (addr info : Word) : State := (s.setReg Reg.MRC_ERRADDR addr).setReg Reg.MRC_ERRINFO info

theorem State.reg_capturing (s : State) (addr info : Word) : (s.capturing addr info).reg Reg.MRC_ERRINFO = info ∧ (s.capturing addr info).reg Reg.MRC_ERRADDR = addr ∧
    ∀ b, b ≠ Reg.MRC_ERRADDR → b ≠ Reg.MRC_ERRINFO → (s.capturing addr info).reg b = s.reg b :=
  ⟨State.reg_setReg_same .., (State.reg_setReg_ne _ (by decide) _).trans (State.reg_setReg_same ..),
    fun _ h1 h2 => (State.reg_setReg_ne _ h2 _).trans (State.reg_setReg_ne _ h1 _)⟩

theorem State.errResponse_logs {s : State} {port code : Nat} (a : Nat) (w : Bool) (h : s.bit Reg.MRC_ERRINFO 31 = false) (hc : code < 8) :
    ∃ info a0 a1 a2 a3, s.errResponse port a code w = (s.capturing (wd a) info).logEvent 0x71 a0 a1 a2 a3 ∧
      fld info 2 0 = code ∧ fld info 7 4 = port % 16 ∧ bitAt info 8 = w ∧ bitAt info 31 = true := by
  have e : ∃ a1 a2 a3, s.errResponse port a code w =
      (s.capturing (wd a) (wd (code + 16 * (port % 16) + 256 * b2n w + 2 ^ 31))).logEvent 0x71 (wd port) a1 a2 a3 := by
    unfold State.errResponse
    rw [h, Nat.mod_eq_of_lt hc, if_neg (by simp)]
    exact ⟨_, _, _, rfl⟩
  obtain ⟨a1, a2, a3, e⟩ := e
  exact ⟨_, _, a1, a2, a3, e, fld_errInfo w hc _ rfl⟩

theorem State.captured_errResponse {m : Acc} {code : Nat} {s : State} (a : Nat) (w : Bool) (h : s.bit Reg.MRC_ERRINFO 31 = false) (hc : code < 8) :
    Captured m s (s.replyErr m.port a code w) (wd a) code w := by
  obtain ⟨info, a0, a1, a2, a3, e, f1, f2, f3, f4⟩ := s.errResponse_logs (port := m.port) a w h hc
  obtain ⟨c1, c2, c3⟩ := s.reg_capturing (wd a) info
  have ht := State.told_logEvent 0x71 a0 a1 a2 a3 (s.capturing (wd a) info)
  have hn := State.logEvent_noted (s.capturing (wd a) info) 0x71 a0 a1 a2 a3
  rw [State.replyErr, e]
  generalize State.logEvent .. = u at ht hn
  have hi : u.reg Reg.MRC_ERRINFO = info := (hn.regs _ (by decide)).trans c1
  refine ⟨rfl, (hn.regs _ (by decide)).trans c2, (congrArg (fld · 2 0) hi).trans f1, (congrArg (fld · 7 4) hi).trans f2, (congrArg (bitAt · 8) hi).trans f3,
    (congrArg (bitAt · 31) hi).trans f4, fun b h1 h2 h3 => (hn.regs _ h3).trans (c3 b h1 h2), ?_, State.byte_congr ht.mem⟩
  obtain ⟨_, _, _, _, k⟩ := ht
  exact congrArg (·.shadow) k

theorem Captured.congr {m : Acc} {s u t : State} {addr : Word} {code : Nat} {w : Bool} (h : Captured m s u addr code w) (ha : t.answer = u.answer)
    (hr : ∀ b, t.reg b = u.reg b) (hs : t.shadow = u.shadow) (hm : t.mem = u.mem) : Captured m s t addr code w := by
  obtain ⟨h1, h2, h3, h4, h5, h6, h7, h8, h9⟩ := h
  exact ⟨ha.trans h1, (hr _).trans h2, (State.f_of_reg (hr _) 2 0).trans h3, (State.f_of_reg (hr _) 7 4).trans h4, (State.bit_of_reg (hr _) 8).trans h5,
    (State.bit_of_reg (hr _) 31).trans h6, fun b k1 k2 k3 => (hr b).trans (h7 b k1 k2 k3), hs.trans h8, fun k => (State.byte_congr hm k).trans (h9 k)⟩

/-! A write, and the W1C bits that hardware sets with it (R9). -/

theorem State.reg_setWins_row {a i : Nat} {r : RegRow} (hf : RegMap.find a = some (r, i)) (set : Word) (t : State) :
    (t.setWins a set).reg a = t.reg a ||| (set &&& r.w1c) := by
  simp only [State.setWins, hf, State.reg_setReg_same]

theorem State.setWins_frame (a : Nat) (set : Word) (t : State) : (∀ b, b ≠ a → (t.setWins a set).reg b = t.reg b) ∧ (t.setWins a set).mem = t.mem ∧
    (t.setWins a set).shadow = t.shadow ∧ (t.setWins a set).pwr = t.pwr := by
  unfold State.setWins
  split
  · exact ⟨fun b hb => State.reg_setReg_ne _ hb _, rfl, rfl, rfl⟩
  · exact ⟨fun _ _ => rfl, rfl, rfl, rfl⟩

theorem State.reg_setWins_zero (a b : Nat) (t : State) : (t.setWins a 0).reg b = t.reg b := by
  by_cases hb : b = a
  · subst hb
    unfold State.setWins
    split
    · rw [State.reg_setReg_same]
      simp
    · rfl
  · exact (t.setWins_frame a 0).1 b hb

theorem execRegisterWrite_eq {m : Acc} {a size : Nat} {v set : Word} {s t : State} {c : Nat} (h : s.busWrite m a (leBytes size v.toNat) = (c, t)) :
    exec (.registerWrite m a size v set) s = .next ((if s.targetOff a then t else t.setWins a set).reply c 0) := by
  show execRegisterWrite m a size v set s = _
  unfold execRegisterWrite
  rw [h]

theorem registerWrite_captured {m : Acc} {a size code : Nat} {v : Word} {s : State} (h : s.bit Reg.MRC_ERRINFO 31 = false) (hc : code < 8)
    (hb : s.busWrite m a (leBytes size v.toNat) = s.failWrite m a code) : Completes (.registerWrite m a size v 0) s fun u => Captured m s u (wd a) code true := by
  refine ⟨_, execRegisterWrite_eq (hb.trans rfl), ?_⟩
  refine (State.captured_errResponse (m := m) a true h hc).congr rfl (fun b => ?_) ?_ ?_
  all_goals
    obtain ⟨-, h2, h3, -⟩ := State.setWins_frame a 0 (s.errResponse m.port a code true)
    split
  exacts [rfl, State.reg_setWins_zero .., rfl, h3, rfl, h2]

/-! Reads of RC fields. -/

theorem execRcRegisterRead_plain {m : Acc} {a : Nat} {s : State} (e : Word) (h : m.debug = true ∨ (s.askRead m a).answer.code ≠ 0 ∨ RegMap.find a = none) :
    exec (.rcRegisterRead m a e) s = .next (s.askRead m a) := by
  show execRcRegisterRead m a e s = _
  unfold execRcRegisterRead
  cases hf : RegMap.find a with
  | none => rfl
  | some r =>
    have : m.debug = true ∨ (s.askRead m a).answer.code ≠ 0 := by
      rcases h with h | h | h
      · exact .inl h
      · exact .inr h
      · exact absurd (hf.symm.trans h) (by simp)
    exact if_pos this

theorem execRcRegisterRead_row {m : Acc} {a i : Nat} {r : RegRow} {s : State} (e : Word) (hm : m.debug = false) (hc : (s.askRead m a).answer.code = 0)
    (hf : RegMap.find a = some (r, i)) :
    exec (.rcRegisterRead m a e) s = .next ((s.askRead m a).setReg a ((s.askRead m a).reg a ||| (e &&& r.rc))) := by
  show execRcRegisterRead m a e s = _
  unfold execRcRegisterRead
  rw [hf]
  exact if_neg (by simp [hm, hc])

theorem rcRegisterRead_captured {m : Acc} {a code : Nat} {s : State} (e : Word) (h : s.bit Reg.MRC_ERRINFO 31 = false) (hc : code < 8) (h0 : code ≠ 0)
    (hr : s.askRead m a = s.replyErr m.port a code false) : Completes (.rcRegisterRead m a e) s fun u => Captured m s u (wd a) code false := by
  refine ⟨_, execRcRegisterRead_plain e (.inr (.inl ?_)), ?_⟩
  · rw [hr]
    exact h0
  · rw [hr]
    exact State.captured_errResponse a false h hc

section
variable {m : Acc} {a : Nat} {s : State}

/-! Which error the bus answers (Table 3.5). -/

section
variable (hoff : s.targetOff a = false) (hin : inRegs a = true)

theorem State.busWrite_off {bs : List Byte} (hm : m.debug = false ∨ s.debugAllows a true = true) (h : s.targetOff a = true) : s.busWrite m a bs = s.failWrite m a 6 := by
  simp only [State.busWrite, State.not_denied hm, h, Bool.false_eq_true, if_false, if_true]

include hoff hin

theorem State.busWrite_misfit {bs : List Byte} (hm : m.debug = false ∨ s.debugAllows a true = true) (h : bs.length ≠ 4 ∨ a % 4 ≠ 0) :
    s.busWrite m a bs = s.failWrite m a 7 := by
  simp only [State.busWrite, State.not_denied hm, hoff, hin, if_pos h, Bool.false_eq_true, if_false, if_true]

theorem State.busWrite_beyond {bs : List Byte} (hm : m.debug = false ∨ s.debugAllows a true = true) (h4 : bs.length = 4) (hal : a % 4 = 0) (hend : regEnd ≤ a) :
    s.busWrite m a bs = s.failWrite m a 1 := by
  simp only [State.busWrite, State.not_denied hm, hoff, hin, h4, hal, hend, ne_eq, not_true_eq_false, or_self, Bool.false_eq_true, if_false, if_true]

theorem State.busWrite_prot {v : Word} (hm : m.debug = false ∨ s.debugAllows a true = true) (hal : a % 4 = 0) (hend : a < regEnd) (hp : regProt m a true v = true) :
    s.busWrite m a (leBytes 4 v.toNat) = s.failWrite m a 3 := by
  simp only [State.busWrite, State.not_denied hm, hoff, hin, length_leBytes, leWord_leBytes, hal, Nat.not_le.mpr hend, hp, ne_eq, not_true_eq_false, or_self,
    Bool.false_eq_true, if_false, if_true]

theorem State.busRead_misaligned (hm : m.debug = false ∨ s.debugAllows a false = true) (h : a % 4 ≠ 0) : s.busRead m a 4 = s.failRead m a 4 7 := by
  simp only [State.busRead, State.not_denied hm, hoff, hin, if_pos (Or.inr h : (4 : Nat) ≠ 4 ∨ a % 4 ≠ 0), Bool.false_eq_true, if_false, if_true]

theorem State.busRead_prot (hm : m.debug = false ∨ s.debugAllows a false = true) (hal : a % 4 = 0) (hend : a < regEnd) (hp : regProt m a false 0 = true) :
    s.busRead m a 4 = s.failRead m a 4 3 := by
  simp only [State.busRead, State.not_denied hm, hoff, hin, hal, Nat.not_le.mpr hend, hp, ne_eq, not_true_eq_false, or_self, Bool.false_eq_true, if_false, if_true]

end

theorem State.busRead_off (hm : m.debug = false ∨ s.debugAllows a false = true) (h : s.targetOff a = true) : s.busRead m a 4 = s.failRead m a 4 6 := by
  simp only [State.busRead, State.not_denied hm, h, Bool.false_eq_true, if_false, if_true]

theorem State.askRead_fails {code : Nat} (h : s.busRead m a 4 = s.failRead m a 4 code) : s.askRead m a = s.replyErr m.port a code false := by
  simp only [State.askRead, State.busRead32, h, State.failRead]
  rfl

theorem State.askWrite_fails {code : Nat} {v : Word} (h : s.busWrite m a (leBytes 4 v.toNat) = s.failWrite m a code) :
    s.askWrite m a v = s.replyErr m.port a code true := by
  simp only [State.askWrite, State.busWrite32, h, State.failWrite]
  rfl

theorem State.debug_denied (hm : m.debug = true) {write : Bool} (h : s.debugAllows a write = false) : (m.debug && !s.debugAllows a write) = true := by
  rw [hm, h]
  rfl

theorem State.askWrite_refusedDebug (v : Word) (hm : m.debug = true) (h : s.debugAllows a true = false) : s.askWrite m a v = s.denied.reply 8 0 := by
  simp only [State.askWrite, State.busWrite32, State.busWrite, State.debug_denied hm h, if_true]

theorem State.askRead_refusedDebug (hm : m.debug = true) (h : s.debugAllows a false = false) : s.askRead m a = s.denied.reply 8 0 := by
  simp only [State.askRead, State.busRead32, State.busRead, State.debug_denied hm h, if_true]
  rfl

/-- The Allemande's own blocks (R451). -/
theorem regProt_own {m : Acc} {a : Nat} (ha : m.alle = false) (h : blockOf a = 20 ∨ blockOf a = 23 ∨ blockOf a = 25) (v : Word) : regProt m a true v = true := by
  rcases h with h | h | h <;> simp only [regProt, h, ha, Acc.sec] <;> rfl

theorem regProt_ownRead {m : Acc} {a : Nat} (ha : m.alle = false) (h : blockOf a = 20 ∨ blockOf a = 25) : regProt m a false 0 = true := by
  rcases h with h | h <;> simp only [regProt, h, ha] <;> rfl

end

/-! The clauses on codes, on the coded effects, and on the commands that are such accesses. -/

theorem registerAccess_errors {m : Acc} {a : Nat} (v : Word) {s : State} (hm : m.debug = false) (h : s.bit Reg.MRC_ERRINFO 31 = false) :
    (s.targetOff a = true → (∀ size, Completes (.registerWrite m a size v 0) s fun u => Captured m s u (wd a) 6 true) ∧
      ∀ e, Completes (.rcRegisterRead m a e) s fun u => Captured m s u (wd a) 6 false) ∧
    (s.targetOff a = false → inRegs a = true →
      (∀ size, size ≠ 4 ∨ a % 4 ≠ 0 → Completes (.registerWrite m a size v 0) s fun u => Captured m s u (wd a) 7 true) ∧
      (a % 4 = 0 → regEnd ≤ a → Completes (.registerWrite m a 4 v 0) s fun u => Captured m s u (wd a) 1 true) ∧
      (a % 4 = 0 → a < regEnd → regProt m a true v = true → Completes (.registerWrite m a 4 v 0) s fun u => Captured m s u (wd a) 3 true) ∧
      (a % 4 = 0 → a < regEnd → m.alle = false → blockOf a = 20 ∨ blockOf a = 23 ∨ blockOf a = 25 →
        Completes (.registerWrite m a 4 v 0) s fun u => Captured m s u (wd a) 3 true) ∧
      (∀ e, a % 4 = 0 → a < regEnd → m.alle = false → blockOf a = 20 ∨ blockOf a = 25 → Completes (.rcRegisterRead m a e) s fun u => Captured m s u (wd a) 3 false) ∧
      (∀ e, a % 4 ≠ 0 → Completes (.rcRegisterRead m a e) s fun u => Captured m s u (wd a) 7 false)) := by
  refine ⟨fun hoff => ⟨fun size => registerWrite_captured h (by decide) (State.busWrite_off (.inl hm) hoff),
      fun e => rcRegisterRead_captured e h (by decide) (by decide) (State.askRead_fails (State.busRead_off (.inl hm) hoff))⟩,
    fun hoff hin => ⟨fun size hs => ?_, fun hal hend => ?_, fun hal hend hp => ?_, fun hal hend ha hb => ?_, fun e hal hend ha hb => ?_, fun e hal => ?_⟩⟩
  · exact registerWrite_captured h (by decide) (State.busWrite_misfit hoff hin (.inl hm) (by simpa using hs))
  · exact registerWrite_captured h (by decide) (State.busWrite_beyond hoff hin (.inl hm) (by simp) hal hend)
  · exact registerWrite_captured h (by decide) (State.busWrite_prot hoff hin (.inl hm) hal hend hp)
  · exact registerWrite_captured h (by decide) (State.busWrite_prot hoff hin (.inl hm) hal hend (regProt_own ha hb v))
  · exact rcRegisterRead_captured e h (by decide) (by decide) (State.askRead_fails (State.busRead_prot hoff hin (.inl hm) hal hend (regProt_ownRead ha hb)))
  · exact rcRegisterRead_captured e h (by decide) (by decide) (State.askRead_fails (State.busRead_misaligned hoff hin (.inl hm) hal))

theorem registerWrite_overflows {m : Acc} {a : Nat} (v : Word) {s : State} (hm : m.debug = false) (h : s.bit Reg.MRC_ERRINFO 31 = true) (hoff : s.targetOff a = false)
    (hin : inRegs a = true) (hal : a % 4 ≠ 0) : Completes (.registerWrite m a 4 v 0) s fun u => u.answer = ⟨7, 0⟩ ∧
      u.bit Reg.MRC_STAT 8 = true ∧ u.reg Reg.MRC_ERRADDR = s.reg Reg.MRC_ERRADDR ∧ u.reg Reg.MRC_ERRINFO = s.reg Reg.MRC_ERRINFO ∧ SameMemory s u := by
  refine ⟨_, execRegisterWrite_eq ((State.busWrite_misfit (bs := leBytes 4 v.toNat) hoff hin (.inl hm) (.inr hal)).trans rfl), ?_⟩
  rw [hoff]
  obtain ⟨h1, h2⟩ := State.errResponse_overflows m.port a 7 true h
  have h3 : (s.errResponse m.port a 7 true).reg Reg.MRC_ERRINFO = s.reg Reg.MRC_ERRINFO := by
    unfold State.errResponse
    rw [if_pos h]
    exact ((State.logEvent_noted ..).regs _ (by decide)).trans (State.raise_reg _ stMRC _ _ _ _ (by decide) (by decide) (StatReg.src_lt (by decide)))
  have hr := fun b => State.reg_setWins_zero a b (s.errResponse m.port a 7 true)
  exact ⟨rfl, (State.bit_of_reg (hr _) 8).trans h1, (hr _).trans h2, (hr _).trans h3,
    State.byte_congr ((State.setWins_frame a 0 _).2.1.trans (State.told_errResponse ..).mem)⟩

section
variable {m : Acc} {s : State} (hm : m.debug = false) (h5 : s.pwr.state ≠ 5)
include hm h5

/-- A write to a register without shadow bits whose effect its row gives. -/
theorem registerWrite_row {a i : Nat} {r : RegRow} (hf : RegMap.find a = some (r, i)) (h0 : r.shm = 0) (ha : RegWord a) {v : Word} (hp : regProt m a true v = false)
    (hw : s.regWrite m a v = s.writeCoded a v) (set : Word) :
    Completes (.registerWrite m a 4 v set) s fun u => u.answer = ⟨0, 0⟩ ∧ u.reg a = coded r (s.reg a) v ||| (set &&& r.w1c) ∧ SameRegsBut (fun b => b = a) s u ∧ SameMemory s u := by
  have hoff := State.targetOff_of_state h5 a
  refine ⟨_, execRegisterWrite_eq (State.busWrite_word (.inl hm) hoff ha hp), ?_⟩
  rw [hoff, hw, State.writeCoded_plain hf h0]
  obtain ⟨h1, h2, -, -⟩ := State.setWins_frame a set (s.setReg a (coded r (s.reg a) v))
  refine ⟨rfl, ?_, fun b hb => (h1 b hb).trans (State.reg_setReg_ne _ hb _), State.byte_congr h2⟩
  exact (State.reg_setWins_row hf set _).trans (by rw [State.reg_setReg_same])

end

theorem row_of_map {β : Type} {F : RegRow → β} {a : Nat} {b : β} (h : (RegMap.find a).map (fun e => F e.1) = some b) : ∃ r i, RegMap.find a = some (r, i) ∧ F r = b := by
  obtain ⟨⟨r, i⟩, h1, h2⟩ := Option.map_eq_some_iff.mp h
  exact ⟨r, i, h1, h2⟩

/-- What the row of a register says of a write and a read. -/
def rowCodes (r : RegRow) : Word × Word × Word × Word × Word := (r.rw, r.shm, r.w1c, r.w1s, r.rc)

theorem fld_of_bits {x y : Word} {hi lo : Nat} (h : ∀ j, lo ≤ j → j ≤ hi → bitAt x j = bitAt y j) : fld x hi lo = fld y hi lo := by
  refine Nat.eq_of_testBit_eq fun i => ?_
  rw [testBit_fld, testBit_fld]
  by_cases hi' : i < hi + 1 - lo
  · have := h (lo + i) (by omega) (by omega)
    unfold bitAt at this
    rw [this]
  · simp [hi']

section
variable {m : Acc} {s : State} (hm : m.debug = false) (h5 : s.pwr.state ≠ 5) (v : Word)
include hm h5

theorem registerWrite_cliplo : Completes (.registerWrite m Reg.BLK_CLIPLO 4 v 0) s fun u =>
    u.answer = ⟨0, 0⟩ ∧ u.reg Reg.BLK_CLIPLO = v ∧ SameRegsBut (fun b => b = Reg.BLK_CLIPLO) s u ∧ SameMemory s u := by
  obtain ⟨r, i, hf, hc⟩ := row_of_map (F := rowCodes) (show (RegMap.find Reg.BLK_CLIPLO).map (fun e => rowCodes e.1) = some (0xFFFFFFFF, 0, 0, 0, 0) by decide +kernel)
  obtain ⟨h1, h2, h3, h4, -⟩ : r.rw = _ ∧ r.shm = _ ∧ r.w1c = _ ∧ r.w1s = _ ∧ r.rc = _ := by simpa [rowCodes] using hc
  obtain ⟨u, e, k1, k2, k3, k4⟩ := registerWrite_row hm h5 hf h2 (by decide) rfl rfl 0 (v := v)
  exact ⟨u, e, k1, k2.trans (by simp [coded, h1, h2, h3, h4]), k3, k4⟩

theorem registerWrite_rl : Completes (.registerWrite m Reg.EVR_RL 4 v 0) s fun u => u.answer = ⟨0, 0⟩ ∧ u.f Reg.EVR_RL 2 0 = fld v 2 0 ∧
    u.f Reg.EVR_RL 31 16 = fld v 31 16 ∧ u.f Reg.EVR_RL 15 3 = s.f Reg.EVR_RL 15 3 ∧ SameRegsBut (fun b => b = Reg.EVR_RL) s u ∧ SameMemory s u := by
  obtain ⟨r, i, hf, hc⟩ := row_of_map (F := rowCodes) (show (RegMap.find Reg.EVR_RL).map (fun e => rowCodes e.1) = some (0xFFFF0007, 0, 0, 0, 0) by decide +kernel)
  obtain ⟨h1, h2, h3, h4, -⟩ : r.rw = _ ∧ r.shm = _ ∧ r.w1c = _ ∧ r.w1s = _ ∧ r.rc = _ := by simpa [rowCodes] using hc
  obtain ⟨u, e, k1, k2, k3, k4⟩ := registerWrite_row hm h5 hf h2 (by decide) rfl rfl 0 (v := v)
  have e' : u.reg Reg.EVR_RL = (s.reg Reg.EVR_RL &&& 0x0000FFF8) ||| (v &&& 0xFFFF0007) := k2.trans (by simp [coded, h1, h2, h3, h4])
  refine ⟨u, e, k1, ?_, ?_, ?_, k3, k4⟩
  all_goals
    unfold State.f
    rw [e']
    refine fld_of_bits fun j hlo hhi => ?_
    interval_cases j <;> simp [bitAt]

theorem registerWrite_stat (set : Word) : Completes (.registerWrite m Reg.EVR_STAT 4 v set) s fun u => u.reg Reg.EVR_STAT = (s.reg Reg.EVR_STAT &&& ~~~(v &&& 7)) ||| (set &&& 7) ∧
        SameRegsBut (fun b => b = Reg.EVR_STAT) s u ∧ SameMemory s u := by
  obtain ⟨r, i, hf, hc⟩ := row_of_map (F := rowCodes) (show (RegMap.find Reg.EVR_STAT).map (fun e => rowCodes e.1) = some (0, 0, 7, 0, 0) by decide +kernel)
  obtain ⟨h1, h2, h3, h4, -⟩ : r.rw = _ ∧ r.shm = _ ∧ r.w1c = _ ∧ r.w1s = _ ∧ r.rc = _ := by simpa [rowCodes] using hc
  obtain ⟨u, e, -, k2, k3, k4⟩ := registerWrite_row hm h5 hf h2 (by decide) rfl rfl set (v := v)
  exact ⟨u, e, k2.trans (by simp [coded, h1, h2, h3, h4]), k3, k4⟩

end

/-- The commands that write a register are writes of it. -/
theorem exec_isWrite (m : Acc) (s : State) (v : Word) (x : Nat) (b : Fin 32) (sl : Fin 12) (e : Fin 8) (d : BitVec 16) (bo : Bool) (p2 : Fin 2) (k : Fin 10) (q : Fin 256) (n : Fin 16) (p3 : Fin 3) (p4 : Fin 4) :
    ∀ w ∈ [
      (Instr.beamRun m x, Reg.BEAM_CTRL, (wd (1 + 2 * (x % 4)))), (.beamStopRequest m x, Reg.BEAM_CTRL, (wd (2 * (x % 4)))),
      (.cotCommit m v, Reg.COT_COMMIT, v), (.mrcCepolWrite m v, Reg.MRC_CEPOL, v), (.mrcReqPreserving m b, Reg.MRC_REQ, (wd (512 + b.val))),
      (.mrcReqDestroying m b, Reg.MRC_REQ, (wd (768 + b.val))), (.qdlEnable m, Reg.QDL_CTRL, 1), (.qdlDisable m, Reg.QDL_CTRL, 0),
      (.layerFenceSignal m sl, (Reg.LAYn_FENCE sl.val), (wd (1 + 2 * s.f (Reg.LAYn_FENCE sl.val) 1 1))), (.qdlLanepolWrite m v, Reg.QDL_LANEPOL, v),
      (.engineFaultClear m e, (Reg.MNT_ENGe_STAT e.val), 0x400), (.gflagSet m v, Reg.MNT_GFLAG, v), (.gflagClear m v, Reg.MNT_GFCLR, v),
      (.beamStoreWrite m x v, (0x21000000 + x % 0x40000), v), (.blankRequest m v, Reg.PNL_BLANK, v), (.pnlCmdCfg m, Reg.PNL_CMDQ, 5),
      (.pnlCmdGain m d, Reg.PNL_CMDQ, (wd (6 + 2 ^ 16 * d.toNat))), (.pnlCmdUser m d, Reg.PNL_CMDQ, (wd (7 + 2 ^ 16 * d.toNat))),
      (.pnlMapdata m true v, Reg.PNL_MAPDATA, v), (.pavaneRequest m v, Reg.SIG_PAVREQ, v), (.pavaneExitRequest m v, Reg.SIG_PAVSTAT, v),
      (.keyOn m p2 v, (Reg.SND_KEYONx p2.val), v), (.keyOff m p2 v, (Reg.SND_KEYOFFx p2.val), v), (.nodeWrite m v, Reg.SND_NODEW, v),
      (.biquadCoefWrite m b k v, (Reg.SNDo_BQk_c b.val k.val 4), v), (.objMute m v, Reg.OBJ_MUTE, v), (.akethEpolWrite m p2 v, (Reg.AKx_EPOL p2.val), v),
      (.akethRetrain m p2, (Reg.AKx_CTRL p2.val), (wd (2 + s.f (Reg.AKx_CTRL p2.val) 0 0))),
      (.akethLaneRetry m p2, (Reg.AKx_CTRL p2.val), (wd (4 + s.f (Reg.AKx_CTRL p2.val) 0 0))),
      (.akethRekey m p2, (Reg.AKx_CTRL p2.val), (wd (8 + s.f (Reg.AKx_CTRL p2.val) 0 0))), (.blkPush m v, Reg.BLK_PUSH, v),
      (.blkErrorClear m v, Reg.BLK_STAT, v), (.irqRaise m v, Reg.IRQ_RAISE, v), (.irqClr m v, Reg.IRQ_CLR, v), (.irqFbWrite m q v, (Reg.IRQ_SRCs q.val), v),
      (.irqCoalCfgWrite m n v, (Reg.IRQ_COALk_CFG n.val), v), (.tmrCntWrite m n v, (Reg.TMRn_CNT n.val), v), (.wdgEnable m p3 v, (wdgReg p3.val 0), v),
      (.wdgKey m p3 v, (wdgReg p3.val 0xC), v), (.clkSwrst m v, Reg.CLK_SWRST, v), (.gvRelease m v, Reg.CLK_GVCTL, v),
      (.verify m p4, Reg.IMG_CMD, (wd (1 + 512 * p4.val))), (.ssverify m, Reg.IMG_CMD, 2), (.imgCmdSwap m bo, Reg.IMG_CMD, (wd (3 + 256 * b2n bo))),
      (.cancel m, Reg.IMG_CMD, 4), (.load m p4, Reg.IMG_CMD, (wd (5 + 512 * p4.val))),
      (.imgSessionWrite m bo v, (if bo then Reg.IMG_STGBASE else Reg.IMG_SESSION), v), (.imgUcload m v, Reg.IMG_UCLOAD, v),
      (.imgUcswap m v, Reg.IMG_UCSWAP, v), (.mgtMbinrel m v, Reg.MGT_MBINREL, v), (.mgtMbsend m v, Reg.MGT_MBSEND, v), (.mgtHsnap m v, Reg.MGT_HSNAP, v),
      (.evrTimeWrite m bo v, (if bo then Reg.EVR_PCYC else Reg.EVR_SECS), v), (.evrCurctl m v, Reg.EVR_CURCTL, v),
      (.evrLogGo m p3 v, (Reg.EVR_LOGt_GO p3.val), v), (.lcadv m, Reg.SEC_CMD, 1), (.ownkey m, Reg.SEC_CMD, 2), (.revoke m, Reg.SEC_CMD, 3),
      (.dbgkey m, Reg.SEC_CMD, 4), (.svnset m, Reg.SEC_CMD, 5), (.fleetload m, Reg.SEC_CMD, 6), (.fleetzero m, Reg.SEC_CMD, 7), (.dbgdrop m, Reg.SEC_CMD, 8),
      (.secTclr m v, Reg.SEC_TCLR, v), (.dbgChal m x, Reg.DBG_AUTHCTL, (wd (256 + x % 256))), (.dbgVerify m, Reg.DBG_AUTHCTL, 512),
      (.dbgHalt m p3, (Reg.DBG_Cc_CTRL p3.val), ((s.reg (Reg.DBG_Cc_CTRL p3.val) &&& 0x1C) ||| 1)),
      (.dbgRun m p3, (Reg.DBG_Cc_CTRL p3.val), ((s.reg (Reg.DBG_Cc_CTRL p3.val) &&& 0x1C) ||| 2)), (.dbgRegdata m p3 true v, (Reg.DBG_Cc_REGDATA p3.val), v),
      (.dbgLdata m p3 true v, (Reg.DBG_Cc_LDATA p3.val), v), (.dbgDrxWrite m p3 v, (Reg.DBG_Cc_DRX p3.val), v),
      (.dbgTxfullAck m p3, (Reg.DBG_Cc_VT p3.val), 1), (.pinRelease m, Reg.PIN_CTRL, 1), (.pinLock m v, Reg.PIN_LOCK, v),
      (.ci3cPrivateWrite m v, Reg.CI3C_CMD, (ci3cKind 0 v)), (.ci3cPrivateRead m v, Reg.CI3C_CMD, (ci3cKind 1 v)),
      (.ci3cBroadcastCcc m v, Reg.CI3C_CMD, (ci3cKind 2 v)), (.ci3cDirectCcc m v, Reg.CI3C_CMD, (ci3cKind 3 v)),
      (.ci3cEntdaa m v, Reg.CI3C_CMD, (ci3cKind 4 v)), (.ci3cHdrWrite m v, Reg.CI3C_CMD, (ci3cKind 5 v)), (.ci3cHdrRead m v, Reg.CI3C_CMD, (ci3cKind 6 v)),
      (.ci3cI2cWrite m v, Reg.CI3C_CMD, (ci3cKind 7 v)), (.ci3cI2cRead m v, Reg.CI3C_CMD, (ci3cKind 8 v)),
      (.xspiCommand m v, Reg.XSPI_CMD, (putBit v 27 false)), (.xspiPoll m v, Reg.XSPI_CMD, (putBit v 27 true)), (.xspiData m true v, Reg.XSPI_DATA, v),
      (.xspiFlush m, Reg.XSPI_CTRL, (wd (2 + s.f Reg.XSPI_CTRL 0 0)))],
      exec w.1 s = .next (s.askWrite m w.2.1 w.2.2) := by
  simp only [List.forall_mem_cons, List.not_mem_nil, false_imp_iff, implies_true, and_true]
  and_intros
  all_goals rfl

/-- The commands that read a register are reads of it. -/
theorem exec_isRead (m : Acc) (s : State) (v : Word) (bo : Bool) (n : Fin 16) (p3 : Fin 3) :
    ∀ r ∈ [
      (Instr.beamPosRead m, Reg.BEAM_POS), (.pnlMapdata m false v, Reg.PNL_MAPDATA), (.sndKloRead m, Reg.SND_KLO), (.tmrCntRead m n, (Reg.TMRn_CNT n.val)),
      (.clkUploRead m, Reg.CLK_UPLO), (.evrWin7Read m, (Reg.EVR_WINw 7)), (.dbgRegdata m p3 false v, (Reg.DBG_Cc_REGDATA p3.val)),
      (.dbgLdata m p3 false v, (Reg.DBG_Cc_LDATA p3.val)), (.ci3cRxdRead m bo, (if bo then Reg.CI3C_IBIQ else Reg.CI3C_RXD)),
      (.xspiData m false v, Reg.XSPI_DATA)],
      exec r.1 s = .next (s.askRead m r.2) := by
  simp only [List.forall_mem_cons, List.not_mem_nil, false_imp_iff, implies_true, and_true]
  and_intros
  all_goals rfl

section
variable {m : Acc} {s : State} (hm : m.debug = false) (h5 : s.pwr.state ≠ 5)
include hm h5

theorem registerWrite_bright (v : Word) : Completes (.registerWrite m Reg.QDL_BRIGHT 4 v 0) s fun u =>
    fld (u.shd Reg.QDL_BRIGHT) 15 0 = fld v 15 0 ∧ u.f Reg.QDL_BRIGHT 15 0 = s.f Reg.QDL_BRIGHT 15 0 ∧ SameRegsBut (fun b => b = Reg.QDL_BRIGHT) s u ∧ SameMemory s u := by
  obtain ⟨r, i, hf, hc⟩ := row_of_map (F := fun r => (rowCodes r, decide (r.sh = .struct)))
    (show (RegMap.find Reg.QDL_BRIGHT).map (fun e => (rowCodes e.1, decide (e.1.sh = .struct))) = some ((0xFFFF, 0xFFFF, 0, 0, 0), false) by decide +kernel)
  obtain ⟨⟨h1, h2, h3, h4, -⟩, h6⟩ : (r.rw = _ ∧ r.shm = _ ∧ r.w1c = _ ∧ r.w1s = _ ∧ r.rc = _) ∧ r.sh ≠ .struct := by simpa [rowCodes] using hc
  have hw : s.regWrite m Reg.QDL_BRIGHT v = (s.setReg Reg.QDL_BRIGHT (s.reg Reg.QDL_BRIGHT)).setShd Reg.QDL_BRIGHT ((s.shd Reg.QDL_BRIGHT &&& ~~~0xFFFF) ||| (v &&& 0xFFFF)) := by
    have e : s.regWrite m Reg.QDL_BRIGHT v = s.writeCoded Reg.QDL_BRIGHT v := rfl
    rw [e, State.writeCoded]
    simp [hf, h1, h2, h3, h4, h6]
  refine ⟨_, execRegisterWrite_eq (State.busWrite_word (.inl hm) (State.targetOff_of_state h5 _) (by decide) rfl), ?_⟩
  rw [State.targetOff_of_state h5, hw]
  set u := (s.setReg Reg.QDL_BRIGHT (s.reg Reg.QDL_BRIGHT)).setShd Reg.QDL_BRIGHT ((s.shd Reg.QDL_BRIGHT &&& ~~~0xFFFF) ||| (v &&& 0xFFFF)) with hu
  have hr := fun b => (State.reg_setWins_zero Reg.QDL_BRIGHT b u).trans (State.reg_setReg_self s Reg.QDL_BRIGHT b)
  refine ⟨?_, State.f_of_reg (hr _) 15 0, fun b _ => hr b, State.byte_congr (t := u.setWins Reg.QDL_BRIGHT 0) (State.setWins_frame Reg.QDL_BRIGHT 0 u).2.1⟩
  have hs : (u.setWins Reg.QDL_BRIGHT 0).shd Reg.QDL_BRIGHT = (s.shd Reg.QDL_BRIGHT &&& ~~~0xFFFF) ||| (v &&& 0xFFFF) := by
    have h : (u.setWins Reg.QDL_BRIGHT 0).shd Reg.QDL_BRIGHT = u.shd Reg.QDL_BRIGHT := by
      unfold State.shd
      rw [(State.setWins_frame Reg.QDL_BRIGHT 0 u).2.2.1]
    rw [h, hu, State.shd_setShd, if_pos rfl]
  refine (congrArg (fld · 15 0) hs).trans (fld_of_bits fun j _ hj => ?_)
  interval_cases j <;> simp [bitAt]

theorem rcRegisterRead_holds (e : Word) : Completes (.rcRegisterRead m Reg.QDL_HOLDS e) s fun u => u.answer = ⟨0, s.reg Reg.QDL_HOLDS⟩ ∧
    u.f Reg.QDL_HOLDS 15 0 = fld e 15 0 ∧ SameRegsBut (fun b => b = Reg.QDL_HOLDS) s u ∧ SameMemory s u := by
  obtain ⟨r, i, hf, hc⟩ := row_of_map (F := rowCodes) (show (RegMap.find Reg.QDL_HOLDS).map (fun e => rowCodes e.1) = some (0, 0, 0, 0, 0xFFFF) by decide +kernel)
  obtain ⟨h1, h2, h3, h4, h6⟩ : r.rw = _ ∧ r.shm = _ ∧ r.w1c = _ ∧ r.w1s = _ ∧ r.rc = _ := by simpa [rowCodes] using hc
  have hr : s.regRead m Reg.QDL_HOLDS = (s.reg Reg.QDL_HOLDS, s.setReg Reg.QDL_HOLDS (s.reg Reg.QDL_HOLDS &&& ~~~0xFFFF)) := by
    rw [State.regRead_of_plainRead (by decide) hm, State.readCoded_of_shm_zero hf h2, State.clearRead_of_rc hf (by rw [h6]; decide), h6]
    rfl
  refine ⟨_, exec_rcRegisterRead_of_regRead hf hm (State.targetOff_of_state h5 _) (by decide) rfl hr, rfl, ?_, fun b hb => ?_, fun _ => rfl⟩
  · rw [State.f_reply]
    unfold State.f
    rw [State.reg_setReg_same, State.reg_setReg_same, h6]
    refine fld_of_bits fun j _ hj => ?_
    interval_cases j <;> simp [bitAt]
  · exact (State.reg_setReg_ne _ hb _).trans (State.reg_setReg_ne _ hb _)

end

theorem State.state_of_powered {s : State} (h : s.targetOff Reg.BLK_CLIPLO = false) : s.pwr.state ≠ 5 := by
  intro h5
  have : s.targetOff Reg.BLK_CLIPLO = true := by
    unfold State.targetOff
    rw [h5]
    decide
  exact absurd (h.symm.trans this) (by decide)

theorem State.busWrite_protMem {m : Acc} {a : Nat} {s : State} (hm : m.debug = false ∨ s.debugAllows a true = true) (hoff : s.targetOff a = false)
    (hin : inRegs a = false) (bs : List Byte) :
    (State.memProt m a true = true → s.busWrite m a bs = (3, s.errResponse m.port a 3 true)) ∧ (State.memProt m a true = false → s.busWrite m a bs = s.memWrite m.port a bs) := by
  constructor <;> intro hp <;>
    simp only [State.busWrite, State.not_denied hm, hoff, hin, hp, Bool.false_eq_true, if_false, if_true, State.failWrite]

/-- Settles O53: each access by the branch of the bus that answers it, and the commands that are such accesses one by one. -/
theorem registerAccess : Obligations.RegisterAccess := by
  unfold Obligations.RegisterAccess
  refine ⟨fun m a v s T hm hT => ?_, fun m a size v set s t c h => ?_, fun m a v s hm hoff => ?_, fun m a e s t ht => ?_,
    fun m s v x b sl e d bo p2 k q n p3 p4 => ⟨exec_isWrite m s v x b sl e d bo p2 k q n p3 p4, exec_isRead m s v bo n p3⟩, fun m a v s => ?_⟩
  · subst hT
    refine ⟨fun h => (registerAccess_errors v hm h).1, fun h hoff hin => (registerAccess_errors v hm h).2 hoff hin, registerWrite_overflows v hm, fun hoff => ?_⟩
    have h5 := State.state_of_powered hoff
    exact ⟨registerWrite_cliplo hm h5 v, registerWrite_rl hm h5 v, registerWrite_stat hm h5 v, registerWrite_bright hm h5 v, rcRegisterRead_holds hm h5⟩
  · obtain ⟨h1, h2, -, -⟩ := t.setWins_frame a set
    exact ⟨execRegisterWrite_eq h, fun r i hf => State.reg_setWins_row hf set t, h1, State.byte_congr h2⟩
  · exact ⟨fun hin hal hend hp => State.busWrite_word hm hoff ⟨hin, hal, hend⟩ hp, fun bs hin => (State.busWrite_protMem hm hoff hin bs).1,
      fun bs hin => (State.busWrite_protMem hm hoff hin bs).2⟩
  · subst ht
    exact ⟨execRcRegisterRead_plain e, fun r i hm hc hf => execRcRegisterRead_row e hm hc hf⟩
  · refine ⟨fun hm h => ⟨State.askWrite_refusedDebug v hm h, State.bit_raise0_same _ (by decide) (by decide) (by decide), State.byte_congr (State.told_raise0 ..).mem⟩,
      State.askRead_refusedDebug, fun hm hoff => State.askWrite_fails (State.busWrite_off hm hoff), fun hm hoff => State.askRead_fails (State.busRead_off hm hoff),
      fun hm hoff hin hal hend => ⟨fun hp => State.askWrite_fails (State.busWrite_prot hoff hin hm hal hend hp), fun hp => State.askWrite_word hm hoff ⟨hin, hal, hend⟩ hp⟩,
      fun hm hoff hin hal hend => ⟨fun hp => State.askRead_fails (State.busRead_prot hoff hin hm hal hend hp), fun hp w t h => ?_⟩⟩
    exact State.askRead_of_regRead hm hoff ⟨hin, hal, hend⟩ hp h

end Sys2Proof.Machine
end

section
/-! What sending on a hop leaves: all but the links, their registers, the outputs and what an event changes (R285 to R294). -/

namespace Sys2Proof.Machine

/-- A register of the Aketh ports. -/
abbrev linkBlock (a : Nat) : Prop := blockOf a = 11 ∨ blockOf a = 12

/-- `t` is `s` after frames were sent or a hop changed. -/
structure Linked (s t : State) : Prop where
  state : ∃ regs evr irq w link out fresh a b c,
    t = { s with regs := regs, evr := evr, irq := irq, pwr := { s.pwr with waking := w }, link := link, out := out, fresh := fresh,
                 beam := { s.beam with hopsA := a, hopsB := b, hopsT := c } }
  regs : ∀ a, ¬ eventReg a → ¬ linkBlock a → t.reg a = s.reg a

theorem Linked.refl (s : State) : Linked s s :=
  ⟨⟨s.regs, s.evr, s.irq, s.pwr.waking, s.link, s.out, s.fresh, s.beam.hopsA, s.beam.hopsB, s.beam.hopsT, rfl⟩, fun _ _ _ => rfl⟩

theorem Linked.trans {s t u : State} (h : Linked s t) (k : Linked t u) : Linked s u := by
  obtain ⟨⟨_, _, _, _, _, _, _, _, _, _, rfl⟩, hr⟩ := h
  obtain ⟨⟨regs, evr, irq, w, link, out, fresh, a, b, c, rfl⟩, kr⟩ := k
  exact ⟨⟨regs, evr, irq, w, link, out, fresh, a, b, c, rfl⟩, fun a ha hl => (kr a ha hl).trans (hr a ha hl)⟩

theorem Linked.ite {p : Prop} [Decidable p] {s t u : State} (h : Linked s t) (k : Linked s u) : Linked s (if p then t else u) := by
  split
  · exact h
  · exact k

theorem Linked.foldl {α : Type} {f : State → α → State} (hf : ∀ t x, Linked t (f t x)) (l : List α) (s : State) : Linked s (l.foldl f s) := by
  induction l generalizing s with
  | nil => exact .refl s
  | cons x xs ih => exact (hf s x).trans (ih _)

theorem Linked.setReg {a : Nat} (ha : linkBlock a) (s : State) (v : Word) : Linked s (s.setReg a v) :=
  ⟨⟨_, s.evr, s.irq, s.pwr.waking, s.link, s.out, s.fresh, s.beam.hopsA, s.beam.hopsB, s.beam.hopsT, rfl⟩,
    fun b _ hb => State.reg_setReg_ne s (by rintro rfl; exact hb ha) v⟩

theorem Linked.of_told {s t : State} (h : Told s t) (hr : ∀ a, ¬ eventReg a → ¬ linkBlock a → t.reg a = s.reg a) : Linked s t := by
  obtain ⟨regs, evr, irq, w, rfl⟩ := h
  exact ⟨⟨regs, evr, irq, w, s.link, s.out, s.fresh, s.beam.hopsA, s.beam.hopsB, s.beam.hopsT, rfl⟩, hr⟩

/-- A state that differs in its links and outputs alone. -/
theorem Linked.of_link (s : State) (link : LinkSt) (out : List Out) (fresh : Nat) : Linked s { s with link := link, out := out, fresh := fresh } :=
  ⟨⟨s.regs, s.evr, s.irq, s.pwr.waking, link, out, fresh, s.beam.hopsA, s.beam.hopsB, s.beam.hopsT, rfl⟩, fun _ _ _ => rfl⟩

section
variable {s t : State} (h : Linked s t)
include h

theorem Linked.mem : t.mem = s.mem := by obtain ⟨_, _, _, _, _, _, _, _, _, _, rfl⟩ := h.state; rfl
theorem Linked.sec : t.sec = s.sec := by obtain ⟨_, _, _, _, _, _, _, _, _, _, rfl⟩ := h.state; rfl
theorem Linked.fab : t.fab = s.fab := by obtain ⟨_, _, _, _, _, _, _, _, _, _, rfl⟩ := h.state; rfl
theorem Linked.byte (k : Nat) : t.byte k = s.byte k := State.byte_congr h.mem k

end

/-! The operations. -/

theorem linkBlock_hop (h : Hop) : linkBlock (linkReg h) ∧ linkBlock (Reg.AKx_RFILL (hopPort h)) ∧ linkBlock (Reg.AKx_DROP (hopPort h)) ∧
    linkBlock (Reg.AKx_STAT (hopPort h)) := by
  cases h <;> decide

theorem State.linked_setHop (h : Hop) (x : HopSt) (s : State) : Linked s (s.setHop h x) := .of_link s _ s.out s.fresh

theorem State.linked_akRaise (h : Hop) (bit : Nat) (s : State) : Linked s (s.akRaise h bit) := by
  have hk : (stAK (hopPort h)).known = true := by cases h <;> decide
  refine .of_told (State.told_raise ..) fun a ha hl => State.reg_raise_ne s _ _ _ _ ?_ ha hk
  rintro rfl
  exact hl (linkBlock_hop h).2.2.2

theorem State.linked_showFill (h : Hop) (s : State) : Linked s (s.showFill h) := .ite (.refl s) (.setReg (linkBlock_hop h).2.1 ..)

theorem State.linked_noteHops (h : Hop) (n : Option Nat) (s : State) : Linked s (s.noteHops h n) := by
  unfold State.noteHops
  split
  · exact ⟨⟨s.regs, s.evr, s.irq, s.pwr.waking, s.link, s.out, s.fresh, n, s.beam.hopsB, s.beam.hopsT, rfl⟩, fun _ _ _ => rfl⟩
  · exact ⟨⟨s.regs, s.evr, s.irq, s.pwr.waking, s.link, s.out, s.fresh, s.beam.hopsA, n, s.beam.hopsT, rfl⟩, fun _ _ _ => rfl⟩
  · exact ⟨⟨s.regs, s.evr, s.irq, s.pwr.waking, s.link, s.out, s.fresh, s.beam.hopsA, s.beam.hopsB, n, rfl⟩, fun _ _ _ => rfl⟩
  · exact ⟨⟨s.regs, s.evr, s.irq, s.pwr.waking, s.link, s.out, s.fresh, s.beam.hopsA, s.beam.hopsB, n, rfl⟩, fun _ _ _ => rfl⟩

theorem State.linked_transmit (h : Hop) (f : Frame) (s : State) : Linked s (s.transmit h f) := by
  unfold State.transmit
  extract_lets x due g t g' credit replay t'
  have hdue : ∀ u, Linked u (due u) := fun u => .ite (.refl u) (.of_link u _ u.out _)
  have ht : Linked s t := .of_link s _ _ s.fresh
  have ht' : Linked s t' := Linked.trans (.of_link s _ _ s.fresh) (State.linked_showFill ..)
  exact .ite (.ite (ht.trans (hdue t)) ht) (.ite (ht'.trans (hdue t')) ht')

theorem State.linked_drr (h : Hop) (n : Nat) (s : State) : Linked s (s.drr h n).2 := by
  fun_induction State.drr
  case case6 ih => exact (State.linked_setHop ..).trans ih
  case case7 ih => exact (State.linked_setHop ..).trans ih
  case case5 => exact State.linked_setHop ..
  all_goals exact .refl _

theorem State.linked_nextOut (h : Hop) (s : State) : Linked s (s.nextOut h).2 := by
  have hd := State.linked_drr h 64 s
  unfold State.nextOut
  split
  · exact .refl s
  · split
    · next e => rw [e] at hd; exact hd
    · next e => rw [e] at hd; exact hd

theorem State.linked_drain (h : Hop) (n : Nat) (s : State) : Linked s (State.drain h n s) := by
  induction n generalizing s with
  | zero => exact .refl s
  | succ n ih =>
    have hn := s.linked_nextOut h
    unfold State.drain
    refine .ite (.refl s) ?_
    split
    · next e t k =>
      rw [k] at hn
      exact .ite ((hn.trans ((State.linked_setHop ..).trans (State.linked_transmit ..))).trans (ih _)) (.refl s)
    · exact .refl s

theorem State.linked_put (h : Hop) (transit : Bool) (f : Frame) (s : State) : Linked s (s.put h transit f) := by
  unfold State.put
  refine .ite ((Linked.setReg (linkBlock_hop h).2.2.1 ..).trans (State.linked_akRaise ..)) (.ite (.ite (.refl s) (State.linked_transmit ..)) ?_)
  exact Linked.trans (Linked.foldl (fun t g => t.linked_setHop h _) _ s) (State.linked_drain ..)

theorem State.linked_inject (trunks : List Hop) (f : Frame) (s : State) : Linked s (s.inject trunks f) := by
  have ht : Linked s (s.takeRingSeq trunks) := .of_link s _ s.out s.fresh
  unfold State.inject
  refine .ite ?_ (.ite (ht.trans (State.linked_put ..)) (.ite (ht.trans (State.linked_put ..)) ht))
  split
  · exact ht.trans (State.linked_put ..)
  · exact ht.trans ((Linked.setReg (by decide) ..).trans (State.linked_akRaise ..))

theorem State.linked_copyDown (not_ : List Hop) (b : Bool) (f : Frame) (s : State) : Linked s (s.copyDown not_ b f) :=
  Linked.foldl (fun t h => t.linked_put h true f) _ s

theorem State.linked_copyUp (not_ : List Hop) (f : Frame) (s : State) : Linked s (s.copyUp not_ f) := by
  unfold State.copyUp
  split
  · exact .ite (State.linked_put ..) (.refl s)
  · exact .refl s

theorem State.linked_originate (f : Frame) (s : State) : Linked s (s.originate f) := by
  unfold State.originate
  refine .ite (.refl s) ?_
  split
  · exact State.linked_put ..
  · exact ((State.linked_copyDown ..).trans (State.linked_copyUp ..)).trans (State.linked_inject ..)

theorem State.linked_sendCensus (s : State) : Linked s s.sendCensus := .ite (State.linked_inject ..) (.refl s)

theorem State.linked_downHop (h : Hop) (s : State) : Linked s (s.downHop h) := by
  unfold State.downHop
  extract_lets up x e s1 s2 s3 s4
  have h2 : Linked s s2 := (s.linked_setHop h _).trans (Linked.setReg (linkBlock_hop h).1 s1 _)
  have h3 : Linked s s3 := (h2.trans (s2.linked_showFill h)).trans (State.linked_noteHops h none _)
  have h4 : Linked s s4 := h3.trans (State.linked_akRaise ..)
  exact .ite h3 (.ite h4 (h4.trans (State.linked_sendCensus _)))

theorem State.linked_retrain (p : Nat) (s : State) : Linked s (s.retrain p) := (State.linked_downHop ..).trans (State.linked_downHop ..)

end Sys2Proof.Machine
end

section
/-! What an event leaves of the recorder and of its registers (R380 to R388, R438). -/

namespace Sys2Proof.Machine

/-! An arrival changes no register but those of the interrupt controller. -/

theorem State.reg_arriveAt_ne {n a : Nat} (hn : n < 256) (ha : blockOf a ≠ 15) (s : State) : (s.arriveAt n).reg a = s.reg a := by
  have h1 : a ≠ Reg.IRQ_SRCs n := fun e => ha (e ▸ blockOf_eq (by simp only [Reg.IRQ_SRCs]; omega) (by decide))
  have h2 : a ≠ Reg.IRQ_OVFw (n / 32) := fun e => ha (e ▸ blockOf_eq (by simp only [Reg.IRQ_OVFw]; omega) (by decide))
  unfold State.arriveAt
  dsimp only
  split
  · exact State.reg_setBit_ne _ h1 _ _
  · split
    · exact State.reg_setBit_ne _ h2 _ _
    · exact State.reg_setF_ne _ h1 _ _ _

theorem State.reg_arrive_ne {n a : Nat} (hn : n < 256) (ha : blockOf a ≠ 15) (s : State) : (s.arrive n).reg a = s.reg a := by
  unfold State.arrive
  split
  · unfold State.arriveAwake
    split
    · exact State.reg_arriveAt_ne hn ha s
    · next k hk =>
      have hk16 := State.coalOf_lt hk
      have hh : a ≠ Reg.IRQ_COALk_HELD k := fun e => ha (e ▸ blockOf_eq (by simp only [Reg.IRQ_COALk_HELD]; omega) (by decide))
      dsimp only
      split
      · exact State.reg_arriveAt_ne hn ha s
      · split
        · exact (State.reg_arriveAt_ne hn ha _).trans ((State.reg_setF_ne _ hh _ _ _).trans ((State.reg_setF_ne _ hh _ _ _).trans (State.reg_setF_ne _ hh _ _ _)))
        · exact State.reg_setF_ne _ hh _ _ _
  · split
    · rfl
    · refine foldl_keeps (fun t => t.reg a) (fun t k => ?_) _ s
      have hw : a ≠ Reg.IRQ_WAKESTAT := fun e => ha (e.symm ▸ by decide)
      exact State.reg_setBit_ne t hw _ _

/-- The recorder holds what it did, but for the events that wait or were lost. -/
def SameStore (s t : State) : Prop := ∃ q l, t.evr = { s.evr with queue := q, lost := l }

theorem SameStore.refl (s : State) : SameStore s s := ⟨_, _, rfl⟩

theorem SameStore.of_evr {s t : State} (h : t.evr = s.evr) : SameStore s t := ⟨_, _, h⟩

theorem SameStore.trans {s t u : State} (h : SameStore s t) (k : SameStore t u) : SameStore s u := by
  obtain ⟨_, _, e⟩ := h
  obtain ⟨q, l, e'⟩ := k
  exact ⟨q, l, by rw [e', e]⟩

theorem SameStore.sec {s t : State} (h : SameStore s t) : t.evr.sec = s.evr.sec := by obtain ⟨_, _, e⟩ := h; rw [e]
theorem SameStore.secNext {s t : State} (h : SameStore s t) : t.evr.secNext = s.evr.secNext := by obtain ⟨_, _, e⟩ := h; rw [e]
theorem SameStore.seek {s t : State} (h : SameStore s t) : t.evr.seek = s.evr.seek := by obtain ⟨_, _, e⟩ := h; rw [e]

theorem State.evr_arrive (n : Nat) (s : State) : (s.arrive n).evr = s.evr := by
  have hat : ∀ (t : State), (t.arriveAt n).evr = t.evr := fun t => by
    unfold State.arriveAt
    dsimp only
    split
    · rfl
    · split <;> rfl
  unfold State.arrive
  split
  · unfold State.arriveAwake
    split
    · exact hat s
    · dsimp only
      split
      · exact hat s
      · split
        · exact hat _
        · rfl
  · split
    · rfl
    · exact foldl_keeps State.evr (fun _ _ => by rfl) _ s

theorem State.sameStore_arrive (n : Nat) (s : State) : SameStore s (s.arrive n) :=
  .of_evr (s.evr_arrive n)

theorem SameStore.setBit (a i : Nat) (b : Bool) (s : State) : SameStore s (s.setBit a i b) := .refl s

theorem State.sameStore_logEvent (code : Nat) (a0 a1 a2 a3 : Word) (s : State) : SameStore s (s.logEvent code a0 a1 a2 a3) := by
  unfold State.logEvent State.enqueueEvent
  split
  · exact ⟨_, _, rfl⟩
  · exact SameStore.trans (s := s) ⟨_, _, rfl⟩ (State.sameStore_arrive 183 _)

theorem State.sameStore_raise (r : StatReg) (bit : Nat) (a0 a2 a3 : Word) (s : State) : SameStore s (s.raise r bit a0 a2 a3) := by
  unfold State.raise
  dsimp only
  have harr : ∀ u, SameStore s u → SameStore s (match r.src with | some n => u.arrive n | none => u) := by
    intro u hu
    split
    · exact hu.trans (State.sameStore_arrive ..)
    · exact hu
  apply harr
  split
  · exact (SameStore.setBit r.addr bit true s).trans (State.sameStore_logEvent ..)
  · exact .refl s

theorem State.sameStore_secRaise (bit code : Nat) (a0 a2 a3 : Word) (s : State) : SameStore s (s.secRaise bit code a0 a2 a3) :=
  ((SameStore.setBit Reg.SEC_STAT bit true s).trans (State.sameStore_logEvent code a0 _ a2 a3 _)).trans (State.sameStore_arrive 184 _)

theorem State.sameStore_thaw (old s : State) : SameStore s (State.thaw old s) := by
  have h1 : SameStore s (State.showFrozen old s) := by
    unfold State.showFrozen
    split <;> exact .refl s
  unfold State.thaw
  dsimp only
  split
  · refine h1.trans ?_
    unfold State.enterHoldover
    split
    · exact .refl _
    · exact SameStore.trans (SameStore.of_evr rfl) (State.sameStore_raise ..)
  · exact h1

theorem State.sameStore_dropDebug (l : Nat) (s : State) : SameStore s (s.dropDebug l) := by
  have hfree : Freed { s with sec := { s.sec with level := l } } ((List.range 3).foldl State.coreDropped { s with sec := { s.sec with level := l } }) :=
    Freed.foldl _ (fun t c hc => t.freed_coreDropped (List.mem_range.mp hc)) _
  have e : s.dropDebug l = if 2 ≤ l then { s with sec := { s.sec with level := l } } else
      State.thaw { s with sec := { s.sec with level := l } } ((List.range 3).foldl State.coreDropped { s with sec := { s.sec with level := l } }) := rfl
  rw [e]
  split
  · exact .of_evr rfl
  · refine SameStore.trans (SameStore.of_evr ?_) (State.sameStore_thaw ..)
    obtain ⟨_, _, k⟩ := hfree.state
    rw [k]

end Sys2Proof.Machine
end

section
/-! What the security block's operations leave: its status, the wipe, and a reset (R86, R411, R454). -/

namespace Sys2Proof.Machine

/-! A bit of SEC_STAT. -/

theorem State.told_secBit (bit : Nat) (s : State) : Told s (s.secBit bit) := (Told.setReg ..).trans (State.told_arrive ..)

theorem State.told_secRaise (bit code : Nat) (a0 a2 a3 : Word) (s : State) : Told s (s.secRaise bit code a0 a2 a3) :=
  ((Told.setReg ..).trans (State.told_logEvent ..)).trans (State.told_arrive ..)

theorem State.bit_secBit (s : State) {bit i : Nat} (h : bit < 32) : (s.secBit bit).bit Reg.SEC_STAT i = if i = bit then true else s.bit Reg.SEC_STAT i := by
  unfold State.secBit
  rw [State.bit_arrive (by decide) (by decide)]
  split
  · next e => rw [e, State.bit_setBit_same _ _ _ h]
  · next e => exact State.bit_setBit_ne _ _ _ e

theorem State.bit_secRaise (s : State) {bit i code : Nat} {a0 a2 a3 : Word} (h : bit < 32) :
    (s.secRaise bit code a0 a2 a3).bit Reg.SEC_STAT i = if i = bit then true else s.bit Reg.SEC_STAT i := by
  unfold State.secRaise
  dsimp only
  rw [State.bit_arrive (by decide) (by decide), (State.logEvent_noted ..).bit (by decide)]
  split
  · next e => rw [e, State.bit_setBit_same _ _ _ h]
  · next e => exact State.bit_setBit_ne _ _ _ e

/-- What a command that ends with `bit` set leaves of `s`. -/
structure SecDone (bit : Nat) (s t : State) : Prop where
  told : Told s t
  set : t.bit Reg.SEC_STAT bit = true

theorem State.secDone_secBit (s : State) {bit : Nat} (h : bit < 32) : SecDone bit s (s.secBit bit) := ⟨s.told_secBit bit, (s.bit_secBit h).trans (if_pos rfl)⟩

theorem State.secDone_logged (code : Nat) (a0 a1 a2 a3 : Word) (s : State) : SecDone 9 s ((s.logEvent code a0 a1 a2 a3).secBit 9) :=
  ⟨(State.told_logEvent ..).trans (State.told_secBit ..), ((State.logEvent ..).bit_secBit (by decide)).trans (if_pos rfl)⟩

/-! The wipe and the resets. -/

/-- Secure SRAM reads zero. -/
def Wiped (s : State) : Prop := ∀ k, 0x30000000 ≤ k → k < 0x30040000 → s.byte k = 0

theorem Wiped.congr {s t : State} (h : Wiped s) (hm : t.mem = s.mem) : Wiped t := fun k h1 h2 => (State.byte_congr hm k).trans (h k h1 h2)

theorem State.wiped_wipe (cause : Nat) (s : State) : Wiped (s.wipe cause) := fun k h1 h2 =>
  (State.byte_zeroRange ({ s with sec := { s.sec with fleet := [], wipeCause := cause } } : State) 0x30000000 0x30040000 k).trans (if_pos ⟨h1, h2⟩)

theorem State.byte_chipReset_zero {s : State} {k : Nat} (h : s.byte k = 0) (cause : Nat) : (s.chipReset cause).byte k = 0 := by
  obtain ⟨-, mbyte, -⟩ := s.resetFabric.resetManagement_spec
  obtain ⟨-, -, -, cbyte, -⟩ := s.resetFabric.resetManagement.resetCores_spec
  refine cbyte k (mbyte k ?_)
  exact State.byte_zeroRange_zero (s := s.resetBlocks isFabric) h sramBase sramEnd

/-- The state that the wipe and the loss of the debug grant leave, before anything is reported. -/
def State.forgotten (s : State) (cause : Nat) : State := (s.wipe cause).dropDebug 0

theorem State.forgotten_spec (s : State) (cause : Nat) : (s.forgotten cause).sec = { s.sec with fleet := [], wipeCause := cause, level := 0 } ∧
    (s.forgotten cause).fab.wiping = true ∧ Wiped (s.forgotten cause) := by
  obtain ⟨_, _, _, _, _, _, e⟩ := ((s.wipe cause).lapsed_dropDebug 0).state
  have hw := s.wiped_wipe cause
  unfold State.forgotten
  rw [e]
  exact ⟨rfl, rfl, hw.congr rfl⟩

/-- A life-cycle transition before the reset that may follow it (R454). -/
theorem State.advance_spec (s : State) (dst : Nat) : (s.advance dst false).sec.life = dst ∧ (s.advance dst false).sec.level = 0 ∧ (s.advance dst false).sec.fleet = [] ∧
    (s.advance dst false).sec.token = none ∧ (s.advance dst false).fab.wiping = true ∧ (s.advance dst false).evr.sec = [] ∧ (s.advance dst false).evr.secNext = 0 ∧
    (s.advance dst false).bit Reg.SEC_STAT 7 = true ∧ (s.advance dst false).bit Reg.SEC_STAT 9 = true ∧ Wiped (s.advance dst false) := by
  have e : ∃ u v : State, u = (({ s with sec := { s.sec with life := dst, token := none } } : State).wipe 1).clearSecurity ∧ v = u.dropDebug 0 ∧
      s.advance dst false = (v.secRaise 7 0x300 0 (wd s.sec.life) (wd dst)).secBit 9 := ⟨_, _, rfl, rfl, rfl⟩
  obtain ⟨u, v, hu, hv, e⟩ := e
  have hw : Wiped u := fun k h1 h2 => by
    rw [hu]
    exact State.byte_zeroRange_zero (s := ({ s with sec := { s.sec with life := dst, token := none } } : State).wipe 1) (State.wiped_wipe _ _ k h1 h2) secBase (secBase + 0x4000)
  have hst : SameStore u v := hv ▸ State.sameStore_dropDebug 0 u
  obtain ⟨_, _, _, _, _, _, ev⟩ := (u.lapsed_dropDebug 0).state
  rw [← hv] at ev
  have ht : Told v (s.advance dst false) := by
    rw [e]
    exact (State.told_secRaise ..).trans (State.told_secBit ..)
  have hs : SameStore u (s.advance dst false) := by
    rw [e]
    exact (hst.trans (v.sameStore_secRaise ..)).trans ((SameStore.setBit Reg.SEC_STAT 9 true _).trans (State.sameStore_arrive 184 _))
  have hsec : (s.advance dst false).sec = { u.sec with level := 0 } := ht.sec.trans (by rw [ev])
  have husec : u.sec = { s.sec with life := dst, token := none, fleet := [], wipeCause := 1 } := by rw [hu]; rfl
  have hufab : u.fab.wiping = true := by rw [hu]; rfl
  have huevr : u.evr.sec = [] ∧ u.evr.secNext = 0 := by rw [hu]; exact ⟨rfl, rfl⟩
  rw [husec] at hsec
  refine ⟨by rw [hsec], by rw [hsec], by rw [hsec], by rw [hsec], ?_, hs.sec.trans huevr.1, hs.secNext.trans huevr.2, ?_, ?_, hw.congr (ht.mem.trans ?_)⟩
  · rw [ht.fab, ev]
    exact hufab
  · rw [e, State.bit_secBit _ (by decide), if_neg (by decide), State.bit_secRaise _ (by decide), if_pos rfl]
  · rw [e, State.bit_secBit _ (by decide), if_pos rfl]
  · rw [ev]

section
variable {m : Acc} {s : State}

/-! Who reaches the block (R451). -/

theorem Acc.sec_debug (h : m.sec = true) : m.debug = false := by
  simp only [Acc.sec, Bool.and_eq_true, Bool.not_eq_true'] at h
  exact h.2

theorem regProt_sec {a : Nat} (hb : blockOf a = 23) (v : Word) : regProt m a true v = !m.sec := by
  simp only [regProt, hb, Bool.true_or, Bool.and_true]

theorem exec_security : ∀ e ∈ [(1, Instr.lcadv m), (2, .ownkey m), (3, .revoke m), (4, .dbgkey m), (5, .svnset m), (6, .fleetload m), (7, .fleetzero m), (8, .dbgdrop m)],
    exec e.2 s = .next (s.askWrite m Reg.SEC_CMD (wd e.1)) ∧ 1 ≤ e.1 ∧ e.1 ≤ 8 := by
  simp only [List.forall_mem_cons, List.not_mem_nil, false_imp_iff, implies_true, and_true]
  and_intros
  all_goals first | rfl | decide

theorem State.askWrite_secCmd (hm : m.sec = true) (hoff : s.targetOff Reg.SEC_CMD = false) {op : Nat} (h : op ≤ 8) :
    s.askWrite m Reg.SEC_CMD (wd op) = (s.secCmd op).reply 0 0 := by
  have hf : fld (wd op) 3 0 = op := by
    interval_cases op <;> rfl
  rw [State.askWrite_word (.inl (Acc.sec_debug hm)) hoff (by decide) ((regProt_sec (by decide) _).trans (by rw [hm]; rfl))]
  have e : s.regWrite m Reg.SEC_CMD (wd op) = s.secCmd (fld (wd op) 3 0) := rfl
  rw [e, hf]

theorem State.askWrite_secTclr (hm : m.sec = true) (hoff : s.targetOff Reg.SEC_CMD = false) (v : Word) : s.askWrite m Reg.SEC_TCLR v = (s.tclr v).reply 0 0 := by
  rw [State.askWrite_word (.inl (Acc.sec_debug hm)) (show s.targetOff Reg.SEC_TCLR = false from hoff) (by decide) ((regProt_sec (by decide) _).trans (by rw [hm]; rfl))]
  rfl

theorem security_refused (hm : m.debug = false) (hs : m.sec = false) (hoff : s.targetOff Reg.SEC_CMD = false) {a : Nat} (ha : a = Reg.SEC_CMD ∨ a = Reg.SEC_TCLR) (v : Word) :
    Refused 3 s (s.askWrite m a v) := by
  have hp : blockOf a = 23 → regProt m a true v = true := fun hb => (regProt_sec hb v).trans (by rw [hs]; rfl)
  rcases ha with rfl | rfl
  · exact State.askWrite_protected hm hoff (by decide) (hp (by decide))
  · exact State.askWrite_protected hm hoff (by decide) (hp (by decide))

/-! What a write of SEC_CMD does (R453). -/

theorem State.secCmd_refuses {op : Nat} (h : s.sec.cmd ≠ none ∨ s.secAllowed op = false) : s.secCmd op = s.secBit 4 :=
  if_pos (h.imp_left fun k => by simpa [Option.isSome_iff_ne_none] using k)

theorem State.secCmd_begins {op : Nat} (hc : s.sec.cmd = none) (ha : s.secAllowed op = true) (h : op ≤ 6) :
    s.secCmd op = { s with sec := { s.sec with cmd := some (op, (s.reg Reg.SEC_ARG).toNat) } } :=
  (if_neg (by simp [hc, ha])).trans ((if_neg (by omega)).trans (if_neg (by omega)))

theorem State.secCmd_fleetzero (hc : s.sec.cmd = none) (ha : s.secAllowed 7 = true) : ∃ u, SecDone 9 { s with sec := { s.sec with fleet := s.sec.fleet.erase ((s.reg Reg.SEC_ARG).toNat % 8) } } u ∧
    s.secCmd 7 = u :=
  ⟨_, State.secDone_logged _ _ _ _ _ _, (if_neg (by simp [hc, ha])).trans (if_pos rfl)⟩

theorem State.secCmd_dbgdrop (hc : s.sec.cmd = none) : s.secCmd 8 = (s.dropDebug 0).secBit 9 := (if_neg (by simp [hc, State.secAllowed])).trans rfl

/-- A command that is allowed and begins. -/
theorem security_begins {c : Instr} {op : Nat} (hx : exec c s = .next ((s.secCmd op).reply 0 0)) (hc : s.sec.cmd = none) (ha : s.secAllowed op = true) (h : op ≤ 6) :
    Completes c s fun t => t.sec = { s.sec with cmd := some (op, (s.reg Reg.SEC_ARG).toNat) } ∧ t.regs = s.regs := by
  rw [State.secCmd_begins hc ha h] at hx
  exact ⟨_, hx, rfl, rfl⟩

theorem security_refuses {c : Instr} {op : Nat} (hx : exec c s = .next ((s.secCmd op).reply 0 0)) (h : s.sec.cmd ≠ none ∨ s.secAllowed op = false) :
    Completes c s fun t => t.bit Reg.SEC_STAT 4 = true ∧ t.sec = s.sec ∧ SameMemory s t := by
  rw [State.secCmd_refuses h] at hx
  have hd := s.secDone_secBit (bit := 4) (by decide)
  exact ⟨_, hx, hd.set, hd.told.sec, State.byte_congr hd.told.mem⟩

end

/-! Completions (R453 to R458). -/

/-- The state in which a command's completion acts: it no longer runs. -/
def State.secIdle (s : State) : State := { s with sec := { s.sec with cmd := none } }

/-- The security block's own state as `x`. -/
def State.programmed (s : State) (x : SecSt) : State := { s with sec := x }

/-- The old value over which an owner key is programmed. -/
def keyUnder : Option (Option Nat) → Nat
  | some (some k) => k
  | _ => 0

/-- The old value over which the debug key is programmed. -/
def dbgKeyUnder : Option Nat → Nat
  | some k => k
  | none => 0

section
variable {s : State} {op a : Nat} (hc : s.sec.cmd = some (op, a))
include hc

theorem execSecCommandDone_fails : exec (.secCommandDone false) s = .next ((s.secIdle.secBit (if op = 6 then 3 else 8)).secBit 9) := by
  show execSecCommandDone false s = _
  unfold execSecCommandDone
  rw [hc]
  rfl

theorem execSecCommandDone_lcadv (h : op = 1) : exec (.secCommandDone true) s = .next (s.secIdle.advance (a % 8) (decide (3 ≤ a % 8))) := by
  subst h
  show execSecCommandDone true s = _
  unfold execSecCommandDone
  rw [hc]
  rfl

theorem secCommandDone_ownkey (h : op = 2) : ∃ t, exec (.secCommandDone true) s = .next t ∧ SecDone 9 (s.programmed
    { s.secIdle.sec with owner := s.sec.owner.set a (some (keyUnder s.sec.owner[a]? ||| s.le (s.reg Reg.SEC_SRC).toNat 96)) }) t := by
  subst h
  refine ⟨_, ?_, State.secDone_logged 0x30A (wd a) (s.reg Reg.SEC_STAT) 0 0 _⟩
  show execSecCommandDone true s = _
  unfold execSecCommandDone
  rw [hc]
  rfl

theorem secCommandDone_revoke (h : op = 3) : ∃ t, exec (.secCommandDone true) s = .next t ∧
    SecDone 9 (s.programmed { s.secIdle.sec with revoked := a :: s.sec.revoked.erase a }) t := by
  subst h
  refine ⟨_, ?_, State.secDone_logged 0x30A (wd a) (s.reg Reg.SEC_STAT) 1 0 _⟩
  show execSecCommandDone true s = _
  unfold execSecCommandDone
  rw [hc]
  rfl

theorem secCommandDone_dbgkey (h : op = 4) : ∃ t, exec (.secCommandDone true) s = .next t ∧ SecDone 9 (s.programmed
    { s.secIdle.sec with dbgKey := some (dbgKeyUnder s.sec.dbgKey ||| s.le (s.reg Reg.SEC_SRC).toNat 96) }) t := by
  subst h
  refine ⟨_, ?_, State.secDone_secBit _ (by decide)⟩
  show execSecCommandDone true s = _
  unfold execSecCommandDone
  rw [hc]
  rfl

theorem secCommandDone_svnset (h : op = 5) : ∃ t u, exec (.secCommandDone true) s = .next t ∧ SecDone 9 u t ∧ u.sec.svn = max s.sec.svn a ∧ u.mem = s.mem := by
  subst h
  have e : exec (.secCommandDone true) s = if a ≤ s.sec.svn then .next (s.secIdle.secBit 9) else
      .next (((s.programmed { s.secIdle.sec with svn := a }).logEvent 0x309 0 (s.reg Reg.SEC_STAT) (wd s.sec.svn) (wd a)).secBit 9) := by
    show execSecCommandDone true s = _
    unfold execSecCommandDone
    rw [hc]
    rfl
  rw [e]
  split
  · next hle => exact ⟨_, s.secIdle, rfl, State.secDone_secBit _ (by decide), (Nat.max_eq_left hle).symm, rfl⟩
  · next hle => exact ⟨_, s.programmed { s.secIdle.sec with svn := a }, rfl, State.secDone_logged .., (Nat.max_eq_right (by omega : s.sec.svn ≤ a)).symm, rfl⟩

theorem secCommandDone_fleetload (h : op = 6) : ∃ t, exec (.secCommandDone true) s = .next t ∧
    SecDone 9 (s.programmed { s.secIdle.sec with fleet := a % 8 :: s.sec.fleet.erase (a % 8) }) t := by
  subst h
  refine ⟨_, ?_, State.secDone_logged 0x30B (wd (a % 8)) (s.reg Reg.SEC_STAT) 0 0 _⟩
  show execSecCommandDone true s = _
  unfold execSecCommandDone
  rw [hc]
  rfl

end

/-! Tampering (R459, R460). -/

/-- What tampering of strength `action` does before it is reported. -/
def State.tampered (action : Nat) (s : State) : State :=
  let s1 := s.forgotten 0
  let s2 := if s1.pwr.state = 0 then s1 else { s1 with pwr := { s1.pwr with waking := true } }
  let s3 := if 1 ≤ action then (s2.retrain 0).retrain 1 else s2
  if 2 ≤ action then { s3 with sec := { s3.sec with tlock := true } } else s3

/-- The action configured for an input. -/
def State.tamperAction (s : State) (n : Nat) : Nat := min 2 (s.f Reg.SEC_TCFG (8 * n + 3) (8 * n + 2))

theorem State.tampered_spec (action : Nat) (s : State) : (s.tampered action).sec.level = 0 ∧ (s.tampered action).sec.fleet = [] ∧ (s.tampered action).fab.wiping = true ∧
    Wiped (s.tampered action) ∧ (2 ≤ action → (s.tampered action).sec.tlock = true) := by
  obtain ⟨hsec, hwiping, hwiped⟩ := s.forgotten_spec 0
  unfold State.tampered
  extract_lets s1 p s2 s3
  have h2 : s2.sec = s1.sec ∧ s2.fab = s1.fab ∧ s2.mem = s1.mem := by
    unfold s2
    split <;> exact ⟨rfl, rfl, rfl⟩
  have h3 : Linked s2 s3 := .ite ((State.linked_retrain ..).trans (State.linked_retrain ..)) (.refl s2)
  have hs : s3.sec = _ := (h3.sec.trans h2.1).trans hsec
  have hf : s3.fab.wiping = true := by
    rw [h3.fab, h2.2.1]
    exact hwiping
  have hw : Wiped s3 := hwiped.congr (h3.mem.trans h2.2.2)
  split
  · exact ⟨congrArg SecSt.level hs, congrArg SecSt.fleet hs, hf, hw.congr rfl, fun _ => rfl⟩
  · next h => exact ⟨congrArg SecSt.level hs, congrArg SecSt.fleet hs, hf, hw, fun k => absurd k h⟩

/-- One input reported. -/
def State.tamperReport (action : Nat) (t : State) (n : Nat) : State := t.secRaise n 0x301 (wd n) (wd action) (wd (b2n t.sec.tlock))

theorem State.tamperReport_spec {action n : Nat} (hn : n < 32) (t : State) : Told t (t.tamperReport action n) ∧
    ∀ i, (t.tamperReport action n).bit Reg.SEC_STAT i = if i = n then true else t.bit Reg.SEC_STAT i :=
  ⟨State.told_secRaise .., fun _ => State.bit_secRaise _ hn⟩

/-- What the inputs reported do. -/
def State.tamperResult (s : State) : Bool → Bool → State
  | false, false => s
  | true, false => (s.tampered (s.tamperAction 0)).tamperReport (s.tamperAction 0) 0
  | false, true => (s.tampered (s.tamperAction 1)).tamperReport (s.tamperAction 1) 1
  | true, true => ((s.tampered (max (s.tamperAction 0) (s.tamperAction 1))).tamperReport (max (s.tamperAction 0) (s.tamperAction 1)) 0).tamperReport
      (max (s.tamperAction 0) (s.tamperAction 1)) 1

theorem execTamperEvent_eq (in0 in1 : Bool) (s : State) :
    exec (.tamperEvent in0 in1) s = .next (s.tamperResult (in0 && s.tamperArmed 0) (in1 && s.tamperArmed 1)) := by
  show execTamperEvent in0 in1 s = _
  unfold execTamperEvent
  cases in0 && s.tamperArmed 0 <;> cases in1 && s.tamperArmed 1
  · rfl
  · simp only [Bool.false_eq_true, if_false, if_true, List.nil_append, List.isEmpty_cons, List.foldl_cons, List.foldl_nil, Nat.zero_max]
    rfl
  · simp only [Bool.false_eq_true, if_false, if_true, List.append_nil, List.isEmpty_cons, List.foldl_cons, List.foldl_nil, Nat.zero_max]
    rfl
  · simp only [if_true, List.cons_append, List.nil_append, List.isEmpty_cons, Bool.false_eq_true, if_false, List.foldl_cons, List.foldl_nil, Nat.zero_max]
    rfl

/-- A report of one or both inputs on a state that tampering has left. -/
theorem State.tamperReported {action : Nat} {u t : State} (ht : Told u t) (h : u.sec.level = 0 ∧ u.sec.fleet = [] ∧ u.fab.wiping = true ∧ Wiped u ∧
    (2 ≤ action → u.sec.tlock = true)) : t.sec.level = 0 ∧ t.sec.fleet = [] ∧ t.fab.wiping = true ∧ Wiped t ∧ (2 ≤ action → t.sec.tlock = true) := by
  obtain ⟨h1, h2, h3, h4, h5⟩ := h
  exact ⟨by rw [ht.sec, h1], by rw [ht.sec, h2], by rw [ht.fab, h3], h4.congr ht.mem, fun k => by rw [ht.sec, h5 k]⟩

/-- What tampering with the inputs given leaves. -/
abbrev Tampered (s : State) (b0 b1 : Bool) (t : State) : Prop :=
  t.sec.level = 0 ∧ t.sec.fleet = [] ∧ t.fab.wiping = true ∧ Wiped t ∧ (b0 = true → t.bit Reg.SEC_STAT 0 = true ∧ (2 ≤ s.tamperAction 0 → t.sec.tlock = true)) ∧
    (b1 = true → t.bit Reg.SEC_STAT 1 = true ∧ (2 ≤ s.tamperAction 1 → t.sec.tlock = true))

theorem State.tamperResult_spec (s : State) (b0 b1 : Bool) (h : b0 = true ∨ b1 = true) : Tampered s b0 b1 (s.tamperResult b0 b1) := by
  have one : ∀ n, n < 32 → ∀ act t, t = (s.tampered act).tamperReport act n → t.sec.level = 0 ∧ t.sec.fleet = [] ∧ t.fab.wiping = true ∧ Wiped t ∧
      (2 ≤ act → t.sec.tlock = true) ∧ t.bit Reg.SEC_STAT n = true := by
    rintro n hn act t rfl
    obtain ⟨ht, hb⟩ := State.tamperReport_spec (action := act) hn (s.tampered act)
    obtain ⟨h1, h2, h3, h4, h5⟩ := State.tamperReported ht (State.tampered_spec act s)
    exact ⟨h1, h2, h3, h4, h5, (hb n).trans (if_pos rfl)⟩
  match b0, b1 with
  | false, false => simp at h
  | true, false =>
    obtain ⟨h1, h2, h3, h4, h5, h6⟩ := one 0 (by decide) (s.tamperAction 0) (s.tamperResult true false) rfl
    exact ⟨h1, h2, h3, h4, fun _ => ⟨h6, h5⟩, fun k => absurd k (by decide)⟩
  | false, true =>
    obtain ⟨h1, h2, h3, h4, h5, h6⟩ := one 1 (by decide) (s.tamperAction 1) (s.tamperResult false true) rfl
    exact ⟨h1, h2, h3, h4, fun k => absurd k (by decide), fun _ => ⟨h6, h5⟩⟩
  | true, true =>
    have e : s.tamperResult true true = ((s.tampered (max (s.tamperAction 0) (s.tamperAction 1))).tamperReport (max (s.tamperAction 0) (s.tamperAction 1)) 0).tamperReport
      (max (s.tamperAction 0) (s.tamperAction 1)) 1 := rfl
    have g0 : s.tamperAction 0 ≤ max (s.tamperAction 0) (s.tamperAction 1) := le_max_left ..
    have g1 : s.tamperAction 1 ≤ max (s.tamperAction 0) (s.tamperAction 1) := le_max_right ..
    rw [e]
    generalize max (s.tamperAction 0) (s.tamperAction 1) = act at g0 g1
    obtain ⟨h1, h2, h3, h4, h5, h6⟩ := one 0 (by decide) act _ rfl
    obtain ⟨ht, hb⟩ := State.tamperReport_spec (action := act) (n := 1) (by decide) ((s.tampered act).tamperReport act 0)
    obtain ⟨k1, k2, k3, k4, k5⟩ := State.tamperReported ht ⟨h1, h2, h3, h4, h5⟩
    exact ⟨k1, k2, k3, k4, fun _ => ⟨((hb 0).trans (if_neg (by decide))).trans h6, fun k => k5 (k.trans g0)⟩,
      fun _ => ⟨(hb 1).trans (if_pos rfl), fun k => k5 (k.trans g1)⟩⟩

theorem State.tamperAction_bound (s : State) : (2 ≤ s.f Reg.SEC_TCFG 3 2 → 2 ≤ s.tamperAction 0) ∧ (2 ≤ s.f Reg.SEC_TCFG 11 10 → 2 ≤ s.tamperAction 1) :=
  ⟨fun k => le_min (by decide) k, fun k => le_min (by decide) k⟩

theorem tamperEvent_acts (in0 in1 : Bool) (s : State) (h : (in0 && s.tamperArmed 0) = true ∨ (in1 && s.tamperArmed 1) = true) : Completes (.tamperEvent in0 in1) s fun t =>
      t.sec.level = 0 ∧ t.sec.fleet = [] ∧ t.fab.wiping = true ∧ (∀ k, 0x30000000 ≤ k → k < 0x30040000 → t.byte k = 0) ∧
      ((in0 && s.tamperArmed 0) = true → t.bit Reg.SEC_STAT 0 = true ∧ (2 ≤ s.f Reg.SEC_TCFG 3 2 → t.sec.tlock = true)) ∧
      ((in1 && s.tamperArmed 1) = true → t.bit Reg.SEC_STAT 1 = true ∧ (2 ≤ s.f Reg.SEC_TCFG 11 10 → t.sec.tlock = true)) := by
  obtain ⟨h1, h2, h3, h4, h5, h6⟩ := s.tamperResult_spec _ _ h
  obtain ⟨a0, a1⟩ := s.tamperAction_bound
  exact ⟨_, execTamperEvent_eq in0 in1 s, h1, h2, h3, h4, fun k => ⟨(h5 k).1, fun q => (h5 k).2 (a0 q)⟩, fun k => ⟨(h6 k).1, fun q => (h6 k).2 (a1 q)⟩⟩

/-! The clauses on commands that are reached. -/

section
variable {m : Acc} {s : State} (hm : m.sec = true) (hoff : s.targetOff Reg.SEC_CMD = false)
include hm hoff

theorem security_reached : ∀ e ∈ [(1, Instr.lcadv m), (2, .ownkey m), (3, .revoke m), (4, .dbgkey m), (5, .svnset m), (6, .fleetload m), (7, .fleetzero m), (8, .dbgdrop m)],
    exec e.2 s = .next ((s.secCmd e.1).reply 0 0) := fun e he => by
  obtain ⟨h1, -, h8⟩ := exec_security (s := s) e he
  rw [h1, State.askWrite_secCmd hm hoff h8]

theorem lcadv_clauses (hc : s.sec.cmd = none) {arg : Nat} (harg : arg = (s.reg Reg.SEC_ARG).toNat) (u : State) (hu : u = { s with sec := { s.sec with cmd := some (1, arg) } }) :
    (s.sec.life = 1 → arg % 8 = 2 → exec (.lcadv m) s = .next (u.reply 0 0)) ∧ (s.sec.life = 0 → arg % 8 = 4 → exec (.lcadv m) s = .next (u.reply 0 0)) ∧
    (s.sec.life = 2 → arg % 8 ≤ 2 → Completes (.lcadv m) s fun t => t.bit Reg.SEC_STAT 4 = true ∧ t.sec = s.sec) := by
  have hx := security_reached hm hoff (1, .lcadv m) (by simp)
  have ha : s.secAllowed 1 = (s.transition (arg % 8)).isSome := by rw [harg]; rfl
  have hgo : s.secAllowed 1 = true → exec (.lcadv m) s = .next (u.reply 0 0) := fun k => by
    rw [hu, harg]
    exact hx.trans (by rw [State.secCmd_begins hc k (by decide)])
  refine ⟨fun hl hd => hgo ?_, fun hl hd => hgo ?_, fun hl hd => ?_⟩
  · rw [ha, State.transition, hl, hd]
    rfl
  · rw [ha, State.transition, hl, hd]
    rfl
  · have hno : s.secAllowed 1 = false := by
      rw [ha, State.transition, hl]
      interval_cases arg % 8 <;> rfl
    obtain ⟨t, e, h1, h2, -⟩ := security_refuses hx (.inr hno)
    exact ⟨t, e, h1, h2⟩

theorem security_rules (hc : s.sec.cmd = none) {arg src : Nat} (harg : arg = (s.reg Reg.SEC_ARG).toNat) (hsrc : src = (s.reg Reg.SEC_SRC).toNat) :
    (s.sec.tlock = false → s.sec.life ≤ 1 → arg < 4 → inSecure src 96 = true → Completes (.ownkey m) s fun t => t.sec = { s.sec with cmd := some (2, arg) } ∧ t.regs = s.regs) ∧
    (s.sec.tlock = false → arg < 4 → (∀ k v, s.sec.signed = some (k, v) → k ≠ arg) → Completes (.revoke m) s fun t =>
      t.sec = { s.sec with cmd := some (3, arg) } ∧ t.regs = s.regs) ∧
    (∀ v, s.sec.signed = some (arg, v) → Completes (.revoke m) s fun t => t.bit Reg.SEC_STAT 4 = true ∧ t.sec = s.sec) ∧
    (s.sec.life = 0 → inSecure src 96 = true → Completes (.dbgkey m) s fun t => t.sec = { s.sec with cmd := some (4, arg) } ∧ t.regs = s.regs) ∧
    (∀ k v, s.sec.signed = some (k, v) → arg ≤ v → arg ≤ 255 → Completes (.svnset m) s fun t => t.sec = { s.sec with cmd := some (5, arg) } ∧ t.regs = s.regs) ∧
    (255 < arg → Completes (.svnset m) s fun t => t.bit Reg.SEC_STAT 4 = true ∧ t.sec = s.sec) ∧
    (s.sec.tlock = false → 1 ≤ arg % 8 → arg % 8 ≤ 4 → Completes (.fleetload m) s fun t => t.sec = { s.sec with cmd := some (6, arg) } ∧ t.regs = s.regs) ∧
    (1 ≤ arg % 8 → arg % 8 ≤ 4 → Completes (.fleetzero m) s fun t => t.sec = { s.sec with fleet := s.sec.fleet.erase (arg % 8) } ∧ t.bit Reg.SEC_STAT 9 = true ∧
      SameMemory s t) ∧
    Completes (.dbgdrop m) s (fun t => t.sec.level = 0 ∧ t.bit Reg.SEC_STAT 9 = true ∧ SameMemory s t) := by
  subst harg hsrc
  have hx := security_reached hm hoff
  refine ⟨fun h1 h2 h3 h4 => security_begins (hx (2, .ownkey m) (by simp)) hc ?_ (by decide), fun h1 h2 h3 => security_begins (hx (3, .revoke m) (by simp)) hc ?_ (by decide),
    fun v h => ?_, fun h1 h2 => security_begins (hx (4, .dbgkey m) (by simp)) hc ?_ (by decide), fun k v h1 h2 h3 => security_begins (hx (5, .svnset m) (by simp)) hc ?_ (by decide),
    fun h => ?_, fun h1 h2 h3 => security_begins (hx (6, .fleetload m) (by simp)) hc ?_ (by decide), fun h1 h2 => ?_, ?_⟩
  · simp [State.secAllowed, h1, h2, h3, h4]
  · rcases hs : s.sec.signed with - | ⟨k, v⟩
    · simp [State.secAllowed, h1, h2, hs]
    · simp [State.secAllowed, h1, h2, hs, h3 k v hs]
  · obtain ⟨t, e, k1, k2, -⟩ := security_refuses (hx (3, .revoke m) (by simp)) (.inr (by simp [State.secAllowed, h]))
    exact ⟨t, e, k1, k2⟩
  · simp [State.secAllowed, h1, h2]
  · simp [State.secAllowed, h1, h2, h3]
  · obtain ⟨t, e, k1, k2, -⟩ := security_refuses (hx (5, .svnset m) (by simp)) (.inr (by simp [State.secAllowed, h]))
    exact ⟨t, e, k1, k2⟩
  · simp [State.secAllowed, h1, h2, h3]
  · obtain ⟨u, hd, e⟩ := s.secCmd_fleetzero hc (by simp [State.secAllowed, h1, h2])
    exact ⟨_, (hx (7, .fleetzero m) (by simp)).trans (congrArg (fun x => Host.Outcome.next (State.reply 0 0 x)) e), hd.told.sec, hd.set, State.byte_congr hd.told.mem⟩
  · obtain ⟨_, _, _, _, _, _, ed⟩ := (s.lapsed_dropDebug 0).state
    have hd := (s.dropDebug 0).secDone_secBit (bit := 9) (by decide)
    refine ⟨_, (hx (8, .dbgdrop m) (by simp)).trans (congrArg (fun x => Host.Outcome.next (State.reply 0 0 x)) (State.secCmd_dbgdrop hc)), ?_, hd.set, State.byte_congr (hd.told.mem.trans (by rw [ed]))⟩
    exact (congrArg SecSt.level hd.told.sec).trans (by rw [ed])

theorem secTclr_clauses (v : Word) : (v = 0xA55A → s.sec.bootPassed = true → exec (.secTclr m v) s = .next (({ s with sec := { s.sec with tlock := false } } : State).reply 0 0)) ∧
    (v ≠ 0xA55A ∨ s.sec.bootPassed = false → exec (.secTclr m v) s = .next (s.reply 0 0)) := by
  have e : exec (.secTclr m v) s = .next ((s.tclr v).reply 0 0) := congrArg Host.Outcome.next (State.askWrite_secTclr hm hoff v)
  refine ⟨fun h1 h2 => e.trans ?_, fun h => e.trans ?_⟩
  · rw [State.tclr, if_pos ⟨h1, h2⟩]
  · rw [State.tclr, if_neg]
    rintro ⟨h1, h2⟩
    rcases h with h | h
    · exact h h1
    · exact absurd (h.symm.trans h2) (by decide)

end

theorem State.advance_resets (s : State) (dst : Nat) : s.advance dst true = (s.advance dst false).chipReset 3 := by
  unfold State.advance
  simp only [if_true, Bool.false_eq_true, if_false]

/-- The completion of a transition (R454). -/
theorem secCommandDone_advances (s : State) (a : Nat) (hc : s.sec.cmd = some (1, a)) :
    (a % 8 < 3 → Completes (.secCommandDone true) s fun t =>
      t.sec.life = a % 8 ∧ t.sec.level = 0 ∧ t.sec.fleet = [] ∧ t.sec.token = none ∧ t.fab.wiping = true ∧ t.evr.sec = [] ∧ t.evr.secNext = 0 ∧
      t.bit Reg.SEC_STAT 7 = true ∧ t.bit Reg.SEC_STAT 9 = true ∧ Wiped t) ∧
    (3 ≤ a % 8 → Completes (.secCommandDone true) s fun t =>
      t.sec.life = a % 8 ∧ t.sec.level = 0 ∧ t.bit Reg.CLK_RSTCAUSE 3 = true ∧ t.running = false ∧ Wiped t) := by
  have e := execSecCommandDone_lcadv hc rfl
  refine ⟨fun hlt => ?_, fun hge => ?_⟩
  · rw [decide_eq_false (by omega)] at e
    exact ⟨_, e, s.secIdle.advance_spec (a % 8)⟩
  · rw [decide_eq_true hge, State.advance_resets] at e
    obtain ⟨h1, -, -, -, -, -, -, -, -, hw⟩ := s.secIdle.advance_spec (a % 8)
    revert e h1 hw
    generalize s.secIdle.advance (a % 8) false = u
    intro e h1 hw
    obtain ⟨c1, -, -, -, c5, -, -, -, -, -, -, -, -, c14, c15, -⟩ := u.chipReset_spec (cause := 3) (by decide)
    exact ⟨_, e, c14.trans h1, c15, c1, c5, fun k k1 k2 => State.byte_chipReset_zero (hw k k1 k2) 3⟩

/-- The completion of the other commands. -/
theorem secCommandDone_programs (s : State) (src op a key : Nat) (hsrc : src = (s.reg Reg.SEC_SRC).toNat) (hc : s.sec.cmd = some (op, a)) (hk : key = s.le src 96) :
    (op = 2 → Completes (.secCommandDone true) s fun t => (s.sec.owner[a]? = some none → t.sec.owner[a]? = some (some key)) ∧
      (∀ k, s.sec.owner[a]? = some (some k) → t.sec.owner[a]? = some (some (k ||| key))) ∧ t.bit Reg.SEC_STAT 9 = true ∧
      t.sec.life = s.sec.life ∧ SameMemory s t) ∧
    (op = 3 → Completes (.secCommandDone true) s fun t => a ∈ t.sec.revoked ∧ t.sec.owner = s.sec.owner ∧ t.bit Reg.SEC_STAT 9 = true ∧ SameMemory s t) ∧
    (op = 4 → Completes (.secCommandDone true) s fun t => (s.sec.dbgKey = none → t.sec.dbgKey = some key) ∧
      (∀ k, s.sec.dbgKey = some k → t.sec.dbgKey = some (k ||| key)) ∧ t.bit Reg.SEC_STAT 9 = true ∧ SameMemory s t) ∧
    (op = 5 → Completes (.secCommandDone true) s fun t => t.sec.svn = max s.sec.svn a ∧ t.bit Reg.SEC_STAT 9 = true ∧ SameMemory s t) ∧
    (op = 6 → Completes (.secCommandDone true) s fun t => a % 8 ∈ t.sec.fleet ∧ t.bit Reg.SEC_STAT 9 = true ∧ SameMemory s t) := by
  have hkey : key = s.le (s.reg Reg.SEC_SRC).toNat 96 := by rw [hk, hsrc]
  and_intros
  · intro h
    obtain ⟨t, e, hd⟩ := secCommandDone_ownkey hc h
    have ho : t.sec.owner = s.sec.owner.set a (some (keyUnder s.sec.owner[a]? ||| s.le (s.reg Reg.SEC_SRC).toNat 96)) := congrArg SecSt.owner hd.told.sec
    have hset : ∀ x, s.sec.owner[a]? = some x → t.sec.owner[a]? = some (some (keyUnder s.sec.owner[a]? ||| s.le (s.reg Reg.SEC_SRC).toNat 96)) := fun x hx => by
      obtain ⟨hlt, -⟩ := List.getElem?_eq_some_iff.mp hx
      rw [ho, List.getElem?_set_self hlt]
    refine ⟨t, e, fun hx => (hset _ hx).trans ?_, fun k hx => (hset _ hx).trans ?_, hd.set, (congrArg SecSt.life hd.told.sec :), State.byte_congr hd.told.mem⟩
    · rw [hx, hkey]
      exact congrArg (fun n => some (some n)) (Nat.zero_or _)
    · rw [hx, hkey]
      rfl
  · intro h
    obtain ⟨t, e, hd⟩ := secCommandDone_revoke hc h
    have hr : t.sec.revoked = a :: s.sec.revoked.erase a := congrArg SecSt.revoked hd.told.sec
    exact ⟨t, e, hr ▸ List.mem_cons_self, (congrArg SecSt.owner hd.told.sec :), hd.set, State.byte_congr hd.told.mem⟩
  · intro h
    obtain ⟨t, e, hd⟩ := secCommandDone_dbgkey hc h
    have hr : t.sec.dbgKey = some (dbgKeyUnder s.sec.dbgKey ||| s.le (s.reg Reg.SEC_SRC).toNat 96) := congrArg SecSt.dbgKey hd.told.sec
    refine ⟨t, e, fun hx => ?_, fun k hx => ?_, hd.set, State.byte_congr hd.told.mem⟩
    · rw [hr, hx, dbgKeyUnder, Nat.zero_or, hkey]
    · rw [hr, hx, dbgKeyUnder, hkey]
  · intro h
    obtain ⟨t, u, e, hd, h1, h2⟩ := secCommandDone_svnset hc h
    exact ⟨t, e, (congrArg SecSt.svn hd.told.sec).trans h1, hd.set, State.byte_congr (hd.told.mem.trans h2)⟩
  · intro h
    obtain ⟨t, e, hd⟩ := secCommandDone_fleetload hc h
    have hr : t.sec.fleet = a % 8 :: s.sec.fleet.erase (a % 8) := congrArg SecSt.fleet hd.told.sec
    exact ⟨t, e, hr ▸ List.mem_cons_self, hd.set, State.byte_congr hd.told.mem⟩

/-- Settles O46: who reaches the commands, what each is refused for or begins, what its completion programs, and what tampering wipes. -/
theorem securityCommands : Obligations.SecurityCommands := by
  unfold Obligations.SecurityCommands
  intro m s arg src cmds harg hsrc hcmds
  subst hcmds
  refine ⟨fun hm hoff e he => ?_, fun v hm hs hoff => ?_, fun hm hs hoff e he => ?_,
    fun hm hoff => ⟨fun e he hc ha h6 => ?_, fun e he h => security_refuses (security_reached hm hoff e he) h, fun hc => lcadv_clauses hm hoff hc harg,
      fun hc => security_rules hm hoff hc harg hsrc, secTclr_clauses hm hoff⟩,
    fun ok hc => ?_, fun op a hc => ?_, fun op a key hc hk => ?_, fun in0 in1 h0 h1 => ?_, fun in0 in1 h => tamperEvent_acts in0 in1 s h⟩
  · have h := State.askWrite_unpowered (wd e.1) hm hoff
    exact ⟨_, (exec_security e he).1, h.answer, h.sec, h.byte⟩
  · have h := security_refused hm hs hoff (.inr rfl) v
    exact ⟨_, rfl, h.answer, h.sec, h.byte⟩
  · have h := security_refused hm hs hoff (.inl rfl) (wd e.1)
    exact ⟨_, (exec_security e he).1, h.answer, h.sec, h.byte⟩
  · rw [security_reached hm hoff e he, State.secCmd_begins hc ha h6, harg]
  · show execSecCommandDone ok s = _
    unfold execSecCommandDone
    rw [hc]
  · have h1 := s.secIdle.told_secBit (if op = 6 then 3 else 8)
    have h2 := (s.secIdle.secBit (if op = 6 then 3 else 8)).secDone_secBit (bit := 9) (by decide)
    refine ⟨_, execSecCommandDone_fails hc, ?_, h2.set, (h2.told.sec.trans h1.sec).trans rfl, State.byte_congr ((h2.told.mem.trans h1.mem).trans rfl)⟩
    rw [State.bit_secBit _ (by decide), State.bit_secBit _ (by split <;> decide), if_pos rfl, ite_self]
  · refine ⟨fun h => ?_, fun h => ?_, secCommandDone_programs s src op a key hsrc hc hk⟩
    · exact (secCommandDone_advances s a (h ▸ hc)).1
    · exact (secCommandDone_advances s a (h ▸ hc)).2
  · rw [execTamperEvent_eq, h0, h1]
    rfl

end Sys2Proof.Machine
end

section
/-! The event recorder's store, its buckets and its window (R438 to R444). -/

namespace Sys2Proof.Machine

/-! Registers written in turn. -/

/-- Registers at distinct addresses written in turn, each with what the state gives for it whatever the others hold. -/
theorem State.foldl_setReg {f : Nat → Nat} (hf : Function.Injective f) {g : State → Nat → Word} (hg : ∀ t i j v, g (t.setReg (f j) v) i = g t i) (l : List Nat) (hl : l.Nodup)
    (s : State) : (∀ i ∈ l, (l.foldl (fun t i => t.setReg (f i) (g t i)) s).reg (f i) = g s i) ∧
      (∀ a, (∀ i ∈ l, a ≠ f i) → (l.foldl (fun t i => t.setReg (f i) (g t i)) s).reg a = s.reg a) ∧
      ∃ regs, l.foldl (fun t i => t.setReg (f i) (g t i)) s = { s with regs := regs } := by
  induction l generalizing s with
  | nil => exact ⟨fun i hi => absurd hi List.not_mem_nil, fun _ _ => rfl, _, rfl⟩
  | cons i l ih =>
    obtain ⟨hi, hl⟩ := List.nodup_cons.mp hl
    obtain ⟨h1, h2, regs, h3⟩ := ih hl (s.setReg (f i) (g s i))
    refine ⟨fun j hj => ?_, fun a ha => ?_, regs, h3.trans rfl⟩
    · rcases List.mem_cons.mp hj with rfl | hj
      · refine (h2 (f j) fun k hk e => hi (hf e ▸ hk)).trans (State.reg_setReg_same ..)
      · exact (h1 j hj).trans (hg s j i _)
    · exact (h2 a fun k hk => ha k (List.mem_cons_of_mem _ hk)).trans (State.reg_setReg_ne _ (ha i List.mem_cons_self) _)

/-! A record in memory. -/

theorem State.word_of_bytes {s t : State} {k : Nat} (h : ∀ j, k ≤ j → j < k + 4 → t.byte j = s.byte j) : t.word k = s.word k := by
  have e : t.bytes k 4 = s.bytes k 4 := by
    simp only [State.bytes]
    exact List.map_congr_left fun i hi => h _ (Nat.le_add_right ..) (by have := List.mem_range.mp hi; omega)
  simp only [State.word, State.le, e]

/-- `t` is `s` with the words `ws` at `a`. -/
def Written (a : Nat) (ws : List Word) (s t : State) : Prop :=
  (∀ (j : Nat) (w : Word), ws[j]? = some w → t.word (a + 4 * j) = w) ∧ ∀ b, b < a ∨ a + 4 * ws.length ≤ b → t.byte b = s.byte b

theorem Written.congr {a : Nat} {ws : List Word} {s t u : State} (h : Written a ws s t) (hm : u.mem = t.mem) : Written a ws s u :=
  ⟨fun j w hj => (State.word_congr hm _).trans (h.1 j w hj), fun b hb => (State.byte_congr hm b).trans (h.2 b hb)⟩

theorem Written.of_mem {a : Nat} {ws : List Word} {s s' t : State} (h : Written a ws s t) (hm : s.mem = s'.mem) : Written a ws s' t :=
  ⟨h.1, fun b hb => (h.2 b hb).trans (State.byte_congr hm b)⟩

theorem State.putWords_writes (a : Nat) (ws : List Word) (n : Nat) (s : State) :
    Written (a + 4 * n) ws s ((ws.zipIdx n).foldl (fun t e => (t.setWord (a + 4 * e.2) e.1).setMark (a + 4 * e.2) .none) s) ∧
    ∃ mem fab, (ws.zipIdx n).foldl (fun t e => (t.setWord (a + 4 * e.2) e.1).setMark (a + 4 * e.2) .none) s = { s with mem := mem, fab := fab } := by
  induction ws generalizing n s with
  | nil => exact ⟨⟨fun j w h => by simp at h, fun _ _ => rfl⟩, _, _, rfl⟩
  | cons w ws ih =>
    rw [List.zipIdx_cons, List.foldl_cons]
    have hu : ∃ u : State, u = (s.setWord (a + 4 * n) w).setMark (a + 4 * n) .none ∧ u.word (a + 4 * n) = w ∧ (∀ b, b < a + 4 * n ∨ a + 4 * n + 4 ≤ b → u.byte b = s.byte b) ∧
        ∃ mem fab, u = { s with mem := mem, fab := fab } :=
      ⟨_, rfl, s.word_setWord_same (a + 4 * n) w, fun b hb => s.byte_setWord_out w hb, _, _, rfl⟩
    obtain ⟨u, hu, hw, hb', m1, f1, e1⟩ := hu
    rw [← hu]
    obtain ⟨⟨h1, h2⟩, mem, fab, h3⟩ := ih (n + 1) u
    refine ⟨⟨fun j v hj => ?_, fun b hb => ?_⟩, mem, fab, h3.trans (by rw [e1])⟩
    · match j with
      | 0 =>
        obtain rfl : w = v := by simpa using hj
        exact (State.word_of_bytes fun b _ hb => h2 b (.inl (by omega))).trans hw
      | j + 1 =>
        have := h1 j v (by simpa using hj)
        rwa [show a + 4 * (n + 1) + 4 * j = a + 4 * n + 4 * (j + 1) by omega] at this
    · rw [List.length_cons] at hb
      exact (h2 b (by omega)).trans (hb' b (by omega))

theorem State.putRecord_writes (a : Nat) (ws : List Word) (s : State) : Written a ws s (s.putRecord a ws) ∧ ∃ mem fab, s.putRecord a ws = { s with mem := mem, fab := fab } :=
  s.putWords_writes a ws 0

/-! Storing a record (R440, R441). -/

/-- What storing `e` in operational slot `i` leaves. -/
structure StoredOp (e : Ev) (summary : Bool) (i : Nat) (s t : State) : Prop where
  written : Written (opBase + 32 * i) (recordWords e false summary (s.reg Reg.EVR_OPSEQ)) s t
  seq : t.reg Reg.EVR_OPSEQ = s.reg Reg.EVR_OPSEQ + 1
  regs : ∀ a, a ≠ Reg.EVR_OPSEQ → a ≠ Reg.EVR_OPCNT → t.reg a = s.reg a
  evr : ∃ op, t.evr = { s.evr with op := op }

theorem State.storeOp_stores {e : Ev} {i : Nat} {s : State} (h : s.opSlot e.sev = some i) (summary : Bool) : StoredOp e summary i s (s.storeOp e summary) := by
  obtain ⟨hw, mem, fab, hs⟩ := s.putRecord_writes (opBase + 32 * i) (recordWords e false summary (s.reg Reg.EVR_OPSEQ))
  have ex : ∃ op n, s.storeOp e summary = (({ s.putRecord (opBase + 32 * i) (recordWords e false summary (s.reg Reg.EVR_OPSEQ)) with
      evr := { (s.putRecord (opBase + 32 * i) (recordWords e false summary (s.reg Reg.EVR_OPSEQ))).evr with op := op } } : State).setReg Reg.EVR_OPSEQ
        (s.reg Reg.EVR_OPSEQ + 1)).setReg Reg.EVR_OPCNT n := by
    unfold State.storeOp
    rw [h]
    exact ⟨_, _, rfl⟩
  obtain ⟨op, n, ex⟩ := ex
  rw [ex]
  refine ⟨hw.congr rfl, (State.reg_setReg_ne _ (by decide) _).trans (State.reg_setReg_same ..), fun a h1 h2 => ?_, op, ?_⟩
  · refine (State.reg_setReg_ne _ h2 _).trans ((State.reg_setReg_ne _ h1 _).trans ?_)
    rw [hs]
    rfl
  · rw [hs]
    rfl

/-- A status bit of the recorder, which logs nothing. -/
theorem State.raise_evr (s : State) (bit : Nat) : s.raise0 stEVR bit = (s.setBit Reg.EVR_STAT bit true).arrive 183 := rfl

theorem State.reg_raise_evr {a : Nat} (h1 : a ≠ Reg.EVR_STAT) (h2 : blockOf a ≠ 15) (bit : Nat) (s : State) : (s.raise0 stEVR bit).reg a = s.reg a :=
  (State.reg_arrive_ne (by decide) h2 _).trans (State.reg_setBit_ne _ h1 _ _)

theorem State.bit_raise_evr {bit : Nat} (h : bit < 32) (s : State) : (s.raise0 stEVR bit).bit Reg.EVR_STAT bit = true :=
  (State.bit_of_reg (State.reg_arrive_ne (by decide) (by decide) _) bit).trans (State.bit_setBit_same _ _ _ h)

theorem State.evr_raise_evr (bit : Nat) (s : State) : (s.raise0 stEVR bit).evr = s.evr := State.evr_arrive ..

theorem State.storeOp_drops {e : Ev} {s : State} (h : s.opSlot e.sev = none) (summary : Bool) : s.storeOp e summary = (s.count Reg.EVR_DROPS 15 0).raise0 stEVR 1 := by
  unfold State.storeOp
  rw [h]

theorem State.storeSec_stores (e : Ev) {j : Nat} {s : State} (hj : j = if s.evr.secNext < 256 then s.evr.secNext else 256 + s.evr.secNext % 256) :
    Written (secBase + 32 * j) (recordWords e true false (s.reg Reg.EVR_SSEQ)) s (s.storeSec e) ∧ (s.storeSec e).reg Reg.EVR_SSEQ = s.reg Reg.EVR_SSEQ + 1 ∧
    ∃ sec, (s.storeSec e).evr = { s.evr with sec := sec, secNext := s.evr.secNext + 1 } := by
  obtain ⟨hw, mem, fab, hs⟩ := s.putRecord_writes (secBase + 32 * j) (recordWords e true false (s.reg Reg.EVR_SSEQ))
  have ex : ∃ sec n, s.storeSec e = (({ s.putRecord (secBase + 32 * j) (recordWords e true false (s.reg Reg.EVR_SSEQ)) with
      evr := { (s.putRecord (secBase + 32 * j) (recordWords e true false (s.reg Reg.EVR_SSEQ))).evr with sec := sec, secNext := s.evr.secNext + 1 } } : State).setReg
        Reg.EVR_SSEQ (s.reg Reg.EVR_SSEQ + 1)).setReg Reg.EVR_SCNT n := by
    rw [hj]
    exact ⟨_, _, rfl⟩
  obtain ⟨sec, n, ex⟩ := ex
  rw [ex]
  refine ⟨hw.congr rfl, (State.reg_setReg_ne _ (by decide) _).trans (State.reg_setReg_same ..), sec, ?_⟩
  rw [hs]
  rfl

/-! The buckets of the rate limit (R443). -/

theorem State.tokens_setTokens (c n : Nat) (s : State) : (s.setTokens c n).tokens c = min n s.burst := by
  have hb : (s.setTokens c n).burst = s.burst := rfl
  have hnone : (s.evr.tokens.filter fun t => decide (t.1 ≠ c)).find? (fun t => decide (t.1 = c)) = none := by
    refine List.find?_eq_none.mpr fun t ht => ?_
    simpa using (List.mem_filter.mp ht).2
  unfold State.tokens
  rw [hb]
  by_cases h : n < s.burst
  · have e : (s.setTokens c n).evr.tokens = (c, n) :: s.evr.tokens.filter fun t => decide (t.1 ≠ c) := if_pos h
    rw [e, List.find?_cons_of_pos (by simp)]
  · have e : (s.setTokens c n).evr.tokens = s.evr.tokens.filter fun t => decide (t.1 ≠ c) := if_neg h
    rw [e, hnone]
    exact (Nat.min_eq_right (Nat.le_of_not_lt h)).symm

theorem State.tokens_le (s : State) (c : Nat) : s.tokens c ≤ s.burst := by
  unfold State.tokens
  split
  · exact Nat.min_le_right ..
  · exact Nat.le_refl _

theorem State.tokens_congr {s t : State} (h1 : t.evr.tokens = s.evr.tokens) (h2 : t.reg Reg.EVR_RL = s.reg Reg.EVR_RL) (c : Nat) : t.tokens c = s.tokens c := by
  have hb : t.burst = s.burst := congrArg (· + 1) (State.f_of_reg h2 2 0)
  unfold State.tokens
  rw [h1, hb]

/-- A suppressed event is remembered (R443). -/
theorem State.suppress_remembers (e : Ev) (s : State) : ∃ x ∈ (s.suppress e).evr.supp, x.code = e.code ∧ x.inst = e.arg0 ∧ x.last = e.secs ∧ 1 ≤ x.count := by
  refine ⟨_, List.mem_cons_self, ?_⟩
  split
  · next x hx => exact ⟨by simpa using List.find?_some hx, rfl, rfl, Nat.le_add_left ..⟩
  · exact ⟨rfl, rfl, rfl, Nat.le_refl _⟩

/-! The oldest event (R438). -/

/-- The oldest event leaves the queue. -/
def State.popped (s : State) (rest : List Ev) : State := { s with evr := { s.evr with queue := rest } }

/-- What becomes of an event that has left the queue. -/
def State.storeEvent (e : Ev) (s : State) : State :=
  if isSecCode e.code then s.storeSec e
  else if s.f Reg.EVR_RL 31 16 = 0 then s.storeOp e false
  else match s.tokens e.code with
    | 0 => s.suppress e
    | n + 1 => (s.setTokens e.code n).storeOp e false

/-- The loss of events is logged. -/
def State.lossLogged (s : State) : State :=
  ({ s with evr := { s.evr with lost := 0 } } : State).logEvent 3 0 (wd (s.f Reg.EVR_DROPS 31 16)) 0 0

theorem execEventStore_eq {s : State} {e : Ev} {rest : List Ev} (h : s.evr.queue = e :: rest) :
    exec .eventStore s = .next ((if s.evr.lost = 0 then s.popped rest else (s.popped rest).lossLogged).storeEvent e) := by
  show execEventStore s = _
  unfold execEventStore
  split
  · next h' => exact absurd (h.symm.trans h') (List.cons_ne_nil _ _)
  · next e' rest' h' =>
    obtain ⟨rfl, rfl⟩ := List.cons_eq_cons.mp (h'.symm.trans h)
    extract_lets q s1 q2 s2
    have hs : (if s.evr.lost = 0 then s.popped rest' else (s.popped rest').lossLogged) = s2 := rfl
    rw [hs]
    clear_value s2
    unfold State.storeEvent
    split
    · rfl
    · split
      · rfl
      · cases s2.tokens e'.code <;> rfl

/-- The queue and the losses are as they were. -/
abbrev SameQueue (s t : State) : Prop := t.evr.queue = s.evr.queue ∧ t.evr.lost = s.evr.lost

theorem State.sameQueue_storeOp (e : Ev) (summary : Bool) (s : State) : SameQueue s (s.storeOp e summary) := by
  rcases h : s.opSlot e.sev with - | i
  · rw [State.storeOp_drops h, SameQueue, State.evr_raise_evr]
    exact ⟨rfl, rfl⟩
  · obtain ⟨op, k⟩ := (State.storeOp_stores h summary).evr
    rw [SameQueue, k]
    exact ⟨rfl, rfl⟩

theorem State.sameQueue_storeEvent (e : Ev) (s : State) : SameQueue s (s.storeEvent e) := by
  unfold State.storeEvent
  split
  · obtain ⟨-, -, sec, k⟩ := s.storeSec_stores e rfl
    rw [SameQueue, k]
    exact ⟨rfl, rfl⟩
  · split
    · exact s.sameQueue_storeOp e false
    · split
      · exact ⟨rfl, rfl⟩
      · exact State.sameQueue_storeOp e false _

theorem State.storeEvent_sec {e : Ev} (h : isSecCode e.code = true) (s : State) : s.storeEvent e = s.storeSec e := if_pos h

section
variable {s : State} {e : Ev} (hop : isSecCode e.code = false)
include hop

/-- An event that finds a token: the state in which it is stored. -/
theorem State.storeEvent_op (h : s.f Reg.EVR_RL 31 16 = 0 ∨ s.tokens e.code ≠ 0) : ∃ u : State, s.storeEvent e = u.storeOp e false ∧
    (s.f Reg.EVR_RL 31 16 ≠ 0 → u.tokens e.code = s.tokens e.code - 1) ∧ u.regs = s.regs ∧ u.mem = s.mem ∧ u.evr.op = s.evr.op := by
  by_cases h0 : s.f Reg.EVR_RL 31 16 = 0
  · exact ⟨s, (if_neg (by simp [hop])).trans (if_pos h0), fun k => absurd h0 k, rfl, rfl, rfl⟩
  · obtain ⟨n, hn⟩ := Nat.exists_eq_succ_of_ne_zero (h.resolve_left h0)
    refine ⟨s.setTokens e.code n, ?_, fun _ => ?_, rfl, rfl, rfl⟩
    · unfold State.storeEvent
      rw [if_neg (by simp [hop]), if_neg h0, hn]
    · have := s.tokens_le e.code
      rw [State.tokens_setTokens, hn]
      omega

theorem State.storeEvent_suppressed (h0 : s.f Reg.EVR_RL 31 16 ≠ 0) (h : s.tokens e.code = 0) : s.storeEvent e = s.suppress e := by
  unfold State.storeEvent
  rw [if_neg (by simp [hop]), if_neg h0, h]

end

theorem State.opSlot_congr {s t : State} (h1 : t.regs = s.regs) (h2 : t.evr.op = s.evr.op) (sev : Nat) : t.opSlot sev = s.opSlot sev := by
  simp only [State.opSlot, h2, State.reg_of_regs h1]

/-- An event that enters the queue. -/
theorem State.enqueueEvent_enters {s : State} (h : s.evr.queue.length < 32) (code sev : Nat) (a0 a1 a2 a3 : Word) : ∃ e : Ev, e.code = code ∧ e.sev = sev ∧ e.arg0 = a0 ∧
    e.arg1 = a1 ∧ e.arg2 = a2 ∧ e.arg3 = a3 ∧ s.enqueueEvent code sev a0 a1 a2 a3 = s.popped (s.evr.queue ++ [e]) :=
  ⟨_, rfl, rfl, rfl, rfl, rfl, rfl, if_pos h⟩

/-- An event that is lost. -/
theorem State.enqueueEvent_lost {s : State} (h : 32 ≤ s.evr.queue.length) (code sev : Nat) (a0 a1 a2 a3 : Word) :
    (s.enqueueEvent code sev a0 a1 a2 a3).evr = { s.evr with lost := s.evr.lost + 1 } ∧ (s.enqueueEvent code sev a0 a1 a2 a3).bit Reg.EVR_STAT 0 = true ∧
    (s.enqueueEvent code sev a0 a1 a2 a3).f Reg.EVR_DROPS 31 16 = sat 65535 (s.f Reg.EVR_DROPS 31 16 + 1) := by
  have e : ∃ u : State, s.enqueueEvent code sev a0 a1 a2 a3 = u.arrive 183 ∧ u.regs = ((s.count Reg.EVR_DROPS 31 16).setBit Reg.EVR_STAT 0 true).regs ∧
      u.evr = { s.evr with lost := s.evr.lost + 1 } := ⟨_, if_neg (by omega), rfl, rfl⟩
  obtain ⟨u, e, hr, hev⟩ := e
  rw [e]
  have hreg : ∀ a, blockOf a ≠ 15 → (u.arrive 183).reg a = ((s.count Reg.EVR_DROPS 31 16).setBit Reg.EVR_STAT 0 true).reg a := fun a ha =>
    (State.reg_arrive_ne (by decide) ha _).trans (State.reg_of_regs hr a)
  refine ⟨(State.evr_arrive ..).trans hev, (State.bit_of_reg (hreg _ (by decide)) 0).trans (State.bit_setBit_same _ _ _ (by decide)), ?_⟩
  refine (State.f_of_reg ((hreg _ (by decide)).trans (State.reg_setBit_ne _ (by decide) _ _)) 31 16).trans ?_
  exact State.f_count_same s Reg.EVR_DROPS (by decide)

/-! Events stored. -/

theorem Written.words {a : Nat} {e : Ev} {cls summary : Bool} {q : Word} {s t : State} (h : Written a (recordWords e cls summary q) s t) :
    t.word a = e.secs ∧ t.word (a + 12) = q ∧ t.word (a + 16) = e.arg0 ∧ t.word (a + 20) = e.arg1 ∧ t.word (a + 24) = e.arg2 ∧ t.word (a + 28) = e.arg3 ∧
      ∀ b, b < a ∨ a + 32 ≤ b → t.byte b = s.byte b :=
  ⟨h.1 0 _ rfl, h.1 3 _ rfl, h.1 4 _ rfl, h.1 5 _ rfl, h.1 6 _ rfl, h.1 7 _ rfl, h.2⟩

section
variable {s : State} {e : Ev} {rest : List Ev} (hq : s.evr.queue = e :: rest)
include hq

theorem eventStore_keeps (hl : s.evr.lost = 0) : exec .eventStore s = .next ((s.popped rest).storeEvent e) ∧ ((s.popped rest).storeEvent e).evr.queue = rest :=
  ⟨(execEventStore_eq hq).trans (by rw [if_pos hl]), (State.sameQueue_storeEvent e (s.popped rest)).1⟩

theorem eventStore_loss (hl : s.evr.lost ≠ 0) (hr : rest.length < 32) :
    (Completes .eventStore s fun t => t.evr.lost = 0 ∧ ∃ e', e'.code = 3 ∧ t.evr.queue = rest ++ [e']) ∧
    (∀ u : State, u = ({ s with evr := { s.evr with queue := rest, lost := 0 } } : State).logEvent 3 0 (wd (s.f Reg.EVR_DROPS 31 16)) 0 0 →
      exec .eventStore s = exec .eventStore { u with evr := { u.evr with queue := e :: u.evr.queue } }) := by
  have hx := execEventStore_eq hq
  rw [if_neg hl] at hx
  obtain ⟨e', he, -, -, -, -, -, k⟩ := State.enqueueEvent_enters (s := ({ s with evr := { s.evr with queue := rest, lost := 0 } } : State)) hr 3
    (State.sevOf ({ s with evr := { s.evr with queue := rest, lost := 0 } } : State) 3) 0 (wd (s.f Reg.EVR_DROPS 31 16)) 0 0
  have kl : (s.popped rest).lossLogged = ({ s with evr := { s.evr with queue := rest, lost := 0 } } : State).popped (rest ++ [e']) := k
  constructor
  · obtain ⟨h1, h2⟩ := State.sameQueue_storeEvent e (s.popped rest).lossLogged
    rw [kl] at h1 h2 hx
    exact ⟨_, hx, h2, e', he, h1⟩
  · rintro u hu
    have hul : u = (s.popped rest).lossLogged := hu
    have hlost : u.evr.lost = 0 := by rw [hul, kl]; rfl
    have hy := execEventStore_eq (s := { u with evr := { u.evr with queue := e :: u.evr.queue } }) (e := e) (rest := u.evr.queue) rfl
    rw [if_pos hlost] at hy
    rw [hx, hy, ← hul]
    rfl

variable (hl : s.evr.lost = 0)
include hl

theorem eventStore_sec (hc : isSecCode e.code = true) {j : Nat} (hj : j = if s.evr.secNext < 256 then s.evr.secNext else 256 + s.evr.secNext % 256) :
    Completes .eventStore s fun t => t.evr.queue = rest ∧ t.evr.secNext = s.evr.secNext + 1 ∧ t.reg Reg.EVR_SSEQ = s.reg Reg.EVR_SSEQ + 1 ∧
      t.word (secBase + 32 * j) = e.secs ∧ t.word (secBase + 32 * j + 12) = s.reg Reg.EVR_SSEQ ∧ t.word (secBase + 32 * j + 16) = e.arg0 ∧
      t.word (secBase + 32 * j + 20) = e.arg1 ∧ (∀ a, a < secBase + 32 * j ∨ secBase + 32 * j + 32 ≤ a → t.byte a = s.byte a) := by
  obtain ⟨hx, hrest⟩ := eventStore_keeps hq hl
  rw [State.storeEvent_sec hc] at hx hrest
  obtain ⟨hw, hseq, sec, hev⟩ := (s.popped rest).storeSec_stores e hj
  obtain ⟨w0, w3, w4, w5, -, -, hb⟩ := hw.words
  exact ⟨_, hx, hrest, (congrArg EvrSt.secNext hev :), hseq, w0, w3, w4, w5, hb⟩

variable (hc : isSecCode e.code = false)
include hc

theorem eventStore_op {i : Nat} (h : s.f Reg.EVR_RL 31 16 = 0 ∨ s.tokens e.code ≠ 0) (hi : s.opSlot e.sev = some i) :
    Completes .eventStore s fun t => t.evr.queue = rest ∧
      t.reg Reg.EVR_OPSEQ = s.reg Reg.EVR_OPSEQ + 1 ∧ (s.f Reg.EVR_RL 31 16 ≠ 0 → t.tokens e.code = s.tokens e.code - 1) ∧
      t.word (opBase + 32 * i) = e.secs ∧ t.word (opBase + 32 * i + 12) = s.reg Reg.EVR_OPSEQ ∧ t.word (opBase + 32 * i + 16) = e.arg0 ∧
      t.word (opBase + 32 * i + 20) = e.arg1 ∧ (∀ a, a < opBase + 32 * i ∨ opBase + 32 * i + 32 ≤ a → t.byte a = s.byte a) := by
  obtain ⟨hx, hrest⟩ := eventStore_keeps hq hl
  obtain ⟨u, hu, htok, hregs, hmem, hop⟩ := State.storeEvent_op (s := s.popped rest) hc h
  rw [hu] at hx hrest
  have hst := State.storeOp_stores (s := u) ((State.opSlot_congr hregs hop e.sev).trans hi) false
  have hseq : u.reg Reg.EVR_OPSEQ = s.reg Reg.EVR_OPSEQ := State.reg_of_regs hregs _
  obtain ⟨w0, w3, w4, w5, -, -, hb⟩ := hst.written.words
  refine ⟨_, hx, hrest, hst.seq.trans (by rw [hseq]), fun k => ?_, w0, w3.trans hseq, w4, w5, fun a ha => (hb a ha).trans (State.byte_congr hmem a)⟩
  obtain ⟨op, hev⟩ := hst.evr
  exact (State.tokens_congr (by rw [hev]) (hst.regs _ (by decide) (by decide)) e.code).trans (htok k)

theorem eventStore_drop (h : s.f Reg.EVR_RL 31 16 = 0 ∨ s.tokens e.code ≠ 0) (hi : s.opSlot e.sev = none) : Completes .eventStore s fun t => t.evr.queue = rest ∧
    t.reg Reg.EVR_OPSEQ = s.reg Reg.EVR_OPSEQ ∧ t.f Reg.EVR_DROPS 15 0 = sat 65535 (s.f Reg.EVR_DROPS 15 0 + 1) ∧ t.bit Reg.EVR_STAT 1 = true ∧ SameMemory s t := by
  obtain ⟨hx, hrest⟩ := eventStore_keeps hq hl
  obtain ⟨u, hu, -, hregs, hmem, hop⟩ := State.storeEvent_op (s := s.popped rest) hc h
  rw [hu] at hx hrest
  have hi' : u.opSlot e.sev = none := (State.opSlot_congr hregs hop e.sev).trans hi
  rw [State.storeOp_drops hi'] at hx hrest
  refine ⟨_, hx, hrest, ?_, ?_, State.bit_raise_evr (by decide) _, State.byte_congr ((State.told_raise0 ..).mem.trans hmem)⟩
  · exact (State.reg_raise_evr (by decide) (by decide) _ _).trans ((State.reg_setReg_ne _ (by decide) _).trans (State.reg_of_regs hregs _))
  · refine (State.f_of_reg (State.reg_raise_evr (by decide) (by decide) _ _) 15 0).trans ((State.f_count_same u Reg.EVR_DROPS (by decide)).trans ?_)
    rw [State.f_of_reg (State.reg_of_regs hregs _)]
    rfl

theorem eventStore_suppresses (h0 : s.f Reg.EVR_RL 31 16 ≠ 0) (h : s.tokens e.code = 0) : Completes .eventStore s fun t => t.evr.queue = rest ∧ t.regs = s.regs ∧
    SameMemory s t ∧ ∃ x ∈ t.evr.supp, x.code = e.code ∧ x.inst = e.arg0 ∧ x.last = e.secs ∧ 1 ≤ x.count := by
  obtain ⟨hx, hrest⟩ := eventStore_keeps hq hl
  rw [State.storeEvent_suppressed (s := s.popped rest) hc h0 h] at hx hrest
  exact ⟨_, hx, hrest, rfl, fun _ => rfl, State.suppress_remembers e (s.popped rest)⟩

end

/-! The tick of the rate limit (R443). -/

/-- Every bucket has gained a token. -/
def State.refilled (s : State) : State := s.evr.tokens.foldl (fun t e => t.setTokens e.1 (e.2 + 1)) s

theorem State.refilled_frame (s : State) : s.refilled.regs = s.regs ∧ s.refilled.mem = s.mem ∧ s.refilled.evr.supp = s.evr.supp ∧ s.refilled.evr.op = s.evr.op :=
  ⟨foldl_keeps State.regs (fun _ _ => by rfl) _ s, foldl_keeps State.mem (fun _ _ => by rfl) _ s, foldl_keeps (fun t => t.evr.supp) (fun _ _ => by rfl) _ s,
    foldl_keeps (fun t => t.evr.op) (fun _ _ => by rfl) _ s⟩

theorem execRateLimitTick_eq {s : State} (h : s.f Reg.EVR_RL 31 16 ≠ 0) :
    exec .rateLimitTick s = .next ((s.refilled.evr.supp.foldl (fun l x => insertSupp x l) []).foldl (fun t x => t.summarise x) s.refilled) := if_neg h

/-- The event that sums up what was suppressed. -/
def State.summary (s : State) (x : Supp) : Ev :=
  { secs := s.reg Reg.EVR_SECS, pcyc := s.f Reg.EVR_PCYC 23 0, sub := s.f Reg.EVR_SUB 14 0, tunset := !s.bit Reg.EVR_STAT 3, code := x.code, sev := x.sev,
    arg0 := x.inst, arg1 := wd x.count, arg2 := x.first, arg3 := x.last }

theorem State.summarise_stores {s : State} {x : Supp} {n i : Nat} (ht : s.tokens x.code = n + 1) (hi : s.opSlot x.sev = some i) : ∃ t : State,
    StoredOp (s.summary x) true i (s.setTokens x.code n) t ∧ s.summarise x = { t with evr := { t.evr with supp := t.evr.supp.filter fun y => decide (y.code ≠ x.code) } } := by
  refine ⟨_, State.storeOp_stores (s := s.setTokens x.code n) (e := s.summary x) hi true, ?_⟩
  unfold State.summarise
  rw [ht]
  rfl

/-- A summary's record says that it is one (Table 18.3). -/
theorem bitAt_summary (e : Ev) : ∀ (q w : Word), (recordWords e false true q)[1]? = some w → bitAt w 27 = true := by
  intro q w h
  obtain rfl : _ = w := by simpa only [recordWords, List.getElem?_cons_succ, List.getElem?_cons_zero, Option.some.injEq] using h
  have h1 : e.pcyc % 2 ^ 24 < 2 ^ 24 := Nat.mod_lt _ (by decide)
  have h2 : e.sev % 4 < 4 := Nat.mod_lt _ (by decide)
  have h3 : b2n e.tunset ≤ 1 := by cases e.tunset <;> decide
  generalize e.pcyc % 2 ^ 24 = p at h1
  generalize e.sev % 4 = v at h2
  generalize b2n e.tunset = b at h3
  unfold bitAt wd
  rw [BitVec.getLsbD_ofNat, Nat.testBit_eq_decide_div_mod_eq]
  simp only [b2n]
  norm_num at h1 ⊢
  omega

theorem rateLimitTick_summary {s : State} (h0 : s.f Reg.EVR_RL 31 16 ≠ 0) {x : Supp} {i : Nat} (hs : s.evr.supp = [x]) (ht : s.evr.tokens = [(x.code, 0)])
    (hi : s.opSlot x.sev = some i) : Completes .rateLimitTick s fun t => t.evr.supp = [] ∧
        t.reg Reg.EVR_OPSEQ = s.reg Reg.EVR_OPSEQ + 1 ∧ t.word (opBase + 32 * i + 16) = x.inst ∧ t.word (opBase + 32 * i + 20) = wd x.count ∧
        t.word (opBase + 32 * i + 24) = x.first ∧ t.word (opBase + 32 * i + 28) = x.last ∧ bitAt (t.word (opBase + 32 * i + 4)) 27 = true := by
  obtain ⟨fr, fm, fs, fo⟩ := s.refilled_frame
  have htok : s.refilled.tokens x.code = 0 + 1 := by
    have e : s.refilled = s.setTokens x.code 1 := by
      unfold State.refilled
      rw [ht]
      rfl
    have hb : 1 ≤ s.burst := Nat.le_add_left ..
    rw [e, State.tokens_setTokens]
    omega
  have e := execRateLimitTick_eq h0
  obtain ⟨t, hst, hsum⟩ := State.summarise_stores htok ((State.opSlot_congr fr fo x.sev).trans hi)
  rw [fs, hs] at e
  have e' : exec .rateLimitTick s = .next (s.refilled.summarise x) := e
  rw [hsum] at e'
  obtain ⟨-, -, w4, w5, w6, w7, -⟩ := hst.written.words
  obtain ⟨op, hev⟩ := hst.evr
  have hsupp : t.evr.supp = [x] := by
    rw [hev]
    exact fs.trans hs
  have w1 := hst.written.1 1 _ rfl
  refine ⟨_, e', ?_, hst.seq.trans (by rw [← State.reg_of_regs fr]; rfl), w4, w5, w6, w7, (congrArg (bitAt · 27) w1).trans (bitAt_summary (s.refilled.summary x) (s.refilled.reg Reg.EVR_OPSEQ) _ rfl)⟩
  show t.evr.supp.filter _ = []
  rw [hsupp]
  simp

theorem rateLimitTick_refills {s : State} (h0 : s.f Reg.EVR_RL 31 16 ≠ 0) (hs : s.evr.supp = []) : Completes .rateLimitTick s fun t =>
    (∀ c n, s.evr.tokens = [(c, n)] → t.tokens c = min s.burst (n + 1)) ∧ t.regs = s.regs ∧ SameMemory s t := by
  obtain ⟨fr, fm, fs, -⟩ := s.refilled_frame
  have e := execRateLimitTick_eq h0
  rw [fs, hs] at e
  refine ⟨_, e, fun c n ht => ?_, fr, State.byte_congr fm⟩
  have e : s.refilled = s.setTokens c (n + 1) := by
    unfold State.refilled
    rw [ht]
    rfl
  exact (congrArg (State.tokens · c) e).trans ((s.tokens_setTokens c (n + 1)).trans (Nat.min_comm ..))

/-! The window (R444). -/

/-- The window seeks nothing. -/
def State.settled (s : State) : State := { s with evr := { s.evr with seek := none } }

/-- The window holds the record of a slot at `a`. -/
def State.windowed (a : Nat) (s : State) : State := (List.range 8).foldl (fun t w => t.setReg (Reg.EVR_WINw w) (t.word (a + 4 * w))) s

theorem State.windowed_spec (a : Nat) (s : State) : (∀ w, w < 8 → (s.windowed a).reg (Reg.EVR_WINw w) = s.word (a + 4 * w)) ∧ ∃ regs, s.windowed a = { s with regs := regs } := by
  obtain ⟨hin, -, e⟩ := State.foldl_setReg (f := Reg.EVR_WINw) (fun i j h => by simp only [Reg.EVR_WINw] at h; omega) (g := fun t w => t.word (a + 4 * w))
    (fun _ _ _ _ => rfl) (List.range 8) List.nodup_range s
  exact ⟨fun w hw => hin w (List.mem_range.mpr hw), e⟩

section
variable {s : State} {cls : Nat} {seq : Word} (h : s.evr.seek = some (cls, seq))
include h

theorem execEvrWindowLatch_eq : exec .evrWindowLatch s = .next (match s.settled.seekRecord cls seq with
    | none => s.settled.setReg Reg.EVR_WSTAT (wd (4 * cls))
    | some r => (s.settled.windowed ((if cls = 1 then secBase else opBase) + 32 * r.slot)).setReg Reg.EVR_WSTAT (wd (1 + 4 * cls))) := by
  show execEvrWindowLatch s = _
  unfold execEvrWindowLatch
  rw [h, State.settled]
  generalize ({ s with evr := { s.evr with seek := none } } : State) = u
  dsimp only
  cases u.seekRecord cls seq <;> rfl

theorem evrWindowLatch_none (hr : s.seekRecord cls seq = none) : Completes .evrWindowLatch s fun t =>
    t.reg Reg.EVR_WSTAT = wd (4 * cls) ∧ t.evr.seek = none ∧ SameMemory s t := by
  have hr' : s.settled.seekRecord cls seq = none := hr
  have hx := execEvrWindowLatch_eq h
  rw [hr'] at hx
  exact ⟨_, hx, State.reg_setReg_same .., rfl, fun _ => rfl⟩

theorem evrWindowLatch_found {r : Slot} (hr : s.seekRecord cls seq = some r) : Completes .evrWindowLatch s fun t =>
    t.reg Reg.EVR_WSTAT = wd (1 + 4 * cls) ∧ t.evr.seek = none ∧
      (∀ w, w < 8 → t.reg (Reg.EVR_WINw w) = s.word ((if cls = 1 then secBase else opBase) + 32 * r.slot + 4 * w)) ∧ SameMemory s t := by
  have hr' : s.settled.seekRecord cls seq = some r := hr
  have hx := execEvrWindowLatch_eq h
  rw [hr'] at hx
  dsimp only at hx
  obtain ⟨hin, regs, e⟩ := s.settled.windowed_spec ((if cls = 1 then secBase else opBase) + 32 * r.slot)
  generalize s.settled.windowed ((if cls = 1 then secBase else opBase) + 32 * r.slot) = u at hx hin e
  refine ⟨_, hx, State.reg_setReg_same .., ?_, fun w hw => ?_, fun k => ?_⟩
  · exact congrArg (fun t : State => t.evr.seek) e
  · exact (State.reg_setReg_ne _ (by simp only [Reg.EVR_WINw, Reg.EVR_WSTAT]; omega) _).trans (hin w hw)
  · exact (congrArg (fun t : State => t.byte k) e :)

end

/-! Registers of the recorder. -/

theorem SameStore.setReg (a : Nat) (v : Word) (s : State) : SameStore s (s.setReg a v) := .refl s

theorem State.sameStore_errResponse (port addr code : Nat) (w : Bool) (s : State) : SameStore s (s.errResponse port addr code w) := by
  unfold State.errResponse
  extract_lets s1
  refine SameStore.trans ?_ (State.sameStore_logEvent ..)
  unfold s1
  split
  · exact State.sameStore_raise ..
  · exact (SameStore.setReg ..).trans (.setReg ..)

theorem State.timeWrite_ignored {pcyc : Bool} {s : State} (h : (if pcyc then s.evr.pcycSet else s.evr.secsSet) = true) (v : Word) : s.timeWrite pcyc v = s := if_pos h

theorem State.timeWrite_secs {s : State} (h : s.evr.secsSet = false) (v : Word) :
    ∃ evr, s.timeWrite false v = ((({ s with evr := evr } : State).setReg Reg.EVR_SECS v).setBit Reg.EVR_STAT 3 true) ∧ evr.secsSet = true :=
  ⟨{ s.evr with secsSet := s.evr.secsSet || !false, pcycSet := s.evr.pcycSet || false }, (if_neg (by simp [h])).trans rfl, Bool.or_true _⟩

theorem State.timeWrite_pcyc {s : State} (h : s.evr.pcycSet = false) (v : Word) :
    ∃ evr, s.timeWrite true v = ((({ s with evr := evr } : State).setReg Reg.EVR_PCYC (v &&& 0xFFFFFF)).setBit Reg.EVR_STAT 3 true) ∧ evr.pcycSet = true :=
  ⟨{ s.evr with secsSet := s.evr.secsSet || !true, pcycSet := s.evr.pcycSet || true }, (if_neg (by simp [h])).trans rfl, Bool.or_true _⟩

section
variable {m : Acc} {s : State} (hm : m.debug = false) (hoff : s.targetOff Reg.EVR_SECS = false)
include hm hoff

theorem execEvrTimeWrite_eq (pcyc : Bool) (v : Word) : exec (.evrTimeWrite m pcyc v) s = .next ((if m.alle then s.timeWrite pcyc v else s).reply 0 0) := by
  cases pcyc
  · show Host.Outcome.next (s.askWrite m Reg.EVR_SECS v) = _
    rw [State.askWrite_word (.inl hm) hoff (by decide) rfl]
    rfl
  · show Host.Outcome.next (s.askWrite m Reg.EVR_PCYC v) = _
    rw [State.askWrite_word (.inl hm) (show s.targetOff Reg.EVR_PCYC = false from hoff) (by decide) rfl]
    rfl

theorem evrTimeWrite_ignored {pcyc : Bool} (h : m.alle = false ∨ (if pcyc then s.evr.pcycSet else s.evr.secsSet) = true) (v : Word) :
    exec (.evrTimeWrite m pcyc v) s = .next (s.reply 0 0) := by
  rw [execEvrTimeWrite_eq hm hoff]
  rcases h with h | h
  · rw [h]
    rfl
  · rw [State.timeWrite_ignored h, ite_self]

theorem evrTimeWrite_secs (v : Word) (ha : m.alle = true) (h : s.evr.secsSet = false) : Completes (.evrTimeWrite m false v) s fun t =>
    t.reg Reg.EVR_SECS = v ∧ t.evr.secsSet = true ∧ t.bit Reg.EVR_STAT 3 = true ∧ SameRegsBut (fun a => a = Reg.EVR_SECS ∨ a = Reg.EVR_STAT) s t ∧ SameMemory s t := by
  obtain ⟨evr, e, hset⟩ := State.timeWrite_secs h v
  refine ⟨_, (execEvrTimeWrite_eq hm hoff false v).trans (congrArg (fun t : State => Host.Outcome.next (t.reply 0 0)) ((if_pos ha).trans e)), ?_, hset, State.bit_setBit_same _ _ _ (by decide), fun a hne => ?_, fun _ => rfl⟩
  · exact (State.reg_setBit_ne _ (by decide) _ _).trans (State.reg_setReg_same s _ _)
  · obtain ⟨h1, h2⟩ := not_or.mp hne
    exact (State.reg_setBit_ne _ h2 _ _).trans (State.reg_setReg_ne s h1 _)

theorem evrTimeWrite_pcyc (v : Word) (ha : m.alle = true) (h : s.evr.pcycSet = false) : Completes (.evrTimeWrite m true v) s fun t =>
    t.reg Reg.EVR_PCYC = v &&& 0xFFFFFF ∧ t.evr.pcycSet = true ∧ t.bit Reg.EVR_STAT 3 = true ∧ SameRegsBut (fun a => a = Reg.EVR_PCYC ∨ a = Reg.EVR_STAT) s t ∧
      SameMemory s t := by
  obtain ⟨evr, e, hset⟩ := State.timeWrite_pcyc h v
  refine ⟨_, (execEvrTimeWrite_eq hm hoff true v).trans (congrArg (fun t : State => Host.Outcome.next (t.reply 0 0)) ((if_pos ha).trans e)), ?_, hset, State.bit_setBit_same _ _ _ (by decide), fun a hne => ?_, fun _ => rfl⟩
  · exact (State.reg_setBit_ne _ (by decide) _ _).trans (State.reg_setReg_same s _ _)
  · obtain ⟨h1, h2⟩ := not_or.mp hne
    exact (State.reg_setBit_ne _ h2 _ _).trans (State.reg_setReg_ne s h1 _)

omit hm hoff in
/-- The classes a master may seek (R444). -/
theorem regProt_curctl (m : Acc) (v : Word) : regProt m Reg.EVR_CURCTL true v = (bitAt v 0 && bitAt v 1 && !m.sec) := by
  show (false && !m.sec || (true && true && bitAt v 0 && bitAt v 1 && !m.sec)) = _
  rw [Bool.false_and, Bool.false_or, Bool.true_and, Bool.true_and]

theorem execEvrCurctl_eq {v : Word} (h : bitAt v 1 = false ∨ bitAt v 0 = false ∨ m.sec = true) : exec (.evrCurctl m v) s = .next ((s.curctl v).reply 0 0) := by
  show Host.Outcome.next (s.askWrite m Reg.EVR_CURCTL v) = _
  rw [State.askWrite_word (.inl hm) (show s.targetOff Reg.EVR_CURCTL = false from hoff) (by decide) ((regProt_curctl m v).trans ?_)]
  · rfl
  · rcases h with h | h | h <;> simp [h]

theorem evrCurctl_denied {v : Word} (h1 : bitAt v 1 = true) (h0 : bitAt v 0 = true) (hs : m.sec = false) :
    Completes (.evrCurctl m v) s fun t => t.answer = ⟨3, 0⟩ ∧ t.evr.seek = s.evr.seek :=
  ⟨_, congrArg Host.Outcome.next (State.askWrite_denied hm (show s.targetOff Reg.EVR_CURCTL = false from hoff) (by decide)
    ((regProt_curctl m v).trans (by rw [h0, h1, hs]; rfl))), rfl, (State.sameStore_errResponse ..).seek⟩

theorem evrCurctl_seeks {v : Word} (h1 : bitAt v 1 = true) (h : bitAt v 0 = false ∨ m.sec = true) : Completes (.evrCurctl m v) s fun t =>
    t.evr.seek = some (fld v 0 0, s.reg Reg.EVR_CURSEQ) ∧ t.reg Reg.EVR_WSTAT = wd (2 + 4 * fld v 0 0) ∧ SameRegsBut (fun a => a = Reg.EVR_WSTAT) s t ∧ SameMemory s t :=
  ⟨_, (execEvrCurctl_eq hm hoff (.inr h)).trans (congrArg (fun t : State => Host.Outcome.next (t.reply 0 0)) (if_pos h1)), rfl, State.reg_setReg_same .., fun _ hne => State.reg_setReg_ne _ hne _, fun _ => rfl⟩

theorem execEvrWin7Read_eq : exec (.evrWin7Read m) s = .next (s.windowNext.reply 0 (s.reg (Reg.EVR_WINw 7))) := by
  have e : s.askRead m (Reg.EVR_WINw 7) = s.windowNext.reply 0 (s.readCoded (Reg.EVR_WINw 7)) :=
    State.askRead_word hm (show s.targetOff (Reg.EVR_WINw 7) = false from hoff) (by decide) rfl rfl
  rw [State.readCoded_plain (by rfl)] at e
  exact congrArg Host.Outcome.next e

theorem evrWin7Read_next (h : s.bit Reg.EVR_WSTAT 0 = true) : Completes (.evrWin7Read m) s fun t => t.answer = ⟨0, s.reg (Reg.EVR_WINw 7)⟩ ∧
    t.evr.seek = some (s.f Reg.EVR_WSTAT 2 2, s.reg (Reg.EVR_WINw 3) + 1) ∧ t.reg Reg.EVR_WSTAT = wd (2 + 4 * s.f Reg.EVR_WSTAT 2 2) ∧
    SameRegsBut (fun a => a = Reg.EVR_WSTAT) s t ∧ SameMemory s t :=
  ⟨_, (execEvrWin7Read_eq hm hoff).trans (congrArg (fun t : State => Host.Outcome.next (t.reply 0 (s.reg (Reg.EVR_WINw 7)))) (if_pos h)), rfl, rfl, State.reg_setReg_same .., fun _ hne => State.reg_setReg_ne _ hne _, fun _ => rfl⟩

theorem evrLogGo_denied {n : Fin 3} {v : Word} (h : ¬ MayWrite m (Reg.EVR_LOGt_GO n.val) v) :
    Completes (.evrLogGo m n v) s fun t => t.answer = ⟨3, 0⟩ ∧ SameMemory s t := by
  have hp : regProt m (Reg.EVR_LOGt_GO n.val) true v = true := by simpa [MayWrite, hm] using h
  have k : Refused 3 s (s.askWrite m (Reg.EVR_LOGt_GO n.val) v) := State.askWrite_protected hm
    (show s.targetOff (Reg.EVR_LOGt_GO n.val) = false by match n with | 0 | 1 | 2 => exact hoff) (by match n with | 0 | 1 | 2 => decide) hp
  exact ⟨_, rfl, k.answer, k.byte⟩

theorem execEvrLogGo_eq {n : Fin 3} {v : Word} (h : MayWrite m (Reg.EVR_LOGt_GO n.val) v) : exec (.evrLogGo m n v) s = .next ((s.logGo n.val v).reply 0 0) := by
  show Host.Outcome.next (s.askWrite m (Reg.EVR_LOGt_GO n.val) v) = _
  rw [State.askWrite_word (.inl hm) (show s.targetOff (Reg.EVR_LOGt_GO n.val) = false by match n with | 0 | 1 | 2 => exact hoff)
    (by match n with | 0 | 1 | 2 => decide) h.2]
  match n with | 0 | 1 | 2 => rfl

end

section
variable {s : State} (n : Nat) {v : Word}

theorem State.logGo_low (h : fld v 10 0 < 0x400) : (s.logGo n v).bit Reg.EVR_STAT 2 = true ∧ (s.logGo n v).evr.queue = s.evr.queue ∧ (s.logGo n v).mem = s.mem := by
  have e : s.logGo n v = s.raise0 stEVR 2 := if_pos h
  rw [e]
  exact ⟨State.bit_raise_evr (by decide) s, congrArg EvrSt.queue (State.evr_raise_evr 2 s), (State.told_raise0 ..).mem⟩

theorem State.logGo_event (h : 0x400 ≤ fld v 10 0) : s.logGo n v = s.enqueueEvent (fld v 10 0) (fld v 13 12) (s.reg (Reg.EVR_LOGt_Aa n 0)) (s.reg (Reg.EVR_LOGt_Aa n 1))
    (s.reg (Reg.EVR_LOGt_Aa n 2)) (s.reg (Reg.EVR_LOGt_Aa n 3)) := if_neg (by omega)

end

/-- Settles O45, from what becomes of an event, what a tick gives back, and the registers of the window and the processors' own events. -/
theorem eventRecorder : Obligations.EventRecorder := by
  unfold Obligations.EventRecorder
  intro m s
  refine ⟨fun h => ?_, fun e rest hq => ⟨fun hl hr => (eventStore_loss hq hl hr).1, fun hl hr => (eventStore_loss hq hl hr).2,
    fun hl hc _ hj => eventStore_sec hq hl hc hj, fun hl hc => ⟨fun _ h hi => eventStore_op hq hl hc h hi, fun h hi => eventStore_drop hq hl hc h hi,
    fun h0 h => eventStore_suppresses hq hl hc h0 h⟩⟩, fun h => if_pos h, fun h0 => ⟨?_, rateLimitTick_refills h0, fun _ _ => rateLimitTick_summary h0⟩,
    fun hm hoff => ⟨fun v => ⟨evrTimeWrite_secs hm hoff v, evrTimeWrite_pcyc hm hoff v, fun h => evrTimeWrite_ignored (pcyc := false) hm hoff h v, fun h => evrTimeWrite_ignored (pcyc := true) hm hoff h v,
      fun h => ?_, evrCurctl_seeks hm hoff, evrCurctl_denied hm hoff, fun _ => evrLogGo_denied hm hoff, fun n hw => ⟨fun hc hr => ?_, fun hc => ?_, fun hc hr => ?_⟩⟩,
      evrWin7Read_next hm hoff, fun h => ?_⟩, fun h => ?_, fun cls seq h => ⟨evrWindowLatch_none h, fun r hr => evrWindowLatch_found h hr⟩⟩
  · show execEventStore s = _
    unfold execEventStore
    rw [h]
  · rintro u rfl
    exact execRateLimitTick_eq h0
  · rw [execEvrCurctl_eq hm hoff (.inl h), State.curctl, if_neg (by rw [h]; decide)]
  · have k := execEvrLogGo_eq hm hoff hw
    rw [State.logGo_event _ hc] at k
    obtain ⟨h1, h2, h3⟩ := State.enqueueEvent_lost hr (fld v 10 0) (fld v 13 12) (s.reg (Reg.EVR_LOGt_Aa n 0)) (s.reg (Reg.EVR_LOGt_Aa n 1))
      (s.reg (Reg.EVR_LOGt_Aa n 2)) (s.reg (Reg.EVR_LOGt_Aa n 3))
    exact ⟨_, k, h1, h2, h3, State.byte_congr (State.mem_enqueueEvent ..)⟩
  · obtain ⟨h1, h2, h3⟩ := State.logGo_low (s := s) n.val hc
    exact ⟨_, execEvrLogGo_eq hm hoff hw, h1, h2, State.byte_congr h3⟩
  · have k := execEvrLogGo_eq hm hoff hw
    obtain ⟨e, h1, h2, h3, h4, h5, h6, h7⟩ := State.enqueueEvent_enters hr (fld v 10 0) (fld v 13 12) (s.reg (Reg.EVR_LOGt_Aa n 0)) (s.reg (Reg.EVR_LOGt_Aa n 1))
      (s.reg (Reg.EVR_LOGt_Aa n 2)) (s.reg (Reg.EVR_LOGt_Aa n 3))
    rw [State.logGo_event _ hc, h7] at k
    exact ⟨_, k, rfl, fun _ => rfl, e, rfl, h1, h2, h3, h4, h5, h6⟩
  · rw [execEvrWin7Read_eq hm hoff, State.windowNext, if_neg (by rw [h]; decide)]
  · show execEvrWindowLatch s = _
    unfold execEvrWindowLatch
    rw [h]

end Sys2Proof.Machine
end

section
/-! Sensors and the automatic brightness (R429 to R433). -/

namespace Sys2Proof.Machine

/-- No register of the management block is one that an event changes. -/
theorem not_eventReg_mgt {a : Nat} (h : 0x40150000 ≤ a) (h' : a < 0x40160000) : ¬ eventReg a := by
  have e : blockOf a = 21 := blockOf_eq (by omega) (by decide)
  rintro (k | k) <;> omega

theorem fld_wd_low (n : Nat) : fld (wd n) 15 0 = n % 65536 := by
  simp only [fld, wd, BitVec.toNat_ofNat, Nat.shiftRight_zero]
  omega

/-- A list of values laid out in a row of registers. -/
theorem State.foldl_zipIdx_setReg {α : Type} {f : Nat → Nat} (hf : Function.Injective f) (g : α → Word) (l : List α) (n : Nat) (s : State) :
    (∀ k v, l[k]? = some v → ((l.zipIdx n).foldl (fun t e => t.setReg (f e.2) (g e.1)) s).reg (f (n + k)) = g v) ∧
      (∀ a, (∀ k, k < l.length → a ≠ f (n + k)) → ((l.zipIdx n).foldl (fun t e => t.setReg (f e.2) (g e.1)) s).reg a = s.reg a) ∧
      ∃ regs, (l.zipIdx n).foldl (fun t e => t.setReg (f e.2) (g e.1)) s = { s with regs := regs } := by
  induction l generalizing n s with
  | nil => exact ⟨fun k v h => by simp at h, fun _ _ => rfl, s.regs, rfl⟩
  | cons x l ih =>
    obtain ⟨h1, h2, regs, h3⟩ := ih (n + 1) (s.setReg (f n) (g x))
    rw [List.zipIdx_cons, List.foldl_cons]
    refine ⟨fun k v h => ?_, fun a ha => ?_, regs, h3⟩
    · cases k with
      | zero =>
        obtain rfl : x = v := by simpa using h
        exact (h2 _ fun k _ e => by have := hf e; omega).trans (State.reg_setReg_same ..)
      | succ k =>
        rw [show n + (k + 1) = n + 1 + k by omega]
        exact h1 k v (by simpa using h)
    · refine (h2 a fun k hk => ?_).trans (State.reg_setReg_ne _ (by simpa using ha 0 (by simp)) _)
      rw [show n + 1 + k = n + (k + 1) by omega]
      exact ha (k + 1) (by simpa using hk)

/-- What a warning of the management block changes where it is due. -/
structure Warned (due : Bool) (bit : Nat) (s t : State) : Prop where
  told : Told s t
  regs : ∀ a, a ≠ Reg.MGT_STAT → ¬ eventReg a → t.reg a = s.reg a
  others : ∀ i, i ≠ bit → t.bit Reg.MGT_STAT i = s.bit Reg.MGT_STAT i
  set : due = true → t.bit Reg.MGT_STAT bit = true
  unset : due = false → t = s

theorem State.warned (due : Bool) {bit : Nat} (hb : bit < 32) (s : State) : Warned due bit s (if due then s.raise0 stMGT bit else s) := by
  have hn : ¬ eventReg stMGT.addr := by decide
  cases due
  · exact ⟨.refl s, fun _ _ _ => rfl, fun _ _ => rfl, fun h => absurd h (by decide), fun _ => rfl⟩
  · exact ⟨State.told_raise stMGT bit 0 0 0 s, fun a h1 h2 => State.reg_raise0_ne s bit h1 h2 (by decide), fun i hi => State.bit_raise0_ne (r := stMGT) s hi hn (by decide),
      fun _ => State.bit_raise0_same (r := stMGT) s hb hn (by decide), fun h => absurd h (by decide)⟩

theorem Warned.keeps {due : Bool} {bit : Nat} {s t : State} (h : Warned due bit s t) {i : Nat} (hi : s.bit Reg.MGT_STAT i = true) : t.bit Reg.MGT_STAT i = true := by
  by_cases e : i = bit
  · subst e
    cases due
    · rw [h.unset rfl]
      exact hi
    · exact h.set rfl
  · exact (h.others i e).trans hi

/-! Temperatures (R429). -/

theorem foldl_max_eq {l : List (BitVec 16)} {top m : Int} (hm : m ≤ top) (h : ∀ v ∈ l, v.toInt ≤ top) (k : m = top ∨ ∃ v ∈ l, v.toInt = top) :
    l.foldl (fun (m : Int) v => max m v.toInt) m = top := by
  induction l generalizing m with
  | nil => simpa using k
  | cons x l ih =>
    obtain ⟨hx, hl⟩ := List.forall_mem_cons.mp h
    refine ih (max_le hm hx) hl ?_
    rcases k with rfl | ⟨v, hv, e⟩
    · exact .inl (max_eq_left hx)
    · rcases List.mem_cons.mp hv with rfl | hv
      · exact .inl (e ▸ max_eq_right (e ▸ hm))
      · exact .inr ⟨v, hv, e⟩

theorem State.tempEdge_spec (was : Bool) (thr tmax : Int) {bit : Nat} (hb : bit < 32) (s : State) :
    Warned (!was && decide (thr ≤ tmax)) bit s (s.tempEdge was thr tmax bit).2 ∧
      ((s.tempEdge was thr tmax bit).1 = true ↔ (if was then thr - 32 else thr - 1) < tmax) := by
  have h := s.warned (!was && decide (thr ≤ tmax)) hb
  unfold State.tempEdge
  cases was
  · by_cases k : thr ≤ tmax
    · simp only [k, decide_true, Bool.not_false, Bool.and_true, if_true, Bool.false_eq_true, if_false, true_iff] at h ⊢
      exact ⟨h, by omega⟩
    · simp only [k, decide_false, Bool.and_false, Bool.false_eq_true, if_false, false_iff] at h ⊢
      exact ⟨h, by omega⟩
  · simp only [Bool.not_true, Bool.false_and, Bool.false_eq_true, if_false, if_true] at h ⊢
    exact ⟨h, decide_eq_true_iff⟩

/-- The readings of the eight sensors. -/
def readings (temps : List (BitVec 16)) : List (BitVec 16) := (List.range 8).map fun k => match temps[k]? with | some v => v | none => 0

theorem readings_eq {temps : List (BitVec 16)} (h : temps.length = 8) : readings temps = temps :=
  List.ext_getElem (by simp [readings, h]) fun i _ h2 => by simp [readings, h2]

/-- The readings and the highest of them stand in their registers. -/
def State.readTemps (temps : List (BitVec 16)) (top : Int) (s : State) : State :=
  (temps.zipIdx.foldl (fun u e => u.setReg (Reg.MGT_TEMPk e.2) (wd e.1.toNat)) s).setReg Reg.MGT_TMAX (wd (top % 65536).toNat)

/-- The warning threshold, then the critical one. -/
def State.tempWarn (top : Int) (s : State) : Bool × State := s.tempEdge s.mgt.warn (sext 16 (s.f Reg.MGT_TWARN 15 0)) top 0
def State.tempCrit (top : Int) (s : State) : Bool × State := s.tempEdge s.mgt.crit (sext 16 (s.f Reg.MGT_TCRIT 15 0)) top 1

/-- What both thresholds leave. -/
def State.tempEdges (top : Int) (s : State) : State :=
  { (s.tempWarn top).2.tempCrit top |>.2 with
    mgt := { (s.tempWarn top).2.tempCrit top |>.2.mgt with warn := (s.tempWarn top).1, crit := (s.tempWarn top).2.tempCrit top |>.1 } }

theorem execTempConversion_eq (temps : List (BitVec 16)) (s : State) : exec (.tempConversion temps) s =
    .next ((s.readTemps (readings temps) ((readings temps).foldl (fun (m : Int) v => max m v.toInt) (-32768))).tempEdges
      ((readings temps).foldl (fun (m : Int) v => max m v.toInt) (-32768))) := rfl

theorem State.readTemps_spec (temps : List (BitVec 16)) (top : Int) (s : State) :
    (∀ k v, temps[k]? = some v → temps.length ≤ 8 → (s.readTemps temps top).reg (Reg.MGT_TEMPk k) = wd v.toNat) ∧ (s.readTemps temps top).f Reg.MGT_TMAX 15 0 = (top % 65536).toNat ∧
      (∀ a, a < Reg.MGT_TMAX → (s.readTemps temps top).reg a = s.reg a) ∧ (s.readTemps temps top).mgt = s.mgt ∧ (s.readTemps temps top).mem = s.mem := by
  obtain ⟨h1, h2, regs, h3⟩ := State.foldl_zipIdx_setReg (f := Reg.MGT_TEMPk) (fun i j h => by simp only [Reg.MGT_TEMPk] at h; omega)
    (fun v : BitVec 16 => wd v.toNat) temps 0 s
  refine ⟨fun k v h _ => ?_, ?_, fun a ha => ?_, (congrArg State.mgt h3 :), (congrArg State.mem h3 :)⟩
  · refine (State.reg_setReg_ne _ (by simp only [Reg.MGT_TEMPk, Reg.MGT_TMAX]; omega) _).trans ?_
    simpa using h1 k v h
  · rw [State.f, State.readTemps, State.reg_setReg_same, fld_wd_low]
    omega
  · exact (State.reg_setReg_ne _ (by omega) _).trans (h2 a fun k _ => by simp only [Reg.MGT_TEMPk, Reg.MGT_TMAX] at ha ⊢; omega)

theorem State.tempEdges_spec (top : Int) (s : State) : (∀ a, a ≠ Reg.MGT_STAT → ¬ eventReg a → (s.tempEdges top).reg a = s.reg a) ∧ (s.tempEdges top).mem = s.mem ∧
    (s.mgt.warn = false → sext 16 (s.f Reg.MGT_TWARN 15 0) ≤ top → (s.tempEdges top).bit Reg.MGT_STAT 0 = true ∧ (s.tempEdges top).mgt.warn = true) ∧
    (s.mgt.warn = true → (s.tempEdges top).bit Reg.MGT_STAT 0 = s.bit Reg.MGT_STAT 0 ∧
      ((s.tempEdges top).mgt.warn = true ↔ sext 16 (s.f Reg.MGT_TWARN 15 0) - 32 < top)) ∧
    (s.mgt.crit = false → sext 16 (s.f Reg.MGT_TCRIT 15 0) ≤ top → (s.tempEdges top).bit Reg.MGT_STAT 1 = true ∧ (s.tempEdges top).mgt.crit = true) := by
  obtain ⟨w, hw⟩ := State.tempEdge_spec s.mgt.warn (sext 16 (s.f Reg.MGT_TWARN 15 0)) top (bit := 0) (by decide) s
  obtain ⟨c, hc⟩ := State.tempEdge_spec (s.tempWarn top).2.mgt.crit (sext 16 ((s.tempWarn top).2.f Reg.MGT_TCRIT 15 0)) top (bit := 1) (by decide) (s.tempWarn top).2
  have hcrit : (s.tempWarn top).2.mgt = s.mgt := w.told.mgt
  have hthr : (s.tempWarn top).2.f Reg.MGT_TCRIT 15 0 = s.f Reg.MGT_TCRIT 15 0 := State.f_of_reg (w.regs _ (by decide) (by decide)) 15 0
  have h0 : (s.tempEdges top).bit Reg.MGT_STAT 0 = (s.tempWarn top).2.bit Reg.MGT_STAT 0 := c.others 0 (by decide)
  refine ⟨fun a h1 h2 => (c.regs a h1 h2).trans (w.regs a h1 h2), c.told.mem.trans w.told.mem, fun hwarn hle => ⟨h0.trans (w.set ?_), ?_⟩,
    fun hwarn => ⟨h0.trans (congrArg (fun t : State => t.bit Reg.MGT_STAT 0) (w.unset ?_)), ?_⟩, fun hcr hle => ⟨c.set ?_, ?_⟩⟩
  · rw [hwarn, decide_eq_true hle]
    rfl
  · exact hw.mpr (by rw [hwarn, if_neg (by decide)]; omega)
  · rw [hwarn]
    rfl
  · exact hw.trans (by rw [hwarn, if_pos rfl])
  · rw [hcrit, hthr, hcr, decide_eq_true hle]
    rfl
  · exact hc.mpr (by rw [hcrit, hthr, hcr, if_neg (by decide)]; omega)

theorem sext_emod {top : Int} (h1 : -32768 ≤ top) (h2 : top < 32768) : sext 16 (top % 65536).toNat = top := by
  unfold sext
  dsimp only
  split <;> omega

theorem tempConversion_spec {temps : List (BitVec 16)} {top : Int} (hlen : temps.length = 8) (hle : ∀ v ∈ temps, v.toInt ≤ top) (hex : ∃ v ∈ temps, v.toInt = top)
    (s : State) : Completes (.tempConversion temps) s fun t => (∀ k v, temps[k]? = some v → t.reg (Reg.MGT_TEMPk k) = wd v.toNat) ∧
    sext 16 (t.f Reg.MGT_TMAX 15 0) = top ∧
    (s.mgt.warn = false → sext 16 (s.f Reg.MGT_TWARN 15 0) ≤ top → t.bit Reg.MGT_STAT 0 = true ∧ t.mgt.warn = true) ∧
    (s.mgt.warn = true → t.bit Reg.MGT_STAT 0 = s.bit Reg.MGT_STAT 0 ∧ (t.mgt.warn = true ↔ sext 16 (s.f Reg.MGT_TWARN 15 0) - 32 < top)) ∧
    (s.mgt.crit = false → sext 16 (s.f Reg.MGT_TCRIT 15 0) ≤ top → t.bit Reg.MGT_STAT 1 = true ∧ t.mgt.crit = true) ∧ SameMemory s t := by
  obtain ⟨v0, -, e0⟩ := id hex
  have hlo : (-32768 : Int) ≤ top := e0 ▸ BitVec.le_toInt v0
  have hhi : top < 32768 := e0 ▸ BitVec.toInt_lt
  have hx := execTempConversion_eq temps s
  rw [readings_eq hlen, foldl_max_eq hlo hle (.inr hex)] at hx
  obtain ⟨r1, r2, r3, hm, r4⟩ := s.readTemps_spec temps top
  obtain ⟨e1, e2, e3, e4, e5⟩ := (s.readTemps temps top).tempEdges_spec top
  rw [hm, State.f_of_reg (r3 Reg.MGT_TWARN (by decide))] at e3 e4
  rw [State.bit_of_reg (r3 Reg.MGT_STAT (by decide))] at e4
  rw [hm, State.f_of_reg (r3 Reg.MGT_TCRIT (by decide))] at e5
  refine ⟨_, hx, fun k v h => ?_, ?_, e3, e4, e5, State.byte_congr (e2.trans r4)⟩
  · have hk : k < 8 := hlen ▸ (List.getElem?_eq_some_iff.mp h).1
    refine (e1 _ (by simp only [Reg.MGT_TEMPk, Reg.MGT_STAT]; omega) (not_eventReg_mgt ?_ ?_)).trans (r1 k v h hlen.le)
    · simp only [Reg.MGT_TEMPk]; omega
    · simp only [Reg.MGT_TEMPk]; omega
  · rw [State.f_of_reg (e1 Reg.MGT_TMAX (by decide) (by decide)), r2]
    exact sext_emod hlo hhi

/-! Supplies (R430). -/

/-- The reading of supply `k`. -/
def supplyAt (mv : List (BitVec 13)) (k : Nat) : Nat := match mv[k]? with | some x => x.toNat | none => 0

theorem supplyAt_of {mv : List (BitVec 13)} {k : Nat} {v : BitVec 13} (h : mv[k]? = some v) : supplyAt mv k = v.toNat := by rw [supplyAt, h]

/-- Supply `k` is outside its limits. -/
def State.supplyOut (mv : List (BitVec 13)) (k : Nat) (s : State) : Bool :=
  decide (s.f (Reg.MGT_VLIMk k) 28 16 ≠ 0) && (decide (supplyAt mv k < s.f (Reg.MGT_VLIMk k) 12 0) || decide (s.f (Reg.MGT_VLIMk k) 28 16 < supplyAt mv k))

/-- The supply's reading stands in its register, and it is noted whether it is outside its limits. -/
def State.supplyNoted (mv : List (BitVec 13)) (k : Nat) (s : State) : State :=
  let t := s.setReg (Reg.MGT_VMONk k) (wd (supplyAt mv k))
  { t with mgt := { t.mgt with vout := if t.supplyOut mv k then k :: t.mgt.vout.erase k else t.mgt.vout.erase k } }

def State.sampleSupply (mv : List (BitVec 13)) (s : State) (k : Nat) : State :=
  if (s.supplyNoted mv k).supplyOut mv k && !s.mgt.vout.contains k then (s.supplyNoted mv k).raise0 stMGT 2 else s.supplyNoted mv k

theorem execSupplySample_eq (mv : List (BitVec 13)) (s : State) : exec (.supplySample mv) s = .next ((List.range 6).foldl (State.sampleSupply mv) s) := rfl

theorem State.supplyOut_congr {s t : State} {k : Nat} (h : t.reg (Reg.MGT_VLIMk k) = s.reg (Reg.MGT_VLIMk k)) (mv : List (BitVec 13)) :
    t.supplyOut mv k = s.supplyOut mv k := by
  simp only [State.supplyOut, State.f_of_reg h]

/-- What the samples of the supplies named leave. -/
structure Sampled (mv : List (BitVec 13)) (l : List Nat) (s t : State) : Prop where
  mem : t.mem = s.mem
  reads : ∀ k ∈ l, t.reg (Reg.MGT_VMONk k) = wd (supplyAt mv k)
  regs : ∀ a, a ≠ Reg.MGT_STAT → ¬ eventReg a → (∀ k ∈ l, a ≠ Reg.MGT_VMONk k) → t.reg a = s.reg a
  vout : ∀ k, k ∉ l → (k ∈ t.mgt.vout ↔ k ∈ s.mgt.vout)
  warns : ∀ k ∈ l, s.supplyOut mv k = true → k ∉ s.mgt.vout → t.bit Reg.MGT_STAT 2 = true ∧ k ∈ t.mgt.vout
  stays : s.bit Reg.MGT_STAT 2 = true → t.bit Reg.MGT_STAT 2 = true
  quiet : (∀ k ∈ l, s.supplyOut mv k = false) → t.bit Reg.MGT_STAT 2 = s.bit Reg.MGT_STAT 2

theorem State.sampled_one (mv : List (BitVec 13)) {k : Nat} (hk : k < 6) (s : State) : Sampled mv [k] s (s.sampleSupply mv k) := by
  have hlim : (s.supplyNoted mv k).reg (Reg.MGT_VLIMk k) = s.reg (Reg.MGT_VLIMk k) := State.reg_setReg_ne s (by simp only [Reg.MGT_VLIMk, Reg.MGT_VMONk]; omega) _
  have hout : (s.supplyNoted mv k).supplyOut mv k = s.supplyOut mv k := State.supplyOut_congr hlim mv
  have hout' : (s.setReg (Reg.MGT_VMONk k) (wd (supplyAt mv k))).supplyOut mv k = s.supplyOut mv k := hout
  have w := (s.supplyNoted mv k).warned ((s.supplyNoted mv k).supplyOut mv k && !s.mgt.vout.contains k) (bit := 2) (by decide)
  change Warned _ 2 _ (s.sampleSupply mv k) at w
  have hv : (s.supplyNoted mv k).mgt.vout = if s.supplyOut mv k then k :: s.mgt.vout.erase k else s.mgt.vout.erase k := by rw [← hout']; rfl
  have hstat : (s.supplyNoted mv k).bit Reg.MGT_STAT 2 = s.bit Reg.MGT_STAT 2 :=
    State.bit_of_reg (State.reg_setReg_ne s (by simp only [Reg.MGT_STAT, Reg.MGT_VMONk]; omega) _) 2
  refine ⟨w.told.mem, fun j hj => ?_, fun a h1 h2 h3 => (w.regs a h1 h2).trans (State.reg_setReg_ne s (h3 k (by simp)) _), fun j hj => ?_, fun j hj ho hn => ?_,
    fun h => w.keeps (hstat.trans h), fun h => ?_⟩
  · obtain rfl := List.mem_singleton.mp hj
    refine (w.regs _ (by simp only [Reg.MGT_STAT, Reg.MGT_VMONk]; omega) (not_eventReg_mgt ?_ ?_)).trans (State.reg_setReg_same s _ _) <;>
      simp only [Reg.MGT_VMONk] <;> omega
  · have hne : j ≠ k := by simpa using hj
    rw [w.told.mgt, hv]
    split <;> simp [hne, List.mem_erase_of_ne hne]
  · obtain rfl := List.mem_singleton.mp hj
    refine ⟨w.set (by rw [hout, ho]; simpa using hn), ?_⟩
    rw [w.told.mgt, hv, ho]
    simp
  · refine (congrArg (fun t : State => t.bit Reg.MGT_STAT 2) (w.unset ?_)).trans hstat
    rw [hout, h k (by simp)]
    rfl

theorem State.sampled (mv : List (BitVec 13)) {l : List Nat} (hl : ∀ k ∈ l, k < 6) (hn : l.Nodup) (s : State) : Sampled mv l s (l.foldl (State.sampleSupply mv) s) := by
  induction l generalizing s with
  | nil => exact ⟨rfl, by simp, fun _ _ _ _ => rfl, fun _ _ => .rfl, by simp, id, fun _ => rfl⟩
  | cons k l ih =>
    obtain ⟨hk, hl⟩ := List.forall_mem_cons.mp hl
    obtain ⟨hkl, hn⟩ := List.nodup_cons.mp hn
    have a := s.sampled_one mv hk
    have b := ih hl hn (s.sampleSupply mv k)
    have hlim : ∀ j < 6, (s.sampleSupply mv k).supplyOut mv j = s.supplyOut mv j := fun j hj => State.supplyOut_congr (a.regs _
      (by simp only [Reg.MGT_STAT, Reg.MGT_VLIMk]; omega) (not_eventReg_mgt (by simp only [Reg.MGT_VLIMk]; omega) (by simp only [Reg.MGT_VLIMk]; omega))
      (by simp only [List.mem_singleton, forall_eq, Reg.MGT_VLIMk, Reg.MGT_VMONk]; omega)) mv
    rw [List.foldl_cons]
    refine ⟨b.mem.trans a.mem, List.forall_mem_cons.mpr ⟨?_, b.reads⟩, fun c h1 h2 h3 => ?_, fun j hj => ?_, List.forall_mem_cons.mpr ⟨fun ho hnv => ?_, fun j hj ho hnv => ?_⟩,
      fun h => b.stays (a.stays h), fun h => ?_⟩
    · refine (b.regs _ (by simp only [Reg.MGT_STAT, Reg.MGT_VMONk]; omega) (not_eventReg_mgt ?_ ?_) fun j hj e => hkl ?_).trans (a.reads k (by simp))
      · simp only [Reg.MGT_VMONk]; omega
      · simp only [Reg.MGT_VMONk]; omega
      · rwa [show k = j by simp only [Reg.MGT_VMONk] at e; omega]
    · exact (b.regs c h1 h2 fun j hj => h3 j (by simp [hj])).trans (a.regs c h1 h2 fun j hj => h3 j (by simp_all))
    · obtain ⟨h1, h2⟩ := not_or.mp (mt List.mem_cons.mpr hj)
      exact (b.vout j h2).trans (a.vout j (by simpa using h1))
    · obtain ⟨h1, h2⟩ := a.warns k (by simp) ho hnv
      exact ⟨b.stays h1, (b.vout k hkl).mpr h2⟩
    · have hne : j ≠ k := fun e => hkl (e ▸ hj)
      exact b.warns j hj ((hlim j (hl j hj)).trans ho) fun h => hnv ((a.vout j (by simpa using hne)).mp h)
    · refine (b.quiet fun j hj => (hlim j (hl j hj)).trans (h j (by simp [hj]))).trans (a.quiet fun j hj => h j (by simp_all))

theorem supplySample_spec {mv : List (BitVec 13)} (hlen : mv.length = 6) (s : State) : Completes (.supplySample mv) s fun t =>
    (∀ k v, mv[k]? = some v → t.reg (Reg.MGT_VMONk k) = wd v.toNat ∧
      (s.f (Reg.MGT_VLIMk k) 28 16 ≠ 0 → v.toNat < s.f (Reg.MGT_VLIMk k) 12 0 ∨ s.f (Reg.MGT_VLIMk k) 28 16 < v.toNat → s.mgt.vout.contains k = false →
        t.bit Reg.MGT_STAT 2 = true ∧ k ∈ t.mgt.vout)) ∧
    ((∀ k v, mv[k]? = some v → s.f (Reg.MGT_VLIMk k) 28 16 = 0 ∨ (s.f (Reg.MGT_VLIMk k) 12 0 ≤ v.toNat ∧ v.toNat ≤ s.f (Reg.MGT_VLIMk k) 28 16)) →
      t.bit Reg.MGT_STAT 2 = s.bit Reg.MGT_STAT 2) ∧ SameMemory s t := by
  have h := State.sampled mv (l := List.range 6) (by simp) List.nodup_range s
  refine ⟨_, execSupplySample_eq mv s, fun k v hv => ?_, fun hin => h.quiet fun k hk => ?_, State.byte_congr h.mem⟩
  · have hk : k ∈ List.range 6 := List.mem_range.mpr (hlen ▸ (List.getElem?_eq_some_iff.mp hv).1)
    refine ⟨(h.reads k hk).trans (by rw [supplyAt_of hv]), fun h1 h2 h3 => h.warns k hk ?_ (by simpa using h3)⟩
    rw [State.supplyOut, supplyAt_of hv, decide_eq_true h1, Bool.true_and, Bool.or_eq_true, decide_eq_true_iff, decide_eq_true_iff]
    exact h2
  · have hv := List.getElem?_eq_getElem (l := mv) (i := k) (hlen ▸ List.mem_range.mp hk)
    rw [State.supplyOut, supplyAt_of hv]
    rcases hin k _ hv with h0 | ⟨h1, h2⟩
    · rw [h0]
      rfl
    · rw [decide_eq_false (Nat.not_lt.mpr h1), decide_eq_false (Nat.not_lt.mpr h2)]
      exact Bool.and_false _

/-! The ADC (R431). -/

/-- The mean of the conversions kept, rounded half up. -/
def adcMean (l : List Nat) : Nat := (2 * l.sum + l.length) / (2 * l.length)

/-- The result of channel `c` is outside its limits. -/
def State.adcOut (c r : Nat) (s : State) : Bool :=
  decide (s.f (Reg.MGT_ADCTHRc c) 27 16 ≠ 0) && (decide (r < s.f (Reg.MGT_ADCTHRc c) 11 0) || decide (s.f (Reg.MGT_ADCTHRc c) 27 16 < r))

/-- Channel `c` has the conversions `new`, and the sequencer goes on to `next`. -/
def State.adcNoted (c next : Nat) (new : List Nat) (s : State) : State :=
  let t := s.setReg (Reg.MGT_ADCRESc c) (wd (adcMean new))
  { t with mgt := { t.mgt with hist := (c, new) :: t.mgt.hist.filter (fun h => decide (h.1 ≠ c)), entry := next,
                               aout := if t.adcOut c (adcMean new) then c :: t.mgt.aout.erase c else t.mgt.aout.erase c } }

/-- The conversion is noted, and a result newly outside its limits warns. -/
def State.adcConverted (c next : Nat) (new : List Nat) (s : State) : State :=
  if (s.setReg (Reg.MGT_ADCRESc c) (wd (adcMean new))).adcOut c (adcMean new) && !s.mgt.aout.contains c then (s.adcNoted c next new).raise0 stMGT 3
  else s.adcNoted c next new

theorem adcConversion_off {s : State} (h : s.bit Reg.MGT_ADCCTL 0 = false) (code : BitVec 12) : exec (.adcConversion code) s = .next s := if_pos (by rw [h]; rfl)

section
variable {s : State} {code : BitVec 12} {e c : Nat} {old new : List Nat} (hon : s.bit Reg.MGT_ADCCTL 0 = true)
  (he : e = s.mgt.entry % (s.f Reg.MGT_ADCCTL 3 1 + 1)) (hc : c = s.f Reg.MGT_ADCSEQ (4 * e + 2) (4 * e))
  (hold : (s.mgt.hist.find? fun h => decide (h.1 = c)) = none ∧ old = [] ∨ s.mgt.hist.find? (fun h => decide (h.1 = c)) = some (c, old))
  (hnew : new = (code.toNat :: old).take (2 ^ min 8 (s.f Reg.MGT_ADCCTL 7 4)))
include hon he hc hold hnew

theorem execAdcConversion_eq : exec (.adcConversion code) s = .next (s.adcConverted c ((e + 1) % (s.f Reg.MGT_ADCCTL 3 1 + 1)) new) := by
  subst he hc hnew
  refine (if_neg (by rw [hon]; decide)).trans ?_
  rcases hold with ⟨h, rfl⟩ | h
  · simp only [h]
    rfl
  · simp only [h]
    rfl

theorem adcConversion_spec : Completes (.adcConversion code) s fun t =>
    (∀ r, r = (2 * new.sum + new.length) / (2 * new.length) → t.reg (Reg.MGT_ADCRESc c) = wd r ∧ (s.f (Reg.MGT_ADCTHRc c) 27 16 ≠ 0 →
      r < s.f (Reg.MGT_ADCTHRc c) 11 0 ∨ s.f (Reg.MGT_ADCTHRc c) 27 16 < r → s.mgt.aout.contains c = false → t.bit Reg.MGT_STAT 3 = true)) ∧
    t.mgt.entry = (e + 1) % (s.f Reg.MGT_ADCCTL 3 1 + 1) ∧ (t.mgt.hist.find? fun h => decide (h.1 = c)) = some (c, new) ∧ SameMemory s t := by
  have hlt : c < 8 := hc ▸ (fld_lt _ _ _).trans_le (le_of_eq (by rw [show 4 * e + 2 + 1 - 4 * e = 3 by omega]; rfl))
  have w := State.warned ((s.setReg (Reg.MGT_ADCRESc c) (wd (adcMean new))).adcOut c (adcMean new) && !s.mgt.aout.contains c) (bit := 3) (by decide)
    (s.adcNoted c ((e + 1) % (s.f Reg.MGT_ADCCTL 3 1 + 1)) new)
  have hm := w.told.mgt
  refine ⟨_, execAdcConversion_eq hon he hc hold hnew, ?_, (congrArg MgtSt.entry hm :), (congrArg (fun x : MgtSt => x.hist.find? fun h => decide (h.1 = c)) hm).trans (by simp [State.adcNoted]),
    State.byte_congr w.told.mem⟩
  rintro r rfl
  refine ⟨(w.regs _ (by simp only [Reg.MGT_STAT, Reg.MGT_ADCRESc]; omega) (not_eventReg_mgt ?_ ?_)).trans (State.reg_setReg_same s _ _), fun h1 h2 h3 => w.set ?_⟩
  · simp only [Reg.MGT_ADCRESc]; omega
  · simp only [Reg.MGT_ADCRESc]; omega
  · have ht : (s.setReg (Reg.MGT_ADCRESc c) (wd (adcMean new))).reg (Reg.MGT_ADCTHRc c) = s.reg (Reg.MGT_ADCTHRc c) :=
      State.reg_setReg_ne s (by simp only [Reg.MGT_ADCTHRc, Reg.MGT_ADCRESc]; omega) _
    rw [h3, State.adcOut, State.f_of_reg ht, State.f_of_reg ht, decide_eq_true h1]
    rw [Bool.true_and, Bool.not_false, Bool.and_true, Bool.or_eq_true, decide_eq_true_iff, decide_eq_true_iff]
    exact h2

end

/-! The automatic brightness (R432, R433). -/

theorem autoBrightness_off {s : State} (h : s.bit Reg.MGT_ABCTL 0 = false ∨ s.running = false ∨ s.beam.pos ≠ ⟨0, 0, 0⟩) : exec .autoBrightness s = .next s := by
  refine if_neg ?_
  rcases h with h | h | h <;> simp [h]

theorem State.abStep_filter (s : State) :
    (s.abStep.1 : Int) = (s.mgt.f + asr ((s.f (Reg.MGT_ADCRESc (s.f Reg.MGT_ABCTL 3 1)) 11 0 : Int) * 16 - s.mgt.f) (s.f Reg.MGT_ABCTL 7 4)) % 65536 := by
  have e : s.abStep.1 = (((s.mgt.f : Int) + asr (((s.abInput * 16 : Nat) : Int) - s.mgt.f) (s.f Reg.MGT_ABCTL 7 4)) % 65536).toNat := rfl
  rw [e, Int.toNat_of_nonneg (Int.emod_nonneg _ (by decide)), State.abInput]
  push_cast
  rfl

/-- The curve at the filtered input `f`. -/
def State.curveAt (f : Nat) (s : State) : Int :=
  (s.f (Reg.MGT_ABCURVEi (f / 4096)) 15 0 : Int) + asr (((s.f (Reg.MGT_ABCURVEi (f / 4096 + 1)) 15 0 : Int) - s.f (Reg.MGT_ABCURVEi (f / 4096)) 15 0) *
    ((f % 4096 : Nat) : Int) + 2048) 12

/-- The derating factor as it stands. -/
def State.derating (s : State) : Int :=
  derate (sext 16 (s.f Reg.MGT_TMAX 15 0)) (sext 16 (s.f Reg.MGT_ABDER 15 0)) (sext 16 (s.f Reg.MGT_ABDER 31 16)) (s.f Reg.MGT_ABDERMIN 15 0)

def State.abOutput (s : State) : Int :=
  let b := asr (s.curveAt s.abStep.1 * s.derating + 16384) 15
  if (s.f Reg.MGT_ABCTL 31 16 : Int) = 0 then b else clampI ((s.mgt.prev : Int) - s.f Reg.MGT_ABCTL 31 16) ((s.mgt.prev : Int) + s.f Reg.MGT_ABCTL 31 16) b

theorem State.abStep_output (s : State) : s.abStep.2 = (s.abOutput % 65536).toNat := rfl

/-- With a curve of one value and no slew limit the output is that value derated. -/
theorem State.abStep_flat {s : State} {c : Nat} (hc : ∀ i, i ≤ 16 → s.f (Reg.MGT_ABCURVEi i) 15 0 = c) (h0 : s.f Reg.MGT_ABCTL 31 16 = 0) :
    s.abStep.2 = ((asr (c * s.derating + 16384) 15) % 65536).toNat := by
  have hf := s.abStep_filter
  have hcurve : s.curveAt s.abStep.1 = c := by
    rw [State.curveAt, hc _ (by omega), hc _ (by omega), sub_self, zero_mul, zero_add]
    show (c : Int) + 2048 / ((2 ^ 12 : Nat) : Int) = c
    norm_num
  rw [State.abStep_output, State.abOutput, hcurve, h0]
  rfl

section
variable {s : State} {c : Nat} (hc : ∀ i, i ≤ 16 → s.f (Reg.MGT_ABCURVEi i) 15 0 = c) (h0 : s.f Reg.MGT_ABCTL 31 16 = 0)
include hc h0

theorem State.abStep_cool (h : sext 16 (s.f Reg.MGT_TMAX 15 0) ≤ sext 16 (s.f Reg.MGT_ABDER 15 0)) : s.abStep.2 = c := by
  have hlt : c < 65536 := hc 0 (by decide) ▸ fld_lt _ _ _
  have hd : s.derating = 32768 := if_pos h
  rw [State.abStep_flat hc h0, hd, asr]
  norm_num
  omega

theorem State.abStep_hot (h : sext 16 (s.f Reg.MGT_ABDER 15 0) < sext 16 (s.f Reg.MGT_TMAX 15 0))
    (h' : sext 16 (s.f Reg.MGT_ABDER 31 16) ≤ sext 16 (s.f Reg.MGT_TMAX 15 0)) (hmin : s.f Reg.MGT_ABDERMIN 15 0 ≤ 32768) :
    s.abStep.2 = (c * s.f Reg.MGT_ABDERMIN 15 0 + 16384) / 32768 := by
  have hlt : c < 65536 := hc 0 (by decide) ▸ fld_lt _ _ _
  have hd : s.derating = s.f Reg.MGT_ABDERMIN 15 0 := (if_neg (by omega)).trans (if_pos h')
  rw [State.abStep_flat hc h0, hd, asr]
  generalize s.f Reg.MGT_ABDERMIN 15 0 = d at hmin
  have hp : c * d ≤ 65535 * 32768 := Nat.mul_le_mul (by omega) hmin
  rw [← Nat.cast_mul]
  norm_num
  omega

end

theorem autoBrightness_spec {s : State} (h1 : s.bit Reg.MGT_ABCTL 0 = true) (h2 : s.running = true) (h3 : s.beam.pos = ⟨0, 0, 0⟩) :
    Completes .autoBrightness s fun t => (t.mgt.f, t.mgt.prev) = s.abStep ∧ t.bit Reg.COT_PENDING 0 = true ∧ fld (t.shd Reg.QDL_BRIGHT) 15 0 = t.mgt.prev ∧
      t.reg Reg.MGT_ABOUT = wd t.mgt.prev ∧ SameRegsBut (fun a => a = Reg.COT_PENDING ∨ a = Reg.MGT_ABOUT) s t ∧ SameMemory s t := by
  refine ⟨_, show exec .autoBrightness s = .next _ from if_pos (by simp [h1, h2, h3]), rfl, ?_, ?_, ?_, fun a hne => ?_, fun _ => rfl⟩
  · rw [State.bit_commitRequest _ _ (by decide)]
    exact Bool.or_true _
  · show fld (State.shd (s.setShd Reg.QDL_BRIGHT _) Reg.QDL_BRIGHT) 15 0 = s.abStep.2
    have hlt : s.abStep.2 < 65536 := by
      rw [State.abStep_output]
      omega
    rw [State.shd_setShd, if_pos rfl, fld_setFld_same _ (by decide)]
    exact Nat.mod_eq_of_lt hlt
  · exact (State.reg_commitRequest_ne _ _ (by decide)).trans (State.reg_setReg_same _ _ _)
  · obtain ⟨k1, k2⟩ := not_or.mp hne
    exact (State.reg_commitRequest_ne _ _ k1).trans (State.reg_setReg_ne (s.setShd _ _) k2 _)

/-! Mail that comes (R434). -/

theorem State.fillWords_spec {f : Nat → Nat} (hf : Function.Injective f) (bs : List Byte) (s : State) :
    (∀ j, 4 * j < bs.length → (s.fillWords f bs).reg (f j) = leWord ((bs.drop (4 * j)).take 4)) ∧
      (∀ a, (∀ j, 4 * j < bs.length → a ≠ f j) → (s.fillWords f bs).reg a = s.reg a) ∧ ∃ regs, s.fillWords f bs = { s with regs := regs } := by
  obtain ⟨h1, h2, h3⟩ := State.foldl_setReg hf (g := fun _ j => leWord ((bs.drop (4 * j)).take 4)) (fun _ _ _ _ => rfl) (List.range ((bs.length + 3) / 4)) List.nodup_range s
  exact ⟨fun j hj => h1 j (List.mem_range.mpr (by omega)), fun a ha => h2 a fun j hj => ha j (by have := List.mem_range.mp hj; omega), h3⟩

theorem State.placeMail_spec {k : Nat} (hk : k < 4) (bs : List Byte) (src : Nat) (s : State) : (s.placeMail k bs src).bit Reg.MGT_MBINSTAT k = true ∧
    (s.placeMail k bs src).bit Reg.MGT_STAT 4 = true ∧ (s.placeMail k bs src).reg (Reg.MGT_MBINSRCs k) = wd src ∧
    (∀ j, j < 512 → 4 * j + 4 ≤ bs.length → (s.placeMail k bs src).reg (Reg.MGT_MBINs k j) = leWord ((bs.drop (4 * j)).take 4)) ∧ (s.placeMail k bs src).mem = s.mem := by
  obtain ⟨h1, -, regs, h3⟩ := State.fillWords_spec (f := Reg.MGT_MBINs k) (fun i j h => by simp only [Reg.MGT_MBINs] at h; omega) (bs.take 2048) s
  have hn : ¬ eventReg stMGT.addr := by decide
  have hkeep : ∀ a, a ≠ Reg.MGT_STAT → 0x40150000 ≤ a → a < 0x40160000 → (s.placeMail k bs src).reg a =
      ((((s.fillWords (Reg.MGT_MBINs k) (bs.take 2048)).setReg (Reg.MGT_MBINSRCs k) (wd src)).setBit Reg.MGT_MBINSTAT k true).reg a) := fun a ha hlo hhi =>
    State.reg_raise0_ne _ 4 ha (not_eventReg_mgt hlo hhi) (by decide)
  refine ⟨?_, State.bit_raise0_same (r := stMGT) _ (by decide) hn (by decide), ?_, fun j hj hlen => ?_, (State.told_raise0 ..).mem.trans (congrArg State.mem h3 :)⟩
  · exact (State.bit_of_reg (hkeep _ (by decide) (by decide) (by decide)) k).trans (State.bit_setBit_same _ _ _ (by omega))
  · refine (hkeep _ (by simp only [Reg.MGT_MBINSRCs, Reg.MGT_STAT]; omega) (by simp only [Reg.MGT_MBINSRCs]; omega) (by simp only [Reg.MGT_MBINSRCs]; omega)).trans ?_
    rw [State.reg_setBit_ne _ (by simp only [Reg.MGT_MBINSRCs, Reg.MGT_MBINSTAT]; omega), State.reg_setReg_same]
  · refine (hkeep _ (by simp only [Reg.MGT_MBINs, Reg.MGT_STAT]; omega) (by simp only [Reg.MGT_MBINs]; omega) (by simp only [Reg.MGT_MBINs]; omega)).trans ?_
    rw [State.reg_setBit_ne _ (by simp only [Reg.MGT_MBINs, Reg.MGT_MBINSTAT]; omega), State.reg_setReg_ne _ (by simp only [Reg.MGT_MBINs, Reg.MGT_MBINSRCs]; omega),
      h1 j (by rw [List.length_take]; omega), List.drop_take, List.take_take, min_eq_left (by omega)]

theorem freeInbound_lt {s : State} {k : Nat} (h : s.freeInbound = some k) : k < 4 := List.mem_range.mp (List.mem_of_find?_eq_some h)

section
variable {s u : State} {h : Hop} {ok : Bool} {f : Frame} (hz : s.frozen = false) (ht : f.type = 4) (hs : f.sub = 3)
include hz ht hs

theorem execMail_eq (h : Hop) (ok : Bool) : exec (.mail h ok f) s = if !(s.arrives h ok f).1 then .next (s.arrives h ok f).2 else
    match (s.arrives h ok f).2.freeInbound with
    | some k => .next ((s.arrives h ok f).2.placeMail k f.data f.src)
    | none => .next s :=
  (if_neg (by rw [hz]; decide)).trans (if_neg (by rw [ht, hs]; decide))

theorem mail_placed {k : Nat} (ha : s.arrives h ok f = (true, u)) (hk : u.freeInbound = some k) : Completes (.mail h ok f) s fun t =>
    t.bit Reg.MGT_MBINSTAT k = true ∧ t.bit Reg.MGT_STAT 4 = true ∧ t.reg (Reg.MGT_MBINSRCs k) = wd f.src ∧
      (∀ j, j < 512 → 4 * j + 4 ≤ f.data.length → t.reg (Reg.MGT_MBINs k j) = leWord ((f.data.drop (4 * j)).take 4)) ∧ SameMemory u t := by
  obtain ⟨h1, h2, h3, h4, h5⟩ := State.placeMail_spec (freeInbound_lt hk) f.data f.src u
  exact ⟨_, (execMail_eq hz ht hs h ok).trans (by rw [ha]; simp only [Bool.not_true, Bool.false_eq_true, if_false, hk]), h1, h2, h3, h4, State.byte_congr h5⟩

end

/-! Registers of the mailboxes and the snapshot. -/

theorem State.length_health (s : State) : s.health.length = 16 := rfl

theorem State.snapHealth_spec {v : Word} (hv : bitAt v 0 = true) (s : State) : (∀ k w, s.health[k]? = some w → (s.snapHealth v).reg (Reg.MGT_HSw k) = w) ∧
    (∀ a, a < Reg.MGT_HSw 0 ∨ Reg.MGT_HSw 16 ≤ a → (s.snapHealth v).reg a = s.reg a) ∧ (s.snapHealth v).mem = s.mem := by
  obtain ⟨h1, h2, regs, h3⟩ := State.foldl_zipIdx_setReg (f := Reg.MGT_HSw) (fun i j h => by simp only [Reg.MGT_HSw] at h; omega) (fun w : Word => w) s.health 0 s
  rw [State.snapHealth, if_pos hv]
  simp only [Nat.zero_add] at h1 h2
  refine ⟨h1, fun a hout => h2 a fun k hk => ?_, (congrArg State.mem h3 :)⟩
  rw [State.length_health] at hk
  simp only [Reg.MGT_HSw] at hout ⊢
  omega

section
variable {m : Acc} {s : State} (hm : m.debug = false)
include hm

theorem mailCommand_unpowered (hoff : s.targetOff Reg.MGT_MBINREL = true) (v : Word) : ∀ c ∈ [Instr.mgtMbinrel m v, .mgtMbsend m v, .mgtHsnap m v],
    Completes c s fun t => t.answer = ⟨6, 0⟩ ∧ t.mgt = s.mgt ∧ t.hi3c = s.hi3c ∧ SameMemory s t := by
  have hr : ∀ a, s.targetOff a = true → Refused 6 s (s.askWrite m a v) := fun a ha => State.askWrite_unpowered v hm ha
  have hall : ∀ a, s.targetOff a = true → (s.askWrite m a v).answer = ⟨6, 0⟩ ∧ (s.askWrite m a v).mgt = s.mgt ∧ (s.askWrite m a v).hi3c = s.hi3c ∧
    SameMemory s (s.askWrite m a v) := fun a ha => ⟨(hr a ha).answer, (hr a ha).mgt, (hr a ha).hi3c, (hr a ha).byte⟩
  simp only [List.mem_cons, List.not_mem_nil, or_false, forall_eq_or_imp, forall_eq]
  exact ⟨⟨_, rfl, hall _ hoff⟩, ⟨_, rfl, hall Reg.MGT_MBSEND hoff⟩, ⟨_, rfl, hall Reg.MGT_HSNAP hoff⟩⟩

variable (hoff : s.targetOff Reg.MGT_MBINREL = false)
include hoff

theorem mailCommand_denied (ha : m.alle = false) (v : Word) : ∀ c ∈ [Instr.mgtMbinrel m v, .mgtMbsend m v, .mgtHsnap m v],
    Completes c s fun t => t.answer = ⟨3, 0⟩ ∧ t.mgt = s.mgt ∧ t.hi3c = s.hi3c ∧ SameMemory s t := by
  have hall : ∀ a, s.targetOff a = false → RegWord a → regProt m a true v = true → (s.askWrite m a v).answer = ⟨3, 0⟩ ∧ (s.askWrite m a v).mgt = s.mgt ∧
      (s.askWrite m a v).hi3c = s.hi3c ∧ SameMemory s (s.askWrite m a v) := fun a ho hw hp =>
    have k : Refused 3 s (s.askWrite m a v) := State.askWrite_protected hm ho hw hp
    ⟨k.answer, k.mgt, k.hi3c, k.byte⟩
  have hn : (!m.alle) = true := by rw [ha]; rfl
  simp only [List.mem_cons, List.not_mem_nil, or_false, forall_eq_or_imp, forall_eq]
  exact ⟨⟨_, rfl, hall _ hoff (by decide) hn⟩, ⟨_, rfl, hall Reg.MGT_MBSEND hoff (by decide) hn⟩, ⟨_, rfl, hall Reg.MGT_HSNAP hoff (by decide) hn⟩⟩

variable (ha : m.alle = true)
include ha

theorem execMgtMbsend_eq (v : Word) : exec (.mgtMbsend m v) s = .next ((s.mbSend v).reply 0 0) :=
  congrArg Host.Outcome.next (State.askWrite_word (.inl hm) (show s.targetOff Reg.MGT_MBSEND = false from hoff) (by decide) (show (!m.alle) = false by rw [ha]; rfl))

theorem execMgtMbinrel_eq (v : Word) : exec (.mgtMbinrel m v) s = .next ((s.mbRelease v).reply 0 0) :=
  congrArg Host.Outcome.next (State.askWrite_word (.inl hm) hoff (by decide) (show (!m.alle) = false by rw [ha]; rfl))

theorem execMgtHsnap_eq (v : Word) : exec (.mgtHsnap m v) s = .next ((s.snapHealth v).reply 0 0) :=
  congrArg Host.Outcome.next (State.askWrite_word (.inl hm) (show s.targetOff Reg.MGT_HSNAP = false from hoff) (by decide) (show (!m.alle) = false by rw [ha]; rfl))

theorem mgtMbinrel_spec (v : Word) : Completes (.mgtMbinrel m v) s fun t => t.reg Reg.MGT_MBINSTAT = (s.reg Reg.MGT_MBINSTAT &&& ~~~v) ∧
    (s.f Reg.MGT_MBINSTAT 3 0 &&& fld v 3 0 = 0 → t.hi3c = s.hi3c) ∧
    (s.f Reg.MGT_MBINSTAT 3 0 &&& fld v 3 0 ≠ 0 → t.hi3c.ibis = s.hi3c.ibis ++ [(0, [2, 15 - t.f Reg.MGT_MBINSTAT 3 0])]) ∧
    SameRegsBut (fun a => a = Reg.MGT_MBINSTAT) s t ∧ SameMemory s t := by
  have hx := execMgtMbinrel_eq hm hoff ha v
  by_cases h : s.f Reg.MGT_MBINSTAT 3 0 &&& fld v 3 0 = 0
  · rw [State.mbRelease, if_pos h] at hx
    exact ⟨_, hx, State.reg_setReg_same .., fun _ => rfl, fun k => absurd h k, fun _ hne => State.reg_setReg_ne _ hne _, fun _ => rfl⟩
  · rw [State.mbRelease, if_neg h] at hx
    exact ⟨_, hx, State.reg_setReg_same .., fun k => absurd k h, fun _ => rfl, fun _ hne => State.reg_setReg_ne _ hne _, fun _ => rfl⟩

theorem mgtHsnap_spec {v : Word} (hv : bitAt v 0 = true) : Completes (.mgtHsnap m v) s fun t => t.reg (Reg.MGT_HSw 0) = s.reg Reg.EVR_SECS ∧
    t.reg (Reg.MGT_HSw 1) = wd s.beam.frame ∧ t.reg (Reg.MGT_HSw 2) = s.reg Reg.BEAM_LOCKSTAT ∧ t.reg (Reg.MGT_HSw 3) = s.reg Reg.BEAM_PHERR ∧
    t.reg (Reg.MGT_HSw 4) = s.reg Reg.QDL_SWAPS ∧ t.reg (Reg.MGT_HSw 6) = s.reg Reg.SIG_PAVSTAT ∧ t.reg (Reg.MGT_HSw 13) = s.reg Reg.EVR_OPSEQ ∧
    t.reg (Reg.MGT_HSw 15) = s.reg Reg.IMG_ACTVER ∧ (∀ a, a < Reg.MGT_HSw 0 ∨ Reg.MGT_HSw 16 ≤ a → t.reg a = s.reg a) ∧ SameMemory s t := by
  obtain ⟨h1, h2, h3⟩ := State.snapHealth_spec hv s
  exact ⟨_, execMgtHsnap_eq hm hoff ha v, h1 0 _ rfl, h1 1 _ rfl, h1 2 _ rfl, h1 3 _ rfl, h1 4 _ rfl, h1 6 _ rfl, h1 13 _ rfl, h1 15 _ rfl, h2, State.byte_congr h3⟩

end

/-! Mail that goes (R435). -/

theorem bitsOf_single {v : Word} {k : Nat} (hk : k < 4) (h : ∀ j, j < 4 → bitAt v j = decide (j = k)) : ((bitsOf v).filter fun j => decide (j < 4)) = [k] := by
  have e : ((bitsOf v).filter fun j => decide (j < 4)) = (List.range 4).filter fun j => decide (j = k) := by
    have hr : List.range 32 = List.range 4 ++ (List.range 28).map (· + 4) := by decide
    have hhigh : ((List.range 28).map (· + 4)).filter (fun j => decide (j < 4) && bitAt v j) = [] := by
      refine List.filter_eq_nil_iff.mpr fun j hj => ?_
      obtain ⟨i, -, rfl⟩ := List.mem_map.mp hj
      simp
    rw [bitsOf, List.filter_filter, hr, List.filter_append, hhigh, List.append_nil]
    refine List.filter_congr fun j hj => ?_
    have hj := List.mem_range.mp hj
    rw [h j hj, decide_eq_true hj, Bool.true_and]
  rw [e]
  interval_cases k <;> decide

theorem State.mbSend_single {v : Word} {k : Nat} (hk : k < 4) (h : ∀ j, j < 4 → bitAt v j = decide (j = k)) (s : State) : s.mbSend v = s.sendMail k := by
  rw [State.mbSend, bitsOf_single hk h]
  rfl

section
variable {s : State} {k : Nat}

theorem State.sendMail_busy (h : s.bit Reg.MGT_MBOUTSTAT k = true) : s.sendMail k = s := if_pos h

variable (hfree : s.bit Reg.MGT_MBOUTSTAT k = false)
include hfree

theorem State.sendMail_host (h : s.bit (Reg.MGT_MBOUTs_DST k) 14 = true) : s.sendMail k =
    { s.setBit Reg.MGT_MBOUTSTAT k true with hi3c := { s.hi3c with ibis := s.hi3c.ibis ++ [(0, [1, k])] } } :=
  (if_neg (by rw [hfree]; decide)).trans (if_pos h)

theorem State.sendMail_long (hk : k < 4) (h : s.bit (Reg.MGT_MBOUTs_DST k) 14 = false)
    (hlen : s.mailMaxpay (s.f (Reg.MGT_MBOUTs_DST k) 13 0) < fld (s.reg (Reg.MGT_MBOUTs k 0)) 31 16 + 16) :
    (s.sendMail k).bit Reg.MGT_MBOUTSTAT k = false ∧ (s.sendMail k).bit Reg.MGT_STAT 6 = true ∧ (s.sendMail k).link = s.link ∧ (s.sendMail k).mem = s.mem := by
  have e : s.sendMail k = ((s.setBit Reg.MGT_MBOUTSTAT k true).setBit Reg.MGT_MBOUTSTAT k false).raise0 stMGT 6 :=
    (if_neg (by rw [hfree]; decide)).trans ((if_neg (show ¬ s.bit (Reg.MGT_MBOUTs_DST k) 14 = true by rw [h]; decide)).trans (if_pos hlen))
  rw [e]
  have ht := State.told_raise0 stMGT 6 ((s.setBit Reg.MGT_MBOUTSTAT k true).setBit Reg.MGT_MBOUTSTAT k false)
  exact ⟨(State.bit_raise0_reg_ne _ 6 k (by decide) (by decide) (by decide)).trans (State.bit_setBit_same _ _ _ (by omega)),
    State.bit_raise0_same (r := stMGT) _ (by decide) (by decide) (by decide), ht.link, ht.mem⟩

theorem State.sendMail_station (hk : k < 4) (h : s.bit (Reg.MGT_MBOUTs_DST k) 14 = false)
    (hlen : fld (s.reg (Reg.MGT_MBOUTs k 0)) 31 16 + 16 ≤ s.mailMaxpay (s.f (Reg.MGT_MBOUTs_DST k) 13 0)) : (s.sendMail k).bit Reg.MGT_MBOUTSTAT k = true := by
  obtain ⟨f, e⟩ : ∃ f, s.sendMail k = (s.setBit Reg.MGT_MBOUTSTAT k true).originate f :=
    ⟨_, (if_neg (by rw [hfree]; decide)).trans ((if_neg (show ¬ s.bit (Reg.MGT_MBOUTs_DST k) 14 = true by rw [h]; decide)).trans (if_neg (Nat.not_lt.mpr hlen)))⟩
  rw [e, State.bit_of_reg ((State.linked_originate f _).regs _ (by decide) (by decide)), State.bit_setBit_same _ _ _ (by omega)]

end

/-- Settles O44, from what each conversion, the brightness unit, a message that comes or goes and the snapshot do. -/
theorem sensorsAndMail : Obligations.SensorsAndMail := by
  unfold Obligations.SensorsAndMail
  refine ⟨fun s => ⟨fun temps top hlen hle hex => tempConversion_spec hlen hle hex s, fun mv hlen => supplySample_spec hlen s, fun code h => adcConversion_off h code,
    fun code e c old new hon he hc hold hnew => adcConversion_spec hon he hc hold hnew, autoBrightness_off, fun h1 h2 h3 => ?_⟩,
    fun m s => ⟨fun h ok f hz hf => ?_, fun h ok f u hz ht hs => ⟨fun har => ?_, fun har hfull => ?_, fun k => mail_placed hz ht hs⟩,
      fun hm hoff => mailCommand_unpowered hm hoff, fun hm ha hoff => mailCommand_denied hm hoff ha,
      fun hm ha hoff => ⟨fun v => ⟨execMgtMbsend_eq hm hoff ha v, fun hv => ?_⟩, mgtMbinrel_spec hm hoff ha, fun v k hk hv hbusy => ?_,
        fun v k hk hv hfree => ⟨fun hd => ?_, fun hd hlen => ?_, fun hd hlen => ?_⟩, fun v => mgtHsnap_spec hm hoff ha⟩, fun k => ⟨fun hb => ?_, fun hb => ?_⟩⟩⟩
  · obtain ⟨t, hx, hstep, hrest⟩ := autoBrightness_spec h1 h2 h3
    obtain ⟨hcot, hbright, habout, hregs, hmem⟩ := hrest
    have hf : t.mgt.f = s.abStep.1 := congrArg Prod.fst hstep
    have hp : t.mgt.prev = s.abStep.2 := congrArg Prod.snd hstep
    exact ⟨t, hx, hf ▸ s.abStep_filter, hstep, hcot, hbright, habout, fun c hc h0 => ⟨fun h => hp.trans (State.abStep_cool hc h0 h),
      fun h h' hmin => hp.trans (State.abStep_hot hc h0 h h' hmin)⟩, hregs, hmem⟩
  · exact (if_neg (by rw [hz]; decide)).trans (if_pos hf)
  · rw [execMail_eq hz ht hs, har]
    rfl
  · rw [execMail_eq hz ht hs, har]
    simp only [Bool.not_true, Bool.false_eq_true, if_false, hfull]
  · rw [execMgtHsnap_eq hm hoff ha, State.snapHealth, if_neg (by rw [hv]; decide)]
  · rw [execMgtMbsend_eq hm hoff ha, State.mbSend_single hk hv, State.sendMail_busy hbusy]
  · have hx := execMgtMbsend_eq hm hoff ha v
    rw [State.mbSend_single hk hv, State.sendMail_host hfree hd] at hx
    exact ⟨_, hx, State.bit_setBit_same s _ _ (by omega), rfl, fun a hne => State.reg_setBit_ne s hne _ _, fun _ => rfl⟩
  · have hx := execMgtMbsend_eq hm hoff ha v
    obtain ⟨r1, r2, r3, r4⟩ := State.sendMail_long hfree hk hd hlen
    rw [State.mbSend_single hk hv] at hx
    exact ⟨_, hx, r1, r2, r3, State.byte_congr r4⟩
  · have hx := execMgtMbsend_eq hm hoff ha v
    rw [State.mbSend_single hk hv] at hx
    exact ⟨_, hx, State.sendMail_station hfree hk hd hlen⟩
  · exact congrArg Host.Outcome.next (if_neg (by rw [hb]; decide))
  · refine ⟨_, congrArg Host.Outcome.next (if_pos hb), ?_, State.bit_raise0_same (r := stMGT) _ (by decide) (by decide) (by decide), State.byte_congr (State.told_raise0 ..).mem⟩
    exact (State.bit_raise0_reg_ne _ 5 k.val (by decide) (by decide) (by decide)).trans (State.bit_setBit_same _ _ _ (by omega))

end Sys2Proof.Machine
end

section
/-! What the work at a frame boundary leaves of the beam, of the power state and of the registers that it does not own (R19, R20, R35, R150). -/

namespace Sys2Proof.Machine

/-- A register that no work at a frame boundary writes. -/
abbrev calmReg (a : Nat) : Prop := blockOf a = 1 ∨ a = Reg.BEAM_CTRL ∨ a = Reg.BEAM_STATION

/-- Where the beam stands is as it was. -/
structure BeamKept (s t : State) : Prop where
  frame : t.beam.frame = s.beam.frame
  pos : t.beam.pos = s.beam.pos
  stopReq : t.beam.stopReq = s.beam.stopReq
  srcFrame : t.beam.srcFrame = s.beam.srcFrame

theorem BeamKept.refl (s : State) : BeamKept s s := ⟨rfl, rfl, rfl, rfl⟩
theorem BeamKept.of_beam {s t : State} (h : t.beam = s.beam) : BeamKept s t := ⟨by rw [h], by rw [h], by rw [h], by rw [h]⟩
theorem BeamKept.trans {s t u : State} (h : BeamKept s t) (k : BeamKept t u) : BeamKept s u :=
  ⟨k.frame.trans h.frame, k.pos.trans h.pos, k.stopReq.trans h.stopReq, k.srcFrame.trans h.srcFrame⟩

/-- The beam and the calm registers are as they were. -/
structure Steady (s t : State) : Prop where
  beam : BeamKept s t
  regs : ∀ a, calmReg a → t.reg a = s.reg a

theorem Steady.refl (s : State) : Steady s s := ⟨.refl s, fun _ _ => rfl⟩
theorem Steady.trans {s t u : State} (h : Steady s t) (k : Steady t u) : Steady s u := ⟨h.beam.trans k.beam, fun a ha => (k.regs a ha).trans (h.regs a ha)⟩

/-- So are the power state, where the chip runs, and the sample count. -/
structure Quiet (s t : State) : Prop where
  steady : Steady s t
  pwr : s.pwr.state = 0 → t.pwr = s.pwr
  snd : t.snd = s.snd

theorem Quiet.refl (s : State) : Quiet s s := ⟨.refl s, fun _ => rfl, rfl⟩
theorem Quiet.trans {s t u : State} (h : Quiet s t) (k : Quiet t u) : Quiet s u :=
  ⟨h.steady.trans k.steady, fun h0 => (k.pwr ((congrArg PwrSt.state (h.pwr h0)).trans h0)).trans (h.pwr h0), k.snd.trans h.snd⟩

theorem Quiet.ite {p : Prop} [Decidable p] {s t u : State} (h : Quiet s t) (k : Quiet s u) : Quiet s (if p then t else u) := by
  split
  · exact h
  · exact k

theorem Quiet.foldl {α : Type} {f : State → α → State} (hf : ∀ t x, Quiet t (f t x)) (l : List α) (s : State) : Quiet s (l.foldl f s) := by
  induction l generalizing s with
  | nil => exact .refl s
  | cons x xs ih => exact (hf s x).trans (ih _)

/-- Registers beside the calm ones, and what the blocks hold in themselves. -/
theorem Quiet.of {s t : State} (hb : BeamKept s t) (hr : ∀ a, calmReg a → t.reg a = s.reg a) (hp : t.pwr = s.pwr) (hs : t.snd = s.snd) : Quiet s t :=
  ⟨⟨hb, hr⟩, fun _ => hp, hs⟩

theorem Quiet.of_regs {s t : State} (hr : t.regs = s.regs) (hb : t.beam = s.beam) (hp : t.pwr = s.pwr) (hs : t.snd = s.snd) : Quiet s t :=
  .of (.of_beam hb) (fun a _ => State.reg_of_regs hr a) hp hs

/-! Which registers are calm. -/

theorem calmReg.lt {a : Nat} (h : calmReg a) : a < 0x40040000 := by
  rcases h with h | rfl | rfl
  · unfold blockOf at h
    split at h <;> omega
  · decide
  · decide

theorem calmReg.not_event {a : Nat} (h : calmReg a) : ¬ eventReg a := by
  rcases h with h | rfl | rfl
  · rintro (k | k) <;> omega
  · decide
  · decide

theorem not_calm_of_le {a : Nat} (h : 0x40040000 ≤ a) : ¬ calmReg a := fun k => absurd k.lt (by omega)

/-- No row of the clock block belongs to a commit group. -/
theorem groupOf_clk {a : Nat} (h : blockOf a = 1) : groupOf a = none := by
  have hrows : ∀ r ∈ RegMap.rowsCLK, (match r.sh with | .group _ => true | _ => false) = false := by decide
  have hmem : ∀ (l : List RegRow) r i, RegMap.findIn l a = some (r, i) → r ∈ l := by
    intro l
    induction l with
    | nil => intro r i h; cases h
    | cons x l ih =>
      intro r i h
      unfold RegMap.findIn at h
      cases hx : x.find a with
      | none => rw [hx] at h; exact List.mem_cons_of_mem _ (ih r i h)
      | some j => rw [hx] at h; cases h; exact List.mem_cons_self
  have hf : RegMap.find a = RegMap.findIn RegMap.rowsCLK a := by
    unfold blockOf at h
    split at h
    · rename_i h4
      rw [RegMap.find, if_pos h4, h]
      rfl
    · omega
  unfold groupOf
  rw [hf]
  cases hr : RegMap.findIn RegMap.rowsCLK a with
  | none => rfl
  | some e =>
    have h0 := hrows e.1 (hmem _ e.1 e.2 hr)
    dsimp only
    cases hs : e.1.sh with
    | group g => rw [hs] at h0; cases h0
    | _ => rfl

theorem calmReg.group {a : Nat} (h : calmReg a) : groupOf a = none := by
  rcases h with h | rfl | rfl
  · exact groupOf_clk h
  · rfl
  · rfl

/-! Registers and status bits. -/

theorem Quiet.setReg {a : Nat} (ha : ¬ calmReg a) (s : State) (v : Word) : Quiet s (s.setReg a v) :=
  .of (.of_beam rfl) (fun b hb => State.reg_setReg_ne s (by rintro rfl; exact ha hb) v) rfl rfl

theorem Quiet.setBit {a : Nat} (ha : ¬ calmReg a) (s : State) (i : Nat) (b : Bool) : Quiet s (s.setBit a i b) := .setReg ha s _
theorem Quiet.setF {a : Nat} (ha : ¬ calmReg a) (s : State) (hi lo v : Nat) : Quiet s (s.setF a hi lo v) := .setReg ha s _
theorem Quiet.count {a : Nat} (ha : ¬ calmReg a) (s : State) (hi lo : Nat) : Quiet s (s.count a hi lo) := .setReg ha s _

theorem State.quiet_arrive {n : Nat} (hn : n < 256) (s : State) : Quiet s (s.arrive n) :=
  ⟨⟨.of_beam (s.told_arrive n).beam, fun _ ha => State.reg_arrive hn ha.not_event s⟩, fun h => State.pwr_arrive (.inl h) n, (s.told_arrive n).snd⟩

theorem State.quiet_logEvent (code : Nat) (a0 a1 a2 a3 : Word) (s : State) : Quiet s (s.logEvent code a0 a1 a2 a3) :=
  ⟨⟨.of_beam (s.told_logEvent ..).beam, fun a ha => (State.logEvent_noted ..).regs a ha.not_event⟩, fun h => State.pwr_enqueueEvent (.inl h) .., (s.told_logEvent ..).snd⟩

theorem State.quiet_raise {r : StatReg} (hr : ¬ calmReg r.addr) (hk : r.known = true) (bit : Nat) (a0 a2 a3 : Word) (s : State) : Quiet s (s.raise r bit a0 a2 a3) := by
  unfold State.raise
  extract_lets s1 from_ s2
  have h1 : Quiet s s1 := .setBit hr s bit true
  have h2 : Quiet s s2 := by
    unfold s2
    cases r.code with
    | none => exact h1
    | some c => exact h1.trans (State.quiet_logEvent ..)
  cases hs : r.src with
  | none => exact h2
  | some n => exact h2.trans (State.quiet_arrive (StatReg.src_lt hk n hs) s2)

theorem State.quiet_raise0 {r : StatReg} (hr : ¬ calmReg r.addr) (hk : r.known = true) (bit : Nat) (s : State) : Quiet s (s.raise0 r bit) :=
  State.quiet_raise hr hk ..

theorem State.quiet_raiseEach {r : StatReg} (hr : ¬ calmReg r.addr) (hk : r.known = true) (bit n : Nat) (s : State) : Quiet s (s.raiseEach r bit n) :=
  Quiet.foldl (fun _ _ => State.quiet_raise0 hr hk ..) _ s

/-! Groups and structure registers. -/

theorem State.quiet_takeGroup (g : Nat) (p : Nat → Bool) (src : List (Nat × Word)) (s : State) : Quiet s (s.takeGroup g p src) :=
  .of (.of_beam rfl) (fun a ha => (State.reg_takeGroup ..).trans (if_neg (by rw [ha.group]; exact fun h => nomatch h.1))) rfl rfl

theorem State.quiet_endFlight (g : Nat) (s : State) : Quiet s (s.endFlight g) :=
  .of (.of_beam rfl) (fun a ha => State.reg_endFlight_ne s g (by rintro rfl; revert ha; decide)) rfl rfl

theorem State.quiet_applyPlain (g : Nat) (s : State) : Quiet s (s.applyPlain g) := .ite ((State.quiet_takeGroup ..).trans (State.quiet_endFlight ..)) (.refl s)

/-- Adoption writes the staged registers alone. -/
theorem State.adopt_spec (p : Nat → Bool) (s : State) : (∀ a, p a = false → (s.adopt p).reg a = s.reg a) ∧ ∃ regs img, s.adopt p = { s with regs := regs, img := img } := by
  have hall : ∀ e ∈ (s.img.staged.partition fun e => p e.1).1, p e.1 = true := fun e he => by
    rw [List.partition_eq_filter_filter] at he
    exact (List.mem_filter.mp he).2
  unfold State.adopt
  generalize s.img.staged.partition (fun e => p e.1) = l at hall
  obtain ⟨now, later⟩ := l
  dsimp only at hall ⊢
  have hfold : ∀ (l : List (Nat × Word)) (t : State), (∀ e ∈ l, p e.1 = true) →
      (∀ a, p a = false → (l.foldl (fun t e => t.setReg e.1 ((t.reg e.1 &&& ~~~(structMask e.1)) ||| e.2)) t).reg a = t.reg a) ∧
        ∃ regs, l.foldl (fun t e => t.setReg e.1 ((t.reg e.1 &&& ~~~(structMask e.1)) ||| e.2)) t = { t with regs := regs } := by
    intro l
    induction l with
    | nil => exact fun t _ => ⟨fun _ _ => rfl, t.regs, rfl⟩
    | cons e l ih =>
      intro t hl
      obtain ⟨he, hl⟩ := List.forall_mem_cons.mp hl
      obtain ⟨h1, regs, h2⟩ := ih (t.setReg e.1 ((t.reg e.1 &&& ~~~(structMask e.1)) ||| e.2)) hl
      exact ⟨fun a ha => (h1 a ha).trans (State.reg_setReg_ne t (by rintro rfl; rw [he] at ha; cases ha) _), regs, h2⟩
  obtain ⟨h1, regs, h2⟩ := hfold now s hall
  exact ⟨h1, regs, { s.img with staged := later }, by rw [h2]⟩

theorem State.quiet_adopt {p : Nat → Bool} (hp : ∀ a, calmReg a → p a = false) (s : State) : Quiet s (s.adopt p) := by
  obtain ⟨h1, regs, img, h2⟩ := s.adopt_spec p
  exact .of (.of_beam (by rw [h2])) (fun a ha => h1 a (hp a ha)) (by rw [h2]) (by rw [h2])

theorem Quiet.setBit_high {a : Nat} (h : 0x40040000 ≤ a) (s : State) (i : Nat) (b : Bool) : Quiet s (s.setBit a i b) := .setBit (not_calm_of_le h) s i b
theorem Quiet.setF_high {a : Nat} (h : 0x40040000 ≤ a) (s : State) (hi lo v : Nat) : Quiet s (s.setF a hi lo v) := .setF (not_calm_of_le h) s hi lo v
theorem Quiet.setReg_high {a : Nat} (h : 0x40040000 ≤ a) (s : State) (v : Word) : Quiet s (s.setReg a v) := .setReg (not_calm_of_le h) s v
theorem Quiet.count_high {a : Nat} (h : 0x40040000 ≤ a) (s : State) (hi lo : Nat) : Quiet s (s.count a hi lo) := .count (not_calm_of_le h) s hi lo

/-! Signature records (R220, R225). -/

theorem sigReg_high (r : Nat) : 0x40040000 ≤ Reg.SIG_REGr_STAT r ∧ 0x40040000 ≤ Reg.SIG_REGr_LAST r ∧ 0x40040000 ≤ Reg.SIG_REGr_FRAME r ∧ 0x40040000 ≤ Reg.SIG_REGr_CNT r := by
  simp only [Reg.SIG_REGr_STAT, Reg.SIG_REGr_LAST, Reg.SIG_REGr_FRAME, Reg.SIG_REGr_CNT]
  omega

theorem State.quiet_raiseSig (bit : Nat) (a0 a2 a3 : Word) (s : State) : Quiet s (s.raise stSIG bit a0 a2 a3) := State.quiet_raise (by decide) (by decide) ..

theorem State.quiet_enterPavane (r : Nat) (s : State) : Quiet s (s.enterPavane r) :=
  .ite (.refl s) (((Quiet.setBit_high (by decide) ..).trans (.setF_high (sigReg_high r).1 ..)).trans (State.quiet_raiseSig ..))

theorem State.quiet_leavePavane (r : Nat) (s : State) : Quiet s (s.leavePavane r) :=
  .ite ((Quiet.setBit_high (by decide) ..).trans (State.quiet_raiseSig ..)) (.refl s)

theorem State.quiet_recordOutcome (r code sum : Nat) (s : State) : Quiet s (s.recordOutcome r code sum) :=
  ((Quiet.setF_high (sigReg_high r).1 ..).trans (.setReg_high (sigReg_high r).2.1 ..)).trans (.setReg_high (sigReg_high r).2.2.1 ..)

theorem State.quiet_recordRegion (q : QFrame) (swapped : Bool) (r : Nat) (s : State) : Quiet s (s.recordRegion q swapped r) := by
  unfold State.recordRegion
  extract_lets g sum s1 st s2 u0 u1 u2
  have hout := fun code n => State.quiet_recordOutcome r code n s
  refine .ite (hout ..) (.ite (.refl s) (.ite (hout ..) ?_))
  split
  · exact hout ..
  · split
    · exact hout ..
    · have h1 : Quiet s s1 := (hout ..).trans (.count_high (sigReg_high r).2.2.2 ..)
      have h2 : Quiet s s2 := h1.trans (.setF_high (sigReg_high r).1 ..)
      exact .ite (.ite (h2.trans (State.quiet_leavePavane ..)) h2) h1
    · have h0 : Quiet s u0 := (hout ..).trans (.count_high (sigReg_high r).2.2.2 ..)
      have h1 : Quiet s u1 := .ite (h0.trans (.setF_high (sigReg_high r).1 ..)) h0
      have h2 : Quiet s u2 := (h1.trans (State.quiet_raiseSig ..)).trans (State.quiet_arrive (by decide) _)
      exact .ite (h2.trans (State.quiet_enterPavane ..)) h2

theorem State.quiet_recordAll (q : QFrame) (swapped : Bool) (s : State) : Quiet s (s.recordAll q swapped) :=
  (Quiet.foldl (fun t r => t.quiet_recordRegion q swapped r) _ s).trans (.of_regs rfl rfl rfl rfl)

/-! The end of a frame in the Quadrille and the panel block (R141, R150, R214). -/

theorem State.quiet_setLayer (n : Nat) (l : LayerSt) (s : State) : Quiet s (s.setLayer n l) := .of_regs rfl rfl rfl rfl

theorem State.quiet_endFrame (q : QFrame) (s : State) : Quiet s (s.endFrame q) := by
  unfold State.endFrame
  extract_lets gone q0 s1
  have h1 : Quiet s s1 := .of_regs rfl rfl rfl rfl
  refine h1.trans (Quiet.foldl (fun t n => ?_) _ _)
  have hb : Quiet t (if gone (t.layer n).busyUntil then (t.setBit (Reg.LAYn_BANK n) 1 false).setLayer n { t.layer n with busyUntil := none } else t) :=
    .ite ((Quiet.setBit_high (by simp only [Reg.LAYn_BANK]; omega) ..).trans (State.quiet_setLayer ..)) (.refl t)
  exact .ite (hb.trans (State.quiet_setLayer ..)) hb

theorem State.quiet_emit (o : Out) (s : State) : Quiet s (s.emit o) := .of_regs rfl rfl rfl rfl

theorem State.quiet_sendCommand (p k data : Nat) (s : State) : Quiet s (s.sendCommand p k data) := by
  unfold State.sendCommand
  exact .ite (State.quiet_emit ..) (State.quiet_emit ..)

theorem State.quiet_setGroup (g row : Nat) (en : Bool) (s : State) : Quiet s (s.setGroup g row en) := by
  unfold State.setGroup
  refine Quiet.trans (t := { s with pnl := { s.pnl with groups := s.pnl.groups.set g (row, en) } }) (.of_regs rfl rfl rfl rfl) ?_
  unfold State.driveGroup
  split
  · exact State.quiet_emit ..
  · exact .refl _

theorem State.quiet_panelAdopt (s : State) : Quiet s s.panelAdopt := by
  unfold State.panelAdopt
  refine .ite (.refl s) ?_
  extract_lets t low fresh
  have ht : Quiet s t := State.quiet_adopt (fun a ha => decide_eq_false fun h => by
    rcases ha with ha | rfl | rfl
    · omega
    · revert h; decide
    · revert h; decide) s
  exact (ht.trans (Quiet.foldl (fun u g => .ite (State.quiet_setGroup ..) (.refl u)) _ t)).trans (Quiet.foldl (fun u p => State.quiet_sendCommand ..) _ low)

theorem State.quiet_panelFrameEnd (s : State) : Quiet s s.panelFrameEnd :=
  Quiet.trans (t := { s with pnl := { s.pnl with units := [], lastUnit := [], segs := [] } }) (.of_regs rfl rfl rfl rfl) (State.quiet_panelAdopt _)

theorem State.quiet_discardFrames (s : State) : Quiet s s.discardFrames := by
  have h1 : Quiet s (s.qdl.frames.foldl (fun t q => (t.recordAll q false).endFrame q) s) :=
    Quiet.foldl (fun t q => (State.quiet_recordAll ..).trans (State.quiet_endFrame ..)) _ s
  exact .ite h1 (h1.trans (State.quiet_panelFrameEnd _))

/-! The engines (R158). -/

theorem engReg_high (e : Nat) : 0x40040000 ≤ Reg.MNT_ENGe_STAT e ∧ 0x40040000 ≤ Reg.MNT_ENGe_PC e ∧ 0x40040000 ≤ Reg.MNT_ENGe_WORDS e := by
  simp only [Reg.MNT_ENGe_STAT, Reg.MNT_ENGe_PC, Reg.MNT_ENGe_WORDS]
  omega

theorem State.quiet_setEng (e : Nat) (x : EngSt) (s : State) : Quiet s (s.setEng e x) := .of_regs rfl rfl rfl rfl

theorem State.quiet_engStart (e n : Nat) (s : State) : Quiet s (s.engStart e n) := by
  obtain ⟨h1, h2, h3⟩ := engReg_high e
  unfold State.engStart
  extract_lets v1 x s2 start s3 st
  have k2 : Quiet s s2 := State.quiet_setEng ..
  have k3 : Quiet s s3 := (k2.trans (Quiet.setReg_high h2 ..)).trans ((State.quiet_setEng ..).trans (.setF_high h1 ..))
  exact .ite ((k3.trans (.setReg_high h1 ..)).trans (.setReg_high h3 ..)) (k2.trans (.setF_high h1 ..))

theorem State.quiet_enginesStart (s : State) : Quiet s s.enginesStart := by
  unfold State.enginesStart
  extract_lets m s0 s1
  have h0 : Quiet s s0 := .of_regs rfl rfl rfl rfl
  have h1 : Quiet s s1 := h0.trans ((State.quiet_takeGroup ..).trans (State.quiet_endFlight ..))
  exact h1.trans (Quiet.foldl (fun t e => .ite (.refl t) (State.quiet_engStart ..)) _ s1)

/-! The points of a frame (R20, R35, R47, R363, R367). -/

theorem State.quiet_matched (b : Nat) (s : State) : Quiet s (s.matched b) := .setBit (by decide) ..

theorem State.quiet_mismatch (b : Nat) (s : State) : Quiet s (s.mismatch b) := by
  unfold State.mismatch
  exact ((Quiet.setBit (by decide) s b true).trans (.setBit (by decide) _ b true)).trans (State.quiet_logEvent ..)

theorem State.quiet_checkPlace (s : State) : Quiet s s.checkPlace := by
  unfold State.checkPlace
  have hb : ∀ p, Quiet s { s with beam := { s.beam with place := p } } := fun p => .of ⟨rfl, rfl, rfl, rfl⟩ (fun _ _ => rfl) rfl rfl
  exact .ite ((hb _).trans (State.quiet_matched ..)) ((State.quiet_mismatch ..).trans (State.quiet_raise0 (by decide) (by decide) ..))

theorem State.quiet_setObject (c : Nat) (x : ObjectSt) (s : State) : Quiet s (s.setObject c x) := .of_regs rfl rfl rfl rfl

theorem State.quiet_applyObjpar (s : State) : Quiet s s.applyObjpar := by
  unfold State.applyObjpar
  refine .ite (.refl s) ?_
  extract_lets s1 s2 c
  have h1 : Quiet s s1 := (State.quiet_takeGroup ..).trans (State.quiet_endFlight ..)
  have h2 : Quiet s s2 := h1.trans (Quiet.foldl (fun t n => State.quiet_setObject ..) _ s1)
  exact .ite (h2.trans (State.quiet_raise0 (by decide) (by decide) ..)) h2

theorem State.quiet_applyTriggers (s : State) : Quiet s (s.applyGroup 9) :=
  .ite ((State.quiet_applyPlain ..).trans (State.quiet_raiseEach (by decide) (by decide) ..)) (.refl s)

theorem State.quiet_setCh (c : Nat) (x : ReelCh) (s : State) : Quiet s (s.setCh c x) := by
  have hc : Quiet s { s with reel := { s.reel with chans := s.reel.chans.set c x } } := .of_regs rfl rfl rfl rfl
  exact (hc.trans (Quiet.setF_high (a := Reg.REELc_STAT c) (by simp only [Reg.REELc_STAT]; omega) _ 2 0 x.code)).trans
    (Quiet.setBit_high (a := Reg.REEL_BUSY) (by decide) _ c (decide (x.stage ≠ .idle)))

theorem State.quiet_reelFrame (s : State) : Quiet s s.reelFrame := .of_regs rfl rfl rfl rfl

theorem State.quiet_reelWindows (s : State) : Quiet s s.reelWindows := by
  unfold State.reelWindows
  extract_lets bad s1
  have h1 : Quiet s s1 := Quiet.foldl (fun t c => .ite (.ite (State.quiet_setCh ..) (State.quiet_raise (by decide) (by decide) ..)) (.refl t)) _ s
  exact .ite (h1.trans (State.quiet_mismatch ..)) (h1.trans (State.quiet_matched ..))

theorem State.quiet_newTerms (s : State) : Quiet s s.newTerms := .of ⟨rfl, rfl, rfl, rfl⟩ (fun _ _ => rfl) rfl rfl

theorem State.quiet_framePoints (s : State) : Quiet s s.framePoints :=
  (((((s.quiet_checkPlace.trans (State.quiet_applyObjpar _)).trans (State.quiet_applyPlain 8 _)).trans (State.quiet_applyTriggers _)).trans
    (State.quiet_reelFrame _)).trans (State.quiet_reelWindows _)).trans (State.quiet_newTerms _)

/-! The beam starts (R19). -/

/-- What a beam that starts shows at once. -/
structure Started (s t : State) : Prop where
  running : t.running = true
  frame : t.beam.frame = 0
  pos : t.beam.pos = ⟨0, 0, 0⟩
  stopReq : t.beam.stopReq = false
  count : t.snd.k = 0
  pwr : s.pwr.state = 0 → t.pwr = s.pwr
  clock : ∀ a, blockOf a = 1 → t.reg a = s.reg a

/-- The lock state is no bit of RUN. -/
theorem State.running_setLock (s : State) (st : Nat) : (s.setLock st).running = s.running :=
  (State.bit_setBit_ne _ _ _ (by decide)).trans (State.bit_of_reg (State.reg_setF_ne _ (by decide) ..) 0)

theorem State.started (s : State) : Started s s.startBeam := by
  unfold State.startBeam
  extract_lets s1 on b sn q s2 s3
  have h1 : Quiet s s1 := s.quiet_discardFrames
  have h3 : Quiet s3 (s3.enginesStart).framePoints := (State.quiet_enginesStart _).trans (State.quiet_framePoints _)
  have hrun : s3.running = true := (State.running_setLock (s2.setBit Reg.BEAM_CTRL 0 true) _).trans (State.bit_setBit_same _ _ _ (by decide))
  have hclk : ∀ a, blockOf a = 1 → s3.reg a = s1.reg a := fun a ha => by
    have hne : a ≠ Reg.BEAM_LOCKSTAT ∧ a ≠ Reg.BEAM_CTRL := by constructor <;> (rintro rfl; revert ha; decide)
    exact (State.reg_setLock_ne _ hne.1 hne.2).trans (State.reg_setBit_ne _ hne.2 _ _)
  exact ⟨(State.bit_of_reg (h3.steady.regs _ (.inr (.inl rfl))) 0).trans hrun, h3.steady.beam.frame, h3.steady.beam.pos, h3.steady.beam.stopReq,
    congrArg SndSt.k h3.snd, fun h => (h3.pwr ((congrArg PwrSt.state (h1.pwr h)).trans h)).trans (h1.pwr h),
    fun a ha => (h3.steady.regs a (.inl ha)).trans ((hclk a ha).trans (h1.steady.regs a (.inl ha)))⟩

end Sys2Proof.Machine
end

section
/-! The statement on the sleep states, wakes and the uptime. -/

namespace Sys2Proof.Machine

/-! Entry (R406, R407). -/

theorem foldl_min_le (l : List Nat) (t : Nat) : l.foldl min t ≤ t := by
  induction l generalizing t with
  | nil => exact le_rfl
  | cons x l ih => exact (ih _).trans (min_le_left _ _)

/-- State `k` is permitted and fits before the earliest known event. -/
def State.fits (s : State) (t k : Nat) : Bool := decide (k ≤ s.sleepLimit.1) && decide (s.sleepCost k + s.f Reg.CLK_PMGR 27 16 * 100 ≤ s.knownTime t)

theorem State.fits_iff (s : State) (t k : Nat) : s.fits t k = true ↔ k ≤ s.sleepLimit.1 ∧ s.sleepCost k + s.f Reg.CLK_PMGR 27 16 * 100 ≤ s.knownTime t := by
  rw [State.fits, Bool.and_eq_true, decide_eq_true_iff, decide_eq_true_iff]

/-- The chip sleeps in state `k`. -/
def State.asleepIn (s : State) (k : Nat) : State :=
  { s with pwr := { s.pwr with state := k, waking := false, since := s.pwr.uptime },
           pin := { s.pin with asleep := if 3 ≤ k then (List.range 48).map fun n => s.sleepPad n (s.padDrive n) else s.pin.asleep } }

theorem execSleepEntry_eq (t : Nat) {s : State} (h : s.pwr.state = 0 ∧ s.maySleep = true) :
    exec (.sleepEntry t) s = .next (match ([5, 4, 3, 2, 1] : List Nat).find? (s.fits t) with | none => s | some k => s.asleepIn k) := by
  have e : exec (.sleepEntry t) s = (match ([5, 4, 3, 2, 1] : List Nat).find? (s.fits t) with | none => .next s | some k => .next (s.asleepIn k)) := if_pos h
  rw [e]
  cases ([5, 4, 3, 2, 1] : List Nat).find? (s.fits t) <;> rfl

theorem sleepEntry_deepest {t k : Nat} {s : State} (h0 : 1 ≤ k) (h5 : k ≤ 5) (hs : s.pwr.state = 0) (hm : s.maySleep = true) (hk : s.fits t k = true)
    (hd : ∀ j, k < j → j ≤ 5 → s.fits t j = false) : exec (.sleepEntry t) s = .next (s.asleepIn k) := by
  have hf : ([5, 4, 3, 2, 1] : List Nat).find? (s.fits t) = some k := by
    interval_cases k <;> simp [List.find?, hk, hd]
  rw [execSleepEntry_eq t ⟨hs, hm⟩, hf]

theorem State.sleepCost_ge (s : State) {k : Nat} (h : 1 ≤ k) (h5 : k ≤ 5) : 120 ≤ s.sleepCost k := by
  interval_cases k <;> simp only [State.sleepCost] <;> omega

theorem sleepEntry_stays {t : Nat} {s : State} (h : s.pwr.state ≠ 0 ∨ s.maySleep = false ∨ s.knownTime t < 120 + s.f Reg.CLK_PMGR 27 16 * 100) :
    exec (.sleepEntry t) s = .next s := by
  by_cases hc : s.pwr.state = 0 ∧ s.maySleep = true
  · have hlt : s.knownTime t < 120 + s.f Reg.CLK_PMGR 27 16 * 100 := by
      rcases h with h | h | h
      · exact absurd hc.1 h
      · exact absurd hc.2 (by rw [h]; decide)
      · exact h
    have hf : ([5, 4, 3, 2, 1] : List Nat).find? (s.fits t) = none := by
      refine List.find?_eq_none.mpr fun k hk => ?_
      rw [State.fits_iff]
      have := s.sleepCost_ge (k := k) (by simp at hk; omega) (by simp at hk; omega)
      omega
    rw [execSleepEntry_eq t hc, hf]
  · exact if_neg hc

/-! Wakes (R388, R409). -/

theorem State.irq_arriveAt (n : Nat) (s : State) : (s.arriveAt n).irq = s.irq := by
  unfold State.arriveAt
  dsimp only
  split_ifs <;> rfl

theorem State.irq_arriveAwake (n : Nat) (s : State) : (s.arriveAwake n).irq = s.irq := by
  unfold State.arriveAwake
  split
  · exact s.irq_arriveAt n
  · dsimp only
    split_ifs
    · exact s.irq_arriveAt n
    · exact State.irq_arriveAt ..
    · rfl

theorem State.told_arriveAwake (n : Nat) (s : State) : Told s (s.arriveAwake n) := by
  unfold State.arriveAwake
  split
  · exact s.told_arriveAt n
  · dsimp only
    split_ifs
    · exact s.told_arriveAt n
    · exact (Told.setReg ..).trans (((Told.setReg ..).trans (.setReg ..)).trans (State.told_arriveAt ..))
    · exact .setReg ..

/-- `t` is `s` after arrivals alone. -/
structure Arrived (s t : State) : Prop where
  told : Told s t
  pwr : t.pwr = s.pwr
  irq : t.irq = s.irq
  regs : ∀ a, ¬ eventReg a → t.reg a = s.reg a

theorem Arrived.refl (s : State) : Arrived s s := ⟨.refl s, rfl, rfl, fun _ _ => rfl⟩
theorem Arrived.trans {s t u : State} (h : Arrived s t) (k : Arrived t u) : Arrived s u :=
  ⟨h.told.trans k.told, k.pwr.trans h.pwr, k.irq.trans h.irq, fun a ha => (k.regs a ha).trans (h.regs a ha)⟩

theorem State.arrived {n : Nat} (hn : n < 256) (s : State) : Arrived s (s.arriveAwake n) :=
  ⟨s.told_arriveAwake n, s.pwr_arriveAwake n, s.irq_arriveAwake n, (s.arriveAwake_noted hn).regs⟩

theorem Arrived.foldl {α : Type} {f : State → α → Nat} (l : List α) (hf : ∀ t, ∀ x ∈ l, f t x < 256) (s : State) :
    Arrived s (l.foldl (fun t x => t.arriveAwake (f t x)) s) := by
  induction l generalizing s with
  | nil => exact .refl s
  | cons x l ih => exact (State.arrived (hf s x List.mem_cons_self) s).trans (ih (fun t y hy => hf t y (List.mem_cons_of_mem _ hy)) _)

theorem State.arrived_deliverWakes (s : State) : Arrived { s with irq := { s.irq with wakePend := 0 } } s.deliverWakes :=
  Arrived.foldl _ (fun t k _ => fld_lt (t.reg (Reg.IRQ_WAKEk k)) 7 0) _

/-- The manager's registers say what was left, and the state is RUN. -/
def State.woken (s : State) (k : Nat) : State :=
  let t := (s.setReg (Reg.CLK_RESIDs k) (wd (sat (2 ^ 32 - 1) ((s.reg (Reg.CLK_RESIDs k)).toNat + (s.pwr.uptime - s.pwr.since) / 1000)))).setF Reg.CLK_PSTAT 6 4 k
  { t with pwr := { t.pwr with state := 0, waking := false } }

theorem State.woken_spec (s : State) {k : Nat} (hk : k < 8) : (s.woken k).f Reg.CLK_PSTAT 6 4 = k ∧
    ((s.woken k).reg (Reg.CLK_RESIDs k)).toNat = min (2 ^ 32 - 1) ((s.reg (Reg.CLK_RESIDs k)).toNat + (s.pwr.uptime - s.pwr.since) / 1000) ∧
    (∀ a, a ≠ Reg.CLK_RESIDs k → a ≠ Reg.CLK_PSTAT → (s.woken k).reg a = s.reg a) := by
  refine ⟨?_, ?_, fun a h1 h2 => (State.reg_setF_ne _ h2 ..).trans (State.reg_setReg_ne s h1 _)⟩
  · refine (State.f_setF_same _ _ (by decide)).trans ?_
    exact Nat.mod_eq_of_lt hk
  · have e : (s.woken k).reg (Reg.CLK_RESIDs k) = wd (sat (2 ^ 32 - 1) ((s.reg (Reg.CLK_RESIDs k)).toNat + (s.pwr.uptime - s.pwr.since) / 1000)) :=
      (State.reg_setF_ne _ (by simp only [Reg.CLK_RESIDs, Reg.CLK_PSTAT]; omega) ..).trans (State.reg_setReg_same s _ _)
    rw [e, wd, BitVec.toNat_ofNat, sat]
    split <;> omega

/-- The beam that STANDBY stopped starts anew. -/
def State.beamAnew (s : State) (k : Nat) : State := if k = 4 ∧ s.running = true then s.stopBeam.startBeam else s

/-- What fired is delivered, and from NAP up the pads return. -/
def State.wakeEnd (s : State) (k : Nat) : State := if 3 ≤ k then s.deliverWakes.wakePads else s.deliverWakes

theorem execWakeDone_eq {s : State} {k : Nat} (h1 : s.pwr.state = k) (h2 : s.pwr.waking = true) (h0 : k ≠ 0) (h5 : k ≠ 5) :
    exec .wakeDone s = .next (((s.woken k).beamAnew k).wakeEnd k) := by
  subst h1
  exact (if_neg (by simp [h0, h2])).trans (if_neg h5)

theorem State.wakeEnd_spec (s : State) (k : Nat) : (s.wakeEnd k).pwr = s.pwr ∧ (s.wakeEnd k).irq.wakePend = 0 ∧ (∀ a, ¬ eventReg a → (s.wakeEnd k).reg a = s.reg a) ∧
    (s.wakeEnd k).gv = s.gv ∧ (s.wakeEnd k).mem = s.mem ∧ (s.wakeEnd k).beam = s.beam ∧ (s.wakeEnd k).snd = s.snd := by
  have h := s.arrived_deliverWakes
  have hw : (s.deliverWakes).irq.wakePend = 0 := congrArg IrqSt.wakePend h.irq
  unfold State.wakeEnd
  split
  · exact ⟨h.pwr, hw, h.regs, h.told.gv, h.told.mem, h.told.beam, h.told.snd⟩
  · exact ⟨h.pwr, hw, h.regs, h.told.gv, h.told.mem, h.told.beam, h.told.snd⟩

theorem State.reg_stopBeam {a : Nat} (h : blockOf a = 1) (s : State) : s.stopBeam.reg a = s.reg a := by
  have hne : a ≠ Reg.BEAM_LOCKSTAT ∧ a ≠ Reg.BEAM_CTRL := by constructor <;> (rintro rfl; revert h; decide)
  exact (State.reg_setLock_ne _ hne.1 hne.2).trans (State.reg_setBit_ne _ hne.2 _ _)

theorem State.beamAnew_spec (s : State) (k : Nat) : (s.pwr.state = 0 → (s.beamAnew k).pwr = s.pwr) ∧ (∀ a, blockOf a = 1 → (s.beamAnew k).reg a = s.reg a) ∧
    (k < 4 ∨ s.running = false → s.beamAnew k = s) ∧
    (k = 4 → s.running = true → (s.beamAnew k).running = true ∧ (s.beamAnew k).beam.frame = 0 ∧ (s.beamAnew k).beam.pos = ⟨0, 0, 0⟩ ∧ (s.beamAnew k).snd.k = 0) := by
  by_cases hc : k = 4 ∧ s.running = true
  · have h := s.stopBeam.started
    rw [State.beamAnew, if_pos hc]
    refine ⟨fun h0 => h.pwr h0, fun a ha => (h.clock a ha).trans (State.reg_stopBeam ha s), fun hn => ?_, fun _ _ => ⟨h.running, h.frame, h.pos, h.count⟩⟩
    rcases hn with hn | hn
    · omega
    · rw [hc.2] at hn
      cases hn
  · rw [State.beamAnew, if_neg hc]
    exact ⟨fun _ => rfl, fun _ _ => rfl, fun _ => rfl, fun h1 h2 => absurd ⟨h1, h2⟩ hc⟩

theorem blockOf_resid {k : Nat} (hk : k < 8) : blockOf (Reg.CLK_RESIDs k) = 1 := blockOf_eq (by simp only [Reg.CLK_RESIDs]; omega) (by decide)

theorem wakeDone_light {s : State} {k : Nat} (h1 : 1 ≤ k) (h4 : k ≤ 4) (hs : s.pwr.state = k) (hw : s.pwr.waking = true) : Completes .wakeDone s fun t =>
    t.pwr.state = 0 ∧ t.pwr.waking = false ∧ t.f Reg.CLK_PSTAT 6 4 = k ∧ (t.reg (Reg.CLK_RESIDs k)).toNat =
        min (2 ^ 32 - 1) ((s.reg (Reg.CLK_RESIDs k)).toNat + (s.pwr.uptime - s.pwr.since) / 1000) ∧
      t.irq.wakePend = 0 ∧ (k < 4 ∨ s.running = false → t.lock = s.lock ∧ t.gv = s.gv ∧ SameMemory s t) ∧
      (k = 4 → s.running = true → t.running = true ∧ t.beam.frame = 0 ∧ t.beam.pos = ⟨0, 0, 0⟩ ∧ t.snd.k = 0) := by
  obtain ⟨w1, w2, w3⟩ := s.woken_spec (k := k) (by omega)
  obtain ⟨b1, b2, b3, b4⟩ := (s.woken k).beamAnew_spec k
  obtain ⟨e1, e2, e3, e4, e5, e6, e7⟩ := ((s.woken k).beamAnew k).wakeEnd_spec k
  have hclk : ∀ a, blockOf a = 1 → (((s.woken k).beamAnew k).wakeEnd k).reg a = (s.woken k).reg a := fun a ha =>
    (e3 a (by rintro (h | h) <;> omega)).trans (b2 a ha)
  have hkept : ∀ a, blockOf a = 3 → (s.woken k).reg a = s.reg a := fun a ha => by
    have := blockOf_resid (k := k) (by omega)
    refine w3 a ?_ ?_
    · rintro rfl
      omega
    · rintro rfl
      revert ha
      decide
  have hrun : (s.woken k).running = s.running := State.bit_of_reg (hkept _ (by decide)) 0
  have hp : (((s.woken k).beamAnew k).wakeEnd k).pwr = (s.woken k).pwr := e1.trans (b1 rfl)
  refine ⟨_, execWakeDone_eq hs hw (by omega) (by omega), congrArg PwrSt.state hp, congrArg PwrSt.waking hp, ?_, ?_, e2, fun h => ?_, fun h4 hr => ?_⟩
  · exact (State.f_of_reg (hclk _ (by decide)) 6 4).trans w1
  · rw [hclk _ (blockOf_resid (by omega)), w2]
  · have hb := b3 (by rwa [hrun])
    rw [hb] at e3 e4 e5 ⊢
    exact ⟨State.f_of_reg ((e3 _ (by decide)).trans (hkept _ (by decide))) 1 0, e4, State.byte_congr e5⟩
  · obtain ⟨r1, r2, r3, r4⟩ := b4 h4 (hrun.trans hr)
    exact ⟨(State.bit_of_reg (e3 _ (by decide)) 0).trans r1, (congrArg BeamSt.frame e6).trans r2, (congrArg BeamSt.pos e6).trans r3, (congrArg SndSt.k e7).trans r4⟩

/-! Back from DEEP, through a reset (R409). -/

/-- A chip reset leaves CLK_PSTAT, which the always-on domain holds (R411). -/
theorem State.pstat_chipReset (s : State) (cause : Nat) : (s.chipReset cause).reg Reg.CLK_PSTAT = s.reg Reg.CLK_PSTAT := by
  obtain ⟨-, freg, -, -, frun, -⟩ := s.resetFabric_spec
  obtain ⟨mreg, -⟩ := s.resetFabric.resetManagement_spec
  obtain ⟨creg, -⟩ := s.resetFabric.resetManagement.resetCores_spec
  have hd : ¬ dropReg Reg.CLK_PSTAT := by
    unfold dropReg
    decide
  exact (State.reg_setBit_ne _ (by decide) _ _).trans ((creg _ hd (by decide) (by decide)).trans ((mreg _ (by decide) hd (.inr frun)).trans (freg _ (by decide))))

/-- The memories of the cores are zero, and every domain but the always-on one is reset. -/
def State.deepCleared (s : State) : State :=
  (((s.zeroRange 0x20000000 0x20020000).zeroRange 0x21000000 0x21040000).zeroRange 0x100000000 0x400000000).chipReset 4

/-- What the reset does not take: the slots that fired and the pads. -/
def State.deepReset (s : State) : State :=
  let u := (s.deepCleared.setReg Reg.IRQ_WAKESTAT (s.reg Reg.IRQ_WAKESTAT)).setReg Reg.PIN_CTRL 0
  { u with pin := { u.pin with asleep := s.pin.asleep } }

theorem State.deepReset_spec (s : State) : (∀ a, a ≠ Reg.IRQ_WAKESTAT → a ≠ Reg.PIN_CTRL → s.deepReset.reg a = s.deepCleared.reg a) ∧
    s.deepReset.mem = s.deepCleared.mem ∧ s.deepReset.gv = s.deepCleared.gv ∧ s.deepReset.pwr = s.deepCleared.pwr := by
  refine ⟨fun a h1 h2 => ?_, rfl, rfl, rfl⟩
  exact ((State.reg_of_regs rfl a).trans (State.reg_setReg_ne (s.deepCleared.setReg _ _) h2 0)).trans (State.reg_setReg_ne s.deepCleared h1 _)

theorem execWakeDone_deep {s : State} (h1 : s.pwr.state = 5) (h2 : s.pwr.waking = true) : exec .wakeDone s = .next
    (((bitsOf s.irq.wakePend).map fun j => (s.woken 5).f (Reg.IRQ_WAKEk j) 7 0).foldl (fun t n => t.arriveAwake n) (s.woken 5).deepReset) := by
  have e : exec .wakeDone s = .next (((bitsOf s.irq.wakePend).map fun j => (s.woken s.pwr.state).f (Reg.IRQ_WAKEk j) 7 0).foldl (fun t n => t.arriveAwake n)
      (s.woken s.pwr.state).deepReset) := (if_neg (by simp [h1, h2])).trans (if_pos h1)
  rw [e, h1]

theorem wakeDone_deep {s : State} (h1 : s.pwr.state = 5) (h2 : s.pwr.waking = true) : Completes .wakeDone s fun t => t.pwr.state = 0 ∧ t.f Reg.CLK_PSTAT 6 4 = 5 ∧
    t.bit Reg.CLK_RSTCAUSE 4 = true ∧ t.running = false ∧ (t.core 2).run = .run ∧ (t.core 2).pc = 0 ∧ (∀ k, inSram k = true → t.byte k = 0) := by
  have ha := Arrived.foldl (f := fun _ n => n) ((bitsOf s.irq.wakePend).map fun j => (s.woken 5).f (Reg.IRQ_WAKEk j) 7 0) (fun t n hn => by
    obtain ⟨j, -, rfl⟩ := List.mem_map.mp hn
    exact fld_lt _ _ _) (s.woken 5).deepReset
  obtain ⟨hcause, hsram, -, -, hrun, hst, -, -, -, hc2, hpc, -⟩ := ((((s.woken 5).zeroRange 0x20000000 0x20020000).zeroRange 0x21000000 0x21040000).zeroRange
    0x100000000 0x400000000).chipReset_spec (cause := 4) (by decide)
  have hps : (s.woken 5).deepCleared.reg Reg.CLK_PSTAT = (s.woken 5).reg Reg.CLK_PSTAT := State.pstat_chipReset ..
  obtain ⟨w1, -⟩ := s.woken_spec (k := 5) (by decide)
  obtain ⟨dreg, dmem, dgv, dpwr⟩ := (s.woken 5).deepReset_spec
  have hgv := ha.told.gv.trans dgv
  have hreg : ∀ a, ¬ eventReg a → a ≠ Reg.PIN_CTRL → _ = (s.woken 5).deepCleared.reg a := fun a h1 h2 =>
    (ha.regs a h1).trans (dreg a (by rintro rfl; exact h1 (by decide)) h2)
  refine ⟨_, execWakeDone_deep h1 h2, (congrArg PwrSt.state (ha.pwr.trans dpwr)).trans hst, (State.f_of_reg ((hreg _ (by decide) (by decide)).trans hps) 6 4).trans w1,
    (State.bit_of_reg (hreg _ (by decide) (by decide)) 4).trans hcause, (State.bit_of_reg (hreg _ (by decide) (by decide)) 0).trans hrun, ?_, ?_, fun k hk => ?_⟩
  · exact (congrArg (fun g : GvSt => g.al.run) hgv).trans hc2
  · exact (congrArg (fun g : GvSt => g.al.pc) hgv).trans hpc
  · exact (State.byte_congr (ha.told.mem.trans dmem) k).trans (hsram k hk)

/-! The WAKE pin and the uptime (R404, R488). -/

theorem wakePin_asleep {s : State} (h : s.pwr.state ≠ 0) : Completes .wakePin s fun t => t.pwr.state = s.pwr.state ∧ t.pwr.waking = true ∧ SameMemory s t := by
  have ht := s.told_arrive 192
  have hst : (s.arrive 192).pwr.state = s.pwr.state := by
    obtain ⟨_, _, _, _, e⟩ := ht
    rw [e]
  exact ⟨_, congrArg Host.Outcome.next (if_neg (by rw [hst]; exact h)), hst, rfl, State.byte_congr ht.mem⟩

theorem wakePin_awake {s : State} (h : s.pwr.state = 0) (hc : s.coalOf 192 = none) (hf : s.bit (Reg.IRQ_SRCs 192) 6 = true) : Completes .wakePin s fun t =>
    t.bit (Reg.IRQ_SRCs 192) 16 = true ∧ t.pwr = s.pwr ∧ SameRegsBut (fun a => a = Reg.IRQ_SRCs 192) s t ∧ SameMemory s t := by
  have e : s.arrive 192 = s.setBit (Reg.IRQ_SRCs 192) 16 true := by
    simp only [State.arrive, h, if_true, State.arriveAwake, hc, State.arriveAt, hf]
  refine ⟨_, congrArg Host.Outcome.next (if_pos ?_), ?_⟩
  · rw [e]
    exact h
  · rw [e]
    exact ⟨State.bit_setBit_same _ _ _ (by decide), rfl, fun a hne => State.reg_setBit_ne s hne _ _, fun _ => rfl⟩

theorem clkUploRead_latches {m : Acc} {s : State} (hm : m.debug = false) : Completes (.clkUploRead m) s fun t => t.answer = ⟨0, wd s.pwr.uptime⟩ ∧
    t.reg Reg.CLK_UPHI = wd (s.pwr.uptime / 2 ^ 32) ∧ SameRegsBut (fun a => a = Reg.CLK_UPHI) s t ∧ SameMemory s t := by
  have hp : regProt m Reg.CLK_UPLO false 0 = false := by
    show (!m.alle && false) = false
    exact Bool.and_false _
  refine ⟨_, congrArg Host.Outcome.next (State.askRead_word hm (s.targetOff_clk (a := Reg.CLK_UPLO) (by decide) (by decide)) (by decide) hp rfl), rfl,
    State.reg_setReg_same s Reg.CLK_UPHI _, fun a hne => State.reg_setReg_ne s hne _, fun _ => rfl⟩

/-- Settles O40, from the deepest state that fits, what each wake does, and the uptime's latch. -/
theorem sleepStates : Obligations.SleepStates := by
  unfold Obligations.SleepStates
  intro m s
  refine ⟨fun k t h0 h5 hs hm hk hc hd => ⟨_, sleepEntry_deepest h0 h5 hs hm ((s.fits_iff t k).mpr ⟨hk, hc⟩) fun j hj hj5 => ?_, rfl, rfl, rfl, rfl, rfl, fun _ => rfl⟩,
    fun t => sleepEntry_stays, fun t => foldl_min_le .., fun h => if_pos (.inr h), fun h => ⟨if_pos h, if_pos (.inl h)⟩, fun h => ⟨_, if_neg h, rfl, rfl, fun _ => rfl⟩,
    fun k h1 h4 hs hw => wakeDone_light h1 h4 hs hw, wakeDone_deep, wakePin_asleep, wakePin_awake, clkUploRead_latches⟩
  rw [Bool.eq_false_iff, ne_eq, State.fits_iff]
  rcases hd j hj hj5 with h | h <;> omega

end Sys2Proof.Machine
end

section
/-! The statement on starting, stopping and reading the beam. -/

namespace Sys2Proof.Machine

/-- BEAM_CTRL's row: RUN is written as it comes, SUBFM1 goes to the shadow (R19, R523). -/
def beamCtrlRow : RegRow := ⟨0x40030000, 1, 4, 1, 4, 1, 4, 0x0#32, 0, 0x7#32, 0x0#32, 0x0#32, 0x0#32, 0x6#32, .struct⟩

/-- What a write of BEAM_CTRL changes before RUN is looked at. -/
structure CtrlWritten (v : Word) (s t : State) : Prop where
  reg : t.reg Reg.BEAM_CTRL = coded beamCtrlRow (s.reg Reg.BEAM_CTRL) (putBit v 0 s.running)
  regs : ∀ a, a ≠ Reg.BEAM_CTRL → a ≠ Reg.IMG_STATE → t.reg a = s.reg a
  beam : t.beam = s.beam

theorem State.unverify_spec (s : State) : (∀ a, a ≠ Reg.IMG_STATE → s.unverify.reg a = s.reg a) ∧ s.unverify.beam = s.beam := by
  unfold State.unverify
  dsimp only
  split
  · exact ⟨fun a h => (State.reg_setF_ne _ h ..).trans (State.reg_setBit_ne s h ..), rfl⟩
  · exact ⟨fun a h => State.reg_setBit_ne s h .., rfl⟩

theorem State.ctrlWritten (v : Word) (s : State) : CtrlWritten v s (s.writeCoded Reg.BEAM_CTRL (putBit v 0 s.running)) := by
  have hf : RegMap.find Reg.BEAM_CTRL = some (beamCtrlRow, 0) := rfl
  have h1 : ∀ sh, CtrlWritten v s ((s.setReg Reg.BEAM_CTRL (coded beamCtrlRow (s.reg Reg.BEAM_CTRL) (putBit v 0 s.running))).setShd Reg.BEAM_CTRL sh) := fun sh =>
    ⟨State.reg_setReg_same s _ _, fun a h _ => State.reg_setReg_ne s h _, rfl⟩
  unfold State.writeCoded
  simp only [hf]
  rw [if_neg (by decide)]
  split
  case isFalse => exact h1 _
  have h2 := h1 ((s.shd Reg.BEAM_CTRL &&& ~~~beamCtrlRow.shm) ||| (putBit v 0 s.running &&& beamCtrlRow.shm))
  obtain ⟨u1, u2⟩ := State.unverify_spec ((s.setReg Reg.BEAM_CTRL (coded beamCtrlRow (s.reg Reg.BEAM_CTRL) (putBit v 0 s.running))).setShd Reg.BEAM_CTRL
    ((s.shd Reg.BEAM_CTRL &&& ~~~beamCtrlRow.shm) ||| (putBit v 0 s.running &&& beamCtrlRow.shm)))
  exact ⟨(u1 _ (by decide)).trans h2.reg, fun a ha hi => (u1 a hi).trans (h2.regs a ha hi), u2.trans h2.beam⟩

/-- A bit that no write of the row changes. -/
theorem bitAt_coded_keep {r : RegRow} {j : Nat} (hrw : bitAt (r.rw &&& ~~~r.shm) j = false) (hc : bitAt r.w1c j = false) (hs : bitAt r.w1s j = false) (old v : Word) :
    bitAt (coded r old v) j = bitAt old j := by
  unfold bitAt at hrw hc hs ⊢
  rw [coded, BitVec.getLsbD_or, BitVec.getLsbD_and, BitVec.getLsbD_or, BitVec.getLsbD_and, BitVec.getLsbD_and (x := v), hrw, BitVec.getLsbD_not, hrw, BitVec.getLsbD_and,
    hs, BitVec.getLsbD_not, BitVec.getLsbD_and, hc]
  by_cases hj : j < 32
  · simp [hj]
  · simp [BitVec.getLsbD_of_ge _ j (by omega : 32 ≤ j)]

section
variable {v : Word} {s t : State} (h : CtrlWritten v s t)
include h

theorem CtrlWritten.running : t.running = s.running := by
  rw [State.running, State.bit, h.reg, bitAt_coded_rw (by decide)]
  exact bitAt_putBit_same v 0 _ (by decide)

theorem CtrlWritten.subfm1 : t.subfm1 = s.subfm1 := by
  refine Nat.eq_of_testBit_eq fun i => ?_
  rw [State.subfm1, State.f, h.reg, State.subfm1, State.f, testBit_fld, testBit_fld]
  by_cases hi : i < 2
  · have hk : bitAt (coded beamCtrlRow (s.reg Reg.BEAM_CTRL) (putBit v 0 s.running)) (1 + i) = bitAt (s.reg Reg.BEAM_CTRL) (1 + i) := by
      refine bitAt_coded_keep ?_ ?_ ?_ .. <;> (interval_cases i <;> decide)
    unfold bitAt at hk
    rw [hk]
  · simp [hi]

theorem CtrlWritten.tableOk : t.tableOk = s.tableOk := by
  have hr : ∀ a hi lo, a ≠ Reg.BEAM_CTRL → a ≠ Reg.IMG_STATE → t.f a hi lo = s.f a hi lo := fun a hi lo h1 h2 => State.f_of_reg (h.regs a h1 h2) hi lo
  have e1 : t.reg Reg.BEAM_DEADLINE = s.reg Reg.BEAM_DEADLINE := h.regs _ (by decide) (by decide)
  have e2 : t.reg Reg.BEAM_CMARK = s.reg Reg.BEAM_CMARK := h.regs _ (by decide) (by decide)
  have hl : t.lines = s.lines := hr _ _ _ (by decide) (by decide)
  have ht : t.total = s.total := hr _ _ _ (by decide) (by decide)
  have hd : t.dots = s.dots := hr _ _ _ (by decide) (by decide)
  unfold State.tableOk State.geometryOk
  dsimp only
  rw [hl, ht, hd, h.subfm1, e1, e2, hr Reg.BEAM_RATENUM _ _ (by decide) (by decide), hr Reg.BEAM_RATEDEN _ _ (by decide) (by decide),
    hr Reg.BEAM_SWAPSTART _ _ (by decide) (by decide)]

end

/-! Writes of BEAM_CTRL (R19). -/

section
variable {v : Word} {s : State}

theorem State.beamCtrl_starts (hv : bitAt v 0 = true) (hr : s.running = false) (hk : s.tableOk = true) : ∃ u : State, s.beamCtrl v = u.startBeam := by
  have h := s.ctrlWritten v
  exact ⟨_, (if_pos hv).trans ((if_neg (by rw [h.running, hr]; decide)).trans (if_pos (h.tableOk.trans hk)))⟩

theorem State.beamCtrl_refused (hv : bitAt v 0 = true) (hr : s.running = false) (hk : s.tableOk = false) :
    (s.beamCtrl v).running = false ∧ (s.beamCtrl v).bit Reg.BEAM_STAT 0 = true ∧ (s.beamCtrl v).beam = s.beam := by
  have h := s.ctrlWritten v
  have e : s.beamCtrl v = (s.writeCoded Reg.BEAM_CTRL (putBit v 0 s.running)).raise0 stBEAM 0 :=
    (if_pos hv).trans ((if_neg (by rw [h.running, hr]; decide)).trans (if_neg (by rw [h.tableOk, hk]; decide)))
  rw [e]
  exact ⟨(State.bit_raise0_reg_ne _ 0 0 (by decide) (by decide) (by decide)).trans (h.running.trans hr), State.bit_raise0_same (r := stBEAM) _ (by decide) (by decide) (by decide),
    (State.told_raise0 ..).beam.trans h.beam⟩

theorem State.beamCtrl_running (hr : s.running = true) : (s.beamCtrl v).running = true ∧ (s.beamCtrl v).beam = { s.beam with stopReq := !bitAt v 0 } := by
  have h := s.ctrlWritten v
  have hr' : (s.writeCoded Reg.BEAM_CTRL (putBit v 0 s.running)).running = true := h.running.trans hr
  cases hv : bitAt v 0
  · have e : s.beamCtrl v = { s.writeCoded Reg.BEAM_CTRL (putBit v 0 s.running) with
        beam := { (s.writeCoded Reg.BEAM_CTRL (putBit v 0 s.running)).beam with stopReq := true } } := (if_neg (by rw [hv]; decide)).trans (if_pos hr')
    rw [e, h.beam]
    exact ⟨hr', rfl⟩
  · have e : s.beamCtrl v = { s.writeCoded Reg.BEAM_CTRL (putBit v 0 s.running) with
        beam := { (s.writeCoded Reg.BEAM_CTRL (putBit v 0 s.running)).beam with stopReq := false } } := (if_pos hv).trans (if_pos hr')
    rw [e, h.beam]
    exact ⟨hr', rfl⟩

theorem State.beamCtrl_idle (hv : bitAt v 0 = false) (hr : s.running = false) : (s.beamCtrl v).running = false ∧ (s.beamCtrl v).beam = s.beam := by
  have h := s.ctrlWritten v
  have e : s.beamCtrl v = s.writeCoded Reg.BEAM_CTRL (putBit v 0 s.running) := (if_neg (by rw [hv]; decide)).trans (if_neg (by rw [h.running, hr]; decide))
  rw [e]
  exact ⟨h.running.trans hr, h.beam⟩

end

theorem bitAt_runWord (k : Nat) : bitAt (wd (1 + 2 * (k % 4))) 0 = true ∧ bitAt (wd (2 * (k % 4))) 0 = false := by
  have h : ∀ j : Fin 4, bitAt (wd (1 + 2 * j.val)) 0 = true ∧ bitAt (wd (2 * j.val)) 0 = false := by decide
  exact h ⟨k % 4, Nat.mod_lt _ (by decide)⟩

theorem execBeamCtrl_eq {m : Acc} {s : State} (v : Word) (hm : m.debug = false) (hoff : s.targetOff Reg.BEAM_CTRL = false) :
    s.askWrite m Reg.BEAM_CTRL v = (s.beamCtrl v).reply 0 0 := State.askWrite_word (.inl hm) hoff (by decide) rfl

theorem beamPosRead_debug {m : Acc} {s : State} (hoff : s.targetOff Reg.BEAM_POS = false) (hm : m.debug = true) (hl : s.sec.level ≠ 0) :
    exec (.beamPosRead m) s = .next (s.reply 0 (posWord s.beam.pos)) := by
  have hd : s.debugAllows Reg.BEAM_POS false = true := by
    have e : s.debugAllows Reg.BEAM_POS false = (match s.sec.level with | 0 => false | 1 => true | _ => true) := rfl
    rw [e]
    split
    · exact absurd ‹_› hl
    · rfl
    · rfl
  refine congrArg Host.Outcome.next (State.askRead_of_regRead (.inr hd) hoff (by decide) rfl ?_)
  rw [State.regRead, hm]
  rfl

/-- Settles O1, from what a write of BEAM_CTRL does in each state of the beam. -/
theorem beamControl : Obligations.BeamControl := by
  unfold Obligations.BeamControl
  refine ⟨fun m k s hm hoff => ?_, fun m s hoff => ⟨fun hm => ?_, fun hm hl => ⟨_, beamPosRead_debug hoff hm hl, rfl, rfl, fun _ _ => rfl, fun _ => rfl⟩⟩,
    fun m s hm h1 h2 c k hc => ?_⟩
  · obtain ⟨b1, b0⟩ := bitAt_runWord k
    have hrun : exec (.beamRun m k) s = _ := congrArg Host.Outcome.next (execBeamCtrl_eq (wd (1 + 2 * (k % 4))) hm hoff)
    have hstop : exec (.beamStopRequest m k) s = _ := congrArg Host.Outcome.next (execBeamCtrl_eq (wd (2 * (k % 4))) hm hoff)
    refine ⟨fun hr hk => ?_, fun hr hk => ⟨_, hrun, State.beamCtrl_refused b1 hr hk⟩, fun hr => ?_, fun hr => ?_, fun hr => ⟨_, hstop, State.beamCtrl_idle b0 hr⟩⟩
    · obtain ⟨u, e⟩ := State.beamCtrl_starts b1 hr hk
      have h := u.started
      exact ⟨u.startBeam.reply 0 0, hrun.trans (by rw [e]), h.running, h.pos, h.frame, h.count, h.stopReq⟩
    · obtain ⟨r1, r2⟩ := State.beamCtrl_running (v := wd (1 + 2 * (k % 4))) hr
      exact ⟨_, hrun, r1, r2.trans (by rw [b1]; rfl)⟩
    · obtain ⟨r1, r2⟩ := State.beamCtrl_running (v := wd (2 * (k % 4))) hr
      exact ⟨_, hstop, r1, r2.trans (by rw [b0]; rfl)⟩
  · refine ⟨_, congrArg Host.Outcome.next (State.askRead_word hm hoff (by decide) rfl rfl), rfl, ?_, State.reg_setReg_same .., rfl, fun a hne => ?_, fun _ => rfl⟩
    · exact (State.reg_setReg_ne (s.setReg Reg.BEAM_FRAMELO _) (by decide) _).trans (State.reg_setReg_same s _ _)
    · obtain ⟨n1, n2⟩ := not_or.mp hne
      exact (State.reg_setReg_ne (s.setReg Reg.BEAM_FRAMELO _) n2 _).trans (State.reg_setReg_ne s n1 _)
  · rcases hc with rfl | rfl | rfl
    · have h := State.askWrite_unpowered (wd (1 + 2 * (k % 4))) hm h1
      exact ⟨_, rfl, h.answer, h.beam, h.byte⟩
    · have h := State.askWrite_unpowered (wd (2 * (k % 4))) hm h1
      exact ⟨_, rfl, h.answer, h.beam, h.byte⟩
    · have h := State.askRead_unpowered hm h2
      exact ⟨_, rfl, h.answer, h.beam, h.byte⟩

end Sys2Proof.Machine
end

section
/-! The statement on what 0:0 of a sub-frame does to the beam. -/

namespace Sys2Proof.Machine

/-! The sounds adopt (R424). -/

theorem State.beam_settleNodes (p : ZcPend → Bool) (s : State) : (s.settleNodes p).beam = s.beam := by
  unfold State.settleNodes
  generalize s.snd.zc.partition p = l
  obtain ⟨now, later⟩ := l
  exact foldl_keeps State.beam (fun _ _ => by rfl) now s

theorem State.beam_sndRestart (s : State) : s.sndRestart.beam = s.beam := by
  unfold State.sndRestart
  extract_lets s1 s2 s3 k
  have h1 : s1.beam = s.beam := foldl_keeps State.beam (fun _ _ => by rfl) _ s
  have h3 : s3.beam = s2.beam := foldl_keeps State.beam (fun _ _ => by rfl) _ s2
  exact h3.trans ((State.beam_settleNodes ..).trans h1)

theorem State.beam_unlock (c : Nat) (s : State) : (s.unlock c).beam = s.beam := by
  unfold State.unlock
  split
  · refine (State.told_raise0 stSND 7 (s.setConv c false)).beam.trans ?_
    unfold State.setConv
    split <;> rfl
  · rfl

theorem State.beam_adopt (p : Nat → Bool) (s : State) : (s.adopt p).beam = s.beam := by
  obtain ⟨-, regs, img, e⟩ := s.adopt_spec p
  rw [e]

theorem State.beam_raiseEach (r : StatReg) (bit n : Nat) (s : State) : (s.raiseEach r bit n).beam = s.beam :=
  foldl_keeps State.beam (fun _ _ => (State.told_raise0 ..).beam) _ s

theorem State.beam_showTdm (old s : State) : (State.showTdm old s).beam = s.beam := by
  refine foldl_keeps State.beam (fun t n => ?_) _ s
  split <;> rfl

theorem State.beam_adoptSound (s : State) : s.adoptSound.beam = s.beam := by
  unfold State.adoptSound
  split
  · rfl
  · extract_lets t t1 rate t2 bad t3
    have h1 : t1.beam = t.beam := by
      unfold t1
      split
      · rfl
      · exact State.beam_settleNodes ..
    have h2 : t2.beam = t1.beam := by
      unfold t2
      split
      · exact State.beam_sndRestart ..
      · rfl
    refine (State.beam_showTdm ..).trans ((foldl_keeps State.beam (fun u c => ?_) _ t3).trans ((State.beam_raiseEach ..).trans (h2.trans (h1.trans (State.beam_adopt ..)))))
    split
    · rfl
    · exact State.beam_unlock ..

theorem State.beam_adoptRest (s : State) : s.adoptRest.beam = s.beam := by
  have h := s.beam_adopt atFrameZero
  unfold State.adoptRest
  dsimp only
  split
  · exact h
  · exact h

/-! The vote opens (R62). -/

/-- What the beam counts for the wall is as it was. -/
theorem State.announceReady_spec (s : State) : BeamKept s s.announceReady ∧ s.announceReady.beam.counted = s.beam.counted := by
  have hcast : BeamKept s (s.castVote true) ∧ (s.castVote true).beam.counted = s.beam.counted := by
    unfold State.castVote
    split
    · split
      · exact ⟨⟨rfl, rfl, rfl, rfl⟩, rfl⟩
      · exact ⟨.refl s, rfl⟩
    · exact ⟨.refl s, rfl⟩
  unfold State.announceReady
  split
  · exact ⟨.refl s, rfl⟩
  · split
    · exact ⟨.refl s, rfl⟩
    · extract_lets s1
      split
      · obtain ⟨_, _, _, _, _, _, _, _, _, _, e⟩ := (State.linked_put (ringHop (s1.f Reg.BEAM_PAIR 18 18)) false
          (({ s1 with beam := { s1.beam with ownPos := some s1.beam.pos } } : State).newFrame 0 5 3 0 (pairReadyBytes s1.beam.frame s1.beam.pos))
          ({ s1 with beam := { s1.beam with ownPos := some s1.beam.pos } } : State)).state
        rw [State.sendRecord, e]
        exact ⟨hcast.1.trans ⟨rfl, rfl, rfl, rfl⟩, hcast.2⟩
      · exact hcast

theorem State.openVote_spec (s : State) : BeamKept s s.openVote ∧ s.openVote.beam.counted = 0 := by
  obtain ⟨h1, h2⟩ := s.clearVote.announceReady_spec
  exact ⟨BeamKept.trans (t := s.clearVote) ⟨rfl, rfl, rfl, rfl⟩ h1, h2⟩

/-! The boundary itself (R19, R20, R425). -/

theorem State.stopBeam_spec (s : State) : s.stopBeam.running = false ∧ s.stopBeam.lock = 0 := by
  refine ⟨(State.running_setLock (s.setBit Reg.BEAM_CTRL 0 false) 0).trans (State.bit_setBit_same _ _ _ (by decide)), State.lock_setLock ..⟩

/-- The work of a frame that starts with the beam where it is. -/
def State.frameOn (s : State) : State :=
  let s1 := { s with beam := { s.beam with pos := ⟨0, 0, 0⟩, dotAcc := 0, frame := (s.beam.frame + 1) % 2 ^ 64 } }
  let s2 := (s1.adoptRest).adoptSound
  let s3 := if s2.img.staged.any fun e => isSlotReg e.1 then { s2 with img := { s2.img with slotDue := true } } else s2
  (s3.framePoints).openVote

theorem State.frameOn_spec (s : State) : s.frameOn.beam.frame = (s.beam.frame + 1) % 2 ^ 64 ∧ s.frameOn.beam.pos = ⟨0, 0, 0⟩ ∧ s.frameOn.beam.counted = 0 := by
  unfold State.frameOn
  extract_lets b s1 s2 g s3
  have h2 : s2.beam = s1.beam := (State.beam_adoptSound _).trans (State.beam_adoptRest _)
  have h3 : s3.beam = s1.beam := by
    unfold s3
    split
    · exact h2
    · exact h2
  have hq := (State.quiet_framePoints s3).steady.beam
  obtain ⟨hv, hc⟩ := s3.framePoints.openVote_spec
  exact ⟨hv.frame.trans (hq.frame.trans (congrArg BeamSt.frame h3)), hv.pos.trans (hq.pos.trans (congrArg BeamSt.pos h3)), hc⟩

section
variable {s : State} (hz : s.frozen = false) (hr : s.running = true)
include hz hr

theorem execFrameStart_zero : exec (.frameStart 0) s =
    if s.beam.stopReq then .next s.stopBeam else if s.img.restart then .next s.restartBeam else .next s.frameOn :=
  (if_neg (by rw [hz]; decide)).trans ((if_neg (by rw [hr]; simp)).trans (if_neg (by decide)))

theorem execFrameStart_later {sf : Fin 4} (h0 : sf.val ≠ 0) (h : sf.val ≤ s.subfm1) : exec (.frameStart sf) s = .next (((s.beamAt ⟨sf.val, 0, 0⟩).reelWindows).openVote) :=
  (if_neg (by rw [hz]; decide)).trans ((if_neg (by rw [hr]; simpa using h)).trans (if_pos h0))

end

theorem State.frame_beamAt (p : BPos) (s : State) : (s.beamAt p).beam.frame = s.beam.frame := by
  unfold State.beamAt
  split <;> rfl

/-- Settles O2, from what stops, starts and goes on at 0:0. -/
theorem frameBoundary : Obligations.FrameBoundary := by
  unfold Obligations.FrameBoundary
  intro s hz hr
  refine ⟨fun hs => ⟨_, (if_neg (by rw [hz]; decide)).trans (if_pos (by rw [hr, hs]; rfl)), s.stopBeam_spec⟩,
    fun hs => ⟨_, (execFrameStart_zero hz hr).trans (if_pos hs), s.stopBeam_spec⟩, fun hs hre => ?_, fun hs hre => ?_, fun sf h0 hsf => ?_⟩
  · have h := s.stepHold.adoptRest.stopBeam.started
    exact ⟨_, (execFrameStart_zero hz hr).trans ((if_neg (by rw [hs]; decide)).trans (if_pos hre)), h.running, h.frame, h.pos, rfl⟩
  · exact ⟨_, (execFrameStart_zero hz hr).trans ((if_neg (by rw [hs]; decide)).trans (if_neg (by rw [hre]; decide))), s.frameOn_spec⟩
  · obtain ⟨hv, -⟩ := (s.beamAt ⟨sf.val, 0, 0⟩).reelWindows.openVote_spec
    exact ⟨_, execFrameStart_later hz hr h0 hsf, hv.frame.trans ((State.quiet_reelWindows _).steady.beam.frame.trans (State.frame_beamAt ..))⟩

end Sys2Proof.Machine
end

section
/-! The statement on beam steps and the studio's frame sync. -/

namespace Sys2Proof.Machine

/-! A frame that is held leaves the beam where it is (R55, R150). -/

theorem Checked.steady {s t : State} (h : Checked s t) : Steady s t := by
  have hb : t.beam = s.beam := by
    obtain ⟨_, _, _, _, _, _, _, e⟩ := h.state
    rw [e]
  exact ⟨.of_beam hb, fun a ha => h.regs a ha.not_event (by have := ha.lt; unfold mrcReg; omega)⟩

theorem Linked.steady {s t : State} (h : Linked s t) : Steady s t := by
  refine ⟨?_, fun a ha => h.regs a ha.not_event ?_⟩
  · obtain ⟨_, _, _, _, _, _, _, _, _, _, e⟩ := h.state
    rw [e]
    exact ⟨rfl, rfl, rfl, rfl⟩
  · rcases ha with ha | rfl | rfl
    · rintro (k | k) <;> omega
    · decide
    · decide

theorem Steady.foldl {α : Type} {f : State → α → State} (hf : ∀ t x, Steady t (f t x)) (l : List α) (s : State) : Steady s (l.foldl f s) := by
  induction l generalizing s with
  | nil => exact .refl s
  | cons x xs ih => exact (hf s x).trans (ih _)

theorem Steady.ite {p : Prop} [Decidable p] {s t u : State} (h : Steady s t) (k : Steady s u) : Steady s (if p then t else u) := by
  split
  · exact h
  · exact k

/-- A read of bytes is a read of its words. -/
theorem State.checked_sramReadBytes (port a n : Nat) (s : State) : Checked s (s.sramReadBytes port a n).2.2 := by
  unfold State.sramReadBytes
  generalize pieces a n = l
  suffices h : ∀ acc : Nat × List Byte × State, Checked s acc.2.2 → Checked s (l.foldl (fun (acc : Nat × List Byte × State) p =>
      let (c, bs, t) := acc
      let (c1, v, t1) := t.sramRead port p.1
      (if c = 0 then c1 else c, bs ++ leBytes p.2.2 (v / 256 ^ p.2.1), t1)) acc).2.2 from h (0, [], s) (.refl s)
  induction l with
  | nil => exact fun acc h => h
  | cons i l ih => exact fun acc h => ih _ (h.trans (State.checked_sramRead ..))

theorem State.steady_ringPixels (q : QFrame) (l : QLine) (s : State) : Steady s (s.ringPixels q l).2.2 := (State.checked_sramReadBytes ..).steady

theorem State.steady_injectOn (x : Nat) (f : Frame) (s : State) : Steady s (s.injectOn x f) := by
  unfold State.injectOn
  extract_lets g s1
  have h1 : Linked s s1 := .of_link s _ s.out s.fresh
  exact .ite (h1.trans (State.linked_put ..)).steady h1.steady

theorem State.steady_monDrop (n : Nat) (s : State) : Steady s (s.monDrop n) :=
  ((Quiet.setReg_high (by decide) ..).trans (State.quiet_raise0 (by decide) (by decide) ..)).steady

theorem Steady.setQdl (s : State) (x : QdlSt) : Steady s { s with qdl := x } := ⟨⟨rfl, rfl, rfl, rfl⟩, fun _ _ => rfl⟩
theorem Steady.setPnl (s : State) (x : PnlSt) : Steady s { s with pnl := x } := ⟨⟨rfl, rfl, rfl, rfl⟩, fun _ _ => rfl⟩

theorem State.steady_mapLines (f : QLine → QLine) (s : State) : Steady s (s.mapLines f) := .setQdl ..

theorem State.steady_monSend (q : QFrame) (ls : List QLine) (s : State) : Steady s (s.monSend q ls) := by
  have hfold : ∀ (l : List QLine) (acc : Bool × List (List Byte) × State), Steady s acc.2.2 → Steady s
      (l.foldl (fun (acc : Bool × List (List Byte) × State) l =>
        let (c, bs, t) := acc.2.2.ringPixels q l
        (acc.1 && c, acc.2.1 ++ [bs], t)) acc).2.2 := by
    intro l
    induction l with
    | nil => exact fun _ h => h
    | cons x l ih => exact fun acc h => ih _ (h.trans (State.steady_ringPixels ..))
  have h1 := hfold ls (true, [], s) (.refl s)
  unfold State.monSend
  extract_lets w scale y
  revert h1
  generalize ls.foldl _ (true, [], s) = r
  obtain ⟨ok, rows, s1⟩ := r
  intro h1
  dsimp -zeta only
  extract_lets px data f s2
  have h2 : Steady s s2 := h1.trans (State.steady_mapLines ..)
  exact .ite (h2.trans (State.steady_injectOn ..)) (h2.trans (State.steady_monDrop ..))

theorem State.steady_monPump (q : QFrame) (s : State) : Steady s (s.monPump q) := by
  unfold State.monPump
  extract_lets mine
  refine .ite (State.steady_mapLines ..) (.ite (.foldl (fun t j => ?_) ..) (.foldl (fun t l => ?_) ..))
  · exact .ite (State.steady_monSend ..) (.refl t)
  · exact .ite (State.steady_monSend ..) (.refl t)

theorem State.steady_monEnd (q : QFrame) (held : Bool) (s : State) : Steady s (s.monEnd q held) := .ite (State.steady_injectOn ..) (.refl s)

theorem State.steady_skipFrame (q : QFrame) (s : State) : Steady s (s.skipFrame q) :=
  .ite (.setQdl ..) (.refl s)

theorem State.steady_holdFrame (q : QFrame) (cause : Nat × Nat × Nat) (s : State) : Steady s (s.holdFrame q cause) := by
  unfold State.holdFrame
  extract_lets h s1 s2 blank pnl s3 lost s4
  have h1 : Steady s s1 := (State.steady_monPump ..).trans ((State.quiet_recordAll ..).trans (.count_high (by decide) ..)).steady
  have h2 : Steady s s2 := h1.trans ((Quiet.setReg_high (by decide) ..).trans (State.quiet_raise0 (by decide) (by decide) ..)).steady
  have h3 : Steady s s3 := h2.trans (.ite (.setPnl ..) (.refl s2))
  have h4 : Steady s s4 := h3.trans (.ite (.refl s3) (State.steady_monDrop ..))
  exact (((h4.trans (State.steady_monEnd ..)).trans (State.steady_skipFrame ..)).trans (State.quiet_endFrame ..).steady).trans (State.quiet_panelFrameEnd _).steady

theorem State.steady_stepHold (s : State) : Steady s s.stepHold := by
  unfold State.stepHold
  split
  · exact State.steady_holdFrame ..
  · exact .refl s

/-! Frame sync (R58). -/

theorem State.fsync_raise0 (r : StatReg) (bit : Nat) (s : State) : (s.raise0 r bit).mnt = s.mnt := by simp

/-- An edge that is taken or refused is no edge of the input pin. -/
theorem State.fsync_fsyncAlign (r : Bool) (own : Nat) (rate : Int) (s : State) : (s.fsyncAlign r own rate).mnt.fsync = s.mnt.fsync := by
  unfold State.fsyncAlign
  split
  · dsimp only
    split
    · simp
    · exact (State.takeReference_keeps ..).2.2
  · rfl

/-- An event source sets the engines' copies of it, and nothing else. -/
theorem State.fireEvent_spec (code : Nat) (s : State) : ∃ l, s.fireEvent code = { s with mnt := { s.mnt with engines := l } } := by
  unfold State.fireEvent
  generalize List.range 8 = ks
  suffices h : ∀ t : State, (∃ l, t = { s with mnt := { s.mnt with engines := l } }) → ∃ l, ks.foldl (fun t k =>
      if t.f (Reg.MNT_EVTSRCx (k / 4)) (8 * (k % 4) + 7) (8 * (k % 4)) = code then
        { t with mnt := { t.mnt with engines := t.mnt.engines.map fun x => { x with evts := putBit x.evts k true } } }
      else t) t = { s with mnt := { s.mnt with engines := l } } from h s ⟨s.mnt.engines, rfl⟩
  induction ks with
  | nil => exact fun t h => h
  | cons k ks ih =>
    rintro t ⟨l, rfl⟩
    refine ih _ ?_
    dsimp only
    split
    · exact ⟨_, rfl⟩
    · exact ⟨l, rfl⟩

/-- The state in which an edge at the pin aligns the head. -/
def State.afterEdge (r : Bool) (s : State) : State :=
  if s.fsyncSelected r then ({ s with mnt := { s.mnt with fsync := r } } : State).fireEvent 27 else { s with mnt := { s.mnt with fsync := r } }

theorem State.afterEdge_spec (r : Bool) (s : State) : ∃ l, s.afterEdge r = { s with mnt := { s.mnt with fsync := r, engines := l } } := by
  unfold State.afterEdge
  split
  · exact State.fireEvent_spec 27 { s with mnt := { s.mnt with fsync := r } }
  · exact ⟨s.mnt.engines, rfl⟩

theorem exec_fsyncEdge {s : State} (hf : s.frozen = false) (r : Bool) (own : Nat) (rate : Int) :
    exec (.fsyncEdge r own rate) s = .next ((s.afterEdge r).fsyncAlign r own rate) := if_neg (by rw [hf]; decide)

/-- The selected edge of the system head that follows FSYNC: its phase error decides (R55, R58). -/
theorem State.fsyncAlign_head {r : Bool} {s : State} (own : Nat) (rate : Int) (hh : s.isHead = true) (hl : s.f Reg.BEAM_LOCKCTL 1 0 = 1) (hr : s.running = true)
    (hs : s.fsyncSelected r = true) : (s.afterEdge r).fsyncAlign r own rate =
      if 4 * absI (s.refError own 0) > ((s.refFrames * s.framePs : Nat) : Int) then (s.afterEdge r).raise0 stBEAMW 2
      else (s.afterEdge r).takeReference rate (s.refError own 0) := by
  obtain ⟨l, e⟩ := s.afterEdge_spec r
  rw [e]
  exact if_pos (show (s.isHead && decide (s.f Reg.BEAM_LOCKCTL 1 0 = 1) && s.running && s.fsyncSelected r) = true by
    rw [hh, hr, hs, hl]; rfl)

/-- Where a beam that steps stands (R55, R525). -/
theorem exec_beamStep {s : State} (p : BPos) (hf : s.frozen = false) (hr : s.running = true) (hd : s.beam.stepDue = true) (hl : s.lock = 1) :
    Completes (.beamStep p) s fun t => t.beam.pos = p ∧ t.beam.stepDue = false ∧
      t.beam.frame = (if s.isHead then s.beam.frame + 1 else s.beam.srcFrame) % 2 ^ 64 := by
  have hcond : (s.running && s.beam.stepDue && decide (s.lock = 1)) = true := by rw [hr, hd, hl]; rfl
  have hq : Steady s (s.stepHold.raise0 stBEAMW 5) := s.steady_stepHold.trans (State.quiet_raise0 (by decide) (by decide) ..).steady
  refine ⟨_, (if_neg (by rw [hf]; decide)).trans (if_neg (by rw [hcond]; decide)), ?_⟩
  generalize s.stepHold.raise0 stBEAMW 5 = t at hq
  have hhead : t.isHead = s.isHead := by
    unfold State.isHead State.stationId
    rw [State.f_of_reg (hq.regs Reg.BEAM_STATION (.inr (.inr rfl)))]
  dsimp only
  rw [show ({ t with beam := { t.beam with pos := p, dotAcc := 0, stepDue := false, good := 0 } } : State).isHead = s.isHead from hhead]
  cases s.isHead
  · exact ⟨rfl, rfl, congrArg (· % 2 ^ 64) hq.beam.srcFrame⟩
  · exact ⟨rfl, rfl, congrArg (fun n => (n + 1) % 2 ^ 64) hq.beam.frame⟩

/-- Settles O5: the frame held at a step leaves the beam (`State.steady_stepHold`), and an edge is `State.fsyncAlign_head`. -/
theorem studioSync : Obligations.StudioSync := by
  unfold Obligations.StudioSync
  refine ⟨fun s hf => ⟨fun p hr hd hl => exec_beamStep p hf hr hd hl, fun r own rate => ⟨_, exec_fsyncEdge hf r own rate, ?_⟩, ?_, fun hh hl => ?_⟩,
    fun s hf => ⟨fun sf h => ?_, ?_⟩⟩
  · obtain ⟨l, e⟩ := s.afterEdge_spec r
    rw [State.fsync_fsyncAlign, e]
  · rintro r own rate e hh hl hr hs rfl
    obtain ⟨l, el⟩ := s.afterEdge_spec r
    refine ⟨fun hn ha => ⟨_, exec_fsyncEdge hf r own rate, ?_⟩, fun hn => ⟨_, exec_fsyncEdge hf r own rate, ?_⟩⟩
    · rw [State.fsyncAlign_head own rate hh hl hr hs, if_neg (by omega)]
      obtain ⟨h1, h2⟩ := State.takeReference_near (s.refError own 0) (s.afterEdge r) ha
      exact ⟨h1, h2, (State.takeReference_keeps ..).2.2.trans (by rw [el])⟩
    · rw [State.fsyncAlign_head own rate hh hl hr hs, if_pos hn]
      exact ⟨State.wstat_raise _ (by decide), by simp [el]⟩
  · have hc : (s.isHead && decide (s.f Reg.BEAM_LOCKCTL 1 0 = 1)) = true := by rw [hh, hl]; rfl
    refine ⟨_, (if_neg (by rw [hf]; decide)).trans (if_pos hc), State.wstat_loseReference _ (State.wstat_raise _ (by decide)), fun h => ?_, fun h => ?_⟩
    · have h2 : (s.raise0 stBEAMW 1).lock = 2 := (State.lock_raise0 ..).trans h
      exact ⟨(State.lock_loseReference _).1 h2, State.holdover_loseReference h2⟩
    · exact (State.lock_loseReference _).2 ((State.lock_raise0 ..).trans h)
  · exact ⟨_, (if_neg (by rw [hf]; decide)).trans (if_pos h), rfl, rfl, rfl⟩
  · exact ⟨_, if_neg (by rw [hf]; decide), rfl, rfl, rfl⟩

end Sys2Proof.Machine
end

section
/-! The statement on the direct writes of the sound engine. -/

namespace Sys2Proof.Machine

/-- A target that has no block of the always-on domain shows that the chip is not in DEEP. -/
theorem State.awake_of_snd {s : State} (h : s.targetOff Reg.SND_CTRL = false) (a : Nat) : s.targetOff a = false := by
  refine State.targetOff_of_state (fun h5 => ?_) a
  have e : s.targetOff Reg.SND_CTRL = (decide (s.pwr.state = 5) && true) := rfl
  rw [e, h5] at h
  exact absurd h (by decide)

/-- The A2 word of a biquad, and the word of a register of the sound block. -/
theorem find_biquad (o : Fin 32) (k : Fin 10) : (RegMap.find (Reg.SNDo_BQk_c o.val k.val 4)).isNone = false := by
  revert o k
  decide +kernel

theorem regWord_biquad (o : Fin 32) (k : Fin 10) : RegWord (Reg.SNDo_BQk_c o.val k.val 4) := by
  have ho := o.isLt
  have hk := k.isLt
  simp only [Reg.SNDo_BQk_c]
  refine ⟨?_, by omega, ?_⟩
  · simp only [inRegs, Bool.and_eq_true, decide_eq_true_eq]
    unfold regBase
    omega
  · unfold regEnd
    omega

theorem blockOf_biquad (o : Fin 32) (k : Fin 10) : blockOf (Reg.SNDo_BQk_c o.val k.val 4) = 9 :=
  blockOf_eq (by simp only [Reg.SNDo_BQk_c]; omega) (by decide)

/-- An address between the elements of an array is none of it. -/
theorem arr_none_of_between {base stride n i r a : Nat} (ha : a = base + (stride * i + r)) (h0 : r ≠ 0) (hr : r < stride) : arr base stride n a = none := by
  subst ha
  rw [arr, Nat.add_sub_cancel_left, Nat.mul_add_mod, Nat.mod_eq_of_lt hr, if_neg]
  exact fun h => h0 h.2.1

/-- The state in which a write of the sound block acts: the writes before it stand in FCLKs of their own (log 1). -/
def State.stamped (s : State) : State := { s with snd := { s.snd with stamp := s.snd.stamp + 1, stampAt := none } }

theorem State.sndWrite_biquad (o : Fin 32) (k : Fin 10) (v : Word) (s : State) :
    s.sndWrite (Reg.SNDo_BQk_c o.val k.val 4) v = s.stamped.biquadWrite o.val k.val v := by
  have ho := o.isLt
  have hk := k.isLt
  obtain ⟨a, ha⟩ : ∃ a, a = Reg.SNDo_BQk_c o.val k.val 4 := ⟨_, rfl⟩
  have hn : a = 0x40092030 + 0x100 * o.val + 0x14 * k.val := by
    rw [ha]
    simp only [Reg.SNDo_BQk_c]
    omega
  have hc : a ≠ Reg.SND_CTRL ∧ a ≠ Reg.SND_NODEW := by
    simp only [Reg.SND_CTRL, Reg.SND_NODEW]
    omega
  have h1 : arr (Reg.SND_KEYONx 0) 4 2 a = none := arr_none (by decide) (.inr (by simp only [Reg.SND_KEYONx]; omega))
  have h2 : arr (Reg.SND_KEYOFFx 0) 4 2 a = none := arr_none (by decide) (.inr (by simp only [Reg.SND_KEYOFFx]; omega))
  have h3 : arr (Reg.SNDo_DELAY 0) 0x100 32 a = none :=
    arr_none_of_between (i := o.val) (r := 44 + 20 * k.val) (by simp only [Reg.SNDo_DELAY]; omega) (by omega) (by omega)
  have h4 : arr (Reg.SNDo_BQEN 0) 0x100 32 a = none :=
    arr_none_of_between (i := o.val) (r := 32 + 20 * k.val) (by simp only [Reg.SNDo_BQEN]; omega) (by omega) (by omega)
  have hd : a - 0x40092000 = 0x100 * o.val + (48 + 20 * k.val) := by omega
  have h5 : (a - 0x40092000) / 0x100 = o.val := by
    rw [hd, Nat.mul_add_div (by decide), Nat.div_eq_of_lt (by omega), Nat.add_zero]
  have hm : a % 0x100 = 48 + 20 * k.val := by
    rw [show a = 0x100 * (0x400920 + o.val) + (48 + 20 * k.val) by omega, Nat.mul_add_mod, Nat.mod_eq_of_lt (by omega)]
  have h6 : (a % 0x100 - 0x20) / 20 = k.val := by omega
  have h7 : 0x40092000 ≤ a ∧ a < 0x40094000 ∧ 0x20 ≤ a % 0x100 ∧ a % 0x100 < 0xE8 ∧ (a % 0x100 - 0x20) % 20 = 16 := by omega
  rw [← ha]
  unfold State.sndWrite
  dsimp only
  rw [if_neg hc.1, if_neg hc.2, h1, h2, h3]
  dsimp only
  rw [h4]
  dsimp only
  rw [if_pos h7, h5, h6]
  rfl

@[simp] theorem State.chain_setChain_same {s : State} {o : Nat} (h : o < s.snd.chains.length) (x : ChainSt) : (s.setChain o x).chain o = x := by
  simp [State.setChain, State.chain, h]

theorem State.chain_of_snd {s t : State} (h : t.snd.chains = s.snd.chains) (o : Nat) : t.chain o = s.chain o := by simp only [State.chain, h]

/-- The five coefficients that a write of the A2 word collects. -/
theorem State.biquadWrite_collects {s : State} {o k : Nat} {v : Word} {b : Biquad} (hb : (s.chain o).biquads[k]? = some b) (ho : o < s.snd.chains.length) :
    ((s.biquadWrite o k v).chain o).biquads[k]? = some { b with next := some [sw (s.reg (Reg.SNDo_BQk_c o k 0)), sw (s.reg (Reg.SNDo_BQk_c o k 1)),
      sw (s.reg (Reg.SNDo_BQk_c o k 2)), sw (s.reg (Reg.SNDo_BQk_c o k 3)), sw v] } ∧ (s.biquadWrite o k v).mem = s.mem := by
  have hk : k < (s.chain o).biquads.length := (List.getElem?_eq_some_iff.mp hb).1
  have hne : ∀ c, c < 4 → (s.setReg (Reg.SNDo_BQk_c o k 4) v).reg (Reg.SNDo_BQk_c o k c) = s.reg (Reg.SNDo_BQk_c o k c) := fun c hc =>
    State.reg_setReg_ne s (by simp only [Reg.SNDo_BQk_c]; omega) v
  have hcoef : (List.range 5).map (fun c => sw ((s.setReg (Reg.SNDo_BQk_c o k 4) v).reg (Reg.SNDo_BQk_c o k c))) =
      [sw (s.reg (Reg.SNDo_BQk_c o k 0)), sw (s.reg (Reg.SNDo_BQk_c o k 1)), sw (s.reg (Reg.SNDo_BQk_c o k 2)), sw (s.reg (Reg.SNDo_BQk_c o k 3)), sw v] := by
    rw [show List.range 5 = [0, 1, 2, 3, 4] from rfl]
    simp only [List.map_cons, List.map_nil]
    rw [hne 0 (by decide), hne 1 (by decide), hne 2 (by decide), hne 3 (by decide), State.reg_setReg_same]
  have hbq : ((s.setReg (Reg.SNDo_BQk_c o k 4) v).chain o).biquads[k]? = some b := hb
  unfold State.biquadWrite
  dsimp only
  rw [hcoef, hbq]
  dsimp only
  rw [State.chain_setChain_same (s := s.setReg _ v) ho]
  exact ⟨List.getElem?_set_self hk, rfl⟩

section
variable {m : Acc} {s : State} (hm : m.debug = false) (hoff : s.targetOff Reg.SND_CTRL = false)
include hm hoff

theorem exec_nodeWrite (v : Word) : exec (.nodeWrite m v) s = .next ((s.stamped.nodeWrite v).reply 0 0) :=
  congrArg Host.Outcome.next (State.askWrite_word (.inl hm) (State.awake_of_snd hoff _) (by decide) rfl)

theorem exec_keyOn (n : Fin 2) (v : Word) : exec (.keyOn m n v) s = .next ((s.stamped.keyOnWrite n.val v).reply 0 0) :=
  match n with
  | 0 | 1 => congrArg Host.Outcome.next (State.askWrite_word (.inl hm) (State.awake_of_snd hoff _) (by decide) rfl)

theorem exec_keyOff (n : Fin 2) (v : Word) : exec (.keyOff m n v) s = .next ((s.stamped.keyOffWrite n.val v).reply 0 0) :=
  match n with
  | 0 | 1 => congrArg Host.Outcome.next (State.askWrite_word (.inl hm) (State.awake_of_snd hoff _) (by decide) rfl)

theorem exec_biquadCoefWrite (o : Fin 32) (k : Fin 10) (v : Word) : exec (.biquadCoefWrite m o k v) s = .next ((s.stamped.biquadWrite o.val k.val v).reply 0 0) := by
  have hp : regProt m (Reg.SNDo_BQk_c o.val k.val 4) true v = false := by
    unfold regProt
    simp only [blockOf_biquad]
  have hw : s.regWrite m (Reg.SNDo_BQk_c o.val k.val 4) v = s.sndWrite (Reg.SNDo_BQk_c o.val k.val 4) v := by
    rw [State.regWrite, if_neg (by rw [find_biquad]; decide)]
    simp only [blockOf_biquad]
  have e := State.askWrite_word (v := v) (.inl hm) (State.awake_of_snd hoff _) (regWord_biquad o k) hp
  rw [hw, State.sndWrite_biquad] at e
  exact congrArg Host.Outcome.next e

end

/-- A debug read of SND_KLO is permitted at level 1 and above. -/
theorem sndKloRead_debug {m : Acc} {s : State} (hoff : s.targetOff Reg.SND_CTRL = false) (hl : s.sec.level ≠ 0) :
    exec (.sndKloRead { m with debug := true }) s = .next (s.reply 0 (wd s.kNow)) := by
  have hd : s.debugAllows Reg.SND_KLO false = true := by
    have e : s.debugAllows Reg.SND_KLO false = (match s.sec.level with | 0 => false | 1 => true | _ => true) := rfl
    rw [e]
    split
    · exact absurd ‹_› hl
    · rfl
    · rfl
  exact congrArg Host.Outcome.next (State.askRead_of_regRead (.inr hd) (State.awake_of_snd hoff _) (by decide) rfl rfl)

/-- Settles O22: each write is the bus's own, made in a FCLK of its own. -/
theorem soundWrites : Obligations.SoundWrites := by
  unfold Obligations.SoundWrites
  intro m s hm hoff
  refine ⟨fun n v => ⟨⟨_, exec_keyOn hm hoff n v, rfl, rfl, rfl, rfl, fun _ => rfl⟩, ⟨_, exec_keyOff hm hoff n v, rfl, rfl, rfl, rfl, fun _ => rfl⟩⟩, fun v hv => ?_,
    fun v hv => ?_, fun o k v b cs hb hlen hcs => ?_, ?_, fun hl => ⟨_, sndKloRead_debug hoff hl, rfl, rfl, fun _ => rfl⟩, fun v hobj => ?_⟩
  · have e : s.stamped.nodeWrite v = { s.stamped with snd := { s.stamped.snd with writes := s.stamped.snd.writes ++ [.node s.stamped.snd.stamp v] } } := if_neg (by omega)
    exact ⟨_, exec_nodeWrite hm hoff v, by rw [e]; rfl, rfl, by rw [e]; rfl, fun _ => by rw [e]; rfl⟩
  · have e : s.stamped.nodeWrite v = s.stamped.raise0 stSND 8 := if_pos hv
    refine ⟨_, exec_nodeWrite hm hoff v, ?_⟩
    rw [e]
    exact ⟨(congrArg SndSt.writes (State.told_raise0 stSND 8 s.stamped).snd :), State.bit_raise0_same (r := stSND) _ (by decide) (by decide) (by decide)⟩
  · subst hcs
    obtain ⟨h1, h2⟩ := State.biquadWrite_collects (s := s.stamped) (v := v) hb (show o.val < s.snd.chains.length by omega)
    exact ⟨_, exec_biquadCoefWrite hm hoff o k v, h1, fun j => State.byte_congr (s := s.stamped) (t := s.stamped.biquadWrite o.val k.val v) h2 j⟩
  · exact ⟨_, congrArg Host.Outcome.next (State.askRead_word hm (State.awake_of_snd hoff _) (by decide) rfl rfl), rfl, State.reg_setReg_same .., fun a ha =>
      State.reg_setReg_ne s ha _, fun _ => rfl⟩
  · have e : s.regWrite m Reg.OBJ_MUTE v = s.setReg Reg.OBJ_MUTE v := (show _ = s.writeCoded Reg.OBJ_MUTE v from rfl).trans (State.writeCoded_word rfl s v)
    refine ⟨_, congrArg Host.Outcome.next (State.askWrite_word (.inl hm) hobj (by decide) rfl), ?_⟩
    rw [e]
    exact ⟨State.reg_setReg_same .., fun a ha => State.reg_setReg_ne s ha _, fun _ => rfl⟩

end Sys2Proof.Machine
end

section
/-! The statement on the Gavotte flags, the beam store and its scrubber. -/

namespace Sys2Proof.Machine

/-- The beam store is no part of the always-on domain. -/
theorem State.targetOff_beamStore {s : State} (h : s.targetOff beamStore = false) (a : Nat) : s.targetOff a = false := by
  refine State.targetOff_of_state (fun h5 => ?_) a
  have e : s.targetOff beamStore = (decide (s.pwr.state = 5) && true) := rfl
  rw [e, h5] at h
  exact absurd h (by decide)

/-- A command's write of the beam store is the store's own write, and an error of it is answered (R89, R180). -/
theorem exec_beamStoreWrite {m : Acc} {s t : State} {j c : Nat} (v : Word) (hm : m.debug = false) (hoff : s.targetOff beamStore = false) (hj : j < 0x40000) (h4 : j % 4 = 0)
    (h : s.beamStoreWrite m.port (beamStore + j) v = (c, t)) :
    exec (.beamStoreWrite m j v) s = .next (if c = 0 then t.reply 0 0 else (t.errResponse m.port (beamStore + j) c true).reply c 0) := by
  have hin : inRegs (beamStore + j) = false := by
    simp only [inRegs, Bool.and_eq_false_iff, decide_eq_false_iff_not]
    unfold regBase beamStore
    omega
  have hprot : State.memProt m (beamStore + j) true = false := by
    unfold State.memProt beamStore
    rw [if_neg (by omega), if_neg (by omega), if_neg (by omega), if_neg (by omega)]
  have hsram : inSram (beamStore + j) = false := by
    simp only [inSram, Bool.and_eq_false_iff, decide_eq_false_iff_not]
    unfold sramEnd beamStore
    omega
  have hw : s.memWrite m.port (beamStore + j) (leBytes 4 v.toNat) = if c = 0 then (0, t) else (c, t.errResponse m.port (beamStore + j) c true) := by
    unfold State.memWrite
    simp only [length_leBytes, hsram, Bool.false_eq_true, if_false, leWord_leBytes]
    rw [if_neg (by unfold beamStore; omega), if_pos (by unfold beamStore; omega), if_neg (by unfold beamStore; omega), h]
    rcases c with - | c
    · rfl
    · rfl
  have hbus : s.busWrite32 m (beamStore + j) v = if c = 0 then (0, t) else (c, t.errResponse m.port (beamStore + j) c true) :=
    ((State.busWrite_protMem (.inl hm) (State.targetOff_beamStore hoff _) hin _).2 hprot).trans hw
  show Host.Outcome.next (s.askWrite m (0x21000000 + j % 0x40000) v) = _
  rw [Nat.mod_eq_of_lt hj, show 0x21000000 + j = beamStore + j from rfl, State.askWrite, hbus]
  by_cases hc : c = 0
  · simp only [if_pos hc]
  · simp only [if_neg hc]

theorem State.mark_setMark (k : Nat) (u : Upset) (s : State) : (s.setMark k u).mark k = u := Sparse.get_set_same noUpset s.fab.ecc k u

/-! The parts of a beam word (R180). -/

section
variable {s : State} {port k : Nat} (v : Word) (hp : port ∈ [7, 8, 10, 11, 14]) (hk : 0x800 ≤ k)
include hp hk

theorem State.beamStoreWrite_part {i : Nat} (hi : i < 3) : s.beamStoreWrite port (beamStore + 16 * k + 4 * i) v = (0, { s with mnt := { s.mnt with
    parts := (beamStore + 16 * k + 4 * i, v) :: s.mnt.parts.filter fun p => decide (p.1 ≠ beamStore + 16 * k + 4 * i) } }) := by
  unfold State.beamStoreWrite
  dsimp only
  rw [if_neg (by unfold beamStore; simp only [hp, not_true_eq_false, or_false]; omega), if_neg (by unfold beamStore; omega)]

/-- The last part writes the word with the parts collected for it. -/
theorem State.beamStoreWrite_last {mine rest : List (Nat × Word)} (h1 : s.mnt.parts.filter (fun p => decide (p.1 / 16 * 16 = beamStore + 16 * k)) = mine)
    (h2 : s.mnt.parts.filter (fun p => decide (p.1 / 16 * 16 ≠ beamStore + 16 * k)) = rest) :
    s.beamStoreWrite port (beamStore + 16 * k + 12) v = (0, ((mine.foldl (fun t p => t.setWord p.1 p.2) ({ s with mnt := { s.mnt with parts := rest } } : State)).setWord
      (beamStore + 16 * k + 12) v).setMark (beamStore + 16 * k) .none) := by
  have hd : (beamStore + 16 * k + 12) / 16 * 16 = beamStore + 16 * k := by
    unfold beamStore
    omega
  unfold State.beamStoreWrite
  dsimp only
  rw [if_neg (by unfold beamStore; simp only [hp, not_true_eq_false, or_false]; omega), if_pos (by unfold beamStore; omega), hd, h1, h2]

end

theorem State.beamStoreWrite_denied {s : State} {port j : Nat} (v : Word) (h : j < 16 * 0x800 ∨ port ∉ [7, 8, 10, 11, 14]) :
    s.beamStoreWrite port (beamStore + j) v = (3, s) := by
  unfold State.beamStoreWrite
  dsimp only
  rw [if_pos]
  rcases h with h | h
  · left
    omega
  · exact .inr h

theorem State.word_stored (b k : Nat) (u : Upset) (s : State) : ((s.setMark b u).reply 0 0).word k = s.word k := State.word_congr rfl k
theorem State.mark_stored (b : Nat) (u : Upset) (s : State) : ((s.setMark b u).reply 0 0).mark b = u := s.mark_setMark b u
theorem State.byte_stored (b k : Nat) (u : Upset) (s : State) : ((s.setMark b u).reply 0 0).byte k = s.byte k := State.byte_congr rfl k

theorem State.word_setWord_out {k j : Nat} (h : j + 4 ≤ k ∨ k + 4 ≤ j) (w : Word) (s : State) : (s.setWord k w).word j = s.word j := by
  have hb : (s.setWord k w).bytes j 4 = s.bytes j 4 := by
    refine List.map_congr_left fun i hi => ?_
    have hi4 := List.mem_range.mp hi
    exact s.byte_setWord_out w (by omega)
  exact congrArg leWord hb

/-- A write of one part is answered, and no byte of memory changes. -/
theorem beamStore_part {m : Acc} {s : State} {k i : Nat} (v : Word) (hm : m.debug = false) (hp : m.port ∈ [7, 8, 10, 11, 14]) (hk : 0x800 ≤ k) (hk' : k < 0x4000)
    (hoff : s.targetOff beamStore = false) (hi : i < 3) : Completes (.beamStoreWrite m (16 * k + 4 * i) v) s fun t => t.answer = ⟨0, 0⟩ ∧ SameMemory s t ∧
      t.mnt.parts = (beamStore + 16 * k + 4 * i, v) :: s.mnt.parts.filter fun p => decide (p.1 ≠ beamStore + 16 * k + 4 * i) := by
  have e := s.beamStoreWrite_part v hp hk hi
  rw [Nat.add_assoc] at e
  refine ⟨_, exec_beamStoreWrite v hm hoff (by omega) (by omega) e, ?_⟩
  rw [if_pos rfl, ← Nat.add_assoc]
  exact ⟨rfl, fun _ => rfl, rfl⟩

/-- The last part of a word none of whose other parts was written. -/
theorem beamStore_alone {m : Acc} {s : State} {k : Nat} (v : Word) (hm : m.debug = false) (hp : m.port ∈ [7, 8, 10, 11, 14]) (hk : 0x800 ≤ k) (hk' : k < 0x4000)
    (hoff : s.targetOff beamStore = false) (h : s.mnt.parts = []) : Completes (.beamStoreWrite m (16 * k + 12) v) s fun t =>
      t.answer = ⟨0, 0⟩ ∧ t.word (beamStore + 16 * k + 12) = v ∧ t.mark (beamStore + 16 * k) = .none ∧
      (∀ a, a < beamStore + 16 * k + 12 ∨ beamStore + 16 * k + 16 ≤ a → t.byte a = s.byte a) := by
  have e := s.beamStoreWrite_last v hp hk (mine := []) (rest := []) (by rw [h]; rfl) (by rw [h]; rfl)
  rw [show beamStore + 16 * k + 12 = beamStore + (16 * k + 12) from Nat.add_assoc ..] at e ⊢
  refine ⟨_, exec_beamStoreWrite v hm hoff (by omega) (by omega) e, ?_⟩
  rw [if_pos rfl]
  refine ⟨rfl, ?_, State.mark_stored .., fun a ha => ?_⟩
  · rw [State.word_stored, State.word_setWord_same]
  · rw [State.byte_stored, State.byte_setWord_out _ v (by omega)]
    rfl

/-- The last part of a word all of whose parts were written. -/
theorem beamStore_whole {m : Acc} {s : State} {k : Nat} {a b c : Word} (v : Word) (hm : m.debug = false) (hp : m.port ∈ [7, 8, 10, 11, 14]) (hk : 0x800 ≤ k) (hk' : k < 0x4000)
    (hoff : s.targetOff beamStore = false) (h : s.mnt.parts = [(beamStore + 16 * k + 8, c), (beamStore + 16 * k + 4, b), (beamStore + 16 * k, a)]) :
    Completes (.beamStoreWrite m (16 * k + 12) v) s fun t =>
      t.word (beamStore + 16 * k) = a ∧ t.word (beamStore + 16 * k + 4) = b ∧ t.word (beamStore + 16 * k + 8) = c ∧
      t.word (beamStore + 16 * k + 12) = v ∧ t.mark (beamStore + 16 * k) = .none ∧ t.mnt.parts = [] ∧
      (∀ j, j < beamStore + 16 * k ∨ beamStore + 16 * k + 16 ≤ j → t.byte j = s.byte j) := by
  have hd : (beamStore + 16 * k) / 16 * 16 = beamStore + 16 * k ∧ (beamStore + 16 * k + 4) / 16 * 16 = beamStore + 16 * k ∧
      (beamStore + 16 * k + 8) / 16 * 16 = beamStore + 16 * k := by
    unfold beamStore
    omega
  obtain ⟨d0, d4, d8⟩ := hd
  have e := s.beamStoreWrite_last v hp hk (mine := s.mnt.parts) (rest := []) (by simp [h, d0, d4, d8]) (by simp [h, d0, d4, d8])
  rw [h] at e
  refine ⟨_, exec_beamStoreWrite (j := 16 * k + 12) v hm hoff (by omega) (by omega) e, ?_⟩
  rw [if_pos rfl]
  generalize beamStore + 16 * k = w
  dsimp only [List.foldl]
  refine ⟨?_, ?_, ?_, ?_, State.mark_stored .., rfl, fun j hj => ?_⟩
  · rw [State.word_stored, State.word_setWord_out (by omega), State.word_setWord_same]
  · rw [State.word_stored, State.word_setWord_out (by omega), State.word_setWord_out (by omega), State.word_setWord_same]
  · rw [State.word_stored, State.word_setWord_out (by omega), State.word_setWord_out (by omega), State.word_setWord_out (by omega), State.word_setWord_same]
  · rw [State.word_stored, State.word_setWord_same]
  · rw [State.byte_stored, State.byte_setWord_out _ v (by omega), State.byte_setWord_out _ a (by omega), State.byte_setWord_out _ b (by omega),
      State.byte_setWord_out _ c (by omega)]
    rfl

/-! The scrubber (R181, R405). -/

/-- The state in which the scrubber has met the word it reads. -/
def State.scrubbed (x : Upset) (s : State) : State :=
  ({ s with mnt := { s.mnt with scrub := (s.mnt.scrub + 1) % 16384 } } : State).upset (beamStore + 16 * s.mnt.scrub) x

theorem execBeamStoreScrub_eq {x : Upset} {s : State} (hf : s.frozen = false) (h2 : s.pwr.state < 2) : exec (.beamStoreScrub x) s =
    match (s.upset (beamStore + 16 * s.mnt.scrub) x).mark (beamStore + 16 * s.mnt.scrub) with
    | .none => .next (s.scrubbed x)
    | .single => .next ((((s.scrubbed x).setMark (beamStore + 16 * s.mnt.scrub) .none).count Reg.MNT_BSCE 15 0).raise0 stMNT 2)
    | .double => .next ((s.scrubbed x).raise0 stMNT 3) := by
  refine (if_neg (?_ : ¬ (s.frozen || decide (2 ≤ s.pwr.state)) = true)).trans rfl
  rw [hf, Bool.false_or, decide_eq_true_eq]
  omega

/-- Settles O17: the flags and the store by the bus's own write, and the scrubber by what its word carries. -/
theorem flagsAndBeamStore : Obligations.FlagsAndBeamStore := by
  unfold Obligations.FlagsAndBeamStore
  intro m v s
  refine ⟨fun hm hoff => ?_, fun hm hoff => ?_, fun k hm hp hk hk' hoff => ?_, fun k i hm hoff hi hk => ?_, fun x u hf h2 hu => ?_, fun x h2 => ?_⟩
  · exact ⟨_, congrArg Host.Outcome.next (State.askWrite_word (.inl hm) hoff (by decide) rfl), State.reg_setReg_same .., fun a ha => State.reg_setReg_ne s ha _, fun _ => rfl⟩
  · exact ⟨_, congrArg Host.Outcome.next (State.askWrite_word (.inl hm) hoff (by decide) rfl), State.reg_setReg_same .., fun a ha => State.reg_setReg_ne s ha _, fun _ => rfl⟩
  · exact ⟨fun i hi => beamStore_part v hm hp hk hk' hoff hi, fun h => beamStore_alone v hm hp hk hk' hoff h, fun a b c h => beamStore_whole v hm hp hk hk' hoff h⟩
  · have hj : 16 * k + 4 * i < 0x40000 := by omega
    have e : s.beamStoreWrite m.port (beamStore + (16 * k + 4 * i)) v = (3, s) :=
      State.beamStoreWrite_denied v (hk.imp (fun h => by omega) And.right)
    have h := s.refused_replyErr m.port (beamStore + (16 * k + 4 * i)) 3 true
    refine ⟨_, exec_beamStoreWrite v hm hoff hj (by omega) e, h.answer, h.byte, ?_⟩
    obtain ⟨_, _, _, _, e'⟩ := h.state
    exact (congrArg State.mnt e' :)
  · subst hu
    refine ⟨fun h => ⟨s.scrubbed x, (execBeamStoreScrub_eq hf h2).trans (by simp only [h]), rfl, rfl, fun _ => rfl⟩, fun h => ⟨_, (execBeamStoreScrub_eq hf h2).trans (by simp only [h]; rfl), ?_⟩,
      fun h => ⟨_, (execBeamStoreScrub_eq hf h2).trans (by simp only [h]; rfl), ?_⟩⟩
    · refine ⟨?_, ?_, State.bit_raise0_same (r := stMNT) _ (by decide) (by decide) (by decide), ?_, State.byte_congr (State.told_raise0 ..).mem⟩
      · exact congrArg MntSt.scrub (State.told_raise0 ..).mnt
      · rw [State.mark, (State.told_raise0 ..).fab]
        exact State.mark_setMark ..
      · rw [State.f_raise0_ne _ _ _ _ (by decide) (by decide) (by decide), State.f_count_same _ _ (by decide)]
        rfl
    · exact ⟨congrArg MntSt.scrub (State.told_raise0 ..).mnt, State.bit_raise0_same (r := stMNT) _ (by decide) (by decide) (by decide), State.byte_congr (State.told_raise0 ..).mem⟩
  · refine if_pos (?_ : (s.frozen || decide (2 ≤ s.pwr.state)) = true)
    rw [decide_eq_true h2, Bool.or_true]

end Sys2Proof.Machine
end

section
/-! One engine of the Minuet: its registers, and what the end of a word leaves (R164 to R168, R179). -/

namespace Sys2Proof.Machine

/-- A field at the low end of a word that holds the number. -/
theorem fld_wd_zero {n hi : Nat} (h : n < 2 ^ (hi + 1)) (h32 : hi < 32) : fld (wd n) hi 0 = n := by
  have h2 : 2 ^ (hi + 1) ≤ 2 ^ 32 := Nat.pow_le_pow_right (by decide) h32
  simp only [fld, wd, BitVec.toNat_ofNat, Nat.sub_zero, Nat.shiftRight_zero]
  rw [Nat.mod_eq_of_lt (by omega : n < 2 ^ 32)]
  exact Nat.mod_eq_of_lt h

/-! An engine of the state. -/

@[simp] theorem State.eng_setEng_same {s : State} {e : Nat} (h : e < s.mnt.engines.length) (x : EngSt) : (s.setEng e x).eng e = x := by
  simp [State.setEng, State.eng, h]

theorem State.eng_setStage {s : State} {e : Nat} (h : e < s.mnt.engines.length) (g : Stage) : (s.setStage e g).eng e = { s.eng e with stage := g } :=
  State.eng_setEng_same h _

theorem State.eng_engMove {s : State} {e : Nat} (h : e < s.mnt.engines.length) (p : BPos) : (s.engMove e p).eng e = { s.eng e with pos := p } :=
  State.eng_setEng_same h _

theorem State.eng_of_mnt {s t : State} (h : t.mnt = s.mnt) (e : Nat) : t.eng e = s.eng e := by simp only [State.eng, h]

/-! An engine's registers. -/

theorem not_eventReg_mnt {a : Nat} (h : 0x40060000 ≤ a) (h' : a < 0x40070000) : ¬ eventReg a := by
  have hb : blockOf a = 6 := blockOf_eq (by omega) (by decide)
  simp [eventReg, hb]

/-- The registers of one engine lie apart. -/
theorem engRegs_apart (e : Nat) : Reg.MNT_ENGe_PC e ≠ Reg.MNT_ENGe_STAT e ∧ Reg.MNT_ENGe_WORDS e ≠ Reg.MNT_ENGe_STAT e ∧ Reg.MNT_ENGe_WORDS e ≠ Reg.MNT_ENGe_PC e ∧
    Reg.MNT_STAT ≠ Reg.MNT_ENGe_STAT e ∧ Reg.MNT_STAT ≠ Reg.MNT_ENGe_PC e := by
  simp only [Reg.MNT_ENGe_PC, Reg.MNT_ENGe_STAT, Reg.MNT_ENGe_WORDS, Reg.MNT_STAT]
  omega

theorem engMreg_apart (e r : Nat) : Reg.MNT_ENGe_Mr e r ≠ Reg.MNT_ENGe_STAT e ∧ Reg.MNT_ENGe_Mr e r ≠ Reg.MNT_ENGe_PC e ∧ Reg.MNT_ENGe_Mr e r ≠ Reg.MNT_ENGe_WORDS e := by
  simp only [Reg.MNT_ENGe_PC, Reg.MNT_ENGe_STAT, Reg.MNT_ENGe_WORDS, Reg.MNT_ENGe_Mr]
  omega

@[simp] theorem State.engState_setEngState (e st : Nat) (s : State) : (s.setEngState e st).engState e = st % 8 := s.f_setF_same _ (by decide)

theorem State.reg_setEngState_ne {e a : Nat} (h : a ≠ Reg.MNT_ENGe_STAT e) (st : Nat) (s : State) : (s.setEngState e st).reg a = s.reg a := State.reg_setF_ne s h ..

theorem State.bit_setEngState (e st : Nat) {i : Nat} (h : 2 < i) (s : State) : (s.setEngState e st).bit (Reg.MNT_ENGe_STAT e) i = s.bit (Reg.MNT_ENGe_STAT e) i := by
  simp only [State.bit, State.setEngState, State.setF, State.reg_setReg_same]
  exact bitAt_setFld_out _ (.inr h) (by decide)

theorem State.engPc_setEngPc {pc : Nat} (h : pc < 32768) (e : Nat) (s : State) : (s.setEngPc e pc).engPc e = pc := by
  simp only [State.engPc, State.f, State.setEngPc, State.reg_setReg_same]
  exact fld_wd_zero h (by decide)

/-! Where a word leaves its engine. -/

/-- Engine `e` of `t` runs at `pc` and is `x`; beside its status and its PC no register changed. -/
structure Ran (e pc : Nat) (x : EngSt) (s t : State) : Prop where
  state : t.engState e = 1
  pc : t.engPc e = pc
  eng : t.eng e = x
  stat : ∀ i, 13 < i → t.bit (Reg.MNT_ENGe_STAT e) i = s.bit (Reg.MNT_ENGe_STAT e) i
  regs : ∀ a, a ≠ Reg.MNT_ENGe_STAT e → a ≠ Reg.MNT_ENGe_PC e → t.reg a = s.reg a
  mem : t.mem = s.mem

/-- The engine goes on at `n`. -/
def State.runAt (e n : Nat) (s : State) : State := ((s.setStage e .ready).setEngPc e n).setEngState e 1

/-- It goes on at `n` with the call stack `l`. -/
def State.callAt (e n : Nat) (l : List Nat) (s : State) : State := (((s.setStage e .ready).setEngPc e n).setStack e l).setEngState e 1

theorem State.engPc_setF_stat (e hi lo v : Nat) (s : State) : (s.setF (Reg.MNT_ENGe_STAT e) hi lo v).engPc e = s.engPc e :=
  State.f_of_reg (State.reg_setF_ne s (engRegs_apart e).1 ..) 14 0

theorem State.ran_runAt {s : State} {e n : Nat} (he : e < s.mnt.engines.length) (hn : n < 32768) : Ran e n { s.eng e with stage := .ready } s (s.runAt e n) where
  state := State.engState_setEngState ..
  pc := (State.engPc_setF_stat ..).trans (State.engPc_setEngPc hn ..)
  eng := State.eng_setStage he .ready
  stat i hi := (State.bit_setEngState _ _ (by omega) _).trans (State.bit_of_reg (State.reg_setReg_ne (s.setStage e .ready) (engRegs_apart e).1.symm _) i)
  regs a h1 h2 := (State.reg_setF_ne _ h1 ..).trans (State.reg_setReg_ne (s.setStage e .ready) h2 _)
  mem := rfl

theorem State.ran_callAt {s : State} {e n : Nat} (l : List Nat) (he : e < s.mnt.engines.length) (hn : n < 32768) :
    Ran e n { s.eng e with stage := .ready, stack := l } s (s.callAt e n l) where
  state := State.engState_setEngState ..
  pc := (State.engPc_setF_stat ..).trans ((State.engPc_setF_stat ..).trans (State.engPc_setEngPc hn e (s.setStage e .ready)))
  eng := by
    have h1 : e < (s.setStage e .ready).mnt.engines.length := by
      show e < (s.mnt.engines.set e _).length
      rw [List.length_set]
      exact he
    have h2 : (((s.setStage e .ready).setEngPc e n).setStack e l).eng e = { (s.setStage e .ready).eng e with stack := l } :=
      State.eng_setEng_same (s := (s.setStage e .ready).setEngPc e n) h1 _
    have h3 : (s.callAt e n l).eng e = (((s.setStage e .ready).setEngPc e n).setStack e l).eng e := rfl
    rw [h3, h2, State.eng_setStage he]
  stat i hi := by
    refine (State.bit_setEngState _ _ (by omega) _).trans ?_
    simp only [State.bit, State.setStack, State.setF, State.reg_setReg_same]
    rw [bitAt_setFld_out _ (.inr (by omega)) (by decide)]
    exact congrArg (bitAt · i) (State.reg_setReg_ne (s.setStage e .ready) (engRegs_apart e).1.symm _)
  regs a h1 h2 := (State.reg_setF_ne _ h1 ..).trans ((State.reg_setF_ne _ h1 ..).trans (State.reg_setReg_ne (s.setStage e .ready) h2 _))
  mem := rfl

section
variable {e pc : Nat} {x : EngSt} {s t : State} (h : Ran e pc x s t)
include h

theorem Ran.mreg (r : Nat) : t.mreg e r = s.mreg e r := h.regs _ (engMreg_apart e r).1 (engMreg_apart e r).2.1
theorem Ran.f {a : Nat} (h1 : a ≠ Reg.MNT_ENGe_STAT e) (h2 : a ≠ Reg.MNT_ENGe_PC e) (hi lo : Nat) : t.f a hi lo = s.f a hi lo := State.f_of_reg (h.regs a h1 h2) hi lo

end

/-! The count of a word, and its next-address action (Table 6.3). -/

/-- The word is counted. -/
def State.counted (e : Nat) (s : State) : State := s.setF (Reg.MNT_ENGe_WORDS e) 23 0 (s.f (Reg.MNT_ENGe_WORDS e) 23 0 + 1)

theorem State.reg_counted_ne {e a : Nat} (h : a ≠ Reg.MNT_ENGe_WORDS e) (s : State) : (s.counted e).reg a = s.reg a := State.reg_setF_ne s h ..

theorem State.words_counted (e : Nat) (s : State) : (s.counted e).f (Reg.MNT_ENGe_WORDS e) 23 0 = (s.f (Reg.MNT_ENGe_WORDS e) 23 0 + 1) % 2 ^ 24 := s.f_setF_same _ (by decide)

theorem State.engPc_counted (e : Nat) (s : State) : (s.counted e).engPc e = s.engPc e := State.f_of_reg (State.reg_counted_ne (engRegs_apart e).2.2.1.symm s) 14 0

theorem State.mreg_counted (e r : Nat) (s : State) : (s.counted e).mreg e r = s.mreg e r := State.reg_counted_ne (engMreg_apart e r).2.2 s

theorem realTime_eq_false {c : Nat} (h : realTime c = false) : ¬ (16 ≤ c ∧ c ≤ 35) ∧ ¬ (40 ≤ c ∧ c ≤ 55) := by
  unfold realTime at h
  constructor
  · rintro ⟨h1, h2⟩
    rw [decide_eq_true h1, decide_eq_true h2, Bool.and_self, Bool.true_or] at h
    exact absurd h (by decide)
  · rintro ⟨h1, h2⟩
    rw [decide_eq_true h1, decide_eq_true h2, Bool.and_self, Bool.or_true] at h
    exact absurd h (by decide)

/-- A condition that the hardware outside the Minuet does not change reads the same after the count. -/
theorem State.bwCond_counted {e w : Nat} (h : realTime (bwCsel w) = false) (s : State) : (s.counted e).bwCond e w = s.bwCond e w := by
  have hst : (s.counted e).reg (Reg.MNT_ENGe_STAT e) = s.reg (Reg.MNT_ENGe_STAT e) := State.reg_counted_ne (engRegs_apart e).2.1.symm s
  have hl : (s.counted e).lines = s.lines := State.f_of_reg (State.reg_counted_ne (by simp only [Reg.MNT_ENGe_WORDS, Reg.BEAM_ACTIVE]; omega) s) _ _
  have hx : (s.counted e).eng e = s.eng e := rfl
  obtain ⟨n1, n2⟩ := realTime_eq_false h
  unfold State.bwCond State.condInput
  dsimp only
  rw [hst, hl, hx]
  generalize bwCsel w = c at n1 n2
  by_cases h9 : c ≤ 9
  · interval_cases c <;> rfl
  · iterate 14 rw [if_neg (by omega), if_neg (by omega)]

section
variable {e w : Nat} {c : Option Bool} {s : State}

theorem State.engAct_next (h : bw w 117 115 = 0) : s.engAct e w c = s.runAt e ((s.engPc e + 1) % 16384) := by
  unfold State.engAct
  simp only [h]
  rfl

theorem State.engAct_jump (h : bw w 117 115 = 1) : s.engAct e w c = s.runAt e (bw w 114 101) := by
  unfold State.engAct
  simp only [h]
  rfl

theorem State.engAct_cond (h : bw w 117 115 = 2) (b : Bool) : s.engAct e w (some b) = s.runAt e (if b then bw w 114 101 else (s.engPc e + 1) % 16384) := by
  unfold State.engAct
  simp only [h]
  rfl

theorem State.engAct_test (h : bw w 117 115 = 2) : s.engAct e w none = s.runAt e (if s.bwCond e w then bw w 114 101 else (s.engPc e + 1) % 16384) := by
  unfold State.engAct
  simp only [h]
  rfl

theorem State.engAct_call (h : bw w 117 115 = 3) (hl : (s.eng e).stack.length < 8) :
    s.engAct e w c = s.callAt e (bw w 114 101) ((s.engPc e + 1) % 16384 :: (s.eng e).stack) := by
  unfold State.engAct
  simp only [h, ge_iff_le, Nat.not_le.mpr hl, if_false]
  rfl

theorem State.engAct_deep (h : bw w 117 115 = 3) (hl : 8 ≤ (s.eng e).stack.length) : s.engAct e w c = s.engFault e 3 := by
  unfold State.engAct
  simp only [h, ge_iff_le, hl, if_true]

theorem State.engAct_return {a : Nat} {rest : List Nat} (h : bw w 117 115 = 4) (hl : (s.eng e).stack = a :: rest) : s.engAct e w c = s.callAt e a rest := by
  unfold State.engAct
  simp only [h, hl]
  rfl

theorem State.engAct_index (h : bw w 117 115 = 5) : s.engAct e w c = s.runAt e ((bw w 114 101 + fld (s.mreg e (bw w 93 91)) 5 0) % 16384) := by
  unfold State.engAct
  simp only [h]
  rfl

theorem State.engAct_end (h : bw w 117 115 = 6) : s.engAct e w c = s.engEnd e := by
  unfold State.engAct
  simp only [h]

theorem State.engAct_reserved (h : bw w 117 115 = 7) : s.engAct e w c = s.engFault e 1 := by
  unfold State.engAct
  simp only [h]

theorem State.engCount_acts (h : ¬ (bw w 117 115 = 2 ∧ c = none ∧ realTime (bwCsel w) = true)) : s.engCount e w c = (s.counted e).engAct e w c := if_neg h

theorem State.engWrite_none (h : bw w 86 84 = 0) : s.engWrite e w c = s.engCount e w c := if_pos h

theorem State.engData_nop (h : bw w 100 97 = 0) : s.engData e w c = s.engWrite e w c := if_pos h

/-- A datapath operation that is no LD. -/
theorem State.engData_op (h0 : bw w 100 97 ≠ 0) (h15 : bw w 100 97 ≠ 15) (h13 : bw w 100 97 ≠ 13) : s.engData e w c =
    (s.engResult e w (datapath (bw w 100 97) (s.mreg e (bw w 93 91)) (if w.testBit 87 then wd (bw w 63 32) else s.mreg e (bw w 90 88)) (posWord (s.eng e).pos))).engWrite e w c := by
  unfold State.engData
  dsimp only
  rw [if_neg h0, if_neg h15, if_neg h13]

/-- No operation, no write, and an action that no wait is to sample. -/
theorem State.engData_plain (hd : bw w 100 97 = 0) (hw : bw w 86 84 = 0) (h : bw w 117 115 ≠ 2 ∨ c ≠ none ∨ realTime (bwCsel w) = false) :
    s.engData e w c = (s.counted e).engAct e w c := by
  rw [State.engData_nop hd, State.engWrite_none hw, State.engCount_acts]
  rintro ⟨h2, hc, hr⟩
  rcases h with h | h | h
  · exact h h2
  · exact h hc
  · rw [hr] at h
    cases h

/-- Then NEXT goes on at the next word. -/
theorem State.engData_next (hd : bw w 100 97 = 0) (hw : bw w 86 84 = 0) (hn : bw w 117 115 = 0) : s.engData e w c = (s.counted e).runAt e ((s.engPc e + 1) % 16384) := by
  rw [State.engData_plain hd hw (.inl (by omega)), State.engAct_next hn, State.engPc_counted]

end

theorem bw_lt (w hi lo : Nat) : bw w hi lo < 2 ^ (hi + 1 - lo) := Nat.mod_lt _ (Nat.two_pow_pos _)

/-! Waits (R162, R163). -/

/-- The engine waits at the stage `g`, in state `st`. -/
def State.parkAt (e st : Nat) (g : Stage) (s : State) : State := (s.setStage e g).setEngState e st

theorem State.parked {s : State} {e : Nat} (he : e < s.mnt.engines.length) (st : Nat) (g : Stage) :
    (s.parkAt e st g).engState e = st % 8 ∧ ((s.parkAt e st g).eng e).stage = g := ⟨State.engState_setEngState .., congrArg EngSt.stage (State.eng_setStage he g)⟩

/-- The engine position goes on to `q`, and never back. -/
def State.moveOn (e : Nat) (q : BPos) (s : State) : State := if posLt (s.eng e).pos q then s.engMove e q else s

theorem State.moveOn_spec {s : State} {e : Nat} (he : e < s.mnt.engines.length) (q : BPos) : (s.moveOn e q).regs = s.regs ∧
    (s.moveOn e q).mnt.engines.length = s.mnt.engines.length ∧ (s.moveOn e q).mem = s.mem ∧
    (s.moveOn e q).eng e = { s.eng e with pos := if posLt (s.eng e).pos q then q else (s.eng e).pos } := by
  unfold State.moveOn
  split
  · exact ⟨rfl, List.length_set, rfl, State.eng_engMove he q⟩
  · exact ⟨rfl, rfl, rfl, rfl⟩

theorem State.engEnd_spec (e : Nat) (s : State) : (s.engEnd e).engState e = 4 ∧ ∀ i, 2 < i → (s.engEnd e).bit (Reg.MNT_ENGe_STAT e) i = s.bit (Reg.MNT_ENGe_STAT e) i :=
  ⟨State.engState_setEngState .., fun _ h => State.bit_setEngState _ _ h _⟩

theorem State.engRange_spec (e : Nat) (s : State) : (s.engRange e).engState e = 4 ∧ (s.engRange e).bit (Reg.MNT_ENGe_STAT e) 9 = true :=
  ⟨(State.engEnd_spec ..).1, ((State.engEnd_spec ..).2 9 (by decide)).trans (s.bit_setBit_same _ true (by decide))⟩

section
variable {e w : Nat} {s : State}

theorem State.engWait_free (h : bw w 127 125 = 0) : s.engWait e w = s.engData e w none := by
  unfold State.engWait
  simp only [h]

theorem State.engWait_pos (h : bw w 127 125 = 1) (hq : s.posBad (bwPos w) = false) : s.engWait e w = (s.moveOn e (bwPos w)).engData e w none := by
  unfold State.engWait
  simp only [h, hq, Bool.false_eq_true, if_false]
  rfl

theorem State.engWait_outside (h : bw w 127 125 = 1) (hq : s.posBad (bwPos w) = true) : s.engWait e w = s.engRange e := by
  unfold State.engWait
  simp only [h, hq, if_true]

theorem State.engWait_lines {r : BPos} (h : bw w 127 125 = 2) (hd : (bwPos w).dot < s.dots) (hr : s.linesOn (s.eng e).pos (bwPos w).line (bwPos w).dot = some r) :
    s.engWait e w = (s.moveOn e r).engData e w none := by
  unfold State.engWait
  simp only [h, hr, Nat.not_le.mpr hd, if_false]
  rfl

theorem State.engWait_noLines (h : bw w 127 125 = 2) (hd : (bwPos w).dot < s.dots) (hr : s.linesOn (s.eng e).pos (bwPos w).line (bwPos w).dot = none) :
    s.engWait e w = s.engEnd e := by
  unfold State.engWait
  simp only [h, hr, Nat.not_le.mpr hd, if_false]

theorem State.engWait_cond (h : bw w 127 125 = 3) (hc : s.bwCond e w = false) (hr : realTime (bwCsel w) = true) : s.engWait e w = s.parkAt e 2 (.cond w) := by
  unfold State.engWait
  simp only [h, hc, hr, Bool.false_eq_true, if_false, if_true]
  rfl

theorem State.engWait_never (h : bw w 127 125 = 3) (hc : s.bwCond e w = false) (hr : realTime (bwCsel w) = false) : s.engWait e w = s.engFault e 2 := by
  unfold State.engWait
  simp only [h, hc, hr, Bool.false_eq_true, if_false]

theorem State.engWait_sync (h : bw w 127 125 = 5) (hn : instLe ((s.eng e).frame, (s.eng e).pos) s.now = false) : s.engWait e w = s.parkAt e 2 (.sync w) := by
  unfold State.engWait
  simp only [h, hn, Bool.false_eq_true, if_false]
  rfl

theorem State.engWait_subframe (h : bw w 127 125 = 6) (hs : (s.eng e).pos.sf < s.subfm1) :
    s.engWait e w = (s.engMove e ⟨(s.eng e).pos.sf + 1, 0, 0⟩).engData e w none := by
  unfold State.engWait
  simp only [h, hs, if_true]

end

/-! A fault (R179). -/

/-- What a fault leaves. -/
theorem State.engFault_spec {e code : Nat} (he : e < 8) (hc : code < 16) (s : State) : (s.engFault e code).engState e = 5 ∧ (s.engFault e code).f (Reg.MNT_ENGe_STAT e) 7 4 = code ∧
    (s.engFault e code).bit Reg.MNT_STAT 4 = true ∧ (s.engFault e code).engPc e = s.engPc e := by
  have hst : ¬ eventReg (Reg.MNT_ENGe_STAT e) := not_eventReg_mnt (by simp only [Reg.MNT_ENGe_STAT]; omega) (by simp only [Reg.MNT_ENGe_STAT]; omega)
  have hpc : ¬ eventReg (Reg.MNT_ENGe_PC e) := not_eventReg_mnt (by simp only [Reg.MNT_ENGe_PC]; omega) (by simp only [Reg.MNT_ENGe_PC]; omega)
  obtain ⟨h1, -, -, h4, h5⟩ := engRegs_apart e
  unfold State.engFault
  extract_lets st s1
  have e1 : s1.reg (Reg.MNT_ENGe_STAT e) = putBit (setFld (setFld (s.reg (Reg.MNT_ENGe_STAT e)) 2 0 5) 7 4 code) 10 true := State.reg_setReg_same ..
  have e2 : s1.reg (Reg.MNT_ENGe_PC e) = s.reg (Reg.MNT_ENGe_PC e) := State.reg_setReg_ne (s.setStage e .ready) h1 _
  have hkeep : ∀ a, a ≠ Reg.MNT_STAT → ¬ eventReg a → (((s1.mntRaise e 4).logEvent 0xC8 (wd e) (s1.reg st) (wd code) (wd (s1.engPc e))).arrive (112 + e)).reg a = s1.reg a := fun a ha hne => by
    rw [State.reg_arrive (by omega) hne, (State.logEvent_noted ..).regs a hne]
    exact State.raise_reg s1 stMNT 4 _ _ _ ha hne (by intro n hn; cases hn; decide)
  have k1 := hkeep _ h4.symm hst
  have k2 := hkeep _ h5.symm hpc
  refine ⟨?_, ?_, ?_, ?_⟩
  · rw [State.engState, State.f_of_reg k1, State.f, e1, fld_putBit_out _ _ (.inr (by decide)), fld_setFld_out _ (.inl (by decide)) (by decide), fld_setFld_same _ (by decide)]
    rfl
  · rw [State.f_of_reg k1, State.f, e1, fld_putBit_out _ _ (.inr (by decide)), fld_setFld_same _ (by decide)]
    exact Nat.mod_eq_of_lt hc
  · rw [State.bit_arrive (by omega) (by decide), (State.logEvent_noted ..).bit (by decide)]
    exact State.raise_bit s1 stMNT _ _ _ (by decide) (by decide) (by intro n hn; cases hn; decide)
  · rw [State.engPc, State.f_of_reg k2, State.f_of_reg e2]
    rfl

/-! The word that an engine fetches (R181). -/

section
variable {e : Fin 8} {s : State} (hf : s.frozen = false)
include hf

theorem exec_beamWord_idle {x : Upset} (h : s.engReady e.val false = false) : exec (.beamWord e x) s = .next s :=
  (if_neg (by rw [hf]; decide)).trans (if_pos (by rw [h]; rfl))

theorem exec_beamWord_over {x : Upset} (h : s.engReady e.val false = true) (hb : s.overBudget e.val = true) : exec (.beamWord e x) s = .next (s.engFault e.val 4) :=
  (if_neg (by rw [hf]; decide)).trans ((if_neg (by rw [h]; decide)).trans (if_pos hb))

theorem exec_beamWord_fetched {x : Upset} {k : Nat} {u : State} (hk : k = beamStore + 16 * (s.engPc e.val % 16384)) (hu : u = s.upset k x)
    (h : s.engReady e.val false = true) (hb : s.overBudget e.val = false) :
    (u.mark k = .double → exec (.beamWord e x) s = .next (u.engFault e.val 7)) ∧
    (u.mark k = .none → exec (.beamWord e x) s = .next (u.engWait e.val (u.le k 16))) ∧
    (u.mark k = .single → exec (.beamWord e x) s = .next (((u.count Reg.MNT_BSCE 15 0).mntRaise e.val 2).engWait e.val (u.le k 16))) := by
  subst hk hu
  have e1 : exec (.beamWord e x) s = (match (s.upset (beamStore + 16 * (s.engPc e.val % 16384)) x).beamFetch e.val (s.engPc e.val) with
      | (some w, t) => .next (t.engWait e.val w)
      | (none, t) => .next (t.engFault e.val 7)) :=
    (if_neg (by rw [hf]; decide)).trans ((if_neg (by rw [h]; decide)).trans (if_neg (by rw [hb]; decide)))
  refine ⟨fun hm => e1.trans ?_, fun hm => e1.trans ?_, fun hm => e1.trans ?_⟩ <;> simp only [State.beamFetch, hm]

theorem exec_beamWordV1_idle {x : Upset} (h : s.engReady e.val true = false) : exec (.beamWordV1 e x) s = .next s :=
  (if_neg (by rw [hf]; decide)).trans (if_pos (by rw [h]; rfl))

theorem exec_beamWordV1_over {x : Upset} (h : s.engReady e.val true = true) (hb : s.overBudget e.val = true) : exec (.beamWordV1 e x) s = .next (s.engFault e.val 4) :=
  (if_neg (by rw [hf]; decide)).trans ((if_neg (by rw [h]; decide)).trans (if_pos hb))

theorem exec_beamWordV1_fetched {x : Upset} {k : Nat} {u : State} (hk : k = beamStore + 16 * (s.engPc e.val / 2 % 16384)) (hu : u = s.upset k x)
    (h : s.engReady e.val true = true) (hb : s.overBudget e.val = false) :
    (u.mark k = .double → exec (.beamWordV1 e x) s = .next (u.engFault e.val 7)) ∧
    (u.mark k = .none → exec (.beamWordV1 e x) s = .next (u.v1Step e.val (u.le k 16 / 2 ^ (64 * (s.engPc e.val % 2)) % 2 ^ 64))) ∧
    (u.mark k = .single → exec (.beamWordV1 e x) s =
      .next (((u.count Reg.MNT_BSCE 15 0).mntRaise e.val 2).v1Step e.val (u.le k 16 / 2 ^ (64 * (s.engPc e.val % 2)) % 2 ^ 64))) := by
  subst hk hu
  have e1 : exec (.beamWordV1 e x) s = (match (s.upset (beamStore + 16 * (s.engPc e.val / 2 % 16384)) x).beamFetch e.val (s.engPc e.val / 2) with
      | (some w, t) => .next (t.v1Step e.val (w / 2 ^ (64 * (s.engPc e.val % 2)) % 2 ^ 64))
      | (none, t) => .next (t.engFault e.val 7)) :=
    (if_neg (by rw [hf]; decide)).trans ((if_neg (by rw [h]; decide)).trans (if_neg (by rw [hb]; decide)))
  refine ⟨fun hm => e1.trans ?_, fun hm => e1.trans ?_, fun hm => e1.trans ?_⟩ <;> simp only [State.beamFetch, hm]

end

theorem State.mark_upset_none {k : Nat} {s : State} (h : s.mark k = .none) : (s.upset k .none).mark k = .none := by
  rw [State.upset, h]
  exact Sparse.get_set_same noUpset s.fab.ecc k .none

/-- A position wait that ends at once. -/
theorem State.engData_moved {e w : Nat} {u : State} (he : e < 8) (hwr : bw w 86 84 = 0) (hd : bw w 100 97 = 0) (hn : bw w 117 115 = 0) (hu : u.mnt.engines.length = 8) :
    (u.engData e w none).engState e = 1 ∧ (u.engData e w none).eng e = { u.eng e with stage := .ready } := by
  rw [State.engData_next hd hwr hn]
  have h := (u.counted e).ran_runAt (e := e) (n := (u.engPc e + 1) % 16384) (show e < u.mnt.engines.length by omega) (by omega)
  exact ⟨h.state, h.eng⟩

/-! One word, from the state in which it was fetched. -/

section
variable {e w : Nat} {s : State} (he : e < 8) (hlen : s.mnt.engines.length = 8)
include hlen he

/-- A datapath operation without wait and write, and NEXT (Table 6.4). -/
theorem State.engWait_operates {d : Nat} {b v : Word} (hwr : bw w 86 84 = 0) (hwait : bw w 127 125 = 0) (hd : d = bw w 100 97) (h0 : d ≠ 0) (h13 : d ≠ 13) (h15 : d ≠ 15)
    (hn : bw w 117 115 = 0) (hb : b = (if w.testBit 87 then wd (bw w 63 32) else s.mreg e (bw w 90 88)))
    (hv : v = datapath d (s.mreg e (bw w 93 91)) b (posWord (s.eng e).pos)) :
    (s.engWait e w).mreg e (bw w 96 94) = v ∧ (s.engWait e w).bit (Reg.MNT_ENGe_STAT e) 14 = decide (v = 0) ∧ (s.engWait e w).bit (Reg.MNT_ENGe_STAT e) 15 = bitAt v 31 ∧
      (s.engWait e w).engPc e = (s.engPc e + 1) % 16384 ∧ (s.engWait e w).engState e = 1 ∧
      (s.engWait e w).f (Reg.MNT_ENGe_WORDS e) 23 0 = (s.f (Reg.MNT_ENGe_WORDS e) 23 0 + 1) % 2 ^ 24 ∧ (s.engWait e w).mem = s.mem := by
  subst hd
  obtain ⟨a1, a2, a3, -, -⟩ := engRegs_apart e
  obtain ⟨m1, m2, m3⟩ := engMreg_apart e (bw w 96 94)
  have hst : (s.engResult e w v).reg (Reg.MNT_ENGe_STAT e) = putBit (putBit (s.reg (Reg.MNT_ENGe_STAT e)) 14 (decide (v = 0))) 15 (bitAt v 31) := State.reg_setReg_same ..
  have hkeep : ∀ a, a ≠ Reg.MNT_ENGe_STAT e → a ≠ Reg.MNT_ENGe_Mr e (bw w 96 94) → (s.engResult e w v).reg a = s.reg a := fun a h1 h2 =>
    (State.reg_setReg_ne (s.setMreg e (bw w 96 94) v) h1 _).trans (State.reg_setReg_ne s h2 _)
  have hreg : (s.engResult e w v).mreg e (bw w 96 94) = v := (State.reg_setReg_ne (s.setMreg e (bw w 96 94) v) m1 _).trans (State.reg_setReg_same ..)
  have hpc : (s.engResult e w v).engPc e = s.engPc e := State.f_of_reg (hkeep _ a1 m2.symm) 14 0
  have hw : (s.engResult e w v).f (Reg.MNT_ENGe_WORDS e) 23 0 = s.f (Reg.MNT_ENGe_WORDS e) 23 0 := State.f_of_reg (hkeep _ a2 m3.symm) 23 0
  have hmem : (s.engResult e w v).mem = s.mem := rfl
  have hl : (s.engResult e w v).mnt.engines.length = 8 := hlen
  have heq : s.engWait e w = (((s.engResult e w v).counted e).runAt e ((s.engPc e + 1) % 16384)) := by
    rw [State.engWait_free hwait, State.engData_op h0 h15 h13, ← hb, ← hv, State.engWrite_none hwr, State.engCount_acts (by omega), State.engAct_next hn,
      State.engPc_counted, hpc]
  rw [heq]
  generalize s.engResult e w v = r at hst hreg hw hmem hl
  have h := (r.counted e).ran_runAt (e := e) (n := (s.engPc e + 1) % 16384) (show e < r.mnt.engines.length by omega) (by omega)
  have hbit : ∀ i, 13 < i → ((r.counted e).runAt e ((s.engPc e + 1) % 16384)).bit (Reg.MNT_ENGe_STAT e) i = r.bit (Reg.MNT_ENGe_STAT e) i := fun i hi =>
    (h.stat i hi).trans (State.bit_of_reg (State.reg_counted_ne a2.symm r) i)
  refine ⟨(h.mreg _).trans ((State.mreg_counted ..).trans hreg), ?_, ?_, h.pc, h.state, ?_, h.mem.trans hmem⟩
  · rw [hbit 14 (by decide), State.bit, hst, bitAt_putBit_ne _ _ (by decide), bitAt_putBit_same _ _ _ (by decide)]
  · rw [hbit 15 (by decide), State.bit, hst, bitAt_putBit_same _ _ _ (by decide)]
  · rw [h.f a2 a3, State.words_counted, hw]

/-- The next-address actions of a word with no wait, no operation and no write (Table 6.3). -/
theorem State.engWait_acts (hwr : bw w 86 84 = 0) (hwait : bw w 127 125 = 0) (hd : bw w 100 97 = 0) :
    (bw w 117 115 = 1 → (s.engWait e w).engState e = 1 ∧ (s.engWait e w).engPc e = bw w 114 101) ∧
    (bw w 117 115 = 2 → realTime (bwCsel w) = false → (s.engWait e w).engState e = 1 ∧
      (s.engWait e w).engPc e = if s.bwCond e w then bw w 114 101 else (s.engPc e + 1) % 16384) ∧
    (bw w 117 115 = 3 → (s.eng e).stack.length < 8 → (s.engWait e w).engState e = 1 ∧ (s.engWait e w).engPc e = bw w 114 101 ∧
      ((s.engWait e w).eng e).stack = (s.engPc e + 1) % 16384 :: (s.eng e).stack) ∧
    (∀ (a : Nat) (rest : List Nat), bw w 117 115 = 4 → (s.eng e).stack = a :: rest → a < 16384 → (s.engWait e w).engState e = 1 ∧ (s.engWait e w).engPc e = a ∧
      ((s.engWait e w).eng e).stack = rest) ∧
    (bw w 117 115 = 3 → 8 ≤ (s.eng e).stack.length → (s.engWait e w).engState e = 5 ∧ (s.engWait e w).f (Reg.MNT_ENGe_STAT e) 7 4 = 3) ∧
    (bw w 117 115 = 5 → (s.engWait e w).engState e = 1 ∧ (s.engWait e w).engPc e = (bw w 114 101 + fld (s.mreg e (bw w 93 91)) 5 0) % 16384) ∧
    (bw w 117 115 = 6 → (s.engWait e w).engState e = 4) ∧
    (bw w 117 115 = 7 → (s.engWait e w).engState e = 5 ∧ (s.engWait e w).f (Reg.MNT_ENGe_STAT e) 7 4 = 1 ∧ (s.engWait e w).bit Reg.MNT_STAT 4 = true) := by
  have hl : e < (s.counted e).mnt.engines.length := by
    show e < s.mnt.engines.length
    omega
  have ht : bw w 114 101 < 16384 := bw_lt w 114 101
  have heq (h : bw w 117 115 ≠ 2 ∨ realTime (bwCsel w) = false) : s.engWait e w = (s.counted e).engAct e w none := by
    rw [State.engWait_free hwait, State.engData_plain hd hwr (h.imp_right .inr)]
  refine ⟨fun h => ?_, fun h hr => ?_, fun h hlen => ?_, fun a rest h hst ha => ?_, fun h hlen => ?_, fun h => ?_, fun h => ?_, fun h => ?_⟩
  · rw [heq (.inl (by omega)), State.engAct_jump h]
    have hr := State.ran_runAt (n := bw w 114 101) hl (by omega)
    exact ⟨hr.state, hr.pc⟩
  · rw [heq (.inr hr), State.engAct_test h, State.bwCond_counted hr, State.engPc_counted]
    have hr := State.ran_runAt (n := if s.bwCond e w then bw w 114 101 else (s.engPc e + 1) % 16384) hl (by split <;> omega)
    exact ⟨hr.state, hr.pc⟩
  · rw [heq (.inl (by omega)), State.engAct_call h (s := s.counted e) hlen, State.engPc_counted]
    have hr := State.ran_callAt (n := bw w 114 101) ((s.engPc e + 1) % 16384 :: ((s.counted e).eng e).stack) hl (by omega)
    exact ⟨hr.state, hr.pc, congrArg EngSt.stack hr.eng⟩
  · rw [heq (.inl (by omega)), State.engAct_return h (s := s.counted e) hst]
    have hr := State.ran_callAt (n := a) rest hl (by omega)
    exact ⟨hr.state, hr.pc, congrArg EngSt.stack hr.eng⟩
  · rw [heq (.inl (by omega)), State.engAct_deep h (s := s.counted e) hlen]
    obtain ⟨h1, h2, -, -⟩ := State.engFault_spec he (code := 3) (by decide) (s.counted e)
    exact ⟨h1, h2⟩
  · rw [heq (.inl (by omega)), State.engAct_index h, State.mreg_counted]
    have hr := State.ran_runAt (n := (bw w 114 101 + fld (s.mreg e (bw w 93 91)) 5 0) % 16384) hl (by omega)
    exact ⟨hr.state, hr.pc⟩
  · rw [heq (.inl (by omega)), State.engAct_end h]
    exact (State.engEnd_spec ..).1
  · rw [heq (.inl (by omega)), State.engAct_reserved h]
    obtain ⟨h1, h2, h3, -⟩ := State.engFault_spec he (code := 1) (by decide) (s.counted e)
    exact ⟨h1, h2, h3⟩

/-- The waits of a word with no operation, no write and NEXT (Table 6.2). -/
theorem State.engWait_waits {p : BPos} (hwr : bw w 86 84 = 0) (hd : bw w 100 97 = 0) (hn : bw w 117 115 = 0) (hp : p = (s.eng e).pos) :
    (∀ q : BPos, bw w 127 125 = 1 → q = bwPos w →
      (s.posBad q = false → (s.engWait e w).engState e = 1 ∧ ((s.engWait e w).eng e).pos = if posLt p q then q else p) ∧
      (s.posBad q = true → (s.engWait e w).engState e = 4 ∧ (s.engWait e w).bit (Reg.MNT_ENGe_STAT e) 9 = true)) ∧
    (∀ q r : BPos, bw w 127 125 = 2 → q = bwPos w → q.dot < s.dots →
      (s.linesOn p q.line q.dot = some r → (s.engWait e w).engState e = 1 ∧ ((s.engWait e w).eng e).pos = if posLt p r then r else p) ∧
      (s.linesOn p q.line q.dot = none → (s.engWait e w).engState e = 4)) ∧
    (bw w 127 125 = 3 → s.bwCond e w = false →
      (realTime (bwCsel w) = true → (s.engWait e w).engState e = 2 ∧ ((s.engWait e w).eng e).stage = .cond w) ∧
      (realTime (bwCsel w) = false → (s.engWait e w).engState e = 5 ∧ (s.engWait e w).f (Reg.MNT_ENGe_STAT e) 7 4 = 2)) ∧
    (bw w 127 125 = 5 → instLe ((s.eng e).frame, p) s.now = false → (s.engWait e w).engState e = 2 ∧ ((s.engWait e w).eng e).stage = .sync w) ∧
    (bw w 127 125 = 6 → p.sf < s.subfm1 → (s.engWait e w).engState e = 1 ∧ ((s.engWait e w).eng e).pos = ⟨p.sf + 1, 0, 0⟩) := by
  subst hp
  have hl : e < s.mnt.engines.length := by omega
  have hmove : ∀ q, ((s.moveOn e q).engData e w none).engState e = 1 ∧
      (((s.moveOn e q).engData e w none).eng e).pos = if posLt (s.eng e).pos q then q else (s.eng e).pos := fun q => by
    obtain ⟨-, h1, -, h2⟩ := State.moveOn_spec hl q
    obtain ⟨h3, h4⟩ := State.engData_moved he hwr hd hn (h1.trans hlen)
    exact ⟨h3, by rw [h4, h2]⟩
  refine ⟨?_, ?_, fun h hc => ⟨fun hr => ?_, fun hr => ?_⟩, fun h hi => ?_, fun h hs => ?_⟩
  · rintro q h rfl
    refine ⟨fun hq => ?_, fun hq => ?_⟩
    · rw [State.engWait_pos h hq]
      exact hmove _
    · rw [State.engWait_outside h hq]
      exact State.engRange_spec ..
  · rintro q r h rfl hdot
    refine ⟨fun hr => ?_, fun hr => ?_⟩
    · rw [State.engWait_lines h hdot hr]
      exact hmove _
    · rw [State.engWait_noLines h hdot hr]
      exact (State.engEnd_spec ..).1
  · rw [State.engWait_cond h hc hr]
    exact State.parked hl 2 _
  · rw [State.engWait_never h hc hr]
    obtain ⟨h1, h2, -, -⟩ := State.engFault_spec he (code := 2) (by decide) s
    exact ⟨h1, h2⟩
  · rw [State.engWait_sync h hi]
    exact State.parked hl 2 _
  · rw [State.engWait_subframe h hs]
    obtain ⟨h3, h4⟩ := State.engData_moved he hwr hd hn (u := s.engMove e ⟨(s.eng e).pos.sf + 1, 0, 0⟩) (List.length_set.trans hlen)
    exact ⟨h3, by rw [h4, State.eng_engMove hl]⟩

end

/-! v1 words (Table 6.11). -/

theorem State.v1Next_spec (e pc : Nat) (s : State) : (s.v1Next e pc).engState e = 1 ∧ (s.v1Next e pc).engPc e = pc % 32768 ∧ ∀ r, (s.v1Next e pc).mreg e r = s.mreg e r := by
  obtain ⟨a1, a2, a3, -, -⟩ := engRegs_apart e
  refine ⟨?_, ?_, fun r => ?_⟩
  · have h1 : (s.v1Next e pc).reg (Reg.MNT_ENGe_STAT e) = ((s.setStage e .ready).setEngState e 1).reg (Reg.MNT_ENGe_STAT e) :=
      (State.reg_setF_ne _ a2.symm ..).trans (State.reg_setReg_ne _ a1.symm _)
    exact (State.f_of_reg h1 2 0).trans (State.engState_setEngState ..)
  · have h1 : (s.v1Next e pc).reg (Reg.MNT_ENGe_PC e) = (((s.setStage e .ready).setEngState e 1).setEngPc e (pc % 32768)).reg (Reg.MNT_ENGe_PC e) :=
      State.reg_setF_ne _ a3.symm ..
    exact (State.f_of_reg h1 14 0).trans (State.engPc_setEngPc (by omega) ..)
  · obtain ⟨m1, m2, m3⟩ := engMreg_apart e r
    exact (State.reg_setF_ne _ m3 ..).trans ((State.reg_setReg_ne _ m2 _).trans (State.reg_setF_ne (s.setStage e .ready) m1 ..))

theorem State.v1Step_spec (e w : Nat) (s : State) :
    (bw w 63 60 = 11 → bw w 59 56 ≤ 3 → (s.v1Step e w).mreg e (bw w 59 56) = wd (bw w 31 0) ∧ (s.v1Step e w).engPc e = (s.engPc e + 1) % 32768) ∧
    (bw w 63 60 = 8 → (s.v1Step e w).engPc e = (bw w 55 32 % 32768 + 2 * s.f (Reg.MNT_ENGe_START e) 13 0) % 32768) ∧
    (bw w 63 60 = 10 → bw w 59 56 ≤ 3 → (s.v1Step e w).mreg e (bw w 59 56) = s.mreg e (bw w 59 56) - 1 ∧
      (s.v1Step e w).engPc e = (if s.mreg e (bw w 59 56) = 1 then s.engPc e + 1 else bw w 55 32 % 32768 + 2 * s.f (Reg.MNT_ENGe_START e) 13 0) % 32768) := by
  refine ⟨fun h ha => ?_, fun h => ?_, fun h ha => ?_⟩
  · have heq : s.v1Step e w = (s.setMreg e (bw w 59 56) (wd (bw w 31 0))).v1Next e (s.engPc e + 1) := by
      unfold State.v1Step
      simp only [h, gt_iff_lt, Nat.not_lt.mpr ha, if_false]
    obtain ⟨-, h2, h3⟩ := (s.setMreg e (bw w 59 56) (wd (bw w 31 0))).v1Next_spec e (s.engPc e + 1)
    rw [heq]
    exact ⟨(h3 _).trans (State.reg_setReg_same ..), h2⟩
  · have heq : s.v1Step e w = s.v1Next e (bw w 55 32 % 32768 + 2 * s.f (Reg.MNT_ENGe_START e) 13 0) := by
      unfold State.v1Step
      simp only [h]
    rw [heq]
    exact (State.v1Next_spec ..).2.1
  · have h0 : s.mreg e (bw w 59 56) - 1 = 0 ↔ s.mreg e (bw w 59 56) = 1 := by
      constructor <;> intro k <;> bv_omega
    have heq : s.v1Step e w = (s.setMreg e (bw w 59 56) (s.mreg e (bw w 59 56) - 1)).v1Next e
        (if s.mreg e (bw w 59 56) = 1 then s.engPc e + 1 else bw w 55 32 % 32768 + 2 * s.f (Reg.MNT_ENGe_START e) 13 0) := by
      unfold State.v1Step
      simp only [h, gt_iff_lt, Nat.not_lt.mpr ha, if_false, h0]
    obtain ⟨-, h2, h3⟩ := (s.setMreg e (bw w 59 56) (s.mreg e (bw w 59 56) - 1)).v1Next_spec e
      (if s.mreg e (bw w 59 56) = 1 then s.engPc e + 1 else bw w 55 32 % 32768 + 2 * s.f (Reg.MNT_ENGe_START e) 13 0)
    rw [heq]
    exact ⟨(h3 _).trans (State.reg_setReg_same ..), h2⟩

/-- Settles O15: a word fetched without error is `State.engWait` or `State.v1Step` of its bits. -/
theorem beamWords : Obligations.BeamWords := by
  unfold Obligations.BeamWords
  intro e s hf hlen
  refine ⟨fun x k u hk hu => ⟨exec_beamWord_idle hf, fun hr hb => ⟨exec_beamWord_over hf hr hb, _, exec_beamWord_over hf hr hb,
      State.engFault_spec e.isLt (by decide) s⟩, exec_beamWord_fetched hf hk hu⟩,
    fun x k u hk hu => ⟨exec_beamWordV1_idle hf, exec_beamWordV1_over hf, exec_beamWordV1_fetched hf hk hu⟩, fun w p hb hr hm hw hwr hp => ?_, fun w hb hr hm hw => ?_⟩
  · obtain ⟨u, hu⟩ : ∃ u, u = s.upset (beamStore + 16 * (s.engPc e.val % 16384)) .none := ⟨_, rfl⟩
    have hx : exec (.beamWord e .none) s = .next (u.engWait e.val w) := by
      rw [(exec_beamWord_fetched hf rfl hu hr hb).2.1 (by rw [hu]; exact State.mark_upset_none hm), hw, hu]
      rfl
    have hlu : u.mnt.engines.length = 8 := by
      rw [hu]
      exact hlen
    refine ⟨fun d b v h0 hd n0 n13 n15 hn hb' hv => ?_, fun hwait hd => ?_, fun hd hn => ?_⟩
    · obtain ⟨h1, h2, h3, h4, h5, h6, h7⟩ := State.engWait_operates (s := u) (b := b) (v := v) e.isLt hlu hwr h0 hd n0 n13 n15 hn (by rw [hu]; exact hb')
        (by rw [hu, hv, hp]; rfl)
      rw [hu] at h4 h6 h7
      exact ⟨_, hx, h1, h2, h3, hu ▸ h4, h5, hu ▸ h6, State.byte_congr (hu ▸ h7)⟩
    · obtain ⟨h1, h2, h3, h4, h5, h6, h7, h8⟩ := State.engWait_acts (s := u) e.isLt hlu hwr hwait hd
      rw [hu] at h2 h3 h4 h5 h6
      subst hu
      exact ⟨fun h => ⟨_, hx, h1 h⟩, fun h hrt => ⟨_, hx, h2 h hrt⟩, fun h hl => ⟨_, hx, h3 h hl⟩, fun a rest h hst ha => ⟨_, hx, h4 a rest h hst ha⟩, fun h hl => ⟨_, hx, h5 h hl⟩,
        fun h => ⟨_, hx, h6 h⟩, fun h => ⟨_, hx, h7 h⟩, fun h => ⟨_, hx, h8 h⟩⟩
    · subst hu
      obtain ⟨h1, h2, h3, h4, h5⟩ := State.engWait_waits (s := s.upset (beamStore + 16 * (s.engPc e.val % 16384)) .none) e.isLt hlu hwr hd hn hp
      exact ⟨fun q h hq => ⟨fun k => ⟨_, hx, (h1 q h hq).1 k⟩, fun k => ⟨_, hx, (h1 q h hq).2 k⟩⟩,
        fun q r h hq hdot => ⟨fun k => ⟨_, hx, (h2 q r h hq hdot).1 k⟩, fun k => ⟨_, hx, (h2 q r h hq hdot).2 k⟩⟩,
        fun h hc => ⟨fun k => ⟨_, hx, (h3 h hc).1 k⟩, fun k => ⟨_, hx, (h3 h hc).2 k⟩⟩, fun h k => ⟨_, hx, h4 h k⟩, fun h k => ⟨_, hx, h5 h k⟩⟩
  · obtain ⟨u, hu⟩ : ∃ u, u = s.upset (beamStore + 16 * (s.engPc e.val / 2 % 16384)) .none := ⟨_, rfl⟩
    have hx : exec (.beamWordV1 e .none) s = .next (u.v1Step e.val w) := by
      rw [(exec_beamWordV1_fetched hf rfl hu hr hb).2.1 (by rw [hu]; exact State.mark_upset_none hm), hw, hu]
      rfl
    obtain ⟨h1, h2, h3⟩ := u.v1Step_spec e.val w
    subst hu
    exact ⟨fun h ha => ⟨_, hx, h1 h ha⟩, fun h => ⟨_, hx, h2 h⟩, fun h ha => ⟨_, hx, h3 h ha⟩⟩

end Sys2Proof.Machine
end

section
/-! A port's read of the memory map, and an engine that runs on or enters a frame. -/

namespace Sys2Proof.Machine

/-! A read of a port (R14, R89). -/

theorem State.checked_portFail (port a n code : Nat) (s : State) : Checked s (s.portFail port a n code).2.2 := State.checked_errResponse ..

theorem State.checked_eccBytes (port size : Nat) {q : Nat} (hq : q < 64) (a n : Nat) (s : State) : Checked s (s.eccBytes port size q a n).2.2 := by
  have h := State.checked_eccSpan (size := size) hq a n s
  unfold State.eccBytes
  generalize s.eccSpan size q a n = r at h
  obtain ⟨c, t⟩ := r
  rcases c with - | c
  · exact h
  · exact h.trans (State.checked_portFail ..)

theorem State.checked_memRead (port a n : Nat) (s : State) : Checked s (s.memRead port a n).2.2 := by
  unfold State.memRead
  split
  · exact State.checked_sramReadBytes ..
  split
  · exact .refl s
  split
  · exact State.checked_eccBytes _ _ (by decide) ..
  split
  · split
    · exact State.checked_portFail ..
    · exact .refl s
  split
  · exact .refl s
  split
  · split
    · exact .refl s
    · exact State.checked_eccBytes _ _ (by decide) ..
  split
  · exact State.checked_eccBytes _ _ (by decide) ..
  · exact State.checked_portFail ..

theorem State.checked_portRead (port a n : Nat) (s : State) : Checked s (s.portRead port a n).2.2 := by
  unfold State.portRead
  split
  · exact State.checked_memRead ..
  · exact State.checked_portFail ..

/-! An engine at a stage of its own. -/

theorem State.eng_lt_of_stage {s : State} {e : Nat} (h : (s.eng e).stage ≠ .ready) : e < s.mnt.engines.length := by
  by_contra k
  refine h ?_
  rw [State.eng, List.getElem?_eq_none (by omega)]
  rfl

theorem State.ran_anyRunAt {e n : Nat} (hn : n < 32768) (s : State) : Ran e n ((s.runAt e n).eng e) s (s.runAt e n) where
  state := State.engState_setEngState ..
  pc := (State.engPc_setF_stat ..).trans (State.engPc_setEngPc hn ..)
  eng := rfl
  stat i hi := (State.bit_setEngState _ _ (by omega) _).trans (State.bit_of_reg (State.reg_setReg_ne (s.setStage e .ready) (engRegs_apart e).1.symm _) i)
  regs a h1 h2 := (State.reg_setF_ne _ h1 ..).trans (State.reg_setReg_ne (s.setStage e .ready) h2 _)
  mem := rfl

/-- A word with no operation, no write and NEXT lets the engine run on. -/
theorem State.engData_runsOn {e w : Nat} {c : Option Bool} (hd : bw w 100 97 = 0) (hw : bw w 86 84 = 0) (hn : bw w 117 115 = 0) (s : State) :
    (s.engData e w c).engState e = 1 ∧ (s.engData e w c).engPc e = (s.engPc e + 1) % 16384 ∧
      ∀ i, 13 < i → (s.engData e w c).bit (Reg.MNT_ENGe_STAT e) i = s.bit (Reg.MNT_ENGe_STAT e) i := by
  rw [State.engData_next hd hw hn]
  have h := (s.counted e).ran_anyRunAt (e := e) (n := (s.engPc e + 1) % 16384) (by omega)
  exact ⟨h.state, h.pc, fun i hi => (h.stat i hi).trans (State.bit_of_reg (State.reg_counted_ne (engRegs_apart e).2.1.symm s) i)⟩

/-! Frames of the engines (R158). -/

/-- Adoption leaves a register that is not staged. -/
theorem State.reg_adopt_unstaged {s : State} {a : Nat} (p : Nat → Bool) (h : ∀ x ∈ s.img.staged, x.1 ≠ a) : (s.adopt p).reg a = s.reg a := by
  have hnow : ∀ e ∈ (s.img.staged.partition fun e => p e.1).1, e.1 ≠ a := fun e he => by
    rw [List.partition_eq_filter_filter] at he
    exact h e (List.mem_filter.mp he).1
  unfold State.adopt
  generalize s.img.staged.partition (fun e => p e.1) = l at hnow
  obtain ⟨now, later⟩ := l
  have hfold : ∀ (l : List (Nat × Word)) (t : State), (∀ e ∈ l, e.1 ≠ a) →
      (l.foldl (fun t e => t.setReg e.1 ((t.reg e.1 &&& ~~~(structMask e.1)) ||| e.2)) t).reg a = t.reg a := by
    intro l
    induction l with
    | nil => exact fun _ _ => rfl
    | cons e l ih =>
      intro t hl
      obtain ⟨he, hl⟩ := List.forall_mem_cons.mp hl
      exact (ih _ hl).trans (State.reg_setReg_ne t he.symm _)
  exact hfold now s hnow

theorem State.mnt_adopt (p : Nat → Bool) (s : State) : (s.adopt p).mnt = s.mnt := by
  obtain ⟨-, regs, img, e⟩ := s.adopt_spec p
  rw [e]

/-- The state in which the blocks of the Minuet adopt what is staged. -/
def State.mntTaken (s : State) : State := if s.inFlight 3 then (s.takeGroup 3 (fun _ => true) s.latched).endFlight 3 else s

theorem State.mntEntered_cases (s : State) : s.mntEntered = s.mntTaken.adopt (fun a => decide (blockOf a = 6)) ∨ s.mntEntered = s := ite_eq_or_eq _ _ _

theorem State.img_mntTaken (s : State) : s.mntTaken.img = s.img := by
  unfold State.mntTaken
  split <;> rfl

theorem State.mnt_mntEntered (s : State) : s.mntEntered.mnt = s.mnt := by
  rcases s.mntEntered_cases with h | h
  · rw [h, State.mnt_adopt]
    unfold State.mntTaken
    split <;> rfl
  · rw [h]

theorem State.reg_mntEntered {s : State} {a : Nat} (hg : groupOf a = none) (hc : a ≠ Reg.COT_INFLIGHT) (hs : ∀ x ∈ s.img.staged, x.1 ≠ a) :
    s.mntEntered.reg a = s.reg a := by
  rcases s.mntEntered_cases with h | h
  · rw [h, State.reg_adopt_unstaged _ (by rw [State.img_mntTaken]; exact hs)]
    unfold State.mntTaken
    split
    · rw [State.reg_endFlight_ne _ _ hc, State.reg_takeGroup, if_neg (by rw [hg]; exact fun h => nomatch h.1)]
    · rfl
  · rw [h]

/-- Without a group in flight or a structure set staged no register changes. -/
theorem State.reg_mntEntered_calm {s : State} (hi : s.inFlight 3 = false) (hs : s.img.staged = []) (a : Nat) : s.mntEntered.reg a = s.reg a := by
  rcases s.mntEntered_cases with h | h
  · rw [h, State.reg_adopt_unstaged _ (by rw [State.img_mntTaken, hs]; exact fun x hx => nomatch hx), State.mntTaken, if_neg (by rw [hi]; decide)]
  · rw [h]

/-- What the start of a frame leaves of an engine. -/
structure EngStarted (e n : Nat) (s t : State) : Prop where
  frame : (t.eng e).frame = n
  pos : (t.eng e).pos = ⟨0, 0, 0⟩
  stage : (t.eng e).stage = .ready
  img : t.img = s.img
  runs : s.bit (Reg.MNT_ENGe_CTRL e) 0 = true → t.engState e = 1 ∧ (t.eng e).stack = [] ∧
    (s.bit (Reg.MNT_ENGe_CTRL e) 1 = false → t.engPc e = s.f (Reg.MNT_ENGe_START e) 13 0)
  off : s.bit (Reg.MNT_ENGe_CTRL e) 0 = false → t.engState e = 0
  stat : t.bit (Reg.MNT_ENGe_STAT e) 8 = s.bit (Reg.MNT_ENGe_STAT e) 8
  regs : ∀ a, a ≠ Reg.MNT_ENGe_STAT e → a ≠ Reg.MNT_ENGe_PC e → a ≠ Reg.MNT_ENGe_WORDS e → t.reg a = s.reg a

/-- The engine at the start of frame `n`. -/
def State.engPlaced (e n : Nat) (s : State) : State :=
  let v1 := match s.img.staged.find? (fun x => decide (x.1 = Reg.MNT_V1MAP)) with
    | some x => x.2
    | none => s.reg Reg.MNT_V1MAP
  s.setEng e { s.eng e with frame := n, pos := ⟨0, 0, 0⟩, stage := .ready, v1map := v1 }

/-- It runs, with its call stack empty and no word counted, or is off. -/
def State.engLaunched (e : Nat) (s2 : State) : State :=
  if s2.bit (Reg.MNT_ENGe_CTRL e) 0 then
    let start := s2.f (Reg.MNT_ENGe_START e) 13 0
    let s3 := (s2.setEngPc e (if s2.bit (Reg.MNT_ENGe_CTRL e) 1 then 2 * start else start)).setStack e []
    (s3.setReg (Reg.MNT_ENGe_STAT e) (setFld (setFld (s3.reg (Reg.MNT_ENGe_STAT e)) 16 14 0) 2 0 1)).setReg (Reg.MNT_ENGe_WORDS e) 0
  else s2.setEngState e 0

theorem State.engStart_eq (e n : Nat) (s : State) : s.engStart e n = (s.engPlaced e n).engLaunched e := rfl

theorem State.engLaunched_off {e : Nat} {u : State} (hb : u.bit (Reg.MNT_ENGe_CTRL e) 0 = false) : u.engLaunched e = u.setEngState e 0 := if_neg (by rw [hb]; decide)

/-- The registers of an engine that is launched. -/
theorem State.engLaunched_runs {e : Nat} {u : State} (he : e < u.mnt.engines.length) (hb : u.bit (Reg.MNT_ENGe_CTRL e) 0 = true) :
    (u.engLaunched e).engState e = 1 ∧ (u.engLaunched e).eng e = { u.eng e with stack := [] } ∧ (u.engLaunched e).img = u.img ∧
    (u.bit (Reg.MNT_ENGe_CTRL e) 1 = false → (u.engLaunched e).engPc e = u.f (Reg.MNT_ENGe_START e) 13 0) ∧
    (u.engLaunched e).bit (Reg.MNT_ENGe_STAT e) 8 = u.bit (Reg.MNT_ENGe_STAT e) 8 ∧
    (∀ a, a ≠ Reg.MNT_ENGe_STAT e → a ≠ Reg.MNT_ENGe_PC e → a ≠ Reg.MNT_ENGe_WORDS e → (u.engLaunched e).reg a = u.reg a) := by
  obtain ⟨a1, a2, a3, -, -⟩ := engRegs_apart e
  unfold State.engLaunched
  rw [if_pos hb]
  dsimp only
  generalize hpc : (if u.bit (Reg.MNT_ENGe_CTRL e) 1 then 2 * u.f (Reg.MNT_ENGe_START e) 13 0 else u.f (Reg.MNT_ENGe_START e) 13 0) = pc
  have hstk : ((u.setEngPc e pc).setStack e []).eng e = { u.eng e with stack := [] } := State.eng_setEng_same (s := u.setEngPc e pc) he _
  have hst : ((u.setEngPc e pc).setStack e []).bit (Reg.MNT_ENGe_STAT e) 8 = u.bit (Reg.MNT_ENGe_STAT e) 8 := by
    simp only [State.bit, State.setStack, State.setF, State.reg_setReg_same]
    rw [bitAt_setFld_out _ (.inl (by decide)) (by decide)]
    exact congrArg (bitAt · 8) (State.reg_setReg_ne u a1.symm _)
  have hkeep : ∀ a, a ≠ Reg.MNT_ENGe_STAT e → a ≠ Reg.MNT_ENGe_PC e → ((u.setEngPc e pc).setStack e []).reg a = u.reg a := fun a h1 h2 =>
    (State.reg_setF_ne _ h1 ..).trans (State.reg_setReg_ne u h2 _)
  have hpcv : ((u.setEngPc e pc).setStack e []).engPc e = (u.setEngPc e pc).engPc e := State.engPc_setF_stat ..
  have himg : ((u.setEngPc e pc).setStack e []).img = u.img := rfl
  generalize (u.setEngPc e pc).setStack e [] = t at hstk hst hkeep hpcv himg
  have hfin : ∀ v : Word, ((t.setReg (Reg.MNT_ENGe_STAT e) v).setReg (Reg.MNT_ENGe_WORDS e) 0).reg (Reg.MNT_ENGe_STAT e) = v := fun v =>
    (State.reg_setReg_ne _ a2.symm _).trans (State.reg_setReg_same ..)
  have hother : ∀ (v : Word) (a : Nat), a ≠ Reg.MNT_ENGe_STAT e → a ≠ Reg.MNT_ENGe_WORDS e →
      ((t.setReg (Reg.MNT_ENGe_STAT e) v).setReg (Reg.MNT_ENGe_WORDS e) 0).reg a = t.reg a := fun v a h1 h2 =>
    (State.reg_setReg_ne _ h2 _).trans (State.reg_setReg_ne t h1 v)
  refine ⟨?_, hstk, himg, fun h1 => ?_, ?_, fun a h1 h2 h3 => (hother _ a h1 h3).trans (hkeep a h1 h2)⟩
  · rw [State.engState, State.f, hfin, fld_setFld_same _ (by decide)]
    rfl
  · rw [State.engPc, State.f_of_reg (hother _ _ a1 a3.symm)]
    refine hpcv.trans ?_
    have hlt : u.f (Reg.MNT_ENGe_START e) 13 0 < 16384 := fld_lt ..
    rw [← hpc, if_neg (by rw [h1]; decide)]
    exact State.engPc_setEngPc (by omega) ..
  · rw [State.bit, hfin, bitAt_setFld_out _ (.inr (by decide)) (by decide), bitAt_setFld_out _ (.inl (by decide)) (by decide)]
    exact hst

theorem State.engStarted {s : State} {e : Nat} (he : e < s.mnt.engines.length) (n : Nat) : EngStarted e n s (s.engStart e n) := by
  obtain ⟨v1, hx⟩ : ∃ v1, (s.engPlaced e n).eng e = { s.eng e with frame := n, pos := ⟨0, 0, 0⟩, stage := .ready, v1map := v1 } := ⟨_, State.eng_setEng_same he _⟩
  have hlen : e < (s.engPlaced e n).mnt.engines.length := by
    show e < (s.mnt.engines.set e _).length
    rw [List.length_set]
    exact he
  have hreg : ∀ a, (s.engPlaced e n).reg a = s.reg a := fun _ => rfl
  have himg : (s.engPlaced e n).img = s.img := rfl
  rw [State.engStart_eq]
  generalize s.engPlaced e n = u at hx hlen hreg himg
  have hbit : ∀ a i, u.bit a i = s.bit a i := fun a i => State.bit_of_reg (hreg a) i
  cases hb : s.bit (Reg.MNT_ENGe_CTRL e) 0
  · rw [State.engLaunched_off ((hbit ..).trans hb)]
    have hxe : (u.setEngState e 0).eng e = u.eng e := rfl
    exact ⟨by rw [hxe, hx], by rw [hxe, hx], by rw [hxe, hx], himg, fun h => absurd (hb.symm.trans h) (by decide), fun _ => State.engState_setEngState ..,
      (State.bit_setEngState _ _ (by decide) u).trans (hbit ..), fun a h1 _ _ => (State.reg_setEngState_ne h1 0 u).trans (hreg a)⟩
  · obtain ⟨h1, h2, h3, h4, h5, h6⟩ := State.engLaunched_runs hlen ((hbit ..).trans hb)
    exact ⟨by rw [h2, hx], by rw [h2, hx], by rw [h2, hx], h3.trans himg, fun _ => ⟨h1, by rw [h2], fun k => (h4 ((hbit ..).trans k)).trans (State.f_of_reg (hreg _) ..)⟩,
      fun h => absurd (hb.symm.trans h) (by decide), h5.trans (hbit ..), fun a k1 k2 k3 => (h6 a k1 k2 k3).trans (hreg a)⟩

/-! The next frame of an engine (R158, R159). -/

theorem groupOf_engStat (e : Fin 8) : groupOf (Reg.MNT_ENGe_STAT e.val) = none ∧ groupOf Reg.MNT_STAT = none := by
  revert e
  decide +kernel

/-- The state in which an engine takes what is in flight for its own registers. -/
def State.engTaken (e : Nat) (s : State) : State :=
  if s.inFlight 3 then s.takeGroup 3 (fun a => decide (Reg.MNT_ENGe_CTRL e ≤ a) && decide (a ≤ Reg.MNT_ENGe_BUDGET e)) s.latched else s

theorem State.engNext_marked {s : State} {e : Nat} (h : s.marked (s.eng e).frame = true) :
    s.engNext e = ((s.engTaken e).engStart e ((s.eng e).frame + 1)).mntEntered := if_pos h

theorem State.engNext_unmarked {s : State} {e : Nat} (h : s.marked (s.eng e).frame = false) : s.engNext e = s := if_neg (by rw [h]; decide)

theorem State.engTaken_spec (e : Nat) (s : State) : (s.engTaken e).mnt = s.mnt ∧ (s.engTaken e).img = s.img ∧
    (∀ a, groupOf a = none → (s.engTaken e).reg a = s.reg a) ∧ (s.inFlight 3 = false → s.engTaken e = s) := by
  refine ⟨?_, ?_, fun a ha => ?_, fun h => if_neg (by rw [h]; decide)⟩
  · unfold State.engTaken
    split <;> rfl
  · unfold State.engTaken
    split <;> rfl
  · unfold State.engTaken
    split
    · rw [State.reg_takeGroup, if_neg (by rw [ha]; exact fun h => nomatch h.1)]
    · rfl

/-- An engine enters its next frame. -/
theorem State.engNext_enters {s : State} {e : Nat} (he : e < s.mnt.engines.length) (h : s.marked (s.eng e).frame = true) :
    ((s.engNext e).eng e).frame = (s.eng e).frame + 1 ∧ ((s.engNext e).eng e).pos = ⟨0, 0, 0⟩ ∧ ((s.engNext e).eng e).stage = .ready ∧
    (s.inFlight 3 = false → s.img.staged = [] → s.bit (Reg.MNT_ENGe_CTRL e) 0 = true → (s.engNext e).engState e = 1 ∧ ((s.engNext e).eng e).stack = [] ∧
      (s.bit (Reg.MNT_ENGe_CTRL e) 1 = false → (s.engNext e).engPc e = s.f (Reg.MNT_ENGe_START e) 13 0)) ∧
    (s.inFlight 3 = false → s.img.staged = [] → s.bit (Reg.MNT_ENGe_CTRL e) 0 = false → (s.engNext e).engState e = 0) := by
  obtain ⟨hm, himg, -, hcalm⟩ := s.engTaken_spec e
  have hst := State.engStarted (show e < (s.engTaken e).mnt.engines.length by rw [hm]; exact he) ((s.eng e).frame + 1)
  rw [State.engNext_marked h, State.eng_of_mnt (State.mnt_mntEntered _)]
  have hreg : s.inFlight 3 = false → s.img.staged = [] → ∀ a,
      ((s.engTaken e).engStart e ((s.eng e).frame + 1)).mntEntered.reg a = ((s.engTaken e).engStart e ((s.eng e).frame + 1)).reg a := fun hi hs => by
    have hfl : ((s.engTaken e).engStart e ((s.eng e).frame + 1)).inFlight 3 = false := by
      refine (State.bit_of_reg (hst.regs Reg.COT_INFLIGHT ?_ ?_ ?_) 3).trans ?_
      · simp only [Reg.COT_INFLIGHT, Reg.MNT_ENGe_STAT]
        omega
      · simp only [Reg.COT_INFLIGHT, Reg.MNT_ENGe_PC]
        omega
      · simp only [Reg.COT_INFLIGHT, Reg.MNT_ENGe_WORDS]
        omega
      · rw [hcalm hi]
        exact hi
    exact State.reg_mntEntered_calm hfl (by rw [hst.img, himg, hs])
  refine ⟨hst.frame, hst.pos, hst.stage, fun hi hs hb => ?_, fun hi hs hb => ?_⟩
  · have e0 := hcalm hi
    obtain ⟨h1, h2, h3⟩ := hst.runs (by rw [e0]; exact hb)
    refine ⟨(State.f_of_reg (hreg hi hs _) ..).trans h1, h2, fun hb1 => (State.f_of_reg (hreg hi hs _) ..).trans ((h3 (by rw [e0]; exact hb1)).trans (by rw [e0]))⟩
  · have e0 := hcalm hi
    exact (State.f_of_reg (hreg hi hs _) ..).trans (hst.off (by rw [e0]; exact hb))

/-- An engine's status of an overrun stays as it enters a frame. -/
theorem State.engNext_status {s : State} {e : Fin 8} (he : e.val < s.mnt.engines.length) (hs : ∀ x ∈ s.img.staged, x.1 ≠ Reg.MNT_STAT ∧ x.1 ≠ Reg.MNT_ENGe_STAT e.val)
    (hr : (s.eng e.val).stage = .ready) : (s.engNext e.val).reg Reg.MNT_STAT = s.reg Reg.MNT_STAT ∧
      (s.engNext e.val).bit (Reg.MNT_ENGe_STAT e.val) 8 = s.bit (Reg.MNT_ENGe_STAT e.val) 8 ∧ ((s.engNext e.val).eng e.val).stage = .ready := by
  cases h : s.marked (s.eng e.val).frame
  · rw [State.engNext_unmarked h]
    exact ⟨rfl, rfl, hr⟩
  obtain ⟨g1, g2⟩ := groupOf_engStat e
  obtain ⟨hm, himg, hg, -⟩ := s.engTaken_spec e.val
  have hst := State.engStarted (show e.val < (s.engTaken e.val).mnt.engines.length by rw [hm]; exact he) ((s.eng e.val).frame + 1)
  have hstaged : ∀ x ∈ ((s.engTaken e.val).engStart e.val ((s.eng e.val).frame + 1)).img.staged, x.1 ≠ Reg.MNT_STAT ∧ x.1 ≠ Reg.MNT_ENGe_STAT e.val := by
    rw [hst.img, himg]
    exact hs
  obtain ⟨-, -, -, a4, a5⟩ := engRegs_apart e.val
  rw [State.engNext_marked h, State.eng_of_mnt (State.mnt_mntEntered _)]
  refine ⟨?_, ?_, hst.stage⟩
  · rw [State.reg_mntEntered g2 (by decide) fun x hx => (hstaged x hx).1, hst.regs _ a4 a5 (by simp only [Reg.MNT_STAT, Reg.MNT_ENGe_WORDS]; omega), hg _ g2]
  · have hne : Reg.MNT_ENGe_STAT e.val ≠ Reg.COT_INFLIGHT := by
      simp only [Reg.COT_INFLIGHT, Reg.MNT_ENGe_STAT]
      omega
    rw [State.bit_of_reg (State.reg_mntEntered g1 hne fun x hx => (hstaged x hx).2), hst.stat, State.bit_of_reg (hg _ g1)]

theorem State.eng_beamAt (p : BPos) (s : State) (e : Nat) : (s.beamAt p).eng e = s.eng e := State.eng_of_mnt (State.mnt_beamAt p s) e

theorem State.engPc_beamAt (p : BPos) (s : State) (e : Nat) : (s.beamAt p).engPc e = s.engPc e := State.f_of_reg (State.reg_of_regs (State.regs_beamAt p s) _) 14 0

/-- A change of the engine alone, and its state, leave its PC and the bits above its state. -/
theorem State.wakes (e : Nat) (s : State) : ((s.setStage e .ready).setEngState e 1).engPc e = s.engPc e :=
  (State.engPc_setF_stat ..).trans rfl

theorem State.engPc_setTout (e : Nat) (b : Bool) (s : State) : (s.setTout e b).engPc e = s.engPc e := State.f_of_reg (State.reg_setBit_ne s (engRegs_apart e).1 ..) 14 0

theorem State.regs_useEvent (e c : Nat) (s : State) : (s.useEvent e c).regs = s.regs := by
  unfold State.useEvent
  split <;> rfl

section
variable {e : Fin 8} {s u : State} {p : BPos} (hf : s.frozen = false) (hu : u = s.beamAt p)
include hf hu

/-- Where no wait stands nothing changes but the place of the beam. -/
theorem exec_waitEnd_ready (h : (u.eng e.val).stage = .ready) : exec (.realtimeWaitEnd e p) s = .next u ∧ exec (.syncWaitEnd e p) s = .next u := by
  subst hu
  constructor
  · refine (if_neg (by rw [hf]; decide)).trans ?_
    dsimp only
    rw [h]
  · refine (if_neg (by rw [hf]; decide)).trans ?_
    rw [h]

/-- The position at which a real-time wait ends. -/
def State.endPos (e : Nat) (s : State) : BPos := if (s.eng e).frame = s.beam.frame ∧ posLt (s.eng e).pos s.beam.pos = true then s.beam.pos else (s.eng e).pos

theorem exec_condEnd {w : Nat} (h : (u.eng e.val).stage = .cond w) : exec (.realtimeWaitEnd e p) s =
    if u.bit (Reg.MNT_ENGe_CTRL e.val) 1 then
      if u.bit Reg.MNT_GFLAG (bw w 59 56) then
        .next ((((u.setStage e.val .ready).setEngState e.val 1).engMove e.val (u.endPos e.val)).v1Next e.val (u.engPc e.val + 1)) else .next u
    else if u.bwCond e.val w then
      let t := (((u.setStage e.val .ready).setEngState e.val 1).engMove e.val (u.endPos e.val)).useEvent e.val (bwCsel w)
      .next ((if bw w 127 125 = 4 then t.setTout e.val false else t).engData e.val w (some true))
    else if bw w 127 125 = 4 ∧ instLe ((u.eng e.val).frame, bwPos w) u.now = true then
      let run := (u.setStage e.val .ready).setEngState e.val 1
      .next (((if posLt (u.eng e.val).pos (bwPos w) then run.engMove e.val (bwPos w) else run).setTout e.val true).engData e.val w (some false))
    else .next u := by
  subst hu
  refine (if_neg (by rw [hf]; decide)).trans ?_
  dsimp only
  rw [h]
  rfl

theorem exec_sampleEnd {w : Nat} (h : (u.eng e.val).stage = .sample w) : exec (.realtimeWaitEnd e p) s =
    if instLe ((u.eng e.val).frame, (u.eng e.val).pos) u.now then .next (u.engAct e.val w (some (u.bwCond e.val w))) else .next u := by
  subst hu
  refine (if_neg (by rw [hf]; decide)).trans ?_
  dsimp only
  rw [h]

theorem exec_syncEnd {w : Nat} (h : (u.eng e.val).stage = .sync w) : exec (.syncWaitEnd e p) s =
    if instLe ((u.eng e.val).frame, (u.eng e.val).pos) u.now then .next (((u.setStage e.val .ready).setEngState e.val 1).engData e.val w none) else .next u := by
  subst hu
  refine (if_neg (by rw [hf]; decide)).trans ?_
  rw [h]

end

section
variable {e : Fin 8} {s : State} (hf : s.frozen = false)
include hf

theorem exec_ldReturn {w a : Nat} {c : Option Bool} (h : (s.eng e.val).stage = .load w a c) : exec (.ldReturn e) s =
    if (s.portRead 13 a 4).1 ≠ 0 then .next ((s.portRead 13 a 4).2.2.engFault e.val 6)
    else .next ((((s.portRead 13 a 4).2.2.setStage e.val .ready).engResult e.val w (leWord (s.portRead 13 a 4).2.1)).engWrite e.val w c) := by
  refine (if_neg (by rw [hf]; decide)).trans ?_
  rw [h]

theorem exec_stallEnd {w : Nat} {c : Option Bool} (h : (s.eng e.val).stage = .stall w c) : exec (.queueStallEnd e) s =
    if s.bit (Reg.MNT_ENGe_CTRL e.val) 1 then
      if s.shareFull e.val 1 then .next s else .next (((s.setStage e.val .ready).setEngState e.val 1).v1Step e.val w)
    else if s.shareFull e.val (bw w 86 84) then .next s
    else .next (((s.setStage e.val .ready).setEngState e.val 1).engWrite e.val w c) := by
  refine (if_neg (by rw [hf]; decide)).trans ?_
  rw [h]

theorem exec_engine_ready (h : (s.eng e.val).stage = .ready) : exec (.ldReturn e) s = .next s ∧ exec (.queueStallEnd e) s = .next s := by
  constructor
  · refine (if_neg (by rw [hf]; decide)).trans ?_
    rw [h]
  · refine (if_neg (by rw [hf]; decide)).trans ?_
    rw [h]

end

/-! The clauses on waits. -/

/-- The end of a wait for a condition, by it or by the position (R165). -/
theorem condEnd_clauses {e : Fin 8} {s u : State} {p : BPos} {w : Nat} (hf : s.frozen = false) (hu : u = s.beamAt p) (hv2 : s.bit (Reg.MNT_ENGe_CTRL e.val) 1 = false)
    (hn : bw w 117 115 = 0) (hd : bw w 100 97 = 0) (hw : bw w 86 84 = 0) (h : (u.eng e.val).stage = .cond w) :
    (u.bwCond e.val w = true → Completes (.realtimeWaitEnd e p) s fun t => t.engState e.val = 1 ∧ t.engPc e.val = (s.engPc e.val + 1) % 16384) ∧
    (u.bwCond e.val w = false → bw w 127 125 = 4 → instLe ((u.eng e.val).frame, bwPos w) u.now = true → Completes (.realtimeWaitEnd e p) s fun t =>
      t.engState e.val = 1 ∧ t.engPc e.val = (s.engPc e.val + 1) % 16384 ∧ t.bit (Reg.MNT_ENGe_STAT e.val) 16 = true) ∧
    (u.bwCond e.val w = false → bw w 127 125 ≠ 4 ∨ instLe ((u.eng e.val).frame, bwPos w) u.now = false → exec (.realtimeWaitEnd e p) s = .next u) := by
  have hx := exec_condEnd hf hu h
  have hpc : u.engPc e.val = s.engPc e.val := by
    rw [hu]
    exact State.engPc_beamAt ..
  have hb : u.bit (Reg.MNT_ENGe_CTRL e.val) 1 = false := by
    rw [hu, State.bit_of_reg (State.reg_of_regs (State.regs_beamAt p s) _)]
    exact hv2
  rw [if_neg (by rw [hb]; decide)] at hx
  refine ⟨fun hc => ?_, fun hc h4 hi => ?_, fun hc hi => ?_⟩
  · rw [if_pos hc] at hx
    refine ⟨_, hx, ?_⟩
    dsimp only
    generalize ht : (((u.setStage e.val .ready).setEngState e.val 1).engMove e.val (u.endPos e.val)).useEvent e.val (bwCsel w) = t
    have hpt : t.engPc e.val = s.engPc e.val := by
      rw [← ht]
      exact (State.f_of_reg (State.reg_of_regs (State.regs_useEvent ..) _) 14 0).trans ((State.wakes e.val u).trans hpc)
    have hpt2 : (if bw w 127 125 = 4 then t.setTout e.val false else t).engPc e.val = s.engPc e.val := by
      split
      · exact (State.engPc_setTout ..).trans hpt
      · exact hpt
    obtain ⟨h1, h2, -⟩ := State.engData_runsOn (c := some true) hd hw hn (e := e.val) (if bw w 127 125 = 4 then t.setTout e.val false else t)
    exact ⟨h1, h2.trans (by rw [hpt2])⟩
  · rw [if_neg (by rw [hc]; decide), if_pos ⟨h4, hi⟩] at hx
    refine ⟨_, hx, ?_⟩
    dsimp only
    generalize ht : (if posLt (u.eng e.val).pos (bwPos w) then ((u.setStage e.val .ready).setEngState e.val 1).engMove e.val (bwPos w)
      else (u.setStage e.val .ready).setEngState e.val 1) = t
    have hpt : t.engPc e.val = s.engPc e.val := by
      rw [← ht]
      split
      · exact (State.wakes e.val u).trans hpc
      · exact (State.wakes e.val u).trans hpc
    obtain ⟨h1, h2, h3⟩ := State.engData_runsOn (c := some false) hd hw hn (e := e.val) (t.setTout e.val true)
    exact ⟨h1, h2.trans (by rw [State.engPc_setTout, hpt]), (h3 16 (by decide)).trans (t.bit_setBit_same _ true (by decide))⟩
  · rw [if_neg (by rw [hc]; decide), if_neg] at hx
    · exact hx
    · rintro ⟨h4, hi'⟩
      rcases hi with hi | hi
      · exact hi h4
      · rw [hi] at hi'
        cases hi'

/-- A v1 engine's wait for a Gavotte flag. -/
theorem condEnd_v1 {e : Fin 8} {s u : State} {p : BPos} {w : Nat} (hf : s.frozen = false) (hu : u = s.beamAt p) (h : (u.eng e.val).stage = .cond w)
    (hv1 : s.bit (Reg.MNT_ENGe_CTRL e.val) 1 = true) :
    (u.bit Reg.MNT_GFLAG (bw w 59 56) = true → Completes (.realtimeWaitEnd e p) s fun t => t.engState e.val = 1 ∧ t.engPc e.val = (s.engPc e.val + 1) % 32768) ∧
    (u.bit Reg.MNT_GFLAG (bw w 59 56) = false → exec (.realtimeWaitEnd e p) s = .next u) := by
  have hx := exec_condEnd hf hu h
  have hb : u.bit (Reg.MNT_ENGe_CTRL e.val) 1 = true := by
    rw [hu, State.bit_of_reg (State.reg_of_regs (State.regs_beamAt p s) _)]
    exact hv1
  have hpc : u.engPc e.val = s.engPc e.val := by
    rw [hu]
    exact State.engPc_beamAt ..
  rw [if_pos hb] at hx
  refine ⟨fun hc => ?_, fun hc => by rw [hx, if_neg (by rw [hc]; decide)]⟩
  rw [if_pos hc] at hx
  obtain ⟨h1, h2, -⟩ := (((u.setStage e.val .ready).setEngState e.val 1).engMove e.val (u.endPos e.val)).v1Next_spec e.val (u.engPc e.val + 1)
  exact ⟨_, hx, h1, h2.trans (by rw [hpc])⟩

/-- A word read by an LD (R167). -/
theorem ldReturn_clauses {e : Fin 8} {s : State} {w a : Nat} {c : Option Bool} (hf : s.frozen = false) (h : (s.eng e.val).stage = .load w a c) :
    ((s.portRead 13 a 4).1 = 0 → bw w 117 115 = 0 → bw w 86 84 = 0 → Completes (.ldReturn e) s fun t =>
      t.mreg e.val (bw w 96 94) = leWord (s.portRead 13 a 4).2.1 ∧ t.engPc e.val = (s.engPc e.val + 1) % 16384) ∧
    ((s.portRead 13 a 4).1 ≠ 0 → exec (.ldReturn e) s = .next ((s.portRead 13 a 4).2.2.engFault e.val 6) ∧
      Completes (.ldReturn e) s fun t => t.engState e.val = 5 ∧ t.f (Reg.MNT_ENGe_STAT e.val) 7 4 = 6) := by
  have hx := exec_ldReturn hf h
  have hchk := s.checked_portRead 13 a 4
  refine ⟨fun h0 hn hw => ?_, fun h0 => ?_⟩
  · rw [if_neg (not_not.mpr h0)] at hx
    refine ⟨_, hx, ?_⟩
    generalize (s.portRead 13 a 4).2.2 = u at hchk
    generalize leWord (s.portRead 13 a 4).2.1 = v
    obtain ⟨a1, a2, a3, -, -⟩ := engRegs_apart e.val
    obtain ⟨m1, m2, m3⟩ := engMreg_apart e.val (bw w 96 94)
    have hreg : ((u.setStage e.val .ready).engResult e.val w v).mreg e.val (bw w 96 94) = v :=
      (State.reg_setReg_ne ((u.setStage e.val .ready).setMreg e.val (bw w 96 94) v) m1 _).trans (State.reg_setReg_same ..)
    have hpc : ((u.setStage e.val .ready).engResult e.val w v).engPc e.val = s.engPc e.val := by
      refine State.f_of_reg ((State.reg_setReg_ne ((u.setStage e.val .ready).setMreg e.val (bw w 96 94) v) a1 _).trans ((State.reg_setReg_ne (u.setStage e.val .ready) m2.symm _).trans
        (hchk.regs _ (not_eventReg_mnt ?_ ?_) ?_))) 14 0
      · simp only [Reg.MNT_ENGe_PC]
        omega
      · simp only [Reg.MNT_ENGe_PC]
        omega
      · simp only [mrcReg, Reg.MNT_ENGe_PC]
        omega
    generalize (u.setStage e.val .ready).engResult e.val w v = r at hreg hpc
    rw [State.engWrite_none hw, State.engCount_acts (by omega), State.engAct_next hn, State.engPc_counted, hpc]
    have hr := (r.counted e.val).ran_anyRunAt (e := e.val) (n := (s.engPc e.val + 1) % 16384) (by omega)
    exact ⟨(hr.mreg _).trans ((State.mreg_counted ..).trans hreg), hr.pc⟩
  · rw [if_pos h0] at hx
    obtain ⟨h1, h2, -, -⟩ := State.engFault_spec e.isLt (code := 6) (by decide) (s.portRead 13 a 4).2.2
    exact ⟨hx, _, hx, h1, h2⟩

/-- A raster write that was stalled is issued at the engine position (R173). -/
theorem State.engWrite_issues {e w r : Nat} {c : Option Bool} {s : State} (he : e < s.mnt.engines.length) (hn : bw w 117 115 = 0) (hsp : bw w 86 84 = 1)
    (hr : rasterTarget 1 (bw w 83 68) = some r) (hi : w.testBit 67 = true) (hs : s.shareFull e 1 = false) :
    (((s.setStage e .ready).setEngState e 1).engWrite e w c).mnt.issued = s.mnt.issued ++ [⟨e, s.mnt.seq, (s.eng e).frame, (s.eng e).pos.sf, (s.eng e).pos.line,
      (s.eng e).pos.dot, r, wd (bw w 63 32)⟩] ∧ (((s.setStage e .ready).setEngState e 1).engWrite e w c).engPc e = (s.engPc e + 1) % 16384 := by
  have hshare : ((s.setStage e .ready).setEngState e 1).shareFull e 1 = false := hs
  have heng : ((s.setStage e .ready).setEngState e 1).eng e = { s.eng e with stage := .ready } := State.eng_setStage he .ready
  have hiss : ((s.setStage e .ready).setEngState e 1).mnt.issued = s.mnt.issued ∧ ((s.setStage e .ready).setEngState e 1).mnt.seq = s.mnt.seq := ⟨rfl, rfl⟩
  have hpc : ((s.setStage e .ready).setEngState e 1).engPc e = s.engPc e := State.wakes e s
  generalize (s.setStage e .ready).setEngState e 1 = u at hshare heng hiss hpc
  have heq : u.engWrite e w c = ((u.setEngState e 1).issueRaster e r (wd (bw w 63 32))).engCount e w c := by
    unfold State.engWrite
    dsimp only
    rw [hsp, if_neg (by decide), if_neg (by decide), hr, hi, hshare]
    rfl
  rw [heq, State.engCount_acts (by omega), State.engAct_next hn, State.engPc_counted]
  have hpc2 : ((u.setEngState e 1).issueRaster e r (wd (bw w 63 32))).engPc e = s.engPc e := (State.engPc_setF_stat ..).trans hpc
  rw [hpc2]
  refine ⟨?_, (State.ran_anyRunAt (by omega) _).pc⟩
  have hx : (u.setEngState e 1).eng e = u.eng e := rfl
  have hm : (u.setEngState e 1).mnt = u.mnt := rfl
  show (u.setEngState e 1).mnt.issued ++ [_] = _
  rw [hx, hm, heng, hiss.1, hiss.2]

/-! Frames, overruns and faults of an engine (R158, R159, R179). -/

theorem find_engStat (e : Fin 8) : (RegMap.find (Reg.MNT_ENGe_STAT e.val)).isNone = false := by
  revert e
  decide +kernel

theorem exec_engineFaultClear {m : Acc} {e : Fin 8} {s : State} (hm : m.debug = false) (hoff : s.targetOff (Reg.MNT_ENGe_STAT e.val) = false) :
    exec (.engineFaultClear m e) s = .next (((s.setReg (Reg.MNT_ENGe_STAT e.val) (s.reg (Reg.MNT_ENGe_STAT e.val))).engFaultClear e.val).reply 0 0) := by
  have he := e.isLt
  have hb : blockOf (Reg.MNT_ENGe_STAT e.val) = 6 := blockOf_eq (by simp only [Reg.MNT_ENGe_STAT]; omega) (by decide)
  have hword : RegWord (Reg.MNT_ENGe_STAT e.val) := by
    simp only [Reg.MNT_ENGe_STAT]
    refine ⟨?_, by omega, ?_⟩
    · simp only [inRegs, Bool.and_eq_true, decide_eq_true_eq]
      unfold regBase
      omega
    · unfold regEnd
      omega
  have hp : regProt m (Reg.MNT_ENGe_STAT e.val) true 0x400 = false := by
    unfold regProt
    simp only [hb]
  have hn : Reg.MNT_ENGe_STAT e.val ≠ Reg.MNT_GFLAG ∧ Reg.MNT_ENGe_STAT e.val ≠ Reg.MNT_GFCLR := by
    simp only [Reg.MNT_ENGe_STAT, Reg.MNT_GFLAG, Reg.MNT_GFCLR]
    omega
  have harr : arr (Reg.MNT_ENGe_STAT 0) 0x40 8 (Reg.MNT_ENGe_STAT e.val) = some e.val := arr_eq (by decide) he (by simp only [Reg.MNT_ENGe_STAT, Nat.mul_zero, Nat.add_zero])
  have hsame : s.reg (Reg.MNT_ENGe_STAT e.val) &&& ~~~((0x400 : Word) &&& 0x300) = s.reg (Reg.MNT_ENGe_STAT e.val) := by
    rw [show ~~~((0x400 : Word) &&& 0x300) = BitVec.allOnes 32 by decide, BitVec.and_allOnes]
  have hw : s.regWrite m (Reg.MNT_ENGe_STAT e.val) 0x400 = (s.setReg (Reg.MNT_ENGe_STAT e.val) (s.reg (Reg.MNT_ENGe_STAT e.val))).engFaultClear e.val := by
    rw [State.regWrite, if_neg (by rw [find_engStat]; decide)]
    simp only [hb, hn, if_false, harr]
    rw [State.engStatWrite, hsame]
    exact if_pos (by decide)
  refine congrArg Host.Outcome.next ((State.askWrite_word (.inl hm) hoff hword hp).trans ?_)
  rw [hw]

/-- What clearing FAULT leaves. -/
theorem State.engFaultClear_spec (e : Nat) (s : State) :
    (s.engState e = 5 → (s.engFaultClear e).engState e = 0) ∧ (s.engState e ≠ 5 → (s.engFaultClear e).engState e = s.engState e) ∧
    (s.engFaultClear e).bit (Reg.MNT_ENGe_STAT e) 10 = false ∧ (s.engFaultClear e).mem = s.mem := by
  by_cases h : s.engState e = 5
  · obtain ⟨x, heq⟩ : ∃ x, s.engFaultClear e =
        (s.setReg (Reg.MNT_ENGe_STAT e) (putBit (setFld (setFld (s.reg (Reg.MNT_ENGe_STAT e)) 7 4 0) 2 0 0) 10 false)).setEng e x := ⟨_, if_pos h⟩
    have hreg : (s.engFaultClear e).reg (Reg.MNT_ENGe_STAT e) = putBit (setFld (setFld (s.reg (Reg.MNT_ENGe_STAT e)) 7 4 0) 2 0 0) 10 false := by
      rw [heq]
      exact State.reg_setReg_same ..
    refine ⟨fun _ => ?_, fun k => absurd h k, ?_, by rw [heq]; rfl⟩
    · rw [State.engState, State.f, hreg, fld_putBit_out _ _ (.inr (by decide)), fld_setFld_same _ (by decide)]
      rfl
    · rw [State.bit, hreg, bitAt_putBit_same _ _ _ (by decide)]
  · have heq : s.engFaultClear e = s.setBit (Reg.MNT_ENGe_STAT e) 10 false := if_neg h
    rw [heq]
    refine ⟨fun k => absurd k h, fun _ => ?_, s.bit_setBit_same _ false (by decide), rfl⟩
    simp only [State.engState, State.f, State.setBit, State.reg_setReg_same]
    exact fld_putBit_out _ _ (.inr (by decide))

/-- Settles O16: each wait's end is the branch of its stage, and a frame is entered by `State.engNext_enters`. -/
theorem enginesWaitAndRun : Obligations.EnginesWaitAndRun := by
  unfold Obligations.EnginesWaitAndRun
  refine ⟨fun e w s hf => ⟨fun p u hu hv2 hn hd hw => ⟨fun h => condEnd_clauses hf hu hv2 hn hd hw h, fun h => ⟨fun hi => ?_, fun hi => ?_⟩⟩, fun p u hu h h2 hi => ?_,
    fun p u hu h hv1 => condEnd_v1 hf hu h hv1, fun p u hu h => ?_, fun a c h => ldReturn_clauses hf h, fun c h hv2 => ⟨fun hs => ?_, fun hs => ?_, fun r hn hsp hr hi hs => ?_⟩,
    fun c h hv1 => ⟨fun hs => ?_, fun hs => ?_⟩⟩, fun e s hlen => ⟨fun hf hst => ⟨fun hm => ?_, fun hm => ?_⟩, fun hf h0 h4 => ?_, fun hf hst => ⟨fun hlt hs => ?_, fun hle => ?_⟩,
    fun hf hst => ?_, fun m hm hoff => ⟨fun h5 => ?_, fun h5 => ?_⟩⟩⟩
  · have hx := exec_syncEnd hf hu h
    rw [if_pos hi] at hx
    obtain ⟨h1, h2, -⟩ := State.engData_runsOn (c := none) hd hw hn (e := e.val) ((u.setStage e.val .ready).setEngState e.val 1)
    refine ⟨_, hx, h1, h2.trans ?_⟩
    rw [State.wakes, hu, State.engPc_beamAt]
  · exact (exec_syncEnd hf hu h).trans (if_neg (by rw [hi]; decide))
  · have hx := exec_sampleEnd hf hu h
    rw [if_pos hi, State.engAct_cond h2] at hx
    have ht : bw w 114 101 < 16384 := bw_lt w 114 101
    have hr := u.ran_anyRunAt (e := e.val) (n := if u.bwCond e.val w then bw w 114 101 else (u.engPc e.val + 1) % 16384) (by split <;> omega)
    refine ⟨_, hx, hr.state, hr.pc.trans ?_⟩
    rw [hu, State.engPc_beamAt]
  · obtain ⟨h1, h2⟩ := exec_waitEnd_ready hf hu h
    obtain ⟨h3, h4⟩ := exec_engine_ready (e := e) hf (by rw [← State.eng_beamAt p s, ← hu]; exact h)
    exact ⟨h1, h2, h3, h4⟩
  · exact (exec_stallEnd hf h).trans ((if_neg (by rw [hv2]; decide)).trans (if_pos hs))
  · exact (exec_stallEnd hf h).trans ((if_neg (by rw [hv2]; decide)).trans (if_neg (by rw [hs]; decide)))
  · have he : e.val < s.mnt.engines.length := State.eng_lt_of_stage (by rw [h]; exact fun k => nomatch k)
    exact ⟨_, (exec_stallEnd hf h).trans ((if_neg (by rw [hv2]; decide)).trans (if_neg (by rw [hsp, hs]; decide))), State.engWrite_issues he hn hsp hr hi hs⟩
  · exact (exec_stallEnd hf h).trans ((if_pos hv1).trans (if_pos hs))
  · exact (exec_stallEnd hf h).trans ((if_pos hv1).trans (if_neg (by rw [hs]; decide)))
  · have he : e.val < s.mnt.engines.length := by omega
    exact ⟨_, (if_neg (by rw [hf]; decide)).trans (if_pos hst), State.engNext_enters he hm⟩
  · refine ((if_neg (by rw [hf]; decide)).trans (if_pos hst)).trans ?_
    rw [State.engNext_unmarked hm]
  · exact (if_neg (by rw [hf]; decide)).trans (if_neg (by omega))
  · have he : e.val < s.mnt.engines.length := by omega
    have hx : exec (.engineOverrun e) s = .next ((((s.engEnd e.val).setBit (Reg.MNT_ENGe_STAT e.val) 8 true).mntRaise e.val 5).engNext e.val) :=
      (if_neg (by rw [hf]; decide)).trans (if_pos ⟨hst, hlt⟩)
    refine ⟨_, hx, ?_⟩
    have htold : Told ((s.engEnd e.val).setBit (Reg.MNT_ENGe_STAT e.val) 8 true) (((s.engEnd e.val).setBit (Reg.MNT_ENGe_STAT e.val) 8 true).mntRaise e.val 5) := State.told_raise ..
    have hmnt : (((s.engEnd e.val).setBit (Reg.MNT_ENGe_STAT e.val) 8 true).mntRaise e.val 5).mnt = (s.setStage e.val .ready).mnt := htold.mnt
    have himg : (((s.engEnd e.val).setBit (Reg.MNT_ENGe_STAT e.val) 8 true).mntRaise e.val 5).img = s.img := htold.img
    have h5 : (((s.engEnd e.val).setBit (Reg.MNT_ENGe_STAT e.val) 8 true).mntRaise e.val 5).bit Reg.MNT_STAT 5 = true :=
      State.raise_bit _ stMNT _ _ _ (by decide) (by decide) (by intro n hn; cases hn; decide)
    have h8 : (((s.engEnd e.val).setBit (Reg.MNT_ENGe_STAT e.val) 8 true).mntRaise e.val 5).bit (Reg.MNT_ENGe_STAT e.val) 8 = true := by
      refine (State.bit_of_reg (State.raise_reg _ stMNT 5 _ _ _ (engRegs_apart e.val).2.2.2.1.symm (not_eventReg_mnt ?_ ?_) (by intro n hn; cases hn; decide)) 8).trans
        ((s.engEnd e.val).bit_setBit_same _ true (by decide))
      · simp only [Reg.MNT_ENGe_STAT]
        omega
      · simp only [Reg.MNT_ENGe_STAT]
        omega
    generalize ((s.engEnd e.val).setBit (Reg.MNT_ENGe_STAT e.val) 8 true).mntRaise e.val 5 = t at hmnt himg h5 h8
    obtain ⟨k1, k2, k3⟩ := State.engNext_status (s := t) (e := e) (by rw [hmnt]; exact (List.length_set ..).symm ▸ he) (by rw [himg]; exact hs)
      (by rw [State.eng_of_mnt hmnt, State.eng_setStage he])
    exact ⟨(State.bit_of_reg k1 5).trans h5, k2.trans h8, k3⟩
  · exact (if_neg (by rw [hf]; decide)).trans (if_neg (fun k => absurd k.2 (by omega)))
  · exact (if_neg (by rw [hf]; decide)).trans (if_neg (fun k => by omega))
  · obtain ⟨h1, -, h3, h4⟩ := (s.setReg (Reg.MNT_ENGe_STAT e.val) (s.reg (Reg.MNT_ENGe_STAT e.val))).engFaultClear_spec e.val
    exact ⟨_, exec_engineFaultClear hm hoff, h1 ((State.f_of_reg (s.reg_setReg_self ..) 2 0).trans h5), h3, State.byte_congr h4⟩
  · obtain ⟨-, h2, h3, h4⟩ := (s.setReg (Reg.MNT_ENGe_STAT e.val) (s.reg (Reg.MNT_ENGe_STAT e.val))).engFaultClear_spec e.val
    have hsame : (s.setReg (Reg.MNT_ENGe_STAT e.val) (s.reg (Reg.MNT_ENGe_STAT e.val))).engState e.val = s.engState e.val := State.f_of_reg (s.reg_setReg_self ..) 2 0
    exact ⟨_, exec_engineFaultClear hm hoff, (h2 (by rw [hsame]; exact h5)).trans hsame, h3, State.byte_congr h4⟩

end Sys2Proof.Machine
end

section
/-! The statement on the units of the panel ports and their line segments. -/

namespace Sys2Proof.Machine

/-! The unit that a port sends (R195). -/

theorem State.mem_setUnit_units (u : UnitSt) (s : State) : u ∈ (s.setUnit u).pnl.units := List.mem_cons_self ..

theorem State.units_trimSegs (k : Nat) (s : State) : (s.trimSegs k).pnl.units = s.pnl.units := rfl

theorem State.pnl_unitUnder (k : Nat) (s : State) : (s.unitUnder k).pnl = s.pnl := (State.told_raise ..).pnl

theorem execUnitSend_idle {port : Fin 32} {s : State} (h : s.bit Reg.PNL_CTRL 0 = false ∨ s.portOn port.val = false ∨ s.leadPort port.val ≠ port.val ∨
    s.pnl.units.any (fun u => decide (u.port = port.val) && u.running) = true ∨ s.head = none) : exec (.unitSend port) s = .next s := by
  show execUnitSend port s = .next s
  unfold execUnitSend
  dsimp only
  split
  · rfl
  split
  · rfl
  rename_i hb
  have hnone : s.head = none := by
    simp only [Bool.or_eq_true, Bool.not_eq_true', not_or, Bool.not_eq_false, Bool.not_eq_true, Bool.and_eq_true, decide_eq_true_eq] at hb
    obtain ⟨⟨⟨h1, h2⟩, h3⟩, h4⟩ := hb
    rcases h with h | h | h | h | h
    · rw [h1] at h
      cases h
    · rw [h2] at h
      cases h
    · exact absurd h3 h
    · rw [h4] at h
      cases h
    · exact h
  simp only [hnone]

theorem execUnitSend_none {port : Fin 32} {q : QFrame} {s : State} (hq : s.head = some q) (h : s.nextUnit q port.val = none) : exec (.unitSend port) s = .next s := by
  show execUnitSend port s = .next s
  unfold execUnitSend
  dsimp only
  split
  · rfl
  split
  · rfl
  simp only [hq, h]

/-- The unit (r, c) of port `p` with its words, and the state in which they are formed. -/
def State.formUnit (q : QFrame) (p r c : Nat) (s : State) : UnitSt × State :=
  let pr := s.prof p
  let idx := r * pr.ch + c
  let follows := (s.pnl.lastUnit.find? fun e => decide (e.1 = p)).map (·.2) = some idx
  let s0 := if !pr.direct && !follows && decide (pr.latw 2 ≠ 0) then
      s.emit (.panelRun p 2 (pr.latw 2) pr.runSlots pr.latHigh (List.replicate (8 * (s.members p).length) (List.replicate pr.nic idx)))
    else s
  let (before, s1) := s0.lastWords (s.dataLines p)
  let (ws, under, s2) := s1.allWords r (if pr.direct then 0 else pr.wbits - q.f Reg.QDL_STRUCT 12 8) (pr.unitSlots c) (s.members p)
  (⟨p, r, c, true, !under, false, ws, before⟩, s2)

/-- The unit runs. -/
def State.beginUnit (p idx : Nat) (direct : Bool) (e : UnitSt × State) : State :=
  let s3 := e.2.setUnit e.1
  if direct then s3 else { s3 with pnl := { s3.pnl with lastUnit := (p, idx + 1) :: s3.pnl.lastUnit.filter fun e => decide (e.1 ≠ p) } }

theorem State.units_beginUnit (p idx : Nat) (direct : Bool) (e : UnitSt × State) : e.1 ∈ (State.beginUnit p idx direct e).pnl.units := by
  cases direct <;> exact State.mem_setUnit_units ..

theorem execUnitSend_eq {port : Fin 32} {q : QFrame} {r c : Nat} {s : State} (hf : s.frozen = false) (hq : s.head = some q) (h1 : s.bit Reg.PNL_CTRL 0 = true)
    (h2 : s.portOn port.val = true) (h3 : s.leadPort port.val = port.val) (h4 : s.pnl.units.any (fun u => decide (u.port = port.val) && u.running) = false)
    (h : s.nextUnit q port.val = some (r, c)) (b : UnitSt × State) (hb : b = s.formUnit q port.val r c) (u : State)
    (hu : u = State.beginUnit port.val (r * (s.prof port.val).ch + c) (s.prof port.val).direct b) :
    exec (.unitSend port) s = .next ((if !b.1.sent then u.unitUnder (port.val / 2) else u).trimSegs (port.val / 2)) := by
  have hb' : ¬ (!(s.bit Reg.PNL_CTRL 0 && s.portOn port.val && decide (s.leadPort port.val = port.val)) ||
      s.pnl.units.any (fun u => decide (u.port = port.val) && u.running)) = true := by
    rw [h1, h2, h4, decide_eq_true h3]
    decide
  refine (if_neg (by rw [hf]; decide)).trans ((if_neg hb').trans ?_)
  rw [hq]
  dsimp only
  rw [h, hu, hb]
  simp only [State.formUnit, Bool.not_not]
  rfl

theorem execUnitSend_sends {port : Fin 32} {q : QFrame} {r c : Nat} {s : State} (hf : s.frozen = false) (hq : s.head = some q) (h1 : s.bit Reg.PNL_CTRL 0 = true)
    (h2 : s.portOn port.val = true) (h3 : s.leadPort port.val = port.val) (h4 : s.pnl.units.any (fun u => decide (u.port = port.val) && u.running) = false)
    (h : s.nextUnit q port.val = some (r, c)) : Completes (.unitSend port) s fun t =>
      ∃ u ∈ t.pnl.units, u.port = port.val ∧ u.row = r ∧ u.ch = c ∧ u.running = true ∧ u.delivered = false := by
  obtain ⟨b, hb⟩ : ∃ b, b = s.formUnit q port.val r c := ⟨_, rfl⟩
  refine ⟨_, execUnitSend_eq hf hq h1 h2 h3 h4 h b hb _ rfl, b.1, ?_, by rw [hb]; rfl, by rw [hb]; rfl, by rw [hb]; rfl, by rw [hb]; rfl, by rw [hb]; rfl⟩
  rw [State.units_trimSegs]
  cases !b.1.sent
  · exact State.units_beginUnit ..
  · show b.1 ∈ (State.unitUnder _ _).pnl.units
    rw [State.pnl_unitUnder]
    exact State.units_beginUnit ..

/-! The end of a unit (R196, R368). -/

/-- The depth of the frame in composition, or of the next. -/
def State.unitDepth (s : State) : Nat := match s.head with
  | some q => q.f Reg.QDL_STRUCT 12 8
  | none => s.f Reg.QDL_STRUCT 12 8

/-- A unit that has ended. -/
def endedUnit (u : UnitSt) : UnitSt := { u with running := false, words := [], before := [] }

theorem execUnitDelivered_eq {port : Fin 32} {u : UnitSt} {s : State} (hf : s.frozen = false)
    (hu : s.pnl.units.find? (fun x => decide (x.port = port.val) && x.running) = some u) : exec (.unitDelivered port) s =
      if (s.prof u.port).direct then
        if !s.bit Reg.REEL_CTRL 0 then .next s else
        match s.writeBeats (s.f Reg.PNL_DIRCH 4 0) (s.unitBeats u s.unitDepth) with
        | (none, t) => .next (t.setUnit { endedUnit u with delivered := u.sent })
        | (some (code, a), t) => .next ((t.stopNow (s.f Reg.PNL_DIRCH 4 0) 3 code a).setUnit { endedUnit u with delivered := false })
      else .next ((s.emit (.panelRun u.port 0 ((s.prof u.port).latw 0) (s.prof u.port).runSlots (s.prof u.port).latHigh u.words)).setUnit
        { endedUnit u with delivered := u.sent }) := by
  refine (if_neg (by rw [hf]; decide)).trans ?_
  rw [hu]
  rfl

/-- The clauses on a unit that ends. -/
theorem unitDelivered_ends {port : Fin 32} {u : UnitSt} {s : State} (hf : s.frozen = false)
    (hu : s.pnl.units.find? (fun x => decide (x.port = port.val) && x.running) = some u) :
    ((s.prof u.port).direct = false → Completes (.unitDelivered port) s fun t => { endedUnit u with delivered := u.sent } ∈ t.pnl.units ∧
      t.out = s.out ++ [.panelRun u.port 0 ((s.prof u.port).latw 0) (s.prof u.port).runSlots (s.prof u.port).latHigh u.words] ∧ t.regs = s.regs ∧ SameMemory s t) ∧
    ((s.prof u.port).direct = true → s.bit Reg.REEL_CTRL 0 = false → exec (.unitDelivered port) s = .next s) ∧
    ((s.prof u.port).direct = true → s.bit Reg.REEL_CTRL 0 = true → (s.writeBeats (s.f Reg.PNL_DIRCH 4 0) (s.unitBeats u s.unitDepth)).1 = none →
      Completes (.unitDelivered port) s fun t => { endedUnit u with delivered := u.sent } ∈ t.pnl.units ∧
        t.mem = (s.writeBeats (s.f Reg.PNL_DIRCH 4 0) (s.unitBeats u s.unitDepth)).2.mem) ∧
    (∀ code a : Nat, (s.prof u.port).direct = true → s.bit Reg.REEL_CTRL 0 = true →
      (s.writeBeats (s.f Reg.PNL_DIRCH 4 0) (s.unitBeats u s.unitDepth)).1 = some (code, a) → Completes (.unitDelivered port) s fun t =>
        { endedUnit u with delivered := false } ∈ t.pnl.units ∧ t.mem = (s.writeBeats (s.f Reg.PNL_DIRCH 4 0) (s.unitBeats u s.unitDepth)).2.mem) := by
  have hx := execUnitDelivered_eq hf hu
  refine ⟨fun hd => ?_, fun hd he => ?_, fun hd he hw => ?_, fun code a hd he hw => ?_⟩
  · rw [if_neg (by rw [hd]; decide)] at hx
    exact ⟨_, hx, State.mem_setUnit_units .., rfl, rfl, fun _ => rfl⟩
  · rw [if_pos hd, if_pos (by rw [he]; rfl)] at hx
    exact hx
  · rw [if_pos hd, if_neg (by rw [he]; decide)] at hx
    generalize s.writeBeats (s.f Reg.PNL_DIRCH 4 0) (s.unitBeats u s.unitDepth) = p at hx hw
    obtain ⟨x, t⟩ := p
    dsimp only at hw
    subst hw
    exact ⟨_, hx, State.mem_setUnit_units .., rfl⟩
  · rw [if_pos hd, if_neg (by rw [he]; decide)] at hx
    generalize s.writeBeats (s.f Reg.PNL_DIRCH 4 0) (s.unitBeats u s.unitDepth) = p at hx hw
    obtain ⟨x, t⟩ := p
    dsimp only at hw
    subst hw
    exact ⟨_, hx, State.mem_setUnit_units .., State.mem_stopNow ..⟩

/-! The segments of a pair (R207, R209). -/

/-- A segment takes the place of another. -/
def State.putSeg (g g2 : Seg) (t : State) : State := { t with pnl := { t.pnl with segs := t.pnl.segs.map fun x => if x = g then g2 else x } }

theorem execSegmentLanded_eq {pair : Fin 16} {q : QFrame} {g : Seg} {lo hi : Nat} {s : State} (hf : s.frozen = false) (hq : s.head = some q)
    (hg : s.pnl.segs.find? (fun x => decide (x.pair = pair.val) && !x.landed) = some g) (hw : s.window pair.val = some (lo, hi)) :
    exec (.segmentLanded pair) s = (match s.lineSource q g.line with
      | none => .next (s.putSeg g { g with landed := true, data := List.replicate (s.segBytes pair.val) 0 })
      | some a =>
        if (s.portRead 4 (a + lo * 6) (s.segBytes pair.val)).1 = 0 then
          .next ((s.portRead 4 (a + lo * 6) (s.segBytes pair.val)).2.2.putSeg g { g with landed := true, data := (s.portRead 4 (a + lo * 6) (s.segBytes pair.val)).2.1 })
        else .next (((s.portRead 4 (a + lo * 6) (s.segBytes pair.val)).2.2.putSeg g { g with landed := true, err := true }).raiseOnce q.frame 13 7 stPNL (wd pair.val))) := by
  refine (if_neg (by rw [hf]; decide)).trans ?_
  rw [hq, hg, hw]
  rfl

theorem Checked.pnl {s t : State} (h : Checked s t) : t.pnl = s.pnl := by
  obtain ⟨_, _, _, _, _, _, _, rfl⟩ := h.state
  rfl

theorem Checked.qdl {s t : State} (h : Checked s t) : t.qdl = s.qdl := by
  obtain ⟨_, _, _, _, _, _, _, rfl⟩ := h.state
  rfl

theorem State.raiseOnce_spec (frame slot bit : Nat) (r : StatReg) (a : Word) (s : State) : (s.raiseOnce frame slot bit r a).pnl = s.pnl ∧
    (bit < 32 → ¬ eventReg r.addr → r.known = true → (frame, slot, bit) ∉ s.qdl.seen → (s.raiseOnce frame slot bit r a).bit r.addr bit = true) := by
  unfold State.raiseOnce
  constructor
  · split
    · rfl
    · exact (State.told_raise ..).pnl
  · intro hb he hk hn
    rw [if_neg (by simpa using hn)]
    exact State.raise_bit _ r _ _ _ hb he (StatReg.src_lt hk)

theorem execSegmentLanded_idle {pair : Fin 16} {s : State} (h : s.head = none ∨ s.pnl.segs.find? (fun x => decide (x.pair = pair.val) && !x.landed) = none ∨
    s.window pair.val = none) : exec (.segmentLanded pair) s = .next s := by
  show execSegmentLanded pair s = .next s
  unfold execSegmentLanded
  split
  · rfl
  split
  · rename_i h1 h2 h3
    rcases h with h | h | h
    · rw [h1] at h
      cases h
    · rw [h2] at h
      cases h
    · rw [h3] at h
      cases h
  · rfl

/-- The clauses on a segment that lands. -/
theorem segmentLanded_lands {pair : Fin 16} {q : QFrame} {g : Seg} {lo hi : Nat} {s : State} (hf : s.frozen = false) (hq : s.head = some q)
    (hg : s.pnl.segs.find? (fun x => decide (x.pair = pair.val) && !x.landed) = some g) (hw : s.window pair.val = some (lo, hi)) :
    (∀ a : Nat, s.lineSource q g.line = some a → (s.portRead 4 (a + lo * 6) (s.segBytes pair.val)).1 = 0 →
      Completes (.segmentLanded pair) s fun t => t.pnl.segs = s.pnl.segs.map fun x =>
        if x = g then { g with landed := true, data := (s.portRead 4 (a + lo * 6) (s.segBytes pair.val)).2.1 } else x) ∧
    (∀ a : Nat, s.lineSource q g.line = some a → (s.portRead 4 (a + lo * 6) (s.segBytes pair.val)).1 ≠ 0 →
      Completes (.segmentLanded pair) s fun t => t.pnl.segs = s.pnl.segs.map (fun x => if x = g then { g with landed := true, err := true } else x) ∧
        ((q.frame, 13, 7) ∉ s.qdl.seen → t.bit Reg.PNL_STAT 7 = true)) ∧
    (s.lineSource q g.line = none → Completes (.segmentLanded pair) s fun t => t.regs = s.regs ∧ t.pnl.segs = s.pnl.segs.map fun x =>
      if x = g then { g with landed := true, data := List.replicate (s.segBytes pair.val) 0 } else x) := by
  have hx := execSegmentLanded_eq hf hq hg hw
  refine ⟨fun a ha h0 => ?_, fun a ha h0 => ?_, fun ha => ?_⟩
  · have hchk := s.checked_portRead 4 (a + lo * 6) (s.segBytes pair.val)
    simp only [ha, if_pos h0] at hx
    refine ⟨_, hx, ?_⟩
    rw [State.putSeg, hchk.pnl]
  · have hchk := s.checked_portRead 4 (a + lo * 6) (s.segBytes pair.val)
    simp only [ha, if_neg h0] at hx
    refine ⟨_, hx, ?_, fun hn => ?_⟩
    · rw [(State.raiseOnce_spec ..).1, State.putSeg, hchk.pnl]
    · refine (State.raiseOnce_spec (bit := 7) (r := stPNL) ..).2 (by decide) (by decide) (by decide) ?_
      show _ ∉ (s.portRead 4 (a + lo * 6) (s.segBytes pair.val)).2.2.qdl.seen
      rw [hchk.qdl]
      exact hn
  · simp only [ha] at hx
    exact ⟨_, hx, rfl, rfl⟩

/-- Settles O18: each command by the branch that finds its unit or segment. -/
theorem panelUnits : Obligations.PanelUnits := by
  unfold Obligations.PanelUnits
  intro s hf
  refine ⟨fun q port hq => ⟨fun r c h1 h2 h3 h4 h => execUnitSend_sends hf hq h1 h2 h3 h4 h, fun h => execUnitSend_none hq h⟩, fun port h => execUnitSend_idle h,
    fun port u e depth hu he hd => ?_, fun port h => ?_, fun q pair held due hq hh hd => ⟨fun y h1 h2 h3 => ?_, fun h => ?_⟩,
    fun q pair g lo hi hq hg hw => segmentLanded_lands hf hq hg hw, fun pair h => ⟨?_, execSegmentLanded_idle (.inl h)⟩, fun pair h => execSegmentLanded_idle (.inr h)⟩
  · subst he hd
    exact unitDelivered_ends hf hu
  · refine (if_neg (by rw [hf]; decide)).trans ?_
    rw [h]
  · subst hh hd
    refine ⟨{ s with pnl := { s.pnl with segs := s.pnl.segs ++ [⟨pair.val, y, false, false, []⟩] } }, (if_neg (by rw [hf]; decide)).trans ?_, rfl, rfl, fun _ => rfl⟩
    rw [hq]
    dsimp only
    rw [if_pos (by rw [h1, decide_eq_true h2]; rfl), h3]
  · subst hh hd
    refine (if_neg (by rw [hf]; decide)).trans ?_
    rw [hq]
    dsimp only
    rcases h with h | h | h
    · rw [if_neg (by rw [h]; simp)]
    · rw [if_neg (by rw [decide_eq_false (by omega)]; simp)]
    · rw [h]
      split <;> rfl
  · refine (if_neg (by rw [hf]; decide)).trans ?_
    rw [h]

end Sys2Proof.Machine
end

section
/-! The scan groups and direct stores of the panel ports, and what sending commands leaves (R199 to R211). -/

namespace Sys2Proof.Machine

/-! What only drives pins. -/

/-- `t` is `s` but for its outputs. -/
def Emitted (s t : State) : Prop := ∃ out, t = { s with out := out }

theorem Emitted.refl (s : State) : Emitted s s := ⟨s.out, rfl⟩

theorem Emitted.trans {s t u : State} (h : Emitted s t) (k : Emitted t u) : Emitted s u := by
  obtain ⟨_, rfl⟩ := h
  obtain ⟨out, rfl⟩ := k
  exact ⟨out, rfl⟩

theorem Emitted.foldl {α : Type} {f : State → α → State} (hf : ∀ t x, Emitted t (f t x)) (l : List α) (s : State) : Emitted s (l.foldl f s) := by
  induction l generalizing s with
  | nil => exact .refl s
  | cons x xs ih => exact (hf s x).trans (ih _)

theorem Emitted.ite {p : Prop} [Decidable p] {s t u : State} (h : Emitted s t) (k : Emitted s u) : Emitted s (if p then t else u) := by
  split
  · exact h
  · exact k

section
variable {s t : State} (h : Emitted s t)
include h

theorem Emitted.regs : t.regs = s.regs := by obtain ⟨_, rfl⟩ := h; rfl
theorem Emitted.pnl : t.pnl = s.pnl := by obtain ⟨_, rfl⟩ := h; rfl
theorem Emitted.mem : t.mem = s.mem := by obtain ⟨_, rfl⟩ := h; rfl
theorem Emitted.reg (a : Nat) : t.reg a = s.reg a := State.reg_of_regs h.regs a

end

theorem State.emitted_emit (o : Out) (s : State) : Emitted s (s.emit o) := ⟨_, rfl⟩

theorem State.sendCommand_emits (p k data : Nat) (s : State) : ∃ o, s.sendCommand p k data = s.emit o := by
  unfold State.sendCommand
  dsimp only
  split
  · exact ⟨_, rfl⟩
  · exact ⟨_, rfl⟩

theorem State.emitted_sendCommand (p k data : Nat) (s : State) : Emitted s (s.sendCommand p k data) := by
  obtain ⟨o, h⟩ := s.sendCommand_emits p k data
  rw [h]
  exact s.emitted_emit o

theorem State.emitted_driveGroup (g : Nat) (s : State) : Emitted s (s.driveGroup g) := by
  unfold State.driveGroup
  split
  · exact State.emitted_emit ..
  · exact .refl s

/-- What a change of blanking shows (R210). -/
theorem State.emitted_showBlank (was : Bool) (s : State) : Emitted (s.setBit Reg.PNL_BLANK 8 s.blanked) (s.showBlank was) := by
  unfold State.showBlank
  dsimp only
  split
  · exact .refl _
  · exact Emitted.foldl (fun t p => .ite (State.emitted_driveGroup ..) (.ite (.refl t) (State.emitted_sendCommand ..))) ..

theorem State.showBlank_spec (was : Bool) (s : State) : (s.showBlank was).pnl = s.pnl ∧ (s.showBlank was).mem = s.mem ∧ (s.showBlank was).bit Reg.PNL_BLANK 8 = s.blanked := by
  have h := s.emitted_showBlank was
  exact ⟨h.pnl, h.mem, (State.bit_of_reg (h.reg _) 8).trans (s.bit_setBit_same _ _ (by decide))⟩

/-! Scan groups (R200). -/

/-- `t` is `s` but for its scan groups and outputs. -/
def Regrouped (s t : State) : Prop := ∃ groups out, t = { s with pnl := { s.pnl with groups := groups }, out := out }

theorem Regrouped.refl (s : State) : Regrouped s s := ⟨s.pnl.groups, s.out, rfl⟩

theorem Regrouped.trans {s t u : State} (h : Regrouped s t) (k : Regrouped t u) : Regrouped s u := by
  obtain ⟨_, _, rfl⟩ := h
  obtain ⟨groups, out, rfl⟩ := k
  exact ⟨groups, out, rfl⟩

section
variable {s t : State} (h : Regrouped s t)
include h

theorem Regrouped.regs : t.regs = s.regs := by obtain ⟨_, _, rfl⟩ := h; rfl
theorem Regrouped.mem : t.mem = s.mem := by obtain ⟨_, _, rfl⟩ := h; rfl
theorem Regrouped.groupPort (g : Nat) : t.groupPort g = s.groupPort g := by obtain ⟨_, _, rfl⟩ := h; rfl
theorem Regrouped.prof (p : Nat) : t.prof p = s.prof p := by obtain ⟨_, _, rfl⟩ := h; rfl
theorem Regrouped.dark : t.pnl.dark = s.pnl.dark ∧ t.pnl.oldTim = s.pnl.oldTim ∧ t.pnl.gridSplit = s.pnl.gridSplit := by obtain ⟨_, _, rfl⟩ := h; exact ⟨rfl, rfl, rfl⟩
theorem Regrouped.scans : t.pnl.scans = s.pnl.scans := by obtain ⟨_, _, rfl⟩ := h; rfl

end

theorem State.groups_setGroup (g row : Nat) (en : Bool) (s : State) : (s.setGroup g row en).pnl.groups = s.pnl.groups.set g (row, en) :=
  congrArg PnlSt.groups (State.emitted_driveGroup g _).pnl

theorem State.regrouped_setGroup (g row : Nat) (en : Bool) (s : State) : Regrouped s (s.setGroup g row en) := by
  obtain ⟨out, h⟩ := State.emitted_driveGroup g ({ s with pnl := { s.pnl with groups := s.pnl.groups.set g (row, en) } } : State)
  exact ⟨_, out, h⟩

/-- The buffered groups of `l` restart. -/
def State.restartGroups (l : List Nat) (s : State) : State := l.foldl (fun t g =>
  match t.groupPort g with
  | some p => if (t.prof p).direct then t else t.setGroup g 0 true
  | none => t) s

theorem State.restartGroup_spec (g : Nat) (s : State) (t : State) (ht : t = match s.groupPort g with
    | some p => if (s.prof p).direct then s else s.setGroup g 0 true
    | none => s) : Regrouped s t ∧ t.pnl.groups.length = s.pnl.groups.length ∧
      (∀ p, g < s.pnl.groups.length → s.groupPort g = some p → (s.prof p).direct = false → t.pnl.groups[g]? = some (0, true)) ∧
      (∀ k : Nat, s.pnl.groups[k]? = some (0, true) → t.pnl.groups[k]? = some (0, true)) := by
  subst ht
  cases hp : s.groupPort g with
  | none => exact ⟨.refl s, rfl, fun p _ h => (nomatch h), fun _ h => h⟩
  | some p =>
    cases hd : (s.prof p).direct
    · simp only [hd, Bool.false_eq_true, if_false]
      refine ⟨State.regrouped_setGroup .., ?_, fun p' hg _ _ => ?_, fun k hk => ?_⟩
      · rw [State.groups_setGroup, List.length_set]
      · rw [State.groups_setGroup, List.getElem?_set_self hg]
      · rw [State.groups_setGroup, List.getElem?_set]
        split
        · rw [if_pos ?_]
          subst_vars
          exact (List.getElem?_eq_some_iff.mp hk).1
        · exact hk
    · simp only [hd, if_true]
      refine ⟨.refl s, trivial, fun p' _ h hd' => ?_, fun _ h => h⟩
      cases h
      rw [hd] at hd'
      cases hd'

theorem State.restartGroups_spec (l : List Nat) (s : State) : Regrouped s (s.restartGroups l) ∧
    (∀ g p, g ∈ l → g < s.pnl.groups.length → s.groupPort g = some p → (s.prof p).direct = false → (s.restartGroups l).pnl.groups[g]? = some (0, true)) ∧
    (∀ k : Nat, s.pnl.groups[k]? = some (0, true) → (s.restartGroups l).pnl.groups[k]? = some (0, true)) := by
  induction l generalizing s with
  | nil => exact ⟨.refl s, fun g p h => (nomatch h), fun _ h => h⟩
  | cons g l ih =>
    obtain ⟨t, ht⟩ : ∃ t, t = match s.groupPort g with
      | some p => if (s.prof p).direct then s else s.setGroup g 0 true
      | none => s := ⟨_, rfl⟩
    have heq : s.restartGroups (g :: l) = t.restartGroups l := by
      rw [ht]
      rfl
    obtain ⟨h1, h2, h3, h4⟩ := State.restartGroup_spec g s t ht
    obtain ⟨k1, k2, k3⟩ := ih t
    rw [heq]
    refine ⟨h1.trans k1, fun g' p hg hl hp hd => ?_, fun k hk => k3 k (h4 k hk)⟩
    rcases List.mem_cons.mp hg with rfl | hg
    · exact k3 _ (h3 p hl hp hd)
    · exact k2 g' p hg (by rw [h2]; exact hl) ((h1.groupPort _).trans hp) (by rw [h1.prof]; exact hd)

/-- The groups of `l` are disabled. -/
def State.disableGroups (l : List Nat) (s : State) : State := l.foldl (fun t g =>
  match t.groupPort g, t.pnl.groups[g]? with
  | some _, some (row, _) => t.setGroup g row false
  | _, _ => t) s

theorem State.disableGroup_spec (g : Nat) (s : State) (t : State) (ht : t = match s.groupPort g, s.pnl.groups[g]? with
    | some _, some (row, _) => s.setGroup g row false
    | _, _ => s) : Regrouped s t ∧ ∀ (k row : Nat) (en : Bool), s.pnl.groups[k]? = some (row, en) → ∃ e, t.pnl.groups[k]? = some (row, e) ∧
      (en = false → e = false) ∧ (∀ p, k = g → s.groupPort g = some p → e = false) := by
  subst ht
  cases hp : s.groupPort g with
  | none => exact ⟨.refl s, fun k row en h => ⟨en, h, id, fun p _ hp => nomatch hp⟩⟩
  | some p =>
    rcases hg : s.pnl.groups[g]? with - | ⟨r, e⟩
    · refine ⟨.refl s, fun k row en h => ⟨en, h, id, fun p hk _ => ?_⟩⟩
      rw [hk, hg] at h
      cases h
    · refine ⟨State.regrouped_setGroup .., fun k row en h => ?_⟩
      have hl : g < s.pnl.groups.length := (List.getElem?_eq_some_iff.mp hg).1
      dsimp only
      rw [State.groups_setGroup]
      by_cases hk : k = g
      · subst hk
        rw [hg] at h
        cases h
        exact ⟨false, List.getElem?_set_self hl, fun _ => rfl, fun _ _ _ => rfl⟩
      · exact ⟨en, (List.getElem?_set_ne (Ne.symm hk)).trans h, id, fun _ hk' => absurd hk' hk⟩

theorem State.disableGroups_spec (l : List Nat) (s : State) : Regrouped s (s.disableGroups l) ∧
    ∀ (k row : Nat) (en : Bool), s.pnl.groups[k]? = some (row, en) → ∃ e, (s.disableGroups l).pnl.groups[k]? = some (row, e) ∧
      (en = false → e = false) ∧ (∀ p, k ∈ l → s.groupPort k = some p → e = false) := by
  induction l generalizing s with
  | nil => exact ⟨.refl s, fun k row en h => ⟨en, h, id, fun p h => nomatch h⟩⟩
  | cons g l ih =>
    obtain ⟨t, ht⟩ : ∃ t, t = match s.groupPort g, s.pnl.groups[g]? with
      | some _, some (row, _) => s.setGroup g row false
      | _, _ => s := ⟨_, rfl⟩
    have heq : s.disableGroups (g :: l) = t.disableGroups l := by
      rw [ht]
      rfl
    obtain ⟨h1, h2⟩ := State.disableGroup_spec g s t ht
    obtain ⟨k1, k2⟩ := ih t
    rw [heq]
    refine ⟨h1.trans k1, fun k row en h => ?_⟩
    obtain ⟨e, he, hoff, hg⟩ := h2 k row en h
    obtain ⟨e', he', hoff', hg'⟩ := k2 k row e he
    refine ⟨e', he', fun h => hoff' (hoff h), fun p hk hp => ?_⟩
    rcases List.mem_cons.mp hk with rfl | hk
    · exact hoff' (hg p rfl hp)
    · exact hg' p hk ((h1.groupPort _).trans hp)

/-! The scan of a direct port (R205). -/

theorem State.port_scanOf (p : Nat) (s : State) : (s.scanOf p).port = p := by
  unfold State.scanOf
  split
  · rename_i x h
    simpa using List.find?_some h
  · rfl

theorem State.scanOf_of_scans {s t : State} (h : t.pnl.scans = s.pnl.scans) (p : Nat) : t.scanOf p = s.scanOf p := by simp only [State.scanOf, h]

theorem State.scanOf_setScan_same {x : ScanSt} {p : Nat} (h : x.port = p) (s : State) : (s.setScan x).scanOf p = x := by
  simp [State.scanOf, State.setScan, h]

theorem State.scanOf_setScan_ne {x : ScanSt} {p : Nat} (h : p ≠ x.port) (s : State) : (s.setScan x).scanOf p = s.scanOf p := by
  have hfind : (s.setScan x).pnl.scans.find? (fun y => decide (y.port = p)) = s.pnl.scans.find? (fun y => decide (y.port = p)) := by
    show (x :: s.pnl.scans.filter fun y => decide (y.port ≠ x.port)).find? _ = _
    rw [List.find?_cons_of_neg (by simpa using h.symm), List.find?_filter]
    congr 1
    funext y
    by_cases hy : y.port = p
    · simp [hy, h]
    · simp [hy]
  simp only [State.scanOf, hfind]

/-- `t` is `s` but for its scans and outputs. -/
def Rescanned (s t : State) : Prop := ∃ scans out, t = { s with pnl := { s.pnl with scans := scans }, out := out }

theorem Rescanned.trans {s t u : State} (h : Rescanned s t) (k : Rescanned t u) : Rescanned s u := by
  obtain ⟨_, _, rfl⟩ := h
  obtain ⟨scans, out, rfl⟩ := k
  exact ⟨scans, out, rfl⟩

/-- A scan at the start of a refresh, with the plane-row shifted before latched. -/
def scanStarts (x y : ScanSt) : Prop := y.row = 0 ∧ y.plane = 0 ∧ y.latch = x.shifted ∧ y.shifted = x.shifted

/-- The ports of `l` start their refresh. -/
def State.restartScans (l : List Nat) (s : State) : State := l.foldl (fun t p =>
  let pr := t.prof p
  if pr.direct then
    let x := t.scanOf p
    t.setScan { x with row := 0, plane := 0, latch := x.shifted }
  else t.emit (.panelGclk p (t.f Reg.PNL_GCLK 7 0 + 1) pr.gclkHigh)) s

theorem State.restartScan_spec (p : Nat) (s t : State) (ht : t = if (s.prof p).direct then s.setScan { s.scanOf p with row := 0, plane := 0, latch := (s.scanOf p).shifted }
    else s.emit (.panelGclk p (s.f Reg.PNL_GCLK 7 0 + 1) (s.prof p).gclkHigh)) : Rescanned s t ∧
      (∀ q, (t.scanOf q).shifted = (s.scanOf q).shifted) ∧ ((s.prof p).direct = true → scanStarts (s.scanOf p) (t.scanOf p)) ∧
      (∀ x q, scanStarts x (s.scanOf q) → scanStarts x (t.scanOf q)) := by
  subst ht
  cases hd : (s.prof p).direct
  · rw [if_neg (by decide)]
    exact ⟨⟨s.pnl.scans, _, rfl⟩, fun _ => rfl, fun h => (nomatch h), fun _ _ h => h⟩
  · rw [if_pos rfl]
    have hsame := State.scanOf_setScan_same (x := { s.scanOf p with row := 0, plane := 0, latch := (s.scanOf p).shifted }) (s.port_scanOf p) s
    have hne : ∀ q, q ≠ p → (s.setScan { s.scanOf p with row := 0, plane := 0, latch := (s.scanOf p).shifted }).scanOf q = s.scanOf q := fun q hq =>
      State.scanOf_setScan_ne (by rw [show _ = _ from s.port_scanOf p]; exact hq) s
    refine ⟨⟨_, s.out, rfl⟩, fun q => ?_, fun _ => ?_, fun x q h => ?_⟩
    · by_cases hq : q = p
      · subst hq
        rw [hsame]
      · rw [hne q hq]
    · rw [hsame]
      exact ⟨rfl, rfl, rfl, rfl⟩
    · by_cases hq : q = p
      · subst hq
        rw [hsame]
        exact ⟨rfl, rfl, h.2.2.2, h.2.2.2⟩
      · rw [hne q hq]
        exact h

theorem State.restartScans_spec (l : List Nat) (s : State) : Rescanned s (s.restartScans l) ∧ (∀ q, ((s.restartScans l).scanOf q).shifted = (s.scanOf q).shifted) ∧
    (∀ p ∈ l, (s.prof p).direct = true → scanStarts (s.scanOf p) ((s.restartScans l).scanOf p)) ∧
    (∀ x q, scanStarts x (s.scanOf q) → scanStarts x ((s.restartScans l).scanOf q)) := by
  induction l generalizing s with
  | nil => exact ⟨⟨s.pnl.scans, s.out, rfl⟩, fun _ => rfl, fun p h => (nomatch h), fun _ _ h => h⟩
  | cons p l ih =>
    obtain ⟨t, ht⟩ : ∃ t, t = if (s.prof p).direct then s.setScan { s.scanOf p with row := 0, plane := 0, latch := (s.scanOf p).shifted }
      else s.emit (.panelGclk p (s.f Reg.PNL_GCLK 7 0 + 1) (s.prof p).gclkHigh) := ⟨_, rfl⟩
    have heq : s.restartScans (p :: l) = t.restartScans l := by
      rw [ht]
      rfl
    obtain ⟨h1, h2, h3, h4⟩ := State.restartScan_spec p s t ht
    obtain ⟨k1, k2, k3, k4⟩ := ih t
    have hprof : ∀ q, t.prof q = s.prof q := by
      obtain ⟨_, _, e⟩ := h1
      rw [e]
      exact fun _ => rfl
    rw [heq]
    refine ⟨h1.trans k1, fun q => (k2 q).trans (h2 q), fun q hq hd => ?_, fun x q h => k4 x q (h4 x q h)⟩
    rcases List.mem_cons.mp hq with rfl | hq
    · exact k4 _ _ (h3 hd)
    · have h := k3 q hq (by rw [hprof]; exact hd)
      unfold scanStarts at h ⊢
      rw [h2] at h
      exact h

/-! Refresh (R199, R200, R214). -/

theorem gridPoint_starts {s : State} (hf : s.frozen = false) (hc : s.bit Reg.PNL_CTRL 0 = true) (h : s.pnl.oldTim = none ∨ s.pnl.gridSplit = false) :
    Completes .gridPoint s fun t => t.pnl.dark = false ∧ t.pnl.oldTim = none ∧
      (∀ p, p < 32 → s.portOn p = true → (s.prof p).direct = true → (t.scanOf p).row = 0 ∧ (t.scanOf p).plane = 0 ∧ (t.scanOf p).latch = (s.scanOf p).shifted) ∧
      (∀ g p, g < 8 → g < s.pnl.groups.length → s.groupPort g = some p → (s.prof p).direct = false → t.pnl.groups[g]? = some (0, true)) := by
  obtain ⟨u, hu⟩ : ∃ u, u = ({ s with pnl := { s.pnl with dark := false, oldTim := none, gridSplit := false } } : State) := ⟨_, rfl⟩
  have hx : exec .gridPoint s = .next u.startRefresh := by
    refine (if_neg (by rw [hf]; decide)).trans ((if_neg (by rw [hc]; decide)).trans ((if_neg ?_).trans (by rw [hu])))
    rcases h with h | h <;> simp [h]
  have hr : u.startRefresh = (u.restartGroups (List.range 8)).restartScans ((List.range 32).filter fun p => u.portOn p) := rfl
  obtain ⟨h1, h2, -⟩ := u.restartGroups_spec (List.range 8)
  have hon : ∀ p, u.portOn p = s.portOn p := by rw [hu]; exact fun _ => rfl
  have hprof : ∀ p, (u.restartGroups (List.range 8)).prof p = s.prof p := fun p => (h1.prof p).trans (by rw [hu]; rfl)
  have hscan : ∀ p, (u.restartGroups (List.range 8)).scanOf p = s.scanOf p := fun p => State.scanOf_of_scans (h1.scans.trans (by rw [hu])) p
  have hdark := h1.dark
  generalize u.restartGroups (List.range 8) = v at hr h2 hprof hscan hdark
  obtain ⟨k1, -, k3, -⟩ := v.restartScans_spec ((List.range 32).filter fun p => u.portOn p)
  refine ⟨_, hx, ?_⟩
  rw [hr]
  generalize v.restartScans ((List.range 32).filter fun p => u.portOn p) = t at k1 k3
  have hk3 : ∀ p, p < 32 → s.portOn p = true → (s.prof p).direct = true → scanStarts (s.scanOf p) (t.scanOf p) := fun p hp ho hd => by
    rw [← hscan]
    exact k3 p (List.mem_filter.mpr ⟨List.mem_range.mpr hp, (hon p).trans ho⟩) (by rw [hprof]; exact hd)
  obtain ⟨_, _, rfl⟩ := k1
  refine ⟨hdark.1.trans (by rw [hu]), hdark.2.1.trans (by rw [hu]), fun p hp ho hd => ?_, fun g p hg hl hp hd => ?_⟩
  · obtain ⟨e1, e2, e3, -⟩ := hk3 p hp ho hd
    exact ⟨e1, e2, e3⟩
  · exact h2 g p (List.mem_range.mpr hg) (by rw [hu]; exact hl) (by rw [hu]; exact hp) (by rw [hu]; exact hd)

theorem gridPoint_dark {s : State} (hf : s.frozen = false) (hc : s.bit Reg.PNL_CTRL 0 = true) (h1 : s.pnl.oldTim ≠ none) (h2 : s.pnl.gridSplit = true) :
    Completes .gridPoint s fun t => t.pnl.dark = true ∧ t.pnl.oldTim = none ∧ t.pnl.gridSplit = false ∧
      (∀ g p row en, g < 8 → s.groupPort g = some p → s.pnl.groups[g]? = some (row, en) → t.pnl.groups[g]? = some (row, false)) := by
  obtain ⟨u, hu⟩ : ∃ u, u = ({ s with pnl := { s.pnl with dark := true, oldTim := none, gridSplit := false } } : State) := ⟨_, rfl⟩
  have hsome : (s.pnl.oldTim.isSome && s.pnl.gridSplit) = true := by
    rw [h2, Bool.and_true]
    exact Option.isSome_iff_ne_none.mpr h1
  have hx : exec .gridPoint s = .next (u.disableGroups (List.range 8)) :=
    (if_neg (by rw [hf]; decide)).trans ((if_neg (by rw [hc]; decide)).trans ((if_pos hsome).trans (by rw [hu]; rfl)))
  obtain ⟨k1, k2⟩ := u.disableGroups_spec (List.range 8)
  obtain ⟨d1, d2, d3⟩ := k1.dark
  refine ⟨_, hx, d1.trans (by rw [hu]), d2.trans (by rw [hu]), d3.trans (by rw [hu]), fun g p row en hg hp hgr => ?_⟩
  obtain ⟨e, he, -, hoff⟩ := k2 g row en (by rw [hu]; exact hgr)
  rw [he, hoff p (List.mem_range.mpr hg) (by rw [hu]; exact hp)]

/-- A scan group steps, or is disabled after its last row (R200). -/
theorem scanRowStep_steps {g : Fin 8} {p row : Nat} {en : Bool} {s : State} (hf : s.frozen = false) (hp : s.groupPort g.val = some p)
    (hg : s.pnl.groups[g.val]? = some (row, en)) (hc : s.bit Reg.PNL_CTRL 0 = true) (hd : s.pnl.dark = false) (hdir : (s.prof p).direct = false) :
    (row + 1 < (s.prof p).rows → Completes (.scanRowStep g) s fun t =>
      t.pnl.groups[g.val]? = some (row + 1, en) ∧ t.out = s.out ++ [.panelScan g.val (row + 1) (en && !s.groupBlanked g.val)] ∧ t.regs = s.regs) ∧
    ((s.prof p).rows ≤ row + 1 → Completes (.scanRowStep g) s fun t =>
      t.pnl.groups[g.val]? = some (row, false) ∧ t.out = s.out ++ [.panelScan g.val row false] ∧ t.regs = s.regs) := by
  have hl : g.val < s.pnl.groups.length := (List.getElem?_eq_some_iff.mp hg).1
  have hset : ∀ r e, s.setGroup g.val r e = ({ s with pnl := { s.pnl with groups := s.pnl.groups.set g.val (r, e) } } : State).emit
      (.panelScan g.val r (e && !s.groupBlanked g.val)) := fun r e => by
    rw [State.setGroup, State.driveGroup]
    dsimp only
    rw [List.getElem?_set_self hl]
    rfl
  have hx : exec (.scanRowStep g) s = (if row + 1 < (s.prof p).rows then .next (s.setGroup g.val (row + 1) en) else .next (s.setGroup g.val row false)) := by
    refine (if_neg (by rw [hf]; decide)).trans ?_
    rw [hp, hg]
    exact if_neg (by rw [hdir, hc, hd]; decide)
  refine ⟨fun h => ⟨_, hx.trans (if_pos h), ?_⟩, fun h => ⟨_, hx.trans (if_neg (by omega)), ?_⟩⟩
  · rw [hset]
    exact ⟨List.getElem?_set_self hl, rfl, rfl⟩
  · rw [hset]
    exact ⟨List.getElem?_set_self hl, by rw [Bool.false_and]; rfl, rfl⟩

theorem scanRowStep_idle {g : Fin 8} {s : State} (h : s.groupPort g.val = none ∨ ∃ p, s.groupPort g.val = some p ∧
    (s.bit Reg.PNL_CTRL 0 = false ∨ s.pnl.dark = true ∨ (s.prof p).direct = true)) : exec (.scanRowStep g) s = .next s := by
  show execScanRowStep g s = .next s
  unfold execScanRowStep
  split
  · rfl
  rcases h with h | ⟨p, hp, h⟩
  · rw [h]
  · rw [hp]
    cases s.pnl.groups[g.val]? with
    | none => rfl
    | some e => exact if_pos (by rcases h with h | h | h <;> simp [h])

/-- The swap is sent on every buffered port (R201, R210). -/
theorem swapCommand_sends {s : State} (hf : s.frozen = false) (hd : s.pnl.swapDue = true) (hc : s.bit Reg.PNL_CTRL 0 = true) : Completes .swapCommand s fun t =>
    t.pnl.swapDue = false ∧ t.pnl.holdOn = (s.pnl.holdOn && !s.pnl.blankDue.contains (.hold false)) ∧ SameMemory s t := by
  refine ⟨_, (if_neg (by rw [hf]; decide)).trans (if_pos (by rw [hd, hc]; rfl)), ?_⟩
  dsimp only
  generalize hu : ({ s with pnl := { s.pnl with swapDue := false, holdOn := s.pnl.holdOn && !s.pnl.blankDue.contains (.hold false), blankDue := _ } } : State) = u
  obtain ⟨h1, h2, -⟩ := State.showBlank_spec s.blanked u
  have he := Emitted.foldl (fun t p => State.emitted_sendCommand p 1 0 t) (u.showBlank s.blanked).bufferedLeads (u.showBlank s.blanked)
  generalize List.foldl _ (u.showBlank s.blanked) _ = t at he
  have hp : t.pnl = u.pnl := he.pnl.trans h1
  refine ⟨?_, ?_, State.byte_congr (he.mem.trans (h2.trans (by rw [← hu])))⟩
  · rw [hp, ← hu]
  · rw [hp, ← hu]

/-! Exchange points and plane slots (R202, R205, R206, R209). -/

/-- The stores after their bases are checked. -/
def State.basesChecked (s : State) : State :=
  if s.fsAgree then
    ({ s with pnl := { s.pnl with fsGood := ((s.reg (Reg.PNL_FSBASEx 0)).toNat, (s.reg (Reg.PNL_FSBASEx 1)).toNat) } } : State).matched 4
  else (s.mismatch 4).raise0 stPNL 5

theorem State.basesChecked_spec (s : State) : s.basesChecked.mem = s.mem ∧ s.basesChecked.fsFront = s.fsFront ∧ s.basesChecked.pnl.exchangeDue = s.pnl.exchangeDue ∧
    (s.fsAgree = true → s.basesChecked.pnl.fsGood = ((s.reg (Reg.PNL_FSBASEx 0)).toNat, (s.reg (Reg.PNL_FSBASEx 1)).toNat)) ∧
    (s.fsAgree = false → s.basesChecked.pnl.fsGood = s.pnl.fsGood ∧ s.basesChecked.bit Reg.PNL_STAT 5 = true) := by
  unfold State.basesChecked
  cases h : s.fsAgree
  · rw [if_neg (by decide)]
    have hm : Told ((s.setBit Reg.COT_MISMATCH 4 true).setBit Reg.COT_MMACT 4 true) (s.mismatch 4) := State.told_logEvent ..
    have ht := hm.trans (State.told_raise0 stPNL 5 (s.mismatch 4))
    refine ⟨ht.mem, ?_, ?_, fun h => (nomatch h), fun _ => ⟨?_, State.bit_raise0_same (r := stPNL) _ (by decide) (by decide) (by decide)⟩⟩
    · refine State.f_of_reg ?_ 0 0
      rw [State.reg_raise0_ne _ 5 (by decide) (by decide) (by decide)]
      exact ((State.logEvent_noted ..).regs _ (by decide)).trans ((State.reg_setBit_ne _ (by decide) ..).trans (State.reg_setBit_ne s (by decide) ..))
    · exact congrArg PnlSt.exchangeDue ht.pnl
    · exact congrArg PnlSt.fsGood ht.pnl
  · rw [if_pos rfl]
    refine ⟨rfl, ?_, rfl, fun _ => rfl, fun h => (nomatch h)⟩
    exact State.f_of_reg (State.reg_setBit_ne ({ s with pnl := { s.pnl with fsGood := _ } } : State) (by decide) ..) 0 0

theorem storeExchange_spec {s : State} (hf : s.frozen = false) (ripe : Bool) : Completes (.storeExchange ripe) s fun t => SameMemory s t ∧
    (s.pnl.exchangeDue = true → ripe = true → t.fsFront = 1 - s.fsFront ∧ t.pnl.exchangeDue = false) ∧
    (s.pnl.exchangeDue = false ∨ ripe = false → t.fsFront = s.fsFront ∧ t.pnl.exchangeDue = s.pnl.exchangeDue) ∧
    (s.fsAgree = true → t.pnl.fsGood = ((s.reg (Reg.PNL_FSBASEx 0)).toNat, (s.reg (Reg.PNL_FSBASEx 1)).toNat)) ∧
    (s.fsAgree = false → t.pnl.fsGood = s.pnl.fsGood ∧ t.bit Reg.PNL_STAT 5 = true) := by
  have hx : exec (.storeExchange ripe) s = if s.pnl.exchangeDue && ripe then
      .next (({ s.basesChecked with pnl := { s.basesChecked.pnl with exchangeDue := false } } : State).setF Reg.PNL_FSSTAT 0 0 (1 - s.fsFront))
    else .next s.basesChecked := if_neg (by rw [hf]; decide)
  obtain ⟨h1, h2, h3, h4, h5⟩ := s.basesChecked_spec
  by_cases hb : (s.pnl.exchangeDue && ripe) = true
  · rw [if_pos hb] at hx
    refine ⟨_, hx, State.byte_congr h1, fun _ _ => ⟨?_, rfl⟩, fun h => ?_, h4, fun h => ⟨(h5 h).1, ?_⟩⟩
    · refine (State.f_setF_same _ _ (by decide)).trans ?_
      have : s.fsFront < 2 := fld_lt ..
      exact Nat.mod_eq_of_lt (by omega)
    · rcases h with h | h <;> simp [h] at hb
    · refine (State.bit_of_reg (State.reg_setF_ne _ (by decide) ..) 5).trans (h5 h).2
  · rw [if_neg hb] at hx
    refine ⟨_, hx, State.byte_congr h1, fun k1 k2 => ?_, fun _ => ⟨h2, h3⟩, h4, h5⟩
    rw [k1, k2] at hb
    exact absurd rfl hb

section
variable {p : Fin 32} {s : State}

/-- Where the plane slot of a direct port leads. -/
theorem execPlaneSlot_eq {x : ScanSt} {n : Nat × Nat} (hf : s.frozen = false) (hx : x = s.scanOf p.val)
    (hn : n = nextPlane (s.prof p.val).rows (s.f Reg.QDL_STRUCT 12 8) x.row x.plane) (h1 : s.bit Reg.PNL_CTRL 0 = true) (h2 : s.portOn p.val = true)
    (h3 : (s.prof p.val).direct = true) (h4 : s.pnl.dark = false) : ∃ (u : State) (out : List Byte → Out), Regrouped s u ∧ exec (.planeSlot p) s =
      match x.fetched.find? (fun e => decide (e.1 = n.1) && decide (e.2.1 = n.2)) with
      | some e => .next ((u.emit (out e.2.2)).setScan { x with row := n.1, plane := n.2, shifted := e.2.2, latch := e.2.2, fetched := x.fetched.erase e })
      | none => .next ((((u.emit (out x.shifted)).setScan { x with row := n.1, plane := n.2, latch := x.shifted }).count (Reg.PNL_PAIRq_CNT (p.val / 2)) 15 0).raise
          stPNL 6 (wd p.val) 0 0) := by
  subst hx hn
  refine ⟨if (s.scanOf p.val).plane = 0 ∧ s.groupPort (fld (s.portCfg p.val) 6 4) = some p.val then s.setGroup (fld (s.portCfg p.val) 6 4) (s.scanOf p.val).row true else s,
    fun shifted => Out.panelPlane p.val (s.scanOf p.val).row (s.scanOf p.val).plane (if s.blanked then 0 else 2 ^ (s.scanOf p.val).plane * fld s.dirTim 7 0)
      (s.prof p.val).gclkHigh (s.scanOf p.val).latch (s.prof p.val).runSlots ((s.prof p.val).latw 0) (s.prof p.val).latHigh shifted, ?_,
    (if_neg (by rw [hf]; decide)).trans ((if_neg (by rw [h1, h2, h3, h4]; decide)).trans rfl)⟩
  split
  · exact State.regrouped_setGroup ..
  · exact .refl s

theorem planeSlot_lights {x : ScanSt} {n : Nat × Nat} (hf : s.frozen = false) (hx : x = s.scanOf p.val)
    (hn : n = nextPlane (s.prof p.val).rows (s.f Reg.QDL_STRUCT 12 8) x.row x.plane) (h1 : s.bit Reg.PNL_CTRL 0 = true) (h2 : s.portOn p.val = true)
    (h3 : (s.prof p.val).direct = true) (h4 : s.pnl.dark = false) :
    (∀ e : Nat × Nat × List Byte, x.fetched.find? (fun e => decide (e.1 = n.1) && decide (e.2.1 = n.2)) = some e → Completes (.planeSlot p) s fun t =>
      (t.scanOf p.val).row = e.1 ∧ (t.scanOf p.val).plane = e.2.1 ∧ (t.scanOf p.val).latch = e.2.2 ∧ (t.scanOf p.val).fetched = x.fetched.erase e ∧
      t.regs = s.regs ∧ SameMemory s t) ∧
    (x.fetched.find? (fun e => decide (e.1 = n.1) && decide (e.2.1 = n.2)) = none → Completes (.planeSlot p) s fun t =>
      (t.scanOf p.val).row = n.1 ∧ (t.scanOf p.val).plane = n.2 ∧ (t.scanOf p.val).latch = x.shifted ∧ t.bit Reg.PNL_STAT 6 = true ∧
      t.f (Reg.PNL_PAIRq_CNT (p.val / 2)) 15 0 = sat 65535 (s.f (Reg.PNL_PAIRq_CNT (p.val / 2)) 15 0 + 1) ∧ SameMemory s t) := by
  obtain ⟨u, out, hu, he⟩ := execPlaneSlot_eq hf hx hn h1 h2 h3 h4
  have hport : x.port = p.val := by
    rw [hx]
    exact s.port_scanOf p.val
  refine ⟨fun e h => ?_, fun h => ?_⟩
  · simp only [h] at he
    have hen := List.find?_some h
    simp only [Bool.and_eq_true, decide_eq_true_eq] at hen
    refine ⟨_, he, ?_⟩
    dsimp only
    rw [State.scanOf_setScan_same (x := { x with row := n.1, plane := n.2, shifted := e.2.2, latch := e.2.2, fetched := x.fetched.erase e }) hport]
    exact ⟨hen.1.symm, hen.2.symm, rfl, rfl, hu.regs, State.byte_congr hu.mem⟩
  · simp only [h] at he
    refine ⟨_, he, ?_⟩
    have hp2 := p.isLt
    have hne : Reg.PNL_PAIRq_CNT (p.val / 2) ≠ stPNL.addr := by
      simp only [Reg.PNL_PAIRq_CNT, stPNL, Reg.PNL_STAT]
      omega
    have hev : ¬ eventReg (Reg.PNL_PAIRq_CNT (p.val / 2)) := by
      have hb : blockOf (Reg.PNL_PAIRq_CNT (p.val / 2)) = 7 := blockOf_eq (by simp only [Reg.PNL_PAIRq_CNT]; omega) (by decide)
      simp [eventReg, hb]
    have ht : Told (((u.emit (out x.shifted)).setScan { x with row := n.1, plane := n.2, latch := x.shifted }).count (Reg.PNL_PAIRq_CNT (p.val / 2)) 15 0)
        ((((u.emit (out x.shifted)).setScan { x with row := n.1, plane := n.2, latch := x.shifted }).count (Reg.PNL_PAIRq_CNT (p.val / 2)) 15 0).raise
          stPNL 6 (wd p.val) 0 0) := State.told_raise ..
    have hs := State.scanOf_setScan_same (x := { x with row := n.1, plane := n.2, latch := x.shifted }) hport (u.emit (out x.shifted))
    dsimp only
    rw [State.scanOf_of_scans (congrArg PnlSt.scans ht.pnl)]
    refine ⟨congrArg ScanSt.row hs, congrArg ScanSt.plane hs, congrArg ScanSt.latch hs, State.raise_bit _ stPNL _ _ _ (by decide) (by decide) (StatReg.src_lt (by decide)), ?_,
      State.byte_congr (ht.mem.trans hu.mem)⟩
    rw [State.f_of_reg (State.raise_reg _ stPNL 6 _ _ _ hne hev (StatReg.src_lt (by decide))), State.f_count_same _ _ (by decide)]
    exact congrArg (fun n => sat 65535 (n + 1)) (State.f_of_reg (State.reg_of_regs hu.regs _) 15 0)

theorem planeSlot_idle (h : s.bit Reg.PNL_CTRL 0 = false ∨ s.portOn p.val = false ∨ (s.prof p.val).direct = false ∨ s.pnl.dark = true) :
    exec (.planeSlot p) s = .next s := by
  show execPlaneSlot p s = .next s
  unfold execPlaneSlot
  split
  · rfl
  · exact if_pos (by rcases h with h | h | h | h <;> simp [h])

/-- A plane-row read ahead (R209). -/
theorem scanoutPrefetch_reads {row plane a n : Nat} (hf : s.frozen = false) (hn : n = (s.prof p.val).planeBytes)
    (ha : a = s.fsBase s.fsFront + s.storeOff (s.f Reg.QDL_STRUCT 12 8) p.val + (row * s.f Reg.QDL_STRUCT 12 8 + plane) * n)
    (h1 : s.bit Reg.PNL_CTRL 0 = true) (h2 : s.portOn p.val = true) (h3 : (s.prof p.val).direct = true) (h4 : (s.scanOf p.val).fetched.length < 2)
    (h5 : row < (s.prof p.val).rows) (h6 : plane < s.f Reg.QDL_STRUCT 12 8) :
    ((s.portRead 4 a n).1 = 0 → Completes (.scanoutPrefetch p row plane) s fun t =>
      (t.scanOf p.val).fetched = (s.scanOf p.val).fetched ++ [(row, plane, (s.portRead 4 a n).2.1)]) ∧
    ((s.portRead 4 a n).1 ≠ 0 → Completes (.scanoutPrefetch p row plane) s fun t =>
      (t.scanOf p.val).fetched = (s.scanOf p.val).fetched ++ [(row, plane, List.replicate n 0)] ∧ t.bit Reg.PNL_STAT 7 = true) := by
  subst hn ha
  have hc : (s.bit Reg.PNL_CTRL 0 && s.portOn p.val && (s.prof p.val).direct && decide ((s.scanOf p.val).fetched.length < 2) && decide (row < (s.prof p.val).rows) &&
      decide (plane < s.f Reg.QDL_STRUCT 12 8)) = true := by
    rw [h1, h2, h3, decide_eq_true h4, decide_eq_true h5, decide_eq_true h6]
    rfl
  generalize hr : s.portRead 4 (s.fsBase s.fsFront + s.storeOff (s.f Reg.QDL_STRUCT 12 8) p.val + (row * s.f Reg.QDL_STRUCT 12 8 + plane) * (s.prof p.val).planeBytes)
    (s.prof p.val).planeBytes = r
  have hx : exec (.scanoutPrefetch p row plane) s =
      .next (if r.1 = 0 then r.2.2.setScan { s.scanOf p.val with fetched := (s.scanOf p.val).fetched ++ [(row, plane, if r.1 = 0 then r.2.1 else List.replicate (s.prof p.val).planeBytes 0)] }
        else (r.2.2.setScan { s.scanOf p.val with fetched := (s.scanOf p.val).fetched ++ [(row, plane, if r.1 = 0 then r.2.1 else List.replicate (s.prof p.val).planeBytes 0)] }).raise
          stPNL 7 (wd p.val) 0 0) := by
    refine (if_neg (by rw [hf]; decide)).trans ((if_pos hc).trans ?_)
    dsimp only
    rw [hr]
  have hs : ∀ l, (r.2.2.setScan { s.scanOf p.val with fetched := l }).scanOf p.val = { s.scanOf p.val with fetched := l } := fun l =>
    State.scanOf_setScan_same (x := { s.scanOf p.val with fetched := l }) (s.port_scanOf p.val) _
  refine ⟨fun h0 => ?_, fun h0 => ?_⟩
  · simp only [if_pos h0] at hx
    exact ⟨_, hx, congrArg ScanSt.fetched (hs _)⟩
  · simp only [if_neg h0] at hx
    refine ⟨_, hx, ?_, State.raise_bit _ stPNL _ _ _ (by decide) (by decide) (StatReg.src_lt (by decide))⟩
    rw [State.scanOf_of_scans (congrArg PnlSt.scans (State.told_raise ..).pnl), hs]

theorem scanoutPrefetch_idle {row plane : Nat} (h : s.bit Reg.PNL_CTRL 0 = false ∨ s.portOn p.val = false ∨ (s.prof p.val).direct = false ∨
    2 ≤ (s.scanOf p.val).fetched.length ∨ (s.prof p.val).rows ≤ row ∨ s.f Reg.QDL_STRUCT 12 8 ≤ plane) : exec (.scanoutPrefetch p row plane) s = .next s := by
  show execScanoutPrefetch p row plane s = .next s
  unfold execScanoutPrefetch
  split
  · rfl
  · refine if_neg ?_
    rcases h with h | h | h | h | h | h
    · simp [h]
    · simp [h]
    · simp [h]
    · simp [Nat.not_lt.mpr h]
    · simp [Nat.not_lt.mpr h]
    · simp [Nat.not_lt.mpr h]

end

/-! Blanking (R210). -/

/-- A cause of blanking begins or ends. -/
theorem State.blankChanges {u : State} {was r h : Bool} (hr : u.pnl.reqOn = r) (hh : u.pnl.holdOn = h) : (u.showBlank was).pnl = u.pnl ∧
    (u.showBlank was).bit Reg.PNL_BLANK 8 = (r || h) := by
  obtain ⟨h1, -, h3⟩ := u.showBlank_spec was
  refine ⟨h1, h3.trans ?_⟩
  rw [State.blanked, hr, hh]

/-- The clauses on the causes of blanking that are due. -/
theorem blank_due {s : State} (hf : s.frozen = false) (rest : List BlankEv) :
    (s.pnl.blankDue = .req true :: rest → Completes .blankStart s fun t =>
      t.pnl.reqOn = true ∧ t.pnl.holdOn = s.pnl.holdOn ∧ t.pnl.blankDue = rest ∧ t.bit Reg.PNL_BLANK 8 = true) ∧
    (s.pnl.blankDue = .hold true :: rest → Completes .blankStart s fun t =>
      t.pnl.holdOn = true ∧ t.pnl.reqOn = s.pnl.reqOn ∧ t.pnl.blankDue = rest ∧ t.bit Reg.PNL_BLANK 8 = true) ∧
    (s.pnl.blankDue = .req false :: rest → Completes .blankEnd s fun t =>
      t.pnl.reqOn = false ∧ t.pnl.holdOn = s.pnl.holdOn ∧ t.pnl.blankDue = rest ∧ t.bit Reg.PNL_BLANK 8 = s.pnl.holdOn) ∧
    (s.pnl.blankDue = .hold false :: rest → Completes .blankEnd s fun t =>
      t.pnl.holdOn = false ∧ t.pnl.reqOn = s.pnl.reqOn ∧ t.pnl.blankDue = rest ∧ t.bit Reg.PNL_BLANK 8 = s.pnl.reqOn) ∧
    (s.pnl.blankDue = .req false :: rest ∨ s.pnl.blankDue = .hold false :: rest → exec .blankStart s = .next s) ∧
    (s.pnl.blankDue = .req true :: rest ∨ s.pnl.blankDue = .hold true :: rest → exec .blankEnd s = .next s) := by
  refine ⟨fun h => ?_, fun h => ?_, fun h => ?_, fun h => ?_, fun h => ?_, fun h => ?_⟩
  · have hx : exec .blankStart s = .next (({ s with pnl := { s.pnl with reqOn := true, blankDue := rest } } : State).showBlank s.blanked) := by
      refine (if_neg (by rw [hf]; decide)).trans ?_
      rw [h]
    obtain ⟨h1, h2⟩ := State.blankChanges (u := { s with pnl := { s.pnl with reqOn := true, blankDue := rest } }) (was := s.blanked) rfl rfl
    exact ⟨_, hx, by rw [h1], by rw [h1], by rw [h1], h2.trans (Bool.true_or _)⟩
  · have hx : exec .blankStart s = .next (({ s with pnl := { s.pnl with holdOn := true, blankDue := rest } } : State).showBlank s.blanked) := by
      refine (if_neg (by rw [hf]; decide)).trans ?_
      rw [h]
    obtain ⟨h1, h2⟩ := State.blankChanges (u := { s with pnl := { s.pnl with holdOn := true, blankDue := rest } }) (was := s.blanked) rfl rfl
    exact ⟨_, hx, by rw [h1], by rw [h1], by rw [h1], h2.trans (Bool.or_true _)⟩
  · have hx : exec .blankEnd s = .next (({ s with pnl := { s.pnl with reqOn := false, blankDue := rest } } : State).showBlank s.blanked) := by
      refine (if_neg (by rw [hf]; decide)).trans ?_
      rw [h]
    obtain ⟨h1, h2⟩ := State.blankChanges (u := { s with pnl := { s.pnl with reqOn := false, blankDue := rest } }) (was := s.blanked) rfl rfl
    exact ⟨_, hx, by rw [h1], by rw [h1], by rw [h1], h2.trans (Bool.false_or _)⟩
  · have hx : exec .blankEnd s = .next (({ s with pnl := { s.pnl with holdOn := false, blankDue := rest } } : State).showBlank s.blanked) := by
      refine (if_neg (by rw [hf]; decide)).trans ?_
      rw [h]
    obtain ⟨h1, h2⟩ := State.blankChanges (u := { s with pnl := { s.pnl with holdOn := false, blankDue := rest } }) (was := s.blanked) rfl rfl
    exact ⟨_, hx, by rw [h1], by rw [h1], by rw [h1], h2.trans (Bool.or_false _)⟩
  · refine (if_neg (by rw [hf]; decide)).trans ?_
    rcases h with h | h <;> rw [h]
  · refine (if_neg (by rw [hf]; decide)).trans ?_
    rcases h with h | h <;> rw [h]

/-! Driver commands (R211). -/

theorem fld_cmdWord {k : Nat} (hk : k < 8) (x : BitVec 16) : fld (wd (k + 2 ^ 16 * x.toNat)) 2 0 = k ∧ fld (wd (k + 2 ^ 16 * x.toNat)) 31 16 = x.toNat := by
  have hx := x.isLt
  simp only [fld, wd, BitVec.toNat_ofNat, Nat.shiftRight_eq_div_pow]
  omega

/-- A command request. -/
theorem State.pnlCmdq_spec {v : Word} {k d : Nat} {ports : List Nat} {s : State} (hk : fld v 2 0 = k) (hd : fld v 31 16 = d) (h5 : 5 ≤ k)
    (hp : ports = (s.leads.filter fun p => (s.members p).any fun k => s.bit Reg.PNL_CMDMASK k)) :
    ((∀ p ∈ ports, (s.prof p).direct = false ∧ (s.prof p).latw k ≠ 0) → s.pnl.queue.length < 16 →
      (ports ≠ [] → s.pnlCmdq v = { s with pnl := { s.pnl with queue := s.pnl.queue ++ [⟨k, d, ports⟩] } }) ∧ (ports = [] → s.pnlCmdq v = s)) ∧
    ((∃ p ∈ ports, (s.prof p).direct = true ∨ (s.prof p).latw k = 0) → s.pnlCmdq v = s.raise0 stPNL 4) ∧
    ((∀ p ∈ ports, (s.prof p).direct = false ∧ (s.prof p).latw k ≠ 0) → 16 ≤ s.pnl.queue.length → s.pnlCmdq v = s.raise0 stPNL 3) := by
  subst hk hd
  have hx : s.pnlCmdq v = if ports.any (fun p => decide ((s.prof p).latw (fld v 2 0) = 0) || (s.prof p).direct) then s.raise0 stPNL 4
      else if s.pnl.queue.length ≥ 16 then s.raise0 stPNL 3
      else if ports.isEmpty then s
      else { s with pnl := { s.pnl with queue := s.pnl.queue ++ [⟨fld v 2 0, fld v 31 16, ports⟩] } } := by
    rw [hp]
    exact if_neg (by omega)
  have hgood : (∀ p ∈ ports, (s.prof p).direct = false ∧ (s.prof p).latw (fld v 2 0) ≠ 0) →
      ¬ ports.any (fun p => decide ((s.prof p).latw (fld v 2 0) = 0) || (s.prof p).direct) = true := fun h k => by
    obtain ⟨p, hp, hb⟩ := List.any_eq_true.mp k
    obtain ⟨h1, h2⟩ := h p hp
    simp [h1, h2] at hb
  refine ⟨fun h hq => ⟨fun hne => ?_, fun he => ?_⟩, fun ⟨p, hp, h⟩ => ?_, fun h hq => ?_⟩
  · rw [hx, if_neg (hgood h), if_neg (by omega), if_neg (by simpa using hne)]
  · rw [hx, if_neg (hgood h), if_neg (by omega), if_pos (by rw [he]; rfl)]
  · rw [hx, if_pos (List.any_eq_true.mpr ⟨p, hp, by rcases h with h | h <;> simp [h]⟩)]
  · rw [hx, if_neg (hgood h), if_pos hq]

/-- The three command requests are writes of PNL_CMDQ. -/
theorem exec_panelCommand {m : Acc} {c : Instr} {k d : Nat} {s : State} (hm : m.debug = false) (hoff : s.targetOff Reg.PNL_CMDQ = false)
    (h : (c = .pnlCmdCfg m ∧ k = 5 ∧ d = 0) ∨ (∃ x : BitVec 16, c = .pnlCmdGain m x ∧ k = 6 ∧ d = x.toNat) ∨ (∃ x : BitVec 16, c = .pnlCmdUser m x ∧ k = 7 ∧ d = x.toNat)) :
    ∃ v : Word, fld v 2 0 = k ∧ fld v 31 16 = d ∧ 5 ≤ k ∧ exec c s = .next ((s.pnlCmdq v).reply 0 0) := by
  have hx : ∀ v, Host.Outcome.next (s.askWrite m Reg.PNL_CMDQ v) = (Host.Outcome.next ((s.pnlCmdq v).reply 0 0) : Res) := fun v =>
    congrArg Host.Outcome.next (State.askWrite_word (.inl hm) hoff (by decide) rfl)
  rcases h with ⟨rfl, rfl, rfl⟩ | ⟨x, rfl, rfl, rfl⟩ | ⟨x, rfl, rfl, rfl⟩
  · exact ⟨5, by decide, by decide, by decide, hx 5⟩
  · exact ⟨_, (fld_cmdWord (by decide) x).1, (fld_cmdWord (by decide) x).2, by decide, hx _⟩
  · exact ⟨_, (fld_cmdWord (by decide) x).1, (fld_cmdWord (by decide) x).2, by decide, hx _⟩

/-- The port sends the oldest request that names it. -/
theorem pnlCommandSend_spec {port : Fin 32} {p : Nat} {s : State} (hf : s.frozen = false) (hp : s.leadPort port.val = p) :
    (s.bit Reg.PNL_CTRL 0 = true → s.pnl.units.any (fun u => decide (u.port = p) && u.running) = false →
      (∀ r : CmdReq, s.pnl.queue.find? (fun r => r.ports.contains p) = some r → Completes (.pnlCommandSend port) s fun t =>
        t.pnl.queue = takePort p s.pnl.queue ∧ t.out.length = s.out.length + 1 ∧ t.regs = s.regs ∧
        (∀ rest, s.pnl.queue = { r with ports := [p] } :: rest → t.pnl.queue = rest)) ∧
      (s.pnl.queue.find? (fun r => r.ports.contains p) = none → exec (.pnlCommandSend port) s = .next s)) ∧
    (s.bit Reg.PNL_CTRL 0 = false ∨ s.pnl.units.any (fun u => decide (u.port = p) && u.running) = true → exec (.pnlCommandSend port) s = .next s) := by
  subst hp
  refine ⟨fun h1 h2 => ⟨fun r hr => ?_, fun hr => ?_⟩, fun h => ?_⟩
  · obtain ⟨data, hx⟩ : ∃ data, exec (.pnlCommandSend port) s =
        .next (({ s with pnl := { s.pnl with queue := takePort (s.leadPort port.val) s.pnl.queue } } : State).sendCommand (s.leadPort port.val) r.cmd data) := by
      refine ⟨if r.cmd = 5 then (s.prof (s.leadPort port.val)).cfgval else r.data, (if_neg (by rw [hf]; decide)).trans ((if_neg (by rw [h1, h2]; decide)).trans ?_)⟩
      rw [hr]
    obtain ⟨o, ho⟩ := State.sendCommand_emits (s.leadPort port.val) r.cmd data ({ s with pnl := { s.pnl with queue := takePort (s.leadPort port.val) s.pnl.queue } } : State)
    rw [ho] at hx
    refine ⟨_, hx, rfl, List.length_append, rfl, fun rest hq => ?_⟩
    show takePort (s.leadPort port.val) s.pnl.queue = rest
    rw [hq]
    simp [takePort]
  · refine (if_neg (by rw [hf]; decide)).trans ((if_neg (by rw [h1, h2]; decide)).trans ?_)
    rw [hr]
  · exact (if_neg (by rw [hf]; decide)).trans (if_pos (by rcases h with h | h <;> simp [h]))

/-! The map RAM (R194). -/

theorem State.f_mapStep (s : State) : s.mapStep.f Reg.PNL_MAPADDR 15 0 = (s.f Reg.PNL_MAPADDR 15 0 + 1) % 65536 := s.f_setF_same _ (by decide)

theorem pnlMapdata_spec {m : Acc} {s : State} (hm : m.debug = false) (hoff : s.targetOff Reg.PNL_MAPDATA = false) :
    (∀ v : Word, s.mapInUse (s.f Reg.PNL_MAPADDR 15 0) = false → Completes (.pnlMapdata m true v) s fun t =>
      Sparse.get (fun _ => (0 : Word)) t.pnl.map (s.f Reg.PNL_MAPADDR 15 0) = v &&& 0x03FFFFFF ∧
      t.f Reg.PNL_MAPADDR 15 0 = (s.f Reg.PNL_MAPADDR 15 0 + 1) % 65536) ∧
    (∀ v : Word, s.mapInUse (s.f Reg.PNL_MAPADDR 15 0) = true → Completes (.pnlMapdata m true v) s fun t =>
      t.pnl.map = s.pnl.map ∧ t.bit Reg.PNL_STAT 2 = true ∧ t.f Reg.PNL_MAPADDR 15 0 = (s.f Reg.PNL_MAPADDR 15 0 + 1) % 65536) ∧
    (∀ v : Word, Completes (.pnlMapdata m false v) s fun t =>
      t.answer = ⟨0, Sparse.get (fun _ => (0 : Word)) s.pnl.map (s.f Reg.PNL_MAPADDR 15 0)⟩ ∧ t.pnl = s.pnl ∧
      t.f Reg.PNL_MAPADDR 15 0 = (s.f Reg.PNL_MAPADDR 15 0 + 1) % 65536) := by
  have hx : ∀ v, exec (.pnlMapdata m true v) s = .next (((s.mapPut (s.f Reg.PNL_MAPADDR 15 0) v).mapStep).reply 0 0) := fun v =>
    congrArg Host.Outcome.next (State.askWrite_word (.inl hm) hoff (by decide) rfl)
  refine ⟨fun v h => ⟨_, hx v, ?_⟩, fun v h => ⟨_, hx v, ?_⟩, fun v => ⟨_, congrArg Host.Outcome.next (State.askRead_word hm hoff (by decide) rfl rfl), rfl, rfl, s.f_mapStep⟩⟩
  · have e : s.mapPut (s.f Reg.PNL_MAPADDR 15 0) v =
        { s with pnl := { s.pnl with map := Sparse.set (fun _ => (0 : Word)) s.pnl.map (s.f Reg.PNL_MAPADDR 15 0) (v &&& 0x03FFFFFF) } } := if_neg (by rw [h]; decide)
    rw [e]
    exact ⟨Sparse.get_set_same _ s.pnl.map _ _, State.f_mapStep _⟩
  · have e : s.mapPut (s.f Reg.PNL_MAPADDR 15 0) v = s.raise0 stPNL 2 := if_pos h
    rw [e]
    refine ⟨congrArg PnlSt.map (State.told_raise0 stPNL 2 s).pnl, ?_, ?_⟩
    · exact (State.bit_of_reg (State.reg_setF_ne (s.raise0 stPNL 2) (by decide) ..) 2).trans (State.bit_raise0_same (r := stPNL) s (by decide) (by decide) (by decide))
    · refine (State.f_mapStep (s.raise0 stPNL 2)).trans ?_
      rw [State.f_raise0_ne s 2 15 0 (by decide) (by decide) (by decide)]

/-- Settles O19, command by command. -/
theorem panels : Obligations.Panels := by
  unfold Obligations.Panels
  refine ⟨fun s hf => ⟨fun hc => ⟨fun h => gridPoint_starts hf hc h, fun h1 h2 => gridPoint_dark hf hc h1 h2⟩, fun hc => ?_,
    fun g p row en hp hg => ⟨fun hc hd hdir => scanRowStep_steps hf hp hg hc hd hdir, fun h => scanRowStep_idle (.inr ⟨p, hp, h⟩)⟩, fun g h => scanRowStep_idle (.inl h),
    fun hd hc => swapCommand_sends hf hd hc, fun h => ?_, fun ripe => storeExchange_spec hf ripe,
    fun p x n hx hn => ⟨fun h1 h2 h3 h4 => planeSlot_lights hf hx hn h1 h2 h3 h4, fun h => planeSlot_idle h⟩,
    fun p row plane a n hn ha => ⟨fun h1 h2 h3 h4 h5 h6 => scanoutPrefetch_reads hf hn ha h1 h2 h3 h4 h5 h6, fun h => scanoutPrefetch_idle h⟩,
    fun rest => blank_due hf rest, fun h => ⟨?_, ?_⟩⟩,
    fun m s hm => ⟨fun v hoff => ?_, fun ports hoff hp => fun c k d hc => ?_, fun port p hf hp => pnlCommandSend_spec hf hp, fun hoff => pnlMapdata_spec hm hoff⟩⟩
  · exact (if_neg (by rw [hf]; decide)).trans (if_pos (by rw [hc]; rfl))
  · exact (if_neg (by rw [hf]; decide)).trans (if_neg (by rcases h with h | h <;> simp [h]))
  · refine (if_neg (by rw [hf]; decide)).trans ?_
    rw [h]
  · refine (if_neg (by rw [hf]; decide)).trans ?_
    rw [h]
  · have hx : exec (.blankRequest m v) s = .next ((s.blankRequest v).reply 0 0) := congrArg Host.Outcome.next (State.askWrite_word (.inl hm) hoff (by decide) rfl)
    have hb : (s.setBit Reg.PNL_BLANK 0 (bitAt v 0)).bit Reg.PNL_BLANK 0 = bitAt v 0 := s.bit_setBit_same _ _ (by decide)
    refine ⟨_, hx, ?_⟩
    unfold State.blankRequest
    dsimp only
    split
    · exact ⟨hb, rfl, fun a ha => State.reg_setBit_ne s ha .., fun _ => rfl⟩
    · exact ⟨hb, rfl, fun a ha => State.reg_setBit_ne s ha .., fun _ => rfl⟩
  · obtain ⟨v, hk, hd, h5, hx⟩ := exec_panelCommand hm hoff hc
    obtain ⟨h1, h2, h3⟩ := State.pnlCmdq_spec hk hd h5 hp
    refine ⟨fun hg hq => ⟨fun hne => ⟨_, hx, ?_⟩, fun he => ⟨_, hx, ?_⟩⟩, fun hbad => ⟨_, hx, ?_⟩, fun hg hq => ⟨_, hx, ?_⟩⟩
    · rw [(h1 hg hq).1 hne]
      exact ⟨rfl, rfl⟩
    · rw [(h1 hg hq).2 he]
      exact ⟨rfl, rfl⟩
    · rw [h2 hbad]
      exact ⟨(State.told_raise0 stPNL 4 s).pnl, State.bit_raise0_same (r := stPNL) s (by decide) (by decide) (by decide)⟩
    · rw [h3 hg hq]
      exact ⟨(State.told_raise0 stPNL 3 s).pnl, State.bit_raise0_same (r := stPNL) s (by decide) (by decide) (by decide)⟩

end Sys2Proof.Machine
end

section
/-! The statement on the window, mail and debug transfers of the host port. -/

namespace Sys2Proof.Machine

/-! What traffic finds: a wake changes no register and nothing of the port. -/

@[simp] theorem State.freeInbound_rouse (s : State) : s.rouse.freeInbound = s.freeInbound := by simp [State.freeInbound, State.bit, State.reg]

@[simp] theorem State.hostTakes_rouse (s : State) : s.rouse.hostTakes = s.hostTakes := by simp [State.hostTakes, State.bit, State.reg]

@[simp] theorem State.hostCut_rouse (s : State) (n : Nat) (data : List Byte) : s.rouse.hostCut n data = s.hostCut n data := by simp [State.hostCut]

theorem State.reg_rouse (s : State) (a : Nat) : s.rouse.reg a = s.reg a := State.reg_of_regs s.regs_rouse a

theorem State.outBytes_congr {s t : State} (h : t.regs = s.regs) (k n : Nat) : t.outBytes k n = s.outBytes k n := by simp [State.outBytes, State.reg, h]

theorem length_flatMap_leBytes (g : Nat → Nat) (l : List Nat) : (l.flatMap fun j => leBytes 4 (g j)).length = 4 * l.length := by
  induction l with
  | nil => rfl
  | cons a l ih =>
    rw [List.flatMap_cons, List.length_append, ih, length_leBytes, List.length_cons]
    omega

theorem State.length_outBytes (s : State) (k n : Nat) : (s.outBytes k n).length = n := by
  rw [State.outBytes, List.length_take, length_flatMap_leBytes (fun j => (s.reg (Reg.MGT_MBOUTs k j)).toNat), List.length_range]
  omega

theorem leNat_lt (bs : List Byte) : leNat bs < 256 ^ bs.length := by
  induction bs with
  | nil => exact Nat.one_pos
  | cons b bs ih =>
    have hb := b.isLt
    rw [leNat, List.length_cons, Nat.pow_succ]
    omega

theorem leNat_take4_lt (bs : List Byte) : leNat (bs.take 4) < 2 ^ 32 :=
  (leNat_lt _).trans_le (Nat.pow_le_pow_right (by decide) (List.length_take_le 4 bs))

/-! Private writes of the main target (R490). -/

section
variable {s : State} (ha : s.daddr 0 ≠ none) (hp : s.pwr.state < 3)
include ha hp

/-- A main target that holds the host off takes no private write. -/
theorem hostHolds {c : Instr} (ht : s.hostTakes = false) (b : Byte) (bs : List Byte) (n : Nat)
    (hc : c ∈ [Instr.hi3cAddr b bs, .hi3cWrite bs, .hi3cMbwrite bs, .hi3cMbread n]) : exec c s = .next s.rouse := by
  have ht' : s.rouse.hostTakes = false := s.hostTakes_rouse.trans ht
  simp only [List.mem_cons, List.not_mem_nil, or_false] at hc
  rcases hc with rfl | rfl | rfl | rfl
  · refine congrArg Host.Outcome.next ((State.hostServe_go ha hp _).trans ?_)
    exact if_pos (by rw [ht']; rfl)
  · refine congrArg Host.Outcome.next ((State.hostServe_go ha hp _).trans ?_)
    exact if_neg (by rw [ht']; exact fun h => nomatch h.1)
  · refine congrArg Host.Outcome.next ((State.hostServe_go ha hp _).trans ?_)
    exact if_pos (by rw [ht']; rfl)
  · refine congrArg Host.Outcome.next ((State.hostServe_go ha hp _).trans ?_)
    exact if_neg (by rw [ht']; decide)

section
variable (ht : s.hostTakes = true)
include ht

/-- What the main target makes of a write that begins with `b`. -/
theorem execHi3cAddr_eq (b : Byte) (data : List Byte) : exec (.hi3cAddr b data) s = .next (
    if b = 0 ∨ 4 < b.toNat then ({ s.rouse with hi3c := { s.rouse.hi3c with slot := none } } : State).raise0 stHI3C 0
    else if b = 1 ∧ 4 ≤ (s.hostCut 1 data).length then s.rouse.setWindow (leNat ((s.hostCut 1 data).take 4)) else s.rouse) := by
  refine congrArg Host.Outcome.next ((State.hostServe_go ha hp _).trans ?_)
  dsimp only
  rw [s.hostCut_rouse, s.hostTakes_rouse, ht]
  exact if_neg (by decide)

theorem hi3cAddr_unknown {b : Byte} (hb : b = 0 ∨ 4 < b.toNat) (data : List Byte) : Completes (.hi3cAddr b data) s fun t =>
    t.bit Reg.HI3C_STAT 0 = true ∧ t.hi3c.slot = none ∧ t.hi3c.ptr = s.hi3c.ptr ∧ SameMemory s t := by
  have hk := State.told_raise0 stHI3C 0 ({ s.rouse with hi3c := { s.rouse.hi3c with slot := none } } : State)
  refine ⟨_, (execHi3cAddr_eq ha hp ht b data).trans (congrArg Host.Outcome.next (if_pos hb)), State.bit_raise0_same (r := stHI3C) _ (by decide) (by decide) (by decide), ?_, ?_, ?_⟩
  · exact congrArg Hi3cSt.slot hk.hi3c
  · exact (congrArg Hi3cSt.ptr hk.hi3c).trans (congrArg Hi3cSt.ptr s.hi3c_rouse :)
  · exact State.byte_congr (hk.mem.trans s.mem_rouse)

theorem hi3cAddr_points {data : List Byte} (hl : 4 ≤ (s.hostCut 1 data).length) : Completes (.hi3cAddr 1 data) s fun t =>
    t.hi3c = { s.hi3c with ptr := leNat ((s.hostCut 1 data).take 4) / 4 * 4, slot := none } ∧ t.regs = s.regs ∧ SameMemory s t := by
  refine ⟨_, (execHi3cAddr_eq ha hp ht 1 data).trans (congrArg Host.Outcome.next ((if_neg (by decide)).trans (if_pos ⟨rfl, hl⟩))), ?_, s.regs_rouse, s.byte_rouse⟩
  have hlt := leNat_take4_lt (s.hostCut 1 data)
  rw [State.setWindow, Nat.mod_eq_of_lt (by omega), s.hi3c_rouse]

theorem execHi3cWrite_eq (data : List Byte) : exec (.hi3cWrite data) s = .next (if 4 ≤ (s.hostCut 1 data).length then
    (s.rouse.setWindow (leNat ((s.hostCut 1 data).take 4))).windowWrite (payloadWords (s.hostCut 1 data) 4 (((s.hostCut 1 data).length - 4) / 4)) else s.rouse) := by
  refine congrArg Host.Outcome.next ((State.hostServe_go ha hp _).trans ?_)
  dsimp only
  rw [s.hostCut_rouse, s.hostTakes_rouse]
  exact if_congr (by simp [ht]) rfl rfl

theorem execHi3cMbwrite_eq (data : List Byte) : exec (.hi3cMbwrite data) s = .next (
    if (s.hostCut 1 data).length < 16 ∨ 2048 < (s.hostCut 1 data).length ∨ leNat (((s.hostCut 1 data).drop 2).take 2) + 16 ≠ (s.hostCut 1 data).length then
      ({ s.rouse with hi3c := { s.rouse.hi3c with slot := none } } : State).raise0 stHI3C 1
    else match s.freeInbound with
      | some k => ({ s.rouse with hi3c := { s.rouse.hi3c with slot := none } } : State).placeMail k (s.hostCut 1 data) 0x8000
      | none => ({ s.rouse with hi3c := { s.rouse.hi3c with slot := none } } : State).raise0 stHI3C 1) := by
  refine congrArg Host.Outcome.next ((State.hostServe_go ha hp _).trans ?_)
  dsimp only
  rw [s.hostCut_rouse, s.hostTakes_rouse, s.freeInbound_rouse, ht]
  exact if_neg (by decide)

theorem hi3cMbwrite_takes {data bs : List Byte} (hbs : bs = s.hostCut 1 data) (h1 : 16 ≤ bs.length) (h2 : bs.length ≤ 2048) (h3 : leNat ((bs.drop 2).take 2) + 16 = bs.length)
    {k : Nat} (hk : s.freeInbound = some k) : Completes (.hi3cMbwrite data) s fun t =>
      t.bit Reg.MGT_MBINSTAT k = true ∧ t.bit Reg.MGT_STAT 4 = true ∧ t.reg (Reg.MGT_MBINSRCs k) = 0x8000 ∧
      (∀ j, 4 * j + 4 ≤ bs.length → t.reg (Reg.MGT_MBINs k j) = leWord ((bs.drop (4 * j)).take 4)) ∧ SameMemory s t := by
  subst hbs
  obtain ⟨p1, p2, p3, p4, p5⟩ := State.placeMail_spec (freeInbound_lt hk) (s.hostCut 1 data) 0x8000 ({ s.rouse with hi3c := { s.rouse.hi3c with slot := none } } : State)
  refine ⟨_, (execHi3cMbwrite_eq ha hp ht data).trans (congrArg Host.Outcome.next ((if_neg (by omega)).trans (by rw [hk]))), p1, p2, p3, fun j hj => p4 j (by omega) hj,
    State.byte_congr (p5.trans s.mem_rouse)⟩

theorem hi3cMbwrite_discards {data bs : List Byte} (hbs : bs = s.hostCut 1 data)
    (h : bs.length < 16 ∨ 2048 < bs.length ∨ leNat ((bs.drop 2).take 2) + 16 ≠ bs.length ∨ s.freeInbound = none) : Completes (.hi3cMbwrite data) s fun t =>
      t.bit Reg.HI3C_STAT 1 = true ∧ t.reg Reg.MGT_MBINSTAT = s.reg Reg.MGT_MBINSTAT ∧ SameMemory s t := by
  subst hbs
  have hx : exec (.hi3cMbwrite data) s = .next (({ s.rouse with hi3c := { s.rouse.hi3c with slot := none } } : State).raise0 stHI3C 1) := by
    rw [execHi3cMbwrite_eq ha hp ht data]
    split
    · rfl
    · have hn : s.freeInbound = none := by tauto
      rw [hn]
  refine ⟨_, hx, State.bit_raise0_same (r := stHI3C) _ (by decide) (by decide) (by decide), ?_, ?_⟩
  · exact (State.reg_raise0_ne _ 1 (by decide) (by decide) (by decide)).trans (s.reg_rouse _)
  · exact State.byte_congr ((State.told_raise0 ..).mem.trans s.mem_rouse)

theorem hi3cMbread_selects (k : Nat) : Completes (.hi3cMbread k) s fun t =>
    t.hi3c = { s.hi3c with slot := if k < 4 then some (k, 0) else none } ∧ t.regs = s.regs ∧ SameMemory s t := by
  have hx : exec (.hi3cMbread k) s = .next { s.rouse with hi3c := { s.rouse.hi3c with slot := if k < 4 then some (k, 0) else none } } := by
    refine congrArg Host.Outcome.next ((State.hostServe_go ha hp _).trans ?_)
    exact if_pos (s.hostTakes_rouse.trans ht)
  refine ⟨_, hx, ?_, s.regs_rouse, s.byte_rouse⟩
  rw [s.hi3c_rouse]

end

end

/-! The window moves on by one word per access (R490). -/

/-- What a word through the window at `a` does beside its access. -/
theorem winErr_setWindow_spec (c a : Nat) (v : State) : (if c = 0 then v.setWindow (a + 4) else (v.setWindow (a + 4)).winErr c a).hi3c.ptr = (a + 4) / 4 * 4 % 2 ^ 32 ∧
    (c = 0 → (if c = 0 then v.setWindow (a + 4) else (v.setWindow (a + 4)).winErr c a).regs = v.regs) ∧
    (c ≠ 0 → (if c = 0 then v.setWindow (a + 4) else (v.setWindow (a + 4)).winErr c a).bit Reg.HI3C_STAT 2 = true) ∧
    SameMemory v (if c = 0 then v.setWindow (a + 4) else (v.setWindow (a + 4)).winErr c a) := by
  split
  · exact ⟨rfl, fun _ => rfl, fun h => absurd ‹_› h, fun _ => rfl⟩
  · have ht : Told (v.setWindow (a + 4)) ((v.setWindow (a + 4)).winErr c a) := by
      refine Told.trans ?_ (State.told_raise0 stHI3C 2 _)
      split
      · exact .refl _
      · exact .setReg ..
    exact ⟨congrArg Hi3cSt.ptr ht.hi3c, fun h => absurd h ‹_›, fun _ => State.bit_raise0_same (r := stHI3C) _ (by decide) (by decide) (by decide), State.byte_congr ht.mem⟩

theorem State.windowWrite_one {c : Nat} {w v : State} {x : Word} (h : w.busWrite32 hostAcc w.hi3c.ptr x = (c, v)) :
    w.windowWrite [x] = if c = 0 then v.setWindow (w.hi3c.ptr + 4) else (v.setWindow (w.hi3c.ptr + 4)).winErr c w.hi3c.ptr := by
  simp only [State.windowWrite, h]

theorem hi3cWrite_word {s w v : State} {c : Nat} {data bs : List Byte} (ha : s.daddr 0 ≠ none) (hp : s.pwr.state < 3) (ht : s.hostTakes = true) (hbs : bs = s.hostCut 1 data)
    (hl : bs.length = 8) (hw : w = s.rouse.setWindow (leNat (bs.take 4))) (h : w.busWrite32 hostAcc w.hi3c.ptr (leWord ((bs.drop 4).take 4)) = (c, v)) :
    Completes (.hi3cWrite data) s fun t => t.hi3c.ptr = (w.hi3c.ptr + 4) / 4 * 4 % 2 ^ 32 ∧
      (c = 0 → t.regs = v.regs) ∧ (c ≠ 0 → t.bit Reg.HI3C_STAT 2 = true) ∧ SameMemory v t := by
  subst hbs
  refine ⟨_, (execHi3cWrite_eq ha hp ht data).trans (congrArg Host.Outcome.next (if_pos (by omega))), ?_⟩
  have e : payloadWords (s.hostCut 1 data) 4 (((s.hostCut 1 data).length - 4) / 4) = [leWord (((s.hostCut 1 data).drop 4).take 4)] := by
    rw [hl]
    rfl
  rw [e, ← hw, State.windowWrite_one h]
  exact winErr_setWindow_spec c _ v

/-! Private reads (R490, R491). -/

section
variable {s : State} {n r : Nat}

theorem execHi3cPrivateRead_window (ha : s.daddr 0 ≠ none) (hp : s.pwr.state < 3) (hr : s.hi3c.mrl[0]? = some r) (hs : s.hi3c.slot = none) :
    exec (.hi3cPrivateRead false n) s = .next ((s.rouse.windowRead ((min n r + 3) / 4)).2.emit (.i3cRead 0 ((s.rouse.windowRead ((min n r + 3) / 4)).1.take (min n r)))) := by
  refine congrArg Host.Outcome.next ((State.hostServe_go ha hp _).trans ?_)
  dsimp only
  rw [s.hi3c_rouse, hr, hs]
  rfl

theorem execHi3cPrivateRead_message {k i : Nat} (ha : s.daddr 0 ≠ none) (hp : s.pwr.state < 3) (hr : s.hi3c.mrl[0]? = some r) (hs : s.hi3c.slot = some (k, i)) :
    exec (.hi3cPrivateRead false n) s = .next ((s.rouse.messageRead k i (min n r)).2.emit (.i3cRead 0 (s.rouse.messageRead k i (min n r)).1)) := by
  refine congrArg Host.Outcome.next ((State.hostServe_go ha hp _).trans ?_)
  dsimp only
  rw [s.hi3c_rouse, hr, hs]
  rfl

theorem hi3cPrivateRead_word {v : State} {w : Word} (ha : s.daddr 0 ≠ none) (hp : s.pwr.state < 3) (hr : s.hi3c.mrl[0]? = some r) (hm : min n r = 4) (hs : s.hi3c.slot = none)
    (h : s.rouse.busRead32 hostAcc s.hi3c.ptr = (0, w, v)) : Completes (.hi3cPrivateRead false n) s fun t =>
      t.out = v.out ++ [.i3cRead 0 (leBytes 4 w.toNat)] ∧ t.hi3c.ptr = (s.hi3c.ptr + 4) / 4 * 4 % 2 ^ 32 ∧ t.regs = v.regs ∧ SameMemory v t := by
  have hw : s.rouse.windowRead 1 = (leBytes 4 w.toNat, v.setWindow (s.hi3c.ptr + 4)) := by
    rw [State.windowRead, s.hi3c_rouse, h]
    rfl
  have hx := execHi3cPrivateRead_window (n := n) ha hp hr hs
  rw [hm, hw] at hx
  exact ⟨_, hx, rfl, rfl, rfl, fun _ => rfl⟩

theorem hi3cPrivateRead_mail {k len : Nat} (ha : s.daddr 0 ≠ none) (hp : s.pwr.state < 3) (hr : s.hi3c.mrl[0]? = some r) (hs : s.hi3c.slot = some (k, 0)) (hk : k < 4)
    (hlen : len = fld (s.reg (Reg.MGT_MBOUTs k 0)) 31 16 + 16) (hb : s.bit Reg.MGT_MBOUTSTAT k = true) (hd : s.bit (Reg.MGT_MBOUTs_DST k) 14 = true) :
    (len ≤ min n r → Completes (.hi3cPrivateRead false n) s fun t => t.out = s.out ++ [.i3cRead 0 (s.outBytes k len)] ∧ t.bit Reg.MGT_MBOUTSTAT k = false ∧
      t.bit Reg.MGT_STAT 5 = true ∧ SameMemory s t) ∧
    (min n r < len → Completes (.hi3cPrivateRead false n) s fun t => t.out = s.out ++ [.i3cRead 0 ((s.outBytes k len).take (min n r))] ∧ t.regs = s.regs ∧ SameMemory s t) := by
  have hx := execHi3cPrivateRead_message (n := n) ha hp hr hs
  have hlen' : fld (s.rouse.reg (Reg.MGT_MBOUTs k 0)) 31 16 + 16 = len := by rw [s.reg_rouse, hlen]
  have hb' : s.rouse.bit Reg.MGT_MBOUTSTAT k = true := (State.bit_of_reg (s.reg_rouse _) k).trans hb
  have hd' : s.rouse.bit (Reg.MGT_MBOUTs_DST k) 14 = true := (State.bit_of_reg (s.reg_rouse _) 14).trans hd
  have hm : s.rouse.messageRead k 0 (min n r) = ((s.outBytes k len).take (min n r),
      if 0 < len ∧ len ≤ 0 + ((s.outBytes k len).take (min n r)).length ∧ s.rouse.bit Reg.MGT_MBOUTSTAT k = true ∧ s.rouse.bit (Reg.MGT_MBOUTs_DST k) 14 = true then
        ({ s.rouse with hi3c := { s.rouse.hi3c with slot := some (k, 0 + ((s.outBytes k len).take (min n r)).length) } } : State).mailDone k
      else { s.rouse with hi3c := { s.rouse.hi3c with slot := some (k, 0 + ((s.outBytes k len).take (min n r)).length) } }) := by
    rw [← State.outBytes_congr s.regs_rouse]
    unfold State.messageRead
    dsimp only
    rw [hlen', List.drop_zero]
  have hl : ((s.outBytes k len).take (min n r)).length = min (min n r) len := by rw [List.length_take, s.length_outBytes]
  rw [hm] at hx
  refine ⟨fun h => ?_, fun h => ?_⟩
  · refine ⟨_, hx, ?_⟩
    rw [if_pos ⟨by omega, by omega, hb', hd'⟩, List.take_of_length_le (by rw [s.length_outBytes]; exact h)]
    generalize hv : ({ s.rouse with hi3c := { s.rouse.hi3c with slot := some _ } } : State) = v
    have ht : Told v (v.mailDone k) := (Told.setReg v Reg.MGT_MBOUTSTAT _).trans (State.told_raise0 stMGT 5 _)
    refine ⟨?_, ?_, State.bit_raise0_same (r := stMGT) _ (by decide) (by decide) (by decide), ?_⟩
    · refine congrArg (· ++ [Out.i3cRead 0 (s.outBytes k len)]) (ht.out.trans ?_)
      rw [← hv]
      exact s.out_rouse
    · exact (State.bit_of_reg (State.reg_raise0_ne _ 5 (by decide) (by decide) (by decide)) k).trans (v.bit_setBit_same _ _ (by omega))
    · refine State.byte_congr (ht.mem.trans ?_)
      rw [← hv]
      exact s.mem_rouse
  · refine ⟨_, hx, ?_⟩
    rw [if_neg (by omega)]
    exact ⟨congrArg (· ++ [Out.i3cRead 0 ((s.outBytes k len).take (min n r))]) s.out_rouse, s.regs_rouse, s.byte_rouse⟩

/-! The debug target (R468, R491). -/

theorem execHi3cPrivateRead_debug (ha : s.daddr 1 ≠ none) (hp : s.pwr.state < 3) (hr : s.hi3c.mrl[1]? = some r) : exec (.hi3cPrivateRead true n) s = .next (
    match s.dbg.hostResp with
    | some x => ({ s.rouse with dbg := { s.rouse.dbg with hostResp := none } } : State).emit (.i3cRead 1 (x.bytes.take (min n r)))
    | none => s.rouse.emit (.i3cRead 1 [])) := by
  refine congrArg Host.Outcome.next ((State.hostServe_go ha hp _).trans ?_)
  dsimp only
  rw [s.hi3c_rouse, s.dbg_rouse, hr]
  rfl

theorem execHi3cDebugWrite_eq {data : List Byte} (ha : s.daddr 1 ≠ none) (hp : s.pwr.state < 3) (hr : s.hi3c.mwl[1]? = some r) :
    exec (.hi3cDebugWrite data) s = .next (s.rouse.debugRequest none (data.take r)) := by
  refine congrArg Host.Outcome.next ((State.hostServe_go ha hp _).trans ?_)
  rw [s.hi3c_rouse, hr]
  rfl

theorem State.debugBusy_rouse (s : State) (p : Option Nat) : s.rouse.debugBusy p = s.debugBusy p := by simp [State.debugBusy]

/-- One word that is read is the answer to the request. -/
theorem State.debugRequest_read {bs : List Byte} {s v : State} {w : Word} (hb : s.debugBusy none = false) (h0 : leNat ((bs.drop 4).take 1) = 0) (h1 : leNat ((bs.drop 6).take 2) = 1)
    (h2 : leNat ((bs.drop 8).take 4) % 4 = 0) (h : s.busRead32 debugAcc (leNat ((bs.drop 8).take 4)) = (0, w, v)) :
    s.debugRequest none bs = v.debugAnswer none
      { tag := leNat (bs.take 4), status := 0, level := v.sec.level, count := 1, addr := leNat ((bs.drop 8).take 4), data := [w] } := by
  have hr : s.debugRead 1 (leNat ((bs.drop 8).take 4)) = (0, [w], v) := by
    rw [State.debugRead, Nat.mod_eq_of_lt (leNat_take4_lt _), h]
    rfl
  unfold State.debugRequest
  rw [hb]
  simp only [Bool.false_eq_true, if_false, h0, h1, h2, hr]
  rfl

end

/-- Settles O51, transfer by transfer. -/
theorem hostTransfers : Obligations.HostTransfers := by
  unfold Obligations.HostTransfers
  rintro s u rfl
  refine ⟨fun b bs n c hc => ⟨fun h => ?_, fun h hp => ?_⟩, fun bs n c hc => ⟨fun h => ?_, fun h hp => ?_⟩, fun ha hp ht b bs n c hc => hostHolds ha hp ht b bs n hc,
    fun ha hp ht b data bs hbs => ⟨fun hb => hi3cAddr_unknown ha hp ht hb data, fun hb => ?_, fun hb hl => ?_, fun hl => ?_, fun hl => ?_,
      fun w v c hl hw h => hi3cWrite_word ha hp ht hbs hl hw h, fun h1 h2 h3 k hk => hi3cMbwrite_takes ha hp ht hbs h1 h2 h3 hk, fun h => hi3cMbwrite_discards ha hp ht hbs h⟩,
    fun ha hp ht k => hi3cMbread_selects ha hp ht k, fun n r m ha hp hr hm => ⟨fun bs v hs h => ?_, fun k i bs v hs h => ?_⟩,
    fun n r v w ha hp hr hm hs h => hi3cPrivateRead_word ha hp hr hm hs h, fun n r k len ha hp hr hs hk hlen hb hd => hi3cPrivateRead_mail ha hp hr hs hk hlen hb hd,
    fun n r ha hp hr => ⟨fun x hx => ?_, fun hx => ?_⟩,
    fun data bs r v w ha hp hr hbs => ⟨?_, fun hb => ?_, fun hb h0 h1 h2 h => ?_⟩⟩
  · simp only [List.mem_cons, List.not_mem_nil, or_false] at hc
    rcases hc with rfl | rfl | rfl | rfl | rfl <;> exact congrArg Host.Outcome.next (State.hostServe_none h _)
  · simp only [List.mem_cons, List.not_mem_nil, or_false] at hc
    rcases hc with rfl | rfl | rfl | rfl | rfl <;> exact congrArg Host.Outcome.next (State.hostServe_deep h hp _)
  · simp only [List.mem_cons, List.not_mem_nil, or_false] at hc
    rcases hc with rfl | rfl <;> exact congrArg Host.Outcome.next (State.hostServe_none h _)
  · simp only [List.mem_cons, List.not_mem_nil, or_false] at hc
    rcases hc with rfl | rfl <;> exact congrArg Host.Outcome.next (State.hostServe_deep h hp _)
  · rw [execHi3cAddr_eq ha hp ht, ← hbs]
    refine congrArg Host.Outcome.next ((if_neg ?_).trans (if_neg ?_))
    · rcases hb with hb | ⟨rfl, -⟩
      · rintro (rfl | h)
        · exact absurd hb.1 (by decide)
        · omega
      · decide
    · rintro ⟨rfl, hl⟩
      rcases hb with hb | hb
      · exact absurd hb.1 (by decide)
      · omega
  · subst hb hbs
    exact hi3cAddr_points ha hp ht hl
  · rw [execHi3cWrite_eq ha hp ht, ← hbs]
    exact congrArg Host.Outcome.next (if_neg (by omega))
  · rw [execHi3cWrite_eq ha hp ht, ← hbs]
    exact congrArg Host.Outcome.next (if_pos hl)
  · rw [execHi3cPrivateRead_window ha hp hr hs, ← hm, h]
  · rw [execHi3cPrivateRead_message ha hp hr hs, ← hm, h]
  · have he := execHi3cPrivateRead_debug (n := n) ha hp hr
    simp only [hx] at he
    refine ⟨_, he, ?_, ?_, s.regs_rouse, s.byte_rouse⟩
    · exact congrArg (· ++ [Out.i3cRead 1 (x.bytes.take (min n r))]) s.out_rouse
    · exact congrArg (fun d : DbgSt => { d with hostResp := none }) s.dbg_rouse
  · rw [execHi3cPrivateRead_debug ha hp hr, hx]
  · rw [execHi3cDebugWrite_eq ha hp hr, hbs]
  · have hx : exec (.hi3cDebugWrite data) s = .next (s.rouse.raise0 stDBG 1) :=
      (execHi3cDebugWrite_eq ha hp hr).trans (congrArg Host.Outcome.next (if_pos ((s.debugBusy_rouse none).trans hb)))
    have hk := State.told_raise0 stDBG 1 s.rouse
    exact ⟨_, hx, State.bit_raise0_same (r := stDBG) _ (by decide) (by decide) (by decide), hk.dbg.trans s.dbg_rouse, State.byte_congr (hk.mem.trans s.mem_rouse)⟩
  · have hx := execHi3cDebugWrite_eq (data := data) ha hp hr
    rw [← hbs, State.debugRequest_read ((s.debugBusy_rouse none).trans hb) h0 h1 h2 h] at hx
    exact ⟨_, hx, rfl, rfl, fun _ => rfl⟩

end Sys2Proof.Machine
end

section
/-! A statement that fails on a register list that lists a reset value: a write of that value takes the entry out. -/

namespace Sys2Proof.Machine

open Sys2Proof Sys2Proof.Tests

/-- A state whose register list names QDL_CTRL with the value that it reads as unlisted. -/
def ctrlListed : State := { quiet 0 with regs := [(Reg.QDL_CTRL, 0)] }

theorem ctrlListed_disable : Res.nextHas (exec (.qdlDisable host) ctrlListed) (fun t => t.regs.isEmpty) = true := by decide +kernel

/-- Refutes O13: turning composition off while it is off keeps what every register reads, but not the list of registers, where that list names
QDL_CTRL with its reset value. -/
theorem not_quadrille : ¬ Obligations.Quadrille := by
  unfold Obligations.Quadrille
  rintro ⟨h, -⟩
  obtain ⟨hctrl, -⟩ := h host ctrlListed rfl
  obtain ⟨-, -, -, hoff⟩ := hctrl (by decide +kernel)
  obtain ⟨t, ⟨-, hregs, -⟩, h0⟩ := (hoff (by decide +kernel)).next_has ctrlListed_disable
  rw [hregs] at h0
  exact absurd h0 (by decide)

end Sys2Proof.Machine
end

section
/-! The statement on the swap and the hold of a composed frame. -/

namespace Sys2Proof.Machine

/-! What the work at the end of a frame leaves of the frames shown and counted (R150, R151). -/

/-- The counters of frames shown and held. -/
abbrev tallyReg (a : Nat) : Prop := a = Reg.QDL_SWAPS ∨ a = Reg.QDL_HOLDS ∨ a = Reg.BEAM_WHOLDS ∨ a = Reg.BEAM_WSTAT

/-- The frames in composition and the one on show are as they were, their counters too, and a hold that is reported stays so. -/
structure Tallied (s t : State) : Prop where
  shown : t.qdl.shown = s.qdl.shown
  frames : t.qdl.frames = s.qdl.frames
  regs : ∀ a, tallyReg a → t.reg a = s.reg a
  hold : s.bit Reg.QDL_STAT 0 = true → t.bit Reg.QDL_STAT 0 = true

theorem Tallied.refl (s : State) : Tallied s s := ⟨rfl, rfl, fun _ _ => rfl, fun h => h⟩

theorem Tallied.trans {s t u : State} (h : Tallied s t) (k : Tallied t u) : Tallied s u :=
  ⟨k.shown.trans h.shown, k.frames.trans h.frames, fun a ha => (k.regs a ha).trans (h.regs a ha), fun x => k.hold (h.hold x)⟩

theorem Tallied.ite {p : Prop} [Decidable p] {s t u : State} (h : Tallied s t) (k : Tallied s u) : Tallied s (if p then t else u) := by
  split
  · exact h
  · exact k

theorem Tallied.foldl {α : Type} {f : State → α → State} (hf : ∀ t x, Tallied t (f t x)) (l : List α) (s : State) : Tallied s (l.foldl f s) := by
  induction l generalizing s with
  | nil => exact .refl s
  | cons x xs ih => exact (hf s x).trans (ih _)

/-- Registers beside the counters and the Quadrille's status. -/
theorem Tallied.of {s t : State} (hq : t.qdl = s.qdl) (hr : ∀ a, tallyReg a ∨ a = Reg.QDL_STAT → t.reg a = s.reg a) : Tallied s t :=
  ⟨by rw [hq], by rw [hq], fun a ha => hr a (.inl ha), fun h => (State.bit_of_reg (hr _ (.inr rfl)) 0).trans h⟩

theorem Tallied.of_regs {s t : State} (hq : t.qdl = s.qdl) (hr : t.regs = s.regs) : Tallied s t := .of hq fun a _ => State.reg_of_regs hr a

theorem tallyReg.not_event {a : Nat} (h : tallyReg a ∨ a = Reg.QDL_STAT) : ¬ eventReg a := by
  rcases h with (rfl | rfl | rfl | rfl) | rfl <;> decide

theorem tallyReg.lt {a : Nat} (h : tallyReg a ∨ a = Reg.QDL_STAT) : a < 0x400400C0 := by
  rcases h with (rfl | rfl | rfl | rfl) | rfl <;> decide

theorem tallyReg.block {a : Nat} (h : tallyReg a ∨ a = Reg.QDL_STAT) : blockOf a = 3 ∨ blockOf a = 4 := by
  rcases h with (rfl | rfl | rfl | rfl) | rfl <;> decide

theorem tallyReg.group {a : Nat} (h : tallyReg a ∨ a = Reg.QDL_STAT) : groupOf a = none := by
  rcases h with (rfl | rfl | rfl | rfl) | rfl <;> rfl

theorem Tallied.setReg {a : Nat} (ha : ¬ (tallyReg a ∨ a = Reg.QDL_STAT)) (s : State) (v : Word) : Tallied s (s.setReg a v) :=
  .of rfl fun b hb => State.reg_setReg_ne s (by rintro rfl; exact ha hb) v

/-- A register above the Quadrille's counters. -/
theorem Tallied.setReg_high {a : Nat} (ha : 0x400400C0 ≤ a) (s : State) (v : Word) : Tallied s (s.setReg a v) :=
  .setReg (fun h => absurd (tallyReg.lt h) (by omega)) s v

theorem Tallied.setBit_high {a : Nat} (ha : 0x400400C0 ≤ a) (s : State) (i : Nat) (b : Bool) : Tallied s (s.setBit a i b) := .setReg_high ha s _
theorem Tallied.setF_high {a : Nat} (ha : 0x400400C0 ≤ a) (s : State) (hi lo v : Nat) : Tallied s (s.setF a hi lo v) := .setReg_high ha s _
theorem Tallied.count_high {a : Nat} (ha : 0x400400C0 ≤ a) (s : State) (hi lo : Nat) : Tallied s (s.count a hi lo) := .setReg_high ha s _

theorem State.tallied_raise {r : StatReg} (hr : 0x400400C0 ≤ r.addr) (hk : r.known = true) (bit : Nat) (a0 a2 a3 : Word) (s : State) : Tallied s (s.raise r bit a0 a2 a3) :=
  .of (State.told_raise ..).qdl fun _ ha => State.reg_raise_ne s bit a0 a2 a3 (fun h => absurd (tallyReg.lt ha) (by omega)) (tallyReg.not_event ha) hk

theorem State.tallied_arrive {n : Nat} (hn : n < 256) (s : State) : Tallied s (s.arrive n) :=
  .of (s.told_arrive n).qdl fun _ ha => State.reg_arrive hn (tallyReg.not_event ha) s

/-- A status bit of the Quadrille is set. -/
theorem State.tallied_raiseQdl (bit : Nat) (s : State) : Tallied s (s.raise0 stQDL bit) := by
  have ht := State.told_raise0 stQDL bit s
  refine ⟨congrArg QdlSt.shown ht.qdl, congrArg QdlSt.frames ht.qdl, fun a ha => State.reg_raise0_ne s bit ?_ (tallyReg.not_event (.inl ha)) (by decide), fun h => ?_⟩
  · rcases ha with rfl | rfl | rfl | rfl <;> decide
  · by_cases hb : bit = 0
    · rw [hb]
      exact State.bit_raise0_same (r := stQDL) s (by decide) (by decide) (by decide)
    · exact (State.bit_raise0_ne (r := stQDL) s (Ne.symm hb) (by decide) (by decide)).trans h

theorem Checked.tallied {s t : State} (h : Checked s t) : Tallied s t := by
  refine .of ?_ fun a ha => h.regs a (tallyReg.not_event ha) (by have := tallyReg.lt ha; unfold mrcReg; omega)
  obtain ⟨_, _, _, _, _, _, _, e⟩ := h.state
  rw [e]

theorem Linked.tallied {s t : State} (h : Linked s t) : Tallied s t := by
  refine .of ?_ fun a ha => h.regs a (tallyReg.not_event ha) ?_
  · obtain ⟨_, _, _, _, _, _, _, _, _, _, e⟩ := h.state
    rw [e]
  · have := tallyReg.block ha
    rintro (k | k) <;> omega

/-! The monitor. -/

theorem State.tallied_injectOn (x : Nat) (f : Frame) (s : State) : Tallied s (s.injectOn x f) := by
  unfold State.injectOn
  extract_lets g s1
  have h1 : Linked s s1 := .of_link s _ s.out s.fresh
  exact .ite (h1.trans (State.linked_put ..)).tallied h1.tallied

theorem State.tallied_monDrop (n : Nat) (s : State) : Tallied s (s.monDrop n) := (Tallied.setReg (by decide) ..).trans (State.tallied_raiseQdl ..)

theorem State.tallied_mapLines (f : QLine → QLine) (s : State) : Tallied s (s.mapLines f) := ⟨rfl, rfl, fun _ _ => rfl, fun h => h⟩

theorem State.tallied_ringPixels (q : QFrame) (l : QLine) (s : State) : Tallied s (s.ringPixels q l).2.2 := (State.checked_sramReadBytes ..).tallied

theorem State.tallied_monSend (q : QFrame) (ls : List QLine) (s : State) : Tallied s (s.monSend q ls) := by
  have hfold : ∀ (l : List QLine) (acc : Bool × List (List Byte) × State), Tallied s acc.2.2 → Tallied s
      (l.foldl (fun (acc : Bool × List (List Byte) × State) l =>
        let (c, bs, t) := acc.2.2.ringPixels q l
        (acc.1 && c, acc.2.1 ++ [bs], t)) acc).2.2 := by
    intro l
    induction l with
    | nil => exact fun _ h => h
    | cons x l ih => exact fun acc h => ih _ (h.trans (State.tallied_ringPixels ..))
  have h1 := hfold ls (true, [], s) (.refl s)
  unfold State.monSend
  extract_lets w scale y
  revert h1
  generalize ls.foldl _ (true, [], s) = r
  obtain ⟨ok, rows, s1⟩ := r
  intro h1
  dsimp -zeta only
  extract_lets px data f s2
  have h2 : Tallied s s2 := h1.trans (State.tallied_mapLines ..)
  exact .ite (h2.trans (State.tallied_injectOn ..)) (h2.trans (State.tallied_monDrop ..))

theorem State.tallied_monPump (q : QFrame) (s : State) : Tallied s (s.monPump q) := by
  unfold State.monPump
  extract_lets mine
  refine .ite (State.tallied_mapLines ..) (.ite (.foldl (fun t j => ?_) ..) (.foldl (fun t l => ?_) ..))
  · exact .ite (State.tallied_monSend ..) (.refl t)
  · exact .ite (State.tallied_monSend ..) (.refl t)

theorem State.tallied_monEnd (q : QFrame) (held : Bool) (s : State) : Tallied s (s.monEnd q held) := .ite (State.tallied_injectOn ..) (.refl s)

/-! The signature unit's record. -/

theorem sigReg_above (r : Nat) : 0x400400C0 ≤ Reg.SIG_REGr_STAT r ∧ 0x400400C0 ≤ Reg.SIG_REGr_LAST r ∧ 0x400400C0 ≤ Reg.SIG_REGr_FRAME r ∧ 0x400400C0 ≤ Reg.SIG_REGr_CNT r := by
  simp only [Reg.SIG_REGr_STAT, Reg.SIG_REGr_LAST, Reg.SIG_REGr_FRAME, Reg.SIG_REGr_CNT]
  omega

theorem State.tallied_raiseSig (bit : Nat) (a0 a2 a3 : Word) (s : State) : Tallied s (s.raise stSIG bit a0 a2 a3) := State.tallied_raise (by decide) (by decide) ..

theorem State.tallied_enterPavane (r : Nat) (s : State) : Tallied s (s.enterPavane r) :=
  .ite (.refl s) (((Tallied.setBit_high (by decide) ..).trans (.setF_high (sigReg_above r).1 ..)).trans (State.tallied_raiseSig ..))

theorem State.tallied_leavePavane (r : Nat) (s : State) : Tallied s (s.leavePavane r) :=
  .ite ((Tallied.setBit_high (by decide) ..).trans (State.tallied_raiseSig ..)) (.refl s)

theorem State.tallied_recordOutcome (r code sum : Nat) (s : State) : Tallied s (s.recordOutcome r code sum) :=
  ((Tallied.setF_high (sigReg_above r).1 ..).trans (.setReg_high (sigReg_above r).2.1 ..)).trans (.setReg_high (sigReg_above r).2.2.1 ..)

theorem State.tallied_recordRegion (q : QFrame) (swapped : Bool) (r : Nat) (s : State) : Tallied s (s.recordRegion q swapped r) := by
  unfold State.recordRegion
  extract_lets g sum s1 st s2 u0 u1 u2
  have hout := fun code n => State.tallied_recordOutcome r code n s
  refine .ite (hout ..) (.ite (.refl s) (.ite (hout ..) ?_))
  split
  · exact hout ..
  · split
    · exact hout ..
    · have h1 : Tallied s s1 := (hout ..).trans (.count_high (sigReg_above r).2.2.2 ..)
      have h2 : Tallied s s2 := h1.trans (.setF_high (sigReg_above r).1 ..)
      exact .ite (.ite (h2.trans (State.tallied_leavePavane ..)) h2) h1
    · have h0 : Tallied s u0 := (hout ..).trans (.count_high (sigReg_above r).2.2.2 ..)
      have h1 : Tallied s u1 := .ite (h0.trans (.setF_high (sigReg_above r).1 ..)) h0
      have h2 : Tallied s u2 := (h1.trans (State.tallied_raiseSig ..)).trans (State.tallied_arrive (by decide) _)
      exact .ite (h2.trans (State.tallied_enterPavane ..)) h2

theorem State.tallied_recordAll (q : QFrame) (swapped : Bool) (s : State) : Tallied s (s.recordAll q swapped) :=
  (Tallied.foldl (fun t r => t.tallied_recordRegion q swapped r) _ s).trans (.of_regs rfl rfl)

/-! The end of a frame. -/

theorem State.tallied_setLayer (n : Nat) (l : LayerSt) (s : State) : Tallied s (s.setLayer n l) := ⟨rfl, rfl, fun _ _ => rfl, fun h => h⟩

/-- Frame `q` is no longer in composition. -/
def State.withoutFrame (q : QFrame) (s : State) : State :=
  { s with qdl := { s.qdl with frames := s.qdl.frames.filter fun p => decide ((p.frame, p.sf) ≠ (q.frame, q.sf)) } }

/-- The frame goes; the one on show and the counters stay. -/
theorem State.endFrame_tallied (q : QFrame) (s : State) : Tallied (s.withoutFrame q) (s.endFrame q) := by
  unfold State.endFrame
  extract_lets gone q0 s1
  refine Tallied.trans (t := s1) ⟨rfl, rfl, fun _ _ => rfl, fun h => h⟩ (Tallied.foldl (fun t n => ?_) _ _)
  have hb : Tallied t (if gone (t.layer n).busyUntil then (t.setBit (Reg.LAYn_BANK n) 1 false).setLayer n { t.layer n with busyUntil := none } else t) :=
    .ite ((Tallied.setBit_high (by simp only [Reg.LAYn_BANK]; omega) ..).trans (State.tallied_setLayer ..)) (.refl t)
  exact .ite (hb.trans (State.tallied_setLayer ..)) hb

theorem State.tallied_emit (o : Out) (s : State) : Tallied s (s.emit o) := .of_regs rfl rfl

theorem State.tallied_sendCommand (p k data : Nat) (s : State) : Tallied s (s.sendCommand p k data) := by
  unfold State.sendCommand
  exact .ite (State.tallied_emit ..) (State.tallied_emit ..)

theorem State.tallied_setGroup (g row : Nat) (en : Bool) (s : State) : Tallied s (s.setGroup g row en) := by
  unfold State.setGroup
  refine Tallied.trans (t := { s with pnl := { s.pnl with groups := s.pnl.groups.set g (row, en) } }) (.of_regs rfl rfl) ?_
  unfold State.driveGroup
  split
  · exact State.tallied_emit ..
  · exact .refl _

theorem State.tallied_panelAdopt (s : State) : Tallied s s.panelAdopt := by
  unfold State.panelAdopt
  refine .ite (.refl s) ?_
  extract_lets t low fresh
  have ht : Tallied s t := by
    obtain ⟨h1, regs, img, h2⟩ := State.adopt_spec (fun a => decide (blockOf a = 7)) s
    exact .of (by rw [show t = _ from h2]) fun a ha => h1 a (decide_eq_false (by have := tallyReg.block ha; omega))
  exact (ht.trans (Tallied.foldl (fun u g => .ite (State.tallied_setGroup ..) (.refl u)) _ t)).trans (Tallied.foldl (fun u p => State.tallied_sendCommand ..) _ low)

theorem State.tallied_panelFrameEnd (s : State) : Tallied s s.panelFrameEnd :=
  Tallied.trans (t := { s with pnl := { s.pnl with units := [], lastUnit := [], segs := [] } }) (.of_regs rfl rfl) (State.tallied_panelAdopt _)

theorem State.tallied_takePnlTim (s : State) : Tallied s s.takePnlTim := by
  unfold State.takePnlTim
  extract_lets t same
  have ht : Tallied s t := by
    refine Tallied.trans (t := s.takeGroup 4 (fun _ => true) s.latched) ?_ ?_
    · exact .of rfl fun a ha => (State.reg_takeGroup ..).trans (if_neg (by rw [tallyReg.group ha]; exact fun h => nomatch h.1))
    · exact .of rfl fun a ha => State.reg_endFlight_ne _ 4 (by rintro rfl; revert ha; decide)
  exact ht.trans (.of_regs rfl rfl)

theorem State.tallied_panelSwap (s : State) : Tallied s s.panelSwap := by
  unfold State.panelSwap
  extract_lets ends s1
  have h1 : Tallied s s1 := .ite (State.tallied_takePnlTim s) (.refl s)
  exact h1.trans (.of_regs rfl rfl)

/-! The swap (R150). -/

theorem State.not_mem_withoutFrame (q : QFrame) (s : State) : q ∉ (s.withoutFrame q).qdl.frames := by
  simp [State.withoutFrame]

theorem State.swapFrame_spec (q : QFrame) (s : State) : (s.swapFrame q).reg Reg.QDL_SWAPS = s.reg Reg.QDL_SWAPS + 1 ∧
    (s.swapFrame q).qdl.shown = some (q.frame, q.sf) ∧ q ∉ (s.swapFrame q).qdl.frames ∧ (s.swapFrame q).reg Reg.QDL_HOLDS = s.reg Reg.QDL_HOLDS := by
  unfold State.swapFrame
  extract_lets s1 s2 s3
  have h1 : Tallied s s1 := (State.tallied_monPump ..).trans (State.tallied_recordAll ..)
  have h2 : Tallied (s1.setReg Reg.QDL_SWAPS (s1.reg Reg.QDL_SWAPS + 1)) s2 := State.tallied_panelSwap _
  have h3 := State.endFrame_tallied q (s2.monEnd q false)
  have hm := State.tallied_monEnd q false s2
  obtain ⟨v, hv⟩ : ∃ v, v = ({ s3 with qdl := { s3.qdl with shown := some (q.frame, q.sf) } } : State) := ⟨_, rfl⟩
  have hshown : v.qdl.shown = some (q.frame, q.sf) := by rw [hv]
  have hframes : v.qdl.frames = s3.qdl.frames := by rw [hv]
  have hregs : v.regs = s3.regs := by rw [hv]
  have h4 := State.tallied_panelFrameEnd v
  have hreg : ∀ a, tallyReg a → v.panelFrameEnd.reg a = (s1.setReg Reg.QDL_SWAPS (s1.reg Reg.QDL_SWAPS + 1)).reg a := fun a ha =>
    (h4.regs a ha).trans ((State.reg_of_regs hregs a).trans ((h3.regs a ha).trans ((hm.regs a ha).trans (h2.regs a ha))))
  rw [← hv]
  refine ⟨?_, h4.shown.trans hshown, ?_, ?_⟩
  · rw [hreg _ (.inl rfl), State.reg_setReg_same, h1.regs _ (.inl rfl)]
  · rw [h4.frames, hframes, h3.frames]
    exact State.not_mem_withoutFrame q (s2.monEnd q false)
  · rw [hreg _ (.inr (.inl rfl)), State.reg_setReg_ne _ (by decide), h1.regs _ (.inr (.inl rfl))]

theorem swapAt_eq {s : State} {q : QFrame} {y : Nat} {d : BPos} (hr : s.running = true) (hq : (q.frame, q.sf) = (s.beam.frame, s.beam.pos.sf))
    (hp : s.beam.pairBad = false) (hd : d = posOf (s.reg Reg.BEAM_DEADLINE)) (h1 : s.f Reg.BEAM_SWAPSTART 12 0 ≤ y) (h2 : y ≤ d.line) :
    s.swapAt q y = (if s.wallMode then decide (y = s.f Reg.BEAM_SWAPSTART 12 0) && decide (s.beam.decision = some true)
      else if s.pairLocal then s.frameComplete q && s.pairDue y else s.frameComplete q) := by
  have hw : atOrBefore ⟨0, y, 0⟩ { posOf (s.reg Reg.BEAM_DEADLINE) with sf := 0 } = true := by
    rw [← hd]
    simp only [atOrBefore, earlier, Bool.not_eq_true', Bool.or_eq_false_iff, Bool.and_eq_false_iff, decide_eq_false_iff_not]
    omega
  have hn : s.frameNow q = true := decide_eq_true hq
  unfold State.swapAt
  dsimp only
  rw [hr, hn, hp, decide_eq_true h1, hw]
  simp

/-! The hold (R151). -/

theorem State.tallied_skipFrame (q : QFrame) (s : State) : Tallied s (s.skipFrame q) := by
  unfold State.skipFrame
  exact .ite ⟨rfl, rfl, fun _ _ => rfl, fun h => h⟩ (.refl s)

theorem State.holdFrame_spec (q : QFrame) (cause : Nat × Nat × Nat) (s : State) :
    (s.holdFrame q cause).f Reg.QDL_HOLDS 15 0 = sat 65535 (s.f Reg.QDL_HOLDS 15 0 + 1) ∧ (s.holdFrame q cause).bit Reg.QDL_STAT 0 = true ∧
    (s.holdFrame q cause).qdl.shown = s.qdl.shown ∧ (∀ a, tallyReg a → a ≠ Reg.QDL_HOLDS → (s.holdFrame q cause).reg a = s.reg a) := by
  unfold State.holdFrame
  extract_lets h s1 s2 blank pnl s3 lost s4
  have h0 : Tallied s ((s.monPump q).recordAll q false) := (State.tallied_monPump ..).trans (State.tallied_recordAll ..)
  have h2 : Tallied s1 s2 := (Tallied.setReg (by decide) ..).trans (State.tallied_raiseQdl ..)
  have h4 : Tallied s2 s4 := Tallied.trans (t := s3) (.ite (.of_regs rfl rfl) (.refl s2)) (.ite (.refl s3) (State.tallied_monDrop ..))
  have h5 : Tallied s4 ((s4.monEnd q true).skipFrame q) := (State.tallied_monEnd ..).trans (State.tallied_skipFrame ..)
  have h6 := State.endFrame_tallied q ((s4.monEnd q true).skipFrame q)
  have h7 := State.tallied_panelFrameEnd (((s4.monEnd q true).skipFrame q).endFrame q)
  have hreg : ∀ a, tallyReg a → (((s4.monEnd q true).skipFrame q).endFrame q).panelFrameEnd.reg a = s1.reg a := fun a ha =>
    (h7.regs a ha).trans ((h6.regs a ha).trans ((h5.regs a ha).trans ((h4.regs a ha).trans (h2.regs a ha))))
  have hstat : s2.bit Reg.QDL_STAT 0 = true := State.bit_raise0_same (r := stQDL) _ (by decide) (by decide) (by decide)
  refine ⟨?_, h7.hold (h6.hold (h5.hold (h4.hold hstat))), ?_, fun a ha hne => ?_⟩
  · rw [State.f_of_reg (hreg _ (.inr (.inl rfl))), State.f_count_same _ _ (by decide)]
    exact congrArg (fun n => sat 65535 (n + 1)) (State.f_of_reg (h0.regs _ (.inr (.inl rfl))) 15 0)
  · exact h7.shown.trans (h6.shown.trans (h5.shown.trans (h4.shown.trans (h2.shown.trans h0.shown))))
  · exact (hreg a ha).trans ((State.reg_setReg_ne _ hne _).trans (h0.regs a ha))

/-- What a hold of the wall counts (R64). -/
def State.countWallHold (s : State) : State :=
  if s.wallMode then
    match s.beam.decision with
    | some false => s.count Reg.BEAM_WHOLDS 15 0
    | none => (s.count Reg.BEAM_WHOLDS 31 16).raise0 stBEAMW 7
    | some true => s
  else s

theorem State.countWallHold_spec (s : State) : s.countWallHold.qdl.shown = s.qdl.shown ∧ s.countWallHold.reg Reg.QDL_HOLDS = s.reg Reg.QDL_HOLDS ∧
    s.countWallHold.reg Reg.QDL_SWAPS = s.reg Reg.QDL_SWAPS ∧
    (s.wallMode = true → s.beam.decision = some false → s.countWallHold.f Reg.BEAM_WHOLDS 15 0 = sat 65535 (s.f Reg.BEAM_WHOLDS 15 0 + 1)) ∧
    (s.wallMode = true → s.beam.decision = none → s.countWallHold.f Reg.BEAM_WHOLDS 31 16 = sat 65535 (s.f Reg.BEAM_WHOLDS 31 16 + 1) ∧
      s.countWallHold.bit Reg.BEAM_WSTAT 7 = true) ∧
    (s.wallMode = false ∨ s.beam.decision = some true → s.countWallHold.reg Reg.BEAM_WHOLDS = s.reg Reg.BEAM_WHOLDS) := by
  unfold State.countWallHold
  cases hw : s.wallMode
  · exact ⟨rfl, rfl, rfl, fun h => (nomatch h), fun h => (nomatch h), fun _ => rfl⟩
  rw [if_pos rfl]
  cases hd : s.beam.decision with
  | none =>
    have hne : ∀ a, a ≠ Reg.BEAM_WHOLDS → a ≠ Reg.BEAM_WSTAT → ¬ eventReg a → ((s.count Reg.BEAM_WHOLDS 31 16).raise0 stBEAMW 7).reg a = s.reg a := fun a h1 h2 h3 =>
      (State.reg_raise0_ne _ 7 h2 h3 (by decide)).trans (State.reg_setReg_ne s h1 _)
    refine ⟨congrArg QdlSt.shown (State.told_raise0 stBEAMW 7 _).qdl, hne _ (by decide) (by decide) (by decide), hne _ (by decide) (by decide) (by decide),
      fun _ h => (nomatch h), fun _ _ => ⟨?_, State.bit_raise0_same (r := stBEAMW) _ (by decide) (by decide) (by decide)⟩, fun h => ?_⟩
    · exact (State.f_of_reg (State.reg_raise0_ne _ 7 (by decide) (by decide) (by decide)) 31 16).trans (State.f_count_same _ _ (by decide))
    · rcases h with h | h <;> cases h
  | some b =>
    cases b with
    | false =>
      refine ⟨rfl, State.reg_setReg_ne s (by decide) _, State.reg_setReg_ne s (by decide) _, fun _ _ => State.f_count_same _ _ (by decide), fun _ h => (nomatch h), fun h => ?_⟩
      rcases h with h | h <;> cases h
    | true => exact ⟨rfl, rfl, rfl, fun _ h => (nomatch h), fun _ h => (nomatch h), fun _ => rfl⟩

theorem State.beamAt_keeps (p : BPos) (s : State) : (s.beamAt p).wallMode = s.wallMode ∧ (s.beamAt p).beam.decision = s.beam.decision ∧ (s.beamAt p).qdl = s.qdl ∧
    (s.beamAt p).running = s.running := by
  unfold State.beamAt
  split
  · exact ⟨rfl, rfl, rfl, rfl⟩
  · exact ⟨rfl, rfl, rfl, rfl⟩

theorem frameHold_holds {lane : Fin 4} {q : QFrame} {s u : State} (hf : s.frozen = false)
    (hu : u = s.beamAt ⟨s.beam.pos.sf, (posOf (s.reg Reg.BEAM_DEADLINE)).line, (posOf (s.reg Reg.BEAM_DEADLINE)).dot⟩) (hr : s.running = true)
    (hq : u.dueFrame = some q) : Completes (.frameHold lane) s fun t =>
      t.f Reg.QDL_HOLDS 15 0 = sat 65535 (s.f Reg.QDL_HOLDS 15 0 + 1) ∧ t.bit Reg.QDL_STAT 0 = true ∧ t.qdl.shown = s.qdl.shown ∧
      t.reg Reg.QDL_SWAPS = s.reg Reg.QDL_SWAPS ∧
      (s.wallMode = true → s.beam.decision = some false → t.f Reg.BEAM_WHOLDS 15 0 = sat 65535 (s.f Reg.BEAM_WHOLDS 15 0 + 1)) ∧
      (s.wallMode = true → s.beam.decision = none →
        t.f Reg.BEAM_WHOLDS 31 16 = sat 65535 (s.f Reg.BEAM_WHOLDS 31 16 + 1) ∧ t.bit Reg.BEAM_WSTAT 7 = true) ∧
      (s.wallMode = false ∨ s.beam.decision = some true → t.reg Reg.BEAM_WHOLDS = s.reg Reg.BEAM_WHOLDS) := by
  obtain ⟨kw, kd, kq, kr⟩ := s.beamAt_keeps ⟨s.beam.pos.sf, (posOf (s.reg Reg.BEAM_DEADLINE)).line, (posOf (s.reg Reg.BEAM_DEADLINE)).dot⟩
  have kreg : ∀ a, u.reg a = s.reg a := fun a => by rw [hu]; exact State.reg_of_regs (State.regs_beamAt ..) a
  rw [← hu] at kw kd kq kr
  have hx : exec (.frameHold lane) s = .next (u.countWallHold.holdFrame q (u.countWallHold.holdCause q lane.val)) := by
    refine (if_neg (by rw [hf]; decide)).trans ?_
    rw [← hu]
    refine (if_neg (by rw [kr, hr]; decide)).trans ?_
    rw [hq]
    rfl
  obtain ⟨c1, c2, c3, c4, c5, c6⟩ := u.countWallHold_spec
  obtain ⟨d1, d2, d3, d4⟩ := u.countWallHold.holdFrame_spec q (u.countWallHold.holdCause q lane.val)
  rw [kw, kd] at c4 c5 c6
  refine ⟨_, hx, ?_, d2, d3.trans (c1.trans (by rw [kq])), ?_, fun h1 h2 => ?_, fun h1 h2 => ⟨?_, ?_⟩, fun h => ?_⟩
  · rw [d1, State.f_of_reg (c2.trans (kreg _))]
  · exact (d4 _ (.inl rfl) (by decide)).trans (c3.trans (kreg _))
  · rw [State.f_of_reg (d4 _ (.inr (.inr (.inl rfl))) (by decide)), c4 h1 h2, State.f_of_reg (kreg _)]
  · rw [State.f_of_reg (d4 _ (.inr (.inr (.inl rfl))) (by decide)), (c5 h1 h2).1, State.f_of_reg (kreg _)]
  · exact (State.bit_of_reg (d4 _ (.inr (.inr (.inr rfl))) (by decide)) 7).trans (c5 h1 h2).2
  · exact (d4 _ (.inr (.inr (.inl rfl))) (by decide)).trans ((c6 h).trans (kreg _))

/-- Settles O14, the swap and then the hold. -/
theorem swapOrHold : Obligations.SwapOrHold := by
  unfold Obligations.SwapOrHold
  refine fun s hf => ⟨fun y q u hu hq => ⟨fun h => ?_, fun h => ?_⟩, fun y u hu hq => ?_, fun y q d hr hq hp hd h1 h2 => ⟨fun hw hpr => ?_, fun hw => ?_, fun hw hpr => ?_⟩,
    fun lane q u hu hr => ⟨fun hq => frameHold_holds hf hu hr hq, fun hq => ?_⟩, fun lane u hu hr => ?_⟩
  · have hx : exec (.swap y) s = .next (u.swapFrame q) := by
      refine (if_neg (by rw [hf]; decide)).trans ?_
      rw [← hu, hq]
      exact if_pos h
    obtain ⟨h1, h2, h3, h4⟩ := u.swapFrame_spec q
    have kreg : ∀ a, u.reg a = s.reg a := fun a => by rw [hu]; exact State.reg_of_regs (State.regs_beamAt ..) a
    exact ⟨_, hx, by rw [h1, kreg], h2, h3, State.f_of_reg (h4.trans (kreg _)) 15 0⟩
  · refine (if_neg (by rw [hf]; decide)).trans ?_
    rw [← hu, hq]
    exact if_neg (by rw [h]; decide)
  · refine (if_neg (by rw [hf]; decide)).trans ?_
    rw [← hu, hq]
  · rw [swapAt_eq hr hq hp hd h1 h2, State.pairLocal, hw, hpr]
    rfl
  · rw [swapAt_eq hr hq hp hd h1 h2, hw]
    rfl
  · rw [swapAt_eq hr hq hp hd h1 h2, State.pairLocal, hw, hpr]
    rfl
  · have kr : u.running = s.running := by rw [hu]; exact (s.beamAt_keeps _).2.2.2
    refine (if_neg (by rw [hf]; decide)).trans ?_
    rw [← hu]
    refine (if_neg (by rw [kr, hr]; decide)).trans ?_
    rw [hq]
  · have kr : u.running = s.running := by rw [hu]; exact (s.beamAt_keeps _).2.2.2
    refine (if_neg (by rw [hf]; decide)).trans ?_
    rw [← hu]
    exact if_pos (by rw [kr, hr]; decide)

end Sys2Proof.Machine
end

section
/-! What a write of a memory leaves: all but the memory, the fabric, the parts of beam words, counts, captures and events (R72 to R91, R180). -/

namespace Sys2Proof.Machine

/-- `t` is `s` after memory was read and written. -/
structure Landed (s t : State) : Prop where
  state : ∃ regs evr irq w mem fab parts, t = { s with regs := regs, evr := evr, irq := irq, pwr := { s.pwr with waking := w }, mem := mem, fab := fab,
                                                       mnt := { s.mnt with parts := parts } }
  regs : ∀ a, ¬ eventReg a → ¬ mrcReg a → t.reg a = s.reg a

theorem Landed.refl (s : State) : Landed s s := ⟨⟨s.regs, s.evr, s.irq, s.pwr.waking, s.mem, s.fab, s.mnt.parts, rfl⟩, fun _ _ _ => rfl⟩

theorem Landed.trans {s t u : State} (h : Landed s t) (k : Landed t u) : Landed s u := by
  obtain ⟨⟨_, _, _, _, _, _, _, rfl⟩, hr⟩ := h
  obtain ⟨⟨regs, evr, irq, w, mem, fab, parts, rfl⟩, kr⟩ := k
  exact ⟨⟨regs, evr, irq, w, mem, fab, parts, rfl⟩, fun a ha hm => (kr a ha hm).trans (hr a ha hm)⟩

theorem Landed.foldl {α : Type} {f : State → α → State} (hf : ∀ t x, Landed t (f t x)) (l : List α) (s : State) : Landed s (l.foldl f s) := by
  induction l generalizing s with
  | nil => exact .refl s
  | cons x xs ih => exact (hf s x).trans (ih _)

theorem Landed.setMem (s : State) (mem : List (Nat × Byte)) : Landed s { s with mem := mem } :=
  ⟨⟨s.regs, s.evr, s.irq, s.pwr.waking, mem, s.fab, s.mnt.parts, rfl⟩, fun _ _ _ => rfl⟩

theorem Landed.setFab (s : State) (fab : FabSt) : Landed s { s with fab := fab } :=
  ⟨⟨s.regs, s.evr, s.irq, s.pwr.waking, s.mem, fab, s.mnt.parts, rfl⟩, fun _ _ _ => rfl⟩

theorem Landed.setParts (s : State) (parts : List (Nat × Word)) : Landed s { s with mnt := { s.mnt with parts := parts } } :=
  ⟨⟨s.regs, s.evr, s.irq, s.pwr.waking, s.mem, s.fab, parts, rfl⟩, fun _ _ _ => rfl⟩

theorem Checked.landed {s t : State} (h : Checked s t) : Landed s t := by
  obtain ⟨⟨regs, evr, irq, w, _, _, _, rfl⟩, hr⟩ := h
  exact ⟨⟨regs, evr, irq, w, s.mem, _, s.mnt.parts, rfl⟩, hr⟩

section
variable {s t : State} (h : Landed s t)
include h

theorem Landed.sig : t.sig = s.sig := by obtain ⟨_, _, _, _, _, _, _, rfl⟩ := h.state; rfl
theorem Landed.qdl : t.qdl = s.qdl := by obtain ⟨_, _, _, _, _, _, _, rfl⟩ := h.state; rfl
theorem Landed.pnl : t.pnl = s.pnl := by obtain ⟨_, _, _, _, _, _, _, rfl⟩ := h.state; rfl
theorem Landed.snd : t.snd = s.snd := by obtain ⟨_, _, _, _, _, _, _, rfl⟩ := h.state; rfl
theorem Landed.out : t.out = s.out := by obtain ⟨_, _, _, _, _, _, _, rfl⟩ := h.state; rfl

end

/-! The operations. -/

theorem State.landed_setByte (k : Nat) (b : Byte) (s : State) : Landed s (s.setByte k b) := .setMem ..

theorem State.landed_setBytes (k : Nat) (bs : List Byte) (s : State) : Landed s (s.setBytes k bs) := by
  induction bs generalizing k s with
  | nil => exact .refl s
  | cons b bs ih => exact (s.landed_setByte k b).trans (ih ..)

theorem State.landed_setWord (k : Nat) (w : Word) (s : State) : Landed s (s.setWord k w) := State.landed_setBytes ..

theorem State.landed_eccWritten (k : Nat) (s : State) : Landed s (s.eccWritten k) := .setFab ..

theorem State.landed_mirrorWord (wa : Nat) (s : State) : Landed s (s.mirrorWord wa) := by
  unfold State.mirrorWord
  split
  · exact .setFab ..
  · exact .refl s

theorem State.landed_putMasked (wa mask data : Nat) (s : State) : Landed s (s.putMasked wa mask data) := by
  unfold State.putMasked
  refine Landed.foldl (fun t i => ?_) _ s
  split
  · exact State.landed_setByte ..
  · exact .refl t

theorem State.landed_sramWrite (port wa mask data : Nat) (s : State) : Landed s (s.sramWrite port wa mask data).2 := by
  unfold State.sramWrite
  split
  · exact .setFab ..
  · have h1 : Landed s (s.grantWords port 1) := (s.checked_grantWords port 1).landed
    generalize s.grantWords port 1 = t at h1
    dsimp only
    split
    · exact h1.trans (State.checked_errResponse ..).landed
    · split
      · exact h1.trans (State.checked_errResponse ..).landed
      · have h2 : Landed s (if decide (mask % 2 ^ 16 = 2 ^ 16 - 1) = true then (0, t) else t.eccMerge wa (t.phys (bankOf wa))).2 := by
          split
          · exact h1
          · exact h1.trans (State.checked_eccMerge (t.phys_lt _) ..).landed
        generalize (if decide (mask % 2 ^ 16 = 2 ^ 16 - 1) = true then (0, t) else t.eccMerge wa (t.phys (bankOf wa))) = r at h2
        obtain ⟨c, u⟩ := r
        dsimp only at h2 ⊢
        split
        · exact h2.trans (State.checked_errResponse ..).landed
        · exact ((h2.trans (State.landed_putMasked ..)).trans (State.landed_eccWritten ..)).trans (State.landed_mirrorWord ..)

theorem State.landed_sramWriteBytes (port a : Nat) (bs : List Byte) (s : State) : Landed s (s.sramWriteBytes port a bs).2 := by
  unfold State.sramWriteBytes
  suffices h : ∀ (l : List (Nat × Nat × Nat)) (acc : Nat × State), Landed s acc.2 → Landed s (l.foldl (fun (acc : Nat × State) p =>
      let (c, t) := acc
      let part := (bs.drop (p.1 + p.2.1 - a)).take p.2.2
      let (c1, t1) := t.sramWrite port p.1 (byteMask p.2.1 p.2.2) (leNat part * 256 ^ p.2.1)
      (if c = 0 then c1 else c, t1)) acc).2 from h _ (0, s) (.refl s)
  intro l
  induction l with
  | nil => exact fun acc h => h
  | cons p l ih => exact fun acc h => ih _ (h.trans (State.landed_sramWrite ..))

theorem State.landed_palStore (a : Nat) (bs : List Byte) (s : State) : Landed s (s.palStore a bs) := by
  unfold State.palStore
  extract_lets k s1
  have h1 : Landed s s1 := by
    unfold s1
    split
    · exact .refl s
    · have hm := (State.checked_eccMerge (q := 34) (by decide) k s).landed
      generalize s.eccMerge k 34 = r at hm
      split
      · exact hm
      · exact hm.trans (State.landed_setBytes ..)
  exact (h1.trans (State.landed_setBytes ..)).trans (State.landed_eccWritten ..)

theorem State.landed_beamStoreWrite (port addr : Nat) (v : Word) (s : State) : Landed s (s.beamStoreWrite port addr v).2 := by
  unfold State.beamStoreWrite
  extract_lets k mine parts s1
  have h1 : Landed s s1 := .setParts ..
  split
  · exact .refl s
  split
  · have h2 := h1.trans (Landed.foldl (fun t p => State.landed_setWord p.1 p.2 t) mine s1)
    exact (h2.trans (State.landed_setWord addr v _)).trans (.setFab ..)
  · exact .setParts ..

theorem State.landed_memWrite (port a : Nat) (bs : List Byte) (s : State) : Landed s (s.memWrite port a bs).2 := by
  unfold State.memWrite
  dsimp only
  split
  · exact State.landed_sramWriteBytes ..
  split
  · split
    · exact State.landed_palStore ..
    · exact (State.landed_palStore ..).trans (State.landed_palStore ..)
  split
  · split
    · exact (State.checked_errResponse ..).landed
    · have h := s.landed_beamStoreWrite port a (leWord bs)
      generalize s.beamStoreWrite port a (leWord bs) = r at h
      split
      · exact h
      · exact h.trans (State.checked_errResponse ..).landed
  split
  · split
    · exact .setFab ..
    · have h : Landed s (if bs.length = 4 ∧ a % 4 = 0 then (0, s) else s.eccSpan 4 35 a bs.length).2 := by
        split
        · exact .refl s
        · exact (State.checked_eccSpan (by decide) ..).landed
      generalize (if bs.length = 4 ∧ a % 4 = 0 then (0, s) else s.eccSpan 4 35 a bs.length) = r at h
      obtain ⟨c, t⟩ := r
      dsimp only at h ⊢
      split
      · exact ((h.trans (State.landed_setBytes ..)).trans (State.landed_eccWritten ..)).trans (State.landed_eccWritten ..)
      · exact h.trans (State.checked_errResponse ..).landed
  · exact (State.checked_errResponse ..).landed

theorem State.landed_portWrite (port a : Nat) (bs : List Byte) (s : State) : Landed s (s.portWrite port a bs).2 := by
  unfold State.portWrite
  split
  · exact State.landed_memWrite ..
  · exact (State.checked_errResponse ..).landed

/-! What the work after a decision leaves of the signature unit (R222, R223, R228). -/

/-- A register of the signature unit beside its status. -/
abbrev sigReg (a : Nat) : Prop := blockOf a = 8 ∧ a ≠ Reg.SIG_STAT

theorem sigReg.not_event {a : Nat} (h : sigReg a) : ¬ eventReg a := by
  rintro (k | k)
  · exact absurd (k.symm.trans h.1) (by decide)
  · rcases h with ⟨h, -⟩
    omega

/-- The signature unit is as it was, and so are the low halves of its registers beside the status; a count of units that a redo drops
goes to a high half, and the state may hold a unit of any port. -/
structure Signed (s t : State) : Prop where
  sig : t.sig = s.sig
  low : ∀ a, sigReg a → ∀ i, i < 16 → t.bit a i = s.bit a i

theorem Signed.refl (s : State) : Signed s s := ⟨rfl, fun _ _ _ _ => rfl⟩
theorem Signed.trans {s t u : State} (h : Signed s t) (k : Signed t u) : Signed s u :=
  ⟨k.sig.trans h.sig, fun a ha i hi => (k.low a ha i hi).trans (h.low a ha i hi)⟩

theorem Signed.of {s t : State} (hs : t.sig = s.sig) (hr : ∀ a, sigReg a → t.reg a = s.reg a) : Signed s t := ⟨hs, fun a ha i _ => State.bit_of_reg (hr a ha) i⟩

theorem Signed.ite {p : Prop} [Decidable p] {s t u : State} (h : Signed s t) (k : Signed s u) : Signed s (if p then t else u) := by
  split
  · exact h
  · exact k

theorem Signed.foldl {α : Type} {f : State → α → State} (hf : ∀ t x, Signed t (f t x)) (l : List α) (s : State) : Signed s (l.foldl f s) := by
  induction l generalizing s with
  | nil => exact .refl s
  | cons x xs ih => exact (hf s x).trans (ih _)

theorem Signed.of_regs {s t : State} (hs : t.sig = s.sig) (hr : t.regs = s.regs) : Signed s t := .of hs fun a _ => State.reg_of_regs hr a

theorem Signed.setReg {a : Nat} (ha : ¬ sigReg a) (s : State) (v : Word) : Signed s (s.setReg a v) :=
  .of rfl fun b hb => State.reg_setReg_ne s (by rintro rfl; exact ha hb) v

/-- A count in the high half of any register. -/
theorem Signed.count_high (s : State) (a : Nat) : Signed s (s.count a 31 16) := by
  refine ⟨rfl, fun b _ i hi => ?_⟩
  by_cases h : b = a
  · subst h
    unfold State.bit State.count
    rw [State.reg_setReg_same]
    exact bitAt_setFld_out _ (by omega) (by omega)
  · exact State.bit_of_reg (State.reg_setReg_ne s h _) i

theorem State.signed_raise {r : StatReg} (hr : ¬ sigReg r.addr) (hk : r.known = true) (bit : Nat) (a0 a2 a3 : Word) (s : State) : Signed s (s.raise r bit a0 a2 a3) :=
  .of (State.told_raise ..).sig fun _ ha => State.reg_raise_ne s bit a0 a2 a3 (fun h => hr (h ▸ ha)) ha.not_event hk

theorem not_mrcReg_of_block {a : Nat} (h : blockOf a = 8) : ¬ mrcReg a := by
  unfold blockOf at h
  unfold mrcReg
  split at h <;> omega

theorem Landed.signed {s t : State} (h : Landed s t) : Signed s t := .of h.sig fun a ha => h.regs a ha.not_event (not_mrcReg_of_block ha.1)

theorem Checked.signed {s t : State} (h : Checked s t) : Signed s t := h.landed.signed

theorem Linked.signed {s t : State} (h : Linked s t) : Signed s t := by
  refine .of ?_ fun a ha => h.regs a ha.not_event ?_
  · obtain ⟨_, _, _, _, _, _, _, _, _, _, e⟩ := h.state
    rw [e]
  · have := ha.1
    rintro (k | k) <;> omega

theorem State.signed_injectOn (x : Nat) (f : Frame) (s : State) : Signed s (s.injectOn x f) := by
  unfold State.injectOn
  extract_lets g s1
  have h1 : Linked s s1 := .of_link s _ s.out s.fresh
  exact .ite (h1.trans (State.linked_put ..)).signed h1.signed

theorem State.signed_monDrop (n : Nat) (s : State) : Signed s (s.monDrop n) := (Signed.setReg (a := Reg.QDL_MONDROP) (by decide) ..).trans (State.signed_raise (r := stQDL) (by decide) (by decide) 5 0 0 0 _)

theorem State.signed_mapLines (f : QLine → QLine) (s : State) : Signed s (s.mapLines f) := .of_regs rfl rfl

theorem State.signed_monSend (q : QFrame) (ls : List QLine) (s : State) : Signed s (s.monSend q ls) := by
  have hfold : ∀ (l : List QLine) (acc : Bool × List (List Byte) × State), Signed s acc.2.2 → Signed s
      (l.foldl (fun (acc : Bool × List (List Byte) × State) l =>
        let (c, bs, t) := acc.2.2.ringPixels q l
        (acc.1 && c, acc.2.1 ++ [bs], t)) acc).2.2 := by
    intro l
    induction l with
    | nil => exact fun _ h => h
    | cons x l ih => exact fun acc h => ih _ (h.trans (State.checked_sramReadBytes ..).signed)
  have h1 := hfold ls (true, [], s) (.refl s)
  unfold State.monSend
  extract_lets w scale y
  revert h1
  generalize ls.foldl _ (true, [], s) = r
  obtain ⟨ok, rows, s1⟩ := r
  intro h1
  dsimp -zeta only
  extract_lets px data f s2
  have h2 : Signed s s2 := h1.trans (State.signed_mapLines ..)
  exact .ite (h2.trans (State.signed_injectOn ..)) (h2.trans (State.signed_monDrop ..))

theorem State.signed_monPump (q : QFrame) (s : State) : Signed s (s.monPump q) := by
  unfold State.monPump
  extract_lets mine
  refine .ite (State.signed_mapLines ..) (.ite (.foldl (fun t j => ?_) ..) (.foldl (fun t l => ?_) ..))
  · exact .ite (State.signed_monSend ..) (.refl t)
  · exact .ite (State.signed_monSend ..) (.refl t)

theorem State.signed_cutUnit (a b : Nat) (u : UnitSt) (s : State) : Signed s (s.cutUnit a b u) := by
  unfold State.cutUnit
  refine Signed.trans (t := s.draw.2) (.of_regs rfl rfl) ?_
  generalize s.draw = r
  obtain ⟨i, t⟩ := r
  refine Signed.trans (t := t.setUnit { u with sent := false, delivered := false, words := _ }) (.of_regs rfl rfl) (Signed.foldl (fun v e => ?_) _ _)
  split
  · exact .of_regs rfl rfl
  · exact .refl v

theorem State.signed_panelRedo (a b : Nat) (s : State) : Signed s (s.panelRedo a b) := by
  unfold State.panelRedo
  extract_lets hit pnl s1 s2
  have h1 : Signed s s1 := .of_regs rfl rfl
  have h2 : Signed s s2 := by
    refine h1.trans (Signed.foldl (fun t u => ?_) hit s1)
    have hu : Signed t (if u.running then t.cutUnit a b u else t.setUnit { u with sent := false, delivered := false }) := .ite (State.signed_cutUnit ..) (.of_regs rfl rfl)
    exact hu.trans (Signed.count_high ..)
  exact .ite h2 (h2.trans (State.signed_raise (by decide) (by decide) ..))

/-- The bytes of a row are written over the region's pixels that nothing covers. -/
def State.substitutePixels (q : QFrame) (r y : Nat) (l : QLine) (bs : List Byte) (s : State) : State :=
  let g := q.region r
  let runs := (List.range (g.x1 + 1 - g.x0)).filter fun k => !s.coveredBelow q r (g.x0 + k) y
  if runs.length = g.x1 + 1 - g.x0 then (s.portWrite 4 (l.addr + g.x0 * 6) bs).2
  else runs.foldl (fun t k => (t.portWrite 4 (l.addr + (g.x0 + k) * 6) ((bs.drop (6 * k)).take 6)).2) s

theorem State.signed_substitutePixels (q : QFrame) (r y : Nat) (l : QLine) (bs : List Byte) (s : State) : Signed s (s.substitutePixels q r y l bs) :=
  .ite (State.landed_portWrite ..).signed (Signed.foldl (fun _ _ => (State.landed_portWrite ..).signed) _ s)

theorem State.substituteRow_eq (q : QFrame) (r : Nat) (src : Option Nat) (y : Nat) (acc : Bool × State) : (State.substituteRow q r src y acc).2 =
    match acc.2.qline q.frame q.sf y, src with
    | none, _ => acc.2
    | some l, some a =>
      (acc.2.portRead 4 (a + (y - (q.region r).y0) * (q.region r).rowBytes) (((q.region r).x1 + 1 - (q.region r).x0) * 6)).2.2.substitutePixels q r y l
        (acc.2.portRead 4 (a + (y - (q.region r).y0) * (q.region r).rowBytes) (((q.region r).x1 + 1 - (q.region r).x0) * 6)).2.1
    | some l, none => acc.2.substitutePixels q r y l (List.replicate (((q.region r).x1 + 1 - (q.region r).x0) * 6) 0) := by
  obtain ⟨bad, s⟩ := acc
  unfold State.substituteRow
  cases h : s.qline q.frame q.sf y with
  | none => simp only [h]
  | some l => cases src <;> simp only [h] <;> rfl

theorem State.signed_substituteRow (q : QFrame) (r : Nat) (src : Option Nat) (y : Nat) (acc : Bool × State) : Signed acc.2 (State.substituteRow q r src y acc).2 := by
  rw [State.substituteRow_eq]
  split
  · exact .refl _
  · exact (State.checked_portRead ..).signed.trans (State.signed_substitutePixels ..)
  · exact State.signed_substitutePixels ..

theorem State.signed_substitute (q : QFrame) (r : Nat) (s : State) : Signed s (s.substitute q r) := by
  unfold State.substitute
  extract_lets g src
  have h1 : ∀ (l : List Nat) (acc : Bool × State), Signed s acc.2 → Signed s (l.foldl (fun acc y => State.substituteRow q r src y acc) acc).2 := by
    intro l
    induction l with
    | nil => exact fun acc h => h
    | cons y l ih => exact fun acc h => ih _ (h.trans (State.signed_substituteRow ..))
  specialize h1 ((List.range (g.y1 + 1)).drop g.y0) (false, s) (.refl s)
  generalize ((List.range (g.y1 + 1)).drop g.y0).foldl (fun acc y => State.substituteRow q r src y acc) (false, s) = e at h1
  obtain ⟨bad, s1⟩ := e
  dsimp only at h1 ⊢
  have h2 : Signed s (if bad = true then s1.raise stSIG 4 (wd r) 0 0 else s1) := .ite (h1.trans (State.signed_raise (by decide) (by decide) ..)) h1
  exact .ite (h2.trans (State.signed_panelRedo ..)) h2

theorem State.self_mem_putCheck (c : SigCheck) (s : State) : c ∈ (s.putCheck c).sig.checks := by
  unfold State.putCheck
  dsimp only
  split
  · rename_i h
    obtain ⟨d, hd, hc⟩ := List.any_eq_true.mp h
    exact List.mem_map.mpr ⟨d, hd, if_pos hc⟩
  · exact List.mem_append_right _ (List.mem_singleton_self c)

/-- A field of one bit is that bit. -/
theorem State.f_of_bit {s t : State} {a i : Nat} (h : t.bit a i = s.bit a i) : t.f a i i = s.f a i i :=
  fld_of_bits fun j h1 h2 => by rwa [Nat.le_antisymm h2 h1]

/-! Decisions (R217, R220 to R225). -/

theorem State.inPavane_enterPavane {r : Nat} (hr : r < 16) (s : State) : (s.enterPavane r).inPavane r = true := by
  unfold State.enterPavane
  split
  · assumption
  · refine ((State.signed_raise (r := stSIG) (by decide) (by decide) ..).low _ ⟨by decide, by decide⟩ r hr).trans ?_
    refine (State.bit_of_reg (State.reg_setF_ne _ ?_ ..) r).trans (State.bit_setBit_same _ _ _ (by omega))
    simp only [Reg.SIG_PAVSTAT, Reg.SIG_REGr_STAT]
    omega

/-- A request that waits takes effect; where none waits nothing changes. -/
theorem State.takePavaneRequest_spec {r : Nat} (hr : r < 16) (s : State) : (s.bit Reg.SIG_PAVREQ r = false → s.takePavaneRequest r = s) ∧
    (s.bit Reg.SIG_PAVREQ r = true → (s.takePavaneRequest r).inPavane r = true ∧ (s.takePavaneRequest r).bit Reg.SIG_PAVREQ r = false) := by
  unfold State.takePavaneRequest
  refine ⟨fun h => if_neg (by rw [h]; decide), fun h => ?_⟩
  rw [if_pos h]
  extract_lets s1 s2
  have h1 : s1.bit Reg.SIG_PAVREQ r = false := s.bit_setBit_same _ _ (by omega)
  split
  · exact ⟨‹_›, h1⟩
  · refine ⟨State.inPavane_enterPavane hr _, ?_⟩
    unfold State.enterPavane
    split
    · exact h1
    · refine ((State.signed_raise (r := stSIG) (by decide) (by decide) ..).low _ ⟨by decide, by decide⟩ r hr).trans ?_
      refine (State.bit_of_reg (State.reg_setF_ne _ ?_ ..) r).trans ((State.bit_of_reg (State.reg_setBit_ne _ (by decide) ..) r).trans h1)
      simp only [Reg.SIG_PAVREQ, Reg.SIG_REGr_STAT]
      omega

/-- The decision itself: the check takes its outcome, and a pass makes the keep half copied the current one. -/
def State.decideCheck (c : SigCheck) (q : QFrame) (r : Nat) (pass : Bool) (sum : Nat) (s : State) : State :=
  let s1 := s.putCheck { c with decided := some (pass, sum), subDue := s.guarded q r && (!pass || s.inPavane r) && !q.sect }
  if pass && (decide ((q.region r).action = 1) || decide ((q.region r).action = 2)) && !s.inPavane r && c.copied then
    (s1.setF (Reg.SIG_REGr_STAT r) 9 9 (1 - s1.f (Reg.SIG_REGr_STAT r) 9 9)).setBit (Reg.SIG_REGr_STAT r) 8 true
  else s1

theorem execSignatureDecided_eq {region : Fin 16} {c : SigCheck} {q : QFrame} {s : State} (hf : s.frozen = false)
    (hc : s.sig.checks.find? (fun c => decide (c.region = region.val) && !c.skip && decide (c.decided = none)) = some c) (hq : s.frameOf c.frame c.sf = some q) :
    exec (.signatureDecided region) s = if c.next ≤ (q.region region.val).y1 then .next s else
      .next ((if (s.takePavaneRequest region.val).guarded q region.val &&
          (!decide (wd (c.crc ^^^ 0xFFFFFFFF) = (q.region region.val).exp) || (s.takePavaneRequest region.val).inPavane region.val) && !q.sect then
        ((s.takePavaneRequest region.val).decideCheck c q region.val (decide (wd (c.crc ^^^ 0xFFFFFFFF) = (q.region region.val).exp)) (c.crc ^^^ 0xFFFFFFFF)).substitute q region.val
      else (s.takePavaneRequest region.val).decideCheck c q region.val (decide (wd (c.crc ^^^ 0xFFFFFFFF) = (q.region region.val).exp)) (c.crc ^^^ 0xFFFFFFFF)).monPump q) := by
  refine (if_neg (by rw [hf]; decide)).trans ?_
  simp only [hc, hq]
  rfl

theorem sigStat_apart (r : Nat) : Reg.SIG_PAVSTAT ≠ Reg.SIG_REGr_STAT r ∧ Reg.SIG_PAVREQ ≠ Reg.SIG_REGr_STAT r := by
  simp only [Reg.SIG_PAVSTAT, Reg.SIG_PAVREQ, Reg.SIG_REGr_STAT]
  omega

theorem State.decideCheck_spec {c : SigCheck} {q : QFrame} {r : Nat} {pass : Bool} {sum : Nat} (s : State) :
    { c with decided := some (pass, sum), subDue := s.guarded q r && (!pass || s.inPavane r) && !q.sect } ∈ (s.decideCheck c q r pass sum).sig.checks ∧
    (∀ a, a ≠ Reg.SIG_REGr_STAT r → (s.decideCheck c q r pass sum).reg a = s.reg a) ∧
    (pass = true → (q.region r).action = 1 ∨ (q.region r).action = 2 → s.inPavane r = false → c.copied = true →
      (s.decideCheck c q r pass sum).bit (Reg.SIG_REGr_STAT r) 8 = true ∧
      (s.decideCheck c q r pass sum).f (Reg.SIG_REGr_STAT r) 9 9 = 1 - s.f (Reg.SIG_REGr_STAT r) 9 9) := by
  have hmem := s.self_mem_putCheck { c with decided := some (pass, sum), subDue := s.guarded q r && (!pass || s.inPavane r) && !q.sect }
  unfold State.decideCheck
  extract_lets s1
  refine ⟨?_, fun a ha => ?_, fun hp hact hin hcop => ?_⟩
  · split
    · exact hmem
    · exact hmem
  · split
    · exact (State.reg_setBit_ne _ ha ..).trans ((State.reg_setF_ne s1 ha ..).trans rfl)
    · rfl
  · rw [if_pos (by rcases hact with h | h <;> simp [hp, h, hin, hcop])]
    have hlt : s.f (Reg.SIG_REGr_STAT r) 9 9 < 2 := fld_lt ..
    refine ⟨State.bit_setBit_same _ _ _ (by decide), ?_⟩
    refine (State.f_setBit_out _ _ true (by omega)).trans ((State.f_setF_same _ _ (by decide)).trans ?_)
    exact Nat.mod_eq_of_lt (by omega)

theorem signatureDecided_spec {region : Fin 16} {c : SigCheck} {q : QFrame} {s u : State} {pass : Bool} {sum : Nat} (hf : s.frozen = false)
    (hc : s.sig.checks.find? (fun c => decide (c.region = region.val) && !c.skip && decide (c.decided = none)) = some c) (hq : s.frameOf c.frame c.sf = some q)
    (hn : (q.region region.val).y1 < c.next) (hu : u = s.takePavaneRequest region.val) (hsum : sum = c.crc ^^^ 0xFFFFFFFF) (hpass : pass = decide (wd sum = (q.region region.val).exp)) :
    Completes (.signatureDecided region) s fun t =>
      { c with decided := some (pass, sum), subDue := u.guarded q region.val && (!pass || u.inPavane region.val) && !q.sect } ∈ t.sig.checks ∧
      (s.bit Reg.SIG_PAVREQ region.val = true → t.inPavane region.val = true ∧ t.bit Reg.SIG_PAVREQ region.val = false) ∧
      (pass = true → (q.region region.val).action = 1 ∨ (q.region region.val).action = 2 → u.inPavane region.val = false → c.copied = true →
        t.bit (Reg.SIG_REGr_STAT region.val) 8 = true ∧
        t.f (Reg.SIG_REGr_STAT region.val) 9 9 = 1 - s.f (Reg.SIG_REGr_STAT region.val) 9 9) := by
  have hr : region.val < 16 := region.isLt
  have hx := (execSignatureDecided_eq hf hc hq).trans (if_neg (by omega))
  rw [← hu, ← hsum, ← hpass] at hx
  obtain ⟨d1, d2, d3⟩ := u.decideCheck_spec (c := c) (q := q) (r := region.val) (pass := pass) (sum := sum)
  obtain ⟨t1, t2⟩ := s.takePavaneRequest_spec hr
  rw [← hu] at t1 t2
  generalize hd : u.decideCheck c q region.val pass sum = d at hx d1 d2 d3
  have hkept : Signed d ((if u.guarded q region.val && (!pass || u.inPavane region.val) && !q.sect then d.substitute q region.val else d).monPump q) :=
    Signed.trans (.ite (State.signed_substitute ..) (.refl d)) (State.signed_monPump ..)
  have hstat : sigReg (Reg.SIG_REGr_STAT region.val) := by
    have := region.isLt
    refine ⟨blockOf_eq (by simp only [Reg.SIG_REGr_STAT]; omega) (by decide), ?_⟩
    simp only [Reg.SIG_REGr_STAT, Reg.SIG_STAT]
    omega
  refine ⟨_, hx, hkept.sig ▸ d1, fun h => ⟨?_, ?_⟩, fun hp hact hin hcop => ⟨?_, ?_⟩⟩
  · exact ((hkept.low _ ⟨by decide, by decide⟩ _ hr).trans (State.bit_of_reg (d2 _ (sigStat_apart _).1) _)).trans (t2 h).1
  · exact ((hkept.low _ ⟨by decide, by decide⟩ _ hr).trans (State.bit_of_reg (d2 _ (sigStat_apart _).2) _)).trans (t2 h).2
  · exact (hkept.low _ hstat 8 (by decide)).trans (d3 hp hact hin hcop).1
  · rw [State.f_of_bit (hkept.low _ hstat 9 (by decide)), (d3 hp hact hin hcop).2]
    have hreq : s.bit Reg.SIG_PAVREQ region.val = false := by
      by_contra h
      rw [(t2 (by simpa using h)).1] at hin
      cases hin
    rw [t1 hreq]

/-! Substitutions made (R223, R228). -/

theorem execSubstitutionDone_eq {region : Fin 16} {c : SigCheck} {s : State} (hf : s.frozen = false)
    (hc : s.sig.checks.find? (fun c => decide (c.region = region.val) && c.subDue && !c.subDone) = some c) :
    exec (.substitutionDone region) s = match s.frameOf c.frame c.sf with
      | none => .next (s.putCheck { c with subDone := true })
      | some q => .next ((s.putCheck { c with subDone := true }).monPump q) := by
  refine (if_neg (by rw [hf]; decide)).trans ?_
  simp only [hc]
  rfl

theorem substitutionDone_spec {region : Fin 16} {c : SigCheck} {s : State} (hf : s.frozen = false)
    (hc : s.sig.checks.find? (fun c => decide (c.region = region.val) && c.subDue && !c.subDone) = some c) :
    Completes (.substitutionDone region) s fun t => { c with subDone := true } ∈ t.sig.checks ∧ SameMemory s t := by
  have hx := execSubstitutionDone_eq hf hc
  have hmem := s.self_mem_putCheck { c with subDone := true }
  cases hq : s.frameOf c.frame c.sf with
  | none =>
    simp only [hq] at hx
    exact ⟨_, hx, hmem, fun _ => rfl⟩
  | some q =>
    simp only [hq] at hx
    refine ⟨_, hx, ?_, State.byte_congr (State.mem_monPump ..)⟩
    rw [(State.signed_monPump ..).sig]
    exact hmem

/-! Requests for Pavane, and exits (R222, R225). -/

/-- A request for one region. -/
def State.requestPavane (s : State) (r : Nat) : State :=
  if s.f Reg.QDL_CLLINES 8 0 < (regionFrom s.reg r).height + 72 then s.raise stSIG 3 (wd r) 0 0 else s.setBit Reg.SIG_PAVREQ r true

/-- Registers that requests for Pavane leave. -/
abbrev requestKeeps (a : Nat) : Prop := ¬ eventReg a ∧ a ≠ Reg.SIG_STAT ∧ a ≠ Reg.SIG_PAVREQ

theorem State.regionFrom_congr {s t : State} (h : ∀ a, requestKeeps a → t.reg a = s.reg a) {r : Nat} (hr : r < 16) : regionFrom t.reg r = regionFrom s.reg r := by
  have hk : ∀ a, 0x40080100 ≤ a → a < 0x40090000 → t.reg a = s.reg a := fun a h1 h2 => by
    refine h a ⟨?_, ?_, ?_⟩
    · have hb : blockOf a = 8 := blockOf_eq (by omega) (by omega)
      rintro (k | k)
      · rw [hb] at k
        cases k
      · omega
    · simp only [Reg.SIG_STAT]
      omega
    · simp only [Reg.SIG_PAVREQ]
      omega
  unfold regionFrom
  simp only [Reg.SIG_REGr_CTRL, Reg.SIG_REGr_X, Reg.SIG_REGr_Y, Reg.SIG_REGr_EXP, Reg.SIG_REGr_KEEP, Reg.SIG_REGr_KLIM, Reg.SIG_REGr_SAFE]
  rw [hk _ (by omega) (by omega), hk _ (by omega) (by omega), hk _ (by omega) (by omega), hk _ (by omega) (by omega), hk _ (by omega) (by omega), hk _ (by omega) (by omega),
    hk _ (by omega) (by omega)]

theorem State.requestPavane_spec {r : Nat} (hr : r < 16) (s : State) : (s.requestPavane r).mem = s.mem ∧ (∀ a, requestKeeps a → (s.requestPavane r).reg a = s.reg a) ∧
    (∀ k, (s.requestPavane r).bit Reg.SIG_PAVREQ k = (s.bit Reg.SIG_PAVREQ k || (decide (k = r) && decide ((regionFrom s.reg r).height + 72 ≤ s.f Reg.QDL_CLLINES 8 0)))) ∧
    (s.bit Reg.SIG_STAT 3 = true ∨ s.f Reg.QDL_CLLINES 8 0 < (regionFrom s.reg r).height + 72 → (s.requestPavane r).bit Reg.SIG_STAT 3 = true) := by
  unfold State.requestPavane
  split
  · rename_i h
    refine ⟨(State.told_raise ..).mem, fun a ha => State.reg_raise_ne s 3 _ _ _ ha.2.1 ha.1 (by decide), fun k => ?_, fun _ => ?_⟩
    · rw [State.bit_of_reg (State.reg_raise_ne (r := stSIG) s 3 _ _ _ (by decide) (by decide) (by decide)), decide_eq_false (by omega : ¬ _ + 72 ≤ _), Bool.and_false, Bool.or_false]
    · exact State.raise_bit s stSIG _ _ _ (by decide) (by decide) (StatReg.src_lt (by decide))
  · rename_i h
    refine ⟨rfl, fun a ha => State.reg_setBit_ne s ha.2.2 .., fun k => ?_, fun h0 => ?_⟩
    · rw [decide_eq_true (by omega : _ + 72 ≤ _), Bool.and_true]
      by_cases hk : k = r
      · rw [hk, s.bit_setBit_same _ _ (by omega)]
        simp
      · rw [s.bit_setBit_ne _ _ hk, decide_eq_false hk, Bool.or_false]
    · exact (State.bit_of_reg (State.reg_setBit_ne s (by decide) ..) 3).trans (h0.resolve_right h)

theorem State.requestPavanes_spec (l : List Nat) (s : State) (hl : ∀ r ∈ l, r < 16) :
    (l.foldl State.requestPavane s).mem = s.mem ∧ (∀ a, requestKeeps a → (l.foldl State.requestPavane s).reg a = s.reg a) ∧
    (∀ k, (l.foldl State.requestPavane s).bit Reg.SIG_PAVREQ k =
      (s.bit Reg.SIG_PAVREQ k || (decide (k ∈ l) && decide ((regionFrom s.reg k).height + 72 ≤ s.f Reg.QDL_CLLINES 8 0)))) ∧
    (s.bit Reg.SIG_STAT 3 = true ∨ (∃ r ∈ l, s.f Reg.QDL_CLLINES 8 0 < (regionFrom s.reg r).height + 72) → (l.foldl State.requestPavane s).bit Reg.SIG_STAT 3 = true) := by
  induction l generalizing s with
  | nil =>
    refine ⟨rfl, fun _ _ => rfl, fun k => by simp, fun h => ?_⟩
    rcases h with h | ⟨r, hr, -⟩
    · exact h
    · cases hr
  | cons r l ih =>
    have hr := hl r (List.mem_cons_self ..)
    obtain ⟨h1, h2, h3, h4⟩ := s.requestPavane_spec hr
    obtain ⟨k1, k2, k3, k4⟩ := ih (s.requestPavane r) fun x hx => hl x (List.mem_cons_of_mem _ hx)
    have hcl : (s.requestPavane r).f Reg.QDL_CLLINES 8 0 = s.f Reg.QDL_CLLINES 8 0 := State.f_of_reg (h2 _ ⟨by decide, by decide, by decide⟩) 8 0
    rw [List.foldl_cons]
    refine ⟨k1.trans h1, fun a ha => (k2 a ha).trans (h2 a ha), fun k => ?_, fun h => k4 ?_⟩
    · rw [k3, h3, hcl]
      by_cases hk : k < 16
      · rw [State.regionFrom_congr h2 hk]
        by_cases hkr : k = r
        · subst hkr
          simp only [List.mem_cons, true_or, decide_true, Bool.true_and]
          cases decide ((regionFrom s.reg k).height + 72 ≤ s.f Reg.QDL_CLLINES 8 0) <;> simp
        · simp [hkr, List.mem_cons]
      · have h1 : k ≠ r := by omega
        have h2 : k ∉ l := fun hm => hk (hl k (List.mem_cons_of_mem _ hm))
        simp [h1, h2]
    · rcases h with h | ⟨x, hx, h⟩
      · exact .inl (h4 (.inl h))
      · rcases List.mem_cons.mp hx with rfl | hx
        · exact .inl (h4 (.inr h))
        · refine .inr ⟨x, hx, ?_⟩
          rw [State.regionFrom_congr h2 (hl x (List.mem_cons_of_mem _ hx)), hcl]
          exact h

theorem mem_regions {v : Word} {r : Nat} (hr : r < 16) : r ∈ (bitsOf v).filter (fun r => decide (r < 16)) ↔ bitAt v r = true := by
  simp only [bitsOf, List.mem_filter, List.mem_range, decide_eq_true_eq]
  constructor
  · exact fun h => h.1.2
  · exact fun h => ⟨⟨by omega, h⟩, hr⟩

theorem lt_of_mem_regions {v : Word} {r : Nat} (h : r ∈ (bitsOf v).filter (fun r => decide (r < 16))) : r < 16 := by
  simpa using (List.mem_filter.mp h).2

theorem State.leavePavane_spec {r : Nat} (hr : r < 16) (s : State) : (s.leavePavane r).mem = s.mem ∧
    ∀ k, (s.leavePavane r).inPavane k = (s.inPavane k && !decide (k = r)) := by
  unfold State.leavePavane
  split
  · refine ⟨(State.told_raise ..).mem, fun k => ?_⟩
    refine (State.bit_of_reg (State.reg_raise_ne (r := stSIG) _ 2 _ _ _ (by decide) (by decide) (by decide)) k).trans ?_
    by_cases hk : k = r
    · rw [hk, s.bit_setBit_same _ _ (by omega)]
      simp
    · rw [s.bit_setBit_ne _ _ hk, decide_eq_false hk]
      exact (Bool.and_true _).symm
  · rename_i h
    refine ⟨rfl, fun k => ?_⟩
    by_cases hk : k = r
    · rw [hk]
      simpa using h
    · simp [hk]

theorem State.leavePavanes_spec (l : List Nat) (s : State) (hl : ∀ r ∈ l, r < 16) : (l.foldl (fun t r => t.leavePavane r) s).mem = s.mem ∧
    ∀ k, (l.foldl (fun t r => t.leavePavane r) s).inPavane k = (s.inPavane k && !decide (k ∈ l)) := by
  induction l generalizing s with
  | nil => exact ⟨rfl, fun k => by simp⟩
  | cons r l ih =>
    obtain ⟨h1, h2⟩ := s.leavePavane_spec (hl r (List.mem_cons_self ..))
    obtain ⟨k1, k2⟩ := ih (s.leavePavane r) fun x hx => hl x (List.mem_cons_of_mem _ hx)
    refine ⟨k1.trans h1, fun k => ?_⟩
    rw [List.foldl_cons, k2, h2]
    by_cases hk : k = r
    · simp [hk]
    · simp [hk]

/-- Settles O20, command by command. -/
theorem signatureDecisions : Obligations.SignatureDecisions := by
  unfold Obligations.SignatureDecisions
  refine fun s => ⟨fun region c hf hc => ⟨fun q u pass sum hq hn hu hsum hpass => signatureDecided_spec hf hc hq hn hu hsum hpass, fun q hq hn => ?_, fun hq => ?_⟩,
    fun region hf hc => ?_, fun region c hf hc => ⟨substitutionDone_spec hf hc, fun q hq => ?_, fun hq => ?_⟩, fun region hf hc => ?_, fun m v hm hoff => ?_, fun m v hm hoff => ?_⟩
  · exact (execSignatureDecided_eq hf hc hq).trans (if_pos hn)
  · refine (if_neg (by rw [hf]; decide)).trans ?_
    simp only [hc, hq]
  · refine (if_neg (by rw [hf]; decide)).trans ?_
    simp only [hc]
  · rw [execSubstitutionDone_eq hf hc, hq]
  · have hx := execSubstitutionDone_eq hf hc
    simp only [hq] at hx
    exact ⟨_, hx, rfl⟩
  · refine (if_neg (by rw [hf]; decide)).trans ?_
    simp only [hc]
  · have hx : exec (.pavaneRequest m v) s = .next ((((bitsOf v).filter fun r => decide (r < 16)).foldl State.requestPavane s).reply 0 0) :=
      congrArg Host.Outcome.next (State.askWrite_word (.inl hm) hoff (by decide) rfl)
    obtain ⟨h1, h2, h3, h4⟩ := State.requestPavanes_spec ((bitsOf v).filter fun r => decide (r < 16)) s fun r hr => lt_of_mem_regions hr
    refine ⟨_, hx, State.byte_congr h1, fun r hr => ⟨State.bit_of_reg (h2 Reg.SIG_PAVSTAT ⟨by decide, by decide, by decide⟩) r, (h3 r).trans ?_⟩,
      fun r hr hb hlim => h4 (.inr ⟨r, (mem_regions hr).mpr hb, hlim⟩)⟩
    simp only [mem_regions hr, Bool.decide_eq_true]
  · have hx : exec (.pavaneExitRequest m v) s = .next ((((bitsOf v).filter fun r => decide (r < 16)).foldl (fun t r => t.leavePavane r) s).reply 0 0) :=
      congrArg Host.Outcome.next (State.askWrite_word (.inl hm) hoff (by decide) rfl)
    obtain ⟨h1, h2⟩ := State.leavePavanes_spec ((bitsOf v).filter fun r => decide (r < 16)) s fun r hr => lt_of_mem_regions hr
    refine ⟨_, hx, State.byte_congr h1, fun r hr => (h2 r).trans ?_⟩
    simp only [mem_regions hr, Bool.decide_eq_true]

end Sys2Proof.Machine
end

section
/-! A statement that fails during the start-up march: a voice reads the word that the writes held until the march ends will leave (R82). -/

namespace Sys2Proof.Machine

open Sys2Proof Sys2Proof.Tests

/-- Voice 56 is to read the word at 0x1000_0010, for which a write of 5 is held until the start-up march has ended. -/
def marchingVoice : State :=
  let s := (quiet 0).setF (Reg.SNDv_STAT 56) 2 0 1
  { s with snd := { s.snd with voices := s.snd.voices.set 56 { emptyVoice with fmt := 0, start := 0x10000010, len := 100 } },
           fab := { s.fab with marching := true, held := [⟨14, 0x10000010, 0xFFFF, 5⟩] } }

theorem marchingVoice_reads : Res.nextHas (exec (.voiceFetch 56 .none) marchingVoice) (fun t => (t.voice 56).words == [(0x10000010, 5)]) = true := by
  decide +kernel

/-- Refutes O21: a voice that fetches during the start-up march takes the word as the held writes leave it, not as main SRAM holds it. -/
theorem not_soundBlocks : ¬ Obligations.SoundBlocks := by
  unfold Obligations.SoundBlocks
  rintro ⟨h, -⟩
  obtain ⟨-, -, -, -, -, -, hfetch, -⟩ := h marchingVoice (by decide +kernel)
  obtain ⟨t, ⟨hwords, -, -⟩, h0⟩ := (hfetch 56 0x10000010 (by decide +kernel) (by decide +kernel) (by decide) (by decide +kernel) (by decide +kernel)
    (by decide +kernel) (by decide +kernel)).next_has marchingVoice_reads
  have hmem : marchingVoice.le 0x10000010 16 = 0 := by decide +kernel
  have hnone : (marchingVoice.voice 56).words = [] := by decide +kernel
  have hread : [(0x10000010, 0)] = [(0x10000010, 5)] := by rw [← eq_of_beq h0, ← hmem]; exact (hwords.trans (by rw [show ((56 : Fin 64) : Nat) = 56 from rfl, hnone]; rfl)).symm
  exact absurd hread (by decide)

end Sys2Proof.Machine
end

section
/-! The cores' instructions: what fetching, the registers, results and retirement do to a core (R311, R314 to R320, R323). -/

namespace Sys2Proof.Machine

/-! Fetching: beside what reads of memory leave, only the words read ahead change. -/

/-- `t` is `s` after reads of core `c`: the words read ahead may differ, and what a read of a memory counts and reports. -/
def Fetched (c : Nat) (s t : State) : Prop := ∃ l u, Checked s u ∧ t = u.setCore c { s.core c with ahead := l }

theorem State.setCore_core (c : Nat) (s : State) : s.setCore c (s.core c) = s := by
  unfold State.setCore State.core
  split
  · rfl
  · split <;> rfl

/-- What a read of a memory leaves is left whatever the core holds. -/
theorem Checked.of_setCore {c : Nat} {x : CoreSt} {s t : State} (h : Checked (s.setCore c x) t) : ∃ u, Checked s u ∧ t = u.setCore c x := by
  obtain ⟨⟨regs, evr, irq, w, wb, jobs, words, rfl⟩, hr⟩ := h
  refine ⟨{ s with regs := regs, evr := evr, irq := irq, pwr := { s.pwr with waking := w }, fab := { s.fab with wb := wb, jobs := jobs, words := words } },
    ⟨⟨regs, evr, irq, w, wb, jobs, words, rfl⟩, fun a ha hm => ?_⟩, ?_⟩
  · exact (hr a ha hm).trans (State.reg_of_regs (s.regs_setCore c x) a)
  · unfold State.setCore
    split
    · rfl
    · split <;> rfl

theorem State.setCore_setCore (c : Nat) (x y : CoreSt) (s : State) : (s.setCore c x).setCore c y = s.setCore c y := by
  unfold State.setCore
  split
  · rfl
  · split <;> rfl

theorem Fetched.refl (c : Nat) (s : State) : Fetched c s s := ⟨(s.core c).ahead, s, .refl s, (State.setCore_core c s).symm⟩

theorem Fetched.trans {c : Nat} {s t u : State} (h : Fetched c s t) (k : Fetched c t u) : Fetched c s u := by
  obtain ⟨l, v, hv, rfl⟩ := h
  obtain ⟨l', w, hw, rfl⟩ := k
  obtain ⟨w', hw', rfl⟩ := hw.of_setCore
  refine ⟨l', w', hv.trans hw', ?_⟩
  rw [State.setCore_setCore, State.core_setCore_same]

theorem Checked.fetched (c : Nat) {s t : State} (h : Checked s t) : Fetched c s t :=
  ⟨(s.core c).ahead, t, h, by rw [← h.core c]; exact (State.setCore_core c t).symm⟩

theorem Fetched.setAhead (c : Nat) (s : State) (l : List (Nat × Nat × Word)) : Fetched c s (s.setCore c { s.core c with ahead := l }) := ⟨l, s, .refl s, rfl⟩

section
variable {c : Nat} {s t : State} (h : Fetched c s t)
include h

theorem Fetched.core_eq : t.core c = { s.core c with ahead := (t.core c).ahead } := by
  obtain ⟨l, u, -, rfl⟩ := h
  rw [State.core_setCore_same]

theorem Fetched.core_other (hc : c < 3) {d : Nat} (hd : d < 3) (hne : d ≠ c) : t.core d = s.core d := by
  obtain ⟨l, u, hu, rfl⟩ := h
  rw [State.core_setCore_ne _ hc hd hne, hu.core]

theorem Fetched.mem : t.mem = s.mem := by
  obtain ⟨l, u, hu, rfl⟩ := h
  rw [State.mem_setCore, hu.mem]

theorem Fetched.reg {a : Nat} (ha : ¬ eventReg a) (hm : ¬ mrcReg a) : t.reg a = s.reg a := by
  obtain ⟨l, u, hu, rfl⟩ := h
  rw [State.reg_setCore, hu.regs a ha hm]

end

theorem State.fetched_noteAhead (c : Nat) (l : List (Nat × Nat × Word)) (s : State) : Fetched c s (s.noteAhead c l) :=
  .setAhead c s _

theorem State.fetched_fetchAt {c : Nat} (hc : c < 3) (a : Nat) (s : State) : Fetched c s (s.fetchAt c a) := by
  have hl := (State.checked_localRead hc a 4 s).fetched c
  have hs := (State.checked_sramRead (corePort c) (a / 16 * 16) s).fetched c
  suffices h : ∃ f, f = @State.fetchAt ∧ Fetched c s (f c a s) by
    obtain ⟨f, rfl, h⟩ := h
    exact h
  delta State.fetchAt
  revert hl hs
  generalize @State.localRead = lr
  generalize @State.sramRead = sr
  revert lr sr
  refine id fun lr sr hl hs => ⟨_, rfl, ?_⟩
  dsimp only
  split
  · exact .refl c s
  · split
    · exact State.fetched_noteAhead c _ s
    · exact hl.trans (State.fetched_noteAhead c _ _)
    · exact hs.trans (State.fetched_noteAhead c _ _)
    · exact State.fetched_noteAhead c _ s

theorem State.fetched_fetchAhead {c : Nat} (hc : c < 3) (s : State) : Fetched c s (s.fetchAhead c) := by
  have h1 := State.fetched_fetchAt hc (s.core c).pc s
  unfold State.fetchAhead
  extract_lets p s1 s2 x
  have h2 : Fetched c s s2 := by
    unfold s2
    split
    · exact h1
    · exact (h1.trans (State.fetched_fetchAt hc _ _)).trans (State.fetched_fetchAt hc _ _)
  exact h2.trans (.setAhead c s2 _)

/-! An instruction that begins has its effect. -/

theorem Begins.issueRes {c : Nat} (hc : c < 3) {w : Word} {s : State} (h : Begins c w s) (f : State → Res) : s.issueRes c w f = f (s.fetchAhead c) := by
  obtain ⟨hb, hw, hd, hn⟩ := h
  have hwaits : (names w).any ((s.fetchAhead c).core c).waits = false := by
    rw [List.any_eq_false]
    intro i hi
    rw [(State.fetched_fetchAhead hc s).core_eq]
    simpa [CoreSt.waits] using hn i hi
  simp only [State.issueRes, hb, hw, hd, hwaits, Bool.not_true, Bool.false_eq_true, if_false, ne_eq, not_true_eq_false]

theorem Begins.issue {c : Nat} (hc : c < 3) {w : Word} {s : State} (h : Begins c w s) (f : State → State) : s.issue c w f = .next (f (s.fetchAhead c)) :=
  h.issueRes hc fun t => .next (f t)

theorem Begins.running {c : Nat} {w : Word} {s : State} (h : Begins c w s) : (s.core c).run = .run := by
  have hb := h.1
  simp only [State.boundary, Bool.and_eq_true, decide_eq_true_eq] at hb
  exact hb.1.1.1

/-- Nothing is due for the word: it is legal, and may stand where it stands. -/
theorem Begins.word_due {c : Nat} {w : Word} {s : State} (h : Begins c w s) : (s.fetchAhead c).wordDue c w = none := by
  obtain ⟨-, hw, hd, -⟩ := h
  unfold State.due at hd
  dsimp only at hd
  split at hd
  · simp at hd
  · simp at hd
  · unfold State.dueWord at hd
    dsimp only at hd
    rw [hw, if_neg (by simp)] at hd
    split at hd
    · simp at hd
    · simpa using hd

theorem Begins.legal {c : Nat} {w : Word} {s : State} (h : Begins c w s) : legal w = true := by
  have hd := h.word_due
  unfold State.wordDue at hd
  dsimp only at hd
  split at hd
  · simp at hd
  · split at hd
    · simp at hd
    · simpa using ‹¬ (!Machine.legal w) = true›

/-- An instruction that a delay slot may not hold begins outside one (R317). -/
theorem Begins.no_slot {c : Nat} (hc : c < 3) {w : Word} {s : State} (h : Begins c w s) (hw : slotBan w = true) : (s.core c).slot = none := by
  have hd := h.word_due
  unfold State.wordDue at hd
  dsimp only at hd
  rw [hw, Bool.and_true, (State.fetched_fetchAhead hc s).core_eq] at hd
  split at hd
  · simp at hd
  · simpa using ‹¬ (s.core c).slot.isSome = true›

/-! Retirement. -/

/-- ST.SEC is all of a core that the gate changes. -/
theorem CoreSt.gate_spec (x y : CoreSt) (c : Nat) : ∃ st, x.gate y c = { y with st := st } ∧ ∀ i, i ≠ 5 → bitAt st i = bitAt y.st i := by
  unfold CoreSt.gate
  split
  · exact ⟨y.st, rfl, fun _ _ => rfl⟩
  · split
    · exact ⟨_, rfl, fun i hi => bitAt_putBit_ne y.st true hi⟩
    · split
      · exact ⟨y.st, rfl, fun _ _ => rfl⟩
      · exact ⟨_, rfl, fun i hi => bitAt_putBit_ne y.st false hi⟩

theorem State.core_stopNext_same (c cause which : Nat) (s : State) :
    ∃ due, (s.stopNext c cause which).core c = { s.core c with stopDue := due } := by
  unfold State.stopNext
  dsimp only
  split
  · exact ⟨_, rfl⟩
  · exact ⟨some (cause, which), State.core_setCore_same ..⟩

theorem State.core_stopNext_ne {c d : Nat} (hc : c < 3) (hd : d < 3) (h : d ≠ c) (cause which : Nat) (s : State) :
    (s.stopNext c cause which).core d = s.core d := by
  unfold State.stopNext
  dsimp only
  split
  · rfl
  · exact State.core_setCore_ne _ hc hd h _

/-- The core after an instruction: ST.SEC follows the gate, and a step may be over. -/
theorem State.core_retire_same (c : Nat) (skip : Bool) (br : Option Nat) (s : State) :
    ∃ st due, (s.retire c skip br).core c = { (s.core c).next skip br with st := st, passBreak := false, stepping := false, stopDue := due } ∧
      ∀ i, i ≠ 5 → bitAt st i = bitAt ((s.core c).next skip br).st i := by
  obtain ⟨st, hg, hst⟩ := (s.core c).gate_spec ((s.core c).next skip br) c
  unfold State.retire
  dsimp only
  rw [hg]
  split
  · obtain ⟨due, hdue⟩ := State.core_stopNext_same c 4 0 (s.setCore c
      { (s.core c).next skip br with st := st, passBreak := false, stepping := false })
    rw [hdue, State.core_setCore_same]
    exact ⟨_, _, rfl, hst⟩
  · rw [State.core_setCore_same]
    exact ⟨_, _, rfl, hst⟩

theorem State.core_retire_ne {c d : Nat} (hc : c < 3) (hd : d < 3) (h : d ≠ c) (skip : Bool) (br : Option Nat) (s : State) :
    (s.retire c skip br).core d = s.core d := by
  unfold State.retire
  dsimp only
  split
  · rw [State.core_stopNext_ne hc hd h, State.core_setCore_ne _ hc hd h]
  · rw [State.core_setCore_ne _ hc hd h]

/-- What `CoreSt.next` leaves. -/
theorem CoreSt.next_spec (x : CoreSt) (skip : Bool) (br : Option Nat) :
    x.next skip br = { x with pc := (x.next skip br).pc, slot := (x.next skip br).slot, ahead := (x.next skip br).ahead } := by
  unfold CoreSt.next
  split <;> rfl

/-! Going on after an instruction. -/

/-- The instruction's effect `y` on a core that stands where it stood, and its retirement. -/
structure Retires (c : Nat) (y : CoreSt) (s t : State) : Prop where
  own : ∃ st pc slot ahead due, t.core c = { y with st := st, pc := pc, slot := slot, ahead := ahead, passBreak := false, stepping := false, stopDue := due } ∧
    ∀ i, i ≠ 5 → bitAt st i = bitAt y.st i
  others : ∀ d, d < 3 → d ≠ c → t.core d = s.core d

theorem State.retires {c : Nat} (hc : c < 3) (y : CoreSt) (skip : Bool) (br : Option Nat) (s : State) : Retires c y s ((s.setCore c y).retire c skip br) := by
  obtain ⟨st, due, he, hst⟩ := (s.setCore c y).core_retire_same c skip br
  rw [State.core_setCore_same, CoreSt.next_spec] at he
  rw [State.core_setCore_same, CoreSt.next_spec] at hst
  exact ⟨⟨st, _, _, _, due, he, hst⟩, fun d hd hne => (State.core_retire_ne hc hd hne skip br _).trans (State.core_setCore_ne _ hc hd hne y)⟩

theorem State.pc_retire (c : Nat) (y : CoreSt) (skip : Bool) (br : Option Nat) (s : State) :
    (((s.setCore c y).retire c skip br).core c).pc = (y.next skip br).pc ∧ (((s.setCore c y).retire c skip br).core c).slot = (y.next skip br).slot := by
  obtain ⟨st, due, he, -⟩ := (s.setCore c y).core_retire_same c skip br
  rw [he, State.core_setCore_same]
  exact ⟨rfl, rfl⟩

end Sys2Proof.Machine
end

section
/-! Instructions whose effect is on their core alone: the arithmetic and logical group (O26; R311, R314, R319). -/

namespace Sys2Proof.Machine

/-- After an effect that leaves it running, a core goes on where `CoreSt.next` says. -/
theorem Fetched.goes {c : Nat} (hc : c < 3) {s t : State} (h : Fetched c s t) {y : CoreSt} (hrun : y.run = .run) (skip : Bool) (br : Option Nat) :
    Moved c y.g (y.next skip br).pc s ((t.setCore c y).retire c skip br) ∧ (((t.setCore c y).retire c skip br).core c).slot = (y.next skip br).slot ∧
      SameMemory s ((t.setCore c y).retire c skip br) := by
  obtain ⟨st, pc, slot, ahead, due, he, -⟩ := (t.retires hc y skip br).own
  obtain ⟨hpc, hslot⟩ := t.pc_retire c y skip br
  refine ⟨⟨?_, hpc, ?_, fun d hd hne => ((t.retires hc y skip br).others d hd hne).trans (h.core_other hc hd hne)⟩, hslot, State.byte_congr ?_⟩
  · rw [he]
  · rw [he]
    exact hrun
  · rw [State.mem_retire, State.mem_setCore, h.mem]

/-- After an effect `y` that leaves PC, the delay slot and the run state, a core goes on at the next instruction. -/
theorem Fetched.goes_on {c : Nat} (hc : c < 3) {s t : State} (h : Fetched c s t) {y : CoreSt} (hpc : y.pc = (s.core c).pc)
    (hslot : y.slot = (s.core c).slot) (hrun : y.run = .run) :
    Moved c y.g (NextPc c s) s ((t.setCore c y).retire c false none) ∧ (((t.setCore c y).retire c false none).core c).slot = none ∧
      SameMemory s ((t.setCore c y).retire c false none) := by
  have hn : (y.next false none).pc = NextPc c s ∧ (y.next false none).slot = none := by
    unfold NextPc
    rw [← hslot, ← hpc]
    cases hs : y.slot with
    | none => simp [CoreSt.next, hs]
    | some q => simp [CoreSt.next, hs]
  rw [← hn.1, ← hn.2]
  exact h.goes hc hrun false none

/-- An instruction that puts a value into a register. -/
theorem Begins.wrote {c : Fin 3} {w : Word} {i : Instr} {s : State} (h : Begins c.val w s) {rd : Nat} {f : CoreSt → Word}
    (hx : exec i s = s.issue c.val w fun t => t.alter c.val fun x => x.put rd (f x))
    (hf : ∀ l, f { s.core c.val with ahead := l } = f (s.core c.val)) : Completes i s (Wrote c.val rd (f (s.core c.val)) s) := by
  have ht := State.fetched_fetchAhead c.isLt s
  refine ⟨_, hx.trans (h.issue c.isLt _), ?_⟩
  have hw : f ((s.fetchAhead c.val).core c.val) = f (s.core c.val) := by rw [ht.core_eq, hf]
  have hg : ((s.fetchAhead c.val).core c.val).g = (s.core c.val).g := by rw [ht.core_eq]
  have hgo := ht.goes_on c.isLt (y := ((s.fetchAhead c.val).core c.val).put rd (f ((s.fetchAhead c.val).core c.val)))
    (by rw [ht.core_eq]; rfl) (by rw [ht.core_eq]; rfl) (by rw [ht.core_eq]; exact h.running)
  rw [hw] at hgo
  unfold Wrote
  rw [← hg, ← hw]
  rw [← hw] at hgo
  exact hgo

/-- The low five bits of a shift amount. -/
theorem fld_shift (b : Word) : fld b 4 0 = b.toNat % 32 := by simp [fld]

/-- RD := RA op RB. -/
theorem State.wrote_op3 {c : Fin 3} {o : Nat} {rd ra rb : Fin 16} {i : Instr} (g : Word → Word → Word) {s : State}
    (hx : exec i s = s.op3 c o rd ra rb g) (h : Begins c.val (encR o rd.val ra.val rb.val) s) :
    Completes i s (Wrote c.val rd.val (g ((s.core c.val).r ra.val) ((s.core c.val).r rb.val)) s) :=
  h.wrote (f := fun x => g (x.r ra.val) (x.r rb.val)) hx fun _ => rfl

/-- RD := RA op IMM. -/
theorem State.wrote_opImm {c : Fin 3} {o : Nat} {rd ra : Fin 16} {imm : BitVec 18} {i : Instr} (g : Word → Word) {s : State}
    (hx : exec i s = s.opImm c o rd ra imm g) (h : Begins c.val (encI o rd.val ra.val imm) s) :
    Completes i s (Wrote c.val rd.val (g ((s.core c.val).r ra.val)) s) :=
  h.wrote (f := fun x => g (x.r ra.val)) hx fun _ => rfl

/-- Settles O26: each clause is one use of the rule for its form. -/
theorem coreArithmetic : Obligations.CoreArithmetic := by
  unfold Obligations.CoreArithmetic
  intro c rd ra rb imm sh hi a b s ha hb
  rw [ha, hb, ← fld_shift]
  exact ⟨State.wrote_op3 (· + ·) rfl, State.wrote_op3 (· - ·) rfl, State.wrote_op3 (· &&& ·) rfl, State.wrote_op3 (· ||| ·) rfl,
    State.wrote_op3 (· ^^^ ·) rfl, State.wrote_op3 (fun a b => a <<< fld b 4 0) rfl, State.wrote_op3 (fun a b => a >>> fld b 4 0) rfl,
    State.wrote_op3 (fun a b => a.sshiftRight (fld b 4 0)) rfl, State.wrote_opImm (· + imm.signExtend 32) rfl,
    State.wrote_opImm (· &&& imm.setWidth 32) rfl, State.wrote_opImm (· ||| imm.setWidth 32) rfl, State.wrote_opImm (· ^^^ imm.setWidth 32) rfl,
    State.wrote_opImm (· <<< sh.toNat) rfl, State.wrote_opImm (· >>> sh.toNat) rfl, State.wrote_opImm (·.sshiftRight sh.toNat) rfl,
    State.wrote_opImm (ra := 0) (fun _ => imm.signExtend 32) rfl,
    State.wrote_opImm (ra := 0) (imm := hi.setWidth 18) (fun _ => wd (hi.toNat * 2 ^ 16)) rfl⟩

end Sys2Proof.Machine
end

section
/-! The multiply, divide and coprocessor units: results that come later (O27; R319, R320, R323). -/

namespace Sys2Proof.Machine

/-! The square root, bit by bit. -/

/-- One step of the root: the bit `p` is taken if the square stays within `a`. -/
def sqrtStep (a r p : Nat) : Nat := if (r + p) ^ 2 ≤ a then r + p else r

theorem floorSqrt_eq (a : Nat) : floorSqrt a = (List.range 16).foldl (fun r i => sqrtStep a r (2 ^ (15 - i))) 0 := rfl

/-- After `n` steps the root is known to within the bits that are left. -/
theorem sqrtSteps_bounds {a : Nat} (ha : a < 2 ^ 32) {n : Nat} (hn : n ≤ 16) :
    ((List.range n).foldl (fun r i => sqrtStep a r (2 ^ (15 - i))) 0) ^ 2 ≤ a ∧
      a < ((List.range n).foldl (fun r i => sqrtStep a r (2 ^ (15 - i))) 0 + 2 ^ (16 - n)) ^ 2 := by
  induction n with
  | zero => exact ⟨by simp, by simpa using ha⟩
  | succ k ih =>
    rw [List.range_succ, List.foldl_append, List.foldl_cons, List.foldl_nil]
    obtain ⟨hlo, hhi⟩ := ih (by omega)
    generalize (List.range k).foldl (fun r i => sqrtStep a r (2 ^ (15 - i))) 0 = r at hlo hhi ⊢
    have hp : 2 ^ (16 - k) = 2 ^ (15 - k) + 2 ^ (15 - k) := by rw [show 16 - k = (15 - k) + 1 by omega, pow_succ]; omega
    rw [hp, ← Nat.add_assoc] at hhi
    rw [show 16 - (k + 1) = 15 - k by omega]
    unfold sqrtStep
    split
    · exact ⟨‹_›, hhi⟩
    · exact ⟨hlo, by omega⟩

theorem floorSqrt_spec {a : Nat} (ha : a < 2 ^ 32) :
    floorSqrt a * floorSqrt a ≤ a ∧ a < (floorSqrt a + 1) * (floorSqrt a + 1) ∧ floorSqrt a < 2 ^ 32 := by
  obtain ⟨hlo, hhi⟩ := sqrtSteps_bounds ha (Nat.le_refl 16)
  rw [← floorSqrt_eq] at hlo hhi
  have hlo' : floorSqrt a * floorSqrt a ≤ a := by simpa [pow_two] using hlo
  exact ⟨hlo', by simpa [pow_two] using hhi, ((Nat.le_mul_self _).trans hlo').trans_lt ha⟩

/-! Posting a result. -/

/-- A result of a unit is posted, and the core goes on. -/
theorem Fetched.posts {c : Nat} (hc : c < 3) {s t : State} (h : Fetched c s t) (hrun : (s.core c).run = .run) (st : Word) (rd : Nat) (v : Word) :
    Posted c rd v s (((t.setCore c { t.core c with st := st }).expect c (unitResult rd v)).retire c false none) ∧
      ∀ i, i ≠ 5 → bitAt ((((t.setCore c { t.core c with st := st }).expect c (unitResult rd v)).retire c false none).core c).st i = bitAt st i := by
  have he : (t.setCore c { t.core c with st := st }).expect c (unitResult rd v) =
      t.setCore c { t.core c with st := st, results := (t.core c).results ++ [unitResult rd v] } := by
    unfold State.expect
    rw [State.core_setCore_same, State.setCore_setCore]
  rw [he]
  obtain ⟨hmoved, -, hmem⟩ := h.goes_on hc (y := { t.core c with st := st, results := (t.core c).results ++ [unitResult rd v] })
    (by rw [h.core_eq]) (by rw [h.core_eq]) (by rw [h.core_eq]; exact hrun)
  obtain ⟨_, _, _, _, _, hown, hst⟩ := (t.retires hc { t.core c with st := st, results := (t.core c).results ++ [unitResult rd v] } false none).own
  refine ⟨⟨?_, ?_, hmem⟩, ?_⟩
  · have hg : (t.core c).g = (s.core c).g := by rw [h.core_eq]
    rw [← hg]
    exact hmoved
  · rw [hown, h.core_eq]
  · rw [hown]
    exact hst

/-- RD := RA op RB through a unit. -/
theorem State.posted_unit3 {c : Fin 3} {o : Nat} {rd ra rb : Fin 16} {i : Instr} {dz : Bool} (g : Word → Word → Word) {s : State}
    (hx : exec i s = s.unit3 c o rd ra rb dz g) (h : Begins c.val (encR o rd.val ra.val rb.val) s) :
    Completes i s fun t => bitAt (t.core c.val).st 1 = (bitAt (s.core c.val).st 1 || (dz && decide ((s.core c.val).r rb.val = 0))) ∧
      Posted c.val rd.val (g ((s.core c.val).r ra.val) ((s.core c.val).r rb.val)) s t := by
  have ht := State.fetched_fetchAhead c.isLt s
  refine ⟨_, hx.trans (h.issue c.isLt _), ?_⟩
  dsimp only
  have hr : ∀ j, ((s.fetchAhead c.val).core c.val).r j = (s.core c.val).r j := fun j => by rw [ht.core_eq]; rfl
  have hst : ((s.fetchAhead c.val).core c.val).st = (s.core c.val).st := by rw [ht.core_eq]
  have hy : ∀ p : Bool, (if p = true then { (s.fetchAhead c.val).core c.val with st := putBit ((s.fetchAhead c.val).core c.val).st 1 true }
      else (s.fetchAhead c.val).core c.val) =
      { (s.fetchAhead c.val).core c.val with st := if p = true then putBit (s.core c.val).st 1 true else (s.core c.val).st } := by
    intro p
    cases p
    · rw [← hst]; rfl
    · rw [← hst]; rfl
  rw [hy, hr, hr]
  obtain ⟨hp, hbits⟩ := ht.posts c.isLt h.running
    (if (dz && decide ((s.core c.val).r rb.val = 0)) = true then putBit (s.core c.val).st 1 true else (s.core c.val).st) rd.val
    (g ((s.core c.val).r ra.val) ((s.core c.val).r rb.val))
  refine ⟨(hbits 1 (by decide)).trans ?_, hp⟩
  cases hz : dz && decide ((s.core c.val).r rb.val = 0) with
  | true =>
    rw [if_pos rfl, bitAt_putBit_same _ _ _ (by decide), Bool.or_true]
  | false =>
    rw [if_neg Bool.false_ne_true, Bool.or_false]

/-- RD := a coprocessor operation of RA and RB. -/
theorem State.posted_cop {c : Fin 3} {fn : Nat} {rd ra rb : Fin 16} {i : Instr} (g : Word → Word → Word) {s : State}
    (hx : exec i s = s.cop c fn rd ra rb g) (h : Begins c.val (encR 0x3E rd.val ra.val rb.val ||| wd fn) s) :
    Completes i s (Posted c.val rd.val (g ((s.core c.val).r ra.val) ((s.core c.val).r rb.val)) s) := by
  have ht := State.fetched_fetchAhead c.isLt s
  refine ⟨_, hx.trans (h.issue c.isLt _), ?_⟩
  dsimp only
  have hr : ∀ j, ((s.fetchAhead c.val).core c.val).r j = (s.core c.val).r j := fun j => by rw [ht.core_eq]; rfl
  have hp := (ht.posts c.isLt h.running ((s.fetchAhead c.val).core c.val).st rd.val (g ((s.core c.val).r ra.val) ((s.core c.val).r rb.val))).1
  rw [show ({ (s.fetchAhead c.val).core c.val with st := ((s.fetchAhead c.val).core c.val).st } : CoreSt) = (s.fetchAhead c.val).core c.val from rfl,
    State.setCore_core] at hp
  rw [hr, hr]
  exact hp

/-- A unit that sets no flag only posts. -/
theorem Completes.posted {i : Instr} {s : State} {P Q : State → Prop} (h : Completes i s fun t => P t ∧ Q t) : Completes i s Q := by
  obtain ⟨t, hx, -, hq⟩ := h
  exact ⟨t, hx, hq⟩

/-- Settles O27: each clause is one use of the rule for its unit; the root is known to within the bits that are left at each step. -/
theorem coreUnits : Obligations.CoreUnits := by
  unfold Obligations.CoreUnits
  intro c rd ra rb a b s ha hb
  rw [ha, hb]
  refine ⟨fun h => (State.posted_unit3 (dz := false) (· * ·) rfl h).posted,
    fun h => (State.posted_unit3 (dz := false) (fun a b => BitVec.ofInt 32 (a.toInt * b.toInt / 2 ^ 32)) rfl h).posted,
    fun h => (State.posted_unit3 (dz := false) (fun a b => wd (a.toNat * b.toNat / 2 ^ 32)) rfl h).posted,
    State.posted_unit3 (dz := true) (fun a b => if b = 0 then 0xFFFFFFFF else BitVec.ofInt 32 (a.toInt.tdiv b.toInt)) rfl,
    State.posted_unit3 (dz := true) (fun a b => if b = 0 then 0xFFFFFFFF else wd (a.toNat / b.toNat)) rfl,
    State.posted_unit3 (dz := true) (fun a b => if b = 0 then a else BitVec.ofInt 32 (a.toInt.tmod b.toInt)) rfl,
    State.posted_unit3 (dz := true) (fun a b => if b = 0 then a else wd (a.toNat % b.toNat)) rfl, fun h => ?_,
    State.posted_cop (fun a b => wd (crc32Run a.toNat (leBytes 4 b.toNat))) rfl,
    State.posted_cop (fun a b => wd (crc32Run a.toNat (leBytes 1 b.toNat))) rfl⟩
  obtain ⟨t, hx, hp⟩ := State.posted_cop (i := .gvIsqrt c rd ra) (rb := 0) (fun a _ => wd (floorSqrt a.toNat)) rfl h
  obtain ⟨hlo, hhi, hlt⟩ := floorSqrt_spec ((s.core c.val).r ra.val).isLt
  refine ⟨t, hx, _, hp, ?_⟩
  rw [wd, BitVec.toNat_ofNat, Nat.mod_eq_of_lt hlt]
  exact ⟨hlo, hhi⟩

end Sys2Proof.Machine
end

section
/-! Branches, skips and the field instructions (O30; R315 to R319). -/

namespace Sys2Proof.Machine

/-! The operation code of an encoded instruction. -/

theorem iOp_wd {o x : Nat} (ho : o < 64) (hx : x < 2 ^ 26) : iOp (wd (o * 2 ^ 26 + x)) = o := by
  simp only [iOp, fld, wd, BitVec.toNat_ofNat, Nat.shiftRight_eq_div_pow]
  omega

theorem iOp_encR {o rd ra rb : Nat} (ho : o < 64) (hd : rd < 16) (ha : ra < 16) (hb : rb < 16) : iOp (encR o rd ra rb) = o := by
  unfold encR
  rw [Nat.add_assoc, Nat.add_assoc]
  exact iOp_wd ho (by omega)

theorem iOp_encI {o rd ra : Nat} (imm : BitVec 18) (ho : o < 64) (hd : rd < 16) (ha : ra < 16) : iOp (encI o rd ra imm) = o := by
  have := imm.isLt
  unfold encI
  rw [Nat.add_assoc, Nat.add_assoc]
  exact iOp_wd ho (by omega)

theorem iOp_encJ {o : Nat} (off : BitVec 26) (ho : o < 64) : iOp (encJ o off) = o := iOp_wd ho off.isLt

theorem slotBan_of_iOp {w : Word} {o : Nat} (h : iOp w = o) (hlo : 0x30 ≤ o) (hhi : o ≤ 0x38) : slotBan w = true := by
  simp [slotBan, h, hlo, hhi]

/-! Branching and skipping. -/

/-- A branch: the next word runs in the delay slot, and then the target (R315). -/
theorem Begins.branched {c : Fin 3} {w : Word} {i : Instr} {s : State} (h : Begins c.val w s) (hban : slotBan w = true) {f : CoreSt → CoreSt} {g : CoreSt → Nat}
    (hx : exec i s = s.issue c.val w fun t => (t.setCore c.val (f (t.core c.val))).retire c.val false (some (g (t.core c.val))))
    (hf : ∀ x : CoreSt, (f x).pc = x.pc ∧ (f x).slot = x.slot ∧ (f x).run = x.run)
    (hl : ∀ l, (f { s.core c.val with ahead := l }).g = (f (s.core c.val)).g ∧ g { s.core c.val with ahead := l } = g (s.core c.val))
    (hg : g (s.core c.val) < 2 ^ 32) :
    Completes i s fun t => Moved c.val (f (s.core c.val)).g (((s.core c.val).pc + 4) % 2 ^ 32) s t ∧
      (t.core c.val).slot = some ((s.core c.val).pc, g (s.core c.val) / 4 * 4) ∧ SameMemory s t := by
  have ht := State.fetched_fetchAhead c.isLt s
  have hno := h.no_slot c.isLt hban
  refine ⟨_, hx.trans (h.issue c.isLt _), ?_⟩
  obtain ⟨l, hcore⟩ : ∃ l, (s.fetchAhead c.val).core c.val = { s.core c.val with ahead := l } := ⟨_, ht.core_eq⟩
  obtain ⟨hpc, hslot, hrun⟩ := hf { s.core c.val with ahead := l }
  have hgo := ht.goes c.isLt (y := f { s.core c.val with ahead := l }) (hrun.trans h.running) false (some (g (s.core c.val)))
  have hn : ((f { s.core c.val with ahead := l }).next false (some (g (s.core c.val)))).pc = ((s.core c.val).pc + 4) % 2 ^ 32 ∧
      ((f { s.core c.val with ahead := l }).next false (some (g (s.core c.val)))).slot = some ((s.core c.val).pc, g (s.core c.val) / 4 * 4) := by
    have hs : (f { s.core c.val with ahead := l }).slot = none := hslot.trans hno
    have hlt : g (s.core c.val) / 4 * 4 % 2 ^ 32 = g (s.core c.val) / 4 * 4 := Nat.mod_eq_of_lt (by omega)
    simp only [CoreSt.next, hs, hpc, hlt, and_self]
  rw [hn.1, hn.2, (hl l).1] at hgo
  rw [hcore, (hl l).2]
  exact hgo

/-- A skip passes over the next word where its condition holds (R316). -/
theorem Begins.skipped {c : Fin 3} {w : Word} {i : Instr} {s : State} (h : Begins c.val w s) (hban : slotBan w = true) {g : CoreSt → Bool}
    (hx : exec i s = s.issue c.val w fun t => t.retire c.val (g (t.core c.val)) none) (hl : ∀ l, g { s.core c.val with ahead := l } = g (s.core c.val)) :
    Completes i s fun t => Moved c.val (s.core c.val).g (((s.core c.val).pc + if g (s.core c.val) = true then 8 else 4) % 2 ^ 32) s t ∧ SameMemory s t := by
  have ht := State.fetched_fetchAhead c.isLt s
  have hno := h.no_slot c.isLt hban
  refine ⟨_, hx.trans (h.issue c.isLt _), ?_⟩
  obtain ⟨l, hcore⟩ : ∃ l, (s.fetchAhead c.val).core c.val = { s.core c.val with ahead := l } := ⟨_, ht.core_eq⟩
  obtain ⟨hm, -, hmem⟩ := ht.goes c.isLt (y := { s.core c.val with ahead := l }) h.running (g (s.core c.val)) none
  have hn : (({ s.core c.val with ahead := l } : CoreSt).next (g (s.core c.val)) none).pc =
      ((s.core c.val).pc + if g (s.core c.val) = true then 8 else 4) % 2 ^ 32 := by
    simp only [CoreSt.next, hno]
  rw [hn] at hm
  have hback : (s.fetchAhead c.val).setCore c.val { s.core c.val with ahead := l } = s.fetchAhead c.val := by rw [← hcore, State.setCore_core]
  rw [hback] at hm hmem
  have hval : g ((s.fetchAhead c.val).core c.val) = g (s.core c.val) := by rw [hcore, hl]
  rw [hval]
  exact ⟨hm, hmem⟩

/-! Fields and bytes. -/

/-- A field that is written reads bit by bit as the number written. -/
theorem bitAt_setFld_in (w : Word) {hi lo v j : Nat} (h32 : j < 32) (hlo : lo ≤ j) (hhi : j ≤ hi) : bitAt (setFld w hi lo v) j = v.testBit (j - lo) := by
  simp only [bitAt, setFld, fmask, BitVec.getLsbD_or, BitVec.getLsbD_and, BitVec.getLsbD_not, BitVec.getLsbD_ofNat, h32, decide_true,
    Bool.true_and, Nat.testBit_shiftLeft, Nat.testBit_two_pow_sub_one, Nat.testBit_mod_two_pow]
  simp [hlo, show j - lo < hi + 1 - lo by omega]

/-- A number that fits the field, with the field's top bit as its sign. -/
theorem signed_field {n v : Nat} (hn : n ≤ 32) (hv : v < 2 ^ n) :
    (if 2 ^ (n - 1) ≤ v then wd (v + 2 ^ 32 - 2 ^ n) else wd v) = wi (sext n v) := by
  have hp : 2 ^ n ≤ 2 ^ 32 := Nat.pow_le_pow_right (by decide) hn
  unfold sext wi wd
  dsimp only
  rw [Nat.mod_eq_of_lt hv]
  by_cases h : 2 ^ (n - 1) ≤ v
  · rw [if_pos h, if_neg (by omega)]
    have hc : ((v + 2 ^ 32 - 2 ^ n : Nat) : Int) = ((v : Int) - (2 ^ n : Nat)) + (2 ^ 32 : Nat) := by omega
    rw [← BitVec.ofInt_natCast, hc, BitVec.ofInt_add]
    simp
  · rw [if_neg h, if_pos (by omega), BitVec.ofInt_natCast]

theorem extractField_signed {a : Word} {p w : Nat} (hw : w < 32) : extractField a p (w + 1) true = wi (sext (w + 1) (fld a (p + w) p)) := by
  have hv : fld a (p + w) p < 2 ^ (w + 1) := by
    have h := fld_lt a (p + w) p
    rwa [show p + w + 1 - p = w + 1 by omega] at h
  rw [← signed_field (by omega) hv]
  simp [extractField, ← Nat.add_assoc]

theorem extractField_unsigned (a : Word) (p w : Nat) : extractField a p (w + 1) false = wd (fld a (p + w) p) := by
  simp [extractField, ← Nat.add_assoc]

/-- The leading zeros of a word are those above its highest one. -/
theorem clz_spec (a : Word) : clz a ≤ 32 ∧ a.toNat < 2 ^ (32 - clz a) ∧ (clz a < 32 → 2 ^ (31 - clz a) ≤ a.toNat) := by
  have hzero : ∀ n, n ≤ 32 → (∀ i, i < n → bitAt a (31 - i) = false) → a.toNat < 2 ^ (32 - n) := by
    intro n hn hz
    refine Nat.lt_pow_two_of_testBit _ fun j hj => ?_
    by_cases h32 : j < 32
    · have := hz (31 - j) (by omega)
      rwa [show 31 - (31 - j) = j by omega] at this
    · exact BitVec.getLsbD_of_ge a j (by omega)
  unfold clz
  cases hf : (List.range 32).find? fun i => bitAt a (31 - i) with
  | none =>
    have hz := List.find?_eq_none.mp hf
    exact ⟨Nat.le_refl _, hzero 32 (by decide) fun i hi => by simpa using hz i (List.mem_range.mpr hi), fun h => absurd h (by simp)⟩
  | some n =>
    obtain ⟨hb, hmem, hbefore⟩ := List.find?_range_eq_some.mp hf
    have hn : n < 32 := List.mem_range.mp hmem
    exact ⟨hn.le, hzero n hn.le fun i hi => by simpa using hbefore i hi, fun _ => Nat.ge_two_pow_of_testBit hb⟩

theorem permByte_lt (n : Nat) (a d : Word) : permByte n a d < 256 := by
  have hf : ∀ (x : Word) (k : Nat), fld x (k + 7) k < 256 := fun x k => by
    have h := fld_lt x (k + 7) k
    rwa [show k + 7 + 1 - k = 8 by omega] at h
  unfold permByte
  split
  · exact hf ..
  · split
    · exact hf ..
    · split <;> decide

/-- Four bytes as a word hold each its own byte. -/
theorem fld_fourBytes {f : Nat → Nat} (hf : ∀ k, f k < 256) {k : Nat} (hk : k < 4) :
    fld (wd ((List.range 4).map fun k => f k * 256 ^ k).sum) (8 * k + 7) (8 * k) = f k := by
  have h0 := hf 0
  have h1 := hf 1
  have h2 := hf 2
  have h3 := hf 3
  have hs : ∀ g : Nat → Nat, ((List.range 4).map g).sum = g 0 + (g 1 + (g 2 + (g 3 + 0))) := fun _ => rfl
  rw [hs, fld, wd, BitVec.toNat_ofNat, Nat.shiftRight_eq_div_pow, show 8 * k + 7 + 1 - 8 * k = 8 by omega]
  obtain rfl | rfl | rfl | rfl : k = 0 ∨ k = 1 ∨ k = 2 ∨ k = 3 := by omega
  all_goals omega

/-- Settles O30: branches, skips and field instructions are each an instance of one rule; the fields are compared bit by bit. -/
theorem coreBranches : Obligations.CoreBranches := by
  unfold Obligations.CoreBranches
  intro c rd ra rb a b p s ha hb hp
  rw [ha, hb, hp]
  refine ⟨fun off h => ?_, fun off h => ?_, fun h => ?_, fun h => ?_, fun h => ?_, fun cc h => ?_, fun cc imm h => ?_, fun i v h => ?_,
    fun pos w h => ?_, fun pos w h => ?_, fun pos w h => ?_, fun h => ?_, fun sel h => ?_⟩
  · exact h.branched (f := id) (g := fun x => branchTo x.pc off) (slotBan_of_iOp (iOp_encJ off (by decide)) (by decide) (by decide)) (by
      simp only [id_eq, State.setCore_core]; rfl) (fun _ => ⟨rfl, rfl, rfl⟩) (fun _ => ⟨rfl, rfl⟩) (BitVec.isLt _)
  · exact h.branched (f := CoreSt.link) (g := fun x => branchTo x.pc off) (slotBan_of_iOp (iOp_encJ off (by decide)) (by decide) (by decide)) rfl
      (fun _ => ⟨rfl, rfl, rfl⟩) (fun _ => ⟨rfl, rfl⟩) (BitVec.isLt _)
  · exact h.branched (f := id) (g := fun x => (x.r ra.val).toNat) (slotBan_of_iOp (iOp_encR (by decide) (by decide) ra.isLt (by decide)) (by decide) (by decide)) (by
      simp only [id_eq, State.setCore_core]; rfl) (fun _ => ⟨rfl, rfl, rfl⟩) (fun _ => ⟨rfl, rfl⟩) (BitVec.isLt _)
  · exact h.branched (f := CoreSt.link) (g := fun x => (x.r ra.val).toNat)
      (slotBan_of_iOp (iOp_encR (by decide) (by decide) ra.isLt (by decide)) (by decide) (by decide)) rfl
      (fun _ => ⟨rfl, rfl, rfl⟩) (fun _ => ⟨rfl, rfl⟩) (BitVec.isLt _)
  · exact h.branched (f := id) (g := fun x => (x.r 15).toNat) (slotBan_of_iOp (iOp_encR (by decide) (by decide) (by decide) (by decide)) (by decide) (by decide)) (by
      simp only [id_eq, State.setCore_core]; rfl) (fun _ => ⟨rfl, rfl, rfl⟩) (fun _ => ⟨rfl, rfl⟩) (BitVec.isLt _)
  · exact h.skipped (g := fun x => holds cc.val (x.r ra.val) (x.r rb.val))
      (slotBan_of_iOp (iOp_encR (by decide) cc.isLt ra.isLt rb.isLt) (by decide) (by decide)) rfl fun _ => rfl
  · exact h.skipped (g := fun x => holds cc.val (x.r ra.val) (imm.signExtend 32))
      (slotBan_of_iOp (iOp_encI imm (by decide) cc.isLt ra.isLt) (by decide) (by decide)) rfl fun _ => rfl
  · have hk := h.skipped (i := .gvTbsk c ra i v) (g := fun x => bitAt (x.r ra.val) i.val == v)
      (slotBan_of_iOp (iOp_encI _ (by decide) (by cases v <;> decide) ra.isLt) (by decide) (by decide)) rfl fun _ => rfl
    simpa only [beq_iff_eq] using hk
  · rw [← extractField_unsigned]
    exact State.wrote_opImm (fun a => extractField a pos.val (w.val + 1) false) rfl h
  · rw [← extractField_signed w.isLt]
    exact State.wrote_opImm (fun a => extractField a pos.val (w.val + 1) true) rfl h
  · obtain ⟨t, hx, hw⟩ := h.wrote (i := .gvBfi c rd ra pos w)
      (f := fun x => setFld (x.r rd.val) (pos.val + w.val) pos.val (fld (x.r ra.val) w.val 0)) rfl fun _ => rfl
    refine ⟨t, hx, _, hw, fun i hi => ?_⟩
    split
    · rename_i hin
      rw [bitAt_setFld_in _ hi hin.1 hin.2, testBit_fld, Nat.zero_add]
      simp [bitAt, show i - pos.val < w.val + 1 by omega]
    · exact bitAt_setFld_out _ (by omega) (by omega)
  · obtain ⟨t, hx, hw⟩ := State.wrote_opImm (i := .gvClz c rd ra) (fun a => wd (clz a)) rfl h
    exact ⟨t, hx, _, hw, clz_spec _⟩
  · obtain ⟨t, hx, hw⟩ := h.wrote (i := .gvPerm c rd ra sel) (f := fun x => wd ((List.range 4).map fun k =>
      permByte (sel.toNat / 16 ^ k % 16) (x.r ra.val) (x.r rd.val) * 256 ^ k).sum) rfl fun _ => rfl
    exact ⟨t, hx, _, hw, fun k hk => fld_fourBytes (f := fun k => permByte (sel.toNat / 16 ^ k % 16) ((s.core c.val).r ra.val) ((s.core c.val).r rd.val))
      (fun k => permByte_lt _ _ _) hk⟩

end Sys2Proof.Machine
end
